-- ==== Sys2Proof/Word.lean ====
section
/-! DEFINITION. The word types of the GW7144 model and their plainest arithmetic: a 32-bit register word, a byte, a 64 B
chunk (the unit of a host access) and a Tally value. -/

namespace Sys2Proof

/-- A 32-bit register or packet word (R25, R350). -/
abbrev Word := BitVec 32

/-- One byte of a staged or program image. -/
abbrev Byte := BitVec 8

/-- A 64 B chunk, the unit in which hosts read and write (R9). -/
abbrev Chunk := BitVec 512

/-- A 64-bit value: a Tally (R45), a key word or a 64-bit parameter. -/
abbrev Dword := BitVec 64

/-- The low and high words of a 64-bit value, low word first (R26, R350). -/
def Dword.lo (d : Dword) : Word := d.setWidth 32

/-- The high word of a 64-bit value. -/
def Dword.hi (d : Dword) : Word := (d >>> 32).setWidth 32

/-- A 64-bit value from its two words. -/
def Dword.ofWords (lo hi : Word) : Dword := hi ++ lo

end Sys2Proof
end

