-- ==== Sys2Proof/Machine/StateSupervision.lean ====
section
/-! DEFINITION. The state of the always-on and supervision blocks: the event fabric (chapter 2), the Tally and its
schedule table (chapter 3), the flash, the vault, the NV store, the recorder and the watchdog (chapter 16), and the power
supervisor (chapter 17). Plain data only; what acts on it is in the family files. -/

namespace Sys2Proof.Machine

/-- A sparse table: entries in strictly rising key order, none equal to the table's default (`Tab.wf` in `Ops.lean`). -/
abbrev Tab (α : Type) := List (Nat × α)

/-! ### The CSR window and the event fabric -/

/-- How an access acts on the addressed register, Table 2-1. -/
inductive AccessKind where
  | primary | set | clear | toggle
  deriving DecidableEq, Repr

/-- Who makes a register access (R26, R28): each CXL LD, each control core and the debug port are separate requesters. An LD comes by the CSR
window, or by the channel pages of its BAR0 (Table 11-2, R342). -/
inductive Requester where
  | ld (port : Fin 4) (ld : Fin 16)
  | page (port : Fin 4) (ld : Fin 16)
  | core (n : Fin 8)
  | debug
  deriving DecidableEq, Repr

/-- A write posted to the always-on domain and not yet applied (R31); `low` the held low word that a write of a high word commits with it
(R26). -/
structure PostedWrite where
  req : Requester
  off : Nat
  kind : AccessKind
  value : Word
  low : Option Word := none
  deriving DecidableEq, Repr

/-- An access a requester has made to the CSR window, as it stands at the bus: `read` for a read. -/
structure BusAccess where
  req : Requester
  read : Bool
  off : Nat
  kind : AccessKind
  size : Nat
  full : Bool
  data : Dword
  deriving DecidableEq, Repr

/-- The low word of a 64-bit register that a requester has written and not yet committed (R26). -/
structure HeldWord where
  req : Requester
  off : Nat
  value : Word
  deriving DecidableEq, Repr

/-- The register window's own state beside the registers: held low words, latched high words, the always-on posting queue,
the accesses of requesters held at the bus behind a full queue, oldest first (R26, R31), and what the record of the last lock violation holds
(R33). -/
structure Csr where
  heldWrite : List HeldWord := []
  heldRead : List HeldWord := []
  posted : List PostedWrite := []
  blocked : List BusAccess := []
  lockAt : Word := 0
  deriving DecidableEq, Repr

/-- The event fabric, R36 to R39: raw levels, pending bits, and the always-on copies of pending, EN, EVTN, REC and GLOBAL_EN.
The routes are registers. -/
structure Evt where
  raw : BitVec 512 := 0
  pend : BitVec 512 := 0
  aonPend : BitVec 512 := 0
  aonEn : BitVec 512 := 0
  aonEvtn : BitVec 512 := 0
  aonRec : BitVec 512 := 0
  aonGlobal : Bool := false
  deriving DecidableEq, Repr

/-- The SRAM scrubber, R43 and R44: the memory it has reached, in Table 2-8 order; `part` the lines whose repair both copies of a partial-line
table word await, and `jrnl` the setts whose translation both copies of a journal word left to be rebuilt. -/
structure Ecc where
  mem : Nat := 0
  part : List Nat := []
  jrnl : List Nat := []
  deriving DecidableEq, Repr

/-! ### The Tally -/

/-- TLY_STATUS.TRUST. -/
inductive Trust where
  | untrusted | provisional | trusted
  deriving DecidableEq, Repr

/-- TLY_STATUS.SOURCE, Table 3-3. -/
inductive TimeSource where
  | none | ptp | secure | twin | holdover | holdoverPps
  deriving DecidableEq, Repr

/-- The floor record, R50. -/
structure Floor where
  secs : BitVec 48 := 0
  trust : Trust := .untrusted
  orderly : Bool := false
  deriving DecidableEq, Repr

/-- The stamps of one medium group, R58: S_NOW of its last anchor rewrite and of its rails last going down. -/
structure GroupStamp where
  anchor : BitVec 48 := 0
  powered : BitVec 48 := 0
  deriving DecidableEq, Repr

/-- The Tally, chapter 3. `qualified` holds the qualified sources among PTP, signed time and the twin; the `…Barred` flags
are the 60 s of R50 and the override of R48; `ptpGood` counts consecutive Sync intervals within ±1 µs; `slew` is what is
still to be slewed and `phase` counts ticks; `errFrac` is the fraction of TLY_HOLD_ERR in units of 1/655,360 µs; `entry` is TLY_NOW at the entry to KEEP or DORMANT (R64); `reqLow` is
WAKE_REQ_N low. -/
structure Tally where
  now : Dword := 0
  pend : Dword := 0
  floor : Floor := {}
  trust : Trust := .untrusted
  source : TimeSource := .none
  started : Bool := false
  catchup : Bool := false
  jumpPending : Bool := false
  disagree : Bool := false
  ppsLock : Bool := false
  ppsEdges : Nat := 0
  ptpGood : Nat := 0
  ptpQualified : Bool := false
  ptpOverridden : Bool := false
  ptpHoldoff : Bool := false
  twinQualified : Bool := false
  twinHoldoff : Bool := false
  secQualified : Bool := false
  secHoldoff : Bool := false
  acquiring : Bool := false
  setSinceVaon : Bool := false
  holdErr : Word := 0xFFFFFFFF#32
  errFrac : Nat := 0
  slew : Dword := 0
  phase : Nat := 0
  entry : Dword := 0
  reqLow : Bool := false
  stamps : Tab GroupStamp := []
  deriving DecidableEq, Repr

/-- Which column of Table 3-5 a firing follows. -/
inductive Column where
  | active | keep | dormant
  deriving DecidableEq, Repr

/-- Result of a slot's last firing, SCH_CTRL.RESULT. -/
inductive FireResult where
  | none | done | busy | held | missed
  deriving DecidableEq, Repr

/-- One schedule slot, Table 3-4. -/
structure Slot where
  time : Dword := 0
  arm : Bool := false
  miss : BitVec 8 := 0
  result : FireResult := .none
  action : BitVec 4 := 0
  arg : Word := 0
  period : Word := 0
  owner : BitVec 8 := 0xFF#8
  deriving DecidableEq, Repr

/-- The schedule table, R53 to R57: the live slots, their NV copies, the slots marked at VAON power-up, and the slots whose
HELD firing runs at the next ACTIVE. -/
structure Sched where
  slots : Tab Slot := []
  saved : Tab Slot := []
  marked : BitVec 256 := 0
  held : BitVec 256 := 0
  deriving DecidableEq, Repr

/-! ### The NV store, the recorder and the watchdog -/

/-- One copy of a dual-copy record (R405): whether it is valid, its SEQ and write-stamp, and its payload words. -/
structure NvCopy where
  valid : Bool := false
  seq : Nat := 0
  stamp : Nat := 0
  payload : List Nat := []
  deriving DecidableEq, Repr

/-- A dual-copy record (R405, R406). -/
structure NvRecord where
  a : NvCopy := {}
  b : NvCopy := {}
  deriving DecidableEq, Repr

/-- A slot ring (R408): its SEQ16 and value, and whether any slot is valid. -/
structure NvRing where
  valid : Bool := false
  seq : BitVec 16 := 0
  value : Nat := 0
  deriving DecidableEq, Repr

/-- The NV store, R404 to R410: dual-copy records by record number (`Config.nv…`), slot rings by ring number, the commit
count of the write-stamp, and Keeper's word. -/
structure Nv where
  records : Tab NvRecord := []
  rings : Tab NvRing := []
  commits : BitVec 24 := 0
  keepWord : BitVec 20 := 0
  keepRun : Bool := false
  keepLast : BitVec 20 := 0
  deriving DecidableEq, Repr

/-- A recorder entry, Table 16-8. A snapshot word is absent where its block was powered off. -/
structure Entry where
  tally : Dword := 0
  index : BitVec 32 := 0
  code : BitVec 16 := 0
  source : BitVec 10 := 0x3FF#10
  principal : BitVec 8 := 0xFF#8
  suppressed : BitVec 16 := 0
  detail : Word := 0
  snap : List (Option Word) := []
  list : BitVec 8 := 0
  agen : BitVec 16 := 0
  deriving DecidableEq, Repr

/-- A recorder token bucket (R413): its settings, its tokens and the offers suppressed since the last admitted entry. -/
structure Bucket where
  rate : BitVec 8 := 60#8
  burst : BitVec 6 := 15#6
  list : BitVec 8 := 0
  tokens : Nat := 16
  suppressed : BitVec 16 := 0
  deriving DecidableEq, Repr

/-- The recorder, R411 to R416: the ring by place, the next INDEX, the clear index, EVR_ARCHIVED, the INDEX up to which entries
are placed in vault pages, whether archiving runs, the buckets by code, and the snapshot lists (offsets of list × 8 + k). -/
structure Evr where
  ring : Tab Entry := []
  next : BitVec 32 := 0
  clear : BitVec 32 := 0
  archived : BitVec 32 := 0
  paged : BitVec 32 := 0
  archiving : Bool := false
  buckets : Tab Bucket := []
  lists : Tab Word := []
  deriving DecidableEq, Repr

/-- WDG_STATUS.STAGE. -/
inductive WdgStage where
  | stage1 | stage2 | paused | disabled
  deriving DecidableEq, Repr

/-- The watchdog, R417 and R418: its stage, the milliseconds left in it, and a reset held for a flash operation. -/
structure Wdg where
  stage : WdgStage := .paused
  ms : BitVec 16 := 0
  hold : Bool := false
  deriving DecidableEq, Repr

/-! ### The flash -/

/-- A flash partition, Table 16-1, as FLS_STATUS.PART numbers it. -/
inductive FlashPart where
  | boot | slotA | slotB | config | vault
  deriving DecidableEq, Repr

/-- A program or erase of the flash, in request order (R398): a page program of 256 B, or a sector erase. `upper` marks an
upper vault page. -/
inductive FlashOp where
  | program (part : FlashPart) (page : Nat) (upper : Bool)
  | erase (part : FlashPart) (sector : Nat)
  deriving DecidableEq, Repr

/-- FLS_STATUS.OP. -/
inductive FlashState where
  | idle | program | erase | suspended | held
  deriving DecidableEq, Repr

/-- The state of a firmware slot in the slot record, Table 16-10. -/
inductive ImageState where
  | empty | writing | valid
  deriving DecidableEq, Repr

/-- What the slot record keeps of a slot's image header, and `good`: whether the image in the slot passes the checks of R419
(header, signature), which the model takes from the commit that verified it. -/
structure ImageInfo where
  state : ImageState := .empty
  len : Nat := 0
  version : Word := 0
  secver : BitVec 8 := 0
  compat : BitVec 16 := 0
  good : Bool := false
  deriving DecidableEq, Repr

/-- The slot record, Table 16-10. -/
structure SlotRecord where
  active : Bool := false
  trial : Bool := false
  restarts : BitVec 2 := 0
  bootCopy : BitVec 2 := 0
  a : ImageInfo := { state := .valid, good := true }
  b : ImageInfo := {}
  deriving DecidableEq, Repr

/-- FLS_SLOT.BOOT_SRC. -/
inductive BootSrc where
  | active | other | recovery | loader
  deriving DecidableEq, Repr

/-- What a vault page holds (Table 16-5): recorder entries, a part of a crash dump, a die's fits and log, wear statistics, or
nothing (a pad page, LEN 0). -/
inductive VaultData where
  | events (es : List Entry)
  | crash (dump part : Nat)
  | calib (die : Nat) (part : Nat)
  | wear (die : Nat) (part : Nat)
  | pad (kind : Fin 4)
  deriving DecidableEq, Repr

/-- A page of the vault, in flash order: its sequence in its kind, its data, whether it is the upper page of its pair, whether it
verified, whether it has settled (so that its source copy is freed), and whether it failed or was cut (R401 to R403). -/
structure VaultPage where
  kind : Fin 4
  pseq : Nat
  data : VaultData
  upper : Bool := false
  settled : Bool := false
  bad : Bool := false
  deriving DecidableEq, Repr

/-- A firmware command at work: a chunk program, the copy of a committed recovery image from a slot, an activation, or a commit whose image is read back (R423, R424), with
the channel and TAG of its command; none where it came by the CXL mailbox or by a start-up. -/
inductive FwWork where
  | chunk (who : Option (Fin 64 × BitVec 16))
  | copy (who : Option (Fin 64 × BitVec 16)) (slot : Bool)
  | activate (who : Option (Fin 64 × BitVec 16))
  | commit (who : Fin 64 × BitVec 16)
  deriving DecidableEq, Repr

/-- The control cores: off, in retention, running, restarting, running the recovery image, or in the bootstrap loader. -/
inductive CoreState where
  | off | retention | running | restarting | recovery | loader
  deriving DecidableEq, Repr

/-- The flash, the vault and the boot engine, chapter 16. `ops` holds the operations in request order, the running one first;
`pages` the vault pages in flash order; `image` the words of the slots by flash address; `bootGood` whether the recovery image
in BOOT verifies; `configBad` the copy of CONFIG whose digest fails (B where true); `ram` the bootstrap loader's control-core memory; `restartAt` the TLY_NOW of the restarts not caused by
activation in the last 600 s; `dumps` the crash dumps written. -/
structure Flash where
  state : FlashState := .idle
  ops : List FlashOp := []
  lowBand : Bool := false
  slots : SlotRecord := {}
  bootGood : Bool := true
  configBad : Option Bool := none
  bootSrc : BootSrc := .active
  runSlot : Bool := false
  runCompat : BitVec 16 := 0
  runVersion : Word := 0
  pages : List VaultPage := []
  image : Tab Word := []
  ram : Tab Byte := []
  work : Option FwWork := none
  cores : CoreState := .off
  restartAt : List Dword := []
  dumps : Nat := 0
  deriving DecidableEq, Repr

/-! ### The supervisor -/

/-- PSQ_STATUS.PSTATE, Table 17-6. -/
inductive PState where
  | dormant | poweringUp | active | idle | enteringKeep | keep | leavingKeep | poweringDown | lockout
  deriving DecidableEq, Repr

/-- PSQ_RAIL_STATUS.STATE, Table 17-13. -/
inductive RailState where
  | off | wait | ramp | qual | on | failed | down
  deriving DecidableEq, Repr

/-- One rail: its state, the level of its enable and power-good pins, its drops in this qualification, its filtered glitches,
and its retries used. -/
structure Rail where
  state : RailState := .off
  en : Bool := false
  pg : Bool := false
  drops : Nat := 0
  glitches : BitVec 8 := 0
  retries : BitVec 4 := 0
  deriving DecidableEq, Repr

/-- What a transition switches (chapter 17, *Bringing rails up and down*). -/
inductive TransKind where
  | powerUp | keepLeave | burst (group : Fin 9) | retry (rail : Fin 24) | groupUp (group : Fin 9)
  | powerDown | keepDown | burstDown | groupDown
  deriving DecidableEq, Repr

/-- A transition in progress: what it is and the rails it switches; for a retry, whether its rails are still going down. -/
structure Trans where
  kind : TransKind
  rails : BitVec 24
  goingDown : Bool := false
  deriving DecidableEq, Repr

/-- The power reaction that a power-down carries out when it ends (Table 8-4): stay off, or power up again. -/
inductive Reaction where
  | off | cycle | warm | keep
  deriving DecidableEq, Repr

/-- Requests waiting for a transition to end (Table 17-9). -/
structure Waiting where
  on : Bool := false
  off : Bool := false
  keepEnter : Bool := false
  keepLeave : Bool := false
  deriving DecidableEq, Repr

/-- One entry of the default sequence table: T_PGQ 2 ms, RAMP 20 ms and N_CHAT 6 throughout (Tables 17-1, 17-2). -/
def seqEntry (en dep delay keep group : Nat) : List Word :=
  [BitVec.ofNat 32 (en * 2 ^ 31 + dep), BitVec.ofNat 32 (20 * 65536 + 20 * 256 + delay),
    BitVec.ofNat 32 (keep * 256 + group * 16 + 6), 0]

/-- The sequence table as the part leaves manufacture, Table 17-2, as 24 entries of four words. -/
def seqDefault : List Word :=
  seqEntry 1 (2 ^ 9) 0 1 0 ++ seqEntry 1 1 0 1 0 ++ seqEntry 1 2 135 1 0 ++ seqEntry 1 4 0 0 2 ++ seqEntry 1 8 0 0 2 ++
  seqEntry 1 4 0 0 3 ++ seqEntry 1 32 0 0 3 ++ seqEntry 1 4 0 2 4 ++ seqEntry 1 1 0 1 1 ++ seqEntry 1 0 0 1 0 ++
  seqEntry 1 (2 ^ 19) 0 2 5 ++ seqEntry 1 (2 ^ 19 + 2 ^ 10) 23 2 5 ++ seqEntry 1 (2 ^ 19 + 2 ^ 11) 23 2 5 ++
  seqEntry 1 (2 ^ 19 + 2 ^ 12) 23 2 5 ++ seqEntry 1 (2 ^ 19 + 2 ^ 13) 23 2 5 ++ seqEntry 1 (2 ^ 19 + 2 ^ 14) 23 2 5 ++
  seqEntry 1 (2 ^ 19 + 2 ^ 15) 23 2 5 ++ seqEntry 1 (2 ^ 19 + 2 ^ 16) 23 2 5 ++ seqEntry 1 (2 ^ 19 + 2 ^ 17) 23 2 5 ++
  seqEntry 1 (2 ^ 7 + 2 ^ 9) 0 2 4 ++ seqEntry 0 0 0 0 6 ++ seqEntry 0 0 0 0 6 ++ seqEntry 0 0 0 0 6 ++ seqEntry 0 0 0 0 6

/-- The supervisor, chapter 17. `vaon` says the always-on domain is ready, `mainUp` that the main domain is out of reset. `seqSh`
and `seqAct` are the 96 words of the shadow and active sequence tables; `trans` the transition in progress and `backoff` the wait
before its next attempt; `waiting` the requests it holds; `coolOff` T_OFF_MIN running and `tripHold` the 60 s after a trip;
`offByInput` that the last off came of the input (R438); `down` what follows a power-down in progress; `reaction` the severity of a
fault reaction in progress; `groupsDown` the quarry groups and `heldGroups` the rail groups (by GROUP code) held down under
GROUP_OFF; `inventoried` the quarry groups that passed inventory since VAON power-up; `burst` the group of a running KEEP burst;
`warm` a warm reset that holds the main domain in reset; `flashHold` the reaction held for a flash operation (R418). -/
structure Psq where
  vaon : Bool := false
  pstate : PState := .dormant
  rails : Tab Rail := []
  seqSh : List Word := seqDefault
  seqAct : List Word := seqDefault
  trans : Option Trans := none
  backoff : Bool := false
  attempt : Nat := 0
  waiting : Waiting := {}
  coolOff : Bool := false
  tripHold : Bool := false
  inputGood : Bool := false
  offByInput : Bool := false
  down : Option Reaction := none
  reaction : Nat := 0
  groupsDown : BitVec 9 := 0
  heldGroups : BitVec 8 := 0
  inventoried : BitVec 9 := 0
  throttle : Bool := false
  burst : Option (Fin 9) := none
  mrLow : Bool := false
  pbLow : Bool := false
  pwrFailLow : Bool := false
  mainUp : Bool := false
  drainDone : Bool := false
  warm : Bool := false
  flashHold : Option Reaction := none
  tj : BitVec 8 := 0x80#8
  deriving DecidableEq, Repr

end Sys2Proof.Machine
end

