-- ==== Sys2Proof/Machine/StateMedium.lean ====
section
/-! DEFINITION. The state of the medium side: quarry channels and groups (chapter 4), dies with their age scale logs and fits
(chapter 5), translation entries, zones and moves (chapters 6 and 10), the young map, and Teasel's passes (chapter 7). -/

namespace Sys2Proof.Machine

/-- A cell mode as the translation entry codes it: none (00, unallocated or reading zero), M2, M3, M4. -/
inductive Mode where
  | none | m2 | m3 | m4
  deriving DecidableEq, Repr

/-- A physical sett address: die index (QC × 16 + PKG × 8 + DIE, R120), zone and slot. -/
structure Phys where
  die : Nat
  zone : Nat
  slot : Nat
  deriving DecidableEq, Repr

/-- MIG of a translation entry. -/
inductive Mig where
  | idle | promoting | demoting | moving | rewrite | remap | rebuild
  deriving DecidableEq, Repr

/-- A 256 B line as four 64 B chunks, chunk 0 lowest. -/
abbrev Line := BitVec 2048

/-- A sett's translation entry with its band offsets (R94 to R100, R240, Table 10-2). `band` is whether a band is set. -/
structure Sett where
  phys : Option Phys := Option.none
  mode : Mode := .none
  gen : BitVec 24 := 1
  lrot : BitVec 8 := 0
  wear : BitVec 16 := 0
  mig : Mig := .idle
  band : Bool := false
  bandOld : BitVec 20 := 0
  bandNew : BitVec 20 := 0
  oldOfs : BitVec 12 := 0
  newOfs : BitVec 12 := 0
  spoilPending : Bool := false
  promoted : Bool := false
  young : Bool := false
  deriving DecidableEq, Repr

/-- A young generation (R104, Table 5-4): stamps in seconds with 8 fraction bits, the lines that live in it, and its way in the bucket. -/
structure Young where
  way : Fin 4 := 0
  tFirst : BitVec 40
  tLast : BitVec 40
  lines : BitVec 256
  deriving DecidableEq, Repr

/-- One entry of a die's age-scale log (R94): a stamp in seconds and the signed adjustment in force from it. -/
structure AgeEntry where
  t : Nat
  a : Int
  deriving DecidableEq, Repr

/-- What a power-up comparison of a die took (R58, R95): the anchor's age, the group's anchor and powered stamps, the stamp of the comparison,
and A and the length of the log before it; `scaled` that the interval was long enough for a ratio. -/
structure Compare where
  age : Nat
  scaled : Bool
  anchor : Nat
  powered : Nat
  at_ : Nat
  base : Int
  mark : Nat
  deriving DecidableEq, Repr

/-- A measured level of a sentinel (R108, R109): rung 0 to 7 of a mode's ladder and its copy, or 8 for the mode's anchor; boundary `k` from 0; the
level in level codes. -/
structure Sample where
  mode : Mode
  rung : Fin 9
  copy : Bool
  k : Nat
  level : Int
  deriving DecidableEq, Repr

/-- The fitted drift of boundary `k` of a mode in a temperature band (R92): V_k0 in level codes and ν_k in level codes per decade. -/
structure FitLine where
  mode : Mode
  k : Nat
  band : Fin 4
  v0 : Rat
  nu : Rat
  deriving DecidableEq, Repr

/-- A sentinel copy or anchor that is being rewritten (R108): the lines of the pattern that have verified. -/
structure SentinelWrite where
  mode : Mode
  rung : Fin 9
  copy : Bool
  verified : BitVec 256 := 0
  deriving DecidableEq, Repr

/-- A sentinel rung copy or an anchor: the mode it measures and the stamp of its last write (R108). -/
structure Sentinel where
  mode : Mode
  rung : Fin 9
  copy : Bool
  written : Nat
  deriving DecidableEq, Repr

/-- The state of a zone (Table 6-3). -/
inductive ZoneState where
  | empty | opened | full | pinned | retired
  deriving DecidableEq, Repr

/-- A slot that differs from the zone's untouched slots: allocated to a sett, or (`reserved`) to the M3 ladder and anchor (R108), in the Spoil, or free with its WEAR and blank-map bit
(R123, R140, R157). -/
structure SlotInfo where
  alloc : Bool := false
  reserved : Bool := false
  spoil : Bool := false
  wear : BitVec 16 := 0
  blank : Bool := false
  deriving DecidableEq, Repr

/-- A zone of a die (R122 to R124): its state, the mode it last stood in, the slots that differ from an untouched free slot of WEAR 0,
and whether untouched slots have their blank-map bit set. -/
structure Zone where
  state : ZoneState := .empty
  mode : Mode := .none
  slots : Tab SlotInfo := []
  blank : Bool := false
  deriving DecidableEq, Repr

/-- A die, keyed by its index. `fitted` says that a good fit exists and `fits` is the last good one for each temperature band, which the map copies
checkpoint (R110); `ladderDue` that a ladder rewrite waits for the die's tables (R57) and `writing` the sentinels being written; `tables` that its reference sets are loaded for every mode in
use (R98, R112), `loads` the SET_REF commands still outstanding for them; `first` that Teasel takes it first in its next pass;
`weak` the weak setts found; `cmp` the power-up comparison that a step of the Tally may repeat (R96); `calDue` that a calibration is due; `used` that its metadata zones show it has been used (R157); `sweep` that a full sweep runs. -/
structure Die where
  fitted : Bool := false
  fits : List FitLine := []
  ladderDue : Bool := false
  writing : List SentinelWrite := []
  failed : Bool := false
  identified : Bool := false
  tables : Bool := false
  loads : Nat := 0
  log : List AgeEntry := []
  cmp : Option Compare := none
  calDue : Bool := false
  scale : BitVec 16 := 0
  sentinel : Bool := false
  outOfRange : Bool := false
  fitOk : Bool := false
  tband : Fin 4 := 0
  calEpoch : BitVec 20 := 0
  sweep : Bool := false
  first : Bool := false
  weak : BitVec 16 := 0
  blankLow : Bool := false
  used : Bool := false
  sentinels : List Sentinel := []
  freed : BitVec 8 := 0
  sent : BitVec 8 := 0
  deriving DecidableEq, Repr

/-- EYB_STATUS.STATE. -/
inductive EybState where
  | idle | powerup | cal | sweep | reload
  deriving DecidableEq, Repr

/-! ### Quarry channels (chapter 4) -/

/-- LSTATE of a channel (Table 4-13). -/
inductive LState where
  | off | detect | train | active | recovery | down | sleep
  deriving DecidableEq, Repr

/-- A QMI opcode (Table 4-6). -/
inductive QmiOp where
  | read | marginRead | softRead | program | setRef | getRef | setZoneMode | dieStatus | identify | completionLog | dieReset
  deriving DecidableEq, Repr

/-- Who a line on the medium belongs to, and so under which key and with which header values its frame is written (R152): a sett of
a region, a map copy, the drain area, a sentinel, or a blank frame. -/
inductive FrameOf where
  | sett (lsett : Nat) (line : Nat)
  | map (copy : Bool) (chunk : Nat) (line : Nat)
  | drain (half : Bool) (index : Nat)
  | sentinel
  | blank
  | raw
  deriving DecidableEq, Repr

/-- A frame the GW7144 programs (Tables 7-1 and 7-2), before encryption and coding: its owner, header and data. -/
structure Frame where
  of : FrameOf
  gen : BitVec 24 := 0
  epoch : BitVec 20 := 0
  lrot : BitVec 8 := 0
  data : Line := 0
  deriving DecidableEq, Repr

/-- Which part of the controller a command serves, and so where its response goes. -/
inductive QmiUser where
  | fill (line : Nat)
  | prefetch (line : Nat)
  | writeBack (line : Nat)
  | move (lsett : Nat)
  | rewrite (lsett : Nat)
  | teasel (lsett : Nat) (plus : Bool)
  | blanking
  | promote (lsett : Nat)
  | merge (line : Nat)
  | assist (rtag : Nat) (line : Nat)
  | drain (k : Nat)
  | map (copy : Bool) (chunk : Nat) (frame : Nat)
  | replay (k : Nat)
  | reload
  | cal
  | raw
  | control
  | sentinel (mode : Mode) (rung : Fin 9) (copy : Bool)
  | sweep (lsett : Nat)
  deriving DecidableEq, Repr

/-- A command to a die (Table 4-5). `die` is its PKG and DIE fields; `levels` the level codes that a SET_REF carries, boundary 0 first; `got` the frames that have come
for it. -/
structure QmiCmd where
  op : QmiOp
  die : Fin 16
  tag : BitVec 10 := 0
  zone : Nat := 0
  slot : Nat := 0
  line : Nat := 0
  count : Nat := 0
  refset : Nat := 0
  mode : Mode := .none
  delta : Int := 0
  user : QmiUser := .control
  frame : Option Frame := Option.none
  lsett : Nat := 0
  levels : List (BitVec 16) := []
  got : Nat := 0
  deriving DecidableEq, Repr

/-- Which step of recovery a channel is in (R71): the fast retrains tried, or the full retrain. -/
inductive Recovery where
  | fast (tried : Nat)
  | full
  deriving DecidableEq, Repr

/-- A quarry channel. The transmitter keeps the flits from `ackSeq` on, `unacked` of them; `replayFrom` and `replays` are the
replay count of R70; the receiver expects `rxSeq` and owes `rxOwed` acknowledgements, `nak` once it has sent one; `storm` counts
CRC failures in the window that began at the Tally's `stormAt`; `txWords` are the words in the flit that is being filled. `queue` holds commands not yet sent, `sent` the outstanding ones, `orphans` those kept for the
channel's return (R72, R88). -/
structure QChan where
  lstate : LState := .off
  recovery : Option Recovery := Option.none
  soft : Bool := false
  stormBit : Bool := false
  exhBit : Bool := false
  offline : Bool := false
  offWait : Bool := false
  ackSeq : BitVec 8 := 0
  unacked : Nat := 0
  replayFrom : BitVec 8 := 0
  replays : Nat := 0
  rxSeq : BitVec 8 := 0
  rxOwed : Nat := 0
  nak : Bool := false
  storm : Nat := 0
  stormAt : Dword := 0
  txWords : Nat := 0
  nextTag : BitVec 10 := 0
  queue : List QmiCmd := []
  sent : List QmiCmd := []
  orphans : List QmiCmd := []
  eqValid : Bool := false
  ready0 : Bool := false
  ready1 : Bool := false
  pkg0 : BitVec 2 := 0
  pkg1 : BitVec 2 := 0
  dieOk : BitVec 16 := 0
  deriving DecidableEq, Repr

/-- A package on the sideband: its last temperature and the polls it has missed in a row (R83, R84). -/
structure Package where
  temp : Int := 0
  missed : Nat := 0
  deriving DecidableEq, Repr

/-- A medium group (chapter 4): rails up, `compare` that they were down and the comparison of R58 has not run since, sideband, inventory, temperature limit, alert, and whether it passed inventory and is in
service; packages by 2 × (channel mod 16) + PKG, `seen` those that answered at inventory, and the package that last alerted with the status read of it. -/
structure QGroup where
  railsUp : Bool := false
  compare : Bool := false
  sbOk : Bool := false
  inService : Bool := false
  invBad : Bool := false
  overtemp : Bool := false
  alert : Bool := false
  badChan : BitVec 4 := 0
  badPkg : Bool := false
  badCheck : BitVec 5 := 0
  packages : Tab Package := []
  stored : Bool := false
  seen : BitVec 32 := 0
  alertPkg : Fin 32 := 0
  alertStatus : Byte := 0
  deriving DecidableEq, Repr

/-! ### Yarrow and Teasel (chapters 6 and 7) -/

/-- What a queued work item does to its sett (Table 6-6); a wear move names the slot it goes to and the one it leaves. `placed` and `resync` are the
whole-sett programs that are no work of Yarrow's queue: of a stream buffer or a first program (R158, R178), and of a resync (R226). -/
inductive WorkKind where
  | remap
  | rebuild (dirty : Bool)
  | onset (slot : Phys)
  | bandHeld
  | refresh
  | bandOccupancy
  | bandLog
  | wear (dest src : Phys)
  | convert (mode : Mode)
  | zoneOut
  | placed
  | resync
  deriving DecidableEq, Repr

/-- A queued work item: a sett and what to do to it. -/
structure Work where
  lsett : Nat
  kind : WorkKind
  deriving DecidableEq, Repr

/-- Work in progress on a sett (R130, R131). `dest` is none for an in-place rewrite; `read` are the lines whose source is in
hand, `verified` those whose program has verified; `first` and `last` the program stamps; `spoil` that the source slot goes to the
Spoil; `window` the window of an in-place rewrite. -/
structure Move where
  lsett : Nat
  kind : WorkKind
  dest : Option Phys := Option.none
  mode : Mode := .none
  lrot : BitVec 8 := 0
  read : BitVec 256 := 0
  verified : BitVec 256 := 0
  first : Option (BitVec 48) := Option.none
  last : BitVec 48 := 0
  spoil : Bool := false
  window : Nat := 0
  deriving DecidableEq, Repr

/-- A capacity state (Table 6-7). -/
inductive Cap where
  | notComputed | green | amber | red
  deriving DecidableEq, Repr

/-- A region's conversion in progress (R148). -/
structure Conversion where
  target : Mode
  left : Nat := 0
  deriving DecidableEq, Repr

/-- Yarrow (chapter 6): its queue, the work in progress by sett, the onset tracker (oldest first), the capacity state, the spare in
0.01 %, the twin's capacity state, and the setts that wait for a rebuild slot; `held` are the lines held dirty for want of a young way (R105, R107),
`fails` the destinations that the present remap of a sett has lost (R128). -/
structure Yarrow where
  queue : List Work := []
  moves : List Move := []
  onset : List Phys := []
  cap : Cap := .notComputed
  spareBp : Nat := 0
  twinCap : Cap := .notComputed
  short : List Nat := []
  held : List Nat := []
  fails : Tab Nat := []
  occupancy : Bool := false
  deriving DecidableEq, Repr

/-- What Teasel visits (R160): a logical sett, or the map copies of a die. -/
inductive Visit where
  | sett (n : Nat)
  | maps (die : Nat)
  deriving DecidableEq, Repr

/-- Teasel's pass of one group (R160 to R164): whether it runs, what it still visits in order, what it visits again at its end, how
many it began with, LATE, the epoch of its last completed pass, whether a firing waits, whether a SENTINEL_REWRITE waits for
the burst, and the setts marked under R117; `cur` is what is being judged, `slot` the schedule slot whose firing waits for its burst. -/
structure Pass where
  running : Bool := false
  order : List Visit := []
  again : List Visit := []
  total : Nat := 0
  late : Bool := false
  lastDone : BitVec 20 := 0
  waiting : Bool := false
  rungs : Bool := false
  marked : List Nat := []
  cur : Option Visit := Option.none
  slot : Option (Fin 256) := Option.none
  deriving DecidableEq, Repr

/-- The margin reads of a line in flight (R160): the sett and line, the reads that answered, those that failed, whether one was weak, whether one was
MISPLACED, and whether the line is read at DELTA 0 or on the recovery path. -/
structure MarginJudge where
  lsett : Nat
  line : Nat
  seen : Nat := 0
  fails : Nat := 0
  weak : Bool := false
  mis : Bool := false
  deep : Bool := false
  deriving DecidableEq, Repr

/-- A slot that Teasel blanks (R159): its mode and the lines whose blank program has verified. -/
structure Blanking where
  slot : Phys
  mode : Mode
  verified : BitVec 256 := 0
  deriving DecidableEq, Repr

/-! ### What the dies answer -/

/-- A die status (Table 4-8). -/
inductive DieStatus where
  | ok | progFail | badAddress | modeMismatch | refUnset | partitionBusy | aborted | dieFault
  deriving DecidableEq, Repr

/-- The contents of a DONE (Table 4-7): STATUS, LOOPS, MARGIN, SUSPENDS, and ELAPSED in 10 ns. -/
structure DoneInfo where
  status : DieStatus := .ok
  loops : Nat := 0
  margin : Nat := 15
  suspends : Nat := 0
  elapsed : BitVec 24 := 0
  deriving DecidableEq, Repr

/-- An entry of a die's completion log (R72). -/
structure LogEntry where
  tag : BitVec 10
  done : DoneInfo
  deriving DecidableEq, Repr

/-- The contents of an INFO response, by the command it answers (Table 4-6): the boundary levels of a set; the partition busy map, the programs in
flight, the suspended programs and the temperature of a die; whether a die's descriptor agrees with its package's; a completion log. -/
inductive InfoData where
  | getRef (levels : List (BitVec 16))
  | dieStatus (busy : BitVec 16) (programs suspended : Nat) (temp : Int)
  | identify (consistent : Bool)
  | log (es : List LogEntry)
  deriving DecidableEq, Repr

/-- The medium side as one part of the state: channels, groups, dies, zones (keyed by die × 64 + zone), translation entries (keyed by
logical sett), the young map by sett, Eyebright's activity, Yarrow, Teasel's passes by group, the margin reads in flight, the slots under blanking, the setts
of failed dies still to rebuild, the lost setts whose fetch is under way, and the loss list (line to its chunk mask, R168). -/
structure Medium where
  chans : Tab QChan := []
  groups : Tab QGroup := []
  dies : Tab Die := []
  zones : Tab Zone := []
  setts : Tab Sett := []
  young : Tab (List Young) := []
  eyb : EybState := .idle
  yarrow : Yarrow := {}
  passes : Tab Pass := []
  judges : List MarginJudge := []
  blanks : List Blanking := []
  rebuild : List Nat := []
  loss : Tab (Option (BitVec 4)) := []
  deriving DecidableEq, Repr

end Sys2Proof.Machine
end

