-- ==== Sys2Proof/Machine/StateBench.lean ====
section
/-! DEFINITION. The state of Bench 0 and the persistence domain (chapter 8), of host requests under way (chapters 1, 11, 12), and of
translation, the journal, the map copies, objects, the DRAM pool, windows and bench view (chapter 10). A line is named by its
logical sett and line as one number, sett × 256 + line. -/

namespace Sys2Proof.Machine

/-! ### Requests -/

/-- Where a request came from, and so where its outcome goes: a CXL request of an LD with its tag, a request of a QP with its PSN,
a write forwarded by the twin with its FTAG, a line that the twin asks for by
READ_ASSIST, data of a READ that lands in a local region (R309), a line read for a resync (R226), or the device itself (a completion
entry, a line wanted for an atomic). -/
inductive Origin where
  | cxl (port : Fin 4) (ld : Fin 16) (tag : Nat)
  | rdma (qp : Nat) (psn : BitVec 24)
  | twin (ftag : BitVec 16)
  | assist (rtag : Word) (last : Bool)
  | landing (qp : Nat) (psn : BitVec 24)
  | gather (qp : Nat) (psn : BitVec 24)
  | resync (region : Nat)
  | device
  deriving DecidableEq, Repr

/-- The source half of a stream key (R176): an LD, a QP, or the hash that a MIRROR entry carries. -/
inductive StreamSrc where
  | ld (port : Fin 4) (ld : Fin 16)
  | qp (n : Nat)
  | hash (h : BitVec 16)
  | none
  deriving DecidableEq, Repr

/-- A stream: a (port, LD or QP, region) triple (R176). -/
structure Stream where
  src : StreamSrc
  region : Nat
  deriving DecidableEq, Repr

/-- A read that waits for its line: the chunks asked for, the region line for its log entries, and the part of a larger RDMA READ it
is. -/
structure HostRead where
  who : Origin
  region : Nat
  rline : Nat
  line : Nat
  chunks : BitVec 4
  part : Nat := 0
  deriving DecidableEq, Repr

/-- An atomic operation (R300) on 8 B at an offset in its line. -/
inductive Atomic where
  | cmpSwap (at8 : Nat) (compare swap : BitVec 64)
  | fetchAdd (at8 : Nat) (add : BitVec 64)
  deriving DecidableEq, Repr

/-- A write of one line: its byte mask and data, its stream, and, for an atomic, what it computes from the line. -/
structure HostWrite where
  who : Origin
  region : Nat
  rline : Nat
  line : Nat
  mask : BitVec 256
  data : Line
  stream : StreamSrc := .none
  atomic : Option Atomic := Option.none
  deriving DecidableEq, Repr

/-- A write with its place in the region's order (R12, R213): at the home until both domains hold it, at the twin until it is placed.
`mine` says that this controller is the home that ordered it; `tried` that its placement has been tried. -/
structure Ordered where
  w : HostWrite
  ros : Nat
  mine : Bool
  ftag : BitVec 16 := 0
  placed : Bool := false
  mirrored : Bool := false
  tried : Bool := false
  deriving DecidableEq, Repr

/-- A write this controller forwarded and holds until FWD_DURABLE or FWD_REFUSED (R215). -/
structure Forwarded where
  ftag : BitVec 16
  w : HostWrite
  deriving DecidableEq, Repr

/-! ### Bench 0 -/

/-- STATE of a Bench 0 tag (Table 8-2). -/
inductive LineState where
  | clean | dirty | filling | wb
  deriving DecidableEq, Repr

/-- A Bench 0 line: its tag (way, STATE, REDIRTY, PF), its data and its byte-valid mask, all ones but for a line with a partial-line
entry. `forced` marks a line whose clean copy must also reach the pool page (R258). -/
structure BLine where
  state : LineState := .clean
  way : Nat := 0
  redirty : Bool := false
  pf : Bool := false
  valid : BitVec 256 := BitVec.allOnes 256
  data : Line := 0
  deriving DecidableEq, Repr

/-- A stride detector (R176): its stream, its last line, its stride, the equal steps seen, and how far it has prefetched. -/
structure Detector where
  stream : Stream
  last : Nat
  stride : Int := 0
  steps : Nat := 0
  off : Nat := 0
  deriving DecidableEq, Repr

/-- A stream's ascending run of full lines (R177): the next line, its chunks written so far, and the full lines of the run. -/
structure Run where
  stream : Stream
  next : Nat
  mask : BitVec 4 := 0
  full : Nat := 0
  deriving DecidableEq, Repr

/-- State of a stream buffer's slot (R178). -/
inductive SlotUse where
  | filling | issued | freed
  deriving DecidableEq, Repr

/-- A slot of a stream buffer: its line, chunk mask, data and use. -/
structure ScbSlot where
  line : Nat
  mask : BitVec 4
  data : Line
  use : SlotUse := .filling
  deriving DecidableEq, Repr

/-- A stream-combining buffer bound to a sett (R177, R178); `closing` once it no longer fills. -/
structure Scb where
  stream : Stream
  lsett : Nat
  slots : List ScbSlot := []
  closing : Bool := false
  deriving DecidableEq, Repr

/-- PBF_STATUS.DOMAIN. -/
inductive Domain where
  | closed | replaying | opened | draining | drained
  deriving DecidableEq, Repr

/-- One line as a drain holds it (Table 8-7). -/
structure DrainLine where
  line : Nat
  mask : Option (BitVec 256)
  scb : Bool
  data : Line
  deriving DecidableEq, Repr

/-- STATE of a drain descriptor (Table 8-8). -/
inductive DescState where
  | none | opened | committed | replayed
  deriving DecidableEq, Repr

/-- A drain program in hand: its index in the drain, where it goes, and the tries it has had (R193). -/
structure DrainFrame where
  k : Nat
  die : Nat
  pos : Nat
  deriving DecidableEq, Repr

/-- A drain descriptor (Table 8-8) with what the drain area of its half holds under it: the lines drained, and the frames that lie elsewhere than planned
(R193); the index frame count follows from the lines. `discard` are the regions whose drained lines an erasure discards (R381). -/
structure Descriptor where
  seq : Nat := 0
  state : DescState := .none
  half : Bool := false
  dies : List Nat := []
  stamp : BitVec 48 := 0
  jFrames : Nat := 0
  pFrames : Nat := 0
  triggers : BitVec 16 := 0
  duration : Nat := 0
  indexCrc : Word := 0
  hashKey : Dword := 0
  lines : List DrainLine := []
  moved : List DrainFrame := []
  discard : List Nat := []
  deriving DecidableEq, Repr

/-- A replay at work (R198): the frames still to be read, those read so far as plaintext by their number in the drain, the data frames that cannot be
recovered, whether a frame of another kind cannot, and whether the data frames are being read. -/
structure Replay where
  data : Bool := false
  left : List Nat := []
  read : List (Nat × Line) := []
  lost : List Nat := []
  bad : Bool := false
  deriving DecidableEq, Repr

/-- A drain or an orderly flush under way (R186 to R193). `flush` is the orderly wait of R188 before the drain starts; `extra` the
positions taken beyond the planned range of each die, `moved` the frames that lie elsewhere than planned. -/
structure Drain where
  flush : Bool := false
  first : Nat := 0
  triggers : BitVec 16 := 0
  half : Bool := false
  frames : List DrainFrame := []
  extra : Tab Nat := []
  moved : List DrainFrame := []
  lost : Bool := false
  start : Dword := 0
  deriving DecidableEq, Repr

/-- Bench 0, the persistence domain, and the requests under way. `trees` are the sets' tree pseudo-LRU bits; `lru` the lines of the
whole Bench 0, least recent first; `partials` the lines with a partial-line entry, oldest first; `tokens` and `turn` the
admission tokens of R183; `held` the writes held back; `orders` the writes with a place in their region's order, not yet
acknowledged; `early` MIRROR entries that arrived ahead of their place; `reads` the reads that wait; `frame` the open
FORWARD frame; `forwarded` what it and its predecessors carried; `awaits` the lines marked AWAIT_TWIN (R199); `recovers` the recovered lines that wait
for room (R117, Table 8-3); `dropped` the chunks of lines whose CXL write was dropped (R87); `replay` the lines a replay has still to install, `replayed` that start-up has dealt
with the last drain, and `replaying` the reading of a committed one. -/
structure Bench where
  domain : Domain := .closed
  hashKey : Dword := 0
  lines : Tab (Option BLine) := []
  trees : Tab (BitVec 15) := []
  lru : List Nat := []
  partials : List Nat := []
  forced : Bool := false
  tokens : Nat := 0
  turn : Nat := 0
  held : List HostWrite := []
  orders : List Ordered := []
  early : List Ordered := []
  reads : List HostRead := []
  frame : List (BitVec 16) := []
  nextFtag : BitVec 16 := 1
  forwarded : List Forwarded := []
  detectors : List Detector := []
  runs : List Run := []
  scbs : List Scb := []
  drain : Option Drain := Option.none
  trigger : Nat := 0
  reaction : Nat := 0
  triggers : BitVec 16 := 0
  last : Nat × Nat := (0, 0)
  descA : Descriptor := {}
  descB : Descriptor := { half := true }
  suspect : Bool := false
  shutdowns : Nat := 0
  awaits : List Nat := []
  recovers : List (Nat × Line) := []
  dropped : Tab (BitVec 4) := []
  replay : List DrainLine := []
  replayed : Bool := false
  replaying : Option Replay := Option.none
  deriving DecidableEq, Repr

/-! ### Regions, objects and translation (chapter 10) -/

/-- A region record (Table 10-1), its extents in order, its conversion under way (R148), the bytes of cells it holds reserved for
it, and the version of its attributes. A region on which `opening` holds waits for the twin to hold its record (R469). -/
structure Region where
  valid : Bool := false
  mode : Mode := .none
  strict : Bool := false
  keyIndex : Nat := 0
  size : Nat := 0
  extents : List Nat := []
  permA : Nat := 0
  permB : Nat := 0
  conv : Option Conversion := Option.none
  opening : Bool := false
  deriving DecidableEq, Repr

/-- HINT of an object (Table 10-6). -/
inductive Hint where
  | none | keep | stream | cold
  deriving DecidableEq, Repr

/-- An object record (Table 10-6). -/
structure Object where
  region : Nat := 0
  first : Nat := 0
  count : Nat := 0
  hint : Hint := .none
  window : Nat := 0
  expiry : BitVec 48 := 0
  owner : Nat := 0
  deriving DecidableEq, Repr

/-- What a journal record changes (Table 10-5), by its KEY. -/
inductive JKey where
  | entry (lsett : Nat)
  | bandOfs (lsett : Nat)
  | ymap (bucket : Nat) (way : Fin 4)
  | free (die zone slot : Nat)
  | zone (die zone : Nat)
  | spoil (die zone slot : Nat)
  | blank (die zone slot : Nat)
  | ageLog (die : Nat)
  | resync (region sett : Nat)
  | loss (region rline : Nat)
  | region (region : Nat)
  | extent (index : Nat)
  | object (n : Nat)
  | remapIntent (lsett die zone slot : Nat)
  | regionState (region : Nat)
  | pass (group : Nat)
  deriving DecidableEq, Repr

/-- A live journal record: its place in the ring (record number; its frame is place ÷ 8), its JSEQ and what it changes (R244); `part` is the half or
quarter where a change takes several records (Table 10-5). -/
structure JRec where
  place : Nat
  jseq : Nat
  key : JKey
  part : Nat := 0
  deriving DecidableEq, Repr

/-- The journal (R244 to R246): live records in ring order, the next place and JSEQ, whether the checkpointer runs, and the chunks of the map copies
already written for the oldest frame. -/
structure Journal where
  recs : List JRec := []
  nextPlace : Nat := 0
  nextSeq : Nat := 0
  oldest : Nat := 0
  running : Bool := false
  written : List Nat := []
  ckptSeq : Word := 0
  deriving DecidableEq, Repr

/-- The NV store's map band record of a die (R248): the stamps of the oldest and the newest map frame on it, the die's log adjustment at each, and its
newest adjustment. -/
structure MapBand where
  oldest : Nat
  newest : Nat
  aOldest : Int
  aNewest : Int
  a : Int
  deriving DecidableEq, Repr

/-- A chunk that the checkpointer is writing (R246, R247): its number, the copy at work, whether copy 1 follows copy 0, and the frames of this copy that
have verified. -/
structure MapWrite where
  chunk : Nat
  copy : Bool
  both : Bool
  verified : BitVec 16 := 0
  deriving DecidableEq, Repr

/-- A chunk that is being loaded (R249, R251): the frames at hand, and whether one failed in both copies. -/
structure MapLoad where
  chunk : Nat
  got : BitVec 16 := 0
  lost : Bool := false
  deriving DecidableEq, Repr

/-- The margin reads of a map frame in flight (R160): copy number (2 × chunk + copy), frame, the reads that answered, and whether one was weak. -/
structure MapJudge where
  copy : Nat
  frame : Nat
  seen : Nat := 0
  weak : Bool := false
  deriving DecidableEq, Repr

/-- The map copies (R247, R248): `order` the dies in service when the device was formatted, by ordinal, and `count` COUNT then; `subst` the substitution
record of the NV store, ordinal and die; `bands` the map band records by die; `stamps` when each copy was last written, by copy number; the chunk
being written, the chunks being loaded, the margin reads in flight, the dies whose oldest copies are being rewritten, and the copies that Teasel found
weak. -/
structure MapArea where
  order : List Nat := []
  count : Nat := 0
  subst : List (Nat × Nat) := []
  bands : Tab (Option MapBand) := []
  stamps : Tab (Option Nat) := []
  write : Option MapWrite := Option.none
  loads : List MapLoad := []
  judges : List MapJudge := []
  ageing : List Nat := []
  weak : List Nat := []
  deriving DecidableEq, Repr

/-- XLT_STATUS.LOAD. -/
inductive LoadPhase where
  | empty | beforeOpen | journal | background | loaded
  deriving DecidableEq, Repr

/-- A promoted or promoting sett's page (R256, R257): its page number, the lines it holds as ciphertext (R10), and which are in it. -/
structure Page where
  page : Nat
  lines : Tab Line := []
  have_ : BitVec 256 := 0
  readers : Nat := 0
  deriving DecidableEq, Repr

/-- A streaming window (R263): its stream and object, the sett it stands at, its direction, and the setts it holds. -/
structure Window where
  stream : Stream
  object : Nat
  at_ : Nat
  descending : Bool := false
  moved : Bool := false
  setts : List Nat := []
  deriving DecidableEq, Repr

/-- A gathered raw medium line (R265): its address, the chunks written and their data. -/
structure RawLine where
  addr : Nat
  mask : BitVec 4
  data : Line
  deriving DecidableEq, Repr

/-- A raw read of the medium through bench view that waits for its frame. -/
structure RawRead where
  who : Origin
  addr : Nat
  chunk : Nat
  deriving DecidableEq, Repr

/-- Translation and tiers. `loaded` names the translation chunks of 256 entries in the DRAM bench; `prio` the chunks whose priority
load is in flight; `lost` those lost in both copies; `extents` COUNT and `peerExtents` the twin's; `pool` the promoted setts,
least recently used first in `poolLru`; `promo` the promotion queue; `raw` the gather buffers, and `rawHeld` the writes that wait for
one; `rawDram` what bench view wrote to the DRAM bench, by burst; `mapBand` the dies whose map band the checkpointer must rewrite;
`orphans` slots of lost chunks out of use. -/
structure Xlt where
  regions : Tab Region := []
  objects : Tab Object := []
  extents : Nat := 0
  peerExtents : Nat := 131072
  short : Bool := false
  jrnl : Journal := {}
  load : LoadPhase := .empty
  loaded : Tab Bool := []
  allLoaded : Bool := false
  chunksLeft : Nat := 0
  prio : List Nat := []
  freeLoaded : List Nat := []
  repromote : Bool := false
  poolTotal : Nat := 0
  pages : Tab (Option Page) := []
  poolLru : List Nat := []
  promo : List (Nat × Bool) := []
  windows : List Window := []
  bvOpen : Bool := false
  bvRefset : Fin 16 := 0
  raw : List RawLine := []
  rawHeld : List (Nat × Chunk) := []
  rawReads : List RawRead := []
  rawDram : Tab (Option Chunk) := []
  arraysShort : Bool := false
  orphans : List Phys := []
  cached : List Nat := []
  map : MapArea := {}
  deriving DecidableEq, Repr

end Sys2Proof.Machine
end

