-- ==== Sys2Proof/Machine/StateTwin.lean ====
section
/-! DEFINITION. The state of the Tandem link and twin operation (chapter 9), and the frames that cross the link. -/

namespace Sys2Proof.Machine

/-- TDM_STATUS.PAIR. -/
inductive PairState where
  | unpaired | attesting | paired | lost | detached | parked
  deriving DecidableEq, Repr

/-- A write entry of a MIRROR, FORWARD or RESYNC frame (Table 9-3). `ros` is the whole ROS that the receiver widens ROS_LO to. -/
structure WEntry where
  ros : Nat := 0
  region : Nat
  ftag : BitVec 16 := 0
  stream : BitVec 16 := 0
  line : Nat
  mask : BitVec 256 := 0
  data : Line := 0
  zero : Bool := false
  unalloc : Bool := false
  mode : Mode := .none
  deriving DecidableEq, Repr

/-- An entry of an ACK frame (Table 9-4). -/
inductive AckEntry where
  | mirrorDone (region ros : Nat)
  | fwdDurable (ftag : BitVec 16) (count : Nat)
  | fwdRefused (ftag : BitVec 16) (status : Nat)
  deriving DecidableEq, Repr

/-- STATUS of a READ_ASSIST reply entry (R207). -/
inductive AssistStatus where
  | data (l : Line)
  | zero
  | unrecovered
  | notHeld
  deriving DecidableEq, Repr

/-- The state of a region compared at pairing (Table 9-8). -/
structure RegionCompare where
  term : Word := 0
  ros : Nat := 0
  home : Bool := false
  valid : Bool := true
  map : Bool := false
  attrVer : Word := 0
  extents : Nat := 131072
  marksTermLow : Bool := false
  deriving DecidableEq, Repr

/-- What a binding ties a decoder to: a range of a region, or the staging range (R276, R358). -/
inductive BindTo where
  | region (r rofs len : Nat)
  | staging
  deriving DecidableEq, Repr

/-- The attributes of a region that REGION_ATTR carries (R238): the record, whether it is deleted, whether the RED point of R145 lies
here, what happens to its key (`share` that a new region's needs a share; `erase` that it is crypto-erased), and its bindings (R276) by decoder
number. -/
structure RegionAttr where
  record : Region
  deleted : Bool := false
  red : Option Bool := Option.none
  lock : Bool := false
  keyId : Option Nat := Option.none
  share : Bool := false
  erase : Bool := false
  gens : List (Nat × Nat) := []
  binds : Option (List (Nat × BindTo)) := Option.none
  deriving DecidableEq, Repr

/-- A CONTROL ALLOCATE (R469): a request for a new region, or for the growth of one, with its size, mode and flags; or side 0's outcome. -/
inductive AllocMsg where
  | ask (grow : Option Nat) (size : Nat) (mode : Mode) (flags : Nat)
  | answer (status region : Nat)
  deriving DecidableEq, Repr

/-- A CONTROL message (Table 9-6). -/
inductive Ctl where
  | capState (c : Cap)
  | draining (trigger : Nat)
  | detach
  | handover (region : Nat) (term : Word) (ros : Nat)
  | handoverAck (region : Nat) (term : Word)
  | regionAttr (region ros : Nat) (attrVer : Word) (a : RegionAttr)
  | regionState (region : Nat) (c : RegionCompare)
  | resyncPlan (region : Nat) (source target : Bool) (marks : Nat)
  | resyncDone (region : Nat)
  | rekey (port : Bool) (phase : Bool)
  | leaving (trigger : Nat)
  | allocate (m : AllocMsg)
  deriving DecidableEq, Repr

/-- The body of a frame (Table 9-2). -/
inductive TBody where
  | mirror (es : List WEntry)
  | forward (es : List WEntry)
  | ack (dirty : Nat) (cap : Cap) (es : List AckEntry)
  | assistReq (rtag : Word) (region line count : Nat)
  | assistRep (rtag : Word) (region line : Nat) (last : Bool) (st : AssistStatus)
  | sync (source : TimeSource) (trust : Trust)
  | heartbeat (seq echo : Word) (dirty : Nat) (cap : Cap)
  | resync (es : List WEntry) (last : Bool)
  | control (c : Ctl)
  | pair (step : Nat)
  deriving DecidableEq, Repr

/-- A frame as the receiver judges it (R206, R209): its header (Table 9-1), and the outcome of the GCM check. -/
structure TFrame where
  header : BitVec 128
  tagOk : Bool := true
  deriving DecidableEq, Repr

/-- KIND of a frame. -/
def TFrame.kind (f : TFrame) : BitVec 8 := (f.header >>> 120).setWidth 8

/-- LEN of a frame. -/
def TFrame.len (f : TFrame) : Nat := ((f.header >>> 108).setWidth 12 : BitVec 12).toNat

/-- LAST of a RESYNC frame. -/
def TFrame.last (f : TFrame) : Bool := f.header.getLsbD 98

/-- KEY_PHASE of a frame. -/
def TFrame.phase (f : TFrame) : Bool := f.header.getLsbD 97

/-- RESP of a READ_ASSIST or PAIR frame. -/
def TFrame.resp (f : TFrame) : Bool := f.header.getLsbD 96

/-- SESSION of a frame. -/
def TFrame.session (f : TFrame) : Word := (f.header >>> 64).setWidth 32

/-- FSEQ of a frame. -/
def TFrame.fseq (f : TFrame) : Nat := (f.header.setWidth 64 : BitVec 64).toNat

/-- KIND is one of Table 9-2. -/
def TFrame.known (f : TFrame) : Bool := decide (1 ≤ f.kind.toNat ∧ f.kind.toNat ≤ 9)

/-- KIND is not reserved and LEN lies in range (R206). -/
def TFrame.shapeOk (f : TFrame) : Bool := f.known && decide (32 ≤ f.len ∧ f.len ≤ 2048)

/-- The four times of a SYNC exchange in ns, as in IEEE 1588 (R207): this controller's SYNC left at `t1` and arrived at the twin at `t2`; the twin's
left at `t3` and arrived here at `t4`, each by the Tally of the side it happened on. -/
structure SyncTimes where
  t1 : Nat
  t2 : Nat
  t3 : Nat
  t4 : Nat
  deriving DecidableEq, Repr

/-- How the attestation goes on at a PAIR frame (R211): another step; success, with what the twin showed of itself and the session made;
its life-cycle state and debug-open flag among it (block 5 of Table 15-6); or a failure of authentication. -/
inductive PairMove where
  | step (n : Nat)
  | done (session : Word) (identity : Nat) (uid : BitVec 128) (compat : BitVec 16) (life : Fin 6) (debug : Bool)
  | failed
  deriving DecidableEq, Repr

/-- The state of a Tandem port's link. -/
inductive TState where
  | down | training | up | fast | full
  deriving DecidableEq, Repr

/-- A Tandem port (R203 to R209): its link, the transmitter's SEQ and unacknowledged flits, its replay count, the fast retrains tried,
the receiver's SEQ and owed acknowledgements, FSEQ sent and last accepted, the key phases, whether the old receive key still
stands, the tag failures within the last second, and whether it stays DOWN until the next pairing. -/
structure TPort where
  st : TState := .down
  ackSeq : BitVec 12 := 0
  unacked : Nat := 0
  replayFrom : BitVec 12 := 0
  replays : Nat := 0
  fastTried : Nat := 0
  rxSeq : BitVec 12 := 0
  rxOwed : Nat := 0
  nak : Bool := false
  fseqTx : Nat := 0
  fseqRx : Nat := 0
  phaseTx : Bool := false
  phaseRx : Bool := false
  oldKey : Bool := false
  fails : Nat := 0
  failAt : Dword := 0
  barred : Bool := false
  frames : Nat := 0
  trainedMap : Word := 0x00FAC688#32
  deriving DecidableEq, Repr

/-- Why a line was asked of the twin (R43, R86, R116, R167, R199): `bench` for a dirty line that an error in Bench 0 took. -/
inductive AssistFor where
  | read | rebuild | await | recover | bench
  deriving DecidableEq, Repr

/-- A READ_ASSIST request under way: its RTAG, the first line, the lines asked for, and how many have come. -/
structure Assist where
  rtag : Word
  why : AssistFor
  region : Nat
  line : Nat
  count : Nat
  got : Nat := 0
  deriving DecidableEq, Repr

/-- A reply entry this controller owes the twin (R207): entries of one request leave in line order, once their status is known. -/
structure Reply where
  rtag : Word
  region : Nat
  line : Nat
  last : Bool
  st : Option AssistStatus := Option.none
  deriving DecidableEq, Repr

/-- The twin state of a region (Tables 9-8 and 9-14). `marks` are the region setts marked in its resync map and `marksTerm` the TERM
under which the last was made; `opened` that R20 is met, `served` that the dies which hold its setts have since had their tables loaded (R18); `strictRefuse` that STRICT_HOLD_MS has passed; `handing` that a move of the home role
holds its writes, for the command named; `red` that the RED point has been ordered; `todo` the setts a resync has still to commit; `compared` the twin's state;
`planned` that the twin's RESYNC_PLAN has come; `left` the setts a target has still to commit; `fenceNext` that a FENCE waits for a move of the home role (R232). -/
structure RTwin where
  term : Word := 0
  ros : Nat := 0
  home : Bool := false
  valid : Bool := true
  attrVer : Word := 0
  marks : List Nat := []
  marksTerm : Word := 0
  fenced : Bool := false
  noHome : Bool := false
  solo : Bool := false
  held : Bool := false
  strictRefuse : Bool := false
  source : Bool := false
  target : Bool := false
  opened : Bool := false
  served : Bool := false
  unfit : Bool := false
  handing : Option (Option (Fin 64 × BitVec 16)) := Option.none
  planned : Bool := false
  left : Nat := 0
  red : Bool := false
  todo : List Nat := []
  compared : Option RegionCompare := Option.none
  lastNotHere : Option Dword := Option.none
  twinUnfit : Bool := false
  fenceNext : Bool := false
  deriving DecidableEq, Repr

/-- The Tandem link and the pair. `binding` is the hash of the peer's identity key (R211) and `ownHash` this controller's; `leaving` and
`peerLeaving` the leave exchange (R231), with the trigger that began it; `replies` the reply entries owed to the twin; `hbTx` and `hbRx` heartbeat numbers; `fenceWait` that the fence
interval runs and `strictWait` STRICT_HOLD_MS; `parkedSession` the session of a parked pair; `waitAlloc` the requests that wait for
side 0, in order (R469); `detaching` that DETACH moves homes away (R230), for the command `detachFor`; `joined` that pairing has completed since start-up and this controller has not left (R20); `compat` the running image's level; `attrs` REGION_ATTR messages that wait for their place in the order; `rsHeld` RESYNC entries (with LAST) that wait for theirs, and `rsSent` those sent that no ACK covers yet (R208). -/
structure Twin where
  pair : PairState := .unpaired
  p0 : TPort := {}
  p1 : TPort := {}
  session : Word := 0
  binding : Option Nat := Option.none
  ownHash : Nat := 0
  peerUid : BitVec 128 := 0
  peerCompat : BitVec 16 := 0
  peerDirty : Nat := 0
  peerCap : Cap := .notComputed
  peerSource : TimeSource := .none
  peerTrust : Trust := .untrusted
  timeSender : Bool := false
  rtt : BitVec 16 := 0
  hbTx : Word := 0
  hbRx : Word := 0
  hbEcho : Word := 0
  leaving : Option Nat := Option.none
  peerLeaving : Bool := false
  leftByDetach : Bool := false
  joined : Bool := false
  fenceWait : Bool := false
  strictWait : Bool := false
  parkedSession : Word := 0
  regions : Tab RTwin := []
  nextRtag : Word := 1
  assists : List Assist := []
  replies : List Reply := []
  waitAlloc : List (Option (Fin 64 × BitVec 16)) := []
  attrs : List (Nat × Nat × Word × RegionAttr) := []
  rsHeld : List (WEntry × Bool) := []
  rsSent : List (WEntry × Bool) := []
  lane0 : Word := 0x00FAC688#32
  lane1 : Word := 0x00FAC688#32
  detaching : Bool := false
  detachFor : Option (Fin 64 × BitVec 16) := Option.none
  compat : BitVec 16 := 0
  deriving DecidableEq, Repr

end Sys2Proof.Machine
end

