-- ==== Sys2Proof/Machine/StateHost.lean ====
section
/-! DEFINITION. The state of the host ports: CXL ports, LDs, bindings, dynamic capacity and event logs (chapter 11), and Ethernet
MACs, queue pairs, protection domains, memory windows and completion queues (chapter 12). -/

namespace Sys2Proof.Machine

/-! ### CXL -/

/-- STATE of CXL_PORT_STATUS (Table 11-9). -/
inductive CxlState where
  | disabled | detect | training | l0 | recovery | l1 | heldNarrow
  deriving DecidableEq, Repr

/-- A CXL port: its link, whether it runs as an MLD and with how many LDs, IDE (of CXL.mem, of the CXL.io link stream, and of the four selective
CXL.io streams, R283), whether its CXL.mem stream is insecure (R284), and
whether it holds back RwD credits (R184). `cfg` is the CXL_CFG taken at its last training, and `cycled` that PORT_EN has been written 0
and then 1 since (R268); `gpf` a GPF Phase 2 under way, with its duration (R290). -/
structure CxlPort where
  st : CxlState := .disabled
  width : Nat := 0
  speed : Nat := 0
  mld : Bool := false
  lds : Nat := 1
  ideMem : Bool := false
  ideIo : Bool := false
  ideSel : BitVec 4 := 0
  insecure : Bool := false
  flitLo : Bool := false
  holding : Bool := false
  cfg : Word := 0
  cycled : Bool := true
  gpf : Option (BitVec 16) := Option.none
  deriving DecidableEq, Repr

/-- An HDM decoder of an LD (R276), with its interleave ways and granularity, each as the power of two it stands for (granularity in units of
256 B), and whether its lock on commit is set. -/
structure Decoder where
  base : Nat := 0
  size : Nat := 0
  ways : Fin 5 := 0
  gran : Fin 7 := 0
  locked : Bool := false
  committed : Bool := false
  notCommitted : Bool := false
  deriving DecidableEq, Repr

/-- Where a CXL.mem request goes: a host physical address, or an offset in the bench view range of the FM-owned LD (R264). -/
inductive CxlTarget where
  | hpa (a : Nat)
  | benchView (off : Nat)
  deriving DecidableEq, Repr

/-- An LD's logs (R286). -/
inductive LogKind where
  | info | warning | failure | fatal | dcd
  deriving DecidableEq, Repr

/-- What an event record of an LD says (R289). -/
inductive LdEvent where
  | writeDropped | readPoison | notHere | capState | healthStatus | dcAdd | dcRelease
  deriving DecidableEq, Repr

/-- A record of an LD's log: what it says, the DPA and TLY_NOW (R289). -/
structure LdRecord where
  kind : LogKind
  what : LdEvent
  dpa : Nat := 0
  tally : Dword := 0
  deriving DecidableEq, Repr

/-- A dynamic capacity extent: its DC region and range. -/
structure DcExtent where
  dc : Fin 8
  off : Nat
  len : Nat
  deriving DecidableEq, Repr

/-- An LD: its decoders, DC regions mapped onto regions, extents accepted and offered, its logs (oldest first) with the logs that lost
records, the MSI-X message number of each log, its background operation, CDAT version, MSI-X mask and pending bits, and SPDM
sessions. -/
structure Ld where
  decoders : Tab Decoder := []
  dcMap : Tab (Option Nat) := []
  extents : List DcExtent := []
  offers : List DcExtent := []
  logs : List LdRecord := []
  overflow : List LogKind := []
  policy : Tab Nat := []
  bg : Option (BitVec 16) := Option.none
  bgPct : Nat := 0
  bgRet : Nat := 0
  cdat : Nat := 0
  masked : BitVec 64 := 0
  pba : BitVec 64 := 0
  sessions : List Word := []
  health : Nat := 0
  deriving DecidableEq, Repr

/-- The CXL side: ports, LDs by port × 16 + LD, the bindings by (port × 16 + LD) × 4 + decoder, and the bytes that a Transfer FW under way
has brought (R423). -/
structure Cxl where
  ports : Tab CxlPort := []
  lds : Tab Ld := []
  bindings : Tab (Option BindTo) := []
  health : Nat := 0
  gpfLast : BitVec 16 := 0
  bgOps : List (Nat × List Nat) := []
  xfer : Option Nat := Option.none
  deriving DecidableEq, Repr

/-! ### RDMA and Ethernet -/

/-- A memory window (Table 12-7). -/
structure MemWin where
  tag : BitVec 14 := 0
  pd : Nat := 0
  region : Nat := 0
  rights : BitVec 5 := 0
  vaBase : Nat := 0
  rofs : Nat := 0
  len : Nat := 0
  deriving DecidableEq, Repr

/-- A protection domain (R304). -/
structure Pd where
  chan : Nat := 0
  token : Word := 0
  deriving DecidableEq, Repr

/-- A completion queue (R308): its ring, the producer index and the completion count; `consumer` the consumer index last read. -/
structure Cq where
  region : Nat := 0
  off : Nat := 0
  n : Nat := 6
  pd : Nat := 0
  producer : Nat := 0
  count : Word := 0
  consumer : Nat := 0
  deriving DecidableEq, Repr

/-- A message being placed on a QP (R298, R313): the PSN of its first and last packets, its lines not yet durable, its bytes not yet
received, its immediate data and length, and whether its last packet has come. -/
structure Msg where
  first : BitVec 24
  last : BitVec 24
  msn : Nat
  left : Nat
  missing : Nat := 0
  imm : Option Word := Option.none
  length : Nat := 0
  deriving DecidableEq, Repr

/-- What a remembered request was (R311). -/
inductive ReqKind where
  | write | read | atomic | flush
  deriving DecidableEq, Repr

/-- A remembered request PSN (R311): its kind, whether it has been answered, and the result of an atomic that waits to be answered. -/
structure Remembered where
  psn : BitVec 24
  kind : ReqKind
  done : Bool := false
  result : BitVec 64 := 0
  deriving DecidableEq, Repr

/-- A READ, atomic or FLUSH that waits for earlier writes of its QP, or a write that arrived behind one (R298, R299). -/
inductive Queued where
  | read (psn : BitVec 24) (region off len : Nat)
  | atomic (psn : BitVec 24) (region off : Nat) (op : Atomic)
  | flush (psn : BitVec 24)
  | write (ws : List HostWrite)
  deriving DecidableEq, Repr

/-- A posted send-queue entry (Table 12-9). -/
structure Wqe where
  opcode : Fin 5
  signal : Bool
  wait : Bool
  localKey : Word
  localVa : Nat
  length : Nat
  remoteKey : Word
  remoteVa : Nat
  imm : Word
  waitCq : Nat
  waitCount : Word
  idx : Nat
  deriving DecidableEq, Repr

/-- A WQE in flight: its first and last PSN, for a READ the lines still to become durable, and whether local data failed. -/
structure InFlight where
  wqe : Wqe
  psn : BitVec 24
  last : BitVec 24
  acked : Bool := false
  left : Nat := 0
  bad : Bool := false
  deriving DecidableEq, Repr

/-- The position of a packet in its message, by its BTH opcode. -/
inductive PktPos where
  | first | middle | last | only
  deriving DecidableEq, Repr

/-- The OFFSET, LENGTH and MSN of a Gweulo placement header (Table 12-10). -/
def gphOffset (g : BitVec 128) : Nat := (g.extractLsb' 64 32).toNat
def gphLength (g : BitVec 128) : Nat := (g.extractLsb' 32 32).toNat
def gphMsn (g : BitVec 128) : Nat := (g.extractLsb' 8 24).toNat

/-- The header that opens a selective NAK of `n` ranges (Table 12-10). -/
def sackHeader (n : Nat) : BitVec 128 := BitVec.ofNat 128 (1 * 2 ^ 120 + 2 * 2 ^ 112 + n * 2 ^ 104)

/-- A range of a selective NAK (R314): [31:8] first PSN, [7:0] count − 1. -/
def sackRange (r : BitVec 24 × Nat) : Word := BitVec.ofNat 32 (r.1.toNat * 256 + (r.2 - 1) % 256)

/-- A packet of an RDMA WRITE: its PSN, position, RETH (R_Key, address, message length; of the first packet, or of every SPRAY packet),
payload, the 16 B GPH where the QP sprays (Table 12-10), and how it arrived: `ce` marked by congestion, `icrc` that the ICRC holds. -/
structure WritePkt where
  psn : BitVec 24
  pos : PktPos
  key : Word := 0
  va : Nat := 0
  len : Nat := 0
  data : List Byte := []
  gph : Option (BitVec 128) := Option.none
  ce : Bool := false
  icrc : Bool := true
  deriving DecidableEq, Repr

/-- The message whose packets a STANDARD QP is receiving: its first PSN, region and offset, and length. -/
structure CurMsg where
  first : BitVec 24
  region : Nat
  off : Nat
  len : Nat
  deriving DecidableEq, Repr

/-- A queue pair (R297 to R316). `cache` is its atomic result cache, as ciphertext, once allocated, and `copies` the indices of the 4 windows used
most recently (R307). `mgmt` names the command channel of a management QP; `cur` the message
being received; `nextMsn` the MSN of the next request; `nakSent` that a sequence NAK is out; `cnpAt` and `decAt` when the last CNP left and
the last reduction was made; `sqHead` and `sqTail` bound the WQEs not yet read, and `ackUs` is its ACK timeout in µs. -/
structure Qp where
  connected : Bool := false
  error : Bool := false
  mgmt : Option (Fin 64) := Option.none
  spray : Bool := false
  depth : Nat := 0
  pd : Nat := 0
  mac : Fin 32 := 0
  gid : Fin 16 := 0
  pmtu : Nat := 1024
  epsn : BitVec 24 := 0
  msn : Nat := 0
  msgs : List Msg := []
  queued : List Queued := []
  active : List (BitVec 24 × Nat) := []
  recent : List Remembered := []
  rnr : Option (BitVec 24) := Option.none
  placed : List (BitVec 24) := []
  hole : Bool := false
  rcq : Option Nat := Option.none
  scq : Option Nat := Option.none
  rate : Nat := 0
  k : Nat := 1
  cnpAt : Option Dword := Option.none
  decAt : Option Dword := Option.none
  cur : Option CurMsg := Option.none
  nextMsn : Nat := 1
  nakSent : Bool := false
  sqTail : Nat := 0
  sqRegion : Nat := 0
  sqOff : Nat := 0
  sqN : Option Nat := Option.none
  sqHead : Nat := 0
  wqes : List Wqe := []
  flight : List InFlight := []
  txPsn : BitVec 24 := 0
  retries : Nat := 0
  ackUs : Nat := 0
  peerRnr : Bool := false
  cache : Option (BitVec 4096) := Option.none
  copies : List Nat := []
  deriving DecidableEq, Repr

/-- A MAC: link, rate code, GIDs with their VLANs, the two SAs of each of its port's secure channels that MKA has installed for it (R318), its FEC
state, and its PTP clock: the rank of its master in the dataset
comparison, whether a Delay_Req is out, and the path delay last measured, in ns. -/
structure Mac where
  up : Bool := false
  rate : Nat := 0
  gids : Tab (Option (BitVec 128 × Option (BitVec 12))) := []
  sas : Tab (BitVec 2) := []
  fecBad : Bool := false
  master : Option Nat := Option.none
  dreqSent : Bool := false
  delay : Option Nat := Option.none
  deriving DecidableEq, Repr

/-- A MAC has an SA installed (R318). -/
def Mac.sa (v : Mac) : Bool := v.sas.any fun x => x.2 != 0

/-- An Ethernet port's PFC state (R317), its mode as taken at its last enable (R294), and its free receive buffer in KiB. -/
structure EthPort where
  mode : Nat := 0
  sending : Bool := false
  paused : Bool := false
  free : Nat := 4096
  deriving DecidableEq, Repr

/-- An SPDM request (R383, R384): negotiation, digests, certificates, a challenge, a measurement block; the exchange that establishes session
`sid`, with the outcome of the requester's chain and its rights mask where it authenticates itself; and the end of a session. -/
inductive SpdmAsk where
  | negotiate | digests | certificate (slot : Fin 8) | challenge
  | measurements (block : Fin 8)
  | session (sid : Word) (cred : Option (Bool × BitVec 7))
  | endSession (sid : Word)
  deriving DecidableEq, Repr

/-- A CM REQ: the MAC and GID it came by, its private data (Table 12-5), its PMTU code (1,024 × 2^code) and the PSN it starts at. -/
structure CmReq where
  mac : Fin 32
  gid : Fin 16
  format : BitVec 8 := 1
  service : BitVec 8 := 0
  placement : BitVec 8 := 0
  pdOrChan : BitVec 16
  depth : BitVec 16 := 0
  token : Word
  pmtu : Fin 3 := 0
  psn : BitVec 24 := 0
  deriving DecidableEq, Repr

/-- What waits for Mingaso while the control cores restart (R320): a REQ, or an ARP, neighbour discovery, ICMP or MKA frame of a MAC
with what it asks. -/
inductive MacAsk where
  | cm (r : CmReq)
  | arp (m : Fin 32) (g : Fin 16)
  | nd (m : Fin 32) (g : Fin 16)
  | icmp (m : Fin 32) (g : Fin 16)
  | mka (m : Fin 32) (sc : Fin 64) (an : Fin 2) (sa : Bool)
  deriving DecidableEq, Repr

/-- The RDMA and Ethernet side. `qps` by QP number, `ctxLru` the contexts on die, `asks` what waits for Mingaso. -/
structure Rdma where
  qps : Tab Qp := []
  pds : Tab (Option Pd) := []
  wins : Tab (Option MemWin) := []
  cqs : Tab (Option Cq) := []
  macs : Tab Mac := []
  ports : Tab EthPort := []
  ptpMac : Option (Fin 32) := Option.none
  ptpOffset : Int := 0
  ctxLru : List Nat := []
  asks : List MacAsk := []
  caks : Tab (Option Nat) := []
  deriving DecidableEq, Repr

end Sys2Proof.Machine
end

