-- ==== Sys2Proof/Machine/StateChannels.lean ====
section
/-! DEFINITION. The state of the 64 command channels (chapter 14): assignment, page registers, queues, commands at work and
their replies, and the staging window. -/

namespace Sys2Proof.Machine

/-- Who holds a channel (Table 14-1). -/
inductive Principal where
  | none
  | shelf
  | spdm (session : Word)
  | cxl (port : Fin 4) (ld : Fin 16)
  | rdma
  deriving DecidableEq, Repr

/-- A transport of Table 14-2, as the duplicate check of R354 tells them apart. -/
inductive Transport where
  | page | legacy | mailbox | rdmaQp | mctp
  deriving DecidableEq, Repr

/-- A command that answered PENDING and still works (R355); `res` are the results it is to end with. -/
structure PendingOp where
  tag : BitVec 16
  seq : BitVec 16 := 0
  opcode : BitVec 16
  quiet : Bool := false
  via : Transport := .page
  params : List Word := []
  res : List Word := []
  deriving DecidableEq, Repr

/-- A final reply kept for CMD_STATUS and for duplicates (R354, R355): the packet's TAG, and the reply's words. -/
structure FinalReply where
  tag : BitVec 16
  words : List Word
  deriving DecidableEq, Repr

/-- The last packet taken on a transport (R354): its CHAN_SEQ, its TAG and the reply it got. -/
structure LastPacket where
  via : Transport
  seq : BitVec 16
  tag : BitVec 16
  reply : List Word
  deriving DecidableEq, Repr

/-- A packet as Mingaso sees it, whatever transport brought it: the channel and transport, TAG, CHAN_SEQ, SESSION, QUIET, the
reserved FLAGS, and the parameters. `ok` is the outcome of the check or the work that the model does not compute (a signature or share that verifies, an
image that checks, a key that unwraps). -/
structure AzReq where
  chan : Fin 64
  via : Transport := .page
  tag : BitVec 16 := 0
  seq : BitVec 16 := 0
  session : Word := 0
  quiet : Bool := false
  flags : BitVec 7 := 0
  params : List Word := []
  ok : Bool := true
  deriving DecidableEq, Repr

/-- A packet that waits for Mingaso, with its opcode (R356, R357). -/
structure HeldPacket where
  opcode : BitVec 16
  req : AzReq
  deriving DecidableEq, Repr

/-- A command channel. `inQ` is the inbound queue of the page; `outQ` the words of the outbound queue, oldest first; `waiting`
the replies and notifications the transport has not yet accepted, `held` the packets that wait for Mingaso (R356, R357); `ldata`, `lcmd` and `lgo` the legacy registers, with
`begun` once Mingaso has read them; `stage` the words of the staging window by word index; `grants` the READ (bit 0) and WRITE (bit 1)
grants by region (REGION_GRANT). -/
structure Chan where
  who : Principal := .none
  rights : BitVec 7 := 0
  legacy : Bool := false
  session : Word := 0
  token : Word := 0
  agen : BitVec 16 := 0
  pageSeq : BitVec 16 := 0
  last : List LastPacket := []
  inQ : List Word := []
  collide : Bool := false
  bell : Bool := false
  outQ : List Word := []
  outIe : Bool := true
  waiting : List (List Word) := []
  held : List HeldPacket := []
  dropped : Word := 0
  ops : List PendingOp := []
  done : List FinalReply := []
  ldata : List Word := []
  lcmd : Word := 0
  lgo : Bool := false
  begun : Bool := false
  i3cOff : BitVec 16 := 0
  stage : List (Nat × Word) := []
  grants : List (Nat × BitVec 2) := []
  deriving DecidableEq, Repr

/-- The assignment of a channel that its NV record keeps (R338, R344): principal, AGEN and mode. -/
structure Assignment where
  who : Principal := .none
  agen : BitVec 16 := 0
  legacy : Bool := false
  deriving DecidableEq, Repr

end Sys2Proof.Machine
end

