-- ==== Sys2Proof/Machine/StateSec.lean ====
section
/-! DEFINITION. The state of keys, attestation and the life cycle (chapter 15) and of the DRAM bench (chapter 13). A key stands as a
number that names it: no key value is software-visible. -/

namespace Sys2Proof.Machine

/-- STATE of a key slot (Table 15-4). -/
inductive KeyState where
  | empty | awaitingShare | active | erasing
  deriving DecidableEq, Repr

/-- The key slot of a region (Table 15-4) and what the key store holds of it (R373): `key` names the wrapped key, `loaded` that the key
store holds it, and `locking` that it goes once the region's dirty lines are written back (R377); `eraseStep` is the journaled step of CRYPTO_ERASE (R380). -/
structure KeySlot where
  state : KeyState := .empty
  shareRequired : Bool := false
  key : Nat := 0
  loaded : Bool := false
  locking : Bool := false
  fails : Nat := 0
  holdUntil : Word := 0
  eraseStep : Nat := 0
  deriving DecidableEq, Repr

/-- The life-cycle states (chapter 15). -/
inductive LifeState where
  | test | maker | fieldOpen | fieldLocked | returned | ended
  deriving DecidableEq, Repr

/-- A life-cycle transition at work (R388, R390): its command, the target state, and whether it lowers read-out protection. -/
structure LcWork where
  who : Fin 64 × BitVec 16
  target : LifeState
  lower : Bool := false
  deriving DecidableEq, Repr

/-- Keys and life cycle: key slots by region, the salts' generations, the time key (its bytes), the OTP groups G0 to G4 and those with bits
that would not program, read-out protection, `ropErase` the mark ROP_ERASE_PENDING and `eraseMarker` a whole-device erase not yet
complete (R382, R392), the debug port and its challenge, the TRNG and DRBG, the sealed lines of locked regions (R379), the
anti-rollback counter, whether IDENTITY can be derived, the transition at work, `lcMark` the state whose entry actions are not yet marked done (R390), `repair` LCS_OTP_STATUS.GROUP_REPAIR, `root` the name of
ROOT (0 none), the customer hashes, and the SPDM sessions that stand over MCTP. -/
structure Sec where
  slots : Tab KeySlot := []
  nextKey : Nat := 1
  salts : Nat := 0
  timeKey : List Byte := []
  groups : BitVec 80 := 0
  otpBad : BitVec 5 := 0
  rop : Fin 3 := 0
  ropErase : Bool := false
  eraseMarker : Bool := false
  debugOpen : Bool := false
  challenge : Bool := false
  trngFail : Bool := false
  drbg : Nat := 0
  sealed : List Nat := []
  arb : Nat := 0
  identity : Bool := true
  lcWork : Option LcWork := Option.none
  lcMark : Option LifeState := Option.none
  repair : Bool := false
  root : Nat := 0
  custRoot : List Word := []
  custDebug : List Word := []
  mctp : List Word := []
  deriving DecidableEq, Repr

/-! ### The DRAM bench -/

/-- State of the DRAM bench (chapter 13). -/
inductive DramState where
  | unconfigured | training | ready | switching | selfRefresh | failed
  deriving DecidableEq, Repr

/-- State of a rank (chapter 13). -/
inductive RankState where
  | absent | inService | spare | copying | retired | trainFailed
  deriving DecidableEq, Repr

/-- A rank of a channel: its state, the rank set it serves, the CE count of its window, and whether its retirement waits for a copy in its
channel (R333). -/
structure Rank where
  st : RankState := .absent
  set : Nat := 0
  window : Nat := 0
  waiting : Bool := false
  deriving DecidableEq, Repr

/-- A requested scrub under way (R330). -/
structure Scrub where
  chan : Option (Fin 64 × BitVec 16) := Option.none
  ce : Nat := 0
  ue : Nat := 0
  firstUe : Nat := 0
  deriving DecidableEq, Repr

/-- What holds the data of a bench address (Tables 10-8 and 13-3): a translation chunk, the band offsets of one, the free lists of a die, an
array loaded before open, the pool page of a sett, a bucket of the promotion table by the setts it covers, an RDMA context, a window or
PD, the atomic result cache of a QP, words of a staging window, or Mingaso's working data. -/
inductive DramArray where
  | table (chunk : Nat)
  | bands (chunk : Nat)
  | freeList (die : Nat)
  | beforeOpen
  | poolPage (lsett : Nat)
  | promoBucket (lsetts : List Nat)
  | rdmaQp (n : Nat)
  | window (i : Nat)
  | pd (i : Nat)
  | atomicCache (qp : Nat)
  | staging (chan first words : Nat)
  | mingaso
  deriving DecidableEq, Repr

/-- The DRAM bench: its state, speed and previous speed, the ranks by channel × 4 + rank; `found` the fields [6:2] of DRM_MAP that the SPD hubs
give, none where the DIMMs break R322; `bad` the ranks that fail training; the CE cache, the requested scrub, a KEEP burst, the burst
with an injected error (with TWO), the speeds trained, the SPD polls missed and the hot DIMMs,
the scrubber's PCT and last pass, the last exit from self-refresh, the timing set that a switch takes into use, and the pages of the valid
map that writes by bench address have set (R328). -/
structure Dram where
  st : DramState := .unconfigured
  speed : Nat := 0
  prevSpeed : Nat := 0
  ranks : Tab Rank := []
  found : Option (BitVec 5) := Option.none
  bad : List Nat := []
  ceCache : List Nat := []
  sreq : Option Scrub := Option.none
  burst : Bool := false
  injected : Option (Nat × Bool) := Option.none
  trained : List Nat := []
  missed : Tab Nat := []
  hot : BitVec 16 := 0
  scrubPct : Nat := 0
  scrubEpoch : BitVec 20 := 0
  lastExit : Option Dword := Option.none
  newTim : List Word := []
  valid : List Nat := []
  deriving DecidableEq, Repr

end Sys2Proof.Machine
end

