-- ==== Sys2Proof/Machine/StateOut.lean ====
section
/-! DEFINITION. What the block sends to the outside: responses to hosts, interrupts, packets and pin changes. The model appends
each to the state's output list, newest first; nothing in the block reads the list back. -/

namespace Sys2Proof.Machine

/-- Link control a quarry lane carries (Table 4-4). -/
inductive Lctl where
  | ack (seq : BitVec 8)
  | nak (seq : BitVec 8)
  | credit (freed : List Byte)
  | sleep
  | train
  deriving DecidableEq, Repr

/-- A transfer on a group's sideband (R81 to R84): a package's dynamic address is assigned, or its descriptor, its temperature or its status is read. -/
inductive SideXfer where
  | setdasa (pkg : Fin 32)
  | descriptor (pkg : Fin 32)
  | temperature (pkg : Fin 32)
  | status (pkg : Fin 32)
  deriving DecidableEq, Repr

/-- One thing the block sends. -/
inductive Out where
  /-- An MSI-X message of vector `vector` to an LD (R36, R292). -/
  | msix (port : Fin 4) (ld : Fin 16) (vector : BitVec 8)
  /-- The I3C in-band interrupt of channel 0 (R341). -/
  | inBandInterrupt
  /-- A packet on a whole-packet transport (R341). -/
  | packet (chan : Fin 64) (via : Transport) (words : List Word)
  /-- The error a refused register access returns (R28): an abort or dropped write, a bus-error exception, an error response. -/
  | busError (req : Requester)
  | csrData (req : Requester) (data : Dword)
  /-- The words of a legacy I3C private read of channel 0's page (R341). -/
  | i3cData (words : List Word)
  /-- The value a register read or private read returns. -/
  | value (w : Word)
  /-- A non-maskable interrupt to the control cores (R417). -/
  | nmi
  /-- A command to a die on quarry channel `chan` (R74). -/
  | qmi (chan : Fin 144) (cmd : QmiCmd)
  /-- The MSG flits that carry the commands before it (R69, R73). -/
  | qmiFlits (chan : Fin 144) (flits : List (BitVec 544))
  /-- Link control on a quarry lane (R70). -/
  | qmiLctl (chan : Fin 144) (l : Lctl)
  /-- The transmitter of a quarry lane replays from a SEQ (R70). -/
  | qmiReplay (chan : Fin 144) (seq : BitVec 8)
  /-- A retrain of a quarry lane starts: fast, or full (R71). -/
  | qmiRetrain (chan : Fin 144) (full : Bool)
  /-- A transfer on a group's sideband. -/
  | sideband (group : Fin 9) (x : SideXfer)
  /-- Data of a CXL read: its chunk, and whether it carries poison (Table 11-3). -/
  | memData (port : Fin 4) (ld : Fin 16) (tag : Nat) (data : Chunk) (poison : Bool)
  /-- The completion of a CXL write. -/
  | memCmp (port : Fin 4) (ld : Fin 16) (tag : Nat)
  /-- A port stops or resumes returning RwD credits (R184). -/
  | credits (port : Fin 4) (on : Bool)
  /-- An ACK of a QP, with the PSN and MSN it names (R298). -/
  | rdmaAck (qp : Nat) (psn : BitVec 24) (msn : Nat)
  /-- A NAK of a QP: its AETH code 0 PSN sequence error, 1 invalid request, 2 remote access error, 3 remote operational error; or an
  RNR NAK (4) with timer 0b00001. -/
  | rdmaNak (qp : Nat) (psn : BitVec 24) (code : Fin 5)
  /-- A selective NAK: first missing PSN, GPH and ranges (R314). -/
  | rdmaSack (qp : Nat) (psn : BitVec 24) (gph : BitVec 128) (ranges : List Word)
  /-- One line of a READ response. -/
  | rdmaData (qp : Nat) (psn : BitVec 24) (part : Nat) (chunks : BitVec 4) (data : Line)
  /-- An atomic's response with the earlier value (R300). -/
  | rdmaAtomic (qp : Nat) (psn : BitVec 24) (old : BitVec 64)
  /-- A CM message: REP with the placement granted, REJ or DREQ with a reason (Table 12-6) and region. -/
  | cmRep (qp : Nat) (spray : Bool)
  | cmRej (reason : Nat) (region : Nat)
  | cmDreq (qp : Nat) (reason : Nat) (region : Nat)
  /-- A CNP for a QP (R316). -/
  | cnp (qp : Nat)
  /-- A requester packet: the WQE it carries out and its PSNs (R309). -/
  | request (qp : Nat) (wqe : Wqe) (psn : BitVec 24)
  /-- One line of the local data that a requester's WRITE carries (R309). -/
  | requestData (qp : Nat) (psn : BitVec 24) (part : Nat) (chunks : BitVec 4) (data : Line)
  /-- A SEND on a management QP (R303). -/
  | send (qp : Nat) (words : List Word)
  /-- A frame on a Tandem port (R205): its header (Table 9-1), the words of its entries (Tables 9-3 and 9-4, R207), and what it says. -/
  | tandem (port : Bool) (header : BitVec 128) (entries : List (BitVec 128)) (body : TBody)
  /-- Link-level answers of a Tandem port: acknowledgement, NAK, replay from a SEQ, a fast or full retrain (R203). -/
  | tandemAck (port : Bool) (seq : BitVec 12)
  | tandemNak (port : Bool) (seq : BitVec 12)
  | tandemReplay (port : Bool) (seq : BitVec 12)
  | tandemRetrain (port : Bool) (full : Bool)
  /-- An answer of a CXL mailbox command: return code and payload words. -/
  | mailbox (port : Fin 4) (ld : Fin 16) (code : Nat) (payload : List Nat)
  /-- A DOE answer: the object's contents as the model gives them. -/
  | doe (port : Fin 4) (ld : Fin 16) (words : List Nat)
  /-- An SPDM response, on the DOE of an LD or, with none, over MCTP: the request's number and the contents as the model gives them (R383). -/
  | spdm (doe : Option (Fin 4 × Fin 16)) (code : Nat) (words : List Nat)
  /-- A dynamic capacity addition is refused to the fabric manager, with the status (R143, R144). -/
  | dcRefused (port : Fin 4) (ld : Fin 16) (status : Nat)
  /-- The answer to GPF Phase 2 (R290). -/
  | gpfDone (port : Fin 4)
  /-- A PFC frame: pause or resume (R317). -/
  | pfc (port : Fin 8) (pause : Bool)
  /-- A frame Mingaso or a PTP clock sends from a MAC: 0 ARP, 1 neighbour advertisement, 2 ICMP echo reply, 3 MKA, 4 Delay_Req. -/
  | macFrame (mac : Fin 32) (kind : Fin 5) (arg : Nat)
  /-- A DRAM command the model shows: 0 self-refresh entry, 1 exit, 2 rewrite, 3 retrain, 4 scrub, 5 injected write, 6 CA retry. -/
  | dram (what : Fin 7) (addr : Nat)
  /-- Host ingress stops or opens on every CXL and Ethernet port (Table 8-5). -/
  | ingress (on : Bool)
  /-- A reset of a flash die, or of the control cores (R401, R422). -/
  | coreReset
  | flashReset
  deriving DecidableEq, Repr

end Sys2Proof.Machine
end

