-- ==== Sys2Proof/Syntax.lean ====
section
/-! DEFINITION. The commands of the block: one constructor per row of the opcode table, with the row's operands. Each docstring gives the
row's mnemonic, its rule and the table's own summary. -/

namespace Sys2Proof

open Machine in
/-- A command of the block. -/
inductive Instr where
  /-- CXL_MEMRD (R9): A CXL.mem MemRd or MemRdData resolves region, translation and Bench 0, and returns the chunk from Bench 0, the DRAM pool or the medium. -/
  | cxlMemrd (p : Fin 4) (l : Fin 16) (tag : Nat) (t : CxlTarget)
  /-- CXL_MEMSPECRD (R272): A MemSpecRd starts a Bench 0 fill and returns nothing. -/
  | cxlMemspecrd (p : Fin 4) (l : Fin 16) (t : CxlTarget)
  /-- CXL_MEMWR (R12): A CXL.mem MemWr is ordered at the home or forwarded, placed in Bench 0 and mirrored; its completion is released only once both persistence domains hold it. -/
  | cxlMemwr (p : Fin 4) (l : Fin 16) (tag : Nat) (t : CxlTarget) (d : Chunk) (poison : Bool)
  /-- CXL_MEMWRPTL (R282): A MemWrPtl places its enabled bytes as one chunk write, with a partial-line entry where needed. -/
  | cxlMemwrptl (p : Fin 4) (l : Fin 16) (tag : Nat) (t : CxlTarget) (mask : BitVec 64) (d : Chunk) (poison : Bool)
  /-- PARTIAL_LINE_MERGE (R180): A partial line is merged with its DRAM or medium copy once that source read completes. -/
  | partialLineMerge (x : Nat)
  /-- SCB_IDLE_CLOSE (R178): A stream buffer whose stream is idle for IDLE_US closes early and the rest of the sett is programmed from other sources. -/
  | scbIdleClose (n : Nat)
  /-- CXL_HOLD_TIMEOUT (R281): A CXL write still held after HOLD_MAX_US is dropped with Cmp returned. -/
  | cxlHoldTimeout (p : Fin 4)
  /-- FORWARD_GATHER_EXPIRY (R13): The 125 ns gather interval of an open FORWARD frame ends and the frame is sealed and sent. -/
  | forwardGatherExpiry
  /-- PROGRAM_DONE (R15): A DONE response to a PROGRAM arrives; a verified line turns clean unless re-dirtied, LOOPS and MARGIN are judged and the young map updated. -/
  | programDone (n : Fin 144) (seq : BitVec 8) (tag : BitVec 10) (info : DoneInfo)
  /-- EMERGENCY_REMAP_START (R128): Within 1 ms of a PROG_FAIL Yarrow journals a remap intent, sets MIG REMAP and starts copying the sett. -/
  | emergencyRemapStart (n : Nat)
  /-- MOVE_COMMIT (R130): When every program of a move has verified, one journal record switches PHYS, LROT, WEAR and band and frees or spoils the source. -/
  | moveCommit (n : Nat)
  /-- YARROW_WORK_DISPATCH (R137): Yarrow starts the next queued work item in class order within its bandwidth limits. -/
  | yarrowWorkDispatch
  /-- WEAR_SCAN (R139): At least hourly Yarrow scans each die and channel and queues wear-levelling and balance moves. -/
  | wearScan (n : Fin 144)
  /-- SPARE_RECOMPUTE (R142): Every second Yarrow recomputes spare and the capacity state. -/
  | spareRecompute
  /-- YOUNG_SWEEP (R106): The young sweeper visits each tag at least every 64 s and merges generations or merges into the band. -/
  | youngSweep (n : Nat)
  /-- TEASEL_BLANKING (R159): Teasel blank-programs low-wear free slots to keep BLANK_MIN blank slots per die and mode. -/
  | teaselBlanking (d : Fin 2304)
  /-- TEASEL_PASS_COMPLETE (R162): A group pass reaches its end, captures PASS_DONE and clears LATE. -/
  | teaselPassComplete (g : Fin 9)
  /-- KEEP_BURST_END (R163): A KEEP burst ends once its pass and committable refreshes are done; anchors are rewritten and group rails go down. -/
  | keepBurstEnd
  /-- QMI_FRAME_RESPONSE (R74): A FRAME response to a READ or MARGIN_READ arrives and is judged and delivered to its user. -/
  | qmiFrameResponse (n : Fin 144) (seq : BitVec 8) (tag : BitVec 10) (f : BitVec 2400)
  /-- QMI_SOFT_RESPONSE (R115): A SOFT response carrying three sense planes arrives for soft decode. -/
  | qmiSoftResponse (n : Fin 144) (seq : BitVec 8) (tag : BitVec 10) (ref plus minus : BitVec 2400)
  /-- QMI_INFO_RESPONSE (R75): An INFO response to GET_REF, DIE_STATUS, IDENTIFY or COMPLETION_LOG arrives. -/
  | qmiInfoResponse (n : Fin 144) (seq : BitVec 8) (tag : BitVec 10) (info : InfoData)
  /-- QMI_ERROR_RESPONSE (R75): An ERROR response arrives; REF_UNSET reloads sets and reissues, DIE_FAULT fails the die. -/
  | qmiErrorResponse (n : Fin 144) (seq : BitVec 8) (tag : BitVec 10) (st : DieStatus)
  /-- QMI_SET_REF_DONE (R76): A DONE to SET_REF or SET_ZONE_MODE completes a reference load or zone mode change. -/
  | qmiSetRefDone (n : Fin 144) (seq : BitVec 8) (tag : BitVec 10) (st : DieStatus)
  /-- QMI_DIE_RESET_DONE (R74): DIE_RESET completes after the die's other commands end ABORTED. -/
  | qmiDieResetDone (n : Fin 144) (seq : BitVec 8) (tag : BitVec 10)
  /-- QMI_ACK_RECEIVED (R70): An LCTL ACK frees acknowledged flits from the replay buffer and resets the replay count. -/
  | qmiAckReceived (n : Fin 144) (seq : BitVec 8)
  /-- QMI_NAK_RECEIVED (R70): An LCTL NAK starts a replay from the flit after the named SEQ. -/
  | qmiNakReceived (n : Fin 144) (seq : BitVec 8)
  /-- QMI_CREDIT_RECEIVED (R77): An LCTL CREDIT updates the per-die command credits. -/
  | qmiCreditReceived (n : Fin 144) (die : Fin 16) (freed : BitVec 8)
  /-- QMI_SLEEP_RECEIVED (R467): An LCTL SLEEP request is answered and the lane enters low power in IDLE. -/
  | qmiSleepReceived (n : Fin 144)
  /-- QMI_CRC_FAILURE (R70): A flit failing CRC or with a SEQ gap is discarded and a NAK is sent; CRC storm may start recovery. -/
  | qmiCrcFailure (n : Fin 144) (newWindow : Bool) (f : BitVec 544)
  /-- QMI_ACK_TIMER (R70): The 200 ns acknowledgement interval expires and the receiver sends an ACK. -/
  | qmiAckTimer (n : Fin 144)
  /-- QMI_LCTL_REFRESH (R69): Each end re-sends its full link-control state at least once per microsecond. -/
  | qmiLctlRefresh (n : Fin 144)
  /-- QMI_REPLAY_TIMEOUT (R70): No acknowledgement advancing for 2 us replays from the oldest unacknowledged flit. -/
  | qmiReplayTimeout (n : Fin 144)
  /-- FAST_RETRAIN_DONE (R71): A fast retrain ends; success resumes replay, failure runs the next retrain. -/
  | fastRetrainDone (n : Fin 144) (ok : Bool)
  /-- FULL_RETRAIN_DONE (R71): A full retrain ends; success reads completion logs under R72, failure sets the channel DOWN. -/
  | fullRetrainDone (n : Fin 144) (ok : Bool)
  /-- QC_FAST_RETRAIN (R71): A write of FAST_RETRAIN starts recovery at the fast retrain step on an ACTIVE channel. -/
  | qcFastRetrain (n : Fin 144)
  /-- QC_FULL_RETRAIN (R71): A write of FULL_RETRAIN starts recovery at the full retrain step on an ACTIVE channel. -/
  | qcFullRetrain (n : Fin 144)
  /-- QC_OFFLINE (R88): A write of OFFLINE stops issuing to a channel and powers its lane down after outstanding commands end or 100 us. -/
  | qcOffline (n : Fin 144)
  /-- QC_OFFLINE_TIMEOUT (R88): The 100 us wait of an offlined channel ends and the lane powers down. -/
  | qcOfflineTimeout (n : Fin 144)
  /-- QC_EN (R85): Mingaso sets EN once the channel is ACTIVE and its dies answered IDENTIFY, letting the controller issue commands. -/
  | qcEn (n : Fin 144)
  /-- PACKAGE_READY (R85): A package's READY byte reading 1 lets its channel start DETECT and training. -/
  | packageReady (n : Fin 144) (pkg : Bool) (seen : BitVec 32) (d : List Byte)
  /-- CHANNEL_TRAINED (R85): Channel training and IDENTIFY complete and the channel becomes ACTIVE. -/
  | channelTrained (n : Fin 144) (idOk : BitVec 16)
  /-- SIDEBAND_TEMP_POLL (R83): Every TEMP_POLL the temperature of each package is read and given to Eyebright. -/
  | sidebandTempPoll (g : Fin 9) (temps : List (Option Int))
  /-- SIDEBAND_STUCK_TIMEOUT (R84): A sideband bus held low for more than 10 ms is declared failed. -/
  | sidebandStuckTimeout (g : Fin 9)
  /-- QG_ALERT (R84): QGg_ALERT_N going low raises ALERT and the alerting package's status is read. -/
  | qgAlert (g : Fin 9) (low : Bool) (pkg : Fin 32) (status : Byte)
  /-- EYEBRIGHT_POWERUP_COMPARE (R58): After a group's rails return Eyebright measures anchor ages, computes ratios and appends age-log entries. -/
  | eyebrightPowerupCompare (g : Fin 9) (levels : List (Nat × List Sample))
  /-- EYEBRIGHT_CALIBRATION (R110): Eyebright measures sentinels and fits each die's drift model, or keeps its last fit on failure. -/
  | eyebrightCalibration (d : Fin 2304) (levels : List Sample)
  /-- EYB_SWEEP (R111): A write of EYB_CTRL.SWEEP starts a full reference sweep of the selected die. -/
  | eybSweep
  /-- FULL_SWEEP_DONE (R111): A full reference sweep of a die completes. -/
  | fullSweepDone (d : Fin 2304) (levels : List Sample)
  /-- TANDEM_MIRROR (R213): A MIRROR frame is applied in ROS order to the twin's Bench 0 and MIRROR_DONE is sent. -/
  | tandemMirror (p : Bool) (f : TFrame) (es : List WEntry)
  /-- TANDEM_FORWARD (R215): A FORWARD frame's writes are ordered by the home as its own, or refused with FWD_REFUSED. -/
  | tandemForward (p : Bool) (f : TFrame) (es : List WEntry)
  /-- MIRROR_DONE (R12): A MIRROR_DONE ACK entry lets the home release completions of writes up to that ROS. -/
  | mirrorDone (p : Bool) (f : TFrame) (dirty : Nat) (c : Cap) (region : Fin 4096) (ros : Nat)
  /-- FWD_DURABLE (R215): A FWD_DURABLE entry lets the forwarder release host completions of the named FTAGs. -/
  | fwdDurable (p : Bool) (f : TFrame) (dirty : Nat) (c : Cap) (ftag : BitVec 16) (count : BitVec 8)
  /-- FWD_REFUSED (R215): A FWD_REFUSED entry gives the forwarder's host the home's refusal status. -/
  | fwdRefused (p : Bool) (f : TFrame) (dirty : Nat) (c : Cap) (ftag : BitVec 16) (status : BitVec 16)
  /-- TANDEM_READ_ASSIST_REQUEST (R207): A READ_ASSIST request is served from the twin's benches with one reply entry per line. -/
  | tandemReadAssistRequest (p : Bool) (f : TFrame) (rtag : Word) (region : Fin 4096) (line : Nat) (count : Nat)
  /-- TANDEM_READ_ASSIST_REPLY (R116): READ_ASSIST reply entries deliver lines for a read, rebuild or AWAIT_TWIN line. -/
  | tandemReadAssistReply (p : Bool) (f : TFrame) (rtag : Word) (line : Nat) (last : Bool) (st : AssistStatus)
  /-- TANDEM_SYNC (R210): A SYNC frame supplies the four timestamps for twin time offset and delay. -/
  | tandemSync (p : Bool) (f : TFrame) (times : SyncTimes) (src : TimeSource) (trust : Trust)
  /-- TANDEM_HEARTBEAT (R216): A HEARTBEAT records liveness, echo and the peer's dirty and capacity levels. -/
  | tandemHeartbeat (p : Bool) (f : TFrame) (seq : Word) (echo : Word) (dirty : Nat) (c : Cap)
  /-- TANDEM_RESYNC (R226): RESYNC entries are applied at their stamp's place in the region order on the target. -/
  | tandemResync (p : Bool) (f : TFrame) (es : List WEntry)
  /-- TANDEM_PAIR (R211): A PAIR frame carries SPDM attestation and key agreement during ATTESTING. -/
  | tandemPair (p : Bool) (f : TFrame) (m : PairMove)
  /-- CAP_STATE (R146): A CONTROL CAP_STATE reports the twin's capacity state. -/
  | capState (p : Bool) (f : TFrame) (c : Cap)
  /-- DRAINING (R219): A CONTROL DRAINING makes the receiver declare link loss at once with fence interval elapsed. -/
  | draining (p : Bool) (f : TFrame) (trigger : Fin 16)
  /-- DETACH_FRAME (R230): A CONTROL DETACH makes the receiver DETACHED and run every region solo at once. -/
  | detachFrame (p : Bool) (f : TFrame)
  /-- HANDOVER (R229): A CONTROL HANDOVER makes the receiver home with the new TERM; it answers HANDOVER_ACK. -/
  | handover (p : Bool) (f : TFrame) (region : Fin 4096) (term : Word) (ros : Nat)
  /-- HANDOVER_ACK (R229): A CONTROL HANDOVER_ACK confirms the new home and the old home forwards held writes. -/
  | handoverAck (p : Bool) (f : TFrame) (region : Fin 4096) (term : Word)
  /-- REGION_ATTR (R238): A CONTROL REGION_ATTR applies region record, extents, key or lock at its place in the order. -/
  | regionAttr (p : Bool) (f : TFrame) (region : Fin 4096) (ros : Nat) (ver : Word) (a : RegionAttr)
  /-- REGION_STATE (R225): A CONTROL REGION_STATE is compared with the local state to choose resync source and target. -/
  | regionState (p : Bool) (f : TFrame) (region : Fin 4096) (c : RegionCompare)
  /-- RESYNC_PLAN (R225): A CONTROL RESYNC_PLAN completes pairing and starts resyncs. -/
  | resyncPlan (p : Bool) (f : TFrame) (region : Fin 4096) (count : Nat) (peerMarks : List Nat)
  /-- RESYNC_DONE (R227): A CONTROL RESYNC_DONE clears the region's marks and the target opens it. -/
  | resyncDone (p : Bool) (f : TFrame) (region : Fin 4096)
  /-- REKEY (R209): A CONTROL REKEY installs a new key phase for a port and direction. -/
  | rekey (p : Bool) (f : TFrame) (port : Bool) (phase : Bool)
  /-- LEAVING (R231): A CONTROL LEAVING is recorded and parks the pair if this controller is also leaving. -/
  | leaving (p : Bool) (f : TFrame) (trigger : Fin 16)
  /-- ALLOCATE (R469): A CONTROL ALLOCATE asks side 0 to allocate ids and extents, or returns its outcome to side 1. -/
  | allocate (p : Bool) (f : TFrame) (m : AllocMsg)
  /-- TANDEM_FLIT_DISCARD (R203): A Tandem flit failing FEC or CRC, or with a SEQ gap, is discarded and a NAK sent. -/
  | tandemFlitDiscard (p : Bool) (flit : Option (BitVec 1984))
  /-- TANDEM_NAK_RECEIVED (R203): A Tandem NAK replays the port's flits; repeated replay leads to retrains. -/
  | tandemNakReceived (p : Bool) (seq : BitVec 12)
  /-- TANDEM_RETRAIN_DONE (R203): A Tandem port retrain ends; uncovered entries are resent or the port is DOWN. -/
  | tandemRetrainDone (p : Bool) (ok : Bool)
  /-- TANDEM_PORT_UP (R211): A Tandem port training starts pairing with the bound peer. -/
  | tandemPortUp (p : Bool)
  /-- TANDEM_HEARTBEAT_TIMER (R216): Every 10 us each up port sends a HEARTBEAT. -/
  | tandemHeartbeatTimer
  /-- TANDEM_SYNC_TIMER (R210): Every 1 ms each up port sends a SYNC. -/
  | tandemSyncTimer
  /-- TANDEM_REKEY_TIMER (R209): After 2^32 frames or 1 h a port and direction rekeys. -/
  | tandemRekeyTimer (p : Bool)
  /-- TANDEM_OLD_KEY_EXPIRY (R209): 1 ms after a KEY_PHASE change the receiver drops the old key. -/
  | tandemOldKeyExpiry (p : Bool)
  /-- LINK_LOSS_TIMEOUT (R216): No usable HEARTBEAT for 200 us declares the link lost, ends the session and fences twin-homed regions. -/
  | linkLossTimeout
  /-- FENCE_INTERVAL_EXPIRY (R218): 1 ms after declaration the home acts on each region's MIRROR_POLICY, running AVAILABLE regions solo. -/
  | fenceIntervalExpiry
  /-- STRICT_HOLD_EXPIRY (R218): After STRICT_HOLD_MS held STRICT writes are refused with not-here until SOLO. -/
  | strictHoldExpiry
  /-- PAIRING_RETRY_TIMER (R211): A refused pairing is retried every 10 s. -/
  | pairingRetryTimer
  /-- LEAVE_WAIT_EXPIRY (R231): No LEAVING within LEAVE_WAIT makes the controller run DETACH instead. -/
  | leaveWaitExpiry
  /-- PWR_FAIL_N (R186): PWR_FAIL_N low for 100 ns is drain trigger 1 with reaction OFF. -/
  | pwrFailN
  /-- VIN_SENSE (R186): VIN_SENSE below its falling threshold for 1 us is drain trigger 2 with reaction OFF. -/
  | vinSense
  /-- DRAIN_COMPLETE (R189): When drain programs end the descriptor commits, the event record is written, DRAIN_DONE rises and the reaction runs. -/
  | drainComplete
  /-- ORDERLY_FLUSH_COMPLETE (R188): After admission closes, writes are acknowledged and lines written back, the orderly drain starts. -/
  | orderlyFlushComplete
  /-- DRAIN_REPLAY (R198): At start-up a committed drain is replayed into Bench 0 and the journal applied. -/
  | drainReplay
  /-- PBF_HASH_KEY_WRITE (R174): A high-word write of PBF_HASH_KEY commits a new key if no line is dirty, otherwise is dropped with KEY_REFUSED. -/
  | pbfHashKeyWrite (req : Requester) (hi : Word)
  /-- CHECKPOINT_CHUNK_WRITE (R246): The checkpointer writes a chunk to both map copies and frees the oldest journal frame once both verify. -/
  | checkpointChunkWrite
  /-- PRIORITY_LOAD_DONE (R251): A priority chunk load completes and waiting lookups are served. -/
  | priorityLoadDone (c : Nat)
  /-- BACKGROUND_CHUNK_LOAD (R252): The background loader loads the next unloaded free-list or translation chunk. -/
  | backgroundChunkLoad
  /-- HINT_SCAN (R261): At most every second Yarrow recomputes sett ranks from live hints. -/
  | hintScan
  /-- POOL_PROMOTE (R257): Yarrow promotes a sett into a DRAM pool page, evicting a lower-ranked sett if needed. -/
  | poolPromote
  /-- POOL_DEMOTE (R259): Yarrow demotes a sett and frees its page once reads finding PROMOTED complete. -/
  | poolDemote (n : Nat)
  /-- WINDOW_IDLE_CLOSE (R263): A window idle for IDLE x 10 ms closes and releases its setts. -/
  | windowIdleClose (st : Stream) (object : Nat)
  /-- BENCH_VIEW_RAW_WRITE (R265): A 64 B write to the raw medium range gathers into a line buffer and programs the line when complete. -/
  | benchViewRawWrite (a : Nat) (d : Chunk)
  /-- RAW_DISCARD (R265): A gathered raw line incomplete 1 ms after its first chunk is discarded. -/
  | rawDiscard (a : Nat)
  /-- SRAM_SCRUB_VISIT (R43): The SRAM scrubber reads each on-die word once per PERIOD and rewrites correctable words. -/
  | sramScrubVisit (m : Fin 9) (err : Fin 3) (x : Nat) (both : Bool) (held : List DramArray) (last : Bool)
  /-- EVR_TOKEN_REFILL (R413): A code's bucket gains one token every 60 s / RATE. -/
  | evrTokenRefill (code : Fin 1024)
  /-- EVR_ARCHIVE_START (R414): 4,096 pending entries start the vault writer archiving entries into EVENTS pages. -/
  | evrArchiveStart
  /-- VAULT_PAGE_PROGRAM_DONE (R403): A vault page program ends and pages settle, advancing EVR_ARCHIVED. -/
  | vaultPageProgramDone (page : Nat) (ok : Bool)
  /-- VAULT_PAD_TIMEOUT (R403): A lower page without upper data for 10 s gets a pad page as partner. -/
  | vaultPadTimeout (kind : Fin 4)
  /-- CSR_WRITE (R30): A write to a register with no row of its own updates its writable fields, or raises a bus error or lock violation. With
  `read` the access is a read at the primary address or an alias. -/
  | csrWrite (req : Requester) (read : Option AccessKind) (off : Fin 4194304) (size : Nat) (full : Bool) (data : Dword)
  /-- ALIAS_WRITE (R21): A write through the SET, CLEAR or TOGGLE alias performs one atomic read-modify-write of the register. -/
  | aliasWrite (req : Requester) (kind : AccessKind) (off : Fin 4194304) (size : Nat) (full : Bool) (data : Word)
  /-- AON_POSTED_WRITE_APPLY (R31): The always-on domain applies a posted write within 3 SLOW_CLK cycles and clears WPEND after refresh. -/
  | aonPostedWriteApply
  /-- SCHED_SLOT_WRITE (R54): A write changing a slot's TIME, ACTION, ARG or PERIOD clears ARM unless it writes ARM as 1. -/
  | schedSlotWrite (k : Fin 256) (word : Fin 6) (kind : AccessKind) (data : Word)
  /-- PTP_SYNC (R47): A PTP Sync disciplines the servo and, once qualified, moves TLY_NOW or records a pending jump. -/
  | ptpSync (m : Fin 32) (offset : Int) (t : Dword)
  /-- PTP_ANNOUNCE_TIMEOUT (R46): Three missed Announce intervals lose PTP and fall to the next source or holdover. -/
  | ptpAnnounceTimeout (m : Fin 32)
  /-- PTP_DELAY_REQ_TIMER (R319): Every 2^-DREQ_RATE s a MAC sends a Delay_Req. -/
  | ptpDelayReqTimer (m : Fin 32)
  /-- PTP_DELAY_RESP (R319): A Delay_Resp completes a delay measurement for the servo. -/
  | ptpDelayResp (m : Fin 32) (delay : Nat)
  /-- PTP_ANNOUNCE (R319): An Announce updates master selection by dataset comparison. -/
  | ptpAnnounce (m : Fin 32) (rank : Nat)
  /-- TWIN_SYNC_TIMEOUT (R46): Three missed SYNC frames lose the twin as a time source. -/
  | twinSyncTimeout
  /-- SIGNED_TIME_EXPIRY (R46): A selected signed time older than 24 h is lost. -/
  | signedTimeExpiry
  /-- PPS_IN_EDGE (R45): A PPS_IN rising edge trims the crystal and after 64 good edges sets PPS_LOCK. -/
  | ppsInEdge (good : Bool)
  /-- PPS_LOSS (R46): A PPS edge missing its window clears PPS_LOCK. -/
  | ppsLoss
  /-- CATCHUP_END (R47): The source time catches up with TLY_NOW advancing at half rate and CATCHUP clears. -/
  | catchupEnd
  /-- EPOCH_BOUNDARY (R50): At each epoch boundary the floor and powered stamps are written and the wake deadline recomputed. -/
  | epochBoundary
  /-- BELOW_FLOOR_HOLDOFF_EXPIRY (R50): 60 s after a refusal the source may qualify again. -/
  | belowFloorHoldoffExpiry (x : Fin 3)
  /-- NO_SOURCE (R52): 10 s after acquisition starts with no source STARTED is set and sentinel ages with full sweeps apply. -/
  | noSource
  /-- WAKE_DEADLINE_REACHED (R62): TLY_NOW reaching the deadline in ACTIVE raises source 158 and Mingaso starts the affected group's pass. -/
  | wakeDeadlineReached
  /-- WAKE_HANDSHAKE_START (R64): In KEEP or DORMANT with the deadline reached and 60 s since entry, WAKE_REQ_N goes low. -/
  | wakeHandshakeStart
  /-- WAKE_GRANT (R64): WAKE_GRANT_N low for 16 samples during a request is accepted and an on request taken. -/
  | wakeGrant
  /-- WAKE_FORCE_AT_DEADLINE (R65): With FORCE_AT_DEADLINE set the on request is taken without grant once the deadline plus margin passes. -/
  | wakeForceAtDeadline
  /-- TEASEL_PASS (R162): A TEASEL_PASS slot fires and starts a pass, or a burst in KEEP, on each masked group. -/
  | teaselPass (k : Fin 256)
  /-- EYEBRIGHT_CAL (R110): An EYEBRIGHT_CAL slot fires and calibrates each masked group. -/
  | eyebrightCal (k : Fin 256)
  /-- NV_FLOOR_WRITE (R50): An NV_FLOOR_WRITE slot fires and writes the floor. -/
  | nvFloorWrite (k : Fin 256)
  /-- WAKE_REQ (R64): A WAKE_REQ slot fires and runs the wake handshake in KEEP or DORMANT. -/
  | wakeReq (k : Fin 256)
  /-- SLOT_KEEP_ENTER (R438): A KEEP_ENTER slot fires and requests entry to KEEP. -/
  | slotKeepEnter (k : Fin 256)
  /-- SLOT_KEEP_LEAVE (R438): A KEEP_LEAVE slot fires and requests leaving KEEP. -/
  | slotKeepLeave (k : Fin 256)
  /-- DRAM_SCRUB (R330): A DRAM_SCRUB slot fires a scrub burst, leaving self-refresh in KEEP. -/
  | dramScrub (k : Fin 256)
  /-- RAISE_EVENT (R412): A RAISE_EVENT slot fires, raises source 376 and offers one recorder entry with its code. -/
  | raiseEvent (k : Fin 256)
  /-- SENTINEL_REWRITE (R108): A SENTINEL_REWRITE slot fires and rewrites the due ladder rungs of each masked group. -/
  | sentinelRewrite (k : Fin 256)
  /-- VAON_POWER_UP (R427): VAON rising makes the always-on domain ready after 20 ms, restores slots and starts TLY_NOW at the floor. -/
  | vaonPowerUp
  /-- VAON_LOSS (R63): VAON removal stops the Tally, NV store and wake logic. -/
  | vaonLoss
  /-- INPUT_GOOD (R428): VIN_SENSE above threshold for VIN_QUAL_MS with PWR_FAIL_N high makes the input good. -/
  | inputGood
  /-- RAIL_QUALIFIED (R432): A rail's PG stays high for T_PGQ and it is qualified, starting its dependents. -/
  | railQualified (k : Fin 24)
  /-- RAIL_START (R432): A rail's DELAY after its dependencies elapses and its PSEQ_EN goes high. -/
  | railStart (k : Fin 24)
  /-- RAIL_RAMP_TIMEOUT (R432): A rail not qualified within RAMP fails with RAMP_FAIL. -/
  | railRampTimeout (k : Fin 24)
  /-- RAIL_PG_DROP (R432): A PG drop before qualification restarts T_PGQ and counts toward CHATTER. -/
  | railPgDrop (k : Fin 24)
  /-- SEQ_RETRY_BACKOFF_EXPIRY (R434): The retry backoff ends and the transition starts again. -/
  | seqRetryBackoffExpiry
  /-- RAIL_OFF (R433): A rail's PG falls or RAMP passes after EN fell, letting its dependencies go down after OFF_DWELL. -/
  | railOff (k : Fin 24)
  /-- OFF_DWELL_EXPIRY (R433): OFF_DWELL after the last dependent rail went off the next rail goes down. -/
  | offDwellExpiry (k : Fin 24)
  /-- RAIL_FAULT (R436): A qualified rail's PG low for 20 samples runs its reaction. -/
  | railFault (k : Fin 24)
  /-- RAIL_GLITCH (R436): A PG drop shorter than 20 samples is filtered and counted. -/
  | railGlitch (k : Fin 24)
  /-- RAIL_RETRY_WINDOW_EXPIRY (R437): 600 s without a fault returns a rail's retries used to 0. -/
  | railRetryWindowExpiry (k : Fin 24)
  /-- T_OFF_MIN_EXPIRY (R446): T_OFF_MIN after the last rail went off a waiting power-up starts. -/
  | tOffMinExpiry
  /-- PB_SHORT (R439): A PB_N press released between 50 ms and 4 s is an on or off request. -/
  | pbShort
  /-- PB_FORCED (R439): PB_N held for 8 s is drain trigger 3, a forced off. -/
  | pbForced
  /-- MR_N (R440): MR_N low for 10 us is trigger 4 with the domain OPEN, else a warm reset without drain or ignored. -/
  | mrN (low : Bool)
  /-- POWER_UP (R19): An on request brings the rails up from the committed table and starts the start-up chain of Table 1-6. -/
  | powerUp
  /-- IDLE_ENTRY (R442): IDLE_DELAY without host request or command enters IDLE, gating clocks and sleeping lanes. -/
  | idleEntry
  /-- IDLE_EXIT (R442): A host request, packet or slot firing returns the device to ACTIVE within 50 us. -/
  | idleExit
  /-- KEEP_ENTRY (R443): Entry to KEEP runs the leave exchange, orderly drain, rail-down, DRAM self-refresh and anchor rewrite. -/
  | keepEntry
  /-- KEEP_ENTRY_COMPLETE (R443): Medium rails down and deadline written, the control domain enters retention and PSTATE becomes KEEP. -/
  | keepEntryComplete
  /-- KEEP_LEAVE (R445): Leaving KEEP brings the domain out of retention, raises rails, retrains links and groups and reloads references. -/
  | keepLeave
  /-- KEEP_LEAVE_COMPLETE (R445): The reference reload ends, PSTATE becomes ACTIVE and the domain opens where R172 holds. -/
  | keepLeaveComplete
  /-- THROTTLE (R447): A junction reaching 100 C drops the core clock to 1.0 GHz. -/
  | throttle
  /-- THROTTLE_END (R447): All junctions below 97 C end throttling. -/
  | throttleEnd
  /-- TRIP (R447): A junction at 115 C takes drain trigger 6. -/
  | trip
  /-- TRIP_HOLD_EXPIRY (R447): 60 s after the last rail went off after a trip the deferred on request is taken. -/
  | tripHoldExpiry
  /-- PSQ_SEQ_COMMIT (R430): A COMMIT of the sequence table copies the shadow to the active table or refuses with ERR_CAUSE. -/
  | psqSeqCommit
  /-- PSQ_MGMAP_COMMIT (R431): A COMMIT of the rail group map copies it active or refuses with ERR_CAUSE. -/
  | psqMgmapCommit
  /-- WDG_KICK (R417): Writing 0x0000_4B1C to WDG_KICK restarts stage 1. -/
  | wdgKick (value : Word)
  /-- STAGE1 (R417): Stage 1 expiry raises source 416, sends an NMI and starts stage 2. -/
  | stage1
  /-- STAGE2 (R417): Stage 2 expiry takes drain trigger 8 and a warm reset. -/
  | stage2
  /-- WARM_RESET (R200): A warm reset discards Bench 0 and the main domain, keeping medium rails, then replays. -/
  | warmReset
  /-- FLASH_HOLD_OVERRUN (R418): A held operation not ended within its maximum time is cut by a flash die reset and the reset proceeds. -/
  | flashHoldOverrun
  /-- FLASH_OP_DONE (R398): A flash program or erase ends and the next queued operation starts. -/
  | flashOpDone (ok : Bool)
  /-- FLASH_SUSPEND (R398): A queued read after FLS_MIN_RUN suspends the running operation to serve reads. -/
  | flashSuspend
  /-- FLASH_SUSPEND_TIMEOUT (R398): A suspension ends after 100 us or with no read queued and the operation resumes. -/
  | flashSuspendTimeout
  /-- VDD_IO_BAND_CHANGE (R399): A VDD_IO band change sets the minimum wait states before the next read. -/
  | vddIoBandChange (low : Bool)
  /-- KEEPER_WORD_CHECK (R410): Keeper margin-reads an NV word and rewrites it if weak. -/
  | keeperWordCheck (word : Fin 1048576) (outcome : Fin 4) (holder : Option (Nat × Bool))
  /-- WSTAMP_HI_ADVANCE (R407): At VAON power-up or when the low 24 bits wrap the WSTAMP_HI ring advances. -/
  | wstampHiAdvance
  /-- CONTROL_CORE_RESTART (R422): An exception, memory UE, activation or Mingaso decision resets the control cores and reloads Mingaso. -/
  | controlCoreRestart (cause : Fin 4)
  /-- MINGASO_START (R19): Mingaso starts, resolves NV records, the floor and region states and starts acquisition and training. -/
  | mingasoStart (found : Option (BitVec 5)) (bad : List Nat) (otpOk : Bool)
  /-- TRIAL_CONFIRM (R425): 600 s of running with RESTARTS below 3 confirms a TRIAL image and advances anti-rollback. -/
  | trialConfirm (ok : Bool)
  /-- BOOTSTRAP_WRITE (R421): An I3C private write to the bootstrap loader places up to 256 B in control-core memory. -/
  | bootstrapWrite (offset : Word) (bytes : List Byte)
  /-- BOOTSTRAP_END (R421): An offset 0xFFFF_FFFF write ends the transfer and runs a valid recovery image. -/
  | bootstrapEnd (len : Word) (good : Bool)
  /-- DRAM_READ_CE (R326): A DRAM read with a correctable error returns corrected data and enters the CE cache. -/
  | dramReadCe (addr : Nat) (held : List DramArray)
  /-- CE_CACHE_REWRITE (R326): The scrubber rewrites a CE cache address with corrected data within 1 ms. -/
  | ceCacheRewrite (addr : Nat)
  /-- DRAM_UNCORRECTABLE_ERROR (R327): A DRAM UE returns no data, the owner acts per Table 13-3 and the rank is retired. -/
  | dramUncorrectableError (addr : Nat) (owner : DramArray) (held : List DramArray)
  /-- DRAM_SCRUB_PASS (R329): The background scrubber passes all valid pages every PASS_HOURS and captures SCRUB_DONE. -/
  | dramScrubPass
  /-- DRM_SREQ_GO (R330): A write of GO starts a requested scrub of the given range. -/
  | drmSreqGo
  /-- SREQ_DONE (R330): A requested scrub completes and sets its summary registers. -/
  | sreqDone (ce ue : Nat) (first : BitVec 64)
  /-- CE_WINDOW_EXPIRY (R333): The one-hour CE window of a rank ends and its window count restarts. -/
  | ceWindowExpiry (c : Fin 8) (k : Fin 4)
  /-- RANK_COPY_DONE (R333): A retirement copy completes and the spare takes the rank's place. -/
  | rankCopyDone (c : Fin 8) (lost held : List DramArray)
  /-- DDR_ALERT_N (R334): A CA parity error on ALERT_N retries the command once and retires the rank on a second failure. -/
  | ddrAlertN (c : Fin 8) (k : Fin 4) (second : Bool) (held : List DramArray)
  /-- DIMM_THERMAL_POLL (R322): Every 250 ms Mingaso polls each DIMM's thermal sensor and SPD hub. -/
  | dimmThermalPoll (d : Fin 16) (temp : Option Nat)
  /-- DRM_MAP_COMMIT (R324): A COMMIT copies the DRAM map shadow to the active copy or refuses with ERR_CAUSE. -/
  | drmMapCommit
  /-- DRM_FREQ_SWITCH (R335): A write of SWITCH runs the frequency switch of Table 13-4 or refuses it. -/
  | drmFreqSwitch
  /-- FREQ_SWITCH_DONE (R336): The switch's check read completes; traffic resumes or the bench falls back. -/
  | freqSwitchDone (ok : Bool)
  /-- DRAM_INJECT_WRITE (R331): With ARM set the next write of the target burst XORs the flip pattern into its symbols. -/
  | dramInjectWrite (addr : Nat)
  /-- MBX_IN (R345): A word written to MBX_IN is appended to the inbound queue, or overwrites and sets COLLIDE when full. -/
  | mbxIn (c : Fin 64) (w : Word)
  /-- MBX_DOORBELL (R345): A doorbell submits the inbound queue as one packet for Mingaso to take. -/
  | mbxDoorbell (c : Fin 64) (ok : Bool)
  /-- MBX_OUT_POP (R344): Writing k frees the k oldest outbound words and lets waiting packets enter. -/
  | mbxOutPop (c : Fin 64) (k : Nat)
  /-- MBX_IN_RESET (R344): A write of IN_RESET empties the inbound queue and clears COLLIDE. -/
  | mbxInReset (c : Fin 64)
  /-- L_GO (R347): Writing 1 to L_GO submits a legacy command from L_CMD and L_DATA. -/
  | lGo (c : Fin 64) (ok : Bool)
  /-- LEGACY_REGISTER_COLLIDE (R348): A legacy register write while L_GO is 1 overwrites it and sets COLLIDE. -/
  | legacyRegisterCollide (c : Fin 64) (off : Fin 4096) (w : Word)
  /-- MCTP_MESSAGE (R341): An MCTP vendor-defined message over I3C delivers one Azler packet. -/
  | mctpMessage (c : Fin 8) (ws : List Word) (ok : Bool)
  /-- I3C_PRIVATE_WRITE (R341): A legacy I3C private write sets an offset and writes words into channel 0's page. -/
  | i3cPrivateWrite (off : BitVec 16) (ws : List Word) (ok : Bool) (rd : Nat)
  /-- PENDING_COMMAND_COMPLETE (R355): Work of a PENDING command ends and its completion packet is sent unless QUIET. -/
  | pendingCommandComplete (c : Fin 64) (tag : BitVec 16) (ok : Bool)
  /-- IDENTIFY (R361): IDENTIFY returns UID, lot, firmware, compatibility, life-cycle state and channel rights. -/
  | identify (r : AzReq)
  /-- DEVICE_STATUS (R361): DEVICE_STATUS returns power state, PBF, TDM, spare and Tally status. -/
  | deviceStatus (r : AzReq)
  /-- CHANNEL_ASSIGN (R340): CHANNEL_ASSIGN assigns a non-secure channel to a principal, with a new session and object handling. -/
  | channelAssign (r : AzReq)
  /-- CHANNEL_MODE (R349): CHANNEL_MODE switches a channel between native and legacy mode. -/
  | channelMode (r : AzReq)
  /-- CMD_STATUS (R355): CMD_STATUS returns the state and final reply of the last command with a TAG. -/
  | cmdStatus (r : AzReq)
  /-- ROUTE_SET (R42): ROUTE_SET writes a source's route and the route table, within the principal's limits. -/
  | routeSet (r : AzReq)
  /-- ROUTE_GET (R361): ROUTE_GET returns a source's route value. -/
  | routeGet (r : AzReq)
  /-- STAGE_WRITE (R358): STAGE_WRITE writes words into the channel's staging window. -/
  | stageWrite (r : AzReq)
  /-- STAGE_READ (R358): STAGE_READ returns words from the channel's staging window. -/
  | stageRead (r : AzReq)
  /-- REGION_CREATE (R239): REGION_CREATE reserves capacity, allocates id, extents and permutation and draws a key. -/
  | regionCreate (r : AzReq)
  /-- REGION_DELETE (R239): REGION_DELETE releases a region's setts and extents and invalidates its windows. -/
  | regionDelete (r : AzReq)
  /-- REGION_RESIZE (R239): REGION_RESIZE grows or shrinks a region's extents. -/
  | regionResize (r : AzReq)
  /-- REGION_SET_MODE (R148): REGION_SET_MODE starts or replaces a conversion of a region to a target mode. -/
  | regionSetMode (r : AzReq)
  /-- REGION_SET_POLICY (R361): REGION_SET_POLICY sets a region's MIRROR_POLICY. -/
  | regionSetPolicy (r : AzReq)
  /-- REGION_INFO (R361): REGION_INFO returns a region's size, mode, policy, twin state and TERM. -/
  | regionInfo (r : AzReq)
  /-- REGION_GRANT (R339): REGION_GRANT grants or revokes read and write access to a channel. -/
  | regionGrant (r : AzReq)
  /-- REGION_BIND (R276): REGION_BIND ties an HDM decoder of an LD to a range of a region or the staging range. -/
  | regionBind (r : AzReq)
  /-- REGION_UNBIND (R276): REGION_UNBIND removes a binding whose decoder is not committed. -/
  | regionUnbind (r : AzReq)
  /-- REGION_ZERO (R155): REGION_ZERO advances GEN on each sett of a range so it reads zero. -/
  | regionZero (r : AzReq)
  /-- DC_MAP (R278): DC_MAP maps an LD's DC region onto a GW7144 region. -/
  | dcMap (r : AzReq)
  /-- OBJECT_CREATE (R254): OBJECT_CREATE creates an object with a hint and TTL. -/
  | objectCreate (r : AzReq)
  /-- OBJECT_DELETE (R254): OBJECT_DELETE deletes an object. -/
  | objectDelete (r : AzReq)
  /-- HINT_SET (R255): HINT_SET sets an object's hint and EXPIRY. -/
  | hintSet (r : AzReq)
  /-- HINT_EXTEND (R255): HINT_EXTEND adds seconds to an object's EXPIRY. -/
  | hintExtend (r : AzReq)
  /-- OBJECT_LIST (R361): OBJECT_LIST returns up to 15 objects of a region. -/
  | objectList (r : AzReq)
  /-- PAIR_BIND (R211): PAIR_BIND sets the pair binding while not PAIRED. -/
  | pairBind (r : AzReq)
  /-- PAIR_STATUS (R361): PAIR_STATUS returns TDM status, peer UID and round trip. -/
  | pairStatus (r : AzReq)
  /-- SOLO (R220): SOLO lets the home run a region solo with resync marking while not PAIRED. -/
  | solo (r : AzReq)
  /-- TAKEOVER (R221): TAKEOVER makes a non-home controller home with TERM + 1 and runs the region solo. -/
  | takeover (r : AzReq)
  /-- FENCE (R222): FENCE fences a region on this controller, giving up any home role. -/
  | fence (r : AzReq)
  /-- MOVE_HOME (R229): MOVE_HOME holds writes until mirrored and hands the home role to the twin. -/
  | moveHome (r : AzReq)
  /-- DETACH (R230): DETACH moves homes to the twin, fences every region and sets DETACHED. -/
  | detach (r : AzReq)
  /-- REJOIN (R230): REJOIN ends DETACHED so the controller may pair again. -/
  | rejoin (r : AzReq)
  /-- REGION_UNLOCK (R375): REGION_UNLOCK derives KWK from the staged share and unwraps or wraps the region key. -/
  | regionUnlock (r : AzReq)
  /-- REGION_LOCK (R377): REGION_LOCK closes a region at a ROS and removes its key after write-back. -/
  | regionLock (r : AzReq)
  /-- CRYPTO_ERASE (R380): CRYPTO_ERASE destroys a region's key, invalidates its lines and releases every sett. -/
  | cryptoErase (r : AzReq)
  /-- TIME_KEY_SET (R385): TIME_KEY_SET stores the time public key. -/
  | timeKeySet (r : AzReq)
  /-- MACSEC_CAK_SET (R385): MACSEC_CAK_SET stores a wrapped CKN and CAK for a port and secure channel. -/
  | macsecCakSet (r : AzReq)
  /-- CERT_GET (R361): CERT_GET writes a certificate slot to staging. -/
  | certGet (r : AzReq)
  /-- LC_STATUS (R386): LC_STATUS returns the life-cycle state and read-out protection level. -/
  | lcStatus (r : AzReq)
  /-- LC_ADVANCE (R390): LC_ADVANCE verifies an authorisation, blows OTP groups and runs the transition's actions. -/
  | lcAdvance (r : AzReq)
  /-- DEBUG_UNLOCK_CHALLENGE (R391): DEBUG_UNLOCK with P0 = 0 returns a 48 B challenge. -/
  | debugUnlockChallenge (r : AzReq)
  /-- DEBUG_UNLOCK_RESPONSE (R391): DEBUG_UNLOCK with P0 = 1 checks the staged signed response and opens the debug port. -/
  | debugUnlockResponse (r : AzReq)
  /-- DEBUG_CHALLENGE_EXPIRY (R391): A debug challenge expires after 60 s. -/
  | debugChallengeExpiry
  /-- ROP_RAISE (R392): Writing LCS_CTRL.ROP_RAISE raises read-out protection from 0 to 1. -/
  | ropRaise
  /-- DEBUG_CLOSE (R391): Writing LCS_CTRL.DEBUG_CLOSE closes an opened debug port. -/
  | debugClose
  /-- FW_CHUNK (R423): FW_CHUNK erases and programs staged bytes into the inactive slot. -/
  | fwChunk (r : AzReq)
  /-- FW_COMMIT (R423): FW_COMMIT verifies the image and makes the slot active in TRIAL or copies a recovery image. -/
  | fwCommit (r : AzReq)
  /-- FW_ACTIVATE (R424): FW_ACTIVATE restarts the control cores into the active slot. -/
  | fwActivate (r : AzReq)
  /-- FW_INFO (R361): FW_INFO returns slot versions, active slot, compatibility and anti-rollback. -/
  | fwInfo (r : AzReq)
  /-- VAULT_READ (R402): VAULT_READ writes plaintext vault data of a kind to staging. -/
  | vaultRead (r : AzReq) (lost : List Nat)
  /-- EVR_READ (R415): EVR_READ writes readable recorder entries to staging from an index. -/
  | evrRead (r : AzReq)
  /-- EVR_CLEAR (R416): EVR_CLEAR sets the clear index and writes LOG_CLEARED. -/
  | evrClear (r : AzReq)
  /-- EVR_RATE_SET (R413): EVR_RATE_SET writes a code's RATE and BURST in one step. -/
  | evrRateSet (r : AzReq)
  /-- EVR_STATUS (R361): EVR_STATUS returns oldest, newest and archived indices. -/
  | evrStatus (r : AzReq)
  /-- TALLY_STATUS (R62): TALLY_STATUS returns TLY_NOW, TLY_STATUS and the wake deadline, answered by the always-on domain in DORMANT. -/
  | tallyStatus (r : AzReq)
  /-- TIME_SIGNED (R48): TIME_SIGNED verifies a signed time packet and applies, overrides or confirms a jump. -/
  | timeSigned (r : AzReq)
  /-- SCHED_ADD (R53): SCHED_ADD allocates a schedule slot within the principal's limits. -/
  | schedAdd (r : AzReq)
  /-- SCHED_REMOVE (R53): SCHED_REMOVE frees an allocated slot of 64-255. -/
  | schedRemove (r : AzReq)
  /-- POWER_REQUEST_OFF (R438): POWER_REQUEST OFF takes trigger 10 and powers down to DORMANT. -/
  | powerRequestOff (r : AzReq)
  /-- POWER_REQUEST_ON (R438): POWER_REQUEST ON powers up from DORMANT or leaves KEEP. -/
  | powerRequestOn (r : AzReq)
  /-- POWER_REQUEST_KEEP_ENTER (R438): POWER_REQUEST KEEP_ENTER requests entry to KEEP or is held. -/
  | powerRequestKeepEnter (r : AzReq)
  /-- POWER_REQUEST_KEEP_LEAVE (R438): POWER_REQUEST KEEP_LEAVE leaves KEEP, or powers up from DORMANT. -/
  | powerRequestKeepLeave (r : AzReq)
  /-- DRAIN_AND_HALT (R186): DRAIN_AND_HALT takes drain trigger 7 after its reply. -/
  | drainAndHalt (r : AzReq)
  /-- RESET (R200): RESET performs a warm reset after its reply. -/
  | resetCmd (r : AzReq)
  /-- WAKE_MARGIN_SET (R61): WAKE_MARGIN_SET sets MARGIN_DAYS. -/
  | wakeMarginSet (r : AzReq)
  /-- LOCKOUT_CLEAR (R434): LOCKOUT_CLEAR leaves LOCKOUT for DORMANT. -/
  | lockoutClear (r : AzReq)
  /-- POWER_STATUS (R441): POWER_STATUS returns power state, PG levels and FAULT_N. -/
  | powerStatus (r : AzReq)
  /-- BENCH_VIEW_OPEN (R264): BENCH_VIEW_OPEN presents the bench view range with a REFSET for raw reads. -/
  | benchViewOpen (r : AzReq)
  /-- BENCH_VIEW_CLOSE (R264): BENCH_VIEW_CLOSE removes the bench view and discards incomplete raw lines. -/
  | benchViewClose (r : AzReq)
  /-- DRAM_SCRUB_RANGE (R330): DRAM_SCRUB_RANGE runs a requested scrub and returns its summary. -/
  | dramScrubRange (r : AzReq)
  /-- REG_READ (R361): REG_READ reads a CSR for a secure principal. -/
  | regRead (r : AzReq)
  /-- REG_WRITE (R361): REG_WRITE writes a CSR by primary or alias access. -/
  | regWrite (r : AzReq)
  /-- GID_SET (R295): GID_SET sets a MAC's GID and VLAN. -/
  | gidSet (r : AzReq)
  /-- PD_CREATE (R304): PD_CREATE creates a protection domain and issues its TOKEN. -/
  | pdCreate (r : AzReq)
  /-- PD_DESTROY (R304): PD_DESTROY destroys a protection domain. -/
  | pdDestroy (r : AzReq)
  /-- PD_TOKEN (R304): PD_TOKEN issues a new TOKEN for a PD. -/
  | pdToken (r : AzReq)
  /-- WINDOW_CREATE (R305): WINDOW_CREATE creates a memory window and returns its R_Key. -/
  | windowCreate (r : AzReq)
  /-- WINDOW_DESTROY (R306): WINDOW_DESTROY destroys a window at a place in the request stream. -/
  | windowDestroy (r : AzReq)
  /-- CQ_CREATE (R308): CQ_CREATE creates a completion queue ring in region memory. -/
  | cqCreate (r : AzReq)
  /-- CQ_DESTROY (R308): CQ_DESTROY destroys a completion queue. -/
  | cqDestroy (r : AzReq)
  /-- SQ_ATTACH (R309): SQ_ATTACH attaches a send queue ring to a requester QP. -/
  | sqAttach (r : AzReq)
  /-- SQ_DOORBELL (R309): SQ_DOORBELL makes the requester process posted WQEs. -/
  | sqDoorbell (r : AzReq)
  /-- QP_INFO (R361): QP_INFO returns a QP's state and PSNs. -/
  | qpInfo (r : AzReq)
  /-- DIE_MARK_FAILED (R166): DIE_MARK_FAILED marks a die failed. -/
  | dieMarkFailed (r : AzReq)
  /-- ORPHAN_SWEEP (R249): ORPHAN_SWEEP returns slots of lost chunks to the free lists. -/
  | orphanSweep (r : AzReq)
  /-- TEASEL_PASS_NOW (R162): TEASEL_PASS_NOW starts passes on the masked groups. -/
  | teaselPassNow (r : AzReq)
  /-- TSL_PASS_NOW (R170): Writing TSL_CTRL.PASS_NOW starts a pass on every in-service group not running one. -/
  | tslPassNow
  /-- EYEBRIGHT_SWEEP (R111): EYEBRIGHT_SWEEP runs a full sweep of a die. -/
  | eyebrightSweep (r : AzReq)
  /-- MEDIUM_STATUS (R361): MEDIUM_STATUS returns spare, failed dies, inactive channels and Spoil count. -/
  | mediumStatus (r : AzReq)
  /-- CHANNEL_OFFLINE (R88): CHANNEL_OFFLINE with P1 bit 0 set takes a channel offline. -/
  | channelOffline (r : AzReq)
  /-- CHANNEL_RETURN (R88): CHANNEL_OFFLINE with P1 bit 0 clear sequences the group's rail and brings the group up. -/
  | channelReturn (r : AzReq)
  /-- TRNG_FAIL (R394): A TRNG health test failing makes secret draws wait. -/
  | trngFail
  /-- DRBG_RESEED (R394): After 2^20 requests the CTR_DRBG is reseeded. -/
  | drbgReseed
  /-- HDM_DECODER_COMMIT (R276): A decoder commit succeeds only with a binding of matching size. -/
  | hdmDecoderCommit (p : Fin 4) (l : Fin 16) (b : Fin 4) (d : Decoder)
  /-- DC_ADD (R278): A DC extent add through the FM API adds a range to a region, refused in AMBER and RED when it grows it. -/
  | dcAdd (p : Fin 4) (l : Fin 16) (e : DcExtent)
  /-- DC_RELEASE (R279): A DC extent release advances GEN on uncovered setts. -/
  | dcRelease (p : Fin 4) (l : Fin 16) (e : DcExtent)
  /-- GET_EVENT_RECORDS (R286): Get Event Records returns an LD's log records. -/
  | getEventRecords (p : Fin 4) (l : Fin 16) (k : LogKind)
  /-- CLEAR_EVENT_RECORDS (R286): Clear Event Records clears records of an LD's logs. -/
  | clearEventRecords (p : Fin 4) (l : Fin 16) (k : LogKind) (n : Option Nat)
  /-- GET_EVENT_INTERRUPT_POLICY (R286): Get Event Interrupt Policy returns the vector per log. -/
  | getEventInterruptPolicy (p : Fin 4) (l : Fin 16)
  /-- SET_EVENT_INTERRUPT_POLICY (R286): Set Event Interrupt Policy sets the vector per log. -/
  | setEventInterruptPolicy (p : Fin 4) (l : Fin 16) (k : LogKind) (vector : Fin 64)
  /-- GET_FW_INFO (R286): Get FW Info returns slot information. -/
  | getFwInfo (p : Fin 4) (l : Fin 16)
  /-- TRANSFER_FW (R423): Transfer FW on the FM-owned LD writes image parts to the inactive slot. -/
  | transferFw (p : Fin 4) (l : Fin 16) (action : Fin 5) (off : Nat) (data : List Word) (ok : Bool)
  /-- ACTIVATE_FW (R423): Activate FW on the FM-owned LD activates online or offline. -/
  | activateFw (p : Fin 4) (l : Fin 16) (online : Bool) (slot : Fin 4)
  /-- GET_TIMESTAMP (R286): Get Timestamp returns TLY_NOW in ns. -/
  | getTimestamp (p : Fin 4) (l : Fin 16)
  /-- SET_TIMESTAMP (R286): Set Timestamp answers Success and leaves the Tally unchanged. -/
  | setTimestamp (p : Fin 4) (l : Fin 16) (ns : Nat)
  /-- GET_SUPPORTED_LOGS (R286): Get Supported Logs lists the Command Effects Log. -/
  | getSupportedLogs (p : Fin 4) (l : Fin 16)
  /-- GET_LOG (R286): Get Log returns the Command Effects Log. -/
  | getLog (p : Fin 4) (l : Fin 16)
  /-- IDENTIFY_MEMORY_DEVICE (R286): Identify Memory Device returns capacities from the LD's bindings. -/
  | identifyMemoryDevice (p : Fin 4) (l : Fin 16)
  /-- GET_HEALTH_INFO (R286): Get Health Info returns health, media status, life used and counts. -/
  | getHealthInfo (p : Fin 4) (l : Fin 16)
  /-- SANITIZE (R288): Sanitize crypto-erases regions reachable only through the LD's bindings. -/
  | sanitize (p : Fin 4) (l : Fin 16)
  /-- GET_DC_CONFIGURATION (R286): Get DC Configuration returns the LD's DC regions. -/
  | getDcConfiguration (p : Fin 4) (l : Fin 16)
  /-- GET_DC_EXTENT_LIST (R286): Get DC Extent List returns DC extents. -/
  | getDcExtentList (p : Fin 4) (l : Fin 16)
  /-- ADD_DC_RESPONSE (R278): Add DC Response accepts offered extents. -/
  | addDcResponse (p : Fin 4) (l : Fin 16) (es : List DcExtent)
  /-- RELEASE_DC (R279): Release DC releases extents of the LD. -/
  | releaseDc (p : Fin 4) (l : Fin 16) (es : List DcExtent)
  /-- AZLER_PACKET (R287): Mailbox opcode 0xC0A0 hands one Azler packet to the LD's command channel. -/
  | azlerPacket (p : Fin 4) (l : Fin 16) (ws : List Word) (ok : Bool)
  /-- DOE_DISCOVERY (R285): A DOE discovery request lists the object types. -/
  | doeDiscovery (p : Fin 4) (l : Fin 16)
  /-- SPDM_MESSAGE (R383): An SPDM request is answered and a session with an operator credential gets a secure channel. -/
  | spdmMessage (d : Option (Fin 4 × Fin 16)) (a : SpdmAsk)
  /-- IDE_KM (R283): IDE_KM over secured SPDM programs, refreshes or stops IDE keys. -/
  | ideKm (p : Fin 4) (l : Fin 16) (session : Word) (stream : Fin 6) (go : Bool)
  /-- CDAT_READ (R285): A CDAT table access returns the LD's CDAT. -/
  | cdatRead (p : Fin 4) (l : Fin 16)
  /-- IDE_FAIL (R284): An IDE integrity failure makes the stream insecure and discards CXL.mem flits until rekey. -/
  | ideFail (p : Fin 4) (stream : Fin 6)
  /-- GPF_PHASE2 (R290): GPF Phase 2 completes every earlier write on each port and answers. -/
  | gpfPhase2 (p : Fin 4) (us : BitVec 16)
  /-- CXL_PORT_RESET (R291): A conventional or hot reset resets every LD of the port without draining. -/
  | cxlPortReset (p : Fin 4)
  /-- LD_RESET (R291): An LD or function-level reset resets one LD. -/
  | ldReset (p : Fin 4) (l : Fin 16)
  /-- SURPRISE_REMOVAL (R291): Surprise removal acts as a conventional reset and returns the port to DETECT. -/
  | surpriseRemoval (p : Fin 4)
  /-- CXL_PORT_TRAIN (R270): A CXL port trains at its width and speed, falling to x8 or HELD_NARROW. -/
  | cxlPortTrain (p : Fin 4) (width : Fin 17) (speed : Fin 3) (flit256 : Bool) (flitLo : Bool) (mld : Bool) (lds : Fin 16)
  /-- RDMA_WRITE (R298): An RDMA WRITE is placed and acknowledged once durable on both controllers. -/
  | rdmaWrite (n : Fin 65536) (k : WritePkt)
  /-- RDMA_WRITE_IMM (R308): A WRITE with immediate is placed and its completion written once durable. -/
  | rdmaWriteImm (n : Fin 65536) (k : WritePkt) (imm : Word)
  /-- RDMA_READ (R299): An RDMA READ executes once earlier writes are durable and returns chunks. -/
  | rdmaRead (n : Fin 65536) (psn : BitVec 24) (key : Word) (va : Nat) (len : Nat) (ce : Bool) (icrc : Bool)
  /-- RDMA_CMPSWAP (R300): A CmpSwap executes at the home at one ROS and responds once mirrored. -/
  | rdmaCmpswap (n : Fin 65536) (psn : BitVec 24) (key : Word) (va : Nat) (compare : BitVec 64) (swap : BitVec 64) (ce : Bool) (icrc : Bool)
  /-- RDMA_FETCHADD (R300): A FetchAdd executes at the home at one ROS and responds once mirrored. -/
  | rdmaFetchadd (n : Fin 65536) (psn : BitVec 24) (key : Word) (va : Nat) (add : BitVec 64) (ce : Bool) (icrc : Bool)
  /-- RDMA_ATOMIC_WRITE (R300): An ATOMIC WRITE places 8 B as one chunk write. -/
  | rdmaAtomicWrite (n : Fin 65536) (psn : BitVec 24) (key : Word) (va : Nat) (d : BitVec 64) (ce : Bool) (icrc : Bool)
  /-- RDMA_FLUSH (R298): A FLUSH is answered once every earlier request of the QP is durable. -/
  | rdmaFlush (n : Fin 65536) (psn : BitVec 24) (key : Word) (va : Nat) (len : Nat) (ce : Bool) (icrc : Bool)
  /-- RDMA_SEND (R303): A SEND on a management QP carries one Azler packet. -/
  | rdmaSend (n : Fin 65536) (psn : BitVec 24) (ws : List Word) (ce icrc ok : Bool)
  /-- RDMA_UNSUPPORTED_PACKET (R297): A non-RC or unlisted opcode is NAKed Invalid Request or dropped. -/
  | rdmaUnsupportedPacket (m : Fin 32) (n : Option (Fin 65536)) (psn : BitVec 24)
  /-- RDMA_PEER_ACK (R309): An ACK to a requester QP completes WRITE or FLUSH WQEs. -/
  | rdmaPeerAck (n : Fin 65536) (psn : BitVec 24)
  /-- RDMA_PEER_NAK (R310): A NAK or RNR NAK to a requester QP is retried or completes WQEs with error. -/
  | rdmaPeerNak (n : Fin 65536) (psn : BitVec 24) (code : Fin 5)
  /-- RDMA_READ_RESPONSE (R309): READ response data is written into the local region and completes the WQE once durable. -/
  | rdmaReadResponse (n : Fin 65536) (psn : BitVec 24) (off : Nat) (data : List Byte) (last : Bool)
  /-- REQUESTER_ACK_TIMEOUT (R310): A lost request is retried up to 7 times, then WQEs complete with RETRY_EXCEEDED. -/
  | requesterAckTimeout (n : Fin 65536)
  /-- MGMT_RNR_RETRY (R303): A management SEND that met RNR NAK is retried every 10 ms. -/
  | mgmtRnrRetry (n : Fin 65536)
  /-- SPRAY_HOLE_TIMEOUT (R314): The 100 us hole timer expires and a selective NAK lists missing PSNs. -/
  | sprayHoleTimeout (n : Fin 65536)
  /-- CNP_RECEIVED (R316): A CNP reduces the QP's transmit rate. -/
  | cnpReceived (n : Fin 65536)
  /-- CC_RATE_INCREASE_TIMER (R316): Each INC_PERIOD_US without CNP raises a QP's rate. -/
  | ccRateIncreaseTimer (n : Fin 65536)
  /-- CM_REQ (R302): A CM REQ is accepted with REP or refused with REJ. -/
  | cmReq (r : CmReq)
  /-- PFC_FRAME (R317): A PFC frame from the link partner pauses or resumes the priority. -/
  | pfcFrame (p : Fin 8) (prio : Fin 8) (pause : Bool)
  /-- PFC_BUFFER_LEVEL (R317): The receive buffer crossing HEADROOM sends or ends PFC. -/
  | pfcBufferLevel (p : Fin 8) (free : Fin 4097)
  /-- PFC_STORM (R317): A pause held over 100 ms captures PFC_STORM. -/
  | pfcStorm (m : Fin 32)
  /-- MKA_FRAME (R318): An MKA frame is handled by Mingaso under IEEE 802.1X. -/
  | mkaFrame (m : Fin 32) (sc : Fin 64) (an : Fin 2) (sa : Bool)
  /-- ICV_FAIL (R318): A MACsec ICV failure drops the frame. -/
  | icvFail (m : Fin 32)
  /-- ARP_REQUEST (R295): Mingaso answers ARP for its GIDs. -/
  | arpRequest (m : Fin 32) (g : Fin 16)
  /-- NEIGHBOR_DISCOVERY (R295): Mingaso answers IPv6 neighbour discovery. -/
  | neighborDiscovery (m : Fin 32) (g : Fin 16)
  /-- ICMP_ECHO (R295): Mingaso answers ICMP echo. -/
  | icmpEcho (m : Fin 32) (g : Fin 16)
  /-- MAC_LINK_CHANGE (R320): A MAC link going down or up; bound QPs keep state. -/
  | macLinkChange (m : Fin 32) (up : Bool)
  /-- DRAM_SCRUB_BURST_END (R330): After ARG seconds a KEEP DRAM scrub burst ends and the bench returns to self-refresh. -/
  | dramScrubBurstEnd
  /-- TDM_LANEMAP_COMMIT (R202): A write of 1 to TDM_LANEMAP_COMMIT.COMMIT copies both Tandem lane maps to the active copy, or refuses with ERR when a map is not a permutation. -/
  | tdmLanemapCommit
  /-- TANDEM_ACK_TIMER (R203): The 100 ns Tandem acknowledgement interval expires and the receiver acknowledges received flits. -/
  | tandemAckTimer (p : Bool)
  /-- TANDEM_FLIT_ACK (R203): A Tandem flit header ACK that advances frees acknowledged flits from the port's 256-flit replay buffer. -/
  | tandemFlitAck (p : Bool) (seq : BitVec 12)
  /-- TRNG_OK (R394): The TRNG health tests pass again, TRNG_FAIL clears and waiting secret draws and pairing proceed. -/
  | trngOk
  /-- BACKGROUND_OPERATION_COMPLETE (R286): A background mailbox command such as Sanitize ends, and the LD's background operation status and vector 0 report the end. -/
  | backgroundOperationComplete (p : Fin 4) (l : Fin 16)
  deriving DecidableEq, Repr

end Sys2Proof
end

