-- ==== Sys2Proof/Machine/Codes.lean ====
section
/-! DEFINITION. The check codes the spec defines bit by bit: CRC-16 of R69, CRC-12 and the BCH parity of R153, and CRC-32 of the
recorder (R402, R411). -/

namespace Sys2Proof.Machine

/-- One byte through the CRC-16 of R69, most significant bit first. -/
def crc16Byte (c : BitVec 16) (b : Byte) : BitVec 16 :=
  (List.range 8).foldl (fun (c : BitVec 16) i =>
    let top := c.getLsbD 15 != b.getLsbD (7 - i)
    if top then (c <<< 1) ^^^ 0x1021#16 else c <<< 1) c

/-- The CRC-16 of R69: polynomial 0x1021, initial value 0xFFFF, no reflection and no final XOR. -/
def crc16 (bs : List Byte) : BitVec 16 := bs.foldl crc16Byte 0xFFFF#16

/-- The bytes of a word, little-endian. -/
def wordBytes (w : Word) : List Byte := (List.range 4).map fun i => (w >>> (8 * i)).setWidth 8

/-- The CRC of a packet (R351): words 0, 1, 2 and the parameters, each little-endian; word 3 is excluded. -/
def packetCrc (w0 w1 w2 : Word) (params : List Word) : BitVec 16 := crc16 ((w0 :: w1 :: w2 :: params).flatMap wordBytes)

/-- One byte through the CRC-32 of IEEE 802.3, least significant bit first. -/
def crc32Byte (c : Word) (b : Byte) : Word :=
  (List.range 8).foldl (fun (c : Word) i =>
    let low := c.getLsbD 0 != b.getLsbD i
    if low then (c >>> 1) ^^^ 0xEDB88320#32 else c >>> 1) c

/-- CRC-32 of IEEE 802.3. -/
def crc32 (bs : List Byte) : Word := ~~~(bs.foldl crc32Byte 0xFFFFFFFF#32)

/-- The CRC-12 of R153 over a list of bits in ascending position order: x¹² + x¹¹ + x³ + x² + x + 1, initial value 0. -/
def crc12 (bits : List Bool) : BitVec 12 :=
  bits.foldl (fun (c : BitVec 12) b => if c.getLsbD 11 != b then (c <<< 1) ^^^ 0x80F#12 else c <<< 1) 0

/-- The generator of the BCH code of R153 without its leading x²⁸⁸: the product of the 24 minimal polynomials of α, α³, …, α⁴⁷ over
GF(2¹²) with the primitive polynomial x¹² + x⁶ + x⁴ + x + 1. -/
def bchGenerator : BitVec 288 := 0x11D04FE4EF9881AC7D68CA84C35D5CC60A9822DA3A2F7349F18B815D2EF33AB074D08E9D#288

/-- The 288 check bits of R153 for the bits of positions 0 to 2,111 in ascending order: the remainder of m(x)·x²⁸⁸ by the
generator; bit 287 of the result is position 2,112. -/
def bchParity (bits : List Bool) : BitVec 288 :=
  bits.foldl (fun (r : BitVec 288) b => if r.getLsbD 287 != b then (r <<< 1) ^^^ bchGenerator else r <<< 1) 0

end Sys2Proof.Machine
end

