-- ==== Sys2Proof/Config.lean ====
section
/-! DEFINITION. What an implementation fixes and the spec leaves open, and the numbering the model uses for NV records and
recorder codes. A free value is an opaque constant with no body: nothing proved rests on what it is. -/

namespace Sys2Proof.Config

/-! ### Free values -/

/-- The n-th word drawn from the TRNG (R340, R394): a free value. -/
opaque trng : Nat → BitVec 32

/-- The n-th value the spec leaves undefined after an operation that goes on (R366): a free value. -/
opaque undefinedWord : Nat → BitVec 32

/-- The n-th undefined chunk of data (R366): a free value. -/
opaque undefinedChunk : Nat → BitVec 512

/-- The rank of a sett under overlapping objects whose EXPIRY lies more than 2⁴⁰ s ahead (R366), by sett and Tally second. -/
opaque undefinedRank : Nat → Nat → BitVec 2

/-- The words of OTP that wafer test and the maker write (Table 15-10), by word: they differ from part to part (R393). -/
opaque otpWord : Nat → BitVec 32

/-- The length of the certificate chain of slot 0, and its bytes (R383): the spec does not give them. -/
opaque certLen : Nat
opaque certByte : Nat → BitVec 8

/-- SHA-384 of a list of words (R383): the spec gives the standard, the model no value. -/
opaque digest : List Nat → Nat

/-- The digest of the boot ROM (Table 15-6). -/
opaque bootRomDigest : Nat

/-- The keyed hash that maps a line to a Bench 0 set (R174): the spec gives no function. -/
opaque lineHash : BitVec 64 → Nat → Nat

/-- Where in a die's metadata zones the n-th M2 or M4 sentinel sett lies (R108): zone and slot; the spec gives no layout. -/
opaque sentinelAt : Nat → Nat × Nat

/-- The first slot of the map area in zones 62 and 63 (R247), after the drain area, the sentinels and the anchors: the spec gives no layout. -/
opaque mapSlot : Nat

/-- The hash that maps a logical sett to a young-map bucket (R104): the spec gives no function. -/
opaque youngHash : Nat → Nat

/-- AES-256-XTS of a line under the key named and a tweak (R10, R370), and its inverse (R154 step 5): the spec gives the standard, the model no
value. -/
opaque encrypt : Nat → BitVec 128 → BitVec 2048 → BitVec 2048
opaque decrypt : Nat → BitVec 128 → BitVec 2048 → BitVec 2048

/-- The bytes of the body of a SYNC, CONTROL or PAIR frame, by its kind (R205): the spec gives no layout. -/
opaque bodyBytes : Nat → Nat

/-- The effects of a mailbox opcode in the Command Effects Log (R286): the spec gives the log, not its values. -/
opaque commandEffect : Nat → BitVec 16

/-- AES-256-XTS of a QP's result cache, a data unit of 512 B, under the key named and a tweak (R311, Table 15-3), and its inverse. -/
opaque encryptUnit : Nat → BitVec 128 → BitVec 4096 → BitVec 4096
opaque decryptUnit : Nat → BitVec 128 → BitVec 4096 → BitVec 4096

/-- The hash of a stream key that a MIRROR entry carries (Table 9-3): the spec gives no function. -/
opaque streamHash : Nat → BitVec 16

/-! ### NV record numbers (R404 names the records, not their numbers): the model's own numbering. -/

/-- The floor record (R50). -/
def nvFloor : Nat := 0
/-- The stamps of group `g` (R58). -/
def nvStamp (g : Nat) : Nat := 1 + g
/-- The wake deadline record (Table 3-2). -/
def nvDeadline : Nat := 10
/-- The slot record of the firmware slots (R419). -/
def nvSlotRecord : Nat := 11
/-- The recorder's clear index (R416). -/
def nvClear : Nat := 12
/-- The route table (R41). -/
def nvRoutes : Nat := 13
/-- The active sequence table (R429). -/
def nvSeqAct : Nat := 14
/-- The shadow sequence table (R429). -/
def nvSeqSh : Nat := 15
/-- The rail group map (R431). -/
def nvMgMap : Nat := 16
/-- The pair binding (R211). -/
def nvPair : Nat := 17
/-- The pair state (R230). -/
def nvPairState : Nat := 18
/-- The time key (R385). -/
def nvTimeKey : Nat := 19
/-- The life-cycle and read-out protection record (R392). -/
def nvLife : Nat := 20
/-- The hash key of Bench 0 (R174). -/
def nvHashKey : Nat := 21
/-- PSQ_CTRL's record (Table 17-10). -/
def nvPsqCtrl : Nat := 22
/-- The drain descriptor of a half (R190). -/
def nvDrain (half : Nat) : Nat := 30 + half
/-- The CKN and CAK of a port and secure channel (R385). -/
def nvCak (n : Nat) : Nat := 0x100 + n
/-- The substitution record of the map copies (R247). -/
def nvSubst : Nat := 23
/-- Page `p` of 64 KiB of bench address space holds an array of Table 10-8. DESIGN CHOICE (log 140): Mingaso places the arrays (R266), and
the spec does not say where. -/
opaque benchPlaced : Nat → Bool

/-- The map band record of die `d` (R248). -/
def nvMapBand (d : Nat) : Nat := 0x4000 + d
/-- The assignment of channel `c` (R338). -/
def nvChan (c : Nat) : Nat := 0x200 + c
/-- Schedule slot `k` (R57). -/
def nvSlot (k : Nat) : Nat := 0x300 + k
/-- The bucket settings of code `c` (R413). -/
def nvBucket (c : Nat) : Nat := 0x400 + c
/-- The decoder bindings of LD `l` of port `p` (R276). -/
def nvBinding (n : Nat) : Nat := 0x800 + n
/-- The region record of region `r` (R237). -/
def nvRegion (r : Nat) : Nat := 0x1000 + r
/-- The key slot of region `r` (R372). -/
def nvKeySlot (r : Nat) : Nat := 0x2000 + r

/-- The ring of WSTAMP_HI (R407). -/
def ringWstamp : Nat := 0

/-! ### Device codes of the recorder, Table 16-9 -/

/-- LOG_CLEARED. -/
def codeLogCleared : Nat := 0x200
/-- DRAIN. -/
def codeDrain : Nat := 0x201
/-- BOOT. -/
def codeBoot : Nat := 0x202
/-- FW_COMMITTED. -/
def codeFwCommitted : Nat := 0x203
/-- FW_ACTIVATED. -/
def codeFwActivated : Nat := 0x204
/-- FW_CONFIRMED. -/
def codeFwConfirmed : Nat := 0x205
/-- FW_REVERTED. -/
def codeFwReverted : Nat := 0x206
/-- CORE_RESTART. -/
def codeCoreRestart : Nat := 0x207
/-- DEVICE_RECORD. -/
def codeDeviceRecord : Nat := 0x210

end Sys2Proof.Config
end

