-- ==== Sys2Proof/Machine/Regs.lean ====
section
/-! DEFINITION. The control and status registers of the CSR window, transcribed from the register tables of spec/
(R21 to R34 and the register rule of each chapter): where each register lies, its fields, their types (Table 2-4a),
reset values, and what a write outside a field's range is taken as. Registers whose content is a part of the structured
state (a status view) stand here too: this table says what an access to them is, `Machine/Views.lean` what it reads. -/

namespace Sys2Proof.Machine

/-- The type of a register field, Table 2-4a; `lock` is a lock bit of R32. A field of the always-on domain has the same
kind as its main-domain sibling: that it is posted and read through the slow copy is a matter of its block (R31). -/
inductive FieldKind where
  | ro | rw | rwl | wo | lock
  deriving DecidableEq, Repr

/-- What a write outside a field's range is taken as: `min1` takes 0 as 1, `clamp` takes the nearest limit, `mask` keeps
the bits the register implements. -/
inductive Fix where
  | none | min1 | clamp (lo hi : Nat) | mask (m : Nat)
  deriving DecidableEq, Repr

/-- One field [hi:lo] of a register: its type, its reset value and how an out-of-range write is taken. -/
structure Field where
  hi : Nat
  lo : Nat
  kind : FieldKind
  reset : Nat := 0
  fix : Fix := .none
  deriving DecidableEq, Repr

/-- Which word of a 64-bit register a row is (R26). -/
inductive Half where
  | single | low | high
  deriving DecidableEq, Repr

/-- A register, or an array of `count` of them `stride` bytes apart: its offset in the primary window, whether it lies in
the always-on domain, the offset and bit of the lock that makes its RWL fields read-only, and its fields. -/
structure Reg where
  base : Nat
  count : Nat := 1
  stride : Nat := 4
  aon : Bool := false
  lock : Option (Nat × Nat) := none
  half : Half := .single
  fields : List Field
  deriving DecidableEq, Repr

/-- The offset of element `k` of a register array. -/
def Reg.at (r : Reg) (k : Nat) : Nat := r.base + r.stride * k

/-- The word a register holds after the reset of its domain: its fields' reset values, reserved bits 0 (R27). -/
def Reg.resetWord (r : Reg) : Word :=
  BitVec.ofNat 32 (r.fields.foldl (fun a f => a + f.reset * 2 ^ f.lo) 0)

namespace Reg

/-! Block TOP, 02_register_space. -/

/-- TOP_BUSERR_ADDR, R28: [23:2] ADDR. -/
def TOP_BUSERR_ADDR : Reg := { base := 0x000100, fields := [⟨23, 2, .ro, 0, .none⟩] }

/-- TOP_BUSERR_INFO, R28: [31:31] VALID; [30:30] OVERFLOW; [29:27] CAUSE; [17:16] REQ_KIND; [15:8] REQ_ID; [0:0] WRITE. -/
def TOP_BUSERR_INFO : Reg :=
  { base := 0x000104,
    fields := [⟨31, 31, .rw, 0, .none⟩, ⟨30, 30, .rw, 0, .none⟩, ⟨29, 27, .ro, 0, .none⟩, ⟨17, 16, .ro, 0, .none⟩,
      ⟨15, 8, .ro, 0, .none⟩, ⟨0, 0, .ro, 0, .none⟩] }

/-- TOP_AON_STATUS, R31: [4:0] WPEND. -/
def TOP_AON_STATUS : Reg := { base := 0x000110, fields := [⟨4, 0, .ro, 0, .none⟩] }

/-- The registers of block TOP. -/
def tableTOP : List Reg :=
  [TOP_BUSERR_ADDR, TOP_BUSERR_INFO, TOP_AON_STATUS]

/-! Block EVT, 02_register_space. -/

/-- EVT_RAW, R36: [31:0] RAW. -/
def EVT_RAW : Reg := { base := 0x010000, count := 16, stride := 0x4, fields := [⟨31, 0, .ro, 0, .none⟩] }

/-- EVT_PEND, R36: [31:0] PEND. -/
def EVT_PEND : Reg := { base := 0x010040, count := 16, stride := 0x4, fields := [⟨31, 0, .rw, 0, .none⟩] }

/-- EVT_SUMMARY, R36: [15:0] SUM. -/
def EVT_SUMMARY : Reg := { base := 0x010080, fields := [⟨15, 0, .ro, 0, .none⟩] }

/-- EVT_CTRL, R36: [0:0] GLOBAL_EN. -/
def EVT_CTRL : Reg := { base := 0x010084, fields := [⟨0, 0, .rw, 0, .none⟩] }

/-- EVT_LOCK, R32: [0:0] ROUTE. -/
def EVT_LOCK : Reg := { base := 0x010088, fields := [⟨0, 0, .lock, 0, .none⟩] }

/-- EVT_ROUTE, R36: [31:24] VECTOR; [23:20] LD; [19:18] PORT; [17:12] CHAN; [6:6] CORE; [5:5] REC; [4:4] EVTN; [3:3] MGMT; [2:2] MSIX; [0:0] EN. -/
def EVT_ROUTE : Reg :=
  { base := 0x011000, count := 512, stride := 0x4, lock := some (0x010088, 0),
    fields := [⟨31, 24, .rwl, 0, .none⟩, ⟨23, 20, .rwl, 0, .none⟩, ⟨19, 18, .rwl, 0, .none⟩,
      ⟨17, 12, .rwl, 0, .none⟩, ⟨6, 6, .rwl, 0, .none⟩, ⟨5, 5, .rwl, 0, .none⟩, ⟨4, 4, .rwl, 0, .none⟩,
      ⟨3, 3, .rwl, 0, .none⟩, ⟨2, 2, .rwl, 0, .none⟩, ⟨0, 0, .rwl, 0, .none⟩] }

/-- The registers of block EVT. -/
def tableEVT : List Reg :=
  [EVT_RAW, EVT_PEND, EVT_SUMMARY, EVT_CTRL, EVT_LOCK, EVT_ROUTE]

/-! Block ECC, 02_register_space. -/

/-- ECC_SCRUB_CTRL, R43: [0:0] EN; [15:8] PERIOD. -/
def ECC_SCRUB_CTRL : Reg := { base := 0x1D0000, fields := [⟨0, 0, .rw, 1, .none⟩, ⟨15, 8, .rw, 10, .min1⟩] }

/-- ECC_STAT, R43: [31:31] UE; [15:0] CE_COUNT. -/
def ECC_STAT : Reg :=
  { base := 0x1D0100, count := 8, stride := 0x4,
    fields := [⟨31, 31, .ro, 0, .none⟩, ⟨15, 0, .rw, 0, .none⟩] }

/-- The registers of block ECC. -/
def tableECC : List Reg :=
  [ECC_SCRUB_CTRL, ECC_STAT]

/-! Block TLY, 03_tally_time. -/

/-- TLY_NOW_LO, R45: [31:0]. -/
def TLY_NOW_LO : Reg := { base := 0x020000, aon := true, half := .low, fields := [⟨31, 0, .ro, 0, .none⟩] }

/-- TLY_NOW_HI, R45: [31:0]. -/
def TLY_NOW_HI : Reg := { base := 0x020004, aon := true, half := .high, fields := [⟨31, 0, .ro, 0, .none⟩] }

/-- TLY_STATUS, R52: [10:10] CATCHUP; [9:9] STARTED; [8:8] PPS_LOCK; [7:7] DISAGREE; [6:6] JUMP_PENDING; [5:4] TRUST; [2:0] SOURCE. -/
def TLY_STATUS : Reg :=
  { base := 0x020008, aon := true,
    fields := [⟨10, 10, .ro, 0, .none⟩, ⟨9, 9, .ro, 0, .none⟩, ⟨8, 8, .ro, 0, .none⟩, ⟨7, 7, .ro, 0, .none⟩,
      ⟨6, 6, .ro, 0, .none⟩, ⟨5, 4, .ro, 0, .none⟩, ⟨2, 0, .ro, 0, .none⟩] }

/-- TLY_CTRL, R46: [0:0] PTP_EN; [1:1] SEC_EN; [2:2] TWIN_EN; [3:3] PPS_EN. -/
def TLY_CTRL : Reg :=
  { base := 0x02000C, aon := true,
    fields := [⟨0, 0, .rw, 1, .none⟩, ⟨1, 1, .rw, 1, .none⟩, ⟨2, 2, .rw, 1, .none⟩, ⟨3, 3, .rw, 0, .none⟩] }

/-- TLY_FLOOR_LO, R50: [31:0]. -/
def TLY_FLOOR_LO : Reg := { base := 0x020010, aon := true, half := .low, fields := [⟨31, 0, .ro, 0, .none⟩] }

/-- TLY_FLOOR_HI, R50: [31:0]. -/
def TLY_FLOOR_HI : Reg := { base := 0x020014, aon := true, half := .high, fields := [⟨31, 0, .ro, 0, .none⟩] }

/-- TLY_WAKE_DEADLINE_LO, R61: [31:0]. -/
def TLY_WAKE_DEADLINE_LO : Reg :=
  { base := 0x020018, aon := true, half := .low,
    fields := [⟨31, 0, .rw, 0xFFFFFFFF, .none⟩] }

/-- TLY_WAKE_DEADLINE_HI, R61: [31:0]. -/
def TLY_WAKE_DEADLINE_HI : Reg :=
  { base := 0x02001C, aon := true, half := .high,
    fields := [⟨31, 0, .rw, 0xFFFFFFFF, .none⟩] }

/-- TLY_WAKE_CTRL, R64: [7:0] MARGIN_DAYS; [8:8] FORCE_AT_DEADLINE; [9:9] REQ. -/
def TLY_WAKE_CTRL : Reg :=
  { base := 0x020020, aon := true,
    fields := [⟨7, 0, .rw, 30, .min1⟩, ⟨8, 8, .rw, 0, .none⟩, ⟨9, 9, .ro, 0, .none⟩] }

/-- TLY_HOLD_ERR, R464: [31:0] ERR. -/
def TLY_HOLD_ERR : Reg := { base := 0x020024, aon := true, fields := [⟨31, 0, .ro, 0xFFFFFFFF, .none⟩] }

/-- TLY_PEND_LO, R51: [31:0]. -/
def TLY_PEND_LO : Reg := { base := 0x020028, aon := true, half := .low, fields := [⟨31, 0, .ro, 0, .none⟩] }

/-- TLY_PEND_HI, R51: [31:0]. -/
def TLY_PEND_HI : Reg := { base := 0x02002C, aon := true, half := .high, fields := [⟨31, 0, .ro, 0, .none⟩] }

/-- SCH_TIME_LO, R54: [31:0]. -/
def SCH_TIME_LO : Reg :=
  { base := 0x021000, count := 256, stride := 0x20, aon := true, half := .low,
    fields := [⟨31, 0, .rw, 0, .none⟩] }

/-- SCH_TIME_HI, R54: [31:0]. -/
def SCH_TIME_HI : Reg :=
  { base := 0x021004, count := 256, stride := 0x20, aon := true, half := .high,
    fields := [⟨31, 0, .rw, 0, .none⟩] }

/-- SCH_CTRL, R54: [31:31] ARM; [23:16] MISS_CNT; [15:12] RESULT; [3:0] ACTION. -/
def SCH_CTRL : Reg :=
  { base := 0x021008, count := 256, stride := 0x20, aon := true,
    fields := [⟨31, 31, .rw, 0, .none⟩, ⟨23, 16, .rw, 0, .none⟩, ⟨15, 12, .ro, 0, .none⟩, ⟨3, 0, .rw, 0, .none⟩] }

/-- SCH_ARG, R54: [31:0] ARG. -/
def SCH_ARG : Reg :=
  { base := 0x02100C, count := 256, stride := 0x20, aon := true,
    fields := [⟨31, 0, .rw, 0, .none⟩] }

/-- SCH_PERIOD, R54: [31:0] PERIOD. -/
def SCH_PERIOD : Reg :=
  { base := 0x021010, count := 256, stride := 0x20, aon := true,
    fields := [⟨31, 0, .rw, 0, .none⟩] }

/-- SCH_OWNER, R53: [7:0] OWNER. -/
def SCH_OWNER : Reg :=
  { base := 0x021014, count := 256, stride := 0x20, aon := true,
    fields := [⟨7, 0, .ro, 255, .none⟩] }

/-- The registers of block TLY. -/
def tableTLY : List Reg :=
  [TLY_NOW_LO, TLY_NOW_HI, TLY_STATUS, TLY_CTRL, TLY_FLOOR_LO, TLY_FLOOR_HI, TLY_WAKE_DEADLINE_LO, TLY_WAKE_DEADLINE_HI, TLY_WAKE_CTRL, TLY_HOLD_ERR, TLY_PEND_LO, TLY_PEND_HI] ++
  [SCH_TIME_LO, SCH_TIME_HI, SCH_CTRL, SCH_ARG, SCH_PERIOD, SCH_OWNER]

/-! Block QCH, 04_medium_channels. -/

/-- QC_CTRL, R90: [0:0] EN; [1:1] FAST_RETRAIN; [2:2] FULL_RETRAIN; [3:3] OFFLINE. -/
def QC_CTRL : Reg :=
  { base := 0x100000, count := 144, stride := 0x400,
    fields := [⟨0, 0, .rw, 0, .none⟩, ⟨1, 1, .wo, 0, .none⟩, ⟨2, 2, .wo, 0, .none⟩, ⟨3, 3, .rw, 0, .none⟩] }

/-- QC_STATUS, R90: [6:6] REPLAY_EXH; [5:5] CRC_STORM; [4:4] LINK_DOWN; [2:0] LSTATE. -/
def QC_STATUS : Reg :=
  { base := 0x100004, count := 144, stride := 0x400,
    fields := [⟨6, 6, .ro, 0, .none⟩, ⟨5, 5, .ro, 0, .none⟩, ⟨4, 4, .ro, 0, .none⟩, ⟨2, 0, .ro, 0, .none⟩] }

/-- QC_ERR_CNT, R90: [15:0] CRC_ERRORS; [31:16] REPLAYS. -/
def QC_ERR_CNT : Reg :=
  { base := 0x100008, count := 144, stride := 0x400,
    fields := [⟨15, 0, .rw, 0, .none⟩, ⟨31, 16, .rw, 0, .none⟩] }

/-- QC_ERR_CFG, R90: [21:20] FAST_TRIES; [19:16] REPLAY_MAX; [15:8] STORM_WIN; [7:0] STORM_CNT. -/
def QC_ERR_CFG : Reg :=
  { base := 0x10000C, count := 144, stride := 0x400,
    fields := [⟨21, 20, .rw, 3, .none⟩, ⟨19, 16, .rw, 8, .min1⟩, ⟨15, 8, .rw, 10, .min1⟩, ⟨7, 0, .rw, 64, .min1⟩] }

/-- QC_INV, R90: [1:0] PKG0_TYPE; [3:2] PKG1_TYPE; [19:4] DIE_OK. -/
def QC_INV : Reg :=
  { base := 0x100010, count := 144, stride := 0x400,
    fields := [⟨1, 0, .ro, 0, .none⟩, ⟨3, 2, .ro, 0, .none⟩, ⟨19, 4, .ro, 0, .none⟩] }

/-- QC_RETRAINS, R90: [7:0] FAST; [15:8] FULL. -/
def QC_RETRAINS : Reg :=
  { base := 0x100014, count := 144, stride := 0x400,
    fields := [⟨7, 0, .rw, 0, .none⟩, ⟨15, 8, .rw, 0, .none⟩] }

/-- QG_CTRL, R90: [0:0] SB_EN; [1:1] RST; [15:8] TEMP_POLL. -/
def QG_CTRL : Reg :=
  { base := 0x100200, count := 9, stride := 0x4000,
    fields := [⟨0, 0, .rw, 1, .none⟩, ⟨1, 1, .rw, 0, .none⟩, ⟨15, 8, .rw, 10, .min1⟩] }

/-- QG_STATUS, R90: [20:20] OVERTEMP; [19:19] INV_MISMATCH; [18:18] ALERT; [17:17] SB_OK; [16:16] IN_SERVICE; [15:0] CH_UP. -/
def QG_STATUS : Reg :=
  { base := 0x100204, count := 9, stride := 0x4000,
    fields := [⟨20, 20, .ro, 0, .none⟩, ⟨19, 19, .ro, 0, .none⟩, ⟨18, 18, .ro, 0, .none⟩, ⟨17, 17, .ro, 0, .none⟩,
      ⟨16, 16, .ro, 0, .none⟩, ⟨15, 0, .ro, 0, .none⟩] }

/-- QG_TEMP, R90: [7:0] TEMP; [12:8] PKGIDX. -/
def QG_TEMP : Reg :=
  { base := 0x100208, count := 9, stride := 0x4000,
    fields := [⟨7, 0, .ro, 0, .none⟩, ⟨12, 8, .ro, 0, .none⟩] }

/-- QG_TEMP_LIMIT, R90: [7:0] LIMIT. -/
def QG_TEMP_LIMIT : Reg := { base := 0x10020C, count := 9, stride := 0x4000, fields := [⟨7, 0, .rw, 85, .none⟩] }

/-- QG_INV_ERR, R90: [3:0] CHAN; [4:4] PKG; [12:8] CHECK. -/
def QG_INV_ERR : Reg :=
  { base := 0x100210, count := 9, stride := 0x4000,
    fields := [⟨3, 0, .ro, 0, .none⟩, ⟨4, 4, .ro, 0, .none⟩, ⟨12, 8, .ro, 0, .none⟩] }

/-- The registers of block QCH. -/
def tableQCH : List Reg :=
  [QC_CTRL, QC_STATUS, QC_ERR_CNT, QC_ERR_CFG, QC_INV, QC_RETRAINS, QG_CTRL, QG_STATUS, QG_TEMP, QG_TEMP_LIMIT, QG_INV_ERR]

/-! Block TSL, 07_medium_integrity_retention. -/

/-- TSL_CTRL, R170: [0:0] EN; [1:1] PASS_NOW. -/
def TSL_CTRL : Reg := { base := 0x130000, fields := [⟨0, 0, .rw, 1, .none⟩, ⟨1, 1, .wo, 0, .none⟩] }

/-- TSL_STATUS, R170: [1:0] STATE; [16:8] GROUPS. -/
def TSL_STATUS : Reg := { base := 0x130004, fields := [⟨1, 0, .ro, 0, .none⟩, ⟨16, 8, .ro, 0, .none⟩] }

/-- TSL_CFG, R170: [28:24] WEAK_BITS; [23:16] DELTA; [13:8] BW_PCT; [7:0] PASS_DAYS. -/
def TSL_CFG : Reg :=
  { base := 0x130008,
    fields := [⟨28, 24, .rw, 12, .clamp 1 24⟩, ⟨23, 16, .rw, 6, .clamp 1 127⟩, ⟨13, 8, .rw, 10, .clamp 1 50⟩,
      ⟨7, 0, .rw, 30, .min1⟩] }

/-- TSL_AGE, R170: [7:0] AGE_PCT; [15:8] KEEP_BW_PCT. -/
def TSL_AGE : Reg := { base := 0x13000C, fields := [⟨7, 0, .rw, 60, .clamp 10 90⟩, ⟨15, 8, .rw, 100, .clamp 1 100⟩] }

/-- TSL_GROUP_SEL, R170: [3:0] GROUP. -/
def TSL_GROUP_SEL : Reg := { base := 0x130010, fields := [⟨3, 0, .rw, 0, .none⟩] }

/-- TSL_GROUP_INFO, R170: [7:0] PCT; [27:8] LAST_DONE; [28:28] LATE. -/
def TSL_GROUP_INFO : Reg :=
  { base := 0x130014,
    fields := [⟨7, 0, .ro, 0, .none⟩, ⟨27, 8, .ro, 0, .none⟩, ⟨28, 28, .ro, 0, .none⟩] }

/-- TSL_WEAK_CNT, R170: [31:0] CNT. -/
def TSL_WEAK_CNT : Reg := { base := 0x130018, fields := [⟨31, 0, .rw, 0, .none⟩] }

/-- TSL_REFRESH_CNT, R170: [31:0] CNT. -/
def TSL_REFRESH_CNT : Reg := { base := 0x13001C, fields := [⟨31, 0, .rw, 0, .none⟩] }

/-- TSL_BLANK_CFG, R170: [15:0] BLANK_MIN. -/
def TSL_BLANK_CFG : Reg := { base := 0x130020, fields := [⟨15, 0, .rw, 256, .none⟩] }

/-- TSL_BLANK_SHORT_CNT, R170: [31:0] CNT. -/
def TSL_BLANK_SHORT_CNT : Reg := { base := 0x130024, fields := [⟨31, 0, .rw, 0, .none⟩] }

/-- TSL_MISPLACED_CNT, R170: [31:0] CNT. -/
def TSL_MISPLACED_CNT : Reg := { base := 0x130028, fields := [⟨31, 0, .rw, 0, .none⟩] }

/-- TSL_REBUILD, R170: [5:0] GBPS. -/
def TSL_REBUILD : Reg := { base := 0x13002C, fields := [⟨5, 0, .rw, 16, .clamp 1 60⟩] }

/-- TSL_REBUILD_STATUS, R170: [23:0] SETTS_LEFT. -/
def TSL_REBUILD_STATUS : Reg := { base := 0x130030, fields := [⟨23, 0, .ro, 0, .none⟩] }

/-- TSL_CAUSE, R170: [12:12] UNREC_IN_PASS; [11:11] BAND_SUSPECT; [10:10] MISPLACED; [9:9] BURST_DONE; [8:8] PASS_DONE; [3:3] BLANK_LOW; [2:2] PASS_LATE; [1:1] REBUILD_WAIT; [0:0] DIE_FAILED. -/
def TSL_CAUSE : Reg :=
  { base := 0x130034,
    fields := [⟨12, 12, .rw, 0, .none⟩, ⟨11, 11, .rw, 0, .none⟩, ⟨10, 10, .rw, 0, .none⟩, ⟨9, 9, .rw, 0, .none⟩,
      ⟨8, 8, .rw, 0, .none⟩, ⟨3, 3, .ro, 0, .none⟩, ⟨2, 2, .ro, 0, .none⟩, ⟨1, 1, .ro, 0, .none⟩,
      ⟨0, 0, .ro, 0, .none⟩] }

/-- TSL_DIE_SEL, R170: [11:0] DIE. -/
def TSL_DIE_SEL : Reg := { base := 0x130038, fields := [⟨11, 0, .rw, 0, .none⟩] }

/-- TSL_DIE_INFO, R170: [0:0] FAILED; [1:1] REBUILDING; [2:2] FIRST; [3:3] BLANK_LOW; [31:16] WEAK_SETTS. -/
def TSL_DIE_INFO : Reg :=
  { base := 0x13003C,
    fields := [⟨0, 0, .ro, 0, .none⟩, ⟨1, 1, .ro, 0, .none⟩, ⟨2, 2, .ro, 0, .none⟩, ⟨3, 3, .ro, 0, .none⟩,
      ⟨31, 16, .ro, 0, .none⟩] }

/-- The registers of block TSL. -/
def tableTSL : List Reg :=
  [TSL_CTRL, TSL_STATUS, TSL_CFG, TSL_AGE, TSL_GROUP_SEL, TSL_GROUP_INFO, TSL_WEAK_CNT, TSL_REFRESH_CNT, TSL_BLANK_CFG, TSL_BLANK_SHORT_CNT, TSL_MISPLACED_CNT, TSL_REBUILD] ++
  [TSL_REBUILD_STATUS, TSL_CAUSE, TSL_DIE_SEL, TSL_DIE_INFO]

/-! Block YRW, 06_medium_writes_wear. -/

/-- YRW_CTRL, R150: [0:0] EN. -/
def YRW_CTRL : Reg := { base := 0x131000, fields := [⟨0, 0, .rw, 1, .none⟩] }

/-- YRW_STATUS, R150: [3:0] CLASS; [31:16] QUEUED. -/
def YRW_STATUS : Reg := { base := 0x131004, fields := [⟨3, 0, .ro, 0, .none⟩, ⟨31, 16, .ro, 0, .none⟩] }

/-- YRW_CFG, R150: [23:16] BAL_RATIO; [15:8] BW_PCT; [7:0] RATIO. -/
def YRW_CFG : Reg :=
  { base := 0x131008,
    fields := [⟨23, 16, .rw, 6, .clamp 5 255⟩, ⟨15, 8, .rw, 15, .clamp 1 50⟩, ⟨7, 0, .rw, 16, .clamp 5 255⟩] }

/-- YRW_WARN, R150: [27:24] MARGIN_WARN_M4; [23:20] MARGIN_WARN_M3; [19:16] MARGIN_WARN_M2; [14:10] LOOP_WARN_M4; [9:5] LOOP_WARN_M3; [4:0] LOOP_WARN_M2. -/
def YRW_WARN : Reg :=
  { base := 0x13100C,
    fields := [⟨27, 24, .rw, 8, .none⟩, ⟨23, 20, .rw, 6, .none⟩, ⟨19, 16, .rw, 4, .none⟩,
      ⟨14, 10, .rw, 12, .clamp 0 23⟩, ⟨9, 5, .rw, 9, .clamp 0 17⟩, ⟨4, 0, .rw, 6, .clamp 0 11⟩] }

/-- YRW_SPARE, R150: [15:0] SPARE_BP; [17:16] CAP_STATE. -/
def YRW_SPARE : Reg := { base := 0x131010, fields := [⟨15, 0, .ro, 0, .none⟩, ⟨17, 16, .ro, 0, .none⟩] }

/-- YRW_ONSET_CNT, R150: [31:0] CNT. -/
def YRW_ONSET_CNT : Reg := { base := 0x131014, fields := [⟨31, 0, .rw, 0, .none⟩] }

/-- YRW_REMAP_CNT, R150: [31:0] CNT. -/
def YRW_REMAP_CNT : Reg := { base := 0x131018, fields := [⟨31, 0, .rw, 0, .none⟩] }

/-- YRW_SPOIL_CNT, R150: [31:0] CNT. -/
def YRW_SPOIL_CNT : Reg := { base := 0x13101C, fields := [⟨31, 0, .ro, 0, .none⟩] }

/-- YRW_CAUSE, R150: [19:19] CONV_DONE; [18:18] LOG_REWRITE; [17:17] YMAP_HI; [16:16] HELD_REWRITE; [10:10] REMAP_REPEAT; [9:9] REMAP; [8:8] ONSET; [6:6] CAP_CHANGE; [5:5] REBUILD_SHORT; [4:4] TWIN_WORSE; [3:3] RESERVE_EMPTY; [2:2] RESERVE_LOW; [1:1] RED; [0:0] AMBER. -/
def YRW_CAUSE : Reg :=
  { base := 0x131020,
    fields := [⟨19, 19, .rw, 0, .none⟩, ⟨18, 18, .rw, 0, .none⟩, ⟨17, 17, .rw, 0, .none⟩, ⟨16, 16, .rw, 0, .none⟩,
      ⟨10, 10, .rw, 0, .none⟩, ⟨9, 9, .rw, 0, .none⟩, ⟨8, 8, .rw, 0, .none⟩, ⟨6, 6, .rw, 0, .none⟩,
      ⟨5, 5, .ro, 0, .none⟩, ⟨4, 4, .ro, 0, .none⟩, ⟨3, 3, .ro, 0, .none⟩, ⟨2, 2, .ro, 0, .none⟩,
      ⟨1, 1, .ro, 0, .none⟩, ⟨0, 0, .ro, 0, .none⟩] }

/-- YRW_DIE_SEL, R150: [11:0] DIE. -/
def YRW_DIE_SEL : Reg := { base := 0x131024, fields := [⟨11, 0, .rw, 0, .none⟩] }

/-- YRW_DIE_WEAR, R150: [15:0] MEAN; [31:16] MAX. -/
def YRW_DIE_WEAR : Reg := { base := 0x131028, fields := [⟨15, 0, .ro, 0, .none⟩, ⟨31, 16, .ro, 0, .none⟩] }

/-- YRW_DIE_SPOIL, R150: [20:0] SPOIL; [26:21] PINNED. -/
def YRW_DIE_SPOIL : Reg := { base := 0x13102C, fields := [⟨20, 0, .ro, 0, .none⟩, ⟨26, 21, .ro, 0, .none⟩] }

/-- The registers of block YRW. -/
def tableYRW : List Reg :=
  [YRW_CTRL, YRW_STATUS, YRW_CFG, YRW_WARN, YRW_SPARE, YRW_ONSET_CNT, YRW_REMAP_CNT, YRW_SPOIL_CNT, YRW_CAUSE, YRW_DIE_SEL, YRW_DIE_WEAR, YRW_DIE_SPOIL]

/-! Block EYB, 05_medium_reads. -/

/-- EYB_CTRL, R120: [19:16] HYST; [15:8] CAL_HOURS; [1:1] SWEEP; [0:0] EN. -/
def EYB_CTRL : Reg :=
  { base := 0x132000,
    fields := [⟨19, 16, .rw, 2, .none⟩, ⟨15, 8, .rw, 4, .min1⟩, ⟨1, 1, .wo, 0, .none⟩, ⟨0, 0, .rw, 1, .none⟩] }

/-- EYB_STATUS, R120: [2:0] STATE; [3:3] TABLES_READY; [27:16] SENTINEL_DIES. -/
def EYB_STATUS : Reg :=
  { base := 0x132004,
    fields := [⟨2, 0, .ro, 0, .none⟩, ⟨3, 3, .ro, 0, .none⟩, ⟨27, 16, .ro, 0, .none⟩] }

/-- EYB_DIE_SEL, R120: [11:0] DIE. -/
def EYB_DIE_SEL : Reg := { base := 0x132008, fields := [⟨11, 0, .rw, 0, .none⟩] }

/-- EYB_DIE_INFO, R120: [20:20] FIT_OK; [19:18] TBAND; [17:17] OUT_OF_RANGE; [16:16] SENTINEL; [15:0] SCALE. -/
def EYB_DIE_INFO : Reg :=
  { base := 0x13200C,
    fields := [⟨20, 20, .ro, 0, .none⟩, ⟨19, 18, .ro, 0, .none⟩, ⟨17, 17, .ro, 0, .none⟩, ⟨16, 16, .ro, 0, .none⟩,
      ⟨15, 0, .ro, 0, .none⟩] }

/-- EYB_DIE_CAL, R120: [19:0] EPOCH. -/
def EYB_DIE_CAL : Reg := { base := 0x132010, fields := [⟨19, 0, .ro, 0, .none⟩] }

/-- RD_CTRL, R120: [0:0] SOFT_EN; [1:1] ASSIST_EN; [11:4] SOFT_DELTA. -/
def RD_CTRL : Reg :=
  { base := 0x132020,
    fields := [⟨0, 0, .rw, 1, .none⟩, ⟨1, 1, .rw, 1, .none⟩, ⟨11, 4, .rw, 4, .clamp 1 127⟩] }

/-- RD_SOFT_CNT, R120: [31:0] CNT. -/
def RD_SOFT_CNT : Reg := { base := 0x132024, fields := [⟨31, 0, .rw, 0, .none⟩] }

/-- RD_ASSIST_CNT, R120: [31:0] CNT. -/
def RD_ASSIST_CNT : Reg := { base := 0x132028, fields := [⟨31, 0, .rw, 0, .none⟩] }

/-- RD_UNREC_CNT, R120: [31:0] CNT. -/
def RD_UNREC_CNT : Reg := { base := 0x13202C, fields := [⟨31, 0, .rw, 0, .none⟩] }

/-- YMAP_STATUS, R120: [22:0] USED. -/
def YMAP_STATUS : Reg := { base := 0x132030, fields := [⟨22, 0, .ro, 0, .none⟩] }

/-- YMAP_CFG, R120: [7:0] HI; [15:8] LO. -/
def YMAP_CFG : Reg := { base := 0x132034, fields := [⟨7, 0, .rw, 240, .none⟩, ⟨15, 8, .rw, 224, .none⟩] }

/-- YMAP_HOLDS, R120: [31:0] CNT. -/
def YMAP_HOLDS : Reg := { base := 0x132038, fields := [⟨31, 0, .rw, 0, .none⟩] }

/-- EYB_CAUSE, R120: [0:0] SENTINEL; [1:1] FIT_FAIL; [2:2] OUT_OF_RANGE; [8:8] SOFT_SEEN; [9:9] ASSIST_SEEN; [10:10] UNREC_SEEN. -/
def EYB_CAUSE : Reg :=
  { base := 0x13203C,
    fields := [⟨0, 0, .ro, 0, .none⟩, ⟨1, 1, .ro, 0, .none⟩, ⟨2, 2, .ro, 0, .none⟩, ⟨8, 8, .rw, 0, .none⟩,
      ⟨9, 9, .rw, 0, .none⟩, ⟨10, 10, .rw, 0, .none⟩] }

/-- The registers of block EYB. -/
def tableEYB : List Reg :=
  [EYB_CTRL, EYB_STATUS, EYB_DIE_SEL, EYB_DIE_INFO, EYB_DIE_CAL, RD_CTRL, RD_SOFT_CNT, RD_ASSIST_CNT, RD_UNREC_CNT, YMAP_STATUS, YMAP_CFG, YMAP_HOLDS] ++
  [EYB_CAUSE]

/-! Block PBF, 08_persistence_domain. -/

/-- PBF_CTRL, R201: [0:0] STREAM_EN; [1:1] PREFETCH_EN. -/
def PBF_CTRL : Reg := { base := 0x140000, fields := [⟨0, 0, .rw, 1, .none⟩, ⟨1, 1, .rw, 1, .none⟩] }

/-- PBF_STATUS, R201: [2:0] DOMAIN; [5:4] ADMIT. -/
def PBF_STATUS : Reg := { base := 0x140004, fields := [⟨2, 0, .ro, 0, .none⟩, ⟨5, 4, .ro, 0, .none⟩] }

/-- PBF_HASH_KEY_LO, R174: [31:0]. -/
def PBF_HASH_KEY_LO : Reg := { base := 0x140008, half := .low, fields := [⟨31, 0, .wo, 0, .none⟩] }

/-- PBF_HASH_KEY_HI, R174: [31:0]. -/
def PBF_HASH_KEY_HI : Reg := { base := 0x14000C, half := .high, fields := [⟨31, 0, .wo, 0, .none⟩] }

/-- PBF_DIRTY, R201: [16:0] LINES. -/
def PBF_DIRTY : Reg := { base := 0x140010, fields := [⟨16, 0, .ro, 0, .none⟩] }

/-- PBF_CAP, R201: [16:0] DIRTY_MAX. -/
def PBF_CAP : Reg := { base := 0x140014, fields := [⟨16, 0, .rw, 0x18000, .clamp 0 98304⟩] }

/-- PBF_CAP_EFF, R201: [16:0] CAP. -/
def PBF_CAP_EFF : Reg := { base := 0x140018, fields := [⟨16, 0, .ro, 0, .none⟩] }

/-- PBF_THR, R201: [4:0] LO_24THS; [12:8] STOP_24THS. -/
def PBF_THR : Reg := { base := 0x14001C, fields := [⟨4, 0, .rw, 20, .clamp 12 22⟩, ⟨12, 8, .rw, 23, .clamp 13 23⟩] }

/-- PBF_DRAIN_DIES, R201: [8:0] D. -/
def PBF_DRAIN_DIES : Reg := { base := 0x140020, fields := [⟨8, 0, .ro, 0, .none⟩] }

/-- PBF_DRAIN_LIMIT, R201: [16:0] LIMIT. -/
def PBF_DRAIN_LIMIT : Reg := { base := 0x140024, fields := [⟨16, 0, .ro, 0, .none⟩] }

/-- PBF_PARTIAL, R201: [15:0] USED; [31:16] LIMIT. -/
def PBF_PARTIAL : Reg := { base := 0x140028, fields := [⟨15, 0, .ro, 0, .none⟩, ⟨31, 16, .ro, 0, .none⟩] }

/-- PBF_STREAM, R201: [4:0] RUN; [11:8] DEPTH; [23:16] IDLE_US. -/
def PBF_STREAM : Reg :=
  { base := 0x14002C,
    fields := [⟨4, 0, .rw, 16, .clamp 4 31⟩, ⟨11, 8, .rw, 8, .clamp 1 8⟩, ⟨23, 16, .rw, 50, .clamp 1 255⟩] }

/-- PBF_DRAIN_STATUS, R201: [3:0] STEP; [7:4] TRIGGER; [9:8] REACTION. -/
def PBF_DRAIN_STATUS : Reg :=
  { base := 0x140030,
    fields := [⟨3, 0, .ro, 0, .none⟩, ⟨7, 4, .ro, 0, .none⟩, ⟨9, 8, .ro, 0, .none⟩] }

/-- PBF_DRAIN_LAST, R201: [15:0] DURATION. -/
def PBF_DRAIN_LAST : Reg := { base := 0x140034, fields := [⟨15, 0, .ro, 0, .none⟩] }

/-- PBF_DRAIN_FRAMES, R201: [17:0] FRAMES. -/
def PBF_DRAIN_FRAMES : Reg := { base := 0x140038, fields := [⟨17, 0, .ro, 0, .none⟩] }

/-- PBF_STALL_CNT, R201: [31:0] CNT. -/
def PBF_STALL_CNT : Reg := { base := 0x14003C, fields := [⟨31, 0, .rw, 0, .none⟩] }

/-- PBF_THROTTLE_CNT, R201: [15:0] RNR; [31:16] CXL_HOLDS. -/
def PBF_THROTTLE_CNT : Reg := { base := 0x140040, fields := [⟨15, 0, .rw, 0, .none⟩, ⟨31, 16, .rw, 0, .none⟩] }

/-- PBF_CAUSE, R201: [9:9] SET_STALL; [8:8] KEY_REFUSED; [7:7] REPLAY_DONE; [6:6] DRAIN_INCOMPLETE; [5:5] DRAIN_RELOC; [4:4] DRAINING; [3:3] CAP_LIMITED; [2:2] PARTIAL_FORCED; [1:1] HOST_STOP; [0:0] THROTTLE. -/
def PBF_CAUSE : Reg :=
  { base := 0x140044,
    fields := [⟨9, 9, .rw, 0, .none⟩, ⟨8, 8, .rw, 0, .none⟩, ⟨7, 7, .rw, 0, .none⟩, ⟨6, 6, .rw, 0, .none⟩,
      ⟨5, 5, .rw, 0, .none⟩, ⟨4, 4, .ro, 0, .none⟩, ⟨3, 3, .ro, 0, .none⟩, ⟨2, 2, .ro, 0, .none⟩,
      ⟨1, 1, .ro, 0, .none⟩, ⟨0, 0, .ro, 0, .none⟩] }

/-- The registers of block PBF. -/
def tablePBF : List Reg :=
  [PBF_CTRL, PBF_STATUS, PBF_HASH_KEY_LO, PBF_HASH_KEY_HI, PBF_DIRTY, PBF_CAP, PBF_CAP_EFF, PBF_THR, PBF_DRAIN_DIES, PBF_DRAIN_LIMIT, PBF_PARTIAL, PBF_STREAM] ++
  [PBF_DRAIN_STATUS, PBF_DRAIN_LAST, PBF_DRAIN_FRAMES, PBF_STALL_CNT, PBF_THROTTLE_CNT, PBF_CAUSE]

/-! Block TDM, 09_twin_operation. -/

/-- TDM_CTRL, R234: [0:0] EN; [1:1] TL0_EN; [2:2] TL1_EN. -/
def TDM_CTRL : Reg :=
  { base := 0x160000,
    fields := [⟨0, 0, .rw, 1, .none⟩, ⟨1, 1, .rw, 1, .none⟩, ⟨2, 2, .rw, 1, .none⟩] }

/-- TDM_STATUS, R234: [31:16] PEER_COMPAT; [6:6] TIME_SENDER; [5:5] TL1_UP; [4:4] TL0_UP; [2:0] PAIR. -/
def TDM_STATUS : Reg :=
  { base := 0x160004,
    fields := [⟨31, 16, .ro, 0, .none⟩, ⟨6, 6, .ro, 0, .none⟩, ⟨5, 5, .ro, 0, .none⟩, ⟨4, 4, .ro, 0, .none⟩,
      ⟨2, 0, .ro, 0, .none⟩] }

/-- TDM_CFG, R234: [15:0] STRICT_HOLD_MS; [21:16] RESYNC_GBPS; [29:22] LEAVE_WAIT. -/
def TDM_CFG : Reg :=
  { base := 0x160008,
    fields := [⟨15, 0, .rw, 100, .min1⟩, ⟨21, 16, .rw, 60, .clamp 1 60⟩, ⟨29, 22, .rw, 10, .min1⟩] }

/-- TDM_RTT, R234: [15:0] RTT. -/
def TDM_RTT : Reg := { base := 0x16000C, fields := [⟨15, 0, .ro, 0, .none⟩] }

/-- TDM_DROP_CNT, R234: [31:0] CNT. -/
def TDM_DROP_CNT : Reg := { base := 0x160010, fields := [⟨31, 0, .rw, 0, .none⟩] }

/-- TDM_AUTH_CNT, R234: [31:0] CNT. -/
def TDM_AUTH_CNT : Reg := { base := 0x160014, fields := [⟨31, 0, .rw, 0, .none⟩] }

/-- TDM_LOSS_CNT, R234: [31:0] CNT. -/
def TDM_LOSS_CNT : Reg := { base := 0x160018, fields := [⟨31, 0, .rw, 0, .none⟩] }

/-- TDM_RETRAIN, R234: [7:0] TL0; [15:8] TL1. -/
def TDM_RETRAIN : Reg := { base := 0x16001C, fields := [⟨7, 0, .rw, 0, .none⟩, ⟨15, 8, .rw, 0, .none⟩] }

/-- TDM_PEER_UID, R234: [31:0] UID. -/
def TDM_PEER_UID : Reg := { base := 0x160020, count := 4, stride := 0x4, fields := [⟨31, 0, .ro, 0, .none⟩] }

/-- TDM_RESYNC_STATUS, R234: [23:0] SETTS_LEFT. -/
def TDM_RESYNC_STATUS : Reg := { base := 0x160030, fields := [⟨23, 0, .ro, 0, .none⟩] }

/-- TDM_CAUSE, R234: [13:13] TAKEOVER; [12:12] RESYNC_DONE; [11:11] PEER_DRAINING; [10:10] DIVERGED; [9:9] AUTH_FAIL; [8:8] ATTEST_FAIL; [7:7] COMPAT; [6:6] RESYNC; [5:5] NO_HOME; [4:4] STRICT_HELD; [3:3] SOLO; [2:2] FENCED; [1:1] PORT_DOWN; [0:0] LINK_LOST. -/
def TDM_CAUSE : Reg :=
  { base := 0x160034,
    fields := [⟨13, 13, .rw, 0, .none⟩, ⟨12, 12, .rw, 0, .none⟩, ⟨11, 11, .rw, 0, .none⟩, ⟨10, 10, .rw, 0, .none⟩,
      ⟨9, 9, .rw, 0, .none⟩, ⟨8, 8, .rw, 0, .none⟩, ⟨7, 7, .rw, 0, .none⟩, ⟨6, 6, .ro, 0, .none⟩,
      ⟨5, 5, .ro, 0, .none⟩, ⟨4, 4, .ro, 0, .none⟩, ⟨3, 3, .ro, 0, .none⟩, ⟨2, 2, .ro, 0, .none⟩,
      ⟨1, 1, .ro, 0, .none⟩, ⟨0, 0, .ro, 0, .none⟩] }

/-- TDM_REGION_SEL, R234: [15:0] RID. -/
def TDM_REGION_SEL : Reg := { base := 0x160040, fields := [⟨15, 0, .rw, 0, .none⟩] }

/-- TDM_REGION_INFO, R234: [7:7] STRICT; [6:6] NO_HOME; [5:5] HELD; [4:4] SOURCE; [3:3] TARGET; [2:2] SOLO; [1:1] FENCED; [0:0] HOME. -/
def TDM_REGION_INFO : Reg :=
  { base := 0x160044,
    fields := [⟨7, 7, .ro, 0, .none⟩, ⟨6, 6, .ro, 0, .none⟩, ⟨5, 5, .ro, 0, .none⟩, ⟨4, 4, .ro, 0, .none⟩,
      ⟨3, 3, .ro, 0, .none⟩, ⟨2, 2, .ro, 0, .none⟩, ⟨1, 1, .ro, 0, .none⟩, ⟨0, 0, .ro, 0, .none⟩] }

/-- TDM_REGION_TERM, R234: [31:0] TERM. -/
def TDM_REGION_TERM : Reg := { base := 0x160048, fields := [⟨31, 0, .ro, 0, .none⟩] }

/-- TDM_REGION_ROS_LO, R234: [31:0]. -/
def TDM_REGION_ROS_LO : Reg := { base := 0x160050, half := .low, fields := [⟨31, 0, .ro, 0, .none⟩] }

/-- TDM_REGION_ROS_HI, R234: [31:0]. -/
def TDM_REGION_ROS_HI : Reg := { base := 0x160054, half := .high, fields := [⟨31, 0, .ro, 0, .none⟩] }

/-- TDM_LANEMAP0, R234: [23:0] MAP. -/
def TDM_LANEMAP0 : Reg := { base := 0x160060, fields := [⟨23, 0, .rwl, 0xFAC688, .none⟩] }

/-- TDM_LANEMAP1, R234: [23:0] MAP. -/
def TDM_LANEMAP1 : Reg := { base := 0x160064, fields := [⟨23, 0, .rwl, 0xFAC688, .none⟩] }

/-- TDM_LANEMAP_COMMIT, R234: [0:0] COMMIT; [1:1] ERR. -/
def TDM_LANEMAP_COMMIT : Reg := { base := 0x160068, fields := [⟨0, 0, .wo, 0, .none⟩, ⟨1, 1, .ro, 0, .none⟩] }

/-- The registers of block TDM. -/
def tableTDM : List Reg :=
  [TDM_CTRL, TDM_STATUS, TDM_CFG, TDM_RTT, TDM_DROP_CNT, TDM_AUTH_CNT, TDM_LOSS_CNT, TDM_RETRAIN, TDM_PEER_UID, TDM_RESYNC_STATUS, TDM_CAUSE, TDM_REGION_SEL] ++
  [TDM_REGION_INFO, TDM_REGION_TERM, TDM_REGION_ROS_LO, TDM_REGION_ROS_HI, TDM_LANEMAP0, TDM_LANEMAP1, TDM_LANEMAP_COMMIT]

/-! Block XLT, 10_translation_and_tiers. -/

/-- XLT_CTRL, R267: [0:0] LOAD_EN; [1:1] POOL_EN. -/
def XLT_CTRL : Reg := { base := 0x150000, fields := [⟨0, 0, .rw, 1, .none⟩, ⟨1, 1, .rw, 1, .none⟩] }

/-- XLT_STATUS, R267: [2:0] LOAD; [3:3] REPROMOTE; [23:16] WINDOWS_OPEN. -/
def XLT_STATUS : Reg :=
  { base := 0x150004,
    fields := [⟨2, 0, .ro, 0, .none⟩, ⟨3, 3, .ro, 0, .none⟩, ⟨23, 16, .ro, 0, .none⟩] }

/-- XLT_EXTENTS, R267: [17:0] COUNT. -/
def XLT_EXTENTS : Reg := { base := 0x150008, fields := [⟨17, 0, .ro, 0, .none⟩] }

/-- XLT_LOAD_CFG, R267: [7:0] BW_PCT; [15:8] PROMO_BW_PCT. -/
def XLT_LOAD_CFG : Reg :=
  { base := 0x15000C,
    fields := [⟨7, 0, .rw, 20, .clamp 1 50⟩, ⟨15, 8, .rw, 20, .clamp 1 50⟩] }

/-- XLT_LOAD_LEFT, R267: [23:0] CHUNKS. -/
def XLT_LOAD_LEFT : Reg := { base := 0x150010, fields := [⟨23, 0, .ro, 0, .none⟩] }

/-- XLT_PRIO_CNT, R267: [31:0] CNT. -/
def XLT_PRIO_CNT : Reg := { base := 0x150014, fields := [⟨31, 0, .rw, 0, .none⟩] }

/-- XLT_JRNL, R267: [12:0] LIVE; [28:16] LIMIT. -/
def XLT_JRNL : Reg := { base := 0x150018, fields := [⟨12, 0, .ro, 0, .none⟩, ⟨28, 16, .ro, 0, .none⟩] }

/-- XLT_JRNL_CFG, R267: [7:0] CKPT_PCT. -/
def XLT_JRNL_CFG : Reg := { base := 0x15001C, fields := [⟨7, 0, .rw, 50, .clamp 10 90⟩] }

/-- XLT_CKPT_SEQ, R267: [31:0] SEQ. -/
def XLT_CKPT_SEQ : Reg := { base := 0x150020, fields := [⟨31, 0, .ro, 0, .none⟩] }

/-- XLT_MISS_CNT, R267: [31:0] CNT. -/
def XLT_MISS_CNT : Reg := { base := 0x150024, fields := [⟨31, 0, .rw, 0, .none⟩] }

/-- XLT_POOL_TOTAL, R267: [25:0] PAGES. -/
def XLT_POOL_TOTAL : Reg := { base := 0x150028, fields := [⟨25, 0, .ro, 0, .none⟩] }

/-- XLT_POOL_USED, R267: [25:0] PAGES. -/
def XLT_POOL_USED : Reg := { base := 0x15002C, fields := [⟨25, 0, .ro, 0, .none⟩] }

/-- XLT_POOL_KEEP, R267: [25:0] PAGES. -/
def XLT_POOL_KEEP : Reg := { base := 0x150030, fields := [⟨25, 0, .ro, 0, .none⟩] }

/-- XLT_WINDOW, R267: [7:0] SETTS; [23:16] IDLE. -/
def XLT_WINDOW : Reg := { base := 0x150034, fields := [⟨7, 0, .rw, 64, .min1⟩, ⟨23, 16, .rw, 10, .min1⟩] }

/-- XLT_CAUSE, R267: [11:11] KEEP_EVICTED; [10:10] CHUNK_BAD; [9:9] TABLE_LOST; [8:8] LOAD_DONE; [6:6] RAW_DISCARD; [5:5] BENCH_VIEW; [4:4] ARRAYS_SHORT; [3:3] EXTENT_SHORT; [2:2] JRNL_FULL; [1:1] JRNL_HI; [0:0] LOADING. -/
def XLT_CAUSE : Reg :=
  { base := 0x150038,
    fields := [⟨11, 11, .rw, 0, .none⟩, ⟨10, 10, .rw, 0, .none⟩, ⟨9, 9, .rw, 0, .none⟩, ⟨8, 8, .rw, 0, .none⟩,
      ⟨6, 6, .rw, 0, .none⟩, ⟨5, 5, .ro, 0, .none⟩, ⟨4, 4, .ro, 0, .none⟩, ⟨3, 3, .ro, 0, .none⟩,
      ⟨2, 2, .ro, 0, .none⟩, ⟨1, 1, .ro, 0, .none⟩, ⟨0, 0, .ro, 0, .none⟩] }

/-- XLT_BV_STATUS, R267: [0:0] OPEN; [4:1] REFSET. -/
def XLT_BV_STATUS : Reg := { base := 0x15003C, fields := [⟨0, 0, .ro, 0, .none⟩, ⟨4, 1, .ro, 0, .none⟩] }

/-- The registers of block XLT. -/
def tableXLT : List Reg :=
  [XLT_CTRL, XLT_STATUS, XLT_EXTENTS, XLT_LOAD_CFG, XLT_LOAD_LEFT, XLT_PRIO_CNT, XLT_JRNL, XLT_JRNL_CFG, XLT_CKPT_SEQ, XLT_MISS_CNT, XLT_POOL_TOTAL, XLT_POOL_USED] ++
  [XLT_POOL_KEEP, XLT_WINDOW, XLT_CAUSE, XLT_BV_STATUS]

/-! Block CXL, 11_cxl_ports. -/

/-- CXL_CTRL, R293: [3:0] PORT_EN; [4:4] IDE_REQ. -/
def CXL_CTRL : Reg := { base := 0x180000, fields := [⟨3, 0, .rw, 15, .none⟩, ⟨4, 4, .rw, 0, .none⟩] }

/-- CXL_CFG, R293: [0:0] BIFUR_A; [1:1] BIFUR_B; [3:2] MGMT_PORT; [4:4] SPEED_CAP. -/
def CXL_CFG : Reg :=
  { base := 0x180004, lock := some (0x180008, 0),
    fields := [⟨0, 0, .rwl, 0, .none⟩, ⟨1, 1, .rwl, 0, .none⟩, ⟨3, 2, .rwl, 0, .none⟩, ⟨4, 4, .rwl, 0, .none⟩] }

/-- CXL_LOCK, R293: [0:0] CFG. -/
def CXL_LOCK : Reg := { base := 0x180008, fields := [⟨0, 0, .lock, 0, .none⟩] }

/-- CXL_HOLD, R293: [15:0] HOLD_MAX_US. -/
def CXL_HOLD : Reg := { base := 0x18000C, fields := [⟨15, 0, .rw, 0x5DC, .clamp 100 65535⟩] }

/-- CXL_PORT_STATUS, R293: [13:13] FLIT_LO; [12:12] IDE_IO; [11:11] IDE_MEM; [10:10] MLD; [9:5] WIDTH; [4:3] SPEED; [2:0] STATE. -/
def CXL_PORT_STATUS : Reg :=
  { base := 0x180010, count := 4, stride := 0x4,
    fields := [⟨13, 13, .ro, 0, .none⟩, ⟨12, 12, .ro, 0, .none⟩, ⟨11, 11, .ro, 0, .none⟩, ⟨10, 10, .ro, 0, .none⟩,
      ⟨9, 5, .ro, 0, .none⟩, ⟨4, 3, .ro, 0, .none⟩, ⟨2, 0, .ro, 0, .none⟩] }

/-- CXL_DROP_CNT, R293: [31:0] CNT. -/
def CXL_DROP_CNT : Reg := { base := 0x180020, fields := [⟨31, 0, .rw, 0, .none⟩] }

/-- CXL_POISON_CNT, R293: [31:0] CNT. -/
def CXL_POISON_CNT : Reg := { base := 0x180024, fields := [⟨31, 0, .rw, 0, .none⟩] }

/-- CXL_NOTHERE_CNT, R293: [31:0] CNT. -/
def CXL_NOTHERE_CNT : Reg := { base := 0x180028, fields := [⟨31, 0, .rw, 0, .none⟩] }

/-- CXL_CAUSE, R293: [7:7] GPF; [6:6] NOT_HERE; [5:5] READ_POISON; [4:4] WRITE_DROP; [3:3] SPDM_FAIL; [2:2] IDE_FAIL; [1:1] NARROW; [0:0] PORT_DOWN. -/
def CXL_CAUSE : Reg :=
  { base := 0x18002C,
    fields := [⟨7, 7, .rw, 0, .none⟩, ⟨6, 6, .rw, 0, .none⟩, ⟨5, 5, .rw, 0, .none⟩, ⟨4, 4, .rw, 0, .none⟩,
      ⟨3, 3, .rw, 0, .none⟩, ⟨2, 2, .rw, 0, .none⟩, ⟨1, 1, .ro, 0, .none⟩, ⟨0, 0, .ro, 0, .none⟩] }

/-- CXL_GPF_LAST, R293: [15:0] US. -/
def CXL_GPF_LAST : Reg := { base := 0x180030, fields := [⟨15, 0, .ro, 0, .none⟩] }

/-- The registers of block CXL. -/
def tableCXL : List Reg :=
  [CXL_CTRL, CXL_CFG, CXL_LOCK, CXL_HOLD, CXL_PORT_STATUS, CXL_DROP_CNT, CXL_POISON_CNT, CXL_NOTHERE_CNT, CXL_CAUSE, CXL_GPF_LAST]

/-! Block RDM, 12_rdma_ports. -/

/-- RDM_CTRL, R321: [0:0] EN; [1:1] SPRAY_EN; [2:2] CNP_EN; [3:3] RATE_EN. -/
def RDM_CTRL : Reg :=
  { base := 0x190000,
    fields := [⟨0, 0, .rw, 1, .none⟩, ⟨1, 1, .rw, 1, .none⟩, ⟨2, 2, .rw, 1, .none⟩, ⟨3, 3, .rw, 1, .none⟩] }

/-- RDM_STATUS, R321: [16:0] QPS. -/
def RDM_STATUS : Reg := { base := 0x190004, fields := [⟨16, 0, .ro, 0, .none⟩] }

/-- RDM_CC_DEC, R321: [7:0] DEC; [15:8] DEC_HOLD_US; [23:16] CNP_GAP_US. -/
def RDM_CC_DEC : Reg :=
  { base := 0x190008,
    fields := [⟨7, 0, .rw, 64, .min1⟩, ⟨15, 8, .rw, 50, .min1⟩, ⟨23, 16, .rw, 4, .min1⟩] }

/-- RDM_CC_INC, R321: [7:0] INC_PERIOD_US; [15:8] INC_STEP; [23:16] RATE_MIN. -/
def RDM_CC_INC : Reg :=
  { base := 0x19000C,
    fields := [⟨7, 0, .rw, 40, .min1⟩, ⟨15, 8, .rw, 10, .min1⟩, ⟨23, 16, .rw, 1, .min1⟩] }

/-- RDM_CTX_MISS_CNT, R321: [31:0] CNT. -/
def RDM_CTX_MISS_CNT : Reg := { base := 0x190010, fields := [⟨31, 0, .rw, 0, .none⟩] }

/-- RDM_NAK_CNT, R321: [15:0] NAKS; [31:16] SELNAKS. -/
def RDM_NAK_CNT : Reg := { base := 0x190014, fields := [⟨15, 0, .rw, 0, .none⟩, ⟨31, 16, .rw, 0, .none⟩] }

/-- RDM_DUP_CNT, R321: [31:0] CNT. -/
def RDM_DUP_CNT : Reg := { base := 0x190018, fields := [⟨31, 0, .rw, 0, .none⟩] }

/-- RDM_CNP_CNT, R321: [15:0] SENT; [31:16] RECEIVED. -/
def RDM_CNP_CNT : Reg := { base := 0x19001C, fields := [⟨15, 0, .rw, 0, .none⟩, ⟨31, 16, .rw, 0, .none⟩] }

/-- RDM_CAUSE, R321: [8:8] QP_FULL; [7:7] SPRAY_OVERRUN; [6:6] CM_REJ; [5:5] CQ_FULL; [4:4] CTX_LOST; [3:3] HOLE_NAK; [2:2] NOT_HERE; [1:1] ACCESS_NAK; [0:0] QP_ERROR. -/
def RDM_CAUSE : Reg :=
  { base := 0x190020,
    fields := [⟨8, 8, .ro, 0, .none⟩, ⟨7, 7, .rw, 0, .none⟩, ⟨6, 6, .rw, 0, .none⟩, ⟨5, 5, .rw, 0, .none⟩,
      ⟨4, 4, .rw, 0, .none⟩, ⟨3, 3, .rw, 0, .none⟩, ⟨2, 2, .rw, 0, .none⟩, ⟨1, 1, .rw, 0, .none⟩,
      ⟨0, 0, .rw, 0, .none⟩] }

/-- The registers of block RDM. -/
def tableRDM : List Reg :=
  [RDM_CTRL, RDM_STATUS, RDM_CC_DEC, RDM_CC_INC, RDM_CTX_MISS_CNT, RDM_NAK_CNT, RDM_DUP_CNT, RDM_CNP_CNT, RDM_CAUSE]

/-! Block ETH, 12_rdma_ports. -/

/-- ETH_PORT_CFG, R321: [15:0] MODES. -/
def ETH_PORT_CFG : Reg := { base := 0x1A0000, lock := some (0x1A0008, 0), fields := [⟨15, 0, .rwl, 0, .none⟩] }

/-- ETH_CTRL, R321: [7:0] PORT_EN. -/
def ETH_CTRL : Reg := { base := 0x1A0004, fields := [⟨7, 0, .rw, 255, .none⟩] }

/-- ETH_LOCK, R321: [0:0] CFG. -/
def ETH_LOCK : Reg := { base := 0x1A0008, fields := [⟨0, 0, .lock, 0, .none⟩] }

/-- ETH_PTP_MACS, R321: [31:0] MACS. -/
def ETH_PTP_MACS : Reg := { base := 0x1A000C, fields := [⟨31, 0, .rw, 0, .none⟩] }

/-- ETH_PTP_CTRL, R321: [7:0] DOMAIN; [9:8] TRANSPORT; [18:16] DREQ_RATE. -/
def ETH_PTP_CTRL : Reg :=
  { base := 0x1A0010,
    fields := [⟨7, 0, .rw, 0, .none⟩, ⟨9, 8, .rw, 0, .none⟩, ⟨18, 16, .rw, 4, .none⟩] }

/-- ETH_PTP_STATUS, R321: [4:0] MAC; [5:5] VALID. -/
def ETH_PTP_STATUS : Reg := { base := 0x1A0014, fields := [⟨4, 0, .ro, 0, .none⟩, ⟨5, 5, .ro, 0, .none⟩] }

/-- ETH_PTP_OFFSET, R321: [31:0] OFFSET. -/
def ETH_PTP_OFFSET : Reg := { base := 0x1A0018, fields := [⟨31, 0, .ro, 0, .none⟩] }

/-- ETH_MACSEC_CTRL, R321: [7:0] EN; [15:8] REQ. -/
def ETH_MACSEC_CTRL : Reg := { base := 0x1A0020, fields := [⟨7, 0, .rw, 0, .none⟩, ⟨15, 8, .rw, 0, .none⟩] }

/-- ETH_PFC, R321: [7:0] EN; [10:8] PRIO; [31:16] HEADROOM_KIB. -/
def ETH_PFC : Reg :=
  { base := 0x1A0024,
    fields := [⟨7, 0, .rw, 0, .none⟩, ⟨10, 8, .rw, 3, .none⟩, ⟨31, 16, .rw, 512, .clamp 64 2048⟩] }

/-- ETH_DSCP, R321: [5:0] ROCE; [13:8] CNP. -/
def ETH_DSCP : Reg := { base := 0x1A0028, fields := [⟨5, 0, .rw, 26, .none⟩, ⟨13, 8, .rw, 48, .none⟩] }

/-- ETH_MAC_STATUS, R321: [0:0] LINK_UP; [2:1] RATE; [3:3] MACSEC_UP. -/
def ETH_MAC_STATUS : Reg :=
  { base := 0x1A1000, count := 32, stride := 0x40,
    fields := [⟨0, 0, .ro, 0, .none⟩, ⟨2, 1, .ro, 0, .none⟩, ⟨3, 3, .ro, 0, .none⟩] }

/-- ETH_MAC_CAUSE, R321: [0:0] LINK_DOWN; [1:1] FEC_DEGRADE; [2:2] MACSEC_DOWN; [8:8] ICV_FAIL; [9:9] ICRC_FAIL; [10:10] PFC_STORM. -/
def ETH_MAC_CAUSE : Reg :=
  { base := 0x1A1004, count := 32, stride := 0x40,
    fields := [⟨0, 0, .ro, 0, .none⟩, ⟨1, 1, .ro, 0, .none⟩, ⟨2, 2, .ro, 0, .none⟩, ⟨8, 8, .rw, 0, .none⟩,
      ⟨9, 9, .rw, 0, .none⟩, ⟨10, 10, .rw, 0, .none⟩] }

/-- ETH_MAC_FEC_CNT, R321: [15:0] CORR; [31:16] UNCORR. -/
def ETH_MAC_FEC_CNT : Reg :=
  { base := 0x1A1008, count := 32, stride := 0x40,
    fields := [⟨15, 0, .rw, 0, .none⟩, ⟨31, 16, .rw, 0, .none⟩] }

/-- ETH_MAC_DROP_CNT, R321: [31:0] CNT. -/
def ETH_MAC_DROP_CNT : Reg := { base := 0x1A100C, count := 32, stride := 0x40, fields := [⟨31, 0, .rw, 0, .none⟩] }

/-- The registers of block ETH. -/
def tableETH : List Reg :=
  [ETH_PORT_CFG, ETH_CTRL, ETH_LOCK, ETH_PTP_MACS, ETH_PTP_CTRL, ETH_PTP_STATUS, ETH_PTP_OFFSET, ETH_MACSEC_CTRL, ETH_PFC, ETH_DSCP, ETH_MAC_STATUS, ETH_MAC_CAUSE] ++
  [ETH_MAC_FEC_CNT, ETH_MAC_DROP_CNT]

/-! Block DRM, 13_dram_bench. -/

/-- DRM_CTRL, R337: [0:0] EN; [1:1] SCRUB_EN; [2:2] RDP_EN; [3:3] NEAR2. -/
def DRM_CTRL : Reg :=
  { base := 0x170000,
    fields := [⟨0, 0, .rw, 1, .none⟩, ⟨1, 1, .rw, 1, .none⟩, ⟨2, 2, .rw, 1, .none⟩, ⟨3, 3, .rw, 0, .none⟩] }

/-- DRM_STATUS, R337: [2:0] STATE; [4:3] SPEED; [10:8] SETS. -/
def DRM_STATUS : Reg :=
  { base := 0x170004,
    fields := [⟨2, 0, .ro, 0, .none⟩, ⟨4, 3, .ro, 0, .none⟩, ⟨10, 8, .ro, 0, .none⟩] }

/-- DRM_MAP, R337: [9:8] SPARE_SET; [7:7] SPARE_EN; [6:5] DENSITY; [4:4] WIDTH; [3:3] RPD; [2:2] DPC; [1:0] ORDER. -/
def DRM_MAP : Reg :=
  { base := 0x170008,
    fields := [⟨9, 8, .rw, 0, .none⟩, ⟨7, 7, .rw, 0, .none⟩, ⟨6, 5, .rw, 0, .none⟩, ⟨4, 4, .rw, 0, .none⟩,
      ⟨3, 3, .rw, 0, .none⟩, ⟨2, 2, .rw, 0, .none⟩, ⟨1, 0, .rw, 0, .none⟩] }

/-- DRM_MAP_ACT, R337: [9:8] SPARE_SET; [7:7] SPARE_EN; [6:5] DENSITY; [4:4] WIDTH; [3:3] RPD; [2:2] DPC; [1:0] ORDER. -/
def DRM_MAP_ACT : Reg :=
  { base := 0x17000C,
    fields := [⟨9, 8, .ro, 0, .none⟩, ⟨7, 7, .ro, 0, .none⟩, ⟨6, 5, .ro, 0, .none⟩, ⟨4, 4, .ro, 0, .none⟩,
      ⟨3, 3, .ro, 0, .none⟩, ⟨2, 2, .ro, 0, .none⟩, ⟨1, 0, .ro, 0, .none⟩] }

/-- DRM_MAP_COMMIT, R337: [0:0] COMMIT; [1:1] ERR; [4:2] ERR_CAUSE. -/
def DRM_MAP_COMMIT : Reg :=
  { base := 0x170010,
    fields := [⟨0, 0, .wo, 0, .none⟩, ⟨1, 1, .ro, 0, .none⟩, ⟨4, 2, .ro, 0, .none⟩] }

/-- DRM_FREQ, R337: [0:0] SWITCH; [1:1] ERR; [2:2] FELL_BACK. -/
def DRM_FREQ : Reg :=
  { base := 0x170014,
    fields := [⟨0, 0, .wo, 0, .none⟩, ⟨1, 1, .ro, 0, .none⟩, ⟨2, 2, .ro, 0, .none⟩] }

/-- DRM_RT, R337: [7:0] PANIC_HI; [15:8] PANIC_LO. -/
def DRM_RT : Reg := { base := 0x170018, fields := [⟨7, 0, .rw, 75, .clamp 2 100⟩, ⟨15, 8, .rw, 25, .none⟩] }

/-- DRM_RDP, R337: [4:0] P. -/
def DRM_RDP : Reg := { base := 0x17001C, fields := [⟨4, 0, .rw, 11, .clamp 8 16⟩] }

/-- DRM_SCRUB, R337: [7:0] PASS_HOURS. -/
def DRM_SCRUB : Reg := { base := 0x170020, fields := [⟨7, 0, .rw, 24, .min1⟩] }

/-- DRM_SCRUB_STATUS, R337: [7:0] PCT; [27:8] EPOCH. -/
def DRM_SCRUB_STATUS : Reg := { base := 0x170024, fields := [⟨7, 0, .ro, 0, .none⟩, ⟨27, 8, .ro, 0, .none⟩] }

/-- DRM_SREQ_BASE_LO, R337: [31:16]. -/
def DRM_SREQ_BASE_LO : Reg := { base := 0x170028, half := .low, fields := [⟨31, 16, .rw, 0, .none⟩] }

/-- DRM_SREQ_BASE_HI, R337: [31:0]. -/
def DRM_SREQ_BASE_HI : Reg := { base := 0x17002C, half := .high, fields := [⟨31, 0, .rw, 0, .none⟩] }

/-- DRM_SREQ_LEN_LO, R337: [31:16]. -/
def DRM_SREQ_LEN_LO : Reg := { base := 0x170030, half := .low, fields := [⟨31, 16, .rw, 0, .none⟩] }

/-- DRM_SREQ_LEN_HI, R337: [31:0]. -/
def DRM_SREQ_LEN_HI : Reg := { base := 0x170034, half := .high, fields := [⟨31, 0, .rw, 0, .none⟩] }

/-- DRM_SREQ_CTRL, R337: [0:0] GO; [1:1] BUSY. -/
def DRM_SREQ_CTRL : Reg := { base := 0x170038, fields := [⟨0, 0, .wo, 0, .none⟩, ⟨1, 1, .ro, 0, .none⟩] }

/-- DRM_SREQ_CE, R337: [31:0] CNT. -/
def DRM_SREQ_CE : Reg := { base := 0x17003C, fields := [⟨31, 0, .ro, 0, .none⟩] }

/-- DRM_SREQ_UE, R337: [31:0] CNT. -/
def DRM_SREQ_UE : Reg := { base := 0x170040, fields := [⟨31, 0, .ro, 0, .none⟩] }

/-- DRM_SREQ_FIRST_UE_LO, R337: [31:0]. -/
def DRM_SREQ_FIRST_UE_LO : Reg := { base := 0x170044, half := .low, fields := [⟨31, 0, .ro, 0, .none⟩] }

/-- DRM_SREQ_FIRST_UE_HI, R337: [31:0]. -/
def DRM_SREQ_FIRST_UE_HI : Reg := { base := 0x170048, half := .high, fields := [⟨31, 0, .ro, 0, .none⟩] }

/-- DRM_RETIRE, R337: [15:0] CE_LIMIT; [23:16] COPY_PCT. -/
def DRM_RETIRE : Reg := { base := 0x17004C, fields := [⟨15, 0, .rw, 256, .min1⟩, ⟨23, 16, .rw, 25, .clamp 5 50⟩] }

/-- DRM_CE_CNT, R337: [31:0] CNT. -/
def DRM_CE_CNT : Reg := { base := 0x170050, fields := [⟨31, 0, .rw, 0, .none⟩] }

/-- DRM_UE_CNT, R337: [31:0] CNT. -/
def DRM_UE_CNT : Reg := { base := 0x170054, fields := [⟨31, 0, .rw, 0, .none⟩] }

/-- DRM_CAUSE, R337: [15:15] INJ_HIT; [14:14] FREQ_FAIL; [13:13] FREQ_DONE; [12:12] SREQ_DONE; [11:11] SCRUB_DONE; [10:10] RETIRED; [9:9] UE; [8:8] CE; [4:4] THERMAL; [3:3] DEGRADED; [2:2] SPARE_USED; [1:1] COPYING; [0:0] PANIC. -/
def DRM_CAUSE : Reg :=
  { base := 0x170058,
    fields := [⟨15, 15, .rw, 0, .none⟩, ⟨14, 14, .rw, 0, .none⟩, ⟨13, 13, .rw, 0, .none⟩, ⟨12, 12, .rw, 0, .none⟩,
      ⟨11, 11, .rw, 0, .none⟩, ⟨10, 10, .rw, 0, .none⟩, ⟨9, 9, .rw, 0, .none⟩, ⟨8, 8, .rw, 0, .none⟩,
      ⟨4, 4, .ro, 0, .none⟩, ⟨3, 3, .ro, 0, .none⟩, ⟨2, 2, .ro, 0, .none⟩, ⟨1, 1, .ro, 0, .none⟩,
      ⟨0, 0, .ro, 0, .none⟩] }

/-- DRM_RANK_SEL, R337: [2:0] CHAN; [4:3] RANK. -/
def DRM_RANK_SEL : Reg := { base := 0x17005C, fields := [⟨2, 0, .rw, 0, .none⟩, ⟨4, 3, .rw, 0, .none⟩] }

/-- DRM_RANK_INFO, R337: [2:0] STATE; [23:8] CES. -/
def DRM_RANK_INFO : Reg := { base := 0x170060, fields := [⟨2, 0, .ro, 0, .none⟩, ⟨23, 8, .ro, 0, .none⟩] }

/-- DRM_INJ_ADDR_LO, R337: [31:6]. -/
def DRM_INJ_ADDR_LO : Reg := { base := 0x170064, half := .low, fields := [⟨31, 6, .rw, 0, .none⟩] }

/-- DRM_INJ_ADDR_HI, R337: [31:0]. -/
def DRM_INJ_ADDR_HI : Reg := { base := 0x170068, half := .high, fields := [⟨31, 0, .rw, 0, .none⟩] }

/-- DRM_INJ_CTRL, R337: [0:0] ARM; [4:1] SYM_A; [8:5] SYM_B; [9:9] TWO; [10:10] COUNTED. -/
def DRM_INJ_CTRL : Reg :=
  { base := 0x17006C,
    fields := [⟨0, 0, .rw, 0, .none⟩, ⟨4, 1, .rw, 0, .none⟩, ⟨8, 5, .rw, 0, .none⟩, ⟨9, 9, .rw, 0, .none⟩,
      ⟨10, 10, .rw, 0, .none⟩] }

/-- DRM_INJ_FLIP_LO, R337: [31:0]. -/
def DRM_INJ_FLIP_LO : Reg := { base := 0x170070, half := .low, fields := [⟨31, 0, .rw, 0, .none⟩] }

/-- DRM_INJ_FLIP_HI, R337: [31:0]. -/
def DRM_INJ_FLIP_HI : Reg := { base := 0x170074, half := .high, fields := [⟨31, 0, .rw, 0, .none⟩] }

/-- DRM_TIM_SH, R337: [1:0] SPEED. -/
def DRM_TIM_SH : Reg := { base := 0x170100, fields := [⟨1, 0, .rw, 0, .none⟩] }

/-- DRM_TIM_SHW, R337: [23:0] PS. -/
def DRM_TIM_SHW : Reg := { base := 0x170104, count := 15, stride := 0x4, fields := [⟨23, 0, .rw, 0, .none⟩] }

/-- DRM_TIM_ACT, R337: [1:0] SPEED. -/
def DRM_TIM_ACT : Reg := { base := 0x170140, fields := [⟨1, 0, .ro, 0, .none⟩] }

/-- DRM_TIM_ACTW, R337: [23:0] PS. -/
def DRM_TIM_ACTW : Reg := { base := 0x170144, count := 15, stride := 0x4, fields := [⟨23, 0, .ro, 0, .none⟩] }

/-- DRM_CH_CAUSE, R337: [0:0] TRAIN_FAIL; [1:1] CA_PARITY; [2:2] SB_FAIL. -/
def DRM_CH_CAUSE : Reg :=
  { base := 0x170200, count := 8, stride := 0x4,
    fields := [⟨0, 0, .ro, 0, .none⟩, ⟨1, 1, .rw, 0, .none⟩, ⟨2, 2, .ro, 0, .none⟩] }

/-- The registers of block DRM. -/
def tableDRM : List Reg :=
  [DRM_CTRL, DRM_STATUS, DRM_MAP, DRM_MAP_ACT, DRM_MAP_COMMIT, DRM_FREQ, DRM_RT, DRM_RDP, DRM_SCRUB, DRM_SCRUB_STATUS, DRM_SREQ_BASE_LO, DRM_SREQ_BASE_HI] ++
  [DRM_SREQ_LEN_LO, DRM_SREQ_LEN_HI, DRM_SREQ_CTRL, DRM_SREQ_CE, DRM_SREQ_UE, DRM_SREQ_FIRST_UE_LO, DRM_SREQ_FIRST_UE_HI, DRM_RETIRE, DRM_CE_CNT, DRM_UE_CNT, DRM_CAUSE, DRM_RANK_SEL] ++
  [DRM_RANK_INFO, DRM_INJ_ADDR_LO, DRM_INJ_ADDR_HI, DRM_INJ_CTRL, DRM_INJ_FLIP_LO, DRM_INJ_FLIP_HI, DRM_TIM_SH, DRM_TIM_SHW, DRM_TIM_ACT, DRM_TIM_ACTW, DRM_CH_CAUSE]

/-! Block MBX, 14_command_channels. -/

/-- MBX_CTRL, R344: [0:0] MODE; [1:1] IN_RESET; [2:2] OUT_IE. -/
def MBX_CTRL : Reg :=
  { base := 0x080000, count := 64, stride := 0x1000,
    fields := [⟨0, 0, .ro, 0, .none⟩, ⟨1, 1, .wo, 0, .none⟩, ⟨2, 2, .rw, 1, .none⟩] }

/-- MBX_STATUS, R344: [6:0] IN_COUNT; [14:8] OUT_COUNT; [16:16] COLLIDE; [17:17] DOORBELL_PEND; [18:18] ASSIGNED; [19:19] SECURE; [23:20] PENDING_OPS; [24:24] LEGACY_GO. -/
def MBX_STATUS : Reg :=
  { base := 0x080004, count := 64, stride := 0x1000,
    fields := [⟨6, 0, .ro, 0, .none⟩, ⟨14, 8, .ro, 0, .none⟩, ⟨16, 16, .ro, 0, .none⟩, ⟨17, 17, .ro, 0, .none⟩,
      ⟨18, 18, .ro, 0, .none⟩, ⟨19, 19, .ro, 0, .none⟩, ⟨23, 20, .ro, 0, .none⟩, ⟨24, 24, .ro, 0, .none⟩] }

/-- MBX_IN, R344: [31:0] WORD. -/
def MBX_IN : Reg := { base := 0x080008, count := 64, stride := 0x1000, fields := [⟨31, 0, .wo, 0, .none⟩] }

/-- MBX_DOORBELL, R344: [31:0] GO. -/
def MBX_DOORBELL : Reg := { base := 0x08000C, count := 64, stride := 0x1000, fields := [⟨31, 0, .wo, 0, .none⟩] }

/-- MBX_OUT_POP, R344: [31:0] K. -/
def MBX_OUT_POP : Reg := { base := 0x080010, count := 64, stride := 0x1000, fields := [⟨31, 0, .wo, 0, .none⟩] }

/-- MBX_SESSION, R344: [31:0] SESSION. -/
def MBX_SESSION : Reg := { base := 0x080014, count := 64, stride := 0x1000, fields := [⟨31, 0, .ro, 0, .none⟩] }

/-- MBX_SEQ, R344: [15:0] SEQ. -/
def MBX_SEQ : Reg := { base := 0x080018, count := 64, stride := 0x1000, fields := [⟨15, 0, .ro, 0, .none⟩] }

/-- MBX_CAUSE, R344: [0:0] COLLIDED; [1:1] NOTIFY_DROP; [2:2] REASSIGNED. -/
def MBX_CAUSE : Reg :=
  { base := 0x08001C, count := 64, stride := 0x1000,
    fields := [⟨0, 0, .rw, 0, .none⟩, ⟨1, 1, .rw, 0, .none⟩, ⟨2, 2, .rw, 0, .none⟩] }

/-- The registers of block MBX. -/
def tableMBX : List Reg :=
  [MBX_CTRL, MBX_STATUS, MBX_IN, MBX_DOORBELL, MBX_OUT_POP, MBX_SESSION, MBX_SEQ, MBX_CAUSE]

/-! Block SEC, 15_security_lifecycle. -/

/-- SEC_CTRL, R396: [3:0] UNLOCK_TRIES. -/
def SEC_CTRL : Reg := { base := 0x1B0000, fields := [⟨3, 0, .rw, 8, .min1⟩] }

/-- SEC_STATUS, R396: [12:0] KEYS_LOADED; [13:13] TRNG_OK; [14:14] ERASING. -/
def SEC_STATUS : Reg :=
  { base := 0x1B0004,
    fields := [⟨12, 0, .ro, 0, .none⟩, ⟨13, 13, .ro, 0, .none⟩, ⟨14, 14, .ro, 0, .none⟩] }

/-- SEC_SLOT_SEL, R396: [11:0] RID. -/
def SEC_SLOT_SEL : Reg := { base := 0x1B0008, fields := [⟨11, 0, .rw, 0, .none⟩] }

/-- SEC_SLOT_INFO, R396: [1:0] STATE; [2:2] SHARE_REQUIRED; [3:3] LOADED; [4:4] LOCKED; [15:8] FAILS. -/
def SEC_SLOT_INFO : Reg :=
  { base := 0x1B000C,
    fields := [⟨1, 0, .ro, 0, .none⟩, ⟨2, 2, .ro, 0, .none⟩, ⟨3, 3, .ro, 0, .none⟩, ⟨4, 4, .ro, 0, .none⟩,
      ⟨15, 8, .ro, 0, .none⟩] }

/-- SEC_UNLOCK_FAIL_CNT, R396: [31:0] CNT. -/
def SEC_UNLOCK_FAIL_CNT : Reg := { base := 0x1B0010, fields := [⟨31, 0, .rw, 0, .none⟩] }

/-- SEC_TRNG_CNT, R396: [15:0] CNT. -/
def SEC_TRNG_CNT : Reg := { base := 0x1B0014, fields := [⟨15, 0, .rw, 0, .none⟩] }

/-- SEC_CAUSE, R396: [7:7] AUTH_FAIL; [6:6] SPDM_FAIL; [5:5] UNLOCK_FAIL; [4:4] KEY_LOST; [3:3] KEYSTORE_ECC; [2:2] UNLOCK_HOLD; [1:1] ERASING; [0:0] TRNG_FAIL. -/
def SEC_CAUSE : Reg :=
  { base := 0x1B0018,
    fields := [⟨7, 7, .rw, 0, .none⟩, ⟨6, 6, .rw, 0, .none⟩, ⟨5, 5, .rw, 0, .none⟩, ⟨4, 4, .rw, 0, .none⟩,
      ⟨3, 3, .rw, 0, .none⟩, ⟨2, 2, .ro, 0, .none⟩, ⟨1, 1, .ro, 0, .none⟩, ⟨0, 0, .ro, 0, .none⟩] }

/-- The registers of block SEC. -/
def tableSEC : List Reg :=
  [SEC_CTRL, SEC_STATUS, SEC_SLOT_SEL, SEC_SLOT_INFO, SEC_UNLOCK_FAIL_CNT, SEC_TRNG_CNT, SEC_CAUSE]

/-! Block LCS, 15_security_lifecycle. -/

/-- LCS_STATUS, R396: [2:0] STATE; [4:3] ROP; [5:5] DEBUG_OPEN; [6:6] ERASE_PENDING. -/
def LCS_STATUS : Reg :=
  { base := 0x1C0000,
    fields := [⟨2, 0, .ro, 0, .none⟩, ⟨4, 3, .ro, 0, .none⟩, ⟨5, 5, .ro, 0, .none⟩, ⟨6, 6, .ro, 0, .none⟩] }

/-- LCS_CTRL, R396: [0:0] ROP_RAISE; [1:1] DEBUG_CLOSE. -/
def LCS_CTRL : Reg := { base := 0x1C0004, fields := [⟨0, 0, .wo, 0, .none⟩, ⟨1, 1, .wo, 0, .none⟩] }

/-- LCS_OTP_STATUS, R396: [0:0] BUSY; [1:1] GROUP_REPAIR. -/
def LCS_OTP_STATUS : Reg := { base := 0x1C0008, fields := [⟨0, 0, .ro, 0, .none⟩, ⟨1, 1, .ro, 0, .none⟩] }

/-- LCS_CAUSE, R396: [5:5] DEBUG_FAIL; [4:4] ROP_LOWERED; [3:3] OTP_FAIL; [2:2] LC_CHANGED; [1:1] ERASE_PENDING; [0:0] DEBUG_OPEN. -/
def LCS_CAUSE : Reg :=
  { base := 0x1C000C,
    fields := [⟨5, 5, .rw, 0, .none⟩, ⟨4, 4, .rw, 0, .none⟩, ⟨3, 3, .rw, 0, .none⟩, ⟨2, 2, .rw, 0, .none⟩,
      ⟨1, 1, .ro, 0, .none⟩, ⟨0, 0, .ro, 0, .none⟩] }

/-- The registers of block LCS. -/
def tableLCS : List Reg :=
  [LCS_STATUS, LCS_CTRL, LCS_OTP_STATUS, LCS_CAUSE]

/-! Block FLS, 16_flash_nvstore_events. -/

/-- FLS_CTRL, R426: [0:0] SUSP_EN. -/
def FLS_CTRL : Reg := { base := 0x050000, fields := [⟨0, 0, .rw, 1, .none⟩] }

/-- FLS_STATUS, R426: [2:0] OP; [3:3] BAND; [7:4] WS_EFF; [10:8] PART. -/
def FLS_STATUS : Reg :=
  { base := 0x050004,
    fields := [⟨2, 0, .ro, 0, .none⟩, ⟨3, 3, .ro, 0, .none⟩, ⟨7, 4, .ro, 0, .none⟩, ⟨10, 8, .ro, 0, .none⟩] }

/-- FLS_WAIT, R426: [3:0] WS; [5:4] CLK. -/
def FLS_WAIT : Reg := { base := 0x050008, fields := [⟨3, 0, .rw, 3, .none⟩, ⟨5, 4, .rw, 0, .none⟩] }

/-- FLS_MIN_RUN, R426: [15:0] US. -/
def FLS_MIN_RUN : Reg := { base := 0x05000C, fields := [⟨15, 0, .rw, 300, .clamp 50 10000⟩] }

/-- FLS_FAIL_CNT, R426: [15:0] PROG; [31:16] ERASE. -/
def FLS_FAIL_CNT : Reg := { base := 0x050010, fields := [⟨15, 0, .rw, 0, .none⟩, ⟨31, 16, .rw, 0, .none⟩] }

/-- FLS_SLOT, R426: [0:0] ACTIVE; [1:1] TRIAL; [3:2] RESTARTS; [5:4] BOOT_SRC; [15:8] ARB; [31:16] COMPAT. -/
def FLS_SLOT : Reg :=
  { base := 0x050014,
    fields := [⟨0, 0, .ro, 0, .none⟩, ⟨1, 1, .ro, 0, .none⟩, ⟨3, 2, .ro, 0, .none⟩, ⟨5, 4, .ro, 0, .none⟩,
      ⟨15, 8, .ro, 0, .none⟩, ⟨31, 16, .ro, 0, .none⟩] }

/-- FLS_CAUSE, R426: [0:0] PROG_FAIL; [1:1] ERASE_FAIL; [2:2] SLOT_FALLBACK; [3:3] VAULT_LOSS; [4:4] DIE_RESET; [5:5] FW_DONE; [6:6] WS_FLOOR. -/
def FLS_CAUSE : Reg :=
  { base := 0x050018,
    fields := [⟨0, 0, .rw, 0, .none⟩, ⟨1, 1, .rw, 0, .none⟩, ⟨2, 2, .rw, 0, .none⟩, ⟨3, 3, .rw, 0, .none⟩,
      ⟨4, 4, .rw, 0, .none⟩, ⟨5, 5, .rw, 0, .none⟩, ⟨6, 6, .ro, 0, .none⟩] }

/-- FLS_CORE_CAUSE, R426: [0:0] RESTART; [1:1] EXCEPTION; [2:2] MEM_UE; [3:3] ACTIVATED; [4:4] CONFIRMED; [5:5] REVERTED; [6:6] RECOVERY. -/
def FLS_CORE_CAUSE : Reg :=
  { base := 0x05001C,
    fields := [⟨0, 0, .rw, 0, .none⟩, ⟨1, 1, .rw, 0, .none⟩, ⟨2, 2, .rw, 0, .none⟩, ⟨3, 3, .rw, 0, .none⟩,
      ⟨4, 4, .rw, 0, .none⟩, ⟨5, 5, .rw, 0, .none⟩, ⟨6, 6, .ro, 0, .none⟩] }

/-- FLS_RESTART_CNT, R426: [31:0] CNT. -/
def FLS_RESTART_CNT : Reg := { base := 0x050020, fields := [⟨31, 0, .rw, 0, .none⟩] }

/-- The registers of block FLS. -/
def tableFLS : List Reg :=
  [FLS_CTRL, FLS_STATUS, FLS_WAIT, FLS_MIN_RUN, FLS_FAIL_CNT, FLS_SLOT, FLS_CAUSE, FLS_CORE_CAUSE, FLS_RESTART_CNT]

/-! Block NVS, 16_flash_nvstore_events. -/

/-- NVS_CTRL, R426: [7:0] KEEP_HOURS; [8:8] KEEP_EN. -/
def NVS_CTRL : Reg := { base := 0x040000, aon := true, fields := [⟨7, 0, .rw, 24, .min1⟩, ⟨8, 8, .rw, 1, .none⟩] }

/-- NVS_KEEP_STATUS, R426: [19:0] WORD; [20:20] RUN. -/
def NVS_KEEP_STATUS : Reg :=
  { base := 0x040004, aon := true,
    fields := [⟨19, 0, .ro, 0, .none⟩, ⟨20, 20, .ro, 0, .none⟩] }

/-- NVS_KEEP_LAST, R426: [19:0] EPOCH. -/
def NVS_KEEP_LAST : Reg := { base := 0x040008, aon := true, fields := [⟨19, 0, .ro, 0, .none⟩] }

/-- NVS_CE_CNT, R426: [31:0] CNT. -/
def NVS_CE_CNT : Reg := { base := 0x04000C, aon := true, fields := [⟨31, 0, .rw, 0, .none⟩] }

/-- NVS_REWRITE_CNT, R426: [31:0] CNT. -/
def NVS_REWRITE_CNT : Reg := { base := 0x040010, aon := true, fields := [⟨31, 0, .rw, 0, .none⟩] }

/-- NVS_UE_CNT, R426: [31:0] CNT. -/
def NVS_UE_CNT : Reg := { base := 0x040014, aon := true, fields := [⟨31, 0, .rw, 0, .none⟩] }

/-- NVS_WSTAMP_LO, R426: [31:0]. -/
def NVS_WSTAMP_LO : Reg := { base := 0x040018, aon := true, half := .low, fields := [⟨31, 0, .ro, 0, .none⟩] }

/-- NVS_WSTAMP_HI, R426: [31:0]. -/
def NVS_WSTAMP_HI : Reg := { base := 0x04001C, aon := true, half := .high, fields := [⟨31, 0, .ro, 0, .none⟩] }

/-- NVS_CAUSE, R426: [0:0] CE; [1:1] UE; [2:2] KEEPER_REWRITE; [3:3] TWIN_TIE; [4:4] RECORD_LOST; [5:5] RING_LOST. -/
def NVS_CAUSE : Reg :=
  { base := 0x040020, aon := true,
    fields := [⟨0, 0, .rw, 0, .none⟩, ⟨1, 1, .rw, 0, .none⟩, ⟨2, 2, .rw, 0, .none⟩, ⟨3, 3, .rw, 0, .none⟩,
      ⟨4, 4, .rw, 0, .none⟩, ⟨5, 5, .rw, 0, .none⟩] }

/-- The registers of block NVS. -/
def tableNVS : List Reg :=
  [NVS_CTRL, NVS_KEEP_STATUS, NVS_KEEP_LAST, NVS_CE_CNT, NVS_REWRITE_CNT, NVS_UE_CNT, NVS_WSTAMP_LO, NVS_WSTAMP_HI, NVS_CAUSE]

/-! Block EVR, 16_flash_nvstore_events. -/

/-- EVR_CTRL, R426: [0:0] EN. -/
def EVR_CTRL : Reg := { base := 0x060000, aon := true, fields := [⟨0, 0, .rw, 1, .none⟩] }

/-- EVR_NEWEST, R426: [31:0] INDEX. -/
def EVR_NEWEST : Reg := { base := 0x060004, aon := true, fields := [⟨31, 0, .ro, 0, .none⟩] }

/-- EVR_OLDEST, R426: [31:0] INDEX. -/
def EVR_OLDEST : Reg := { base := 0x060008, aon := true, fields := [⟨31, 0, .ro, 0, .none⟩] }

/-- EVR_ARCHIVED, R426: [31:0] INDEX. -/
def EVR_ARCHIVED : Reg := { base := 0x06000C, aon := true, fields := [⟨31, 0, .ro, 0, .none⟩] }

/-- EVR_LOST_CNT, R426: [31:0] CNT. -/
def EVR_LOST_CNT : Reg := { base := 0x060010, aon := true, fields := [⟨31, 0, .rw, 0, .none⟩] }

/-- EVR_SUPP_CNT, R426: [31:0] CNT. -/
def EVR_SUPP_CNT : Reg := { base := 0x060014, aon := true, fields := [⟨31, 0, .rw, 0, .none⟩] }

/-- EVR_CODE_SEL, R426: [9:0] CODE. -/
def EVR_CODE_SEL : Reg := { base := 0x060018, aon := true, fields := [⟨9, 0, .rw, 0, .none⟩] }

/-- EVR_CODE_RATE, R426: [7:0] RATE. -/
def EVR_CODE_RATE : Reg := { base := 0x06001C, aon := true, fields := [⟨7, 0, .rw, 60, .none⟩] }

/-- EVR_CODE_BURST, R426: [5:0] BURST; [13:8] TOKENS; [23:16] LIST. -/
def EVR_CODE_BURST : Reg :=
  { base := 0x060020, aon := true,
    fields := [⟨5, 0, .rw, 15, .none⟩, ⟨13, 8, .ro, 16, .none⟩, ⟨23, 16, .ro, 0, .none⟩] }

/-- EVR_LIST_SEL, R426: [7:0] LIST. -/
def EVR_LIST_SEL : Reg := { base := 0x060024, aon := true, fields := [⟨7, 0, .rw, 0, .none⟩] }

/-- EVR_CAUSE, R426: [0:0] OVERWRITE; [1:1] ARCHIVE_FAIL; [2:2] SUPPRESSING. -/
def EVR_CAUSE : Reg :=
  { base := 0x060028, aon := true,
    fields := [⟨0, 0, .rw, 0, .none⟩, ⟨1, 1, .rw, 0, .none⟩, ⟨2, 2, .ro, 0, .none⟩] }

/-- EVR_LIST, R426: [23:2] OFFSET; [31:31] VALID. -/
def EVR_LIST : Reg :=
  { base := 0x060100, count := 8, stride := 0x4, aon := true,
    fields := [⟨23, 2, .ro, 0, .none⟩, ⟨31, 31, .ro, 0, .none⟩] }

/-- The registers of block EVR. -/
def tableEVR : List Reg :=
  [EVR_CTRL, EVR_NEWEST, EVR_OLDEST, EVR_ARCHIVED, EVR_LOST_CNT, EVR_SUPP_CNT, EVR_CODE_SEL, EVR_CODE_RATE, EVR_CODE_BURST, EVR_LIST_SEL, EVR_CAUSE, EVR_LIST]

/-! Block WDG, 16_flash_nvstore_events. -/

/-- WDG_CTRL, R426: [0:0] EN; [1:1] LOCK. -/
def WDG_CTRL : Reg :=
  { base := 0x070000, aon := true, lock := some (0x070000, 1),
    fields := [⟨0, 0, .rwl, 1, .none⟩, ⟨1, 1, .lock, 0, .none⟩] }

/-- WDG_STAGE1, R426: [15:0] MS. -/
def WDG_STAGE1 : Reg :=
  { base := 0x070004, aon := true, lock := some (0x070000, 1),
    fields := [⟨15, 0, .rwl, 0x7D0, .clamp 100 65535⟩] }

/-- WDG_STAGE2, R426: [15:0] MS. -/
def WDG_STAGE2 : Reg :=
  { base := 0x070008, aon := true, lock := some (0x070000, 1),
    fields := [⟨15, 0, .rwl, 0x3E8, .clamp 100 65535⟩] }

/-- WDG_KICK, R426: [31:0] KICK. -/
def WDG_KICK : Reg := { base := 0x07000C, aon := true, fields := [⟨31, 0, .wo, 0, .none⟩] }

/-- WDG_STATUS, R426: [1:0] STAGE; [2:2] HOLD; [31:16] MS. -/
def WDG_STATUS : Reg :=
  { base := 0x070010, aon := true,
    fields := [⟨1, 0, .ro, 0, .none⟩, ⟨2, 2, .ro, 0, .none⟩, ⟨31, 16, .ro, 0, .none⟩] }

/-- WDG_CAUSE, R426: [0:0] STAGE1; [1:1] STAGE2; [2:2] FLASH_HOLD; [3:3] OVERRUN. -/
def WDG_CAUSE : Reg :=
  { base := 0x070014, aon := true,
    fields := [⟨0, 0, .rw, 0, .none⟩, ⟨1, 1, .rw, 0, .none⟩, ⟨2, 2, .rw, 0, .none⟩, ⟨3, 3, .rw, 0, .none⟩] }

/-- The registers of block WDG. -/
def tableWDG : List Reg :=
  [WDG_CTRL, WDG_STAGE1, WDG_STAGE2, WDG_KICK, WDG_STATUS, WDG_CAUSE]

/-! Block PSQ, 17_power_supervision. -/

/-- PSQ_CTRL, R448: [0:0] AUTO_ON; [1:1] IDLE_EN; [2:2] PB_EN. -/
def PSQ_CTRL : Reg :=
  { base := 0x030000, aon := true,
    fields := [⟨0, 0, .rw, 1, .none⟩, ⟨1, 1, .rw, 1, .none⟩, ⟨2, 2, .rw, 1, .none⟩] }

/-- PSQ_STATUS, R448: [12:12] MR_N; [11:11] PB_N; [10:10] DRAIN_DONE; [9:9] INPUT_GOOD; [8:8] FAULT_N; [7:5] ATTEMPT; [4:4] BURST; [3:0] PSTATE. -/
def PSQ_STATUS : Reg :=
  { base := 0x030004, aon := true,
    fields := [⟨12, 12, .ro, 0, .none⟩, ⟨11, 11, .ro, 0, .none⟩, ⟨10, 10, .ro, 0, .none⟩, ⟨9, 9, .ro, 0, .none⟩,
      ⟨8, 8, .ro, 0, .none⟩, ⟨7, 5, .ro, 0, .none⟩, ⟨4, 4, .ro, 0, .none⟩, ⟨3, 0, .ro, 0, .none⟩] }

/-- PSQ_CFG, R448: [2:0] N_SEQ_RETRY; [15:8] T_OFF_MIN; [23:16] IDLE_DELAY; [31:24] OFF_DWELL. -/
def PSQ_CFG : Reg :=
  { base := 0x030008, aon := true, lock := some (0x03000C, 0),
    fields := [⟨2, 0, .rwl, 3, .none⟩, ⟨15, 8, .rwl, 10, .min1⟩, ⟨23, 16, .rwl, 10, .min1⟩,
      ⟨31, 24, .rwl, 10, .min1⟩] }

/-- PSQ_LOCK, R448: [0:0] SEQ. -/
def PSQ_LOCK : Reg := { base := 0x03000C, aon := true, fields := [⟨0, 0, .lock, 0, .none⟩] }

/-- PSQ_EN, R448: [23:0] EN. -/
def PSQ_EN : Reg := { base := 0x030010, aon := true, fields := [⟨23, 0, .ro, 0, .none⟩] }

/-- PSQ_PG, R448: [23:0] PG. -/
def PSQ_PG : Reg := { base := 0x030014, aon := true, fields := [⟨23, 0, .ro, 0, .none⟩] }

/-- PSQ_CAUSE, R448: [13:13] VAON_UP; [12:12] GROUP_DOWN; [11:11] STATE_CHANGE; [10:10] COMMIT_ERR; [9:9] CROSSED; [8:8] TRIP; [7:7] THROTTLE; [6:6] MR; [5:5] PB_FORCED; [4:4] PB_SHORT; [3:3] INPUT_LOW; [2:2] INPUT_COLLAPSE; [1:1] SEQ_FAIL; [0:0] LOCKOUT. -/
def PSQ_CAUSE : Reg :=
  { base := 0x030018, aon := true,
    fields := [⟨13, 13, .rw, 0, .none⟩, ⟨12, 12, .ro, 0, .none⟩, ⟨11, 11, .rw, 0, .none⟩, ⟨10, 10, .rw, 0, .none⟩,
      ⟨9, 9, .rw, 0, .none⟩, ⟨8, 8, .rw, 0, .none⟩, ⟨7, 7, .ro, 0, .none⟩, ⟨6, 6, .rw, 0, .none⟩,
      ⟨5, 5, .rw, 0, .none⟩, ⟨4, 4, .rw, 0, .none⟩, ⟨3, 3, .ro, 0, .none⟩, ⟨2, 2, .rw, 0, .none⟩,
      ⟨1, 1, .rw, 0, .none⟩, ⟨0, 0, .ro, 0, .none⟩] }

/-- PSQ_TJ, R448: [7:0] TJ. -/
def PSQ_TJ : Reg := { base := 0x03001C, aon := true, fields := [⟨7, 0, .ro, 128, .none⟩] }

/-- PSQ_REACTION0, R448: [31:0] RX. -/
def PSQ_REACTION0 : Reg :=
  { base := 0x030020, aon := true, lock := some (0x03000C, 0),
    fields := [⟨31, 0, .rwl, 0xAAAFD57F, .none⟩] }

/-- PSQ_REACTION1, R448: [15:0] RX. -/
def PSQ_REACTION1 : Reg :=
  { base := 0x030024, aon := true, lock := some (0x03000C, 0),
    fields := [⟨15, 0, .rwl, 234, .none⟩] }

/-- PSQ_RETRY0, R448: [31:0] N. -/
def PSQ_RETRY0 : Reg :=
  { base := 0x030028, aon := true, lock := some (0x03000C, 0),
    fields := [⟨31, 0, .rwl, 0x3333000, .mask 0x77777777⟩] }

/-- PSQ_RETRY1, R448: [31:0] N. -/
def PSQ_RETRY1 : Reg :=
  { base := 0x03002C, aon := true, lock := some (0x03000C, 0),
    fields := [⟨31, 0, .rwl, 0, .mask 0x77777777⟩] }

/-- PSQ_RETRY2, R448: [31:0] N. -/
def PSQ_RETRY2 : Reg :=
  { base := 0x030030, aon := true, lock := some (0x03000C, 0),
    fields := [⟨31, 0, .rwl, 0, .mask 0x77777777⟩] }

/-- PSQ_SEQ_COMMIT, R448: [0:0] COMMIT; [1:1] ERR; [3:2] ERR_CAUSE. -/
def PSQ_SEQ_COMMIT : Reg :=
  { base := 0x030034, aon := true,
    fields := [⟨0, 0, .wo, 0, .none⟩, ⟨1, 1, .ro, 0, .none⟩, ⟨3, 2, .ro, 0, .none⟩] }

/-- PSQ_MGMAP0, R448: [29:0] MAP. -/
def PSQ_MGMAP0 : Reg :=
  { base := 0x030038, aon := true, lock := some (0x03000C, 0),
    fields := [⟨29, 0, .rwl, 0x1EE6B16A, .none⟩] }

/-- PSQ_MGMAP1, R448: [14:0] MAP. -/
def PSQ_MGMAP1 : Reg :=
  { base := 0x03003C, aon := true, lock := some (0x03000C, 0),
    fields := [⟨14, 0, .rwl, 0x4A30, .none⟩] }

/-- PSQ_MGMAP_ACT0, R448: [29:0] MAP. -/
def PSQ_MGMAP_ACT0 : Reg := { base := 0x030040, aon := true, fields := [⟨29, 0, .ro, 0x1EE6B16A, .none⟩] }

/-- PSQ_MGMAP_ACT1, R448: [14:0] MAP. -/
def PSQ_MGMAP_ACT1 : Reg := { base := 0x030044, aon := true, fields := [⟨14, 0, .ro, 0x4A30, .none⟩] }

/-- PSQ_MGMAP_COMMIT, R448: [0:0] COMMIT; [1:1] ERR; [4:2] ERR_CAUSE. -/
def PSQ_MGMAP_COMMIT : Reg :=
  { base := 0x030048, aon := true,
    fields := [⟨0, 0, .wo, 0, .none⟩, ⟨1, 1, .ro, 0, .none⟩, ⟨4, 2, .ro, 0, .none⟩] }

/-- PSQ_VIN, R448: [7:0] VIN_QUAL_MS. -/
def PSQ_VIN : Reg := { base := 0x03004C, aon := true, fields := [⟨7, 0, .rw, 10, .min1⟩] }

/-- PSQ_LAST_FAULT, R448: [4:0] SLOT; [6:5] REACTION; [9:7] RETRY; [10:10] ESCALATED. -/
def PSQ_LAST_FAULT : Reg :=
  { base := 0x030050, aon := true,
    fields := [⟨4, 0, .ro, 0, .none⟩, ⟨6, 5, .ro, 0, .none⟩, ⟨9, 7, .ro, 0, .none⟩, ⟨10, 10, .ro, 0, .none⟩] }

/-- PSQ_RAIL_STATUS, R448: [19:16] RETRIES; [15:8] GLITCHES; [4:4] PG; [3:3] EN; [2:0] STATE. -/
def PSQ_RAIL_STATUS : Reg :=
  { base := 0x030500, count := 24, stride := 0x4, aon := true,
    fields := [⟨19, 16, .ro, 0, .none⟩, ⟨15, 8, .ro, 0, .none⟩, ⟨4, 4, .ro, 0, .none⟩, ⟨3, 3, .ro, 0, .none⟩,
      ⟨2, 0, .ro, 0, .none⟩] }

/-- PSQ_RAIL_CAUSE, R448: [0:0] RAMP_FAIL; [1:1] CHATTER; [2:2] FAULT; [3:3] GLITCH; [4:4] DOWN. -/
def PSQ_RAIL_CAUSE : Reg :=
  { base := 0x030580, count := 24, stride := 0x4, aon := true,
    fields := [⟨0, 0, .rw, 0, .none⟩, ⟨1, 1, .rw, 0, .none⟩, ⟨2, 2, .rw, 0, .none⟩, ⟨3, 3, .rw, 0, .none⟩,
      ⟨4, 4, .ro, 0, .none⟩] }

/-- The registers of block PSQ. -/
def tablePSQ : List Reg :=
  [PSQ_CTRL, PSQ_STATUS, PSQ_CFG, PSQ_LOCK, PSQ_EN, PSQ_PG, PSQ_CAUSE, PSQ_TJ, PSQ_REACTION0, PSQ_REACTION1, PSQ_RETRY0, PSQ_RETRY1] ++
  [PSQ_RETRY2, PSQ_SEQ_COMMIT, PSQ_MGMAP0, PSQ_MGMAP1, PSQ_MGMAP_ACT0, PSQ_MGMAP_ACT1, PSQ_MGMAP_COMMIT, PSQ_VIN, PSQ_LAST_FAULT, PSQ_RAIL_STATUS, PSQ_RAIL_CAUSE]

/-! Block TOPID, 18_electrical_package. -/

/-- TOP_ID_PART, R462: [31:24] PKG_REV; [23:16] DIE_REV; [15:0] PART. -/
def TOP_ID_PART : Reg :=
  { base := 0x000000,
    fields := [⟨31, 24, .ro, 1, .none⟩, ⟨23, 16, .ro, 161, .none⟩, ⟨15, 0, .ro, 0x7144, .none⟩] }

/-- TOP_ID_LOT, R462: [31:0] LOT. -/
def TOP_ID_LOT : Reg := { base := 0x000004, fields := [⟨31, 0, .ro, 0, .none⟩] }

/-- TOP_ID_WAFER, R462: [31:0] WAFER. -/
def TOP_ID_WAFER : Reg := { base := 0x000008, fields := [⟨31, 0, .ro, 0, .none⟩] }

/-- TOP_ID_DATE, R462: [31:0] DATE. -/
def TOP_ID_DATE : Reg := { base := 0x00000C, fields := [⟨31, 0, .ro, 0, .none⟩] }

/-- TOP_ID_UID, R462: [31:0] UID. -/
def TOP_ID_UID : Reg := { base := 0x000010, count := 4, stride := 0x4, fields := [⟨31, 0, .ro, 0, .none⟩] }

/-- TOP_ID_SKU, R462: [0:0] EXT_TEMP. -/
def TOP_ID_SKU : Reg := { base := 0x000020, fields := [⟨0, 0, .ro, 0, .none⟩] }

/-- The registers of block TOPID. -/
def tableTOPID : List Reg :=
  [TOP_ID_PART, TOP_ID_LOT, TOP_ID_WAFER, TOP_ID_DATE, TOP_ID_UID, TOP_ID_SKU]

/-- Every register of the CSR window that has a row of fields here. -/
def table : List Reg :=
  tableTOP ++ tableEVT ++ tableECC ++ tableTLY ++ tableQCH ++ tableTSL ++
  tableYRW ++ tableEYB ++ tablePBF ++ tableTDM ++ tableXLT ++ tableCXL ++
  tableRDM ++ tableETH ++ tableDRM ++ tableMBX ++ tableSEC ++ tableLCS ++
  tableFLS ++ tableNVS ++ tableEVR ++ tableWDG ++ tablePSQ ++ tableTOPID

end Reg

end Sys2Proof.Machine
end

