-- ==== Sys2Proof/Machine/State.lean ====
section
/-! DEFINITION. The whole state of one GW7144 controller as plain data, and the state a supply-less controller has before any
command. The parts are described where their structures are defined; each field below names the chapter it belongs to. -/

namespace Sys2Proof.Machine

/-- One GW7144 controller.
`regs` are the CSR words that software or firmware writes, by offset (chapter 2; an offset that is not listed reads as its
reset value); `csr` the latches around them; `evt` event causes and interrupt routing; `ecc` and `sched` the SRAM check and the
Tally scheduler of chapter 3, `tally` its time; `nv`, `evr`, `wdg` and `flash` chapter 16; `psq` the power sequencer of chapter
17; `chans` the command channels of chapter 14 by number; `med` the medium of chapters 4 to 7; `bench` and `xlt` chapters 8 and
10; `twin` chapter 9; `cxl` and `rdma` chapters 11 and 12; `sec` chapter 15; `dram` chapter 13. `out` lists what the controller
has sent to the outside, newest first; `fresh` is the model's own counter of free values drawn; `pending` the commands that
wait, oldest first. -/
structure State where
  regs : Tab Word := []
  csr : Csr := {}
  evt : Evt := {}
  ecc : Ecc := {}
  tally : Tally := {}
  sched : Sched := {}
  nv : Nv := {}
  evr : Evr := {}
  wdg : Wdg := {}
  flash : Flash := {}
  psq : Psq := {}
  chans : Tab Chan := []
  med : Medium := {}
  bench : Bench := {}
  xlt : Xlt := {}
  twin : Twin := {}
  cxl : Cxl := {}
  rdma : Rdma := {}
  sec : Sec := {}
  dram : Dram := {}
  out : List Out := []
  fresh : Nat := 0
  pending : List Instr := []
  deriving DecidableEq, Repr

/-- Why a command has no meaning. -/
inductive Refusal where
  /-- Raised by the dispatch of a command that the model does not reach; no arm raises it. Safe. -/
  | notModelled (mnemonic : String)
  deriving DecidableEq, Repr

/-- Why the block stops. No command of the spec stops the block (a command that may not act is turned away with the reply,
record or silence the spec gives it), so there is no constructor. Safe. -/
inductive Fault where
  deriving DecidableEq, Repr

/-- The command channels at reset: channel 0 belongs to the shelf manager, in legacy mode, with every right (R338); the others
have no principal. -/
def channelsAtReset : Tab Chan := [(0, { who := .shelf, legacy := true, rights := 0x7F })]

/-- The controller before any command: the always-on supply absent, and every part at its reset value. VAON_POWER_UP starts
it. -/
def State.reset : State := { chans := channelsAtReset }

end Sys2Proof.Machine
end

