-- ==== Sys2Proof/Machine/Reads.lean ====
section
/-! DEFINITION. What the other files read off the state: register words and their fields, the parts a command or a status register
names, and the counts and levels computed from them. -/

namespace Sys2Proof.Machine

/-- The bits [hi:lo] of a word as a number. -/
def bitsOf (w : Word) (hi lo : Nat) : Nat := (w.toNat / 2 ^ lo) % 2 ^ (hi - lo + 1)

/-- The word that register `k` of array `r` holds. -/
def State.reg (s : State) (r : Reg) (k : Nat := 0) : Word := Tab.get r.resetWord s.regs (r.at k)

/-- Field [hi:lo] of a register. -/
def State.fld (s : State) (r : Reg) (k hi lo : Nat) : Nat := bitsOf (s.reg r k) hi lo

/-- The die that stands for the unknown place of a sett whose entry was lost (R249): no die of the device. -/
def lostDie : Nat := 2304

/-- The sources whose causes lie in the always-on domain (Table 2-5). -/
def aonSource (n : Nat) : Bool :=
  (328 ≤ n && n ≤ 391) || (416 ≤ n && n ≤ 419) || (428 ≤ n && n ≤ 431)

/-- Command channel `c`. -/
def State.chan (s : State) (c : Nat) : Chan := Tab.get {} s.chans c

/-- The 48-bit write-stamp (R407). -/
def State.wstamp (s : State) : Nat := (Tab.get {} s.nv.rings Config.ringWstamp).value * 2 ^ 24 + s.nv.commits.toNat

/-- The floor as a Tally value, fraction 0 (Table 3-2). -/
def Floor.tally (f : Floor) : Dword := f.secs.setWidth 64 <<< 16

/-- The code of TLY_STATUS.TRUST (Table 3-3). -/
def Trust.code : Trust → Nat
  | .untrusted => 0
  | .provisional => 1
  | .trusted => 2

/-- The code of TLY_STATUS.SOURCE (Table 3-3). -/
def TimeSource.code : TimeSource → Nat
  | .none => 0
  | .ptp => 1
  | .secure => 2
  | .twin => 3
  | .holdover => 4
  | .holdoverPps => 5

/-- TLY_STATUS, Table 3-3. -/
def tlyStatus (t : Tally) : Word :=
  BitVec.ofNat 32 (t.catchup.toNat * 1024 + t.started.toNat * 512 + t.ppsLock.toNat * 256 + t.disagree.toNat * 128 +
    t.jumpPending.toNat * 64 + t.trust.code * 16 + t.source.code)

/-- Schedule slot `k`. -/
def State.slot (s : State) (k : Nat) : Slot := Tab.get {} s.sched.slots k

/-- The minimum wait states of Table 16-3 for a flash clock code and a VDD_IO band. -/
def minWait (clk : Nat) (low : Bool) : Nat :=
  match clk, low with
  | 0, false => 2
  | 0, true => 3
  | 1, false => 4
  | 1, true => 5
  | 2, false => 5
  | 2, true => 6
  | _, false => 6
  | _, true => 8

/-- The wait states in force, and WS_FLOOR while they are the table's (R399). -/
def State.flashWait (s : State) : Nat :=
  max (s.fld Reg.FLS_WAIT 0 3 0) (minWait (s.fld Reg.FLS_WAIT 0 5 4) s.flash.lowBand)

/-- The oldest readable index: the clear index, or the oldest entry that archive or ring still holds (R414 to R416). -/
def State.evrOldest (s : State) : BitVec 32 :=
  let low : BitVec 32 := BitVec.ofNat 32 (s.evr.next.toNat - min s.evr.next.toNat 16384)
  let arch := (s.flash.pages.filterMap fun p => match p.data with
    | .events (e :: _) => if p.bad then none else some e.index
    | _ => none).head?
  let held := match arch with
    | some i => if i < low then i else low
    | none => low
  if held < s.evr.clear then s.evr.clear else held

/-- The code of PSQ_STATUS.PSTATE (Table 17-6). -/
def PState.code : PState → Nat
  | .dormant => 0
  | .poweringUp => 1
  | .active => 2
  | .idle => 3
  | .enteringKeep => 4
  | .keep => 5
  | .leavingKeep => 6
  | .poweringDown => 7
  | .lockout => 8

/-- Rail `k`. -/
def State.rail (s : State) (k : Nat) : Rail := Tab.get {} s.psq.rails k

/-- FAULT_N is low (R435): LOCKOUT, a failed attempt of a power-up or KEEP leave, a group held down, or a thermal trip. -/
def State.faultLow (s : State) : Bool :=
  s.psq.pstate == .lockout || decide (s.psq.attempt ≠ 0) || s.psq.groupsDown != 0 || s.psq.heldGroups != 0 || s.psq.tripHold

/-- Channels 0 to 7 are secure (Table 14-1). -/
def secureChan (c : Nat) : Bool := decide (c < 8)

/-- Quarry channel `n`. -/
def State.qc (s : State) (n : Nat) : QChan := Tab.get {} s.med.chans n

/-- Medium group `g`. -/
def State.qg (s : State) (g : Nat) : QGroup := Tab.get {} s.med.groups g

/-- Die `d`, by die index (R120). -/
def State.die (s : State) (d : Nat) : Die := Tab.get {} s.med.dies d

/-- The translation entry of logical sett `n`. -/
def State.sett (s : State) (n : Nat) : Sett := Tab.get {} s.med.setts n

/-- The channel of a die index. -/
def State.dieChan (d : Nat) : Nat := d / 16

/-- A die is in service: it answered IDENTIFY, is not failed, and its channel is ACTIVE or asleep. -/
def State.dieUp (s : State) (d : Nat) : Bool :=
  let c := s.qc (dieChan d)
  (s.die d).identified && !(s.die d).failed && (c.lstate == .active || c.lstate == .sleep)

/-- The indices of the dies that hold state, in rising order. -/
def State.dieIds (s : State) : List Nat := s.med.dies.map Prod.fst

/-- The in-service dies. -/
def State.diesUp (s : State) : List Nat := s.dieIds.filter fun d => s.dieUp d

/-- The valid entries of the young-map table (YMAP_STATUS.USED). -/
def State.youngUsed (s : State) : Nat := (s.med.young.map fun p => p.2.length).foldl (· + ·) 0

/-- CH_UP: the channels of a group that are ACTIVE or asleep (Table 4-15). -/
def State.chUp (s : State) (g : Nat) : Nat :=
  ((List.range 16).map fun k =>
    let l := (s.qc (16 * g + k)).lstate
    if l == .active || l == .sleep then 2 ^ k else 0).foldl (· + ·) 0

/-- Region record `r`. -/
def State.region (s : State) (r : Nat) : Region := Tab.get {} s.xlt.regions r

/-- The twin state of region `r`. -/
def State.rt (s : State) (r : Nat) : RTwin := Tab.get {} s.twin.regions r

/-- The valid region ids, rising. -/
def State.regionIds (s : State) : List Nat := (s.xlt.regions.filter fun p => p.2.valid).map Prod.fst

/-- The region that owns a logical sett and the region sett it is (R235, R237). -/
def State.ownerOf (s : State) (n : Nat) : Option (Nat × Nat) :=
  s.xlt.regions.findSome? fun p =>
    if p.2.valid then
      match p.2.extents.findIdx? fun e => e == n / 16384 with
      | some i => some (p.1, i * 16384 + n % 16384)
      | none => none
    else none

/-- The key slot of region `r`. -/
def State.keySlot (s : State) (r : Nat) : KeySlot := Tab.get {} s.sec.slots r

/-- The drain dies in service: DIE 0 of each package on an ACTIVE channel of an in-service group, rising (R191). -/
def State.drainDies (s : State) : List Nat :=
  s.med.chans.flatMap fun p =>
    if (p.2.lstate == .active || p.2.lstate == .sleep) && (s.qg (p.1 / 16)).inService then
      (if p.2.pkg0 ≠ 0 ∧ !(s.die (p.1 * 16)).failed then [p.1 * 16] else []) ++
        (if p.2.pkg1 ≠ 0 ∧ !(s.die (p.1 * 16 + 8)).failed then [p.1 * 16 + 8] else [])
    else []

/-- D. -/
def State.drainD (s : State) : Nat := s.drainDies.length

/-- J, the limit on live journal frames (R195). -/
def State.jLimit (s : State) : Nat := min 4096 (25 * s.drainD)

/-- PBF_PARTIAL.LIMIT (R195). -/
def State.partialLimit (s : State) : Nat := 8 * s.jLimit

/-- PBF_DRAIN_LIMIT (R195). -/
def State.drainLimit (s : State) : Nat := min 98304 ((400 * s.drainD - 2 * s.jLimit) * 16 / 17)

/-- PBF_CAP_EFF.CAP (R195). -/
def State.capEff (s : State) : Nat := min (s.fld Reg.PBF_CAP 0 16 0) s.drainLimit

/-- PBF_DIRTY.LINES: dirty cache lines and occupied buffer slots. -/
def State.dirtyLines (s : State) : Nat :=
  (s.bench.lines.filter fun p => match p.2 with
    | some b => b.state == .dirty || b.state == .wb
    | none => false).length +
  (s.bench.scbs.map fun b => (b.slots.filter fun x => x.use != .freed).length).foldl (· + ·) 0

/-- The admission level of a dirty count (Table 8-3): 0 FREE, 1 THROTTLE, 2 HOST_STOP, 3 FULL. -/
def State.levelOf (s : State) (n : Nat) : Nat :=
  let c := s.capEff
  if c ≤ n then 3
  else if c * s.fld Reg.PBF_THR 0 12 8 / 24 ≤ n then 2
  else if c * s.fld Reg.PBF_THR 0 4 0 / 24 ≤ n then 1
  else 0

/-- PBF_STATUS.ADMIT. -/
def State.admitLevel (s : State) : Nat := s.levelOf s.dirtyLines

/-- XLT_JRNL.LIVE (R246). -/
def State.jLive (s : State) : Nat :=
  if s.xlt.jrnl.recs.isEmpty then 0 else (s.xlt.jrnl.nextPlace + 7) / 8 - s.xlt.jrnl.oldest

/-- The sett slots of a zone (Table 6-2). -/
def slotCap : Mode → Nat
  | .none => 0
  | .m2 => 8192
  | .m3 => 12288
  | .m4 => 16384

/-- The number of line programs a WEAR code stands for (R133). -/
def wearN (c : BitVec 16) : Nat :=
  let e := c.toNat / 2048
  let m := c.toNat % 2048
  if e = 0 then m else (2048 + m) * 2 ^ (e - 1)

/-- Zone `z` of die `d`. -/
def State.zone (s : State) (d z : Nat) : Zone := Tab.get {} s.med.zones (d * 64 + z)

/-- The line programs into the non-Spoil slots of a die, and their number (R139): their quotient is the mean n. DESIGN CHOICE (log entry 130): the slots
of a zone that was never opened in a mode are not counted; the spec does not say how many slots such a zone has. -/
def State.dieTotals (s : State) (d : Nat) : Nat × Nat :=
  let zs := (List.range 62).map fun z => s.zone d z
  ((zs.map fun v => (v.slots.map fun p => if p.2.spoil then 0 else wearN p.2.wear).foldl (· + ·) 0).foldl (· + ·) 0,
    (zs.map fun v => slotCap v.mode - (v.slots.filter fun p => p.2.spoil).length).foldl (· + ·) 0)

/-- One mean is below another, each as a total and a number. -/
def meanLess (a b : Nat × Nat) : Bool := decide (a.1 * max 1 b.2 < b.1 * max 1 a.2)

/-- The mean line programs per non-Spoil slot of a die, times 1,000 (R124, R139), truncated. -/
def State.dieMean (s : State) (d : Nat) : Nat := (s.dieTotals d).1 * 1000 / max 1 (s.dieTotals d).2

/-- Spoil slots over the in-service dies (YRW_SPOIL_CNT). -/
def State.spoilCount (s : State) : Nat :=
  (s.med.zones.map fun p => if s.dieUp (p.1 / 64) then (p.2.slots.filter fun q => q.2.spoil).length else 0).foldl (· + ·) 0

/-- The code of a capacity state (YRW_SPARE.CAP_STATE). -/
def State.capCode : Cap → Nat
  | .notComputed => 0
  | .green => 1
  | .amber => 2
  | .red => 3

/-- A SHARE_REQUIRED region without its key is LOCKED (R374); REGION_LOCK takes effect at its ROS, before the key goes (R377). -/
def State.locked (s : State) (r : Nat) : Bool := (s.keySlot r).shareRequired && (!(s.keySlot r).loaded || (s.keySlot r).locking)

/-- The objects of a region sett whose hint is live (R255). -/
def State.liveObjects (s : State) (r i : Nat) : List (Nat × Object) :=
  s.xlt.objects.filter fun p => p.2.region == r && decide (p.2.first ≤ i ∧ i < p.2.first + p.2.count) &&
    decide (s.tally.now >>> 16 < (p.2.expiry.setWidth 64 : Dword))

/-- A sett's rank (R255): 3 KEEP, 2 STREAM, 1 COLD, 0 NONE; a free value where Table 14-10 leaves it undefined (R366). -/
def State.rankOf (s : State) (n : Nat) : Nat :=
  match s.ownerOf n with
  | none => 0
  | some (r, i) =>
    let os := s.liveObjects r i
    let sec := s.tally.now.toNat / 2 ^ 16
    if os.length ≠ 1 ∧ os.any (fun p => decide (sec + 2 ^ 40 < p.2.expiry.toNat)) then (Config.undefinedRank n sec).toNat
    else (os.map fun p => match p.2.hint with
      | .keep => 3
      | .stream => 2
      | .cold => 1
      | .none => 0).foldl max 0

/-- The code of a pair state (Table 9-12). -/
def PairState.code : PairState → Nat
  | .unpaired => 0
  | .attesting => 1
  | .paired => 2
  | .lost => 3
  | .detached => 4
  | .parked => 5

/-- The life-cycle state of five OTP groups of 16 bits (R387). -/
def lifeOf (g : BitVec 80) : LifeState :=
  let blown (k : Nat) : Bool := (g >>> (16 * k)).setWidth 16 != 0#16
  let n := ((List.range 5).takeWhile blown).length
  if (List.range 5).any fun k => decide (n < k) && blown k then .ended
  else match n with
    | 0 => .test
    | 1 => .maker
    | 2 => .fieldOpen
    | 3 => .fieldLocked
    | 4 => .returned
    | _ => .ended

/-- The code of a life-cycle state (Table 15-7). -/
def LifeState.code : LifeState → Nat
  | .test => 0
  | .maker => 1
  | .fieldOpen => 2
  | .fieldLocked => 3
  | .returned => 4
  | .ended => 5

/-- The life-cycle state. -/
def State.life (s : State) : LifeState := lifeOf s.sec.groups

/-- The class of a kind of work (Table 6-6); 0 for what is no work of Yarrow's queue. -/
def classOf : WorkKind → Nat
  | .remap => 1
  | .rebuild true => 2
  | .onset _ => 3
  | .bandHeld => 4
  | .refresh => 5
  | .rebuild false => 6
  | .bandOccupancy => 7
  | .bandLog => 7
  | .wear _ _ => 8
  | .zoneOut => 8
  | .convert _ => 9
  | .placed => 0
  | .resync => 0

/-- The pass of group `g`. -/
def State.pass (s : State) (g : Nat) : Pass := Tab.get {} s.med.passes g

/-- DRM_STATUS.STATE (Table 13-5). -/
def DramState.code : DramState → Nat
  | .unconfigured => 0
  | .training => 1
  | .ready => 2
  | .switching => 3
  | .selfRefresh => 4
  | .failed => 5

/-- DRM_RANK_INFO.STATE (Table 13-5). -/
def RankState.code : RankState → Nat
  | .absent => 0
  | .inService => 1
  | .spare => 2
  | .copying => 3
  | .retired => 4
  | .trainFailed => 5

/-- Rank `k` of channel `c`. -/
def State.rank (s : State) (c k : Nat) : Rank := Tab.get {} s.dram.ranks (c * 4 + k)

/-- Rank set `k` is in service: every channel has a rank that serves it. -/
def State.setUp (s : State) (k : Nat) : Bool :=
  (List.range 8).all fun c => (List.range 4).any fun j =>
    let r := s.rank c j
    r.set == k && (r.st == .inService || r.st == .copying)

/-- DRM_STATUS.SETS. -/
def State.setsUp (s : State) : Nat := ((List.range 4).filter fun k => s.setUp k).length

/-- The anti-rollback counter against which the boot engine judges images. -/
def State.arb (s : State) : Nat := s.sec.arb

end Sys2Proof.Machine
end

