-- ==== Sys2Proof/Machine/Views.lean ====
section
/-! DEFINITION. What a read of the CSR window returns: the registers whose content is a part of the structured state (status views, R52,
R90, R120, R150, R170, R201, R234, R267, R293, R321, R337, R344, R396, R426, R448, R462), and every other register as it is held. -/

namespace Sys2Proof.Machine

/-- A field value at its place in a word. -/
def at_ (lo : Nat) (v : Nat) : Nat := v * 2 ^ lo

/-- A word of fields, each given with its place. -/
def wordOf (fs : List Nat) : Word := BitVec.ofNat 32 (fs.foldl (· + ·) 0)

/-- A count in a field of `w` bits, saturating. -/
def satTo (w n : Nat) : Nat := min n (2 ^ w - 1)

/-- A temperature as a signed byte. -/
def tempByte (t : Int) : Nat := (BitVec.ofInt 8 t).toNat

/-- The WEAR code of a number of line programs (R133), the largest code not above it. -/
def wearCode (n : Nat) : Nat :=
  if n < 2048 then n
  else
    let e := Nat.log2 n - 10
    min 0xFFFF (e * 2048 + (n / 2 ^ (e - 1) - 2048))

/-- LSTATE (Table 4-13). -/
def LState.code : LState → Nat
  | .off => 0
  | .detect => 1
  | .train => 2
  | .active => 3
  | .recovery => 4
  | .down => 5
  | .sleep => 6

/-- EYB_STATUS.STATE. -/
def EybState.code : EybState → Nat
  | .idle => 0
  | .powerup => 1
  | .cal => 2
  | .sweep => 3
  | .reload => 4

/-- PBF_STATUS.DOMAIN. -/
def Domain.code : Domain → Nat
  | .closed => 0
  | .replaying => 1
  | .opened => 2
  | .draining => 3
  | .drained => 4

/-- XLT_STATUS.LOAD. -/
def LoadPhase.code : LoadPhase → Nat
  | .empty => 0
  | .beforeOpen => 1
  | .journal => 2
  | .background => 3
  | .loaded => 4

/-- STATE of CXL_PORT_STATUS (Table 11-9). -/
def CxlState.code : CxlState → Nat
  | .disabled => 0
  | .detect => 1
  | .training => 2
  | .l0 => 3
  | .recovery => 4
  | .l1 => 5
  | .heldNarrow => 6

/-- STATE of a key slot (Table 15-4). -/
def KeyState.code : KeyState → Nat
  | .empty => 0
  | .awaitingShare => 1
  | .active => 2
  | .erasing => 3

/-- FLS_STATUS.OP. -/
def FlashState.code : FlashState → Nat
  | .idle => 0
  | .program => 1
  | .erase => 2
  | .suspended => 3
  | .held => 4

/-- FLS_STATUS.PART. -/
def FlashPart.code : FlashPart → Nat
  | .boot => 0
  | .slotA => 1
  | .slotB => 2
  | .config => 3
  | .vault => 4

/-- FLS_SLOT.BOOT_SRC. -/
def BootSrc.code : BootSrc → Nat
  | .active => 0
  | .other => 1
  | .recovery => 2
  | .loader => 3

/-- WDG_STATUS.STAGE. -/
def WdgStage.code : WdgStage → Nat
  | .stage1 => 0
  | .stage2 => 1
  | .paused => 2
  | .disabled => 3

/-- STATE of PSQ_RAIL_STATUS (Table 17-13). -/
def RailState.code : RailState → Nat
  | .off => 0
  | .wait => 1
  | .ramp => 2
  | .qual => 3
  | .on => 4
  | .failed => 5
  | .down => 6

/-- SCH_CTRL.RESULT (Table 3-4). -/
def FireResult.code : FireResult → Nat
  | .none => 0
  | .done => 1
  | .busy => 2
  | .held => 3
  | .missed => 4

/-- The always-on block an offset lies in, as TOP_AON_STATUS numbers it (R31). -/
def aonBlock (off : Nat) : Nat :=
  match off / 65536 with
  | 2 => 0
  | 3 => 1
  | 4 => 2
  | 6 => 3
  | _ => 4

namespace State

/-! ### Status views by block -/

/-- TOP_AON_STATUS (R31): the blocks with a posted write not yet applied. A write still held at its requester's bus is not posted. -/
def wpend (s : State) : Word := s.csr.posted.foldl (fun w p => w ||| BitVec.twoPow 32 (aonBlock p.off)) 0

/-- The word k of a 512-bit vector. -/
def evtWord (v : BitVec 512) (k : Nat) : Word := (v >>> (32 * k)).setWidth 32

/-- EVT_SUMMARY. -/
def evtSummary (s : State) : Word :=
  (List.range 16).foldl (fun (w : Word) k => if evtWord s.evt.pend k = 0 then w else w ||| BitVec.twoPow 32 k) 0

/-- ECC_STAT[k].UE (R43): an uncorrected error of memory `k` of Table 2-8 awaits its repair. Bench 0 data and the partial-line table wait for the
twin's copy of the line, the control-core memory for the restart, and the journal for its entries to be rebuilt; the other memories are repaired
as the error is found. -/
def eccAwaits (s : State) (k : Nat) : Bool :=
  let held := s.twin.assists.filter fun a => a.why == .bench
  match k with
  | 0 => held.any fun a => !s.ecc.part.contains a.line
  | 5 => s.flash.cores == .restarting
  | 6 => s.ecc.jrnl.any fun n => (s.sett n).phys.any fun (p : Phys) => p.die == lostDie
  | 7 => held.any fun a => s.ecc.part.contains a.line
  | _ => false

/-- Every in-service die has its tables loaded (R112). -/
def tablesLoaded (s : State) : Bool := s.diesUp.all fun d => (s.die d).tables

/-- EYB_STATUS.TABLES_READY (R112): 0 while no die is in service, as at reset (Table 5-8). -/
def tablesReady (s : State) : Bool := !s.diesUp.isEmpty && s.tablesLoaded

/-- EYB_STATUS.STATE (Table 5-8): what Eyebright does on the in-service dies. DESIGN CHOICE (log entry 116): of several activities the one that
stands first of SWEEP, POWERUP, CAL and RELOAD shows. -/
def eybState (s : State) : EybState :=
  let any (p : Die → Bool) : Bool := s.diesUp.any fun d => p (s.die d)
  if any fun d => d.sweep then .sweep
  else if s.med.eyb == .powerup then .powerup
  else if any fun d => d.calDue then .cal
  else if any fun d => d.loads != 0 then .reload
  else .idle

/-! ### The outputs of the event fabric (R38, R39) -/

/-- EVT_N is driven low (R39): a pending source whose EN and EVTN are set, under GLOBAL_EN. The always-on domain judges its own sources by its own
copies, whatever the main domain's state. -/
def evtnLow (s : State) : Bool :=
  let routed (n : Nat) : Bool := let r := s.reg Reg.EVT_ROUTE n; r.getLsbD 0 && r.getLsbD 4
  (s.psq.mainUp && (s.reg Reg.EVT_CTRL).getLsbD 0 && (List.range 512).any fun n => !aonSource n && s.evt.pend.getLsbD n && routed n) ||
    (s.psq.vaon && s.evt.aonGlobal && s.evt.aonPend &&& s.evt.aonEn &&& s.evt.aonEvtn != 0)

/-- The control cores' interrupt from the fabric (R36, R38): a pending source whose EN and CORE are set, under GLOBAL_EN. -/
def coreIrq (s : State) : Bool :=
  s.psq.mainUp && (s.reg Reg.EVT_CTRL).getLsbD 0 &&
    (List.range 512).any fun n => let r := s.reg Reg.EVT_ROUTE n; s.evt.pend.getLsbD n && r.getLsbD 0 && r.getLsbD 6

/-- PBF_STATUS. -/
def pbfStatus (s : State) : Word := wordOf [s.bench.domain.code, at_ 4 s.admitLevel]

/-- TDM_STATUS (Table 9-12). -/
def tdmStatus (s : State) : Word :=
  let t := s.twin
  wordOf [t.pair.code, at_ 4 (t.p0.st == .up).toNat, at_ 5 (t.p1.st == .up).toNat, at_ 6 t.timeSender.toNat,
    at_ 16 (if t.pair == .unpaired then 0 else t.peerCompat.toNat)]

/-- YRW_SPARE. -/
def yrwSpare (s : State) : Word := wordOf [s.med.yarrow.spareBp, at_ 16 (capCode s.med.yarrow.cap)]

/-- TDM_REGION_INFO of a region (Table 9-14), 0 for an id that names none. -/
def tdmRegionInfo (s : State) (r : Nat) : Word :=
  let v := s.rt r
  if !(s.region r).valid then 0
  else wordOf [v.home.toNat, at_ 1 v.fenced.toNat, at_ 2 v.solo.toNat, at_ 3 v.target.toNat, at_ 4 v.source.toNat,
    at_ 5 (v.held || v.strictRefuse).toNat, at_ 6 v.noHome.toNat, at_ 7 (s.region r).strict.toNat]

/-- PSQ_STATUS (Table 17-11). -/
def psqStatus (s : State) : Word :=
  let p := s.psq
  wordOf [p.pstate.code, at_ 4 p.burst.isSome.toNat, at_ 5 (satTo 3 p.attempt), at_ 8 (!s.faultLow).toNat, at_ 9 p.inputGood.toNat,
    at_ 10 p.drainDone.toNat, at_ 11 (!p.pbLow).toNat, at_ 12 (!p.mrLow).toNat]

/-- The levels of PSEQ_PG. -/
def pgLevels (s : State) : Word := (List.range 24).foldl (fun (w : Word) k => if (s.rail k).pg then w ||| BitVec.twoPow 32 k else w) 0

/-- The levels of PSEQ_EN. -/
def enLevels (s : State) : Word := (List.range 24).foldl (fun (w : Word) k => if (s.rail k).en then w ||| BitVec.twoPow 32 k else w) 0

/-- QC_STATUS (Table 4-13). -/
def qcStatus (s : State) (n : Nat) : Word :=
  let c := s.qc n
  wordOf [c.lstate.code, at_ 4 (c.lstate == .down).toNat, at_ 5 c.stormBit.toNat, at_ 6 c.exhBit.toNat]

/-- QG_STATUS (Table 4-15). -/
def qgStatus (s : State) (g : Nat) : Word :=
  let v := s.qg g
  wordOf [s.chUp g, at_ 16 v.inService.toNat, at_ 17 v.sbOk.toNat, at_ 18 v.alert.toNat, at_ 19 v.invBad.toNat, at_ 20 v.overtemp.toNat]

/-- QG_TEMP: the hottest package, the lowest of equals. -/
def qgTemp (s : State) (g : Nat) : Word :=
  match (s.qg g).packages.foldl (fun (best : Option (Nat × Int)) p => match best with
      | none => some (p.1, p.2.temp)
      | some b => if b.2 < p.2.temp then some (p.1, p.2.temp) else some b) none with
  | some (i, t) => wordOf [tempByte t, at_ 8 i]
  | none => 0

/-- The percent of a group's pass done. -/
def passPct (p : Pass) : Nat :=
  if !p.running then 0 else if p.total = 0 then 100 else (p.total - (p.order.length + p.again.length)) * 100 / p.total

/-- Setts of failed dies not yet rebuilt (R166). -/
def rebuildLeft (s : State) : Nat := (s.med.rebuild ++ (s.med.yarrow.moves.filterMap fun m => match m.kind with
  | .rebuild _ => some m.lsett
  | _ => none)).dedup.length

/-- TSL_STATUS. -/
def tslStatus (s : State) : Word :=
  let busy (g : Nat) : Bool := (s.pass g).running
  let burst := s.psq.burst.isSome
  let groups := ((List.range 9).map fun g => if busy g || s.psq.burst == some (Fin.ofNat 9 g) then 2 ^ g else 0).foldl (· + ·) 0
  wordOf [if burst then 2 else if (List.range 9).any busy then 1 else 0, at_ 8 groups]

/-- The slots of a die that are not in the Spoil, with their programs. -/
def dieTopWear (s : State) (d : Nat) : Nat :=
  ((List.range 64).flatMap fun z => (s.zone d z).slots.map fun p => p.2.wear.toNat).foldl max 0

/-- Setts still to be committed or sent by resyncs (TDM_RESYNC_STATUS). -/
def resyncLeft (s : State) : Nat :=
  (s.regionIds.map fun r => let v := s.rt r; if v.source then v.todo.length else if v.target then v.left else 0).foldl (· + ·) 0

/-- CXL_PORT_STATUS (Table 11-9). -/
def cxlStatus (s : State) (p : Nat) : Word :=
  let v := Tab.get ({} : CxlPort) s.cxl.ports p
  wordOf [v.st.code, at_ 3 v.speed, at_ 5 v.width, at_ 10 v.mld.toNat, at_ 11 v.ideMem.toNat, at_ 12 v.ideIo.toNat, at_ 13 v.flitLo.toNat]

/-- ETH_MAC_STATUS. -/
def macStatus (s : State) (m : Nat) : Word :=
  let v := Tab.get ({} : Mac) s.rdma.macs m
  wordOf [v.up.toNat, at_ 1 (if v.up then v.rate else 0), at_ 3 v.sa.toNat]

/-- MBX_STATUS (Table 14-3). DOORBELL_PEND is 1 while a packet of the page has not been taken (R345, R356, R357). -/
def mbxStatus (s : State) (c : Nat) : Word :=
  let h := s.chan c
  if h.legacy then wordOf [at_ 16 h.collide.toNat, at_ 18 (h.who != .none).toNat, at_ 19 (secureChan c).toNat, at_ 20 h.ops.length, at_ 24 h.lgo.toNat]
  else wordOf [h.inQ.length, at_ 8 (min 64 h.outQ.length), at_ 16 h.collide.toNat, at_ 17 h.bell.toNat, at_ 18 (h.who != .none).toNat,
    at_ 19 (secureChan c).toNat, at_ 20 h.ops.length]

/-- SEC_SLOT_INFO of a region. -/
def slotInfoWord (s : State) (r : Nat) : Word :=
  let k := s.keySlot r
  wordOf [k.state.code, at_ 2 k.shareRequired.toNat, at_ 3 k.loaded.toNat, at_ 4 (s.locked r).toNat, at_ 8 (satTo 8 k.fails)]

/-- LCS_STATUS. -/
def lcsStatus (s : State) : Word :=
  wordOf [s.life.code, at_ 3 s.sec.rop.val, at_ 5 s.sec.debugOpen.toNat, at_ 6 (s.sec.eraseMarker || s.sec.ropErase).toNat]

/-- FLS_STATUS. -/
def flsStatus (s : State) : Word :=
  let part := match s.flash.ops.head? with
    | some (.program p _ _) => p.code
    | some (.erase p _) => p.code
    | none => 0
  wordOf [s.flash.state.code, at_ 3 s.flash.lowBand.toNat, at_ 4 s.flashWait, at_ 8 part]

/-- FLS_SLOT. -/
def flsSlot (s : State) : Word :=
  let r := s.flash.slots
  wordOf [r.active.toNat, at_ 1 r.trial.toNat, at_ 2 r.restarts.toNat, at_ 4 s.flash.bootSrc.code, at_ 8 (satTo 8 s.arb), at_ 16 s.flash.runCompat.toNat]

/-- SCH_CTRL of a slot (Table 3-4). -/
def schCtrl (s : State) (k : Nat) : Word :=
  let v := s.slot k
  wordOf [v.action.toNat, at_ 12 v.result.code, at_ 16 v.miss.toNat, at_ 31 v.arm.toNat]

/-- The pool pages that hold setts of rank KEEP. -/
def poolKeep (s : State) : Nat := (s.xlt.poolLru.filter fun n => s.rankOf n == 3).length

/-- Word `i` (by byte offset ÷ 4) of channel `c`'s page above its registers (Table 14-3): the outbound words, and the legacy registers. A
register of the mode not in use reads 0 (R344). -/
def mbxWord (s : State) (c off : Nat) : Option Word :=
  let h := s.chan c
  if 0x100 ≤ off ∧ off ≤ 0x1FC then some (if h.legacy then 0 else (h.outQ.take 64).getD ((off - 0x100) / 4) 0)
  else if 0x400 ≤ off ∧ off ≤ 0x434 then some (if h.legacy then h.ldata.getD ((off - 0x400) / 4) 0 else 0)
  else if off = 0x438 then some (if h.legacy then h.lcmd else 0)
  else if off = 0x43C then some (if h.legacy then wordOf [h.lgo.toNat] else 0)
  else none

/-- The views of the always-on blocks. -/
def viewAon (s : State) (base k : Nat) : Option Word :=
  let t := s.tally
  let p := s.psq
  let sel := s.fld Reg.EVR_CODE_SEL 0 9 0
  let b := Tab.get ({} : Bucket) s.evr.buckets sel
  match base with
  | 0x020000 => some t.now.lo
  | 0x020004 => some t.now.hi
  | 0x020008 => some (tlyStatus t)
  | 0x020010 => some t.floor.tally.lo
  | 0x020014 => some t.floor.tally.hi
  | 0x020024 => some t.holdErr
  | 0x020028 => some t.pend.lo
  | 0x02002C => some t.pend.hi
  | 0x021000 => some (s.slot k).time.lo
  | 0x021004 => some (s.slot k).time.hi
  | 0x021008 => some (s.schCtrl k)
  | 0x02100C => some (s.slot k).arg
  | 0x021010 => some (s.slot k).period
  | 0x021014 => some ((s.slot k).owner.setWidth 32)
  | 0x040004 => some (wordOf [s.nv.keepWord.toNat, at_ 20 s.nv.keepRun.toNat])
  | 0x040008 => some (s.nv.keepLast.setWidth 32)
  | 0x040018 => some (BitVec.ofNat 32 s.wstamp)
  | 0x04001C => some (BitVec.ofNat 32 (s.wstamp / 2 ^ 32))
  | 0x060004 => some (if s.evr.next = 0 then 0 else s.evr.next - 1)
  | 0x060008 => some s.evrOldest
  | 0x06000C => some s.evr.archived
  | 0x06001C => some (b.rate.setWidth 32)
  | 0x060020 => some (wordOf [b.burst.toNat, at_ 8 (satTo 6 b.tokens), at_ 16 b.list.toNat])
  | 0x060100 => some (Tab.get 0 s.evr.lists (s.fld Reg.EVR_LIST_SEL 0 7 0 * 8 + k))
  | 0x070010 => some (wordOf [s.wdg.stage.code, at_ 2 s.wdg.hold.toNat, at_ 16 s.wdg.ms.toNat])
  | 0x030004 => some s.psqStatus
  | 0x030010 => some s.enLevels
  | 0x030014 => some s.pgLevels
  | 0x03001C => some (if p.mainUp then p.tj.setWidth 32 else 0x80)
  | 0x030500 =>
    let r := s.rail k
    some (wordOf [r.state.code, at_ 3 r.en.toNat, at_ 4 r.pg.toNat, at_ 8 r.glitches.toNat, at_ 16 r.retries.toNat])
  | _ => none

/-- The views of the top, event, ECC, medium and bench blocks. -/
def viewMed (s : State) (base k : Nat) : Option Word :=
  match base with
  | 0x000004 => some (Config.otpWord 0x020)
  | 0x000008 => some (Config.otpWord 0x021)
  | 0x00000C => some (Config.otpWord 0x022)
  | 0x000010 => some (Config.otpWord (0x024 + k))
  | 0x000020 => some (Config.otpWord 0x080 &&& 1)
  | 0x000110 => some s.wpend
  | 0x010000 => some (evtWord s.evt.raw k)
  | 0x010040 => some (evtWord s.evt.pend k)
  | 0x010080 => some s.evtSummary
  | 0x1D0100 => some (wordOf [s.fld Reg.ECC_STAT k 15 0, if s.eccAwaits k then 2 ^ 31 else 0])
  | 0x100004 => some (s.qcStatus k)
  | 0x100010 => some (wordOf [(s.qc k).pkg0.toNat, at_ 2 (s.qc k).pkg1.toNat, at_ 4 (s.qc k).dieOk.toNat])
  | 0x100204 => some (s.qgStatus k)
  | 0x100208 => some (s.qgTemp k)
  | 0x100210 => some (wordOf [(s.qg k).badChan.toNat, at_ 4 (s.qg k).badPkg.toNat, at_ 8 (s.qg k).badCheck.toNat])
  | 0x130004 => some s.tslStatus
  | 0x130014 =>
    let p := s.pass (s.fld Reg.TSL_GROUP_SEL 0 3 0)
    some (wordOf [passPct p, at_ 8 p.lastDone.toNat, at_ 28 p.late.toNat])
  | 0x130030 => some (BitVec.ofNat 32 (satTo 24 s.rebuildLeft))
  | 0x13003C =>
    let n := s.fld Reg.TSL_DIE_SEL 0 11 0
    let d := s.die n
    let building := s.med.rebuild.any fun x => (s.sett x).phys.any fun (p : Phys) => p.die == n
    some (wordOf [d.failed.toNat, at_ 1 building.toNat, at_ 2 d.first.toNat, at_ 3 d.blankLow.toNat, at_ 16 d.weak.toNat])
  | 0x131004 =>
    let y := s.med.yarrow
    let low := ((y.moves.map fun m => classOf m.kind).filter fun c => c != 0).foldl (fun a b => if a = 0 then b else min a b) 0
    let waits := s.med.rebuild.countP fun n => !y.moves.any fun m => m.lsett == n
    some (wordOf [low, at_ 16 (satTo 16 (y.queue.length + waits))])
  | 0x131010 => some s.yrwSpare
  | 0x13101C => some (BitVec.ofNat 32 s.spoilCount)
  | 0x131028 =>
    let d := s.fld Reg.YRW_DIE_SEL 0 11 0
    some (wordOf [wearCode ((s.dieTotals d).1 / max 1 (s.dieTotals d).2), at_ 16 (s.dieTopWear d)])
  | 0x13102C =>
    let d := s.fld Reg.YRW_DIE_SEL 0 11 0
    let zs := (List.range 64).map fun z => s.zone d z
    some (wordOf [(zs.map fun z => (z.slots.filter fun p => p.2.spoil).length).foldl (· + ·) 0,
      at_ 21 (zs.filter fun z => z.state == .pinned).length])
  | 0x132004 =>
    some (wordOf [s.eybState.code, at_ 3 s.tablesReady.toNat, at_ 16 (s.diesUp.filter fun d => (s.die d).sentinel).length])
  | 0x13200C =>
    let d := s.die (s.fld Reg.EYB_DIE_SEL 0 11 0)
    some (wordOf [d.scale.toNat, at_ 16 d.sentinel.toNat, at_ 17 d.outOfRange.toNat, at_ 18 d.tband.val, at_ 20 d.fitOk.toNat])
  | 0x132010 => some ((s.die (s.fld Reg.EYB_DIE_SEL 0 11 0)).calEpoch.setWidth 32)
  | 0x132030 => some (BitVec.ofNat 32 s.youngUsed)
  | 0x140004 => some s.pbfStatus
  | 0x140010 => some (BitVec.ofNat 32 s.dirtyLines)
  | 0x140018 => some (BitVec.ofNat 32 s.capEff)
  | 0x140020 => some (BitVec.ofNat 32 s.drainD)
  | 0x140024 => some (BitVec.ofNat 32 s.drainLimit)
  | 0x140028 => some (wordOf [s.bench.partials.length, at_ 16 s.partialLimit])
  | 0x140030 => some (wordOf [if s.bench.domain == .draining then 6 else 0, at_ 4 s.bench.trigger, at_ 8 s.bench.reaction])
  | 0x140034 => some (BitVec.ofNat 32 s.bench.last.1)
  | 0x140038 => some (BitVec.ofNat 32 s.bench.last.2)
  | 0x150004 =>
    some (wordOf [s.xlt.load.code, at_ 3 s.xlt.repromote.toNat, at_ 16 (satTo 8 s.xlt.windows.length)])
  | 0x150008 => some (BitVec.ofNat 32 s.xlt.extents)
  | 0x150010 => some (BitVec.ofNat 32 (satTo 24 s.xlt.chunksLeft))
  | 0x150018 => some (wordOf [satTo 13 s.jLive, at_ 16 (satTo 13 s.jLimit)])
  | 0x150020 => some s.xlt.jrnl.ckptSeq
  | 0x150028 => some (BitVec.ofNat 32 s.xlt.poolTotal)
  | 0x15002C => some (BitVec.ofNat 32 s.xlt.poolLru.length)
  | 0x150030 => some (BitVec.ofNat 32 s.poolKeep)
  | 0x15003C => some (wordOf [s.xlt.bvOpen.toNat, at_ 1 s.xlt.bvRefset.val])
  | _ => none

/-- The views of the twin, port, DRAM, channel, security and flash blocks. -/
def viewPorts (s : State) (base k : Nat) : Option Word :=
  let r := s.fld Reg.TDM_REGION_SEL 0 15 0
  match base with
  | 0x160004 => some s.tdmStatus
  | 0x16000C => some (s.twin.rtt.setWidth 32)
  | 0x160020 => some ((s.twin.peerUid >>> (32 * k)).setWidth 32)
  | 0x160030 => some (BitVec.ofNat 32 (satTo 24 s.resyncLeft))
  | 0x160044 => some (s.tdmRegionInfo r)
  | 0x160048 => some (s.rt r).term
  | 0x160050 => some (BitVec.ofNat 32 (s.rt r).ros)
  | 0x160054 => some (BitVec.ofNat 32 ((s.rt r).ros / 2 ^ 32))
  | 0x180010 => some (s.cxlStatus k)
  | 0x180030 => some (s.cxl.gpfLast.setWidth 32)
  | 0x190004 => some (BitVec.ofNat 32 (s.rdma.qps.filter fun p => p.2.connected).length)
  | 0x1A0014 => some (match s.rdma.ptpMac with
    | some m => wordOf [m.val, 32]
    | none => 0)
  | 0x1A0018 => some (BitVec.ofInt 32 (max (-2147483648) (min 2147483647 s.rdma.ptpOffset)))
  | 0x1A1000 => some (s.macStatus k)
  | 0x170004 => some (wordOf [s.dram.st.code, at_ 3 s.dram.speed, at_ 8 s.setsUp])
  | 0x170024 => some (wordOf [s.dram.scrubPct, at_ 8 s.dram.scrubEpoch.toNat])
  | 0x170038 => some (wordOf [at_ 1 s.dram.sreq.isSome.toNat])
  | 0x170060 =>
    let v := s.rank (s.fld Reg.DRM_RANK_SEL 0 2 0) (s.fld Reg.DRM_RANK_SEL 0 4 3)
    some (wordOf [v.st.code, at_ 8 (satTo 16 v.window)])
  | 0x080000 => some (wordOf [(s.chan k).legacy.toNat, at_ 2 (s.chan k).outIe.toNat])
  | 0x080004 => some (s.mbxStatus k)
  | 0x080014 => some (s.chan k).session
  | 0x080018 => some (if (s.chan k).legacy then 0 else (s.chan k).pageSeq.setWidth 32)
  | 0x1B0004 => some (wordOf [(s.sec.slots.filter fun p => p.2.loaded).length, at_ 13 (!s.sec.trngFail).toNat,
      at_ 14 (s.sec.slots.any fun p => p.2.state == .erasing).toNat])
  | 0x1B000C => some (s.slotInfoWord (s.fld Reg.SEC_SLOT_SEL 0 11 0))
  | 0x1C0000 => some s.lcsStatus
  | 0x1C0008 => some (wordOf [s.sec.lcWork.isSome.toNat, at_ 1 s.sec.repair.toNat])
  | 0x050004 => some s.flsStatus
  | 0x050014 => some s.flsSlot
  | _ => none

end State

/-- An offset as the block decodes it: the 16 channel pages of a quarry group all reach the group's registers, at offsets 0x200 to 0x2FF of each
(R90, Table 2-4). -/
def Reg.place (off : Nat) : Nat :=
  if 0x100000 ≤ off ∧ off < 0x124000 ∧ 0x200 ≤ off % 0x400 then off - off % 0x4000 + off % 0x400 else off

/-- The register that lies at a primary offset, with its number in its array (Table 2-4). -/
def Reg.find (off : Nat) : Option (Reg × Nat) :=
  let off := Reg.place off
  (Reg.table.find? fun r => decide (r.base ≤ off ∧ (off - r.base) % r.stride = 0 ∧ (off - r.base) / r.stride < r.count)).map
    fun r => (r, (off - r.base) / r.stride)

/-- The bits of a register's fields of some kinds. -/
def Reg.bitsFor (r : Reg) (p : FieldKind → Bool) : Word :=
  r.fields.foldl (fun m f => if p f.kind then m ||| BitVec.ofNat 32 ((2 ^ (f.hi - f.lo + 1) - 1) * 2 ^ f.lo) else m) 0

namespace State

/-- What register `k` of an array reads: its view, or what it holds; WO bits read 0 (R28). -/
def readReg (s : State) (r : Reg) (k : Nat) : Word :=
  let w := ((s.viewAon r.base k).or ((s.viewMed r.base k).or (s.viewPorts r.base k))).getD (s.reg r k)
  w &&& r.bitsFor fun f => f != .wo

/-- The word of the sequence tables at an offset (PSQ_SEQ_SH, PSQ_SEQ_ACT; R448), with whether it is of the shadow. -/
def seqAtOff (off : Nat) : Option (Bool × Nat) :=
  if 0x030100 ≤ off ∧ off < 0x030280 ∧ off % 4 = 0 then some (true, (off - 0x030100) / 4)
  else if 0x030300 ≤ off ∧ off < 0x030480 ∧ off % 4 = 0 then some (false, (off - 0x030300) / 4)
  else none

/-- The channel and offset in its page of an offset in the MBX range (Table 2-4). -/
def mbxAt (off : Nat) : Option (Nat × Nat) :=
  if 0x080000 ≤ off ∧ off < 0x0C0000 then some ((off - 0x080000) / 4096, off % 4096) else none

/-- What a read at a primary offset returns, none where no register is defined there (R27). -/
def readOff (s : State) (off : Nat) : Option Word :=
  match Reg.find off with
  | some (r, k) => some (s.readReg r k)
  | none => match seqAtOff off with
    | some (sh, i) => some ((if sh then s.psq.seqSh else s.psq.seqAct).getD i 0)
    | none => match mbxAt off with
      | some (c, o) => s.mbxWord c o
      | none => none

end State

end Sys2Proof.Machine
end

