-- ==== Sys2Proof/Machine/Ops.lean ====
section
/-! DEFINITION. The named operations every family works with: reading and writing registers and their fields, sending to the
outside, drawing a free value, the event fabric's capture with its routed notifications (R36 to R40, R353), the recorder's
token buckets (R411 to R414), and the NV store's dual-copy records (R405 to R408). -/

namespace Sys2Proof.Machine

/-- What a command answers: the three outcomes of the host's interface. -/
abbrev Res := Host.Outcome State Fault Refusal

/-- REQ_KIND and REQ_ID of a requester (Table 2-3). -/
def Requester.ids : Requester → Nat × Nat
  | .ld p l | .page p l => (0, p.val * 16 + l.val)
  | .core n => (1, n.val)
  | .debug => (2, 0)

/-- The requester comes by the channel pages of an LD's BAR0. -/
def Requester.isPage : Requester → Bool
  | .page _ _ => true
  | _ => false

/-! ### Registers -/

/-- The word with its bits [hi:lo] replaced by `v`. -/
def putBits (w : Word) (hi lo : Nat) (v : Nat) : Word :=
  let m : Word := BitVec.ofNat 32 ((2 ^ (hi - lo + 1) - 1) * 2 ^ lo)
  (w &&& ~~~m) ||| (BitVec.ofNat 32 (v * 2 ^ lo) &&& m)

namespace State

/-- Writes the word that register `k` of array `r` holds. -/
def setReg (s : State) (r : Reg) (k : Nat) (w : Word) : State :=
  { s with regs := Tab.put r.resetWord s.regs (r.at k) w }

/-- Bit `b` of a register. -/
def bit (s : State) (r : Reg) (k b : Nat) : Bool := (s.reg r k).getLsbD b

/-- Writes field [hi:lo] of a register. -/
def setFld (s : State) (r : Reg) (k hi lo v : Nat) : State := s.setReg r k (putBits (s.reg r k) hi lo v)

/-- Writes bit `b` of a register. -/
def setBit (s : State) (r : Reg) (k b : Nat) (v : Bool) : State := s.setFld r k b b v.toNat

/-- Adds `n` to the counter in field [hi:lo], saturating. -/
def bump (s : State) (r : Reg) (k hi lo : Nat) (n : Nat := 1) : State :=
  s.setFld r k hi lo (min (s.fld r k hi lo + n) (2 ^ (hi - lo + 1) - 1))

/-- A 64-bit register's value from its two words. -/
def reg64 (s : State) (lo hi : Reg) (k : Nat := 0) : Dword := Dword.ofWords (s.reg lo k) (s.reg hi k)

/-- Writes both words of a 64-bit register. -/
def setReg64 (s : State) (lo hi : Reg) (k : Nat) (v : Dword) : State :=
  (s.setReg lo k v.lo).setReg hi k v.hi

/-- Sends `o` to the outside. -/
def emit (s : State) (o : Out) : State := { s with out := o :: s.out }

/-- Advances the counter that free values are drawn by. -/
def draw (s : State) : State := { s with fresh := s.fresh + 1 }

/-- Replaces command channel `c`. -/
def setChan (s : State) (c : Nat) (v : Chan) : State := { s with chans := Tab.put {} s.chans c v }

/-- S_NOW in whole seconds: TLY_NOW, or TLY_PEND while a jump is pending, is what ages are taken against (R58, R93). -/
def sNow (s : State) : BitVec 48 :=
  ((if s.tally.jumpPending then s.tally.pend else s.tally.now) >>> 16).setWidth 48

/-- The epoch of TLY_NOW, R45: its seconds divided by 4,096. -/
def epochOf (t : Dword) : BitVec 20 := (t >>> 28).setWidth 20

end State

/-! ### Event sources -/

/-- A source's raw bit falls. Its pending bit stays (R37). -/
def State.lower (s : State) (n : Nat) : State := { s with evt := { s.evt with raw := s.evt.raw &&& ~~~(BitVec.twoPow 512 n) } }

/-- One thing left to do when a source rises: the capture itself, a notification to a channel, an offer to the recorder. -/
inductive EvtWork where
  | rise (src : Nat)
  | notify (chan src : Nat)
  | offer (always : Bool) (code src principal : Nat) (detail : Word) (agen : BitVec 16)
  deriving DecidableEq, Repr

/-- The bucket a code uses: codes above 1,023 use the bucket of code 376 (R413). -/
def bucketOf (code : Nat) : Nat := if code ≤ 1023 then code else 376

/-- The words of one snapshot, in list order: the registers the code's list names, as a read finds them (R411). A register of the always-on domain is
read whatever the power state; one of a block that is off is absent. -/
def snapshot (s : State) (list : BitVec 8) : List (Option Word) :=
  (List.range 8).filterMap fun k =>
    let w := Tab.get 0 s.evr.lists (list.toNat * 8 + k)
    if w.getLsbD 31 then
      let off := bitsOf w 23 0
      let aon := 0x020000 ≤ off && off < 0x050000 || 0x060000 ≤ off && off < 0x080000
      some (if aon || s.psq.mainUp then some ((s.readOff off).getD 0) else none)
    else none

/-- Admits an entry (R411, R414): writes it at its ring place, overwriting an unarchived entry if need be, and advances INDEX. -/
def admitEntry (s : State) (e : Entry) : State × List EvtWork :=
  let i := s.evr.next
  let place := i.toNat % 16384
  let lost : Bool := decide (16384 ≤ i.toNat ∧ s.evr.archived.toNat ≤ i.toNat - 16384)
  let s1 := { s with evr := { s.evr with ring := Tab.put {} s.evr.ring place { e with index := i }, next := i + 1 } }
  if lost then ((s1.bump Reg.EVR_LOST_CNT 0 31 0).setBit Reg.EVR_CAUSE 0 0 true, [.rise 428]) else (s1, [])

/-- Offers one entry to the recorder (R412, R413): a token admits it, no token suppresses it. -/
def offerEntry (s : State) (always : Bool) (code src principal : Nat) (detail : Word) (agen : BitVec 16) :
    State × List EvtWork :=
  let c := bucketOf code
  let b := Tab.get {} s.evr.buckets c
  let putB (s : State) (b : Bucket) : State := { s with evr := { s.evr with buckets := Tab.put {} s.evr.buckets c b } }
  let e : Entry :=
    { tally := s.tally.now, code := BitVec.ofNat 16 code, source := BitVec.ofNat 10 src,
      principal := BitVec.ofNat 8 principal, suppressed := b.suppressed, detail := detail,
      snap := snapshot s b.list, list := b.list, agen := agen }
  if always then admitEntry (putB s { b with suppressed := 0 }) e
  else if s.bit Reg.EVR_CTRL 0 0 && decide (0 < b.tokens) then
    let s1 := putB s { b with tokens := b.tokens - 1, suppressed := 0 }
    let quiet := (s1.evr.buckets.all fun p => p.2.suppressed == 0)
    admitEntry (if quiet then ((s1.setBit Reg.EVR_CAUSE 0 2 false).lower 430) else s1) e
  else
    let s1 := (putB s { b with suppressed := if b.suppressed = 0xFFFF#16 then b.suppressed else b.suppressed + 1 }).bump
      Reg.EVR_SUPP_CNT 0 31 0
    (s1.setBit Reg.EVR_CAUSE 0 2 true, [.rise 430])

/-- A NOTIFY reply, R353: STATUS OK, NOTIFY set, TAG and CHAN_SEQ 0, the source, the drops since the last one and TLY_NOW. -/
def notifyWords (s : State) (src : Nat) (dropped : Word) : List Word :=
  [0x00000204#32, 0, BitVec.ofNat 32 src, dropped, s.tally.now.lo, s.tally.now.hi]

/-- An MSI-X message of vector `v` to an LD (R292): a masked vector sets its PBA bit instead. -/
def State.msixSend (s : State) (p : Fin 4) (l : Fin 16) (v : BitVec 8) : State :=
  let k := p.val * 16 + l.val
  let d := Tab.get ({} : Ld) s.cxl.lds k
  if d.masked.getLsbD v.toNat then
    { s with cxl := { s.cxl with lds := Tab.put {} s.cxl.lds k { d with pba := d.pba ||| BitVec.twoPow 64 v.toNat } } }
  else s.emit (.msix p l v)

/-- The reply interrupt of a channel (R346, R292): MSI-X vector 1 of its LD, or the in-band interrupt of channel 0. -/
def replyInterrupt (c : Nat) (ch : Chan) (s : State) : State :=
  if ch.outIe then
    match ch.who with
    | .cxl p l => s.msixSend p l 1
    | _ => if c = 0 then s.emit .inBandInterrupt else s
  else s

/-- Whether the words of a packet fit the outbound queue now: it enters whole, behind every packet still waiting (R346). -/
def Chan.hasRoom (ch : Chan) (n : Nat) : Bool := ch.waiting.isEmpty && decide (ch.outQ.length + n ≤ 64)

/-- Sends one event notification to a channel, or drops and counts it (R347, R353). -/
def notifyChan (s : State) (c src : Nat) : State × List EvtWork :=
  let ch := s.chan c
  let words := notifyWords s src ch.dropped
  if !ch.legacy && ch.hasRoom words.length then
    (replyInterrupt c ch (s.setChan c { ch with outQ := ch.outQ ++ words, dropped := 0 }), [])
  else
    ((s.setChan c { ch with dropped := ch.dropped + 1 }).setBit Reg.MBX_CAUSE c 1 true, [.rise (448 + c)])

/-- What a source's rising edge does (R36, R39, R412): the pending bit, and at that capture the routed notifications. The capture of source
376 offers no entry: the firing that raises it offers its own. -/
def riseSource (s : State) (n : Nat) : State × List EvtWork :=
  let aon := aonSource n
  if n ≥ 512 || (!aon && !s.psq.mainUp) || s.evt.raw.getLsbD n then (s, [])
  else
    let one : BitVec 512 := BitVec.twoPow 512 n
    let was := if s.psq.mainUp then s.evt.pend.getLsbD n else s.evt.aonPend.getLsbD n
    let e1 := { s.evt with
      raw := s.evt.raw ||| one
      pend := if s.psq.mainUp then s.evt.pend ||| one else s.evt.pend
      aonPend := if aon then s.evt.aonPend ||| one else s.evt.aonPend }
    let s1 := { s with evt := e1 }
    if was then (s1, [])
    else
      let agen := if 448 ≤ n then (s.chan (n - 448)).agen else 0
      let prin := if 448 ≤ n then n - 448 else 0xFE
      if s.psq.mainUp then
        let r := s.reg Reg.EVT_ROUTE n
        if r.getLsbD 0 && s.bit Reg.EVT_CTRL 0 0 then
          let s2 := if r.getLsbD 2 then
            s1.msixSend (Fin.ofNat 4 (bitsOf r 19 18)) (Fin.ofNat 16 (bitsOf r 23 20)) (BitVec.ofNat 8 (bitsOf r 31 24))
            else s1
          (s2, (if r.getLsbD 3 then [.notify (bitsOf r 17 12) n] else []) ++
            (if r.getLsbD 5 && n != 376 then [.offer false n n prin (if n = 415 then s.csr.lockAt else 0) agen] else []))
        else (s1, [])
      else if s.evt.aonEn.getLsbD n && s.evt.aonGlobal && s.evt.aonRec.getLsbD n && n != 376 then
        (s1, [.offer false n n prin 0 agen])
      else (s1, [])

/-- Carries out one item of event work and names what it leads to. -/
def evtStep (s : State) : EvtWork → State × List EvtWork
  | .rise n => riseSource s n
  | .notify c n => notifyChan s c n
  | .offer al code src prin det agen => offerEntry s al code src prin det agen

/-- Carries out a list of event work, depth first, within `fuel` items. A source that is already up adds nothing, so the work
a single rise leads to is finite and far below the fuel given. -/
def evtRun : Nat → List EvtWork → State → State
  | 0, _, s => s
  | _, [], s => s
  | f + 1, w :: ws, s => let (s1, more) := evtStep s w; evtRun f (more ++ ws) s1

/-- The work bound of `raise`: no cascade of captures, notifications and offers is longer. -/
def evtFuel : Nat := 600

namespace State

/-- A source's raw bit goes from 0 to 1 and is captured (R36). It stays up until `lower`. -/
def raise (s : State) (n : Nat) : State := evtRun evtFuel [.rise n] s

/-- A cause that lasts a moment: the source rises, is captured and falls. -/
def pulse (s : State) (n : Nat) : State := (s.raise n).lower n

/-- Offers one record of a device code to the recorder (R412). The codes of Table 16-9 but DEVICE_RECORD take no token. -/
def record (s : State) (code : Nat) (src : Nat) (detail : Word) (principal : Nat := 0xFF) (agen : BitVec 16 := 0) : State :=
  evtRun evtFuel [.offer (decide (0x200 ≤ code ∧ code ≤ 0x207)) code src principal detail agen] s

/-- A record this manual calls for without a code of its own (R412): a DEVICE_RECORD naming the block's source. -/
def deviceRecord (s : State) (src : Nat) (detail : Word) : State := s.record Config.codeDeviceRecord src detail

/-- A capture bit of a cause register sets and its source, if not already up, is captured (R36). -/
def cause (s : State) (r : Reg) (k b src : Nat) : State := (s.setBit r k b true).raise src

/-- A write to a locked field is dropped (R33): source 415, with the address and the requester in the record. -/
def lockViolation (s : State) (req : Requester) (off : Nat) : State :=
  let d := wordOf [req.ids.1, at_ 2 (off / 4 % 2 ^ 22), at_ 24 req.ids.2]
  ({ s with csr := { s.csr with lockAt := d } }).pulse 415

/-- A level cause bit takes the value `v`: its source rises with it, and falls when no bit in `mask` is left. -/
def level (s : State) (r : Reg) (k b src : Nat) (mask : Nat) (v : Bool) : State :=
  let s1 := s.setBit r k b v
  if v then s1.raise src
  else if (s1.reg r k).toNat &&& mask = 0 then s1.lower src else s1

end State

/-! ### The NV store -/

/-- A copy is valid when its SEQ is not 0 and its words check (R405). -/
def NvCopy.ok (c : NvCopy) : Bool := c.valid && decide (c.seq ≠ 0)

/-- The choice of R406: none where neither copy is valid; `tie` where both write-stamps are equal and the contents differ. -/
def NvRecord.choose (r : NvRecord) : Option (Bool × NvCopy) × Bool :=
  match r.a.ok, r.b.ok with
  | false, false => (none, false)
  | true, false => (some (true, r.a), false)
  | false, true => (some (false, r.b), false)
  | true, true =>
    if r.b.seq < r.a.seq then (some (true, r.a), false)
    else if r.a.seq < r.b.seq then (some (false, r.b), false)
    else if r.a.payload = r.b.payload then (some (true, r.a), false)
    else if r.b.stamp < r.a.stamp then (some (true, r.a), false)
    else if r.a.stamp < r.b.stamp then (some (false, r.b), false)
    else (some (true, r.a), true)

namespace State

/-- Advances the ring of WSTAMP_HI by 1 and starts its commit count again (R407, R408). -/
def wstampAdvance (s : State) : State :=
  let g := Tab.get ({} : NvRing) s.nv.rings Config.ringWstamp
  let g' : NvRing := { valid := true, seq := g.seq + 1, value := (g.value + 1) % 2 ^ 24 }
  { s with nv := { s.nv with rings := Tab.put {} s.nv.rings Config.ringWstamp g', commits := 0 } }

/-- Writes a dual-copy record (R405): the copy not chosen takes the payload, the chosen copy's SEQ + 1 and the next stamp. -/
def nvWrite (s : State) (key : Nat) (payload : List Nat) : State :=
  let s := if s.nv.commits = 0xFFFFFF#24 then s.wstampAdvance else s
  let s := { s with nv := { s.nv with commits := s.nv.commits + 1 } }
  let r := Tab.get ({} : NvRecord) s.nv.records key
  let (seq, toB) := match r.choose.1 with
    | none => (1, true)
    | some (isA, c) => (if c.seq = 0xFFFFFFFF then 1 else c.seq + 1, isA)
  let c : NvCopy := { valid := true, seq := seq, stamp := s.wstamp, payload := payload }
  let r' := if toB then { r with b := c } else { r with a := c }
  { s with nv := { s.nv with records := Tab.put {} s.nv.records key r' } }

/-- Reads a dual-copy record (R406): its chosen payload, with TWIN_TIE or RECORD_LOST captured as the choice calls for.
A record never written is absent and captures nothing. -/
def nvRead (s : State) (key : Nat) : Option (List Nat) × State :=
  let r := Tab.get ({} : NvRecord) s.nv.records key
  match r.choose with
  | (some (_, c), tie) => (some c.payload, if tie then s.cause Reg.NVS_CAUSE 0 3 387 else s)
  | (none, _) =>
    (none, if r.a.seq = 0 ∧ r.b.seq = 0 then s else s.cause Reg.NVS_CAUSE 0 4 388)

end State

end Sys2Proof.Machine
end

