-- ==== Sys2Proof/Machine/TallyOps.lean ====
section
/-! DEFINITION. The Tally's shared operations: choosing and losing a source (R46), applying a source's time (R47, R50 to R52),
the floor (R50), the error estimate (R464), the local clock, and a schedule slot's firing (R53 to R57, R466). -/

namespace Sys2Proof.Machine

/-- One second in units of 2⁻¹⁶ s (R45). -/
def secUnits : Nat := 65536

/-- The accuracy TLY_HOLD_ERR reads while a source is selected, in µs (R464). -/
def TimeSource.accuracy : TimeSource → Option Word
  | .ptp => some 1
  | .secure => some 10000
  | .twin => some 1
  | _ => Option.none

/-- A slot after a firing (R55): a one-shot slot is disarmed; a periodic slot's TIME moves by the fewest whole periods that
carry it past TLY_NOW, and MISS_CNT counts the periods skipped. -/
def Slot.advance (v : Slot) (now : Dword) : Slot :=
  if v.period = 0 then { v with arm := false }
  else
    let p := v.period.toNat * secUnits
    let k := (now.toNat - v.time.toNat) / p + 1
    { v with time := v.time + BitVec.ofNat 64 (k * p), miss := BitVec.ofNat 8 (min (v.miss.toNat + (k - 1)) 255) }

namespace State

/-- Replaces the Tally. -/
def setTally (s : State) (t : Tally) : State := { s with tally := t }

/-- Replaces schedule slot `k`. -/
def setSlot (s : State) (k : Nat) (v : Slot) : State :=
  { s with sched := { s.sched with slots := Tab.put {} s.sched.slots k v } }

/-- Copies slot `k` to the NV store (R57). -/
def saveSlot (s : State) (k : Nat) : State :=
  let v := s.slot k
  let s1 := { s with sched := { s.sched with saved := Tab.put {} s.sched.saved k v } }
  s1.nvWrite (Config.nvSlot k) [v.time.toNat, v.arm.toNat, v.action.toNat, v.arg.toNat, v.period.toNat, v.owner.toNat]

/-- Writes the floor (R50): the seconds of TLY_NOW, TRUST and the flag that marks an orderly power-down. DESIGN CHOICE (log entry 112): which writes
set the flag and which clear it. -/
def writeFloor (s : State) (orderly : Bool) : State :=
  let f : Floor := { secs := (s.tally.now >>> 16).setWidth 48, trust := s.tally.trust, orderly := orderly }
  (s.setTally { s.tally with floor := f }).nvWrite Config.nvFloor [f.secs.toNat, f.trust.code, orderly.toNat]

/-- The highest-priority source that is qualified and enabled in TLY_CTRL, holdover where there is none (R46, Table 3-1). -/
def bestSource (s : State) : TimeSource :=
  let t := s.tally
  if s.bit Reg.TLY_CTRL 0 0 && t.ptpQualified && !t.ptpOverridden && !t.ptpHoldoff then .ptp
  else if s.bit Reg.TLY_CTRL 0 1 && t.secQualified && !t.secHoldoff then .secure
  else if s.bit Reg.TLY_CTRL 0 2 && t.twinQualified && !t.twinHoldoff then .twin
  else if s.bit Reg.TLY_CTRL 0 3 && t.ppsLock then .holdoverPps
  else .holdover

/-- Whether a source is one of the two forms of holdover. -/
def isHoldover (x : TimeSource) : Bool := x == .holdover || x == .holdoverPps

/-- Selects the best source (R46): a change raises source 368, an entry to holdover also source 372. Trimming by PPS within
holdover changes the form of holdover and raises source 368 alone. Once a source has been applied the error estimate is that of the source
selected, and what it was on an entry to holdover (R464). Before STARTED no source stands for holdover (Table 3-3). -/
def selectSource (s : State) : State :=
  let b := s.bestSource
  if b = s.tally.source ∨ (s.tally.source = .none ∧ isHoldover b ∧ !s.tally.started) then s
  else
    let was := s.tally.source
    let err := if s.tally.setSinceVaon then (b.accuracy).getD s.tally.holdErr else s.tally.holdErr
    let s1 := (s.setTally { s.tally with source := b, catchup := s.tally.catchup && !isHoldover b, holdErr := err }).pulse 368
    if isHoldover b && !isHoldover was then s1.pulse 372 else s1

/-- After the Tally is first set from a qualified source, or a pending jump is confirmed, a slot marked at VAON power-up whose
TIME still lies ahead loses its mark (R57). -/
def unmarkSlots (s : State) : State :=
  let keep := (List.range 256).foldl
    (fun (m : BitVec 256) k => if s.tally.now < (s.slot k).time then m &&& ~~~(BitVec.twoPow 256 k) else m) s.sched.marked
  { s with sched := { s.sched with marked := keep } }

/-- A qualified source has been applied to TLY_NOW: STARTED goes to 1 (R52), the error estimate is the source's (R464), and on
the first application since VAON power-up the marks of R57 are judged. -/
def applied (s : State) : State :=
  let first := !s.tally.setSinceVaon
  let s1 := s.setTally { s.tally with
    started := true, setSinceVaon := true, holdErr := (s.tally.source.accuracy).getD s.tally.holdErr }
  if first then s1.unmarkSlots else s1

/-- TRUST after the time of source `x` has been applied with a step of more than 1 s or not (R47 to R51). `peer` is the
twin's own TRUST. -/
def trustAfter (t : Tally) (x : TimeSource) (peer : Trust) (bigStep : Bool) : Trust :=
  let inherited (p : Trust) : Trust :=
    match p with
    | .trusted => .trusted
    | .provisional => if t.trust = .trusted ∧ !bigStep then .trusted else .provisional
    | .untrusted => t.trust
  if t.disagree || t.jumpPending then .untrusted
  else match x with
    | .secure => .trusted
    | .ptp => inherited .provisional
    | .twin => inherited peer
    | _ => t.trust

/-- A source time below the floor (R50): TLY_NOW stands, source 369 is raised, and the source stays unqualified for 60 s. -/
def belowFloor (s : State) (x : TimeSource) : State :=
  let t := s.tally
  let t' : Tally := match x with
    | .ptp => { t with ptpHoldoff := true, ptpQualified := false, ptpGood := 0 }
    | .twin => { t with twinHoldoff := true, twinQualified := false }
    | .secure => { t with secHoldoff := true, secQualified := false }
    | _ => t
  ((s.setTally t').pulse 369).selectSource

/-- Applies source time `v` to TLY_NOW by its distance D (R47): slewed up to 1 s ahead, stepped beyond, half rate when behind. -/
def moveNow (s : State) (x : TimeSource) (peer : Trust) (v : Dword) : State :=
  let t := s.tally
  let big := decide (t.now.toNat + secUnits < v.toNat)
  let t1 : Tally :=
    if v < t.now then { t with catchup := true, slew := 0 }
    else if big then { t with now := v, slew := 0, catchup := false }
    else { t with slew := v - t.now, catchup := false }
  (s.setTally { t1 with trust := trustAfter t x peer big }).applied

/-- 30 days in Tally units (R47). -/
def thirtyDays : Nat := 30 * 86400 * secUnits

/-- Holds an offered jump of more than 30 days (R51): TLY_PEND, JUMP_PENDING, TRUST UNTRUSTED, source 370 on the first. -/
def holdJump (s : State) (v : Dword) : State :=
  let was := s.tally.jumpPending
  let s1 := s.setTally { s.tally with pend := v, jumpPending := true, trust := .untrusted, started := true }
  if was then s1 else s1.pulse 370

/-- An offer of time by PTP or the twin, selected and qualified (R46, R47, R50, R51). A twin that is TRUSTED is never held. -/
def offerTime (s : State) (x : TimeSource) (peer : Trust) (v : Dword) : State :=
  let t := s.tally
  if v < t.floor.tally then s.belowFloor x
  else if t.now.toNat + thirtyDays < v.toNat then
    if x = .twin ∧ peer = .trusted then s.moveNow x peer v else s.holdJump v
  else if t.jumpPending ∧ ¬(x = .twin ∧ peer = .trusted) then
    let s1 := s.setTally { t with jumpPending := false }
    let s2 := s1.moveNow x (if peer = .untrusted then .provisional else peer) v
    s2.setTally { s2.tally with trust := if t.disagree then .untrusted else .provisional }
  else s.moveNow x peer v

/-- The local clock advances TLY_NOW by one unit of 2⁻¹⁶ s: at half rate in catch-up, and with one unit of the slew owed in
every 1,000 (R47). TLY_PEND advances with it (R51), and in holdover, or while a signed source ages, the error estimate grows by its rate (R464). -/
def clockTick (s : State) : State :=
  if !s.psq.vaon then s
  else
    let t := s.tally
    let adv : Nat := if t.catchup then t.phase % 2
      else if t.slew ≠ 0 ∧ t.phase % 1000 = 999 then 2 else 1
    let slew := if adv = 2 then t.slew - 1 else t.slew
    let grow := t.setSinceVaon && (isHoldover t.source || t.source == .secure)
    let frac := t.errFrac + if t.ppsLock then 1 else 200
    let err := if grow && decide (655360 ≤ frac) && decide (t.holdErr < 0xFFFFFFFE#32) then t.holdErr + 1 else t.holdErr
    s.setTally { t with
      errFrac := if grow then frac % 655360 else t.errFrac,
      now := t.now + BitVec.ofNat 64 adv, pend := if t.jumpPending then t.pend + 1 else t.pend,
      slew := slew, phase := (t.phase + 1) % 2000, holdErr := err }

/-! ### The schedule -/

/-- The column a firing of action `a` follows in the present power state, none where it waits or never fires (R466, Table 3-5):
NV_FLOOR_WRITE and RAISE_EVENT fire in every state, the other actions wait out a transition, LOCKOUT follows DORMANT. -/
def column (s : State) (a : BitVec 4) : Option Column :=
  if 10 ≤ a.toNat then none
  else match s.psq.pstate with
    | .active => some .active
    | .idle => some .active
    | .keep => some .keep
    | .dormant => some .dormant
    | .lockout => some .dormant
    | _ => if a = 3 ∨ a = 8 then some .active else none

/-- Whether slot `v` is due and may fire now: STARTED, ARM and TLY_NOW at or past TIME (R55). -/
def slotDue (s : State) (v : Slot) : Bool :=
  s.psq.vaon && s.tally.started && v.arm && decide (v.time ≤ s.tally.now) && (s.column v.action).isSome

/-- The slot that fires next: the due slot of the lowest number (R55). A due slot of ACTION 0 has no effect to carry out and does not hold the
others up: `fireNone` advances it. -/
def nextDue (s : State) : Option Nat := ((s.sched.slots).find? fun p => s.slotDue p.2 && p.2.action != 0).map Prod.fst

/-- A slot whose firing waited for its burst records DONE as that starts (R163). -/
def slotRecord (s : State) (k : Nat) (r : FireResult) : State := (s.setSlot k { s.slot k with result := r }).saveSlot k

/-- The firing of slot `k`, whose action is `a` (R55 to R57, R466). One that has no result yet leaves RESULT as it was. `act` carries the action out in the column and slot given and says how
it went; a HELD firing raises source 377 and runs at the next ACTIVE. A marked slot records MISSED unless BUSY or HELD. -/
def fireSlot (s : State) (k : Nat) (a : BitVec 4) (act : Column → Slot → State → FireResult × State) : State :=
  let v := s.slot k
  match s.column a with
  | none => s
  | some c =>
    let (r, s1) := act c v s
    let marked := s1.sched.marked.getLsbD k
    let r' := if marked ∧ (r = FireResult.done ∨ r = FireResult.none) then FireResult.missed else if r = FireResult.none then v.result else r
    let s2 := { s1 with sched := { s1.sched with
      marked := s1.sched.marked &&& ~~~(BitVec.twoPow 256 k)
      held := if r = FireResult.held then s1.sched.held ||| BitVec.twoPow 256 k else s1.sched.held } }
    let s3 := (s2.setSlot k { (Slot.advance v s2.tally.now) with result := r' }).saveSlot k
    if r = FireResult.held then s3.pulse 377 else s3

/-- The due slots of ACTION 0 below slot `k` fire (R55, Table 3-5): no effect, and each advances. -/
def fireNone (s : State) (k : Nat) : State :=
  ((s.sched.slots.filter fun p => decide (p.1 < k) && p.2.action == 0 && s.slotDue p.2).map Prod.fst).foldl (fun (s : State) j =>
    let r := if s.sched.marked.getLsbD j then FireResult.missed else .done
    let s1 := { s with sched := { s.sched with marked := s.sched.marked &&& ~~~(BitVec.twoPow 256 j) } }
    (s1.setSlot j { (Slot.advance (s.slot j) s.tally.now) with result := r }).saveSlot j) s

/-- A write to a register of slot `k` (R54): word 0 and 1 are TIME, 2 SCH_CTRL, 3 SCH_ARG, 4 SCH_PERIOD, 5 SCH_OWNER. A write that
changes TIME, ACTION, ARG or PERIOD clears ARM, unless it writes SCH_CTRL with 1 in bit 31 by a primary or SET access. -/
def writeSlot (s : State) (k : Nat) (word : Fin 6) (kind : AccessKind) (data : Word) : State :=
  let v := s.slot k
  let comb (old : Word) : Word := match kind with
    | .primary => data
    | .set => old ||| data
    | .clear => old &&& ~~~data
    | .toggle => old ^^^ data
  let names := kind = .primary ∨ kind = .set
  let arms := word = 2 ∧ names ∧ data.getLsbD 31
  let ctrl : Word := comb (BitVec.ofNat 32 (v.arm.toNat * 2 ^ 31 + v.miss.toNat * 65536 + v.action.toNat))
  let v1 : Slot := match word with
    | 0 => { v with time := Dword.ofWords (comb v.time.lo) v.time.hi }
    | 1 => { v with time := Dword.ofWords v.time.lo (comb v.time.hi) }
    | 2 => { v with
        arm := ctrl.getLsbD 31
        miss := BitVec.ofNat 8 (bitsOf ctrl 23 16)
        action := BitVec.ofNat 4 (bitsOf ctrl 3 0) }
    | 3 => { v with arg := comb v.arg }
    | 4 => { v with period := comb v.period }
    | _ => v
  let changed := v1.time ≠ v.time ∨ v1.action ≠ v.action ∨ v1.arg ≠ v.arg ∨ v1.period ≠ v.period
  let v2 := if changed ∧ ¬arms then { v1 with arm := false } else v1
  let s1 := s.setSlot k v2
  if arms then s1.saveSlot k else s1

/-- Commits both words of a slot's TIME at once (R26, R54). -/
def writeSlotTime (s : State) (k : Nat) (t : Dword) : State :=
  let v := s.slot k
  if t = v.time then s else s.setSlot k { v with time := t, arm := false }

/-- Mingaso fills a slot of its own (R465): TIME is S_NOW plus the offset, in seconds. A slot that is armed with the table's values stays. -/
def fillSlot (s : State) (k : Nat) (a : BitVec 4) (arg period : Word) (offset : Nat) (arm : Bool) : State :=
  let v := s.slot k
  if v.arm ∧ v.action = a ∧ v.arg = arg ∧ v.period = period then s
  else
    let t : Dword := (s.sNow + BitVec.ofNat 48 offset).setWidth 64 <<< 16
    let s1 := s.setSlot k { v with time := t, action := a, arg := arg, period := period, arm := arm }
    if arm then s1.saveSlot k else s1

/-- A slot that Mingaso wrote for a group not in service is armed as the group enters service (R465). -/
def armSlot (s : State) (k : Nat) (a : BitVec 4) : State :=
  let v := s.slot k
  if v.arm || v.action != a then s else (s.setSlot k { v with arm := true }).saveSlot k

/-- The registers PASS_DAYS and CAL_HOURS set the periods of slots 0 to 17 (Table 3-5a). -/
def passPeriod (s : State) : Nat := s.fld Reg.TSL_CFG 0 7 0 * 86400

/-- The calibration period, Table 3-5a. -/
def calPeriod (s : State) : Nat := s.fld Reg.EYB_CTRL 0 15 8 * 3600

/-- Mingaso fills the TEASEL_PASS slot of group `g` (Table 3-5a). -/
def fillPass (s : State) (g : Nat) (inService : Bool) : State :=
  s.fillSlot g 1 (BitVec.ofNat 32 (2 ^ g)) (BitVec.ofNat 32 s.passPeriod) ((g + 1) * s.passPeriod / 9) inService

/-- Mingaso fills the EYEBRIGHT_CAL slot of group `g` (Table 3-5a). -/
def fillCal (s : State) (g : Nat) (inService : Bool) : State :=
  s.fillSlot (9 + g) 2 (BitVec.ofNat 32 (2 ^ g)) (BitVec.ofNat 32 s.calPeriod) ((g + 1) * s.calPeriod / 9) inService

/-- Mingaso fills the three slots of group `g`, armed while the group is in service (R465, Table 3-5a). -/
def fillGroupSlots (s : State) (g : Nat) (inService : Bool) : State :=
  ((s.fillPass g inService).fillCal g inService).fillSlot (18 + g) 9 (BitVec.ofNat 32 (2 ^ g)) 3600 ((g + 1) * 400) inService

/-- The three slots of group `g` are armed: the group enters service (R465). -/
def armGroupSlots (s : State) (g : Nat) : State := ((s.armSlot g 1).armSlot (9 + g) 2).armSlot (18 + g) 9

/-- Slot `k` of 28 to 63 stands as the table has it: NONE, and not armed (Table 3-5a). -/
def clearSlot (s : State) (k : Nat) : State :=
  s.setSlot k { s.slot k with action := 0, arg := 0, period := 0, arm := false }

/-- Mingaso fills slots 0 to 63 at start-up (R465): `up g` says whether group `g` is in service. -/
def fillSlots (s : State) (up : Nat → Bool) : State :=
  (List.range' 28 36).foldl (fun s k => s.clearSlot k)
    (((List.range 9).foldl (fun s g => s.fillGroupSlots g (up g)) s).fillSlot 27 7 600 86400 86400 true)

end State

end Sys2Proof.Machine
end

