-- ==== Sys2Proof/Machine/FlashOps.lean ====
section
/-! DEFINITION. The flash controller, the vault writer, the slot record, the recorder's archive and the watchdog (chapter 16):
the operations the commands of these blocks share. -/

namespace Sys2Proof.Machine

/-- The flash address at which a partition starts, and its size (Table 16-1). -/
def FlashPart.place : FlashPart → Nat × Nat
  | .boot => (0, 0x400000)
  | .slotA => (0x400000, 0x1000000)
  | .slotB => (0x1400000, 0x1000000)
  | .config => (0x2400000, 0x400000)
  | .vault => (0x2800000, 0xB000000)

/-- The flash address of a slot's first byte. -/
def slotBase (slot : Bool) : Nat := (if slot then FlashPart.slotB else .slotA).place.1

/-- The size of BOOT, which starts at flash address 0. -/
def bootSize : Nat := FlashPart.boot.place.2

/-- The sectors of a vault kind's ring (Table 16-5). -/
def vaultSectors (k : Fin 4) : Nat := if k = 0 then 1536 else if k = 1 then 256 else 512

/-- The data bytes a vault page uses (LEN): three entries of 64 B, or up to 244 B. -/
def VaultData.len : VaultData → Nat
  | .events es => 64 * es.length
  | .pad _ => 0
  | _ => 244

/-- The bytes of a number, little-endian, `n` of them. -/
def natBytes (v n : Nat) : List Byte := (List.range n).map fun i => BitVec.ofNat 8 (v / 256 ^ i)

/-- The 64 bytes of a recorder entry, Table 16-8. -/
def Entry.bytes (e : Entry) : List Byte :=
  let words := (List.range 8).map fun i => (e.snap.getD i none).getD 0
  let valid := ((List.range 8).map fun i => if (e.snap.getD i none).isSome then 2 ^ i else 0).foldl (· + ·) 0
  let body := natBytes e.tally.toNat 8 ++ natBytes e.index.toNat 4 ++ natBytes e.code.toNat 2 ++ natBytes e.source.toNat 2 ++
    natBytes e.principal.toNat 1 ++ natBytes e.snap.length 1 ++ natBytes e.suppressed.toNat 2 ++ natBytes e.detail.toNat 4 ++
    words.flatMap wordBytes ++ natBytes valid 1 ++ natBytes e.list.toNat 1 ++ natBytes e.agen.toNat 2
  body ++ wordBytes (crc32 body)

/-- The data bytes of a vault page. What a crash dump, a fit or a statistic holds is a free value: the spec gives no layout. -/
def VaultData.bytes : VaultData → List Byte
  | .events es => es.flatMap Entry.bytes
  | .crash d p => (List.range 61).flatMap fun i => wordBytes (Config.undefinedWord (d * 4294967296 + p * 64 + i))
  | .calib d p => (List.range 61).flatMap fun i => wordBytes (Config.undefinedWord ((d + 4096) * 4294967296 + p * 64 + i))
  | .wear d p => (List.range 61).flatMap fun i => wordBytes (Config.undefinedWord ((d + 8192) * 4294967296 + p * 64 + i))
  | .pad _ => []

namespace State

/-- Replaces the flash. -/
def setFlash (s : State) (f : Flash) : State := { s with flash := f }

/-- Replaces the watchdog. -/
def setWdg (s : State) (w : Wdg) : State := { s with wdg := w }

/-- Replaces the recorder. -/
def setEvr (s : State) (e : Evr) : State := { s with evr := e }

/-! ### Flash operations (R398, R399) -/

/-- FLS_CAUSE.WS_FLOOR follows the wait states in use (R399). -/
def judgeWait (s : State) : State :=
  s.level Reg.FLS_CAUSE 0 6 398 64
    (decide (s.fld Reg.FLS_WAIT 0 3 0 < minWait (s.fld Reg.FLS_WAIT 0 5 4) s.flash.lowBand))


/-- Starts the first operation in request order when none runs (R398). -/
def flashNext (s : State) : State :=
  match s.flash.ops with
  | [] => s.setFlash { s.flash with state := .idle }
  | .program .. :: _ => s.setFlash { s.flash with state := .program }
  | .erase .. :: _ => s.setFlash { s.flash with state := .erase }

/-- Queues an operation (R398). -/
def flashPush (s : State) (o : FlashOp) : State :=
  let s1 := s.setFlash { s.flash with ops := s.flash.ops ++ [o] }
  if s.flash.ops.isEmpty then s1.flashNext else s1

/-- The copy of CONFIG that an operation works on: copy B in the second half (R397). -/
def configCopy : FlashOp → Option Bool
  | .program .config n _ => some (decide (8192 ≤ n))
  | .erase .config n => some (decide (32 ≤ n))
  | _ => none

/-- The first operation ends: it leaves the queue, a failure is counted and captured, and the next one starts (R398, R403, R423). -/
def flashEnd (s : State) (ok : Bool) : State :=
  match s.flash.ops with
  | [] => s
  | o :: rest =>
    let whole := ok && (configCopy o).isSome && !(rest.any fun q => (configCopy q).isSome)
    let s1 := s.setFlash { s.flash with ops := rest, configBad := if whole then none else s.flash.configBad }
    let s2 := match o with
      | .program .. => if ok then s1 else (s1.bump Reg.FLS_FAIL_CNT 0 15 0).cause Reg.FLS_CAUSE 0 0 392
      | .erase .. => if ok then s1 else (s1.bump Reg.FLS_FAIL_CNT 0 31 16).cause Reg.FLS_CAUSE 0 1 393
    s2.flashNext

/-- The words of the pages of a slot that are not yet programmed as the flash is cut read as free values (R401). -/
def cutWords (ops : List FlashOp) (ws : Tab Word) : Tab Word :=
  let put (slot : Bool) (page : Nat) (ws : Tab Word) : Tab Word :=
    (List.range 64).foldl (fun t k => let a := slotBase slot / 4 + 64 * page + k; Tab.put 0 t a (Config.undefinedWord a)) ws
  ops.foldl (fun t o => match o with
    | .program .slotA n _ => put false n t
    | .program .slotB n _ => put true n t
    | _ => t) ws

/-- The running operation and the queue are cut by a power loss or a die reset (Table 16-4): a recovery image half copied no longer
verifies; a slot's pages not yet programmed are undefined, and a copy of CONFIG under its write; vault pages under programming are not settled
and are programmed again at start-up. -/
def flashCut (s : State) : State :=
  let boot := match s.flash.ops with
    | .program .boot _ _ :: _ => false
    | .erase .boot _ :: _ => false
    | _ => s.flash.bootGood
  let conf := (s.flash.ops.head?.bind configCopy).orElse fun _ => s.flash.configBad
  s.setFlash { s.flash with
    ops := [], state := .idle, bootGood := boot, configBad := conf, image := cutWords s.flash.ops s.flash.image }

/-- At start-up a damaged copy of CONFIG is written anew from the other one, which is used (R397, Table 16-4). -/
def configRepair (s : State) : State :=
  match s.flash.configBad with
  | none => s
  | some b =>
    let s1 := (List.range 32).foldl (fun s k => s.flashPush (.erase .config (32 * b.toNat + k))) s
    (List.range 8192).foldl (fun s k => s.flashPush (.program .config (8192 * b.toNat + k) false)) s1

/-! ### The vault (R402, R403) -/

/-- The pages whose source copy is still in the NV store: pages not settled and not given up. -/
def vaultSources (s : State) : Nat := (s.flash.pages.filter fun p => !p.settled && !p.bad).length

/-- The last page of a kind. -/
def vaultLast (s : State) (k : Fin 4) : Option VaultPage := (s.flash.pages.filter fun p => p.kind == k).getLast?

/-- The PSEQ the next page of a kind takes. -/
def vaultSeq (s : State) (k : Fin 4) : Nat :=
  (s.flash.pages.filter fun p => p.kind == k).foldl (fun m p => max m (p.pseq + 1)) 0

/-- Drops the oldest sector of a kind whose ring is full, by an erase (R402). -/
def vaultMakeRoom (s : State) (k : Fin 4) : State :=
  let mine := s.flash.pages.filter fun p => p.kind == k
  if mine.length < vaultSectors k * 256 then s
  else
    let drop := mine.take 256
    (s.setFlash { s.flash with pages := s.flash.pages.filter fun p => !drop.contains p }).flashPush (.erase .vault k)

/-- Places one page with a given PSEQ: the lower page of a pair, or the upper page of a lower one that has none (R403). -/
def vaultPlace (s : State) (k : Fin 4) (pseq : Nat) (d : VaultData) : State :=
  let s1 := s.vaultMakeRoom k
  let upper := match s1.vaultLast k with
    | some p => !p.upper
    | none => false
  let page : VaultPage := { kind := k, pseq := pseq, data := d, upper := upper }
  (s1.setFlash { s1.flash with pages := s1.flash.pages ++ [page] }).flashPush
    (.program .vault s1.flash.pages.length upper)

/-- The vault writer takes a new page, unless the source area is full (R403). -/
def vaultPut (s : State) (k : Fin 4) (d : VaultData) : State :=
  if s.vaultSources < 256 then s.vaultPlace k (s.vaultSeq k) d else s

/-- EVR_ARCHIVED: the INDEX below which every entry lies in a settled page (R414). -/
def archivedIndex (s : State) : BitVec 32 :=
  let evs := s.flash.pages.filterMap fun p => match p.data with
    | .events es => if p.bad then none else some (p.settled, es)
    | _ => none
  match evs.find? fun e => !e.1 with
  | some (_, es) => match es with
    | e :: _ => e.index
    | [] => s.evr.archived
  | none => s.evr.paged

/-- The archiver places up to `n` pages of three entries each, in INDEX order, while it has entries and source room (R414). -/
def archiveRun : Nat → State → State
  | 0, s => s
  | n + 1, s =>
    if !s.evr.archiving || s.flash.cores == .off || !s.psq.mainUp then s
    else if s.evr.paged = s.evr.next then s.setEvr { s.evr with archiving := false }
    else if 256 ≤ s.vaultSources then s
    else
      let left := s.evr.next.toNat - s.evr.paged.toNat
      let take := min 3 left
      let es := (List.range take).map fun i => Tab.get {} s.evr.ring ((s.evr.paged.toNat + i) % 16384)
      let s1 := s.vaultPlace 0 (s.vaultSeq 0) (.events es)
      archiveRun n (s1.setEvr { s1.evr with paged := s1.evr.paged + BitVec.ofNat 32 take })

/-- Archiving starts at 4,096 pending entries and goes on until none is pending (R414). -/
def archiveStart (s : State) : State :=
  if s.evr.next.toNat - s.evr.paged.toNat < 4096 then s
  else archiveRun 257 (s.setEvr { s.evr with archiving := true })

/-- Settling page `i`: an upper page settles when it verifies and its lower partner with it (R403). -/
def vaultVerified (s : State) (i : Nat) : State :=
  match s.flash.pages[i]? with
  | none => s
  | some p =>
    if !p.upper then s
    else
      let pages := s.flash.pages.set i { p with settled := true }
      let before := (List.range i).filter fun j => match pages[j]? with
        | some q => q.kind == p.kind && !q.bad
        | none => false
      let pages := match before.getLast? with
        | some j => match pages[j]? with
          | some q => if q.upper then pages else pages.set j { q with settled := true }
          | none => pages
        | none => pages
      let s1 := s.setFlash { s.flash with pages := pages }
      s1.setEvr { s1.evr with archived := s1.archivedIndex }

/-- A page that fails to program is skipped and its source copy goes to the next page (R403). -/
def vaultFailed (s : State) (i : Nat) : State :=
  match s.flash.pages[i]? with
  | none => s
  | some p => (s.setFlash { s.flash with pages := s.flash.pages.set i { p with bad := true } }).vaultPlace p.kind p.pseq p.data

/-! ### The slot record (R419, R425) -/


/-- A slot's image record. -/
def image (s : State) (slot : Bool) : ImageInfo := if slot then s.flash.slots.b else s.flash.slots.a

/-- Writes the slot record, a dual-copy NV record (R419). -/
def putSlots (s : State) (r : SlotRecord) : State :=
  let code (x : ImageState) : Nat := match x with
    | .empty => 0
    | .writing => 1
    | .valid => 2
  (s.setFlash { s.flash with slots := r }).nvWrite Config.nvSlotRecord
    [r.active.toNat, r.trial.toNat, r.restarts.toNat, r.bootCopy.toNat, code r.a.state, code r.b.state, r.a.len, r.b.len,
      r.a.version.toNat, r.b.version.toNat, r.a.secver.toNat, r.b.secver.toNat, r.a.compat.toNat, r.b.compat.toNat]

/-- Replaces a slot's image record in the slot record. -/
def putImage (s : State) (slot : Bool) (i : ImageInfo) : State :=
  s.putSlots (if slot then { s.flash.slots with b := i } else { s.flash.slots with a := i })

/-- Whether a slot's image passes the checks of R419: VALID, SECVER at least the anti-rollback counter, and verified. -/
def bootable (s : State) (slot : Bool) (arb : Nat) : Bool :=
  let i := s.image slot
  i.state == .valid && i.good && decide (arb ≤ i.secver.toNat)

/-- A revert (R425): the other slot becomes active, TRIAL clears, REVERTED is captured and FW_REVERTED written with the VERSION of
the image left. Without a VALID other slot nothing is reverted. -/
def fwRevert (s : State) : State :=
  let r := s.flash.slots
  if (s.image (!r.active)).state = .valid then
    let left := (s.image r.active).version
    (((s.putSlots { r with active := !r.active, trial := false, restarts := 0 }).cause Reg.FLS_CORE_CAUSE 0 5 425).record
      Config.codeFwReverted 0x3FF left)
  else s

/-- The boot engine's choice (R419): the active slot, a trial image at its third restart being reverted first; else the other slot,
which becomes active; else the recovery image unless BOOT_COPY is set; else the loader. A BOOT entry is written. Mingaso runs from its
start on (MINGASO_START). -/
def bootSelect (s : State) (arb : Nat) : State :=
  let s0 := if s.flash.slots.trial && s.flash.slots.restarts == 3 then s.fwRevert else s
  let r := s0.flash.slots
  let src : BootSrc :=
    if s0.bootable r.active arb then .active
    else if s0.bootable (!r.active) arb then .other
    else if r.bootCopy = 0 && s0.flash.bootGood then .recovery
    else .loader
  let s1 : State := match src with
    | .other => (s0.putSlots { r with active := !r.active, trial := false, restarts := 0 }).cause Reg.FLS_CAUSE 0 2 394
    | .active => if r.trial then s0.putSlots { r with restarts := if r.restarts = 3 then 3 else r.restarts + 1 } else s0
    | _ => s0
  let act := s1.flash.slots.active
  let img := s1.image act
  let cores : CoreState := match src with
    | .recovery => .recovery
    | .loader => .loader
    | _ => .restarting
  let s2 := s1.setFlash { s1.flash with
    bootSrc := src, cores := cores, runSlot := act, runCompat := img.compat, runVersion := img.version }
  let s3 := s2.level Reg.FLS_CORE_CAUSE 0 6 426 64 (src == .recovery)
  let code := match src with
    | .active => 0
    | .other => 1
    | .recovery => 2
    | .loader => 3
  s3.record Config.codeBoot 0x3FF (BitVec.ofNat 32 (code + arb * 256))

/-! ### The watchdog (R417) -/

/-- Restarts stage 1 with the full period, unless the watchdog is disabled. -/
def wdgStart (s : State) : State :=
  if s.bit Reg.WDG_CTRL 0 0 then
    s.setWdg { s.wdg with stage := .stage1, ms := BitVec.ofNat 16 (s.fld Reg.WDG_STAGE1 0 15 0) }
  else s.setWdg { s.wdg with stage := .disabled, ms := 0 }

/-- Pauses the watchdog: the control cores are in retention, off or restarting. -/
def wdgPause (s : State) : State := s.setWdg { s.wdg with stage := .paused, ms := 0 }

/-- A kick with the right value restarts stage 1 in either stage; other values are ignored. -/
def wdgKick (s : State) (v : Word) : State :=
  if v = 0x00004B1C#32 ∧ (s.wdg.stage = .stage1 ∨ s.wdg.stage = .stage2) then s.wdgStart else s

/-! ### The recorder's buckets and clear index (R413, R416) -/

/-- Replaces the bucket of a code; its settings go to the dual-copy record. -/
def putBucket (s : State) (c : Nat) (b : Bucket) : State :=
  (s.setEvr { s.evr with buckets := Tab.put {} s.evr.buckets c b }).nvWrite (Config.nvBucket c)
    [b.rate.toNat, b.burst.toNat, b.list.toNat]

/-- A bucket gains a token, up to BURST + 1; at RATE 0 it gains none (R413). -/
def refill (s : State) (c : Nat) : State :=
  let b := Tab.get ({} : Bucket) s.evr.buckets c
  if b.rate = 0 then s
  else s.setEvr { s.evr with buckets := Tab.put {} s.evr.buckets c { b with tokens := min (b.tokens + 1) (b.burst.toNat + 1) } }

/-- At start-up the vault writer programs every source copy it still holds to the next free page (R403). -/
def vaultRestart (s : State) : State :=
  ((List.range s.flash.pages.length).filter fun i => match s.flash.pages[i]? with
    | some p => !p.settled && !p.bad
    | none => false).foldl (fun s i => s.vaultFailed i) s

end State

end Sys2Proof.Machine
end

