-- ==== Sys2Proof/Machine/PowerOps.lean ====
section
/-! DEFINITION. The rails, the sequence table and the transitions of the supervisor (chapter 17): the operations its commands
share. What a transition's end means for the other blocks is in `Power.lean`. -/

namespace Sys2Proof.Machine

/-- The fields of a sequence table entry (Table 17-1). DELAY is taken 8 bits wide, so that the default table's 135 ms of slot S2
holds. -/
structure SeqEntry where
  en : Bool
  dep : BitVec 24
  tPgq : Nat
  ramp : Nat
  delay : Nat
  keep : Nat
  group : Nat
  nChat : Nat

/-- Entry `k` of a sequence table of 96 words. -/
def seqAt (t : List Word) (k : Nat) : SeqEntry :=
  let w0 := t.getD (4 * k) 0
  let w1 := t.getD (4 * k + 1) 0
  let w2 := t.getD (4 * k + 2) 0
  { en := w0.getLsbD 31, dep := w0.setWidth 24, tPgq := bitsOf w1 24 16, ramp := bitsOf w1 15 8, delay := bitsOf w1 7 0,
    keep := bitsOf w2 9 8, group := bitsOf w2 6 4, nChat := bitsOf w2 3 0 }

/-- Every field of an entry lies in its range (R430 RANGE). -/
def SeqEntry.inRange (e : SeqEntry) : Bool :=
  decide (1 ≤ e.tPgq ∧ e.tPgq ≤ 500 ∧ 1 ≤ e.ramp ∧ e.delay ≤ 135 ∧ e.keep ≠ 3 ∧ e.group ≠ 7)

/-- The enabled slots of a table. -/
def seqEnabled (t : List Word) : BitVec 24 :=
  (List.range 24).foldl (fun m k => if (seqAt t k).en then m ||| BitVec.twoPow 24 k else m) 0

/-- Repeatedly removes the enabled slots none of whose dependencies is left. -/
def seqPeel (t : List Word) : Nat → BitVec 24 → BitVec 24
  | 0, left => left
  | n + 1, left =>
    seqPeel t n ((List.range 24).foldl
      (fun m k => if left.getLsbD k && (((seqAt t k).dep &&& left) == 0) then m &&& ~~~(BitVec.twoPow 24 k) else m) left)

/-- The DEP masks of the enabled slots form a cycle (R430 CONFIG_CYCLE). -/
def seqCyclic (t : List Word) : Bool := seqPeel t 24 (seqEnabled t) != 0

/-- The rails of a set that depend on rail `k` directly, by the active table. -/
def dependsOn (t : List Word) (set : BitVec 24) (k : Nat) : List Nat :=
  (List.range 24).filter fun j => set.getLsbD j && (seqAt t j).dep.getLsbD k && j != k

/-- A set of rails with every enabled rail that depends on one of them, directly or through others. -/
def withDependents (t : List Word) : Nat → BitVec 24 → BitVec 24
  | 0, m => m
  | n + 1, m =>
    withDependents t n ((List.range 24).foldl
      (fun a j => if (seqAt t j).en && (((seqAt t j).dep &&& a) != 0) then a ||| BitVec.twoPow 24 j else a) m)

namespace State

/-- Replaces the supervisor. -/
def setPsq (s : State) (p : Psq) : State := { s with psq := p }

/-- Replaces rail `k`. -/
def setRail (s : State) (k : Nat) (r : Rail) : State := s.setPsq { s.psq with rails := Tab.put {} s.psq.rails k r }

/-- Entry `k` of the active sequence table. -/
def seq (s : State) (k : Nat) : SeqEntry := seqAt s.psq.seqAct k

/-- The slot of quarry group `g` in a rail group map held in two words, 31 for none (R431, Table 17-10). -/
def mapSlot (w0 w1 : Word) (g : Nat) : Nat := if g < 6 then bitsOf w0 (5 * g + 4) (5 * g) else bitsOf w1 (5 * (g - 6) + 4) (5 * (g - 6))

/-- The slot of group `g` in the active map. -/
def groupSlot (s : State) (g : Nat) : Nat := mapSlot (s.reg Reg.PSQ_MGMAP_ACT0) (s.reg Reg.PSQ_MGMAP_ACT1) g

/-- The quarry group whose MG rail is slot `k`, by the active map. -/
def slotGroup (s : State) (k : Nat) : Option (Fin 9) := (List.finRange 9).find? fun g => s.groupSlot g == k

/-- Whether the rails of group `g` are qualified: its MG rail and MGQ, the rail of GROUP MEDIUM_IO that supplies VCCQ. -/
def groupRailsUp (s : State) (g : Nat) : Bool := decide ((s.rail (s.groupSlot g)).state = .on) && decide ((s.rail 19).state = .on)

/-- Every sleeping quarry lane wakes: only in IDLE does a lane sleep (R467). -/
def lanesWake (s : State) : State :=
  if s.med.chans.any fun p => p.2.lstate == .sleep then
    { s with med := { s.med with chans := Tab.mapVals {} (fun _ q => if q.lstate == .sleep then { q with lstate := .active } else q) s.med.chans } }
  else s

/-- PSTATE changes: STATE_CHANGE is captured, LOCKOUT follows, and lanes wake with the end of IDLE (R441, R467, Table 17-12). -/
def setPState (s : State) (p : PState) : State :=
  if s.psq.pstate = p then s
  else
    let s1 := (s.setPsq { s.psq with pstate := p }).cause Reg.PSQ_CAUSE 0 11 363
    let s2 := (s1.level Reg.PSQ_CAUSE 0 0 352 1 (p == .lockout)).lanesWake
    if p = .keep ∨ p = .dormant then s2.setTally { s2.tally with entry := s2.tally.now } else s2

/-- Any host request, command packet or slot firing brings the device back from IDLE to ACTIVE (Table 17-6, R442). -/
def wakeIdle (s : State) : State := if s.psq.pstate = .idle then s.setPState .active else s

/-- CROSSED is captured: a request met a transition (R446). -/
def crossed (s : State) : State := s.cause Reg.PSQ_CAUSE 0 9 361

/-- GROUP_DOWN of PSQ_CAUSE follows the groups held down (Table 17-12). -/
def judgeGroupDown (s : State) : State :=
  s.level Reg.PSQ_CAUSE 0 12 364 4096 (s.psq.groupsDown != 0 || s.psq.heldGroups != 0)

/-- INPUT_LOW of PSQ_CAUSE follows the input (Table 17-12). -/
def judgeInput (s : State) : State := s.level Reg.PSQ_CAUSE 0 3 355 8 (!s.psq.inputGood)

/-- The set of rails a power-up switches: every enabled slot. -/
def enabledRails (s : State) : BitVec 24 := seqEnabled s.psq.seqAct

/-- The rails of a set for which `p` holds. -/
def railsWhere (p : Nat → Bool) : BitVec 24 :=
  (List.range 24).foldl (fun m k => if p k then m ||| BitVec.twoPow 24 k else m) 0

/-- Every rail of the set is in state `st`. -/
def allRails (s : State) (set : BitVec 24) (st : RailState) : Bool :=
  (List.range 24).all fun k => !set.getLsbD k || (s.rail k).state == st

/-- Every rail of the set is off: its enable low and its state OFF, FAILED or DOWN. -/
def allOff (s : State) (set : BitVec 24) : Bool :=
  (List.range 24).all fun k => !set.getLsbD k || (!(s.rail k).en && !(s.rail k).pg)

/-- Starts a transition that brings the enabled rails of `set` up: those not on wait for their dependencies (R432). -/
def startUp (s : State) (kind : TransKind) (set : BitVec 24) : State :=
  let set := set &&& s.enabledRails
  let s1 := (List.range 24).foldl (fun (s : State) k =>
    let r := s.rail k
    if set.getLsbD k && r.state != .on then s.setRail k { r with state := .wait, drops := 0 } else s) s
  s1.setPsq { s1.psq with trans := some { kind := kind, rails := set } }

/-- Lowers the enable of rail `k` when every rail of the set that depends on it is off (R433). -/
def lowerRail (s : State) (set : BitVec 24) (k : Nat) : State :=
  let r := s.rail k
  if set.getLsbD k && r.en && (dependsOn s.psq.seqAct set k).all (fun j => !(s.rail j).en && !(s.rail j).pg) then
    s.setRail k { r with en := false }
  else s

/-- Starts taking the rails of `set` down: rails not yet started stop waiting, rails with no dependent go down first (R433). -/
def startDown (s : State) (kind : TransKind) (set : BitVec 24) : State :=
  let s1 := (List.range 24).foldl (fun (s : State) k =>
    let r := s.rail k
    if set.getLsbD k && !r.en then s.setRail k { r with state := .off, pg := false } else s) s
  let s2 := (List.range 24).foldl (fun (s : State) k =>
    if (dependsOn s.psq.seqAct set k).isEmpty then s.lowerRail set k else s) s1
  s2.setPsq { s2.psq with trans := some { kind := kind, rails := set, goingDown := true } }

/-- Every rail goes down as a fast power-down, all within 0.96 ms (R433). -/
def fastDown (s : State) : State :=
  s.setPsq { s.psq with
    rails := s.psq.rails.filterMap fun p =>
      let r : Rail := { p.2 with state := .off, en := false, pg := false, drops := 0 }
      if r = {} then none else some (p.1, r)
    trans := none, backoff := false, burst := none }

/-- Raises a rail's enable once its dependencies are met and the input is good (R428, R432). -/
def railStart (s : State) (k : Nat) : State :=
  match s.psq.trans with
  | some t =>
    let r := s.rail k
    let met := (List.range 24).all fun j =>
      !((s.seq k).dep.getLsbD j && t.rails.getLsbD j) || (s.rail j).state == .on || !(s.seq j).en
    if !t.goingDown && !s.psq.waiting.off && t.rails.getLsbD k && r.state == .wait && met && s.psq.inputGood then
      s.setRail k { r with state := .ramp, en := true, drops := 0 }
    else s
  | none => s

/-- Captures a cause of rail `k`: source 328 + k (R448). -/
def railCause (s : State) (k b : Nat) : State := s.cause Reg.PSQ_RAIL_CAUSE k b (328 + k)

/-- The DOWN cause of rail `k`: held down by a reaction (Table 17-10). -/
def railHeld (s : State) (k : Nat) (v : Bool) : State := s.level Reg.PSQ_RAIL_CAUSE k 4 (328 + k) 0x1F v

/-- The reaction of rail `k`, PSQ_REACTION (Table 17-3). -/
def railReaction (s : State) (k : Nat) : Nat :=
  if k < 16 then s.fld Reg.PSQ_REACTION0 0 (2 * k + 1) (2 * k) else s.fld Reg.PSQ_REACTION1 0 (2 * (k - 16) + 1) (2 * (k - 16))

/-- The retry count of rail `k`, PSQ_RETRY. -/
def railRetry (s : State) (k : Nat) : Nat :=
  if k < 8 then s.fld Reg.PSQ_RETRY0 0 (4 * k + 2) (4 * k)
  else if k < 16 then s.fld Reg.PSQ_RETRY1 0 (4 * (k - 8) + 2) (4 * (k - 8))
  else s.fld Reg.PSQ_RETRY2 0 (4 * (k - 16) + 2) (4 * (k - 16))

/-- What a sampled reaction comes to (R437): escalation when no retry is left, and the groups for which RETRY_RAIL or GROUP_OFF act
as SYSTEM_RESET. The flag says it escalated. -/
def effectiveReaction (group rx used count : Nat) : Nat × Bool :=
  let critical := group = 0 ∨ group = 4
  if rx = 3 ∨ rx = 0 then (rx, false)
  else if critical then (3, false)
  else if rx = 2 then (if group = 1 then 3 else 2, false)
  else if used < count then (1, false)
  else (if group = 1 then 3 else 2, true)

/-- The fields PSQ_LAST_FAULT keeps (R436). -/
def lastFault (s : State) (k rx count : Nat) (escalated : Bool) : State :=
  s.setReg Reg.PSQ_LAST_FAULT 0 (BitVec.ofNat 32 (k + rx * 32 + count * 128 + escalated.toNat * 1024))

/-! ### The staged tables (R430, R431) -/

/-- A COMMIT of the sequence table, by a write of requester `req`. -/
def seqCommit (s : State) (req : Requester) : State :=
  let refuse (c : Nat) : State :=
    ((s.setFld Reg.PSQ_SEQ_COMMIT 0 3 1 (1 + 2 * c))).cause Reg.PSQ_CAUSE 0 10 362
  if s.bit Reg.PSQ_LOCK 0 0 then s.lockViolation req (Reg.PSQ_SEQ_COMMIT.at 0)
  else if s.psq.trans.isSome then refuse 3
  else if !((List.range 24).all fun k => (seqAt s.psq.seqSh k).inRange) then refuse 2
  else if seqCyclic s.psq.seqSh then refuse 1
  else ((s.setFld Reg.PSQ_SEQ_COMMIT 0 3 1 0).setPsq { s.psq with seqAct := s.psq.seqSh }).nvWrite Config.nvSeqAct
    (s.psq.seqSh.map BitVec.toNat)

/-- The first check a rail group map fails, 0 for none (R431): 4 BUSY, 2 NOT_MG, 1 DUPLICATE, 3 NO_SLOT. -/
def mapError (s : State) (w0 w1 : Word) : Nat :=
  let gs := List.range 9
  let new (g : Nat) := mapSlot w0 w1 g
  if gs.any fun g => new g != s.groupSlot g && (s.rail (s.groupSlot g)).en then 4
  else if gs.any fun g => new g != 31 && (decide (24 ≤ new g) || (s.seq (new g)).group != 5) then 2
  else if gs.any fun g => new g != 31 && gs.any fun h => h != g && new h == new g then 1
  else if gs.any fun g => s.psq.inventoried.getLsbD g && new g == 31 then 3
  else 0

/-- A COMMIT of the rail group map, by a write of requester `req`. -/
def mapCommit (s : State) (req : Requester) : State :=
  let w0 := s.reg Reg.PSQ_MGMAP0
  let w1 := s.reg Reg.PSQ_MGMAP1
  let e := s.mapError w0 w1
  if s.bit Reg.PSQ_LOCK 0 0 then s.lockViolation req (Reg.PSQ_MGMAP_COMMIT.at 0)
  else if e ≠ 0 then (s.setFld Reg.PSQ_MGMAP_COMMIT 0 4 1 (1 + 2 * e)).cause Reg.PSQ_CAUSE 0 10 362
  else
    (((s.setFld Reg.PSQ_MGMAP_COMMIT 0 4 1 0).setReg Reg.PSQ_MGMAP_ACT0 0 w0).setReg Reg.PSQ_MGMAP_ACT1 0 w1).nvWrite
      Config.nvMgMap [w0.toNat, w1.toNat]

end State

end Sys2Proof.Machine
end

