-- ==== Sys2Proof/Machine/ChannelOps.lean ====
section
/-! DEFINITION. Taking a packet and answering it (chapter 14): the checks of Table 14-5 that concern the channel, the reply and the
completion, PENDING, duplicates, and delivery over each transport. What each opcode does is in the family files. -/

namespace Sys2Proof.Machine

/-! ### Status codes, Table 14-7 -/

/-- The status codes of Table 14-7. -/
inductive Status where
  | ok | busy | pending | badOpcode | badLength | badParam | notPermitted | wrongState | noSpace | noResource
  | twinUnavailable | witnessRequired | mediumError | collision | timeUntrusted | internal
  deriving DecidableEq, Repr

/-- The value of a status (Table 14-7). -/
def Status.code : Status → Nat
  | .ok => 0x00
  | .busy => 0x01
  | .pending => 0x02
  | .badOpcode => 0x10
  | .badLength => 0x11
  | .badParam => 0x12
  | .notPermitted => 0x20
  | .wrongState => 0x21
  | .noSpace => 0x30
  | .noResource => 0x31
  | .twinUnavailable => 0x40
  | .witnessRequired => 0x41
  | .mediumError => 0x50
  | .collision => 0x60
  | .timeUntrusted => 0x70
  | .internal => 0xF0

/-- What a command answers: its status, its result words, the results that a PENDING command will end with, the state it leaves,
and what happens once the reply has gone. -/
structure Answer where
  status : Status
  words : List Word := []
  keep : List Word := []
  state : State
  after : State → State := id

/-- The rights of a secure channel, in the order of R339. -/
inductive Right where
  | admin | witness | keys | firmware | lifecycle | clearLog | bench
  deriving DecidableEq, Repr

/-- The bit of a right in a channel's rights mask. -/
def Right.bit : Right → Nat
  | .admin => 0
  | .witness => 1
  | .keys => 2
  | .firmware => 3
  | .lifecycle => 4
  | .clearLog => 5
  | .bench => 6

/-- The words of a reply (R352): STATUS, FLAGS and LEN; TAG and CHAN_SEQ; the results. -/
def replyWords (st : Status) (completion : Bool) (tag seq : BitVec 16) (res : List Word) : List Word :=
  [BitVec.ofNat 32 (st.code * 65536 + completion.toNat * 256 + res.length), tag ++ seq] ++ res

namespace State

/-- Whether channel `c` holds a right: channel 0 holds every one, a session its mask, a non-secure channel none (R339). -/
def hasRight (s : State) (c : Nat) (r : Right) : Bool :=
  c == 0 || (secureChan c && (s.chan c).rights.getLsbD r.bit)


/-- Sends the words of a reply by a transport (R341, R346, R347): a page's outbound queue takes a packet whole when it has room
and holds it otherwise; a legacy page answers in its registers; the other transports carry one packet each, which the host's QP
holds until it is accepted (R303). -/
def deliver (s : State) (c : Fin 64) (via : Transport) (words : List Word) : State :=
  let ch := s.chan c
  match via with
  | .page =>
    if ch.hasRoom words.length then replyInterrupt c ch (s.setChan c { ch with outQ := ch.outQ ++ words })
    else s.setChan c { ch with waiting := ch.waiting ++ [words] }
  | .legacy =>
    let res := words.drop 2
    let lcmd := words.getD 0 0
    let data := (List.range 14).map fun i => if i < res.length then res.getD i 0 else ch.ldata.getD i 0
    replyInterrupt c ch (s.setChan c { ch with ldata := data, lcmd := lcmd, lgo := false, begun := false })
  | .rdmaQp =>
    (s.setChan c { ch with waiting := ch.waiting ++ [words] }).emit (.packet c via words)
  | _ =>
    let s1 := s.emit (.packet c via words)
    if c.val = 0 then s1.emit .inBandInterrupt else s1

/-- Keeps a final reply for CMD_STATUS: the last 16 of the channel (R355). -/
def keepReply (s : State) (c : Nat) (tag : BitVec 16) (words : List Word) : State :=
  let ch := s.chan c
  s.setChan c { ch with done := (({ tag := tag, words := words } : FinalReply) :: ch.done).take 16 }

/-- Remembers the packet last taken by a transport and its reply, for the duplicate check (R354). -/
def keepLast (s : State) (r : AzReq) (words : List Word) : State :=
  let ch := s.chan r.chan
  s.setChan r.chan { ch with
    last := { via := r.via, seq := r.seq, tag := r.tag, reply := words } :: ch.last.filter fun l => l.via != r.via }

/-- Answers a packet: the reply goes out, is remembered, and, where it is final, is kept; a PENDING one is outstanding. -/
def answer (r : AzReq) (opcode : Nat) (a : Answer) : State :=
  let words := replyWords a.status false r.tag r.seq a.words
  let s1 := a.state.keepLast r words
  let s2 :=
    if a.status = .pending then
      let ch := s1.chan r.chan
      s1.setChan r.chan { ch with ops := ch.ops ++ [{
        tag := r.tag, seq := r.seq, opcode := BitVec.ofNat 16 opcode, quiet := r.quiet, via := r.via, params := r.params, res := a.keep }] }
    else s1.keepReply r.chan r.tag words
  a.after (if r.via = .legacy ∧ a.status = .pending then s2 else s2.deliver r.chan r.via words)

/-- Ends a PENDING command (R355): it leaves the outstanding ones, its completion goes out unless QUIET was set, and is kept. A
mailbox command's completion enters the outbound queue of the page (Table 14-2). -/
def complete (s : State) (c : Fin 64) (tag : BitVec 16) (st : Status) (res : List Word) : State :=
  let ch := s.chan c
  match ch.ops.find? fun o => o.tag == tag with
  | none => s
  | some o =>
    let words := replyWords st true o.tag o.seq res
    let s1 := (s.setChan c { ch with ops := ch.ops.filter fun p => p.tag != tag }).keepReply c tag words
    let via := if o.via = .mailbox then .page else o.via
    if o.quiet && o.via != .legacy then s1 else s1.deliver c via words

/-- The SESSION a packet of the channel must carry (Table 14-4). -/
def sessionOf (s : State) (c : Nat) : Word :=
  match (s.chan c).who with
  | .shelf => 0
  | .spdm sid => sid
  | _ => (s.chan c).session

/-- The last packet taken by the same transport carried the same CHAN_SEQ; legacy packets are never duplicates (R354). -/
def duplicateOf (s : State) (r : AzReq) : Option LastPacket :=
  if r.via = .legacy then none
  else (s.chan r.chan).last.find? fun l => l.via == r.via && l.seq == r.seq

/-- The stored answer to a duplicate (R354): PENDING while the original works, else its final reply. -/
def duplicateReply (s : State) (c : Nat) (l : LastPacket) : List Word :=
  if (s.chan c).ops.any fun o => o.tag == l.tag && o.seq == l.seq then l.reply
  else match (s.chan c).done.find? fun d => d.tag == l.tag with
    | some d => d.words
    | none => l.reply

/-- The device state forbids a packet before its own checks (R356): in DORMANT and LOCKOUT all but the opcodes the always-on
domain answers for channel 0 by MCTP or legacy transfer. -/
def stateForbids (s : State) (r : AzReq) (opcode : Nat) : Bool :=
  let p0 := (r.params.getD 0 0).toNat
  match s.psq.pstate with
  | .dormant | .lockout | .poweringDown | .poweringUp =>
    !((r.chan.val == 0 && (r.via == .legacy || r.via == .mctp)) &&
      (opcode == 0x0901 || (opcode == 0x0905 && (p0 == 1 || p0 == 3)) || opcode == 0x0909 || opcode == 0x090A ||
        (opcode == 0x0905 && s.psq.pstate != .dormant)))
  | _ => false

/-- In KEEP the commands that need a host port, an open domain or a medium group outside its burst are refused (R356), at check 10. -/
def keepForbids (s : State) (opcode : Nat) : Bool :=
  s.psq.pstate == .keep && s.psq.burst.isNone && decide ((0x0201 ≤ opcode ∧ opcode ≤ 0x0205) ∨ (0x0208 ≤ opcode ∧ opcode ≤ 0x020B) ∨
    (0x0401 ≤ opcode ∧ opcode ≤ 0x0408 ∧ opcode ≠ 0x0402) ∨ opcode = 0x0501 ∨ opcode = 0x0502 ∨ opcode = 0x0503 ∨
    opcode = 0x0602 ∨ opcode = 0x0A01 ∨ (0x0B05 ≤ opcode ∧ opcode ≤ 0x0B0A) ∨ opcode = 0x0C02 ∨ opcode = 0x0C03 ∨
    opcode = 0x0C04 ∨ opcode = 0x0C06)

/-- The recovery image refuses what it does not serve (R421). -/
def recoveryForbids (s : State) (r : AzReq) (opcode : Nat) : Bool :=
  s.flash.cores == .recovery &&
    !(decide (r.chan.val < 8) && (r.via == .legacy || r.via == .mctp) &&
      (opcode / 256 == 0x01 || opcode / 256 == 0x07 || opcode / 256 == 0x08 || decide (0x0901 ≤ opcode ∧ opcode ≤ 0x090A)))

/-- Mingaso, or the always-on domain in its place, can take a packet of the channel now (R356, R357): not while the control cores restart,
nor with 16 replies held. -/
def canTake (s : State) (c : Nat) : Bool :=
  s.psq.vaon && decide ((s.chan c).waiting.length < 16) &&
    (match s.psq.pstate with
      | .dormant | .lockout | .poweringUp | .poweringDown => true
      | .keep => s.flash.cores == .retention || s.flash.cores == .running
      | _ => s.psq.mainUp && (s.flash.cores == .running || s.flash.cores == .recovery))

/-- The session of a secure channel lives on an LD whose port has no CXL.io link IDE (R343): its page takes no packet. -/
def pageInsecure (s : State) (r : AzReq) : Bool :=
  match r.via, (s.chan r.chan).who with
  | .page, .spdm sid | .legacy, .spdm sid =>
    !(s.cxl.lds.any fun p => p.2.sessions.contains sid && (Tab.get ({} : CxlPort) s.cxl.ports (p.1 / 16)).ideIo)
  | _, _ => false

/-- Takes one packet (R354, Table 14-5, checks 4 to 10; 1 to 3 concern the words a page or message brought). `permitted` is check 7,
`lens` the LEN values of the opcode, `pends` that the opcode may answer PENDING, and `body` checks 9 and 10 and the command.
A packet that cannot be taken now waits. -/
def take (s : State) (r : AzReq) (opcode : Nat) (permitted : Bool) (lens : Nat → Bool) (pends : Bool)
    (body : State → Answer) : State :=
  if !s.canTake r.chan then
    if s.psq.vaon then
      let ch := s.chan r.chan
      s.setChan r.chan { ch with held := ch.held ++ [{ opcode := BitVec.ofNat 16 opcode, req := r }] }
    else s
  else if (s.chan r.chan).who = .none ∨ s.pageInsecure r ∨ (r.via ≠ .legacy ∧ r.session ≠ s.sessionOf r.chan) then
    s.wakeIdle.deliver r.chan r.via (replyWords .notPermitted false r.tag r.seq [])
  else match s.duplicateOf r with
    | some l => s.deliver r.chan r.via (s.duplicateReply r.chan l)
    | none =>
      let fail (st : Status) (res : List Word) : State := answer r opcode { status := st, words := res, state := s.wakeIdle }
      if s.stateForbids r opcode || s.recoveryForbids r opcode then fail .wrongState []
      else if pends && decide (8 ≤ (s.chan r.chan).ops.length) then fail .busy []
      else if !permitted then fail .notPermitted []
      else if !lens r.params.length || (r.via == .legacy && decide (14 < r.params.length)) then fail .badLength [0]
      else if r.flags ≠ 0 then fail .badParam [0]
      else
        let a := body s.wakeIdle
        if s.keepForbids opcode && a.status != .badParam then fail .wrongState []
        else if r.via = .legacy ∧ 14 < a.words.length then fail .badLength [] else answer r opcode a

end State

end Sys2Proof.Machine
end

