-- ==== Sys2Proof/Machine/EybOps.lean ====
section
/-! DEFINITION. Effective age, drift bands, the read bin and the young map (chapter 5), and Eyebright's marks on a die. Ages are
whole seconds. Comparisons of log-ages are made exactly, as comparisons of products of 1 + age. -/

namespace Sys2Proof.Machine

/-! ### Channels, dies and setts -/

namespace State

/-- Replaces the medium side. -/
def setMed (s : State) (m : Medium) : State := { s with med := m }

/-- Replaces quarry channel `n`. -/
def setQc (s : State) (n : Nat) (c : QChan) : State := s.setMed { s.med with chans := Tab.put {} s.med.chans n c }

/-- Replaces medium group `g`. -/
def setQg (s : State) (g : Nat) (v : QGroup) : State := s.setMed { s.med with groups := Tab.put {} s.med.groups g v }

/-- Replaces die `d`. -/
def setDie (s : State) (d : Nat) (v : Die) : State := s.setMed { s.med with dies := Tab.put {} s.med.dies d v }

/-- Replaces the translation entry of logical sett `n`. -/
def setSett (s : State) (n : Nat) (v : Sett) : State := s.setMed { s.med with setts := Tab.put {} s.med.setts n v }

/-- The young generations of a sett, oldest first. -/
def youngOf (s : State) (n : Nat) : List Young := Tab.get [] s.med.young n

/-- Replaces the young generations of a sett. -/
def setYoung (s : State) (n : Nat) (v : List Young) : State := s.setMed { s.med with young := Tab.put [] s.med.young n v }

/-- The group of a die index. -/
def dieGroup (d : Nat) : Nat := d / 256

end State

/-! ### Effective age (R94) -/

/-- A of the newest entry, 0 if the log is empty. -/
def aNow (log : List AgeEntry) : Int := (log.getLast?.map AgeEntry.a).getD 0

/-- A of the newest entry with T at or before `t`, 0 if there is none. -/
def aAt (log : List AgeEntry) (t : Nat) : Int := (((log.filter fun e => e.t ≤ t).getLast?).map AgeEntry.a).getD 0

/-- The effective age, at time `now`, of a stamp `t` on a die with age-scale log `log` (R94). -/
def ageEff (log : List AgeEntry) (now t : Nat) : Nat := ((now : Int) - t + (aNow log - aAt log t)).toNat

/-- The effective age of a stamp in 1/256 s, at a time in 1/256 s (R93, R94): young-map times carry eight fraction bits. -/
def ageFine (log : List AgeEntry) (now t : Nat) : Nat := ((now : Int) - t + 256 * (aNow log - aAt log (t / 256))).toNat

/-! ### Bins and bands -/

/-- The least product (1 + a_old)(1 + a_new) of each bin from 1 to 15, with each factor in 1/256 s: 65536 × 10^(2 × (0.30103 + 0.578346 × (b − ½))),
rounded up (R102). -/
def binEdges : List Nat :=
  [992856, 14242228, 204300736, 2930636341, 42039150415, 603039736895, 8650434670656, 124088041654753, 1780007903411433,
    25533710532902220, 366273864474715655, 5254095115724406035, 75368510184773784497, 1081139987449421222023, 15508648704413197882115]

/-- The bin nearest the midpoint of two log-ages, clamped to 0 to 15 (R102); ages in 1/256 s. -/
def binOf (aOld aNew : Nat) : Nat := (binEdges.filter fun e => decide (e ≤ (256 + aOld) * (256 + aNew))).length

/-- g(aOld) − g(aNew) is at most the band limit L of the mode: 2.0, 1.0 or 0.5 decades (Table 5-3); ages in 1/256 s. -/
def withinSpan (m : Mode) (aOld aNew : Nat) : Bool :=
  match m with
  | .none => true
  | .m2 => decide (256 + aOld ≤ 100 * (256 + aNew))
  | .m3 => decide (256 + aOld ≤ 10 * (256 + aNew))
  | .m4 => decide ((256 + aOld) * (256 + aOld) ≤ 10 * ((256 + aNew) * (256 + aNew)))

/-- The young extension window of a mode in seconds (Table 5-3). -/
def youngWindow : Mode → Nat
  | .none => 0
  | .m2 => 99
  | .m3 => 9
  | .m4 => 2

/-- The retention of a mode in seconds (Table 3-7). -/
def retention : Mode → Nat
  | .none => 0
  | .m2 => 315532800
  | .m3 => 126230400
  | .m4 => 47347200

/-- The offsets a walker uses for a sett's band: 2,048 for both once BAND_NEW is 64 or more epochs old, else the offset word's (R100). -/
def bandOffsets (e : Sett) (epoch : Nat) : Nat × Nat :=
  if 64 ≤ epoch - e.bandNew.toNat then (2048, 2048) else (e.oldOfs.toNat, e.newOfs.toNat)

namespace State

/-- S_NOW in seconds as a number. -/
def nowSecs (s : State) : Nat := s.sNow.toNat

/-- The epoch of S_NOW. -/
def nowEpoch (s : State) : Nat := s.nowSecs / 4096

/-- The effective age of a stamp on a die (R94). -/
def age (s : State) (d t : Nat) : Nat := ageEff (s.die d).log s.nowSecs t

/-- The stamp of a young-map time: S_NOW's seconds with eight fraction bits (R93). -/
def youngStamp (s : State) : BitVec 40 :=
  ((if s.tally.jumpPending then s.tally.pend else s.tally.now) >>> 8).setWidth 40

/-- The effective age, in 1/256 s, of a young-map time on a die (R94, R102). -/
def youngAge (s : State) (d : Nat) (t : BitVec 40) : Nat := ageFine (s.die d).log s.youngStamp.toNat t.toNat

/-- The stamps of the edges of a sett's band, as the walker takes them (R100). -/
def bandStamps (s : State) (e : Sett) : Nat × Nat :=
  let o := bandOffsets e s.nowEpoch
  (e.bandOld.toNat * 4096 + o.1, e.bandNew.toNat * 4096 + o.2)

/-- The newest young generation a line lives in. -/
def generationOf (s : State) (n line : Nat) : Option Young := (s.youngOf n).reverse.find? fun g => g.lines.getLsbD line

/-- The bin in which the walker has a line read (R102). -/
def readBin (s : State) (n line : Nat) : Nat :=
  let e := s.sett n
  match e.phys with
  | none => 0
  | some p =>
    match s.generationOf n line with
    | some g => binOf (s.youngAge p.die g.tFirst) (s.youngAge p.die g.tLast)
    | none =>
      let b := s.bandStamps e
      binOf (256 * s.age p.die b.1) (256 * s.age p.die b.2)

/-- Sets a sett's band from the stamps of its first and last program, frees its young generations and clears YOUNG: a whole-sett
program (R103). -/
def setBand (s : State) (n : Nat) (first last : Nat) : State :=
  let e := s.sett n
  (s.setSett n { e with
    band := true, bandOld := BitVec.ofNat 20 (first / 4096), oldOfs := BitVec.ofNat 12 (first % 4096)
    bandNew := BitVec.ofNat 20 (last / 4096), newOfs := BitVec.ofNat 12 (last % 4096), young := false }).setYoung n []

/-! ### The young map (R104 to R107) -/

/-- The bucket of a sett. -/
def youngBucket (n : Nat) : Nat := Config.youngHash n % 1048576

/-- The generations in the bucket of a sett: its own and those of the setts that hash to it (R104). -/
def bucketGens (s : State) (n : Nat) : List Young :=
  s.youngOf n ++ (s.med.young.filter fun p => p.1 != n && youngBucket p.1 == youngBucket n).flatMap Prod.snd

/-- The ways in use in the bucket of a sett (R104). -/
def bucketUsed (s : State) (n : Nat) : Nat := (s.bucketGens n).length

/-- The lowest free way of the bucket of a sett, none where the bucket is full (R104). -/
def freeWay (s : State) (n : Nat) : Option (Fin 4) :=
  (List.finRange 4).find? fun w => !(s.bucketGens n).any fun g => g.way == w

/-- The tag of a generation as the tag array holds it (Table 5-4). -/
def youngTag (n : Nat) (g : Young) : BitVec 128 :=
  let lines := ((List.range 256).filter fun i => g.lines.getLsbD i).length
  BitVec.ofNat 128 (n * 2 ^ 97 + lines * 2 ^ 88 + g.tLast.toNat * 2 ^ 48 + g.tFirst.toNat * 2 ^ 8 + 128)

/-- Way `w` of bucket `b` (R104): the sett whose generation it holds, and the generation. A way not in use holds none. -/
def youngWay (s : State) (b : Nat) (w : Fin 4) : Option (Nat × Young) :=
  s.med.young.findSome? fun p => if youngBucket p.1 == b then (p.2.find? fun g => g.way == w).map fun g => (p.1, g) else none

/-- The 16 B of the tag array at way `w` of bucket `b`, and the 32 B of the map array beside it (R104): zero where VALID is 0. -/
def youngArrays (s : State) (b : Nat) (w : Fin 4) : BitVec 128 × BitVec 256 :=
  match s.youngWay b w with
  | some (n, g) => (youngTag n g, g.lines)
  | none => (0, 0)

/-- The line leaves every older generation; a generation with no line left is freed (R105). The newest keeps it. -/
def youngClear (s : State) (n line : Nat) : State :=
  let gs := s.youngOf n
  let old := (gs.dropLast.map fun g => { g with lines := g.lines &&& ~~~(BitVec.twoPow 256 line) }).filter fun g => g.lines != 0
  s.setYoung n (old ++ gs.drop (gs.length - 1))

/-- A generation starts in a free way with one line, which leaves the generation that was the newest (R105). -/
def youngStart (s : State) (n line : Nat) (w : Fin 4) (t : BitVec 40) : State :=
  let bit := BitVec.twoPow 256 line
  let rest := ((s.youngOf n).map fun g => { g with lines := g.lines &&& ~~~bit }).filter fun g => g.lines != 0
  (s.setYoung n (rest ++ [{ way := w, tFirst := t, tLast := t, lines := bit }])).setSett n { s.sett n with young := true }

/-- A lone line of a sett verifies at stamp `t` (R105): it joins the newest generation within the window, or starts one in a free
way, or, answered `false`, stays held dirty for want of a way. -/
def youngAdd (s : State) (n line : Nat) (t : BitVec 40) : State × Bool :=
  let s1 := s.youngClear n line
  let gs := s1.youngOf n
  let joins (g : Young) : Bool := decide (t.toNat - g.tFirst.toNat ≤ youngWindow (s1.sett n).mode * 256)
  match gs.getLast?.filter joins with
  | some g => (s1.setYoung n (gs.dropLast ++ [{ g with tLast := t, lines := g.lines ||| BitVec.twoPow 256 line }]), true)
  | none => match s1.freeWay n with
    | some w => (s1.youngStart n line w t, true)
    | none => (s1, false)

/-- One generation merge of a sett, for the oldest pair that may merge (R106). -/
def mergePair (s : State) (d : Nat) (m : Mode) : List Young → List Young
  | a :: b :: gs =>
    if withinSpan m (s.youngAge d a.tFirst) (s.youngAge d b.tLast) then
      { a with tLast := b.tLast, lines := a.lines ||| b.lines } :: gs
    else a :: mergePair s d m (b :: gs)
  | gs => gs

/-- The sweeper's visit to a sett (R106): one generation merge, then the band merge of the oldest generation where the band's limit
allows it; YOUNG clears with the last generation. Answers whether the band has changed. -/
def youngSweep (s : State) (n : Nat) : State × Bool :=
  let e := s.sett n
  match e.phys with
  | none => (s, false)
  | some p =>
    let gs := s.mergePair p.die e.mode (s.youngOf n)
    let s1 := s.setYoung n gs
    match gs with
    | [] => (s1.setSett n { e with young := false }, false)
    | g :: rest =>
      let tl := g.tLast.toNat / 256
      if withinSpan e.mode (256 * s.age p.die (s.bandStamps e).1) (s.youngAge p.die g.tLast) then
        ((s1.setYoung n rest).setSett n { e with
          bandNew := BitVec.ofNat 20 (tl / 4096), newOfs := BitVec.ofNat 12 (tl % 4096), young := !rest.isEmpty }, true)
      else (s1, false)

/-! ### Eyebright -/

/-- The OR of the level bits of EYB_CAUSE over all dies (R121): SENTINEL, FIT_FAIL, OUT_OF_RANGE. -/
def judgeEyb (s : State) : State :=
  let any (p : Die → Bool) : Bool := s.med.dies.any fun d => p d.2
  let s1 := s.level Reg.EYB_CAUSE 0 0 155 0x707 (any fun d => d.sentinel)
  let s2 := s1.level Reg.EYB_CAUSE 0 1 155 0x707 (any fun d => d.identified && !d.fitOk)
  s2.level Reg.EYB_CAUSE 0 2 155 0x707 (any fun d => d.outOfRange)

/-- Entries are made at the end of an age-scale log, which holds 256 (R94): with no room left the oldest is folded into its successor. DESIGN
CHOICE (log entry 115): the spec folds at 240 entries and does not say what a full log does. -/
def logPut (log es : List AgeEntry) : List AgeEntry := (log ++ es).drop ((log ++ es).length - 256)

/-- Writes the map band record of a die (R248). -/
def setMapBand (s : State) (d : Nat) (b : MapBand) : State :=
  ({ s with xlt := { s.xlt with map := { s.xlt.map with bands := Tab.put none s.xlt.map.bands d (some b) } } }).nvWrite (Config.nvMapBand d)
    ([b.oldest, b.newest] ++ [b.aOldest, b.aNewest, b.a].map fun a => (BitVec.ofInt 32 a).toNat)

/-- A die's age-scale log takes a new form, and the newest adjustment in its map band record follows (R248). -/
def setLog (s : State) (d : Nat) (log : List AgeEntry) : State :=
  let m := s.xlt.map
  let s1 := s.setDie d { s.die d with log := log }
  match Tab.get none m.bands d with
  | some b => s1.setMapBand d { b with a := aNow log }
  | none => s1

/-- Appends an entry to a die's age-scale log (R94, R95). -/
def logAppend (s : State) (d : Nat) (a : Int) : State := s.setLog d (logPut (s.die d).log [{ t := s.nowSecs, a := a }])

/-- The die's wake deadline in seconds (R61): TLY_NOW plus the retention left, divided by its age scale where that is above 1. `a` is
the largest effective age of a band on the die and `r` its mode's retention. -/
def dieDeadline (s : State) (d a r : Nat) : Int :=
  let scale := max 4096 (s.die d).scale.toNat
  ((s.tally.now >>> 16).toNat : Int) + ((r : Int) - a) * 4096 / scale

/-- For each die that is not failed and holds a band, the largest effective age of a band on it and that band's retention; of bands of one age, the
least retention (R61). -/
def oldestBands (s : State) : Tab (Nat × Nat) :=
  s.med.setts.foldl (fun (t : Tab (Nat × Nat)) p =>
    match p.2.phys, p.2.band with
    | some q, true =>
      if (s.die q.die).failed then t
      else
        let new := (s.age q.die (s.bandStamps p.2).1, retention p.2.mode)
        match t.find? fun e => e.1 == q.die with
        | some e => if e.2.1 < new.1 ∨ (e.2.1 = new.1 ∧ new.2 < e.2.2) then (q.die, new) :: t.filter fun x => x.1 != q.die else t
        | none => (q.die, new) :: t
    | _, _ => t) []

/-- The earliest die deadline and its die, none where no die holds a band (R61). -/
def earliestDeadline (s : State) : Option (Int × Nat) :=
  s.oldestBands.foldl (fun best e =>
    let dl := s.dieDeadline e.1 e.2.1 e.2.2
    match best with
    | some (b, d) => if dl < b ∨ (dl = b ∧ e.1 < d) then some (dl, e.1) else some (b, d)
    | none => some (dl, e.1)) none

/-- Mingaso computes the wake deadline and writes it (R61): the earliest die deadline less the margin, all ones without one. Source
158 falls when the deadline now lies ahead (R62). -/
def writeDeadline (s : State) : State :=
  let margin := s.fld Reg.TLY_WAKE_CTRL 0 7 0 * 86400
  let v : Dword := match s.earliestDeadline with
    | none => BitVec.allOnes 64
    | some (t, _) => BitVec.ofNat 64 ((t - margin).toNat * secUnits)
  let s1 := (s.setReg64 Reg.TLY_WAKE_DEADLINE_LO Reg.TLY_WAKE_DEADLINE_HI 0 v).nvWrite Config.nvDeadline [v.toNat]
  if s1.tally.now < v then s1.lower 158 else s1

end State

end Sys2Proof.Machine
end

