-- ==== Sys2Proof/Machine/Frames.lean ====
section
/-! DEFINITION. The frame and the flit bit by bit: the frame's layout, its BCH code and its decoders (R115, R152, R153), and the flits, link control
and messages of a quarry lane (R69, R73 to R75). -/

namespace Sys2Proof.Machine

/-! ### The frame (R152, R153) -/

/-- `n` bits of a codeword from position `lo`, in ascending order. -/
def frameBits (w : BitVec 2400) (lo n : Nat) : List Bool := (List.range n).map fun i => w.getLsbD (lo + i)

/-- A word is a codeword: positions 2,112 on hold the remainder, highest power first. -/
def isCodeword (w : BitVec 2400) : Bool :=
  bchParity (frameBits w 0 2112) == ((w >>> 2112).setWidth 288).reverse

/-- The CRC-12 over DATA and the header above the CRC. -/
def frameCrc (w : BitVec 2400) : BitVec 12 := crc12 (frameBits w 0 2048 ++ frameBits w 2060 52)

/-- The CRC-12 of a word checks: bit k of it stands at header bit k. -/
def frameCrcOk (w : BitVec 2400) : Bool := frameCrc w == (w >>> 2048).setWidth 12

/-- The 300 B of a frame as it is programmed (Tables 7-1 and 7-2): DATA, HEADER with its CRC-12, PARITY. -/
def Frame.word (f : Frame) : BitVec 2400 :=
  let h : BitVec 64 := (f.gen ++ f.epoch ++ f.lrot ++ (0 : BitVec 12)).setWidth 64
  let w0 : BitVec 2400 := f.data.setWidth 2400 ||| (h.setWidth 2400 <<< 2048)
  let w1 := w0 ||| ((frameCrc w0).setWidth 2400 <<< 2048)
  w1 ||| ((bchParity (frameBits w1 0 2112)).reverse.setWidth 2400 <<< 2112)

/-- A frame after decode and CRC: its header fields, DATA, the bits corrected, and whether it is the blank frame. -/
structure Decoded where
  gen : BitVec 24
  epoch : BitVec 20
  lrot : BitVec 8
  data : Line
  corrected : Nat
  blank : Bool
  deriving DecidableEq, Repr

/-- The fields of a corrected word. -/
def decodedOf (w : BitVec 2400) (corrected : Nat) : Decoded :=
  let h : BitVec 64 := (w >>> 2048).setWidth 64
  { gen := (h >>> 40).setWidth 24, epoch := (h >>> 20).setWidth 20, lrot := (h >>> 12).setWidth 8, data := w.setWidth 2048
    corrected := corrected, blank := w == 0 }

/-! ### Decoding (R153) -/

/-- The product of two elements of GF(2¹²), with x¹² = x⁶ + x⁴ + x + 1. -/
def gfMul (a b : BitVec 12) : BitVec 12 :=
  (List.range 12).foldl (fun (r : BitVec 12) i =>
    let d := if r.getLsbD 11 then (r <<< 1) ^^^ 0x053#12 else r <<< 1
    if b.getLsbD (11 - i) then d ^^^ a else d) 0

/-- The first `n` powers of an element from `x`. -/
def gfPowers (a : BitVec 12) : Nat → BitVec 12 → List (BitVec 12)
  | 0, _ => []
  | n + 1, x => x :: gfPowers a n (gfMul x a)

/-- The inverse of an element: its power 4,094, by twelve squarings. -/
def gfInv (a : BitVec 12) : BitVec 12 :=
  ((List.range 11).foldl (fun (p : BitVec 12 × BitVec 12) _ => let q := gfMul p.1 p.1; (q, gfMul p.2 q)) (a, 1)).2

/-- The syndromes of a word: c(α), c(α²), …, c(α⁴⁸). -/
def syndromes (w : BitVec 2400) : List (BitVec 12) :=
  let bits := frameBits w 0 2400
  (gfPowers 2 48 2).map fun a => bits.foldl (fun (s : BitVec 12) b => let t := gfMul s a; if b then t ^^^ 1 else t) 0

/-- Adds two polynomials over GF(2¹²), lowest coefficient first. -/
def gfAdd : List (BitVec 12) → List (BitVec 12) → List (BitVec 12)
  | [], q => q
  | p, [] => p
  | a :: p, b :: q => (a ^^^ b) :: gfAdd p q

/-- What the search for the error locator keeps: the syndromes seen, newest first; the locator and its length; the last locator that was replaced, its
discrepancy, and the steps since. -/
structure Locator where
  seen : List (BitVec 12) := []
  now : List (BitVec 12) := [1]
  len : Nat := 0
  old : List (BitVec 12) := [1]
  oldD : BitVec 12 := 1
  gap : Nat := 1

/-- One syndrome more (Berlekamp and Massey). -/
def Locator.step (l : Locator) (x : BitVec 12) : Locator :=
  let seen := x :: l.seen
  let d := (List.zipWith gfMul (l.now.take (l.len + 1)) seen).foldl (· ^^^ ·) 0
  if d = 0 then { l with seen := seen, gap := l.gap + 1 }
  else
    let k := gfMul d (gfInv l.oldD)
    let next := gfAdd l.now (List.replicate l.gap 0 ++ l.old.map fun c => gfMul c k)
    if 2 * l.len ≤ l.seen.length then
      { seen := seen, now := next, len := l.seen.length + 1 - l.len, old := l.now, oldD := d, gap := 1 }
    else { l with seen := seen, now := next, gap := l.gap + 1 }

/-- The bits in error that the syndromes locate: position p where the locator vanishes at α to the power p − 2,399, as a mask. -/
def errorMask (w : BitVec 2400) : BitVec 2400 :=
  let loc := ((syndromes w).foldl Locator.step {}).now
  let step := gfInv 2
  let first := ((List.range 2399).foldl (fun x _ => gfMul x step) (1 : BitVec 12))
  ((gfPowers 2 2400 first).foldl (fun (a : BitVec 2400 × Nat) x =>
    let v := (loc.foldr (fun c (s : BitVec 12) => gfMul s x ^^^ c) 0)
    (if v = 0 then a.1 ||| BitVec.twoPow 2400 a.2 else a.1, a.2 + 1)) (0, 0)).1

/-- The codeword within 24 bits of a word, and the bits that differ; none where there is none (R153). -/
def bchDecode (w : BitVec 2400) : Option (BitVec 2400 × Nat) :=
  if isCodeword w then some (w, 0)
  else
    let e := errorMask w
    let n := (frameBits e 0 2400).count true
    if n ≤ 24 && isCodeword (w ^^^ e) then some (w ^^^ e, n) else none

/-- Steps 1 and 2 of R154: none where the frame is beyond the hard decoder's reach. -/
def hardDecode (f : BitVec 2400) : Option Decoded :=
  (bchDecode f).bind fun p => if frameCrcOk p.1 then some (decodedOf p.1 p.2) else none

/-- The ten least reliable bits of three senses (R115): first those that both shifted senses read unlike the middle one, then those that one does, then
the others, each by rising position. DESIGN CHOICE (log entry 121): the spec does not say how the senses give a reliability. -/
def softBits (ref plus minus : BitVec 2400) : List Nat :=
  let weight (i : Nat) : Nat := (ref.getLsbD i != plus.getLsbD i).toNat + (ref.getLsbD i != minus.getLsbD i).toNat
  let ps := List.range 2400
  ((ps.filter fun i => weight i == 2) ++ (ps.filter fun i => weight i == 1) ++ ps.filter fun i => weight i == 0).take 10

/-- Soft decode (R115): 1,024 test patterns over the ten least reliable bits, in counting order (log entry 121), each followed by a hard decode; the first
that decodes and passes the CRC-12. -/
def softDecode (ref plus minus : BitVec 2400) : Option Decoded :=
  let bits := softBits ref plus minus
  (List.range 1024).findSome? fun k =>
    hardDecode (ref ^^^ (bits.foldl (fun (a : BitVec 2400 × Nat) i =>
      (if k.testBit a.2 then a.1 ||| BitVec.twoPow 2400 i else a.1, a.2 + 1)) (0, 0)).1)

/-! ### Codes of the messages (R74, R75) -/

/-- The code of a mode as commands and the translation entry hold it (Tables 4-5 and 10-1). -/
def Mode.code : Mode → Nat
  | .none => 0
  | .m2 => 1
  | .m3 => 2
  | .m4 => 3

/-- The mode of a code. -/
def Mode.ofCode (n : Nat) : Mode := if n % 4 = 1 then .m2 else if n % 4 = 2 then .m3 else if n % 4 = 3 then .m4 else .none

/-- OPCODE of a command (Table 4-6). -/
def QmiOp.code : QmiOp → Nat
  | .read => 0x01
  | .marginRead => 0x02
  | .softRead => 0x03
  | .program => 0x10
  | .setRef => 0x20
  | .getRef => 0x21
  | .setZoneMode => 0x30
  | .dieStatus => 0x40
  | .identify => 0x41
  | .completionLog => 0x42
  | .dieReset => 0x60

/-- STATUS of a die (Table 4-8). -/
def DieStatus.code : DieStatus → Nat
  | .ok => 0x00
  | .progFail => 0x01
  | .badAddress => 0x02
  | .modeMismatch => 0x03
  | .refUnset => 0x04
  | .partitionBusy => 0x05
  | .aborted => 0x06
  | .dieFault => 0x07

/-- The five words of a command's header (Table 4-5); no opcode uses ARG. -/
def QmiCmd.header (c : QmiCmd) : List Word :=
  [BitVec.ofNat 32 (c.op.code + c.die.val * 2 ^ 8 + c.tag.toNat * 2 ^ 12 + c.count % 16 * 2 ^ 22)
    , BitVec.ofNat 32 (c.zone % 64 + c.slot % 16384 * 2 ^ 6 + c.line % 256 * 2 ^ 20)
    , BitVec.ofNat 32 (c.refset % 16 + c.mode.code * 2 ^ 4 + (BitVec.ofInt 8 c.delta).toNat * 2 ^ 8), 0, 0]

/-- `n` words of a wide value, lowest first. -/
def wordsOf {w : Nat} (x : BitVec w) (n : Nat) : List Word := (List.range n).map fun i => (x >>> (32 * i)).setWidth 32

/-- What follows a command's header (Table 4-6): the frame of a PROGRAM; the 15 boundary levels of a SET_REF and 2 B of 0. -/
def QmiCmd.payload (c : QmiCmd) : List Word :=
  match c.op with
  | .program => (c.frame.map fun f => wordsOf f.word 75).getD (List.replicate 75 0)
  | .setRef => (List.range 8).map fun i => (c.levels.getD (2 * i + 1) 0 ++ c.levels.getD (2 * i) 0).setWidth 32
  | _ => []

/-- A command as the byte stream carries it. -/
def QmiCmd.message (c : QmiCmd) : List Word := c.header ++ c.payload

/-- The words of a command's message. -/
def QmiCmd.words (c : QmiCmd) : Nat := match c.op with
  | .program => 80
  | .setRef => 13
  | _ => 5

/-- RTYPE, DIE and TAG of a response header (R75). -/
def respHeader (rtype : Nat) (die : Fin 16) (tag : BitVec 10) : Word := BitVec.ofNat 32 (rtype + die.val * 2 ^ 8 + tag.toNat * 2 ^ 12)

/-- A DONE as the byte stream carries it (Table 4-7). -/
def doneMessage (die : Fin 16) (tag : BitVec 10) (i : DoneInfo) : List Word :=
  [respHeader 0x03 die tag, BitVec.ofNat 32 (i.status.code + i.loops * 2 ^ 8 + i.margin * 2 ^ 16 + i.suspends * 2 ^ 20), i.elapsed.setWidth 32]

/-- The words of each response's message, header and all (Table 4-7): a FRAME 76, a SOFT 226, a DONE 3, an ERROR 2, an INFO 2 and its data. -/
def infoWords : InfoData → Nat
  | .getRef _ => 10
  | .dieStatus .. => 6
  | .identify _ => 34
  | .log _ => 130

/-- The flits that a response of `w` words can lie in: it starts at any word of the first. -/
def respSpan (w : Nat) : Nat := (w + 30) / 16

/-! ### Flits (R69, R73) -/

/-- Flit KIND (Table 4-3). -/
inductive FlitKind where
  | idle | msg | lctl | reserved
  deriving DecidableEq, Repr

/-- The code of a KIND. -/
def FlitKind.code : FlitKind → BitVec 2
  | .idle => 0
  | .msg => 1
  | .lctl => 2
  | .reserved => 3

/-- A flit of 68 B: 2 B header, 64 B payload, 2 B CRC, byte 0 lowest. -/
abbrev Flit := BitVec 544

/-- `n` bytes of a flit from the lowest. -/
def flitBytes (f : Flit) (n : Nat) : List Byte := (List.range n).map fun i => (f >>> (8 * i)).setWidth 8

/-- Lays out a flit: its header, payload, and the CRC-16 over both. -/
def mkFlit (kind : FlitKind) (first : BitVec 6) (seq : BitVec 8) (payload : BitVec 512) : Flit :=
  let h : BitVec 16 := (kind.code ++ first ++ seq).setWidth 16
  let f : Flit := h.setWidth 544 ||| (payload.setWidth 544 <<< 16)
  f ||| ((crc16 (flitBytes f 66)).setWidth 544 <<< 528)

/-- KIND of a flit. -/
def flitKind (f : Flit) : BitVec 2 := (f >>> 14).setWidth 2

/-- FIRST of a flit. -/
def flitFirst (f : Flit) : BitVec 6 := (f >>> 8).setWidth 6

/-- SEQ of a flit. -/
def flitSeq (f : Flit) : BitVec 8 := f.setWidth 8

/-- The receiver discards the flit as a CRC failure: its CRC fails, or its KIND is 3 (R69, Table 4-3). -/
def flitBad (f : Flit) : Bool := crc16 (flitBytes f 66) != (f >>> 528).setWidth 16 || flitKind f == 3

/-- The flit that the transmitter sends when it has nothing to send. -/
def idleFlit : Flit := mkFlit .idle 0 0 0

/-- A list of bytes as a value, byte 0 lowest. -/
def bytesVal (bs : List Byte) : Nat := bs.foldr (fun b n => b.toNat + 256 * n) 0

/-- A list of words as a value, word 0 lowest. -/
def wordsVal (ws : List Word) : Nat := ws.foldr (fun w n => w.toNat + 2 ^ 32 * n) 0

/-- Splits a stream of words, each marked where a message starts, into MSG flits from SEQ `seq` (R73); what is left of the last flit is 0. -/
def flitsFrom (seq : BitVec 8) : Nat → List (Word × Bool) → List Flit
  | 0, _ => []
  | n + 1, ws =>
    let now := ws.take 16
    let first : BitVec 6 := match (List.range 16).find? fun i => (now.getD i (0, false)).2 with
      | some i => BitVec.ofNat 6 i
      | none => 63
    mkFlit .msg first seq (BitVec.ofNat 512 (wordsVal (now.map Prod.fst))) :: flitsFrom (seq + 1) n (ws.drop 16)

/-- The flits of messages that follow each other without a gap. -/
def flitsOf (seq : BitVec 8) (ms : List (List Word)) : List Flit :=
  let ws := ms.flatMap fun m => (m.take 1).map (fun w => (w, true)) ++ (m.drop 1).map fun w => (w, false)
  flitsFrom seq ((ws.length + 15) / 16) ws

/-- The flits that `w` words more begin, `t` words standing in the flit that is being filled. -/
def flitsFor (t w : Nat) : Nat := (t + w + 15) / 16 - (t + 15) / 16

/-- The payload of link control (Table 4-4), TYPE first. -/
def Lctl.bytes : Lctl → List Byte
  | .ack n => [0x01, n]
  | .nak n => [0x02, n]
  | .credit freed => 0x03 :: freed
  | .sleep => [0x04]
  | .train => [0x05]

/-- The flit of link control: unsequenced, its contents from the first byte on. -/
def Lctl.flit (l : Lctl) : Flit := mkFlit .lctl 0 0 (BitVec.ofNat 512 (bytesVal l.bytes))

/-! ### The sideband (R81) -/

/-- The package index on a group's sideband (R81). -/
def packageIndex (chan : Nat) (pkg : Bool) : Nat := 2 * (chan % 16) + pkg.toNat

/-- The static address of a package, and the dynamic address that it is assigned. -/
def sidebandAddr (i : Fin 32) : BitVec 7 := BitVec.ofNat 7 (0x10 + i.val)

end Sys2Proof.Machine
end

