-- ==== Sys2Proof/Machine/ChanOps.lean ====
section
/-! DEFINITION. The quarry lanes and the issue of commands to the dies (chapter 4): acknowledgement and replay (R70), the start of
recovery (R71), the limits on issue (R77, R78, R80, R113), and the level causes of channels and groups (R91). -/

namespace Sys2Proof.Machine

/-- The partition a command acts on (R78): ZONE mod 16. -/
def QmiCmd.partition (c : QmiCmd) : Nat := c.zone % 16

/-- A command that senses lines. -/
def QmiCmd.isSense (c : QmiCmd) : Bool := c.op == .read || c.op == .marginRead || c.op == .softRead

/-- A command that acts on a partition at all. -/
def QmiCmd.usesPartition (c : QmiCmd) : Bool := c.isSense || c.op == .program || c.op == .setZoneMode

/-- A background read: Teasel, Yarrow and Eyebright reads (R113). -/
def QmiCmd.background (c : QmiCmd) : Bool :=
  c.isSense && match c.user with
    | .move _ | .rewrite _ | .teasel _ _ | .cal | .prefetch _ | .promote _ | .sweep _ => true
    | .map _ _ _ => c.op == .marginRead
    | _ => false

/-- Two commands name a common physical line of one slot. -/
def QmiCmd.sameLine (a b : QmiCmd) : Bool :=
  a.die == b.die && a.zone == b.zone && a.slot == b.slot && decide (a.line ≤ b.line + b.count ∧ b.line ≤ a.line + a.count)

namespace State

/-- Source n follows LINK_DOWN, CRC_STORM and REPLAY_EXH of the channel (R91). -/
def judgeQc (s : State) (n : Nat) : State :=
  let c := s.qc n
  if c.lstate == .down || c.stormBit || c.exhBit then s.raise n else s.lower n

/-- Source 144 + g follows INV_MISMATCH, OVERTEMP, ALERT and NOT SB_OK while the group's rails are up (R91). -/
def judgeQg (s : State) (g : Nat) : State :=
  let v := s.qg g
  if v.railsUp && (v.invBad || v.overtemp || v.alert || !v.sbOk) then s.raise (144 + g) else s.lower (144 + g)

/-- The window of CRC failures that stands has ended (R71): STORM_WIN × 100 µs have passed since it began. -/
def stormOver (s : State) (n : Nat) : Bool :=
  decide (s.fld Reg.QC_ERR_CFG n 15 8 * 65536 ≤ (s.tally.now - (s.qc n).stormAt).toNat * 10000)

/-- CRC_STORM falls on every channel whose window has ended (Table 4-13). -/
def stormsEnd (s : State) : State :=
  (s.med.chans.filter fun p => p.2.stormBit && s.stormOver p.1).foldl (fun s p =>
    (s.setQc p.1 { s.qc p.1 with stormBit := false }).judgeQc p.1) s

/-- The channel may be issued commands: ACTIVE (a sleeping lane wakes for the next command, R467), EN set, not offline (R85). -/
def qcOpen (s : State) (n : Nat) : Bool :=
  let c := s.qc n
  (c.lstate == .active || c.lstate == .sleep) && s.bit Reg.QC_CTRL n 0 && !c.offline

/-- Programs one die may run at once: 8, or 4 while the group's temperature limit is in force (R78, R80). -/
def programLimit (s : State) (n : Nat) : Nat := if (s.qg (n / 16)).overtemp then 4 else 8

/-- Whether the command may be issued now (R70, R72, R77, R78, R80, R112, R113, Table 8-5). -/
def canSend (s : State) (n : Nat) (c : QmiCmd) : Bool :=
  let q := s.qc n
  let d := s.die (n * 16 + c.die)
  let mine := q.sent.filter fun x => x.die == c.die
  let sameP := mine.filter fun x => x.usesPartition && x.partition == c.partition
  s.qcOpen n && (q.orphans.isEmpty || c.op == .completionLog || c.op == .identify) &&
  (match s.bench.domain, c.user with
    | .draining, .drain _ => true
    | .draining, _ => false
    | .drained, _ => false
    | _, _ => true) && decide (q.unacked + flitsFor q.txWords c.words ≤ 128) && decide ((d.sent - d.freed).toNat < 32) &&
  (match c.op with
    | .program => sameP.isEmpty && decide ((mine.filter fun x => x.op == .program).length < s.programLimit n)
    | .setZoneMode => sameP.isEmpty
    | _ => true) &&
  (!c.isSense || d.tables) && (!c.isSense || !(mine.any fun x => x.op == .program && x.sameLine c)) &&
  (!c.background || (sameP.isEmpty && decide ((mine.filter QmiCmd.background).length < 2) &&
    decide ((q.sent.filter QmiCmd.background).length < 3)))

/-- Sends one command: it takes a credit, its message follows the one before it in the byte stream, the flits it begins enter the replay buffer, and a
sleeping lane wakes (R70, R73, R77). -/
def sendCmd (s : State) (n : Nat) (c : QmiCmd) : State :=
  let q := s.qc n
  let d := s.die (n * 16 + c.die)
  let s1 := s.setQc n { q with
    lstate := if q.lstate = .sleep then .active else q.lstate
    sent := q.sent ++ [c], unacked := q.unacked + flitsFor q.txWords c.words, txWords := (q.txWords + c.words) % 16 }
  (s1.setDie (n * 16 + c.die) { d with sent := d.sent + 1 }).emit (.qmi (Fin.ofNat 144 n) c)

/-- Goes once through the queued commands, oldest first, sending those that may go; the others stay queued. -/
def pumpList (n : Nat) (p : QmiCmd → Bool) : List QmiCmd → State → State
  | [], s => s
  | c :: cs, s =>
    if p c && s.canSend n c then
      let q := s.qc n
      pumpList n p cs (sendCmd (s.setQc n { q with queue := q.queue.erase c }) n c)
    else pumpList n p cs s

/-- Nothing more is to be sent now: the flits of the commands sent from number `k` of the outstanding ones on go out, from SEQ `seq` (R73). -/
def flushLane (s : State) (n k : Nat) (seq : BitVec 8) : State :=
  let q := s.qc n
  let new := q.sent.drop k
  if new.isEmpty then s
  else (s.setQc n { q with txWords := 0 }).emit (.qmiFlits (Fin.ofNat 144 n) (flitsOf seq (new.map QmiCmd.message)))

/-- Sends what may go of a channel's queue: host reads first, then other commands, programs last (R73). -/
def pump (s : State) (n : Nat) : State :=
  let host (c : QmiCmd) : Bool := c.isSense && !c.background
  let q := s.qc n
  let s1 := pumpList n host q.queue s
  let s2 := pumpList n (fun c => !host c && c.op != .program) (s1.qc n).queue s1
  (pumpList n (fun c => c.op == .program) (s2.qc n).queue s2).flushLane n q.sent.length (q.ackSeq + BitVec.ofNat 8 q.unacked)

/-- The least tag not in use on a channel (R74). -/
def freeTag (s : State) (n : Nat) : BitVec 10 :=
  let q := s.qc n
  let used := (q.queue ++ q.sent ++ q.orphans).map fun c => c.tag.toNat
  BitVec.ofNat 10 (((List.range 1024).find? fun i => !used.contains i).getD 0)

/-- Issues a command to a die by die index: it takes a tag, joins its channel's queue, and goes as soon as it may. -/
def issue (s : State) (d : Nat) (c : QmiCmd) : State :=
  let n := dieChan d
  let c1 := { c with die := Fin.ofNat 16 d, tag := s.freeTag n }
  let q := s.qc n
  (s.setQc n { q with queue := q.queue ++ [c1] }).pump n

/-- Takes the outstanding command with a tag off a channel. -/
def takeSent (s : State) (n : Nat) (tag : BitVec 10) : Option QmiCmd × State :=
  let q := s.qc n
  match q.sent.find? fun c => c.tag == tag with
  | some c => (some c, s.setQc n { q with sent := q.sent.erase c })
  | none => (none, s)

/-- A message of `words` words that ends in the flit of SEQ `seq` has come in order: every flit it lies in was received, or is the next (R70). -/
def inOrder (q : QChan) (seq : BitVec 8) (words : Nat) : Bool := decide ((seq + 1 - q.rxSeq).toNat ≤ respSpan words)

/-- The flits up to SEQ `seq` have come in order with good CRC: each sixteenth not yet acknowledged is, and a NAK ends (R70). -/
def received (s : State) (n : Nat) (seq : BitVec 8) : State :=
  let q := s.qc n
  let owed := q.rxOwed + (seq + 1 - q.rxSeq).toNat
  let s1 := s.setQc n { q with rxSeq := seq + 1, rxOwed := owed % 16, nak := false }
  (List.range (owed / 16)).foldl (fun s i =>
    s.emit (.qmiLctl (Fin.ofNat 144 n) (.ack (seq - BitVec.ofNat 8 (owed - 16 * (i + 1)))))) s1

/-- A flit is discarded (R70): the first time a NAK names the highest SEQ received in order. -/
def sendNak (s : State) (n : Nat) : State :=
  let q := s.qc n
  if q.nak then s
  else (s.setQc n { q with nak := true, rxOwed := 0 }).emit (.qmiLctl (Fin.ofNat 144 n) (.nak (q.rxSeq - 1)))

/-- An acknowledgement of every flit up to `seq` frees them; covering the SEQ of the latest replay sets the replay count to 0 (R70). -/
def acked (s : State) (n : Nat) (seq : BitVec 8) : State :=
  let q := s.qc n
  let k := (seq - q.ackSeq).toNat + 1
  if k ≤ q.unacked then
    let covers := (q.replayFrom - q.ackSeq).toNat < k
    s.setQc n { q with ackSeq := seq + 1, unacked := q.unacked - k, replays := if covers then 0 else q.replays }
  else s

/-- Recovery starts (R71): LSTATE reads RECOVERY; with FAST_TRIES at 0 or for a full retrain, at the full retrain. -/
def startRecovery (s : State) (n : Nat) (full soft : Bool) : State :=
  let q := s.qc n
  let f := full || s.fld Reg.QC_ERR_CFG n 21 20 == 0
  let s1 := s.setQc n { q with
    lstate := .recovery, recovery := some (if f then .full else .fast 0), soft := soft
    unacked := if f then 0 else q.unacked, replays := 0 }
  s1.emit (.qmiRetrain (Fin.ofNat 144 n) f)

/-- A replay starts from the oldest unacknowledged flit (R70): REPLAYS counts it, and the replay count grows or starts anew. Answers
whether the count has reached REPLAY_MAX. -/
def startReplay (s : State) (n : Nat) : State × Bool :=
  let q := s.qc n
  let cnt := if q.replays ≠ 0 ∧ q.replayFrom = q.ackSeq then q.replays + 1 else 1
  let s1 := ((s.bump Reg.QC_ERR_CNT n 31 16).setQc n { q with replayFrom := q.ackSeq, replays := cnt }).emit
    (.qmiReplay (Fin.ofNat 144 n) q.ackSeq)
  (s1, decide (s.fld Reg.QC_ERR_CFG n 19 16 ≤ cnt))

/-- The dies a package type has: QP4 (1) four, QP8 (2) eight. -/
def typeDies (t : BitVec 2) : Nat := if t = 1 then 4 else if t = 2 then 8 else 0

/-- The die indices populated on a channel (R66). -/
def chanDies (s : State) (n : Nat) : List Nat :=
  let q := s.qc n
  ((List.range (typeDies q.pkg0)).map fun i => n * 16 + i) ++ ((List.range (typeDies q.pkg1)).map fun i => n * 16 + 8 + i)

/-- The overtemperature rule of a group (R80): in force from LIMIT until 5 °C below it. A failed sideband counts as at LIMIT (R84). -/
def judgeTemp (s : State) (g : Nat) : State :=
  let v := s.qg g
  let limit : Int := (s.fld Reg.QG_TEMP_LIMIT g 7 0 : Nat)
  let hot : Int := v.packages.foldl (fun m p => max m p.2.temp) (-128)
  let isOver := if !v.sbOk then true else if limit ≤ hot then true else if hot ≤ limit - 5 then false else v.overtemp
  let s1 := (s.setQg g { v with overtemp := isOver }).judgeQg g
  (List.range 16).foldl (fun s k => s.pump (16 * g + k)) s1

end State

end Sys2Proof.Machine
end

