-- ==== Sys2Proof/Machine/XltOps.lean ====
section
/-! DEFINITION. Regions, extents and lines (R235 to R238), the twin state of a region, the journal (R244 to R246), the dirty level and
its limits (R183, R195), and the level bits of PBF_CAUSE and XLT_CAUSE. -/

namespace Sys2Proof.Machine

/-- The PHYS code of a physical sett (Table 10-3). -/
def physCode (p : Phys) : Nat := p.die / 16 * 2 ^ 24 + p.die % 16 * 2 ^ 20 + p.zone * 2 ^ 14 + p.slot

/-- The physical sett of a PHYS code. -/
def physOf (n : Nat) : Phys := { die := n / 2 ^ 24 % 256 * 16 + n / 2 ^ 20 % 16, zone := n / 2 ^ 14 % 64, slot := n % 2 ^ 14 }

/-- The number that names line `l` of logical sett `n`. -/
def lineOf (n l : Nat) : Nat := n * 256 + l

/-- The logical sett of a line. -/
def lineSett (x : Nat) : Nat := x / 256

/-- The logical line in its sett. -/
def lineIdx (x : Nat) : Nat := x % 256

/-- The 256-bit byte mask of the chunks named. -/
def chunkBytes (m : BitVec 4) : BitVec 256 :=
  (List.range 4).foldl (fun (a : BitVec 256) i => if m.getLsbD i then a ||| (BitVec.ofNat 256 (2 ^ 64 - 1) <<< (64 * i)) else a) 0

/-- The chunks that a byte mask covers whole. -/
def wholeChunks (m : BitVec 256) : BitVec 4 :=
  (List.range 4).foldl (fun (a : BitVec 4) i =>
    if (m >>> (64 * i)).setWidth 64 = BitVec.allOnes 64 then a ||| BitVec.twoPow 4 i else a) 0

/-- The bit mask of a line's data for a byte mask. -/
def byteBits (m : BitVec 256) : Line :=
  (List.range 256).foldl (fun (a : Line) i => if m.getLsbD i then a ||| (BitVec.ofNat 2048 255 <<< (8 * i)) else a) 0

/-- The bytes of `new` under the mask over those of `old`. A mask of all ones takes `new` whole. -/
def overlay (m : BitVec 256) (new old : Line) : Line :=
  if m = BitVec.allOnes 256 then new else (new &&& byteBits m) ||| (old &&& ~~~(byteBits m))

/-- Chunk `i` of a line. -/
def chunkAt (l : Line) (i : Nat) : Chunk := (l >>> (512 * i)).setWidth 512

namespace State

/-- Replaces Bench 0. -/
def setBench (s : State) (b : Bench) : State := { s with bench := b }

/-- Replaces translation and tiers. -/
def setXlt (s : State) (x : Xlt) : State := { s with xlt := x }

/-- Replaces the twin state. -/
def setTwin (s : State) (t : Twin) : State := { s with twin := t }

/-- Replaces region record `r`. -/
def setRegion (s : State) (r : Nat) (v : Region) : State := s.setXlt { s.xlt with regions := Tab.put {} s.xlt.regions r v }

/-- Replaces the twin state of region `r`. -/
def setRt (s : State) (r : Nat) (v : RTwin) : State := s.setTwin { s.twin with regions := Tab.put {} s.twin.regions r v }

/-- The pair state is PAIRED. -/
def paired (s : State) : Bool := s.twin.pair == .paired

/-- The line at a byte offset of a region (R238), none beyond its extents. -/
def resolve (s : State) (r off : Nat) : Option Nat :=
  match (s.region r).extents[off / 2 ^ 30]? with
  | some e => some (lineOf (e * 16384 + off / 65536 % 16384) (off / 256 % 256))
  | none => none

/-- The logical sett of a region sett, none beyond its extents. -/
def settOf (s : State) (r i : Nat) : Option Nat := (s.region r).extents[i / 16384]?.map fun e => e * 16384 + i % 16384

/-- The region and region line of a line, region 0 where no region owns it. -/
def rlineOf (s : State) (x : Nat) : Nat × Nat :=
  match s.ownerOf (lineSett x) with
  | some (r, i) => (r, i * 256 + lineIdx x)
  | none => (0, 0)

/-- The key slot record of a region (Table 15-4): REGION, STATE, FLAGS, the wrapped key by its name, FAILS and HOLD_UNTIL. -/
def keySlotRecord (r : Nat) (k : KeySlot) : List Nat :=
  [r, k.state.code, k.shareRequired.toNat, if k.state = .active then k.key else 0, k.fails, k.holdUntil.toNat]

/-- The name of the metadata key META: a new one with each META_SALT (R369). Region keys have names of their own. -/
def metaKey (s : State) : Nat := 2 * s.sec.salts

/-- The name of a region's key for the cipher. -/
def regionKey (s : State) (r : Nat) : Nat := 2 * (s.keySlot r).key + 1

/-- The tweaks of Table 15-3: of a user line, of a drain index, journal or mask frame, and of a map frame. -/
def lineTweak (r rl : Nat) : BitVec 128 := BitVec.ofNat 128 (r * 2 ^ 64 + rl)
def drainTweak (k seq : Nat) : BitVec 128 := BitVec.ofNat 128 (2 ^ 64 + seq % 2 ^ 32 * 2 ^ 32 + k)
def mapTweak (chunk copy frame : Nat) : BitVec 128 := BitVec.ofNat 128 (2 * 2 ^ 64 + frame * 2 ^ 33 + copy * 2 ^ 32 + chunk)

/-- A line's ciphertext under its region's key (R10). -/
def cipher (s : State) (x : Nat) (d : Line) : Line :=
  let (r, rl) := s.rlineOf x
  Config.encrypt (s.regionKey r) (lineTweak r rl) d

/-- A line's plaintext from a frame's DATA (R154 step 5). -/
def plain (s : State) (x : Nat) (d : Line) : Line :=
  let (r, rl) := s.rlineOf x
  Config.decrypt (s.regionKey r) (lineTweak r rl) d

/-! ### Drain dies and limits (R191, R195) -/

/-- The level that a home admits writes by (R185): by the higher dirty level of the pair. -/
def homeLevel (s : State) : Nat :=
  if s.paired then max s.admitLevel (s.levelOf s.twin.peerDirty) else s.admitLevel

/-! ### The journal -/

/-- The live journal is at J: what needs a new record waits (R246). -/
def jFull (s : State) : Bool := decide (s.jLimit ≤ s.jLive) && !s.xlt.jrnl.recs.isEmpty

/-- JRNL_HI: at or above CKPT_PCT of J. -/
def jHigh (s : State) : Bool := decide (s.fld Reg.XLT_JRNL_CFG 0 7 0 * s.jLimit ≤ 100 * s.jLive) && !s.xlt.jrnl.recs.isEmpty

/-- The level bits of XLT_CAUSE (Table 10-12). -/
def judgeXlt (s : State) : State :=
  let lv (s : State) (b : Nat) (v : Bool) : State := s.level Reg.XLT_CAUSE 0 b (304 + b) (2 ^ b) v
  let s1 := lv s 0 (s.xlt.load != .loaded)
  let s2 := lv s1 1 s.jHigh
  let s3 := lv s2 2 s.jFull
  let s4 := lv s3 3 s.xlt.short
  let s5 := lv s4 4 s.xlt.arraysShort
  lv s5 5 s.xlt.bvOpen

/-- REGION_STATE and PASS records are rewritten in place while one of their KEY is live (R245). -/
def JKey.coalesces : JKey → Bool
  | .regionState _ => true
  | .pass _ => true
  | _ => false

/-- The records that a change takes (Table 10-5): two halves of a region record, four quarters of an object record, the tag and the two halves of the line
map of a young-map way. -/
def JKey.parts : JKey → Nat
  | .region _ => 2
  | .object _ => 4
  | .ymap _ _ => 3
  | _ => 1

/-- Places one record in the journal (R244, R245). -/
def journalPart (s : State) (k : JKey) (part : Nat) : State :=
  let j := s.xlt.jrnl
  let j1 : Journal :=
    if JKey.coalesces k && j.recs.any (fun r => r.key == k) then
      { j with recs := j.recs.map fun r => if r.key == k then { r with jseq := j.nextSeq } else r, nextSeq := j.nextSeq + 1 }
    else
      { j with
        recs := j.recs ++ [{ place := j.nextPlace, jseq := j.nextSeq, key := k, part := part }]
        nextPlace := j.nextPlace + 1, nextSeq := j.nextSeq + 1
        oldest := if j.recs.isEmpty then j.nextPlace / 8 else j.oldest }
  s.setXlt { s.xlt with jrnl := j1 }

/-- Places a change in the journal (R242), starting the checkpointer at its level (R246). -/
def journal (s : State) (k : JKey) : State :=
  let s1 := (List.range (JKey.parts k)).foldl (fun s i => s.journalPart k i) s
  (if s1.jHigh then s1.setXlt { s1.xlt with jrnl := { s1.xlt.jrnl with running := true } } else s1).judgeXlt

/-- The young generations of a sett have changed from `old`: each way that differs is journaled (R105, R242). -/
def journalYoung (s : State) (n : Nat) (old : List Young) : State :=
  let new := s.youngOf n
  ((List.finRange 4).filter fun w => (old.find? fun g => g.way == w) != new.find? fun g => g.way == w).foldl
    (fun s w => s.journal (.ymap (youngBucket n) w)) s

/-- Writes a translation entry, journaled (R242). -/
def putSett (s : State) (n : Nat) (v : Sett) : State := (s.setSett n v).journal (.entry n)

/-- Changes the twin state of a region, with its journaled record (R224). -/
def putRt (s : State) (r : Nat) (v : RTwin) : State := (s.setRt r v).journal (.regionState r)

/-! ### Levels of the domain -/

/-- The level bits of PBF_CAUSE (Table 8-14), and forced merges (R181). -/
def judgeBench (s : State) : State :=
  let limit := s.partialLimit
  let used := s.bench.partials.length
  let forced :=
    if s.bench.forced then decide (limit - min 2048 (limit / 2) ≤ used) && decide (0 < used)
    else decide (limit - min 1024 (limit / 4) ≤ used) && decide (0 < used)
  let s0 := s.setBench { s.bench with forced := forced }
  let lv (s : State) (b : Nat) (v : Bool) : State := s.level Reg.PBF_CAUSE 0 b (280 + b) (2 ^ b) v
  let a := s.admitLevel
  let s1 := lv s0 0 (decide (1 ≤ a))
  let s2 := lv s1 1 (decide (2 ≤ a))
  let s3 := lv s2 2 forced
  let s4 := lv s3 3 (decide (s.drainLimit < 98304))
  lv s4 4 (s.bench.domain == .draining)

/-- The level bits of TDM_CAUSE (Table 9-13). -/
def judgeTdm (s : State) : State :=
  let lv (s : State) (b : Nat) (v : Bool) : State := s.level Reg.TDM_CAUSE 0 b (232 + b) (2 ^ b) v
  let any (p : RTwin → Bool) : Bool := s.regionIds.any fun r => p (s.rt r)
  let t := s.twin
  let down (en : Nat) (p : TPort) : Bool := s.bit Reg.TDM_CTRL 0 en && p.st == .down
  let s1 := lv s 0 (t.pair == .lost)
  let s2 := lv s1 1 (s.bit Reg.TDM_CTRL 0 0 && (down 1 t.p0 || down 2 t.p1))
  let s3 := lv s2 2 (any fun r => r.fenced)
  let s4 := lv s3 3 (any fun r => r.solo)
  let s5 := lv s4 4 (any fun r => r.held || r.strictRefuse)
  let s6 := lv s5 5 (any fun r => r.noHome)
  lv s6 6 (any fun r => r.source || r.target)

end State

end Sys2Proof.Machine
end

