-- ==== Sys2Proof/Machine/DramBase.lean ====
section
/-! DEFINITION. The DRAM bench's ranks and capacity (R322, R333), and the sizes of the arrays it holds (R235, Table 10-8). -/

namespace Sys2Proof.Machine

/-- What a bench address names (Table 13-1). -/
structure BenchAddr where
  byte : Nat
  burst : Nat
  subchannel : Nat
  channel : Nat
  column : Nat
  bank : Nat
  group : Nat
  row : Nat
  set : Nat
  deriving DecidableEq, Repr

namespace State

/-- Replaces the DRAM bench. -/
def setDram (s : State) (d : Dram) : State := { s with dram := d }

/-- Replaces rank `k` of channel `c`. -/
def setRank (s : State) (c k : Nat) (r : Rank) : State := s.setDram { s.dram with ranks := Tab.put {} s.dram.ranks (c * 4 + k) r }

/-- The rank of channel `c` in state `st`, the lowest. -/
def rankIn (s : State) (c : Nat) (st : RankState) : Option Nat := (List.range 4).find? fun k => (s.rank c k).st == st

/-- GiB of a rank set by the active map: eight ranks of 16 x4 or 8 x8 data devices of 2, 3 or 4 GiB (R322). -/
def setGib (s : State) : Nat := 8 * ((2 + s.fld Reg.DRM_MAP_ACT 0 6 5) * 16 / (1 + s.fld Reg.DRM_MAP_ACT 0 4 4))

/-! ### Bench addresses (R323) -/

/-- Rank sets of the active map. -/
def setCount (s : State) : Nat := (1 + s.fld Reg.DRM_MAP_ACT 0 3 3) * (1 + s.fld Reg.DRM_MAP_ACT 0 2 2)

/-- Column bits that are left above the low 12 bits: of 2,048 columns of x4 devices, or 1,024 of x8 ones, 16 are one burst and four bursts one
line. PRESUMED (log 139): the spec gives no geometry; this one is DDR5's. -/
def columnBits (s : State) : Nat := 5 - s.fld Reg.DRM_MAP_ACT 0 4 4

/-- The rank sets that addresses number, in rising order. DESIGN CHOICE (log 139): the spare, which holds nothing, is not counted. -/
def numberedSets (s : State) : List Nat :=
  (List.range s.setCount).filter fun k => !(s.bit Reg.DRM_MAP_ACT 0 7 && s.fld Reg.DRM_MAP_ACT 0 9 8 == k)

/-- The fields of a bench address by the active map's order (Table 13-1). PRESUMED (log 139): eight bank groups of four banks. Under XORB the
bank takes the lowest two row bits and the bank group the lowest three. -/
def benchAddr (s : State) (a : Nat) : BenchAddr :=
  let cb := 2 ^ s.columnBits
  let x := a / 4096
  let row := x / (cb * 32) % (s.setGib * 2 ^ 30 / (4096 * cb * 32))
  let order := s.fld Reg.DRM_MAP_ACT 0 1 0
  let column := if order = 1 then x / 8 % cb else x % cb
  let bank := if order = 1 then x / (8 * cb) % 4 else x / cb % 4
  let group := if order = 1 then x % 8 else x / (cb * 4) % 8
  { byte := a % 64, burst := a / 64 % 4, subchannel := a / 256 % 2, channel := a / 512 % 8
    column := column, row := row
    bank := if order = 2 then bank ^^^ (row % 4) else bank
    group := if order = 2 then group ^^^ (row % 8) else group
    set := s.numberedSets.getD (a / (s.setGib * 2 ^ 30)) 4 }

/-- The rank that serves a bench address: that of its channel which stands for its rank set; none where no rank does. -/
def benchRank (s : State) (a : Nat) : Option (Nat × Nat) :=
  let b := s.benchAddr a
  ((List.range 4).find? fun k =>
    let r := s.rank b.channel k
    r.set == b.set && (r.st == .inService || r.st == .copying)).map fun k => (b.channel, k)

/-! ### The valid map and raw accesses (R328, R331, Table 10-10) -/

/-- The address stands for the burst with the injected error. -/
def injectedAt (s : State) (addr : Nat) : Option Bool := match s.dram.injected with
  | some (a, two) => if a = addr / 64 then some two else none
  | none => none

/-- A write of the burst at `addr` (R331): with ARM set at the target it is stored with the flips and ARM clears; a write that replaces the burst
ends an injection. -/
def burstWritten (s : State) (addr : Nat) : State :=
  let target := (s.reg64 Reg.DRM_INJ_ADDR_LO Reg.DRM_INJ_ADDR_HI).toNat / 64
  if s.bit Reg.DRM_INJ_CTRL 0 0 && target == addr / 64 then
    ((s.setDram { s.dram with injected := some (target, s.bit Reg.DRM_INJ_CTRL 0 9) }).setBit Reg.DRM_INJ_CTRL 0 0 false).emit
      (.dram 5 (target * 64))
  else if (s.injectedAt addr).isSome then s.setDram { s.dram with injected := none } else s

/-- A raw write of a burst: a page whose bit is 0 is zeros but for the burst, and its bit is set (R328). -/
def rawDramPut (s : State) (addr : Nat) (d : Chunk) : State :=
  let p := addr / 65536
  let s1 := s.setXlt { s.xlt with rawDram := Tab.put none s.xlt.rawDram (addr / 64) (some d) }
  (s1.setDram { s1.dram with valid := if s1.dram.valid.contains p then s1.dram.valid else p :: s1.dram.valid }).burstWritten addr

/-- A raw read of a burst: what a raw write left there; zeros in a page whose bit is 0, and where a written page was filled with zeros. DESIGN
CHOICE (log 140): of a page that holds an array the value is free, since the spec does not say where the arrays lie. -/
def rawDramGet (s : State) (addr : Nat) : State × Chunk :=
  match Tab.get none s.xlt.rawDram (addr / 64) with
  | some c => (s, c)
  | none =>
    if Config.benchPlaced (addr / 65536) then (s.draw, Config.undefinedChunk s.fresh) else (s, 0)

/-- The pages that `gone` names hold nothing any more: their bits are cleared (R328). -/
def pagesGone (s : State) (gone : Nat → Bool) : State :=
  let s1 := s.setXlt { s.xlt with rawDram := s.xlt.rawDram.filter fun p => !gone (p.1 / 1024) }
  s1.setDram { s1.dram with valid := s1.dram.valid.filter fun p => !gone p }

/-- B1 of R235 in GiB: the capacity in in-service ranks, spare ranks excluded. -/
def b1Gib (s : State) : Nat := s.setsUp * s.setGib

/-- COUNT by the bench's capacity: floor((B1 − 32 GiB) × 4,096 ÷ 1 GiB) (R235). -/
def countByBench (s : State) : Nat := (s.b1Gib - 32) * 4096

/-- The KiB of the arrays other than the pool and its table for `n` extents, the rest at the sizes of Table 10-8. -/
def arraysKib (n : Nat) : Nat := n * 320 + (9143583 + 571474 + 196608 + 262144 + 26624 + 32768 + 2097152)

/-- The pages of the pool: what remains of B1, shared with the promotion table (Table 10-8). -/
def poolPages (s : State) (n : Nat) : Nat := (s.b1Gib * 1048576 - arraysKib n) * 4096 / 4097 / 64

end State

end Sys2Proof.Machine
end

