-- ==== Sys2Proof/Machine/TandemFrames.lean ====
section
/-! DEFINITION. The Tandem flit and the frames bit by bit (R203, R205 to R207, Tables 9-1 to 9-4). -/

namespace Sys2Proof.Machine

/-! ### Flits (R203) -/

/-- One byte through the CRC-64 of ECMA-182, most significant bit first. -/
def crc64Byte (c : BitVec 64) (b : Byte) : BitVec 64 :=
  (List.range 8).foldl (fun (c : BitVec 64) i =>
    let top := c.getLsbD 63 != b.getLsbD (7 - i)
    if top then (c <<< 1) ^^^ 0x42F0E1EBA9EA3693#64 else c <<< 1) c

/-- The CRC-64 of R203. PRESUMED (log entry 141): initial value 0, no reflection and no final XOR, as ECMA-182 has it. -/
def crc64 (bs : List Byte) : BitVec 64 := bs.foldl crc64Byte 0

/-- A Tandem flit after its FEC: 4 B header, 236 B payload, 8 B CRC, byte 0 lowest. -/
abbrev TFlit := BitVec 1984

/-- SEQ of a Tandem flit. -/
def tflitSeq (f : TFlit) : BitVec 12 := (f >>> 20).setWidth 12

/-- KIND of a Tandem flit: 0 IDLE, 1 DATA, 2 LCTL. -/
def tflitKind (f : TFlit) : BitVec 2 := (f >>> 6).setWidth 2

/-- The CRC of a Tandem flit fails. -/
def tflitBad (f : TFlit) : Bool :=
  crc64 ((List.range 240).map fun i => (f >>> (8 * i)).setWidth 8) != (f >>> 1920).setWidth 64

/-- Lays out a Tandem flit with its CRC. -/
def mkTFlit (seq ack : BitVec 12) (kind : BitVec 2) (payload : BitVec 1888) : TFlit :=
  let h : BitVec 32 := seq ++ ack ++ kind ++ (0 : BitVec 6)
  let f : TFlit := h.setWidth 1984 ||| (payload.setWidth 1984 <<< 32)
  f ||| ((crc64 ((List.range 240).map fun i => (f >>> (8 * i)).setWidth 8)).setWidth 1984 <<< 1920)

/-! ### Entries (Tables 9-3 and 9-4, R207) -/

/-- The chunks that a byte mask touches. -/
def maskChunks (m : BitVec 256) : BitVec 4 :=
  (List.range 4).foldl (fun (a : BitVec 4) i => if (m >>> (64 * i)).setWidth 64 = 0#64 then a else a ||| BitVec.twoPow 4 i) 0

/-- The chunks that a write entry carries: all of a RESYNC line that is neither zero nor unallocated. -/
def entryChunks (resync : Bool) (e : WEntry) : BitVec 4 :=
  if resync then (if e.zero || e.unalloc then 0 else 15) else maskChunks e.mask

/-- A byte-valid mask precedes the data of a write entry. -/
def entryBmask (resync : Bool) (e : WEntry) : Bool := !resync && e.mask != chunkBytes (maskChunks e.mask)

/-- The header of a write entry (Table 9-3); ROS_LO is 0 in a FORWARD frame. -/
def entryHeader (resync : Bool) (e : WEntry) : BitVec 128 :=
  BitVec.ofNat 128 ((if resync then (match e.mode with
      | .none => 0
      | .m2 => 1
      | .m3 => 2
      | .m4 => 3) else 0) + e.unalloc.toNat * 2 ^ 2 + e.zero.toNat * 2 ^ 3 + (entryBmask resync e).toNat * 2 ^ 4 +
    (entryChunks resync e).toNat * 2 ^ 5 + lineIdx e.line * 2 ^ 9 + lineSett e.line * 2 ^ 17 + e.stream.toNat * 2 ^ 48 +
    e.ftag.toNat * 2 ^ 64 + e.region % 2 ^ 16 * 2 ^ 80 + e.ros % 2 ^ 32 * 2 ^ 96)

/-- The bytes of a write entry. -/
def entryBytes (resync : Bool) (e : WEntry) : Nat :=
  16 + (if entryBmask resync e then 32 else 0) + 64 * ((List.range 4).filter fun i => (entryChunks resync e).getLsbD i).length

/-- An ACK entry (Table 9-4), 8 B. -/
def ackWord : AckEntry → BitVec 128
  | .mirrorDone r ros => BitVec.ofNat 128 (ros % 2 ^ 32 + r % 2 ^ 16 * 2 ^ 32)
  | .fwdDurable t n => BitVec.ofNat 128 (n % 2 ^ 8 + t.toNat * 2 ^ 32 + 2 ^ 62)
  | .fwdRefused t st => BitVec.ofNat 128 (st % 2 ^ 16 + t.toNat * 2 ^ 32 + 2 * 2 ^ 62)

/-- A READ_ASSIST request entry. -/
def assistWord (rtag : Word) (region line count : Nat) : BitVec 128 :=
  BitVec.ofNat 128 ((count - 1) % 2 ^ 8 + lineIdx line * 2 ^ 9 + lineSett line * 2 ^ 17 + region % 2 ^ 16 * 2 ^ 80 + rtag.toNat * 2 ^ 96)

/-- STATUS of a reply entry (R207). -/
def AssistStatus.code : AssistStatus → Nat
  | .data _ => 0
  | .zero => 1
  | .unrecovered => 2
  | .notHeld => 3

/-- A READ_ASSIST reply entry (R207). -/
def replyWord (rtag : Word) (region line : Nat) (last : Bool) (st : AssistStatus) : BitVec 128 :=
  BitVec.ofNat 128 (st.code + last.toNat * 2 ^ 8 + lineIdx line * 2 ^ 9 + lineSett line * 2 ^ 17 + region % 2 ^ 16 * 2 ^ 80 + rtag.toNat * 2 ^ 96)

/-! ### Frames (Tables 9-1 and 9-2) -/

/-- KIND of a frame (Table 9-2). -/
def TBody.kind : TBody → Nat
  | .mirror _ => 1
  | .forward _ => 2
  | .ack .. => 3
  | .assistReq .. | .assistRep .. => 4
  | .sync .. => 5
  | .heartbeat .. => 6
  | .resync .. => 7
  | .control _ => 8
  | .pair _ => 9

/-- The entry words of a frame. -/
def TBody.entries : TBody → List (BitVec 128)
  | .mirror es => es.map (entryHeader false)
  | .forward es => es.map fun e => entryHeader false { e with ros := 0 }
  | .resync es _ => es.map (entryHeader true)
  | .ack _ _ es => es.map ackWord
  | .assistReq t r x n => [assistWord t r x n]
  | .assistRep t r x last st => [replyWord t r x last st]
  | _ => []

/-- TYPE of a CONTROL message (Table 9-6). -/
def Ctl.code : Ctl → Nat
  | .capState _ => 0x01
  | .draining _ => 0x02
  | .detach => 0x03
  | .handover .. => 0x04
  | .handoverAck .. => 0x05
  | .regionAttr .. => 0x06
  | .regionState .. => 0x07
  | .resyncPlan .. => 0x08
  | .resyncDone _ => 0x09
  | .rekey .. => 0x0A
  | .leaving _ => 0x0B
  | .allocate _ => 0x0C

/-- The bytes of a frame's body. DESIGN CHOICE (log entry 141): the spec gives no layout for the bodies of SYNC, CONTROL and PAIR frames, and their lengths
are free. -/
def TBody.bytes : TBody → Nat
  | .mirror es | .forward es => (es.map (entryBytes false)).sum
  | .resync es _ => (es.map (entryBytes true)).sum
  | .ack _ _ es => 8 + 8 * es.length
  | .assistReq .. => 16
  | .assistRep _ _ _ _ st => match st with
    | .data _ => 272
    | _ => 16
  | .heartbeat .. => 16
  | .sync .. => Config.bodyBytes 0 % 2017
  | .control c => Config.bodyBytes c.code % 2017
  | .pair n => Config.bodyBytes (256 + n) % 2017

/-- The header of a frame (Table 9-1). -/
def frameHeader (b : TBody) (phase : Bool) (session : Word) (fseq : Nat) : BitVec 128 :=
  let last : Bool := match b with
    | .resync _ l => l
    | _ => false
  let resp : Bool := match b with
    | .assistRep .. => true
    | .pair n => n != 0
    | _ => false
  BitVec.ofNat 8 b.kind ++ BitVec.ofNat 12 (32 + b.bytes) ++ BitVec.ofNat 4 b.entries.length ++ (0 : BitVec 5) ++
    BitVec.ofBool last ++ BitVec.ofBool phase ++ BitVec.ofBool resp ++ session ++ BitVec.ofNat 64 fseq

end Sys2Proof.Machine
end

