-- ==== Sys2Proof/Machine/ZoneOps.lean ====
section
/-! DEFINITION. Zones, slots, wear, the reserve, the Spoil and spare (chapter 6), and the choice of a slot (R124, R138, R243). Cells
are counted in units of 1/49,152 of a zone, so that a sett is 6 units in M2, 4 in M3 and 3 in M4. -/

namespace Sys2Proof.Machine

/-- The cells of a sett in units. -/
def settUnits : Mode → Nat
  | .none => 0
  | .m2 => 6
  | .m3 => 4
  | .m4 => 3

/-- The cells of a zone in units. -/
def zoneUnits : Nat := 49152

/-- LOOP_MAX of a mode (Table 4-9). -/
def loopMax : Mode → Nat
  | .none => 0
  | .m2 => 12
  | .m3 => 18
  | .m4 => 24

/-- One verified line program into a slot of WEAR code `c` (R134): one unit more, below exponent 2 always and else with probability
1 ÷ unit, drawn from the TRNG. -/
def wearAdd (s : State) (c : BitVec 16) : State × BitVec 16 :=
  let e := c.toNat / 2048
  if e ≤ 1 then (s, if c = 0xFFFF#16 then c else c + 1)
  else
    let hit := (Config.trng s.fresh).toNat % 2 ^ (e - 1) = 0
    (s.draw, if hit ∧ c ≠ 0xFFFF#16 then c + 1 else c)

namespace State

/-- Replaces zone `z` of die `d`. -/
def setZone (s : State) (d z : Nat) (v : Zone) : State :=
  s.setMed { s.med with zones := Tab.put {} s.med.zones (d * 64 + z) v }

/-- The record of an untouched slot of a zone. -/
def slotDefault (v : Zone) : SlotInfo := { blank := v.blank }

/-- Slot `k` of a zone. -/
def slotInfo (v : Zone) (k : Nat) : SlotInfo := Tab.get (slotDefault v) v.slots k

/-- The first slot number of a rising list that is not listed, from `i`. -/
def firstGap : List Nat → Nat → Nat
  | [], i => i
  | k :: ks, i => if k = i then firstGap ks (i + 1) else i

/-- The free slot of the lowest WEAR of a zone opened in mode `m`, the lowest number among equals (R124): of the slots that the mode has (Table 6-2). -/
def zoneFree (v : Zone) (m : Mode) : Option (Nat × BitVec 16) :=
  let cap := slotCap m
  let gap := firstGap (v.slots.map Prod.fst) 0
  let listed := v.slots.filterMap fun p => if p.2.alloc || p.2.spoil || decide (cap ≤ p.1) then none else some (p.1, p.2.wear)
  let cands := listed ++ (if gap < cap then [(gap, 0#16)] else [])
  cands.foldl (fun best c =>
    match best with
    | none => some c
    | some b => if c.2 < b.2 ∨ (c.2 = b.2 ∧ c.1 < b.1) then some c else some b) none

/-- The slots that the M3 ladder and anchor take in the die's first M3 user zone (R108): two copies of eight rungs, and the anchor. DESIGN CHOICE
(log entry 120): the lowest slots of the zone. -/
def reservedSlots : Nat := 17

/-- The M3 ladder of a die has its reserved slots (R108). -/
def hasLadder (s : State) (d : Nat) : Bool :=
  (List.range 58).any fun z => let v := s.zone d z; v.state != .retired && v.slots.any fun p => p.2.reserved

/-- A zone as it stands opened in mode `m` (R124, R157, R108): an EMPTY one that last stood in another mode takes SET_ZONE_MODE, which clears its blank
bits unless every slot was blank; a die's first M3 user zone has the slots of the ladder and the anchor reserved. DESIGN CHOICE (log entry 129): WEAR
stays with the slot number, though the number names other cells in another mode. -/
def openZone (s : State) (d z : Nat) (m : Mode) : Zone :=
  let v := s.zone d z
  let change := v.state == .empty && v.mode != m
  let v1 : Zone := if change then
      (if v.blank && v.slots.all fun q => q.2.blank then { v with mode := m, slots := [], blank := true }
      else { v with mode := m, blank := false, slots := v.slots.filterMap fun q =>
        let x := { q.2 with blank := false }
        if x = {} then none else some (q.1, x) })
    else { v with mode := m }
  if m == .m3 && decide (z < 58) && !s.hasLadder d then
    { v1 with slots := (List.range reservedSlots).foldl (fun t k =>
        Tab.put (slotDefault v1) t k { alloc := true, reserved := true, wear := (Tab.get (slotDefault v1) t k).wear }) v1.slots }
  else v1

/-- The free slot R124 takes on die `d` in mode `m`, with its WEAR, from the zones `p` admits: of the OPEN and PINNED zones of the
mode; else an EMPTY zone, one that last stood in the mode first. -/
def dieSlot (s : State) (d : Nat) (m : Mode) (p : Nat → Bool) : Option (Nat × Nat × BitVec 16) :=
  let zs := (List.range 62).filter p
  let opened := zs.filterMap fun z =>
    let v := s.zone d z
    if (v.state == .opened || v.state == .pinned) && v.mode == m then (zoneFree v m).map fun c => (z, c.1, c.2) else none
  match opened.foldl (fun (best : Option (Nat × Nat × BitVec 16)) c =>
      match best with
      | none => some c
      | some b => if c.2.2 < b.2.2 then some c else some b) none with
  | some c => some c
  | none =>
    let empties := zs.filter fun z => (s.zone d z).state == .empty
    match (empties.find? fun z => (s.zone d z).mode == m).orElse fun _ => empties.head? with
    | some z => (zoneFree (s.openZone d z m) m).map fun c => (z, c.1, c.2)
    | none => none

/-- Yarrow may allocate on the die: in service, its free lists loaded (R252), nothing else being wrong with it. -/
def dieAllocates (s : State) (d : Nat) : Bool :=
  s.dieUp d && (s.xlt.allLoaded || s.xlt.freeLoaded.contains d || s.xlt.load == .loaded)

/-- The die and slot R124 takes on channel `n` in mode `m`, from the zones `p` admits by die: the die of the lowest mean WEAR that has one. -/
def chanSlot (s : State) (n : Nat) (m : Mode) (p : Nat → Nat → Bool) (skip : Nat → Bool) : Option Phys :=
  let ds := (s.chanDies n).filter fun d => s.dieAllocates d && !skip d
  let cands := ds.filterMap fun d => (s.dieSlot d m (p d)).map fun c => (s.dieTotals d, ({ die := d, zone := c.1, slot := c.2.1 } : Phys))
  (cands.foldl (fun (best : Option ((Nat × Nat) × Phys)) c =>
    match best with
    | none => some c
    | some b => if meanLess c.1 b.1 then some c else some b) none).map Prod.snd

/-! ### Capacity (R138, R142, R143) -/

/-- The cells in units of the zones of in-service dies that `p` measures (R142). -/
def zoneSum (s : State) (p : Zone → Nat) : Nat :=
  (s.diesUp.map fun d => ((List.range 62).map fun z => p (s.zone d z)).foldl (· + ·) 0).foldl (· + ·) 0

/-- The free cells of the OPEN and PINNED zones of a mode. -/
def freeIn (s : State) (m : Mode) : Nat := s.zoneSum fun v =>
  if (v.state == .opened || v.state == .pinned) && v.mode == m then
    (slotCap m - (v.slots.filter fun p => p.2.alloc || p.2.spoil).length) * settUnits m
  else 0

/-- The cells of EMPTY zones. -/
def emptyUnits (s : State) : Nat := s.zoneSum fun v => if v.state == .empty then zoneUnits else 0

/-- The cells of the slots that hold setts in a mode. -/
def allocUnits (s : State) (m : Mode) : Nat := s.zoneSum fun v =>
  if v.mode == m then (v.slots.filter fun p => p.2.alloc).length * settUnits m else 0

/-- The free cells over in-service dies (F of R142), in units. -/
def freeUnits (s : State) : Nat := s.emptyUnits + s.freeIn .m2 + s.freeIn .m3 + s.freeIn .m4

/-- The reserve Q of R138 in units: 1/64 of a zone's cells per in-service die. -/
def reserveUnits (s : State) : Nat := s.diesUp.length * (zoneUnits / 64)

/-- Z, the user cells (R142). -/
def userUnits (s : State) : Nat := s.diesUp.length * 58 * zoneUnits

/-- The cells of a region's allocated setts on dies in service, and the cells it has reserved and not allocated there (R142): setts not yet allocated, in
the mode of its reservation, what a conversion still needs, and setts whose die is out of service. -/
def regionUnits (s : State) (r : Nat) : Nat × Nat :=
  let v := s.region r
  let mine := s.med.setts.filter fun p => match s.ownerOf p.1 with
    | some (q, _) => q == r && p.2.mode != .none
    | none => false
  let here := mine.filter fun p => p.2.phys.any fun (q : Phys) => s.dieUp q.die
  let total := (mine.map fun p => settUnits p.2.mode).foldl (· + ·) 0
  let a := (here.map fun p => settUnits p.2.mode).foldl (· + ·) 0
  let conv := match v.conv with
    | some c => (mine.map fun p => settUnits c.target - settUnits p.2.mode).foldl (· + ·) 0
    | none => 0
  (a, (v.size - mine.length) * settUnits v.mode + conv + (total - a))

/-- U, the cells regions have reserved and not allocated (R142). -/
def reservedUnits (s : State) : Nat := (s.regionIds.map fun r => (s.regionUnits r).2).foldl (· + ·) 0

/-- The cells that regions hold, reserved or allocated (R143). -/
def heldUnits (s : State) : Nat := (s.regionIds.map fun r => (s.regionUnits r).1 + (s.regionUnits r).2).foldl (· + ·) 0

/-- The region limit of R143: the smaller of Z and 131,072 zones. -/
def limitUnits (s : State) : Nat := min s.userUnits (131072 * zoneUnits)

/-- F − U − Q, which may be negative, after `more` further cells are reserved. -/
def spareUnits (s : State) (more : Nat) : Int := (s.freeUnits : Int) - s.reservedUnits - s.reserveUnits - more

/-- The capacity state of a spare over `z` user cells (Table 6-7). -/
def capOf (spare : Int) (z : Nat) : Cap :=
  if z = 0 then .red
  else if 2 * (z : Int) ≤ spare * 100 then .green
  else if 5 * (z : Int) ≤ spare * 1000 then .amber
  else .red

/-- The part of the reserve that is held in a mode (R138): in proportion to the allocated cells of the mode. -/
def reserveIn (s : State) (m : Mode) : Nat :=
  s.reserveUnits * s.allocUnits m / max 1 (s.allocUnits .m2 + s.allocUnits .m3 + s.allocUnits .m4)

/-- What of the reserve must come from EMPTY zones, where the free slots of the modes hold `f` (R138). DESIGN CHOICE (log entry 72): a mode whose free
slots fall short of its part makes it up from EMPTY zones, and so does the part of no mode while nothing is allocated. -/
def reserveShort (s : State) (f : Mode → Nat) : Nat :=
  let part (m : Mode) : Nat := s.reserveIn m
  (part .m2 - f .m2) + (part .m3 - f .m3) + (part .m4 - f .m4) + (s.reserveUnits - (part .m2 + part .m3 + part .m4))

/-- The cells that the reserve holds (R138). -/
def reserveHeld (s : State) : Nat := s.reserveUnits - (s.reserveShort s.freeIn - s.emptyUnits)

/-- The free cells outside the reserve allow a sett of the mode (R138): only classes 1 and 2 draw on the reserve. The sett takes a free slot of its mode,
or opens an EMPTY zone. -/
def outsideReserve (s : State) (m : Mode) : Bool :=
  let opens := decide (s.freeIn m < settUnits m)
  let f (k : Mode) : Nat := if k = m then s.freeIn m + (if opens then zoneUnits else 0) - settUnits m else s.freeIn k
  decide (s.reserveShort f + (if opens then zoneUnits else 0) ≤ s.emptyUnits)

/-- The channels of the groups in service, rising (R243). -/
def serviceChans (s : State) : List Nat :=
  (List.range 9).flatMap fun g => if (s.qg g).inService then (List.range 16).map fun k => 16 * g + k else []

/-- The slot for the first program of region sett `i` of region `r` (R243, R124): the permutation's channel, then the next ones. -/
def placeSett (s : State) (r i : Nat) (m : Mode) : Option Phys :=
  let cs := s.serviceChans
  let nc := cs.length
  let v := s.region r
  if nc = 0 || !s.outsideReserve m then none
  else
    let j := (v.permA * i + v.permB) % nc
    (List.range nc).findSome? fun k =>
      let n := cs.getD ((j + k) % nc) 0
      if (s.qc n).lstate == .active || (s.qc n).lstate == .sleep then s.chanSlot n m (fun _ _ => true) (fun _ => false) else none

/-! ### Taking and returning slots -/

/-- A zone's state follows its slots (Table 6-3). -/
def zoneState (v : Zone) : ZoneState :=
  if v.state == .retired then .retired
  else if v.slots.any fun p => p.2.spoil then .pinned
  else
    let n := (v.slots.filter fun p => p.2.alloc).length
    if n = 0 then .empty else if n = slotCap v.mode then .full else .opened

/-- Takes a free slot for a sett or as a destination. Answers the state, the slot's WEAR and whether it was blank. Blanking of the slot stops; the first
M3 zone of a die has its ladder written (R108, R124, R157). -/
def takeSlot (s : State) (p : Phys) (m : Mode) : State × BitVec 16 × Bool :=
  let v := s.zone p.die p.zone
  let change := v.state == .empty && v.mode != m
  let v1 := s.openZone p.die p.zone m
  let ladder := (v1.slots.any fun q => q.2.reserved) && !v.slots.any fun q => q.2.reserved
  let old := slotInfo v1 p.slot
  let v2 := { v1 with slots := Tab.put (slotDefault v1) v1.slots p.slot { alloc := true, wear := old.wear } }
  let n := dieChan p.die
  let mine (c : QmiCmd) : Bool := c.user == .blanking && n * 16 + c.die == p.die && c.zone == p.zone && c.slot == p.slot
  let s0 := s.setMed { s.med with blanks := s.med.blanks.filter fun b => b.slot != p }
  let s1 := (s0.setQc n { s0.qc n with queue := (s0.qc n).queue.filter fun c => !mine c }).setZone p.die p.zone { v2 with state := zoneState v2 }
  let s2 := if change then s1.issue p.die { op := .setZoneMode, die := 0, zone := p.zone, mode := m } else s1
  let s3 := if ladder then s2.setDie p.die { s2.die p.die with ladderDue := true } else s2
  ((s3.journal (.free p.die p.zone p.slot)).journal (.zone p.die p.zone), old.wear, old.blank)

/-- A slot is left: it returns to its zone's free list with its WEAR, or enters the Spoil (R130, R140, R240). -/
def leaveSlot (s : State) (p : Phys) (wear : BitVec 16) (spoil : Bool) : State :=
  let v := s.zone p.die p.zone
  let v1 := { v with slots := Tab.put (slotDefault v) v.slots p.slot { alloc := false, spoil := spoil || (slotInfo v p.slot).spoil, wear := wear } }
  let s1 := (s.setZone p.die p.zone { v1 with state := zoneState v1 }).journal
    (if spoil then .spoil p.die p.zone p.slot else .free p.die p.zone p.slot)
  s1.journal (.zone p.die p.zone)

/-- Replaces the wear of an allocated slot. -/
def setSlotWear (s : State) (p : Phys) (w : BitVec 16) : State :=
  let v := s.zone p.die p.zone
  s.setZone p.die p.zone { v with slots := Tab.put (slotDefault v) v.slots p.slot { slotInfo v p.slot with wear := w, blank := false } }

/-- The level bits of YRW_CAUSE (Table 6-11); CAP_CHANGE is captured at every change of one of them (R151). -/
def judgeYrw (s : State) : State :=
  let y := s.med.yarrow
  let old := s.fld Reg.YRW_CAUSE 0 5 0
  let f := s.reserveHeld
  let q := s.reserveUnits
  let rank (c : Cap) : Nat := match c with
    | .notComputed => 0
    | .green => 1
    | .amber => 2
    | .red => 3
  let new := (y.cap == .amber || y.cap == .red).toNat + 2 * (y.cap == .red).toNat +
    4 * (decide (f * 2 < q)).toNat + 8 * (decide (f = 0 ∧ q ≠ 0)).toNat +
    16 * (s.paired && decide (rank y.cap < rank y.twinCap)).toNat + 32 * (!y.short.isEmpty).toNat
  if new = old then s else (s.setFld Reg.YRW_CAUSE 0 5 0 new).cause Reg.YRW_CAUSE 0 6 157

/-- The worse of the capacity states of the pair, by which a home acts (R146). -/
def pairCap (s : State) : Cap :=
  let y := s.med.yarrow
  let worse (a b : Cap) : Cap :=
    if a = .red ∨ b = .red then .red else if a = .amber ∨ b = .amber then .amber
    else if a = .green ∨ b = .green then .green else .notComputed
  if s.paired then worse y.cap y.twinCap else y.cap

end State

end Sys2Proof.Machine
end

