-- ==== Sys2Proof/Machine/HostBase.lean ====
section
/-! DEFINITION. What the host ports record and answer (Tables 11-3 and 12-4): LD event logs (R286, R289), drops, poison and not-here
outcomes on CXL, and fatal NAKs on RDMA (R301); the staging windows (R358, R359). -/

namespace Sys2Proof.Machine

/-- The region id that stands for the staging windows (R358). -/
def stagingRegion : Nat := 0xFFFF

namespace State

/-- LD `l` of port `p`. -/
def ld (s : State) (p : Fin 4) (l : Fin 16) : Ld := Tab.get {} s.cxl.lds (p.val * 16 + l.val)

/-- Replaces LD `l` of port `p`. -/
def setLd (s : State) (p : Fin 4) (l : Fin 16) (v : Ld) : State :=
  { s with cxl := { s.cxl with lds := Tab.put {} s.cxl.lds (p.val * 16 + l.val) v } }

/-- CXL port `p`. -/
def cport (s : State) (p : Fin 4) : CxlPort := Tab.get {} s.cxl.ports p

/-- Replaces CXL port `p`. -/
def setCport (s : State) (p : Fin 4) (v : CxlPort) : State :=
  { s with cxl := { s.cxl with ports := Tab.put {} s.cxl.ports p v } }

/-- Queue pair `n`. -/
def qp (s : State) (n : Nat) : Qp := Tab.get {} s.rdma.qps n

/-- Replaces queue pair `n`. -/
def setQp (s : State) (n : Nat) (v : Qp) : State := { s with rdma := { s.rdma with qps := Tab.put {} s.rdma.qps n v } }

/-- The number of an event log, in the order of Set Event Interrupt Policy. -/
def logNo : LogKind → Nat
  | .info => 0
  | .warning => 1
  | .failure => 2
  | .fatal => 3
  | .dcd => 4

/-- Records an event in an LD's log (R286, R289): 64 records each, Overflow once one is lost, and the log's MSI-X message. -/
def ldRecord (s : State) (p : Fin 4) (l : Fin 16) (k : LogKind) (what : LdEvent) (dpa : Nat) : State :=
  let d := s.ld p l
  let s1 := if (d.logs.filter fun r => r.kind == k).length < 64 then
      s.setLd p l { d with logs := d.logs ++ [{ kind := k, what := what, dpa := dpa, tally := s.tally.now }] }
    else s.setLd p l { d with overflow := if d.overflow.contains k then d.overflow else d.overflow ++ [k] }
  s1.msixSend p l (BitVec.ofNat 8 (Tab.get 0 d.policy (logNo k)))

/-- A CXL write is dropped and its Cmp returned (Table 11-3). -/
def cxlDrop (s : State) (p : Fin 4) (l : Fin 16) (tag dpa : Nat) : State :=
  ((((s.bump Reg.CXL_DROP_CNT 0 31 0).cause Reg.CXL_CAUSE 0 4 228).ldRecord p l .warning .writeDropped dpa)).emit (.memCmp p l tag)

/-- A CXL read returns poison (Table 11-3, R118). -/
def cxlPoison (s : State) (p : Fin 4) (l : Fin 16) (tag dpa : Nat) : State :=
  (((s.bump Reg.CXL_POISON_CNT 0 31 0).cause Reg.CXL_CAUSE 0 5 229).ldRecord p l .failure .readPoison dpa).emit
    (.memData p l tag (BitVec.allOnes 512) true)

/-- Ten milliseconds of the Tally (R289). -/
def tenMs : Nat := 655

/-- A not-here or not-ready outcome is counted, and recorded at most once per region per 10 ms (R280, R289). -/
def cxlNotHere (s : State) (p : Fin 4) (l : Fin 16) (region dpa : Nat) : State :=
  let s1 := (s.bump Reg.CXL_NOTHERE_CNT 0 31 0).cause Reg.CXL_CAUSE 0 6 230
  let v := s1.rt region
  let due := match v.lastNotHere with
    | none => true
    | some t => decide (t.toNat + tenMs ≤ s1.tally.now.toNat)
  if due then (s1.setRt region { v with lastNotHere := some s1.tally.now }).ldRecord p l .warning .notHere dpa else s1

/-- A reason code of Table 12-6. -/
inductive DreqReason where
  | notReady | notHere | notHome | capacityRed | access | qpLost | badToken | noResource
  deriving DecidableEq, Repr

/-- The value of a reason code (Table 12-6). -/
def DreqReason.code : DreqReason → Nat
  | .notReady => 1
  | .notHere => 2
  | .notHome => 3
  | .capacityRed => 4
  | .access => 5
  | .qpLost => 6
  | .badToken => 7
  | .noResource => 8

/-- A NAK leaves a QP. -/
def nak (s : State) (n : Nat) (psn : BitVec 24) (code : Fin 5) : State :=
  (s.bump Reg.RDM_NAK_CNT 0 15 0).emit (.rdmaNak n psn code)

/-- A QP enters the error state, and Mingaso sends the DREQ (R301). -/
def qpError (s : State) (n : Nat) (reason : DreqReason) (region : Nat) : State :=
  let q := s.qp n
  if q.error || !q.connected then s
  else
    let s1 := (s.setQp n { q with error := true, queued := [], msgs := [], active := [] }).cause Reg.RDM_CAUSE 0 0 192
    let s2 := match reason with
      | .notReady | .notHere | .notHome => s1.cause Reg.RDM_CAUSE 0 2 194
      | _ => s1
    s2.emit (.cmDreq n (reason.code) (match reason with
      | .notHere | .notHome | .capacityRed | .access => region
      | _ => 0))

/-- A fatal NAK (Table 12-4): the NAK, the error state and the DREQ. -/
def qpFatal (s : State) (n : Nat) (psn : BitVec 24) (code : Fin 5) (reason : DreqReason) (region : Nat) : State :=
  let q := s.qp n
  if q.error || !q.connected then s
  else
    let s1 := s.nak n psn code
    let s2 := if code = 2 then s1.cause Reg.RDM_CAUSE 0 1 193 else s1
    s2.qpError n reason region

/-- Part of a READ response has left: the READ ends with its last part. -/
def readPart (s : State) (n : Nat) (psn : BitVec 24) : State :=
  let q := s.qp n
  s.setQp n { q with
    active := (q.active.map fun a => if a.1 == psn then (a.1, a.2 - 1) else a).filter fun a => a.2 != 0 }

/-- The DPA of a region line for an LD's records (R277, log 143): that of the first committed decoder bound to it, as CXL 3.1 computes it: the DPA
spans of the decoders before it, and the offset in its range without its interleave bits. The region offset where none is. -/
def dpaOf (s : State) (p : Fin 4) (l : Fin 16) (region rline : Nat) : Nat :=
  let off := rline * 256
  ((List.range 4).foldl (fun (a : Nat × Option Nat) b =>
    let v := Tab.get ({} : Decoder) (s.ld p l).decoders b
    let span := 256 * 2 ^ v.gran.val
    let here : Option Nat := match Tab.get (none : Option BindTo) s.cxl.bindings ((p.val * 16 + l.val) * 4 + b) with
      | some (.region q o n) =>
        if v.committed && q == region && decide (o ≤ off ∧ off < o + n) then
          some (a.1 + (off - o) / (span * 2 ^ v.ways.val) * span + (off - o) % span) else none
      | _ => none
    (a.1 + (if v.committed then v.size / 2 ^ v.ways.val else 0), a.2 <|> here)) (0, none)).2.getD off

/-- Tandem port TL0 or TL1. -/
def tport (s : State) (p : Bool) : TPort := if p then s.twin.p1 else s.twin.p0

/-- Replaces a Tandem port. -/
def setTport (s : State) (p : Bool) (v : TPort) : State := s.setTwin (if p then { s.twin with p1 := v } else { s.twin with p0 := v })

/-- Sends a frame on the port named, or on the other one while that is not up (R204, R205): the next FSEQ of the port, under the
session and its key phase. With no port up nothing leaves; what needs an answer stays uncovered (R208). -/
def tsend (s : State) (port : Bool) (b : TBody) : State :=
  let go (p : Bool) : State :=
    let v := s.tport p
    (s.setTport p { v with fseqTx := v.fseqTx + 1, frames := v.frames + 1, unacked := min 256 (v.unacked + 1) }).emit
      (.tandem p (frameHeader b v.phaseTx s.twin.session (v.fseqTx + 1)) b.entries b)
  if (s.tport port).st == .up then go port else if (s.tport (!port)).st == .up then go (!port) else s

/-- Sends a RESYNC entry, which is kept until an ACK covers it (R208, R226). -/
def resyncSend (s : State) (e : WEntry) (last : Bool) : State :=
  (s.setTwin { s.twin with rsSent := s.twin.rsSent ++ [(e, last)] }).tsend (e.region % 2 == 1) (.resync [e] last)

/-- Sends the reply entries of a request whose turn has come (R207). DESIGN CHOICE (log entry 141): each entry in a frame of its own, as it becomes
known. -/
def flushReplies (s : State) (t : Word) : Nat → State
  | 0 => s
  | f + 1 =>
    match s.twin.replies.find? fun e => e.rtag == t with
    | none => s
    | some e => match e.st with
      | none => s
      | some st =>
        ((s.setTwin { s.twin with replies := s.twin.replies.erase e }).tsend false (.assistRep t e.region e.line e.last st)).flushReplies t f

/-- The status of a line of a request is known (R207). -/
def fillReply (s : State) (t : Word) (x : Nat) (st : AssistStatus) : State :=
  (s.setTwin { s.twin with replies := s.twin.replies.map fun e => if e.rtag == t && e.line == x then { e with st := some st } else e
    }).flushReplies t 256

/-- Answers a read with its line's data, or, with none, as unrecovered (R118): poison on CXL, a remote access error on RDMA, UNRECOVERED
to the twin. -/
def respond (s : State) (r : HostRead) (d : Option Line) : State :=
  match r.who, d with
  | .cxl p l t, some x =>
    s.emit (.memData p l t (chunkAt x (((List.range 4).find? fun i => r.chunks.getLsbD i).getD 0)) false)
  | .cxl p l t, none => s.cxlPoison p l t (s.dpaOf p l r.region r.rline)
  | .rdma n psn, some x => if (s.qp n).error then s else (s.emit (.rdmaData n psn r.part r.chunks x)).readPart n psn
  | .rdma n psn, none => s.qpFatal n psn 2 .access r.region
  | .gather n psn, some x => if (s.qp n).error then s else s.emit (.requestData n psn r.part r.chunks x)
  | .gather n psn, none =>
    let q := s.qp n
    s.setQp n { q with flight := q.flight.map fun f => if f.psn == psn then { f with bad := true } else f }
  | .assist t _, some x => s.fillReply t r.line (if x = 0 then .zero else .data x)
  | .assist t _, none => s.fillReply t r.line .unrecovered
  | .resync g, x =>
    let rest := s.bench.reads.any fun q => q.who == .resync g
    s.resyncSend { ros := (s.rt g).ros, region := g, line := r.line, data := x.getD 0, zero := x == some 0 || x.isNone
                   mode := (s.sett (lineSett r.line)).mode } (!rest)
  | _, _ => s

/-- The control cores run Mingaso, or restart: under the recovery image and in the loader the host ports stay down (R421). -/
def hostsMay (s : State) : Bool := s.psq.mainUp && s.flash.cores != .recovery && s.flash.cores != .loader

/-! ### Staging windows (R358, R359) -/

/-- Word `i` of a channel's staging window. -/
def stageWord (s : State) (c i : Nat) : Word := ((s.chan c).stage.find? fun p => p.1 == i).elim 0 Prod.snd

/-- Writes word `i` of a channel's staging window. -/
def setStageWord (s : State) (c i : Nat) (w : Word) : State :=
  let ch := s.chan c
  s.setChan c { ch with stage := Tab.put 0 ch.stage i w }

/-- Writes words from word `i`. -/
def stageWords (s : State) (c i : Nat) (ws : List Word) : State :=
  (ws.foldl (fun (p : State × Nat) w => (p.1.setStageWord c p.2 w, p.2 + 1)) (s, i)).1

/-- A chunk of a staging window. -/
def stageChunk (s : State) (c off : Nat) : Chunk :=
  (List.range 16).foldl (fun (a : Chunk) k => a ||| ((s.stageWord c (off / 4 + k)).setWidth 512 <<< (32 * k))) 0

/-- Writes the enabled bytes of a chunk of a staging window. -/
def putStageChunk (s : State) (c off : Nat) (mask : BitVec 64) (d : Chunk) : State :=
  (List.range 16).foldl (fun s k =>
    let m : Nat := (mask >>> (4 * k)).toNat % 16
    if m = 0 then s
    else
      let bits : Word := (List.range 4).foldl (fun (a : Word) b => if m.testBit b then a ||| (0xFF#32 <<< (8 * b)) else a) 0
      s.setStageWord c (off / 4 + k) ((((d >>> (32 * k)).setWidth 32) &&& bits) ||| (s.stageWord c (off / 4 + k) &&& ~~~bits))) s

/-- Byte `i` of a channel's staging window. -/
def stageByte (s : State) (c i : Nat) : Byte := (s.stageWord c (i / 4)).extractLsb' (8 * (i % 4)) 8

/-- Writes a byte of a channel's staging window. -/
def setStageByte (s : State) (c i : Nat) (b : Byte) : State :=
  let w := s.stageWord c (i / 4)
  let m : Word := 0xFF#32 <<< (8 * (i % 4))
  s.setStageWord c (i / 4) ((w &&& ~~~m) ||| (b.setWidth 32 <<< (8 * (i % 4))))

/-- Line `k` of the staging range, in which channel n's window lies at n × 1 MiB. -/
def stageLine (s : State) (k : Nat) : Line :=
  (List.range 4).foldl (fun (a : Line) i => a ||| ((s.stageChunk (k / 4096) (k % 4096 * 256 + 64 * i)).setWidth 2048 <<< (512 * i))) 0

/-- Writes the enabled bytes of line `k` of the staging range. -/
def putStageLine (s : State) (k : Nat) (mask : BitVec 256) (d : Line) : State :=
  (List.range 4).foldl (fun s i => s.putStageChunk (k / 4096) (k % 4096 * 256 + 64 * i) ((mask >>> (64 * i)).setWidth 64) (chunkAt d i)) s

end State

end Sys2Proof.Machine
end

