-- ==== Sys2Proof/Machine/BenchOps.lean ====
section
/-! DEFINITION. Bench 0: finding and replacing lines (R173 to R175), partial lines (R180, R181), the loss list (R168), programs of
lines (R15, R132, R158), the DRAM pool's copies (R256, R258), and whole-sett work on setts: moves and rewrites (R129 to R136). -/

namespace Sys2Proof.Machine

namespace State

/-! ### Lines of Bench 0 -/

/-- A Bench 0 line. -/
def bline (s : State) (x : Nat) : Option BLine := Tab.get none s.bench.lines x

/-- Replaces or removes a Bench 0 line. -/
def setBline (s : State) (x : Nat) (v : Option BLine) : State :=
  s.setBench { s.bench with lines := Tab.put none s.bench.lines x v }

/-- The set of a line (R174). -/
def setOf (s : State) (x : Nat) : Nat := Config.lineHash s.bench.hashKey x % 12288

/-- The way a tree pseudo-LRU points at: four bits from the root down (R175). -/
def treeVictim (t : BitVec 15) : Nat :=
  (List.range 4).foldl (fun n _ => 2 * n + (t.getLsbD (n - 1)).toNat) 1 - 16

/-- The tree after a use of way `w`: every node on its path points away from it. -/
def treeTouch (t : BitVec 15) (w : Nat) : BitVec 15 :=
  ((List.range 4).foldl (fun (p : Nat × BitVec 15) i =>
    let b := w.testBit (3 - i)
    (2 * p.1 + b.toNat, if b then p.2 &&& ~~~(BitVec.twoPow 15 (p.1 - 1)) else p.2 ||| BitVec.twoPow 15 (p.1 - 1))) (1, t)).2

/-- A use of a line: its set's tree, and its place in the whole Bench 0's order. -/
def touch (s : State) (x : Nat) : State :=
  match s.bline x with
  | none => s
  | some b =>
    let k := s.setOf x
    s.setBench { s.bench with
      lru := s.bench.lru.erase x ++ [x]
      trees := Tab.put 0 s.bench.trees k (treeTouch (Tab.get 0 s.bench.trees k) b.way) }

/-- The line is dirty: DIRTY, or WB while its program runs (R15). -/
def isDirty (b : BLine) : Bool := b.state == .dirty || b.state == .wb

/-- The line has a partial-line entry (R180). -/
def isPartial (b : BLine) : Bool := b.valid != BitVec.allOnes 256

/-- Removes a line from Bench 0. -/
def dropLine (s : State) (x : Nat) : State :=
  let s1 := { s.setBline x none with sec := { s.sec with sealed := s.sec.sealed.filter fun y => y != x } }
  s1.setBench { s1.bench with lru := s.bench.lru.erase x, partials := s.bench.partials.erase x }

/-- Keeps the partial-line table in step with a line's mask (R180). -/
def notePartial (s : State) (x : Nat) : State :=
  let p := match s.bline x with
    | some b => isPartial b
    | none => false
  if p && !s.bench.partials.contains x then s.setBench { s.bench with partials := s.bench.partials ++ [x] }
  else if !p && s.bench.partials.contains x then s.setBench { s.bench with partials := s.bench.partials.erase x }
  else s

/-- The lines of a set other than `x`, with their tags. -/
def setLines (s : State) (x : Nat) : List (Nat × BLine) :=
  s.bench.lines.filterMap fun p => match p.2 with
    | some b => if p.1 != x && s.setOf p.1 == s.setOf x then some (p.1, b) else none
    | none => none

/-- A slot of a stream buffer that holds a line (R179); one already freed holds it until the commit. -/
def scbSlot (s : State) (x : Nat) : Option ScbSlot :=
  (s.bench.scbs.find? fun b => b.lsett == lineSett x).bind fun b => b.slots.find? fun k => k.line == lineIdx x

/-! ### The loss list (R168) -/

/-- The chunk mask of a line on the loss list. -/
def lossOf (s : State) (r rl : Nat) : Option (BitVec 4) := Tab.get none s.med.loss (r * 2 ^ 40 + rl)

/-- A loss is in the device log (R118, R168): two records of source 155, the region and the upper part of the region line, then its lower 32 bits. -/
def lossRecord (s : State) (r rl : Nat) : State :=
  (s.deviceRecord 155 (BitVec.ofNat 32 (r * 2 ^ 20 + rl / 2 ^ 32))).deviceRecord 155 (BitVec.ofNat 32 (rl % 2 ^ 32))

/-- A line joins the loss list with the bits of the chunks that stay readable, and the loss is recorded (R168). One on the list loses what it had again. -/
def lose (s : State) (r rl : Nat) (m : BitVec 4) : State :=
  let m1 := match s.lossOf r rl with
    | some old => old &&& m
    | none => m
  ((s.setMed { s.med with loss := Tab.put none s.med.loss (r * 2 ^ 40 + rl) (some m1) }).journal (.loss r rl)).lossRecord r rl

/-- A line leaves the loss list. -/
def unlose (s : State) (r rl : Nat) : State :=
  match s.lossOf r rl with
  | some _ => (s.setMed { s.med with loss := Tab.put none s.med.loss (r * 2 ^ 40 + rl) none }).journal (.loss r rl)
  | none => s

/-- A write ordered in the region covers whole chunks of a lost line: their bits set, and the entry leaves with all four. -/
def lossWrite (s : State) (r rl : Nat) (m : BitVec 4) : State :=
  match s.lossOf r rl with
  | none => s
  | some old =>
    let n := old ||| m
    if n = 15#4 then s.unlose r rl
    else if n = old then s
    else (s.setMed { s.med with loss := Tab.put none s.med.loss (r * 2 ^ 40 + rl) (some n) }).journal (.loss r rl)

/-- A CXL write of a line is dropped for want of its sett: later reads of the line return poison (R87). DESIGN CHOICE (log entry 132): every chunk of it,
each until a write covers it whole. -/
def dropMark (s : State) (x : Nat) : State := s.setBench { s.bench with dropped := Tab.put 0 s.bench.dropped x 15 }

/-- A write covers whole chunks of a line of which a write was dropped: they are readable again (R87). -/
def dropClear (s : State) (x : Nat) (m : BitVec 4) : State :=
  let old := Tab.get 0 s.bench.dropped x
  if old &&& m = 0 then s else s.setBench { s.bench with dropped := Tab.put 0 s.bench.dropped x (old &&& ~~~m) }

/-! ### Programs -/

/-- The frame of a line under an entry's GEN and LROT, the data as ciphertext (R152). -/
def frameFor (s : State) (x : Nat) (gen : BitVec 24) (lrot : BitVec 8) (d : Line) : Frame :=
  { of := .sett (lineSett x) (lineIdx x), gen := gen, epoch := BitVec.ofNat 20 s.nowEpoch, lrot := lrot, data := s.cipher x d }

/-- Queues a program of a line to a slot (R129). -/
def programLine (s : State) (x : Nat) (p : Phys) (m : Mode) (gen : BitVec 24) (lrot : BitVec 8) (d : Line) (u : QmiUser) : State :=
  s.issue p.die {
    op := .program, die := 0, zone := p.zone, slot := p.slot, line := (lineIdx x + lrot.toNat) % 256, mode := m, user := u
    frame := some (s.frameFor x gen lrot d), lsett := lineSett x }

/-- Queues a sense of a line in the bin R102 gives it. -/
def senseLine (s : State) (x : Nat) (op : QmiOp) (delta : Int) (u : QmiUser) : State :=
  let n := lineSett x
  let e := s.sett n
  match e.phys with
  | none => s
  | some p => s.issue p.die {
      op := op, die := 0, zone := p.zone, slot := p.slot, line := (lineIdx x + e.lrot.toNat) % 256
      refset := s.readBin n (lineIdx x), mode := e.mode, delta := delta, user := u, lsett := n }

/-- The page of a promoted or promoting sett. -/
def page (s : State) (n : Nat) : Option Page := Tab.get none s.xlt.pages n

/-- Replaces the page of a sett. -/
def setPage (s : State) (n : Nat) (v : Option Page) : State := s.setXlt { s.xlt with pages := Tab.put none s.xlt.pages n v }

/-- A line of a page in the clear: the DRAM bench holds it as ciphertext under its region's key (R10). -/
def pageLine (s : State) (p : Page) (x : Nat) : Line := s.plain x (Tab.get 0 p.lines (lineIdx x))

/-- A page with a line put into it, as ciphertext (R10). -/
def pagePut (s : State) (p : Page) (x : Nat) (d : Line) : Page :=
  { p with lines := Tab.put 0 p.lines (lineIdx x) (s.cipher x d), have_ := p.have_ ||| BitVec.twoPow 256 (lineIdx x) }

/-- A program of a line of a sett that is PROMOTED or PROMOTING also writes the page (R258). -/
def pageWrite (s : State) (x : Nat) (d : Line) : State :=
  match s.page (lineSett x) with
  | some p =>
    if (s.sett (lineSett x)).promoted || (s.sett (lineSett x)).mig == .promoting then s.setPage (lineSett x) (some (s.pagePut p x d))
    else s
  | none => s

/-! ### Whole-sett work -/

/-- The work in progress on a sett. -/
def move (s : State) (n : Nat) : Option Move := s.med.yarrow.moves.find? fun m => m.lsett == n

/-- Replaces Yarrow. -/
def setYrw (s : State) (y : Yarrow) : State := s.setMed { s.med with yarrow := y }

/-- Replaces the work in progress on a sett. -/
def setMove (s : State) (m : Move) : State :=
  s.setYrw { s.med.yarrow with moves := s.med.yarrow.moves.map fun x => if x.lsett == m.lsett then m else x }

/-- Takes the work in progress off a sett. -/
def endMove (s : State) (n : Nat) : State :=
  s.setYrw { s.med.yarrow with moves := s.med.yarrow.moves.filter fun x => x.lsett != n }

/-- A line of a sett under whole-sett work takes its source as read (R130 step 1) and its program is queued: to the destination, or in
place. -/
def moveProgram (s : State) (m : Move) (l : Nat) (d : Line) : State :=
  let x := lineOf m.lsett l
  let e := s.sett m.lsett
  let s0 := s.setMove { m with read := m.read ||| BitVec.twoPow 256 l }
  let s1 := match s0.bline x with
    | some b => if b.state == LineState.dirty && !isPartial b then s0.setBline x (some { b with state := .wb, redirty := false }) else s0
    | none => s0
  let s2 := s1.pageWrite x d
  match m.dest with
  | some p => s2.programLine x p m.mode e.gen m.lrot d (.move m.lsett)
  | none => match e.phys with
    | some p => s2.programLine x p e.mode e.gen e.lrot d (.rewrite m.lsett)
    | none => s2

/-- A recovered line that waits for room in Bench 0 (R117). -/
def recoverOf (s : State) (x : Nat) : Option Line := (s.bench.recovers.find? fun p => p.1 == x).map Prod.snd

/-- The source of a line that whole-sett work can take without a sense: a dirty copy in Bench 0, a recovered line that waits for room, or zeros where the
sett is unallocated or the line is lost; none where it must be read, or come from the twin. -/
def moveSource (s : State) (m : Move) (l : Nat) : Option Line :=
  let x := lineOf m.lsett l
  let e := s.sett m.lsett
  let (r, rl) := s.rlineOf x
  let zero : Bool := e.mode == .none || e.phys.isNone || (s.lossOf r rl).isSome
  match s.bline x with
  | some b =>
    if isDirty b && !isPartial b then some b.data
    else if isDirty b && zero then some (overlay b.valid b.data 0)
    else if zero then some 0 else s.recoverOf x
  | none => if zero then some 0 else s.recoverOf x

/-- A command of whole-sett work on the line is queued or outstanding. -/
def moveAsked (s : State) (n l : Nat) : Bool :=
  let e := s.sett n
  let mine (c : QmiCmd) : Bool := (c.user == .move n || c.user == .rewrite n) && c.line == (l + e.lrot.toNat) % 256 && c.isSense
  match e.phys with
  | none => false
  | some p => (s.qc (dieChan p.die)).queue.any mine || (s.qc (dieChan p.die)).sent.any mine

/-- A stream buffer's slot still holds the line, for its own program or for Bench 0 (R178). -/
def scbFilling (s : State) (x : Nat) : Bool := (s.scbSlot x).any fun k => k.use == .filling

/-- Feeds one line of a move: its program, or the sense of its source. The lines of a rebuild and of a resync come from the twin. -/
def moveLine (s : State) (n l : Nat) : State :=
  match s.move n with
  | none => s
  | some m =>
    if m.read.getLsbD l || s.scbFilling (lineOf n l) then s
    else match s.moveSource m l with
      | some d => s.moveProgram m l d
      | none => match m.kind with
        | .rebuild _ | .resync => s
        | _ => if s.moveAsked n l then s else s.senseLine (lineOf n l) .read 0 (.move n)

/-- A dirty line that an error in Bench 0 took is asked of the twin (R43): nothing older stands in for it. -/
def benchAwaited (s : State) (x : Nat) : Bool := s.twin.assists.any fun a => a.why == .bench && a.line == x

/-- Queues a merge of a partial line: a full slot of a stream buffer, the page where the sett is promoted, otherwise a sense; a line that
reads as zero merges at once (R180). A source on a failed die or an inactive channel waits. -/
def mergeLine (s : State) (x : Nat) : State :=
  match s.bline x with
  | none => s
  | some b =>
    if !isPartial b || s.benchAwaited x || s.sec.sealed.contains x then s
    else
      let e := s.sett (lineSett x)
      let (r, rl) := s.rlineOf x
      let full (d : Line) : State :=
        (s.setBline x (some { b with valid := BitVec.allOnes 256, data := overlay b.valid b.data d })).notePartial x
      match s.scbSlot x with
      | some k => if k.mask = 15#4 then full k.data else s
      | none =>
      if e.mode = .none || (s.lossOf r rl).isSome then full 0
      else match (if e.promoted then s.page (lineSett x) else none), e.phys with
        | some p, _ => full (s.pageLine p x)
        | none, none => full 0
        | none, some p =>
          let n := dieChan p.die
          let mine (c : QmiCmd) : Bool := c.user == .merge x || c.user == .fill x
          if !s.dieUp p.die || (s.qc n).sent.any mine || (s.qc n).queue.any mine then s
          else s.senseLine x .read 0 (.merge x)

/-- Feeds one line of an in-place rewrite (R131): it must stand dirty in Bench 0 before its program is queued. A line that is absent is
sensed, or placed as zeros by `rewriteData`. -/
def rewriteLine (s : State) (n l : Nat) : State :=
  match s.move n with
  | none => s
  | some m =>
    let x := lineOf n l
    if m.read.getLsbD l then s
    else
      let (r, rl) := s.rlineOf x
      match s.bline x with
      | some b =>
        if isPartial b then s.mergeLine x
        else match b.state with
          | .dirty => s.moveProgram m l b.data
          | .clean =>
            if decide (3 ≤ s.admitLevel) || decide (12 ≤ (s.setLines x).countP fun p => isDirty p.2) then s
            else (s.setBline x (some { b with state := .dirty, pf := false })).moveProgram m l b.data
          | _ => s
      | none =>
        if (s.lossOf r rl).isSome || (s.recoverOf x).isSome || s.moveAsked n l then s else s.senseLine x .read 0 (.rewrite n)

/-- Feeds the lines of a move, or of the current 16-line window of an in-place rewrite (R130, R131). The lines of an open stream buffer come with its
writes (R178). -/
def moveFeed (s : State) (n : Nat) : State :=
  match s.move n with
  | none => s
  | some m =>
    if s.bench.scbs.any fun b => b.lsett == n && !b.closing then s
    else match m.dest with
    | some _ => (List.range 256).foldl (fun s l => s.moveLine n l) s
    | none => (List.range 16).foldl (fun s i => s.rewriteLine n (16 * m.window + i)) s

/-- MIG of a kind of work (Table 6-5). -/
def migOf : WorkKind → Option Phys → Mig
  | .remap, _ => .remap
  | .rebuild _, _ => .rebuild
  | .resync, _ => .rebuild
  | _, none => .rewrite
  | _, some _ => .moving

/-- A new LROT for a move (R129): always another one; the first one uniform over 0 to 255. -/
def drawLrot (s : State) (e : Sett) : State × BitVec 8 :=
  let r := (Config.trng s.fresh).toNat
  (s.draw, if e.mode = .none then BitVec.ofNat 8 r else e.lrot + 1 + BitVec.ofNat 8 (r % 255))

/-- Starts whole-sett work on a sett: a move to `dest` in `mode`, or with no destination a rewrite in place. The lines are fed but for
a rebuild, whose lines come from the twin. -/
def moveStart (s : State) (n : Nat) (k : WorkKind) (dest : Option Phys) (mode : Mode) : State :=
  let e := s.sett n
  let s1 := match dest with
    | some p => (s.takeSlot p mode).1
    | none => s
  let (s2, lr) := match dest with
    | some _ => s1.drawLrot e
    | none => (s1, e.lrot)
  let s3 := s2.putSett n { e with mig := migOf k dest }
  let s4 := s3.setYrw { s3.med.yarrow with
    moves := s3.med.yarrow.moves ++ [{ lsett := n, kind := k, dest := dest, mode := mode, lrot := lr }] }
  s4.moveFeed n

/-- A write-back of the line's own is queued, outstanding, or kept for its channel's return (R15). -/
def ownProgram (s : State) (x : Nat) : Bool :=
  let mine (c : QmiCmd) : Bool := c.user == .writeBack x
  s.med.chans.any fun p => p.2.queue.any mine || p.2.sent.any mine || p.2.orphans.any mine

/-- Lines of a sett whose copy was taken by unfinished work turn dirty again (R132); a line whose own write-back is under way waits for it (R15). -/
def rewake (s : State) (n : Nat) : State :=
  (List.range 256).foldl (fun s l => match s.bline (lineOf n l) with
    | some b => if b.state == .wb && !s.ownProgram (lineOf n l) then
        s.setBline (lineOf n l) (some { b with state := .dirty, redirty := false }) else s
    | none => s) s

/-- Whole-sett work is abandoned before its commit (R130 step 4): the destination returns to the free list, or enters the Spoil, and the
sett is IDLE again. Its commands are forgotten. -/
def moveAbandon (s : State) (n : Nat) (spoil : Bool) : State :=
  match s.move n with
  | none => s
  | some m =>
    let s1 := match m.dest with
      | some p => s.leaveSlot p (slotInfo (s.zone p.die p.zone) p.slot).wear spoil
      | none => s
    let e := s1.sett n
    let mine (c : QmiCmd) : Bool := c.user == .move n || c.user == .rewrite n
    let s2 := s1.setMed { s1.med with chans := s1.med.chans.map fun p => (p.1, { p.2 with queue := p.2.queue.filter fun c => !mine c }) }
    ((s2.endMove n).putSett n { e with mig := .idle }).rewake n

/-- The commit of whole-sett work (R130 step 2, R103): PHYS, LROT, WEAR, MODE, the band and MIG IDLE in one record; the source slot is
freed or spoiled; copies used as sources turn clean unless written again. -/
def moveCommit (s : State) (n : Nat) : State :=
  match s.move n with
  | none => s
  | some m =>
    let e := s.sett n
    let first := (m.first.getD s.sNow).toNat
    let spoil := m.spoil || e.spoilPending
    let s1 := match m.dest, e.phys with
      | some _, some old => s.leaveSlot old e.wear spoil
      | _, _ => s
    let e1 : Sett := match m.dest with
      | some p => { e with
          phys := some p, lrot := m.lrot, mode := m.mode, mig := .idle, spoilPending := false
          wear := (slotInfo (s1.zone p.die p.zone) p.slot).wear }
      | none => { e with mig := .idle }
    let s2 := (s1.putSett n e1).setBand n first m.last.toNat
    let s3 := ((s2.journal (.bandOfs n)).journalYoung n (s1.youngOf n)).endMove n
    let s4 := s3.setBench { s3.bench with recovers := s3.bench.recovers.filter fun p => lineSett p.1 != n }
    (List.range 256).foldl (fun s l => match s.bline (lineOf n l) with
      | some b => if b.state == .wb && !s.ownProgram (lineOf n l) then
          s.setBline (lineOf n l) (some { b with state := if b.redirty then .dirty else .clean, redirty := false }) else s
      | none => s) s4

/-! ### Write-back (R132, R158, R175) -/

/-- Whether the sett's MIG state holds write-back of the line (R132). -/
def heldBack (s : State) (x : Nat) : Bool :=
  let e := s.sett (lineSett x)
  match e.mig with
  | .moving | .remap | .rebuild => true
  | .rewrite => match s.move (lineSett x) with
    | some m => lineIdx x / 16 == m.window
    | none => false
  | _ => false

/-- A first program into a blank slot is under way for an unallocated sett (R158). -/
def firstPending (s : State) (n : Nat) : Bool :=
  let mine (c : QmiCmd) : Bool := c.op == .program && c.lsett == n && match c.user with
    | .writeBack _ => true
    | _ => false
  s.med.chans.any fun p => p.2.queue.any mine || p.2.sent.any mine || p.2.orphans.any mine

/-- A line held dirty for want of a young way is programmed only once its bucket has one, or its sett's newest generation takes it (R105, R107). -/
def youngWaits (s : State) (x : Nat) : Bool :=
  let n := lineSett x
  let joins (g : Young) : Bool := decide (s.youngStamp.toNat - g.tFirst.toNat ≤ youngWindow (s.sett n).mode * 256)
  s.med.yarrow.held.contains x && (s.freeWay n).isNone && !(s.youngOf n).getLast?.any joins

/-- Writes back a dirty line (R15, R158, R175): merged first where partial; a first program takes a slot, alone into a blank slot,
otherwise with the whole sett. What cannot be written back now stays dirty. -/
def writeBack (s : State) (x : Nat) : State :=
  match s.bline x with
  | none => s
  | some b =>
    if b.state != .dirty || s.heldBack x || s.youngWaits x then s
    else if isPartial b then s.mergeLine x
    else
      let n := lineSett x
      let e := s.sett n
      match e.mode, e.phys with
      | .none, _ =>
        match s.ownerOf n with
        | none => s
        | some (r, i) =>
          let m := (s.region r).mode
          if s.med.yarrow.moves.any (fun w => w.lsett == n) || s.firstPending n || s.jFull then s
          else match s.placeSett r i m with
            | none => s
            | some p =>
              let t := s.takeSlot p m
              if t.2.2 then
                let (s2, lr) := t.1.drawLrot e
                (s2.setBline x (some { b with state := .wb, redirty := false })).programLine x p m e.gen lr b.data (.writeBack x)
              else
                (s.bump Reg.TSL_BLANK_SHORT_CNT 0 31 0).moveStart n .placed (some p) m
      | _, some p =>
        if s.dieUp p.die then
          ((s.setBline x (some { b with state := .wb, redirty := false })).pageWrite x b.data).programLine x p e.mode e.gen e.lrot
            b.data (.writeBack x)
        else s
      | _, none => s

/-! ### Allocation (R173, R175) -/

/-- The allocation waits under R173: the set's least recently used dirty line is written back. `first` says that the wait begins. -/
def stallSet (s : State) (x : Nat) (first : Bool) : State :=
  let s1 := if first then (s.bump Reg.PBF_STALL_CNT 0 31 0).cause Reg.PBF_CAUSE 0 9 289 else s
  let mine := (s.setLines x).filter fun p => p.2.state == .dirty
  match s1.bench.lru.find? fun y => mine.any fun p => p.1 == y with
  | some y => s1.writeBack y
  | none => s1

/-- Finds a way for a line: a free one, else the pseudo-LRU's victim, which must be clean; a dirty victim is written back and the
allocation waits. A dirty allocation also meets the limit of 12 (R173). DESIGN CHOICE (log entry 128): in the sets of 15 ways a tree that points at
way 15 takes way 14. -/
def allocLine (s : State) (x : Nat) (dirty first : Bool) : State × Option Nat :=
  let mine := s.setLines x
  if dirty && decide (12 ≤ (mine.filter fun p => isDirty p.2).length) then (s.stallSet x first, none)
  else
    let ways := List.range 15 ++ (if s.setOf x < 4096 then [] else [15])
    match ways.find? fun w => !(mine.any fun p => p.2.way == w) with
    | some w => (s, some w)
    | none =>
      let v := treeVictim (Tab.get 0 s.bench.trees (s.setOf x))
      let v := if v = 15 ∧ ways.length = 15 then 14 else v
      match mine.find? fun p => p.2.way == v with
      | none => (s, some v)
      | some (y, b) =>
        match b.state with
        | .clean => (s.dropLine y, some v)
        | .dirty => (s.writeBack y, none)
        | _ => (s, none)

/-- A line on hand completes a copy that lacks bytes of it. -/
def completeLine (s : State) (x : Nat) (b : BLine) (d : Line) : State :=
  ((s.setBline x (some { b with valid := BitVec.allOnes 256, data := overlay b.valid b.data d })).notePartial x).touch x

/-- A recovered line takes the place that waited for it, as a line of this state. -/
def settleRecover (s : State) (x : Nat) : State := s.setBench { s.bench with recovers := s.bench.recovers.filter fun p => p.1 != x }

/-- A recovered line that finds no room waits for it. -/
def awaitRoom (s : State) (x : Nat) (d : Line) : State :=
  if (s.recoverOf x).isSome then s else s.setBench { s.bench with recovers := s.bench.recovers ++ [(x, d)] }

/-- A recovered line is placed dirty (R117): a clean copy turns dirty. At FULL, or with no way for a dirty line, it waits (R173, Table 8-3). A line that a
write placed meanwhile takes only what it lacks, and one that a stream buffer holds is programmed with its sett. -/
def recoverLine (s : State) (x : Nat) (d : Line) : State :=
  let full := decide (3 ≤ s.admitLevel)
  let crowded := decide (12 ≤ (s.setLines x).countP fun p => isDirty p.2)
  match s.bline x with
  | some b =>
    if isDirty b then (if isPartial b then s.completeLine x b d else s).settleRecover x
    else if full || crowded then
      (if b.state == .filling then (s.setBline x (some { b with state := .clean, data := d })).touch x else s).awaitRoom x d
    else ((s.setBline x (some { b with state := .dirty, pf := false, data := if b.state == .filling then d else b.data })).touch x).settleRecover x
  | none =>
    if s.bench.domain == .draining || !s.psq.mainUp || (s.scbSlot x).isSome then s.settleRecover x
    else if full then s.awaitRoom x d
    else match s.allocLine x true false with
      | (s1, some w) => ((s1.setBline x (some { state := .dirty, way := w, data := d })).touch x).settleRecover x
      | (s1, none) => s1.awaitRoom x d

/-- Installs a line read from elsewhere: clean (a fill, R176 with `pf`), or dirty (a recovered line, R117). A line that a write placed
meanwhile takes only what it lacks; one that a stream buffer holds has no copy beside it (R179). -/
def installLine (s : State) (x : Nat) (d : Line) (dirty pf : Bool) : State :=
  if dirty then s.recoverLine x d
  else match s.bline x with
  | some b =>
    match b.state with
    | .filling => (s.setBline x (some { b with state := .clean, data := d, pf := pf })).touch x
    | _ => if isPartial b then s.completeLine x b d else s
  | none =>
    if s.bench.domain == .draining || !s.psq.mainUp || (s.scbSlot x).isSome then s
    else match s.allocLine x false false with
      | (s1, some w) => (s1.setBline x (some { state := .clean, way := w, pf := pf, data := d })).touch x
      | (s1, none) => s1

/-- Finds a place for a write in Bench 0 (R180, R182), or answers that it must wait (R173, R175). -/
def putLine (s : State) (x : Nat) (mask : BitVec 256) (d : Line) (first : Bool) : State × Bool :=
  match s.bline x with
  | some b =>
    match b.state with
    | .filling =>
      ((((s.setBline x (some { b with state := .dirty, valid := mask, data := overlay mask d 0 })).notePartial x).touch x), true)
    | .clean =>
      if 12 ≤ ((s.setLines x).filter fun p => isDirty p.2).length then (s.stallSet x first, false)
      else ((s.setBline x (some { b with state := .dirty, pf := false, data := overlay mask d b.data })).touch x, true)
    | .dirty =>
      ((((s.setBline x (some { b with valid := b.valid ||| mask, data := overlay mask d b.data })).notePartial x).touch x), true)
    | .wb => ((s.setBline x (some { b with redirty := true, data := overlay mask d b.data })).touch x, true)
  | none =>
    match s.allocLine x true first with
    | (s1, some w) =>
      ((((s1.setBline x (some { state := .dirty, way := w, valid := mask, data := overlay mask d 0 })).notePartial x).touch x), true)
    | (s1, none) => (s1, false)

/-- Places a write in Bench 0 (R180, R182), or answers that it must wait (R173, R175). A recovered line that waited for room completes it. -/
def placeLine (s : State) (x : Nat) (mask : BitVec 256) (d : Line) (first : Bool) : State × Bool :=
  match s.putLine x mask d first with
  | (s1, false) => (s1, false)
  | (s1, true) => (match s1.recoverOf x, s1.bline x with
    | some r, some b => (if isPartial b then s1.completeLine x b r else s1).settleRecover x
    | _, _ => s1, true)

/-- A slot of a stream buffer goes back to Bench 0 as a dirty line (R178). A dirty line there is newer than the slot and takes only the bytes that it
lacks; a clean copy is older and is written over. Answers `false` where the slot must wait for room. -/
def slotBack (s : State) (x : Nat) (k : ScbSlot) : State × Bool :=
  match s.bline x with
  | some b =>
    if isDirty b then
      (if isPartial b then
        (s.setBline x (some { b with valid := b.valid ||| chunkBytes k.mask, data := overlay b.valid b.data k.data })).notePartial x
      else s, true)
    else s.placeLine x (chunkBytes k.mask) k.data false
  | none => s.placeLine x (chunkBytes k.mask) k.data false

/-- Pressure write-back (R175): while the dirty level is at or above THROTTLE, the least recently used dirty lines of the whole Bench 0
are written back, without eviction; forced merges go oldest first (R181). -/
def pressure (s : State) : State :=
  let s1 :=
    if 1 ≤ s.admitLevel ∧ s.bench.domain = .opened then
      let busy := (s.bench.lines.filter fun p => match p.2 with
        | some b => b.state == .wb
        | none => false).length
      let excess := s.dirtyLines - (s.capEff * s.fld Reg.PBF_THR 0 4 0 / 24) + 1
      ((s.bench.lru.filter fun x => match s.bline x with
        | some b => b.state == .dirty
        | none => false).take (excess - busy)).foldl (fun s x => s.writeBack x) s
    else s
  if s1.bench.forced then (s1.bench.partials.take 1).foldl (fun s x => s.mergeLine x) s1 else s1

end State

end Sys2Proof.Machine
end

