-- ==== Sys2Proof/Machine/Records.lean ====
section
/-! DEFINITION. The layouts of chapter 10: the translation entry and what else a journal record or a map frame carries (Tables 10-1, 10-2, 10-4 to
10-6, R94, R100, R123), and the numbering of the chunks of the map copies (R247, Table 10-8). -/

namespace Sys2Proof.Machine

/-! ### Entries -/

/-- MIG as the entry codes it (Table 6-5). -/
def Mig.code : Mig → Nat
  | .idle => 0
  | .promoting => 1
  | .demoting => 2
  | .moving => 3
  | .rewrite => 4
  | .remap => 5
  | .rebuild => 6

/-- The 16 B of a translation entry (Table 10-2). -/
def Sett.word (e : Sett) : Nat :=
  (e.phys.map physCode).getD 0 * 2 ^ 96 + e.gen.toNat * 2 ^ 72 + e.bandOld.toNat * 2 ^ 52 + e.bandNew.toNat * 2 ^ 32 + e.mode.code * 2 ^ 30 +
    e.wear.toNat * 2 ^ 14 + e.lrot.toNat * 2 ^ 6 + e.mig.code * 2 ^ 3 + e.spoilPending.toNat * 4 + e.promoted.toNat * 2 + e.young.toNat

/-- The band offset word of a sett (R99). -/
def Sett.ofsWord (e : Sett) : Nat := e.oldOfs.toNat + e.newOfs.toNat * 2 ^ 12

/-- A free-list entry (R123). -/
def freeWord (k : Nat) (wear : BitVec 16) : Nat := k + wear.toNat * 2 ^ 14

/-- A zone's state in the zone table, by its place in Table 6-3. DESIGN CHOICE (log entry 134): the table gives no codes. -/
def ZoneState.code : ZoneState → Nat
  | .empty => 0
  | .opened => 1
  | .full => 2
  | .pinned => 3
  | .retired => 4

/-- A zone as its record holds it (Table 10-5). -/
def Zone.word (v : Zone) : Nat := v.state.code + v.mode.code * 8

/-- An age-scale log entry (R94). -/
def AgeEntry.word (e : AgeEntry) : Nat := e.t % 2 ^ 32 + (BitVec.ofInt 32 e.a).toNat * 2 ^ 32

/-- HINT of an object (Table 10-6). -/
def Hint.code : Hint → Nat
  | .none => 0
  | .keep => 1
  | .stream => 2
  | .cold => 3

/-- The 64 B of an object record (Table 10-6). -/
def Object.word (o : Object) : Nat :=
  o.region + o.first * 2 ^ 32 + o.count * 2 ^ 96 + o.hint.code * 2 ^ 160 + o.window * 2 ^ 168 + o.expiry.toNat * 2 ^ 176 + o.owner * 2 ^ 224

/-- `n` values of `w` bits laid side by side from the lowest. -/
def packed (w n : Nat) (f : Nat → Nat) : Nat := (List.range n).foldl (fun a i => a + f i % 2 ^ w * 2 ^ (w * i)) 0

namespace State

/-- EXT_BASE of a region. DESIGN CHOICE (log entry 134): the packed extent map holds the regions' extents by rising id. -/
def extBase (s : State) (r : Nat) : Nat := ((s.xlt.regions.filter fun p => decide (p.1 < r)).map fun p => p.2.extents.length).foldl (· + ·) 0

/-- Entry `i` of the packed extent map (R237). -/
def extentEntry (s : State) (i : Nat) : Nat := (s.xlt.regions.flatMap fun p => p.2.extents).getD i 0

/-- The 32 B of a region record (Table 10-1). -/
def regionWord (s : State) (r : Nat) : Nat :=
  let v := s.region r
  v.valid.toNat + v.mode.code * 2 + v.strict.toNat * 8 + v.keyIndex * 2 ^ 16 + v.size * 2 ^ 32 + s.extBase r * 2 ^ 64 + v.extents.length * 2 ^ 96 +
    v.permA * 2 ^ 128 + v.permB * 2 ^ 136

/-- The free list of a zone as the array holds it (R123): its free slots by rising number. -/
def freeList (s : State) (d z : Nat) : List Nat :=
  let v := s.zone d z
  (List.range (slotCap v.mode)).filterMap fun k =>
    let i := slotInfo v k
    if i.alloc || i.spoil then none else some (freeWord k i.wear)

/-- A slot is on its zone's free list. -/
def zoneSlotFree (s : State) (d z k : Nat) : Bool :=
  let v := s.zone d z
  !(slotInfo v k).alloc && !(slotInfo v k).spoil && decide (k < slotCap v.mode)

/-- A sett is marked in the resync map of its region (R218). -/
def settMarked (s : State) (n : Nat) : Bool :=
  match s.ownerOf n with
  | some (r, i) => (s.rt r).marks.contains i
  | none => false

/-! ### Journal records (R244, Tables 10-4 and 10-5) -/

end State

/-- TYPE of a record (Table 10-5); of a young-map way part 0 is the tag. -/
def JKey.type : JKey → Nat → Nat
  | .entry _, _ => 0x01
  | .bandOfs _, _ => 0x02
  | .ymap _ _, 0 => 0x03
  | .ymap _ _, _ => 0x04
  | .free _ _ _, _ => 0x06
  | .zone _ _, _ => 0x07
  | .spoil _ _ _, _ => 0x08
  | .blank _ _ _, _ => 0x09
  | .ageLog _, _ => 0x0A
  | .resync _ _, _ => 0x0B
  | .loss _ _, _ => 0x0C
  | .region _, _ => 0x0D
  | .extent _, _ => 0x0E
  | .object _, _ => 0x0F
  | .remapIntent _ _ _ _, _ => 0x10
  | .regionState _, _ => 0x11
  | .pass _, _ => 0x12

namespace State

/-- KEY of a record (Table 10-5). -/
def recKey (s : State) (k : JKey) (part : Nat) : Nat :=
  match k with
  | .entry n | .bandOfs n => n
  | .ymap b w => b + w.val * 2 ^ 20 + (part - 1) * 2 ^ 22
  | .free d z i => physCode { die := d, zone := z, slot := i } + (s.zoneSlotFree d z i).toNat * 2 ^ 32
  | .zone d z => d + z * 2 ^ 12
  | .spoil d z i => physCode { die := d, zone := z, slot := i }
  | .blank d z i => physCode { die := d, zone := z, slot := i } + (slotInfo (s.zone d z) i).blank.toNat * 2 ^ 32
  | .ageLog d => d + ((s.die d).log.length - 1) * 2 ^ 12 + 2 ^ 20
  | .resync r i => r + i * 2 ^ 12 + ((s.rt r).marks.contains i).toNat * 2 ^ 43
  | .loss r l => r + l * 2 ^ 12 + (s.lossOf r l).isSome.toNat * 2 ^ 51
  | .region r => r + part * 2 ^ 12
  | .extent i => i
  | .object i => i + part * 2 ^ 16
  | .remapIntent n _ _ _ => n
  | .regionState r => r
  | .pass g => g

/-- VALUE of a record: what it changes as it now stands (R244). -/
def recValue (s : State) (k : JKey) (part : Nat) : Nat :=
  match k with
  | .entry n => (s.sett n).word
  | .bandOfs n => (s.sett n).ofsWord
  | .ymap b w => if part = 0 then (s.youngArrays b w).1.toNat else (s.youngArrays b w).2.toNat / 2 ^ (128 * (part - 1))
  | .free d z i => freeWord i (slotInfo (s.zone d z) i).wear
  | .zone d z => (s.zone d z).word
  | .spoil _ _ _ | .blank _ _ _ => 0
  | .ageLog d => ((s.die d).log.getLast?.map AgeEntry.word).getD 0
  | .resync _ _ => 0
  | .loss r l => ((s.lossOf r l).map BitVec.toNat).getD 0 + (s.bench.awaits.any fun x => s.rlineOf x == (r, l)).toNat * 16
  | .region r => s.regionWord r / 2 ^ (128 * part)
  | .extent i => s.extentEntry i
  | .object i => (Tab.get {} s.xlt.objects i).word / 2 ^ (128 * part)
  | .remapIntent _ d z i => physCode { die := d, zone := z, slot := i }
  | .regionState r =>
    let v := s.rt r
    v.term.toNat + v.ros * 2 ^ 32 + v.home.toNat * 2 ^ 96 + v.valid.toNat * 2 ^ 97 + (!v.marks.isEmpty).toNat * 2 ^ 98
  | .pass g => match (Tab.get ({} : Pass) s.med.passes g).cur with
    | some (.sett n) => ((s.sett n).phys.map physCode).getD 0
    | some (.maps d) => physCode { die := d, zone := 62, slot := 0 }
    | none => 0

/-- The 32 B of a live record (Table 10-4). Of two live records of one change both carry the newer value, which has the same effect (log entry 74). -/
def recWord (s : State) (r : JRec) : Nat :=
  s.recValue r.key r.part % 2 ^ 128 + s.recKey r.key r.part % 2 ^ 56 * 2 ^ 128 + JKey.type r.key r.part * 2 ^ 184 + r.jseq % 2 ^ 64 * 2 ^ 192

/-- Journal frame `f` of the live journal, from its oldest: 8 records (R244). -/
def journalFrame (s : State) (f : Nat) : Line :=
  let j := s.xlt.jrnl
  BitVec.ofNat 2048 (packed 256 8 fun i => match j.recs.find? fun r => r.place == (j.oldest + f) * 8 + i with
    | some r => s.recWord r
    | none => 0)

end State

/-! ### Chunks of the map copies (R247, Table 10-8) -/

/-- The checkpointed arrays in the order of Table 10-8. -/
inductive MapArray where
  | table | bands | freeLists | blankMap | spoil | youngMaps | youngTags | resync | zones | logs | loss | regions | extents | objects
  deriving DecidableEq, Repr

/-- All of them, in order. DESIGN CHOICE (log entry 134): where a row of the table names several arrays, in the order it names them. -/
def MapArray.all : List MapArray :=
  [.table, .bands, .freeLists, .blankMap, .spoil, .youngMaps, .youngTags, .resync, .zones, .logs, .loss, .regions, .extents, .objects]

/-- The chunks of 4 KiB of an array for `n` extents (Table 10-8, R104, R123, R237): free lists of 62 zones and their bitmaps for 2,304 die indices. DESIGN
CHOICE (log entry 134): one byte for a zone in the zone tables, and 16 MiB for the loss list. -/
def MapArray.chunks (n : Nat) : MapArray → Nat
  | .table => 64 * n
  | .bands => 16 * n
  | .freeLists => 992 * 2304
  | .blankMap => 31 * 2304
  | .spoil => 31 * 2304
  | .youngMaps => 32768
  | .youngTags => 16384
  | .resync => (n + 1) / 2
  | .zones => 36
  | .logs => 1152
  | .loss => 4096
  | .regions => 32
  | .extents => 128
  | .objects => 1024

/-- The number of an array's first chunk. -/
def chunkBase (n : Nat) (a : MapArray) : Nat := ((MapArray.all.takeWhile fun b => b != a).map fun b => b.chunks n).foldl (· + ·) 0

/-- The array of a chunk and the chunk's number in it. -/
def chunkPlace (n c : Nat) : MapArray × Nat :=
  match MapArray.all.reverse.find? fun a => decide (chunkBase n a ≤ c) with
  | some a => (a, c - chunkBase n a)
  | none => (.table, c)

/-- The chunks of the map copies, for `n` extents. -/
def chunkCount (n : Nat) : Nat := (MapArray.all.map fun b => b.chunks n).foldl (· + ·) 0

/-- The chunk that a journal record touches (R246), for `n` extents. Records that change no array of Table 10-8 count with the array they lie beside: an
intent with its entry, and twin state and pass pointers with the region records. -/
def JKey.chunk (n : Nat) (owner : Nat → Nat → Option Nat) : JKey → Nat
  | .entry k => k / 256
  | .bandOfs k => chunkBase n .bands + k / 1024
  | .free d z i => chunkBase n .freeLists + d * 992 + z * 16 + i / 1024
  | .blank d z i => chunkBase n .blankMap + d * 31 + (z * 16384 + i) / 32768
  | .spoil d z i => chunkBase n .spoil + d * 31 + (z * 16384 + i) / 32768
  | .ymap b _ => chunkBase n .youngTags + b / 64
  | .resync r i => chunkBase n .resync + (owner r i).getD 0 / 32768
  | .zone d _ => chunkBase n .zones + d / 64
  | .ageLog d => chunkBase n .logs + d / 2
  | .loss _ _ => chunkBase n .loss
  | .region r => chunkBase n .regions + r / 128
  | .extent i => chunkBase n .extents + i / 1024
  | .object i => chunkBase n .objects + i / 64
  | .remapIntent k _ _ _ => k / 256
  | .regionState r => chunkBase n .regions + r / 128
  | .pass _ => chunkBase n .regions

/-- The chunks that a record touches: a young-map way lies in its tag's and its map's (R104). -/
def JRec.chunks (n : Nat) (owner : Nat → Nat → Option Nat) (r : JRec) : List Nat :=
  match r.key, r.part with
  | .ymap b _, _ + 1 => [chunkBase n .youngMaps + b / 32]
  | k, _ => [JKey.chunk n owner k]

namespace State

/-- The plaintext of frame `f` of chunk `c` (R247): 256 B of its array as the DRAM bench holds it. -/
def chunkData (s : State) (c f : Nat) : Line :=
  let (a, k) := chunkPlace s.xlt.map.count c
  let bits (g : Nat → Bool) : Nat := packed 1 2048 fun i => (g (k * 32768 + f * 2048 + i)).toNat
  let slot (g : Nat → Nat → Nat → Bool) : Nat := packed 1 2048 fun i =>
    let b := k % 31 * 32768 + f * 2048 + i
    (g (k / 31) (b / 16384) (b % 16384)).toNat
  BitVec.ofNat 2048 (match a with
    | .table => packed 128 16 fun i => (s.sett (k * 256 + f * 16 + i)).word
    | .bands => packed 32 64 fun i => (s.sett (k * 1024 + f * 64 + i)).ofsWord
    | .freeLists => packed 32 64 fun i => (s.freeList (k / 992) (k % 992 / 16)).getD (k % 16 * 1024 + f * 64 + i) 0
    | .blankMap => slot fun d z i => (slotInfo (s.zone d z) i).blank
    | .spoil => slot fun d z i => (slotInfo (s.zone d z) i).spoil
    | .youngMaps => packed 256 8 fun i => let w := k * 128 + f * 8 + i; (s.youngArrays (w / 4) (Fin.ofNat 4 w)).2.toNat
    | .youngTags => packed 128 16 fun i => let w := k * 256 + f * 16 + i; (s.youngArrays (w / 4) (Fin.ofNat 4 w)).1.toNat
    | .resync => bits fun n => s.settMarked n
    | .zones => packed 8 256 fun i => let z := k * 4096 + f * 256 + i; (s.zone (z / 64) (z % 64)).word
    | .logs => packed 64 32 fun i => (((s.die (k * 2 + f / 8)).log[f % 8 * 32 + i]?).map AgeEntry.word).getD 0
    | .loss => packed 64 32 fun i => match s.med.loss[k * 512 + f * 32 + i]? with
      | some (x, some m) => x % 2 ^ 60 + m.toNat * 2 ^ 60
      | _ => 0
    | .regions => packed 256 8 fun i => s.regionWord (k * 128 + f * 8 + i)
    | .extents => packed 32 64 fun i => s.extentEntry (k * 1024 + f * 64 + i)
    | .objects => packed 512 4 fun i => (Tab.get {} s.xlt.objects (k * 64 + f * 4 + i)).word)

/-- The chunks of the map copies that a live record touches (R246, R250). -/
def recChunks (s : State) (r : JRec) : List Nat := r.chunks s.xlt.map.count s.settOf

end State

end Sys2Proof.Machine
end

