-- ==== Sys2Proof/Machine/MapOps.lean ====
section
/-! DEFINITION. The map copies (R246 to R249): where their frames lie, the checkpointer's writes, the map bands, and the loading of a chunk frame by
frame. -/

namespace Sys2Proof.Machine

/-- g(aOld) − g(aNew) has reached 1.75 decades (R248). -/
def mapSpanHigh (aOld aNew : Nat) : Bool := decide (10 ^ 7 * (1 + aNew) ^ 4 ≤ (1 + aOld) ^ 4)

/-- g(aOld) − g(aNew) is below 1.5 decades (R248). -/
def mapSpanLow (aOld aNew : Nat) : Bool := decide ((1 + aOld) ^ 2 < 10 ^ 3 * (1 + aNew) ^ 2)

namespace State

/-- Replaces the map copies. -/
def setMap (s : State) (m : MapArea) : State := s.setXlt { s.xlt with map := m }

/-! ### Places (R247) -/

/-- The dies in service by ordinal, such that successive ordinals lie on successive channels of the groups in service (R247). -/
def formatOrder (s : State) : List Nat :=
  let cs := s.serviceChans
  (List.range 16).flatMap fun k => cs.filterMap fun n => ((s.chanDies n).filter fun d => s.dieUp d)[k]?

/-- The device is formatted (R240, R247): N0 and the order of the dies are set. DESIGN CHOICE (log entry 135): at the first loading, and after a whole-device
erase at the next. -/
def formatMap (s : State) (count : Nat) : State :=
  if s.xlt.map.order.isEmpty then s.setMap { s.xlt.map with order := s.formatOrder, count := count } else s

/-- The ordinal that holds frames 2j and 2j + 1 of copy `u`. -/
def mapOrdinal (s : State) (u j : Nat) : Nat := (8 * u + j) % max 1 s.xlt.map.order.length

/-- The die of an ordinal: its substitute where the record names one. -/
def ordinalDie (s : State) (o : Nat) : Nat :=
  ((s.xlt.map.subst.find? fun p => p.1 == o).map Prod.snd).getD (s.xlt.map.order.getD o 0)

/-- The laps of positions that the copies of all chunks take on a die. -/
def mapLaps (s : State) : Nat := (16 * chunkCount s.xlt.map.count + s.xlt.map.order.length - 1) / max 1 s.xlt.map.order.length

/-- The place of frame `f` of copy `u` (R247): its die, and zone, slot and line there. The map area begins at a slot that the spec does not give. DESIGN
CHOICE (log entry 135): the frames of an ordinal that has a substitute lie beyond the substitute's own, in the order of the record. -/
def mapPlace (s : State) (u f : Nat) : Nat × Nat × Nat × Nat :=
  let o := s.mapOrdinal u (f / 2)
  let lap := ((s.xlt.map.subst.findIdx? fun p => p.1 == o).map fun i => (i + 1) * s.mapLaps).getD 0
  let p := 8 * u / max 1 s.xlt.map.order.length + lap
  (s.ordinalDie o, 62 + f % 2, Config.mapSlot + p / 256, p % 256)

/-- Ordinals whose die is failed take a substitute (R247): the next ordinal's die that is up. DESIGN CHOICE (log entry 135): the spec does not say which die
stands in. -/
def substitute (s : State) (u : Nat) : State :=
  let order := s.xlt.map.order
  (List.range 8).foldl (fun s j =>
    let o := s.mapOrdinal u j
    if !(s.die (s.ordinalDie o)).failed then s
    else match (order.drop (o + 1) ++ order.take o).find? fun d => s.dieUp d with
      | some d =>
        let t := s.xlt.map.subst.filter (fun p => p.1 != o) ++ [(o, d)]
        (s.setMap { s.xlt.map with subst := t }).nvWrite Config.nvSubst (t.flatMap fun p => [p.1, p.2])
      | none => s) s

/-! ### Map bands (R248) -/

/-- The copies that lie on a die, by number. -/
def mapCopies (s : State) (d : Nat) : List Nat :=
  (s.xlt.map.stamps.map Prod.fst).filter fun u => (List.range 8).any fun j => s.ordinalDie (s.mapOrdinal u j) == d

/-- The age of a map stamp on a die from its record (R248): the stamp, the adjustment at it, and the newest. -/
def mapAge (s : State) (b : MapBand) (t : Nat) (a : Int) : Nat := ((s.nowSecs : Int) - t + (b.a - a)).toNat

/-- The map band record of a die follows its frames (R248). -/
def judgeMapBand (s : State) (d : Nat) : State :=
  let ts := (s.mapCopies d).filterMap fun u => Tab.get none s.xlt.map.stamps u
  match ts with
  | [] => s
  | t :: rest =>
    let old := rest.foldl min t
    let new := rest.foldl max t
    let log := (s.die d).log
    s.setMapBand d { oldest := old, newest := new, aOldest := aAt log old, aNewest := aAt log new, a := aNow log }

/-- The bin in which a die's map frames are read (R102, R248): a settled M2 band. -/
def mapBin (s : State) (d : Nat) : Nat :=
  match Tab.get none s.xlt.map.bands d with
  | some b => binOf (256 * s.mapAge b b.oldest b.aOldest) (256 * s.mapAge b b.newest b.aNewest)
  | none => 0

/-- The dies whose oldest copies are to be rewritten (R248): from a span of 1.75 decades until it is below 1.5. -/
def mapAgeing (s : State) : List Nat :=
  s.xlt.map.bands.filterMap fun p => match p.2 with
    | some b =>
      let o := s.mapAge b b.oldest b.aOldest
      let n := s.mapAge b b.newest b.aNewest
      if s.dieUp p.1 && (mapSpanHigh o n || (s.xlt.map.ageing.contains p.1 && !mapSpanLow o n)) then some p.1 else none
    | none => none

/-- The copy to rewrite next for its own sake: one that Teasel found weak, else the oldest of a die whose span is too wide (R248). -/
def mapStale (s : State) : Option Nat :=
  s.xlt.map.weak.head?.orElse fun _ =>
    s.xlt.map.ageing.head?.bind fun d => ((s.mapCopies d).foldl (fun (best : Option (Nat × Nat)) u =>
      let t := (Tab.get none s.xlt.map.stamps u).getD 0
      match best with
      | some (_, x) => if t < x then some (u, t) else best
      | none => some (u, t)) none).map Prod.fst

/-! ### Writing (R246) -/

/-- Queues the program of frame `f` of copy `u` (R247): under the metadata key, with the checkpoint number as GEN, the write epoch, and the copy and the
frame number as LROT. -/
def mapProgram (s : State) (u f : Nat) : State :=
  let c := u / 2
  let k := u % 2
  let p := s.mapPlace u f
  s.issue p.1 {
    op := .program, die := 0, zone := p.2.1, slot := p.2.2.1, line := p.2.2.2, mode := .m2, user := .map (k == 1) c f
    frame := some {
      of := .map (k == 1) c f, gen := BitVec.ofNat 24 (s.xlt.jrnl.ckptSeq.toNat % 0xFFFFFF + 1), epoch := BitVec.ofNat 20 s.nowEpoch
      lrot := BitVec.ofNat 8 (16 * k + f), data := Config.encrypt s.metaKey (mapTweak c k f) (s.chunkData c f) } }

/-- Starts the writing of a copy of a chunk: its 16 frames. -/
def writeCopy (s : State) (c : Nat) (copy both : Bool) : State :=
  let u := 2 * c + copy.toNat
  let s1 := (s.substitute u).setMap { (s.substitute u).xlt.map with write := some { chunk := c, copy := copy, both := both } }
  (List.range 16).foldl (fun s f => s.mapProgram u f) s1

/-- The records of the oldest live frame. -/
def oldestRecs (s : State) : List JRec := s.xlt.jrnl.recs.filter fun r => r.place / 8 == s.xlt.jrnl.oldest

/-- The chunks that the oldest live frame still needs written. -/
def chunksTodo (s : State) : List Nat := (s.oldestRecs.flatMap fun r => s.recChunks r).dedup.filter fun c => !s.xlt.jrnl.written.contains c

/-- Frees the oldest live frame once its chunks are written to both copies; the checkpointer stops 64 frames below its level. -/
def freeFrame (s : State) : State :=
  let j := s.xlt.jrnl
  let next := j.oldest + 1
  let s1 := s.setXlt { s.xlt with jrnl := { j with
    recs := j.recs.filter fun r => r.place / 8 != j.oldest
    nextPlace := if j.nextPlace / 8 = j.oldest then next * 8 else j.nextPlace, oldest := next, written := [] } }
  let below := decide (100 * (s1.jLive + 64) ≤ s.fld Reg.XLT_JRNL_CFG 0 7 0 * s1.jLimit) || s1.xlt.jrnl.recs.isEmpty
  (s1.setXlt { s1.xlt with jrnl := { s1.xlt.jrnl with running := !below } }).judgeXlt

/-- The checkpointer's next step while no chunk is being written (R246, R248): the next chunk that the oldest live frame touches, copy 0 first; the frame
is freed once there is none; else the rewriting of a copy. -/
def checkpointChunk (s : State) : State :=
  let j := s.xlt.jrnl
  if s.xlt.map.write.isSome then s
  else if j.running && !j.recs.isEmpty then
    match s.chunksTodo with
    | [] => s.freeFrame
    | c :: _ => s.writeCopy c false true
  else
    let s1 := s.setMap { s.xlt.map with ageing := s.mapAgeing }
    match s1.mapStale with
    | some u => s1.writeCopy (u / 2) (u % 2 == 1) false
    | none => s1

/-- A copy of a chunk has verified (R246, R247): its stamp and the bands of its dies follow; copy 1 comes after copy 0, and with both the chunk write is
complete, and the journal frame is freed where it needs no more. -/
def copyWritten (s : State) (w : MapWrite) : State :=
  let u := 2 * w.chunk + w.copy.toNat
  let s1 := s.setMap { s.xlt.map with
    write := none, stamps := Tab.put none s.xlt.map.stamps u (some s.nowSecs), weak := s.xlt.map.weak.erase u }
  let s2 := ((List.range 8).map fun j => s1.ordinalDie (s1.mapOrdinal u j)).dedup.foldl (fun s d => s.judgeMapBand d) s1
  if w.both && !w.copy then s2.writeCopy w.chunk true true
  else
    let j := s2.xlt.jrnl
    let s3 := s2.setXlt { s2.xlt with jrnl := { j with
      ckptSeq := j.ckptSeq + 1, written := if w.both then j.written ++ [w.chunk] else j.written } }
    if w.both && s3.xlt.jrnl.running && !s3.xlt.jrnl.recs.isEmpty && s3.chunksTodo.isEmpty then s3.freeFrame else s3

/-- A program of a map frame has verified. -/
def mapVerified (s : State) (copy : Bool) (c f : Nat) : State :=
  match s.xlt.map.write with
  | some w =>
    if w.chunk != c || w.copy != copy then s
    else
      let w1 := { w with verified := w.verified ||| BitVec.twoPow 16 f }
      if w1.verified = BitVec.allOnes 16 then s.copyWritten w1 else s.setMap { s.xlt.map with write := some w1 }
  | none => s

/-- A program of a map frame has failed or will not be answered: it is sent again, to the substitute where its die has failed (R247). -/
def mapUnwritten (s : State) (copy : Bool) (c f : Nat) : State :=
  match s.xlt.map.write with
  | some w => if w.chunk == c && w.copy == copy then (s.substitute (2 * c + copy.toNat)).mapProgram (2 * c + copy.toNat) f else s
  | none => s

/-! ### Loading a chunk (R249, R251) -/

/-- Asks for a frame by the first of the ways left whose die is up; with none left the frame is lost (R249). -/
def mapAsk (s : State) (c f : Nat) : List (Bool × QmiOp) → State
  | [] => s.setMap { s.xlt.map with loads := s.xlt.map.loads.map fun l =>
      if l.chunk == c then { l with got := l.got ||| BitVec.twoPow 16 f, lost := true } else l }
  | (k, op) :: rest =>
    let p := s.mapPlace (2 * c + k.toNat) f
    if !s.dieUp p.1 || (op == .softRead && !s.bit Reg.RD_CTRL 0 0) then s.mapAsk c f rest
    else s.issue p.1 {
      op := op, die := 0, zone := p.2.1, slot := p.2.2.1, line := p.2.2.2, mode := .m2, refset := s.mapBin p.1, user := .map k c f
      delta := if op == .softRead then (s.fld Reg.RD_CTRL 0 11 4 : Nat) else 0 }

/-- The ways a frame is read, in order (R249): either copy, then soft decode of either. DEDUCED (log entry 136): a frame that fails sends the loader to the
other copy, and a chunk is lost once it fails in both after soft decode. -/
def mapWays : List (Bool × QmiOp) := [(false, .read), (true, .read), (false, .softRead), (true, .softRead)]

/-- The chunk's frames are asked for, unless they are already (R251). -/
def loadChunk (s : State) (c : Nat) : State :=
  if s.xlt.map.loads.any fun l => l.chunk == c then s
  else (List.range 16).foldl (fun s f => s.mapAsk c f mapWays) (s.setMap { s.xlt.map with loads := s.xlt.map.loads ++ [{ chunk := c }] })

/-- The ways left after a command. -/
def waysAfter (copy : Bool) (op : QmiOp) : List (Bool × QmiOp) := (mapWays.dropWhile fun w => w != (copy, op)).drop 1

/-- A frame of a chunk has been sensed (R249): its LROT is checked in place of GEN; one that fails is read by the next way. -/
def mapFrame (s : State) (copy : Bool) (c f : Nat) (op : QmiOp) (dec : Option Decoded) : State :=
  if !s.xlt.map.loads.any fun l => l.chunk == c && !l.got.getLsbD f then s
  else if dec.any fun d => d.lrot.toNat == 16 * copy.toNat + f then
    s.setMap { s.xlt.map with loads := s.xlt.map.loads.map fun l => if l.chunk == c then { l with got := l.got ||| BitVec.twoPow 16 f } else l }
  else s.mapAsk c f (waysAfter copy op)

/-- Every frame of a chunk that is being loaded is at hand or lost. -/
def chunkHere (s : State) (c : Nat) : Bool := s.xlt.map.loads.any fun l => l.chunk == c && l.got == BitVec.allOnes 16

/-- A chunk that was being loaded failed in both copies (R249). -/
def chunkBad (s : State) (c : Nat) : Bool := s.xlt.map.loads.any fun l => l.chunk == c && l.lost

/-- A command for a map frame will not be answered: programs are sent again, and senses go on by the next way. -/
def mapUndo (s : State) (q : QmiCmd) (copy : Bool) (c f : Nat) : State :=
  match q.op with
  | .program => s.mapUnwritten copy c f
  | .marginRead => s.setMap { s.xlt.map with judges := s.xlt.map.judges.filter fun j => !(j.copy == 2 * c + copy.toNat && j.frame == f) }
  | op => s.mapFrame copy c f op none

/-! ### Teasel's walk of the map copies (R160) -/

/-- The map frames of a die are read at both margins (R160). -/
def visitMaps (s : State) (d : Nat) : State :=
  let delta : Int := (s.fld Reg.TSL_CFG 0 23 16 : Nat)
  (s.mapCopies d).foldl (fun s u => ((List.range 16).filter fun f => (s.mapPlace u f).1 == d).foldl (fun s f =>
    let p := s.mapPlace u f
    let ask (e : Int) (s : State) : State := s.issue d {
      op := .marginRead, die := 0, zone := p.2.1, slot := p.2.2.1, line := p.2.2.2, mode := .m2, refset := s.mapBin d, delta := e
      user := .map (u % 2 == 1) (u / 2) f }
    ask (-delta) (ask delta (s.setMap { s.xlt.map with judges := s.xlt.map.judges ++ [{ copy := u, frame := f }] }))) s) s

/-- A margin read of a map frame has answered: a weak frame counts, and its copy is written anew. DESIGN CHOICE (log entry 137): the spec has a refresh
queued for a sett, and does not say what follows a weak frame of a map copy. -/
def mapMargin (s : State) (copy : Bool) (c f : Nat) (dec : Option Decoded) : State :=
  let u := 2 * c + copy.toNat
  match s.xlt.map.judges.find? fun j => j.copy == u && j.frame == f with
  | none => s
  | some j =>
    let weak := j.weak || dec.isNone || dec.any fun d => decide (s.fld Reg.TSL_CFG 0 28 24 < d.corrected) || d.lrot.toNat != 16 * copy.toNat + f
    let mine (x : MapJudge) : Bool := x.copy == u && x.frame == f
    let m := s.xlt.map
    if j.seen = 0 then s.setMap { m with judges := m.judges.map fun x => if mine x then { x with seen := 1, weak := weak } else x }
    else
      let s1 := s.setMap { m with
        judges := m.judges.filter fun x => !mine x, weak := if weak && !m.weak.contains u then m.weak ++ [u] else m.weak }
      if weak then s1.bump Reg.TSL_WEAK_CNT 0 31 0 else s1

end State

end Sys2Proof.Machine
end

