-- ==== Sys2Proof/Machine/HostOps.lean ====
section
/-! DEFINITION. Host reads and writes after the port: reads (R9, R11, R102, R251), streams (R176, R177, R263), the order of a region and
its mirror (R12, R213 to R215), admission (R183 to R185), and `settle`, which lets everything that waited go on. -/

namespace Sys2Proof.Machine

namespace State

/-! ### Whether a region can be reached -/

/-- The journal has been applied and loading goes on or has ended (R250). -/
def loadStarted (s : State) : Bool := s.xlt.load == .background || s.xlt.load == .loaded

/-- The region is open to hosts here: not "not here" (R19, R20, R112, R128, R217, R227, R236, R374, R469). -/
def regionOpen (s : State) (r : Nat) : Bool :=
  let v := s.rt r
  (s.region r).valid && s.loadStarted && v.opened && v.served && !v.fenced && !v.target && !v.unfit && !(s.region r).opening && !s.locked r && !s.sec.ropErase &&
    (s.keySlot r).state != .erasing

/-- The domain takes host traffic: OPEN with a drain die in service (R172). -/
def domainReady (s : State) : Bool := s.bench.domain == .opened && decide (s.drainD ≠ 0)

/-- The setts on the line's die are unavailable (R87): unallocated setts are not. -/
def unavailable (s : State) (x : Nat) : Bool :=
  match (s.sett (lineSett x)).phys with
  | some p => !s.paired && !s.dieUp p.die
  | none => false

/-! ### Reads -/

/-- The band-offset chunk that covers a translation chunk. -/
def bandChunk (s : State) (c : Nat) : Nat := chunkBase s.xlt.map.count .bands + c / 4

/-- A chunk of the tables that are loaded on demand is in the DRAM bench (R250 to R252). -/
def chunkIn (s : State) (c : Nat) : Bool := s.xlt.allLoaded || s.xlt.load == .loaded || Tab.get false s.xlt.loaded c

/-- The translation chunk of a sett and its band-offset chunk are loaded (R251). -/
def chunkLoaded (s : State) (n : Nat) : Bool := s.chunkIn (n / 256) && s.chunkIn (s.bandChunk (n / 256))

/-- The frames of a translation chunk and of the band-offset chunk that covers it are asked for, of each that is not loaded (R251, R252). -/
def loadPair (s : State) (c : Nat) : State :=
  let s1 := if s.chunkIn c then s else s.loadChunk c
  if s1.chunkIn (s1.bandChunk c) then s1 else s1.loadChunk (s1.bandChunk c)

/-- Both chunks are at hand. -/
def pairHere (s : State) (c : Nat) : Bool := (s.chunkIn c || s.chunkHere c) && (s.chunkIn (s.bandChunk c) || s.chunkHere (s.bandChunk c))

/-- A lookup of a sett: a miss of the translation cache counts and takes a place (R241). -/
def lookup (s : State) (n : Nat) : State :=
  if s.xlt.cached.contains n then s
  else
    let s1 := s.bump Reg.XLT_MISS_CNT 0 31 0
    s1.setXlt { s1.xlt with cached := (n :: s1.xlt.cached).take 745472 }

/-- Asks the twin for lines (R207). -/
def assistAsk (s : State) (why : AssistFor) (r x count : Nat) : State :=
  let t := s.twin.nextRtag
  let s1 := s.setTwin { s.twin with
    nextRtag := t + 1, assists := s.twin.assists ++ [{ rtag := t, why := why, region := r, line := x, count := count }] }
  s1.tsend false (.assistReq t r x count)

/-- A read waits for its line. -/
def waitRead (s : State) (r : HostRead) : State := s.setBench { s.bench with reads := s.bench.reads ++ [r] }

/-- A use of a promoted sett, for the pool's least recently used order (R260). -/
def poolTouch (s : State) (n : Nat) : State := s.setXlt { s.xlt with poolLru := s.xlt.poolLru.erase n ++ [n] }

/-- A line's data with the chunks over it that a stream buffer's slot holds (R11, R179). -/
def overSlot (s : State) (x : Nat) (d : Line) : Line :=
  match s.scbSlot x with
  | some k => overlay (chunkBytes k.mask) k.data d
  | none => d

/-- Serves a read whose line must come from elsewhere than Bench 0. The chunks in a stream buffer's slot lie over it, and such a line takes no copy in
Bench 0. -/
def fetchRead (s : State) (r : HostRead) : State :=
  let x := r.line
  let n := lineSett x
  let s := s.lookup n
  if !s.chunkLoaded n then
    if s.xlt.prio.contains (n / 256) then s.waitRead r
    else
      let s1 := s.bump Reg.XLT_PRIO_CNT 0 31 0
      ((s1.setXlt { s1.xlt with prio := s1.xlt.prio ++ [n / 256] }).loadPair (n / 256)).waitRead r
  else
    let e := s.sett n
    match e.mode, (if e.promoted then s.page n else none), e.phys with
    | .none, _, _ => s.respond r (some (s.overSlot x 0))
    | _, some p, _ => ((s.poolTouch n).installLine x (s.pageLine p x) false false).respond r (some (s.overSlot x (s.pageLine p x)))
    | _, none, none => s.respond r (some (s.overSlot x 0))
    | _, none, some p =>
      if !s.dieUp p.die then
        if s.paired && (match r.who with
          | .assist _ _ => false
          | _ => true) then
          if s.twin.assists.any fun a => a.why == .read && a.line == x then s.waitRead r
          else (s.waitRead r).assistAsk .read r.region x 1
        else s.respond r none
      else if !(s.die p.die).tables then s.waitRead r
      else
        let s1 := match s.bline x with
          | some _ => s
          | none => if (s.scbSlot x).isSome then s else match s.allocLine x false false with
            | (s1, some w) => s1.setBline x (some { state := .filling, way := w })
            | (s1, none) => s1
        let mine (c : QmiCmd) : Bool := c.user == .fill x
        let q := s1.qc (dieChan p.die)
        if q.sent.any mine || q.queue.any mine then s1.waitRead r else (s1.waitRead r).senseLine x .read 0 (.fill x)

/-- Serves a read (R9, R11, R87, R168, R179, R181): the loss list, the newest copy in Bench 0 or a stream buffer, or a bench behind it. -/
def serveRead (s : State) (r : HostRead) : State :=
  let x := r.line
  let lost := match s.lossOf r.region r.rline with
    | some m => r.chunks &&& m != r.chunks
    | none => false
  if lost || r.chunks &&& Tab.get 0 s.bench.dropped x != 0 then s.respond r none
  else if s.benchAwaited x && (s.bline x).isNone then s.waitRead r
  else match s.bline x, s.scbSlot x with
    | some b, _ =>
      if b.state == .filling then s.waitRead r
      else
        let want := chunkBytes r.chunks
        if want &&& b.valid = want then
          ((s.setBline x (some { b with pf := false })).touch x).respond r (some b.data)
        else
          let s1 := s.mergeLine x
          match s1.bline x with
          | some b1 => if isPartial b1 then
              (match (s1.sett (lineSett x)).phys with
                | some p => if s1.dieUp p.die then s1.waitRead r
                    else if s1.paired then (s1.waitRead r).assistAsk .read r.region x 1 else s1.respond r none
                | none => s1.waitRead r)
            else (s1.touch x).respond r (some b1.data)
          | none => s1
    | none, some k => if r.chunks &&& k.mask = r.chunks then s.respond r (some k.data) else s.fetchRead r
    | none, none => s.fetchRead r

/-- The line's data has arrived, or is unrecovered: the waiting reads are answered with the newest copy (R11, R117). -/
def answerReads (s : State) (x : Nat) (d : Option Line) : State :=
  let mine := s.bench.reads.filter fun r => r.line == x
  let s1 := s.setBench { s.bench with reads := s.bench.reads.filter fun r => r.line != x }
  let d' := match d, s1.bline x with
    | some v, some b => if b.state == .filling then some v else some (overlay b.valid b.data v)
    | some v, none => some (s1.overSlot x v)
    | none, _ => none
  mine.foldl (fun s r => s.respond r d') s1

/-- Serves again the waiting reads of which `p` holds: their chunk has loaded, their channel has gone or come back. -/
def redrive (s : State) (p : HostRead → Bool) : State :=
  let mine := s.bench.reads.filter p
  let s1 := s.setBench { s.bench with reads := s.bench.reads.filter fun r => !p r }
  mine.foldl (fun s r => s.serveRead r) s1

/-! ### Lines that other work waits for -/

/-- Puts a line into the page of a sett under promotion; the last one makes the sett PROMOTED (R257). -/
def promoteTake (s : State) (n l : Nat) (d : Line) : State :=
  match s.page n with
  | none => s
  | some p =>
    if (s.sett n).mig != .promoting || p.have_.getLsbD l then s
    else
      let p1 := s.pagePut p (lineOf n l) d
      let s1 := s.setPage n (some p1)
      if p1.have_ = BitVec.allOnes 256 then s1.setSett n { s1.sett n with promoted := true, mig := .idle } else s1

/-- Copies one line of a sett under promotion: from Bench 0, as zeros where lost, else by a sense (R257). -/
def promoteLine (s : State) (n l : Nat) : State :=
  let x := lineOf n l
  let (r, rl) := s.rlineOf x
  match s.page n, (s.sett n).phys with
  | some p, some ph =>
    if (s.sett n).mig != .promoting || p.have_.getLsbD l then s
    else match s.bline x with
      | some b =>
        if isPartial b then s.mergeLine x
        else if b.state == .filling then s else s.promoteTake n l b.data
      | none =>
        let mine (c : QmiCmd) : Bool := c.user == .promote n && c.line == (l + (s.sett n).lrot.toNat) % 256
        let q := s.qc (dieChan ph.die)
        if (s.lossOf r rl).isSome then s.promoteTake n l 0
        else if (s.recoverOf x).isSome || (s.scbSlot x).isSome then s
        else if !s.dieUp ph.die || q.queue.any mine || q.sent.any mine then s
        else s.senseLine x .read 0 (.promote n)
  | _, _ => s

/-- The data of a line of an in-place rewrite has come, or reads as zero: it is placed dirty in Bench 0 and its program is queued (R131);
where nothing may create a dirty line the window waits. -/
def rewriteData (s : State) (n l : Nat) (d : Line) : State :=
  if 3 ≤ s.admitLevel then s
  else match s.bline (lineOf n l) with
    | some _ => (s.installLine (lineOf n l) d false false).rewriteLine n l
    | none => ((s.placeLine (lineOf n l) (BitVec.allOnes 256) d false).1).rewriteLine n l

/-- A line that other work waits for is in Bench 0, or is on the loss list: the merge, the whole-sett work or the promotion goes on. -/
def resumeLine (s : State) (x : Nat) : State :=
  let n := lineSett x
  let l := lineIdx x
  let s1 := s.mergeLine x
  let s2 := match s1.move n with
    | none => s1
    | some m => match m.dest with
      | some _ => s1.moveLine n l
      | none =>
        let (r, rl) := s1.rlineOf x
        if (s1.bline x).isNone && (s1.lossOf r rl).isSome then s1.rewriteData n l 0 else s1.rewriteLine n l
  s2.promoteLine n l

/-- The line leaves the margin judgement. -/
def judged (s : State) (x : Nat) : State :=
  s.setMed { s.med with judges := s.med.judges.filter fun j => !(j.lsett == lineSett x && j.line == lineIdx x) }

/-- A line that cannot be recovered (R118): counted, captured, on the loss list with the chunks that a partial line covers whole (R180),
recorded; its waiting reads fail, and what else waited for it takes zeros. -/
def unrecovered (s : State) (x : Nat) : State :=
  let (r, rl) := s.rlineOf x
  let s0 := if s.med.judges.any fun j => j.lsett == lineSett x && j.line == lineIdx x then (s.cause Reg.TSL_CAUSE 0 12 153).judged x else s
  let s1 := (s0.bump Reg.RD_UNREC_CNT 0 31 0).cause Reg.EYB_CAUSE 0 10 155
  let (s2, kept) := match s1.bline x with
    | some b => if b.state == LineState.filling then (s1.dropLine x, 0#4)
        else (s1, if isPartial b then wholeChunks b.valid else 0)
    | none => (s1, 0)
  ((s2.lose r rl kept).answerReads x none).resumeLine x

/-- A line recovered by soft decode (`soft`) or by the twin (R117): counted, captured, its sett marked for a margin check in the current
pass, installed dirty, and returned. -/
def recovered (s : State) (x : Nat) (d : Line) (soft : Bool) : State :=
  let s1 := if soft then (s.bump Reg.RD_SOFT_CNT 0 31 0).cause Reg.EYB_CAUSE 0 8 155
    else (s.bump Reg.RD_ASSIST_CNT 0 31 0).cause Reg.EYB_CAUSE 0 9 155
  let n := lineSett x
  let s2 := match (s1.sett n).phys with
    | some p =>
      let g := dieGroup p.die
      let v := Tab.get ({} : Pass) s1.med.passes g
      let v1 : Pass := if v.running then { v with order := .sett n :: v.order.erase (.sett n), again := v.again.erase (.sett n) }
        else { v with marked := if v.marked.contains n then v.marked else v.marked ++ [n] }
      s1.setMed { s1.med with passes := Tab.put {} s1.med.passes g v1 }
    | none => s1
  let s3 := ((s2.judged x).installLine x d true false).answerReads x (some d)
  if s3.psq.mainUp then s3.resumeLine x
  else match s3.move n with
    | some m => if m.read.getLsbD (lineIdx x) then s3 else s3.moveProgram m (lineIdx x) d
    | none => s3

/-! ### Stride detectors, prefetch and windows (R176, R263) -/

/-- Prefetches up to DEPTH lines ahead of a locked stream, within the region and its allocated setts (R176). -/
def prefetch (s : State) (d : Detector) : State :=
  (List.range (s.fld Reg.PBF_STREAM 0 11 8)).foldl (fun s k =>
    let t : Int := (d.last : Int) + d.stride * (k + 1)
    if t < 0 ∨ (s.region d.stream.region).size * 256 ≤ t.toNat then s
    else match s.resolve d.stream.region (t.toNat * 256) with
      | none => s
      | some x =>
        let e := s.sett (lineSett x)
        match e.phys with
        | none => s
        | some p =>
          if (s.bline x).isSome || (s.scbSlot x).isSome || e.mode == .none || !s.chunkLoaded (lineSett x) ||
              (s.lossOf d.stream.region t.toNat).isSome then s
          else match (if e.promoted then s.page (lineSett x) else none) with
            | some g => s.installLine x (s.pageLine g x) false true
            | none =>
              let mine (c : QmiCmd) : Bool := c.user == .prefetch x || c.user == .fill x
              let q := s.qc (dieChan p.die)
              if !s.dieUp p.die || !(s.die p.die).tables || q.sent.any mine || q.queue.any mine then s
              else s.senseLine x .read 0 (.prefetch x)) s

/-- A read of a stream reaches its stride detector (R176): three successive steps of one stride lock it, two off its stride unlock it.
Detectors are reclaimed least recently used, 1,024 in all. -/
def strideRead (s : State) (st : Stream) (rl : Nat) : State :=
  if !s.bit Reg.PBF_CTRL 0 1 then s
  else
    let rest := s.bench.detectors.filter fun d => d.stream != st
    match s.bench.detectors.find? fun d => d.stream == st with
    | none => s.setBench { s.bench with detectors := ({ stream := st, last := rl } :: rest).take 1024 }
    | some d =>
      let step : Int := (rl : Int) - d.last
      let ok : Bool := decide (step ≠ 0 ∧ -64 ≤ step ∧ step ≤ 64)
      let lockedNow := decide (3 ≤ d.steps)
      let d1 : Detector :=
        if step = 0 then d
        else if ok && step = d.stride then { d with last := rl, steps := d.steps + 1, off := 0 }
        else if lockedNow && d.off = 0 then { d with last := rl, off := 1 }
        else { d with last := rl, stride := if ok then step else 0, steps := if ok then 1 else 0, off := 0 }
      let s1 := s.setBench { s.bench with detectors := d1 :: rest }
      if 3 ≤ d1.steps ∧ d1.off = 0 then s1.prefetch d1 else s1

/-- Requests a promotion; window promotions go ahead (R257). -/
def wantPromote (s : State) (n : Nat) (window : Bool) : State :=
  if !s.bit Reg.XLT_CTRL 0 1 || (s.sett n).promoted || (s.sett n).mode == .none || s.xlt.promo.any (fun p => p.1 == n) then s
  else s.setXlt { s.xlt with promo :=
    if window then (s.xlt.promo.filter Prod.snd) ++ [(n, true)] ++ (s.xlt.promo.filter fun p => !p.2)
    else s.xlt.promo ++ [(n, false)] }

/-- The next `w` allocated setts of an object from region sett `i` in a direction (R263). -/
def windowSetts (s : State) (o : Object) (i w : Nat) (down : Bool) : List Nat :=
  let all := (s.med.setts.filterMap fun p =>
    match s.ownerOf p.1 with
    | some (r, j) => if r == o.region && p.2.mode != .none && decide (o.first ≤ j ∧ j < o.first + o.count) then some (j, p.1) else none
    | none => none)
  let side := if down then (all.filter fun p => p.1 ≤ i).reverse else all.filter fun p => i ≤ p.1
  (side.take w).map Prod.snd

/-- Closes the windows of which `p` holds; their setts keep any other rank (R263). -/
def closeWindows (s : State) (p : Window → Bool) : State :=
  s.setXlt { s.xlt with windows := s.xlt.windows.filter fun w => !p w }

/-- A read of a stream meets the windows (R263): it opens one in a sett of rank STREAM, moves one along, or leaves its object. -/
def windowRead (s : State) (st : Stream) (i : Nat) : State :=
  match s.settOf st.region i with
  | none => s
  | some n =>
    let objs := (s.liveObjects st.region i).filter fun p => p.2.hint == .stream
    let s0 := s.closeWindows fun w => w.stream == st && !(objs.any fun p => p.1 == w.object)
    match objs.head? with
    | none => s0
    | some (id, o) =>
      let w := if o.window = 0 then s0.fld Reg.XLT_WINDOW 0 7 0 else o.window
      if s0.rankOf n ≠ 2 then s0
      else match s0.xlt.windows.find? fun v => v.stream == st && v.object == id with
        | none =>
          let v : Window := { stream := st, object := id, at_ := i, setts := s0.windowSetts o i w false }
          let s1 := s0.setXlt { s0.xlt with windows := (v :: s0.xlt.windows).take 256 }
          v.setts.foldl (fun s m => s.wantPromote m true) s1
        | some v =>
          if v.at_ = i then s0
          else
            let down := if v.moved then v.descending else decide (i < v.at_)
            let v1 : Window := { v with at_ := i, moved := true, descending := down, setts := s0.windowSetts o i w down }
            let s1 := s0.setXlt { s0.xlt with windows := v1 :: s0.xlt.windows.filter fun u => u != v }
            v1.setts.foldl (fun s m => s.wantPromote m true) s1

/-! ### Stream-combining buffers (R177 to R179) -/

/-- Replaces the buffer of a sett. -/
def setScb (s : State) (n : Nat) (v : Option Scb) : State :=
  s.setBench { s.bench with scbs := s.bench.scbs.filterMap fun b => if b.lsett == n then v else some b }

/-- Programs the full slots of a buffer in logical line order (R178). -/
def scbProgram (s : State) (n : Nat) : State :=
  match s.bench.scbs.find? (fun b => b.lsett == n), s.move n with
  | some b, some m =>
    let full := b.slots.filter fun k => k.use == .filling && k.mask == 15#4
    let s1 := s.setScb n (some { b with slots := b.slots.map fun k => if k.use == .filling && k.mask == 15#4 then { k with use := .issued } else k })
    full.foldl (fun s k => s.moveProgram ((s.move n).getD m) k.line k.data) s1
  | _, _ => s

/-- A slot of a closing buffer goes back to Bench 0 as a dirty line with a partial-line entry, or waits in the buffer for room (R178). -/
def scbReturn (s : State) (n : Nat) (k : ScbSlot) : State :=
  match s.slotBack (lineOf n k.line) k with
  | (s1, true) => match s1.bench.scbs.find? fun b => b.lsett == n with
    | some b => (s1.setScb n (some { b with slots := b.slots.filter fun y => y.line != k.line })).moveLine n k.line
    | none => s1
  | (s1, false) => s1

/-- Closes a buffer early (R178): a slot that is not full becomes a dirty Bench 0 line with a partial-line entry, and every remaining
line of the sett is programmed from the other sources. -/
def scbClose (s : State) (n : Nat) : State :=
  match (s.scbProgram n).bench.scbs.find? fun b => b.lsett == n with
  | none => s
  | some b =>
    if b.closing then s
    else
      let s1 := (s.scbProgram n).setScb n (some { b with closing := true })
      let s2 := (b.slots.filter fun k => k.use == .filling).foldl (fun s k => s.scbReturn n k) s1
      s2.moveFeed n

/-- Binds a buffer to a sett for a write stream (R178): MIG MOVING and a destination slot of its mode; not bound where no buffer is
free, the sett is busy, the stream holds two, or no destination is found (R177, R243). -/
def scbBind (s : State) (st : Stream) (n : Nat) : State :=
  let mine := s.bench.scbs.filter fun b => b.stream == st
  let e := s.sett n
  match s.ownerOf n with
  | none => s
  | some (r, i) =>
    let m := if e.mode = .none then (s.region r).mode else e.mode
    if !s.bit Reg.PBF_CTRL 0 0 || decide (64 ≤ s.bench.scbs.length) || decide (2 ≤ mine.length) || e.mig != .idle || s.jFull ||
        s.firstPending n then s
    else
      let dest := match e.phys with
        | some p => if s.outsideReserve m then s.chanSlot (dieChan p.die) m (fun _ _ => true) (fun _ => false) else none
        | none => s.placeSett r i m
      match dest with
      | none => s
      | some p =>
        let s1 := (s.takeSlot p m).1
        let (s2, lr) := s1.drawLrot e
        let s3 := s2.putSett n { e with mig := .moving }
        let s4 := s3.setYrw { s3.med.yarrow with moves := s3.med.yarrow.moves ++ [{
          lsett := n, kind := .placed, dest := some p, mode := m, lrot := lr }] }
        s4.setBench { s4.bench with scbs := s4.bench.scbs ++ [{ stream := st, lsett := n }] }

/-- Follows a stream's run of ascending full lines (R177). Answers whether the stream is a write stream. -/
def streamRun (s : State) (st : Stream) (rl : Nat) (m : BitVec 256) : State × Bool :=
  if st.src = .none then (s, false)
  else
    let rest := s.bench.runs.filter fun r => r.stream != st
    let r : Run := (s.bench.runs.find? fun r => r.stream == st).getD { stream := st, next := rl }
    let c := wholeChunks m
    let was := decide (s.fld Reg.PBF_STREAM 0 4 0 ≤ r.full)
    let broke := rl ≠ r.next ∧ rl + 1 ≠ r.next
    let r1 : Run :=
      if rl = r.next then
        let mm := r.mask ||| c
        if mm = 15#4 then { r with next := rl + 1, mask := 0, full := r.full + 1 } else { r with mask := mm }
      else if rl + 1 = r.next then r
      else if c = 15#4 then { r with next := rl + 1, mask := 0, full := 1 } else { r with next := rl, mask := c, full := 0 }
    let s1 := s.setBench { s.bench with runs := (r1 :: rest).take 1024 }
    let s2 := if was ∧ broke then
        (s1.bench.scbs.filter fun b => b.stream == st && !b.closing).foldl (fun s b => s.scbClose b.lsett) s1
      else s1
    (s2, decide (s.fld Reg.PBF_STREAM 0 4 0 ≤ r1.full))

/-- Puts a write into a buffer where one holds its sett (R177 to R179). Answers none where the write goes through Bench 0: a slot
already issued or freed is superseded by a dirty line there. -/
def scbWrite (s : State) (x : Nat) (m : BitVec 256) (d : Line) : Option State :=
  let n := lineSett x
  let l := lineIdx x
  match s.bench.scbs.find? fun b => b.lsett == n with
  | none => none
  | some b =>
    let c := wholeChunks m
    let whole : Bool := chunkBytes c == m
    match b.slots.find? fun k => k.line == l with
    | some k =>
      if k.use == .filling then
        if m &&& chunkBytes (k.mask ||| c) = m then
          let k1 := { k with mask := k.mask ||| c, data := overlay m d k.data }
          some ((s.setScb n (some { b with slots := b.slots.map fun y => if y.line == l then k1 else y })).scbProgram n)
        else
          let s1 := s.setScb n (some { b with slots := b.slots.filter fun y => y.line != l })
          match s1.placeLine x (m ||| chunkBytes k.mask) (overlay m d k.data) false with
          | (s2, true) => some s2
          | (_, false) => none
      else none
    | none =>
      if b.closing || !whole || decide (64 ≤ (b.slots.filter fun k => k.use != .freed).length) || (s.bline x).isSome || (s.recoverOf x).isSome then none
      else some ((s.setScb n (some { b with slots := b.slots ++ [{ line := l, mask := c, data := overlay m d 0 }] })).scbProgram n)

end State

end Sys2Proof.Machine
end

