-- ==== Sys2Proof/Machine/FlowOps.lean ====
section
/-! DEFINITION. The order of a region and its mirror (R12, R213 to R215), admission (R183 to R185), forwarding (R13), the release of
acknowledgements (R12, R17), and `settle`, which lets everything that waited go on. -/

namespace Sys2Proof.Machine

/-- Why a write is refused (Tables 11-3 and 12-4). -/
inductive Refused where
  | notReady | notHere | unavailable | red | notHome
  deriving DecidableEq, Repr

/-- What becomes of a write that reaches the fabric: taken, held back (R184, R218), or refused. -/
inductive Fate where
  | go | hold | refuse (why : Refused)
  deriving DecidableEq, Repr

/-- The chunks a byte mask touches. -/
def touchedChunks (m : BitVec 256) : Nat :=
  ((List.range 4).filter fun i => (m >>> (64 * i)).setWidth 64 != 0#64).length

/-- The stream of a write (R176). -/
def HostWrite.str (w : HostWrite) : Stream := { src := w.stream, region := w.region }

/-- The number that stands for a stream's source in its hash. -/
def srcCode : StreamSrc → Nat
  | .ld p l => p.val * 16 + l.val
  | .qp n => 64 + n
  | .hash h => h.toNat
  | .none => 0

/-- The hash a MIRROR entry carries of its origin's stream key (Table 9-3). -/
def streamHashOf (t : Stream) : BitVec 16 :=
  match t.src with
  | .hash h => h
  | .none => 0
  | c => Config.streamHash (srcCode c * 65536 + t.region)

namespace State

/-- The port a write came by, as the tokens go round (R183): the CXL ports 0 to 3, FORWARD frames 4, Ethernet ports 5 to 12, and 13 for
the device's own writes. -/
def portOf (s : State) (w : HostWrite) : Nat :=
  match w.who with
  | .cxl p _ _ => p.val
  | .twin _ => 4
  | .rdma n _ => 5 + (s.qp n).mac.val / 4
  | .landing n _ => 5 + (s.qp n).mac.val / 4
  | _ => 13

/-- A write of the line would create a dirty line: none is dirty and no buffer holds it (R183). -/
def wouldDirty (s : State) (x : Nat) : Bool :=
  (match s.bline x with
    | some b => !isDirty b
    | none => true) && (s.scbSlot x).isNone

/-- A write of the line would need a partial-line entry that is not free (R181). -/
def partialShort (s : State) (x : Nat) (m : BitVec 256) : Bool :=
  m != BitVec.allOnes 256 && decide (s.partialLimit ≤ s.bench.partials.length) &&
    (match s.bline x with
      | some b => b.state == .filling
      | none => (s.scbSlot x).isNone)

/-- This controller orders the region's writes: it is home, or runs the region solo (R12). -/
def ordersHere (s : State) (r : Nat) : Bool := (s.rt r).home && (s.paired || (s.rt r).solo || (s.rt r).held || (s.rt r).strictRefuse)

/-- The port of a write already holds another one back (R184: every write on a CXL port waits). -/
def portHolding (s : State) (w : HostWrite) : Bool :=
  match w.who with
  | .cxl p _ _ => s.bench.held.any fun h => match h.who with
    | .cxl q _ _ => p == q
    | _ => false
  | .twin _ => s.bench.held.any fun h => h.region == w.region && match h.who with
    | .twin _ => true
    | _ => false
  | _ => false

/-- An admission reason to hold a write at its home (R183 to R185, R218, R229, R246): `token` says that a token is in hand. -/
def mustHold (s : State) (w : HostWrite) (token : Bool) : Bool :=
  let v := s.rt w.region
  let lv := s.homeLevel
  v.held || v.handing.isSome || s.bench.drain.isSome || s.partialShort w.line w.mask ||
    (s.wouldDirty w.line && (decide (2 ≤ lv) || (lv == 1 && !token))) ||
    (v.solo && !v.marks.contains (w.rline / 256) && s.jFull)

/-- What becomes of a write now (R12, R145, R172, R87, R217): refusals first, then, at the home, admission. -/
def fate (s : State) (w : HostWrite) : Fate :=
  let v := s.rt w.region
  if w.region = stagingRegion then .go
  else if !s.domainReady then .refuse .notReady
  else if !s.regionOpen w.region then .refuse .notHere
  else if s.unavailable w.line then .refuse .unavailable
  else if s.ordersHere w.region then
    if v.strictRefuse then .refuse .notHere
    else if v.red then .refuse .red
    else if s.portHolding w || s.mustHold w (decide (0 < s.bench.tokens) && s.bench.held.isEmpty) then .hold
    else .go
  else if !s.paired then .refuse .notHere
  else if w.atomic.isSome then .refuse .notHome
  else if 65535 ≤ s.bench.forwarded.length || s.portHolding w then .hold
  else .go

/-! ### The order -/

/-- Marks a region sett in the resync map, journaled (R218, Table 9-7). -/
def markSett (s : State) (r i : Nat) : State :=
  let v := s.rt r
  let v1 := { v with marksTerm := v.term }
  if v.marks.contains i then s.setRt r v1 else (s.setRt r { v1 with marks := v.marks ++ [i] }).journal (.resync r i)

/-- The entry of a write in a MIRROR frame (Table 9-3). -/
def mirrorEntry (o : Ordered) : WEntry :=
  { ros := o.ros, region := o.w.region, ftag := o.ftag, stream := streamHashOf o.w.str, line := o.w.line, mask := o.w.mask, data := o.w.data }

/-- Gives a write the next ROS of its region (R213): on a solo region its sett is marked before (Table 9-7); otherwise its MIRROR entry
leaves at once (R214). -/
def orderWrite (s : State) (w : HostWrite) (ftag : BitVec 16) : State :=
  let r := w.region
  let ros := (s.rt r).ros + 1
  let s1 := s.putRt r { s.rt r with ros := ros }
  let solo := (s1.rt r).solo
  let s2 := ((if solo then s1.markSett r (w.rline / 256) else s1).lossWrite r w.rline (wholeChunks w.mask)).dropClear w.line (wholeChunks w.mask)
  let o : Ordered := { w := w, ros := ros, mine := true, ftag := ftag, mirrored := solo || !s.paired }
  let s3 := s2.setBench { s2.bench with orders := s2.bench.orders ++ [o] }
  if o.mirrored then s3 else s3.tsend (r % 2 == 1) (.mirror [mirrorEntry o])

/-- Seals the open FORWARD frame and sends it (R13). -/
def sealForward (s : State) : State :=
  let es := s.bench.frame.filterMap fun t => (s.bench.forwarded.find? fun f => f.ftag == t).map fun f =>
    ({ ros := 0, region := f.w.region, ftag := t, stream := streamHashOf f.w.str, line := f.w.line, mask := f.w.mask, data := f.w.data } : WEntry)
  let s1 := s.setBench { s.bench with frame := [] }
  if es.isEmpty then s1 else s1.tsend false (.forward es)

/-- The chunks in the open FORWARD frame. -/
def frameChunks (s : State) : Nat :=
  (s.bench.frame.map fun t => match s.bench.forwarded.find? fun f => f.ftag == t with
    | some f => touchedChunks f.w.mask
    | none => 0).foldl (· + ·) 0

/-- The next FTAG not among those outstanding, never 0 (R215). -/
def freeFtag (s : State) : Nat → BitVec 16 → BitVec 16
  | 0, t => t
  | n + 1, t => if t = 0 ∨ s.bench.forwarded.any (fun f => f.ftag == t) then freeFtag s n (t + 1) else t

/-- Forwards a write to its home (R13, R215): it joins the open frame, which is sealed when it holds 8 chunks. -/
def forwardWrite (s : State) (w : HostWrite) : State :=
  let s0 := if 8 < s.frameChunks + touchedChunks w.mask then s.sealForward else s
  let t := s0.freeFtag (s0.bench.forwarded.length + 2) s0.bench.nextFtag
  let s1 := s0.setBench { s0.bench with
    nextFtag := t + 1, forwarded := s0.bench.forwarded ++ [{ ftag := t, w := w }], frame := s0.bench.frame ++ [t] }
  if 8 ≤ s1.frameChunks then s1.sealForward else s1

/-- A write that goes on: ordered here, taking a token where it creates a dirty line under THROTTLE (R183), or forwarded. -/
def admitWrite (s : State) (w : HostWrite) : State :=
  if s.ordersHere w.region then
    let s1 := if s.homeLevel == 1 && s.wouldDirty w.line then s.setBench { s.bench with tokens := s.bench.tokens - 1 } else s
    s1.orderWrite w (match w.who with
      | .twin t => t
      | _ => 0)
  else s.forwardWrite w

/-! ### Placement -/

/-- Places one ordered write (R180, R182, R177 to R179): the stream of its origin first takes notice of it; nothing creates a dirty line
at level FULL (Table 8-3). -/
def placeOrder (s : State) (o : Ordered) : State × Bool :=
  if s.bench.domain != .opened || (decide (3 ≤ s.admitLevel) && s.wouldDirty o.w.line) then (s, false)
  else
    let (s1, ws) := if o.tried then (s, (s.bench.scbs.any fun b => b.lsett == lineSett o.w.line))
      else s.streamRun o.w.str o.w.rline o.w.mask
    let n := lineSett o.w.line
    let has := s1.bench.scbs.any fun b => b.lsett == n
    let s2 := if ws && !has then s1.scbBind o.w.str n else s1
    match (if ws || has then s2.scbWrite o.w.line o.w.mask o.w.data else none) with
    | some s3 => (s3, true)
    | none => s2.placeLine o.w.line o.w.mask o.w.data (!o.tried)

/-- Replaces an entry of the orders. -/
def setOrder (s : State) (o : Ordered) : State :=
  s.setBench { s.bench with orders := s.bench.orders.map fun x =>
    if x.ros == o.ros && x.w.region == o.w.region && x.mine == o.mine then o else x }

/-- Removes an entry of the orders. -/
def endOrder (s : State) (o : Ordered) : State :=
  s.setBench { s.bench with orders := s.bench.orders.filter fun x => !(x.ros == o.ros && x.w.region == o.w.region && x.mine == o.mine) }

/-- Places what can be placed, in the order of each region (R185, R213): an entry that waits makes the entries after it wait. At the twin,
a placed entry is acknowledged with MIRROR_DONE and becomes the last one applied (R214). -/
def placeAll (s : State) : State :=
  (s.bench.orders.foldl (fun (p : State × List Nat) o =>
    if o.placed || p.2.contains o.w.region then p
    else match p.1.placeOrder o with
      | (s1, true) =>
        if o.mine then (s1.setOrder { o with placed := true, tried := true }, p.2)
        else
          let r := o.w.region
          let s2 := (((s1.endOrder o).putRt r { s1.rt r with ros := o.ros }).lossWrite r o.w.rline (wholeChunks o.w.mask)).dropClear o.w.line
            (wholeChunks o.w.mask)
          (s2.tsend (r % 2 == 1) (.ack s2.dirtyLines s2.med.yarrow.cap [.mirrorDone r o.ros]), p.2)
      | (s1, false) => (s1.setOrder { o with tried := true }, o.w.region :: p.2)) (s, [])).1

/-! ### Release -/

/-- Part of a message of a QP has become durable (R298). -/
def pieceDone (s : State) (n : Nat) (psn : BitVec 24) : State :=
  let q := s.qp n
  let hit (m : Msg) : Bool := decide ((psn - m.first).toNat ≤ (m.last - m.first).toNat)
  let s1 := s.setQp n { q with msgs := q.msgs.map fun m => if hit m then { m with left := m.left - 1 } else m }
  s1

/-- An atomic of a QP is durable: its response leaves with the earlier value (R300). -/
def atomicDone (s : State) (n : Nat) (psn : BitVec 24) : State :=
  let q := s.qp n
  match q.recent.find? fun r => r.psn == psn && r.kind == .atomic with
  | none => s
  | some r =>
    (s.setQp n { q with
      recent := q.recent.map fun x => if x.psn == psn then { x with done := true, result := 0 } else x
      active := q.active.filter fun a => a.1 != psn }).emit (.rdmaAtomic n psn r.result)

/-- The outcome a host gets for a durable write (R12). -/
def ackHost (s : State) (w : HostWrite) : State :=
  match w.who with
  | .cxl p l t => s.emit (.memCmp p l t)
  | .rdma n psn => if (s.qp n).error || !(s.qp n).connected then s
      else if w.atomic.isSome then s.atomicDone n psn else s.pieceDone n psn
  | .twin t => s.tsend false (.ack s.dirtyLines s.med.yarrow.cap [.fwdDurable t 1])
  | .landing n psn =>
    let q := s.qp n
    s.setQp n { q with flight := q.flight.map fun f => if f.psn == psn then { f with left := f.left - 1 } else f }
  | _ => s

/-- Releases the acknowledgements of writes that lie in both domains, while the domain is OPEN (R12, R17). -/
def releaseAll (s : State) : State :=
  if s.bench.domain != .opened then s
  else
    let ready := s.bench.orders.filter fun o => o.mine && o.placed && o.mirrored
    let s1 := s.setBench { s.bench with orders := s.bench.orders.filter fun o => !(o.mine && o.placed && o.mirrored) }
    ready.foldl (fun s o => s.ackHost o.w) s1

/-- The outcome a host gets for a write that is not taken (Tables 11-3 and 12-4, R215, R289). -/
def refuseHost (s : State) (w : HostWrite) (why : Refused) : State :=
  match w.who with
  | .cxl p l t =>
    match why with
    | .notReady | .notHere | .notHome => (s.cxlNotHere p l w.region (s.dpaOf p l w.region w.rline)).emit (.memCmp p l t)
    | .unavailable => (s.dropMark w.line).cxlDrop p l t (s.dpaOf p l w.region w.rline)
    | .red => s.cxlDrop p l t (s.dpaOf p l w.region w.rline)
  | .rdma n psn =>
    match why with
    | .notReady => s.qpFatal n psn 3 .notReady w.region
    | .notHere => s.qpFatal n psn 3 .notHere w.region
    | .notHome => s.qpFatal n psn 3 .notHome w.region
    | .red => s.qpFatal n psn 3 .capacityRed w.region
    | .unavailable => s.qpFatal n psn 2 .access w.region
  | .twin t => s.tsend false (.ack s.dirtyLines s.med.yarrow.cap [.fwdRefused t (match why with
      | .red => 0x30
      | .unavailable => 0x50
      | _ => 0x21)])
  | .landing n psn =>
    let q := s.qp n
    s.setQp n { q with flight := q.flight.map fun f => if f.psn == psn then { f with bad := true } else f }
  | _ => s

/-! ### Admission -/

/-- A CXL port with a held write stops returning RwD credits, and returns them again when it holds none (R184). -/
def judgeCredits (s : State) : State :=
  (List.finRange 4).foldl (fun s p =>
    let v := s.cport p
    let now := s.bench.held.any fun h => match h.who with
      | .cxl q _ _ => p == q
      | _ => false
    if now && !v.holding then
      ((s.setCport p { v with holding := true }).bump Reg.PBF_THROTTLE_CNT 0 31 16).emit (.credits p false)
    else if !now && v.holding then (s.setCport p { v with holding := false }).emit (.credits p true)
    else s) s

/-- Holds a write back. -/
def holdWrite (s : State) (w : HostWrite) : State := (s.setBench { s.bench with held := s.bench.held ++ [w] }).judgeCredits

/-- A write reaches the fabric: it goes on, is held back, or is refused. One of a staging window is placed and acknowledged at once (R359). -/
def submit (s : State) (w : HostWrite) : State :=
  match s.fate w with
  | .go => if w.region = stagingRegion then (s.putStageLine w.rline w.mask w.data).ackHost w else s.admitWrite w
  | .hold => s.holdWrite w
  | .refuse why => s.refuseHost w why

/-- The held write that is admitted next: each port's oldest, the ports taken round from `turn` (R183). One that is refused now leaves as
well. -/
def nextHeld (s : State) : Option (HostWrite × Fate) :=
  (List.range 14).findSome? fun k =>
    let port := (s.bench.turn + k) % 14
    match s.bench.held.find? fun h => s.portOf h == port with
    | none => none
    | some w =>
      let s0 := s.setBench { s.bench with held := s.bench.held.erase w }
      let free := s0.setBench { s0.bench with held := s0.bench.held.filter fun h => s.portOf h != port }
      match free.fate w with
      | .refuse why => some (w, .refuse why)
      | .go => some (w, .go)
      | .hold =>
        if free.ordersHere w.region && !(free.portHolding w) && !(free.mustHold w (decide (0 < s.bench.tokens))) then some (w, .go)
        else none

/-- Admits held writes one at a time while any can go on (R183, R184). -/
def admitHeld (s : State) : Nat → State
  | 0 => s
  | f + 1 =>
    match s.nextHeld with
    | none => s
    | some (w, x) =>
      let s1 := s.setBench { s.bench with held := s.bench.held.erase w, turn := (s.portOf w + 1) % 14 }
      (match x with
        | .refuse why => s1.refuseHost w why
        | _ => s1.admitWrite w).judgeCredits.admitHeld f

/-- A write-back that verified and left its line clean grants one token under THROTTLE; up to 64 are kept (R183). -/
def grantToken (s : State) : State :=
  if s.homeLevel == 1 then s.setBench { s.bench with tokens := min 64 (s.bench.tokens + 1) } else s

/-! ### Data on hand -/

/-- The newest copy of a line that needs no sense and no twin: Bench 0, a buffer, a pool page, or zeros. -/
def peekLine (s : State) (x : Nat) : Option Line :=
  let e := s.sett (lineSett x)
  match s.bline x, s.scbSlot x with
  | some b, _ => if b.state != .filling && !isPartial b then some b.data else none
  | none, some k => if k.mask == 15#4 then some k.data else none
  | none, none =>
    if e.mode == .none || e.phys.isNone then some 0
    else if e.promoted then (s.page (lineSett x)).map fun p => s.pageLine p x else none

/-- Has a line read into Bench 0 for the device's own use. -/
def wantLine (s : State) (r rl x : Nat) : State :=
  if s.bench.reads.any fun q => q.who == .device && q.line == x then s
  else s.serveRead { who := .device, region := r, rline := rl, line := x, chunks := 15 }

/-! ### Completion queues (R308) -/

/-- Completion queue `n`. -/
def cq (s : State) (n : Nat) : Option Cq := Tab.get none s.rdma.cqs n

/-- Replaces completion queue `n`. -/
def setCq (s : State) (n : Nat) (v : Option Cq) : State := { s with rdma := { s.rdma with cqs := Tab.put none s.rdma.cqs n v } }

/-- The ring appears full: the consumer index is read again from region memory where its line is at hand, else asked for. Answers
whether it stays full. -/
def cqFull (s : State) (n : Nat) : State × Bool :=
  match s.cq n with
  | none => (s, true)
  | some c =>
    if c.producer - c.consumer < 2 ^ c.n then (s, false)
    else match s.resolve c.region c.off with
      | none => (s, true)
      | some x =>
        match s.peekLine x with
        | none => (s.wantLine c.region (c.off / 256) x, true)
        | some d =>
          let idx := (d >>> (8 * (c.off % 256))).toNat % 2 ^ 32
          let used := (c.producer + 2 ^ 32 - idx) % 2 ^ 32
          let c1 := { c with consumer := c.producer - used }
          (s.setCq n (some c1), decide (2 ^ c.n ≤ used))

/-- The words of a completion entry (Table 12-8), as a 32 B number. -/
def cqeBytes (qpn imm len idx op st owner : Nat) : Nat :=
  qpn % 2 ^ 32 + imm % 2 ^ 32 * 2 ^ 32 + len % 2 ^ 32 * 2 ^ 64 + idx % 2 ^ 16 * 2 ^ 96 + op % 256 * 2 ^ 112 + st % 256 * 2 ^ 120 +
    owner % 2 ^ 32 * 2 ^ 224

/-- Writes a completion as a device write of the region (R308); on a full ring CQ_FULL is captured and nothing is written. -/
def cqWrite (s : State) (n qpn imm len idx op st : Nat) : State :=
  let (s1, full) := s.cqFull n
  match s1.cq n with
  | none => s1
  | some c =>
    if full then s1.cause Reg.RDM_CAUSE 0 5 197
    else
      let off := c.off + 64 + 32 * (c.producer % 2 ^ c.n)
      let cnt := c.count + 1
      let s2 := s1.setCq n (some { c with producer := c.producer + 1, count := cnt })
      match s2.resolve c.region off with
      | none => s2
      | some x =>
        let sh := off % 256
        s2.submit {
          who := .device, region := c.region, rline := off / 256, line := x
          mask := (BitVec.ofNat 256 (2 ^ 32 - 1)) <<< sh
          data := (BitVec.ofNat 2048 (cqeBytes qpn imm len idx op st cnt.toNat)) <<< (8 * sh) }

/-- The durable messages at the front of a QP's list are acknowledged in MSN order (R298, R313), none before an earlier READ or atomic
has been answered (R299), and the completion that carries the
immediate data of one is written (R308). -/
def ackMsgs (s : State) (n : Nat) : Nat → State
  | 0 => s
  | f + 1 =>
    let q := s.qp n
    match q.msgs with
    | [] => s
    | m :: rest =>
      if m.left = 0 ∧ m.missing = 0 ∧ (!q.spray ∨ m.msn = q.msn + 1) ∧ !(q.active.any fun a => decide ((m.first - a.1).toNat < 2 ^ 23)) then
        let s1 := (s.setQp n { q with
          msgs := rest, msn := m.msn
          placed := q.placed.filter fun p => decide ((m.last - p).toNat ≥ 2 ^ 23)
          recent := q.recent.map fun r => if (r.psn - m.first).toNat ≤ (m.last - m.first).toNat then { r with done := true } else r
          }).emit (.rdmaAck n m.last m.msn)
        let s2 := match m.imm, q.rcq with
          | some w, some c => s1.cqWrite c (0x10000 + n) w.toNat m.length 0 0 0
          | _, _ => s1
        s2.ackMsgs n f
      else s

/-! ### Atomics (R300) -/

/-- The 8 B at an offset of a line, and the line with them replaced. -/
def at8 (d : Line) (o : Nat) : BitVec 64 := (d >>> (8 * o)).setWidth 64

/-- The result of an atomic over its old value. -/
def atomicNew (a : Atomic) (old : BitVec 64) : BitVec 64 :=
  match a with
  | .cmpSwap _ c v => if old = c then v else old
  | .fetchAdd _ v => old + v

/-- The tweak of a QP's result cache (Table 15-3). -/
def cacheTweak (n : Nat) : BitVec 128 := BitVec.ofNat 128 (4 * 2 ^ 64 + (0x10000 + n) % 2 ^ 24)

/-- The result that slot PSN mod 64 of a QP's result cache holds (R311). -/
def cached (s : State) (n : Nat) (psn : BitVec 24) : BitVec 64 :=
  match (s.qp n).cache with
  | some c => ((Config.decryptUnit s.metaKey (cacheTweak n) c) >>> (64 * (psn.toNat % 64))).setWidth 64
  | none => 0

/-- Keeps a result in slot PSN mod 64 of a QP's result cache, allocated at the first atomic (R311). -/
def cachePut (s : State) (n : Nat) (psn : BitVec 24) (v : BitVec 64) : State :=
  let q := s.qp n
  let old : BitVec 4096 := match q.cache with
    | some c => Config.decryptUnit s.metaKey (cacheTweak n) c
    | none => 0
  let i := 64 * (psn.toNat % 64)
  let new := (old &&& ~~~((BitVec.ofNat 4096 (2 ^ 64 - 1)) <<< i)) ||| ((v.setWidth 4096) <<< i)
  s.setQp n { q with cache := some (Config.encryptUnit s.metaKey (cacheTweak n) new) }

/-- The offset of an atomic in its line. -/
def atomicAt : Atomic → Nat
  | .cmpSwap o _ _ => o
  | .fetchAdd o _ => o

/-- Executes an atomic at its home as a read and a write of its chunk at one ROS (R300). It waits, answered `false`, until its line is at
hand and every earlier write of the region to the line is placed. -/
def atomicRun (s : State) (n : Nat) (psn : BitVec 24) (r rl x : Nat) (a : Atomic) : State × Bool :=
  let o := atomicAt a
  let w : HostWrite := {
    who := .rdma n psn, region := r, rline := rl, line := x, mask := (BitVec.ofNat 256 255) <<< o, data := 0, stream := .none, atomic := some a }
  match s.fate w with
  | .refuse why => (s.refuseHost w why, true)
  | .hold => (s, false)
  | .go =>
    if s.bench.orders.any fun q => q.w.line == x && !q.placed then (s, false)
    else if (match s.lossOf r rl with
        | some m => !(m.getLsbD (o / 64))
        | none => false) then (s.qpFatal n psn 2 .access r, true)
    else match s.peekLine x with
      | none => (s.wantLine r rl x, false)
      | some d =>
        let old := at8 d o
        let new := atomicNew a old
        let q := s.qp n
        let s1 := s.setQp n { q with
          recent := q.recent.map fun y => if y.psn == psn then { y with result := old } else y
          active := q.active ++ [(psn, 1)], msn := q.msn + 1 }
        ((s1.cachePut n psn old).admitWrite { w with data := (new.setWidth 2048) <<< (8 * o) }, true)

/-- An atomic on a staging window: executed and answered at once (R300, R359). -/
def stageAtomic (s : State) (n : Nat) (psn : BitVec 24) (off : Nat) (a : Atomic) : State :=
  let o := atomicAt a
  let old := at8 (s.stageLine (off / 256)) o
  let q := s.qp n
  let s1 := s.setQp n { q with recent := q.recent.map fun y => if y.psn == psn then { y with result := old } else y, msn := q.msn + 1 }
  ((s1.cachePut n psn old).putStageLine (off / 256) ((BitVec.ofNat 256 255) <<< o) (((atomicNew a old).setWidth 2048) <<< (8 * o))).atomicDone n psn

/-! ### Requests that wait on a QP (R298, R299) -/

/-- The lines of a byte range of a region with the byte mask of each: `k` counts down from the number of lines. -/
def rangeLines (off len : Nat) : List (Nat × BitVec 256) :=
  (List.range ((off % 256 + len + 255) / 256)).map fun k =>
    let base := (off / 256 + k) * 256
    let lo := max off base - base
    let hi := min (off + len) (base + 256) - base
    (off / 256 + k, (BitVec.ofNat 256 (2 ^ (hi - lo) - 1)) <<< lo)

/-- Reads a byte range of a region or of the staging windows, line by line and numbered from 0. -/
def readLines (s : State) (who : Origin) (r off len : Nat) : State :=
  ((rangeLines off len).foldl (fun (p : State × Nat) (l : Nat × BitVec 256) =>
    let part (x : Nat) : HostRead := {
      who := who, region := r, rline := l.1, line := x, part := p.2
      chunks := (List.range 4).foldl (fun (m : BitVec 4) i =>
        if ((l.2 : BitVec 256) >>> (64 * i)).setWidth 64 != 0#64 then m ||| BitVec.twoPow 4 i else m) 0 }
    (if r = stagingRegion then p.1.respond (part 0) (some (p.1.stageLine l.1))
      else match p.1.resolve r (l.1 * 256) with
        | none => p.1
        | some x => p.1.serveRead (part x), p.2 + 1)) (s, (0 : Nat))).1

/-- Starts a READ of a QP: one read per line (R299). -/
def readStart (s : State) (n : Nat) (psn : BitVec 24) (r off len : Nat) : State :=
  let ls := rangeLines off len
  let q := s.qp n
  let again := q.active.any fun a => a.1 == psn
  let s0 := s.setQp n { q with
    active := if len = 0 then q.active
      else if again then q.active.map fun a => if a.1 == psn then (a.1, a.2 + ls.length) else a
      else q.active ++ [(psn, ls.length)]
    recent := q.recent.map fun y => if y.psn == psn then { y with done := true } else y }
  if len = 0 then s0.emit (.rdmaData n psn 0 0 0) else s0.readLines (.rdma n psn) r off len

/-- An earlier write or atomic of the QP is not yet durable. -/
def earlierWrite (q : Qp) (psn : BitVec 24) : Bool :=
  (q.msgs.any fun m => decide ((psn - m.first).toNat < 2 ^ 23)) ||
    q.recent.any fun r => r.kind == .atomic && !r.done && r.psn != psn && decide ((psn - r.psn).toNat < 2 ^ 23)

/-- Lets the front of a QP's waiting requests go on, in PSN order (R299). -/
def qpKick (s : State) (n : Nat) : Nat → State
  | 0 => s
  | f + 1 =>
    let q := s.qp n
    if q.error then s
    else match q.queued with
      | [] => s
      | j :: rest =>
        let pop (s : State) : State := s.setQp n { s.qp n with queued := rest }
        match j with
        | .write ws => (ws.foldl (fun s w => s.submit w) (pop s)).qpKick n f
        | .flush psn => if earlierWrite q psn || !q.active.isEmpty then s else
            (((pop s).setQp n { (pop s).qp n with msn := q.msn + 1, recent := ((pop s).qp n).recent.map fun y => if y.psn == psn then { y with done := true } else y }).emit
              (.rdmaAck n psn (q.msn + 1))).qpKick n f
        | .read psn r off len =>
          if earlierWrite q psn then s
          else if r ≠ stagingRegion ∧ !s.domainReady then (pop s).qpFatal n psn 3 .notReady r
          else if r ≠ stagingRegion ∧ !s.regionOpen r then (pop s).qpFatal n psn 3 .notHere r
          else (((pop s).setQp n { (pop s).qp n with msn := q.msn + 1 }).readStart n psn r off len).qpKick n f
        | .atomic psn r off a =>
          if earlierWrite q psn then s
          else if r = stagingRegion then ((pop s).stageAtomic n psn off a).qpKick n f
          else match s.resolve r off with
            | none => pop s
            | some x =>
              match s.atomicRun n psn r (off / 256) x a with
              | (s1, true) => (pop s1).qpKick n f
              | (s1, false) => s1

/-! ### The twin's side of the order -/

/-- The last ROS of the region placed or waiting for its placement here. -/
def nextRos (s : State) (r : Nat) : Nat :=
  (s.rt r).ros + (s.bench.orders.filter fun o => !o.mine && o.w.region == r).length + 1

/-- A MIRROR entry as a write of this controller. -/
def entryWrite (s : State) (e : WEntry) : HostWrite :=
  { who := .twin e.ftag, region := e.region, rline := (s.rlineOf e.line).2, line := e.line, mask := e.mask, data := e.data
    stream := if e.stream = 0 then .none else .hash e.stream }

/-- Early MIRROR entries whose turn has come join the order (R213). -/
def takeEarly (s : State) : Nat → State
  | 0 => s
  | f + 1 =>
    match s.bench.early.find? fun o => o.ros == s.nextRos o.w.region with
    | none => s
    | some o => (s.setBench { s.bench with early := s.bench.early.erase o, orders := s.bench.orders ++ [o] }).takeEarly f

/-! ### Settling -/

/-- A resync source starts the next sett of each region once the last one's lines have been read (R226). -/
def resyncKick (s : State) : State :=
  s.regionIds.foldl (fun s r =>
    let v := s.rt r
    if !v.source || !s.paired || s.bench.reads.any (fun q => q.who == .resync r) then s
    else match v.todo with
      | [] => s
      | i :: rest =>
        let s1 := s.setRt r { v with todo := rest }
        match s1.settOf r i with
        | none => s1
        | some n =>
          if (s1.sett n).mode == .none && ((List.range 256).all fun l => (s1.bline (lineOf n l)).isNone) then
            s1.resyncSend { ros := v.ros, region := r, line := lineOf n 0, unalloc := true } true
          else
            let rd (l : Nat) : HostRead := { who := .resync r, region := r, rline := i * 256 + l, line := lineOf n l, chunks := 15 }
            let s2 := s1.setBench { s1.bench with reads := s1.bench.reads ++ (List.range 256).map rd }
            s2.redrive fun q => q.who == .resync r) s

/-- GPF Phase 2 of a port is answered once every write it received before has ended (R290). -/
def gpfCheck (s : State) : State :=
  (List.finRange 4).foldl (fun s p =>
    let v := s.cport p
    match v.gpf with
    | none => s
    | some us =>
      let mine (w : HostWrite) : Bool := match w.who with
        | .cxl q _ _ => p == q
        | _ => false
      if s.bench.held.any mine || s.bench.orders.any (fun o => mine o.w) || s.bench.forwarded.any (fun f => mine f.w) then s
      else
        let s1 := s.setCport p { v with gpf := none }
        (({ s1 with cxl := { s1.cxl with gpfLast := us } }).cause Reg.CXL_CAUSE 0 7 231).emit (.gpfDone p)) s

/-- A die stands in no region's way (R18, R111, R112): its tables are loaded and no full sweep runs, or it serves no reads at all. -/
def dieSettled (s : State) (d : Nat) : Bool :=
  let v := s.die d
  let q := s.qc (dieChan d)
  let g := s.qg (dieGroup d)
  v.failed || q.lstate == .down || q.offline || g.invBad || !g.railsUp || (v.tables && !v.sweep)

/-- A region that R20 opens can be served (Table 1-5, R128): the dies that hold its setts have their tables loaded, and none of its setts waits for the
restart of a remap. -/
def regionReady (s : State) (r : Nat) : Bool :=
  let mine (n : Nat) : Bool := (s.ownerOf n).any fun o => o.1 == r
  (s.med.setts.all fun p => match p.2.phys with
    | some q => s.dieSettled q.die || !mine p.1
    | none => true) &&
  s.med.yarrow.queue.all fun w => w.kind != .remap || !mine w.lsett || (s.move w.lsett).isSome || !s.dieUp (((s.sett w.lsett).phys.map Phys.die).getD 0)

/-- Regions that have become ready are served, and ones that are no longer open are not (R18, R20). -/
def judgeServed (s : State) : State :=
  s.regionIds.foldl (fun s r =>
    let v := s.rt r
    if v.opened == v.served then s
    else if v.opened then (if s.regionReady r then s.setRt r { v with served := true } else s)
    else s.setRt r { v with served := false }) s

/-- What has become durable is told: the messages of QPs, what waits on them, and the GPF of ports. -/
def tellDurable (s : State) : State :=
  (s.rdma.qps.map Prod.fst).foldl (fun s n => (s.ackMsgs n (s.qp n).msgs.length).qpKick n ((s.qp n).queued.length)) s

/-- One round of everything that may go on. From a drain's trigger on nothing is acknowledged and no ingress runs (R17, R189). -/
def settleOnce (s : State) : State :=
  if s.bench.domain == .draining || s.bench.domain == .drained then s
  else
  let s1 := s.judgeServed.takeEarly s.bench.early.length
  let s2 := s1.placeAll.releaseAll
  let s3 := s2.tellDurable
  let s4 := s3.admitHeld s3.bench.held.length
  s4.pressure.resyncKick.gpfCheck

/-- Everything that waited goes on as far as it can. Each round that changes nothing ends it; eight rounds bound it. -/
def settleRun : Nat → State → State
  | 0, s => s
  | n + 1, s =>
    let s1 := s.settleOnce
    if s1.bench = s.bench ∧ s1.rdma = s.rdma then s1 else settleRun n s1

/-- Settles and judges the level causes. -/
def settle (s : State) : State := (settleRun 8 s).judgeBench.judgeTdm.judgeXlt

end State

end Sys2Proof.Machine
end

