-- ==== Sys2Proof/Machine/TwinOps.lean ====
section
/-! DEFINITION. Twin operation (chapter 9): releasing a sett (R240), the loss of the link (R216 to R219), solo, takeover and fence (R220 to
R222), home moves and detach (R229, R230), comparison and resync (R224 to R228), and the Tandem ports (R203, R209). -/

namespace Sys2Proof.Machine

namespace State

/-- The bindings of a region, by decoder number. -/
def regionBinds (s : State) (r : Nat) : List (Nat × BindTo) :=
  s.cxl.bindings.filterMap fun b => match b.2 with
    | some (.region q o n) => if q == r then some (b.1, .region q o n) else none
    | _ => none

/-! ### Releasing a sett (R240) -/

/-- The next GEN of an entry (R155, R240): 1 after 0xFF_FFFF. -/
def nextGen (g : BitVec 24) : BitVec 24 := if g = 0xFFFFFF#24 then 1 else g + 1

/-- Ends a sett's promotion (R259): its page returns to the pool. -/
def endPromotion (s : State) (n : Nat) : State :=
  let e := s.sett n
  let s1 := (s.setPage n none)
  let s2 := s1.setXlt { s1.xlt with poolLru := s1.xlt.poolLru.erase n, promo := s1.xlt.promo.filter fun p => p.1 != n }
  if e.promoted || e.mig == .promoting || e.mig == .demoting then
    s2.setSett n { e with promoted := false, mig := if e.mig == .promoting || e.mig == .demoting then .idle else e.mig }
  else s2

/-- Every Bench 0 line and buffer slot of a sett is dropped, and what was kept of its recovered lines and dropped writes. -/
def dropSett (s : State) (n : Nat) : State :=
  let s0 := s.setScb n none
  let s1 := s0.setBench { s0.bench with
    recovers := s0.bench.recovers.filter fun p => lineSett p.1 != n, dropped := s0.bench.dropped.filter fun p => lineSett p.1 != n }
  (s1.bench.lines.map Prod.fst).foldl (fun s x => if lineSett x == n then s.dropLine x else s) s1

/-- Takes the commands of a sett's work out of the queues. -/
def forgetQueued (s : State) (n : Nat) : State :=
  s.setMed { s.med with chans := s.med.chans.map fun p => (p.1, { p.2 with queue := p.2.queue.filter fun c => c.lsett != n || c.op != .program }) }

/-- A sett's lost lines are whole again: it reads zero. -/
def lossFree (s : State) (n : Nat) : State :=
  match s.ownerOf n with
  | none => s
  | some (r, i) => (s.med.loss.map Prod.fst).foldl (fun s k =>
      if k / 2 ^ 40 == r && k % 2 ^ 40 / 256 == i then s.unlose r (k % 2 ^ 40) else s) s

/-- Releases a sett to MODE 00 (R240): its other work ends, its promotion ends, its slot goes back to the free list or to the Spoil,
and GEN advances. Its lines in Bench 0 and on the loss list go with it. -/
def releaseSett (s : State) (n : Nat) : State :=
  let s1 := ((s.moveAbandon n false).endPromotion n).dropSett n
  let s2 := s1.forgetQueued n
  let e := s2.sett n
  let s3 := match e.phys with
    | some p => s2.leaveSlot p e.wear e.spoilPending
    | none => s2
  let s4 := (s3.setYoung n []).putSett n (if e.mode == .none && e.phys.isNone then e else { gen := nextGen e.gen })
  s4.lossFree n

/-- A sett is allocated: it has a mode, or lines of it wait in Bench 0. -/
def allocated (s : State) (n : Nat) : Bool :=
  (s.sett n).mode != .none || s.bench.lines.any fun p => lineSett p.1 == n && p.2.isSome

/-- The region setts of region `r` for which `p` holds of the logical sett, rising. -/
def settsOf (s : State) (r : Nat) (p : Nat → Bool) : List Nat :=
  ((s.region r).extents.zipIdx).flatMap fun e =>
    (((s.med.setts.map Prod.fst) ++ (s.bench.lines.map fun l => lineSett l.1)).dedup.filter fun n => n / 16384 == e.1 && p n).map
      fun n => e.2 * 16384 + n % 16384

/-! ### The pair state -/

/-- Sets the pair state; DETACHED and PARKED, and leaving them, are written to the pair-state record (R230, R231). -/
def setPair (s : State) (p : PairState) : State :=
  let was := s.twin.pair
  let s1 := s.setTwin { s.twin with pair := p }
  let keep (q : PairState) : Bool := q == .detached || q == .parked
  if keep p || keep was then s1.nvWrite Config.nvPairState [p.code, s.twin.session.toNat] else s1

/-- Runs a region solo (R12, Table 9-7): every sett that holds an entry not covered by MIRROR_DONE is marked, and held writes go on. -/
def goSolo (s : State) (r : Nat) : State :=
  let mine := s.bench.orders.filter fun o => o.mine && o.w.region == r
  let s1 := mine.foldl (fun s o => if o.mirrored then s else s.markSett r (o.w.rline / 256)) s
  let s2 := s1.setBench { s1.bench with orders := s1.bench.orders.map fun o =>
    if o.mine && o.w.region == r then { o with mirrored := true } else o }
  s2.putRt r { s2.rt r with solo := true, held := false, strictRefuse := false, noHome := false }

/-- STRICT of a region (Table 9-7). -/
def strict (s : State) (r : Nat) : Bool := (s.region r).strict

/-- The fence interval of a region has elapsed (R218): AVAILABLE runs solo, STRICT goes on holding. -/
def fenceEnd (s : State) (r : Nat) : State :=
  let v := s.rt r
  if v.home && v.held && !s.strict r then s.goSolo r else s

/-- Fences a region (R217): new accesses meet "not here" and a held write fails. -/
def fenceRegion (s : State) (r : Nat) : State := s.putRt r { s.rt r with fenced := true, solo := false, held := false, strictRefuse := false }

/-- Fails every forwarded write without FWD_DURABLE (R217). -/
def failForwarded (s : State) : State :=
  let fs := s.bench.forwarded
  let s1 := s.setBench { s.bench with forwarded := [], frame := [] }
  fs.foldl (fun s f => s.refuseHost f.w .notHere) s1

/-- A line with no copy left joins the loss list, where the loss is recorded (R43, R168). -/
def loseHere (s : State) (x : Nat) : State :=
  let (r, rl) := s.rlineOf x
  s.lose r rl 0

/-- The session ends and nothing more is taken from the link (R216): entries not yet placed are dropped, requests to the twin end without
an answer, a dirty line held for the twin's copy is lost (R43), and resyncs stop (R228). -/
def endSession (s : State) : State :=
  let s := (s.twin.assists.filter fun a => a.why == .bench).foldl (fun s a => s.loseHere a.line) s
  let s1 := s.setTwin { s.twin with session := 0, assists := [], replies := [], rsHeld := [], rsSent := [], attrs := [], hbRx := 0 }
  let s2 := s1.setBench { s1.bench with early := [], orders := s1.bench.orders.filter fun o => o.mine || o.placed }
  let s3 := s2.regionIds.foldl (fun s r =>
    let v := s.rt r
    s.setRt r { v with source := false, planned := false, compared := none, twinUnfit := false }) s2
  let mv := s3.med.yarrow.moves.filter fun m => match m.kind with
    | .rebuild _ | .resync => true
    | _ => false
  let s4 := mv.foldl (fun s m => s.moveAbandon m.lsett false) s3
  let s5 := s4.setBench { s4.bench with reads := s4.bench.reads.filter fun q => match q.who with
    | .resync _ => false
    | .assist _ _ => false
    | _ => true }
  s5.redrive fun _ => true

/-- FENCE of one region (R222): a home gives up the role, and the region has no home here. -/
def fenceWitness (s : State) (r : Nat) : State :=
  let v := s.rt r
  (s.fenceRegion r).putRt r { (s.fenceRegion r).rt r with home := false, fenceNext := false, noHome := v.noHome || v.home }

/-- A move of the home role has completed or failed: a FENCE that waited acts now (R232). -/
def fenceWaited (s : State) (r : Nat) : State := if (s.rt r).fenceNext then s.fenceWitness r else s

/-- Ends the requests that wait for side 0 (R469). -/
def failAlloc (s : State) : State :=
  s.twin.waitAlloc.foldl (fun s w => match w with
    | some (c, t) => s.complete c t .twinUnavailable []
    | none => s) (s.setTwin { s.twin with waitAlloc := [] })

/-- A handover whose HANDOVER may not have arrived (R229): the old home has given up the role. Its command ends. -/
def failHanding (s : State) : State :=
  s.regionIds.foldl (fun s r =>
    let v := s.rt r
    match v.handing with
    | none => s
    | some w =>
      let s1 := (s.setRt r { v with handing := none }).fenceWaited r
      match w with
      | some (c, t) => s1.complete c t .twinUnavailable []
      | none => s1) s

/-- The link is declared lost (R216 to R218): the session ends; a region whose home is the twin, or that has none, is fenced; the home of a
region holds its writes and marks the setts of its uncovered entries. -/
def declareLoss (s : State) : State :=
  if s.twin.pair != .paired then (if s.twin.pair == .attesting then (s.endSession.setPair .lost).judgeTdm else s)
  else
    let s1 := ((s.bump Reg.TDM_LOSS_CNT 0 31 0).setPair .lost).failHanding.endSession
    let s2 := s1.setTwin { s1.twin with fenceWait := true, strictWait := true }
    let s3 := s2.regionIds.foldl (fun s r =>
      let v := s.rt r
      if v.home then
        if v.solo then s
        else
          let s1 := (s.bench.orders.filter fun o => o.mine && o.w.region == r && !o.mirrored).foldl
            (fun s o => s.markSett r (o.w.rline / 256)) s
          s1.putRt r { s1.rt r with held := true }
      else s.fenceRegion r) s2
    (s3.failForwarded.failAlloc).settle

/-- DETACH has arrived, or a solo run without a witness begins everywhere (R230): every region runs solo at once. -/
def soloAll (s : State) : State := s.regionIds.foldl (fun s r => s.goSolo r) s

/-! ### Witness commands (R220 to R222) -/

/-- A region opened without pairing clears AWAIT_TWIN on its lines, which stay lost (R199). -/
def clearAwaits (s : State) (r : Nat) : State :=
  s.setBench { s.bench with awaits := s.bench.awaits.filter fun x => (s.rlineOf x).1 != r }

/-- Opens a region on this controller without the twin (R20, R199, R225): its copy counts as current from here on, and a suspect or
unfilled copy is recorded. -/
def openSolo (s : State) (r : Nat) : State :=
  let s := s.setRegion r { s.region r with opening := false }
  let s1 := if (s.rt r).valid then s else s.deviceRecord 286 (BitVec.ofNat 32 r)
  let s2 := s1.clearAwaits r
  (s2.goSolo r).putRt r { (s2.goSolo r).rt r with opened := true, valid := true, fenced := false, target := false, source := false }

/-- SOLO of one region (R220). -/
def soloRegion (s : State) (r : Nat) : State := s.openSolo r

/-- TAKEOVER of one region (R221): TERM + 1, home here, the ROS from the last entry applied. -/
def takeoverRegion (s : State) (r : Nat) : State :=
  let v := s.rt r
  let s1 := s.putRt r { v with term := v.term + 1, home := true, noHome := false, fenced := false }
  (s1.openSolo r).cause Reg.TDM_CAUSE 0 13 245

/-! ### Moving the home role (R229, R230) -/

/-- Sends HANDOVER for the regions whose writes are held for it and all covered (R229): from that moment this controller is not home. -/
def handovers (s : State) : State :=
  if !s.paired then s
  else s.regionIds.foldl (fun s r =>
    let v := s.rt r
    if v.handing.isSome && v.home && !(s.bench.orders.any fun o => o.mine && o.w.region == r) then
      (s.putRt r { v with home := false }).tsend false (.control (.handover r (v.term + 1) v.ros))
    else s) s

/-- The last step of DETACH (R230): every home has moved, so every region is fenced here and the twin is told. -/
def detachEnd (s : State) : State :=
  if s.twin.detaching && !(s.regionIds.any fun r => (s.rt r).home) && s.paired then
    let s1 := s.regionIds.foldl (fun s r => s.fenceRegion r) s
    let s2 := ((s1.tsend false (.control .detach)).setPair .detached).endSession
    let s3 := s2.setTwin { s2.twin with detaching := false, detachFor := none, leaving := none, joined := false }
    let s4 := s3.failForwarded
    match s.twin.detachFor with
    | some (c, t) => s4.complete c t .ok []
    | none => s4
  else s

/-- Starts DETACH on a PAIRED controller (R230). A region that runs solo here because it is UNFIT on the twin cannot move and is fenced
with the others. -/
def detachStart (s : State) (who : Option (Fin 64 × BitVec 16)) : State :=
  let s1 := s.setTwin { s.twin with detaching := true, detachFor := who }
  let s2 := s1.regionIds.foldl (fun s r =>
    let v := s.rt r
    if v.home && v.handing.isNone then
      if v.twinUnfit then s.putRt r { v with home := false, noHome := true } else s.setRt r { v with handing := some none }
    else s) s1
  s2.handovers.detachEnd

/-- The pair parks once both controllers leave and every entry ordered here is covered (R231). -/
def parkCheck (s : State) : State :=
  if s.paired && s.twin.leaving.isSome && s.twin.peerLeaving && !(s.bench.orders.any fun o => o.mine) then
    (s.setTwin { s.twin with parkedSession := s.twin.session }).setPair .parked
  else s

/-- Settling with what the twin's answers allow. -/
def settleTwin (s : State) : State := s.settle.handovers.detachEnd.parkCheck.judgeTdm

/-- The leave exchange starts (R231): LEAVING goes out; with the twin's already here the pair parks. -/
def startLeave (s : State) (trigger : Nat) : State :=
  if s.paired then
    ((s.setTwin { s.twin with leaving := some trigger }).tsend false (.control (.leaving trigger))).parkCheck
  else s

/-! ### Pairing and comparison (R211, R225) -/

/-- The state of a region as REGION_STATE carries it (Table 9-8). -/
def regionCompare (s : State) (r : Nat) : RegionCompare :=
  let v := s.rt r
  { term := v.term, ros := v.ros, home := v.home, valid := v.valid && !v.unfit, map := !v.marks.isEmpty, attrVer := v.attrVer
    extents := s.xlt.extents, marksTermLow := decide (v.marksTerm < v.term) }

/-- The role R225 gives this controller for a region: some true source, some false target, none for neither; with whether the
resync is full. -/
def roleOf (me peer : RegionCompare) : Option (Bool × Bool) :=
  if me.valid && peer.valid then
    if me.term = peer.term ∧ me.ros = peer.ros then
      if me.map || peer.map then some (me.home, false) else none
    else some (decide (peer.term < me.term ∨ (peer.term = me.term ∧ peer.ros < me.ros)), false)
  else if me.valid then some (true, true)
  else if peer.valid then some (false, true)
  else none

/-- This controller is side 0: its identity hash is the lower, or it is unbound (R239). -/
def side0 (s : State) : Bool :=
  match s.twin.binding with
  | none => true
  | some h => decide (s.twin.ownHash < h)

/-- Asks the twin for the AWAIT_TWIN lines of a region before it opens (R199). Answers whether any is asked for. -/
def askAwaits (s : State) (r : Nat) : State × Bool :=
  let xs := s.bench.awaits.filter fun x => (s.rlineOf x).1 == r
  (xs.foldl (fun s x => s.assistAsk .await r x 1) s, !xs.isEmpty)

/-- A region's outcome at step 5 of Table 9-5: it opens in sync, or a resync starts (R225 to R228). `peerMarks` are the marks of the
twin's map. -/
def regionPaired (s : State) (r : Nat) (peerMarks : List Nat) : State :=
  let s := s.setRegion r { s.region r with opening := false }
  let v := s.rt r
  match v.compared with
  | none => s
  | some c =>
    let me := s.regionCompare r
    let clean : RTwin := { v with solo := false, held := false, strictRefuse := false, fenced := false, source := false, target := false, handing := none }
    match roleOf me c with
    | none =>
      if me.valid then
        let s1 := s.putRt r { clean with opened := true }
        let (s2, wait) := s1.askAwaits r
        if wait then s2.setRt r { s2.rt r with opened := false } else s2
      else s.putRt r { clean with opened := false }
    | some (true, full) =>
      let todo := if full then s.settsOf r (fun n => s.allocated n) else (v.marks ++ peerMarks).dedup
      let s1 := if !full && c.map && c.marksTermLow && decide (c.term < me.term) then s.cause Reg.TDM_CAUSE 0 10 242 else s
      let fit := c.extents
      let unfit := (s1.region r).extents.any fun e => decide (fit ≤ e)
      if unfit then (s1.putRt r { clean with opened := true, home := true, twinUnfit := true }).goSolo r
      else
        let s2 := s1.putRt r { clean with opened := true, source := true, todo := todo }
        let k := s2.keySlot r
        let s3 := s2.tsend (r % 2 == 1) (.control (.regionAttr r v.ros v.attrVer {
          record := s2.region r, share := k.shareRequired, keyId := if k.state == .active && k.loaded then some k.key else none
          binds := some (s2.regionBinds r) }))
        (s3.askAwaits r).1
    | some (false, full) =>
      let div := !full && decide (v.marksTerm < c.term ∧ v.marks ≠ [])
      let s1 := if div then v.marks.foldl (fun s i => s.deviceRecord 242 (BitVec.ofNat 32 (r * 65536 + i))) (s.cause Reg.TDM_CAUSE 0 10 242) else s
      if v.unfit then s1.putRt r { clean with opened := false, home := false }
      else s1.putRt r { clean with
        target := true, opened := false, term := c.term, ros := c.ros
        home := if c.term = me.term then v.home && !c.home else false, noHome := false }

/-- Every valid region has been compared and planned. -/
def allPlanned (s : State) : Bool := s.regionIds.all fun r => (s.rt r).planned && (s.rt r).compared.isSome

/-- Pairing completes (Table 9-5 step 5). A target with nothing to commit answers RESYNC_DONE at once. -/
def pairComplete (s : State) : State :=
  let s1 := s.setPair .paired
  let s2 := s1.regionIds.foldl (fun s r => s.regionPaired r (s.rt r).todo) s1
  (s2.setTwin { s2.twin with fenceWait := false, strictWait := false, leaving := none, peerLeaving := false, joined := true }).settleTwin

/-- A region's marks are cleared, and their records journaled (R227). -/
def clearMarks (s : State) (r : Nat) : State :=
  let v := s.rt r
  v.marks.foldl (fun s i => s.journal (.resync r i)) (s.putRt r { v with marks := [] })

/-- A target region has committed every sett (R227): RESYNC_DONE goes out, the marks clear, and the region opens. -/
def targetDone (s : State) (r : Nat) : State :=
  let v := s.rt r
  if v.target && v.left = 0 && s.paired then
    let s1 := ((s.putRt r { v with target := false, valid := true, opened := true }).clearMarks r).tsend false (.control (.resyncDone r))
    ((s1.clearAwaits r).cause Reg.TDM_CAUSE 0 12 244).judgeTdm
  else s

/-- One sett of a target has committed, or was released (R227). -/
def targetSett (s : State) (r : Nat) : State :=
  let v := s.rt r
  if v.target then ((s.setRt r { v with left := v.left - 1 }).targetDone r) else s

/-- Starts the whole-sett program of a sett under resync, without feeding lines: they come from the source (R226). -/
def resyncStart (s : State) (n : Nat) (m : Mode) : State :=
  match s.ownerOf n with
  | none => s
  | some (r, i) =>
    let e := s.sett n
    let dest := match e.phys with
      | some p => if s.outsideReserve m then s.chanSlot (dieChan p.die) m (fun _ _ => true) (fun _ => false) else none
      | none => s.placeSett r i m
    match dest with
    | none => s
    | some p =>
      let (s1, lr) := ((s.endPromotion n).takeSlot p m).1.drawLrot e
      let s2 := s1.putSett n { s1.sett n with mig := .rebuild }
      s2.setYrw { s2.med.yarrow with moves := s2.med.yarrow.moves ++ [{
        lsett := n, kind := .resync, dest := some p, mode := m, lrot := lr }] }

/-- Applies one RESYNC entry at its stamp's place (R226). Answers `false` where it must wait. A line already taken is only acknowledged
(R208). -/
def resyncApply (s : State) (e : WEntry) : State × Bool :=
  let r := e.region
  let ack (s : State) : State := s.tsend (r % 2 == 1) (.ack s.dirtyLines s.med.yarrow.cap [.mirrorDone r e.ros])
  let n := lineSett e.line
  if !(s.rt r).target then (s, true)
  else if (s.rt r).ros < e.ros then (s, false)
  else if e.unalloc then (ack ((s.releaseSett n).targetSett r), true)
  else
    let s0 := if (s.move n).isSome then s else if (s.sett n).mig == .idle || (s.sett n).mig == .promoting then
      s.resyncStart n (if e.mode = .none then (s.region r).mode else e.mode) else s
    match s0.move n with
    | none => (s0, false)
    | some m =>
      if m.read.getLsbD (lineIdx e.line) then (ack s0, true)
      else
        let d := if e.zero then 0 else e.data
        let s1 := match s0.bline e.line with
          | some b =>
            let newer := decide (e.ros < (s0.rt r).ros) && isDirty b
            (s0.setBline e.line (some { b with
              state := .dirty, valid := BitVec.allOnes 256, data := if newer then overlay b.valid b.data d else d })).notePartial e.line
          | none => s0
        let d1 := match s1.bline e.line with
          | some b => b.data
          | none => d
        (ack (s1.moveProgram m (lineIdx e.line) d1), true)

/-- Held RESYNC entries that may be applied now are. -/
def resyncHeld (s : State) : State :=
  let es := s.twin.rsHeld
  es.foldl (fun s p => match s.resyncApply p.1 with
    | (s1, true) => s1
    | (s1, false) => s1.setTwin { s1.twin with rsHeld := s1.twin.rsHeld ++ [p] }) (s.setTwin { s.twin with rsHeld := [] })

/-! ### Region attributes in the order (R214, R238) -/

/-- A region is gone (R239, R306): its setts and extents are released, its key slot is EMPTY, its windows are invalid, and its objects, grants
and bindings whose decoder is not committed go with it. -/
def regionGone (s : State) (r : Nat) : State :=
  let s1 := (s.settsOf r fun _ => true).foldl (fun s i => match s.settOf r i with
    | some n => s.releaseSett n
    | none => s) s
  let held (k : Nat) : Bool := (Tab.get {} (Tab.get ({} : Ld) s1.cxl.lds (k / 4)).decoders (k % 4)).committed
  let s2 := { s1 with
    rdma := { s1.rdma with wins := s1.rdma.wins.filter fun w => !(w.2.any fun (v : MemWin) => v.region == r) }
    sec := { s1.sec with slots := Tab.erase s1.sec.slots r }
    chans := Tab.mapVals {} (fun _ c => { c with grants := c.grants.filter fun g => g.1 != r }) s1.chans
    cxl := { s1.cxl with bindings := s1.cxl.bindings.filter fun b => held b.1 || (match b.2 with
      | some (.region q _ _) => q != r
      | _ => true) } }
  let s3 := s2.setXlt { s2.xlt with objects := s2.xlt.objects.filter fun o => o.2.region != r }
  (((s3.setRegion r {}).setRt r {}).journal (.region r)).nvWrite (Config.nvKeySlot r) (keySlotRecord r {})

/-- Inserts into a rising list. -/
def insertNat (k : Nat) : List Nat → List Nat
  | [] => [k]
  | j :: t => if k ≤ j then k :: j :: t else j :: insertNat k t

/-- Queues the setts of a region whose mode is not its conversion's target, by ascending logical sett (R148). -/
def convQueue (s : State) (r : Nat) : State :=
  match (s.region r).conv with
  | none => s
  | some c =>
    let mine := (s.med.setts.filter fun p => p.2.mode != .none && p.2.mode != c.target && (s.ownerOf p.1).any fun o => o.1 == r).map Prod.fst
    (mine.foldr insertNat []).foldl (fun (s : State) n =>
      let y := s.med.yarrow
      if y.queue.any fun w => w.lsett == n && w.kind == .convert c.target then s
      else s.setMed { s.med with yarrow := { y with queue := y.queue ++ [{ lsett := n, kind := .convert c.target }] } }) s

/-- The key of a region is in the store: its sealed lines are decrypted in place (R379). -/
def keyIn (s : State) (r : Nat) (key : Nat) : State :=
  { s with sec := { s.sec with
    slots := Tab.put {} s.sec.slots r { s.keySlot r with state := .active, key := key, loaded := true, locking := false }
    sealed := s.sec.sealed.filter fun x => (s.rlineOf x).1 != r } }

/-- Releases a region's setts from `size` on (R239). -/
def shrinkSetts (s : State) (r size : Nat) : State :=
  ((s.settsOf r fun _ => true).filter fun i => decide (size ≤ i)).foldl (fun s i => match s.settOf r i with
    | some n => s.releaseSett n
    | none => s) s

/-- The twin crypto-erases a region (R380): its key goes and every sett is released; its new key comes in a REGION_ATTR, or at its first
unlock. -/
def eraseHere (s : State) (r : Nat) : State :=
  let k := s.keySlot r
  let s1 := s.shrinkSetts r 0
  { s1 with sec := { s1.sec with
    slots := Tab.put {} s1.sec.slots r { k with
      state := if k.shareRequired then .awaitingShare else .erasing, loaded := false, locking := false, key := 0 }
    sealed := s1.sec.sealed.filter fun x => (s1.rlineOf x).1 != r } }

/-- The LD's CDAT is rebuilt (R285). -/
def cdatAdvance (s : State) (l : Nat) : State :=
  let d := Tab.get ({} : Ld) s.cxl.lds l
  { s with cxl := { s.cxl with lds := Tab.put {} s.cxl.lds l { d with cdat := d.cdat + 1 } } }

/-- The words of a binding's NV record. -/
def bindWords : Option BindTo → List Nat
  | some (.region q o n) => [1, q, o, n]
  | some .staging => [2]
  | none => [0]

/-- Replaces the binding of decoder number `k` (R276), in the NV store too; the LD's CDAT is rebuilt (R285). -/
def putBinding (s : State) (k : Nat) (v : Option BindTo) : State :=
  (({ s with cxl := { s.cxl with bindings := Tab.put none s.cxl.bindings k v } }).nvWrite (Config.nvBinding k) (bindWords v)).cdatAdvance (k / 4)

/-- Decoder number `k` is committed. -/
def decoderHeld (s : State) (k : Nat) : Bool := (Tab.get {} (Tab.get ({} : Ld) s.cxl.lds (k / 4)).decoders (k % 4)).committed

/-- The bindings of a region become those its attributes name (R276): they are the same on both controllers of a pair. One whose decoder is
committed here stays as it is (log 142). -/
def takeBinds (s : State) (r : Nat) (bs : List (Nat × BindTo)) : State :=
  let gone := (s.regionBinds r).filter fun b => !(bs.any fun x => x.1 == b.1)
  let s1 := gone.foldl (fun s b => if s.decoderHeld b.1 then s else s.putBinding b.1 none) s
  bs.foldl (fun s b => if Tab.get none s.cxl.bindings b.1 == some b.2 || s.decoderHeld b.1 then s else s.putBinding b.1 (some b.2)) s1

/-- Applies the attributes of a region (R238): its record, its bindings, its key, its lock, its deletion, the RED point of R145, and GENs advanced. -/
def applyAttr (s : State) (r : Nat) (ver : Word) (a : RegionAttr) : State :=
  if a.deleted then s.regionGone r
  else
    let old := s.region r
    let gone := old.extents.filter fun e => !a.record.extents.contains e
    let s1 := gone.foldl (fun s e => ((s.med.setts.map Prod.fst).filter fun n => n / 16384 == e).foldl (fun s n => s.releaseSett n) s) s
    let s1 := if a.record.size < old.size then s1.shrinkSetts r a.record.size else s1
    let s2 := (s1.setRegion r { a.record with opening := false }).journal (.region r)
    let s3 := a.gens.foldl (fun s g =>
      let s1 := (((s.moveAbandon g.1 false).endPromotion g.1).dropSett g.1).forgetQueued g.1
      (s1.putSett g.1 { s1.sett g.1 with gen := BitVec.ofNat 24 g.2 }).lossFree g.1) s2
    let s3 := if old.valid then s3
      else { s3 with sec := { s3.sec with slots := Tab.put {} s3.sec.slots r {
        state := if a.share then .awaitingShare else .empty, shareRequired := a.share } } }
    let s3 := if a.erase then s3.eraseHere r else s3
    let s4 := match a.keyId with
      | some id => s3.keyIn r id
      | none => s3
    let s5 := if a.lock then { s4 with sec := { s4.sec with slots := Tab.put {} s4.sec.slots r { s4.keySlot r with locking := true } } } else s4
    let s5 := if a.record.conv = old.conv then s5 else s5.convQueue r
    let s5 := match a.binds with
      | some bs => s5.takeBinds r bs
      | none => s5
    let v := s5.rt r
    s5.putRt r { v with attrVer := ver, red := a.red.getD v.red, opened := v.opened || (!old.valid && s.paired) }

/-- Attributes whose place in their region's order has come are applied (R214). -/
def takeAttrs (s : State) : Nat → State
  | 0 => s
  | f + 1 =>
    match s.twin.attrs.find? fun a => decide (a.2.1 ≤ (s.rt a.1).ros + 1) && !(s.bench.orders.any fun o => !o.mine && o.w.region == a.1) with
    | none => s
    | some a =>
      let s1 := s.setTwin { s.twin with attrs := s.twin.attrs.erase a }
      let s2 := s1.applyAttr a.1 a.2.2.1 a.2.2.2
      let s3 := if a.2.1 = (s2.rt a.1).ros + 1 then s2.putRt a.1 { s2.rt a.1 with ros := a.2.1 } else s2
      (s3.tsend (a.1 % 2 == 1) (.ack s3.dirtyLines s3.med.yarrow.cap [.mirrorDone a.1 a.2.1])).takeAttrs f

/-- Changes a region's attributes at a ROS of their own and tells the twin (R214, R238). Away from the home they go at the last ROS applied
there. -/
def sendAttr (s : State) (r : Nat) (a : RegionAttr) : State :=
  let v := s.rt r
  let ros := if v.home then v.ros + 1 else v.ros
  let s1 := s.putRt r { v with ros := ros, attrVer := v.attrVer + 1 }
  if s.paired then s1.tsend (r % 2 == 1) (.control (.regionAttr r ros (v.attrVer + 1) { a with binds := some (s.regionBinds r) })) else s1

/-- A new region's key is drawn by its home (R372, R374, R469): the slot is ACTIVE, or AWAITING_SHARE where the region needs a share. Answers
the key. -/
def keyDraw (s : State) (r : Nat) (share : Bool) : State × Nat :=
  let id := s.sec.nextKey
  let k : KeySlot := { state := if share then .awaitingShare else .active, shareRequired := share, key := id, loaded := !share }
  (({ s with sec := { s.sec with nextKey := id + 1, slots := Tab.put {} s.sec.slots r k } }).nvWrite (Config.nvKeySlot r) (keySlotRecord r k), id)

/-- The home of a new region draws its key once it holds the record, and the region waits for the twin to hold the key (R469). -/
def drawMissing (s : State) (r : Nat) : State :=
  let k := s.keySlot r
  if (s.region r).valid && (s.rt r).home && k.key == 0 && k.state != .erasing then
    let (s1, id) := s.keyDraw r k.shareRequired
    let s2 := s1.setRegion r { s1.region r with opening := s1.paired }
    s2.sendAttr r { record := { s2.region r with opening := false }, share := k.shareRequired, keyId := if k.shareRequired then none else some id }
  else s

/-- A home applies RED at a point in each region's order (R145, R146): the worse state of the pair, told to the twin with the region's attributes. -/
def judgeRed (s : State) : State :=
  let want := s.pairCap == .red
  s.regionIds.foldl (fun s r =>
    let v := s.rt r
    if v.home && v.red != want then (s.setRt r { v with red := want }).sendAttr r { record := s.region r, red := some want } else s) s

/-! ### The ports (R203, R206, R209) -/

/-- The bit of TDM_CTRL that enables a port. -/
def portEn (p : Bool) : Nat := if p then 2 else 1

/-- A frame's first checks (R206, R209). Answers whether it is accepted: a stale, foreign or malformed frame is counted and discarded; a
failed tag takes the port to a full retrain and its keys to replacement, and three within 1 s take it DOWN until the next pairing. -/
def acceptFrame (s : State) (p : Bool) (f : TFrame) : State × Bool :=
  let v := s.tport p
  if !s.psq.mainUp || !s.bit Reg.TDM_CTRL 0 0 || !s.bit Reg.TDM_CTRL 0 (portEn p) || v.st != .up then (s, false)
  else if s.twin.pair != .paired && s.twin.pair != .attesting then (s, false)
  else if !f.shapeOk || f.session = 0 || f.session ≠ s.twin.session || f.fseq ≤ v.fseqRx then (s.bump Reg.TDM_DROP_CNT 0 31 0, false)
  else if !f.tagOk || (f.phase != v.phaseRx && !v.oldKey) then
    let again := decide (s.tally.now.toNat ≤ v.failAt.toNat + secUnits) && decide (0 < v.fails)
    let n := if again then v.fails + 1 else 1
    let s1 := (s.bump Reg.TDM_AUTH_CNT 0 31 0).cause Reg.TDM_CAUSE 0 9 241
    let down := decide (3 ≤ n)
    let v1 : TPort := { v with
      fails := n, failAt := if again then v.failAt else s.tally.now, st := if down then .down else .full, barred := down
      unacked := 0, replays := 0, fastTried := 0 }
    let s2 := (s1.setTport p v1).bump Reg.TDM_RETRAIN 0 (if p then 15 else 7) (if p then 8 else 0)
    ((s2.emit (.tandemRetrain p true)).judgeTdm, false)
  else
    let owed := v.rxOwed + 1
    let v1 := { v with fseqRx := f.fseq, rxSeq := v.rxSeq + 1, rxOwed := if 32 ≤ owed then 0 else owed, nak := false }
    let s1 := s.setTport p v1
    (if 32 ≤ owed then s1.emit (.tandemAck p v.rxSeq) else s1, true)

/-- Sends again what port `p` carried and no ACK covers (R208): the entries whose own port it is, and those of the other one while that is not up. -/
def resendPort (s : State) (p : Bool) : State :=
  let mine (q : Bool) : Bool := q == p || (s.tport (!p)).st != .up
  let es := s.bench.orders.filter fun o => o.mine && !o.mirrored && mine (o.w.region % 2 == 1)
  let s1 := es.foldl (fun s o => s.tsend (o.w.region % 2 == 1) (.mirror [mirrorEntry o])) s
  let fs := s1.bench.forwarded.filter fun f => !s1.bench.frame.contains f.ftag && mine false
  let s2 := fs.foldl (fun s f => s.tsend false (.forward [{
    ros := 0, region := f.w.region, ftag := f.ftag, stream := streamHashOf f.w.str, line := f.w.line, mask := f.w.mask, data := f.w.data }])) s1
  let s3 := (s2.twin.rsSent.filter fun e => mine (e.1.region % 2 == 1)).foldl (fun s e => s.tsend (e.1.region % 2 == 1) (.resync [e.1] e.2)) s2
  if mine false then s3.twin.assists.foldl (fun s a => s.tsend false (.assistReq a.rtag a.region a.line a.count)) s3 else s3

end State

end Sys2Proof.Machine
end

