-- ==== Sys2Proof/Machine/RegionOps.lean ====
section
/-! DEFINITION. Operations on whole regions: reading a sett as zero (R155), crypto-erase (R380), bindings and windows that cover a range
(R279, R288), and the health of the device (Table 11-7). -/

namespace Sys2Proof.Machine

namespace State

/-- Makes a sett read zero (R155): GEN advances with the slot, band and young map kept; at 0xFF_FFFF the sett is released instead. Its
promotion and other work end first (R240), its copies in Bench 0 go, and its lost lines are whole again. -/
def zeroSett (s : State) (n : Nat) : State :=
  let e := s.sett n
  if e.mode == .none || e.gen == 0xFFFFFF#24 then s.releaseSett n
  else
    let s1 := (((s.moveAbandon n false).endPromotion n).dropSett n).forgetQueued n
    (s1.putSett n { s1.sett n with gen := nextGen e.gen }).lossFree n

/-- The region setts of a region that hold anything. -/
def liveSetts (s : State) (r : Nat) : List Nat := s.settsOf r fun n => s.allocated n

/-- Replaces the key slot of region `r`, in both copies (R372). -/
def setKeySlot (s : State) (r : Nat) (k : KeySlot) : State :=
  ({ s with sec := { s.sec with slots := Tab.put {} s.sec.slots r k } }).nvWrite (Config.nvKeySlot r) (keySlotRecord r k)

/-- Steps 1 and 2 of Table 15-5: the region closes at its own ROS, and its key is gone. -/
def eraseBegin (s : State) (r : Nat) : State :=
  let k := s.keySlot r
  if k.state = .erasing then s
  else (s.sendAttr r { record := s.region r, erase := true }).setKeySlot r {
    k with state := .erasing, loaded := false, locking := false, key := 0, eraseStep := 2 }

/-- Steps 3 to 5 of Table 15-5: the region's lines are invalidated without write-back, every sett is released, and a new key is drawn. -/
def eraseEnd (s : State) (r : Nat) : State :=
  let k := s.keySlot r
  if k.state ≠ .erasing then s
  else
    let s1 := (s.settsOf r fun _ => true).foldl (fun s i => match s.settOf r i with
      | some n => s.releaseSett n
      | none => s) s
    let id := s1.sec.nextKey
    let s2 := { s1 with sec := { s1.sec with nextKey := id + 1 } }
    let s3 := s2.setKeySlot r { k with
      state := if k.shareRequired then .awaitingShare else .active, key := id, loaded := !k.shareRequired, eraseStep := 0 }
    (if k.shareRequired then s3 else s3.sendAttr r { record := s3.region r, keyId := some id }).settle

/-- The bindings of region `r`: LD number (port × 16 + LD), decoder, ROFS and LEN. -/
def bindingsOf (s : State) (r : Nat) : List (Nat × Nat × Nat × Nat) :=
  s.cxl.bindings.filterMap fun p => match p.2 with
    | some (.region q o l) => if q == r then some (p.1 / 4, p.1 % 4, o, l) else none
    | _ => none

/-- Some memory window covers a byte of the range of a region. -/
def windowCovers (s : State) (r off len : Nat) : Bool :=
  s.rdma.wins.any fun p => match p.2 with
    | some w => w.region == r && decide (w.rofs < off + len ∧ off < w.rofs + w.len)
    | none => false

/-- The DC extents of every LD on a region: LD number, offset, length. -/
def extentsOn (s : State) (r : Nat) : List (Nat × Nat × Nat) :=
  s.cxl.lds.flatMap fun p => p.2.extents.filterMap fun e =>
    if Tab.get none p.2.dcMap e.dc.val == some r then some (p.1, e.off, e.len) else none

/-- An LD reaches a region by a binding. -/
def ldReaches (s : State) (l r : Nat) : Bool := (s.bindingsOf r).any fun b => b.1 == l

/-- The number of an LD over all ports. -/
def ldNo (p : Fin 4) (l : Fin 16) : Nat := p.val * 16 + l.val

/-- The FM-owned LD (R273). -/
def fmOwned (s : State) (p : Fin 4) (l : Fin 16) : Bool :=
  s.fld Reg.CXL_CFG 0 3 2 == p.val && l.val == (if (s.cport p).mld then 15 else 0)

/-- The LD exists on its port (R273). -/
def ldThere (s : State) (p : Fin 4) (l : Fin 16) : Bool := s.fmOwned p l || decide (l.val < (s.cport p).lds)

/-- Health Status (Table 11-7): bit 0 Maintenance Needed in AMBER, bit 1 Performance Degraded while a channel that carries packages is not
ACTIVE or a die is failed, bit 2 Hardware Replacement Needed in RED. -/
def healthNow (s : State) : Nat :=
  let c := s.med.yarrow.cap
  let bad := (s.med.chans.any fun p => (p.2.pkg0 != 0 || p.2.pkg1 != 0) && p.2.lstate != .active && p.2.lstate != .sleep) ||
    s.med.dies.any fun p => p.2.failed
  (c == .amber).toNat + 2 * bad.toNat + 4 * (c == .red).toNat

/-- A record in the Informational log of every LD of every port (R289). -/
def ldRecordAll (s : State) (what : LdEvent) : State :=
  (List.finRange 4).foldl (fun s p =>
    ((List.finRange 16).filter fun l => s.ldThere p l && (s.cport p).st != .disabled).foldl (fun s l => s.ldRecord p l .info what 0) s) s

/-- A change of Health Status is recorded (R289). -/
def noteHealth (s : State) : State :=
  let h := s.healthNow
  if h = s.cxl.health then s else ({ s with cxl := { s.cxl with health := h } }).ldRecordAll .healthStatus

end State

end Sys2Proof.Machine
end

