-- ==== Sys2Proof/Machine/CxlOps.lean ====
section
/-! DEFINITION. CXL requests (chapter 11): decoding an address (R276, R277), the staging range (R358), bench view (R264, R265), the outcomes of
Table 11-3, and the level causes of the ports. -/

namespace Sys2Proof.Machine

/-- Where an accepted request lands. -/
inductive Landing where
  | region (r off : Nat)
  | staging (off : Nat)
  | bench (off : Nat)
  | nowhere
  deriving DecidableEq, Repr

/-- CAUSE of TOP_BUSERR_INFO (Table 2-3). -/
inductive BusCause where
  | unimplemented | writeRo | aliasNotAllowed | badSize | poweredOff
  deriving DecidableEq, Repr

/-- The value of a bus error cause (Table 2-3). -/
def BusCause.code : BusCause → Nat
  | .unimplemented => 0
  | .writeRo => 1
  | .aliasNotAllowed => 2
  | .badSize => 3
  | .poweredOff => 4

namespace State

/-- The port exists under its committed configuration (R268): ports 1 and 3 only with their group split. -/
def portThere (s : State) (p : Fin 4) : Bool :=
  p.val % 2 == 0 || (s.cport p).cfg.getLsbD (p.val / 2)

/-- The ports take host traffic: the main domain is up, and no drain has stopped ingress (Table 8-5). -/
def ingressOpen (s : State) : Bool := s.hostsMay && s.bench.domain != .draining && s.bench.domain != .drained

/-- A port in L0, or in L1 from which a request wakes it, whose CXL.mem stream is not insecure (R284). -/
def portTakes (s : State) (p : Fin 4) : Bool :=
  s.ingressOpen && ((s.cport p).st == .l0 || (s.cport p).st == .l1) && !(s.cport p).insecure

/-- A request wakes the device and its port. -/
def portWake (s : State) (p : Fin 4) : State :=
  let s1 := s.wakeIdle
  if (s1.cport p).st == .l1 then s1.setCport p { s1.cport p with st := .l0 } else s1

/-- The channel assigned to an LD. -/
def chanOfLd (s : State) (p : Fin 4) (l : Fin 16) : Option (Fin 64) := (List.finRange 64).find? fun c => (s.chan c).who == .cxl p l

/-- Resolves the target of a request of an LD (R264, R276, R277, R358). -/
def landing (s : State) (p : Fin 4) (l : Fin 16) (t : CxlTarget) : Landing :=
  match t with
  | .benchView off => if s.xlt.bvOpen && s.fmOwned p l then .bench off else .nowhere
  | .hpa a =>
    let d := s.ld p l
    match (List.range 4).find? fun b =>
        let v := Tab.get ({} : Decoder) d.decoders b
        v.committed && decide (v.base ≤ a ∧ a < v.base + v.size) with
    | none => .nowhere
    | some b =>
      let v := Tab.get ({} : Decoder) d.decoders b
      match Tab.get (none : Option BindTo) s.cxl.bindings (ldNo p l * 4 + b) with
      | some (.region r rofs len) => if a - v.base < len then .region r (rofs + (a - v.base)) else .nowhere
      | some .staging => .staging (a - v.base)
      | none => .nowhere

/-- All-ones data with poison, without a count: an address that nothing claims. -/
def cxlNothing (s : State) (p : Fin 4) (l : Fin 16) (tag : Nat) : State := s.emit (.memData p l tag (BitVec.allOnes 512) true)

/-- The IDE requirement of a port is not met (Table 11-3). -/
def ideMissing (s : State) (p : Fin 4) : Bool := s.bit Reg.CXL_CTRL 0 4 && !(s.cport p).ideMem

/-! ### Bench view (Table 10-10) -/

/-- The line at Bench 0 place `k`, with its tag. -/
def placeAt (s : State) (k : Nat) : Option (Nat × BLine) :=
  s.bench.lines.findSome? fun p => match p.2 with
    | some b => if s.setOf p.1 == k / 16 && b.way == k % 16 then some (p.1, b) else none
    | none => none

/-- The slot of a stream buffer at Bench 0 place `k` (R173): way 15 of sets 0 to 4,095, buffer by buffer. -/
def bufferAt (s : State) (k : Nat) : Option (Nat × ScbSlot) :=
  if k % 16 = 15 ∧ k / 16 < 4096 then
    match s.bench.scbs[k / 16 / 64]? with
    | some b => (b.slots[k / 16 % 64]?).map fun x => (b.lsett, x)
    | none => none
  else none

/-- The tag word of a cache line (Table 8-2). -/
def tagWord (x : Nat) (b : BLine) : BitVec 64 :=
  let st := match b.state with
    | .clean => 1
    | .dirty => 2
    | .filling => 3
    | .wb => 4
  BitVec.ofNat 64 (b.pf.toNat * 2 ^ 44 + (isPartial b).toNat * 2 ^ 43 + b.redirty.toNat * 2 ^ 42 + st * 2 ^ 39 + lineIdx x * 2 ^ 31 + lineSett x)

/-- Tags are visible and lines are plaintext only in TEST and MAKER (Table 15-7). -/
def plainView (s : State) : Bool := s.life == .test || s.life == .maker

/-- A raw medium read: the line is sensed with the view's reference set and its DATA returned after hard decode (R265). -/
def rawSense (s : State) (addr : Nat) : State :=
  let ph := physOf (addr / 65536)
  s.issue ph.die {
    op := .read, die := 0, zone := ph.zone, slot := ph.slot, line := addr / 256 % 256, refset := s.xlt.bvRefset
    mode := (s.zone ph.die ph.zone).mode, user := .raw }

/-- A 64 B read through bench view. Answers the chunk, none where it waits for the medium, or nothing where the place does not exist. -/
def benchRead (s : State) (who : Origin) (off : Nat) : State × Option (Option Chunk) :=
  if off < 48 * 2 ^ 20 then
    let k := off / 256
    let d : Line := if s.plainView then (match s.placeAt k, s.bufferAt k with
      | some q, _ => q.2.data
      | none, some q => q.2.data
      | none, none => 0) else 0
    (s, some (some (chunkAt d (off / 64 % 4))))
  else if 0x4000000 ≤ off ∧ off < 0x4000000 + 3 * 2 ^ 19 then
    let k0 := (off - 0x4000000) / 8
    (s, some (some ((List.range 8).foldl (fun (a : Chunk) i => match s.placeAt (k0 + i) with
      | some q => a ||| ((tagWord q.1 q.2).setWidth 512 <<< (64 * i))
      | none => a) 0)))
  else if 0x20000000000 ≤ off ∧ off < 0x40000000000 then
    let a := off - 0x20000000000
    if (s.benchRank a).isSome then let q := s.rawDramGet a; (q.1, some (some q.2)) else (s, none)
  else if 0x1000000000000 ≤ off ∧ off < 0x2000000000000 then
    let a := off - 0x1000000000000
    if s.dieUp (physOf (a / 65536)).die then
      let s1 := s.setXlt { s.xlt with rawReads := s.xlt.rawReads ++ [{ who := who, addr := a / 256 * 256, chunk := a / 64 % 4 }] }
      (s1.rawSense a, some none)
    else (s, none)
  else (s, none)

/-- Another program than a blank one reaches a slot: its bit in the blank map is cleared (R157). -/
def slotTouched (s : State) (p : Phys) : State :=
  let z := s.zone p.die p.zone
  let i := slotInfo z p.slot
  if i.blank then
    (s.setZone p.die p.zone { z with slots := Tab.put (slotDefault z) z.slots p.slot { i with blank := false } }).journal
      (.blank p.die p.zone p.slot)
  else s

/-- Programs a complete raw line as a frame with GEN 0 and LROT 0 (R265). -/
def rawProgram (s : State) (l : RawLine) : State :=
  let ph := physOf (l.addr / 65536)
  (s.slotTouched ph).issue ph.die {
    op := .program, die := 0, zone := ph.zone, slot := ph.slot, line := l.addr / 256 % 256, mode := (s.zone ph.die ph.zone).mode, user := .raw
    frame := some { of := .raw, gen := 0, epoch := BitVec.ofNat 20 s.nowEpoch, lrot := 0, data := l.data } }

/-- A 64 B write to the raw medium gathers into its line (R265); with all 64 buffers in use it waits at the bus. -/
def rawGather (s : State) (a : Nat) (d : Chunk) : State :=
  let line := a / 256 * 256
  let i := a / 64 % 4
  let new (l : RawLine) : RawLine := { l with
    mask := l.mask ||| BitVec.twoPow 4 i, data := overlay (chunkBytes (BitVec.twoPow 4 i)) (d.setWidth 2048 <<< (512 * i)) l.data }
  match s.xlt.raw.find? fun l => l.addr == line with
  | some l =>
    let l1 := new l
    if l1.mask = 15#4 then (s.setXlt { s.xlt with raw := s.xlt.raw.filter fun q => q.addr != line }).rawProgram l1
    else s.setXlt { s.xlt with raw := s.xlt.raw.map fun q => if q.addr == line then l1 else q }
  | none =>
    if 64 ≤ s.xlt.raw.length then s.setXlt { s.xlt with rawHeld := s.xlt.rawHeld ++ [(a, d)] }
    else s.setXlt { s.xlt with raw := s.xlt.raw ++ [new { addr := line, mask := 0, data := 0 }] }

/-- Writes that waited for a gather buffer go on (R265). -/
def rawRetry (s : State) : State :=
  let hs := s.xlt.rawHeld
  hs.foldl (fun s h => s.rawGather h.1 h.2) (s.setXlt { s.xlt with rawHeld := [] })

/-- A 64 B write through bench view. Answers `false` where the place does not exist or takes no write. -/
def benchWrite (s : State) (off : Nat) (d : Chunk) : State × Bool :=
  if 0x20000000000 ≤ off ∧ off < 0x40000000000 then
    let a := off - 0x20000000000
    if (s.benchRank a).isSome then (s.rawDramPut a d, true) else (s, false)
  else if 0x1000000000000 ≤ off ∧ off < 0x2000000000000 then
    let a := off - 0x1000000000000
    if s.dieUp (physOf (a / 65536)).die then ((s.rawGather a d).rawRetry, true) else (s, false)
  else (s, false)

/-- A bus error (R28, R29): reported to the requester, captured unless one is held, and source 427. -/
def busError (s : State) (req : Requester) (addr : Nat) (write : Bool) (c : BusCause) : State :=
  let s1 := s.emit (.busError req)
  if !s.psq.mainUp then s1
  else
    let s2 :=
      if s1.bit Reg.TOP_BUSERR_INFO 0 31 then s1.setBit Reg.TOP_BUSERR_INFO 0 30 true
      else
        let info := 2 ^ 31 + (s1.bit Reg.TOP_BUSERR_INFO 0 30).toNat * 2 ^ 30 + c.code * 2 ^ 27 + req.ids.1 * 2 ^ 16 + req.ids.2 * 2 ^ 8 + write.toNat
        (s1.setFld Reg.TOP_BUSERR_ADDR 0 23 2 (addr / 4)).setReg Reg.TOP_BUSERR_INFO 0 (BitVec.ofNat 32 info)
    s2.pulse 427

/-! ### Reads and writes -/

/-- A CXL.mem read of one chunk (R9, Table 11-3). -/
def cxlRead (s : State) (p : Fin 4) (l : Fin 16) (tag : Nat) (t : CxlTarget) : State :=
  if !s.portTakes p || !s.ldThere p l then s
  else
    let s := s.portWake p
    match s.landing p l t with
    | .nowhere => s.cxlNothing p l tag
    | .staging off =>
      if s.ideMissing p then (s.cxlNotHere p l stagingRegion off).cxlNothing p l tag
      else if s.chanOfLd p l == some (Fin.ofNat 64 (off / 2 ^ 20)) && decide (off / 2 ^ 20 < 64) then
        s.emit (.memData p l tag (s.stageChunk (off / 2 ^ 20) (off % 2 ^ 20)) false)
      else s.emit (.memData p l tag 0 false)
    | .bench off =>
      match s.benchRead (.cxl p l tag) off with
      | (s1, some (some c)) => s1.emit (.memData p l tag c false)
      | (s1, some none) => s1
      | (s1, none) => s1.busError (.ld p l) (off % 2 ^ 24) false .unimplemented
    | .region r off =>
      let rl := off / 256
      if s.ideMissing p || !s.domainReady || !s.regionOpen r then (s.cxlNotHere p l r (s.dpaOf p l r rl)).cxlNothing p l tag
      else match s.resolve r off with
        | none => s.cxlNothing p l tag
        | some x =>
          let st : Stream := { src := .ld p l, region := r }
          let s1 := (s.strideRead st rl).windowRead st (rl / 256)
          (s1.serveRead { who := .cxl p l tag, region := r, rline := rl, line := x, chunks := BitVec.twoPow 4 (off / 64 % 4) }).settle

/-- A MemSpecRd (R272): it starts a Bench 0 fill and returns nothing. -/
def cxlSpecRead (s : State) (p : Fin 4) (l : Fin 16) (t : CxlTarget) : State :=
  if !s.portTakes p || !s.ldThere p l then s
  else
    let s := s.portWake p
    match s.landing p l t with
    | .region r off =>
      if s.ideMissing p || !s.domainReady || !s.regionOpen r then s
      else match s.resolve r off with
        | none => s
        | some x => if (s.bline x).isSome || (s.scbSlot x).isSome then s
            else (s.fetchRead { who := .device, region := r, rline := off / 256, line := x, chunks := BitVec.twoPow 4 (off / 64 % 4) }).settle
    | _ => s

/-- A CXL.mem write of the enabled bytes of one chunk (R12, R182, R282, Table 11-3). -/
def cxlWrite (s : State) (p : Fin 4) (l : Fin 16) (tag : Nat) (t : CxlTarget) (mask : BitVec 64) (d : Chunk) (poison : Bool) : State :=
  if !s.portTakes p || !s.ldThere p l then s
  else
    let s := s.portWake p
    match s.landing p l t with
    | .nowhere => s.emit (.memCmp p l tag)
    | .staging off =>
      if s.ideMissing p then (s.cxlNotHere p l stagingRegion off).emit (.memCmp p l tag)
      else if poison then s.cxlDrop p l tag off
      else if s.chanOfLd p l == some (Fin.ofNat 64 (off / 2 ^ 20)) && decide (off / 2 ^ 20 < 64) then
        (s.putStageChunk (off / 2 ^ 20) (off % 2 ^ 20) mask d).emit (.memCmp p l tag)
      else s.emit (.memCmp p l tag)
    | .bench off =>
      match s.benchWrite off d with
      | (s1, true) => s1.emit (.memCmp p l tag)
      | (s1, false) => s1.busError (.ld p l) (off % 2 ^ 24) true .unimplemented
    | .region r off =>
      let rl := off / 256
      if s.ideMissing p then (s.cxlNotHere p l r (s.dpaOf p l r rl)).emit (.memCmp p l tag)
      else if poison then s.cxlDrop p l tag (s.dpaOf p l r rl)
      else match s.resolve r off with
        | none => s.emit (.memCmp p l tag)
        | some x =>
          let sh := 64 * (off / 64 % 4)
          (s.submit {
            who := .cxl p l tag, region := r, rline := rl, line := x, mask := mask.setWidth 256 <<< sh, data := d.setWidth 2048 <<< (8 * sh)
            stream := .ld p l }).settle

/-! ### Ports -/

/-- The level bits of CXL_CAUSE (Table 11-10). -/
def judgeCxl (s : State) : State :=
  let en (p : Fin 4) : Bool := s.bit Reg.CXL_CTRL 0 p.val && s.portThere p
  let s1 := s.level Reg.CXL_CAUSE 0 0 224 1 (s.psq.mainUp && (List.finRange 4).any fun p => en p && (s.cport p).st != .l0 && (s.cport p).st != .l1)
  s1.level Reg.CXL_CAUSE 0 1 225 2 ((List.finRange 4).any fun p => (s1.cport p).st == .heldNarrow)

/-- Requests of the LDs of which `q` holds lose their host (R291): reads in flight are discarded, writes not yet ordered are never ordered,
and writes already ordered complete inside the device. -/
def cxlForget (s : State) (q : Fin 4 → Fin 16 → Bool) : State :=
  let mine (o : Origin) : Bool := match o with
    | .cxl p l _ => q p l
    | _ => false
  let anon (w : HostWrite) : HostWrite := if mine w.who then { w with who := .device } else w
  (s.setBench { s.bench with
    reads := s.bench.reads.map fun r => if mine r.who then { r with who := .device } else r
    held := s.bench.held.filter fun w => !mine w.who
    orders := s.bench.orders.map fun o => { o with w := anon o.w }
    forwarded := s.bench.forwarded.map fun f => { f with w := anon f.w } }).judgeCredits

/-- An LD after its reset (R291): decoders uncommitted, background state and sessions gone; bindings, extents, logs and DC mapping stay. -/
def ldReset (s : State) (p : Fin 4) (l : Fin 16) : State :=
  let d := s.ld p l
  s.setLd p l { d with decoders := [], offers := [], bg := none, masked := 0, pba := 0, sessions := [], policy := [] }

/-- A conventional or hot reset of a port (R291). -/
def portReset (s : State) (p : Fin 4) : State :=
  let s1 := s.cxlForget fun q _ => p == q
  let s2 := (List.finRange 16).foldl (fun s l => s.ldReset p l) s1
  s2.setCport p { s2.cport p with ideMem := false, ideIo := false, ideSel := 0, insecure := false, gpf := none }

end State

end Sys2Proof.Machine
end

