-- ==== Sys2Proof/Machine/Eyebright.lean ====
section
/-! DEFINITION. Eyebright's drift model (chapter 5): log-ages and the least-squares fit of levels against them (R92, R109), the anchor age of a power-up
comparison (R109), the reference sets a fit gives (R98), and the sentinels: where they lie, which are due, and their rewrites (R108). -/

namespace Sys2Proof.Machine

/-! ### Log-age and fit (R92, R109) -/

/-- 1,024 times g(a) = log10(1 + a), rounded down. DESIGN CHOICE (log entry 117): the spec gives no precision. -/
def logAge (a : Nat) : Nat :=
  let y := (1 + a) ^ 1024
  [8192, 4096, 2048, 1024, 512, 256, 128, 64, 32, 16, 8, 4, 2, 1].foldl (fun n b => if 10 ^ (n + b) ≤ y then n + b else n) 0

/-- g(a) in decades. -/
def decades (a : Nat) : Rat := (logAge a : Rat) / 1024

/-- The largest age below 2³² s whose log-age is at most `g` decades. -/
def ageOfDecades (g : Rat) : Nat :=
  ((List.range 32).map fun i => 2 ^ (31 - i)).foldl (fun n b => if decades (n + b) ≤ g then n + b else n) 0

/-- The level boundaries of a mode (R92). -/
def boundaries : Mode → Nat
  | .none => 0
  | .m2 => 3
  | .m3 => 7
  | .m4 => 15

/-- The sums of a least-squares fit over points (log-age, level): count, Σx, Σy, Σx², Σxy, Σy². -/
structure FitSums where
  n : Rat := 0
  sx : Rat := 0
  sy : Rat := 0
  sxx : Rat := 0
  sxy : Rat := 0
  syy : Rat := 0

/-- The sums over a list of points. -/
def fitSums (ps : List (Rat × Int)) : FitSums :=
  ps.foldl (fun f p =>
    let y : Rat := p.2
    { n := f.n + 1, sx := f.sx + p.1, sy := f.sy + y, sxx := f.sxx + p.1 * p.1, sxy := f.sxy + p.1 * y, syy := f.syy + y * y }) {}

/-- V_k0 and ν_k of the least-squares line, none where the log-ages do not differ (R109). -/
def FitSums.line (f : FitSums) : Option (Rat × Rat) :=
  let det := f.n * f.sxx - f.sx * f.sx
  if det = 0 then none
  else
    let nu := (f.n * f.sxy - f.sx * f.sy) / det
    some ((f.sy - nu * f.sx) / f.n, nu)

/-- The sum of squared residuals of the least-squares line; of the mean where the log-ages do not differ. -/
def FitSums.residual (f : FitSums) : Rat :=
  if f.n = 0 then 0
  else
    let base := f.syy - f.sy * f.sy / f.n
    match f.line with
    | some (_, nu) => base - nu * (f.sxy - f.sx * f.sy / f.n)
    | none => base

/-- The measured points of boundary `k` of a mode, with ages that `age` gives the samples; a sample of no known age counts for nothing. -/
def fitPoints (ss : List Sample) (age : Sample → Option Nat) (m : Mode) (k : Nat) : List (Rat × Int) :=
  ss.filterMap fun x => if x.mode == m && x.k == k then (age x).map fun a => (decades a, x.level) else none

/-- The rungs that give a level for boundary `k` of a mode (R110). -/
def rungsSeen (ss : List Sample) (age : Sample → Option Nat) (m : Mode) (k : Nat) : Nat :=
  ((List.finRange 8).filter fun r => ss.any fun x =>
    x.mode == m && x.k == k && decide (x.rung.val = r.val) && (age x).isSome).length

/-- The fit of every boundary of every mode held, for temperature band `b` (R109); none where it fails: fewer than 5 rungs give a level for some
boundary, or a fitted ν_k is negative (R110). -/
def fitModes (ss : List Sample) (age : Sample → Option Nat) (b : Fin 4) (ms : List Mode) : Option (List FitLine) :=
  (ms.flatMap fun m => (List.range (boundaries m)).map fun k => (m, k)).foldr (fun e acc =>
    match acc, (fitSums (fitPoints ss age e.1 e.2)).line with
    | some ls, some (v0, nu) =>
      if 5 ≤ rungsSeen ss age e.1 e.2 ∧ 0 ≤ nu then some ({ mode := e.1, k := e.2, band := b, v0 := v0, nu := nu } :: ls) else none
    | _, _ => none) (some [])

/-- Fitted lines replace those of their boundaries and bands. -/
def fitsPut (old new : List FitLine) : List FitLine :=
  (old.filter fun x => !new.any fun y => y.mode == x.mode && y.k == x.k && y.band == x.band) ++ new

/-- The fitted line of a boundary for a temperature band: that band's, or the nearest one's while the die has none. DESIGN CHOICE (log entry 118):
the spec does not say what a set is built from in a band that has no fit yet. -/
def fitAt (fs : List FitLine) (m : Mode) (k : Nat) (b : Fin 4) : Option FitLine :=
  (fs.filter fun x => x.mode == m && x.k == k).foldl (fun best x =>
    let far (y : FitLine) : Nat := (y.band.val - b.val) + (b.val - y.band.val)
    match best with
    | none => some x
    | some y => if far x < far y then some x else some y) none

/-- The log-age centre of bin `b`: g_b = 0.30103 + 0.578346 × b (Table 5-1). -/
def binCentre (b : Nat) : Rat := 30103 / 100000 + 578346 / 1000000 * b

/-- A level as a 16-bit level code: the nearest, within the code's range. -/
def levelCode (v : Rat) : BitVec 16 := BitVec.ofNat 16 (min 65535 (v + 1 / 2).floor.toNat)

/-- The levels of reference set `b` of a mode (R98): V_k0 + ν_k × g_b for each boundary. -/
def setLevels (fs : List FitLine) (m : Mode) (band : Fin 4) (b : Nat) : List (BitVec 16) :=
  (List.range (boundaries m)).filterMap fun k => (fitAt fs m k band).map fun f => levelCode (f.v0 + f.nu * binCentre b)

/-! ### The anchor age (R58, R109) -/

/-- The candidates for the unknown unpowered interval, in seconds: from 0 up, each at most 1/64 above the one before. -/
def intervals : Nat → Nat → List Nat
  | 0, _ => []
  | f + 1, x => x :: intervals f (x + max 1 (x / 64))

/-- The interval that the rungs and the anchors of a die fit best together (R109): the least sum of squared residuals over all boundaries. `pre` gives the
age of a sample before the interval. DESIGN CHOICE (log entry 119): the search looks at intervals 1/64 apart. -/
def jointInterval (ss : List Sample) (pre : Sample → Option Nat) (ms : List Mode) : Nat :=
  let cost (x : Nat) : Rat := (ms.flatMap fun m => (List.range (boundaries m)).map fun k =>
    (fitSums (fitPoints ss (fun y => (pre y).map (· + x)) m k)).residual).foldl (· + ·) 0
  ((intervals 1300 0).foldl (fun (best : Option (Nat × Rat)) x =>
    let c := cost x
    match best with
    | none => some (x, c)
    | some b => if c < b.2 then some (x, c) else some b) none).elim 0 Prod.fst

/-- The age at which the band 1 fit gives the anchors' levels best (R109), none without a band 1 fit for them. -/
def bandOneAge (fs : List FitLine) (ss : List Sample) : Option Nat :=
  let ps := (ss.filter fun x => x.rung == 8).filterMap fun x =>
    (fs.find? fun f => f.mode == x.mode && f.k == x.k && f.band == 1).map fun f => (f.nu, (x.level : Rat) - f.v0)
  let q := (ps.map fun p => p.1 * p.1).foldl (· + ·) 0
  if q = 0 then none else some (ageOfDecades ((ps.map fun p => p.1 * p.2).foldl (· + ·) 0 / q))

/-! ### Sentinels (R108) -/

/-- Four to the k-th hours, in seconds. -/
def rungHours (k : Nat) : Nat := 4 ^ k * 3600

/-- The stamp of a sentinel's last write, none where it was never written. -/
def sentinelAt (v : Die) (m : Mode) (k : Fin 9) (copy : Bool) : Option Nat :=
  (v.sentinels.find? fun x => x.mode == m && x.rung == k && x.copy == copy).map Sentinel.written

/-- Writes a sentinel at a stamp. -/
def putSentinel (v : Die) (m : Mode) (k : Fin 9) (copy : Bool) (t : Nat) : Die :=
  { v with sentinels := (v.sentinels.filter fun x => !(x.mode == m && x.rung == k && x.copy == copy)) ++ [{ mode := m, rung := k, copy := copy, written := t }] }

namespace State

/-- The modes in use on a die: M2 and M4 for its metadata zones, M3 where a zone holds it. -/
def modesInUse (s : State) (d : Nat) : List Mode :=
  [.m2, .m4] ++ (if (List.range 62).any fun z => (s.zone d z).mode == .m3 && (s.zone d z).state != .empty && (s.zone d z).state != .retired then
    [.m3] else [])

/-- Where a sentinel sett lies (R108): M3 in the reserved slots of the die's lowest-numbered M3 user zone, M2 and M4 in its metadata zones. -/
def sentinelPlace (s : State) (d : Nat) (m : Mode) (k : Fin 9) (copy : Bool) : Nat × Nat :=
  let i := 2 * k.val + (copy && k != 8).toNat
  if m == .m3 then
    (((List.range 62).find? fun z => (s.zone d z).mode == .m3 && (s.zone d z).state != .retired && (s.zone d z).slots.any fun p => p.2.reserved).getD 0, i)
  else Config.sentinelAt (d * 64 + i + if m == .m4 then 32 else 0)

/-- A rung copy's rewrite is due (R108): at an age of 2 × 4ᵏ h, the second copy first 4ᵏ h after the first. -/
def rungDue (s : State) (v : Die) (m : Mode) (k : Fin 9) (copy : Bool) : Bool :=
  match sentinelAt v m k copy with
  | some t => decide (2 * rungHours k.val ≤ s.nowSecs - t)
  | none => !copy || (match sentinelAt v m k false with
    | some t => decide (rungHours k.val ≤ s.nowSecs - t)
    | none => false)

/-- The rung copies of a die whose rewrite is due and does not run. -/
def rungsDue (s : State) (d : Nat) : List (Mode × Fin 9 × Bool) :=
  let v := s.die d
  ((s.modesInUse d).flatMap fun m => (List.finRange 8).flatMap fun k => [false, true].map fun c => (m, k.castSucc, c)).filter fun e =>
    s.rungDue v e.1 e.2.1 e.2.2 && !v.writing.any fun w => w.mode == e.1 && w.rung == e.2.1 && w.copy == e.2.2

/-- Programs the pattern into a sentinel sett, line by line, in the mode it measures (R108). -/
def writeSentinel (s : State) (d : Nat) (m : Mode) (k : Fin 9) (copy : Bool) : State :=
  let v := s.die d
  let p := s.sentinelPlace d m k copy
  let s1 := s.setDie d { v with writing := v.writing ++ [{ mode := m, rung := k, copy := copy }] }
  (List.range 256).foldl (fun s l => s.issue d {
    op := .program, die := 0, zone := p.1, slot := p.2, line := l, mode := m, user := .sentinel m k copy
    frame := some { of := .sentinel, epoch := BitVec.ofNat 20 s.nowEpoch } }) s1

/-- Rewrites the rungs of a die that are due (R108), once its tables are loaded; before, the work waits for them (R57). -/
def rewriteRungs (s : State) (d : Nat) : State :=
  let v := s.die d
  if !v.tables || !s.dieUp d then s.setDie d { v with ladderDue := true }
  else (s.rungsDue d).foldl (fun s e => s.writeSentinel d e.1 e.2.1 e.2.2) (s.setDie d { v with ladderDue := false })

/-- Ladder rewrites that waited for a die's tables start (R57). -/
def ladderKick (s : State) : State :=
  (s.dieIds.filter fun d => (s.die d).ladderDue && (s.die d).tables && s.dieUp d).foldl (fun s d => s.rewriteRungs d) s

/-- A line of a sentinel's pattern has verified: with the last one the sentinel is written, and a calibration follows (R108, R110). -/
def sentinelVerified (s : State) (d : Nat) (m : Mode) (k : Fin 9) (copy : Bool) (l : Nat) : State :=
  let v := s.die d
  let mine (w : SentinelWrite) : Bool := w.mode == m && w.rung == k && w.copy == copy
  match v.writing.find? mine with
  | none => s
  | some w =>
    let w1 := { w with verified := w.verified ||| BitVec.twoPow 256 l }
    if w1.verified = BitVec.allOnes 256 then
      s.setDie d { putSentinel v m k copy s.nowSecs with writing := v.writing.filter fun x => !mine x, calDue := true }
    else s.setDie d { v with writing := v.writing.map fun x => if mine x then w1 else x }

/-- A sentinel's rewrite is given up: its stamp stands, and it is written at the next chance (R108). -/
def sentinelFailed (s : State) (d : Nat) (m : Mode) (k : Fin 9) (copy : Bool) : State :=
  let v := s.die d
  s.setDie d { v with writing := v.writing.filter fun w => !(w.mode == m && w.rung == k && w.copy == copy) }

/-! ### Measured ages and fits (R108 to R110) -/

/-- The age of the sentinel that a sample measures, as the die's log has it. -/
def sampleAge (s : State) (d : Nat) (x : Sample) : Option Nat := (sentinelAt (s.die d) x.mode x.rung x.copy).map fun t => s.age d t

/-- The age of a sample's sentinel at the stamp `powered`, before the unpowered interval; none where it was written later. -/
def preAge (s : State) (d powered : Nat) (x : Sample) : Option Nat :=
  match sentinelAt (s.die d) x.mode x.rung x.copy with
  | some t => if t ≤ powered then some (ageEff (s.die d).log powered t) else none
  | none => none

/-- The anchor age of a die at a power-up comparison, from the levels that its rungs and anchors showed (R58, R109): from the band 1 fit where the die
stands in another band and has one, else from the joint fit; none where no anchor was measured. -/
def anchorAge (s : State) (d : Nat) (st : GroupStamp) (ss : List Sample) : Option Nat :=
  if !ss.any fun x => x.rung == 8 then none
  else
    let pre (x : Sample) : Option Nat :=
      if x.rung == 8 then some (st.powered.toNat - st.anchor.toNat) else s.preAge d st.powered.toNat x
    let joint := (st.powered.toNat - st.anchor.toNat) + jointInterval ss pre (s.modesInUse d)
    if (s.die d).tband == 1 then some joint else some ((bandOneAge (s.die d).fits ss).getD joint)

/-- The fit of a calibration from the levels measured (R109, R110). -/
def calFit (s : State) (d : Nat) (ss : List Sample) : Option (List FitLine) :=
  fitModes (ss.filter fun x => x.rung != 8) (s.sampleAge d) (s.die d).tband (s.modesInUse d)

/-! ### Reference tables (R98, R112) -/

/-- Loads the 16 sets of every mode in use on a die, built from the fit for its temperature band (R98). -/
def loadSets (s : State) (d : Nat) : State :=
  let v := s.die d
  if !v.fitted || v.failed then s
  else
    let ms := s.modesInUse d
    let s1 := s.setDie d { v with loads := 16 * ms.length }
    ms.foldl (fun s m => (List.range 16).foldl (fun s b => s.issue d {
      op := .setRef, die := 0, refset := b, mode := m, user := .reload, levels := setLevels v.fits m v.tband b }) s) s1

/-! ### The full reference sweep (R111) -/

/-- The user setts a sweep margin-reads: up to 64 on the die, taken in turn from its bins. -/
def sweepSetts (s : State) (d : Nat) : List Nat :=
  let mine := (s.med.setts.filter fun p => p.2.phys.any fun (q : Phys) => q.die == d).map Prod.fst
  let bins := (List.range 16).map fun b => mine.filter fun n => s.readBin n 0 == b
  let rounds := (List.range 64).flatMap fun i => bins.filterMap fun l => l[i]?
  rounds.take 64

/-- A sense of a sett's first line for the sweep, in its bin. -/
def sweepRead (s : State) (d n : Nat) : State :=
  let e := s.sett n
  match e.phys with
  | some p => s.issue d { op := .marginRead, die := 0, zone := p.zone, slot := p.slot, line := e.lrot.toNat, refset := s.readBin n 0
                          mode := e.mode, user := .sweep n, lsett := n }
  | none => s

/-- A full reference sweep of a die starts (R111): its user setts are margin-read; its rungs and anchors are re-measured, which the sweep's end brings. -/
def startSweep (s : State) (d : Nat) : State :=
  if s.dieUp d then (s.sweepSetts d).foldl (fun s n => s.sweepRead d n) (s.setDie d { s.die d with sweep := true }) else s

end State

end Sys2Proof.Machine
end

