-- ==== Sys2Proof/Machine/MedOps.lean ====
section
/-! DEFINITION. What the medium answers (chapters 4 to 7): judging a frame (R153, R154), lines that come or cannot be read (R115 to R118), DONEs of
programs (R125 to R134, R158), failed dies (R86 to R89, R166), Yarrow's queue (R136, R137) and Teasel's walk (R160, R161). -/

namespace Sys2Proof.Machine

/-- The verdict of R154 on a frame of a sett. -/
inductive Verdict where
  | beyond | misplaced | zero | data (cipher : Line)
  deriving DecidableEq, Repr

/-- Judges a frame by its sett's entry (R154): GEN first, then LROT. -/
def verdictOf (e : Sett) : Option Decoded → Verdict
  | none => .beyond
  | some d => if d.gen != e.gen then .zero else if d.lrot != e.lrot then .misplaced else .data d.data

namespace State

/-- The medium controller runs: in the main domain, or in a KEEP burst. -/
def medUp (s : State) : Bool := s.psq.mainUp || s.psq.burst.isSome

/-! ### Yarrow's queue -/

/-- Queues work on a sett; what is queued already is not queued twice. -/
def queueWork (s : State) (n : Nat) (k : WorkKind) : State :=
  let y := s.med.yarrow
  if y.queue.any fun w => w.lsett == n && w.kind == k then s else s.setYrw { y with queue := y.queue ++ [{ lsett := n, kind := k }] }

/-- Queues a refresh of a sett (R161). -/
def queueRefresh (s : State) (n : Nat) : State :=
  if s.med.yarrow.queue.any fun w => w.lsett == n && w.kind == .refresh then s
  else (s.queueWork n .refresh).bump Reg.TSL_REFRESH_CNT 0 31 0

/-- A whole-sett program of the sett has committed: the queued rewrites that it satisfies are dropped (R136). -/
def satisfyWork (s : State) (n : Nat) : State :=
  s.setYrw { s.med.yarrow with queue := s.med.yarrow.queue.filter fun w => w.lsett != n || (match w.kind with
    | .bandHeld | .refresh | .bandOccupancy | .bandLog => false
    | _ => true) }

/-- A stream buffer whose move was given up returns its lines to Bench 0 as dirty lines, those already freed among them; a line that
finds no place waits in the buffer. A dirty line there is newer than its slot, and a clean one older (R16, R179). -/
def scbDissolve (s : State) (n : Nat) : State :=
  match s.bench.scbs.find? fun b => b.lsett == n with
  | none => s
  | some b =>
    if (s.move n).isSome then s
    else
      let r := b.slots.foldl (fun (p : State × List ScbSlot) k =>
        match p.1.slotBack (lineOf n k.line) k with
        | (s1, true) => (s1, p.2)
        | (s1, false) => (s1, p.2 ++ [{ k with use := .filling }])) (s, [])
      if r.2.isEmpty then r.1.setScb n none else r.1.setScb n (some { b with slots := r.2, closing := true })

/-- The sett of a resync whose destination was lost starts again, with its lines asked of the source. -/
def resyncAgain (s : State) (n : Nat) (m : Mode) : State :=
  let s1 := s.resyncStart n m
  match s1.ownerOf n with
  | some (r, _) => if (s1.move n).isSome && s1.paired then s1.assistAsk .rebuild r (lineOf n 0) 256 else s1
  | none => s1

/-- Work that was under way on a sett is given up. It is queued again, but for a rebuild, which the rebuild list carries, a stream buffer, whose lines go
back to Bench 0, a first program, which its lines start again, and a resync (R130, R136). -/
def moveRequeue (s : State) (n : Nat) (spoil : Bool) : State :=
  match s.move n with
  | none => s
  | some m =>
    let s1 := s.moveAbandon n spoil
    match m.kind with
    | .rebuild _ => s1
    | .placed => s1.scbDissolve n
    | .resync => s1.resyncAgain n m.mode
    | k => s1.queueWork n k

/-- The level bits of TSL_CAUSE (Table 7-6). -/
def judgeTsl (s : State) : State :=
  let left := !s.med.rebuild.isEmpty
  let served := s.paired && s.med.rebuild.all fun n => match s.ownerOf n with
    | some (r, _) => !(s.rt r).twinUnfit
    | none => true
  let lv (s : State) (b : Nat) (v : Bool) : State := s.level Reg.TSL_CAUSE 0 b 153 0x1F0F v
  let s1 := lv s 0 left
  let s2 := lv s1 1 (left && !served)
  let s3 := lv s2 2 (s.med.passes.any fun p => p.2.late)
  lv s3 3 (s.med.dies.any fun p => p.2.blankLow)

/-! ### Dies that leave service -/

/-- Reads that wait for lines of the dies `p` names are served anew (R86, R87). -/
def divert (s : State) (p : Nat → Bool) : State :=
  let here (x : Nat) : Bool := match (s.sett (lineSett x)).phys with
    | some q => p q.die
    | none => false
  let fills := (s.bench.lines.filter fun e => here e.1 && match e.2 with
    | some b => b.state == .filling
    | none => false).map Prod.fst
  (fills.foldl (fun s x => s.dropLine x) s).redrive fun r => here r.line

/-- A command on channel `n` that will not be answered is undone: its line is dirty, unread or unjudged again. -/
def undo (s : State) (n : Nat) (c : QmiCmd) : State :=
  match c.user with
  | .writeBack x => match s.bline x with
    | some b => if b.state == .wb then s.setBline x (some { b with state := .dirty, redirty := false }) else s
    | none => s
  | .move n | .rewrite n => match s.move n with
    | some m => s.setMove { m with read := m.read &&& ~~~(BitVec.twoPow 256 ((c.line + 256 - (s.sett n).lrot.toNat) % 256)) }
    | none => s
  | .teasel n _ => s.setMed { s.med with judges := s.med.judges.filter fun j => !(j.lsett == n) }
  | .blanking => s.setMed { s.med with blanks := s.med.blanks.filter fun b => b.slot != { die := n * 16 + c.die, zone := c.zone, slot := c.slot } }
  | .sentinel m k copy => s.sentinelFailed (n * 16 + c.die) m k copy
  | .map copy k f => s.mapUndo c copy k f
  | _ => s

/-- A die fails (R166): its commands end, work with a place on it is given up, its setts join the rebuild list, and its reads go
elsewhere. -/
def failDie (s : State) (d : Nat) : State :=
  let v := s.die d
  if v.failed then s
  else
    let n := dieChan d
    let q := s.qc n
    let mine (c : QmiCmd) : Bool := n * 16 + c.die == d
    let gone := (q.queue ++ q.sent ++ q.orphans).filter fun c => mine c && match c.user with
      | .drain _ => false
      | _ => true
    let s1 := (s.setDie d { v with failed := true, tables := false }).setQc n { q with
      queue := q.queue.filter fun c => !mine c, sent := q.sent.filter fun c => !mine c, orphans := q.orphans.filter fun c => !mine c }
    let s2 := gone.foldl (fun s c => s.undo n c) s1
    let hit (m : Move) : Bool := (match m.dest with
        | some p => p.die == d
        | none => false) || (match (s2.sett m.lsett).phys, m.kind with
        | some _, .rebuild _ | some _, .resync => false
        | some p, _ => p.die == d
        | none, _ => false)
    let s3 := (s2.med.yarrow.moves.filter hit).foldl (fun s m => s.moveRequeue m.lsett false) s2
    let lost := (s3.med.setts.filter fun p => match p.2.phys with
      | some q => q.die == d
      | none => false).map Prod.fst
    let s4 := s3.setMed { s3.med with rebuild := s3.med.rebuild ++ lost.filter fun x => !s3.med.rebuild.contains x }
    ((s4.divert fun k => k == d).judgeBench).judgeTsl

/-! ### Lines that come from the medium -/

/-- Asks the twin for a line beyond soft decode, or takes it as lost (R116, R118). What the twin itself asked for is answered as unrecovered, and is not
asked back. -/
def assistOrLose (s : State) (c : QmiCmd) (x : Nat) : State :=
  let asked (r : HostRead) : Bool := r.line == x && match r.who with
    | .assist _ _ => true
    | _ => false
  let mine := s.bench.reads.filter asked
  let s1 := mine.foldl (fun s r => s.respond r none) (s.setBench { s.bench with reads := s.bench.reads.filter fun r => !asked r })
  let onlyTwin := c.user == .fill x && !mine.isEmpty && !s1.bench.reads.any fun r => r.line == x
  if onlyTwin then (if (s1.bline x).any fun b => b.state == .filling then s1.dropLine x else s1)
  else if s1.bit Reg.RD_CTRL 0 1 && s1.paired then
    if s1.twin.assists.any fun a => a.why == .recover && a.line == x then s1 else s1.assistAsk .recover (s1.rlineOf x).1 x 1
  else s1.unrecovered x

/-- A line's frame is beyond the hard decoder's reach (R115): read again by SOFT_READ, or asked of the twin. -/
def beyondReach (s : State) (c : QmiCmd) (x : Nat) : State :=
  if s.bit Reg.RD_CTRL 0 0 && c.op != .softRead then
    s.issue (((s.sett (lineSett x)).phys.map Phys.die).getD 0) { c with op := .softRead, count := 0, delta := (s.fld Reg.RD_CTRL 0 11 4 : Nat) }
  else s.assistOrLose c x

/-- A MISPLACED frame (R154 step 4). -/
def misplaced (s : State) (c : QmiCmd) (x : Nat) : State :=
  ((s.bump Reg.TSL_MISPLACED_CNT 0 31 0).cause Reg.TSL_CAUSE 0 10 153).assistOrLose c x

/-- The newest copy of a line that has come from elsewhere: a dirty copy in Bench 0 lies over it (R130 step 1). -/
def newestOf (s : State) (x : Nat) (d : Line) : Line :=
  match s.bline x with
  | some b => if isDirty b then overlay b.valid b.data d else d
  | none => d

/-- A line has come for what asked for it, as plaintext. -/
def lineArrived (s : State) (c : QmiCmd) (x : Nat) (d : Line) : State :=
  let n := lineSett x
  let l := lineIdx x
  match c.user with
  | .prefetch _ => (if (s.bline x).isNone || (s.bline x).any (fun b => b.state == .filling) then s.installLine x d false true else s).answerReads x (some d)
  | .merge _ => (if (s.bline x).any isPartial then s.installLine x d true false else s).answerReads x (some d)
  | .move _ =>
    let s1 := if (s.bline x).any isPartial then s.installLine x d true false else s
    match s1.move n with
    | none => s1
    | some m => if m.read.getLsbD l then s1
        else s1.moveProgram m l (s1.newestOf x d)
  | .rewrite _ => s.rewriteData n l d
  | .promote _ => s.promoteTake n l d
  | .teasel _ _ => s.judged x
  | _ => (s.installLine x d false false).answerReads x (some d)

/-- The line a sense of a sett's slot named, and whether the sett still lies there. -/
def cmdLine (s : State) (n : Nat) (c : QmiCmd) : Nat × Bool :=
  let e := s.sett c.lsett
  (lineOf c.lsett ((c.line + 256 - e.lrot.toNat) % 256),
    e.phys == some { die := n * 16 + c.die, zone := c.zone, slot := c.slot })

/-- A sense that names a place its sett has left is repeated where the sett now lies: waiting reads are served anew, work is fed again. -/
def senseAgain (s : State) (c : QmiCmd) : State :=
  match c.user with
  | .fill x | .prefetch x | .merge x =>
    let s1 := if (s.bline x).any fun b => b.state == .filling then s.dropLine x else s
    (s1.redrive fun r => r.line == x).mergeLine x
  | .move n => s.moveFeed n
  | .rewrite n => s.moveFeed n
  | .promote n => (List.range 256).foldl (fun s l => s.promoteLine n l) s
  | _ => s

/-- Takes the frame of a READ or the word that soft decode found through R154 (`soft`: R117 follows). -/
def takeFrame (s : State) (n : Nat) (c : QmiCmd) (dec : Option Decoded) (soft : Bool) : State :=
  let (x, here) := s.cmdLine n c
  if !here then s.senseAgain c
  else match verdictOf (s.sett c.lsett) dec with
    | .beyond => s.beyondReach c x
    | .misplaced => s.misplaced c x
    | .zero => if soft then s.recovered x 0 true else s.lineArrived c x 0
    | .data d => if soft then s.recovered x (s.plain x d) true else s.lineArrived c x (s.plain x d)

/-! ### Teasel's walk (R160, R161) -/

/-- Replaces the pass of group `g`. -/
def setPass (s : State) (g : Nat) (v : Pass) : State := s.setMed { s.med with passes := Tab.put {} s.med.passes g v }

/-- A sett is visited: an old band queues a refresh (R161), and each of its lines is read at both margins in its bin. -/
def visitSett (s : State) (n : Nat) : State :=
  let e := s.sett n
  match e.phys with
  | none => s
  | some p =>
    let old := e.band && decide (retention e.mode * s.fld Reg.TSL_AGE 0 7 0 < 100 * s.age p.die (s.bandStamps e).1)
    let s1 := if old then s.queueRefresh n else s
    let d : Int := (s1.fld Reg.TSL_CFG 0 23 16 : Nat)
    (List.range 256).foldl (fun s l =>
      let s2 := s.setMed { s.med with judges := s.med.judges ++ [{ lsett := n, line := l }] }
      (s2.senseLine (lineOf n l) .marginRead d (.teasel n true)).senseLine (lineOf n l) .marginRead (-d) (.teasel n false)) s1

/-- The pointer of a group's pass moves (R160): to the sett whose lines are judged next, or off the one that has been judged. -/
def passAt (s : State) (g : Nat) (v : Pass) : State := (s.setPass g v).journal (.pass g)

/-- Lines of the group are being judged. -/
def judging (s : State) (g : Nat) : Bool :=
  (s.med.judges.any fun j => match (s.sett j.lsett).phys with
    | some p => dieGroup p.die == g
    | none => false) || s.xlt.map.judges.any fun j => dieGroup (s.mapPlace j.copy j.frame).1 == g

/-- What is next can be visited now: a sett that is IDLE, on a die that is up. -/
def visitReady (s : State) : Visit → Bool
  | .sett n => (s.sett n).mig == .idle && match (s.sett n).phys with
    | some p => s.dieUp p.die
    | none => false
  | .maps d => s.dieUp d

/-- Visits it (R160). -/
def visit (s : State) : Visit → State
  | .sett n => s.visitSett n
  | .maps d => s.visitMaps d

/-- The pass of a group goes on to its next sett once the last one's lines are judged: busy or unreachable setts are visited again at the
end and skipped if still busy then (R160, R164). -/
def passNext (s : State) (g : Nat) : Nat → State
  | 0 => s
  | f + 1 =>
    let v := s.pass g
    if !(s.qg g).inService then s else
    if !v.running || s.judging g || !s.bit Reg.TSL_CTRL 0 0 then s
    else match v.order, v.again with
      | n :: rest, _ =>
        if s.visitReady n then (s.passAt g { v with order := rest, cur := some n }).visit n
        else (s.setPass g { v with order := rest, again := v.again ++ [n], cur := none }).passNext g f
      | [], n :: rest =>
        if s.visitReady n then (s.passAt g { v with again := rest, cur := some n }).visit n
        else (s.setPass g { v with again := rest, cur := none }).passNext g f
      | [], [] => if v.cur.isSome then s.passAt g { v with cur := none } else s

/-- A pass that is interrupted takes what it was judging again (R164). -/
def passHeld (v : Pass) : Pass :=
  match v.cur with
  | some n => { v with order := n :: v.order, cur := Option.none }
  | none => v

/-- Drives the pass of a group as far as it goes. -/
def passRun (s : State) (g : Nat) : State := s.passNext g ((s.pass g).order.length + (s.pass g).again.length + 1)

/-- The key of a physical sett in Teasel's order. -/
def physKey (p : Phys) : Nat := (p.die * 64 + p.zone) * 16384 + p.slot

/-- Inserts by rising key. -/
def insertKey (k n : Nat) : List (Nat × Nat) → List (Nat × Nat)
  | [] => [(k, n)]
  | (j, m) :: t => if k ≤ j then (k, n) :: (j, m) :: t else (j, m) :: insertKey k n t

/-- Starts a pass of a group (R160): marked setts, then dies marked to go first, then the rest by ascending die index and address, with the map copies in
the metadata zones after the setts of their die. -/
def startPass (s : State) (g : Nat) : State :=
  let v := s.pass g
  let all := s.med.setts.filterMap fun p => match p.2.phys with
    | some q => if dieGroup q.die == g && p.2.mode != .none then some (physKey q, p.1) else none
    | none => none
  let sorted := (all.foldr (fun e l => insertKey e.1 e.2 l) []).map Prod.snd
  let dieOf (n : Nat) : Nat := ((s.sett n).phys.map Phys.die).getD 0
  let marked := v.marked.filter fun n => sorted.contains n
  let rest := sorted.filter fun n => !marked.contains n
  let dies := s.diesUp.filter fun d => dieGroup d == g
  let walk (p : Nat → Bool) : List Visit := (dies.filter p).flatMap fun d =>
    ((rest.filter fun n => dieOf n == d).map Visit.sett) ++ if (s.mapCopies d).isEmpty then [] else [.maps d]
  let order := marked.map Visit.sett ++ walk (fun d => (s.die d).first) ++ walk (fun d => !(s.die d).first) ++
    (rest.filter fun n => !dies.contains (dieOf n)).map Visit.sett
  let s1 := s.setPass g { v with running := true, order := order, again := [], total := order.length, marked := [], cur := none }
  let s2 := s1.setMed { s1.med with dies := s1.med.dies.map fun p => if p.1 / 256 == g then (p.1, { p.2 with first := false, weak := 0 }) else p }
  s2.passRun g

/-- The expected EPOCH range of a line (R160). -/
def epochRange (s : State) (n l : Nat) : Nat × Nat :=
  match s.generationOf n l with
  | some y => (y.tFirst.toNat / 256 / 4096, y.tLast.toNat / 256 / 4096)
  | none => ((s.sett n).bandOld.toNat, (s.sett n).bandNew.toNat)

/-- A margin read of a line has answered (R160, R161). -/
def marginSeen (s : State) (n : Nat) (c : QmiCmd) (dec : Option Decoded) : State :=
  let (x, here) := s.cmdLine n c
  let l := lineIdx x
  match s.med.judges.find? fun j => j.lsett == c.lsett && j.line == l with
  | none => s
  | some j =>
    if !here then s.judged x
    else
      let e := s.sett c.lsett
      let fails := dec.isNone
      let blank := dec.any fun d => d.blank
      let weak := fails || dec.any fun d => !d.blank && decide (s.fld Reg.TSL_CFG 0 28 24 < d.corrected)
      let off := dec.any fun d => !blank && !decide ((s.epochRange c.lsett l).1 ≤ d.epoch.toNat ∧ d.epoch.toNat ≤ (s.epochRange c.lsett l).2)
      let mis := dec.any fun d => !blank && d.gen == e.gen && d.lrot != e.lrot
      let j1 : MarginJudge := { j with seen := j.seen + 1, fails := j.fails + fails.toNat, weak := j.weak || weak, mis := j.mis || mis }
      let s1 := if off then (s.cause Reg.TSL_CAUSE 0 11 153).queueRefresh c.lsett else s
      if j1.seen < 2 then
        s1.setMed { s1.med with judges := s1.med.judges.map fun y => if y.lsett == j.lsett && y.line == j.line then j1 else y }
      else
        let d := n * 16 + c.die
        let s2 := if j1.weak then
            let firstWeak := !(s1.med.yarrow.queue.any fun w => w.lsett == c.lsett && w.kind == .refresh)
            let s3 := (s1.bump Reg.TSL_WEAK_CNT 0 31 0).queueRefresh c.lsett
            let v := s3.die d
            if firstWeak then s3.setDie d { v with weak := if v.weak = 0xFFFF#16 then v.weak else v.weak + 1 } else s3
          else s1
        if j1.mis then (s2.judged x).misplaced c x
        else if j1.fails = 2 then
          (s2.setMed { s2.med with judges := s2.med.judges.map fun y =>
            if y.lsett == j.lsett && y.line == j.line then { j1 with deep := true } else y }).senseLine x .read 0 (.teasel c.lsett true)
        else s2.judged x

/-! ### Wear and onset (R125 to R127, R134) -/

/-- The LOOP_WARN and MARGIN_WARN of a mode. -/
def warnAt (s : State) : Mode → Nat × Nat
  | .none => (0, 0)
  | .m2 => (s.fld Reg.YRW_WARN 0 4 0, s.fld Reg.YRW_WARN 0 19 16)
  | .m3 => (s.fld Reg.YRW_WARN 0 9 5, s.fld Reg.YRW_WARN 0 23 20)
  | .m4 => (s.fld Reg.YRW_WARN 0 14 10, s.fld Reg.YRW_WARN 0 27 24)

/-- A program warns (R125). -/
def warns (s : State) (m : Mode) (i : DoneInfo) : Bool :=
  decide ((s.warnAt m).1 < i.loops) || decide (i.margin < (s.warnAt m).2)

/-- The sett of a first program that is under way to a slot (R158). -/
def firstAt (s : State) (p : Phys) : Option Nat :=
  let mine (n : Nat) (c : QmiCmd) : Bool := c.op == .program && n * 16 + c.die == p.die && c.zone == p.zone && c.slot == p.slot &&
    (s.sett c.lsett).phys.isNone && match c.user with
      | .writeBack _ => true
      | _ => false
  s.med.chans.findSome? fun e => ((e.2.queue ++ e.2.sent ++ e.2.orphans).find? (mine e.1)).map fun c => c.lsett

/-- The sett that lies in a slot. -/
def holder (s : State) (p : Phys) : Option Nat := (s.med.setts.find? fun q => q.2.phys == some p).map Prod.fst

/-- The move whose destination a slot is. -/
def moveTo (s : State) (p : Phys) : Option Move := s.med.yarrow.moves.find? fun m => m.dest == some p

/-- SPOIL_PENDING of a sett (R127): its slot enters the Spoil when it leaves it. -/
def spoilPend (s : State) (n : Nat) : State :=
  let e := { s.sett n with spoilPending := true }
  if s.jFull then s.setSett n e else s.putSett n e

/-- MED_WEAR_ONSET on a slot (R127): the sett in it moves, or leaves it to the Spoil at the commit of the move that is under way; a move's own
destination is given up; a first program's sett moves once it is allocated. DESIGN CHOICE (log entry 131): a free slot, under Teasel's blanking or bench
view, is counted and captured, and stays on the free list. -/
def wearOnset (s : State) (p : Phys) : State :=
  let s1 := (s.bump Reg.YRW_ONSET_CNT 0 31 0).cause Reg.YRW_CAUSE 0 8 156
  match s1.holder p with
  | some n =>
    let s2 := s1.spoilPend n
    match s2.move n with
    | some m => if m.dest.isSome then s2.setMove { m with spoil := true } else s2.queueWork n (.onset p)
    | none => s2.queueWork n (.onset p)
  | none => match s1.moveTo p with
    | some m => s1.moveRequeue m.lsett true
    | none => match s1.firstAt p with
      | some n => s1.queueWork n (.onset p)
      | none => s1

/-- One verified line program into a slot: its wear (R134) and the onset tracker (R126). -/
def noteProgram (s : State) (p : Phys) (m : Mode) (i : DoneInfo) : State :=
  let (s1, w) := wearAdd s (slotInfo (s.zone p.die p.zone) p.slot).wear
  let s2 := s1.setSlotWear p w
  let s3 := match s2.holder p with
    | some n => s2.setSett n { s2.sett n with wear := w }
    | none => s2
  let y := s3.med.yarrow
  if s3.warns m i then
    if y.onset.contains p then (s3.setYrw { y with onset := y.onset.erase p }).wearOnset p
    else s3.setYrw { y with onset := (if 4096 ≤ y.onset.length then y.onset.drop 1 else y.onset) ++ [p] }
  else s3.setYrw { y with onset := y.onset.erase p }

/-! ### Verified and failed programs -/

/-- The oldest BAND_OLD edge among setts. -/
def oldestBand (s : State) (ns : List Nat) : Option Nat :=
  ns.foldl (fun best n =>
    let key (k : Nat) : Nat := (s.sett k).bandOld.toNat * 4096 + (s.sett k).oldOfs.toNat
    match best with
    | none => some n
    | some b => if key n < key b then some n else some b) none

/-- Table occupancy at or above HI starts band rewrites that go on until it is at or below LO (R107). -/
def judgeOccupancy (s : State) : State :=
  let used := s.youngUsed
  let y := s.med.yarrow
  let hi := decide (s.fld Reg.YMAP_CFG 0 7 0 * 16384 ≤ used)
  let lo := decide (used ≤ s.fld Reg.YMAP_CFG 0 15 8 * 16384)
  let on := if hi then true else if lo then false else y.occupancy
  let s1 := s.setYrw { y with occupancy := on }
  let s2 := if hi && !y.occupancy then s1.cause Reg.YRW_CAUSE 0 17 154 else s1
  if on && !(s2.med.yarrow.queue.any fun w => w.kind == .bandOccupancy) then
    match s2.oldestBand ((s2.med.young.map Prod.fst).filter fun n => (s2.move n).isNone) with
    | some n => s2.queueWork n .bandOccupancy
    | none => s2
  else s2

/-- A line is held dirty for want of a young way (R105): marked, counted, and the sett of its bucket with the oldest band is to be rewritten (R107). -/
def holdYoung (s : State) (x : Nat) : State :=
  let n := lineSett x
  let y := s.med.yarrow
  let s1 := (s.setYrw { y with held := if y.held.contains x then y.held else y.held ++ [x] }).bump Reg.YMAP_HOLDS 0 31 0
  let near := (s1.med.young.map Prod.fst).filter fun k => youngBucket k == youngBucket n
  match s1.oldestBand (if near.contains n || near.isEmpty then n :: near else near) with
  | some k => s1.queueWork k .bandHeld
  | none => s1

/-- The line is no longer held for a young way. -/
def unhold (s : State) (x : Nat) : State :=
  let y := s.med.yarrow
  if y.held.contains x then s.setYrw { y with held := y.held.erase x } else s

/-- A line's write-back has ended: clean, or dirty again where it was written meanwhile; a line left clean grants a token (R15, R183). -/
def lineWritten (s : State) (x : Nat) : State :=
  match s.bline x with
  | some b =>
    if b.state != .wb then s
    else
      let sealing := s.sec.sealed.contains x && !b.redirty
      let s1 := if sealing then s.dropLine x else s.setBline x (some { b with state := if b.redirty then .dirty else .clean, redirty := false })
      if b.redirty then s1 else s1.grantToken
  | none => s

/-- A line stays dirty after all. -/
def lineKept (s : State) (x : Nat) : State :=
  match s.bline x with
  | some b => if b.state == .wb then s.setBline x (some { b with state := .dirty, redirty := false }) else s
  | none => s

/-- A write-back of one line has verified (R105, R158). -/
def backVerified (s : State) (p : Phys) (c : QmiCmd) (x : Nat) : State :=
  let n := lineSett x
  let e := s.sett n
  if e.phys == some p then
    match s.youngAdd n (lineIdx x) s.youngStamp with
    | (s1, true) => ((((s1.unhold x).journalYoung n (s.youngOf n)).lineWritten x).judgeOccupancy)
    | (s1, false) => (s1.lineKept x).holdYoung x
  else if e.mode == .none && e.phys.isNone then
    if s.jFull then (s.leaveSlot p (slotInfo (s.zone p.die p.zone) p.slot).wear false).lineKept x
    else
      let f := c.frame.map fun f => f.lrot
      let s1 := s.putSett n { e with
        phys := some p, mode := c.mode, lrot := f.getD 0, wear := (slotInfo (s.zone p.die p.zone) p.slot).wear }
      let t := s1.nowSecs
      (((s1.setBand n t t).journal (.bandOfs n)).lineWritten x)
  else s.lineKept x

/-- A line of whole-sett work has verified: a slot of a stream buffer is freed (R178); an in-place line is written, and the next window
follows the last line of one (R131). -/
def moveVerified (s : State) (n l : Nat) : State :=
  match s.move n with
  | none => s
  | some m =>
    let m1 := { m with verified := m.verified ||| BitVec.twoPow 256 l, first := some (m.first.getD s.sNow), last := s.sNow }
    let s1 := s.setMove m1
    match m.dest with
    | some _ =>
      let s2 := match s1.bench.scbs.find? fun b => b.lsett == n with
        | some b => s1.setScb n (some { b with slots := b.slots.map fun k => if k.line == l && k.use == .issued then { k with use := .freed } else k })
        | none => s1
      s2
    | none =>
      let s2 := s1.lineWritten (lineOf n l)
      let window := (m1.verified >>> (16 * m1.window)).setWidth 16
      if window = 0xFFFF#16 ∧ m1.window < 15 then (s2.setMove { m1 with window := m1.window + 1 }).moveFeed n else s2

/-- A line of a slot under blanking has verified (R157, R159). -/
def blankVerified (s : State) (p : Phys) (l : Nat) : State :=
  match s.med.blanks.find? fun b => b.slot == p with
  | none => s
  | some b =>
    let b1 := { b with verified := b.verified ||| BitVec.twoPow 256 l }
    if b1.verified = BitVec.allOnes 256 then
      let z := s.zone p.die p.zone
      let i := slotInfo z p.slot
      let s1 := s.setMed { s.med with blanks := s.med.blanks.filter fun y => y.slot != p }
      if i.alloc || i.spoil || z.mode != b.mode then s1
      else (s1.setZone p.die p.zone { z with slots := Tab.put (slotDefault z) z.slots p.slot { i with blank := true } }).journal
        (.blank p.die p.zone p.slot)
    else s.setMed { s.med with blanks := s.med.blanks.map fun y => if y.slot == p then b1 else y }

/-- The logical line of a program, by the rotation its frame carries. -/
def frameLine (c : QmiCmd) : Nat := (c.line + 256 - (c.frame.map fun f => f.lrot.toNat).getD 0) % 256

/-- The destination of a move has failed (R128): it enters the Spoil; a remap counts it, marks the dies for Teasel, and starts again on
another die. -/
def destFailed (s : State) (n : Nat) (m : Move) : State :=
  let mark (s : State) (d : Nat) : State := s.setDie d { s.die d with first := true }
  match m.kind, m.dest, (s.sett n).phys with
  | .remap, some p, some old =>
    let s1 := ((s.moveAbandon n true |> (mark · p.die)) |> (mark · old.die))
    let y := s1.med.yarrow
    let k := Tab.get 0 y.fails n + 1
    let s1 := s1.setYrw { y with fails := Tab.put 0 y.fails n k }
    let s2 := if k = 3 then s1.cause Reg.YRW_CAUSE 0 10 156 else s1
    let dest := (s2.chanSlot (dieChan old.die) m.mode (fun _ _ => true) (fun d => d == p.die)).orElse
      fun _ => s2.chanSlot (dieChan old.die) m.mode (fun _ _ => true) (fun _ => false)
    (match dest with
      | some q =>
        let s3 := (s2.journal (.remapIntent n q.die q.zone q.slot)).moveStart n .remap (some q) m.mode
        match s3.move n with
        | some m1 => s3.setMove { m1 with spoil := true }
        | none => s3
      | none => s2.queueWork n .remap)
  | _, _, _ => s.moveRequeue n true

/-- A slot has failed a program (R128, R140, R159): the sett in it is remapped, a move gives up its destination, and a slot that serves no sett enters the
Spoil. -/
def slotFailed (s : State) (p : Phys) : State :=
  match s.holder p with
  | some n => s.queueWork n .remap
  | none => match s.moveTo p with
    | some m => s.destFailed m.lsett m
    | none => if (s.firstAt p).isSome then s else s.leaveSlot p (slotInfo (s.zone p.die p.zone) p.slot).wear true

/-- A program has ended with PROG_FAIL (R79, R128): the line stays dirty, and the sett is to be remapped; a slot that holds no sett enters
the Spoil. -/
def programFailed (s : State) (p : Phys) (c : QmiCmd) : State :=
  match c.user with
  | .writeBack x => (s.lineKept x).slotFailed p
  | .rewrite k =>
    if (s.sett k).phys == some p then ((s.lineKept (lineOf k (frameLine c))).moveRequeue k false).queueWork k .remap else s.slotFailed p
  | .blanking => (s.setMed { s.med with blanks := s.med.blanks.filter fun b => b.slot != p }).slotFailed p
  | .sentinel m k copy => s.sentinelFailed p.die m k copy
  | .map copy k f => s.mapUnwritten copy k f
  | .move _ | .raw => s.slotFailed p
  | _ => s

/-- A program has verified: it counts for its slot's wear and onset whatever has become of its work (R126, R134). -/
def programVerified (s : State) (p : Phys) (c : QmiCmd) (i : DoneInfo) : State :=
  match c.user with
  | .writeBack x => (s.backVerified p c x).noteProgram p c.mode i
  | .move k =>
    let s1 := s.noteProgram p c.mode i
    if (s1.move k).any fun m => m.dest == some p then s1.moveVerified k (frameLine c) else s1
  | .rewrite k =>
    let s1 := s.noteProgram p c.mode i
    if (s1.sett k).phys == some p && (s1.move k).any fun m => m.dest.isNone then s1.moveVerified k (frameLine c) else s1
  | .blanking => (s.noteProgram p c.mode i).blankVerified p c.line
  | .raw => s.noteProgram p c.mode i
  | .map copy k f => s.mapVerified copy k f
  | .sentinel m k copy => (if p.zone < 62 then s.noteProgram p c.mode i else s).sentinelVerified p.die m k copy c.line
  | _ => s

/-- Moves whose source lies on a die that cannot be read are given up and queued again; they start anew when it returns or the sett has been rebuilt
(R130 step 1). -/
def movesLeave (s : State) : State :=
  let stands (m : Move) : Bool := m.dest.isSome && m.read != BitVec.allOnes 256 &&
    (match m.kind with
      | .rebuild _ | .resync => false
      | _ => true) && ((s.sett m.lsett).phys.any fun q => !s.dieUp q.die) && !s.bench.scbs.any fun b => b.lsett == m.lsett && !b.closing
  (s.med.yarrow.moves.filter stands).foldl (fun s m => s.moveRequeue m.lsett false) s

/-- Lines held for a young way are programmed once there is one (R107). -/
def heldKick (s : State) : State :=
  s.med.yarrow.held.foldl (fun s x => match s.bline x with
    | some b => if !isDirty b then s.unhold x else if b.state == .dirty && !s.youngWaits x then (s.unhold x).writeBack x else s
    | none => s.unhold x) s

/-- Recovered lines that waited for room are placed where there is some (R117). -/
def recoverKick (s : State) : State :=
  if s.bench.domain != .opened then s
  else s.bench.recovers.foldl (fun s p =>
    let s1 := s.recoverLine p.1 p.2
    if (s1.recoverOf p.1).isSome then s1 else s1.resumeLine p.1) s

/-- Closing buffers return the slots that waited for room (R178). -/
def scbKick (s : State) : State :=
  s.bench.scbs.foldl (fun s b =>
    if (s.move b.lsett).isNone then s.scbDissolve b.lsett
    else if b.closing then (b.slots.filter fun k => k.use == .filling).foldl (fun s k => s.scbReturn b.lsett k) s
    else s) s

/-! ### Blank slots (R157, R159) -/

/-- Modes that have an OPEN zone on a die. -/
def openModes (s : State) (d : Nat) : List Mode :=
  [Mode.m2, .m3, .m4].filter fun m => (List.range 62).any fun z => (s.zone d z).state == .opened && (s.zone d z).mode == m

/-- The blank free slots of a zone opened in a mode, of those that the mode has. -/
def zoneBlanks (v : Zone) : Nat :=
  let cap := slotCap v.mode
  (if v.blank then cap - (v.slots.filter fun p => decide (p.1 < cap)).length else 0) +
    (v.slots.filter fun p => p.2.blank && !p.2.alloc && !p.2.spoil && decide (p.1 < cap)).length

/-- The zones of a mode that hold free slots: OPEN and PINNED. -/
def modeZones (s : State) (d : Nat) (m : Mode) : List Nat :=
  (List.range 62).filter fun z => ((s.zone d z).state == .opened || (s.zone d z).state == .pinned) && (s.zone d z).mode == m

/-- A die lacks blank slots for a mode in use. -/
def blankShort (s : State) (d : Nat) (m : Mode) : Bool :=
  decide (((s.modeZones d m).map fun z => zoneBlanks (s.zone d z)).foldl (· + ·) 0 < s.fld Reg.TSL_BLANK_CFG 0 15 0)

/-- BLANK_LOW of every die that is up (R159). -/
def judgeBlank (s : State) : State :=
  s.diesUp.foldl (fun s d =>
    let low := (s.openModes d).any fun m => s.blankShort d m
    if (s.die d).blankLow = low then s else s.setDie d { s.die d with blankLow := low }) s

/-- Work on setts that stands still is fed again: lines that waited for room or a source. -/
def medKick (s : State) : State :=
  let s0 := s.movesLeave.scbKick.heldKick.recoverKick.ladderKick
  let s1 := s0.med.yarrow.moves.foldl (fun s m => s.moveFeed m.lsett) s0
  let s2 := s1.med.yarrow.moves.foldl (fun s m => match m.dest with
    | some _ => s
    | none => (List.range 16).foldl (fun s i =>
        let x := lineOf m.lsett (16 * m.window + i)
        let (r, rl) := s.rlineOf x
        if (s.bline x).isNone && (s.lossOf r rl).isSome && !(((s.move m.lsett).getD m).read.getLsbD (16 * m.window + i)) then
          s.rewriteData m.lsett (16 * m.window + i) 0 else s) s) s1
  if s2.bench.domain == .draining || s2.bench.domain == .drained then s2
  else (List.range 9).foldl (fun s g =>
    let v := s.pass g
    if !(s.qg g).inService || !s.bit Reg.TSL_CTRL 0 0 then s
    else if v.waiting then
      let s0 := match v.slot with
        | some k => s.slotRecord k .done
        | none => s
      let s1 := s0.setPass g { v with waiting := false, slot := none }
      if v.running then s1.passRun g else s1.startPass g
    else if v.running then s.passRun g else s) s2

/-- A region that REGION_LOCK closed loses its key once no dirty line of it is left (R377). -/
def lockFinish (s : State) : State :=
  (s.sec.slots.filter fun p => p.2.locking).foldl (fun (s : State) p =>
    let mine (n : Nat) : Bool := (s.ownerOf n).any fun o => o.1 == p.1
    if (s.bench.lines.any fun l => l.2.any isDirty && mine (lineSett l.1)) || s.bench.scbs.any (fun b => mine b.lsett) then s
    else { s with sec := { s.sec with slots := Tab.put {} s.sec.slots p.1 { s.keySlot p.1 with locking := false, loaded := false } } }) s

/-- After a command of the medium side: what waited goes on, and the level causes follow. -/
def settleMed (s : State) : State := (s.settle.medKick.judgeYrw).judgeBlank.judgeTsl.lockFinish

end State

end Sys2Proof.Machine
end

