-- ==== Sys2Proof/Machine/DrainOps.lean ====
section
/-! DEFINITION. The drain (R186 to R195), its relocations, and replay at power-up (R198, R199). -/

namespace Sys2Proof.Machine

/-- The bytes of a line, lowest first. -/
def lineBytes (l : Line) : List Byte := (List.range 256).map fun i => (l >>> (8 * i)).setWidth 8

namespace State

/-! ### The drain area (R191) -/

/-- H, the setts of one half on a drain die. -/
def halfSetts (d : Nat) : Nat := 2 * ((256 + d - 1) / d)

/-- The place of position `p` of a half on its die: zone, slot and line. -/
def drainPlace (half : Bool) (h p : Nat) : Nat × Nat × Nat :=
  (62 + p % 2, (if half then h / 2 else 0) + p / 2 / 256, p / 2 % 256)

/-- What a drain writes, by frame: journal frames, masks, and data with an index frame after every 16 and after the last. -/
inductive DrainItem where
  | journal (f : Nat) | mask (first : Nat) | data (i : Nat) | index (first : Nat)
  deriving DecidableEq, Repr

/-- The data and index frames of `n` lines from line `i`. -/
def dataItems : Nat → Nat → List DrainItem
  | 0, i => if i % 16 = 0 then [] else [.index (i / 16 * 16)]
  | n + 1, i => .data i :: (if (i + 1) % 16 = 0 then .index (i / 16 * 16) :: dataItems n (i + 1) else dataItems n (i + 1))

/-- The frames of a drain in order. -/
def drainItems (v : Descriptor) : List DrainItem :=
  (List.range v.jFrames).map .journal ++ (List.range v.pFrames).map (fun k => .mask (8 * k)) ++ dataItems v.lines.length 0

/-- The masks of a drain, in the order of their numbers. -/
def drainMasks (v : Descriptor) : List (BitVec 256) := v.lines.filterMap fun l => l.mask

/-- The mask number of line `i`. -/
def maskNo (v : Descriptor) (i : Nat) : Nat := ((v.lines.take i).filter fun l => l.mask.isSome).length

/-- An index entry (Table 8-7) of line `i`, whose data frame lies at position `pos` of the die of ordinal `ord`. -/
def indexEntry (v : Descriptor) (i pos ord : Nat) : Nat :=
  match v.lines[i]? with
  | none => 0
  | some l =>
    l.line / 256 + l.line % 256 * 2 ^ 32 + l.mask.isSome.toNat * 2 ^ 40 + (if l.mask.isSome then maskNo v i else 0) * 2 ^ 41 +
      ord * 2 ^ 64 + pos * 2 ^ 73 + l.scb.toNat * 2 ^ 88

/-- The descriptor of a half. -/
def desc (s : State) (half : Bool) : Descriptor := if half then s.bench.descB else s.bench.descA

/-- STATE of a descriptor as its record holds it. -/
def DescState.code : DescState → Nat
  | .none => 0
  | .opened => 1
  | .committed => 2
  | .replayed => 3

/-- Writes the descriptor of a half, in its dual-copy record (R194). -/
def setDesc (s : State) (half : Bool) (v : Descriptor) : State :=
  (s.setBench (if half then { s.bench with descB := v } else { s.bench with descA := v })).nvWrite (Config.nvDrain half.toNat)
    [v.seq, DescState.code v.state, v.jFrames, v.pFrames, v.lines.length, v.triggers.toNat, v.duration, v.indexCrc.toNat, v.hashKey.toNat]

/-- The descriptor of the higher DRAIN_SEQ. -/
def newerDesc (s : State) : Descriptor := if s.bench.descA.seq < s.bench.descB.seq then s.bench.descB else s.bench.descA

/-! ### Running a drain -/

/-- The position of data frame `i` in frame order. -/
def frameOfData (v : Descriptor) (i : Nat) : Nat := v.jFrames + v.pFrames + i + i / 16

/-- The plaintext of a frame of the drain, before the metadata key; data frames hold ciphertext under the region's (R192). -/
def drainData (s : State) (v : Descriptor) (moved : List DrainFrame) : DrainItem → Line
  | .journal f => s.journalFrame f
  | .mask first => (List.range 8).foldl (fun (a : Line) k =>
      a ||| ((((drainMasks v)[first + k]?).getD 0).setWidth 2048 <<< (256 * k))) 0
  | .data i => match v.lines[i]? with
    | some l => s.cipher l.line l.data
    | none => 0
  | .index first => BitVec.ofNat 2048 ((List.range 16).foldl (fun a k =>
      let i := first + k
      let f := frameOfData v i
      let d := max 1 v.dies.length
      let at_ : Nat × Nat := match moved.find? fun m => m.k == f with
        | some m => (m.pos, (v.dies.findIdx? fun e => e == m.die).getD 0)
        | none => (f / d, f % d)
      a + (if i < v.lines.length then indexEntry v i at_.1 at_.2 else 0) * 2 ^ (128 * k)) 0)

/-- An index frame waits until its data frames lie where they will stay; every other frame is ready at once. -/
def drainReady (v : Descriptor) (left : List DrainFrame) (k : Nat) : Bool :=
  match (drainItems v)[k]? with
  | some (.index first) => (List.range 16).all fun j =>
      decide (v.lines.length ≤ first + j) || !left.any fun f => f.k == frameOfData v (first + j)
  | _ => true

/-- Frame kind of Table 8-6. -/
def itemKind : DrainItem → BitVec 8
  | .data _ => 1
  | .index _ => 2
  | .journal _ => 3
  | .mask _ => 4

/-- Queues the program of a drain frame at its place. -/
def drainProgram (s : State) (f : DrainFrame) : State :=
  match s.bench.drain with
  | none => s
  | some g =>
    let v := s.desc g.half
    let it := (drainItems v)[f.k]?.getD (.journal 0)
    let p := drainPlace g.half (halfSetts v.dies.length) f.pos
    let plain := s.drainData v g.moved it
    let data := match it with
      | .data _ => plain
      | _ => Config.encrypt s.metaKey (drainTweak f.k v.seq) plain
    s.issue f.die {
      op := .program, die := 0, zone := p.1, slot := p.2.1, line := p.2.2, mode := .m2, user := .drain f.k
      frame := some {
        of := .drain g.half f.k, gen := BitVec.ofNat 24 (v.seq % 0xFFFFFF + 1), epoch := (v.stamp >>> 12).setWidth 20
        lrot := itemKind it, data := data } }

/-- The lines a drain carries (R171, R182): the slots of stream buffers not yet committed, and then the dirty lines of Bench 0, which
supersede them, with their masks. -/
def drainImage (s : State) : List DrainLine :=
  (s.bench.scbs.flatMap fun b => b.slots.map fun k =>
    { line := lineOf b.lsett k.line, mask := if k.mask = 15#4 then none else some (chunkBytes k.mask), scb := true, data := k.data }) ++
  s.bench.lines.filterMap fun p => match p.2 with
    | some b => if isDirty b then
        some { line := p.1, mask := if isPartial b then some b.valid else none, scb := false, data := b.data } else none
    | none => none

/-- The half a drain writes: the one that does not hold the last committed drain (R191). -/
def targetHalf (s : State) : Bool :=
  let held (v : Descriptor) : Bool := v.state == .committed || v.state == .replayed
  match held s.bench.descA, held s.bench.descB with
  | true, true => decide (s.bench.descB.seq < s.bench.descA.seq)
  | true, false => true
  | _, _ => false

/-- Slots taken for first programs that never ran go back to the free list: their setts hold nothing yet. -/
def dropFirst (s : State) (p : QChan → List QmiCmd) : State :=
  s.med.chans.foldl (fun s e => (p e.2).foldl (fun s c =>
    match c.op, c.user with
    | .program, .writeBack _ =>
      if (s.sett c.lsett).phys.isNone then
        let q : Phys := { die := e.1 * 16 + c.die, zone := c.zone, slot := c.slot }
        s.leaveSlot q (slotInfo (s.zone q.die q.zone) q.slot).wear false
      else s
    | _, _ => s) s) s

/-- A drain starts (R189, steps 1 to 6): the gate closes, ingress stops, the twin is told, all other work is abandoned, the floor and the
descriptor are written, and every frame is queued to its die. -/
def startDrain (s : State) (code : Nat) (orderly : Bool) : State :=
  let old := s.bench.drain
  let half := s.targetHalf
  let dies := s.drainDies
  let start := match old with
    | some d => d.start
    | none => s.tally.now
  let img := s.drainImage
  let v : Descriptor := {
    seq := s.newerDesc.seq + 1, state := .opened, half := half, dies := dies, stamp := s.sNow, jFrames := s.jLive
    pFrames := ((img.filter fun l => l.mask.isSome).length + 7) / 8, hashKey := s.bench.hashKey, lines := img }
  let s1 := s.setBench { s.bench with domain := .draining, held := [], frame := [], drain := some {
    first := (old.map fun d => d.first).getD code, triggers := s.bench.triggers, half := half, start := start } }
  let s2 := (((s1.judgeBench.emit (.ingress false)).tsend false (.control (.draining code))).writeFloor orderly).setDesc half v
  let s2 := s2.dropFirst fun q => q.queue
  let s3 := s2.setMed { s2.med with
    chans := s2.med.chans.map (fun p => (p.1, { p.2 with queue := [] })), judges := []
    passes := Tab.mapVals {} (fun _ v => passHeld v) s2.med.passes }
  let total := (drainItems v).length
  if dies.isEmpty then
    s3.setBench { s3.bench with drain := s3.bench.drain.map fun d => { d with lost := decide (0 < total) } }
  else
    let fs : List DrainFrame := (List.range total).map fun k =>
      { k := k, die := dies.getD (k % dies.length) 0, pos := k / dies.length }
    let s4 := s3.setBench { s3.bench with drain := s3.bench.drain.map fun d => { d with frames := fs } }
    fs.foldl (fun s f => if drainReady v fs f.k then s.drainProgram f else s) s4

/-- A drain frame goes to another place (R193): the next free position beyond the planned range of its die, else the next drain die by
ordinal. With no die left the engine stops. -/
def drainReloc (s : State) (k : Nat) : State :=
  match s.bench.drain with
  | none => s
  | some g =>
    match g.frames.find? fun f => f.k == k with
    | none => s
    | some f =>
      let v := s.desc g.half
      let planned := ((drainItems v).length + v.dies.length - 1) / max 1 v.dies.length
      let cap := halfSetts (max 1 v.dies.length) * 256
      let from_ := (v.dies.findIdx? fun d => d == f.die).getD 0
      let order := (v.dies.drop from_ ++ v.dies.take from_).filter fun d => !(s.die d).failed && s.dieUp d
      match order.find? fun d => decide (planned + Tab.get 0 g.extra d < cap) with
      | none => s.setBench { s.bench with drain := some { g with lost := true, frames := [] } }
      | some d =>
        let e := Tab.get 0 g.extra d
        let f1 : DrainFrame := { k := k, die := d, pos := planned + e }
        let s1 := s.setBench { s.bench with drain := some { g with
          extra := Tab.put 0 g.extra d (e + 1), frames := g.frames.map fun x => if x.k == k then f1 else x
          moved := f1 :: g.moved.filter fun x => x.k != k } }
        let s2 := s1.cause Reg.PBF_CAUSE 0 5 285
        if drainReady v g.frames k then s2.drainProgram f1 else s2

/-- A drain program has ended. -/
def drainDone (s : State) (k : Nat) (ok : Bool) : State :=
  if !ok then s.drainReloc k
  else match s.bench.drain with
    | none => s
    | some g =>
      let v := s.desc g.half
      let left := g.frames.filter fun f => f.k != k
      let s1 := s.setBench { s.bench with drain := some { g with frames := left } }
      (left.filter fun f => drainReady v left f.k && !drainReady v g.frames f.k).foldl (fun s f => s.drainProgram f) s1

/-- The drain dies that left service during the drain give their frames to others (R193). -/
def drainLostDies (s : State) : State :=
  match s.bench.drain with
  | none => s
  | some g => if s.bench.domain != .draining then s
    else (g.frames.filter fun f => !s.dieUp f.die).foldl (fun s f => s.drainReloc f.k) s

/-! ### Opening the domain and replay (R172, R198, R199) -/

/-- The dies that can be read have their tables loaded, once training has ended on every channel in use (R18, R19). -/
def tablesIn (s : State) : Bool := s.dieIds.all fun d => s.dieSettled d || !(s.die d).used

/-- Steps 1 and 2 of R250 and the placing of the arrays (R235, R266): COUNT is set, the pool takes what remains, and every chunk that a live
journal record touches is loaded. Arrays that do not fit fence every region. -/
def loadStart (s : State) : State :=
  if !s.psq.mainUp || s.dram.st != .ready || s.xlt.load != .beforeOpen || !s.tablesIn then s
  else
    let c := min 131072 (58 * s.diesUp.length)
    let n := min c s.countByBench
    let s := s.formatMap n
    let chunks := (s.xlt.jrnl.recs.flatMap fun r => s.recChunks r).filter fun x => decide (x < chunkBase s.xlt.map.count .blankMap)
    let short := decide (s.b1Gib * 1048576 < arraysKib n)
    let s1 := s.setXlt { s.xlt with
      extents := n, short := decide (n < c), poolTotal := s.poolPages n, arraysShort := short, load := .background
      loaded := chunks.foldl (fun t x => Tab.put false t x true) s.xlt.loaded, freeLoaded := [] }
    (if short then s1.regionIds.foldl (fun s r => s.fenceWitness r) s1 else s1).judgeXlt

/-- The domain enters OPEN once replay is done with, every rail is qualified, the input is good and a drain die is in service (R172);
DRAIN_DONE goes low (R190). -/
def tryOpen (s : State) : State :=
  let shut := s.bench.domain == .closed || s.bench.domain == .replaying
  if s.psq.mainUp && shut && s.bench.replayed && s.bench.replay.isEmpty && s.psq.inputGood &&
      s.allRails s.enabledRails .on && decide (s.drainD ≠ 0) then
    let s1 := s.setBench { s.bench with domain := .opened, trigger := 0, reaction := 0, triggers := 0, drain := none }
    (((s1.setPsq { s1.psq with drainDone := false }).emit (.ingress true)).judgeBench).loadStart
  else if s.bench.domain == .opened then s.loadStart else s

/-- A drain that did not commit, or that cannot be read (R199): captured, every region of this controller suspect with VALID 0
journaled, and the descriptor REPLAYED. -/
def drainIncomplete (s : State) (half : Bool) : State :=
  let s1 := s.cause Reg.PBF_CAUSE 0 6 286
  let s2 := s1.setBench { s1.bench with suspect := true, shutdowns := s1.bench.shutdowns + 1, replayed := true, replay := [], replaying := none }
  let s3 := s2.regionIds.foldl (fun s r => s.putRt r { s.rt r with valid := false, opened := false }) s2
  (s3.setDesc half { s3.desc half with state := .replayed }).tryOpen

/-- Start-up looks at the descriptors (R198): a committed drain is to be replayed, an OPEN one is incomplete, else there is nothing. -/
def replayChoose (s : State) : State :=
  let v := s.newerDesc
  match v.state with
  | .committed => (s.setBench { s.bench with domain := .replaying, replayed := false }).judgeBench
  | .opened => s.drainIncomplete v.half
  | _ => (s.setBench { s.bench with replayed := true }).tryOpen

/-- Where frame `k` of a committed drain lies: its die and position (R191, R193). -/
def replayPlace (v : Descriptor) (k : Nat) : Nat × Nat :=
  match v.moved.find? fun m => m.k == k with
  | some m => (m.die, m.pos)
  | none => (v.dies.getD (k % max 1 v.dies.length) 0, k / max 1 v.dies.length)

/-- A frame of the drain cannot be recovered (R199). -/
def replayLost (s : State) (k : Nat) : State :=
  match s.bench.replaying with
  | some p => s.setBench { s.bench with replaying := some { p with
      left := p.left.erase k, lost := if p.data then p.lost ++ [k] else p.lost, bad := p.bad || !p.data } }
  | none => s

/-- Asks for frame `k` (R198 step 2): in the bin of the drain stamp, as a settled line whose band is [stamp, stamp]. -/
def replayAsk (s : State) (op : QmiOp) (k : Nat) : State :=
  let v := s.newerDesc
  let q := replayPlace v k
  let p := drainPlace v.half (halfSetts v.dies.length) q.2
  let a := 256 * s.age q.1 v.stamp.toNat
  s.issue q.1 {
    op := op, die := 0, zone := p.1, slot := p.2.1, line := p.2.2, mode := .m2, refset := binOf a a, user := .replay k
    delta := if op == .softRead then (s.fld Reg.RD_CTRL 0 11 4 : Nat) else 0 }

/-- A frame of the drain has been sensed (R154, R199): GEN and LROT are those of Table 8-6. One beyond reach goes to R115; DESIGN CHOICE (log entry 138): one
of another drain or kind cannot be recovered, and an unreadable mask frame counts as an index frame. -/
def replayFrame (s : State) (k : Nat) (op : QmiOp) (dec : Option Decoded) : State :=
  let v := s.newerDesc
  match s.bench.replaying with
  | none => s
  | some p =>
    if !p.left.contains k then s
    else
      let it := (drainItems v)[k]?.getD (.journal 0)
      match dec with
      | some d =>
        if d.gen.toNat == v.seq % 0xFFFFFF + 1 && d.lrot == itemKind it then
          let plain := match it with
            | .data i => match v.lines[i]? with
              | some l => s.plain l.line d.data
              | none => 0
            | _ => Config.decrypt s.metaKey (drainTweak k v.seq) d.data
          s.setBench { s.bench with replaying := some { p with left := p.left.erase k, read := p.read ++ [(k, plain)] } }
        else s.replayLost k
      | none => if op != .softRead && s.bit Reg.RD_CTRL 0 0 then s.replayAsk .softRead k else s.replayLost k

/-- CRC-32 over the index frames that were read, in order (Table 8-8). -/
def replayCrc (v : Descriptor) (read : List (Nat × Line)) : Word :=
  crc32 ((drainItems v).zipIdx.flatMap fun e => match e.1 with
    | .index _ => lineBytes (((read.find? fun x => x.1 == e.2).map Prod.snd).getD 0)
    | _ => [])

/-- Steps 1 and 2 of a replay (R198): the hash key, and the reading of the journal, mask and index frames. -/
def replayBegin (s : State) : State :=
  let v := s.newerDesc
  let ks := ((drainItems v).zipIdx.filter fun e => match e.1 with
    | .data _ => false
    | _ => true).map Prod.snd
  ks.foldl (fun s k => s.replayAsk .read k) (s.setBench { s.bench with replaying := some { left := ks } })

/-- Steps 3 and 4 begin (R198): the journal is applied, and the data frames are read. -/
def replayData (s : State) : State :=
  let v := s.newerDesc
  let ks := (List.range v.lines.length).map (frameOfData v)
  let s1 := s.loadStart
  ks.foldl (fun s k => s.replayAsk .read k) (s1.setBench { s1.bench with
    replaying := s1.bench.replaying.map fun p => { p with data := true, left := ks } })

/-- Every data frame has been read or is lost (R198, R199): lost lines join the loss list, marked AWAIT_TWIN, and the others are to be installed. -/
def replayInstall (s : State) (p : Replay) : State :=
  let v := s.newerDesc
  let lines := v.lines.zipIdx.filter fun l => !v.discard.contains (s.rlineOf l.1.line).1
  let lost := (lines.filter fun l => p.lost.contains (frameOfData v l.2)).map fun l => l.1.line
  let s1 := lost.foldl (fun s x =>
    let (r, rl) := s.rlineOf x
    let s1 := s.setBench { s.bench with awaits := if s.bench.awaits.contains x then s.bench.awaits else s.bench.awaits ++ [x] }
    s1.lose r rl 0) s
  s1.setBench { s1.bench with
    replayed := true, replaying := none
    replay := lines.filterMap fun l => (p.read.find? fun x => x.1 == frameOfData v l.2).map fun x => { l.1 with data := x.2 } }

/-- The reading of a drain goes on: frames of dies that have left service are lost; with every frame of a step at hand the next begins, or the drain is
incomplete (R198, R199). -/
def replayStep (s : State) : State :=
  let v := s.newerDesc
  let gone (k : Nat) : Bool := let d := (replayPlace v k).1; s.dieSettled d && !s.dieUp d
  let s := match s.bench.replaying with
    | some p => (p.left.filter gone).foldl (fun (s : State) k => s.replayLost k) s
    | none => s
  match s.bench.replaying with
  | none => s
  | some p =>
    if !p.left.isEmpty then s
    else if p.data then s.replayInstall p
    else if p.bad || replayCrc v p.read != v.indexCrc then s.drainIncomplete v.half
    else s.replayData

/-- The end of a replay: both copies REPLAYED, REPLAY_DONE, and the domain opens (R198 step 5). -/
def replayEnd (s : State) : State :=
  let v := s.newerDesc
  if s.bench.domain == .replaying && s.bench.replayed && s.bench.replay.isEmpty && v.state == .committed then
    ((s.setDesc v.half { v with state := .replayed }).cause Reg.PBF_CAUSE 0 7 287).tryOpen
  else s

/-- Installs the lines a replay still has, in order, until one finds its set at the dirty limit (R198 step 4). A line of a LOCKED region is
sealed (R379). -/
def replayRun (s : State) : Nat → State
  | 0 => s
  | f + 1 =>
    match s.bench.replay with
    | [] => s.replayEnd
    | l :: rest =>
      match s.placeLine l.line (l.mask.getD (BitVec.allOnes 256)) l.data true with
      | (s1, true) =>
        let s2 := if s1.locked (s1.rlineOf l.line).1 then { s1 with sec := { s1.sec with sealed := s1.sec.sealed ++ [l.line] } } else s1
        (s2.setBench { s2.bench with replay := rest }).replayRun f
      | (s1, false) => s1

/-- Replay goes on as far as it can: a drain without data frames passes from one step to the next at once. -/
def replayKick (s : State) : State :=
  let s1 := s.replayStep.replayStep
  s1.replayRun (s1.bench.replay.length + 1)

/-! ### The orderly flush (R188) -/

/-- A dirty line that cannot be written back now: unavailable, a partial line whose merge waits, or a sealed partial line. -/
def stuckLine (s : State) (x : Nat) : Bool :=
  match (s.sett (lineSett x)).phys with
  | some p => !s.dieUp p.die || (s.sec.sealed.contains x && (s.bline x).any isPartial)
  | none => s.sec.sealed.contains x && (s.bline x).any isPartial

/-- Writes back what is dirty, for an orderly power-down. -/
def flushKick (s : State) : State :=
  match s.bench.drain with
  | some g =>
    if g.flush && s.bench.domain == .opened then
      let s1 := s.bench.scbs.foldl (fun s b => s.scbClose b.lsett) s
      (s1.bench.lines.map Prod.fst).foldl (fun s x => s.writeBack x) s1
    else s
  | none => s

/-- The flush is over: every write ordered here is acknowledged, the pair has parked or there is none, and nothing that can be written
back is dirty. -/
def flushOver (s : State) : Bool :=
  s.bench.orders.isEmpty && s.bench.forwarded.isEmpty && !s.paired && s.bench.scbs.isEmpty &&
    s.bench.lines.all fun p => match p.2 with
      | some b => !isDirty b || s.stuckLine p.1
      | none => true

end State

end Sys2Proof.Machine
end

