-- ==== Sys2Proof/Machine/YarrowOps.lean ====
section
/-! DEFINITION. Yarrow (chapter 6): the start of queued work in class order (R136 to R138, R167), the commit of a move (R130), wear scans
(R139), the retirement of zones (R141), the capacity state (R142 to R147) and a die's log (R97). -/

namespace Sys2Proof.Machine

namespace State

/-! ### Capacity (R142, R144, R147) -/

/-- The destination of a rebuild (R167): spare zones of the channel, its user zones, then the in-service channel with the most free slots of
the mode. -/
def rebuildDest (s : State) (n : Nat) : Option Phys :=
  let e := s.sett n
  match e.phys with
  | none => none
  | some p =>
    let c := dieChan p.die
    let none_ : Nat → Bool := fun _ => false
    let freeOn (k : Nat) : Nat := (((s.chanDies k).filter fun d => s.dieAllocates d).map fun d => ((List.range 62).map fun z =>
      let v := s.zone d z
      if v.state == .empty then slotCap e.mode
      else if (v.state == .opened || v.state == .pinned) && v.mode == e.mode then
        slotCap e.mode - (v.slots.filter fun q => q.2.alloc || q.2.spoil).length
      else 0).foldl (· + ·) 0).foldl (· + ·) 0
    let best := s.serviceChans.foldl (fun (b : Option (Nat × Nat)) k =>
      let f := freeOn k
      match b with
      | none => if f = 0 then none else some (f, k)
      | some (g, _) => if g < f then some (f, k) else b) none
    ((s.chanSlot c e.mode (fun _ z => decide (58 ≤ z)) none_).orElse fun _ => s.chanSlot c e.mode (fun _ z => decide (z < 58)) none_).orElse
      fun _ => match best with
        | some (_, k) => s.chanSlot k e.mode (fun _ _ => true) none_
        | none => none

/-- A sett of a failed die holds a dirty line (R86, R137 class 2). -/
def holdsDirty (s : State) (n : Nat) : Bool := s.bench.lines.any fun p => lineSett p.1 == n && p.2.any isDirty

/-- The setts that wait for a slot (R147): only those that hold dirty lines may draw on the reserve. -/
def judgeShort (s : State) : State :=
  let y := s.med.yarrow
  let short := if s.paired then s.med.rebuild.filter fun n => (s.move n).isNone &&
      ((s.rebuildDest n).isNone || (!s.holdsDirty n && !s.outsideReserve (s.sett n).mode)) else []
  (if short = y.short then s else s.setYrw { y with short := short }).judgeYrw

/-- Recomputes spare and the capacity state (R142, R144): a change is told to the twin, and a home applies RED. -/
def spareNow (s : State) : State :=
  let y := s.med.yarrow
  let z := s.userUnits
  let sp := s.spareUnits 0
  let cap := capOf sp z
  let bp : Nat := if sp ≤ 0 ∨ z = 0 then 0 else min 65535 (sp.toNat * 10000 / z)
  let s1 := s.setYrw { y with cap := cap, spareBp := bp }
  let s2 := if cap != y.cap && s.paired then s1.tsend false (.control (.capState cap)) else s1
  ((s2.judgeShort).judgeRed).noteHealth

/-- A PINNED zone a quarter of which is in the Spoil empties its setts, and becomes RETIRED with the last one (R141). -/
def retireZones (s : State) : State :=
  s.med.zones.foldl (fun s p =>
    let v := s.zone (p.1 / 64) (p.1 % 64)
    let spoiled := (v.slots.filter fun q => q.2.spoil).length
    if v.state != .pinned || decide (4 * spoiled < slotCap v.mode) then s
    else if v.slots.any fun q => q.2.alloc && !q.2.reserved then
      let mine := (s.med.setts.filter fun q => match q.2.phys with
        | some h => h.die == p.1 / 64 && h.zone == p.1 % 64
        | none => false).map Prod.fst
      mine.foldl (fun s n => s.queueWork n .zoneOut) s
    else (s.setZone (p.1 / 64) (p.1 % 64) { v with state := .retired }).journal (.zone (p.1 / 64) (p.1 % 64))) s

/-! ### A die's age-scale log (R97) -/

/-- A log of 240 entries (R97): setts with an edge older than its 16th entry are rewritten; once there is none the 15 oldest entries go. -/
def foldLog (s : State) (d : Nat) : State :=
  let v := s.die d
  match v.log[15]? with
  | none => s
  | some e =>
    if v.log.length < 240 then s
    else
      let old := (s.med.setts.filter fun q => q.2.band && decide ((s.bandStamps q.2).1 < e.t) && match q.2.phys with
        | some p => p.die == d
        | none => false).map Prod.fst
      if old.isEmpty then
        ((s.setDie d { v with cmp := v.cmp.map fun c => { c with mark := c.mark - 15 } }).setLog d (v.log.drop 15)).journal (.ageLog d)
      else old.foldl (fun s n => s.queueWork n .bandLog) s

/-! ### Starting work (R136, R137) -/

/-- A quarter or more of a PINNED zone is in the Spoil: its setts are to leave it (R141). -/
def emptying (v : Zone) : Bool := v.state == .pinned && decide (slotCap v.mode ≤ 4 * (v.slots.filter fun q => q.2.spoil).length)

/-- A slot is worn beyond RATIO quarters of its die's mean (R139). -/
def wornBeyond (s : State) (d : Nat) (w : BitVec 16) : Bool :=
  let t := s.dieTotals d
  decide (s.fld Reg.YRW_CFG 0 7 0 * t.1 < 4 * wearN w * t.2)

/-- Queued work that its sett no longer calls for (R136). -/
def satisfied (s : State) (w : Work) : Bool :=
  let e := s.sett w.lsett
  match e.phys, w.kind with
  | none, _ => (s.move w.lsett).isNone && !s.firstPending w.lsett
  | some p, .onset q => p != q
  | _, .convert m => e.mode == m || !(match s.ownerOf w.lsett with
      | some (r, _) => match (s.region r).conv with
        | some c => c.target == m
        | none => false
      | none => false)
  | some p, .zoneOut => !emptying (s.zone p.die p.zone)
  | some p, .wear _ src => p != src
  | _, _ => false

/-- A destination on the sett's own channel, outside the reserve. -/
def channelDest (s : State) (p : Phys) (m : Mode) (zones : Nat → Nat → Bool) : Option Phys :=
  if s.outsideReserve m then s.chanSlot (dieChan p.die) m zones (fun _ => false) else none

/-- The destination of a wear or balance move: the slot chosen by the scan while it is still a free slot of the mode, else another one of its die (R127,
R139). -/
def wearDest (s : State) (q : Phys) (m : Mode) : Option Phys :=
  let v := s.zone q.die q.zone
  let i := slotInfo v q.slot
  let fits := (v.state == .opened || v.state == .pinned) && v.mode == m || (v.state == .empty && ((s.dieSlot q.die m fun _ => true).any fun c => c.1 == q.zone))
  if !s.dieUp q.die || !s.outsideReserve m then none
  else if fits && !i.alloc && !i.spoil && decide (q.slot < slotCap m) then some q
  else (s.dieSlot q.die m fun _ => true).map fun c => { die := q.die, zone := c.1, slot := c.2.1 }

/-- The destination with which a work item starts: some none for a rewrite in place, none where it cannot start now. -/
def workDest (s : State) (w : Work) (p : Phys) : Option (Option Phys × Mode) :=
  let e := s.sett w.lsett
  let any_ : Nat → Nat → Bool := fun _ _ => true
  let into (q : Option Phys) (m : Mode) : Option (Option Phys × Mode) := q.map fun q => (some q, m)
  match w.kind with
  | .remap => into (s.chanSlot (dieChan p.die) e.mode any_ fun _ => false) e.mode
  | .rebuild dirty => into (if dirty || s.outsideReserve e.mode then s.rebuildDest w.lsett else none) e.mode
  | .onset _ => into (s.channelDest p e.mode any_) e.mode
  | .wear q _ => into (s.wearDest q e.mode) e.mode
  | .zoneOut => into (s.channelDest p e.mode fun d z => !(d == p.die && z == p.zone)) e.mode
  | .convert m =>
    if (s.pairCap == .amber || s.pairCap == .red) && decide (settUnits e.mode < settUnits m) then none
    else into (s.channelDest p m any_) m
  | _ =>
    let onset := s.med.yarrow.queue.any fun x => x.lsett == w.lsett && x.kind == .onset p
    if !s.psq.mainUp || onset || s.wornBeyond p.die e.wear then into (s.channelDest p e.mode any_) e.mode else some (none, e.mode)

/-- What a kind of work may run in: in a KEEP burst only refreshes, band rewrites and onset moves (R163, R444). -/
def workRuns (s : State) (k : WorkKind) : Bool :=
  if s.psq.mainUp then (classOf k != 8 && classOf k != 9) || s.bit Reg.YRW_CTRL 0 0
  else match k with
    | .onset _ | .refresh | .bandHeld | .bandOccupancy | .bandLog => true
    | _ => false

/-- Takes a work item off the queue. -/
def unqueue (s : State) (w : Work) : State := s.setYrw { s.med.yarrow with queue := s.med.yarrow.queue.erase w }

/-- The cause a kind of work captures as it starts (Table 6-11). -/
def workCause (s : State) (k : WorkKind) : State :=
  match k with
  | .remap => s.cause Reg.YRW_CAUSE 0 9 156
  | .bandHeld => s.cause Reg.YRW_CAUSE 0 16 154
  | .bandLog => s.cause Reg.YRW_CAUSE 0 18 154
  | _ => s

/-- Displaces whatever else works on a sett, for a remap (R136): it is queued again. -/
def displace (s : State) (n : Nat) : State :=
  let s1 := s.moveRequeue n false
  match (s1.sett n).mig with
  | .promoting => (s1.endPromotion n).wantPromote n false
  | .demoting => s1.endPromotion n
  | _ => s1

/-- Work is for a sett whose die is out of service (R170). -/
def rebuilding : WorkKind → Bool
  | .rebuild _ => true
  | _ => false

/-- Begins a piece of work at the destination chosen: the queue and its cause, a remap's intent and the move it displaces, the move itself,
and the twin asked for the lines of a rebuild. -/
def workBegin (s : State) (w : Work) (dest : Option Phys) (m : Mode) : State :=
  let n := w.lsett
  let s1 := (s.unqueue w).workCause w.kind
  let s2 := match w.kind, dest with
    | .remap, some q => (s1.displace n).journal (.remapIntent n q.die q.zone q.slot)
    | _, _ => s1
  let s3 := s2.moveStart n w.kind dest m
  let spoil := match w.kind with
    | .remap | .onset _ => true
    | _ => false
  let s4 := match s3.move n with
    | some mv => if spoil then s3.setMove { mv with spoil := true } else s3
    | none => s3
  if rebuilding w.kind then
    match s4.ownerOf n with
    | some (r, _) => s4.assistAsk .rebuild r (lineOf n 0) 256
    | none => s4
  else s4

/-- Starts a work item, none where it cannot start now (R136, R137). A remap takes its sett from any other work. -/
def startWork (s : State) (w : Work) : Option State :=
  let n := w.lsett
  let e := s.sett n
  let idle := e.mig == .idle && (s.move n).isNone
  let busyRemap := (s.move n).any fun m => m.kind == .remap
  match e.phys with
  | none => none
  | some p =>
    if !s.workRuns w.kind || s.jFull || !s.chunkLoaded n || busyRemap || !(idle || w.kind == .remap) then none
    else if rebuilding w.kind != !s.dieUp p.die then none
    else (s.workDest w p).map fun x => s.workBegin w x.1 x.2

/-- The work that waits, in class order and within a class in request order; rebuilds come from the list of failed dies' setts, while the twin
serves their region (R137, R167). -/
def workOrder (s : State) : List Work :=
  let mine (n : Nat) : Bool := s.paired && (s.move n).isNone && match s.ownerOf n with
    | some (r, _) => !(s.rt r).twinUnfit
    | none => false
  let rb := s.med.rebuild.filter mine
  (List.range 10).flatMap fun c =>
    (s.med.yarrow.queue.filter fun w => classOf w.kind == c) ++
    (if c = 2 then (rb.filter fun n => s.holdsDirty n).map fun n => { lsett := n, kind := .rebuild true }
    else if c = 6 then (rb.filter fun n => !s.holdsDirty n).map fun n => { lsett := n, kind := .rebuild false }
    else [])

/-- Drops queued work that is satisfied. -/
def dropSatisfied (s : State) : State :=
  s.setYrw { s.med.yarrow with queue := s.med.yarrow.queue.filter fun w => !s.satisfied w }

/-- Starts the first work item that can start. -/
def dispatchWork (s : State) : State :=
  let s0 := s.dropSatisfied
  ((s0.workOrder.findSome? fun w => s0.startWork w).getD s0).judgeShort

/-! ### The commit (R130) -/

/-- A conversion ends with the last of its region's setts (R148), whatever work moved it. -/
def convCheck (s : State) (n : Nat) : State :=
  match s.ownerOf n with
  | none => s
  | some (r, _) => match (s.region r).conv with
    | none => s
    | some c =>
      let left := s.settsOf r fun k => (s.sett k).mode != .none && (s.sett k).mode != c.target
      if left.isEmpty then ((s.setRegion r { s.region r with conv := none }).journal (.region r)).cause Reg.YRW_CAUSE 0 19 154 else s

/-- Commits whole-sett work whose every line has verified (R130 step 2); what it satisfies is dropped, and what waited for it goes on. -/
def commitWork (s : State) (n : Nat) : State :=
  match s.move n with
  | none => s
  | some m =>
    if m.verified != BitVec.allOnes 256 || s.jFull then s
    else
      let old := (s.sett n).phys
      let failed := m.dest.isSome && s.med.yarrow.queue.any fun w => w.lsett == n && w.kind == .remap
      let s0 := if failed then (s.setMove { m with spoil := true }).unqueue { lsett := n, kind := .remap } else s
      let s1 := ((s0.moveCommit n).setScb n none).satisfyWork n
      let s2 := match m.kind with
        | .remap =>
          let y := s1.med.yarrow
          (s1.setYrw { y with fails := Tab.put 0 y.fails n 0 }).bump Reg.YRW_REMAP_CNT 0 31 0
        | .rebuild _ => s1.setMed { s1.med with rebuild := s1.med.rebuild.filter fun k => k != n }
        | .resync => match s1.ownerOf n with
          | some (r, _) => s1.targetSett r
          | none => s1
        | _ => s1
      let s2 := s2.convCheck n
      let s3 := match old with
        | some p => s2.foldLog p.die
        | none => s2
      ((((s3.retireZones).spareNow).judgeOccupancy).writeDeadline).settleMed

/-! ### Wear levelling (R139) -/

/-- The setts on a die, with their entries. -/
def dieSetts (s : State) (d : Nat) : List (Nat × Sett) :=
  s.med.setts.filter fun q => q.2.mode != .none && match q.2.phys with
    | some p => p.die == d
    | none => false

/-- The stamp of a sett's BAND_NEW edge. -/
def newEdge (e : Sett) : Nat := e.bandNew.toNat * 4096 + e.newOfs.toNat

/-- Queues a wear or balance move, once per sett. -/
def queueWear (s : State) (n : Nat) (q : Phys) : State :=
  match (s.sett n).phys with
  | some p => if (s.move n).isSome || s.med.yarrow.queue.any (fun w => w.lsett == n && classOf w.kind == 8) then s else s.queueWork n (.wear q p)
  | none => s

/-- The most worn free slot of a die, with its WEAR and the mode of its zone. -/
def mostWornFree (s : State) (d : Nat) : Option (Phys × BitVec 16 × Mode) :=
  ((List.range 62).flatMap fun z =>
    let v := s.zone d z
    if v.state == .retired || v.mode == .none then []
    else v.slots.filterMap fun p => if p.2.alloc || p.2.spoil || decide (slotCap v.mode ≤ p.1) then none
      else some (({ die := d, zone := z, slot := p.1 } : Phys), p.2.wear, v.mode)).foldl
    (fun (b : Option (Phys × BitVec 16 × Mode)) c => match b with
      | none => some c
      | some x => if x.2.1 < c.2.1 then some c else b) none

/-- The sett that wear_scan moves onto a worn slot: the one of the oldest BAND_NEW edge in the slot's mode (R139), among those of rank COLD where there
are any (R255). -/
def coldSett (s : State) (d : Nat) (m : Mode) : Option Nat :=
  let mine := (s.dieSetts d).filter fun q => q.2.mode == m && q.2.band
  let cold := mine.filter fun q => s.rankOf q.1 == 1
  ((if cold.isEmpty then mine else cold).foldl (fun (b : Option (Nat × Nat)) q =>
    match b with
    | none => some (newEdge q.2, q.1)
    | some x => if newEdge q.2 < x.1 then some (newEdge q.2, q.1) else b) none).map Prod.snd

/-- wear_scan of R139. -/
def wearScan (s : State) (d : Nat) : State :=
  let s1 := (s.dieSetts d).foldl (fun s q =>
    if s.wornBeyond d q.2.wear then match s.dieSlot d q.2.mode fun _ => true with
      | some (z, k, _) => s.queueWear q.1 { die := d, zone := z, slot := k }
      | none => s
    else s) s
  match s1.mostWornFree d with
  | none => s1
  | some (p, w, m) =>
    if !s1.wornBeyond d w then s1
    else match s1.coldSett d m with
      | some n => s1.queueWear n p
      | none => s1

/-- balance_scan of R139. -/
def balanceScan (s : State) (n : Nat) : State :=
  let ds := (s.chanDies n).filter fun d => s.dieUp d
  let tot := ds.foldl (fun (a : Nat × Nat) d => (a.1 + (s.dieTotals d).1, a.2 + (s.dieTotals d).2)) (0, 0)
  if tot.2 = 0 then s
  else ds.foldl (fun s d =>
    let t := s.dieTotals d
    if t.2 = 0 ∨ t.1 * 4 * tot.2 ≤ s.fld Reg.YRW_CFG 0 23 16 * tot.1 * t.2 then s
    else
      let hot := ((s.dieSetts d).filter fun q => q.2.band).foldl (fun (b : Option (Nat × Nat × Mode)) q =>
        match b with
        | none => some (newEdge q.2, q.1, q.2.mode)
        | some x => if x.1 < newEdge q.2 then some (newEdge q.2, q.1, q.2.mode) else b) none
      match hot with
      | none => s
      | some (_, k, m) => match s.chanSlot n m (fun _ _ => true) fun e => e == d with
        | some p => s.queueWear k p
        | none => s) s

end State

end Sys2Proof.Machine
end

