-- ==== Sys2Proof/Machine/TierOps.lean ====
section
/-! DEFINITION. Loading (R249 to R252), the checkpointer (R246), the DRAM pool (R256 to R262) and the hash key (R174). -/

namespace Sys2Proof.Machine

namespace State

/-! ### Loading (R249 to R252) -/

/-- The translation chunks of the device: 64 to an extent. -/
def chunkTotal (s : State) : Nat := 64 * s.xlt.extents

/-- XLT_LOAD_LEFT: the chunks of the tables loaded on demand that are not yet loaded: translation, band offsets, and the free lists of each in-service
die (R252). -/
def loadLeft (s : State) : Nat :=
  if s.xlt.load == .loaded then 0 else s.chunkTotal + s.chunkTotal / 4 + 992 * s.diesUp.length - s.xlt.loaded.length

/-- The setts of a lost translation or band-offset chunk (R249): with the twin they are rebuilt, their slots out of use; without, every line of them joins
the loss list. -/
def chunkLost (s : State) (p : Nat → Bool) : State :=
  let mine := s.med.setts.filter fun e => p e.1 && e.2.mode != .none
  mine.foldl (fun s p =>
    let (n, e) := p
    let s2 := match e.phys with
      | some q => s.setXlt { s.xlt with orphans := s.xlt.orphans ++ [q] }
      | none => s
    if s2.paired then
      let s3 := s2.setSett n { e with phys := some { die := lostDie, zone := 0, slot := 0 }, band := false, mig := .idle }
      s3.setMed { s3.med with rebuild := n :: s3.med.rebuild }
    else
      let s3 := (s2.setYoung n []).setSett n { gen := nextGen e.gen }
      match s3.ownerOf n with
      | some (r, i) => (List.range 256).foldl (fun s l => s.lose r (i * 256 + l) 0) s3
      | none => s3) s

/-- A chunk of which every frame is at hand is written to the DRAM bench; CHUNK_BAD is captured for one that failed in both copies, and the setts that
`p` gives it are lost (R249). -/
def chunkTake (s : State) (c : Nat) (p : Nat → Bool) : State :=
  if !s.chunkHere c then s
  else
    let bad := s.chunkBad c
    let s1 := s.setXlt { s.xlt with
      loaded := Tab.put false s.xlt.loaded c true, map := { s.xlt.map with loads := s.xlt.map.loads.filter fun l => l.chunk != c } }
    if bad then (s1.cause Reg.XLT_CAUSE 0 10 314).chunkLost p else s1

/-- A translation chunk and its band-offset chunk are in the DRAM bench: the lookups that wait for them go on. -/
def pairTake (s : State) (c : Nat) : State :=
  let s1 := (s.chunkTake c fun n => n / 256 == c).chunkTake (s.bandChunk c) fun n => n / 1024 == c / 4
  (s1.setXlt { s1.xlt with prio := s1.xlt.prio.erase c }).redrive fun r => lineSett r.line / 256 == c

/-- Loading has ended (R252, R262): LOAD_DONE, and every sett of rank KEEP is promoted again. -/
def loadEnd (s : State) : State :=
  let s1 := (s.setXlt { s.xlt with load := .loaded, allLoaded := true, repromote := true }).cause Reg.XLT_CAUSE 0 8 312
  (((s1.med.setts.filter fun p => p.2.mode != .none && s1.rankOf p.1 == 3).foldl (fun s p => s.wantPromote p.1 false) s1)).judgeXlt

/-- The first chunk of a die's free lists. -/
def freeBase (s : State) (d : Nat) : Nat := chunkBase s.xlt.map.count .freeLists + d * 992

/-- The next free-list chunk of a die that is not loaded, none once all are. -/
def freeNext (s : State) (d : Nat) : Option Nat :=
  let b := s.freeBase d
  let k := firstGap ((s.xlt.loaded.map Prod.fst).filter fun c => decide (b ≤ c ∧ c < b + 992)) b
  if k < b + 992 then some k else none

/-- The next translation chunk that is not loaded with its band offsets, none once all are. -/
def tableNext (s : State) : Option Nat :=
  let k := firstGap ((s.xlt.loaded.map Prod.fst).filter fun c => s.chunkIn (s.bandChunk c)) 0
  if k < s.chunkTotal then some k else none

/-- The background loader's next step (R252): free-list chunks die by die, then translation chunks with their band offsets, in order. A chunk is asked
for, and taken once its frames are at hand. -/
def loadNext (s : State) : State :=
  match s.diesUp.find? fun d => !s.xlt.freeLoaded.contains d with
  | some d => match s.freeNext d with
    | some c =>
      if s.chunkHere c then s.chunkTake c fun _ => false else s.loadChunk c
    | none => s.setXlt { s.xlt with freeLoaded := s.xlt.freeLoaded ++ [d] }
  | none => match s.tableNext with
    | some c =>
      if s.pairHere c then
        let s1 := s.pairTake c
        if s1.tableNext.isNone then s1.loadEnd else s1
      else s.loadPair c
    | none => s.loadEnd

/-! ### The pool (R256 to R261) -/

/-- The least page number not in use. -/
def freePage (s : State) : Option Nat :=
  let used := s.xlt.pages.filterMap fun p => p.2.map Page.page
  if s.xlt.poolTotal ≤ used.length then none else (List.range (used.length + 1)).find? fun k => !used.contains k

/-- A sett stands in an open window. -/
def inWindow (s : State) (n : Nat) : Bool := s.xlt.windows.any fun w => w.setts.contains n

/-- The class in which a promoted sett is evicted (R260). -/
def evictClass (s : State) (n : Nat) : Nat :=
  if s.rankOf n = 3 then 4 else if s.inWindow n then 3 else if s.rankOf n = 2 then 2 else 1

/-- The sett to evict for a promotion of class `c`: the lowest class below its own, the least recently used in it, in windows the farthest
ahead (R260). -/
def evictee (s : State) (c : Nat) : Option Nat :=
  let cands := s.xlt.poolLru.filter fun n => (s.sett n).promoted && (s.sett n).mig == .idle
  ((List.range c).drop 1).findSome? fun k =>
    let mine := cands.filter fun n => s.evictClass n == k
    if k = 3 then (s.xlt.windows.findSome? fun w => (w.setts.reverse.find? fun n => mine.contains n)) else mine.head?

/-- Starts a demotion (R259): DEMOTING, with PROMOTED cleared in the same step. -/
def startDemote (s : State) (n : Nat) : State :=
  let s1 := if s.evictClass n = 4 then s.cause Reg.XLT_CAUSE 0 11 315 else s
  s1.setSett n { s1.sett n with promoted := false, mig := .demoting }

/-- Promotes the next sett of the promotion queue that can be promoted (R257), evicting another where no page is free (R260). -/
def promoteNext (s : State) : State :=
  let ready (n : Nat) : Bool :=
    let e := s.sett n
    e.mig == .idle && !e.promoted && e.mode != .none && s.chunkLoaded n && match e.phys with
      | some p => s.dieUp p.die
      | none => false
  match s.xlt.promo.find? fun p => ready p.1 with
  | none => s
  | some (n, w) =>
    match s.freePage with
    | some k =>
      let s1 := s.setXlt { s.xlt with promo := s.xlt.promo.erase (n, w), poolLru := s.xlt.poolLru.erase n ++ [n] }
      let s2 := (s1.setPage n (some { page := k })).setSett n { s1.sett n with mig := .promoting }
      (List.range 256).foldl (fun s l => s.promoteLine n l) s2
    | none => match s.evictee (if w then 3 else 4) with
      | some v => s.startDemote v
      | none => s

/-- Yarrow's hint scan (R255, R261): COLD setts are demoted and no longer wanted, KEEP setts are promoted. -/
def hintScan (s : State) : State :=
  let s1 := s.setXlt { s.xlt with promo := s.xlt.promo.filter fun p => p.2 || s.rankOf p.1 == 3 }
  let s2 := (s1.xlt.pages.map Prod.fst).foldl (fun s n =>
    if s.rankOf n == 1 && (s.sett n).promoted && (s.sett n).mig == .idle then s.startDemote n else s) s1
  (s2.med.setts.filter fun p => p.2.mode != .none && !p.2.promoted && s2.rankOf p.1 == 3).foldl (fun s p => s.wantPromote p.1 false) s2

/-! ### The hash key (R174) -/

/-- Sets the hash key; every clean line is invalidated. -/
def setHashKey (s : State) (k : Dword) : State :=
  let clean := (s.bench.lines.filter fun p => p.2.any fun b => b.state == .clean || b.state == .filling).map Prod.fst
  let s1 := clean.foldl (fun s x => s.dropLine x) s
  s1.setBench { s1.bench with hashKey := k }

/-- The high word of PBF_HASH_KEY is written (R174): with the requester's low word held and nothing dirty the pair takes effect, otherwise it is
dropped. -/
def hashKeyWrite (s : State) (req : Requester) (off : Nat) (hi : Word) : State :=
  let held := s.csr.heldWrite.find? fun h => h.req == req && h.off == off
  let s1 := { s with csr := { s.csr with heldWrite := s.csr.heldWrite.filter fun h => !(h.req == req && h.off == off) } }
  match held with
  | some h => if s.dirtyLines = 0 then s1.setHashKey (Dword.ofWords h.value hi) else s1.cause Reg.PBF_CAUSE 0 8 288
  | none => s1.cause Reg.PBF_CAUSE 0 8 288

end State

end Sys2Proof.Machine
end

