-- ==== Sys2Proof/Machine/Bench.lean ====
section
/-! DEFINITION. The meanings of Bench 0's and the tiers' own events (chapters 8 and 10). -/

namespace Sys2Proof.Machine

/-- The domain works: open to merges, programs and promotions (Table 8-5 step 3). -/
def State.benchWorks (s : State) : Bool := s.psq.mainUp && s.bench.domain != .draining && s.bench.domain != .drained

/-- PARTIAL_LINE_MERGE (R180): a partial line whose source is at hand is merged; otherwise its source is read. -/
def execPartialLineMerge (x : Nat) (s : State) : Res := .next (if s.benchWorks then (s.mergeLine x).settleMed else s)

/-- SCB_IDLE_CLOSE (R178): the stream of the buffer bound to sett `n` has been idle for IDLE_US. -/
def execScbIdleClose (n : Nat) (s : State) : Res := .next (if s.benchWorks then (s.scbClose n).settleMed else s)

/-- FORWARD_GATHER_EXPIRY (R13): the open FORWARD frame is sealed and sent. -/
def execForwardGatherExpiry (s : State) : Res := .next (if s.benchWorks then s.sealForward else s)

/-- DRAIN_REPLAY (R198, R199): the reading of the committed drain begins, once the drain dies that can be read have their reference sets loaded (R112). The
frames' responses carry it on. -/
def execDrainReplay (s : State) : Res :=
  .next (if s.psq.mainUp && s.bench.domain == .replaying && !s.bench.replayed && s.bench.replaying.isNone &&
      s.newerDesc.dies.all (fun d => s.dieSettled d) then
    ((s.setHashKey s.newerDesc.hashKey).replayBegin).replayKick.settleMed else s)

/-- PBF_HASH_KEY_WRITE (R174): a write of the high word by a requester. -/
def execPbfHashKeyWrite (req : Requester) (hi : Word) (s : State) : Res :=
  .next (if s.psq.mainUp then s.hashKeyWrite req (Reg.PBF_HASH_KEY_LO.at 0) hi else s)

/-- CHECKPOINT_CHUNK_WRITE (R246). -/
def execCheckpointChunkWrite (s : State) : Res := .next (if s.benchWorks then s.checkpointChunk.settleMed else s)

/-- PRIORITY_LOAD_DONE (R249, R251): every frame of chunk `c` of the translation table and of its band-offset chunk is at hand, or lost in both copies. -/
def execPriorityLoadDone (c : Nat) (s : State) : Res :=
  .next (if s.psq.mainUp && s.xlt.prio.contains c && s.pairHere c then (s.pairTake c).settleMed else s)

/-- BACKGROUND_CHUNK_LOAD (R252): the background loader asks for its next chunk, or takes it where its frames are at hand. -/
def execBackgroundChunkLoad (s : State) : Res :=
  .next (if s.benchWorks && s.xlt.load == .background && s.bit Reg.XLT_CTRL 0 0 then s.loadNext.judgeXlt.settleMed else s)

/-- HINT_SCAN (R261). -/
def execHintScan (s : State) : Res := .next (if s.benchWorks then s.hintScan else s)

/-- POOL_PROMOTE (R257, R260). -/
def execPoolPromote (s : State) : Res :=
  .next (if s.benchWorks && s.bit Reg.XLT_CTRL 0 1 then s.promoteNext.settleMed else s)

/-- POOL_DEMOTE (R259): the page of a DEMOTING sett is freed. -/
def execPoolDemote (n : Nat) (s : State) : Res :=
  .next (if s.benchWorks && (s.sett n).mig == .demoting then (s.endPromotion n).settleMed else s)

/-- WINDOW_IDLE_CLOSE (R263): the window of a stream in an object has been idle. -/
def execWindowIdleClose (st : Stream) (object : Nat) (s : State) : Res :=
  .next (if s.psq.mainUp then s.closeWindows fun w => w.stream == st && w.object == object else s)

/-- BENCH_VIEW_RAW_WRITE (R265): 64 B at offset `a` of the raw medium. -/
def execBenchViewRawWrite (a : Nat) (d : Chunk) (s : State) : Res :=
  .next (if s.psq.mainUp && s.xlt.bvOpen then (s.benchWrite (0x1000000000000 + a / 64 * 64) d).1 else s)

/-- RAW_DISCARD (R265): the line at `a` is still incomplete 1 ms after its first chunk. -/
def execRawDiscard (a : Nat) (s : State) : Res :=
  .next (if s.psq.mainUp && s.xlt.raw.any (fun l => l.addr == a) then
    ((s.setXlt { s.xlt with raw := s.xlt.raw.filter fun l => l.addr != a }).cause Reg.XLT_CAUSE 0 6 310).rawRetry else s)

end Sys2Proof.Machine
end

