-- ==== Sys2Proof/Machine/Flash.lean ====
section
/-! DEFINITION. The meanings of the flash, NV store, recorder and watchdog events that act on these blocks alone (chapter 16). -/

namespace Sys2Proof.Machine

/-- What Keeper finds in an NV word (R410). -/
def keeperTake (s : State) (outcome : Fin 4) (holder : Option (Nat × Bool)) : State :=
  match outcome with
  | 0 => s
  | 1 => (s.bump Reg.NVS_REWRITE_CNT 0 31 0).cause Reg.NVS_CAUSE 0 2 386
  | 2 => (((s.bump Reg.NVS_CE_CNT 0 31 0).cause Reg.NVS_CAUSE 0 0 384).bump Reg.NVS_REWRITE_CNT 0 31 0).cause
      Reg.NVS_CAUSE 0 2 386
  | _ =>
    let s1 := (s.bump Reg.NVS_UE_CNT 0 31 0).cause Reg.NVS_CAUSE 0 1 385
    match holder with
    | none => s1
    | some (key, isA) =>
      let r := Tab.get ({} : NvRecord) s1.nv.records key
      let r' := if isA then (if r.b.ok then { r with a := r.b } else { r with a := { r.a with valid := false } })
        else (if r.a.ok then { r with b := r.a } else { r with b := { r.b with valid := false } })
      { s1 with nv := { s1.nv with records := Tab.put {} s1.nv.records key r' } }

/-- KEEPER_WORD_CHECK (R410): Keeper margin-reads NV word `word` and finds it good (0), weak (1), correctable (2) or
uncorrectable (3). `holder` names the record and copy the word belongs to, where it belongs to one: an uncorrectable copy is
rewritten from the other one with the same SEQ. The last word ends the pass. -/
def execKeeperWordCheck (word : Fin 1048576) (outcome : Fin 4) (holder : Option (Nat × Bool)) (s : State) : Res :=
  if s.psq.vaon && s.bit Reg.NVS_CTRL 0 8 then
    let s1 := keeperTake s outcome holder
    let last := word.val = 1048575
    .next { s1 with nv := { s1.nv with
      keepWord := BitVec.ofNat 20 (word.val + 1)
      keepRun := !last
      keepLast := if last then State.epochOf s1.tally.now else s1.nv.keepLast } }
  else .next s

/-- WSTAMP_HI_ADVANCE (R407): the ring advances by 1 and the commit count starts again. -/
def execWstampHiAdvance (s : State) : Res := if s.psq.vaon then .next s.wstampAdvance else .next s

/-- EVR_TOKEN_REFILL (R413): the bucket of a code gains one token, up to BURST + 1. -/
def execEvrTokenRefill (code : Fin 1024) (s : State) : Res := if s.psq.vaon then .next (s.refill code) else .next s

/-- EVR_ARCHIVE_START (R414): with 4,096 entries pending, the vault writer archives them three to a page. -/
def execEvrArchiveStart (s : State) : Res := if s.psq.mainUp then .next s.archiveStart else .next s

/-- VAULT_PAGE_PROGRAM_DONE (R403): the program of vault page `page` ends; a verified page settles with its pair, a failed one is
skipped and its source copy goes to the next page; archiving goes on into the room this frees (R414). -/
def execVaultPageProgramDone (page : Nat) (ok : Bool) (s : State) : Res :=
  if s.psq.mainUp then .next (State.archiveRun 257 (if ok then s.vaultVerified page else s.vaultFailed page)) else .next s

/-- VAULT_PAD_TIMEOUT (R403): a lower page without upper data for 10 s gets a pad page as its partner. -/
def execVaultPadTimeout (kind : Fin 4) (s : State) : Res :=
  match s.psq.mainUp, s.vaultLast kind with
  | true, some p => .next (if p.upper || p.settled || p.bad then s else s.vaultPlace kind (s.vaultSeq kind) (.pad kind))
  | _, _ => .next s

/-- WDG_KICK (R417): 0x0000_4B1C restarts stage 1; any other value is ignored. -/
def execWdgKick (value : Word) (s : State) : Res := .next (s.wdgKick value)

/-- STAGE1 (R417): stage 1 expires, source 416 is raised, an NMI goes to the control cores and stage 2 starts. -/
def execStage1 (s : State) : Res :=
  if s.psq.vaon ∧ s.wdg.stage = .stage1 then
    let s1 := (s.cause Reg.WDG_CAUSE 0 0 416).emit .nmi
    .next (s1.setWdg { s1.wdg with stage := .stage2, ms := BitVec.ofNat 16 (s1.fld Reg.WDG_STAGE2 0 15 0) })
  else .next s

/-- FLASH_SUSPEND (R398): a queued read suspends the running operation once it has run for FLS_MIN_RUN, unless suspension is
disabled or a reset is held for it. -/
def execFlashSuspend (s : State) : Res :=
  if (s.flash.state = .program ∨ s.flash.state = .erase) ∧ s.bit Reg.FLS_CTRL 0 0 ∧ s.wdg.hold = false then
    .next (s.setFlash { s.flash with state := .suspended })
  else .next s

/-- FLASH_SUSPEND_TIMEOUT (R398): the suspension ends after 100 µs or with no read queued, and the operation resumes. -/
def execFlashSuspendTimeout (s : State) : Res :=
  if s.flash.state = .suspended then .next s.flashNext else .next s

/-- VDD_IO_BAND_CHANGE (R399): the supervisor reports another VDD_IO band; the minimum wait states apply before the next read. -/
def execVddIoBandChange (low : Bool) (s : State) : Res :=
  .next (s.setFlash { s.flash with lowBand := low }).judgeWait

/-- BOOTSTRAP_WRITE (R421): an I3C private write places up to 256 B in control-core memory at an offset. -/
def execBootstrapWrite (offset : Word) (bytes : List Byte) (s : State) : Res :=
  if s.flash.cores = .loader ∧ offset ≠ 0xFFFFFFFF#32 then
    let ram := (bytes.take 256).foldl (fun (p : Nat × Tab Byte) b => (p.1 + 1, Tab.put 0 p.2 p.1 b)) (offset.toNat, s.flash.ram)
    .next (s.setFlash { s.flash with ram := ram.2 })
  else .next s

/-- BOOTSTRAP_END (R421): the transfer ends; a TYPE 1 image that passes the checks of R419 (`good`) runs as the recovery image,
with FLS_CORE_CAUSE.RECOVERY at 1. -/
def execBootstrapEnd (len : Word) (good : Bool) (s : State) : Res :=
  if s.flash.cores = .loader ∧ good ∧ len.toNat ≤ 4194304 then
    .next ((s.setFlash { s.flash with cores := .recovery }).level Reg.FLS_CORE_CAUSE 0 6 426 64 true).wdgStart
  else .next s

end Sys2Proof.Machine
end

