-- ==== Sys2Proof/Machine/QmiOps.lean ====
section
/-! DEFINITION. What the responses of the dies, the lanes' recovery and a group's bring-up do (R70 to R89). -/

namespace Sys2Proof.Machine

/-- A byte of a descriptor. -/
def descByte (d : List Byte) (i : Nat) : Nat := (d.getD i 0).toNat

/-- The first check of Table 4-10 that a package descriptor fails, by its row. -/
def descCheck (d : List Byte) : Option Nat :=
  let b := descByte d
  let crc := b 0xFE + 256 * b 0xFF
  let bad : List (Bool × Nat) := [
    (b 0 != 1, 0), (b 1 != 4 && b 1 != 8, 1), (b 2 != b 1, 2), (b 3 / 16 != 1, 3), (b 4 != 20, 4), (b 5 / 2 % 8 != 7, 5)
    , (b 6 != 16, 6), (decide (b 7 < 8), 7), (decide (b 8 < 4), 8), (b 10 != 1, 10), ((crc16 (d.take 0xFE)).toNat != crc, 13)]
  (bad.find? fun p => p.1).map Prod.snd

namespace State

/-! ### Reference tables (R98, R112) -/

/-- A SET_REF has completed: with the last one the die's tables are loaded, and reads that waited for them go on (R112). -/
def setLoaded (s : State) (d : Nat) : State :=
  let v := s.die d
  if v.loads ≤ 1 then
    let s1 := s.setDie d { v with loads := 0, tables := if v.loads = 1 then true else v.tables }
    if v.loads = 1 ∧ !v.tables then (s1.redrive fun r => match (s1.sett (lineSett r.line)).phys with
      | some p => p.die == d
      | none => false).pump (dieChan d) |>.tryOpen
    else s1
  else s.setDie d { v with loads := v.loads - 1 }

/-! ### Answers -/

/-- A raw read of a line answers the requests that wait for it (R265): its DATA after hard decode, poison where it is beyond reach. -/
def rawAnswer (s : State) (n : Nat) (c : QmiCmd) (dec : Option Decoded) : State :=
  let a := physCode { die := n * 16 + c.die, zone := c.zone, slot := c.slot } * 65536 + c.line * 256
  match s.xlt.rawReads.find? fun r => r.addr == a with
  | none => s
  | some r =>
    let s1 := s.setXlt { s.xlt with rawReads := s.xlt.rawReads.erase r }
    match r.who with
    | .cxl p l t => s1.emit (match dec with
        | some d => .memData p l t (chunkAt d.data r.chunk) false
        | none => .memData p l t (BitVec.allOnes 512) true)
    | _ => s1

/-- A FRAME for the command that asked for it. -/
def frameOut (s : State) (n : Nat) (c : QmiCmd) (dec : Option Decoded) : State :=
  match c.user, c.op with
  | .teasel _ _, .marginRead => s.marginSeen n c dec
  | .raw, _ => s.rawAnswer n c dec
  | .map copy k f, .marginRead => s.mapMargin copy k f dec
  | .map copy k f, _ => s.mapFrame copy k f c.op dec
  | .replay k, _ => s.replayFrame k c.op dec
  | .cal, _ | .sweep _, _ => s
  | _, _ => s.takeFrame n c dec false

/-- What soft decode makes of the senses of a SOFT_READ, for the command that asked (R115). -/
def softOut (s : State) (n : Nat) (c : QmiCmd) (dec : Option Decoded) : State :=
  match c.user with
  | .map copy k f => s.mapFrame copy k f .softRead dec
  | .replay k => s.replayFrame k .softRead dec
  | _ => s.takeFrame n c dec true

/-- Issues an unfinished command again (R72, R85). -/
def reissue (s : State) (n : Nat) (c : QmiCmd) : State := s.issue (n * 16 + c.die) c

/-- A DONE, or a logged result, for a command. -/
def doneFor (s : State) (n : Nat) (c : QmiCmd) (i : DoneInfo) : State :=
  let d := n * 16 + c.die
  let p : Phys := { die := d, zone := c.zone, slot := c.slot }
  match c.op, i.status with
  | _, .dieFault => (s.undo n c).failDie d |>.drainLostDies
  | _, .aborted => s.reissue n c
  | .program, .ok => match c.user with
    | .drain k => s.drainDone k true
    | .writeBack x =>
      let s1 := s.programVerified p c i
      if (s.sett (lineSett x)).phys.isNone && (s1.sett (lineSett x)).phys.isSome then s1.spareNow else s1
    | _ => s.programVerified p c i
  | .program, .progFail => match c.user with
    | .drain k => s.drainDone k false
    | _ => s.programFailed p c
  | .program, _ => match c.user with
    | .drain k => s.drainDone k false
    | _ => s.undo n c
  | .setRef, .ok => s.setLoaded d
  | .setZoneMode, .partitionBusy => s.reissue n c
  | .dieReset, .ok => (s.setDie d { s.die d with tables := false }).loadSets d
  | _, _ => s

/-- The outstanding commands once a response to `c` has come: a READ or MARGIN_READ of several lines is outstanding until its last FRAME (R74). -/
def sentAfter (q : QChan) (c : QmiCmd) : List QmiCmd :=
  if c.got < c.count then q.sent.map fun x => if x.tag == c.tag then { x with got := x.got + 1 } else x else q.sent.erase c

/-- Takes a response of `words` words that ends in the flit of SEQ `seq` to an outstanding command (R70, R73): nothing is taken from a lane that is not
up, and what does not follow in SEQ is discarded and NAKed. On a channel that goes offline only programs still answer; every other response is discarded
(R88). DESIGN CHOICE (log entry 122): the rule names only reads and programs, and responses to SET_REF, SET_ZONE_MODE and the INFO commands are
discarded too. -/
def answered (s : State) (n : Nat) (seq : BitVec 8) (tag : BitVec 10) (words : Nat) (ops : QmiOp → Bool) (k : QmiCmd → State → State) : State :=
  let q := s.qc n
  if !s.medUp || !(q.lstate == .active || q.lstate == .sleep || (q.lstate == .off && q.offWait)) then s
  else if !inOrder q seq words then s.sendNak n
  else match q.sent.find? fun c => c.tag == tag && ops c.op with
    | none => s.received n seq
    | some c =>
      let s1 := (s.setQc n { q with sent := sentAfter q c }).received n seq
      let s2 := if q.offWait && c.op != .program then s1 else k { c with line := c.line + c.got, count := 0, got := 0 } s1
      let q2 := s2.qc n
      let s3 := if q2.offWait && q2.sent.isEmpty then s2.setQc n { q2 with offWait := false } else s2
      (s3.pump n).settleMed.replayKick.flushKick.drainLostDies

/-! ### Recovery (R71, R72, R86, R88) -/

/-- The channel no longer serves reads: those that wait are served elsewhere, and D, the cap and Teasel follow. -/
def channelLeaves (s : State) (n : Nat) : State :=
  ((((s.divert fun d => dieChan d == n).judgeBench.judgeQc n).judgeQg (n / 16)).drainLostDies).tryOpen.settleMed.replayKick

/-- Recovery starts. -/
def enterRecovery (s : State) (n : Nat) (full soft : Bool) : State := (s.startRecovery n full soft).channelLeaves n

/-- The channel serves again (R72): reads that waited elsewhere stay there, queued commands go, and the walk revisits its setts. -/
def channelBack (s : State) (n : Nat) : State :=
  ((((s.pump n).judgeBench.judgeQc n).judgeQg (n / 16)).tryOpen).settleMed

/-- A channel goes DOWN (R71, R86): every die on it is failed. -/
def channelDown (s : State) (n : Nat) : State :=
  let q := s.qc n
  let s1 := s.setQc n { q with lstate := .down, recovery := none, soft := false, stormBit := false, exhBit := false }
  ((s1.chanDies n).foldl (fun s d => s.failDie d) s1).channelLeaves n

/-- After a full retrain, or when an offlined channel returns: outstanding commands wait for the completion logs, which every die is asked for, and the
dies identify themselves (R72, R166). -/
def askLogs (s : State) (n : Nat) (ident : Bool) : State :=
  let q := s.qc n
  let s1 := s.setQc n { q with orphans := q.orphans ++ q.sent, sent := [] }
  (s1.chanDies n).foldl (fun s d =>
    if (s.die d).failed then s
    else
      let s2 := if ident then s.issue d { op := .identify, die := 0 } else s
      s2.issue d { op := .completionLog, die := 0 }) s1

/-- An ERROR for a command (R75, Table 4-8): REF_UNSET reloads the die's sets and the sense is issued again (R85); DIE_FAULT fails the die (R89); other
answers to a sense have it issued again. -/
def errorFor (s : State) (n : Nat) (c : QmiCmd) (i : DoneInfo) : State :=
  if c.isSense && i.status != .dieFault then
    (if i.status = .refUnset then s.loadSets (n * 16 + c.die) else s).reissue n c
  else s.doneFor n c i

/-- A die's completion log has come (R72): a command found in it completes with the logged result, everything else is issued again. The log holds no
frame: a sense that completed without its frame having come is sensed anew for its reader (log entry 80). -/
def takeLog (s : State) (n : Nat) (die : Fin 16) (es : List LogEntry) : State :=
  let q := s.qc n
  let mine := q.orphans.filter fun c => c.die == die
  let s1 := s.setQc n { q with orphans := q.orphans.filter fun c => c.die != die }
  mine.foldl (fun s c =>
    match es.find? fun e => e.tag == c.tag with
    | some e => if c.isSense && e.done.status == .ok then s.reissue n c else s.errorFor n c e.done
    | none => s.reissue n c) s1

/-! ### Bring-up (R82, R85, R166) -/

/-- A group fails inventory (R82): none of its channels is in service. -/
def inventoryFails (s : State) (n : Nat) (pkg : Bool) (check : Nat) : State :=
  let g := n / 16
  let v := s.qg g
  let s1 := s.setQg g (if v.invBad then v else { v with
    invBad := true, inService := false, badChan := BitVec.ofNat 4 n, badPkg := pkg, badCheck := BitVec.ofNat 5 check })
  let s2 := (List.range 16).foldl (fun s k => s.setQc (16 * g + k) { s.qc (16 * g + k) with lstate := .off }) s1
  (((s2.divert fun d => d / 256 == g).judgeBench).judgeQg g).drainLostDies.tryOpen

/-- The first channel of a group, and its package, whose place the packages that answer at inventory leave empty against R67: package 0 on every
channel, and package 1 on all of them or on none. -/
def placeMissing (seen : BitVec 32) : Option (Nat × Bool) :=
  let two := (List.range 16).any fun k => seen.getLsbD (2 * k + 1)
  (List.range 16).findSome? fun k =>
    if !seen.getLsbD (2 * k) then some (k, false) else if two && !seen.getLsbD (2 * k + 1) then some (k, true) else none

/-- The package of channel `n` breaks R67 by its type: unlike the other package of its channel, or unlike another channel of its group. -/
def populationBad (s : State) (n : Nat) : Option Bool :=
  let q := s.qc n
  if q.pkg1 ≠ 0 ∧ q.pkg0 ≠ 0 ∧ q.pkg1 ≠ q.pkg0 then some true
  else if (List.range 16).any fun k => (s.qc (n / 16 * 16 + k)).pkg0 != 0 && q.pkg0 != 0 && (s.qc (n / 16 * 16 + k)).pkg0 != q.pkg0 then some false
  else none

/-- Every channel of the group is populated alike (R67). -/
def populationWhole (s : State) (g : Nat) : Bool :=
  let q0 := s.qc (16 * g)
  q0.pkg0 != 0 && (q0.pkg1 == 0 || q0.pkg1 == q0.pkg0) &&
    (List.range 16).all fun k => (s.qc (16 * g + k)).pkg0 == q0.pkg0 && (s.qc (16 * g + k)).pkg1 == q0.pkg1

/-- A die answers IDENTIFY consistently, or not (R85, R157, R166): a failed die returns to service and the setts not yet rebuilt are
served from it again; at its first inventory every slot is blank. -/
def dieIdentified (s : State) (d : Nat) (ok : Bool) : State :=
  if !ok then (s.setDie d { s.die d with identified := true }).failDie d
  else
    let v := s.die d
    let back (n : Nat) : Bool := match (s.sett n).phys with
      | some p => p.die == d
      | none => false
    let s1 := s.setDie d { v with identified := true, failed := false, used := true }
    let s2 := if v.used then s1 else (List.range 62).foldl (fun s z => (s.setZone d z { s.zone d z with blank := true }).journal (.zone d z)) s1
    let mv := s2.med.yarrow.moves.filter fun m => (match m.kind with
      | .rebuild _ => true
      | _ => false) && back m.lsett
    let s3 := mv.foldl (fun s m => s.moveAbandon m.lsett false) s2
    (s3.setMed { s3.med with rebuild := s3.med.rebuild.filter fun n => !back n }).judgeTsl

/-- The band of a temperature (Table 5-2). -/
def bandAt (t : Int) : Nat := if t < 35 then 0 else if t < 45 then 1 else if t < 60 then 2 else 3

/-- The edges of a band: the temperature from which it begins, and the one from which the next begins. -/
def bandEdges (b : Nat) : Int × Int := if b = 0 then (-1000, 35) else if b = 1 then (35, 45) else if b = 2 then (45, 60) else (60, 1000)

/-- The band that a reading leaves a die of band `old` in (R99): it changes only where the reading lies beyond one of that band's edges by at least the
hysteresis. DEDUCED (log entry 123): the rule speaks of the band's edge, the edge of the band the die stands in; a die that leaves takes the band of the
reading, however many edges it has passed. -/
def bandFor (old : Nat) (hyst t : Int) : Nat :=
  let e := bandEdges old
  if e.2 + hyst ≤ t ∨ (t < e.1 ∧ t ≤ e.1 - hyst) then bandAt t else old

/-- Eyebright takes a package's temperature (R83, R99): dies whose band changes reload their sets. -/
def packageTemp (s : State) (n : Nat) (pkg : Bool) (t : Int) : State :=
  ((s.chanDies n).filter fun d => decide (d % 16 / 8 = pkg.toNat)).foldl (fun s d =>
    let v := s.die d
    let b := bandFor v.tband.val (s.fld Reg.EYB_CTRL 0 19 16 : Nat) t
    if b = v.tband.val then s else (s.setDie d { v with tband := Fin.ofNat 4 b }).loadSets d) s

end State

end Sys2Proof.Machine
end

