-- ==== Sys2Proof/Machine/Qmi.lean ====
section
/-! DEFINITION. The meanings of what happens on the quarry channels and the sidebands of their groups (chapter 4): responses of the dies, link
control, recovery, bring-up and temperature. -/

namespace Sys2Proof.Machine

/-! ### Responses (R73 to R76) -/

/-- QMI_FRAME_RESPONSE (R74, R154): a FRAME goes through hard decode and CRC to the user of its READ or MARGIN_READ. -/
def execQmiFrameResponse (n : Fin 144) (seq : BitVec 8) (tag : BitVec 10) (f : BitVec 2400) (s : State) : Res :=
  .next (s.answered n seq tag 76 (fun o => o == .read || o == .marginRead) fun c s => s.frameOut n c (hardDecode f))

/-- QMI_SOFT_RESPONSE (R115): the senses at the reference and at +DELTA and −DELTA go to the soft decoder. -/
def execQmiSoftResponse (n : Fin 144) (seq : BitVec 8) (tag : BitVec 10) (ref plus minus : BitVec 2400) (s : State) : Res :=
  .next (s.answered n seq tag 226 (fun o => o == .softRead) fun c s => s.softOut n c (softDecode ref plus minus))

/-- The opcode that an INFO answers. -/
def infoOp : InfoData → QmiOp
  | .getRef _ => .getRef
  | .dieStatus .. => .dieStatus
  | .identify _ => .identify
  | .log _ => .completionLog

/-- QMI_INFO_RESPONSE (R75): an IDENTIFY that agrees with the package's descriptor brings a die that had not answered one yet into service, one that
does not fails the die (R85, R166); a completion log resolves the die's commands (R72); the other contents are for the reader alone. -/
def execQmiInfoResponse (n : Fin 144) (seq : BitVec 8) (tag : BitVec 10) (i : InfoData) (s : State) : Res :=
  .next (s.answered n seq tag (infoWords i) (fun o => o == infoOp i) fun c s =>
    match i with
    | .identify ok =>
      let d := n.val * 16 + c.die.val
      if !ok then s.failDie d else if (s.die d).identified then s else s.dieIdentified d true
    | .log es => s.takeLog n c.die es
    | _ => s)

/-- QMI_ERROR_RESPONSE (R75, Table 4-8). -/
def execQmiErrorResponse (n : Fin 144) (seq : BitVec 8) (tag : BitVec 10) (st : DieStatus) (s : State) : Res :=
  .next (s.answered n seq tag 2 (fun _ => true) fun c s => s.errorFor n c { status := st })

/-- QMI_SET_REF_DONE (R76): a DONE to SET_REF or SET_ZONE_MODE. -/
def execQmiSetRefDone (n : Fin 144) (seq : BitVec 8) (tag : BitVec 10) (st : DieStatus) (s : State) : Res :=
  .next (s.answered n seq tag 3 (fun o => o == .setRef || o == .setZoneMode) fun c s => s.doneFor n c { status := st })

/-- QMI_DIE_RESET_DONE (R74): the die has ended its other commands with ABORTED and holds no reference set; they are loaded again. -/
def execQmiDieResetDone (n : Fin 144) (seq : BitVec 8) (tag : BitVec 10) (s : State) : Res :=
  .next (s.answered n seq tag 3 (fun o => o == .dieReset) fun c s => s.doneFor n c {})

/-- PROGRAM_DONE (R15, R79, R125, R134): a DONE to a PROGRAM. -/
def execProgramDone (n : Fin 144) (seq : BitVec 8) (tag : BitVec 10) (i : DoneInfo) (s : State) : Res :=
  .next (s.answered n seq tag 3 (fun o => o == .program) fun c s => s.doneFor n c i)

/-! ### Link control (R69, R70, R77, R467) -/

/-- The lane carries flits. -/
def State.laneUp (s : State) (n : Nat) : Bool := s.medUp && ((s.qc n).lstate == .active || (s.qc n).lstate == .sleep)

/-- A replay that has come to REPLAY_MAX starts recovery (R71). -/
def replayOf (s : State) (n : Nat) : State :=
  match s.startReplay n with
  | (s1, true) => (s1.setQc n { s1.qc n with exhBit := true }).enterRecovery n false false
  | (s1, false) => s1

/-- QMI_ACK_RECEIVED (R70). -/
def execQmiAckReceived (n : Fin 144) (seq : BitVec 8) (s : State) : Res :=
  .next (if s.laneUp n then (s.acked n seq).pump n else s)

/-- QMI_NAK_RECEIVED (R70): a NAK acknowledges up to the SEQ it names and asks for a replay from the next. -/
def execQmiNakReceived (n : Fin 144) (seq : BitVec 8) (s : State) : Res :=
  .next (if s.laneUp n then replayOf (s.acked n seq) n else s)

/-- QMI_REPLAY_TIMEOUT (R70): 2 µs without an advancing acknowledgement. -/
def execQmiReplayTimeout (n : Fin 144) (s : State) : Res :=
  .next (if s.laneUp n && decide (0 < (s.qc n).unacked) then replayOf s n else s)

/-- QMI_CREDIT_RECEIVED (R77): the cumulative count of command slots a die has freed. -/
def execQmiCreditReceived (n : Fin 144) (die : Fin 16) (freed : BitVec 8) (s : State) : Res :=
  let d := n.val * 16 + die.val
  .next (if s.laneUp n then (s.setDie d { s.die d with freed := freed }).pump n else s)

/-- QMI_SLEEP_RECEIVED (R467): answered, and followed, only in IDLE and with nothing to send. -/
def execQmiSleepReceived (n : Fin 144) (s : State) : Res :=
  let q := s.qc n
  .next (if s.psq.mainUp && s.psq.pstate == .idle && q.lstate == .active && q.queue.isEmpty && q.unacked == 0 then
    (s.setQc n { q with lstate := .sleep }).emit (.qmiLctl n .sleep) else s)

/-- QMI_CRC_FAILURE (R69 to R71): a flit comes that is not the next good one. One that fails its CRC, or is of KIND 3, is discarded, counted, and
answered by a NAK where it is the first; a MSG flit of another SEQ than the next is discarded and NAKed in the same way, and counts as no CRC failure.
`newWindow` says that it is the first failure of a new STORM_WIN. -/
def execQmiCrcFailure (n : Fin 144) (newWindow : Bool) (f : BitVec 544) (s : State) : Res :=
  .next (if s.laneUp n then
    if flitBad f then
      let q := s.qc n
      let k := if newWindow then 1 else q.storm + 1
      let storm := decide (s.fld Reg.QC_ERR_CFG n 7 0 ≤ k)
      let s1 := (((s.bump Reg.QC_ERR_CNT n 15 0).setQc n { q with
        storm := k, stormBit := storm, stormAt := if newWindow then s.tally.now else q.stormAt }).sendNak n)
      if storm then s1.enterRecovery n false false else s1.judgeQc n
    else if flitKind f == 1 && flitSeq f != (s.qc n).rxSeq then s.sendNak n else s
  else s)

/-- QMI_ACK_TIMER (R70): 200 ns after a flit not yet acknowledged. -/
def execQmiAckTimer (n : Fin 144) (s : State) : Res :=
  let q := s.qc n
  .next (if s.laneUp n && decide (0 < q.rxOwed) then
    (s.setQc n { q with rxOwed := 0 }).emit (.qmiLctl n (.ack (q.rxSeq - 1))) else s)

/-- QMI_LCTL_REFRESH (R69): the whole link-control state is sent again: the acknowledgement, and the NAK where one stands. The CREDIT counts are the
dies' (R77): the GW7144 takes no commands and has none. A channel that has left electrical idle sends its training words, and stands in TRAIN from the
first ones on (Tables 4-4 and 4-11). DESIGN CHOICE (log entry 124): no event of its own ends DETECT. -/
def execQmiLctlRefresh (n : Fin 144) (s : State) : Res :=
  let q := s.qc n
  .next (if s.laneUp n then
    let s1 := s.emit (.qmiLctl n (.ack (q.rxSeq - 1)))
    if q.nak then s1.emit (.qmiLctl n (.nak (q.rxSeq - 1))) else s1
  else if s.medUp && (q.lstate == .detect || q.lstate == .train) then (s.setQc n { q with lstate := .train }).emit (.qmiLctl n .train)
  else s)

/-! ### Recovery (R71, R72) -/

/-- A channel that ends recovery without DOWN. DESIGN CHOICE (log entry 125): the replay count and the CRC failures of the window start anew, as the
retrain is a new state of the lane; the rule names only an acknowledgement for the count, and no event for the window. CRC_STORM stays until its window
ends. -/
def QChan.recovered (q : QChan) : QChan :=
  { q with lstate := .active, recovery := none, soft := false, exhBit := false, storm := 0, replays := 0, nak := false, rxOwed := 0 }

/-- FAST_RETRAIN_DONE (R71): success resumes the replay, failure runs the next fast retrain or the full one. -/
def execFastRetrainDone (n : Fin 144) (ok : Bool) (s : State) : Res :=
  let q := s.qc n
  .next (match s.medUp, q.recovery with
    | true, some (.fast k) =>
      let s1 := s.bump Reg.QC_RETRAINS n 7 0
      if ok then ((s1.setQc n q.recovered).emit (.qmiReplay n q.ackSeq)).channelBack n
      else
        let more := decide (k + 1 < s.fld Reg.QC_ERR_CFG n 21 20)
        (s1.setQc n { q with recovery := some (if more then .fast (k + 1) else .full), unacked := if more then q.unacked else 0 }).emit
          (.qmiRetrain n !more)
    | _, _ => s)

/-- FULL_RETRAIN_DONE (R71, R72, R86): success has the completion logs and the dies' descriptors read, failure ends in DOWN. DESIGN CHOICE (log
entry 126): the replay buffer is empty, and both directions go on with the SEQ that follows; the spec does not say which SEQ follows a full retrain. -/
def execFullRetrainDone (n : Fin 144) (ok : Bool) (s : State) : Res :=
  let q := s.qc n
  .next (match s.medUp, q.recovery with
    | true, some .full =>
      let s1 := s.bump Reg.QC_RETRAINS n 15 8
      if ok then ((s1.setQc n { q.recovered with unacked := 0 }).askLogs n true).channelBack n else s1.channelDown n
    | _, _ => s)

/-- QC_FAST_RETRAIN (R71): ignored unless the channel is ACTIVE. -/
def execQcFastRetrain (n : Fin 144) (s : State) : Res :=
  .next (if s.psq.mainUp && (s.qc n).lstate == .active then s.enterRecovery n false true else s)

/-- QC_FULL_RETRAIN (R71). -/
def execQcFullRetrain (n : Fin 144) (s : State) : Res :=
  .next (if s.psq.mainUp && (s.qc n).lstate == .active then s.enterRecovery n true true else s)

/-! ### Offline (R88) -/

/-- A channel is taken offline: LSTATE reads OFF at once, and what is outstanding has 100 µs. -/
def State.offlineChan (s : State) (n : Nat) : State :=
  let q := s.qc n
  if q.offline then s
  else ((s.setBit Reg.QC_CTRL n 3 true).setQc n { q with
    lstate := .off, offline := true, offWait := !q.sent.isEmpty, recovery := none, soft := false, stormBit := false, exhBit := false }).channelLeaves n

/-- QC_OFFLINE (R88). -/
def execQcOffline (n : Fin 144) (s : State) : Res := .next (if s.psq.mainUp then s.offlineChan n else s)

/-- QC_OFFLINE_TIMEOUT (R88): what is still outstanding waits for the channel's return. -/
def execQcOfflineTimeout (n : Fin 144) (s : State) : Res :=
  let q := s.qc n
  .next (if s.psq.mainUp && q.offWait then
    s.setQc n { q with offWait := false, orphans := q.orphans ++ q.sent, sent := [], unacked := 0 } else s)

/-! ### Bring-up (R82, R85) -/

/-- QC_EN (R85): commands may be issued, once the channel is ACTIVE and every die on it has answered IDENTIFY; a die that answered inconsistently has
left service (R166). -/
def execQcEn (n : Fin 144) (s : State) : Res :=
  .next (if s.medUp && ((s.qc n).lstate == .active || (s.qc n).lstate == .sleep) && (s.chanDies n).all fun d => (s.die d).identified then
    (s.setBit Reg.QC_CTRL n 0 true).channelBack n else s)

/-- A package of the channel reports READY; with the last one of the channel both ends leave electrical idle (Table 4-11). -/
def State.packageUp (s : State) (n : Nat) (pkg : Bool) (t : BitVec 2) : State :=
  let q := s.qc n
  let q1 := if pkg then { q with pkg1 := t, ready1 := true } else { q with pkg0 := t, ready0 := true }
  let both := q1.ready0 && (q1.ready1 || !(s.qg (n / 16)).seen.getLsbD (packageIndex n true))
  s.setQc n { q1 with lstate := if both && q1.lstate == .off && !q1.offline then .detect else q1.lstate }

/-- PACKAGE_READY (R67, R82, R85): the package's descriptor `d` has been read with its READY byte; `seen` are the packages of the group that answer on the
sideband. The package takes its address (R81). A descriptor or a population that fails takes the whole group out; a channel whose packages are ready
starts DETECT. -/
def execPackageReady (n : Fin 144) (pkg : Bool) (seen : BitVec 32) (d : List Byte) (s : State) : Res :=
  let g := n.val / 16
  let v := s.qg g
  let i := Fin.ofNat 32 (packageIndex n pkg)
  .next (if !s.medUp || !v.railsUp || v.invBad || !s.bit Reg.QG_CTRL g 0 || s.bit Reg.QG_CTRL g 1 then s
  else
    let s0 := (((s.setQg g { v with sbOk := true, seen := seen }).judgeQg g).emit (.sideband (Fin.ofNat 9 g) (.setdasa i))).emit
      (.sideband (Fin.ofNat 9 g) (.descriptor i))
    match State.placeMissing seen with
    | some (k, second) => s0.inventoryFails (16 * g + k) second 1
    | none =>
      match descCheck d with
      | some k => s0.inventoryFails n pkg k
      | none =>
        if descByte d 0x0A ≠ 1 then s0
        else
          let s1 := s0.packageUp n pkg (if descByte d 1 = 4 then 1 else 2)
          match s1.populationBad n with
          | some second => s1.inventoryFails n second 1
          | none => s1)

/-- A group whose every channel is populated alike and passed comes into service: its table slots are armed (R67, R465). -/
def State.groupServes (s : State) (g : Nat) : State :=
  if s.populationWhole g && !(s.qg g).inService then
    ((s.setQg g { s.qg g with inService := true }).setPsq { s.psq with inventoried := s.psq.inventoried ||| BitVec.twoPow 9 g }).armGroupSlots g
  else s

/-- CHANNEL_TRAINED (R85, R166): training has ended, IDENTIFY has gone to each die, and each has answered, consistently where its bit of `idOk` is set.
DESIGN CHOICE (log entry 126): the transmitter's buffer is empty and both directions go on with the SEQ they stood at. -/
def execChannelTrained (n : Fin 144) (idOk : BitVec 16) (s : State) : Res :=
  let g := n.val / 16
  let v := s.qg g
  let q := s.qc n
  .next (if !s.medUp || !v.railsUp || v.invBad || !(q.lstate == .detect || q.lstate == .train) then s
  else
    let dies := s.chanDies n
    let okBits : BitVec 16 := dies.foldl (fun (a : BitVec 16) d => if idOk.getLsbD (d % 16) then a ||| BitVec.twoPow 16 (d % 16) else a) 0
    let s0 := dies.foldl (fun s d => s.emit (.qmi n { op := .identify, die := Fin.ofNat 16 d })) s
    let s1 := s0.setQc n { q with lstate := .active, eqValid := true, dieOk := okBits, unacked := 0, replays := 0, nak := false, rxOwed := 0 }
    let s2 := dies.foldl (fun s d => s.dieIdentified d (idOk.getLsbD (d % 16))) s1
    let s3 := s2.groupServes g
    ((if (s3.qc n).orphans.isEmpty then s3 else s3.askLogs n false).judgeQg g).channelBack n)

/-! ### The sideband (R83, R84, R80, R99) -/

/-- SIDEBAND_TEMP_POLL (R83, R84): the temperatures that the group's packages answer, by package index. -/
def execSidebandTempPoll (g : Fin 9) (temps : List (Option Int)) (s : State) : Res :=
  let on := (s.psq.pstate == .active || s.psq.pstate == .idle) && s.psq.mainUp || s.psq.burst == some g
  .next (if !on || !(s.qg g).railsUp || !s.bit Reg.QG_CTRL g 0 || s.bit Reg.QG_CTRL g 1 then s
  else
    let s1 := (List.range 32).foldl (fun (s : State) i =>
      let q := s.qc (16 * g.val + i / 2)
      let fitted := if i % 2 = 1 then q.pkg1 != 0 else q.pkg0 != 0
      if !fitted then s
      else
        let v := s.qg g
        let p := Tab.get {} v.packages i
        let p1 : Package := match temps.getD i none with
          | some t => { temp := t, missed := 0 }
          | none => { p with missed := p.missed + 1 }
        (s.setQg g { v with packages := Tab.put {} v.packages i p1 }).emit (.sideband g (.temperature (Fin.ofNat 32 i)))) s
    let v := s1.qg g
    let failed := v.packages.any fun p => decide (3 ≤ p.2.missed)
    let whole := v.packages.all fun p => p.2.missed == 0
    let s2 := s1.setQg g { v with sbOk := if failed then false else if whole then true else v.sbOk }
    let s3 := if (s2.qg g).sbOk then (List.range 32).foldl (fun (s : State) i => match temps.getD i none with
        | some t => s.packageTemp (16 * g.val + i / 2) (i % 2 == 1) t
        | none => s) s2
      else s2
    s3.judgeTemp g)

/-- SIDEBAND_STUCK_TIMEOUT (R84): the bus has been low for more than 10 ms. -/
def execSidebandStuckTimeout (g : Fin 9) (s : State) : Res :=
  .next (if s.medUp && (s.qg g).railsUp then (s.setQg g { s.qg g with sbOk := false }).judgeTemp g else s)

/-- QG_ALERT (R84): the level of QGg_ALERT_N; a low pin has the status of the alerting package read, `status`, and recorded with it. DESIGN CHOICE (log
entry 127): the record's DETAIL is the package index × 256 + the status, taken as a byte. -/
def execQgAlert (g : Fin 9) (low : Bool) (pkg : Fin 32) (status : Byte) (s : State) : Res :=
  .next (if s.medUp && (s.qg g).railsUp then
    let v := s.qg g
    if low && !v.alert then
      (((s.setQg g { v with alert := true, alertPkg := pkg, alertStatus := status }).judgeQg g).emit (.sideband g (.status pkg))).deviceRecord
        (144 + g.val) (BitVec.ofNat 32 (pkg.val * 256 + status.toNat))
    else (s.setQg g { v with alert := low }).judgeQg g
  else s)

end Sys2Proof.Machine
end

