-- ==== Sys2Proof/Machine/Cxl.lean ====
section
/-! DEFINITION. The meanings of CXL requests, port events and mailbox commands (chapter 11). -/

namespace Sys2Proof.Machine

/-! ### CXL.mem -/

/-- CXL_MEMRD (R9): MemRd or MemRdData of one chunk. -/
def execCxlMemrd (p : Fin 4) (l : Fin 16) (tag : Nat) (t : CxlTarget) (s : State) : Res := .next (s.cxlRead p l tag t)

/-- CXL_MEMSPECRD (R272). -/
def execCxlMemspecrd (p : Fin 4) (l : Fin 16) (t : CxlTarget) (s : State) : Res := .next (s.cxlSpecRead p l t)

/-- CXL_MEMWR (R12): a whole chunk. -/
def execCxlMemwr (p : Fin 4) (l : Fin 16) (tag : Nat) (t : CxlTarget) (d : Chunk) (poison : Bool) (s : State) : Res :=
  .next (s.cxlWrite p l tag t (BitVec.allOnes 64) d poison)

/-- CXL_MEMWRPTL (R282): the enabled bytes as one chunk write. -/
def execCxlMemwrptl (p : Fin 4) (l : Fin 16) (tag : Nat) (t : CxlTarget) (mask : BitVec 64) (d : Chunk) (poison : Bool) (s : State) : Res :=
  .next (s.cxlWrite p l tag t mask d poison)

/-- CXL_HOLD_TIMEOUT (R281): the write held longest on the port is dropped with Cmp. -/
def execCxlHoldTimeout (p : Fin 4) (s : State) : Res :=
  if !s.ingressOpen then .next s
  else match s.bench.held.find? fun h => s.portOf h == p.val with
    | none => .next s
    | some w =>
      let s1 := s.setBench { s.bench with held := s.bench.held.erase w }
      match w.who with
      | .cxl q l t => .next ((s1.cxlDrop q l t (s1.dpaOf q l w.region w.rline)).judgeCredits.settle)
      | _ => .next s

/-! ### Ports -/

/-- CXL_PORT_TRAIN (R268 to R270): a port that is enabled and exists trains. `width` and `speed` (1 for 32 GT/s, 2 for 64) are what the link
partner reaches, `flit256` that it offers a 256 B flit mode, `mld` and `lds` what was negotiated. -/
def execCxlPortTrain (p : Fin 4) (width : Fin 17) (speed : Fin 3) (flit256 flitLo mld : Bool) (lds : Fin 16) (s : State) : Res :=
  if !s.hostsMay || !s.bit Reg.CXL_CTRL 0 p.val then .next s
  else
    let v0 := s.cport p
    let v : CxlPort := if v0.cycled then { v0 with cfg := s.reg Reg.CXL_CFG, cycled := false } else v0
    let s1 := s.setCport p v
    if !s1.portThere p then .next (s1.setCport p { v with st := .disabled }).judgeCxl
    else
      let most := if v.cfg.getLsbD (p.val / 2) then 8 else 16
      let w := if 16 ≤ width.val ∧ most = 16 then 16 else if 8 ≤ width.val then 8 else 0
      let sp := if v.cfg.getLsbD 4 then min speed.val 1 else speed.val
      let v1 : CxlPort :=
        if !flit256 || sp = 0 then { v with st := .detect, width := 0, speed := 0 }
        else if w = 0 then { v with st := .heldNarrow, width := 0, speed := 0 }
        else { v with st := .l0, width := w, speed := sp, flitLo := flitLo, mld := mld, lds := if mld then lds.val + 1 else 1 }
      .next (s1.setCport p v1).judgeCxl

/-- GPF_PHASE2 (R290): the port answers once every write received before has been acknowledged or dropped; `us` is the duration measured. -/
def execGpfPhase2 (p : Fin 4) (us : BitVec 16) (s : State) : Res :=
  if s.ingressOpen && (s.cport p).st == .l0 then .next (s.setCport p { s.cport p with gpf := some us }).settle else .next s

/-- A stream of a port is established (R283): 0 is CXL.mem, 1 the CXL.io link stream, 2 to 5 the selective CXL.io streams. -/
def ideUp (v : CxlPort) (k : Fin 6) : Bool :=
  if k = 0 then v.ideMem else if k = 1 then v.ideIo else v.ideSel.getLsbD (k.val - 2)

/-- Establishes or ends a stream of a port. -/
def setIde (v : CxlPort) (k : Fin 6) (go : Bool) : CxlPort :=
  if k = 0 then { v with ideMem := go } else if k = 1 then { v with ideIo := go }
  else { v with ideSel := if go then v.ideSel ||| BitVec.twoPow 4 (k.val - 2) else v.ideSel &&& ~~~(BitVec.twoPow 4 (k.val - 2)) }

/-- IDE_FAIL (R284): a stream enters the insecure state; on CXL.mem the port discards what it receives until new keys are programmed. -/
def execIdeFail (p : Fin 4) (k : Fin 6) (s : State) : Res :=
  if !s.psq.mainUp || !ideUp (s.cport p) k then .next s
  else
    let v := setIde (s.cport p) k false
    .next ((s.setCport p { v with insecure := v.insecure || k == 0 }).cause Reg.CXL_CAUSE 0 2 226)

/-- IDE_KM (R283): keys of a stream are programmed or refreshed, or the stream is stopped, over a secured SPDM session of the LD's DOE. -/
def execIdeKm (p : Fin 4) (l : Fin 16) (session : Word) (k : Fin 6) (go : Bool) (s : State) : Res :=
  if !s.psq.mainUp || !(s.ld p l).sessions.contains session then .next s
  else
    let v := setIde (s.cport p) k go
    .next ((s.setCport p { v with insecure := v.insecure && !(k == 0 && go) }).emit (.doe p l [0x0B, k.val, go.toNat]))

/-- DOE_DISCOVERY (R285): the object types of the LD's mailbox: discovery, CMA/SPDM, secured CMA/SPDM, CDAT. -/
def execDoeDiscovery (p : Fin 4) (l : Fin 16) (s : State) : Res :=
  if s.psq.mainUp && s.ldThere p l then .next (s.emit (.doe p l [0x00, 0x01, 0x02, 0x10002])) else .next s

/-- Read latency of a mode in ns (Table 11-4). -/
def modeLatency : Mode → Nat
  | .m2 => 900
  | .m3 => 1100
  | _ => 1300

/-- Write bandwidth of a port in MB/s (Table 11-4). -/
def writeBandwidth (v : CxlPort) : Nat :=
  if v.width = 16 ∧ v.speed = 2 then 100000 else if v.width = 8 ∧ v.speed = 1 then 25000 else 50000

/-- The CDAT contents of an LD (Table 11-4): version, then per binding and DC region its DPA base and length, the DSMAS flags (non-volatile), the
DSEMTS memory type (specific-purpose conventional memory), read and write latency and the bandwidths. The codes of the flags and of the
memory type are the standard's (log 144). -/
def cdatWords (s : State) (p : Fin 4) (l : Fin 16) : List Nat :=
  let d := s.ld p l
  let bs := s.cxl.bindings.filterMap fun b => match b.2 with
    | some (.region r _ len) => if b.1 / 4 == State.ldNo p l then some (r, len) else none
    | _ => none
  let dcs := d.dcMap.filterMap fun m => m.2.map fun r => (r, (s.region r).size * 65536)
  d.cdat :: ((bs ++ dcs).foldl (fun (a : List Nat × Nat) b =>
    (a.1 ++ [a.2, b.2, 4, 1, modeLatency (s.region b.1).mode, 1200, 38400, writeBandwidth (s.cport p)], a.2 + b.2)) ([], 0)).1

/-- CDAT_READ (R285, Table 11-4). -/
def execCdatRead (p : Fin 4) (l : Fin 16) (s : State) : Res :=
  if s.psq.mainUp && s.ldThere p l then .next (s.emit (.doe p l (cdatWords s p l))) else .next s

/-- HDM_DECODER_COMMIT (R276): the host writes a decoder's registers with the values of `d`, and its COMMIT bit as `d.committed` says. A commit
succeeds only with a binding of the decoder whose LEN is its Size, 256 MiB aligned. A committed decoder takes only a write that clears
COMMIT, which uncommits it unless it is locked (log 143). -/
def execHdmDecoderCommit (p : Fin 4) (l : Fin 16) (b : Fin 4) (d : Decoder) (s : State) : Res :=
  if !s.psq.mainUp || !s.ldThere p l then .next s
  else
    let e := s.ld p l
    let v := Tab.get ({} : Decoder) e.decoders b.val
    let put (w : Decoder) : Res := .next (s.setLd p l { e with decoders := Tab.put {} e.decoders b.val w })
    if v.committed then (if d.committed || v.locked then .next s else put { v with committed := false })
    else if !d.committed then put { d with notCommitted := false }
    else
      let len := match Tab.get (none : Option BindTo) s.cxl.bindings (State.ldNo p l * 4 + b.val) with
        | some (.region _ _ n) => some n
        | some .staging => some (256 * 2 ^ 20)
        | none => none
      let ok := len = some d.size ∧ d.base % (256 * 2 ^ 20) = 0 ∧ d.size % (256 * 2 ^ 20) = 0
      put { d with committed := decide ok, notCommitted := !decide ok }

/-! ### Mailbox (Table 11-5) -/

/-- Answers a mailbox command of an LD that exists. -/
def mailbox (p : Fin 4) (l : Fin 16) (s : State) (k : State → State × Nat × List Nat) : Res :=
  if s.psq.mainUp && s.ldThere p l then
    let r := k s.wakeIdle
    .next (r.1.emit (.mailbox p l r.2.1 r.2.2))
  else .next s

/-- The number of an LD event. -/
def eventNo : LdEvent → Nat
  | .writeDropped => 0
  | .readPoison => 1
  | .notHere => 2
  | .capState => 3
  | .healthStatus => 4
  | .dcAdd => 5
  | .dcRelease => 6

/-- GET_EVENT_RECORDS (R286): the records of a log, with Overflow. -/
def execGetEventRecords (p : Fin 4) (l : Fin 16) (k : LogKind) (s : State) : Res :=
  mailbox p l s fun s =>
    let d := s.ld p l
    (s, 0, [(d.overflow.contains k).toNat] ++ (d.logs.filter fun r => r.kind == k).flatMap fun r => [eventNo r.what, r.dpa, r.tally.toNat])

/-- CLEAR_EVENT_RECORDS (R286): the `n` oldest records of a log, or all of them. -/
def execClearEventRecords (p : Fin 4) (l : Fin 16) (k : LogKind) (n : Option Nat) (s : State) : Res :=
  mailbox p l s fun s =>
    let d := s.ld p l
    let mine := d.logs.filter fun r => r.kind == k
    let gone := match n with
      | some m => mine.take m
      | none => mine
    let left := (d.logs.foldl (fun (a : List LdRecord × Nat) r =>
      if r.kind == k && decide (a.2 < gone.length) then (a.1, a.2 + 1) else (a.1 ++ [r], a.2)) ([], 0)).1
    (s.setLd p l { d with logs := left, overflow := d.overflow.erase k }, 0, [])

/-- GET_EVENT_INTERRUPT_POLICY (R286): the MSI-X message number of each log. -/
def execGetEventInterruptPolicy (p : Fin 4) (l : Fin 16) (s : State) : Res :=
  mailbox p l s fun s => (s, 0, (List.range 5).map fun k => Tab.get 0 (s.ld p l).policy k)

/-- SET_EVENT_INTERRUPT_POLICY (R286): message numbers 0 to 63. -/
def execSetEventInterruptPolicy (p : Fin 4) (l : Fin 16) (k : LogKind) (vector : Fin 64) (s : State) : Res :=
  mailbox p l s fun s =>
    let d := s.ld p l
    (s.setLd p l { d with policy := Tab.put 0 d.policy (State.logNo k) vector.val }, 0, [])

/-- GET_FW_INFO (R286): two slots, the active one, and the version of each. -/
def execGetFwInfo (p : Fin 4) (l : Fin 16) (s : State) : Res :=
  mailbox p l s fun s =>
    (s, 0, [2, s.flash.slots.active.toNat + 1, s.flash.slots.a.version.toNat, s.flash.slots.b.version.toNat])

/-- GET_TIMESTAMP (R286): TLY_NOW in ns. -/
def execGetTimestamp (p : Fin 4) (l : Fin 16) (s : State) : Res :=
  mailbox p l s fun s => (s, 0, [s.tally.now.toNat * 1000000000 / 65536])

/-- SET_TIMESTAMP (R286): Success; the Tally is unchanged. -/
def execSetTimestamp (p : Fin 4) (l : Fin 16) (_ns : Nat) (s : State) : Res := mailbox p l s fun s => (s, 0, [])

/-- GET_SUPPORTED_LOGS (R286): the Command Effects Log alone. -/
def execGetSupportedLogs (p : Fin 4) (l : Fin 16) (s : State) : Res := mailbox p l s fun s => (s, 0, [1])

/-- The opcodes an LD's mailbox accepts (Table 11-5). -/
def mailboxOpcodes : List Nat :=
  [0x0100, 0x0101, 0x0102, 0x0103, 0x0200, 0x0201, 0x0202, 0x0300, 0x0301, 0x0400, 0x0401, 0x4000, 0x4200, 0x4400, 0x4800, 0x4801, 0x4802,
    0x4803, 0xC0A0]

/-- GET_LOG (R286): the Command Effects Log, each opcode with its effects, which the spec does not give. -/
def execGetLog (p : Fin 4) (l : Fin 16) (s : State) : Res :=
  mailbox p l s fun s => (s, 0, mailboxOpcodes.flatMap fun o => [o, (Config.commandEffect o).toNat])

/-- The DPA capacity of an LD in 256 MiB units (R277, Table 11-6). -/
def ldCapacity (s : State) (p : Fin 4) (l : Fin 16) : Nat :=
  ((s.cxl.bindings.filter fun b => b.1 / 4 == State.ldNo p l).map fun b => match b.2 with
    | some (.region _ _ len) => len / (256 * 2 ^ 20)
    | _ => 0).foldl (· + ·) 0

/-- IDENTIFY_MEMORY_DEVICE (Table 11-6). -/
def execIdentifyMemoryDevice (p : Fin 4) (l : Fin 16) (s : State) : Res :=
  mailbox p l s fun s => (s, 0, [ldCapacity s p l, 0, ldCapacity s p l, 0, 64, 64, 64, 64, 0, 0, 0])

/-- The rated endurance of a mode in line programs (Table 0-2). -/
def ratedEndurance : Mode → Nat
  | .m2 => 10000000
  | .m3 => 2000000
  | _ => 300000

/-- Life Used (Table 11-7): the highest over dies of mean line programs over the endurance of the die's densest mode, in percent. -/
def lifeUsed (s : State) : Nat :=
  min 255 ((s.dieIds.map fun d =>
    let ms := (List.range 62).map fun z => (s.zone d z).mode
    let m := if ms.contains .m4 then Mode.m4 else if ms.contains .m3 then .m3 else .m2
    s.dieMean d / 10 / ratedEndurance m).foldl max 0)

/-- GET_HEALTH_INFO (Table 11-7): Health Status, Media Status, Life Used, Device Temperature, Dirty Shutdown Count, and the corrected error
counts. -/
def execGetHealthInfo (p : Fin 4) (l : Fin 16) (s : State) : Res :=
  mailbox p l s fun s =>
    (s, 0, [s.healthNow, (s.bench.domain != .opened).toNat, lifeUsed s, s.psq.tj.toNat, s.bench.shutdowns,
      (s.reg Reg.RD_SOFT_CNT).toNat + (s.reg Reg.RD_ASSIST_CNT).toNat, (s.reg Reg.DRM_CE_CNT).toNat])

/-- The regions that an LD's bindings reach. -/
def ldRegions (s : State) (p : Fin 4) (l : Fin 16) : List Nat := s.regionIds.filter fun r => s.ldReaches (State.ldNo p l) r

/-- SANITIZE (R288): refused while a region reached is bound to another LD or covered by a window; otherwise each is crypto-erased in the
background. -/
def execSanitize (p : Fin 4) (l : Fin 16) (s : State) : Res :=
  mailbox p l s fun s =>
    let rs := ldRegions s p l
    let d := s.ld p l
    if d.bg.isSome then (s, 6, [])
    else if rs.any fun r => (s.bindingsOf r).any (fun b => b.1 != State.ldNo p l) || s.rdma.wins.any (fun w => w.2.any fun x => x.region == r) then
      (s, 2, [])
    else
      let s1 := rs.foldl (fun s r => s.eraseBegin r) s
      let s2 := s1.setLd p l { s1.ld p l with bg := some 0x4400, bgPct := 0 }
      ({ s2 with cxl := { s2.cxl with bgOps := s2.cxl.bgOps ++ [(State.ldNo p l, rs)] } }, 1, [])

/-- BACKGROUND_OPERATION_COMPLETE (R286, R288): the background work of an LD ends; its status and vector 0 report it. -/
def execBackgroundOperationComplete (p : Fin 4) (l : Fin 16) (s : State) : Res :=
  if !s.psq.mainUp || (s.ld p l).bg.isNone then .next s
  else
    let rs := ((s.cxl.bgOps.find? fun b => b.1 == State.ldNo p l).map Prod.snd).getD []
    let s1 := { s with cxl := { s.cxl with bgOps := s.cxl.bgOps.filter fun b => b.1 != State.ldNo p l } }
    let s2 := rs.foldl (fun s r => s.eraseEnd r) s1
    .next ((s2.setLd p l { s2.ld p l with bg := none, bgPct := 100, bgRet := 0 }).msixSend p l 0)

/-! ### Dynamic capacity -/

/-- GET_DC_CONFIGURATION (R278, R286): the LD's DC regions with the GW7144 region of each and its size. -/
def execGetDcConfiguration (p : Fin 4) (l : Fin 16) (s : State) : Res :=
  mailbox p l s fun s => (s, 0, (s.ld p l).dcMap.flatMap fun m => match m.2 with
    | some r => [m.1, r, (s.region r).size * 65536, 256 * 2 ^ 20]
    | none => [])

/-- GET_DC_EXTENT_LIST (R286). -/
def execGetDcExtentList (p : Fin 4) (l : Fin 16) (s : State) : Res :=
  mailbox p l s fun s => (s, 0, (s.ld p l).extents.flatMap fun e => [e.dc.val, e.off, e.len])

/-- ADD_DC_RESPONSE (R278): the host accepts offered extents; offers it does not name lapse. -/
def execAddDcResponse (p : Fin 4) (l : Fin 16) (es : List DcExtent) (s : State) : Res :=
  mailbox p l s fun s =>
    let d := s.ld p l
    if es.all fun e => d.offers.contains e then
      ((s.setLd p l { d with extents := d.extents ++ es, offers := [] }).cdatAdvance (State.ldNo p l), 0, [])
    else (s, 2, [])

/-- Releases one extent of an LD (R279): a range that no other binding, extent or window covers reads as zero afterwards. -/
def dcRelease (s : State) (p : Fin 4) (l : Fin 16) (e : DcExtent) : State :=
  let d := s.ld p l
  let s1 := ((s.setLd p l { d with extents := d.extents.erase e }).cdatAdvance (State.ldNo p l)).ldRecord p l .dcd .dcRelease e.off
  match Tab.get none d.dcMap e.dc.val with
  | none => s1
  | some r =>
    let other := State.ldNo p l
    let covered := (s1.bindingsOf r).any (fun b => b.1 != other && decide (b.2.2.1 < e.off + e.len ∧ e.off < b.2.2.1 + b.2.2.2)) ||
      (s1.extentsOn r).any (fun x => x.1 != other && decide (x.2.1 < e.off + e.len ∧ e.off < x.2.1 + x.2.2)) || s1.windowCovers r e.off e.len
    if covered then s1
    else
      let is := (s1.liveSetts r).filter fun i => decide (e.off ≤ i * 65536 ∧ i * 65536 < e.off + e.len)
      (is.foldl (fun s i => match s.settOf r i with
        | some n => s.zeroSett n
        | none => s) (s1.sendAttr r { record := s1.region r, gens := is.filterMap fun i => (s1.settOf r i).map fun n => (n, (State.nextGen (s1.sett n).gen).toNat) })).settle

/-- DC_RELEASE (R279): the fabric manager releases an extent of an LD. -/
def execDcRelease (p : Fin 4) (l : Fin 16) (e : DcExtent) (s : State) : Res :=
  if s.psq.mainUp && s.ldThere p l && (s.ld p l).extents.contains e then .next (dcRelease s p l e) else .next s

/-- RELEASE_DC (R279): the host releases extents of the LD. -/
def execReleaseDc (p : Fin 4) (l : Fin 16) (es : List DcExtent) (s : State) : Res :=
  mailbox p l s fun s =>
    if es.all fun e => (s.ld p l).extents.contains e then (es.foldl (fun s e => dcRelease s p l e) s, 0, []) else (s, 2, [])

end Sys2Proof.Machine
end

