-- ==== Sys2Proof/Machine/RdmaOps.lean ====
section
/-! DEFINITION. RDMA packets (chapter 12): the checks of a packet, placement of WRITEs, SPRAY (R312 to R315), the requester (R309, R310), rate
control (R316), MACs and their causes. A QP is named by its number less 0x1_0000. -/

namespace Sys2Proof.Machine

/-- A line's worth of bytes at an offset in the line: mask and data. -/
def byteLine (sh : Nat) (bs : List Byte) : BitVec 256 × Line :=
  ((BitVec.ofNat 256 (2 ^ bs.length - 1)) <<< sh,
    BitVec.ofNat 2048 ((bs.zipIdx.map fun b => b.1.toNat * 2 ^ (8 * (sh + b.2))).foldl (· + ·) 0))

/-- Installs or retires SA `an` of secure channel `sc` (R318). -/
def Mac.putSa (v : Mac) (sc : Fin 64) (an : Fin 2) (on : Bool) : Mac :=
  let old := Tab.get 0 v.sas sc.val
  { v with sas := Tab.put 0 v.sas sc.val (if on then old ||| BitVec.twoPow 2 an.val else old &&& ~~~(BitVec.twoPow 2 an.val)) }

namespace State

/-! ### MACs -/

/-- MAC `m`. -/
def mac (s : State) (m : Nat) : Mac := Tab.get {} s.rdma.macs m

/-- Replaces MAC `m`. -/
def setMac (s : State) (m : Nat) (v : Mac) : State := { s with rdma := { s.rdma with macs := Tab.put {} s.rdma.macs m v } }

/-- Ethernet port `p`. -/
def eport (s : State) (p : Nat) : EthPort := Tab.get {} s.rdma.ports p

/-- Replaces Ethernet port `p`. -/
def setEport (s : State) (p : Nat) (v : EthPort) : State := { s with rdma := { s.rdma with ports := Tab.put {} s.rdma.ports p v } }

/-- The mode of a port leaves MAC `m` in use (Table 12-1). -/
def macThere (s : State) (m : Nat) : Bool :=
  match (s.eport (m / 4)).mode with
  | 0 => m % 4 == 0
  | 1 => m % 2 == 0
  | 2 => true
  | _ => false

/-- A port is enabled, and host ports may be up. -/
def eportOn (s : State) (p : Nat) : Bool := s.hostsMay && s.bit Reg.ETH_CTRL 0 p

/-- The level bits of ETH_MAC_CAUSE (Table 12-15): source 160 + m is the OR of every bit. -/
def judgeMac (s : State) (m : Nat) : State :=
  let v := s.mac m
  let there := s.macThere m && s.eportOn (m / 4)
  let mask := 0x707
  let s1 := s.level Reg.ETH_MAC_CAUSE m 0 (160 + m) mask (there && !v.up)
  let s2 := s1.level Reg.ETH_MAC_CAUSE m 1 (160 + m) mask (there && v.up && v.fecBad)
  s2.level Reg.ETH_MAC_CAUSE m 2 (160 + m) mask (there && s.bit Reg.ETH_MACSEC_CTRL 0 (8 + m / 4) && !v.sa)

/-- A frame is dropped and counted (R295, R297, R318). -/
def macDrop (s : State) (m : Nat) : State := s.bump Reg.ETH_MAC_DROP_CNT m 31 0

/-- A MAC takes frames: there, up, and with its SA installed where the port requires MACsec. -/
def macTakes (s : State) (m : Nat) : Bool :=
  s.ingressOpen && s.macThere m && s.eportOn (m / 4) && (s.mac m).up && (!s.bit Reg.ETH_MACSEC_CTRL 0 (8 + m / 4) || (s.mac m).sa)

/-! ### Windows and contexts -/

/-- The window an R_Key names, live with its TAG (R305). -/
def window (s : State) (key : Word) : Option MemWin :=
  match Tab.get none s.rdma.wins (key.toNat / 2 ^ 14) with
  | some w => if w.tag.toNat = key.toNat % 2 ^ 14 then some w else none
  | none => none

/-- The window check of R305: answers the region offset of the first byte. `right` is the bit of RIGHTS the opcode needs. -/
def windowCheck (s : State) (pd : Nat) (key : Word) (va len right : Nat) : Option (Nat × Nat) :=
  match s.window key with
  | none => none
  | some w =>
    if w.pd = pd ∧ w.rights.getLsbD right ∧ w.vaBase ≤ va ∧ va + len ≤ w.vaBase + w.len then some (w.region, w.rofs + (va - w.vaBase)) else none

/-- A QP's context holds copies of the 4 windows it used most recently (R307). -/
def useWindow (s : State) (n : Nat) (key : Word) : State :=
  let q := s.qp n
  let i := key.toNat / 2 ^ 14
  s.setQp n { q with copies := (i :: q.copies.filter (· != i)).take 4 }

/-- The QP's context comes on die (R307): the least recently used context that is no management QP's spills. -/
def contextIn (s : State) (n : Nat) : State :=
  let l := s.rdma.ctxLru
  let l1 := if !l.contains n && decide (24576 ≤ l.length) then
      (match l.reverse.find? fun k => (s.qp k).mgmt.isNone with
        | some k => l.erase k
        | none => l)
    else l
  { s with rdma := { s.rdma with ctxLru := n :: l1.erase n } }

/-- A packet of the QP uses its context: one that has spilled is a miss (R307). -/
def context (s : State) (n : Nat) : State :=
  (if s.rdma.ctxLru.contains n then s else s.bump Reg.RDM_CTX_MISS_CNT 0 31 0).contextIn n

/-- Microseconds of the Tally since `t`. -/
def usSince (s : State) (t : Dword) : Nat := (s.tally.now.toNat - t.toNat) * 1000000 / 65536

/-- A packet marked CE makes a CNP leave, at most one per CNP_GAP_US (R316). -/
def congestion (s : State) (n : Nat) (ce : Bool) : State :=
  let q := s.qp n
  let gap := s.fld Reg.RDM_CC_DEC 0 23 16
  let due := match q.cnpAt with
    | none => true
    | some t => decide (gap ≤ s.usSince t)
  if ce && s.bit Reg.RDM_CTRL 0 2 && due then
    ((s.setQp n { q with cnpAt := some s.tally.now }).bump Reg.RDM_CNP_CNT 0 15 0).emit (.cnp n)
  else s

/-- Remembers a request PSN (R311): the last 64. -/
def remember (q : Qp) (psn : BitVec 24) (k : ReqKind) : Qp :=
  { q with recent := (({ psn := psn, kind := k } : Remembered) :: q.recent).take 64 }

/-- What a packet's PSN says of it (R311, R314). -/
inductive PsnKind where
  | next | duplicate | older | ahead
  deriving DecidableEq, Repr

/-- Judges a PSN of a STANDARD request. -/
def psnKind (q : Qp) (psn : BitVec 24) : PsnKind :=
  let d := (q.epsn - psn).toNat
  if d = 0 then .next
  else if d < 2 ^ 23 then (if q.recent.any (fun r => r.psn == psn) || (decide (d ≤ 64) && q.recent.isEmpty) then .duplicate else .older)
  else .ahead

/-- The checks every request packet passes first. Answers whether it goes on: dropped at the MAC, by its ICRC, or for want of a connected
QP; discarded until the PSN of an RNR NAK returns. -/
def packetIn (s : State) (n : Nat) (psn : BitVec 24) (ce icrc : Bool) : State × Bool :=
  let q := s.qp n
  let m := q.mac.val
  if !s.ingressOpen || !s.bit Reg.RDM_CTRL 0 0 then (s, false)
  else if !s.macTakes m then (s.macDrop m, false)
  else if !icrc then ((s.cause Reg.ETH_MAC_CAUSE m 9 (160 + m)).macDrop m, false)
  else if !q.connected || q.error then (s.macDrop m, false)
  else
    let s1 := ((s.wakeIdle).context n).congestion n ce
    match q.rnr with
    | some p => if p = psn then (s1.setQp n { s1.qp n with rnr := none }, true) else (s1, false)
    | none => (s1, true)

/-- An out-of-order packet of a STANDARD QP: one PSN sequence error NAK (R314). -/
def seqNak (s : State) (n : Nat) : State :=
  let q := s.qp n
  if q.nakSent then s else (s.setQp n { q with nakSent := true }).nak n q.epsn 0

/-- A request is held: an RNR NAK names its first PSN, and later packets are discarded until it returns (R184). -/
def rnrNak (s : State) (n : Nat) (psn : BitVec 24) : State :=
  let q := s.qp n
  ((s.setQp n { q with rnr := some psn }).bump Reg.PBF_THROTTLE_CNT 0 15 0).nak n psn 4

/-- A duplicate is counted (RDM_DUP_CNT). -/
def dup (s : State) (n : Nat) (psn : BitVec 24) : State × Option Remembered :=
  (s.bump Reg.RDM_DUP_CNT 0 31 0, (s.qp n).recent.find? fun r => r.psn == psn)

/-! ### WRITE -/

/-- The lines of a payload placed at a region offset, as writes of a QP. -/
def pieces (s : State) (who : Origin) (stream : StreamSrc) (r off : Nat) (bs : List Byte) : List HostWrite :=
  (rangeLines off bs.length).filterMap fun l =>
    match if r = stagingRegion then some 0 else s.resolve r (l.1 * 256) with
    | none => none
    | some x =>
      let start := max off (l.1 * 256)
      let here := (bs.drop (start - off)).take (256 - start % 256)
      let b := byteLine (start % 256) here
      some { who := who, region := r, rline := l.1, line := x, mask := b.1, data := b.2, stream := stream }

/-- Submits the writes of a packet, or queues them behind a request that waits (R299). -/
def submitAll (s : State) (n : Nat) (ws : List HostWrite) : State :=
  if (s.qp n).queued.isEmpty then ws.foldl (fun s w => s.submit w) s
  else s.setQp n { s.qp n with queued := (s.qp n).queued ++ [.write ws] }

/-- The first refusal or hold that the writes of a first packet meet. -/
def packetFate (s : State) (ws : List HostWrite) : Fate :=
  match ws.findSome? fun w => match s.fate w with
    | .go => none
    | x => some x with
  | some x => x
  | none => .go

/-- The number of packets of a message of `len` bytes. -/
def packetsOf (q : Qp) (len : Nat) : Nat := max 1 ((len + q.pmtu - 1) / q.pmtu)

/-- Records a packet's writes in its message. -/
def msgAdd (s : State) (n : Nat) (msn lines bytes : Nat) : State :=
  let q := s.qp n
  s.setQp n { q with msgs := q.msgs.map fun m => if m.msn == msn then { m with left := m.left + lines, missing := m.missing - bytes } else m }

/-- A WRITE packet of a STANDARD QP in its turn (R298, R305, Table 12-4). -/
def writeNext (s : State) (n : Nat) (k : WritePkt) (imm : Option Word) : State :=
  let q := s.qp n
  let take (s : State) (c : CurMsg) (msn : Nat) (ws : List HostWrite) : State :=
    let lastPkt := k.pos == .last || k.pos == .only
    let s1 := s.setQp n (remember { s.qp n with
      epsn := k.psn + 1, nakSent := false, cur := if lastPkt then none else some c
      msgs := (s.qp n).msgs.map fun m => if m.msn == msn then { m with imm := if lastPkt then imm else m.imm } else m } k.psn .write)
    (s1.msgAdd n msn ws.length k.data.length).submitAll n ws
  match k.pos with
  | .first | .only =>
    match s.windowCheck q.pd k.key k.va k.len 1 with
    | none => s.qpFatal n k.psn 2 .access 0
    | some (r, off) =>
      let ws := s.pieces (.rdma n k.psn) (.qp n) r off k.data
      let full := match imm, q.rcq with
        | some _, some c => (s.cqFull c).2
        | _, _ => false
      match s.packetFate ws with
      | .refuse why => (s.refuseHost { who := .rdma n k.psn, region := r, rline := 0, line := 0, mask := 0, data := 0 } why)
      | .hold => s.rnrNak n k.psn
      | .go =>
        if full then ((match q.rcq with
          | some c => (s.cqFull c).1
          | none => s)).rnrNak n k.psn
        else
          let m : Msg := {
            first := k.psn, last := k.psn + BitVec.ofNat 24 (packetsOf q k.len - 1), msn := q.nextMsn, left := 0, missing := k.len, length := k.len }
          let s1 := (s.useWindow n k.key).setQp n { (s.useWindow n k.key).qp n with msgs := q.msgs ++ [m], nextMsn := q.nextMsn + 1 }
          take s1 { first := k.psn, region := r, off := off, len := k.len } m.msn ws
  | _ =>
    match q.cur with
    | none => s.nak n k.psn 1
    | some c =>
      let off := c.off + (k.psn - c.first).toNat * q.pmtu
      let ws := s.pieces (.rdma n k.psn) (.qp n) c.region off k.data
      match (q.msgs.find? fun m => m.first == c.first) with
      | none => s
      | some m => take s c m.msn ws

/-- A duplicate of a WRITE packet (R311): never executed again; its ACK is sent again once the message is durable. One older than the
window is acknowledged with the current MSN. -/
def writeDup (s : State) (n : Nat) (psn : BitVec 24) : State :=
  let (s1, r) := s.dup n psn
  match r with
  | some x => if x.done then s1.emit (.rdmaAck n psn (s1.qp n).msn) else s1
  | none => s1.emit (.rdmaAck n psn (s1.qp n).msn)

/-- Inserts a message in MSN order. -/
def insertMsg (m : Msg) : List Msg → List Msg
  | [] => [m]
  | x :: xs => if m.msn < x.msn then m :: x :: xs else x :: insertMsg m xs

/-- The first PSN not placed, from `e`. -/
def firstMissing (placed : List (BitVec 24)) : Nat → BitVec 24 → BitVec 24
  | 0, e => e
  | f + 1, e => if placed.contains e then firstMissing placed f (e + 1) else e

/-- A packet of a SPRAY message (R312, R313): placed on arrival whatever its order. -/
def sprayTake (s : State) (n : Nat) (k : WritePkt) (g : BitVec 128) (imm : Option Word) : State :=
  let q := s.qp n
  let base := match q.msgs.head? with
    | some m => if (q.epsn - m.first).toNat < 2 ^ 23 then m.first else q.epsn
    | none => q.epsn
  let d := (k.psn - base).toNat
  if 1048576 < gphLength g ∨ gphLength g = 0 then s.nak n k.psn 1
  else if 2 ^ 23 ≤ d then s.writeDup n k.psn
  else if 1024 ≤ d then (s.cause Reg.RDM_CAUSE 0 7 199).macDrop q.mac.val
  else if q.placed.contains k.psn || decide ((q.epsn - k.psn).toNat ≠ 0 ∧ (q.epsn - k.psn).toNat < 2 ^ 23) then s.writeDup n k.psn
  else match s.windowCheck q.pd k.key k.va k.len 1 with
    | none => s.qpFatal n k.psn 2 .access 0
    | some (r, off) =>
      let ws := s.pieces (.rdma n k.psn) (.qp n) r (off + gphOffset g) k.data
      match s.packetFate ws with
      | .refuse why => s.refuseHost { who := .rdma n k.psn, region := r, rline := 0, line := 0, mask := 0, data := 0 } why
      | .hold => s.rnrNak n k.psn
      | .go =>
        let full := match imm, q.rcq with
          | some _, some c => (s.cqFull c).2
          | _, _ => false
        if full then ((match q.rcq with
          | some c => (s.cqFull c).1
          | none => s)).rnrNak n k.psn
        else
        let first := k.psn - BitVec.ofNat 24 (gphOffset g / q.pmtu)
        let known := q.msgs.any fun m => m.msn == gphMsn g
        let m : Msg := {
          first := first, last := first + BitVec.ofNat 24 (packetsOf q (gphLength g) - 1), msn := gphMsn g, left := 0, missing := gphLength g, length := gphLength g }
        let placed := k.psn :: q.placed
        let epsn := firstMissing placed 1025 q.epsn
        let msgs := (if known then q.msgs else insertMsg m q.msgs).map fun x => if x.msn == gphMsn g && imm.isSome then { x with imm := imm } else x
        let s0 := s.useWindow n k.key
        let s1 := s0.setQp n (remember { s0.qp n with
          msgs := msgs, placed := placed, epsn := epsn, hole := placed.any fun p => decide ((p - epsn).toNat < 2 ^ 23)
          nextMsn := max q.nextMsn (gphMsn g + 1) } k.psn .write)
        (s1.msgAdd n (gphMsn g) ws.length k.data.length).submitAll n ws

/-- A WRITE packet, with immediate data or not (R298, R308, R311 to R314). -/
def writePacket (s : State) (n : Nat) (k : WritePkt) (imm : Option Word) : State :=
  match s.packetIn n k.psn k.ce k.icrc with
  | (s1, false) => s1
  | (s1, true) =>
    let q := s1.qp n
    match q.mgmt, (if q.spray then k.gph else none) with
    | some _, _ => s1.nak n k.psn 1
    | none, some g => (s1.sprayTake n k g imm).settle
    | none, none =>
      match psnKind q k.psn with
      | .next => (s1.writeNext n k imm).settle
      | .ahead => s1.seqNak n
      | _ => s1.writeDup n k.psn

/-! ### Other requests -/

/-- READ and atomic requests outstanding on a QP (Table 12-3). -/
def outstanding (q : Qp) : Nat :=
  q.active.length + (q.queued.filter fun j => match j with
    | .read _ _ _ _ => true
    | .atomic _ _ _ _ => true
    | _ => false).length

/-- A request that is no WRITE: its PSN checks, then `go` on its turn, or `again` on a duplicate. -/
def request (s : State) (n : Nat) (psn : BitVec 24) (ce icrc : Bool) (go : State → State) (again : State → Option Remembered → State) : State :=
  match s.packetIn n psn ce icrc with
  | (s1, false) => s1
  | (s1, true) =>
    let q := s1.qp n
    if q.mgmt.isSome then s1.nak n psn 1
    else match psnKind q psn with
      | .next => (go s1).settle
      | .ahead => s1.seqNak n
      | _ => let (s2, r) := s1.dup n psn; (again s2 r).settle

/-- Queues a request of `pkts` PSNs. -/
def enqueue (s : State) (n : Nat) (psn : BitVec 24) (kind : ReqKind) (j : Queued) (pkts : Nat) : State :=
  let q := s.qp n
  s.setQp n (remember { q with
    epsn := psn + BitVec.ofNat 24 pkts, nakSent := false, nextMsn := q.nextMsn + 1, queued := q.queued ++ [j] } psn kind)

/-! ### Selective NAK (R314) -/

/-- The missing ranges between `e` and the newest PSN placed. -/
def missingRanges (placed : List (BitVec 24)) : Nat → BitVec 24 → List (BitVec 24 × Nat) → List (BitVec 24 × Nat)
  | 0, _, acc => acc
  | f + 1, e, acc =>
    if !(placed.any fun p => decide ((p - e).toNat < 2 ^ 23)) then acc
    else if placed.contains e then missingRanges placed f (e + 1) acc
    else match acc.getLast? with
      | some (b, c) => if b + BitVec.ofNat 24 c = e ∧ c < 256 then missingRanges placed f (e + 1) (acc.dropLast ++ [(b, c + 1)])
          else missingRanges placed f (e + 1) (acc ++ [(e, 1)])
      | none => missingRanges placed f (e + 1) [(e, 1)]

/-! ### The requester (R309, R310) -/

/-- A WQE leaves its queue with a status: its completion where SIGNAL asks for one, or on an error. -/
def wqeEnd (s : State) (n : Nat) (w : Wqe) (status : Nat) : State :=
  match (s.qp n).scq with
  | some c => if w.signal || status ≠ 0 then
      s.cqWrite c (0x10000 + n) 0 (if status = 0 then w.length else 0) w.idx (match w.opcode with
        | 0 => 1
        | 1 => 1
        | 2 => 2
        | 3 => 3
        | _ => 4) status
    else s
  | none => s

/-- The queue fails (R310): its first WQE ends with `status`, the others with FLUSHED, and the QP enters the error state. -/
def sqFail (s : State) (n : Nat) (status : Nat) : State :=
  let q := s.qp n
  let all := q.flight.map (fun f => f.wqe) ++ q.wqes
  let s1 := (s.setQp n { q with flight := [], wqes := [], sqHead := q.sqTail, error := true }).cause Reg.RDM_CAUSE 0 0 192
  match all with
  | [] => s1
  | w :: ws => ws.foldl (fun s x => s.wqeEnd n x 5) (s1.wqeEnd n w status)

/-- Finished WQEs at the front of the flight complete in order. -/
def flightEnd (s : State) (n : Nat) : Nat → State
  | 0 => s
  | f + 1 =>
    let q := s.qp n
    match q.flight with
    | [] => s
    | x :: rest =>
      if x.bad then s.sqFail n 4
      else if x.acked && x.left == 0 then ((s.setQp n { q with flight := rest, retries := 0 }).wqeEnd n x.wqe 0).flightEnd n f else s

/-- Whether a WAIT holds (R310): the signed difference of counts is below 0; none where the CQ belongs to another PD. -/
def waiting (s : State) (q : Qp) (w : Wqe) : Option Bool :=
  if !w.wait then some false
  else match s.cq w.waitCq with
    | none => none
    | some c => if c.pd = q.pd then some ((c.count - w.waitCount).getLsbD 31) else none

/-- A WQE leaves as a request, a WRITE with the data of its local buffer (R309). -/
def wqeSend (s : State) (n : Nat) (w : Wqe) (psn : BitVec 24) : State :=
  let s1 := s.emit (.request n w psn)
  if w.opcode = 2 ∨ w.opcode = 3 then s1
  else match s1.windowCheck (s1.qp n).pd w.localKey w.localVa w.length 4 with
    | some (r, off) => s1.readLines (.gather n psn) r off w.length
    | none => s1

/-- Sends the WQEs at the front of a queue (R309, R310). -/
def sqSend (s : State) (n : Nat) : Nat → State
  | 0 => s
  | f + 1 =>
    let q := s.qp n
    match q.wqes with
    | [] => s
    | w :: rest =>
      if q.error || q.peerRnr then s
      else match s.waiting q w with
        | none => s.sqFail n 4
        | some true => s
        | some false =>
          let local_ := w.opcode == 3 || (s.windowCheck q.pd w.localKey w.localVa w.length 4).isSome
          if !local_ || decide (2 ^ 31 < w.length) then s.sqFail n 4
          else
            let last := q.txPsn + BitVec.ofNat 24 (packetsOf q w.length - 1)
            ((s.setQp n { q with wqes := rest, txPsn := last + 1, flight := q.flight ++ [{ wqe := w, psn := q.txPsn, last := last }] }).wqeSend
              n w q.txPsn).sqSend n f

/-- The bytes [i + k − 1 : i] of a chunk as a number. -/
def chunkBytesAt (c : Chunk) (i k : Nat) : Nat := (c >>> (8 * i)).toNat % 2 ^ (8 * k)

/-- A send-queue entry from its 64 B (Table 12-9). -/
def wqeOf (c : Chunk) (idx : Nat) : Wqe :=
  let b := chunkBytesAt c
  { opcode := Fin.ofNat 5 (min (b 0 1) 4), signal := (b 1 1) % 2 == 1, wait := (b 1 1) / 2 % 2 == 1, localKey := BitVec.ofNat 32 (b 4 4)
    localVa := b 8 8, length := b 16 4, remoteKey := BitVec.ofNat 32 (b 20 4), remoteVa := b 24 8, imm := BitVec.ofNat 32 (b 32 4)
    waitCq := b 36 4, waitCount := BitVec.ofNat 32 (b 40 4), idx := idx }

/-- Reads the WQEs a doorbell posted from region memory, asking for lines that are not at hand (R309). -/
def sqRead (s : State) (n : Nat) : Nat → State
  | 0 => s
  | f + 1 =>
    let q := s.qp n
    match q.sqN with
    | none => s
    | some k =>
      if q.sqHead = q.sqTail ∨ q.error then s
      else
        let off := q.sqOff + 64 * (q.sqHead % 2 ^ k)
        match s.resolve q.sqRegion off with
        | none => s
        | some x =>
          match s.peekLine x with
          | none => s.wantLine q.sqRegion (off / 256) x
          | some d =>
            (s.setQp n { q with
              sqHead := q.sqHead + 1, wqes := q.wqes ++ [wqeOf (chunkAt d (off / 64 % 4)) (q.sqHead % 2 ^ k)] }).sqRead n f

/-- What the requester of a QP can do now. -/
def sqRun (s : State) (n : Nat) : State :=
  let q := s.qp n
  if q.sqN.isNone then s
  else
    let s1 := s.sqRead n (q.sqTail - q.sqHead)
    let s2 := s1.flightEnd n (s1.qp n).flight.length
    s2.sqSend n (s2.qp n).wqes.length

/-- Every requester QP goes on as far as it can, and then everything else. -/
def settleRdma (s : State) : State :=
  let s1 := s.settle
  ((s1.rdma.qps.map Prod.fst).foldl (fun s n => s.sqRun n) s1).settle

/-- Sends the unacknowledged requests again from the oldest (R310). -/
def resend (s : State) (n : Nat) : State := (s.qp n).flight.foldl (fun s f => if f.acked then s else s.wqeSend n f.wqe f.psn) s

/-- Rate of a MAC in 100 Mb/s units. -/
def macRate (s : State) (m : Nat) : Nat :=
  match (s.mac m).rate with
  | 1 => 1000
  | 2 => 2000
  | 3 => 4000
  | _ => 0

/-- The level bit QP_FULL (Table 12-13). -/
def judgeRdm (s : State) : State :=
  s.level Reg.RDM_CAUSE 0 8 200 256 (decide (65536 ≤ (s.rdma.qps.filter fun p => p.2.connected && !p.2.error).length))

end State

end Sys2Proof.Machine
end

