-- ==== Sys2Proof/Machine/Rdma.lean ====
section
/-! DEFINITION. The meanings of RDMA packets, requester events, connection management and Ethernet events (chapter 12). -/

namespace Sys2Proof.Machine

/-! ### Responder -/

/-- RDMA_WRITE (R298, R305, R312): one packet of a WRITE. -/
def execRdmaWrite (n : Fin 65536) (k : WritePkt) (s : State) : Res := .next (s.writePacket n k none)

/-- RDMA_WRITE_IMM (R308): one packet of a WRITE with immediate data, which its last packet carries. -/
def execRdmaWriteImm (n : Fin 65536) (k : WritePkt) (imm : Word) (s : State) : Res := .next (s.writePacket n k (some imm))

namespace State

/-- A READ in its turn: 16 outstanding at most (Table 12-4), 2 GiB (Table 12-3), the window, and then the queue (R299). -/
def readTurn (s : State) (n : Nat) (psn : BitVec 24) (key : Word) (va len : Nat) : State :=
  let q := s.qp n
  if 16 ≤ outstanding q then s.qpFatal n psn 1 .access 0
  else if 2 ^ 31 < len then s.nak n psn 1
  else match s.windowCheck q.pd key va len 0 with
    | none => if s.domainReady then s.qpFatal n psn 2 .access 0 else s.qpFatal n psn 3 .notReady 0
    | some (r, off) =>
      if r ≠ stagingRegion ∧ !s.domainReady then s.qpFatal n psn 3 .notReady r
      else (s.useWindow n key).enqueue n psn .read (.read psn r off len) (packetsOf q len)

/-- A duplicate READ is executed again (R311): one that still waits executes once, in its turn. -/
def readAgain (s : State) (n : Nat) (psn : BitVec 24) (key : Word) (va len : Nat) (r : Option Remembered) : State :=
  match r with
  | none => s.emit (.rdmaAck n psn (s.qp n).msn)
  | some x =>
    if !x.done then s
    else match s.windowCheck (s.qp n).pd key va len 0 with
      | none => s.qpFatal n psn 2 .access 0
      | some (g, off) =>
        if g ≠ stagingRegion ∧ !s.domainReady then s.qpFatal n psn 3 .notReady g
        else if g ≠ stagingRegion ∧ !s.regionOpen g then s.qpFatal n psn 3 .notHere g
        else s.readStart n psn g off len

/-- An atomic in its turn (R300, Table 12-4). -/
def atomicTurn (s : State) (n : Nat) (psn : BitVec 24) (key : Word) (va : Nat) (op : Nat → Atomic) : State :=
  let q := s.qp n
  if 16 ≤ outstanding q then s.qpFatal n psn 1 .access 0
  else if va % 8 ≠ 0 then s.qpFatal n psn 2 .access 0
  else match s.windowCheck q.pd key va 8 2 with
    | none => s.qpFatal n psn 2 .access 0
    | some (r, off) =>
      match if r = stagingRegion then some 0 else s.resolve r off with
      | none => s.qpFatal n psn 2 .access r
      | some x =>
        let w : HostWrite := {
          who := .rdma n psn, region := r, rline := off / 256, line := x, mask := (BitVec.ofNat 256 255) <<< (off % 256), data := 0
          atomic := some (op (off % 256)) }
        match s.fate w with
        | .refuse why => s.refuseHost w why
        | .hold => s.rnrNak n psn
        | .go => (s.useWindow n key).enqueue n psn .atomic (.atomic psn r off (op (off % 256))) 1

/-- A duplicate atomic is answered from the result cache (R311); one that comes before the result waits for it. -/
def atomicAgain (s : State) (n : Nat) (psn : BitVec 24) (r : Option Remembered) : State :=
  match r with
  | none => s.emit (.rdmaAck n psn (s.qp n).msn)
  | some x => if x.done then s.emit (.rdmaAtomic n psn (s.cached n psn)) else s

end State

/-- RDMA_READ (R299). -/
def execRdmaRead (n : Fin 65536) (psn : BitVec 24) (key : Word) (va len : Nat) (ce icrc : Bool) (s : State) : Res :=
  .next (s.request n psn ce icrc (fun s => s.readTurn n psn key va len) fun s r => s.readAgain n psn key va len r)

/-- RDMA_CMPSWAP (R300). -/
def execRdmaCmpswap (n : Fin 65536) (psn : BitVec 24) (key : Word) (va : Nat) (compare swap : BitVec 64) (ce icrc : Bool) (s : State) : Res :=
  .next (s.request n psn ce icrc (fun s => s.atomicTurn n psn key va fun o => .cmpSwap o compare swap) fun s r => s.atomicAgain n psn r)

/-- RDMA_FETCHADD (R300). -/
def execRdmaFetchadd (n : Fin 65536) (psn : BitVec 24) (key : Word) (va : Nat) (add : BitVec 64) (ce icrc : Bool) (s : State) : Res :=
  .next (s.request n psn ce icrc (fun s => s.atomicTurn n psn key va fun o => .fetchAdd o add) fun s r => s.atomicAgain n psn r)

/-- RDMA_ATOMIC_WRITE (R300): an 8 B write inside one chunk, ordered and forwarded like any write. -/
def execRdmaAtomicWrite (n : Fin 65536) (psn : BitVec 24) (key : Word) (va : Nat) (d : BitVec 64) (ce icrc : Bool) (s : State) : Res :=
  .next (s.request n psn ce icrc
    (fun s =>
      if va % 8 ≠ 0 then s.qpFatal n psn 2 .access 0
      else s.writeNext n {
        psn := psn, pos := .only, key := key, va := va, len := 8
        data := (List.range 8).map fun i => (d >>> (8 * i)).setWidth 8 } none)
    fun s r => match r with
      | some x => if x.done then s.emit (.rdmaAck n psn (s.qp n).msn) else s
      | none => s.emit (.rdmaAck n psn (s.qp n).msn))

/-- RDMA_FLUSH (R298): answered once every earlier request of the QP is durable. -/
def execRdmaFlush (n : Fin 65536) (psn : BitVec 24) (key : Word) (va len : Nat) (ce icrc : Bool) (s : State) : Res :=
  .next (s.request n psn ce icrc
    (fun s => match s.windowCheck (s.qp n).pd key va len 3 with
      | none => s.qpFatal n psn 2 .access 0
      | some _ => (s.useWindow n key).enqueue n psn .flush (.flush psn) 1)
    fun s r => match r with
      | some x => if x.done then s.emit (.rdmaAck n psn (s.qp n).msn) else s
      | none => s.emit (.rdmaAck n psn (s.qp n).msn))

/-- RDMA_UNSUPPORTED_PACKET (R297): a packet of another transport or opcode: NAK Invalid Request on a connected QP, else dropped. -/
def execRdmaUnsupportedPacket (m : Fin 32) (n : Option (Fin 65536)) (psn : BitVec 24) (s : State) : Res :=
  if !s.ingressOpen || !s.bit Reg.RDM_CTRL 0 0 then .next s
  else match n with
    | none => .next (s.macDrop m)
    | some n => if !s.macTakes m || !(s.qp n).connected || (s.qp n).error then .next (s.macDrop m) else .next (s.nak n psn 1)

/-- SPRAY_HOLE_TIMEOUT (R314): the selective NAK names the first missing PSN and up to 8 ranges. -/
def execSprayHoleTimeout (n : Fin 65536) (s : State) : Res :=
  let q := s.qp n
  if !s.ingressOpen || !q.connected || q.error || !q.spray || !q.hole then .next s
  else
    let rs := (State.missingRanges q.placed 1024 q.epsn []).take 8
    .next (((s.bump Reg.RDM_NAK_CNT 0 31 16).cause Reg.RDM_CAUSE 0 3 195).emit (.rdmaSack n q.epsn (sackHeader rs.length) (rs.map sackRange)))

/-! ### Requester -/

namespace State

/-- The request at PSN `psn` and those before it have been carried out by the peer (R309): a READ still needs its data. -/
def acked_ (q : Qp) (psn : BitVec 24) : Qp :=
  { q with
    retries := 0
    flight := q.flight.map fun f =>
      if (psn - f.last).toNat < 2 ^ 23 ∧ f.wqe.opcode ≠ 2 then { f with acked := true } else f }

/-- A request of a data QP is refused by the peer (R310): requests before it stand, RNR and a sequence error repeat from it, the others
end the queue. -/
def peerNak (s : State) (n : Nat) (psn : BitVec 24) (code : Fin 5) : State :=
  let s0 := s.setQp n (acked_ (s.qp n) (psn - 1))
  let s1 := s0.flightEnd n (s0.qp n).flight.length
  if code = 0 ∨ code = 4 then s1.resend n
  else if (s1.qp n).flight.isEmpty then s1
  else s1.sqFail n (if code = 2 then 1 else 2)

end State

/-- RDMA_PEER_NAK (R303, R310): an RNR NAK of a management SEND waits for its 10 ms; a NAK ends the management QP. -/
def execRdmaPeerNak (n : Fin 65536) (psn : BitVec 24) (code : Fin 5) (s : State) : Res :=
  let q := s.qp n
  if !s.ingressOpen || !q.connected || q.error then .next s
  else match q.mgmt with
    | some _ =>
      if code = 4 then .next (s.setQp n { q with peerRnr := true })
      else if code = 0 then .next s
      else .next ((s.setQp n { q with error := true }).cause Reg.RDM_CAUSE 0 0 192)
    | none => .next (s.peerNak n psn code).settleRdma

/-- RDMA_READ_RESPONSE (R309): data of a READ from offset `off` of it is written into the local window as device writes; `last` is its last
packet. -/
def execRdmaReadResponse (n : Fin 65536) (psn : BitVec 24) (off : Nat) (data : List Byte) (last : Bool) (s : State) : Res :=
  let q := s.qp n
  if !s.ingressOpen || !q.connected || q.error then .next s
  else match q.flight.find? fun f => f.psn == psn && f.wqe.opcode == 2 with
    | none => .next s
    | some f =>
      match s.windowCheck q.pd f.wqe.localKey (f.wqe.localVa + off) data.length 4 with
      | none => .next (s.sqFail n 4).settleRdma
      | some (r, o) =>
        let ws := s.pieces (.landing n psn) (.qp n) r o data
        let s1 := s.setQp n { q with
          retries := 0
          flight := q.flight.map fun x => if x.psn == psn then { x with left := x.left + ws.length, acked := x.acked || last } else x }
        .next (ws.foldl (fun s w => s.submit w) s1).settleRdma

/-- REQUESTER_ACK_TIMEOUT (R310): 7 retries, then RETRY_EXCEEDED and FLUSHED. -/
def execRequesterAckTimeout (n : Fin 65536) (s : State) : Res :=
  let q := s.qp n
  if !s.ingressOpen || !q.connected || q.error then .next s
  else match q.mgmt with
    | some c =>
      match (s.chan c).waiting.head? with
      | none => .next s
      | some w =>
        if q.retries < 7 then .next ((s.setQp n { q with retries := q.retries + 1 }).emit (.send n w))
        else .next ((s.setQp n { q with error := true }).cause Reg.RDM_CAUSE 0 0 192)
    | none =>
      if q.flight.all fun f => f.acked then .next s
      else if q.retries < 7 then .next ((s.setQp n { q with retries := q.retries + 1 }).resend n)
      else .next (s.sqFail n 3).settleRdma

/-- MGMT_RNR_RETRY (R303): a SEND that met RNR NAK leaves again. -/
def execMgmtRnrRetry (n : Fin 65536) (s : State) : Res :=
  let q := s.qp n
  match q.mgmt with
  | some c =>
    if s.ingressOpen && q.connected && !q.error && q.peerRnr then
      match (s.chan c).waiting.head? with
      | none => .next (s.setQp n { q with peerRnr := false })
      | some w => .next ((s.setQp n { q with peerRnr := false }).emit (.send n w))
    else .next s
  | none => .next s

/-! ### Congestion control (R316) -/

/-- CNP_RECEIVED: the rate falls, at most once per DEC_HOLD_US. -/
def execCnpReceived (n : Fin 65536) (s : State) : Res :=
  let q := s.qp n
  if !s.ingressOpen || !q.connected then .next s
  else
    let s1 := s.bump Reg.RDM_CNP_CNT 0 31 16
    if !s.bit Reg.RDM_CTRL 0 3 then .next s1
    else
      let due := match q.decAt with
        | none => true
        | some t => decide (s.fld Reg.RDM_CC_DEC 0 15 8 ≤ s.usSince t)
      let q1 := { q with k := 1 }
      .next (s1.setQp n (if due then
        { q1 with rate := max (s.fld Reg.RDM_CC_INC 0 23 16) (q.rate * (256 - s.fld Reg.RDM_CC_DEC 0 7 0) / 256), decAt := some s.tally.now }
        else q1))

/-- CC_RATE_INCREASE_TIMER: a period without a CNP raises the rate by k steps, up to the MAC's. -/
def execCcRateIncreaseTimer (n : Fin 65536) (s : State) : Res :=
  let q := s.qp n
  if !s.psq.mainUp || !q.connected || !s.bit Reg.RDM_CTRL 0 3 then .next s
  else .next (s.setQp n { q with
    rate := max q.rate (min (s.macRate q.mac) (q.rate + q.k * s.fld Reg.RDM_CC_INC 0 15 8)), k := min 8 (q.k + 1) })

/-! ### Connections (R302) and what Mingaso answers on a MAC -/

namespace State

/-- A REQ is refused (R302). -/
def cmRefuse (s : State) (r : DreqReason) : State := (s.cause Reg.RDM_CAUSE 0 6 198).emit (.cmRej r.code 0)

/-- The QP a REQ gets: the first never used or, after those, the first in error. -/
def freeQp (s : State) : Option (Fin 65536) :=
  let k := ((List.range (s.rdma.qps.length + 1)).find? fun n => !(s.qp n).connected).getD 65536
  if h : k < 65536 then some ⟨k, h⟩
  else match (s.rdma.qps.find? fun p => p.2.error).map Prod.fst with
    | some j => if h : j < 65536 then some ⟨j, h⟩ else none
    | none => none

/-- Mingaso answers a REQ (R302, R303, Table 12-5). -/
def cmAnswer (s : State) (r : CmReq) : State :=
  let c := r.pdOrChan.toNat
  if !s.domainReady then s.cmRefuse .notReady
  else
    let data := r.service == 0 && decide (c < 4096) && (Tab.get none s.rdma.pds c).any fun p => p.token == r.token
    let mgmt := r.service == 1 && decide (8 ≤ c ∧ c < 64) && (s.chan c).who == .rdma && (s.chan c).token == r.token
    if r.format != 1 || !(data || mgmt) then s.cmRefuse .badToken
    else if r.service = 1 ∧ (s.rdma.qps.any fun p => p.2.connected && !p.2.error && p.2.mgmt == some (Fin.ofNat 64 c)) then
      s.cmRefuse .noResource
    else match s.freeQp with
      | none => s.cmRefuse .noResource
      | some n =>
        let spray := r.service = 0 ∧ r.placement = 1 ∧ s.bit Reg.RDM_CTRL 0 1
        let s1 := (s.setQp n {
          connected := true, mgmt := if r.service = 1 then some (Fin.ofNat 64 c) else none, spray := decide spray, depth := r.depth.toNat
          pd := if r.service = 1 then 0 else c, mac := r.mac, gid := r.gid, pmtu := 1024 * 2 ^ r.pmtu.val, epsn := r.psn
          rate := s.macRate r.mac, txPsn := (Config.undefinedWord s.fresh).setWidth 24 }).draw
        ((s1.contextIn n).emit (.cmRep n (decide spray))).judgeRdm

/-- A GID of a MAC that is IPv4-mapped (`v4`) or not. -/
def gidIs (s : State) (m : Nat) (g : Nat) (v4 : Bool) : Bool :=
  match Tab.get none (s.mac m).gids g with
  | some (x, _) => ((x >>> 32) == 0xFFFF#128) == v4
  | none => false

/-- What Mingaso does with a frame for it (R295, R318). -/
def macAnswer (s : State) : MacAsk → State
  | .cm r => s.cmAnswer r
  | .arp m g => if s.gidIs m g true then s.emit (.macFrame m 0 g) else s.macDrop m
  | .nd m g => if s.gidIs m g false then s.emit (.macFrame m 1 g) else s.macDrop m
  | .icmp m g => if s.gidIs m g true || s.gidIs m g false then s.emit (.macFrame m 2 g) else s.macDrop m
  | .mka m sc an sa =>
    if s.bit Reg.ETH_MACSEC_CTRL 0 (m / 4) && (Tab.get none s.rdma.caks (m / 4 * 64 + sc)).isSome then
      ((s.setMac m ((s.mac m).putSa sc an sa)).emit (.macFrame m 3 sc)).judgeMac m
    else s

/-- The MAC that something for Mingaso came by. -/
def askMac : MacAsk → Fin 32
  | .cm r => r.mac
  | .arp m _ => m
  | .nd m _ => m
  | .icmp m _ => m
  | .mka m _ _ _ => m

/-- A frame for Mingaso arrives: answered, or kept while the control cores restart (R320). MKA passes where protection is required. -/
def macAsk (s : State) (a : MacAsk) : State :=
  let m := askMac a
  let mka := match a with
    | .mka _ _ _ _ => true
    | _ => false
  if !s.ingressOpen || !s.macThere m || !s.eportOn (m / 4) || !(s.mac m).up then s
  else if !mka && !s.macTakes m then s.macDrop m
  else if s.flash.cores == .running then (s.wakeIdle).macAnswer a
  else if s.flash.cores == .restarting then { s with rdma := { s.rdma with asks := s.rdma.asks ++ [a] } }
  else s

/-- Mingaso has started again: it answers what waited (R320). -/
def macResume (s : State) : State :=
  s.rdma.asks.foldl (fun s a => s.macAnswer a) { s with rdma := { s.rdma with asks := [] } }

end State

/-- CM_REQ (R302). -/
def execCmReq (r : CmReq) (s : State) : Res := if s.bit Reg.RDM_CTRL 0 0 then .next (s.macAsk (.cm r)) else .next s

/-- ARP_REQUEST (R295). -/
def execArpRequest (m : Fin 32) (g : Fin 16) (s : State) : Res := .next (s.macAsk (.arp m g))

/-- NEIGHBOR_DISCOVERY (R295). -/
def execNeighborDiscovery (m : Fin 32) (g : Fin 16) (s : State) : Res := .next (s.macAsk (.nd m g))

/-- ICMP_ECHO (R295). -/
def execIcmpEcho (m : Fin 32) (g : Fin 16) (s : State) : Res := .next (s.macAsk (.icmp m g))

/-- MKA_FRAME (R318): `sa` is what the key agreement leaves of SA `an` of a secure channel: installed, or not. -/
def execMkaFrame (m : Fin 32) (sc : Fin 64) (an : Fin 2) (sa : Bool) (s : State) : Res := .next (s.macAsk (.mka m sc an sa))

/-! ### Ethernet events -/

/-- PFC_FRAME (R317): the link partner pauses or resumes a priority; only ETH_PFC.PRIO is obeyed. -/
def execPfcFrame (p : Fin 8) (prio : Fin 8) (pause : Bool) (s : State) : Res :=
  if s.eportOn p && s.bit Reg.ETH_PFC 0 p && s.fld Reg.ETH_PFC 0 10 8 == prio.val then .next (s.setEport p { s.eport p with paused := pause }) else .next s

/-- PFC_BUFFER_LEVEL (R317): the receive buffer of a port has `free` KiB free. -/
def execPfcBufferLevel (p : Fin 8) (free : Fin 4097) (s : State) : Res :=
  if !s.eportOn p then .next s
  else
    let v := { s.eport p with free := free.val }
    let h := s.fld Reg.ETH_PFC 0 31 16
    let s1 := s.setEport p v
    if s.bit Reg.ETH_PFC 0 p && !v.sending && decide (free.val < h) then .next ((s1.setEport p { v with sending := true }).emit (.pfc p true))
    else if v.sending && decide (2 * h < free.val) then .next ((s1.setEport p { v with sending := false }).emit (.pfc p false))
    else .next s1

/-- PFC_STORM (R317): a pause has been held on the MAC's port for more than 100 ms. -/
def execPfcStorm (m : Fin 32) (s : State) : Res :=
  let v := s.eport (m / 4)
  if s.eportOn (m / 4) && s.macThere m && (v.paused || v.sending) then .next (s.cause Reg.ETH_MAC_CAUSE m 10 (160 + m)) else .next s

/-- ICV_FAIL (R318). -/
def execIcvFail (m : Fin 32) (s : State) : Res :=
  if s.macThere m && s.eportOn (m / 4) && (s.mac m).up && s.bit Reg.ETH_MACSEC_CTRL 0 (m / 4) then
    .next ((s.cause Reg.ETH_MAC_CAUSE m 8 (160 + m)).macDrop m)
  else .next s

/-- MAC_LINK_CHANGE (R294, R320): the link of a MAC comes up at the rate of its port's mode, or goes down; QPs bound to it keep their state. -/
def execMacLinkChange (m : Fin 32) (up : Bool) (s : State) : Res :=
  if !s.psq.mainUp || !s.macThere m || !s.eportOn (m / 4) then .next s
  else
    let rate := match (s.eport (m / 4)).mode with
      | 0 => 3
      | 1 => 2
      | _ => 1
    .next ((s.setMac m { s.mac m with up := up, rate := if up then rate else 0 }).judgeMac m)

end Sys2Proof.Machine
end

