-- ==== Sys2Proof/Machine/Teasel.lean ====
section
/-! DEFINITION. Teasel's blanking and passes (R159, R160, R162) and Eyebright's comparisons, calibrations and sweeps (R58 to R60, R95 to R98, R108
to R112). -/

namespace Sys2Proof.Machine

namespace State

/-! ### Blanking (R159) -/

/-- The free slot of the lowest WEAR in a zone that is neither blank nor being blanked. -/
def dirtyFree (s : State) (d z : Nat) : Option (Phys × BitVec 16) :=
  let v := s.zone d z
  let cap := slotCap v.mode
  let busy := s.med.blanks.filterMap fun b => if b.slot.die == d && b.slot.zone == z then some b.slot.slot else none
  let listed := v.slots.map Prod.fst
  let gap := firstGap ((busy.filter fun k => !listed.contains k).foldr insertNat listed) 0
  let cands := (v.slots.filterMap fun p =>
      if p.2.alloc || p.2.spoil || p.2.blank || decide (cap ≤ p.1) || busy.contains p.1 then none else some (p.1, p.2.wear)) ++
    (if !v.blank && decide (gap < cap) then [(gap, 0#16)] else [])
  (cands.foldl (fun (b : Option (Nat × BitVec 16)) c => match b with
    | none => some c
    | some x => if c.2 < x.2 ∨ (c.2 = x.2 ∧ c.1 < x.1) then some c else b) none).map fun c => ({ die := d, zone := z, slot := c.1 }, c.2)

/-- Starts blanking one slot of a mode on a die: a blank frame to each of its lines (R159). -/
def blankOne (s : State) (d : Nat) (m : Mode) : State :=
  let cands := (s.modeZones d m).filterMap fun z => s.dirtyFree d z
  match cands.foldl (fun (b : Option (Phys × BitVec 16)) c => match b with
      | none => some c
      | some x => if c.2 < x.2 then some c else b) none with
  | none => s
  | some (p, _) =>
    let s1 := s.setMed { s.med with blanks := s.med.blanks ++ [{ slot := p, mode := m }] }
    (List.range 256).foldl (fun s l => s.issue d {
      op := .program, die := 0, zone := p.zone, slot := p.slot, line := l, mode := m, user := .blanking, frame := some { of := .blank } }) s1

/-! ### Passes (R160, R162) -/

/-- Starts the pass of an in-service group whose pass is not running (R170). -/
def passNow (s : State) (g : Nat) : State :=
  if (s.qg g).inService && !(s.pass g).running && s.bit Reg.TSL_CTRL 0 0 then s.startPass g else s

/-- A pass has visited everything and judged it. -/
def passEnded (s : State) (g : Nat) : Bool :=
  let v := s.pass g
  v.running && v.order.isEmpty && v.again.isEmpty && !s.judging g

/-- Ends a pass (R162). -/
def endPass (s : State) (g : Nat) : State :=
  ((((s.setPass g { s.pass g with running := false, late := false, lastDone := BitVec.ofNat 20 s.nowEpoch }).journal (.pass g)).cause
    Reg.TSL_CAUSE 0 8 153).judgeTsl)

/-! ### Age scales (R58 to R60, R95, R96) -/

/-- The outcome of a comparison for one die at the stamp `now` (R58, R59, R95): the ratio s_d, its scale with 12 fraction bits, whether it lies within
0.25 to 8, and the entry's A where the scale is applied and where the sentinel age is. -/
structure Ratio where
  ratio : Rat
  scale : BitVec 16
  good : Bool
  applied : Int
  sentinel : Int
  small : Bool

/-- Compares (R58, R59, R95). -/
def ratioOf (c : Compare) (now : Nat) : Ratio :=
  let e := now - c.powered
  let num : Int := (c.age : Int) - ((c.powered : Int) - c.anchor)
  { ratio := (num : Rat) / e, scale := BitVec.ofNat 16 (min 0xFFFF ((num * 4096).toNat / max 1 e))
    good := decide ((e : Int) ≤ 4 * num ∧ num ≤ 8 * e), applied := c.base + (num - e)
    sentinel := c.base + ((c.age : Int) - ((now : Int) - c.anchor)), small := decide (64 * (num - e).natAbs ≤ e) }

/-- Inserts by rising value. -/
def insertRat (x : Rat) : List Rat → List Rat
  | [] => [x]
  | y :: t => if x ≤ y then x :: y :: t else y :: insertRat x t

/-- The median of a list of ratios, none where it is empty; of an even number, the mean of the middle two. -/
def medianRat (l : List Rat) : Option Rat :=
  let sorted := l.foldr insertRat []
  let n := sorted.length
  if n = 0 then none else some ((sorted.getD ((n - 1) / 2) 0 + sorted.getD (n / 2) 0) / 2)

/-- Every die of a group that is populated and in service. -/
def groupDies (s : State) (g : Nat) : List Nat := s.diesUp.filter fun d => dieGroup d == g

/-- A die goes on its sentinel age (R59, R60, R95). -/
def useSentinel (s : State) (d : Nat) (c : Compare) (r : Ratio) (sweep : Bool) : State :=
  let s1 := s.logAppend d r.sentinel
  let s2 := (s1.setDie d { s1.die d with sentinel := true, scale := r.scale, outOfRange := c.scaled && !r.good, cmp := some c }).journal (.ageLog d)
  if sweep then s2.startSweep d else s2

/-- A die takes its age scale (R59, R95). -/
def useScale (s : State) (d : Nat) (c : Compare) (r : Ratio) : State :=
  let s1 := if r.small then s else (s.logAppend d r.applied).journal (.ageLog d)
  s1.setDie d { s1.die d with sentinel := false, scale := r.scale, outOfRange := false, cmp := some c }

/-- The entries a die's log holds since a comparison are replaced by its sentinel age, where S_NOW has moved by `delta` seconds since the state of
before (R95, R96): stamps of before the power-up take the age that the anchor shows, and later ones keep theirs. -/
def relog (s : State) (d : Nat) (c : Compare) (delta : Int) (a : Int) : List AgeEntry :=
  let kept := (s.die d).log.take c.mark
  if delta = 0 then logPut kept [{ t := c.at_, a := a }]
  else logPut kept [{ t := c.at_, a := a + delta }, { t := s.nowSecs, a := a }]

/-- A die that was compared goes on its sentinel age, as S_NOW moves by `delta` seconds (R49, R59, R60): every stamp made since keeps its age. A die
that has not been compared keeps all its ages. -/
def toSentinel (s : State) (d : Nat) (delta : Int) : State :=
  let v := s.die d
  match v.cmp with
  | none =>
    let s1 := if delta = 0 then s else (s.logAppend d (aNow v.log - delta)).journal (.ageLog d)
    s1.setDie d { s1.die d with sentinel := true }
  | some c =>
    let at1 := ((c.at_ : Int) + delta).toNat
    let log := s.relog d c delta (ratioOf c at1).sentinel
    ((s.setDie d { v with sentinel := true, cmp := some { c with at_ := at1 } }).setLog d log).journal (.ageLog d)

/-- The dies that are populated and not failed. -/
def populated (s : State) : List Nat := s.dieIds.filter fun d => (s.die d).used && !(s.die d).failed

/-- s_d of every populated die that has one since its group came up (R59). -/
def ratios (s : State) (skip : List Nat) : List Rat :=
  (s.populated.filter fun d => !skip.contains d).filterMap fun d =>
    match (s.die d).cmp with
    | some c => if c.scaled then some (ratioOf c c.at_).ratio else none
    | none => none

/-- STARTED was set by the 10 s limit, and no source or jump has come since (R60). -/
def noSource (s : State) : Bool := s.tally.started && !s.tally.setSinceVaon && !s.tally.jumpPending

/-- A power-up comparison of a group (R58 to R60), with the levels that Eyebright measured of each die's rungs and anchors, by die. A die whose anchor
gave no level keeps its previous age scale, as a die does whose interval is too short for a comparison (R58). -/
def powerupCompare (s : State) (g : Nat) (levels : Tab (List Sample)) : State :=
  let st := Tab.get ({} : GroupStamp) s.tally.stamps g
  let now := s.nowSecs
  let long := decide (3600 ≤ now - st.powered.toNat)
  let s0 := (s.groupDies g).foldl (fun s d => s.setDie d { s.die d with calDue := true }) (s.setMed { s.med with eyb := .idle })
  let rs := (s.groupDies g).filterMap fun d => (s.anchorAge d st (Tab.get [] levels d)).map fun a =>
    let c : Compare := { age := a, scaled := long, anchor := st.anchor.toNat, powered := st.powered.toNat, at_ := now, base := aNow (s.die d).log
                         mark := (s.die d).log.length }
    (d, c, ratioOf c now)
  let seen := if long then rs.map fun p => p.2.2.ratio else []
  let wild := !seen.isEmpty && (medianRat (seen ++ s.ratios (rs.map Prod.fst))).any fun (m : Rat) => decide (m < 1 / 4 ∨ 8 < m)
  let s1 := if wild then (s0.setTally { s0.tally with disagree := true, trust := .untrusted }).pulse 159 else s0
  let s2 := rs.foldl (fun (s : State) (p : Nat × Compare × Ratio) =>
    let (d, c, r) := p
    if s1.noSource then s.useSentinel d c r true
    else if !long then s.setDie d { s.die d with cmp := some c }
    else if s1.tally.disagree || s1.tally.jumpPending || !r.good then s.useSentinel d c r !r.good
    else s.useScale d c r) s1
  let others := if wild then s2.populated.filter fun d => !(s2.die d).sentinel else []
  let s3 := others.foldl (fun (s : State) d => s.toSentinel d 0) s2
  ((s.groupDies g).foldl (fun s d => s.foldLog d) s3).judgeEyb

/-- A die repeats its comparison after a step of `delta` seconds (R96): stamps made before the power-up take the ages of the new comparison, and
later ones keep theirs. A die whose interval gave no ratio takes its sentinel age off, and every stamp keeps its age. -/
def recompare (s : State) (d : Nat) (delta : Int) : State :=
  let v := s.die d
  match v.cmp with
  | none =>
    let s1 := if delta = 0 then s else (s.logAppend d (aNow v.log - delta)).journal (.ageLog d)
    s1.setDie d { s1.die d with sentinel := false }
  | some c =>
    let at1 := ((c.at_ : Int) + delta).toNat
    let r := ratioOf c at1
    let long := decide (3600 ≤ at1 - c.powered)
    let c1 : Compare := { c with at_ := at1, scaled := long }
    let a := if !long then c.base else if r.good then (if r.small then c.base else r.applied) else r.sentinel
    let out := long && !r.good
    (((s.setDie d { v with sentinel := out, outOfRange := out, scale := if long then r.scale else v.scale, cmp := some c1 }).setLog d
      (s.relog d c delta a)).journal (.ageLog d)).judgeEyb

/-- The ages follow what a command has done to the Tally (R49, R59, R96). A jump that is now pending puts every die on its sentinel age. The dies on
sentinel age repeat their comparison where a jump is confirmed, DISAGREE cleared or TLY_NOW stepped. `old` is the state before the command. -/
def ageFollow (s old : State) : State :=
  let delta : Int := (s.sNow.toNat : Int) - old.sNow.toNat
  let held := s.tally.jumpPending && (!old.tally.jumpPending || decide (delta ≠ 0))
  let confirmed := old.tally.jumpPending && !s.tally.jumpPending
  let cleared := old.tally.disagree && !s.tally.disagree
  let stepped := decide (old.tally.now ≠ s.tally.now) && !s.tally.jumpPending
  if !s.psq.mainUp then s
  else if held then (s.dieIds.foldl (fun s d => s.toSentinel d delta) s).judgeEyb
  else if s.tally.disagree || s.tally.jumpPending || !(confirmed || cleared || stepped) then s
  else ((s.dieIds.filter fun d => (s.die d).sentinel).foldl (fun s d => s.recompare d delta) s).judgeEyb

/-! ### Calibration (R98, R108 to R110) -/

/-- A calibration of a die ends (R109, R110): a fit has its sets loaded; a failed one keeps the last good fit, and Teasel takes the die first. -/
def calibrated (s : State) (d : Nat) (ss : List Sample) : State :=
  let v := s.die d
  let s1 := match s.calFit d ss with
    | some fs => (s.setDie d { v with
        fits := fitsPut v.fits fs, fitted := true, fitOk := true, calEpoch := BitVec.ofNat 20 s.nowEpoch, calDue := false })
    | none => s.setDie d { v with fitOk := false, first := true, calDue := false }
  ((s1.vaultPut 2 (.calib d s1.nowEpoch)).loadSets d).judgeEyb

/-- The anchors of a group are rewritten (R58, R108): its anchor stamp is S_NOW. -/
def rewriteAnchors (s : State) (g : Nat) : State :=
  let s1 := (s.groupDies g).foldl (fun s d =>
    s.setDie d ((s.modesInUse d).foldl (fun (v : Die) m => putSentinel v m 8 false s.nowSecs) (s.die d))) s
  let st := { Tab.get ({} : GroupStamp) s1.tally.stamps g with anchor := s1.sNow }
  (s1.setTally { s1.tally with stamps := Tab.put {} s1.tally.stamps g st }).nvWrite (Config.nvStamp g) [st.anchor.toNat, st.powered.toNat]

/-- The powered stamp of a group is written (R58). -/
def stampPowered (s : State) (g : Nat) : State :=
  let st := { Tab.get ({} : GroupStamp) s.tally.stamps g with powered := s.sNow }
  (s.setTally { s.tally with stamps := Tab.put {} s.tally.stamps g st }).nvWrite (Config.nvStamp g) [st.anchor.toNat, st.powered.toNat]

end State

/-- TEASEL_BLANKING (R159): one slot for each mode of which the die is short of blank slots. -/
def execTeaselBlanking (d : Fin 2304) (s : State) : Res :=
  .next (if s.medUp && s.bit Reg.TSL_CTRL 0 0 && s.dieUp d then
    (((s.openModes d).foldl (fun s m => if s.blankShort d m then s.blankOne d m else s) s).judgeBlank).judgeTsl else s)

/-- TEASEL_PASS_COMPLETE (R162). -/
def execTeaselPassComplete (g : Fin 9) (s : State) : Res :=
  .next (if s.medUp && s.passEnded g then s.endPass g else s)

/-- TSL_PASS_NOW (R170): a write of TSL_CTRL.PASS_NOW. -/
def execTslPassNow (s : State) : Res :=
  .next (if s.psq.mainUp then ((List.range 9).foldl (fun s g => s.passNow g) s).settleMed else s)

/-- EYEBRIGHT_POWERUP_COMPARE (R58 to R60, R95): Eyebright has measured the rungs and anchors of a group's dies, by die index, after the group came up.
The comparison runs where the group's rails were down; after a warm reset the dies are only calibrated (R58). -/
def execEyebrightPowerupCompare (g : Fin 9) (levels : List (Nat × List Sample)) (s : State) : Res :=
  let v := s.qg g
  .next (if !s.medUp || !v.railsUp then s
    else if v.compare then ((s.setQg g { v with compare := false }).powerupCompare g levels).settleMed
    else (s.groupDies g).foldl (fun s d => s.setDie d { s.die d with calDue := true }) (s.setMed { s.med with eyb := .idle }))

/-- EYEBRIGHT_CALIBRATION (R109, R110): Eyebright has measured the rungs of a die, `ss`. -/
def execEyebrightCalibration (d : Fin 2304) (ss : List Sample) (s : State) : Res :=
  .next (if s.medUp && s.dieUp d then s.calibrated d ss else s)

/-- EYB_SWEEP (R120): a write of EYB_CTRL.SWEEP, for the die in EYB_DIE_SEL. -/
def execEybSweep (s : State) : Res :=
  let d := s.fld Reg.EYB_DIE_SEL 0 11 0
  .next (if s.psq.mainUp && decide (d ≤ 2303) then s.startSweep d else s)

/-- FULL_SWEEP_DONE (R111): every rung and anchor of the die has been measured again, `ss`, and its fit and sets follow. -/
def execFullSweepDone (d : Fin 2304) (ss : List Sample) (s : State) : Res :=
  .next (if s.medUp && (s.die d).sweep then ((s.setDie d { s.die d with sweep := false }).calibrated d ss).tryOpen.settleMed else s)

end Sys2Proof.Machine
end

