-- ==== Sys2Proof/Machine/Twin.lean ====
section
/-! DEFINITION. The meanings of what happens on the Tandem link (chapter 9): frames, flits, retrains and timers. -/

namespace Sys2Proof.Machine

/-- Acts on an accepted frame while PAIRED. -/
def onFrame (s : State) (p : Bool) (f : TFrame) (k : State → State) : Res :=
  match s.acceptFrame p f with
  | (s1, true) => if s1.paired then .next (k s1) else .next s1
  | (s1, false) => .next s1

/-- Acts on an accepted frame while PAIRED or ATTESTING. -/
def onAnyFrame (s : State) (p : Bool) (f : TFrame) (k : State → State) : Res :=
  match s.acceptFrame p f with
  | (s1, true) => .next (k s1)
  | (s1, false) => .next s1

/-! ### Writes -/

/-- One MIRROR entry (R213, R208): one already applied is only acknowledged again, one in turn joins the order, an early one waits. -/
def mirrorTake (s : State) (e : WEntry) : State :=
  let r := e.region
  let next := s.nextRos r
  let o : Ordered := { w := s.entryWrite e, ros := e.ros, mine := false, ftag := e.ftag }
  if e.ros ≤ (s.rt r).ros then s.tsend (r % 2 == 1) (.ack s.dirtyLines s.med.yarrow.cap [.mirrorDone r (s.rt r).ros])
  else if e.ros < next then s
  else if e.ros = next then s.setBench { s.bench with orders := s.bench.orders ++ [o] }
  else if s.bench.early.any fun q => q.ros == e.ros && q.w.region == r then s
  else s.setBench { s.bench with early := s.bench.early ++ [o] }

/-- TANDEM_MIRROR (R213, R214): its entries are applied in ROS order, and each is acknowledged with MIRROR_DONE once placed. -/
def execTandemMirror (p : Bool) (f : TFrame) (es : List WEntry) (s : State) : Res :=
  onFrame s p f fun s => ((es.foldl mirrorTake s).settleTwin.takeAttrs 16).resyncHeld.settleTwin

/-- One FORWARD entry (R215, R208): the home orders the write as its own; an FTAG already ordered in the session is not ordered again, and
its acknowledgement is sent again once it is durable. -/
def forwardTake (s : State) (e : WEntry) : State :=
  if s.bench.orders.any (fun o => o.mine && o.ftag == e.ftag) || s.bench.held.any (fun h => h.who == .twin e.ftag) then s
  else if !(s.rt e.region).home then s.tsend false (.ack s.dirtyLines s.med.yarrow.cap [.fwdRefused e.ftag 0x21])
  else s.submit { s.entryWrite e with who := .twin e.ftag }

/-- TANDEM_FORWARD (R215). -/
def execTandemForward (p : Bool) (f : TFrame) (es : List WEntry) (s : State) : Res :=
  onFrame s p f fun s => (es.foldl forwardTake s).settleTwin

/-- The twin's dirty level and capacity state, carried by every ACK and HEARTBEAT (R146, R185). -/
def peerLevels (s : State) (dirty : Nat) (c : Cap) : State :=
  let s1 := s.setTwin { s.twin with peerDirty := dirty, peerCap := c }
  ((s1.setYrw { s1.med.yarrow with twinCap := c }).judgeYrw).judgeRed

/-- The RESYNC entries that an ACK covers are no longer kept (R208). -/
def State.resyncCovered (s : State) (region ros : Nat) : State :=
  s.setTwin { s.twin with rsSent := s.twin.rsSent.filter fun e => e.1.region != region || decide (ros < e.1.ros) }

/-- MIRROR_DONE (R12): every entry of the region up to that ROS lies in the twin's persistence domain. -/
def execMirrorDone (p : Bool) (f : TFrame) (dirty : Nat) (c : Cap) (region : Fin 4096) (ros : Nat) (s : State) : Res :=
  onFrame s p f fun s =>
    let s0 := peerLevels s dirty c
    let s1 := if (s0.region region).opening && (s0.keySlot region).state != .empty then s0.setRegion region { s0.region region with opening := false } else s0
    (s1.setBench { s1.bench with orders := s1.bench.orders.map fun o =>
      if o.mine && o.w.region == region.val && decide (o.ros ≤ ros) then { o with mirrored := true } else o }).resyncCovered region ros |>.settleTwin

/-- FWD_DURABLE (R215): the host completions of `count` consecutive FTAGs are released, while the domain is OPEN (R17). -/
def execFwdDurable (p : Bool) (f : TFrame) (dirty : Nat) (c : Cap) (ftag : BitVec 16) (count : BitVec 8) (s : State) : Res :=
  onFrame s p f fun s =>
    let s1 := peerLevels s dirty c
    if s1.bench.domain != .opened then s1
    else
      let hit (x : Forwarded) : Bool := decide ((x.ftag - ftag).toNat < count.toNat)
      let mine := s1.bench.forwarded.filter hit
      let s2 := s1.setBench { s1.bench with forwarded := s1.bench.forwarded.filter fun x => !hit x }
      (mine.foldl (fun s x => s.ackHost x.w) s2).settleTwin

/-- FWD_REFUSED (R215): the host of the write gets the home's outcome. -/
def execFwdRefused (p : Bool) (f : TFrame) (dirty : Nat) (c : Cap) (ftag : BitVec 16) (status : BitVec 16) (s : State) : Res :=
  onFrame s p f fun s =>
    let s1 := peerLevels s dirty c
    match s1.bench.forwarded.find? fun x => x.ftag == ftag with
    | none => s1
    | some x =>
      let why : Refused := if status = 0x30#16 then .red else if status = 0x50#16 then .unavailable else .notHere
      ((s1.setBench { s1.bench with forwarded := s1.bench.forwarded.erase x }).refuseHost x.w why).settleTwin

/-! ### Lines asked for -/

/-- TANDEM_READ_ASSIST_REQUEST (R207): one reply entry per line in line order; NOT_HELD for a region fenced here or under resync here. -/
def execTandemReadAssistRequest (p : Bool) (f : TFrame) (rtag : Word) (region : Fin 4096) (line count : Nat) (s : State) : Res :=
  onFrame s p f fun s =>
    let v := s.rt region
    let n := min (max count 1) 256
    if s.twin.replies.any fun e => e.rtag == rtag then s
    else if v.fenced || v.target || !(s.region region).valid then
      (List.range n).foldl (fun s k => s.tsend false (.assistRep rtag region (line + k) (k + 1 == n) .notHeld)) s
    else
      let s1 := s.setTwin { s.twin with replies := s.twin.replies ++ (List.range n).map fun k =>
        { rtag := rtag, region := region.val, line := line + k, last := k + 1 == n } }
      ((List.range n).foldl (fun s k =>
        s.serveRead { who := .assist rtag (k + 1 == n), region := region, rline := (s.rlineOf (line + k)).2, line := line + k, chunks := 15 }) s1).settle

/-- A line came for a rebuild (R167, R168): its program is queued; an unrecovered one is rebuilt as lost. -/
def rebuildLine (s : State) (x : Nat) (st : AssistStatus) : State :=
  let n := lineSett x
  match s.move n with
  | none => s
  | some m =>
    if m.read.getLsbD (lineIdx x) then s
    else match st with
      | .data d => s.moveProgram m (lineIdx x) (s.newestOf x d)
      | .zero => s.moveProgram m (lineIdx x) (s.newestOf x 0)
      | .notHeld => s.moveAbandon n false
      | .unrecovered =>
        let (r, rl) := s.rlineOf x
        let held := (s.bline x).any fun b => State.isDirty b && !State.isPartial b
        (if held then s else s.lose r rl 0).moveProgram m (lineIdx x) (s.newestOf x 0)

/-- A line came for a read that could not be served here (R86), or that soft decode could not recover (`heal`, R116, R117): it answers the
waiting reads; an unrecovered line follows R118. -/
def assistLine (s : State) (x : Nat) (st : AssistStatus) (heal : Bool) : State :=
  let take (d : Line) : State := if heal then s.recovered x d false else (s.installLine x d false false).answerReads x (some d)
  match st with
  | .data d => take d
  | .zero => take 0
  | _ => if heal then s.unrecovered x else s.answerReads x none

/-- A line came for AWAIT_TWIN (R199). -/
def awaitLine (s : State) (region x : Nat) (st : AssistStatus) : State :=
  let (r, rl) := s.rlineOf x
  let s1 := s.setBench { s.bench with awaits := s.bench.awaits.erase x }
  let s2 := match st with
    | .data d => (s1.unlose r rl).installLine x d true false
    | .zero => (s1.unlose r rl).installLine x 0 true false
    | _ => s1
  if s2.bench.awaits.any fun y => (s2.rlineOf y).1 == region then s2
  else
    let v := s2.rt region
    if v.compared.isSome && !v.target && v.valid && s2.paired then s2.putRt region { v with opened := true } else s2

/-- A line came in place of a dirty line that an error in Bench 0 took (R43): without a copy there the line is lost. -/
def State.benchLine (s : State) (x : Nat) (st : AssistStatus) : State :=
  match st with
  | .data d => (s.installLine x d true false).answerReads x (some d)
  | .zero => (s.installLine x 0 true false).answerReads x (some 0)
  | _ => (s.loseHere x).answerReads x none

/-- TANDEM_READ_ASSIST_REPLY (R116, R167, R199, R207): one entry of a request under way; LAST ends the request. -/
def execTandemReadAssistReply (p : Bool) (f : TFrame) (rtag : Word) (line : Nat) (last : Bool) (st : AssistStatus) (s : State) : Res :=
  onFrame s p f fun s =>
    match s.twin.assists.find? fun a => a.rtag == rtag with
    | none => s
    | some a =>
      if line < a.line ∨ a.line + a.count ≤ line then s
      else
        let a1 := { a with got := a.got + 1 }
        let s1 := s.setTwin { s.twin with assists := if last then s.twin.assists.erase a else s.twin.assists.map fun b => if b == a then a1 else b }
        (match a.why with
          | .read => assistLine s1 line st false
          | .recover => assistLine s1 line st true
          | .rebuild => rebuildLine s1 line st
          | .await => awaitLine s1 a.region line st
          | .bench => s1.benchLine line st).settleTwin

/-! ### Time and life -/

/-- A source's rank in Table 3-1, lower being better. -/
def sourceRank (x : TimeSource) : Nat :=
  match x with
  | .ptp => 0
  | .secure => 1
  | .twin => 2
  | .holdoverPps => 3
  | .holdover => 4
  | .none => 5

/-- The UID of this controller (Table 15-10). -/
def ownUid : Nat := (List.range 4).foldl (fun n k => n + (Config.otpWord (0x024 + k)).toNat * 2 ^ (32 * k)) 0

/-- This controller's own Tally source, the twin left out (R210). -/
def ownSource (s : State) : TimeSource := (s.setTally { s.tally with twinQualified := false }).bestSource

/-- R210: this controller sends time when its own source ranks higher, ties broken by TRUST and then by the lower UID. A twin that follows this
controller has no better source of its own. -/
def sendsTime (s : State) : Bool :=
  let a := sourceRank (ownSource s)
  let b := sourceRank s.twin.peerSource
  if s.twin.peerSource = .twin then true
  else if a ≠ b then decide (a < b)
  else if s.tally.trust ≠ s.twin.peerTrust then decide (s.twin.peerTrust.code < s.tally.trust.code)
  else decide (ownUid < s.twin.peerUid.toNat)

/-- The round trip of a SYNC exchange in ns, as IEEE 1588 has it (R207). -/
def SyncTimes.trip (x : SyncTimes) : Int := ((x.t4 : Int) - x.t1) - ((x.t3 : Int) - x.t2)

/-- How far the twin's Tally is ahead, in ns (R207). -/
def SyncTimes.offset (x : SyncTimes) : Int := (((x.t2 : Int) - x.t1) + ((x.t3 : Int) - x.t4)) / 2

/-- The twin's time by an exchange, in units of 2⁻¹⁶ s. -/
def SyncTimes.time (x : SyncTimes) (now : Dword) : Dword := BitVec.ofInt 64 ((now.toNat : Int) + x.offset * 65536 / 1000000000)

/-- TANDEM_SYNC (R207, R210, R46): the four times give the round trip and the twin's time; only a controller that does not send time itself takes
it, once the session is attested and the twin's source is not holdover from start. DESIGN CHOICE (log entry 113): a SYNC says no more than SOURCE and
TRUST, and holdover from start is read off them as SOURCE NONE, or a form of holdover with TRUST UNTRUSTED. -/
def execTandemSync (p : Bool) (f : TFrame) (x : SyncTimes) (src : TimeSource) (trust : Trust) (s : State) : Res :=
  onAnyFrame s p f fun s =>
    let s1 := s.setTwin { s.twin with rtt := BitVec.ofNat 16 (min 0xFFFF x.trip.toNat), peerSource := src, peerTrust := trust }
    let sends := sendsTime s1
    let s2 := s1.setTwin { s1.twin with timeSender := sends }
    if sends then
      if s2.tally.twinQualified then (s2.setTally { s2.tally with twinQualified := false }).selectSource else s2
    else if src == .none || State.isHoldover src && trust == .untrusted then s2
    else if s2.tally.twinHoldoff then s2
    else
      let s3 := (s2.setTally { s2.tally with twinQualified := true }).selectSource
      (if s3.tally.source == .twin then s3.offerTime .twin trust (x.time s3.tally.now) else s3).ageFollow s

/-- TANDEM_HEARTBEAT (R216): liveness, the echo, and the peer's levels. -/
def execTandemHeartbeat (p : Bool) (f : TFrame) (seq echo : Word) (dirty : Nat) (c : Cap) (s : State) : Res :=
  onAnyFrame s p f fun s => ((peerLevels (s.setTwin { s.twin with hbRx := seq, hbEcho := echo }) dirty c)).settleTwin

/-- TANDEM_RESYNC (R226): entries applied at their stamp's place in the region's order. -/
def execTandemResync (p : Bool) (f : TFrame) (es : List WEntry) (s : State) : Res :=
  onFrame s p f fun s =>
    (es.foldl (fun (s : State) e => match s.resyncApply e with
      | (s1, true) => s1
      | (s1, false) => s1.setTwin { s1.twin with rsHeld := s1.twin.rsHeld ++ [(e, f.last)] }) s).settleTwin

/-! ### Pairing -/

/-- Pairing is refused (R211): the cause is captured, and the retry timer tries again. -/
def pairRefuse (s : State) (b : Nat) : State := ((s.endSession.setPair .unpaired).cause Reg.TDM_CAUSE 0 b (232 + b)).judgeTdm

/-- Sends REGION_STATE for every region (Table 9-5 step 4); with no region, one RESYNC_PLAN for region 0 stands for the empty list. -/
def sendStates (s : State) : State :=
  let rs := s.regionIds
  if rs.isEmpty then s.tsend false (.control (.resyncPlan 0 false false 0))
  else rs.foldl (fun s r => s.tsend false (.control (.regionState r (s.regionCompare r)))) s

/-- A new session begins (Table 9-5 step 3): frame counters and key phases start anew, and region records are exchanged. -/
def startSession (s : State) (session : Word) : State :=
  let fresh (v : TPort) : TPort := { v with fseqTx := 0, fseqRx := 0, phaseTx := false, phaseRx := false, oldKey := false, fails := 0, barred := false, frames := 0 }
  let s1 := s.setTwin { s.twin with session := session, p0 := fresh s.twin.p0, p1 := fresh s.twin.p1, hbTx := 0, hbRx := 0, hbEcho := 0 }
  let s2 := s1.regionIds.foldl (fun s r => 
    let k := s.keySlot r
    s.tsend false (.control (.regionAttr r (s.rt r).ros (s.rt r).attrVer {
      record := s.region r, share := k.shareRequired, keyId := if k.state == .active && k.loaded then some k.key else none
      binds := some (s.regionBinds r) }))) s1
  sendStates s2

/-- Two controllers may pair in FIELD_OPEN or FIELD_LOCKED, or both in TEST or MAKER (R211). -/
def lifeMatches (own peer : Nat) : Bool := (own / 2 == 0 && peer / 2 == 0) || (own / 2 == 1 && peer / 2 == 1)

/-- TANDEM_PAIR (R211, R206): a step of attestation, taken only while ATTESTING; its end checks binding, life cycle, debug port (R383) and compatibility. A
failed TRNG makes pairing wait (R394). -/
def execTandemPair (p : Bool) (f : TFrame) (m : PairMove) (s : State) : Res :=
  if !s.psq.mainUp || s.twin.pair != .attesting || s.twin.session ≠ 0 || (s.tport p).st != .up then .next s
  else if !f.shapeOk || f.session ≠ 0 then .next (s.bump Reg.TDM_DROP_CNT 0 31 0)
  else match m with
    | .step n => .next (s.tsend p (.pair (n + 1)))
    | .failed => .next (pairRefuse s 8)
    | .done session identity uid compat life debug =>
      if s.sec.trngFail then .next s
      else if s.twin.binding ≠ some identity || !lifeMatches s.life.code life || (s.life == .fieldLocked && debug) || session = 0 then .next (pairRefuse s 8)
      else if compat ≠ s.flash.runCompat then .next (pairRefuse s 7)
      else .next (startSession (s.setTwin { s.twin with peerUid := uid, peerCompat := compat }) session)

/-- REGION_STATE (R225): the twin's state of a region is kept, and this controller's plan for it goes out. -/
def execRegionState (p : Bool) (f : TFrame) (region : Fin 4096) (c : RegionCompare) (s : State) : Res :=
  onAnyFrame s p f fun s =>
    let v := s.rt region
    let s1 := (s.setRt region { v with compared := some c, twinUnfit := (s.region region).extents.any fun e => decide (c.extents ≤ e) }).setXlt
      { s.xlt with peerExtents := c.extents }
    let role := State.roleOf (s1.regionCompare region) c
    let todo := match role with
      | some (true, true) => (s1.settsOf region fun n => s1.allocated n).length
      | some (true, false) => v.marks.length
      | _ => v.marks.length
    s1.tsend false (.control (.resyncPlan region (role.any fun x => x.1) (role.any fun x => !x.1) todo))

/-- RESYNC_PLAN (R225): the twin's plan for a region, with the marks of its map. With every region planned, pairing completes and resyncs
start. -/
def execResyncPlan (p : Bool) (f : TFrame) (region : Fin 4096) (count : Nat) (peerMarks : List Nat) (s : State) : Res :=
  onAnyFrame s p f fun s =>
    if s.twin.pair != .attesting then s
    else
      let v := s.rt region
      let s1 := if (s.region region).valid then
          s.setRt region { v with planned := true, left := max count (v.marks ++ peerMarks).dedup.length, todo := peerMarks } else s
      if s1.allPlanned then s1.pairComplete else s1

/-- RESYNC_DONE (R227): the target has committed every sett; the region's marks clear here too. -/
def execResyncDone (p : Bool) (f : TFrame) (region : Fin 4096) (s : State) : Res :=
  onFrame s p f fun s =>
    let v := s.rt region
    if v.source then
      (((s.putRt region { v with source := false, todo := [] }).clearMarks region).cause Reg.TDM_CAUSE 0 12 244).settleTwin
    else s

/-- REGION_ATTR (R214, R238): a region's attributes, applied at their place in its order. -/
def execRegionAttr (p : Bool) (f : TFrame) (region : Fin 4096) (ros : Nat) (ver : Word) (a : RegionAttr) (s : State) : Res :=
  onAnyFrame s p f fun s =>
    if s.paired then ((s.setTwin { s.twin with attrs := s.twin.attrs ++ [(region.val, ros, ver, a)] }).takeAttrs 16).drawMissing region |>.settleTwin
    else if !(s.region region).valid || (s.rt region).attrVer < ver then s.applyAttr region ver a
    else match a.keyId with
      | some id => if (s.keySlot region).loaded || (s.keySlot region).state == .erasing then s else s.keyIn region id
      | none => s

/-! ### Levels, leaving and handing over -/

/-- CAP_STATE (R146). -/
def execCapState (p : Bool) (f : TFrame) (c : Cap) (s : State) : Res := onFrame s p f fun s => peerLevels s s.twin.peerDirty c

/-- DRAINING (R219): the link counts as lost at once, and the fence interval of the regions homed here as elapsed. -/
def execDraining (p : Bool) (f : TFrame) (_trigger : Fin 16) (s : State) : Res :=
  onFrame s p f fun s =>
    let s1 := (s.cause Reg.TDM_CAUSE 0 11 243).declareLoss
    let s2 := s1.setTwin { s1.twin with fenceWait := false }
    (s2.regionIds.foldl (fun s r => s.fenceEnd r) s2).settleTwin

/-- DETACH_FRAME (R230): this controller is DETACHED too and runs every region solo at once. -/
def execDetachFrame (p : Bool) (f : TFrame) (s : State) : Res :=
  onFrame s p f fun s =>
    let s1 := ((s.setPair .detached).failHanding).endSession
    let s2 := s1.regionIds.foldl (fun s r => (s.putRt r { s.rt r with home := true, noHome := false, opened := (s.rt r).opened && !(s.rt r).target }).goSolo r) s1
    (s2.setTwin { s2.twin with leaving := none, peerLeaving := false }).failForwarded.failAlloc.settleTwin

/-- HANDOVER (R229): this controller is home from receipt, with the new TERM. A region created with HOME_TWIN has no key yet: its home
draws it (R469). -/
def execHandover (p : Bool) (f : TFrame) (region : Fin 4096) (term : Word) (ros : Nat) (s : State) : Res :=
  onFrame s p f fun s =>
    let v := s.rt region
    let s1 := (s.putRt region { v with home := true, noHome := false, term := term, ros := max v.ros ros }).tsend false
      (.control (.handoverAck region term))
    (s1.drawMissing region).settleTwin

/-- HANDOVER_ACK (R229): the new home is confirmed; the writes held here are forwarded to it, and MOVE_HOME completes. -/
def execHandoverAck (p : Bool) (f : TFrame) (region : Fin 4096) (term : Word) (s : State) : Res :=
  onFrame s p f fun s =>
    let v := s.rt region
    match v.handing with
    | none => s
    | some w =>
      let s1 := (s.putRt region { v with handing := none, term := term }).fenceWaited region
      (match w with
        | some (c, t) => s1.complete c t .ok []
        | none => s1).settleTwin

/-- LEAVING (R231): recorded; the pair parks where this controller leaves too. One that comes after the wait gets DETACH. -/
def execLeaving (p : Bool) (f : TFrame) (_trigger : Fin 16) (s : State) : Res :=
  onFrame s p f fun s =>
    if s.twin.leftByDetach then s.tsend false (.control .detach)
    else (s.setTwin { s.twin with peerLeaving := true }).settleTwin

/-- REKEY (R209): a new key phase of a port, in the direction of this receiver; the old key stands for 1 ms. -/
def execRekey (p : Bool) (f : TFrame) (port : Bool) (phase : Bool) (s : State) : Res :=
  onAnyFrame s p f fun s => s.setTport port { s.tport port with phaseRx := phase, oldKey := true }

/-! ### Flits, retrains and ports (R203) -/

/-- TANDEM_FLIT_DISCARD (R203): a flit that its FEC cannot correct, `none`, or whose CRC fails after correction, or a DATA flit out of SEQ, is discarded
and a NAK sent. -/
def execTandemFlitDiscard (p : Bool) (flit : Option TFlit) (s : State) : Res :=
  let v := s.tport p
  let bad : Bool := match flit with
    | none => true
    | some w => tflitBad w || (tflitKind w == 1 && tflitSeq w != v.rxSeq)
  if s.psq.mainUp && v.st == .up && !v.nak && bad then .next ((s.setTport p { v with nak := true }).emit (.tandemNak p (v.rxSeq - 1)))
  else .next s

/-- An acknowledgement of every flit up to `seq`. -/
def tandemAcked (v : TPort) (seq : BitVec 12) : TPort :=
  let k := (seq - v.ackSeq).toNat + 1
  if k ≤ v.unacked then
    { v with ackSeq := seq + 1, unacked := v.unacked - k, replays := if (v.replayFrom - v.ackSeq).toNat < k then 0 else v.replays }
  else v

/-- TANDEM_FLIT_ACK (R203): flits up to `seq` leave the replay buffer. -/
def execTandemFlitAck (p : Bool) (seq : BitVec 12) (s : State) : Res :=
  if s.psq.mainUp && (s.tport p).st == .up then .next (s.setTport p (tandemAcked (s.tport p) seq)) else .next s

/-- TANDEM_ACK_TIMER (R203): 100 ns after a flit the receiver acknowledges what it owes. -/
def execTandemAckTimer (p : Bool) (s : State) : Res :=
  let v := s.tport p
  if s.psq.mainUp && v.st == .up && decide (0 < v.rxOwed) then
    .next ((s.setTport p { v with rxOwed := 0 }).emit (.tandemAck p (v.rxSeq - 1)))
  else .next s

/-- Starts a retrain of a port: a fast one while fewer than 3 have run, else the full one, which clears the replay buffer and is counted. -/
def tandemRetrainStart (s : State) (p : Bool) : State :=
  let v := s.tport p
  if v.fastTried < 3 then (s.setTport p { v with st := .fast, fastTried := v.fastTried + 1 }).emit (.tandemRetrain p false)
  else ((s.setTport p { v with st := .full, unacked := 0, replays := 0 }).bump Reg.TDM_RETRAIN 0 (if p then 15 else 7) (if p then 8 else 0)).emit
    (.tandemRetrain p true)

/-- TANDEM_NAK_RECEIVED (R203): a replay from the flit after `seq`; eight replays of one SEQ without progress lead to retrains. -/
def execTandemNakReceived (p : Bool) (seq : BitVec 12) (s : State) : Res :=
  if !s.psq.mainUp || (s.tport p).st != .up then .next s
  else
    let v := tandemAcked (s.tport p) seq
    let n := if v.replays ≠ 0 ∧ v.replayFrom = v.ackSeq then v.replays + 1 else 1
    let s1 := (s.setTport p { v with replayFrom := v.ackSeq, replays := n }).emit (.tandemReplay p v.ackSeq)
    .next (if 8 ≤ n then tandemRetrainStart (s1.setTport p { s1.tport p with fastTried := 0 }) p else s1)

/-- Sends REKEY for a port and direction (R209). -/
def sendRekey (s : State) (p : Bool) : State :=
  let v := s.tport p
  let s1 := s.tsend p (.control (.rekey p (!v.phaseTx)))
  s1.setTport p { s1.tport p with phaseTx := !v.phaseTx, frames := 0 }

/-- TANDEM_RETRAIN_DONE (R203, R208, R209): a fast retrain that succeeds resumes with a replay, one that fails leads to the next; after a full
retrain uncovered entries are sent again and the port's keys replaced, or the port is DOWN until the next pairing attempt. -/
def execTandemRetrainDone (p : Bool) (ok : Bool) (s : State) : Res :=
  if !s.psq.mainUp then .next s
  else
    let v := s.tport p
    match v.st with
    | .fast =>
      if ok then .next ((s.setTport p { v with st := .up, replays := 0 }).emit (.tandemReplay p v.ackSeq)).judgeTdm
      else .next (tandemRetrainStart s p).judgeTdm
    | .full =>
      if ok then
        let s1 := s.setTport p { v with st := .up, fastTried := 0, nak := false, rxOwed := 0 }
        let s2 := if 0 < v.fails ∧ s1.twin.session ≠ 0 then sendRekey s1 p else s1
        .next (if s2.paired then s2.resendPort p else s2).judgeTdm
      else
        let s1 := s.setTport p { v with st := .down, fastTried := 0, unacked := 0 }
        .next (if s1.paired then s1.resendPort p else s1).judgeTdm
    | _ => .next s

/-- Whether this controller may start pairing: bound, with no pairing under way, not DETACHED, and the link enabled (R211, R230). -/
def mayPair (s : State) : Bool :=
  s.twin.binding.isSome && s.bit Reg.TDM_CTRL 0 0 &&
    (s.twin.pair == .unpaired || s.twin.pair == .lost || s.twin.pair == .parked)

/-- Pairing starts (R211), once the translation journal has been applied (R19); a pair parked into KEEP that kept its session resumes it without attestation (R231). -/
def startPairing (s : State) (p : Bool) : State :=
  if !mayPair s || !s.loadStarted then s
  else
    let s0 := s.regionIds.foldl (fun s r => s.setRt r { s.rt r with compared := none, planned := false, todo := [] }) s
    if s.twin.pair == .parked && s.twin.session ≠ 0 then
      let s1 := s0.setTwin { s0.twin with pair := .attesting }
      sendStates (sendRekey (sendRekey s1 false) true)
    else ((s0.setTwin { s0.twin with session := 0 }).setPair .attesting).tsend p (.pair 0)

/-- TANDEM_PORT_UP (R203, R211): a port trains with its committed lane map; the first one starts pairing. -/
def execTandemPortUp (p : Bool) (s : State) : Res :=
  let v := s.tport p
  if !s.hostsMay || !s.bit Reg.TDM_CTRL 0 0 || !s.bit Reg.TDM_CTRL 0 (State.portEn p) || v.st == .up || v.st == .fast || v.st == .full ||
      (v.barred && s.twin.session ≠ 0) then .next s
  else
    let s1 := s.setTport p { v with
      st := .up, ackSeq := 0, unacked := 0, replays := 0, fastTried := 0, rxSeq := 0, rxOwed := 0, nak := false, barred := false
      trainedMap := if p then s.twin.lane1 else s.twin.lane0 }
    .next (startPairing s1 p).judgeTdm

/-- PAIRING_RETRY_TIMER (R211): a refused pairing, or a lost one, is tried again while a port is up. -/
def execPairingRetryTimer (s : State) : Res :=
  if s.psq.mainUp && ((s.tport false).st == .up || (s.tport true).st == .up) then .next (startPairing s ((s.tport false).st != .up)).judgeTdm
  else .next s

/-- TDM_LANEMAP_COMMIT (R202): both maps take effect from the next training of each port, or ERR. -/
def execTdmLanemapCommit (s : State) : Res :=
  .next (if !s.psq.mainUp then s
  else
    let perm (w : Word) : Bool := (List.range 8).all fun l => (List.range 8).any fun k => bitsOf w (3 * k + 2) (3 * k) == l
    let a := s.reg Reg.TDM_LANEMAP0
    let b := s.reg Reg.TDM_LANEMAP1
    if perm a && perm b then
      (s.setBit Reg.TDM_LANEMAP_COMMIT 0 1 false).setTwin { s.twin with lane0 := a, lane1 := b }
    else s.setBit Reg.TDM_LANEMAP_COMMIT 0 1 true)

/-! ### Timers -/

/-- Each port that is up sends a body, while a session stands. -/
def onPorts (s : State) (b : TBody) : State :=
  if s.twin.session = 0 ∨ !(s.twin.pair == .paired || s.twin.pair == .attesting) then s
  else [false, true].foldl (fun s p => if (s.tport p).st == .up then s.tsend p b else s) s

/-- TANDEM_HEARTBEAT_TIMER (R216): every 10 µs. -/
def execTandemHeartbeatTimer (s : State) : Res :=
  if !s.psq.mainUp then .next s
  else
    let s1 := s.setTwin { s.twin with hbTx := s.twin.hbTx + 1 }
    .next (onPorts s1 (.heartbeat s1.twin.hbTx s1.twin.hbRx s1.dirtyLines s1.med.yarrow.cap))

/-- TANDEM_SYNC_TIMER (R210): every 1 ms. -/
def execTandemSyncTimer (s : State) : Res := if s.psq.mainUp then .next (onPorts s (.sync s.tally.source s.tally.trust)) else .next s

/-- TANDEM_REKEY_TIMER (R209): 2³² frames or 1 h on a port and direction. -/
def execTandemRekeyTimer (p : Bool) (s : State) : Res :=
  if s.psq.mainUp && s.twin.session ≠ 0 && (s.tport p).st == .up then .next (sendRekey s p) else .next s

/-- TANDEM_OLD_KEY_EXPIRY (R209): 1 ms after the change the old key goes. -/
def execTandemOldKeyExpiry (p : Bool) (s : State) : Res := .next (s.setTport p { s.tport p with oldKey := false })

/-- LINK_LOSS_TIMEOUT (R216): 200 µs without a usable HEARTBEAT. -/
def execLinkLossTimeout (s : State) : Res := if s.psq.mainUp then .next s.declareLoss.settleTwin else .next s

/-- FENCE_INTERVAL_EXPIRY (R218): 1 ms after the declaration the home acts by each region's MIRROR_POLICY. -/
def execFenceIntervalExpiry (s : State) : Res :=
  if s.psq.mainUp && s.twin.fenceWait && s.twin.pair == .lost then
    .next ((s.regionIds.foldl (fun s r => s.fenceEnd r) (s.setTwin { s.twin with fenceWait := false })).settleTwin)
  else .next s

/-- STRICT_HOLD_EXPIRY (R218): held and new writes of a STRICT region are refused with "not here" until SOLO. -/
def execStrictHoldExpiry (s : State) : Res :=
  if s.psq.mainUp && s.twin.strictWait && !s.twin.fenceWait && s.twin.pair == .lost then
    .next ((s.regionIds.foldl (fun s r =>
      let v := s.rt r
      if v.home && v.held && s.strict r then s.putRt r { v with held := false, strictRefuse := true } else s)
      (s.setTwin { s.twin with strictWait := false })).settleTwin)
  else .next s

/-- LEAVE_WAIT_EXPIRY (R231): no LEAVING came, so this controller runs DETACH. -/
def execLeaveWaitExpiry (s : State) : Res :=
  if s.psq.mainUp && s.paired && s.twin.leaving.isSome && !s.twin.peerLeaving then
    .next ((s.setTwin { s.twin with leftByDetach := true }).detachStart none).settleTwin
  else .next s

end Sys2Proof.Machine
end

