-- ==== Sys2Proof/Machine/Reset.lean ====
section
/-! DEFINITION. What a reset of the main domain leaves and what its release starts (R39, R41, R200, R440, R468), what a group, a link
or a host port loses with its rails (Table 17-4), and what KEEP takes out of the main domain (Table 17-7). -/

namespace Sys2Proof.Machine

/-- Offsets of the registers in the always-on domain (Table 2-2). -/
def aonOffset (off : Nat) : Bool := decide (0x020000 ≤ off ∧ off < 0x050000 ∨ 0x060000 ≤ off ∧ off < 0x080000)

/-- The sources of the always-on domain, as a mask. -/
def aonMask : BitVec 512 := (List.range 512).foldl (fun m n => if aonSource n then m ||| BitVec.twoPow 512 n else m) 0

/-- Registers of the event fabric that the main domain loses whenever it goes down: routes, EVT_CTRL and EVT_LOCK (R39). -/
def evtOffset (off : Nat) : Bool := decide (0x010000 ≤ off ∧ off < 0x020000)

namespace State

/-! ### The main domain's blocks -/

/-- The pending bits and routes reset; the always-on copies stay (R39). -/
def evtDown (s : State) : State :=
  { s with regs := s.regs.filter fun p => !evtOffset p.1, evt := { s.evt with pend := 0 } }

/-- Registers of the main domain return to their reset values, and raw causes of main-domain sources fall. -/
def regsReset (s : State) : State :=
  { s with
    regs := s.regs.filter fun p => aonOffset p.1
    evt := { s.evt with pend := 0, raw := s.evt.raw &&& aonMask }
    csr := { posted := s.csr.posted }, ecc := {} }

/-- A channel keeps its assignment; one of an SPDM session is free again, for its session ended with the reset. -/
def chanReset (c : Chan) : Chan :=
  match c.who with
  | .spdm _ => { agen := c.agen }
  | _ => { who := c.who, agen := c.agen, legacy := c.legacy, token := c.token, rights := c.rights, grants := c.grants }

/-- The command channels after a reset: what was queued, waiting or at work is lost (R200). -/
def chansReset (s : State) : State := { s with chans := Tab.mapVals {} (fun _ c => chanReset c) s.chans }

/-- A quarry channel after a reset: what the last inventory and equalisation found stays. -/
def qchanReset (q : QChan) : QChan := { pkg0 := q.pkg0, pkg1 := q.pkg1, eqValid := q.eqValid }

/-- A die after a reset: nothing is loaded or under way on it, and what waited for its tables is gone. -/
def dieReset (d : Die) : Die :=
  { d with identified := false, tables := false, loads := 0, sweep := false, sent := 0, freed := 0, cmp := none, writing := [], ladderDue := false }

/-- A group after a reset: its bring-up starts again. -/
def groupReset (g : QGroup) : QGroup := { railsUp := g.railsUp, compare := g.compare, packages := g.packages, stored := g.stored, alertPkg := g.alertPkg, alertStatus := g.alertStatus }

/-- The medium side after a reset: moves are abandoned, and the tables of the medium stay (R130, R468). Remaps stay queued, by their intents (R128), and a
region's conversion, which its record holds, goes on (R148); a pass takes the sett it was judging again (R164). -/
def medReset (s : State) : State :=
  let s1 := s.dropFirst fun q => q.queue ++ q.sent ++ q.orphans
  let stays (k : WorkKind) : Bool := match k with
    | .remap | .convert _ => true
    | _ => false
  let keep := ((s1.med.yarrow.moves.filter fun m => stays m.kind).map fun m => { lsett := m.lsett, kind := m.kind }) ++
    s1.med.yarrow.queue.filter fun w => stays w.kind
  let s2 := s1.med.yarrow.moves.foldl (fun s m => s.moveAbandon m.lsett false) s1
  s2.setMed { s2.med with
    chans := Tab.mapVals {} (fun _ q => qchanReset q) s2.med.chans
    groups := Tab.mapVals {} (fun _ g => groupReset g) s2.med.groups
    dies := Tab.mapVals {} (fun _ d => dieReset d) s2.med.dies
    setts := Tab.mapVals {} (fun _ e => { e with
      promoted := false, mig := if e.mig == .promoting || e.mig == .demoting then .idle else e.mig }) s2.med.setts
    eyb := .idle, yarrow := { queue := keep.dedup }, judges := [], blanks := []
    passes := Tab.mapVals {} (fun _ v => passHeld v) s2.med.passes }

/-- Bench 0 and what waits in it are discarded; the drain descriptors, the hash key, the AWAIT marks and the marks of dropped
writes stay (R87, R200). -/
def benchReset (s : State) : State :=
  let b := s.bench
  s.setBench {
    hashKey := b.hashKey, last := b.last, descA := b.descA, descB := b.descB, suspect := b.suspect, shutdowns := b.shutdowns
    awaits := b.awaits, dropped := b.dropped, nextFtag := b.nextFtag }

/-- Translation after a reset: records, extents and the journal stay; nothing is loaded. -/
def xltReset (s : State) : State :=
  let x := s.xlt
  s.setXlt {
    regions := Tab.mapVals {} (fun _ r => { r with opening := false }) x.regions, objects := x.objects, extents := x.extents
    peerExtents := x.peerExtents, orphans := x.orphans
    map := { x.map with write := none, loads := [], judges := [] }
    jrnl := { x.jrnl with running := false, written := [] } }

/-- The Tandem link and the pair after a reset: the session ends, the binding and each region's journaled state stay; a pair that was
detached or parked stays so (R230, R231). -/
def twinReset (s : State) : State :=
  let t := s.twin
  s.setTwin {
    pair := if t.pair == .detached || t.pair == .parked then t.pair else .unpaired
    binding := t.binding, ownHash := t.ownHash, parkedSession := t.parkedSession, leftByDetach := t.leftByDetach, compat := t.compat
    regions := Tab.mapVals {} (fun _ r => {
      term := r.term, ros := r.ros, home := r.home, valid := r.valid, attrVer := r.attrVer, marks := r.marks, marksTerm := r.marksTerm
      noHome := r.noHome, fenced := r.fenced, unfit := r.unfit }) t.regions }

/-- The CXL side after a reset: bindings and dynamic capacity stay. -/
def cxlReset (s : State) : State :=
  { s with cxl := { bindings := s.cxl.bindings, lds := Tab.mapVals {} (fun _ d => { dcMap := d.dcMap, extents := d.extents }) s.cxl.lds } }

/-- Keys after a reset: the key store is empty until Mingaso loads it; the debug port is closed. -/
def secReset (s : State) : State :=
  { s with sec := { s.sec with
    slots := Tab.mapVals {} (fun _ k => { k with loaded := false, locking := false }) s.sec.slots, sealed := []
    debugOpen := false, challenge := false, trngFail := false, drbg := 0, lcWork := none } }

/-- The flash after a reset: what it was doing is cut or lost, the control cores are off and the watchdog pauses (R401, R417). -/
def flashReset (s : State) : State :=
  let s1 := s.flashCut
  (s1.setFlash { s1.flash with cores := .off, ram := [], work := none }).setWdg { stage := .paused }

/-- The Tally loses the sources that the main domain brings (R46). -/
def sourcesLost (s : State) : State :=
  (s.setTally { s.tally with
    ptpQualified := false, ptpGood := 0, twinQualified := false, acquiring := false }).selectSource

/-- The main domain is reset (Table 8-12). -/
def mainReset (s : State) : State :=
  let s1 := ((s.medReset.benchReset.xltReset.twinReset.cxlReset.secReset.flashReset).chansReset).regsReset
  let s2 := { s1 with rdma := { caks := s1.rdma.caks }, dram := {} }
  let s3 := s2.sourcesLost
  let s4 := s3.setEvr { s3.evr with archiving := false }
  (s4.setPsq { s4.psq with mainUp := false, throttle := false }).level Reg.PSQ_CAUSE 0 7 359 128 false

/-! ### Coming back -/

/-- Source 158 is raised while the main domain is up and the wake deadline is reached (R62). -/
def judgeDeadline (s : State) : State :=
  if s.psq.mainUp && decide (s.reg64 Reg.TLY_WAKE_DEADLINE_LO Reg.TLY_WAKE_DEADLINE_HI ≤ s.tally.now) then s.raise 158 else s.lower 158

/-- The level causes of the main domain's blocks. -/
def judgeMain (s : State) : State :=
  let s1 := s.judgeBench.judgeTdm.judgeXlt.judgeYrw.judgeTsl.judgeEyb.judgeCxl.judgeRdm.judgeWait
  let s2 := (List.range 32).foldl (fun s m => s.judgeMac m) s1
  ((List.range 9).foldl (fun s g => s.judgeQg g) s2).judgeDeadline

/-- An enabled CXL port that exists waits for its link partner. -/
def cxlPortsStart (s : State) : State :=
  ((List.finRange 4).foldl (fun s p =>
    if s.bit Reg.CXL_CTRL 0 p.val && s.portThere p then s.setCport p { s.cport p with st := .detect, width := 0, speed := 0 } else s) s).judgeCxl

/-- The main domain leaves reset (R19, R427): the always-on pending bits show, the boot engine chooses its image, and, but under the recovery
image or the loader (R421), the ports wait for their links. In END the boot engine halts (R386). TJ is read from now on; its value is a free one. -/
def mainRelease (s : State) : State :=
  let s0 := s.draw
  let s1 := { s0.setPsq { s0.psq with mainUp := true, warm := false, tj := (Config.undefinedWord s.fresh).setWidth 8 } with
    evt := { s0.evt with pend := s0.evt.aonPend } }
  let s2 := if s1.life == .ended then s1 else s1.bootSelect s1.arb
  (if s1.life == .ended then s2 else if s2.flash.cores == .recovery then s2.wdgStart else if s2.flash.cores == .loader then s2 else s2.cxlPortsStart).judgeMain

/-- Mingaso writes every route from the route table, a source's default route where it holds none, and then sets EVT_CTRL.GLOBAL_EN and
EVT_LOCK.ROUTE; the always-on copies follow (R39, R41). The default route sends nothing. -/
def routesRestore (s : State) : State :=
  let (t, s1) := s.nvRead Config.nvRoutes
  let saved := t.getD []
  let s2 := (List.range 512).foldl (fun (s : State) n =>
    let v := saved.getD n 0
    if v = 0 then s else s.setReg Reg.EVT_ROUTE n (BitVec.ofNat 32 (v - 1))) s1
  let s3 := (s2.setBit Reg.EVT_CTRL 0 0 true).setBit Reg.EVT_LOCK 0 0 true
  let mask (b : Nat) : BitVec 512 :=
    (List.range 512).foldl (fun m n => if aonSource n && s3.bit Reg.EVT_ROUTE n b then m ||| BitVec.twoPow 512 n else m) 0
  { s3 with evt := { s3.evt with aonEn := mask 0, aonEvtn := mask 4, aonRec := mask 5, aonGlobal := true } }

/-! ### Groups and their rails -/

/-- The rails of a group go down (Table 17-4, R88): the group's dies lose power, and what is outstanding waits for the group's return. -/
def railsDownGroup (s : State) (g : Nat) : State :=
  let s1 := s.stampPowered g
  let s2 := (List.range 16).foldl (fun (s : State) k =>
    let n := 16 * g + k
    let q := s.qc n
    s.setQc n { qchanReset q with queue := q.queue, orphans := q.orphans ++ q.sent, nextTag := q.nextTag, offline := q.offline }) s1
  let s3 := s2.setMed { s2.med with
    dies := Tab.mapVals {} (fun d v => if d / 256 = g then { dieReset v with cmp := v.cmp } else v) s2.med.dies }
  let v := s3.qg g
  let s4 := (s3.setQg g { groupReset v with railsUp := false }).judgeQg g
  (((s4.divert fun d => d / 256 == g).judgeBench.judgeTsl).drainLostDies).settleMed

/-- A group whose rails are qualified is brought up (Table 4-11): its sideband reports READY package by package. -/
def groupUp (s : State) (g : Nat) : State :=
  if s.groupRailsUp g && !(s.qg g).railsUp then
    let s1 := s.setQg g { s.qg g with railsUp := true, compare := true }
    (s1.setMed { s1.med with eyb := .powerup }).judgeQg g
  else s

/-- Every group whose rails are qualified is brought up. -/
def groupsUp (s : State) : State := (List.range 9).foldl (fun s g => s.groupUp g) s

/-! ### Host ports and links that lose their rails -/

/-- Every MAC's link goes down, and PTP with it (Table 17-4). -/
def macsDown (s : State) : State :=
  let s1 := { s with rdma := { s.rdma with macs := Tab.mapVals {} (fun _ m => { m with up := false, rate := 0 }) s.rdma.macs, ptpMac := none } }
  let s2 := (s1.setTally { s1.tally with ptpQualified := false, ptpGood := 0 }).selectSource
  (List.range 32).foldl (fun s m => s.judgeMac m) s2

/-- The CXL ports behave as under surprise removal (R291). -/
def cxlDown (s : State) : State :=
  ((List.finRange 4).foldl (fun s p =>
    if (s.cport p).st == .disabled then s
    else
      let s1 := s.portReset p
      s1.setCport p { s1.cport p with st := .detect, width := 0, speed := 0 }) s).judgeCxl.settle

/-- Both Tandem ports go down; the link is declared lost where the pair stands (R216). -/
def tandemDown (s : State) : State :=
  let s1 := (s.setTport false { s.tport false with st := .down }).setTport true { s.tport true with st := .down }
  (s1.setTally { s1.tally with twinQualified := false }).selectSource.declareLoss.judgeTdm

end State

end Sys2Proof.Machine
end

