-- ==== Sys2Proof/Machine/DramOps.lean ====
section
/-! DEFINITION. The DRAM bench (chapter 13): what an array's owner does when its data is lost (Table 13-3, R253), the retirement of ranks
(R333, R334), and what KEEP and a retry of its rail do to the bench (R336, R437). -/

namespace Sys2Proof.Machine

namespace State

/-! ### Owners of lost data (Table 13-3) -/

/-- A chunk that a live journal record touches: it is reloaded at once (R253). -/
def chunkTouched (s : State) (c : Nat) : Bool := s.xlt.jrnl.recs.any fun r => (s.recChunks r).contains c

/-- Loading goes on in the background for the chunks that were lost; TABLE_LOST is captured (R253). -/
def tableLost (s : State) : State :=
  ((s.setXlt { s.xlt with allLoaded := false, load := if s.xlt.load == .loaded then .background else s.xlt.load }).cause
    Reg.XLT_CAUSE 0 9 313).judgeXlt

/-- The owner of lost data acts (Table 13-3). The restart of the control cores for Mingaso's own data is in `Dram.lean`. -/
def dramLost (s : State) (a : DramArray) : State :=
  match a with
  | .table c => (if s.chunkTouched c then s else s.setXlt { s.xlt with loaded := Tab.erase s.xlt.loaded c }).tableLost
  | .bands c =>
    (if s.chunkTouched (s.bandChunk c) then s else s.setXlt { s.xlt with loaded := Tab.erase s.xlt.loaded (s.bandChunk c) }).tableLost
  | .freeList d =>
    let mine (c : Nat) : Bool := decide (s.freeBase d ≤ c ∧ c < s.freeBase d + 992) && !s.chunkTouched c
    (s.setXlt { s.xlt with loaded := s.xlt.loaded.filter fun p => !mine p.1, freeLoaded := s.xlt.freeLoaded.erase d }).tableLost
  | .beforeOpen => s.cause Reg.XLT_CAUSE 0 9 313
  | .poolPage n =>
    let e := s.sett n
    if e.promoted && e.mig == .idle then s.startDemote n else if e.mig == .promoting then s.endPromotion n else s
  | .promoBucket ns => ns.foldl (fun s n => if (s.sett n).promoted then s.endPromotion n else s) s
  | .rdmaQp n => if (s.qp n).connected then (s.cause Reg.RDM_CAUSE 0 4 196).qpError n .qpLost 0 else s
  | .window i => { s with rdma := { s.rdma with wins := Tab.put none s.rdma.wins i none } }
  | .pd i =>
    let lost := (s.rdma.qps.filter fun p => p.2.connected && p.2.mgmt.isNone && p.2.pd == i).map Prod.fst
    let s1 := { s with rdma := { s.rdma with
      pds := Tab.put none s.rdma.pds i none
      wins := s.rdma.wins.filter fun w => !(w.2.any fun v => v.pd == i) } }
    lost.foldl (fun s n => s.qpError n .qpLost 0) s1
  | .atomicCache n => s.qpError n .qpLost 0
  | .staging c first n => let h := s.chan c
    s.setChan c { h with stage := h.stage.filter fun p => !decide (first ≤ p.1 ∧ p.1 < first + n) }
  | .mingaso => s

/-- Every array of the bench is lost (R437): tables, pool, staging windows, spilled contexts, windows and PDs. -/
def dramAllLost (s : State) : State :=
  let s0 := s.pagesGone fun _ => true
  let s1 := s0.setXlt { s0.xlt with
    loaded := s0.xlt.loaded.filter fun p => s0.chunkTouched p.1, freeLoaded := [] }
  let s2 := (s1.xlt.pages.map Prod.fst).foldl (fun s n => s.dramLost (.poolPage n)) s1.tableLost
  let s3 := { s2 with chans := Tab.mapVals {} (fun _ c => { c with stage := [] }) s2.chans }
  let spilled := (s3.rdma.qps.filter fun p => !s3.rdma.ctxLru.contains p.1).map Prod.fst
  let s4 := spilled.foldl (fun s n => s.dramLost (.rdmaQp n)) s3
  (s4.rdma.pds.map Prod.fst).foldl (fun s i => s.dramLost (.pd i)) s4

/-! ### Levels -/

/-- A channel's spare rank serves a set. -/
def spareUsed (s : State) (c : Nat) : Bool :=
  s.bit Reg.DRM_MAP_ACT 0 7 && (let r := s.rank c (s.fld Reg.DRM_MAP_ACT 0 9 8); r.st == .inService || r.st == .copying)

/-- The level bits of DRM_CAUSE (Table 13-7) but DEGRADED, which the retirement of a set sets. -/
def judgeDram (s : State) : State :=
  let s1 := s.level Reg.DRM_CAUSE 0 1 257 2 (s.dram.ranks.any fun p => p.2.st == .copying)
  let s2 := s1.level Reg.DRM_CAUSE 0 2 258 4 ((List.range 8).any fun c => s1.spareUsed c)
  s2.level Reg.DRM_CAUSE 0 4 260 16 (s2.dram.hot != 0)

/-! ### Retirement (R333) -/

/-- The pool shrinks to what is left of B1: the setts beyond it are demoted (R260). -/
def poolShrink (s : State) : State :=
  let total := s.poolPages s.xlt.extents
  let s1 := s.setXlt { s.xlt with poolTotal := min s.xlt.poolTotal total }
  let used := (s1.xlt.pages.filter fun p => p.2.isSome).length
  (List.range (used - total)).foldl (fun s _ => match s.evictee 5 with
    | some n => s.startDemote n
    | none => s) s1

/-- A rank set leaves service with all that it holds; arrays that no longer fit fence every region (R266). -/
def retireSet (s : State) (set : Nat) (held : List DramArray) : State :=
  let s0 := s.pagesGone fun p => (s.benchAddr (p * 65536)).set == set
  let s1 := s0.setDram { s0.dram with ranks := Tab.mapVals {} (fun _ r =>
    if r.set == set && (r.st == .inService || r.st == .copying) then { r with st := .retired, waiting := false } else r) s0.dram.ranks }
  let s2 := (s1.cause Reg.DRM_CAUSE 0 10 266).level Reg.DRM_CAUSE 0 3 259 8 true
  let s3 := held.foldl (fun s a => s.dramLost a) (if s2.setsUp = 0 then s2.setDram { s2.dram with st := .failed } else s2)
  let short := decide (s3.b1Gib * 1048576 < arraysKib s3.xlt.extents)
  let s4 := s3.setXlt { s3.xlt with arraysShort := s3.xlt.arraysShort || short }
  (((if short then s4.regionIds.foldl (fun s r => s.fenceWitness r) s4 else s4).poolShrink).judgeXlt).judgeDram

/-- A rank is retired (R333): copied to the channel's free spare, held until a running copy ends, or taken out with its whole set, which
holds the arrays `held`. -/
def retireRank (s : State) (c k : Nat) (held : List DramArray) : State :=
  let r := s.rank c k
  if r.st != .inService then s
  else if (s.rankIn c .copying).isSome then s.setRank c k { r with waiting := true }
  else if (s.rankIn c .spare).isSome then (s.setRank c k { r with st := .copying }).judgeDram
  else s.retireSet r.set held

/-! ### Training (R324, R334) -/

/-- Trains one channel's ranks: a rank that fails is replaced by the channel's spare without a copy, where that one trains. -/
def trainChannel (s : State) (c : Nat) : State :=
  let n := s.setCount
  let spare := if s.bit Reg.DRM_MAP_ACT 0 7 then some (s.fld Reg.DRM_MAP_ACT 0 9 8) else none
  let bad (k : Nat) : Bool := s.dram.bad.contains (c * 4 + k)
  let s1 := (List.range n).foldl (fun (s : State) k =>
    s.setRank c k { st := if bad k then .trainFailed else if spare = some k then .spare else .inService, set := k }) s
  let s2 := match (List.range n).find? fun k => bad k && spare != some k, spare with
    | some k, some j => if bad j then s1 else s1.setRank c j { st := .inService, set := k }
    | _, _ => s1
  if (List.range n).any bad then s2.level Reg.DRM_CH_CAUSE c 0 (248 + c) 7 true else s2

/-- Trains the bench: a set without a rank in some channel is left out. -/
def trainBench (s : State) : State :=
  let s1 := (List.range 8).foldl (fun s c => s.trainChannel c) (s.setDram { s.dram with ranks := [] })
  let out := (List.range s1.setCount).filter fun k => !s1.setUp k
  let s2 := s1.setDram { s1.dram with ranks := Tab.mapVals {} (fun _ r =>
    if r.st == .inService && out.contains r.set then { r with st := .retired } else r) s1.dram.ranks }
  (s2.setDram { s2.dram with st := if s2.setsUp = 0 then .failed else .ready, trained := [s2.dram.speed] }).judgeDram

/-! ### KEEP and the bench's rail -/

/-- Entry to KEEP: the bench switches to 3200 MT/s and enters self-refresh (Table 17-7, R336). -/
def dramSleep (s : State) : State :=
  if s.dram.st == .ready || s.dram.st == .switching then
    (s.setDram { s.dram with st := .selfRefresh, prevSpeed := s.dram.speed, speed := 0 }).emit (.dram 0 0)
  else s

/-- Leaving KEEP: self-refresh exit and the switch back to the operating speed (Table 17-8). -/
def dramWake (s : State) : State :=
  if s.dram.st == .selfRefresh || s.dram.burst then
    (s.setDram { s.dram with st := .ready, speed := s.dram.prevSpeed, burst := false, lastExit := some s.tally.now }).emit (.dram 1 0)
  else s

/-- A DDR rail is back after a retry (R437): the bench is retrained and every array is lost. -/
def ddrReturn (s : State) : State :=
  if s.dram.st == .unconfigured then s else ((s.trainBench.emit (.dram 3 0)).dramAllLost).settle

end State

end Sys2Proof.Machine
end

