-- ==== Sys2Proof/Machine/SlotOps.lean ====
section
/-! DEFINITION. What the actions of schedule slots do in ACTIVE and IDLE (Table 3-5), and the firings held for the next ACTIVE (R56). -/

namespace Sys2Proof.Machine

namespace State

/-- The quarry groups of a group mask. -/
def maskGroups (arg : Word) : List Nat := (List.range 9).filter fun g => arg.getLsbD g

/-- A pass of a group runs or waits to. -/
def passBusy (s : State) (g : Nat) : Bool := (s.pass g).running || (s.pass g).waiting

/-- TEASEL_PASS: a pass starts on each group, as soon as the group is in service; a running pass is left alone and is LATE (R56,
R162). -/
def slotPass (s : State) (arg : Word) : FireResult × State :=
  let gs := maskGroups arg
  (if gs.any fun g => s.passBusy g then .busy else .done,
    (gs.foldl (fun s g => if s.passBusy g then s.setPass g { s.pass g with late := (s.pass g).late || (s.pass g).running }
      else s.setPass g { s.pass g with waiting := true }) s).medKick.judgeTsl)

/-- The populated, working dies of a group. -/
def calDies (s : State) (g : Nat) : List Nat := s.dieIds.filter fun d => d / 256 == g && (s.die d).used && !(s.die d).failed

/-- EYEBRIGHT_CAL: each group's dies are to be calibrated (R110). -/
def slotCal (s : State) (arg : Word) : FireResult × State :=
  let busy (g : Nat) : Bool := (s.calDies g).any fun d => (s.die d).calDue
  let gs := maskGroups arg
  (if gs.any busy then .busy else .done,
    (gs.filter fun g => !busy g).foldl (fun s g => (s.calDies g).foldl (fun s d => s.setDie d { s.die d with calDue := true }) s) s)

/-- SENTINEL_REWRITE: the ladder rungs that are due are rewritten on each group's dies, once their tables are loaded (R57, R108). -/
def slotSentinel (s : State) (arg : Word) : State :=
  (maskGroups arg).foldl (fun s g => (s.calDies g).foldl (fun s d => s.rewriteRungs d) s) s

/-- A rise of source 158 (R62): the die that sets the earliest deadline is taken first in its group's pass, and the pass starts if none runs; one of a group
that is still coming up starts with its service. -/
def deadlineMark (s : State) : State :=
  match s.earliestDeadline with
  | some (_, d) =>
    let s1 := s.setDie d { s.die d with first := true }
    let g := dieGroup d
    if s1.passBusy g || !s1.bit Reg.TSL_CTRL 0 0 then s1 else s1.setPass g { s1.pass g with waiting := true }
  | none => s

/-- DRAM_SCRUB: a scrub burst, unless one is under way (R56). -/
def slotScrub (s : State) : FireResult × State :=
  if s.dram.burst then (.busy, s) else (.done, s.setDram { s.dram with burst := true })

/-- Slot firings held for ACTIVE run at the entry to it, where the slot is still armed (R56). -/
def runHeld (s : State) : State :=
  let due := (List.range 256).filter fun k => s.sched.held.getLsbD k && (s.slot k).arm
  due.foldl (fun (s : State) k =>
    let v := s.slot k
    match v.action.toNat with
    | 1 => (s.slotPass v.arg).2
    | 2 => (s.slotCal v.arg).2
    | 7 => s.slotScrub.2
    | 9 => s.slotSentinel v.arg
    | _ => s) { s with sched := { s.sched with held := 0 } }

end State

end Sys2Proof.Machine
end

