-- ==== Sys2Proof/Machine/PsqOps.lean ====
section
/-! DEFINITION. The supervisor's decisions (chapters 8, 16 and 17): drain triggers and their reactions (R186 to R189), the flash hold of
R418, power-down, warm reset, KEEP, requests and crossings (R438, R446), and what the end of a transition means. -/

namespace Sys2Proof.Machine

/-- The code of a reaction, which is also its severity (R187, PBF_DRAIN_STATUS.REACTION). -/
def Reaction.code : Reaction → Nat
  | .keep => 0
  | .warm => 1
  | .cycle => 2
  | .off => 3

/-- The reaction of a code. -/
def Reaction.ofCode (n : Nat) : Reaction := if n = 0 then .keep else if n = 1 then .warm else if n = 2 then .cycle else .off

/-- The more severe of two reactions (R187). -/
def Reaction.worst (a b : Reaction) : Reaction := if a.code < b.code then b else a

/-- The reaction of a drain trigger (Table 8-4). -/
def triggerReaction (code : Nat) : Reaction :=
  if code = 4 ∨ code = 8 then .warm else if code = 5 then .cycle else if code = 9 then .keep else .off

/-- Triggers 9 and 10 are orderly (R188). -/
def orderlyCode (code : Nat) : Bool := code == 9 || code == 10

/-- The mask of trigger codes `cs`, as Table 8-8 keeps them. -/
def codeMask (cs : List Nat) : BitVec 16 := cs.foldl (fun m c => m ||| BitVec.twoPow 16 c) 0

/-- µs between two Tally values, saturating in 16 bits. -/
def usBetween (a b : Dword) : Nat := min 65535 ((b.toNat - a.toNat) * 1000000 / 65536)

namespace State

/-! ### Down and off -/

/-- The last rail is off (R446, Table 17-6): DORMANT, or LOCKOUT once the retries of a power-up are exhausted (R434); the floor is written
and T_OFF_MIN runs. A CYCLE reaction leaves an on request. -/
def offDone (s : State) : State :=
  let p := s.psq
  let locked := decide (s.fld Reg.PSQ_CFG 0 2 0 < p.attempt)
  let s1 := s.setPsq { p with
    trans := none, backoff := false, down := none, coolOff := true, burst := none, warm := false, reaction := 0, throttle := false
    attempt := if locked then p.attempt else 0, flashHold := none
    waiting := { on := (p.waiting.on || p.down == some .cycle) && !locked } }
  (s1.setPState (if locked then .lockout else .dormant)).writeFloor s1.tally.floor.orderly

/-- Anchors and stamps of the groups whose rails are about to go down: anchors only on an orderly power-down (R58, R108). -/
def groupsBeforeDown (s : State) (anchors : Bool) : State :=
  (List.range 9).foldl (fun (s : State) g =>
    if (s.qg g).railsUp then (if anchors && (s.qg g).inService then s.rewriteAnchors g else s).stampPowered g else s) s

/-- Every group's rails are down. -/
def groupsOff (s : State) : State := s.setMed { s.med with groups := Tab.mapVals {} (fun _ g => { g with railsUp := false }) s.med.groups }

/-- Every rail goes down and the main domain with it (R186 OFF and CYCLE, R433); `fast` after a loss of the input. -/
def powerDown (s : State) (r : Reaction) (fast : Bool) : State :=
  let orderly := s.bench.triggers &&& ~~~(codeMask [9, 10]) == 0 && s.bench.triggers != 0
  let s1 := (s.groupsBeforeDown (orderly && !fast)).writeFloor orderly
  let s2 := s1.writeDeadline.mainReset.groupsOff
  let s3 := (s2.setPsq { s2.psq with
    down := some r, backoff := false, warm := false, flashHold := none, burst := none
    waiting := { s2.psq.waiting with off := false, keepEnter := false, keepLeave := false } }).setPState .poweringDown
  if fast then s3.fastDown.offDone
  else if s3.allOff (BitVec.allOnes 24) then s3.offDone
  else s3.startDown .powerDown (BitVec.allOnes 24)

/-! ### Warm reset and KEEP -/

/-- The rails that KEEP takes down: those of KEEP OFF and BURST (Table 17-1). -/
def keepRailsSet (s : State) : BitVec 24 := railsWhere (fun k => (s.seq k).keep != 1) &&& s.enabledRails

/-- A warm reset holds the main domain in reset (R200, R440): a device in or entering KEEP leaves it, and its rails come up again. -/
def warmReset (s : State) : State :=
  let s1 := s.mainReset
  let s2 := s1.setPsq { s1.psq with warm := true, flashHold := none, burst := none, waiting := { s1.psq.waiting with keepEnter := false } }
  match s2.psq.pstate with
  | .idle => s2.setPState .active
  | .keep | .enteringKeep => (s2.setPState .leavingKeep).startUp .keepLeave s2.keepRailsSet
  | _ => s2

/-- The drain of a KEEP entry has committed (Table 17-7, steps 5 to 7): host ports stop, the bench enters self-refresh, anchors are
rewritten, and the KEEP OFF and BURST rails go down. -/
def keepRails (s : State) : State :=
  let s1 := (((s.macsDown.cxlDown.tandemDown).dramSleep).groupsBeforeDown true)
  let s2 := (List.range 9).foldl (fun (s : State) g => if (s.qg g).railsUp then s.railsDownGroup g else s) s1
  s2.startDown .keepDown s2.keepRailsSet

/-! ### Reactions -/

/-- The reaction runs (R186). After triggers 1 and 2 the rails fall as a fast power-down (R446). -/
def carryOut (s : State) (r : Reaction) : State :=
  match r with
  | .keep => s.keepRails
  | .warm => s.warmReset
  | r => s.powerDown r (s.bench.triggers &&& codeMask [1, 2] != 0)

/-- The reaction runs, or is held while the flash programs or erases (R418): a warm reset always, the rails of triggers 3, 5, 7 and 10
unless a trigger 1, 2 or 6 was taken too. A held suspended operation resumes. -/
def react (s : State) (r : Reaction) : State :=
  let busy := s.flash.state != .idle
  let t := s.bench.triggers
  let holds := r == .warm || (r != .keep && t &&& codeMask [3, 5, 7, 10] != 0)
  if busy && holds && t &&& codeMask [1, 2, 6] == 0 then
    let s1 := (s.setPsq { s.psq with flashHold := some r }).setFlash { s.flash with state := .held }
    (s1.setWdg { s1.wdg with hold := true }).cause Reg.WDG_CAUSE 0 2 418
  else s.carryOut r

/-- The held reaction runs once the flash operation has ended or been cut. -/
def holdOver (s : State) : State :=
  match s.psq.flashHold with
  | none => s
  | some r =>
    let s1 := s.setPsq { s.psq with flashHold := none }
    (s1.setWdg { s1.wdg with hold := false }).carryOut r

/-- A trigger is noted: its code, and the most severe reaction so far (R187). -/
def noteTrigger (s : State) (code : Nat) : State :=
  let b := s.bench
  s.setBench { b with
    trigger := if b.triggers = 0 then code else b.trigger, triggers := b.triggers ||| BitVec.twoPow 16 code
    reaction := max b.reaction (triggerReaction code).code }

/-- A drain trigger is taken (R186 to R188, Table 8-4). With the domain OPEN a drain starts, at once or after the orderly steps; in a drain
the trigger is recorded; once drained, or on rails already going down, it can make the reaction more severe; with the domain not open its
reaction runs without a drain. -/
def takeTrigger (s : State) (code : Nat) : State :=
  let r := triggerReaction code
  match s.psq.down with
  | some d => s.setPsq { s.psq with down := some (d.worst r) }
  | none =>
    match s.bench.domain with
    | .opened =>
      let s1 := s.noteTrigger code
      let flushing := s.bench.drain.isSome
      if !orderlyCode code then s1.startDrain code false
      else if flushing then s1
      else ((s1.setBench { s1.bench with drain := some { flush := true, first := code, start := s1.tally.now } }).startLeave code).flushKick
    | .draining => s.noteTrigger code
    | .drained =>
      let s1 := s.noteTrigger code
      match s.psq.flashHold with
      | some h =>
        if s1.bench.triggers &&& codeMask [1, 2, 6] != 0 then
          (s1.setPsq { s1.psq with flashHold := some (h.worst r) }).holdOver
        else s1.setPsq { s1.psq with flashHold := some (h.worst r) }
      | none => if s.bench.reaction < r.code then s1.react r else s1
    | _ =>
      match s.psq.flashHold with
      | some h =>
        let s1 := (s.noteTrigger code).setPsq { s.psq with flashHold := some (h.worst r) }
        if s1.bench.triggers &&& codeMask [1, 2, 6] != 0 then s1.holdOver else s1
      | none => (((s.setBench { s.bench with trigger := 0, triggers := 0, reaction := 0 }).noteTrigger code)).react r

/-! ### The drain's end (R189 to R194) -/

/-- CRC-32 over the plaintext index frames of a drain, in order (Table 8-8). -/
def indexCrc (s : State) (v : Descriptor) (moved : List DrainFrame) : Word :=
  crc32 ((drainItems v).flatMap fun it => match it with
    | .index f => lineBytes (s.drainData v moved (.index f))
    | _ => [])

/-- Steps 7 to 9 of Table 8-5: the descriptor commits, unless frames were left without a die (R193), the event record is written, DRAIN_DONE
goes high, and the reaction runs. -/
def drainEnd (s : State) (g : Drain) : State :=
  let v := s.desc g.half
  let us := usBetween g.start s.tally.now
  let s1 := if g.lost then s
    else s.setDesc g.half { v with state := .committed, triggers := s.bench.triggers, duration := us, indexCrc := s.indexCrc v g.moved, moved := g.moved }
  let s2 := s1.record Config.codeDrain 0x3FF (BitVec.ofNat 32 (s1.bench.triggers.toNat + us * 65536))
  let s3 := s2.setBench { s2.bench with
    domain := .drained, drain := none, last := if g.lost then s2.bench.last else (us, (drainItems v).length) }
  ((s3.setPsq { s3.psq with drainDone := true }).judgeBench).react (Reaction.ofCode s3.bench.reaction)

/-! ### Power-up and requests (R438, R446) -/

/-- The wake request is withdrawn (R64). -/
def wakeWithdraw (s : State) : State :=
  (s.setTally { s.tally with reqLow := false }).setBit Reg.TLY_WAKE_CTRL 0 9 false

/-- A power-up starts (Table 1-6, step 1): nothing is held down any more, and the filtered drops are cleared. -/
def powerUp (s : State) : State :=
  let s1 := s.wakeWithdraw
  let s2 := (List.range 24).foldl (fun (s : State) k => (s.railHeld k false).setRail k { s.rail k with glitches := 0 }) s1
  let s3 := s2.setPsq { s2.psq with
    waiting := { s2.psq.waiting with on := false, off := false }, offByInput := false, groupsDown := 0, heldGroups := 0, attempt := 0 }
  (((s3.judgeGroupDown).setPState .poweringUp).startUp .powerUp s3.enabledRails)

/-- An on request that waits is taken once T_OFF_MIN and a thermal hold have passed and the input is good (R428, R446, R447). -/
def tryOn (s : State) : State :=
  if s.psq.waiting.on && s.psq.pstate == .dormant && !s.psq.coolOff && !s.psq.tripHold && s.psq.inputGood then s.powerUp else s

/-- The device leaves KEEP (Table 17-8): the control domain comes out of retention, routes are written again, the bench wakes, and the rails
that KEEP took down come up. A burst goes on as its group's powered pass (R445). A deadline that still stands raises source 158 (R62). -/
def keepLeave (s : State) : State :=
  let s0 := s.wakeWithdraw
  let s1 := (s0.setPsq { s0.psq with mainUp := true, burst := none }).setPState .leavingKeep
  let s2 := { s1 with evt := { s1.evt with pend := s1.evt.aonPend } }
  let s3 := (s2.setFlash { s2.flash with cores := .running }).wdgStart.routesRestore
  let s4 := s3.dramWake.cxlPortsStart.judgeMain
  (if s4.evt.raw.getLsbD 158 then s4.deadlineMark else s4).startUp .keepLeave s3.keepRailsSet

/-- An on request (Table 17-5); in DORMANT it withdraws a wake request at once, whatever it has to wait for (R64). From LOCKOUT only PB_N brings the device up, which its command handles. -/
def onRequest (s : State) : State :=
  match s.psq.pstate with
  | .dormant => (s.wakeWithdraw.setPsq { s.psq with waiting := { s.psq.waiting with on := true } }).tryOn
  | .poweringDown => (s.setPsq { s.psq with waiting := { s.psq.waiting with on := true } }).crossed
  | .keep => s.keepLeave
  | .enteringKeep => (s.setPsq { s.psq with waiting := { s.psq.waiting with keepLeave := true } }).crossed
  | _ => s

/-- With an off request waiting, the rails go down once none is still being qualified (Table 17-9). -/
def offCheck (s : State) : State :=
  match s.psq.trans with
  | some t =>
    if s.psq.waiting.off && !t.goingDown &&
        (List.range 24).all fun k => !t.rails.getLsbD k || ((s.rail k).state != .ramp && (s.rail k).state != .qual) then
      s.powerDown .off false
    else s
  | none => s

/-- An off request, or a forced off (Table 17-5, Table 17-9). -/
def offRequest (s : State) (forced : Bool) : State :=
  let code := if forced then 3 else 10
  match s.psq.pstate with
  | .active | .idle => (s.setPState .poweringDown).takeTrigger code
  | .keep =>
    let s1 := if s.psq.burst.isSome then s.crossed else s
    (s1.setBench { s1.bench with trigger := code, triggers := BitVec.twoPow 16 code, reaction := 3 }).react .off
  | .enteringKeep => s.crossed.takeTrigger code
  | .poweringUp | .leavingKeep =>
    let s1 := s.crossed
    if s1.psq.backoff || s1.psq.trans.isNone then s1.powerDown .off false
    else (s1.setPsq { s1.psq with waiting := { s1.psq.waiting with off := true } }).offCheck
  | _ => s

/-- A KEEP_ENTER request (R438, R443): entry starts from ACTIVE and IDLE; on the way up it is held. -/
def keepEnter (s : State) : State :=
  match s.psq.pstate with
  | .active | .idle => (s.setPState .enteringKeep).takeTrigger 9
  | .poweringUp | .leavingKeep => (s.setPsq { s.psq with waiting := { s.psq.waiting with keepEnter := true } }).crossed
  | _ => s

/-- A KEEP_LEAVE request (Table 17-5). -/
def keepLeaveRequest (s : State) : State := s.onRequest

/-- ACTIVE is reached: held slot firings run, and a held KEEP_ENTER is taken (R56, R438). -/
def reachActive (s : State) : State :=
  let s1 := (s.setPState .active).runHeld
  if s1.psq.waiting.keepEnter then (s1.setPsq { s1.psq with waiting := { s1.psq.waiting with keepEnter := false } }).keepEnter else s1

/-- KEEP is entered (Table 17-7, step 8): floor and deadline are written, the control domain goes into retention, and the domain is CLOSED
and empty. Requests that crossed the entry are taken. -/
def keepDone (s : State) : State :=
  let s1 := (((s.writeFloor true).writeDeadline).benchReset.sourcesLost).evtDown
  let s2 := (s1.setFlash { s1.flash with cores := .retention }).wdgPause
  let s3 := (s2.setPsq { s2.psq with mainUp := false, throttle := false }).level Reg.PSQ_CAUSE 0 7 359 128 false
  let s4 := s3.setPState .keep
  if s4.psq.waiting.keepLeave then (s4.setPsq { s4.psq with waiting := { s4.psq.waiting with keepLeave := false } }).keepLeave else s4

/-- What the last drain left is looked at when KEEP ends (R172, R198): a drain that carried no line needs no replay, so that the domain opens in
the same step; any other is replayed. -/
def keepOpen (s : State) : State :=
  let v := s.newerDesc
  if v.state == .committed && v.lines.isEmpty then
    let s1 := s.setDesc v.half { v with state := .replayed }
    (s1.setBench { s1.bench with replayed := true }).tryOpen
  else s.replayChoose

/-! ### KEEP bursts (R163, R444) -/

/-- The rails of a burst: the BURST slots of GROUP MEDIUM_IO and the group's MG slot. -/
def burstRails (s : State) (g : Nat) : BitVec 24 :=
  railsWhere fun k => ((s.seq k).group == 4 && (s.seq k).keep == 2) || k == s.groupSlot g

/-- A burst starts for a group that waits for one: the control domain comes out of retention, the group's dies are to be calibrated, and its rails
come up. Bursts of different groups never overlap. -/
def burstNext (s : State) : State :=
  match s.psq.pstate, s.psq.trans, s.psq.burst, (List.finRange 9).find? (fun (g : Fin 9) => (s.pass g.val).waiting) with
  | .keep, none, none, some g =>
    let v := s.pass g
    let s0 := match v.slot with
      | some k => (s.slotRecord k .done).setPass g { v with slot := none }
      | none => s
    let s1 := (s0.setPsq { s0.psq with burst := some g }).setFlash { s0.flash with cores := .running }
    let s2 := s1.wdgStart
    let s3 := (s2.calDies g).foldl (fun s d => s.setDie d { s.die d with calDue := true }) s2
    s3.startUp (.burst g) (s3.burstRails g)
  | _, _, _, _ => s

/-- A burst is over once its rails are down: the control domain returns to retention, and the next one starts. -/
def burstOver (s : State) : State :=
  let s1 := (s.setPsq { s.psq with burst := none }).setFlash { s.flash with cores := .retention }
  s1.wdgPause.burstNext

/-! ### What the end of a transition means -/

/-- A channel's OFFLINE is taken back (R88). -/
def onlineChan (s : State) (n : Nat) : State :=
  let q := s.qc n
  (s.setBit Reg.QC_CTRL n 3 false).setQc n { q with offline := false, offWait := false }

/-- Every rail of an upward transition is qualified. -/
def upDone (s : State) (t : Trans) : State :=
  let s1 := s.setPsq { s.psq with trans := none, reaction := 0 }
  match t.kind with
  | .powerUp =>
    let s2 := s1.setPsq { s1.psq with attempt := 0 }
    (if s2.psq.mrLow then s2.setPsq { s2.psq with warm := true } else if s2.psq.warm then s2 else s2.mainRelease).groupsUp.reachActive
  | .keepLeave => (s1.setPsq { s1.psq with attempt := 0 }).groupsUp
  | .burst g => s1.groupUp g
  | .retry k =>
    let s2 := if (s1.seq k).group = 1 then s1.ddrReturn else s1
    ((if (s2.seq k).group = 3 then s2.cxlPortsStart else s2).groupsUp).tryOpen
  | .groupUp g =>
    let s2 := s1.railHeld (s1.groupSlot g) false
    let s3 := (s2.setPsq { s2.psq with groupsDown := s2.psq.groupsDown &&& ~~~(BitVec.twoPow 9 g) }).judgeGroupDown
    ((List.range 16).foldl (fun s k => s.onlineChan (16 * g.val + k)) s3).groupUp g
  | _ => s1

/-- Every rail of a downward transition is off: a failed attempt waits for its backoff or, its retries exhausted, ends in LOCKOUT (R434); a rail
retry, and a group that returns, come up again; a KEEP entry goes on by its own command. -/
def downDone (s : State) (t : Trans) : State :=
  let s1 := s.setPsq { s.psq with trans := none }
  let spent := decide (s.fld Reg.PSQ_CFG 0 2 0 < s.psq.attempt)
  match t.kind with
  | .powerUp =>
    if s.psq.waiting.off then s1.powerDown .off false
    else if spent then s1.offDone else s1.setPsq { s1.psq with backoff := true }
  | .keepLeave =>
    if s.psq.waiting.off || spent then s1.powerDown .off false else s1.setPsq { s1.psq with backoff := true }
  | .powerDown => s1.offDone
  | .burst _ | .burstDown => s1.burstOver
  | .retry k => s1.startUp (.retry k) t.rails
  | .groupUp g => s1.startUp (.groupUp g) t.rails
  | .groupDown =>
    let s2 := (List.range 24).foldl (fun (s : State) k =>
      if t.rails.getLsbD k then s.setRail k { s.rail k with state := .down } else s) s1
    s2.setPsq { s2.psq with reaction := 0 }
  | _ => s1

/-- A downward transition whose last rail is off ends; an upward one whose last rail is qualified ends. -/
def transCheck (s : State) : State :=
  match s.psq.trans with
  | none => s
  | some t =>
    if t.goingDown then (if s.allOff t.rails then s.downDone t else s)
    else if s.allRails t.rails .on then s.upDone t else s.offCheck

/-! ### Rails that fail (R434, R436, R437) -/

/-- What a block loses as its rails go down (Table 17-4). -/
def railsLost (s : State) (set : BitVec 24) : State :=
  (List.range 24).foldl (fun (s : State) k =>
    if !set.getLsbD k then s
    else match (s.seq k).group with
      | 1 => s.setDram { s.dram with st := if s.dram.st == .unconfigured then .unconfigured else .training }
      | 2 => s.macsDown
      | 3 => s.cxlDown.tandemDown
      | 5 => match s.slotGroup k with
        | some g =>
          if (s.qg g).railsUp then s.railsDownGroup g else s
        | none => s
      | _ => s) s

/-- GROUP_OFF for rail `k` (Tables 17-3 and 17-4); `also` are rails of a reaction it displaces. -/
def groupOff (s : State) (k : Nat) (also : BitVec 24) : State :=
  let grp := (s.seq k).group
  let set : BitVec 24 := also ||| if grp = 5 then BitVec.twoPow 24 k
    else withDependents s.psq.seqAct 24 (railsWhere fun j => (s.seq j).en && (s.seq j).group == grp)
  let s1 := (List.range 24).foldl (fun (s : State) j => if set.getLsbD j then s.railHeld j true else s) (s.railsLost set)
  let s2 := s1.setPsq { s1.psq with
    reaction := 2
    groupsDown := if grp = 5 then (match s1.slotGroup k with
      | some g => s1.psq.groupsDown ||| BitVec.twoPow 9 g
      | none => s1.psq.groupsDown) else s1.psq.groupsDown
    heldGroups := if grp = 5 then s1.psq.heldGroups else s1.psq.heldGroups ||| BitVec.twoPow 8 grp }
  (s2.judgeGroupDown.startDown .groupDown set).transCheck

/-- A rail fails in an upward transition (R432, R434, R437). -/
def railFail (s : State) (k : Nat) : State :=
  let s1 := s.setRail k { s.rail k with state := .failed }
  match s1.psq.trans with
  | none => s1
  | some t =>
    match t.kind with
    | .powerUp | .keepLeave =>
      if s1.psq.waiting.off then s1.offCheck
      else
        let s2 := (s1.setPsq { s1.psq with attempt := s1.psq.attempt + 1 }).cause Reg.PSQ_CAUSE 0 1 353
        (s2.startDown t.kind t.rails).transCheck
    | .burst _ => (s1.startDown .burstDown t.rails).transCheck
    | .retry j =>
      let s2 := s1.lastFault j 2 (s1.railRetry j) true
      if (s2.seq j).group = 1 then (s2.setPsq { s2.psq with trans := none }).takeTrigger 5 else s2.groupOff j t.rails
    | .groupUp _ => (s1.startDown .groupDown t.rails).transCheck
    | _ => s1

/-- The reaction to a fault of the running rail `k` (R436, R437, Table 17-3). -/
def railReact (s : State) (k : Nat) : State :=
  let count := s.railRetry k
  let (eff, esc) := effectiveReaction (s.seq k).group (s.railReaction k) (s.rail k).retries.toNat count
  let s1 := (s.lastFault k eff count esc)
  let s2 := s1.deviceRecord (328 + k) (s1.reg Reg.PSQ_LAST_FAULT)
  let busy := s2.psq.trans.isSome
  let s3 := if busy then s2.crossed else s2
  if eff = 3 then s3.takeTrigger 5
  else if eff = 0 || (busy && decide (eff ≤ s3.psq.reaction)) then s3
  else
    let old : BitVec 24 := (s3.psq.trans.map Trans.rails).getD 0
    if eff = 2 || busy then s3.groupOff k old
    else
      let set := withDependents s3.psq.seqAct 24 (BitVec.twoPow 24 k)
      let s4 := s3.setRail k { s3.rail k with retries := (s3.rail k).retries + 1 }
      ((((s4.railsLost set).setPsq { s4.psq with reaction := 1 })).startDown (.retry (Fin.ofNat 24 k)) set).transCheck

/-! ### The input (R428, R446) -/

/-- Input collapse: the transition is abandoned, hardware writes one entry, and every rail goes down fast. -/
def inputCollapse (s : State) : State :=
  let s1 := (s.cause Reg.PSQ_CAUSE 0 2 354).deviceRecord 354 0
  let s2 := (s1.setPsq { s1.psq with trans := none, backoff := false, offByInput := true, attempt := 0, down := none })
  (s2.setBench { s2.bench with trigger := 0, triggers := 0, reaction := 0 }).powerDown .off true

/-- The input stops being good, by PWR_FAIL_N (trigger 1) or VIN_SENSE (trigger 2). -/
def inputBad (s : State) (code : Nat) : State :=
  let s1 := (s.setPsq { s.psq with inputGood := false, pwrFailLow := s.psq.pwrFailLow || code == 1 }).judgeInput
  let mark (s : State) : State := s.setPsq { s.psq with offByInput := true }
  match s1.psq.pstate with
  | .dormant => s1
  | .keep | .lockout => s1.inputCollapse
  | _ =>
    if s1.bench.domain == .opened || s1.bench.domain == .draining then (mark s1).takeTrigger code
    else if s1.psq.trans.isSome || s1.psq.backoff then s1.inputCollapse
    else (mark s1).takeTrigger code

end State

end Sys2Proof.Machine
end

