-- ==== Sys2Proof/Machine/Power.lean ====
section
/-! DEFINITION. The meanings of the supervisor's events (chapter 17), of the drain triggers and the drain's end (chapter 8), and of the
watchdog's second stage and the warm reset (chapter 16). -/

namespace Sys2Proof.Machine

/-! ### Drain triggers and the drain's end -/

/-- PWR_FAIL_N (R186): low for 100 ns, trigger 1, or input collapse (R446). -/
def execPwrFailN (s : State) : Res := .next (if s.psq.vaon then s.inputBad 1 else s)

/-- VIN_SENSE (R186): below its falling threshold for 1 µs, trigger 2, or input collapse (R446). -/
def execVinSense (s : State) : Res := .next (if s.psq.vaon then s.inputBad 2 else s)

/-- DRAIN_COMPLETE (R189): the drain programs have ended, or no die is left for those that have not (R193). -/
def execDrainComplete (s : State) : Res :=
  match s.bench.domain, s.bench.drain with
  | .draining, some g => .next (if g.lost || g.frames.isEmpty then s.drainEnd g else s)
  | _, _ => .next s

/-- ORDERLY_FLUSH_COMPLETE (R188): everything is acknowledged and written back, and the orderly drain starts. -/
def execOrderlyFlushComplete (s : State) : Res :=
  match s.bench.domain, s.bench.drain with
  | .opened, some g => .next (if g.flush && s.flushOver then s.startDrain g.first true else s)
  | _, _ => .next s

/-! ### VAON and the input -/

/-- The registers of the always-on domain that outlive VAON: PSQ_CTRL, the rail group map and the wake deadline, which are NV records. -/
def nvOffset (off : Nat) : Bool :=
  off == Reg.PSQ_CTRL.at 0 || off == Reg.PSQ_MGMAP0.at 0 || off == Reg.PSQ_MGMAP1.at 0 || off == Reg.PSQ_MGMAP_ACT0.at 0 ||
    off == Reg.PSQ_MGMAP_ACT1.at 0 || off == Reg.TLY_WAKE_DEADLINE_LO.at 0 || off == Reg.TLY_WAKE_DEADLINE_HI.at 0

/-- VAON_POWER_UP (R427, R50, R57, R407): the always-on domain starts; TLY_NOW starts at the floor, UNTRUSTED; slots are restored and the armed
ones marked; buckets are full; with AUTO_ON an on request is taken. -/
def execVaonPowerUp (s : State) : Res :=
  if s.psq.vaon then .next s
  else
    let s0 := { s with
      regs := s.regs.filter fun p => nvOffset p.1
      csr := {}, evt := {}
      tally := { now := s.tally.floor.tally, floor := s.tally.floor, stamps := s.tally.stamps }
      sched := { slots := s.sched.saved, saved := s.sched.saved
                 marked := s.sched.saved.foldl (fun (m : BitVec 256) (p : Nat × Slot) => if p.2.arm then m ||| BitVec.twoPow 256 p.1 else m) 0 }
      evr := { s.evr with archiving := false, buckets := Tab.mapVals {} (fun _ b => { b with
        tokens := b.burst.toNat + 1, suppressed := 0 }) s.evr.buckets }
      wdg := {}
      psq := { vaon := true, seqSh := s.psq.seqSh, seqAct := s.psq.seqAct, mrLow := s.psq.mrLow, pbLow := s.psq.pbLow
               pwrFailLow := s.psq.pwrFailLow } }
    let s1 := ((s0.wstampAdvance).cause Reg.PSQ_CAUSE 0 13 365).judgeInput
    .next (if s1.bit Reg.PSQ_CTRL 0 0 then s1.onRequest else s1)

/-- VAON_LOSS (R63): everything that VAON and the rails keep is lost; the NV store and the medium stay. -/
def execVaonLoss (s : State) : Res :=
  if !s.psq.vaon then .next s
  else
    let s1 := s.mainReset.groupsOff
    .next { s1 with
      csr := {}, evt := {}, wdg := {}
      psq := { seqSh := s1.psq.seqSh, seqAct := s1.psq.seqAct, mrLow := s1.psq.mrLow, pbLow := s1.psq.pbLow, pwrFailLow := s1.psq.pwrFailLow } }

/-- INPUT_GOOD (R428): waiting on requests are taken, an off that the input caused is undone (Table 17-5), and the domain may open (R172). -/
def execInputGood (s : State) : Res :=
  if !s.psq.vaon || s.psq.inputGood then .next s
  else
    let s1 := (s.setPsq { s.psq with inputGood := true, pwrFailLow := false }).judgeInput
    .next ((if s1.psq.pstate == .dormant && s1.psq.offByInput then s1.onRequest else s1.tryOn).tryOpen)

/-! ### Rails -/

/-- RAIL_START (R432): DELAY after its dependencies qualified, the rail's enable goes high. -/
def execRailStart (k : Fin 24) (s : State) : Res := .next (s.railStart k)

/-- A rail is being qualified in an upward transition. -/
def qualifying (s : State) (k : Nat) : Bool :=
  (match s.psq.trans with
    | some t => !t.goingDown && t.rails.getLsbD k
    | none => false) && ((s.rail k).state == .ramp || (s.rail k).state == .qual)

/-- RAIL_QUALIFIED (R432): PG has stayed high for T_PGQ. -/
def execRailQualified (k : Fin 24) (s : State) : Res :=
  .next (if qualifying s k then (s.setRail k { s.rail k with state := .on, pg := true }).transCheck else s)

/-- RAIL_RAMP_TIMEOUT (R432): not qualified within RAMP of its start. -/
def execRailRampTimeout (k : Fin 24) (s : State) : Res :=
  .next (if qualifying s k then (s.railCause k 0).railFail k else s)

/-- RAIL_PG_DROP (R432): a drop restarts T_PGQ and counts toward CHATTER; during a power-down it is recorded (Table 17-9). -/
def execRailPgDrop (k : Fin 24) (s : State) : Res :=
  if qualifying s k then
    let r := s.rail k
    let s1 := s.setRail k { r with state := .qual, pg := true, drops := r.drops + 1 }
    .next (if (s.seq k).nChat < r.drops + 1 then (s1.railCause k 1).railFail k else s1)
  else .next (if s.psq.down.isSome && (s.rail k).en then s.crossed.deviceRecord (328 + k.val) 0 else s)

/-- SEQ_RETRY_BACKOFF_EXPIRY (R434): the transition starts again. -/
def execSeqRetryBackoffExpiry (s : State) : Res :=
  if !s.psq.backoff then .next s
  else
    let s1 := s.setPsq { s.psq with backoff := false }
    .next (match s1.psq.pstate with
      | .poweringUp => s1.startUp .powerUp s1.enabledRails
      | .leavingKeep => s1.startUp .keepLeave s1.keepRailsSet
      | _ => s1)

/-- RAIL_OFF (R433): the rail's PG is low, or RAMP has passed, after its enable fell. -/
def execRailOff (k : Fin 24) (s : State) : Res :=
  let r := s.rail k
  .next (if !r.en && r.pg then
    (s.setRail k { r with pg := false, state := if r.state == .failed || r.state == .down then r.state else .off }).transCheck
  else s)

/-- OFF_DWELL_EXPIRY (R433): with the rails that depend on it off for OFF_DWELL, rail `k` goes down. -/
def execOffDwellExpiry (k : Fin 24) (s : State) : Res :=
  .next (match s.psq.trans with
    | some t => if t.goingDown then (s.lowerRail t.rails k).transCheck else s
    | none => s)

/-- RAIL_FAULT (R436): PG low for 20 samples on a qualified rail. A rail of a transition or of a power-down draws no reaction. -/
def execRailFault (k : Fin 24) (s : State) : Res :=
  let r := s.rail k
  if r.state != .on || !r.en then .next s
  else
    let s1 := (s.setRail k { r with pg := false }).railCause k 2
    let inTrans := match s.psq.trans with
      | some t => t.rails.getLsbD k
      | none => false
    .next (if s.psq.down.isSome then s1.crossed.deviceRecord (328 + k.val) 0
      else if inTrans then s1.deviceRecord (328 + k.val) 0
      else s1.railReact k)

/-- RAIL_GLITCH (R436): a drop shorter than 20 samples is filtered, counted and captured. -/
def execRailGlitch (k : Fin 24) (s : State) : Res :=
  let r := s.rail k
  .next (if r.state == .on && r.en then
    (s.setRail k { r with glitches := if r.glitches = 0xFF#8 then r.glitches else r.glitches + 1 }).railCause k 3
  else s)

/-- RAIL_RETRY_WINDOW_EXPIRY (R437): 600 s without a fault. -/
def execRailRetryWindowExpiry (k : Fin 24) (s : State) : Res := .next (s.setRail k { s.rail k with retries := 0 })

/-- T_OFF_MIN_EXPIRY (R446): a waiting power-up starts. -/
def execTOffMinExpiry (s : State) : Res := .next ((s.setPsq { s.psq with coolOff := false }).tryOn)

/-! ### Buttons and MR_N -/

/-- PB_SHORT (R439): an on request in DORMANT and LOCKOUT, an off request in ACTIVE, IDLE and KEEP. -/
def execPbShort (s : State) : Res :=
  if !s.psq.vaon || !s.bit Reg.PSQ_CTRL 0 2 then .next s
  else
    let s1 := s.cause Reg.PSQ_CAUSE 0 4 356
    .next (match s1.psq.pstate with
      | .dormant => s1.onRequest
      | .lockout => ((s1.setPsq { s1.psq with attempt := 0 }).setPState .dormant).onRequest
      | .active | .idle | .keep => s1.offRequest false
      | _ => s1)

/-- PB_FORCED (R439): a forced off in ACTIVE, IDLE and KEEP, and during entry to KEEP (Table 17-9). -/
def execPbForced (s : State) : Res :=
  if !s.psq.vaon || !s.bit Reg.PSQ_CTRL 0 2 then .next s
  else match s.psq.pstate with
    | .active | .idle | .keep | .enteringKeep => .next ((s.cause Reg.PSQ_CAUSE 0 5 357).offRequest true)
    | _ => .next s

/-- MR_N (R440): low for 10 µs, trigger 4 with the domain OPEN, else a warm reset; ignored in DORMANT and LOCKOUT. The main domain stays in reset
while it is low. -/
def execMrN (low : Bool) (s : State) : Res :=
  let s1 := s.setPsq { s.psq with mrLow := low }
  if !s.psq.vaon || !low || s.psq.mrLow then .next s1
  else match s1.psq.pstate with
    | .dormant | .lockout => .next s1
    | _ => .next ((s1.cause Reg.PSQ_CAUSE 0 6 358).takeTrigger 4)

/-! ### Power states -/

/-- POWER_UP (R19): an on request is taken. -/
def execPowerUp (s : State) : Res := .next (if s.psq.vaon then s.onRequest else s)

/-- IDLE_ENTRY (R442): nothing has arrived for IDLE_DELAY; CXL links enter L1 and idle quarry lanes sleep. -/
def execIdleEntry (s : State) : Res :=
  if s.psq.pstate != .active || !s.psq.mainUp || !s.bit Reg.PSQ_CTRL 0 1 then .next s
  else
    let s1 := s.setPState .idle
    let s2 := (List.finRange 4).foldl (fun (s : State) p => if (s.cport p).st == .l0 then s.setCport p { s.cport p with st := .l1 } else s) s1
    .next ((List.finRange 144).foldl (fun (s : State) (n : Fin 144) =>
      let q := s.qc n
      if q.lstate == .active && q.queue.isEmpty && q.sent.isEmpty && q.unacked == 0 then
        (s.setQc n { q with lstate := .sleep }).emit (.qmiLctl n .sleep)
      else s) s2)

/-- IDLE_EXIT (R442): a host request, packet or slot firing. -/
def execIdleExit (s : State) : Res := .next s.wakeIdle

/-- KEEP_ENTRY (R443): entry to KEEP is taken. -/
def execKeepEntry (s : State) : Res := .next (if s.psq.vaon then s.keepEnter else s)

/-- KEEP_ENTRY_COMPLETE (R443, step 8 of Table 17-7): the rails that KEEP takes down are off. -/
def execKeepEntryComplete (s : State) : Res :=
  .next (if s.psq.pstate == .enteringKeep && s.psq.trans.isNone && s.bench.domain != .opened && s.bench.domain != .draining &&
      s.allOff s.keepRailsSet then s.keepDone else s)

/-- KEEP_LEAVE (R445): KEEP is left. -/
def execKeepLeave (s : State) : Res := .next (if s.psq.vaon then s.keepLeaveRequest else s)

/-- KEEP_LEAVE_COMPLETE (R445, step 8 of Table 17-8): the reference reload has ended. -/
def execKeepLeaveComplete (s : State) : Res :=
  .next (if s.psq.pstate == .leavingKeep && s.psq.trans.isNone && !s.psq.backoff && s.psq.mainUp && s.allRails s.enabledRails .on && s.tablesLoaded then
    (s.keepOpen).reachActive.settleMed else s)

/-- Refreshes, band rewrites and onset moves of a group that can run in KEEP still wait (R163). -/
def State.burstWork (s : State) (g : Nat) : Bool := s.med.yarrow.queue.any fun w =>
  ((s.sett w.lsett).phys.any fun p => dieGroup p.die == g) && !s.satisfied w && (s.startWork w).isSome

/-- KEEP_BURST_END (R163): the pass and what it could refresh are done; due rungs and the anchors are rewritten, and the group's rails go down. -/
def execKeepBurstEnd (s : State) : Res :=
  match s.psq.burst with
  | none => .next s
  | some g =>
    if s.psq.pstate != .keep || s.psq.trans.isSome || (s.pass g).running || (s.pass g).waiting || !s.med.yarrow.moves.isEmpty || s.burstWork g then .next s
    else
      let s1 := if (s.pass g).rungs then (s.groupDies g).foldl (fun s d => s.rewriteRungs d) s else s
      let s2 := (s1.setPass g { s1.pass g with rungs := false }).cause Reg.TSL_CAUSE 0 9 153
      let s3 := ((s2.rewriteAnchors g).writeDeadline).railsDownGroup g
      .next (s3.startDown .burstDown (s3.burstRails g)).transCheck

/-! ### Temperature -/

/-- THROTTLE (R447): a junction reaches 100 °C. -/
def execThrottle (s : State) : Res :=
  .next (if s.psq.mainUp then (s.setPsq { s.psq with throttle := true }).level Reg.PSQ_CAUSE 0 7 359 128 true else s)

/-- THROTTLE_END (R447): every junction is below 97 °C. -/
def execThrottleEnd (s : State) : Res :=
  .next (if s.psq.mainUp then (s.setPsq { s.psq with throttle := false }).level Reg.PSQ_CAUSE 0 7 359 128 false else s)

/-- TRIP (R447): a junction reaches 115 °C: trigger 6, and the next on request waits 60 s from the last rail's going off. -/
def execTrip (s : State) : Res :=
  .next (if s.psq.mainUp && !s.psq.tripHold then
    ((s.setPsq { s.psq with tripHold := true }).cause Reg.PSQ_CAUSE 0 8 360).takeTrigger 6 else s)

/-- TRIP_HOLD_EXPIRY (R447). -/
def execTripHoldExpiry (s : State) : Res :=
  .next (if s.psq.tripHold && s.psq.pstate == .dormant then (s.setPsq { s.psq with tripHold := false }).tryOn else s)

/-! ### Commits of the staged tables -/

/-- PSQ_SEQ_COMMIT (R430). -/
def execPsqSeqCommit (s : State) : Res := .next (if s.psq.vaon then s.seqCommit (.core 0) else s)

/-- PSQ_MGMAP_COMMIT (R431). -/
def execPsqMgmapCommit (s : State) : Res := .next (if s.psq.vaon then s.mapCommit (.core 0) else s)

/-! ### The watchdog's second stage and the warm reset -/

/-- STAGE2 (R417): the second stage expires: source 417 and trigger 8. -/
def execStage2 (s : State) : Res :=
  if s.psq.vaon ∧ s.wdg.stage = .stage2 then
    let s1 := s.cause Reg.WDG_CAUSE 0 1 417
    .next ((s1.setWdg { s1.wdg with stage := .paused, ms := 0 }).takeTrigger 8)
  else .next s

/-- WARM_RESET (R200, R468): the warm reset that was taken has its effect: the main domain and Bench 0 are discarded, the medium rails stay, and
the main domain leaves reset with MR_N high. -/
def execWarmReset (s : State) : Res :=
  if !s.psq.vaon || !s.psq.warm || s.psq.mrLow || s.psq.trans.isSome || s.psq.backoff then .next s
  else match s.psq.pstate with
    | .active => .next s.mainReset.mainRelease.groupsUp
    | .leavingKeep => .next (s.mainReset.mainRelease.groupsUp.setPState .active)
    | _ => .next s

/-- FLASH_HOLD_OVERRUN (R418): the held operation has not ended within its maximum time; it is cut by a flash die reset, and the reaction runs. -/
def execFlashHoldOverrun (s : State) : Res :=
  if s.psq.flashHold.isNone then .next s
  else
    let s1 := ((s.cause Reg.WDG_CAUSE 0 3 419).cause Reg.FLS_CAUSE 0 4 396).emit .flashReset
    .next s1.flashCut.holdOver

end Sys2Proof.Machine
end

