-- ==== Sys2Proof/Machine/CoreOps.lean ====
section
/-! DEFINITION. The control cores' restart (R422), the flash work behind firmware commands (R423), the confirmation of an image (R425), and what
the life cycle and a whole-device erase do to keys and records (R381, R382, R387, R390). -/

namespace Sys2Proof.Machine

namespace State

/-! ### Control-core restart -/

/-- The boot engine loads Mingaso from the active slot (step 3 of R422); a TRIAL image at its third restart is reverted first. With no image to
load a warm reset follows, by trigger 8. -/
def coreLoad (s : State) : State :=
  let s0 := if s.flash.slots.trial && s.flash.slots.restarts == 3 then s.fwRevert else s
  let act := s0.flash.slots.active
  if s0.bootable act s0.arb then
    s0.setFlash { s0.flash with runSlot := act, runCompat := (s0.image act).compat, runVersion := (s0.image act).version }
  else s0.takeTrigger 8

/-- 600 s in Tally units. -/
def tenMin : Nat := 600 * secUnits

/-- A crash dump of 16 KiB goes to the vault (Table 16-5). -/
def crashDump (s : State) : State :=
  let n := s.flash.dumps
  (List.range 68).foldl (fun s k => s.vaultPut 1 (.crash n k)) (s.setFlash { s.flash with dumps := n + 1 })

/-- A control-core restart (R422): 0 an unhandled exception, 1 an uncorrectable error in control-core memory, 2 an activation, 3 Mingaso's own
decision. A third restart not caused by activation within 600 s reverts a TRIAL image that can be reverted, and takes trigger 8 otherwise. -/
def coreRestart (s : State) (cause : Fin 4) : State :=
  if s.flash.cores != .running && s.flash.cores != .recovery then s
  else
    let s1 := (s.bump Reg.FLS_RESTART_CNT 0 31 0).cause Reg.FLS_CORE_CAUSE 0 0 420
    let s2 := if cause = 0 then s1.cause Reg.FLS_CORE_CAUSE 0 1 421 else if cause = 1 then s1.cause Reg.FLS_CORE_CAUSE 0 2 422 else s1
    let s3 := s2.record Config.codeCoreRestart 0x3FF (s2.reg Reg.FLS_CORE_CAUSE)
    let s4 := ((s3.setFlash { s3.flash with cores := .restarting }).wdgPause).emit .coreReset
    if cause = 2 then s4.coreLoad
    else
      let near := s4.flash.restartAt.filter fun t => decide (s4.tally.now.toNat < t.toNat + tenMin)
      let third := decide (2 ≤ near.length)
      let r := s4.flash.slots
      let s5 := s4.crashDump
      let s6 := s5.setFlash { s5.flash with restartAt := if third then [] else s5.tally.now :: near }
      let s7 := if r.trial then s6.putSlots { r with restarts := if r.restarts = 3 then 3 else r.restarts + 1 } else s6
      if third then
        if r.trial && (s7.image (!r.active)).state == .valid then s7.fwRevert.coreLoad else s7.takeTrigger 8
      else s7.coreLoad

/-! ### Firmware work on the flash -/

/-- The partition of a slot. -/
def slotPart (slot : Bool) : FlashPart := if slot then .slotB else .slotA

/-- The partition an operation works on. -/
def opPart : FlashOp → FlashPart
  | .program p _ _ => p
  | .erase p _ => p

/-- Completes a firmware command, where it came over a channel. -/
def fwComplete (s : State) (who : Option (Fin 64 × BitVec 16)) (st : Status) (res : List Word) : State :=
  let s1 := s.setFlash { s.flash with work := none }
  match who with
  | some (c, t) => s1.complete c t st res
  | none => s1

/-- Starts the copy of a recovery image from a slot to BOOT (R423): BOOT_COPY is set, and BOOT is erased and programmed. -/
def bootCopyStart (s : State) (who : Option (Fin 64 × BitVec 16)) (slot : Bool) : State :=
  let len := (s.image slot).len
  let s1 := s.putSlots { s.flash.slots with bootCopy := if slot then 2 else 1 }
  let s2 := s1.setFlash { s1.flash with work := some (.copy who slot), bootGood := false }
  let s3 := (List.range ((len + 65535) / 65536)).foldl (fun s k => s.flashPush (.erase .boot k)) s2
  (List.range ((len + 255) / 256)).foldl (fun s k => s.flashPush (.program .boot k false)) s3

/-- The firmware work goes on as an operation of its partition ends: a failure ends it with INTERNAL and drops what is left of it; with nothing
left a chunk completes, and a copy clears BOOT_COPY, frees its slot and is recorded. -/
def fwStep (s : State) (o : FlashOp) (ok : Bool) : State :=
  let left (p : FlashPart) : Bool := s.flash.ops.any fun q => opPart q == p
  let drop (p : FlashPart) (s : State) : State := (s.setFlash { s.flash with ops := s.flash.ops.filter fun q => opPart q != p }).flashNext
  match s.flash.work with
  | some (.chunk who) =>
    let p := opPart o
    if p != .slotA && p != .slotB then s
    else if !ok then (drop p s).fwComplete who .internal []
    else if left p then s else s.fwComplete who .ok []
  | some (.copy who slot) =>
    if opPart o != .boot then s
    else if !ok then (drop .boot s).fwComplete who .internal []
    else if left .boot then s
    else
      let img := s.image slot
      let s1 := (s.putImage slot {})
      let words := (s.flash.image.filter fun w => decide (slotBase slot / 4 ≤ w.1 ∧ w.1 < (slotBase slot + img.len) / 4)).map fun w =>
        (w.1 - slotBase slot / 4, w.2)
      let rest := s1.flash.image.filter fun w => decide (bootSize / 4 ≤ w.1)
      let s2 := (s1.setFlash { s1.flash with bootGood := true, image := words ++ rest }).putSlots { s1.flash.slots with bootCopy := 0 }
      ((s2.cause Reg.FLS_CAUSE 0 5 397).record Config.codeFwCommitted 0x3FF img.version).fwComplete who .ok []
  | _ => s

/-- The anti-rollback counter follows the SECVER of a confirmed image (R425): `ok` that the OTP bits program; a failure is captured and retried at
the next start-up. -/
def arbFollow (s : State) (ok : Bool) : State :=
  let r := s.flash.slots
  let v := (s.image r.active).secver.toNat
  if r.trial || v ≤ s.sec.arb || (s.image r.active).state != .valid then s
  else if ok then { s with sec := { s.sec with arb := v } }
  else s.cause Reg.LCS_CAUSE 0 3 411

/-! ### Keys and the life cycle -/

/-- The level causes of SEC_CAUSE and LCS_CAUSE (Tables 15-13, 15-15). -/
def judgeSec (s : State) : State :=
  let held := s.sec.slots.any fun p => decide (((s.tally.now >>> 16).setWidth 32 : Word) < p.2.holdUntil)
  let s1 := s.level Reg.SEC_CAUSE 0 0 400 1 s.sec.trngFail
  let s2 := s1.level Reg.SEC_CAUSE 0 1 401 2 (s.sec.slots.any fun p => p.2.state == .erasing)
  let s3 := s2.level Reg.SEC_CAUSE 0 2 402 4 held
  let s4 := s3.level Reg.LCS_CAUSE 0 0 408 1 s.sec.debugOpen
  s4.level Reg.LCS_CAUSE 0 1 409 2 (s.sec.eraseMarker || s.sec.ropErase)

/-- Writes the life-cycle record: the read-out level and the marks (R390, R392). -/
def lifeWrite (s : State) : State :=
  s.nvWrite Config.nvLife [s.sec.rop.val, s.sec.ropErase.toNat, s.sec.eraseMarker.toNat, s.sec.lcMark.elim 0 fun t => t.code + 1]

/-- Channels after a whole-device erase: channel 0 stays, every other assignment and every grant goes (R382). -/
def chansErase (s : State) : State :=
  { s with chans := Tab.mapVals {} (fun c h => if c = 0 then { h with grants := [] } else { agen := h.agen + 1, last := h.last, ops := h.ops }) s.chans }

/-- The whole-device erase (R382): new salts, every key slot EMPTY; the region table, extents and objects, assignments and grants, the pair
binding, the time key and CAKs and the drain descriptors go, and the translation table is formatted anew. -/
def wholeErase (s : State) : State :=
  let s1 := { s with sec := { s.sec with slots := [], salts := s.sec.salts + 1, timeKey := [], sealed := [] } }
  let s2 := s1.chansErase
  let s3 := s2.setXlt { s2.xlt with
    regions := [], objects := [], jrnl := {}, windows := [], orphans := [], loaded := [], freeLoaded := [], pages := [], poolLru := [], promo := [], map := {} }
  let s4 := s3.setMed { s3.med with
    setts := [], young := [], loss := [], yarrow := { cap := s3.med.yarrow.cap, spareBp := s3.med.yarrow.spareBp, twinCap := s3.med.yarrow.twinCap }
    rebuild := [], zones := Tab.mapVals {} (fun _ z => { z with slots := Tab.mapVals {} (fun _ i => { i with alloc := false }) z.slots }) s3.med.zones }
  let s5 := s4.setTwin { s4.twin with binding := none, regions := [] }
  let s6 := { s5 with
    cxl := { s5.cxl with bindings := [], lds := Tab.mapVals {} (fun _ d => { d with dcMap := [], extents := [], offers := [] }) s5.cxl.lds }
    rdma := { s5.rdma with caks := [], wins := [], pds := [], cqs := [] } }
  s6.setBench { s6.bench with lines := [], lru := [], partials := [], scbs := [], runs := [], detectors := [], awaits := [], replay := [], descA := {}, descB := { half := true } }

/-- The actions of an entry to a state whose marker is not yet set (R390, Table 15-8): ROOT and the salts are drawn, protection is raised, debug
closes, or ROOT goes. -/
def entryActions (s : State) : State :=
  match s.sec.lcMark with
  | none => s
  | some t =>
    let c := s.sec
    let c1 : Sec := match t with
      | .maker => { c with root := s.fresh + 1, salts := c.salts + 1 }
      | .fieldOpen => { c with rop := if c.rop = 0 then 1 else c.rop }
      | .fieldLocked => { c with rop := 2 }
      | .ended => { c with root := 0, identity := false }
      | _ => c
    let s1 : State := { s with sec := { c1 with lcMark := none, debugOpen := false } }
    if t = .maker then s1.draw else s1

/-- The actions of a transition (Table 15-8), or of a lowering of read-out protection (R392). They run once the groups are blown. -/
def lifeActions (s : State) : State :=
  let s0 := s.entryActions
  let s1 := if s0.sec.eraseMarker || s0.sec.ropErase then s0.wholeErase else s0
  let s2 := if s1.sec.ropErase then
      let e := s1.setFlash { s1.flash with slots := { a := {}, b := {} }, bootGood := false, pages := [], image := [] }
      ({ e with sec := { e.sec with rop := 0 } }).cause Reg.LCS_CAUSE 0 4 412
    else s1
  (({ s2 with sec := { s2.sec with eraseMarker := false, ropErase := false } }).lifeWrite).judgeSec

/-- ROP_RAISE (R392): level 0 becomes 1. -/
def ropRaise (s : State) : State := if s.sec.rop = 0 then ({ s with sec := { s.sec with rop := 1 } }).lifeWrite else s

/-- The debug port closes (R391). -/
def debugClose (s : State) : State := ({ s with sec := { s.sec with debugOpen := false } }).judgeSec

/-- Groups with some of their bits set are completed at start-up (R387). -/
def groupsRepair (s : State) : State :=
  let g := s.sec.groups
  let part (k : Nat) : Bool := let x := (g >>> (16 * k)).setWidth 16; x != 0#16 && x != 0xFFFF#16
  let full := (List.range 5).foldl (fun (a : BitVec 80) k => if part k then a ||| (0xFFFF#80 <<< (16 * k)) else a) g
  { s with sec := { s.sec with groups := full, repair := (List.range 5).any part } }

/-- Mingaso loads the key store at start-up (R373, R374): every ACTIVE slot without SHARE_REQUIRED; a slot AWAITING_SHARE gets a new key. -/
def keysLoad (s : State) : State :=
  (s.sec.slots.map Prod.fst).foldl (fun (s : State) r =>
    let k := s.keySlot r
    if k.state = .active ∧ !k.shareRequired then { s with sec := { s.sec with slots := Tab.put {} s.sec.slots r { k with loaded := true } } }
    else if k.state = .awaitingShare then
      let id := s.sec.nextKey
      ({ s with sec := { s.sec with nextKey := id + 1 } }).setKeySlot r { k with key := id }
    else s) s

/-- Erasures found under way resume at step 3 (R381): the drained lines of such a region are discarded before. -/
def erasesResume (s : State) : State :=
  let rs := (s.sec.slots.filter fun p => p.2.state == .erasing).map Prod.fst
  if rs.isEmpty then s
  else
    let v := s.newerDesc
    let s1 := s.setDesc v.half { v with discard := rs }
    rs.foldl (fun s r => s.eraseEnd r) s1

end State

/-! ### Meanings -/

/-- FLASH_OP_DONE (R398): the running program or erase ends; a held reset acts before the next operation starts (R418). -/
def execFlashOpDone (ok : Bool) (s : State) : Res :=
  match s.flash.ops with
  | [] => .next s
  | o :: _ => if s.flash.state == .suspended then .next s else .next ((s.flashEnd ok).fwStep o ok).holdOver

/-- CONTROL_CORE_RESTART (R422): 0 exception, 1 memory UE, 2 the activation that FW_ACTIVATE began, 3 a decision of Mingaso. -/
def execControlCoreRestart (cause : Fin 4) (s : State) : Res :=
  let asked := match s.flash.work with
    | some (.activate _) => true
    | _ => false
  .next (if cause = 2 ∧ !asked then s else s.coreRestart cause)

/-- TRIAL_CONFIRM (R425): a TRIAL image has run for 600 s with RESTARTS below 3. `ok` says that the OTP bits program. -/
def execTrialConfirm (ok : Bool) (s : State) : Res :=
  let r := s.flash.slots
  if s.flash.cores != .running || !r.trial || r.restarts == 3 || s.flash.runSlot != r.active then .next s
  else
    let s1 := (s.putSlots { r with trial := false, restarts := 0 }).arbFollow ok
    .next ((s1.cause Reg.FLS_CORE_CAUSE 0 4 424).record Config.codeFwConfirmed 0x3FF ((s1.image r.active).secver.setWidth 32))

end Sys2Proof.Machine
end

