-- ==== Sys2Proof/Machine/Dram.lean ====
section
/-! DEFINITION. The meanings of the DRAM bench's events (chapter 13). -/

namespace Sys2Proof.Machine

namespace State

/-- The bench is up: trained and not asleep. -/
def dramUp (s : State) : Bool := s.dram.st == .ready || s.dram.st == .switching

/-- Errors at the injected address count toward retirement only while COUNTED is 1 (R331). -/
def countsToRetire (s : State) (addr : Nat) : Bool := (s.injectedAt addr).isNone || s.bit Reg.DRM_INJ_CTRL 0 10

/-- A read met the injected error (R331). -/
def injHit (s : State) (addr : Nat) : State := if (s.injectedAt addr).isSome then s.cause Reg.DRM_CAUSE 0 15 271 else s

/-- A correctable error (R326, R333): once per address in the CE cache, counted, toward the rank's window too; past CE_LIMIT the rank is
retired. -/
def dramCe (s : State) (addr : Nat) (held : List DramArray) : State :=
  let a := addr / 64
  let s0 := s.injHit addr
  if s0.dram.ceCache.contains a then s0
  else
    let cache := s0.dram.ceCache ++ [a]
    let s1 := s0.setDram { s0.dram with ceCache := if 64 < cache.length then cache.drop 1 else cache }
    let s2 := (s1.bump Reg.DRM_CE_CNT 0 31 0).cause Reg.DRM_CAUSE 0 8 264
    match s2.benchRank addr with
    | some (c, k) =>
      if s2.countsToRetire addr then
        let r := s2.rank c k
        let s3 := s2.setRank c k { r with window := r.window + 1 }
        if s3.fld Reg.DRM_RETIRE 0 15 0 < r.window + 1 then s3.retireRank c k held else s3
      else s2
    | none => s2

/-- The error of one owner's data (R327, Table 13-3). -/
def dramUe (s : State) (owner : DramArray) : State :=
  let s1 := ((s.bump Reg.DRM_UE_CNT 0 31 0).cause Reg.DRM_CAUSE 0 9 265).dramLost owner
  if owner = .mingaso then s1.coreRestart 3 else s1

/-- DIMMs per channel by the active map. -/
def dpcTwo (s : State) : Bool := s.bit Reg.DRM_MAP_ACT 0 2

/-- The first check a map fails, 0 for none (R324). -/
def mapBad (s : State) : Nat :=
  let w := s.reg Reg.DRM_MAP
  let sets := (1 + bitsOf w 3 3) * (1 + bitsOf w 2 2)
  if s.dram.found ≠ some (BitVec.ofNat 5 (bitsOf w 6 2)) then 1
  else if w.getLsbD 7 && (decide (sets ≤ bitsOf w 9 8) || decide (sets ≤ 1)) then 2
  else if s.dram.st != .unconfigured then 3
  else if bitsOf w 6 5 = 3 ∨ bitsOf w 1 0 = 3 then 4
  else 0

end State

/-! ### Errors -/

/-- DRAM_READ_CE (R326): a read of `addr` finds a correctable error in the rank that serves it (R323); `held` are the arrays of its set, for a
retirement without a spare. -/
def execDramReadCe (addr : Nat) (held : List DramArray) (s : State) : Res :=
  .next (if s.dramUp && (s.benchRank addr).isSome then (s.dramCe addr held).settleMed else s)

/-- CE_CACHE_REWRITE (R326): the scrubber rewrites an address of the CE cache; that write ends an injection there (R331). -/
def execCeCacheRewrite (addr : Nat) (s : State) : Res :=
  let a := addr / 64
  .next (if s.dramUp && s.dram.ceCache.contains a then
    (s.setDram { s.dram with
      ceCache := s.dram.ceCache.erase a, injected := if (s.injectedAt addr).isSome then none else s.dram.injected }).emit (.dram 2 (a * 64))
  else s)

/-- DRAM_UNCORRECTABLE_ERROR (R327): the owner of the data acts, and the rank that serves `addr` is retired. -/
def execDramUncorrectableError (addr : Nat) (owner : DramArray) (held : List DramArray) (s : State) : Res :=
  match s.benchRank addr with
  | some (c, k) =>
    if !s.dramUp then .next s
    else
      let s1 := (s.injHit addr).dramUe owner
      .next (if s.countsToRetire addr then s1.retireRank c k held else s1).settleMed
  | none => .next s

/-- CE_WINDOW_EXPIRY (R333): the rank's window of one hour ends. -/
def execCeWindowExpiry (c : Fin 8) (k : Fin 4) (s : State) : Res := .next (s.setRank c k { s.rank c k with window := 0 })

/-- RANK_COPY_DONE (R333): the spare takes the retired rank's place; lines the copy found uncorrectable are `lost` to their owners; a
retirement that waited goes on. -/
def execRankCopyDone (c : Fin 8) (lost held : List DramArray) (s : State) : Res :=
  match s.rankIn c .copying, s.rankIn c .spare with
  | some k, some j =>
    if s.dram.st != .ready then .next s
    else
      let set := (s.rank c k).set
      let s1 := lost.foldl (fun s a => s.dramUe a) s
      let s2 := ((s1.setRank c j { st := .inService, set := set }).setRank c k { st := .retired, set := set }).cause Reg.DRM_CAUSE 0 10 266
      let s3 := s2.judgeDram
      .next (match (List.range 4).find? fun w => (s3.rank c w).waiting with
        | some w => (s3.setRank c w { s3.rank c w with waiting := false }).retireRank c w held
        | none => s3).settleMed
  | _, _ => .next s

/-- DDR_ALERT_N (R334): a CA parity error; the command is retried once, and a second failure retires the rank. -/
def execDdrAlertN (c : Fin 8) (k : Fin 4) (second : Bool) (held : List DramArray) (s : State) : Res :=
  if !s.dramUp then .next s
  else
    let s1 := s.cause Reg.DRM_CH_CAUSE c 1 (248 + c)
    .next (if second then (s1.retireRank c k held).settleMed else s1.emit (.dram 6 c.val))

/-! ### Scrubbing and injection -/

/-- DRAM_SCRUB_PASS (R329): the background scrubber has passed every valid page. -/
def execDramScrubPass (s : State) : Res :=
  .next (if s.dramUp && s.bit Reg.DRM_CTRL 0 1 then
    (s.setDram { s.dram with scrubPct := 0, scrubEpoch := State.epochOf s.tally.now }).cause Reg.DRM_CAUSE 0 11 267 else s)

/-- A requested scrub starts, for a command or for a write of GO (R330). -/
def State.scrubStart (s : State) (who : Option (Fin 64 × BitVec 16)) : State := s.setDram { s.dram with sreq := some { chan := who } }

/-- DRM_SREQ_GO (R330): ignored while BUSY is 1. -/
def execDrmSreqGo (s : State) : Res := .next (if s.dramUp && s.dram.sreq.isNone then s.scrubStart none else s)

/-- SREQ_DONE (R330): the summary registers are set, and the command that asked completes. -/
def execSreqDone (ce ue : Nat) (first : BitVec 64) (s : State) : Res :=
  match s.dram.sreq with
  | none => .next s
  | some q =>
    let sat (n : Nat) : Word := BitVec.ofNat 32 (min n 0xFFFFFFFF)
    let f : Dword := if ue = 0 then BitVec.allOnes 64 else first
    let s1 := ((s.setReg Reg.DRM_SREQ_CE 0 (sat ce)).setReg Reg.DRM_SREQ_UE 0 (sat ue)).setReg64 Reg.DRM_SREQ_FIRST_UE_LO Reg.DRM_SREQ_FIRST_UE_HI 0 f
    let s2 := (s1.setDram { s1.dram with sreq := none }).cause Reg.DRM_CAUSE 0 12 268
    .next (match q.chan with
      | some (c, t) => s2.complete c t .ok [sat ce, sat ue, f.lo, f.hi]
      | none => s2)

/-- DRAM_SCRUB_BURST_END (R330): the burst ends; in KEEP the bench returns to self-refresh. -/
def execDramScrubBurstEnd (s : State) : Res :=
  if !s.dram.burst then .next s
  else
    let s1 := s.setDram { s.dram with burst := false }
    .next (if s.psq.pstate == .keep then (s1.setDram { s1.dram with st := .selfRefresh }).emit (.dram 0 0) else s1)

/-- DRAM_INJECT_WRITE (R331): an owner writes the burst at `addr`. -/
def execDramInjectWrite (addr : Nat) (s : State) : Res := .next (if s.dramUp then s.burstWritten addr else s)

/-! ### Temperature -/

/-- DIMM_THERMAL_POLL (R322, R332): a DIMM's sensor answers `temp` in °C, or the SPD hub does not answer; three misses in a row set SB_FAIL. -/
def execDimmThermalPoll (d : Fin 16) (temp : Option Nat) (s : State) : Res :=
  if !s.psq.mainUp then .next s
  else
    let c := d.val / 2
    let miss := match temp with
      | some _ => 0
      | none => min 3 (Tab.get 0 s.dram.missed d + 1)
    let hot := match temp with
      | some t => if 85 < t then s.dram.hot ||| BitVec.twoPow 16 d else s.dram.hot &&& ~~~(BitVec.twoPow 16 d)
      | none => s.dram.hot
    let s1 := s.setDram { s.dram with missed := Tab.put 0 s.dram.missed d miss, hot := hot }
    let bad := (List.range 2).any fun j => Tab.get 0 s1.dram.missed (2 * c + j) == 3
    .next (s1.level Reg.DRM_CH_CAUSE c 2 (248 + c) 7 bad).judgeDram

/-! ### The staged groups -/

/-- DRM_MAP_COMMIT (R324): the shadow map takes effect while UNCONFIGURED and the bench trains, or the commit is refused with ERR_CAUSE. -/
def execDrmMapCommit (s : State) : Res :=
  .next (if !s.psq.mainUp then s
  else
    let e := s.mapBad
    if e ≠ 0 then s.setFld Reg.DRM_MAP_COMMIT 0 4 1 (1 + 2 * e)
    else
      let s1 := (s.setFld Reg.DRM_MAP_COMMIT 0 4 1 0).setReg Reg.DRM_MAP_ACT 0 (s.reg Reg.DRM_MAP)
      (s1.trainBench.tryOpen).settleMed)

/-- DRM_FREQ_SWITCH (R335): the switch of Table 13-4 starts, or ERR. -/
def execDrmFreqSwitch (s : State) : Res :=
  let target := s.fld Reg.DRM_TIM_SH 0 1 0
  let zero := (List.range 15).any fun k => s.fld Reg.DRM_TIM_SH (k + 1) 23 0 == 0
  .next (if !s.psq.mainUp then s
  else if (target = 3 ∧ s.dpcTwo) ∨ zero ∨ s.dram.st = .switching then s.setBit Reg.DRM_FREQ 0 1 true
  else if s.dram.st != .ready then s
  else ((s.setBit Reg.DRM_FREQ 0 1 false).setBit Reg.DRM_FREQ 0 2 false).setDram { s.dram with
    st := .switching, prevSpeed := s.dram.speed, newTim := (List.range 16).map fun k => s.reg Reg.DRM_TIM_SH k })

/-- FREQ_SWITCH_DONE (R336): the check read of step 7 ends: traffic resumes at the target, or the controller falls back. -/
def execFreqSwitchDone (ok : Bool) (s : State) : Res :=
  if s.dram.st != .switching then .next s
  else if ok then
    let tim := s.dram.newTim
    let v := bitsOf (tim.getD 0 0) 1 0
    let s1 := (List.range 16).foldl (fun s k => s.setReg Reg.DRM_TIM_ACT k (tim.getD k 0)) s
    let s2 := s1.setDram { s1.dram with
      st := .ready, speed := v, newTim := [], trained := if s1.dram.trained.contains v then s1.dram.trained else v :: s1.dram.trained }
    .next (s2.cause Reg.DRM_CAUSE 0 13 269).settleMed
  else
    let s1 := s.setDram { s.dram with st := .ready, newTim := [] }
    .next ((s1.setBit Reg.DRM_FREQ 0 2 true).cause Reg.DRM_CAUSE 0 14 270).settleMed

end Sys2Proof.Machine
end

