-- ==== Sys2Proof/Machine/Tally.lean ====
section
/-! DEFINITION. The meanings of the Tally's events (chapter 3, R319) and of the schedule slots' firings (R53 to R57, R466, Table 3-5), and of the
SRAM scrubber (R43, R373). -/

namespace Sys2Proof.Machine

namespace State

/-! ### PTP (R46, R319) -/

/-- A MAC runs the PTP clock: there, enabled, up, and set in ETH_PTP_MACS. -/
def ptpOn (s : State) (m : Nat) : Bool := s.macThere m && s.eportOn (m / 4) && (s.mac m).up && s.bit Reg.ETH_PTP_MACS 0 m

/-- The MAC whose master the dataset comparison chooses: the lowest rank, the lowest MAC among equals. -/
def ptpBest (s : State) : Option (Fin 32) :=
  (List.finRange 32).foldl (fun (b : Option (Fin 32)) (m : Fin 32) =>
    if !s.ptpOn m then b
    else match (s.mac m).master, b with
      | none, _ => b
      | some _, none => some m
      | some r, some c => if r < ((s.mac c).master.getD r) then some m else b) none

/-- Chooses the master again. -/
def ptpChoose (s : State) : State := { s with rdma := { s.rdma with ptpMac := s.ptpBest } }

/-- PTP is lost (R46). -/
def ptpLost (s : State) : State := (s.setTally { s.tally with ptpQualified := false, ptpGood := 0 }).selectSource

/-! ### The wake deadline (R61 to R65) -/

/-- The wake deadline. -/
def deadline (s : State) : Nat := (s.reg64 Reg.TLY_WAKE_DEADLINE_LO Reg.TLY_WAKE_DEADLINE_HI).toNat

/-- Source 158 follows the deadline; at its rise in ACTIVE or IDLE the die that sets the earliest deadline is taken first, and its group's pass
starts (R62). -/
def deadlineRise (s : State) : State :=
  let was := s.evt.raw.getLsbD 158
  let s1 := s.judgeDeadline
  if !was && s1.evt.raw.getLsbD 158 && (s1.psq.pstate == .active || s1.psq.pstate == .idle) then
    s1.deadlineMark.settleMed
  else s1

/-- KEEP or DORMANT. -/
def asleep (s : State) : Bool := s.psq.pstate == .keep || s.psq.pstate == .dormant

/-- Steps 1 and 2 of Table 3-8: WAKE_REQ_N goes low. -/
def wakeStart (s : State) : State :=
  ((s.setTally { s.tally with reqLow := true }).setBit Reg.TLY_WAKE_CTRL 0 9 true).pulse 378

/-! ### Slot firings -/

/-- A slot fires, after the due slots of ACTION 0 below it: it brings the device back from IDLE (Table 17-6), and acts by its column. -/
def fires (s : State) (k : Nat) (a : BitVec 4) (act : Column → Slot → State → FireResult × State) : State :=
  if s.nextDue = some k ∧ (s.slot k).action = a then (((s.fireNone k).wakeIdle).fireSlot k a act).ageFollow s else s

/-- A group's burst runs or waits to (R163). -/
def burstAt (s : State) (g : Nat) : Bool := decide (s.psq.burst.map Fin.val = some g)

/-- TEASEL_PASS in KEEP (R163, R444): a burst of each group whose burst neither runs nor waits. The slot records DONE when its burst starts. -/
def keepPass (s : State) (arg : Word) : FireResult × State :=
  let busy (g : Nat) : Bool := (s.pass g).waiting || (s.burstAt g && (s.pass g).running)
  let gs := maskGroups arg
  let slot : Option (Fin 256) := (s.nextDue.filter fun k => !s.sched.marked.getLsbD k).map (Fin.ofNat 256)
  let s1 := (gs.foldl (fun s g => if busy g then s.setPass g { s.pass g with late := (s.pass g).late || (s.pass g).running }
      else s.setPass g { s.pass g with waiting := true, slot := slot }) s).burstNext
  (if gs.any busy then .busy else if !gs.isEmpty && gs.all fun g => (s1.pass g).slot.isSome then .none else .done, s1.judgeTsl)

/-- EYEBRIGHT_CAL in KEEP (R444): within a burst of each group; every burst calibrates its group. -/
def keepCal (s : State) (arg : Word) : FireResult × State :=
  let busy (g : Nat) : Bool := s.burstAt g && (s.calDies g).any fun d => (s.die d).calDue
  let gs := maskGroups arg
  (if gs.any busy then .busy else .done,
    (gs.foldl (fun s g =>
      if busy g then s
      else if s.burstAt g then (s.calDies g).foldl (fun s d => s.setDie d { s.die d with calDue := true }) s
      else s.setPass g { s.pass g with waiting := true }) s).burstNext)

/-- SENTINEL_REWRITE in KEEP (R444): within a burst of each group. -/
def keepRungs (s : State) (arg : Word) : State :=
  ((maskGroups arg).foldl (fun s g =>
    s.setPass g { s.pass g with rungs := true, waiting := (s.pass g).waiting || !s.burstAt g }) s).burstNext

/-- 10 s in Tally units. -/
def tenSec : Nat := 10 * secUnits

/-- DRAM_SCRUB in KEEP (R330): the bench leaves self-refresh, never twice within 10 s. -/
def keepScrub (s : State) : FireResult × State :=
  let soon := match s.dram.lastExit with
    | some t => decide (s.tally.now.toNat < t.toNat + tenSec)
    | none => false
  if s.dram.burst || soon || s.dram.st != .selfRefresh then (.busy, s)
  else (.done, (s.setDram { s.dram with burst := true, st := .ready, lastExit := some s.tally.now }).emit (.dram 1 0))

/-! ### The SRAM scrubber (R43, Table 2-8) -/

/-- An uncorrectable error in the data of a Bench 0 line or a stream buffer's slot: a clean line goes; a dirty one is held for the twin's
copy, or is lost without a twin. -/
def benchDataBad (s : State) (x : Nat) : State :=
  let slot := s.scbSlot x
  let dirty := match s.bline x with
    | some b => isDirty b
    | none => slot.isSome
  if (s.bline x).isNone && slot.isNone then s
  else
    let bufs := s.bench.scbs.map fun b =>
      if b.lsett == lineSett x then { b with slots := b.slots.filter fun k => k.line != lineIdx x } else b
    let s1 := s.setBench { s.bench with scbs := bufs }
    let s2 := s1.dropLine x
    if !dirty then s2
    else if s2.paired then s2.assistAsk .bench (s2.rlineOf x).1 x 1
    else (s2.loseHere x).answerReads x none

/-- Both copies of a journal word fail: the entry it changed is rebuilt from the twin. -/
def journalBad (s : State) (n : Nat) : State :=
  let e := s.sett n
  match e.phys with
  | some q =>
    let s1 := (s.setXlt { s.xlt with orphans := s.xlt.orphans ++ [q] }).setSett n {
      e with phys := some { die := lostDie, zone := 0, slot := 0 }, band := false, mig := .idle }
    s1.setMed { s1.med with rebuild := n :: s1.med.rebuild }
  | none => s

/-- Both copies of a key fail (R373): it is unwrapped again; a region whose key needs its share takes it from a twin that holds the key, and is
LOCKED without one, its dirty lines lost. -/
def keyBad (s : State) (r : Nat) : State :=
  let k := s.keySlot r
  if !k.loaded || (k.state == .active && !k.shareRequired) || (s.paired && !(s.rt r).twinUnfit) then s
  else
    let mine := s.bench.lines.filter fun p => (s.rlineOf p.1).1 == r && (s.region r).valid
    let s1 := mine.foldl (fun (s : State) p => if p.2.any fun b => isDirty b then s.lose r (s.rlineOf p.1).2 0 else s) s
    let s2 := (mine.map Prod.fst).foldl (fun (s : State) x => s.dropLine x) s1
    ({ s2 with sec := { s2.sec with slots := Tab.put {} s2.sec.slots r { k with loaded := false } } }).cause Reg.SEC_CAUSE 0 4 404

/-- The repair of an uncorrectable error in memory `m` of Table 2-8; 8 stands for the key store. `x` names what the word held: a line, a sett, a
QP or a region; `both` that the second copy fails too, or that a context is dirty; `held` the arrays in the pages that byte `x` of the valid map covers (log 140). -/
def sramBad (s : State) (m : Fin 9) (x : Nat) (both : Bool) (held : List DramArray) : State :=
  match m.val with
  | 0 => State.benchDataBad { s with ecc := { s.ecc with part := s.ecc.part.filter (· != x) } } x
  | 1 => s
  | 2 => s.setXlt { s.xlt with cached := s.xlt.cached.erase x }
  | 3 => held.foldl (fun s a => s.dramLost a) (s.pagesGone fun p => p / 8 == x)
  | 4 => if both && (s.qp x).connected then s.qpError x .qpLost 0 else s
  | 5 => s.coreRestart 1
  | 6 => if both then State.journalBad { s with ecc := { s.ecc with jrnl := s.ecc.jrnl.filter (· != x) ++ [x] } } x else s
  | 7 => if both then State.benchDataBad { s with ecc := { s.ecc with part := s.ecc.part.filter (· != x) ++ [x] } } x else s
  | _ => if both then s.keyBad x else s

end State

/-! ### PTP -/

/-- PTP_SYNC (R46, R47, R319): a Sync of the chosen master, with the servo's offset in ns and the time it gives; the eighth within ±1 µs
qualifies PTP, and time is taken from then on. -/
def execPtpSync (m : Fin 32) (offset : Int) (t : Dword) (s : State) : Res :=
  if !s.psq.mainUp || !s.ptpOn m || s.rdma.ptpMac != some m then .next s
  else
    let y := s.tally
    let good := if offset.natAbs ≤ 1000 then min (y.ptpGood + 1) 8 else 0
    let s1 := ({ s with rdma := { s.rdma with ptpOffset := offset } }).setTally { y with
      ptpGood := good, ptpQualified := y.ptpQualified || (good == 8 && !y.ptpHoldoff && !y.ptpOverridden) }
    let s2 := s1.selectSource
    .next ((if s2.tally.source = .ptp then s2.offerTime .ptp .provisional t else s2).ageFollow s)

/-- PTP_ANNOUNCE (R319): a master announces itself on a MAC; `rank` stands for its dataset, lower being better. -/
def execPtpAnnounce (m : Fin 32) (rank : Nat) (s : State) : Res :=
  .next (if s.psq.mainUp && s.ptpOn m then (s.setMac m { s.mac m with master := some rank }).ptpChoose else s)

/-- PTP_ANNOUNCE_TIMEOUT (R46): a MAC's master has missed three Announce intervals; the loss of the chosen one loses PTP. -/
def execPtpAnnounceTimeout (m : Fin 32) (s : State) : Res :=
  let s1 := (s.setMac m { s.mac m with master := none }).ptpChoose
  .next (if s.rdma.ptpMac = some m then s1.ptpLost else s1)

/-- PTP_DELAY_REQ_TIMER (R319): 2^(−DREQ_RATE) s have passed. -/
def execPtpDelayReqTimer (m : Fin 32) (s : State) : Res :=
  .next (if s.psq.mainUp && s.ptpOn m then
    (s.setMac m { s.mac m with dreqSent := true }).emit (.macFrame m 4 (s.fld Reg.ETH_PTP_CTRL 0 7 0)) else s)

/-- PTP_DELAY_RESP (R319): the answer to the Delay_Req that is out gives the path delay, in ns. -/
def execPtpDelayResp (m : Fin 32) (delay : Nat) (s : State) : Res :=
  .next (if (s.mac m).dreqSent && s.ptpOn m then s.setMac m { s.mac m with dreqSent := false, delay := some delay } else s)

/-! ### The other sources -/

/-- TWIN_SYNC_TIMEOUT (R46). -/
def execTwinSyncTimeout (s : State) : Res := .next (s.setTally { s.tally with twinQualified := false }).selectSource

/-- SIGNED_TIME_EXPIRY (R46). -/
def execSignedTimeExpiry (s : State) : Res := .next (s.setTally { s.tally with secQualified := false }).selectSource

/-- PPS_LOCK falls (R46, Table 3-6). -/
def State.ppsLost (s : State) : State :=
  let s1 := s.setTally { s.tally with ppsLock := false, ppsEdges := 0 }
  if s.tally.ppsLock then (s1.pulse 373).selectSource else s1

/-- PPS_LOSS (R46): an edge misses its window. -/
def execPpsLoss (s : State) : Res := .next s.ppsLost

/-- PPS_IN_EDGE (R45, Table 3-1): `good` says that the edge comes 1 s ± 100 µs after the one before. The 64th in a row sets PPS_LOCK. -/
def execPpsInEdge (good : Bool) (s : State) : Res :=
  if !s.psq.vaon || !s.bit Reg.TLY_CTRL 0 3 then .next s
  else if !good then .next s.ppsLost
  else
    let n := min (s.tally.ppsEdges + 1) 64
    .next (s.setTally { s.tally with ppsEdges := n, ppsLock := s.tally.ppsLock || n == 64 }).selectSource

/-- CATCHUP_END (R47): the source time has caught up. -/
def execCatchupEnd (s : State) : Res := .next (s.setTally { s.tally with catchup := false })

/-- EPOCH_BOUNDARY (R50, R58, R61): the floor, the powered stamps of the groups whose rails are up, and the deadline. -/
def execEpochBoundary (s : State) : Res :=
  if !s.psq.vaon then .next s
  else
    let s1 := s.writeFloor false
    let s2 := (List.range 9).foldl (fun (s : State) g => if (s.qg g).railsUp then s.stampPowered g else s) s1
    .next (if s2.psq.mainUp then s2.writeDeadline.deadlineRise else s2)

/-- BELOW_FLOOR_HOLDOFF_EXPIRY (R50): 60 s after a refusal; 0 PTP, 1 signed time, 2 the twin. -/
def execBelowFloorHoldoffExpiry (x : Fin 3) (s : State) : Res :=
  let t := s.tally
  .next (s.setTally (if x = 0 then { t with ptpHoldoff := false } else if x = 1 then { t with secHoldoff := false }
    else { t with twinHoldoff := false })).selectSource

/-- NO_SOURCE (R52, R60): 10 s after acquisition starts with no source; every die goes on its sentinel age with a full sweep. -/
def execNoSource (s : State) : Res :=
  if !s.psq.mainUp || !s.tally.acquiring || s.tally.started then .next s
  else
    let s1 := ((s.setTally { s.tally with started := true }).pulse 374).selectSource
    let s2 := s1.dieIds.foldl (fun (s : State) d =>
      if (s.die d).used && !(s.die d).failed then (s.toSentinel d 0).startSweep d else s) s1
    .next s2.judgeEyb

/-! ### Waking -/

/-- WAKE_DEADLINE_REACHED (R62): TLY_NOW reaches the deadline with the main domain up. -/
def execWakeDeadlineReached (s : State) : Res := .next (if s.psq.mainUp then s.deadlineRise else s)

/-- WAKE_HANDSHAKE_START (R64): in KEEP or DORMANT the deadline is reached and 60 s have passed since the entry. -/
def execWakeHandshakeStart (s : State) : Res :=
  .next (if s.psq.vaon && s.asleep && !s.tally.reqLow && decide (s.deadline ≤ s.tally.now.toNat) &&
    decide (s.tally.entry.toNat + 60 * secUnits ≤ s.tally.now.toNat) then s.wakeStart else s)

/-- WAKE_GRANT (R64): WAKE_GRANT_N low for 16 samples. -/
def execWakeGrant (s : State) : Res :=
  .next (if s.psq.vaon && s.tally.reqLow then ((s.pulse 379).wakeWithdraw).onRequest else s)

/-- WAKE_FORCE_AT_DEADLINE (R65): with FORCE_AT_DEADLINE set, TLY_NOW passes the deadline plus the margin without a grant. -/
def execWakeForceAtDeadline (s : State) : Res :=
  let margin := s.fld Reg.TLY_WAKE_CTRL 0 7 0 * 86400 * secUnits
  .next (if s.psq.vaon && s.asleep && s.tally.reqLow && s.bit Reg.TLY_WAKE_CTRL 0 8 &&
    decide (s.deadline + margin < s.tally.now.toNat) then s.wakeWithdraw.onRequest else s)

/-! ### Slot firings (Table 3-5) -/

/-- TEASEL_PASS (R162, R163). -/
def execTeaselPass (k : Fin 256) (s : State) : Res :=
  .next (s.fires k 1 fun c v s => match c with
    | .active => s.slotPass v.arg
    | .keep => s.keepPass v.arg
    | .dormant => (.held, s))

/-- EYEBRIGHT_CAL (R57, R110): before the tables are ready the power-up calibration satisfies it. -/
def execEyebrightCal (k : Fin 256) (s : State) : Res :=
  .next (s.fires k 2 fun c v s => match c with
    | .active => if s.tablesReady then s.slotCal v.arg else (.done, s)
    | .keep => s.keepCal v.arg
    | .dormant => (.held, s))

/-- NV_FLOOR_WRITE (R50). -/
def execNvFloorWrite (k : Fin 256) (s : State) : Res := .next (s.fires k 3 fun _ _ s => (.done, s.writeFloor false))

/-- WAKE_REQ (R64): no effect in ACTIVE and IDLE. -/
def execWakeReq (k : Fin 256) (s : State) : Res :=
  .next (s.fires k 4 fun c _ s => match c with
    | .active => (.done, s)
    | _ => if s.tally.reqLow then (.busy, s) else (.done, s.wakeStart))

/-- SLOT_KEEP_ENTER (R438): no effect in KEEP and DORMANT. -/
def execSlotKeepEnter (k : Fin 256) (s : State) : Res :=
  .next (s.fires k 5 fun c _ s => (.done, if c = .active then s.keepEnter else s))

/-- SLOT_KEEP_LEAVE (R438): no effect but in KEEP. -/
def execSlotKeepLeave (k : Fin 256) (s : State) : Res :=
  .next (s.fires k 6 fun c _ s => (.done, if c = .keep then s.keepLeaveRequest else s))

/-- DRAM_SCRUB (R330). -/
def execDramScrub (k : Fin 256) (s : State) : Res :=
  .next (s.fires k 7 fun c _ s => match c with
    | .active => s.slotScrub
    | .keep => s.keepScrub
    | .dormant => (.held, s))

/-- RAISE_EVENT (R412): source 376, and one entry with the slot's code, its owner as PRINCIPAL and the owner's AGEN. -/
def execRaiseEvent (k : Fin 256) (s : State) : Res :=
  .next (s.fires k 8 fun _ v s =>
    let agen := if v.owner = 0xFF#8 then 0 else (s.chan v.owner.toNat).agen
    (.done, evtRun evtFuel [.offer false (bitsOf v.arg 15 0) 376 v.owner.toNat 0 agen] (s.pulse 376)))

/-- SENTINEL_REWRITE (R108). -/
def execSentinelRewrite (k : Fin 256) (s : State) : Res :=
  .next (s.fires k 9 fun c v s => match c with
    | .active => (.done, s.slotSentinel v.arg)
    | .keep => (.done, s.keepRungs v.arg)
    | .dormant => (.held, s))

/-! ### SRAM -/

/-- SRAM_SCRUB_VISIT (R43, R373): the scrubber reads a word of memory `m` and finds it good (0), correctable (1) or uncorrectable (2); `last` says
that it ends a full pass. With ECC_SCRUB_CTRL.EN at 0 the scrubber stands, and an error is one that a host or engine access met, which acts all
the same. -/
def execSramScrubVisit (m : Fin 9) (err : Fin 3) (x : Nat) (both : Bool) (held : List DramArray) (last : Bool) (s : State) : Res :=
  if !s.psq.mainUp then .next s
  else
    let scrubs := s.bit Reg.ECC_SCRUB_CTRL 0 0
    let s0 := if scrubs then { s with ecc := { s.ecc with mem := if last then 0 else m.val } } else s
    let src (s : State) : State := if m.val < 8 then s.pulse (432 + m.val) else s
    let s1 := match err.val with
      | 0 => s0
      | 1 => if m.val < 8 then src (s0.bump Reg.ECC_STAT m 15 0) else s0.cause Reg.SEC_CAUSE 0 3 403
      | _ => (src s0).sramBad m x both held
    let s2 := if scrubs && last then s1.pulse 440 else s1
    .next s2.settleMed

end Sys2Proof.Machine
end

