-- ==== Sys2Proof/Machine/Csr.lean ====
section
/-! DEFINITION. Writes of the CSR window (R21 to R33): the access a requester makes, the bus errors it may raise, locks, the posting queue of
the always-on domain, and what a write to each register does. -/

namespace Sys2Proof.Machine

/-- The offset of an access in the whole window (Table 2-1). -/
def AccessKind.window : AccessKind → Nat
  | .primary => 0
  | .set => 0x400000
  | .clear => 0x800000
  | .toggle => 0xC00000

/-- How an access combines its data with the old value (Table 2-1). -/
def AccessKind.combine (k : AccessKind) (old data : Word) : Word :=
  match k with
  | .primary => data
  | .set => old ||| data
  | .clear => old &&& ~~~data
  | .toggle => old ^^^ data

/-- What a value outside a field's range is taken as. -/
def Fix.apply : Fix → Nat → Nat
  | .none, v => v
  | .min1, v => max v 1
  | .clamp lo hi, v => max lo (min v hi)
  | .mask m, v => v &&& m

/-- The ranges that hang on another field of the same register: STOP_24THS above LO_24THS (Table 8-13), LO below HI of YMAP_CFG (Table 5-11)
and of DRM_RT (Table 13-5). -/
def fixPair (base : Nat) (w : Word) : Word :=
  match base with
  | 0x14001C => putBits w 12 8 (max (bitsOf w 4 0 + 1) (bitsOf w 12 8))
  | 0x132034 => if bitsOf w 7 0 ≤ bitsOf w 15 8 then putBits w 15 8 (bitsOf w 7 0 - 1) else w
  | 0x170018 => if bitsOf w 7 0 ≤ bitsOf w 15 8 then putBits w 15 8 (bitsOf w 7 0 - 1) else w
  | _ => w

/-- An 8 B access takes a 64-bit register at its primary address (R25). -/
def BusAccess.wide (a : BusAccess) : Bool :=
  a.size == 8 && a.off % 8 == 0 && a.kind == .primary && (Reg.find a.off).any fun e => e.1.half == .low

/-- An access has a size, an alignment and byte enables that the window takes (R25). -/
def BusAccess.shaped (a : BusAccess) : Bool := a.full && ((a.size == 4 && a.off % 4 == 0) || a.wide)

namespace State

/-- Carries out the meaning of a command that has one outcome, on the state. -/
def ran (s : State) (f : State → Res) : State :=
  match f s with
  | .next t => t
  | _ => s

/-- The lock of a register's RWL fields is set (R32). -/
def regLocked (s : State) (r : Reg) : Bool :=
  match r.lock with
  | some (o, b) => (match Reg.find o with
    | some (q, _) => s.bit q 0 b
    | none => false)
  | none => false

/-- The word a register takes on a write: each field by its type (R22, R30, R32), and whether a locked field was the target (R33). -/
def newWord (s : State) (r : Reg) (old : Word) (kind : AccessKind) (data : Word) : Word × Bool :=
  let locked := s.regLocked r
  let (w, bad) := r.fields.foldl (fun (a : Word × Bool) f =>
    let v := bitsOf (kind.combine old data) f.hi f.lo
    match f.kind with
    | .rw => (putBits a.1 f.hi f.lo (f.fix.apply v), a.2)
    | .rwl =>
      if locked then (a.1, a.2 || kind == .primary || bitsOf data f.hi f.lo != 0)
      else (putBits a.1 f.hi f.lo (f.fix.apply v), a.2)
    | .lock => if kind == .clear then a else (putBits a.1 f.hi f.lo (bitsOf (old ||| data) f.hi f.lo), a.2)
    | _ => a) (old, false)
  (fixPair r.base w, bad)

/-- The WO fields a write triggers: only a primary write does (R22). -/
def triggers (r : Reg) (kind : AccessKind) (data : Word) : Word :=
  if kind == .primary then data &&& r.bitsFor (· == .wo) else 0

/-! ### The channel page (R344 to R348) -/

/-- A word written to MBX_IN (R345): appended, or over the newest word with COLLIDE when the queue is full. A legacy page drops it (R344). -/
def mbxIn (s : State) (c : Nat) (w : Word) : State :=
  let h := s.chan c
  if h.legacy then s
  else if h.bell || decide (64 ≤ h.inQ.length) then s.setChan c { h with inQ := h.inQ.dropLast ++ [w], collide := true }
  else s.setChan c { h with inQ := h.inQ ++ [w] }

/-- A doorbell (R345): ignored on an empty queue and while one is pending. -/
def mbxBell (s : State) (c : Nat) : State :=
  let h := s.chan c
  if h.legacy || h.bell || h.inQ.isEmpty then s else s.setChan c { h with bell := true }

/-- IN_RESET (Table 14-3): ignored while DOORBELL_PEND is 1. -/
def mbxInReset (s : State) (c : Nat) : State :=
  let h := s.chan c
  if h.legacy || h.bell then s else s.setChan c { h with inQ := [], collide := false }

/-- Packets that wait enter the outbound queue, each whole and in order, while there is room (R346, R357). -/
def outRefill (s : State) (c : Nat) : Nat → State
  | 0 => s
  | f + 1 =>
    let h := s.chan c
    match h.waiting with
    | [] => s
    | w :: ws =>
      if h.outQ.length + w.length ≤ 64 then
        (replyInterrupt c h (s.setChan c { h with outQ := h.outQ ++ w, waiting := ws })).outRefill c f
      else s

/-- MBX_OUT_POP (Table 14-3): the `k` oldest outbound words are freed; a value above OUT_COUNT frees all. -/
def mbxPop (s : State) (c k : Nat) : State :=
  let h := s.chan c
  if h.legacy then s else (s.setChan c { h with outQ := h.outQ.drop k }).outRefill c 16

/-- A write to a legacy register (R347, R348): while L_GO is 1 it overwrites the register and sets COLLIDE; a 1 to L_GO submits. -/
def legacyWrite (s : State) (c off : Nat) (kind : AccessKind) (w : Word) : State :=
  let h := s.chan c
  if !h.legacy then s
  else
    let h1 := if h.lgo then { h with collide := true } else h
    if 0x400 ≤ off ∧ off ≤ 0x434 ∧ off % 4 = 0 then
      let i := (off - 0x400) / 4
      let d := (List.range 14).map fun j => h1.ldata.getD j 0
      s.setChan c { h1 with ldata := d.set i (kind.combine (d.getD i 0) w) }
    else if off = 0x438 then s.setChan c { h1 with lcmd := kind.combine h1.lcmd w }
    else if off = 0x43C ∧ w.getLsbD 0 ∧ (kind = .primary ∨ kind = .set ∨ kind = .toggle) ∧ !h.lgo then
      s.setChan c { h1 with lgo := true, begun := false, collide := false }
    else if off = 0x43C then s.setChan c h1
    else s

/-! ### What a write leads to -/

/-- The source of a cause bit, for the cause registers whose bits have sources of their own. -/
def bitSources : List (Nat × Nat × Nat) :=
  [(0x140044, 280, 10), (0x160034, 232, 14), (0x150038, 304, 12), (0x18002C, 224, 8), (0x190020, 192, 9), (0x1B0018, 400, 8),
    (0x1C000C, 408, 6), (0x050018, 392, 7), (0x05001C, 420, 7), (0x040020, 384, 6), (0x060028, 428, 3), (0x070014, 416, 4)]

/-- The sources of the bits of a cause register follow a write of it (R35 to R37): a source falls with its bit, and rises with one that software
sets. -/
def bitsFollow (s : State) (src n : Nat) (w : Word) : State :=
  (List.range n).foldl (fun s i => if w.getLsbD i then s.raise (src + i) else s.lower (src + i)) s

/-- A source follows the bits of the mask, of which it is the OR (R35). -/
def maskFollows (s : State) (src : Nat) (w : Word) (mask : Nat) : State := if w.toNat &&& mask = 0 then s.lower src else s.raise src

/-- A write of a cause register: each source is again the OR of its causes (R35). -/
def causeWritten (s : State) (base k : Nat) (w : Word) : State :=
  match bitSources.find? fun e => e.1 == base with
  | some (_, src, n) => s.bitsFollow src n w
  | none => match base with
    | 0x130034 => s.maskFollows 153 w 0x1F0F
    | 0x131020 => ((s.maskFollows 154 w 0xF0000).maskFollows 156 w 0x700).maskFollows 157 w 0x40
    | 0x13203C => s.maskFollows 155 w 0x707
    | 0x1A1004 => s.maskFollows (160 + k) w 0x707
    | 0x170058 => s.bitsFollow 256 16 w
    | 0x170200 => s.maskFollows (248 + k) w 7
    | 0x08001C => s.maskFollows (448 + k) w 7
    | 0x030018 => s.bitsFollow 352 14 w
    | 0x030580 => s.maskFollows (328 + k) w 0x1F
    | _ => s

/-- EVT_ROUTE and EVT_CTRL are written through to the always-on copies (R39). -/
def routeThrough (s : State) : State :=
  let mask (b : Nat) (old : BitVec 512) : BitVec 512 :=
    (List.range 512).foldl (fun m n =>
      if !aonSource n then m
      else if s.bit Reg.EVT_ROUTE n b then m ||| BitVec.twoPow 512 n else m &&& ~~~(BitVec.twoPow 512 n)) old
  { s with evt := { s.evt with
    aonEn := mask 0 s.evt.aonEn, aonEvtn := mask 4 s.evt.aonEvtn, aonRec := mask 5 s.evt.aonRec, aonGlobal := s.bit Reg.EVT_CTRL 0 0 } }

/-- EVT_PEND of word `k` is written; always-on sources keep pending bits of their own (R39). -/
def pendWrite (s : State) (k : Nat) (w : Word) : State :=
  let m : BitVec 512 := (BitVec.ofNat 512 0xFFFFFFFF) <<< (32 * k)
  let p := (s.evt.pend &&& ~~~m) ||| (w.setWidth 512 <<< (32 * k))
  let aon := (List.range 512).foldl (fun (a : BitVec 512) n =>
    if aonSource n && n / 32 == k then (if p.getLsbD n then a ||| BitVec.twoPow 512 n else a &&& ~~~(BitVec.twoPow 512 n)) else a) s.evt.aonPend
  { s with evt := { s.evt with pend := p, aonPend := aon } }

/-- PORT_EN of CXL ports changes (R268): a port disabled is DISABLED; one enabled again starts to train, with the CXL_CFG of then. -/
def cxlEnWrite (s : State) (old new : Word) : State :=
  ((List.finRange 4).foldl (fun (s : State) p =>
    let was := old.getLsbD p.val
    let now := new.getLsbD p.val
    if was && !now then
      let s1 := s.portReset p
      s1.setCport p { s1.cport p with st := .disabled, width := 0, speed := 0, cycled := true }
    else if !was && now then
      let s1 := s.setCport p { s.cport p with cycled := true }
      if s1.portThere p then s1.setCport p { s1.cport p with st := .detect, width := 0, speed := 0 } else s1
    else s) s).judgeCxl.settle

/-- PORT_EN of Ethernet ports changes (R294): a port's MACs go down, and one enabled takes its mode. -/
def ethEnWrite (s : State) (old new : Word) : State :=
  let s1 := (List.range 8).foldl (fun (s : State) p =>
    if old.getLsbD p == new.getLsbD p then s
    else
      let down := (List.range 4).foldl (fun (s : State) i => s.setMac (4 * p + i) { s.mac (4 * p + i) with up := false, rate := 0 }) s
      if new.getLsbD p then down.setEport p { down.eport p with mode := s.fld Reg.ETH_PORT_CFG 0 (2 * p + 1) (2 * p) } else down) s
  let s2 := (List.range 32).foldl (fun (s : State) m => s.judgeMac m) s1
  let s3 := s2.ptpChoose
  if s3.rdma.ptpMac = s.rdma.ptpMac then s3 else if s3.rdma.ptpMac.isNone then s3.ptpLost else s3

/-- TL0_EN, TL1_EN or EN of TDM_CTRL goes to 0: the port's link goes down. -/
def tdmEnWrite (s : State) (new : Word) : State :=
  let f (s : State) (p : Bool) (b : Nat) : State :=
    if new.getLsbD 0 && new.getLsbD b then s else s.setTport p { s.tport p with st := .down }
  (f (f s false 1) true 2).judgeTdm

/-- The watchdog is enabled or disabled (R417). -/
def wdgEnWrite (s : State) : State :=
  if !s.bit Reg.WDG_CTRL 0 0 then s.setWdg { s.wdg with stage := .disabled, ms := 0 }
  else if s.wdg.stage != .disabled then s
  else if s.flash.cores == .running || s.flash.cores == .recovery then s.wdgStart else s.wdgPause

/-- What follows a write of register `k` of the array at `base` in the medium and bench blocks: `old` and `new` its words, `trig` the WO bits
written as 1. DESIGN CHOICE (log entry 133): FAST_RETRAIN and FULL_RETRAIN written 1 in one write run the full retrain alone; R71 gives no order. -/
def afterMed (s : State) (base k : Nat) (old new trig : Word) : State :=
  match base with
  | 0x100000 =>
    if h : k < 144 then
      let n : Fin 144 := ⟨k, h⟩
      let s1 := if new.getLsbD 0 && !old.getLsbD 0 then s.ran (execQcEn n) else s
      let s2 := if new.getLsbD 3 && !old.getLsbD 3 then s1.ran (execQcOffline n) else if (s1.qc k).offline then s1.setBit Reg.QC_CTRL k 3 true else s1
      if trig.getLsbD 2 then s2.ran (execQcFullRetrain n) else if trig.getLsbD 1 then s2.ran (execQcFastRetrain n) else s2
    else s
  | 0x10020C => s.judgeTemp k
  | 0x130000 => if trig.getLsbD 1 then s.ran execTslPassNow else if s.medUp then s.settleMed else s
  | 0x130020 => s.judgeBlank.judgeTsl
  | 0x130008 =>
    if bitsOf old 7 0 = bitsOf new 7 0 then s
    else (List.range 9).foldl (fun (s : State) g => s.fillPass g (s.qg g).inService) s
  | 0x132000 =>
    let s1 := if bitsOf old 15 8 = bitsOf new 15 8 then s
      else (List.range 9).foldl (fun (s : State) g => s.fillCal g (s.qg g).inService) s
    if trig.getLsbD 1 then s1.ran execEybSweep else s1
  | 0x132034 => s.judgeOccupancy
  | 0x140000 => s.settle
  | 0x140014 => s.judgeBench.settle
  | 0x14001C => s.judgeBench.settle
  | 0x150000 => s.settle
  | 0x15001C => s.judgeXlt
  | _ => s

/-- What follows a write in the twin, port, DRAM, flash and security blocks. -/
def afterPorts (s : State) (base : Nat) (old new trig : Word) : State :=
  match base with
  | 0x010084 => s.routeThrough
  | 0x011000 => s.routeThrough
  | 0x160000 => s.tdmEnWrite new
  | 0x160068 => if trig.getLsbD 0 then s.ran execTdmLanemapCommit else s
  | 0x180000 => s.cxlEnWrite old new
  | 0x180004 => s.judgeCxl
  | 0x1A0004 => s.ethEnWrite old new
  | 0x1A000C => s.ptpChoose
  | 0x1A0020 => (List.range 32).foldl (fun (s : State) m => s.judgeMac m) s
  | 0x170010 => if trig.getLsbD 0 then s.ran execDrmMapCommit else s
  | 0x170014 => if trig.getLsbD 0 then s.ran execDrmFreqSwitch else s
  | 0x170038 => if trig.getLsbD 0 then s.ran execDrmSreqGo else s
  | 0x17006C => if 9 < bitsOf new 4 1 ∨ 9 < bitsOf new 8 5 then s.setBit Reg.DRM_INJ_CTRL 0 0 false else s
  | 0x1C0004 =>
    let s1 := if trig.getLsbD 0 then s.ropRaise else s
    if trig.getLsbD 1 then s1.debugClose else s1
  | 0x050008 => s.judgeWait
  | _ => s

/-- What follows a write in the always-on blocks. -/
def afterAon (s : State) (req : Requester) (base : Nat) (old new trig : Word) : State :=
  match base with
  | 0x02000C =>
    let s1 := if new.getLsbD 0 && !old.getLsbD 0 then s.setTally { s.tally with ptpOverridden := false } else s
    (if old.getLsbD 3 && !new.getLsbD 3 then s1.ppsLost else s1).selectSource
  | 0x020020 => if bitsOf old 7 0 = bitsOf new 7 0 then s else s.writeDeadline
  | 0x02001C => if s.psq.mainUp then s.deadlineRise else s
  | 0x070000 => s.wdgEnWrite
  | 0x07000C => s.wdgKick trig
  | 0x030000 => s.nvWrite Config.nvPsqCtrl [new.toNat]
  | 0x030034 => if trig.getLsbD 0 then s.seqCommit req else s
  | 0x030048 => if trig.getLsbD 0 then s.mapCommit req else s
  | _ => s

/-- A write of a schedule slot's register (R54): word 0 and 1 of TIME, 2 to 4 the others. -/
def schedWrite (s : State) (base k : Nat) (kind : AccessKind) (data : Word) : Option State :=
  match base with
  | 0x021000 => some (s.writeSlot k 0 kind data)
  | 0x021004 => some (s.writeSlot k 1 kind data)
  | 0x021008 => some (s.writeSlot k 2 kind data)
  | 0x02100C => some (s.writeSlot k 3 kind data)
  | 0x021010 => some (s.writeSlot k 4 kind data)
  | _ => none

/-- A write that has reached its block: the registers that are a part of the structured state, and then every other one. -/
def writeReg (s : State) (req : Requester) (r : Reg) (k : Nat) (kind : AccessKind) (data : Word) : State :=
  match s.schedWrite r.base k kind data with
  | some t => t
  | none =>
    let old := s.readReg r k
    let (new, bad) := s.newWord r old kind data
    let trig := triggers r kind data
    let s1 := if bad then s.lockViolation req (kind.window + r.at k) else s
    match r.base with
    | 0x010040 => s1.pendWrite k new
    | 0x060018 => s1.setReg r k new
    | 0x06001C =>
      let c := s1.fld Reg.EVR_CODE_SEL 0 9 0
      s1.putBucket c { Tab.get ({} : Bucket) s1.evr.buckets c with rate := new.setWidth 8 }
    | 0x060020 =>
      let c := s1.fld Reg.EVR_CODE_SEL 0 9 0
      s1.putBucket c { Tab.get ({} : Bucket) s1.evr.buckets c with burst := new.setWidth 6 }
    | 0x080000 =>
      let s2 := s1.setChan k { s1.chan k with outIe := new.getLsbD 2 }
      if trig.getLsbD 1 then s2.mbxInReset k else s2
    | 0x080008 => s1.mbxIn k trig
    | 0x08000C => if trig.getLsbD 0 then s1.mbxBell k else s1
    | 0x080010 => s1.mbxPop k trig.toNat
    | _ =>
      let s2 := s1.setReg r k (new &&& r.bitsFor fun f => f != .wo)
      (((s2.causeWritten r.base k new).afterMed r.base k old new trig).afterPorts r.base old new trig).afterAon req r.base old new trig

/-- The implemented bits of word `i` of the sequence table (Table 17-1): reserved ones read 0 and take nothing (R27). -/
def seqBits (i : Nat) : Word :=
  match i % 4 with
  | 0 => 0x80FFFFFF
  | 1 => 0x01FFFF7F
  | 2 => 0x0000037F
  | _ => 0

/-- A write of a shadow entry of the sequence table (R429, R448): RWL under PSQ_LOCK.SEQ. -/
def seqWrite (s : State) (req : Requester) (off i : Nat) (kind : AccessKind) (data : Word) : State :=
  if s.bit Reg.PSQ_LOCK 0 0 then s.lockViolation req (kind.window + off)
  else
    let t := s.psq.seqSh.set i (kind.combine (s.psq.seqSh.getD i 0) data &&& seqBits i)
    (s.setPsq { s.psq with seqSh := t }).nvWrite Config.nvSeqSh (t.map BitVec.toNat)

/-- Applies a write to a single word at its place. -/
def applyWord (s : State) (req : Requester) (off : Nat) (kind : AccessKind) (data : Word) : State :=
  match Reg.find off with
  | some (r, k) => s.writeReg req r k kind data
  | none => match seqAtOff off with
    | some (true, i) => s.seqWrite req off i kind data
    | some (false, _) => s
    | none => match mbxAt off with
      | some (c, o) => s.legacyWrite c o kind data
      | none => s

/-- Both words of a 64-bit register change in one cycle (R26). -/
def applyPair (s : State) (req : Requester) (r : Reg) (k : Nat) (lo hi : Word) : State :=
  if r.base = 0x021004 then s.writeSlotTime k (Dword.ofWords lo hi)
  else (s.applyWord req (r.at k - 4) .primary lo).applyWord req (r.at k) .primary hi

/-- Applies a posted write (R31). -/
def applyPosted (s : State) (w : PostedWrite) : State :=
  match w.low, Reg.find w.off with
  | some lo, some (r, k) => s.applyPair w.req r k lo w.value
  | _, _ => s.applyWord w.req w.off w.kind w.value

/-- Posts a write to the always-on domain (R31). -/
def post (s : State) (w : PostedWrite) : State := { s with csr := { s.csr with posted := s.csr.posted ++ [w] } }

/-- Whether an offset lies in an always-on block (Table 2-4). -/
def aonOff (off : Nat) : Bool :=
  let b := off / 65536
  b == 2 || b == 3 || b == 4 || b == 6 || b == 7

/-- A word write of a register that is there: the pair of a 64-bit register (R26), posted or applied at once. -/
def writeWord (s : State) (req : Requester) (off : Nat) (kind : AccessKind) (data : Word) : State :=
  let half := ((Reg.find off).map fun e => e.1.half).getD .single
  let held := s.csr.heldWrite.find? fun h => h.req == req && h.off == off - 4
  let unheld : State := { s with csr := { s.csr with heldWrite := s.csr.heldWrite.filter fun h => !(h.req == req && h.off == off - 4) } }
  match kind, half with
  | .primary, .low =>
    { s with csr := { s.csr with
      heldWrite := s.csr.heldWrite.filter (fun h => !(h.req == req && h.off == off)) ++ [{ req := req, off := off, value := data }] } }
  | .primary, .high =>
    if off = 0x14000C then s.hashKeyWrite req 0x140008 data
    else if aonOff off then unheld.post { req := req, off := off, kind := kind, value := data, low := held.map fun h => h.value }
    else match held, Reg.find off with
      | some h, some (r, k) => unheld.applyPair req r k h.value data
      | _, _ => unheld.applyWord req off kind data
  | _, _ => if aonOff off then s.post { req := req, off := off, kind := kind, value := data } else s.applyWord req off kind data

/-- A channel's page lies in an LD's BAR0 (Table 11-2): its non-secure channel's, or that of a session on its DOE. -/
def pageOwner (s : State) (p : Fin 4) (l : Fin 16) (c : Nat) : Bool :=
  match (s.chan c).who with
  | .cxl q m => q == p && m == l
  | .spdm sid => (s.ld p l).sessions.contains sid
  | _ => false

/-- Only the control cores reach the MBX range of the window (R342), an LD only its own pages through its BAR0, and of the LDs only the FM-owned one reaches the window (R275). -/
def reaches (s : State) (req : Requester) (off : Nat) : Bool :=
  match req with
  | .core _ => true
  | .ld p l => s.fmOwned p l && (mbxAt off).isNone
  | .page p l => (mbxAt off).any fun e => s.pageOwner p l e.1
  | .debug => (mbxAt off).isNone

/-- The bus error a word write raises (R22, R25, R27, R28, R34, R342), if any. -/
def writeBad (s : State) (req : Requester) (off : Nat) (kind : AccessKind) : Option BusCause :=
  if !s.psq.mainUp then some .poweredOff
  else if !s.reaches req off || (req.isPage && kind != .primary) then some .unimplemented
  else match Reg.find off with
    | some (r, _) =>
      let has (p : FieldKind → Bool) : Bool := r.fields.any fun f => p f.kind
      let rw := has fun f => f == .rw || f == .rwl || f == .lock
      if kind == .primary then (if rw || has (· == .wo) then none else some .writeRo)
      else if rw then none
      else if has (· == .wo) then some .aliasNotAllowed
      else some .writeRo
    | none => match seqAtOff off with
      | some (sh, _) => if sh then none else some .writeRo
      | none => if mbxAt off |>.any fun e => (s.mbxWord e.1 e.2).isSome then (if mbxAt off |>.any fun e => e.2 < 0x400 then some .writeRo else none)
        else some .unimplemented

/-- A requester reaches the window at all: the debug port only while it is open (R391, Table 15-7), an LD only while it exists on a port whose link
is up. -/
def debugReach (s : State) (req : Requester) : Bool :=
  match req with
  | .debug => s.sec.debugOpen || s.life == .test || s.life == .maker
  | .ld p l | .page p l => s.ldThere p l && ((s.cport p).st == .l0 || (s.cport p).st == .l1)
  | .core _ => true

/-- A word read by a requester (R26): a low word latches its high word, and a latched high word answers the next read of it. -/
def readWord (s : State) (req : Requester) (off : Nat) : Option (State × Word) :=
  match s.readOff off with
  | none => none
  | some w =>
    let half := ((Reg.find off).map fun e => e.1.half).getD .single
    let rest (o : Nat) : List HeldWord := s.csr.heldRead.filter fun h => !(h.req == req && h.off == o)
    let set (l : List HeldWord) : State := { s with csr := { s.csr with heldRead := l } }
    match half with
    | .low => some (set (rest (off + 4) ++ [{ req := req, off := off + 4, value := (s.readOff (off + 4)).getD 0 }]), w)
    | .high => match s.csr.heldRead.find? fun h => h.req == req && h.off == off with
      | some h => some (set (rest off), h.value)
      | none => some (s, w)
    | .single => some (s, w)

/-- A read of the window (R21, R25 to R28): an alias address reads as the primary one. With the main domain off nothing is returned. -/
def busRead (s : State) (a : BusAccess) : State :=
  let bad (c : BusCause) : State := s.busError a.req (a.kind.window + a.off) false c
  if !s.psq.mainUp then s
  else if !a.shaped then bad .badSize
  else if !s.reaches a.req a.off || (a.req.isPage && a.kind != .primary) then bad .unimplemented
  else match s.readWord a.req a.off with
    | none => bad .unimplemented
    | some (s1, lo) =>
      if !a.wide then s1.emit (.csrData a.req (lo.setWidth 64))
      else match s1.readWord a.req (a.off + 4) with
        | some (s2, hi) => s2.emit (.csrData a.req (Dword.ofWords lo hi))
        | none => s1

/-- A write of the window that is not held (R21 to R33). -/
def busWrite (s : State) (a : BusAccess) : State :=
  if !a.shaped then s.busError a.req (a.kind.window + a.off) true .badSize
  else match s.writeBad a.req a.off a.kind with
    | some c => s.busError a.req (a.kind.window + a.off) true c
    | none =>
      if a.wide then (s.writeWord a.req a.off a.kind a.data.lo).writeWord a.req (a.off + 4) a.kind a.data.hi
      else s.writeWord a.req a.off a.kind a.data.lo

/-- An access is a write that posts to the always-on domain: one of a low word only waits for its high word (R26, R31). -/
def posts (s : State) (a : BusAccess) : Bool :=
  !a.read && aonOff a.off && a.shaped && (s.writeBad a.req a.off a.kind).isNone &&
    (a.wide || a.kind != .primary || ((Reg.find a.off).map fun e => e.1.half).getD .single != .low)

/-- An access stays at its requester's bus (R31): it would post to a full queue, or an earlier one of the same requester stays there. A write
that posts also waits behind those of other requesters that do. -/
def busHeld (s : State) (a : BusAccess) : Bool :=
  (s.csr.blocked.any fun b => b.req == a.req) ||
    (s.posts a && (decide (16 ≤ s.csr.posted.length) || s.csr.blocked.any fun b => s.posts b))

/-- An access to the window: the debug port reaches it only while it is open. -/
def busAccess (s : State) (a : BusAccess) : State :=
  if !s.psq.vaon || !s.debugReach a.req then s
  else if s.busHeld a then { s with csr := { s.csr with blocked := s.csr.blocked ++ [a] } }
  else if a.read then s.busRead a else s.busWrite a

/-- The accesses held at the bus go on in order, as far as the posting queue takes them (R31). -/
def busResume (s : State) : State :=
  s.csr.blocked.foldl (fun (s : State) a => s.busAccess a) { s with csr := { s.csr with blocked := [] } }

/-- A write access to the window (R21 to R33): `size` in bytes, `full` that every byte is enabled. -/
def csrWrite (s : State) (req : Requester) (off : Nat) (kind : AccessKind) (size : Nat) (full : Bool) (data : Dword) : State :=
  s.busAccess { req := req, read := false, off := off, kind := kind, size := size, full := full, data := data }

end State

/-! ### Meanings -/

/-- ALIAS_WRITE (R21 to R23): a write through the SET, CLEAR or TOGGLE alias; `kind` primary writes nothing here. -/
def execAliasWrite (req : Requester) (kind : AccessKind) (off : Fin 4194304) (size : Nat) (full : Bool) (data : Word) (s : State) : Res :=
  .next (if kind = .primary then s else s.csrWrite req off kind size full (data.setWidth 64))

/-- SCHED_SLOT_WRITE (R54, R26): a write of a control core to a register of slot `k` takes effect: word 0 and 1 of TIME, 2 SCH_CTRL, 3 SCH_ARG,
4 SCH_PERIOD, 5 SCH_OWNER, which is read-only. A primary write of word 0 is held, and one of word 1 commits both; an alias acts on its word
alone. -/
def execSchedSlotWrite (k : Fin 256) (word : Fin 6) (kind : AccessKind) (data : Word) (s : State) : Res :=
  if !s.psq.vaon then .next s
  else
    let lo := Reg.SCH_TIME_LO.at k
    let mine (h : HeldWord) : Bool := h.req == .core 0 && h.off == lo
    let rest := s.csr.heldWrite.filter fun h => !mine h
    if kind = .primary ∧ word = 0 then
      .next { s with csr := { s.csr with heldWrite := rest ++ [{ req := .core 0, off := lo, value := data }] } }
    else if kind = .primary ∧ word = 1 then
      match s.csr.heldWrite.find? mine with
      | some h => .next (State.writeSlotTime { s with csr := { s.csr with heldWrite := rest } } k (Dword.ofWords h.value data))
      | none => .next (s.writeSlot k 1 kind data)
    else .next (s.writeSlot k word kind data)

end Sys2Proof.Machine
end

