-- ==== Sys2Proof/Machine/AzOps.lean ====
section
/-! DEFINITION. What the Azler commands share (R339, R354, R361): parameters, the answers they give, scope, and the reassignment of a channel
(R340). -/

namespace Sys2Proof.Machine

/-- Parameter P_i, 0 where the packet has none. -/
def AzReq.p (r : AzReq) (i : Nat) : Word := r.params.getD i 0

/-- Parameter P_i as a number. -/
def AzReq.n (r : AzReq) (i : Nat) : Nat := (r.p i).toNat

/-- The 64-bit parameter P_i, P_(i+1), low word first (R350). -/
def AzReq.p64 (r : AzReq) (i : Nat) : Nat := r.n i + r.n (i + 1) * 2 ^ 32

/-- The packet's command: its channel and TAG, by which a PENDING command is completed. -/
def AzReq.who (r : AzReq) : Fin 64 × BitVec 16 := (r.chan, r.tag)

/-- A LEN that an opcode requires. -/
def lenIs (k : Nat) (n : Nat) : Bool := n == k

namespace State

/-- OK with results. -/
def okay (s : State) (ws : List Word := []) : Answer := { status := .ok, words := ws, state := s }

/-- PENDING; `keep` are the results it is to end with. -/
def later (s : State) (keep : List Word := []) : Answer := { status := .pending, keep := keep, state := s }

/-- BAD_PARAM for parameter `i`: A0 is the index of its word (R354). -/
def bad (s : State) (i : Nat) : Answer := { status := .badParam, words := [BitVec.ofNat 32 (i + 4)], state := s }

/-- A refusal without results. -/
def refuse (s : State) (st : Status) : Answer := { status := st, state := s }

/-- Takes a packet with an opcode of Table 14-6 (R354). In END no command is carried out (Table 15-7). -/
def azTake (s : State) (r : AzReq) (opcode : Nat) (permitted : Bool) (lens : Nat → Bool) (pends : Bool) (body : State → Answer) : State :=
  if s.life == .ended then s else s.take r opcode permitted lens pends body

/-! ### Scope (R339) -/

/-- The LD that holds a channel, by port × 16 + LD. -/
def chanLd (s : State) (c : Nat) : Option Nat :=
  match (s.chan c).who with
  | .cxl p l => some (p.val * 16 + l.val)
  | _ => none

/-- The grants of a channel on a region. -/
def grantOf (s : State) (c r : Nat) : BitVec 2 := ((s.chan c).grants.find? fun g => g.1 == r).elim 0 Prod.snd

/-- A region bound to the channel's LD. -/
def boundTo (s : State) (c r : Nat) : Bool := (s.chanLd c).any fun l => s.ldReaches l r

/-- The channel may read region `r`: a secure one, or by a grant or a binding. -/
def mayRead (s : State) (c r : Nat) : Bool := secureChan c || s.grantOf c r != 0 || s.boundTo c r

/-- The channel may write region `r`. -/
def mayWrite (s : State) (c r : Nat) : Bool := secureChan c || (s.grantOf c r).getLsbD 1 || s.boundTo c r

/-- A parameter names a valid region. -/
def isRegion (s : State) (r : Nat) : Bool := decide (1 ≤ r ∧ r ≤ 4095) && (s.region r).valid

/-! ### Reassignment (R340) -/

/-- A channel's assignment goes to its NV record (R338, R344). -/
def chanSave (s : State) (c : Nat) : State :=
  let h := s.chan c
  let w : List Nat := match h.who with
    | .cxl p l => [1, p.val, l.val]
    | .rdma => [2, 0, 0]
    | _ => [0, 0, 0]
  s.nvWrite (Config.nvChan c) (w ++ [h.agen.toNat, h.legacy.toNat])

/-- Writes the route table's entry of a source (R41): none, or a value. -/
def routeSave (s : State) (n : Nat) (v : Option Word) : State :=
  let old := (s.nvRead Config.nvRoutes).1.getD []
  s.nvWrite Config.nvRoutes ((List.range 512).map fun i => if i = n then v.elim 0 (fun w => w.toNat + 1) else old.getD i 0)

/-- The routes whose target is a channel, or the LD that held it, return to their default (R41). -/
def routesDrop (s : State) (c : Nat) (ld : Option Nat) : State :=
  let saved := (s.nvRead Config.nvRoutes).1.getD []
  ((List.range 512).foldl (fun (s : State) n =>
    let v := saved.getD n 0
    let w : Word := BitVec.ofNat 32 (v - 1)
    let hits := v != 0 && ((w.getLsbD 3 && bitsOf w 17 12 == c) || (w.getLsbD 2 && ld == some (bitsOf w 19 18 * 16 + bitsOf w 23 20)))
    if hits then (s.routeSave n none).setReg Reg.EVT_ROUTE n 0 else s) s).routeThrough

/-- A PD goes with its windows and completion queues. -/
def pdDestroy (s : State) (i : Nat) : State :=
  { s with rdma := { s.rdma with
    pds := Tab.erase s.rdma.pds i
    wins := s.rdma.wins.filter fun w => !(w.2.any fun (v : MemWin) => v.pd == i)
    cqs := s.rdma.cqs.filter fun q => !(q.2.any fun (v : Cq) => v.pd == i) } }

/-- The PDs of a channel. -/
def pdsOf (s : State) (c : Nat) : List Nat := (s.rdma.pds.filter fun p => p.2.any fun (v : Pd) => v.chan == c).map Prod.fst

/-- A schedule slot is freed (R53). -/
def slotFree (s : State) (k : Nat) : State := (s.setSlot k { s.slot k with arm := false, action := 0, owner := 0xFF }).saveSlot k

/-- Everything a channel owns is destroyed, its grants are revoked and its routes removed (R340). -/
def chanStrip (s : State) (c : Nat) : State :=
  let ld := s.chanLd c
  let s1 := (s.pdsOf c).foldl (fun s i => s.pdDestroy i) s
  let s2 := s1.setXlt { s1.xlt with objects := s1.xlt.objects.filter fun o => o.2.owner != c }
  let s3 := (((s2.sched.slots.filter fun p => decide (64 ≤ p.1) && p.2.owner.toNat == c).map Prod.fst)).foldl (fun s k => s.slotFree k) s2
  (s3.setChan c { s3.chan c with grants := [] }).routesDrop c ld

/-- A channel goes to a principal (R338, R340): a new SESSION, the inbound queue emptied, what is not yet taken or still to be answered
discarded, and REASSIGNED captured. What the old principal owned stays only with the same principal. -/
def reassign (s : State) (c : Nat) (who : Principal) : State :=
  let h := s.chan c
  let same := h.who = who
  let s1 := if same then s else s.chanStrip c
  let h1 := s1.chan c
  let s2 := s1.draw
  let keep : Chan := { h1 with
    who := who, session := Config.trng s1.fresh, inQ := [], collide := false, bell := false, held := [], ops := [], last := []
    lgo := false, begun := false, agen := if same then h1.agen else h1.agen + 1 }
  let h2 := if same then keep else { keep with outQ := [], waiting := [], done := [], dropped := 0, rights := 0 }
  let s3 := if who = .rdma then s2.draw else s2
  ((s3.setChan c { h2 with token := if who = .rdma then Config.trng s2.fresh else 0 }).chanSave c).cause Reg.MBX_CAUSE c 2 (448 + c)

end State

end Sys2Proof.Machine
end

