-- ==== Sys2Proof/Machine/AzChan.lean ====
section
/-! DEFINITION. The Azler commands of group 0x01xx: identity, channels, routes and staging (Table 14-6). -/

namespace Sys2Proof.Machine

namespace State

/-- IDENTIFY. -/
def azIdentify (s : State) (r : AzReq) : State :=
  s.azTake r 0x0101 true (lenIs 0) false fun s =>
    let rights : Nat := if r.chan.val = 0 then 0x7F else (s.chan r.chan).rights.toNat
    s.okay ((List.range 4).map (fun k => Config.otpWord (0x024 + k)) ++ [Config.otpWord 0x020 &&& 0xFFFFFF#32, Config.otpWord 0x021,
      s.flash.runVersion, s.flash.runCompat.setWidth 32, BitVec.ofNat 32 s.life.code,
      wordOf [r.chan.val, at_ 8 (secureChan r.chan).toNat, at_ 9 (if secureChan r.chan then rights else 0)]])

/-- DEVICE_STATUS. -/
def azDeviceStatus (s : State) (r : AzReq) : State :=
  s.azTake r 0x0102 true (lenIs 0) false fun s =>
    s.okay [BitVec.ofNat 32 s.psq.pstate.code, s.pbfStatus, s.tdmStatus, s.yrwSpare, tlyStatus s.tally]

/-- CHANNEL_ASSIGN (R340). SESSION and TOKEN are secret draws (R394). -/
def azChannelAssign (s : State) (r : AzReq) : State :=
  s.azTake r 0x0103 (s.hasRight r.chan .admin) (lenIs 2) false fun s =>
    let c := r.n 0
    let v := r.n 1
    if c < 8 ∨ 63 < c then s.bad 0
    else if v / 256 ≠ 0 ∨ v % 4 = 3 then s.bad 1
    else if s.sec.trngFail then s.refuse .wrongState
    else
      let who : Principal := if v % 4 = 1 then .cxl (Fin.ofNat 4 (v / 4)) (Fin.ofNat 16 (v / 16)) else if v % 4 = 2 then .rdma else .none
      let s1 := s.reassign c who
      s1.okay ((s1.chan c).session :: if v % 4 = 2 then [(s1.chan c).token] else [])

/-- CHANNEL_MODE (R349): the new mode applies from the reply onwards. -/
def azChannelMode (s : State) (r : AzReq) : State :=
  let c := r.n 0 % 64
  s.azTake r 0x0104 (c == r.chan.val || s.hasRight r.chan .admin) (lenIs 1) false fun s =>
    let h := s.chan c
    let own := c = r.chan.val ∧ r.via = .legacy
    if r.n 0 / 64 % 4 ≠ 0 ∨ r.n 0 / 512 ≠ 0 then s.bad 0
    else if h.ops ≠ [] ∨ h.bell ∨ (h.lgo ∧ ¬own) then s.refuse .wrongState
    else { s.okay with after := fun s => (s.setChan c { s.chan c with legacy := (r.p 0).getLsbD 8 }).chanSave c }

/-- CMD_STATUS (R355). -/
def azCmdStatus (s : State) (r : AzReq) : State :=
  s.azTake r 0x0105 true (lenIs 1) false fun s =>
    let h := s.chan r.chan
    let tag : BitVec 16 := (r.p 0).setWidth 16
    if r.n 0 / 65536 ≠ 0 then s.bad 0
    else if h.ops.any fun o => o.tag == tag then s.okay [1]
    else match h.done.find? fun d => d.tag == tag with
      | some d => s.okay (2 :: d.words.take 61)
      | none => s.okay [0]

/-- A non-secure principal may set the route (R42): to its own vectors or channel, for its own channel's source or sources 153 to 159. -/
def routeAllowed (s : State) (c : Nat) (n : Nat) (v : Word) : Bool :=
  (n == 448 + c || decide (153 ≤ n ∧ n ≤ 159)) && !v.getLsbD 4 && !v.getLsbD 5 && !v.getLsbD 6 &&
  (!v.getLsbD 3 || bitsOf v 17 12 == c) && (!v.getLsbD 2 || s.chanLd c == some (bitsOf v 19 18 * 16 + bitsOf v 23 20))

/-- ROUTE_SET (R41, R42). -/
def azRouteSet (s : State) (r : AzReq) : State :=
  s.azTake r 0x0106 (secureChan r.chan || s.routeAllowed r.chan (r.n 0) (r.p 1)) (lenIs 2) false fun s =>
    if 511 < r.n 0 then s.bad 0
    else if r.p 1 &&& 0x00000F82#32 ≠ 0 ∨ ((r.p 1).getLsbD 2 ∧ 63 < bitsOf (r.p 1) 31 24) then s.bad 1
    else ((s.routeSave (r.n 0) (some (r.p 1))).setReg Reg.EVT_ROUTE (r.n 0) (r.p 1)).routeThrough.okay

/-- ROUTE_GET. -/
def azRouteGet (s : State) (r : AzReq) : State :=
  s.azTake r 0x0107 true (lenIs 1) false fun s => if 511 < r.n 0 then s.bad 0 else s.okay [s.reg Reg.EVT_ROUTE (r.n 0)]

/-- STAGE_WRITE (R358). -/
def azStageWrite (s : State) (r : AzReq) : State :=
  s.azTake r 0x0108 true (fun n => decide (2 ≤ n ∧ n ≤ 60)) false fun s =>
    if r.n 0 % 4 ≠ 0 ∨ 2 ^ 20 < r.n 0 + 4 * (r.params.length - 1) then s.bad 0
    else (s.stageWords r.chan (r.n 0 / 4) (r.params.drop 1)).okay

/-- STAGE_READ (R358). -/
def azStageRead (s : State) (r : AzReq) : State :=
  s.azTake r 0x0109 true (lenIs 2) false fun s =>
    if r.n 0 % 4 ≠ 0 ∨ 2 ^ 20 ≤ r.n 0 then s.bad 0
    else if r.n 1 < 1 ∨ 62 < r.n 1 ∨ 2 ^ 20 < r.n 0 + 4 * r.n 1 then s.bad 1
    else s.okay ((List.range (r.n 1)).map fun k => s.stageWord r.chan (r.n 0 / 4 + k))

end State

/-! ### Meanings -/

/-- IDENTIFY (R361). -/
def execIdentify (r : AzReq) (s : State) : Res := .next (s.azIdentify r)

/-- DEVICE_STATUS (R361). -/
def execDeviceStatus (r : AzReq) (s : State) : Res := .next (s.azDeviceStatus r)

/-- CHANNEL_ASSIGN (R340). -/
def execChannelAssign (r : AzReq) (s : State) : Res := .next (s.azChannelAssign r)

/-- CHANNEL_MODE (R349). -/
def execChannelMode (r : AzReq) (s : State) : Res := .next (s.azChannelMode r)

/-- CMD_STATUS (R355). -/
def execCmdStatus (r : AzReq) (s : State) : Res := .next (s.azCmdStatus r)

/-- ROUTE_SET (R42). -/
def execRouteSet (r : AzReq) (s : State) : Res := .next (s.azRouteSet r)

/-- ROUTE_GET (R361). -/
def execRouteGet (r : AzReq) (s : State) : Res := .next (s.azRouteGet r)

/-- STAGE_WRITE (R358). -/
def execStageWrite (r : AzReq) (s : State) : Res := .next (s.azStageWrite r)

/-- STAGE_READ (R358). -/
def execStageRead (r : AzReq) (s : State) : Res := .next (s.azStageRead r)

end Sys2Proof.Machine
end

