-- ==== Sys2Proof/Machine/AzKeys.lean ====
section
/-! DEFINITION. Keys and the life cycle: the Azler commands of groups 0x05xx and 0x06xx (R371 to R395), read-out protection, the debug port
and the TRNG. -/

namespace Sys2Proof.Machine

namespace State

/-! ### Staged bytes -/

/-- Writes bytes from the start of a channel's staging window. -/
def stageBytes (s : State) (c : Nat) (bs : List Byte) : State :=
  (bs.foldl (fun (p : State × Nat) b => (p.1.setStageByte c p.2 b, p.2 + 1)) (s, 0)).1

/-- The staged bytes of a secret become zeros (R371). -/
def stageWipe (s : State) (c first n : Nat) : State := (List.range n).foldl (fun s i => s.setStageByte c (first + i) 0) s

/-! ### Region keys (R374 to R380) -/

/-- The seconds of TLY_NOW that HOLD_UNTIL is compared with (Table 15-4). -/
def holdNow (s : State) : Word := (s.tally.now >>> 16).setWidth 32

/-- A share fails (R375, R376): FAILS advances, and from UNLOCK_TRIES on the region is held, each time twice as
long as before, which the slot's FAILS tells. -/
def unlockFail (s : State) (r : Nat) : State :=
  let k := s.keySlot r
  let n := k.fails + 1
  let tries := s.fld Reg.SEC_CTRL 0 3 0
  let secs := if n < tries then 0 else min (600 * 2 ^ (n - tries)) 86400
  let k1 := { k with fails := min n 65535, holdUntil := if secs = 0 then k.holdUntil else s.holdNow + BitVec.ofNat 32 secs }
  (((s.setKeySlot r k1).bump Reg.SEC_UNLOCK_FAIL_CNT 0 31 0).cause Reg.SEC_CAUSE 0 5 405).judgeSec

/-- A share is accepted (R375): the key is in the store and reaches the twin at a ROS; an unlocked region stays as it is. -/
def unlockDone (s : State) (r : Nat) : State :=
  let k := s.keySlot r
  let open? := k.state == .active && k.loaded && !k.locking
  let s1 := s.setKeySlot r { k with fails := 0 }
  (if open? then s1
    else
      let s2 := s1.keyIn r k.key
      (s2.sendAttr r { record := s2.region r, keyId := some k.key }).settleMed).judgeSec

/-- REGION_UNLOCK (R375, R376). `r.ok` says that the key unwraps under the staged share. -/
def azRegionUnlock (s : State) (r : AzReq) : State :=
  let q := r.n 0
  s.azTake r 0x0501 (s.mayWrite r.chan q) (lenIs 2) false fun s =>
    let k := s.keySlot q
    if !s.isRegion q then s.bad 0
    else if r.n 1 < 32 ∨ 512 < r.n 1 then s.bad 1
    else if !k.shareRequired ∨ k.state = .erasing ∨ k.state = .empty then s.refuse .wrongState
    else if s.holdNow < k.holdUntil then s.refuse .busy
    else
      let s1 := s.stageWipe r.chan 0 (r.n 1)
      if k.state = .awaitingShare ∨ r.ok then (s1.unlockDone q).okay else (s1.unlockFail q).refuse .notPermitted

/-- REGION_LOCK (R377): at a ROS of its own. Only a region that needs a share can be locked. -/
def azRegionLock (s : State) (r : AzReq) : State :=
  let q := r.n 0
  s.azTake r 0x0502 (s.mayWrite r.chan q) (lenIs 1) false fun s =>
    let k := s.keySlot q
    if !s.isRegion q then s.bad 0
    else if !k.shareRequired then s.refuse .wrongState
    else if s.locked q then s.okay
    else ((s.sendAttr q { record := s.region q, lock := true }).setKeySlot q { k with locking := true }).settleMed.okay

/-- CRYPTO_ERASE (R380, R381): steps 1 and 2 at once, the others as its work ends. -/
def azCryptoErase (s : State) (r : AzReq) : State :=
  s.azTake r 0x0503 (s.hasRight r.chan .keys) (lenIs 1) true fun s =>
    if !s.isRegion (r.n 0) then s.bad 0
    else if s.sec.trngFail then s.refuse .wrongState
    else (s.eraseBegin (r.n 0)).judgeSec.settleMed.later

/-- TIME_KEY_SET (R385): one uncompressed P-384 public key of 97 bytes. -/
def azTimeKeySet (s : State) (r : AzReq) : State :=
  s.azTake r 0x0504 (s.hasRight r.chan .keys) (lenIs 1) false fun s =>
    if r.n 0 ≠ 97 then s.bad 0
    else
      let k := (List.range 97).map fun i => s.stageByte r.chan i
      (({ s with sec := { s.sec with timeKey := k } }).nvWrite Config.nvTimeKey (k.map BitVec.toNat)).okay

/-- MACSEC_CAK_SET (R385, R371): CKN at staging offset 0 and CAK at 32. -/
def azMacsecCakSet (s : State) (r : AzReq) : State :=
  s.azTake r 0x0505 (s.hasRight r.chan .keys) (lenIs 2) false fun s =>
    if 7 < r.n 0 then s.bad 0
    else if 63 < r.n 1 then s.bad 1
    else
      let i := r.n 0 * 64 + r.n 1
      let id := s.sec.nextKey
      let s1 := { s with sec := { s.sec with nextKey := id + 1 }, rdma := { s.rdma with caks := Tab.put none s.rdma.caks i (some id) } }
      ((s1.nvWrite (Config.nvCak i) (id :: (List.range 32).map fun k => (s.stageByte r.chan k).toNat)).stageWipe r.chan 32 32).okay

/-- CERT_GET (R383): slot 0 holds the chain; slots 1 to 7 are not provisioned and give no byte. -/
def azCertGet (s : State) (r : AzReq) : State :=
  s.azTake r 0x0506 true (lenIs 2) false fun s =>
    if 7 < r.n 0 then s.bad 0
    else
      let len := if r.n 0 = 0 then Config.certLen else 0
      if len < r.n 1 then s.bad 1
      else
        let n := min (len - r.n 1) (2 ^ 20)
        (s.stageBytes r.chan ((List.range n).map fun i => Config.certByte (r.n 1 + i))).okay [BitVec.ofNat 32 n]

/-! ### The life cycle (R386 to R392) -/

/-- LC_STATUS. -/
def azLcStatus (s : State) (r : AzReq) : State :=
  s.azTake r 0x0601 true (lenIs 0) false fun s => s.okay [BitVec.ofNat 32 s.life.code, BitVec.ofNat 32 s.sec.rop.val]

/-- The groups a transition of Table 15-8 blows, by FROM, TO, the signer (true the customer) and LOWER_ROP; none where there is no such
transition. -/
def transition (src dst : Nat) (customer lower : Bool) : Option (List Nat) :=
  match src, dst, customer, lower with
  | 0, 1, false, false => some [0]
  | 1, 2, false, false => some [1]
  | 2, 2, true, true => some []
  | 2, 3, true, false => some [2]
  | 2, 4, true, false => some [2, 3]
  | 3, 4, true, false => some [3]
  | 4, 5, _, false => some [4]
  | _, _, _, _ => none

/-- The state of a code. -/
def lifeOfCode (n : Nat) : LifeState :=
  if n = 0 then .test else if n = 1 then .maker else if n = 2 then .fieldOpen else if n = 3 then .fieldLocked else if n = 4 then .returned else .ended

/-- The staged authorisation is one of Table 15-9 for this device, its state and the target (R389). `ok` says that its signature verifies. -/
def authGroups (s : State) (c target : Nat) (ok : Bool) : Option (List Nat) :=
  let w := s.stageWord c 0
  let src := bitsOf w 15 8
  let dst := bitsOf w 23 16
  let customer := w.getLsbD 24
  let lower := w.getLsbD 25
  let uid := (List.range 4).all fun k => s.stageWord c (1 + k) == Config.otpWord (0x024 + k)
  let zero := (src == 1 && dst == 2) || (List.range 24).all fun k => s.stageWord c (5 + k) == 0
  let chain := bitsOf (s.stageWord c 29) 15 0
  if ok && bitsOf w 7 0 == 1 && bitsOf w 31 26 == 0 && src == s.life.code && dst == target && uid && zero &&
      bitsOf (s.stageWord c 29) 31 16 == 0 && (customer || chain == 0) && (!lower || s.sec.rop == 1) then
    transition src dst customer lower
  else none

/-- Steps 2 and 3 of R390: the intents are written and the groups blown. -/
def blow (s : State) (r : AzReq) (gs : List Nat) (target : Nat) : State :=
  let lower := gs.isEmpty
  let t := lifeOfCode target
  let c := s.sec
  let g := gs.foldl (fun (a : BitVec 80) k => a ||| (0xFFFF#80 <<< (16 * k))) c.groups
  let c1 : Sec := { c with
    groups := g, lcWork := some { who := r.who, target := t, lower := lower }, debugOpen := false
    ropErase := c.ropErase || lower, eraseMarker := c.eraseMarker || t == .returned
    lcMark := if lower then c.lcMark else some t
    custRoot := if t = .fieldOpen ∧ !lower then (List.range 12).map fun k => s.stageWord r.chan (5 + k) else c.custRoot
    custDebug := if t = .fieldOpen ∧ !lower then (List.range 12).map fun k => s.stageWord r.chan (17 + k) else c.custDebug }
  ({ s with sec := c1 }).lifeWrite.judgeSec

/-- LC_ADVANCE (R388 to R390). -/
def azLcAdvance (s : State) (r : AzReq) : State :=
  s.azTake r 0x0602 (s.hasRight r.chan .lifecycle) (lenIs 1) true fun s =>
    if 5 < r.n 0 then s.bad 0
    else if s.paired ∨ s.sec.trngFail ∨ s.sec.lcWork.isSome then s.refuse .wrongState
    else match s.authGroups r.chan (r.n 0) r.ok with
      | none => (s.cause Reg.SEC_CAUSE 0 7 407).refuse .notPermitted
      | some gs => (s.blow r gs (r.n 0)).later

/-- The actions of the transition at work end (R390 steps 4 and 5): `ok` says that every OTP word of theirs programmed. -/
def lcDone (s : State) (ok : Bool) : State × Bool :=
  match s.sec.lcWork with
  | none => (s, false)
  | some _ =>
    let s1 := { s with sec := { s.sec with lcWork := none } }
    if ok then ((s1.lifeActions.cause Reg.LCS_CAUSE 0 2 410).settleMed, true) else (s1.cause Reg.LCS_CAUSE 0 3 411, false)

/-- DEBUG_UNLOCK (R391): P0 = 0 asks for a challenge, P0 = 1 answers it. `r.ok` says that the staged key and signature verify. -/
def azDebugUnlock (s : State) (r : AzReq) : State :=
  s.azTake r 0x0603 (s.hasRight r.chan .lifecycle) (lenIs 1) false fun s =>
    if 1 < r.n 0 then s.bad 0
    else if r.n 0 = 0 then
      if s.sec.trngFail then s.refuse .wrongState
      else
        let ws := (List.range 12).map fun k => Config.trng (s.fresh + k)
        let s1 := (List.range 12).foldl (fun (s : State) _ => s.draw) s
        ({ s1 with sec := { s1.sec with challenge := true } }).okay ws
    else
      let s1 := { s with sec := { s.sec with challenge := false } }
      if s.sec.challenge && r.ok && (s.life == .fieldOpen || s.life == .returned) then
        ({ s1 with sec := { s1.sec with debugOpen := true } }).judgeSec.okay
      else ((s1.cause Reg.LCS_CAUSE 0 5 413).cause Reg.SEC_CAUSE 0 7 407).refuse .notPermitted

end State

/-- The packet with another first parameter: rows that share an opcode fix it. -/
def AzReq.withP0 (r : AzReq) (v : Word) : AzReq := { r with params := match r.params with
  | [] => []
  | _ :: t => v :: t }

/-! ### Meanings -/

/-- REGION_UNLOCK (R375). -/
def execRegionUnlock (r : AzReq) (s : State) : Res := .next (s.azRegionUnlock r)

/-- REGION_LOCK (R377). -/
def execRegionLock (r : AzReq) (s : State) : Res := .next (s.azRegionLock r)

/-- CRYPTO_ERASE (R380). -/
def execCryptoErase (r : AzReq) (s : State) : Res := .next (s.azCryptoErase r)

/-- TIME_KEY_SET (R385). -/
def execTimeKeySet (r : AzReq) (s : State) : Res := .next (s.azTimeKeySet r)

/-- MACSEC_CAK_SET (R385). -/
def execMacsecCakSet (r : AzReq) (s : State) : Res := .next (s.azMacsecCakSet r)

/-- CERT_GET (R361). -/
def execCertGet (r : AzReq) (s : State) : Res := .next (s.azCertGet r)

/-- LC_STATUS (R386). -/
def execLcStatus (r : AzReq) (s : State) : Res := .next (s.azLcStatus r)

/-- LC_ADVANCE (R390). -/
def execLcAdvance (r : AzReq) (s : State) : Res := .next (s.azLcAdvance r)

/-- DEBUG_UNLOCK_CHALLENGE (R391): DEBUG_UNLOCK with P0 = 0. -/
def execDebugUnlockChallenge (r : AzReq) (s : State) : Res := .next (s.azDebugUnlock (r.withP0 0))

/-- DEBUG_UNLOCK_RESPONSE (R391): DEBUG_UNLOCK with P0 = 1. -/
def execDebugUnlockResponse (r : AzReq) (s : State) : Res := .next (s.azDebugUnlock (r.withP0 1))

/-- DEBUG_CHALLENGE_EXPIRY (R391): 60 s have passed. -/
def execDebugChallengeExpiry (s : State) : Res := .next { s with sec := { s.sec with challenge := false } }

/-- ROP_RAISE (R392): LCS_CTRL.ROP_RAISE is written. -/
def execRopRaise (s : State) : Res := .next (if s.psq.mainUp then s.ropRaise else s)

/-- DEBUG_CLOSE (R391): LCS_CTRL.DEBUG_CLOSE is written. -/
def execDebugClose (s : State) : Res := .next (if s.psq.mainUp then s.debugClose else s)

/-- TRNG_FAIL (R394): a health test fails; secret draws wait. -/
def execTrngFail (s : State) : Res :=
  .next (if s.psq.mainUp then (({ s with sec := { s.sec with trngFail := true } }).bump Reg.SEC_TRNG_CNT 0 15 0).judgeSec else s)

/-- TRNG_OK (R394): the health tests pass again. -/
def execTrngOk (s : State) : Res := .next (if s.psq.mainUp then ({ s with sec := { s.sec with trngFail := false } }).judgeSec else s)

/-- DRBG_RESEED (R394): 2²⁰ requests have been served; without a reseed while a health test fails. -/
def execDrbgReseed (s : State) : Res :=
  .next (if s.psq.mainUp && !s.sec.trngFail then { s with sec := { s.sec with drbg := s.sec.drbg + 1 } } else s)

end Sys2Proof.Machine
end

