-- ==== Sys2Proof/Machine/AzFw.lean ====
section
/-! DEFINITION. Firmware, the vault and the recorder: the Azler commands of groups 0x07xx and 0x08xx (R402, R411 to R425), and the CXL mailbox
commands that map onto them (R423). -/

namespace Sys2Proof.Machine

namespace State

/-! ### Firmware (R423, R424) -/

/-- The inactive slot. -/
def idleSlot (s : State) : Bool := !s.flash.slots.active

/-- Words go to a slot's image from a byte offset (a multiple of 4). -/
def imageWords (s : State) (slot : Bool) (off : Nat) (ws : List Word) : State :=
  s.setFlash { s.flash with image := (ws.foldl (fun (p : Nat × Tab Word) w => (p.1 + 1, Tab.put 0 p.2 p.1 w)) ((slotBase slot + off) / 4, s.flash.image)).2 }

/-- A chunk of `len` bytes at `off` goes to the inactive slot (R423): the slot is WRITING, the sectors it touches are erased and the pages
programmed. -/
def chunkStart (s : State) (who : Option (Fin 64 × BitVec 16)) (off : Nat) (ws : List Word) : State :=
  let slot := s.idleSlot
  let len := 4 * ws.length
  let s1 := ((s.putImage slot { s.image slot with state := .writing, good := false }).imageWords slot off ws)
  let s2 := s1.setFlash { s1.flash with work := some (.chunk who) }
  let first := (off + 65535) / 65536
  let s3 := (List.range ((off + len + 65535) / 65536 - first)).foldl (fun s k => s.flashPush (.erase (slotPart slot) (first + k))) s2
  (List.range ((len + 255) / 256)).foldl (fun s k => s.flashPush (.program (slotPart slot) (off / 256 + k) false)) s3

/-- FW_CHUNK or a commit may not start: TRIAL or BOOT_COPY is set. -/
def chunkBarred (s : State) : Bool := s.flash.slots.trial || s.flash.slots.bootCopy != 0

/-- FW_CHUNK (R423). -/
def azFwChunk (s : State) (r : AzReq) : State :=
  s.azTake r 0x0701 (s.hasRight r.chan .firmware) (lenIs 2) true fun s =>
    let off := r.n 0
    let len := r.n 1
    if off % 65536 ≠ 0 ∨ 2 ^ 24 ≤ off then s.bad 0
    else if len % 256 ≠ 0 ∨ len < 256 ∨ 2 ^ 20 < len ∨ 2 ^ 24 < off + len then s.bad 1
    else if s.chunkBarred then s.refuse .wrongState
    else if s.flash.work.isSome then s.refuse .busy
    else (s.chunkStart (some r.who) off ((List.range (len / 4)).map fun k => s.stageWord r.chan k)).later

/-- The check of an image in the inactive slot (R419, R420, R423), and what follows: PENDING where a recovery image is copied to BOOT. `ok`
says that its signature verifies. -/
def fwJudge (s : State) (who : Option (Fin 64 × BitVec 16)) (len : Nat) (ok : Bool) : State × Status :=
  let slot := s.idleSlot
  let w (k : Nat) : Word := Tab.get 0 s.flash.image (slotBase slot / 4 + k)
  let kind := bitsOf (w 1) 7 0
  let sec := bitsOf (w 1) 15 8
  let img : ImageInfo := {
    state := .valid, len := len, version := w 2, secver := BitVec.ofNat 8 sec, compat := BitVec.ofNat 16 (bitsOf (w 1) 31 16), good := true }
  if !ok ∨ w 0 ≠ 0x474D5747#32 ∨ (w 3).toNat ≠ len ∨ 1 < kind ∨ (if kind = 0 then 2 ^ 24 else 2 ^ 22) < len then (s, .badParam)
  else if sec < s.sec.arb then (s, .notPermitted)
  else
    let s1 := s.putImage slot img
    if s.paired ∧ img.compat ≠ s.twin.peerCompat then (s1, .wrongState)
    else if kind = 1 then (s1.bootCopyStart who slot, .pending)
    else
      let s2 := s1.putSlots { s1.flash.slots with active := slot, trial := true, restarts := 0 }
      ((s2.cause Reg.FLS_CAUSE 0 5 397).record Config.codeFwCommitted 0x3FF img.version, .ok)

/-- FW_COMMIT (R423): the image is read back and judged as its work ends. -/
def azFwCommit (s : State) (r : AzReq) : State :=
  s.azTake r 0x0702 (s.hasRight r.chan .firmware) (lenIs 1) true fun s =>
    if s.flash.work.isSome then s.refuse .busy
    else (s.setFlash { s.flash with work := some (.commit r.who) }).later

/-- The read-back of FW_COMMIT ends: the state, the status and the result words, or none where the command goes on. -/
def fwCommitDone (s : State) (who : Fin 64 × BitVec 16) (len : Nat) (ok : Bool) : State × Option (Status × List Word) :=
  let s1 := s.setFlash { s.flash with work := none }
  match s1.fwJudge (some who) len ok with
  | (s2, .pending) => (s2, none)
  | (s2, .badParam) => (s2, some (.badParam, [4]))
  | (s2, st) => (s2, some (st, []))

/-- An activation is refused: the running image already comes from the active slot (R424), or, while PAIRED, the active slot's compatibility level
differs from the twin's (R212). -/
def activateBarred (s : State) : Bool :=
  (s.flash.cores == .running && s.flash.runSlot == s.flash.slots.active) ||
    (s.paired && (s.image s.flash.slots.active).compat != s.twin.peerCompat)

/-- FW_ACTIVATE (R424): the cores restart into the active slot (CONTROL_CORE_RESTART), and it completes once Mingaso runs again. -/
def azFwActivate (s : State) (r : AzReq) : State :=
  s.azTake r 0x0703 (s.hasRight r.chan .firmware) (lenIs 0) true fun s =>
    if s.flash.work.isSome then s.refuse .busy
    else if s.activateBarred then s.refuse .wrongState
    else (s.setFlash { s.flash with work := some (.activate (some r.who)) }).later

/-- FW_INFO. -/
def azFwInfo (s : State) (r : AzReq) : State :=
  s.azTake r 0x0704 true (lenIs 0) false fun s =>
    s.okay [s.flash.slots.a.version, s.flash.slots.b.version, BitVec.ofNat 32 s.flash.slots.active.toNat, s.flash.runCompat.setWidth 32,
      BitVec.ofNat 32 s.sec.arb]

/-! ### The vault and the recorder -/

/-- The 256 B unit of a vault page (R402): PSEQ, KIND, LEN, two reserved bytes, 244 data bytes and the CRC. -/
def vaultUnit (p : VaultPage) : List Byte :=
  let d := p.data.bytes
  let body := natBytes p.pseq 4 ++ natBytes p.kind.val 1 ++ natBytes p.data.len 1 ++ [0, 0] ++ d ++ List.replicate (244 - d.length) 0
  body ++ wordBytes (crc32 body)

/-- The tweak of a vault page: the flash page number, and 3 in the upper half (R402). -/
def vaultTweak (page : Nat) : BitVec 128 := BitVec.ofNat 128 (3 * 2 ^ 64 + page % 2 ^ 32)

/-- What the flash holds at vault page `i`: its unit under META (R402). -/
def vaultCell (s : State) (i : Nat) : Option (BitVec 2048) :=
  s.flash.pages[i]?.map fun p =>
    Config.encrypt s.metaKey (vaultTweak (FlashPart.vault.place.1 / 256 + i)) (BitVec.ofNat 2048 ((vaultUnit p).foldr (fun b n => b.toNat + 256 * n) 0))

/-- Vault pages that fail their CRC as a reader takes them are skipped; a page that had settled is lost, and VAULT_LOSS captures it (R402,
R403). -/
def vaultLose (s : State) (lost : List Nat) : State :=
  lost.foldl (fun s i => match s.flash.pages[i]? with
    | some p =>
      if p.settled && !p.bad then
        (s.setFlash { s.flash with pages := s.flash.pages.set i { p with bad := true } }).cause Reg.FLS_CAUSE 0 3 395
      else s
    | none => s) s

/-- VAULT_READ (R402): the data bytes of a kind's pages in PSEQ order. `lost` names the pages, in flash order, that fail their CRC. -/
def azVaultRead (s : State) (r : AzReq) (lost : List Nat) : State :=
  s.azTake r 0x0705 (s.hasRight r.chan .admin) (lenIs 3) false fun s =>
    if 3 < r.n 0 then s.bad 0
    else if 2 ^ 20 < r.n 2 then s.bad 2
    else
      let s := s.vaultLose lost
      let ps := s.flash.pages.filter fun p => p.kind.val == r.n 0 && !p.bad
      let bs := ((ps.flatMap fun p => p.data.bytes).drop (r.n 1)).take (r.n 2)
      (s.stageBytes r.chan bs).okay [BitVec.ofNat 32 bs.length]

/-- The entries that archive or ring hold from an index, in INDEX order (R415). -/
def entriesFrom (s : State) (i : Nat) : List Entry :=
  let low := s.evr.next.toNat - min s.evr.next.toNat 16384
  let old := s.flash.pages.flatMap fun p => match p.data with
    | .events es => if p.bad then [] else es.filter fun e => decide (e.index.toNat < low)
    | _ => []
  let place := s.evr.next.toNat % 16384
  let ring := ((s.evr.ring.filter fun p => decide (place ≤ p.1)) ++ (s.evr.ring.filter fun p => decide (p.1 < place))).map Prod.snd
  (old ++ ring).filter fun e => decide (i ≤ e.index.toNat ∧ e.index.toNat < s.evr.next.toNat)

/-- An entry is readable on a channel (R415). -/
def entryReadable (s : State) (c : Nat) (e : Entry) : Bool :=
  secureChan c || (e.principal.toNat == c && e.agen == (s.chan c).agen)

/-- EVR_READ (R415). -/
def azEvrRead (s : State) (r : AzReq) : State :=
  s.azTake r 0x0801 true (lenIs 2) false fun s =>
    if 16384 < r.n 1 then s.bad 1
    else
      let start := max (r.n 0) s.evrOldest.toNat
      let es := ((s.entriesFrom start).filter fun e => s.entryReadable r.chan e).take (r.n 1)
      let next := if es.length < r.n 1 then s.evr.next else es.getLast?.elim (BitVec.ofNat 32 start) fun e => e.index + 1
      (s.stageBytes r.chan (es.flatMap Entry.bytes)).okay [BitVec.ofNat 32 es.length, next]

/-- EVR_CLEAR (R416): the entry at the clear index is LOG_CLEARED; the EVENTS sectors are erased in the background. -/
def azEvrClear (s : State) (r : AzReq) : State :=
  s.azTake r 0x0802 (s.hasRight r.chan .clearLog) (lenIs 0) false fun s =>
    let gone : Word := s.evr.next - s.evrOldest
    let n := (s.flash.pages.filter fun p => p.kind == 0).length
    let s1 := (s.setEvr { s.evr with clear := s.evr.next, archived := s.evr.next, paged := s.evr.next }).nvWrite Config.nvClear [s.evr.next.toNat]
    let s2 := s1.setFlash { s1.flash with pages := s1.flash.pages.filter fun p => p.kind != 0 }
    let s3 := (List.range ((n + 255) / 256)).foldl (fun s k => s.flashPush (.erase .vault k)) s2
    (s3.record Config.codeLogCleared 0x3FF gone r.chan (s3.chan r.chan).agen).okay [gone]

/-- EVR_RATE_SET (R413): both fields in one step. -/
def azEvrRateSet (s : State) (r : AzReq) : State :=
  s.azTake r 0x0803 (s.hasRight r.chan .admin) (lenIs 2) false fun s =>
    if 1023 < r.n 0 then s.bad 0
    else if r.n 1 / 2 ^ 14 ≠ 0 then s.bad 1
    else
      let b := Tab.get ({} : Bucket) s.evr.buckets (r.n 0)
      (s.putBucket (r.n 0) { b with rate := (r.p 1).setWidth 8, burst := ((r.p 1) >>> 8).setWidth 6 }).okay

/-- EVR_STATUS. -/
def azEvrStatus (s : State) (r : AzReq) : State :=
  s.azTake r 0x0804 true (lenIs 0) false fun s => s.okay [s.evrOldest, s.evr.next - 1, s.evr.archived]

/-! ### The CXL mailbox (R286, R423) -/

/-- The return code of a firmware status on the mailbox: the codes of CXL 3.1. -/
def fwReturn : Status → Nat
  | .ok => 0
  | .pending => 1
  | .busy => 6
  | .badParam => 0x0A
  | .notPermitted => 0x0A
  | _ => 4

/-- Transfer FW: 0 full, 1 initiate, 2 continue, 3 end, 4 abort. Parts come in order; the last one commits. -/
def transferFw (s : State) (action : Fin 5) (off : Nat) (data : List Word) (ok : Bool) : State × Nat × List Nat :=
  let setX (s : State) (v : Option Nat) : State := { s with cxl := { s.cxl with xfer := v } }
  let first := action = 0 ∨ action = 1
  if action = 4 then (if s.cxl.xfer.isSome then (setX s none, 0, []) else (s, 2, []))
  else if s.chunkBarred then (s, 4, [])
  else if s.flash.work.isSome then (s, 6, [])
  else if first ∧ off ≠ 0 ∨ data.isEmpty ∨ 2 ^ 24 < off + 4 * data.length ∨ off % 128 ≠ 0 then (s, 2, [])
  else if !first ∧ s.cxl.xfer.isNone then (s, 2, [])
  else if !first ∧ s.cxl.xfer ≠ some off then (s, 9, [])
  else
    let s1 := s.chunkStart none off data
    let total := off + 4 * data.length
    if action = 0 ∨ action = 3 then
      let s2 := setX s1 none
      match s2.fwJudge none total ok with
      | (s3, st) => (s3, fwReturn st, [])
    else (setX s1 (some total), 0, [])

/-- Activate FW: online as FW_ACTIVATE; offline needs no action. -/
def activateFw (s : State) (online : Bool) (slot : Nat) : State × Nat × List Nat :=
  if slot ≠ s.flash.slots.active.toNat + 1 then (s, 0x0B, [])
  else if !online then (s, 0, [])
  else if s.flash.work.isSome then (s, 6, [])
  else if s.activateBarred then (s, 2, [])
  else (s.setFlash { s.flash with work := some (.activate none) }, 1, [])

end State

/-! ### Meanings -/

/-- FW_CHUNK (R423). -/
def execFwChunk (r : AzReq) (s : State) : Res := .next (s.azFwChunk r)

/-- FW_COMMIT (R423). -/
def execFwCommit (r : AzReq) (s : State) : Res := .next (s.azFwCommit r)

/-- FW_ACTIVATE (R424). -/
def execFwActivate (r : AzReq) (s : State) : Res := .next (s.azFwActivate r)

/-- FW_INFO (R361). -/
def execFwInfo (r : AzReq) (s : State) : Res := .next (s.azFwInfo r)

/-- VAULT_READ (R361). -/
def execVaultRead (r : AzReq) (lost : List Nat) (s : State) : Res := .next (s.azVaultRead r lost)

/-- EVR_READ (R415). -/
def execEvrRead (r : AzReq) (s : State) : Res := .next (s.azEvrRead r)

/-- EVR_CLEAR (R416). -/
def execEvrClear (r : AzReq) (s : State) : Res := .next (s.azEvrClear r)

/-- EVR_RATE_SET (R413). -/
def execEvrRateSet (r : AzReq) (s : State) : Res := .next (s.azEvrRateSet r)

/-- EVR_STATUS (R361). -/
def execEvrStatus (r : AzReq) (s : State) : Res := .next (s.azEvrStatus r)

/-- TRANSFER_FW (R423): on the FM-owned LD alone. `ok` says that the image's signature verifies, where the part ends the transfer. -/
def execTransferFw (p : Fin 4) (l : Fin 16) (action : Fin 5) (off : Nat) (data : List Word) (ok : Bool) (s : State) : Res :=
  mailbox p l s fun s => if s.fmOwned p l then s.transferFw action off data ok else (s, 3, [])

/-- ACTIVATE_FW (R423): on the FM-owned LD alone. -/
def execActivateFw (p : Fin 4) (l : Fin 16) (online : Bool) (slot : Fin 4) (s : State) : Res :=
  mailbox p l s fun s => if s.fmOwned p l then s.activateFw online slot else (s, 3, [])

end Sys2Proof.Machine
end

