-- ==== Sys2Proof/Machine/AzMisc.lean ====
section
/-! DEFINITION. Bench view, scrubs, registers and the medium: the Azler commands of groups 0x0Axx and 0x0Cxx (R88, R111, R162, R166, R249, R264,
R330, R361). -/

namespace Sys2Proof.Machine

namespace State

/-! ### Bench view (R264, R265) -/

/-- BENCH_VIEW_OPEN. -/
def azBenchViewOpen (s : State) (r : AzReq) : State :=
  s.azTake r 0x0A01 (s.hasRight r.chan .bench) (lenIs 1) false fun s =>
    if 15 < r.n 0 then s.bad 0 else (s.setXlt { s.xlt with bvOpen := true, bvRefset := Fin.ofNat 16 (r.n 0) }).judgeXlt.okay

/-- BENCH_VIEW_CLOSE: lines still incomplete are discarded, and RAW_DISCARD captures it. -/
def azBenchViewClose (s : State) (r : AzReq) : State :=
  s.azTake r 0x0A02 (s.hasRight r.chan .bench) (lenIs 0) false fun s =>
    let s1 := if s.xlt.raw.isEmpty then s else s.cause Reg.XLT_CAUSE 0 6 310
    (s1.setXlt { s1.xlt with bvOpen := false, raw := [], rawHeld := [] }).judgeXlt.okay

/-! ### A requested scrub (R330) -/

/-- DRAM_SCRUB_RANGE: it drives the DRM_SREQ registers and completes with the scrub. -/
def azDramScrubRange (s : State) (r : AzReq) : State :=
  s.azTake r 0x0A03 (s.hasRight r.chan .admin) (lenIs 4) true fun s =>
    if (r.p 0).setWidth 16 ≠ 0#16 then s.bad 0
    else if (r.p 2).setWidth 16 ≠ 0#16 ∨ (r.p 2 = 0 ∧ r.p 3 = 0) then s.bad 2
    else if s.dram.sreq.isSome then s.refuse .busy
    else
      let s1 := s.setReg64 Reg.DRM_SREQ_BASE_LO Reg.DRM_SREQ_BASE_HI 0 (BitVec.ofNat 64 (r.p64 0))
      let s2 := s1.setReg64 Reg.DRM_SREQ_LEN_LO Reg.DRM_SREQ_LEN_HI 0 (BitVec.ofNat 64 (r.p64 2))
      (s2.scrubStart (some r.who)).later

/-! ### Registers (R361, R26, R28) -/

/-- The control core that Mingaso accesses registers with for a command. -/
def regCore : Requester := .core 0

/-- The access kind of P2 of REG_WRITE. -/
def accessOf (n : Nat) : AccessKind := if n = 1 then .set else if n = 2 then .clear else if n = 3 then .toggle else .primary

/-- REG_READ. -/
def azRegRead (s : State) (r : AzReq) : State :=
  s.azTake r 0x0A04 (s.hasRight r.chan .admin) (lenIs 1) false fun s =>
    if r.n 0 % 4 ≠ 0 ∨ 0x1000000 ≤ r.n 0 then s.bad 0
    else match s.readWord regCore (r.n 0 % 0x400000) with
      | none => s.bad 0
      | some (s1, w) => s1.okay [w]

/-- REG_WRITE. -/
def azRegWrite (s : State) (r : AzReq) : State :=
  s.azTake r 0x0A05 (s.hasRight r.chan .admin) (lenIs 3) false fun s =>
    if 3 < r.n 2 then s.bad 2
    else if r.n 0 % 4 ≠ 0 ∨ (s.writeBad regCore (r.n 0) (accessOf (r.n 2))).isSome then s.bad 0
    else (s.writeWord regCore (r.n 0) (accessOf (r.n 2)) (r.p 1)).okay

/-! ### The medium -/

/-- DIE_MARK_FAILED (R166). -/
def azDieMarkFailed (s : State) (r : AzReq) : State :=
  s.azTake r 0x0C01 (s.hasRight r.chan .admin) (lenIs 1) false fun s =>
    if 2303 < r.n 0 ∨ !(s.die (r.n 0)).used then s.bad 0 else (s.failDie (r.n 0)).settleMed.okay

/-- ORPHAN_SWEEP (R249): it ends as its work does. -/
def azOrphanSweep (s : State) (r : AzReq) : State := s.azTake r 0x0C02 (s.hasRight r.chan .admin) (lenIs 0) true fun s => s.later

/-- The end of an orphan sweep: the slots of lost chunks return to the free lists, and their number is the result. -/
def orphanEnd (s : State) : State × Nat := ((s.setXlt { s.xlt with orphans := [] }).settleMed, s.xlt.orphans.length)

/-- TEASEL_PASS_NOW (R162): a pass starts on each masked group whose pass is not running. -/
def azTeaselPassNow (s : State) (r : AzReq) : State :=
  s.azTake r 0x0C03 (s.hasRight r.chan .admin) (lenIs 1) false fun s =>
    let gs := (State.maskGroups (r.p 0)).filter fun g => (s.qg g).inService
    if r.n 0 / 512 ≠ 0 then s.bad 0
    else if !gs.isEmpty && gs.all fun g => (s.pass g).running then s.refuse .busy
    else (gs.foldl (fun s g => s.passNow g) s).settleMed.okay

/-- EYEBRIGHT_SWEEP (R111): it ends with the sweep. -/
def azEyebrightSweep (s : State) (r : AzReq) : State :=
  s.azTake r 0x0C04 (s.hasRight r.chan .admin) (lenIs 1) true fun s =>
    if 2303 < r.n 0 then s.bad 0
    else if !s.dieUp (r.n 0) then s.refuse .wrongState
    else if (s.die (r.n 0)).sweep then s.refuse .busy
    else (s.startSweep (r.n 0)).later

/-- MEDIUM_STATUS. -/
def azMediumStatus (s : State) (r : AzReq) : State :=
  s.azTake r 0x0C05 true (lenIs 0) false fun s =>
    s.okay [s.yrwSpare, BitVec.ofNat 32 (s.med.dies.filter fun d => d.2.failed).length,
      BitVec.ofNat 32 ((List.range 144).filter fun n => (s.qc n).lstate != .active).length, BitVec.ofNat 32 s.spoilCount]

/-- A group's channels return to service (R88, Table 17-4): the group's rail is sequenced, down first where it is up, and the group is brought up.
Nothing is to be done where every channel is ACTIVE. -/
def groupReturn (s : State) (g : Nat) : Answer :=
  let k := s.groupSlot g
  let set : BitVec 24 := BitVec.twoPow 24 k
  if (List.range 16).all fun j => (s.qc (16 * g + j)).lstate == .active then s.okay
  else if 24 ≤ k ∨ !(s.seq k).en then s.refuse .wrongState
  else if s.psq.trans.isSome then s.refuse .busy
  else
    let s1 := if (s.qg g).railsUp then s.railsDownGroup g else s
    let kind : TransKind := .groupUp (Fin.ofNat 9 g)
    (if (s1.rail k).en || (s1.rail k).pg then (s1.startDown kind set).transCheck else (s1.startUp kind set).transCheck).okay

/-- CHANNEL_OFFLINE (R88). -/
def azChannelOffline (s : State) (r : AzReq) : State :=
  s.azTake r 0x0C06 (s.hasRight r.chan .admin) (lenIs 2) false fun s =>
    if 143 < r.n 0 then s.bad 0
    else if r.n 1 / 2 ≠ 0 then s.bad 1
    else if r.n 1 = 1 then (s.offlineChan (r.n 0)).settleMed.okay
    else s.groupReturn (r.n 0 / 16)

end State

/-- The packet with bit 0 of P1 given: rows that share an opcode fix it. -/
def AzReq.withP1Bit (r : AzReq) (b : Bool) : AzReq := { r with params := match r.params with
  | p0 :: p1 :: t => p0 :: ((p1 &&& 0xFFFFFFFE#32) ||| BitVec.ofNat 32 b.toNat) :: t
  | l => l }

/-! ### Meanings -/

/-- BENCH_VIEW_OPEN (R264). -/
def execBenchViewOpen (r : AzReq) (s : State) : Res := .next (s.azBenchViewOpen r)

/-- BENCH_VIEW_CLOSE (R265). -/
def execBenchViewClose (r : AzReq) (s : State) : Res := .next (s.azBenchViewClose r)

/-- DRAM_SCRUB_RANGE (R330). -/
def execDramScrubRange (r : AzReq) (s : State) : Res := .next (s.azDramScrubRange r)

/-- REG_READ (R361). -/
def execRegRead (r : AzReq) (s : State) : Res := .next (s.azRegRead r)

/-- REG_WRITE (R361). -/
def execRegWrite (r : AzReq) (s : State) : Res := .next (s.azRegWrite r)

/-- DIE_MARK_FAILED (R166). -/
def execDieMarkFailed (r : AzReq) (s : State) : Res := .next (s.azDieMarkFailed r)

/-- ORPHAN_SWEEP (R249). -/
def execOrphanSweep (r : AzReq) (s : State) : Res := .next (s.azOrphanSweep r)

/-- TEASEL_PASS_NOW (R162). -/
def execTeaselPassNow (r : AzReq) (s : State) : Res := .next (s.azTeaselPassNow r)

/-- EYEBRIGHT_SWEEP (R111). -/
def execEyebrightSweep (r : AzReq) (s : State) : Res := .next (s.azEyebrightSweep r)

/-- MEDIUM_STATUS (R361). -/
def execMediumStatus (r : AzReq) (s : State) : Res := .next (s.azMediumStatus r)

/-- CHANNEL_OFFLINE (R88): CHANNEL_OFFLINE with P1 bit 0 set. -/
def execChannelOffline (r : AzReq) (s : State) : Res := .next (s.azChannelOffline (r.withP1Bit true))

/-- CHANNEL_RETURN (R88): CHANNEL_OFFLINE with P1 bit 0 clear. -/
def execChannelReturn (r : AzReq) (s : State) : Res := .next (s.azChannelOffline (r.withP1Bit false))

end Sys2Proof.Machine
end

