-- ==== Sys2Proof/Machine/AzObject.lean ====
section
/-! DEFINITION. The Azler commands of groups 0x03xx and 0x04xx: objects and hints (R254, R255), and the pair (R211, R220 to R230). -/

namespace Sys2Proof.Machine

/-- The hint of a code (Table 10-6). -/
def Hint.ofCode (n : Nat) : Hint := if n = 1 then .keep else if n = 2 then .stream else if n = 3 then .cold else .none

namespace State

/-- An object record (Table 10-6). -/
def object (s : State) (i : Nat) : Object := Tab.get {} s.xlt.objects i

/-- Replaces an object record, through the journal; hints act at once (R255). -/
def putObject (s : State) (i : Nat) (o : Object) : State :=
  ((s.setXlt { s.xlt with objects := Tab.put {} s.xlt.objects i o }).journal (.object i)).hintScan

/-- EXPIRY of a TTL (R255). -/
def expiryOf (s : State) (ttl : Nat) : BitVec 48 := (s.tally.now >>> 16).setWidth 48 + BitVec.ofNat 48 ttl

/-- EXPIRY as two result words. -/
def expiryWords (o : Object) : List Word := [o.expiry.setWidth 32, (o.expiry >>> 32).setWidth 32]

/-- The channel may change an object: its owner, or a secure channel; only a secure channel learns that there is none. -/
def mayObject (s : State) (c i : Nat) : Bool :=
  secureChan c || ((s.object i).region != 0 && (s.object i).owner == c)

/-- The object with the HINT and WINDOW of a word and a TTL; a TTL of 0 sets NONE (R255). -/
def hinted (s : State) (o : Object) (w ttl : Nat) : Object :=
  { o with hint := if ttl = 0 then .none else Hint.ofCode (w % 256), window := w / 256 % 256, expiry := s.expiryOf ttl }

/-- OBJECT_CREATE (R254, R255). -/
def azObjectCreate (s : State) (r : AzReq) : State :=
  let q := r.n 0
  s.azTake r 0x0301 (s.mayRead r.chan q) (lenIs 8) false fun s =>
    let first := r.p64 1
    let count := r.p64 3
    let size := (s.region q).size
    if !s.isRegion q then s.bad 0
    else if size ≤ first then s.bad 1
    else if count = 0 ∨ size < first + count then s.bad 3
    else if r.n 5 / 65536 ≠ 0 ∨ 3 < r.n 5 % 256 then s.bad 5
    else if 2 ^ 40 ≤ r.p64 6 then s.bad 6
    else
      match (List.range (s.xlt.objects.length + 1)).find? fun i => (s.object i).region == 0 with
      | none => s.refuse .noResource
      | some i =>
        if 65536 ≤ i then s.refuse .noResource
        else (s.putObject i (s.hinted { region := q, first := first, count := count, owner := r.chan } (r.n 5) (r.p64 6))).okay [BitVec.ofNat 32 i]

/-- OBJECT_DELETE (R254). -/
def azObjectDelete (s : State) (r : AzReq) : State :=
  s.azTake r 0x0302 (s.mayObject r.chan (r.n 0)) (lenIs 1) false fun s =>
    if (s.object (r.n 0)).region = 0 then s.bad 0
    else
      let s1 := s.closeWindows fun w => w.object == r.n 0
      (s1.putObject (r.n 0) {}).okay

/-- HINT_SET (R255). -/
def azHintSet (s : State) (r : AzReq) : State :=
  s.azTake r 0x0303 (s.mayObject r.chan (r.n 0)) (lenIs 4) false fun s =>
    if (s.object (r.n 0)).region = 0 then s.bad 0
    else if r.n 1 / 65536 ≠ 0 ∨ 3 < r.n 1 % 256 then s.bad 1
    else if 2 ^ 40 ≤ r.p64 2 then s.bad 2
    else
      let o := s.hinted (s.object (r.n 0)) (r.n 1) (r.p64 2)
      (s.putObject (r.n 0) o).okay (expiryWords o)

/-- HINT_EXTEND (R255): a sum beyond the 48 bits of EXPIRY is refused. -/
def azHintExtend (s : State) (r : AzReq) : State :=
  s.azTake r 0x0304 (s.mayObject r.chan (r.n 0)) (lenIs 3) false fun s =>
    let o := s.object (r.n 0)
    if o.region = 0 then s.bad 0
    else if 2 ^ 48 ≤ o.expiry.toNat + r.p64 1 then s.bad 1
    else
      let o1 := { o with expiry := o.expiry + BitVec.ofNat 48 (r.p64 1) }
      (s.putObject (r.n 0) o1).okay (expiryWords o1)

/-- OBJECT_LIST: up to 15 objects of a region, from an object id. -/
def azObjectList (s : State) (r : AzReq) : State :=
  s.azTake r 0x0305 (s.mayRead r.chan (r.n 0)) (lenIs 2) false fun s =>
    if !s.isRegion (r.n 0) then s.bad 0
    else
      let os := (s.xlt.objects.filter fun o => o.2.region == r.n 0 && decide (r.n 1 ≤ o.1)).take 15
      s.okay (BitVec.ofNat 32 os.length :: os.flatMap fun o =>
        [BitVec.ofNat 32 o.1, BitVec.ofNat 32 o.2.first, BitVec.ofNat 32 o.2.count, BitVec.ofNat 32 o.2.hint.code])

/-! ### The pair -/

/-- PAIR_BIND (R211): the hash's first byte is its most significant (R239). -/
def azPairBind (s : State) (r : AzReq) : State :=
  s.azTake r 0x0401 (s.hasRight r.chan .admin) (lenIs 12) false fun s =>
    if s.paired then s.refuse .wrongState
    else
      let h := (r.params.take 12).foldl (fun a w => a * 2 ^ 32 +
        ((w.extractLsb' 0 8 ++ w.extractLsb' 8 8) ++ (w.extractLsb' 16 8 ++ w.extractLsb' 24 8)).toNat) 0
      ((s.setTwin { s.twin with binding := some h }).nvWrite Config.nvPair [h]).okay

/-- PAIR_STATUS. -/
def azPairStatus (s : State) (r : AzReq) : State :=
  s.azTake r 0x0402 true (lenIs 0) false fun s =>
    s.okay (s.tdmStatus :: (List.range 4).map (fun k => (s.twin.peerUid >>> (32 * k)).setWidth 32) ++ [s.twin.rtt.setWidth 32])

/-- The regions that a parameter of a witness command names: one, or every valid one for 0xFFFF. -/
def witnessed (s : State) (q : Nat) : List Nat := if q = 0xFFFF then s.regionIds else [q]

/-- A witness command (R220 to R222, R361): any secure channel passes check 7, and the WITNESS right is asked at check 10. -/
def azWitness (s : State) (r : AzReq) (opcode : Nat) (body : State → List Nat → Answer) : State :=
  s.azTake r opcode (secureChan r.chan) (lenIs 1) false fun s =>
    if r.n 0 ≠ 0xFFFF ∧ !s.isRegion (r.n 0) then s.bad 0
    else if !s.hasRight r.chan .witness then s.refuse .witnessRequired
    else body s (s.witnessed (r.n 0))

/-- SOLO (R220): the regions this controller is home of. -/
def azSolo (s : State) (r : AzReq) : State :=
  s.azWitness r 0x0403 fun s rs =>
    let mine := rs.filter fun q => (s.rt q).home
    if s.paired ∨ mine = [] then s.refuse .wrongState
    else (mine.foldl (fun s q => s.soloRegion q) s).settleTwin.okay

/-- TAKEOVER (R221): the regions this controller is not home of; the answer is the highest new TERM. -/
def azTakeover (s : State) (r : AzReq) : State :=
  s.azWitness r 0x0404 fun s rs =>
    let mine := rs.filter fun q => !(s.rt q).home
    if s.paired ∨ mine = [] then s.refuse .wrongState
    else
      let s1 := (mine.foldl (fun s q => s.takeoverRegion q) s).settleTwin
      s1.okay [mine.foldl (fun (a : Word) q => if a < (s1.rt q).term then (s1.rt q).term else a) 0]

/-- FENCE (R222); during a move of the home role it waits for its end (R232). -/
def azFence (s : State) (r : AzReq) : State :=
  s.azWitness r 0x0405 fun s rs =>
    (rs.foldl (fun (s : State) q => if (s.rt q).handing.isSome then s.setRt q { s.rt q with fenceNext := true } else s.fenceWitness q) s).settleTwin.okay

/-- MOVE_HOME (R229). -/
def azMoveHome (s : State) (r : AzReq) : State :=
  s.azTake r 0x0406 (s.hasRight r.chan .admin) (lenIs 1) true fun s =>
    let q := r.n 0
    let v := s.rt q
    if !s.isRegion q then s.bad 0
    else if !s.paired || !v.home || !v.marks.isEmpty || v.source || v.target || v.handing.isSome then s.refuse .wrongState
    else { s.later with after := fun s => (s.setRt q { s.rt q with handing := some (some r.who) }).settleTwin }

/-- DETACH (R230). -/
def azDetach (s : State) (r : AzReq) : State :=
  s.azTake r 0x0407 (s.hasRight r.chan .admin) (lenIs 0) true fun s =>
    if !s.paired || s.twin.detaching then s.refuse .wrongState
    else { s.later with after := fun s => (s.detachStart (some r.who)).settleTwin }

/-- REJOIN (R230): the controller may pair again. -/
def azRejoin (s : State) (r : AzReq) : State :=
  s.azTake r 0x0408 (s.hasRight r.chan .admin) (lenIs 0) false fun s =>
    if s.twin.pair ≠ .detached then s.refuse .wrongState
    else
      let s1 := s.setPair .unpaired
      (if (s1.tport false).st == .up || (s1.tport true).st == .up then startPairing s1 ((s1.tport false).st != .up) else s1).judgeTdm.okay

end State

/-! ### Meanings -/

/-- OBJECT_CREATE (R254). -/
def execObjectCreate (r : AzReq) (s : State) : Res := .next (s.azObjectCreate r)

/-- OBJECT_DELETE (R254). -/
def execObjectDelete (r : AzReq) (s : State) : Res := .next (s.azObjectDelete r)

/-- HINT_SET (R255). -/
def execHintSet (r : AzReq) (s : State) : Res := .next (s.azHintSet r)

/-- HINT_EXTEND (R361). -/
def execHintExtend (r : AzReq) (s : State) : Res := .next (s.azHintExtend r)

/-- OBJECT_LIST (R361). -/
def execObjectList (r : AzReq) (s : State) : Res := .next (s.azObjectList r)

/-- PAIR_BIND (R211). -/
def execPairBind (r : AzReq) (s : State) : Res := .next (s.azPairBind r)

/-- PAIR_STATUS (R361). -/
def execPairStatus (r : AzReq) (s : State) : Res := .next (s.azPairStatus r)

/-- SOLO (R220). -/
def execSolo (r : AzReq) (s : State) : Res := .next (s.azSolo r)

/-- TAKEOVER (R221). -/
def execTakeover (r : AzReq) (s : State) : Res := .next (s.azTakeover r)

/-- FENCE (R222). -/
def execFence (r : AzReq) (s : State) : Res := .next (s.azFence r)

/-- MOVE_HOME (R229). -/
def execMoveHome (r : AzReq) (s : State) : Res := .next (s.azMoveHome r)

/-- DETACH (R230). -/
def execDetach (r : AzReq) (s : State) : Res := .next (s.azDetach r)

/-- REJOIN (R230). -/
def execRejoin (r : AzReq) (s : State) : Res := .next (s.azRejoin r)

end Sys2Proof.Machine
end

