-- ==== Sys2Proof/Machine/AzRdma.lean ====
section
/-! DEFINITION. RDMA objects: the Azler commands of group 0x0Bxx (R295, R304 to R309). -/

namespace Sys2Proof.Machine

/-- The first key that a sparse table has free, below a limit. -/
def firstFree {α : Type} (t : Tab (Option α)) (limit : Nat) : Option Nat :=
  (List.range (min (t.length + 1) limit)).find? fun k => (Tab.get none t k).isNone

namespace State

/-- GID_SET (R295). -/
def azGidSet (s : State) (r : AzReq) : State :=
  s.azTake r 0x0B01 (s.hasRight r.chan .admin) (lenIs 7) false fun s =>
    if 31 < r.n 0 then s.bad 0
    else if 15 < r.n 1 then s.bad 1
    else if r.p 6 &&& 0xFFFEF000#32 ≠ 0 then s.bad 6
    else
      let g : BitVec 128 := BitVec.ofNat 128 (r.p64 2 + r.p64 4 * 2 ^ 64)
      let m := s.mac (r.n 0)
      let v := if (r.p 6).getLsbD 16 then some ((r.p 6).setWidth 12) else none
      (s.setMac (r.n 0) { m with gids := Tab.put none m.gids (r.n 1) (some (g, v)) }).okay

/-! ### Protection domains (R304) -/

/-- PD `i`. -/
def pdAt (s : State) (i : Nat) : Option Pd := Tab.get none s.rdma.pds i

/-- Replaces PD `i`. -/
def setPd (s : State) (i : Nat) (v : Pd) : State := { s with rdma := { s.rdma with pds := Tab.put none s.rdma.pds i (some v) } }

/-- A PD that exists belongs to the channel. -/
def pdMine (s : State) (c i : Nat) : Bool := (s.pdAt i).all fun p => p.chan == c

/-- PD_CREATE. -/
def azPdCreate (s : State) (r : AzReq) : State :=
  s.azTake r 0x0B02 true (lenIs 0) false fun s =>
    if s.sec.trngFail then s.refuse .wrongState
    else match firstFree s.rdma.pds 4096 with
      | none => s.refuse .noResource
      | some i =>
        let t := Config.trng s.fresh
        (s.draw.setPd i { chan := r.chan.val, token := t }).okay [BitVec.ofNat 32 i, t]

/-- PD_DESTROY: its windows and completion queues go with it. -/
def azPdDestroy (s : State) (r : AzReq) : State :=
  s.azTake r 0x0B03 (s.pdMine r.chan (r.n 0)) (lenIs 1) false fun s =>
    if (s.pdAt (r.n 0)).isNone then s.bad 0 else (s.pdDestroy (r.n 0)).okay

/-- PD_TOKEN: a new TOKEN refuses later REQs that carry the old one. -/
def azPdToken (s : State) (r : AzReq) : State :=
  s.azTake r 0x0B04 (s.pdMine r.chan (r.n 0)) (lenIs 1) false fun s =>
    match s.pdAt (r.n 0) with
    | none => s.bad 0
    | some p =>
      if s.sec.trngFail then s.refuse .wrongState
      else
        let t := Config.trng s.fresh
        (s.draw.setPd (r.n 0) { p with token := t }).okay [t]

/-! ### Windows (R305, R306, R358) -/

/-- A window may cover the region: one that the principal reaches, with WRITE or ATOMIC only where it may write it, or its own staging window. -/
def windowReach (s : State) (c q rights rofs len : Nat) : Bool :=
  if q = stagingRegion then rofs == c * 2 ^ 20 && decide (len ≤ 2 ^ 20)
  else !s.isRegion q || (s.mayRead c q && (rights / 2 % 4 == 0 || s.mayWrite c q))

/-- WINDOW_CREATE. The TAG is drawn afresh. -/
def azWindowCreate (s : State) (r : AzReq) : State :=
  let q := r.n 1
  let rofs := r.p64 5
  let len := r.p64 7
  s.azTake r 0x0B05 (s.pdMine r.chan (r.n 0) && s.windowReach r.chan q (r.n 2) rofs len) (lenIs 9) false fun s =>
    if (s.pdAt (r.n 0)).isNone then s.bad 0
    else if q ≠ stagingRegion ∧ !s.isRegion q then s.bad 1
    else if 31 < r.n 2 then s.bad 2
    else if rofs % 4096 ≠ 0 then s.bad 5
    else if len % 4096 ≠ 0 ∨ len < 4096 ∨ (q ≠ stagingRegion ∧ (s.region q).size * 65536 < rofs + len) then s.bad 7
    else match firstFree s.rdma.wins 262144 with
      | none => s.refuse .noResource
      | some i =>
        let tag : BitVec 14 := (Config.trng s.fresh).setWidth 14
        let w : MemWin := {
          tag := tag, pd := r.n 0, region := q, rights := (r.p 2).setWidth 5, vaBase := r.p64 3, rofs := rofs, len := len }
        let s1 := s.draw
        ({ s1 with rdma := { s1.rdma with wins := Tab.put none s1.rdma.wins i (some w) } }).okay [BitVec.ofNat 32 (i * 2 ^ 14 + tag.toNat)]

/-- A window that exists lies in a PD of the channel. -/
def windowMine (s : State) (c : Nat) (key : Word) : Bool := (s.window key).all fun w => s.pdMine c w.pd

/-- WINDOW_DESTROY: requests checked from now on fail. -/
def azWindowDestroy (s : State) (r : AzReq) : State :=
  s.azTake r 0x0B06 (s.windowMine r.chan (r.p 0)) (lenIs 1) false fun s =>
    if (s.window (r.p 0)).isNone then s.bad 0
    else ({ s with rdma := { s.rdma with wins := Tab.erase s.rdma.wins (r.n 0 / 2 ^ 14) } }).okay

/-! ### Rings (R308, R309) -/

/-- Where a ring of `len` bytes lies: a window of the PD on a region, 64 B aligned; or the parameter that is wrong, the key's or the address's. -/
def ringAt (s : State) (pd : Nat) (key : Word) (va len : Nat) : Bool × Option (Nat × Nat) :=
  match s.window key with
  | none => (true, none)
  | some w =>
    let off := w.rofs + (va - w.vaBase)
    if w.pd ≠ pd ∨ w.region = stagingRegion then (true, none)
    else if va < w.vaBase ∨ w.vaBase + w.len < va + len ∨ off % 64 ≠ 0 then (false, none)
    else (false, some (w.region, off))

/-- CQ_CREATE. -/
def azCqCreate (s : State) (r : AzReq) : State :=
  s.azTake r 0x0B07 (s.pdMine r.chan (r.n 0)) (lenIs 5) false fun s =>
    if (s.pdAt (r.n 0)).isNone then s.bad 0
    else if r.n 4 < 6 ∨ 20 < r.n 4 then s.bad 4
    else match s.ringAt (r.n 0) (r.p 1) (r.p64 2) (64 + 32 * 2 ^ r.n 4), firstFree s.rdma.cqs 65536 with
      | (k, none), _ => s.bad (if k then 1 else 2)
      | (_, some _), none => s.refuse .noResource
      | (_, some (g, off)), some i =>
        ({ s with rdma := { s.rdma with cqs := Tab.put none s.rdma.cqs i (some { region := g, off := off, n := r.n 4, pd := r.n 0 }) } }).okay
          [BitVec.ofNat 32 i]

/-- CQ_DESTROY. -/
def azCqDestroy (s : State) (r : AzReq) : State :=
  s.azTake r 0x0B08 ((s.cq (r.n 0)).all fun q => s.pdMine r.chan q.pd) (lenIs 1) false fun s =>
    if (s.cq (r.n 0)).isNone then s.bad 0
    else ({ s with rdma := { s.rdma with cqs := Tab.erase s.rdma.cqs (r.n 0) } }).settleRdma.okay

/-! ### Queue pairs -/

/-- The queue pair of a QPN, where it is or was connected. -/
def qpOf (s : State) (qpn : Nat) : Option Nat :=
  if 0x10000 ≤ qpn ∧ qpn < 0x20000 ∧ (s.qp (qpn - 0x10000)).connected then some (qpn - 0x10000) else none

/-- A queue pair that is there belongs to the channel: by its PD, or a management QP's own. -/
def qpMine (s : State) (c qpn : Nat) : Bool :=
  (s.qpOf qpn).all fun n => match (s.qp n).mgmt with
    | some m => m.val == c
    | none => (s.pdAt (s.qp n).pd).any fun p => p.chan == c

/-- SQ_ATTACH (R309): the queue starts empty. Its CQ takes the completions of its WQEs and of WRITEs with immediate it receives. -/
def azSqAttach (s : State) (r : AzReq) : State :=
  s.azTake r 0x0B09 (s.qpMine r.chan (r.n 0)) (lenIs 7) false fun s =>
    match s.qpOf (r.n 0) with
    | none => s.bad 0
    | some n =>
      let q := s.qp n
      if q.mgmt.isSome then s.bad 0
      else if r.n 4 < 4 ∨ 16 < r.n 4 then s.bad 4
      else if !((s.cq (r.n 5)).any fun c => c.pd == q.pd) then s.bad 5
      else match s.ringAt q.pd (r.p 1) (r.p64 2) (64 * 2 ^ r.n 4) with
        | (k, none) => s.bad (if k then 1 else 2)
        | (_, some (g, off)) =>
          if q.error ∨ q.flight ≠ [] ∨ q.wqes ≠ [] ∨ q.sqHead ≠ q.sqTail then s.refuse .wrongState
          else (s.setQp n { q with
            sqRegion := g, sqOff := off, sqN := some (r.n 4), sqHead := 0, sqTail := 0, scq := some (r.n 5), rcq := some (r.n 5), ackUs := r.n 6 }).okay

/-- SQ_DOORBELL (R309): the entries up to the producer index are posted. -/
def azSqDoorbell (s : State) (r : AzReq) : State :=
  s.azTake r 0x0B0A (s.qpMine r.chan (r.n 0)) (lenIs 2) false fun s =>
    match s.qpOf (r.n 0) with
    | none => s.bad 0
    | some n =>
      let q := s.qp n
      let tail := q.sqTail + (r.n 1 + 65536 - q.sqTail % 65536) % 65536
      match q.sqN with
      | none => s.refuse .wrongState
      | some k =>
        if 65535 < r.n 1 ∨ q.sqHead + 2 ^ k < tail then s.bad 1
        else if q.error then s.refuse .wrongState
        else (s.setQp n { q with sqTail := tail }).settleRdma.okay

/-- QP_INFO: state 1 connected, 2 error. -/
def azQpInfo (s : State) (r : AzReq) : State :=
  s.azTake r 0x0B0B (s.qpMine r.chan (r.n 0)) (lenIs 1) false fun s =>
    match s.qpOf (r.n 0) with
    | none => s.bad 0
    | some n => s.okay [if (s.qp n).error then 2 else 1, (s.qp n).txPsn.setWidth 32, (s.qp n).epsn.setWidth 32]

end State

/-! ### Meanings -/

/-- GID_SET (R295). -/
def execGidSet (r : AzReq) (s : State) : Res := .next (s.azGidSet r)

/-- PD_CREATE (R304). -/
def execPdCreate (r : AzReq) (s : State) : Res := .next (s.azPdCreate r)

/-- PD_DESTROY (R304). -/
def execPdDestroy (r : AzReq) (s : State) : Res := .next (s.azPdDestroy r)

/-- PD_TOKEN (R304). -/
def execPdToken (r : AzReq) (s : State) : Res := .next (s.azPdToken r)

/-- WINDOW_CREATE (R305). -/
def execWindowCreate (r : AzReq) (s : State) : Res := .next (s.azWindowCreate r)

/-- WINDOW_DESTROY (R306). -/
def execWindowDestroy (r : AzReq) (s : State) : Res := .next (s.azWindowDestroy r)

/-- CQ_CREATE (R308). -/
def execCqCreate (r : AzReq) (s : State) : Res := .next (s.azCqCreate r)

/-- CQ_DESTROY (R308). -/
def execCqDestroy (r : AzReq) (s : State) : Res := .next (s.azCqDestroy r)

/-- SQ_ATTACH (R309). -/
def execSqAttach (r : AzReq) (s : State) : Res := .next (s.azSqAttach r)

/-- SQ_DOORBELL (R309). -/
def execSqDoorbell (r : AzReq) (s : State) : Res := .next (s.azSqDoorbell r)

/-- QP_INFO (R361). -/
def execQpInfo (r : AzReq) (s : State) : Res := .next (s.azQpInfo r)

end Sys2Proof.Machine
end

