-- ==== Sys2Proof/Machine/AzRegion.lean ====
section
/-! DEFINITION. Regions: allocation of ids, extents and permutations (R239, R243, R469), and the Azler commands of group 0x02xx
(Table 14-6). -/

namespace Sys2Proof.Machine

namespace State

/-! ### Allocation (R239, R243) -/

/-- The values of PERM_A: 1 to 143, divisible by none of 2, 3, 5 and 7 (R243). -/
def permAs : List Nat := (List.range 144).filter fun a => a % 2 != 0 && a % 3 != 0 && a % 5 != 0 && a % 7 != 0

/-- `want` numbers from `i` upwards that are not used, over `fuel` of them. -/
def pickUp (used : List Nat) : Nat → Nat → Nat → List Nat
  | 0, _, _ => []
  | _, _, 0 => []
  | f + 1, i, w + 1 => if used.contains i then pickUp used f (i + 1) (w + 1) else i :: pickUp used f (i + 1) w

/-- `want` numbers from `i` downwards that are not used, over `fuel` of them. -/
def pickDown (used : List Nat) : Nat → Nat → Nat → List Nat
  | 0, _, _ => []
  | _, _, 0 => []
  | f + 1, i, w + 1 => if used.contains i then pickDown used f (i - 1) (w + 1) else i :: pickDown used f (i - 1) w

/-- The extents in use. -/
def usedExtents (s : State) : List Nat := s.xlt.regions.flatMap fun p => if p.2.valid then p.2.extents else []

/-- `k` free extents, by the pair state (R236, R239); none where there are too few. Not PAIRED, side 1 takes the upper half, highest first. -/
def takeExtents (s : State) (k : Nat) : Option (List Nat) :=
  let n := min s.xlt.extents s.xlt.peerExtents
  let xs := if s.paired then pickUp s.usedExtents n 0 k
    else if s.side0 then pickUp s.usedExtents (n / 2) 0 k
    else pickDown s.usedExtents (n - n / 2) (n - 1) k
  if xs.length = k then some xs else none

/-- A free region id, by the pair state (R239). -/
def takeId (s : State) : Option Nat :=
  if s.paired then (pickUp s.regionIds 4095 1 1).head?
  else if s.side0 then (pickUp s.regionIds 2047 1 1).head?
  else (pickDown s.regionIds 2048 4095 1).head?

/-- The extents a size needs (Table 10-1). -/
def extentsFor (size : Nat) : Nat := (size + 16383) / 16384

/-- Creation or growth by `more` cells is admitted (R143, R144). -/
def mayReserve (s : State) (more : Nat) : Bool :=
  s.pairCap != .amber && s.pairCap != .red && decide (s.heldUnits + more ≤ s.limitUnits)

/-- How a new region stands towards hosts (R12, R20): open while PAIRED; after a loss of the link held, or solo once the fence interval has elapsed under
AVAILABLE; solo on the controller left serving after DETACH; else not open until pairing or SOLO. -/
def newTwin (s : State) (strict : Bool) : RTwin :=
  if s.paired then { opened := true }
  else if s.twin.joined && s.twin.pair == .lost then { opened := true, solo := !strict && !s.twin.fenceWait, held := strict || s.twin.fenceWait }
  else if s.twin.joined && s.twin.pair == .detached then { opened := true, solo := true }
  else {}

/-- Allocates a new region (R237, R243): its id, extents and permutation, both numbers drawn. Its key slot is EMPTY, or AWAITING_SHARE. -/
def allocRegion (s : State) (size : Nat) (m : Mode) (strict share : Bool) : Option (State × Nat) :=
  match s.takeId, s.takeExtents (extentsFor size) with
  | some r, some xs =>
    let a := permAs.getD ((Config.trng s.fresh).toNat % permAs.length) 1
    let b := (Config.trng (s.fresh + 1)).toNat % 144
    let v : Region := { valid := true, mode := m, strict := strict, keyIndex := r, size := size, extents := xs, permA := a, permB := b }
    let s1 := (s.draw.draw.setRegion r v).journal (.region r)
    let s2 := { s1 with sec := { s1.sec with slots := Tab.put {} s1.sec.slots r {
      state := if share then .awaitingShare else .empty, shareRequired := share } } }
    some (s2.putRt r (s2.newTwin strict), r)
  | _, _ => none

/-- Creates a region on the controller that allocates it (R239, R469), as home or for the twin. While PAIRED its record goes to the twin at
ROS 0, and it waits for the twin to hold it. -/
def createHere (s : State) (size : Nat) (m : Mode) (strict share home : Bool) : Option (State × Nat) :=
  match s.allocRegion size m strict share with
  | none => none
  | some (s1, r) =>
    let s2 := s1.setRt r { s1.rt r with home := home }
    let (s3, id) := if home then s2.keyDraw r share else (s2, 0)
    if s3.paired then
      let rec' := s3.region r
      let s4 := s3.putRt r { s3.rt r with attrVer := (s3.rt r).attrVer + 1 }
      let s5 := s4.tsend (r % 2 == 1) (.control (.regionAttr r 0 (s4.rt r).attrVer {
        record := rec', share := share, keyId := if home && !share then some id else none }))
      some (s5.setRegion r { rec' with opening := true }, r)
    else some (s3, r)

/-- Grows a region by appended extents (R239); while PAIRED the record goes to the twin at its place in the region's order (R469). -/
def growHere (s : State) (r size : Nat) : Option State :=
  let v := s.region r
  match s.takeExtents (extentsFor size - v.extents.length) with
  | none => none
  | some xs =>
    let v1 := { v with size := size, extents := v.extents ++ xs }
    some (((s.setRegion r v1).journal (.region r)).sendAttr r { record := { v1 with opening := false } })

/-! ### ALLOCATE (R469) -/

/-- Side 0 takes a request of side 1: the same checks as for its own, and the answer before the record. -/
def allocAsk (s : State) (grow : Option Nat) (size : Nat) (m : Mode) (flags : Nat) : State :=
  let answer (s : State) (st : Status) (r : Nat) : State := s.tsend false (.control (.allocate (.answer st.code r)))
  match grow with
  | none =>
    if !s.mayReserve (size * settUnits m) then answer s .noSpace 0
    else
      let id := s.takeId.getD 0
      match (answer s .ok id).createHere size m (flags.testBit 0) (flags.testBit 1) (flags.testBit 2) with
      | some (s1, _) => s1
      | none => answer s .noResource 0
  | some r =>
    let v := s.region r
    if !v.valid then answer s .badParam r
    else if !s.mayReserve ((size - v.size) * settUnits v.mode) then answer s .noSpace r
    else match (answer s .ok r).growHere r size with
      | some s1 => s1
      | none => answer s .noResource r

/-- Side 1 takes the outcome of its oldest request: a refusal ends the command; an accepted creation makes this controller home, except
under HOME_TWIN, and the command ends once the record has come. -/
def allocAnswer (s : State) (status r : Nat) : State :=
  match s.twin.waitAlloc with
  | [] => s
  | none :: rest => s.setTwin { s.twin with waitAlloc := rest }
  | some (c, tag) :: rest =>
    let s1 := s.setTwin { s.twin with waitAlloc := rest }
    match (s1.chan c).ops.find? fun o => o.tag == tag with
    | none => s1
    | some o =>
      if status = 0 then
        if o.opcode = 0x0201#16 then
          let s2 := s1.setChan c { s1.chan c with ops := (s1.chan c).ops.map fun p => if p.tag == tag then { p with res := [BitVec.ofNat 32 r] } else p }
          if (o.params.getD 1 0).getLsbD 4 then s2 else s2.setRt r { s2.rt r with home := true }
        else s1
      else
        let st : Status := if status = Status.noSpace.code then .noSpace else if status = Status.noResource.code then .noResource else .badParam
        s1.complete c tag st (if st = .badParam then [4] else [])

/-! ### Commands -/

/-- REGION_CREATE (R239, R361, R372, R469). -/
def azRegionCreate (s : State) (r : AzReq) : State :=
  s.azTake r 0x0201 (s.hasRight r.chan .admin) (lenIs 2) true fun s =>
    let size := r.n 0
    let f := r.n 1
    let m := Mode.ofCode f
    if size = 0 ∨ 2 ^ 31 ≤ size then s.bad 0
    else if f / 32 ≠ 0 ∨ f % 4 = 0 then s.bad 1
    else if f.testBit 4 && !s.paired then s.refuse .twinUnavailable
    else if s.sec.trngFail then s.refuse .wrongState
    else if !s.mayReserve (size * settUnits m) then s.refuse .noSpace
    else if s.paired && !s.side0 then
      ((s.setTwin { s.twin with waitAlloc := s.twin.waitAlloc ++ [some r.who] }).tsend false
        (.control (.allocate (.ask none size m (f / 4))))).later
    else match s.createHere size m (f.testBit 2) (f.testBit 3) (!f.testBit 4) with
      | none => s.refuse .noResource
      | some (s1, id) =>
        let s2 := if f.testBit 4 then (s1.setRt id { s1.rt id with handing := some none }).tsend false (.control (.handover id 1 0)) else s1
        s2.settleMed.later [BitVec.ofNat 32 id]

/-- REGION_DELETE (R239, R240). -/
def azRegionDelete (s : State) (r : AzReq) : State :=
  s.azTake r 0x0202 (s.hasRight r.chan .admin) (lenIs 1) true fun s =>
    let q := r.n 0
    if !s.isRegion q then s.bad 0
    else ((s.sendAttr q { record := s.region q, deleted := true }).regionGone q).settleMed.later

/-- REGION_RESIZE (R239, R374). -/
def azRegionResize (s : State) (r : AzReq) : State :=
  s.azTake r 0x0203 (s.hasRight r.chan .admin) (lenIs 2) true fun s =>
    let q := r.n 0
    let size := r.n 1
    let v := s.region q
    if !s.isRegion q then s.bad 0
    else if size = 0 ∨ 2 ^ 31 ≤ size then s.bad 1
    else if s.locked q then s.refuse .wrongState
    else if v.size < size then
      if !s.mayReserve ((size - v.size) * settUnits v.mode) then s.refuse .noSpace
      else if s.paired && !s.side0 then
        ((s.setTwin { s.twin with waitAlloc := s.twin.waitAlloc ++ [some r.who] }).tsend false
          (.control (.allocate (.ask (some q) size v.mode 0)))).later
      else match s.growHere q size with
        | none => s.refuse .noResource
        | some s1 => s1.settleMed.later
    else
      let s1 := s.shrinkSetts q size
      let v1 := { v with size := size, extents := v.extents.take (extentsFor size) }
      (((s1.setRegion q v1).journal (.region q)).sendAttr q { record := v1 }).settleMed.later

/-- REGION_SET_MODE (R148, R149). -/
def azRegionSetMode (s : State) (r : AzReq) : State :=
  s.azTake r 0x0204 (s.hasRight r.chan .admin) (lenIs 2) false fun s =>
    let q := r.n 0
    let v := s.region q
    let m := Mode.ofCode (r.n 1)
    if !s.isRegion q then s.bad 0
    else if r.n 1 / 4 ≠ 0 ∨ r.n 1 = 0 then s.bad 1
    else if s.locked q then s.refuse .wrongState
    else if m = v.mode then s.okay
    else
      let v1 := { v with mode := m, conv := some { target := m } }
      let s1 := s.setRegion q v1
      if settUnits m < settUnits v.mode ∧ (s.pairCap = .amber ∨ s.pairCap = .red) then s.refuse .noSpace
      else if settUnits v.mode < settUnits m ∧ (capOf (s1.spareUnits 0) s1.userUnits ≠ .green ∨ s1.limitUnits < s1.heldUnits) then s.refuse .noSpace
      else
        let s2 := ((s1.journal (.region q)).convQueue q).sendAttr q { record := v1 }
        let none? := (s2.settsOf q fun n => (s2.sett n).mode != .none && (s2.sett n).mode != m).isEmpty
        let s3 := if none? then (s2.setRegion q { v1 with conv := none }).cause Reg.YRW_CAUSE 0 19 154 else s2
        s3.settleMed.okay

/-- REGION_SET_POLICY (Table 9-7). -/
def azRegionSetPolicy (s : State) (r : AzReq) : State :=
  s.azTake r 0x0205 (s.hasRight r.chan .admin) (lenIs 2) false fun s =>
    let q := r.n 0
    let v1 := { s.region q with strict := (r.p 1).getLsbD 0 }
    if !s.isRegion q then s.bad 0
    else if r.n 1 / 2 ≠ 0 then s.bad 1
    else (((s.setRegion q v1).journal (.region q)).sendAttr q { record := v1 }).settle.okay

/-- REGION_INFO. -/
def azRegionInfo (s : State) (r : AzReq) : State :=
  let q := r.n 0
  s.azTake r 0x0206 (s.mayRead r.chan q) (lenIs 1) false fun s =>
    let v := s.region q
    if !s.isRegion q then s.bad 0
    else
      let left : Nat := match v.conv with
        | some c => (s.settsOf q fun n => (s.sett n).mode != .none && (s.sett n).mode != c.target).length
        | none => 0
      let target : Mode := match v.conv with
        | some c => c.target
        | none => .none
      s.okay [BitVec.ofNat 32 v.size,
        wordOf [v.mode.code, at_ 2 target.code, at_ 4 v.strict.toNat, at_ 5 (s.locked q).toNat],
        s.tdmRegionInfo q, BitVec.ofNat 32 left, (s.rt q).term]

/-- REGION_GRANT (R339). -/
def azRegionGrant (s : State) (r : AzReq) : State :=
  s.azTake r 0x0207 (s.hasRight r.chan .admin) (lenIs 3) false fun s =>
    let c := r.n 1
    if !s.isRegion (r.n 0) then s.bad 0
    else if c < 8 ∨ 63 < c then s.bad 1
    else if 3 < r.n 2 then s.bad 2
    else
      let rest := (s.chan c).grants.filter fun g => g.1 != r.n 0
      (s.setChan c { s.chan c with grants := if r.n 2 = 0 then rest else rest ++ [(r.n 0, BitVec.ofNat 2 (r.n 2))] }).okay

/-- Replaces a decoder's binding (R276), by LD number and decoder, and tells the twin with the attributes of the region bound. -/
def setBinding (s : State) (l b : Nat) (v : Option BindTo) : State :=
  let k := l * 4 + b
  let s1 := s.putBinding k v
  match (v <|> Tab.get none s.cxl.bindings k) with
  | some (.region q _ _) => s1.sendAttr q { record := s1.region q }
  | _ => s1

/-- A decoder is committed. -/
def bindHeld (s : State) (l b : Nat) : Bool := s.decoderHeld (l * 4 + b)

/-- The LD number and decoder that P1 of REGION_BIND names. -/
def bindPlace (w : Nat) : Nat × Nat := (w % 4 * 16 + w / 4 % 16, w / 64 % 4)

/-- REGION_BIND (R276, Table 14-6a): ROFS and LEN in units of 256 MiB, 4,096 setts. -/
def azRegionBind (s : State) (r : AzReq) : State :=
  s.azTake r 0x0208 (s.hasRight r.chan .admin) (lenIs 4) false fun s =>
    let q := r.n 0
    let (l, b) := bindPlace (r.n 1)
    if q ≠ 0xFFFF ∧ !s.isRegion q then s.bad 0
    else if r.n 1 / 256 ≠ 0 then s.bad 1
    else if q = 0xFFFF ∧ r.n 2 ≠ 0 then s.bad 2
    else if q = 0xFFFF ∧ r.n 3 ≠ 1 then s.bad 3
    else if q ≠ 0xFFFF ∧ (s.region q).size ≤ r.n 2 * 4096 then s.bad 2
    else if q ≠ 0xFFFF ∧ (r.n 3 = 0 ∨ (s.region q).size < (r.n 2 + r.n 3) * 4096) then s.bad 3
    else if s.bindHeld l b then s.refuse .wrongState
    else (s.setBinding l b (some (if q = 0xFFFF then .staging else .region q (r.n 2 * 2 ^ 28) (r.n 3 * 2 ^ 28)))).okay

/-- REGION_UNBIND (R276): refused while the decoder is committed, or where it has no binding. -/
def azRegionUnbind (s : State) (r : AzReq) : State :=
  s.azTake r 0x0209 (s.hasRight r.chan .admin) (lenIs 2) false fun s =>
    let (l, b) := bindPlace (r.n 1)
    if r.n 1 / 256 ≠ 0 then s.bad 1
    else if s.bindHeld l b then s.refuse .wrongState
    else (s.setBinding l b none).okay

/-- REGION_ZERO (R155, R374): the setts of the range read zero; the twin is told their new GENs. -/
def azRegionZero (s : State) (r : AzReq) : State :=
  let q := r.n 0
  s.azTake r 0x020A (s.mayWrite r.chan q) (lenIs 5) true fun s =>
    let first := r.p64 1
    let count := r.p64 3
    if !s.isRegion q then s.bad 0
    else if (s.region q).size ≤ first then s.bad 1
    else if count = 0 ∨ (s.region q).size < first + count then s.bad 3
    else if s.pairCap = .red then s.refuse .noSpace
    else if s.locked q || !s.regionOpen q then s.refuse .wrongState
    else
      let ns := ((s.liveSetts q).filter fun i => decide (first ≤ i ∧ i < first + count)).filterMap fun i => s.settOf q i
      let s1 := ns.foldl (fun s n => s.zeroSett n) s
      (s1.sendAttr q { record := s1.region q, gens := ns.map fun n => (n, (s1.sett n).gen.toNat) }).settleMed.later

/-- DC_MAP (R278). -/
def azDcMap (s : State) (r : AzReq) : State :=
  s.azTake r 0x020B (s.hasRight r.chan .admin) (lenIs 2) false fun s =>
    let w := r.n 0
    let l := w % 4 * 16 + w / 4 % 16
    if w / 512 ≠ 0 then s.bad 0
    else if !s.isRegion (r.n 1) then s.bad 1
    else
      let d := Tab.get ({} : Ld) s.cxl.lds l
      (({ s with cxl := { s.cxl with lds := Tab.put {} s.cxl.lds l { d with dcMap := Tab.put none d.dcMap (w / 64 % 8) (some (r.n 1)) } } }).cdatAdvance l).okay

end State

/-! ### Meanings -/

/-- ALLOCATE (R469): a request of side 1 on side 0, or side 0's outcome on side 1. -/
def execAllocate (p : Bool) (f : TFrame) (m : AllocMsg) (s : State) : Res :=
  match s.acceptFrame p f with
  | (s1, false) => .next s1
  | (s1, true) =>
    if !s1.paired then .next s1
    else match m with
      | .ask grow size mode flags => .next (if s1.side0 then (s1.allocAsk grow size mode flags).settleTwin else s1)
      | .answer status region => .next (s1.allocAnswer status region).settleTwin

/-- REGION_CREATE (R239). -/
def execRegionCreate (r : AzReq) (s : State) : Res := .next (s.azRegionCreate r)

/-- REGION_DELETE (R239). -/
def execRegionDelete (r : AzReq) (s : State) : Res := .next (s.azRegionDelete r)

/-- REGION_RESIZE (R239). -/
def execRegionResize (r : AzReq) (s : State) : Res := .next (s.azRegionResize r)

/-- REGION_SET_MODE (R148). -/
def execRegionSetMode (r : AzReq) (s : State) : Res := .next (s.azRegionSetMode r)

/-- REGION_SET_POLICY (R361). -/
def execRegionSetPolicy (r : AzReq) (s : State) : Res := .next (s.azRegionSetPolicy r)

/-- REGION_INFO (R361). -/
def execRegionInfo (r : AzReq) (s : State) : Res := .next (s.azRegionInfo r)

/-- REGION_GRANT (R339). -/
def execRegionGrant (r : AzReq) (s : State) : Res := .next (s.azRegionGrant r)

/-- REGION_BIND (R276). -/
def execRegionBind (r : AzReq) (s : State) : Res := .next (s.azRegionBind r)

/-- REGION_UNBIND (R276). -/
def execRegionUnbind (r : AzReq) (s : State) : Res := .next (s.azRegionUnbind r)

/-- REGION_ZERO (R155). -/
def execRegionZero (r : AzReq) (s : State) : Res := .next (s.azRegionZero r)

/-- DC_MAP (R278). -/
def execDcMap (r : AzReq) (s : State) : Res := .next (s.azDcMap r)

end Sys2Proof.Machine
end

