-- ==== Sys2Proof/Machine/AzTime.lean ====
section
/-! DEFINITION. Time, the schedule and power: the Azler commands of group 0x09xx (R48 to R53, R61, R356, R434, R438). -/

namespace Sys2Proof.Machine

namespace State

/-! ### Signed time (R48, R51) -/

/-- TALLY_STATUS. -/
def azTallyStatus (s : State) (r : AzReq) : State :=
  s.azTake r 0x0901 true (lenIs 0) false fun s =>
    let d := s.reg64 Reg.TLY_WAKE_DEADLINE_LO Reg.TLY_WAKE_DEADLINE_HI
    s.okay [s.tally.now.lo, s.tally.now.hi, tlyStatus s.tally, d.lo, d.hi]

/-- The distance of two Tally values. -/
def tallyDist (a b : Dword) : Nat := (a.toNat - b.toNat) + (b.toNat - a.toNat)

/-- A signed packet confirms the pending jump (R51): TLY_NOW steps to `v`, TRUST is TRUSTED, the floor is written, source 371 is raised, and
it is no override. -/
def jumpConfirm (s : State) (v : Dword) : State :=
  let s1 := s.setTally { s.tally with
    now := v, slew := 0, catchup := false, jumpPending := false, disagree := false, trust := .trusted, secQualified := true }
  ((s1.writeFloor false).pulse 371).applied.unmarkSlots.selectSource

/-- A signed packet overrides the selected source (R48): PTP is disqualified until TLY_CTRL.PTP_EN is written 0 and then 1, and source 368 is
raised, once also where the source was signed time already. DESIGN CHOICE (log entry 114): the cause PTP_OVERRIDDEN has no encoding in the spec; it
stands in the state as `ptpOverridden`, and the capture's entry carries DETAIL 0. -/
def timeOverride (s : State) (v : Dword) : State :=
  let s1 := s.setTally { s.tally with
    ptpQualified := false, ptpOverridden := true, secQualified := true, disagree := false, jumpPending := false }
  let s2 := s1.selectSource
  (if s2.tally.source = s.tally.source then s2.pulse 368 else s2).moveNow .secure .trusted v

/-- A signed packet near TLY_NOW (R47, R48): it qualifies signed time, clears DISAGREE and makes TRUST TRUSTED. -/
def timeAgree (s : State) (v : Dword) : State :=
  let s1 := (s.setTally { s.tally with secQualified := true, disagree := false }).selectSource
  if s1.tally.source = .secure then s1.moveNow .secure .trusted v else s1.setTally { s1.tally with trust := .trusted }

/-- A verified packet of time `v` while SEC_EN is 1. -/
def timeSigned (s : State) (v : Dword) : State :=
  let t := s.tally
  if t.secHoldoff then s
  else if v < t.floor.tally then s.belowFloor .secure
  else if t.jumpPending ∧ tallyDist v t.pend ≤ 60 * secUnits then s.jumpConfirm v
  else if t.jumpPending ∨ secUnits < tallyDist v t.now then s.timeOverride v
  else s.timeAgree v

/-- TIME_SIGNED (R48, R361). `r.ok` says that the signature verifies under the time key. -/
def azTimeSigned (s : State) (r : AzReq) : State :=
  s.azTake r 0x0902 (secureChan r.chan) (lenIs 27) false fun s =>
    if !r.ok ∨ r.p 2 ≠ Config.otpWord 0x024 then (s.pulse 380).bad 3
    else if !s.bit Reg.TLY_CTRL 0 1 then s.refuse .wrongState
    else ((s.timeSigned (BitVec.ofNat 64 (r.p64 0))).ageFollow s).okay

/-! ### The schedule (R53) -/

/-- The slots of 64 to 255 that channel `c` owns. -/
def slotsOf (s : State) (c : Nat) : Nat := (s.sched.slots.filter fun p => decide (64 ≤ p.1) && p.2.owner.toNat == c).length

/-- The first free slot of 64 to 255. -/
def freeSlot (s : State) : Option Nat := (List.range' 64 192).find? fun k => (s.slot k).owner == 0xFF#8

/-- SCHED_ADD (R53, R361). -/
def azSchedAdd (s : State) (r : AzReq) : State :=
  let mayAdd := secureChan r.chan || (bitsOf (r.p 2) 3 0 == 8 && decide (s.slotsOf r.chan < 8))
  s.azTake r 0x0903 mayAdd (lenIs 5) false fun s =>
    let relative := (r.p 2).getLsbD 8
    if r.p 2 &&& 0xFFFFFEF0#32 ≠ 0 ∨ 9 < bitsOf (r.p 2) 3 0 then s.bad 2
    else if !relative ∧ s.tally.trust = .untrusted then s.refuse .timeUntrusted
    else match s.freeSlot with
      | none => s.refuse .noResource
      | some k =>
        let v : Slot := {
          time := BitVec.ofNat 64 (r.p64 0) + if relative then s.tally.now else 0
          arm := true, action := (r.p 2).setWidth 4, arg := r.p 3, period := r.p 4, owner := BitVec.ofNat 8 r.chan.val }
        ((s.setSlot k v).saveSlot k).okay [BitVec.ofNat 32 k]

/-- SCHED_REMOVE (R53). -/
def azSchedRemove (s : State) (r : AzReq) : State :=
  let k := r.n 0
  let o := (s.slot k).owner
  let mayRemove := decide (255 < k) || (decide (64 ≤ k) && (secureChan r.chan || o == 0xFF#8 || o.toNat == r.chan.val))
  s.azTake r 0x0904 mayRemove (lenIs 1) false fun s =>
    if 255 < k then s.bad 0 else if o = 0xFF#8 then s.okay else (s.slotFree k).okay

/-! ### Power -/

/-- POWER_REQUEST (R438): what it asks for starts after the reply. -/
def azPowerRequest (s : State) (r : AzReq) : State :=
  s.azTake r 0x0905 (s.hasRight r.chan .admin) (lenIs 1) false fun s =>
    let p := s.psq.pstate
    if 3 < r.n 0 then s.bad 0
    else if r.n 0 = 2 ∧ (p = .dormant ∨ p = .poweringDown ∨ p = .lockout) ∨ r.n 0 = 1 ∧ p = .lockout then s.refuse .wrongState
    else
      let act (s : State) : State :=
        if r.n 0 = 0 then s.offRequest false else if r.n 0 = 1 then s.onRequest else if r.n 0 = 2 then s.keepEnter else s.keepLeaveRequest
      { s.okay with after := act }

/-- DRAIN_AND_HALT: trigger 7 of Table 8-4 after the reply. -/
def azDrainAndHalt (s : State) (r : AzReq) : State :=
  s.azTake r 0x0906 (s.hasRight r.chan .admin) (lenIs 0) false fun s => { s.okay with after := fun s => s.takeTrigger 7 }

/-- RESET (R186, R200): trigger 4 of Table 8-4 after the reply. -/
def azReset (s : State) (r : AzReq) : State :=
  s.azTake r 0x0907 (s.hasRight r.chan .admin) (lenIs 1) false fun s =>
    if r.n 0 ≠ 0 then s.bad 0 else { s.okay with after := fun s => s.takeTrigger 4 }

/-- WAKE_MARGIN_SET (R61). -/
def azWakeMarginSet (s : State) (r : AzReq) : State :=
  s.azTake r 0x0908 (s.hasRight r.chan .admin) (lenIs 1) false fun s =>
    if r.n 0 < 1 ∨ 255 < r.n 0 then s.bad 0 else (s.setFld Reg.TLY_WAKE_CTRL 0 7 0 (r.n 0)).writeDeadline.okay

/-- LOCKOUT_CLEAR (R434): the device goes from LOCKOUT to DORMANT. -/
def azLockoutClear (s : State) (r : AzReq) : State :=
  s.azTake r 0x0909 (s.hasRight r.chan .admin) (lenIs 0) false fun s =>
    (if s.psq.pstate = .lockout then (s.setPsq { s.psq with attempt := 0 }).setPState .dormant else s).okay

/-- POWER_STATUS (R441): FAULT_N is given as its level, 0 while it is low. -/
def azPowerStatus (s : State) (r : AzReq) : State :=
  s.azTake r 0x090A true (lenIs 0) false fun s =>
    s.okay [BitVec.ofNat 32 s.psq.pstate.code, s.pgLevels, BitVec.ofNat 32 (!s.faultLow).toNat]

end State

/-! ### Meanings -/

/-- TALLY_STATUS (R62). -/
def execTallyStatus (r : AzReq) (s : State) : Res := .next (s.azTallyStatus r)

/-- TIME_SIGNED (R48). -/
def execTimeSigned (r : AzReq) (s : State) : Res := .next (s.azTimeSigned r)

/-- SCHED_ADD (R53). -/
def execSchedAdd (r : AzReq) (s : State) : Res := .next (s.azSchedAdd r)

/-- SCHED_REMOVE (R53). -/
def execSchedRemove (r : AzReq) (s : State) : Res := .next (s.azSchedRemove r)

/-- POWER_REQUEST_OFF (R438): POWER_REQUEST with P0 = 0. -/
def execPowerRequestOff (r : AzReq) (s : State) : Res := .next (s.azPowerRequest (r.withP0 0))

/-- POWER_REQUEST_ON (R438): POWER_REQUEST with P0 = 1. -/
def execPowerRequestOn (r : AzReq) (s : State) : Res := .next (s.azPowerRequest (r.withP0 1))

/-- POWER_REQUEST_KEEP_ENTER (R438): POWER_REQUEST with P0 = 2. -/
def execPowerRequestKeepEnter (r : AzReq) (s : State) : Res := .next (s.azPowerRequest (r.withP0 2))

/-- POWER_REQUEST_KEEP_LEAVE (R438): POWER_REQUEST with P0 = 3. -/
def execPowerRequestKeepLeave (r : AzReq) (s : State) : Res := .next (s.azPowerRequest (r.withP0 3))

/-- DRAIN_AND_HALT (R186). -/
def execDrainAndHalt (r : AzReq) (s : State) : Res := .next (s.azDrainAndHalt r)

/-- RESET (R200). -/
def execResetCmd (r : AzReq) (s : State) : Res := .next (s.azReset r)

/-- WAKE_MARGIN_SET (R61). -/
def execWakeMarginSet (r : AzReq) (s : State) : Res := .next (s.azWakeMarginSet r)

/-- LOCKOUT_CLEAR (R434). -/
def execLockoutClear (r : AzReq) (s : State) : Res := .next (s.azLockoutClear r)

/-- POWER_STATUS (R441). -/
def execPowerStatus (r : AzReq) (s : State) : Res := .next (s.azPowerStatus r)

end Sys2Proof.Machine
end

