-- ==== Sys2Proof/Machine/AzDispatch.lean ====
section
/-! DEFINITION. Packets that come as words, by the channel page or a whole-packet transport (R341 to R357): checks 1 to 3 of Table 14-5, the
opcodes of Table 14-6, what waits for Mingaso, and the end of PENDING commands. -/

namespace Sys2Proof.Machine

/-- The opcodes of Table 14-6. -/
def azTable : List (Nat × (State → AzReq → State)) := [
  (0x0101, State.azIdentify), (0x0102, State.azDeviceStatus), (0x0103, State.azChannelAssign), (0x0104, State.azChannelMode),
  (0x0105, State.azCmdStatus), (0x0106, State.azRouteSet), (0x0107, State.azRouteGet), (0x0108, State.azStageWrite),
  (0x0109, State.azStageRead)] ++ [
  (0x0201, State.azRegionCreate), (0x0202, State.azRegionDelete), (0x0203, State.azRegionResize), (0x0204, State.azRegionSetMode),
  (0x0205, State.azRegionSetPolicy), (0x0206, State.azRegionInfo), (0x0207, State.azRegionGrant), (0x0208, State.azRegionBind),
  (0x0209, State.azRegionUnbind), (0x020A, State.azRegionZero), (0x020B, State.azDcMap)] ++ [
  (0x0301, State.azObjectCreate), (0x0302, State.azObjectDelete), (0x0303, State.azHintSet), (0x0304, State.azHintExtend),
  (0x0305, State.azObjectList)] ++ [
  (0x0401, State.azPairBind), (0x0402, State.azPairStatus), (0x0403, State.azSolo), (0x0404, State.azTakeover), (0x0405, State.azFence),
  (0x0406, State.azMoveHome), (0x0407, State.azDetach), (0x0408, State.azRejoin)] ++ [
  (0x0501, State.azRegionUnlock), (0x0502, State.azRegionLock), (0x0503, State.azCryptoErase), (0x0504, State.azTimeKeySet),
  (0x0505, State.azMacsecCakSet), (0x0506, State.azCertGet), (0x0601, State.azLcStatus), (0x0602, State.azLcAdvance),
  (0x0603, State.azDebugUnlock)] ++ [
  (0x0701, State.azFwChunk), (0x0702, State.azFwCommit), (0x0703, State.azFwActivate), (0x0704, State.azFwInfo), (0x0705, fun s r => s.azVaultRead r []),
  (0x0801, State.azEvrRead), (0x0802, State.azEvrClear), (0x0803, State.azEvrRateSet), (0x0804, State.azEvrStatus)] ++ [
  (0x0901, State.azTallyStatus), (0x0902, State.azTimeSigned), (0x0903, State.azSchedAdd), (0x0904, State.azSchedRemove),
  (0x0905, State.azPowerRequest), (0x0906, State.azDrainAndHalt), (0x0907, State.azReset), (0x0908, State.azWakeMarginSet),
  (0x0909, State.azLockoutClear), (0x090A, State.azPowerStatus)] ++ [
  (0x0A01, State.azBenchViewOpen), (0x0A02, State.azBenchViewClose), (0x0A03, State.azDramScrubRange), (0x0A04, State.azRegRead),
  (0x0A05, State.azRegWrite)] ++ [
  (0x0B01, State.azGidSet), (0x0B02, State.azPdCreate), (0x0B03, State.azPdDestroy), (0x0B04, State.azPdToken), (0x0B05, State.azWindowCreate),
  (0x0B06, State.azWindowDestroy), (0x0B07, State.azCqCreate), (0x0B08, State.azCqDestroy), (0x0B09, State.azSqAttach),
  (0x0B0A, State.azSqDoorbell), (0x0B0B, State.azQpInfo)] ++ [
  (0x0C01, State.azDieMarkFailed), (0x0C02, State.azOrphanSweep), (0x0C03, State.azTeaselPassNow), (0x0C04, State.azEyebrightSweep),
  (0x0C05, State.azMediumStatus), (0x0C06, State.azChannelOffline)]

/-- The opcode of a held packet that stands for what the channel page holds. -/
def pageMark : BitVec 16 := 0

/-- The opcode of a held packet whose words, its parameters here, are yet to be checked. -/
def wordsMark : BitVec 16 := 0xFFFF

/-- Reads a packet from its words (R350): the opcode and the request, or the status and results of the check of Table 14-5 that fails. -/
def parsePacket (c : Fin 64) (via : Transport) (ws : List Word) (ok : Bool) : Sum (Status × List Word) (Nat × AzReq) :=
  let w (i : Nat) : Word := ws.getD i 0
  let len := bitsOf (w 0) 7 0
  if 60 < len ∨ ws.length ≠ 4 + len then .inl (.badLength, [0])
  else if (w 3).toNat ≠ (packetCrc (w 0) (w 1) (w 2) (ws.drop 4)).toNat then .inl (.badParam, [3])
  else .inr (bitsOf (w 0) 31 16, {
    chan := c, via := via, tag := BitVec.ofNat 16 (bitsOf (w 1) 31 16), seq := BitVec.ofNat 16 (bitsOf (w 1) 15 0), session := w 2
    quiet := (w 0).getLsbD 8, flags := BitVec.ofNat 7 (bitsOf (w 0) 15 9), params := ws.drop 4, ok := ok })

namespace State

/-- An opcode that Table 14-6 does not list (check 6). -/
def azUnknown (s : State) (r : AzReq) (opcode : Nat) : State :=
  s.azTake { r with flags := 0, params := [] } opcode true (fun _ => true) false fun s => s.refuse .badOpcode

/-- Takes a packet by its opcode. -/
def azRun (s : State) (opcode : Nat) (r : AzReq) : State :=
  match azTable.find? fun e => e.1 == opcode with
  | some e => e.2 s r
  | none => s.azUnknown r opcode

/-- Takes the words of a packet (R354). -/
def takeWords (s : State) (c : Fin 64) (via : Transport) (ws : List Word) (ok : Bool) : State :=
  match parsePacket c via ws ok with
  | .inr (opcode, r) => s.azRun opcode r
  | .inl (st, res) =>
    s.wakeIdle.deliver c via (replyWords st false (BitVec.ofNat 16 (bitsOf (ws.getD 1 0) 31 16)) ((ws.getD 1 0).setWidth 16) res)

/-- Takes the packet of a native page (R345): the queue empties, and COLLIDE and DOORBELL_PEND clear. A packet with COLLIDE set is not carried
out. -/
def takeNative (s : State) (c : Fin 64) (ok : Bool) : State :=
  let h := s.chan c
  let w1 := h.inQ.getD 1 0
  let s1 := s.setChan c { h with inQ := [], collide := false, bell := false, pageSeq := w1.setWidth 16 }
  if h.collide then
    (s1.wakeIdle.cause Reg.MBX_CAUSE c 0 (448 + c.val)).deliver c .page
      (replyWords .collision false (BitVec.ofNat 16 (bitsOf w1 31 16)) (w1.setWidth 16) [])
  else s1.takeWords c .page h.inQ ok

/-- Takes the command of a legacy page (R347, R348). -/
def takeLegacy (s : State) (c : Fin 64) (ok : Bool) : State :=
  let h := s.chan c
  let s1 := s.setChan c { h with begun := true, pageSeq := 0 }
  if h.collide then
    (s1.wakeIdle.cause Reg.MBX_CAUSE c 0 (448 + c.val)).deliver c .legacy (replyWords .collision false 0 0 [])
  else
    let w := h.lcmd
    s1.azRun (bitsOf w 31 16) {
      chan := c, via := .legacy, session := s.sessionOf c, quiet := w.getLsbD 8, flags := BitVec.ofNat 7 (bitsOf w 15 9)
      params := (List.range (bitsOf w 7 0)).map fun k => h.ldata.getD k 0, ok := ok }

/-- Takes one packet that waited. -/
def runHeldPacket (s : State) (c : Fin 64) (p : HeldPacket) : State :=
  if p.opcode = pageMark then (if (s.chan c).legacy then s.takeLegacy c p.req.ok else s.takeNative c p.req.ok)
  else if p.opcode = wordsMark then s.takeWords c p.req.via p.req.params p.req.ok
  else s.azRun p.opcode.toNat p.req

/-- Takes what waits on a channel, in order, while it can be taken (R356, R357). -/
def heldRun (s : State) (c : Fin 64) : Nat → State
  | 0 => s
  | f + 1 =>
    if !s.canTake c then s
    else match (s.chan c).held with
      | [] => s
      | p :: ps => ((s.setChan c { s.chan c with held := ps }).runHeldPacket c p).heldRun c f

/-- Takes everything that waits on a channel. -/
def catchUp (s : State) (c : Fin 64) : State := s.heldRun c (s.chan c).held.length

/-- Takes everything that waits, on every channel. -/
def catchUpAll (s : State) : State := (List.finRange 64).foldl (fun s c => s.catchUp c) s

/-- A packet arrives: it is taken after those that wait, or waits with them. -/
def arrive (s : State) (c : Fin 64) (p : HeldPacket) : State :=
  if !s.psq.vaon then s else (s.setChan c { s.chan c with held := (s.chan c).held ++ [p] }).catchUp c

/-- A packet's words arrive by a whole-packet transport. -/
def arriveWords (s : State) (c : Fin 64) (via : Transport) (ws : List Word) (ok : Bool) : State :=
  s.arrive c { opcode := wordsMark, req := { chan := c, via := via, params := ws, ok := ok } }

/-- What the page holds arrives, once its doorbell or L_GO is set and it does not wait already. -/
def pageSubmit (s : State) (c : Fin 64) (ok : Bool) : State :=
  let h := s.chan c
  let waits := h.held.any fun p => p.opcode == pageMark
  if !waits && (if h.legacy then h.lgo && !h.begun else h.bell) then
    s.arrive c { opcode := pageMark, req := { chan := c, ok := ok } }
  else s.catchUp c

/-! ### The end of PENDING commands (R355) -/

/-- The work of an outstanding command has ended: what that leaves, and its final status and results; none where its end comes otherwise or is
not yet reached. `ok` is the outcome of work that the model does not compute. -/
def pendingEnd (s : State) (c : Fin 64) (o : PendingOp) (ok : Bool) : State × Option (Status × List Word) :=
  let p (i : Nat) : Nat := (o.params.getD i 0).toNat
  let waits := s.twin.waitAlloc.contains (some (c, o.tag))
  match o.opcode.toNat with
  | 0x0201 =>
    let v := s.region ((o.res.getD 0 0).toNat)
    (s, if waits || o.res.isEmpty || !v.valid || (v.opening && s.paired) then none else some (.ok, o.res))
  | 0x0202 => (s, some (.ok, []))
  | 0x0203 => (s, if waits then none else some (.ok, []))
  | 0x020A => (s, some (.ok, []))
  | 0x0503 => ((s.eraseEnd (p 0)).judgeSec.settleMed, some (.ok, []))
  | 0x0602 =>
    if s.sec.lcWork.any fun w => w.who == (c, o.tag) then
      let (s1, done) := s.lcDone ok
      (s1, some (if done then .ok else .internal, []))
    else (s, none)
  | 0x0702 => if s.flash.work == some (.commit (c, o.tag)) then s.fwCommitDone (c, o.tag) (p 0) ok else (s, none)
  | 0x0C02 =>
    let (s1, n) := s.orphanEnd
    (s1, some (.ok, [BitVec.ofNat 32 n]))
  | 0x0C04 => (s, if (s.die (p 0)).sweep then none else some (.ok, []))
  | _ => (s, none)

/-- Ends an outstanding command where its work has ended. -/
def pendingDone (s : State) (c : Fin 64) (tag : BitVec 16) (ok : Bool) : State :=
  match (s.chan c).ops.find? fun o => o.tag == tag with
  | none => s
  | some o => match s.pendingEnd c o ok with
    | (s1, some (st, res)) => (s1.complete c tag st res).catchUp c
    | (s1, none) => s1

/-- A write at a channel page's MBX_DOORBELL or L_GO submits what the page holds, and one at MBX_OUT_POP lets held packets be taken. -/
def pageGo (s : State) (off : Nat) : State :=
  match mbxAt off with
  | some (c, o) => if o = 0x00C ∨ o = 0x43C then s.pageSubmit (Fin.ofNat 64 c) true else if o = 0x010 then s.catchUp (Fin.ofNat 64 c) else s
  | none => s

end State

/-! ### Meanings -/

/-- CSR_WRITE (R21, R25 to R33): an access of `size` bytes, `full` with every byte enabled; a primary write, or with `read` a read at the primary
or an alias address, for which the table has no row of its own. -/
def execCsrWrite (req : Requester) (read : Option AccessKind) (off : Fin 4194304) (size : Nat) (full : Bool) (data : Dword) (s : State) : Res :=
  let s1 := s.busAccess { req := req, read := read.isSome, off := off, kind := read.getD .primary, size := size, full := full, data := data }
  .next (if read.isSome then s1 else s1.pageGo off)

/-- AON_POSTED_WRITE_APPLY (R31): the always-on domain applies the oldest posted write, and accesses held at a requester's bus go on, with what
those of them that reach a channel page lead to. -/
def execAonPostedWriteApply (s : State) : Res :=
  if !s.psq.vaon then .next s
  else match s.csr.posted with
    | [] => .next s
    | w :: ws =>
      let s1 := (State.applyPosted { s with csr := { s.csr with posted := ws } } w).busResume
      .next (s.csr.blocked.foldl (fun (t : State) b => t.pageGo b.off) s1)

/-- MBX_IN (R345): a word is written to the page's inbound queue. -/
def execMbxIn (c : Fin 64) (w : Word) (s : State) : Res := .next (if s.psq.mainUp then s.mbxIn c w else s)

/-- MBX_DOORBELL (R345): the queue is submitted as one packet. `ok` is the outcome of the check or work that the model does not compute. -/
def execMbxDoorbell (c : Fin 64) (ok : Bool) (s : State) : Res :=
  .next (if s.psq.mainUp then (s.mbxBell c).pageSubmit c ok else s)

/-- MBX_OUT_POP (R344, R357): outbound words are freed, packets that wait enter the queue, and held ones are taken again. -/
def execMbxOutPop (c : Fin 64) (k : Nat) (s : State) : Res := .next (if s.psq.mainUp then (s.mbxPop c k).catchUp c else s)

/-- MBX_IN_RESET (R344). -/
def execMbxInReset (c : Fin 64) (s : State) : Res := .next (if s.psq.mainUp then s.mbxInReset c else s)

/-- The page of a channel can be reached: channel 0's by I3C while VAON is there, the others through an LD's BAR0. -/
def State.pageReach (s : State) (c : Fin 64) : Bool := if c = 0 then s.psq.vaon else s.psq.mainUp

/-- L_GO (R347): 1 is written to L_GO, which submits the command in L_CMD and L_DATA. -/
def execLGo (c : Fin 64) (ok : Bool) (s : State) : Res :=
  .next (if s.pageReach c then (s.legacyWrite c 0x43C .primary 1).pageSubmit c ok else s)

/-- LEGACY_REGISTER_COLLIDE (R348): a write to the legacy register at `off`; while L_GO is 1 it sets COLLIDE. -/
def execLegacyRegisterCollide (c : Fin 64) (off : Fin 4096) (w : Word) (s : State) : Res :=
  .next (if s.pageReach c then s.legacyWrite c off .primary w else s)

/-- MCTP_MESSAGE (R341): one packet by MCTP over I3C, for channel 0, or for the channel of a session on MCTP. -/
def execMctpMessage (c : Fin 8) (ws : List Word) (ok : Bool) (s : State) : Res :=
  let n : Fin 64 := Fin.ofNat 64 c.val
  let mine := match (s.chan n).who with
    | .spdm sid => s.sec.mctp.contains sid
    | _ => c == 0
  .next (if s.psq.vaon && mine then s.arriveWords n .mctp ws ok else s)

/-- A register of channel 0's page is written over I3C: the page registers, or a legacy register. -/
def State.i3cWord (s : State) (off : Nat) (w : Word) : State :=
  match Reg.find (0x080000 + off) with
  | some (r, k) => if off < 0x100 then s.writeReg (.core 0) r k .primary w else s.legacyWrite 0 off .primary w
  | none => s.legacyWrite 0 off .primary w

/-- I3C_PRIVATE_WRITE (R341): an offset in channel 0's page and words from there on; in native mode they are dropped. The private read that may
follow it, for which the table has no row, returns `rd` words from that offset. -/
def execI3cPrivateWrite (off : BitVec 16) (ws : List Word) (ok : Bool) (rd : Nat) (s : State) : Res :=
  if !s.psq.vaon then .next s
  else
    let s1 := s.setChan 0 { s.chan 0 with i3cOff := off }
    let s2 := if (s.chan 0).legacy then (ws.foldl (fun (p : State × Nat) w => (p.1.i3cWord p.2 w, p.2 + 4)) (s1, off.toNat)).1.pageSubmit 0 ok else s1
    .next (if rd = 0 then s2
      else s2.emit (.i3cData ((List.range rd).map fun i => (s2.readOff (0x080000 + (off.toNat + 4 * i) % 4096)).getD 0)))

/-- AZLER_PACKET (R287): mailbox opcode 0xC0A0 hands one packet to the command channel of the LD; without one it is Unsupported. -/
def execAzlerPacket (p : Fin 4) (l : Fin 16) (ws : List Word) (ok : Bool) (s : State) : Res :=
  mailbox p l s fun s => match s.chanOfLd p l with
    | none => (s, 3, [])
    | some c => (s.arriveWords c .mailbox ws ok, 0, [])

/-- RDMA_SEND (R303): a SEND on a management QP carries one packet of 16 to 256 B; with no receive buffer free it is answered with RNR NAK. A SEND
on any other QP is an invalid request (Table 12-3). -/
def execRdmaSend (n : Fin 65536) (psn : BitVec 24) (ws : List Word) (ce icrc ok : Bool) (s : State) : Res :=
  match s.packetIn n psn ce icrc with
  | (s1, false) => .next s1
  | (s1, true) =>
    let q := s1.qp n
    match q.mgmt with
    | none => .next (s1.nak n psn 1)
    | some c =>
      match State.psnKind q psn with
      | .ahead => .next (s1.seqNak n)
      | .next =>
        if ws.length < 4 ∨ 64 < ws.length then .next (s1.nak n psn 1)
        else if 16 ≤ ((s1.chan c).held.filter fun p => p.req.via == .rdmaQp).length then .next ((s1.setQp n { q with rnr := some psn }).nak n psn 4)
        else
          let q1 := State.remember { q with epsn := psn + 1, nakSent := false, msn := q.msn + 1, nextMsn := q.nextMsn + 1 } psn .write
          .next (((s1.setQp n q1).emit (.rdmaAck n psn (q.msn + 1))).arriveWords c .rdmaQp ws ok)
      | _ => .next ((s1.dup n psn).1.emit (.rdmaAck n psn q.msn))

/-- RDMA_PEER_ACK (R303, R309): a management QP's oldest SEND has been accepted; on a data QP requests up to `psn` are carried out. -/
def execRdmaPeerAck (n : Fin 65536) (psn : BitVec 24) (s : State) : Res :=
  let q := s.qp n
  if !s.ingressOpen || !q.connected || q.error then .next s
  else match q.mgmt with
    | some c =>
      let s1 := (s.setQp n { q with retries := 0, peerRnr := false }).setChan c { s.chan c with waiting := (s.chan c).waiting.drop 1 }
      .next (s1.catchUp c)
    | none =>
      let s1 := s.setQp n (State.acked_ q psn)
      .next (s1.flightEnd n (s1.qp n).flight.length).settleRdma

/-- PENDING_COMMAND_COMPLETE (R355): the work of an outstanding command of a channel ends. -/
def execPendingCommandComplete (c : Fin 64) (tag : BitVec 16) (ok : Bool) (s : State) : Res :=
  .next (if s.psq.mainUp && (s.flash.cores == .running || s.flash.cores == .recovery) then s.pendingDone c tag ok else s)

end Sys2Proof.Machine
end

