-- ==== Sys2Proof/Machine/AzSession.lean ====
section
/-! DEFINITION. SPDM sessions and the secure channels they hold (R338, R383, R384), the resets that end sessions (R291), and extents added by the
fabric manager (R278). -/

namespace Sys2Proof.Machine

namespace State

/-! ### Sessions -/

/-- A session stands, on some LD or over MCTP. -/
def sessionThere (s : State) (sid : Word) : Bool := s.sec.mctp.contains sid || s.cxl.lds.any fun p => p.2.sessions.contains sid

/-- The channels of sessions that no longer stand are freed (Table 14-1). -/
def sessionsFree (s : State) : State :=
  (List.range' 1 7).foldl (fun (s : State) c => match (s.chan c).who with
    | .spdm sid => if s.sessionThere sid then s else s.reassign c .none
    | _ => s) s

/-- A session whose requester holds the rights `mask` gets the lowest free secure channel (Table 14-1); with none free an event is recorded. -/
def sessionChannel (s : State) (sid : Word) (mask : BitVec 7) : State :=
  match (List.range' 1 7).find? fun c => (s.chan c).who == .none with
  | none => s.deviceRecord 406 sid
  | some c =>
    let s1 := s.reassign c (.spdm sid)
    s1.setChan c { s1.chan c with rights := mask }

/-- The sessions of a DOE, or of MCTP. -/
def sessionsAt (s : State) : Option (Fin 4 × Fin 16) → List Word
  | some (p, l) => (s.ld p l).sessions
  | none => s.sec.mctp

/-- Replaces them. -/
def setSessions (s : State) (d : Option (Fin 4 × Fin 16)) (l : List Word) : State :=
  match d with
  | some (p, n) => s.setLd p n { s.ld p n with sessions := l }
  | none => { s with sec := { s.sec with mctp := l } }

/-- An SPDM chain or session fails: SPDM_FAIL of the security block, and of the ports where it came by a DOE. -/
def spdmFail (s : State) (d : Option (Fin 4 × Fin 16)) : State :=
  let s1 := s.cause Reg.SEC_CAUSE 0 6 406
  if d.isSome then s1.cause Reg.CXL_CAUSE 0 3 227 else s1

/-- The words of a partition's image from a flash address. -/
def imageDigest (s : State) (base len : Nat) : Nat :=
  Config.digest ((s.flash.image.filter fun w => decide (base / 4 ≤ w.1 ∧ w.1 < (base + len) / 4)).map fun w => w.2.toNat)

/-- A measurement block (Table 15-6): raw values as they are, digests as free values of what they cover. -/
def measurement (s : State) (b : Nat) : List Nat :=
  match b with
  | 1 => [Config.bootRomDigest]
  | 2 => [s.imageDigest (slotBase s.flash.slots.active) (s.image s.flash.slots.active).len]
  | 3 => [s.imageDigest 0 bootSize]
  | 4 => [s.sec.arb]
  | 5 => [s.life.code + s.sec.rop.val * 2 ^ 8 + s.sec.debugOpen.toNat * 2 ^ 16]
  | 6 => [Config.digest (s.psq.seqAct.map BitVec.toNat)]
  | 7 => [(s.twin.binding).getD 0]
  | _ => []

/-- An SPDM request is answered (R383). -/
def spdmAnswer (s : State) (d : Option (Fin 4 × Fin 16)) (a : SpdmAsk) : State :=
  match a with
  | .negotiate => s.emit (.spdm d 0 [])
  | .digests => s.emit (.spdm d 1 [0])
  | .certificate slot => s.emit (.spdm d 2 [if slot.val = 0 then Config.certLen else 0])
  | .challenge => s.emit (.spdm d 3 [])
  | .measurements b => s.emit (.spdm d 4 (s.measurement b.val))
  | .session sid cred =>
    if s.sec.trngFail then s
    else if d.isSome && decide (2 ≤ (s.sessionsAt d).length) || s.sessionThere sid then (s.spdmFail d).emit (.spdm d 7 [])
    else match cred with
      | some (false, _) => (s.spdmFail d).emit (.spdm d 7 [])
      | some (true, mask) =>
        let s1 := s.sessionsFree.setSessions d (s.sessionsAt d ++ [sid])
        (if mask = 0 then s1 else s1.sessionChannel sid mask).emit (.spdm d 5 [sid.toNat])
      | none => (s.setSessions d (s.sessionsAt d ++ [sid])).emit (.spdm d 5 [sid.toNat])
  | .endSession sid =>
    if (s.sessionsAt d).contains sid then ((s.setSessions d ((s.sessionsAt d).filter fun x => x != sid)).sessionsFree).emit (.spdm d 6 [sid.toNat])
    else s

/-- The SPDM responder takes requests: Mingaso runs, over MCTP also the recovery image, and IDENTITY can be derived. -/
def spdmTakes (s : State) (d : Option (Fin 4 × Fin 16)) : Bool :=
  s.psq.mainUp && s.sec.identity && s.life != .ended && (s.flash.cores == .running || (d.isNone && s.flash.cores == .recovery)) &&
    d.all fun e => s.ldThere e.1 e.2

end State

/-- SPDM_MESSAGE (R383, R384): a request on the DOE of an LD, or over MCTP. -/
def execSpdmMessage (d : Option (Fin 4 × Fin 16)) (a : SpdmAsk) (s : State) : Res :=
  .next (if s.spdmTakes d then s.wakeIdle.spdmAnswer d a else s)

/-! ### Resets of a port or LD (R291) -/

/-- CXL_PORT_RESET (R291): a conventional or hot reset of a port. -/
def execCxlPortReset (p : Fin 4) (s : State) : Res := if s.psq.mainUp then .next (s.portReset p).settle.sessionsFree else .next s

/-- LD_RESET (R291): an LD or function-level reset. -/
def execLdReset (p : Fin 4) (l : Fin 16) (s : State) : Res :=
  if s.psq.mainUp then .next (((s.cxlForget fun q k => p == q && l == k).ldReset p l).settle.sessionsFree) else .next s

/-- SURPRISE_REMOVAL (R291): as a conventional reset, and the port returns to DETECT. -/
def execSurpriseRemoval (p : Fin 4) (s : State) : Res :=
  if s.psq.mainUp && (s.cport p).st != .disabled then
    let s1 := s.portReset p
    .next ((s1.setCport p { s1.cport p with st := .detect, width := 0, speed := 0 }).judgeCxl.settle.sessionsFree)
  else .next s

/-! ### Dynamic capacity -/

/-- An extent is one of R278: blocks of 256 MiB. -/
def extentOk (e : DcExtent) : Bool := e.off % 2 ^ 28 == 0 && e.len % 2 ^ 28 == 0 && e.len != 0

/-- Two extents of one DC region overlap. -/
def extentsMeet (a b : DcExtent) : Bool := a.dc == b.dc && decide (a.off < b.off + b.len ∧ b.off < a.off + a.len)

namespace State

/-- A region grows for an extent (R143, R144, R278, R469), or the status it is refused with. Side 1 of a pair asks side 0. -/
def dcGrow (s : State) (r size : Nat) : Status ⊕ State :=
  let v := s.region r
  if size ≤ v.size then .inr s
  else if s.locked r then .inl .wrongState
  else if s.pairCap = .amber ∨ s.pairCap = .red ∨ !s.mayReserve ((size - v.size) * settUnits v.mode) then .inl .noSpace
  else if s.paired && !s.side0 then
    .inr ((s.setTwin { s.twin with waitAlloc := s.twin.waitAlloc ++ [none] }).tsend false (.control (.allocate (.ask (some r) size v.mode 0))))
  else match s.growHere r size with
    | some t => .inr t
    | none => .inl .noResource

end State

/-- DC_ADD (R278): the fabric manager adds an extent to an LD; the host takes it by ADD_DC_RESPONSE. An add that grows its region is refused with
NO_SPACE in AMBER and RED and past the region limit (R143, R144). -/
def execDcAdd (p : Fin 4) (l : Fin 16) (e : DcExtent) (s : State) : Res :=
  let d := s.ld p l
  if !s.psq.mainUp || !s.ldThere p l || !extentOk e || (d.extents ++ d.offers).any (extentsMeet e) then .next s
  else match Tab.get none d.dcMap e.dc.val with
    | none => .next s
    | some r =>
      if !s.isRegion r then .next s
      else match s.dcGrow r ((e.off + e.len) / 65536) with
        | .inl st => .next (s.emit (.dcRefused p l st.code))
        | .inr s1 =>
          let d1 := s1.ld p l
          .next ((s1.setLd p l { d1 with offers := d1.offers ++ [e] }).ldRecord p l .dcd .dcAdd e.off).settleMed

end Sys2Proof.Machine
end

