-- ==== Sys2Proof/Machine/Start.lean ====
section
/-! DEFINITION. Mingaso starts (R19, R422): the first time after the main domain leaves reset, and again after a control-core restart. -/

namespace Sys2Proof.Machine

namespace State

/-- Whether Mingaso has started since the main domain left reset: its tables are then no longer empty. -/
def startedBefore (s : State) : Bool := s.xlt.load != .empty

/-- Steps 4 and 5 of Table 1-6: what a life-cycle transition or an erase left is finished, keys, routes and slots are restored, the recorder and
a copy to BOOT go on, acquisition starts, what the drain left is looked at, and the groups come up. A deadline that
still stands acts (R62). -/
def firstStart (s : State) (found : Option (BitVec 5)) (bad : List Nat) (otpOk : Bool) : State :=
  let s0 := s.groupsRepair.configRepair
  let s1 := if s0.sec.eraseMarker || s0.sec.ropErase || s0.sec.lcMark.isSome then s0.lifeActions else s0
  let s2 := s1.erasesResume.keysLoad.routesRestore
  let s3 := (s2.setXlt { s2.xlt with load := .beforeOpen }).setDram { s2.dram with found := found, bad := bad }
  let s4 := (s3.fillSlots fun g => (s3.qg g).inService).vaultRestart
  let s5 := if s4.flash.slots.bootCopy = 0 then s4 else s4.bootCopyStart none (s4.flash.slots.bootCopy == 2)
  let s6 := s5.setTally { s5.tally with acquiring := true }
  let s7 := ((s6.arbFollow otpOk).replayChoose.groupsUp).judgeSec.judgeMain
  if s7.evt.raw.getLsbD 158 then s7.deadlineMark else s7

/-- Step 5 of Table 16-11: an activation is captured and recorded, and its command completes. -/
def activated (s : State) : State :=
  match s.flash.work with
  | some (.activate who) =>
    ((s.cause Reg.FLS_CORE_CAUSE 0 3 423).record Config.codeFwActivated 0x3FF s.flash.runVersion).fwComplete who .ok []
  | _ => s

end State

/-- MINGASO_START (R19, R422): Mingaso runs once its image is loaded. `found` is what the SPD hubs say of the DIMMs, `bad` the ranks that fail
training, and `otpOk` that OTP bits program. What waited for the control cores is taken. -/
def execMingasoStart (found : Option (BitVec 5)) (bad : List Nat) (otpOk : Bool) (s : State) : Res :=
  if !s.psq.mainUp || s.flash.cores != .restarting then .next s
  else
    let s1 := (s.setFlash { s.flash with cores := .running }).wdgStart
    let s2 := if s1.startedBefore then s1.activated else s1.firstStart found bad otpOk
    .next s2.macResume.catchUpAll

/-- The block with no command waiting (DESIGN CHOICE: no row of the opcode table is a clock's tick): the local clock advances by one
unit, due slots of ACTION 0 below the slot that fires next fire (no row of the table is theirs), and Mingaso takes the packets that wait for
it (R356, R357). A window of CRC failures that has run out lets CRC_STORM fall (Table 4-13). -/
def State.idle (s : State) : State :=
  let s1 := s.clockTick.stormsEnd
  (s1.fireNone (s1.nextDue.getD 256)).catchUpAll

end Sys2Proof.Machine
end

