-- ==== Sys2Proof/Machine/Yarrow.lean ====
section
/-! DEFINITION. The meanings of Yarrow's events (chapter 6). -/

namespace Sys2Proof.Machine

/-- EMERGENCY_REMAP_START (R128): the sett on which a program failed takes its destination and is copied, whatever else works on it. -/
def execEmergencyRemapStart (n : Nat) (s : State) : Res :=
  .next (if s.psq.mainUp then
    match s.med.yarrow.queue.find? fun w => w.lsett == n && w.kind == .remap with
    | some w => if s.satisfied w then (s.unqueue w).settleMed else ((s.startWork w).getD s).settleMed
    | none => s
  else s)

/-- MOVE_COMMIT (R130): every program of a sett's work has verified. -/
def execMoveCommit (n : Nat) (s : State) : Res := .next (if s.medUp then s.commitWork n else s)

/-- YARROW_WORK_DISPATCH (R137). -/
def execYarrowWorkDispatch (s : State) : Res := .next (if s.medUp then s.dispatchWork.settleMed else s)

/-- WEAR_SCAN (R139): the hourly scan of the dies of a channel, and of the channel; the statistics of its dies go to the vault (Table 16-5). -/
def execWearScan (n : Fin 144) (s : State) : Res :=
  .next (if s.psq.mainUp then
    let ds := (s.chanDies n).filter fun d => s.dieUp d
    ds.foldl (fun s d => s.vaultPut 3 (.wear d s.nowEpoch)) ((ds.foldl (fun s d => s.wearScan d) s).balanceScan n) else s)

/-- SPARE_RECOMPUTE (R142): every second. -/
def execSpareRecompute (s : State) : Res := .next (if s.psq.mainUp then s.retireZones.spareNow else s)

/-- YOUNG_SWEEP (R106): the sweeper visits a sett's tag. -/
def execYoungSweep (n : Nat) (s : State) : Res :=
  .next (if s.psq.mainUp && !(s.youngOf n).isEmpty then
    let (s1, band) := s.youngSweep n
    let s2 := (s1.journalYoung n (s.youngOf n)).journal (.entry n)
    ((if band then s2.journal (.bandOfs n) else s2).judgeOccupancy).settleMed else s)

end Sys2Proof.Machine
end

