-- ==== Sys2Proof/Machine/Dispatch.lean ====
section
/-! DEFINITION. One arm per command, each a direct call of its meaning. -/

namespace Sys2Proof.Machine

def exec (i : Instr) (s : State) : Host.Outcome State Fault Refusal :=
  match i with
  | .cxlMemrd p l tag t => Sys2Proof.Machine.execCxlMemrd p l tag t s
  | .cxlMemspecrd p l t => Sys2Proof.Machine.execCxlMemspecrd p l t s
  | .cxlMemwr p l tag t d poison => Sys2Proof.Machine.execCxlMemwr p l tag t d poison s
  | .cxlMemwrptl p l tag t mask d poison => Sys2Proof.Machine.execCxlMemwrptl p l tag t mask d poison s
  | .partialLineMerge x => Sys2Proof.Machine.execPartialLineMerge x s
  | .scbIdleClose n => Sys2Proof.Machine.execScbIdleClose n s
  | .cxlHoldTimeout p => Sys2Proof.Machine.execCxlHoldTimeout p s
  | .forwardGatherExpiry => Sys2Proof.Machine.execForwardGatherExpiry s
  | .programDone n seq tag info => Sys2Proof.Machine.execProgramDone n seq tag info s
  | .emergencyRemapStart n => Sys2Proof.Machine.execEmergencyRemapStart n s
  | .moveCommit n => Sys2Proof.Machine.execMoveCommit n s
  | .yarrowWorkDispatch => Sys2Proof.Machine.execYarrowWorkDispatch s
  | .wearScan n => Sys2Proof.Machine.execWearScan n s
  | .spareRecompute => Sys2Proof.Machine.execSpareRecompute s
  | .youngSweep n => Sys2Proof.Machine.execYoungSweep n s
  | .teaselBlanking d => Sys2Proof.Machine.execTeaselBlanking d s
  | .teaselPassComplete g => Sys2Proof.Machine.execTeaselPassComplete g s
  | .keepBurstEnd => Sys2Proof.Machine.execKeepBurstEnd s
  | .qmiFrameResponse n seq tag f => Sys2Proof.Machine.execQmiFrameResponse n seq tag f s
  | .qmiSoftResponse n seq tag ref plus minus => Sys2Proof.Machine.execQmiSoftResponse n seq tag ref plus minus s
  | .qmiInfoResponse n seq tag info => Sys2Proof.Machine.execQmiInfoResponse n seq tag info s
  | .qmiErrorResponse n seq tag st => Sys2Proof.Machine.execQmiErrorResponse n seq tag st s
  | .qmiSetRefDone n seq tag st => Sys2Proof.Machine.execQmiSetRefDone n seq tag st s
  | .qmiDieResetDone n seq tag => Sys2Proof.Machine.execQmiDieResetDone n seq tag s
  | .qmiAckReceived n seq => Sys2Proof.Machine.execQmiAckReceived n seq s
  | .qmiNakReceived n seq => Sys2Proof.Machine.execQmiNakReceived n seq s
  | .qmiCreditReceived n die freed => Sys2Proof.Machine.execQmiCreditReceived n die freed s
  | .qmiSleepReceived n => Sys2Proof.Machine.execQmiSleepReceived n s
  | .qmiCrcFailure n newWindow f => Sys2Proof.Machine.execQmiCrcFailure n newWindow f s
  | .qmiAckTimer n => Sys2Proof.Machine.execQmiAckTimer n s
  | .qmiLctlRefresh n => Sys2Proof.Machine.execQmiLctlRefresh n s
  | .qmiReplayTimeout n => Sys2Proof.Machine.execQmiReplayTimeout n s
  | .fastRetrainDone n ok => Sys2Proof.Machine.execFastRetrainDone n ok s
  | .fullRetrainDone n ok => Sys2Proof.Machine.execFullRetrainDone n ok s
  | .qcFastRetrain n => Sys2Proof.Machine.execQcFastRetrain n s
  | .qcFullRetrain n => Sys2Proof.Machine.execQcFullRetrain n s
  | .qcOffline n => Sys2Proof.Machine.execQcOffline n s
  | .qcOfflineTimeout n => Sys2Proof.Machine.execQcOfflineTimeout n s
  | .qcEn n => Sys2Proof.Machine.execQcEn n s
  | .packageReady n pkg seen d => Sys2Proof.Machine.execPackageReady n pkg seen d s
  | .channelTrained n idOk => Sys2Proof.Machine.execChannelTrained n idOk s
  | .sidebandTempPoll g temps => Sys2Proof.Machine.execSidebandTempPoll g temps s
  | .sidebandStuckTimeout g => Sys2Proof.Machine.execSidebandStuckTimeout g s
  | .qgAlert g low pkg status => Sys2Proof.Machine.execQgAlert g low pkg status s
  | .eyebrightPowerupCompare g levels => Sys2Proof.Machine.execEyebrightPowerupCompare g levels s
  | .eyebrightCalibration d levels => Sys2Proof.Machine.execEyebrightCalibration d levels s
  | .eybSweep => Sys2Proof.Machine.execEybSweep s
  | .fullSweepDone d levels => Sys2Proof.Machine.execFullSweepDone d levels s
  | .tandemMirror p f es => Sys2Proof.Machine.execTandemMirror p f es s
  | .tandemForward p f es => Sys2Proof.Machine.execTandemForward p f es s
  | .mirrorDone p f dirty c region ros => Sys2Proof.Machine.execMirrorDone p f dirty c region ros s
  | .fwdDurable p f dirty c ftag count => Sys2Proof.Machine.execFwdDurable p f dirty c ftag count s
  | .fwdRefused p f dirty c ftag status => Sys2Proof.Machine.execFwdRefused p f dirty c ftag status s
  | .tandemReadAssistRequest p f rtag region line count => Sys2Proof.Machine.execTandemReadAssistRequest p f rtag region line count s
  | .tandemReadAssistReply p f rtag line last st => Sys2Proof.Machine.execTandemReadAssistReply p f rtag line last st s
  | .tandemSync p f times src trust => Sys2Proof.Machine.execTandemSync p f times src trust s
  | .tandemHeartbeat p f seq echo dirty c => Sys2Proof.Machine.execTandemHeartbeat p f seq echo dirty c s
  | .tandemResync p f es => Sys2Proof.Machine.execTandemResync p f es s
  | .tandemPair p f m => Sys2Proof.Machine.execTandemPair p f m s
  | .capState p f c => Sys2Proof.Machine.execCapState p f c s
  | .draining p f trigger => Sys2Proof.Machine.execDraining p f trigger s
  | .detachFrame p f => Sys2Proof.Machine.execDetachFrame p f s
  | .handover p f region term ros => Sys2Proof.Machine.execHandover p f region term ros s
  | .handoverAck p f region term => Sys2Proof.Machine.execHandoverAck p f region term s
  | .regionAttr p f region ros ver a => Sys2Proof.Machine.execRegionAttr p f region ros ver a s
  | .regionState p f region c => Sys2Proof.Machine.execRegionState p f region c s
  | .resyncPlan p f region count peerMarks => Sys2Proof.Machine.execResyncPlan p f region count peerMarks s
  | .resyncDone p f region => Sys2Proof.Machine.execResyncDone p f region s
  | .rekey p f port phase => Sys2Proof.Machine.execRekey p f port phase s
  | .leaving p f trigger => Sys2Proof.Machine.execLeaving p f trigger s
  | .allocate p f m => Sys2Proof.Machine.execAllocate p f m s
  | .tandemFlitDiscard p flit => Sys2Proof.Machine.execTandemFlitDiscard p flit s
  | .tandemNakReceived p seq => Sys2Proof.Machine.execTandemNakReceived p seq s
  | .tandemRetrainDone p ok => Sys2Proof.Machine.execTandemRetrainDone p ok s
  | .tandemPortUp p => Sys2Proof.Machine.execTandemPortUp p s
  | .tandemHeartbeatTimer => Sys2Proof.Machine.execTandemHeartbeatTimer s
  | .tandemSyncTimer => Sys2Proof.Machine.execTandemSyncTimer s
  | .tandemRekeyTimer p => Sys2Proof.Machine.execTandemRekeyTimer p s
  | .tandemOldKeyExpiry p => Sys2Proof.Machine.execTandemOldKeyExpiry p s
  | .linkLossTimeout => Sys2Proof.Machine.execLinkLossTimeout s
  | .fenceIntervalExpiry => Sys2Proof.Machine.execFenceIntervalExpiry s
  | .strictHoldExpiry => Sys2Proof.Machine.execStrictHoldExpiry s
  | .pairingRetryTimer => Sys2Proof.Machine.execPairingRetryTimer s
  | .leaveWaitExpiry => Sys2Proof.Machine.execLeaveWaitExpiry s
  | .pwrFailN => Sys2Proof.Machine.execPwrFailN s
  | .vinSense => Sys2Proof.Machine.execVinSense s
  | .drainComplete => Sys2Proof.Machine.execDrainComplete s
  | .orderlyFlushComplete => Sys2Proof.Machine.execOrderlyFlushComplete s
  | .drainReplay => Sys2Proof.Machine.execDrainReplay s
  | .pbfHashKeyWrite req hi => Sys2Proof.Machine.execPbfHashKeyWrite req hi s
  | .checkpointChunkWrite => Sys2Proof.Machine.execCheckpointChunkWrite s
  | .priorityLoadDone c => Sys2Proof.Machine.execPriorityLoadDone c s
  | .backgroundChunkLoad => Sys2Proof.Machine.execBackgroundChunkLoad s
  | .hintScan => Sys2Proof.Machine.execHintScan s
  | .poolPromote => Sys2Proof.Machine.execPoolPromote s
  | .poolDemote n => Sys2Proof.Machine.execPoolDemote n s
  | .windowIdleClose st object => Sys2Proof.Machine.execWindowIdleClose st object s
  | .benchViewRawWrite a d => Sys2Proof.Machine.execBenchViewRawWrite a d s
  | .rawDiscard a => Sys2Proof.Machine.execRawDiscard a s
  | .sramScrubVisit m err x both held last => Sys2Proof.Machine.execSramScrubVisit m err x both held last s
  | .evrTokenRefill code => Sys2Proof.Machine.execEvrTokenRefill code s
  | .evrArchiveStart => Sys2Proof.Machine.execEvrArchiveStart s
  | .vaultPageProgramDone page ok => Sys2Proof.Machine.execVaultPageProgramDone page ok s
  | .vaultPadTimeout kind => Sys2Proof.Machine.execVaultPadTimeout kind s
  | .csrWrite req read off size full data => Sys2Proof.Machine.execCsrWrite req read off size full data s
  | .aliasWrite req kind off size full data => Sys2Proof.Machine.execAliasWrite req kind off size full data s
  | .aonPostedWriteApply => Sys2Proof.Machine.execAonPostedWriteApply s
  | .schedSlotWrite k word kind data => Sys2Proof.Machine.execSchedSlotWrite k word kind data s
  | .ptpSync m offset t => Sys2Proof.Machine.execPtpSync m offset t s
  | .ptpAnnounceTimeout m => Sys2Proof.Machine.execPtpAnnounceTimeout m s
  | .ptpDelayReqTimer m => Sys2Proof.Machine.execPtpDelayReqTimer m s
  | .ptpDelayResp m delay => Sys2Proof.Machine.execPtpDelayResp m delay s
  | .ptpAnnounce m rank => Sys2Proof.Machine.execPtpAnnounce m rank s
  | .twinSyncTimeout => Sys2Proof.Machine.execTwinSyncTimeout s
  | .signedTimeExpiry => Sys2Proof.Machine.execSignedTimeExpiry s
  | .ppsInEdge good => Sys2Proof.Machine.execPpsInEdge good s
  | .ppsLoss => Sys2Proof.Machine.execPpsLoss s
  | .catchupEnd => Sys2Proof.Machine.execCatchupEnd s
  | .epochBoundary => Sys2Proof.Machine.execEpochBoundary s
  | .belowFloorHoldoffExpiry x => Sys2Proof.Machine.execBelowFloorHoldoffExpiry x s
  | .noSource => Sys2Proof.Machine.execNoSource s
  | .wakeDeadlineReached => Sys2Proof.Machine.execWakeDeadlineReached s
  | .wakeHandshakeStart => Sys2Proof.Machine.execWakeHandshakeStart s
  | .wakeGrant => Sys2Proof.Machine.execWakeGrant s
  | .wakeForceAtDeadline => Sys2Proof.Machine.execWakeForceAtDeadline s
  | .teaselPass k => Sys2Proof.Machine.execTeaselPass k s
  | .eyebrightCal k => Sys2Proof.Machine.execEyebrightCal k s
  | .nvFloorWrite k => Sys2Proof.Machine.execNvFloorWrite k s
  | .wakeReq k => Sys2Proof.Machine.execWakeReq k s
  | .slotKeepEnter k => Sys2Proof.Machine.execSlotKeepEnter k s
  | .slotKeepLeave k => Sys2Proof.Machine.execSlotKeepLeave k s
  | .dramScrub k => Sys2Proof.Machine.execDramScrub k s
  | .raiseEvent k => Sys2Proof.Machine.execRaiseEvent k s
  | .sentinelRewrite k => Sys2Proof.Machine.execSentinelRewrite k s
  | .vaonPowerUp => Sys2Proof.Machine.execVaonPowerUp s
  | .vaonLoss => Sys2Proof.Machine.execVaonLoss s
  | .inputGood => Sys2Proof.Machine.execInputGood s
  | .railQualified k => Sys2Proof.Machine.execRailQualified k s
  | .railStart k => Sys2Proof.Machine.execRailStart k s
  | .railRampTimeout k => Sys2Proof.Machine.execRailRampTimeout k s
  | .railPgDrop k => Sys2Proof.Machine.execRailPgDrop k s
  | .seqRetryBackoffExpiry => Sys2Proof.Machine.execSeqRetryBackoffExpiry s
  | .railOff k => Sys2Proof.Machine.execRailOff k s
  | .offDwellExpiry k => Sys2Proof.Machine.execOffDwellExpiry k s
  | .railFault k => Sys2Proof.Machine.execRailFault k s
  | .railGlitch k => Sys2Proof.Machine.execRailGlitch k s
  | .railRetryWindowExpiry k => Sys2Proof.Machine.execRailRetryWindowExpiry k s
  | .tOffMinExpiry => Sys2Proof.Machine.execTOffMinExpiry s
  | .pbShort => Sys2Proof.Machine.execPbShort s
  | .pbForced => Sys2Proof.Machine.execPbForced s
  | .mrN low => Sys2Proof.Machine.execMrN low s
  | .powerUp => Sys2Proof.Machine.execPowerUp s
  | .idleEntry => Sys2Proof.Machine.execIdleEntry s
  | .idleExit => Sys2Proof.Machine.execIdleExit s
  | .keepEntry => Sys2Proof.Machine.execKeepEntry s
  | .keepEntryComplete => Sys2Proof.Machine.execKeepEntryComplete s
  | .keepLeave => Sys2Proof.Machine.execKeepLeave s
  | .keepLeaveComplete => Sys2Proof.Machine.execKeepLeaveComplete s
  | .throttle => Sys2Proof.Machine.execThrottle s
  | .throttleEnd => Sys2Proof.Machine.execThrottleEnd s
  | .trip => Sys2Proof.Machine.execTrip s
  | .tripHoldExpiry => Sys2Proof.Machine.execTripHoldExpiry s
  | .psqSeqCommit => Sys2Proof.Machine.execPsqSeqCommit s
  | .psqMgmapCommit => Sys2Proof.Machine.execPsqMgmapCommit s
  | .wdgKick value => Sys2Proof.Machine.execWdgKick value s
  | .stage1 => Sys2Proof.Machine.execStage1 s
  | .stage2 => Sys2Proof.Machine.execStage2 s
  | .warmReset => Sys2Proof.Machine.execWarmReset s
  | .flashHoldOverrun => Sys2Proof.Machine.execFlashHoldOverrun s
  | .flashOpDone ok => Sys2Proof.Machine.execFlashOpDone ok s
  | .flashSuspend => Sys2Proof.Machine.execFlashSuspend s
  | .flashSuspendTimeout => Sys2Proof.Machine.execFlashSuspendTimeout s
  | .vddIoBandChange low => Sys2Proof.Machine.execVddIoBandChange low s
  | .keeperWordCheck word outcome holder => Sys2Proof.Machine.execKeeperWordCheck word outcome holder s
  | .wstampHiAdvance => Sys2Proof.Machine.execWstampHiAdvance s
  | .controlCoreRestart cause => Sys2Proof.Machine.execControlCoreRestart cause s
  | .mingasoStart found bad otpOk => Sys2Proof.Machine.execMingasoStart found bad otpOk s
  | .trialConfirm ok => Sys2Proof.Machine.execTrialConfirm ok s
  | .bootstrapWrite offset bytes => Sys2Proof.Machine.execBootstrapWrite offset bytes s
  | .bootstrapEnd len good => Sys2Proof.Machine.execBootstrapEnd len good s
  | .dramReadCe addr held => Sys2Proof.Machine.execDramReadCe addr held s
  | .ceCacheRewrite addr => Sys2Proof.Machine.execCeCacheRewrite addr s
  | .dramUncorrectableError addr owner held => Sys2Proof.Machine.execDramUncorrectableError addr owner held s
  | .dramScrubPass => Sys2Proof.Machine.execDramScrubPass s
  | .drmSreqGo => Sys2Proof.Machine.execDrmSreqGo s
  | .sreqDone ce ue first => Sys2Proof.Machine.execSreqDone ce ue first s
  | .ceWindowExpiry c k => Sys2Proof.Machine.execCeWindowExpiry c k s
  | .rankCopyDone c lost held => Sys2Proof.Machine.execRankCopyDone c lost held s
  | .ddrAlertN c k second held => Sys2Proof.Machine.execDdrAlertN c k second held s
  | .dimmThermalPoll d temp => Sys2Proof.Machine.execDimmThermalPoll d temp s
  | .drmMapCommit => Sys2Proof.Machine.execDrmMapCommit s
  | .drmFreqSwitch => Sys2Proof.Machine.execDrmFreqSwitch s
  | .freqSwitchDone ok => Sys2Proof.Machine.execFreqSwitchDone ok s
  | .dramInjectWrite addr => Sys2Proof.Machine.execDramInjectWrite addr s
  | .mbxIn c w => Sys2Proof.Machine.execMbxIn c w s
  | .mbxDoorbell c ok => Sys2Proof.Machine.execMbxDoorbell c ok s
  | .mbxOutPop c k => Sys2Proof.Machine.execMbxOutPop c k s
  | .mbxInReset c => Sys2Proof.Machine.execMbxInReset c s
  | .lGo c ok => Sys2Proof.Machine.execLGo c ok s
  | .legacyRegisterCollide c off w => Sys2Proof.Machine.execLegacyRegisterCollide c off w s
  | .mctpMessage c ws ok => Sys2Proof.Machine.execMctpMessage c ws ok s
  | .i3cPrivateWrite off ws ok rd => Sys2Proof.Machine.execI3cPrivateWrite off ws ok rd s
  | .pendingCommandComplete c tag ok => Sys2Proof.Machine.execPendingCommandComplete c tag ok s
  | .identify r => Sys2Proof.Machine.execIdentify r s
  | .deviceStatus r => Sys2Proof.Machine.execDeviceStatus r s
  | .channelAssign r => Sys2Proof.Machine.execChannelAssign r s
  | .channelMode r => Sys2Proof.Machine.execChannelMode r s
  | .cmdStatus r => Sys2Proof.Machine.execCmdStatus r s
  | .routeSet r => Sys2Proof.Machine.execRouteSet r s
  | .routeGet r => Sys2Proof.Machine.execRouteGet r s
  | .stageWrite r => Sys2Proof.Machine.execStageWrite r s
  | .stageRead r => Sys2Proof.Machine.execStageRead r s
  | .regionCreate r => Sys2Proof.Machine.execRegionCreate r s
  | .regionDelete r => Sys2Proof.Machine.execRegionDelete r s
  | .regionResize r => Sys2Proof.Machine.execRegionResize r s
  | .regionSetMode r => Sys2Proof.Machine.execRegionSetMode r s
  | .regionSetPolicy r => Sys2Proof.Machine.execRegionSetPolicy r s
  | .regionInfo r => Sys2Proof.Machine.execRegionInfo r s
  | .regionGrant r => Sys2Proof.Machine.execRegionGrant r s
  | .regionBind r => Sys2Proof.Machine.execRegionBind r s
  | .regionUnbind r => Sys2Proof.Machine.execRegionUnbind r s
  | .regionZero r => Sys2Proof.Machine.execRegionZero r s
  | .dcMap r => Sys2Proof.Machine.execDcMap r s
  | .objectCreate r => Sys2Proof.Machine.execObjectCreate r s
  | .objectDelete r => Sys2Proof.Machine.execObjectDelete r s
  | .hintSet r => Sys2Proof.Machine.execHintSet r s
  | .hintExtend r => Sys2Proof.Machine.execHintExtend r s
  | .objectList r => Sys2Proof.Machine.execObjectList r s
  | .pairBind r => Sys2Proof.Machine.execPairBind r s
  | .pairStatus r => Sys2Proof.Machine.execPairStatus r s
  | .solo r => Sys2Proof.Machine.execSolo r s
  | .takeover r => Sys2Proof.Machine.execTakeover r s
  | .fence r => Sys2Proof.Machine.execFence r s
  | .moveHome r => Sys2Proof.Machine.execMoveHome r s
  | .detach r => Sys2Proof.Machine.execDetach r s
  | .rejoin r => Sys2Proof.Machine.execRejoin r s
  | .regionUnlock r => Sys2Proof.Machine.execRegionUnlock r s
  | .regionLock r => Sys2Proof.Machine.execRegionLock r s
  | .cryptoErase r => Sys2Proof.Machine.execCryptoErase r s
  | .timeKeySet r => Sys2Proof.Machine.execTimeKeySet r s
  | .macsecCakSet r => Sys2Proof.Machine.execMacsecCakSet r s
  | .certGet r => Sys2Proof.Machine.execCertGet r s
  | .lcStatus r => Sys2Proof.Machine.execLcStatus r s
  | .lcAdvance r => Sys2Proof.Machine.execLcAdvance r s
  | .debugUnlockChallenge r => Sys2Proof.Machine.execDebugUnlockChallenge r s
  | .debugUnlockResponse r => Sys2Proof.Machine.execDebugUnlockResponse r s
  | .debugChallengeExpiry => Sys2Proof.Machine.execDebugChallengeExpiry s
  | .ropRaise => Sys2Proof.Machine.execRopRaise s
  | .debugClose => Sys2Proof.Machine.execDebugClose s
  | .fwChunk r => Sys2Proof.Machine.execFwChunk r s
  | .fwCommit r => Sys2Proof.Machine.execFwCommit r s
  | .fwActivate r => Sys2Proof.Machine.execFwActivate r s
  | .fwInfo r => Sys2Proof.Machine.execFwInfo r s
  | .vaultRead r lost => Sys2Proof.Machine.execVaultRead r lost s
  | .evrRead r => Sys2Proof.Machine.execEvrRead r s
  | .evrClear r => Sys2Proof.Machine.execEvrClear r s
  | .evrRateSet r => Sys2Proof.Machine.execEvrRateSet r s
  | .evrStatus r => Sys2Proof.Machine.execEvrStatus r s
  | .tallyStatus r => Sys2Proof.Machine.execTallyStatus r s
  | .timeSigned r => Sys2Proof.Machine.execTimeSigned r s
  | .schedAdd r => Sys2Proof.Machine.execSchedAdd r s
  | .schedRemove r => Sys2Proof.Machine.execSchedRemove r s
  | .powerRequestOff r => Sys2Proof.Machine.execPowerRequestOff r s
  | .powerRequestOn r => Sys2Proof.Machine.execPowerRequestOn r s
  | .powerRequestKeepEnter r => Sys2Proof.Machine.execPowerRequestKeepEnter r s
  | .powerRequestKeepLeave r => Sys2Proof.Machine.execPowerRequestKeepLeave r s
  | .drainAndHalt r => Sys2Proof.Machine.execDrainAndHalt r s
  | .resetCmd r => Sys2Proof.Machine.execResetCmd r s
  | .wakeMarginSet r => Sys2Proof.Machine.execWakeMarginSet r s
  | .lockoutClear r => Sys2Proof.Machine.execLockoutClear r s
  | .powerStatus r => Sys2Proof.Machine.execPowerStatus r s
  | .benchViewOpen r => Sys2Proof.Machine.execBenchViewOpen r s
  | .benchViewClose r => Sys2Proof.Machine.execBenchViewClose r s
  | .dramScrubRange r => Sys2Proof.Machine.execDramScrubRange r s
  | .regRead r => Sys2Proof.Machine.execRegRead r s
  | .regWrite r => Sys2Proof.Machine.execRegWrite r s
  | .gidSet r => Sys2Proof.Machine.execGidSet r s
  | .pdCreate r => Sys2Proof.Machine.execPdCreate r s
  | .pdDestroy r => Sys2Proof.Machine.execPdDestroy r s
  | .pdToken r => Sys2Proof.Machine.execPdToken r s
  | .windowCreate r => Sys2Proof.Machine.execWindowCreate r s
  | .windowDestroy r => Sys2Proof.Machine.execWindowDestroy r s
  | .cqCreate r => Sys2Proof.Machine.execCqCreate r s
  | .cqDestroy r => Sys2Proof.Machine.execCqDestroy r s
  | .sqAttach r => Sys2Proof.Machine.execSqAttach r s
  | .sqDoorbell r => Sys2Proof.Machine.execSqDoorbell r s
  | .qpInfo r => Sys2Proof.Machine.execQpInfo r s
  | .dieMarkFailed r => Sys2Proof.Machine.execDieMarkFailed r s
  | .orphanSweep r => Sys2Proof.Machine.execOrphanSweep r s
  | .teaselPassNow r => Sys2Proof.Machine.execTeaselPassNow r s
  | .tslPassNow => Sys2Proof.Machine.execTslPassNow s
  | .eyebrightSweep r => Sys2Proof.Machine.execEyebrightSweep r s
  | .mediumStatus r => Sys2Proof.Machine.execMediumStatus r s
  | .channelOffline r => Sys2Proof.Machine.execChannelOffline r s
  | .channelReturn r => Sys2Proof.Machine.execChannelReturn r s
  | .trngFail => Sys2Proof.Machine.execTrngFail s
  | .drbgReseed => Sys2Proof.Machine.execDrbgReseed s
  | .hdmDecoderCommit p l b d => Sys2Proof.Machine.execHdmDecoderCommit p l b d s
  | .dcAdd p l e => Sys2Proof.Machine.execDcAdd p l e s
  | .dcRelease p l e => Sys2Proof.Machine.execDcRelease p l e s
  | .getEventRecords p l k => Sys2Proof.Machine.execGetEventRecords p l k s
  | .clearEventRecords p l k n => Sys2Proof.Machine.execClearEventRecords p l k n s
  | .getEventInterruptPolicy p l => Sys2Proof.Machine.execGetEventInterruptPolicy p l s
  | .setEventInterruptPolicy p l k vector => Sys2Proof.Machine.execSetEventInterruptPolicy p l k vector s
  | .getFwInfo p l => Sys2Proof.Machine.execGetFwInfo p l s
  | .transferFw p l action off data ok => Sys2Proof.Machine.execTransferFw p l action off data ok s
  | .activateFw p l online slot => Sys2Proof.Machine.execActivateFw p l online slot s
  | .getTimestamp p l => Sys2Proof.Machine.execGetTimestamp p l s
  | .setTimestamp p l ns => Sys2Proof.Machine.execSetTimestamp p l ns s
  | .getSupportedLogs p l => Sys2Proof.Machine.execGetSupportedLogs p l s
  | .getLog p l => Sys2Proof.Machine.execGetLog p l s
  | .identifyMemoryDevice p l => Sys2Proof.Machine.execIdentifyMemoryDevice p l s
  | .getHealthInfo p l => Sys2Proof.Machine.execGetHealthInfo p l s
  | .sanitize p l => Sys2Proof.Machine.execSanitize p l s
  | .getDcConfiguration p l => Sys2Proof.Machine.execGetDcConfiguration p l s
  | .getDcExtentList p l => Sys2Proof.Machine.execGetDcExtentList p l s
  | .addDcResponse p l es => Sys2Proof.Machine.execAddDcResponse p l es s
  | .releaseDc p l es => Sys2Proof.Machine.execReleaseDc p l es s
  | .azlerPacket p l ws ok => Sys2Proof.Machine.execAzlerPacket p l ws ok s
  | .doeDiscovery p l => Sys2Proof.Machine.execDoeDiscovery p l s
  | .spdmMessage d a => Sys2Proof.Machine.execSpdmMessage d a s
  | .ideKm p l session stream go => Sys2Proof.Machine.execIdeKm p l session stream go s
  | .cdatRead p l => Sys2Proof.Machine.execCdatRead p l s
  | .ideFail p stream => Sys2Proof.Machine.execIdeFail p stream s
  | .gpfPhase2 p us => Sys2Proof.Machine.execGpfPhase2 p us s
  | .cxlPortReset p => Sys2Proof.Machine.execCxlPortReset p s
  | .ldReset p l => Sys2Proof.Machine.execLdReset p l s
  | .surpriseRemoval p => Sys2Proof.Machine.execSurpriseRemoval p s
  | .cxlPortTrain p width speed flit256 flitLo mld lds => Sys2Proof.Machine.execCxlPortTrain p width speed flit256 flitLo mld lds s
  | .rdmaWrite n k => Sys2Proof.Machine.execRdmaWrite n k s
  | .rdmaWriteImm n k imm => Sys2Proof.Machine.execRdmaWriteImm n k imm s
  | .rdmaRead n psn key va len ce icrc => Sys2Proof.Machine.execRdmaRead n psn key va len ce icrc s
  | .rdmaCmpswap n psn key va compare swap ce icrc => Sys2Proof.Machine.execRdmaCmpswap n psn key va compare swap ce icrc s
  | .rdmaFetchadd n psn key va add ce icrc => Sys2Proof.Machine.execRdmaFetchadd n psn key va add ce icrc s
  | .rdmaAtomicWrite n psn key va d ce icrc => Sys2Proof.Machine.execRdmaAtomicWrite n psn key va d ce icrc s
  | .rdmaFlush n psn key va len ce icrc => Sys2Proof.Machine.execRdmaFlush n psn key va len ce icrc s
  | .rdmaSend n psn ws ce icrc ok => Sys2Proof.Machine.execRdmaSend n psn ws ce icrc ok s
  | .rdmaUnsupportedPacket m n psn => Sys2Proof.Machine.execRdmaUnsupportedPacket m n psn s
  | .rdmaPeerAck n psn => Sys2Proof.Machine.execRdmaPeerAck n psn s
  | .rdmaPeerNak n psn code => Sys2Proof.Machine.execRdmaPeerNak n psn code s
  | .rdmaReadResponse n psn off data last => Sys2Proof.Machine.execRdmaReadResponse n psn off data last s
  | .requesterAckTimeout n => Sys2Proof.Machine.execRequesterAckTimeout n s
  | .mgmtRnrRetry n => Sys2Proof.Machine.execMgmtRnrRetry n s
  | .sprayHoleTimeout n => Sys2Proof.Machine.execSprayHoleTimeout n s
  | .cnpReceived n => Sys2Proof.Machine.execCnpReceived n s
  | .ccRateIncreaseTimer n => Sys2Proof.Machine.execCcRateIncreaseTimer n s
  | .cmReq r => Sys2Proof.Machine.execCmReq r s
  | .pfcFrame p prio pause => Sys2Proof.Machine.execPfcFrame p prio pause s
  | .pfcBufferLevel p free => Sys2Proof.Machine.execPfcBufferLevel p free s
  | .pfcStorm m => Sys2Proof.Machine.execPfcStorm m s
  | .mkaFrame m sc an sa => Sys2Proof.Machine.execMkaFrame m sc an sa s
  | .icvFail m => Sys2Proof.Machine.execIcvFail m s
  | .arpRequest m g => Sys2Proof.Machine.execArpRequest m g s
  | .neighborDiscovery m g => Sys2Proof.Machine.execNeighborDiscovery m g s
  | .icmpEcho m g => Sys2Proof.Machine.execIcmpEcho m g s
  | .macLinkChange m up => Sys2Proof.Machine.execMacLinkChange m up s
  | .dramScrubBurstEnd => Sys2Proof.Machine.execDramScrubBurstEnd s
  | .tdmLanemapCommit => Sys2Proof.Machine.execTdmLanemapCommit s
  | .tandemAckTimer p => Sys2Proof.Machine.execTandemAckTimer p s
  | .tandemFlitAck p seq => Sys2Proof.Machine.execTandemFlitAck p seq s
  | .trngOk => Sys2Proof.Machine.execTrngOk s
  | .backgroundOperationComplete p l => Sys2Proof.Machine.execBackgroundOperationComplete p l s

end Sys2Proof.Machine
end

