-- ==== Sys2Proof/Machine/Parts.lean ====
section
/-! DEFINITION. The parts of the state by name, and what it means that a change keeps every part but the named ones: the terms in which
frames are stated. -/

namespace Sys2Proof.Machine

/-- A part of the state: a field of `State`, or `fuse`, the one-time-programmable bits within `sec` (the groups G0 to G4 and the anti-rollback
counter, Table 15-7, R425). -/
inductive Part where
  | regs | csr | evt | ecc | tally | sched | nv | evr | wdg | flash | psq | chans | med | bench | xlt | twin | cxl | rdma | sec | fuse | dram
  | out | fresh | pending
  deriving DecidableEq, Repr

/-- Both states hold the same in a part. -/
def Part.same (s t : State) : Part → Prop
  | .regs => t.regs = s.regs
  | .csr => t.csr = s.csr
  | .evt => t.evt = s.evt
  | .ecc => t.ecc = s.ecc
  | .tally => t.tally = s.tally
  | .sched => t.sched = s.sched
  | .nv => t.nv = s.nv
  | .evr => t.evr = s.evr
  | .wdg => t.wdg = s.wdg
  | .flash => t.flash = s.flash
  | .psq => t.psq = s.psq
  | .chans => t.chans = s.chans
  | .med => t.med = s.med
  | .bench => t.bench = s.bench
  | .xlt => t.xlt = s.xlt
  | .twin => t.twin = s.twin
  | .cxl => t.cxl = s.cxl
  | .rdma => t.rdma = s.rdma
  | .sec => t.sec = s.sec
  | .fuse => (t.sec.groups, t.sec.arb) = (s.sec.groups, s.sec.arb)
  | .dram => t.dram = s.dram
  | .out => t.out = s.out
  | .fresh => t.fresh = s.fresh
  | .pending => t.pending = s.pending

/-- From `s` to `t` nothing changes but the parts in `w`. -/
def Keeps (w : List Part) (s t : State) : Prop := ∀ p, p ∉ w → p.same s t

end Sys2Proof.Machine
end

