-- ==== Sys2Proof/Safety.lean ====
section
/-! DEFINITION. The terms in which claims are stated: that a command answers with a next state of which something holds. -/

namespace Sys2Proof

open Machine

/-- Command `i` at state `s` answers a next state, and `P` holds of it. -/
def Answers (i : Instr) (s : State) (P : State → Prop) : Prop := ∃ t, exec i s = .next t ∧ P t

/-- The command of the one line that the next response to `c` is about (R74). -/
def Machine.QmiCmd.nextLine (c : QmiCmd) : QmiCmd := { c with line := c.line + c.got, count := 0, got := 0 }

namespace Machine.State

/-- What follows every response that was taken on quarry channel `n` (R88, R172): an offline channel's wait ends with the last of them, and
what waited goes on. -/
def answerEnd (s : State) (n : Nat) : State :=
  let q := s.qc n
  ((if q.offWait && q.sent.isEmpty then s.setQc n { q with offWait := false } else s).pump n).settleMed.replayKick.flushKick.drainLostDies

/-- A response to command `c` of quarry channel `n` that ends in the flit of SEQ `seq` has come (R70, R74). -/
def taken (s : State) (n : Nat) (c : QmiCmd) (seq : BitVec 8) : State :=
  (s.setQc n { s.qc n with sent := sentAfter (s.qc n) c }).received n seq

end Machine.State

/-! ### Azler packets -/

/-- A channel whose only news is a reply (R346, R347, R354, R355): the queues, the outstanding commands, what is remembered of replies and the
legacy registers may differ; who holds the channel, what it may do, its mode, its inbound side and its staging window may not. -/
def Machine.Chan.repliedFrom (h k : Chan) : Prop :=
  k = { h with last := k.last, ops := k.ops, done := k.done, outQ := k.outQ, waiting := k.waiting, ldata := k.ldata, lcmd := k.lcmd, lgo := k.lgo
               begun := k.begun }

namespace Machine.State

/-- Nothing that hangs on the channel or the device state keeps packet `r` of an opcode from being carried out at `s` (Table 14-5: checks 4 to 6,
9 and 10, and the reserved FLAGS); `w` is the state it is carried out at, with IDLE left (R437). -/
structure Takes (s w : State) (r : AzReq) (opcode : Nat) : Prop where
  state : w = s.wakeIdle
  life : s.life ≠ .ended
  can : s.canTake r.chan = true
  assigned : (s.chan r.chan).who ≠ .none
  secure : s.pageInsecure r = false
  session : r.via = .legacy ∨ r.session = s.sessionOf r.chan
  fresh : s.duplicateOf r = none
  served : s.stateForbids r opcode = false
  recovery : s.recoveryForbids r opcode = false
  keep : s.keepForbids opcode = false
  legacy : r.via = .legacy → r.params.length ≤ 14
  flags : r.flags = 0

/-- `t` is `u` with packet `r` answered by a status and result words (R352, R354): they are the reply remembered for the packet's transport, and
no channel has any other news. -/
def Answered (u t : State) (r : AzReq) (st : Status) (ws : List Word) : Prop :=
  Keeps [.chans, .cxl, .out] u t ∧ (∀ c, (u.chan c).repliedFrom (t.chan c)) ∧
    ((t.chan r.chan).last.find? fun l => l.via == r.via) =
      some { via := r.via, seq := r.seq, tag := r.tag, reply := replyWords st false r.tag r.seq ws }

/-- `t` is `u` with packet `r` answered PENDING (R355): the command is outstanding, with the results it is to end with. -/
def Pending (u t : State) (r : AzReq) (opcode : Nat) (keep : List Word) : Prop :=
  u.Answered t r .pending [] ∧ (t.chan r.chan).ops = (u.chan r.chan).ops ++ [{
    tag := r.tag, seq := r.seq, opcode := BitVec.ofNat 16 opcode, quiet := r.quiet, via := r.via, params := r.params, res := keep }]

/-! ### Tandem frames -/

/-- A frame that arrives on port `p` passes every check of R206 and R209, on a port that carries frames (R203). -/
structure Accepts (s : State) (p : Bool) (f : TFrame) : Prop where
  up : s.psq.mainUp = true
  link : s.bit Reg.TDM_CTRL 0 0 = true
  port : s.bit Reg.TDM_CTRL 0 (portEn p) = true
  carries : (s.tport p).st = .up
  pair : s.twin.pair = .paired ∨ s.twin.pair = .attesting
  shape : f.shapeOk = true
  session : f.session ≠ 0
  same : f.session = s.twin.session
  later : (s.tport p).fseqRx < f.fseq
  tag : f.tagOk = true
  key : f.phase = (s.tport p).phaseRx ∨ (s.tport p).oldKey = true

/-- An accepted frame has been counted at port `p` (R203, R206): its FSEQ is the last accepted, and every 32 flits are acknowledged. -/
def framed (s : State) (p : Bool) (f : TFrame) : State :=
  let v := s.tport p
  if 31 ≤ v.rxOwed then (s.setTport p { v with fseqRx := f.fseq, rxSeq := v.rxSeq + 1, rxOwed := 0, nak := false }).emit (.tandemAck p v.rxSeq)
  else s.setTport p { v with fseqRx := f.fseq, rxSeq := v.rxSeq + 1, rxOwed := v.rxOwed + 1, nak := false }

/-! ### RDMA packets -/

/-- A request packet of a QP passes every check that comes before its opcode's own (R295 to R297, R318), and no RNR NAK is out; `w` is the
state it is judged at, with IDLE left, the context on die (R307) and congestion noted (R316). -/
structure Judges (s w : State) (n : Nat) (ce : Bool) : Prop where
  state : w = ((s.wakeIdle).context n).congestion n ce
  open_ : s.ingressOpen = true
  on : s.bit Reg.RDM_CTRL 0 0 = true
  mac : s.macTakes (s.qp n).mac.val = true
  connected : (s.qp n).connected = true
  alive : (s.qp n).error = false
  ready : (s.qp n).rnr = none

/-! ### One-time-programmable bits -/

/-- From `s` to `t` no bit of an OTP group is cleared, the anti-rollback counter does not fall, and the code of the life-cycle state does not
fall: OTP bits are blown, never unblown, and transitions are one-way (R387 to R390, R425). -/
def FusesGrow (s t : State) : Prop :=
  s.sec.groups &&& t.sec.groups = s.sec.groups ∧ s.sec.arb ≤ t.sec.arb ∧ s.life.code ≤ t.life.code

end Machine.State

/-! ### Frames -/

/-- The parts of the state that a command may change by its effect and by what follows it in the same step (an event's interrupt, record and
completion, a slot that becomes due, work that can now go on). Every other part stays: no command touches the queue, and only a start, a transition
of the life cycle, a confirmation, and what carries an Azler packet out can blow an OTP bit. -/
def Instr.touches : Instr → List Part
  | .cxlMemrd .. | .cxlMemspecrd .. | .regionSetPolicy .. | .cqDestroy .. | .sqDoorbell .. | .releaseDc .. | .rdmaWrite ..
  | .rdmaWriteImm .. | .rdmaRead .. | .rdmaCmpswap .. | .rdmaFetchadd .. | .rdmaAtomicWrite .. | .rdmaFlush .. =>
    [.regs, .evt, .tally, .evr, .psq, .chans, .med, .bench, .xlt, .twin, .cxl, .rdma, .sec, .out, .fresh]
  | .cxlMemwr .. | .cxlMemwrptl .. =>
    [.regs, .evt, .tally, .evr, .psq, .chans, .med, .bench, .xlt, .twin, .cxl, .rdma, .sec, .dram, .out, .fresh]
  | .partialLineMerge .. | .scbIdleClose .. | .emergencyRemapStart .. | .moveCommit .. | .yarrowWorkDispatch | .youngSweep ..
  | .checkpointChunkWrite | .priorityLoadDone .. | .backgroundChunkLoad | .poolPromote | .poolDemote .. | .wakeDeadlineReached
  | .tslPassNow | .dcAdd .. | .cxlPortReset .. | .ldReset .. | .surpriseRemoval .. =>
    [.regs, .evt, .sched, .nv, .evr, .chans, .med, .bench, .xlt, .twin, .cxl, .rdma, .sec, .out, .fresh]
  | .cxlHoldTimeout .. | .tandemReadAssistRequest .. | .dcRelease .. | .gpfPhase2 .. | .rdmaPeerNak .. | .rdmaReadResponse ..
  | .requesterAckTimeout .. =>
    [.regs, .evt, .evr, .chans, .med, .bench, .xlt, .twin, .cxl, .rdma, .sec, .out, .fresh]
  | .forwardGatherExpiry =>
    [.bench, .twin, .out]
  | .programDone .. | .qmiFrameResponse .. | .qmiSoftResponse .. | .qmiInfoResponse .. | .qmiErrorResponse .. | .qmiSetRefDone ..
  | .qmiDieResetDone .. | .qmiNakReceived .. | .qmiCrcFailure .. | .qmiReplayTimeout .. | .fastRetrainDone .. | .fullRetrainDone ..
  | .qcFastRetrain .. | .qcFullRetrain .. | .qcOffline .. | .qcEn .. | .channelTrained .. | .drainReplay =>
    [.regs, .evt, .sched, .nv, .evr, .psq, .chans, .med, .bench, .xlt, .twin, .cxl, .rdma, .sec, .out, .fresh]
  | .wearScan .. =>
    [.flash, .med]
  | .spareRecompute | .capState .. =>
    [.regs, .evt, .evr, .chans, .med, .xlt, .twin, .cxl, .out]
  | .teaselBlanking .. | .sidebandTempPoll .. | .sidebandStuckTimeout .. | .qgAlert .. =>
    [.regs, .evt, .evr, .chans, .med, .cxl, .out]
  | .teaselPassComplete .. | .hintScan | .rawDiscard .. =>
    [.regs, .evt, .evr, .chans, .med, .xlt, .cxl, .out]
  | .keepBurstEnd | .pwrFailN | .vinSense | .drainComplete | .sramScrubVisit .. | .slotKeepEnter .. | .railQualified ..
  | .railRampTimeout .. | .railPgDrop .. | .railOff .. | .offDwellExpiry .. | .railFault .. | .pbShort | .pbForced | .mrN ..
  | .keepEntry | .keepLeaveComplete | .trip | .stage2 | .flashHoldOverrun | .flashOpDone .. | .controlCoreRestart ..
  | .dramUncorrectableError .. | .rankCopyDone .. | .powerRequestOff .. | .powerRequestOn .. | .powerRequestKeepEnter ..
  | .powerRequestKeepLeave .. | .drainAndHalt .. | .resetCmd .. | .channelOffline .. | .channelReturn .. =>
    [.regs, .csr, .evt, .ecc, .tally, .sched, .nv, .evr, .wdg, .flash, .psq, .chans, .med, .bench, .xlt, .twin, .cxl, .rdma, .sec, .dram, .out, .fresh]
  | .qmiAckReceived .. | .qmiCreditReceived .. | .qmiSleepReceived .. | .qmiAckTimer .. | .qmiLctlRefresh .. | .eybSweep =>
    [.med, .out]
  | .qcOfflineTimeout .. =>
    [.med]
  | .packageReady .. =>
    [.regs, .evt, .evr, .psq, .chans, .med, .bench, .xlt, .twin, .cxl, .rdma, .sec, .out, .fresh]
  | .eyebrightPowerupCompare .. | .epochBoundary =>
    [.regs, .evt, .tally, .sched, .nv, .evr, .chans, .med, .bench, .xlt, .twin, .cxl, .rdma, .sec, .out, .fresh]
  | .eyebrightCalibration .. =>
    [.regs, .evt, .evr, .flash, .chans, .med, .cxl, .out]
  | .fullSweepDone .. =>
    [.regs, .evt, .sched, .nv, .evr, .flash, .psq, .chans, .med, .bench, .xlt, .twin, .cxl, .rdma, .sec, .out, .fresh]
  | .tandemMirror .. | .tandemForward .. | .mirrorDone .. | .fwdDurable .. | .fwdRefused .. | .tandemReadAssistReply ..
  | .tandemHeartbeat .. | .tandemResync .. | .tandemPair .. | .draining .. | .detachFrame .. | .handover .. | .handoverAck ..
  | .regionAttr .. | .resyncPlan .. | .resyncDone .. | .leaving .. | .allocate .. | .linkLossTimeout | .fenceIntervalExpiry
  | .strictHoldExpiry | .leaveWaitExpiry | .backgroundOperationComplete .. =>
    [.regs, .evt, .nv, .evr, .chans, .med, .bench, .xlt, .twin, .cxl, .rdma, .sec, .out, .fresh]
  | .tandemSync .. =>
    [.regs, .evt, .tally, .sched, .nv, .evr, .chans, .med, .xlt, .twin, .cxl, .out]
  | .regionState .. =>
    [.regs, .evt, .evr, .chans, .xlt, .twin, .cxl, .out]
  | .rekey .. | .tandemRetrainDone .. =>
    [.regs, .evt, .evr, .chans, .twin, .cxl, .out]
  | .tandemFlitDiscard .. | .tandemHeartbeatTimer | .tandemSyncTimer | .tandemRekeyTimer .. | .tandemAckTimer .. =>
    [.twin, .out]
  | .tandemNakReceived .. =>
    [.regs, .twin, .out]
  | .tandemPortUp .. | .pairingRetryTimer =>
    [.regs, .evt, .nv, .evr, .chans, .twin, .cxl, .out]
  | .tandemOldKeyExpiry .. | .tandemFlitAck .. =>
    [.twin]
  | .orderlyFlushComplete =>
    [.regs, .evt, .tally, .nv, .evr, .chans, .med, .bench, .xlt, .twin, .cxl, .out]
  | .pbfHashKeyWrite .. =>
    [.regs, .csr, .evt, .evr, .chans, .bench, .cxl, .sec, .out]
  | .windowIdleClose .. =>
    [.xlt]
  | .benchViewRawWrite .. =>
    [.regs, .evt, .evr, .chans, .med, .xlt, .cxl, .dram, .out]
  | .evrTokenRefill .. =>
    [.evr]
  | .evrArchiveStart | .vaultPageProgramDone .. =>
    [.evr, .flash]
  | .vaultPadTimeout .. | .flashSuspend | .flashSuspendTimeout | .bootstrapWrite .. =>
    [.flash]
  | .csrWrite .. | .aonPostedWriteApply | .mingasoStart .. | .mbxDoorbell .. | .mbxOutPop .. | .lGo .. | .mctpMessage ..
  | .i3cPrivateWrite .. | .pendingCommandComplete .. | .azlerPacket .. | .rdmaSend .. | .rdmaPeerAck .. =>
    [.regs, .csr, .evt, .ecc, .tally, .sched, .nv, .evr, .wdg, .flash, .psq, .chans, .med, .bench, .xlt, .twin, .cxl, .rdma, .sec, .fuse, .dram, .out, .fresh]
  | .aliasWrite .. | .regWrite .. =>
    [.regs, .csr, .evt, .tally, .sched, .nv, .evr, .wdg, .psq, .chans, .med, .bench, .xlt, .twin, .cxl, .rdma, .sec, .dram, .out, .fresh]
  | .schedSlotWrite .. =>
    [.csr, .sched, .nv]
  | .ptpSync .. =>
    [.regs, .evt, .tally, .sched, .nv, .evr, .chans, .med, .xlt, .cxl, .rdma, .out]
  | .ptpAnnounceTimeout .. =>
    [.regs, .evt, .tally, .evr, .chans, .cxl, .rdma, .out]
  | .ptpDelayReqTimer .. | .mgmtRnrRetry .. | .pfcBufferLevel .. =>
    [.rdma, .out]
  | .ptpDelayResp .. | .ptpAnnounce .. | .ccRateIncreaseTimer .. | .pfcFrame .. =>
    [.rdma]
  | .twinSyncTimeout | .signedTimeExpiry | .ppsInEdge .. | .ppsLoss | .belowFloorHoldoffExpiry .. | .wakeHandshakeStart =>
    [.regs, .evt, .tally, .evr, .chans, .cxl, .out]
  | .catchupEnd =>
    [.tally]
  | .noSource =>
    [.regs, .evt, .tally, .nv, .evr, .chans, .med, .xlt, .cxl, .out]
  | .wakeGrant | .wakeForceAtDeadline | .powerUp | .keepLeave =>
    [.regs, .evt, .tally, .evr, .wdg, .flash, .psq, .chans, .med, .bench, .cxl, .dram, .out]
  | .teaselPass .. =>
    [.regs, .evt, .tally, .sched, .nv, .evr, .wdg, .flash, .psq, .chans, .med, .bench, .xlt, .twin, .cxl, .sec, .out, .fresh]
  | .eyebrightCal .. | .sentinelRewrite .. =>
    [.regs, .evt, .tally, .sched, .nv, .evr, .wdg, .flash, .psq, .chans, .med, .xlt, .cxl, .out]
  | .nvFloorWrite .. | .wakeReq .. | .raiseEvent .. | .timeSigned .. =>
    [.regs, .evt, .tally, .sched, .nv, .evr, .psq, .chans, .med, .xlt, .cxl, .out]
  | .slotKeepLeave .. =>
    [.regs, .evt, .tally, .sched, .nv, .evr, .wdg, .flash, .psq, .chans, .med, .bench, .xlt, .cxl, .dram, .out]
  | .dramScrub .. =>
    [.regs, .evt, .tally, .sched, .nv, .evr, .psq, .chans, .med, .xlt, .cxl, .dram, .out]
  | .vaonPowerUp =>
    [.regs, .csr, .evt, .tally, .sched, .nv, .evr, .wdg, .flash, .psq, .chans, .med, .bench, .cxl, .dram, .out]
  | .vaonLoss =>
    [.regs, .csr, .evt, .ecc, .tally, .evr, .wdg, .flash, .psq, .chans, .med, .bench, .xlt, .twin, .cxl, .rdma, .sec, .dram, .out]
  | .inputGood =>
    [.regs, .evt, .tally, .evr, .wdg, .flash, .psq, .chans, .med, .bench, .xlt, .twin, .cxl, .dram, .out]
  | .railStart .. | .seqRetryBackoffExpiry | .railRetryWindowExpiry .. =>
    [.psq]
  | .railGlitch .. | .throttle | .throttleEnd =>
    [.regs, .evt, .evr, .psq, .chans, .cxl, .out]
  | .tOffMinExpiry | .idleEntry | .idleExit | .tripHoldExpiry | .identify .. | .deviceStatus .. | .cmdStatus .. | .routeGet ..
  | .stageWrite .. | .stageRead .. | .regionInfo .. | .regionGrant .. | .dcMap .. | .objectList .. | .pairStatus .. | .certGet ..
  | .lcStatus .. | .fwInfo .. | .evrRead .. | .evrStatus .. | .tallyStatus .. | .lockoutClear .. | .powerStatus .. | .qpInfo ..
  | .orphanSweep .. | .eyebrightSweep .. | .mediumStatus .. | .getEventRecords .. | .clearEventRecords .. | .getEventInterruptPolicy ..
  | .setEventInterruptPolicy .. | .getFwInfo .. | .getTimestamp .. | .setTimestamp .. | .getSupportedLogs .. | .getLog ..
  | .identifyMemoryDevice .. | .getHealthInfo .. | .getDcConfiguration .. | .getDcExtentList .. | .addDcResponse .. =>
    [.regs, .evt, .tally, .evr, .psq, .chans, .med, .cxl, .out]
  | .keepEntryComplete =>
    [.regs, .evt, .tally, .nv, .evr, .wdg, .flash, .psq, .chans, .med, .bench, .cxl, .dram, .out]
  | .psqSeqCommit =>
    [.regs, .csr, .evt, .nv, .evr, .psq, .chans, .cxl, .out]
  | .psqMgmapCommit =>
    [.regs, .csr, .evt, .nv, .evr, .chans, .cxl, .out]
  | .wdgKick .. =>
    [.wdg]
  | .stage1 =>
    [.regs, .evt, .evr, .wdg, .chans, .cxl, .out]
  | .warmReset =>
    [.regs, .csr, .evt, .ecc, .tally, .nv, .evr, .wdg, .flash, .psq, .chans, .med, .bench, .xlt, .twin, .cxl, .rdma, .sec, .dram, .out, .fresh]
  | .vddIoBandChange .. =>
    [.regs, .evt, .evr, .flash, .chans, .cxl, .out]
  | .keeperWordCheck .. =>
    [.regs, .evt, .nv, .evr, .chans, .cxl, .out]
  | .wstampHiAdvance =>
    [.nv]
  | .trialConfirm .. =>
    [.regs, .evt, .nv, .evr, .flash, .chans, .cxl, .sec, .fuse, .out]
  | .bootstrapEnd .. =>
    [.regs, .evt, .evr, .wdg, .flash, .chans, .cxl, .out]
  | .dramReadCe .. | .ddrAlertN .. | .freqSwitchDone .. =>
    [.regs, .evt, .sched, .nv, .evr, .chans, .med, .bench, .xlt, .twin, .cxl, .rdma, .sec, .dram, .out, .fresh]
  | .ceCacheRewrite .. | .dramScrubBurstEnd =>
    [.dram, .out]
  | .dramScrubPass | .sreqDone .. | .dimmThermalPoll .. =>
    [.regs, .evt, .evr, .chans, .cxl, .dram, .out]
  | .drmSreqGo | .ceWindowExpiry .. =>
    [.dram]
  | .drmMapCommit =>
    [.regs, .evt, .sched, .nv, .evr, .psq, .chans, .med, .bench, .xlt, .twin, .cxl, .rdma, .sec, .dram, .out, .fresh]
  | .drmFreqSwitch =>
    [.regs, .dram]
  | .dramInjectWrite .. =>
    [.regs, .dram, .out]
  | .mbxIn .. | .mbxInReset .. | .legacyRegisterCollide .. =>
    [.chans]
  | .channelAssign .. =>
    [.regs, .evt, .tally, .sched, .nv, .evr, .psq, .chans, .med, .xlt, .cxl, .rdma, .out, .fresh]
  | .channelMode .. | .routeSet .. | .evrRateSet .. | .wakeMarginSet .. =>
    [.regs, .evt, .tally, .nv, .evr, .psq, .chans, .med, .cxl, .out]
  | .regionCreate .. | .regionDelete .. | .regionResize .. | .regionSetMode .. | .regionZero .. | .regionUnlock .. | .regionLock ..
  | .cryptoErase .. | .dieMarkFailed .. | .teaselPassNow .. =>
    [.regs, .evt, .tally, .sched, .nv, .evr, .psq, .chans, .med, .bench, .xlt, .twin, .cxl, .rdma, .sec, .out, .fresh]
  | .regionBind .. | .regionUnbind .. =>
    [.regs, .evt, .tally, .nv, .evr, .psq, .chans, .med, .xlt, .twin, .cxl, .out]
  | .objectCreate .. | .objectDelete .. | .hintSet .. | .hintExtend .. | .benchViewOpen .. | .benchViewClose .. =>
    [.regs, .evt, .tally, .evr, .psq, .chans, .med, .xlt, .cxl, .out]
  | .pairBind .. | .rejoin .. =>
    [.regs, .evt, .tally, .nv, .evr, .psq, .chans, .med, .twin, .cxl, .out]
  | .solo .. | .takeover .. | .fence .. | .moveHome .. | .detach .. =>
    [.regs, .evt, .tally, .nv, .evr, .psq, .chans, .med, .bench, .xlt, .twin, .cxl, .rdma, .sec, .out, .fresh]
  | .timeKeySet .. =>
    [.regs, .evt, .tally, .nv, .evr, .psq, .chans, .med, .cxl, .sec, .out]
  | .macsecCakSet .. =>
    [.regs, .evt, .tally, .nv, .evr, .psq, .chans, .med, .cxl, .rdma, .sec, .out]
  | .lcAdvance .. =>
    [.regs, .evt, .tally, .nv, .evr, .psq, .chans, .med, .cxl, .sec, .fuse, .out]
  | .debugUnlockChallenge .. | .debugUnlockResponse .. =>
    [.regs, .evt, .tally, .evr, .psq, .chans, .med, .cxl, .sec, .out, .fresh]
  | .debugChallengeExpiry | .drbgReseed =>
    [.sec]
  | .ropRaise =>
    [.nv, .sec]
  | .debugClose | .trngFail | .trngOk =>
    [.regs, .evt, .evr, .chans, .cxl, .sec, .out]
  | .fwChunk .. | .evrClear .. | .transferFw .. =>
    [.regs, .evt, .tally, .nv, .evr, .flash, .psq, .chans, .med, .cxl, .out]
  | .fwCommit .. | .fwActivate .. | .vaultRead .. | .activateFw .. =>
    [.regs, .evt, .tally, .evr, .flash, .psq, .chans, .med, .cxl, .out]
  | .schedAdd .. | .schedRemove .. =>
    [.regs, .evt, .tally, .sched, .nv, .evr, .psq, .chans, .med, .cxl, .out]
  | .dramScrubRange .. =>
    [.regs, .evt, .tally, .evr, .psq, .chans, .med, .cxl, .dram, .out]
  | .regRead .. =>
    [.regs, .csr, .evt, .tally, .evr, .psq, .chans, .med, .cxl, .out]
  | .gidSet .. | .pdDestroy .. | .windowDestroy .. | .cqCreate .. | .sqAttach .. =>
    [.regs, .evt, .tally, .evr, .psq, .chans, .med, .cxl, .rdma, .out]
  | .pdCreate .. | .pdToken .. | .windowCreate .. | .cmReq .. | .mkaFrame .. | .arpRequest .. | .neighborDiscovery .. | .icmpEcho .. =>
    [.regs, .evt, .tally, .evr, .psq, .chans, .med, .cxl, .rdma, .out, .fresh]
  | .hdmDecoderCommit .. =>
    [.cxl]
  | .sanitize .. =>
    [.regs, .evt, .tally, .nv, .evr, .psq, .chans, .med, .xlt, .twin, .cxl, .sec, .out]
  | .doeDiscovery .. | .cdatRead .. =>
    [.out]
  | .spdmMessage .. =>
    [.regs, .evt, .tally, .sched, .nv, .evr, .psq, .chans, .med, .xlt, .cxl, .rdma, .sec, .out, .fresh]
  | .ideKm .. =>
    [.cxl, .out]
  | .ideFail .. | .cxlPortTrain .. | .sprayHoleTimeout .. | .pfcStorm .. | .icvFail .. =>
    [.regs, .evt, .evr, .chans, .cxl, .out]
  | .rdmaUnsupportedPacket .. =>
    [.regs, .out]
  | .cnpReceived .. =>
    [.regs, .rdma]
  | .macLinkChange .. =>
    [.regs, .evt, .evr, .chans, .cxl, .rdma, .out]
  | .tdmLanemapCommit =>
    [.regs, .twin]

end Sys2Proof
end

