-- ==== Sys2Proof/WellFormed.lean ====
section
/-! DEFINITION. Which commands the outside can send: operands that fit the fields and the frames that carry them. A command's meaning
is defined on all operands; these are the ones a link, a packet or a channel can spell. -/

namespace Sys2Proof

open Machine

/-- A CXL.mem tag has 16 bits (PRESUMED: CXL 3.1). -/
def tagWf (tag : Nat) : Bool := decide (tag < 65536)

/-- A CXL.mem request names a 64 B chunk: an address below 2⁵² (PRESUMED: CXL 3.1), or an offset within the Bench view. -/
def targetWf : CxlTarget → Bool
  | .hpa a => decide (a % 64 = 0) && decide (a < 2 ^ 52)
  | .benchView off => decide (off % 64 = 0)

/-- A bus access is 1, 2, 4 or 8 bytes within the 4 MiB space; the sizes R25 turns away among them. -/
def accessWf (off size : Nat) : Bool := (size == 1 || size == 2 || size == 4 || size == 8) && decide (off + size ≤ 4194304)

/-- LEN of a packet is at most 60 words (R350). -/
def reqWf (r : AzReq) : Bool := decide (r.params.length ≤ 60)

/-- A packet has its 4 header words and at most 60 parameters (R350). -/
def wordsWf (ws : List Word) : Bool := decide (ws.length ≤ 64)

/-- The frame's KIND is the command's, and RESP that of a READ_ASSIST; a reserved KIND is only discarded (R206). -/
def frameWf (f : TFrame) (kind : Nat) (resp : Bool) : Bool := !f.known || (f.kind.toNat == kind && (kind != 4 || f.resp == resp))

/-- The times of a SYNC are 64-bit counts of ns. -/
def timesWf (x : SyncTimes) : Bool := decide (x.t1 < 2 ^ 64 ∧ x.t2 < 2 ^ 64 ∧ x.t3 < 2 ^ 64 ∧ x.t4 < 2 ^ 64)

/-- A region line is a 31-bit logical sett and an 8-bit line (R206). -/
def lineWf (line : Nat) : Bool := decide (line < 2 ^ 39)

/-- A frame carries at most 15 entries (R205), each of a region of R241. -/
def entriesWf (es : List WEntry) : Bool := decide (es.length ≤ 15) && es.all fun e => lineWf e.line && decide (e.region < 4096)

/-- DIRTY has 17 bits (R206). -/
def dirtyWf (n : Nat) : Bool := decide (n < 2 ^ 17)

/-- An extent lies in a DC region's 64-bit space. -/
def extentWf (e : DcExtent) : Bool := decide (e.off + e.len ≤ 2 ^ 64)

/-- A packet carries at most 4,096 B, a message at most 2³¹ B at a 64-bit address (Table 12-3). -/
def packetWf (k : WritePkt) : Bool := decide (k.data.length ≤ 4096) && decide (k.va < 2 ^ 64) && decide (k.len ≤ 2 ^ 31)

/-- A READ or FLUSH names a 32-bit length at a 64-bit address. -/
def reachWf (va len : Nat) : Bool := decide (va < 2 ^ 64) && decide (len < 2 ^ 32)

/-- LOOPS and MARGIN fit their fields (Table 4-7). -/
def doneWf (i : DoneInfo) : Bool := decide (i.loops < 256) && decide (i.margin < 16) && decide (i.suspends ≤ 4)

/-- The entries of a completion log are DONE contents. -/
def infoWf : InfoData → Bool
  | .log es => es.all fun e => doneWf e.done
  | _ => true

/-- A logical sett has 31 bits (R206). -/
def settWf (n : Nat) : Bool := decide (n < 2 ^ 31)

/-- Measured levels name boundaries of a mode, in level codes (R108, R109). -/
def samplesWf (ss : List Sample) : Bool := ss.all fun x => decide (x.k < 15) && decide (0 ≤ x.level) && decide (x.level < 65536)

/-- A DRAM-bench address lies within the largest bench. -/
def dramWf (addr : Nat) : Bool := decide (addr < 2 ^ 42)

/-- The commands that can be sent. -/
def Instr.wellFormed (i : Instr) : Bool :=
  match i with
  | .cxlMemrd _ _ tag t => tagWf tag && targetWf t
  | .cxlMemspecrd _ _ t => targetWf t
  | .cxlMemwr _ _ tag t _ _ => tagWf tag && targetWf t
  | .cxlMemwrptl _ _ tag t _ _ _ => tagWf tag && targetWf t
  | .partialLineMerge _ => true
  | .scbIdleClose _ => true
  | .cxlHoldTimeout _ => true
  | .forwardGatherExpiry => true
  | .programDone _ _ _ info => doneWf info
  | .emergencyRemapStart n => settWf n
  | .moveCommit n => settWf n
  | .yarrowWorkDispatch => true
  | .wearScan _ => true
  | .spareRecompute => true
  | .youngSweep n => settWf n
  | .teaselBlanking _ => true
  | .teaselPassComplete _ => true
  | .keepBurstEnd => true
  | .qmiFrameResponse _ _ _ _ => true
  | .qmiSoftResponse _ _ _ _ _ _ => true
  | .qmiInfoResponse _ _ _ info => infoWf info
  | .qmiErrorResponse _ _ _ _ => true
  | .qmiSetRefDone _ _ _ _ => true
  | .qmiDieResetDone _ _ _ => true
  | .qmiAckReceived _ _ => true
  | .qmiNakReceived _ _ => true
  | .qmiCreditReceived _ _ _ => true
  | .qmiSleepReceived _ => true
  | .qmiCrcFailure _ _ _ => true
  | .qmiAckTimer _ => true
  | .qmiLctlRefresh _ => true
  | .qmiReplayTimeout _ => true
  | .fastRetrainDone _ _ => true
  | .fullRetrainDone _ _ => true
  | .qcFastRetrain _ => true
  | .qcFullRetrain _ => true
  | .qcOffline _ => true
  | .qcOfflineTimeout _ => true
  | .qcEn _ => true
  | .packageReady _ _ _ d => decide (d.length = 256)
  | .channelTrained _ _ => true
  | .sidebandTempPoll _ temps => decide (temps.length = 32)
  | .sidebandStuckTimeout _ => true
  | .qgAlert _ _ _ _ => true
  | .eyebrightPowerupCompare _ levels => levels.all fun p => decide (p.1 < 2304) && samplesWf p.2
  | .eyebrightCalibration _ levels => samplesWf levels
  | .eybSweep => true
  | .fullSweepDone _ levels => samplesWf levels
  | .tandemMirror _ f es => frameWf f 1 false && entriesWf es
  | .tandemForward _ f es => frameWf f 2 false && entriesWf es
  | .mirrorDone _ f dirty _ _ _ => frameWf f 3 false && dirtyWf dirty
  | .fwdDurable _ f dirty _ _ _ => frameWf f 3 false && dirtyWf dirty
  | .fwdRefused _ f dirty _ _ _ => frameWf f 3 false && dirtyWf dirty
  | .tandemReadAssistRequest _ f _ _ line count => frameWf f 4 false && lineWf line && decide (1 ≤ count) && decide (count ≤ 256)
  | .tandemReadAssistReply _ f _ line _ _ => frameWf f 4 true && lineWf line
  | .tandemSync _ f x _ _ => frameWf f 5 false && timesWf x
  | .tandemHeartbeat _ f _ _ dirty _ => frameWf f 6 false && dirtyWf dirty
  | .tandemResync _ f es => frameWf f 7 false && entriesWf es
  | .tandemPair _ f _ => frameWf f 9 false
  | .capState _ f _ => frameWf f 8 false
  | .draining _ f _ => frameWf f 8 false
  | .detachFrame _ f => frameWf f 8 false
  | .handover _ f _ _ _ => frameWf f 8 false
  | .handoverAck _ f _ _ => frameWf f 8 false
  | .regionAttr _ f _ _ _ _ => frameWf f 8 false
  | .regionState _ f _ _ => frameWf f 8 false
  | .resyncPlan _ f _ _ _ => frameWf f 8 false
  | .resyncDone _ f _ => frameWf f 8 false
  | .rekey _ f _ _ => frameWf f 8 false
  | .leaving _ f _ => frameWf f 8 false
  | .allocate _ f _ => frameWf f 8 false
  | .tandemFlitDiscard _ _ => true
  | .tandemNakReceived _ _ => true
  | .tandemRetrainDone _ _ => true
  | .tandemPortUp _ => true
  | .tandemHeartbeatTimer => true
  | .tandemSyncTimer => true
  | .tandemRekeyTimer _ => true
  | .tandemOldKeyExpiry _ => true
  | .linkLossTimeout => true
  | .fenceIntervalExpiry => true
  | .strictHoldExpiry => true
  | .pairingRetryTimer => true
  | .leaveWaitExpiry => true
  | .pwrFailN => true
  | .vinSense => true
  | .drainComplete => true
  | .orderlyFlushComplete => true
  | .drainReplay => true
  | .pbfHashKeyWrite _ _ => true
  | .checkpointChunkWrite => true
  | .priorityLoadDone _ => true
  | .backgroundChunkLoad => true
  | .hintScan => true
  | .poolPromote => true
  | .poolDemote n => settWf n
  | .windowIdleClose _ _ => true
  | .benchViewRawWrite _ _ => true
  | .rawDiscard _ => true
  | .sramScrubVisit _ _ _ _ _ _ => true
  | .evrTokenRefill _ => true
  | .evrArchiveStart => true
  | .vaultPageProgramDone page _ => decide (page < 65536)
  | .vaultPadTimeout _ => true
  | .csrWrite _ _ off size _ _ => accessWf off.val size
  | .aliasWrite _ _ off size _ _ => accessWf off.val size
  | .aonPostedWriteApply => true
  | .schedSlotWrite _ _ _ _ => true
  | .ptpSync _ _ _ => true
  | .ptpAnnounceTimeout _ => true
  | .ptpDelayReqTimer _ => true
  | .ptpDelayResp _ delay => decide (delay < 2 ^ 64)
  | .ptpAnnounce _ _ => true
  | .twinSyncTimeout => true
  | .signedTimeExpiry => true
  | .ppsInEdge _ => true
  | .ppsLoss => true
  | .catchupEnd => true
  | .epochBoundary => true
  | .belowFloorHoldoffExpiry _ => true
  | .noSource => true
  | .wakeDeadlineReached => true
  | .wakeHandshakeStart => true
  | .wakeGrant => true
  | .wakeForceAtDeadline => true
  | .teaselPass _ => true
  | .eyebrightCal _ => true
  | .nvFloorWrite _ => true
  | .wakeReq _ => true
  | .slotKeepEnter _ => true
  | .slotKeepLeave _ => true
  | .dramScrub _ => true
  | .raiseEvent _ => true
  | .sentinelRewrite _ => true
  | .vaonPowerUp => true
  | .vaonLoss => true
  | .inputGood => true
  | .railQualified _ => true
  | .railStart _ => true
  | .railRampTimeout _ => true
  | .railPgDrop _ => true
  | .seqRetryBackoffExpiry => true
  | .railOff _ => true
  | .offDwellExpiry _ => true
  | .railFault _ => true
  | .railGlitch _ => true
  | .railRetryWindowExpiry _ => true
  | .tOffMinExpiry => true
  | .pbShort => true
  | .pbForced => true
  | .mrN _ => true
  | .powerUp => true
  | .idleEntry => true
  | .idleExit => true
  | .keepEntry => true
  | .keepEntryComplete => true
  | .keepLeave => true
  | .keepLeaveComplete => true
  | .throttle => true
  | .throttleEnd => true
  | .trip => true
  | .tripHoldExpiry => true
  | .psqSeqCommit => true
  | .psqMgmapCommit => true
  | .wdgKick _ => true
  | .stage1 => true
  | .stage2 => true
  | .warmReset => true
  | .flashHoldOverrun => true
  | .flashOpDone _ => true
  | .flashSuspend => true
  | .flashSuspendTimeout => true
  | .vddIoBandChange _ => true
  | .keeperWordCheck _ _ _ => true
  | .wstampHiAdvance => true
  | .controlCoreRestart _ => true
  | .mingasoStart _ _ _ => true
  | .trialConfirm _ => true
  | .bootstrapWrite _ bytes => decide (bytes.length ≤ 256)
  | .bootstrapEnd _ _ => true
  | .dramReadCe addr _ => dramWf addr
  | .ceCacheRewrite addr => dramWf addr
  | .dramUncorrectableError addr _ _ => dramWf addr
  | .dramScrubPass => true
  | .drmSreqGo => true
  | .sreqDone _ _ _ => true
  | .ceWindowExpiry _ _ => true
  | .rankCopyDone _ _ _ => true
  | .ddrAlertN _ _ _ _ => true
  | .dimmThermalPoll _ _ => true
  | .drmMapCommit => true
  | .drmFreqSwitch => true
  | .freqSwitchDone _ => true
  | .dramInjectWrite addr => dramWf addr
  | .mbxIn _ _ => true
  | .mbxDoorbell _ _ => true
  | .mbxOutPop _ _ => true
  | .mbxInReset _ => true
  | .lGo _ _ => true
  | .legacyRegisterCollide _ _ _ => true
  | .mctpMessage _ ws _ => wordsWf ws
  | .i3cPrivateWrite _ ws _ rd => wordsWf ws && decide (rd ≤ 1024)
  | .pendingCommandComplete _ _ _ => true
  | .identify r => reqWf r
  | .deviceStatus r => reqWf r
  | .channelAssign r => reqWf r
  | .channelMode r => reqWf r
  | .cmdStatus r => reqWf r
  | .routeSet r => reqWf r
  | .routeGet r => reqWf r
  | .stageWrite r => reqWf r
  | .stageRead r => reqWf r
  | .regionCreate r => reqWf r
  | .regionDelete r => reqWf r
  | .regionResize r => reqWf r
  | .regionSetMode r => reqWf r
  | .regionSetPolicy r => reqWf r
  | .regionInfo r => reqWf r
  | .regionGrant r => reqWf r
  | .regionBind r => reqWf r
  | .regionUnbind r => reqWf r
  | .regionZero r => reqWf r
  | .dcMap r => reqWf r
  | .objectCreate r => reqWf r
  | .objectDelete r => reqWf r
  | .hintSet r => reqWf r
  | .hintExtend r => reqWf r
  | .objectList r => reqWf r
  | .pairBind r => reqWf r
  | .pairStatus r => reqWf r
  | .solo r => reqWf r
  | .takeover r => reqWf r
  | .fence r => reqWf r
  | .moveHome r => reqWf r
  | .detach r => reqWf r
  | .rejoin r => reqWf r
  | .regionUnlock r => reqWf r
  | .regionLock r => reqWf r
  | .cryptoErase r => reqWf r
  | .timeKeySet r => reqWf r
  | .macsecCakSet r => reqWf r
  | .certGet r => reqWf r
  | .lcStatus r => reqWf r
  | .lcAdvance r => reqWf r
  | .debugUnlockChallenge r => reqWf r
  | .debugUnlockResponse r => reqWf r
  | .debugChallengeExpiry => true
  | .ropRaise => true
  | .debugClose => true
  | .fwChunk r => reqWf r
  | .fwCommit r => reqWf r
  | .fwActivate r => reqWf r
  | .fwInfo r => reqWf r
  | .vaultRead r _ => reqWf r
  | .evrRead r => reqWf r
  | .evrClear r => reqWf r
  | .evrRateSet r => reqWf r
  | .evrStatus r => reqWf r
  | .tallyStatus r => reqWf r
  | .timeSigned r => reqWf r
  | .schedAdd r => reqWf r
  | .schedRemove r => reqWf r
  | .powerRequestOff r => reqWf r
  | .powerRequestOn r => reqWf r
  | .powerRequestKeepEnter r => reqWf r
  | .powerRequestKeepLeave r => reqWf r
  | .drainAndHalt r => reqWf r
  | .resetCmd r => reqWf r
  | .wakeMarginSet r => reqWf r
  | .lockoutClear r => reqWf r
  | .powerStatus r => reqWf r
  | .benchViewOpen r => reqWf r
  | .benchViewClose r => reqWf r
  | .dramScrubRange r => reqWf r
  | .regRead r => reqWf r
  | .regWrite r => reqWf r
  | .gidSet r => reqWf r
  | .pdCreate r => reqWf r
  | .pdDestroy r => reqWf r
  | .pdToken r => reqWf r
  | .windowCreate r => reqWf r
  | .windowDestroy r => reqWf r
  | .cqCreate r => reqWf r
  | .cqDestroy r => reqWf r
  | .sqAttach r => reqWf r
  | .sqDoorbell r => reqWf r
  | .qpInfo r => reqWf r
  | .dieMarkFailed r => reqWf r
  | .orphanSweep r => reqWf r
  | .teaselPassNow r => reqWf r
  | .tslPassNow => true
  | .eyebrightSweep r => reqWf r
  | .mediumStatus r => reqWf r
  | .channelOffline r => reqWf r
  | .channelReturn r => reqWf r
  | .trngFail => true
  | .drbgReseed => true
  | .hdmDecoderCommit _ _ _ d => decide (d.base < 2 ^ 64) && decide (d.size < 2 ^ 64) && !d.notCommitted
  | .dcAdd _ _ e => extentWf e
  | .dcRelease _ _ e => extentWf e
  | .getEventRecords _ _ _ => true
  | .clearEventRecords _ _ _ _ => true
  | .getEventInterruptPolicy _ _ => true
  | .setEventInterruptPolicy _ _ _ _ => true
  | .getFwInfo _ _ => true
  | .transferFw _ _ _ _ data _ => decide (data.length ≤ 4096)
  | .activateFw _ _ _ _ => true
  | .getTimestamp _ _ => true
  | .setTimestamp _ _ ns => decide (ns < 2 ^ 64)
  | .getSupportedLogs _ _ => true
  | .getLog _ _ => true
  | .identifyMemoryDevice _ _ => true
  | .getHealthInfo _ _ => true
  | .sanitize _ _ => true
  | .getDcConfiguration _ _ => true
  | .getDcExtentList _ _ => true
  | .addDcResponse _ _ es => es.all extentWf
  | .releaseDc _ _ es => es.all extentWf
  | .azlerPacket _ _ ws _ => wordsWf ws
  | .doeDiscovery _ _ => true
  | .spdmMessage _ _ => true
  | .ideKm _ _ _ _ _ => true
  | .cdatRead _ _ => true
  | .ideFail _ _ => true
  | .gpfPhase2 _ _ => true
  | .cxlPortReset _ => true
  | .ldReset _ _ => true
  | .surpriseRemoval _ => true
  | .cxlPortTrain _ _ _ _ _ _ _ => true
  | .rdmaWrite _ k => packetWf k
  | .rdmaWriteImm _ k _ => packetWf k
  | .rdmaRead _ _ _ va len _ _ => reachWf va len
  | .rdmaCmpswap _ _ _ va _ _ _ _ => decide (va < 2 ^ 64)
  | .rdmaFetchadd _ _ _ va _ _ _ => decide (va < 2 ^ 64)
  | .rdmaAtomicWrite _ _ _ va _ _ _ => decide (va < 2 ^ 64)
  | .rdmaFlush _ _ _ va len _ _ => reachWf va len
  | .rdmaSend _ _ ws _ _ _ => wordsWf ws
  | .rdmaUnsupportedPacket _ _ _ => true
  | .rdmaPeerAck _ _ => true
  | .rdmaPeerNak _ _ _ => true
  | .rdmaReadResponse _ _ _ data _ => decide (data.length ≤ 4096)
  | .requesterAckTimeout _ => true
  | .mgmtRnrRetry _ => true
  | .sprayHoleTimeout _ => true
  | .cnpReceived _ => true
  | .ccRateIncreaseTimer _ => true
  | .cmReq _ => true
  | .pfcFrame _ _ _ => true
  | .pfcBufferLevel _ _ => true
  | .pfcStorm _ => true
  | .mkaFrame _ _ _ _ => true
  | .icvFail _ => true
  | .arpRequest _ _ => true
  | .neighborDiscovery _ _ => true
  | .icmpEcho _ _ => true
  | .macLinkChange _ _ => true
  | .dramScrubBurstEnd => true
  | .tdmLanemapCommit => true
  | .tandemAckTimer _ => true
  | .tandemFlitAck _ _ => true
  | .trngOk => true
  | .backgroundOperationComplete _ _ => true

end Sys2Proof
end

