-- ==== Sys2Proof/Certificates/Slice0/Obligations.lean ====
section
/-! DEFINITION. The statements for the provers. -/

open Sys2Proof Sys2Proof.Machine

/-- A step carries out the command at the front of the queue with the queue's rest in place. -/
def Obligations.StepRunsFront : Prop :=
  (∀ (c : Instr) (rest : List Instr) (s : State), s.pending = c :: rest → step s = exec c { s with pending := rest }) ∧
  ∀ (c : Instr) (s : State), step { s with pending := c :: s.pending } = exec c s

/-- The state after reset: what the register tables give. -/
def Obligations.ResetRegisters : Prop :=
  (∀ (r : Reg) (k : Nat), State.reset.reg r k = r.resetWord) ∧
  State.reset.fld Reg.WDG_STAGE1 0 15 0 = 2000 ∧ State.reset.fld Reg.WDG_STAGE2 0 15 0 = 1000 ∧
  State.reset.fld Reg.CXL_HOLD 0 15 0 = 1500 ∧ State.reset.fld Reg.DRM_SCRUB 0 7 0 = 24 ∧ State.reset.fld Reg.SEC_CTRL 0 3 0 = 8 ∧
  (∀ g : Fin 9, State.reset.fld Reg.QG_CTRL g 15 8 = 10) ∧
  State.reset.evt.raw = 0 ∧ State.reset.evt.pend = 0 ∧ State.reset.csr.posted = [] ∧ State.reset.pending = [] ∧ State.reset.out = [] ∧
  (State.reset.chan 0).who = .shelf ∧ (∀ c : Nat, c ≠ 0 → (State.reset.chan c).who = .none) ∧ State.reset.psq.vaon = false

/-- The idle step (log entry 4) at the rates of R47 and R51. It changes the Tally alone where no CRC_STORM stands and no slot of ACTION 0 is armed. -/
def Obligations.IdleStep : Prop :=
  ∀ s : State, s.pending = [] → (∀ c : Fin 64, (s.chan c).held = []) → ∃ t, step s = .next t ∧
    ((∀ p ∈ s.med.chans, p.2.stormBit = false) → (∀ p ∈ s.sched.slots, p.2.action = 0 → p.2.arm = false) → Keeps [.tally] s t) ∧
    (s.psq.vaon = false → (∀ p ∈ s.med.chans, p.2.stormBit = false) → t = s) ∧
    (s.psq.vaon = true → s.tally.catchup = false → s.tally.slew = 0 → t.tally.now = s.tally.now + 1 ∧ t.tally.slew = 0) ∧
    (s.psq.vaon = true → s.tally.catchup = false → s.tally.slew ≠ 0 → s.tally.phase % 1000 ≠ 999 →
      t.tally.now = s.tally.now + 1 ∧ t.tally.slew = s.tally.slew) ∧
    (s.psq.vaon = true → s.tally.catchup = false → s.tally.slew ≠ 0 → s.tally.phase % 1000 = 999 →
      t.tally.now = s.tally.now + 2 ∧ t.tally.slew = s.tally.slew - 1) ∧
    (s.psq.vaon = true → s.tally.catchup = true → t.tally.now = s.tally.now + BitVec.ofNat 64 (s.tally.phase % 2)) ∧
    (s.psq.vaon = true → t.tally.phase = (s.tally.phase + 1) % 2000) ∧
    (s.psq.vaon = true → s.tally.jumpPending = true → t.tally.pend = s.tally.pend + 1)

/-- The flash controller, the loader and the watchdog (R398, R399, R417, R421). -/
def Obligations.FlashEvents : Prop :=
  (∀ s : State, s.flash.state = .program ∨ s.flash.state = .erase → s.bit Reg.FLS_CTRL 0 0 = true → s.wdg.hold = false →
    Answers .flashSuspend s fun t => t.flash = { s.flash with state := .suspended }) ∧
  (∀ (s : State) (p : FlashPart) (n : Nat) (u : Bool) (ops : List FlashOp), s.flash.state = .suspended → s.flash.ops = .program p n u :: ops →
    Answers .flashSuspendTimeout s fun t => t.flash = { s.flash with state := .program }) ∧
  (∀ (s : State) (p : FlashPart) (n : Nat) (ops : List FlashOp), s.flash.state = .suspended → s.flash.ops = .erase p n :: ops →
    Answers .flashSuspendTimeout s fun t => t.flash = { s.flash with state := .erase }) ∧
  (∀ (s : State) (low : Bool), Answers (.vddIoBandChange low) s fun t => t.flash = { s.flash with lowBand := low } ∧
    t.bit Reg.FLS_CAUSE 0 6 = decide (s.fld Reg.FLS_WAIT 0 3 0 < minWait (s.fld Reg.FLS_WAIT 0 5 4) low)) ∧
  (∀ (s : State) (offset : Word) (bytes : List Byte) (k : Nat) (hk : k < bytes.length), s.flash.cores = .loader → offset ≠ 0xFFFFFFFF#32 →
    bytes.length ≤ 256 →
    Answers (.bootstrapWrite offset bytes) s fun t => Tab.get 0 t.flash.ram (offset.toNat + k) = bytes[k]) ∧
  (∀ (s : State) (len : Word), s.flash.cores = .loader → len.toNat ≤ 4194304 →
    Answers (.bootstrapEnd len true) s fun t => t.flash = { s.flash with cores := .recovery } ∧ t.bit Reg.FLS_CORE_CAUSE 0 6 = true) ∧
  (∀ s : State, s.wdg.stage = .stage1 ∨ s.wdg.stage = .stage2 → s.bit Reg.WDG_CTRL 0 0 = true →
    Answers (.wdgKick 0x4B1C#32) s fun t =>
      t.wdg = { s.wdg with stage := .stage1, ms := BitVec.ofNat 16 (s.fld Reg.WDG_STAGE1 0 15 0) }) ∧
  (∀ s : State, s.psq.vaon = true → s.wdg.stage = .stage1 →
    Answers .stage1 s fun t => t.wdg = { s.wdg with stage := .stage2, ms := BitVec.ofNat 16 (s.fld Reg.WDG_STAGE2 0 15 0) } ∧
      t.bit Reg.WDG_CAUSE 0 0 = true ∧ Out.nmi ∈ t.out)

/-- The NV store, the vault and the recorder's buckets (R403, R407, R410, R413, R414). -/
def Obligations.NvVaultRecorder : Prop :=
  (∀ (s : State) (word : Fin 1048576) (outcome : Fin 4) (holder : Option (Nat × Bool)), s.psq.vaon = true → s.bit Reg.NVS_CTRL 0 8 = true →
    Answers (.keeperWordCheck word outcome holder) s fun t =>
      t.nv.keepWord.toNat = (word.val + 1) % 1048576 ∧ t.nv.keepRun = decide (word.val ≠ 1048575) ∧
      (word.val = 1048575 → t.nv.keepLast = State.epochOf s.tally.now) ∧
      (outcome = 1 → t.bit Reg.NVS_CAUSE 0 2 = true ∧
        t.fld Reg.NVS_REWRITE_CNT 0 31 0 = min (s.fld Reg.NVS_REWRITE_CNT 0 31 0 + 1) 0xFFFFFFFF) ∧
      (outcome = 2 → t.bit Reg.NVS_CAUSE 0 0 = true ∧ t.bit Reg.NVS_CAUSE 0 2 = true ∧
        t.fld Reg.NVS_CE_CNT 0 31 0 = min (s.fld Reg.NVS_CE_CNT 0 31 0 + 1) 0xFFFFFFFF ∧
        t.fld Reg.NVS_REWRITE_CNT 0 31 0 = min (s.fld Reg.NVS_REWRITE_CNT 0 31 0 + 1) 0xFFFFFFFF) ∧
      (outcome = 3 → t.bit Reg.NVS_CAUSE 0 1 = true ∧
        t.fld Reg.NVS_UE_CNT 0 31 0 = min (s.fld Reg.NVS_UE_CNT 0 31 0 + 1) 0xFFFFFFFF ∧
        ∀ key, holder = some (key, true) → (Tab.get ({} : NvRecord) s.nv.records key).b.ok = true →
          (Tab.get ({} : NvRecord) t.nv.records key).a = (Tab.get ({} : NvRecord) s.nv.records key).b)) ∧
  (∀ s : State, s.psq.vaon = true → Answers .wstampHiAdvance s fun t => t.nv.commits = 0 ∧ t.nv.records = s.nv.records ∧
    (Tab.get ({} : NvRing) t.nv.rings Config.ringWstamp).value = ((Tab.get ({} : NvRing) s.nv.rings Config.ringWstamp).value + 1) % 2 ^ 24) ∧
  (∀ (s : State) (code : Fin 1024), s.psq.vaon = true → Answers (.evrTokenRefill code) s fun t =>
    Tab.get {} t.evr.buckets code = { Tab.get ({} : Bucket) s.evr.buckets code with
      tokens := if (Tab.get ({} : Bucket) s.evr.buckets code).rate = 0 then (Tab.get ({} : Bucket) s.evr.buckets code).tokens
        else min ((Tab.get ({} : Bucket) s.evr.buckets code).tokens + 1) ((Tab.get ({} : Bucket) s.evr.buckets code).burst.toNat + 1) }) ∧
  (∀ s : State, s.psq.mainUp = true → s.flash.cores ≠ .off → s.vaultSources < 256 → 4096 ≤ s.evr.next.toNat - s.evr.paged.toNat →
    Answers .evrArchiveStart s fun t => t.evr.next = s.evr.next ∧ s.evr.paged.toNat + 3 ≤ t.evr.paged.toNat ∧
      t.evr.paged.toNat ≤ t.evr.next.toNat) ∧
  (∀ (s : State) (i : Nat) (p q : VaultPage), s.psq.mainUp = true → s.evr.archiving = false → s.flash.pages[i]? = some q →
    s.flash.pages[i + 1]? = some p → p.upper = true → q.upper = false → q.bad = false → q.kind = p.kind →
    Answers (.vaultPageProgramDone (i + 1) true) s fun t =>
      t.flash.pages = (s.flash.pages.set (i + 1) { p with settled := true }).set i { q with settled := true }) ∧
  (∀ (s : State) (kind : Fin 4) (p : VaultPage), s.psq.mainUp = true → s.vaultLast kind = some p → p.upper = false → p.settled = false →
    p.bad = false → (s.flash.pages.filter fun q => q.kind == kind).length < vaultSectors kind * 256 →
    Answers (.vaultPadTimeout kind) s fun t =>
      t.flash.pages = s.flash.pages ++ [{ kind := kind, pseq := s.vaultSeq kind, data := .pad kind, upper := true }])

/-- The drain triggers of R186 to R188, R417, R439, R440, R443 and R447, and the end of a drain (R189, R418). -/
def Obligations.DrainTriggers : Prop :=
  (∀ s : State, s.psq.vaon = true → s.psq.down = none → s.bench.domain = .opened → s.psq.pstate = .active →
    Answers .pwrFailN s fun t => t.bench.domain = .draining ∧ t.bench.triggers = s.bench.triggers ||| 2#16 ∧
      t.psq = { s.psq with inputGood := false, pwrFailLow := true, offByInput := true }) ∧
  (∀ s : State, s.psq.vaon = true → s.psq.down = none → s.bench.domain = .opened → s.psq.pstate = .active →
    Answers .vinSense s fun t => t.bench.domain = .draining ∧ t.bench.triggers = s.bench.triggers ||| 4#16 ∧
      t.psq = { s.psq with inputGood := false, offByInput := true }) ∧
  (∀ s : State, s.psq.vaon = true → s.wdg.stage = .stage2 → s.psq.down = none → s.bench.domain = .opened →
    Answers .stage2 s fun t => t.bench.domain = .draining ∧ t.bench.triggers = s.bench.triggers ||| 0x100#16 ∧
      t.wdg = { s.wdg with stage := .paused, ms := 0 }) ∧
  (∀ s : State, s.psq.mainUp = true → s.psq.tripHold = false → s.psq.down = none → s.bench.domain = .opened →
    Answers .trip s fun t => t.bench.domain = .draining ∧ t.bench.triggers = s.bench.triggers ||| 0x40#16 ∧
      t.psq = { s.psq with tripHold := true }) ∧
  (∀ s : State, s.psq.vaon = true → s.psq.mrLow = false → s.psq.pstate ≠ .dormant → s.psq.pstate ≠ .lockout → s.psq.down = none →
    s.bench.domain = .opened → Answers (.mrN true) s fun t => t.bench.domain = .draining ∧
      t.bench.triggers = s.bench.triggers ||| 0x10#16 ∧ t.psq = { s.psq with mrLow := true }) ∧
  (∀ s : State, s.psq.vaon = true → s.bit Reg.PSQ_CTRL 0 2 = true → s.psq.pstate = .active ∨ s.psq.pstate = .idle → s.psq.down = none →
    s.bench.domain = .opened → Answers .pbForced s fun t => t.bench.domain = .draining ∧
      t.bench.triggers = s.bench.triggers ||| 8#16 ∧ t.psq = { s.psq with pstate := .poweringDown }) ∧
  (∀ s : State, s.psq.vaon = true → s.psq.pstate = .active ∨ s.psq.pstate = .idle → s.psq.down = none → s.bench.domain = .opened →
    Answers .keepEntry s fun t => t.psq = { s.psq with pstate := .enteringKeep }) ∧
  (∀ (s : State) (g : Drain), s.bench.domain = .opened → s.bench.drain = some g → g.flush = true → s.flushOver = true →
    Answers .orderlyFlushComplete s fun t => t.bench.domain = .draining ∧ t.bench.triggers = s.bench.triggers ∧
      (t.bench.drain.map fun d => d.first) = some g.first) ∧
  (∀ (s : State) (g : Drain), s.bench.domain = .draining → s.bench.drain = some g → g.frames = [] → g.lost = false →
    s.bench.reaction = 1 → s.flash.state ≠ .idle → s.bench.triggers &&& codeMask [1, 2, 6] = 0 →
    Answers .drainComplete s fun t => t.bench.domain = .drained ∧ t.bench.drain = none ∧ (t.desc g.half).state = .committed ∧
      (t.desc g.half).triggers = s.bench.triggers ∧ (t.desc g.half).lines = (s.desc g.half).lines ∧ t.psq.drainDone = true ∧
      t.psq.flashHold = some .warm ∧ t.wdg.hold = true) ∧
  (∀ (s : State) (g : Drain), s.bench.domain = .draining → s.bench.drain = some g → g.frames = [] → g.lost = false →
    s.bench.reaction = 1 → s.flash.state = .idle → s.psq.pstate = .active →
    Answers .drainComplete s fun t => t.psq.drainDone = true ∧ t.psq.warm = true ∧ t.psq.mainUp = false ∧ t.flash.cores = .off)

/-- The sequencer and the rails (R430 to R437). -/
def Obligations.RailSequencing : Prop :=
  (∀ (s : State) (k : Fin 24) (t0 : Trans), s.psq.trans = some t0 → t0.goingDown = false → s.psq.waiting.off = false →
    t0.rails.getLsbD k = true → (s.rail k).state = .wait → s.psq.inputGood = true →
    (∀ j < 24, (s.seq k).dep.getLsbD j = true → t0.rails.getLsbD j = true → (s.seq j).en = true → (s.rail j).state = .on) →
    Answers (.railStart k) s fun t => t.rail k = { s.rail k with state := .ramp, en := true, drops := 0 } ∧
      ∀ j : Nat, j ≠ k → t.rail j = s.rail j) ∧
  (∀ (s : State) (k : Fin 24) (t0 : Trans) (j : Fin 24), s.psq.trans = some t0 → t0.goingDown = false → s.psq.waiting.off = false →
    t0.rails.getLsbD k = true → (s.rail k).state = .ramp ∨ (s.rail k).state = .qual → j ≠ k → t0.rails.getLsbD j = true →
    (s.rail j).state ≠ .on →
    Answers (.railQualified k) s fun t => t.rail k = { s.rail k with state := .on, pg := true } ∧ t.psq.trans = some t0) ∧
  (∀ (s : State) (k j : Fin 24) (t0 : Trans), s.psq.trans = some t0 → t0.goingDown = false → t0.kind = .powerUp → s.psq.waiting.off = false →
    t0.rails.getLsbD k = true → (s.rail k).state = .ramp ∨ (s.rail k).state = .qual → t0.rails.getLsbD j = true →
    (s.rail j).en = true → (s.rail j).pg = true →
    Answers (.railRampTimeout k) s fun t => t.psq.attempt = s.psq.attempt + 1 ∧
      t.psq.trans = some { kind := .powerUp, rails := t0.rails, goingDown := true } ∧ t.bit Reg.PSQ_RAIL_CAUSE k 0 = true ∧
      t.bit Reg.PSQ_CAUSE 0 1 = true) ∧
  (∀ (s : State) (k : Fin 24) (t0 : Trans), s.psq.trans = some t0 → t0.goingDown = false → t0.rails.getLsbD k = true →
    (s.rail k).state = .ramp ∨ (s.rail k).state = .qual → (s.rail k).drops < (s.seq k).nChat →
    Answers (.railPgDrop k) s fun t => t.rail k = { s.rail k with state := .qual, pg := true, drops := (s.rail k).drops + 1 }) ∧
  (∀ s : State, s.psq.backoff = true → s.psq.pstate = .poweringUp →
    Answers .seqRetryBackoffExpiry s fun t => t.psq.backoff = false ∧ t.psq.trans = some { kind := .powerUp, rails := s.enabledRails }) ∧
  (∀ (s : State) (k j : Fin 24) (t0 : Trans), s.psq.trans = some t0 → t0.goingDown = true → (s.rail k).en = false → (s.rail k).pg = true →
    (s.rail k).state = .on → j ≠ k → t0.rails.getLsbD j = true → (s.rail j).pg = true →
    Answers (.railOff k) s fun t => t.rail k = { s.rail k with pg := false, state := .off } ∧ t.psq.trans = some t0) ∧
  (∀ (s : State) (k : Fin 24) (t0 : Trans), s.psq.trans = some t0 → t0.goingDown = true → t0.rails.getLsbD k = true → (s.rail k).en = true →
    (s.rail k).pg = true → (∀ j ∈ dependsOn s.psq.seqAct t0.rails k, (s.rail j).en = false ∧ (s.rail j).pg = false) →
    Answers (.offDwellExpiry k) s fun t => t.rail k = { s.rail k with en := false } ∧ ∀ j : Nat, j ≠ k → t.rail j = s.rail j) ∧
  (∀ (s : State) (k : Fin 24), (s.rail k).state = .on → (s.rail k).en = true → s.psq.down = none → s.psq.trans = none → s.railReaction k = 0 →
    Answers (.railFault k) s fun t => t.rail k = { s.rail k with pg := false } ∧ t.bit Reg.PSQ_RAIL_CAUSE k 2 = true ∧
      t.reg Reg.PSQ_LAST_FAULT = BitVec.ofNat 32 (k + s.railRetry k * 128)) ∧
  (∀ (s : State) (k : Fin 24), (s.rail k).state = .on → (s.rail k).en = true → s.psq.down = none → s.psq.trans = none → s.railReaction k = 3 →
    s.bench.domain = .opened →
    Answers (.railFault k) s fun t => t.rail k = { s.rail k with pg := false } ∧ t.bench.domain = .draining ∧
      t.bench.triggers = s.bench.triggers ||| 0x20#16) ∧
  (∀ (s : State) (k : Fin 24), (s.rail k).state = .on → (s.rail k).en = true → (s.rail k).glitches ≠ 0xFF#8 →
    Answers (.railGlitch k) s fun t => t.rail k = { s.rail k with glitches := (s.rail k).glitches + 1 } ∧
      t.bit Reg.PSQ_RAIL_CAUSE k 3 = true) ∧
  (∀ (s : State) (k : Fin 24), Answers (.railRetryWindowExpiry k) s fun t => t.rail k = { s.rail k with retries := 0 } ∧
    ∀ j : Nat, j ≠ k → t.rail j = s.rail j) ∧
  (∀ s : State, s.psq.vaon = true → s.bit Reg.PSQ_LOCK 0 0 = false → s.psq.trans = none →
    (∀ k < 24, (seqAt s.psq.seqSh k).inRange = true) → seqCyclic s.psq.seqSh = false →
    Answers .psqSeqCommit s fun t => t.psq = { s.psq with seqAct := s.psq.seqSh } ∧ t.fld Reg.PSQ_SEQ_COMMIT 0 3 1 = 0) ∧
  (∀ s : State, s.psq.vaon = true → s.bit Reg.PSQ_LOCK 0 0 = false → s.psq.trans.isSome = true →
    Answers .psqSeqCommit s fun t => t.psq = s.psq ∧ t.fld Reg.PSQ_SEQ_COMMIT 0 3 1 = 7 ∧ t.bit Reg.PSQ_CAUSE 0 10 = true) ∧
  (∀ s : State, s.psq.vaon = true → s.bit Reg.PSQ_LOCK 0 0 = false →
    s.mapError (s.reg Reg.PSQ_MGMAP0) (s.reg Reg.PSQ_MGMAP1) = 0 →
    Answers .psqMgmapCommit s fun t => t.reg Reg.PSQ_MGMAP_ACT0 = s.reg Reg.PSQ_MGMAP0 ∧ t.reg Reg.PSQ_MGMAP_ACT1 = s.reg Reg.PSQ_MGMAP1 ∧
      t.fld Reg.PSQ_MGMAP_COMMIT 0 4 1 = 0)

/-- The power states of chapter 17. -/
def Obligations.PowerStates : Prop :=
  (∀ s : State, s.psq.vaon = false → s.bit Reg.PSQ_CTRL 0 0 = false →
    Answers .vaonPowerUp s fun t => t.psq.vaon = true ∧ t.psq.pstate = .dormant ∧ t.tally.now = s.tally.floor.tally ∧
      t.bit Reg.PSQ_CAUSE 0 13 = true ∧ t.bit Reg.PSQ_CAUSE 0 3 = true ∧ t.nv.commits = 0 ∧ t.nv.records = s.nv.records ∧
      (Tab.get ({} : NvRing) t.nv.rings Config.ringWstamp).value = ((Tab.get ({} : NvRing) s.nv.rings Config.ringWstamp).value + 1) % 2 ^ 24) ∧
  (∀ s : State, s.psq.vaon = true → Answers .vaonLoss s fun t => t.psq.vaon = false ∧ t.psq.mainUp = false ∧ t.nv = s.nv ∧ t.evt = {} ∧
    t.csr = {} ∧ t.wdg = {} ∧ t.flash.cores = .off) ∧
  (∀ s : State, s.psq.vaon = true → s.psq.inputGood = false → s.psq.pstate = .dormant → s.psq.offByInput = true → s.psq.coolOff = false →
    s.psq.tripHold = false → Answers .inputGood s fun t => t.psq.pstate = .poweringUp ∧
      t.psq.trans = some { kind := .powerUp, rails := s.enabledRails }) ∧
  (∀ s : State, s.psq.waiting.on = true → s.psq.pstate = .dormant → s.psq.tripHold = false → s.psq.inputGood = true →
    Answers .tOffMinExpiry s fun t => t.psq.pstate = .poweringUp ∧ t.psq.trans = some { kind := .powerUp, rails := s.enabledRails }) ∧
  (∀ s : State, s.psq.tripHold = true → s.psq.pstate = .dormant → s.psq.waiting.on = true → s.psq.coolOff = false → s.psq.inputGood = true →
    Answers .tripHoldExpiry s fun t => t.psq.pstate = .poweringUp ∧ t.psq.trans = some { kind := .powerUp, rails := s.enabledRails }) ∧
  (∀ s : State, s.psq.tripHold = true → s.psq.pstate = .dormant → s.psq.waiting.on = false →
    Answers .tripHoldExpiry s fun t => t = { s with psq := { s.psq with tripHold := false } }) ∧
  (∀ s : State, s.psq.vaon = true → s.bit Reg.PSQ_CTRL 0 2 = true → s.psq.pstate = .dormant → s.psq.coolOff = false → s.psq.tripHold = false →
    s.psq.inputGood = true → Answers .pbShort s fun t => t.psq.pstate = .poweringUp ∧
      t.psq.trans = some { kind := .powerUp, rails := s.enabledRails }) ∧
  (∀ s : State, s.psq.vaon = true → s.bit Reg.PSQ_CTRL 0 2 = true → s.psq.pstate = .active ∨ s.psq.pstate = .idle → s.psq.down = none →
    s.bench.domain = .opened → Answers .pbShort s fun t => t.psq = { s.psq with pstate := .poweringDown }) ∧
  (∀ s : State, s.psq.vaon = true → s.psq.pstate = .dormant → s.psq.coolOff = false → s.psq.tripHold = false → s.psq.inputGood = true →
    Answers .powerUp s fun t => t.psq.pstate = .poweringUp ∧ t.psq.trans = some { kind := .powerUp, rails := s.enabledRails }) ∧
  (∀ s : State, s.psq.pstate = .active → s.psq.mainUp = true → s.bit Reg.PSQ_CTRL 0 1 = true →
    Answers .idleEntry s fun t => t.psq = { s.psq with pstate := .idle }) ∧
  (∀ s : State, s.psq.pstate = .idle → Answers .idleExit s fun t => t.psq = { s.psq with pstate := .active }) ∧
  (∀ s : State, s.psq.pstate = .enteringKeep → s.psq.trans = none → s.bench.domain ≠ .opened → s.bench.domain ≠ .draining →
    s.allOff s.keepRailsSet = true → s.psq.waiting.keepLeave = false →
    Answers .keepEntryComplete s fun t => t.psq = { s.psq with pstate := .keep, mainUp := false, throttle := false } ∧
      t.flash.cores = .retention ∧ t.wdg = { s.wdg with stage := .paused, ms := 0 } ∧ t.bench.domain = .closed) ∧
  (∀ s : State, s.psq.vaon = true → s.psq.pstate = .keep → Answers .keepLeave s fun t => t.psq.pstate = .leavingKeep ∧ t.psq.mainUp = true ∧
    t.psq.burst = none ∧ t.psq.trans = some { kind := .keepLeave, rails := s.keepRailsSet }) ∧
  (∀ s : State, s.psq.pstate = .leavingKeep → s.psq.trans = none → s.psq.backoff = false → s.psq.mainUp = true →
    s.allRails s.enabledRails .on = true → s.tablesLoaded = true → s.psq.waiting.keepEnter = false →
    Answers .keepLeaveComplete s fun t => t.psq.pstate = .active) ∧
  (∀ (s : State) (g : Fin 9) (j : Fin 24), s.psq.pstate = .keep → s.psq.burst = some g → s.psq.trans = none → (s.pass g).running = false →
    (s.pass g).waiting = false → s.med.yarrow.moves = [] → s.burstWork g = false → (s.seq j).group = 4 → (s.seq j).keep = 2 → (s.rail j).en = true →
    (s.rail j).pg = true → Answers .keepBurstEnd s fun t => t.psq.pstate = .keep ∧ t.psq.burst = some g ∧
      ∃ r, t.psq.trans = some { kind := .burstDown, rails := r, goingDown := true } ∧ r.getLsbD j = true) ∧
  (∀ s : State, s.psq.mainUp = true → Answers .throttle s fun t => t.psq = { s.psq with throttle := true } ∧ t.bit Reg.PSQ_CAUSE 0 7 = true) ∧
  (∀ s : State, s.psq.mainUp = true → Answers .throttleEnd s fun t => t.psq = { s.psq with throttle := false } ∧
    t.bit Reg.PSQ_CAUSE 0 7 = false) ∧
  (∀ s : State, s.psq.vaon = true → s.psq.warm = true → s.psq.mrLow = false → s.psq.trans = none → s.psq.backoff = false → s.psq.pstate = .active →
    Answers .warmReset s fun t => t.psq.mainUp = true ∧ t.psq.warm = false ∧ t.psq.pstate = .active ∧ t.psq.rails = s.psq.rails)

/-- The end of flash operations (R398, R418) and the control cores (R417, R422, R425). -/
def Obligations.FlashAndCores : Prop :=
  (∀ (s : State) (o : FlashOp), s.flash.ops = [o] → s.flash.state ≠ .suspended → s.flash.work = none → s.psq.flashHold = none →
    Answers (.flashOpDone true) s fun t => t.flash = { s.flash with
      ops := [], state := .idle, configBad := if (State.configCopy o).isSome then none else s.flash.configBad }) ∧
  (∀ (s : State) (p : FlashPart) (n : Nat) (u : Bool) (rest : List FlashOp), s.flash.ops = .program p n u :: rest → s.flash.state ≠ .suspended →
    s.flash.work = none → s.psq.flashHold = none →
    Answers (.flashOpDone false) s fun t => t.flash.ops = rest ∧ t.bit Reg.FLS_CAUSE 0 0 = true ∧
      t.fld Reg.FLS_FAIL_CNT 0 15 0 = min (s.fld Reg.FLS_FAIL_CNT 0 15 0 + 1) 0xFFFF) ∧
  (∀ (s : State) (p : FlashPart) (n : Nat) (rest : List FlashOp), s.flash.ops = .erase p n :: rest → s.flash.state ≠ .suspended →
    s.flash.work = none → s.psq.flashHold = none →
    Answers (.flashOpDone false) s fun t => t.flash.ops = rest ∧ t.bit Reg.FLS_CAUSE 0 1 = true ∧
      t.fld Reg.FLS_FAIL_CNT 0 31 16 = min (s.fld Reg.FLS_FAIL_CNT 0 31 16 + 1) 0xFFFF) ∧
  (∀ s : State, s.psq.flashHold = some .warm → s.psq.pstate = .active →
    Answers .flashHoldOverrun s fun t => t.psq.warm = true ∧ t.psq.mainUp = false ∧ t.psq.flashHold = none ∧ t.flash.ops = [] ∧
      t.flash.state = .idle ∧ t.flash.cores = .off) ∧
  (∀ (s : State) (cause : Fin 4), cause ≠ 2 → s.flash.cores = .running → s.flash.slots.trial = false → s.flash.restartAt = [] →
    s.bootable s.flash.slots.active s.arb = true →
    Answers (.controlCoreRestart cause) s fun t => t.flash.cores = .restarting ∧ t.flash.runSlot = s.flash.slots.active ∧
      t.flash.restartAt = [s.tally.now] ∧ t.bit Reg.FLS_CORE_CAUSE 0 0 = true ∧ (cause = 0 → t.bit Reg.FLS_CORE_CAUSE 0 1 = true) ∧
      (cause = 1 → t.bit Reg.FLS_CORE_CAUSE 0 2 = true) ∧
      t.fld Reg.FLS_RESTART_CNT 0 31 0 = min (s.fld Reg.FLS_RESTART_CNT 0 31 0 + 1) 0xFFFFFFFF ∧ Out.coreReset ∈ t.out ∧
      t.wdg = { s.wdg with stage := .paused, ms := 0 }) ∧
  (∀ (s : State) (found : Option (BitVec 5)) (bad : List Nat) (otpOk : Bool), s.psq.mainUp = true → s.flash.cores = .restarting →
    s.xlt.load ≠ .empty → s.flash.work = none → s.rdma.asks = [] → (∀ c : Nat, (s.chan c).held = []) → s.bit Reg.WDG_CTRL 0 0 = true →
    Answers (.mingasoStart found bad otpOk) s fun t => t = { s with flash := { s.flash with cores := .running }, wdg := { s.wdg with stage := .stage1, ms := BitVec.ofNat 16 (s.fld Reg.WDG_STAGE1 0 15 0) } }) ∧
  (∀ s : State, s.flash.cores = .running → s.flash.slots.trial = true → s.flash.slots.restarts ≠ 3 → s.flash.runSlot = s.flash.slots.active →
    (s.image s.flash.slots.active).state = .valid →
    Answers (.trialConfirm true) s fun t => t.flash.slots = { s.flash.slots with trial := false, restarts := 0 } ∧
      t.sec.arb = max s.sec.arb (s.image s.flash.slots.active).secver.toNat ∧ t.bit Reg.FLS_CORE_CAUSE 0 4 = true)

/-- The sources of time (R45 to R52, R319). -/
def Obligations.TimeSources : Prop :=
  (∀ (s : State) (m : Fin 32) (offset : Int) (v : Dword), s.psq.mainUp = true → s.ptpOn m = true → s.rdma.ptpMac = some m →
    offset.natAbs ≤ 1000 → 7 ≤ s.tally.ptpGood → s.tally.ptpHoldoff = false → s.tally.ptpOverridden = false →
    s.bit Reg.TLY_CTRL 0 0 = true → s.tally.jumpPending = false → s.tally.floor.tally ≤ v →
    v.toNat ≤ s.tally.now.toNat + 30 * 86400 * 65536 →
    Answers (.ptpSync m offset v) s fun t => t.tally.ptpGood = 8 ∧ t.tally.ptpQualified = true ∧ t.tally.source = .ptp ∧
      t.tally.started = true ∧ t.tally.holdErr = 1 ∧ t.rdma = { s.rdma with ptpOffset := offset } ∧
      (v < s.tally.now → t.tally.now = s.tally.now ∧ t.tally.catchup = true ∧ t.tally.slew = 0) ∧
      (s.tally.now ≤ v → v.toNat ≤ s.tally.now.toNat + 65536 →
        t.tally.now = s.tally.now ∧ t.tally.catchup = false ∧ t.tally.slew = v - s.tally.now) ∧
      (s.tally.now.toNat + 65536 < v.toNat → t.tally.now = v ∧ t.tally.catchup = false ∧ t.tally.slew = 0)) ∧
  (∀ (s : State) (m : Fin 32) (rank : Nat), s.psq.mainUp = true → s.ptpOn m = true →
    Answers (.ptpAnnounce m rank) s fun t => (t.mac m).master = some rank ∧ ∃ (c : Fin 32) (rc : Nat), t.rdma.ptpMac = some c ∧
      (t.mac c).master = some rc ∧ rc ≤ rank ∧ ∀ (x : Fin 32) (rx : Nat), t.ptpOn x = true → (t.mac x).master = some rx → rc ≤ rx) ∧
  (∀ (s : State) (m : Fin 32), Answers (.ptpAnnounceTimeout m) s fun t => (t.mac m).master = none ∧
    (s.rdma.ptpMac = some m → t.tally.ptpQualified = false ∧ t.tally.ptpGood = 0 ∧ t.tally.source ≠ .ptp)) ∧
  (∀ (s : State) (m : Fin 32), s.psq.mainUp = true → s.ptpOn m = true → Answers (.ptpDelayReqTimer m) s fun t =>
    (t.mac m).dreqSent = true ∧ t.out = .macFrame m 4 (s.fld Reg.ETH_PTP_CTRL 0 7 0) :: s.out) ∧
  (∀ (s : State) (m : Fin 32) (d : Nat), s.ptpOn m = true → (s.mac m).dreqSent = true → Answers (.ptpDelayResp m d) s fun t =>
    t.mac m = { s.mac m with dreqSent := false, delay := some d }) ∧
  (∀ s : State, Answers .twinSyncTimeout s fun t => t.tally.twinQualified = false ∧ t.tally.source ≠ .twin) ∧
  (∀ s : State, Answers .signedTimeExpiry s fun t => t.tally.secQualified = false ∧ t.tally.source ≠ .secure) ∧
  (∀ s : State, s.psq.vaon = true → s.bit Reg.TLY_CTRL 0 3 = true → s.tally.ppsEdges = 63 → Answers (.ppsInEdge true) s fun t =>
    t.tally.ppsLock = true ∧ (s.tally.source = .holdover → s.bestSource = .holdover → t.tally.source = .holdoverPps)) ∧
  (∀ s : State, s.psq.vaon = true → s.bit Reg.TLY_CTRL 0 3 = true → s.tally.ppsLock = true → Answers (.ppsInEdge false) s fun t =>
    t.tally.ppsLock = false ∧ t.tally.ppsEdges = 0 ∧ t.tally.source ≠ .holdoverPps) ∧
  (∀ s : State, s.tally.ppsLock = true → Answers .ppsLoss s fun t => t.tally.ppsLock = false ∧ t.tally.ppsEdges = 0 ∧
    t.tally.source ≠ .holdoverPps) ∧
  (∀ s : State, Answers .catchupEnd s fun t => t = { s with tally := { s.tally with catchup := false } }) ∧
  (∀ s : State, Answers (.belowFloorHoldoffExpiry 0) s fun t => t.tally.ptpHoldoff = false) ∧
  (∀ s : State, Answers (.belowFloorHoldoffExpiry 1) s fun t => t.tally.secHoldoff = false) ∧
  (∀ s : State, Answers (.belowFloorHoldoffExpiry 2) s fun t => t.tally.twinHoldoff = false) ∧
  (∀ s : State, s.psq.mainUp = true → s.tally.acquiring = true → s.tally.started = false → s.tally.ptpQualified = false →
    s.tally.secQualified = false → s.tally.twinQualified = false → s.tally.ppsLock = false →
    Answers .noSource s fun t => t.tally.started = true ∧ t.tally.source = .holdover ∧ t.tally.now = s.tally.now ∧
      ∀ d ∈ s.dieIds, (s.die d).used = true → (s.die d).failed = false → (t.die d).sentinel = true)

/-- The epoch boundary (R50, R58, R61), waking (R61 to R65) and the SRAM scrubber (R43). -/
def Obligations.EpochAndWake : Prop :=
  (∀ s : State, s.psq.vaon = true → Answers .epochBoundary s fun t => t.tally.now = s.tally.now ∧ t.tally.trust = s.tally.trust ∧
    t.tally.floor = { secs := (s.tally.now >>> 16).setWidth 48, trust := s.tally.trust, orderly := false } ∧
    ∀ g < 9, (s.qg g).railsUp = true → (Tab.get ({} : GroupStamp) t.tally.stamps g).powered = s.sNow) ∧
  (∀ s : State, s.psq.mainUp = true → s.deadline ≤ s.tally.now.toNat → s.earliestDeadline = none →
    Answers .wakeDeadlineReached s fun t => t.evt.raw.getLsbD 158 = true) ∧
  (∀ (s : State) (x : Int) (d : Nat), s.psq.mainUp = true → s.deadline ≤ s.tally.now.toNat → s.earliestDeadline = some (x, d) →
    s.evt.raw.getLsbD 158 = false → s.psq.pstate = .active ∨ s.psq.pstate = .idle →
    Answers .wakeDeadlineReached s fun t => ∃ u v : State, u.evt.raw.getLsbD 158 = true ∧ u.med = s.med ∧
      v = u.setDie d { s.die d with first := true } ∧
      t = (if v.passBusy (State.dieGroup d) || !v.bit Reg.TSL_CTRL 0 0 then v
        else v.setPass (State.dieGroup d) { v.pass (State.dieGroup d) with waiting := true }).settleMed) ∧
  (∀ s : State, s.psq.vaon = true → s.asleep = true → s.tally.reqLow = false → s.deadline ≤ s.tally.now.toNat →
    s.tally.entry.toNat + 60 * 65536 ≤ s.tally.now.toNat → Answers .wakeHandshakeStart s fun t =>
      t.tally = { s.tally with reqLow := true } ∧ t.bit Reg.TLY_WAKE_CTRL 0 9 = true ∧ t.psq = s.psq) ∧
  (∀ s : State, s.psq.vaon = true → s.tally.reqLow = true → s.psq.pstate = .dormant → s.psq.coolOff = false → s.psq.tripHold = false →
    s.psq.inputGood = true → Answers .wakeGrant s fun t => t.psq.pstate = .poweringUp ∧
      t.psq.trans = some { kind := .powerUp, rails := s.enabledRails }) ∧
  (∀ s : State, s.psq.vaon = true → s.tally.reqLow = true → s.psq.pstate = .keep → Answers .wakeGrant s fun t =>
    t.psq.pstate = .leavingKeep ∧ t.psq.mainUp = true ∧ t.psq.trans = some { kind := .keepLeave, rails := s.keepRailsSet }) ∧
  (∀ s : State, s.psq.vaon = true → s.tally.reqLow = true → s.bit Reg.TLY_WAKE_CTRL 0 8 = true →
    s.deadline + s.fld Reg.TLY_WAKE_CTRL 0 7 0 * 86400 * 65536 < s.tally.now.toNat → s.psq.pstate = .dormant → s.psq.coolOff = false →
    s.psq.tripHold = false → s.psq.inputGood = true → Answers .wakeForceAtDeadline s fun t => t.psq.pstate = .poweringUp ∧
      t.psq.trans = some { kind := .powerUp, rails := s.enabledRails }) ∧
  (∀ s : State, s.psq.vaon = true → s.tally.reqLow = true → s.bit Reg.TLY_WAKE_CTRL 0 8 = true →
    s.deadline + s.fld Reg.TLY_WAKE_CTRL 0 7 0 * 86400 * 65536 < s.tally.now.toNat → s.psq.pstate = .keep →
    Answers .wakeForceAtDeadline s fun t => t.psq.pstate = .leavingKeep ∧ t.psq.mainUp = true ∧
      t.psq.trans = some { kind := .keepLeave, rails := s.keepRailsSet }) ∧
  (∀ (s : State) (m : Fin 9) (e : Fin 3) (x : Nat) (both : Bool) (held : List DramArray) (last : Bool), s.psq.mainUp = true →
    s.bit Reg.ECC_SCRUB_CTRL 0 0 = true → e ≠ 2 ∨ m = 1 → Answers (.sramScrubVisit m e x both held last) s fun t =>
      t.ecc.mem = if last then 0 else m.val)

/-- The firings of Table 3-5 (R53 to R57, R466). -/
def Obligations.SlotFirings : Prop :=
  (∀ (s : State) (k : Fin 256), s.nextDue = some k.val → (s.slot k).action = 1 → s.psq.pstate = .active ∨ s.psq.pstate = .idle →
    Answers (.teaselPass k) s fun t => t.slot k = { Slot.advance (s.slot k) s.tally.now with
      result := if (State.maskGroups (s.slot k).arg).any (fun g => s.passBusy g) then .busy else if s.sched.marked.getLsbD k then .missed else .done }) ∧
  (∀ (s : State) (k : Fin 256), s.nextDue = some k.val → (s.slot k).action = 1 → s.psq.pstate = .keep →
    (State.maskGroups (s.slot k).arg).any (fun g => (s.pass g).waiting || (s.burstAt g && (s.pass g).running)) = true ∨
      s.sched.marked.getLsbD k = true →
    Answers (.teaselPass k) s fun t => t.slot k = { Slot.advance (s.slot k) s.tally.now with
      result := if (State.maskGroups (s.slot k).arg).any (fun g => (s.pass g).waiting || (s.burstAt g && (s.pass g).running)) then .busy
        else .missed }) ∧
  (∀ (s : State) (k : Fin 256) (g : Fin 9), s.nextDue = some k.val → (s.slot k).action = 1 → s.psq.pstate = .keep →
    (∀ g ∈ State.maskGroups (s.slot k).arg, (s.pass g).waiting = false ∧ (s.burstAt g && (s.pass g).running) = false) →
    s.sched.marked.getLsbD k = false → g.val ∈ State.maskGroups (s.slot k).arg → s.psq.burst.isSome = true →
    Answers (.teaselPass k) s fun t => t.slot k = { Slot.advance (s.slot k) s.tally.now with result := (s.slot k).result } ∧
      (t.pass g).waiting = true ∧ (t.pass g).slot = some k) ∧
  (∀ (s : State) (k : Fin 256) (g : Fin 9), s.nextDue = some k.val → (s.slot k).action = 1 → s.psq.pstate = .keep →
    (∀ g < 9, (s.pass g).waiting = false ∧ (s.burstAt g && (s.pass g).running) = false) →
    s.sched.marked.getLsbD k = false → g.val ∈ State.maskGroups (s.slot k).arg → s.psq.burst = none → s.psq.trans = none →
    Answers (.teaselPass k) s fun t => t.slot k = { Slot.advance (s.slot k) s.tally.now with result := .done } ∧ t.psq.burst.isSome = true) ∧
  (∀ (s : State) (k : Fin 256), s.nextDue = some k.val → (s.slot k).action = 1 → s.psq.pstate = .dormant →
    Answers (.teaselPass k) s fun t => t.slot k = { Slot.advance (s.slot k) s.tally.now with result := .held }) ∧
  (∀ (s : State) (k : Fin 256), s.nextDue = some k.val → (s.slot k).action = 2 → s.psq.pstate = .active ∨ s.psq.pstate = .idle →
    Answers (.eyebrightCal k) s fun t => t.slot k = { Slot.advance (s.slot k) s.tally.now with
      result := if s.tablesReady && (State.maskGroups (s.slot k).arg).any (fun g => (s.calDies g).any fun d => (s.die d).calDue) then .busy
        else if s.sched.marked.getLsbD k then .missed else .done }) ∧
  (∀ (s : State) (k : Fin 256), s.nextDue = some k.val → (s.slot k).action = 2 → s.psq.pstate = .dormant →
    Answers (.eyebrightCal k) s fun t => t.slot k = { Slot.advance (s.slot k) s.tally.now with result := .held }) ∧
  (∀ (s : State) (k : Fin 256), s.nextDue = some k.val → (s.slot k).action = 3 → s.psq.pstate = .active ∨ s.psq.pstate = .idle ∨ s.psq.pstate = .keep ∨
      s.psq.pstate = .dormant → Answers (.nvFloorWrite k) s fun t =>
    t.tally.floor = { secs := (s.tally.now >>> 16).setWidth 48, trust := s.tally.trust, orderly := false } ∧
    t.slot k = { Slot.advance (s.slot k) s.tally.now with result := if s.sched.marked.getLsbD k then .missed else .done }) ∧
  (∀ (s : State) (k : Fin 256), s.nextDue = some k.val → (s.slot k).action = 4 → s.psq.pstate = .active ∨ s.psq.pstate = .idle →
    Answers (.wakeReq k) s fun t => t.tally = s.tally ∧
    t.slot k = { Slot.advance (s.slot k) s.tally.now with result := if s.sched.marked.getLsbD k then .missed else .done }) ∧
  (∀ (s : State) (k : Fin 256), s.nextDue = some k.val → (s.slot k).action = 4 → s.psq.pstate = .keep ∨ s.psq.pstate = .dormant →
    Answers (.wakeReq k) s fun t => t.tally = { s.tally with reqLow := true } ∧ t.slot k = { Slot.advance (s.slot k) s.tally.now with
      result := if s.tally.reqLow then .busy else if s.sched.marked.getLsbD k then .missed else .done }) ∧
  (∀ (s : State) (k : Fin 256), s.nextDue = some k.val → (s.slot k).action = 5 → s.psq.pstate = .active ∨ s.psq.pstate = .idle → s.psq.down = none →
    s.bench.domain = .opened → Answers (.slotKeepEnter k) s fun t => t.psq = { s.psq with pstate := .enteringKeep } ∧
    (t.slot k).result = if s.sched.marked.getLsbD k then .missed else .done) ∧
  (∀ (s : State) (k : Fin 256), s.nextDue = some k.val → (s.slot k).action = 6 → s.psq.pstate = .keep →
    Answers (.slotKeepLeave k) s fun t => t.psq.pstate = .leavingKeep ∧ t.psq.mainUp = true ∧
    (t.slot k).result = if s.sched.marked.getLsbD k then .missed else .done) ∧
  (∀ (s : State) (k : Fin 256), s.nextDue = some k.val → (s.slot k).action = 7 → s.psq.pstate = .active ∨ s.psq.pstate = .idle →
    Answers (.dramScrub k) s fun t => t.dram = { s.dram with burst := true } ∧ t.slot k = { Slot.advance (s.slot k) s.tally.now with
      result := if s.dram.burst then .busy else if s.sched.marked.getLsbD k then .missed else .done }) ∧
  (∀ (s : State) (k : Fin 256), s.nextDue = some k.val → (s.slot k).action = 7 → s.psq.pstate = .keep → s.dram.burst = false →
    s.dram.lastExit = none → s.dram.st = .selfRefresh → Answers (.dramScrub k) s fun t =>
    t.dram = { s.dram with burst := true, st := .ready, lastExit := some s.tally.now } ∧
    t.slot k = { Slot.advance (s.slot k) s.tally.now with result := if s.sched.marked.getLsbD k then .missed else .done }) ∧
  (∀ (s : State) (k : Fin 256), s.nextDue = some k.val → (s.slot k).action = 8 → s.psq.pstate = .active → s.psq.mainUp = true →
    s.bit Reg.EVT_CTRL 0 0 = false → s.bit Reg.EVR_CTRL 0 0 = true → 0 < (Tab.get ({} : Bucket) s.evr.buckets (bucketOf (bitsOf (s.slot k).arg 15 0))).tokens →
    Answers (.raiseEvent k) s fun t => t.evr.next = s.evr.next + 1 ∧
    (Tab.get ({} : Entry) t.evr.ring (s.evr.next.toNat % 16384)).code = BitVec.ofNat 16 (bitsOf (s.slot k).arg 15 0) ∧
    (Tab.get ({} : Entry) t.evr.ring (s.evr.next.toNat % 16384)).source = 376 ∧
    (Tab.get ({} : Entry) t.evr.ring (s.evr.next.toNat % 16384)).principal = (s.slot k).owner ∧
    t.slot k = { Slot.advance (s.slot k) s.tally.now with result := if s.sched.marked.getLsbD k then .missed else .done }) ∧
  (∀ (s : State) (k : Fin 256), s.nextDue = some k.val → (s.slot k).action = 9 → s.psq.pstate = .active ∨ s.psq.pstate = .idle ∨ s.psq.pstate = .keep →
    Answers (.sentinelRewrite k) s fun t => t.slot k = { Slot.advance (s.slot k) s.tally.now with
      result := if s.sched.marked.getLsbD k then .missed else .done })

/-- The commands of chapter 13. -/
def Obligations.DramBench : Prop :=
  (∀ (s : State) (c k a : Nat) (held : List DramArray), s.dramUp = true → s.benchRank a = some (c, k) → s.dram.injected = none →
    a / 64 ∉ s.dram.ceCache → s.dram.ceCache.length < 64 → (s.rank c k).window + 1 ≤ s.fld Reg.DRM_RETIRE 0 15 0 →
    Answers (.dramReadCe a held) s fun t => t.dram.ceCache = s.dram.ceCache ++ [a / 64] ∧
      t.rank c k = { s.rank c k with window := (s.rank c k).window + 1 }) ∧
  (∀ (s : State) (c k a : Nat) (held : List DramArray), s.dramUp = true → s.benchRank a = some (c, k) → s.dram.injected = none →
    a / 64 ∉ s.dram.ceCache → s.fld Reg.DRM_RETIRE 0 15 0 < (s.rank c k).window + 1 → (s.rank c k).st = .inService →
    s.rankIn c .copying = none → (∃ j : Fin 4, s.rankIn c .spare = some j.val) →
    Answers (.dramReadCe a held) s fun t => (t.rank c k).st = .copying) ∧
  (∀ (s : State) (a : Nat) (held : List DramArray), s.dramUp = true → a / 64 ∈ s.dram.ceCache →
    Answers (.dramReadCe a held) s fun t => t.dram = s.dram) ∧
  (∀ (s : State) (a : Nat), s.dramUp = true → a / 64 ∈ s.dram.ceCache → s.dram.injected = none → Answers (.ceCacheRewrite a) s fun t =>
    t.dram = { s.dram with ceCache := s.dram.ceCache.erase (a / 64) } ∧ t.out = .dram 2 (a / 64 * 64) :: s.out) ∧
  (∀ (s : State) (c k a : Nat) (owner : DramArray) (held : List DramArray), s.dramUp = true → s.benchRank a = some (c, k) →
    s.dram.injected = none → owner ≠ .mingaso → (s.rank c k).st = .inService → s.rankIn c .copying = none → (∃ j : Fin 4, s.rankIn c .spare = some j.val) →
    Answers (.dramUncorrectableError a owner held) s fun t => (t.rank c k).st = .copying) ∧
  (∀ (s : State) (c : Fin 8) (k : Fin 4), Answers (.ceWindowExpiry c k) s fun t => t.rank c k = { s.rank c k with window := 0 }) ∧
  (∀ (s : State) (c : Fin 8) (k j : Fin 4) (lost held : List DramArray), s.dram.st = .ready → s.rankIn c .copying = some k.val →
    s.rankIn c .spare = some j.val → (∀ a ∈ lost, a ≠ .mingaso) → (∀ w < 4, (s.rank c w).waiting = false) →
    Answers (.rankCopyDone c lost held) s fun t => t.rank c j = { st := .inService, set := (s.rank c k).set } ∧
      t.rank c k = { st := .retired, set := (s.rank c k).set }) ∧
  (∀ (s : State) (c : Fin 8) (k : Fin 4) (held : List DramArray), s.dramUp = true → Answers (.ddrAlertN c k false held) s fun t =>
    t.bit Reg.DRM_CH_CAUSE c 1 = true ∧ t.dram = s.dram ∧ ∃ l, t.out = .dram 6 c.val :: l) ∧
  (∀ (s : State) (c : Fin 8) (k : Fin 4) (held : List DramArray), s.dramUp = true → (s.rank c k).st = .inService →
    s.rankIn c .copying = none → (∃ j : Fin 4, s.rankIn c .spare = some j.val) → Answers (.ddrAlertN c k true held) s fun t =>
    (t.rank c k).st = .copying) ∧
  (∀ s : State, s.dramUp = true → s.bit Reg.DRM_CTRL 0 1 = true → Answers .dramScrubPass s fun t => t.bit Reg.DRM_CAUSE 0 11 = true ∧
    t.dram = { s.dram with scrubPct := 0, scrubEpoch := State.epochOf s.tally.now }) ∧
  (∀ s : State, s.dramUp = true → s.dram.sreq = none → Answers .drmSreqGo s fun t => t = { s with dram := { s.dram with sreq := some {} } }) ∧
  (∀ (s : State) (q : Scrub) (ce ue : Nat) (first : BitVec 64), s.dram.sreq = some q → ce < 2 ^ 32 → ue < 2 ^ 32 →
    Answers (.sreqDone ce ue first) s fun t => t.dram = { s.dram with sreq := none } ∧ t.bit Reg.DRM_CAUSE 0 12 = true ∧
      t.reg Reg.DRM_SREQ_CE 0 = BitVec.ofNat 32 ce ∧ t.reg Reg.DRM_SREQ_UE 0 = BitVec.ofNat 32 ue) ∧
  (∀ s : State, s.dram.burst = true → s.psq.pstate ≠ .keep → Answers .dramScrubBurstEnd s fun t => t = { s with dram := { s.dram with burst := false } }) ∧
  (∀ s : State, s.dram.burst = true → s.psq.pstate = .keep → Answers .dramScrubBurstEnd s fun t =>
    t.dram = { s.dram with burst := false, st := .selfRefresh } ∧ t.out = .dram 0 0 :: s.out) ∧
  (∀ (s : State) (a : Nat), s.dramUp = true → s.bit Reg.DRM_INJ_CTRL 0 0 = true →
    (s.reg64 Reg.DRM_INJ_ADDR_LO Reg.DRM_INJ_ADDR_HI).toNat / 64 = a / 64 → Answers (.dramInjectWrite a) s fun t =>
    t.dram.injected = some (a / 64, s.bit Reg.DRM_INJ_CTRL 0 9) ∧ t.bit Reg.DRM_INJ_CTRL 0 0 = false ∧ t.out = .dram 5 (a / 64 * 64) :: s.out) ∧
  (∀ (s : State) (a : Nat) (two : Bool), s.dramUp = true → s.bit Reg.DRM_INJ_CTRL 0 0 = false → s.dram.injected = some (a / 64, two) →
    Answers (.dramInjectWrite a) s fun t => t = { s with dram := { s.dram with injected := none } }) ∧
  (∀ (s : State) (d : Fin 16) (x : Nat), s.psq.mainUp = true → Answers (.dimmThermalPoll d (some x)) s fun t =>
    t.dram.hot.getLsbD d = decide (85 < x) ∧ Tab.get 0 t.dram.missed d = 0) ∧
  (∀ (s : State) (d : Fin 16), s.psq.mainUp = true → Tab.get 0 s.dram.missed d = 2 → Answers (.dimmThermalPoll d none) s fun t =>
    Tab.get 0 t.dram.missed d = 3 ∧ t.bit Reg.DRM_CH_CAUSE (d / 2) 2 = true) ∧
  (∀ s : State, s.psq.mainUp = true → s.mapBad ≠ 0 → Answers .drmMapCommit s fun t => t.fld Reg.DRM_MAP_COMMIT 0 1 1 = 1 ∧
    t.fld Reg.DRM_MAP_COMMIT 0 4 2 = s.mapBad ∧ t.dram = s.dram ∧ t.reg Reg.DRM_MAP_ACT 0 = s.reg Reg.DRM_MAP_ACT 0) ∧
  (∀ s : State, s.psq.mainUp = true → s.mapBad = 0 → Answers .drmMapCommit s fun t => t.dram.trained = [s.dram.speed] ∧
    (t.dram.st = .ready ∨ t.dram.st = .failed)) ∧
  (∀ s : State, s.psq.mainUp = true → s.dram.st = .switching → Answers .drmFreqSwitch s fun t => t.bit Reg.DRM_FREQ 0 1 = true ∧ t.dram = s.dram) ∧
  (∀ s : State, s.psq.mainUp = true → s.dram.st = .ready → s.fld Reg.DRM_TIM_SH 0 1 0 ≠ 3 →
    (∀ k < 15, s.fld Reg.DRM_TIM_SH (k + 1) 23 0 ≠ 0) → Answers .drmFreqSwitch s fun t => t.dram = { s.dram with
      st := .switching, prevSpeed := s.dram.speed, newTim := (List.range 16).map fun k => s.reg Reg.DRM_TIM_SH k } ∧
    t.bit Reg.DRM_FREQ 0 1 = false ∧ t.bit Reg.DRM_FREQ 0 2 = false) ∧
  (∀ s : State, s.dram.st = .switching → Answers (.freqSwitchDone true) s fun t => t.dram.st = .ready ∧
    t.dram.speed = bitsOf (s.dram.newTim.getD 0 0) 1 0 ∧ t.dram.newTim = []) ∧
  (∀ s : State, s.dram.st = .switching → Answers (.freqSwitchDone false) s fun t => t.dram = { s.dram with st := .ready, newTim := [] })

/-- The responses of the dies (R70 to R79, R85, R89, R115, R128, R154), each of which ends in a flit in order: `c` is the outstanding command of its tag.
A response of a tag that is not outstanding counts as flits received, and one out of order is NAKed. -/
def Obligations.QuarryAnswers : Prop :=
  (∀ (s : State) (n : Fin 144) (seq : BitVec 8) (c : QmiCmd), s.medUp = true → (s.qc n).lstate = .active → (s.qc n).offWait = false →
    (∀ f : BitVec 2400, State.inOrder (s.qc n) seq 76 = true →
      (s.qc n).sent.find? (fun x => x.tag == c.tag && (x.op == .read || x.op == .marginRead)) = some c →
      Answers (.qmiFrameResponse n seq c.tag f) s fun t => t = ((s.taken n c seq).frameOut n c.nextLine (hardDecode f)).answerEnd n) ∧
    (∀ a b d : BitVec 2400, State.inOrder (s.qc n) seq 226 = true → (s.qc n).sent.find? (fun x => x.tag == c.tag && x.op == .softRead) = some c →
      Answers (.qmiSoftResponse n seq c.tag a b d) s fun t => t = ((s.taken n c seq).softOut n c.nextLine (softDecode a b d)).answerEnd n) ∧
    (State.inOrder (s.qc n) seq 34 = true → (s.qc n).sent.find? (fun x => x.tag == c.tag && x.op == .identify) = some c →
      Answers (.qmiInfoResponse n seq c.tag (.identify false)) s fun t => ∃ u : State,
        u = (s.taken n c seq).failDie (n * 16 + c.die) ∧ (u.die (n * 16 + c.die)).failed = true ∧ t = u.answerEnd n) ∧
    (State.inOrder (s.qc n) seq 34 = true → (s.qc n).sent.find? (fun x => x.tag == c.tag && x.op == .identify) = some c →
      (s.die (n * 16 + c.die)).identified = true →
      Answers (.qmiInfoResponse n seq c.tag (.identify true)) s fun t => t = (s.taken n c seq).answerEnd n) ∧
    (State.inOrder (s.qc n) seq 34 = true → (s.qc n).sent.find? (fun x => x.tag == c.tag && x.op == .identify) = some c →
      (s.die (n * 16 + c.die)).identified = false → Answers (.qmiInfoResponse n seq c.tag (.identify true)) s fun t => ∃ u : State,
        u = (s.taken n c seq).dieIdentified (n * 16 + c.die) true ∧ (u.die (n * 16 + c.die)).identified = true ∧
        (u.die (n * 16 + c.die)).failed = false ∧ (u.die (n * 16 + c.die)).used = true ∧ t = u.answerEnd n) ∧
    (∀ es : List LogEntry, State.inOrder (s.qc n) seq 130 = true →
      (s.qc n).sent.find? (fun x => x.tag == c.tag && x.op == .completionLog) = some c →
      Answers (.qmiInfoResponse n seq c.tag (.log es)) s fun t => t = ((s.taken n c seq).takeLog n c.die es).answerEnd n) ∧
    (State.inOrder (s.qc n) seq 2 = true → (s.qc n).sent.find? (fun x => x.tag == c.tag && true) = some c → c.isSense = true →
      Answers (.qmiErrorResponse n seq c.tag .refUnset) s fun t =>
        t = (((s.taken n c seq).loadSets (n * 16 + c.die)).issue (n * 16 + c.die) c.nextLine).answerEnd n) ∧
    (State.inOrder (s.qc n) seq 2 = true → (s.qc n).sent.find? (fun x => x.tag == c.tag && true) = some c →
      Answers (.qmiErrorResponse n seq c.tag .dieFault) s fun t => ∃ u : State,
        u = ((s.taken n c seq).undo n c.nextLine).failDie (n * 16 + c.die) ∧ (u.die (n * 16 + c.die)).failed = true ∧
        t = u.drainLostDies.answerEnd n) ∧
    (State.inOrder (s.qc n) seq 3 = true → (s.qc n).sent.find? (fun x => x.tag == c.tag && (x.op == .setRef || x.op == .setZoneMode)) = some c →
      c.op = .setRef → (s.die (n * 16 + c.die)).loads = 1 → Answers (.qmiSetRefDone n seq c.tag .ok) s fun t => ∃ u : State,
        u = (s.taken n c seq).setLoaded (n * 16 + c.die) ∧ (u.die (n * 16 + c.die)).tables = true ∧ t = u.answerEnd n) ∧
    (State.inOrder (s.qc n) seq 3 = true → (s.qc n).sent.find? (fun x => x.tag == c.tag && (x.op == .setRef || x.op == .setZoneMode)) = some c →
      c.op = .setRef → 1 < (s.die (n * 16 + c.die)).loads → Answers (.qmiSetRefDone n seq c.tag .ok) s fun t =>
        t = ((s.taken n c seq).setDie (n * 16 + c.die) { s.die (n * 16 + c.die) with loads := (s.die (n * 16 + c.die)).loads - 1 }).answerEnd n) ∧
    (State.inOrder (s.qc n) seq 3 = true → (s.qc n).sent.find? (fun x => x.tag == c.tag && (x.op == .setRef || x.op == .setZoneMode)) = some c →
      c.op = .setRef → (s.die (n * 16 + c.die)).loads = 0 → Answers (.qmiSetRefDone n seq c.tag .ok) s fun t =>
        t = ((s.taken n c seq).setDie (n * 16 + c.die) (s.die (n * 16 + c.die))).answerEnd n) ∧
    (State.inOrder (s.qc n) seq 3 = true → (s.qc n).sent.find? (fun x => x.tag == c.tag && (x.op == .setRef || x.op == .setZoneMode)) = some c →
      c.op = .setZoneMode → Answers (.qmiSetRefDone n seq c.tag .partitionBusy) s fun t =>
        t = ((s.taken n c seq).issue (n * 16 + c.die) c.nextLine).answerEnd n) ∧
    (State.inOrder (s.qc n) seq 3 = true → (s.qc n).sent.find? (fun x => x.tag == c.tag && x.op == .dieReset) = some c → c.op = .dieReset →
      Answers (.qmiDieResetDone n seq c.tag) s fun t => ∃ u : State,
        u = (s.taken n c seq).setDie (n * 16 + c.die) { s.die (n * 16 + c.die) with tables := false } ∧
        t = (u.loadSets (n * 16 + c.die)).answerEnd n) ∧
    (∀ (i : DoneInfo) (x : Nat), State.inOrder (s.qc n) seq 3 = true →
      (s.qc n).sent.find? (fun y => y.tag == c.tag && y.op == .program) = some c → c.op = .program →
      c.user = .writeBack x → i.status = .ok → Answers (.programDone n seq c.tag i) s fun t => ∃ u v : State, u = s.taken n c seq ∧
        v = u.programVerified { die := n * 16 + c.die, zone := c.zone, slot := c.slot } c.nextLine i ∧
        t = (if (u.sett (lineSett x)).phys.isNone && (v.sett (lineSett x)).phys.isSome then v.spareNow else v).answerEnd n) ∧
    (∀ (i : DoneInfo), State.inOrder (s.qc n) seq 3 = true → (s.qc n).sent.find? (fun y => y.tag == c.tag && y.op == .program) = some c →
      c.op = .program → i.status = .dieFault → Answers (.programDone n seq c.tag i) s fun t => ∃ u : State,
        u = ((s.taken n c seq).undo n c.nextLine).failDie (n * 16 + c.die) ∧ (u.die (n * 16 + c.die)).failed = true ∧
        t = u.drainLostDies.answerEnd n)) ∧
  (∀ (s : State) (n : Fin 144) (tag : BitVec 10) (f a b : BitVec 2400) (d : InfoData) (e : DieStatus) (i : DoneInfo),
    s.medUp = true → (s.qc n).lstate = .active → (∀ c ∈ (s.qc n).sent, c.tag ≠ tag) →
    Answers (.qmiFrameResponse n (s.qc n).rxSeq tag f) s (· = s.received n (s.qc n).rxSeq) ∧
    Answers (.qmiSoftResponse n (s.qc n).rxSeq tag f a b) s (· = s.received n (s.qc n).rxSeq) ∧
    Answers (.qmiInfoResponse n (s.qc n).rxSeq tag d) s (· = s.received n (s.qc n).rxSeq) ∧
    Answers (.qmiErrorResponse n (s.qc n).rxSeq tag e) s (· = s.received n (s.qc n).rxSeq) ∧
    Answers (.qmiSetRefDone n (s.qc n).rxSeq tag e) s (· = s.received n (s.qc n).rxSeq) ∧
    Answers (.qmiDieResetDone n (s.qc n).rxSeq tag) s (· = s.received n (s.qc n).rxSeq) ∧
    Answers (.programDone n (s.qc n).rxSeq tag i) s (· = s.received n (s.qc n).rxSeq)) ∧
  (∀ (s : State) (n : Fin 144) (seq : BitVec 8) (tag : BitVec 10) (f : BitVec 2400) (i : DoneInfo), s.medUp = true → (s.qc n).lstate = .active →
    (s.qc n).nak = false → 6 < (seq + 1 - (s.qc n).rxSeq).toNat →
    Answers (.qmiFrameResponse n seq tag f) s (fun t => t.qc n = { s.qc n with nak := true, rxOwed := 0 } ∧
      t.out = .qmiLctl n (.nak ((s.qc n).rxSeq - 1)) :: s.out) ∧
    Answers (.programDone n seq tag i) s (fun t => t.qc n = { s.qc n with nak := true, rxOwed := 0 } ∧
      t.out = .qmiLctl n (.nak ((s.qc n).rxSeq - 1)) :: s.out))

/-- The lanes' link control and recovery. -/
def Obligations.QuarryLinks : Prop :=
  (∀ (s : State) (n : Fin 144) (q : BitVec 8), s.laneUp n = true → (q - (s.qc n).ackSeq).toNat + 1 ≤ (s.qc n).unacked →
    Answers (.qmiAckReceived n q) s fun t => ∃ u : State, u = s.setQc n { s.qc n with
        ackSeq := q + 1, unacked := (s.qc n).unacked - ((q - (s.qc n).ackSeq).toNat + 1)
        replays := if ((s.qc n).replayFrom - (s.qc n).ackSeq).toNat < (q - (s.qc n).ackSeq).toNat + 1 then 0 else (s.qc n).replays } ∧ t = u.pump n) ∧
  (∀ (s : State) (n : Fin 144) (q : BitVec 8), s.laneUp n = true → (q - (s.qc n).ackSeq).toNat + 1 ≤ (s.qc n).unacked →
    (s.qc n).replays = 0 → 1 < s.fld Reg.QC_ERR_CFG n 19 16 → Answers (.qmiNakReceived n q) s fun t => (t.qc n).ackSeq = q + 1 ∧
      (t.qc n).replayFrom = q + 1 ∧ (t.qc n).replays = 1 ∧ (t.qc n).lstate = (s.qc n).lstate ∧ t.out = .qmiReplay n (q + 1) :: s.out) ∧
  (∀ (s : State) (n : Fin 144), s.laneUp n = true → 0 < (s.qc n).unacked → (s.qc n).replays = 0 → 1 < s.fld Reg.QC_ERR_CFG n 19 16 →
    Answers (.qmiReplayTimeout n) s fun t => t.qc n = { s.qc n with replayFrom := (s.qc n).ackSeq, replays := 1 } ∧
      t.out = .qmiReplay n (s.qc n).ackSeq :: s.out) ∧
  (∀ (s : State) (n : Fin 144), s.laneUp n = true → 0 < (s.qc n).unacked → (s.qc n).replays ≠ 0 → (s.qc n).replayFrom = (s.qc n).ackSeq →
    s.fld Reg.QC_ERR_CFG n 19 16 ≤ (s.qc n).replays + 1 → Answers (.qmiReplayTimeout n) s fun t => ∃ u : State,
      Keeps [.regs, .med, .out] s u ∧ (∀ m : Fin 144, m ≠ n → u.qc m = s.qc m) ∧ u.qc n = { s.qc n with
        replayFrom := (s.qc n).ackSeq, replays := 0, exhBit := true, lstate := .recovery, soft := false
        recovery := some (if s.fld Reg.QC_ERR_CFG n 21 20 = 0 then .full else .fast 0)
        unacked := if s.fld Reg.QC_ERR_CFG n 21 20 = 0 then 0 else (s.qc n).unacked } ∧
      u.out = .qmiRetrain n (s.fld Reg.QC_ERR_CFG n 21 20 == 0) :: .qmiReplay n (s.qc n).ackSeq :: s.out ∧ t = u.channelLeaves n) ∧
  (∀ (s : State) (n : Fin 144) (d : Fin 16) (f : BitVec 8), s.laneUp n = true → Answers (.qmiCreditReceived n d f) s fun t => ∃ u : State,
    u = s.setDie (n.val * 16 + d.val) { s.die (n.val * 16 + d.val) with freed := f } ∧ t = u.pump n) ∧
  (∀ (s : State) (n : Fin 144), s.psq.mainUp = true → s.psq.pstate = .idle → (s.qc n).lstate = .active → (s.qc n).queue = [] → (s.qc n).unacked = 0 →
    Answers (.qmiSleepReceived n) s fun t => t.qc n = { s.qc n with lstate := .sleep } ∧ t.out = .qmiLctl n .sleep :: s.out) ∧
  (∀ (s : State) (n : Fin 144), s.psq.pstate ≠ .idle → Answers (.qmiSleepReceived n) s (· = s)) ∧
  (∀ (s : State) (n : Fin 144) (f : BitVec 544), s.laneUp n = true → flitBad f = true → (s.qc n).nak = false → 1 < s.fld Reg.QC_ERR_CFG n 7 0 →
    Answers (.qmiCrcFailure n true f) s fun t =>
      t.qc n = { s.qc n with nak := true, rxOwed := 0, storm := 1, stormBit := false, stormAt := s.tally.now } ∧
      t.fld Reg.QC_ERR_CNT n 15 0 = min (s.fld Reg.QC_ERR_CNT n 15 0 + 1) 65535) ∧
  (∀ (s : State) (n : Fin 144) (f : BitVec 544), s.laneUp n = true → flitBad f = true → s.fld Reg.QC_ERR_CFG n 7 0 ≤ (s.qc n).storm + 1 →
    Answers (.qmiCrcFailure n false f) s fun t =>
      ∃ u : State, Keeps [.regs, .med, .out] s u ∧ u.fld Reg.QC_ERR_CNT n 15 0 = min (s.fld Reg.QC_ERR_CNT n 15 0 + 1) 65535 ∧
        (∀ m : Fin 144, m ≠ n → u.qc m = s.qc m) ∧ u.qc n = { s.qc n with
          storm := (s.qc n).storm + 1, stormBit := true, nak := true, rxOwed := if (s.qc n).nak then (s.qc n).rxOwed else 0
          lstate := .recovery, soft := false, replays := 0
          recovery := some (if s.fld Reg.QC_ERR_CFG n 21 20 = 0 then .full else .fast 0)
          unacked := if s.fld Reg.QC_ERR_CFG n 21 20 = 0 then 0 else (s.qc n).unacked } ∧
        u.out = .qmiRetrain n (s.fld Reg.QC_ERR_CFG n 21 20 == 0) ::
          ((if (s.qc n).nak then [] else [.qmiLctl n (.nak ((s.qc n).rxSeq - 1))]) ++ s.out) ∧ t = u.channelLeaves n) ∧
  (∀ (s : State) (n : Fin 144) (w : Bool) (f : BitVec 544), s.laneUp n = true → flitBad f = false → flitKind f = 1 →
    flitSeq f ≠ (s.qc n).rxSeq → (s.qc n).nak = false → Answers (.qmiCrcFailure n w f) s fun t => t.regs = s.regs ∧
      t.qc n = { s.qc n with nak := true, rxOwed := 0 } ∧ t.out = .qmiLctl n (.nak ((s.qc n).rxSeq - 1)) :: s.out) ∧
  (∀ (s : State) (n : Fin 144), s.laneUp n = true → 0 < (s.qc n).rxOwed → Answers (.qmiAckTimer n) s fun t =>
    t.qc n = { s.qc n with rxOwed := 0 } ∧ t.out = .qmiLctl n (.ack ((s.qc n).rxSeq - 1)) :: s.out) ∧
  (∀ (s : State) (n : Fin 144), s.laneUp n = true → Answers (.qmiLctlRefresh n) s fun t => t.med = s.med ∧
    t.out = (if (s.qc n).nak then [.qmiLctl n (.nak ((s.qc n).rxSeq - 1))] else []) ++ .qmiLctl n (.ack ((s.qc n).rxSeq - 1)) :: s.out) ∧
  (∀ (s : State) (n : Fin 144), s.medUp = true → (s.qc n).lstate = .detect ∨ (s.qc n).lstate = .train → Answers (.qmiLctlRefresh n) s fun t =>
    t.qc n = { s.qc n with lstate := .train } ∧ t.out = .qmiLctl n .train :: s.out) ∧
  (∀ (s : State) (n : Fin 144) (k : Nat), s.medUp = true → (s.qc n).recovery = some (.fast k) → Answers (.fastRetrainDone n true) s fun t =>
    ∃ u : State, u = ((s.bump Reg.QC_RETRAINS n 7 0).setQc n { s.qc n with
        lstate := .active, recovery := none, soft := false, exhBit := false, storm := 0, replays := 0, nak := false, rxOwed := 0 }).emit
      (.qmiReplay n (s.qc n).ackSeq) ∧ t = u.channelBack n) ∧
  (∀ (s : State) (n : Fin 144) (k : Nat), s.medUp = true → (s.qc n).recovery = some (.fast k) → Answers (.fastRetrainDone n false) s fun t =>
    (t.qc n).lstate = (s.qc n).lstate ∧
    (t.qc n).recovery = some (if k + 1 < s.fld Reg.QC_ERR_CFG n 21 20 then .fast (k + 1) else .full) ∧
    t.out = .qmiRetrain n (!decide (k + 1 < s.fld Reg.QC_ERR_CFG n 21 20)) :: s.out) ∧
  (∀ (s : State) (n : Fin 144), s.medUp = true → (s.qc n).recovery = some .full → Answers (.fullRetrainDone n true) s fun t => ∃ u : State,
    u = (s.bump Reg.QC_RETRAINS n 15 8).setQc n { s.qc n with
      lstate := .active, recovery := none, soft := false, exhBit := false, storm := 0, replays := 0, nak := false, rxOwed := 0, unacked := 0 } ∧
    t = (u.askLogs n true).channelBack n) ∧
  (∀ (s : State) (n : Fin 144), s.medUp = true → (s.qc n).recovery = some .full → Answers (.fullRetrainDone n false) s fun t => ∃ u : State,
    u = (s.bump Reg.QC_RETRAINS n 15 8).setQc n { s.qc n with
      lstate := .down, recovery := none, soft := false, stormBit := false, exhBit := false } ∧
    t = ((u.chanDies n).foldl (fun s d => s.failDie d) u).channelLeaves n) ∧
  (∀ (s : State) (n : Fin 144), s.psq.mainUp = true → (s.qc n).lstate = .active → s.fld Reg.QC_ERR_CFG n 21 20 ≠ 0 →
    Answers (.qcFastRetrain n) s fun t => ∃ u : State, u = (s.setQc n { s.qc n with
        lstate := .recovery, recovery := some (.fast 0), soft := true, replays := 0 }).emit (.qmiRetrain n false) ∧ t = u.channelLeaves n) ∧
  (∀ (s : State) (n : Fin 144), s.psq.mainUp = true → (s.qc n).lstate = .active → Answers (.qcFullRetrain n) s fun t => ∃ u : State,
    u = (s.setQc n { s.qc n with lstate := .recovery, recovery := some .full, soft := true, unacked := 0, replays := 0 }).emit (.qmiRetrain n true) ∧
      t = u.channelLeaves n) ∧
  (∀ (s : State) (n : Fin 144), (s.qc n).lstate ≠ .active → Answers (.qcFastRetrain n) s (· = s) ∧ Answers (.qcFullRetrain n) s (· = s)) ∧
  (∀ (s : State) (n : Fin 144), s.psq.mainUp = true → (s.qc n).offline = false → Answers (.qcOffline n) s fun t => ∃ u : State,
    u = (s.setBit Reg.QC_CTRL n 3 true).setQc n { s.qc n with
      lstate := .off, offline := true, offWait := !(s.qc n).sent.isEmpty, recovery := none, soft := false, stormBit := false, exhBit := false } ∧
      t = u.channelLeaves n) ∧
  (∀ (s : State) (n : Fin 144), s.psq.mainUp = true → (s.qc n).offWait = true → Answers (.qcOfflineTimeout n) s fun t =>
    t.qc n = { s.qc n with offWait := false, orphans := (s.qc n).orphans ++ (s.qc n).sent, sent := [], unacked := 0 } ∧ t.out = s.out) ∧
  (∀ (s : State) (n : Fin 144), s.medUp = true → (s.qc n).lstate = .active → (∀ d ∈ s.chanDies n, (s.die d).identified = true) →
    Answers (.qcEn n) s fun t => ∃ u : State, u = s.setBit Reg.QC_CTRL n 0 true ∧ t = u.channelBack n)

/-- Bring-up and the sideband (R80 to R85, R166). -/
def Obligations.QuarryGroups : Prop :=
  (∀ (s : State) (n : Fin 144) (pkg : Bool) (seen : BitVec 32) (d : List Byte) (k : Nat), s.medUp = true → (s.qg (n / 16)).railsUp = true →
    (s.qg (n / 16)).invBad = false → s.bit Reg.QG_CTRL (n / 16) 0 = true → s.bit Reg.QG_CTRL (n / 16) 1 = false →
    State.placeMissing seen = none → descCheck d = some k →
    Answers (.packageReady n pkg seen d) s fun t => t.qg (n / 16) = { s.qg (n / 16) with
      sbOk := true, seen := seen, invBad := true, inService := false, badChan := BitVec.ofNat 4 n, badPkg := pkg, badCheck := BitVec.ofNat 5 k }) ∧
  (∀ (s : State) (n : Fin 144) (pkg second : Bool) (seen : BitVec 32) (d : List Byte) (k : Nat), s.medUp = true → (s.qg (n / 16)).railsUp = true →
    (s.qg (n / 16)).invBad = false → s.bit Reg.QG_CTRL (n / 16) 0 = true → s.bit Reg.QG_CTRL (n / 16) 1 = false →
    State.placeMissing seen = some (k, second) →
    Answers (.packageReady n pkg seen d) s fun t => t.qg (n / 16) = { s.qg (n / 16) with
      sbOk := true, seen := seen, invBad := true, inService := false, badChan := BitVec.ofNat 4 k, badPkg := second, badCheck := 1 }) ∧
  (∀ (s : State) (n : Fin 144) (seen : BitVec 32) (d : List Byte), s.medUp = true → (s.qg (n / 16)).railsUp = true → (s.qg (n / 16)).invBad = false →
    s.bit Reg.QG_CTRL (n / 16) 0 = true → s.bit Reg.QG_CTRL (n / 16) 1 = false → State.placeMissing seen = none → descCheck d = none →
    descByte d 0x0A = 1 → (s.qc n).lstate = .off → (s.qc n).offline = false → (s.qc n).pkg1 = 0 → (s.qc n).ready1 = false →
    (∀ k < 16, (s.qc (n / 16 * 16 + k)).pkg0 = 0 ∨ (s.qc (n / 16 * 16 + k)).pkg0 = if descByte d 1 = 4 then 1 else 2) →
    Answers (.packageReady n false seen d) s fun t => (t.qc n).lstate = (if seen.getLsbD (packageIndex n true) then .off else .detect) ∧
      (t.qc n).ready0 = true ∧ (t.qc n).pkg0 = (if descByte d 1 = 4 then 1 else 2) ∧ (t.qg (n / 16)).sbOk = true ∧
      (t.qg (n / 16)).seen = seen ∧ (t.qg (n / 16)).invBad = false) ∧
  (∀ (s : State) (n : Fin 144) (ids : BitVec 16), s.medUp = true → (s.qg (n / 16)).railsUp = true → (s.qg (n / 16)).invBad = false →
    (s.qc n).lstate = .detect ∨ (s.qc n).lstate = .train → Answers (.channelTrained n ids) s fun t => ∃ u v w : State,
      Keeps [.med, .out] s u ∧ (∃ x : BitVec 16, (∀ k : Fin 16, x.getLsbD k = (ids.getLsbD k && (s.chanDies n).contains (n.val * 16 + k.val))) ∧
        u.qc n = { s.qc n with lstate := .active, eqValid := true, dieOk := x, unacked := 0, replays := 0, nak := false, rxOwed := 0 }) ∧
      u.out = (((s.chanDies n).map fun d => Out.qmi n { op := .identify, die := Fin.ofNat 16 d }).reverse ++ s.out) ∧
      v = (s.chanDies n).foldl (fun s d => s.dieIdentified d (ids.getLsbD (d % 16))) u ∧ w = v.groupServes (n / 16) ∧
      t = ((if (w.qc n).orphans.isEmpty then w else w.askLogs n false).judgeQg (n / 16)).channelBack n) ∧
  (∀ (s : State) (g : Fin 9) (temps : List (Option Int)) (i : Nat) (x : Int), s.psq.pstate = .active → s.psq.mainUp = true → (s.qg g).railsUp = true →
    s.bit Reg.QG_CTRL g 0 = true → s.bit Reg.QG_CTRL g 1 = false → i < 32 → temps.getD i none = some x →
    (if i % 2 = 1 then (s.qc (16 * g.val + i / 2)).pkg1 else (s.qc (16 * g.val + i / 2)).pkg0) ≠ 0 →
    Answers (.sidebandTempPoll g temps) s fun t => Tab.get {} (t.qg g).packages i = { temp := x, missed := 0 }) ∧
  (∀ (s : State) (g : Fin 9) (temps : List (Option Int)) (i : Nat), s.psq.pstate = .active → s.psq.mainUp = true → (s.qg g).railsUp = true →
    s.bit Reg.QG_CTRL g 0 = true → s.bit Reg.QG_CTRL g 1 = false → i < 32 → temps.getD i none = none →
    (if i % 2 = 1 then (s.qc (16 * g.val + i / 2)).pkg1 else (s.qc (16 * g.val + i / 2)).pkg0) ≠ 0 → (Tab.get {} (s.qg g).packages i).missed = 2 →
    Answers (.sidebandTempPoll g temps) s fun t => (Tab.get {} (t.qg g).packages i).missed = 3 ∧ (t.qg g).sbOk = false ∧ (t.qg g).overtemp = true) ∧
  (∀ (s : State) (g : Fin 9), s.medUp = true → (s.qg g).railsUp = true → Answers (.sidebandStuckTimeout g) s fun t =>
    t.qg g = { s.qg g with sbOk := false, overtemp := true }) ∧
  (∀ (s : State) (g : Fin 9) (pkg : Fin 32) (x : Byte), s.medUp = true → (s.qg g).railsUp = true → (s.qg g).alert = false →
    Answers (.qgAlert g true pkg x) s fun t => t.qg g = { s.qg g with alert := true, alertPkg := pkg, alertStatus := x }) ∧
  (∀ (s : State) (g : Fin 9) (pkg : Fin 32) (x : Byte), s.medUp = true → (s.qg g).railsUp = true → Answers (.qgAlert g false pkg x) s fun t =>
    t.qg g = { s.qg g with alert := false })

/-- Teasel, Eyebright and Yarrow. -/
def Obligations.TeaselAndYarrow : Prop :=
  (∀ (s : State) (d : Fin 2304), s.medUp = true → s.bit Reg.TSL_CTRL 0 0 = true → s.dieUp d = true → Answers (.teaselBlanking d) s fun t =>
    (t.die d).blankLow = (t.openModes d).any fun m => t.blankShort d m) ∧
  (∀ (s : State) (g : Fin 9), s.medUp = true → s.passEnded g = true → Answers (.teaselPassComplete g) s fun t =>
    t.pass g = { s.pass g with running := false, late := false, lastDone := BitVec.ofNat 20 s.nowEpoch }) ∧
  (∀ s : State, s.psq.mainUp = true → Answers .tslPassNow s fun t => t = ((List.range 9).foldl (fun s g => s.passNow g) s).settleMed) ∧
  (∀ (s : State) (g : Fin 9) (levels : List (Nat × List Sample)), s.medUp = true → (s.qg g).railsUp = true → (s.qg g).compare = false →
    Answers (.eyebrightPowerupCompare g levels) s fun t => t.med.eyb = .idle ∧ (∀ d ∈ s.groupDies g, (t.die d).calDue = true) ∧
      ∀ d ∉ s.groupDies g, t.die d = s.die d) ∧
  (∀ (s : State) (g : Fin 9) (levels : List (Nat × List Sample)), s.medUp = true → (s.qg g).railsUp = true → (s.qg g).compare = true →
    Answers (.eyebrightPowerupCompare g levels) s fun t => ∃ u : State, u = s.setQg g { s.qg g with compare := false } ∧
      t = (u.powerupCompare g levels).settleMed) ∧
  (∀ (s : State) (d : Fin 2304) (ss : List Sample) (fs : List FitLine), s.medUp = true → s.dieUp d = true → s.calFit d ss = some fs →
    Answers (.eyebrightCalibration d ss) s fun t => ∃ u : State, u = s.setDie d { s.die d with
        fits := fitsPut (s.die d).fits fs, fitted := true, fitOk := true, calEpoch := BitVec.ofNat 20 s.nowEpoch, calDue := false } ∧
      t = ((u.vaultPut 2 (.calib d s.nowEpoch)).loadSets d).judgeEyb) ∧
  (∀ (s : State) (d : Fin 2304) (ss : List Sample), s.medUp = true → s.dieUp d = true → s.calFit d ss = none →
    Answers (.eyebrightCalibration d ss) s fun t => ∃ u : State, u = s.setDie d { s.die d with fitOk := false, first := true, calDue := false } ∧
      t = ((u.vaultPut 2 (.calib d s.nowEpoch)).loadSets d).judgeEyb) ∧
  (∀ s : State, s.psq.mainUp = true → s.fld Reg.EYB_DIE_SEL 0 11 0 ≤ 2303 → s.dieUp (s.fld Reg.EYB_DIE_SEL 0 11 0) = true → Answers .eybSweep s fun t =>
    (t.die (s.fld Reg.EYB_DIE_SEL 0 11 0)).sweep = true) ∧
  (∀ s : State, s.psq.mainUp = true → s.dieUp (s.fld Reg.EYB_DIE_SEL 0 11 0) = false → Answers .eybSweep s (· = s)) ∧
  (∀ (s : State) (d : Fin 2304) (ss : List Sample), s.medUp = true → (s.die d).sweep = true → Answers (.fullSweepDone d ss) s fun t =>
    ∃ u : State, u = s.setDie d { s.die d with sweep := false } ∧ t = ((u.calibrated d ss).tryOpen).settleMed) ∧
  (∀ (s u : State) (n : Nat), s.psq.mainUp = true → (s.med.yarrow.queue.find? fun w => w.lsett == n && w.kind == .remap) = some { lsett := n, kind := .remap } →
    s.satisfied { lsett := n, kind := .remap } = false → s.startWork { lsett := n, kind := .remap } = some u →
    Answers (.emergencyRemapStart n) s fun t => t = u.settleMed) ∧
  (∀ (s : State) (n : Nat) (m : Move), s.medUp = true → s.move n = some m → m.verified ≠ BitVec.allOnes 256 → Answers (.moveCommit n) s (· = s)) ∧
  (∀ (s : State) (n : Nat) (m : Move), s.medUp = true → s.move n = some m → m.verified = BitVec.allOnes 256 → s.jFull = false → m.kind = .refresh →
    m.dest = none → (s.sett n).phys = none → Answers (.moveCommit n) s fun t =>
    t = (((((((s.moveCommit n).setScb n none).satisfyWork n).convCheck n).retireZones.spareNow).judgeOccupancy).writeDeadline).settleMed) ∧
  (∀ (s u : State), s.medUp = true → (s.dropSatisfied.workOrder.findSome? fun w => s.dropSatisfied.startWork w) = some u →
    Answers .yarrowWorkDispatch s fun t => t = u.judgeShort.settleMed) ∧
  (∀ s : State, s.medUp = true → (s.dropSatisfied.workOrder.findSome? fun w => s.dropSatisfied.startWork w) = none →
    Answers .yarrowWorkDispatch s fun t => t = s.dropSatisfied.judgeShort.settleMed) ∧
  (∀ (s : State) (n : Fin 144), s.psq.mainUp = true → Answers (.wearScan n) s fun t => ∃ l : List Work,
    t = { s.setYrw { s.med.yarrow with queue := s.med.yarrow.queue ++ l } with flash := t.flash } ∧ ∀ w ∈ l, ∃ p q, w.kind = .wear p q) ∧
  (∀ s : State, s.psq.mainUp = true → Answers .spareRecompute s fun t => t = s.retireZones.spareNow ∧
    t.med.yarrow.cap = State.capOf (s.retireZones.spareUnits 0) s.retireZones.userUnits) ∧
  (∀ (s : State) (n : Nat), s.psq.mainUp = true → s.youngOf n ≠ [] → Answers (.youngSweep n) s fun t => ∃ (u : State) (band : Bool),
    s.youngSweep n = (u, band) ∧ (u.youngOf n).length ≤ (s.youngOf n).length ∧
      t = ((if band then ((u.journalYoung n (s.youngOf n)).journal (.entry n)).journal (.bandOfs n)
        else (u.journalYoung n (s.youngOf n)).journal (.entry n)).judgeOccupancy).settleMed)

/-- The commands of group 0x01xx (R340 to R361, R41, R42). -/
def Obligations.ChannelCommands : Prop :=
  (∀ (s w : State) (r : AzReq), s.Takes w r 0x0101 → r.params.length = 0 → Answers (.identify r) s fun t => w.Answered t r .ok
    ((List.range 4).map (fun k => Config.otpWord (0x024 + k)) ++ [Config.otpWord 0x020 &&& 0xFFFFFF#32, Config.otpWord 0x021,
      w.flash.runVersion, w.flash.runCompat.setWidth 32, BitVec.ofNat 32 w.life.code,
      wordOf [r.chan.val, at_ 8 (secureChan r.chan).toNat,
        at_ 9 (if secureChan r.chan then (if r.chan.val = 0 then 0x7F else (w.chan r.chan).rights.toNat) else 0)]])) ∧
  (∀ (s w : State) (r : AzReq), s.Takes w r 0x0102 → r.params.length = 0 → Answers (.deviceStatus r) s fun t => w.Answered t r .ok
    [BitVec.ofNat 32 w.psq.pstate.code, w.pbfStatus, w.tdmStatus, w.yrwSpare, tlyStatus w.tally]) ∧
  (∀ (s w : State) (r : AzReq), s.Takes w r 0x0103 → s.hasRight r.chan .admin = true → r.params.length = 2 → 8 ≤ r.n 0 → r.n 0 ≤ 63 →
    r.n 1 < 256 → r.n 1 % 4 ≠ 3 → w.sec.trngFail = false → Answers (.channelAssign r) s fun t => ∃ who u,
    who = (if r.n 1 % 4 = 1 then Principal.cxl (Fin.ofNat 4 (r.n 1 / 4)) (Fin.ofNat 16 (r.n 1 / 16)) else if r.n 1 % 4 = 2 then .rdma else .none) ∧
      u = w.reassign (r.n 0) who ∧
      u.Answered t r .ok ((u.chan (r.n 0)).session :: if r.n 1 % 4 = 2 then [(u.chan (r.n 0)).token] else [])) ∧
  (∀ (s w : State) (r : AzReq), s.Takes w r 0x0104 → (r.n 0 % 64 = r.chan.val ∨ s.hasRight r.chan .admin = true) → r.params.length = 1 →
    r.n 0 / 64 % 4 = 0 → r.n 0 < 512 → (w.chan (r.n 0 % 64)).ops = [] → (w.chan (r.n 0 % 64)).bell = false →
    ((w.chan (r.n 0 % 64)).lgo = false ∨ r.n 0 % 64 = r.chan.val ∧ r.via = .legacy) → Answers (.channelMode r) s fun t => ∃ v, w.Answered v r .ok [] ∧
    t = (v.setChan (r.n 0 % 64) { v.chan (r.n 0 % 64) with legacy := (r.p 0).getLsbD 8 }).chanSave (r.n 0 % 64)) ∧
  (∀ (s w : State) (r : AzReq), s.Takes w r 0x0105 → r.params.length = 1 → r.n 0 < 65536 →
    ((w.chan r.chan).ops.any fun o => o.tag == (r.p 0).setWidth 16) = true → Answers (.cmdStatus r) s fun t => w.Answered t r .ok [1]) ∧
  (∀ (s w : State) (r : AzReq) (d : FinalReply), s.Takes w r 0x0105 → r.params.length = 1 → r.n 0 < 65536 →
    ((w.chan r.chan).ops.any fun o => o.tag == (r.p 0).setWidth 16) = false →
    ((w.chan r.chan).done.find? fun o => o.tag == (r.p 0).setWidth 16) = some d → (r.via = .legacy → d.words.length ≤ 13) →
    Answers (.cmdStatus r) s fun t => w.Answered t r .ok (2 :: d.words.take 61)) ∧
  (∀ (s w : State) (r : AzReq), s.Takes w r 0x0105 → r.params.length = 1 → r.n 0 < 65536 →
    ((w.chan r.chan).ops.any fun o => o.tag == (r.p 0).setWidth 16) = false →
    ((w.chan r.chan).done.find? fun o => o.tag == (r.p 0).setWidth 16) = none → Answers (.cmdStatus r) s fun t => w.Answered t r .ok [0]) ∧
  (∀ (s w : State) (r : AzReq), s.Takes w r 0x0106 → (secureChan r.chan = true ∨ s.routeAllowed r.chan (r.n 0) (r.p 1) = true) →
    r.params.length = 2 → r.n 0 ≤ 511 → r.p 1 &&& 0x00000F82#32 = 0 → ((r.p 1).getLsbD 2 = true → bitsOf (r.p 1) 31 24 ≤ 63) →
    Answers (.routeSet r) s (State.Answered ((w.routeSave (r.n 0) (some (r.p 1))).setReg Reg.EVT_ROUTE (r.n 0) (r.p 1)).routeThrough · r .ok [])) ∧
  (∀ (s w : State) (r : AzReq), s.Takes w r 0x0107 → r.params.length = 1 → r.n 0 ≤ 511 →
    Answers (.routeGet r) s fun t => w.Answered t r .ok [w.reg Reg.EVT_ROUTE (r.n 0)]) ∧
  (∀ (s w : State) (r : AzReq), s.Takes w r 0x0107 → r.params.length = 1 → 511 < r.n 0 →
    Answers (.routeGet r) s fun t => w.Answered t r .badParam [4]) ∧
  (∀ (s w : State) (r : AzReq), s.Takes w r 0x0108 → 2 ≤ r.params.length → r.params.length ≤ 60 → r.n 0 % 4 = 0 →
    r.n 0 + 4 * (r.params.length - 1) ≤ 2 ^ 20 →
    Answers (.stageWrite r) s (State.Answered (w.stageWords r.chan (r.n 0 / 4) (r.params.drop 1)) · r .ok [])) ∧
  (∀ (s w : State) (r : AzReq), s.Takes w r 0x0109 → r.params.length = 2 → r.n 0 % 4 = 0 → 1 ≤ r.n 1 → r.n 1 ≤ 62 →
    r.n 0 + 4 * r.n 1 ≤ 2 ^ 20 → (r.via = .legacy → r.n 1 ≤ 14) →
    Answers (.stageRead r) s fun t => w.Answered t r .ok ((List.range (r.n 1)).map fun k => w.stageWord r.chan (r.n 0 / 4 + k)))

/-- The commands of group 0x09xx (R48 to R53, R61, R186, R434, R438, R441). -/
def Obligations.TimeAndPowerCommands : Prop :=
  (∀ (s w : State) (r : AzReq), s.Takes w r 0x0901 → r.params.length = 0 → Answers (.tallyStatus r) s fun t => w.Answered t r .ok
    [w.tally.now.lo, w.tally.now.hi, tlyStatus w.tally, (w.reg64 Reg.TLY_WAKE_DEADLINE_LO Reg.TLY_WAKE_DEADLINE_HI).lo,
      (w.reg64 Reg.TLY_WAKE_DEADLINE_LO Reg.TLY_WAKE_DEADLINE_HI).hi]) ∧
  (∀ (s w : State) (r : AzReq), s.Takes w r 0x0902 → secureChan r.chan = true → r.params.length = 27 → r.via ≠ .legacy → r.ok = true →
    r.p 2 = Config.otpWord 0x024 → w.bit Reg.TLY_CTRL 0 1 = true →
    Answers (.timeSigned r) s (State.Answered ((w.timeSigned (BitVec.ofNat 64 (r.p64 0))).ageFollow w) · r .ok [])) ∧
  (∀ (s w : State) (r : AzReq), s.Takes w r 0x0902 → secureChan r.chan = true → r.params.length = 27 → r.ok = false ∨ r.p 2 ≠ Config.otpWord 0x024 →
    Answers (.timeSigned r) s (State.Answered (w.pulse 380) · r .badParam [7])) ∧
  (∀ (s w : State) (r : AzReq), s.Takes w r 0x0902 → secureChan r.chan = true → r.params.length = 27 → r.ok = true →
    r.p 2 = Config.otpWord 0x024 → w.bit Reg.TLY_CTRL 0 1 = false → Answers (.timeSigned r) s (w.Answered · r .wrongState [])) ∧
  (∀ (s w : State) (r : AzReq) (k : Nat) (v : Slot), s.Takes w r 0x0903 →
    secureChan r.chan = true ∨ bitsOf (r.p 2) 3 0 = 8 ∧ s.slotsOf r.chan < 8 → r.params.length = 5 → r.p 2 &&& 0xFFFFFEF0#32 = 0 →
    bitsOf (r.p 2) 3 0 ≤ 9 → (r.p 2).getLsbD 8 = true ∨ w.tally.trust ≠ .untrusted → w.freeSlot = some k →
    v = { time := BitVec.ofNat 64 (r.p64 0) + (if (r.p 2).getLsbD 8 then w.tally.now else 0), arm := true, action := (r.p 2).setWidth 4
          arg := r.p 3, period := r.p 4, owner := BitVec.ofNat 8 r.chan.val } →
    Answers (.schedAdd r) s (State.Answered ((w.setSlot k v).saveSlot k) · r .ok [BitVec.ofNat 32 k])) ∧
  (∀ (s w : State) (r : AzReq), s.Takes w r 0x0903 → secureChan r.chan = true → r.params.length = 5 → r.p 2 &&& 0xFFFFFEF0#32 = 0 →
    bitsOf (r.p 2) 3 0 ≤ 9 → (r.p 2).getLsbD 8 = true ∨ w.tally.trust ≠ .untrusted → w.freeSlot = none →
    Answers (.schedAdd r) s (w.Answered · r .noResource [])) ∧
  (∀ (s w : State) (r : AzReq), s.Takes w r 0x0904 → 64 ≤ r.n 0 → r.n 0 ≤ 255 →
    secureChan r.chan = true ∨ (s.slot (r.n 0)).owner.toNat = r.chan.val → r.params.length = 1 → (s.slot (r.n 0)).owner ≠ 0xFF#8 →
    Answers (.schedRemove r) s (State.Answered (w.slotFree (r.n 0)) · r .ok [])) ∧
  (∀ (s w : State) (r : AzReq), s.Takes w r 0x0904 → 64 ≤ r.n 0 → r.n 0 ≤ 255 → (s.slot (r.n 0)).owner = 0xFF#8 → r.params.length = 1 →
    Answers (.schedRemove r) s (w.Answered · r .ok [])) ∧
  (∀ (s w : State) (r : AzReq), s.Takes w (r.withP0 0) 0x0905 → s.hasRight r.chan .admin = true → r.params.length = 1 →
    Answers (.powerRequestOff r) s fun t => ∃ v, w.Answered v (r.withP0 0) .ok [] ∧ t = v.offRequest false) ∧
  (∀ (s w : State) (r : AzReq), s.Takes w (r.withP0 1) 0x0905 → s.hasRight r.chan .admin = true → r.params.length = 1 → w.psq.pstate ≠ .lockout →
    Answers (.powerRequestOn r) s fun t => ∃ v, w.Answered v (r.withP0 1) .ok [] ∧ t = v.onRequest) ∧
  (∀ (s w : State) (r : AzReq), s.Takes w (r.withP0 2) 0x0905 → s.hasRight r.chan .admin = true → r.params.length = 1 →
    w.psq.pstate ≠ .dormant → w.psq.pstate ≠ .poweringDown → w.psq.pstate ≠ .lockout →
    Answers (.powerRequestKeepEnter r) s fun t => ∃ v, w.Answered v (r.withP0 2) .ok [] ∧ t = v.keepEnter) ∧
  (∀ (s w : State) (r : AzReq), s.Takes w (r.withP0 3) 0x0905 → s.hasRight r.chan .admin = true → r.params.length = 1 →
    Answers (.powerRequestKeepLeave r) s fun t => ∃ v, w.Answered v (r.withP0 3) .ok [] ∧ t = v.keepLeaveRequest) ∧
  (∀ (s w : State) (r : AzReq), s.Takes w r 0x0906 → s.hasRight r.chan .admin = true → r.params.length = 0 →
    Answers (.drainAndHalt r) s fun t => ∃ v, w.Answered v r .ok [] ∧ t = v.takeTrigger 7) ∧
  (∀ (s w : State) (r : AzReq), s.Takes w r 0x0907 → s.hasRight r.chan .admin = true → r.params.length = 1 → r.n 0 = 0 →
    Answers (.resetCmd r) s fun t => ∃ v, w.Answered v r .ok [] ∧ t = v.takeTrigger 4) ∧
  (∀ (s w : State) (r : AzReq), s.Takes w r 0x0908 → s.hasRight r.chan .admin = true → r.params.length = 1 → 1 ≤ r.n 0 → r.n 0 ≤ 255 →
    Answers (.wakeMarginSet r) s (State.Answered (w.setFld Reg.TLY_WAKE_CTRL 0 7 0 (r.n 0)).writeDeadline · r .ok [])) ∧
  (∀ (s w : State) (r : AzReq), s.Takes w r 0x0909 → s.hasRight r.chan .admin = true → r.params.length = 0 → w.psq.pstate = .lockout →
    Answers (.lockoutClear r) s (State.Answered ((w.setPsq { w.psq with attempt := 0 }).setPState .dormant) · r .ok [])) ∧
  (∀ (s w : State) (r : AzReq), s.Takes w r 0x0909 → s.hasRight r.chan .admin = true → r.params.length = 0 → w.psq.pstate ≠ .lockout →
    Answers (.lockoutClear r) s (w.Answered · r .ok [])) ∧
  (∀ (s w : State) (r : AzReq), s.Takes w r 0x090A → r.params.length = 0 → Answers (.powerStatus r) s fun t => w.Answered t r .ok
    [BitVec.ofNat 32 w.psq.pstate.code, w.pgLevels, BitVec.ofNat 32 (!w.faultLow).toNat])

/-- The commands of group 0x02xx (R148, R155, R239, R240, R276, R278, R339, R469). -/
def Obligations.RegionCommands : Prop :=
  (∀ (s w v : State) (r : AzReq) (id : Nat), s.Takes w r 0x0201 → s.hasRight r.chan .admin = true → r.params.length = 2 →
    (s.chan r.chan).ops.length < 8 → 1 ≤ r.n 0 → r.n 0 < 2 ^ 31 → r.n 1 < 16 → r.n 1 % 4 ≠ 0 → w.sec.trngFail = false →
    w.mayReserve (r.n 0 * settUnits (Mode.ofCode (r.n 1))) = true → w.paired = false ∨ w.side0 = true →
    w.createHere (r.n 0) (Mode.ofCode (r.n 1)) ((r.n 1).testBit 2) ((r.n 1).testBit 3) true = some (v, id) →
    Answers (.regionCreate r) s (v.settleMed.Pending · r 0x0201 [BitVec.ofNat 32 id])) ∧
  (∀ (s w v : State) (r : AzReq) (id : Nat), s.Takes w r 0x0201 → s.hasRight r.chan .admin = true → r.params.length = 2 →
    (s.chan r.chan).ops.length < 8 → 1 ≤ r.n 0 → r.n 0 < 2 ^ 31 → 16 ≤ r.n 1 → r.n 1 < 32 → r.n 1 % 4 ≠ 0 → w.sec.trngFail = false →
    w.mayReserve (r.n 0 * settUnits (Mode.ofCode (r.n 1))) = true → w.paired = true → w.side0 = true →
    w.createHere (r.n 0) (Mode.ofCode (r.n 1)) ((r.n 1).testBit 2) ((r.n 1).testBit 3) false = some (v, id) →
    Answers (.regionCreate r) s
      (((v.setRt id { v.rt id with handing := some none }).tsend false (.control (.handover id 1 0))).settleMed.Pending · r 0x0201
        [BitVec.ofNat 32 id])) ∧
  (∀ (s w : State) (r : AzReq), s.Takes w r 0x0201 → s.hasRight r.chan .admin = true → r.params.length = 2 →
    (s.chan r.chan).ops.length < 8 → 1 ≤ r.n 0 → r.n 0 < 2 ^ 31 → r.n 1 < 32 → r.n 1 % 4 ≠ 0 → w.sec.trngFail = false →
    w.mayReserve (r.n 0 * settUnits (Mode.ofCode (r.n 1))) = true → w.paired = true → w.side0 = false →
    Answers (.regionCreate r) s (((w.setTwin { w.twin with waitAlloc := w.twin.waitAlloc ++ [some r.who] }).tsend false
      (.control (.allocate (.ask none (r.n 0) (Mode.ofCode (r.n 1)) (r.n 1 / 4))))).Pending · r 0x0201 [])) ∧
  (∀ (s w : State) (r : AzReq), s.Takes w r 0x0201 → s.hasRight r.chan .admin = true → r.params.length = 2 →
    (s.chan r.chan).ops.length < 8 → 1 ≤ r.n 0 → r.n 0 < 2 ^ 31 → r.n 1 < 16 → r.n 1 % 4 ≠ 0 → w.sec.trngFail = false →
    w.mayReserve (r.n 0 * settUnits (Mode.ofCode (r.n 1))) = false → Answers (.regionCreate r) s (w.Answered · r .noSpace [])) ∧
  (∀ (s w : State) (r : AzReq), s.Takes w r 0x0202 → s.hasRight r.chan .admin = true → r.params.length = 1 →
    (s.chan r.chan).ops.length < 8 → w.isRegion (r.n 0) = true →
    Answers (.regionDelete r) s
      (((w.sendAttr (r.n 0) { record := w.region (r.n 0), deleted := true }).regionGone (r.n 0)).settleMed.Pending · r 0x0202 [])) ∧
  (∀ (s w : State) (r : AzReq), s.Takes w r 0x0202 → s.hasRight r.chan .admin = true → r.params.length = 1 →
    (s.chan r.chan).ops.length < 8 → w.isRegion (r.n 0) = false → Answers (.regionDelete r) s (w.Answered · r .badParam [4])) ∧
  (∀ (s w v : State) (r : AzReq), s.Takes w r 0x0203 → s.hasRight r.chan .admin = true → r.params.length = 2 →
    (s.chan r.chan).ops.length < 8 → w.isRegion (r.n 0) = true → r.n 1 < 2 ^ 31 → w.locked (r.n 0) = false → (w.region (r.n 0)).size < r.n 1 →
    w.mayReserve ((r.n 1 - (w.region (r.n 0)).size) * settUnits (w.region (r.n 0)).mode) = true → w.paired = false ∨ w.side0 = true →
    w.growHere (r.n 0) (r.n 1) = some v → Answers (.regionResize r) s (v.settleMed.Pending · r 0x0203 [])) ∧
  (∀ (s w : State) (r : AzReq) (v : Region), s.Takes w r 0x0203 → s.hasRight r.chan .admin = true → r.params.length = 2 →
    (s.chan r.chan).ops.length < 8 → w.isRegion (r.n 0) = true → 1 ≤ r.n 1 → r.n 1 < 2 ^ 31 → w.locked (r.n 0) = false →
    r.n 1 ≤ (w.region (r.n 0)).size →
    v = { w.region (r.n 0) with size := r.n 1, extents := (w.region (r.n 0)).extents.take (State.extentsFor (r.n 1)) } →
    Answers (.regionResize r) s (((((w.shrinkSetts (r.n 0) (r.n 1)).setRegion (r.n 0) v).journal (.region (r.n 0))).sendAttr (r.n 0)
      { record := v }).settleMed.Pending · r 0x0203 [])) ∧
  (∀ (s w : State) (r : AzReq), s.Takes w r 0x0204 → s.hasRight r.chan .admin = true → r.params.length = 2 → w.isRegion (r.n 0) = true →
    1 ≤ r.n 1 → r.n 1 ≤ 3 → w.locked (r.n 0) = false → Mode.ofCode (r.n 1) = (w.region (r.n 0)).mode →
    Answers (.regionSetMode r) s (w.Answered · r .ok [])) ∧
  (∀ (s w u : State) (r : AzReq) (v : Region), s.Takes w r 0x0204 → s.hasRight r.chan .admin = true → r.params.length = 2 →
    w.isRegion (r.n 0) = true → 1 ≤ r.n 1 → r.n 1 ≤ 3 → w.locked (r.n 0) = false → Mode.ofCode (r.n 1) ≠ (w.region (r.n 0)).mode →
    settUnits (Mode.ofCode (r.n 1)) < settUnits (w.region (r.n 0)).mode → w.pairCap ≠ .amber → w.pairCap ≠ .red →
    v = { w.region (r.n 0) with mode := Mode.ofCode (r.n 1), conv := some { target := Mode.ofCode (r.n 1) } } →
    u = ((((w.setRegion (r.n 0) v).journal (.region (r.n 0))).convQueue (r.n 0)).sendAttr (r.n 0) { record := v }) →
    (u.settsOf (r.n 0) fun n => (u.sett n).mode != .none && (u.sett n).mode != Mode.ofCode (r.n 1)) ≠ [] →
    Answers (.regionSetMode r) s (u.settleMed.Answered · r .ok [])) ∧
  (∀ (s w : State) (r : AzReq) (v : Region), s.Takes w r 0x0205 → s.hasRight r.chan .admin = true → r.params.length = 2 → w.isRegion (r.n 0) = true →
    r.n 1 ≤ 1 → v = { w.region (r.n 0) with strict := (r.p 1).getLsbD 0 } →
    Answers (.regionSetPolicy r) s ((((w.setRegion (r.n 0) v).journal (.region (r.n 0))).sendAttr (r.n 0) { record := v }).settle.Answered · r .ok [])) ∧
  (∀ (s w : State) (r : AzReq), s.Takes w r 0x0206 → s.mayRead r.chan (r.n 0) = true → r.params.length = 1 → w.isRegion (r.n 0) = true →
    (w.region (r.n 0)).conv = none → Answers (.regionInfo r) s fun t => w.Answered t r .ok [BitVec.ofNat 32 (w.region (r.n 0)).size,
      wordOf [(w.region (r.n 0)).mode.code, at_ 2 Mode.none.code, at_ 4 (w.region (r.n 0)).strict.toNat, at_ 5 (w.locked (r.n 0)).toNat],
      w.tdmRegionInfo (r.n 0), 0#32, (w.rt (r.n 0)).term]) ∧
  (∀ (s w : State) (r : AzReq), s.Takes w r 0x0207 → s.hasRight r.chan .admin = true → r.params.length = 3 → w.isRegion (r.n 0) = true →
    8 ≤ r.n 1 → r.n 1 ≤ 63 → r.n 2 ≤ 3 → Answers (.regionGrant r) s (State.Answered (w.setChan (r.n 1) { w.chan (r.n 1) with
      grants := ((w.chan (r.n 1)).grants.filter fun g => g.1 != r.n 0) ++ if r.n 2 = 0 then [] else [(r.n 0, BitVec.ofNat 2 (r.n 2))] }) · r .ok [])) ∧
  (∀ (s w : State) (r : AzReq), s.Takes w r 0x0208 → s.hasRight r.chan .admin = true → r.params.length = 4 → r.n 0 ≠ 0xFFFF →
    w.isRegion (r.n 0) = true → r.n 1 < 256 → 1 ≤ r.n 3 → (r.n 2 + r.n 3) * 4096 ≤ (w.region (r.n 0)).size →
    w.bindHeld (r.n 1 % 4 * 16 + r.n 1 / 4 % 16) (r.n 1 / 64 % 4) = false →
    Answers (.regionBind r) s (State.Answered (w.setBinding (r.n 1 % 4 * 16 + r.n 1 / 4 % 16) (r.n 1 / 64 % 4)
      (some (.region (r.n 0) (r.n 2 * 2 ^ 28) (r.n 3 * 2 ^ 28)))) · r .ok [])) ∧
  (∀ (s w : State) (r : AzReq), s.Takes w r 0x0208 → s.hasRight r.chan .admin = true → r.params.length = 4 → r.n 0 = 0xFFFF → r.n 1 < 256 →
    r.n 2 = 0 → r.n 3 = 1 → w.bindHeld (r.n 1 % 4 * 16 + r.n 1 / 4 % 16) (r.n 1 / 64 % 4) = false →
    Answers (.regionBind r) s (State.Answered (w.setBinding (r.n 1 % 4 * 16 + r.n 1 / 4 % 16) (r.n 1 / 64 % 4) (some .staging)) · r .ok [])) ∧
  (∀ (s w : State) (r : AzReq), s.Takes w r 0x0209 → s.hasRight r.chan .admin = true → r.params.length = 2 → r.n 1 < 256 →
    w.bindHeld (r.n 1 % 4 * 16 + r.n 1 / 4 % 16) (r.n 1 / 64 % 4) = false →
    Answers (.regionUnbind r) s (State.Answered (w.setBinding (r.n 1 % 4 * 16 + r.n 1 / 4 % 16) (r.n 1 / 64 % 4) none) · r .ok [])) ∧
  (∀ (s w : State) (r : AzReq), s.Takes w r 0x0209 → s.hasRight r.chan .admin = true → r.params.length = 2 → r.n 1 < 256 →
    w.bindHeld (r.n 1 % 4 * 16 + r.n 1 / 4 % 16) (r.n 1 / 64 % 4) = true → Answers (.regionUnbind r) s (w.Answered · r .wrongState [])) ∧
  (∀ (s w u : State) (r : AzReq) (ns : List Nat), s.Takes w r 0x020A → s.mayWrite r.chan (r.n 0) = true → r.params.length = 5 →
    (s.chan r.chan).ops.length < 8 → w.isRegion (r.n 0) = true → 1 ≤ r.p64 3 → r.p64 1 + r.p64 3 ≤ (w.region (r.n 0)).size → w.pairCap ≠ .red →
    w.locked (r.n 0) = false → w.regionOpen (r.n 0) = true →
    ns = ((w.liveSetts (r.n 0)).filter fun i => decide (r.p64 1 ≤ i ∧ i < r.p64 1 + r.p64 3)).filterMap (fun i => w.settOf (r.n 0) i) →
    u = ns.foldl (fun s n => s.zeroSett n) w →
    Answers (.regionZero r) s ((u.sendAttr (r.n 0) { record := u.region (r.n 0), gens := ns.map fun n => (n, (u.sett n).gen.toNat) }).settleMed.Pending ·
      r 0x020A [])) ∧
  (∀ (s w : State) (r : AzReq) (l : Nat) (d : Ld), s.Takes w r 0x020B → s.hasRight r.chan .admin = true → r.params.length = 2 → r.n 0 < 512 →
    w.isRegion (r.n 1) = true → l = r.n 0 % 4 * 16 + r.n 0 / 4 % 16 → d = Tab.get {} w.cxl.lds l →
    Answers (.dcMap r) s (State.Answered (State.cdatAdvance { w with cxl := { w.cxl with lds := Tab.put {} w.cxl.lds l { d with
      dcMap := Tab.put none d.dcMap (r.n 0 / 64 % 8) (some (r.n 1)) } } } l) · r .ok []))

/-- The commands of groups 0x03xx and 0x04xx (R211, R220 to R222, R229, R230, R254, R255). -/
def Obligations.ObjectAndPairCommands : Prop :=
  (∀ (s w : State) (r : AzReq) (i : Nat), s.Takes w r 0x0301 → s.mayRead r.chan (r.n 0) = true → r.params.length = 8 →
    w.isRegion (r.n 0) = true → r.p64 1 < (w.region (r.n 0)).size → 1 ≤ r.p64 3 → r.p64 1 + r.p64 3 ≤ (w.region (r.n 0)).size →
    r.n 5 < 65536 → r.n 5 % 256 ≤ 3 → r.p64 6 < 2 ^ 40 →
    ((List.range (w.xlt.objects.length + 1)).find? fun i => (w.object i).region == 0) = some i → i < 65536 →
    Answers (.objectCreate r) s (State.Answered (w.putObject i (w.hinted { region := r.n 0, first := r.p64 1, count := r.p64 3, owner := r.chan }
      (r.n 5) (r.p64 6))) · r .ok [BitVec.ofNat 32 i])) ∧
  (∀ (s w : State) (r : AzReq), s.Takes w r 0x0302 → s.mayObject r.chan (r.n 0) = true → r.params.length = 1 → (w.object (r.n 0)).region ≠ 0 →
    Answers (.objectDelete r) s (State.Answered ((w.closeWindows fun v => v.object == r.n 0).putObject (r.n 0) {}) · r .ok [])) ∧
  (∀ (s w : State) (r : AzReq), s.Takes w r 0x0302 → s.mayObject r.chan (r.n 0) = true → r.params.length = 1 → (w.object (r.n 0)).region = 0 →
    Answers (.objectDelete r) s (w.Answered · r .badParam [4])) ∧
  (∀ (s w : State) (r : AzReq) (o : Object), s.Takes w r 0x0303 → s.mayObject r.chan (r.n 0) = true → r.params.length = 4 →
    (w.object (r.n 0)).region ≠ 0 → r.n 1 < 65536 → r.n 1 % 256 ≤ 3 → r.p64 2 < 2 ^ 40 →
    o = { w.object (r.n 0) with
      hint := if r.p64 2 = 0 then .none else Hint.ofCode (r.n 1 % 256), window := r.n 1 / 256 % 256, expiry := w.expiryOf (r.p64 2) } →
    Answers (.hintSet r) s (State.Answered (w.putObject (r.n 0) o) · r .ok [o.expiry.setWidth 32, (o.expiry >>> 32).setWidth 32])) ∧
  (∀ (s w : State) (r : AzReq) (o : Object), s.Takes w r 0x0304 → s.mayObject r.chan (r.n 0) = true → r.params.length = 3 →
    (w.object (r.n 0)).region ≠ 0 → (w.object (r.n 0)).expiry.toNat + r.p64 1 < 2 ^ 48 →
    o = { w.object (r.n 0) with expiry := (w.object (r.n 0)).expiry + BitVec.ofNat 48 (r.p64 1) } →
    Answers (.hintExtend r) s (State.Answered (w.putObject (r.n 0) o) · r .ok [o.expiry.setWidth 32, (o.expiry >>> 32).setWidth 32])) ∧
  (∀ (s w : State) (r : AzReq) (os : List (Nat × Object)), s.Takes w r 0x0305 → s.mayRead r.chan (r.n 0) = true → r.params.length = 2 →
    w.isRegion (r.n 0) = true →
    os = (w.xlt.objects.filter fun o => o.2.region == r.n 0 && decide (r.n 1 ≤ o.1)).take 15 → (r.via = .legacy → os.length ≤ 3) →
    Answers (.objectList r) s (w.Answered · r .ok (BitVec.ofNat 32 os.length :: os.flatMap fun o =>
      [BitVec.ofNat 32 o.1, BitVec.ofNat 32 o.2.first, BitVec.ofNat 32 o.2.count, BitVec.ofNat 32 o.2.hint.code]))) ∧
  (∀ (s w : State) (r : AzReq) (h : Nat), s.Takes w r 0x0401 → s.hasRight r.chan .admin = true → r.params.length = 12 → w.paired = false →
    h = (r.params.take 12).foldl (fun a v => a * 2 ^ 32 +
      ((v.extractLsb' 0 8 ++ v.extractLsb' 8 8) ++ (v.extractLsb' 16 8 ++ v.extractLsb' 24 8)).toNat) 0 →
    Answers (.pairBind r) s (State.Answered ((w.setTwin { w.twin with binding := some h }).nvWrite Config.nvPair [h]) · r .ok [])) ∧
  (∀ (s w : State) (r : AzReq), s.Takes w r 0x0401 → s.hasRight r.chan .admin = true → r.params.length = 12 → w.paired = true →
    Answers (.pairBind r) s (w.Answered · r .wrongState [])) ∧
  (∀ (s w : State) (r : AzReq), s.Takes w r 0x0402 → r.params.length = 0 → Answers (.pairStatus r) s (w.Answered · r .ok
    (w.tdmStatus :: (List.range 4).map (fun k => (w.twin.peerUid >>> (32 * k)).setWidth 32) ++ [w.twin.rtt.setWidth 32]))) ∧
  (∀ (s w : State) (r : AzReq), s.Takes w r 0x0403 → secureChan r.chan = true → r.params.length = 1 → r.n 0 = 0xFFFF ∨ w.isRegion (r.n 0) = true →
    w.hasRight r.chan .witness = true → w.paired = false → ((w.witnessed (r.n 0)).filter fun q => (w.rt q).home) ≠ [] →
    Answers (.solo r) s (State.Answered (((w.witnessed (r.n 0)).filter fun q => (w.rt q).home).foldl (fun s q => s.soloRegion q) w).settleTwin ·
      r .ok [])) ∧
  (∀ (s w : State) (r : AzReq), s.Takes w r 0x0403 → secureChan r.chan = true → r.params.length = 1 → r.n 0 = 0xFFFF ∨ w.isRegion (r.n 0) = true →
    w.hasRight r.chan .witness = false → Answers (.solo r) s (w.Answered · r .witnessRequired [])) ∧
  (∀ (s w u : State) (r : AzReq) (qs : List Nat), s.Takes w r 0x0404 → secureChan r.chan = true → r.params.length = 1 →
    r.n 0 = 0xFFFF ∨ w.isRegion (r.n 0) = true → w.hasRight r.chan .witness = true → w.paired = false →
    qs = (w.witnessed (r.n 0)).filter (fun q => !(w.rt q).home) → qs ≠ [] → u = (qs.foldl (fun s q => s.takeoverRegion q) w).settleTwin →
    Answers (.takeover r) s (u.Answered · r .ok [qs.foldl (fun (a : Word) q => if a < (u.rt q).term then (u.rt q).term else a) 0])) ∧
  (∀ (s w : State) (r : AzReq), s.Takes w r 0x0405 → secureChan r.chan = true → r.params.length = 1 → w.isRegion (r.n 0) = true →
    r.n 0 ≠ 0xFFFF → w.hasRight r.chan .witness = true → (w.rt (r.n 0)).handing = none →
    Answers (.fence r) s ((w.fenceWitness (r.n 0)).settleTwin.Answered · r .ok [])) ∧
  (∀ (s w : State) (r : AzReq), s.Takes w r 0x0405 → secureChan r.chan = true → r.params.length = 1 → w.isRegion (r.n 0) = true →
    r.n 0 ≠ 0xFFFF → w.hasRight r.chan .witness = true → (w.rt (r.n 0)).handing ≠ none →
    Answers (.fence r) s ((w.setRt (r.n 0) { w.rt (r.n 0) with fenceNext := true }).settleTwin.Answered · r .ok [])) ∧
  (∀ (s w : State) (r : AzReq), s.Takes w r 0x0406 → s.hasRight r.chan .admin = true → r.params.length = 1 → (s.chan r.chan).ops.length < 8 →
    w.isRegion (r.n 0) = true → w.paired = true → (w.rt (r.n 0)).home = true → (w.rt (r.n 0)).marks.isEmpty = true →
    (w.rt (r.n 0)).source = false → (w.rt (r.n 0)).target = false → (w.rt (r.n 0)).handing = none → Answers (.moveHome r) s fun t => ∃ v,
    w.Pending v r 0x0406 [] ∧ t = (v.setRt (r.n 0) { v.rt (r.n 0) with handing := some (some r.who) }).settleTwin) ∧
  (∀ (s w : State) (r : AzReq), s.Takes w r 0x0407 → s.hasRight r.chan .admin = true → r.params.length = 0 → (s.chan r.chan).ops.length < 8 →
    w.paired = true → w.twin.detaching = false → Answers (.detach r) s fun t => ∃ v,
    w.Pending v r 0x0407 [] ∧ t = (v.detachStart (some r.who)).settleTwin) ∧
  (∀ (s w u : State) (r : AzReq), s.Takes w r 0x0408 → s.hasRight r.chan .admin = true → r.params.length = 0 → w.twin.pair = .detached →
    u = w.setPair .unpaired → (u.tport false).st = .up →
    Answers (.rejoin r) s ((startPairing u false).judgeTdm.Answered · r .ok [])) ∧
  (∀ (s w : State) (r : AzReq), s.Takes w r 0x0408 → s.hasRight r.chan .admin = true → r.params.length = 0 → w.twin.pair ≠ .detached →
    Answers (.rejoin r) s (w.Answered · r .wrongState []))

/-- Firmware, vault and recorder commands (R402, R413 to R416, R423, R424). -/
def Obligations.FirmwareAndLogCommands : Prop :=
  (∀ (s w : State) (r : AzReq), s.Takes w r 0x0701 → s.hasRight r.chan .firmware = true → r.params.length = 2 → (s.chan r.chan).ops.length < 8 →
    r.n 0 % 65536 = 0 → r.n 1 % 256 = 0 → 256 ≤ r.n 1 → r.n 1 ≤ 2 ^ 20 → r.n 0 + r.n 1 ≤ 2 ^ 24 → w.flash.slots.trial = false →
    w.flash.slots.bootCopy = 0 → w.flash.work = none →
    Answers (.fwChunk r) s (State.Pending (w.chunkStart (some r.who) (r.n 0) ((List.range (r.n 1 / 4)).map fun k => w.stageWord r.chan k)) ·
      r 0x0701 [])) ∧
  (∀ (s w : State) (r : AzReq), s.Takes w r 0x0702 → s.hasRight r.chan .firmware = true → r.params.length = 1 → (s.chan r.chan).ops.length < 8 →
    w.flash.work = none → Answers (.fwCommit r) s (State.Pending (w.setFlash { w.flash with work := some (.commit r.who) }) · r 0x0702 [])) ∧
  (∀ (s w : State) (r : AzReq), s.Takes w r 0x0702 → s.hasRight r.chan .firmware = true → r.params.length = 1 → (s.chan r.chan).ops.length < 8 →
    w.flash.work ≠ none → Answers (.fwCommit r) s (w.Answered · r .busy [])) ∧
  (∀ (s w : State) (r : AzReq), s.Takes w r 0x0703 → s.hasRight r.chan .firmware = true → r.params.length = 0 → (s.chan r.chan).ops.length < 8 →
    w.flash.work = none → w.activateBarred = false →
    Answers (.fwActivate r) s (State.Pending (w.setFlash { w.flash with work := some (.activate (some r.who)) }) · r 0x0703 [])) ∧
  (∀ (s w : State) (r : AzReq), s.Takes w r 0x0703 → s.hasRight r.chan .firmware = true → r.params.length = 0 → (s.chan r.chan).ops.length < 8 →
    w.flash.work = none → w.activateBarred = true → Answers (.fwActivate r) s (w.Answered · r .wrongState [])) ∧
  (∀ (s w : State) (r : AzReq), s.Takes w r 0x0704 → r.params.length = 0 → Answers (.fwInfo r) s (w.Answered · r .ok
    [w.flash.slots.a.version, w.flash.slots.b.version, BitVec.ofNat 32 w.flash.slots.active.toNat, w.flash.runCompat.setWidth 32,
      BitVec.ofNat 32 w.sec.arb])) ∧
  (∀ (s w u : State) (r : AzReq) (lost : List Nat) (bs : List Byte), s.Takes w r 0x0705 → s.hasRight r.chan .admin = true → r.params.length = 3 →
    r.n 0 ≤ 3 → r.n 2 ≤ 2 ^ 20 → u = w.vaultLose lost →
    bs = ((((u.flash.pages.filter fun p => p.kind.val == r.n 0 && !p.bad).flatMap fun p => p.data.bytes).drop (r.n 1)).take (r.n 2)) →
    Answers (.vaultRead r lost) s (State.Answered (u.stageBytes r.chan bs) · r .ok [BitVec.ofNat 32 bs.length])) ∧
  (∀ (s w : State) (r : AzReq) (start : Nat) (es : List Entry), s.Takes w r 0x0801 → r.params.length = 2 → r.n 1 ≤ 16384 →
    start = max (r.n 0) w.evrOldest.toNat → es = ((w.entriesFrom start).filter fun e => w.entryReadable r.chan e).take (r.n 1) →
    Answers (.evrRead r) s (State.Answered (w.stageBytes r.chan (es.flatMap Entry.bytes)) · r .ok [BitVec.ofNat 32 es.length,
      if es.length < r.n 1 then w.evr.next else es.getLast?.elim (BitVec.ofNat 32 start) fun e => e.index + 1])) ∧
  (∀ (s w u v : State) (r : AzReq), s.Takes w r 0x0802 → s.hasRight r.chan .clearLog = true → r.params.length = 0 →
    v = (w.setEvr { w.evr with clear := w.evr.next, archived := w.evr.next, paged := w.evr.next }).nvWrite Config.nvClear [w.evr.next.toNat] →
    u = (List.range (((w.flash.pages.filter fun p => p.kind == 0).length + 255) / 256)).foldl (fun s k => s.flashPush (.erase .vault k))
      (v.setFlash { v.flash with pages := v.flash.pages.filter fun p => p.kind != 0 }) →
    Answers (.evrClear r) s (State.Answered (u.record Config.codeLogCleared 0x3FF (w.evr.next - w.evrOldest) r.chan (u.chan r.chan).agen) · r .ok
      [w.evr.next - w.evrOldest])) ∧
  (∀ (s w : State) (r : AzReq), s.Takes w r 0x0803 → s.hasRight r.chan .admin = true → r.params.length = 2 → r.n 0 ≤ 1023 → r.n 1 < 2 ^ 14 →
    Answers (.evrRateSet r) s (State.Answered (w.putBucket (r.n 0) { Tab.get {} w.evr.buckets (r.n 0) with
      rate := (r.p 1).setWidth 8, burst := ((r.p 1) >>> 8).setWidth 6 }) · r .ok [])) ∧
  (∀ (s w : State) (r : AzReq), s.Takes w r 0x0804 → r.params.length = 0 → Answers (.evrStatus r) s (w.Answered · r .ok
    [w.evrOldest, w.evr.next - 1, w.evr.archived])) ∧
  (∀ (s w u : State) (p : Fin 4) (l : Fin 16) (off : Nat) (data : List Word) (ok : Bool), s.psq.mainUp = true → s.ldThere p l = true → w = s.wakeIdle →
    w.fmOwned p l = true → w.chunkBarred = false → w.flash.work = none → data ≠ [] → off % 128 = 0 → off + 4 * data.length ≤ 2 ^ 24 →
    w.cxl.xfer = some off → u = w.chunkStart none off data → Answers (.transferFw p l 2 off data ok) s fun t =>
    t = ({ u with cxl := { u.cxl with xfer := some (off + 4 * data.length) } }).emit (.mailbox p l 0 [])) ∧
  (∀ (s w u : State) (p : Fin 4) (l : Fin 16) (off : Nat) (data : List Word) (ok : Bool), s.psq.mainUp = true → s.ldThere p l = true → w = s.wakeIdle →
    w.fmOwned p l = true → w.chunkBarred = false → w.flash.work = none → data ≠ [] → off % 128 = 0 → off + 4 * data.length ≤ 2 ^ 24 →
    w.cxl.xfer = some off → u = w.chunkStart none off data → Answers (.transferFw p l 3 off data ok) s fun t => ∃ x,
    x = State.fwJudge { u with cxl := { u.cxl with xfer := none } } none (off + 4 * data.length) ok ∧
      t = x.1.emit (.mailbox p l (State.fwReturn x.2) [])) ∧
  (∀ (s w : State) (p : Fin 4) (l : Fin 16) (off : Nat) (data : List Word) (ok : Bool), s.psq.mainUp = true → s.ldThere p l = true → w = s.wakeIdle →
    w.fmOwned p l = true → w.cxl.xfer ≠ none → Answers (.transferFw p l 4 off data ok) s fun t =>
    t = ({ w with cxl := { w.cxl with xfer := none } }).emit (.mailbox p l 0 [])) ∧
  (∀ (s w : State) (p : Fin 4) (l : Fin 16) (a : Fin 5) (off : Nat) (data : List Word) (ok : Bool), s.psq.mainUp = true → s.ldThere p l = true →
    w = s.wakeIdle → w.fmOwned p l = false → Answers (.transferFw p l a off data ok) s fun t => t = w.emit (.mailbox p l 3 [])) ∧
  (∀ (s w : State) (p : Fin 4) (l : Fin 16) (slot : Fin 4), s.psq.mainUp = true → s.ldThere p l = true → w = s.wakeIdle → w.fmOwned p l = true →
    slot.val = w.flash.slots.active.toNat + 1 → w.flash.work = none → w.activateBarred = false → Answers (.activateFw p l true slot) s fun t =>
    t = (w.setFlash { w.flash with work := some (.activate none) }).emit (.mailbox p l 1 [])) ∧
  (∀ (s w : State) (p : Fin 4) (l : Fin 16) (slot : Fin 4), s.psq.mainUp = true → s.ldThere p l = true → w = s.wakeIdle → w.fmOwned p l = true →
    slot.val = w.flash.slots.active.toNat + 1 → Answers (.activateFw p l false slot) s fun t => t = w.emit (.mailbox p l 0 []))

/-- Keys and the life cycle (R371 to R394). -/
def Obligations.KeyAndLifeCycleCommands : Prop :=
  (∀ (s w : State) (r : AzReq), s.Takes w r 0x0501 → s.mayWrite r.chan (r.n 0) = true → r.params.length = 2 → w.isRegion (r.n 0) = true →
    32 ≤ r.n 1 → r.n 1 ≤ 512 → (w.keySlot (r.n 0)).shareRequired = true →
    (w.keySlot (r.n 0)).state = .awaitingShare ∨ (w.keySlot (r.n 0)).state = .active ∧ r.ok = true → (w.keySlot (r.n 0)).holdUntil ≤ w.holdNow →
    Answers (.regionUnlock r) s (((w.stageWipe r.chan 0 (r.n 1)).unlockDone (r.n 0)).Answered · r .ok [])) ∧
  (∀ (s w : State) (r : AzReq), s.Takes w r 0x0501 → s.mayWrite r.chan (r.n 0) = true → r.params.length = 2 → w.isRegion (r.n 0) = true →
    32 ≤ r.n 1 → r.n 1 ≤ 512 → (w.keySlot (r.n 0)).shareRequired = true → (w.keySlot (r.n 0)).state = .active → r.ok = false →
    (w.keySlot (r.n 0)).holdUntil ≤ w.holdNow →
    Answers (.regionUnlock r) s (((w.stageWipe r.chan 0 (r.n 1)).unlockFail (r.n 0)).Answered · r .notPermitted [])) ∧
  (∀ (s w : State) (r : AzReq), s.Takes w r 0x0501 → s.mayWrite r.chan (r.n 0) = true → r.params.length = 2 → w.isRegion (r.n 0) = true →
    32 ≤ r.n 1 → r.n 1 ≤ 512 → (w.keySlot (r.n 0)).shareRequired = true → (w.keySlot (r.n 0)).state = .active →
    w.holdNow < (w.keySlot (r.n 0)).holdUntil → Answers (.regionUnlock r) s (w.Answered · r .busy [])) ∧
  (∀ (s w : State) (r : AzReq), s.Takes w r 0x0502 → s.mayWrite r.chan (r.n 0) = true → r.params.length = 1 → w.isRegion (r.n 0) = true →
    (w.keySlot (r.n 0)).shareRequired = true → w.locked (r.n 0) = false →
    Answers (.regionLock r) s (((w.sendAttr (r.n 0) { record := w.region (r.n 0), lock := true }).setKeySlot (r.n 0)
      { w.keySlot (r.n 0) with locking := true }).settleMed.Answered · r .ok [])) ∧
  (∀ (s w : State) (r : AzReq), s.Takes w r 0x0503 → s.hasRight r.chan .keys = true → r.params.length = 1 → (s.chan r.chan).ops.length < 8 →
    w.isRegion (r.n 0) = true → w.sec.trngFail = false →
    Answers (.cryptoErase r) s ((w.eraseBegin (r.n 0)).judgeSec.settleMed.Pending · r 0x0503 [])) ∧
  (∀ (s w : State) (r : AzReq), s.Takes w r 0x0503 → s.hasRight r.chan .keys = true → r.params.length = 1 → (s.chan r.chan).ops.length < 8 →
    w.isRegion (r.n 0) = true → w.sec.trngFail = true → Answers (.cryptoErase r) s (w.Answered · r .wrongState [])) ∧
  (∀ (s w : State) (r : AzReq) (k : List Byte), s.Takes w r 0x0504 → s.hasRight r.chan .keys = true → r.params.length = 1 → r.n 0 = 97 →
    k = (List.range 97).map (fun i => w.stageByte r.chan i) →
    Answers (.timeKeySet r) s (State.Answered (({ w with sec := { w.sec with timeKey := k } }).nvWrite Config.nvTimeKey (k.map BitVec.toNat)) · r .ok [])) ∧
  (∀ (s w u : State) (r : AzReq) (i : Nat), s.Takes w r 0x0505 → s.hasRight r.chan .keys = true → r.params.length = 2 → r.n 0 ≤ 7 → r.n 1 ≤ 63 →
    i = r.n 0 * 64 + r.n 1 →
    u = { w with sec := { w.sec with nextKey := w.sec.nextKey + 1 }, rdma := { w.rdma with caks := Tab.put none w.rdma.caks i (some w.sec.nextKey) } } →
    Answers (.macsecCakSet r) s (((u.nvWrite (Config.nvCak i) (w.sec.nextKey :: (List.range 32).map fun k =>
      (u.stageByte r.chan k).toNat)).stageWipe r.chan 32 32).Answered · r .ok [])) ∧
  (∀ (s w : State) (r : AzReq) (n : Nat), s.Takes w r 0x0506 → r.params.length = 2 → r.n 0 = 0 → r.n 1 ≤ Config.certLen →
    n = min (Config.certLen - r.n 1) (2 ^ 20) →
    Answers (.certGet r) s ((w.stageBytes r.chan ((List.range n).map fun i => Config.certByte (r.n 1 + i))).Answered · r .ok [BitVec.ofNat 32 n])) ∧
  (∀ (s w : State) (r : AzReq), s.Takes w r 0x0601 → r.params.length = 0 →
    Answers (.lcStatus r) s (w.Answered · r .ok [BitVec.ofNat 32 w.life.code, BitVec.ofNat 32 w.sec.rop.val])) ∧
  (∀ (s w : State) (r : AzReq) (gs : List Nat), s.Takes w r 0x0602 → s.hasRight r.chan .lifecycle = true → r.params.length = 1 →
    (s.chan r.chan).ops.length < 8 → r.n 0 ≤ 5 → w.paired = false → w.sec.trngFail = false → w.sec.lcWork = none →
    w.authGroups r.chan (r.n 0) r.ok = some gs → Answers (.lcAdvance r) s ((w.blow r gs (r.n 0)).Pending · r 0x0602 [])) ∧
  (∀ (s w : State) (r : AzReq), s.Takes w r 0x0602 → s.hasRight r.chan .lifecycle = true → r.params.length = 1 →
    (s.chan r.chan).ops.length < 8 → r.n 0 ≤ 5 → w.paired = false → w.sec.trngFail = false → w.sec.lcWork = none →
    w.authGroups r.chan (r.n 0) r.ok = none → Answers (.lcAdvance r) s ((w.cause Reg.SEC_CAUSE 0 7 407).Answered · r .notPermitted [])) ∧
  (∀ (s w u : State) (r : AzReq), s.Takes w (r.withP0 0) 0x0603 → s.hasRight r.chan .lifecycle = true → r.params.length = 1 →
    w.sec.trngFail = false → u = (List.range 12).foldl (fun (s : State) _ => s.draw) w → Answers (.debugUnlockChallenge r) s
      (State.Answered { u with sec := { u.sec with challenge := true } } · (r.withP0 0) .ok ((List.range 12).map fun k => Config.trng (w.fresh + k)))) ∧
  (∀ (s w : State) (r : AzReq), s.Takes w (r.withP0 1) 0x0603 → s.hasRight r.chan .lifecycle = true → r.params.length = 1 →
    w.sec.challenge = true → r.ok = true → w.life = .fieldOpen ∨ w.life = .returned → Answers (.debugUnlockResponse r) s
      ((State.judgeSec { w with sec := { w.sec with challenge := false, debugOpen := true } }).Answered · (r.withP0 1) .ok [])) ∧
  (∀ (s w : State) (r : AzReq), s.Takes w (r.withP0 1) 0x0603 → s.hasRight r.chan .lifecycle = true → r.params.length = 1 →
    w.sec.challenge = false ∨ r.ok = false ∨ w.life ≠ .fieldOpen ∧ w.life ≠ .returned → Answers (.debugUnlockResponse r) s
      (((State.cause { w with sec := { w.sec with challenge := false } } Reg.LCS_CAUSE 0 5 413).cause Reg.SEC_CAUSE 0 7 407).Answered · (r.withP0 1)
        .notPermitted [])) ∧
  (∀ s : State, Answers .debugChallengeExpiry s (· = { s with sec := { s.sec with challenge := false } })) ∧
  (∀ s : State, s.psq.mainUp = true → s.sec.rop = 0 → Answers .ropRaise s fun t => t.sec = { s.sec with rop := 1 } ∧ Keeps [.sec, .nv] s t) ∧
  (∀ s : State, s.psq.mainUp = true → s.sec.rop ≠ 0 → Answers .ropRaise s (· = s)) ∧
  (∀ s : State, s.psq.mainUp = true → Answers .debugClose s fun t => t.sec = { s.sec with debugOpen := false } ∧ t.psq = s.psq ∧ t.med = s.med) ∧
  (∀ s : State, s.psq.mainUp = true → Answers .trngFail s fun t => t.sec = { s.sec with trngFail := true } ∧ t.psq = s.psq ∧ t.med = s.med) ∧
  (∀ s : State, s.psq.mainUp = true → Answers .trngOk s fun t => t.sec = { s.sec with trngFail := false } ∧ t.psq = s.psq ∧ t.med = s.med) ∧
  (∀ s : State, s.psq.mainUp = true → s.sec.trngFail = false → Answers .drbgReseed s (· = { s with sec := { s.sec with drbg := s.sec.drbg + 1 } })) ∧
  (∀ s : State, s.psq.mainUp = true → s.sec.trngFail = true → Answers .drbgReseed s (· = s))

/-- The commands of groups 0x0Axx and 0x0Cxx (R88, R111, R162, R166, R249, R264, R265, R330). -/
def Obligations.BenchAndMediumCommands : Prop :=
  (∀ (s w : State) (r : AzReq), s.Takes w r 0x0A01 → s.hasRight r.chan .bench = true → r.params.length = 1 → r.n 0 ≤ 15 →
    Answers (.benchViewOpen r) s ((w.setXlt { w.xlt with bvOpen := true, bvRefset := Fin.ofNat 16 (r.n 0) }).judgeXlt.Answered · r .ok [])) ∧
  (∀ (s w : State) (r : AzReq), s.Takes w r 0x0A01 → s.hasRight r.chan .bench = true → r.params.length = 1 → 15 < r.n 0 →
    Answers (.benchViewOpen r) s (w.Answered · r .badParam [4])) ∧
  (∀ (s w : State) (r : AzReq), s.Takes w r 0x0A02 → s.hasRight r.chan .bench = true → r.params.length = 0 → w.xlt.raw = [] →
    Answers (.benchViewClose r) s ((w.setXlt { w.xlt with bvOpen := false, raw := [], rawHeld := [] }).judgeXlt.Answered · r .ok [])) ∧
  (∀ (s w u : State) (r : AzReq), s.Takes w r 0x0A02 → s.hasRight r.chan .bench = true → r.params.length = 0 → w.xlt.raw ≠ [] →
    u = w.cause Reg.XLT_CAUSE 0 6 310 →
    Answers (.benchViewClose r) s ((u.setXlt { u.xlt with bvOpen := false, raw := [], rawHeld := [] }).judgeXlt.Answered · r .ok [])) ∧
  (∀ (s w : State) (r : AzReq), s.Takes w r 0x0A03 → s.hasRight r.chan .admin = true → r.params.length = 4 → (s.chan r.chan).ops.length < 8 →
    (r.p 0).setWidth 16 = 0#16 → (r.p 2).setWidth 16 = 0#16 → r.p 2 ≠ 0 ∨ r.p 3 ≠ 0 → w.dram.sreq = none →
    Answers (.dramScrubRange r) s (State.Pending (((w.setReg64 Reg.DRM_SREQ_BASE_LO Reg.DRM_SREQ_BASE_HI 0 (BitVec.ofNat 64 (r.p64 0))).setReg64
      Reg.DRM_SREQ_LEN_LO Reg.DRM_SREQ_LEN_HI 0 (BitVec.ofNat 64 (r.p64 2))).scrubStart (some r.who)) · r 0x0A03 [])) ∧
  (∀ (s w : State) (r : AzReq), s.Takes w r 0x0A03 → s.hasRight r.chan .admin = true → r.params.length = 4 → (s.chan r.chan).ops.length < 8 →
    (r.p 0).setWidth 16 = 0#16 → (r.p 2).setWidth 16 = 0#16 → r.p 2 ≠ 0 ∨ r.p 3 ≠ 0 → w.dram.sreq ≠ none →
    Answers (.dramScrubRange r) s (w.Answered · r .busy [])) ∧
  (∀ (s w u : State) (r : AzReq) (x : Word), s.Takes w r 0x0A04 → s.hasRight r.chan .admin = true → r.params.length = 1 → r.n 0 % 4 = 0 →
    r.n 0 < 0x1000000 → w.readWord (.core 0) (r.n 0 % 0x400000) = some (u, x) → Answers (.regRead r) s (u.Answered · r .ok [x])) ∧
  (∀ (s w : State) (r : AzReq), s.Takes w r 0x0A04 → s.hasRight r.chan .admin = true → r.params.length = 1 →
    r.n 0 % 4 ≠ 0 ∨ 0x1000000 ≤ r.n 0 ∨ w.readWord (.core 0) (r.n 0 % 0x400000) = none → Answers (.regRead r) s (w.Answered · r .badParam [4])) ∧
  (∀ (s w : State) (r : AzReq), s.Takes w r 0x0A05 → s.hasRight r.chan .admin = true → r.params.length = 3 → r.n 2 ≤ 3 → r.n 0 % 4 = 0 →
    State.writeBad w (.core 0) (r.n 0) (State.accessOf (r.n 2)) = none →
    Answers (.regWrite r) s ((w.writeWord (.core 0) (r.n 0) (State.accessOf (r.n 2)) (r.p 1)).Answered · r .ok [])) ∧
  (∀ (s w : State) (r : AzReq), s.Takes w r 0x0C01 → s.hasRight r.chan .admin = true → r.params.length = 1 → r.n 0 ≤ 2303 →
    (w.die (r.n 0)).used = true → Answers (.dieMarkFailed r) s ((w.failDie (r.n 0)).settleMed.Answered · r .ok [])) ∧
  (∀ (s w : State) (r : AzReq), s.Takes w r 0x0C02 → s.hasRight r.chan .admin = true → r.params.length = 0 → (s.chan r.chan).ops.length < 8 →
    Answers (.orphanSweep r) s (w.Pending · r 0x0C02 [])) ∧
  (∀ (s w : State) (r : AzReq) (gs : List Nat), s.Takes w r 0x0C03 → s.hasRight r.chan .admin = true → r.params.length = 1 → r.n 0 < 512 →
    gs = (State.maskGroups (r.p 0)).filter (fun g => (w.qg g).inService) → gs = [] ∨ (∃ g ∈ gs, (w.pass g).running = false) →
    Answers (.teaselPassNow r) s ((gs.foldl (fun s g => s.passNow g) w).settleMed.Answered · r .ok [])) ∧
  (∀ (s w : State) (r : AzReq) (gs : List Nat), s.Takes w r 0x0C03 → s.hasRight r.chan .admin = true → r.params.length = 1 → r.n 0 < 512 →
    gs = (State.maskGroups (r.p 0)).filter (fun g => (w.qg g).inService) → gs ≠ [] → (∀ g ∈ gs, (w.pass g).running = true) →
    Answers (.teaselPassNow r) s (w.Answered · r .busy [])) ∧
  (∀ (s w : State) (r : AzReq), s.Takes w r 0x0C04 → s.hasRight r.chan .admin = true → r.params.length = 1 → (s.chan r.chan).ops.length < 8 →
    r.n 0 ≤ 2303 → w.dieUp (r.n 0) = true → (w.die (r.n 0)).sweep = false →
    Answers (.eyebrightSweep r) s ((w.startSweep (r.n 0)).Pending · r 0x0C04 [])) ∧
  (∀ (s w : State) (r : AzReq), s.Takes w r 0x0C04 → s.hasRight r.chan .admin = true → r.params.length = 1 → (s.chan r.chan).ops.length < 8 →
    r.n 0 ≤ 2303 → w.dieUp (r.n 0) = false → Answers (.eyebrightSweep r) s (w.Answered · r .wrongState [])) ∧
  (∀ (s w : State) (r : AzReq), s.Takes w r 0x0C05 → r.params.length = 0 → Answers (.mediumStatus r) s (w.Answered · r .ok
    [w.yrwSpare, BitVec.ofNat 32 (w.med.dies.filter fun d => d.2.failed).length,
      BitVec.ofNat 32 ((List.range 144).filter fun n => (w.qc n).lstate != .active).length, BitVec.ofNat 32 w.spoilCount])) ∧
  (∀ (s w : State) (r : AzReq), s.Takes w (r.withP1Bit true) 0x0C06 → s.hasRight r.chan .admin = true → r.params.length = 2 → r.n 0 ≤ 143 →
    r.n 1 < 2 → Answers (.channelOffline r) s ((w.offlineChan (r.n 0)).settleMed.Answered · (r.withP1Bit true) .ok [])) ∧
  (∀ (s w : State) (r : AzReq), s.Takes w (r.withP1Bit false) 0x0C06 → s.hasRight r.chan .admin = true → r.params.length = 2 → r.n 0 ≤ 143 →
    r.n 1 < 2 → (∀ j < 16, (w.qc (16 * (r.n 0 / 16) + j)).lstate = .active) →
    Answers (.channelReturn r) s (w.Answered · (r.withP1Bit false) .ok [])) ∧
  (∀ (s w : State) (r : AzReq) (k : Nat), s.Takes w (r.withP1Bit false) 0x0C06 → s.hasRight r.chan .admin = true → r.params.length = 2 →
    r.n 0 ≤ 143 → r.n 1 < 2 → (∃ j < 16, (w.qc (16 * (r.n 0 / 16) + j)).lstate ≠ .active) → k = w.groupSlot (r.n 0 / 16) →
    24 ≤ k ∨ (w.seq k).en = false → Answers (.channelReturn r) s (w.Answered · (r.withP1Bit false) .wrongState [])) ∧
  (∀ (s w : State) (r : AzReq) (k : Nat), s.Takes w (r.withP1Bit false) 0x0C06 → s.hasRight r.chan .admin = true → r.params.length = 2 →
    r.n 0 ≤ 143 → r.n 1 < 2 → (∃ j < 16, (w.qc (16 * (r.n 0 / 16) + j)).lstate ≠ .active) → k = w.groupSlot (r.n 0 / 16) → k < 24 →
    (w.seq k).en = true → w.psq.trans = none → (w.qg (r.n 0 / 16)).railsUp = false → (w.rail k).en = false → (w.rail k).pg = false →
    Answers (.channelReturn r) s
      ((w.startUp (.groupUp (Fin.ofNat 9 (r.n 0 / 16))) (BitVec.twoPow 24 k)).transCheck.Answered · (r.withP1Bit false) .ok []))

/-- The commands of group 0x0Bxx (R295, R304 to R309). -/
def Obligations.RdmaObjectCommands : Prop :=
  (∀ (s w : State) (r : AzReq) (vlan : Option (BitVec 12)), s.Takes w r 0x0B01 → s.hasRight r.chan .admin = true → r.params.length = 7 → r.n 0 ≤ 31 → r.n 1 ≤ 15 →
    r.p 6 &&& 0xFFFEF000#32 = 0 → vlan = (if (r.p 6).getLsbD 16 then some ((r.p 6).setWidth 12) else none) → Answers (.gidSet r) s (State.Answered (w.setMac (r.n 0) { w.mac (r.n 0) with
      gids := Tab.put none (w.mac (r.n 0)).gids (r.n 1) (some (BitVec.ofNat 128 (r.p64 2 + r.p64 4 * 2 ^ 64), vlan)) }) · r .ok [])) ∧
  (∀ (s w : State) (r : AzReq) (i : Nat), s.Takes w r 0x0B02 → r.params.length = 0 → w.sec.trngFail = false →
    firstFree w.rdma.pds 4096 = some i → Answers (.pdCreate r) s
      (State.Answered (w.draw.setPd i { chan := r.chan.val, token := Config.trng w.fresh }) · r .ok [BitVec.ofNat 32 i, Config.trng w.fresh])) ∧
  (∀ (s w : State) (r : AzReq), s.Takes w r 0x0B02 → r.params.length = 0 → w.sec.trngFail = true →
    Answers (.pdCreate r) s (w.Answered · r .wrongState [])) ∧
  (∀ (s w : State) (r : AzReq), s.Takes w r 0x0B03 → s.pdMine r.chan (r.n 0) = true → r.params.length = 1 → w.pdAt (r.n 0) ≠ none →
    Answers (.pdDestroy r) s fun t => ∃ u : State, u.Answered t r .ok [] ∧ u.rdma.pds = Tab.erase w.rdma.pds (r.n 0) ∧
      (∀ x ∈ u.rdma.wins, ∀ v, x.2 = some v → v.pd ≠ r.n 0) ∧ (∀ x ∈ u.rdma.cqs, ∀ v, x.2 = some v → v.pd ≠ r.n 0) ∧ Keeps [.rdma] w u) ∧
  (∀ (s w : State) (r : AzReq) (p : Pd), s.Takes w r 0x0B04 → s.pdMine r.chan (r.n 0) = true → r.params.length = 1 → w.pdAt (r.n 0) = some p →
    w.sec.trngFail = false → Answers (.pdToken r) s
      (State.Answered (w.draw.setPd (r.n 0) { p with token := Config.trng w.fresh }) · r .ok [Config.trng w.fresh])) ∧
  (∀ (s w : State) (r : AzReq) (i : Nat) (tag : BitVec 14), s.Takes w r 0x0B05 → s.pdMine r.chan (r.n 0) = true →
    s.windowReach r.chan (r.n 1) (r.n 2) (r.p64 5) (r.p64 7) = true → r.params.length = 9 → w.pdAt (r.n 0) ≠ none →
    r.n 1 = stagingRegion ∨ w.isRegion (r.n 1) = true ∧ r.p64 5 + r.p64 7 ≤ (w.region (r.n 1)).size * 65536 → r.n 2 ≤ 31 → r.p64 5 % 4096 = 0 →
    r.p64 7 % 4096 = 0 → 4096 ≤ r.p64 7 → firstFree w.rdma.wins 262144 = some i → tag = (Config.trng w.fresh).setWidth 14 →
    Answers (.windowCreate r) s fun t => ∃ u : State, u.Answered t r .ok [BitVec.ofNat 32 (i * 2 ^ 14 + tag.toNat)] ∧
      u.rdma = { w.rdma with wins := Tab.put none w.rdma.wins i (some { tag := tag, pd := r.n 0, region := r.n 1, rights := (r.p 2).setWidth 5
                                                                        vaBase := r.p64 3, rofs := r.p64 5, len := r.p64 7 }) } ∧
      u.fresh = w.fresh + 1) ∧
  (∀ (s w : State) (r : AzReq), s.Takes w r 0x0B05 → s.pdMine r.chan (r.n 0) = true →
    s.windowReach r.chan (r.n 1) (r.n 2) (r.p64 5) (r.p64 7) = true → r.params.length = 9 → w.pdAt (r.n 0) ≠ none → r.n 1 ≠ stagingRegion →
    w.isRegion (r.n 1) = true → r.n 2 ≤ 31 → r.p64 5 % 4096 = 0 → (w.region (r.n 1)).size * 65536 < r.p64 5 + r.p64 7 →
    Answers (.windowCreate r) s (w.Answered · r .badParam [11])) ∧
  (∀ (s w : State) (r : AzReq), s.Takes w r 0x0B06 → s.windowMine r.chan (r.p 0) = true → r.params.length = 1 → w.window (r.p 0) ≠ none →
    Answers (.windowDestroy r) s
      (State.Answered { w with rdma := { w.rdma with wins := Tab.erase w.rdma.wins (r.n 0 / 2 ^ 14) } } · r .ok [])) ∧
  (∀ (s w : State) (r : AzReq) (g off i : Nat), s.Takes w r 0x0B07 → s.pdMine r.chan (r.n 0) = true → r.params.length = 5 → w.pdAt (r.n 0) ≠ none →
    6 ≤ r.n 4 → r.n 4 ≤ 20 → w.ringAt (r.n 0) (r.p 1) (r.p64 2) (64 + 32 * 2 ^ r.n 4) = (false, some (g, off)) →
    firstFree w.rdma.cqs 65536 = some i → Answers (.cqCreate r) s (State.Answered { w with rdma := { w.rdma with
      cqs := Tab.put none w.rdma.cqs i (some { region := g, off := off, n := r.n 4, pd := r.n 0 }) } } · r .ok [BitVec.ofNat 32 i])) ∧
  (∀ (s w : State) (r : AzReq), s.Takes w r 0x0B08 → ((s.cq (r.n 0)).all fun q => s.pdMine r.chan q.pd) = true → r.params.length = 1 →
    w.cq (r.n 0) ≠ none → Answers (.cqDestroy r) s
      ((State.settleRdma { w with rdma := { w.rdma with cqs := Tab.erase w.rdma.cqs (r.n 0) } }).Answered · r .ok [])) ∧
  (∀ (s w : State) (r : AzReq) (n g off : Nat), s.Takes w r 0x0B09 → s.qpMine r.chan (r.n 0) = true → r.params.length = 7 →
    w.qpOf (r.n 0) = some n → (w.qp n).mgmt = none → 4 ≤ r.n 4 → r.n 4 ≤ 16 → ((w.cq (r.n 5)).any fun c => c.pd == (w.qp n).pd) = true →
    w.ringAt (w.qp n).pd (r.p 1) (r.p64 2) (64 * 2 ^ r.n 4) = (false, some (g, off)) → (w.qp n).error = false → (w.qp n).flight = [] →
    (w.qp n).wqes = [] → (w.qp n).sqHead = (w.qp n).sqTail → Answers (.sqAttach r) s (State.Answered (w.setQp n { w.qp n with
      sqRegion := g, sqOff := off, sqN := some (r.n 4), sqHead := 0, sqTail := 0, scq := some (r.n 5), rcq := some (r.n 5), ackUs := r.n 6 }) · r .ok [])) ∧
  (∀ (s w : State) (r : AzReq) (n k tail : Nat), s.Takes w r 0x0B0A → s.qpMine r.chan (r.n 0) = true → r.params.length = 2 →
    w.qpOf (r.n 0) = some n → (w.qp n).sqN = some k → r.n 1 ≤ 65535 → tail = (w.qp n).sqTail + (r.n 1 + 65536 - (w.qp n).sqTail % 65536) % 65536 →
    tail ≤ (w.qp n).sqHead + 2 ^ k → (w.qp n).error = false →
    Answers (.sqDoorbell r) s ((w.setQp n { w.qp n with sqTail := tail }).settleRdma.Answered · r .ok [])) ∧
  (∀ (s w : State) (r : AzReq) (n : Nat), s.Takes w r 0x0B0B → s.qpMine r.chan (r.n 0) = true → r.params.length = 1 → w.qpOf (r.n 0) = some n →
    Answers (.qpInfo r) s (w.Answered · r .ok [if (w.qp n).error then 2 else 1, (w.qp n).txPsn.setWidth 32, (w.qp n).epsn.setWidth 32]))

/-- The transports of the command channels (R341 to R357). -/
def Obligations.ChannelTransports : Prop :=
  (∀ (s : State) (c : Fin 64) (w : Word), s.psq.mainUp = true → (s.chan c).legacy = false → (s.chan c).bell = false → (s.chan c).inQ.length < 64 →
    Answers (.mbxIn c w) s (· = s.setChan c { s.chan c with inQ := (s.chan c).inQ ++ [w] })) ∧
  (∀ (s : State) (c : Fin 64) (w : Word), s.psq.mainUp = true → (s.chan c).legacy = false → (s.chan c).bell = true ∨ 64 ≤ (s.chan c).inQ.length →
    Answers (.mbxIn c w) s (· = s.setChan c { s.chan c with inQ := (s.chan c).inQ.dropLast ++ [w], collide := true })) ∧
  (∀ (s : State) (c : Fin 64) (w : Word), s.psq.mainUp = true → (s.chan c).legacy = true → Answers (.mbxIn c w) s (· = s)) ∧
  (∀ (s : State) (c : Fin 64) (ok : Bool), s.psq.mainUp = true → (s.chan c).legacy = false → (s.chan c).bell = false → (s.chan c).inQ = [] →
    (s.chan c).held = [] → Answers (.mbxDoorbell c ok) s (· = s)) ∧
  (∀ (s : State) (c : Fin 64) (ok : Bool), s.psq.mainUp = true → s.psq.vaon = true → (s.chan c).legacy = false → (s.chan c).bell = false →
    (s.chan c).inQ ≠ [] → (s.chan c).held = [] → s.canTake c = true → Answers (.mbxDoorbell c ok) s fun t => ∃ u : State, Keeps [.chans] s u ∧
      u.chan c = { s.chan c with bell := true } ∧ (∀ d, d ≠ c.val → u.chan d = s.chan d) ∧ t = u.takeNative c ok) ∧
  (∀ (s : State) (c : Fin 64) (ok : Bool), s.psq.mainUp = true → s.psq.vaon = true → (s.chan c).legacy = false → (s.chan c).bell = false →
    (s.chan c).inQ ≠ [] → (s.chan c).held = [] → s.canTake c = false → Answers (.mbxDoorbell c ok) s fun t => Keeps [.chans] s t ∧
      t.chan c = { s.chan c with bell := true, held := [{ opcode := pageMark, req := { chan := c, ok := ok } }] } ∧
      (∀ d, d ≠ c.val → t.chan d = s.chan d)) ∧
  (∀ (s : State) (c : Fin 64) (k : Nat), s.psq.mainUp = true → (s.chan c).legacy = false → (s.chan c).waiting = [] → (s.chan c).held = [] →
    Answers (.mbxOutPop c k) s (· = s.setChan c { s.chan c with outQ := (s.chan c).outQ.drop k })) ∧
  (∀ (s : State) (c : Fin 64), s.psq.mainUp = true → (s.chan c).legacy = false → (s.chan c).bell = false →
    Answers (.mbxInReset c) s (· = s.setChan c { s.chan c with inQ := [], collide := false })) ∧
  (∀ (s : State) (c : Fin 64), s.psq.mainUp = true → (s.chan c).bell = true → Answers (.mbxInReset c) s (· = s)) ∧
  (∀ (s : State) (c : Fin 64) (ok : Bool), s.psq.mainUp = true → s.psq.vaon = true → (s.chan c).legacy = true → (s.chan c).lgo = false →
    (s.chan c).held = [] → s.canTake c = true → Answers (.lGo c ok) s fun t => ∃ u : State, Keeps [.chans] s u ∧
      u.chan c = { s.chan c with lgo := true, begun := false, collide := false } ∧ (∀ d, d ≠ c.val → u.chan d = s.chan d) ∧ t = u.takeLegacy c ok) ∧
  (∀ (s : State) (c : Fin 64) (w : Word), s.psq.mainUp = true → s.psq.vaon = true → (s.chan c).legacy = true →
    Answers (.legacyRegisterCollide c 0x438 w) s (· = s.setChan c { s.chan c with lcmd := w, collide := (s.chan c).collide || (s.chan c).lgo })) ∧
  (∀ (s : State) (c : Fin 64) (off : Fin 4096) (w : Word), s.psq.mainUp = true → s.psq.vaon = true → (s.chan c).legacy = false →
    Answers (.legacyRegisterCollide c off w) s (· = s)) ∧
  (∀ (s : State) (ws : List Word) (ok : Bool), s.psq.vaon = true → (s.chan 0).who = .shelf → (s.chan 0).held = [] → s.canTake 0 = true →
    Answers (.mctpMessage 0 ws ok) s fun t => ∃ u : State, Keeps [.chans] s u ∧ (∀ d, u.chan d = s.chan d) ∧ t = u.takeWords 0 .mctp ws ok) ∧
  (∀ (s : State) (ws : List Word) (ok : Bool), s.psq.vaon = true → (s.chan 0).who = .shelf → (s.chan 0).held = [] → s.canTake 0 = true →
    s.psq.pstate ≠ .idle → bitsOf (ws.getD 0 0) 7 0 ≤ 60 → ws.length = 4 + bitsOf (ws.getD 0 0) 7 0 →
    (ws.getD 3 0).toNat ≠ (packetCrc (ws.getD 0 0) (ws.getD 1 0) (ws.getD 2 0) (ws.drop 4)).toNat →
    Answers (.mctpMessage 0 ws ok) s fun t => ∃ u : State, Keeps [.chans] s u ∧ (∀ d, u.chan d = s.chan d) ∧
      t = u.deliver 0 .mctp (replyWords .badParam false (BitVec.ofNat 16 (bitsOf (ws.getD 1 0) 31 16)) ((ws.getD 1 0).setWidth 16) [3])) ∧
  (∀ (s : State) (ws : List Word) (ok : Bool), s.psq.vaon = true → (s.chan 0).who = .shelf → s.canTake 0 = false →
    Answers (.mctpMessage 0 ws ok) s (· = s.setChan 0 { s.chan 0 with
      held := (s.chan 0).held ++ [{ opcode := wordsMark, req := { chan := 0, via := .mctp, params := ws, ok := ok } }] })) ∧
  (∀ (s : State) (off : BitVec 16) (ws : List Word) (ok : Bool), s.psq.vaon = true → (s.chan 0).legacy = false →
    Answers (.i3cPrivateWrite off ws ok 0) s (· = s.setChan 0 { s.chan 0 with i3cOff := off })) ∧
  (∀ (s : State) (off : BitVec 16) (ws : List Word) (ok : Bool) (rd : Nat), s.psq.vaon = true → (s.chan 0).legacy = false → rd ≠ 0 →
    Answers (.i3cPrivateWrite off ws ok rd) s fun t => ∃ u : State, u = s.setChan 0 { s.chan 0 with i3cOff := off } ∧
      t = u.emit (.i3cData ((List.range rd).map fun i => (u.readOff (0x080000 + (off.toNat + 4 * i) % 4096)).getD 0))) ∧
  (∀ (s : State) (off : BitVec 16) (w : Word) (ok : Bool), s.psq.vaon = true → (s.chan 0).legacy = true →
    Answers (.i3cPrivateWrite off [w] ok 0) s
      (· = ((s.setChan 0 { s.chan 0 with i3cOff := off }).i3cWord off.toNat w).pageSubmit 0 ok)) ∧
  (∀ (s w : State) (p : Fin 4) (l : Fin 16) (ws : List Word) (ok : Bool), s.psq.mainUp = true → s.ldThere p l = true → w = s.wakeIdle →
    w.chanOfLd p l = none → Answers (.azlerPacket p l ws ok) s (· = w.emit (.mailbox p l 3 []))) ∧
  (∀ (s w : State) (p : Fin 4) (l : Fin 16) (c : Fin 64) (ws : List Word) (ok : Bool), s.psq.mainUp = true → s.ldThere p l = true → w = s.wakeIdle →
    w.psq.vaon = true → w.chanOfLd p l = some c → (w.chan c).held = [] → w.canTake c = true →
    Answers (.azlerPacket p l ws ok) s fun t => ∃ u : State, Keeps [.chans] w u ∧ (∀ d, u.chan d = w.chan d) ∧
      t = (u.takeWords c .mailbox ws ok).emit (.mailbox p l 0 [])) ∧
  (∀ (s : State) (c : Fin 64) (tag : BitVec 16) (ok : Bool), s.psq.mainUp = true → s.flash.cores = .running →
    ((s.chan c).ops.find? fun o => o.tag == tag) = none → Answers (.pendingCommandComplete c tag ok) s (· = s)) ∧
  (∀ (s u : State) (c : Fin 64) (tag : BitVec 16) (ok : Bool) (o : PendingOp) (st : Status) (res : List Word), s.psq.mainUp = true →
    s.flash.cores = .running → ((s.chan c).ops.find? fun o => o.tag == tag) = some o → s.pendingEnd c o ok = (u, some (st, res)) →
    Answers (.pendingCommandComplete c tag ok) s (· = (u.complete c tag st res).catchUp c))

/-- Accesses to the CSR window (R21 to R34) and to schedule slots (R26, R54). -/
def Obligations.RegisterAccesses : Prop :=
  (∀ (s : State) (req : Requester) (off : Fin 4194304) (size : Nat) (full : Bool) (data : Dword), s.psq.vaon = true → s.debugReach req = true →
    (∀ b ∈ s.csr.blocked, b.req ≠ req) → State.mbxAt off = none → full = false ∨ size ≠ 4 ∧ size ≠ 8 ∨ off.val % 4 ≠ 0 →
    Answers (.csrWrite req none off size full data) s (· = s.busError req off true .badSize)) ∧
  (∀ (s : State) (req : Requester) (off : Fin 4194304) (data : Dword) (c : BusCause), s.psq.vaon = true → s.debugReach req = true →
    (∀ b ∈ s.csr.blocked, b.req ≠ req) → State.mbxAt off = none → off.val % 4 = 0 → s.writeBad req off .primary = some c →
    Answers (.csrWrite req none off 4 true data) s (· = s.busError req off true c)) ∧
  (∀ (s : State) (req : Requester) (off : Fin 4194304) (data : Dword), s.psq.vaon = true → s.debugReach req = true →
    (∀ b ∈ s.csr.blocked, b.req ≠ req) → State.mbxAt off = none → off.val % 4 = 0 →
    s.psq.mainUp = false → Answers (.csrWrite req none off 4 true data) s (· = s.emit (.busError req))) ∧
  (∀ (s : State) (req : Requester) (off : Fin 4194304) (data : Dword), s.psq.vaon = true → s.debugReach req = true → s.csr.blocked = [] →
    s.csr.posted.length < 16 → off.val % 4 = 0 → s.writeBad req off .primary = none →
    Answers (.csrWrite req none off 4 true data) s (· = (s.writeWord req off .primary data.lo).pageGo off)) ∧
  (∀ (s u : State) (req : Requester) (kind : AccessKind) (off : Fin 4194304) (x : Word) (data : Dword), s.psq.vaon = true → s.psq.mainUp = true →
    s.debugReach req = true → (∀ b ∈ s.csr.blocked, b.req ≠ req) → off.val % 4 = 0 → s.reaches req off = true → req.isPage = false →
    s.readWord req off = some (u, x) →
    Answers (.csrWrite req (some kind) off 4 true data) s (· = u.emit (.csrData req (x.setWidth 64)))) ∧
  (∀ (s : State) (req : Requester) (kind : AccessKind) (off : Fin 4194304) (data : Dword), s.psq.vaon = true → s.psq.mainUp = true →
    s.debugReach req = true → (∀ b ∈ s.csr.blocked, b.req ≠ req) → off.val % 4 = 0 → s.reaches req off = true → req.isPage = false →
    s.readWord req off = none →
    Answers (.csrWrite req (some kind) off 4 true data) s (· = s.busError req (kind.window + off) false .unimplemented)) ∧
  (∀ (s : State) (req : Requester) (data : Dword), s.psq.vaon = true → s.psq.mainUp = true → s.debugReach req = true →
    (∀ b ∈ s.csr.blocked, b.req ≠ req) → s.reaches req 0x130018 = true → req.isPage = false →
    Answers (.csrWrite req none 0x130018 4 true data) s (· = s.setReg Reg.TSL_WEAK_CNT 0 data.lo)) ∧
  (∀ (s : State) (req : Requester) (data : Word), s.psq.vaon = true → s.psq.mainUp = true → s.debugReach req = true →
    (∀ b ∈ s.csr.blocked, b.req ≠ req) → s.reaches req 0x130018 = true → req.isPage = false →
    Answers (.aliasWrite req .set 0x130018 4 true data) s (· = s.setReg Reg.TSL_WEAK_CNT 0 (s.reg Reg.TSL_WEAK_CNT ||| data)) ∧
    Answers (.aliasWrite req .clear 0x130018 4 true data) s (· = s.setReg Reg.TSL_WEAK_CNT 0 (s.reg Reg.TSL_WEAK_CNT &&& ~~~data)) ∧
    Answers (.aliasWrite req .toggle 0x130018 4 true data) s (· = s.setReg Reg.TSL_WEAK_CNT 0 (s.reg Reg.TSL_WEAK_CNT ^^^ data))) ∧
  (∀ (s : State) (req : Requester) (data : Dword), s.psq.vaon = true → s.psq.mainUp = true → s.debugReach req = true →
    (∀ b ∈ s.csr.blocked, b.req ≠ req) → s.reaches req 0x13002C = true → req.isPage = false →
    Answers (.csrWrite req none 0x13002C 4 true data) s fun t => t.fld Reg.TSL_REBUILD 0 5 0 = max 1 (min (bitsOf data.lo 5 0) 60)) ∧
  (∀ (s : State) (req : Requester) (kind : AccessKind) (off : Fin 4194304) (data : Word) (c : BusCause), kind ≠ .primary → s.psq.vaon = true →
    s.debugReach req = true → (∀ b ∈ s.csr.blocked, b.req ≠ req) → off.val % 4 = 0 → s.writeBad req off kind = some c →
    Answers (.aliasWrite req kind off 4 true data) s (· = s.busError req (kind.window + off) true c)) ∧
  (∀ (s : State) (req : Requester) (data : Dword), s.psq.vaon = true → s.psq.mainUp = true → s.debugReach req = true → s.csr.posted.length < 16 →
    s.csr.blocked = [] → s.reaches req 0x02000C = true → req.isPage = false →
    Answers (.csrWrite req none 0x02000C 4 true data) s (· = { s with csr := { s.csr with
      posted := s.csr.posted ++ [{ req := req, off := 0x02000C, kind := .primary, value := data.lo }] } })) ∧
  (∀ (s : State) (req : Requester) (data : Dword), s.psq.vaon = true → s.psq.mainUp = true → s.debugReach req = true → 16 ≤ s.csr.posted.length →
    s.reaches req 0x02000C = true → req.isPage = false → Answers (.csrWrite req none 0x02000C 4 true data) s (· = { s with csr := { s.csr with
      blocked := s.csr.blocked ++ [{ req := req, read := false, off := 0x02000C, kind := .primary, size := 4, full := true, data := data }] } })) ∧
  (∀ (s : State) (req : Requester) (read : Option AccessKind) (off : Fin 4194304) (size : Nat) (full : Bool) (data : Dword), s.psq.vaon = true →
    s.debugReach req = true → (∃ b ∈ s.csr.blocked, b.req = req) → State.mbxAt off = none → Answers (.csrWrite req read off size full data) s
      (· = { s with csr := { s.csr with blocked := s.csr.blocked ++ [
        { req := req, read := read.isSome, off := off, kind := read.getD .primary, size := size, full := full, data := data }] } })) ∧
  (∀ (s : State) (w : PostedWrite) (ws : List PostedWrite), s.psq.vaon = true → s.csr.posted = w :: ws → Answers .aonPostedWriteApply s
    (· = s.csr.blocked.foldl (fun (t : State) b => t.pageGo b.off)
      (State.applyPosted { s with csr := { s.csr with posted := ws } } w).busResume)) ∧
  (∀ s : State, s.psq.vaon = true → s.csr.posted = [] → Answers .aonPostedWriteApply s (· = s)) ∧
  (∀ (s : State) (k : Fin 256) (d : Word), s.psq.vaon = true → (s.slot k).arg ≠ d →
    Answers (.schedSlotWrite k 3 .primary d) s (· = s.setSlot k { s.slot k with arg := d, arm := false })) ∧
  (∀ (s : State) (k : Fin 256) (d : Word), s.psq.vaon = true → (s.slot k).period ≠ d →
    Answers (.schedSlotWrite k 4 .primary d) s (· = s.setSlot k { s.slot k with period := d, arm := false })) ∧
  (∀ (s : State) (k : Fin 256) (d : Word), s.psq.vaon = true → Answers (.schedSlotWrite k 0 .primary d) s
    (· = { s with csr := { s.csr with
      heldWrite := (s.csr.heldWrite.filter fun h => !(h.req == .core 0 && h.off == Reg.SCH_TIME_LO.at k)) ++
        [{ req := .core 0, off := Reg.SCH_TIME_LO.at k, value := d }] } })) ∧
  (∀ (s : State) (k : Fin 256) (d : Word) (h : HeldWord), s.psq.vaon = true →
    (s.csr.heldWrite.find? fun h => h.req == .core 0 && h.off == Reg.SCH_TIME_LO.at k) = some h → (s.slot k).time ≠ Dword.ofWords h.value d →
    Answers (.schedSlotWrite k 1 .primary d) s fun t => t.slot k = { s.slot k with time := Dword.ofWords h.value d, arm := false } ∧
      t.csr = { s.csr with heldWrite := s.csr.heldWrite.filter fun h => !(h.req == .core 0 && h.off == Reg.SCH_TIME_LO.at k) } ∧
      Keeps [.csr, .sched] s t) ∧
  (∀ (s : State) (k : Fin 256) (d : Word), s.psq.vaon = true → d.getLsbD 31 = true →
    Answers (.schedSlotWrite k 2 .primary d) s (· = (s.setSlot k { s.slot k with
      arm := true, miss := BitVec.ofNat 8 (bitsOf d 23 16), action := BitVec.ofNat 4 (bitsOf d 3 0) }).saveSlot k)) ∧
  (∀ (s : State) (k : Fin 256) (kind : AccessKind) (d : Word), s.psq.vaon = true →
    Answers (.schedSlotWrite k 5 kind d) s (· = s.setSlot k (s.slot k)))

/-- Bench 0 and the tiers (R13, R174, R178 to R180, R198, R246 to R265). -/
def Obligations.BenchAndTiers : Prop :=
  (∀ (s : State) (x : Nat) (b : BLine), s.benchWorks = true → s.bline x = some b → State.isPartial b = true → s.benchAwaited x = false →
    x ∉ s.sec.sealed → s.scbSlot x = none → (s.sett (lineSett x)).mode = .none → Answers (.partialLineMerge x) s fun t => ∃ u : State,
    u = s.mergeLine x ∧ u.bline x = some { b with valid := BitVec.allOnes 256, data := overlay b.valid b.data 0 } ∧ u.bench.partials = s.bench.partials.erase x ∧ t = u.settleMed) ∧
  (∀ (s : State) (x : Nat), s.benchWorks = true → s.bline x = none → Answers (.partialLineMerge x) s (· = s.settleMed)) ∧
  (∀ (s : State) (n : Nat), s.benchWorks = true → (s.bench.scbs.find? fun b => b.lsett == n) = none →
    Answers (.scbIdleClose n) s (· = s.settleMed)) ∧
  (∀ (s : State) (n : Nat) (b : Scb), s.benchWorks = true → ((s.scbProgram n).bench.scbs.find? fun b => b.lsett == n) = some b → b.closing = false →
    (∀ k ∈ b.slots, k.use ≠ .filling) → Answers (.scbIdleClose n) s
    (· = (((s.scbProgram n).setScb n (some { b with closing := true })).moveFeed n).settleMed)) ∧
  (∀ (s : State) (n : Nat) (b : Scb) (k : ScbSlot), s.benchWorks = true → ((s.scbProgram n).bench.scbs.find? fun b => b.lsett == n) = some b →
    b.closing = false → (b.slots.filter fun j => j.use == .filling) = [k] → Answers (.scbIdleClose n) s
    (· = ((((s.scbProgram n).setScb n (some { b with closing := true })).scbReturn n k).moveFeed n).settleMed)) ∧
  (∀ s : State, s.benchWorks = true → s.bench.frame = [] → Answers .forwardGatherExpiry s (· = s)) ∧
  (∀ (s : State) (f : Forwarded) (e : WEntry), s.benchWorks = true → s.bench.frame = [f.ftag] → (s.bench.forwarded.find? fun g => g.ftag == f.ftag) = some f →
    e = { ros := 0, region := f.w.region, ftag := f.ftag, stream := streamHashOf f.w.str, line := f.w.line, mask := f.w.mask, data := f.w.data } →
    Answers .forwardGatherExpiry s (· = (s.setBench { s.bench with frame := [] }).tsend false (.forward [e]))) ∧
  (∀ s : State, s.psq.mainUp = true → s.bench.domain = .replaying → s.bench.replayed = false → s.bench.replaying = none →
    (∀ d ∈ s.newerDesc.dies, s.dieSettled d = true) →
    Answers .drainReplay s (· = ((s.setHashKey s.newerDesc.hashKey).replayBegin).replayKick.settleMed)) ∧
  (∀ s : State, s.bench.replayed = true ∨ s.bench.domain ≠ .replaying ∨ (∃ d ∈ s.newerDesc.dies, s.dieSettled d = false) →
    Answers .drainReplay s (· = s)) ∧
  (∀ (s : State) (req : Requester) (hi : Word), s.psq.mainUp = true →
    (s.csr.heldWrite.find? fun h => h.req == req && h.off == Reg.PBF_HASH_KEY_LO.at 0) = none →
    Answers (.pbfHashKeyWrite req hi) s fun t => t.bit Reg.PBF_CAUSE 0 8 = true ∧ t.bench = s.bench) ∧
  (∀ (s : State) (req : Requester) (hi : Word) (h : HeldWord), s.psq.mainUp = true → s.dirtyLines = 0 →
    (s.csr.heldWrite.find? fun h => h.req == req && h.off == Reg.PBF_HASH_KEY_LO.at 0) = some h →
    Answers (.pbfHashKeyWrite req hi) s fun t => t.bench.hashKey = Dword.ofWords h.value hi) ∧
  (∀ s : State, s.benchWorks = true → s.xlt.map.write.isSome = true → Answers .checkpointChunkWrite s (· = s.settleMed)) ∧
  (∀ s : State, s.benchWorks = true → s.xlt.map.write = none → s.xlt.jrnl.running = true → s.xlt.jrnl.recs ≠ [] → s.chunksTodo = [] →
    Answers .checkpointChunkWrite s (· = s.freeFrame.settleMed)) ∧
  (∀ (s : State) (c : Nat) (rest : List Nat), s.benchWorks = true → s.xlt.map.write = none → s.xlt.jrnl.running = true → s.xlt.jrnl.recs ≠ [] →
    s.chunksTodo = c :: rest → Answers .checkpointChunkWrite s (· = (s.writeCopy c false true).settleMed)) ∧
  (∀ s : State, s.benchWorks = true → s.xlt.map.write = none → s.xlt.jrnl.running = false → s.xlt.map.weak = [] → s.mapAgeing = [] →
    Answers .checkpointChunkWrite s (· = (s.setMap { s.xlt.map with ageing := [] }).settleMed)) ∧
  (∀ (s : State) (u : Nat) (us : List Nat), s.benchWorks = true → s.xlt.map.write = none → s.xlt.jrnl.running = false → s.xlt.map.weak = u :: us →
    Answers .checkpointChunkWrite s (· = ((s.setMap { s.xlt.map with ageing := s.mapAgeing }).writeCopy (u / 2) (u % 2 == 1) false).settleMed)) ∧
  (∀ (s : State) (c : Nat), s.psq.mainUp = true → c ∈ s.xlt.prio → s.pairHere c = true → Answers (.priorityLoadDone c) s
    (· = (s.pairTake c).settleMed)) ∧
  (∀ (s : State) (c : Nat), c ∉ s.xlt.prio ∨ s.pairHere c = false → Answers (.priorityLoadDone c) s (· = s)) ∧
  (∀ (s : State) (d : Nat), s.benchWorks = true → s.xlt.load = .background → s.bit Reg.XLT_CTRL 0 0 = true →
    (s.diesUp.find? fun d => !s.xlt.freeLoaded.contains d) = some d → s.freeNext d = none → Answers .backgroundChunkLoad s
    (· = (s.setXlt { s.xlt with freeLoaded := s.xlt.freeLoaded ++ [d] }).judgeXlt.settleMed)) ∧
  (∀ (s : State) (c : Nat), s.benchWorks = true → s.xlt.load = .background → s.bit Reg.XLT_CTRL 0 0 = true →
    (s.diesUp.find? fun d => !s.xlt.freeLoaded.contains d) = none → s.tableNext = some c → s.pairHere c = false → Answers .backgroundChunkLoad s
    (· = (s.loadPair c).judgeXlt.settleMed)) ∧
  (∀ s : State, s.benchWorks = true → s.xlt.pages = [] → (∀ p ∈ s.med.setts, s.rankOf p.1 ≠ 3) → Answers .hintScan s
    (· = s.setXlt { s.xlt with promo := s.xlt.promo.filter fun p => p.2 || s.rankOf p.1 == 3 })) ∧
  (∀ s : State, s.benchWorks = true → s.bit Reg.XLT_CTRL 0 1 = true → s.xlt.promo = [] → Answers .poolPromote s (· = s.settleMed)) ∧
  (∀ (s : State) (n k : Nat) (w : Bool) (p : Phys) (rest : List (Nat × Bool)), s.benchWorks = true → s.bit Reg.XLT_CTRL 0 1 = true →
    s.xlt.promo = (n, w) :: rest → (s.sett n).mig = .idle → (s.sett n).promoted = false → (s.sett n).mode ≠ .none → s.chunkLoaded n = true →
    (s.sett n).phys = some p → s.dieUp p.die = true → s.freePage = some k → Answers .poolPromote s fun t => ∃ u : State,
    u = ((s.setXlt { s.xlt with promo := rest, poolLru := s.xlt.poolLru.erase n ++ [n] }).setPage n (some { page := k })).setSett n
      { s.sett n with mig := .promoting } ∧ t = ((List.range 256).foldl (fun s l => s.promoteLine n l) u).settleMed) ∧
  (∀ (s : State) (n : Nat), s.benchWorks = true → (s.sett n).mig = .demoting → Answers (.poolDemote n) s fun t => ∃ u : State,
    u = s.endPromotion n ∧ u.page n = none ∧ u.sett n = { s.sett n with promoted := false, mig := .idle } ∧ t = u.settleMed) ∧
  (∀ (s : State) (st : Stream) (o : Nat), s.psq.mainUp = true → Answers (.windowIdleClose st o) s fun t => Keeps [.xlt] s t ∧
    (∀ w ∈ t.xlt.windows, ¬ (w.stream = st ∧ w.object = o)) ∧ ∀ w ∈ s.xlt.windows, ¬ (w.stream = st ∧ w.object = o) → w ∈ t.xlt.windows) ∧
  (∀ (s : State) (a : Nat) (d : Chunk), s.xlt.bvOpen = false → Answers (.benchViewRawWrite a d) s (· = s)) ∧
  (∀ (s : State) (a : Nat) (d : Chunk), s.psq.mainUp = true → s.xlt.bvOpen = true → a < 0x1000000000000 →
    s.dieUp (physOf (a / 64 * 64 / 65536)).die = true → Answers (.benchViewRawWrite a d) s (· = (s.rawGather (a / 64 * 64) d).rawRetry)) ∧
  (∀ (s : State) (a : Nat), s.psq.mainUp = true → (∃ l ∈ s.xlt.raw, l.addr = a) → s.xlt.rawHeld = [] → Answers (.rawDiscard a) s fun t =>
    t.bit Reg.XLT_CAUSE 0 6 = true ∧ t.xlt = { s.xlt with raw := s.xlt.raw.filter fun l => l.addr != a })

/-- What MIRROR, FORWARD, ACK, READ_ASSIST and RESYNC frames do (R12, R17, R43, R207, R208, R213, R215, R226). -/
def Obligations.TandemWrites : Prop :=
  (∀ (s u : State) (p : Bool) (f : TFrame) (e : WEntry), s.Accepts p f → s.twin.pair = .paired → u = s.framed p f →
    (s.rt e.region).ros < e.ros → e.ros = s.nextRos e.region → Answers (.tandemMirror p f [e]) s (· =
      ((u.setBench { u.bench with orders := u.bench.orders ++ [{ w := u.entryWrite e, ros := e.ros, mine := false, ftag := e.ftag }] }).settleTwin.takeAttrs
        16).resyncHeld.settleTwin)) ∧
  (∀ (s u : State) (p : Bool) (f : TFrame) (e : WEntry), s.Accepts p f → s.twin.pair = .paired → u = s.framed p f →
    e.ros ≤ (s.rt e.region).ros → Answers (.tandemMirror p f [e]) s (· =
      ((u.tsend (e.region % 2 == 1) (.ack u.dirtyLines u.med.yarrow.cap [.mirrorDone e.region (u.rt e.region).ros])).settleTwin.takeAttrs
        16).resyncHeld.settleTwin)) ∧
  (∀ (s u : State) (p : Bool) (f : TFrame) (e : WEntry), s.Accepts p f → s.twin.pair = .paired → u = s.framed p f →
    (s.rt e.region).ros < e.ros → s.nextRos e.region < e.ros → s.bench.early = [] → Answers (.tandemMirror p f [e]) s (· =
      ((u.setBench { u.bench with early := [{ w := u.entryWrite e, ros := e.ros, mine := false, ftag := e.ftag }] }).settleTwin.takeAttrs
        16).resyncHeld.settleTwin)) ∧
  (∀ (s u : State) (p : Bool) (f : TFrame) (e : WEntry) (o : Ordered), s.Accepts p f → s.twin.pair = .paired → u = s.framed p f →
    (s.rt e.region).ros < e.ros → s.nextRos e.region < e.ros → o ∈ s.bench.early → o.ros = e.ros → o.w.region = e.region →
    Answers (.tandemMirror p f [e]) s (· = (u.settleTwin.takeAttrs 16).resyncHeld.settleTwin)) ∧
  (∀ (s u : State) (p : Bool) (f : TFrame) (e : WEntry) (o : Ordered), s.Accepts p f → s.twin.pair = .paired → u = s.framed p f →
    o ∈ s.bench.orders → o.mine = true → o.ftag = e.ftag → Answers (.tandemForward p f [e]) s (· = u.settleTwin)) ∧
  (∀ (s u : State) (p : Bool) (f : TFrame) (e : WEntry), s.Accepts p f → s.twin.pair = .paired → u = s.framed p f →
    (s.bench.orders.all fun o => !(o.mine && o.ftag == e.ftag)) = true → (s.bench.held.all fun h => h.who != .twin e.ftag) = true →
    ((s.rt e.region).home = false → Answers (.tandemForward p f [e]) s (· =
      (u.tsend false (.ack u.dirtyLines u.med.yarrow.cap [.fwdRefused e.ftag 0x21])).settleTwin)) ∧
    ((s.rt e.region).home = true → Answers (.tandemForward p f [e]) s (· = (u.submit { u.entryWrite e with who := .twin e.ftag }).settleTwin))) ∧
  (∀ (s v : State) (p : Bool) (f : TFrame) (dirty : Nat) (c : Cap) (region : Fin 4096) (ros : Nat), s.Accepts p f → s.twin.pair = .paired →
    v = peerLevels (s.framed p f) dirty c → (v.region region).opening = false → Answers (.mirrorDone p f dirty c region ros) s (· =
      ((v.setBench { v.bench with orders := v.bench.orders.map fun o =>
        if o.mine && o.w.region == region.val && decide (o.ros ≤ ros) then { o with mirrored := true } else o }).resyncCovered region ros).settleTwin)) ∧
  (∀ (s v : State) (p : Bool) (f : TFrame) (dirty : Nat) (c : Cap) (ftag : BitVec 16) (count : BitVec 8), s.Accepts p f → s.twin.pair = .paired →
    v = peerLevels (s.framed p f) dirty c → v.bench.domain ≠ .opened → Answers (.fwdDurable p f dirty c ftag count) s (· = v)) ∧
  (∀ (s v : State) (p : Bool) (f : TFrame) (dirty : Nat) (c : Cap) (ftag : BitVec 16) (x : Forwarded) (q : Fin 4) (l : Fin 16) (tag : Nat),
    s.Accepts p f → s.twin.pair = .paired → v = peerLevels (s.framed p f) dirty c → v.bench.domain = .opened → v.bench.forwarded = [x] →
    x.ftag = ftag → x.w.who = .cxl q l tag → Answers (.fwdDurable p f dirty c ftag 1) s (· =
      ((v.setBench { v.bench with forwarded := [] }).emit (.memCmp q l tag)).settleTwin)) ∧
  (∀ (s v : State) (p : Bool) (f : TFrame) (dirty : Nat) (c : Cap) (ftag status : BitVec 16), s.Accepts p f → s.twin.pair = .paired →
    v = peerLevels (s.framed p f) dirty c → (v.bench.forwarded.all fun x => x.ftag != ftag) = true →
    Answers (.fwdRefused p f dirty c ftag status) s (· = v)) ∧
  (∀ (s v : State) (p : Bool) (f : TFrame) (dirty : Nat) (c : Cap) (x : Forwarded), s.Accepts p f → s.twin.pair = .paired →
    v = peerLevels (s.framed p f) dirty c → v.bench.forwarded = [x] →
    Answers (.fwdRefused p f dirty c x.ftag 0x30) s (· = ((v.setBench { v.bench with forwarded := [] }).refuseHost x.w .red).settleTwin) ∧
    Answers (.fwdRefused p f dirty c x.ftag 0x21) s (· = ((v.setBench { v.bench with forwarded := [] }).refuseHost x.w .notHere).settleTwin)) ∧
  (∀ (s u : State) (p : Bool) (f : TFrame) (rtag : Word) (region : Fin 4096) (line : Nat), s.Accepts p f → s.twin.pair = .paired →
    u = s.framed p f → (s.twin.replies.all fun e => e.rtag != rtag) = true →
    ((s.rt region).fenced = true ∨ (s.rt region).target = true ∨ (s.region region).valid = false →
      Answers (.tandemReadAssistRequest p f rtag region line 1) s (· = u.tsend false (.assistRep rtag region line true .notHeld))) ∧
    ((s.rt region).fenced = false → (s.rt region).target = false → (s.region region).valid = true →
      Answers (.tandemReadAssistRequest p f rtag region line 1) s fun t => ∃ v : State,
        v = u.setTwin { u.twin with replies := u.twin.replies ++ [{ rtag := rtag, region := region.val, line := line, last := true }] } ∧
        t = (v.serveRead { who := .assist rtag true, region := region, rline := (v.rlineOf line).2, line := line, chunks := 15 }).settle)) ∧
  (∀ (s : State) (p : Bool) (f : TFrame) (rtag : Word) (line : Nat) (last : Bool) (st : AssistStatus), s.Accepts p f → s.twin.pair = .paired →
    (s.twin.assists.all fun a => a.rtag != rtag) = true → Answers (.tandemReadAssistReply p f rtag line last st) s (· = s.framed p f)) ∧
  (∀ (s u v : State) (p : Bool) (f : TFrame) (a : Assist) (d : Line), s.Accepts p f → s.twin.pair = .paired → u = s.framed p f →
    s.twin.assists = [a] → 0 < a.count → v = u.setTwin { u.twin with assists := [] } →
    (a.why = .read → Answers (.tandemReadAssistReply p f a.rtag a.line true (.data d)) s (· =
      ((v.installLine a.line d false false).answerReads a.line (some d)).settleTwin)) ∧
    (a.why = .bench → Answers (.tandemReadAssistReply p f a.rtag a.line true (.data d)) s (· =
      ((v.installLine a.line d true false).answerReads a.line (some d)).settleTwin)) ∧
    (a.why = .bench → Answers (.tandemReadAssistReply p f a.rtag a.line true .notHeld) s (· =
      ((v.loseHere a.line).answerReads a.line none).settleTwin)) ∧
    (a.why = .recover → Answers (.tandemReadAssistReply p f a.rtag a.line true .unrecovered) s (· = (v.unrecovered a.line).settleTwin))) ∧
  (∀ (s u : State) (p : Bool) (f : TFrame) (e : WEntry), s.Accepts p f → s.twin.pair = .paired → u = s.framed p f →
    ((s.rt e.region).target = false → Answers (.tandemResync p f [e]) s (· = u.settleTwin)) ∧
    ((s.rt e.region).target = true → (s.rt e.region).ros < e.ros → Answers (.tandemResync p f [e]) s (· =
      (u.setTwin { u.twin with rsHeld := u.twin.rsHeld ++ [(e, f.last)] }).settleTwin)) ∧
    ((s.rt e.region).target = true → e.ros ≤ (s.rt e.region).ros → e.unalloc = true → Answers (.tandemResync p f [e]) s fun t => ∃ v : State,
      v = (u.releaseSett (lineSett e.line)).targetSett e.region ∧
      t = (v.tsend (e.region % 2 == 1) (.ack v.dirtyLines v.med.yarrow.cap [.mirrorDone e.region e.ros])).settleTwin)) ∧
  (∀ (s : State) (p : Bool) (f : TFrame) (c : Cap), s.Accepts p f → s.twin.pair = .paired →
    Answers (.capState p f c) s (· = peerLevels (s.framed p f) s.twin.peerDirty c)) ∧
  (∀ (s u : State) (p : Bool) (f : TFrame) (seq echo : Word) (dirty : Nat) (c : Cap), s.Accepts p f → u = s.framed p f →
    Answers (.tandemHeartbeat p f seq echo dirty c) s (· =
      (peerLevels (u.setTwin { u.twin with hbRx := seq, hbEcho := echo }) dirty c).settleTwin))

/-- What PAIR, SYNC and CONTROL frames do (R209 to R211, R219, R225, R227, R229 to R231, R238, R469). That an untrusted holdover sends no time is the
model's reading of "holdover from start" (log entry 113). -/
def Obligations.TandemControl : Prop :=
  (∀ (s : State) (p : Bool) (f : TFrame), s.psq.mainUp = true → s.twin.pair = .attesting → s.twin.session = 0 → (s.tport p).st = .up →
    f.shapeOk = true → f.session = 0 →
    (∀ n, Answers (.tandemPair p f (.step n)) s (· = s.tsend p (.pair (n + 1)))) ∧
    Answers (.tandemPair p f .failed) s (· = ((s.endSession.setPair .unpaired).cause Reg.TDM_CAUSE 0 8 240).judgeTdm) ∧
    (∀ session identity uid compat (life : Fin 6) debug, s.sec.trngFail = false → s.twin.binding ≠ some identity ∨ lifeMatches s.life.code life = false ∨
      (s.life = .fieldLocked ∧ debug = true) ∨ session = 0 → Answers (.tandemPair p f (.done session identity uid compat life debug)) s (· =
        ((s.endSession.setPair .unpaired).cause Reg.TDM_CAUSE 0 8 240).judgeTdm)) ∧
    (∀ session identity uid compat (life : Fin 6) debug, s.sec.trngFail = false → s.twin.binding = some identity → session ≠ 0 →
      lifeMatches s.life.code life = true → (s.life = .fieldLocked → debug = false) → compat ≠ s.flash.runCompat →
      Answers (.tandemPair p f (.done session identity uid compat life debug)) s (· =
        ((s.endSession.setPair .unpaired).cause Reg.TDM_CAUSE 0 7 239).judgeTdm)) ∧
    (∀ session identity uid (life : Fin 6) debug, s.sec.trngFail = false → s.twin.binding = some identity → session ≠ 0 →
      lifeMatches s.life.code life = true → (s.life = .fieldLocked → debug = false) →
      Answers (.tandemPair p f (.done session identity uid s.flash.runCompat life debug)) s (· =
        startSession (s.setTwin { s.twin with peerUid := uid, peerCompat := s.flash.runCompat }) session))) ∧
  (∀ (s : State) (p : Bool) (f : TFrame) (m : PairMove), s.twin.pair ≠ .attesting → Answers (.tandemPair p f m) s (· = s)) ∧
  (∀ (s u v : State) (p : Bool) (f : TFrame) (x : SyncTimes) (src : TimeSource) (trust : Trust), s.Accepts p f → u = s.framed p f →
    v = u.setTwin { u.twin with rtt := BitVec.ofNat 16 (min 0xFFFF x.trip.toNat), peerSource := src, peerTrust := trust } →
    (sendsTime v = true → s.tally.twinQualified = false →
      Answers (.tandemSync p f x src trust) s (· = v.setTwin { v.twin with timeSender := true })) ∧
    (sendsTime v = true → s.tally.twinQualified = true → Answers (.tandemSync p f x src trust) s fun t => ∃ w : State,
      w = v.setTwin { v.twin with timeSender := true } ∧ t = (w.setTally { w.tally with twinQualified := false }).selectSource) ∧
    (sendsTime v = false → State.isHoldover src = true → trust = .untrusted →
      Answers (.tandemSync p f x src trust) s (· = v.setTwin { v.twin with timeSender := false })) ∧
    (∀ w y : State, sendsTime v = false → src = .ptp → s.tally.twinHoldoff = false → w = v.setTwin { v.twin with timeSender := false } →
      y = (w.setTally { w.tally with twinQualified := true }).selectSource → y.tally.source = .twin →
      Answers (.tandemSync p f x src trust) s (· = (y.offerTime .twin trust (x.time y.tally.now)).ageFollow u))) ∧
  (∀ (s u : State) (p : Bool) (f : TFrame) (n : Fin 16), s.Accepts p f → s.twin.pair = .paired → u = s.framed p f →
    Answers (.draining p f n) s fun t => ∃ v w : State, v = (u.cause Reg.TDM_CAUSE 0 11 243).declareLoss ∧
      w = v.setTwin { v.twin with fenceWait := false } ∧ t = (w.regionIds.foldl (fun s r => s.fenceEnd r) w).settleTwin) ∧
  (∀ (s u : State) (p : Bool) (f : TFrame), s.Accepts p f → s.twin.pair = .paired → u = s.framed p f →
    Answers (.detachFrame p f) s fun t => ∃ v w : State, v = ((u.setPair .detached).failHanding).endSession ∧
      w = v.regionIds.foldl (fun s r => (s.putRt r { s.rt r with
        home := true, noHome := false, opened := (s.rt r).opened && !(s.rt r).target }).goSolo r) v ∧
      t = (w.setTwin { w.twin with leaving := none, peerLeaving := false }).failForwarded.failAlloc.settleTwin) ∧
  (∀ (s u : State) (p : Bool) (f : TFrame) (region : Fin 4096) (term : Word) (ros : Nat), s.Accepts p f → s.twin.pair = .paired → u = s.framed p f →
    Answers (.handover p f region term ros) s fun t => ∃ v : State, v = u.putRt region { u.rt region with
        home := true, noHome := false, term := term, ros := max (u.rt region).ros ros } ∧
      t = ((v.tsend false (.control (.handoverAck region term))).drawMissing region).settleTwin) ∧
  (∀ (s u : State) (p : Bool) (f : TFrame) (region : Fin 4096) (term : Word), s.Accepts p f → s.twin.pair = .paired → u = s.framed p f →
    ((s.rt region).handing = none → Answers (.handoverAck p f region term) s (· = u)) ∧
    ((s.rt region).handing = some none → Answers (.handoverAck p f region term) s (· =
      ((u.putRt region { u.rt region with handing := none, term := term }).fenceWaited region).settleTwin)) ∧
    (∀ c tag, (s.rt region).handing = some (some (c, tag)) → Answers (.handoverAck p f region term) s (· =
      (((u.putRt region { u.rt region with handing := none, term := term }).fenceWaited region).complete c tag .ok []).settleTwin))) ∧
  (∀ (s u : State) (p : Bool) (f : TFrame) (region : Fin 4096) (c : RegionCompare), s.Accepts p f → u = s.framed p f →
    Answers (.regionState p f region c) s fun t => ∃ v w : State, v = u.setRt region { u.rt region with
        compared := some c, twinUnfit := (u.region region).extents.any fun e => decide (c.extents ≤ e) } ∧
      w = v.setXlt { v.xlt with peerExtents := c.extents } ∧
      (State.roleOf (w.regionCompare region) c = none →
        t = w.tsend false (.control (.resyncPlan region false false (s.rt region).marks.length))) ∧
      (State.roleOf (w.regionCompare region) c = some (true, false) →
        t = w.tsend false (.control (.resyncPlan region true false (s.rt region).marks.length))) ∧
      (State.roleOf (w.regionCompare region) c = some (true, true) →
        t = w.tsend false (.control (.resyncPlan region true false (w.settsOf region fun n => w.allocated n).length)))) ∧
  (∀ (s u v : State) (p : Bool) (f : TFrame) (region : Fin 4096) (count : Nat) (marks : List Nat), s.Accepts p f → u = s.framed p f →
    (s.twin.pair = .paired → Answers (.resyncPlan p f region count marks) s (· = u)) ∧
    (s.twin.pair = .attesting → (s.region region).valid = true → v = u.setRt region { u.rt region with
        planned := true, left := max count ((u.rt region).marks ++ marks).dedup.length, todo := marks } →
      (v.allPlanned = true → Answers (.resyncPlan p f region count marks) s (· = v.pairComplete)) ∧
      (v.allPlanned = false → Answers (.resyncPlan p f region count marks) s (· = v)))) ∧
  (∀ (s u : State) (p : Bool) (f : TFrame) (region : Fin 4096), s.Accepts p f → s.twin.pair = .paired → u = s.framed p f →
    ((s.rt region).source = false → Answers (.resyncDone p f region) s (· = u)) ∧
    ((s.rt region).source = true → Answers (.resyncDone p f region) s (· =
      (((u.putRt region { u.rt region with source := false, todo := [] }).clearMarks region).cause Reg.TDM_CAUSE 0 12 244).settleTwin))) ∧
  (∀ (s u : State) (p : Bool) (f : TFrame) (port phase : Bool), s.Accepts p f → u = s.framed p f →
    Answers (.rekey p f port phase) s (· = u.setTport port { u.tport port with phaseRx := phase, oldKey := true })) ∧
  (∀ (s u : State) (p : Bool) (f : TFrame) (n : Fin 16), s.Accepts p f → s.twin.pair = .paired → u = s.framed p f →
    (s.twin.leftByDetach = true → Answers (.leaving p f n) s (· = u.tsend false (.control .detach))) ∧
    (s.twin.leftByDetach = false → Answers (.leaving p f n) s (· = (u.setTwin { u.twin with peerLeaving := true }).settleTwin))) ∧
  (∀ (s u : State) (p : Bool) (f : TFrame) (region : Fin 4096) (ros : Nat) (ver : Word) (a : RegionAttr), s.Accepts p f → u = s.framed p f →
    (s.twin.pair = .paired → Answers (.regionAttr p f region ros ver a) s (· =
      (((u.setTwin { u.twin with attrs := u.twin.attrs ++ [(region.val, ros, ver, a)] }).takeAttrs 16).drawMissing region).settleTwin)) ∧
    (s.twin.pair = .attesting → (s.region region).valid = false ∨ (s.rt region).attrVer < ver →
      Answers (.regionAttr p f region ros ver a) s (· = u.applyAttr region ver a)) ∧
    (s.twin.pair = .attesting → (s.region region).valid = true → ver ≤ (s.rt region).attrVer → a.keyId = none →
      Answers (.regionAttr p f region ros ver a) s (· = u))) ∧
  (∀ (s u : State) (p : Bool) (f : TFrame), s.Accepts p f → s.twin.pair = .paired → u = s.framed p f →
    (∀ grow size mode flags, u.side0 = true → Answers (.allocate p f (.ask grow size mode flags)) s (· = (u.allocAsk grow size mode flags).settleTwin)) ∧
    (∀ grow size mode flags, u.side0 = false → Answers (.allocate p f (.ask grow size mode flags)) s (· = u)) ∧
    (∀ st region, s.twin.waitAlloc = [] → Answers (.allocate p f (.answer st region)) s (· = u.settleTwin)) ∧
    (∀ st region rest, s.twin.waitAlloc = none :: rest → Answers (.allocate p f (.answer st region)) s (· =
      (u.setTwin { u.twin with waitAlloc := rest }).settleTwin)))

/-- The ports of the Tandem link (R202, R203, R206, R208, R209, R211). -/
def Obligations.TandemLinkLayer : Prop :=
  (∀ (s : State) (p : Bool) (f : TFrame) (c : Cap) (es : List WEntry), s.psq.mainUp = true → s.bit Reg.TDM_CTRL 0 0 = true →
    s.bit Reg.TDM_CTRL 0 (State.portEn p) = true → (s.tport p).st = .up → s.twin.pair = .paired →
    f.shapeOk = false ∨ f.session ≠ s.twin.session ∨ f.session = 0 ∨ f.fseq ≤ (s.tport p).fseqRx →
    Answers (.capState p f c) s (· = s.bump Reg.TDM_DROP_CNT 0 31 0) ∧ Answers (.tandemMirror p f es) s (· = s.bump Reg.TDM_DROP_CNT 0 31 0) ∧
    Answers (.tandemResync p f es) s (· = s.bump Reg.TDM_DROP_CNT 0 31 0)) ∧
  (∀ (s u : State) (p : Bool) (f : TFrame) (c : Cap) (v : TPort), s.psq.mainUp = true → s.bit Reg.TDM_CTRL 0 0 = true →
    s.bit Reg.TDM_CTRL 0 (State.portEn p) = true → v = s.tport p → v.st = .up → s.twin.pair = .paired → f.shapeOk = true → f.session ≠ 0 →
    f.session = s.twin.session → v.fseqRx < f.fseq → f.tagOk = false → u = (s.bump Reg.TDM_AUTH_CNT 0 31 0).cause Reg.TDM_CAUSE 0 9 241 →
    (v.fails = 0 → Answers (.capState p f c) s (· = (((u.setTport p { v with
      fails := 1, failAt := s.tally.now, st := .full, barred := false, unacked := 0, replays := 0, fastTried := 0 }).bump
        Reg.TDM_RETRAIN 0 (if p then 15 else 7) (if p then 8 else 0)).emit (.tandemRetrain p true)).judgeTdm)) ∧
    (v.fails = 2 → s.tally.now.toNat ≤ v.failAt.toNat + secUnits → Answers (.capState p f c) s (· = (((u.setTport p { v with
      fails := 3, st := .down, barred := true, unacked := 0, replays := 0, fastTried := 0 }).bump
        Reg.TDM_RETRAIN 0 (if p then 15 else 7) (if p then 8 else 0)).emit (.tandemRetrain p true)).judgeTdm))) ∧
  (∀ (s : State) (p : Bool) (flit : Option TFlit), s.psq.mainUp = true → (s.tport p).st = .up → (s.tport p).nak = false →
    (∀ w, flit = some w → tflitBad w = true ∨ tflitKind w = 1 ∧ tflitSeq w ≠ (s.tport p).rxSeq) → Answers (.tandemFlitDiscard p flit) s
    (· = (s.setTport p { s.tport p with nak := true }).emit (.tandemNak p ((s.tport p).rxSeq - 1)))) ∧
  (∀ (s : State) (p : Bool) (flit : Option TFlit), (s.tport p).nak = true → Answers (.tandemFlitDiscard p flit) s (· = s)) ∧
  (∀ (s : State) (p : Bool) (w : TFlit), tflitBad w = false → tflitKind w ≠ 1 ∨ tflitSeq w = (s.tport p).rxSeq →
    Answers (.tandemFlitDiscard p (some w)) s (· = s)) ∧
  (∀ (s : State) (p : Bool) (k : BitVec 12), s.psq.mainUp = true → (s.tport p).st = .up → k.toNat < (s.tport p).unacked → (s.tport p).replays = 0 →
    Answers (.tandemFlitAck p ((s.tport p).ackSeq + k)) s (· = s.setTport p { s.tport p with
      ackSeq := (s.tport p).ackSeq + k + 1, unacked := (s.tport p).unacked - (k.toNat + 1) })) ∧
  (∀ (s : State) (p : Bool), s.psq.mainUp = true → (s.tport p).st = .up →
    (0 < (s.tport p).rxOwed → Answers (.tandemAckTimer p) s
      (· = (s.setTport p { s.tport p with rxOwed := 0 }).emit (.tandemAck p ((s.tport p).rxSeq - 1)))) ∧
    ((s.tport p).rxOwed = 0 → Answers (.tandemAckTimer p) s (· = s))) ∧
  (∀ (s : State) (p : Bool) (v : TPort), s.psq.mainUp = true → (s.tport p).st = .up → (s.tport p).unacked = 0 → v = s.tport p →
    (v.replays = 0 → Answers (.tandemNakReceived p v.ackSeq) s (· =
      (s.setTport p { v with replayFrom := v.ackSeq, replays := 1 }).emit (.tandemReplay p v.ackSeq))) ∧
    (v.replays = 7 → v.replayFrom = v.ackSeq → Answers (.tandemNakReceived p v.ackSeq) s fun t => ∃ u : State,
      u = (s.setTport p { v with replayFrom := v.ackSeq, replays := 8 }).emit (.tandemReplay p v.ackSeq) ∧
      t = (u.setTport p { v with replayFrom := v.ackSeq, replays := 8, st := .fast, fastTried := 1 }).emit (.tandemRetrain p false))) ∧
  (∀ (s : State) (p : Bool) (v : TPort), s.psq.mainUp = true → v = s.tport p → v.st = .fast →
    Answers (.tandemRetrainDone p true) s (· = ((s.setTport p { v with st := .up, replays := 0 }).emit (.tandemReplay p v.ackSeq)).judgeTdm) ∧
    (v.fastTried < 3 → Answers (.tandemRetrainDone p false) s (· =
      ((s.setTport p { v with st := .fast, fastTried := v.fastTried + 1 }).emit (.tandemRetrain p false)).judgeTdm)) ∧
    (v.fastTried = 3 → Answers (.tandemRetrainDone p false) s (· =
      (((s.setTport p { v with st := .full, unacked := 0, replays := 0 }).bump Reg.TDM_RETRAIN 0 (if p then 15 else 7) (if p then 8 else 0)).emit
        (.tandemRetrain p true)).judgeTdm))) ∧
  (∀ (s u : State) (p : Bool) (v : TPort), s.psq.mainUp = true → v = s.tport p → v.st = .full →
    u = s.setTport p { v with st := .up, fastTried := 0, nak := false, rxOwed := 0 } →
    (s.twin.pair ≠ .paired → Answers (.tandemRetrainDone p false) s (· = (s.setTport p { v with st := .down, fastTried := 0, unacked := 0 }).judgeTdm)) ∧
    (s.twin.pair = .paired → Answers (.tandemRetrainDone p false) s
      (· = ((s.setTport p { v with st := .down, fastTried := 0, unacked := 0 }).resendPort p).judgeTdm)) ∧
    (v.fails = 0 → s.twin.pair = .paired → Answers (.tandemRetrainDone p true) s (· = (u.resendPort p).judgeTdm)) ∧
    (0 < v.fails → s.twin.session ≠ 0 → s.twin.pair = .attesting → Answers (.tandemRetrainDone p true) s fun t => ∃ w : State,
      w = u.tsend p (.control (.rekey p (!v.phaseTx))) ∧ t = (w.setTport p { w.tport p with phaseTx := !v.phaseTx, frames := 0 }).judgeTdm)) ∧
  (∀ (s : State) (p : Bool) (v : TPort), s.hostsMay = true → s.bit Reg.TDM_CTRL 0 0 = true → s.bit Reg.TDM_CTRL 0 (State.portEn p) = true →
    v = s.tport p → v.st = .down → v.barred = false → s.twin.binding = none → Answers (.tandemPortUp p) s (· = (s.setTport p { v with
      st := .up, ackSeq := 0, unacked := 0, replays := 0, fastTried := 0, rxSeq := 0, rxOwed := 0, nak := false, barred := false
      trainedMap := if p then s.twin.lane1 else s.twin.lane0 }).judgeTdm)) ∧
  (∀ (s : State) (p : Bool), s.bit Reg.TDM_CTRL 0 (State.portEn p) = false → Answers (.tandemPortUp p) s (· = s)) ∧
  (∀ s : State, s.psq.mainUp = true → s.twin.p0.st = .up →
    (s.twin.pair = .paired → Answers .pairingRetryTimer s (· = s.judgeTdm)) ∧
    (∀ h, s.twin.pair = .unpaired → s.twin.binding = some h → s.bit Reg.TDM_CTRL 0 0 = true → s.loadStarted = true → s.regionIds = [] → Answers .pairingRetryTimer s fun t =>
      ∃ u : State, u = (s.setTwin { s.twin with session := 0 }).setPair .attesting ∧ t = (u.tsend false (.pair 0)).judgeTdm)) ∧
  (∀ s : State, s.psq.mainUp = true → s.reg Reg.TDM_LANEMAP0 = 0x00FAC688#32 →
    (s.reg Reg.TDM_LANEMAP1 = 0x00FAC688#32 → Answers .tdmLanemapCommit s (· =
      (s.setBit Reg.TDM_LANEMAP_COMMIT 0 1 false).setTwin { s.twin with lane0 := 0x00FAC688#32, lane1 := 0x00FAC688#32 })) ∧
    (s.reg Reg.TDM_LANEMAP1 = 0 → Answers .tdmLanemapCommit s (· = s.setBit Reg.TDM_LANEMAP_COMMIT 0 1 true))) ∧
  (∀ (s : State) (p : Bool), s.psq.mainUp = true → s.twin.session ≠ 0 → (s.tport p).st = .up → Answers (.tandemRekeyTimer p) s fun t => ∃ u : State,
    u = s.tsend p (.control (.rekey p (!(s.tport p).phaseTx))) ∧ t = u.setTport p { u.tport p with phaseTx := !(s.tport p).phaseTx, frames := 0 }) ∧
  (∀ (s : State) (p : Bool), Answers (.tandemOldKeyExpiry p) s (· = s.setTport p { s.tport p with oldKey := false }))

/-- The timers of the Tandem link (R210, R216 to R218, R230, R231). -/
def Obligations.TandemTimers : Prop :=
  (∀ (s u : State), s.psq.mainUp = true → s.twin.session ≠ 0 → s.twin.pair = .paired → s.twin.p0.st = .up → s.twin.p1.st = .down →
    u = s.setTwin { s.twin with hbTx := s.twin.hbTx + 1 } → Answers .tandemHeartbeatTimer s (· =
      u.tsend false (.heartbeat (s.twin.hbTx + 1) s.twin.hbRx s.dirtyLines s.med.yarrow.cap))) ∧
  (∀ (s u v : State), s.psq.mainUp = true → s.twin.session ≠ 0 → s.twin.pair = .paired → s.twin.p0.st = .up → s.twin.p1.st = .up →
    u = s.tsend false (.sync s.tally.source s.tally.trust) → v = u.tsend true (.sync s.tally.source s.tally.trust) → Answers .tandemSyncTimer s (· = v)) ∧
  (∀ s : State, s.psq.mainUp = true → s.twin.session = 0 → Answers .tandemSyncTimer s (· = s) ∧
    Answers .tandemHeartbeatTimer s (· = s.setTwin { s.twin with hbTx := s.twin.hbTx + 1 })) ∧
  (∀ s u : State, s.psq.mainUp = true → s.twin.pair = .paired → u = ((s.bump Reg.TDM_LOSS_CNT 0 31 0).setPair .lost).failHanding.endSession →
    Answers .linkLossTimeout s fun t => ∃ v w : State, v = u.setTwin { u.twin with fenceWait := true, strictWait := true } ∧
      w = v.regionIds.foldl (fun s r =>
        if (s.rt r).home then
          if (s.rt r).solo then s
          else
            let x := (s.bench.orders.filter fun o => o.mine && o.w.region == r && !o.mirrored).foldl (fun s o => s.markSett r (o.w.rline / 256)) s
            x.putRt r { x.rt r with held := true }
        else s.putRt r { s.rt r with fenced := true, solo := false, held := false, strictRefuse := false }) v ∧
      t = (w.failForwarded.failAlloc).settle.settleTwin) ∧
  (∀ s : State, s.psq.mainUp = true →
    (s.twin.pair = .attesting → Answers .linkLossTimeout s (· = ((s.endSession.setPair .lost).judgeTdm).settleTwin)) ∧
    (s.twin.pair = .lost ∨ s.twin.pair = .unpaired ∨ s.twin.pair = .detached ∨ s.twin.pair = .parked →
      Answers .linkLossTimeout s (· = s.settleTwin))) ∧
  (∀ (s : State) (r : Nat), s.psq.mainUp = true → s.twin.fenceWait = true → s.twin.pair = .lost → s.regionIds = [r] → ∀ u : State,
    u = s.setTwin { s.twin with fenceWait := false } →
    ((s.rt r).home = true → (s.rt r).held = true → (s.region r).strict = false → Answers .fenceIntervalExpiry s (· = (u.goSolo r).settleTwin)) ∧
    ((s.region r).strict = true → Answers .fenceIntervalExpiry s (· = u.settleTwin)) ∧
    ((s.rt r).home = false → Answers .fenceIntervalExpiry s (· = u.settleTwin))) ∧
  (∀ s : State, s.twin.fenceWait = false → Answers .fenceIntervalExpiry s (· = s)) ∧
  (∀ (s u : State) (r : Nat), s.psq.mainUp = true → s.twin.fenceWait = false → s.twin.strictWait = true → s.twin.pair = .lost → s.regionIds = [r] →
    u = s.setTwin { s.twin with strictWait := false } →
    ((s.rt r).home = true → (s.rt r).held = true → (s.region r).strict = true → Answers .strictHoldExpiry s (· =
      (u.putRt r { s.rt r with held := false, strictRefuse := true }).settleTwin)) ∧
    ((s.rt r).held = false → Answers .strictHoldExpiry s (· = u.settleTwin))) ∧
  (∀ s : State, s.twin.strictWait = false → Answers .strictHoldExpiry s (· = s)) ∧
  (∀ (s : State) (n : Nat), s.psq.mainUp = true → s.twin.pair = .paired → s.twin.leaving = some n →
    (s.twin.peerLeaving = false → Answers .leaveWaitExpiry s (· = ((s.setTwin { s.twin with leftByDetach := true }).detachStart none).settleTwin)) ∧
    (s.twin.peerLeaving = true → Answers .leaveWaitExpiry s (· = s)))

/-- What CXL.mem requests do (R9, R12, R272, R276, R277, R281, R282, R358, Table 11-3). -/
def Obligations.CxlMemory : Prop :=
  (∀ (s : State) (p : Fin 4) (l : Fin 16) (tag : Nat) (t : CxlTarget) (m : BitVec 64) (d : Chunk) (b : Bool), s.portTakes p = false ∨ s.ldThere p l = false →
    Answers (.cxlMemrd p l tag t) s (· = s) ∧ Answers (.cxlMemspecrd p l t) s (· = s) ∧ Answers (.cxlMemwr p l tag t d b) s (· = s) ∧
    Answers (.cxlMemwrptl p l tag t m d b) s (· = s)) ∧
  (∀ (s w : State) (p : Fin 4) (l : Fin 16) (tag : Nat) (t : CxlTarget) (m : BitVec 64) (d : Chunk) (b : Bool), s.portTakes p = true → s.ldThere p l = true →
    w = s.portWake p → w.landing p l t = .nowhere →
    Answers (.cxlMemrd p l tag t) s (· = w.emit (.memData p l tag (BitVec.allOnes 512) true)) ∧ Answers (.cxlMemspecrd p l t) s (· = w) ∧
    Answers (.cxlMemwr p l tag t d b) s (· = w.emit (.memCmp p l tag)) ∧ Answers (.cxlMemwrptl p l tag t m d b) s (· = w.emit (.memCmp p l tag))) ∧
  (∀ (s w : State) (p : Fin 4) (l : Fin 16) (tag off : Nat) (t : CxlTarget) (m : BitVec 64) (d : Chunk), s.portTakes p = true → s.ldThere p l = true →
    w = s.portWake p → w.landing p l t = .staging off → off < 64 * 2 ^ 20 → w.ideMissing p = false →
    (w.chanOfLd p l = some (Fin.ofNat 64 (off / 2 ^ 20)) →
      Answers (.cxlMemrd p l tag t) s (· = w.emit (.memData p l tag (w.stageChunk (off / 2 ^ 20) (off % 2 ^ 20)) false)) ∧
      Answers (.cxlMemwr p l tag t d false) s (· =
        (w.putStageChunk (off / 2 ^ 20) (off % 2 ^ 20) (BitVec.allOnes 64) d).emit (.memCmp p l tag)) ∧
      Answers (.cxlMemwrptl p l tag t m d false) s (· = (w.putStageChunk (off / 2 ^ 20) (off % 2 ^ 20) m d).emit (.memCmp p l tag))) ∧
    (w.chanOfLd p l ≠ some (Fin.ofNat 64 (off / 2 ^ 20)) →
      Answers (.cxlMemrd p l tag t) s (· = w.emit (.memData p l tag 0 false)) ∧
      Answers (.cxlMemwr p l tag t d false) s (· = w.emit (.memCmp p l tag))) ∧
    Answers (.cxlMemwr p l tag t d true) s (· = w.cxlDrop p l tag off)) ∧
  (∀ (s w : State) (p : Fin 4) (l : Fin 16) (tag r off : Nat) (t : CxlTarget) (d : Chunk), s.portTakes p = true → s.ldThere p l = true →
    w = s.portWake p → w.landing p l t = .region r off →
    (w.ideMissing p = true ∨ w.domainReady = false ∨ w.regionOpen r = false →
      Answers (.cxlMemrd p l tag t) s (· = (w.cxlNotHere p l r (w.dpaOf p l r (off / 256))).emit (.memData p l tag (BitVec.allOnes 512) true)) ∧
      Answers (.cxlMemspecrd p l t) s (· = w)) ∧
    (w.ideMissing p = true → Answers (.cxlMemwr p l tag t d false) s (· =
      (w.cxlNotHere p l r (w.dpaOf p l r (off / 256))).emit (.memCmp p l tag))) ∧
    (w.ideMissing p = false → Answers (.cxlMemwr p l tag t d true) s (· = w.cxlDrop p l tag (w.dpaOf p l r (off / 256))))) ∧
  (∀ (s w : State) (p : Fin 4) (l : Fin 16) (tag r off x : Nat) (t : CxlTarget), s.portTakes p = true → s.ldThere p l = true →
    w = s.portWake p → w.landing p l t = .region r off → w.ideMissing p = false → w.domainReady = true → w.regionOpen r = true →
    w.resolve r off = some x →
    Answers (.cxlMemrd p l tag t) s (· = (((w.strideRead { src := .ld p l, region := r } (off / 256)).windowRead { src := .ld p l, region := r }
      (off / 256 / 256)).serveRead { who := .cxl p l tag, region := r, rline := off / 256, line := x, chunks := BitVec.twoPow 4 (off / 64 % 4) }).settle) ∧
    ((w.bline x).isSome = true → Answers (.cxlMemspecrd p l t) s (· = w)) ∧
    (w.bline x = none → w.scbSlot x = none → Answers (.cxlMemspecrd p l t) s (· =
      (w.fetchRead { who := .device, region := r, rline := off / 256, line := x, chunks := BitVec.twoPow 4 (off / 64 % 4) }).settle))) ∧
  (∀ (s w : State) (p : Fin 4) (l : Fin 16) (tag r off x : Nat) (t : CxlTarget) (m : BitVec 64) (d : Chunk), s.portTakes p = true →
    s.ldThere p l = true → w = s.portWake p → w.landing p l t = .region r off → w.ideMissing p = false → w.resolve r off = some x → off % 256 = 64 →
    Answers (.cxlMemwr p l tag t d false) s (· = (w.submit {
      who := .cxl p l tag, region := r, rline := off / 256, line := x, mask := (BitVec.allOnes 64).setWidth 256 <<< 64, data := d.setWidth 2048 <<< 512
      stream := .ld p l }).settle) ∧
    Answers (.cxlMemwrptl p l tag t m d false) s (· = (w.submit {
      who := .cxl p l tag, region := r, rline := off / 256, line := x, mask := m.setWidth 256 <<< 64, data := d.setWidth 2048 <<< 512
      stream := .ld p l }).settle)) ∧
  (∀ (s w : State) (p : Fin 4) (l : Fin 16) (tag off : Nat) (t : CxlTarget) (d : Chunk), s.portTakes p = true → s.ldThere p l = true →
    w = s.portWake p → w.landing p l t = .bench off →
    (off < 48 * 2 ^ 20 → w.plainView = false → Answers (.cxlMemrd p l tag t) s (· = w.emit (.memData p l tag 0 false)) ∧
      Answers (.cxlMemwr p l tag t d false) s (· = w.busError (.ld p l) (off % 2 ^ 24) true .unimplemented)) ∧
    (0x2000000000000 ≤ off → Answers (.cxlMemrd p l tag t) s (· = w.busError (.ld p l) (off % 2 ^ 24) false .unimplemented))) ∧
  (∀ (s : State) (p : Fin 4), s.ingressOpen = true →
    (s.bench.held = [] → Answers (.cxlHoldTimeout p) s (· = s)) ∧
    (∀ (w : HostWrite) (l : Fin 16) (tag : Nat) (hs : List HostWrite), s.bench.held = w :: hs → w.who = .cxl p l tag →
      Answers (.cxlHoldTimeout p) s (· =
        (((s.setBench { s.bench with held := hs }).cxlDrop p l tag (s.dpaOf p l w.region w.rline)).judgeCredits).settle))) ∧
  (∀ (s : State) (p : Fin 4) (l : Fin 16) (b : Fin 4) (d v : Decoder), s.psq.mainUp = true → s.ldThere p l = true →
    v = Tab.get {} (s.ld p l).decoders b.val →
    (v.committed = true → d.committed = true ∨ v.locked = true → Answers (.hdmDecoderCommit p l b d) s (· = s)) ∧
    (v.committed = true → d.committed = false → v.locked = false → Answers (.hdmDecoderCommit p l b d) s (· = s.setLd p l { s.ld p l with
      decoders := Tab.put {} (s.ld p l).decoders b.val { v with committed := false } })) ∧
    (v.committed = false → d.committed = false → Answers (.hdmDecoderCommit p l b d) s (· = s.setLd p l { s.ld p l with
      decoders := Tab.put {} (s.ld p l).decoders b.val { d with notCommitted := false } })) ∧
    (v.committed = false → d.committed = true →
      (∀ r rofs, Tab.get none s.cxl.bindings (State.ldNo p l * 4 + b.val) = some (.region r rofs d.size) → d.base % 2 ^ 28 = 0 → d.size % 2 ^ 28 = 0 →
        Answers (.hdmDecoderCommit p l b d) s (· = s.setLd p l { s.ld p l with
          decoders := Tab.put {} (s.ld p l).decoders b.val { d with committed := true, notCommitted := false } })) ∧
      (Tab.get none s.cxl.bindings (State.ldNo p l * 4 + b.val) = none →
        Answers (.hdmDecoderCommit p l b d) s (· = s.setLd p l { s.ld p l with
          decoders := Tab.put {} (s.ld p l).decoders b.val { d with committed := false, notCommitted := true } })) ∧
      (∀ r rofs n, Tab.get none s.cxl.bindings (State.ldNo p l * 4 + b.val) = some (.region r rofs n) → n ≠ d.size →
        Answers (.hdmDecoderCommit p l b d) s (· = s.setLd p l { s.ld p l with
          decoders := Tab.put {} (s.ld p l).decoders b.val { d with committed := false, notCommitted := true } }))))

/-- The mailbox of an LD (R278, R279, R286 to R288). -/
def Obligations.MailboxCommands : Prop :=
  (∀ (s w : State) (p : Fin 4) (l : Fin 16), s.psq.mainUp = true → s.ldThere p l = true → w = s.wakeIdle →
    (∀ k, Answers (.getEventRecords p l k) s (· = w.emit (.mailbox p l 0 (((w.ld p l).overflow.contains k).toNat ::
      ((w.ld p l).logs.filter fun r => r.kind == k).flatMap fun r => [eventNo r.what, r.dpa, r.tally.toNat])))) ∧
    Answers (.getEventInterruptPolicy p l) s (· = w.emit (.mailbox p l 0 [Tab.get 0 (w.ld p l).policy 0, Tab.get 0 (w.ld p l).policy 1,
      Tab.get 0 (w.ld p l).policy 2, Tab.get 0 (w.ld p l).policy 3, Tab.get 0 (w.ld p l).policy 4])) ∧
    (∀ k v, Answers (.setEventInterruptPolicy p l k v) s (· = (w.setLd p l { w.ld p l with
      policy := Tab.put 0 (w.ld p l).policy (State.logNo k) v.val }).emit (.mailbox p l 0 []))) ∧
    Answers (.getFwInfo p l) s (· = w.emit (.mailbox p l 0 [2, w.flash.slots.active.toNat + 1, w.flash.slots.a.version.toNat,
      w.flash.slots.b.version.toNat])) ∧
    Answers (.getTimestamp p l) s (· = w.emit (.mailbox p l 0 [w.tally.now.toNat * 1000000000 / 65536])) ∧
    (∀ n, Answers (.setTimestamp p l n) s (· = w.emit (.mailbox p l 0 []))) ∧
    Answers (.getSupportedLogs p l) s (· = w.emit (.mailbox p l 0 [1])) ∧
    Answers (.getLog p l) s (· = w.emit (.mailbox p l 0 (List.flatMap (fun o => [o, (Config.commandEffect o).toNat]) [
      0x0100, 0x0101, 0x0102, 0x0103, 0x0200, 0x0201, 0x0202, 0x0300, 0x0301, 0x0400, 0x0401,
      0x4000, 0x4200, 0x4400, 0x4800, 0x4801, 0x4802, 0x4803, 0xC0A0]))) ∧
    Answers (.identifyMemoryDevice p l) s (· = w.emit (.mailbox p l 0 [ldCapacity w p l, 0, ldCapacity w p l, 0, 64, 64, 64, 64, 0, 0, 0])) ∧
    Answers (.getHealthInfo p l) s (· = w.emit (.mailbox p l 0 [w.healthNow, (w.bench.domain != .opened).toNat, lifeUsed w, w.psq.tj.toNat,
      w.bench.shutdowns, (w.reg Reg.RD_SOFT_CNT).toNat + (w.reg Reg.RD_ASSIST_CNT).toNat, (w.reg Reg.DRM_CE_CNT).toNat])) ∧
    (∀ k r, (w.ld p l).dcMap = [(k, some r)] → Answers (.getDcConfiguration p l) s (· =
      w.emit (.mailbox p l 0 [k, r, (w.region r).size * 65536, 2 ^ 28]))) ∧
    Answers (.getDcExtentList p l) s (· = w.emit (.mailbox p l 0 ((w.ld p l).extents.flatMap fun e => [e.dc.val, e.off, e.len])))) ∧
  (∀ (s w : State) (p : Fin 4) (l : Fin 16) (k : LogKind), s.psq.mainUp = true → s.ldThere p l = true → w = s.wakeIdle →
    Answers (.clearEventRecords p l k none) s (fun t => (t.ld p l).logs = (w.ld p l).logs.filter fun r => r.kind != k) ∧
    (∀ a rest, (w.ld p l).logs = a :: rest → a.kind = k → Answers (.clearEventRecords p l k (some 1)) s
      fun t => (t.ld p l).logs = rest ∧ (t.ld p l).overflow = (w.ld p l).overflow.erase k)) ∧
  (∀ (s w : State) (p : Fin 4) (l : Fin 16) (rs : List Nat), s.psq.mainUp = true → s.ldThere p l = true → w = s.wakeIdle → rs = ldRegions w p l →
    ((w.ld p l).bg ≠ none → Answers (.sanitize p l) s (· = w.emit (.mailbox p l 6 []))) ∧
    (∀ r b, (w.ld p l).bg = none → r ∈ rs → b ∈ w.bindingsOf r → b.1 ≠ State.ldNo p l → Answers (.sanitize p l) s (· = w.emit (.mailbox p l 2 []))) ∧
    ((w.ld p l).bg = none → (∀ r ∈ rs, ∀ b ∈ w.bindingsOf r, b.1 = State.ldNo p l) → w.rdma.wins = [] → Answers (.sanitize p l) s fun t =>
      ∃ u v : State, u = rs.foldl (fun s r => s.eraseBegin r) w ∧ v = u.setLd p l { u.ld p l with bg := some 0x4400, bgPct := 0 } ∧
        t = ({ v with cxl := { v.cxl with bgOps := v.cxl.bgOps ++ [(State.ldNo p l, rs)] } }).emit (.mailbox p l 1 []))) ∧
  (∀ (s u : State) (p : Fin 4) (l : Fin 16), s.psq.mainUp = true →
    ((s.ld p l).bg = none → Answers (.backgroundOperationComplete p l) s (· = s)) ∧
    ((s.ld p l).bg ≠ none → s.cxl.bgOps = [] → Answers (.backgroundOperationComplete p l) s
      (· = (s.setLd p l { s.ld p l with bg := none, bgPct := 100, bgRet := 0 }).msixSend p l 0)) ∧
    (∀ r, (s.ld p l).bg ≠ none → s.cxl.bgOps = [(State.ldNo p l, [r])] → u = State.eraseEnd { s with cxl := { s.cxl with bgOps := [] } } r →
      Answers (.backgroundOperationComplete p l) s
      (· = (u.setLd p l { u.ld p l with bg := none, bgPct := 100, bgRet := 0 }).msixSend p l 0))) ∧
  (∀ (s w : State) (p : Fin 4) (l : Fin 16) (es : List DcExtent), s.psq.mainUp = true → s.ldThere p l = true → w = s.wakeIdle →
    ((∀ e ∈ es, e ∈ (w.ld p l).offers) → Answers (.addDcResponse p l es) s (· =
      ((w.setLd p l { w.ld p l with extents := (w.ld p l).extents ++ es, offers := [] }).cdatAdvance (State.ldNo p l)).emit (.mailbox p l 0 []))) ∧
    (∀ e, e ∈ es → e ∉ (w.ld p l).offers → Answers (.addDcResponse p l es) s (· = w.emit (.mailbox p l 2 []))) ∧
    (∀ e, e ∈ es → e ∉ (w.ld p l).extents → Answers (.releaseDc p l es) s (· = w.emit (.mailbox p l 2 []))) ∧
    (∀ e, es = [e] → e ∈ (w.ld p l).extents → Answers (.releaseDc p l es) s (· = (Machine.dcRelease w p l e).emit (.mailbox p l 0 [])))) ∧
  (∀ (s u : State) (p : Fin 4) (l : Fin 16) (e : DcExtent), s.psq.mainUp = true → s.ldThere p l = true → e ∈ (s.ld p l).extents →
    u = ((s.setLd p l { s.ld p l with extents := (s.ld p l).extents.erase e }).cdatAdvance (State.ldNo p l)).ldRecord p l .dcd .dcRelease e.off →
    Tab.get none (s.ld p l).dcMap e.dc.val = none → Answers (.dcRelease p l e) s (· = u)) ∧
  (∀ (s : State) (p : Fin 4) (l : Fin 16) (e : DcExtent), e ∉ (s.ld p l).extents → Answers (.dcRelease p l e) s (· = s)) ∧
  (∀ (s : State) (p : Fin 4) (l : Fin 16), s.ldThere p l = false → Answers (.getTimestamp p l) s (· = s) ∧ Answers (.sanitize p l) s (· = s) ∧
    (∀ k n, Answers (.clearEventRecords p l k n) s (· = s)) ∧ (∀ es, Answers (.addDcResponse p l es) s (· = s)))

/-- Events of CXL ports and of the DOE (R268 to R270, R278, R283 to R285, R290, R291, R383, R384). -/
def Obligations.CxlPortEvents : Prop :=
  (∀ (s u : State) (p : Fin 4) (v : CxlPort) (width : Fin 17) (speed : Fin 3) (f256 lo mld : Bool) (lds : Fin 16), s.hostsMay = true →
    s.bit Reg.CXL_CTRL 0 p.val = true → v = s.cport p → v.cycled = false → u = s.setCport p v →
    (s.portThere p = false → Answers (.cxlPortTrain p width speed f256 lo mld lds) s (· = (u.setCport p { v with st := .disabled }).judgeCxl)) ∧
    (s.portThere p = true → Answers (.cxlPortTrain p width speed false lo mld lds) s (· =
      (u.setCport p { v with st := .detect, width := 0, speed := 0 }).judgeCxl)) ∧
    (s.portThere p = true → width.val < 8 → 0 < speed.val → v.cfg.getLsbD 4 = false → Answers (.cxlPortTrain p width speed true lo mld lds) s (· =
      (u.setCport p { v with st := .heldNarrow, width := 0, speed := 0 }).judgeCxl)) ∧
    (s.portThere p = true → v.cfg.getLsbD (p.val / 2) = true → v.cfg.getLsbD 4 = true → Answers (.cxlPortTrain p 16 2 true lo true lds) s (· =
      (u.setCport p { v with st := .l0, width := 8, speed := 1, flitLo := lo, mld := true, lds := lds.val + 1 }).judgeCxl)) ∧
    (s.portThere p = true → v.cfg.getLsbD (p.val / 2) = false → v.cfg.getLsbD 4 = false → Answers (.cxlPortTrain p 16 2 true lo false lds) s (· =
      (u.setCport p { v with st := .l0, width := 16, speed := 2, flitLo := lo, mld := false, lds := 1 }).judgeCxl))) ∧
  (∀ (s : State) (p : Fin 4) (width : Fin 17) (speed : Fin 3) (f256 lo mld : Bool) (lds : Fin 16), s.bit Reg.CXL_CTRL 0 p.val = false →
    Answers (.cxlPortTrain p width speed f256 lo mld lds) s (· = s)) ∧
  (∀ (s : State) (p : Fin 4) (us : BitVec 16),
    (s.ingressOpen = true → (s.cport p).st = .l0 → Answers (.gpfPhase2 p us) s (· = (s.setCport p { s.cport p with gpf := some us }).settle)) ∧
    ((s.cport p).st ≠ .l0 → Answers (.gpfPhase2 p us) s (· = s))) ∧
  (∀ (s : State) (p : Fin 4), s.psq.mainUp = true →
    ((s.cport p).ideMem = true → Answers (.ideFail p 0) s (· =
      (s.setCport p { s.cport p with insecure := true, ideMem := false }).cause Reg.CXL_CAUSE 0 2 226)) ∧
    ((s.cport p).ideIo = true → Answers (.ideFail p 1) s (· = (s.setCport p { s.cport p with ideIo := false }).cause Reg.CXL_CAUSE 0 2 226)) ∧
    (∀ k : Fin 6, 2 ≤ k.val → (s.cport p).ideSel.getLsbD (k.val - 2) = true → Answers (.ideFail p k) s (· = (s.setCport p { s.cport p with
      ideSel := (s.cport p).ideSel &&& ~~~(BitVec.twoPow 4 (k.val - 2)) }).cause Reg.CXL_CAUSE 0 2 226)) ∧
    ((s.cport p).ideMem = false → Answers (.ideFail p 0) s (· = s))) ∧
  (∀ (s : State) (p : Fin 4) (l : Fin 16) (sid : Word), s.psq.mainUp = true →
    (sid ∈ (s.ld p l).sessions → Answers (.ideKm p l sid 0 true) s (· =
      (s.setCport p { s.cport p with ideMem := true, insecure := false }).emit (.doe p l [0x0B, 0, 1])) ∧
      Answers (.ideKm p l sid 1 false) s (· = (s.setCport p { s.cport p with ideIo := false }).emit (.doe p l [0x0B, 1, 0])) ∧
      (∀ k : Fin 6, 2 ≤ k.val → Answers (.ideKm p l sid k true) s (· = (s.setCport p { s.cport p with
        ideSel := (s.cport p).ideSel ||| BitVec.twoPow 4 (k.val - 2) }).emit (.doe p l [0x0B, k.val, 1])))) ∧
    (sid ∉ (s.ld p l).sessions → ∀ m g, Answers (.ideKm p l sid m g) s (· = s))) ∧
  (∀ (s : State) (p : Fin 4) (l : Fin 16), s.psq.mainUp = true → s.ldThere p l = true →
    Answers (.doeDiscovery p l) s (· = s.emit (.doe p l [0x00, 0x01, 0x02, 0x10002])) ∧
    (s.cxl.bindings = [] → (s.ld p l).dcMap = [] → Answers (.cdatRead p l) s (· = s.emit (.doe p l [(s.ld p l).cdat]))) ∧
    (∀ r, s.cxl.bindings = [] → (s.ld p l).dcMap = [(0, some r)] → (s.region r).mode = .m2 → (s.cport p).width = 16 → (s.cport p).speed = 2 →
      Answers (.cdatRead p l) s (· = s.emit (.doe p l [(s.ld p l).cdat, 0, (s.region r).size * 65536, 4, 1, 900, 1200, 38400, 100000])))) ∧
  (∀ (s : State) (p : Fin 4), s.psq.mainUp = true → Answers (.cxlPortReset p) s fun t => ∃ u v : State,
    u = s.cxlForget (fun q _ => p == q) ∧ v = (List.finRange 16).foldl (fun s l => s.ldReset p l) u ∧
    t = ((v.setCport p { v.cport p with ideMem := false, ideIo := false, ideSel := 0, insecure := false, gpf := none }).settle).sessionsFree) ∧
  (∀ (s u : State) (p : Fin 4) (l : Fin 16), s.psq.mainUp = true → u = s.cxlForget (fun q k => p == q && l == k) →
    Answers (.ldReset p l) s (· = ((u.setLd p l { u.ld p l with
      decoders := [], offers := [], bg := none, masked := 0, pba := 0, sessions := [], policy := [] }).settle).sessionsFree)) ∧
  (∀ (s u : State) (p : Fin 4), s.psq.mainUp = true → u = s.portReset p →
    ((s.cport p).st ≠ .disabled → Answers (.surpriseRemoval p) s (· =
      ((u.setCport p { u.cport p with st := .detect, width := 0, speed := 0 }).judgeCxl.settle).sessionsFree)) ∧
    ((s.cport p).st = .disabled → Answers (.surpriseRemoval p) s (· = s))) ∧
  (∀ (s w : State) (d : Option (Fin 4 × Fin 16)), s.spdmTakes d = true → w = s.wakeIdle →
    Answers (.spdmMessage d .negotiate) s (· = w.emit (.spdm d 0 [])) ∧
    Answers (.spdmMessage d (.certificate 0)) s (· = w.emit (.spdm d 2 [Config.certLen])) ∧
    Answers (.spdmMessage d .digests) s (· = w.emit (.spdm d 1 [0])) ∧
    Answers (.spdmMessage d (.measurements 4)) s (· = w.emit (.spdm d 4 [w.sec.arb])) ∧
    (∀ sid, w.sec.trngFail = false → (w.sessionsAt d).length < 2 → w.sessionThere sid = false →
      Answers (.spdmMessage d (.session sid none)) s (· = (w.setSessions d (w.sessionsAt d ++ [sid])).emit (.spdm d 5 [sid.toNat])) ∧
      (∀ mask, Answers (.spdmMessage d (.session sid (some (false, mask)))) s (· = (w.spdmFail d).emit (.spdm d 7 []))) ∧
      (∀ mask, mask ≠ 0 → Answers (.spdmMessage d (.session sid (some (true, mask)))) s (· =
        ((w.sessionsFree.setSessions d (w.sessionsAt d ++ [sid])).sessionChannel sid mask).emit (.spdm d 5 [sid.toNat])))) ∧
    (∀ sid, sid ∈ w.sessionsAt d → Answers (.spdmMessage d (.endSession sid)) s (· =
      ((w.setSessions d ((w.sessionsAt d).filter fun x => x != sid)).sessionsFree).emit (.spdm d 6 [sid.toNat])))) ∧
  (∀ (s : State) (d : Option (Fin 4 × Fin 16)) (a : SpdmAsk), s.spdmTakes d = false → Answers (.spdmMessage d a) s (· = s)) ∧
  (∀ (s : State) (p : Fin 4) (l : Fin 16) (e : DcExtent), s.psq.mainUp = true → s.ldThere p l = true → 0 < e.len →
    (e.off % 2 ^ 28 ≠ 0 ∨ e.len % 2 ^ 28 ≠ 0 → Answers (.dcAdd p l e) s (· = s)) ∧
    (∀ x, e.off % 2 ^ 28 = 0 → e.len % 2 ^ 28 = 0 → x ∈ (s.ld p l).extents → x.dc = e.dc → x.off = e.off → 0 < x.len → Answers (.dcAdd p l e) s (· = s)) ∧
    (∀ r, e.off % 2 ^ 28 = 0 → e.len % 2 ^ 28 = 0 → (s.ld p l).extents = [] → (s.ld p l).offers = [] → Tab.get none (s.ld p l).dcMap e.dc.val = some r →
      s.isRegion r = true → (e.off + e.len) / 65536 ≤ (s.region r).size → Answers (.dcAdd p l e) s (· =
        ((s.setLd p l { s.ld p l with offers := [e] }).ldRecord p l .dcd .dcAdd e.off).settleMed)) ∧
    (∀ r, e.off % 2 ^ 28 = 0 → e.len % 2 ^ 28 = 0 → (s.ld p l).extents = [] → (s.ld p l).offers = [] → Tab.get none (s.ld p l).dcMap e.dc.val = some r →
      s.isRegion r = true → (s.region r).size < (e.off + e.len) / 65536 → s.locked r = false → s.pairCap = .amber ∨ s.pairCap = .red →
      Answers (.dcAdd p l e) s (· = s.emit (.dcRefused p l (Status.code .noSpace)))))

/-- Request packets of the responder (R184, R297 to R300, R303, R305, R311, R312, R314, Tables 12-3 and 12-4). -/
def Obligations.RdmaRequests : Prop :=
  (∀ (s : State) (n : Fin 65536) (k : WritePkt) (imm : Word), s.ingressOpen = true → s.bit Reg.RDM_CTRL 0 0 = true →
    s.macTakes (s.qp n).mac.val = true →
    (k.icrc = false → Answers (.rdmaWrite n k) s (· =
      (s.cause Reg.ETH_MAC_CAUSE (s.qp n).mac.val 9 (160 + (s.qp n).mac.val)).macDrop (s.qp n).mac.val)) ∧
    (k.icrc = true → (s.qp n).connected = false → Answers (.rdmaWriteImm n k imm) s (· = s.macDrop (s.qp n).mac.val)) ∧
    (∀ psn key va len ce, (s.qp n).error = true → Answers (.rdmaFlush n psn key va len ce true) s (· = s.macDrop (s.qp n).mac.val))) ∧
  (∀ (s w : State) (n : Fin 65536) (k : WritePkt), s.Judges w n k.ce → k.icrc = true → (w.qp n).mgmt = none → (w.qp n).spray = false →
    k.psn = (w.qp n).epsn → k.pos = .only → w.windowCheck (w.qp n).pd k.key k.va k.len 1 = none →
    Answers (.rdmaWrite n k) s (· = (w.qpFatal n k.psn 2 .access 0).settle) ∧
    ∀ imm, Answers (.rdmaWriteImm n k imm) s (· = (w.qpFatal n k.psn 2 .access 0).settle)) ∧
  (∀ (s w x u v : State) (n : Fin 65536) (k : WritePkt) (imm : Word) (r off : Nat) (q : Qp) (ws : List HostWrite), s.Judges w n k.ce → k.icrc = true →
    q = w.qp n → q.mgmt = none → q.spray = false → q.rcq = none → k.psn = q.epsn → k.pos = .only →
    w.windowCheck q.pd k.key k.va k.len 1 = some (r, off) → ws = w.pieces (.rdma n k.psn) (.qp n) r off k.data → w.packetFate ws = .go →
    x = w.useWindow n k.key → u = x.setQp n { x.qp n with nextMsn := q.nextMsn + 1, msgs := q.msgs ++ [{
      first := k.psn, last := k.psn + BitVec.ofNat 24 (State.packetsOf q k.len - 1), msn := q.nextMsn, left := 0, missing := k.len, length := k.len }] } →
    v = u.setQp n (State.remember { u.qp n with
      epsn := k.psn + 1, nakSent := false, cur := none
      msgs := (u.qp n).msgs.map fun m => if m.msn == q.nextMsn then { m with imm := some imm } else m } k.psn .write) →
    Answers (.rdmaWriteImm n k imm) s (· = ((v.msgAdd n q.nextMsn ws.length k.data.length).submitAll n ws).settle)) ∧
  (∀ (s w : State) (n : Fin 65536) (k : WritePkt), s.Judges w n k.ce → k.icrc = true → (w.qp n).mgmt = none → (w.qp n).spray = false →
    (State.psnKind (w.qp n) k.psn = .ahead → (w.qp n).nakSent = false →
      Answers (.rdmaWrite n k) s (· = (w.setQp n { w.qp n with nakSent := true }).nak n (w.qp n).epsn 0)) ∧
    (∀ x, State.psnKind (w.qp n) k.psn = .duplicate → ((w.qp n).recent.find? fun r => r.psn == k.psn) = some x → x.done = true →
      Answers (.rdmaWrite n k) s (· = (w.bump Reg.RDM_DUP_CNT 0 31 0).emit (.rdmaAck n k.psn ((w.bump Reg.RDM_DUP_CNT 0 31 0).qp n).msn)))) ∧
  (∀ (s w : State) (n : Fin 65536) (k : WritePkt) (g : BitVec 128), s.Judges w n k.ce → k.icrc = true → (w.qp n).mgmt = none → (w.qp n).spray = true →
    k.gph = some g → 1048576 < gphLength g → Answers (.rdmaWrite n k) s (· = (w.nak n k.psn 1).settle)) ∧
  (∀ (s w : State) (n : Fin 65536) (q : Qp) (psn : BitVec 24) (key : Word) (va len : Nat) (ce : Bool), s.Judges w n ce → q = w.qp n → q.mgmt = none →
    psn = q.epsn → State.outstanding q < 16 →
    (2 ^ 31 < len → Answers (.rdmaRead n psn key va len ce true) s (· = (w.nak n psn 1).settle)) ∧
    (len ≤ 2 ^ 31 → w.windowCheck q.pd key va len 0 = none → w.domainReady = true →
      Answers (.rdmaRead n psn key va len ce true) s (· = (w.qpFatal n psn 2 .access 0).settle)) ∧
    (∀ r off, len ≤ 2 ^ 31 → w.windowCheck q.pd key va len 0 = some (r, off) → w.domainReady = true →
      ∀ x : State, x = w.useWindow n key → Answers (.rdmaRead n psn key va len ce true) s (· = (x.setQp n (State.remember { x.qp n with
        epsn := psn + BitVec.ofNat 24 (State.packetsOf q len), nakSent := false, nextMsn := q.nextMsn + 1
        queued := q.queued ++ [.read psn r off len] } psn .read)).settle))) ∧
  (∀ (s w : State) (n : Fin 65536) (q : Qp) (psn : BitVec 24) (key : Word) (va : Nat) (a b : BitVec 64) (ce : Bool), s.Judges w n ce → q = w.qp n →
    q.mgmt = none → psn = q.epsn → State.outstanding q < 16 →
    (va % 8 ≠ 0 → Answers (.rdmaCmpswap n psn key va a b ce true) s (· = (w.qpFatal n psn 2 .access 0).settle) ∧
      Answers (.rdmaFetchadd n psn key va a ce true) s (· = (w.qpFatal n psn 2 .access 0).settle) ∧
      Answers (.rdmaAtomicWrite n psn key va a ce true) s (· = (w.qpFatal n psn 2 .access 0).settle)) ∧
    (va % 8 = 0 → w.windowCheck q.pd key va 8 2 = none → Answers (.rdmaFetchadd n psn key va a ce true) s (· = (w.qpFatal n psn 2 .access 0).settle)) ∧
    (va % 8 = 0 → w.windowCheck q.pd key va 8 1 = none → Answers (.rdmaAtomicWrite n psn key va a ce true) s (· =
      (w.qpFatal n psn 2 .access 0).settle)) ∧
    (∀ r off x, va % 8 = 0 → w.windowCheck q.pd key va 8 2 = some (r, off) → r ≠ stagingRegion → w.resolve r off = some x →
      (∀ op, w.fate {
        who := .rdma n psn, region := r, rline := off / 256, line := x, mask := (BitVec.ofNat 256 255) <<< (off % 256), data := 0
        atomic := some op } = .go) → ∀ y : State, y = w.useWindow n key →
      Answers (.rdmaCmpswap n psn key va a b ce true) s (· = (y.setQp n (State.remember { y.qp n with
        epsn := psn + 1, nakSent := false, nextMsn := q.nextMsn + 1, queued := q.queued ++ [.atomic psn r off (.cmpSwap (off % 256) a b)] }
          psn .atomic)).settle) ∧
      Answers (.rdmaFetchadd n psn key va a ce true) s (· = (y.setQp n (State.remember { y.qp n with
        epsn := psn + 1, nakSent := false, nextMsn := q.nextMsn + 1, queued := q.queued ++ [.atomic psn r off (.fetchAdd (off % 256) a)] }
          psn .atomic)).settle))) ∧
  (∀ (s w u : State) (n : Fin 65536) (q : Qp) (psn : BitVec 24) (key : Word) (va : Nat) (a : BitVec 64) (ce : Bool) (x : Remembered), s.Judges w n ce →
    q = w.qp n → q.mgmt = none → State.psnKind q psn = .duplicate → (q.recent.find? fun r => r.psn == psn) = some x → x.done = true →
    u = w.bump Reg.RDM_DUP_CNT 0 31 0 →
    Answers (.rdmaFetchadd n psn key va a ce true) s (· = (u.emit (.rdmaAtomic n psn (u.cached n psn))).settle) ∧
    Answers (.rdmaAtomicWrite n psn key va a ce true) s (· = (u.emit (.rdmaAck n psn (u.qp n).msn)).settle)) ∧
  (∀ (s w : State) (n : Fin 65536) (q : Qp) (psn : BitVec 24) (key : Word) (va len : Nat) (ce : Bool), s.Judges w n ce → q = w.qp n → q.mgmt = none →
    psn = q.epsn →
    (w.windowCheck q.pd key va len 3 = none → Answers (.rdmaFlush n psn key va len ce true) s (· = (w.qpFatal n psn 2 .access 0).settle)) ∧
    (∀ r x, w.windowCheck q.pd key va len 3 = some r → x = w.useWindow n key →
      Answers (.rdmaFlush n psn key va len ce true) s (· = (x.setQp n (State.remember { x.qp n with
      epsn := psn + 1, nakSent := false, nextMsn := q.nextMsn + 1, queued := q.queued ++ [.flush psn] } psn .flush)).settle))) ∧
  (∀ (s w : State) (n : Fin 65536) (q : Qp) (psn : BitVec 24) (ws : List Word) (ce ok : Bool), s.Judges w n ce → q = w.qp n →
    (q.mgmt = none → Answers (.rdmaSend n psn ws ce true ok) s (· = w.nak n psn 1)) ∧
    (∀ c, q.mgmt = some c → psn = q.epsn → ws.length < 4 ∨ 64 < ws.length → Answers (.rdmaSend n psn ws ce true ok) s (· = w.nak n psn 1)) ∧
    (∀ c, q.mgmt = some c → psn = q.epsn → 4 ≤ ws.length → ws.length ≤ 64 → 16 ≤ ((w.chan c).held.filter fun p => p.req.via == .rdmaQp).length →
      Answers (.rdmaSend n psn ws ce true ok) s (· = (w.setQp n { q with rnr := some psn }).nak n psn 4)) ∧
    (∀ c, q.mgmt = some c → psn = q.epsn → 4 ≤ ws.length → ws.length ≤ 64 → (w.chan c).held = [] →
      Answers (.rdmaSend n psn ws ce true ok) s (· = ((w.setQp n (State.remember { q with
        epsn := psn + 1, nakSent := false, msn := q.msn + 1, nextMsn := q.nextMsn + 1 } psn .write)).emit
          (.rdmaAck n psn (q.msn + 1))).arriveWords c .rdmaQp ws ok))) ∧
  (∀ (s : State) (m : Fin 32) (psn : BitVec 24), s.ingressOpen = true → s.bit Reg.RDM_CTRL 0 0 = true →
    Answers (.rdmaUnsupportedPacket m none psn) s (· = s.macDrop m) ∧
    (∀ n : Fin 65536, s.macTakes m = true → (s.qp n.val).connected = true → (s.qp n.val).error = false →
      Answers (.rdmaUnsupportedPacket m (some n) psn) s (· = s.nak n psn 1)) ∧
    (∀ n : Fin 65536, (s.qp n.val).connected = false → Answers (.rdmaUnsupportedPacket m (some n) psn) s (· = s.macDrop m)))

/-- The requester and rate control (R303, R309, R310, R314, R316). -/
def Obligations.RdmaRequester : Prop :=
  (∀ (s : State) (n : Fin 65536) (psn : BitVec 24) (code : Fin 5) (off : Nat) (d : List Byte) (b : Bool), (s.qp n).connected = false →
    Answers (.rdmaPeerAck n psn) s (· = s) ∧ Answers (.rdmaPeerNak n psn code) s (· = s) ∧ Answers (.rdmaReadResponse n psn off d b) s (· = s) ∧
    Answers (.requesterAckTimeout n) s (· = s) ∧ Answers (.sprayHoleTimeout n) s (· = s) ∧ Answers (.cnpReceived n) s (· = s) ∧
    Answers (.ccRateIncreaseTimer n) s (· = s)) ∧
  (∀ (s u : State) (n : Fin 65536) (psn : BitVec 24) (q : Qp), s.ingressOpen = true → q = s.qp n → q.connected = true → q.error = false →
    (∀ c, q.mgmt = some c → u = (s.setQp n { q with retries := 0, peerRnr := false }).setChan c { s.chan c with waiting := (s.chan c).waiting.drop 1 } →
      Answers (.rdmaPeerAck n psn) s (· = u.catchUp c)) ∧
    (q.mgmt = none → u = s.setQp n { q with retries := 0, flight := q.flight.map fun f =>
        if (psn - f.last).toNat < 2 ^ 23 ∧ f.wqe.opcode ≠ 2 then { f with acked := true } else f } →
      Answers (.rdmaPeerAck n psn) s (· = (u.flightEnd n (u.qp n).flight.length).settleRdma))) ∧
  (∀ (s : State) (n : Fin 65536) (psn : BitVec 24) (q : Qp), s.ingressOpen = true → q = s.qp n → q.connected = true → q.error = false →
    (∀ c, q.mgmt = some c → Answers (.rdmaPeerNak n psn 4) s (· = s.setQp n { q with peerRnr := true }) ∧ Answers (.rdmaPeerNak n psn 0) s (· = s) ∧
      Answers (.rdmaPeerNak n psn 1) s (· = (s.setQp n { q with error := true }).cause Reg.RDM_CAUSE 0 0 192) ∧
      Answers (.rdmaPeerNak n psn 3) s (· = (s.setQp n { q with error := true }).cause Reg.RDM_CAUSE 0 0 192)) ∧
    (∀ f, q.mgmt = none → q.flight = [f] → f.psn = psn → f.last = psn → f.acked = false → f.bad = false → ∀ u : State,
      u = s.setQp n { q with retries := 0 } →
      Answers (.rdmaPeerNak n psn 4) s (· = (u.wqeSend n f.wqe psn).settleRdma) ∧
      Answers (.rdmaPeerNak n psn 0) s (· = (u.wqeSend n f.wqe psn).settleRdma) ∧
      Answers (.rdmaPeerNak n psn 2) s (· = (u.sqFail n 1).settleRdma) ∧ Answers (.rdmaPeerNak n psn 3) s (· = (u.sqFail n 2).settleRdma))) ∧
  (∀ (s : State) (n : Fin 65536) (psn : BitVec 24) (off : Nat) (d : List Byte) (last : Bool) (q : Qp), s.ingressOpen = true → q = s.qp n →
    q.connected = true → q.error = false →
    (q.flight = [] → Answers (.rdmaReadResponse n psn off d last) s (· = s)) ∧
    (∀ f, q.flight = [f] → f.psn = psn → f.wqe.opcode = 2 → s.windowCheck q.pd f.wqe.localKey (f.wqe.localVa + off) d.length 4 = none →
      Answers (.rdmaReadResponse n psn off d last) s (· = (s.sqFail n 4).settleRdma)) ∧
    (∀ f r o ws, q.flight = [f] → f.psn = psn → f.wqe.opcode = 2 → s.windowCheck q.pd f.wqe.localKey (f.wqe.localVa + off) d.length 4 = some (r, o) →
      ws = s.pieces (.landing n psn) (.qp n) r o d → Answers (.rdmaReadResponse n psn off d last) s (· =
        (ws.foldl (fun s w => s.submit w) (s.setQp n { q with
          retries := 0, flight := [{ f with left := f.left + ws.length, acked := f.acked || last }] })).settleRdma))) ∧
  (∀ (s : State) (n : Fin 65536) (q : Qp), s.ingressOpen = true → q = s.qp n → q.connected = true → q.error = false →
    (∀ c w ws, q.mgmt = some c → (s.chan c).waiting = w :: ws →
      (q.retries < 7 → Answers (.requesterAckTimeout n) s (· = (s.setQp n { q with retries := q.retries + 1 }).emit (.send n w))) ∧
      (7 ≤ q.retries → Answers (.requesterAckTimeout n) s (· = (s.setQp n { q with error := true }).cause Reg.RDM_CAUSE 0 0 192))) ∧
    (q.mgmt = none → q.flight = [] → Answers (.requesterAckTimeout n) s (· = s)) ∧
    (∀ f, q.mgmt = none → q.flight = [f] → f.acked = false →
      (q.retries < 7 → Answers (.requesterAckTimeout n) s (· = (s.setQp n { q with retries := q.retries + 1 }).wqeSend n f.wqe f.psn)) ∧
      (7 ≤ q.retries → Answers (.requesterAckTimeout n) s (· = (s.sqFail n 3).settleRdma)))) ∧
  (∀ (s : State) (n : Fin 65536) (q : Qp) (c : Fin 64), q = s.qp n → q.mgmt = some c →
    (s.ingressOpen = true → q.connected = true → q.error = false → q.peerRnr = true →
      (∀ w ws, (s.chan c).waiting = w :: ws → Answers (.mgmtRnrRetry n) s (· = (s.setQp n { q with peerRnr := false }).emit (.send n w))) ∧
      ((s.chan c).waiting = [] → Answers (.mgmtRnrRetry n) s (· = s.setQp n { q with peerRnr := false }))) ∧
    (q.peerRnr = false → Answers (.mgmtRnrRetry n) s (· = s))) ∧
  (∀ (s : State) (n : Fin 65536) (q : Qp), s.ingressOpen = true → q = s.qp n → q.connected = true → q.error = false →
    (q.spray = true → q.hole = true → Answers (.sprayHoleTimeout n) s (· =
      ((s.bump Reg.RDM_NAK_CNT 0 31 16).cause Reg.RDM_CAUSE 0 3 195).emit (.rdmaSack n q.epsn
        (sackHeader ((State.missingRanges q.placed 1024 q.epsn []).take 8).length) (((State.missingRanges q.placed 1024 q.epsn []).take 8).map sackRange)))) ∧
    (q.hole = false → Answers (.sprayHoleTimeout n) s (· = s))) ∧
  (∀ (s u : State) (n : Fin 65536) (q : Qp), s.ingressOpen = true → q = s.qp n → q.connected = true → u = s.bump Reg.RDM_CNP_CNT 0 31 16 →
    (s.bit Reg.RDM_CTRL 0 3 = false → Answers (.cnpReceived n) s (· = u)) ∧
    (s.bit Reg.RDM_CTRL 0 3 = true → q.decAt = none → Answers (.cnpReceived n) s (· = u.setQp n { q with
      k := 1, decAt := some s.tally.now
      rate := max (s.fld Reg.RDM_CC_INC 0 23 16) (q.rate * (256 - s.fld Reg.RDM_CC_DEC 0 7 0) / 256) })) ∧
    (∀ t, s.bit Reg.RDM_CTRL 0 3 = true → q.decAt = some t → s.usSince t < s.fld Reg.RDM_CC_DEC 0 15 8 →
      Answers (.cnpReceived n) s (· = u.setQp n { q with k := 1 }))) ∧
  (∀ (s : State) (n : Fin 65536) (q : Qp), s.psq.mainUp = true → q = s.qp n → q.connected = true →
    (s.bit Reg.RDM_CTRL 0 3 = true → Answers (.ccRateIncreaseTimer n) s (· = s.setQp n { q with
      rate := max q.rate (min (s.macRate q.mac) (q.rate + q.k * s.fld Reg.RDM_CC_INC 0 15 8)), k := min 8 (q.k + 1) })) ∧
    (s.bit Reg.RDM_CTRL 0 3 = false → Answers (.ccRateIncreaseTimer n) s (· = s)))

/-- Ethernet (R294, R295, R302, R303, R317, R318, R320). -/
def Obligations.EthernetEvents : Prop :=
  (∀ (s w : State) (r : CmReq), s.bit Reg.RDM_CTRL 0 0 = true → s.macTakes r.mac = true → s.flash.cores = .running → w = s.wakeIdle →
    (w.domainReady = false → Answers (.cmReq r) s (· = (w.cause Reg.RDM_CAUSE 0 6 198).emit (.cmRej 1 0))) ∧
    (w.domainReady = true → r.format ≠ 1 → Answers (.cmReq r) s (· = (w.cause Reg.RDM_CAUSE 0 6 198).emit (.cmRej 7 0))) ∧
    (∀ n pd, w.domainReady = true → r.format = 1 → r.service = 0 → r.placement = 0 → r.pdOrChan.toNat < 4096 →
      Tab.get none w.rdma.pds r.pdOrChan.toNat = some pd → pd.token = r.token → w.freeQp = some n → Answers (.cmReq r) s fun t => ∃ u : State,
        u = (w.setQp n { connected := true, depth := r.depth.toNat, pd := r.pdOrChan.toNat, mac := r.mac, gid := r.gid, pmtu := 1024 * 2 ^ r.pmtu.val, epsn := r.psn, rate := w.macRate r.mac, txPsn := (Config.undefinedWord w.fresh).setWidth 24 }).draw ∧
        t = ((u.contextIn n).emit (.cmRep n false)).judgeRdm)) ∧
  (∀ (s : State) (r : CmReq), s.bit Reg.RDM_CTRL 0 0 = false → Answers (.cmReq r) s (· = s)) ∧
  (∀ (s w : State) (m : Fin 32) (g : Fin 16) (x : BitVec 128) (v : Option (BitVec 12)), s.macTakes m = true → s.flash.cores = .running → w = s.wakeIdle →
    Tab.get none (w.mac m).gids g = some (x, v) →
    (x >>> 32 = 0xFFFF#128 → Answers (.arpRequest m g) s (· = w.emit (.macFrame m 0 g)) ∧ Answers (.neighborDiscovery m g) s (· = w.macDrop m) ∧
      Answers (.icmpEcho m g) s (· = w.emit (.macFrame m 2 g))) ∧
    (x >>> 32 ≠ 0xFFFF#128 → Answers (.arpRequest m g) s (· = w.macDrop m) ∧ Answers (.neighborDiscovery m g) s (· = w.emit (.macFrame m 1 g)) ∧
      Answers (.icmpEcho m g) s (· = w.emit (.macFrame m 2 g)))) ∧
  (∀ (s w : State) (m : Fin 32) (g : Fin 16), s.macTakes m = true → s.flash.cores = .running → w = s.wakeIdle →
    Tab.get none (w.mac m).gids g = none → Answers (.arpRequest m g) s (· = w.macDrop m) ∧ Answers (.neighborDiscovery m g) s (· = w.macDrop m) ∧
    Answers (.icmpEcho m g) s (· = w.macDrop m)) ∧
  (∀ (s : State) (m : Fin 32) (g : Fin 16), s.macTakes m = true → s.flash.cores = .restarting →
    Answers (.icmpEcho m g) s (· = { s with rdma := { s.rdma with asks := s.rdma.asks ++ [.icmp m g] } })) ∧
  (∀ (s : State) (m : Fin 32) (g : Fin 16), (s.mac m).up = false → Answers (.arpRequest m g) s (· = s)) ∧
  (∀ (s : State) (m : Fin 32) (g : Fin 16), s.ingressOpen = true → s.macThere m = true → s.eportOn (m / 4) = true → (s.mac m).up = true →
    s.bit Reg.ETH_MACSEC_CTRL 0 (8 + m / 4) = true → (s.mac m).sa = false → Answers (.icmpEcho m g) s (· = s.macDrop m)) ∧
  (∀ (s w : State) (m : Fin 32) (sc : Fin 64) (an : Fin 2) (sa : Bool), s.ingressOpen = true → s.macThere m = true → s.eportOn (m / 4) = true → (s.mac m).up = true →
    s.flash.cores = .running → w = s.wakeIdle →
    (w.bit Reg.ETH_MACSEC_CTRL 0 (m / 4) = true → Tab.get none w.rdma.caks (m / 4 * 64 + sc) ≠ none →
      Answers (.mkaFrame m sc an sa) s (· = ((w.setMac m ((w.mac m).putSa sc an sa)).emit (.macFrame m 3 sc)).judgeMac m)) ∧
    (w.bit Reg.ETH_MACSEC_CTRL 0 (m / 4) = false → Answers (.mkaFrame m sc an sa) s (· = w))) ∧
  (∀ (s : State) (p prio : Fin 8) (pause : Bool),
    (s.eportOn p = true → s.bit Reg.ETH_PFC 0 p = true → s.fld Reg.ETH_PFC 0 10 8 = prio.val →
      Answers (.pfcFrame p prio pause) s (· = s.setEport p { s.eport p with paused := pause })) ∧
    (s.bit Reg.ETH_PFC 0 p = false ∨ s.fld Reg.ETH_PFC 0 10 8 ≠ prio.val → Answers (.pfcFrame p prio pause) s (· = s))) ∧
  (∀ (s u : State) (p : Fin 8) (free : Fin 4097), s.eportOn p = true → u = s.setEport p { s.eport p with free := free.val } →
    (s.bit Reg.ETH_PFC 0 p = true → (s.eport p).sending = false → free.val < s.fld Reg.ETH_PFC 0 31 16 → Answers (.pfcBufferLevel p free) s (· =
      (u.setEport p { s.eport p with free := free.val, sending := true }).emit (.pfc p true))) ∧
    ((s.eport p).sending = true → 2 * s.fld Reg.ETH_PFC 0 31 16 < free.val → Answers (.pfcBufferLevel p free) s (· =
      (u.setEport p { s.eport p with free := free.val, sending := false }).emit (.pfc p false))) ∧
    ((s.eport p).sending = false → s.fld Reg.ETH_PFC 0 31 16 ≤ free.val → Answers (.pfcBufferLevel p free) s (· = u))) ∧
  (∀ (s : State) (m : Fin 32), s.eportOn (m / 4) = true → s.macThere m = true →
    ((s.eport (m / 4)).paused = true ∨ (s.eport (m / 4)).sending = true → Answers (.pfcStorm m) s (· = s.cause Reg.ETH_MAC_CAUSE m 10 (160 + m))) ∧
    ((s.eport (m / 4)).paused = false → (s.eport (m / 4)).sending = false → Answers (.pfcStorm m) s (· = s)) ∧
    ((s.mac m).up = true → s.bit Reg.ETH_MACSEC_CTRL 0 (m / 4) = true → Answers (.icvFail m) s (· =
      (s.cause Reg.ETH_MAC_CAUSE m 8 (160 + m)).macDrop m)) ∧
    (s.psq.mainUp = true → (s.eport (m / 4)).mode = 0 → Answers (.macLinkChange m true) s (· = (s.setMac m { s.mac m with up := true, rate := 3 }).judgeMac m)) ∧
    (s.psq.mainUp = true → (s.eport (m / 4)).mode = 1 → Answers (.macLinkChange m true) s (· = (s.setMac m { s.mac m with up := true, rate := 2 }).judgeMac m)) ∧
    (s.psq.mainUp = true → Answers (.macLinkChange m false) s (· = (s.setMac m { s.mac m with up := false, rate := 0 }).judgeMac m))) ∧
  (∀ (s : State) (m : Fin 32), s.macThere m = false → Answers (.macLinkChange m true) s (· = s) ∧ Answers (.icvFail m) s (· = s) ∧
    Answers (.pfcStorm m) s (· = s))

/-- What each command leaves unchanged: every part of the state outside `Instr.touches`. -/
def Obligations.CommandFrames : Prop := ∀ (i : Instr) (s t : State), exec i s = .next t → Keeps i.touches s t

/-- Transitions of the life cycle are one-way (R387 to R390), and so is the anti-rollback counter (R425): over every step of the block. -/
def Obligations.OtpIsOneWay : Prop :=
  ∀ s t : State, step s = .next t → s.FusesGrow t ∧ (s.life = .ended → t.life = .ended)

/-- No command ends in a fault or a refusal, and none touches the queue. -/
def Obligations.NoCommandStops : Prop := ∀ (i : Instr) (s : State), Answers i s fun t => t.pending = s.pending

/-- The WEAR code (R133). -/
def Obligations.WearCode : Prop :=
  (∀ c : BitVec 16, bitsOf (c.setWidth 32) 15 11 = 0 → wearN c = bitsOf (c.setWidth 32) 10 0) ∧
  (∀ c : BitVec 16, 1 ≤ bitsOf (c.setWidth 32) 15 11 →
    wearN c = (2048 + bitsOf (c.setWidth 32) 10 0) * 2 ^ (bitsOf (c.setWidth 32) 15 11 - 1)) ∧
  (∀ c d : BitVec 16, c < d ↔ wearN c < wearN d) ∧
  (∀ c d : BitVec 16, d.toNat = c.toNat + 1 → 2048 ≤ wearN c → (wearN d - wearN c) * 2048 ≤ wearN c)

/-- The encoding of the life-cycle state (R387). -/
def Obligations.LifeCycleCode : Prop :=
  (∀ (g : BitVec 80) (n : Fin 6), (∀ k : Fin 5, (g >>> (16 * k.val)).setWidth 16 ≠ 0#16 ↔ k.val < n.val) → (lifeOf g).code = n.val) ∧
  (∀ (g : BitVec 80) (j k : Fin 5), j < k → (g >>> (16 * j.val)).setWidth 16 = 0#16 → (g >>> (16 * k.val)).setWidth 16 ≠ 0#16 → lifeOf g = .ended) ∧
  (∀ (s : State) (k : Fin 5), (s.sec.groups >>> (16 * k.val)).setWidth 16 ≠ 0#16 →
    (s.groupsRepair.sec.groups >>> (16 * k.val)).setWidth 16 = 0xFFFF#16) ∧
  (∀ (s : State) (k : Fin 5), (s.sec.groups >>> (16 * k.val)).setWidth 16 = 0#16 →
    (s.groupsRepair.sec.groups >>> (16 * k.val)).setWidth 16 = 0#16) ∧
  (∀ s : State, s.groupsRepair.life = s.life) ∧
  (∀ s : State, (s.groupsRepair.readReg Reg.LCS_OTP_STATUS 0).getLsbD 1 = true ↔
    ∃ k : Fin 5, (s.sec.groups >>> (16 * k.val)).setWidth 16 ≠ 0#16 ∧ (s.sec.groups >>> (16 * k.val)).setWidth 16 ≠ 0xFFFF#16)

/-- The capture of bus errors (R28, R29). -/
def Obligations.BusErrorCapture : Prop :=
  ∀ (s t : State) (req : Requester) (addr : Nat) (write : Bool) (c : BusCause), s.psq.mainUp = true → s.evt.raw.getLsbD 427 = false →
    t = s.busError req addr write c →
    (s.bit Reg.TOP_BUSERR_INFO 0 31 = true → t.reg Reg.TOP_BUSERR_ADDR = s.reg Reg.TOP_BUSERR_ADDR ∧ t.bit Reg.TOP_BUSERR_INFO 0 30 = true ∧
      ∀ b : Nat, b ≠ 30 → b < 32 → t.bit Reg.TOP_BUSERR_INFO 0 b = s.bit Reg.TOP_BUSERR_INFO 0 b) ∧
    (s.bit Reg.TOP_BUSERR_INFO 0 31 = false → t.bit Reg.TOP_BUSERR_INFO 0 31 = true ∧
      t.bit Reg.TOP_BUSERR_INFO 0 30 = s.bit Reg.TOP_BUSERR_INFO 0 30 ∧ t.fld Reg.TOP_BUSERR_INFO 0 29 27 = c.code ∧
      t.fld Reg.TOP_BUSERR_INFO 0 17 16 = req.ids.1 ∧ t.fld Reg.TOP_BUSERR_INFO 0 15 8 = req.ids.2 ∧ t.bit Reg.TOP_BUSERR_INFO 0 0 = write ∧
      (addr < 2 ^ 24 → t.fld Reg.TOP_BUSERR_ADDR 0 23 2 = addr / 4)) ∧
    t.evt.pend.getLsbD 427 = true

/-- Pending bits and raw bits (R37). -/
def Obligations.CaptureNeedsARise : Prop :=
  (∀ (s : State) (n : Nat), s.evt.raw.getLsbD n = true → s.raise n = s) ∧
  (∀ (s : State) (k : Nat) (w : Word), k < 16 → (s.pendWrite k w).evt.raw = s.evt.raw ∧
    ∀ n : Nat, n < 512 → (s.pendWrite k w).evt.pend.getLsbD n = if n / 32 = k then w.getLsbD (n % 32) else s.evt.pend.getLsbD n) ∧
  (∀ (s : State) (k : Nat) (w : Word) (n : Nat), s.evt.raw.getLsbD n = true → (s.pendWrite k w).raise n = s.pendWrite k w) ∧
  (∀ (s : State) (n : Nat), n < 512 → (s.lower n).evt.pend = s.evt.pend ∧ (s.lower n).evt.raw.getLsbD n = false) ∧
  (∀ (s : State) (n : Nat), n < 512 → s.psq.mainUp = true → s.evt.raw.getLsbD n = false → (s.raise n).evt.pend.getLsbD n = true)

/-- Dual-copy records (R405, R406). -/
def Obligations.NvTwinCopies : Prop :=
  (∀ (s : State) (key : Nat) (p : List Nat),
    (∀ b c, (Tab.get ({} : NvRecord) s.nv.records key).choose.1 = some (b, c) → c.seq < 0xFFFFFFFF) →
    (s.nvWrite key p).nvRead key = (some p, s.nvWrite key p) ∧
    (∀ k : Nat, k ≠ key → Tab.get ({} : NvRecord) (s.nvWrite key p).nv.records k = Tab.get {} s.nv.records k) ∧
    ∀ r r' : NvRecord, r = Tab.get ({} : NvRecord) s.nv.records key → r' = Tab.get ({} : NvRecord) (s.nvWrite key p).nv.records key →
      ∀ (b : Bool) (c : NvCopy), r.choose.1 = some (b, c) →
        (if b then r'.a = r.a else r'.b = r.b) ∧
        (if b then ({ r' with b := { r'.b with valid := false } } : NvRecord) else { r' with a := { r'.a with valid := false } }).choose.1 = some (b, c)) ∧
  (∀ (s : State) (key : Nat) (r : NvRecord), r = Tab.get ({} : NvRecord) s.nv.records key → r.a.ok = true → r.b.ok = true →
    (r.b.seq < r.a.seq → s.nvRead key = (some r.a.payload, s)) ∧ (r.a.seq < r.b.seq → s.nvRead key = (some r.b.payload, s)) ∧
    (r.a.seq = r.b.seq → r.a.payload = r.b.payload → s.nvRead key = (some r.a.payload, s)) ∧
    (r.a.seq = r.b.seq → r.a.payload ≠ r.b.payload → r.b.stamp < r.a.stamp → s.nvRead key = (some r.a.payload, s)) ∧
    (r.a.seq = r.b.seq → r.a.payload ≠ r.b.payload → r.a.stamp < r.b.stamp → s.nvRead key = (some r.b.payload, s)) ∧
    (r.a.seq = r.b.seq → r.a.payload ≠ r.b.payload → r.a.stamp = r.b.stamp →
      s.nvRead key = (some r.a.payload, s.cause Reg.NVS_CAUSE 0 3 387))) ∧
  (∀ (s : State) (key : Nat) (r : NvRecord), r = Tab.get ({} : NvRecord) s.nv.records key → r.a.ok = false → r.b.ok = false →
    (s.nvRead key).1 = none)

/-- FAILS and HOLD_UNTIL (R376). -/
def Obligations.UnlockHold : Prop :=
  ∀ (s : State) (r : Nat) (k v : KeySlot) (tries : Nat), k = s.keySlot r → tries = s.fld Reg.SEC_CTRL 0 3 0 → v = (s.unlockFail r).keySlot r →
    v.fails = min (k.fails + 1) 65535 ∧ v.state = k.state ∧ v.key = k.key ∧ v.loaded = k.loaded ∧
    (k.fails + 1 < tries → v.holdUntil = k.holdUntil) ∧
    (k.fails + 1 = tries → v.holdUntil = s.holdNow + 600#32) ∧
    (tries ≤ k.fails + 1 → v.holdUntil = s.holdNow + BitVec.ofNat 32 (min (600 * 2 ^ (k.fails + 1 - tries)) 86400)) ∧
    ∀ q : Nat, q ≠ r → (s.unlockFail r).keySlot q = s.keySlot q

/-- What a firing leaves of its slot (R55). -/
def Obligations.SlotAdvance : Prop :=
  ∀ (v : Slot) (now : Dword), v.time ≤ now →
    (v.period = 0 → v.advance now = { v with arm := false }) ∧
    (v.period ≠ 0 → now.toNat + v.period.toNat * 65536 < 2 ^ 64 → ∃ k : Nat, 1 ≤ k ∧
      (v.advance now).time.toNat = v.time.toNat + k * (v.period.toNat * 65536) ∧ now < (v.advance now).time ∧
      (v.advance now).time.toNat ≤ now.toNat + v.period.toNat * 65536 ∧
      (v.advance now).miss.toNat = min (v.miss.toNat + (k - 1)) 255 ∧ (v.advance now).arm = v.arm ∧ (v.advance now).period = v.period ∧
      (v.advance now).action = v.action ∧ (v.advance now).arg = v.arg)

/-- The CRC of Azler packets (R351, in the form of R69). -/
def Obligations.PacketCrc : Prop :=
  (∀ (w0 w1 w2 : Word) (ps : List Word), packetCrc w0 w1 w2 ps =
    (((w0 :: w1 :: w2 :: ps).flatMap fun w => (List.range 4).flatMap fun i => (List.range 8).map fun j => w.getLsbD (8 * i + (7 - j))).foldl
      (fun (c : BitVec 16) b => if c.getLsbD 15 != b then (c <<< 1) ^^^ 0x1021#16 else c <<< 1) 0xFFFF#16)) ∧
  (∀ (c : Fin 64) (via : Transport) (w0 w1 w2 w3 : Word) (ps : List Word) (ok : Bool), ps.length ≤ 60 → bitsOf w0 7 0 = ps.length →
    (w3 = (packetCrc w0 w1 w2 ps).setWidth 32 → ∃ r, parsePacket c via (w0 :: w1 :: w2 :: w3 :: ps) ok = .inr (bitsOf w0 31 16, r) ∧
      r.chan = c ∧ r.tag.toNat = bitsOf w1 31 16 ∧ r.seq.toNat = bitsOf w1 15 0 ∧ r.session = w2 ∧ r.quiet = w0.getLsbD 8 ∧
      r.flags.toNat = bitsOf w0 15 9 ∧ r.params = ps) ∧
    (w3 ≠ (packetCrc w0 w1 w2 ps).setWidth 32 → parsePacket c via (w0 :: w1 :: w2 :: w3 :: ps) ok = .inl (.badParam, [3])))

/-- The layout of replies and notifications (R352, R353). -/
def Obligations.ReplyLayout : Prop :=
  (∀ (st : Status) (done : Bool) (tag seq : BitVec 16) (res : List Word), res.length ≤ 62 → ∃ w0 w1 : Word,
    replyWords st done tag seq res = w0 :: w1 :: res ∧ bitsOf w0 31 16 = st.code ∧ bitsOf w0 15 8 = done.toNat ∧ bitsOf w0 7 0 = res.length ∧
      bitsOf w1 31 16 = tag.toNat ∧ bitsOf w1 15 0 = seq.toNat) ∧
  (∀ (s : State) (src : Nat) (n : Word), src < 512 → ∃ w0 a b c d : Word, notifyWords s src n = [w0, 0, a, b, c, d] ∧ bitsOf w0 31 16 = Status.ok.code ∧
    w0.getLsbD 9 = true ∧ w0.getLsbD 8 = false ∧ bitsOf w0 7 0 = 4 ∧ a.toNat = src ∧ b = n ∧ Dword.ofWords c d = s.tally.now)

/-- What Yarrow's commands do to a sett, a zone and the queue when nothing hinders them (R57, R106, R124, R127, R128, R130, R131, R139, R142). -/
def Obligations.YarrowMoves : Prop :=
  (∀ (s : State) (n : Nat) (p q : Phys), s.psq.mainUp = true → { lsett := n, kind := .remap } ∈ s.med.yarrow.queue → (s.sett n).phys = some p →
    s.dieUp p.die = true → (s.sett n).mig = .idle → s.move n = none → s.jFull = false → s.chunkLoaded n = true →
    s.chanSlot (State.dieChan p.die) (s.sett n).mode (fun _ _ => true) (fun _ => false) = some q →
    Answers (.emergencyRemapStart n) s fun t => ∃ u : State, u = s.workBegin { lsett := n, kind := .remap } (some q) (s.sett n).mode ∧
      (u.sett n).mig = .remap ∧ (u.sett n).phys = some p ∧ (u.move n).map (fun m => (m.kind, m.dest, m.spoil)) = some (.remap, some q, true) ∧
      (State.slotInfo (u.zone q.die q.zone) q.slot).alloc = true ∧ u.med.yarrow.queue = s.med.yarrow.queue.erase { lsett := n, kind := .remap } ∧
      u.bit Reg.YRW_CAUSE 0 9 = true ∧ t = u.settleMed) ∧
  (∀ (s : State) (n : Nat) (m : Move) (p q : Phys), s.medUp = true → s.jFull = false → s.move n = some m → m.verified = BitVec.allOnes 256 →
    m.dest = some q → (s.sett n).phys = some p → m.kind ≠ .remap → m.kind ≠ .resync → (∀ b, m.kind ≠ .rebuild b) →
    { lsett := n, kind := .remap } ∉ s.med.yarrow.queue → Answers (.moveCommit n) s fun t => ∃ u : State, u = s.moveCommit n ∧
      (u.sett n).phys = some q ∧ (u.sett n).mode = m.mode ∧ (u.sett n).lrot = m.lrot ∧ (u.sett n).mig = .idle ∧ (u.sett n).gen = (s.sett n).gen ∧
      (u.sett n).spoilPending = false ∧ u.move n = none ∧ (State.slotInfo (u.zone p.die p.zone) p.slot).alloc = false ∧
      (State.slotInfo (u.zone p.die p.zone) p.slot).wear = (s.sett n).wear ∧
      (State.slotInfo (u.zone p.die p.zone) p.slot).spoil = (m.spoil || (s.sett n).spoilPending || (State.slotInfo (s.zone p.die p.zone) p.slot).spoil) ∧
      t = (((((((u.setScb n none).satisfyWork n).convCheck n).foldLog p.die).retireZones.spareNow).judgeOccupancy).writeDeadline).settleMed) ∧
  (∀ (s : State) (n : Nat) (p : Phys), s.medUp = true → s.psq.mainUp = true → s.med.yarrow.queue = [{ lsett := n, kind := .refresh }] →
    s.med.rebuild = [] → (s.sett n).phys = some p → s.dieUp p.die = true → (s.sett n).mig = .idle → s.move n = none → s.jFull = false →
    s.chunkLoaded n = true → s.wornBeyond p.die (s.sett n).wear = false →
    Answers .yarrowWorkDispatch s fun t => ∃ u : State, u = s.workBegin { lsett := n, kind := .refresh } none (s.sett n).mode ∧
      (u.sett n).mig = .rewrite ∧ (u.sett n).phys = some p ∧ (u.move n).map (fun m => (m.kind, m.dest)) = some (.refresh, none) ∧
      u.med.yarrow.queue = [] ∧ t = u.judgeShort.settleMed) ∧
  (∀ (s : State) (n : Nat) (p q : Phys), s.medUp = true → s.med.yarrow.queue = [{ lsett := n, kind := .onset q }] → s.med.rebuild = [] →
    (s.sett n).phys = some p → p ≠ q → Answers .yarrowWorkDispatch s fun t =>
    t = (s.setYrw { s.med.yarrow with queue := [] }).judgeShort.settleMed) ∧
  (∀ (s : State) (n : Fin 144) (d k z i : Nat) (w : BitVec 16) (p : Phys), s.psq.mainUp = true → ((s.chanDies n).filter fun d => s.dieUp d) = [d] →
    s.dieSetts d = [(k, s.sett k)] → (s.sett k).phys = some p → s.wornBeyond d (s.sett k).wear = true →
    s.dieSlot d (s.sett k).mode (fun _ => true) = some (z, i, w) → s.move k = none → (∀ x ∈ s.med.yarrow.queue, x.lsett ≠ k) →
    s.mostWornFree d = none → 4 ≤ s.fld Reg.YRW_CFG 0 23 16 → Answers (.wearScan n) s fun t =>
    t.med = { s.med with yarrow := { s.med.yarrow with
      queue := s.med.yarrow.queue ++ [{ lsett := k, kind := .wear { die := d, zone := z, slot := i } p }] } }) ∧
  (∀ (s : State) (n : Fin 144) (d : Nat), s.psq.mainUp = true → ((s.chanDies n).filter fun d => s.dieUp d) = [d] →
    (∀ q ∈ s.dieSetts d, s.wornBeyond d q.2.wear = false) → (∀ x, s.mostWornFree d = some x → s.wornBeyond d x.2.1 = false) →
    4 ≤ s.fld Reg.YRW_CFG 0 23 16 → Answers (.wearScan n) s fun t => t.med = s.med) ∧
  (∀ s : State, s.psq.mainUp = true → (∀ p ∈ s.med.zones, (s.zone (p.1 / 64) (p.1 % 64)).state ≠ .pinned) → Answers .spareRecompute s fun t =>
    t.med.yarrow.cap = State.capOf (s.spareUnits 0) s.userUnits ∧
    t.med.yarrow.spareBp = (if s.spareUnits 0 ≤ 0 ∨ s.userUnits = 0 then 0 else min 65535 ((s.spareUnits 0).toNat * 10000 / s.userUnits)) ∧
    t.med.zones = s.med.zones ∧ t.med.setts = s.med.setts ∧ t.med.yarrow.queue = s.med.yarrow.queue ∧ t.med.yarrow.moves = s.med.yarrow.moves) ∧
  (∀ (s : State) (d z : Nat) (v : Zone), s.psq.mainUp = true → z < 64 → s.med.zones = [(d * 64 + z, v)] → v.state = .pinned →
    slotCap v.mode ≤ 4 * (v.slots.filter fun q => q.2.spoil).length → (v.slots.any fun q => q.2.alloc && !q.2.reserved) = false →
    Answers .spareRecompute s fun t => t.zone d z = { v with state := .retired }) ∧
  (∀ (s : State) (n : Nat) (p : Phys) (g : Young), s.psq.mainUp = true → s.youngOf n = [g] → (s.sett n).phys = some p →
    withinSpan (s.sett n).mode (256 * s.age p.die (s.bandStamps (s.sett n)).1) (s.youngAge p.die g.tLast) = true →
    Answers (.youngSweep n) s fun t => ∃ u : State, u = (((s.youngSweep n).1.journalYoung n [g]).journal (.entry n)).journal (.bandOfs n) ∧
      u.youngOf n = [] ∧ u.sett n = { s.sett n with
        bandNew := BitVec.ofNat 20 (g.tLast.toNat / 256 / 4096), newOfs := BitVec.ofNat 12 (g.tLast.toNat / 256 % 4096), young := false } ∧
      (∀ k, k ≠ n → u.sett k = s.sett k) ∧ t = u.judgeOccupancy.settleMed) ∧
  (∀ (s : State) (n : Nat) (p : Phys) (g : Young), s.psq.mainUp = true → s.youngOf n = [g] → (s.sett n).phys = some p →
    withinSpan (s.sett n).mode (256 * s.age p.die (s.bandStamps (s.sett n)).1) (s.youngAge p.die g.tLast) = false →
    Answers (.youngSweep n) s fun t => ∃ u : State, u = (s.youngSweep n).1.journal (.entry n) ∧ u.youngOf n = [g] ∧
      (∀ k, u.sett k = s.sett k) ∧ t = u.judgeOccupancy.settleMed) ∧
  (∀ (s : State) (g : Nat), s.psq.mainUp = true → g < 9 → s.bit Reg.TSL_CTRL 0 0 = true → (s.qg g).inService = true → (s.pass g).running = false →
    (∀ h < 9, h ≠ g → (s.qg h).inService = false ∨ (s.pass h).running = true) → Answers .tslPassNow s fun t => ∃ u : State, u = s.startPass g ∧
      (u.pass g).running = true ∧ (u.pass g).marked = [] ∧ (∀ h, h ≠ g → u.pass h = s.pass h) ∧ t = u.settleMed) ∧
  (∀ s : State, s.psq.mainUp = true → s.bit Reg.TSL_CTRL 0 0 = false → Answers .tslPassNow s (· = s.settleMed))

/-- A WRITE packet in order that its window covers is taken: its message, its pieces and its PSN are recorded and the pieces go to Bench 0
(R297, R299, R300, R302); an ATOMIC WRITE is one such packet of 8 bytes (R304). -/
def Obligations.RdmaWriteLands : Prop :=
  (∀ (s w x u v : State) (n : Fin 65536) (k : WritePkt) (r off : Nat) (q : Qp) (ws : List HostWrite), s.Judges w n k.ce → k.icrc = true →
    q = w.qp n → q.mgmt = none → q.spray = false → k.psn = q.epsn → k.pos = .only ∨ k.pos = .first →
    w.windowCheck q.pd k.key k.va k.len 1 = some (r, off) → ws = w.pieces (.rdma n k.psn) (.qp n) r off k.data → w.packetFate ws = .go →
    x = w.useWindow n k.key → u = x.setQp n { x.qp n with nextMsn := q.nextMsn + 1, msgs := q.msgs ++ [{
      first := k.psn, last := k.psn + BitVec.ofNat 24 (State.packetsOf q k.len - 1), msn := q.nextMsn, left := 0, missing := k.len, length := k.len }] } →
    v = u.setQp n (State.remember { u.qp n with
      epsn := k.psn + 1, nakSent := false, cur := if k.pos = .only then none else some { first := k.psn, region := r, off := off, len := k.len }
      msgs := (u.qp n).msgs.map fun m => if m.msn == q.nextMsn then { m with imm := if k.pos = .only then none else m.imm } else m } k.psn .write) →
    Answers (.rdmaWrite n k) s (· = ((v.msgAdd n q.nextMsn ws.length k.data.length).submitAll n ws).settle)) ∧
  (∀ (s w v : State) (n : Fin 65536) (k : WritePkt) (q : Qp) (c : CurMsg) (m : Msg) (ws : List HostWrite), s.Judges w n k.ce → k.icrc = true →
    q = w.qp n → q.mgmt = none → q.spray = false → k.psn = q.epsn → k.pos = .middle ∨ k.pos = .last → q.cur = some c →
    (q.msgs.find? fun m => m.first == c.first) = some m →
    ws = w.pieces (.rdma n k.psn) (.qp n) c.region (c.off + (k.psn - c.first).toNat * q.pmtu) k.data →
    v = w.setQp n (State.remember { q with
      epsn := k.psn + 1, nakSent := false, cur := if k.pos = .last then none else some c
      msgs := q.msgs.map fun y => if y.msn == m.msn then { y with imm := if k.pos = .last then none else y.imm } else y } k.psn .write) →
    Answers (.rdmaWrite n k) s (· = ((v.msgAdd n m.msn ws.length k.data.length).submitAll n ws).settle)) ∧
  (∀ (s w x u v : State) (n : Fin 65536) (psn : BitVec 24) (key : Word) (va r off : Nat) (d : BitVec 64) (ce : Bool) (q : Qp) (ws : List HostWrite)
    (bs : List Byte), s.Judges w n ce → q = w.qp n → q.mgmt = none → psn = q.epsn → State.outstanding q < 16 → va % 8 = 0 →
    w.windowCheck q.pd key va 8 1 = some (r, off) → bs = ((List.range 8).map fun i => (d >>> (8 * i)).setWidth 8) →
    ws = w.pieces (.rdma n psn) (.qp n) r off bs → w.packetFate ws = .go →
    x = w.useWindow n key → u = x.setQp n { x.qp n with nextMsn := q.nextMsn + 1, msgs := q.msgs ++ [{
      first := psn, last := psn + BitVec.ofNat 24 (State.packetsOf q 8 - 1), msn := q.nextMsn, left := 0, missing := 8, length := 8 }] } →
    v = u.setQp n (State.remember { u.qp n with
      epsn := psn + 1, nakSent := false, cur := none
      msgs := (u.qp n).msgs.map fun m => if m.msn == q.nextMsn then { m with imm := none } else m } psn .write) →
    Answers (.rdmaAtomicWrite n psn key va d ce true) s (· = ((v.msgAdd n q.nextMsn ws.length 8).submitAll n ws).settle))

/-- What the work of the medium and its benches does where it goes well (R11, R15, R57, R58, R110, R115, R126, R154, R175, R195, R213, R252). -/
def Obligations.MediumEffects : Prop :=
  (∀ (s : State) (n : Fin 144) (seq : BitVec 8) (c : QmiCmd) (i : DoneInfo) (x : Nat) (b : BLine), s.medUp = true → (s.qc n).lstate = .active →
    (s.qc n).offWait = false → State.inOrder (s.qc n) seq 3 = true → (s.qc n).sent.find? (fun y => y.tag == c.tag && y.op == .program) = some c →
    c.op = .program → c.user = .writeBack x → i.status = .ok →
    (s.sett (lineSett x)).phys = some { die := n * 16 + c.die, zone := c.zone, slot := c.slot } → s.bline x = some b → b.state = .wb →
    b.redirty = false → x ∉ s.sec.sealed → ((s.taken n c seq).youngAdd (lineSett x) (lineIdx x) (s.taken n c seq).youngStamp).2 = true →
    Answers (.programDone n seq c.tag i) s fun t => ∃ u : State,
      u = (s.taken n c seq).programVerified { die := n * 16 + c.die, zone := c.zone, slot := c.slot } c.nextLine i ∧
      u.bline x = some { b with state := .clean } ∧ t = u.answerEnd n) ∧
  (∀ (s v : State) (n : Fin 144) (seq : BitVec 8) (c : QmiCmd) (f : BitVec 2400) (x : Nat) (d : Line), s.medUp = true → (s.qc n).lstate = .active →
    (s.qc n).offWait = false → State.inOrder (s.qc n) seq 76 = true →
    (s.qc n).sent.find? (fun x => x.tag == c.tag && (x.op == .read || x.op == .marginRead)) = some c → c.user = .fill x →
    v = s.taken n c seq → v.cmdLine n c.nextLine = (x, true) →
    (verdictOf (v.sett c.lsett) (hardDecode f) = .data d → Answers (.qmiFrameResponse n seq c.tag f) s
      (· = ((v.installLine x (v.plain x d) false false).answerReads x (some (v.plain x d))).answerEnd n)) ∧
    (verdictOf (v.sett c.lsett) (hardDecode f) = .zero → Answers (.qmiFrameResponse n seq c.tag f) s
      (· = ((v.installLine x 0 false false).answerReads x (some 0)).answerEnd n)) ∧
    (verdictOf (v.sett c.lsett) (hardDecode f) = .beyond → s.bit Reg.RD_CTRL 0 0 = true → c.op ≠ .softRead →
      Answers (.qmiFrameResponse n seq c.tag f) s (· = (v.issue (((v.sett (lineSett x)).phys.map Phys.die).getD 0) { c.nextLine with
        op := .softRead, count := 0, delta := (s.fld Reg.RD_CTRL 0 11 4 : Nat) }).answerEnd n))) ∧
  (∀ (s v : State) (n : Fin 144) (seq : BitVec 8) (c : QmiCmd) (e p m : BitVec 2400) (x : Nat) (d : Line), s.medUp = true →
    (s.qc n).lstate = .active → (s.qc n).offWait = false → State.inOrder (s.qc n) seq 226 = true →
    (s.qc n).sent.find? (fun x => x.tag == c.tag && x.op == .softRead) = some c → c.user = .fill x →
    v = s.taken n c seq → v.cmdLine n c.nextLine = (x, true) → verdictOf (v.sett c.lsett) (softDecode e p m) = .data d →
    Answers (.qmiSoftResponse n seq c.tag e p m) s fun t => ∃ u : State, u = v.recovered x (v.plain x d) true ∧
      u.bit Reg.EYB_CAUSE 0 8 = true ∧ t = u.answerEnd n) ∧
  (∀ (s : State) (n : Fin 144) (seq : BitVec 8) (c : QmiCmd) (e : DieStatus), s.medUp = true → (s.qc n).lstate = .active → (s.qc n).offWait = false →
    State.inOrder (s.qc n) seq 2 = true → (s.qc n).sent.find? (fun x => x.tag == c.tag && true) = some c → c.isSense = true → e ≠ .refUnset →
    e ≠ .dieFault → Answers (.qmiErrorResponse n seq c.tag e) s (· = ((s.taken n c seq).issue (n * 16 + c.die) c.nextLine).answerEnd n)) ∧
  (∀ (s : State) (g : Fin 9) (levels : List (Nat × List Sample)), s.medUp = true → (s.qg g).railsUp = true → (s.qg g).compare = true →
    Answers (.eyebrightPowerupCompare g levels) s fun t => ∃ u : State, u = (s.setQg g { s.qg g with compare := false }).powerupCompare g levels ∧
      (u.qg g).compare = false ∧ (∀ d ∈ s.groupDies g, (u.die d).calDue = true) ∧ u.med.eyb = .idle ∧ t = u.settleMed) ∧
  (∀ s : State, s.psq.mainUp = true → s.bench.domain = .replaying → s.bench.replayed = false → s.bench.replaying = none →
    (∀ d ∈ s.newerDesc.dies, s.dieSettled d = true) → Answers .drainReplay s fun t => ∃ u : State,
      u = (s.setHashKey s.newerDesc.hashKey).replayBegin ∧ u.bench.hashKey = s.newerDesc.hashKey ∧ u.bench.replaying.isSome = true ∧
      t = u.replayKick.settleMed) ∧
  (∀ s : State, s.benchWorks = true → s.xlt.map.write = none → s.xlt.jrnl.running = true → s.xlt.jrnl.recs ≠ [] → s.chunksTodo = [] →
    Answers .checkpointChunkWrite s fun t => ∃ u : State, u = s.freeFrame ∧ u.xlt.jrnl.oldest = s.xlt.jrnl.oldest + 1 ∧
      u.xlt.jrnl.recs = (s.xlt.jrnl.recs.filter fun r => r.place / 8 != s.xlt.jrnl.oldest) ∧ t = u.settleMed) ∧
  (∀ (s : State) (c : Nat) (rest : List Nat), s.benchWorks = true → s.xlt.map.write = none → s.xlt.jrnl.running = true → s.xlt.jrnl.recs ≠ [] →
    s.chunksTodo = c :: rest → Answers .checkpointChunkWrite s fun t => ∃ u : State, u = s.writeCopy c false true ∧
      u.xlt.map.write = some { chunk := c, copy := false, both := true } ∧ u.xlt.jrnl = s.xlt.jrnl ∧ t = u.settleMed) ∧
  (∀ (s : State) (c : Nat), s.psq.mainUp = true → c ∈ s.xlt.prio → s.pairHere c = true → s.chunkIn c = true → s.chunkIn (s.bandChunk c) = true →
    s.chunkHere c = false → s.chunkHere (s.bandChunk c) = false → Answers (.priorityLoadDone c) s (· =
      ((s.setXlt { s.xlt with prio := s.xlt.prio.erase c }).redrive fun r => lineSett r.line / 256 == c).settleMed)) ∧
  (∀ (s : State) (a : Nat) (d : Chunk), s.psq.mainUp = true → s.xlt.bvOpen = true → a < 0x1000000000000 →
    s.dieUp (physOf (a / 64 * 64 / 65536)).die = true → s.xlt.raw = [] → s.xlt.rawHeld = [] → Answers (.benchViewRawWrite a d) s (· =
      s.setXlt { s.xlt with raw := [{
        addr := a / 256 * 256, mask := BitVec.twoPow 4 (a / 64 % 4)
        data := overlay (chunkBytes (BitVec.twoPow 4 (a / 64 % 4))) (d.setWidth 2048 <<< (512 * (a / 64 % 4))) 0 }] })) ∧
  (∀ (s : State) (n : Nat) (b : Scb), s.benchWorks = true → (s.bench.scbs.find? fun b => b.lsett == n) = some b → b.closing = false →
    b.slots = [] → s.move n = none → Answers (.scbIdleClose n) s (· = (s.setScb n (some { b with closing := true })).settleMed)) ∧
  (∀ (s u : State) (p : Bool) (f : TFrame) (e : WEntry) (m : Move), s.Accepts p f → u = s.framed p f → s.twin.pair = .paired →
    (s.rt e.region).target = true → e.ros ≤ (s.rt e.region).ros → e.unalloc = false → u.move (lineSett e.line) = some m →
    m.read.getLsbD (lineIdx e.line) = false → u.bline e.line = none → Answers (.tandemResync p f [e]) s fun t => ∃ v : State,
      v = u.moveProgram m (lineIdx e.line) (if e.zero then 0 else e.data) ∧
      t = (v.tsend (e.region % 2 == 1) (.ack v.dirtyLines v.med.yarrow.cap [.mirrorDone e.region e.ros])).settleTwin) ∧
  (∀ (s : State) (k : Fin 256), s.nextDue = some k.val → (s.slot k).action = 2 → s.psq.pstate = .active ∨ s.psq.pstate = .idle → s.tablesReady = true →
    (∀ g ∈ State.maskGroups (s.slot k).arg, ∀ d ∈ s.calDies g, (s.die d).calDue = false) → Answers (.eyebrightCal k) s fun t =>
      (∀ g ∈ State.maskGroups (s.slot k).arg, ∀ d ∈ s.calDies g, (t.die d).calDue = true) ∧
      ∀ d, (∀ g ∈ State.maskGroups (s.slot k).arg, d ∉ s.calDies g) → t.die d = s.die d) ∧
  (∀ (s : State) (k : Fin 256), s.nextDue = some k.val → (s.slot k).action = 9 → s.psq.pstate = .active ∨ s.psq.pstate = .idle →
    (∀ g ∈ State.maskGroups (s.slot k).arg, ∀ d ∈ s.calDies g, (s.die d).tables = false) → Answers (.sentinelRewrite k) s fun t =>
      (∀ g ∈ State.maskGroups (s.slot k).arg, ∀ d ∈ s.calDies g, (t.die d).ladderDue = true) ∧
      ∀ d, (∀ g ∈ State.maskGroups (s.slot k).arg, d ∉ s.calDies g) → t.die d = s.die d)
end

