-- ==== Sys2Proof/Laws/Keeps.lean ====
section
/-! SUPPORT. Frames compose: nothing changes, one change after another, a wider frame, one part set, and folds. -/

namespace Sys2Proof.Machine

theorem Part.same_refl (s : State) (p : Part) : p.same s s := by cases p <;> rfl

theorem Part.same_trans {s t u : State} {p : Part} (h : p.same s t) (k : p.same t u) : p.same s u := by
  cases p <;> exact Eq.trans k h

theorem Keeps.refl (w : List Part) (s : State) : Keeps w s s := fun p _ => Part.same_refl s p

theorem Keeps.trans {w : List Part} {s t u : State} (h : Keeps w s t) (k : Keeps w t u) : Keeps w s u :=
  fun p hp => Part.same_trans (h p hp) (k p hp)

theorem Keeps.mono {w v : List Part} {s t : State} (h : Keeps w s t) (hv : w ⊆ v) : Keeps v s t :=
  fun p hp => h p fun hw => hp (hv hw)

/-- A change with a narrower frame after one with a wider. -/
theorem Keeps.after {w v : List Part} {s t u : State} (k : Keeps w t u) (hv : w ⊆ v) (h : Keeps v s t) : Keeps v s u :=
  h.trans (k.mono hv)

theorem Keeps.of_fst {α : Type} {w : List Part} {s u : State} {x : α} {p : State × α} (e : p = (u, x)) (h : Keeps w s p.1) :
    Keeps w s u := by subst e; exact h

theorem Keeps.of_snd {α : Type} {w : List Part} {s u : State} {x : α} {p : α × State} (e : p = (x, u)) (h : Keeps w s p.2) :
    Keeps w s u := by subst e; exact h

theorem Keeps.foldl {α : Type} {w : List Part} {s t : State} {f : State → α → State} (l : List α)
    (hf : ∀ u a, Keeps w u (f u a)) (h : Keeps w s t) : Keeps w s (l.foldl f t) := by
  induction l generalizing t with
  | nil => exact h
  | cons a l ih => exact ih (h.trans (hf t a))

theorem Keeps.foldl_fst {α β : Type} {w : List Part} {s : State} {t : State × β} {f : State × β → α → State × β} (l : List α)
    (hf : ∀ u a, Keeps w u.1 (f u a).1) (h : Keeps w s t.1) : Keeps w s (l.foldl f t).1 := by
  induction l generalizing t with
  | nil => exact h
  | cons a l ih => exact ih (h.trans (hf t a))

theorem Keeps.ite {w : List Part} {s a b : State} {c : Prop} [Decidable c] (ha : c → Keeps w s a) (hb : ¬ c → Keeps w s b) :
    Keeps w s (if c then a else b) := by
  by_cases h : c
  · rw [if_pos h]; exact ha h
  · rw [if_neg h]; exact hb h

theorem Keeps.ite_fst {α : Type} {w : List Part} {s : State} {a b : State × α} {c : Prop} [Decidable c]
    (ha : c → Keeps w s a.1) (hb : ¬ c → Keeps w s b.1) : Keeps w s (if c then a else b).1 := by
  by_cases h : c
  · rw [if_pos h]; exact ha h
  · rw [if_neg h]; exact hb h

theorem Keeps.ite_snd {α : Type} {w : List Part} {s : State} {a b : α × State} {c : Prop} [Decidable c]
    (ha : c → Keeps w s a.2) (hb : ¬ c → Keeps w s b.2) : Keeps w s (if c then a else b).2 := by
  by_cases h : c
  · rw [if_pos h]; exact ha h
  · rw [if_neg h]; exact hb h

theorem Keeps.regs {w : List Part} {s t : State} (h : Keeps w s t) (hp : Part.regs ∉ w) : t.regs = s.regs := h .regs hp

theorem Keeps.csr {w : List Part} {s t : State} (h : Keeps w s t) (hp : Part.csr ∉ w) : t.csr = s.csr := h .csr hp

theorem Keeps.evt {w : List Part} {s t : State} (h : Keeps w s t) (hp : Part.evt ∉ w) : t.evt = s.evt := h .evt hp

theorem Keeps.ecc {w : List Part} {s t : State} (h : Keeps w s t) (hp : Part.ecc ∉ w) : t.ecc = s.ecc := h .ecc hp

theorem Keeps.tally {w : List Part} {s t : State} (h : Keeps w s t) (hp : Part.tally ∉ w) : t.tally = s.tally := h .tally hp

theorem Keeps.sched {w : List Part} {s t : State} (h : Keeps w s t) (hp : Part.sched ∉ w) : t.sched = s.sched := h .sched hp

theorem Keeps.nv {w : List Part} {s t : State} (h : Keeps w s t) (hp : Part.nv ∉ w) : t.nv = s.nv := h .nv hp

theorem Keeps.evr {w : List Part} {s t : State} (h : Keeps w s t) (hp : Part.evr ∉ w) : t.evr = s.evr := h .evr hp

theorem Keeps.wdg {w : List Part} {s t : State} (h : Keeps w s t) (hp : Part.wdg ∉ w) : t.wdg = s.wdg := h .wdg hp

theorem Keeps.flash {w : List Part} {s t : State} (h : Keeps w s t) (hp : Part.flash ∉ w) : t.flash = s.flash := h .flash hp

theorem Keeps.psq {w : List Part} {s t : State} (h : Keeps w s t) (hp : Part.psq ∉ w) : t.psq = s.psq := h .psq hp

theorem Keeps.chans {w : List Part} {s t : State} (h : Keeps w s t) (hp : Part.chans ∉ w) : t.chans = s.chans := h .chans hp

theorem Keeps.med {w : List Part} {s t : State} (h : Keeps w s t) (hp : Part.med ∉ w) : t.med = s.med := h .med hp

theorem Keeps.bench {w : List Part} {s t : State} (h : Keeps w s t) (hp : Part.bench ∉ w) : t.bench = s.bench := h .bench hp

theorem Keeps.xlt {w : List Part} {s t : State} (h : Keeps w s t) (hp : Part.xlt ∉ w) : t.xlt = s.xlt := h .xlt hp

theorem Keeps.twin {w : List Part} {s t : State} (h : Keeps w s t) (hp : Part.twin ∉ w) : t.twin = s.twin := h .twin hp

theorem Keeps.cxl {w : List Part} {s t : State} (h : Keeps w s t) (hp : Part.cxl ∉ w) : t.cxl = s.cxl := h .cxl hp

theorem Keeps.rdma {w : List Part} {s t : State} (h : Keeps w s t) (hp : Part.rdma ∉ w) : t.rdma = s.rdma := h .rdma hp

theorem Keeps.sec {w : List Part} {s t : State} (h : Keeps w s t) (hp : Part.sec ∉ w) : t.sec = s.sec := h .sec hp

theorem Keeps.fuse {w : List Part} {s t : State} (h : Keeps w s t) (hp : Part.fuse ∉ w) :
    (t.sec.groups, t.sec.arb) = (s.sec.groups, s.sec.arb) := h .fuse hp

theorem Keeps.dram {w : List Part} {s t : State} (h : Keeps w s t) (hp : Part.dram ∉ w) : t.dram = s.dram := h .dram hp

theorem Keeps.out {w : List Part} {s t : State} (h : Keeps w s t) (hp : Part.out ∉ w) : t.out = s.out := h .out hp

theorem Keeps.fresh {w : List Part} {s t : State} (h : Keeps w s t) (hp : Part.fresh ∉ w) : t.fresh = s.fresh := h .fresh hp

theorem Keeps.pending {w : List Part} {s t : State} (h : Keeps w s t) (hp : Part.pending ∉ w) : t.pending = s.pending := h .pending hp

theorem Keeps.set_regs {w : List Part} {s t : State} {x} (hp : Part.regs ∈ w) (h : Keeps w s t) :
    Keeps w s { t with regs := x } := fun q hq => by
  cases q <;> first | exact h _ hq | exact absurd hp hq

theorem Keeps.set_csr {w : List Part} {s t : State} {x} (hp : Part.csr ∈ w) (h : Keeps w s t) :
    Keeps w s { t with csr := x } := fun q hq => by
  cases q <;> first | exact h _ hq | exact absurd hp hq

theorem Keeps.set_evt {w : List Part} {s t : State} {x} (hp : Part.evt ∈ w) (h : Keeps w s t) :
    Keeps w s { t with evt := x } := fun q hq => by
  cases q <;> first | exact h _ hq | exact absurd hp hq

theorem Keeps.set_ecc {w : List Part} {s t : State} {x} (hp : Part.ecc ∈ w) (h : Keeps w s t) :
    Keeps w s { t with ecc := x } := fun q hq => by
  cases q <;> first | exact h _ hq | exact absurd hp hq

theorem Keeps.set_tally {w : List Part} {s t : State} {x} (hp : Part.tally ∈ w) (h : Keeps w s t) :
    Keeps w s { t with tally := x } := fun q hq => by
  cases q <;> first | exact h _ hq | exact absurd hp hq

theorem Keeps.set_sched {w : List Part} {s t : State} {x} (hp : Part.sched ∈ w) (h : Keeps w s t) :
    Keeps w s { t with sched := x } := fun q hq => by
  cases q <;> first | exact h _ hq | exact absurd hp hq

theorem Keeps.set_nv {w : List Part} {s t : State} {x} (hp : Part.nv ∈ w) (h : Keeps w s t) :
    Keeps w s { t with nv := x } := fun q hq => by
  cases q <;> first | exact h _ hq | exact absurd hp hq

theorem Keeps.set_evr {w : List Part} {s t : State} {x} (hp : Part.evr ∈ w) (h : Keeps w s t) :
    Keeps w s { t with evr := x } := fun q hq => by
  cases q <;> first | exact h _ hq | exact absurd hp hq

theorem Keeps.set_wdg {w : List Part} {s t : State} {x} (hp : Part.wdg ∈ w) (h : Keeps w s t) :
    Keeps w s { t with wdg := x } := fun q hq => by
  cases q <;> first | exact h _ hq | exact absurd hp hq

theorem Keeps.set_flash {w : List Part} {s t : State} {x} (hp : Part.flash ∈ w) (h : Keeps w s t) :
    Keeps w s { t with flash := x } := fun q hq => by
  cases q <;> first | exact h _ hq | exact absurd hp hq

theorem Keeps.set_psq {w : List Part} {s t : State} {x} (hp : Part.psq ∈ w) (h : Keeps w s t) :
    Keeps w s { t with psq := x } := fun q hq => by
  cases q <;> first | exact h _ hq | exact absurd hp hq

theorem Keeps.set_chans {w : List Part} {s t : State} {x} (hp : Part.chans ∈ w) (h : Keeps w s t) :
    Keeps w s { t with chans := x } := fun q hq => by
  cases q <;> first | exact h _ hq | exact absurd hp hq

theorem Keeps.set_med {w : List Part} {s t : State} {x} (hp : Part.med ∈ w) (h : Keeps w s t) :
    Keeps w s { t with med := x } := fun q hq => by
  cases q <;> first | exact h _ hq | exact absurd hp hq

theorem Keeps.set_bench {w : List Part} {s t : State} {x} (hp : Part.bench ∈ w) (h : Keeps w s t) :
    Keeps w s { t with bench := x } := fun q hq => by
  cases q <;> first | exact h _ hq | exact absurd hp hq

theorem Keeps.set_xlt {w : List Part} {s t : State} {x} (hp : Part.xlt ∈ w) (h : Keeps w s t) :
    Keeps w s { t with xlt := x } := fun q hq => by
  cases q <;> first | exact h _ hq | exact absurd hp hq

theorem Keeps.set_twin {w : List Part} {s t : State} {x} (hp : Part.twin ∈ w) (h : Keeps w s t) :
    Keeps w s { t with twin := x } := fun q hq => by
  cases q <;> first | exact h _ hq | exact absurd hp hq

theorem Keeps.set_cxl {w : List Part} {s t : State} {x} (hp : Part.cxl ∈ w) (h : Keeps w s t) :
    Keeps w s { t with cxl := x } := fun q hq => by
  cases q <;> first | exact h _ hq | exact absurd hp hq

theorem Keeps.set_rdma {w : List Part} {s t : State} {x} (hp : Part.rdma ∈ w) (h : Keeps w s t) :
    Keeps w s { t with rdma := x } := fun q hq => by
  cases q <;> first | exact h _ hq | exact absurd hp hq

theorem Keeps.set_sec {w : List Part} {s t : State} {x} (hp : Part.sec ∈ w) (hx : (x.groups, x.arb) = (t.sec.groups, t.sec.arb)) (h : Keeps w s t) :
    Keeps w s { t with sec := x } := fun q hq => by
  cases q <;> first | exact h _ hq | exact absurd hp hq | exact hx.trans (h .fuse hq)

theorem Keeps.set_sec_fuse {w : List Part} {s t : State} {x} (hp : Part.sec ∈ w ∧ Part.fuse ∈ w) (h : Keeps w s t) :
    Keeps w s { t with sec := x } := fun q hq => by
  cases q <;> first | exact h _ hq | exact absurd hp.1 hq | exact absurd hp.2 hq

theorem Keeps.set_dram {w : List Part} {s t : State} {x} (hp : Part.dram ∈ w) (h : Keeps w s t) :
    Keeps w s { t with dram := x } := fun q hq => by
  cases q <;> first | exact h _ hq | exact absurd hp hq

theorem Keeps.set_out {w : List Part} {s t : State} {x} (hp : Part.out ∈ w) (h : Keeps w s t) :
    Keeps w s { t with out := x } := fun q hq => by
  cases q <;> first | exact h _ hq | exact absurd hp hq

theorem Keeps.set_fresh {w : List Part} {s t : State} {x} (hp : Part.fresh ∈ w) (h : Keeps w s t) :
    Keeps w s { t with fresh := x } := fun q hq => by
  cases q <;> first | exact h _ hq | exact absurd hp hq

theorem Keeps.set_pending {w : List Part} {s t : State} {x} (hp : Part.pending ∈ w) (h : Keeps w s t) :
    Keeps w s { t with pending := x } := fun q hq => by
  cases q <;> first | exact h _ hq | exact absurd hp hq

theorem Keeps.ite_st {w : List Part} {s : State} {a b : Answer} {c : Prop} [Decidable c]
    (ha : c → Keeps w s a.state) (hb : ¬ c → Keeps w s b.state) : Keeps w s (if c then a else b).state := by
  by_cases h : c
  · rw [if_pos h]; exact ha h
  · rw [if_neg h]; exact hb h

theorem Keeps.ite_af {w : List Part} {s u : State} {a b : Answer} {c : Prop} [Decidable c]
    (ha : c → Keeps w s (a.after u)) (hb : ¬ c → Keeps w s (b.after u)) : Keeps w s ((if c then a else b).after u) := by
  by_cases h : c
  · rw [if_pos h]; exact ha h
  · rw [if_neg h]; exact hb h

theorem Keeps.of_pending {s t : State} (h : t.pending = s.pending) :
    Keeps [.regs, .csr, .evt, .ecc, .tally, .sched, .nv, .evr, .wdg, .flash, .psq, .chans, .med, .bench, .xlt, .twin, .cxl, .rdma, .sec, .fuse, .dram, .out, .fresh]
      s t := fun q hq => by
  cases q <;> first | exact h | exact absurd (by decide) hq

/-! ### Values carried by a let, an option or an answer -/

/-- Whatever state an option holds differs from `s` in the parts `w` only. -/
def KeepsO (w : List Part) (s : State) (o : Option State) : Prop := ∀ t, o = some t → Keeps w s t

/-- Whatever state an option of pairs holds differs from `s` in the parts `w` only. -/
def KeepsP {α : Type} (w : List Part) (s : State) (o : Option (State × α)) : Prop := ∀ t, o = some t → Keeps w s t.1

/-- Every next state that an answer gives differs from `s` in the parts `w` only. -/
def Ends (w : List Part) (s : State) (r : Res) : Prop := ∀ t, r = .next t → Keeps w s t

theorem Ends.next {w : List Part} {s t : State} (h : Keeps w s t) : Ends w s (.next t) := fun u e => by cases e; exact h

theorem KeepsO.none {w : List Part} {s : State} : KeepsO w s none := fun _ h => by cases h

theorem KeepsO.some {w : List Part} {s t : State} (h : Keeps w s t) : KeepsO w s (some t) := fun _ e => by cases e; exact h

theorem KeepsP.none {α : Type} {w : List Part} {s : State} : KeepsP w s (none : Option (State × α)) := fun _ h => by cases h

theorem KeepsP.some {α : Type} {w : List Part} {s : State} {t : State × α} (h : Keeps w s t.1) : KeepsP w s (some t) := fun _ e => by
  cases e; exact h

theorem Keeps.of_some {w : List Part} {s t : State} {o : Option State} (e : o = .some t) (h : KeepsO w s o) : Keeps w s t := h t e

theorem Keeps.of_some_fst {α : Type} {w : List Part} {s t : State} {x : α} {o : Option (State × α)} (e : o = .some (t, x)) (h : KeepsP w s o) :
    Keeps w s t := h (t, x) e

theorem KeepsO.after {w v : List Part} {s t : State} {o : Option State} (k : KeepsO w t o) (hv : w ⊆ v) (h : Keeps v s t) : KeepsO v s o :=
  fun u e => (k u e).after hv h

theorem KeepsP.after {α : Type} {w v : List Part} {s t : State} {o : Option (State × α)} (k : KeepsP w t o) (hv : w ⊆ v) (h : Keeps v s t) :
    KeepsP v s o := fun u e => (k u e).after hv h

theorem Ends.after {w v : List Part} {s t : State} {r : Res} (k : Ends w t r) (hv : w ⊆ v) (h : Keeps v s t) : Ends v s r :=
  fun u e => (k u e).after hv h

theorem KeepsO.ite {w : List Part} {s : State} {a b : Option State} {c : Prop} [Decidable c] (ha : c → KeepsO w s a)
    (hb : ¬ c → KeepsO w s b) : KeepsO w s (if c then a else b) := by
  by_cases h : c
  · rw [if_pos h]; exact ha h
  · rw [if_neg h]; exact hb h

theorem KeepsP.ite {α : Type} {w : List Part} {s : State} {a b : Option (State × α)} {c : Prop} [Decidable c] (ha : c → KeepsP w s a)
    (hb : ¬ c → KeepsP w s b) : KeepsP w s (if c then a else b) := by
  by_cases h : c
  · rw [if_pos h]; exact ha h
  · rw [if_neg h]; exact hb h

theorem Ends.ite {w : List Part} {s : State} {a b : Res} {c : Prop} [Decidable c] (ha : c → Ends w s a) (hb : ¬ c → Ends w s b) :
    Ends w s (if c then a else b) := by
  by_cases h : c
  · rw [if_pos h]; exact ha h
  · rw [if_neg h]; exact hb h

theorem KeepsO.map {α : Type} {w : List Part} {s : State} {o : Option α} {f : α → State} (h : ∀ a, Keeps w s (f a)) : KeepsO w s (o.map f) := by
  cases o with
  | none => exact KeepsO.none
  | some a => exact KeepsO.some (h a)

theorem KeepsP.map {α β : Type} {w : List Part} {s : State} {o : Option α} {f : α → State × β} (h : ∀ a, Keeps w s (f a).1) : KeepsP w s (o.map f) := by
  cases o with
  | none => exact KeepsP.none
  | some a => exact KeepsP.some (h a)

theorem KeepsO.bind {α : Type} {w : List Part} {s : State} {o : Option α} {f : α → Option State} (h : ∀ a, KeepsO w s (f a)) :
    KeepsO w s (o.bind f) := by
  cases o with
  | none => exact KeepsO.none
  | some a => exact h a

theorem Keeps.elim {α : Type} {w : List Part} {s b : State} {o : Option α} {f : α → State} (h : Keeps w s b) (k : ∀ a, Keeps w s (f a)) :
    Keeps w s (o.elim b f) := by
  cases o with
  | none => exact h
  | some a => exact k a

theorem Keeps.elim_fst {α β : Type} {w : List Part} {s : State} {b : State × β} {o : Option α} {f : α → State × β} (h : Keeps w s b.1)
    (k : ∀ a, Keeps w s (f a).1) : Keeps w s (o.elim b f).1 := by
  cases o with
  | none => exact h
  | some a => exact k a

theorem Ends.elim {α : Type} {w : List Part} {s : State} {b : Res} {o : Option α} {f : α → Res} (h : Ends w s b) (k : ∀ a, Ends w s (f a)) :
    Ends w s (o.elim b f) := by
  cases o with
  | none => exact h
  | some a => exact k a

theorem Keeps.getD {w : List Part} {s u : State} {o : Option State} (h : KeepsO w s o) (hu : Keeps w s u) : Keeps w s (o.getD u) := by
  cases o with
  | none => exact hu
  | some t => exact h t rfl

theorem KeepsO.findSome {α : Type} {w : List Part} {s : State} {l : List α} {f : α → Option State} (h : ∀ a, KeepsO w s (f a)) :
    KeepsO w s (l.findSome? f) := fun t e => by
  obtain ⟨a, _, ha⟩ := List.exists_of_findSome?_eq_some e
  exact h a t ha

theorem Keeps.foldl_snd {α β : Type} {w : List Part} {s : State} {t : β × State} {f : β × State → α → β × State} (l : List α)
    (hf : ∀ u a, Keeps w u.2 (f u a).2) (h : Keeps w s t.2) : Keeps w s (l.foldl f t).2 := by
  induction l generalizing t with
  | nil => exact h
  | cons a l ih => exact ih (h.trans (hf t a))

theorem Keeps.of_let {w : List Part} {s : State} {y : State} (x : State) (h : Keeps w s x)
    (k : Keeps w s x → Keeps w s y) : Keeps w s y := k h

theorem Keeps.of_let_fst {α : Type} {w : List Part} {s : State} {y : State} (x : State × α) (h : Keeps w s x.1)
    (k : Keeps w s x.1 → Keeps w s y) : Keeps w s y := k h

theorem Keeps.of_let_snd {α : Type} {w : List Part} {s : State} {y : State} (x : α × State) (h : Keeps w s x.2)
    (k : Keeps w s x.2 → Keeps w s y) : Keeps w s y := k h

theorem Keeps.of_let_opt {w : List Part} {s : State} {y : State} (x : Option State) (h : KeepsO w s x)
    (k : KeepsO w s x → Keeps w s y) : Keeps w s y := k h

theorem Keeps.of_let_optFst {α : Type} {w : List Part} {s : State} {y : State} (x : Option (State × α)) (h : KeepsP w s x)
    (k : KeepsP w s x → Keeps w s y) : Keeps w s y := k h

theorem Ends.of_let {w : List Part} {s : State} {y : Res} (x : State) (h : Keeps w s x)
    (k : Keeps w s x → Ends w s y) : Ends w s y := k h

theorem Ends.of_let_fst {α : Type} {w : List Part} {s : State} {y : Res} (x : State × α) (h : Keeps w s x.1)
    (k : Keeps w s x.1 → Ends w s y) : Ends w s y := k h

theorem Ends.of_let_snd {α : Type} {w : List Part} {s : State} {y : Res} (x : α × State) (h : Keeps w s x.2)
    (k : Keeps w s x.2 → Ends w s y) : Ends w s y := k h

theorem Ends.of_let_opt {w : List Part} {s : State} {y : Res} (x : Option State) (h : KeepsO w s x)
    (k : KeepsO w s x → Ends w s y) : Ends w s y := k h

theorem Ends.of_let_optFst {α : Type} {w : List Part} {s : State} {y : Res} (x : Option (State × α)) (h : KeepsP w s x)
    (k : KeepsP w s x → Ends w s y) : Ends w s y := k h

theorem KeepsO.of_let {w : List Part} {s : State} {y : Option State} (x : State) (h : Keeps w s x)
    (k : Keeps w s x → KeepsO w s y) : KeepsO w s y := k h

theorem KeepsO.of_let_fst {α : Type} {w : List Part} {s : State} {y : Option State} (x : State × α) (h : Keeps w s x.1)
    (k : Keeps w s x.1 → KeepsO w s y) : KeepsO w s y := k h

theorem KeepsO.of_let_snd {α : Type} {w : List Part} {s : State} {y : Option State} (x : α × State) (h : Keeps w s x.2)
    (k : Keeps w s x.2 → KeepsO w s y) : KeepsO w s y := k h

theorem KeepsO.of_let_opt {w : List Part} {s : State} {y : Option State} (x : Option State) (h : KeepsO w s x)
    (k : KeepsO w s x → KeepsO w s y) : KeepsO w s y := k h

theorem KeepsO.of_let_optFst {α : Type} {w : List Part} {s : State} {y : Option State} (x : Option (State × α)) (h : KeepsP w s x)
    (k : KeepsP w s x → KeepsO w s y) : KeepsO w s y := k h

theorem KeepsP.of_let {w : List Part} {s : State} {γ : Type} {y : Option (State × γ)} (x : State) (h : Keeps w s x)
    (k : Keeps w s x → KeepsP w s y) : KeepsP w s y := k h

theorem KeepsP.of_let_fst {α : Type} {w : List Part} {s : State} {γ : Type} {y : Option (State × γ)} (x : State × α) (h : Keeps w s x.1)
    (k : Keeps w s x.1 → KeepsP w s y) : KeepsP w s y := k h

theorem KeepsP.of_let_snd {α : Type} {w : List Part} {s : State} {γ : Type} {y : Option (State × γ)} (x : α × State) (h : Keeps w s x.2)
    (k : Keeps w s x.2 → KeepsP w s y) : KeepsP w s y := k h

theorem KeepsP.of_let_opt {w : List Part} {s : State} {γ : Type} {y : Option (State × γ)} (x : Option State) (h : KeepsO w s x)
    (k : KeepsO w s x → KeepsP w s y) : KeepsP w s y := k h

theorem KeepsP.of_let_optFst {α : Type} {w : List Part} {s : State} {γ : Type} {y : Option (State × γ)} (x : Option (State × α)) (h : KeepsP w s x)
    (k : KeepsP w s x → KeepsP w s y) : KeepsP w s y := k h

end Sys2Proof.Machine
end

