-- ==== Sys2Proof/Laws/Frame1.lean ====
section
/-! SUPPORT. What each operation and command of Ops, TallyOps, FlashOps, PowerOps, ChannelOps, EybOps, ChanOps can change: every other part of the state stays. -/

namespace Sys2Proof.Machine

/-! ### Ops -/

theorem State.setReg_keeps (s : State) (r : Reg) (k : Nat) (w : Word) :
    Keeps [.regs] s (State.setReg s r k w) := by
  unfold State.setReg
  refine Keeps.set_regs (by decide) ?_
  exact Keeps.refl _ _

theorem State.setFld_keeps (s : State) (r : Reg) (k : Nat) (hi : Nat) (lo : Nat) (v : Nat) :
    Keeps [.regs] s (State.setFld s r k hi lo v) := by
  unfold State.setFld
  refine Keeps.after (State.setReg_keeps _ _ _ _) (by decide) ?_
  exact Keeps.refl _ _

theorem State.setBit_keeps (s : State) (r : Reg) (k : Nat) (b : Nat) (v : Bool) :
    Keeps [.regs] s (State.setBit s r k b v) := by
  unfold State.setBit
  refine Keeps.after (State.setFld_keeps _ _ _ _ _ _) (by decide) ?_
  exact Keeps.refl _ _

theorem State.bump_keeps (s : State) (r : Reg) (k : Nat) (hi : Nat) (lo : Nat) (n : Nat) :
    Keeps [.regs] s (State.bump s r k hi lo n) := by
  unfold State.bump
  refine Keeps.after (State.setFld_keeps _ _ _ _ _ _) (by decide) ?_
  exact Keeps.refl _ _

theorem State.setReg64_keeps (s : State) (lo : Reg) (hi : Reg) (k : Nat) (v : Dword) :
    Keeps [.regs] s (State.setReg64 s lo hi k v) := by
  unfold State.setReg64
  refine Keeps.after (State.setReg_keeps _ _ _ _) (by decide) ?_
  refine Keeps.after (State.setReg_keeps _ _ _ _) (by decide) ?_
  exact Keeps.refl _ _

theorem State.emit_keeps (s : State) (o : Out) :
    Keeps [.out] s (State.emit s o) := by
  unfold State.emit
  refine Keeps.set_out (by decide) ?_
  exact Keeps.refl _ _

theorem State.draw_keeps (s : State) :
    Keeps [.fresh] s (State.draw s) := by
  unfold State.draw
  refine Keeps.set_fresh (by decide) ?_
  exact Keeps.refl _ _

theorem State.setChan_keeps (s : State) (c : Nat) (v : Chan) :
    Keeps [.chans] s (State.setChan s c v) := by
  unfold State.setChan
  refine Keeps.set_chans (by decide) ?_
  exact Keeps.refl _ _

theorem State.lower_keeps (s : State) (n : Nat) :
    Keeps [.evt] s (State.lower s n) := by
  unfold State.lower
  refine Keeps.set_evt (by decide) ?_
  exact Keeps.refl _ _

theorem admitEntry_keeps (s : State) (e : Entry) :
    Keeps [.regs, .evr] s (admitEntry s e).1 := by
  unfold admitEntry
  extract_lets -merge +onlyGivenNames x1
  extract_lets -merge +onlyGivenNames x2
  extract_lets -merge +onlyGivenNames x3
  extract_lets -merge +onlyGivenNames x4
  extract_lets -merge +onlyGivenNames x5
  refine Keeps.of_let x5 ?_ (fun h5 => ?_)
  · unfold x5
    refine Keeps.set_evr (by decide) ?_
    exact Keeps.refl _ _
  · refine Keeps.ite_fst (fun _ => ?_) (fun _ => ?_)
    · dsimp only
      refine Keeps.after (State.setBit_keeps _ _ _ _ _) (by decide) ?_
      refine Keeps.after (State.bump_keeps _ _ _ _ _ _) (by decide) ?_
      exact h5
    · dsimp only
      exact h5

theorem offerEntry_keeps (s : State) (always : Bool) (code : Nat) (src : Nat) (principal : Nat) (detail : Word) (agen : BitVec 16) :
    Keeps [.regs, .evt, .evr] s (offerEntry s always code src principal detail agen).1 := by
  unfold offerEntry
  extract_lets -merge +onlyGivenNames x1
  extract_lets -merge +onlyGivenNames x2
  extract_lets -merge +onlyGivenNames x3
  extract_lets -merge +onlyGivenNames x4
  refine Keeps.ite_fst (fun _ => ?_) (fun _ => ?_)
  · refine Keeps.after (admitEntry_keeps _ _) (by decide) ?_
    unfold x3
    refine Keeps.set_evr (by decide) ?_
    exact Keeps.refl _ _
  · refine Keeps.ite_fst (fun _ => ?_) (fun _ => ?_)
    · extract_lets -merge +onlyGivenNames x5
      refine Keeps.of_let x5 ?_ (fun h5 => ?_)
      · unfold x5
        unfold x3
        refine Keeps.set_evr (by decide) ?_
        exact Keeps.refl _ _
      · extract_lets -merge +onlyGivenNames x6
        refine Keeps.after (admitEntry_keeps _ _) (by decide) ?_
        refine Keeps.ite (fun _ => ?_) (fun _ => ?_)
        · refine Keeps.after (State.lower_keeps _ _) (by decide) ?_
          refine Keeps.after (State.setBit_keeps _ _ _ _ _) (by decide) ?_
          exact h5
        · exact h5
    · extract_lets -merge +onlyGivenNames x5
      refine Keeps.of_let x5 ?_ (fun h5 => ?_)
      · unfold x5
        refine Keeps.after (State.bump_keeps _ _ _ _ _ _) (by decide) ?_
        unfold x3
        refine Keeps.set_evr (by decide) ?_
        exact Keeps.refl _ _
      · dsimp only
        refine Keeps.after (State.setBit_keeps _ _ _ _ _) (by decide) ?_
        exact h5

theorem State.msixSend_keeps (s : State) (p : Fin 4) (l : Fin 16) (v : BitVec 8) :
    Keeps [.cxl, .out] s (State.msixSend s p l v) := by
  unfold State.msixSend
  extract_lets -merge +onlyGivenNames x1
  extract_lets -merge +onlyGivenNames x2
  refine Keeps.ite (fun _ => ?_) (fun _ => ?_)
  · refine Keeps.set_cxl (by decide) ?_
    exact Keeps.refl _ _
  · refine Keeps.after (State.emit_keeps _ _) (by decide) ?_
    exact Keeps.refl _ _

theorem replyInterrupt_keeps (c : Nat) (ch : Chan) (s : State) :
    Keeps [.cxl, .out] s (replyInterrupt c ch s) := by
  unfold replyInterrupt
  refine Keeps.ite (fun _ => ?_) (fun _ => ?_)
  · split
    · refine Keeps.after (State.msixSend_keeps _ _ _ _) (by decide) ?_
      exact Keeps.refl _ _
    · refine Keeps.ite (fun _ => ?_) (fun _ => ?_)
      · refine Keeps.after (State.emit_keeps _ _) (by decide) ?_
        exact Keeps.refl _ _
      · exact Keeps.refl _ _
  · exact Keeps.refl _ _

theorem notifyChan_keeps (s : State) (c : Nat) (src : Nat) :
    Keeps [.regs, .chans, .cxl, .out] s (notifyChan s c src).1 := by
  unfold notifyChan
  extract_lets -merge +onlyGivenNames x1
  extract_lets -merge +onlyGivenNames x2
  refine Keeps.ite_fst (fun _ => ?_) (fun _ => ?_)
  · dsimp only
    refine Keeps.after (replyInterrupt_keeps _ _ _) (by decide) ?_
    refine Keeps.after (State.setChan_keeps _ _ _) (by decide) ?_
    exact Keeps.refl _ _
  · dsimp only
    refine Keeps.after (State.setBit_keeps _ _ _ _ _) (by decide) ?_
    refine Keeps.after (State.setChan_keeps _ _ _) (by decide) ?_
    exact Keeps.refl _ _

theorem riseSource_keeps (s : State) (n : Nat) :
    Keeps [.evt, .cxl, .out] s (riseSource s n).1 := by
  unfold riseSource
  extract_lets -merge +onlyGivenNames x1
  refine Keeps.ite_fst (fun _ => ?_) (fun _ => ?_)
  · dsimp only
    exact Keeps.refl _ _
  · extract_lets -merge +onlyGivenNames x2
    extract_lets -merge +onlyGivenNames x3
    extract_lets -merge +onlyGivenNames x4
    extract_lets -merge +onlyGivenNames x5
    extract_lets -merge +onlyGivenNames x6
    refine Keeps.of_let x6 ?_ (fun h6 => ?_)
    · unfold x6
      refine Keeps.set_evt (by decide) ?_
      exact Keeps.refl _ _
    · refine Keeps.ite_fst (fun _ => ?_) (fun _ => ?_)
      · dsimp only
        exact h6
      · extract_lets -merge +onlyGivenNames x7
        extract_lets -merge +onlyGivenNames x8
        refine Keeps.ite_fst (fun _ => ?_) (fun _ => ?_)
        · extract_lets -merge +onlyGivenNames x9
          refine Keeps.ite_fst (fun _ => ?_) (fun _ => ?_)
          · extract_lets -merge +onlyGivenNames x10
            refine Keeps.of_let x10 ?_ (fun h10 => ?_)
            · unfold x10
              refine Keeps.ite (fun _ => ?_) (fun _ => ?_)
              · refine Keeps.after (State.msixSend_keeps _ _ _ _) (by decide) ?_
                exact h6
              · exact h6
            · dsimp only
              exact h10
          · dsimp only
            exact h6
        · refine Keeps.ite_fst (fun _ => ?_) (fun _ => ?_)
          · dsimp only
            exact h6
          · dsimp only
            exact h6

theorem evtStep_keeps (s : State) (w : EvtWork) : Keeps [.regs, .evt, .evr, .chans, .cxl, .out] s (evtStep s w).1 := by
  cases w with
  | rise n => exact (riseSource_keeps s n).mono (by decide)
  | notify c n => exact (notifyChan_keeps s c n).mono (by decide)
  | offer al code src prin det agen => exact (offerEntry_keeps s al code src prin det agen).mono (by decide)

theorem evtRun_keeps (f : Nat) (ws : List EvtWork) (s : State) :
    Keeps [.regs, .evt, .evr, .chans, .cxl, .out] s (evtRun f ws s) := by
  induction f generalizing ws s with
  | zero => exact Keeps.refl _ _
  | succ f ih =>
    cases ws with
    | nil => exact Keeps.refl _ _
    | cons w ws => exact (evtStep_keeps s w).trans (ih _ _)

theorem State.raise_keeps (s : State) (n : Nat) :
    Keeps [.regs, .evt, .evr, .chans, .cxl, .out] s (State.raise s n) := by
  unfold State.raise
  refine Keeps.after (evtRun_keeps _ _ _) (by decide) ?_
  exact Keeps.refl _ _

theorem State.pulse_keeps (s : State) (n : Nat) :
    Keeps [.regs, .evt, .evr, .chans, .cxl, .out] s (State.pulse s n) := by
  unfold State.pulse
  refine Keeps.after (State.lower_keeps _ _) (by decide) ?_
  refine Keeps.after (State.raise_keeps _ _) (by decide) ?_
  exact Keeps.refl _ _

theorem State.record_keeps (s : State) (code : Nat) (src : Nat) (detail : Word) (principal : Nat) (agen : BitVec 16) :
    Keeps [.regs, .evt, .evr, .chans, .cxl, .out] s (State.record s code src detail principal agen) := by
  unfold State.record
  refine Keeps.after (evtRun_keeps _ _ _) (by decide) ?_
  exact Keeps.refl _ _

theorem State.deviceRecord_keeps (s : State) (src : Nat) (detail : Word) :
    Keeps [.regs, .evt, .evr, .chans, .cxl, .out] s (State.deviceRecord s src detail) := by
  unfold State.deviceRecord
  refine Keeps.after (State.record_keeps _ _ _ _ _ _) (by decide) ?_
  exact Keeps.refl _ _

theorem State.cause_keeps (s : State) (r : Reg) (k : Nat) (b : Nat) (src : Nat) :
    Keeps [.regs, .evt, .evr, .chans, .cxl, .out] s (State.cause s r k b src) := by
  unfold State.cause
  refine Keeps.after (State.raise_keeps _ _) (by decide) ?_
  refine Keeps.after (State.setBit_keeps _ _ _ _ _) (by decide) ?_
  exact Keeps.refl _ _

theorem State.lockViolation_keeps (s : State) (req : Requester) (off : Nat) :
    Keeps [.regs, .csr, .evt, .evr, .chans, .cxl, .out] s (State.lockViolation s req off) := by
  unfold State.lockViolation
  extract_lets -merge +onlyGivenNames x1
  refine Keeps.after (State.pulse_keeps _ _) (by decide) ?_
  refine Keeps.set_csr (by decide) ?_
  exact Keeps.refl _ _

theorem State.level_keeps (s : State) (r : Reg) (k : Nat) (b : Nat) (src : Nat) (mask : Nat) (v : Bool) :
    Keeps [.regs, .evt, .evr, .chans, .cxl, .out] s (State.level s r k b src mask v) := by
  unfold State.level
  extract_lets -merge +onlyGivenNames x1
  refine Keeps.of_let x1 ?_ (fun h1 => ?_)
  · unfold x1
    refine Keeps.after (State.setBit_keeps _ _ _ _ _) (by decide) ?_
    exact Keeps.refl _ _
  · refine Keeps.ite (fun _ => ?_) (fun _ => ?_)
    · refine Keeps.after (State.raise_keeps _ _) (by decide) ?_
      exact h1
    · refine Keeps.ite (fun _ => ?_) (fun _ => ?_)
      · refine Keeps.after (State.lower_keeps _ _) (by decide) ?_
        exact h1
      · exact h1

theorem State.wstampAdvance_keeps (s : State) :
    Keeps [.nv] s (State.wstampAdvance s) := by
  unfold State.wstampAdvance
  extract_lets -merge +onlyGivenNames x1
  extract_lets -merge +onlyGivenNames x2
  refine Keeps.set_nv (by decide) ?_
  exact Keeps.refl _ _

theorem State.nvWrite_keeps (s : State) (key : Nat) (payload : List Nat) :
    Keeps [.nv] s (State.nvWrite s key payload) := by
  unfold State.nvWrite
  extract_lets -merge +onlyGivenNames x1
  refine Keeps.of_let x1 ?_ (fun h1 => ?_)
  · unfold x1
    refine Keeps.ite (fun _ => ?_) (fun _ => ?_)
    · refine Keeps.after (State.wstampAdvance_keeps _) (by decide) ?_
      exact Keeps.refl _ _
    · exact Keeps.refl _ _
  · extract_lets -merge +onlyGivenNames x2
    extract_lets -merge +onlyGivenNames x3
    refine Keeps.of_let x3 ?_ (fun h3 => ?_)
    · unfold x3
      refine Keeps.set_nv (by decide) ?_
      exact h1
    · extract_lets -merge +onlyGivenNames x4
      split
      extract_lets -merge +onlyGivenNames x5
      extract_lets -merge +onlyGivenNames x6
      refine Keeps.set_nv (by decide) ?_
      exact h3

theorem State.nvRead_keeps (s : State) (key : Nat) :
    Keeps [.regs, .evt, .evr, .chans, .cxl, .out] s (State.nvRead s key).2 := by
  unfold State.nvRead
  extract_lets -merge +onlyGivenNames x1
  split
  · dsimp only
    refine Keeps.ite (fun _ => ?_) (fun _ => ?_)
    · refine Keeps.after (State.cause_keeps _ _ _ _ _) (by decide) ?_
      exact Keeps.refl _ _
    · exact Keeps.refl _ _
  · dsimp only
    refine Keeps.ite (fun _ => ?_) (fun _ => ?_)
    · exact Keeps.refl _ _
    · refine Keeps.after (State.cause_keeps _ _ _ _ _) (by decide) ?_
      exact Keeps.refl _ _

/-! ### TallyOps -/

theorem State.setTally_keeps (s : State) (t : Tally) :
    Keeps [.tally] s (State.setTally s t) := by
  unfold State.setTally
  refine Keeps.set_tally (by decide) ?_
  exact Keeps.refl _ _

theorem State.setSlot_keeps (s : State) (k : Nat) (v : Slot) :
    Keeps [.sched] s (State.setSlot s k v) := by
  unfold State.setSlot
  refine Keeps.set_sched (by decide) ?_
  exact Keeps.refl _ _

theorem State.saveSlot_keeps (s : State) (k : Nat) :
    Keeps [.sched, .nv] s (State.saveSlot s k) := by
  unfold State.saveSlot
  extract_lets -merge +onlyGivenNames x1
  extract_lets -merge +onlyGivenNames x2
  extract_lets -merge +onlyGivenNames x3
  refine Keeps.of_let x3 ?_ (fun h3 => ?_)
  · unfold x3
    refine Keeps.set_sched (by decide) ?_
    exact Keeps.refl _ _
  · refine Keeps.after (State.nvWrite_keeps _ _ _) (by decide) ?_
    exact h3

theorem State.writeFloor_keeps (s : State) (orderly : Bool) :
    Keeps [.tally, .nv] s (State.writeFloor s orderly) := by
  unfold State.writeFloor
  extract_lets -merge +onlyGivenNames x1
  refine Keeps.after (State.nvWrite_keeps _ _ _) (by decide) ?_
  refine Keeps.after (State.setTally_keeps _ _) (by decide) ?_
  exact Keeps.refl _ _

theorem State.selectSource_keeps (s : State) :
    Keeps [.regs, .evt, .tally, .evr, .chans, .cxl, .out] s (State.selectSource s) := by
  unfold State.selectSource
  extract_lets -merge +onlyGivenNames x1
  refine Keeps.ite (fun _ => ?_) (fun _ => ?_)
  · exact Keeps.refl _ _
  · extract_lets -merge +onlyGivenNames x2
    extract_lets -merge +onlyGivenNames x3
    extract_lets -merge +onlyGivenNames x4
    extract_lets -merge +onlyGivenNames x5
    refine Keeps.of_let x5 ?_ (fun h5 => ?_)
    · unfold x5
      refine Keeps.after (State.pulse_keeps _ _) (by decide) ?_
      refine Keeps.after (State.setTally_keeps _ _) (by decide) ?_
      exact Keeps.refl _ _
    · refine Keeps.ite (fun _ => ?_) (fun _ => ?_)
      · refine Keeps.after (State.pulse_keeps _ _) (by decide) ?_
        exact h5
      · exact h5

theorem State.unmarkSlots_keeps (s : State) :
    Keeps [.sched] s (State.unmarkSlots s) := by
  unfold State.unmarkSlots
  extract_lets -merge +onlyGivenNames x1
  refine Keeps.set_sched (by decide) ?_
  exact Keeps.refl _ _

theorem State.applied_keeps (s : State) :
    Keeps [.tally, .sched] s (State.applied s) := by
  unfold State.applied
  extract_lets -merge +onlyGivenNames x1
  extract_lets -merge +onlyGivenNames x2
  extract_lets -merge +onlyGivenNames x3
  refine Keeps.of_let x3 ?_ (fun h3 => ?_)
  · unfold x3
    refine Keeps.after (State.setTally_keeps _ _) (by decide) ?_
    exact Keeps.refl _ _
  · refine Keeps.ite (fun _ => ?_) (fun _ => ?_)
    · refine Keeps.after (State.unmarkSlots_keeps _) (by decide) ?_
      exact h3
    · exact h3

theorem State.belowFloor_keeps (s : State) (x : TimeSource) :
    Keeps [.regs, .evt, .tally, .evr, .chans, .cxl, .out] s (State.belowFloor s x) := by
  unfold State.belowFloor
  extract_lets -merge +onlyGivenNames x1
  extract_lets -merge +onlyGivenNames x2
  refine Keeps.after (State.selectSource_keeps _) (by decide) ?_
  refine Keeps.after (State.pulse_keeps _ _) (by decide) ?_
  refine Keeps.after (State.setTally_keeps _ _) (by decide) ?_
  exact Keeps.refl _ _

theorem State.moveNow_keeps (s : State) (x : TimeSource) (peer : Trust) (v : Dword) :
    Keeps [.tally, .sched] s (State.moveNow s x peer v) := by
  unfold State.moveNow
  extract_lets -merge +onlyGivenNames x1
  extract_lets -merge +onlyGivenNames x2
  extract_lets -merge +onlyGivenNames x3
  refine Keeps.after (State.applied_keeps _) (by decide) ?_
  refine Keeps.after (State.setTally_keeps _ _) (by decide) ?_
  exact Keeps.refl _ _

theorem State.holdJump_keeps (s : State) (v : Dword) :
    Keeps [.regs, .evt, .tally, .evr, .chans, .cxl, .out] s (State.holdJump s v) := by
  unfold State.holdJump
  extract_lets -merge +onlyGivenNames x1
  extract_lets -merge +onlyGivenNames x2
  extract_lets -merge +onlyGivenNames x3
  refine Keeps.of_let x3 ?_ (fun h3 => ?_)
  · unfold x3
    refine Keeps.after (State.setTally_keeps _ _) (by decide) ?_
    exact Keeps.refl _ _
  · refine Keeps.ite (fun _ => ?_) (fun _ => ?_)
    · exact h3
    · refine Keeps.after (State.pulse_keeps _ _) (by decide) ?_
      exact h3

theorem State.offerTime_keeps (s : State) (x : TimeSource) (peer : Trust) (v : Dword) :
    Keeps [.regs, .evt, .tally, .sched, .evr, .chans, .cxl, .out] s (State.offerTime s x peer v) := by
  unfold State.offerTime
  extract_lets -merge +onlyGivenNames x1
  refine Keeps.ite (fun _ => ?_) (fun _ => ?_)
  · refine Keeps.after (State.belowFloor_keeps _ _) (by decide) ?_
    exact Keeps.refl _ _
  · refine Keeps.ite (fun _ => ?_) (fun _ => ?_)
    · refine Keeps.ite (fun _ => ?_) (fun _ => ?_)
      · refine Keeps.after (State.moveNow_keeps _ _ _ _) (by decide) ?_
        exact Keeps.refl _ _
      · refine Keeps.after (State.holdJump_keeps _ _) (by decide) ?_
        exact Keeps.refl _ _
    · refine Keeps.ite (fun _ => ?_) (fun _ => ?_)
      · extract_lets -merge +onlyGivenNames x2
        refine Keeps.of_let x2 ?_ (fun h2 => ?_)
        · unfold x2
          refine Keeps.after (State.setTally_keeps _ _) (by decide) ?_
          exact Keeps.refl _ _
        · extract_lets -merge +onlyGivenNames x3
          refine Keeps.of_let x3 ?_ (fun h3 => ?_)
          · unfold x3
            refine Keeps.after (State.moveNow_keeps _ _ _ _) (by decide) ?_
            exact h2
          · refine Keeps.after (State.setTally_keeps _ _) (by decide) ?_
            exact h3
      · refine Keeps.after (State.moveNow_keeps _ _ _ _) (by decide) ?_
        exact Keeps.refl _ _

theorem State.clockTick_keeps (s : State) :
    Keeps [.tally] s (State.clockTick s) := by
  unfold State.clockTick
  refine Keeps.ite (fun _ => ?_) (fun _ => ?_)
  · exact Keeps.refl _ _
  · extract_lets -merge +onlyGivenNames x1
    extract_lets -merge +onlyGivenNames x2
    extract_lets -merge +onlyGivenNames x3
    extract_lets -merge +onlyGivenNames x4
    extract_lets -merge +onlyGivenNames x5
    extract_lets -merge +onlyGivenNames x6
    refine Keeps.after (State.setTally_keeps _ _) (by decide) ?_
    exact Keeps.refl _ _

theorem State.slotRecord_keeps (s : State) (k : Nat) (r : FireResult) :
    Keeps [.sched, .nv] s (State.slotRecord s k r) := by
  unfold State.slotRecord
  refine Keeps.after (State.saveSlot_keeps _ _) (by decide) ?_
  refine Keeps.after (State.setSlot_keeps _ _ _) (by decide) ?_
  exact Keeps.refl _ _

theorem State.fireSlot_keeps {w : List Part} {s : State} {k : Nat} {a : BitVec 4} {act : Column → Slot → State → FireResult × State}
    (hw : [Part.regs, .evt, .sched, .nv, .evr, .chans, .cxl, .out] ⊆ w) (ha : ∀ c v u, Keeps w u (act c v u).2) :
    Keeps w s (s.fireSlot k a act) := by
  unfold State.fireSlot
  dsimp only
  split
  · exact Keeps.refl _ _
  · rename_i c _
    have h := ha c (s.slot k) s
    refine Keeps.ite (fun _ => ?_) (fun _ => ?_)
    · refine Keeps.after (State.pulse_keeps _ _) (List.Subset.trans (by decide) hw) ?_
      refine Keeps.after (State.saveSlot_keeps _ _) (List.Subset.trans (by decide) hw) ?_
      refine Keeps.after (State.setSlot_keeps _ _ _) (List.Subset.trans (by decide) hw) ?_
      exact Keeps.set_sched (hw (by decide)) h
    · refine Keeps.after (State.saveSlot_keeps _ _) (List.Subset.trans (by decide) hw) ?_
      refine Keeps.after (State.setSlot_keeps _ _ _) (List.Subset.trans (by decide) hw) ?_
      exact Keeps.set_sched (hw (by decide)) h

theorem State.fireNone_keeps (s : State) (k : Nat) :
    Keeps [.sched, .nv] s (State.fireNone s k) := by
  unfold State.fireNone
  refine Keeps.foldl _ (fun _ _ => ?_) ?_
  · extract_lets -merge +onlyGivenNames x1
    extract_lets -merge +onlyGivenNames x2
    extract_lets -merge +onlyGivenNames x3
    refine Keeps.of_let x3 ?_ (fun h3 => ?_)
    · unfold x3
      refine Keeps.set_sched (by decide) ?_
      exact Keeps.refl _ _
    · refine Keeps.after (State.saveSlot_keeps _ _) (by decide) ?_
      refine Keeps.after (State.setSlot_keeps _ _ _) (by decide) ?_
      exact h3
  · exact Keeps.refl _ _

theorem State.writeSlot_keeps (s : State) (k : Nat) (word : Fin 6) (kind : AccessKind) (data : Word) :
    Keeps [.sched, .nv] s (State.writeSlot s k word kind data) := by
  unfold State.writeSlot
  extract_lets -merge +onlyGivenNames x1
  extract_lets -merge +onlyGivenNames x2
  extract_lets -merge +onlyGivenNames x3
  extract_lets -merge +onlyGivenNames x4
  extract_lets -merge +onlyGivenNames x5
  extract_lets -merge +onlyGivenNames x6
  extract_lets -merge +onlyGivenNames x7
  extract_lets -merge +onlyGivenNames x8
  extract_lets -merge +onlyGivenNames x9
  refine Keeps.of_let x9 ?_ (fun h9 => ?_)
  · unfold x9
    refine Keeps.after (State.setSlot_keeps _ _ _) (by decide) ?_
    exact Keeps.refl _ _
  · refine Keeps.ite (fun _ => ?_) (fun _ => ?_)
    · refine Keeps.after (State.saveSlot_keeps _ _) (by decide) ?_
      exact h9
    · exact h9

theorem State.writeSlotTime_keeps (s : State) (k : Nat) (t : Dword) :
    Keeps [.sched] s (State.writeSlotTime s k t) := by
  unfold State.writeSlotTime
  extract_lets -merge +onlyGivenNames x1
  refine Keeps.ite (fun _ => ?_) (fun _ => ?_)
  · exact Keeps.refl _ _
  · refine Keeps.after (State.setSlot_keeps _ _ _) (by decide) ?_
    exact Keeps.refl _ _

theorem State.fillSlot_keeps (s : State) (k : Nat) (a : BitVec 4) (arg : Word) (period : Word) (offset : Nat) (arm : Bool) :
    Keeps [.sched, .nv] s (State.fillSlot s k a arg period offset arm) := by
  unfold State.fillSlot
  extract_lets -merge +onlyGivenNames x1
  refine Keeps.ite (fun _ => ?_) (fun _ => ?_)
  · exact Keeps.refl _ _
  · extract_lets -merge +onlyGivenNames x2
    extract_lets -merge +onlyGivenNames x3
    refine Keeps.of_let x3 ?_ (fun h3 => ?_)
    · unfold x3
      refine Keeps.after (State.setSlot_keeps _ _ _) (by decide) ?_
      exact Keeps.refl _ _
    · refine Keeps.ite (fun _ => ?_) (fun _ => ?_)
      · refine Keeps.after (State.saveSlot_keeps _ _) (by decide) ?_
        exact h3
      · exact h3

theorem State.armSlot_keeps (s : State) (k : Nat) (a : BitVec 4) :
    Keeps [.sched, .nv] s (State.armSlot s k a) := by
  unfold State.armSlot
  extract_lets -merge +onlyGivenNames x1
  refine Keeps.ite (fun _ => ?_) (fun _ => ?_)
  · exact Keeps.refl _ _
  · refine Keeps.after (State.saveSlot_keeps _ _) (by decide) ?_
    refine Keeps.after (State.setSlot_keeps _ _ _) (by decide) ?_
    exact Keeps.refl _ _

theorem State.fillPass_keeps (s : State) (g : Nat) (inService : Bool) :
    Keeps [.sched, .nv] s (State.fillPass s g inService) := by
  unfold State.fillPass
  refine Keeps.after (State.fillSlot_keeps _ _ _ _ _ _ _) (by decide) ?_
  exact Keeps.refl _ _

theorem State.fillCal_keeps (s : State) (g : Nat) (inService : Bool) :
    Keeps [.sched, .nv] s (State.fillCal s g inService) := by
  unfold State.fillCal
  refine Keeps.after (State.fillSlot_keeps _ _ _ _ _ _ _) (by decide) ?_
  exact Keeps.refl _ _

theorem State.fillGroupSlots_keeps (s : State) (g : Nat) (inService : Bool) :
    Keeps [.sched, .nv] s (State.fillGroupSlots s g inService) := by
  unfold State.fillGroupSlots
  refine Keeps.after (State.fillSlot_keeps _ _ _ _ _ _ _) (by decide) ?_
  refine Keeps.after (State.fillCal_keeps _ _ _) (by decide) ?_
  refine Keeps.after (State.fillPass_keeps _ _ _) (by decide) ?_
  exact Keeps.refl _ _

theorem State.armGroupSlots_keeps (s : State) (g : Nat) :
    Keeps [.sched, .nv] s (State.armGroupSlots s g) := by
  unfold State.armGroupSlots
  refine Keeps.after (State.armSlot_keeps _ _ _) (by decide) ?_
  refine Keeps.after (State.armSlot_keeps _ _ _) (by decide) ?_
  refine Keeps.after (State.armSlot_keeps _ _ _) (by decide) ?_
  exact Keeps.refl _ _

theorem State.clearSlot_keeps (s : State) (k : Nat) :
    Keeps [.sched] s (State.clearSlot s k) := by
  unfold State.clearSlot
  refine Keeps.after (State.setSlot_keeps _ _ _) (by decide) ?_
  exact Keeps.refl _ _

theorem State.fillSlots_keeps (s : State) (up : Nat → Bool) :
    Keeps [.sched, .nv] s (State.fillSlots s up) := by
  unfold State.fillSlots
  refine Keeps.foldl _ (fun _ _ => ?_) ?_
  · refine Keeps.after (State.clearSlot_keeps _ _) (by decide) ?_
    exact Keeps.refl _ _
  · refine Keeps.after (State.fillSlot_keeps _ _ _ _ _ _ _) (by decide) ?_
    refine Keeps.foldl _ (fun _ _ => ?_) ?_
    · refine Keeps.after (State.fillGroupSlots_keeps _ _ _) (by decide) ?_
      exact Keeps.refl _ _
    · exact Keeps.refl _ _

/-! ### FlashOps -/

theorem State.setFlash_keeps (s : State) (f : Flash) :
    Keeps [.flash] s (State.setFlash s f) := by
  unfold State.setFlash
  refine Keeps.set_flash (by decide) ?_
  exact Keeps.refl _ _

theorem State.setWdg_keeps (s : State) (w : Wdg) :
    Keeps [.wdg] s (State.setWdg s w) := by
  unfold State.setWdg
  refine Keeps.set_wdg (by decide) ?_
  exact Keeps.refl _ _

theorem State.setEvr_keeps (s : State) (e : Evr) :
    Keeps [.evr] s (State.setEvr s e) := by
  unfold State.setEvr
  refine Keeps.set_evr (by decide) ?_
  exact Keeps.refl _ _

theorem State.judgeWait_keeps (s : State) :
    Keeps [.regs, .evt, .evr, .chans, .cxl, .out] s (State.judgeWait s) := by
  unfold State.judgeWait
  refine Keeps.after (State.level_keeps _ _ _ _ _ _ _) (by decide) ?_
  exact Keeps.refl _ _

theorem State.flashNext_keeps (s : State) :
    Keeps [.flash] s (State.flashNext s) := by
  unfold State.flashNext
  split
  · refine Keeps.after (State.setFlash_keeps _ _) (by decide) ?_
    exact Keeps.refl _ _
  · refine Keeps.after (State.setFlash_keeps _ _) (by decide) ?_
    exact Keeps.refl _ _
  · refine Keeps.after (State.setFlash_keeps _ _) (by decide) ?_
    exact Keeps.refl _ _

theorem State.flashPush_keeps (s : State) (o : FlashOp) :
    Keeps [.flash] s (State.flashPush s o) := by
  unfold State.flashPush
  extract_lets -merge +onlyGivenNames x1
  extract_lets -merge +onlyGivenNames x2
  refine Keeps.of_let x2 ?_ (fun h2 => ?_)
  · unfold x2
    refine Keeps.after (State.setFlash_keeps _ _) (by decide) ?_
    exact Keeps.refl _ _
  · refine Keeps.ite (fun _ => ?_) (fun _ => ?_)
    · refine Keeps.after (State.flashNext_keeps _) (by decide) ?_
      exact h2
    · exact h2

theorem State.flashEnd_keeps (s : State) (ok : Bool) :
    Keeps [.regs, .evt, .evr, .flash, .chans, .cxl, .out] s (State.flashEnd s ok) := by
  unfold State.flashEnd
  split
  · exact Keeps.refl _ _
  · extract_lets -merge +onlyGivenNames x1
    extract_lets -merge +onlyGivenNames x2
    extract_lets -merge +onlyGivenNames x3
    refine Keeps.of_let x3 ?_ (fun h3 => ?_)
    · unfold x3
      refine Keeps.after (State.setFlash_keeps _ _) (by decide) ?_
      exact Keeps.refl _ _
    · extract_lets -merge +onlyGivenNames x4
      refine Keeps.of_let x4 ?_ (fun h4 => ?_)
      · unfold x4
        split
        · refine Keeps.ite (fun _ => ?_) (fun _ => ?_)
          · exact h3
          · refine Keeps.after (State.cause_keeps _ _ _ _ _) (by decide) ?_
            refine Keeps.after (State.bump_keeps _ _ _ _ _ _) (by decide) ?_
            exact h3
        · refine Keeps.ite (fun _ => ?_) (fun _ => ?_)
          · exact h3
          · refine Keeps.after (State.cause_keeps _ _ _ _ _) (by decide) ?_
            refine Keeps.after (State.bump_keeps _ _ _ _ _ _) (by decide) ?_
            exact h3
      · refine Keeps.after (State.flashNext_keeps _) (by decide) ?_
        exact h4

theorem State.flashCut_keeps (s : State) :
    Keeps [.flash] s (State.flashCut s) := by
  unfold State.flashCut
  extract_lets -merge +onlyGivenNames x1
  extract_lets -merge +onlyGivenNames x2
  refine Keeps.after (State.setFlash_keeps _ _) (by decide) ?_
  exact Keeps.refl _ _

theorem State.configRepair_keeps (s : State) :
    Keeps [.flash] s (State.configRepair s) := by
  unfold State.configRepair
  split
  · exact Keeps.refl _ _
  · extract_lets -merge +onlyGivenNames x1
    refine Keeps.of_let x1 ?_ (fun h1 => ?_)
    · unfold x1
      refine Keeps.foldl _ (fun _ _ => ?_) ?_
      · refine Keeps.after (State.flashPush_keeps _ _) (by decide) ?_
        exact Keeps.refl _ _
      · exact Keeps.refl _ _
    · refine Keeps.foldl _ (fun _ _ => ?_) ?_
      · refine Keeps.after (State.flashPush_keeps _ _) (by decide) ?_
        exact Keeps.refl _ _
      · exact h1

theorem State.vaultMakeRoom_keeps (s : State) (k : Fin 4) :
    Keeps [.flash] s (State.vaultMakeRoom s k) := by
  unfold State.vaultMakeRoom
  extract_lets -merge +onlyGivenNames x1
  refine Keeps.ite (fun _ => ?_) (fun _ => ?_)
  · exact Keeps.refl _ _
  · extract_lets -merge +onlyGivenNames x2
    refine Keeps.after (State.flashPush_keeps _ _) (by decide) ?_
    refine Keeps.after (State.setFlash_keeps _ _) (by decide) ?_
    exact Keeps.refl _ _

theorem State.vaultPlace_keeps (s : State) (k : Fin 4) (pseq : Nat) (d : VaultData) :
    Keeps [.flash] s (State.vaultPlace s k pseq d) := by
  unfold State.vaultPlace
  extract_lets -merge +onlyGivenNames x1
  refine Keeps.of_let x1 ?_ (fun h1 => ?_)
  · unfold x1
    refine Keeps.after (State.vaultMakeRoom_keeps _ _) (by decide) ?_
    exact Keeps.refl _ _
  · extract_lets -merge +onlyGivenNames x2
    extract_lets -merge +onlyGivenNames x3
    refine Keeps.after (State.flashPush_keeps _ _) (by decide) ?_
    refine Keeps.after (State.setFlash_keeps _ _) (by decide) ?_
    exact h1

theorem State.vaultPut_keeps (s : State) (k : Fin 4) (d : VaultData) :
    Keeps [.flash] s (State.vaultPut s k d) := by
  unfold State.vaultPut
  refine Keeps.ite (fun _ => ?_) (fun _ => ?_)
  · refine Keeps.after (State.vaultPlace_keeps _ _ _ _) (by decide) ?_
    exact Keeps.refl _ _
  · exact Keeps.refl _ _

theorem State.archiveRun_keeps (a0 : Nat) (a1 : State) :
    Keeps [.evr, .flash] a1 (State.archiveRun a0 a1) := by
  induction a0 generalizing a1
  · unfold State.archiveRun
    exact Keeps.refl _ _
  · rename_i x ih
    unfold State.archiveRun
    refine Keeps.ite (fun _ => ?_) (fun _ => ?_)
    · exact Keeps.refl _ _
    · refine Keeps.ite (fun _ => ?_) (fun _ => ?_)
      · refine Keeps.after (State.setEvr_keeps _ _) (by decide) ?_
        exact Keeps.refl _ _
      · refine Keeps.ite (fun _ => ?_) (fun _ => ?_)
        · exact Keeps.refl _ _
        · extract_lets -merge +onlyGivenNames x1
          extract_lets -merge +onlyGivenNames x2
          extract_lets -merge +onlyGivenNames x3
          extract_lets -merge +onlyGivenNames x4
          refine Keeps.of_let x4 ?_ (fun h4 => ?_)
          · unfold x4
            refine Keeps.after (State.vaultPlace_keeps _ _ _ _) (by decide) ?_
            exact Keeps.refl _ _
          · refine Keeps.trans ?_ (ih _)
            refine Keeps.after (State.setEvr_keeps _ _) (by decide) ?_
            exact h4

theorem State.archiveStart_keeps (s : State) :
    Keeps [.evr, .flash] s (State.archiveStart s) := by
  unfold State.archiveStart
  refine Keeps.ite (fun _ => ?_) (fun _ => ?_)
  · exact Keeps.refl _ _
  · refine Keeps.after (State.archiveRun_keeps _ _) (by decide) ?_
    refine Keeps.after (State.setEvr_keeps _ _) (by decide) ?_
    exact Keeps.refl _ _

theorem State.vaultVerified_keeps (s : State) (i : Nat) :
    Keeps [.evr, .flash] s (State.vaultVerified s i) := by
  unfold State.vaultVerified
  split
  · exact Keeps.refl _ _
  · refine Keeps.ite (fun _ => ?_) (fun _ => ?_)
    · exact Keeps.refl _ _
    · extract_lets -merge +onlyGivenNames x1
      extract_lets -merge +onlyGivenNames x2
      extract_lets -merge +onlyGivenNames x3
      extract_lets -merge +onlyGivenNames x4
      extract_lets -merge +onlyGivenNames x5
      refine Keeps.of_let x5 ?_ (fun h5 => ?_)
      · unfold x5
        refine Keeps.after (State.setFlash_keeps _ _) (by decide) ?_
        exact Keeps.refl _ _
      · refine Keeps.after (State.setEvr_keeps _ _) (by decide) ?_
        exact h5

theorem State.vaultFailed_keeps (s : State) (i : Nat) :
    Keeps [.flash] s (State.vaultFailed s i) := by
  unfold State.vaultFailed
  split
  · exact Keeps.refl _ _
  · refine Keeps.after (State.vaultPlace_keeps _ _ _ _) (by decide) ?_
    refine Keeps.after (State.setFlash_keeps _ _) (by decide) ?_
    exact Keeps.refl _ _

theorem State.putSlots_keeps (s : State) (r : SlotRecord) :
    Keeps [.nv, .flash] s (State.putSlots s r) := by
  unfold State.putSlots
  extract_lets -merge +onlyGivenNames x1
  refine Keeps.after (State.nvWrite_keeps _ _ _) (by decide) ?_
  refine Keeps.after (State.setFlash_keeps _ _) (by decide) ?_
  exact Keeps.refl _ _

theorem State.putImage_keeps (s : State) (slot : Bool) (i : ImageInfo) :
    Keeps [.nv, .flash] s (State.putImage s slot i) := by
  unfold State.putImage
  refine Keeps.after (State.putSlots_keeps _ _) (by decide) ?_
  exact Keeps.refl _ _

theorem State.fwRevert_keeps (s : State) :
    Keeps [.regs, .evt, .nv, .evr, .flash, .chans, .cxl, .out] s (State.fwRevert s) := by
  unfold State.fwRevert
  extract_lets -merge +onlyGivenNames x1
  refine Keeps.ite (fun _ => ?_) (fun _ => ?_)
  · extract_lets -merge +onlyGivenNames x2
    refine Keeps.after (State.record_keeps _ _ _ _ _ _) (by decide) ?_
    refine Keeps.after (State.cause_keeps _ _ _ _ _) (by decide) ?_
    refine Keeps.after (State.putSlots_keeps _ _) (by decide) ?_
    exact Keeps.refl _ _
  · exact Keeps.refl _ _

theorem State.bootSelect_keeps (s : State) (arb : Nat) :
    Keeps [.regs, .evt, .nv, .evr, .flash, .chans, .cxl, .out] s (State.bootSelect s arb) := by
  unfold State.bootSelect
  extract_lets -merge +onlyGivenNames x1
  refine Keeps.of_let x1 ?_ (fun h1 => ?_)
  · unfold x1
    refine Keeps.ite (fun _ => ?_) (fun _ => ?_)
    · refine Keeps.after (State.fwRevert_keeps _) (by decide) ?_
      exact Keeps.refl _ _
    · exact Keeps.refl _ _
  · extract_lets -merge +onlyGivenNames x2
    extract_lets -merge +onlyGivenNames x3
    extract_lets -merge +onlyGivenNames x4
    refine Keeps.of_let x4 ?_ (fun h4 => ?_)
    · unfold x4
      clear_value x3
      split
      · refine Keeps.after (State.cause_keeps _ _ _ _ _) (by decide) ?_
        refine Keeps.after (State.putSlots_keeps _ _) (by decide) ?_
        exact h1
      · refine Keeps.ite (fun _ => ?_) (fun _ => ?_)
        · refine Keeps.after (State.putSlots_keeps _ _) (by decide) ?_
          exact h1
        · exact h1
      · exact h1
    · extract_lets -merge +onlyGivenNames x5
      extract_lets -merge +onlyGivenNames x6
      extract_lets -merge +onlyGivenNames x7
      extract_lets -merge +onlyGivenNames x8
      extract_lets -merge +onlyGivenNames x9
      refine Keeps.of_let x9 ?_ (fun h9 => ?_)
      · unfold x9
        refine Keeps.after (State.setFlash_keeps _ _) (by decide) ?_
        exact h4
      · extract_lets -merge +onlyGivenNames x10
        refine Keeps.of_let x10 ?_ (fun h10 => ?_)
        · unfold x10
          refine Keeps.after (State.level_keeps _ _ _ _ _ _ _) (by decide) ?_
          exact h9
        · extract_lets -merge +onlyGivenNames x11
          refine Keeps.after (State.record_keeps _ _ _ _ _ _) (by decide) ?_
          exact h10

theorem State.wdgStart_keeps (s : State) :
    Keeps [.wdg] s (State.wdgStart s) := by
  unfold State.wdgStart
  refine Keeps.ite (fun _ => ?_) (fun _ => ?_)
  · refine Keeps.after (State.setWdg_keeps _ _) (by decide) ?_
    exact Keeps.refl _ _
  · refine Keeps.after (State.setWdg_keeps _ _) (by decide) ?_
    exact Keeps.refl _ _

theorem State.wdgPause_keeps (s : State) :
    Keeps [.wdg] s (State.wdgPause s) := by
  unfold State.wdgPause
  refine Keeps.after (State.setWdg_keeps _ _) (by decide) ?_
  exact Keeps.refl _ _

theorem State.wdgKick_keeps (s : State) (v : Word) :
    Keeps [.wdg] s (State.wdgKick s v) := by
  unfold State.wdgKick
  refine Keeps.ite (fun _ => ?_) (fun _ => ?_)
  · refine Keeps.after (State.wdgStart_keeps _) (by decide) ?_
    exact Keeps.refl _ _
  · exact Keeps.refl _ _

theorem State.putBucket_keeps (s : State) (c : Nat) (b : Bucket) :
    Keeps [.nv, .evr] s (State.putBucket s c b) := by
  unfold State.putBucket
  refine Keeps.after (State.nvWrite_keeps _ _ _) (by decide) ?_
  refine Keeps.after (State.setEvr_keeps _ _) (by decide) ?_
  exact Keeps.refl _ _

theorem State.refill_keeps (s : State) (c : Nat) :
    Keeps [.evr] s (State.refill s c) := by
  unfold State.refill
  extract_lets -merge +onlyGivenNames x1
  refine Keeps.ite (fun _ => ?_) (fun _ => ?_)
  · exact Keeps.refl _ _
  · refine Keeps.after (State.setEvr_keeps _ _) (by decide) ?_
    exact Keeps.refl _ _

theorem State.vaultRestart_keeps (s : State) :
    Keeps [.flash] s (State.vaultRestart s) := by
  unfold State.vaultRestart
  refine Keeps.foldl _ (fun _ _ => ?_) ?_
  · refine Keeps.after (State.vaultFailed_keeps _ _) (by decide) ?_
    exact Keeps.refl _ _
  · exact Keeps.refl _ _

/-! ### PowerOps -/

theorem State.setPsq_keeps (s : State) (p : Psq) :
    Keeps [.psq] s (State.setPsq s p) := by
  unfold State.setPsq
  refine Keeps.set_psq (by decide) ?_
  exact Keeps.refl _ _

theorem State.setRail_keeps (s : State) (k : Nat) (r : Rail) :
    Keeps [.psq] s (State.setRail s k r) := by
  unfold State.setRail
  refine Keeps.after (State.setPsq_keeps _ _) (by decide) ?_
  exact Keeps.refl _ _

theorem State.lanesWake_keeps (s : State) :
    Keeps [.med] s (State.lanesWake s) := by
  unfold State.lanesWake
  refine Keeps.ite (fun _ => ?_) (fun _ => ?_)
  · refine Keeps.set_med (by decide) ?_
    exact Keeps.refl _ _
  · exact Keeps.refl _ _

theorem State.setPState_keeps (s : State) (p : PState) :
    Keeps [.regs, .evt, .tally, .evr, .psq, .chans, .med, .cxl, .out] s (State.setPState s p) := by
  unfold State.setPState
  refine Keeps.ite (fun _ => ?_) (fun _ => ?_)
  · exact Keeps.refl _ _
  · extract_lets -merge +onlyGivenNames x1
    extract_lets -merge +onlyGivenNames x2
    refine Keeps.of_let x2 ?_ (fun h2 => ?_)
    · unfold x2
      refine Keeps.after (State.cause_keeps _ _ _ _ _) (by decide) ?_
      refine Keeps.after (State.setPsq_keeps _ _) (by decide) ?_
      exact Keeps.refl _ _
    · extract_lets -merge +onlyGivenNames x3
      refine Keeps.of_let x3 ?_ (fun h3 => ?_)
      · unfold x3
        refine Keeps.after (State.lanesWake_keeps _) (by decide) ?_
        refine Keeps.after (State.level_keeps _ _ _ _ _ _ _) (by decide) ?_
        exact h2
      · refine Keeps.ite (fun _ => ?_) (fun _ => ?_)
        · refine Keeps.after (State.setTally_keeps _ _) (by decide) ?_
          exact h3
        · exact h3

theorem State.wakeIdle_keeps (s : State) :
    Keeps [.regs, .evt, .tally, .evr, .psq, .chans, .med, .cxl, .out] s (State.wakeIdle s) := by
  unfold State.wakeIdle
  refine Keeps.ite (fun _ => ?_) (fun _ => ?_)
  · refine Keeps.after (State.setPState_keeps _ _) (by decide) ?_
    exact Keeps.refl _ _
  · exact Keeps.refl _ _

theorem State.crossed_keeps (s : State) :
    Keeps [.regs, .evt, .evr, .chans, .cxl, .out] s (State.crossed s) := by
  unfold State.crossed
  refine Keeps.after (State.cause_keeps _ _ _ _ _) (by decide) ?_
  exact Keeps.refl _ _

theorem State.judgeGroupDown_keeps (s : State) :
    Keeps [.regs, .evt, .evr, .chans, .cxl, .out] s (State.judgeGroupDown s) := by
  unfold State.judgeGroupDown
  refine Keeps.after (State.level_keeps _ _ _ _ _ _ _) (by decide) ?_
  exact Keeps.refl _ _

theorem State.judgeInput_keeps (s : State) :
    Keeps [.regs, .evt, .evr, .chans, .cxl, .out] s (State.judgeInput s) := by
  unfold State.judgeInput
  refine Keeps.after (State.level_keeps _ _ _ _ _ _ _) (by decide) ?_
  exact Keeps.refl _ _

theorem State.startUp_keeps (s : State) (kind : TransKind) (set : BitVec 24) :
    Keeps [.psq] s (State.startUp s kind set) := by
  unfold State.startUp
  extract_lets -merge +onlyGivenNames x1
  extract_lets -merge +onlyGivenNames x2
  refine Keeps.of_let x2 ?_ (fun h2 => ?_)
  · unfold x2
    refine Keeps.foldl _ (fun _ _ => ?_) ?_
    · extract_lets -merge +onlyGivenNames x3
      refine Keeps.ite (fun _ => ?_) (fun _ => ?_)
      · refine Keeps.after (State.setRail_keeps _ _ _) (by decide) ?_
        exact Keeps.refl _ _
      · exact Keeps.refl _ _
    · exact Keeps.refl _ _
  · refine Keeps.after (State.setPsq_keeps _ _) (by decide) ?_
    exact h2

theorem State.lowerRail_keeps (s : State) (set : BitVec 24) (k : Nat) :
    Keeps [.psq] s (State.lowerRail s set k) := by
  unfold State.lowerRail
  extract_lets -merge +onlyGivenNames x1
  refine Keeps.ite (fun _ => ?_) (fun _ => ?_)
  · refine Keeps.after (State.setRail_keeps _ _ _) (by decide) ?_
    exact Keeps.refl _ _
  · exact Keeps.refl _ _

theorem State.startDown_keeps (s : State) (kind : TransKind) (set : BitVec 24) :
    Keeps [.psq] s (State.startDown s kind set) := by
  unfold State.startDown
  extract_lets -merge +onlyGivenNames x1
  refine Keeps.of_let x1 ?_ (fun h1 => ?_)
  · unfold x1
    refine Keeps.foldl _ (fun _ _ => ?_) ?_
    · extract_lets -merge +onlyGivenNames x2
      refine Keeps.ite (fun _ => ?_) (fun _ => ?_)
      · refine Keeps.after (State.setRail_keeps _ _ _) (by decide) ?_
        exact Keeps.refl _ _
      · exact Keeps.refl _ _
    · exact Keeps.refl _ _
  · extract_lets -merge +onlyGivenNames x2
    refine Keeps.of_let x2 ?_ (fun h2 => ?_)
    · unfold x2
      refine Keeps.foldl _ (fun _ _ => ?_) ?_
      · refine Keeps.ite (fun _ => ?_) (fun _ => ?_)
        · refine Keeps.after (State.lowerRail_keeps _ _ _) (by decide) ?_
          exact Keeps.refl _ _
        · exact Keeps.refl _ _
      · exact h1
    · refine Keeps.after (State.setPsq_keeps _ _) (by decide) ?_
      exact h2

theorem State.fastDown_keeps (s : State) :
    Keeps [.psq] s (State.fastDown s) := by
  unfold State.fastDown
  refine Keeps.after (State.setPsq_keeps _ _) (by decide) ?_
  exact Keeps.refl _ _

theorem State.railStart_keeps (s : State) (k : Nat) :
    Keeps [.psq] s (State.railStart s k) := by
  unfold State.railStart
  split
  · extract_lets -merge +onlyGivenNames x1
    extract_lets -merge +onlyGivenNames x2
    refine Keeps.ite (fun _ => ?_) (fun _ => ?_)
    · refine Keeps.after (State.setRail_keeps _ _ _) (by decide) ?_
      exact Keeps.refl _ _
    · exact Keeps.refl _ _
  · exact Keeps.refl _ _

theorem State.railCause_keeps (s : State) (k : Nat) (b : Nat) :
    Keeps [.regs, .evt, .evr, .chans, .cxl, .out] s (State.railCause s k b) := by
  unfold State.railCause
  refine Keeps.after (State.cause_keeps _ _ _ _ _) (by decide) ?_
  exact Keeps.refl _ _

theorem State.railHeld_keeps (s : State) (k : Nat) (v : Bool) :
    Keeps [.regs, .evt, .evr, .chans, .cxl, .out] s (State.railHeld s k v) := by
  unfold State.railHeld
  refine Keeps.after (State.level_keeps _ _ _ _ _ _ _) (by decide) ?_
  exact Keeps.refl _ _

theorem State.lastFault_keeps (s : State) (k : Nat) (rx : Nat) (count : Nat) (escalated : Bool) :
    Keeps [.regs] s (State.lastFault s k rx count escalated) := by
  unfold State.lastFault
  refine Keeps.after (State.setReg_keeps _ _ _ _) (by decide) ?_
  exact Keeps.refl _ _

theorem State.seqCommit_keeps (s : State) (req : Requester) :
    Keeps [.regs, .csr, .evt, .nv, .evr, .psq, .chans, .cxl, .out] s (State.seqCommit s req) := by
  unfold State.seqCommit
  extract_lets -merge +onlyGivenNames x1
  refine Keeps.ite (fun _ => ?_) (fun _ => ?_)
  · refine Keeps.after (State.lockViolation_keeps _ _ _) (by decide) ?_
    exact Keeps.refl _ _
  · refine Keeps.ite (fun _ => ?_) (fun _ => ?_)
    · unfold x1
      refine Keeps.after (State.cause_keeps _ _ _ _ _) (by decide) ?_
      refine Keeps.after (State.setFld_keeps _ _ _ _ _ _) (by decide) ?_
      exact Keeps.refl _ _
    · refine Keeps.ite (fun _ => ?_) (fun _ => ?_)
      · unfold x1
        refine Keeps.after (State.cause_keeps _ _ _ _ _) (by decide) ?_
        refine Keeps.after (State.setFld_keeps _ _ _ _ _ _) (by decide) ?_
        exact Keeps.refl _ _
      · refine Keeps.ite (fun _ => ?_) (fun _ => ?_)
        · unfold x1
          refine Keeps.after (State.cause_keeps _ _ _ _ _) (by decide) ?_
          refine Keeps.after (State.setFld_keeps _ _ _ _ _ _) (by decide) ?_
          exact Keeps.refl _ _
        · refine Keeps.after (State.nvWrite_keeps _ _ _) (by decide) ?_
          refine Keeps.after (State.setPsq_keeps _ _) (by decide) ?_
          refine Keeps.after (State.setFld_keeps _ _ _ _ _ _) (by decide) ?_
          exact Keeps.refl _ _

theorem State.mapCommit_keeps (s : State) (req : Requester) :
    Keeps [.regs, .csr, .evt, .nv, .evr, .chans, .cxl, .out] s (State.mapCommit s req) := by
  unfold State.mapCommit
  extract_lets -merge +onlyGivenNames x1
  extract_lets -merge +onlyGivenNames x2
  extract_lets -merge +onlyGivenNames x3
  refine Keeps.ite (fun _ => ?_) (fun _ => ?_)
  · refine Keeps.after (State.lockViolation_keeps _ _ _) (by decide) ?_
    exact Keeps.refl _ _
  · refine Keeps.ite (fun _ => ?_) (fun _ => ?_)
    · refine Keeps.after (State.cause_keeps _ _ _ _ _) (by decide) ?_
      refine Keeps.after (State.setFld_keeps _ _ _ _ _ _) (by decide) ?_
      exact Keeps.refl _ _
    · refine Keeps.after (State.nvWrite_keeps _ _ _) (by decide) ?_
      refine Keeps.after (State.setReg_keeps _ _ _ _) (by decide) ?_
      refine Keeps.after (State.setReg_keeps _ _ _ _) (by decide) ?_
      refine Keeps.after (State.setFld_keeps _ _ _ _ _ _) (by decide) ?_
      exact Keeps.refl _ _

/-! ### ChannelOps -/

theorem State.deliver_keeps (s : State) (c : Fin 64) (via : Transport) (words : List Word) :
    Keeps [.chans, .cxl, .out] s (State.deliver s c via words) := by
  unfold State.deliver
  extract_lets -merge +onlyGivenNames x1
  split
  · refine Keeps.ite (fun _ => ?_) (fun _ => ?_)
    · refine Keeps.after (replyInterrupt_keeps _ _ _) (by decide) ?_
      refine Keeps.after (State.setChan_keeps _ _ _) (by decide) ?_
      exact Keeps.refl _ _
    · refine Keeps.after (State.setChan_keeps _ _ _) (by decide) ?_
      exact Keeps.refl _ _
  · extract_lets -merge +onlyGivenNames x2
    extract_lets -merge +onlyGivenNames x3
    extract_lets -merge +onlyGivenNames x4
    refine Keeps.after (replyInterrupt_keeps _ _ _) (by decide) ?_
    refine Keeps.after (State.setChan_keeps _ _ _) (by decide) ?_
    exact Keeps.refl _ _
  · refine Keeps.after (State.emit_keeps _ _) (by decide) ?_
    refine Keeps.after (State.setChan_keeps _ _ _) (by decide) ?_
    exact Keeps.refl _ _
  · extract_lets -merge +onlyGivenNames x2
    refine Keeps.of_let x2 ?_ (fun h2 => ?_)
    · unfold x2
      refine Keeps.after (State.emit_keeps _ _) (by decide) ?_
      exact Keeps.refl _ _
    · refine Keeps.ite (fun _ => ?_) (fun _ => ?_)
      · refine Keeps.after (State.emit_keeps _ _) (by decide) ?_
        exact h2
      · exact h2

theorem State.keepReply_keeps (s : State) (c : Nat) (tag : BitVec 16) (words : List Word) :
    Keeps [.chans] s (State.keepReply s c tag words) := by
  unfold State.keepReply
  extract_lets -merge +onlyGivenNames x1
  refine Keeps.after (State.setChan_keeps _ _ _) (by decide) ?_
  exact Keeps.refl _ _

theorem State.keepLast_keeps (s : State) (r : AzReq) (words : List Word) :
    Keeps [.chans] s (State.keepLast s r words) := by
  unfold State.keepLast
  extract_lets -merge +onlyGivenNames x1
  refine Keeps.after (State.setChan_keeps _ _ _) (by decide) ?_
  exact Keeps.refl _ _

theorem State.answer_keeps {w : List Part} {s : State} {r : AzReq} {op : Nat} {a : Answer}
    (hw : [Part.chans, .cxl, .out] ⊆ w) (hs : Keeps w s a.state) (ha : ∀ u, Keeps w u (a.after u)) :
    Keeps w s (State.answer r op a) := by
  unfold State.answer
  dsimp only
  refine Keeps.trans ?_ (ha _)
  have h1 : Keeps w s (a.state.keepLast r (replyWords a.status false r.tag r.seq a.words)) :=
    Keeps.after (State.keepLast_keeps _ _ _) (List.Subset.trans (by decide) hw) hs
  have h2 (c : Fin 64) (v : Chan) : Keeps w s ((a.state.keepLast r (replyWords a.status false r.tag r.seq a.words)).setChan c v) :=
    Keeps.after (State.setChan_keeps _ _ _) (List.Subset.trans (by decide) hw) h1
  have h3 (c : Fin 64) (t : BitVec 16) (ws : List Word) :
      Keeps w s ((a.state.keepLast r (replyWords a.status false r.tag r.seq a.words)).keepReply c t ws) :=
    Keeps.after (State.keepReply_keeps _ _ _ _) (List.Subset.trans (by decide) hw) h1
  refine Keeps.ite (fun _ => ?_) (fun _ => Keeps.after (State.deliver_keeps _ _ _ _) (List.Subset.trans (by decide) hw) ?_) <;>
    exact Keeps.ite (fun _ => h2 _ _) (fun _ => h3 _ _ _)

theorem State.complete_keeps (s : State) (c : Fin 64) (tag : BitVec 16) (st : Status) (res : List Word) :
    Keeps [.chans, .cxl, .out] s (State.complete s c tag st res) := by
  unfold State.complete
  extract_lets -merge +onlyGivenNames x1
  split
  · exact Keeps.refl _ _
  · extract_lets -merge +onlyGivenNames x2
    extract_lets -merge +onlyGivenNames x3
    refine Keeps.of_let x3 ?_ (fun h3 => ?_)
    · unfold x3
      refine Keeps.after (State.keepReply_keeps _ _ _ _) (by decide) ?_
      refine Keeps.after (State.setChan_keeps _ _ _) (by decide) ?_
      exact Keeps.refl _ _
    · extract_lets -merge +onlyGivenNames x4
      refine Keeps.ite (fun _ => ?_) (fun _ => ?_)
      · exact h3
      · refine Keeps.after (State.deliver_keeps _ _ _ _) (by decide) ?_
        exact h3

theorem State.take_keeps {w : List Part} {s : State} {r : AzReq} {op : Nat} {permitted : Bool} {lens : Nat → Bool} {pends : Bool}
    {body : State → Answer} (hw : [Part.regs, .evt, .tally, .evr, .psq, .chans, .med, .cxl, .out] ⊆ w)
    (hs : ∀ u, Keeps w u (body u).state) (ha : ∀ u v, Keeps w v ((body u).after v)) :
    Keeps w s (s.take r op permitted lens pends body) := by
  have wi : Keeps w s s.wakeIdle := (State.wakeIdle_keeps s).mono (List.Subset.trans (by decide) hw)
  have fl (st : Status) (res : List Word) : Keeps w s (State.answer r op { status := st, words := res, state := s.wakeIdle }) :=
    State.answer_keeps (List.Subset.trans (by decide) hw) wi (fun _ => Keeps.refl _ _)
  unfold State.take
  dsimp only
  refine Keeps.ite (fun _ => ?_) (fun _ => Keeps.ite (fun _ => ?_) (fun _ => ?_))
  · refine Keeps.ite (fun _ => ?_) (fun _ => Keeps.refl _ _)
    exact (State.setChan_keeps _ _ _).mono (List.Subset.trans (by decide) hw)
  · exact Keeps.after (State.deliver_keeps _ _ _ _) (List.Subset.trans (by decide) hw) wi
  · split
    · exact (State.deliver_keeps _ _ _ _).mono (List.Subset.trans (by decide) hw)
    · refine Keeps.ite (fun _ => fl _ _) (fun _ => Keeps.ite (fun _ => fl _ _) (fun _ => Keeps.ite (fun _ => fl _ _)
        (fun _ => Keeps.ite (fun _ => fl _ _) (fun _ => Keeps.ite (fun _ => fl _ _) (fun _ => Keeps.ite (fun _ => fl _ _)
        (fun _ => Keeps.ite (fun _ => fl _ _) (fun _ => ?_)))))))
      exact State.answer_keeps (List.Subset.trans (by decide) hw) (wi.trans (hs _)) (ha _)

/-! ### EybOps -/

theorem State.setMed_keeps (s : State) (m : Medium) :
    Keeps [.med] s (State.setMed s m) := by
  unfold State.setMed
  refine Keeps.set_med (by decide) ?_
  exact Keeps.refl _ _

theorem State.setQc_keeps (s : State) (n : Nat) (c : QChan) :
    Keeps [.med] s (State.setQc s n c) := by
  unfold State.setQc
  refine Keeps.after (State.setMed_keeps _ _) (by decide) ?_
  exact Keeps.refl _ _

theorem State.setQg_keeps (s : State) (g : Nat) (v : QGroup) :
    Keeps [.med] s (State.setQg s g v) := by
  unfold State.setQg
  refine Keeps.after (State.setMed_keeps _ _) (by decide) ?_
  exact Keeps.refl _ _

theorem State.setDie_keeps (s : State) (d : Nat) (v : Die) :
    Keeps [.med] s (State.setDie s d v) := by
  unfold State.setDie
  refine Keeps.after (State.setMed_keeps _ _) (by decide) ?_
  exact Keeps.refl _ _

theorem State.setSett_keeps (s : State) (n : Nat) (v : Sett) :
    Keeps [.med] s (State.setSett s n v) := by
  unfold State.setSett
  refine Keeps.after (State.setMed_keeps _ _) (by decide) ?_
  exact Keeps.refl _ _

theorem State.setYoung_keeps (s : State) (n : Nat) (v : List Young) :
    Keeps [.med] s (State.setYoung s n v) := by
  unfold State.setYoung
  refine Keeps.after (State.setMed_keeps _ _) (by decide) ?_
  exact Keeps.refl _ _

theorem State.setBand_keeps (s : State) (n : Nat) (first : Nat) (last : Nat) :
    Keeps [.med] s (State.setBand s n first last) := by
  unfold State.setBand
  extract_lets -merge +onlyGivenNames x1
  refine Keeps.after (State.setYoung_keeps _ _ _) (by decide) ?_
  refine Keeps.after (State.setSett_keeps _ _ _) (by decide) ?_
  exact Keeps.refl _ _

theorem State.youngClear_keeps (s : State) (n : Nat) (line : Nat) :
    Keeps [.med] s (State.youngClear s n line) := by
  unfold State.youngClear
  extract_lets -merge +onlyGivenNames x1
  extract_lets -merge +onlyGivenNames x2
  refine Keeps.after (State.setYoung_keeps _ _ _) (by decide) ?_
  exact Keeps.refl _ _

theorem State.youngStart_keeps (s : State) (n : Nat) (line : Nat) (w : Fin 4) (t : BitVec 40) :
    Keeps [.med] s (State.youngStart s n line w t) := by
  unfold State.youngStart
  extract_lets -merge +onlyGivenNames x1
  extract_lets -merge +onlyGivenNames x2
  refine Keeps.after (State.setSett_keeps _ _ _) (by decide) ?_
  refine Keeps.after (State.setYoung_keeps _ _ _) (by decide) ?_
  exact Keeps.refl _ _

theorem State.youngAdd_keeps (s : State) (n : Nat) (line : Nat) (t : BitVec 40) :
    Keeps [.med] s (State.youngAdd s n line t).1 := by
  unfold State.youngAdd
  extract_lets -merge +onlyGivenNames x1
  refine Keeps.of_let x1 ?_ (fun h1 => ?_)
  · unfold x1
    refine Keeps.after (State.youngClear_keeps _ _ _) (by decide) ?_
    exact Keeps.refl _ _
  · extract_lets -merge +onlyGivenNames x2
    extract_lets -merge +onlyGivenNames x3
    split
    · dsimp only
      refine Keeps.after (State.setYoung_keeps _ _ _) (by decide) ?_
      exact h1
    · split
      · dsimp only
        refine Keeps.after (State.youngStart_keeps _ _ _ _ _) (by decide) ?_
        exact h1
      · dsimp only
        exact h1

theorem State.youngSweep_keeps (s : State) (n : Nat) :
    Keeps [.med] s (State.youngSweep s n).1 := by
  unfold State.youngSweep
  extract_lets -merge +onlyGivenNames x1
  split
  · dsimp only
    exact Keeps.refl _ _
  · extract_lets -merge +onlyGivenNames x2
    extract_lets -merge +onlyGivenNames x3
    refine Keeps.of_let x3 ?_ (fun h3 => ?_)
    · unfold x3
      refine Keeps.after (State.setYoung_keeps _ _ _) (by decide) ?_
      exact Keeps.refl _ _
    · clear_value x2
      split
      · dsimp only
        refine Keeps.after (State.setSett_keeps _ _ _) (by decide) ?_
        exact h3
      · extract_lets -merge +onlyGivenNames x2
        refine Keeps.ite_fst (fun _ => ?_) (fun _ => ?_)
        · dsimp only
          refine Keeps.after (State.setSett_keeps _ _ _) (by decide) ?_
          refine Keeps.after (State.setYoung_keeps _ _ _) (by decide) ?_
          exact h3
        · dsimp only
          exact h3

theorem State.judgeEyb_keeps (s : State) :
    Keeps [.regs, .evt, .evr, .chans, .cxl, .out] s (State.judgeEyb s) := by
  unfold State.judgeEyb
  extract_lets -merge +onlyGivenNames x1
  extract_lets -merge +onlyGivenNames x2
  refine Keeps.of_let x2 ?_ (fun h2 => ?_)
  · unfold x2
    refine Keeps.after (State.level_keeps _ _ _ _ _ _ _) (by decide) ?_
    exact Keeps.refl _ _
  · extract_lets -merge +onlyGivenNames x3
    refine Keeps.of_let x3 ?_ (fun h3 => ?_)
    · unfold x3
      refine Keeps.after (State.level_keeps _ _ _ _ _ _ _) (by decide) ?_
      exact h2
    · refine Keeps.after (State.level_keeps _ _ _ _ _ _ _) (by decide) ?_
      exact h3

theorem State.setMapBand_keeps (s : State) (d : Nat) (b : MapBand) :
    Keeps [.nv, .xlt] s (State.setMapBand s d b) := by
  unfold State.setMapBand
  refine Keeps.after (State.nvWrite_keeps _ _ _) (by decide) ?_
  refine Keeps.set_xlt (by decide) ?_
  exact Keeps.refl _ _

theorem State.setLog_keeps (s : State) (d : Nat) (log : List AgeEntry) :
    Keeps [.nv, .med, .xlt] s (State.setLog s d log) := by
  unfold State.setLog
  extract_lets -merge +onlyGivenNames x1
  extract_lets -merge +onlyGivenNames x2
  extract_lets -merge +onlyGivenNames x3
  refine Keeps.of_let x3 ?_ (fun h3 => ?_)
  · unfold x3
    refine Keeps.after (State.setDie_keeps _ _ _) (by decide) ?_
    exact Keeps.refl _ _
  · split
    · refine Keeps.after (State.setMapBand_keeps _ _ _) (by decide) ?_
      exact h3
    · exact h3

theorem State.logAppend_keeps (s : State) (d : Nat) (a : ℤ) :
    Keeps [.nv, .med, .xlt] s (State.logAppend s d a) := by
  unfold State.logAppend
  refine Keeps.after (State.setLog_keeps _ _ _) (by decide) ?_
  exact Keeps.refl _ _

theorem State.writeDeadline_keeps (s : State) :
    Keeps [.regs, .evt, .nv] s (State.writeDeadline s) := by
  unfold State.writeDeadline
  extract_lets -merge +onlyGivenNames x1
  extract_lets -merge +onlyGivenNames x2
  extract_lets -merge +onlyGivenNames x3
  refine Keeps.of_let x3 ?_ (fun h3 => ?_)
  · unfold x3
    refine Keeps.after (State.nvWrite_keeps _ _ _) (by decide) ?_
    refine Keeps.after (State.setReg64_keeps _ _ _ _ _) (by decide) ?_
    exact Keeps.refl _ _
  · refine Keeps.ite (fun _ => ?_) (fun _ => ?_)
    · refine Keeps.after (State.lower_keeps _ _) (by decide) ?_
      exact h3
    · exact h3

/-! ### ChanOps -/

theorem State.judgeQc_keeps (s : State) (n : Nat) :
    Keeps [.regs, .evt, .evr, .chans, .cxl, .out] s (State.judgeQc s n) := by
  unfold State.judgeQc
  extract_lets -merge +onlyGivenNames x1
  refine Keeps.ite (fun _ => ?_) (fun _ => ?_)
  · refine Keeps.after (State.raise_keeps _ _) (by decide) ?_
    exact Keeps.refl _ _
  · refine Keeps.after (State.lower_keeps _ _) (by decide) ?_
    exact Keeps.refl _ _

theorem State.judgeQg_keeps (s : State) (g : Nat) :
    Keeps [.regs, .evt, .evr, .chans, .cxl, .out] s (State.judgeQg s g) := by
  unfold State.judgeQg
  extract_lets -merge +onlyGivenNames x1
  refine Keeps.ite (fun _ => ?_) (fun _ => ?_)
  · refine Keeps.after (State.raise_keeps _ _) (by decide) ?_
    exact Keeps.refl _ _
  · refine Keeps.after (State.lower_keeps _ _) (by decide) ?_
    exact Keeps.refl _ _

theorem State.stormsEnd_keeps (s : State) :
    Keeps [.regs, .evt, .evr, .chans, .med, .cxl, .out] s (State.stormsEnd s) := by
  unfold State.stormsEnd
  refine Keeps.foldl _ (fun _ _ => ?_) ?_
  · refine Keeps.after (State.judgeQc_keeps _ _) (by decide) ?_
    refine Keeps.after (State.setQc_keeps _ _ _) (by decide) ?_
    exact Keeps.refl _ _
  · exact Keeps.refl _ _

theorem State.sendCmd_keeps (s : State) (n : Nat) (c : QmiCmd) :
    Keeps [.med, .out] s (State.sendCmd s n c) := by
  unfold State.sendCmd
  extract_lets -merge +onlyGivenNames x1
  extract_lets -merge +onlyGivenNames x2
  extract_lets -merge +onlyGivenNames x3
  refine Keeps.of_let x3 ?_ (fun h3 => ?_)
  · unfold x3
    refine Keeps.after (State.setQc_keeps _ _ _) (by decide) ?_
    exact Keeps.refl _ _
  · refine Keeps.after (State.emit_keeps _ _) (by decide) ?_
    refine Keeps.after (State.setDie_keeps _ _ _) (by decide) ?_
    exact h3

theorem State.pumpList_keeps (n : Nat) (p : QmiCmd → Bool) (a2 : List QmiCmd) (a3 : State) :
    Keeps [.med, .out] a3 (State.pumpList n p a2 a3) := by
  induction a2 generalizing n p a3
  · unfold State.pumpList
    exact Keeps.refl _ _
  · rename_i x xs ih
    unfold State.pumpList
    refine Keeps.ite (fun _ => ?_) (fun _ => ?_)
    · extract_lets -merge +onlyGivenNames x1
      refine Keeps.trans ?_ (ih _ _ _)
      refine Keeps.after (State.sendCmd_keeps _ _ _) (by decide) ?_
      refine Keeps.after (State.setQc_keeps _ _ _) (by decide) ?_
      exact Keeps.refl _ _
    · refine Keeps.trans ?_ (ih _ _ _)
      exact Keeps.refl _ _

theorem State.flushLane_keeps (s : State) (n : Nat) (k : Nat) (seq : BitVec 8) :
    Keeps [.med, .out] s (State.flushLane s n k seq) := by
  unfold State.flushLane
  extract_lets -merge +onlyGivenNames x1
  extract_lets -merge +onlyGivenNames x2
  refine Keeps.ite (fun _ => ?_) (fun _ => ?_)
  · exact Keeps.refl _ _
  · refine Keeps.after (State.emit_keeps _ _) (by decide) ?_
    refine Keeps.after (State.setQc_keeps _ _ _) (by decide) ?_
    exact Keeps.refl _ _

theorem State.pump_keeps (s : State) (n : Nat) :
    Keeps [.med, .out] s (State.pump s n) := by
  unfold State.pump
  extract_lets -merge +onlyGivenNames x1
  extract_lets -merge +onlyGivenNames x2
  extract_lets -merge +onlyGivenNames x3
  refine Keeps.of_let x3 ?_ (fun h3 => ?_)
  · unfold x3
    refine Keeps.after (State.pumpList_keeps _ _ _ _) (by decide) ?_
    exact Keeps.refl _ _
  · extract_lets -merge +onlyGivenNames x4
    refine Keeps.of_let x4 ?_ (fun h4 => ?_)
    · unfold x4
      refine Keeps.after (State.pumpList_keeps _ _ _ _) (by decide) ?_
      exact h3
    · refine Keeps.after (State.flushLane_keeps _ _ _ _) (by decide) ?_
      refine Keeps.after (State.pumpList_keeps _ _ _ _) (by decide) ?_
      exact h4

theorem State.issue_keeps (s : State) (d : Nat) (c : QmiCmd) :
    Keeps [.med, .out] s (State.issue s d c) := by
  unfold State.issue
  extract_lets -merge +onlyGivenNames x1
  extract_lets -merge +onlyGivenNames x2
  extract_lets -merge +onlyGivenNames x3
  refine Keeps.after (State.pump_keeps _ _) (by decide) ?_
  refine Keeps.after (State.setQc_keeps _ _ _) (by decide) ?_
  exact Keeps.refl _ _

theorem State.takeSent_keeps (s : State) (n : Nat) (tag : BitVec 10) :
    Keeps [.med] s (State.takeSent s n tag).2 := by
  unfold State.takeSent
  extract_lets -merge +onlyGivenNames x1
  split
  · dsimp only
    refine Keeps.after (State.setQc_keeps _ _ _) (by decide) ?_
    exact Keeps.refl _ _
  · dsimp only
    exact Keeps.refl _ _

theorem State.received_keeps (s : State) (n : Nat) (seq : BitVec 8) :
    Keeps [.med, .out] s (State.received s n seq) := by
  unfold State.received
  extract_lets -merge +onlyGivenNames x1
  extract_lets -merge +onlyGivenNames x2
  extract_lets -merge +onlyGivenNames x3
  refine Keeps.of_let x3 ?_ (fun h3 => ?_)
  · unfold x3
    refine Keeps.after (State.setQc_keeps _ _ _) (by decide) ?_
    exact Keeps.refl _ _
  · refine Keeps.foldl _ (fun _ _ => ?_) ?_
    · refine Keeps.after (State.emit_keeps _ _) (by decide) ?_
      exact Keeps.refl _ _
    · exact h3

theorem State.sendNak_keeps (s : State) (n : Nat) :
    Keeps [.med, .out] s (State.sendNak s n) := by
  unfold State.sendNak
  extract_lets -merge +onlyGivenNames x1
  refine Keeps.ite (fun _ => ?_) (fun _ => ?_)
  · exact Keeps.refl _ _
  · refine Keeps.after (State.emit_keeps _ _) (by decide) ?_
    refine Keeps.after (State.setQc_keeps _ _ _) (by decide) ?_
    exact Keeps.refl _ _

theorem State.acked_keeps (s : State) (n : Nat) (seq : BitVec 8) :
    Keeps [.med] s (State.acked s n seq) := by
  unfold State.acked
  extract_lets -merge +onlyGivenNames x1
  extract_lets -merge +onlyGivenNames x2
  refine Keeps.ite (fun _ => ?_) (fun _ => ?_)
  · extract_lets -merge +onlyGivenNames x3
    refine Keeps.after (State.setQc_keeps _ _ _) (by decide) ?_
    exact Keeps.refl _ _
  · exact Keeps.refl _ _

theorem State.startRecovery_keeps (s : State) (n : Nat) (full : Bool) (soft : Bool) :
    Keeps [.med, .out] s (State.startRecovery s n full soft) := by
  unfold State.startRecovery
  extract_lets -merge +onlyGivenNames x1
  extract_lets -merge +onlyGivenNames x2
  extract_lets -merge +onlyGivenNames x3
  refine Keeps.of_let x3 ?_ (fun h3 => ?_)
  · unfold x3
    refine Keeps.after (State.setQc_keeps _ _ _) (by decide) ?_
    exact Keeps.refl _ _
  · refine Keeps.after (State.emit_keeps _ _) (by decide) ?_
    exact h3

theorem State.startReplay_keeps (s : State) (n : Nat) :
    Keeps [.regs, .med, .out] s (State.startReplay s n).1 := by
  unfold State.startReplay
  extract_lets -merge +onlyGivenNames x1
  extract_lets -merge +onlyGivenNames x2
  extract_lets -merge +onlyGivenNames x3
  refine Keeps.of_let x3 ?_ (fun h3 => ?_)
  · unfold x3
    refine Keeps.after (State.emit_keeps _ _) (by decide) ?_
    refine Keeps.after (State.setQc_keeps _ _ _) (by decide) ?_
    refine Keeps.after (State.bump_keeps _ _ _ _ _ _) (by decide) ?_
    exact Keeps.refl _ _
  · dsimp only
    exact h3

theorem State.judgeTemp_keeps (s : State) (g : Nat) :
    Keeps [.regs, .evt, .evr, .chans, .med, .cxl, .out] s (State.judgeTemp s g) := by
  unfold State.judgeTemp
  extract_lets -merge +onlyGivenNames x1
  extract_lets -merge +onlyGivenNames x2
  extract_lets -merge +onlyGivenNames x3
  extract_lets -merge +onlyGivenNames x4
  extract_lets -merge +onlyGivenNames x5
  refine Keeps.of_let x5 ?_ (fun h5 => ?_)
  · unfold x5
    refine Keeps.after (State.judgeQg_keeps _ _) (by decide) ?_
    refine Keeps.after (State.setQg_keeps _ _ _) (by decide) ?_
    exact Keeps.refl _ _
  · refine Keeps.foldl _ (fun _ _ => ?_) ?_
    · refine Keeps.after (State.pump_keeps _ _) (by decide) ?_
      exact Keeps.refl _ _
    · exact h5

end Sys2Proof.Machine
end

