-- ==== Sys2Proof/Laws/Frame2.lean ====
section
/-! SUPPORT. What each operation and command of XltOps, ZoneOps, TandemFrames, HostBase, BenchOps, Records, MapOps, HostOps, FlowOps can change: every other part of the state stays. -/

namespace Sys2Proof.Machine

/-! ### XltOps -/

theorem State.setBench_keeps (s : State) (b : Bench) :
    Keeps [.bench] s (State.setBench s b) := by
  unfold State.setBench
  refine Keeps.set_bench (by decide) ?_
  exact Keeps.refl _ _

theorem State.setXlt_keeps (s : State) (x : Xlt) :
    Keeps [.xlt] s (State.setXlt s x) := by
  unfold State.setXlt
  refine Keeps.set_xlt (by decide) ?_
  exact Keeps.refl _ _

theorem State.setTwin_keeps (s : State) (t : Twin) :
    Keeps [.twin] s (State.setTwin s t) := by
  unfold State.setTwin
  refine Keeps.set_twin (by decide) ?_
  exact Keeps.refl _ _

theorem State.setRegion_keeps (s : State) (r : Nat) (v : Region) :
    Keeps [.xlt] s (State.setRegion s r v) := by
  unfold State.setRegion
  refine Keeps.after (State.setXlt_keeps _ _) (by decide) ?_
  exact Keeps.refl _ _

theorem State.setRt_keeps (s : State) (r : Nat) (v : RTwin) :
    Keeps [.twin] s (State.setRt s r v) := by
  unfold State.setRt
  refine Keeps.after (State.setTwin_keeps _ _) (by decide) ?_
  exact Keeps.refl _ _

theorem State.judgeXlt_keeps (s : State) :
    Keeps [.regs, .evt, .evr, .chans, .cxl, .out] s (State.judgeXlt s) := by
  unfold State.judgeXlt
  extract_lets -merge +onlyGivenNames x1
  extract_lets -merge +onlyGivenNames x2
  refine Keeps.of_let x2 ?_ (fun h2 => ?_)
  · unfold x2
    unfold x1
    refine Keeps.after (State.level_keeps _ _ _ _ _ _ _) (by decide) ?_
    exact Keeps.refl _ _
  · extract_lets -merge +onlyGivenNames x3
    refine Keeps.of_let x3 ?_ (fun h3 => ?_)
    · unfold x3
      unfold x1
      refine Keeps.after (State.level_keeps _ _ _ _ _ _ _) (by decide) ?_
      exact h2
    · extract_lets -merge +onlyGivenNames x4
      refine Keeps.of_let x4 ?_ (fun h4 => ?_)
      · unfold x4
        unfold x1
        refine Keeps.after (State.level_keeps _ _ _ _ _ _ _) (by decide) ?_
        exact h3
      · extract_lets -merge +onlyGivenNames x5
        refine Keeps.of_let x5 ?_ (fun h5 => ?_)
        · unfold x5
          unfold x1
          refine Keeps.after (State.level_keeps _ _ _ _ _ _ _) (by decide) ?_
          exact h4
        · extract_lets -merge +onlyGivenNames x6
          refine Keeps.of_let x6 ?_ (fun h6 => ?_)
          · unfold x6
            unfold x1
            refine Keeps.after (State.level_keeps _ _ _ _ _ _ _) (by decide) ?_
            exact h5
          · unfold x1
            refine Keeps.after (State.level_keeps _ _ _ _ _ _ _) (by decide) ?_
            exact h6

theorem State.journalPart_keeps (s : State) (k : JKey) (part : Nat) :
    Keeps [.xlt] s (State.journalPart s k part) := by
  unfold State.journalPart
  extract_lets -merge +onlyGivenNames x1
  extract_lets -merge +onlyGivenNames x2
  refine Keeps.after (State.setXlt_keeps _ _) (by decide) ?_
  exact Keeps.refl _ _

theorem State.journal_keeps (s : State) (k : JKey) :
    Keeps [.regs, .evt, .evr, .chans, .xlt, .cxl, .out] s (State.journal s k) := by
  unfold State.journal
  extract_lets -merge +onlyGivenNames x1
  refine Keeps.of_let x1 ?_ (fun h1 => ?_)
  · unfold x1
    refine Keeps.foldl _ (fun _ _ => ?_) ?_
    · refine Keeps.after (State.journalPart_keeps _ _ _) (by decide) ?_
      exact Keeps.refl _ _
    · exact Keeps.refl _ _
  · refine Keeps.after (State.judgeXlt_keeps _) (by decide) ?_
    refine Keeps.ite (fun _ => ?_) (fun _ => ?_)
    · refine Keeps.after (State.setXlt_keeps _ _) (by decide) ?_
      exact h1
    · exact h1

theorem State.journalYoung_keeps (s : State) (n : Nat) (old : List Young) :
    Keeps [.regs, .evt, .evr, .chans, .xlt, .cxl, .out] s (State.journalYoung s n old) := by
  unfold State.journalYoung
  extract_lets -merge +onlyGivenNames x1
  refine Keeps.foldl _ (fun _ _ => ?_) ?_
  · refine Keeps.after (State.journal_keeps _ _) (by decide) ?_
    exact Keeps.refl _ _
  · exact Keeps.refl _ _

theorem State.putSett_keeps (s : State) (n : Nat) (v : Sett) :
    Keeps [.regs, .evt, .evr, .chans, .med, .xlt, .cxl, .out] s (State.putSett s n v) := by
  unfold State.putSett
  refine Keeps.after (State.journal_keeps _ _) (by decide) ?_
  refine Keeps.after (State.setSett_keeps _ _ _) (by decide) ?_
  exact Keeps.refl _ _

theorem State.putRt_keeps (s : State) (r : Nat) (v : RTwin) :
    Keeps [.regs, .evt, .evr, .chans, .xlt, .twin, .cxl, .out] s (State.putRt s r v) := by
  unfold State.putRt
  refine Keeps.after (State.journal_keeps _ _) (by decide) ?_
  refine Keeps.after (State.setRt_keeps _ _ _) (by decide) ?_
  exact Keeps.refl _ _

theorem State.judgeBench_keeps (s : State) :
    Keeps [.regs, .evt, .evr, .chans, .bench, .cxl, .out] s (State.judgeBench s) := by
  unfold State.judgeBench
  extract_lets -merge +onlyGivenNames x1
  extract_lets -merge +onlyGivenNames x2
  extract_lets -merge +onlyGivenNames x3
  extract_lets -merge +onlyGivenNames x4
  extract_lets -merge +onlyGivenNames x5
  refine Keeps.of_let x5 ?_ (fun h5 => ?_)
  · unfold x5
    refine Keeps.after (State.setBench_keeps _ _) (by decide) ?_
    exact Keeps.refl _ _
  · extract_lets -merge +onlyGivenNames x6
    extract_lets -merge +onlyGivenNames x7
    extract_lets -merge +onlyGivenNames x8
    refine Keeps.of_let x8 ?_ (fun h8 => ?_)
    · unfold x8
      unfold x6
      refine Keeps.after (State.level_keeps _ _ _ _ _ _ _) (by decide) ?_
      exact h5
    · extract_lets -merge +onlyGivenNames x9
      refine Keeps.of_let x9 ?_ (fun h9 => ?_)
      · unfold x9
        unfold x6
        refine Keeps.after (State.level_keeps _ _ _ _ _ _ _) (by decide) ?_
        exact h8
      · extract_lets -merge +onlyGivenNames x10
        refine Keeps.of_let x10 ?_ (fun h10 => ?_)
        · unfold x10
          unfold x6
          refine Keeps.after (State.level_keeps _ _ _ _ _ _ _) (by decide) ?_
          exact h9
        · extract_lets -merge +onlyGivenNames x11
          refine Keeps.of_let x11 ?_ (fun h11 => ?_)
          · unfold x11
            unfold x6
            refine Keeps.after (State.level_keeps _ _ _ _ _ _ _) (by decide) ?_
            exact h10
          · unfold x6
            refine Keeps.after (State.level_keeps _ _ _ _ _ _ _) (by decide) ?_
            exact h11

theorem State.judgeTdm_keeps (s : State) :
    Keeps [.regs, .evt, .evr, .chans, .cxl, .out] s (State.judgeTdm s) := by
  unfold State.judgeTdm
  extract_lets -merge +onlyGivenNames x1
  extract_lets -merge +onlyGivenNames x2
  extract_lets -merge +onlyGivenNames x3
  extract_lets -merge +onlyGivenNames x4
  extract_lets -merge +onlyGivenNames x5
  refine Keeps.of_let x5 ?_ (fun h5 => ?_)
  · unfold x5
    unfold x1
    refine Keeps.after (State.level_keeps _ _ _ _ _ _ _) (by decide) ?_
    exact Keeps.refl _ _
  · extract_lets -merge +onlyGivenNames x6
    refine Keeps.of_let x6 ?_ (fun h6 => ?_)
    · unfold x6
      unfold x1
      refine Keeps.after (State.level_keeps _ _ _ _ _ _ _) (by decide) ?_
      exact h5
    · extract_lets -merge +onlyGivenNames x7
      refine Keeps.of_let x7 ?_ (fun h7 => ?_)
      · unfold x7
        unfold x1
        refine Keeps.after (State.level_keeps _ _ _ _ _ _ _) (by decide) ?_
        exact h6
      · extract_lets -merge +onlyGivenNames x8
        refine Keeps.of_let x8 ?_ (fun h8 => ?_)
        · unfold x8
          unfold x1
          refine Keeps.after (State.level_keeps _ _ _ _ _ _ _) (by decide) ?_
          exact h7
        · extract_lets -merge +onlyGivenNames x9
          refine Keeps.of_let x9 ?_ (fun h9 => ?_)
          · unfold x9
            unfold x1
            refine Keeps.after (State.level_keeps _ _ _ _ _ _ _) (by decide) ?_
            exact h8
          · extract_lets -merge +onlyGivenNames x10
            refine Keeps.of_let x10 ?_ (fun h10 => ?_)
            · unfold x10
              unfold x1
              refine Keeps.after (State.level_keeps _ _ _ _ _ _ _) (by decide) ?_
              exact h9
            · unfold x1
              refine Keeps.after (State.level_keeps _ _ _ _ _ _ _) (by decide) ?_
              exact h10

/-! ### ZoneOps -/

theorem wearAdd_keeps (s : State) (c : BitVec 16) :
    Keeps [.fresh] s (wearAdd s c).1 := by
  unfold wearAdd
  extract_lets -merge +onlyGivenNames x1
  refine Keeps.ite_fst (fun _ => ?_) (fun _ => ?_)
  · dsimp only
    exact Keeps.refl _ _
  · extract_lets -merge +onlyGivenNames x2
    dsimp only
    refine Keeps.after (State.draw_keeps _) (by decide) ?_
    exact Keeps.refl _ _

theorem State.setZone_keeps (s : State) (d : Nat) (z : Nat) (v : Zone) :
    Keeps [.med] s (State.setZone s d z v) := by
  unfold State.setZone
  refine Keeps.after (State.setMed_keeps _ _) (by decide) ?_
  exact Keeps.refl _ _

theorem State.takeSlot_keeps (s : State) (p : Phys) (m : Mode) :
    Keeps [.regs, .evt, .evr, .chans, .med, .xlt, .cxl, .out] s (State.takeSlot s p m).1 := by
  unfold State.takeSlot
  extract_lets -merge +onlyGivenNames x1
  extract_lets -merge +onlyGivenNames x2
  extract_lets -merge +onlyGivenNames x3
  extract_lets -merge +onlyGivenNames x4
  extract_lets -merge +onlyGivenNames x5
  extract_lets -merge +onlyGivenNames x6
  extract_lets -merge +onlyGivenNames x7
  extract_lets -merge +onlyGivenNames x8
  extract_lets -merge +onlyGivenNames x9
  extract_lets -merge +onlyGivenNames x10
  refine Keeps.of_let x10 ?_ (fun h10 => ?_)
  · unfold x10
    refine Keeps.after (State.setMed_keeps _ _) (by decide) ?_
    exact Keeps.refl _ _
  · extract_lets -merge +onlyGivenNames x11
    extract_lets -merge +onlyGivenNames x12
    refine Keeps.of_let x12 ?_ (fun h12 => ?_)
    · unfold x12
      refine Keeps.after (State.setZone_keeps _ _ _ _) (by decide) ?_
      refine Keeps.after (State.setQc_keeps _ _ _) (by decide) ?_
      exact h10
    · extract_lets -merge +onlyGivenNames x13
      refine Keeps.of_let x13 ?_ (fun h13 => ?_)
      · unfold x13
        refine Keeps.ite (fun _ => ?_) (fun _ => ?_)
        · refine Keeps.after (State.issue_keeps _ _ _) (by decide) ?_
          exact h12
        · exact h12
      · extract_lets -merge +onlyGivenNames x14
        extract_lets -merge +onlyGivenNames x15
        refine Keeps.of_let x15 ?_ (fun h15 => ?_)
        · unfold x15
          refine Keeps.ite (fun _ => ?_) (fun _ => ?_)
          · refine Keeps.after (State.setDie_keeps _ _ _) (by decide) ?_
            exact h13
          · exact h13
        · dsimp only
          refine Keeps.after (State.journal_keeps _ _) (by decide) ?_
          refine Keeps.after (State.journal_keeps _ _) (by decide) ?_
          exact h15

theorem State.leaveSlot_keeps (s : State) (p : Phys) (wear : BitVec 16) (spoil : Bool) :
    Keeps [.regs, .evt, .evr, .chans, .med, .xlt, .cxl, .out] s (State.leaveSlot s p wear spoil) := by
  unfold State.leaveSlot
  extract_lets -merge +onlyGivenNames x1
  extract_lets -merge +onlyGivenNames x2
  extract_lets -merge +onlyGivenNames x3
  refine Keeps.of_let x3 ?_ (fun h3 => ?_)
  · unfold x3
    refine Keeps.after (State.journal_keeps _ _) (by decide) ?_
    refine Keeps.after (State.setZone_keeps _ _ _ _) (by decide) ?_
    exact Keeps.refl _ _
  · refine Keeps.after (State.journal_keeps _ _) (by decide) ?_
    exact h3

theorem State.setSlotWear_keeps (s : State) (p : Phys) (w : BitVec 16) :
    Keeps [.med] s (State.setSlotWear s p w) := by
  unfold State.setSlotWear
  extract_lets -merge +onlyGivenNames x1
  refine Keeps.after (State.setZone_keeps _ _ _ _) (by decide) ?_
  exact Keeps.refl _ _

theorem State.judgeYrw_keeps (s : State) :
    Keeps [.regs, .evt, .evr, .chans, .cxl, .out] s (State.judgeYrw s) := by
  unfold State.judgeYrw
  extract_lets -merge +onlyGivenNames x1
  extract_lets -merge +onlyGivenNames x2
  extract_lets -merge +onlyGivenNames x3
  extract_lets -merge +onlyGivenNames x4
  extract_lets -merge +onlyGivenNames x5
  extract_lets -merge +onlyGivenNames x6
  refine Keeps.ite (fun _ => ?_) (fun _ => ?_)
  · exact Keeps.refl _ _
  · refine Keeps.after (State.cause_keeps _ _ _ _ _) (by decide) ?_
    refine Keeps.after (State.setFld_keeps _ _ _ _ _ _) (by decide) ?_
    exact Keeps.refl _ _


/-! ### HostBase -/

theorem State.setLd_keeps (s : State) (p : Fin 4) (l : Fin 16) (v : Ld) :
    Keeps [.cxl] s (State.setLd s p l v) := by
  unfold State.setLd
  refine Keeps.set_cxl (by decide) ?_
  exact Keeps.refl _ _

theorem State.setCport_keeps (s : State) (p : Fin 4) (v : CxlPort) :
    Keeps [.cxl] s (State.setCport s p v) := by
  unfold State.setCport
  refine Keeps.set_cxl (by decide) ?_
  exact Keeps.refl _ _

theorem State.setQp_keeps (s : State) (n : Nat) (v : Qp) :
    Keeps [.rdma] s (State.setQp s n v) := by
  unfold State.setQp
  refine Keeps.set_rdma (by decide) ?_
  exact Keeps.refl _ _

theorem State.ldRecord_keeps (s : State) (p : Fin 4) (l : Fin 16) (k : LogKind) (what : LdEvent) (dpa : Nat) :
    Keeps [.cxl, .out] s (State.ldRecord s p l k what dpa) := by
  unfold State.ldRecord
  extract_lets -merge +onlyGivenNames x1
  extract_lets -merge +onlyGivenNames x2
  refine Keeps.of_let x2 ?_ (fun h2 => ?_)
  · unfold x2
    refine Keeps.ite (fun _ => ?_) (fun _ => ?_)
    · refine Keeps.after (State.setLd_keeps _ _ _ _) (by decide) ?_
      exact Keeps.refl _ _
    · refine Keeps.after (State.setLd_keeps _ _ _ _) (by decide) ?_
      exact Keeps.refl _ _
  · refine Keeps.after (State.msixSend_keeps _ _ _ _) (by decide) ?_
    exact h2

theorem State.cxlDrop_keeps (s : State) (p : Fin 4) (l : Fin 16) (tag : Nat) (dpa : Nat) :
    Keeps [.regs, .evt, .evr, .chans, .cxl, .out] s (State.cxlDrop s p l tag dpa) := by
  unfold State.cxlDrop
  refine Keeps.after (State.emit_keeps _ _) (by decide) ?_
  refine Keeps.after (State.ldRecord_keeps _ _ _ _ _ _) (by decide) ?_
  refine Keeps.after (State.cause_keeps _ _ _ _ _) (by decide) ?_
  refine Keeps.after (State.bump_keeps _ _ _ _ _ _) (by decide) ?_
  exact Keeps.refl _ _

theorem State.cxlPoison_keeps (s : State) (p : Fin 4) (l : Fin 16) (tag : Nat) (dpa : Nat) :
    Keeps [.regs, .evt, .evr, .chans, .cxl, .out] s (State.cxlPoison s p l tag dpa) := by
  unfold State.cxlPoison
  refine Keeps.after (State.emit_keeps _ _) (by decide) ?_
  refine Keeps.after (State.ldRecord_keeps _ _ _ _ _ _) (by decide) ?_
  refine Keeps.after (State.cause_keeps _ _ _ _ _) (by decide) ?_
  refine Keeps.after (State.bump_keeps _ _ _ _ _ _) (by decide) ?_
  exact Keeps.refl _ _

theorem State.cxlNotHere_keeps (s : State) (p : Fin 4) (l : Fin 16) (region : Nat) (dpa : Nat) :
    Keeps [.regs, .evt, .evr, .chans, .twin, .cxl, .out] s (State.cxlNotHere s p l region dpa) := by
  unfold State.cxlNotHere
  extract_lets -merge +onlyGivenNames x1
  refine Keeps.of_let x1 ?_ (fun h1 => ?_)
  · unfold x1
    refine Keeps.after (State.cause_keeps _ _ _ _ _) (by decide) ?_
    refine Keeps.after (State.bump_keeps _ _ _ _ _ _) (by decide) ?_
    exact Keeps.refl _ _
  · extract_lets -merge +onlyGivenNames x2
    extract_lets -merge +onlyGivenNames x3
    refine Keeps.ite (fun _ => ?_) (fun _ => ?_)
    · refine Keeps.after (State.ldRecord_keeps _ _ _ _ _ _) (by decide) ?_
      refine Keeps.after (State.setRt_keeps _ _ _) (by decide) ?_
      exact h1
    · exact h1

theorem State.nak_keeps (s : State) (n : Nat) (psn : BitVec 24) (code : Fin 5) :
    Keeps [.regs, .out] s (State.nak s n psn code) := by
  unfold State.nak
  refine Keeps.after (State.emit_keeps _ _) (by decide) ?_
  refine Keeps.after (State.bump_keeps _ _ _ _ _ _) (by decide) ?_
  exact Keeps.refl _ _

theorem State.qpError_keeps (s : State) (n : Nat) (reason : State.DreqReason) (region : Nat) :
    Keeps [.regs, .evt, .evr, .chans, .cxl, .rdma, .out] s (State.qpError s n reason region) := by
  unfold State.qpError
  extract_lets -merge +onlyGivenNames x1
  refine Keeps.ite (fun _ => ?_) (fun _ => ?_)
  · exact Keeps.refl _ _
  · extract_lets -merge +onlyGivenNames x2
    refine Keeps.of_let x2 ?_ (fun h2 => ?_)
    · unfold x2
      refine Keeps.after (State.cause_keeps _ _ _ _ _) (by decide) ?_
      refine Keeps.after (State.setQp_keeps _ _ _) (by decide) ?_
      exact Keeps.refl _ _
    · extract_lets -merge +onlyGivenNames x3
      refine Keeps.of_let x3 ?_ (fun h3 => ?_)
      · unfold x3
        split
        · refine Keeps.after (State.cause_keeps _ _ _ _ _) (by decide) ?_
          exact h2
        · refine Keeps.after (State.cause_keeps _ _ _ _ _) (by decide) ?_
          exact h2
        · refine Keeps.after (State.cause_keeps _ _ _ _ _) (by decide) ?_
          exact h2
        · exact h2
      · refine Keeps.after (State.emit_keeps _ _) (by decide) ?_
        exact h3

theorem State.qpFatal_keeps (s : State) (n : Nat) (psn : BitVec 24) (code : Fin 5) (reason : State.DreqReason) (region : Nat) :
    Keeps [.regs, .evt, .evr, .chans, .cxl, .rdma, .out] s (State.qpFatal s n psn code reason region) := by
  unfold State.qpFatal
  extract_lets -merge +onlyGivenNames x1
  refine Keeps.ite (fun _ => ?_) (fun _ => ?_)
  · exact Keeps.refl _ _
  · extract_lets -merge +onlyGivenNames x2
    refine Keeps.of_let x2 ?_ (fun h2 => ?_)
    · unfold x2
      refine Keeps.after (State.nak_keeps _ _ _ _) (by decide) ?_
      exact Keeps.refl _ _
    · extract_lets -merge +onlyGivenNames x3
      refine Keeps.of_let x3 ?_ (fun h3 => ?_)
      · unfold x3
        refine Keeps.ite (fun _ => ?_) (fun _ => ?_)
        · refine Keeps.after (State.cause_keeps _ _ _ _ _) (by decide) ?_
          exact h2
        · exact h2
      · refine Keeps.after (State.qpError_keeps _ _ _ _) (by decide) ?_
        exact h3

theorem State.readPart_keeps (s : State) (n : Nat) (psn : BitVec 24) :
    Keeps [.rdma] s (State.readPart s n psn) := by
  unfold State.readPart
  extract_lets -merge +onlyGivenNames x1
  refine Keeps.after (State.setQp_keeps _ _ _) (by decide) ?_
  exact Keeps.refl _ _

theorem State.setTport_keeps (s : State) (p : Bool) (v : TPort) :
    Keeps [.twin] s (State.setTport s p v) := by
  unfold State.setTport
  refine Keeps.after (State.setTwin_keeps _ _) (by decide) ?_
  exact Keeps.refl _ _

theorem State.tsend_keeps (s : State) (port : Bool) (b : TBody) :
    Keeps [.twin, .out] s (State.tsend s port b) := by
  unfold State.tsend
  extract_lets -merge +onlyGivenNames x1
  refine Keeps.ite (fun _ => ?_) (fun _ => ?_)
  · unfold x1
    extract_lets -merge +onlyGivenNames x2
    refine Keeps.after (State.emit_keeps _ _) (by decide) ?_
    refine Keeps.after (State.setTport_keeps _ _ _) (by decide) ?_
    exact Keeps.refl _ _
  · refine Keeps.ite (fun _ => ?_) (fun _ => ?_)
    · unfold x1
      extract_lets -merge +onlyGivenNames x2
      refine Keeps.after (State.emit_keeps _ _) (by decide) ?_
      refine Keeps.after (State.setTport_keeps _ _ _) (by decide) ?_
      exact Keeps.refl _ _
    · exact Keeps.refl _ _

theorem State.resyncSend_keeps (s : State) (e : WEntry) (last : Bool) :
    Keeps [.twin, .out] s (State.resyncSend s e last) := by
  unfold State.resyncSend
  refine Keeps.after (State.tsend_keeps _ _ _) (by decide) ?_
  refine Keeps.after (State.setTwin_keeps _ _) (by decide) ?_
  exact Keeps.refl _ _

theorem State.flushReplies_keeps (s : State) (t : Word) (a2 : Nat) :
    Keeps [.twin, .out] s (State.flushReplies s t a2) := by
  induction a2 generalizing s t
  · unfold State.flushReplies
    exact Keeps.refl _ _
  · rename_i x ih
    unfold State.flushReplies
    split
    · exact Keeps.refl _ _
    · split
      · exact Keeps.refl _ _
      · refine Keeps.trans ?_ (ih _ _)
        refine Keeps.after (State.tsend_keeps _ _ _) (by decide) ?_
        refine Keeps.after (State.setTwin_keeps _ _) (by decide) ?_
        exact Keeps.refl _ _

theorem State.fillReply_keeps (s : State) (t : Word) (x : Nat) (st : AssistStatus) :
    Keeps [.twin, .out] s (State.fillReply s t x st) := by
  unfold State.fillReply
  refine Keeps.after (State.flushReplies_keeps _ _ _) (by decide) ?_
  refine Keeps.after (State.setTwin_keeps _ _) (by decide) ?_
  exact Keeps.refl _ _

theorem State.respond_keeps (s : State) (r : HostRead) (d : Option Line) :
    Keeps [.regs, .evt, .evr, .chans, .twin, .cxl, .rdma, .out] s (State.respond s r d) := by
  unfold State.respond
  split
  · refine Keeps.after (State.emit_keeps _ _) (by decide) ?_
    exact Keeps.refl _ _
  · refine Keeps.after (State.cxlPoison_keeps _ _ _ _ _) (by decide) ?_
    exact Keeps.refl _ _
  · refine Keeps.ite (fun _ => ?_) (fun _ => ?_)
    · exact Keeps.refl _ _
    · refine Keeps.after (State.readPart_keeps _ _ _) (by decide) ?_
      refine Keeps.after (State.emit_keeps _ _) (by decide) ?_
      exact Keeps.refl _ _
  · refine Keeps.after (State.qpFatal_keeps _ _ _ _ _ _) (by decide) ?_
    exact Keeps.refl _ _
  · refine Keeps.ite (fun _ => ?_) (fun _ => ?_)
    · exact Keeps.refl _ _
    · refine Keeps.after (State.emit_keeps _ _) (by decide) ?_
      exact Keeps.refl _ _
  · extract_lets -merge +onlyGivenNames x1
    refine Keeps.after (State.setQp_keeps _ _ _) (by decide) ?_
    exact Keeps.refl _ _
  · refine Keeps.after (State.fillReply_keeps _ _ _ _) (by decide) ?_
    exact Keeps.refl _ _
  · refine Keeps.after (State.fillReply_keeps _ _ _ _) (by decide) ?_
    exact Keeps.refl _ _
  · extract_lets -merge +onlyGivenNames x1
    refine Keeps.after (State.resyncSend_keeps _ _ _) (by decide) ?_
    exact Keeps.refl _ _
  · exact Keeps.refl _ _

theorem State.setStageWord_keeps (s : State) (c : Nat) (i : Nat) (w : Word) :
    Keeps [.chans] s (State.setStageWord s c i w) := by
  unfold State.setStageWord
  extract_lets -merge +onlyGivenNames x1
  refine Keeps.after (State.setChan_keeps _ _ _) (by decide) ?_
  exact Keeps.refl _ _

theorem State.stageWords_keeps (s : State) (c : Nat) (i : Nat) (ws : List Word) :
    Keeps [.chans] s (State.stageWords s c i ws) := by
  unfold State.stageWords
  refine Keeps.foldl_fst _ (fun _ _ => ?_) ?_
  · dsimp only
    refine Keeps.after (State.setStageWord_keeps _ _ _ _) (by decide) ?_
    exact Keeps.refl _ _
  · dsimp only
    exact Keeps.refl _ _

theorem State.putStageChunk_keeps (s : State) (c : Nat) (off : Nat) (mask : BitVec 64) (d : Chunk) :
    Keeps [.chans] s (State.putStageChunk s c off mask d) := by
  unfold State.putStageChunk
  refine Keeps.foldl _ (fun _ _ => ?_) ?_
  · extract_lets -merge +onlyGivenNames x1
    refine Keeps.ite (fun _ => ?_) (fun _ => ?_)
    · exact Keeps.refl _ _
    · extract_lets -merge +onlyGivenNames x2
      refine Keeps.after (State.setStageWord_keeps _ _ _ _) (by decide) ?_
      exact Keeps.refl _ _
  · exact Keeps.refl _ _

theorem State.setStageByte_keeps (s : State) (c : Nat) (i : Nat) (b : Byte) :
    Keeps [.chans] s (State.setStageByte s c i b) := by
  unfold State.setStageByte
  extract_lets -merge +onlyGivenNames x1
  extract_lets -merge +onlyGivenNames x2
  refine Keeps.after (State.setStageWord_keeps _ _ _ _) (by decide) ?_
  exact Keeps.refl _ _

theorem State.putStageLine_keeps (s : State) (k : Nat) (mask : BitVec 256) (d : Line) :
    Keeps [.chans] s (State.putStageLine s k mask d) := by
  unfold State.putStageLine
  refine Keeps.foldl _ (fun _ _ => ?_) ?_
  · refine Keeps.after (State.putStageChunk_keeps _ _ _ _ _) (by decide) ?_
    exact Keeps.refl _ _
  · exact Keeps.refl _ _

/-! ### BenchOps -/

theorem State.setBline_keeps (s : State) (x : Nat) (v : Option BLine) :
    Keeps [.bench] s (State.setBline s x v) := by
  unfold State.setBline
  refine Keeps.after (State.setBench_keeps _ _) (by decide) ?_
  exact Keeps.refl _ _

theorem State.touch_keeps (s : State) (x : Nat) :
    Keeps [.bench] s (State.touch s x) := by
  unfold State.touch
  split
  · exact Keeps.refl _ _
  · extract_lets -merge +onlyGivenNames x1
    refine Keeps.after (State.setBench_keeps _ _) (by decide) ?_
    exact Keeps.refl _ _

theorem State.dropLine_keeps (s : State) (x : Nat) :
    Keeps [.bench, .sec] s (State.dropLine s x) := by
  unfold State.dropLine
  extract_lets -merge +onlyGivenNames x1
  refine Keeps.of_let x1 ?_ (fun h1 => ?_)
  · unfold x1
    refine Keeps.after (State.setBline_keeps _ _ _) (by decide) ?_
    exact Keeps.refl _ _
  · extract_lets -merge +onlyGivenNames x2
    extract_lets -merge +onlyGivenNames x3
    refine Keeps.of_let x3 ?_ (fun h3 => ?_)
    · unfold x3
      refine Keeps.set_sec (by decide) rfl ?_
      exact h1
    · refine Keeps.after (State.setBench_keeps _ _) (by decide) ?_
      exact h3

theorem State.notePartial_keeps (s : State) (x : Nat) :
    Keeps [.bench] s (State.notePartial s x) := by
  unfold State.notePartial
  extract_lets -merge +onlyGivenNames x1
  refine Keeps.ite (fun _ => ?_) (fun _ => ?_)
  · refine Keeps.after (State.setBench_keeps _ _) (by decide) ?_
    exact Keeps.refl _ _
  · refine Keeps.ite (fun _ => ?_) (fun _ => ?_)
    · refine Keeps.after (State.setBench_keeps _ _) (by decide) ?_
      exact Keeps.refl _ _
    · exact Keeps.refl _ _

theorem State.lossRecord_keeps (s : State) (r : Nat) (rl : Nat) :
    Keeps [.regs, .evt, .evr, .chans, .cxl, .out] s (State.lossRecord s r rl) := by
  unfold State.lossRecord
  refine Keeps.after (State.deviceRecord_keeps _ _ _) (by decide) ?_
  refine Keeps.after (State.deviceRecord_keeps _ _ _) (by decide) ?_
  exact Keeps.refl _ _

theorem State.lose_keeps (s : State) (r : Nat) (rl : Nat) (m : BitVec 4) :
    Keeps [.regs, .evt, .evr, .chans, .med, .xlt, .cxl, .out] s (State.lose s r rl m) := by
  unfold State.lose
  extract_lets -merge +onlyGivenNames x1
  refine Keeps.after (State.lossRecord_keeps _ _ _) (by decide) ?_
  refine Keeps.after (State.journal_keeps _ _) (by decide) ?_
  refine Keeps.after (State.setMed_keeps _ _) (by decide) ?_
  exact Keeps.refl _ _

theorem State.unlose_keeps (s : State) (r : Nat) (rl : Nat) :
    Keeps [.regs, .evt, .evr, .chans, .med, .xlt, .cxl, .out] s (State.unlose s r rl) := by
  unfold State.unlose
  split
  · refine Keeps.after (State.journal_keeps _ _) (by decide) ?_
    refine Keeps.after (State.setMed_keeps _ _) (by decide) ?_
    exact Keeps.refl _ _
  · exact Keeps.refl _ _

theorem State.lossWrite_keeps (s : State) (r : Nat) (rl : Nat) (m : BitVec 4) :
    Keeps [.regs, .evt, .evr, .chans, .med, .xlt, .cxl, .out] s (State.lossWrite s r rl m) := by
  unfold State.lossWrite
  split
  · exact Keeps.refl _ _
  · extract_lets -merge +onlyGivenNames x1
    refine Keeps.ite (fun _ => ?_) (fun _ => ?_)
    · refine Keeps.after (State.unlose_keeps _ _ _) (by decide) ?_
      exact Keeps.refl _ _
    · refine Keeps.ite (fun _ => ?_) (fun _ => ?_)
      · exact Keeps.refl _ _
      · refine Keeps.after (State.journal_keeps _ _) (by decide) ?_
        refine Keeps.after (State.setMed_keeps _ _) (by decide) ?_
        exact Keeps.refl _ _

theorem State.dropMark_keeps (s : State) (x : Nat) :
    Keeps [.bench] s (State.dropMark s x) := by
  unfold State.dropMark
  refine Keeps.after (State.setBench_keeps _ _) (by decide) ?_
  exact Keeps.refl _ _

theorem State.dropClear_keeps (s : State) (x : Nat) (m : BitVec 4) :
    Keeps [.bench] s (State.dropClear s x m) := by
  unfold State.dropClear
  extract_lets -merge +onlyGivenNames x1
  refine Keeps.ite (fun _ => ?_) (fun _ => ?_)
  · exact Keeps.refl _ _
  · refine Keeps.after (State.setBench_keeps _ _) (by decide) ?_
    exact Keeps.refl _ _

theorem State.programLine_keeps (s : State) (x : Nat) (p : Phys) (m : Mode) (gen : BitVec 24) (lrot : BitVec 8) (d : Line) (u : QmiUser) :
    Keeps [.med, .out] s (State.programLine s x p m gen lrot d u) := by
  unfold State.programLine
  refine Keeps.after (State.issue_keeps _ _ _) (by decide) ?_
  exact Keeps.refl _ _

theorem State.senseLine_keeps (s : State) (x : Nat) (op : QmiOp) (delta : ℤ) (u : QmiUser) :
    Keeps [.med, .out] s (State.senseLine s x op delta u) := by
  unfold State.senseLine
  extract_lets -merge +onlyGivenNames x1
  extract_lets -merge +onlyGivenNames x2
  split
  · exact Keeps.refl _ _
  · refine Keeps.after (State.issue_keeps _ _ _) (by decide) ?_
    exact Keeps.refl _ _

theorem State.setPage_keeps (s : State) (n : Nat) (v : Option Page) :
    Keeps [.xlt] s (State.setPage s n v) := by
  unfold State.setPage
  refine Keeps.after (State.setXlt_keeps _ _) (by decide) ?_
  exact Keeps.refl _ _

theorem State.pageWrite_keeps (s : State) (x : Nat) (d : Line) :
    Keeps [.xlt] s (State.pageWrite s x d) := by
  unfold State.pageWrite
  split
  · refine Keeps.ite (fun _ => ?_) (fun _ => ?_)
    · refine Keeps.after (State.setPage_keeps _ _ _) (by decide) ?_
      exact Keeps.refl _ _
    · exact Keeps.refl _ _
  · exact Keeps.refl _ _

theorem State.setYrw_keeps (s : State) (y : Yarrow) :
    Keeps [.med] s (State.setYrw s y) := by
  unfold State.setYrw
  refine Keeps.after (State.setMed_keeps _ _) (by decide) ?_
  exact Keeps.refl _ _

theorem State.setMove_keeps (s : State) (m : Move) :
    Keeps [.med] s (State.setMove s m) := by
  unfold State.setMove
  refine Keeps.after (State.setYrw_keeps _ _) (by decide) ?_
  exact Keeps.refl _ _

theorem State.endMove_keeps (s : State) (n : Nat) :
    Keeps [.med] s (State.endMove s n) := by
  unfold State.endMove
  refine Keeps.after (State.setYrw_keeps _ _) (by decide) ?_
  exact Keeps.refl _ _

theorem State.moveProgram_keeps (s : State) (m : Move) (l : Nat) (d : Line) :
    Keeps [.med, .bench, .xlt, .out] s (State.moveProgram s m l d) := by
  unfold State.moveProgram
  extract_lets -merge +onlyGivenNames x1
  extract_lets -merge +onlyGivenNames x2
  extract_lets -merge +onlyGivenNames x3
  refine Keeps.of_let x3 ?_ (fun h3 => ?_)
  · unfold x3
    refine Keeps.after (State.setMove_keeps _ _) (by decide) ?_
    exact Keeps.refl _ _
  · extract_lets -merge +onlyGivenNames x4
    refine Keeps.of_let x4 ?_ (fun h4 => ?_)
    · unfold x4
      split
      · refine Keeps.ite (fun _ => ?_) (fun _ => ?_)
        · refine Keeps.after (State.setBline_keeps _ _ _) (by decide) ?_
          exact h3
        · exact h3
      · exact h3
    · extract_lets -merge +onlyGivenNames x5
      refine Keeps.of_let x5 ?_ (fun h5 => ?_)
      · unfold x5
        refine Keeps.after (State.pageWrite_keeps _ _ _) (by decide) ?_
        exact h4
      · split
        · refine Keeps.after (State.programLine_keeps _ _ _ _ _ _ _ _) (by decide) ?_
          exact h5
        · split
          · refine Keeps.after (State.programLine_keeps _ _ _ _ _ _ _ _) (by decide) ?_
            exact h5
          · exact h5

theorem State.moveLine_keeps (s : State) (n : Nat) (l : Nat) :
    Keeps [.med, .bench, .xlt, .out] s (State.moveLine s n l) := by
  unfold State.moveLine
  split
  · exact Keeps.refl _ _
  · refine Keeps.ite (fun _ => ?_) (fun _ => ?_)
    · exact Keeps.refl _ _
    · split
      · refine Keeps.after (State.moveProgram_keeps _ _ _ _) (by decide) ?_
        exact Keeps.refl _ _
      · split
        · exact Keeps.refl _ _
        · exact Keeps.refl _ _
        · refine Keeps.ite (fun _ => ?_) (fun _ => ?_)
          · exact Keeps.refl _ _
          · refine Keeps.after (State.senseLine_keeps _ _ _ _ _) (by decide) ?_
            exact Keeps.refl _ _

theorem State.mergeLine_keeps (s : State) (x : Nat) :
    Keeps [.med, .bench, .out] s (State.mergeLine s x) := by
  unfold State.mergeLine
  split
  · exact Keeps.refl _ _
  · refine Keeps.ite (fun _ => ?_) (fun _ => ?_)
    · exact Keeps.refl _ _
    · extract_lets -merge +onlyGivenNames x1
      split
      extract_lets -merge +onlyGivenNames x2
      split
      · refine Keeps.ite (fun _ => ?_) (fun _ => ?_)
        · unfold x2
          refine Keeps.after (State.notePartial_keeps _ _) (by decide) ?_
          refine Keeps.after (State.setBline_keeps _ _ _) (by decide) ?_
          exact Keeps.refl _ _
        · exact Keeps.refl _ _
      · refine Keeps.ite (fun _ => ?_) (fun _ => ?_)
        · unfold x2
          refine Keeps.after (State.notePartial_keeps _ _) (by decide) ?_
          refine Keeps.after (State.setBline_keeps _ _ _) (by decide) ?_
          exact Keeps.refl _ _
        · split
          · unfold x2
            refine Keeps.after (State.notePartial_keeps _ _) (by decide) ?_
            refine Keeps.after (State.setBline_keeps _ _ _) (by decide) ?_
            exact Keeps.refl _ _
          · unfold x2
            refine Keeps.after (State.notePartial_keeps _ _) (by decide) ?_
            refine Keeps.after (State.setBline_keeps _ _ _) (by decide) ?_
            exact Keeps.refl _ _
          · extract_lets -merge +onlyGivenNames x3
            extract_lets -merge +onlyGivenNames x4
            refine Keeps.ite (fun _ => ?_) (fun _ => ?_)
            · exact Keeps.refl _ _
            · refine Keeps.after (State.senseLine_keeps _ _ _ _ _) (by decide) ?_
              exact Keeps.refl _ _

theorem State.rewriteLine_keeps (s : State) (n : Nat) (l : Nat) :
    Keeps [.med, .bench, .xlt, .out] s (State.rewriteLine s n l) := by
  unfold State.rewriteLine
  split
  · exact Keeps.refl _ _
  · extract_lets -merge +onlyGivenNames x1
    refine Keeps.ite (fun _ => ?_) (fun _ => ?_)
    · exact Keeps.refl _ _
    · split
      split
      · refine Keeps.ite (fun _ => ?_) (fun _ => ?_)
        · refine Keeps.after (State.mergeLine_keeps _ _) (by decide) ?_
          exact Keeps.refl _ _
        · split
          · refine Keeps.after (State.moveProgram_keeps _ _ _ _) (by decide) ?_
            exact Keeps.refl _ _
          · refine Keeps.ite (fun _ => ?_) (fun _ => ?_)
            · exact Keeps.refl _ _
            · refine Keeps.after (State.moveProgram_keeps _ _ _ _) (by decide) ?_
              refine Keeps.after (State.setBline_keeps _ _ _) (by decide) ?_
              exact Keeps.refl _ _
          · exact Keeps.refl _ _
      · refine Keeps.ite (fun _ => ?_) (fun _ => ?_)
        · exact Keeps.refl _ _
        · refine Keeps.after (State.senseLine_keeps _ _ _ _ _) (by decide) ?_
          exact Keeps.refl _ _

theorem State.moveFeed_keeps (s : State) (n : Nat) :
    Keeps [.med, .bench, .xlt, .out] s (State.moveFeed s n) := by
  unfold State.moveFeed
  split
  · exact Keeps.refl _ _
  · refine Keeps.ite (fun _ => ?_) (fun _ => ?_)
    · exact Keeps.refl _ _
    · split
      · refine Keeps.foldl _ (fun _ _ => ?_) ?_
        · refine Keeps.after (State.moveLine_keeps _ _ _) (by decide) ?_
          exact Keeps.refl _ _
        · exact Keeps.refl _ _
      · refine Keeps.foldl _ (fun _ _ => ?_) ?_
        · refine Keeps.after (State.rewriteLine_keeps _ _ _) (by decide) ?_
          exact Keeps.refl _ _
        · exact Keeps.refl _ _

theorem State.drawLrot_keeps (s : State) (e : Sett) :
    Keeps [.fresh] s (State.drawLrot s e).1 := by
  unfold State.drawLrot
  extract_lets -merge +onlyGivenNames x1
  dsimp only
  refine Keeps.after (State.draw_keeps _) (by decide) ?_
  exact Keeps.refl _ _

theorem State.moveStart_keeps (s : State) (n : Nat) (k : WorkKind) (dest : Option Phys) (mode : Mode) :
    Keeps [.regs, .evt, .evr, .chans, .med, .bench, .xlt, .cxl, .out, .fresh] s (State.moveStart s n k dest mode) := by
  unfold State.moveStart
  extract_lets -merge +onlyGivenNames x1
  extract_lets -merge +onlyGivenNames x2
  refine Keeps.of_let x2 ?_ (fun h2 => ?_)
  · unfold x2
    split
    · refine Keeps.after (State.takeSlot_keeps _ _ _) (by decide) ?_
      exact Keeps.refl _ _
    · exact Keeps.refl _ _
  · split
    extract_lets -merge +onlyGivenNames x3
    refine Keeps.of_let x3 ?_ (fun h3 => ?_)
    · unfold x3
      refine Keeps.after (State.putSett_keeps _ _ _) (by decide) ?_
      refine Keeps.of_fst (by assumption) ?_
      split
      · refine Keeps.after (State.drawLrot_keeps _ _) (by decide) ?_
        exact h2
      · dsimp only
        exact h2
    · extract_lets -merge +onlyGivenNames x4
      extract_lets -merge +onlyGivenNames x5
      refine Keeps.of_let x5 ?_ (fun h5 => ?_)
      · unfold x5
        refine Keeps.after (State.setYrw_keeps _ _) (by decide) ?_
        exact h3
      · refine Keeps.after (State.moveFeed_keeps _ _) (by decide) ?_
        exact h5

theorem State.rewake_keeps (s : State) (n : Nat) :
    Keeps [.bench] s (State.rewake s n) := by
  unfold State.rewake
  refine Keeps.foldl _ (fun _ _ => ?_) ?_
  · split
    · refine Keeps.ite (fun _ => ?_) (fun _ => ?_)
      · refine Keeps.after (State.setBline_keeps _ _ _) (by decide) ?_
        exact Keeps.refl _ _
      · exact Keeps.refl _ _
    · exact Keeps.refl _ _
  · exact Keeps.refl _ _

theorem State.moveAbandon_keeps (s : State) (n : Nat) (spoil : Bool) :
    Keeps [.regs, .evt, .evr, .chans, .med, .bench, .xlt, .cxl, .out] s (State.moveAbandon s n spoil) := by
  unfold State.moveAbandon
  split
  · exact Keeps.refl _ _
  · extract_lets -merge +onlyGivenNames x1
    refine Keeps.of_let x1 ?_ (fun h1 => ?_)
    · unfold x1
      split
      · refine Keeps.after (State.leaveSlot_keeps _ _ _ _) (by decide) ?_
        exact Keeps.refl _ _
      · exact Keeps.refl _ _
    · extract_lets -merge +onlyGivenNames x2
      extract_lets -merge +onlyGivenNames x3
      extract_lets -merge +onlyGivenNames x4
      extract_lets -merge +onlyGivenNames x5
      refine Keeps.of_let x5 ?_ (fun h5 => ?_)
      · unfold x5
        refine Keeps.after (State.setMed_keeps _ _) (by decide) ?_
        exact h1
      · refine Keeps.after (State.rewake_keeps _ _) (by decide) ?_
        refine Keeps.after (State.putSett_keeps _ _ _) (by decide) ?_
        refine Keeps.after (State.endMove_keeps _ _) (by decide) ?_
        exact h5

theorem State.moveCommit_keeps (s : State) (n : Nat) :
    Keeps [.regs, .evt, .evr, .chans, .med, .bench, .xlt, .cxl, .out] s (State.moveCommit s n) := by
  unfold State.moveCommit
  split
  · exact Keeps.refl _ _
  · extract_lets -merge +onlyGivenNames x1
    extract_lets -merge +onlyGivenNames x2
    extract_lets -merge +onlyGivenNames x3
    extract_lets -merge +onlyGivenNames x4
    refine Keeps.of_let x4 ?_ (fun h4 => ?_)
    · unfold x4
      split
      · refine Keeps.after (State.leaveSlot_keeps _ _ _ _) (by decide) ?_
        exact Keeps.refl _ _
      · exact Keeps.refl _ _
    · extract_lets -merge +onlyGivenNames x5
      extract_lets -merge +onlyGivenNames x6
      refine Keeps.of_let x6 ?_ (fun h6 => ?_)
      · unfold x6
        refine Keeps.after (State.setBand_keeps _ _ _ _) (by decide) ?_
        refine Keeps.after (State.putSett_keeps _ _ _) (by decide) ?_
        exact h4
      · extract_lets -merge +onlyGivenNames x7
        refine Keeps.of_let x7 ?_ (fun h7 => ?_)
        · unfold x7
          refine Keeps.after (State.endMove_keeps _ _) (by decide) ?_
          refine Keeps.after (State.journalYoung_keeps _ _ _) (by decide) ?_
          refine Keeps.after (State.journal_keeps _ _) (by decide) ?_
          exact h6
        · extract_lets -merge +onlyGivenNames x8
          extract_lets -merge +onlyGivenNames x9
          refine Keeps.of_let x9 ?_ (fun h9 => ?_)
          · unfold x9
            refine Keeps.after (State.setBench_keeps _ _) (by decide) ?_
            exact h7
          · refine Keeps.foldl _ (fun _ _ => ?_) ?_
            · split
              · refine Keeps.ite (fun _ => ?_) (fun _ => ?_)
                · refine Keeps.after (State.setBline_keeps _ _ _) (by decide) ?_
                  exact Keeps.refl _ _
                · exact Keeps.refl _ _
              · exact Keeps.refl _ _
            · exact h9

theorem State.writeBack_keeps (s : State) (x : Nat) :
    Keeps [.regs, .evt, .evr, .chans, .med, .bench, .xlt, .cxl, .out, .fresh] s (State.writeBack s x) := by
  unfold State.writeBack
  split
  · exact Keeps.refl _ _
  · refine Keeps.ite (fun _ => ?_) (fun _ => ?_)
    · exact Keeps.refl _ _
    · refine Keeps.ite (fun _ => ?_) (fun _ => ?_)
      · refine Keeps.after (State.mergeLine_keeps _ _) (by decide) ?_
        exact Keeps.refl _ _
      · extract_lets -merge +onlyGivenNames x1
        extract_lets -merge +onlyGivenNames x2
        split
        · split
          · exact Keeps.refl _ _
          · extract_lets -merge +onlyGivenNames x3
            refine Keeps.ite (fun _ => ?_) (fun _ => ?_)
            · exact Keeps.refl _ _
            · split
              · exact Keeps.refl _ _
              · extract_lets -merge +onlyGivenNames x4
                refine Keeps.of_let_fst x4 ?_ (fun h4 => ?_)
                · unfold x4
                  refine Keeps.after (State.takeSlot_keeps _ _ _) (by decide) ?_
                  exact Keeps.refl _ _
                · refine Keeps.ite (fun _ => ?_) (fun _ => ?_)
                  · split
                    refine Keeps.after (State.programLine_keeps _ _ _ _ _ _ _ _) (by decide) ?_
                    refine Keeps.after (State.setBline_keeps _ _ _) (by decide) ?_
                    refine Keeps.of_fst (by assumption) ?_
                    refine Keeps.after (State.drawLrot_keeps _ _) (by decide) ?_
                    exact h4
                  · refine Keeps.after (State.moveStart_keeps _ _ _ _ _) (by decide) ?_
                    refine Keeps.after (State.bump_keeps _ _ _ _ _ _) (by decide) ?_
                    exact Keeps.refl _ _
        · refine Keeps.ite (fun _ => ?_) (fun _ => ?_)
          · refine Keeps.after (State.programLine_keeps _ _ _ _ _ _ _ _) (by decide) ?_
            refine Keeps.after (State.pageWrite_keeps _ _ _) (by decide) ?_
            refine Keeps.after (State.setBline_keeps _ _ _) (by decide) ?_
            exact Keeps.refl _ _
          · exact Keeps.refl _ _
        · exact Keeps.refl _ _

theorem State.stallSet_keeps (s : State) (x : Nat) (first : Bool) :
    Keeps [.regs, .evt, .evr, .chans, .med, .bench, .xlt, .cxl, .out, .fresh] s (State.stallSet s x first) := by
  unfold State.stallSet
  extract_lets -merge +onlyGivenNames x1
  refine Keeps.of_let x1 ?_ (fun h1 => ?_)
  · unfold x1
    refine Keeps.ite (fun _ => ?_) (fun _ => ?_)
    · refine Keeps.after (State.cause_keeps _ _ _ _ _) (by decide) ?_
      refine Keeps.after (State.bump_keeps _ _ _ _ _ _) (by decide) ?_
      exact Keeps.refl _ _
    · exact Keeps.refl _ _
  · extract_lets -merge +onlyGivenNames x2
    split
    · refine Keeps.after (State.writeBack_keeps _ _) (by decide) ?_
      exact h1
    · exact h1

theorem State.allocLine_keeps (s : State) (x : Nat) (dirty : Bool) (first : Bool) :
    Keeps [.regs, .evt, .evr, .chans, .med, .bench, .xlt, .cxl, .sec, .out, .fresh] s (State.allocLine s x dirty first).1 := by
  unfold State.allocLine
  extract_lets -merge +onlyGivenNames x1
  refine Keeps.ite_fst (fun _ => ?_) (fun _ => ?_)
  · dsimp only
    refine Keeps.after (State.stallSet_keeps _ _ _) (by decide) ?_
    exact Keeps.refl _ _
  · extract_lets -merge +onlyGivenNames x2
    split
    · dsimp only
      exact Keeps.refl _ _
    · extract_lets -merge +onlyGivenNames x3
      extract_lets -merge +onlyGivenNames x4
      split
      · dsimp only
        exact Keeps.refl _ _
      · split
        · dsimp only
          refine Keeps.after (State.dropLine_keeps _ _) (by decide) ?_
          exact Keeps.refl _ _
        · dsimp only
          refine Keeps.after (State.writeBack_keeps _ _) (by decide) ?_
          exact Keeps.refl _ _
        · dsimp only
          exact Keeps.refl _ _

theorem State.completeLine_keeps (s : State) (x : Nat) (b : BLine) (d : Line) :
    Keeps [.bench] s (State.completeLine s x b d) := by
  unfold State.completeLine
  refine Keeps.after (State.touch_keeps _ _) (by decide) ?_
  refine Keeps.after (State.notePartial_keeps _ _) (by decide) ?_
  refine Keeps.after (State.setBline_keeps _ _ _) (by decide) ?_
  exact Keeps.refl _ _

theorem State.settleRecover_keeps (s : State) (x : Nat) :
    Keeps [.bench] s (State.settleRecover s x) := by
  unfold State.settleRecover
  refine Keeps.after (State.setBench_keeps _ _) (by decide) ?_
  exact Keeps.refl _ _

theorem State.awaitRoom_keeps (s : State) (x : Nat) (d : Line) :
    Keeps [.bench] s (State.awaitRoom s x d) := by
  unfold State.awaitRoom
  refine Keeps.ite (fun _ => ?_) (fun _ => ?_)
  · exact Keeps.refl _ _
  · refine Keeps.after (State.setBench_keeps _ _) (by decide) ?_
    exact Keeps.refl _ _

theorem State.recoverLine_keeps (s : State) (x : Nat) (d : Line) :
    Keeps [.regs, .evt, .evr, .chans, .med, .bench, .xlt, .cxl, .sec, .out, .fresh] s (State.recoverLine s x d) := by
  unfold State.recoverLine
  extract_lets -merge +onlyGivenNames x1
  extract_lets -merge +onlyGivenNames x2
  split
  · refine Keeps.ite (fun _ => ?_) (fun _ => ?_)
    · refine Keeps.after (State.settleRecover_keeps _ _) (by decide) ?_
      refine Keeps.ite (fun _ => ?_) (fun _ => ?_)
      · refine Keeps.after (State.completeLine_keeps _ _ _ _) (by decide) ?_
        exact Keeps.refl _ _
      · exact Keeps.refl _ _
    · refine Keeps.ite (fun _ => ?_) (fun _ => ?_)
      · refine Keeps.after (State.awaitRoom_keeps _ _ _) (by decide) ?_
        refine Keeps.ite (fun _ => ?_) (fun _ => ?_)
        · refine Keeps.after (State.touch_keeps _ _) (by decide) ?_
          refine Keeps.after (State.setBline_keeps _ _ _) (by decide) ?_
          exact Keeps.refl _ _
        · exact Keeps.refl _ _
      · refine Keeps.after (State.settleRecover_keeps _ _) (by decide) ?_
        refine Keeps.after (State.touch_keeps _ _) (by decide) ?_
        refine Keeps.after (State.setBline_keeps _ _ _) (by decide) ?_
        exact Keeps.refl _ _
  · refine Keeps.ite (fun _ => ?_) (fun _ => ?_)
    · refine Keeps.after (State.settleRecover_keeps _ _) (by decide) ?_
      exact Keeps.refl _ _
    · refine Keeps.ite (fun _ => ?_) (fun _ => ?_)
      · refine Keeps.after (State.awaitRoom_keeps _ _ _) (by decide) ?_
        exact Keeps.refl _ _
      · split
        · refine Keeps.after (State.settleRecover_keeps _ _) (by decide) ?_
          refine Keeps.after (State.touch_keeps _ _) (by decide) ?_
          refine Keeps.after (State.setBline_keeps _ _ _) (by decide) ?_
          refine Keeps.of_fst (by assumption) ?_
          refine Keeps.after (State.allocLine_keeps _ _ _ _) (by decide) ?_
          exact Keeps.refl _ _
        · refine Keeps.after (State.awaitRoom_keeps _ _ _) (by decide) ?_
          refine Keeps.of_fst (by assumption) ?_
          refine Keeps.after (State.allocLine_keeps _ _ _ _) (by decide) ?_
          exact Keeps.refl _ _

theorem State.installLine_keeps (s : State) (x : Nat) (d : Line) (dirty : Bool) (pf : Bool) :
    Keeps [.regs, .evt, .evr, .chans, .med, .bench, .xlt, .cxl, .sec, .out, .fresh] s (State.installLine s x d dirty pf) := by
  unfold State.installLine
  refine Keeps.ite (fun _ => ?_) (fun _ => ?_)
  · refine Keeps.after (State.recoverLine_keeps _ _ _) (by decide) ?_
    exact Keeps.refl _ _
  · split
    · split
      · refine Keeps.after (State.touch_keeps _ _) (by decide) ?_
        refine Keeps.after (State.setBline_keeps _ _ _) (by decide) ?_
        exact Keeps.refl _ _
      · refine Keeps.ite (fun _ => ?_) (fun _ => ?_)
        · refine Keeps.after (State.completeLine_keeps _ _ _ _) (by decide) ?_
          exact Keeps.refl _ _
        · exact Keeps.refl _ _
    · refine Keeps.ite (fun _ => ?_) (fun _ => ?_)
      · exact Keeps.refl _ _
      · split
        · refine Keeps.after (State.touch_keeps _ _) (by decide) ?_
          refine Keeps.after (State.setBline_keeps _ _ _) (by decide) ?_
          refine Keeps.of_fst (by assumption) ?_
          refine Keeps.after (State.allocLine_keeps _ _ _ _) (by decide) ?_
          exact Keeps.refl _ _
        · refine Keeps.of_fst (by assumption) ?_
          refine Keeps.after (State.allocLine_keeps _ _ _ _) (by decide) ?_
          exact Keeps.refl _ _

theorem State.putLine_keeps (s : State) (x : Nat) (mask : BitVec 256) (d : Line) (first : Bool) :
    Keeps [.regs, .evt, .evr, .chans, .med, .bench, .xlt, .cxl, .sec, .out, .fresh] s (State.putLine s x mask d first).1 := by
  unfold State.putLine
  split
  · split
    · dsimp only
      refine Keeps.after (State.touch_keeps _ _) (by decide) ?_
      refine Keeps.after (State.notePartial_keeps _ _) (by decide) ?_
      refine Keeps.after (State.setBline_keeps _ _ _) (by decide) ?_
      exact Keeps.refl _ _
    · refine Keeps.ite_fst (fun _ => ?_) (fun _ => ?_)
      · dsimp only
        refine Keeps.after (State.stallSet_keeps _ _ _) (by decide) ?_
        exact Keeps.refl _ _
      · dsimp only
        refine Keeps.after (State.touch_keeps _ _) (by decide) ?_
        refine Keeps.after (State.setBline_keeps _ _ _) (by decide) ?_
        exact Keeps.refl _ _
    · dsimp only
      refine Keeps.after (State.touch_keeps _ _) (by decide) ?_
      refine Keeps.after (State.notePartial_keeps _ _) (by decide) ?_
      refine Keeps.after (State.setBline_keeps _ _ _) (by decide) ?_
      exact Keeps.refl _ _
    · dsimp only
      refine Keeps.after (State.touch_keeps _ _) (by decide) ?_
      refine Keeps.after (State.setBline_keeps _ _ _) (by decide) ?_
      exact Keeps.refl _ _
  · split
    · dsimp only
      refine Keeps.after (State.touch_keeps _ _) (by decide) ?_
      refine Keeps.after (State.notePartial_keeps _ _) (by decide) ?_
      refine Keeps.after (State.setBline_keeps _ _ _) (by decide) ?_
      refine Keeps.of_fst (by assumption) ?_
      refine Keeps.after (State.allocLine_keeps _ _ _ _) (by decide) ?_
      exact Keeps.refl _ _
    · dsimp only
      refine Keeps.of_fst (by assumption) ?_
      refine Keeps.after (State.allocLine_keeps _ _ _ _) (by decide) ?_
      exact Keeps.refl _ _

theorem State.placeLine_keeps (s : State) (x : Nat) (mask : BitVec 256) (d : Line) (first : Bool) :
    Keeps [.regs, .evt, .evr, .chans, .med, .bench, .xlt, .cxl, .sec, .out, .fresh] s (State.placeLine s x mask d first).1 := by
  unfold State.placeLine
  split
  · dsimp only
    refine Keeps.of_fst (by assumption) ?_
    refine Keeps.after (State.putLine_keeps _ _ _ _ _) (by decide) ?_
    exact Keeps.refl _ _
  · dsimp only
    split
    · refine Keeps.after (State.settleRecover_keeps _ _) (by decide) ?_
      refine Keeps.ite (fun _ => ?_) (fun _ => ?_)
      · refine Keeps.after (State.completeLine_keeps _ _ _ _) (by decide) ?_
        refine Keeps.of_fst (by assumption) ?_
        refine Keeps.after (State.putLine_keeps _ _ _ _ _) (by decide) ?_
        exact Keeps.refl _ _
      · refine Keeps.of_fst (by assumption) ?_
        refine Keeps.after (State.putLine_keeps _ _ _ _ _) (by decide) ?_
        exact Keeps.refl _ _
    · refine Keeps.of_fst (by assumption) ?_
      refine Keeps.after (State.putLine_keeps _ _ _ _ _) (by decide) ?_
      exact Keeps.refl _ _

theorem State.slotBack_keeps (s : State) (x : Nat) (k : ScbSlot) :
    Keeps [.regs, .evt, .evr, .chans, .med, .bench, .xlt, .cxl, .sec, .out, .fresh] s (State.slotBack s x k).1 := by
  unfold State.slotBack
  split
  · refine Keeps.ite_fst (fun _ => ?_) (fun _ => ?_)
    · dsimp only
      refine Keeps.ite (fun _ => ?_) (fun _ => ?_)
      · refine Keeps.after (State.notePartial_keeps _ _) (by decide) ?_
        refine Keeps.after (State.setBline_keeps _ _ _) (by decide) ?_
        exact Keeps.refl _ _
      · exact Keeps.refl _ _
    · refine Keeps.after (State.placeLine_keeps _ _ _ _ _) (by decide) ?_
      exact Keeps.refl _ _
  · refine Keeps.after (State.placeLine_keeps _ _ _ _ _) (by decide) ?_
    exact Keeps.refl _ _

theorem State.pressure_keeps (s : State) :
    Keeps [.regs, .evt, .evr, .chans, .med, .bench, .xlt, .cxl, .out, .fresh] s (State.pressure s) := by
  unfold State.pressure
  extract_lets -merge +onlyGivenNames x1
  extract_lets -merge +onlyGivenNames x2
  extract_lets -merge +onlyGivenNames x3
  refine Keeps.of_let x3 ?_ (fun h3 => ?_)
  · unfold x3
    refine Keeps.ite (fun _ => ?_) (fun _ => ?_)
    · refine Keeps.foldl _ (fun _ _ => ?_) ?_
      · refine Keeps.after (State.writeBack_keeps _ _) (by decide) ?_
        exact Keeps.refl _ _
      · exact Keeps.refl _ _
    · exact Keeps.refl _ _
  · refine Keeps.ite (fun _ => ?_) (fun _ => ?_)
    · refine Keeps.foldl _ (fun _ _ => ?_) ?_
      · refine Keeps.after (State.mergeLine_keeps _ _) (by decide) ?_
        exact Keeps.refl _ _
      · exact h3
    · exact h3


/-! ### MapOps -/

theorem State.setMap_keeps (s : State) (m : MapArea) :
    Keeps [.xlt] s (State.setMap s m) := by
  unfold State.setMap
  refine Keeps.after (State.setXlt_keeps _ _) (by decide) ?_
  exact Keeps.refl _ _

theorem State.formatMap_keeps (s : State) (count : Nat) :
    Keeps [.xlt] s (State.formatMap s count) := by
  unfold State.formatMap
  refine Keeps.ite (fun _ => ?_) (fun _ => ?_)
  · refine Keeps.after (State.setMap_keeps _ _) (by decide) ?_
    exact Keeps.refl _ _
  · exact Keeps.refl _ _

theorem State.substitute_keeps (s : State) (u : Nat) :
    Keeps [.nv, .xlt] s (State.substitute s u) := by
  unfold State.substitute
  extract_lets -merge +onlyGivenNames x1
  refine Keeps.foldl _ (fun _ _ => ?_) ?_
  · extract_lets -merge +onlyGivenNames x2
    refine Keeps.ite (fun _ => ?_) (fun _ => ?_)
    · exact Keeps.refl _ _
    · split
      · extract_lets -merge +onlyGivenNames x3
        refine Keeps.after (State.nvWrite_keeps _ _ _) (by decide) ?_
        refine Keeps.after (State.setMap_keeps _ _) (by decide) ?_
        exact Keeps.refl _ _
      · exact Keeps.refl _ _
  · exact Keeps.refl _ _

theorem State.judgeMapBand_keeps (s : State) (d : Nat) :
    Keeps [.nv, .xlt] s (State.judgeMapBand s d) := by
  unfold State.judgeMapBand
  extract_lets -merge +onlyGivenNames x1
  clear_value x1
  split
  · exact Keeps.refl _ _
  · extract_lets -merge +onlyGivenNames x1
    extract_lets -merge +onlyGivenNames x2
    extract_lets -merge +onlyGivenNames x3
    refine Keeps.after (State.setMapBand_keeps _ _ _) (by decide) ?_
    exact Keeps.refl _ _

theorem State.mapProgram_keeps (s : State) (u : Nat) (f : Nat) :
    Keeps [.med, .out] s (State.mapProgram s u f) := by
  unfold State.mapProgram
  extract_lets -merge +onlyGivenNames x1
  extract_lets -merge +onlyGivenNames x2
  extract_lets -merge +onlyGivenNames x3
  refine Keeps.after (State.issue_keeps _ _ _) (by decide) ?_
  exact Keeps.refl _ _

theorem State.writeCopy_keeps (s : State) (c : Nat) (copy : Bool) (both : Bool) :
    Keeps [.nv, .med, .xlt, .out] s (State.writeCopy s c copy both) := by
  unfold State.writeCopy
  extract_lets -merge +onlyGivenNames x1
  extract_lets -merge +onlyGivenNames x2
  extract_lets -merge +onlyGivenNames x3
  refine Keeps.of_let x3 ?_ (fun h3 => ?_)
  · unfold x3
    refine Keeps.after (State.setMap_keeps _ _) (by decide) ?_
    refine Keeps.after (State.substitute_keeps _ _) (by decide) ?_
    exact Keeps.refl _ _
  · refine Keeps.foldl _ (fun _ _ => ?_) ?_
    · refine Keeps.after (State.mapProgram_keeps _ _ _) (by decide) ?_
      exact Keeps.refl _ _
    · exact h3

theorem State.freeFrame_keeps (s : State) :
    Keeps [.regs, .evt, .evr, .chans, .xlt, .cxl, .out] s (State.freeFrame s) := by
  unfold State.freeFrame
  extract_lets -merge +onlyGivenNames x1
  extract_lets -merge +onlyGivenNames x2
  extract_lets -merge +onlyGivenNames x3
  extract_lets -merge +onlyGivenNames x4
  refine Keeps.of_let x4 ?_ (fun h4 => ?_)
  · unfold x4
    refine Keeps.after (State.setXlt_keeps _ _) (by decide) ?_
    exact Keeps.refl _ _
  · extract_lets -merge +onlyGivenNames x5
    refine Keeps.after (State.judgeXlt_keeps _) (by decide) ?_
    refine Keeps.after (State.setXlt_keeps _ _) (by decide) ?_
    exact h4

theorem State.checkpointChunk_keeps (s : State) :
    Keeps [.regs, .evt, .nv, .evr, .chans, .med, .xlt, .cxl, .out] s (State.checkpointChunk s) := by
  unfold State.checkpointChunk
  extract_lets -merge +onlyGivenNames x1
  refine Keeps.ite (fun _ => ?_) (fun _ => ?_)
  · exact Keeps.refl _ _
  · refine Keeps.ite (fun _ => ?_) (fun _ => ?_)
    · split
      · refine Keeps.after (State.freeFrame_keeps _) (by decide) ?_
        exact Keeps.refl _ _
      · refine Keeps.after (State.writeCopy_keeps _ _ _ _) (by decide) ?_
        exact Keeps.refl _ _
    · extract_lets -merge +onlyGivenNames x2
      extract_lets -merge +onlyGivenNames x3
      refine Keeps.of_let x3 ?_ (fun h3 => ?_)
      · unfold x3
        refine Keeps.after (State.setMap_keeps _ _) (by decide) ?_
        exact Keeps.refl _ _
      · split
        · refine Keeps.after (State.writeCopy_keeps _ _ _ _) (by decide) ?_
          exact h3
        · exact h3

theorem State.copyWritten_keeps (s : State) (w : MapWrite) :
    Keeps [.regs, .evt, .nv, .evr, .chans, .med, .xlt, .cxl, .out] s (State.copyWritten s w) := by
  unfold State.copyWritten
  extract_lets -merge +onlyGivenNames x1
  extract_lets -merge +onlyGivenNames x2
  extract_lets -merge +onlyGivenNames x3
  refine Keeps.of_let x3 ?_ (fun h3 => ?_)
  · unfold x3
    refine Keeps.after (State.setMap_keeps _ _) (by decide) ?_
    exact Keeps.refl _ _
  · extract_lets -merge +onlyGivenNames x4
    refine Keeps.of_let x4 ?_ (fun h4 => ?_)
    · unfold x4
      refine Keeps.foldl _ (fun _ _ => ?_) ?_
      · refine Keeps.after (State.judgeMapBand_keeps _ _) (by decide) ?_
        exact Keeps.refl _ _
      · exact h3
    · refine Keeps.ite (fun _ => ?_) (fun _ => ?_)
      · refine Keeps.after (State.writeCopy_keeps _ _ _ _) (by decide) ?_
        exact h4
      · extract_lets -merge +onlyGivenNames x5
        extract_lets -merge +onlyGivenNames x6
        extract_lets -merge +onlyGivenNames x7
        refine Keeps.of_let x7 ?_ (fun h7 => ?_)
        · unfold x7
          refine Keeps.after (State.setXlt_keeps _ _) (by decide) ?_
          exact h4
        · refine Keeps.ite (fun _ => ?_) (fun _ => ?_)
          · refine Keeps.after (State.freeFrame_keeps _) (by decide) ?_
            exact h7
          · exact h7

theorem State.mapVerified_keeps (s : State) (copy : Bool) (c : Nat) (f : Nat) :
    Keeps [.regs, .evt, .nv, .evr, .chans, .med, .xlt, .cxl, .out] s (State.mapVerified s copy c f) := by
  unfold State.mapVerified
  split
  · refine Keeps.ite (fun _ => ?_) (fun _ => ?_)
    · exact Keeps.refl _ _
    · extract_lets -merge +onlyGivenNames x1
      refine Keeps.ite (fun _ => ?_) (fun _ => ?_)
      · refine Keeps.after (State.copyWritten_keeps _ _) (by decide) ?_
        exact Keeps.refl _ _
      · refine Keeps.after (State.setMap_keeps _ _) (by decide) ?_
        exact Keeps.refl _ _
  · exact Keeps.refl _ _

theorem State.mapUnwritten_keeps (s : State) (copy : Bool) (c : Nat) (f : Nat) :
    Keeps [.nv, .med, .xlt, .out] s (State.mapUnwritten s copy c f) := by
  unfold State.mapUnwritten
  split
  · refine Keeps.ite (fun _ => ?_) (fun _ => ?_)
    · refine Keeps.after (State.mapProgram_keeps _ _ _) (by decide) ?_
      refine Keeps.after (State.substitute_keeps _ _) (by decide) ?_
      exact Keeps.refl _ _
    · exact Keeps.refl _ _
  · exact Keeps.refl _ _

theorem State.mapAsk_keeps (s : State) (c : Nat) (f : Nat) (a3 : List (Bool × QmiOp)) :
    Keeps [.med, .xlt, .out] s (State.mapAsk s c f a3) := by
  induction a3 generalizing s c f
  · unfold State.mapAsk
    refine Keeps.after (State.setMap_keeps _ _) (by decide) ?_
    exact Keeps.refl _ _
  · rename_i x xs ih
    unfold State.mapAsk
    extract_lets -merge +onlyGivenNames x1
    refine Keeps.ite (fun _ => ?_) (fun _ => ?_)
    · refine Keeps.trans ?_ (ih _ _ _)
      exact Keeps.refl _ _
    · refine Keeps.after (State.issue_keeps _ _ _) (by decide) ?_
      exact Keeps.refl _ _

theorem State.loadChunk_keeps (s : State) (c : Nat) :
    Keeps [.med, .xlt, .out] s (State.loadChunk s c) := by
  unfold State.loadChunk
  refine Keeps.ite (fun _ => ?_) (fun _ => ?_)
  · exact Keeps.refl _ _
  · refine Keeps.foldl _ (fun _ _ => ?_) ?_
    · refine Keeps.after (State.mapAsk_keeps _ _ _ _) (by decide) ?_
      exact Keeps.refl _ _
    · refine Keeps.after (State.setMap_keeps _ _) (by decide) ?_
      exact Keeps.refl _ _

theorem State.mapFrame_keeps (s : State) (copy : Bool) (c : Nat) (f : Nat) (op : QmiOp) (dec : Option Decoded) :
    Keeps [.med, .xlt, .out] s (State.mapFrame s copy c f op dec) := by
  unfold State.mapFrame
  refine Keeps.ite (fun _ => ?_) (fun _ => ?_)
  · exact Keeps.refl _ _
  · refine Keeps.ite (fun _ => ?_) (fun _ => ?_)
    · refine Keeps.after (State.setMap_keeps _ _) (by decide) ?_
      exact Keeps.refl _ _
    · refine Keeps.after (State.mapAsk_keeps _ _ _ _) (by decide) ?_
      exact Keeps.refl _ _

theorem State.mapUndo_keeps (s : State) (q : QmiCmd) (copy : Bool) (c : Nat) (f : Nat) :
    Keeps [.nv, .med, .xlt, .out] s (State.mapUndo s q copy c f) := by
  unfold State.mapUndo
  split
  · refine Keeps.after (State.mapUnwritten_keeps _ _ _ _) (by decide) ?_
    exact Keeps.refl _ _
  · refine Keeps.after (State.setMap_keeps _ _) (by decide) ?_
    exact Keeps.refl _ _
  · refine Keeps.after (State.mapFrame_keeps _ _ _ _ _ _) (by decide) ?_
    exact Keeps.refl _ _

theorem State.visitMaps_keeps (s : State) (d : Nat) :
    Keeps [.med, .xlt, .out] s (State.visitMaps s d) := by
  unfold State.visitMaps
  extract_lets -merge +onlyGivenNames x1
  refine Keeps.foldl _ (fun _ _ => ?_) ?_
  · refine Keeps.foldl _ (fun _ _ => ?_) ?_
    · extract_lets -merge +onlyGivenNames x2
      extract_lets -merge +onlyGivenNames x3
      unfold x3
      refine Keeps.after (State.issue_keeps _ _ _) (by decide) ?_
      refine Keeps.after (State.issue_keeps _ _ _) (by decide) ?_
      refine Keeps.after (State.setMap_keeps _ _) (by decide) ?_
      exact Keeps.refl _ _
    · exact Keeps.refl _ _
  · exact Keeps.refl _ _

theorem State.mapMargin_keeps (s : State) (copy : Bool) (c : Nat) (f : Nat) (dec : Option Decoded) :
    Keeps [.regs, .xlt] s (State.mapMargin s copy c f dec) := by
  unfold State.mapMargin
  extract_lets -merge +onlyGivenNames x1
  split
  · exact Keeps.refl _ _
  · extract_lets -merge +onlyGivenNames x2
    extract_lets -merge +onlyGivenNames x3
    extract_lets -merge +onlyGivenNames x4
    refine Keeps.ite (fun _ => ?_) (fun _ => ?_)
    · refine Keeps.after (State.setMap_keeps _ _) (by decide) ?_
      exact Keeps.refl _ _
    · extract_lets -merge +onlyGivenNames x5
      refine Keeps.of_let x5 ?_ (fun h5 => ?_)
      · unfold x5
        refine Keeps.after (State.setMap_keeps _ _) (by decide) ?_
        exact Keeps.refl _ _
      · refine Keeps.ite (fun _ => ?_) (fun _ => ?_)
        · refine Keeps.after (State.bump_keeps _ _ _ _ _ _) (by decide) ?_
          exact h5
        · exact h5

/-! ### HostOps -/

theorem State.loadPair_keeps (s : State) (c : Nat) :
    Keeps [.med, .xlt, .out] s (State.loadPair s c) := by
  unfold State.loadPair
  extract_lets -merge +onlyGivenNames x1
  refine Keeps.of_let x1 ?_ (fun h1 => ?_)
  · unfold x1
    refine Keeps.ite (fun _ => ?_) (fun _ => ?_)
    · exact Keeps.refl _ _
    · refine Keeps.after (State.loadChunk_keeps _ _) (by decide) ?_
      exact Keeps.refl _ _
  · refine Keeps.ite (fun _ => ?_) (fun _ => ?_)
    · exact h1
    · refine Keeps.after (State.loadChunk_keeps _ _) (by decide) ?_
      exact h1

theorem State.lookup_keeps (s : State) (n : Nat) :
    Keeps [.regs, .xlt] s (State.lookup s n) := by
  unfold State.lookup
  refine Keeps.ite (fun _ => ?_) (fun _ => ?_)
  · exact Keeps.refl _ _
  · extract_lets -merge +onlyGivenNames x1
    refine Keeps.of_let x1 ?_ (fun h1 => ?_)
    · unfold x1
      refine Keeps.after (State.bump_keeps _ _ _ _ _ _) (by decide) ?_
      exact Keeps.refl _ _
    · refine Keeps.after (State.setXlt_keeps _ _) (by decide) ?_
      exact h1

theorem State.assistAsk_keeps (s : State) (why : AssistFor) (r : Nat) (x : Nat) (count : Nat) :
    Keeps [.twin, .out] s (State.assistAsk s why r x count) := by
  unfold State.assistAsk
  extract_lets -merge +onlyGivenNames x1
  extract_lets -merge +onlyGivenNames x2
  extract_lets -merge +onlyGivenNames x3
  refine Keeps.of_let x3 ?_ (fun h3 => ?_)
  · unfold x3
    refine Keeps.after (State.setTwin_keeps _ _) (by decide) ?_
    exact Keeps.refl _ _
  · refine Keeps.after (State.tsend_keeps _ _ _) (by decide) ?_
    exact h3

theorem State.waitRead_keeps (s : State) (r : HostRead) :
    Keeps [.bench] s (State.waitRead s r) := by
  unfold State.waitRead
  refine Keeps.after (State.setBench_keeps _ _) (by decide) ?_
  exact Keeps.refl _ _

theorem State.poolTouch_keeps (s : State) (n : Nat) :
    Keeps [.xlt] s (State.poolTouch s n) := by
  unfold State.poolTouch
  refine Keeps.after (State.setXlt_keeps _ _) (by decide) ?_
  exact Keeps.refl _ _

theorem State.fetchRead_keeps (s : State) (r : HostRead) :
    Keeps [.regs, .evt, .evr, .chans, .med, .bench, .xlt, .twin, .cxl, .rdma, .sec, .out, .fresh] s (State.fetchRead s r) := by
  unfold State.fetchRead
  extract_lets -merge +onlyGivenNames x1
  extract_lets -merge +onlyGivenNames x2
  extract_lets -merge +onlyGivenNames x3
  refine Keeps.of_let x3 ?_ (fun h3 => ?_)
  · unfold x3
    refine Keeps.after (State.lookup_keeps _ _) (by decide) ?_
    exact Keeps.refl _ _
  · refine Keeps.ite (fun _ => ?_) (fun _ => ?_)
    · refine Keeps.ite (fun _ => ?_) (fun _ => ?_)
      · refine Keeps.after (State.waitRead_keeps _ _) (by decide) ?_
        exact h3
      · extract_lets -merge +onlyGivenNames x4
        refine Keeps.of_let x4 ?_ (fun h4 => ?_)
        · unfold x4
          refine Keeps.after (State.bump_keeps _ _ _ _ _ _) (by decide) ?_
          exact h3
        · refine Keeps.after (State.waitRead_keeps _ _) (by decide) ?_
          refine Keeps.after (State.loadPair_keeps _ _) (by decide) ?_
          refine Keeps.after (State.setXlt_keeps _ _) (by decide) ?_
          exact h4
    · extract_lets -merge +onlyGivenNames x4
      split
      · refine Keeps.after (State.respond_keeps _ _ _) (by decide) ?_
        exact h3
      · refine Keeps.after (State.respond_keeps _ _ _) (by decide) ?_
        refine Keeps.after (State.installLine_keeps _ _ _ _ _) (by decide) ?_
        refine Keeps.after (State.poolTouch_keeps _ _) (by decide) ?_
        exact h3
      · refine Keeps.after (State.respond_keeps _ _ _) (by decide) ?_
        exact h3
      · refine Keeps.ite (fun _ => ?_) (fun _ => ?_)
        · refine Keeps.ite (fun _ => ?_) (fun _ => ?_)
          · refine Keeps.ite (fun _ => ?_) (fun _ => ?_)
            · refine Keeps.after (State.waitRead_keeps _ _) (by decide) ?_
              exact h3
            · refine Keeps.after (State.assistAsk_keeps _ _ _ _ _) (by decide) ?_
              refine Keeps.after (State.waitRead_keeps _ _) (by decide) ?_
              exact h3
          · refine Keeps.after (State.respond_keeps _ _ _) (by decide) ?_
            exact h3
        · refine Keeps.ite (fun _ => ?_) (fun _ => ?_)
          · refine Keeps.after (State.waitRead_keeps _ _) (by decide) ?_
            exact h3
          · extract_lets -merge +onlyGivenNames x5
            refine Keeps.of_let x5 ?_ (fun h5 => ?_)
            · unfold x5
              split
              · exact h3
              · refine Keeps.ite (fun _ => ?_) (fun _ => ?_)
                · exact h3
                · split
                  · refine Keeps.after (State.setBline_keeps _ _ _) (by decide) ?_
                    refine Keeps.of_fst (by assumption) ?_
                    refine Keeps.after (State.allocLine_keeps _ _ _ _) (by decide) ?_
                    exact h3
                  · refine Keeps.of_fst (by assumption) ?_
                    refine Keeps.after (State.allocLine_keeps _ _ _ _) (by decide) ?_
                    exact h3
            · extract_lets -merge +onlyGivenNames x6
              extract_lets -merge +onlyGivenNames x7
              refine Keeps.ite (fun _ => ?_) (fun _ => ?_)
              · refine Keeps.after (State.waitRead_keeps _ _) (by decide) ?_
                exact h5
              · refine Keeps.after (State.senseLine_keeps _ _ _ _ _) (by decide) ?_
                refine Keeps.after (State.waitRead_keeps _ _) (by decide) ?_
                exact h5

theorem State.serveRead_keeps (s : State) (r : HostRead) :
    Keeps [.regs, .evt, .evr, .chans, .med, .bench, .xlt, .twin, .cxl, .rdma, .sec, .out, .fresh] s (State.serveRead s r) := by
  unfold State.serveRead
  extract_lets -merge +onlyGivenNames x1
  extract_lets -merge +onlyGivenNames x2
  refine Keeps.ite (fun _ => ?_) (fun _ => ?_)
  · refine Keeps.after (State.respond_keeps _ _ _) (by decide) ?_
    exact Keeps.refl _ _
  · refine Keeps.ite (fun _ => ?_) (fun _ => ?_)
    · refine Keeps.after (State.waitRead_keeps _ _) (by decide) ?_
      exact Keeps.refl _ _
    · split
      · refine Keeps.ite (fun _ => ?_) (fun _ => ?_)
        · refine Keeps.after (State.waitRead_keeps _ _) (by decide) ?_
          exact Keeps.refl _ _
        · extract_lets -merge +onlyGivenNames x3
          refine Keeps.ite (fun _ => ?_) (fun _ => ?_)
          · refine Keeps.after (State.respond_keeps _ _ _) (by decide) ?_
            refine Keeps.after (State.touch_keeps _ _) (by decide) ?_
            refine Keeps.after (State.setBline_keeps _ _ _) (by decide) ?_
            exact Keeps.refl _ _
          · extract_lets -merge +onlyGivenNames x4
            refine Keeps.of_let x4 ?_ (fun h4 => ?_)
            · unfold x4
              refine Keeps.after (State.mergeLine_keeps _ _) (by decide) ?_
              exact Keeps.refl _ _
            · split
              · refine Keeps.ite (fun _ => ?_) (fun _ => ?_)
                · split
                  · refine Keeps.ite (fun _ => ?_) (fun _ => ?_)
                    · refine Keeps.after (State.waitRead_keeps _ _) (by decide) ?_
                      exact h4
                    · refine Keeps.ite (fun _ => ?_) (fun _ => ?_)
                      · refine Keeps.after (State.assistAsk_keeps _ _ _ _ _) (by decide) ?_
                        refine Keeps.after (State.waitRead_keeps _ _) (by decide) ?_
                        exact h4
                      · refine Keeps.after (State.respond_keeps _ _ _) (by decide) ?_
                        exact h4
                  · refine Keeps.after (State.waitRead_keeps _ _) (by decide) ?_
                    exact h4
                · refine Keeps.after (State.respond_keeps _ _ _) (by decide) ?_
                  refine Keeps.after (State.touch_keeps _ _) (by decide) ?_
                  exact h4
              · exact h4
      · refine Keeps.ite (fun _ => ?_) (fun _ => ?_)
        · refine Keeps.after (State.respond_keeps _ _ _) (by decide) ?_
          exact Keeps.refl _ _
        · refine Keeps.after (State.fetchRead_keeps _ _) (by decide) ?_
          exact Keeps.refl _ _
      · refine Keeps.after (State.fetchRead_keeps _ _) (by decide) ?_
        exact Keeps.refl _ _

theorem State.answerReads_keeps (s : State) (x : Nat) (d : Option Line) :
    Keeps [.regs, .evt, .evr, .chans, .bench, .twin, .cxl, .rdma, .out] s (State.answerReads s x d) := by
  unfold State.answerReads
  extract_lets -merge +onlyGivenNames x1
  extract_lets -merge +onlyGivenNames x2
  extract_lets -merge +onlyGivenNames x3
  refine Keeps.of_let x3 ?_ (fun h3 => ?_)
  · unfold x3
    refine Keeps.after (State.setBench_keeps _ _) (by decide) ?_
    exact Keeps.refl _ _
  · extract_lets -merge +onlyGivenNames x4
    refine Keeps.foldl _ (fun _ _ => ?_) ?_
    · refine Keeps.after (State.respond_keeps _ _ _) (by decide) ?_
      exact Keeps.refl _ _
    · exact h3

theorem State.redrive_keeps (s : State) (p : HostRead → Bool) :
    Keeps [.regs, .evt, .evr, .chans, .med, .bench, .xlt, .twin, .cxl, .rdma, .sec, .out, .fresh] s (State.redrive s p) := by
  unfold State.redrive
  extract_lets -merge +onlyGivenNames x1
  extract_lets -merge +onlyGivenNames x2
  extract_lets -merge +onlyGivenNames x3
  refine Keeps.of_let x3 ?_ (fun h3 => ?_)
  · unfold x3
    refine Keeps.after (State.setBench_keeps _ _) (by decide) ?_
    exact Keeps.refl _ _
  · refine Keeps.foldl _ (fun _ _ => ?_) ?_
    · refine Keeps.after (State.serveRead_keeps _ _) (by decide) ?_
      exact Keeps.refl _ _
    · exact h3

theorem State.promoteTake_keeps (s : State) (n : Nat) (l : Nat) (d : Line) :
    Keeps [.med, .xlt] s (State.promoteTake s n l d) := by
  unfold State.promoteTake
  split
  · exact Keeps.refl _ _
  · refine Keeps.ite (fun _ => ?_) (fun _ => ?_)
    · exact Keeps.refl _ _
    · extract_lets -merge +onlyGivenNames x1
      extract_lets -merge +onlyGivenNames x2
      refine Keeps.of_let x2 ?_ (fun h2 => ?_)
      · unfold x2
        refine Keeps.after (State.setPage_keeps _ _ _) (by decide) ?_
        exact Keeps.refl _ _
      · refine Keeps.ite (fun _ => ?_) (fun _ => ?_)
        · refine Keeps.after (State.setSett_keeps _ _ _) (by decide) ?_
          exact h2
        · exact h2

theorem State.promoteLine_keeps (s : State) (n : Nat) (l : Nat) :
    Keeps [.med, .bench, .xlt, .out] s (State.promoteLine s n l) := by
  unfold State.promoteLine
  extract_lets -merge +onlyGivenNames x1
  split
  split
  · refine Keeps.ite (fun _ => ?_) (fun _ => ?_)
    · exact Keeps.refl _ _
    · split
      · refine Keeps.ite (fun _ => ?_) (fun _ => ?_)
        · refine Keeps.after (State.mergeLine_keeps _ _) (by decide) ?_
          exact Keeps.refl _ _
        · refine Keeps.ite (fun _ => ?_) (fun _ => ?_)
          · exact Keeps.refl _ _
          · refine Keeps.after (State.promoteTake_keeps _ _ _ _) (by decide) ?_
            exact Keeps.refl _ _
      · extract_lets -merge +onlyGivenNames x2
        extract_lets -merge +onlyGivenNames x3
        refine Keeps.ite (fun _ => ?_) (fun _ => ?_)
        · refine Keeps.after (State.promoteTake_keeps _ _ _ _) (by decide) ?_
          exact Keeps.refl _ _
        · refine Keeps.ite (fun _ => ?_) (fun _ => ?_)
          · exact Keeps.refl _ _
          · refine Keeps.ite (fun _ => ?_) (fun _ => ?_)
            · exact Keeps.refl _ _
            · refine Keeps.after (State.senseLine_keeps _ _ _ _ _) (by decide) ?_
              exact Keeps.refl _ _
  · exact Keeps.refl _ _

theorem State.rewriteData_keeps (s : State) (n : Nat) (l : Nat) (d : Line) :
    Keeps [.regs, .evt, .evr, .chans, .med, .bench, .xlt, .cxl, .sec, .out, .fresh] s (State.rewriteData s n l d) := by
  unfold State.rewriteData
  refine Keeps.ite (fun _ => ?_) (fun _ => ?_)
  · exact Keeps.refl _ _
  · split
    · refine Keeps.after (State.rewriteLine_keeps _ _ _) (by decide) ?_
      refine Keeps.after (State.installLine_keeps _ _ _ _ _) (by decide) ?_
      exact Keeps.refl _ _
    · refine Keeps.after (State.rewriteLine_keeps _ _ _) (by decide) ?_
      refine Keeps.after (State.placeLine_keeps _ _ _ _ _) (by decide) ?_
      exact Keeps.refl _ _

theorem State.resumeLine_keeps (s : State) (x : Nat) :
    Keeps [.regs, .evt, .evr, .chans, .med, .bench, .xlt, .cxl, .sec, .out, .fresh] s (State.resumeLine s x) := by
  unfold State.resumeLine
  extract_lets -merge +onlyGivenNames x1
  extract_lets -merge +onlyGivenNames x2
  extract_lets -merge +onlyGivenNames x3
  refine Keeps.of_let x3 ?_ (fun h3 => ?_)
  · unfold x3
    refine Keeps.after (State.mergeLine_keeps _ _) (by decide) ?_
    exact Keeps.refl _ _
  · extract_lets -merge +onlyGivenNames x4
    refine Keeps.of_let x4 ?_ (fun h4 => ?_)
    · unfold x4
      split
      · exact h3
      · split
        · refine Keeps.after (State.moveLine_keeps _ _ _) (by decide) ?_
          exact h3
        · split
          refine Keeps.ite (fun _ => ?_) (fun _ => ?_)
          · refine Keeps.after (State.rewriteData_keeps _ _ _ _) (by decide) ?_
            exact h3
          · refine Keeps.after (State.rewriteLine_keeps _ _ _) (by decide) ?_
            exact h3
    · refine Keeps.after (State.promoteLine_keeps _ _ _) (by decide) ?_
      exact h4

theorem State.judged_keeps (s : State) (x : Nat) :
    Keeps [.med] s (State.judged s x) := by
  unfold State.judged
  refine Keeps.after (State.setMed_keeps _ _) (by decide) ?_
  exact Keeps.refl _ _

theorem State.unrecovered_keeps (s : State) (x : Nat) :
    Keeps [.regs, .evt, .evr, .chans, .med, .bench, .xlt, .twin, .cxl, .rdma, .sec, .out, .fresh] s (State.unrecovered s x) := by
  unfold State.unrecovered
  split
  extract_lets -merge +onlyGivenNames x1
  refine Keeps.of_let x1 ?_ (fun h1 => ?_)
  · unfold x1
    refine Keeps.ite (fun _ => ?_) (fun _ => ?_)
    · refine Keeps.after (State.judged_keeps _ _) (by decide) ?_
      refine Keeps.after (State.cause_keeps _ _ _ _ _) (by decide) ?_
      exact Keeps.refl _ _
    · exact Keeps.refl _ _
  · extract_lets -merge +onlyGivenNames x2
    refine Keeps.of_let x2 ?_ (fun h2 => ?_)
    · unfold x2
      refine Keeps.after (State.cause_keeps _ _ _ _ _) (by decide) ?_
      refine Keeps.after (State.bump_keeps _ _ _ _ _ _) (by decide) ?_
      exact h1
    · split
      refine Keeps.after (State.resumeLine_keeps _ _) (by decide) ?_
      refine Keeps.after (State.answerReads_keeps _ _ _) (by decide) ?_
      refine Keeps.after (State.lose_keeps _ _ _ _) (by decide) ?_
      refine Keeps.of_fst (by assumption) ?_
      split
      · refine Keeps.ite_fst (fun _ => ?_) (fun _ => ?_)
        · dsimp only
          refine Keeps.after (State.dropLine_keeps _ _) (by decide) ?_
          exact h2
        · dsimp only
          exact h2
      · dsimp only
        exact h2

theorem State.recovered_keeps (s : State) (x : Nat) (d : Line) (soft : Bool) :
    Keeps [.regs, .evt, .evr, .chans, .med, .bench, .xlt, .twin, .cxl, .rdma, .sec, .out, .fresh] s (State.recovered s x d soft) := by
  unfold State.recovered
  extract_lets -merge +onlyGivenNames x1
  refine Keeps.of_let x1 ?_ (fun h1 => ?_)
  · unfold x1
    refine Keeps.ite (fun _ => ?_) (fun _ => ?_)
    · refine Keeps.after (State.cause_keeps _ _ _ _ _) (by decide) ?_
      refine Keeps.after (State.bump_keeps _ _ _ _ _ _) (by decide) ?_
      exact Keeps.refl _ _
    · refine Keeps.after (State.cause_keeps _ _ _ _ _) (by decide) ?_
      refine Keeps.after (State.bump_keeps _ _ _ _ _ _) (by decide) ?_
      exact Keeps.refl _ _
  · extract_lets -merge +onlyGivenNames x2
    extract_lets -merge +onlyGivenNames x3
    extract_lets -merge +onlyGivenNames x4
    refine Keeps.of_let x4 ?_ (fun h4 => ?_)
    · unfold x4
      split
      · extract_lets -merge +onlyGivenNames x5
        extract_lets -merge +onlyGivenNames x6
        extract_lets -merge +onlyGivenNames x7
        refine Keeps.after (State.setMed_keeps _ _) (by decide) ?_
        exact h1
      · exact h1
    · extract_lets -merge +onlyGivenNames x5
      refine Keeps.of_let x5 ?_ (fun h5 => ?_)
      · unfold x5
        refine Keeps.after (State.answerReads_keeps _ _ _) (by decide) ?_
        refine Keeps.after (State.installLine_keeps _ _ _ _ _) (by decide) ?_
        refine Keeps.after (State.judged_keeps _ _) (by decide) ?_
        exact h4
      · refine Keeps.ite (fun _ => ?_) (fun _ => ?_)
        · refine Keeps.after (State.resumeLine_keeps _ _) (by decide) ?_
          exact h5
        · split
          · refine Keeps.ite (fun _ => ?_) (fun _ => ?_)
            · exact h5
            · refine Keeps.after (State.moveProgram_keeps _ _ _ _) (by decide) ?_
              exact h5
          · exact h5

theorem State.prefetch_keeps (s : State) (d : Detector) :
    Keeps [.regs, .evt, .evr, .chans, .med, .bench, .xlt, .cxl, .sec, .out, .fresh] s (State.prefetch s d) := by
  unfold State.prefetch
  refine Keeps.foldl _ (fun _ _ => ?_) ?_
  · extract_lets -merge +onlyGivenNames x1
    refine Keeps.ite (fun _ => ?_) (fun _ => ?_)
    · exact Keeps.refl _ _
    · split
      · exact Keeps.refl _ _
      · extract_lets -merge +onlyGivenNames x2
        split
        · exact Keeps.refl _ _
        · refine Keeps.ite (fun _ => ?_) (fun _ => ?_)
          · exact Keeps.refl _ _
          · split
            · refine Keeps.after (State.installLine_keeps _ _ _ _ _) (by decide) ?_
              exact Keeps.refl _ _
            · extract_lets -merge +onlyGivenNames x3
              extract_lets -merge +onlyGivenNames x4
              refine Keeps.ite (fun _ => ?_) (fun _ => ?_)
              · exact Keeps.refl _ _
              · refine Keeps.after (State.senseLine_keeps _ _ _ _ _) (by decide) ?_
                exact Keeps.refl _ _
  · exact Keeps.refl _ _

theorem State.strideRead_keeps (s : State) (st : Stream) (rl : Nat) :
    Keeps [.regs, .evt, .evr, .chans, .med, .bench, .xlt, .cxl, .sec, .out, .fresh] s (State.strideRead s st rl) := by
  unfold State.strideRead
  refine Keeps.ite (fun _ => ?_) (fun _ => ?_)
  · exact Keeps.refl _ _
  · extract_lets -merge +onlyGivenNames x1
    split
    · refine Keeps.after (State.setBench_keeps _ _) (by decide) ?_
      exact Keeps.refl _ _
    · extract_lets -merge +onlyGivenNames x2
      extract_lets -merge +onlyGivenNames x3
      extract_lets -merge +onlyGivenNames x4
      extract_lets -merge +onlyGivenNames x5
      extract_lets -merge +onlyGivenNames x6
      extract_lets -merge +onlyGivenNames x7
      refine Keeps.of_let x7 ?_ (fun h7 => ?_)
      · unfold x7
        refine Keeps.after (State.setBench_keeps _ _) (by decide) ?_
        exact Keeps.refl _ _
      · refine Keeps.ite (fun _ => ?_) (fun _ => ?_)
        · refine Keeps.after (State.prefetch_keeps _ _) (by decide) ?_
          exact h7
        · exact h7

theorem State.wantPromote_keeps (s : State) (n : Nat) (window : Bool) :
    Keeps [.xlt] s (State.wantPromote s n window) := by
  unfold State.wantPromote
  refine Keeps.ite (fun _ => ?_) (fun _ => ?_)
  · exact Keeps.refl _ _
  · refine Keeps.after (State.setXlt_keeps _ _) (by decide) ?_
    exact Keeps.refl _ _

theorem State.closeWindows_keeps (s : State) (p : Window → Bool) :
    Keeps [.xlt] s (State.closeWindows s p) := by
  unfold State.closeWindows
  refine Keeps.after (State.setXlt_keeps _ _) (by decide) ?_
  exact Keeps.refl _ _

theorem State.windowRead_keeps (s : State) (st : Stream) (i : Nat) :
    Keeps [.xlt] s (State.windowRead s st i) := by
  unfold State.windowRead
  split
  · exact Keeps.refl _ _
  · extract_lets -merge +onlyGivenNames x1
    extract_lets -merge +onlyGivenNames x2
    refine Keeps.of_let x2 ?_ (fun h2 => ?_)
    · unfold x2
      refine Keeps.after (State.closeWindows_keeps _ _) (by decide) ?_
      exact Keeps.refl _ _
    · split
      · exact h2
      · extract_lets -merge +onlyGivenNames x3
        refine Keeps.ite (fun _ => ?_) (fun _ => ?_)
        · exact h2
        · split
          · extract_lets -merge +onlyGivenNames x4
            extract_lets -merge +onlyGivenNames x5
            extract_lets -merge +onlyGivenNames x6
            refine Keeps.of_let x6 ?_ (fun h6 => ?_)
            · unfold x6
              refine Keeps.after (State.setXlt_keeps _ _) (by decide) ?_
              exact h2
            · refine Keeps.foldl _ (fun _ _ => ?_) ?_
              · refine Keeps.after (State.wantPromote_keeps _ _ _) (by decide) ?_
                exact Keeps.refl _ _
              · exact h6
          · refine Keeps.ite (fun _ => ?_) (fun _ => ?_)
            · exact h2
            · extract_lets -merge +onlyGivenNames x4
              extract_lets -merge +onlyGivenNames x5
              extract_lets -merge +onlyGivenNames x6
              extract_lets -merge +onlyGivenNames x7
              refine Keeps.of_let x7 ?_ (fun h7 => ?_)
              · unfold x7
                refine Keeps.after (State.setXlt_keeps _ _) (by decide) ?_
                exact h2
              · refine Keeps.foldl _ (fun _ _ => ?_) ?_
                · refine Keeps.after (State.wantPromote_keeps _ _ _) (by decide) ?_
                  exact Keeps.refl _ _
                · exact h7

theorem State.setScb_keeps (s : State) (n : Nat) (v : Option Scb) :
    Keeps [.bench] s (State.setScb s n v) := by
  unfold State.setScb
  refine Keeps.after (State.setBench_keeps _ _) (by decide) ?_
  exact Keeps.refl _ _

theorem State.scbProgram_keeps (s : State) (n : Nat) :
    Keeps [.med, .bench, .xlt, .out] s (State.scbProgram s n) := by
  unfold State.scbProgram
  split
  · extract_lets -merge +onlyGivenNames x1
    extract_lets -merge +onlyGivenNames x2
    refine Keeps.of_let x2 ?_ (fun h2 => ?_)
    · unfold x2
      refine Keeps.after (State.setScb_keeps _ _ _) (by decide) ?_
      exact Keeps.refl _ _
    · refine Keeps.foldl _ (fun _ _ => ?_) ?_
      · refine Keeps.after (State.moveProgram_keeps _ _ _ _) (by decide) ?_
        exact Keeps.refl _ _
      · exact h2
  · exact Keeps.refl _ _

theorem State.scbReturn_keeps (s : State) (n : Nat) (k : ScbSlot) :
    Keeps [.regs, .evt, .evr, .chans, .med, .bench, .xlt, .cxl, .sec, .out, .fresh] s (State.scbReturn s n k) := by
  unfold State.scbReturn
  split
  · split
    · refine Keeps.after (State.moveLine_keeps _ _ _) (by decide) ?_
      refine Keeps.after (State.setScb_keeps _ _ _) (by decide) ?_
      refine Keeps.of_fst (by assumption) ?_
      refine Keeps.after (State.slotBack_keeps _ _ _) (by decide) ?_
      exact Keeps.refl _ _
    · refine Keeps.of_fst (by assumption) ?_
      refine Keeps.after (State.slotBack_keeps _ _ _) (by decide) ?_
      exact Keeps.refl _ _
  · refine Keeps.of_fst (by assumption) ?_
    refine Keeps.after (State.slotBack_keeps _ _ _) (by decide) ?_
    exact Keeps.refl _ _

theorem State.scbClose_keeps (s : State) (n : Nat) :
    Keeps [.regs, .evt, .evr, .chans, .med, .bench, .xlt, .cxl, .sec, .out, .fresh] s (State.scbClose s n) := by
  unfold State.scbClose
  split
  · exact Keeps.refl _ _
  · refine Keeps.ite (fun _ => ?_) (fun _ => ?_)
    · exact Keeps.refl _ _
    · extract_lets -merge +onlyGivenNames x1
      refine Keeps.of_let x1 ?_ (fun h1 => ?_)
      · unfold x1
        refine Keeps.after (State.setScb_keeps _ _ _) (by decide) ?_
        refine Keeps.after (State.scbProgram_keeps _ _) (by decide) ?_
        exact Keeps.refl _ _
      · extract_lets -merge +onlyGivenNames x2
        refine Keeps.of_let x2 ?_ (fun h2 => ?_)
        · unfold x2
          refine Keeps.foldl _ (fun _ _ => ?_) ?_
          · refine Keeps.after (State.scbReturn_keeps _ _ _) (by decide) ?_
            exact Keeps.refl _ _
          · exact h1
        · refine Keeps.after (State.moveFeed_keeps _ _) (by decide) ?_
          exact h2

theorem State.scbBind_keeps (s : State) (st : Stream) (n : Nat) :
    Keeps [.regs, .evt, .evr, .chans, .med, .bench, .xlt, .cxl, .out, .fresh] s (State.scbBind s st n) := by
  unfold State.scbBind
  extract_lets -merge +onlyGivenNames x1
  extract_lets -merge +onlyGivenNames x2
  split
  · exact Keeps.refl _ _
  · extract_lets -merge +onlyGivenNames x3
    refine Keeps.ite (fun _ => ?_) (fun _ => ?_)
    · exact Keeps.refl _ _
    · extract_lets -merge +onlyGivenNames x4
      clear_value x4
      split
      · exact Keeps.refl _ _
      · extract_lets -merge +onlyGivenNames x4
        refine Keeps.of_let x4 ?_ (fun h4 => ?_)
        · unfold x4
          refine Keeps.after (State.takeSlot_keeps _ _ _) (by decide) ?_
          exact Keeps.refl _ _
        · split
          extract_lets -merge +onlyGivenNames x5
          refine Keeps.of_let x5 ?_ (fun h5 => ?_)
          · unfold x5
            refine Keeps.after (State.putSett_keeps _ _ _) (by decide) ?_
            refine Keeps.of_fst (by assumption) ?_
            refine Keeps.after (State.drawLrot_keeps _ _) (by decide) ?_
            exact h4
          · extract_lets -merge +onlyGivenNames x6
            extract_lets -merge +onlyGivenNames x7
            refine Keeps.of_let x7 ?_ (fun h7 => ?_)
            · unfold x7
              refine Keeps.after (State.setYrw_keeps _ _) (by decide) ?_
              exact h5
            · refine Keeps.after (State.setBench_keeps _ _) (by decide) ?_
              exact h7

theorem State.streamRun_keeps (s : State) (st : Stream) (rl : Nat) (m : BitVec 256) :
    Keeps [.regs, .evt, .evr, .chans, .med, .bench, .xlt, .cxl, .sec, .out, .fresh] s (State.streamRun s st rl m).1 := by
  unfold State.streamRun
  refine Keeps.ite_fst (fun _ => ?_) (fun _ => ?_)
  · dsimp only
    exact Keeps.refl _ _
  · extract_lets -merge +onlyGivenNames x1
    extract_lets -merge +onlyGivenNames x2
    extract_lets -merge +onlyGivenNames x3
    extract_lets -merge +onlyGivenNames x4
    extract_lets -merge +onlyGivenNames x5
    extract_lets -merge +onlyGivenNames x6
    extract_lets -merge +onlyGivenNames x7
    extract_lets -merge +onlyGivenNames x8
    extract_lets -merge +onlyGivenNames x9
    refine Keeps.of_let x9 ?_ (fun h9 => ?_)
    · unfold x9
      refine Keeps.after (State.setBench_keeps _ _) (by decide) ?_
      exact Keeps.refl _ _
    · extract_lets -merge +onlyGivenNames x10
      refine Keeps.of_let x10 ?_ (fun h10 => ?_)
      · unfold x10
        refine Keeps.ite (fun _ => ?_) (fun _ => ?_)
        · refine Keeps.foldl _ (fun _ _ => ?_) ?_
          · refine Keeps.after (State.scbClose_keeps _ _) (by decide) ?_
            exact Keeps.refl _ _
          · exact h9
        · exact h9
      · dsimp only
        exact h10

theorem State.scbWrite_keeps (s : State) (x : Nat) (m : BitVec 256) (d : Line) :
    KeepsO [.regs, .evt, .evr, .chans, .med, .bench, .xlt, .cxl, .sec, .out, .fresh] s (State.scbWrite s x m d) := by
  unfold State.scbWrite
  extract_lets -merge +onlyGivenNames x1
  extract_lets -merge +onlyGivenNames x2
  split
  · exact KeepsO.none
  · extract_lets -merge +onlyGivenNames x3
    extract_lets -merge +onlyGivenNames x4
    split
    · refine KeepsO.ite (fun _ => ?_) (fun _ => ?_)
      · refine KeepsO.ite (fun _ => ?_) (fun _ => ?_)
        · extract_lets -merge +onlyGivenNames x5
          refine KeepsO.some ?_
          refine Keeps.after (State.scbProgram_keeps _ _) (by decide) ?_
          refine Keeps.after (State.setScb_keeps _ _ _) (by decide) ?_
          exact Keeps.refl _ _
        · extract_lets -merge +onlyGivenNames x5
          refine KeepsO.of_let x5 ?_ (fun h5 => ?_)
          · unfold x5
            refine Keeps.after (State.setScb_keeps _ _ _) (by decide) ?_
            exact Keeps.refl _ _
          · split
            · refine KeepsO.some ?_
              refine Keeps.of_fst (by assumption) ?_
              refine Keeps.after (State.placeLine_keeps _ _ _ _ _) (by decide) ?_
              exact h5
            · exact KeepsO.none
      · exact KeepsO.none
    · refine KeepsO.ite (fun _ => ?_) (fun _ => ?_)
      · exact KeepsO.none
      · refine KeepsO.some ?_
        refine Keeps.after (State.scbProgram_keeps _ _) (by decide) ?_
        refine Keeps.after (State.setScb_keeps _ _ _) (by decide) ?_
        exact Keeps.refl _ _

/-! ### FlowOps -/

theorem State.markSett_keeps (s : State) (r : Nat) (i : Nat) :
    Keeps [.regs, .evt, .evr, .chans, .xlt, .twin, .cxl, .out] s (State.markSett s r i) := by
  unfold State.markSett
  extract_lets -merge +onlyGivenNames x1
  extract_lets -merge +onlyGivenNames x2
  refine Keeps.ite (fun _ => ?_) (fun _ => ?_)
  · refine Keeps.after (State.setRt_keeps _ _ _) (by decide) ?_
    exact Keeps.refl _ _
  · refine Keeps.after (State.journal_keeps _ _) (by decide) ?_
    refine Keeps.after (State.setRt_keeps _ _ _) (by decide) ?_
    exact Keeps.refl _ _

theorem State.orderWrite_keeps (s : State) (w : HostWrite) (ftag : BitVec 16) :
    Keeps [.regs, .evt, .evr, .chans, .med, .bench, .xlt, .twin, .cxl, .out] s (State.orderWrite s w ftag) := by
  unfold State.orderWrite
  extract_lets -merge +onlyGivenNames x1
  extract_lets -merge +onlyGivenNames x2
  extract_lets -merge +onlyGivenNames x3
  extract_lets -merge +onlyGivenNames x4
  refine Keeps.of_let x4 ?_ (fun h4 => ?_)
  · unfold x4
    refine Keeps.after (State.putRt_keeps _ _ _) (by decide) ?_
    exact Keeps.refl _ _
  · extract_lets -merge +onlyGivenNames x5
    extract_lets -merge +onlyGivenNames x6
    refine Keeps.of_let x6 ?_ (fun h6 => ?_)
    · unfold x6
      refine Keeps.after (State.dropClear_keeps _ _ _) (by decide) ?_
      refine Keeps.after (State.lossWrite_keeps _ _ _ _) (by decide) ?_
      refine Keeps.ite (fun _ => ?_) (fun _ => ?_)
      · refine Keeps.after (State.markSett_keeps _ _ _) (by decide) ?_
        exact h4
      · exact h4
    · extract_lets -merge +onlyGivenNames x7
      extract_lets -merge +onlyGivenNames x8
      extract_lets -merge +onlyGivenNames x9
      refine Keeps.of_let x9 ?_ (fun h9 => ?_)
      · unfold x9
        refine Keeps.after (State.setBench_keeps _ _) (by decide) ?_
        exact h6
      · refine Keeps.ite (fun _ => ?_) (fun _ => ?_)
        · exact h9
        · refine Keeps.after (State.tsend_keeps _ _ _) (by decide) ?_
          exact h9

theorem State.sealForward_keeps (s : State) :
    Keeps [.bench, .twin, .out] s (State.sealForward s) := by
  unfold State.sealForward
  extract_lets -merge +onlyGivenNames x1
  extract_lets -merge +onlyGivenNames x2
  extract_lets -merge +onlyGivenNames x3
  refine Keeps.of_let x3 ?_ (fun h3 => ?_)
  · unfold x3
    refine Keeps.after (State.setBench_keeps _ _) (by decide) ?_
    exact Keeps.refl _ _
  · refine Keeps.ite (fun _ => ?_) (fun _ => ?_)
    · exact h3
    · refine Keeps.after (State.tsend_keeps _ _ _) (by decide) ?_
      exact h3

theorem State.forwardWrite_keeps (s : State) (w : HostWrite) :
    Keeps [.bench, .twin, .out] s (State.forwardWrite s w) := by
  unfold State.forwardWrite
  extract_lets -merge +onlyGivenNames x1
  refine Keeps.of_let x1 ?_ (fun h1 => ?_)
  · unfold x1
    refine Keeps.ite (fun _ => ?_) (fun _ => ?_)
    · refine Keeps.after (State.sealForward_keeps _) (by decide) ?_
      exact Keeps.refl _ _
    · exact Keeps.refl _ _
  · extract_lets -merge +onlyGivenNames x2
    extract_lets -merge +onlyGivenNames x3
    extract_lets -merge +onlyGivenNames x4
    refine Keeps.of_let x4 ?_ (fun h4 => ?_)
    · unfold x4
      refine Keeps.after (State.setBench_keeps _ _) (by decide) ?_
      exact h1
    · refine Keeps.ite (fun _ => ?_) (fun _ => ?_)
      · refine Keeps.after (State.sealForward_keeps _) (by decide) ?_
        exact h4
      · exact h4

theorem State.admitWrite_keeps (s : State) (w : HostWrite) :
    Keeps [.regs, .evt, .evr, .chans, .med, .bench, .xlt, .twin, .cxl, .out] s (State.admitWrite s w) := by
  unfold State.admitWrite
  refine Keeps.ite (fun _ => ?_) (fun _ => ?_)
  · extract_lets -merge +onlyGivenNames x1
    extract_lets -merge +onlyGivenNames x2
    refine Keeps.of_let x2 ?_ (fun h2 => ?_)
    · unfold x2
      refine Keeps.ite (fun _ => ?_) (fun _ => ?_)
      · refine Keeps.after (State.setBench_keeps _ _) (by decide) ?_
        exact Keeps.refl _ _
      · exact Keeps.refl _ _
    · refine Keeps.after (State.orderWrite_keeps _ _ _) (by decide) ?_
      exact h2
  · refine Keeps.after (State.forwardWrite_keeps _ _) (by decide) ?_
    exact Keeps.refl _ _

theorem State.placeOrder_keeps (s : State) (o : Ordered) :
    Keeps [.regs, .evt, .evr, .chans, .med, .bench, .xlt, .cxl, .sec, .out, .fresh] s (State.placeOrder s o).1 := by
  unfold State.placeOrder
  refine Keeps.ite_fst (fun _ => ?_) (fun _ => ?_)
  · dsimp only
    exact Keeps.refl _ _
  · split
    extract_lets -merge +onlyGivenNames x1
    extract_lets -merge +onlyGivenNames x2
    extract_lets -merge +onlyGivenNames x3
    refine Keeps.of_let x3 ?_ (fun h3 => ?_)
    · unfold x3
      refine Keeps.ite (fun _ => ?_) (fun _ => ?_)
      · refine Keeps.after (State.scbBind_keeps _ _ _) (by decide) ?_
        refine Keeps.of_fst (by assumption) ?_
        refine Keeps.ite_fst (fun _ => ?_) (fun _ => ?_)
        · dsimp only
          exact Keeps.refl _ _
        · refine Keeps.after (State.streamRun_keeps _ _ _ _) (by decide) ?_
          exact Keeps.refl _ _
      · refine Keeps.of_fst (by assumption) ?_
        refine Keeps.ite_fst (fun _ => ?_) (fun _ => ?_)
        · dsimp only
          exact Keeps.refl _ _
        · refine Keeps.after (State.streamRun_keeps _ _ _ _) (by decide) ?_
          exact Keeps.refl _ _
    · split
      · dsimp only
        refine Keeps.of_some (by assumption) ?_
        refine KeepsO.ite (fun _ => ?_) (fun _ => ?_)
        · refine KeepsO.after (State.scbWrite_keeps _ _ _ _) (by decide) ?_
          exact h3
        · exact KeepsO.none
      · refine Keeps.after (State.placeLine_keeps _ _ _ _ _) (by decide) ?_
        exact h3

theorem State.setOrder_keeps (s : State) (o : Ordered) :
    Keeps [.bench] s (State.setOrder s o) := by
  unfold State.setOrder
  refine Keeps.after (State.setBench_keeps _ _) (by decide) ?_
  exact Keeps.refl _ _

theorem State.endOrder_keeps (s : State) (o : Ordered) :
    Keeps [.bench] s (State.endOrder s o) := by
  unfold State.endOrder
  refine Keeps.after (State.setBench_keeps _ _) (by decide) ?_
  exact Keeps.refl _ _

theorem State.placeAll_keeps (s : State) :
    Keeps [.regs, .evt, .evr, .chans, .med, .bench, .xlt, .twin, .cxl, .sec, .out, .fresh] s (State.placeAll s) := by
  unfold State.placeAll
  refine Keeps.foldl_fst _ (fun _ _ => ?_) ?_
  · refine Keeps.ite_fst (fun _ => ?_) (fun _ => ?_)
    · exact Keeps.refl _ _
    · split
      · refine Keeps.ite_fst (fun _ => ?_) (fun _ => ?_)
        · dsimp only
          refine Keeps.after (State.setOrder_keeps _ _) (by decide) ?_
          refine Keeps.of_fst (by assumption) ?_
          refine Keeps.after (State.placeOrder_keeps _ _) (by decide) ?_
          exact Keeps.refl _ _
        · extract_lets -merge +onlyGivenNames x1
          extract_lets -merge +onlyGivenNames x2
          extract_lets -merge +onlyGivenNames x3
          refine Keeps.of_let x3 ?_ (fun h3 => ?_)
          · unfold x3
            refine Keeps.after (State.dropClear_keeps _ _ _) (by decide) ?_
            refine Keeps.after (State.lossWrite_keeps _ _ _ _) (by decide) ?_
            refine Keeps.after (State.putRt_keeps _ _ _) (by decide) ?_
            refine Keeps.after (State.endOrder_keeps _ _) (by decide) ?_
            refine Keeps.of_fst (by assumption) ?_
            refine Keeps.after (State.placeOrder_keeps _ _) (by decide) ?_
            exact Keeps.refl _ _
          · dsimp only
            refine Keeps.after (State.tsend_keeps _ _ _) (by decide) ?_
            exact h3
      · dsimp only
        refine Keeps.after (State.setOrder_keeps _ _) (by decide) ?_
        refine Keeps.of_fst (by assumption) ?_
        refine Keeps.after (State.placeOrder_keeps _ _) (by decide) ?_
        exact Keeps.refl _ _
  · dsimp only
    exact Keeps.refl _ _

theorem State.pieceDone_keeps (s : State) (n : Nat) (psn : BitVec 24) :
    Keeps [.rdma] s (State.pieceDone s n psn) := by
  unfold State.pieceDone
  extract_lets -merge +onlyGivenNames x1
  extract_lets -merge +onlyGivenNames x2
  extract_lets -merge +onlyGivenNames x3
  refine Keeps.of_let x3 ?_ (fun h3 => ?_)
  · unfold x3
    refine Keeps.after (State.setQp_keeps _ _ _) (by decide) ?_
    exact Keeps.refl _ _
  · exact h3

theorem State.atomicDone_keeps (s : State) (n : Nat) (psn : BitVec 24) :
    Keeps [.rdma, .out] s (State.atomicDone s n psn) := by
  unfold State.atomicDone
  extract_lets -merge +onlyGivenNames x1
  split
  · exact Keeps.refl _ _
  · refine Keeps.after (State.emit_keeps _ _) (by decide) ?_
    refine Keeps.after (State.setQp_keeps _ _ _) (by decide) ?_
    exact Keeps.refl _ _

theorem State.ackHost_keeps (s : State) (w : HostWrite) :
    Keeps [.twin, .rdma, .out] s (State.ackHost s w) := by
  unfold State.ackHost
  split
  · refine Keeps.after (State.emit_keeps _ _) (by decide) ?_
    exact Keeps.refl _ _
  · refine Keeps.ite (fun _ => ?_) (fun _ => ?_)
    · exact Keeps.refl _ _
    · refine Keeps.ite (fun _ => ?_) (fun _ => ?_)
      · refine Keeps.after (State.atomicDone_keeps _ _ _) (by decide) ?_
        exact Keeps.refl _ _
      · refine Keeps.after (State.pieceDone_keeps _ _ _) (by decide) ?_
        exact Keeps.refl _ _
  · refine Keeps.after (State.tsend_keeps _ _ _) (by decide) ?_
    exact Keeps.refl _ _
  · extract_lets -merge +onlyGivenNames x1
    refine Keeps.after (State.setQp_keeps _ _ _) (by decide) ?_
    exact Keeps.refl _ _
  · exact Keeps.refl _ _

theorem State.releaseAll_keeps (s : State) :
    Keeps [.bench, .twin, .rdma, .out] s (State.releaseAll s) := by
  unfold State.releaseAll
  refine Keeps.ite (fun _ => ?_) (fun _ => ?_)
  · exact Keeps.refl _ _
  · extract_lets -merge +onlyGivenNames x1
    extract_lets -merge +onlyGivenNames x2
    extract_lets -merge +onlyGivenNames x3
    refine Keeps.of_let x3 ?_ (fun h3 => ?_)
    · unfold x3
      refine Keeps.after (State.setBench_keeps _ _) (by decide) ?_
      exact Keeps.refl _ _
    · refine Keeps.foldl _ (fun _ _ => ?_) ?_
      · refine Keeps.after (State.ackHost_keeps _ _) (by decide) ?_
        exact Keeps.refl _ _
      · exact h3

theorem State.refuseHost_keeps (s : State) (w : HostWrite) (why : Refused) :
    Keeps [.regs, .evt, .evr, .chans, .bench, .twin, .cxl, .rdma, .out] s (State.refuseHost s w why) := by
  unfold State.refuseHost
  split
  · split
    · refine Keeps.after (State.emit_keeps _ _) (by decide) ?_
      refine Keeps.after (State.cxlNotHere_keeps _ _ _ _ _) (by decide) ?_
      exact Keeps.refl _ _
    · refine Keeps.after (State.emit_keeps _ _) (by decide) ?_
      refine Keeps.after (State.cxlNotHere_keeps _ _ _ _ _) (by decide) ?_
      exact Keeps.refl _ _
    · refine Keeps.after (State.emit_keeps _ _) (by decide) ?_
      refine Keeps.after (State.cxlNotHere_keeps _ _ _ _ _) (by decide) ?_
      exact Keeps.refl _ _
    · refine Keeps.after (State.cxlDrop_keeps _ _ _ _ _) (by decide) ?_
      refine Keeps.after (State.dropMark_keeps _ _) (by decide) ?_
      exact Keeps.refl _ _
    · refine Keeps.after (State.cxlDrop_keeps _ _ _ _ _) (by decide) ?_
      exact Keeps.refl _ _
  · split
    · refine Keeps.after (State.qpFatal_keeps _ _ _ _ _ _) (by decide) ?_
      exact Keeps.refl _ _
    · refine Keeps.after (State.qpFatal_keeps _ _ _ _ _ _) (by decide) ?_
      exact Keeps.refl _ _
    · refine Keeps.after (State.qpFatal_keeps _ _ _ _ _ _) (by decide) ?_
      exact Keeps.refl _ _
    · refine Keeps.after (State.qpFatal_keeps _ _ _ _ _ _) (by decide) ?_
      exact Keeps.refl _ _
    · refine Keeps.after (State.qpFatal_keeps _ _ _ _ _ _) (by decide) ?_
      exact Keeps.refl _ _
  · refine Keeps.after (State.tsend_keeps _ _ _) (by decide) ?_
    exact Keeps.refl _ _
  · extract_lets -merge +onlyGivenNames x1
    refine Keeps.after (State.setQp_keeps _ _ _) (by decide) ?_
    exact Keeps.refl _ _
  · exact Keeps.refl _ _

theorem State.judgeCredits_keeps (s : State) :
    Keeps [.regs, .cxl, .out] s (State.judgeCredits s) := by
  unfold State.judgeCredits
  refine Keeps.foldl _ (fun _ _ => ?_) ?_
  · extract_lets -merge +onlyGivenNames x1
    extract_lets -merge +onlyGivenNames x2
    refine Keeps.ite (fun _ => ?_) (fun _ => ?_)
    · refine Keeps.after (State.emit_keeps _ _) (by decide) ?_
      refine Keeps.after (State.bump_keeps _ _ _ _ _ _) (by decide) ?_
      refine Keeps.after (State.setCport_keeps _ _ _) (by decide) ?_
      exact Keeps.refl _ _
    · refine Keeps.ite (fun _ => ?_) (fun _ => ?_)
      · refine Keeps.after (State.emit_keeps _ _) (by decide) ?_
        refine Keeps.after (State.setCport_keeps _ _ _) (by decide) ?_
        exact Keeps.refl _ _
      · exact Keeps.refl _ _
  · exact Keeps.refl _ _

theorem State.holdWrite_keeps (s : State) (w : HostWrite) :
    Keeps [.regs, .bench, .cxl, .out] s (State.holdWrite s w) := by
  unfold State.holdWrite
  refine Keeps.after (State.judgeCredits_keeps _) (by decide) ?_
  refine Keeps.after (State.setBench_keeps _ _) (by decide) ?_
  exact Keeps.refl _ _

theorem State.submit_keeps (s : State) (w : HostWrite) :
    Keeps [.regs, .evt, .evr, .chans, .med, .bench, .xlt, .twin, .cxl, .rdma, .out] s (State.submit s w) := by
  unfold State.submit
  split
  · refine Keeps.ite (fun _ => ?_) (fun _ => ?_)
    · refine Keeps.after (State.ackHost_keeps _ _) (by decide) ?_
      refine Keeps.after (State.putStageLine_keeps _ _ _ _) (by decide) ?_
      exact Keeps.refl _ _
    · refine Keeps.after (State.admitWrite_keeps _ _) (by decide) ?_
      exact Keeps.refl _ _
  · refine Keeps.after (State.holdWrite_keeps _ _) (by decide) ?_
    exact Keeps.refl _ _
  · refine Keeps.after (State.refuseHost_keeps _ _ _) (by decide) ?_
    exact Keeps.refl _ _

theorem State.admitHeld_keeps (s : State) (a1 : Nat) :
    Keeps [.regs, .evt, .evr, .chans, .med, .bench, .xlt, .twin, .cxl, .rdma, .out] s (State.admitHeld s a1) := by
  induction a1 generalizing s
  · unfold State.admitHeld
    exact Keeps.refl _ _
  · rename_i x ih
    unfold State.admitHeld
    split
    · exact Keeps.refl _ _
    · extract_lets -merge +onlyGivenNames x1
      extract_lets -merge +onlyGivenNames x2
      refine Keeps.of_let x2 ?_ (fun h2 => ?_)
      · unfold x2
        refine Keeps.after (State.setBench_keeps _ _) (by decide) ?_
        exact Keeps.refl _ _
      · refine Keeps.trans ?_ (ih _)
        refine Keeps.after (State.judgeCredits_keeps _) (by decide) ?_
        split
        · refine Keeps.after (State.refuseHost_keeps _ _ _) (by decide) ?_
          exact h2
        · refine Keeps.after (State.admitWrite_keeps _ _) (by decide) ?_
          exact h2

theorem State.grantToken_keeps (s : State) :
    Keeps [.bench] s (State.grantToken s) := by
  unfold State.grantToken
  refine Keeps.ite (fun _ => ?_) (fun _ => ?_)
  · refine Keeps.after (State.setBench_keeps _ _) (by decide) ?_
    exact Keeps.refl _ _
  · exact Keeps.refl _ _

theorem State.wantLine_keeps (s : State) (r : Nat) (rl : Nat) (x : Nat) :
    Keeps [.regs, .evt, .evr, .chans, .med, .bench, .xlt, .twin, .cxl, .rdma, .sec, .out, .fresh] s (State.wantLine s r rl x) := by
  unfold State.wantLine
  refine Keeps.ite (fun _ => ?_) (fun _ => ?_)
  · exact Keeps.refl _ _
  · refine Keeps.after (State.serveRead_keeps _ _) (by decide) ?_
    exact Keeps.refl _ _

theorem State.setCq_keeps (s : State) (n : Nat) (v : Option Cq) :
    Keeps [.rdma] s (State.setCq s n v) := by
  unfold State.setCq
  refine Keeps.set_rdma (by decide) ?_
  exact Keeps.refl _ _

theorem State.cqFull_keeps (s : State) (n : Nat) :
    Keeps [.regs, .evt, .evr, .chans, .med, .bench, .xlt, .twin, .cxl, .rdma, .sec, .out, .fresh] s (State.cqFull s n).1 := by
  unfold State.cqFull
  split
  · dsimp only
    exact Keeps.refl _ _
  · refine Keeps.ite_fst (fun _ => ?_) (fun _ => ?_)
    · dsimp only
      exact Keeps.refl _ _
    · split
      · dsimp only
        exact Keeps.refl _ _
      · split
        · dsimp only
          refine Keeps.after (State.wantLine_keeps _ _ _ _) (by decide) ?_
          exact Keeps.refl _ _
        · extract_lets -merge +onlyGivenNames x1
          extract_lets -merge +onlyGivenNames x2
          extract_lets -merge +onlyGivenNames x3
          dsimp only
          refine Keeps.after (State.setCq_keeps _ _ _) (by decide) ?_
          exact Keeps.refl _ _

theorem State.cqWrite_keeps (s : State) (n : Nat) (qpn : Nat) (imm : Nat) (len : Nat) (idx : Nat) (op : Nat) (st : Nat) :
    Keeps [.regs, .evt, .evr, .chans, .med, .bench, .xlt, .twin, .cxl, .rdma, .sec, .out, .fresh] s (State.cqWrite s n qpn imm len idx op st) := by
  unfold State.cqWrite
  split
  split
  · refine Keeps.of_fst (by assumption) ?_
    refine Keeps.after (State.cqFull_keeps _ _) (by decide) ?_
    exact Keeps.refl _ _
  · refine Keeps.ite (fun _ => ?_) (fun _ => ?_)
    · refine Keeps.after (State.cause_keeps _ _ _ _ _) (by decide) ?_
      refine Keeps.of_fst (by assumption) ?_
      refine Keeps.after (State.cqFull_keeps _ _) (by decide) ?_
      exact Keeps.refl _ _
    · extract_lets -merge +onlyGivenNames x1
      extract_lets -merge +onlyGivenNames x2
      extract_lets -merge +onlyGivenNames x3
      refine Keeps.of_let x3 ?_ (fun h3 => ?_)
      · unfold x3
        refine Keeps.after (State.setCq_keeps _ _ _) (by decide) ?_
        refine Keeps.of_fst (by assumption) ?_
        refine Keeps.after (State.cqFull_keeps _ _) (by decide) ?_
        exact Keeps.refl _ _
      · split
        · exact h3
        · extract_lets -merge +onlyGivenNames x4
          refine Keeps.after (State.submit_keeps _ _) (by decide) ?_
          exact h3

theorem State.ackMsgs_keeps (s : State) (n : Nat) (a2 : Nat) :
    Keeps [.regs, .evt, .evr, .chans, .med, .bench, .xlt, .twin, .cxl, .rdma, .sec, .out, .fresh] s (State.ackMsgs s n a2) := by
  induction a2 generalizing s n
  · unfold State.ackMsgs
    exact Keeps.refl _ _
  · rename_i x ih
    unfold State.ackMsgs
    extract_lets -merge +onlyGivenNames x1
    split
    · exact Keeps.refl _ _
    · refine Keeps.ite (fun _ => ?_) (fun _ => ?_)
      · extract_lets -merge +onlyGivenNames x2
        refine Keeps.of_let x2 ?_ (fun h2 => ?_)
        · unfold x2
          refine Keeps.after (State.emit_keeps _ _) (by decide) ?_
          refine Keeps.after (State.setQp_keeps _ _ _) (by decide) ?_
          exact Keeps.refl _ _
        · extract_lets -merge +onlyGivenNames x3
          refine Keeps.of_let x3 ?_ (fun h3 => ?_)
          · unfold x3
            split
            · refine Keeps.after (State.cqWrite_keeps _ _ _ _ _ _ _ _) (by decide) ?_
              exact h2
            · exact h2
          · refine Keeps.trans ?_ (ih _ _)
            exact h3
      · exact Keeps.refl _ _

theorem State.cachePut_keeps (s : State) (n : Nat) (psn : BitVec 24) (v : BitVec 64) :
    Keeps [.rdma] s (State.cachePut s n psn v) := by
  unfold State.cachePut
  extract_lets -merge +onlyGivenNames x1
  extract_lets -merge +onlyGivenNames x2
  extract_lets -merge +onlyGivenNames x3
  extract_lets -merge +onlyGivenNames x4
  refine Keeps.after (State.setQp_keeps _ _ _) (by decide) ?_
  exact Keeps.refl _ _

theorem State.atomicRun_keeps (s : State) (n : Nat) (psn : BitVec 24) (r : Nat) (rl : Nat) (x : Nat) (a : Atomic) :
    Keeps [.regs, .evt, .evr, .chans, .med, .bench, .xlt, .twin, .cxl, .rdma, .sec, .out, .fresh] s (State.atomicRun s n psn r rl x a).1 := by
  unfold State.atomicRun
  extract_lets -merge +onlyGivenNames x1
  extract_lets -merge +onlyGivenNames x2
  split
  · dsimp only
    refine Keeps.after (State.refuseHost_keeps _ _ _) (by decide) ?_
    exact Keeps.refl _ _
  · dsimp only
    exact Keeps.refl _ _
  · refine Keeps.ite_fst (fun _ => ?_) (fun _ => ?_)
    · dsimp only
      exact Keeps.refl _ _
    · refine Keeps.ite_fst (fun _ => ?_) (fun _ => ?_)
      · dsimp only
        refine Keeps.after (State.qpFatal_keeps _ _ _ _ _ _) (by decide) ?_
        exact Keeps.refl _ _
      · split
        · dsimp only
          refine Keeps.after (State.wantLine_keeps _ _ _ _) (by decide) ?_
          exact Keeps.refl _ _
        · extract_lets -merge +onlyGivenNames x3
          extract_lets -merge +onlyGivenNames x4
          extract_lets -merge +onlyGivenNames x5
          extract_lets -merge +onlyGivenNames x6
          refine Keeps.of_let x6 ?_ (fun h6 => ?_)
          · unfold x6
            refine Keeps.after (State.setQp_keeps _ _ _) (by decide) ?_
            exact Keeps.refl _ _
          · dsimp only
            refine Keeps.after (State.admitWrite_keeps _ _) (by decide) ?_
            refine Keeps.after (State.cachePut_keeps _ _ _ _) (by decide) ?_
            exact h6

theorem State.stageAtomic_keeps (s : State) (n : Nat) (psn : BitVec 24) (off : Nat) (a : Atomic) :
    Keeps [.chans, .rdma, .out] s (State.stageAtomic s n psn off a) := by
  unfold State.stageAtomic
  extract_lets -merge +onlyGivenNames x1
  extract_lets -merge +onlyGivenNames x2
  extract_lets -merge +onlyGivenNames x3
  extract_lets -merge +onlyGivenNames x4
  refine Keeps.of_let x4 ?_ (fun h4 => ?_)
  · unfold x4
    refine Keeps.after (State.setQp_keeps _ _ _) (by decide) ?_
    exact Keeps.refl _ _
  · refine Keeps.after (State.atomicDone_keeps _ _ _) (by decide) ?_
    refine Keeps.after (State.putStageLine_keeps _ _ _ _) (by decide) ?_
    refine Keeps.after (State.cachePut_keeps _ _ _ _) (by decide) ?_
    exact h4

theorem State.readLines_keeps (s : State) (who : Origin) (r : Nat) (off : Nat) (len : Nat) :
    Keeps [.regs, .evt, .evr, .chans, .med, .bench, .xlt, .twin, .cxl, .rdma, .sec, .out, .fresh] s (State.readLines s who r off len) := by
  unfold State.readLines
  refine Keeps.foldl_fst _ (fun _ _ => ?_) ?_
  · extract_lets -merge +onlyGivenNames x1
    dsimp only
    refine Keeps.ite (fun _ => ?_) (fun _ => ?_)
    · refine Keeps.after (State.respond_keeps _ _ _) (by decide) ?_
      exact Keeps.refl _ _
    · split
      · exact Keeps.refl _ _
      · refine Keeps.after (State.serveRead_keeps _ _) (by decide) ?_
        exact Keeps.refl _ _
  · dsimp only
    exact Keeps.refl _ _

theorem State.readStart_keeps (s : State) (n : Nat) (psn : BitVec 24) (r : Nat) (off : Nat) (len : Nat) :
    Keeps [.regs, .evt, .evr, .chans, .med, .bench, .xlt, .twin, .cxl, .rdma, .sec, .out, .fresh] s (State.readStart s n psn r off len) := by
  unfold State.readStart
  extract_lets -merge +onlyGivenNames x1
  extract_lets -merge +onlyGivenNames x2
  extract_lets -merge +onlyGivenNames x3
  extract_lets -merge +onlyGivenNames x4
  refine Keeps.of_let x4 ?_ (fun h4 => ?_)
  · unfold x4
    refine Keeps.after (State.setQp_keeps _ _ _) (by decide) ?_
    exact Keeps.refl _ _
  · refine Keeps.ite (fun _ => ?_) (fun _ => ?_)
    · refine Keeps.after (State.emit_keeps _ _) (by decide) ?_
      exact h4
    · refine Keeps.after (State.readLines_keeps _ _ _ _ _) (by decide) ?_
      exact h4

theorem State.qpKick_keeps (s : State) (n : Nat) (a2 : Nat) :
    Keeps [.regs, .evt, .evr, .chans, .med, .bench, .xlt, .twin, .cxl, .rdma, .sec, .out, .fresh] s (State.qpKick s n a2) := by
  induction a2 generalizing s n
  · unfold State.qpKick
    exact Keeps.refl _ _
  · rename_i x ih
    unfold State.qpKick
    extract_lets -merge +onlyGivenNames x1
    refine Keeps.ite (fun _ => ?_) (fun _ => ?_)
    · exact Keeps.refl _ _
    · split
      · exact Keeps.refl _ _
      · extract_lets -merge +onlyGivenNames x2
        split
        · refine Keeps.trans ?_ (ih _ _)
          refine Keeps.foldl _ (fun _ _ => ?_) ?_
          · refine Keeps.after (State.submit_keeps _ _) (by decide) ?_
            exact Keeps.refl _ _
          · unfold x2
            refine Keeps.after (State.setQp_keeps _ _ _) (by decide) ?_
            exact Keeps.refl _ _
        · refine Keeps.ite (fun _ => ?_) (fun _ => ?_)
          · exact Keeps.refl _ _
          · refine Keeps.trans ?_ (ih _ _)
            refine Keeps.after (State.emit_keeps _ _) (by decide) ?_
            refine Keeps.after (State.setQp_keeps _ _ _) (by decide) ?_
            unfold x2
            refine Keeps.after (State.setQp_keeps _ _ _) (by decide) ?_
            exact Keeps.refl _ _
        · refine Keeps.ite (fun _ => ?_) (fun _ => ?_)
          · exact Keeps.refl _ _
          · refine Keeps.ite (fun _ => ?_) (fun _ => ?_)
            · refine Keeps.after (State.qpFatal_keeps _ _ _ _ _ _) (by decide) ?_
              unfold x2
              refine Keeps.after (State.setQp_keeps _ _ _) (by decide) ?_
              exact Keeps.refl _ _
            · refine Keeps.ite (fun _ => ?_) (fun _ => ?_)
              · refine Keeps.after (State.qpFatal_keeps _ _ _ _ _ _) (by decide) ?_
                unfold x2
                refine Keeps.after (State.setQp_keeps _ _ _) (by decide) ?_
                exact Keeps.refl _ _
              · refine Keeps.trans ?_ (ih _ _)
                refine Keeps.after (State.readStart_keeps _ _ _ _ _ _) (by decide) ?_
                refine Keeps.after (State.setQp_keeps _ _ _) (by decide) ?_
                unfold x2
                refine Keeps.after (State.setQp_keeps _ _ _) (by decide) ?_
                exact Keeps.refl _ _
        · refine Keeps.ite (fun _ => ?_) (fun _ => ?_)
          · exact Keeps.refl _ _
          · refine Keeps.ite (fun _ => ?_) (fun _ => ?_)
            · refine Keeps.trans ?_ (ih _ _)
              refine Keeps.after (State.stageAtomic_keeps _ _ _ _ _) (by decide) ?_
              unfold x2
              refine Keeps.after (State.setQp_keeps _ _ _) (by decide) ?_
              exact Keeps.refl _ _
            · split
              · unfold x2
                refine Keeps.after (State.setQp_keeps _ _ _) (by decide) ?_
                exact Keeps.refl _ _
              · split
                · refine Keeps.trans ?_ (ih _ _)
                  unfold x2
                  refine Keeps.after (State.setQp_keeps _ _ _) (by decide) ?_
                  refine Keeps.of_fst (by assumption) ?_
                  refine Keeps.after (State.atomicRun_keeps _ _ _ _ _ _ _) (by decide) ?_
                  exact Keeps.refl _ _
                · refine Keeps.of_fst (by assumption) ?_
                  refine Keeps.after (State.atomicRun_keeps _ _ _ _ _ _ _) (by decide) ?_
                  exact Keeps.refl _ _

theorem State.takeEarly_keeps (s : State) (a1 : Nat) :
    Keeps [.bench] s (State.takeEarly s a1) := by
  induction a1 generalizing s
  · unfold State.takeEarly
    exact Keeps.refl _ _
  · rename_i x ih
    unfold State.takeEarly
    split
    · exact Keeps.refl _ _
    · refine Keeps.trans ?_ (ih _)
      refine Keeps.after (State.setBench_keeps _ _) (by decide) ?_
      exact Keeps.refl _ _

theorem State.resyncKick_keeps (s : State) :
    Keeps [.regs, .evt, .evr, .chans, .med, .bench, .xlt, .twin, .cxl, .rdma, .sec, .out, .fresh] s (State.resyncKick s) := by
  unfold State.resyncKick
  refine Keeps.foldl _ (fun _ _ => ?_) ?_
  · extract_lets -merge +onlyGivenNames x1
    refine Keeps.ite (fun _ => ?_) (fun _ => ?_)
    · exact Keeps.refl _ _
    · split
      · exact Keeps.refl _ _
      · extract_lets -merge +onlyGivenNames x2
        refine Keeps.of_let x2 ?_ (fun h2 => ?_)
        · unfold x2
          refine Keeps.after (State.setRt_keeps _ _ _) (by decide) ?_
          exact Keeps.refl _ _
        · split
          · exact h2
          · refine Keeps.ite (fun _ => ?_) (fun _ => ?_)
            · refine Keeps.after (State.resyncSend_keeps _ _ _) (by decide) ?_
              exact h2
            · extract_lets -merge +onlyGivenNames x3
              extract_lets -merge +onlyGivenNames x4
              extract_lets -merge +onlyGivenNames x5
              refine Keeps.of_let x5 ?_ (fun h5 => ?_)
              · unfold x5
                refine Keeps.after (State.setBench_keeps _ _) (by decide) ?_
                exact h2
              · refine Keeps.after (State.redrive_keeps _ _) (by decide) ?_
                exact h5
  · exact Keeps.refl _ _

theorem State.gpfCheck_keeps (s : State) :
    Keeps [.regs, .evt, .evr, .chans, .cxl, .out] s (State.gpfCheck s) := by
  unfold State.gpfCheck
  refine Keeps.foldl _ (fun _ _ => ?_) ?_
  · extract_lets -merge +onlyGivenNames x1
    split
    · exact Keeps.refl _ _
    · extract_lets -merge +onlyGivenNames x2
      refine Keeps.ite (fun _ => ?_) (fun _ => ?_)
      · exact Keeps.refl _ _
      · extract_lets -merge +onlyGivenNames x3
        refine Keeps.of_let x3 ?_ (fun h3 => ?_)
        · unfold x3
          refine Keeps.after (State.setCport_keeps _ _ _) (by decide) ?_
          exact Keeps.refl _ _
        · refine Keeps.after (State.emit_keeps _ _) (by decide) ?_
          refine Keeps.after (State.cause_keeps _ _ _ _ _) (by decide) ?_
          refine Keeps.set_cxl (by decide) ?_
          exact h3
  · exact Keeps.refl _ _

theorem State.judgeServed_keeps (s : State) :
    Keeps [.twin] s (State.judgeServed s) := by
  unfold State.judgeServed
  refine Keeps.foldl _ (fun _ _ => ?_) ?_
  · extract_lets -merge +onlyGivenNames x1
    refine Keeps.ite (fun _ => ?_) (fun _ => ?_)
    · exact Keeps.refl _ _
    · refine Keeps.ite (fun _ => ?_) (fun _ => ?_)
      · refine Keeps.ite (fun _ => ?_) (fun _ => ?_)
        · refine Keeps.after (State.setRt_keeps _ _ _) (by decide) ?_
          exact Keeps.refl _ _
        · exact Keeps.refl _ _
      · refine Keeps.after (State.setRt_keeps _ _ _) (by decide) ?_
        exact Keeps.refl _ _
  · exact Keeps.refl _ _

theorem State.tellDurable_keeps (s : State) :
    Keeps [.regs, .evt, .evr, .chans, .med, .bench, .xlt, .twin, .cxl, .rdma, .sec, .out, .fresh] s (State.tellDurable s) := by
  unfold State.tellDurable
  refine Keeps.foldl _ (fun _ _ => ?_) ?_
  · refine Keeps.after (State.qpKick_keeps _ _ _) (by decide) ?_
    refine Keeps.after (State.ackMsgs_keeps _ _ _) (by decide) ?_
    exact Keeps.refl _ _
  · exact Keeps.refl _ _

theorem State.settleOnce_keeps (s : State) :
    Keeps [.regs, .evt, .evr, .chans, .med, .bench, .xlt, .twin, .cxl, .rdma, .sec, .out, .fresh] s (State.settleOnce s) := by
  unfold State.settleOnce
  refine Keeps.ite (fun _ => ?_) (fun _ => ?_)
  · exact Keeps.refl _ _
  · extract_lets -merge +onlyGivenNames x1
    refine Keeps.of_let x1 ?_ (fun h1 => ?_)
    · unfold x1
      refine Keeps.after (State.takeEarly_keeps _ _) (by decide) ?_
      refine Keeps.after (State.judgeServed_keeps _) (by decide) ?_
      exact Keeps.refl _ _
    · extract_lets -merge +onlyGivenNames x2
      refine Keeps.of_let x2 ?_ (fun h2 => ?_)
      · unfold x2
        refine Keeps.after (State.releaseAll_keeps _) (by decide) ?_
        refine Keeps.after (State.placeAll_keeps _) (by decide) ?_
        exact h1
      · extract_lets -merge +onlyGivenNames x3
        refine Keeps.of_let x3 ?_ (fun h3 => ?_)
        · unfold x3
          refine Keeps.after (State.tellDurable_keeps _) (by decide) ?_
          exact h2
        · extract_lets -merge +onlyGivenNames x4
          refine Keeps.of_let x4 ?_ (fun h4 => ?_)
          · unfold x4
            refine Keeps.after (State.admitHeld_keeps _ _) (by decide) ?_
            exact h3
          · refine Keeps.after (State.gpfCheck_keeps _) (by decide) ?_
            refine Keeps.after (State.resyncKick_keeps _) (by decide) ?_
            refine Keeps.after (State.pressure_keeps _) (by decide) ?_
            exact h4

theorem State.settleRun_keeps (a0 : Nat) (a1 : State) :
    Keeps [.regs, .evt, .evr, .chans, .med, .bench, .xlt, .twin, .cxl, .rdma, .sec, .out, .fresh] a1 (State.settleRun a0 a1) := by
  induction a0 generalizing a1
  · unfold State.settleRun
    exact Keeps.refl _ _
  · rename_i x ih
    unfold State.settleRun
    extract_lets -merge +onlyGivenNames x1
    refine Keeps.of_let x1 ?_ (fun h1 => ?_)
    · unfold x1
      refine Keeps.after (State.settleOnce_keeps _) (by decide) ?_
      exact Keeps.refl _ _
    · refine Keeps.ite (fun _ => ?_) (fun _ => ?_)
      · exact h1
      · refine Keeps.trans ?_ (ih _)
        exact h1

theorem State.settle_keeps (s : State) :
    Keeps [.regs, .evt, .evr, .chans, .med, .bench, .xlt, .twin, .cxl, .rdma, .sec, .out, .fresh] s (State.settle s) := by
  unfold State.settle
  refine Keeps.after (State.judgeXlt_keeps _) (by decide) ?_
  refine Keeps.after (State.judgeTdm_keeps _) (by decide) ?_
  refine Keeps.after (State.judgeBench_keeps _) (by decide) ?_
  refine Keeps.after (State.settleRun_keeps _ _) (by decide) ?_
  exact Keeps.refl _ _

end Sys2Proof.Machine
end

