-- ==== Sys2Proof/Laws/Frame3.lean ====
section
/-! SUPPORT. What each operation and command of TwinOps, RegionOps, DramBase, CxlOps, Eyebright, MedOps, DrainOps, YarrowOps can change: every other part of the state stays. -/

namespace Sys2Proof.Machine

/-! ### TwinOps -/

theorem State.endPromotion_keeps (s : State) (n : Nat) :
    Keeps [.med, .xlt] s (State.endPromotion s n) := by
  unfold State.endPromotion
  extract_lets -merge +onlyGivenNames x1
  extract_lets -merge +onlyGivenNames x2
  refine Keeps.of_let x2 ?_ (fun h2 => ?_)
  · unfold x2
    refine Keeps.after (State.setPage_keeps _ _ _) (by decide) ?_
    exact Keeps.refl _ _
  · extract_lets -merge +onlyGivenNames x3
    extract_lets -merge +onlyGivenNames x4
    refine Keeps.of_let x4 ?_ (fun h4 => ?_)
    · unfold x4
      refine Keeps.after (State.setXlt_keeps _ _) (by decide) ?_
      exact h2
    · refine Keeps.ite (fun _ => ?_) (fun _ => ?_)
      · refine Keeps.after (State.setSett_keeps _ _ _) (by decide) ?_
        exact h4
      · exact h4

theorem State.dropSett_keeps (s : State) (n : Nat) :
    Keeps [.bench, .sec] s (State.dropSett s n) := by
  unfold State.dropSett
  extract_lets -merge +onlyGivenNames x1
  refine Keeps.of_let x1 ?_ (fun h1 => ?_)
  · unfold x1
    refine Keeps.after (State.setScb_keeps _ _ _) (by decide) ?_
    exact Keeps.refl _ _
  · extract_lets -merge +onlyGivenNames x2
    extract_lets -merge +onlyGivenNames x3
    refine Keeps.of_let x3 ?_ (fun h3 => ?_)
    · unfold x3
      refine Keeps.after (State.setBench_keeps _ _) (by decide) ?_
      exact h1
    · refine Keeps.foldl _ (fun _ _ => ?_) ?_
      · refine Keeps.ite (fun _ => ?_) (fun _ => ?_)
        · refine Keeps.after (State.dropLine_keeps _ _) (by decide) ?_
          exact Keeps.refl _ _
        · exact Keeps.refl _ _
      · exact h3

theorem State.forgetQueued_keeps (s : State) (n : Nat) :
    Keeps [.med] s (State.forgetQueued s n) := by
  unfold State.forgetQueued
  refine Keeps.after (State.setMed_keeps _ _) (by decide) ?_
  exact Keeps.refl _ _

theorem State.lossFree_keeps (s : State) (n : Nat) :
    Keeps [.regs, .evt, .evr, .chans, .med, .xlt, .cxl, .out] s (State.lossFree s n) := by
  unfold State.lossFree
  split
  · exact Keeps.refl _ _
  · refine Keeps.foldl _ (fun _ _ => ?_) ?_
    · refine Keeps.ite (fun _ => ?_) (fun _ => ?_)
      · refine Keeps.after (State.unlose_keeps _ _ _) (by decide) ?_
        exact Keeps.refl _ _
      · exact Keeps.refl _ _
    · exact Keeps.refl _ _

theorem State.releaseSett_keeps (s : State) (n : Nat) :
    Keeps [.regs, .evt, .evr, .chans, .med, .bench, .xlt, .cxl, .sec, .out] s (State.releaseSett s n) := by
  unfold State.releaseSett
  extract_lets -merge +onlyGivenNames x1
  refine Keeps.of_let x1 ?_ (fun h1 => ?_)
  · unfold x1
    refine Keeps.after (State.dropSett_keeps _ _) (by decide) ?_
    refine Keeps.after (State.endPromotion_keeps _ _) (by decide) ?_
    refine Keeps.after (State.moveAbandon_keeps _ _ _) (by decide) ?_
    exact Keeps.refl _ _
  · extract_lets -merge +onlyGivenNames x2
    refine Keeps.of_let x2 ?_ (fun h2 => ?_)
    · unfold x2
      refine Keeps.after (State.forgetQueued_keeps _ _) (by decide) ?_
      exact h1
    · extract_lets -merge +onlyGivenNames x3
      extract_lets -merge +onlyGivenNames x4
      refine Keeps.of_let x4 ?_ (fun h4 => ?_)
      · unfold x4
        split
        · refine Keeps.after (State.leaveSlot_keeps _ _ _ _) (by decide) ?_
          exact h2
        · exact h2
      · extract_lets -merge +onlyGivenNames x5
        refine Keeps.of_let x5 ?_ (fun h5 => ?_)
        · unfold x5
          refine Keeps.after (State.putSett_keeps _ _ _) (by decide) ?_
          refine Keeps.after (State.setYoung_keeps _ _ _) (by decide) ?_
          exact h4
        · refine Keeps.after (State.lossFree_keeps _ _) (by decide) ?_
          exact h5

theorem State.setPair_keeps (s : State) (p : PairState) :
    Keeps [.nv, .twin] s (State.setPair s p) := by
  unfold State.setPair
  extract_lets -merge +onlyGivenNames x1
  extract_lets -merge +onlyGivenNames x2
  extract_lets -merge +onlyGivenNames x3
  refine Keeps.of_let x3 ?_ (fun h3 => ?_)
  · unfold x3
    refine Keeps.after (State.setTwin_keeps _ _) (by decide) ?_
    exact Keeps.refl _ _
  · extract_lets -merge +onlyGivenNames x4
    refine Keeps.ite (fun _ => ?_) (fun _ => ?_)
    · refine Keeps.after (State.nvWrite_keeps _ _ _) (by decide) ?_
      exact h3
    · exact h3

theorem State.goSolo_keeps (s : State) (r : Nat) :
    Keeps [.regs, .evt, .evr, .chans, .bench, .xlt, .twin, .cxl, .out] s (State.goSolo s r) := by
  unfold State.goSolo
  extract_lets -merge +onlyGivenNames x1
  extract_lets -merge +onlyGivenNames x2
  refine Keeps.of_let x2 ?_ (fun h2 => ?_)
  · unfold x2
    refine Keeps.foldl _ (fun _ _ => ?_) ?_
    · refine Keeps.ite (fun _ => ?_) (fun _ => ?_)
      · exact Keeps.refl _ _
      · refine Keeps.after (State.markSett_keeps _ _ _) (by decide) ?_
        exact Keeps.refl _ _
    · exact Keeps.refl _ _
  · extract_lets -merge +onlyGivenNames x3
    extract_lets -merge +onlyGivenNames x4
    refine Keeps.of_let x4 ?_ (fun h4 => ?_)
    · unfold x4
      refine Keeps.after (State.setBench_keeps _ _) (by decide) ?_
      exact h2
    · refine Keeps.after (State.putRt_keeps _ _ _) (by decide) ?_
      exact h4

theorem State.fenceEnd_keeps (s : State) (r : Nat) :
    Keeps [.regs, .evt, .evr, .chans, .bench, .xlt, .twin, .cxl, .out] s (State.fenceEnd s r) := by
  unfold State.fenceEnd
  extract_lets -merge +onlyGivenNames x1
  refine Keeps.ite (fun _ => ?_) (fun _ => ?_)
  · refine Keeps.after (State.goSolo_keeps _ _) (by decide) ?_
    exact Keeps.refl _ _
  · exact Keeps.refl _ _

theorem State.fenceRegion_keeps (s : State) (r : Nat) :
    Keeps [.regs, .evt, .evr, .chans, .xlt, .twin, .cxl, .out] s (State.fenceRegion s r) := by
  unfold State.fenceRegion
  refine Keeps.after (State.putRt_keeps _ _ _) (by decide) ?_
  exact Keeps.refl _ _

theorem State.failForwarded_keeps (s : State) :
    Keeps [.regs, .evt, .evr, .chans, .bench, .twin, .cxl, .rdma, .out] s (State.failForwarded s) := by
  unfold State.failForwarded
  extract_lets -merge +onlyGivenNames x1
  extract_lets -merge +onlyGivenNames x2
  extract_lets -merge +onlyGivenNames x3
  refine Keeps.of_let x3 ?_ (fun h3 => ?_)
  · unfold x3
    refine Keeps.after (State.setBench_keeps _ _) (by decide) ?_
    exact Keeps.refl _ _
  · refine Keeps.foldl _ (fun _ _ => ?_) ?_
    · refine Keeps.after (State.refuseHost_keeps _ _ _) (by decide) ?_
      exact Keeps.refl _ _
    · exact h3

theorem State.loseHere_keeps (s : State) (x : Nat) :
    Keeps [.regs, .evt, .evr, .chans, .med, .xlt, .cxl, .out] s (State.loseHere s x) := by
  unfold State.loseHere
  split
  refine Keeps.after (State.lose_keeps _ _ _ _) (by decide) ?_
  exact Keeps.refl _ _

theorem State.endSession_keeps (s : State) :
    Keeps [.regs, .evt, .evr, .chans, .med, .bench, .xlt, .twin, .cxl, .rdma, .sec, .out, .fresh] s (State.endSession s) := by
  unfold State.endSession
  extract_lets -merge +onlyGivenNames x1
  refine Keeps.of_let x1 ?_ (fun h1 => ?_)
  · unfold x1
    refine Keeps.foldl _ (fun _ _ => ?_) ?_
    · refine Keeps.after (State.loseHere_keeps _ _) (by decide) ?_
      exact Keeps.refl _ _
    · exact Keeps.refl _ _
  · extract_lets -merge +onlyGivenNames x2
    extract_lets -merge +onlyGivenNames x3
    refine Keeps.of_let x3 ?_ (fun h3 => ?_)
    · unfold x3
      refine Keeps.after (State.setTwin_keeps _ _) (by decide) ?_
      exact h1
    · extract_lets -merge +onlyGivenNames x4
      extract_lets -merge +onlyGivenNames x5
      refine Keeps.of_let x5 ?_ (fun h5 => ?_)
      · unfold x5
        refine Keeps.after (State.setBench_keeps _ _) (by decide) ?_
        exact h3
      · extract_lets -merge +onlyGivenNames x6
        refine Keeps.of_let x6 ?_ (fun h6 => ?_)
        · unfold x6
          refine Keeps.foldl _ (fun _ _ => ?_) ?_
          · extract_lets -merge +onlyGivenNames x7
            refine Keeps.after (State.setRt_keeps _ _ _) (by decide) ?_
            exact Keeps.refl _ _
          · exact h5
        · extract_lets -merge +onlyGivenNames x7
          extract_lets -merge +onlyGivenNames x8
          refine Keeps.of_let x8 ?_ (fun h8 => ?_)
          · unfold x8
            refine Keeps.foldl _ (fun _ _ => ?_) ?_
            · refine Keeps.after (State.moveAbandon_keeps _ _ _) (by decide) ?_
              exact Keeps.refl _ _
            · exact h6
          · extract_lets -merge +onlyGivenNames x9
            extract_lets -merge +onlyGivenNames x10
            refine Keeps.of_let x10 ?_ (fun h10 => ?_)
            · unfold x10
              refine Keeps.after (State.setBench_keeps _ _) (by decide) ?_
              exact h8
            · refine Keeps.after (State.redrive_keeps _ _) (by decide) ?_
              exact h10

theorem State.fenceWitness_keeps (s : State) (r : Nat) :
    Keeps [.regs, .evt, .evr, .chans, .xlt, .twin, .cxl, .out] s (State.fenceWitness s r) := by
  unfold State.fenceWitness
  extract_lets -merge +onlyGivenNames x1
  refine Keeps.after (State.putRt_keeps _ _ _) (by decide) ?_
  refine Keeps.after (State.fenceRegion_keeps _ _) (by decide) ?_
  exact Keeps.refl _ _

theorem State.fenceWaited_keeps (s : State) (r : Nat) :
    Keeps [.regs, .evt, .evr, .chans, .xlt, .twin, .cxl, .out] s (State.fenceWaited s r) := by
  unfold State.fenceWaited
  refine Keeps.ite (fun _ => ?_) (fun _ => ?_)
  · refine Keeps.after (State.fenceWitness_keeps _ _) (by decide) ?_
    exact Keeps.refl _ _
  · exact Keeps.refl _ _

theorem State.failAlloc_keeps (s : State) :
    Keeps [.chans, .twin, .cxl, .out] s (State.failAlloc s) := by
  unfold State.failAlloc
  refine Keeps.foldl _ (fun _ _ => ?_) ?_
  · split
    · refine Keeps.after (State.complete_keeps _ _ _ _ _) (by decide) ?_
      exact Keeps.refl _ _
    · exact Keeps.refl _ _
  · refine Keeps.after (State.setTwin_keeps _ _) (by decide) ?_
    exact Keeps.refl _ _

theorem State.failHanding_keeps (s : State) :
    Keeps [.regs, .evt, .evr, .chans, .xlt, .twin, .cxl, .out] s (State.failHanding s) := by
  unfold State.failHanding
  refine Keeps.foldl _ (fun _ _ => ?_) ?_
  · extract_lets -merge +onlyGivenNames x1
    split
    · exact Keeps.refl _ _
    · extract_lets -merge +onlyGivenNames x2
      refine Keeps.of_let x2 ?_ (fun h2 => ?_)
      · unfold x2
        refine Keeps.after (State.fenceWaited_keeps _ _) (by decide) ?_
        refine Keeps.after (State.setRt_keeps _ _ _) (by decide) ?_
        exact Keeps.refl _ _
      · split
        · refine Keeps.after (State.complete_keeps _ _ _ _ _) (by decide) ?_
          exact h2
        · exact h2
  · exact Keeps.refl _ _

theorem State.declareLoss_keeps (s : State) :
    Keeps [.regs, .evt, .nv, .evr, .chans, .med, .bench, .xlt, .twin, .cxl, .rdma, .sec, .out, .fresh] s (State.declareLoss s) := by
  unfold State.declareLoss
  refine Keeps.ite (fun _ => ?_) (fun _ => ?_)
  · refine Keeps.ite (fun _ => ?_) (fun _ => ?_)
    · refine Keeps.after (State.judgeTdm_keeps _) (by decide) ?_
      refine Keeps.after (State.setPair_keeps _ _) (by decide) ?_
      refine Keeps.after (State.endSession_keeps _) (by decide) ?_
      exact Keeps.refl _ _
    · exact Keeps.refl _ _
  · extract_lets -merge +onlyGivenNames x1
    refine Keeps.of_let x1 ?_ (fun h1 => ?_)
    · unfold x1
      refine Keeps.after (State.endSession_keeps _) (by decide) ?_
      refine Keeps.after (State.failHanding_keeps _) (by decide) ?_
      refine Keeps.after (State.setPair_keeps _ _) (by decide) ?_
      refine Keeps.after (State.bump_keeps _ _ _ _ _ _) (by decide) ?_
      exact Keeps.refl _ _
    · extract_lets -merge +onlyGivenNames x2
      extract_lets -merge +onlyGivenNames x3
      refine Keeps.of_let x3 ?_ (fun h3 => ?_)
      · unfold x3
        refine Keeps.after (State.setTwin_keeps _ _) (by decide) ?_
        exact h1
      · extract_lets -merge +onlyGivenNames x4
        refine Keeps.of_let x4 ?_ (fun h4 => ?_)
        · unfold x4
          refine Keeps.foldl _ (fun _ _ => ?_) ?_
          · extract_lets -merge +onlyGivenNames x5
            refine Keeps.ite (fun _ => ?_) (fun _ => ?_)
            · refine Keeps.ite (fun _ => ?_) (fun _ => ?_)
              · exact Keeps.refl _ _
              · extract_lets -merge +onlyGivenNames x6
                refine Keeps.of_let x6 ?_ (fun h6 => ?_)
                · unfold x6
                  refine Keeps.foldl _ (fun _ _ => ?_) ?_
                  · refine Keeps.after (State.markSett_keeps _ _ _) (by decide) ?_
                    exact Keeps.refl _ _
                  · exact Keeps.refl _ _
                · refine Keeps.after (State.putRt_keeps _ _ _) (by decide) ?_
                  exact h6
            · refine Keeps.after (State.fenceRegion_keeps _ _) (by decide) ?_
              exact Keeps.refl _ _
          · exact h3
        · refine Keeps.after (State.settle_keeps _) (by decide) ?_
          refine Keeps.after (State.failAlloc_keeps _) (by decide) ?_
          refine Keeps.after (State.failForwarded_keeps _) (by decide) ?_
          exact h4

theorem State.soloAll_keeps (s : State) :
    Keeps [.regs, .evt, .evr, .chans, .bench, .xlt, .twin, .cxl, .out] s (State.soloAll s) := by
  unfold State.soloAll
  refine Keeps.foldl _ (fun _ _ => ?_) ?_
  · refine Keeps.after (State.goSolo_keeps _ _) (by decide) ?_
    exact Keeps.refl _ _
  · exact Keeps.refl _ _

theorem State.clearAwaits_keeps (s : State) (r : Nat) :
    Keeps [.bench] s (State.clearAwaits s r) := by
  unfold State.clearAwaits
  refine Keeps.after (State.setBench_keeps _ _) (by decide) ?_
  exact Keeps.refl _ _

theorem State.openSolo_keeps (s : State) (r : Nat) :
    Keeps [.regs, .evt, .evr, .chans, .bench, .xlt, .twin, .cxl, .out] s (State.openSolo s r) := by
  unfold State.openSolo
  extract_lets -merge +onlyGivenNames x1
  extract_lets -merge +onlyGivenNames x2
  refine Keeps.of_let x2 ?_ (fun h2 => ?_)
  · unfold x2
    refine Keeps.after (State.setRegion_keeps _ _ _) (by decide) ?_
    exact Keeps.refl _ _
  · extract_lets -merge +onlyGivenNames x3
    refine Keeps.of_let x3 ?_ (fun h3 => ?_)
    · unfold x3
      refine Keeps.ite (fun _ => ?_) (fun _ => ?_)
      · exact h2
      · refine Keeps.after (State.deviceRecord_keeps _ _ _) (by decide) ?_
        exact h2
    · extract_lets -merge +onlyGivenNames x4
      refine Keeps.of_let x4 ?_ (fun h4 => ?_)
      · unfold x4
        refine Keeps.after (State.clearAwaits_keeps _ _) (by decide) ?_
        exact h3
      · refine Keeps.after (State.putRt_keeps _ _ _) (by decide) ?_
        refine Keeps.after (State.goSolo_keeps _ _) (by decide) ?_
        exact h4

theorem State.soloRegion_keeps (s : State) (r : Nat) :
    Keeps [.regs, .evt, .evr, .chans, .bench, .xlt, .twin, .cxl, .out] s (State.soloRegion s r) := by
  unfold State.soloRegion
  refine Keeps.after (State.openSolo_keeps _ _) (by decide) ?_
  exact Keeps.refl _ _

theorem State.takeoverRegion_keeps (s : State) (r : Nat) :
    Keeps [.regs, .evt, .evr, .chans, .bench, .xlt, .twin, .cxl, .out] s (State.takeoverRegion s r) := by
  unfold State.takeoverRegion
  extract_lets -merge +onlyGivenNames x1
  extract_lets -merge +onlyGivenNames x2
  refine Keeps.of_let x2 ?_ (fun h2 => ?_)
  · unfold x2
    refine Keeps.after (State.putRt_keeps _ _ _) (by decide) ?_
    exact Keeps.refl _ _
  · refine Keeps.after (State.cause_keeps _ _ _ _ _) (by decide) ?_
    refine Keeps.after (State.openSolo_keeps _ _) (by decide) ?_
    exact h2

theorem State.handovers_keeps (s : State) :
    Keeps [.regs, .evt, .evr, .chans, .xlt, .twin, .cxl, .out] s (State.handovers s) := by
  unfold State.handovers
  refine Keeps.ite (fun _ => ?_) (fun _ => ?_)
  · exact Keeps.refl _ _
  · refine Keeps.foldl _ (fun _ _ => ?_) ?_
    · extract_lets -merge +onlyGivenNames x1
      refine Keeps.ite (fun _ => ?_) (fun _ => ?_)
      · refine Keeps.after (State.tsend_keeps _ _ _) (by decide) ?_
        refine Keeps.after (State.putRt_keeps _ _ _) (by decide) ?_
        exact Keeps.refl _ _
      · exact Keeps.refl _ _
    · exact Keeps.refl _ _

theorem State.detachEnd_keeps (s : State) :
    Keeps [.regs, .evt, .nv, .evr, .chans, .med, .bench, .xlt, .twin, .cxl, .rdma, .sec, .out, .fresh] s (State.detachEnd s) := by
  unfold State.detachEnd
  refine Keeps.ite (fun _ => ?_) (fun _ => ?_)
  · extract_lets -merge +onlyGivenNames x1
    refine Keeps.of_let x1 ?_ (fun h1 => ?_)
    · unfold x1
      refine Keeps.foldl _ (fun _ _ => ?_) ?_
      · refine Keeps.after (State.fenceRegion_keeps _ _) (by decide) ?_
        exact Keeps.refl _ _
      · exact Keeps.refl _ _
    · extract_lets -merge +onlyGivenNames x2
      refine Keeps.of_let x2 ?_ (fun h2 => ?_)
      · unfold x2
        refine Keeps.after (State.endSession_keeps _) (by decide) ?_
        refine Keeps.after (State.setPair_keeps _ _) (by decide) ?_
        refine Keeps.after (State.tsend_keeps _ _ _) (by decide) ?_
        exact h1
      · extract_lets -merge +onlyGivenNames x3
        extract_lets -merge +onlyGivenNames x4
        refine Keeps.of_let x4 ?_ (fun h4 => ?_)
        · unfold x4
          refine Keeps.after (State.setTwin_keeps _ _) (by decide) ?_
          exact h2
        · extract_lets -merge +onlyGivenNames x5
          refine Keeps.of_let x5 ?_ (fun h5 => ?_)
          · unfold x5
            refine Keeps.after (State.failForwarded_keeps _) (by decide) ?_
            exact h4
          · split
            · refine Keeps.after (State.complete_keeps _ _ _ _ _) (by decide) ?_
              exact h5
            · exact h5
  · exact Keeps.refl _ _

theorem State.detachStart_keeps (s : State) (who : Option (Fin 64 × BitVec 16)) :
    Keeps [.regs, .evt, .nv, .evr, .chans, .med, .bench, .xlt, .twin, .cxl, .rdma, .sec, .out, .fresh] s (State.detachStart s who) := by
  unfold State.detachStart
  extract_lets -merge +onlyGivenNames x1
  extract_lets -merge +onlyGivenNames x2
  refine Keeps.of_let x2 ?_ (fun h2 => ?_)
  · unfold x2
    refine Keeps.after (State.setTwin_keeps _ _) (by decide) ?_
    exact Keeps.refl _ _
  · extract_lets -merge +onlyGivenNames x3
    refine Keeps.of_let x3 ?_ (fun h3 => ?_)
    · unfold x3
      refine Keeps.foldl _ (fun _ _ => ?_) ?_
      · extract_lets -merge +onlyGivenNames x4
        refine Keeps.ite (fun _ => ?_) (fun _ => ?_)
        · refine Keeps.ite (fun _ => ?_) (fun _ => ?_)
          · refine Keeps.after (State.putRt_keeps _ _ _) (by decide) ?_
            exact Keeps.refl _ _
          · refine Keeps.after (State.setRt_keeps _ _ _) (by decide) ?_
            exact Keeps.refl _ _
        · exact Keeps.refl _ _
      · exact h2
    · refine Keeps.after (State.detachEnd_keeps _) (by decide) ?_
      refine Keeps.after (State.handovers_keeps _) (by decide) ?_
      exact h3

theorem State.parkCheck_keeps (s : State) :
    Keeps [.nv, .twin] s (State.parkCheck s) := by
  unfold State.parkCheck
  refine Keeps.ite (fun _ => ?_) (fun _ => ?_)
  · refine Keeps.after (State.setPair_keeps _ _) (by decide) ?_
    refine Keeps.after (State.setTwin_keeps _ _) (by decide) ?_
    exact Keeps.refl _ _
  · exact Keeps.refl _ _

theorem State.settleTwin_keeps (s : State) :
    Keeps [.regs, .evt, .nv, .evr, .chans, .med, .bench, .xlt, .twin, .cxl, .rdma, .sec, .out, .fresh] s (State.settleTwin s) := by
  unfold State.settleTwin
  refine Keeps.after (State.judgeTdm_keeps _) (by decide) ?_
  refine Keeps.after (State.parkCheck_keeps _) (by decide) ?_
  refine Keeps.after (State.detachEnd_keeps _) (by decide) ?_
  refine Keeps.after (State.handovers_keeps _) (by decide) ?_
  refine Keeps.after (State.settle_keeps _) (by decide) ?_
  exact Keeps.refl _ _

theorem State.startLeave_keeps (s : State) (trigger : Nat) :
    Keeps [.nv, .twin, .out] s (State.startLeave s trigger) := by
  unfold State.startLeave
  refine Keeps.ite (fun _ => ?_) (fun _ => ?_)
  · refine Keeps.after (State.parkCheck_keeps _) (by decide) ?_
    refine Keeps.after (State.tsend_keeps _ _ _) (by decide) ?_
    refine Keeps.after (State.setTwin_keeps _ _) (by decide) ?_
    exact Keeps.refl _ _
  · exact Keeps.refl _ _

theorem State.askAwaits_keeps (s : State) (r : Nat) :
    Keeps [.twin, .out] s (State.askAwaits s r).1 := by
  unfold State.askAwaits
  extract_lets -merge +onlyGivenNames x1
  dsimp only
  refine Keeps.foldl _ (fun _ _ => ?_) ?_
  · refine Keeps.after (State.assistAsk_keeps _ _ _ _ _) (by decide) ?_
    exact Keeps.refl _ _
  · exact Keeps.refl _ _

theorem State.regionPaired_keeps (s : State) (r : Nat) (peerMarks : List Nat) :
    Keeps [.regs, .evt, .evr, .chans, .bench, .xlt, .twin, .cxl, .out] s (State.regionPaired s r peerMarks) := by
  unfold State.regionPaired
  extract_lets -merge +onlyGivenNames x1
  extract_lets -merge +onlyGivenNames x2
  refine Keeps.of_let x2 ?_ (fun h2 => ?_)
  · unfold x2
    refine Keeps.after (State.setRegion_keeps _ _ _) (by decide) ?_
    exact Keeps.refl _ _
  · extract_lets -merge +onlyGivenNames x3
    split
    · exact h2
    · extract_lets -merge +onlyGivenNames x4
      extract_lets -merge +onlyGivenNames x5
      split
      · refine Keeps.ite (fun _ => ?_) (fun _ => ?_)
        · extract_lets -merge +onlyGivenNames x6
          refine Keeps.of_let x6 ?_ (fun h6 => ?_)
          · unfold x6
            refine Keeps.after (State.putRt_keeps _ _ _) (by decide) ?_
            exact h2
          · split
            refine Keeps.ite (fun _ => ?_) (fun _ => ?_)
            · refine Keeps.after (State.setRt_keeps _ _ _) (by decide) ?_
              refine Keeps.of_fst (by assumption) ?_
              refine Keeps.after (State.askAwaits_keeps _ _) (by decide) ?_
              exact h6
            · refine Keeps.of_fst (by assumption) ?_
              refine Keeps.after (State.askAwaits_keeps _ _) (by decide) ?_
              exact h6
        · refine Keeps.after (State.putRt_keeps _ _ _) (by decide) ?_
          exact h2
      · extract_lets -merge +onlyGivenNames x6
        extract_lets -merge +onlyGivenNames x7
        refine Keeps.of_let x7 ?_ (fun h7 => ?_)
        · unfold x7
          refine Keeps.ite (fun _ => ?_) (fun _ => ?_)
          · refine Keeps.after (State.cause_keeps _ _ _ _ _) (by decide) ?_
            exact h2
          · exact h2
        · extract_lets -merge +onlyGivenNames x8
          extract_lets -merge +onlyGivenNames x9
          refine Keeps.ite (fun _ => ?_) (fun _ => ?_)
          · refine Keeps.after (State.goSolo_keeps _ _) (by decide) ?_
            refine Keeps.after (State.putRt_keeps _ _ _) (by decide) ?_
            exact h7
          · extract_lets -merge +onlyGivenNames x10
            refine Keeps.of_let x10 ?_ (fun h10 => ?_)
            · unfold x10
              refine Keeps.after (State.putRt_keeps _ _ _) (by decide) ?_
              exact h7
            · extract_lets -merge +onlyGivenNames x11
              extract_lets -merge +onlyGivenNames x12
              refine Keeps.of_let x12 ?_ (fun h12 => ?_)
              · unfold x12
                refine Keeps.after (State.tsend_keeps _ _ _) (by decide) ?_
                exact h10
              · refine Keeps.after (State.askAwaits_keeps _ _) (by decide) ?_
                exact h12
      · extract_lets -merge +onlyGivenNames x6
        extract_lets -merge +onlyGivenNames x7
        refine Keeps.of_let x7 ?_ (fun h7 => ?_)
        · unfold x7
          refine Keeps.ite (fun _ => ?_) (fun _ => ?_)
          · refine Keeps.foldl _ (fun _ _ => ?_) ?_
            · refine Keeps.after (State.deviceRecord_keeps _ _ _) (by decide) ?_
              exact Keeps.refl _ _
            · refine Keeps.after (State.cause_keeps _ _ _ _ _) (by decide) ?_
              exact h2
          · exact h2
        · refine Keeps.ite (fun _ => ?_) (fun _ => ?_)
          · refine Keeps.after (State.putRt_keeps _ _ _) (by decide) ?_
            exact h7
          · refine Keeps.after (State.putRt_keeps _ _ _) (by decide) ?_
            exact h7

theorem State.pairComplete_keeps (s : State) :
    Keeps [.regs, .evt, .nv, .evr, .chans, .med, .bench, .xlt, .twin, .cxl, .rdma, .sec, .out, .fresh] s (State.pairComplete s) := by
  unfold State.pairComplete
  extract_lets -merge +onlyGivenNames x1
  refine Keeps.of_let x1 ?_ (fun h1 => ?_)
  · unfold x1
    refine Keeps.after (State.setPair_keeps _ _) (by decide) ?_
    exact Keeps.refl _ _
  · extract_lets -merge +onlyGivenNames x2
    refine Keeps.of_let x2 ?_ (fun h2 => ?_)
    · unfold x2
      refine Keeps.foldl _ (fun _ _ => ?_) ?_
      · refine Keeps.after (State.regionPaired_keeps _ _ _) (by decide) ?_
        exact Keeps.refl _ _
      · exact h1
    · refine Keeps.after (State.settleTwin_keeps _) (by decide) ?_
      refine Keeps.after (State.setTwin_keeps _ _) (by decide) ?_
      exact h2

theorem State.clearMarks_keeps (s : State) (r : Nat) :
    Keeps [.regs, .evt, .evr, .chans, .xlt, .twin, .cxl, .out] s (State.clearMarks s r) := by
  unfold State.clearMarks
  extract_lets -merge +onlyGivenNames x1
  refine Keeps.foldl _ (fun _ _ => ?_) ?_
  · refine Keeps.after (State.journal_keeps _ _) (by decide) ?_
    exact Keeps.refl _ _
  · refine Keeps.after (State.putRt_keeps _ _ _) (by decide) ?_
    exact Keeps.refl _ _

theorem State.targetDone_keeps (s : State) (r : Nat) :
    Keeps [.regs, .evt, .evr, .chans, .bench, .xlt, .twin, .cxl, .out] s (State.targetDone s r) := by
  unfold State.targetDone
  extract_lets -merge +onlyGivenNames x1
  refine Keeps.ite (fun _ => ?_) (fun _ => ?_)
  · extract_lets -merge +onlyGivenNames x2
    refine Keeps.of_let x2 ?_ (fun h2 => ?_)
    · unfold x2
      refine Keeps.after (State.tsend_keeps _ _ _) (by decide) ?_
      refine Keeps.after (State.clearMarks_keeps _ _) (by decide) ?_
      refine Keeps.after (State.putRt_keeps _ _ _) (by decide) ?_
      exact Keeps.refl _ _
    · refine Keeps.after (State.judgeTdm_keeps _) (by decide) ?_
      refine Keeps.after (State.cause_keeps _ _ _ _ _) (by decide) ?_
      refine Keeps.after (State.clearAwaits_keeps _ _) (by decide) ?_
      exact h2
  · exact Keeps.refl _ _

theorem State.targetSett_keeps (s : State) (r : Nat) :
    Keeps [.regs, .evt, .evr, .chans, .bench, .xlt, .twin, .cxl, .out] s (State.targetSett s r) := by
  unfold State.targetSett
  extract_lets -merge +onlyGivenNames x1
  refine Keeps.ite (fun _ => ?_) (fun _ => ?_)
  · refine Keeps.after (State.targetDone_keeps _ _) (by decide) ?_
    refine Keeps.after (State.setRt_keeps _ _ _) (by decide) ?_
    exact Keeps.refl _ _
  · exact Keeps.refl _ _

theorem State.resyncStart_keeps (s : State) (n : Nat) (m : Mode) :
    Keeps [.regs, .evt, .evr, .chans, .med, .xlt, .cxl, .out, .fresh] s (State.resyncStart s n m) := by
  unfold State.resyncStart
  split
  · exact Keeps.refl _ _
  · extract_lets -merge +onlyGivenNames x1
    extract_lets -merge +onlyGivenNames x2
    clear_value x2
    split
    · exact Keeps.refl _ _
    · split
      extract_lets -merge +onlyGivenNames x2
      extract_lets -merge +onlyGivenNames x3
      refine Keeps.of_let x3 ?_ (fun h3 => ?_)
      · unfold x3
        refine Keeps.after (State.putSett_keeps _ _ _) (by decide) ?_
        refine Keeps.of_fst (by assumption) ?_
        refine Keeps.after (State.drawLrot_keeps _ _) (by decide) ?_
        refine Keeps.after (State.takeSlot_keeps _ _ _) (by decide) ?_
        refine Keeps.after (State.endPromotion_keeps _ _) (by decide) ?_
        exact Keeps.refl _ _
      · refine Keeps.after (State.setYrw_keeps _ _) (by decide) ?_
        exact h3

theorem State.resyncApply_keeps (s : State) (e : WEntry) :
    Keeps [.regs, .evt, .evr, .chans, .med, .bench, .xlt, .twin, .cxl, .sec, .out, .fresh] s (State.resyncApply s e).1 := by
  unfold State.resyncApply
  extract_lets -merge +onlyGivenNames x1
  extract_lets -merge +onlyGivenNames x2
  extract_lets -merge +onlyGivenNames x3
  refine Keeps.ite_fst (fun _ => ?_) (fun _ => ?_)
  · dsimp only
    exact Keeps.refl _ _
  · refine Keeps.ite_fst (fun _ => ?_) (fun _ => ?_)
    · dsimp only
      exact Keeps.refl _ _
    · refine Keeps.ite_fst (fun _ => ?_) (fun _ => ?_)
      · dsimp only
        unfold x2
        refine Keeps.after (State.tsend_keeps _ _ _) (by decide) ?_
        refine Keeps.after (State.targetSett_keeps _ _) (by decide) ?_
        refine Keeps.after (State.releaseSett_keeps _ _) (by decide) ?_
        exact Keeps.refl _ _
      · extract_lets -merge +onlyGivenNames x4
        refine Keeps.of_let x4 ?_ (fun h4 => ?_)
        · unfold x4
          refine Keeps.ite (fun _ => ?_) (fun _ => ?_)
          · exact Keeps.refl _ _
          · refine Keeps.ite (fun _ => ?_) (fun _ => ?_)
            · refine Keeps.after (State.resyncStart_keeps _ _ _) (by decide) ?_
              exact Keeps.refl _ _
            · exact Keeps.refl _ _
        · split
          · dsimp only
            exact h4
          · refine Keeps.ite_fst (fun _ => ?_) (fun _ => ?_)
            · dsimp only
              unfold x2
              refine Keeps.after (State.tsend_keeps _ _ _) (by decide) ?_
              exact h4
            · extract_lets -merge +onlyGivenNames x5
              extract_lets -merge +onlyGivenNames x6
              refine Keeps.of_let x6 ?_ (fun h6 => ?_)
              · unfold x6
                split
                · extract_lets -merge +onlyGivenNames x7
                  refine Keeps.after (State.notePartial_keeps _ _) (by decide) ?_
                  refine Keeps.after (State.setBline_keeps _ _ _) (by decide) ?_
                  exact h4
                · exact h4
              · extract_lets -merge +onlyGivenNames x7
                dsimp only
                unfold x2
                refine Keeps.after (State.tsend_keeps _ _ _) (by decide) ?_
                refine Keeps.after (State.moveProgram_keeps _ _ _ _) (by decide) ?_
                exact h6

theorem State.resyncHeld_keeps (s : State) :
    Keeps [.regs, .evt, .evr, .chans, .med, .bench, .xlt, .twin, .cxl, .sec, .out, .fresh] s (State.resyncHeld s) := by
  unfold State.resyncHeld
  extract_lets -merge +onlyGivenNames x1
  refine Keeps.foldl _ (fun _ _ => ?_) ?_
  · split
    · refine Keeps.of_fst (by assumption) ?_
      refine Keeps.after (State.resyncApply_keeps _ _) (by decide) ?_
      exact Keeps.refl _ _
    · refine Keeps.after (State.setTwin_keeps _ _) (by decide) ?_
      refine Keeps.of_fst (by assumption) ?_
      refine Keeps.after (State.resyncApply_keeps _ _) (by decide) ?_
      exact Keeps.refl _ _
  · refine Keeps.after (State.setTwin_keeps _ _) (by decide) ?_
    exact Keeps.refl _ _

theorem Keeps.set_chans_cxl_rdma_sec {w : List Part} {s t : State} {x0} {x1} {x2} {x3} (hp : Part.chans ∈ w ∧ Part.cxl ∈ w ∧ Part.rdma ∈ w ∧ Part.sec ∈ w)
    (hx : (x3.groups, x3.arb) = (t.sec.groups, t.sec.arb)) (h : Keeps w s t) :
    Keeps w s { t with chans := x0, cxl := x1, rdma := x2, sec := x3 } := fun q hq => by
  cases q <;> first | exact h _ hq | exact hx.trans (h .fuse hq) | simp_all

theorem Keeps.set_chans_cxl_rdma_sec_fuse {w : List Part} {s t : State} {x0} {x1} {x2} {x3} (hp : Part.chans ∈ w ∧ Part.cxl ∈ w ∧ Part.rdma ∈ w ∧ Part.sec ∈ w ∧ Part.fuse ∈ w) (h : Keeps w s t) :
    Keeps w s { t with chans := x0, cxl := x1, rdma := x2, sec := x3 } := fun q hq => by
  cases q <;> first | exact h _ hq | simp_all

theorem State.regionGone_keeps (s : State) (r : Nat) :
    Keeps [.regs, .evt, .nv, .evr, .chans, .med, .bench, .xlt, .twin, .cxl, .rdma, .sec, .out] s (State.regionGone s r) := by
  unfold State.regionGone
  extract_lets -merge +onlyGivenNames x1
  refine Keeps.of_let x1 ?_ (fun h1 => ?_)
  · unfold x1
    refine Keeps.foldl _ (fun _ _ => ?_) ?_
    · split
      · refine Keeps.after (State.releaseSett_keeps _ _) (by decide) ?_
        exact Keeps.refl _ _
      · exact Keeps.refl _ _
    · exact Keeps.refl _ _
  · extract_lets -merge +onlyGivenNames x2
    extract_lets -merge +onlyGivenNames x3
    extract_lets -merge +onlyGivenNames x4
    extract_lets -merge +onlyGivenNames x5
    extract_lets -merge +onlyGivenNames x6
    refine Keeps.of_let x6 ?_ (fun h6 => ?_)
    · unfold x6
      refine Keeps.set_chans_cxl_rdma_sec (by decide) rfl ?_
      exact h1
    · extract_lets -merge +onlyGivenNames x7
      extract_lets -merge +onlyGivenNames x8
      refine Keeps.of_let x8 ?_ (fun h8 => ?_)
      · unfold x8
        refine Keeps.after (State.setXlt_keeps _ _) (by decide) ?_
        exact h6
      · refine Keeps.after (State.nvWrite_keeps _ _ _) (by decide) ?_
        refine Keeps.after (State.journal_keeps _ _) (by decide) ?_
        refine Keeps.after (State.setRt_keeps _ _ _) (by decide) ?_
        refine Keeps.after (State.setRegion_keeps _ _ _) (by decide) ?_
        exact h8

theorem State.convQueue_keeps (s : State) (r : Nat) :
    Keeps [.med] s (State.convQueue s r) := by
  unfold State.convQueue
  split
  · exact Keeps.refl _ _
  · extract_lets -merge +onlyGivenNames x1
    refine Keeps.foldl _ (fun _ _ => ?_) ?_
    · extract_lets -merge +onlyGivenNames x2
      refine Keeps.ite (fun _ => ?_) (fun _ => ?_)
      · exact Keeps.refl _ _
      · refine Keeps.after (State.setMed_keeps _ _) (by decide) ?_
        exact Keeps.refl _ _
    · exact Keeps.refl _ _

theorem State.keyIn_keeps (s : State) (r : Nat) (key : Nat) :
    Keeps [.sec] s (State.keyIn s r key) := by
  unfold State.keyIn
  refine Keeps.set_sec (by decide) rfl ?_
  exact Keeps.refl _ _

theorem State.shrinkSetts_keeps (s : State) (r : Nat) (size : Nat) :
    Keeps [.regs, .evt, .evr, .chans, .med, .bench, .xlt, .cxl, .sec, .out] s (State.shrinkSetts s r size) := by
  unfold State.shrinkSetts
  refine Keeps.foldl _ (fun _ _ => ?_) ?_
  · split
    · refine Keeps.after (State.releaseSett_keeps _ _) (by decide) ?_
      exact Keeps.refl _ _
    · exact Keeps.refl _ _
  · exact Keeps.refl _ _

theorem State.eraseHere_keeps (s : State) (r : Nat) :
    Keeps [.regs, .evt, .evr, .chans, .med, .bench, .xlt, .cxl, .sec, .out] s (State.eraseHere s r) := by
  unfold State.eraseHere
  extract_lets -merge +onlyGivenNames x1
  extract_lets -merge +onlyGivenNames x2
  refine Keeps.of_let x2 ?_ (fun h2 => ?_)
  · unfold x2
    refine Keeps.after (State.shrinkSetts_keeps _ _ _) (by decide) ?_
    exact Keeps.refl _ _
  · refine Keeps.set_sec (by decide) rfl ?_
    exact h2

theorem State.cdatAdvance_keeps (s : State) (l : Nat) :
    Keeps [.cxl] s (State.cdatAdvance s l) := by
  unfold State.cdatAdvance
  extract_lets -merge +onlyGivenNames x1
  refine Keeps.set_cxl (by decide) ?_
  exact Keeps.refl _ _

theorem State.putBinding_keeps (s : State) (k : Nat) (v : Option BindTo) :
    Keeps [.nv, .cxl] s (State.putBinding s k v) := by
  unfold State.putBinding
  refine Keeps.after (State.cdatAdvance_keeps _ _) (by decide) ?_
  refine Keeps.after (State.nvWrite_keeps _ _ _) (by decide) ?_
  refine Keeps.set_cxl (by decide) ?_
  exact Keeps.refl _ _

theorem State.takeBinds_keeps (s : State) (r : Nat) (bs : List (Nat × BindTo)) :
    Keeps [.nv, .cxl] s (State.takeBinds s r bs) := by
  unfold State.takeBinds
  extract_lets -merge +onlyGivenNames x1
  extract_lets -merge +onlyGivenNames x2
  refine Keeps.of_let x2 ?_ (fun h2 => ?_)
  · unfold x2
    refine Keeps.foldl _ (fun _ _ => ?_) ?_
    · refine Keeps.ite (fun _ => ?_) (fun _ => ?_)
      · exact Keeps.refl _ _
      · refine Keeps.after (State.putBinding_keeps _ _ _) (by decide) ?_
        exact Keeps.refl _ _
    · exact Keeps.refl _ _
  · refine Keeps.foldl _ (fun _ _ => ?_) ?_
    · refine Keeps.ite (fun _ => ?_) (fun _ => ?_)
      · exact Keeps.refl _ _
      · refine Keeps.after (State.putBinding_keeps _ _ _) (by decide) ?_
        exact Keeps.refl _ _
    · exact h2

theorem State.applyAttr_keeps (s : State) (r : Nat) (ver : Word) (a : RegionAttr) :
    Keeps [.regs, .evt, .nv, .evr, .chans, .med, .bench, .xlt, .twin, .cxl, .rdma, .sec, .out] s (State.applyAttr s r ver a) := by
  unfold State.applyAttr
  refine Keeps.ite (fun _ => ?_) (fun _ => ?_)
  · refine Keeps.after (State.regionGone_keeps _ _) (by decide) ?_
    exact Keeps.refl _ _
  · extract_lets -merge +onlyGivenNames x1
    extract_lets -merge +onlyGivenNames x2
    extract_lets -merge +onlyGivenNames x3
    refine Keeps.of_let x3 ?_ (fun h3 => ?_)
    · unfold x3
      refine Keeps.foldl _ (fun _ _ => ?_) ?_
      · refine Keeps.foldl _ (fun _ _ => ?_) ?_
        · refine Keeps.after (State.releaseSett_keeps _ _) (by decide) ?_
          exact Keeps.refl _ _
        · exact Keeps.refl _ _
      · exact Keeps.refl _ _
    · extract_lets -merge +onlyGivenNames x4
      refine Keeps.of_let x4 ?_ (fun h4 => ?_)
      · unfold x4
        refine Keeps.ite (fun _ => ?_) (fun _ => ?_)
        · refine Keeps.after (State.shrinkSetts_keeps _ _ _) (by decide) ?_
          exact h3
        · exact h3
      · extract_lets -merge +onlyGivenNames x5
        extract_lets -merge +onlyGivenNames x6
        refine Keeps.of_let x6 ?_ (fun h6 => ?_)
        · unfold x6
          refine Keeps.after (State.journal_keeps _ _) (by decide) ?_
          refine Keeps.after (State.setRegion_keeps _ _ _) (by decide) ?_
          exact h4
        · extract_lets -merge +onlyGivenNames x7
          refine Keeps.of_let x7 ?_ (fun h7 => ?_)
          · unfold x7
            refine Keeps.foldl _ (fun _ _ => ?_) ?_
            · extract_lets -merge +onlyGivenNames x8
              refine Keeps.of_let x8 ?_ (fun h8 => ?_)
              · unfold x8
                refine Keeps.after (State.forgetQueued_keeps _ _) (by decide) ?_
                refine Keeps.after (State.dropSett_keeps _ _) (by decide) ?_
                refine Keeps.after (State.endPromotion_keeps _ _) (by decide) ?_
                refine Keeps.after (State.moveAbandon_keeps _ _ _) (by decide) ?_
                exact Keeps.refl _ _
              · refine Keeps.after (State.lossFree_keeps _ _) (by decide) ?_
                refine Keeps.after (State.putSett_keeps _ _ _) (by decide) ?_
                exact h8
            · exact h6
          · extract_lets -merge +onlyGivenNames x8
            extract_lets -merge +onlyGivenNames x9
            refine Keeps.of_let x9 ?_ (fun h9 => ?_)
            · unfold x9
              refine Keeps.ite (fun _ => ?_) (fun _ => ?_)
              · exact h7
              · refine Keeps.set_sec (by decide) rfl ?_
                exact h7
            · extract_lets -merge +onlyGivenNames x10
              refine Keeps.of_let x10 ?_ (fun h10 => ?_)
              · unfold x10
                refine Keeps.ite (fun _ => ?_) (fun _ => ?_)
                · refine Keeps.after (State.eraseHere_keeps _ _) (by decide) ?_
                  exact h9
                · exact h9
              · extract_lets -merge +onlyGivenNames x11
                refine Keeps.of_let x11 ?_ (fun h11 => ?_)
                · unfold x11
                  split
                  · refine Keeps.after (State.keyIn_keeps _ _ _) (by decide) ?_
                    exact h10
                  · exact h10
                · extract_lets -merge +onlyGivenNames x12
                  extract_lets -merge +onlyGivenNames x13
                  extract_lets -merge +onlyGivenNames x14
                  refine Keeps.of_let x14 ?_ (fun h14 => ?_)
                  · unfold x14
                    refine Keeps.ite (fun _ => ?_) (fun _ => ?_)
                    · refine Keeps.set_sec (by decide) rfl ?_
                      exact h11
                    · exact h11
                  · extract_lets -merge +onlyGivenNames x15
                    refine Keeps.of_let x15 ?_ (fun h15 => ?_)
                    · unfold x15
                      refine Keeps.ite (fun _ => ?_) (fun _ => ?_)
                      · exact h14
                      · refine Keeps.after (State.convQueue_keeps _ _) (by decide) ?_
                        exact h14
                    · extract_lets -merge +onlyGivenNames x16
                      refine Keeps.of_let x16 ?_ (fun h16 => ?_)
                      · unfold x16
                        split
                        · refine Keeps.after (State.takeBinds_keeps _ _ _) (by decide) ?_
                          exact h15
                        · exact h15
                      · extract_lets -merge +onlyGivenNames x17
                        refine Keeps.after (State.putRt_keeps _ _ _) (by decide) ?_
                        exact h16

theorem State.takeAttrs_keeps (s : State) (a1 : Nat) :
    Keeps [.regs, .evt, .nv, .evr, .chans, .med, .bench, .xlt, .twin, .cxl, .rdma, .sec, .out] s (State.takeAttrs s a1) := by
  induction a1 generalizing s
  · unfold State.takeAttrs
    exact Keeps.refl _ _
  · rename_i x ih
    unfold State.takeAttrs
    split
    · exact Keeps.refl _ _
    · extract_lets -merge +onlyGivenNames x1
      extract_lets -merge +onlyGivenNames x2
      refine Keeps.of_let x2 ?_ (fun h2 => ?_)
      · unfold x2
        refine Keeps.after (State.setTwin_keeps _ _) (by decide) ?_
        exact Keeps.refl _ _
      · extract_lets -merge +onlyGivenNames x3
        refine Keeps.of_let x3 ?_ (fun h3 => ?_)
        · unfold x3
          refine Keeps.after (State.applyAttr_keeps _ _ _ _) (by decide) ?_
          exact h2
        · extract_lets -merge +onlyGivenNames x4
          extract_lets -merge +onlyGivenNames x5
          refine Keeps.of_let x5 ?_ (fun h5 => ?_)
          · unfold x5
            refine Keeps.ite (fun _ => ?_) (fun _ => ?_)
            · refine Keeps.after (State.putRt_keeps _ _ _) (by decide) ?_
              exact h3
            · exact h3
          · refine Keeps.trans ?_ (ih _)
            refine Keeps.after (State.tsend_keeps _ _ _) (by decide) ?_
            exact h5

theorem State.sendAttr_keeps (s : State) (r : Nat) (a : RegionAttr) :
    Keeps [.regs, .evt, .evr, .chans, .xlt, .twin, .cxl, .out] s (State.sendAttr s r a) := by
  unfold State.sendAttr
  extract_lets -merge +onlyGivenNames x1
  extract_lets -merge +onlyGivenNames x2
  extract_lets -merge +onlyGivenNames x3
  refine Keeps.of_let x3 ?_ (fun h3 => ?_)
  · unfold x3
    refine Keeps.after (State.putRt_keeps _ _ _) (by decide) ?_
    exact Keeps.refl _ _
  · refine Keeps.ite (fun _ => ?_) (fun _ => ?_)
    · refine Keeps.after (State.tsend_keeps _ _ _) (by decide) ?_
      exact h3
    · exact h3

theorem State.keyDraw_keeps (s : State) (r : Nat) (share : Bool) :
    Keeps [.nv, .sec] s (State.keyDraw s r share).1 := by
  unfold State.keyDraw
  extract_lets -merge +onlyGivenNames x1
  extract_lets -merge +onlyGivenNames x2
  dsimp only
  refine Keeps.after (State.nvWrite_keeps _ _ _) (by decide) ?_
  refine Keeps.set_sec (by decide) rfl ?_
  exact Keeps.refl _ _

theorem State.drawMissing_keeps (s : State) (r : Nat) :
    Keeps [.regs, .evt, .nv, .evr, .chans, .xlt, .twin, .cxl, .sec, .out] s (State.drawMissing s r) := by
  unfold State.drawMissing
  extract_lets -merge +onlyGivenNames x1
  refine Keeps.ite (fun _ => ?_) (fun _ => ?_)
  · split
    extract_lets -merge +onlyGivenNames x2
    extract_lets -merge +onlyGivenNames x3
    refine Keeps.of_let x3 ?_ (fun h3 => ?_)
    · unfold x3
      refine Keeps.after (State.setRegion_keeps _ _ _) (by decide) ?_
      refine Keeps.of_fst (by assumption) ?_
      refine Keeps.after (State.keyDraw_keeps _ _ _) (by decide) ?_
      exact Keeps.refl _ _
    · refine Keeps.after (State.sendAttr_keeps _ _ _) (by decide) ?_
      exact h3
  · exact Keeps.refl _ _

theorem State.judgeRed_keeps (s : State) :
    Keeps [.regs, .evt, .evr, .chans, .xlt, .twin, .cxl, .out] s (State.judgeRed s) := by
  unfold State.judgeRed
  extract_lets -merge +onlyGivenNames x1
  refine Keeps.foldl _ (fun _ _ => ?_) ?_
  · extract_lets -merge +onlyGivenNames x2
    refine Keeps.ite (fun _ => ?_) (fun _ => ?_)
    · refine Keeps.after (State.sendAttr_keeps _ _ _) (by decide) ?_
      refine Keeps.after (State.setRt_keeps _ _ _) (by decide) ?_
      exact Keeps.refl _ _
    · exact Keeps.refl _ _
  · exact Keeps.refl _ _

theorem State.acceptFrame_keeps (s : State) (p : Bool) (f : TFrame) :
    Keeps [.regs, .evt, .evr, .chans, .twin, .cxl, .out] s (State.acceptFrame s p f).1 := by
  unfold State.acceptFrame
  extract_lets -merge +onlyGivenNames x1
  refine Keeps.ite_fst (fun _ => ?_) (fun _ => ?_)
  · dsimp only
    exact Keeps.refl _ _
  · refine Keeps.ite_fst (fun _ => ?_) (fun _ => ?_)
    · dsimp only
      exact Keeps.refl _ _
    · refine Keeps.ite_fst (fun _ => ?_) (fun _ => ?_)
      · dsimp only
        refine Keeps.after (State.bump_keeps _ _ _ _ _ _) (by decide) ?_
        exact Keeps.refl _ _
      · refine Keeps.ite_fst (fun _ => ?_) (fun _ => ?_)
        · extract_lets -merge +onlyGivenNames x2
          extract_lets -merge +onlyGivenNames x3
          extract_lets -merge +onlyGivenNames x4
          refine Keeps.of_let x4 ?_ (fun h4 => ?_)
          · unfold x4
            refine Keeps.after (State.cause_keeps _ _ _ _ _) (by decide) ?_
            refine Keeps.after (State.bump_keeps _ _ _ _ _ _) (by decide) ?_
            exact Keeps.refl _ _
          · extract_lets -merge +onlyGivenNames x5
            extract_lets -merge +onlyGivenNames x6
            extract_lets -merge +onlyGivenNames x7
            refine Keeps.of_let x7 ?_ (fun h7 => ?_)
            · unfold x7
              refine Keeps.after (State.bump_keeps _ _ _ _ _ _) (by decide) ?_
              refine Keeps.after (State.setTport_keeps _ _ _) (by decide) ?_
              exact h4
            · dsimp only
              refine Keeps.after (State.judgeTdm_keeps _) (by decide) ?_
              refine Keeps.after (State.emit_keeps _ _) (by decide) ?_
              exact h7
        · extract_lets -merge +onlyGivenNames x2
          extract_lets -merge +onlyGivenNames x3
          extract_lets -merge +onlyGivenNames x4
          refine Keeps.of_let x4 ?_ (fun h4 => ?_)
          · unfold x4
            refine Keeps.after (State.setTport_keeps _ _ _) (by decide) ?_
            exact Keeps.refl _ _
          · dsimp only
            refine Keeps.ite (fun _ => ?_) (fun _ => ?_)
            · refine Keeps.after (State.emit_keeps _ _) (by decide) ?_
              exact h4
            · exact h4

theorem State.resendPort_keeps (s : State) (p : Bool) :
    Keeps [.twin, .out] s (State.resendPort s p) := by
  unfold State.resendPort
  extract_lets -merge +onlyGivenNames x1
  extract_lets -merge +onlyGivenNames x2
  extract_lets -merge +onlyGivenNames x3
  refine Keeps.of_let x3 ?_ (fun h3 => ?_)
  · unfold x3
    refine Keeps.foldl _ (fun _ _ => ?_) ?_
    · refine Keeps.after (State.tsend_keeps _ _ _) (by decide) ?_
      exact Keeps.refl _ _
    · exact Keeps.refl _ _
  · extract_lets -merge +onlyGivenNames x4
    extract_lets -merge +onlyGivenNames x5
    refine Keeps.of_let x5 ?_ (fun h5 => ?_)
    · unfold x5
      refine Keeps.foldl _ (fun _ _ => ?_) ?_
      · refine Keeps.after (State.tsend_keeps _ _ _) (by decide) ?_
        exact Keeps.refl _ _
      · exact h3
    · extract_lets -merge +onlyGivenNames x6
      refine Keeps.of_let x6 ?_ (fun h6 => ?_)
      · unfold x6
        refine Keeps.foldl _ (fun _ _ => ?_) ?_
        · refine Keeps.after (State.tsend_keeps _ _ _) (by decide) ?_
          exact Keeps.refl _ _
        · exact h5
      · refine Keeps.ite (fun _ => ?_) (fun _ => ?_)
        · refine Keeps.foldl _ (fun _ _ => ?_) ?_
          · refine Keeps.after (State.tsend_keeps _ _ _) (by decide) ?_
            exact Keeps.refl _ _
          · exact h6
        · exact h6

/-! ### RegionOps -/

theorem State.zeroSett_keeps (s : State) (n : Nat) :
    Keeps [.regs, .evt, .evr, .chans, .med, .bench, .xlt, .cxl, .sec, .out] s (State.zeroSett s n) := by
  unfold State.zeroSett
  extract_lets -merge +onlyGivenNames x1
  refine Keeps.ite (fun _ => ?_) (fun _ => ?_)
  · refine Keeps.after (State.releaseSett_keeps _ _) (by decide) ?_
    exact Keeps.refl _ _
  · extract_lets -merge +onlyGivenNames x2
    refine Keeps.of_let x2 ?_ (fun h2 => ?_)
    · unfold x2
      refine Keeps.after (State.forgetQueued_keeps _ _) (by decide) ?_
      refine Keeps.after (State.dropSett_keeps _ _) (by decide) ?_
      refine Keeps.after (State.endPromotion_keeps _ _) (by decide) ?_
      refine Keeps.after (State.moveAbandon_keeps _ _ _) (by decide) ?_
      exact Keeps.refl _ _
    · refine Keeps.after (State.lossFree_keeps _ _) (by decide) ?_
      refine Keeps.after (State.putSett_keeps _ _ _) (by decide) ?_
      exact h2

theorem State.setKeySlot_keeps (s : State) (r : Nat) (k : KeySlot) :
    Keeps [.nv, .sec] s (State.setKeySlot s r k) := by
  unfold State.setKeySlot
  refine Keeps.after (State.nvWrite_keeps _ _ _) (by decide) ?_
  refine Keeps.set_sec (by decide) rfl ?_
  exact Keeps.refl _ _

theorem State.eraseBegin_keeps (s : State) (r : Nat) :
    Keeps [.regs, .evt, .nv, .evr, .chans, .xlt, .twin, .cxl, .sec, .out] s (State.eraseBegin s r) := by
  unfold State.eraseBegin
  extract_lets -merge +onlyGivenNames x1
  refine Keeps.ite (fun _ => ?_) (fun _ => ?_)
  · exact Keeps.refl _ _
  · refine Keeps.after (State.setKeySlot_keeps _ _ _) (by decide) ?_
    refine Keeps.after (State.sendAttr_keeps _ _ _) (by decide) ?_
    exact Keeps.refl _ _

theorem State.eraseEnd_keeps (s : State) (r : Nat) :
    Keeps [.regs, .evt, .nv, .evr, .chans, .med, .bench, .xlt, .twin, .cxl, .rdma, .sec, .out, .fresh] s (State.eraseEnd s r) := by
  unfold State.eraseEnd
  extract_lets -merge +onlyGivenNames x1
  refine Keeps.ite (fun _ => ?_) (fun _ => ?_)
  · exact Keeps.refl _ _
  · extract_lets -merge +onlyGivenNames x2
    refine Keeps.of_let x2 ?_ (fun h2 => ?_)
    · unfold x2
      refine Keeps.foldl _ (fun _ _ => ?_) ?_
      · split
        · refine Keeps.after (State.releaseSett_keeps _ _) (by decide) ?_
          exact Keeps.refl _ _
        · exact Keeps.refl _ _
      · exact Keeps.refl _ _
    · extract_lets -merge +onlyGivenNames x3
      extract_lets -merge +onlyGivenNames x4
      extract_lets -merge +onlyGivenNames x5
      refine Keeps.of_let x5 ?_ (fun h5 => ?_)
      · unfold x5
        refine Keeps.set_sec (by decide) rfl ?_
        exact h2
      · extract_lets -merge +onlyGivenNames x6
        refine Keeps.of_let x6 ?_ (fun h6 => ?_)
        · unfold x6
          refine Keeps.after (State.setKeySlot_keeps _ _ _) (by decide) ?_
          exact h5
        · refine Keeps.after (State.settle_keeps _) (by decide) ?_
          refine Keeps.ite (fun _ => ?_) (fun _ => ?_)
          · exact h6
          · refine Keeps.after (State.sendAttr_keeps _ _ _) (by decide) ?_
            exact h6

theorem State.ldRecordAll_keeps (s : State) (what : LdEvent) :
    Keeps [.cxl, .out] s (State.ldRecordAll s what) := by
  unfold State.ldRecordAll
  refine Keeps.foldl _ (fun _ _ => ?_) ?_
  · refine Keeps.foldl _ (fun _ _ => ?_) ?_
    · refine Keeps.after (State.ldRecord_keeps _ _ _ _ _ _) (by decide) ?_
      exact Keeps.refl _ _
    · exact Keeps.refl _ _
  · exact Keeps.refl _ _

theorem State.noteHealth_keeps (s : State) :
    Keeps [.cxl, .out] s (State.noteHealth s) := by
  unfold State.noteHealth
  extract_lets -merge +onlyGivenNames x1
  refine Keeps.ite (fun _ => ?_) (fun _ => ?_)
  · exact Keeps.refl _ _
  · refine Keeps.after (State.ldRecordAll_keeps _ _) (by decide) ?_
    refine Keeps.set_cxl (by decide) ?_
    exact Keeps.refl _ _

/-! ### DramBase -/

theorem State.setDram_keeps (s : State) (d : Dram) :
    Keeps [.dram] s (State.setDram s d) := by
  unfold State.setDram
  refine Keeps.set_dram (by decide) ?_
  exact Keeps.refl _ _

theorem State.setRank_keeps (s : State) (c : Nat) (k : Nat) (r : Rank) :
    Keeps [.dram] s (State.setRank s c k r) := by
  unfold State.setRank
  refine Keeps.after (State.setDram_keeps _ _) (by decide) ?_
  exact Keeps.refl _ _

theorem State.burstWritten_keeps (s : State) (addr : Nat) :
    Keeps [.regs, .dram, .out] s (State.burstWritten s addr) := by
  unfold State.burstWritten
  extract_lets -merge +onlyGivenNames x1
  refine Keeps.ite (fun _ => ?_) (fun _ => ?_)
  · refine Keeps.after (State.emit_keeps _ _) (by decide) ?_
    refine Keeps.after (State.setBit_keeps _ _ _ _ _) (by decide) ?_
    refine Keeps.after (State.setDram_keeps _ _) (by decide) ?_
    exact Keeps.refl _ _
  · refine Keeps.ite (fun _ => ?_) (fun _ => ?_)
    · refine Keeps.after (State.setDram_keeps _ _) (by decide) ?_
      exact Keeps.refl _ _
    · exact Keeps.refl _ _

theorem State.rawDramPut_keeps (s : State) (addr : Nat) (d : Chunk) :
    Keeps [.regs, .xlt, .dram, .out] s (State.rawDramPut s addr d) := by
  unfold State.rawDramPut
  extract_lets -merge +onlyGivenNames x1
  extract_lets -merge +onlyGivenNames x2
  extract_lets -merge +onlyGivenNames x3
  refine Keeps.of_let x3 ?_ (fun h3 => ?_)
  · unfold x3
    refine Keeps.after (State.setXlt_keeps _ _) (by decide) ?_
    exact Keeps.refl _ _
  · refine Keeps.after (State.burstWritten_keeps _ _) (by decide) ?_
    refine Keeps.after (State.setDram_keeps _ _) (by decide) ?_
    exact h3

theorem State.rawDramGet_keeps (s : State) (addr : Nat) :
    Keeps [.fresh] s (State.rawDramGet s addr).1 := by
  unfold State.rawDramGet
  split
  · dsimp only
    exact Keeps.refl _ _
  · refine Keeps.ite_fst (fun _ => ?_) (fun _ => ?_)
    · dsimp only
      refine Keeps.after (State.draw_keeps _) (by decide) ?_
      exact Keeps.refl _ _
    · dsimp only
      exact Keeps.refl _ _

theorem State.pagesGone_keeps (s : State) (gone : Nat → Bool) :
    Keeps [.xlt, .dram] s (State.pagesGone s gone) := by
  unfold State.pagesGone
  extract_lets -merge +onlyGivenNames x1
  extract_lets -merge +onlyGivenNames x2
  refine Keeps.of_let x2 ?_ (fun h2 => ?_)
  · unfold x2
    refine Keeps.after (State.setXlt_keeps _ _) (by decide) ?_
    exact Keeps.refl _ _
  · refine Keeps.after (State.setDram_keeps _ _) (by decide) ?_
    exact h2

/-! ### CxlOps -/

theorem State.portWake_keeps (s : State) (p : Fin 4) :
    Keeps [.regs, .evt, .tally, .evr, .psq, .chans, .med, .cxl, .out] s (State.portWake s p) := by
  unfold State.portWake
  extract_lets -merge +onlyGivenNames x1
  refine Keeps.of_let x1 ?_ (fun h1 => ?_)
  · unfold x1
    refine Keeps.after (State.wakeIdle_keeps _) (by decide) ?_
    exact Keeps.refl _ _
  · refine Keeps.ite (fun _ => ?_) (fun _ => ?_)
    · refine Keeps.after (State.setCport_keeps _ _ _) (by decide) ?_
      exact h1
    · exact h1

theorem State.cxlNothing_keeps (s : State) (p : Fin 4) (l : Fin 16) (tag : Nat) :
    Keeps [.out] s (State.cxlNothing s p l tag) := by
  unfold State.cxlNothing
  refine Keeps.after (State.emit_keeps _ _) (by decide) ?_
  exact Keeps.refl _ _

theorem State.rawSense_keeps (s : State) (addr : Nat) :
    Keeps [.med, .out] s (State.rawSense s addr) := by
  unfold State.rawSense
  extract_lets -merge +onlyGivenNames x1
  refine Keeps.after (State.issue_keeps _ _ _) (by decide) ?_
  exact Keeps.refl _ _

theorem State.benchRead_keeps (s : State) (who : Origin) (off : Nat) :
    Keeps [.med, .xlt, .out, .fresh] s (State.benchRead s who off).1 := by
  unfold State.benchRead
  refine Keeps.ite_fst (fun _ => ?_) (fun _ => ?_)
  · extract_lets -merge +onlyGivenNames x1
    extract_lets -merge +onlyGivenNames x2
    dsimp only
    exact Keeps.refl _ _
  · refine Keeps.ite_fst (fun _ => ?_) (fun _ => ?_)
    · extract_lets -merge +onlyGivenNames x1
      dsimp only
      exact Keeps.refl _ _
    · refine Keeps.ite_fst (fun _ => ?_) (fun _ => ?_)
      · extract_lets -merge +onlyGivenNames x1
        refine Keeps.ite_fst (fun _ => ?_) (fun _ => ?_)
        · extract_lets -merge +onlyGivenNames x2
          refine Keeps.of_let_fst x2 ?_ (fun h2 => ?_)
          · unfold x2
            refine Keeps.after (State.rawDramGet_keeps _ _) (by decide) ?_
            exact Keeps.refl _ _
          · dsimp only
            exact h2
        · dsimp only
          exact Keeps.refl _ _
      · refine Keeps.ite_fst (fun _ => ?_) (fun _ => ?_)
        · extract_lets -merge +onlyGivenNames x1
          refine Keeps.ite_fst (fun _ => ?_) (fun _ => ?_)
          · extract_lets -merge +onlyGivenNames x2
            extract_lets -merge +onlyGivenNames x3
            refine Keeps.of_let x3 ?_ (fun h3 => ?_)
            · unfold x3
              refine Keeps.after (State.setXlt_keeps _ _) (by decide) ?_
              exact Keeps.refl _ _
            · dsimp only
              refine Keeps.after (State.rawSense_keeps _ _) (by decide) ?_
              exact h3
          · dsimp only
            exact Keeps.refl _ _
        · dsimp only
          exact Keeps.refl _ _

theorem State.slotTouched_keeps (s : State) (p : Phys) :
    Keeps [.regs, .evt, .evr, .chans, .med, .xlt, .cxl, .out] s (State.slotTouched s p) := by
  unfold State.slotTouched
  extract_lets -merge +onlyGivenNames x1
  extract_lets -merge +onlyGivenNames x2
  refine Keeps.ite (fun _ => ?_) (fun _ => ?_)
  · refine Keeps.after (State.journal_keeps _ _) (by decide) ?_
    refine Keeps.after (State.setZone_keeps _ _ _ _) (by decide) ?_
    exact Keeps.refl _ _
  · exact Keeps.refl _ _

theorem State.rawProgram_keeps (s : State) (l : RawLine) :
    Keeps [.regs, .evt, .evr, .chans, .med, .xlt, .cxl, .out] s (State.rawProgram s l) := by
  unfold State.rawProgram
  extract_lets -merge +onlyGivenNames x1
  refine Keeps.after (State.issue_keeps _ _ _) (by decide) ?_
  refine Keeps.after (State.slotTouched_keeps _ _) (by decide) ?_
  exact Keeps.refl _ _

theorem State.rawGather_keeps (s : State) (a : Nat) (d : Chunk) :
    Keeps [.regs, .evt, .evr, .chans, .med, .xlt, .cxl, .out] s (State.rawGather s a d) := by
  unfold State.rawGather
  extract_lets -merge +onlyGivenNames x1
  extract_lets -merge +onlyGivenNames x2
  extract_lets -merge +onlyGivenNames x3
  split
  · extract_lets -merge +onlyGivenNames x4
    refine Keeps.ite (fun _ => ?_) (fun _ => ?_)
    · refine Keeps.after (State.rawProgram_keeps _ _) (by decide) ?_
      refine Keeps.after (State.setXlt_keeps _ _) (by decide) ?_
      exact Keeps.refl _ _
    · refine Keeps.after (State.setXlt_keeps _ _) (by decide) ?_
      exact Keeps.refl _ _
  · refine Keeps.ite (fun _ => ?_) (fun _ => ?_)
    · refine Keeps.after (State.setXlt_keeps _ _) (by decide) ?_
      exact Keeps.refl _ _
    · refine Keeps.after (State.setXlt_keeps _ _) (by decide) ?_
      exact Keeps.refl _ _

theorem State.rawRetry_keeps (s : State) :
    Keeps [.regs, .evt, .evr, .chans, .med, .xlt, .cxl, .out] s (State.rawRetry s) := by
  unfold State.rawRetry
  extract_lets -merge +onlyGivenNames x1
  refine Keeps.foldl _ (fun _ _ => ?_) ?_
  · refine Keeps.after (State.rawGather_keeps _ _ _) (by decide) ?_
    exact Keeps.refl _ _
  · refine Keeps.after (State.setXlt_keeps _ _) (by decide) ?_
    exact Keeps.refl _ _

theorem State.benchWrite_keeps (s : State) (off : Nat) (d : Chunk) :
    Keeps [.regs, .evt, .evr, .chans, .med, .xlt, .cxl, .dram, .out] s (State.benchWrite s off d).1 := by
  unfold State.benchWrite
  refine Keeps.ite_fst (fun _ => ?_) (fun _ => ?_)
  · extract_lets -merge +onlyGivenNames x1
    refine Keeps.ite_fst (fun _ => ?_) (fun _ => ?_)
    · dsimp only
      refine Keeps.after (State.rawDramPut_keeps _ _ _) (by decide) ?_
      exact Keeps.refl _ _
    · dsimp only
      exact Keeps.refl _ _
  · refine Keeps.ite_fst (fun _ => ?_) (fun _ => ?_)
    · extract_lets -merge +onlyGivenNames x1
      refine Keeps.ite_fst (fun _ => ?_) (fun _ => ?_)
      · dsimp only
        refine Keeps.after (State.rawRetry_keeps _) (by decide) ?_
        refine Keeps.after (State.rawGather_keeps _ _ _) (by decide) ?_
        exact Keeps.refl _ _
      · dsimp only
        exact Keeps.refl _ _
    · dsimp only
      exact Keeps.refl _ _

theorem State.busError_keeps (s : State) (req : Requester) (addr : Nat) (write : Bool) (c : BusCause) :
    Keeps [.regs, .evt, .evr, .chans, .cxl, .out] s (State.busError s req addr write c) := by
  unfold State.busError
  extract_lets -merge +onlyGivenNames x1
  refine Keeps.of_let x1 ?_ (fun h1 => ?_)
  · unfold x1
    refine Keeps.after (State.emit_keeps _ _) (by decide) ?_
    exact Keeps.refl _ _
  · refine Keeps.ite (fun _ => ?_) (fun _ => ?_)
    · exact h1
    · extract_lets -merge +onlyGivenNames x2
      extract_lets -merge +onlyGivenNames x3
      refine Keeps.of_let x3 ?_ (fun h3 => ?_)
      · unfold x3
        refine Keeps.ite (fun _ => ?_) (fun _ => ?_)
        · refine Keeps.after (State.setBit_keeps _ _ _ _ _) (by decide) ?_
          exact h1
        · refine Keeps.after (State.setReg_keeps _ _ _ _) (by decide) ?_
          refine Keeps.after (State.setFld_keeps _ _ _ _ _ _) (by decide) ?_
          exact h1
      · refine Keeps.after (State.pulse_keeps _ _) (by decide) ?_
        exact h3

theorem State.cxlRead_keeps (s : State) (p : Fin 4) (l : Fin 16) (tag : Nat) (t : CxlTarget) :
    Keeps [.regs, .evt, .tally, .evr, .psq, .chans, .med, .bench, .xlt, .twin, .cxl, .rdma, .sec, .out, .fresh] s (State.cxlRead s p l tag t) := by
  unfold State.cxlRead
  refine Keeps.ite (fun _ => ?_) (fun _ => ?_)
  · exact Keeps.refl _ _
  · extract_lets -merge +onlyGivenNames x1
    refine Keeps.of_let x1 ?_ (fun h1 => ?_)
    · unfold x1
      refine Keeps.after (State.portWake_keeps _ _) (by decide) ?_
      exact Keeps.refl _ _
    · split
      · refine Keeps.after (State.cxlNothing_keeps _ _ _ _) (by decide) ?_
        exact h1
      · refine Keeps.ite (fun _ => ?_) (fun _ => ?_)
        · refine Keeps.after (State.cxlNothing_keeps _ _ _ _) (by decide) ?_
          refine Keeps.after (State.cxlNotHere_keeps _ _ _ _ _) (by decide) ?_
          exact h1
        · refine Keeps.ite (fun _ => ?_) (fun _ => ?_)
          · refine Keeps.after (State.emit_keeps _ _) (by decide) ?_
            exact h1
          · refine Keeps.after (State.emit_keeps _ _) (by decide) ?_
            exact h1
      · split
        · refine Keeps.after (State.emit_keeps _ _) (by decide) ?_
          refine Keeps.of_fst (by assumption) ?_
          refine Keeps.after (State.benchRead_keeps _ _ _) (by decide) ?_
          exact h1
        · refine Keeps.of_fst (by assumption) ?_
          refine Keeps.after (State.benchRead_keeps _ _ _) (by decide) ?_
          exact h1
        · refine Keeps.after (State.busError_keeps _ _ _ _ _) (by decide) ?_
          refine Keeps.of_fst (by assumption) ?_
          refine Keeps.after (State.benchRead_keeps _ _ _) (by decide) ?_
          exact h1
      · extract_lets -merge +onlyGivenNames x2
        refine Keeps.ite (fun _ => ?_) (fun _ => ?_)
        · refine Keeps.after (State.cxlNothing_keeps _ _ _ _) (by decide) ?_
          refine Keeps.after (State.cxlNotHere_keeps _ _ _ _ _) (by decide) ?_
          exact h1
        · split
          · refine Keeps.after (State.cxlNothing_keeps _ _ _ _) (by decide) ?_
            exact h1
          · extract_lets -merge +onlyGivenNames x3
            extract_lets -merge +onlyGivenNames x4
            refine Keeps.of_let x4 ?_ (fun h4 => ?_)
            · unfold x4
              refine Keeps.after (State.windowRead_keeps _ _ _) (by decide) ?_
              refine Keeps.after (State.strideRead_keeps _ _ _) (by decide) ?_
              exact h1
            · refine Keeps.after (State.settle_keeps _) (by decide) ?_
              refine Keeps.after (State.serveRead_keeps _ _) (by decide) ?_
              exact h4

theorem State.cxlSpecRead_keeps (s : State) (p : Fin 4) (l : Fin 16) (t : CxlTarget) :
    Keeps [.regs, .evt, .tally, .evr, .psq, .chans, .med, .bench, .xlt, .twin, .cxl, .rdma, .sec, .out, .fresh] s (State.cxlSpecRead s p l t) := by
  unfold State.cxlSpecRead
  refine Keeps.ite (fun _ => ?_) (fun _ => ?_)
  · exact Keeps.refl _ _
  · extract_lets -merge +onlyGivenNames x1
    refine Keeps.of_let x1 ?_ (fun h1 => ?_)
    · unfold x1
      refine Keeps.after (State.portWake_keeps _ _) (by decide) ?_
      exact Keeps.refl _ _
    · split
      · refine Keeps.ite (fun _ => ?_) (fun _ => ?_)
        · exact h1
        · split
          · exact h1
          · refine Keeps.ite (fun _ => ?_) (fun _ => ?_)
            · exact h1
            · refine Keeps.after (State.settle_keeps _) (by decide) ?_
              refine Keeps.after (State.fetchRead_keeps _ _) (by decide) ?_
              exact h1
      · exact h1

theorem State.cxlWrite_keeps (s : State) (p : Fin 4) (l : Fin 16) (tag : Nat) (t : CxlTarget) (mask : BitVec 64) (d : Chunk) (poison : Bool) :
    Keeps [.regs, .evt, .tally, .evr, .psq, .chans, .med, .bench, .xlt, .twin, .cxl, .rdma, .sec, .dram, .out, .fresh] s (State.cxlWrite s p l tag t mask d poison) := by
  unfold State.cxlWrite
  refine Keeps.ite (fun _ => ?_) (fun _ => ?_)
  · exact Keeps.refl _ _
  · extract_lets -merge +onlyGivenNames x1
    refine Keeps.of_let x1 ?_ (fun h1 => ?_)
    · unfold x1
      refine Keeps.after (State.portWake_keeps _ _) (by decide) ?_
      exact Keeps.refl _ _
    · split
      · refine Keeps.after (State.emit_keeps _ _) (by decide) ?_
        exact h1
      · refine Keeps.ite (fun _ => ?_) (fun _ => ?_)
        · refine Keeps.after (State.emit_keeps _ _) (by decide) ?_
          refine Keeps.after (State.cxlNotHere_keeps _ _ _ _ _) (by decide) ?_
          exact h1
        · refine Keeps.ite (fun _ => ?_) (fun _ => ?_)
          · refine Keeps.after (State.cxlDrop_keeps _ _ _ _ _) (by decide) ?_
            exact h1
          · refine Keeps.ite (fun _ => ?_) (fun _ => ?_)
            · refine Keeps.after (State.emit_keeps _ _) (by decide) ?_
              refine Keeps.after (State.putStageChunk_keeps _ _ _ _ _) (by decide) ?_
              exact h1
            · refine Keeps.after (State.emit_keeps _ _) (by decide) ?_
              exact h1
      · split
        · refine Keeps.after (State.emit_keeps _ _) (by decide) ?_
          refine Keeps.of_fst (by assumption) ?_
          refine Keeps.after (State.benchWrite_keeps _ _ _) (by decide) ?_
          exact h1
        · refine Keeps.after (State.busError_keeps _ _ _ _ _) (by decide) ?_
          refine Keeps.of_fst (by assumption) ?_
          refine Keeps.after (State.benchWrite_keeps _ _ _) (by decide) ?_
          exact h1
      · extract_lets -merge +onlyGivenNames x2
        refine Keeps.ite (fun _ => ?_) (fun _ => ?_)
        · refine Keeps.after (State.emit_keeps _ _) (by decide) ?_
          refine Keeps.after (State.cxlNotHere_keeps _ _ _ _ _) (by decide) ?_
          exact h1
        · refine Keeps.ite (fun _ => ?_) (fun _ => ?_)
          · refine Keeps.after (State.cxlDrop_keeps _ _ _ _ _) (by decide) ?_
            exact h1
          · split
            · refine Keeps.after (State.emit_keeps _ _) (by decide) ?_
              exact h1
            · extract_lets -merge +onlyGivenNames x3
              refine Keeps.after (State.settle_keeps _) (by decide) ?_
              refine Keeps.after (State.submit_keeps _ _) (by decide) ?_
              exact h1

theorem State.judgeCxl_keeps (s : State) :
    Keeps [.regs, .evt, .evr, .chans, .cxl, .out] s (State.judgeCxl s) := by
  unfold State.judgeCxl
  extract_lets -merge +onlyGivenNames x1
  extract_lets -merge +onlyGivenNames x2
  refine Keeps.of_let x2 ?_ (fun h2 => ?_)
  · unfold x2
    refine Keeps.after (State.level_keeps _ _ _ _ _ _ _) (by decide) ?_
    exact Keeps.refl _ _
  · refine Keeps.after (State.level_keeps _ _ _ _ _ _ _) (by decide) ?_
    exact h2

theorem State.cxlForget_keeps (s : State) (q : Fin 4 → Fin 16 → Bool) :
    Keeps [.regs, .bench, .cxl, .out] s (State.cxlForget s q) := by
  unfold State.cxlForget
  extract_lets -merge +onlyGivenNames x1
  extract_lets -merge +onlyGivenNames x2
  refine Keeps.after (State.judgeCredits_keeps _) (by decide) ?_
  refine Keeps.after (State.setBench_keeps _ _) (by decide) ?_
  exact Keeps.refl _ _

theorem State.ldReset_keeps (s : State) (p : Fin 4) (l : Fin 16) :
    Keeps [.cxl] s (State.ldReset s p l) := by
  unfold State.ldReset
  extract_lets -merge +onlyGivenNames x1
  refine Keeps.after (State.setLd_keeps _ _ _ _) (by decide) ?_
  exact Keeps.refl _ _

theorem State.portReset_keeps (s : State) (p : Fin 4) :
    Keeps [.regs, .bench, .cxl, .out] s (State.portReset s p) := by
  unfold State.portReset
  extract_lets -merge +onlyGivenNames x1
  refine Keeps.of_let x1 ?_ (fun h1 => ?_)
  · unfold x1
    refine Keeps.after (State.cxlForget_keeps _ _) (by decide) ?_
    exact Keeps.refl _ _
  · extract_lets -merge +onlyGivenNames x2
    refine Keeps.of_let x2 ?_ (fun h2 => ?_)
    · unfold x2
      refine Keeps.foldl _ (fun _ _ => ?_) ?_
      · refine Keeps.after (State.ldReset_keeps _ _ _) (by decide) ?_
        exact Keeps.refl _ _
      · exact h1
    · refine Keeps.after (State.setCport_keeps _ _ _) (by decide) ?_
      exact h2

/-! ### Eyebright -/

theorem State.writeSentinel_keeps (s : State) (d : Nat) (m : Mode) (k : Fin 9) (copy : Bool) :
    Keeps [.med, .out] s (State.writeSentinel s d m k copy) := by
  unfold State.writeSentinel
  extract_lets -merge +onlyGivenNames x1
  extract_lets -merge +onlyGivenNames x2
  extract_lets -merge +onlyGivenNames x3
  refine Keeps.of_let x3 ?_ (fun h3 => ?_)
  · unfold x3
    refine Keeps.after (State.setDie_keeps _ _ _) (by decide) ?_
    exact Keeps.refl _ _
  · refine Keeps.foldl _ (fun _ _ => ?_) ?_
    · refine Keeps.after (State.issue_keeps _ _ _) (by decide) ?_
      exact Keeps.refl _ _
    · exact h3

theorem State.rewriteRungs_keeps (s : State) (d : Nat) :
    Keeps [.med, .out] s (State.rewriteRungs s d) := by
  unfold State.rewriteRungs
  extract_lets -merge +onlyGivenNames x1
  refine Keeps.ite (fun _ => ?_) (fun _ => ?_)
  · refine Keeps.after (State.setDie_keeps _ _ _) (by decide) ?_
    exact Keeps.refl _ _
  · refine Keeps.foldl _ (fun _ _ => ?_) ?_
    · refine Keeps.after (State.writeSentinel_keeps _ _ _ _ _) (by decide) ?_
      exact Keeps.refl _ _
    · refine Keeps.after (State.setDie_keeps _ _ _) (by decide) ?_
      exact Keeps.refl _ _

theorem State.ladderKick_keeps (s : State) :
    Keeps [.med, .out] s (State.ladderKick s) := by
  unfold State.ladderKick
  refine Keeps.foldl _ (fun _ _ => ?_) ?_
  · refine Keeps.after (State.rewriteRungs_keeps _ _) (by decide) ?_
    exact Keeps.refl _ _
  · exact Keeps.refl _ _

theorem State.sentinelVerified_keeps (s : State) (d : Nat) (m : Mode) (k : Fin 9) (copy : Bool) (l : Nat) :
    Keeps [.med] s (State.sentinelVerified s d m k copy l) := by
  unfold State.sentinelVerified
  extract_lets -merge +onlyGivenNames x1
  extract_lets -merge +onlyGivenNames x2
  split
  · exact Keeps.refl _ _
  · extract_lets -merge +onlyGivenNames x3
    refine Keeps.ite (fun _ => ?_) (fun _ => ?_)
    · refine Keeps.after (State.setDie_keeps _ _ _) (by decide) ?_
      exact Keeps.refl _ _
    · refine Keeps.after (State.setDie_keeps _ _ _) (by decide) ?_
      exact Keeps.refl _ _

theorem State.sentinelFailed_keeps (s : State) (d : Nat) (m : Mode) (k : Fin 9) (copy : Bool) :
    Keeps [.med] s (State.sentinelFailed s d m k copy) := by
  unfold State.sentinelFailed
  extract_lets -merge +onlyGivenNames x1
  refine Keeps.after (State.setDie_keeps _ _ _) (by decide) ?_
  exact Keeps.refl _ _

theorem State.loadSets_keeps (s : State) (d : Nat) :
    Keeps [.med, .out] s (State.loadSets s d) := by
  unfold State.loadSets
  extract_lets -merge +onlyGivenNames x1
  refine Keeps.ite (fun _ => ?_) (fun _ => ?_)
  · exact Keeps.refl _ _
  · extract_lets -merge +onlyGivenNames x2
    extract_lets -merge +onlyGivenNames x3
    refine Keeps.of_let x3 ?_ (fun h3 => ?_)
    · unfold x3
      refine Keeps.after (State.setDie_keeps _ _ _) (by decide) ?_
      exact Keeps.refl _ _
    · refine Keeps.foldl _ (fun _ _ => ?_) ?_
      · refine Keeps.foldl _ (fun _ _ => ?_) ?_
        · refine Keeps.after (State.issue_keeps _ _ _) (by decide) ?_
          exact Keeps.refl _ _
        · exact Keeps.refl _ _
      · exact h3

theorem State.sweepRead_keeps (s : State) (d : Nat) (n : Nat) :
    Keeps [.med, .out] s (State.sweepRead s d n) := by
  unfold State.sweepRead
  extract_lets -merge +onlyGivenNames x1
  split
  · refine Keeps.after (State.issue_keeps _ _ _) (by decide) ?_
    exact Keeps.refl _ _
  · exact Keeps.refl _ _

theorem State.startSweep_keeps (s : State) (d : Nat) :
    Keeps [.med, .out] s (State.startSweep s d) := by
  unfold State.startSweep
  refine Keeps.ite (fun _ => ?_) (fun _ => ?_)
  · refine Keeps.foldl _ (fun _ _ => ?_) ?_
    · refine Keeps.after (State.sweepRead_keeps _ _ _) (by decide) ?_
      exact Keeps.refl _ _
    · refine Keeps.after (State.setDie_keeps _ _ _) (by decide) ?_
      exact Keeps.refl _ _
  · exact Keeps.refl _ _

/-! ### MedOps -/

theorem State.queueWork_keeps (s : State) (n : Nat) (k : WorkKind) :
    Keeps [.med] s (State.queueWork s n k) := by
  unfold State.queueWork
  extract_lets -merge +onlyGivenNames x1
  refine Keeps.ite (fun _ => ?_) (fun _ => ?_)
  · exact Keeps.refl _ _
  · refine Keeps.after (State.setYrw_keeps _ _) (by decide) ?_
    exact Keeps.refl _ _

theorem State.queueRefresh_keeps (s : State) (n : Nat) :
    Keeps [.regs, .med] s (State.queueRefresh s n) := by
  unfold State.queueRefresh
  refine Keeps.ite (fun _ => ?_) (fun _ => ?_)
  · exact Keeps.refl _ _
  · refine Keeps.after (State.bump_keeps _ _ _ _ _ _) (by decide) ?_
    refine Keeps.after (State.queueWork_keeps _ _ _) (by decide) ?_
    exact Keeps.refl _ _

theorem State.satisfyWork_keeps (s : State) (n : Nat) :
    Keeps [.med] s (State.satisfyWork s n) := by
  unfold State.satisfyWork
  refine Keeps.after (State.setYrw_keeps _ _) (by decide) ?_
  exact Keeps.refl _ _

theorem State.scbDissolve_keeps (s : State) (n : Nat) :
    Keeps [.regs, .evt, .evr, .chans, .med, .bench, .xlt, .cxl, .sec, .out, .fresh] s (State.scbDissolve s n) := by
  unfold State.scbDissolve
  split
  · exact Keeps.refl _ _
  · refine Keeps.ite (fun _ => ?_) (fun _ => ?_)
    · exact Keeps.refl _ _
    · extract_lets -merge +onlyGivenNames x1
      refine Keeps.of_let_fst x1 ?_ (fun h1 => ?_)
      · unfold x1
        refine Keeps.foldl_fst _ (fun _ _ => ?_) ?_
        · split
          · dsimp only
            refine Keeps.of_fst (by assumption) ?_
            refine Keeps.after (State.slotBack_keeps _ _ _) (by decide) ?_
            exact Keeps.refl _ _
          · dsimp only
            refine Keeps.of_fst (by assumption) ?_
            refine Keeps.after (State.slotBack_keeps _ _ _) (by decide) ?_
            exact Keeps.refl _ _
        · dsimp only
          exact Keeps.refl _ _
      · refine Keeps.ite (fun _ => ?_) (fun _ => ?_)
        · refine Keeps.after (State.setScb_keeps _ _ _) (by decide) ?_
          exact h1
        · refine Keeps.after (State.setScb_keeps _ _ _) (by decide) ?_
          exact h1

theorem State.resyncAgain_keeps (s : State) (n : Nat) (m : Mode) :
    Keeps [.regs, .evt, .evr, .chans, .med, .xlt, .twin, .cxl, .out, .fresh] s (State.resyncAgain s n m) := by
  unfold State.resyncAgain
  extract_lets -merge +onlyGivenNames x1
  refine Keeps.of_let x1 ?_ (fun h1 => ?_)
  · unfold x1
    refine Keeps.after (State.resyncStart_keeps _ _ _) (by decide) ?_
    exact Keeps.refl _ _
  · split
    · refine Keeps.ite (fun _ => ?_) (fun _ => ?_)
      · refine Keeps.after (State.assistAsk_keeps _ _ _ _ _) (by decide) ?_
        exact h1
      · exact h1
    · exact h1

theorem State.moveRequeue_keeps (s : State) (n : Nat) (spoil : Bool) :
    Keeps [.regs, .evt, .evr, .chans, .med, .bench, .xlt, .twin, .cxl, .sec, .out, .fresh] s (State.moveRequeue s n spoil) := by
  unfold State.moveRequeue
  split
  · exact Keeps.refl _ _
  · extract_lets -merge +onlyGivenNames x1
    refine Keeps.of_let x1 ?_ (fun h1 => ?_)
    · unfold x1
      refine Keeps.after (State.moveAbandon_keeps _ _ _) (by decide) ?_
      exact Keeps.refl _ _
    · split
      · exact h1
      · refine Keeps.after (State.scbDissolve_keeps _ _) (by decide) ?_
        exact h1
      · refine Keeps.after (State.resyncAgain_keeps _ _ _) (by decide) ?_
        exact h1
      · refine Keeps.after (State.queueWork_keeps _ _ _) (by decide) ?_
        exact h1

theorem State.judgeTsl_keeps (s : State) :
    Keeps [.regs, .evt, .evr, .chans, .cxl, .out] s (State.judgeTsl s) := by
  unfold State.judgeTsl
  extract_lets -merge +onlyGivenNames x1
  extract_lets -merge +onlyGivenNames x2
  extract_lets -merge +onlyGivenNames x3
  extract_lets -merge +onlyGivenNames x4
  refine Keeps.of_let x4 ?_ (fun h4 => ?_)
  · unfold x4
    unfold x3
    refine Keeps.after (State.level_keeps _ _ _ _ _ _ _) (by decide) ?_
    exact Keeps.refl _ _
  · extract_lets -merge +onlyGivenNames x5
    refine Keeps.of_let x5 ?_ (fun h5 => ?_)
    · unfold x5
      unfold x3
      refine Keeps.after (State.level_keeps _ _ _ _ _ _ _) (by decide) ?_
      exact h4
    · extract_lets -merge +onlyGivenNames x6
      refine Keeps.of_let x6 ?_ (fun h6 => ?_)
      · unfold x6
        unfold x3
        refine Keeps.after (State.level_keeps _ _ _ _ _ _ _) (by decide) ?_
        exact h5
      · unfold x3
        refine Keeps.after (State.level_keeps _ _ _ _ _ _ _) (by decide) ?_
        exact h6

theorem State.divert_keeps (s : State) (p : Nat → Bool) :
    Keeps [.regs, .evt, .evr, .chans, .med, .bench, .xlt, .twin, .cxl, .rdma, .sec, .out, .fresh] s (State.divert s p) := by
  unfold State.divert
  extract_lets -merge +onlyGivenNames x1
  extract_lets -merge +onlyGivenNames x2
  refine Keeps.after (State.redrive_keeps _ _) (by decide) ?_
  refine Keeps.foldl _ (fun _ _ => ?_) ?_
  · refine Keeps.after (State.dropLine_keeps _ _) (by decide) ?_
    exact Keeps.refl _ _
  · exact Keeps.refl _ _

theorem State.undo_keeps (s : State) (n : Nat) (c : QmiCmd) :
    Keeps [.nv, .med, .bench, .xlt, .out] s (State.undo s n c) := by
  unfold State.undo
  split
  · split
    · refine Keeps.ite (fun _ => ?_) (fun _ => ?_)
      · refine Keeps.after (State.setBline_keeps _ _ _) (by decide) ?_
        exact Keeps.refl _ _
      · exact Keeps.refl _ _
    · exact Keeps.refl _ _
  · split
    · refine Keeps.after (State.setMove_keeps _ _) (by decide) ?_
      exact Keeps.refl _ _
    · exact Keeps.refl _ _
  · split
    · refine Keeps.after (State.setMove_keeps _ _) (by decide) ?_
      exact Keeps.refl _ _
    · exact Keeps.refl _ _
  · refine Keeps.after (State.setMed_keeps _ _) (by decide) ?_
    exact Keeps.refl _ _
  · refine Keeps.after (State.setMed_keeps _ _) (by decide) ?_
    exact Keeps.refl _ _
  · refine Keeps.after (State.sentinelFailed_keeps _ _ _ _ _) (by decide) ?_
    exact Keeps.refl _ _
  · refine Keeps.after (State.mapUndo_keeps _ _ _ _ _) (by decide) ?_
    exact Keeps.refl _ _
  · exact Keeps.refl _ _

theorem State.failDie_keeps (s : State) (d : Nat) :
    Keeps [.regs, .evt, .nv, .evr, .chans, .med, .bench, .xlt, .twin, .cxl, .rdma, .sec, .out, .fresh] s (State.failDie s d) := by
  unfold State.failDie
  extract_lets -merge +onlyGivenNames x1
  refine Keeps.ite (fun _ => ?_) (fun _ => ?_)
  · exact Keeps.refl _ _
  · extract_lets -merge +onlyGivenNames x2
    extract_lets -merge +onlyGivenNames x3
    extract_lets -merge +onlyGivenNames x4
    extract_lets -merge +onlyGivenNames x5
    extract_lets -merge +onlyGivenNames x6
    refine Keeps.of_let x6 ?_ (fun h6 => ?_)
    · unfold x6
      refine Keeps.after (State.setQc_keeps _ _ _) (by decide) ?_
      refine Keeps.after (State.setDie_keeps _ _ _) (by decide) ?_
      exact Keeps.refl _ _
    · extract_lets -merge +onlyGivenNames x7
      refine Keeps.of_let x7 ?_ (fun h7 => ?_)
      · unfold x7
        refine Keeps.foldl _ (fun _ _ => ?_) ?_
        · refine Keeps.after (State.undo_keeps _ _ _) (by decide) ?_
          exact Keeps.refl _ _
        · exact h6
      · extract_lets -merge +onlyGivenNames x8
        extract_lets -merge +onlyGivenNames x9
        refine Keeps.of_let x9 ?_ (fun h9 => ?_)
        · unfold x9
          refine Keeps.foldl _ (fun _ _ => ?_) ?_
          · refine Keeps.after (State.moveRequeue_keeps _ _ _) (by decide) ?_
            exact Keeps.refl _ _
          · exact h7
        · extract_lets -merge +onlyGivenNames x10
          extract_lets -merge +onlyGivenNames x11
          extract_lets -merge +onlyGivenNames x12
          refine Keeps.of_let x12 ?_ (fun h12 => ?_)
          · unfold x12
            refine Keeps.after (State.setMed_keeps _ _) (by decide) ?_
            exact h9
          · refine Keeps.after (State.judgeTsl_keeps _) (by decide) ?_
            refine Keeps.after (State.judgeBench_keeps _) (by decide) ?_
            refine Keeps.after (State.divert_keeps _ _) (by decide) ?_
            exact h12

theorem State.assistOrLose_keeps (s : State) (c : QmiCmd) (x : Nat) :
    Keeps [.regs, .evt, .evr, .chans, .med, .bench, .xlt, .twin, .cxl, .rdma, .sec, .out, .fresh] s (State.assistOrLose s c x) := by
  unfold State.assistOrLose
  extract_lets -merge +onlyGivenNames x1
  extract_lets -merge +onlyGivenNames x2
  extract_lets -merge +onlyGivenNames x3
  extract_lets -merge +onlyGivenNames x4
  refine Keeps.of_let x4 ?_ (fun h4 => ?_)
  · unfold x4
    refine Keeps.foldl _ (fun _ _ => ?_) ?_
    · refine Keeps.after (State.respond_keeps _ _ _) (by decide) ?_
      exact Keeps.refl _ _
    · refine Keeps.after (State.setBench_keeps _ _) (by decide) ?_
      exact Keeps.refl _ _
  · extract_lets -merge +onlyGivenNames x5
    refine Keeps.ite (fun _ => ?_) (fun _ => ?_)
    · refine Keeps.ite (fun _ => ?_) (fun _ => ?_)
      · refine Keeps.after (State.dropLine_keeps _ _) (by decide) ?_
        exact h4
      · exact h4
    · refine Keeps.ite (fun _ => ?_) (fun _ => ?_)
      · refine Keeps.ite (fun _ => ?_) (fun _ => ?_)
        · exact h4
        · refine Keeps.after (State.assistAsk_keeps _ _ _ _ _) (by decide) ?_
          exact h4
      · refine Keeps.after (State.unrecovered_keeps _ _) (by decide) ?_
        exact h4

theorem State.beyondReach_keeps (s : State) (c : QmiCmd) (x : Nat) :
    Keeps [.regs, .evt, .evr, .chans, .med, .bench, .xlt, .twin, .cxl, .rdma, .sec, .out, .fresh] s (State.beyondReach s c x) := by
  unfold State.beyondReach
  refine Keeps.ite (fun _ => ?_) (fun _ => ?_)
  · refine Keeps.after (State.issue_keeps _ _ _) (by decide) ?_
    exact Keeps.refl _ _
  · refine Keeps.after (State.assistOrLose_keeps _ _ _) (by decide) ?_
    exact Keeps.refl _ _

theorem State.misplaced_keeps (s : State) (c : QmiCmd) (x : Nat) :
    Keeps [.regs, .evt, .evr, .chans, .med, .bench, .xlt, .twin, .cxl, .rdma, .sec, .out, .fresh] s (State.misplaced s c x) := by
  unfold State.misplaced
  refine Keeps.after (State.assistOrLose_keeps _ _ _) (by decide) ?_
  refine Keeps.after (State.cause_keeps _ _ _ _ _) (by decide) ?_
  refine Keeps.after (State.bump_keeps _ _ _ _ _ _) (by decide) ?_
  exact Keeps.refl _ _

theorem State.lineArrived_keeps (s : State) (c : QmiCmd) (x : Nat) (d : Line) :
    Keeps [.regs, .evt, .evr, .chans, .med, .bench, .xlt, .twin, .cxl, .rdma, .sec, .out, .fresh] s (State.lineArrived s c x d) := by
  unfold State.lineArrived
  extract_lets -merge +onlyGivenNames x1
  extract_lets -merge +onlyGivenNames x2
  split
  · refine Keeps.after (State.answerReads_keeps _ _ _) (by decide) ?_
    refine Keeps.ite (fun _ => ?_) (fun _ => ?_)
    · refine Keeps.after (State.installLine_keeps _ _ _ _ _) (by decide) ?_
      exact Keeps.refl _ _
    · exact Keeps.refl _ _
  · refine Keeps.after (State.answerReads_keeps _ _ _) (by decide) ?_
    refine Keeps.ite (fun _ => ?_) (fun _ => ?_)
    · refine Keeps.after (State.installLine_keeps _ _ _ _ _) (by decide) ?_
      exact Keeps.refl _ _
    · exact Keeps.refl _ _
  · extract_lets -merge +onlyGivenNames x3
    refine Keeps.of_let x3 ?_ (fun h3 => ?_)
    · unfold x3
      refine Keeps.ite (fun _ => ?_) (fun _ => ?_)
      · refine Keeps.after (State.installLine_keeps _ _ _ _ _) (by decide) ?_
        exact Keeps.refl _ _
      · exact Keeps.refl _ _
    · split
      · exact h3
      · refine Keeps.ite (fun _ => ?_) (fun _ => ?_)
        · exact h3
        · refine Keeps.after (State.moveProgram_keeps _ _ _ _) (by decide) ?_
          exact h3
  · refine Keeps.after (State.rewriteData_keeps _ _ _ _) (by decide) ?_
    exact Keeps.refl _ _
  · refine Keeps.after (State.promoteTake_keeps _ _ _ _) (by decide) ?_
    exact Keeps.refl _ _
  · refine Keeps.after (State.judged_keeps _ _) (by decide) ?_
    exact Keeps.refl _ _
  · refine Keeps.after (State.answerReads_keeps _ _ _) (by decide) ?_
    refine Keeps.after (State.installLine_keeps _ _ _ _ _) (by decide) ?_
    exact Keeps.refl _ _

theorem State.senseAgain_keeps (s : State) (c : QmiCmd) :
    Keeps [.regs, .evt, .evr, .chans, .med, .bench, .xlt, .twin, .cxl, .rdma, .sec, .out, .fresh] s (State.senseAgain s c) := by
  unfold State.senseAgain
  split
  · extract_lets -merge +onlyGivenNames x1
    refine Keeps.of_let x1 ?_ (fun h1 => ?_)
    · unfold x1
      refine Keeps.ite (fun _ => ?_) (fun _ => ?_)
      · refine Keeps.after (State.dropLine_keeps _ _) (by decide) ?_
        exact Keeps.refl _ _
      · exact Keeps.refl _ _
    · refine Keeps.after (State.mergeLine_keeps _ _) (by decide) ?_
      refine Keeps.after (State.redrive_keeps _ _) (by decide) ?_
      exact h1
  · extract_lets -merge +onlyGivenNames x1
    refine Keeps.of_let x1 ?_ (fun h1 => ?_)
    · unfold x1
      refine Keeps.ite (fun _ => ?_) (fun _ => ?_)
      · refine Keeps.after (State.dropLine_keeps _ _) (by decide) ?_
        exact Keeps.refl _ _
      · exact Keeps.refl _ _
    · refine Keeps.after (State.mergeLine_keeps _ _) (by decide) ?_
      refine Keeps.after (State.redrive_keeps _ _) (by decide) ?_
      exact h1
  · extract_lets -merge +onlyGivenNames x1
    refine Keeps.of_let x1 ?_ (fun h1 => ?_)
    · unfold x1
      refine Keeps.ite (fun _ => ?_) (fun _ => ?_)
      · refine Keeps.after (State.dropLine_keeps _ _) (by decide) ?_
        exact Keeps.refl _ _
      · exact Keeps.refl _ _
    · refine Keeps.after (State.mergeLine_keeps _ _) (by decide) ?_
      refine Keeps.after (State.redrive_keeps _ _) (by decide) ?_
      exact h1
  · refine Keeps.after (State.moveFeed_keeps _ _) (by decide) ?_
    exact Keeps.refl _ _
  · refine Keeps.after (State.moveFeed_keeps _ _) (by decide) ?_
    exact Keeps.refl _ _
  · refine Keeps.foldl _ (fun _ _ => ?_) ?_
    · refine Keeps.after (State.promoteLine_keeps _ _ _) (by decide) ?_
      exact Keeps.refl _ _
    · exact Keeps.refl _ _
  · exact Keeps.refl _ _

theorem State.takeFrame_keeps (s : State) (n : Nat) (c : QmiCmd) (dec : Option Decoded) (soft : Bool) :
    Keeps [.regs, .evt, .evr, .chans, .med, .bench, .xlt, .twin, .cxl, .rdma, .sec, .out, .fresh] s (State.takeFrame s n c dec soft) := by
  unfold State.takeFrame
  split
  refine Keeps.ite (fun _ => ?_) (fun _ => ?_)
  · refine Keeps.after (State.senseAgain_keeps _ _) (by decide) ?_
    exact Keeps.refl _ _
  · split
    · refine Keeps.after (State.beyondReach_keeps _ _ _) (by decide) ?_
      exact Keeps.refl _ _
    · refine Keeps.after (State.misplaced_keeps _ _ _) (by decide) ?_
      exact Keeps.refl _ _
    · refine Keeps.ite (fun _ => ?_) (fun _ => ?_)
      · refine Keeps.after (State.recovered_keeps _ _ _ _) (by decide) ?_
        exact Keeps.refl _ _
      · refine Keeps.after (State.lineArrived_keeps _ _ _ _) (by decide) ?_
        exact Keeps.refl _ _
    · refine Keeps.ite (fun _ => ?_) (fun _ => ?_)
      · refine Keeps.after (State.recovered_keeps _ _ _ _) (by decide) ?_
        exact Keeps.refl _ _
      · refine Keeps.after (State.lineArrived_keeps _ _ _ _) (by decide) ?_
        exact Keeps.refl _ _

theorem State.setPass_keeps (s : State) (g : Nat) (v : Pass) :
    Keeps [.med] s (State.setPass s g v) := by
  unfold State.setPass
  refine Keeps.after (State.setMed_keeps _ _) (by decide) ?_
  exact Keeps.refl _ _

theorem State.visitSett_keeps (s : State) (n : Nat) :
    Keeps [.regs, .med, .out] s (State.visitSett s n) := by
  unfold State.visitSett
  extract_lets -merge +onlyGivenNames x1
  split
  · exact Keeps.refl _ _
  · extract_lets -merge +onlyGivenNames x2
    extract_lets -merge +onlyGivenNames x3
    refine Keeps.of_let x3 ?_ (fun h3 => ?_)
    · unfold x3
      refine Keeps.ite (fun _ => ?_) (fun _ => ?_)
      · refine Keeps.after (State.queueRefresh_keeps _ _) (by decide) ?_
        exact Keeps.refl _ _
      · exact Keeps.refl _ _
    · extract_lets -merge +onlyGivenNames x4
      refine Keeps.foldl _ (fun _ _ => ?_) ?_
      · extract_lets -merge +onlyGivenNames x5
        extract_lets -merge +onlyGivenNames x6
        refine Keeps.of_let x6 ?_ (fun h6 => ?_)
        · unfold x6
          refine Keeps.after (State.setMed_keeps _ _) (by decide) ?_
          exact Keeps.refl _ _
        · refine Keeps.after (State.senseLine_keeps _ _ _ _ _) (by decide) ?_
          refine Keeps.after (State.senseLine_keeps _ _ _ _ _) (by decide) ?_
          exact h6
      · exact h3

theorem State.passAt_keeps (s : State) (g : Nat) (v : Pass) :
    Keeps [.regs, .evt, .evr, .chans, .med, .xlt, .cxl, .out] s (State.passAt s g v) := by
  unfold State.passAt
  refine Keeps.after (State.journal_keeps _ _) (by decide) ?_
  refine Keeps.after (State.setPass_keeps _ _ _) (by decide) ?_
  exact Keeps.refl _ _

theorem State.visit_keeps (s : State) (a1 : Visit) :
    Keeps [.regs, .med, .xlt, .out] s (State.visit s a1) := by
  unfold State.visit
  split
  · refine Keeps.after (State.visitSett_keeps _ _) (by decide) ?_
    exact Keeps.refl _ _
  · refine Keeps.after (State.visitMaps_keeps _ _) (by decide) ?_
    exact Keeps.refl _ _

theorem State.passNext_keeps (s : State) (g : Nat) (a2 : Nat) :
    Keeps [.regs, .evt, .evr, .chans, .med, .xlt, .cxl, .out] s (State.passNext s g a2) := by
  induction a2 generalizing s g
  · unfold State.passNext
    exact Keeps.refl _ _
  · rename_i x ih
    unfold State.passNext
    extract_lets -merge +onlyGivenNames x1
    refine Keeps.ite (fun _ => ?_) (fun _ => ?_)
    · exact Keeps.refl _ _
    · refine Keeps.ite (fun _ => ?_) (fun _ => ?_)
      · exact Keeps.refl _ _
      · split
        · refine Keeps.ite (fun _ => ?_) (fun _ => ?_)
          · refine Keeps.after (State.visit_keeps _ _) (by decide) ?_
            refine Keeps.after (State.passAt_keeps _ _ _) (by decide) ?_
            exact Keeps.refl _ _
          · refine Keeps.trans ?_ (ih _ _)
            refine Keeps.after (State.setPass_keeps _ _ _) (by decide) ?_
            exact Keeps.refl _ _
        · refine Keeps.ite (fun _ => ?_) (fun _ => ?_)
          · refine Keeps.after (State.visit_keeps _ _) (by decide) ?_
            refine Keeps.after (State.passAt_keeps _ _ _) (by decide) ?_
            exact Keeps.refl _ _
          · refine Keeps.trans ?_ (ih _ _)
            refine Keeps.after (State.setPass_keeps _ _ _) (by decide) ?_
            exact Keeps.refl _ _
        · refine Keeps.ite (fun _ => ?_) (fun _ => ?_)
          · refine Keeps.after (State.passAt_keeps _ _ _) (by decide) ?_
            exact Keeps.refl _ _
          · exact Keeps.refl _ _

theorem State.passRun_keeps (s : State) (g : Nat) :
    Keeps [.regs, .evt, .evr, .chans, .med, .xlt, .cxl, .out] s (State.passRun s g) := by
  unfold State.passRun
  refine Keeps.after (State.passNext_keeps _ _ _) (by decide) ?_
  exact Keeps.refl _ _

theorem State.startPass_keeps (s : State) (g : Nat) :
    Keeps [.regs, .evt, .evr, .chans, .med, .xlt, .cxl, .out] s (State.startPass s g) := by
  unfold State.startPass
  extract_lets -merge +onlyGivenNames x1
  extract_lets -merge +onlyGivenNames x2
  extract_lets -merge +onlyGivenNames x3
  extract_lets -merge +onlyGivenNames x4
  extract_lets -merge +onlyGivenNames x5
  extract_lets -merge +onlyGivenNames x6
  extract_lets -merge +onlyGivenNames x7
  extract_lets -merge +onlyGivenNames x8
  extract_lets -merge +onlyGivenNames x9
  extract_lets -merge +onlyGivenNames x10
  refine Keeps.of_let x10 ?_ (fun h10 => ?_)
  · unfold x10
    refine Keeps.after (State.setPass_keeps _ _ _) (by decide) ?_
    exact Keeps.refl _ _
  · extract_lets -merge +onlyGivenNames x11
    extract_lets -merge +onlyGivenNames x12
    refine Keeps.of_let x12 ?_ (fun h12 => ?_)
    · unfold x12
      refine Keeps.after (State.setMed_keeps _ _) (by decide) ?_
      exact h10
    · refine Keeps.after (State.passRun_keeps _ _) (by decide) ?_
      exact h12

theorem State.marginSeen_keeps (s : State) (n : Nat) (c : QmiCmd) (dec : Option Decoded) :
    Keeps [.regs, .evt, .evr, .chans, .med, .bench, .xlt, .twin, .cxl, .rdma, .sec, .out, .fresh] s (State.marginSeen s n c dec) := by
  unfold State.marginSeen
  split
  extract_lets -merge +onlyGivenNames x1
  split
  · exact Keeps.refl _ _
  · refine Keeps.ite (fun _ => ?_) (fun _ => ?_)
    · refine Keeps.after (State.judged_keeps _ _) (by decide) ?_
      exact Keeps.refl _ _
    · extract_lets -merge +onlyGivenNames x2
      extract_lets -merge +onlyGivenNames x3
      extract_lets -merge +onlyGivenNames x4
      extract_lets -merge +onlyGivenNames x5
      extract_lets -merge +onlyGivenNames x6
      extract_lets -merge +onlyGivenNames x7
      extract_lets -merge +onlyGivenNames x8
      extract_lets -merge +onlyGivenNames x9
      refine Keeps.of_let x9 ?_ (fun h9 => ?_)
      · unfold x9
        refine Keeps.ite (fun _ => ?_) (fun _ => ?_)
        · refine Keeps.after (State.queueRefresh_keeps _ _) (by decide) ?_
          refine Keeps.after (State.cause_keeps _ _ _ _ _) (by decide) ?_
          exact Keeps.refl _ _
        · exact Keeps.refl _ _
      · refine Keeps.ite (fun _ => ?_) (fun _ => ?_)
        · refine Keeps.after (State.setMed_keeps _ _) (by decide) ?_
          exact h9
        · extract_lets -merge +onlyGivenNames x10
          extract_lets -merge +onlyGivenNames x11
          extract_lets -merge +onlyGivenNames x12
          refine Keeps.of_let x12 ?_ (fun h12 => ?_)
          · unfold x12
            refine Keeps.after (State.queueRefresh_keeps _ _) (by decide) ?_
            refine Keeps.after (State.bump_keeps _ _ _ _ _ _) (by decide) ?_
            exact h9
          · extract_lets -merge +onlyGivenNames x13
            extract_lets -merge +onlyGivenNames x14
            refine Keeps.of_let x14 ?_ (fun h14 => ?_)
            · unfold x14
              refine Keeps.ite (fun _ => ?_) (fun _ => ?_)
              · refine Keeps.ite (fun _ => ?_) (fun _ => ?_)
                · refine Keeps.after (State.setDie_keeps _ _ _) (by decide) ?_
                  exact h12
                · exact h12
              · exact h9
            · refine Keeps.ite (fun _ => ?_) (fun _ => ?_)
              · refine Keeps.after (State.misplaced_keeps _ _ _) (by decide) ?_
                refine Keeps.after (State.judged_keeps _ _) (by decide) ?_
                exact h14
              · refine Keeps.ite (fun _ => ?_) (fun _ => ?_)
                · refine Keeps.after (State.senseLine_keeps _ _ _ _ _) (by decide) ?_
                  refine Keeps.after (State.setMed_keeps _ _) (by decide) ?_
                  exact h14
                · refine Keeps.after (State.judged_keeps _ _) (by decide) ?_
                  exact h14

theorem State.spoilPend_keeps (s : State) (n : Nat) :
    Keeps [.regs, .evt, .evr, .chans, .med, .xlt, .cxl, .out] s (State.spoilPend s n) := by
  unfold State.spoilPend
  extract_lets -merge +onlyGivenNames x1
  extract_lets -merge +onlyGivenNames x2
  refine Keeps.ite (fun _ => ?_) (fun _ => ?_)
  · refine Keeps.after (State.setSett_keeps _ _ _) (by decide) ?_
    exact Keeps.refl _ _
  · refine Keeps.after (State.putSett_keeps _ _ _) (by decide) ?_
    exact Keeps.refl _ _

theorem State.wearOnset_keeps (s : State) (p : Phys) :
    Keeps [.regs, .evt, .evr, .chans, .med, .bench, .xlt, .twin, .cxl, .sec, .out, .fresh] s (State.wearOnset s p) := by
  unfold State.wearOnset
  extract_lets -merge +onlyGivenNames x1
  refine Keeps.of_let x1 ?_ (fun h1 => ?_)
  · unfold x1
    refine Keeps.after (State.cause_keeps _ _ _ _ _) (by decide) ?_
    refine Keeps.after (State.bump_keeps _ _ _ _ _ _) (by decide) ?_
    exact Keeps.refl _ _
  · split
    · extract_lets -merge +onlyGivenNames x2
      refine Keeps.of_let x2 ?_ (fun h2 => ?_)
      · unfold x2
        refine Keeps.after (State.spoilPend_keeps _ _) (by decide) ?_
        exact h1
      · split
        · refine Keeps.ite (fun _ => ?_) (fun _ => ?_)
          · refine Keeps.after (State.setMove_keeps _ _) (by decide) ?_
            exact h2
          · refine Keeps.after (State.queueWork_keeps _ _ _) (by decide) ?_
            exact h2
        · refine Keeps.after (State.queueWork_keeps _ _ _) (by decide) ?_
          exact h2
    · split
      · refine Keeps.after (State.moveRequeue_keeps _ _ _) (by decide) ?_
        exact h1
      · split
        · refine Keeps.after (State.queueWork_keeps _ _ _) (by decide) ?_
          exact h1
        · exact h1

theorem State.noteProgram_keeps (s : State) (p : Phys) (m : Mode) (i : DoneInfo) :
    Keeps [.regs, .evt, .evr, .chans, .med, .bench, .xlt, .twin, .cxl, .sec, .out, .fresh] s (State.noteProgram s p m i) := by
  unfold State.noteProgram
  split
  extract_lets -merge +onlyGivenNames x1
  refine Keeps.of_let x1 ?_ (fun h1 => ?_)
  · unfold x1
    refine Keeps.after (State.setSlotWear_keeps _ _ _) (by decide) ?_
    refine Keeps.of_fst (by assumption) ?_
    refine Keeps.after (wearAdd_keeps _ _) (by decide) ?_
    exact Keeps.refl _ _
  · extract_lets -merge +onlyGivenNames x2
    refine Keeps.of_let x2 ?_ (fun h2 => ?_)
    · unfold x2
      split
      · refine Keeps.after (State.setSett_keeps _ _ _) (by decide) ?_
        exact h1
      · exact h1
    · extract_lets -merge +onlyGivenNames x3
      refine Keeps.ite (fun _ => ?_) (fun _ => ?_)
      · refine Keeps.ite (fun _ => ?_) (fun _ => ?_)
        · refine Keeps.after (State.wearOnset_keeps _ _) (by decide) ?_
          refine Keeps.after (State.setYrw_keeps _ _) (by decide) ?_
          exact h2
        · refine Keeps.after (State.setYrw_keeps _ _) (by decide) ?_
          exact h2
      · refine Keeps.after (State.setYrw_keeps _ _) (by decide) ?_
        exact h2

theorem State.judgeOccupancy_keeps (s : State) :
    Keeps [.regs, .evt, .evr, .chans, .med, .cxl, .out] s (State.judgeOccupancy s) := by
  unfold State.judgeOccupancy
  extract_lets -merge +onlyGivenNames x1
  extract_lets -merge +onlyGivenNames x2
  extract_lets -merge +onlyGivenNames x3
  extract_lets -merge +onlyGivenNames x4
  extract_lets -merge +onlyGivenNames x5
  extract_lets -merge +onlyGivenNames x6
  refine Keeps.of_let x6 ?_ (fun h6 => ?_)
  · unfold x6
    refine Keeps.after (State.setYrw_keeps _ _) (by decide) ?_
    exact Keeps.refl _ _
  · extract_lets -merge +onlyGivenNames x7
    refine Keeps.of_let x7 ?_ (fun h7 => ?_)
    · unfold x7
      refine Keeps.ite (fun _ => ?_) (fun _ => ?_)
      · refine Keeps.after (State.cause_keeps _ _ _ _ _) (by decide) ?_
        exact h6
      · exact h6
    · refine Keeps.ite (fun _ => ?_) (fun _ => ?_)
      · split
        · refine Keeps.after (State.queueWork_keeps _ _ _) (by decide) ?_
          exact h7
        · exact h7
      · exact h7

theorem State.holdYoung_keeps (s : State) (x : Nat) :
    Keeps [.regs, .med] s (State.holdYoung s x) := by
  unfold State.holdYoung
  extract_lets -merge +onlyGivenNames x1
  extract_lets -merge +onlyGivenNames x2
  extract_lets -merge +onlyGivenNames x3
  refine Keeps.of_let x3 ?_ (fun h3 => ?_)
  · unfold x3
    refine Keeps.after (State.bump_keeps _ _ _ _ _ _) (by decide) ?_
    refine Keeps.after (State.setYrw_keeps _ _) (by decide) ?_
    exact Keeps.refl _ _
  · extract_lets -merge +onlyGivenNames x4
    split
    · refine Keeps.after (State.queueWork_keeps _ _ _) (by decide) ?_
      exact h3
    · exact h3

theorem State.unhold_keeps (s : State) (x : Nat) :
    Keeps [.med] s (State.unhold s x) := by
  unfold State.unhold
  extract_lets -merge +onlyGivenNames x1
  refine Keeps.ite (fun _ => ?_) (fun _ => ?_)
  · refine Keeps.after (State.setYrw_keeps _ _) (by decide) ?_
    exact Keeps.refl _ _
  · exact Keeps.refl _ _

theorem State.lineWritten_keeps (s : State) (x : Nat) :
    Keeps [.bench, .sec] s (State.lineWritten s x) := by
  unfold State.lineWritten
  split
  · refine Keeps.ite (fun _ => ?_) (fun _ => ?_)
    · exact Keeps.refl _ _
    · extract_lets -merge +onlyGivenNames x1
      extract_lets -merge +onlyGivenNames x2
      refine Keeps.of_let x2 ?_ (fun h2 => ?_)
      · unfold x2
        refine Keeps.ite (fun _ => ?_) (fun _ => ?_)
        · refine Keeps.after (State.dropLine_keeps _ _) (by decide) ?_
          exact Keeps.refl _ _
        · refine Keeps.after (State.setBline_keeps _ _ _) (by decide) ?_
          exact Keeps.refl _ _
      · refine Keeps.ite (fun _ => ?_) (fun _ => ?_)
        · exact h2
        · refine Keeps.after (State.grantToken_keeps _) (by decide) ?_
          exact h2
  · exact Keeps.refl _ _

theorem State.lineKept_keeps (s : State) (x : Nat) :
    Keeps [.bench] s (State.lineKept s x) := by
  unfold State.lineKept
  split
  · refine Keeps.ite (fun _ => ?_) (fun _ => ?_)
    · refine Keeps.after (State.setBline_keeps _ _ _) (by decide) ?_
      exact Keeps.refl _ _
    · exact Keeps.refl _ _
  · exact Keeps.refl _ _

theorem State.backVerified_keeps (s : State) (p : Phys) (c : QmiCmd) (x : Nat) :
    Keeps [.regs, .evt, .evr, .chans, .med, .bench, .xlt, .cxl, .sec, .out] s (State.backVerified s p c x) := by
  unfold State.backVerified
  extract_lets -merge +onlyGivenNames x1
  extract_lets -merge +onlyGivenNames x2
  refine Keeps.ite (fun _ => ?_) (fun _ => ?_)
  · split
    · refine Keeps.after (State.judgeOccupancy_keeps _) (by decide) ?_
      refine Keeps.after (State.lineWritten_keeps _ _) (by decide) ?_
      refine Keeps.after (State.journalYoung_keeps _ _ _) (by decide) ?_
      refine Keeps.after (State.unhold_keeps _ _) (by decide) ?_
      refine Keeps.of_fst (by assumption) ?_
      refine Keeps.after (State.youngAdd_keeps _ _ _ _) (by decide) ?_
      exact Keeps.refl _ _
    · refine Keeps.after (State.holdYoung_keeps _ _) (by decide) ?_
      refine Keeps.after (State.lineKept_keeps _ _) (by decide) ?_
      refine Keeps.of_fst (by assumption) ?_
      refine Keeps.after (State.youngAdd_keeps _ _ _ _) (by decide) ?_
      exact Keeps.refl _ _
  · refine Keeps.ite (fun _ => ?_) (fun _ => ?_)
    · refine Keeps.ite (fun _ => ?_) (fun _ => ?_)
      · refine Keeps.after (State.lineKept_keeps _ _) (by decide) ?_
        refine Keeps.after (State.leaveSlot_keeps _ _ _ _) (by decide) ?_
        exact Keeps.refl _ _
      · extract_lets -merge +onlyGivenNames x3
        extract_lets -merge +onlyGivenNames x4
        refine Keeps.of_let x4 ?_ (fun h4 => ?_)
        · unfold x4
          refine Keeps.after (State.putSett_keeps _ _ _) (by decide) ?_
          exact Keeps.refl _ _
        · extract_lets -merge +onlyGivenNames x5
          refine Keeps.after (State.lineWritten_keeps _ _) (by decide) ?_
          refine Keeps.after (State.journal_keeps _ _) (by decide) ?_
          refine Keeps.after (State.setBand_keeps _ _ _ _) (by decide) ?_
          exact h4
    · refine Keeps.after (State.lineKept_keeps _ _) (by decide) ?_
      exact Keeps.refl _ _

theorem State.moveVerified_keeps (s : State) (n : Nat) (l : Nat) :
    Keeps [.med, .bench, .xlt, .sec, .out] s (State.moveVerified s n l) := by
  unfold State.moveVerified
  split
  · exact Keeps.refl _ _
  · extract_lets -merge +onlyGivenNames x1
    extract_lets -merge +onlyGivenNames x2
    refine Keeps.of_let x2 ?_ (fun h2 => ?_)
    · unfold x2
      refine Keeps.after (State.setMove_keeps _ _) (by decide) ?_
      exact Keeps.refl _ _
    · split
      · extract_lets -merge +onlyGivenNames x3
        refine Keeps.of_let x3 ?_ (fun h3 => ?_)
        · unfold x3
          split
          · refine Keeps.after (State.setScb_keeps _ _ _) (by decide) ?_
            exact h2
          · exact h2
        · exact h3
      · extract_lets -merge +onlyGivenNames x3
        refine Keeps.of_let x3 ?_ (fun h3 => ?_)
        · unfold x3
          refine Keeps.after (State.lineWritten_keeps _ _) (by decide) ?_
          exact h2
        · extract_lets -merge +onlyGivenNames x4
          refine Keeps.ite (fun _ => ?_) (fun _ => ?_)
          · refine Keeps.after (State.moveFeed_keeps _ _) (by decide) ?_
            refine Keeps.after (State.setMove_keeps _ _) (by decide) ?_
            exact h3
          · exact h3

theorem State.blankVerified_keeps (s : State) (p : Phys) (l : Nat) :
    Keeps [.regs, .evt, .evr, .chans, .med, .xlt, .cxl, .out] s (State.blankVerified s p l) := by
  unfold State.blankVerified
  split
  · exact Keeps.refl _ _
  · extract_lets -merge +onlyGivenNames x1
    refine Keeps.ite (fun _ => ?_) (fun _ => ?_)
    · extract_lets -merge +onlyGivenNames x2
      extract_lets -merge +onlyGivenNames x3
      extract_lets -merge +onlyGivenNames x4
      extract_lets -merge +onlyGivenNames x5
      refine Keeps.of_let x5 ?_ (fun h5 => ?_)
      · unfold x5
        refine Keeps.after (State.setMed_keeps _ _) (by decide) ?_
        exact Keeps.refl _ _
      · refine Keeps.ite (fun _ => ?_) (fun _ => ?_)
        · exact h5
        · refine Keeps.after (State.journal_keeps _ _) (by decide) ?_
          refine Keeps.after (State.setZone_keeps _ _ _ _) (by decide) ?_
          exact h5
    · refine Keeps.after (State.setMed_keeps _ _) (by decide) ?_
      exact Keeps.refl _ _

theorem State.destFailed_keeps (s : State) (n : Nat) (m : Move) :
    Keeps [.regs, .evt, .evr, .chans, .med, .bench, .xlt, .twin, .cxl, .sec, .out, .fresh] s (State.destFailed s n m) := by
  unfold State.destFailed
  extract_lets -merge +onlyGivenNames x1
  split
  · extract_lets -merge +onlyGivenNames x2
    refine Keeps.of_let x2 ?_ (fun h2 => ?_)
    · unfold x2
      beta_reduce
      unfold x1
      refine Keeps.after (State.setDie_keeps _ _ _) (by decide) ?_
      refine Keeps.after (State.setDie_keeps _ _ _) (by decide) ?_
      refine Keeps.after (State.moveAbandon_keeps _ _ _) (by decide) ?_
      exact Keeps.refl _ _
    · extract_lets -merge +onlyGivenNames x3
      extract_lets -merge +onlyGivenNames x4
      extract_lets -merge +onlyGivenNames x5
      refine Keeps.of_let x5 ?_ (fun h5 => ?_)
      · unfold x5
        refine Keeps.after (State.setYrw_keeps _ _) (by decide) ?_
        exact h2
      · extract_lets -merge +onlyGivenNames x6
        refine Keeps.of_let x6 ?_ (fun h6 => ?_)
        · unfold x6
          refine Keeps.ite (fun _ => ?_) (fun _ => ?_)
          · refine Keeps.after (State.cause_keeps _ _ _ _ _) (by decide) ?_
            exact h5
          · exact h5
        · extract_lets -merge +onlyGivenNames x7
          clear_value x7
          split
          · extract_lets -merge +onlyGivenNames x7
            refine Keeps.of_let x7 ?_ (fun h7 => ?_)
            · unfold x7
              refine Keeps.after (State.moveStart_keeps _ _ _ _ _) (by decide) ?_
              refine Keeps.after (State.journal_keeps _ _) (by decide) ?_
              exact h6
            · split
              · refine Keeps.after (State.setMove_keeps _ _) (by decide) ?_
                exact h7
              · exact h7
          · refine Keeps.after (State.queueWork_keeps _ _ _) (by decide) ?_
            exact h6
  · refine Keeps.after (State.moveRequeue_keeps _ _ _) (by decide) ?_
    exact Keeps.refl _ _

theorem State.slotFailed_keeps (s : State) (p : Phys) :
    Keeps [.regs, .evt, .evr, .chans, .med, .bench, .xlt, .twin, .cxl, .sec, .out, .fresh] s (State.slotFailed s p) := by
  unfold State.slotFailed
  split
  · refine Keeps.after (State.queueWork_keeps _ _ _) (by decide) ?_
    exact Keeps.refl _ _
  · split
    · refine Keeps.after (State.destFailed_keeps _ _ _) (by decide) ?_
      exact Keeps.refl _ _
    · refine Keeps.ite (fun _ => ?_) (fun _ => ?_)
      · exact Keeps.refl _ _
      · refine Keeps.after (State.leaveSlot_keeps _ _ _ _) (by decide) ?_
        exact Keeps.refl _ _

theorem State.programFailed_keeps (s : State) (p : Phys) (c : QmiCmd) :
    Keeps [.regs, .evt, .nv, .evr, .chans, .med, .bench, .xlt, .twin, .cxl, .sec, .out, .fresh] s (State.programFailed s p c) := by
  unfold State.programFailed
  split
  · refine Keeps.after (State.slotFailed_keeps _ _) (by decide) ?_
    refine Keeps.after (State.lineKept_keeps _ _) (by decide) ?_
    exact Keeps.refl _ _
  · refine Keeps.ite (fun _ => ?_) (fun _ => ?_)
    · refine Keeps.after (State.queueWork_keeps _ _ _) (by decide) ?_
      refine Keeps.after (State.moveRequeue_keeps _ _ _) (by decide) ?_
      refine Keeps.after (State.lineKept_keeps _ _) (by decide) ?_
      exact Keeps.refl _ _
    · refine Keeps.after (State.slotFailed_keeps _ _) (by decide) ?_
      exact Keeps.refl _ _
  · refine Keeps.after (State.slotFailed_keeps _ _) (by decide) ?_
    refine Keeps.after (State.setMed_keeps _ _) (by decide) ?_
    exact Keeps.refl _ _
  · refine Keeps.after (State.sentinelFailed_keeps _ _ _ _ _) (by decide) ?_
    exact Keeps.refl _ _
  · refine Keeps.after (State.mapUnwritten_keeps _ _ _ _) (by decide) ?_
    exact Keeps.refl _ _
  · refine Keeps.after (State.slotFailed_keeps _ _) (by decide) ?_
    exact Keeps.refl _ _
  · refine Keeps.after (State.slotFailed_keeps _ _) (by decide) ?_
    exact Keeps.refl _ _
  · exact Keeps.refl _ _

theorem State.programVerified_keeps (s : State) (p : Phys) (c : QmiCmd) (i : DoneInfo) :
    Keeps [.regs, .evt, .nv, .evr, .chans, .med, .bench, .xlt, .twin, .cxl, .sec, .out, .fresh] s (State.programVerified s p c i) := by
  unfold State.programVerified
  split
  · refine Keeps.after (State.noteProgram_keeps _ _ _ _) (by decide) ?_
    refine Keeps.after (State.backVerified_keeps _ _ _ _) (by decide) ?_
    exact Keeps.refl _ _
  · extract_lets -merge +onlyGivenNames x1
    refine Keeps.of_let x1 ?_ (fun h1 => ?_)
    · unfold x1
      refine Keeps.after (State.noteProgram_keeps _ _ _ _) (by decide) ?_
      exact Keeps.refl _ _
    · refine Keeps.ite (fun _ => ?_) (fun _ => ?_)
      · refine Keeps.after (State.moveVerified_keeps _ _ _) (by decide) ?_
        exact h1
      · exact h1
  · extract_lets -merge +onlyGivenNames x1
    refine Keeps.of_let x1 ?_ (fun h1 => ?_)
    · unfold x1
      refine Keeps.after (State.noteProgram_keeps _ _ _ _) (by decide) ?_
      exact Keeps.refl _ _
    · refine Keeps.ite (fun _ => ?_) (fun _ => ?_)
      · refine Keeps.after (State.moveVerified_keeps _ _ _) (by decide) ?_
        exact h1
      · exact h1
  · refine Keeps.after (State.blankVerified_keeps _ _ _) (by decide) ?_
    refine Keeps.after (State.noteProgram_keeps _ _ _ _) (by decide) ?_
    exact Keeps.refl _ _
  · refine Keeps.after (State.noteProgram_keeps _ _ _ _) (by decide) ?_
    exact Keeps.refl _ _
  · refine Keeps.after (State.mapVerified_keeps _ _ _ _) (by decide) ?_
    exact Keeps.refl _ _
  · refine Keeps.after (State.sentinelVerified_keeps _ _ _ _ _ _) (by decide) ?_
    refine Keeps.ite (fun _ => ?_) (fun _ => ?_)
    · refine Keeps.after (State.noteProgram_keeps _ _ _ _) (by decide) ?_
      exact Keeps.refl _ _
    · exact Keeps.refl _ _
  · exact Keeps.refl _ _

theorem State.movesLeave_keeps (s : State) :
    Keeps [.regs, .evt, .evr, .chans, .med, .bench, .xlt, .twin, .cxl, .sec, .out, .fresh] s (State.movesLeave s) := by
  unfold State.movesLeave
  extract_lets -merge +onlyGivenNames x1
  refine Keeps.foldl _ (fun _ _ => ?_) ?_
  · refine Keeps.after (State.moveRequeue_keeps _ _ _) (by decide) ?_
    exact Keeps.refl _ _
  · exact Keeps.refl _ _

theorem State.heldKick_keeps (s : State) :
    Keeps [.regs, .evt, .evr, .chans, .med, .bench, .xlt, .cxl, .out, .fresh] s (State.heldKick s) := by
  unfold State.heldKick
  refine Keeps.foldl _ (fun _ _ => ?_) ?_
  · split
    · refine Keeps.ite (fun _ => ?_) (fun _ => ?_)
      · refine Keeps.after (State.unhold_keeps _ _) (by decide) ?_
        exact Keeps.refl _ _
      · refine Keeps.ite (fun _ => ?_) (fun _ => ?_)
        · refine Keeps.after (State.writeBack_keeps _ _) (by decide) ?_
          refine Keeps.after (State.unhold_keeps _ _) (by decide) ?_
          exact Keeps.refl _ _
        · exact Keeps.refl _ _
    · refine Keeps.after (State.unhold_keeps _ _) (by decide) ?_
      exact Keeps.refl _ _
  · exact Keeps.refl _ _

theorem State.recoverKick_keeps (s : State) :
    Keeps [.regs, .evt, .evr, .chans, .med, .bench, .xlt, .cxl, .sec, .out, .fresh] s (State.recoverKick s) := by
  unfold State.recoverKick
  refine Keeps.ite (fun _ => ?_) (fun _ => ?_)
  · exact Keeps.refl _ _
  · refine Keeps.foldl _ (fun _ _ => ?_) ?_
    · extract_lets -merge +onlyGivenNames x1
      refine Keeps.of_let x1 ?_ (fun h1 => ?_)
      · unfold x1
        refine Keeps.after (State.recoverLine_keeps _ _ _) (by decide) ?_
        exact Keeps.refl _ _
      · refine Keeps.ite (fun _ => ?_) (fun _ => ?_)
        · exact h1
        · refine Keeps.after (State.resumeLine_keeps _ _) (by decide) ?_
          exact h1
    · exact Keeps.refl _ _

theorem State.scbKick_keeps (s : State) :
    Keeps [.regs, .evt, .evr, .chans, .med, .bench, .xlt, .cxl, .sec, .out, .fresh] s (State.scbKick s) := by
  unfold State.scbKick
  refine Keeps.foldl _ (fun _ _ => ?_) ?_
  · refine Keeps.ite (fun _ => ?_) (fun _ => ?_)
    · refine Keeps.after (State.scbDissolve_keeps _ _) (by decide) ?_
      exact Keeps.refl _ _
    · refine Keeps.ite (fun _ => ?_) (fun _ => ?_)
      · refine Keeps.foldl _ (fun _ _ => ?_) ?_
        · refine Keeps.after (State.scbReturn_keeps _ _ _) (by decide) ?_
          exact Keeps.refl _ _
        · exact Keeps.refl _ _
      · exact Keeps.refl _ _
  · exact Keeps.refl _ _

theorem State.judgeBlank_keeps (s : State) :
    Keeps [.med] s (State.judgeBlank s) := by
  unfold State.judgeBlank
  refine Keeps.foldl _ (fun _ _ => ?_) ?_
  · extract_lets -merge +onlyGivenNames x1
    refine Keeps.ite (fun _ => ?_) (fun _ => ?_)
    · exact Keeps.refl _ _
    · refine Keeps.after (State.setDie_keeps _ _ _) (by decide) ?_
      exact Keeps.refl _ _
  · exact Keeps.refl _ _

theorem State.medKick_keeps (s : State) :
    Keeps [.regs, .evt, .sched, .nv, .evr, .chans, .med, .bench, .xlt, .twin, .cxl, .sec, .out, .fresh] s (State.medKick s) := by
  unfold State.medKick
  extract_lets -merge +onlyGivenNames x1
  refine Keeps.of_let x1 ?_ (fun h1 => ?_)
  · unfold x1
    refine Keeps.after (State.ladderKick_keeps _) (by decide) ?_
    refine Keeps.after (State.recoverKick_keeps _) (by decide) ?_
    refine Keeps.after (State.heldKick_keeps _) (by decide) ?_
    refine Keeps.after (State.scbKick_keeps _) (by decide) ?_
    refine Keeps.after (State.movesLeave_keeps _) (by decide) ?_
    exact Keeps.refl _ _
  · extract_lets -merge +onlyGivenNames x2
    refine Keeps.of_let x2 ?_ (fun h2 => ?_)
    · unfold x2
      refine Keeps.foldl _ (fun _ _ => ?_) ?_
      · refine Keeps.after (State.moveFeed_keeps _ _) (by decide) ?_
        exact Keeps.refl _ _
      · exact h1
    · extract_lets -merge +onlyGivenNames x3
      refine Keeps.of_let x3 ?_ (fun h3 => ?_)
      · unfold x3
        refine Keeps.foldl _ (fun _ _ => ?_) ?_
        · split
          · exact Keeps.refl _ _
          · refine Keeps.foldl _ (fun _ _ => ?_) ?_
            · extract_lets -merge +onlyGivenNames x4
              split
              refine Keeps.ite (fun _ => ?_) (fun _ => ?_)
              · refine Keeps.after (State.rewriteData_keeps _ _ _ _) (by decide) ?_
                exact Keeps.refl _ _
              · exact Keeps.refl _ _
            · exact Keeps.refl _ _
        · exact h2
      · refine Keeps.ite (fun _ => ?_) (fun _ => ?_)
        · exact h3
        · refine Keeps.foldl _ (fun _ _ => ?_) ?_
          · extract_lets -merge +onlyGivenNames x4
            refine Keeps.ite (fun _ => ?_) (fun _ => ?_)
            · exact Keeps.refl _ _
            · refine Keeps.ite (fun _ => ?_) (fun _ => ?_)
              · extract_lets -merge +onlyGivenNames x5
                refine Keeps.of_let x5 ?_ (fun h5 => ?_)
                · unfold x5
                  split
                  · refine Keeps.after (State.slotRecord_keeps _ _ _) (by decide) ?_
                    exact Keeps.refl _ _
                  · exact Keeps.refl _ _
                · extract_lets -merge +onlyGivenNames x6
                  refine Keeps.of_let x6 ?_ (fun h6 => ?_)
                  · unfold x6
                    refine Keeps.after (State.setPass_keeps _ _ _) (by decide) ?_
                    exact h5
                  · refine Keeps.ite (fun _ => ?_) (fun _ => ?_)
                    · refine Keeps.after (State.passRun_keeps _ _) (by decide) ?_
                      exact h6
                    · refine Keeps.after (State.startPass_keeps _ _) (by decide) ?_
                      exact h6
              · refine Keeps.ite (fun _ => ?_) (fun _ => ?_)
                · refine Keeps.after (State.passRun_keeps _ _) (by decide) ?_
                  exact Keeps.refl _ _
                · exact Keeps.refl _ _
          · exact h3

theorem State.lockFinish_keeps (s : State) :
    Keeps [.sec] s (State.lockFinish s) := by
  unfold State.lockFinish
  refine Keeps.foldl _ (fun _ _ => ?_) ?_
  · extract_lets -merge +onlyGivenNames x1
    refine Keeps.ite (fun _ => ?_) (fun _ => ?_)
    · exact Keeps.refl _ _
    · refine Keeps.set_sec (by decide) rfl ?_
      exact Keeps.refl _ _
  · exact Keeps.refl _ _

theorem State.settleMed_keeps (s : State) :
    Keeps [.regs, .evt, .sched, .nv, .evr, .chans, .med, .bench, .xlt, .twin, .cxl, .rdma, .sec, .out, .fresh] s (State.settleMed s) := by
  unfold State.settleMed
  refine Keeps.after (State.lockFinish_keeps _) (by decide) ?_
  refine Keeps.after (State.judgeTsl_keeps _) (by decide) ?_
  refine Keeps.after (State.judgeBlank_keeps _) (by decide) ?_
  refine Keeps.after (State.judgeYrw_keeps _) (by decide) ?_
  refine Keeps.after (State.medKick_keeps _) (by decide) ?_
  refine Keeps.after (State.settle_keeps _) (by decide) ?_
  exact Keeps.refl _ _

/-! ### DrainOps -/

theorem State.setDesc_keeps (s : State) (half : Bool) (v : Descriptor) :
    Keeps [.nv, .bench] s (State.setDesc s half v) := by
  unfold State.setDesc
  refine Keeps.after (State.nvWrite_keeps _ _ _) (by decide) ?_
  refine Keeps.after (State.setBench_keeps _ _) (by decide) ?_
  exact Keeps.refl _ _

theorem State.drainProgram_keeps (s : State) (f : DrainFrame) :
    Keeps [.med, .out] s (State.drainProgram s f) := by
  unfold State.drainProgram
  split
  · exact Keeps.refl _ _
  · extract_lets -merge +onlyGivenNames x1
    extract_lets -merge +onlyGivenNames x2
    extract_lets -merge +onlyGivenNames x3
    extract_lets -merge +onlyGivenNames x4
    extract_lets -merge +onlyGivenNames x5
    refine Keeps.after (State.issue_keeps _ _ _) (by decide) ?_
    exact Keeps.refl _ _

theorem State.dropFirst_keeps (s : State) (p : QChan → List QmiCmd) :
    Keeps [.regs, .evt, .evr, .chans, .med, .xlt, .cxl, .out] s (State.dropFirst s p) := by
  unfold State.dropFirst
  refine Keeps.foldl _ (fun _ _ => ?_) ?_
  · refine Keeps.foldl _ (fun _ _ => ?_) ?_
    · split
      · refine Keeps.ite (fun _ => ?_) (fun _ => ?_)
        · extract_lets -merge +onlyGivenNames x1
          refine Keeps.after (State.leaveSlot_keeps _ _ _ _) (by decide) ?_
          exact Keeps.refl _ _
        · exact Keeps.refl _ _
      · exact Keeps.refl _ _
    · exact Keeps.refl _ _
  · exact Keeps.refl _ _

theorem State.startDrain_keeps (s : State) (code : Nat) (orderly : Bool) :
    Keeps [.regs, .evt, .tally, .nv, .evr, .chans, .med, .bench, .xlt, .twin, .cxl, .out] s (State.startDrain s code orderly) := by
  unfold State.startDrain
  extract_lets -merge +onlyGivenNames x1
  extract_lets -merge +onlyGivenNames x2
  extract_lets -merge +onlyGivenNames x3
  extract_lets -merge +onlyGivenNames x4
  extract_lets -merge +onlyGivenNames x5
  extract_lets -merge +onlyGivenNames x6
  extract_lets -merge +onlyGivenNames x7
  extract_lets -merge +onlyGivenNames x8
  refine Keeps.of_let x8 ?_ (fun h8 => ?_)
  · unfold x8
    refine Keeps.after (State.setBench_keeps _ _) (by decide) ?_
    exact Keeps.refl _ _
  · extract_lets -merge +onlyGivenNames x9
    refine Keeps.of_let x9 ?_ (fun h9 => ?_)
    · unfold x9
      refine Keeps.after (State.setDesc_keeps _ _ _) (by decide) ?_
      refine Keeps.after (State.writeFloor_keeps _ _) (by decide) ?_
      refine Keeps.after (State.tsend_keeps _ _ _) (by decide) ?_
      refine Keeps.after (State.emit_keeps _ _) (by decide) ?_
      refine Keeps.after (State.judgeBench_keeps _) (by decide) ?_
      exact h8
    · extract_lets -merge +onlyGivenNames x10
      refine Keeps.of_let x10 ?_ (fun h10 => ?_)
      · unfold x10
        refine Keeps.after (State.dropFirst_keeps _ _) (by decide) ?_
        exact h9
      · extract_lets -merge +onlyGivenNames x11
        extract_lets -merge +onlyGivenNames x12
        refine Keeps.of_let x12 ?_ (fun h12 => ?_)
        · unfold x12
          refine Keeps.after (State.setMed_keeps _ _) (by decide) ?_
          exact h10
        · extract_lets -merge +onlyGivenNames x13
          refine Keeps.ite (fun _ => ?_) (fun _ => ?_)
          · refine Keeps.after (State.setBench_keeps _ _) (by decide) ?_
            exact h12
          · extract_lets -merge +onlyGivenNames x14
            extract_lets -merge +onlyGivenNames x15
            extract_lets -merge +onlyGivenNames x16
            refine Keeps.of_let x16 ?_ (fun h16 => ?_)
            · unfold x16
              refine Keeps.after (State.setBench_keeps _ _) (by decide) ?_
              exact h12
            · refine Keeps.foldl _ (fun _ _ => ?_) ?_
              · refine Keeps.ite (fun _ => ?_) (fun _ => ?_)
                · refine Keeps.after (State.drainProgram_keeps _ _) (by decide) ?_
                  exact Keeps.refl _ _
                · exact Keeps.refl _ _
              · exact h16

theorem State.drainReloc_keeps (s : State) (k : Nat) :
    Keeps [.regs, .evt, .evr, .chans, .med, .bench, .cxl, .out] s (State.drainReloc s k) := by
  unfold State.drainReloc
  split
  · exact Keeps.refl _ _
  · split
    · exact Keeps.refl _ _
    · extract_lets -merge +onlyGivenNames x1
      extract_lets -merge +onlyGivenNames x2
      extract_lets -merge +onlyGivenNames x3
      extract_lets -merge +onlyGivenNames x4
      extract_lets -merge +onlyGivenNames x5
      split
      · refine Keeps.after (State.setBench_keeps _ _) (by decide) ?_
        exact Keeps.refl _ _
      · extract_lets -merge +onlyGivenNames x6
        extract_lets -merge +onlyGivenNames x7
        extract_lets -merge +onlyGivenNames x8
        extract_lets -merge +onlyGivenNames x9
        refine Keeps.of_let x9 ?_ (fun h9 => ?_)
        · unfold x9
          refine Keeps.after (State.setBench_keeps _ _) (by decide) ?_
          exact Keeps.refl _ _
        · extract_lets -merge +onlyGivenNames x10
          refine Keeps.of_let x10 ?_ (fun h10 => ?_)
          · unfold x10
            refine Keeps.after (State.cause_keeps _ _ _ _ _) (by decide) ?_
            exact h9
          · refine Keeps.ite (fun _ => ?_) (fun _ => ?_)
            · refine Keeps.after (State.drainProgram_keeps _ _) (by decide) ?_
              exact h10
            · exact h10

theorem State.drainDone_keeps (s : State) (k : Nat) (ok : Bool) :
    Keeps [.regs, .evt, .evr, .chans, .med, .bench, .cxl, .out] s (State.drainDone s k ok) := by
  unfold State.drainDone
  refine Keeps.ite (fun _ => ?_) (fun _ => ?_)
  · refine Keeps.after (State.drainReloc_keeps _ _) (by decide) ?_
    exact Keeps.refl _ _
  · split
    · exact Keeps.refl _ _
    · extract_lets -merge +onlyGivenNames x1
      extract_lets -merge +onlyGivenNames x2
      extract_lets -merge +onlyGivenNames x3
      extract_lets -merge +onlyGivenNames x4
      refine Keeps.of_let x4 ?_ (fun h4 => ?_)
      · unfold x4
        refine Keeps.after (State.setBench_keeps _ _) (by decide) ?_
        exact Keeps.refl _ _
      · refine Keeps.foldl _ (fun _ _ => ?_) ?_
        · refine Keeps.after (State.drainProgram_keeps _ _) (by decide) ?_
          exact Keeps.refl _ _
        · exact h4

theorem State.drainLostDies_keeps (s : State) :
    Keeps [.regs, .evt, .evr, .chans, .med, .bench, .cxl, .out] s (State.drainLostDies s) := by
  unfold State.drainLostDies
  split
  · exact Keeps.refl _ _
  · refine Keeps.ite (fun _ => ?_) (fun _ => ?_)
    · exact Keeps.refl _ _
    · refine Keeps.foldl _ (fun _ _ => ?_) ?_
      · refine Keeps.after (State.drainReloc_keeps _ _) (by decide) ?_
        exact Keeps.refl _ _
      · exact Keeps.refl _ _

theorem State.loadStart_keeps (s : State) :
    Keeps [.regs, .evt, .evr, .chans, .xlt, .twin, .cxl, .out] s (State.loadStart s) := by
  unfold State.loadStart
  refine Keeps.ite (fun _ => ?_) (fun _ => ?_)
  · exact Keeps.refl _ _
  · extract_lets -merge +onlyGivenNames x1
    extract_lets -merge +onlyGivenNames x2
    extract_lets -merge +onlyGivenNames x3
    refine Keeps.of_let x3 ?_ (fun h3 => ?_)
    · unfold x3
      refine Keeps.after (State.formatMap_keeps _ _) (by decide) ?_
      exact Keeps.refl _ _
    · extract_lets -merge +onlyGivenNames x4
      extract_lets -merge +onlyGivenNames x5
      extract_lets -merge +onlyGivenNames x6
      extract_lets -merge +onlyGivenNames x7
      refine Keeps.of_let x7 ?_ (fun h7 => ?_)
      · unfold x7
        refine Keeps.after (State.setXlt_keeps _ _) (by decide) ?_
        exact h3
      · refine Keeps.after (State.judgeXlt_keeps _) (by decide) ?_
        refine Keeps.ite (fun _ => ?_) (fun _ => ?_)
        · refine Keeps.foldl _ (fun _ _ => ?_) ?_
          · refine Keeps.after (State.fenceWitness_keeps _ _) (by decide) ?_
            exact Keeps.refl _ _
          · exact h7
        · exact h7

theorem State.tryOpen_keeps (s : State) :
    Keeps [.regs, .evt, .evr, .psq, .chans, .bench, .xlt, .twin, .cxl, .out] s (State.tryOpen s) := by
  unfold State.tryOpen
  extract_lets -merge +onlyGivenNames x1
  refine Keeps.ite (fun _ => ?_) (fun _ => ?_)
  · extract_lets -merge +onlyGivenNames x2
    extract_lets -merge +onlyGivenNames x3
    refine Keeps.of_let x3 ?_ (fun h3 => ?_)
    · unfold x3
      refine Keeps.after (State.setBench_keeps _ _) (by decide) ?_
      exact Keeps.refl _ _
    · refine Keeps.after (State.loadStart_keeps _) (by decide) ?_
      refine Keeps.after (State.judgeBench_keeps _) (by decide) ?_
      refine Keeps.after (State.emit_keeps _ _) (by decide) ?_
      refine Keeps.after (State.setPsq_keeps _ _) (by decide) ?_
      exact h3
  · refine Keeps.ite (fun _ => ?_) (fun _ => ?_)
    · refine Keeps.after (State.loadStart_keeps _) (by decide) ?_
      exact Keeps.refl _ _
    · exact Keeps.refl _ _

theorem State.drainIncomplete_keeps (s : State) (half : Bool) :
    Keeps [.regs, .evt, .nv, .evr, .psq, .chans, .bench, .xlt, .twin, .cxl, .out] s (State.drainIncomplete s half) := by
  unfold State.drainIncomplete
  extract_lets -merge +onlyGivenNames x1
  refine Keeps.of_let x1 ?_ (fun h1 => ?_)
  · unfold x1
    refine Keeps.after (State.cause_keeps _ _ _ _ _) (by decide) ?_
    exact Keeps.refl _ _
  · extract_lets -merge +onlyGivenNames x2
    extract_lets -merge +onlyGivenNames x3
    refine Keeps.of_let x3 ?_ (fun h3 => ?_)
    · unfold x3
      refine Keeps.after (State.setBench_keeps _ _) (by decide) ?_
      exact h1
    · extract_lets -merge +onlyGivenNames x4
      refine Keeps.of_let x4 ?_ (fun h4 => ?_)
      · unfold x4
        refine Keeps.foldl _ (fun _ _ => ?_) ?_
        · refine Keeps.after (State.putRt_keeps _ _ _) (by decide) ?_
          exact Keeps.refl _ _
        · exact h3
      · refine Keeps.after (State.tryOpen_keeps _) (by decide) ?_
        refine Keeps.after (State.setDesc_keeps _ _ _) (by decide) ?_
        exact h4

theorem State.replayChoose_keeps (s : State) :
    Keeps [.regs, .evt, .nv, .evr, .psq, .chans, .bench, .xlt, .twin, .cxl, .out] s (State.replayChoose s) := by
  unfold State.replayChoose
  extract_lets -merge +onlyGivenNames x1
  split
  · refine Keeps.after (State.judgeBench_keeps _) (by decide) ?_
    refine Keeps.after (State.setBench_keeps _ _) (by decide) ?_
    exact Keeps.refl _ _
  · refine Keeps.after (State.drainIncomplete_keeps _ _) (by decide) ?_
    exact Keeps.refl _ _
  · refine Keeps.after (State.tryOpen_keeps _) (by decide) ?_
    refine Keeps.after (State.setBench_keeps _ _) (by decide) ?_
    exact Keeps.refl _ _

theorem State.replayLost_keeps (s : State) (k : Nat) :
    Keeps [.bench] s (State.replayLost s k) := by
  unfold State.replayLost
  split
  · refine Keeps.after (State.setBench_keeps _ _) (by decide) ?_
    exact Keeps.refl _ _
  · exact Keeps.refl _ _

theorem State.replayAsk_keeps (s : State) (op : QmiOp) (k : Nat) :
    Keeps [.med, .out] s (State.replayAsk s op k) := by
  unfold State.replayAsk
  extract_lets -merge +onlyGivenNames x1
  extract_lets -merge +onlyGivenNames x2
  extract_lets -merge +onlyGivenNames x3
  extract_lets -merge +onlyGivenNames x4
  refine Keeps.after (State.issue_keeps _ _ _) (by decide) ?_
  exact Keeps.refl _ _

theorem State.replayFrame_keeps (s : State) (k : Nat) (op : QmiOp) (dec : Option Decoded) :
    Keeps [.med, .bench, .out] s (State.replayFrame s k op dec) := by
  unfold State.replayFrame
  extract_lets -merge +onlyGivenNames x1
  split
  · exact Keeps.refl _ _
  · refine Keeps.ite (fun _ => ?_) (fun _ => ?_)
    · exact Keeps.refl _ _
    · extract_lets -merge +onlyGivenNames x2
      split
      · refine Keeps.ite (fun _ => ?_) (fun _ => ?_)
        · extract_lets -merge +onlyGivenNames x3
          refine Keeps.after (State.setBench_keeps _ _) (by decide) ?_
          exact Keeps.refl _ _
        · refine Keeps.after (State.replayLost_keeps _ _) (by decide) ?_
          exact Keeps.refl _ _
      · refine Keeps.ite (fun _ => ?_) (fun _ => ?_)
        · refine Keeps.after (State.replayAsk_keeps _ _ _) (by decide) ?_
          exact Keeps.refl _ _
        · refine Keeps.after (State.replayLost_keeps _ _) (by decide) ?_
          exact Keeps.refl _ _

theorem State.replayBegin_keeps (s : State) :
    Keeps [.med, .bench, .out] s (State.replayBegin s) := by
  unfold State.replayBegin
  extract_lets -merge +onlyGivenNames x1
  extract_lets -merge +onlyGivenNames x2
  refine Keeps.foldl _ (fun _ _ => ?_) ?_
  · refine Keeps.after (State.replayAsk_keeps _ _ _) (by decide) ?_
    exact Keeps.refl _ _
  · refine Keeps.after (State.setBench_keeps _ _) (by decide) ?_
    exact Keeps.refl _ _

theorem State.replayData_keeps (s : State) :
    Keeps [.regs, .evt, .evr, .chans, .med, .bench, .xlt, .twin, .cxl, .out] s (State.replayData s) := by
  unfold State.replayData
  extract_lets -merge +onlyGivenNames x1
  extract_lets -merge +onlyGivenNames x2
  extract_lets -merge +onlyGivenNames x3
  refine Keeps.of_let x3 ?_ (fun h3 => ?_)
  · unfold x3
    refine Keeps.after (State.loadStart_keeps _) (by decide) ?_
    exact Keeps.refl _ _
  · refine Keeps.foldl _ (fun _ _ => ?_) ?_
    · refine Keeps.after (State.replayAsk_keeps _ _ _) (by decide) ?_
      exact Keeps.refl _ _
    · refine Keeps.after (State.setBench_keeps _ _) (by decide) ?_
      exact h3

theorem State.replayInstall_keeps (s : State) (p : Replay) :
    Keeps [.regs, .evt, .evr, .chans, .med, .bench, .xlt, .cxl, .out] s (State.replayInstall s p) := by
  unfold State.replayInstall
  extract_lets -merge +onlyGivenNames x1
  extract_lets -merge +onlyGivenNames x2
  extract_lets -merge +onlyGivenNames x3
  extract_lets -merge +onlyGivenNames x4
  refine Keeps.of_let x4 ?_ (fun h4 => ?_)
  · unfold x4
    refine Keeps.foldl _ (fun _ _ => ?_) ?_
    · split
      extract_lets -merge +onlyGivenNames x5
      extract_lets -merge +onlyGivenNames x6
      refine Keeps.of_let x6 ?_ (fun h6 => ?_)
      · unfold x6
        refine Keeps.after (State.setBench_keeps _ _) (by decide) ?_
        exact Keeps.refl _ _
      · refine Keeps.after (State.lose_keeps _ _ _ _) (by decide) ?_
        exact h6
    · exact Keeps.refl _ _
  · refine Keeps.after (State.setBench_keeps _ _) (by decide) ?_
    exact h4

theorem State.replayStep_keeps (s : State) :
    Keeps [.regs, .evt, .nv, .evr, .psq, .chans, .med, .bench, .xlt, .twin, .cxl, .out] s (State.replayStep s) := by
  unfold State.replayStep
  extract_lets -merge +onlyGivenNames x1
  extract_lets -merge +onlyGivenNames x2
  extract_lets -merge +onlyGivenNames x3
  refine Keeps.of_let x3 ?_ (fun h3 => ?_)
  · unfold x3
    split
    · refine Keeps.foldl _ (fun _ _ => ?_) ?_
      · refine Keeps.after (State.replayLost_keeps _ _) (by decide) ?_
        exact Keeps.refl _ _
      · exact Keeps.refl _ _
    · exact Keeps.refl _ _
  · split
    · exact h3
    · refine Keeps.ite (fun _ => ?_) (fun _ => ?_)
      · exact h3
      · refine Keeps.ite (fun _ => ?_) (fun _ => ?_)
        · refine Keeps.after (State.replayInstall_keeps _ _) (by decide) ?_
          exact h3
        · refine Keeps.ite (fun _ => ?_) (fun _ => ?_)
          · refine Keeps.after (State.drainIncomplete_keeps _ _) (by decide) ?_
            exact h3
          · refine Keeps.after (State.replayData_keeps _) (by decide) ?_
            exact h3

theorem State.replayEnd_keeps (s : State) :
    Keeps [.regs, .evt, .nv, .evr, .psq, .chans, .bench, .xlt, .twin, .cxl, .out] s (State.replayEnd s) := by
  unfold State.replayEnd
  extract_lets -merge +onlyGivenNames x1
  refine Keeps.ite (fun _ => ?_) (fun _ => ?_)
  · refine Keeps.after (State.tryOpen_keeps _) (by decide) ?_
    refine Keeps.after (State.cause_keeps _ _ _ _ _) (by decide) ?_
    refine Keeps.after (State.setDesc_keeps _ _ _) (by decide) ?_
    exact Keeps.refl _ _
  · exact Keeps.refl _ _

theorem State.replayRun_keeps (s : State) (a1 : Nat) :
    Keeps [.regs, .evt, .nv, .evr, .psq, .chans, .med, .bench, .xlt, .twin, .cxl, .sec, .out, .fresh] s (State.replayRun s a1) := by
  induction a1 generalizing s
  · unfold State.replayRun
    exact Keeps.refl _ _
  · rename_i x ih
    unfold State.replayRun
    split
    · refine Keeps.after (State.replayEnd_keeps _) (by decide) ?_
      exact Keeps.refl _ _
    · split
      · extract_lets -merge +onlyGivenNames x1
        extract_lets -merge +onlyGivenNames x2
        refine Keeps.of_let x2 ?_ (fun h2 => ?_)
        · unfold x2
          refine Keeps.ite (fun _ => ?_) (fun _ => ?_)
          · refine Keeps.set_sec (by decide) rfl ?_
            refine Keeps.of_fst (by assumption) ?_
            refine Keeps.after (State.placeLine_keeps _ _ _ _ _) (by decide) ?_
            exact Keeps.refl _ _
          · refine Keeps.of_fst (by assumption) ?_
            refine Keeps.after (State.placeLine_keeps _ _ _ _ _) (by decide) ?_
            exact Keeps.refl _ _
        · refine Keeps.trans ?_ (ih _)
          refine Keeps.after (State.setBench_keeps _ _) (by decide) ?_
          exact h2
      · refine Keeps.of_fst (by assumption) ?_
        refine Keeps.after (State.placeLine_keeps _ _ _ _ _) (by decide) ?_
        exact Keeps.refl _ _

theorem State.replayKick_keeps (s : State) :
    Keeps [.regs, .evt, .nv, .evr, .psq, .chans, .med, .bench, .xlt, .twin, .cxl, .sec, .out, .fresh] s (State.replayKick s) := by
  unfold State.replayKick
  extract_lets -merge +onlyGivenNames x1
  refine Keeps.of_let x1 ?_ (fun h1 => ?_)
  · unfold x1
    refine Keeps.after (State.replayStep_keeps _) (by decide) ?_
    refine Keeps.after (State.replayStep_keeps _) (by decide) ?_
    exact Keeps.refl _ _
  · refine Keeps.after (State.replayRun_keeps _ _) (by decide) ?_
    exact h1

theorem State.flushKick_keeps (s : State) :
    Keeps [.regs, .evt, .evr, .chans, .med, .bench, .xlt, .cxl, .sec, .out, .fresh] s (State.flushKick s) := by
  unfold State.flushKick
  split
  · refine Keeps.ite (fun _ => ?_) (fun _ => ?_)
    · extract_lets -merge +onlyGivenNames x1
      refine Keeps.of_let x1 ?_ (fun h1 => ?_)
      · unfold x1
        refine Keeps.foldl _ (fun _ _ => ?_) ?_
        · refine Keeps.after (State.scbClose_keeps _ _) (by decide) ?_
          exact Keeps.refl _ _
        · exact Keeps.refl _ _
      · refine Keeps.foldl _ (fun _ _ => ?_) ?_
        · refine Keeps.after (State.writeBack_keeps _ _) (by decide) ?_
          exact Keeps.refl _ _
        · exact h1
    · exact Keeps.refl _ _
  · exact Keeps.refl _ _

/-! ### YarrowOps -/

theorem State.judgeShort_keeps (s : State) :
    Keeps [.regs, .evt, .evr, .chans, .med, .cxl, .out] s (State.judgeShort s) := by
  unfold State.judgeShort
  extract_lets -merge +onlyGivenNames x1
  extract_lets -merge +onlyGivenNames x2
  refine Keeps.after (State.judgeYrw_keeps _) (by decide) ?_
  refine Keeps.ite (fun _ => ?_) (fun _ => ?_)
  · exact Keeps.refl _ _
  · refine Keeps.after (State.setYrw_keeps _ _) (by decide) ?_
    exact Keeps.refl _ _

theorem State.spareNow_keeps (s : State) :
    Keeps [.regs, .evt, .evr, .chans, .med, .xlt, .twin, .cxl, .out] s (State.spareNow s) := by
  unfold State.spareNow
  extract_lets -merge +onlyGivenNames x1
  extract_lets -merge +onlyGivenNames x2
  extract_lets -merge +onlyGivenNames x3
  extract_lets -merge +onlyGivenNames x4
  extract_lets -merge +onlyGivenNames x5
  extract_lets -merge +onlyGivenNames x6
  refine Keeps.of_let x6 ?_ (fun h6 => ?_)
  · unfold x6
    refine Keeps.after (State.setYrw_keeps _ _) (by decide) ?_
    exact Keeps.refl _ _
  · extract_lets -merge +onlyGivenNames x7
    refine Keeps.of_let x7 ?_ (fun h7 => ?_)
    · unfold x7
      refine Keeps.ite (fun _ => ?_) (fun _ => ?_)
      · refine Keeps.after (State.tsend_keeps _ _ _) (by decide) ?_
        exact h6
      · exact h6
    · refine Keeps.after (State.noteHealth_keeps _) (by decide) ?_
      refine Keeps.after (State.judgeRed_keeps _) (by decide) ?_
      refine Keeps.after (State.judgeShort_keeps _) (by decide) ?_
      exact h7

theorem State.retireZones_keeps (s : State) :
    Keeps [.regs, .evt, .evr, .chans, .med, .xlt, .cxl, .out] s (State.retireZones s) := by
  unfold State.retireZones
  refine Keeps.foldl _ (fun _ _ => ?_) ?_
  · extract_lets -merge +onlyGivenNames x1
    extract_lets -merge +onlyGivenNames x2
    refine Keeps.ite (fun _ => ?_) (fun _ => ?_)
    · exact Keeps.refl _ _
    · refine Keeps.ite (fun _ => ?_) (fun _ => ?_)
      · extract_lets -merge +onlyGivenNames x3
        refine Keeps.foldl _ (fun _ _ => ?_) ?_
        · refine Keeps.after (State.queueWork_keeps _ _ _) (by decide) ?_
          exact Keeps.refl _ _
        · exact Keeps.refl _ _
      · refine Keeps.after (State.journal_keeps _ _) (by decide) ?_
        refine Keeps.after (State.setZone_keeps _ _ _ _) (by decide) ?_
        exact Keeps.refl _ _
  · exact Keeps.refl _ _

theorem State.foldLog_keeps (s : State) (d : Nat) :
    Keeps [.regs, .evt, .nv, .evr, .chans, .med, .xlt, .cxl, .out] s (State.foldLog s d) := by
  unfold State.foldLog
  extract_lets -merge +onlyGivenNames x1
  split
  · exact Keeps.refl _ _
  · refine Keeps.ite (fun _ => ?_) (fun _ => ?_)
    · exact Keeps.refl _ _
    · extract_lets -merge +onlyGivenNames x2
      refine Keeps.ite (fun _ => ?_) (fun _ => ?_)
      · refine Keeps.after (State.journal_keeps _ _) (by decide) ?_
        refine Keeps.after (State.setLog_keeps _ _ _) (by decide) ?_
        refine Keeps.after (State.setDie_keeps _ _ _) (by decide) ?_
        exact Keeps.refl _ _
      · refine Keeps.foldl _ (fun _ _ => ?_) ?_
        · refine Keeps.after (State.queueWork_keeps _ _ _) (by decide) ?_
          exact Keeps.refl _ _
        · exact Keeps.refl _ _

theorem State.unqueue_keeps (s : State) (w : Work) :
    Keeps [.med] s (State.unqueue s w) := by
  unfold State.unqueue
  refine Keeps.after (State.setYrw_keeps _ _) (by decide) ?_
  exact Keeps.refl _ _

theorem State.workCause_keeps (s : State) (k : WorkKind) :
    Keeps [.regs, .evt, .evr, .chans, .cxl, .out] s (State.workCause s k) := by
  unfold State.workCause
  split
  · refine Keeps.after (State.cause_keeps _ _ _ _ _) (by decide) ?_
    exact Keeps.refl _ _
  · refine Keeps.after (State.cause_keeps _ _ _ _ _) (by decide) ?_
    exact Keeps.refl _ _
  · refine Keeps.after (State.cause_keeps _ _ _ _ _) (by decide) ?_
    exact Keeps.refl _ _
  · exact Keeps.refl _ _

theorem State.displace_keeps (s : State) (n : Nat) :
    Keeps [.regs, .evt, .evr, .chans, .med, .bench, .xlt, .twin, .cxl, .sec, .out, .fresh] s (State.displace s n) := by
  unfold State.displace
  extract_lets -merge +onlyGivenNames x1
  refine Keeps.of_let x1 ?_ (fun h1 => ?_)
  · unfold x1
    refine Keeps.after (State.moveRequeue_keeps _ _ _) (by decide) ?_
    exact Keeps.refl _ _
  · split
    · refine Keeps.after (State.wantPromote_keeps _ _ _) (by decide) ?_
      refine Keeps.after (State.endPromotion_keeps _ _) (by decide) ?_
      exact h1
    · refine Keeps.after (State.endPromotion_keeps _ _) (by decide) ?_
      exact h1
    · exact h1

theorem State.workBegin_keeps (s : State) (w : Work) (dest : Option Phys) (m : Mode) :
    Keeps [.regs, .evt, .evr, .chans, .med, .bench, .xlt, .twin, .cxl, .sec, .out, .fresh] s (State.workBegin s w dest m) := by
  unfold State.workBegin
  extract_lets -merge +onlyGivenNames x1
  extract_lets -merge +onlyGivenNames x2
  refine Keeps.of_let x2 ?_ (fun h2 => ?_)
  · unfold x2
    refine Keeps.after (State.workCause_keeps _ _) (by decide) ?_
    refine Keeps.after (State.unqueue_keeps _ _) (by decide) ?_
    exact Keeps.refl _ _
  · extract_lets -merge +onlyGivenNames x3
    refine Keeps.of_let x3 ?_ (fun h3 => ?_)
    · unfold x3
      split
      · refine Keeps.after (State.journal_keeps _ _) (by decide) ?_
        refine Keeps.after (State.displace_keeps _ _) (by decide) ?_
        exact h2
      · exact h2
    · extract_lets -merge +onlyGivenNames x4
      refine Keeps.of_let x4 ?_ (fun h4 => ?_)
      · unfold x4
        refine Keeps.after (State.moveStart_keeps _ _ _ _ _) (by decide) ?_
        exact h3
      · extract_lets -merge +onlyGivenNames x5
        extract_lets -merge +onlyGivenNames x6
        refine Keeps.of_let x6 ?_ (fun h6 => ?_)
        · unfold x6
          split
          · refine Keeps.ite (fun _ => ?_) (fun _ => ?_)
            · refine Keeps.after (State.setMove_keeps _ _) (by decide) ?_
              exact h4
            · exact h4
          · exact h4
        · refine Keeps.ite (fun _ => ?_) (fun _ => ?_)
          · split
            · refine Keeps.after (State.assistAsk_keeps _ _ _ _ _) (by decide) ?_
              exact h6
            · exact h6
          · exact h6

theorem State.startWork_keeps (s : State) (w : Work) :
    KeepsO [.regs, .evt, .evr, .chans, .med, .bench, .xlt, .twin, .cxl, .sec, .out, .fresh] s (State.startWork s w) := by
  unfold State.startWork
  extract_lets -merge +onlyGivenNames x1
  extract_lets -merge +onlyGivenNames x2
  extract_lets -merge +onlyGivenNames x3
  extract_lets -merge +onlyGivenNames x4
  split
  · exact KeepsO.none
  · refine KeepsO.ite (fun _ => ?_) (fun _ => ?_)
    · exact KeepsO.none
    · refine KeepsO.ite (fun _ => ?_) (fun _ => ?_)
      · exact KeepsO.none
      · refine KeepsO.map (fun _ => ?_)
        refine Keeps.after (State.workBegin_keeps _ _ _ _) (by decide) ?_
        exact Keeps.refl _ _

theorem State.dropSatisfied_keeps (s : State) :
    Keeps [.med] s (State.dropSatisfied s) := by
  unfold State.dropSatisfied
  refine Keeps.after (State.setYrw_keeps _ _) (by decide) ?_
  exact Keeps.refl _ _

theorem State.dispatchWork_keeps (s : State) :
    Keeps [.regs, .evt, .evr, .chans, .med, .bench, .xlt, .twin, .cxl, .sec, .out, .fresh] s (State.dispatchWork s) := by
  unfold State.dispatchWork
  extract_lets -merge +onlyGivenNames x1
  refine Keeps.of_let x1 ?_ (fun h1 => ?_)
  · unfold x1
    refine Keeps.after (State.dropSatisfied_keeps _) (by decide) ?_
    exact Keeps.refl _ _
  · refine Keeps.after (State.judgeShort_keeps _) (by decide) ?_
    refine Keeps.getD ?_ ?_
    · refine KeepsO.findSome (fun _ => ?_)
      refine KeepsO.after (State.startWork_keeps _ _) (by decide) ?_
      exact h1
    · exact h1

theorem State.convCheck_keeps (s : State) (n : Nat) :
    Keeps [.regs, .evt, .evr, .chans, .xlt, .cxl, .out] s (State.convCheck s n) := by
  unfold State.convCheck
  split
  · exact Keeps.refl _ _
  · split
    · exact Keeps.refl _ _
    · extract_lets -merge +onlyGivenNames x1
      refine Keeps.ite (fun _ => ?_) (fun _ => ?_)
      · refine Keeps.after (State.cause_keeps _ _ _ _ _) (by decide) ?_
        refine Keeps.after (State.journal_keeps _ _) (by decide) ?_
        refine Keeps.after (State.setRegion_keeps _ _ _) (by decide) ?_
        exact Keeps.refl _ _
      · exact Keeps.refl _ _

theorem State.commitWork_keeps (s : State) (n : Nat) :
    Keeps [.regs, .evt, .sched, .nv, .evr, .chans, .med, .bench, .xlt, .twin, .cxl, .rdma, .sec, .out, .fresh] s (State.commitWork s n) := by
  unfold State.commitWork
  split
  · exact Keeps.refl _ _
  · refine Keeps.ite (fun _ => ?_) (fun _ => ?_)
    · exact Keeps.refl _ _
    · extract_lets -merge +onlyGivenNames x1
      extract_lets -merge +onlyGivenNames x2
      extract_lets -merge +onlyGivenNames x3
      refine Keeps.of_let x3 ?_ (fun h3 => ?_)
      · unfold x3
        refine Keeps.ite (fun _ => ?_) (fun _ => ?_)
        · refine Keeps.after (State.unqueue_keeps _ _) (by decide) ?_
          refine Keeps.after (State.setMove_keeps _ _) (by decide) ?_
          exact Keeps.refl _ _
        · exact Keeps.refl _ _
      · extract_lets -merge +onlyGivenNames x4
        refine Keeps.of_let x4 ?_ (fun h4 => ?_)
        · unfold x4
          refine Keeps.after (State.satisfyWork_keeps _ _) (by decide) ?_
          refine Keeps.after (State.setScb_keeps _ _ _) (by decide) ?_
          refine Keeps.after (State.moveCommit_keeps _ _) (by decide) ?_
          exact h3
        · extract_lets -merge +onlyGivenNames x5
          extract_lets -merge +onlyGivenNames x6
          extract_lets -merge +onlyGivenNames x7
          refine Keeps.of_let x7 ?_ (fun h7 => ?_)
          · unfold x7
            split
            · refine Keeps.after (State.bump_keeps _ _ _ _ _ _) (by decide) ?_
              refine Keeps.after (State.setYrw_keeps _ _) (by decide) ?_
              exact h4
            · refine Keeps.after (State.setMed_keeps _ _) (by decide) ?_
              exact h4
            · split
              · refine Keeps.after (State.targetSett_keeps _ _) (by decide) ?_
                exact h4
              · exact h4
            · exact h4
          · extract_lets -merge +onlyGivenNames x8
            refine Keeps.of_let x8 ?_ (fun h8 => ?_)
            · unfold x8
              refine Keeps.after (State.convCheck_keeps _ _) (by decide) ?_
              exact h7
            · extract_lets -merge +onlyGivenNames x9
              refine Keeps.of_let x9 ?_ (fun h9 => ?_)
              · unfold x9
                clear_value x1
                split
                · refine Keeps.after (State.foldLog_keeps _ _) (by decide) ?_
                  exact h8
                · exact h8
              · refine Keeps.after (State.settleMed_keeps _) (by decide) ?_
                refine Keeps.after (State.writeDeadline_keeps _) (by decide) ?_
                refine Keeps.after (State.judgeOccupancy_keeps _) (by decide) ?_
                refine Keeps.after (State.spareNow_keeps _) (by decide) ?_
                refine Keeps.after (State.retireZones_keeps _) (by decide) ?_
                exact h9

theorem State.queueWear_keeps (s : State) (n : Nat) (q : Phys) :
    Keeps [.med] s (State.queueWear s n q) := by
  unfold State.queueWear
  split
  · refine Keeps.ite (fun _ => ?_) (fun _ => ?_)
    · exact Keeps.refl _ _
    · refine Keeps.after (State.queueWork_keeps _ _ _) (by decide) ?_
      exact Keeps.refl _ _
  · exact Keeps.refl _ _

theorem State.wearScan_keeps (s : State) (d : Nat) :
    Keeps [.med] s (State.wearScan s d) := by
  unfold State.wearScan
  extract_lets -merge +onlyGivenNames x1
  refine Keeps.of_let x1 ?_ (fun h1 => ?_)
  · unfold x1
    refine Keeps.foldl _ (fun _ _ => ?_) ?_
    · refine Keeps.ite (fun _ => ?_) (fun _ => ?_)
      · split
        · refine Keeps.after (State.queueWear_keeps _ _ _) (by decide) ?_
          exact Keeps.refl _ _
        · exact Keeps.refl _ _
      · exact Keeps.refl _ _
    · exact Keeps.refl _ _
  · split
    · exact h1
    · refine Keeps.ite (fun _ => ?_) (fun _ => ?_)
      · exact h1
      · split
        · refine Keeps.after (State.queueWear_keeps _ _ _) (by decide) ?_
          exact h1
        · exact h1

theorem State.balanceScan_keeps (s : State) (n : Nat) :
    Keeps [.med] s (State.balanceScan s n) := by
  unfold State.balanceScan
  extract_lets -merge +onlyGivenNames x1
  extract_lets -merge +onlyGivenNames x2
  refine Keeps.ite (fun _ => ?_) (fun _ => ?_)
  · exact Keeps.refl _ _
  · refine Keeps.foldl _ (fun _ _ => ?_) ?_
    · extract_lets -merge +onlyGivenNames x3
      refine Keeps.ite (fun _ => ?_) (fun _ => ?_)
      · exact Keeps.refl _ _
      · extract_lets -merge +onlyGivenNames x4
        clear_value x4
        split
        · exact Keeps.refl _ _
        · split
          · refine Keeps.after (State.queueWear_keeps _ _ _) (by decide) ?_
            exact Keeps.refl _ _
          · exact Keeps.refl _ _
    · exact Keeps.refl _ _

end Sys2Proof.Machine
end

