-- ==== Sys2Proof/Laws/Frame4.lean ====
section
/-! SUPPORT. What each operation and command of QmiOps, Teasel, TierOps, RdmaOps, Rdma, Cxl, Twin can change: every other part of the state stays. -/

namespace Sys2Proof.Machine

/-! ### QmiOps -/

theorem State.setLoaded_keeps (s : State) (d : Nat) :
    Keeps [.regs, .evt, .evr, .psq, .chans, .med, .bench, .xlt, .twin, .cxl, .rdma, .sec, .out, .fresh] s (State.setLoaded s d) := by
  unfold State.setLoaded
  extract_lets -merge +onlyGivenNames x1
  refine Keeps.ite (fun _ => ?_) (fun _ => ?_)
  · extract_lets -merge +onlyGivenNames x2
    refine Keeps.of_let x2 ?_ (fun h2 => ?_)
    · unfold x2
      refine Keeps.after (State.setDie_keeps _ _ _) (by decide) ?_
      exact Keeps.refl _ _
    · refine Keeps.ite (fun _ => ?_) (fun _ => ?_)
      · refine Keeps.after (State.tryOpen_keeps _) (by decide) ?_
        refine Keeps.after (State.pump_keeps _ _) (by decide) ?_
        refine Keeps.after (State.redrive_keeps _ _) (by decide) ?_
        exact h2
      · exact h2
  · refine Keeps.after (State.setDie_keeps _ _ _) (by decide) ?_
    exact Keeps.refl _ _

theorem State.rawAnswer_keeps (s : State) (n : Nat) (c : QmiCmd) (dec : Option Decoded) :
    Keeps [.xlt, .out] s (State.rawAnswer s n c dec) := by
  unfold State.rawAnswer
  extract_lets -merge +onlyGivenNames x1
  split
  · exact Keeps.refl _ _
  · extract_lets -merge +onlyGivenNames x2
    extract_lets -merge +onlyGivenNames x3
    refine Keeps.of_let x3 ?_ (fun h3 => ?_)
    · unfold x3
      refine Keeps.after (State.setXlt_keeps _ _) (by decide) ?_
      exact Keeps.refl _ _
    · split
      · refine Keeps.after (State.emit_keeps _ _) (by decide) ?_
        exact h3
      · exact h3

theorem State.frameOut_keeps (s : State) (n : Nat) (c : QmiCmd) (dec : Option Decoded) :
    Keeps [.regs, .evt, .evr, .chans, .med, .bench, .xlt, .twin, .cxl, .rdma, .sec, .out, .fresh] s (State.frameOut s n c dec) := by
  unfold State.frameOut
  split
  · refine Keeps.after (State.marginSeen_keeps _ _ _ _) (by decide) ?_
    exact Keeps.refl _ _
  · refine Keeps.after (State.rawAnswer_keeps _ _ _ _) (by decide) ?_
    exact Keeps.refl _ _
  · refine Keeps.after (State.mapMargin_keeps _ _ _ _ _) (by decide) ?_
    exact Keeps.refl _ _
  · refine Keeps.after (State.mapFrame_keeps _ _ _ _ _ _) (by decide) ?_
    exact Keeps.refl _ _
  · refine Keeps.after (State.replayFrame_keeps _ _ _ _) (by decide) ?_
    exact Keeps.refl _ _
  · exact Keeps.refl _ _
  · exact Keeps.refl _ _
  · refine Keeps.after (State.takeFrame_keeps _ _ _ _ _) (by decide) ?_
    exact Keeps.refl _ _

theorem State.softOut_keeps (s : State) (n : Nat) (c : QmiCmd) (dec : Option Decoded) :
    Keeps [.regs, .evt, .evr, .chans, .med, .bench, .xlt, .twin, .cxl, .rdma, .sec, .out, .fresh] s (State.softOut s n c dec) := by
  unfold State.softOut
  split
  · refine Keeps.after (State.mapFrame_keeps _ _ _ _ _ _) (by decide) ?_
    exact Keeps.refl _ _
  · refine Keeps.after (State.replayFrame_keeps _ _ _ _) (by decide) ?_
    exact Keeps.refl _ _
  · refine Keeps.after (State.takeFrame_keeps _ _ _ _ _) (by decide) ?_
    exact Keeps.refl _ _

theorem State.reissue_keeps (s : State) (n : Nat) (c : QmiCmd) :
    Keeps [.med, .out] s (State.reissue s n c) := by
  unfold State.reissue
  refine Keeps.after (State.issue_keeps _ _ _) (by decide) ?_
  exact Keeps.refl _ _

theorem State.doneFor_keeps (s : State) (n : Nat) (c : QmiCmd) (i : DoneInfo) :
    Keeps [.regs, .evt, .nv, .evr, .psq, .chans, .med, .bench, .xlt, .twin, .cxl, .rdma, .sec, .out, .fresh] s (State.doneFor s n c i) := by
  unfold State.doneFor
  extract_lets -merge +onlyGivenNames x1
  extract_lets -merge +onlyGivenNames x2
  split
  · refine Keeps.after (State.drainLostDies_keeps _) (by decide) ?_
    refine Keeps.after (State.failDie_keeps _ _) (by decide) ?_
    refine Keeps.after (State.undo_keeps _ _ _) (by decide) ?_
    exact Keeps.refl _ _
  · refine Keeps.after (State.reissue_keeps _ _ _) (by decide) ?_
    exact Keeps.refl _ _
  · split
    · refine Keeps.after (State.drainDone_keeps _ _ _) (by decide) ?_
      exact Keeps.refl _ _
    · extract_lets -merge +onlyGivenNames x3
      refine Keeps.of_let x3 ?_ (fun h3 => ?_)
      · unfold x3
        refine Keeps.after (State.programVerified_keeps _ _ _ _) (by decide) ?_
        exact Keeps.refl _ _
      · refine Keeps.ite (fun _ => ?_) (fun _ => ?_)
        · refine Keeps.after (State.spareNow_keeps _) (by decide) ?_
          exact h3
        · exact h3
    · refine Keeps.after (State.programVerified_keeps _ _ _ _) (by decide) ?_
      exact Keeps.refl _ _
  · split
    · refine Keeps.after (State.drainDone_keeps _ _ _) (by decide) ?_
      exact Keeps.refl _ _
    · refine Keeps.after (State.programFailed_keeps _ _ _) (by decide) ?_
      exact Keeps.refl _ _
  · split
    · refine Keeps.after (State.drainDone_keeps _ _ _) (by decide) ?_
      exact Keeps.refl _ _
    · refine Keeps.after (State.undo_keeps _ _ _) (by decide) ?_
      exact Keeps.refl _ _
  · refine Keeps.after (State.setLoaded_keeps _ _) (by decide) ?_
    exact Keeps.refl _ _
  · refine Keeps.after (State.reissue_keeps _ _ _) (by decide) ?_
    exact Keeps.refl _ _
  · refine Keeps.after (State.loadSets_keeps _ _) (by decide) ?_
    refine Keeps.after (State.setDie_keeps _ _ _) (by decide) ?_
    exact Keeps.refl _ _
  · exact Keeps.refl _ _

theorem State.answered_keeps {w : List Part} {s : State} {n : Nat} {seq : BitVec 8} {tag : BitVec 10} {words : Nat} {ops : QmiOp → Bool}
    {k : QmiCmd → State → State} (hw : [Part.regs, .evt, .sched, .nv, .evr, .psq, .chans, .med, .bench, .xlt, .twin, .cxl, .rdma, .sec, .out, .fresh] ⊆ w)
    (hk : ∀ c u, Keeps w u (k c u)) : Keeps w s (s.answered n seq tag words ops k) := by
  unfold State.answered
  dsimp only
  refine Keeps.ite (fun _ => Keeps.refl _ _) (fun _ => Keeps.ite (fun _ => (State.sendNak_keeps _ _).mono (List.Subset.trans (by decide) hw))
    (fun _ => ?_))
  split
  · exact (State.received_keeps _ _ _).mono (List.Subset.trans (by decide) hw)
  · refine Keeps.after (State.drainLostDies_keeps _) (List.Subset.trans (by decide) hw) ?_
    refine Keeps.after (State.flushKick_keeps _) (List.Subset.trans (by decide) hw) ?_
    refine Keeps.after (State.replayKick_keeps _) (List.Subset.trans (by decide) hw) ?_
    refine Keeps.after (State.settleMed_keeps _) (List.Subset.trans (by decide) hw) ?_
    refine Keeps.after (State.pump_keeps _ _) (List.Subset.trans (by decide) hw) ?_
    have h1 : ∀ v, Keeps w s ((s.setQc n v).received n seq) := fun v =>
      Keeps.after (State.received_keeps _ _ _) (List.Subset.trans (by decide) hw)
        ((State.setQc_keeps _ _ _).mono (List.Subset.trans (by decide) hw))
    refine Keeps.ite (fun _ => Keeps.after (State.setQc_keeps _ _ _) (List.Subset.trans (by decide) hw) ?_) (fun _ => ?_) <;>
      exact Keeps.ite (fun _ => h1 _) (fun _ => (h1 _).trans (hk _ _))

theorem State.channelLeaves_keeps (s : State) (n : Nat) :
    Keeps [.regs, .evt, .sched, .nv, .evr, .psq, .chans, .med, .bench, .xlt, .twin, .cxl, .rdma, .sec, .out, .fresh] s (State.channelLeaves s n) := by
  unfold State.channelLeaves
  refine Keeps.after (State.replayKick_keeps _) (by decide) ?_
  refine Keeps.after (State.settleMed_keeps _) (by decide) ?_
  refine Keeps.after (State.tryOpen_keeps _) (by decide) ?_
  refine Keeps.after (State.drainLostDies_keeps _) (by decide) ?_
  refine Keeps.after (State.judgeQg_keeps _ _) (by decide) ?_
  refine Keeps.after (State.judgeQc_keeps _ _) (by decide) ?_
  refine Keeps.after (State.judgeBench_keeps _) (by decide) ?_
  refine Keeps.after (State.divert_keeps _ _) (by decide) ?_
  exact Keeps.refl _ _

theorem State.enterRecovery_keeps (s : State) (n : Nat) (full : Bool) (soft : Bool) :
    Keeps [.regs, .evt, .sched, .nv, .evr, .psq, .chans, .med, .bench, .xlt, .twin, .cxl, .rdma, .sec, .out, .fresh] s (State.enterRecovery s n full soft) := by
  unfold State.enterRecovery
  refine Keeps.after (State.channelLeaves_keeps _ _) (by decide) ?_
  refine Keeps.after (State.startRecovery_keeps _ _ _ _) (by decide) ?_
  exact Keeps.refl _ _

theorem State.channelBack_keeps (s : State) (n : Nat) :
    Keeps [.regs, .evt, .sched, .nv, .evr, .psq, .chans, .med, .bench, .xlt, .twin, .cxl, .rdma, .sec, .out, .fresh] s (State.channelBack s n) := by
  unfold State.channelBack
  refine Keeps.after (State.settleMed_keeps _) (by decide) ?_
  refine Keeps.after (State.tryOpen_keeps _) (by decide) ?_
  refine Keeps.after (State.judgeQg_keeps _ _) (by decide) ?_
  refine Keeps.after (State.judgeQc_keeps _ _) (by decide) ?_
  refine Keeps.after (State.judgeBench_keeps _) (by decide) ?_
  refine Keeps.after (State.pump_keeps _ _) (by decide) ?_
  exact Keeps.refl _ _

theorem State.channelDown_keeps (s : State) (n : Nat) :
    Keeps [.regs, .evt, .sched, .nv, .evr, .psq, .chans, .med, .bench, .xlt, .twin, .cxl, .rdma, .sec, .out, .fresh] s (State.channelDown s n) := by
  unfold State.channelDown
  extract_lets -merge +onlyGivenNames x1
  extract_lets -merge +onlyGivenNames x2
  refine Keeps.of_let x2 ?_ (fun h2 => ?_)
  · unfold x2
    refine Keeps.after (State.setQc_keeps _ _ _) (by decide) ?_
    exact Keeps.refl _ _
  · refine Keeps.after (State.channelLeaves_keeps _ _) (by decide) ?_
    refine Keeps.foldl _ (fun _ _ => ?_) ?_
    · refine Keeps.after (State.failDie_keeps _ _) (by decide) ?_
      exact Keeps.refl _ _
    · exact h2

theorem State.askLogs_keeps (s : State) (n : Nat) (ident : Bool) :
    Keeps [.med, .out] s (State.askLogs s n ident) := by
  unfold State.askLogs
  extract_lets -merge +onlyGivenNames x1
  extract_lets -merge +onlyGivenNames x2
  refine Keeps.of_let x2 ?_ (fun h2 => ?_)
  · unfold x2
    refine Keeps.after (State.setQc_keeps _ _ _) (by decide) ?_
    exact Keeps.refl _ _
  · refine Keeps.foldl _ (fun _ _ => ?_) ?_
    · refine Keeps.ite (fun _ => ?_) (fun _ => ?_)
      · exact Keeps.refl _ _
      · extract_lets -merge +onlyGivenNames x3
        refine Keeps.of_let x3 ?_ (fun h3 => ?_)
        · unfold x3
          refine Keeps.ite (fun _ => ?_) (fun _ => ?_)
          · refine Keeps.after (State.issue_keeps _ _ _) (by decide) ?_
            exact Keeps.refl _ _
          · exact Keeps.refl _ _
        · refine Keeps.after (State.issue_keeps _ _ _) (by decide) ?_
          exact h3
    · exact h2

theorem State.errorFor_keeps (s : State) (n : Nat) (c : QmiCmd) (i : DoneInfo) :
    Keeps [.regs, .evt, .nv, .evr, .psq, .chans, .med, .bench, .xlt, .twin, .cxl, .rdma, .sec, .out, .fresh] s (State.errorFor s n c i) := by
  unfold State.errorFor
  refine Keeps.ite (fun _ => ?_) (fun _ => ?_)
  · refine Keeps.after (State.reissue_keeps _ _ _) (by decide) ?_
    refine Keeps.ite (fun _ => ?_) (fun _ => ?_)
    · refine Keeps.after (State.loadSets_keeps _ _) (by decide) ?_
      exact Keeps.refl _ _
    · exact Keeps.refl _ _
  · refine Keeps.after (State.doneFor_keeps _ _ _ _) (by decide) ?_
    exact Keeps.refl _ _

theorem State.takeLog_keeps (s : State) (n : Nat) (die : Fin 16) (es : List LogEntry) :
    Keeps [.regs, .evt, .nv, .evr, .psq, .chans, .med, .bench, .xlt, .twin, .cxl, .rdma, .sec, .out, .fresh] s (State.takeLog s n die es) := by
  unfold State.takeLog
  extract_lets -merge +onlyGivenNames x1
  extract_lets -merge +onlyGivenNames x2
  extract_lets -merge +onlyGivenNames x3
  refine Keeps.of_let x3 ?_ (fun h3 => ?_)
  · unfold x3
    refine Keeps.after (State.setQc_keeps _ _ _) (by decide) ?_
    exact Keeps.refl _ _
  · refine Keeps.foldl _ (fun _ _ => ?_) ?_
    · split
      · refine Keeps.ite (fun _ => ?_) (fun _ => ?_)
        · refine Keeps.after (State.reissue_keeps _ _ _) (by decide) ?_
          exact Keeps.refl _ _
        · refine Keeps.after (State.errorFor_keeps _ _ _ _) (by decide) ?_
          exact Keeps.refl _ _
      · refine Keeps.after (State.reissue_keeps _ _ _) (by decide) ?_
        exact Keeps.refl _ _
    · exact h3

theorem State.inventoryFails_keeps (s : State) (n : Nat) (pkg : Bool) (check : Nat) :
    Keeps [.regs, .evt, .evr, .psq, .chans, .med, .bench, .xlt, .twin, .cxl, .rdma, .sec, .out, .fresh] s (State.inventoryFails s n pkg check) := by
  unfold State.inventoryFails
  extract_lets -merge +onlyGivenNames x1
  extract_lets -merge +onlyGivenNames x2
  extract_lets -merge +onlyGivenNames x3
  refine Keeps.of_let x3 ?_ (fun h3 => ?_)
  · unfold x3
    refine Keeps.after (State.setQg_keeps _ _ _) (by decide) ?_
    exact Keeps.refl _ _
  · extract_lets -merge +onlyGivenNames x4
    refine Keeps.of_let x4 ?_ (fun h4 => ?_)
    · unfold x4
      refine Keeps.foldl _ (fun _ _ => ?_) ?_
      · refine Keeps.after (State.setQc_keeps _ _ _) (by decide) ?_
        exact Keeps.refl _ _
      · exact h3
    · refine Keeps.after (State.tryOpen_keeps _) (by decide) ?_
      refine Keeps.after (State.drainLostDies_keeps _) (by decide) ?_
      refine Keeps.after (State.judgeQg_keeps _ _) (by decide) ?_
      refine Keeps.after (State.judgeBench_keeps _) (by decide) ?_
      refine Keeps.after (State.divert_keeps _ _) (by decide) ?_
      exact h4

theorem State.dieIdentified_keeps (s : State) (d : Nat) (ok : Bool) :
    Keeps [.regs, .evt, .nv, .evr, .chans, .med, .bench, .xlt, .twin, .cxl, .rdma, .sec, .out, .fresh] s (State.dieIdentified s d ok) := by
  unfold State.dieIdentified
  refine Keeps.ite (fun _ => ?_) (fun _ => ?_)
  · refine Keeps.after (State.failDie_keeps _ _) (by decide) ?_
    refine Keeps.after (State.setDie_keeps _ _ _) (by decide) ?_
    exact Keeps.refl _ _
  · extract_lets -merge +onlyGivenNames x1
    extract_lets -merge +onlyGivenNames x2
    extract_lets -merge +onlyGivenNames x3
    refine Keeps.of_let x3 ?_ (fun h3 => ?_)
    · unfold x3
      refine Keeps.after (State.setDie_keeps _ _ _) (by decide) ?_
      exact Keeps.refl _ _
    · extract_lets -merge +onlyGivenNames x4
      refine Keeps.of_let x4 ?_ (fun h4 => ?_)
      · unfold x4
        refine Keeps.ite (fun _ => ?_) (fun _ => ?_)
        · exact h3
        · refine Keeps.foldl _ (fun _ _ => ?_) ?_
          · refine Keeps.after (State.journal_keeps _ _) (by decide) ?_
            refine Keeps.after (State.setZone_keeps _ _ _ _) (by decide) ?_
            exact Keeps.refl _ _
          · exact h3
      · extract_lets -merge +onlyGivenNames x5
        extract_lets -merge +onlyGivenNames x6
        refine Keeps.of_let x6 ?_ (fun h6 => ?_)
        · unfold x6
          refine Keeps.foldl _ (fun _ _ => ?_) ?_
          · refine Keeps.after (State.moveAbandon_keeps _ _ _) (by decide) ?_
            exact Keeps.refl _ _
          · exact h4
        · refine Keeps.after (State.judgeTsl_keeps _) (by decide) ?_
          refine Keeps.after (State.setMed_keeps _ _) (by decide) ?_
          exact h6

theorem State.packageTemp_keeps (s : State) (n : Nat) (pkg : Bool) (t : ℤ) :
    Keeps [.med, .out] s (State.packageTemp s n pkg t) := by
  unfold State.packageTemp
  refine Keeps.foldl _ (fun _ _ => ?_) ?_
  · extract_lets -merge +onlyGivenNames x1
    extract_lets -merge +onlyGivenNames x2
    refine Keeps.ite (fun _ => ?_) (fun _ => ?_)
    · exact Keeps.refl _ _
    · refine Keeps.after (State.loadSets_keeps _ _) (by decide) ?_
      refine Keeps.after (State.setDie_keeps _ _ _) (by decide) ?_
      exact Keeps.refl _ _
  · exact Keeps.refl _ _

/-! ### Teasel -/

theorem State.blankOne_keeps (s : State) (d : Nat) (m : Mode) :
    Keeps [.med, .out] s (State.blankOne s d m) := by
  unfold State.blankOne
  extract_lets -merge +onlyGivenNames x1
  split
  · exact Keeps.refl _ _
  · extract_lets -merge +onlyGivenNames x2
    extract_lets -merge +onlyGivenNames x3
    refine Keeps.of_let x3 ?_ (fun h3 => ?_)
    · unfold x3
      refine Keeps.after (State.setMed_keeps _ _) (by decide) ?_
      exact Keeps.refl _ _
    · refine Keeps.foldl _ (fun _ _ => ?_) ?_
      · refine Keeps.after (State.issue_keeps _ _ _) (by decide) ?_
        exact Keeps.refl _ _
      · exact h3

theorem State.passNow_keeps (s : State) (g : Nat) :
    Keeps [.regs, .evt, .evr, .chans, .med, .xlt, .cxl, .out] s (State.passNow s g) := by
  unfold State.passNow
  refine Keeps.ite (fun _ => ?_) (fun _ => ?_)
  · refine Keeps.after (State.startPass_keeps _ _) (by decide) ?_
    exact Keeps.refl _ _
  · exact Keeps.refl _ _

theorem State.endPass_keeps (s : State) (g : Nat) :
    Keeps [.regs, .evt, .evr, .chans, .med, .xlt, .cxl, .out] s (State.endPass s g) := by
  unfold State.endPass
  refine Keeps.after (State.judgeTsl_keeps _) (by decide) ?_
  refine Keeps.after (State.cause_keeps _ _ _ _ _) (by decide) ?_
  refine Keeps.after (State.journal_keeps _ _) (by decide) ?_
  refine Keeps.after (State.setPass_keeps _ _ _) (by decide) ?_
  exact Keeps.refl _ _

theorem State.useSentinel_keeps (s : State) (d : Nat) (c : Compare) (r : State.Ratio) (sweep : Bool) :
    Keeps [.regs, .evt, .nv, .evr, .chans, .med, .xlt, .cxl, .out] s (State.useSentinel s d c r sweep) := by
  unfold State.useSentinel
  extract_lets -merge +onlyGivenNames x1
  refine Keeps.of_let x1 ?_ (fun h1 => ?_)
  · unfold x1
    refine Keeps.after (State.logAppend_keeps _ _ _) (by decide) ?_
    exact Keeps.refl _ _
  · extract_lets -merge +onlyGivenNames x2
    extract_lets -merge +onlyGivenNames x3
    refine Keeps.of_let x3 ?_ (fun h3 => ?_)
    · unfold x3
      refine Keeps.after (State.journal_keeps _ _) (by decide) ?_
      refine Keeps.after (State.setDie_keeps _ _ _) (by decide) ?_
      exact h1
    · refine Keeps.ite (fun _ => ?_) (fun _ => ?_)
      · refine Keeps.after (State.startSweep_keeps _ _) (by decide) ?_
        exact h3
      · exact h3

theorem State.useScale_keeps (s : State) (d : Nat) (c : Compare) (r : State.Ratio) :
    Keeps [.regs, .evt, .nv, .evr, .chans, .med, .xlt, .cxl, .out] s (State.useScale s d c r) := by
  unfold State.useScale
  extract_lets -merge +onlyGivenNames x1
  refine Keeps.of_let x1 ?_ (fun h1 => ?_)
  · unfold x1
    refine Keeps.ite (fun _ => ?_) (fun _ => ?_)
    · exact Keeps.refl _ _
    · refine Keeps.after (State.journal_keeps _ _) (by decide) ?_
      refine Keeps.after (State.logAppend_keeps _ _ _) (by decide) ?_
      exact Keeps.refl _ _
  · refine Keeps.after (State.setDie_keeps _ _ _) (by decide) ?_
    exact h1

theorem State.toSentinel_keeps (s : State) (d : Nat) (delta : ℤ) :
    Keeps [.regs, .evt, .nv, .evr, .chans, .med, .xlt, .cxl, .out] s (State.toSentinel s d delta) := by
  unfold State.toSentinel
  extract_lets -merge +onlyGivenNames x1
  split
  · extract_lets -merge +onlyGivenNames x2
    refine Keeps.of_let x2 ?_ (fun h2 => ?_)
    · unfold x2
      refine Keeps.ite (fun _ => ?_) (fun _ => ?_)
      · exact Keeps.refl _ _
      · refine Keeps.after (State.journal_keeps _ _) (by decide) ?_
        refine Keeps.after (State.logAppend_keeps _ _ _) (by decide) ?_
        exact Keeps.refl _ _
    · refine Keeps.after (State.setDie_keeps _ _ _) (by decide) ?_
      exact h2
  · extract_lets -merge +onlyGivenNames x2
    extract_lets -merge +onlyGivenNames x3
    refine Keeps.after (State.journal_keeps _ _) (by decide) ?_
    refine Keeps.after (State.setLog_keeps _ _ _) (by decide) ?_
    refine Keeps.after (State.setDie_keeps _ _ _) (by decide) ?_
    exact Keeps.refl _ _

theorem State.powerupCompare_keeps (s : State) (g : Nat) (levels : Tab (List Sample)) :
    Keeps [.regs, .evt, .tally, .nv, .evr, .chans, .med, .xlt, .cxl, .out] s (State.powerupCompare s g levels) := by
  unfold State.powerupCompare
  extract_lets -merge +onlyGivenNames x1
  extract_lets -merge +onlyGivenNames x2
  extract_lets -merge +onlyGivenNames x3
  extract_lets -merge +onlyGivenNames x4
  extract_lets -merge +onlyGivenNames x5
  refine Keeps.of_let x5 ?_ (fun h5 => ?_)
  · unfold x5
    refine Keeps.foldl _ (fun _ _ => ?_) ?_
    · refine Keeps.after (State.setDie_keeps _ _ _) (by decide) ?_
      exact Keeps.refl _ _
    · refine Keeps.after (State.setMed_keeps _ _) (by decide) ?_
      exact Keeps.refl _ _
  · extract_lets -merge +onlyGivenNames x6
    extract_lets -merge +onlyGivenNames x7
    extract_lets -merge +onlyGivenNames x8
    extract_lets -merge +onlyGivenNames x9
    extract_lets -merge +onlyGivenNames x10
    refine Keeps.of_let x10 ?_ (fun h10 => ?_)
    · unfold x10
      refine Keeps.ite (fun _ => ?_) (fun _ => ?_)
      · refine Keeps.after (State.pulse_keeps _ _) (by decide) ?_
        refine Keeps.after (State.setTally_keeps _ _) (by decide) ?_
        exact h5
      · exact h5
    · extract_lets -merge +onlyGivenNames x11
      refine Keeps.of_let x11 ?_ (fun h11 => ?_)
      · unfold x11
        refine Keeps.foldl _ (fun _ _ => ?_) ?_
        · split
          refine Keeps.ite (fun _ => ?_) (fun _ => ?_)
          · refine Keeps.after (State.useSentinel_keeps _ _ _ _ _) (by decide) ?_
            exact Keeps.refl _ _
          · refine Keeps.ite (fun _ => ?_) (fun _ => ?_)
            · refine Keeps.after (State.setDie_keeps _ _ _) (by decide) ?_
              exact Keeps.refl _ _
            · refine Keeps.ite (fun _ => ?_) (fun _ => ?_)
              · refine Keeps.after (State.useSentinel_keeps _ _ _ _ _) (by decide) ?_
                exact Keeps.refl _ _
              · refine Keeps.after (State.useScale_keeps _ _ _ _) (by decide) ?_
                exact Keeps.refl _ _
        · exact h10
      · extract_lets -merge +onlyGivenNames x12
        extract_lets -merge +onlyGivenNames x13
        refine Keeps.of_let x13 ?_ (fun h13 => ?_)
        · unfold x13
          refine Keeps.foldl _ (fun _ _ => ?_) ?_
          · refine Keeps.after (State.toSentinel_keeps _ _ _) (by decide) ?_
            exact Keeps.refl _ _
          · exact h11
        · refine Keeps.after (State.judgeEyb_keeps _) (by decide) ?_
          refine Keeps.foldl _ (fun _ _ => ?_) ?_
          · refine Keeps.after (State.foldLog_keeps _ _) (by decide) ?_
            exact Keeps.refl _ _
          · exact h13

theorem State.recompare_keeps (s : State) (d : Nat) (delta : ℤ) :
    Keeps [.regs, .evt, .nv, .evr, .chans, .med, .xlt, .cxl, .out] s (State.recompare s d delta) := by
  unfold State.recompare
  extract_lets -merge +onlyGivenNames x1
  split
  · extract_lets -merge +onlyGivenNames x2
    refine Keeps.of_let x2 ?_ (fun h2 => ?_)
    · unfold x2
      refine Keeps.ite (fun _ => ?_) (fun _ => ?_)
      · exact Keeps.refl _ _
      · refine Keeps.after (State.journal_keeps _ _) (by decide) ?_
        refine Keeps.after (State.logAppend_keeps _ _ _) (by decide) ?_
        exact Keeps.refl _ _
    · refine Keeps.after (State.setDie_keeps _ _ _) (by decide) ?_
      exact h2
  · extract_lets -merge +onlyGivenNames x2
    extract_lets -merge +onlyGivenNames x3
    extract_lets -merge +onlyGivenNames x4
    extract_lets -merge +onlyGivenNames x5
    extract_lets -merge +onlyGivenNames x6
    extract_lets -merge +onlyGivenNames x7
    refine Keeps.after (State.judgeEyb_keeps _) (by decide) ?_
    refine Keeps.after (State.journal_keeps _ _) (by decide) ?_
    refine Keeps.after (State.setLog_keeps _ _ _) (by decide) ?_
    refine Keeps.after (State.setDie_keeps _ _ _) (by decide) ?_
    exact Keeps.refl _ _

theorem State.ageFollow_keeps (s : State) (old : State) :
    Keeps [.regs, .evt, .nv, .evr, .chans, .med, .xlt, .cxl, .out] s (State.ageFollow s old) := by
  unfold State.ageFollow
  extract_lets -merge +onlyGivenNames x1
  extract_lets -merge +onlyGivenNames x2
  extract_lets -merge +onlyGivenNames x3
  extract_lets -merge +onlyGivenNames x4
  extract_lets -merge +onlyGivenNames x5
  refine Keeps.ite (fun _ => ?_) (fun _ => ?_)
  · exact Keeps.refl _ _
  · refine Keeps.ite (fun _ => ?_) (fun _ => ?_)
    · refine Keeps.after (State.judgeEyb_keeps _) (by decide) ?_
      refine Keeps.foldl _ (fun _ _ => ?_) ?_
      · refine Keeps.after (State.toSentinel_keeps _ _ _) (by decide) ?_
        exact Keeps.refl _ _
      · exact Keeps.refl _ _
    · refine Keeps.ite (fun _ => ?_) (fun _ => ?_)
      · exact Keeps.refl _ _
      · refine Keeps.after (State.judgeEyb_keeps _) (by decide) ?_
        refine Keeps.foldl _ (fun _ _ => ?_) ?_
        · refine Keeps.after (State.recompare_keeps _ _ _) (by decide) ?_
          exact Keeps.refl _ _
        · exact Keeps.refl _ _

theorem State.calibrated_keeps (s : State) (d : Nat) (ss : List Sample) :
    Keeps [.regs, .evt, .evr, .flash, .chans, .med, .cxl, .out] s (State.calibrated s d ss) := by
  unfold State.calibrated
  extract_lets -merge +onlyGivenNames x1
  extract_lets -merge +onlyGivenNames x2
  refine Keeps.of_let x2 ?_ (fun h2 => ?_)
  · unfold x2
    split
    · refine Keeps.after (State.setDie_keeps _ _ _) (by decide) ?_
      exact Keeps.refl _ _
    · refine Keeps.after (State.setDie_keeps _ _ _) (by decide) ?_
      exact Keeps.refl _ _
  · refine Keeps.after (State.judgeEyb_keeps _) (by decide) ?_
    refine Keeps.after (State.loadSets_keeps _ _) (by decide) ?_
    refine Keeps.after (State.vaultPut_keeps _ _ _) (by decide) ?_
    exact h2

theorem State.rewriteAnchors_keeps (s : State) (g : Nat) :
    Keeps [.tally, .nv, .med] s (State.rewriteAnchors s g) := by
  unfold State.rewriteAnchors
  extract_lets -merge +onlyGivenNames x1
  refine Keeps.of_let x1 ?_ (fun h1 => ?_)
  · unfold x1
    refine Keeps.foldl _ (fun _ _ => ?_) ?_
    · refine Keeps.after (State.setDie_keeps _ _ _) (by decide) ?_
      exact Keeps.refl _ _
    · exact Keeps.refl _ _
  · extract_lets -merge +onlyGivenNames x2
    extract_lets -merge +onlyGivenNames x3
    refine Keeps.after (State.nvWrite_keeps _ _ _) (by decide) ?_
    refine Keeps.after (State.setTally_keeps _ _) (by decide) ?_
    exact h1

theorem State.stampPowered_keeps (s : State) (g : Nat) :
    Keeps [.tally, .nv] s (State.stampPowered s g) := by
  unfold State.stampPowered
  extract_lets -merge +onlyGivenNames x1
  extract_lets -merge +onlyGivenNames x2
  refine Keeps.after (State.nvWrite_keeps _ _ _) (by decide) ?_
  refine Keeps.after (State.setTally_keeps _ _) (by decide) ?_
  exact Keeps.refl _ _

theorem execTeaselBlanking_ends (d : Fin 2304) (s : State) :
    Ends [.regs, .evt, .evr, .chans, .med, .cxl, .out] s (execTeaselBlanking d s) := by
  unfold execTeaselBlanking
  refine Ends.next ?_
  refine Keeps.ite (fun _ => ?_) (fun _ => ?_)
  · refine Keeps.after (State.judgeTsl_keeps _) (by decide) ?_
    refine Keeps.after (State.judgeBlank_keeps _) (by decide) ?_
    refine Keeps.foldl _ (fun _ _ => ?_) ?_
    · refine Keeps.ite (fun _ => ?_) (fun _ => ?_)
      · refine Keeps.after (State.blankOne_keeps _ _ _) (by decide) ?_
        exact Keeps.refl _ _
      · exact Keeps.refl _ _
    · exact Keeps.refl _ _
  · exact Keeps.refl _ _

theorem execTeaselPassComplete_ends (g : Fin 9) (s : State) :
    Ends [.regs, .evt, .evr, .chans, .med, .xlt, .cxl, .out] s (execTeaselPassComplete g s) := by
  unfold execTeaselPassComplete
  refine Ends.next ?_
  refine Keeps.ite (fun _ => ?_) (fun _ => ?_)
  · refine Keeps.after (State.endPass_keeps _ _) (by decide) ?_
    exact Keeps.refl _ _
  · exact Keeps.refl _ _

theorem execTslPassNow_ends (s : State) :
    Ends [.regs, .evt, .sched, .nv, .evr, .chans, .med, .bench, .xlt, .twin, .cxl, .rdma, .sec, .out, .fresh] s (execTslPassNow s) := by
  unfold execTslPassNow
  refine Ends.next ?_
  refine Keeps.ite (fun _ => ?_) (fun _ => ?_)
  · refine Keeps.after (State.settleMed_keeps _) (by decide) ?_
    refine Keeps.foldl _ (fun _ _ => ?_) ?_
    · refine Keeps.after (State.passNow_keeps _ _) (by decide) ?_
      exact Keeps.refl _ _
    · exact Keeps.refl _ _
  · exact Keeps.refl _ _

theorem execEyebrightPowerupCompare_ends (g : Fin 9) (levels : List (Nat × List Sample)) (s : State) :
    Ends [.regs, .evt, .tally, .sched, .nv, .evr, .chans, .med, .bench, .xlt, .twin, .cxl, .rdma, .sec, .out, .fresh] s (execEyebrightPowerupCompare g levels s) := by
  unfold execEyebrightPowerupCompare
  extract_lets -merge +onlyGivenNames x1
  refine Ends.next ?_
  refine Keeps.ite (fun _ => ?_) (fun _ => ?_)
  · exact Keeps.refl _ _
  · refine Keeps.ite (fun _ => ?_) (fun _ => ?_)
    · refine Keeps.after (State.settleMed_keeps _) (by decide) ?_
      refine Keeps.after (State.powerupCompare_keeps _ _ _) (by decide) ?_
      refine Keeps.after (State.setQg_keeps _ _ _) (by decide) ?_
      exact Keeps.refl _ _
    · refine Keeps.foldl _ (fun _ _ => ?_) ?_
      · refine Keeps.after (State.setDie_keeps _ _ _) (by decide) ?_
        exact Keeps.refl _ _
      · refine Keeps.after (State.setMed_keeps _ _) (by decide) ?_
        exact Keeps.refl _ _

theorem execEyebrightCalibration_ends (d : Fin 2304) (ss : List Sample) (s : State) :
    Ends [.regs, .evt, .evr, .flash, .chans, .med, .cxl, .out] s (execEyebrightCalibration d ss s) := by
  unfold execEyebrightCalibration
  refine Ends.next ?_
  refine Keeps.ite (fun _ => ?_) (fun _ => ?_)
  · refine Keeps.after (State.calibrated_keeps _ _ _) (by decide) ?_
    exact Keeps.refl _ _
  · exact Keeps.refl _ _

theorem execEybSweep_ends (s : State) :
    Ends [.med, .out] s (execEybSweep s) := by
  unfold execEybSweep
  extract_lets -merge +onlyGivenNames x1
  refine Ends.next ?_
  refine Keeps.ite (fun _ => ?_) (fun _ => ?_)
  · refine Keeps.after (State.startSweep_keeps _ _) (by decide) ?_
    exact Keeps.refl _ _
  · exact Keeps.refl _ _

theorem execFullSweepDone_ends (d : Fin 2304) (ss : List Sample) (s : State) :
    Ends [.regs, .evt, .sched, .nv, .evr, .flash, .psq, .chans, .med, .bench, .xlt, .twin, .cxl, .rdma, .sec, .out, .fresh] s (execFullSweepDone d ss s) := by
  unfold execFullSweepDone
  refine Ends.next ?_
  refine Keeps.ite (fun _ => ?_) (fun _ => ?_)
  · refine Keeps.after (State.settleMed_keeps _) (by decide) ?_
    refine Keeps.after (State.tryOpen_keeps _) (by decide) ?_
    refine Keeps.after (State.calibrated_keeps _ _ _) (by decide) ?_
    refine Keeps.after (State.setDie_keeps _ _ _) (by decide) ?_
    exact Keeps.refl _ _
  · exact Keeps.refl _ _

/-! ### TierOps -/

theorem State.chunkLost_keeps (s : State) (p : Nat → Bool) :
    Keeps [.regs, .evt, .evr, .chans, .med, .xlt, .cxl, .out] s (State.chunkLost s p) := by
  unfold State.chunkLost
  extract_lets -merge +onlyGivenNames x1
  refine Keeps.foldl _ (fun _ _ => ?_) ?_
  · split
    extract_lets -merge +onlyGivenNames x2
    extract_lets -merge +onlyGivenNames x3
    refine Keeps.of_let x3 ?_ (fun h3 => ?_)
    · unfold x3
      split
      · refine Keeps.after (State.setXlt_keeps _ _) (by decide) ?_
        exact Keeps.refl _ _
      · exact Keeps.refl _ _
    · refine Keeps.ite (fun _ => ?_) (fun _ => ?_)
      · extract_lets -merge +onlyGivenNames x4
        refine Keeps.of_let x4 ?_ (fun h4 => ?_)
        · unfold x4
          refine Keeps.after (State.setSett_keeps _ _ _) (by decide) ?_
          exact h3
        · refine Keeps.after (State.setMed_keeps _ _) (by decide) ?_
          exact h4
      · extract_lets -merge +onlyGivenNames x4
        refine Keeps.of_let x4 ?_ (fun h4 => ?_)
        · unfold x4
          refine Keeps.after (State.setSett_keeps _ _ _) (by decide) ?_
          refine Keeps.after (State.setYoung_keeps _ _ _) (by decide) ?_
          exact h3
        · split
          · refine Keeps.foldl _ (fun _ _ => ?_) ?_
            · refine Keeps.after (State.lose_keeps _ _ _ _) (by decide) ?_
              exact Keeps.refl _ _
            · exact h4
          · exact h4
  · exact Keeps.refl _ _

theorem State.chunkTake_keeps (s : State) (c : Nat) (p : Nat → Bool) :
    Keeps [.regs, .evt, .evr, .chans, .med, .xlt, .cxl, .out] s (State.chunkTake s c p) := by
  unfold State.chunkTake
  refine Keeps.ite (fun _ => ?_) (fun _ => ?_)
  · exact Keeps.refl _ _
  · extract_lets -merge +onlyGivenNames x1
    extract_lets -merge +onlyGivenNames x2
    extract_lets -merge +onlyGivenNames x3
    extract_lets -merge +onlyGivenNames x4
    refine Keeps.of_let x4 ?_ (fun h4 => ?_)
    · unfold x4
      refine Keeps.after (State.setXlt_keeps _ _) (by decide) ?_
      exact Keeps.refl _ _
    · refine Keeps.ite (fun _ => ?_) (fun _ => ?_)
      · refine Keeps.after (State.chunkLost_keeps _ _) (by decide) ?_
        refine Keeps.after (State.cause_keeps _ _ _ _ _) (by decide) ?_
        exact h4
      · exact h4

theorem State.pairTake_keeps (s : State) (c : Nat) :
    Keeps [.regs, .evt, .evr, .chans, .med, .bench, .xlt, .twin, .cxl, .rdma, .sec, .out, .fresh] s (State.pairTake s c) := by
  unfold State.pairTake
  extract_lets -merge +onlyGivenNames x1
  refine Keeps.of_let x1 ?_ (fun h1 => ?_)
  · unfold x1
    refine Keeps.after (State.chunkTake_keeps _ _ _) (by decide) ?_
    refine Keeps.after (State.chunkTake_keeps _ _ _) (by decide) ?_
    exact Keeps.refl _ _
  · refine Keeps.after (State.redrive_keeps _ _) (by decide) ?_
    refine Keeps.after (State.setXlt_keeps _ _) (by decide) ?_
    exact h1

theorem State.loadEnd_keeps (s : State) :
    Keeps [.regs, .evt, .evr, .chans, .xlt, .cxl, .out] s (State.loadEnd s) := by
  unfold State.loadEnd
  extract_lets -merge +onlyGivenNames x1
  extract_lets -merge +onlyGivenNames x2
  refine Keeps.of_let x2 ?_ (fun h2 => ?_)
  · unfold x2
    refine Keeps.after (State.cause_keeps _ _ _ _ _) (by decide) ?_
    refine Keeps.after (State.setXlt_keeps _ _) (by decide) ?_
    exact Keeps.refl _ _
  · refine Keeps.after (State.judgeXlt_keeps _) (by decide) ?_
    refine Keeps.foldl _ (fun _ _ => ?_) ?_
    · refine Keeps.after (State.wantPromote_keeps _ _ _) (by decide) ?_
      exact Keeps.refl _ _
    · exact h2

theorem State.loadNext_keeps (s : State) :
    Keeps [.regs, .evt, .evr, .chans, .med, .bench, .xlt, .twin, .cxl, .rdma, .sec, .out, .fresh] s (State.loadNext s) := by
  unfold State.loadNext
  split
  · split
    · refine Keeps.ite (fun _ => ?_) (fun _ => ?_)
      · refine Keeps.after (State.chunkTake_keeps _ _ _) (by decide) ?_
        exact Keeps.refl _ _
      · refine Keeps.after (State.loadChunk_keeps _ _) (by decide) ?_
        exact Keeps.refl _ _
    · refine Keeps.after (State.setXlt_keeps _ _) (by decide) ?_
      exact Keeps.refl _ _
  · split
    · refine Keeps.ite (fun _ => ?_) (fun _ => ?_)
      · extract_lets -merge +onlyGivenNames x1
        refine Keeps.of_let x1 ?_ (fun h1 => ?_)
        · unfold x1
          refine Keeps.after (State.pairTake_keeps _ _) (by decide) ?_
          exact Keeps.refl _ _
        · refine Keeps.ite (fun _ => ?_) (fun _ => ?_)
          · refine Keeps.after (State.loadEnd_keeps _) (by decide) ?_
            exact h1
          · exact h1
      · refine Keeps.after (State.loadPair_keeps _ _) (by decide) ?_
        exact Keeps.refl _ _
    · refine Keeps.after (State.loadEnd_keeps _) (by decide) ?_
      exact Keeps.refl _ _

theorem State.startDemote_keeps (s : State) (n : Nat) :
    Keeps [.regs, .evt, .evr, .chans, .med, .cxl, .out] s (State.startDemote s n) := by
  unfold State.startDemote
  extract_lets -merge +onlyGivenNames x1
  refine Keeps.of_let x1 ?_ (fun h1 => ?_)
  · unfold x1
    refine Keeps.ite (fun _ => ?_) (fun _ => ?_)
    · refine Keeps.after (State.cause_keeps _ _ _ _ _) (by decide) ?_
      exact Keeps.refl _ _
    · exact Keeps.refl _ _
  · refine Keeps.after (State.setSett_keeps _ _ _) (by decide) ?_
    exact h1

theorem State.promoteNext_keeps (s : State) :
    Keeps [.regs, .evt, .evr, .chans, .med, .bench, .xlt, .cxl, .out] s (State.promoteNext s) := by
  unfold State.promoteNext
  extract_lets -merge +onlyGivenNames x1
  split
  · exact Keeps.refl _ _
  · split
    · extract_lets -merge +onlyGivenNames x2
      extract_lets -merge +onlyGivenNames x3
      refine Keeps.of_let x3 ?_ (fun h3 => ?_)
      · unfold x3
        refine Keeps.after (State.setXlt_keeps _ _) (by decide) ?_
        exact Keeps.refl _ _
      · extract_lets -merge +onlyGivenNames x4
        extract_lets -merge +onlyGivenNames x5
        refine Keeps.of_let x5 ?_ (fun h5 => ?_)
        · unfold x5
          refine Keeps.after (State.setSett_keeps _ _ _) (by decide) ?_
          refine Keeps.after (State.setPage_keeps _ _ _) (by decide) ?_
          exact h3
        · refine Keeps.foldl _ (fun _ _ => ?_) ?_
          · refine Keeps.after (State.promoteLine_keeps _ _ _) (by decide) ?_
            exact Keeps.refl _ _
          · exact h5
    · split
      · refine Keeps.after (State.startDemote_keeps _ _) (by decide) ?_
        exact Keeps.refl _ _
      · exact Keeps.refl _ _

theorem State.hintScan_keeps (s : State) :
    Keeps [.regs, .evt, .evr, .chans, .med, .xlt, .cxl, .out] s (State.hintScan s) := by
  unfold State.hintScan
  extract_lets -merge +onlyGivenNames x1
  extract_lets -merge +onlyGivenNames x2
  refine Keeps.of_let x2 ?_ (fun h2 => ?_)
  · unfold x2
    refine Keeps.after (State.setXlt_keeps _ _) (by decide) ?_
    exact Keeps.refl _ _
  · extract_lets -merge +onlyGivenNames x3
    refine Keeps.of_let x3 ?_ (fun h3 => ?_)
    · unfold x3
      refine Keeps.foldl _ (fun _ _ => ?_) ?_
      · refine Keeps.ite (fun _ => ?_) (fun _ => ?_)
        · refine Keeps.after (State.startDemote_keeps _ _) (by decide) ?_
          exact Keeps.refl _ _
        · exact Keeps.refl _ _
      · exact h2
    · refine Keeps.foldl _ (fun _ _ => ?_) ?_
      · refine Keeps.after (State.wantPromote_keeps _ _ _) (by decide) ?_
        exact Keeps.refl _ _
      · exact h3

theorem State.setHashKey_keeps (s : State) (k : Dword) :
    Keeps [.bench, .sec] s (State.setHashKey s k) := by
  unfold State.setHashKey
  extract_lets -merge +onlyGivenNames x1
  extract_lets -merge +onlyGivenNames x2
  refine Keeps.of_let x2 ?_ (fun h2 => ?_)
  · unfold x2
    refine Keeps.foldl _ (fun _ _ => ?_) ?_
    · refine Keeps.after (State.dropLine_keeps _ _) (by decide) ?_
      exact Keeps.refl _ _
    · exact Keeps.refl _ _
  · refine Keeps.after (State.setBench_keeps _ _) (by decide) ?_
    exact h2

theorem State.hashKeyWrite_keeps (s : State) (req : Requester) (off : Nat) (hi : Word) :
    Keeps [.regs, .csr, .evt, .evr, .chans, .bench, .cxl, .sec, .out] s (State.hashKeyWrite s req off hi) := by
  unfold State.hashKeyWrite
  extract_lets -merge +onlyGivenNames x1
  extract_lets -merge +onlyGivenNames x2
  extract_lets -merge +onlyGivenNames x3
  refine Keeps.of_let x3 ?_ (fun h3 => ?_)
  · unfold x3
    refine Keeps.set_csr (by decide) ?_
    exact Keeps.refl _ _
  · clear_value x1
    split
    · refine Keeps.ite (fun _ => ?_) (fun _ => ?_)
      · refine Keeps.after (State.setHashKey_keeps _ _) (by decide) ?_
        exact h3
      · refine Keeps.after (State.cause_keeps _ _ _ _ _) (by decide) ?_
        exact h3
    · refine Keeps.after (State.cause_keeps _ _ _ _ _) (by decide) ?_
      exact h3

/-! ### RdmaOps -/

theorem State.setMac_keeps (s : State) (m : Nat) (v : Mac) :
    Keeps [.rdma] s (State.setMac s m v) := by
  unfold State.setMac
  refine Keeps.set_rdma (by decide) ?_
  exact Keeps.refl _ _

theorem State.setEport_keeps (s : State) (p : Nat) (v : EthPort) :
    Keeps [.rdma] s (State.setEport s p v) := by
  unfold State.setEport
  refine Keeps.set_rdma (by decide) ?_
  exact Keeps.refl _ _

theorem State.judgeMac_keeps (s : State) (m : Nat) :
    Keeps [.regs, .evt, .evr, .chans, .cxl, .out] s (State.judgeMac s m) := by
  unfold State.judgeMac
  extract_lets -merge +onlyGivenNames x1
  extract_lets -merge +onlyGivenNames x2
  extract_lets -merge +onlyGivenNames x3
  extract_lets -merge +onlyGivenNames x4
  refine Keeps.of_let x4 ?_ (fun h4 => ?_)
  · unfold x4
    refine Keeps.after (State.level_keeps _ _ _ _ _ _ _) (by decide) ?_
    exact Keeps.refl _ _
  · extract_lets -merge +onlyGivenNames x5
    refine Keeps.of_let x5 ?_ (fun h5 => ?_)
    · unfold x5
      refine Keeps.after (State.level_keeps _ _ _ _ _ _ _) (by decide) ?_
      exact h4
    · refine Keeps.after (State.level_keeps _ _ _ _ _ _ _) (by decide) ?_
      exact h5

theorem State.macDrop_keeps (s : State) (m : Nat) :
    Keeps [.regs] s (State.macDrop s m) := by
  unfold State.macDrop
  refine Keeps.after (State.bump_keeps _ _ _ _ _ _) (by decide) ?_
  exact Keeps.refl _ _

theorem State.useWindow_keeps (s : State) (n : Nat) (key : Word) :
    Keeps [.rdma] s (State.useWindow s n key) := by
  unfold State.useWindow
  extract_lets -merge +onlyGivenNames x1
  extract_lets -merge +onlyGivenNames x2
  refine Keeps.after (State.setQp_keeps _ _ _) (by decide) ?_
  exact Keeps.refl _ _

theorem State.contextIn_keeps (s : State) (n : Nat) :
    Keeps [.rdma] s (State.contextIn s n) := by
  unfold State.contextIn
  extract_lets -merge +onlyGivenNames x1
  extract_lets -merge +onlyGivenNames x2
  refine Keeps.set_rdma (by decide) ?_
  exact Keeps.refl _ _

theorem State.context_keeps (s : State) (n : Nat) :
    Keeps [.regs, .rdma] s (State.context s n) := by
  unfold State.context
  refine Keeps.after (State.contextIn_keeps _ _) (by decide) ?_
  refine Keeps.ite (fun _ => ?_) (fun _ => ?_)
  · exact Keeps.refl _ _
  · refine Keeps.after (State.bump_keeps _ _ _ _ _ _) (by decide) ?_
    exact Keeps.refl _ _

theorem State.congestion_keeps (s : State) (n : Nat) (ce : Bool) :
    Keeps [.regs, .rdma, .out] s (State.congestion s n ce) := by
  unfold State.congestion
  extract_lets -merge +onlyGivenNames x1
  extract_lets -merge +onlyGivenNames x2
  extract_lets -merge +onlyGivenNames x3
  refine Keeps.ite (fun _ => ?_) (fun _ => ?_)
  · refine Keeps.after (State.emit_keeps _ _) (by decide) ?_
    refine Keeps.after (State.bump_keeps _ _ _ _ _ _) (by decide) ?_
    refine Keeps.after (State.setQp_keeps _ _ _) (by decide) ?_
    exact Keeps.refl _ _
  · exact Keeps.refl _ _

theorem State.packetIn_keeps (s : State) (n : Nat) (psn : BitVec 24) (ce : Bool) (icrc : Bool) :
    Keeps [.regs, .evt, .tally, .evr, .psq, .chans, .med, .cxl, .rdma, .out] s (State.packetIn s n psn ce icrc).1 := by
  unfold State.packetIn
  extract_lets -merge +onlyGivenNames x1
  extract_lets -merge +onlyGivenNames x2
  refine Keeps.ite_fst (fun _ => ?_) (fun _ => ?_)
  · dsimp only
    exact Keeps.refl _ _
  · refine Keeps.ite_fst (fun _ => ?_) (fun _ => ?_)
    · dsimp only
      refine Keeps.after (State.macDrop_keeps _ _) (by decide) ?_
      exact Keeps.refl _ _
    · refine Keeps.ite_fst (fun _ => ?_) (fun _ => ?_)
      · dsimp only
        refine Keeps.after (State.macDrop_keeps _ _) (by decide) ?_
        refine Keeps.after (State.cause_keeps _ _ _ _ _) (by decide) ?_
        exact Keeps.refl _ _
      · refine Keeps.ite_fst (fun _ => ?_) (fun _ => ?_)
        · dsimp only
          refine Keeps.after (State.macDrop_keeps _ _) (by decide) ?_
          exact Keeps.refl _ _
        · extract_lets -merge +onlyGivenNames x3
          refine Keeps.of_let x3 ?_ (fun h3 => ?_)
          · unfold x3
            refine Keeps.after (State.congestion_keeps _ _ _) (by decide) ?_
            refine Keeps.after (State.context_keeps _ _) (by decide) ?_
            refine Keeps.after (State.wakeIdle_keeps _) (by decide) ?_
            exact Keeps.refl _ _
          · split
            · refine Keeps.ite_fst (fun _ => ?_) (fun _ => ?_)
              · dsimp only
                refine Keeps.after (State.setQp_keeps _ _ _) (by decide) ?_
                exact h3
              · dsimp only
                exact h3
            · dsimp only
              exact h3

theorem State.seqNak_keeps (s : State) (n : Nat) :
    Keeps [.regs, .rdma, .out] s (State.seqNak s n) := by
  unfold State.seqNak
  extract_lets -merge +onlyGivenNames x1
  refine Keeps.ite (fun _ => ?_) (fun _ => ?_)
  · exact Keeps.refl _ _
  · refine Keeps.after (State.nak_keeps _ _ _ _) (by decide) ?_
    refine Keeps.after (State.setQp_keeps _ _ _) (by decide) ?_
    exact Keeps.refl _ _

theorem State.rnrNak_keeps (s : State) (n : Nat) (psn : BitVec 24) :
    Keeps [.regs, .rdma, .out] s (State.rnrNak s n psn) := by
  unfold State.rnrNak
  extract_lets -merge +onlyGivenNames x1
  refine Keeps.after (State.nak_keeps _ _ _ _) (by decide) ?_
  refine Keeps.after (State.bump_keeps _ _ _ _ _ _) (by decide) ?_
  refine Keeps.after (State.setQp_keeps _ _ _) (by decide) ?_
  exact Keeps.refl _ _

theorem State.dup_keeps (s : State) (n : Nat) (psn : BitVec 24) :
    Keeps [.regs] s (State.dup s n psn).1 := by
  unfold State.dup
  dsimp only
  refine Keeps.after (State.bump_keeps _ _ _ _ _ _) (by decide) ?_
  exact Keeps.refl _ _

theorem State.submitAll_keeps (s : State) (n : Nat) (ws : List HostWrite) :
    Keeps [.regs, .evt, .evr, .chans, .med, .bench, .xlt, .twin, .cxl, .rdma, .out] s (State.submitAll s n ws) := by
  unfold State.submitAll
  refine Keeps.ite (fun _ => ?_) (fun _ => ?_)
  · refine Keeps.foldl _ (fun _ _ => ?_) ?_
    · refine Keeps.after (State.submit_keeps _ _) (by decide) ?_
      exact Keeps.refl _ _
    · exact Keeps.refl _ _
  · refine Keeps.after (State.setQp_keeps _ _ _) (by decide) ?_
    exact Keeps.refl _ _

theorem State.msgAdd_keeps (s : State) (n : Nat) (msn : Nat) (lines : Nat) (bytes : Nat) :
    Keeps [.rdma] s (State.msgAdd s n msn lines bytes) := by
  unfold State.msgAdd
  extract_lets -merge +onlyGivenNames x1
  refine Keeps.after (State.setQp_keeps _ _ _) (by decide) ?_
  exact Keeps.refl _ _

theorem State.writeNext_keeps (s : State) (n : Nat) (k : WritePkt) (imm : Option Word) :
    Keeps [.regs, .evt, .evr, .chans, .med, .bench, .xlt, .twin, .cxl, .rdma, .sec, .out, .fresh] s (State.writeNext s n k imm) := by
  unfold State.writeNext
  extract_lets -merge +onlyGivenNames x1
  extract_lets -merge +onlyGivenNames x2
  extract_lets -merge +onlyGivenNames x3
  split
  · split
    · refine Keeps.after (State.qpFatal_keeps _ _ _ _ _ _) (by decide) ?_
      exact Keeps.refl _ _
    · extract_lets -merge +onlyGivenNames x4
      extract_lets -merge +onlyGivenNames x5
      split
      · refine Keeps.after (State.refuseHost_keeps _ _ _) (by decide) ?_
        exact Keeps.refl _ _
      · refine Keeps.after (State.rnrNak_keeps _ _ _) (by decide) ?_
        exact Keeps.refl _ _
      · refine Keeps.ite (fun _ => ?_) (fun _ => ?_)
        · refine Keeps.after (State.rnrNak_keeps _ _ _) (by decide) ?_
          split
          · refine Keeps.after (State.cqFull_keeps _ _) (by decide) ?_
            exact Keeps.refl _ _
          · exact Keeps.refl _ _
        · extract_lets -merge +onlyGivenNames x6
          extract_lets -merge +onlyGivenNames x7
          extract_lets -merge +onlyGivenNames x8
          refine Keeps.of_let x8 ?_ (fun h8 => ?_)
          · unfold x8
            refine Keeps.after (State.setQp_keeps _ _ _) (by decide) ?_
            refine Keeps.after (State.useWindow_keeps _ _ _) (by decide) ?_
            exact Keeps.refl _ _
          · unfold x3
            extract_lets -merge +onlyGivenNames x9
            extract_lets -merge +onlyGivenNames x10
            refine Keeps.of_let x10 ?_ (fun h10 => ?_)
            · unfold x10
              refine Keeps.after (State.setQp_keeps _ _ _) (by decide) ?_
              exact h8
            · refine Keeps.after (State.submitAll_keeps _ _ _) (by decide) ?_
              refine Keeps.after (State.msgAdd_keeps _ _ _ _ _) (by decide) ?_
              exact h10
  · split
    · refine Keeps.after (State.qpFatal_keeps _ _ _ _ _ _) (by decide) ?_
      exact Keeps.refl _ _
    · extract_lets -merge +onlyGivenNames x4
      extract_lets -merge +onlyGivenNames x5
      split
      · refine Keeps.after (State.refuseHost_keeps _ _ _) (by decide) ?_
        exact Keeps.refl _ _
      · refine Keeps.after (State.rnrNak_keeps _ _ _) (by decide) ?_
        exact Keeps.refl _ _
      · refine Keeps.ite (fun _ => ?_) (fun _ => ?_)
        · refine Keeps.after (State.rnrNak_keeps _ _ _) (by decide) ?_
          split
          · refine Keeps.after (State.cqFull_keeps _ _) (by decide) ?_
            exact Keeps.refl _ _
          · exact Keeps.refl _ _
        · extract_lets -merge +onlyGivenNames x6
          extract_lets -merge +onlyGivenNames x7
          extract_lets -merge +onlyGivenNames x8
          refine Keeps.of_let x8 ?_ (fun h8 => ?_)
          · unfold x8
            refine Keeps.after (State.setQp_keeps _ _ _) (by decide) ?_
            refine Keeps.after (State.useWindow_keeps _ _ _) (by decide) ?_
            exact Keeps.refl _ _
          · unfold x3
            extract_lets -merge +onlyGivenNames x9
            extract_lets -merge +onlyGivenNames x10
            refine Keeps.of_let x10 ?_ (fun h10 => ?_)
            · unfold x10
              refine Keeps.after (State.setQp_keeps _ _ _) (by decide) ?_
              exact h8
            · refine Keeps.after (State.submitAll_keeps _ _ _) (by decide) ?_
              refine Keeps.after (State.msgAdd_keeps _ _ _ _ _) (by decide) ?_
              exact h10
  · split
    · refine Keeps.after (State.nak_keeps _ _ _ _) (by decide) ?_
      exact Keeps.refl _ _
    · extract_lets -merge +onlyGivenNames x4
      extract_lets -merge +onlyGivenNames x5
      split
      · exact Keeps.refl _ _
      · unfold x3
        extract_lets -merge +onlyGivenNames x6
        extract_lets -merge +onlyGivenNames x7
        refine Keeps.of_let x7 ?_ (fun h7 => ?_)
        · unfold x7
          refine Keeps.after (State.setQp_keeps _ _ _) (by decide) ?_
          exact Keeps.refl _ _
        · refine Keeps.after (State.submitAll_keeps _ _ _) (by decide) ?_
          refine Keeps.after (State.msgAdd_keeps _ _ _ _ _) (by decide) ?_
          exact h7

theorem State.writeDup_keeps (s : State) (n : Nat) (psn : BitVec 24) :
    Keeps [.regs, .out] s (State.writeDup s n psn) := by
  unfold State.writeDup
  split
  split
  · refine Keeps.ite (fun _ => ?_) (fun _ => ?_)
    · refine Keeps.after (State.emit_keeps _ _) (by decide) ?_
      refine Keeps.of_fst (by assumption) ?_
      refine Keeps.after (State.dup_keeps _ _ _) (by decide) ?_
      exact Keeps.refl _ _
    · refine Keeps.of_fst (by assumption) ?_
      refine Keeps.after (State.dup_keeps _ _ _) (by decide) ?_
      exact Keeps.refl _ _
  · refine Keeps.after (State.emit_keeps _ _) (by decide) ?_
    refine Keeps.of_fst (by assumption) ?_
    refine Keeps.after (State.dup_keeps _ _ _) (by decide) ?_
    exact Keeps.refl _ _

theorem State.sprayTake_keeps (s : State) (n : Nat) (k : WritePkt) (g : BitVec 128) (imm : Option Word) :
    Keeps [.regs, .evt, .evr, .chans, .med, .bench, .xlt, .twin, .cxl, .rdma, .sec, .out, .fresh] s (State.sprayTake s n k g imm) := by
  unfold State.sprayTake
  extract_lets -merge +onlyGivenNames x1
  extract_lets -merge +onlyGivenNames x2
  extract_lets -merge +onlyGivenNames x3
  refine Keeps.ite (fun _ => ?_) (fun _ => ?_)
  · refine Keeps.after (State.nak_keeps _ _ _ _) (by decide) ?_
    exact Keeps.refl _ _
  · refine Keeps.ite (fun _ => ?_) (fun _ => ?_)
    · refine Keeps.after (State.writeDup_keeps _ _ _) (by decide) ?_
      exact Keeps.refl _ _
    · refine Keeps.ite (fun _ => ?_) (fun _ => ?_)
      · refine Keeps.after (State.macDrop_keeps _ _) (by decide) ?_
        refine Keeps.after (State.cause_keeps _ _ _ _ _) (by decide) ?_
        exact Keeps.refl _ _
      · refine Keeps.ite (fun _ => ?_) (fun _ => ?_)
        · refine Keeps.after (State.writeDup_keeps _ _ _) (by decide) ?_
          exact Keeps.refl _ _
        · split
          · refine Keeps.after (State.qpFatal_keeps _ _ _ _ _ _) (by decide) ?_
            exact Keeps.refl _ _
          · extract_lets -merge +onlyGivenNames x4
            split
            · refine Keeps.after (State.refuseHost_keeps _ _ _) (by decide) ?_
              exact Keeps.refl _ _
            · refine Keeps.after (State.rnrNak_keeps _ _ _) (by decide) ?_
              exact Keeps.refl _ _
            · extract_lets -merge +onlyGivenNames x5
              refine Keeps.ite (fun _ => ?_) (fun _ => ?_)
              · refine Keeps.after (State.rnrNak_keeps _ _ _) (by decide) ?_
                split
                · refine Keeps.after (State.cqFull_keeps _ _) (by decide) ?_
                  exact Keeps.refl _ _
                · exact Keeps.refl _ _
              · extract_lets -merge +onlyGivenNames x6
                extract_lets -merge +onlyGivenNames x7
                extract_lets -merge +onlyGivenNames x8
                extract_lets -merge +onlyGivenNames x9
                extract_lets -merge +onlyGivenNames x10
                extract_lets -merge +onlyGivenNames x11
                extract_lets -merge +onlyGivenNames x12
                refine Keeps.of_let x12 ?_ (fun h12 => ?_)
                · unfold x12
                  refine Keeps.after (State.useWindow_keeps _ _ _) (by decide) ?_
                  exact Keeps.refl _ _
                · extract_lets -merge +onlyGivenNames x13
                  extract_lets -merge +onlyGivenNames x14
                  refine Keeps.of_let x14 ?_ (fun h14 => ?_)
                  · unfold x14
                    refine Keeps.after (State.setQp_keeps _ _ _) (by decide) ?_
                    exact h12
                  · refine Keeps.after (State.submitAll_keeps _ _ _) (by decide) ?_
                    refine Keeps.after (State.msgAdd_keeps _ _ _ _ _) (by decide) ?_
                    exact h14

theorem State.writePacket_keeps (s : State) (n : Nat) (k : WritePkt) (imm : Option Word) :
    Keeps [.regs, .evt, .tally, .evr, .psq, .chans, .med, .bench, .xlt, .twin, .cxl, .rdma, .sec, .out, .fresh] s (State.writePacket s n k imm) := by
  unfold State.writePacket
  split
  · refine Keeps.of_fst (by assumption) ?_
    refine Keeps.after (State.packetIn_keeps _ _ _ _ _) (by decide) ?_
    exact Keeps.refl _ _
  · extract_lets -merge +onlyGivenNames x1
    split
    · refine Keeps.after (State.nak_keeps _ _ _ _) (by decide) ?_
      refine Keeps.of_fst (by assumption) ?_
      refine Keeps.after (State.packetIn_keeps _ _ _ _ _) (by decide) ?_
      exact Keeps.refl _ _
    · refine Keeps.after (State.settle_keeps _) (by decide) ?_
      refine Keeps.after (State.sprayTake_keeps _ _ _ _ _) (by decide) ?_
      refine Keeps.of_fst (by assumption) ?_
      refine Keeps.after (State.packetIn_keeps _ _ _ _ _) (by decide) ?_
      exact Keeps.refl _ _
    · split
      · refine Keeps.after (State.settle_keeps _) (by decide) ?_
        refine Keeps.after (State.writeNext_keeps _ _ _ _) (by decide) ?_
        refine Keeps.of_fst (by assumption) ?_
        refine Keeps.after (State.packetIn_keeps _ _ _ _ _) (by decide) ?_
        exact Keeps.refl _ _
      · refine Keeps.after (State.seqNak_keeps _ _) (by decide) ?_
        refine Keeps.of_fst (by assumption) ?_
        refine Keeps.after (State.packetIn_keeps _ _ _ _ _) (by decide) ?_
        exact Keeps.refl _ _
      · refine Keeps.after (State.writeDup_keeps _ _ _) (by decide) ?_
        refine Keeps.of_fst (by assumption) ?_
        refine Keeps.after (State.packetIn_keeps _ _ _ _ _) (by decide) ?_
        exact Keeps.refl _ _

theorem State.request_keeps {w : List Part} {s : State} {n : Nat} {psn : BitVec 24} {ce icrc : Bool} {go : State → State}
    {again : State → Option Remembered → State}
    (hw : [Part.regs, .evt, .tally, .evr, .psq, .chans, .med, .bench, .xlt, .twin, .cxl, .rdma, .sec, .out, .fresh] ⊆ w)
    (hg : ∀ u, Keeps w u (go u)) (ha : ∀ u r, Keeps w u (again u r)) : Keeps w s (s.request n psn ce icrc go again) := by
  have hp : Keeps w s (s.packetIn n psn ce icrc).1 := (State.packetIn_keeps _ _ _ _ _).mono (List.Subset.trans (by decide) hw)
  unfold State.request
  split
  · rename_i he; rw [he] at hp; exact hp
  · rename_i s1 he
    rw [he] at hp
    dsimp only
    refine Keeps.ite (fun _ => Keeps.after (State.nak_keeps _ _ _ _) (List.Subset.trans (by decide) hw) hp) (fun _ => ?_)
    split
    · exact Keeps.after (State.settle_keeps _) (List.Subset.trans (by decide) hw) (hp.trans (hg _))
    · exact Keeps.after (State.seqNak_keeps _ _) (List.Subset.trans (by decide) hw) hp
    · have hd : Keeps w s (s1.dup n psn).1 := Keeps.after (State.dup_keeps _ _ _) (List.Subset.trans (by decide) hw) hp
      exact Keeps.after (State.settle_keeps _) (List.Subset.trans (by decide) hw) (hd.trans (ha _ _))

theorem State.enqueue_keeps (s : State) (n : Nat) (psn : BitVec 24) (kind : ReqKind) (j : Queued) (pkts : Nat) :
    Keeps [.rdma] s (State.enqueue s n psn kind j pkts) := by
  unfold State.enqueue
  extract_lets -merge +onlyGivenNames x1
  refine Keeps.after (State.setQp_keeps _ _ _) (by decide) ?_
  exact Keeps.refl _ _

theorem State.wqeEnd_keeps (s : State) (n : Nat) (w : Wqe) (status : Nat) :
    Keeps [.regs, .evt, .evr, .chans, .med, .bench, .xlt, .twin, .cxl, .rdma, .sec, .out, .fresh] s (State.wqeEnd s n w status) := by
  unfold State.wqeEnd
  split
  · refine Keeps.ite (fun _ => ?_) (fun _ => ?_)
    · refine Keeps.after (State.cqWrite_keeps _ _ _ _ _ _ _ _) (by decide) ?_
      exact Keeps.refl _ _
    · exact Keeps.refl _ _
  · exact Keeps.refl _ _

theorem State.sqFail_keeps (s : State) (n : Nat) (status : Nat) :
    Keeps [.regs, .evt, .evr, .chans, .med, .bench, .xlt, .twin, .cxl, .rdma, .sec, .out, .fresh] s (State.sqFail s n status) := by
  unfold State.sqFail
  extract_lets -merge +onlyGivenNames x1
  extract_lets -merge +onlyGivenNames x2
  extract_lets -merge +onlyGivenNames x3
  refine Keeps.of_let x3 ?_ (fun h3 => ?_)
  · unfold x3
    refine Keeps.after (State.cause_keeps _ _ _ _ _) (by decide) ?_
    refine Keeps.after (State.setQp_keeps _ _ _) (by decide) ?_
    exact Keeps.refl _ _
  · clear_value x2
    split
    · exact h3
    · refine Keeps.foldl _ (fun _ _ => ?_) ?_
      · refine Keeps.after (State.wqeEnd_keeps _ _ _ _) (by decide) ?_
        exact Keeps.refl _ _
      · refine Keeps.after (State.wqeEnd_keeps _ _ _ _) (by decide) ?_
        exact h3

theorem State.flightEnd_keeps (s : State) (n : Nat) (a2 : Nat) :
    Keeps [.regs, .evt, .evr, .chans, .med, .bench, .xlt, .twin, .cxl, .rdma, .sec, .out, .fresh] s (State.flightEnd s n a2) := by
  induction a2 generalizing s n
  · unfold State.flightEnd
    exact Keeps.refl _ _
  · rename_i x ih
    unfold State.flightEnd
    extract_lets -merge +onlyGivenNames x1
    split
    · exact Keeps.refl _ _
    · refine Keeps.ite (fun _ => ?_) (fun _ => ?_)
      · refine Keeps.after (State.sqFail_keeps _ _ _) (by decide) ?_
        exact Keeps.refl _ _
      · refine Keeps.ite (fun _ => ?_) (fun _ => ?_)
        · refine Keeps.trans ?_ (ih _ _)
          refine Keeps.after (State.wqeEnd_keeps _ _ _ _) (by decide) ?_
          refine Keeps.after (State.setQp_keeps _ _ _) (by decide) ?_
          exact Keeps.refl _ _
        · exact Keeps.refl _ _

theorem State.wqeSend_keeps (s : State) (n : Nat) (w : Wqe) (psn : BitVec 24) :
    Keeps [.regs, .evt, .evr, .chans, .med, .bench, .xlt, .twin, .cxl, .rdma, .sec, .out, .fresh] s (State.wqeSend s n w psn) := by
  unfold State.wqeSend
  extract_lets -merge +onlyGivenNames x1
  refine Keeps.of_let x1 ?_ (fun h1 => ?_)
  · unfold x1
    refine Keeps.after (State.emit_keeps _ _) (by decide) ?_
    exact Keeps.refl _ _
  · refine Keeps.ite (fun _ => ?_) (fun _ => ?_)
    · exact h1
    · split
      · refine Keeps.after (State.readLines_keeps _ _ _ _ _) (by decide) ?_
        exact h1
      · exact h1

theorem State.sqSend_keeps (s : State) (n : Nat) (a2 : Nat) :
    Keeps [.regs, .evt, .evr, .chans, .med, .bench, .xlt, .twin, .cxl, .rdma, .sec, .out, .fresh] s (State.sqSend s n a2) := by
  induction a2 generalizing s n
  · unfold State.sqSend
    exact Keeps.refl _ _
  · rename_i x ih
    unfold State.sqSend
    extract_lets -merge +onlyGivenNames x1
    split
    · exact Keeps.refl _ _
    · refine Keeps.ite (fun _ => ?_) (fun _ => ?_)
      · exact Keeps.refl _ _
      · split
        · refine Keeps.after (State.sqFail_keeps _ _ _) (by decide) ?_
          exact Keeps.refl _ _
        · exact Keeps.refl _ _
        · extract_lets -merge +onlyGivenNames x2
          refine Keeps.ite (fun _ => ?_) (fun _ => ?_)
          · refine Keeps.after (State.sqFail_keeps _ _ _) (by decide) ?_
            exact Keeps.refl _ _
          · extract_lets -merge +onlyGivenNames x3
            refine Keeps.trans ?_ (ih _ _)
            refine Keeps.after (State.wqeSend_keeps _ _ _ _) (by decide) ?_
            refine Keeps.after (State.setQp_keeps _ _ _) (by decide) ?_
            exact Keeps.refl _ _

theorem State.sqRead_keeps (s : State) (n : Nat) (a2 : Nat) :
    Keeps [.regs, .evt, .evr, .chans, .med, .bench, .xlt, .twin, .cxl, .rdma, .sec, .out, .fresh] s (State.sqRead s n a2) := by
  induction a2 generalizing s n
  · unfold State.sqRead
    exact Keeps.refl _ _
  · rename_i x ih
    unfold State.sqRead
    extract_lets -merge +onlyGivenNames x1
    split
    · exact Keeps.refl _ _
    · refine Keeps.ite (fun _ => ?_) (fun _ => ?_)
      · exact Keeps.refl _ _
      · extract_lets -merge +onlyGivenNames x2
        split
        · exact Keeps.refl _ _
        · split
          · refine Keeps.after (State.wantLine_keeps _ _ _ _) (by decide) ?_
            exact Keeps.refl _ _
          · refine Keeps.trans ?_ (ih _ _)
            refine Keeps.after (State.setQp_keeps _ _ _) (by decide) ?_
            exact Keeps.refl _ _

theorem State.sqRun_keeps (s : State) (n : Nat) :
    Keeps [.regs, .evt, .evr, .chans, .med, .bench, .xlt, .twin, .cxl, .rdma, .sec, .out, .fresh] s (State.sqRun s n) := by
  unfold State.sqRun
  extract_lets -merge +onlyGivenNames x1
  refine Keeps.ite (fun _ => ?_) (fun _ => ?_)
  · exact Keeps.refl _ _
  · extract_lets -merge +onlyGivenNames x2
    refine Keeps.of_let x2 ?_ (fun h2 => ?_)
    · unfold x2
      refine Keeps.after (State.sqRead_keeps _ _ _) (by decide) ?_
      exact Keeps.refl _ _
    · extract_lets -merge +onlyGivenNames x3
      refine Keeps.of_let x3 ?_ (fun h3 => ?_)
      · unfold x3
        refine Keeps.after (State.flightEnd_keeps _ _ _) (by decide) ?_
        exact h2
      · refine Keeps.after (State.sqSend_keeps _ _ _) (by decide) ?_
        exact h3

theorem State.settleRdma_keeps (s : State) :
    Keeps [.regs, .evt, .evr, .chans, .med, .bench, .xlt, .twin, .cxl, .rdma, .sec, .out, .fresh] s (State.settleRdma s) := by
  unfold State.settleRdma
  extract_lets -merge +onlyGivenNames x1
  refine Keeps.of_let x1 ?_ (fun h1 => ?_)
  · unfold x1
    refine Keeps.after (State.settle_keeps _) (by decide) ?_
    exact Keeps.refl _ _
  · refine Keeps.after (State.settle_keeps _) (by decide) ?_
    refine Keeps.foldl _ (fun _ _ => ?_) ?_
    · refine Keeps.after (State.sqRun_keeps _ _) (by decide) ?_
      exact Keeps.refl _ _
    · exact h1

theorem State.resend_keeps (s : State) (n : Nat) :
    Keeps [.regs, .evt, .evr, .chans, .med, .bench, .xlt, .twin, .cxl, .rdma, .sec, .out, .fresh] s (State.resend s n) := by
  unfold State.resend
  refine Keeps.foldl _ (fun _ _ => ?_) ?_
  · refine Keeps.ite (fun _ => ?_) (fun _ => ?_)
    · exact Keeps.refl _ _
    · refine Keeps.after (State.wqeSend_keeps _ _ _ _) (by decide) ?_
      exact Keeps.refl _ _
  · exact Keeps.refl _ _

theorem State.judgeRdm_keeps (s : State) :
    Keeps [.regs, .evt, .evr, .chans, .cxl, .out] s (State.judgeRdm s) := by
  unfold State.judgeRdm
  refine Keeps.after (State.level_keeps _ _ _ _ _ _ _) (by decide) ?_
  exact Keeps.refl _ _

/-! ### Rdma -/

theorem execRdmaWrite_ends (n : Fin 65536) (k : WritePkt) (s : State) :
    Ends [.regs, .evt, .tally, .evr, .psq, .chans, .med, .bench, .xlt, .twin, .cxl, .rdma, .sec, .out, .fresh] s (execRdmaWrite n k s) := by
  unfold execRdmaWrite
  refine Ends.next ?_
  refine Keeps.after (State.writePacket_keeps _ _ _ _) (by decide) ?_
  exact Keeps.refl _ _

theorem execRdmaWriteImm_ends (n : Fin 65536) (k : WritePkt) (imm : Word) (s : State) :
    Ends [.regs, .evt, .tally, .evr, .psq, .chans, .med, .bench, .xlt, .twin, .cxl, .rdma, .sec, .out, .fresh] s (execRdmaWriteImm n k imm s) := by
  unfold execRdmaWriteImm
  refine Ends.next ?_
  refine Keeps.after (State.writePacket_keeps _ _ _ _) (by decide) ?_
  exact Keeps.refl _ _

theorem State.readTurn_keeps (s : State) (n : Nat) (psn : BitVec 24) (key : Word) (va : Nat) (len : Nat) :
    Keeps [.regs, .evt, .evr, .chans, .cxl, .rdma, .out] s (State.readTurn s n psn key va len) := by
  unfold State.readTurn
  extract_lets -merge +onlyGivenNames x1
  refine Keeps.ite (fun _ => ?_) (fun _ => ?_)
  · refine Keeps.after (State.qpFatal_keeps _ _ _ _ _ _) (by decide) ?_
    exact Keeps.refl _ _
  · refine Keeps.ite (fun _ => ?_) (fun _ => ?_)
    · refine Keeps.after (State.nak_keeps _ _ _ _) (by decide) ?_
      exact Keeps.refl _ _
    · split
      · refine Keeps.ite (fun _ => ?_) (fun _ => ?_)
        · refine Keeps.after (State.qpFatal_keeps _ _ _ _ _ _) (by decide) ?_
          exact Keeps.refl _ _
        · refine Keeps.after (State.qpFatal_keeps _ _ _ _ _ _) (by decide) ?_
          exact Keeps.refl _ _
      · refine Keeps.ite (fun _ => ?_) (fun _ => ?_)
        · refine Keeps.after (State.qpFatal_keeps _ _ _ _ _ _) (by decide) ?_
          exact Keeps.refl _ _
        · refine Keeps.after (State.enqueue_keeps _ _ _ _ _ _) (by decide) ?_
          refine Keeps.after (State.useWindow_keeps _ _ _) (by decide) ?_
          exact Keeps.refl _ _

theorem State.readAgain_keeps (s : State) (n : Nat) (psn : BitVec 24) (key : Word) (va : Nat) (len : Nat) (r : Option Remembered) :
    Keeps [.regs, .evt, .evr, .chans, .med, .bench, .xlt, .twin, .cxl, .rdma, .sec, .out, .fresh] s (State.readAgain s n psn key va len r) := by
  unfold State.readAgain
  split
  · refine Keeps.after (State.emit_keeps _ _) (by decide) ?_
    exact Keeps.refl _ _
  · refine Keeps.ite (fun _ => ?_) (fun _ => ?_)
    · exact Keeps.refl _ _
    · split
      · refine Keeps.after (State.qpFatal_keeps _ _ _ _ _ _) (by decide) ?_
        exact Keeps.refl _ _
      · refine Keeps.ite (fun _ => ?_) (fun _ => ?_)
        · refine Keeps.after (State.qpFatal_keeps _ _ _ _ _ _) (by decide) ?_
          exact Keeps.refl _ _
        · refine Keeps.ite (fun _ => ?_) (fun _ => ?_)
          · refine Keeps.after (State.qpFatal_keeps _ _ _ _ _ _) (by decide) ?_
            exact Keeps.refl _ _
          · refine Keeps.after (State.readStart_keeps _ _ _ _ _ _) (by decide) ?_
            exact Keeps.refl _ _

theorem State.atomicTurn_keeps (s : State) (n : Nat) (psn : BitVec 24) (key : Word) (va : Nat) (op : Nat → Atomic) :
    Keeps [.regs, .evt, .evr, .chans, .bench, .twin, .cxl, .rdma, .out] s (State.atomicTurn s n psn key va op) := by
  unfold State.atomicTurn
  extract_lets -merge +onlyGivenNames x1
  refine Keeps.ite (fun _ => ?_) (fun _ => ?_)
  · refine Keeps.after (State.qpFatal_keeps _ _ _ _ _ _) (by decide) ?_
    exact Keeps.refl _ _
  · refine Keeps.ite (fun _ => ?_) (fun _ => ?_)
    · refine Keeps.after (State.qpFatal_keeps _ _ _ _ _ _) (by decide) ?_
      exact Keeps.refl _ _
    · split
      · refine Keeps.after (State.qpFatal_keeps _ _ _ _ _ _) (by decide) ?_
        exact Keeps.refl _ _
      · split
        · refine Keeps.after (State.qpFatal_keeps _ _ _ _ _ _) (by decide) ?_
          exact Keeps.refl _ _
        · extract_lets -merge +onlyGivenNames x2
          split
          · refine Keeps.after (State.refuseHost_keeps _ _ _) (by decide) ?_
            exact Keeps.refl _ _
          · refine Keeps.after (State.rnrNak_keeps _ _ _) (by decide) ?_
            exact Keeps.refl _ _
          · refine Keeps.after (State.enqueue_keeps _ _ _ _ _ _) (by decide) ?_
            refine Keeps.after (State.useWindow_keeps _ _ _) (by decide) ?_
            exact Keeps.refl _ _

theorem State.atomicAgain_keeps (s : State) (n : Nat) (psn : BitVec 24) (r : Option Remembered) :
    Keeps [.out] s (State.atomicAgain s n psn r) := by
  unfold State.atomicAgain
  split
  · refine Keeps.after (State.emit_keeps _ _) (by decide) ?_
    exact Keeps.refl _ _
  · refine Keeps.ite (fun _ => ?_) (fun _ => ?_)
    · refine Keeps.after (State.emit_keeps _ _) (by decide) ?_
      exact Keeps.refl _ _
    · exact Keeps.refl _ _

theorem execRdmaRead_ends (n : Fin 65536) (psn : BitVec 24) (key : Word) (va : Nat) (len : Nat) (ce : Bool) (icrc : Bool) (s : State) :
    Ends [.regs, .evt, .tally, .evr, .psq, .chans, .med, .bench, .xlt, .twin, .cxl, .rdma, .sec, .out, .fresh] s (execRdmaRead n psn key va len ce icrc s) := by
  unfold execRdmaRead
  refine Ends.next ?_
  refine Keeps.trans ?_ (State.request_keeps (by decide) (fun _ => ?_) (fun _ _ => ?_))
  · exact Keeps.refl _ _
  · refine Keeps.after (State.readTurn_keeps _ _ _ _ _ _) (by decide) ?_
    exact Keeps.refl _ _
  · refine Keeps.after (State.readAgain_keeps _ _ _ _ _ _ _) (by decide) ?_
    exact Keeps.refl _ _

theorem execRdmaCmpswap_ends (n : Fin 65536) (psn : BitVec 24) (key : Word) (va : Nat) (compare : BitVec 64) (swap : BitVec 64) (ce : Bool) (icrc : Bool) (s : State) :
    Ends [.regs, .evt, .tally, .evr, .psq, .chans, .med, .bench, .xlt, .twin, .cxl, .rdma, .sec, .out, .fresh] s (execRdmaCmpswap n psn key va compare swap ce icrc s) := by
  unfold execRdmaCmpswap
  refine Ends.next ?_
  refine Keeps.trans ?_ (State.request_keeps (by decide) (fun _ => ?_) (fun _ _ => ?_))
  · exact Keeps.refl _ _
  · refine Keeps.after (State.atomicTurn_keeps _ _ _ _ _ _) (by decide) ?_
    exact Keeps.refl _ _
  · refine Keeps.after (State.atomicAgain_keeps _ _ _ _) (by decide) ?_
    exact Keeps.refl _ _

theorem execRdmaFetchadd_ends (n : Fin 65536) (psn : BitVec 24) (key : Word) (va : Nat) (add : BitVec 64) (ce : Bool) (icrc : Bool) (s : State) :
    Ends [.regs, .evt, .tally, .evr, .psq, .chans, .med, .bench, .xlt, .twin, .cxl, .rdma, .sec, .out, .fresh] s (execRdmaFetchadd n psn key va add ce icrc s) := by
  unfold execRdmaFetchadd
  refine Ends.next ?_
  refine Keeps.trans ?_ (State.request_keeps (by decide) (fun _ => ?_) (fun _ _ => ?_))
  · exact Keeps.refl _ _
  · refine Keeps.after (State.atomicTurn_keeps _ _ _ _ _ _) (by decide) ?_
    exact Keeps.refl _ _
  · refine Keeps.after (State.atomicAgain_keeps _ _ _ _) (by decide) ?_
    exact Keeps.refl _ _

theorem execRdmaAtomicWrite_ends (n : Fin 65536) (psn : BitVec 24) (key : Word) (va : Nat) (d : BitVec 64) (ce : Bool) (icrc : Bool) (s : State) :
    Ends [.regs, .evt, .tally, .evr, .psq, .chans, .med, .bench, .xlt, .twin, .cxl, .rdma, .sec, .out, .fresh] s (execRdmaAtomicWrite n psn key va d ce icrc s) := by
  unfold execRdmaAtomicWrite
  refine Ends.next ?_
  refine Keeps.trans ?_ (State.request_keeps (by decide) (fun _ => ?_) (fun _ _ => ?_))
  · exact Keeps.refl _ _
  · refine Keeps.ite (fun _ => ?_) (fun _ => ?_)
    · refine Keeps.after (State.qpFatal_keeps _ _ _ _ _ _) (by decide) ?_
      exact Keeps.refl _ _
    · refine Keeps.after (State.writeNext_keeps _ _ _ _) (by decide) ?_
      exact Keeps.refl _ _
  · split
    · refine Keeps.ite (fun _ => ?_) (fun _ => ?_)
      · refine Keeps.after (State.emit_keeps _ _) (by decide) ?_
        exact Keeps.refl _ _
      · exact Keeps.refl _ _
    · refine Keeps.after (State.emit_keeps _ _) (by decide) ?_
      exact Keeps.refl _ _

theorem execRdmaFlush_ends (n : Fin 65536) (psn : BitVec 24) (key : Word) (va : Nat) (len : Nat) (ce : Bool) (icrc : Bool) (s : State) :
    Ends [.regs, .evt, .tally, .evr, .psq, .chans, .med, .bench, .xlt, .twin, .cxl, .rdma, .sec, .out, .fresh] s (execRdmaFlush n psn key va len ce icrc s) := by
  unfold execRdmaFlush
  refine Ends.next ?_
  refine Keeps.trans ?_ (State.request_keeps (by decide) (fun _ => ?_) (fun _ _ => ?_))
  · exact Keeps.refl _ _
  · split
    · refine Keeps.after (State.qpFatal_keeps _ _ _ _ _ _) (by decide) ?_
      exact Keeps.refl _ _
    · refine Keeps.after (State.enqueue_keeps _ _ _ _ _ _) (by decide) ?_
      refine Keeps.after (State.useWindow_keeps _ _ _) (by decide) ?_
      exact Keeps.refl _ _
  · split
    · refine Keeps.ite (fun _ => ?_) (fun _ => ?_)
      · refine Keeps.after (State.emit_keeps _ _) (by decide) ?_
        exact Keeps.refl _ _
      · exact Keeps.refl _ _
    · refine Keeps.after (State.emit_keeps _ _) (by decide) ?_
      exact Keeps.refl _ _

theorem execRdmaUnsupportedPacket_ends (m : Fin 32) (n : Option (Fin 65536)) (psn : BitVec 24) (s : State) :
    Ends [.regs, .out] s (execRdmaUnsupportedPacket m n psn s) := by
  unfold execRdmaUnsupportedPacket
  refine Ends.ite (fun _ => ?_) (fun _ => ?_)
  · refine Ends.next ?_
    exact Keeps.refl _ _
  · split
    · refine Ends.next ?_
      refine Keeps.after (State.macDrop_keeps _ _) (by decide) ?_
      exact Keeps.refl _ _
    · refine Ends.ite (fun _ => ?_) (fun _ => ?_)
      · refine Ends.next ?_
        refine Keeps.after (State.macDrop_keeps _ _) (by decide) ?_
        exact Keeps.refl _ _
      · refine Ends.next ?_
        refine Keeps.after (State.nak_keeps _ _ _ _) (by decide) ?_
        exact Keeps.refl _ _

theorem execSprayHoleTimeout_ends (n : Fin 65536) (s : State) :
    Ends [.regs, .evt, .evr, .chans, .cxl, .out] s (execSprayHoleTimeout n s) := by
  unfold execSprayHoleTimeout
  extract_lets -merge +onlyGivenNames x1
  refine Ends.ite (fun _ => ?_) (fun _ => ?_)
  · refine Ends.next ?_
    exact Keeps.refl _ _
  · extract_lets -merge +onlyGivenNames x2
    refine Ends.next ?_
    refine Keeps.after (State.emit_keeps _ _) (by decide) ?_
    refine Keeps.after (State.cause_keeps _ _ _ _ _) (by decide) ?_
    refine Keeps.after (State.bump_keeps _ _ _ _ _ _) (by decide) ?_
    exact Keeps.refl _ _

theorem State.peerNak_keeps (s : State) (n : Nat) (psn : BitVec 24) (code : Fin 5) :
    Keeps [.regs, .evt, .evr, .chans, .med, .bench, .xlt, .twin, .cxl, .rdma, .sec, .out, .fresh] s (State.peerNak s n psn code) := by
  unfold State.peerNak
  extract_lets -merge +onlyGivenNames x1
  refine Keeps.of_let x1 ?_ (fun h1 => ?_)
  · unfold x1
    refine Keeps.after (State.setQp_keeps _ _ _) (by decide) ?_
    exact Keeps.refl _ _
  · extract_lets -merge +onlyGivenNames x2
    refine Keeps.of_let x2 ?_ (fun h2 => ?_)
    · unfold x2
      refine Keeps.after (State.flightEnd_keeps _ _ _) (by decide) ?_
      exact h1
    · refine Keeps.ite (fun _ => ?_) (fun _ => ?_)
      · refine Keeps.after (State.resend_keeps _ _) (by decide) ?_
        exact h2
      · refine Keeps.ite (fun _ => ?_) (fun _ => ?_)
        · exact h2
        · refine Keeps.after (State.sqFail_keeps _ _ _) (by decide) ?_
          exact h2

theorem execRdmaPeerNak_ends (n : Fin 65536) (psn : BitVec 24) (code : Fin 5) (s : State) :
    Ends [.regs, .evt, .evr, .chans, .med, .bench, .xlt, .twin, .cxl, .rdma, .sec, .out, .fresh] s (execRdmaPeerNak n psn code s) := by
  unfold execRdmaPeerNak
  extract_lets -merge +onlyGivenNames x1
  refine Ends.ite (fun _ => ?_) (fun _ => ?_)
  · refine Ends.next ?_
    exact Keeps.refl _ _
  · split
    · refine Ends.ite (fun _ => ?_) (fun _ => ?_)
      · refine Ends.next ?_
        refine Keeps.after (State.setQp_keeps _ _ _) (by decide) ?_
        exact Keeps.refl _ _
      · refine Ends.ite (fun _ => ?_) (fun _ => ?_)
        · refine Ends.next ?_
          exact Keeps.refl _ _
        · refine Ends.next ?_
          refine Keeps.after (State.cause_keeps _ _ _ _ _) (by decide) ?_
          refine Keeps.after (State.setQp_keeps _ _ _) (by decide) ?_
          exact Keeps.refl _ _
    · refine Ends.next ?_
      refine Keeps.after (State.settleRdma_keeps _) (by decide) ?_
      refine Keeps.after (State.peerNak_keeps _ _ _ _) (by decide) ?_
      exact Keeps.refl _ _

theorem execRdmaReadResponse_ends (n : Fin 65536) (psn : BitVec 24) (off : Nat) (data : List Byte) (last : Bool) (s : State) :
    Ends [.regs, .evt, .evr, .chans, .med, .bench, .xlt, .twin, .cxl, .rdma, .sec, .out, .fresh] s (execRdmaReadResponse n psn off data last s) := by
  unfold execRdmaReadResponse
  extract_lets -merge +onlyGivenNames x1
  refine Ends.ite (fun _ => ?_) (fun _ => ?_)
  · refine Ends.next ?_
    exact Keeps.refl _ _
  · split
    · refine Ends.next ?_
      exact Keeps.refl _ _
    · split
      · refine Ends.next ?_
        refine Keeps.after (State.settleRdma_keeps _) (by decide) ?_
        refine Keeps.after (State.sqFail_keeps _ _ _) (by decide) ?_
        exact Keeps.refl _ _
      · extract_lets -merge +onlyGivenNames x2
        extract_lets -merge +onlyGivenNames x3
        refine Ends.of_let x3 ?_ (fun h3 => ?_)
        · unfold x3
          refine Keeps.after (State.setQp_keeps _ _ _) (by decide) ?_
          exact Keeps.refl _ _
        · refine Ends.next ?_
          refine Keeps.after (State.settleRdma_keeps _) (by decide) ?_
          refine Keeps.foldl _ (fun _ _ => ?_) ?_
          · refine Keeps.after (State.submit_keeps _ _) (by decide) ?_
            exact Keeps.refl _ _
          · exact h3

theorem execRequesterAckTimeout_ends (n : Fin 65536) (s : State) :
    Ends [.regs, .evt, .evr, .chans, .med, .bench, .xlt, .twin, .cxl, .rdma, .sec, .out, .fresh] s (execRequesterAckTimeout n s) := by
  unfold execRequesterAckTimeout
  extract_lets -merge +onlyGivenNames x1
  refine Ends.ite (fun _ => ?_) (fun _ => ?_)
  · refine Ends.next ?_
    exact Keeps.refl _ _
  · split
    · split
      · refine Ends.next ?_
        exact Keeps.refl _ _
      · refine Ends.ite (fun _ => ?_) (fun _ => ?_)
        · refine Ends.next ?_
          refine Keeps.after (State.emit_keeps _ _) (by decide) ?_
          refine Keeps.after (State.setQp_keeps _ _ _) (by decide) ?_
          exact Keeps.refl _ _
        · refine Ends.next ?_
          refine Keeps.after (State.cause_keeps _ _ _ _ _) (by decide) ?_
          refine Keeps.after (State.setQp_keeps _ _ _) (by decide) ?_
          exact Keeps.refl _ _
    · refine Ends.ite (fun _ => ?_) (fun _ => ?_)
      · refine Ends.next ?_
        exact Keeps.refl _ _
      · refine Ends.ite (fun _ => ?_) (fun _ => ?_)
        · refine Ends.next ?_
          refine Keeps.after (State.resend_keeps _ _) (by decide) ?_
          refine Keeps.after (State.setQp_keeps _ _ _) (by decide) ?_
          exact Keeps.refl _ _
        · refine Ends.next ?_
          refine Keeps.after (State.settleRdma_keeps _) (by decide) ?_
          refine Keeps.after (State.sqFail_keeps _ _ _) (by decide) ?_
          exact Keeps.refl _ _

theorem execMgmtRnrRetry_ends (n : Fin 65536) (s : State) :
    Ends [.rdma, .out] s (execMgmtRnrRetry n s) := by
  unfold execMgmtRnrRetry
  extract_lets -merge +onlyGivenNames x1
  split
  · refine Ends.ite (fun _ => ?_) (fun _ => ?_)
    · split
      · refine Ends.next ?_
        refine Keeps.after (State.setQp_keeps _ _ _) (by decide) ?_
        exact Keeps.refl _ _
      · refine Ends.next ?_
        refine Keeps.after (State.emit_keeps _ _) (by decide) ?_
        refine Keeps.after (State.setQp_keeps _ _ _) (by decide) ?_
        exact Keeps.refl _ _
    · refine Ends.next ?_
      exact Keeps.refl _ _
  · refine Ends.next ?_
    exact Keeps.refl _ _

theorem execCnpReceived_ends (n : Fin 65536) (s : State) :
    Ends [.regs, .rdma] s (execCnpReceived n s) := by
  unfold execCnpReceived
  extract_lets -merge +onlyGivenNames x1
  refine Ends.ite (fun _ => ?_) (fun _ => ?_)
  · refine Ends.next ?_
    exact Keeps.refl _ _
  · extract_lets -merge +onlyGivenNames x2
    refine Ends.of_let x2 ?_ (fun h2 => ?_)
    · unfold x2
      refine Keeps.after (State.bump_keeps _ _ _ _ _ _) (by decide) ?_
      exact Keeps.refl _ _
    · refine Ends.ite (fun _ => ?_) (fun _ => ?_)
      · refine Ends.next ?_
        exact h2
      · extract_lets -merge +onlyGivenNames x3
        extract_lets -merge +onlyGivenNames x4
        refine Ends.next ?_
        refine Keeps.after (State.setQp_keeps _ _ _) (by decide) ?_
        exact h2

theorem execCcRateIncreaseTimer_ends (n : Fin 65536) (s : State) :
    Ends [.rdma] s (execCcRateIncreaseTimer n s) := by
  unfold execCcRateIncreaseTimer
  extract_lets -merge +onlyGivenNames x1
  refine Ends.ite (fun _ => ?_) (fun _ => ?_)
  · refine Ends.next ?_
    exact Keeps.refl _ _
  · refine Ends.next ?_
    refine Keeps.after (State.setQp_keeps _ _ _) (by decide) ?_
    exact Keeps.refl _ _

theorem State.cmRefuse_keeps (s : State) (r : State.DreqReason) :
    Keeps [.regs, .evt, .evr, .chans, .cxl, .out] s (State.cmRefuse s r) := by
  unfold State.cmRefuse
  refine Keeps.after (State.emit_keeps _ _) (by decide) ?_
  refine Keeps.after (State.cause_keeps _ _ _ _ _) (by decide) ?_
  exact Keeps.refl _ _

theorem State.cmAnswer_keeps (s : State) (r : CmReq) :
    Keeps [.regs, .evt, .evr, .chans, .cxl, .rdma, .out, .fresh] s (State.cmAnswer s r) := by
  unfold State.cmAnswer
  extract_lets -merge +onlyGivenNames x1
  refine Keeps.ite (fun _ => ?_) (fun _ => ?_)
  · refine Keeps.after (State.cmRefuse_keeps _ _) (by decide) ?_
    exact Keeps.refl _ _
  · extract_lets -merge +onlyGivenNames x2
    extract_lets -merge +onlyGivenNames x3
    refine Keeps.ite (fun _ => ?_) (fun _ => ?_)
    · refine Keeps.after (State.cmRefuse_keeps _ _) (by decide) ?_
      exact Keeps.refl _ _
    · refine Keeps.ite (fun _ => ?_) (fun _ => ?_)
      · refine Keeps.after (State.cmRefuse_keeps _ _) (by decide) ?_
        exact Keeps.refl _ _
      · split
        · refine Keeps.after (State.cmRefuse_keeps _ _) (by decide) ?_
          exact Keeps.refl _ _
        · extract_lets -merge +onlyGivenNames x4
          extract_lets -merge +onlyGivenNames x5
          refine Keeps.of_let x5 ?_ (fun h5 => ?_)
          · unfold x5
            refine Keeps.after (State.draw_keeps _) (by decide) ?_
            refine Keeps.after (State.setQp_keeps _ _ _) (by decide) ?_
            exact Keeps.refl _ _
          · refine Keeps.after (State.judgeRdm_keeps _) (by decide) ?_
            refine Keeps.after (State.emit_keeps _ _) (by decide) ?_
            refine Keeps.after (State.contextIn_keeps _ _) (by decide) ?_
            exact h5

theorem State.macAnswer_keeps (s : State) (a1 : MacAsk) :
    Keeps [.regs, .evt, .evr, .chans, .cxl, .rdma, .out, .fresh] s (State.macAnswer s a1) := by
  unfold State.macAnswer
  split
  · refine Keeps.after (State.cmAnswer_keeps _ _) (by decide) ?_
    exact Keeps.refl _ _
  · refine Keeps.ite (fun _ => ?_) (fun _ => ?_)
    · refine Keeps.after (State.emit_keeps _ _) (by decide) ?_
      exact Keeps.refl _ _
    · refine Keeps.after (State.macDrop_keeps _ _) (by decide) ?_
      exact Keeps.refl _ _
  · refine Keeps.ite (fun _ => ?_) (fun _ => ?_)
    · refine Keeps.after (State.emit_keeps _ _) (by decide) ?_
      exact Keeps.refl _ _
    · refine Keeps.after (State.macDrop_keeps _ _) (by decide) ?_
      exact Keeps.refl _ _
  · refine Keeps.ite (fun _ => ?_) (fun _ => ?_)
    · refine Keeps.after (State.emit_keeps _ _) (by decide) ?_
      exact Keeps.refl _ _
    · refine Keeps.after (State.macDrop_keeps _ _) (by decide) ?_
      exact Keeps.refl _ _
  · refine Keeps.ite (fun _ => ?_) (fun _ => ?_)
    · refine Keeps.after (State.judgeMac_keeps _ _) (by decide) ?_
      refine Keeps.after (State.emit_keeps _ _) (by decide) ?_
      refine Keeps.after (State.setMac_keeps _ _ _) (by decide) ?_
      exact Keeps.refl _ _
    · exact Keeps.refl _ _

theorem State.macAsk_keeps (s : State) (a : MacAsk) :
    Keeps [.regs, .evt, .tally, .evr, .psq, .chans, .med, .cxl, .rdma, .out, .fresh] s (State.macAsk s a) := by
  unfold State.macAsk
  extract_lets -merge +onlyGivenNames x1
  extract_lets -merge +onlyGivenNames x2
  refine Keeps.ite (fun _ => ?_) (fun _ => ?_)
  · exact Keeps.refl _ _
  · refine Keeps.ite (fun _ => ?_) (fun _ => ?_)
    · refine Keeps.after (State.macDrop_keeps _ _) (by decide) ?_
      exact Keeps.refl _ _
    · refine Keeps.ite (fun _ => ?_) (fun _ => ?_)
      · refine Keeps.after (State.macAnswer_keeps _ _) (by decide) ?_
        refine Keeps.after (State.wakeIdle_keeps _) (by decide) ?_
        exact Keeps.refl _ _
      · refine Keeps.ite (fun _ => ?_) (fun _ => ?_)
        · refine Keeps.set_rdma (by decide) ?_
          exact Keeps.refl _ _
        · exact Keeps.refl _ _

theorem State.macResume_keeps (s : State) :
    Keeps [.regs, .evt, .evr, .chans, .cxl, .rdma, .out, .fresh] s (State.macResume s) := by
  unfold State.macResume
  refine Keeps.foldl _ (fun _ _ => ?_) ?_
  · refine Keeps.after (State.macAnswer_keeps _ _) (by decide) ?_
    exact Keeps.refl _ _
  · refine Keeps.set_rdma (by decide) ?_
    exact Keeps.refl _ _

theorem execCmReq_ends (r : CmReq) (s : State) :
    Ends [.regs, .evt, .tally, .evr, .psq, .chans, .med, .cxl, .rdma, .out, .fresh] s (execCmReq r s) := by
  unfold execCmReq
  refine Ends.ite (fun _ => ?_) (fun _ => ?_)
  · refine Ends.next ?_
    refine Keeps.after (State.macAsk_keeps _ _) (by decide) ?_
    exact Keeps.refl _ _
  · refine Ends.next ?_
    exact Keeps.refl _ _

theorem execArpRequest_ends (m : Fin 32) (g : Fin 16) (s : State) :
    Ends [.regs, .evt, .tally, .evr, .psq, .chans, .med, .cxl, .rdma, .out, .fresh] s (execArpRequest m g s) := by
  unfold execArpRequest
  refine Ends.next ?_
  refine Keeps.after (State.macAsk_keeps _ _) (by decide) ?_
  exact Keeps.refl _ _

theorem execNeighborDiscovery_ends (m : Fin 32) (g : Fin 16) (s : State) :
    Ends [.regs, .evt, .tally, .evr, .psq, .chans, .med, .cxl, .rdma, .out, .fresh] s (execNeighborDiscovery m g s) := by
  unfold execNeighborDiscovery
  refine Ends.next ?_
  refine Keeps.after (State.macAsk_keeps _ _) (by decide) ?_
  exact Keeps.refl _ _

theorem execIcmpEcho_ends (m : Fin 32) (g : Fin 16) (s : State) :
    Ends [.regs, .evt, .tally, .evr, .psq, .chans, .med, .cxl, .rdma, .out, .fresh] s (execIcmpEcho m g s) := by
  unfold execIcmpEcho
  refine Ends.next ?_
  refine Keeps.after (State.macAsk_keeps _ _) (by decide) ?_
  exact Keeps.refl _ _

theorem execMkaFrame_ends (m : Fin 32) (sc : Fin 64) (an : Fin 2) (sa : Bool) (s : State) :
    Ends [.regs, .evt, .tally, .evr, .psq, .chans, .med, .cxl, .rdma, .out, .fresh] s (execMkaFrame m sc an sa s) := by
  unfold execMkaFrame
  refine Ends.next ?_
  refine Keeps.after (State.macAsk_keeps _ _) (by decide) ?_
  exact Keeps.refl _ _

theorem execPfcFrame_ends (p : Fin 8) (prio : Fin 8) (pause : Bool) (s : State) :
    Ends [.rdma] s (execPfcFrame p prio pause s) := by
  unfold execPfcFrame
  refine Ends.ite (fun _ => ?_) (fun _ => ?_)
  · refine Ends.next ?_
    refine Keeps.after (State.setEport_keeps _ _ _) (by decide) ?_
    exact Keeps.refl _ _
  · refine Ends.next ?_
    exact Keeps.refl _ _

theorem execPfcBufferLevel_ends (p : Fin 8) (free : Fin 4097) (s : State) :
    Ends [.rdma, .out] s (execPfcBufferLevel p free s) := by
  unfold execPfcBufferLevel
  refine Ends.ite (fun _ => ?_) (fun _ => ?_)
  · refine Ends.next ?_
    exact Keeps.refl _ _
  · extract_lets -merge +onlyGivenNames x1
    extract_lets -merge +onlyGivenNames x2
    extract_lets -merge +onlyGivenNames x3
    extract_lets -merge +onlyGivenNames x4
    refine Ends.of_let x4 ?_ (fun h4 => ?_)
    · unfold x4
      refine Keeps.after (State.setEport_keeps _ _ _) (by decide) ?_
      exact Keeps.refl _ _
    · refine Ends.ite (fun _ => ?_) (fun _ => ?_)
      · refine Ends.next ?_
        refine Keeps.after (State.emit_keeps _ _) (by decide) ?_
        refine Keeps.after (State.setEport_keeps _ _ _) (by decide) ?_
        exact h4
      · refine Ends.ite (fun _ => ?_) (fun _ => ?_)
        · refine Ends.next ?_
          refine Keeps.after (State.emit_keeps _ _) (by decide) ?_
          refine Keeps.after (State.setEport_keeps _ _ _) (by decide) ?_
          exact h4
        · refine Ends.next ?_
          exact h4

theorem execPfcStorm_ends (m : Fin 32) (s : State) :
    Ends [.regs, .evt, .evr, .chans, .cxl, .out] s (execPfcStorm m s) := by
  unfold execPfcStorm
  extract_lets -merge +onlyGivenNames x1
  refine Ends.ite (fun _ => ?_) (fun _ => ?_)
  · refine Ends.next ?_
    refine Keeps.after (State.cause_keeps _ _ _ _ _) (by decide) ?_
    exact Keeps.refl _ _
  · refine Ends.next ?_
    exact Keeps.refl _ _

theorem execIcvFail_ends (m : Fin 32) (s : State) :
    Ends [.regs, .evt, .evr, .chans, .cxl, .out] s (execIcvFail m s) := by
  unfold execIcvFail
  refine Ends.ite (fun _ => ?_) (fun _ => ?_)
  · refine Ends.next ?_
    refine Keeps.after (State.macDrop_keeps _ _) (by decide) ?_
    refine Keeps.after (State.cause_keeps _ _ _ _ _) (by decide) ?_
    exact Keeps.refl _ _
  · refine Ends.next ?_
    exact Keeps.refl _ _

theorem execMacLinkChange_ends (m : Fin 32) (up : Bool) (s : State) :
    Ends [.regs, .evt, .evr, .chans, .cxl, .rdma, .out] s (execMacLinkChange m up s) := by
  unfold execMacLinkChange
  refine Ends.ite (fun _ => ?_) (fun _ => ?_)
  · refine Ends.next ?_
    exact Keeps.refl _ _
  · extract_lets -merge +onlyGivenNames x1
    refine Ends.next ?_
    refine Keeps.after (State.judgeMac_keeps _ _) (by decide) ?_
    refine Keeps.after (State.setMac_keeps _ _ _) (by decide) ?_
    exact Keeps.refl _ _

/-! ### Cxl -/

theorem execCxlMemrd_ends (p : Fin 4) (l : Fin 16) (tag : Nat) (t : CxlTarget) (s : State) :
    Ends [.regs, .evt, .tally, .evr, .psq, .chans, .med, .bench, .xlt, .twin, .cxl, .rdma, .sec, .out, .fresh] s (execCxlMemrd p l tag t s) := by
  unfold execCxlMemrd
  refine Ends.next ?_
  refine Keeps.after (State.cxlRead_keeps _ _ _ _ _) (by decide) ?_
  exact Keeps.refl _ _

theorem execCxlMemspecrd_ends (p : Fin 4) (l : Fin 16) (t : CxlTarget) (s : State) :
    Ends [.regs, .evt, .tally, .evr, .psq, .chans, .med, .bench, .xlt, .twin, .cxl, .rdma, .sec, .out, .fresh] s (execCxlMemspecrd p l t s) := by
  unfold execCxlMemspecrd
  refine Ends.next ?_
  refine Keeps.after (State.cxlSpecRead_keeps _ _ _ _) (by decide) ?_
  exact Keeps.refl _ _

theorem execCxlMemwr_ends (p : Fin 4) (l : Fin 16) (tag : Nat) (t : CxlTarget) (d : Chunk) (poison : Bool) (s : State) :
    Ends [.regs, .evt, .tally, .evr, .psq, .chans, .med, .bench, .xlt, .twin, .cxl, .rdma, .sec, .dram, .out, .fresh] s (execCxlMemwr p l tag t d poison s) := by
  unfold execCxlMemwr
  refine Ends.next ?_
  refine Keeps.after (State.cxlWrite_keeps _ _ _ _ _ _ _ _) (by decide) ?_
  exact Keeps.refl _ _

theorem execCxlMemwrptl_ends (p : Fin 4) (l : Fin 16) (tag : Nat) (t : CxlTarget) (mask : BitVec 64) (d : Chunk) (poison : Bool) (s : State) :
    Ends [.regs, .evt, .tally, .evr, .psq, .chans, .med, .bench, .xlt, .twin, .cxl, .rdma, .sec, .dram, .out, .fresh] s (execCxlMemwrptl p l tag t mask d poison s) := by
  unfold execCxlMemwrptl
  refine Ends.next ?_
  refine Keeps.after (State.cxlWrite_keeps _ _ _ _ _ _ _ _) (by decide) ?_
  exact Keeps.refl _ _

theorem execCxlHoldTimeout_ends (p : Fin 4) (s : State) :
    Ends [.regs, .evt, .evr, .chans, .med, .bench, .xlt, .twin, .cxl, .rdma, .sec, .out, .fresh] s (execCxlHoldTimeout p s) := by
  unfold execCxlHoldTimeout
  refine Ends.ite (fun _ => ?_) (fun _ => ?_)
  · refine Ends.next ?_
    exact Keeps.refl _ _
  · split
    · refine Ends.next ?_
      exact Keeps.refl _ _
    · extract_lets -merge +onlyGivenNames x1
      extract_lets -merge +onlyGivenNames x2
      refine Ends.of_let x2 ?_ (fun h2 => ?_)
      · unfold x2
        refine Keeps.after (State.setBench_keeps _ _) (by decide) ?_
        exact Keeps.refl _ _
      · split
        · refine Ends.next ?_
          refine Keeps.after (State.settle_keeps _) (by decide) ?_
          refine Keeps.after (State.judgeCredits_keeps _) (by decide) ?_
          refine Keeps.after (State.cxlDrop_keeps _ _ _ _ _) (by decide) ?_
          exact h2
        · refine Ends.next ?_
          exact Keeps.refl _ _

theorem execCxlPortTrain_ends (p : Fin 4) (width : Fin 17) (speed : Fin 3) (flit256 : Bool) (flitLo : Bool) (mld : Bool) (lds : Fin 16) (s : State) :
    Ends [.regs, .evt, .evr, .chans, .cxl, .out] s (execCxlPortTrain p width speed flit256 flitLo mld lds s) := by
  unfold execCxlPortTrain
  refine Ends.ite (fun _ => ?_) (fun _ => ?_)
  · refine Ends.next ?_
    exact Keeps.refl _ _
  · extract_lets -merge +onlyGivenNames x1
    extract_lets -merge +onlyGivenNames x2
    extract_lets -merge +onlyGivenNames x3
    refine Ends.of_let x3 ?_ (fun h3 => ?_)
    · unfold x3
      refine Keeps.after (State.setCport_keeps _ _ _) (by decide) ?_
      exact Keeps.refl _ _
    · refine Ends.ite (fun _ => ?_) (fun _ => ?_)
      · refine Ends.next ?_
        refine Keeps.after (State.judgeCxl_keeps _) (by decide) ?_
        refine Keeps.after (State.setCport_keeps _ _ _) (by decide) ?_
        exact h3
      · extract_lets -merge +onlyGivenNames x4
        extract_lets -merge +onlyGivenNames x5
        extract_lets -merge +onlyGivenNames x6
        extract_lets -merge +onlyGivenNames x7
        refine Ends.next ?_
        refine Keeps.after (State.judgeCxl_keeps _) (by decide) ?_
        refine Keeps.after (State.setCport_keeps _ _ _) (by decide) ?_
        exact h3

theorem execGpfPhase2_ends (p : Fin 4) (us : BitVec 16) (s : State) :
    Ends [.regs, .evt, .evr, .chans, .med, .bench, .xlt, .twin, .cxl, .rdma, .sec, .out, .fresh] s (execGpfPhase2 p us s) := by
  unfold execGpfPhase2
  refine Ends.ite (fun _ => ?_) (fun _ => ?_)
  · refine Ends.next ?_
    refine Keeps.after (State.settle_keeps _) (by decide) ?_
    refine Keeps.after (State.setCport_keeps _ _ _) (by decide) ?_
    exact Keeps.refl _ _
  · refine Ends.next ?_
    exact Keeps.refl _ _

theorem execIdeFail_ends (p : Fin 4) (k : Fin 6) (s : State) :
    Ends [.regs, .evt, .evr, .chans, .cxl, .out] s (execIdeFail p k s) := by
  unfold execIdeFail
  refine Ends.ite (fun _ => ?_) (fun _ => ?_)
  · refine Ends.next ?_
    exact Keeps.refl _ _
  · extract_lets -merge +onlyGivenNames x1
    refine Ends.next ?_
    refine Keeps.after (State.cause_keeps _ _ _ _ _) (by decide) ?_
    refine Keeps.after (State.setCport_keeps _ _ _) (by decide) ?_
    exact Keeps.refl _ _

theorem execIdeKm_ends (p : Fin 4) (l : Fin 16) (session : Word) (k : Fin 6) (go : Bool) (s : State) :
    Ends [.cxl, .out] s (execIdeKm p l session k go s) := by
  unfold execIdeKm
  refine Ends.ite (fun _ => ?_) (fun _ => ?_)
  · refine Ends.next ?_
    exact Keeps.refl _ _
  · extract_lets -merge +onlyGivenNames x1
    refine Ends.next ?_
    refine Keeps.after (State.emit_keeps _ _) (by decide) ?_
    refine Keeps.after (State.setCport_keeps _ _ _) (by decide) ?_
    exact Keeps.refl _ _

theorem execDoeDiscovery_ends (p : Fin 4) (l : Fin 16) (s : State) :
    Ends [.out] s (execDoeDiscovery p l s) := by
  unfold execDoeDiscovery
  refine Ends.ite (fun _ => ?_) (fun _ => ?_)
  · refine Ends.next ?_
    refine Keeps.after (State.emit_keeps _ _) (by decide) ?_
    exact Keeps.refl _ _
  · refine Ends.next ?_
    exact Keeps.refl _ _

theorem execCdatRead_ends (p : Fin 4) (l : Fin 16) (s : State) :
    Ends [.out] s (execCdatRead p l s) := by
  unfold execCdatRead
  refine Ends.ite (fun _ => ?_) (fun _ => ?_)
  · refine Ends.next ?_
    refine Keeps.after (State.emit_keeps _ _) (by decide) ?_
    exact Keeps.refl _ _
  · refine Ends.next ?_
    exact Keeps.refl _ _

theorem execHdmDecoderCommit_ends (p : Fin 4) (l : Fin 16) (b : Fin 4) (d : Decoder) (s : State) :
    Ends [.cxl] s (execHdmDecoderCommit p l b d s) := by
  unfold execHdmDecoderCommit
  refine Ends.ite (fun _ => ?_) (fun _ => ?_)
  · refine Ends.next ?_
    exact Keeps.refl _ _
  · extract_lets -merge +onlyGivenNames x1
    extract_lets -merge +onlyGivenNames x2
    extract_lets -merge +onlyGivenNames x3
    refine Ends.ite (fun _ => ?_) (fun _ => ?_)
    · refine Ends.ite (fun _ => ?_) (fun _ => ?_)
      · refine Ends.next ?_
        exact Keeps.refl _ _
      · unfold x3
        refine Ends.next ?_
        refine Keeps.after (State.setLd_keeps _ _ _ _) (by decide) ?_
        exact Keeps.refl _ _
    · refine Ends.ite (fun _ => ?_) (fun _ => ?_)
      · unfold x3
        refine Ends.next ?_
        refine Keeps.after (State.setLd_keeps _ _ _ _) (by decide) ?_
        exact Keeps.refl _ _
      · extract_lets -merge +onlyGivenNames x4
        extract_lets -merge +onlyGivenNames x5
        unfold x3
        refine Ends.next ?_
        refine Keeps.after (State.setLd_keeps _ _ _ _) (by decide) ?_
        exact Keeps.refl _ _

theorem Ends.mailbox {w : List Part} {s : State} {p : Fin 4} {l : Fin 16} {k : State → State × Nat × List Nat}
    (hw : [.regs, .evt, .tally, .evr, .psq, .chans, .med, .cxl, .out] ⊆ w) (hk : ∀ u, Keeps w u (k u).1) : Ends w s (mailbox p l s k) := by
  unfold Machine.mailbox
  refine Ends.ite (fun _ => Ends.next ?_) (fun _ => Ends.next (Keeps.refl _ _))
  refine Keeps.after (State.emit_keeps _ _) (fun q hq => hw ?_) (Keeps.trans ((State.wakeIdle_keeps s).mono (fun q hq => hw ?_)) (hk _))
  · revert q; decide
  · revert q; decide

theorem execGetEventRecords_ends (p : Fin 4) (l : Fin 16) (k : LogKind) (s : State) :
    Ends [.regs, .evt, .tally, .evr, .psq, .chans, .med, .cxl, .out] s (execGetEventRecords p l k s) := by
  unfold execGetEventRecords
  refine Ends.mailbox (by decide) (fun _ => ?_)
  extract_lets -merge +onlyGivenNames x1
  dsimp only
  exact Keeps.refl _ _

theorem execClearEventRecords_ends (p : Fin 4) (l : Fin 16) (k : LogKind) (n : Option Nat) (s : State) :
    Ends [.regs, .evt, .tally, .evr, .psq, .chans, .med, .cxl, .out] s (execClearEventRecords p l k n s) := by
  unfold execClearEventRecords
  refine Ends.mailbox (by decide) (fun _ => ?_)
  extract_lets -merge +onlyGivenNames x1
  extract_lets -merge +onlyGivenNames x2
  extract_lets -merge +onlyGivenNames x3
  extract_lets -merge +onlyGivenNames x4
  dsimp only
  refine Keeps.after (State.setLd_keeps _ _ _ _) (by decide) ?_
  exact Keeps.refl _ _

theorem execGetEventInterruptPolicy_ends (p : Fin 4) (l : Fin 16) (s : State) :
    Ends [.regs, .evt, .tally, .evr, .psq, .chans, .med, .cxl, .out] s (execGetEventInterruptPolicy p l s) := by
  unfold execGetEventInterruptPolicy
  refine Ends.mailbox (by decide) (fun _ => ?_)
  dsimp only
  exact Keeps.refl _ _

theorem execSetEventInterruptPolicy_ends (p : Fin 4) (l : Fin 16) (k : LogKind) (vector : Fin 64) (s : State) :
    Ends [.regs, .evt, .tally, .evr, .psq, .chans, .med, .cxl, .out] s (execSetEventInterruptPolicy p l k vector s) := by
  unfold execSetEventInterruptPolicy
  refine Ends.mailbox (by decide) (fun _ => ?_)
  extract_lets -merge +onlyGivenNames x1
  dsimp only
  refine Keeps.after (State.setLd_keeps _ _ _ _) (by decide) ?_
  exact Keeps.refl _ _

theorem execGetFwInfo_ends (p : Fin 4) (l : Fin 16) (s : State) :
    Ends [.regs, .evt, .tally, .evr, .psq, .chans, .med, .cxl, .out] s (execGetFwInfo p l s) := by
  unfold execGetFwInfo
  refine Ends.mailbox (by decide) (fun _ => ?_)
  dsimp only
  exact Keeps.refl _ _

theorem execGetTimestamp_ends (p : Fin 4) (l : Fin 16) (s : State) :
    Ends [.regs, .evt, .tally, .evr, .psq, .chans, .med, .cxl, .out] s (execGetTimestamp p l s) := by
  unfold execGetTimestamp
  refine Ends.mailbox (by decide) (fun _ => ?_)
  dsimp only
  exact Keeps.refl _ _

theorem execSetTimestamp_ends (p : Fin 4) (l : Fin 16) (_ns : Nat) (s : State) :
    Ends [.regs, .evt, .tally, .evr, .psq, .chans, .med, .cxl, .out] s (execSetTimestamp p l _ns s) := by
  unfold execSetTimestamp
  refine Ends.mailbox (by decide) (fun _ => ?_)
  dsimp only
  exact Keeps.refl _ _

theorem execGetSupportedLogs_ends (p : Fin 4) (l : Fin 16) (s : State) :
    Ends [.regs, .evt, .tally, .evr, .psq, .chans, .med, .cxl, .out] s (execGetSupportedLogs p l s) := by
  unfold execGetSupportedLogs
  refine Ends.mailbox (by decide) (fun _ => ?_)
  dsimp only
  exact Keeps.refl _ _

theorem execGetLog_ends (p : Fin 4) (l : Fin 16) (s : State) :
    Ends [.regs, .evt, .tally, .evr, .psq, .chans, .med, .cxl, .out] s (execGetLog p l s) := by
  unfold execGetLog
  refine Ends.mailbox (by decide) (fun _ => ?_)
  dsimp only
  exact Keeps.refl _ _

theorem execIdentifyMemoryDevice_ends (p : Fin 4) (l : Fin 16) (s : State) :
    Ends [.regs, .evt, .tally, .evr, .psq, .chans, .med, .cxl, .out] s (execIdentifyMemoryDevice p l s) := by
  unfold execIdentifyMemoryDevice
  refine Ends.mailbox (by decide) (fun _ => ?_)
  dsimp only
  exact Keeps.refl _ _

theorem execGetHealthInfo_ends (p : Fin 4) (l : Fin 16) (s : State) :
    Ends [.regs, .evt, .tally, .evr, .psq, .chans, .med, .cxl, .out] s (execGetHealthInfo p l s) := by
  unfold execGetHealthInfo
  refine Ends.mailbox (by decide) (fun _ => ?_)
  dsimp only
  exact Keeps.refl _ _

theorem execSanitize_ends (p : Fin 4) (l : Fin 16) (s : State) :
    Ends [.regs, .evt, .tally, .nv, .evr, .psq, .chans, .med, .xlt, .twin, .cxl, .sec, .out] s (execSanitize p l s) := by
  unfold execSanitize
  refine Ends.mailbox (by decide) (fun _ => ?_)
  extract_lets -merge +onlyGivenNames x1
  extract_lets -merge +onlyGivenNames x2
  refine Keeps.ite_fst (fun _ => ?_) (fun _ => ?_)
  · dsimp only
    exact Keeps.refl _ _
  · refine Keeps.ite_fst (fun _ => ?_) (fun _ => ?_)
    · dsimp only
      exact Keeps.refl _ _
    · extract_lets -merge +onlyGivenNames x3
      refine Keeps.of_let x3 ?_ (fun h3 => ?_)
      · unfold x3
        refine Keeps.foldl _ (fun _ _ => ?_) ?_
        · refine Keeps.after (State.eraseBegin_keeps _ _) (by decide) ?_
          exact Keeps.refl _ _
        · exact Keeps.refl _ _
      · extract_lets -merge +onlyGivenNames x4
        extract_lets -merge +onlyGivenNames x5
        refine Keeps.of_let x5 ?_ (fun h5 => ?_)
        · unfold x5
          refine Keeps.after (State.setLd_keeps _ _ _ _) (by decide) ?_
          exact h3
        · dsimp only
          refine Keeps.set_cxl (by decide) ?_
          exact h5

theorem execBackgroundOperationComplete_ends (p : Fin 4) (l : Fin 16) (s : State) :
    Ends [.regs, .evt, .nv, .evr, .chans, .med, .bench, .xlt, .twin, .cxl, .rdma, .sec, .out, .fresh] s (execBackgroundOperationComplete p l s) := by
  unfold execBackgroundOperationComplete
  refine Ends.ite (fun _ => ?_) (fun _ => ?_)
  · refine Ends.next ?_
    exact Keeps.refl _ _
  · extract_lets -merge +onlyGivenNames x1
    extract_lets -merge +onlyGivenNames x2
    extract_lets -merge +onlyGivenNames x3
    refine Ends.of_let x3 ?_ (fun h3 => ?_)
    · unfold x3
      refine Keeps.set_cxl (by decide) ?_
      exact Keeps.refl _ _
    · extract_lets -merge +onlyGivenNames x4
      refine Ends.of_let x4 ?_ (fun h4 => ?_)
      · unfold x4
        refine Keeps.foldl _ (fun _ _ => ?_) ?_
        · refine Keeps.after (State.eraseEnd_keeps _ _) (by decide) ?_
          exact Keeps.refl _ _
        · exact h3
      · refine Ends.next ?_
        refine Keeps.after (State.msixSend_keeps _ _ _ _) (by decide) ?_
        refine Keeps.after (State.setLd_keeps _ _ _ _) (by decide) ?_
        exact h4

theorem execGetDcConfiguration_ends (p : Fin 4) (l : Fin 16) (s : State) :
    Ends [.regs, .evt, .tally, .evr, .psq, .chans, .med, .cxl, .out] s (execGetDcConfiguration p l s) := by
  unfold execGetDcConfiguration
  refine Ends.mailbox (by decide) (fun _ => ?_)
  dsimp only
  exact Keeps.refl _ _

theorem execGetDcExtentList_ends (p : Fin 4) (l : Fin 16) (s : State) :
    Ends [.regs, .evt, .tally, .evr, .psq, .chans, .med, .cxl, .out] s (execGetDcExtentList p l s) := by
  unfold execGetDcExtentList
  refine Ends.mailbox (by decide) (fun _ => ?_)
  dsimp only
  exact Keeps.refl _ _

theorem execAddDcResponse_ends (p : Fin 4) (l : Fin 16) (es : List DcExtent) (s : State) :
    Ends [.regs, .evt, .tally, .evr, .psq, .chans, .med, .cxl, .out] s (execAddDcResponse p l es s) := by
  unfold execAddDcResponse
  refine Ends.mailbox (by decide) (fun _ => ?_)
  extract_lets -merge +onlyGivenNames x1
  refine Keeps.ite_fst (fun _ => ?_) (fun _ => ?_)
  · dsimp only
    refine Keeps.after (State.cdatAdvance_keeps _ _) (by decide) ?_
    refine Keeps.after (State.setLd_keeps _ _ _ _) (by decide) ?_
    exact Keeps.refl _ _
  · dsimp only
    exact Keeps.refl _ _

theorem dcRelease_keeps (s : State) (p : Fin 4) (l : Fin 16) (e : DcExtent) :
    Keeps [.regs, .evt, .evr, .chans, .med, .bench, .xlt, .twin, .cxl, .rdma, .sec, .out, .fresh] s (dcRelease s p l e) := by
  unfold dcRelease
  extract_lets -merge +onlyGivenNames x1
  extract_lets -merge +onlyGivenNames x2
  refine Keeps.of_let x2 ?_ (fun h2 => ?_)
  · unfold x2
    refine Keeps.after (State.ldRecord_keeps _ _ _ _ _ _) (by decide) ?_
    refine Keeps.after (State.cdatAdvance_keeps _ _) (by decide) ?_
    refine Keeps.after (State.setLd_keeps _ _ _ _) (by decide) ?_
    exact Keeps.refl _ _
  · split
    · exact h2
    · extract_lets -merge +onlyGivenNames x3
      extract_lets -merge +onlyGivenNames x4
      refine Keeps.ite (fun _ => ?_) (fun _ => ?_)
      · exact h2
      · extract_lets -merge +onlyGivenNames x5
        refine Keeps.after (State.settle_keeps _) (by decide) ?_
        refine Keeps.foldl _ (fun _ _ => ?_) ?_
        · split
          · refine Keeps.after (State.zeroSett_keeps _ _) (by decide) ?_
            exact Keeps.refl _ _
          · exact Keeps.refl _ _
        · refine Keeps.after (State.sendAttr_keeps _ _ _) (by decide) ?_
          exact h2

theorem execDcRelease_ends (p : Fin 4) (l : Fin 16) (e : DcExtent) (s : State) :
    Ends [.regs, .evt, .evr, .chans, .med, .bench, .xlt, .twin, .cxl, .rdma, .sec, .out, .fresh] s (execDcRelease p l e s) := by
  unfold execDcRelease
  refine Ends.ite (fun _ => ?_) (fun _ => ?_)
  · refine Ends.next ?_
    refine Keeps.after (dcRelease_keeps _ _ _ _) (by decide) ?_
    exact Keeps.refl _ _
  · refine Ends.next ?_
    exact Keeps.refl _ _

theorem execReleaseDc_ends (p : Fin 4) (l : Fin 16) (es : List DcExtent) (s : State) :
    Ends [.regs, .evt, .tally, .evr, .psq, .chans, .med, .bench, .xlt, .twin, .cxl, .rdma, .sec, .out, .fresh] s (execReleaseDc p l es s) := by
  unfold execReleaseDc
  refine Ends.mailbox (by decide) (fun _ => ?_)
  refine Keeps.ite_fst (fun _ => ?_) (fun _ => ?_)
  · dsimp only
    refine Keeps.foldl _ (fun _ _ => ?_) ?_
    · refine Keeps.after (dcRelease_keeps _ _ _ _) (by decide) ?_
      exact Keeps.refl _ _
    · exact Keeps.refl _ _
  · dsimp only
    exact Keeps.refl _ _

/-! ### Twin -/

theorem Ends.onFrame {w : List Part} {s : State} {p : Bool} {f : TFrame} {k : State → State}
    (hw : [.regs, .evt, .evr, .chans, .twin, .cxl, .out] ⊆ w) (hk : ∀ u, Keeps w u (k u)) : Ends w s (onFrame s p f k) := by
  have h := (State.acceptFrame_keeps s p f).mono hw
  unfold Machine.onFrame
  split
  · rename_i s1 e
    rw [e] at h
    exact Ends.ite (fun _ => Ends.next (h.trans (hk _))) (fun _ => Ends.next h)
  · rename_i s1 e
    rw [e] at h
    exact Ends.next h

theorem Ends.onAnyFrame {w : List Part} {s : State} {p : Bool} {f : TFrame} {k : State → State}
    (hw : [.regs, .evt, .evr, .chans, .twin, .cxl, .out] ⊆ w) (hk : ∀ u, Keeps w u (k u)) : Ends w s (onAnyFrame s p f k) := by
  have h := (State.acceptFrame_keeps s p f).mono hw
  unfold Machine.onAnyFrame
  split
  · rename_i s1 e
    rw [e] at h
    exact Ends.next (h.trans (hk _))
  · rename_i s1 e
    rw [e] at h
    exact Ends.next h

theorem mirrorTake_keeps (s : State) (e : WEntry) :
    Keeps [.bench, .twin, .out] s (mirrorTake s e) := by
  unfold mirrorTake
  extract_lets -merge +onlyGivenNames x1
  extract_lets -merge +onlyGivenNames x2
  extract_lets -merge +onlyGivenNames x3
  refine Keeps.ite (fun _ => ?_) (fun _ => ?_)
  · refine Keeps.after (State.tsend_keeps _ _ _) (by decide) ?_
    exact Keeps.refl _ _
  · refine Keeps.ite (fun _ => ?_) (fun _ => ?_)
    · exact Keeps.refl _ _
    · refine Keeps.ite (fun _ => ?_) (fun _ => ?_)
      · refine Keeps.after (State.setBench_keeps _ _) (by decide) ?_
        exact Keeps.refl _ _
      · refine Keeps.ite (fun _ => ?_) (fun _ => ?_)
        · exact Keeps.refl _ _
        · refine Keeps.after (State.setBench_keeps _ _) (by decide) ?_
          exact Keeps.refl _ _

theorem execTandemMirror_ends (p : Bool) (f : TFrame) (es : List WEntry) (s : State) :
    Ends [.regs, .evt, .nv, .evr, .chans, .med, .bench, .xlt, .twin, .cxl, .rdma, .sec, .out, .fresh] s (execTandemMirror p f es s) := by
  unfold execTandemMirror
  refine Ends.onFrame (by decide) (fun _ => ?_)
  refine Keeps.after (State.settleTwin_keeps _) (by decide) ?_
  refine Keeps.after (State.resyncHeld_keeps _) (by decide) ?_
  refine Keeps.after (State.takeAttrs_keeps _ _) (by decide) ?_
  refine Keeps.after (State.settleTwin_keeps _) (by decide) ?_
  refine Keeps.foldl _ (fun _ _ => ?_) ?_
  · refine Keeps.after (mirrorTake_keeps _ _) (by decide) ?_
    exact Keeps.refl _ _
  · exact Keeps.refl _ _

theorem forwardTake_keeps (s : State) (e : WEntry) :
    Keeps [.regs, .evt, .evr, .chans, .med, .bench, .xlt, .twin, .cxl, .rdma, .out] s (forwardTake s e) := by
  unfold forwardTake
  refine Keeps.ite (fun _ => ?_) (fun _ => ?_)
  · exact Keeps.refl _ _
  · refine Keeps.ite (fun _ => ?_) (fun _ => ?_)
    · refine Keeps.after (State.tsend_keeps _ _ _) (by decide) ?_
      exact Keeps.refl _ _
    · refine Keeps.after (State.submit_keeps _ _) (by decide) ?_
      exact Keeps.refl _ _

theorem execTandemForward_ends (p : Bool) (f : TFrame) (es : List WEntry) (s : State) :
    Ends [.regs, .evt, .nv, .evr, .chans, .med, .bench, .xlt, .twin, .cxl, .rdma, .sec, .out, .fresh] s (execTandemForward p f es s) := by
  unfold execTandemForward
  refine Ends.onFrame (by decide) (fun _ => ?_)
  refine Keeps.after (State.settleTwin_keeps _) (by decide) ?_
  refine Keeps.foldl _ (fun _ _ => ?_) ?_
  · refine Keeps.after (forwardTake_keeps _ _) (by decide) ?_
    exact Keeps.refl _ _
  · exact Keeps.refl _ _

theorem peerLevels_keeps (s : State) (dirty : Nat) (c : Cap) :
    Keeps [.regs, .evt, .evr, .chans, .med, .xlt, .twin, .cxl, .out] s (peerLevels s dirty c) := by
  unfold peerLevels
  extract_lets -merge +onlyGivenNames x1
  extract_lets -merge +onlyGivenNames x2
  refine Keeps.of_let x2 ?_ (fun h2 => ?_)
  · unfold x2
    refine Keeps.after (State.setTwin_keeps _ _) (by decide) ?_
    exact Keeps.refl _ _
  · refine Keeps.after (State.judgeRed_keeps _) (by decide) ?_
    refine Keeps.after (State.judgeYrw_keeps _) (by decide) ?_
    refine Keeps.after (State.setYrw_keeps _ _) (by decide) ?_
    exact h2

theorem State.resyncCovered_keeps (s : State) (region : Nat) (ros : Nat) :
    Keeps [.twin] s (State.resyncCovered s region ros) := by
  unfold State.resyncCovered
  refine Keeps.after (State.setTwin_keeps _ _) (by decide) ?_
  exact Keeps.refl _ _

theorem execMirrorDone_ends (p : Bool) (f : TFrame) (dirty : Nat) (c : Cap) (region : Fin 4096) (ros : Nat) (s : State) :
    Ends [.regs, .evt, .nv, .evr, .chans, .med, .bench, .xlt, .twin, .cxl, .rdma, .sec, .out, .fresh] s (execMirrorDone p f dirty c region ros s) := by
  unfold execMirrorDone
  refine Ends.onFrame (by decide) (fun _ => ?_)
  extract_lets -merge +onlyGivenNames x1
  refine Keeps.of_let x1 ?_ (fun h1 => ?_)
  · unfold x1
    refine Keeps.after (peerLevels_keeps _ _ _) (by decide) ?_
    exact Keeps.refl _ _
  · extract_lets -merge +onlyGivenNames x2
    extract_lets -merge +onlyGivenNames x3
    refine Keeps.of_let x3 ?_ (fun h3 => ?_)
    · unfold x3
      refine Keeps.ite (fun _ => ?_) (fun _ => ?_)
      · refine Keeps.after (State.setRegion_keeps _ _ _) (by decide) ?_
        exact h1
      · exact h1
    · refine Keeps.after (State.settleTwin_keeps _) (by decide) ?_
      refine Keeps.after (State.resyncCovered_keeps _ _ _) (by decide) ?_
      refine Keeps.after (State.setBench_keeps _ _) (by decide) ?_
      exact h3

theorem execFwdDurable_ends (p : Bool) (f : TFrame) (dirty : Nat) (c : Cap) (ftag : BitVec 16) (count : BitVec 8) (s : State) :
    Ends [.regs, .evt, .nv, .evr, .chans, .med, .bench, .xlt, .twin, .cxl, .rdma, .sec, .out, .fresh] s (execFwdDurable p f dirty c ftag count s) := by
  unfold execFwdDurable
  refine Ends.onFrame (by decide) (fun _ => ?_)
  extract_lets -merge +onlyGivenNames x1
  refine Keeps.of_let x1 ?_ (fun h1 => ?_)
  · unfold x1
    refine Keeps.after (peerLevels_keeps _ _ _) (by decide) ?_
    exact Keeps.refl _ _
  · refine Keeps.ite (fun _ => ?_) (fun _ => ?_)
    · exact h1
    · extract_lets -merge +onlyGivenNames x2
      extract_lets -merge +onlyGivenNames x3
      extract_lets -merge +onlyGivenNames x4
      extract_lets -merge +onlyGivenNames x5
      refine Keeps.of_let x5 ?_ (fun h5 => ?_)
      · unfold x5
        refine Keeps.after (State.setBench_keeps _ _) (by decide) ?_
        exact h1
      · refine Keeps.after (State.settleTwin_keeps _) (by decide) ?_
        refine Keeps.foldl _ (fun _ _ => ?_) ?_
        · refine Keeps.after (State.ackHost_keeps _ _) (by decide) ?_
          exact Keeps.refl _ _
        · exact h5

theorem execFwdRefused_ends (p : Bool) (f : TFrame) (dirty : Nat) (c : Cap) (ftag : BitVec 16) (status : BitVec 16) (s : State) :
    Ends [.regs, .evt, .nv, .evr, .chans, .med, .bench, .xlt, .twin, .cxl, .rdma, .sec, .out, .fresh] s (execFwdRefused p f dirty c ftag status s) := by
  unfold execFwdRefused
  refine Ends.onFrame (by decide) (fun _ => ?_)
  extract_lets -merge +onlyGivenNames x1
  refine Keeps.of_let x1 ?_ (fun h1 => ?_)
  · unfold x1
    refine Keeps.after (peerLevels_keeps _ _ _) (by decide) ?_
    exact Keeps.refl _ _
  · split
    · exact h1
    · extract_lets -merge +onlyGivenNames x2
      refine Keeps.after (State.settleTwin_keeps _) (by decide) ?_
      refine Keeps.after (State.refuseHost_keeps _ _ _) (by decide) ?_
      refine Keeps.after (State.setBench_keeps _ _) (by decide) ?_
      exact h1

theorem execTandemReadAssistRequest_ends (p : Bool) (f : TFrame) (rtag : Word) (region : Fin 4096) (line : Nat) (count : Nat) (s : State) :
    Ends [.regs, .evt, .evr, .chans, .med, .bench, .xlt, .twin, .cxl, .rdma, .sec, .out, .fresh] s (execTandemReadAssistRequest p f rtag region line count s) := by
  unfold execTandemReadAssistRequest
  refine Ends.onFrame (by decide) (fun _ => ?_)
  extract_lets -merge +onlyGivenNames x1
  extract_lets -merge +onlyGivenNames x2
  refine Keeps.ite (fun _ => ?_) (fun _ => ?_)
  · exact Keeps.refl _ _
  · refine Keeps.ite (fun _ => ?_) (fun _ => ?_)
    · refine Keeps.foldl _ (fun _ _ => ?_) ?_
      · refine Keeps.after (State.tsend_keeps _ _ _) (by decide) ?_
        exact Keeps.refl _ _
      · exact Keeps.refl _ _
    · extract_lets -merge +onlyGivenNames x3
      extract_lets -merge +onlyGivenNames x4
      refine Keeps.of_let x4 ?_ (fun h4 => ?_)
      · unfold x4
        refine Keeps.after (State.setTwin_keeps _ _) (by decide) ?_
        exact Keeps.refl _ _
      · refine Keeps.after (State.settle_keeps _) (by decide) ?_
        refine Keeps.foldl _ (fun _ _ => ?_) ?_
        · refine Keeps.after (State.serveRead_keeps _ _) (by decide) ?_
          exact Keeps.refl _ _
        · exact h4

theorem rebuildLine_keeps (s : State) (x : Nat) (st : AssistStatus) :
    Keeps [.regs, .evt, .evr, .chans, .med, .bench, .xlt, .cxl, .out] s (rebuildLine s x st) := by
  unfold rebuildLine
  extract_lets -merge +onlyGivenNames x1
  split
  · exact Keeps.refl _ _
  · refine Keeps.ite (fun _ => ?_) (fun _ => ?_)
    · exact Keeps.refl _ _
    · split
      · refine Keeps.after (State.moveProgram_keeps _ _ _ _) (by decide) ?_
        exact Keeps.refl _ _
      · refine Keeps.after (State.moveProgram_keeps _ _ _ _) (by decide) ?_
        exact Keeps.refl _ _
      · refine Keeps.after (State.moveAbandon_keeps _ _ _) (by decide) ?_
        exact Keeps.refl _ _
      · split
        extract_lets -merge +onlyGivenNames x2
        refine Keeps.after (State.moveProgram_keeps _ _ _ _) (by decide) ?_
        refine Keeps.ite (fun _ => ?_) (fun _ => ?_)
        · exact Keeps.refl _ _
        · refine Keeps.after (State.lose_keeps _ _ _ _) (by decide) ?_
          exact Keeps.refl _ _

theorem assistLine_keeps (s : State) (x : Nat) (st : AssistStatus) (heal : Bool) : Keeps [.regs, .evt, .evr, .chans, .med, .bench, .xlt, .twin, .cxl, .rdma, .sec, .out, .fresh] s (assistLine s x st heal) := by
  have ht (d : Line) : Keeps [.regs, .evt, .evr, .chans, .med, .bench, .xlt, .twin, .cxl, .rdma, .sec, .out, .fresh] s (if heal then s.recovered x d false else (s.installLine x d false false).answerReads x (some d)) :=
    Keeps.ite (fun _ => (State.recovered_keeps _ _ _ _).mono (by decide))
      (fun _ => Keeps.after (State.answerReads_keeps _ _ _) (by decide) ((State.installLine_keeps _ _ _ _ _).mono (by decide)))
  have hn : Keeps [.regs, .evt, .evr, .chans, .med, .bench, .xlt, .twin, .cxl, .rdma, .sec, .out, .fresh] s (if heal then s.unrecovered x else s.answerReads x none) :=
    Keeps.ite (fun _ => (State.unrecovered_keeps _ _).mono (by decide)) (fun _ => (State.answerReads_keeps _ _ _).mono (by decide))
  unfold assistLine
  cases st with
  | data d => exact ht d
  | zero => exact ht 0
  | unrecovered => exact hn
  | notHeld => exact hn

theorem awaitLine_keeps (s : State) (region : Nat) (x : Nat) (st : AssistStatus) : Keeps [.regs, .evt, .evr, .chans, .med, .bench, .xlt, .twin, .cxl, .sec, .out, .fresh] s (awaitLine s region x st) := by
  have h1 : Keeps [.regs, .evt, .evr, .chans, .med, .bench, .xlt, .twin, .cxl, .sec, .out, .fresh] s (s.setBench { s.bench with awaits := s.bench.awaits.erase x }) := (State.setBench_keeps _ _).mono (by decide)
  have hd (d : Line) : Keeps [.regs, .evt, .evr, .chans, .med, .bench, .xlt, .twin, .cxl, .sec, .out, .fresh] s (((s.setBench { s.bench with awaits := s.bench.awaits.erase x }).unlose (s.rlineOf x).1
      (s.rlineOf x).2).installLine x d true false) :=
    Keeps.after (State.installLine_keeps _ _ _ _ _) (by decide) (Keeps.after (State.unlose_keeps _ _ _) (by decide) h1)
  have hend (s2 : State) (h2 : Keeps [.regs, .evt, .evr, .chans, .med, .bench, .xlt, .twin, .cxl, .sec, .out, .fresh] s s2) :
      Keeps [.regs, .evt, .evr, .chans, .med, .bench, .xlt, .twin, .cxl, .sec, .out, .fresh] s (if s2.bench.awaits.any fun y => (s2.rlineOf y).1 == region then s2
        else if (s2.rt region).compared.isSome && !(s2.rt region).target && (s2.rt region).valid && s2.paired then
          s2.putRt region { s2.rt region with opened := true } else s2) :=
    Keeps.ite (fun _ => h2) (fun _ => Keeps.ite (fun _ => Keeps.after (State.putRt_keeps _ _ _) (by decide) h2) (fun _ => h2))
  unfold awaitLine
  cases st with
  | data d => exact hend _ (hd d)
  | zero => exact hend _ (hd 0)
  | unrecovered => exact hend _ h1
  | notHeld => exact hend _ h1

theorem State.benchLine_keeps (s : State) (x : Nat) (st : AssistStatus) : Keeps [.regs, .evt, .evr, .chans, .med, .bench, .xlt, .twin, .cxl, .rdma, .sec, .out, .fresh] s (s.benchLine x st) := by
  have hd (d : Line) (v : Option Line) : Keeps [.regs, .evt, .evr, .chans, .med, .bench, .xlt, .twin, .cxl, .rdma, .sec, .out, .fresh] s ((s.installLine x d true false).answerReads x v) :=
    Keeps.after (State.answerReads_keeps _ _ _) (by decide) ((State.installLine_keeps _ _ _ _ _).mono (by decide))
  have hn : Keeps [.regs, .evt, .evr, .chans, .med, .bench, .xlt, .twin, .cxl, .rdma, .sec, .out, .fresh] s ((s.loseHere x).answerReads x none) :=
    Keeps.after (State.answerReads_keeps _ _ _) (by decide) ((State.loseHere_keeps _ _).mono (by decide))
  unfold State.benchLine
  cases st with
  | data d => exact hd d _
  | zero => exact hd 0 _
  | unrecovered => exact hn
  | notHeld => exact hn

theorem execTandemReadAssistReply_ends (p : Bool) (f : TFrame) (rtag : Word) (line : Nat) (last : Bool) (st : AssistStatus) (s : State) :
    Ends [.regs, .evt, .nv, .evr, .chans, .med, .bench, .xlt, .twin, .cxl, .rdma, .sec, .out, .fresh] s (execTandemReadAssistReply p f rtag line last st s) := by
  unfold execTandemReadAssistReply
  refine Ends.onFrame (by decide) (fun _ => ?_)
  split
  · exact Keeps.refl _ _
  · refine Keeps.ite (fun _ => ?_) (fun _ => ?_)
    · exact Keeps.refl _ _
    · extract_lets -merge +onlyGivenNames x1
      extract_lets -merge +onlyGivenNames x2
      extract_lets -merge +onlyGivenNames x3
      refine Keeps.of_let x3 ?_ (fun h3 => ?_)
      · unfold x3
        refine Keeps.after (State.setTwin_keeps _ _) (by decide) ?_
        exact Keeps.refl _ _
      · refine Keeps.after (State.settleTwin_keeps _) (by decide) ?_
        split
        · refine Keeps.after (assistLine_keeps _ _ _ _) (by decide) ?_
          exact h3
        · refine Keeps.after (assistLine_keeps _ _ _ _) (by decide) ?_
          exact h3
        · refine Keeps.after (rebuildLine_keeps _ _ _) (by decide) ?_
          exact h3
        · refine Keeps.after (awaitLine_keeps _ _ _ _) (by decide) ?_
          exact h3
        · refine Keeps.after (State.benchLine_keeps _ _ _) (by decide) ?_
          exact h3

theorem execTandemSync_ends (p : Bool) (f : TFrame) (x : SyncTimes) (src : TimeSource) (trust : Trust) (s : State) :
    Ends [.regs, .evt, .tally, .sched, .nv, .evr, .chans, .med, .xlt, .twin, .cxl, .out] s (execTandemSync p f x src trust s) := by
  unfold execTandemSync
  refine Ends.onAnyFrame (by decide) (fun _ => ?_)
  extract_lets -merge +onlyGivenNames x1
  extract_lets -merge +onlyGivenNames x2
  refine Keeps.of_let x2 ?_ (fun h2 => ?_)
  · unfold x2
    refine Keeps.after (State.setTwin_keeps _ _) (by decide) ?_
    exact Keeps.refl _ _
  · extract_lets -merge +onlyGivenNames x3
    extract_lets -merge +onlyGivenNames x4
    extract_lets -merge +onlyGivenNames x5
    refine Keeps.of_let x5 ?_ (fun h5 => ?_)
    · unfold x5
      refine Keeps.after (State.setTwin_keeps _ _) (by decide) ?_
      exact h2
    · refine Keeps.ite (fun _ => ?_) (fun _ => ?_)
      · refine Keeps.ite (fun _ => ?_) (fun _ => ?_)
        · refine Keeps.after (State.selectSource_keeps _) (by decide) ?_
          refine Keeps.after (State.setTally_keeps _ _) (by decide) ?_
          exact h5
        · exact h5
      · refine Keeps.ite (fun _ => ?_) (fun _ => ?_)
        · exact h5
        · refine Keeps.ite (fun _ => ?_) (fun _ => ?_)
          · exact h5
          · extract_lets -merge +onlyGivenNames x6
            extract_lets -merge +onlyGivenNames x7
            refine Keeps.of_let x7 ?_ (fun h7 => ?_)
            · unfold x7
              refine Keeps.after (State.selectSource_keeps _) (by decide) ?_
              refine Keeps.after (State.setTally_keeps _ _) (by decide) ?_
              exact h5
            · refine Keeps.after (State.ageFollow_keeps _ _) (by decide) ?_
              refine Keeps.ite (fun _ => ?_) (fun _ => ?_)
              · refine Keeps.after (State.offerTime_keeps _ _ _ _) (by decide) ?_
                exact h7
              · exact h7

theorem execTandemHeartbeat_ends (p : Bool) (f : TFrame) (seq : Word) (echo : Word) (dirty : Nat) (c : Cap) (s : State) :
    Ends [.regs, .evt, .nv, .evr, .chans, .med, .bench, .xlt, .twin, .cxl, .rdma, .sec, .out, .fresh] s (execTandemHeartbeat p f seq echo dirty c s) := by
  unfold execTandemHeartbeat
  refine Ends.onAnyFrame (by decide) (fun _ => ?_)
  refine Keeps.after (State.settleTwin_keeps _) (by decide) ?_
  refine Keeps.after (peerLevels_keeps _ _ _) (by decide) ?_
  refine Keeps.after (State.setTwin_keeps _ _) (by decide) ?_
  exact Keeps.refl _ _

theorem execTandemResync_ends (p : Bool) (f : TFrame) (es : List WEntry) (s : State) :
    Ends [.regs, .evt, .nv, .evr, .chans, .med, .bench, .xlt, .twin, .cxl, .rdma, .sec, .out, .fresh] s (execTandemResync p f es s) := by
  unfold execTandemResync
  refine Ends.onFrame (by decide) (fun _ => ?_)
  refine Keeps.after (State.settleTwin_keeps _) (by decide) ?_
  refine Keeps.foldl _ (fun _ _ => ?_) ?_
  · split
    · refine Keeps.of_fst (by assumption) ?_
      refine Keeps.after (State.resyncApply_keeps _ _) (by decide) ?_
      exact Keeps.refl _ _
    · refine Keeps.after (State.setTwin_keeps _ _) (by decide) ?_
      refine Keeps.of_fst (by assumption) ?_
      refine Keeps.after (State.resyncApply_keeps _ _) (by decide) ?_
      exact Keeps.refl _ _
  · exact Keeps.refl _ _

theorem pairRefuse_keeps (s : State) (b : Nat) :
    Keeps [.regs, .evt, .nv, .evr, .chans, .med, .bench, .xlt, .twin, .cxl, .rdma, .sec, .out, .fresh] s (pairRefuse s b) := by
  unfold pairRefuse
  refine Keeps.after (State.judgeTdm_keeps _) (by decide) ?_
  refine Keeps.after (State.cause_keeps _ _ _ _ _) (by decide) ?_
  refine Keeps.after (State.setPair_keeps _ _) (by decide) ?_
  refine Keeps.after (State.endSession_keeps _) (by decide) ?_
  exact Keeps.refl _ _

theorem sendStates_keeps (s : State) :
    Keeps [.twin, .out] s (sendStates s) := by
  unfold sendStates
  extract_lets -merge +onlyGivenNames x1
  refine Keeps.ite (fun _ => ?_) (fun _ => ?_)
  · refine Keeps.after (State.tsend_keeps _ _ _) (by decide) ?_
    exact Keeps.refl _ _
  · refine Keeps.foldl _ (fun _ _ => ?_) ?_
    · refine Keeps.after (State.tsend_keeps _ _ _) (by decide) ?_
      exact Keeps.refl _ _
    · exact Keeps.refl _ _

theorem startSession_keeps (s : State) (session : Word) :
    Keeps [.twin, .out] s (startSession s session) := by
  unfold startSession
  extract_lets -merge +onlyGivenNames x1
  extract_lets -merge +onlyGivenNames x2
  extract_lets -merge +onlyGivenNames x3
  refine Keeps.of_let x3 ?_ (fun h3 => ?_)
  · unfold x3
    refine Keeps.after (State.setTwin_keeps _ _) (by decide) ?_
    exact Keeps.refl _ _
  · extract_lets -merge +onlyGivenNames x4
    refine Keeps.of_let x4 ?_ (fun h4 => ?_)
    · unfold x4
      refine Keeps.foldl _ (fun _ _ => ?_) ?_
      · extract_lets -merge +onlyGivenNames x5
        refine Keeps.after (State.tsend_keeps _ _ _) (by decide) ?_
        exact Keeps.refl _ _
      · exact h3
    · refine Keeps.after (sendStates_keeps _) (by decide) ?_
      exact h4

theorem execTandemPair_ends (p : Bool) (f : TFrame) (m : PairMove) (s : State) :
    Ends [.regs, .evt, .nv, .evr, .chans, .med, .bench, .xlt, .twin, .cxl, .rdma, .sec, .out, .fresh] s (execTandemPair p f m s) := by
  unfold execTandemPair
  refine Ends.ite (fun _ => ?_) (fun _ => ?_)
  · refine Ends.next ?_
    exact Keeps.refl _ _
  · refine Ends.ite (fun _ => ?_) (fun _ => ?_)
    · refine Ends.next ?_
      refine Keeps.after (State.bump_keeps _ _ _ _ _ _) (by decide) ?_
      exact Keeps.refl _ _
    · split
      · refine Ends.next ?_
        refine Keeps.after (State.tsend_keeps _ _ _) (by decide) ?_
        exact Keeps.refl _ _
      · refine Ends.next ?_
        refine Keeps.after (pairRefuse_keeps _ _) (by decide) ?_
        exact Keeps.refl _ _
      · refine Ends.ite (fun _ => ?_) (fun _ => ?_)
        · refine Ends.next ?_
          exact Keeps.refl _ _
        · refine Ends.ite (fun _ => ?_) (fun _ => ?_)
          · refine Ends.next ?_
            refine Keeps.after (pairRefuse_keeps _ _) (by decide) ?_
            exact Keeps.refl _ _
          · refine Ends.ite (fun _ => ?_) (fun _ => ?_)
            · refine Ends.next ?_
              refine Keeps.after (pairRefuse_keeps _ _) (by decide) ?_
              exact Keeps.refl _ _
            · refine Ends.next ?_
              refine Keeps.after (startSession_keeps _ _) (by decide) ?_
              refine Keeps.after (State.setTwin_keeps _ _) (by decide) ?_
              exact Keeps.refl _ _

theorem execRegionState_ends (p : Bool) (f : TFrame) (region : Fin 4096) (c : RegionCompare) (s : State) :
    Ends [.regs, .evt, .evr, .chans, .xlt, .twin, .cxl, .out] s (execRegionState p f region c s) := by
  unfold execRegionState
  refine Ends.onAnyFrame (by decide) (fun _ => ?_)
  extract_lets -merge +onlyGivenNames x1
  extract_lets -merge +onlyGivenNames x2
  extract_lets -merge +onlyGivenNames x3
  refine Keeps.of_let x3 ?_ (fun h3 => ?_)
  · unfold x3
    refine Keeps.after (State.setXlt_keeps _ _) (by decide) ?_
    refine Keeps.after (State.setRt_keeps _ _ _) (by decide) ?_
    exact Keeps.refl _ _
  · extract_lets -merge +onlyGivenNames x4
    extract_lets -merge +onlyGivenNames x5
    refine Keeps.after (State.tsend_keeps _ _ _) (by decide) ?_
    exact h3

theorem execResyncPlan_ends (p : Bool) (f : TFrame) (region : Fin 4096) (count : Nat) (peerMarks : List Nat) (s : State) :
    Ends [.regs, .evt, .nv, .evr, .chans, .med, .bench, .xlt, .twin, .cxl, .rdma, .sec, .out, .fresh] s (execResyncPlan p f region count peerMarks s) := by
  unfold execResyncPlan
  refine Ends.onAnyFrame (by decide) (fun _ => ?_)
  refine Keeps.ite (fun _ => ?_) (fun _ => ?_)
  · exact Keeps.refl _ _
  · extract_lets -merge +onlyGivenNames x1
    extract_lets -merge +onlyGivenNames x2
    refine Keeps.of_let x2 ?_ (fun h2 => ?_)
    · unfold x2
      refine Keeps.ite (fun _ => ?_) (fun _ => ?_)
      · refine Keeps.after (State.setRt_keeps _ _ _) (by decide) ?_
        exact Keeps.refl _ _
      · exact Keeps.refl _ _
    · refine Keeps.ite (fun _ => ?_) (fun _ => ?_)
      · refine Keeps.after (State.pairComplete_keeps _) (by decide) ?_
        exact h2
      · exact h2

theorem execResyncDone_ends (p : Bool) (f : TFrame) (region : Fin 4096) (s : State) :
    Ends [.regs, .evt, .nv, .evr, .chans, .med, .bench, .xlt, .twin, .cxl, .rdma, .sec, .out, .fresh] s (execResyncDone p f region s) := by
  unfold execResyncDone
  refine Ends.onFrame (by decide) (fun _ => ?_)
  extract_lets -merge +onlyGivenNames x1
  refine Keeps.ite (fun _ => ?_) (fun _ => ?_)
  · refine Keeps.after (State.settleTwin_keeps _) (by decide) ?_
    refine Keeps.after (State.cause_keeps _ _ _ _ _) (by decide) ?_
    refine Keeps.after (State.clearMarks_keeps _ _) (by decide) ?_
    refine Keeps.after (State.putRt_keeps _ _ _) (by decide) ?_
    exact Keeps.refl _ _
  · exact Keeps.refl _ _

theorem execRegionAttr_ends (p : Bool) (f : TFrame) (region : Fin 4096) (ros : Nat) (ver : Word) (a : RegionAttr) (s : State) :
    Ends [.regs, .evt, .nv, .evr, .chans, .med, .bench, .xlt, .twin, .cxl, .rdma, .sec, .out, .fresh] s (execRegionAttr p f region ros ver a s) := by
  unfold execRegionAttr
  refine Ends.onAnyFrame (by decide) (fun _ => ?_)
  refine Keeps.ite (fun _ => ?_) (fun _ => ?_)
  · refine Keeps.after (State.settleTwin_keeps _) (by decide) ?_
    refine Keeps.after (State.drawMissing_keeps _ _) (by decide) ?_
    refine Keeps.after (State.takeAttrs_keeps _ _) (by decide) ?_
    refine Keeps.after (State.setTwin_keeps _ _) (by decide) ?_
    exact Keeps.refl _ _
  · refine Keeps.ite (fun _ => ?_) (fun _ => ?_)
    · refine Keeps.after (State.applyAttr_keeps _ _ _ _) (by decide) ?_
      exact Keeps.refl _ _
    · split
      · refine Keeps.ite (fun _ => ?_) (fun _ => ?_)
        · exact Keeps.refl _ _
        · refine Keeps.after (State.keyIn_keeps _ _ _) (by decide) ?_
          exact Keeps.refl _ _
      · exact Keeps.refl _ _

theorem execCapState_ends (p : Bool) (f : TFrame) (c : Cap) (s : State) :
    Ends [.regs, .evt, .evr, .chans, .med, .xlt, .twin, .cxl, .out] s (execCapState p f c s) := by
  unfold execCapState
  refine Ends.onFrame (by decide) (fun _ => ?_)
  refine Keeps.after (peerLevels_keeps _ _ _) (by decide) ?_
  exact Keeps.refl _ _

theorem execDraining_ends (p : Bool) (f : TFrame) (_trigger : Fin 16) (s : State) :
    Ends [.regs, .evt, .nv, .evr, .chans, .med, .bench, .xlt, .twin, .cxl, .rdma, .sec, .out, .fresh] s (execDraining p f _trigger s) := by
  unfold execDraining
  refine Ends.onFrame (by decide) (fun _ => ?_)
  extract_lets -merge +onlyGivenNames x1
  refine Keeps.of_let x1 ?_ (fun h1 => ?_)
  · unfold x1
    refine Keeps.after (State.declareLoss_keeps _) (by decide) ?_
    refine Keeps.after (State.cause_keeps _ _ _ _ _) (by decide) ?_
    exact Keeps.refl _ _
  · extract_lets -merge +onlyGivenNames x2
    extract_lets -merge +onlyGivenNames x3
    refine Keeps.of_let x3 ?_ (fun h3 => ?_)
    · unfold x3
      refine Keeps.after (State.setTwin_keeps _ _) (by decide) ?_
      exact h1
    · refine Keeps.after (State.settleTwin_keeps _) (by decide) ?_
      refine Keeps.foldl _ (fun _ _ => ?_) ?_
      · refine Keeps.after (State.fenceEnd_keeps _ _) (by decide) ?_
        exact Keeps.refl _ _
      · exact h3

theorem execDetachFrame_ends (p : Bool) (f : TFrame) (s : State) :
    Ends [.regs, .evt, .nv, .evr, .chans, .med, .bench, .xlt, .twin, .cxl, .rdma, .sec, .out, .fresh] s (execDetachFrame p f s) := by
  unfold execDetachFrame
  refine Ends.onFrame (by decide) (fun _ => ?_)
  extract_lets -merge +onlyGivenNames x1
  refine Keeps.of_let x1 ?_ (fun h1 => ?_)
  · unfold x1
    refine Keeps.after (State.endSession_keeps _) (by decide) ?_
    refine Keeps.after (State.failHanding_keeps _) (by decide) ?_
    refine Keeps.after (State.setPair_keeps _ _) (by decide) ?_
    exact Keeps.refl _ _
  · extract_lets -merge +onlyGivenNames x2
    refine Keeps.of_let x2 ?_ (fun h2 => ?_)
    · unfold x2
      refine Keeps.foldl _ (fun _ _ => ?_) ?_
      · refine Keeps.after (State.goSolo_keeps _ _) (by decide) ?_
        refine Keeps.after (State.putRt_keeps _ _ _) (by decide) ?_
        exact Keeps.refl _ _
      · exact h1
    · refine Keeps.after (State.settleTwin_keeps _) (by decide) ?_
      refine Keeps.after (State.failAlloc_keeps _) (by decide) ?_
      refine Keeps.after (State.failForwarded_keeps _) (by decide) ?_
      refine Keeps.after (State.setTwin_keeps _ _) (by decide) ?_
      exact h2

theorem execHandover_ends (p : Bool) (f : TFrame) (region : Fin 4096) (term : Word) (ros : Nat) (s : State) :
    Ends [.regs, .evt, .nv, .evr, .chans, .med, .bench, .xlt, .twin, .cxl, .rdma, .sec, .out, .fresh] s (execHandover p f region term ros s) := by
  unfold execHandover
  refine Ends.onFrame (by decide) (fun _ => ?_)
  extract_lets -merge +onlyGivenNames x1
  extract_lets -merge +onlyGivenNames x2
  refine Keeps.of_let x2 ?_ (fun h2 => ?_)
  · unfold x2
    refine Keeps.after (State.tsend_keeps _ _ _) (by decide) ?_
    refine Keeps.after (State.putRt_keeps _ _ _) (by decide) ?_
    exact Keeps.refl _ _
  · refine Keeps.after (State.settleTwin_keeps _) (by decide) ?_
    refine Keeps.after (State.drawMissing_keeps _ _) (by decide) ?_
    exact h2

theorem execHandoverAck_ends (p : Bool) (f : TFrame) (region : Fin 4096) (term : Word) (s : State) :
    Ends [.regs, .evt, .nv, .evr, .chans, .med, .bench, .xlt, .twin, .cxl, .rdma, .sec, .out, .fresh] s (execHandoverAck p f region term s) := by
  unfold execHandoverAck
  refine Ends.onFrame (by decide) (fun _ => ?_)
  extract_lets -merge +onlyGivenNames x1
  split
  · exact Keeps.refl _ _
  · extract_lets -merge +onlyGivenNames x2
    refine Keeps.of_let x2 ?_ (fun h2 => ?_)
    · unfold x2
      refine Keeps.after (State.fenceWaited_keeps _ _) (by decide) ?_
      refine Keeps.after (State.putRt_keeps _ _ _) (by decide) ?_
      exact Keeps.refl _ _
    · refine Keeps.after (State.settleTwin_keeps _) (by decide) ?_
      split
      · refine Keeps.after (State.complete_keeps _ _ _ _ _) (by decide) ?_
        exact h2
      · exact h2

theorem execLeaving_ends (p : Bool) (f : TFrame) (_trigger : Fin 16) (s : State) :
    Ends [.regs, .evt, .nv, .evr, .chans, .med, .bench, .xlt, .twin, .cxl, .rdma, .sec, .out, .fresh] s (execLeaving p f _trigger s) := by
  unfold execLeaving
  refine Ends.onFrame (by decide) (fun _ => ?_)
  refine Keeps.ite (fun _ => ?_) (fun _ => ?_)
  · refine Keeps.after (State.tsend_keeps _ _ _) (by decide) ?_
    exact Keeps.refl _ _
  · refine Keeps.after (State.settleTwin_keeps _) (by decide) ?_
    refine Keeps.after (State.setTwin_keeps _ _) (by decide) ?_
    exact Keeps.refl _ _

theorem execRekey_ends (p : Bool) (f : TFrame) (port : Bool) (phase : Bool) (s : State) :
    Ends [.regs, .evt, .evr, .chans, .twin, .cxl, .out] s (execRekey p f port phase s) := by
  unfold execRekey
  refine Ends.onAnyFrame (by decide) (fun _ => ?_)
  refine Keeps.after (State.setTport_keeps _ _ _) (by decide) ?_
  exact Keeps.refl _ _

theorem execTandemFlitDiscard_ends (p : Bool) (flit : Option TFlit) (s : State) :
    Ends [.twin, .out] s (execTandemFlitDiscard p flit s) := by
  unfold execTandemFlitDiscard
  extract_lets -merge +onlyGivenNames x1
  extract_lets -merge +onlyGivenNames x2
  refine Ends.ite (fun _ => ?_) (fun _ => ?_)
  · refine Ends.next ?_
    refine Keeps.after (State.emit_keeps _ _) (by decide) ?_
    refine Keeps.after (State.setTport_keeps _ _ _) (by decide) ?_
    exact Keeps.refl _ _
  · refine Ends.next ?_
    exact Keeps.refl _ _

theorem execTandemFlitAck_ends (p : Bool) (seq : BitVec 12) (s : State) :
    Ends [.twin] s (execTandemFlitAck p seq s) := by
  unfold execTandemFlitAck
  refine Ends.ite (fun _ => ?_) (fun _ => ?_)
  · refine Ends.next ?_
    refine Keeps.after (State.setTport_keeps _ _ _) (by decide) ?_
    exact Keeps.refl _ _
  · refine Ends.next ?_
    exact Keeps.refl _ _

theorem execTandemAckTimer_ends (p : Bool) (s : State) :
    Ends [.twin, .out] s (execTandemAckTimer p s) := by
  unfold execTandemAckTimer
  extract_lets -merge +onlyGivenNames x1
  refine Ends.ite (fun _ => ?_) (fun _ => ?_)
  · refine Ends.next ?_
    refine Keeps.after (State.emit_keeps _ _) (by decide) ?_
    refine Keeps.after (State.setTport_keeps _ _ _) (by decide) ?_
    exact Keeps.refl _ _
  · refine Ends.next ?_
    exact Keeps.refl _ _

theorem tandemRetrainStart_keeps (s : State) (p : Bool) :
    Keeps [.regs, .twin, .out] s (tandemRetrainStart s p) := by
  unfold tandemRetrainStart
  extract_lets -merge +onlyGivenNames x1
  refine Keeps.ite (fun _ => ?_) (fun _ => ?_)
  · refine Keeps.after (State.emit_keeps _ _) (by decide) ?_
    refine Keeps.after (State.setTport_keeps _ _ _) (by decide) ?_
    exact Keeps.refl _ _
  · refine Keeps.after (State.emit_keeps _ _) (by decide) ?_
    refine Keeps.after (State.bump_keeps _ _ _ _ _ _) (by decide) ?_
    refine Keeps.after (State.setTport_keeps _ _ _) (by decide) ?_
    exact Keeps.refl _ _

theorem execTandemNakReceived_ends (p : Bool) (seq : BitVec 12) (s : State) :
    Ends [.regs, .twin, .out] s (execTandemNakReceived p seq s) := by
  unfold execTandemNakReceived
  refine Ends.ite (fun _ => ?_) (fun _ => ?_)
  · refine Ends.next ?_
    exact Keeps.refl _ _
  · extract_lets -merge +onlyGivenNames x1
    extract_lets -merge +onlyGivenNames x2
    extract_lets -merge +onlyGivenNames x3
    refine Ends.of_let x3 ?_ (fun h3 => ?_)
    · unfold x3
      refine Keeps.after (State.emit_keeps _ _) (by decide) ?_
      refine Keeps.after (State.setTport_keeps _ _ _) (by decide) ?_
      exact Keeps.refl _ _
    · refine Ends.next ?_
      refine Keeps.ite (fun _ => ?_) (fun _ => ?_)
      · refine Keeps.after (tandemRetrainStart_keeps _ _) (by decide) ?_
        refine Keeps.after (State.setTport_keeps _ _ _) (by decide) ?_
        exact h3
      · exact h3

theorem sendRekey_keeps (s : State) (p : Bool) :
    Keeps [.twin, .out] s (sendRekey s p) := by
  unfold sendRekey
  extract_lets -merge +onlyGivenNames x1
  extract_lets -merge +onlyGivenNames x2
  refine Keeps.of_let x2 ?_ (fun h2 => ?_)
  · unfold x2
    refine Keeps.after (State.tsend_keeps _ _ _) (by decide) ?_
    exact Keeps.refl _ _
  · refine Keeps.after (State.setTport_keeps _ _ _) (by decide) ?_
    exact h2

theorem execTandemRetrainDone_ends (p : Bool) (ok : Bool) (s : State) :
    Ends [.regs, .evt, .evr, .chans, .twin, .cxl, .out] s (execTandemRetrainDone p ok s) := by
  unfold execTandemRetrainDone
  refine Ends.ite (fun _ => ?_) (fun _ => ?_)
  · refine Ends.next ?_
    exact Keeps.refl _ _
  · extract_lets -merge +onlyGivenNames x1
    split
    · refine Ends.ite (fun _ => ?_) (fun _ => ?_)
      · refine Ends.next ?_
        refine Keeps.after (State.judgeTdm_keeps _) (by decide) ?_
        refine Keeps.after (State.emit_keeps _ _) (by decide) ?_
        refine Keeps.after (State.setTport_keeps _ _ _) (by decide) ?_
        exact Keeps.refl _ _
      · refine Ends.next ?_
        refine Keeps.after (State.judgeTdm_keeps _) (by decide) ?_
        refine Keeps.after (tandemRetrainStart_keeps _ _) (by decide) ?_
        exact Keeps.refl _ _
    · refine Ends.ite (fun _ => ?_) (fun _ => ?_)
      · extract_lets -merge +onlyGivenNames x2
        refine Ends.of_let x2 ?_ (fun h2 => ?_)
        · unfold x2
          refine Keeps.after (State.setTport_keeps _ _ _) (by decide) ?_
          exact Keeps.refl _ _
        · extract_lets -merge +onlyGivenNames x3
          refine Ends.of_let x3 ?_ (fun h3 => ?_)
          · unfold x3
            refine Keeps.ite (fun _ => ?_) (fun _ => ?_)
            · refine Keeps.after (sendRekey_keeps _ _) (by decide) ?_
              exact h2
            · exact h2
          · refine Ends.next ?_
            refine Keeps.after (State.judgeTdm_keeps _) (by decide) ?_
            refine Keeps.ite (fun _ => ?_) (fun _ => ?_)
            · refine Keeps.after (State.resendPort_keeps _ _) (by decide) ?_
              exact h3
            · exact h3
      · extract_lets -merge +onlyGivenNames x2
        refine Ends.of_let x2 ?_ (fun h2 => ?_)
        · unfold x2
          refine Keeps.after (State.setTport_keeps _ _ _) (by decide) ?_
          exact Keeps.refl _ _
        · refine Ends.next ?_
          refine Keeps.after (State.judgeTdm_keeps _) (by decide) ?_
          refine Keeps.ite (fun _ => ?_) (fun _ => ?_)
          · refine Keeps.after (State.resendPort_keeps _ _) (by decide) ?_
            exact h2
          · exact h2
    · refine Ends.next ?_
      exact Keeps.refl _ _

theorem startPairing_keeps (s : State) (p : Bool) :
    Keeps [.nv, .twin, .out] s (startPairing s p) := by
  unfold startPairing
  refine Keeps.ite (fun _ => ?_) (fun _ => ?_)
  · exact Keeps.refl _ _
  · extract_lets -merge +onlyGivenNames x1
    refine Keeps.of_let x1 ?_ (fun h1 => ?_)
    · unfold x1
      refine Keeps.foldl _ (fun _ _ => ?_) ?_
      · refine Keeps.after (State.setRt_keeps _ _ _) (by decide) ?_
        exact Keeps.refl _ _
      · exact Keeps.refl _ _
    · refine Keeps.ite (fun _ => ?_) (fun _ => ?_)
      · extract_lets -merge +onlyGivenNames x2
        extract_lets -merge +onlyGivenNames x3
        refine Keeps.of_let x3 ?_ (fun h3 => ?_)
        · unfold x3
          refine Keeps.after (State.setTwin_keeps _ _) (by decide) ?_
          exact h1
        · refine Keeps.after (sendStates_keeps _) (by decide) ?_
          refine Keeps.after (sendRekey_keeps _ _) (by decide) ?_
          refine Keeps.after (sendRekey_keeps _ _) (by decide) ?_
          exact h3
      · refine Keeps.after (State.tsend_keeps _ _ _) (by decide) ?_
        refine Keeps.after (State.setPair_keeps _ _) (by decide) ?_
        refine Keeps.after (State.setTwin_keeps _ _) (by decide) ?_
        exact h1

theorem execTandemPortUp_ends (p : Bool) (s : State) :
    Ends [.regs, .evt, .nv, .evr, .chans, .twin, .cxl, .out] s (execTandemPortUp p s) := by
  unfold execTandemPortUp
  extract_lets -merge +onlyGivenNames x1
  refine Ends.ite (fun _ => ?_) (fun _ => ?_)
  · refine Ends.next ?_
    exact Keeps.refl _ _
  · extract_lets -merge +onlyGivenNames x2
    refine Ends.of_let x2 ?_ (fun h2 => ?_)
    · unfold x2
      refine Keeps.after (State.setTport_keeps _ _ _) (by decide) ?_
      exact Keeps.refl _ _
    · refine Ends.next ?_
      refine Keeps.after (State.judgeTdm_keeps _) (by decide) ?_
      refine Keeps.after (startPairing_keeps _ _) (by decide) ?_
      exact h2

theorem execPairingRetryTimer_ends (s : State) :
    Ends [.regs, .evt, .nv, .evr, .chans, .twin, .cxl, .out] s (execPairingRetryTimer s) := by
  unfold execPairingRetryTimer
  refine Ends.ite (fun _ => ?_) (fun _ => ?_)
  · refine Ends.next ?_
    refine Keeps.after (State.judgeTdm_keeps _) (by decide) ?_
    refine Keeps.after (startPairing_keeps _ _) (by decide) ?_
    exact Keeps.refl _ _
  · refine Ends.next ?_
    exact Keeps.refl _ _

theorem execTdmLanemapCommit_ends (s : State) :
    Ends [.regs, .twin] s (execTdmLanemapCommit s) := by
  unfold execTdmLanemapCommit
  refine Ends.next ?_
  refine Keeps.ite (fun _ => ?_) (fun _ => ?_)
  · exact Keeps.refl _ _
  · extract_lets -merge +onlyGivenNames x1
    extract_lets -merge +onlyGivenNames x2
    extract_lets -merge +onlyGivenNames x3
    refine Keeps.ite (fun _ => ?_) (fun _ => ?_)
    · refine Keeps.after (State.setTwin_keeps _ _) (by decide) ?_
      refine Keeps.after (State.setBit_keeps _ _ _ _ _) (by decide) ?_
      exact Keeps.refl _ _
    · refine Keeps.after (State.setBit_keeps _ _ _ _ _) (by decide) ?_
      exact Keeps.refl _ _

theorem onPorts_keeps (s : State) (b : TBody) :
    Keeps [.twin, .out] s (onPorts s b) := by
  unfold onPorts
  refine Keeps.ite (fun _ => ?_) (fun _ => ?_)
  · exact Keeps.refl _ _
  · refine Keeps.foldl _ (fun _ _ => ?_) ?_
    · refine Keeps.ite (fun _ => ?_) (fun _ => ?_)
      · refine Keeps.after (State.tsend_keeps _ _ _) (by decide) ?_
        exact Keeps.refl _ _
      · exact Keeps.refl _ _
    · exact Keeps.refl _ _

theorem execTandemHeartbeatTimer_ends (s : State) :
    Ends [.twin, .out] s (execTandemHeartbeatTimer s) := by
  unfold execTandemHeartbeatTimer
  refine Ends.ite (fun _ => ?_) (fun _ => ?_)
  · refine Ends.next ?_
    exact Keeps.refl _ _
  · extract_lets -merge +onlyGivenNames x1
    extract_lets -merge +onlyGivenNames x2
    refine Ends.of_let x2 ?_ (fun h2 => ?_)
    · unfold x2
      refine Keeps.after (State.setTwin_keeps _ _) (by decide) ?_
      exact Keeps.refl _ _
    · refine Ends.next ?_
      refine Keeps.after (onPorts_keeps _ _) (by decide) ?_
      exact h2

theorem execTandemSyncTimer_ends (s : State) :
    Ends [.twin, .out] s (execTandemSyncTimer s) := by
  unfold execTandemSyncTimer
  refine Ends.ite (fun _ => ?_) (fun _ => ?_)
  · refine Ends.next ?_
    refine Keeps.after (onPorts_keeps _ _) (by decide) ?_
    exact Keeps.refl _ _
  · refine Ends.next ?_
    exact Keeps.refl _ _

theorem execTandemRekeyTimer_ends (p : Bool) (s : State) :
    Ends [.twin, .out] s (execTandemRekeyTimer p s) := by
  unfold execTandemRekeyTimer
  refine Ends.ite (fun _ => ?_) (fun _ => ?_)
  · refine Ends.next ?_
    refine Keeps.after (sendRekey_keeps _ _) (by decide) ?_
    exact Keeps.refl _ _
  · refine Ends.next ?_
    exact Keeps.refl _ _

theorem execTandemOldKeyExpiry_ends (p : Bool) (s : State) :
    Ends [.twin] s (execTandemOldKeyExpiry p s) := by
  unfold execTandemOldKeyExpiry
  refine Ends.next ?_
  refine Keeps.after (State.setTport_keeps _ _ _) (by decide) ?_
  exact Keeps.refl _ _

theorem execLinkLossTimeout_ends (s : State) :
    Ends [.regs, .evt, .nv, .evr, .chans, .med, .bench, .xlt, .twin, .cxl, .rdma, .sec, .out, .fresh] s (execLinkLossTimeout s) := by
  unfold execLinkLossTimeout
  refine Ends.ite (fun _ => ?_) (fun _ => ?_)
  · refine Ends.next ?_
    refine Keeps.after (State.settleTwin_keeps _) (by decide) ?_
    refine Keeps.after (State.declareLoss_keeps _) (by decide) ?_
    exact Keeps.refl _ _
  · refine Ends.next ?_
    exact Keeps.refl _ _

theorem execFenceIntervalExpiry_ends (s : State) :
    Ends [.regs, .evt, .nv, .evr, .chans, .med, .bench, .xlt, .twin, .cxl, .rdma, .sec, .out, .fresh] s (execFenceIntervalExpiry s) := by
  unfold execFenceIntervalExpiry
  refine Ends.ite (fun _ => ?_) (fun _ => ?_)
  · refine Ends.next ?_
    refine Keeps.after (State.settleTwin_keeps _) (by decide) ?_
    refine Keeps.foldl _ (fun _ _ => ?_) ?_
    · refine Keeps.after (State.fenceEnd_keeps _ _) (by decide) ?_
      exact Keeps.refl _ _
    · refine Keeps.after (State.setTwin_keeps _ _) (by decide) ?_
      exact Keeps.refl _ _
  · refine Ends.next ?_
    exact Keeps.refl _ _

theorem execStrictHoldExpiry_ends (s : State) :
    Ends [.regs, .evt, .nv, .evr, .chans, .med, .bench, .xlt, .twin, .cxl, .rdma, .sec, .out, .fresh] s (execStrictHoldExpiry s) := by
  unfold execStrictHoldExpiry
  refine Ends.ite (fun _ => ?_) (fun _ => ?_)
  · refine Ends.next ?_
    refine Keeps.after (State.settleTwin_keeps _) (by decide) ?_
    refine Keeps.foldl _ (fun _ _ => ?_) ?_
    · extract_lets -merge +onlyGivenNames x1
      refine Keeps.ite (fun _ => ?_) (fun _ => ?_)
      · refine Keeps.after (State.putRt_keeps _ _ _) (by decide) ?_
        exact Keeps.refl _ _
      · exact Keeps.refl _ _
    · refine Keeps.after (State.setTwin_keeps _ _) (by decide) ?_
      exact Keeps.refl _ _
  · refine Ends.next ?_
    exact Keeps.refl _ _

theorem execLeaveWaitExpiry_ends (s : State) :
    Ends [.regs, .evt, .nv, .evr, .chans, .med, .bench, .xlt, .twin, .cxl, .rdma, .sec, .out, .fresh] s (execLeaveWaitExpiry s) := by
  unfold execLeaveWaitExpiry
  refine Ends.ite (fun _ => ?_) (fun _ => ?_)
  · refine Ends.next ?_
    refine Keeps.after (State.settleTwin_keeps _) (by decide) ?_
    refine Keeps.after (State.detachStart_keeps _ _) (by decide) ?_
    refine Keeps.after (State.setTwin_keeps _ _) (by decide) ?_
    exact Keeps.refl _ _
  · refine Ends.next ?_
    exact Keeps.refl _ _

end Sys2Proof.Machine
end

