-- ==== Sys2Proof/Laws/Frame5.lean ====
section
/-! SUPPORT. What each operation and command of Reset, DramOps, SlotOps, PsqOps, Power, CoreOps, Dram, Tally can change: every other part of the state stays. -/

namespace Sys2Proof.Machine

/-! ### Reset -/

theorem Keeps.set_regs_evt {w : List Part} {s t : State} {x0} {x1} (hp : Part.regs ∈ w ∧ Part.evt ∈ w) (h : Keeps w s t) :
    Keeps w s { t with regs := x0, evt := x1 } := fun q hq => by
  cases q <;> first | exact h _ hq | simp_all

theorem State.evtDown_keeps (s : State) :
    Keeps [.regs, .evt] s (State.evtDown s) := by
  unfold State.evtDown
  refine Keeps.set_regs_evt (by decide) ?_
  exact Keeps.refl _ _

theorem Keeps.set_regs_csr_evt_ecc {w : List Part} {s t : State} {x0} {x1} {x2} {x3} (hp : Part.regs ∈ w ∧ Part.csr ∈ w ∧ Part.evt ∈ w ∧ Part.ecc ∈ w) (h : Keeps w s t) :
    Keeps w s { t with regs := x0, csr := x1, evt := x2, ecc := x3 } := fun q hq => by
  cases q <;> first | exact h _ hq | simp_all

theorem State.regsReset_keeps (s : State) :
    Keeps [.regs, .csr, .evt, .ecc] s (State.regsReset s) := by
  unfold State.regsReset
  refine Keeps.set_regs_csr_evt_ecc (by decide) ?_
  exact Keeps.refl _ _

theorem State.chansReset_keeps (s : State) :
    Keeps [.chans] s (State.chansReset s) := by
  unfold State.chansReset
  refine Keeps.set_chans (by decide) ?_
  exact Keeps.refl _ _

theorem State.medReset_keeps (s : State) :
    Keeps [.regs, .evt, .evr, .chans, .med, .bench, .xlt, .cxl, .out] s (State.medReset s) := by
  unfold State.medReset
  extract_lets -merge +onlyGivenNames x1
  refine Keeps.of_let x1 ?_ (fun h1 => ?_)
  · unfold x1
    refine Keeps.after (State.dropFirst_keeps _ _) (by decide) ?_
    exact Keeps.refl _ _
  · extract_lets -merge +onlyGivenNames x2
    extract_lets -merge +onlyGivenNames x3
    extract_lets -merge +onlyGivenNames x4
    refine Keeps.of_let x4 ?_ (fun h4 => ?_)
    · unfold x4
      refine Keeps.foldl _ (fun _ _ => ?_) ?_
      · refine Keeps.after (State.moveAbandon_keeps _ _ _) (by decide) ?_
        exact Keeps.refl _ _
      · exact h1
    · refine Keeps.after (State.setMed_keeps _ _) (by decide) ?_
      exact h4

theorem State.benchReset_keeps (s : State) :
    Keeps [.bench] s (State.benchReset s) := by
  unfold State.benchReset
  extract_lets -merge +onlyGivenNames x1
  refine Keeps.after (State.setBench_keeps _ _) (by decide) ?_
  exact Keeps.refl _ _

theorem State.xltReset_keeps (s : State) :
    Keeps [.xlt] s (State.xltReset s) := by
  unfold State.xltReset
  extract_lets -merge +onlyGivenNames x1
  refine Keeps.after (State.setXlt_keeps _ _) (by decide) ?_
  exact Keeps.refl _ _

theorem State.twinReset_keeps (s : State) :
    Keeps [.twin] s (State.twinReset s) := by
  unfold State.twinReset
  extract_lets -merge +onlyGivenNames x1
  refine Keeps.after (State.setTwin_keeps _ _) (by decide) ?_
  exact Keeps.refl _ _

theorem State.cxlReset_keeps (s : State) :
    Keeps [.cxl] s (State.cxlReset s) := by
  unfold State.cxlReset
  refine Keeps.set_cxl (by decide) ?_
  exact Keeps.refl _ _

theorem State.secReset_keeps (s : State) :
    Keeps [.sec] s (State.secReset s) := by
  unfold State.secReset
  refine Keeps.set_sec (by decide) rfl ?_
  exact Keeps.refl _ _

theorem State.flashReset_keeps (s : State) :
    Keeps [.wdg, .flash] s (State.flashReset s) := by
  unfold State.flashReset
  extract_lets -merge +onlyGivenNames x1
  refine Keeps.of_let x1 ?_ (fun h1 => ?_)
  · unfold x1
    refine Keeps.after (State.flashCut_keeps _) (by decide) ?_
    exact Keeps.refl _ _
  · refine Keeps.after (State.setWdg_keeps _ _) (by decide) ?_
    refine Keeps.after (State.setFlash_keeps _ _) (by decide) ?_
    exact h1

theorem State.sourcesLost_keeps (s : State) :
    Keeps [.regs, .evt, .tally, .evr, .chans, .cxl, .out] s (State.sourcesLost s) := by
  unfold State.sourcesLost
  refine Keeps.after (State.selectSource_keeps _) (by decide) ?_
  refine Keeps.after (State.setTally_keeps _ _) (by decide) ?_
  exact Keeps.refl _ _

theorem Keeps.set_rdma_dram {w : List Part} {s t : State} {x0} {x1} (hp : Part.rdma ∈ w ∧ Part.dram ∈ w) (h : Keeps w s t) :
    Keeps w s { t with rdma := x0, dram := x1 } := fun q hq => by
  cases q <;> first | exact h _ hq | simp_all

theorem State.mainReset_keeps (s : State) :
    Keeps [.regs, .csr, .evt, .ecc, .tally, .evr, .wdg, .flash, .psq, .chans, .med, .bench, .xlt, .twin, .cxl, .rdma, .sec, .dram, .out] s (State.mainReset s) := by
  unfold State.mainReset
  extract_lets -merge +onlyGivenNames x1
  refine Keeps.of_let x1 ?_ (fun h1 => ?_)
  · unfold x1
    refine Keeps.after (State.regsReset_keeps _) (by decide) ?_
    refine Keeps.after (State.chansReset_keeps _) (by decide) ?_
    refine Keeps.after (State.flashReset_keeps _) (by decide) ?_
    refine Keeps.after (State.secReset_keeps _) (by decide) ?_
    refine Keeps.after (State.cxlReset_keeps _) (by decide) ?_
    refine Keeps.after (State.twinReset_keeps _) (by decide) ?_
    refine Keeps.after (State.xltReset_keeps _) (by decide) ?_
    refine Keeps.after (State.benchReset_keeps _) (by decide) ?_
    refine Keeps.after (State.medReset_keeps _) (by decide) ?_
    exact Keeps.refl _ _
  · extract_lets -merge +onlyGivenNames x2
    refine Keeps.of_let x2 ?_ (fun h2 => ?_)
    · unfold x2
      refine Keeps.set_rdma_dram (by decide) ?_
      exact h1
    · extract_lets -merge +onlyGivenNames x3
      refine Keeps.of_let x3 ?_ (fun h3 => ?_)
      · unfold x3
        refine Keeps.after (State.sourcesLost_keeps _) (by decide) ?_
        exact h2
      · extract_lets -merge +onlyGivenNames x4
        extract_lets -merge +onlyGivenNames x5
        refine Keeps.of_let x5 ?_ (fun h5 => ?_)
        · unfold x5
          refine Keeps.after (State.setEvr_keeps _ _) (by decide) ?_
          exact h3
        · refine Keeps.after (State.level_keeps _ _ _ _ _ _ _) (by decide) ?_
          refine Keeps.after (State.setPsq_keeps _ _) (by decide) ?_
          exact h5

theorem State.judgeDeadline_keeps (s : State) :
    Keeps [.regs, .evt, .evr, .chans, .cxl, .out] s (State.judgeDeadline s) := by
  unfold State.judgeDeadline
  refine Keeps.ite (fun _ => ?_) (fun _ => ?_)
  · refine Keeps.after (State.raise_keeps _ _) (by decide) ?_
    exact Keeps.refl _ _
  · refine Keeps.after (State.lower_keeps _ _) (by decide) ?_
    exact Keeps.refl _ _

theorem State.judgeMain_keeps (s : State) :
    Keeps [.regs, .evt, .evr, .chans, .bench, .cxl, .out] s (State.judgeMain s) := by
  unfold State.judgeMain
  extract_lets -merge +onlyGivenNames x1
  refine Keeps.of_let x1 ?_ (fun h1 => ?_)
  · unfold x1
    refine Keeps.after (State.judgeWait_keeps _) (by decide) ?_
    refine Keeps.after (State.judgeRdm_keeps _) (by decide) ?_
    refine Keeps.after (State.judgeCxl_keeps _) (by decide) ?_
    refine Keeps.after (State.judgeEyb_keeps _) (by decide) ?_
    refine Keeps.after (State.judgeTsl_keeps _) (by decide) ?_
    refine Keeps.after (State.judgeYrw_keeps _) (by decide) ?_
    refine Keeps.after (State.judgeXlt_keeps _) (by decide) ?_
    refine Keeps.after (State.judgeTdm_keeps _) (by decide) ?_
    refine Keeps.after (State.judgeBench_keeps _) (by decide) ?_
    exact Keeps.refl _ _
  · extract_lets -merge +onlyGivenNames x2
    refine Keeps.of_let x2 ?_ (fun h2 => ?_)
    · unfold x2
      refine Keeps.foldl _ (fun _ _ => ?_) ?_
      · refine Keeps.after (State.judgeMac_keeps _ _) (by decide) ?_
        exact Keeps.refl _ _
      · exact h1
    · refine Keeps.after (State.judgeDeadline_keeps _) (by decide) ?_
      refine Keeps.foldl _ (fun _ _ => ?_) ?_
      · refine Keeps.after (State.judgeQg_keeps _ _) (by decide) ?_
        exact Keeps.refl _ _
      · exact h2

theorem State.cxlPortsStart_keeps (s : State) :
    Keeps [.regs, .evt, .evr, .chans, .cxl, .out] s (State.cxlPortsStart s) := by
  unfold State.cxlPortsStart
  refine Keeps.after (State.judgeCxl_keeps _) (by decide) ?_
  refine Keeps.foldl _ (fun _ _ => ?_) ?_
  · refine Keeps.ite (fun _ => ?_) (fun _ => ?_)
    · refine Keeps.after (State.setCport_keeps _ _ _) (by decide) ?_
      exact Keeps.refl _ _
    · exact Keeps.refl _ _
  · exact Keeps.refl _ _

theorem State.mainRelease_keeps (s : State) :
    Keeps [.regs, .evt, .nv, .evr, .wdg, .flash, .psq, .chans, .bench, .cxl, .out, .fresh] s (State.mainRelease s) := by
  unfold State.mainRelease
  extract_lets -merge +onlyGivenNames x1
  refine Keeps.of_let x1 ?_ (fun h1 => ?_)
  · unfold x1
    refine Keeps.after (State.draw_keeps _) (by decide) ?_
    exact Keeps.refl _ _
  · extract_lets -merge +onlyGivenNames x2
    extract_lets -merge +onlyGivenNames x3
    refine Keeps.of_let x3 ?_ (fun h3 => ?_)
    · unfold x3
      refine Keeps.after (State.setPsq_keeps _ _) (by decide) ?_
      exact h1
    · extract_lets -merge +onlyGivenNames x4
      extract_lets -merge +onlyGivenNames x5
      refine Keeps.of_let x5 ?_ (fun h5 => ?_)
      · unfold x5
        refine Keeps.set_evt (by decide) ?_
        exact h3
      · extract_lets -merge +onlyGivenNames x6
        refine Keeps.of_let x6 ?_ (fun h6 => ?_)
        · unfold x6
          refine Keeps.ite (fun _ => ?_) (fun _ => ?_)
          · exact h5
          · refine Keeps.after (State.bootSelect_keeps _ _) (by decide) ?_
            exact h5
        · refine Keeps.after (State.judgeMain_keeps _) (by decide) ?_
          refine Keeps.ite (fun _ => ?_) (fun _ => ?_)
          · exact h6
          · refine Keeps.ite (fun _ => ?_) (fun _ => ?_)
            · refine Keeps.after (State.wdgStart_keeps _) (by decide) ?_
              exact h6
            · refine Keeps.ite (fun _ => ?_) (fun _ => ?_)
              · exact h6
              · refine Keeps.after (State.cxlPortsStart_keeps _) (by decide) ?_
                exact h6

theorem State.routesRestore_keeps (s : State) :
    Keeps [.regs, .evt, .evr, .chans, .cxl, .out] s (State.routesRestore s) := by
  unfold State.routesRestore
  split
  extract_lets -merge +onlyGivenNames x1
  extract_lets -merge +onlyGivenNames x2
  refine Keeps.of_let x2 ?_ (fun h2 => ?_)
  · unfold x2
    refine Keeps.foldl _ (fun _ _ => ?_) ?_
    · extract_lets -merge +onlyGivenNames x3
      refine Keeps.ite (fun _ => ?_) (fun _ => ?_)
      · exact Keeps.refl _ _
      · refine Keeps.after (State.setReg_keeps _ _ _ _) (by decide) ?_
        exact Keeps.refl _ _
    · refine Keeps.of_snd (by assumption) ?_
      refine Keeps.after (State.nvRead_keeps _ _) (by decide) ?_
      exact Keeps.refl _ _
  · extract_lets -merge +onlyGivenNames x3
    refine Keeps.of_let x3 ?_ (fun h3 => ?_)
    · unfold x3
      refine Keeps.after (State.setBit_keeps _ _ _ _ _) (by decide) ?_
      refine Keeps.after (State.setBit_keeps _ _ _ _ _) (by decide) ?_
      exact h2
    · extract_lets -merge +onlyGivenNames x4
      refine Keeps.set_evt (by decide) ?_
      exact h3

theorem State.railsDownGroup_keeps (s : State) (g : Nat) :
    Keeps [.regs, .evt, .tally, .sched, .nv, .evr, .chans, .med, .bench, .xlt, .twin, .cxl, .rdma, .sec, .out, .fresh] s (State.railsDownGroup s g) := by
  unfold State.railsDownGroup
  extract_lets -merge +onlyGivenNames x1
  refine Keeps.of_let x1 ?_ (fun h1 => ?_)
  · unfold x1
    refine Keeps.after (State.stampPowered_keeps _ _) (by decide) ?_
    exact Keeps.refl _ _
  · extract_lets -merge +onlyGivenNames x2
    refine Keeps.of_let x2 ?_ (fun h2 => ?_)
    · unfold x2
      refine Keeps.foldl _ (fun _ _ => ?_) ?_
      · extract_lets -merge +onlyGivenNames x3
        extract_lets -merge +onlyGivenNames x4
        refine Keeps.after (State.setQc_keeps _ _ _) (by decide) ?_
        exact Keeps.refl _ _
      · exact h1
    · extract_lets -merge +onlyGivenNames x3
      extract_lets -merge +onlyGivenNames x4
      refine Keeps.of_let x4 ?_ (fun h4 => ?_)
      · unfold x4
        refine Keeps.after (State.setMed_keeps _ _) (by decide) ?_
        exact h2
      · extract_lets -merge +onlyGivenNames x5
        extract_lets -merge +onlyGivenNames x6
        extract_lets -merge +onlyGivenNames x7
        refine Keeps.of_let x7 ?_ (fun h7 => ?_)
        · unfold x7
          refine Keeps.after (State.judgeQg_keeps _ _) (by decide) ?_
          refine Keeps.after (State.setQg_keeps _ _ _) (by decide) ?_
          exact h4
        · refine Keeps.after (State.settleMed_keeps _) (by decide) ?_
          refine Keeps.after (State.drainLostDies_keeps _) (by decide) ?_
          refine Keeps.after (State.judgeTsl_keeps _) (by decide) ?_
          refine Keeps.after (State.judgeBench_keeps _) (by decide) ?_
          refine Keeps.after (State.divert_keeps _ _) (by decide) ?_
          exact h7

theorem State.groupUp_keeps (s : State) (g : Nat) :
    Keeps [.regs, .evt, .evr, .chans, .med, .cxl, .out] s (State.groupUp s g) := by
  unfold State.groupUp
  refine Keeps.ite (fun _ => ?_) (fun _ => ?_)
  · extract_lets -merge +onlyGivenNames x1
    extract_lets -merge +onlyGivenNames x2
    refine Keeps.of_let x2 ?_ (fun h2 => ?_)
    · unfold x2
      refine Keeps.after (State.setQg_keeps _ _ _) (by decide) ?_
      exact Keeps.refl _ _
    · refine Keeps.after (State.judgeQg_keeps _ _) (by decide) ?_
      refine Keeps.after (State.setMed_keeps _ _) (by decide) ?_
      exact h2
  · exact Keeps.refl _ _

theorem State.groupsUp_keeps (s : State) :
    Keeps [.regs, .evt, .evr, .chans, .med, .cxl, .out] s (State.groupsUp s) := by
  unfold State.groupsUp
  refine Keeps.foldl _ (fun _ _ => ?_) ?_
  · refine Keeps.after (State.groupUp_keeps _ _) (by decide) ?_
    exact Keeps.refl _ _
  · exact Keeps.refl _ _

theorem State.macsDown_keeps (s : State) :
    Keeps [.regs, .evt, .tally, .evr, .chans, .cxl, .rdma, .out] s (State.macsDown s) := by
  unfold State.macsDown
  extract_lets -merge +onlyGivenNames x1
  extract_lets -merge +onlyGivenNames x2
  refine Keeps.of_let x2 ?_ (fun h2 => ?_)
  · unfold x2
    refine Keeps.set_rdma (by decide) ?_
    exact Keeps.refl _ _
  · extract_lets -merge +onlyGivenNames x3
    extract_lets -merge +onlyGivenNames x4
    refine Keeps.of_let x4 ?_ (fun h4 => ?_)
    · unfold x4
      refine Keeps.after (State.selectSource_keeps _) (by decide) ?_
      refine Keeps.after (State.setTally_keeps _ _) (by decide) ?_
      exact h2
    · refine Keeps.foldl _ (fun _ _ => ?_) ?_
      · refine Keeps.after (State.judgeMac_keeps _ _) (by decide) ?_
        exact Keeps.refl _ _
      · exact h4

theorem State.cxlDown_keeps (s : State) :
    Keeps [.regs, .evt, .evr, .chans, .med, .bench, .xlt, .twin, .cxl, .rdma, .sec, .out, .fresh] s (State.cxlDown s) := by
  unfold State.cxlDown
  refine Keeps.after (State.settle_keeps _) (by decide) ?_
  refine Keeps.after (State.judgeCxl_keeps _) (by decide) ?_
  refine Keeps.foldl _ (fun _ _ => ?_) ?_
  · refine Keeps.ite (fun _ => ?_) (fun _ => ?_)
    · exact Keeps.refl _ _
    · extract_lets -merge +onlyGivenNames x1
      refine Keeps.of_let x1 ?_ (fun h1 => ?_)
      · unfold x1
        refine Keeps.after (State.portReset_keeps _ _) (by decide) ?_
        exact Keeps.refl _ _
      · refine Keeps.after (State.setCport_keeps _ _ _) (by decide) ?_
        exact h1
  · exact Keeps.refl _ _

theorem State.tandemDown_keeps (s : State) :
    Keeps [.regs, .evt, .tally, .nv, .evr, .chans, .med, .bench, .xlt, .twin, .cxl, .rdma, .sec, .out, .fresh] s (State.tandemDown s) := by
  unfold State.tandemDown
  extract_lets -merge +onlyGivenNames x1
  extract_lets -merge +onlyGivenNames x2
  extract_lets -merge +onlyGivenNames x3
  refine Keeps.of_let x3 ?_ (fun h3 => ?_)
  · unfold x3
    refine Keeps.after (State.setTport_keeps _ _ _) (by decide) ?_
    refine Keeps.after (State.setTport_keeps _ _ _) (by decide) ?_
    exact Keeps.refl _ _
  · refine Keeps.after (State.judgeTdm_keeps _) (by decide) ?_
    refine Keeps.after (State.declareLoss_keeps _) (by decide) ?_
    refine Keeps.after (State.selectSource_keeps _) (by decide) ?_
    refine Keeps.after (State.setTally_keeps _ _) (by decide) ?_
    exact h3

/-! ### DramOps -/

theorem State.tableLost_keeps (s : State) :
    Keeps [.regs, .evt, .evr, .chans, .xlt, .cxl, .out] s (State.tableLost s) := by
  unfold State.tableLost
  refine Keeps.after (State.judgeXlt_keeps _) (by decide) ?_
  refine Keeps.after (State.cause_keeps _ _ _ _ _) (by decide) ?_
  refine Keeps.after (State.setXlt_keeps _ _) (by decide) ?_
  exact Keeps.refl _ _

theorem State.dramLost_keeps (s : State) (a : DramArray) :
    Keeps [.regs, .evt, .evr, .chans, .med, .xlt, .cxl, .rdma, .out] s (State.dramLost s a) := by
  unfold State.dramLost
  split
  · refine Keeps.after (State.tableLost_keeps _) (by decide) ?_
    refine Keeps.ite (fun _ => ?_) (fun _ => ?_)
    · exact Keeps.refl _ _
    · refine Keeps.after (State.setXlt_keeps _ _) (by decide) ?_
      exact Keeps.refl _ _
  · refine Keeps.after (State.tableLost_keeps _) (by decide) ?_
    refine Keeps.ite (fun _ => ?_) (fun _ => ?_)
    · exact Keeps.refl _ _
    · refine Keeps.after (State.setXlt_keeps _ _) (by decide) ?_
      exact Keeps.refl _ _
  · extract_lets -merge +onlyGivenNames x1
    refine Keeps.after (State.tableLost_keeps _) (by decide) ?_
    refine Keeps.after (State.setXlt_keeps _ _) (by decide) ?_
    exact Keeps.refl _ _
  · refine Keeps.after (State.cause_keeps _ _ _ _ _) (by decide) ?_
    exact Keeps.refl _ _
  · extract_lets -merge +onlyGivenNames x1
    refine Keeps.ite (fun _ => ?_) (fun _ => ?_)
    · refine Keeps.after (State.startDemote_keeps _ _) (by decide) ?_
      exact Keeps.refl _ _
    · refine Keeps.ite (fun _ => ?_) (fun _ => ?_)
      · refine Keeps.after (State.endPromotion_keeps _ _) (by decide) ?_
        exact Keeps.refl _ _
      · exact Keeps.refl _ _
  · refine Keeps.foldl _ (fun _ _ => ?_) ?_
    · refine Keeps.ite (fun _ => ?_) (fun _ => ?_)
      · refine Keeps.after (State.endPromotion_keeps _ _) (by decide) ?_
        exact Keeps.refl _ _
      · exact Keeps.refl _ _
    · exact Keeps.refl _ _
  · refine Keeps.ite (fun _ => ?_) (fun _ => ?_)
    · refine Keeps.after (State.qpError_keeps _ _ _ _) (by decide) ?_
      refine Keeps.after (State.cause_keeps _ _ _ _ _) (by decide) ?_
      exact Keeps.refl _ _
    · exact Keeps.refl _ _
  · refine Keeps.set_rdma (by decide) ?_
    exact Keeps.refl _ _
  · extract_lets -merge +onlyGivenNames x1
    extract_lets -merge +onlyGivenNames x2
    extract_lets -merge +onlyGivenNames x3
    refine Keeps.of_let x3 ?_ (fun h3 => ?_)
    · unfold x3
      refine Keeps.set_rdma (by decide) ?_
      exact Keeps.refl _ _
    · refine Keeps.foldl _ (fun _ _ => ?_) ?_
      · refine Keeps.after (State.qpError_keeps _ _ _ _) (by decide) ?_
        exact Keeps.refl _ _
      · exact h3
  · refine Keeps.after (State.qpError_keeps _ _ _ _) (by decide) ?_
    exact Keeps.refl _ _
  · extract_lets -merge +onlyGivenNames x1
    refine Keeps.after (State.setChan_keeps _ _ _) (by decide) ?_
    exact Keeps.refl _ _
  · exact Keeps.refl _ _

theorem State.dramAllLost_keeps (s : State) :
    Keeps [.regs, .evt, .evr, .chans, .med, .xlt, .cxl, .rdma, .dram, .out] s (State.dramAllLost s) := by
  unfold State.dramAllLost
  extract_lets -merge +onlyGivenNames x1
  refine Keeps.of_let x1 ?_ (fun h1 => ?_)
  · unfold x1
    refine Keeps.after (State.pagesGone_keeps _ _) (by decide) ?_
    exact Keeps.refl _ _
  · extract_lets -merge +onlyGivenNames x2
    extract_lets -merge +onlyGivenNames x3
    refine Keeps.of_let x3 ?_ (fun h3 => ?_)
    · unfold x3
      refine Keeps.after (State.setXlt_keeps _ _) (by decide) ?_
      exact h1
    · extract_lets -merge +onlyGivenNames x4
      refine Keeps.of_let x4 ?_ (fun h4 => ?_)
      · unfold x4
        refine Keeps.foldl _ (fun _ _ => ?_) ?_
        · refine Keeps.after (State.dramLost_keeps _ _) (by decide) ?_
          exact Keeps.refl _ _
        · refine Keeps.after (State.tableLost_keeps _) (by decide) ?_
          exact h3
      · extract_lets -merge +onlyGivenNames x5
        refine Keeps.of_let x5 ?_ (fun h5 => ?_)
        · unfold x5
          refine Keeps.set_chans (by decide) ?_
          exact h4
        · extract_lets -merge +onlyGivenNames x6
          extract_lets -merge +onlyGivenNames x7
          refine Keeps.of_let x7 ?_ (fun h7 => ?_)
          · unfold x7
            refine Keeps.foldl _ (fun _ _ => ?_) ?_
            · refine Keeps.after (State.dramLost_keeps _ _) (by decide) ?_
              exact Keeps.refl _ _
            · exact h5
          · refine Keeps.foldl _ (fun _ _ => ?_) ?_
            · refine Keeps.after (State.dramLost_keeps _ _) (by decide) ?_
              exact Keeps.refl _ _
            · exact h7

theorem State.judgeDram_keeps (s : State) :
    Keeps [.regs, .evt, .evr, .chans, .cxl, .out] s (State.judgeDram s) := by
  unfold State.judgeDram
  extract_lets -merge +onlyGivenNames x1
  refine Keeps.of_let x1 ?_ (fun h1 => ?_)
  · unfold x1
    refine Keeps.after (State.level_keeps _ _ _ _ _ _ _) (by decide) ?_
    exact Keeps.refl _ _
  · extract_lets -merge +onlyGivenNames x2
    refine Keeps.of_let x2 ?_ (fun h2 => ?_)
    · unfold x2
      refine Keeps.after (State.level_keeps _ _ _ _ _ _ _) (by decide) ?_
      exact h1
    · refine Keeps.after (State.level_keeps _ _ _ _ _ _ _) (by decide) ?_
      exact h2

theorem State.poolShrink_keeps (s : State) :
    Keeps [.regs, .evt, .evr, .chans, .med, .xlt, .cxl, .out] s (State.poolShrink s) := by
  unfold State.poolShrink
  extract_lets -merge +onlyGivenNames x1
  extract_lets -merge +onlyGivenNames x2
  extract_lets -merge +onlyGivenNames x3
  refine Keeps.of_let x3 ?_ (fun h3 => ?_)
  · unfold x3
    refine Keeps.after (State.setXlt_keeps _ _) (by decide) ?_
    exact Keeps.refl _ _
  · extract_lets -merge +onlyGivenNames x4
    refine Keeps.foldl _ (fun _ _ => ?_) ?_
    · split
      · refine Keeps.after (State.startDemote_keeps _ _) (by decide) ?_
        exact Keeps.refl _ _
      · exact Keeps.refl _ _
    · exact h3

theorem State.retireSet_keeps (s : State) (set : Nat) (held : List DramArray) :
    Keeps [.regs, .evt, .evr, .chans, .med, .xlt, .twin, .cxl, .rdma, .dram, .out] s (State.retireSet s set held) := by
  unfold State.retireSet
  extract_lets -merge +onlyGivenNames x1
  refine Keeps.of_let x1 ?_ (fun h1 => ?_)
  · unfold x1
    refine Keeps.after (State.pagesGone_keeps _ _) (by decide) ?_
    exact Keeps.refl _ _
  · extract_lets -merge +onlyGivenNames x2
    extract_lets -merge +onlyGivenNames x3
    refine Keeps.of_let x3 ?_ (fun h3 => ?_)
    · unfold x3
      refine Keeps.after (State.setDram_keeps _ _) (by decide) ?_
      exact h1
    · extract_lets -merge +onlyGivenNames x4
      refine Keeps.of_let x4 ?_ (fun h4 => ?_)
      · unfold x4
        refine Keeps.after (State.level_keeps _ _ _ _ _ _ _) (by decide) ?_
        refine Keeps.after (State.cause_keeps _ _ _ _ _) (by decide) ?_
        exact h3
      · extract_lets -merge +onlyGivenNames x5
        extract_lets -merge +onlyGivenNames x6
        refine Keeps.of_let x6 ?_ (fun h6 => ?_)
        · unfold x6
          refine Keeps.foldl _ (fun _ _ => ?_) ?_
          · refine Keeps.after (State.dramLost_keeps _ _) (by decide) ?_
            exact Keeps.refl _ _
          · refine Keeps.ite (fun _ => ?_) (fun _ => ?_)
            · refine Keeps.after (State.setDram_keeps _ _) (by decide) ?_
              exact h4
            · exact h4
        · extract_lets -merge +onlyGivenNames x7
          extract_lets -merge +onlyGivenNames x8
          extract_lets -merge +onlyGivenNames x9
          refine Keeps.of_let x9 ?_ (fun h9 => ?_)
          · unfold x9
            refine Keeps.after (State.setXlt_keeps _ _) (by decide) ?_
            exact h6
          · refine Keeps.after (State.judgeDram_keeps _) (by decide) ?_
            refine Keeps.after (State.judgeXlt_keeps _) (by decide) ?_
            refine Keeps.after (State.poolShrink_keeps _) (by decide) ?_
            refine Keeps.ite (fun _ => ?_) (fun _ => ?_)
            · refine Keeps.foldl _ (fun _ _ => ?_) ?_
              · refine Keeps.after (State.fenceWitness_keeps _ _) (by decide) ?_
                exact Keeps.refl _ _
              · exact h9
            · exact h9

theorem State.retireRank_keeps (s : State) (c : Nat) (k : Nat) (held : List DramArray) :
    Keeps [.regs, .evt, .evr, .chans, .med, .xlt, .twin, .cxl, .rdma, .dram, .out] s (State.retireRank s c k held) := by
  unfold State.retireRank
  extract_lets -merge +onlyGivenNames x1
  refine Keeps.ite (fun _ => ?_) (fun _ => ?_)
  · exact Keeps.refl _ _
  · refine Keeps.ite (fun _ => ?_) (fun _ => ?_)
    · refine Keeps.after (State.setRank_keeps _ _ _ _) (by decide) ?_
      exact Keeps.refl _ _
    · refine Keeps.ite (fun _ => ?_) (fun _ => ?_)
      · refine Keeps.after (State.judgeDram_keeps _) (by decide) ?_
        refine Keeps.after (State.setRank_keeps _ _ _ _) (by decide) ?_
        exact Keeps.refl _ _
      · refine Keeps.after (State.retireSet_keeps _ _ _) (by decide) ?_
        exact Keeps.refl _ _

theorem State.trainChannel_keeps (s : State) (c : Nat) :
    Keeps [.regs, .evt, .evr, .chans, .cxl, .dram, .out] s (State.trainChannel s c) := by
  unfold State.trainChannel
  extract_lets -merge +onlyGivenNames x1
  extract_lets -merge +onlyGivenNames x2
  extract_lets -merge +onlyGivenNames x3
  extract_lets -merge +onlyGivenNames x4
  refine Keeps.of_let x4 ?_ (fun h4 => ?_)
  · unfold x4
    refine Keeps.foldl _ (fun _ _ => ?_) ?_
    · refine Keeps.after (State.setRank_keeps _ _ _ _) (by decide) ?_
      exact Keeps.refl _ _
    · exact Keeps.refl _ _
  · extract_lets -merge +onlyGivenNames x5
    refine Keeps.of_let x5 ?_ (fun h5 => ?_)
    · unfold x5
      clear_value x2
      split
      · refine Keeps.ite (fun _ => ?_) (fun _ => ?_)
        · exact h4
        · refine Keeps.after (State.setRank_keeps _ _ _ _) (by decide) ?_
          exact h4
      · exact h4
    · refine Keeps.ite (fun _ => ?_) (fun _ => ?_)
      · refine Keeps.after (State.level_keeps _ _ _ _ _ _ _) (by decide) ?_
        exact h5
      · exact h5

theorem State.trainBench_keeps (s : State) :
    Keeps [.regs, .evt, .evr, .chans, .cxl, .dram, .out] s (State.trainBench s) := by
  unfold State.trainBench
  extract_lets -merge +onlyGivenNames x1
  extract_lets -merge +onlyGivenNames x2
  refine Keeps.of_let x2 ?_ (fun h2 => ?_)
  · unfold x2
    refine Keeps.foldl _ (fun _ _ => ?_) ?_
    · refine Keeps.after (State.trainChannel_keeps _ _) (by decide) ?_
      exact Keeps.refl _ _
    · refine Keeps.after (State.setDram_keeps _ _) (by decide) ?_
      exact Keeps.refl _ _
  · extract_lets -merge +onlyGivenNames x3
    extract_lets -merge +onlyGivenNames x4
    extract_lets -merge +onlyGivenNames x5
    refine Keeps.of_let x5 ?_ (fun h5 => ?_)
    · unfold x5
      refine Keeps.after (State.setDram_keeps _ _) (by decide) ?_
      exact h2
    · refine Keeps.after (State.judgeDram_keeps _) (by decide) ?_
      refine Keeps.after (State.setDram_keeps _ _) (by decide) ?_
      exact h5

theorem State.dramSleep_keeps (s : State) :
    Keeps [.dram, .out] s (State.dramSleep s) := by
  unfold State.dramSleep
  refine Keeps.ite (fun _ => ?_) (fun _ => ?_)
  · refine Keeps.after (State.emit_keeps _ _) (by decide) ?_
    refine Keeps.after (State.setDram_keeps _ _) (by decide) ?_
    exact Keeps.refl _ _
  · exact Keeps.refl _ _

theorem State.dramWake_keeps (s : State) :
    Keeps [.dram, .out] s (State.dramWake s) := by
  unfold State.dramWake
  refine Keeps.ite (fun _ => ?_) (fun _ => ?_)
  · refine Keeps.after (State.emit_keeps _ _) (by decide) ?_
    refine Keeps.after (State.setDram_keeps _ _) (by decide) ?_
    exact Keeps.refl _ _
  · exact Keeps.refl _ _

theorem State.ddrReturn_keeps (s : State) :
    Keeps [.regs, .evt, .evr, .chans, .med, .bench, .xlt, .twin, .cxl, .rdma, .sec, .dram, .out, .fresh] s (State.ddrReturn s) := by
  unfold State.ddrReturn
  refine Keeps.ite (fun _ => ?_) (fun _ => ?_)
  · exact Keeps.refl _ _
  · refine Keeps.after (State.settle_keeps _) (by decide) ?_
    refine Keeps.after (State.dramAllLost_keeps _) (by decide) ?_
    refine Keeps.after (State.emit_keeps _ _) (by decide) ?_
    refine Keeps.after (State.trainBench_keeps _) (by decide) ?_
    exact Keeps.refl _ _

/-! ### SlotOps -/

theorem State.slotPass_keeps (s : State) (arg : Word) :
    Keeps [.regs, .evt, .sched, .nv, .evr, .chans, .med, .bench, .xlt, .twin, .cxl, .sec, .out, .fresh] s (State.slotPass s arg).2 := by
  unfold State.slotPass
  extract_lets -merge +onlyGivenNames x1
  dsimp only
  refine Keeps.after (State.judgeTsl_keeps _) (by decide) ?_
  refine Keeps.after (State.medKick_keeps _) (by decide) ?_
  refine Keeps.foldl _ (fun _ _ => ?_) ?_
  · refine Keeps.ite (fun _ => ?_) (fun _ => ?_)
    · refine Keeps.after (State.setPass_keeps _ _ _) (by decide) ?_
      exact Keeps.refl _ _
    · refine Keeps.after (State.setPass_keeps _ _ _) (by decide) ?_
      exact Keeps.refl _ _
  · exact Keeps.refl _ _

theorem State.slotCal_keeps (s : State) (arg : Word) :
    Keeps [.med] s (State.slotCal s arg).2 := by
  unfold State.slotCal
  extract_lets -merge +onlyGivenNames x1
  extract_lets -merge +onlyGivenNames x2
  dsimp only
  refine Keeps.foldl _ (fun _ _ => ?_) ?_
  · refine Keeps.foldl _ (fun _ _ => ?_) ?_
    · refine Keeps.after (State.setDie_keeps _ _ _) (by decide) ?_
      exact Keeps.refl _ _
    · exact Keeps.refl _ _
  · exact Keeps.refl _ _

theorem State.slotSentinel_keeps (s : State) (arg : Word) :
    Keeps [.med, .out] s (State.slotSentinel s arg) := by
  unfold State.slotSentinel
  refine Keeps.foldl _ (fun _ _ => ?_) ?_
  · refine Keeps.foldl _ (fun _ _ => ?_) ?_
    · refine Keeps.after (State.rewriteRungs_keeps _ _) (by decide) ?_
      exact Keeps.refl _ _
    · exact Keeps.refl _ _
  · exact Keeps.refl _ _

theorem State.deadlineMark_keeps (s : State) :
    Keeps [.med] s (State.deadlineMark s) := by
  unfold State.deadlineMark
  split
  · extract_lets -merge +onlyGivenNames x1
    extract_lets -merge +onlyGivenNames x2
    refine Keeps.of_let x2 ?_ (fun h2 => ?_)
    · unfold x2
      refine Keeps.after (State.setDie_keeps _ _ _) (by decide) ?_
      exact Keeps.refl _ _
    · extract_lets -merge +onlyGivenNames x3
      refine Keeps.ite (fun _ => ?_) (fun _ => ?_)
      · exact h2
      · refine Keeps.after (State.setPass_keeps _ _ _) (by decide) ?_
        exact h2
  · exact Keeps.refl _ _

theorem State.slotScrub_keeps (s : State) :
    Keeps [.dram] s (State.slotScrub s).2 := by
  unfold State.slotScrub
  refine Keeps.ite_snd (fun _ => ?_) (fun _ => ?_)
  · dsimp only
    exact Keeps.refl _ _
  · dsimp only
    refine Keeps.after (State.setDram_keeps _ _) (by decide) ?_
    exact Keeps.refl _ _

theorem State.runHeld_keeps (s : State) :
    Keeps [.regs, .evt, .sched, .nv, .evr, .chans, .med, .bench, .xlt, .twin, .cxl, .sec, .dram, .out, .fresh] s (State.runHeld s) := by
  unfold State.runHeld
  extract_lets -merge +onlyGivenNames x1
  refine Keeps.foldl _ (fun _ _ => ?_) ?_
  · extract_lets -merge +onlyGivenNames x2
    split
    · refine Keeps.after (State.slotPass_keeps _ _) (by decide) ?_
      exact Keeps.refl _ _
    · refine Keeps.after (State.slotCal_keeps _ _) (by decide) ?_
      exact Keeps.refl _ _
    · refine Keeps.after (State.slotScrub_keeps _) (by decide) ?_
      exact Keeps.refl _ _
    · refine Keeps.after (State.slotSentinel_keeps _ _) (by decide) ?_
      exact Keeps.refl _ _
    · exact Keeps.refl _ _
  · refine Keeps.set_sched (by decide) ?_
    exact Keeps.refl _ _

/-! ### PsqOps -/

theorem State.offDone_keeps (s : State) :
    Keeps [.regs, .evt, .tally, .nv, .evr, .psq, .chans, .med, .cxl, .out] s (State.offDone s) := by
  unfold State.offDone
  extract_lets -merge +onlyGivenNames x1
  extract_lets -merge +onlyGivenNames x2
  extract_lets -merge +onlyGivenNames x3
  refine Keeps.of_let x3 ?_ (fun h3 => ?_)
  · unfold x3
    refine Keeps.after (State.setPsq_keeps _ _) (by decide) ?_
    exact Keeps.refl _ _
  · refine Keeps.after (State.writeFloor_keeps _ _) (by decide) ?_
    refine Keeps.after (State.setPState_keeps _ _) (by decide) ?_
    exact h3

theorem State.groupsBeforeDown_keeps (s : State) (anchors : Bool) :
    Keeps [.tally, .nv, .med] s (State.groupsBeforeDown s anchors) := by
  unfold State.groupsBeforeDown
  refine Keeps.foldl _ (fun _ _ => ?_) ?_
  · refine Keeps.ite (fun _ => ?_) (fun _ => ?_)
    · refine Keeps.after (State.stampPowered_keeps _ _) (by decide) ?_
      refine Keeps.ite (fun _ => ?_) (fun _ => ?_)
      · refine Keeps.after (State.rewriteAnchors_keeps _ _) (by decide) ?_
        exact Keeps.refl _ _
      · exact Keeps.refl _ _
    · exact Keeps.refl _ _
  · exact Keeps.refl _ _

theorem State.groupsOff_keeps (s : State) :
    Keeps [.med] s (State.groupsOff s) := by
  unfold State.groupsOff
  refine Keeps.after (State.setMed_keeps _ _) (by decide) ?_
  exact Keeps.refl _ _

theorem State.powerDown_keeps (s : State) (r : Reaction) (fast : Bool) :
    Keeps [.regs, .csr, .evt, .ecc, .tally, .nv, .evr, .wdg, .flash, .psq, .chans, .med, .bench, .xlt, .twin, .cxl, .rdma, .sec, .dram, .out] s (State.powerDown s r fast) := by
  unfold State.powerDown
  extract_lets -merge +onlyGivenNames x1
  extract_lets -merge +onlyGivenNames x2
  refine Keeps.of_let x2 ?_ (fun h2 => ?_)
  · unfold x2
    refine Keeps.after (State.writeFloor_keeps _ _) (by decide) ?_
    refine Keeps.after (State.groupsBeforeDown_keeps _ _) (by decide) ?_
    exact Keeps.refl _ _
  · extract_lets -merge +onlyGivenNames x3
    refine Keeps.of_let x3 ?_ (fun h3 => ?_)
    · unfold x3
      refine Keeps.after (State.groupsOff_keeps _) (by decide) ?_
      refine Keeps.after (State.mainReset_keeps _) (by decide) ?_
      refine Keeps.after (State.writeDeadline_keeps _) (by decide) ?_
      exact h2
    · extract_lets -merge +onlyGivenNames x4
      extract_lets -merge +onlyGivenNames x5
      extract_lets -merge +onlyGivenNames x6
      refine Keeps.of_let x6 ?_ (fun h6 => ?_)
      · unfold x6
        refine Keeps.after (State.setPState_keeps _ _) (by decide) ?_
        refine Keeps.after (State.setPsq_keeps _ _) (by decide) ?_
        exact h3
      · refine Keeps.ite (fun _ => ?_) (fun _ => ?_)
        · refine Keeps.after (State.offDone_keeps _) (by decide) ?_
          refine Keeps.after (State.fastDown_keeps _) (by decide) ?_
          exact h6
        · refine Keeps.ite (fun _ => ?_) (fun _ => ?_)
          · refine Keeps.after (State.offDone_keeps _) (by decide) ?_
            exact h6
          · refine Keeps.after (State.startDown_keeps _ _ _) (by decide) ?_
            exact h6

theorem State.warmReset_keeps (s : State) :
    Keeps [.regs, .csr, .evt, .ecc, .tally, .evr, .wdg, .flash, .psq, .chans, .med, .bench, .xlt, .twin, .cxl, .rdma, .sec, .dram, .out] s (State.warmReset s) := by
  unfold State.warmReset
  extract_lets -merge +onlyGivenNames x1
  refine Keeps.of_let x1 ?_ (fun h1 => ?_)
  · unfold x1
    refine Keeps.after (State.mainReset_keeps _) (by decide) ?_
    exact Keeps.refl _ _
  · extract_lets -merge +onlyGivenNames x2
    extract_lets -merge +onlyGivenNames x3
    extract_lets -merge +onlyGivenNames x4
    refine Keeps.of_let x4 ?_ (fun h4 => ?_)
    · unfold x4
      refine Keeps.after (State.setPsq_keeps _ _) (by decide) ?_
      exact h1
    · split
      · refine Keeps.after (State.setPState_keeps _ _) (by decide) ?_
        exact h4
      · refine Keeps.after (State.startUp_keeps _ _ _) (by decide) ?_
        refine Keeps.after (State.setPState_keeps _ _) (by decide) ?_
        exact h4
      · refine Keeps.after (State.startUp_keeps _ _ _) (by decide) ?_
        refine Keeps.after (State.setPState_keeps _ _) (by decide) ?_
        exact h4
      · exact h4

theorem State.keepRails_keeps (s : State) :
    Keeps [.regs, .evt, .tally, .sched, .nv, .evr, .psq, .chans, .med, .bench, .xlt, .twin, .cxl, .rdma, .sec, .dram, .out, .fresh] s (State.keepRails s) := by
  unfold State.keepRails
  extract_lets -merge +onlyGivenNames x1
  refine Keeps.of_let x1 ?_ (fun h1 => ?_)
  · unfold x1
    refine Keeps.after (State.groupsBeforeDown_keeps _ _) (by decide) ?_
    refine Keeps.after (State.dramSleep_keeps _) (by decide) ?_
    refine Keeps.after (State.tandemDown_keeps _) (by decide) ?_
    refine Keeps.after (State.cxlDown_keeps _) (by decide) ?_
    refine Keeps.after (State.macsDown_keeps _) (by decide) ?_
    exact Keeps.refl _ _
  · extract_lets -merge +onlyGivenNames x2
    refine Keeps.of_let x2 ?_ (fun h2 => ?_)
    · unfold x2
      refine Keeps.foldl _ (fun _ _ => ?_) ?_
      · refine Keeps.ite (fun _ => ?_) (fun _ => ?_)
        · refine Keeps.after (State.railsDownGroup_keeps _ _) (by decide) ?_
          exact Keeps.refl _ _
        · exact Keeps.refl _ _
      · exact h1
    · refine Keeps.after (State.startDown_keeps _ _ _) (by decide) ?_
      exact h2

theorem State.carryOut_keeps (s : State) (r : Reaction) :
    Keeps [.regs, .csr, .evt, .ecc, .tally, .sched, .nv, .evr, .wdg, .flash, .psq, .chans, .med, .bench, .xlt, .twin, .cxl, .rdma, .sec, .dram, .out, .fresh] s (State.carryOut s r) := by
  unfold State.carryOut
  split
  · refine Keeps.after (State.keepRails_keeps _) (by decide) ?_
    exact Keeps.refl _ _
  · refine Keeps.after (State.warmReset_keeps _) (by decide) ?_
    exact Keeps.refl _ _
  · refine Keeps.after (State.powerDown_keeps _ _ _) (by decide) ?_
    exact Keeps.refl _ _

theorem State.react_keeps (s : State) (r : Reaction) :
    Keeps [.regs, .csr, .evt, .ecc, .tally, .sched, .nv, .evr, .wdg, .flash, .psq, .chans, .med, .bench, .xlt, .twin, .cxl, .rdma, .sec, .dram, .out, .fresh] s (State.react s r) := by
  unfold State.react
  extract_lets -merge +onlyGivenNames x1
  extract_lets -merge +onlyGivenNames x2
  extract_lets -merge +onlyGivenNames x3
  refine Keeps.ite (fun _ => ?_) (fun _ => ?_)
  · extract_lets -merge +onlyGivenNames x4
    extract_lets -merge +onlyGivenNames x5
    extract_lets -merge +onlyGivenNames x6
    refine Keeps.of_let x6 ?_ (fun h6 => ?_)
    · unfold x6
      refine Keeps.after (State.setFlash_keeps _ _) (by decide) ?_
      refine Keeps.after (State.setPsq_keeps _ _) (by decide) ?_
      exact Keeps.refl _ _
    · refine Keeps.after (State.cause_keeps _ _ _ _ _) (by decide) ?_
      refine Keeps.after (State.setWdg_keeps _ _) (by decide) ?_
      exact h6
  · refine Keeps.after (State.carryOut_keeps _ _) (by decide) ?_
    exact Keeps.refl _ _

theorem State.holdOver_keeps (s : State) :
    Keeps [.regs, .csr, .evt, .ecc, .tally, .sched, .nv, .evr, .wdg, .flash, .psq, .chans, .med, .bench, .xlt, .twin, .cxl, .rdma, .sec, .dram, .out, .fresh] s (State.holdOver s) := by
  unfold State.holdOver
  split
  · exact Keeps.refl _ _
  · extract_lets -merge +onlyGivenNames x1
    extract_lets -merge +onlyGivenNames x2
    refine Keeps.of_let x2 ?_ (fun h2 => ?_)
    · unfold x2
      refine Keeps.after (State.setPsq_keeps _ _) (by decide) ?_
      exact Keeps.refl _ _
    · refine Keeps.after (State.carryOut_keeps _ _) (by decide) ?_
      refine Keeps.after (State.setWdg_keeps _ _) (by decide) ?_
      exact h2

theorem State.noteTrigger_keeps (s : State) (code : Nat) :
    Keeps [.bench] s (State.noteTrigger s code) := by
  unfold State.noteTrigger
  extract_lets -merge +onlyGivenNames x1
  refine Keeps.after (State.setBench_keeps _ _) (by decide) ?_
  exact Keeps.refl _ _

theorem State.takeTrigger_keeps (s : State) (code : Nat) :
    Keeps [.regs, .csr, .evt, .ecc, .tally, .sched, .nv, .evr, .wdg, .flash, .psq, .chans, .med, .bench, .xlt, .twin, .cxl, .rdma, .sec, .dram, .out, .fresh] s (State.takeTrigger s code) := by
  unfold State.takeTrigger
  extract_lets -merge +onlyGivenNames x1
  split
  · refine Keeps.after (State.setPsq_keeps _ _) (by decide) ?_
    exact Keeps.refl _ _
  · split
    · extract_lets -merge +onlyGivenNames x2
      refine Keeps.of_let x2 ?_ (fun h2 => ?_)
      · unfold x2
        refine Keeps.after (State.noteTrigger_keeps _ _) (by decide) ?_
        exact Keeps.refl _ _
      · extract_lets -merge +onlyGivenNames x3
        refine Keeps.ite (fun _ => ?_) (fun _ => ?_)
        · refine Keeps.after (State.startDrain_keeps _ _ _) (by decide) ?_
          exact h2
        · refine Keeps.ite (fun _ => ?_) (fun _ => ?_)
          · exact h2
          · refine Keeps.after (State.flushKick_keeps _) (by decide) ?_
            refine Keeps.after (State.startLeave_keeps _ _) (by decide) ?_
            refine Keeps.after (State.setBench_keeps _ _) (by decide) ?_
            exact h2
    · refine Keeps.after (State.noteTrigger_keeps _ _) (by decide) ?_
      exact Keeps.refl _ _
    · extract_lets -merge +onlyGivenNames x2
      refine Keeps.of_let x2 ?_ (fun h2 => ?_)
      · unfold x2
        refine Keeps.after (State.noteTrigger_keeps _ _) (by decide) ?_
        exact Keeps.refl _ _
      · split
        · refine Keeps.ite (fun _ => ?_) (fun _ => ?_)
          · refine Keeps.after (State.holdOver_keeps _) (by decide) ?_
            refine Keeps.after (State.setPsq_keeps _ _) (by decide) ?_
            exact h2
          · refine Keeps.after (State.setPsq_keeps _ _) (by decide) ?_
            exact h2
        · refine Keeps.ite (fun _ => ?_) (fun _ => ?_)
          · refine Keeps.after (State.react_keeps _ _) (by decide) ?_
            exact h2
          · exact h2
    · split
      · extract_lets -merge +onlyGivenNames x2
        extract_lets -merge +onlyGivenNames x3
        refine Keeps.of_let x3 ?_ (fun h3 => ?_)
        · unfold x3
          refine Keeps.after (State.setPsq_keeps _ _) (by decide) ?_
          refine Keeps.after (State.noteTrigger_keeps _ _) (by decide) ?_
          exact Keeps.refl _ _
        · refine Keeps.ite (fun _ => ?_) (fun _ => ?_)
          · refine Keeps.after (State.holdOver_keeps _) (by decide) ?_
            exact h3
          · exact h3
      · refine Keeps.after (State.react_keeps _ _) (by decide) ?_
        refine Keeps.after (State.noteTrigger_keeps _ _) (by decide) ?_
        refine Keeps.after (State.setBench_keeps _ _) (by decide) ?_
        exact Keeps.refl _ _

theorem State.drainEnd_keeps (s : State) (g : Drain) :
    Keeps [.regs, .csr, .evt, .ecc, .tally, .sched, .nv, .evr, .wdg, .flash, .psq, .chans, .med, .bench, .xlt, .twin, .cxl, .rdma, .sec, .dram, .out, .fresh] s (State.drainEnd s g) := by
  unfold State.drainEnd
  extract_lets -merge +onlyGivenNames x1
  extract_lets -merge +onlyGivenNames x2
  extract_lets -merge +onlyGivenNames x3
  refine Keeps.of_let x3 ?_ (fun h3 => ?_)
  · unfold x3
    refine Keeps.ite (fun _ => ?_) (fun _ => ?_)
    · exact Keeps.refl _ _
    · refine Keeps.after (State.setDesc_keeps _ _ _) (by decide) ?_
      exact Keeps.refl _ _
  · extract_lets -merge +onlyGivenNames x4
    refine Keeps.of_let x4 ?_ (fun h4 => ?_)
    · unfold x4
      refine Keeps.after (State.record_keeps _ _ _ _ _ _) (by decide) ?_
      exact h3
    · extract_lets -merge +onlyGivenNames x5
      extract_lets -merge +onlyGivenNames x6
      refine Keeps.of_let x6 ?_ (fun h6 => ?_)
      · unfold x6
        refine Keeps.after (State.setBench_keeps _ _) (by decide) ?_
        exact h4
      · refine Keeps.after (State.react_keeps _ _) (by decide) ?_
        refine Keeps.after (State.judgeBench_keeps _) (by decide) ?_
        refine Keeps.after (State.setPsq_keeps _ _) (by decide) ?_
        exact h6

theorem State.wakeWithdraw_keeps (s : State) :
    Keeps [.regs, .tally] s (State.wakeWithdraw s) := by
  unfold State.wakeWithdraw
  refine Keeps.after (State.setBit_keeps _ _ _ _ _) (by decide) ?_
  refine Keeps.after (State.setTally_keeps _ _) (by decide) ?_
  exact Keeps.refl _ _

theorem State.powerUp_keeps (s : State) :
    Keeps [.regs, .evt, .tally, .evr, .psq, .chans, .med, .cxl, .out] s (State.powerUp s) := by
  unfold State.powerUp
  extract_lets -merge +onlyGivenNames x1
  refine Keeps.of_let x1 ?_ (fun h1 => ?_)
  · unfold x1
    refine Keeps.after (State.wakeWithdraw_keeps _) (by decide) ?_
    exact Keeps.refl _ _
  · extract_lets -merge +onlyGivenNames x2
    refine Keeps.of_let x2 ?_ (fun h2 => ?_)
    · unfold x2
      refine Keeps.foldl _ (fun _ _ => ?_) ?_
      · refine Keeps.after (State.setRail_keeps _ _ _) (by decide) ?_
        refine Keeps.after (State.railHeld_keeps _ _ _) (by decide) ?_
        exact Keeps.refl _ _
      · exact h1
    · extract_lets -merge +onlyGivenNames x3
      extract_lets -merge +onlyGivenNames x4
      extract_lets -merge +onlyGivenNames x5
      refine Keeps.of_let x5 ?_ (fun h5 => ?_)
      · unfold x5
        refine Keeps.after (State.setPsq_keeps _ _) (by decide) ?_
        exact h2
      · refine Keeps.after (State.startUp_keeps _ _ _) (by decide) ?_
        refine Keeps.after (State.setPState_keeps _ _) (by decide) ?_
        refine Keeps.after (State.judgeGroupDown_keeps _) (by decide) ?_
        exact h5

theorem State.tryOn_keeps (s : State) :
    Keeps [.regs, .evt, .tally, .evr, .psq, .chans, .med, .cxl, .out] s (State.tryOn s) := by
  unfold State.tryOn
  refine Keeps.ite (fun _ => ?_) (fun _ => ?_)
  · refine Keeps.after (State.powerUp_keeps _) (by decide) ?_
    exact Keeps.refl _ _
  · exact Keeps.refl _ _

theorem State.keepLeave_keeps (s : State) :
    Keeps [.regs, .evt, .tally, .evr, .wdg, .flash, .psq, .chans, .med, .bench, .cxl, .dram, .out] s (State.keepLeave s) := by
  unfold State.keepLeave
  extract_lets -merge +onlyGivenNames x1
  refine Keeps.of_let x1 ?_ (fun h1 => ?_)
  · unfold x1
    refine Keeps.after (State.wakeWithdraw_keeps _) (by decide) ?_
    exact Keeps.refl _ _
  · extract_lets -merge +onlyGivenNames x2
    extract_lets -merge +onlyGivenNames x3
    refine Keeps.of_let x3 ?_ (fun h3 => ?_)
    · unfold x3
      refine Keeps.after (State.setPState_keeps _ _) (by decide) ?_
      refine Keeps.after (State.setPsq_keeps _ _) (by decide) ?_
      exact h1
    · extract_lets -merge +onlyGivenNames x4
      extract_lets -merge +onlyGivenNames x5
      refine Keeps.of_let x5 ?_ (fun h5 => ?_)
      · unfold x5
        refine Keeps.set_evt (by decide) ?_
        exact h3
      · extract_lets -merge +onlyGivenNames x6
        extract_lets -merge +onlyGivenNames x7
        refine Keeps.of_let x7 ?_ (fun h7 => ?_)
        · unfold x7
          refine Keeps.after (State.routesRestore_keeps _) (by decide) ?_
          refine Keeps.after (State.wdgStart_keeps _) (by decide) ?_
          refine Keeps.after (State.setFlash_keeps _ _) (by decide) ?_
          exact h5
        · extract_lets -merge +onlyGivenNames x8
          refine Keeps.of_let x8 ?_ (fun h8 => ?_)
          · unfold x8
            refine Keeps.after (State.judgeMain_keeps _) (by decide) ?_
            refine Keeps.after (State.cxlPortsStart_keeps _) (by decide) ?_
            refine Keeps.after (State.dramWake_keeps _) (by decide) ?_
            exact h7
          · refine Keeps.after (State.startUp_keeps _ _ _) (by decide) ?_
            refine Keeps.ite (fun _ => ?_) (fun _ => ?_)
            · refine Keeps.after (State.deadlineMark_keeps _) (by decide) ?_
              exact h8
            · exact h8

theorem State.onRequest_keeps (s : State) :
    Keeps [.regs, .evt, .tally, .evr, .wdg, .flash, .psq, .chans, .med, .bench, .cxl, .dram, .out] s (State.onRequest s) := by
  unfold State.onRequest
  split
  · refine Keeps.after (State.tryOn_keeps _) (by decide) ?_
    refine Keeps.after (State.setPsq_keeps _ _) (by decide) ?_
    refine Keeps.after (State.wakeWithdraw_keeps _) (by decide) ?_
    exact Keeps.refl _ _
  · refine Keeps.after (State.crossed_keeps _) (by decide) ?_
    refine Keeps.after (State.setPsq_keeps _ _) (by decide) ?_
    exact Keeps.refl _ _
  · refine Keeps.after (State.keepLeave_keeps _) (by decide) ?_
    exact Keeps.refl _ _
  · refine Keeps.after (State.crossed_keeps _) (by decide) ?_
    refine Keeps.after (State.setPsq_keeps _ _) (by decide) ?_
    exact Keeps.refl _ _
  · exact Keeps.refl _ _

theorem State.offCheck_keeps (s : State) :
    Keeps [.regs, .csr, .evt, .ecc, .tally, .nv, .evr, .wdg, .flash, .psq, .chans, .med, .bench, .xlt, .twin, .cxl, .rdma, .sec, .dram, .out] s (State.offCheck s) := by
  unfold State.offCheck
  split
  · refine Keeps.ite (fun _ => ?_) (fun _ => ?_)
    · refine Keeps.after (State.powerDown_keeps _ _ _) (by decide) ?_
      exact Keeps.refl _ _
    · exact Keeps.refl _ _
  · exact Keeps.refl _ _

theorem State.offRequest_keeps (s : State) (forced : Bool) :
    Keeps [.regs, .csr, .evt, .ecc, .tally, .sched, .nv, .evr, .wdg, .flash, .psq, .chans, .med, .bench, .xlt, .twin, .cxl, .rdma, .sec, .dram, .out, .fresh] s (State.offRequest s forced) := by
  unfold State.offRequest
  extract_lets -merge +onlyGivenNames x1
  split
  · refine Keeps.after (State.takeTrigger_keeps _ _) (by decide) ?_
    refine Keeps.after (State.setPState_keeps _ _) (by decide) ?_
    exact Keeps.refl _ _
  · refine Keeps.after (State.takeTrigger_keeps _ _) (by decide) ?_
    refine Keeps.after (State.setPState_keeps _ _) (by decide) ?_
    exact Keeps.refl _ _
  · extract_lets -merge +onlyGivenNames x2
    refine Keeps.of_let x2 ?_ (fun h2 => ?_)
    · unfold x2
      refine Keeps.ite (fun _ => ?_) (fun _ => ?_)
      · refine Keeps.after (State.crossed_keeps _) (by decide) ?_
        exact Keeps.refl _ _
      · exact Keeps.refl _ _
    · refine Keeps.after (State.react_keeps _ _) (by decide) ?_
      refine Keeps.after (State.setBench_keeps _ _) (by decide) ?_
      exact h2
  · refine Keeps.after (State.takeTrigger_keeps _ _) (by decide) ?_
    refine Keeps.after (State.crossed_keeps _) (by decide) ?_
    exact Keeps.refl _ _
  · extract_lets -merge +onlyGivenNames x2
    refine Keeps.of_let x2 ?_ (fun h2 => ?_)
    · unfold x2
      refine Keeps.after (State.crossed_keeps _) (by decide) ?_
      exact Keeps.refl _ _
    · refine Keeps.ite (fun _ => ?_) (fun _ => ?_)
      · refine Keeps.after (State.powerDown_keeps _ _ _) (by decide) ?_
        exact h2
      · refine Keeps.after (State.offCheck_keeps _) (by decide) ?_
        refine Keeps.after (State.setPsq_keeps _ _) (by decide) ?_
        exact h2
  · extract_lets -merge +onlyGivenNames x2
    refine Keeps.of_let x2 ?_ (fun h2 => ?_)
    · unfold x2
      refine Keeps.after (State.crossed_keeps _) (by decide) ?_
      exact Keeps.refl _ _
    · refine Keeps.ite (fun _ => ?_) (fun _ => ?_)
      · refine Keeps.after (State.powerDown_keeps _ _ _) (by decide) ?_
        exact h2
      · refine Keeps.after (State.offCheck_keeps _) (by decide) ?_
        refine Keeps.after (State.setPsq_keeps _ _) (by decide) ?_
        exact h2
  · exact Keeps.refl _ _

theorem State.keepEnter_keeps (s : State) :
    Keeps [.regs, .csr, .evt, .ecc, .tally, .sched, .nv, .evr, .wdg, .flash, .psq, .chans, .med, .bench, .xlt, .twin, .cxl, .rdma, .sec, .dram, .out, .fresh] s (State.keepEnter s) := by
  unfold State.keepEnter
  split
  · refine Keeps.after (State.takeTrigger_keeps _ _) (by decide) ?_
    refine Keeps.after (State.setPState_keeps _ _) (by decide) ?_
    exact Keeps.refl _ _
  · refine Keeps.after (State.takeTrigger_keeps _ _) (by decide) ?_
    refine Keeps.after (State.setPState_keeps _ _) (by decide) ?_
    exact Keeps.refl _ _
  · refine Keeps.after (State.crossed_keeps _) (by decide) ?_
    refine Keeps.after (State.setPsq_keeps _ _) (by decide) ?_
    exact Keeps.refl _ _
  · refine Keeps.after (State.crossed_keeps _) (by decide) ?_
    refine Keeps.after (State.setPsq_keeps _ _) (by decide) ?_
    exact Keeps.refl _ _
  · exact Keeps.refl _ _

theorem State.keepLeaveRequest_keeps (s : State) :
    Keeps [.regs, .evt, .tally, .evr, .wdg, .flash, .psq, .chans, .med, .bench, .cxl, .dram, .out] s (State.keepLeaveRequest s) := by
  unfold State.keepLeaveRequest
  refine Keeps.after (State.onRequest_keeps _) (by decide) ?_
  exact Keeps.refl _ _

theorem State.reachActive_keeps (s : State) :
    Keeps [.regs, .csr, .evt, .ecc, .tally, .sched, .nv, .evr, .wdg, .flash, .psq, .chans, .med, .bench, .xlt, .twin, .cxl, .rdma, .sec, .dram, .out, .fresh] s (State.reachActive s) := by
  unfold State.reachActive
  extract_lets -merge +onlyGivenNames x1
  refine Keeps.of_let x1 ?_ (fun h1 => ?_)
  · unfold x1
    refine Keeps.after (State.runHeld_keeps _) (by decide) ?_
    refine Keeps.after (State.setPState_keeps _ _) (by decide) ?_
    exact Keeps.refl _ _
  · refine Keeps.ite (fun _ => ?_) (fun _ => ?_)
    · refine Keeps.after (State.keepEnter_keeps _) (by decide) ?_
      refine Keeps.after (State.setPsq_keeps _ _) (by decide) ?_
      exact h1
    · exact h1

theorem State.keepDone_keeps (s : State) :
    Keeps [.regs, .evt, .tally, .nv, .evr, .wdg, .flash, .psq, .chans, .med, .bench, .cxl, .dram, .out] s (State.keepDone s) := by
  unfold State.keepDone
  extract_lets -merge +onlyGivenNames x1
  refine Keeps.of_let x1 ?_ (fun h1 => ?_)
  · unfold x1
    refine Keeps.after (State.evtDown_keeps _) (by decide) ?_
    refine Keeps.after (State.sourcesLost_keeps _) (by decide) ?_
    refine Keeps.after (State.benchReset_keeps _) (by decide) ?_
    refine Keeps.after (State.writeDeadline_keeps _) (by decide) ?_
    refine Keeps.after (State.writeFloor_keeps _ _) (by decide) ?_
    exact Keeps.refl _ _
  · extract_lets -merge +onlyGivenNames x2
    extract_lets -merge +onlyGivenNames x3
    refine Keeps.of_let x3 ?_ (fun h3 => ?_)
    · unfold x3
      refine Keeps.after (State.wdgPause_keeps _) (by decide) ?_
      refine Keeps.after (State.setFlash_keeps _ _) (by decide) ?_
      exact h1
    · extract_lets -merge +onlyGivenNames x4
      extract_lets -merge +onlyGivenNames x5
      refine Keeps.of_let x5 ?_ (fun h5 => ?_)
      · unfold x5
        refine Keeps.after (State.level_keeps _ _ _ _ _ _ _) (by decide) ?_
        refine Keeps.after (State.setPsq_keeps _ _) (by decide) ?_
        exact h3
      · extract_lets -merge +onlyGivenNames x6
        refine Keeps.of_let x6 ?_ (fun h6 => ?_)
        · unfold x6
          refine Keeps.after (State.setPState_keeps _ _) (by decide) ?_
          exact h5
        · refine Keeps.ite (fun _ => ?_) (fun _ => ?_)
          · refine Keeps.after (State.keepLeave_keeps _) (by decide) ?_
            refine Keeps.after (State.setPsq_keeps _ _) (by decide) ?_
            exact h6
          · exact h6

theorem State.keepOpen_keeps (s : State) :
    Keeps [.regs, .evt, .nv, .evr, .psq, .chans, .bench, .xlt, .twin, .cxl, .out] s (State.keepOpen s) := by
  unfold State.keepOpen
  extract_lets -merge +onlyGivenNames x1
  refine Keeps.ite (fun _ => ?_) (fun _ => ?_)
  · extract_lets -merge +onlyGivenNames x2
    refine Keeps.of_let x2 ?_ (fun h2 => ?_)
    · unfold x2
      refine Keeps.after (State.setDesc_keeps _ _ _) (by decide) ?_
      exact Keeps.refl _ _
    · refine Keeps.after (State.tryOpen_keeps _) (by decide) ?_
      refine Keeps.after (State.setBench_keeps _ _) (by decide) ?_
      exact h2
  · refine Keeps.after (State.replayChoose_keeps _) (by decide) ?_
    exact Keeps.refl _ _

theorem State.burstNext_keeps (s : State) :
    Keeps [.sched, .nv, .wdg, .flash, .psq, .med] s (State.burstNext s) := by
  unfold State.burstNext
  split
  · extract_lets -merge +onlyGivenNames x1
    extract_lets -merge +onlyGivenNames x2
    refine Keeps.of_let x2 ?_ (fun h2 => ?_)
    · unfold x2
      split
      · refine Keeps.after (State.setPass_keeps _ _ _) (by decide) ?_
        refine Keeps.after (State.slotRecord_keeps _ _ _) (by decide) ?_
        exact Keeps.refl _ _
      · exact Keeps.refl _ _
    · extract_lets -merge +onlyGivenNames x3
      extract_lets -merge +onlyGivenNames x4
      extract_lets -merge +onlyGivenNames x5
      refine Keeps.of_let x5 ?_ (fun h5 => ?_)
      · unfold x5
        refine Keeps.after (State.setFlash_keeps _ _) (by decide) ?_
        refine Keeps.after (State.setPsq_keeps _ _) (by decide) ?_
        exact h2
      · extract_lets -merge +onlyGivenNames x6
        refine Keeps.of_let x6 ?_ (fun h6 => ?_)
        · unfold x6
          refine Keeps.after (State.wdgStart_keeps _) (by decide) ?_
          exact h5
        · extract_lets -merge +onlyGivenNames x7
          refine Keeps.of_let x7 ?_ (fun h7 => ?_)
          · unfold x7
            refine Keeps.foldl _ (fun _ _ => ?_) ?_
            · refine Keeps.after (State.setDie_keeps _ _ _) (by decide) ?_
              exact Keeps.refl _ _
            · exact h6
          · refine Keeps.after (State.startUp_keeps _ _ _) (by decide) ?_
            exact h7
  · exact Keeps.refl _ _

theorem State.burstOver_keeps (s : State) :
    Keeps [.sched, .nv, .wdg, .flash, .psq, .med] s (State.burstOver s) := by
  unfold State.burstOver
  extract_lets -merge +onlyGivenNames x1
  extract_lets -merge +onlyGivenNames x2
  extract_lets -merge +onlyGivenNames x3
  refine Keeps.of_let x3 ?_ (fun h3 => ?_)
  · unfold x3
    refine Keeps.after (State.setFlash_keeps _ _) (by decide) ?_
    refine Keeps.after (State.setPsq_keeps _ _) (by decide) ?_
    exact Keeps.refl _ _
  · refine Keeps.after (State.burstNext_keeps _) (by decide) ?_
    refine Keeps.after (State.wdgPause_keeps _) (by decide) ?_
    exact h3

theorem State.onlineChan_keeps (s : State) (n : Nat) :
    Keeps [.regs, .med] s (State.onlineChan s n) := by
  unfold State.onlineChan
  extract_lets -merge +onlyGivenNames x1
  refine Keeps.after (State.setQc_keeps _ _ _) (by decide) ?_
  refine Keeps.after (State.setBit_keeps _ _ _ _ _) (by decide) ?_
  exact Keeps.refl _ _

theorem State.upDone_keeps (s : State) (t : Trans) :
    Keeps [.regs, .csr, .evt, .ecc, .tally, .sched, .nv, .evr, .wdg, .flash, .psq, .chans, .med, .bench, .xlt, .twin, .cxl, .rdma, .sec, .dram, .out, .fresh] s (State.upDone s t) := by
  unfold State.upDone
  extract_lets -merge +onlyGivenNames x1
  extract_lets -merge +onlyGivenNames x2
  refine Keeps.of_let x2 ?_ (fun h2 => ?_)
  · unfold x2
    refine Keeps.after (State.setPsq_keeps _ _) (by decide) ?_
    exact Keeps.refl _ _
  · split
    · extract_lets -merge +onlyGivenNames x3
      extract_lets -merge +onlyGivenNames x4
      refine Keeps.of_let x4 ?_ (fun h4 => ?_)
      · unfold x4
        refine Keeps.after (State.setPsq_keeps _ _) (by decide) ?_
        exact h2
      · refine Keeps.after (State.reachActive_keeps _) (by decide) ?_
        refine Keeps.after (State.groupsUp_keeps _) (by decide) ?_
        refine Keeps.ite (fun _ => ?_) (fun _ => ?_)
        · refine Keeps.after (State.setPsq_keeps _ _) (by decide) ?_
          exact h4
        · refine Keeps.ite (fun _ => ?_) (fun _ => ?_)
          · exact h4
          · refine Keeps.after (State.mainRelease_keeps _) (by decide) ?_
            exact h4
    · refine Keeps.after (State.groupsUp_keeps _) (by decide) ?_
      refine Keeps.after (State.setPsq_keeps _ _) (by decide) ?_
      exact h2
    · refine Keeps.after (State.groupUp_keeps _ _) (by decide) ?_
      exact h2
    · extract_lets -merge +onlyGivenNames x3
      refine Keeps.of_let x3 ?_ (fun h3 => ?_)
      · unfold x3
        refine Keeps.ite (fun _ => ?_) (fun _ => ?_)
        · refine Keeps.after (State.ddrReturn_keeps _) (by decide) ?_
          exact h2
        · exact h2
      · refine Keeps.after (State.tryOpen_keeps _) (by decide) ?_
        refine Keeps.after (State.groupsUp_keeps _) (by decide) ?_
        refine Keeps.ite (fun _ => ?_) (fun _ => ?_)
        · refine Keeps.after (State.cxlPortsStart_keeps _) (by decide) ?_
          exact h3
        · exact h3
    · extract_lets -merge +onlyGivenNames x3
      refine Keeps.of_let x3 ?_ (fun h3 => ?_)
      · unfold x3
        refine Keeps.after (State.railHeld_keeps _ _ _) (by decide) ?_
        exact h2
      · extract_lets -merge +onlyGivenNames x4
        extract_lets -merge +onlyGivenNames x5
        refine Keeps.of_let x5 ?_ (fun h5 => ?_)
        · unfold x5
          refine Keeps.after (State.judgeGroupDown_keeps _) (by decide) ?_
          refine Keeps.after (State.setPsq_keeps _ _) (by decide) ?_
          exact h3
        · refine Keeps.after (State.groupUp_keeps _ _) (by decide) ?_
          refine Keeps.foldl _ (fun _ _ => ?_) ?_
          · refine Keeps.after (State.onlineChan_keeps _ _) (by decide) ?_
            exact Keeps.refl _ _
          · exact h5
    · exact h2

theorem State.downDone_keeps (s : State) (t : Trans) :
    Keeps [.regs, .csr, .evt, .ecc, .tally, .sched, .nv, .evr, .wdg, .flash, .psq, .chans, .med, .bench, .xlt, .twin, .cxl, .rdma, .sec, .dram, .out] s (State.downDone s t) := by
  unfold State.downDone
  extract_lets -merge +onlyGivenNames x1
  extract_lets -merge +onlyGivenNames x2
  refine Keeps.of_let x2 ?_ (fun h2 => ?_)
  · unfold x2
    refine Keeps.after (State.setPsq_keeps _ _) (by decide) ?_
    exact Keeps.refl _ _
  · extract_lets -merge +onlyGivenNames x3
    split
    · refine Keeps.ite (fun _ => ?_) (fun _ => ?_)
      · refine Keeps.after (State.powerDown_keeps _ _ _) (by decide) ?_
        exact h2
      · refine Keeps.ite (fun _ => ?_) (fun _ => ?_)
        · refine Keeps.after (State.offDone_keeps _) (by decide) ?_
          exact h2
        · refine Keeps.after (State.setPsq_keeps _ _) (by decide) ?_
          exact h2
    · refine Keeps.ite (fun _ => ?_) (fun _ => ?_)
      · refine Keeps.after (State.powerDown_keeps _ _ _) (by decide) ?_
        exact h2
      · refine Keeps.after (State.setPsq_keeps _ _) (by decide) ?_
        exact h2
    · refine Keeps.after (State.offDone_keeps _) (by decide) ?_
      exact h2
    · refine Keeps.after (State.burstOver_keeps _) (by decide) ?_
      exact h2
    · refine Keeps.after (State.burstOver_keeps _) (by decide) ?_
      exact h2
    · refine Keeps.after (State.startUp_keeps _ _ _) (by decide) ?_
      exact h2
    · refine Keeps.after (State.startUp_keeps _ _ _) (by decide) ?_
      exact h2
    · extract_lets -merge +onlyGivenNames x4
      refine Keeps.of_let x4 ?_ (fun h4 => ?_)
      · unfold x4
        refine Keeps.foldl _ (fun _ _ => ?_) ?_
        · refine Keeps.ite (fun _ => ?_) (fun _ => ?_)
          · refine Keeps.after (State.setRail_keeps _ _ _) (by decide) ?_
            exact Keeps.refl _ _
          · exact Keeps.refl _ _
        · exact h2
      · refine Keeps.after (State.setPsq_keeps _ _) (by decide) ?_
        exact h4
    · exact h2

theorem State.transCheck_keeps (s : State) :
    Keeps [.regs, .csr, .evt, .ecc, .tally, .sched, .nv, .evr, .wdg, .flash, .psq, .chans, .med, .bench, .xlt, .twin, .cxl, .rdma, .sec, .dram, .out, .fresh] s (State.transCheck s) := by
  unfold State.transCheck
  split
  · exact Keeps.refl _ _
  · refine Keeps.ite (fun _ => ?_) (fun _ => ?_)
    · refine Keeps.ite (fun _ => ?_) (fun _ => ?_)
      · refine Keeps.after (State.downDone_keeps _ _) (by decide) ?_
        exact Keeps.refl _ _
      · exact Keeps.refl _ _
    · refine Keeps.ite (fun _ => ?_) (fun _ => ?_)
      · refine Keeps.after (State.upDone_keeps _ _) (by decide) ?_
        exact Keeps.refl _ _
      · refine Keeps.after (State.offCheck_keeps _) (by decide) ?_
        exact Keeps.refl _ _

theorem State.railsLost_keeps (s : State) (set : BitVec 24) :
    Keeps [.regs, .evt, .tally, .sched, .nv, .evr, .chans, .med, .bench, .xlt, .twin, .cxl, .rdma, .sec, .dram, .out, .fresh] s (State.railsLost s set) := by
  unfold State.railsLost
  refine Keeps.foldl _ (fun _ _ => ?_) ?_
  · refine Keeps.ite (fun _ => ?_) (fun _ => ?_)
    · exact Keeps.refl _ _
    · split
      · refine Keeps.after (State.setDram_keeps _ _) (by decide) ?_
        exact Keeps.refl _ _
      · refine Keeps.after (State.macsDown_keeps _) (by decide) ?_
        exact Keeps.refl _ _
      · refine Keeps.after (State.tandemDown_keeps _) (by decide) ?_
        refine Keeps.after (State.cxlDown_keeps _) (by decide) ?_
        exact Keeps.refl _ _
      · split
        · refine Keeps.ite (fun _ => ?_) (fun _ => ?_)
          · refine Keeps.after (State.railsDownGroup_keeps _ _) (by decide) ?_
            exact Keeps.refl _ _
          · exact Keeps.refl _ _
        · exact Keeps.refl _ _
      · exact Keeps.refl _ _
  · exact Keeps.refl _ _

theorem State.groupOff_keeps (s : State) (k : Nat) (also : BitVec 24) :
    Keeps [.regs, .csr, .evt, .ecc, .tally, .sched, .nv, .evr, .wdg, .flash, .psq, .chans, .med, .bench, .xlt, .twin, .cxl, .rdma, .sec, .dram, .out, .fresh] s (State.groupOff s k also) := by
  unfold State.groupOff
  extract_lets -merge +onlyGivenNames x1
  extract_lets -merge +onlyGivenNames x2
  extract_lets -merge +onlyGivenNames x3
  refine Keeps.of_let x3 ?_ (fun h3 => ?_)
  · unfold x3
    refine Keeps.foldl _ (fun _ _ => ?_) ?_
    · refine Keeps.ite (fun _ => ?_) (fun _ => ?_)
      · refine Keeps.after (State.railHeld_keeps _ _ _) (by decide) ?_
        exact Keeps.refl _ _
      · exact Keeps.refl _ _
    · refine Keeps.after (State.railsLost_keeps _ _) (by decide) ?_
      exact Keeps.refl _ _
  · extract_lets -merge +onlyGivenNames x4
    extract_lets -merge +onlyGivenNames x5
    refine Keeps.of_let x5 ?_ (fun h5 => ?_)
    · unfold x5
      refine Keeps.after (State.setPsq_keeps _ _) (by decide) ?_
      exact h3
    · refine Keeps.after (State.transCheck_keeps _) (by decide) ?_
      refine Keeps.after (State.startDown_keeps _ _ _) (by decide) ?_
      refine Keeps.after (State.judgeGroupDown_keeps _) (by decide) ?_
      exact h5

theorem State.railFail_keeps (s : State) (k : Nat) :
    Keeps [.regs, .csr, .evt, .ecc, .tally, .sched, .nv, .evr, .wdg, .flash, .psq, .chans, .med, .bench, .xlt, .twin, .cxl, .rdma, .sec, .dram, .out, .fresh] s (State.railFail s k) := by
  unfold State.railFail
  extract_lets -merge +onlyGivenNames x1
  extract_lets -merge +onlyGivenNames x2
  refine Keeps.of_let x2 ?_ (fun h2 => ?_)
  · unfold x2
    refine Keeps.after (State.setRail_keeps _ _ _) (by decide) ?_
    exact Keeps.refl _ _
  · split
    · exact h2
    · split
      · refine Keeps.ite (fun _ => ?_) (fun _ => ?_)
        · refine Keeps.after (State.offCheck_keeps _) (by decide) ?_
          exact h2
        · extract_lets -merge +onlyGivenNames x3
          extract_lets -merge +onlyGivenNames x4
          refine Keeps.of_let x4 ?_ (fun h4 => ?_)
          · unfold x4
            refine Keeps.after (State.cause_keeps _ _ _ _ _) (by decide) ?_
            refine Keeps.after (State.setPsq_keeps _ _) (by decide) ?_
            exact h2
          · refine Keeps.after (State.transCheck_keeps _) (by decide) ?_
            refine Keeps.after (State.startDown_keeps _ _ _) (by decide) ?_
            exact h4
      · refine Keeps.ite (fun _ => ?_) (fun _ => ?_)
        · refine Keeps.after (State.offCheck_keeps _) (by decide) ?_
          exact h2
        · extract_lets -merge +onlyGivenNames x3
          extract_lets -merge +onlyGivenNames x4
          refine Keeps.of_let x4 ?_ (fun h4 => ?_)
          · unfold x4
            refine Keeps.after (State.cause_keeps _ _ _ _ _) (by decide) ?_
            refine Keeps.after (State.setPsq_keeps _ _) (by decide) ?_
            exact h2
          · refine Keeps.after (State.transCheck_keeps _) (by decide) ?_
            refine Keeps.after (State.startDown_keeps _ _ _) (by decide) ?_
            exact h4
      · refine Keeps.after (State.transCheck_keeps _) (by decide) ?_
        refine Keeps.after (State.startDown_keeps _ _ _) (by decide) ?_
        exact h2
      · extract_lets -merge +onlyGivenNames x3
        refine Keeps.of_let x3 ?_ (fun h3 => ?_)
        · unfold x3
          refine Keeps.after (State.lastFault_keeps _ _ _ _ _) (by decide) ?_
          exact h2
        · refine Keeps.ite (fun _ => ?_) (fun _ => ?_)
          · refine Keeps.after (State.takeTrigger_keeps _ _) (by decide) ?_
            refine Keeps.after (State.setPsq_keeps _ _) (by decide) ?_
            exact h3
          · refine Keeps.after (State.groupOff_keeps _ _ _) (by decide) ?_
            exact h3
      · refine Keeps.after (State.transCheck_keeps _) (by decide) ?_
        refine Keeps.after (State.startDown_keeps _ _ _) (by decide) ?_
        exact h2
      · exact h2

theorem State.railReact_keeps (s : State) (k : Nat) :
    Keeps [.regs, .csr, .evt, .ecc, .tally, .sched, .nv, .evr, .wdg, .flash, .psq, .chans, .med, .bench, .xlt, .twin, .cxl, .rdma, .sec, .dram, .out, .fresh] s (State.railReact s k) := by
  unfold State.railReact
  extract_lets -merge +onlyGivenNames x1
  split
  extract_lets -merge +onlyGivenNames x2
  refine Keeps.of_let x2 ?_ (fun h2 => ?_)
  · unfold x2
    refine Keeps.after (State.lastFault_keeps _ _ _ _ _) (by decide) ?_
    exact Keeps.refl _ _
  · extract_lets -merge +onlyGivenNames x3
    refine Keeps.of_let x3 ?_ (fun h3 => ?_)
    · unfold x3
      refine Keeps.after (State.deviceRecord_keeps _ _ _) (by decide) ?_
      exact h2
    · extract_lets -merge +onlyGivenNames x4
      extract_lets -merge +onlyGivenNames x5
      refine Keeps.of_let x5 ?_ (fun h5 => ?_)
      · unfold x5
        refine Keeps.ite (fun _ => ?_) (fun _ => ?_)
        · refine Keeps.after (State.crossed_keeps _) (by decide) ?_
          exact h3
        · exact h3
      · refine Keeps.ite (fun _ => ?_) (fun _ => ?_)
        · refine Keeps.after (State.takeTrigger_keeps _ _) (by decide) ?_
          exact h5
        · refine Keeps.ite (fun _ => ?_) (fun _ => ?_)
          · exact h5
          · extract_lets -merge +onlyGivenNames x6
            refine Keeps.ite (fun _ => ?_) (fun _ => ?_)
            · refine Keeps.after (State.groupOff_keeps _ _ _) (by decide) ?_
              exact h5
            · extract_lets -merge +onlyGivenNames x7
              extract_lets -merge +onlyGivenNames x8
              extract_lets -merge +onlyGivenNames x9
              refine Keeps.of_let x9 ?_ (fun h9 => ?_)
              · unfold x9
                refine Keeps.after (State.setRail_keeps _ _ _) (by decide) ?_
                exact h5
              · refine Keeps.after (State.transCheck_keeps _) (by decide) ?_
                refine Keeps.after (State.startDown_keeps _ _ _) (by decide) ?_
                refine Keeps.after (State.setPsq_keeps _ _) (by decide) ?_
                refine Keeps.after (State.railsLost_keeps _ _) (by decide) ?_
                exact h9

theorem State.inputCollapse_keeps (s : State) :
    Keeps [.regs, .csr, .evt, .ecc, .tally, .nv, .evr, .wdg, .flash, .psq, .chans, .med, .bench, .xlt, .twin, .cxl, .rdma, .sec, .dram, .out] s (State.inputCollapse s) := by
  unfold State.inputCollapse
  extract_lets -merge +onlyGivenNames x1
  refine Keeps.of_let x1 ?_ (fun h1 => ?_)
  · unfold x1
    refine Keeps.after (State.deviceRecord_keeps _ _ _) (by decide) ?_
    refine Keeps.after (State.cause_keeps _ _ _ _ _) (by decide) ?_
    exact Keeps.refl _ _
  · extract_lets -merge +onlyGivenNames x2
    extract_lets -merge +onlyGivenNames x3
    refine Keeps.of_let x3 ?_ (fun h3 => ?_)
    · unfold x3
      refine Keeps.after (State.setPsq_keeps _ _) (by decide) ?_
      exact h1
    · refine Keeps.after (State.powerDown_keeps _ _ _) (by decide) ?_
      refine Keeps.after (State.setBench_keeps _ _) (by decide) ?_
      exact h3

theorem State.inputBad_keeps (s : State) (code : Nat) :
    Keeps [.regs, .csr, .evt, .ecc, .tally, .sched, .nv, .evr, .wdg, .flash, .psq, .chans, .med, .bench, .xlt, .twin, .cxl, .rdma, .sec, .dram, .out, .fresh] s (State.inputBad s code) := by
  unfold State.inputBad
  extract_lets -merge +onlyGivenNames x1
  extract_lets -merge +onlyGivenNames x2
  refine Keeps.of_let x2 ?_ (fun h2 => ?_)
  · unfold x2
    refine Keeps.after (State.judgeInput_keeps _) (by decide) ?_
    refine Keeps.after (State.setPsq_keeps _ _) (by decide) ?_
    exact Keeps.refl _ _
  · extract_lets -merge +onlyGivenNames x3
    split
    · exact h2
    · refine Keeps.after (State.inputCollapse_keeps _) (by decide) ?_
      exact h2
    · refine Keeps.after (State.inputCollapse_keeps _) (by decide) ?_
      exact h2
    · refine Keeps.ite (fun _ => ?_) (fun _ => ?_)
      · refine Keeps.after (State.takeTrigger_keeps _ _) (by decide) ?_
        unfold x3
        refine Keeps.after (State.setPsq_keeps _ _) (by decide) ?_
        exact h2
      · refine Keeps.ite (fun _ => ?_) (fun _ => ?_)
        · refine Keeps.after (State.inputCollapse_keeps _) (by decide) ?_
          exact h2
        · refine Keeps.after (State.takeTrigger_keeps _ _) (by decide) ?_
          unfold x3
          refine Keeps.after (State.setPsq_keeps _ _) (by decide) ?_
          exact h2

/-! ### Power -/

theorem execPwrFailN_ends (s : State) :
    Ends [.regs, .csr, .evt, .ecc, .tally, .sched, .nv, .evr, .wdg, .flash, .psq, .chans, .med, .bench, .xlt, .twin, .cxl, .rdma, .sec, .dram, .out, .fresh] s (execPwrFailN s) := by
  unfold execPwrFailN
  refine Ends.next ?_
  refine Keeps.ite (fun _ => ?_) (fun _ => ?_)
  · refine Keeps.after (State.inputBad_keeps _ _) (by decide) ?_
    exact Keeps.refl _ _
  · exact Keeps.refl _ _

theorem execVinSense_ends (s : State) :
    Ends [.regs, .csr, .evt, .ecc, .tally, .sched, .nv, .evr, .wdg, .flash, .psq, .chans, .med, .bench, .xlt, .twin, .cxl, .rdma, .sec, .dram, .out, .fresh] s (execVinSense s) := by
  unfold execVinSense
  refine Ends.next ?_
  refine Keeps.ite (fun _ => ?_) (fun _ => ?_)
  · refine Keeps.after (State.inputBad_keeps _ _) (by decide) ?_
    exact Keeps.refl _ _
  · exact Keeps.refl _ _

theorem execDrainComplete_ends (s : State) :
    Ends [.regs, .csr, .evt, .ecc, .tally, .sched, .nv, .evr, .wdg, .flash, .psq, .chans, .med, .bench, .xlt, .twin, .cxl, .rdma, .sec, .dram, .out, .fresh] s (execDrainComplete s) := by
  unfold execDrainComplete
  split
  · refine Ends.next ?_
    refine Keeps.ite (fun _ => ?_) (fun _ => ?_)
    · refine Keeps.after (State.drainEnd_keeps _ _) (by decide) ?_
      exact Keeps.refl _ _
    · exact Keeps.refl _ _
  · refine Ends.next ?_
    exact Keeps.refl _ _

theorem execOrderlyFlushComplete_ends (s : State) :
    Ends [.regs, .evt, .tally, .nv, .evr, .chans, .med, .bench, .xlt, .twin, .cxl, .out] s (execOrderlyFlushComplete s) := by
  unfold execOrderlyFlushComplete
  split
  · refine Ends.next ?_
    refine Keeps.ite (fun _ => ?_) (fun _ => ?_)
    · refine Keeps.after (State.startDrain_keeps _ _ _) (by decide) ?_
      exact Keeps.refl _ _
    · exact Keeps.refl _ _
  · refine Ends.next ?_
    exact Keeps.refl _ _

theorem Keeps.set_regs_csr_evt_tally_sched_evr_wdg_psq {w : List Part} {s t : State} {x0} {x1} {x2} {x3} {x4} {x5} {x6} {x7} (hp : Part.regs ∈ w ∧ Part.csr ∈ w ∧ Part.evt ∈ w ∧ Part.tally ∈ w ∧ Part.sched ∈ w ∧ Part.evr ∈ w ∧ Part.wdg ∈ w ∧ Part.psq ∈ w) (h : Keeps w s t) :
    Keeps w s { t with regs := x0, csr := x1, evt := x2, tally := x3, sched := x4, evr := x5, wdg := x6, psq := x7 } := fun q hq => by
  cases q <;> first | exact h _ hq | simp_all

theorem execVaonPowerUp_ends (s : State) :
    Ends [.regs, .csr, .evt, .tally, .sched, .nv, .evr, .wdg, .flash, .psq, .chans, .med, .bench, .cxl, .dram, .out] s (execVaonPowerUp s) := by
  unfold execVaonPowerUp
  refine Ends.ite (fun _ => ?_) (fun _ => ?_)
  · refine Ends.next ?_
    exact Keeps.refl _ _
  · extract_lets -merge +onlyGivenNames x1
    extract_lets -merge +onlyGivenNames x2
    refine Ends.of_let x2 ?_ (fun h2 => ?_)
    · unfold x2
      refine Keeps.set_regs_csr_evt_tally_sched_evr_wdg_psq (by decide) ?_
      exact Keeps.refl _ _
    · extract_lets -merge +onlyGivenNames x3
      refine Ends.of_let x3 ?_ (fun h3 => ?_)
      · unfold x3
        refine Keeps.after (State.judgeInput_keeps _) (by decide) ?_
        refine Keeps.after (State.cause_keeps _ _ _ _ _) (by decide) ?_
        refine Keeps.after (State.wstampAdvance_keeps _) (by decide) ?_
        exact h2
      · refine Ends.next ?_
        refine Keeps.ite (fun _ => ?_) (fun _ => ?_)
        · refine Keeps.after (State.onRequest_keeps _) (by decide) ?_
          exact h3
        · exact h3

theorem Keeps.set_csr_evt_wdg_psq {w : List Part} {s t : State} {x0} {x1} {x2} {x3} (hp : Part.csr ∈ w ∧ Part.evt ∈ w ∧ Part.wdg ∈ w ∧ Part.psq ∈ w) (h : Keeps w s t) :
    Keeps w s { t with csr := x0, evt := x1, wdg := x2, psq := x3 } := fun q hq => by
  cases q <;> first | exact h _ hq | simp_all

theorem execVaonLoss_ends (s : State) :
    Ends [.regs, .csr, .evt, .ecc, .tally, .evr, .wdg, .flash, .psq, .chans, .med, .bench, .xlt, .twin, .cxl, .rdma, .sec, .dram, .out] s (execVaonLoss s) := by
  unfold execVaonLoss
  refine Ends.ite (fun _ => ?_) (fun _ => ?_)
  · refine Ends.next ?_
    exact Keeps.refl _ _
  · extract_lets -merge +onlyGivenNames x1
    refine Ends.of_let x1 ?_ (fun h1 => ?_)
    · unfold x1
      refine Keeps.after (State.groupsOff_keeps _) (by decide) ?_
      refine Keeps.after (State.mainReset_keeps _) (by decide) ?_
      exact Keeps.refl _ _
    · refine Ends.next ?_
      refine Keeps.set_csr_evt_wdg_psq (by decide) ?_
      exact h1

theorem execInputGood_ends (s : State) :
    Ends [.regs, .evt, .tally, .evr, .wdg, .flash, .psq, .chans, .med, .bench, .xlt, .twin, .cxl, .dram, .out] s (execInputGood s) := by
  unfold execInputGood
  refine Ends.ite (fun _ => ?_) (fun _ => ?_)
  · refine Ends.next ?_
    exact Keeps.refl _ _
  · extract_lets -merge +onlyGivenNames x1
    extract_lets -merge +onlyGivenNames x2
    refine Ends.of_let x2 ?_ (fun h2 => ?_)
    · unfold x2
      refine Keeps.after (State.judgeInput_keeps _) (by decide) ?_
      refine Keeps.after (State.setPsq_keeps _ _) (by decide) ?_
      exact Keeps.refl _ _
    · refine Ends.next ?_
      refine Keeps.after (State.tryOpen_keeps _) (by decide) ?_
      refine Keeps.ite (fun _ => ?_) (fun _ => ?_)
      · refine Keeps.after (State.onRequest_keeps _) (by decide) ?_
        exact h2
      · refine Keeps.after (State.tryOn_keeps _) (by decide) ?_
        exact h2

theorem execRailStart_ends (k : Fin 24) (s : State) :
    Ends [.psq] s (execRailStart k s) := by
  unfold execRailStart
  refine Ends.next ?_
  refine Keeps.after (State.railStart_keeps _ _) (by decide) ?_
  exact Keeps.refl _ _

theorem execRailQualified_ends (k : Fin 24) (s : State) :
    Ends [.regs, .csr, .evt, .ecc, .tally, .sched, .nv, .evr, .wdg, .flash, .psq, .chans, .med, .bench, .xlt, .twin, .cxl, .rdma, .sec, .dram, .out, .fresh] s (execRailQualified k s) := by
  unfold execRailQualified
  refine Ends.next ?_
  refine Keeps.ite (fun _ => ?_) (fun _ => ?_)
  · refine Keeps.after (State.transCheck_keeps _) (by decide) ?_
    refine Keeps.after (State.setRail_keeps _ _ _) (by decide) ?_
    exact Keeps.refl _ _
  · exact Keeps.refl _ _

theorem execRailRampTimeout_ends (k : Fin 24) (s : State) :
    Ends [.regs, .csr, .evt, .ecc, .tally, .sched, .nv, .evr, .wdg, .flash, .psq, .chans, .med, .bench, .xlt, .twin, .cxl, .rdma, .sec, .dram, .out, .fresh] s (execRailRampTimeout k s) := by
  unfold execRailRampTimeout
  refine Ends.next ?_
  refine Keeps.ite (fun _ => ?_) (fun _ => ?_)
  · refine Keeps.after (State.railFail_keeps _ _) (by decide) ?_
    refine Keeps.after (State.railCause_keeps _ _ _) (by decide) ?_
    exact Keeps.refl _ _
  · exact Keeps.refl _ _

theorem execRailPgDrop_ends (k : Fin 24) (s : State) :
    Ends [.regs, .csr, .evt, .ecc, .tally, .sched, .nv, .evr, .wdg, .flash, .psq, .chans, .med, .bench, .xlt, .twin, .cxl, .rdma, .sec, .dram, .out, .fresh] s (execRailPgDrop k s) := by
  unfold execRailPgDrop
  refine Ends.ite (fun _ => ?_) (fun _ => ?_)
  · extract_lets -merge +onlyGivenNames x1
    extract_lets -merge +onlyGivenNames x2
    refine Ends.of_let x2 ?_ (fun h2 => ?_)
    · unfold x2
      refine Keeps.after (State.setRail_keeps _ _ _) (by decide) ?_
      exact Keeps.refl _ _
    · refine Ends.next ?_
      refine Keeps.ite (fun _ => ?_) (fun _ => ?_)
      · refine Keeps.after (State.railFail_keeps _ _) (by decide) ?_
        refine Keeps.after (State.railCause_keeps _ _ _) (by decide) ?_
        exact h2
      · exact h2
  · refine Ends.next ?_
    refine Keeps.ite (fun _ => ?_) (fun _ => ?_)
    · refine Keeps.after (State.deviceRecord_keeps _ _ _) (by decide) ?_
      refine Keeps.after (State.crossed_keeps _) (by decide) ?_
      exact Keeps.refl _ _
    · exact Keeps.refl _ _

theorem execSeqRetryBackoffExpiry_ends (s : State) :
    Ends [.psq] s (execSeqRetryBackoffExpiry s) := by
  unfold execSeqRetryBackoffExpiry
  refine Ends.ite (fun _ => ?_) (fun _ => ?_)
  · refine Ends.next ?_
    exact Keeps.refl _ _
  · extract_lets -merge +onlyGivenNames x1
    extract_lets -merge +onlyGivenNames x2
    refine Ends.of_let x2 ?_ (fun h2 => ?_)
    · unfold x2
      refine Keeps.after (State.setPsq_keeps _ _) (by decide) ?_
      exact Keeps.refl _ _
    · refine Ends.next ?_
      split
      · refine Keeps.after (State.startUp_keeps _ _ _) (by decide) ?_
        exact h2
      · refine Keeps.after (State.startUp_keeps _ _ _) (by decide) ?_
        exact h2
      · exact h2

theorem execRailOff_ends (k : Fin 24) (s : State) :
    Ends [.regs, .csr, .evt, .ecc, .tally, .sched, .nv, .evr, .wdg, .flash, .psq, .chans, .med, .bench, .xlt, .twin, .cxl, .rdma, .sec, .dram, .out, .fresh] s (execRailOff k s) := by
  unfold execRailOff
  extract_lets -merge +onlyGivenNames x1
  refine Ends.next ?_
  refine Keeps.ite (fun _ => ?_) (fun _ => ?_)
  · refine Keeps.after (State.transCheck_keeps _) (by decide) ?_
    refine Keeps.after (State.setRail_keeps _ _ _) (by decide) ?_
    exact Keeps.refl _ _
  · exact Keeps.refl _ _

theorem execOffDwellExpiry_ends (k : Fin 24) (s : State) :
    Ends [.regs, .csr, .evt, .ecc, .tally, .sched, .nv, .evr, .wdg, .flash, .psq, .chans, .med, .bench, .xlt, .twin, .cxl, .rdma, .sec, .dram, .out, .fresh] s (execOffDwellExpiry k s) := by
  unfold execOffDwellExpiry
  refine Ends.next ?_
  split
  · refine Keeps.ite (fun _ => ?_) (fun _ => ?_)
    · refine Keeps.after (State.transCheck_keeps _) (by decide) ?_
      refine Keeps.after (State.lowerRail_keeps _ _ _) (by decide) ?_
      exact Keeps.refl _ _
    · exact Keeps.refl _ _
  · exact Keeps.refl _ _

theorem execRailFault_ends (k : Fin 24) (s : State) :
    Ends [.regs, .csr, .evt, .ecc, .tally, .sched, .nv, .evr, .wdg, .flash, .psq, .chans, .med, .bench, .xlt, .twin, .cxl, .rdma, .sec, .dram, .out, .fresh] s (execRailFault k s) := by
  unfold execRailFault
  extract_lets -merge +onlyGivenNames x1
  refine Ends.ite (fun _ => ?_) (fun _ => ?_)
  · refine Ends.next ?_
    exact Keeps.refl _ _
  · extract_lets -merge +onlyGivenNames x2
    refine Ends.of_let x2 ?_ (fun h2 => ?_)
    · unfold x2
      refine Keeps.after (State.railCause_keeps _ _ _) (by decide) ?_
      refine Keeps.after (State.setRail_keeps _ _ _) (by decide) ?_
      exact Keeps.refl _ _
    · extract_lets -merge +onlyGivenNames x3
      refine Ends.next ?_
      refine Keeps.ite (fun _ => ?_) (fun _ => ?_)
      · refine Keeps.after (State.deviceRecord_keeps _ _ _) (by decide) ?_
        refine Keeps.after (State.crossed_keeps _) (by decide) ?_
        exact h2
      · refine Keeps.ite (fun _ => ?_) (fun _ => ?_)
        · refine Keeps.after (State.deviceRecord_keeps _ _ _) (by decide) ?_
          exact h2
        · refine Keeps.after (State.railReact_keeps _ _) (by decide) ?_
          exact h2

theorem execRailGlitch_ends (k : Fin 24) (s : State) :
    Ends [.regs, .evt, .evr, .psq, .chans, .cxl, .out] s (execRailGlitch k s) := by
  unfold execRailGlitch
  extract_lets -merge +onlyGivenNames x1
  refine Ends.next ?_
  refine Keeps.ite (fun _ => ?_) (fun _ => ?_)
  · refine Keeps.after (State.railCause_keeps _ _ _) (by decide) ?_
    refine Keeps.after (State.setRail_keeps _ _ _) (by decide) ?_
    exact Keeps.refl _ _
  · exact Keeps.refl _ _

theorem execRailRetryWindowExpiry_ends (k : Fin 24) (s : State) :
    Ends [.psq] s (execRailRetryWindowExpiry k s) := by
  unfold execRailRetryWindowExpiry
  refine Ends.next ?_
  refine Keeps.after (State.setRail_keeps _ _ _) (by decide) ?_
  exact Keeps.refl _ _

theorem execTOffMinExpiry_ends (s : State) :
    Ends [.regs, .evt, .tally, .evr, .psq, .chans, .med, .cxl, .out] s (execTOffMinExpiry s) := by
  unfold execTOffMinExpiry
  refine Ends.next ?_
  refine Keeps.after (State.tryOn_keeps _) (by decide) ?_
  refine Keeps.after (State.setPsq_keeps _ _) (by decide) ?_
  exact Keeps.refl _ _

theorem execPbShort_ends (s : State) :
    Ends [.regs, .csr, .evt, .ecc, .tally, .sched, .nv, .evr, .wdg, .flash, .psq, .chans, .med, .bench, .xlt, .twin, .cxl, .rdma, .sec, .dram, .out, .fresh] s (execPbShort s) := by
  unfold execPbShort
  refine Ends.ite (fun _ => ?_) (fun _ => ?_)
  · refine Ends.next ?_
    exact Keeps.refl _ _
  · extract_lets -merge +onlyGivenNames x1
    refine Ends.of_let x1 ?_ (fun h1 => ?_)
    · unfold x1
      refine Keeps.after (State.cause_keeps _ _ _ _ _) (by decide) ?_
      exact Keeps.refl _ _
    · refine Ends.next ?_
      split
      · refine Keeps.after (State.onRequest_keeps _) (by decide) ?_
        exact h1
      · refine Keeps.after (State.onRequest_keeps _) (by decide) ?_
        refine Keeps.after (State.setPState_keeps _ _) (by decide) ?_
        refine Keeps.after (State.setPsq_keeps _ _) (by decide) ?_
        exact h1
      · refine Keeps.after (State.offRequest_keeps _ _) (by decide) ?_
        exact h1
      · refine Keeps.after (State.offRequest_keeps _ _) (by decide) ?_
        exact h1
      · refine Keeps.after (State.offRequest_keeps _ _) (by decide) ?_
        exact h1
      · exact h1

theorem execPbForced_ends (s : State) :
    Ends [.regs, .csr, .evt, .ecc, .tally, .sched, .nv, .evr, .wdg, .flash, .psq, .chans, .med, .bench, .xlt, .twin, .cxl, .rdma, .sec, .dram, .out, .fresh] s (execPbForced s) := by
  unfold execPbForced
  refine Ends.ite (fun _ => ?_) (fun _ => ?_)
  · refine Ends.next ?_
    exact Keeps.refl _ _
  · split
    · refine Ends.next ?_
      refine Keeps.after (State.offRequest_keeps _ _) (by decide) ?_
      refine Keeps.after (State.cause_keeps _ _ _ _ _) (by decide) ?_
      exact Keeps.refl _ _
    · refine Ends.next ?_
      refine Keeps.after (State.offRequest_keeps _ _) (by decide) ?_
      refine Keeps.after (State.cause_keeps _ _ _ _ _) (by decide) ?_
      exact Keeps.refl _ _
    · refine Ends.next ?_
      refine Keeps.after (State.offRequest_keeps _ _) (by decide) ?_
      refine Keeps.after (State.cause_keeps _ _ _ _ _) (by decide) ?_
      exact Keeps.refl _ _
    · refine Ends.next ?_
      refine Keeps.after (State.offRequest_keeps _ _) (by decide) ?_
      refine Keeps.after (State.cause_keeps _ _ _ _ _) (by decide) ?_
      exact Keeps.refl _ _
    · refine Ends.next ?_
      exact Keeps.refl _ _

theorem execMrN_ends (low : Bool) (s : State) :
    Ends [.regs, .csr, .evt, .ecc, .tally, .sched, .nv, .evr, .wdg, .flash, .psq, .chans, .med, .bench, .xlt, .twin, .cxl, .rdma, .sec, .dram, .out, .fresh] s (execMrN low s) := by
  unfold execMrN
  extract_lets -merge +onlyGivenNames x1
  extract_lets -merge +onlyGivenNames x2
  refine Ends.of_let x2 ?_ (fun h2 => ?_)
  · unfold x2
    refine Keeps.after (State.setPsq_keeps _ _) (by decide) ?_
    exact Keeps.refl _ _
  · refine Ends.ite (fun _ => ?_) (fun _ => ?_)
    · refine Ends.next ?_
      exact h2
    · split
      · refine Ends.next ?_
        exact h2
      · refine Ends.next ?_
        exact h2
      · refine Ends.next ?_
        refine Keeps.after (State.takeTrigger_keeps _ _) (by decide) ?_
        refine Keeps.after (State.cause_keeps _ _ _ _ _) (by decide) ?_
        exact h2

theorem execPowerUp_ends (s : State) :
    Ends [.regs, .evt, .tally, .evr, .wdg, .flash, .psq, .chans, .med, .bench, .cxl, .dram, .out] s (execPowerUp s) := by
  unfold execPowerUp
  refine Ends.next ?_
  refine Keeps.ite (fun _ => ?_) (fun _ => ?_)
  · refine Keeps.after (State.onRequest_keeps _) (by decide) ?_
    exact Keeps.refl _ _
  · exact Keeps.refl _ _

theorem execIdleEntry_ends (s : State) :
    Ends [.regs, .evt, .tally, .evr, .psq, .chans, .med, .cxl, .out] s (execIdleEntry s) := by
  unfold execIdleEntry
  refine Ends.ite (fun _ => ?_) (fun _ => ?_)
  · refine Ends.next ?_
    exact Keeps.refl _ _
  · extract_lets -merge +onlyGivenNames x1
    refine Ends.of_let x1 ?_ (fun h1 => ?_)
    · unfold x1
      refine Keeps.after (State.setPState_keeps _ _) (by decide) ?_
      exact Keeps.refl _ _
    · extract_lets -merge +onlyGivenNames x2
      refine Ends.of_let x2 ?_ (fun h2 => ?_)
      · unfold x2
        refine Keeps.foldl _ (fun _ _ => ?_) ?_
        · refine Keeps.ite (fun _ => ?_) (fun _ => ?_)
          · refine Keeps.after (State.setCport_keeps _ _ _) (by decide) ?_
            exact Keeps.refl _ _
          · exact Keeps.refl _ _
        · exact h1
      · refine Ends.next ?_
        refine Keeps.foldl _ (fun _ _ => ?_) ?_
        · extract_lets -merge +onlyGivenNames x3
          refine Keeps.ite (fun _ => ?_) (fun _ => ?_)
          · refine Keeps.after (State.emit_keeps _ _) (by decide) ?_
            refine Keeps.after (State.setQc_keeps _ _ _) (by decide) ?_
            exact Keeps.refl _ _
          · exact Keeps.refl _ _
        · exact h2

theorem execIdleExit_ends (s : State) :
    Ends [.regs, .evt, .tally, .evr, .psq, .chans, .med, .cxl, .out] s (execIdleExit s) := by
  unfold execIdleExit
  refine Ends.next ?_
  refine Keeps.after (State.wakeIdle_keeps _) (by decide) ?_
  exact Keeps.refl _ _

theorem execKeepEntry_ends (s : State) :
    Ends [.regs, .csr, .evt, .ecc, .tally, .sched, .nv, .evr, .wdg, .flash, .psq, .chans, .med, .bench, .xlt, .twin, .cxl, .rdma, .sec, .dram, .out, .fresh] s (execKeepEntry s) := by
  unfold execKeepEntry
  refine Ends.next ?_
  refine Keeps.ite (fun _ => ?_) (fun _ => ?_)
  · refine Keeps.after (State.keepEnter_keeps _) (by decide) ?_
    exact Keeps.refl _ _
  · exact Keeps.refl _ _

theorem execKeepEntryComplete_ends (s : State) :
    Ends [.regs, .evt, .tally, .nv, .evr, .wdg, .flash, .psq, .chans, .med, .bench, .cxl, .dram, .out] s (execKeepEntryComplete s) := by
  unfold execKeepEntryComplete
  refine Ends.next ?_
  refine Keeps.ite (fun _ => ?_) (fun _ => ?_)
  · refine Keeps.after (State.keepDone_keeps _) (by decide) ?_
    exact Keeps.refl _ _
  · exact Keeps.refl _ _

theorem execKeepLeave_ends (s : State) :
    Ends [.regs, .evt, .tally, .evr, .wdg, .flash, .psq, .chans, .med, .bench, .cxl, .dram, .out] s (execKeepLeave s) := by
  unfold execKeepLeave
  refine Ends.next ?_
  refine Keeps.ite (fun _ => ?_) (fun _ => ?_)
  · refine Keeps.after (State.keepLeaveRequest_keeps _) (by decide) ?_
    exact Keeps.refl _ _
  · exact Keeps.refl _ _

theorem execKeepLeaveComplete_ends (s : State) :
    Ends [.regs, .csr, .evt, .ecc, .tally, .sched, .nv, .evr, .wdg, .flash, .psq, .chans, .med, .bench, .xlt, .twin, .cxl, .rdma, .sec, .dram, .out, .fresh] s (execKeepLeaveComplete s) := by
  unfold execKeepLeaveComplete
  refine Ends.next ?_
  refine Keeps.ite (fun _ => ?_) (fun _ => ?_)
  · refine Keeps.after (State.settleMed_keeps _) (by decide) ?_
    refine Keeps.after (State.reachActive_keeps _) (by decide) ?_
    refine Keeps.after (State.keepOpen_keeps _) (by decide) ?_
    exact Keeps.refl _ _
  · exact Keeps.refl _ _

theorem execKeepBurstEnd_ends (s : State) :
    Ends [.regs, .csr, .evt, .ecc, .tally, .sched, .nv, .evr, .wdg, .flash, .psq, .chans, .med, .bench, .xlt, .twin, .cxl, .rdma, .sec, .dram, .out, .fresh] s (execKeepBurstEnd s) := by
  unfold execKeepBurstEnd
  split
  · refine Ends.next ?_
    exact Keeps.refl _ _
  · refine Ends.ite (fun _ => ?_) (fun _ => ?_)
    · refine Ends.next ?_
      exact Keeps.refl _ _
    · extract_lets -merge +onlyGivenNames x1
      refine Ends.of_let x1 ?_ (fun h1 => ?_)
      · unfold x1
        refine Keeps.ite (fun _ => ?_) (fun _ => ?_)
        · refine Keeps.foldl _ (fun _ _ => ?_) ?_
          · refine Keeps.after (State.rewriteRungs_keeps _ _) (by decide) ?_
            exact Keeps.refl _ _
          · exact Keeps.refl _ _
        · exact Keeps.refl _ _
      · extract_lets -merge +onlyGivenNames x2
        extract_lets -merge +onlyGivenNames x3
        refine Ends.of_let x3 ?_ (fun h3 => ?_)
        · unfold x3
          refine Keeps.after (State.cause_keeps _ _ _ _ _) (by decide) ?_
          refine Keeps.after (State.setPass_keeps _ _ _) (by decide) ?_
          exact h1
        · extract_lets -merge +onlyGivenNames x4
          refine Ends.of_let x4 ?_ (fun h4 => ?_)
          · unfold x4
            refine Keeps.after (State.railsDownGroup_keeps _ _) (by decide) ?_
            refine Keeps.after (State.writeDeadline_keeps _) (by decide) ?_
            refine Keeps.after (State.rewriteAnchors_keeps _ _) (by decide) ?_
            exact h3
          · refine Ends.next ?_
            refine Keeps.after (State.transCheck_keeps _) (by decide) ?_
            refine Keeps.after (State.startDown_keeps _ _ _) (by decide) ?_
            exact h4

theorem execThrottle_ends (s : State) :
    Ends [.regs, .evt, .evr, .psq, .chans, .cxl, .out] s (execThrottle s) := by
  unfold execThrottle
  refine Ends.next ?_
  refine Keeps.ite (fun _ => ?_) (fun _ => ?_)
  · refine Keeps.after (State.level_keeps _ _ _ _ _ _ _) (by decide) ?_
    refine Keeps.after (State.setPsq_keeps _ _) (by decide) ?_
    exact Keeps.refl _ _
  · exact Keeps.refl _ _

theorem execThrottleEnd_ends (s : State) :
    Ends [.regs, .evt, .evr, .psq, .chans, .cxl, .out] s (execThrottleEnd s) := by
  unfold execThrottleEnd
  refine Ends.next ?_
  refine Keeps.ite (fun _ => ?_) (fun _ => ?_)
  · refine Keeps.after (State.level_keeps _ _ _ _ _ _ _) (by decide) ?_
    refine Keeps.after (State.setPsq_keeps _ _) (by decide) ?_
    exact Keeps.refl _ _
  · exact Keeps.refl _ _

theorem execTrip_ends (s : State) :
    Ends [.regs, .csr, .evt, .ecc, .tally, .sched, .nv, .evr, .wdg, .flash, .psq, .chans, .med, .bench, .xlt, .twin, .cxl, .rdma, .sec, .dram, .out, .fresh] s (execTrip s) := by
  unfold execTrip
  refine Ends.next ?_
  refine Keeps.ite (fun _ => ?_) (fun _ => ?_)
  · refine Keeps.after (State.takeTrigger_keeps _ _) (by decide) ?_
    refine Keeps.after (State.cause_keeps _ _ _ _ _) (by decide) ?_
    refine Keeps.after (State.setPsq_keeps _ _) (by decide) ?_
    exact Keeps.refl _ _
  · exact Keeps.refl _ _

theorem execTripHoldExpiry_ends (s : State) :
    Ends [.regs, .evt, .tally, .evr, .psq, .chans, .med, .cxl, .out] s (execTripHoldExpiry s) := by
  unfold execTripHoldExpiry
  refine Ends.next ?_
  refine Keeps.ite (fun _ => ?_) (fun _ => ?_)
  · refine Keeps.after (State.tryOn_keeps _) (by decide) ?_
    refine Keeps.after (State.setPsq_keeps _ _) (by decide) ?_
    exact Keeps.refl _ _
  · exact Keeps.refl _ _

theorem execPsqSeqCommit_ends (s : State) :
    Ends [.regs, .csr, .evt, .nv, .evr, .psq, .chans, .cxl, .out] s (execPsqSeqCommit s) := by
  unfold execPsqSeqCommit
  refine Ends.next ?_
  refine Keeps.ite (fun _ => ?_) (fun _ => ?_)
  · refine Keeps.after (State.seqCommit_keeps _ _) (by decide) ?_
    exact Keeps.refl _ _
  · exact Keeps.refl _ _

theorem execPsqMgmapCommit_ends (s : State) :
    Ends [.regs, .csr, .evt, .nv, .evr, .chans, .cxl, .out] s (execPsqMgmapCommit s) := by
  unfold execPsqMgmapCommit
  refine Ends.next ?_
  refine Keeps.ite (fun _ => ?_) (fun _ => ?_)
  · refine Keeps.after (State.mapCommit_keeps _ _) (by decide) ?_
    exact Keeps.refl _ _
  · exact Keeps.refl _ _

theorem execStage2_ends (s : State) :
    Ends [.regs, .csr, .evt, .ecc, .tally, .sched, .nv, .evr, .wdg, .flash, .psq, .chans, .med, .bench, .xlt, .twin, .cxl, .rdma, .sec, .dram, .out, .fresh] s (execStage2 s) := by
  unfold execStage2
  refine Ends.ite (fun _ => ?_) (fun _ => ?_)
  · extract_lets -merge +onlyGivenNames x1
    refine Ends.of_let x1 ?_ (fun h1 => ?_)
    · unfold x1
      refine Keeps.after (State.cause_keeps _ _ _ _ _) (by decide) ?_
      exact Keeps.refl _ _
    · refine Ends.next ?_
      refine Keeps.after (State.takeTrigger_keeps _ _) (by decide) ?_
      refine Keeps.after (State.setWdg_keeps _ _) (by decide) ?_
      exact h1
  · refine Ends.next ?_
    exact Keeps.refl _ _

theorem execWarmReset_ends (s : State) :
    Ends [.regs, .csr, .evt, .ecc, .tally, .nv, .evr, .wdg, .flash, .psq, .chans, .med, .bench, .xlt, .twin, .cxl, .rdma, .sec, .dram, .out, .fresh] s (execWarmReset s) := by
  unfold execWarmReset
  refine Ends.ite (fun _ => ?_) (fun _ => ?_)
  · refine Ends.next ?_
    exact Keeps.refl _ _
  · split
    · refine Ends.next ?_
      refine Keeps.after (State.groupsUp_keeps _) (by decide) ?_
      refine Keeps.after (State.mainRelease_keeps _) (by decide) ?_
      refine Keeps.after (State.mainReset_keeps _) (by decide) ?_
      exact Keeps.refl _ _
    · refine Ends.next ?_
      refine Keeps.after (State.setPState_keeps _ _) (by decide) ?_
      refine Keeps.after (State.groupsUp_keeps _) (by decide) ?_
      refine Keeps.after (State.mainRelease_keeps _) (by decide) ?_
      refine Keeps.after (State.mainReset_keeps _) (by decide) ?_
      exact Keeps.refl _ _
    · refine Ends.next ?_
      exact Keeps.refl _ _

theorem execFlashHoldOverrun_ends (s : State) :
    Ends [.regs, .csr, .evt, .ecc, .tally, .sched, .nv, .evr, .wdg, .flash, .psq, .chans, .med, .bench, .xlt, .twin, .cxl, .rdma, .sec, .dram, .out, .fresh] s (execFlashHoldOverrun s) := by
  unfold execFlashHoldOverrun
  refine Ends.ite (fun _ => ?_) (fun _ => ?_)
  · refine Ends.next ?_
    exact Keeps.refl _ _
  · extract_lets -merge +onlyGivenNames x1
    refine Ends.of_let x1 ?_ (fun h1 => ?_)
    · unfold x1
      refine Keeps.after (State.emit_keeps _ _) (by decide) ?_
      refine Keeps.after (State.cause_keeps _ _ _ _ _) (by decide) ?_
      refine Keeps.after (State.cause_keeps _ _ _ _ _) (by decide) ?_
      exact Keeps.refl _ _
    · refine Ends.next ?_
      refine Keeps.after (State.holdOver_keeps _) (by decide) ?_
      refine Keeps.after (State.flashCut_keeps _) (by decide) ?_
      exact h1

/-! ### CoreOps -/

theorem State.coreLoad_keeps (s : State) :
    Keeps [.regs, .csr, .evt, .ecc, .tally, .sched, .nv, .evr, .wdg, .flash, .psq, .chans, .med, .bench, .xlt, .twin, .cxl, .rdma, .sec, .dram, .out, .fresh] s (State.coreLoad s) := by
  unfold State.coreLoad
  extract_lets -merge +onlyGivenNames x1
  refine Keeps.of_let x1 ?_ (fun h1 => ?_)
  · unfold x1
    refine Keeps.ite (fun _ => ?_) (fun _ => ?_)
    · refine Keeps.after (State.fwRevert_keeps _) (by decide) ?_
      exact Keeps.refl _ _
    · exact Keeps.refl _ _
  · extract_lets -merge +onlyGivenNames x2
    refine Keeps.ite (fun _ => ?_) (fun _ => ?_)
    · refine Keeps.after (State.setFlash_keeps _ _) (by decide) ?_
      exact h1
    · refine Keeps.after (State.takeTrigger_keeps _ _) (by decide) ?_
      exact h1

theorem State.crashDump_keeps (s : State) :
    Keeps [.flash] s (State.crashDump s) := by
  unfold State.crashDump
  extract_lets -merge +onlyGivenNames x1
  refine Keeps.foldl _ (fun _ _ => ?_) ?_
  · refine Keeps.after (State.vaultPut_keeps _ _ _) (by decide) ?_
    exact Keeps.refl _ _
  · refine Keeps.after (State.setFlash_keeps _ _) (by decide) ?_
    exact Keeps.refl _ _

theorem State.coreRestart_keeps (s : State) (cause : Fin 4) :
    Keeps [.regs, .csr, .evt, .ecc, .tally, .sched, .nv, .evr, .wdg, .flash, .psq, .chans, .med, .bench, .xlt, .twin, .cxl, .rdma, .sec, .dram, .out, .fresh] s (State.coreRestart s cause) := by
  unfold State.coreRestart
  refine Keeps.ite (fun _ => ?_) (fun _ => ?_)
  · exact Keeps.refl _ _
  · extract_lets -merge +onlyGivenNames x1
    refine Keeps.of_let x1 ?_ (fun h1 => ?_)
    · unfold x1
      refine Keeps.after (State.cause_keeps _ _ _ _ _) (by decide) ?_
      refine Keeps.after (State.bump_keeps _ _ _ _ _ _) (by decide) ?_
      exact Keeps.refl _ _
    · extract_lets -merge +onlyGivenNames x2
      refine Keeps.of_let x2 ?_ (fun h2 => ?_)
      · unfold x2
        refine Keeps.ite (fun _ => ?_) (fun _ => ?_)
        · refine Keeps.after (State.cause_keeps _ _ _ _ _) (by decide) ?_
          exact h1
        · refine Keeps.ite (fun _ => ?_) (fun _ => ?_)
          · refine Keeps.after (State.cause_keeps _ _ _ _ _) (by decide) ?_
            exact h1
          · exact h1
      · extract_lets -merge +onlyGivenNames x3
        refine Keeps.of_let x3 ?_ (fun h3 => ?_)
        · unfold x3
          refine Keeps.after (State.record_keeps _ _ _ _ _ _) (by decide) ?_
          exact h2
        · extract_lets -merge +onlyGivenNames x4
          extract_lets -merge +onlyGivenNames x5
          refine Keeps.of_let x5 ?_ (fun h5 => ?_)
          · unfold x5
            refine Keeps.after (State.emit_keeps _ _) (by decide) ?_
            refine Keeps.after (State.wdgPause_keeps _) (by decide) ?_
            refine Keeps.after (State.setFlash_keeps _ _) (by decide) ?_
            exact h3
          · refine Keeps.ite (fun _ => ?_) (fun _ => ?_)
            · refine Keeps.after (State.coreLoad_keeps _) (by decide) ?_
              exact h5
            · extract_lets -merge +onlyGivenNames x6
              extract_lets -merge +onlyGivenNames x7
              extract_lets -merge +onlyGivenNames x8
              extract_lets -merge +onlyGivenNames x9
              refine Keeps.of_let x9 ?_ (fun h9 => ?_)
              · unfold x9
                refine Keeps.after (State.crashDump_keeps _) (by decide) ?_
                exact h5
              · extract_lets -merge +onlyGivenNames x10
                extract_lets -merge +onlyGivenNames x11
                refine Keeps.of_let x11 ?_ (fun h11 => ?_)
                · unfold x11
                  refine Keeps.after (State.setFlash_keeps _ _) (by decide) ?_
                  exact h9
                · extract_lets -merge +onlyGivenNames x12
                  refine Keeps.of_let x12 ?_ (fun h12 => ?_)
                  · unfold x12
                    refine Keeps.ite (fun _ => ?_) (fun _ => ?_)
                    · refine Keeps.after (State.putSlots_keeps _ _) (by decide) ?_
                      exact h11
                    · exact h11
                  · refine Keeps.ite (fun _ => ?_) (fun _ => ?_)
                    · refine Keeps.ite (fun _ => ?_) (fun _ => ?_)
                      · refine Keeps.after (State.coreLoad_keeps _) (by decide) ?_
                        refine Keeps.after (State.fwRevert_keeps _) (by decide) ?_
                        exact h12
                      · refine Keeps.after (State.takeTrigger_keeps _ _) (by decide) ?_
                        exact h12
                    · refine Keeps.after (State.coreLoad_keeps _) (by decide) ?_
                      exact h12

theorem State.fwComplete_keeps (s : State) (who : Option (Fin 64 × BitVec 16)) (st : Status) (res : List Word) :
    Keeps [.flash, .chans, .cxl, .out] s (State.fwComplete s who st res) := by
  unfold State.fwComplete
  extract_lets -merge +onlyGivenNames x1
  extract_lets -merge +onlyGivenNames x2
  refine Keeps.of_let x2 ?_ (fun h2 => ?_)
  · unfold x2
    refine Keeps.after (State.setFlash_keeps _ _) (by decide) ?_
    exact Keeps.refl _ _
  · split
    · refine Keeps.after (State.complete_keeps _ _ _ _ _) (by decide) ?_
      exact h2
    · exact h2

theorem State.bootCopyStart_keeps (s : State) (who : Option (Fin 64 × BitVec 16)) (slot : Bool) :
    Keeps [.nv, .flash] s (State.bootCopyStart s who slot) := by
  unfold State.bootCopyStart
  extract_lets -merge +onlyGivenNames x1
  extract_lets -merge +onlyGivenNames x2
  extract_lets -merge +onlyGivenNames x3
  refine Keeps.of_let x3 ?_ (fun h3 => ?_)
  · unfold x3
    refine Keeps.after (State.putSlots_keeps _ _) (by decide) ?_
    exact Keeps.refl _ _
  · extract_lets -merge +onlyGivenNames x4
    extract_lets -merge +onlyGivenNames x5
    refine Keeps.of_let x5 ?_ (fun h5 => ?_)
    · unfold x5
      refine Keeps.after (State.setFlash_keeps _ _) (by decide) ?_
      exact h3
    · extract_lets -merge +onlyGivenNames x6
      refine Keeps.of_let x6 ?_ (fun h6 => ?_)
      · unfold x6
        refine Keeps.foldl _ (fun _ _ => ?_) ?_
        · refine Keeps.after (State.flashPush_keeps _ _) (by decide) ?_
          exact Keeps.refl _ _
        · exact h5
      · refine Keeps.foldl _ (fun _ _ => ?_) ?_
        · refine Keeps.after (State.flashPush_keeps _ _) (by decide) ?_
          exact Keeps.refl _ _
        · exact h6

theorem State.fwStep_keeps (s : State) (o : FlashOp) (ok : Bool) :
    Keeps [.regs, .evt, .nv, .evr, .flash, .chans, .cxl, .out] s (State.fwStep s o ok) := by
  unfold State.fwStep
  extract_lets -merge +onlyGivenNames x1
  extract_lets -merge +onlyGivenNames x2
  split
  · extract_lets -merge +onlyGivenNames x3
    refine Keeps.ite (fun _ => ?_) (fun _ => ?_)
    · exact Keeps.refl _ _
    · refine Keeps.ite (fun _ => ?_) (fun _ => ?_)
      · refine Keeps.after (State.fwComplete_keeps _ _ _ _) (by decide) ?_
        unfold x2
        refine Keeps.after (State.flashNext_keeps _) (by decide) ?_
        refine Keeps.after (State.setFlash_keeps _ _) (by decide) ?_
        exact Keeps.refl _ _
      · refine Keeps.ite (fun _ => ?_) (fun _ => ?_)
        · exact Keeps.refl _ _
        · refine Keeps.after (State.fwComplete_keeps _ _ _ _) (by decide) ?_
          exact Keeps.refl _ _
  · refine Keeps.ite (fun _ => ?_) (fun _ => ?_)
    · exact Keeps.refl _ _
    · refine Keeps.ite (fun _ => ?_) (fun _ => ?_)
      · refine Keeps.after (State.fwComplete_keeps _ _ _ _) (by decide) ?_
        unfold x2
        refine Keeps.after (State.flashNext_keeps _) (by decide) ?_
        refine Keeps.after (State.setFlash_keeps _ _) (by decide) ?_
        exact Keeps.refl _ _
      · refine Keeps.ite (fun _ => ?_) (fun _ => ?_)
        · exact Keeps.refl _ _
        · extract_lets -merge +onlyGivenNames x3
          extract_lets -merge +onlyGivenNames x4
          refine Keeps.of_let x4 ?_ (fun h4 => ?_)
          · unfold x4
            refine Keeps.after (State.putImage_keeps _ _ _) (by decide) ?_
            exact Keeps.refl _ _
          · extract_lets -merge +onlyGivenNames x5
            extract_lets -merge +onlyGivenNames x6
            extract_lets -merge +onlyGivenNames x7
            extract_lets -merge +onlyGivenNames x8
            extract_lets -merge +onlyGivenNames x9
            refine Keeps.of_let x9 ?_ (fun h9 => ?_)
            · unfold x9
              refine Keeps.after (State.putSlots_keeps _ _) (by decide) ?_
              refine Keeps.after (State.setFlash_keeps _ _) (by decide) ?_
              exact h4
            · refine Keeps.after (State.fwComplete_keeps _ _ _ _) (by decide) ?_
              refine Keeps.after (State.record_keeps _ _ _ _ _ _) (by decide) ?_
              refine Keeps.after (State.cause_keeps _ _ _ _ _) (by decide) ?_
              exact h9
  · exact Keeps.refl _ _

theorem State.arbFollow_keeps (s : State) (ok : Bool) :
    Keeps [.regs, .evt, .evr, .chans, .cxl, .sec, .fuse, .out] s (State.arbFollow s ok) := by
  unfold State.arbFollow
  extract_lets -merge +onlyGivenNames x1
  extract_lets -merge +onlyGivenNames x2
  refine Keeps.ite (fun _ => ?_) (fun _ => ?_)
  · exact Keeps.refl _ _
  · refine Keeps.ite (fun _ => ?_) (fun _ => ?_)
    · refine Keeps.set_sec_fuse (by decide) ?_
      exact Keeps.refl _ _
    · refine Keeps.after (State.cause_keeps _ _ _ _ _) (by decide) ?_
      exact Keeps.refl _ _

theorem State.judgeSec_keeps (s : State) :
    Keeps [.regs, .evt, .evr, .chans, .cxl, .out] s (State.judgeSec s) := by
  unfold State.judgeSec
  extract_lets -merge +onlyGivenNames x1
  extract_lets -merge +onlyGivenNames x2
  refine Keeps.of_let x2 ?_ (fun h2 => ?_)
  · unfold x2
    refine Keeps.after (State.level_keeps _ _ _ _ _ _ _) (by decide) ?_
    exact Keeps.refl _ _
  · extract_lets -merge +onlyGivenNames x3
    refine Keeps.of_let x3 ?_ (fun h3 => ?_)
    · unfold x3
      refine Keeps.after (State.level_keeps _ _ _ _ _ _ _) (by decide) ?_
      exact h2
    · extract_lets -merge +onlyGivenNames x4
      refine Keeps.of_let x4 ?_ (fun h4 => ?_)
      · unfold x4
        refine Keeps.after (State.level_keeps _ _ _ _ _ _ _) (by decide) ?_
        exact h3
      · extract_lets -merge +onlyGivenNames x5
        refine Keeps.of_let x5 ?_ (fun h5 => ?_)
        · unfold x5
          refine Keeps.after (State.level_keeps _ _ _ _ _ _ _) (by decide) ?_
          exact h4
        · refine Keeps.after (State.level_keeps _ _ _ _ _ _ _) (by decide) ?_
          exact h5

theorem State.lifeWrite_keeps (s : State) :
    Keeps [.nv] s (State.lifeWrite s) := by
  unfold State.lifeWrite
  refine Keeps.after (State.nvWrite_keeps _ _ _) (by decide) ?_
  exact Keeps.refl _ _

theorem State.chansErase_keeps (s : State) :
    Keeps [.chans] s (State.chansErase s) := by
  unfold State.chansErase
  refine Keeps.set_chans (by decide) ?_
  exact Keeps.refl _ _

theorem Keeps.set_cxl_rdma {w : List Part} {s t : State} {x0} {x1} (hp : Part.cxl ∈ w ∧ Part.rdma ∈ w) (h : Keeps w s t) :
    Keeps w s { t with cxl := x0, rdma := x1 } := fun q hq => by
  cases q <;> first | exact h _ hq | simp_all

theorem State.wholeErase_keeps (s : State) :
    Keeps [.chans, .med, .bench, .xlt, .twin, .cxl, .rdma, .sec] s (State.wholeErase s) := by
  unfold State.wholeErase
  extract_lets -merge +onlyGivenNames x1
  extract_lets -merge +onlyGivenNames x2
  refine Keeps.of_let x2 ?_ (fun h2 => ?_)
  · unfold x2
    refine Keeps.set_sec (by decide) rfl ?_
    exact Keeps.refl _ _
  · extract_lets -merge +onlyGivenNames x3
    refine Keeps.of_let x3 ?_ (fun h3 => ?_)
    · unfold x3
      refine Keeps.after (State.chansErase_keeps _) (by decide) ?_
      exact h2
    · extract_lets -merge +onlyGivenNames x4
      extract_lets -merge +onlyGivenNames x5
      refine Keeps.of_let x5 ?_ (fun h5 => ?_)
      · unfold x5
        refine Keeps.after (State.setXlt_keeps _ _) (by decide) ?_
        exact h3
      · extract_lets -merge +onlyGivenNames x6
        extract_lets -merge +onlyGivenNames x7
        refine Keeps.of_let x7 ?_ (fun h7 => ?_)
        · unfold x7
          refine Keeps.after (State.setMed_keeps _ _) (by decide) ?_
          exact h5
        · extract_lets -merge +onlyGivenNames x8
          extract_lets -merge +onlyGivenNames x9
          refine Keeps.of_let x9 ?_ (fun h9 => ?_)
          · unfold x9
            refine Keeps.after (State.setTwin_keeps _ _) (by decide) ?_
            exact h7
          · extract_lets -merge +onlyGivenNames x10
            extract_lets -merge +onlyGivenNames x11
            extract_lets -merge +onlyGivenNames x12
            refine Keeps.of_let x12 ?_ (fun h12 => ?_)
            · unfold x12
              refine Keeps.set_cxl_rdma (by decide) ?_
              exact h9
            · refine Keeps.after (State.setBench_keeps _ _) (by decide) ?_
              exact h12

theorem State.entryActions_keeps (s : State) : Keeps [.sec, .fresh] s (State.entryActions s) := by
  unfold State.entryActions
  split
  · exact Keeps.refl _ _
  · rename_i t _
    cases t <;> dsimp only <;> refine Keeps.ite (fun _ => Keeps.after (State.draw_keeps _) (by decide) ?_) (fun _ => ?_) <;>
      exact Keeps.set_sec (by decide) rfl (Keeps.refl _ _)

theorem State.lifeActions_keeps (s : State) :
    Keeps [.regs, .evt, .nv, .evr, .flash, .chans, .med, .bench, .xlt, .twin, .cxl, .rdma, .sec, .out, .fresh] s (State.lifeActions s) := by
  unfold State.lifeActions
  extract_lets -merge +onlyGivenNames x1
  refine Keeps.of_let x1 ?_ (fun h1 => ?_)
  · unfold x1
    refine Keeps.after (State.entryActions_keeps _) (by decide) ?_
    exact Keeps.refl _ _
  · extract_lets -merge +onlyGivenNames x2
    refine Keeps.of_let x2 ?_ (fun h2 => ?_)
    · unfold x2
      refine Keeps.ite (fun _ => ?_) (fun _ => ?_)
      · refine Keeps.after (State.wholeErase_keeps _) (by decide) ?_
        exact h1
      · exact h1
    · extract_lets -merge +onlyGivenNames x3
      extract_lets -merge +onlyGivenNames x4
      refine Keeps.of_let x4 ?_ (fun h4 => ?_)
      · unfold x4
        refine Keeps.after (State.setFlash_keeps _ _) (by decide) ?_
        exact h2
      · extract_lets -merge +onlyGivenNames x5
        extract_lets -merge +onlyGivenNames x6
        refine Keeps.of_let x6 ?_ (fun h6 => ?_)
        · unfold x6
          refine Keeps.ite (fun _ => ?_) (fun _ => ?_)
          · refine Keeps.after (State.cause_keeps _ _ _ _ _) (by decide) ?_
            refine Keeps.set_sec (by decide) rfl ?_
            exact h4
          · exact h2
        · refine Keeps.after (State.judgeSec_keeps _) (by decide) ?_
          refine Keeps.after (State.lifeWrite_keeps _) (by decide) ?_
          refine Keeps.set_sec (by decide) rfl ?_
          exact h6

theorem State.ropRaise_keeps (s : State) :
    Keeps [.nv, .sec] s (State.ropRaise s) := by
  unfold State.ropRaise
  refine Keeps.ite (fun _ => ?_) (fun _ => ?_)
  · refine Keeps.after (State.lifeWrite_keeps _) (by decide) ?_
    refine Keeps.set_sec (by decide) rfl ?_
    exact Keeps.refl _ _
  · exact Keeps.refl _ _

theorem State.debugClose_keeps (s : State) :
    Keeps [.regs, .evt, .evr, .chans, .cxl, .sec, .out] s (State.debugClose s) := by
  unfold State.debugClose
  refine Keeps.after (State.judgeSec_keeps _) (by decide) ?_
  refine Keeps.set_sec (by decide) rfl ?_
  exact Keeps.refl _ _

theorem State.groupsRepair_keeps (s : State) :
    Keeps [.sec, .fuse] s (State.groupsRepair s) := by
  unfold State.groupsRepair
  extract_lets -merge +onlyGivenNames x1
  extract_lets -merge +onlyGivenNames x2
  extract_lets -merge +onlyGivenNames x3
  refine Keeps.set_sec_fuse (by decide) ?_
  exact Keeps.refl _ _

theorem State.keysLoad_keeps (s : State) :
    Keeps [.nv, .sec] s (State.keysLoad s) := by
  unfold State.keysLoad
  refine Keeps.foldl _ (fun _ _ => ?_) ?_
  · extract_lets -merge +onlyGivenNames x1
    refine Keeps.ite (fun _ => ?_) (fun _ => ?_)
    · refine Keeps.set_sec (by decide) rfl ?_
      exact Keeps.refl _ _
    · refine Keeps.ite (fun _ => ?_) (fun _ => ?_)
      · extract_lets -merge +onlyGivenNames x2
        refine Keeps.after (State.setKeySlot_keeps _ _ _) (by decide) ?_
        refine Keeps.set_sec (by decide) rfl ?_
        exact Keeps.refl _ _
      · exact Keeps.refl _ _
  · exact Keeps.refl _ _

theorem State.erasesResume_keeps (s : State) :
    Keeps [.regs, .evt, .nv, .evr, .chans, .med, .bench, .xlt, .twin, .cxl, .rdma, .sec, .out, .fresh] s (State.erasesResume s) := by
  unfold State.erasesResume
  extract_lets -merge +onlyGivenNames x1
  refine Keeps.ite (fun _ => ?_) (fun _ => ?_)
  · exact Keeps.refl _ _
  · extract_lets -merge +onlyGivenNames x2
    extract_lets -merge +onlyGivenNames x3
    refine Keeps.of_let x3 ?_ (fun h3 => ?_)
    · unfold x3
      refine Keeps.after (State.setDesc_keeps _ _ _) (by decide) ?_
      exact Keeps.refl _ _
    · refine Keeps.foldl _ (fun _ _ => ?_) ?_
      · refine Keeps.after (State.eraseEnd_keeps _ _) (by decide) ?_
        exact Keeps.refl _ _
      · exact h3

theorem execFlashOpDone_ends (ok : Bool) (s : State) :
    Ends [.regs, .csr, .evt, .ecc, .tally, .sched, .nv, .evr, .wdg, .flash, .psq, .chans, .med, .bench, .xlt, .twin, .cxl, .rdma, .sec, .dram, .out, .fresh] s (execFlashOpDone ok s) := by
  unfold execFlashOpDone
  split
  · refine Ends.next ?_
    exact Keeps.refl _ _
  · refine Ends.ite (fun _ => ?_) (fun _ => ?_)
    · refine Ends.next ?_
      exact Keeps.refl _ _
    · refine Ends.next ?_
      refine Keeps.after (State.holdOver_keeps _) (by decide) ?_
      refine Keeps.after (State.fwStep_keeps _ _ _) (by decide) ?_
      refine Keeps.after (State.flashEnd_keeps _ _) (by decide) ?_
      exact Keeps.refl _ _

theorem execControlCoreRestart_ends (cause : Fin 4) (s : State) :
    Ends [.regs, .csr, .evt, .ecc, .tally, .sched, .nv, .evr, .wdg, .flash, .psq, .chans, .med, .bench, .xlt, .twin, .cxl, .rdma, .sec, .dram, .out, .fresh] s (execControlCoreRestart cause s) := by
  unfold execControlCoreRestart
  extract_lets -merge +onlyGivenNames x1
  refine Ends.next ?_
  refine Keeps.ite (fun _ => ?_) (fun _ => ?_)
  · exact Keeps.refl _ _
  · refine Keeps.after (State.coreRestart_keeps _ _) (by decide) ?_
    exact Keeps.refl _ _

theorem execTrialConfirm_ends (ok : Bool) (s : State) :
    Ends [.regs, .evt, .nv, .evr, .flash, .chans, .cxl, .sec, .fuse, .out] s (execTrialConfirm ok s) := by
  unfold execTrialConfirm
  extract_lets -merge +onlyGivenNames x1
  refine Ends.ite (fun _ => ?_) (fun _ => ?_)
  · refine Ends.next ?_
    exact Keeps.refl _ _
  · extract_lets -merge +onlyGivenNames x2
    refine Ends.of_let x2 ?_ (fun h2 => ?_)
    · unfold x2
      refine Keeps.after (State.arbFollow_keeps _ _) (by decide) ?_
      refine Keeps.after (State.putSlots_keeps _ _) (by decide) ?_
      exact Keeps.refl _ _
    · refine Ends.next ?_
      refine Keeps.after (State.record_keeps _ _ _ _ _ _) (by decide) ?_
      refine Keeps.after (State.cause_keeps _ _ _ _ _) (by decide) ?_
      exact h2

/-! ### Dram -/

theorem State.injHit_keeps (s : State) (addr : Nat) :
    Keeps [.regs, .evt, .evr, .chans, .cxl, .out] s (State.injHit s addr) := by
  unfold State.injHit
  refine Keeps.ite (fun _ => ?_) (fun _ => ?_)
  · refine Keeps.after (State.cause_keeps _ _ _ _ _) (by decide) ?_
    exact Keeps.refl _ _
  · exact Keeps.refl _ _

theorem State.dramCe_keeps (s : State) (addr : Nat) (held : List DramArray) :
    Keeps [.regs, .evt, .evr, .chans, .med, .xlt, .twin, .cxl, .rdma, .dram, .out] s (State.dramCe s addr held) := by
  unfold State.dramCe
  extract_lets -merge +onlyGivenNames x1
  extract_lets -merge +onlyGivenNames x2
  refine Keeps.of_let x2 ?_ (fun h2 => ?_)
  · unfold x2
    refine Keeps.after (State.injHit_keeps _ _) (by decide) ?_
    exact Keeps.refl _ _
  · refine Keeps.ite (fun _ => ?_) (fun _ => ?_)
    · exact h2
    · extract_lets -merge +onlyGivenNames x3
      extract_lets -merge +onlyGivenNames x4
      extract_lets -merge +onlyGivenNames x5
      refine Keeps.of_let x5 ?_ (fun h5 => ?_)
      · unfold x5
        refine Keeps.after (State.setDram_keeps _ _) (by decide) ?_
        exact h2
      · extract_lets -merge +onlyGivenNames x6
        refine Keeps.of_let x6 ?_ (fun h6 => ?_)
        · unfold x6
          refine Keeps.after (State.cause_keeps _ _ _ _ _) (by decide) ?_
          refine Keeps.after (State.bump_keeps _ _ _ _ _ _) (by decide) ?_
          exact h5
        · split
          · refine Keeps.ite (fun _ => ?_) (fun _ => ?_)
            · extract_lets -merge +onlyGivenNames x7
              extract_lets -merge +onlyGivenNames x8
              refine Keeps.of_let x8 ?_ (fun h8 => ?_)
              · unfold x8
                refine Keeps.after (State.setRank_keeps _ _ _ _) (by decide) ?_
                exact h6
              · refine Keeps.ite (fun _ => ?_) (fun _ => ?_)
                · refine Keeps.after (State.retireRank_keeps _ _ _ _) (by decide) ?_
                  exact h8
                · exact h8
            · exact h6
          · exact h6

theorem State.dramUe_keeps (s : State) (owner : DramArray) :
    Keeps [.regs, .csr, .evt, .ecc, .tally, .sched, .nv, .evr, .wdg, .flash, .psq, .chans, .med, .bench, .xlt, .twin, .cxl, .rdma, .sec, .dram, .out, .fresh] s (State.dramUe s owner) := by
  unfold State.dramUe
  extract_lets -merge +onlyGivenNames x1
  refine Keeps.of_let x1 ?_ (fun h1 => ?_)
  · unfold x1
    refine Keeps.after (State.dramLost_keeps _ _) (by decide) ?_
    refine Keeps.after (State.cause_keeps _ _ _ _ _) (by decide) ?_
    refine Keeps.after (State.bump_keeps _ _ _ _ _ _) (by decide) ?_
    exact Keeps.refl _ _
  · refine Keeps.ite (fun _ => ?_) (fun _ => ?_)
    · refine Keeps.after (State.coreRestart_keeps _ _) (by decide) ?_
      exact h1
    · exact h1

theorem execDramReadCe_ends (addr : Nat) (held : List DramArray) (s : State) :
    Ends [.regs, .evt, .sched, .nv, .evr, .chans, .med, .bench, .xlt, .twin, .cxl, .rdma, .sec, .dram, .out, .fresh] s (execDramReadCe addr held s) := by
  unfold execDramReadCe
  refine Ends.next ?_
  refine Keeps.ite (fun _ => ?_) (fun _ => ?_)
  · refine Keeps.after (State.settleMed_keeps _) (by decide) ?_
    refine Keeps.after (State.dramCe_keeps _ _ _) (by decide) ?_
    exact Keeps.refl _ _
  · exact Keeps.refl _ _

theorem execCeCacheRewrite_ends (addr : Nat) (s : State) :
    Ends [.dram, .out] s (execCeCacheRewrite addr s) := by
  unfold execCeCacheRewrite
  extract_lets -merge +onlyGivenNames x1
  refine Ends.next ?_
  refine Keeps.ite (fun _ => ?_) (fun _ => ?_)
  · refine Keeps.after (State.emit_keeps _ _) (by decide) ?_
    refine Keeps.after (State.setDram_keeps _ _) (by decide) ?_
    exact Keeps.refl _ _
  · exact Keeps.refl _ _

theorem execDramUncorrectableError_ends (addr : Nat) (owner : DramArray) (held : List DramArray) (s : State) :
    Ends [.regs, .csr, .evt, .ecc, .tally, .sched, .nv, .evr, .wdg, .flash, .psq, .chans, .med, .bench, .xlt, .twin, .cxl, .rdma, .sec, .dram, .out, .fresh] s (execDramUncorrectableError addr owner held s) := by
  unfold execDramUncorrectableError
  split
  · refine Ends.ite (fun _ => ?_) (fun _ => ?_)
    · refine Ends.next ?_
      exact Keeps.refl _ _
    · extract_lets -merge +onlyGivenNames x1
      refine Ends.of_let x1 ?_ (fun h1 => ?_)
      · unfold x1
        refine Keeps.after (State.dramUe_keeps _ _) (by decide) ?_
        refine Keeps.after (State.injHit_keeps _ _) (by decide) ?_
        exact Keeps.refl _ _
      · refine Ends.next ?_
        refine Keeps.after (State.settleMed_keeps _) (by decide) ?_
        refine Keeps.ite (fun _ => ?_) (fun _ => ?_)
        · refine Keeps.after (State.retireRank_keeps _ _ _ _) (by decide) ?_
          exact h1
        · exact h1
  · refine Ends.next ?_
    exact Keeps.refl _ _

theorem execCeWindowExpiry_ends (c : Fin 8) (k : Fin 4) (s : State) :
    Ends [.dram] s (execCeWindowExpiry c k s) := by
  unfold execCeWindowExpiry
  refine Ends.next ?_
  refine Keeps.after (State.setRank_keeps _ _ _ _) (by decide) ?_
  exact Keeps.refl _ _

theorem execRankCopyDone_ends (c : Fin 8) (lost : List DramArray) (held : List DramArray) (s : State) :
    Ends [.regs, .csr, .evt, .ecc, .tally, .sched, .nv, .evr, .wdg, .flash, .psq, .chans, .med, .bench, .xlt, .twin, .cxl, .rdma, .sec, .dram, .out, .fresh] s (execRankCopyDone c lost held s) := by
  unfold execRankCopyDone
  split
  · refine Ends.ite (fun _ => ?_) (fun _ => ?_)
    · refine Ends.next ?_
      exact Keeps.refl _ _
    · extract_lets -merge +onlyGivenNames x1
      extract_lets -merge +onlyGivenNames x2
      refine Ends.of_let x2 ?_ (fun h2 => ?_)
      · unfold x2
        refine Keeps.foldl _ (fun _ _ => ?_) ?_
        · refine Keeps.after (State.dramUe_keeps _ _) (by decide) ?_
          exact Keeps.refl _ _
        · exact Keeps.refl _ _
      · extract_lets -merge +onlyGivenNames x3
        refine Ends.of_let x3 ?_ (fun h3 => ?_)
        · unfold x3
          refine Keeps.after (State.cause_keeps _ _ _ _ _) (by decide) ?_
          refine Keeps.after (State.setRank_keeps _ _ _ _) (by decide) ?_
          refine Keeps.after (State.setRank_keeps _ _ _ _) (by decide) ?_
          exact h2
        · extract_lets -merge +onlyGivenNames x4
          refine Ends.of_let x4 ?_ (fun h4 => ?_)
          · unfold x4
            refine Keeps.after (State.judgeDram_keeps _) (by decide) ?_
            exact h3
          · refine Ends.next ?_
            refine Keeps.after (State.settleMed_keeps _) (by decide) ?_
            split
            · refine Keeps.after (State.retireRank_keeps _ _ _ _) (by decide) ?_
              refine Keeps.after (State.setRank_keeps _ _ _ _) (by decide) ?_
              exact h4
            · exact h4
  · refine Ends.next ?_
    exact Keeps.refl _ _

theorem execDdrAlertN_ends (c : Fin 8) (k : Fin 4) (second : Bool) (held : List DramArray) (s : State) :
    Ends [.regs, .evt, .sched, .nv, .evr, .chans, .med, .bench, .xlt, .twin, .cxl, .rdma, .sec, .dram, .out, .fresh] s (execDdrAlertN c k second held s) := by
  unfold execDdrAlertN
  refine Ends.ite (fun _ => ?_) (fun _ => ?_)
  · refine Ends.next ?_
    exact Keeps.refl _ _
  · extract_lets -merge +onlyGivenNames x1
    refine Ends.of_let x1 ?_ (fun h1 => ?_)
    · unfold x1
      refine Keeps.after (State.cause_keeps _ _ _ _ _) (by decide) ?_
      exact Keeps.refl _ _
    · refine Ends.next ?_
      refine Keeps.ite (fun _ => ?_) (fun _ => ?_)
      · refine Keeps.after (State.settleMed_keeps _) (by decide) ?_
        refine Keeps.after (State.retireRank_keeps _ _ _ _) (by decide) ?_
        exact h1
      · refine Keeps.after (State.emit_keeps _ _) (by decide) ?_
        exact h1

theorem execDramScrubPass_ends (s : State) :
    Ends [.regs, .evt, .evr, .chans, .cxl, .dram, .out] s (execDramScrubPass s) := by
  unfold execDramScrubPass
  refine Ends.next ?_
  refine Keeps.ite (fun _ => ?_) (fun _ => ?_)
  · refine Keeps.after (State.cause_keeps _ _ _ _ _) (by decide) ?_
    refine Keeps.after (State.setDram_keeps _ _) (by decide) ?_
    exact Keeps.refl _ _
  · exact Keeps.refl _ _

theorem State.scrubStart_keeps (s : State) (who : Option (Fin 64 × BitVec 16)) :
    Keeps [.dram] s (State.scrubStart s who) := by
  unfold State.scrubStart
  refine Keeps.after (State.setDram_keeps _ _) (by decide) ?_
  exact Keeps.refl _ _

theorem execDrmSreqGo_ends (s : State) :
    Ends [.dram] s (execDrmSreqGo s) := by
  unfold execDrmSreqGo
  refine Ends.next ?_
  refine Keeps.ite (fun _ => ?_) (fun _ => ?_)
  · refine Keeps.after (State.scrubStart_keeps _ _) (by decide) ?_
    exact Keeps.refl _ _
  · exact Keeps.refl _ _

theorem execSreqDone_ends (ce : Nat) (ue : Nat) (first : BitVec 64) (s : State) :
    Ends [.regs, .evt, .evr, .chans, .cxl, .dram, .out] s (execSreqDone ce ue first s) := by
  unfold execSreqDone
  split
  · refine Ends.next ?_
    exact Keeps.refl _ _
  · extract_lets -merge +onlyGivenNames x1
    extract_lets -merge +onlyGivenNames x2
    extract_lets -merge +onlyGivenNames x3
    refine Ends.of_let x3 ?_ (fun h3 => ?_)
    · unfold x3
      refine Keeps.after (State.setReg64_keeps _ _ _ _ _) (by decide) ?_
      refine Keeps.after (State.setReg_keeps _ _ _ _) (by decide) ?_
      refine Keeps.after (State.setReg_keeps _ _ _ _) (by decide) ?_
      exact Keeps.refl _ _
    · extract_lets -merge +onlyGivenNames x4
      extract_lets -merge +onlyGivenNames x5
      refine Ends.of_let x5 ?_ (fun h5 => ?_)
      · unfold x5
        refine Keeps.after (State.cause_keeps _ _ _ _ _) (by decide) ?_
        refine Keeps.after (State.setDram_keeps _ _) (by decide) ?_
        exact h3
      · refine Ends.next ?_
        split
        · refine Keeps.after (State.complete_keeps _ _ _ _ _) (by decide) ?_
          exact h5
        · exact h5

theorem execDramScrubBurstEnd_ends (s : State) :
    Ends [.dram, .out] s (execDramScrubBurstEnd s) := by
  unfold execDramScrubBurstEnd
  refine Ends.ite (fun _ => ?_) (fun _ => ?_)
  · refine Ends.next ?_
    exact Keeps.refl _ _
  · extract_lets -merge +onlyGivenNames x1
    extract_lets -merge +onlyGivenNames x2
    refine Ends.of_let x2 ?_ (fun h2 => ?_)
    · unfold x2
      refine Keeps.after (State.setDram_keeps _ _) (by decide) ?_
      exact Keeps.refl _ _
    · refine Ends.next ?_
      refine Keeps.ite (fun _ => ?_) (fun _ => ?_)
      · refine Keeps.after (State.emit_keeps _ _) (by decide) ?_
        refine Keeps.after (State.setDram_keeps _ _) (by decide) ?_
        exact h2
      · exact h2

theorem execDramInjectWrite_ends (addr : Nat) (s : State) :
    Ends [.regs, .dram, .out] s (execDramInjectWrite addr s) := by
  unfold execDramInjectWrite
  refine Ends.next ?_
  refine Keeps.ite (fun _ => ?_) (fun _ => ?_)
  · refine Keeps.after (State.burstWritten_keeps _ _) (by decide) ?_
    exact Keeps.refl _ _
  · exact Keeps.refl _ _

theorem execDimmThermalPoll_ends (d : Fin 16) (temp : Option Nat) (s : State) :
    Ends [.regs, .evt, .evr, .chans, .cxl, .dram, .out] s (execDimmThermalPoll d temp s) := by
  unfold execDimmThermalPoll
  refine Ends.ite (fun _ => ?_) (fun _ => ?_)
  · refine Ends.next ?_
    exact Keeps.refl _ _
  · extract_lets -merge +onlyGivenNames x1
    extract_lets -merge +onlyGivenNames x2
    extract_lets -merge +onlyGivenNames x3
    extract_lets -merge +onlyGivenNames x4
    extract_lets -merge +onlyGivenNames x5
    refine Ends.of_let x5 ?_ (fun h5 => ?_)
    · unfold x5
      refine Keeps.after (State.setDram_keeps _ _) (by decide) ?_
      exact Keeps.refl _ _
    · extract_lets -merge +onlyGivenNames x6
      refine Ends.next ?_
      refine Keeps.after (State.judgeDram_keeps _) (by decide) ?_
      refine Keeps.after (State.level_keeps _ _ _ _ _ _ _) (by decide) ?_
      exact h5

theorem execDrmMapCommit_ends (s : State) :
    Ends [.regs, .evt, .sched, .nv, .evr, .psq, .chans, .med, .bench, .xlt, .twin, .cxl, .rdma, .sec, .dram, .out, .fresh] s (execDrmMapCommit s) := by
  unfold execDrmMapCommit
  refine Ends.next ?_
  refine Keeps.ite (fun _ => ?_) (fun _ => ?_)
  · exact Keeps.refl _ _
  · extract_lets -merge +onlyGivenNames x1
    refine Keeps.ite (fun _ => ?_) (fun _ => ?_)
    · refine Keeps.after (State.setFld_keeps _ _ _ _ _ _) (by decide) ?_
      exact Keeps.refl _ _
    · extract_lets -merge +onlyGivenNames x2
      refine Keeps.of_let x2 ?_ (fun h2 => ?_)
      · unfold x2
        refine Keeps.after (State.setReg_keeps _ _ _ _) (by decide) ?_
        refine Keeps.after (State.setFld_keeps _ _ _ _ _ _) (by decide) ?_
        exact Keeps.refl _ _
      · refine Keeps.after (State.settleMed_keeps _) (by decide) ?_
        refine Keeps.after (State.tryOpen_keeps _) (by decide) ?_
        refine Keeps.after (State.trainBench_keeps _) (by decide) ?_
        exact h2

theorem execDrmFreqSwitch_ends (s : State) :
    Ends [.regs, .dram] s (execDrmFreqSwitch s) := by
  unfold execDrmFreqSwitch
  extract_lets -merge +onlyGivenNames x1
  extract_lets -merge +onlyGivenNames x2
  refine Ends.next ?_
  refine Keeps.ite (fun _ => ?_) (fun _ => ?_)
  · exact Keeps.refl _ _
  · refine Keeps.ite (fun _ => ?_) (fun _ => ?_)
    · refine Keeps.after (State.setBit_keeps _ _ _ _ _) (by decide) ?_
      exact Keeps.refl _ _
    · refine Keeps.ite (fun _ => ?_) (fun _ => ?_)
      · exact Keeps.refl _ _
      · refine Keeps.after (State.setDram_keeps _ _) (by decide) ?_
        refine Keeps.after (State.setBit_keeps _ _ _ _ _) (by decide) ?_
        refine Keeps.after (State.setBit_keeps _ _ _ _ _) (by decide) ?_
        exact Keeps.refl _ _

theorem execFreqSwitchDone_ends (ok : Bool) (s : State) :
    Ends [.regs, .evt, .sched, .nv, .evr, .chans, .med, .bench, .xlt, .twin, .cxl, .rdma, .sec, .dram, .out, .fresh] s (execFreqSwitchDone ok s) := by
  unfold execFreqSwitchDone
  refine Ends.ite (fun _ => ?_) (fun _ => ?_)
  · refine Ends.next ?_
    exact Keeps.refl _ _
  · refine Ends.ite (fun _ => ?_) (fun _ => ?_)
    · extract_lets -merge +onlyGivenNames x1
      extract_lets -merge +onlyGivenNames x2
      extract_lets -merge +onlyGivenNames x3
      refine Ends.of_let x3 ?_ (fun h3 => ?_)
      · unfold x3
        refine Keeps.foldl _ (fun _ _ => ?_) ?_
        · refine Keeps.after (State.setReg_keeps _ _ _ _) (by decide) ?_
          exact Keeps.refl _ _
        · exact Keeps.refl _ _
      · extract_lets -merge +onlyGivenNames x4
        extract_lets -merge +onlyGivenNames x5
        refine Ends.of_let x5 ?_ (fun h5 => ?_)
        · unfold x5
          refine Keeps.after (State.setDram_keeps _ _) (by decide) ?_
          exact h3
        · refine Ends.next ?_
          refine Keeps.after (State.settleMed_keeps _) (by decide) ?_
          refine Keeps.after (State.cause_keeps _ _ _ _ _) (by decide) ?_
          exact h5
    · extract_lets -merge +onlyGivenNames x1
      extract_lets -merge +onlyGivenNames x2
      refine Ends.of_let x2 ?_ (fun h2 => ?_)
      · unfold x2
        refine Keeps.after (State.setDram_keeps _ _) (by decide) ?_
        exact Keeps.refl _ _
      · refine Ends.next ?_
        refine Keeps.after (State.settleMed_keeps _) (by decide) ?_
        refine Keeps.after (State.cause_keeps _ _ _ _ _) (by decide) ?_
        refine Keeps.after (State.setBit_keeps _ _ _ _ _) (by decide) ?_
        exact h2

/-! ### Tally -/

theorem State.ptpChoose_keeps (s : State) :
    Keeps [.rdma] s (State.ptpChoose s) := by
  unfold State.ptpChoose
  refine Keeps.set_rdma (by decide) ?_
  exact Keeps.refl _ _

theorem State.ptpLost_keeps (s : State) :
    Keeps [.regs, .evt, .tally, .evr, .chans, .cxl, .out] s (State.ptpLost s) := by
  unfold State.ptpLost
  refine Keeps.after (State.selectSource_keeps _) (by decide) ?_
  refine Keeps.after (State.setTally_keeps _ _) (by decide) ?_
  exact Keeps.refl _ _

theorem State.deadlineRise_keeps (s : State) :
    Keeps [.regs, .evt, .sched, .nv, .evr, .chans, .med, .bench, .xlt, .twin, .cxl, .rdma, .sec, .out, .fresh] s (State.deadlineRise s) := by
  unfold State.deadlineRise
  extract_lets -merge +onlyGivenNames x1
  extract_lets -merge +onlyGivenNames x2
  refine Keeps.of_let x2 ?_ (fun h2 => ?_)
  · unfold x2
    refine Keeps.after (State.judgeDeadline_keeps _) (by decide) ?_
    exact Keeps.refl _ _
  · refine Keeps.ite (fun _ => ?_) (fun _ => ?_)
    · refine Keeps.after (State.settleMed_keeps _) (by decide) ?_
      refine Keeps.after (State.deadlineMark_keeps _) (by decide) ?_
      exact h2
    · exact h2

theorem State.wakeStart_keeps (s : State) :
    Keeps [.regs, .evt, .tally, .evr, .chans, .cxl, .out] s (State.wakeStart s) := by
  unfold State.wakeStart
  refine Keeps.after (State.pulse_keeps _ _) (by decide) ?_
  refine Keeps.after (State.setBit_keeps _ _ _ _ _) (by decide) ?_
  refine Keeps.after (State.setTally_keeps _ _) (by decide) ?_
  exact Keeps.refl _ _

theorem State.fires_keeps {w : List Part} {s : State} {k : Nat} {a : BitVec 4} {act : Column → Slot → State → FireResult × State}
    (hw : [Part.regs, .evt, .tally, .sched, .nv, .evr, .psq, .chans, .med, .xlt, .cxl, .out] ⊆ w) (ha : ∀ c v u, Keeps w u (act c v u).2) :
    Keeps w s (s.fires k a act) := by
  unfold State.fires
  refine Keeps.ite (fun _ => ?_) (fun _ => Keeps.refl _ _)
  refine Keeps.after (State.ageFollow_keeps _ _) (List.Subset.trans (by decide) hw) ?_
  refine Keeps.trans ?_ (State.fireSlot_keeps (List.Subset.trans (by decide) hw) ha)
  refine Keeps.after (State.wakeIdle_keeps _) (List.Subset.trans (by decide) hw) ?_
  exact (State.fireNone_keeps s k).mono (List.Subset.trans (by decide) hw)

theorem State.keepPass_keeps (s : State) (arg : Word) :
    Keeps [.regs, .evt, .sched, .nv, .evr, .wdg, .flash, .psq, .chans, .med, .cxl, .out] s (State.keepPass s arg).2 := by
  unfold State.keepPass
  extract_lets -merge +onlyGivenNames x1
  extract_lets -merge +onlyGivenNames x2
  extract_lets -merge +onlyGivenNames x3
  extract_lets -merge +onlyGivenNames x4
  refine Keeps.of_let x4 ?_ (fun h4 => ?_)
  · unfold x4
    refine Keeps.after (State.burstNext_keeps _) (by decide) ?_
    refine Keeps.foldl _ (fun _ _ => ?_) ?_
    · refine Keeps.ite (fun _ => ?_) (fun _ => ?_)
      · refine Keeps.after (State.setPass_keeps _ _ _) (by decide) ?_
        exact Keeps.refl _ _
      · refine Keeps.after (State.setPass_keeps _ _ _) (by decide) ?_
        exact Keeps.refl _ _
    · exact Keeps.refl _ _
  · dsimp only
    refine Keeps.after (State.judgeTsl_keeps _) (by decide) ?_
    exact h4

theorem State.keepCal_keeps (s : State) (arg : Word) :
    Keeps [.sched, .nv, .wdg, .flash, .psq, .med] s (State.keepCal s arg).2 := by
  unfold State.keepCal
  extract_lets -merge +onlyGivenNames x1
  extract_lets -merge +onlyGivenNames x2
  dsimp only
  refine Keeps.after (State.burstNext_keeps _) (by decide) ?_
  refine Keeps.foldl _ (fun _ _ => ?_) ?_
  · refine Keeps.ite (fun _ => ?_) (fun _ => ?_)
    · exact Keeps.refl _ _
    · refine Keeps.ite (fun _ => ?_) (fun _ => ?_)
      · refine Keeps.foldl _ (fun _ _ => ?_) ?_
        · refine Keeps.after (State.setDie_keeps _ _ _) (by decide) ?_
          exact Keeps.refl _ _
        · exact Keeps.refl _ _
      · refine Keeps.after (State.setPass_keeps _ _ _) (by decide) ?_
        exact Keeps.refl _ _
  · exact Keeps.refl _ _

theorem State.keepRungs_keeps (s : State) (arg : Word) :
    Keeps [.sched, .nv, .wdg, .flash, .psq, .med] s (State.keepRungs s arg) := by
  unfold State.keepRungs
  refine Keeps.after (State.burstNext_keeps _) (by decide) ?_
  refine Keeps.foldl _ (fun _ _ => ?_) ?_
  · refine Keeps.after (State.setPass_keeps _ _ _) (by decide) ?_
    exact Keeps.refl _ _
  · exact Keeps.refl _ _

theorem State.keepScrub_keeps (s : State) :
    Keeps [.dram, .out] s (State.keepScrub s).2 := by
  unfold State.keepScrub
  extract_lets -merge +onlyGivenNames x1
  refine Keeps.ite_snd (fun _ => ?_) (fun _ => ?_)
  · dsimp only
    exact Keeps.refl _ _
  · dsimp only
    refine Keeps.after (State.emit_keeps _ _) (by decide) ?_
    refine Keeps.after (State.setDram_keeps _ _) (by decide) ?_
    exact Keeps.refl _ _

theorem State.benchDataBad_keeps (s : State) (x : Nat) :
    Keeps [.regs, .evt, .evr, .chans, .med, .bench, .xlt, .twin, .cxl, .rdma, .sec, .out] s (State.benchDataBad s x) := by
  unfold State.benchDataBad
  extract_lets -merge +onlyGivenNames x1
  extract_lets -merge +onlyGivenNames x2
  refine Keeps.ite (fun _ => ?_) (fun _ => ?_)
  · exact Keeps.refl _ _
  · extract_lets -merge +onlyGivenNames x3
    extract_lets -merge +onlyGivenNames x4
    extract_lets -merge +onlyGivenNames x5
    refine Keeps.of_let x5 ?_ (fun h5 => ?_)
    · unfold x5
      refine Keeps.after (State.setBench_keeps _ _) (by decide) ?_
      exact Keeps.refl _ _
    · extract_lets -merge +onlyGivenNames x6
      refine Keeps.of_let x6 ?_ (fun h6 => ?_)
      · unfold x6
        refine Keeps.after (State.dropLine_keeps _ _) (by decide) ?_
        exact h5
      · refine Keeps.ite (fun _ => ?_) (fun _ => ?_)
        · exact h6
        · refine Keeps.ite (fun _ => ?_) (fun _ => ?_)
          · refine Keeps.after (State.assistAsk_keeps _ _ _ _ _) (by decide) ?_
            exact h6
          · refine Keeps.after (State.answerReads_keeps _ _ _) (by decide) ?_
            refine Keeps.after (State.loseHere_keeps _ _) (by decide) ?_
            exact h6

theorem State.journalBad_keeps (s : State) (n : Nat) :
    Keeps [.med, .xlt] s (State.journalBad s n) := by
  unfold State.journalBad
  extract_lets -merge +onlyGivenNames x1
  split
  · extract_lets -merge +onlyGivenNames x2
    extract_lets -merge +onlyGivenNames x3
    refine Keeps.of_let x3 ?_ (fun h3 => ?_)
    · unfold x3
      refine Keeps.after (State.setSett_keeps _ _ _) (by decide) ?_
      refine Keeps.after (State.setXlt_keeps _ _) (by decide) ?_
      exact Keeps.refl _ _
    · refine Keeps.after (State.setMed_keeps _ _) (by decide) ?_
      exact h3
  · exact Keeps.refl _ _

theorem State.keyBad_keeps (s : State) (r : Nat) :
    Keeps [.regs, .evt, .evr, .chans, .med, .bench, .xlt, .cxl, .sec, .out] s (State.keyBad s r) := by
  unfold State.keyBad
  extract_lets -merge +onlyGivenNames x1
  refine Keeps.ite (fun _ => ?_) (fun _ => ?_)
  · exact Keeps.refl _ _
  · extract_lets -merge +onlyGivenNames x2
    extract_lets -merge +onlyGivenNames x3
    refine Keeps.of_let x3 ?_ (fun h3 => ?_)
    · unfold x3
      refine Keeps.foldl _ (fun _ _ => ?_) ?_
      · refine Keeps.ite (fun _ => ?_) (fun _ => ?_)
        · refine Keeps.after (State.lose_keeps _ _ _ _) (by decide) ?_
          exact Keeps.refl _ _
        · exact Keeps.refl _ _
      · exact Keeps.refl _ _
    · extract_lets -merge +onlyGivenNames x4
      refine Keeps.of_let x4 ?_ (fun h4 => ?_)
      · unfold x4
        refine Keeps.foldl _ (fun _ _ => ?_) ?_
        · refine Keeps.after (State.dropLine_keeps _ _) (by decide) ?_
          exact Keeps.refl _ _
        · exact h3
      · refine Keeps.after (State.cause_keeps _ _ _ _ _) (by decide) ?_
        refine Keeps.set_sec (by decide) rfl ?_
        exact h4

theorem State.sramBad_keeps (s : State) (m : Fin 9) (x : Nat) (both : Bool) (held : List DramArray) :
    Keeps [.regs, .csr, .evt, .ecc, .tally, .sched, .nv, .evr, .wdg, .flash, .psq, .chans, .med, .bench, .xlt, .twin, .cxl, .rdma, .sec, .dram, .out, .fresh] s (State.sramBad s m x both held) := by
  unfold State.sramBad
  split
  · refine Keeps.after (State.benchDataBad_keeps _ _) (by decide) ?_
    refine Keeps.set_ecc (by decide) ?_
    exact Keeps.refl _ _
  · exact Keeps.refl _ _
  · refine Keeps.after (State.setXlt_keeps _ _) (by decide) ?_
    exact Keeps.refl _ _
  · refine Keeps.foldl _ (fun _ _ => ?_) ?_
    · refine Keeps.after (State.dramLost_keeps _ _) (by decide) ?_
      exact Keeps.refl _ _
    · refine Keeps.after (State.pagesGone_keeps _ _) (by decide) ?_
      exact Keeps.refl _ _
  · refine Keeps.ite (fun _ => ?_) (fun _ => ?_)
    · refine Keeps.after (State.qpError_keeps _ _ _ _) (by decide) ?_
      exact Keeps.refl _ _
    · exact Keeps.refl _ _
  · refine Keeps.after (State.coreRestart_keeps _ _) (by decide) ?_
    exact Keeps.refl _ _
  · refine Keeps.ite (fun _ => ?_) (fun _ => ?_)
    · refine Keeps.after (State.journalBad_keeps _ _) (by decide) ?_
      refine Keeps.set_ecc (by decide) ?_
      exact Keeps.refl _ _
    · exact Keeps.refl _ _
  · refine Keeps.ite (fun _ => ?_) (fun _ => ?_)
    · refine Keeps.after (State.benchDataBad_keeps _ _) (by decide) ?_
      refine Keeps.set_ecc (by decide) ?_
      exact Keeps.refl _ _
    · exact Keeps.refl _ _
  · refine Keeps.ite (fun _ => ?_) (fun _ => ?_)
    · refine Keeps.after (State.keyBad_keeps _ _) (by decide) ?_
      exact Keeps.refl _ _
    · exact Keeps.refl _ _

theorem execPtpSync_ends (m : Fin 32) (offset : ℤ) (t : Dword) (s : State) :
    Ends [.regs, .evt, .tally, .sched, .nv, .evr, .chans, .med, .xlt, .cxl, .rdma, .out] s (execPtpSync m offset t s) := by
  unfold execPtpSync
  refine Ends.ite (fun _ => ?_) (fun _ => ?_)
  · refine Ends.next ?_
    exact Keeps.refl _ _
  · extract_lets -merge +onlyGivenNames x1
    extract_lets -merge +onlyGivenNames x2
    extract_lets -merge +onlyGivenNames x3
    extract_lets -merge +onlyGivenNames x4
    refine Ends.of_let x4 ?_ (fun h4 => ?_)
    · unfold x4
      refine Keeps.after (State.setTally_keeps _ _) (by decide) ?_
      refine Keeps.set_rdma (by decide) ?_
      exact Keeps.refl _ _
    · extract_lets -merge +onlyGivenNames x5
      refine Ends.of_let x5 ?_ (fun h5 => ?_)
      · unfold x5
        refine Keeps.after (State.selectSource_keeps _) (by decide) ?_
        exact h4
      · refine Ends.next ?_
        refine Keeps.after (State.ageFollow_keeps _ _) (by decide) ?_
        refine Keeps.ite (fun _ => ?_) (fun _ => ?_)
        · refine Keeps.after (State.offerTime_keeps _ _ _ _) (by decide) ?_
          exact h5
        · exact h5

theorem execPtpAnnounce_ends (m : Fin 32) (rank : Nat) (s : State) :
    Ends [.rdma] s (execPtpAnnounce m rank s) := by
  unfold execPtpAnnounce
  refine Ends.next ?_
  refine Keeps.ite (fun _ => ?_) (fun _ => ?_)
  · refine Keeps.after (State.ptpChoose_keeps _) (by decide) ?_
    refine Keeps.after (State.setMac_keeps _ _ _) (by decide) ?_
    exact Keeps.refl _ _
  · exact Keeps.refl _ _

theorem execPtpAnnounceTimeout_ends (m : Fin 32) (s : State) :
    Ends [.regs, .evt, .tally, .evr, .chans, .cxl, .rdma, .out] s (execPtpAnnounceTimeout m s) := by
  unfold execPtpAnnounceTimeout
  extract_lets -merge +onlyGivenNames x1
  extract_lets -merge +onlyGivenNames x2
  refine Ends.of_let x2 ?_ (fun h2 => ?_)
  · unfold x2
    refine Keeps.after (State.ptpChoose_keeps _) (by decide) ?_
    refine Keeps.after (State.setMac_keeps _ _ _) (by decide) ?_
    exact Keeps.refl _ _
  · refine Ends.next ?_
    refine Keeps.ite (fun _ => ?_) (fun _ => ?_)
    · refine Keeps.after (State.ptpLost_keeps _) (by decide) ?_
      exact h2
    · exact h2

theorem execPtpDelayReqTimer_ends (m : Fin 32) (s : State) :
    Ends [.rdma, .out] s (execPtpDelayReqTimer m s) := by
  unfold execPtpDelayReqTimer
  refine Ends.next ?_
  refine Keeps.ite (fun _ => ?_) (fun _ => ?_)
  · refine Keeps.after (State.emit_keeps _ _) (by decide) ?_
    refine Keeps.after (State.setMac_keeps _ _ _) (by decide) ?_
    exact Keeps.refl _ _
  · exact Keeps.refl _ _

theorem execPtpDelayResp_ends (m : Fin 32) (delay : Nat) (s : State) :
    Ends [.rdma] s (execPtpDelayResp m delay s) := by
  unfold execPtpDelayResp
  refine Ends.next ?_
  refine Keeps.ite (fun _ => ?_) (fun _ => ?_)
  · refine Keeps.after (State.setMac_keeps _ _ _) (by decide) ?_
    exact Keeps.refl _ _
  · exact Keeps.refl _ _

theorem execTwinSyncTimeout_ends (s : State) :
    Ends [.regs, .evt, .tally, .evr, .chans, .cxl, .out] s (execTwinSyncTimeout s) := by
  unfold execTwinSyncTimeout
  refine Ends.next ?_
  refine Keeps.after (State.selectSource_keeps _) (by decide) ?_
  refine Keeps.after (State.setTally_keeps _ _) (by decide) ?_
  exact Keeps.refl _ _

theorem execSignedTimeExpiry_ends (s : State) :
    Ends [.regs, .evt, .tally, .evr, .chans, .cxl, .out] s (execSignedTimeExpiry s) := by
  unfold execSignedTimeExpiry
  refine Ends.next ?_
  refine Keeps.after (State.selectSource_keeps _) (by decide) ?_
  refine Keeps.after (State.setTally_keeps _ _) (by decide) ?_
  exact Keeps.refl _ _

theorem State.ppsLost_keeps (s : State) :
    Keeps [.regs, .evt, .tally, .evr, .chans, .cxl, .out] s (State.ppsLost s) := by
  unfold State.ppsLost
  extract_lets -merge +onlyGivenNames x1
  extract_lets -merge +onlyGivenNames x2
  refine Keeps.of_let x2 ?_ (fun h2 => ?_)
  · unfold x2
    refine Keeps.after (State.setTally_keeps _ _) (by decide) ?_
    exact Keeps.refl _ _
  · refine Keeps.ite (fun _ => ?_) (fun _ => ?_)
    · refine Keeps.after (State.selectSource_keeps _) (by decide) ?_
      refine Keeps.after (State.pulse_keeps _ _) (by decide) ?_
      exact h2
    · exact h2

theorem execPpsLoss_ends (s : State) :
    Ends [.regs, .evt, .tally, .evr, .chans, .cxl, .out] s (execPpsLoss s) := by
  unfold execPpsLoss
  refine Ends.next ?_
  refine Keeps.after (State.ppsLost_keeps _) (by decide) ?_
  exact Keeps.refl _ _

theorem execPpsInEdge_ends (good : Bool) (s : State) :
    Ends [.regs, .evt, .tally, .evr, .chans, .cxl, .out] s (execPpsInEdge good s) := by
  unfold execPpsInEdge
  refine Ends.ite (fun _ => ?_) (fun _ => ?_)
  · refine Ends.next ?_
    exact Keeps.refl _ _
  · refine Ends.ite (fun _ => ?_) (fun _ => ?_)
    · refine Ends.next ?_
      refine Keeps.after (State.ppsLost_keeps _) (by decide) ?_
      exact Keeps.refl _ _
    · extract_lets -merge +onlyGivenNames x1
      refine Ends.next ?_
      refine Keeps.after (State.selectSource_keeps _) (by decide) ?_
      refine Keeps.after (State.setTally_keeps _ _) (by decide) ?_
      exact Keeps.refl _ _

theorem execCatchupEnd_ends (s : State) :
    Ends [.tally] s (execCatchupEnd s) := by
  unfold execCatchupEnd
  refine Ends.next ?_
  refine Keeps.after (State.setTally_keeps _ _) (by decide) ?_
  exact Keeps.refl _ _

theorem execEpochBoundary_ends (s : State) :
    Ends [.regs, .evt, .tally, .sched, .nv, .evr, .chans, .med, .bench, .xlt, .twin, .cxl, .rdma, .sec, .out, .fresh] s (execEpochBoundary s) := by
  unfold execEpochBoundary
  refine Ends.ite (fun _ => ?_) (fun _ => ?_)
  · refine Ends.next ?_
    exact Keeps.refl _ _
  · extract_lets -merge +onlyGivenNames x1
    refine Ends.of_let x1 ?_ (fun h1 => ?_)
    · unfold x1
      refine Keeps.after (State.writeFloor_keeps _ _) (by decide) ?_
      exact Keeps.refl _ _
    · extract_lets -merge +onlyGivenNames x2
      refine Ends.of_let x2 ?_ (fun h2 => ?_)
      · unfold x2
        refine Keeps.foldl _ (fun _ _ => ?_) ?_
        · refine Keeps.ite (fun _ => ?_) (fun _ => ?_)
          · refine Keeps.after (State.stampPowered_keeps _ _) (by decide) ?_
            exact Keeps.refl _ _
          · exact Keeps.refl _ _
        · exact h1
      · refine Ends.next ?_
        refine Keeps.ite (fun _ => ?_) (fun _ => ?_)
        · refine Keeps.after (State.deadlineRise_keeps _) (by decide) ?_
          refine Keeps.after (State.writeDeadline_keeps _) (by decide) ?_
          exact h2
        · exact h2

theorem execBelowFloorHoldoffExpiry_ends (x : Fin 3) (s : State) :
    Ends [.regs, .evt, .tally, .evr, .chans, .cxl, .out] s (execBelowFloorHoldoffExpiry x s) := by
  unfold execBelowFloorHoldoffExpiry
  extract_lets -merge +onlyGivenNames x1
  refine Ends.next ?_
  refine Keeps.after (State.selectSource_keeps _) (by decide) ?_
  refine Keeps.after (State.setTally_keeps _ _) (by decide) ?_
  exact Keeps.refl _ _

theorem execNoSource_ends (s : State) :
    Ends [.regs, .evt, .tally, .nv, .evr, .chans, .med, .xlt, .cxl, .out] s (execNoSource s) := by
  unfold execNoSource
  refine Ends.ite (fun _ => ?_) (fun _ => ?_)
  · refine Ends.next ?_
    exact Keeps.refl _ _
  · extract_lets -merge +onlyGivenNames x1
    extract_lets -merge +onlyGivenNames x2
    refine Ends.of_let x2 ?_ (fun h2 => ?_)
    · unfold x2
      refine Keeps.after (State.selectSource_keeps _) (by decide) ?_
      refine Keeps.after (State.pulse_keeps _ _) (by decide) ?_
      refine Keeps.after (State.setTally_keeps _ _) (by decide) ?_
      exact Keeps.refl _ _
    · extract_lets -merge +onlyGivenNames x3
      refine Ends.of_let x3 ?_ (fun h3 => ?_)
      · unfold x3
        refine Keeps.foldl _ (fun _ _ => ?_) ?_
        · refine Keeps.ite (fun _ => ?_) (fun _ => ?_)
          · refine Keeps.after (State.startSweep_keeps _ _) (by decide) ?_
            refine Keeps.after (State.toSentinel_keeps _ _ _) (by decide) ?_
            exact Keeps.refl _ _
          · exact Keeps.refl _ _
        · exact h2
      · refine Ends.next ?_
        refine Keeps.after (State.judgeEyb_keeps _) (by decide) ?_
        exact h3

theorem execWakeDeadlineReached_ends (s : State) :
    Ends [.regs, .evt, .sched, .nv, .evr, .chans, .med, .bench, .xlt, .twin, .cxl, .rdma, .sec, .out, .fresh] s (execWakeDeadlineReached s) := by
  unfold execWakeDeadlineReached
  refine Ends.next ?_
  refine Keeps.ite (fun _ => ?_) (fun _ => ?_)
  · refine Keeps.after (State.deadlineRise_keeps _) (by decide) ?_
    exact Keeps.refl _ _
  · exact Keeps.refl _ _

theorem execWakeHandshakeStart_ends (s : State) :
    Ends [.regs, .evt, .tally, .evr, .chans, .cxl, .out] s (execWakeHandshakeStart s) := by
  unfold execWakeHandshakeStart
  refine Ends.next ?_
  refine Keeps.ite (fun _ => ?_) (fun _ => ?_)
  · refine Keeps.after (State.wakeStart_keeps _) (by decide) ?_
    exact Keeps.refl _ _
  · exact Keeps.refl _ _

theorem execWakeGrant_ends (s : State) :
    Ends [.regs, .evt, .tally, .evr, .wdg, .flash, .psq, .chans, .med, .bench, .cxl, .dram, .out] s (execWakeGrant s) := by
  unfold execWakeGrant
  refine Ends.next ?_
  refine Keeps.ite (fun _ => ?_) (fun _ => ?_)
  · refine Keeps.after (State.onRequest_keeps _) (by decide) ?_
    refine Keeps.after (State.wakeWithdraw_keeps _) (by decide) ?_
    refine Keeps.after (State.pulse_keeps _ _) (by decide) ?_
    exact Keeps.refl _ _
  · exact Keeps.refl _ _

theorem execWakeForceAtDeadline_ends (s : State) :
    Ends [.regs, .evt, .tally, .evr, .wdg, .flash, .psq, .chans, .med, .bench, .cxl, .dram, .out] s (execWakeForceAtDeadline s) := by
  unfold execWakeForceAtDeadline
  extract_lets -merge +onlyGivenNames x1
  refine Ends.next ?_
  refine Keeps.ite (fun _ => ?_) (fun _ => ?_)
  · refine Keeps.after (State.onRequest_keeps _) (by decide) ?_
    refine Keeps.after (State.wakeWithdraw_keeps _) (by decide) ?_
    exact Keeps.refl _ _
  · exact Keeps.refl _ _

theorem execTeaselPass_ends (k : Fin 256) (s : State) :
    Ends [.regs, .evt, .tally, .sched, .nv, .evr, .wdg, .flash, .psq, .chans, .med, .bench, .xlt, .twin, .cxl, .sec, .out, .fresh] s (execTeaselPass k s) := by
  unfold execTeaselPass
  refine Ends.next ?_
  refine Keeps.trans ?_ (State.fires_keeps (by decide) (fun _ _ _ => ?_))
  · exact Keeps.refl _ _
  · split
    · refine Keeps.after (State.slotPass_keeps _ _) (by decide) ?_
      exact Keeps.refl _ _
    · refine Keeps.after (State.keepPass_keeps _ _) (by decide) ?_
      exact Keeps.refl _ _
    · dsimp only
      exact Keeps.refl _ _

theorem execEyebrightCal_ends (k : Fin 256) (s : State) :
    Ends [.regs, .evt, .tally, .sched, .nv, .evr, .wdg, .flash, .psq, .chans, .med, .xlt, .cxl, .out] s (execEyebrightCal k s) := by
  unfold execEyebrightCal
  refine Ends.next ?_
  refine Keeps.trans ?_ (State.fires_keeps (by decide) (fun _ _ _ => ?_))
  · exact Keeps.refl _ _
  · split
    · refine Keeps.ite_snd (fun _ => ?_) (fun _ => ?_)
      · refine Keeps.after (State.slotCal_keeps _ _) (by decide) ?_
        exact Keeps.refl _ _
      · dsimp only
        exact Keeps.refl _ _
    · refine Keeps.after (State.keepCal_keeps _ _) (by decide) ?_
      exact Keeps.refl _ _
    · dsimp only
      exact Keeps.refl _ _

theorem execNvFloorWrite_ends (k : Fin 256) (s : State) :
    Ends [.regs, .evt, .tally, .sched, .nv, .evr, .psq, .chans, .med, .xlt, .cxl, .out] s (execNvFloorWrite k s) := by
  unfold execNvFloorWrite
  refine Ends.next ?_
  refine Keeps.trans ?_ (State.fires_keeps (by decide) (fun _ _ _ => ?_))
  · exact Keeps.refl _ _
  · dsimp only
    refine Keeps.after (State.writeFloor_keeps _ _) (by decide) ?_
    exact Keeps.refl _ _

theorem execWakeReq_ends (k : Fin 256) (s : State) :
    Ends [.regs, .evt, .tally, .sched, .nv, .evr, .psq, .chans, .med, .xlt, .cxl, .out] s (execWakeReq k s) := by
  unfold execWakeReq
  refine Ends.next ?_
  refine Keeps.trans ?_ (State.fires_keeps (by decide) (fun _ _ _ => ?_))
  · exact Keeps.refl _ _
  · split
    · dsimp only
      exact Keeps.refl _ _
    · refine Keeps.ite_snd (fun _ => ?_) (fun _ => ?_)
      · dsimp only
        exact Keeps.refl _ _
      · dsimp only
        refine Keeps.after (State.wakeStart_keeps _) (by decide) ?_
        exact Keeps.refl _ _

theorem execSlotKeepEnter_ends (k : Fin 256) (s : State) :
    Ends [.regs, .csr, .evt, .ecc, .tally, .sched, .nv, .evr, .wdg, .flash, .psq, .chans, .med, .bench, .xlt, .twin, .cxl, .rdma, .sec, .dram, .out, .fresh] s (execSlotKeepEnter k s) := by
  unfold execSlotKeepEnter
  refine Ends.next ?_
  refine Keeps.trans ?_ (State.fires_keeps (by decide) (fun _ _ _ => ?_))
  · exact Keeps.refl _ _
  · dsimp only
    refine Keeps.ite (fun _ => ?_) (fun _ => ?_)
    · refine Keeps.after (State.keepEnter_keeps _) (by decide) ?_
      exact Keeps.refl _ _
    · exact Keeps.refl _ _

theorem execSlotKeepLeave_ends (k : Fin 256) (s : State) :
    Ends [.regs, .evt, .tally, .sched, .nv, .evr, .wdg, .flash, .psq, .chans, .med, .bench, .xlt, .cxl, .dram, .out] s (execSlotKeepLeave k s) := by
  unfold execSlotKeepLeave
  refine Ends.next ?_
  refine Keeps.trans ?_ (State.fires_keeps (by decide) (fun _ _ _ => ?_))
  · exact Keeps.refl _ _
  · dsimp only
    refine Keeps.ite (fun _ => ?_) (fun _ => ?_)
    · refine Keeps.after (State.keepLeaveRequest_keeps _) (by decide) ?_
      exact Keeps.refl _ _
    · exact Keeps.refl _ _

theorem execDramScrub_ends (k : Fin 256) (s : State) :
    Ends [.regs, .evt, .tally, .sched, .nv, .evr, .psq, .chans, .med, .xlt, .cxl, .dram, .out] s (execDramScrub k s) := by
  unfold execDramScrub
  refine Ends.next ?_
  refine Keeps.trans ?_ (State.fires_keeps (by decide) (fun _ _ _ => ?_))
  · exact Keeps.refl _ _
  · split
    · refine Keeps.after (State.slotScrub_keeps _) (by decide) ?_
      exact Keeps.refl _ _
    · refine Keeps.after (State.keepScrub_keeps _) (by decide) ?_
      exact Keeps.refl _ _
    · dsimp only
      exact Keeps.refl _ _

theorem execRaiseEvent_ends (k : Fin 256) (s : State) :
    Ends [.regs, .evt, .tally, .sched, .nv, .evr, .psq, .chans, .med, .xlt, .cxl, .out] s (execRaiseEvent k s) := by
  unfold execRaiseEvent
  refine Ends.next ?_
  refine Keeps.trans ?_ (State.fires_keeps (by decide) (fun _ _ _ => ?_))
  · exact Keeps.refl _ _
  · extract_lets -merge +onlyGivenNames x1
    dsimp only
    refine Keeps.after (evtRun_keeps _ _ _) (by decide) ?_
    refine Keeps.after (State.pulse_keeps _ _) (by decide) ?_
    exact Keeps.refl _ _

theorem execSentinelRewrite_ends (k : Fin 256) (s : State) :
    Ends [.regs, .evt, .tally, .sched, .nv, .evr, .wdg, .flash, .psq, .chans, .med, .xlt, .cxl, .out] s (execSentinelRewrite k s) := by
  unfold execSentinelRewrite
  refine Ends.next ?_
  refine Keeps.trans ?_ (State.fires_keeps (by decide) (fun _ _ _ => ?_))
  · exact Keeps.refl _ _
  · split
    · dsimp only
      refine Keeps.after (State.slotSentinel_keeps _ _) (by decide) ?_
      exact Keeps.refl _ _
    · dsimp only
      refine Keeps.after (State.keepRungs_keeps _ _) (by decide) ?_
      exact Keeps.refl _ _
    · dsimp only
      exact Keeps.refl _ _

theorem execSramScrubVisit_ends (m : Fin 9) (err : Fin 3) (x : Nat) (both : Bool) (held : List DramArray) (last : Bool) (s : State) :
    Ends [.regs, .csr, .evt, .ecc, .tally, .sched, .nv, .evr, .wdg, .flash, .psq, .chans, .med, .bench, .xlt, .twin, .cxl, .rdma, .sec, .dram, .out, .fresh] s (execSramScrubVisit m err x both held last s) := by
  unfold execSramScrubVisit
  refine Ends.ite (fun _ => ?_) (fun _ => ?_)
  · refine Ends.next ?_
    exact Keeps.refl _ _
  · extract_lets -merge +onlyGivenNames x1
    extract_lets -merge +onlyGivenNames x2
    extract_lets -merge +onlyGivenNames x3
    refine Ends.of_let x3 ?_ (fun h3 => ?_)
    · unfold x3
      refine Keeps.ite (fun _ => ?_) (fun _ => ?_)
      · refine Keeps.set_ecc (by decide) ?_
        exact Keeps.refl _ _
      · exact Keeps.refl _ _
    · extract_lets -merge +onlyGivenNames x4
      extract_lets -merge +onlyGivenNames x5
      refine Ends.of_let x5 ?_ (fun h5 => ?_)
      · unfold x5
        split
        · exact h3
        · refine Keeps.ite (fun _ => ?_) (fun _ => ?_)
          · unfold x4
            refine Keeps.ite (fun _ => ?_) (fun _ => ?_)
            · refine Keeps.after (State.pulse_keeps _ _) (by decide) ?_
              refine Keeps.after (State.bump_keeps _ _ _ _ _ _) (by decide) ?_
              exact h3
            · refine Keeps.after (State.bump_keeps _ _ _ _ _ _) (by decide) ?_
              exact h3
          · refine Keeps.after (State.cause_keeps _ _ _ _ _) (by decide) ?_
            exact h3
        · refine Keeps.after (State.sramBad_keeps _ _ _ _ _) (by decide) ?_
          unfold x4
          refine Keeps.ite (fun _ => ?_) (fun _ => ?_)
          · refine Keeps.after (State.pulse_keeps _ _) (by decide) ?_
            exact h3
          · exact h3
      · extract_lets -merge +onlyGivenNames x6
        refine Ends.of_let x6 ?_ (fun h6 => ?_)
        · unfold x6
          refine Keeps.ite (fun _ => ?_) (fun _ => ?_)
          · refine Keeps.after (State.pulse_keeps _ _) (by decide) ?_
            exact h5
          · exact h5
        · refine Ends.next ?_
          refine Keeps.after (State.settleMed_keeps _) (by decide) ?_
          exact h6

end Sys2Proof.Machine
end

