-- ==== Sys2Proof/Laws/Frame6.lean ====
section
/-! SUPPORT. What each operation and command of Qmi, Flash, Bench, Csr, AzOps, AzChan, AzRegion, AzObject, AzKeys can change: every other part of the state stays. -/

namespace Sys2Proof.Machine

/-! ### Qmi -/

theorem execQmiFrameResponse_ends (n : Fin 144) (seq : BitVec 8) (tag : BitVec 10) (f : BitVec 2400) (s : State) :
    Ends [.regs, .evt, .sched, .nv, .evr, .psq, .chans, .med, .bench, .xlt, .twin, .cxl, .rdma, .sec, .out, .fresh] s (execQmiFrameResponse n seq tag f s) := by
  unfold execQmiFrameResponse
  refine Ends.next ?_
  refine Keeps.trans ?_ (State.answered_keeps (by decide) (fun _ _ => ?_))
  · exact Keeps.refl _ _
  · refine Keeps.after (State.frameOut_keeps _ _ _ _) (by decide) ?_
    exact Keeps.refl _ _

theorem execQmiSoftResponse_ends (n : Fin 144) (seq : BitVec 8) (tag : BitVec 10) (ref : BitVec 2400) (plus : BitVec 2400) (minus : BitVec 2400) (s : State) :
    Ends [.regs, .evt, .sched, .nv, .evr, .psq, .chans, .med, .bench, .xlt, .twin, .cxl, .rdma, .sec, .out, .fresh] s (execQmiSoftResponse n seq tag ref plus minus s) := by
  unfold execQmiSoftResponse
  refine Ends.next ?_
  refine Keeps.trans ?_ (State.answered_keeps (by decide) (fun _ _ => ?_))
  · exact Keeps.refl _ _
  · refine Keeps.after (State.softOut_keeps _ _ _ _) (by decide) ?_
    exact Keeps.refl _ _

theorem execQmiInfoResponse_ends (n : Fin 144) (seq : BitVec 8) (tag : BitVec 10) (i : InfoData) (s : State) :
    Ends [.regs, .evt, .sched, .nv, .evr, .psq, .chans, .med, .bench, .xlt, .twin, .cxl, .rdma, .sec, .out, .fresh] s (execQmiInfoResponse n seq tag i s) := by
  unfold execQmiInfoResponse
  refine Ends.next ?_
  refine Keeps.trans ?_ (State.answered_keeps (by decide) (fun _ _ => ?_))
  · exact Keeps.refl _ _
  · split
    · extract_lets -merge +onlyGivenNames x1
      refine Keeps.ite (fun _ => ?_) (fun _ => ?_)
      · refine Keeps.after (State.failDie_keeps _ _) (by decide) ?_
        exact Keeps.refl _ _
      · refine Keeps.ite (fun _ => ?_) (fun _ => ?_)
        · exact Keeps.refl _ _
        · refine Keeps.after (State.dieIdentified_keeps _ _ _) (by decide) ?_
          exact Keeps.refl _ _
    · refine Keeps.after (State.takeLog_keeps _ _ _ _) (by decide) ?_
      exact Keeps.refl _ _
    · exact Keeps.refl _ _

theorem execQmiErrorResponse_ends (n : Fin 144) (seq : BitVec 8) (tag : BitVec 10) (st : DieStatus) (s : State) :
    Ends [.regs, .evt, .sched, .nv, .evr, .psq, .chans, .med, .bench, .xlt, .twin, .cxl, .rdma, .sec, .out, .fresh] s (execQmiErrorResponse n seq tag st s) := by
  unfold execQmiErrorResponse
  refine Ends.next ?_
  refine Keeps.trans ?_ (State.answered_keeps (by decide) (fun _ _ => ?_))
  · exact Keeps.refl _ _
  · refine Keeps.after (State.errorFor_keeps _ _ _ _) (by decide) ?_
    exact Keeps.refl _ _

theorem execQmiSetRefDone_ends (n : Fin 144) (seq : BitVec 8) (tag : BitVec 10) (st : DieStatus) (s : State) :
    Ends [.regs, .evt, .sched, .nv, .evr, .psq, .chans, .med, .bench, .xlt, .twin, .cxl, .rdma, .sec, .out, .fresh] s (execQmiSetRefDone n seq tag st s) := by
  unfold execQmiSetRefDone
  refine Ends.next ?_
  refine Keeps.trans ?_ (State.answered_keeps (by decide) (fun _ _ => ?_))
  · exact Keeps.refl _ _
  · refine Keeps.after (State.doneFor_keeps _ _ _ _) (by decide) ?_
    exact Keeps.refl _ _

theorem execQmiDieResetDone_ends (n : Fin 144) (seq : BitVec 8) (tag : BitVec 10) (s : State) :
    Ends [.regs, .evt, .sched, .nv, .evr, .psq, .chans, .med, .bench, .xlt, .twin, .cxl, .rdma, .sec, .out, .fresh] s (execQmiDieResetDone n seq tag s) := by
  unfold execQmiDieResetDone
  refine Ends.next ?_
  refine Keeps.trans ?_ (State.answered_keeps (by decide) (fun _ _ => ?_))
  · exact Keeps.refl _ _
  · refine Keeps.after (State.doneFor_keeps _ _ _ _) (by decide) ?_
    exact Keeps.refl _ _

theorem execProgramDone_ends (n : Fin 144) (seq : BitVec 8) (tag : BitVec 10) (i : DoneInfo) (s : State) :
    Ends [.regs, .evt, .sched, .nv, .evr, .psq, .chans, .med, .bench, .xlt, .twin, .cxl, .rdma, .sec, .out, .fresh] s (execProgramDone n seq tag i s) := by
  unfold execProgramDone
  refine Ends.next ?_
  refine Keeps.trans ?_ (State.answered_keeps (by decide) (fun _ _ => ?_))
  · exact Keeps.refl _ _
  · refine Keeps.after (State.doneFor_keeps _ _ _ _) (by decide) ?_
    exact Keeps.refl _ _

theorem replayOf_keeps (s : State) (n : Nat) :
    Keeps [.regs, .evt, .sched, .nv, .evr, .psq, .chans, .med, .bench, .xlt, .twin, .cxl, .rdma, .sec, .out, .fresh] s (replayOf s n) := by
  unfold replayOf
  split
  · refine Keeps.after (State.enterRecovery_keeps _ _ _ _) (by decide) ?_
    refine Keeps.after (State.setQc_keeps _ _ _) (by decide) ?_
    refine Keeps.of_fst (by assumption) ?_
    refine Keeps.after (State.startReplay_keeps _ _) (by decide) ?_
    exact Keeps.refl _ _
  · refine Keeps.of_fst (by assumption) ?_
    refine Keeps.after (State.startReplay_keeps _ _) (by decide) ?_
    exact Keeps.refl _ _

theorem execQmiAckReceived_ends (n : Fin 144) (seq : BitVec 8) (s : State) :
    Ends [.med, .out] s (execQmiAckReceived n seq s) := by
  unfold execQmiAckReceived
  refine Ends.next ?_
  refine Keeps.ite (fun _ => ?_) (fun _ => ?_)
  · refine Keeps.after (State.pump_keeps _ _) (by decide) ?_
    refine Keeps.after (State.acked_keeps _ _ _) (by decide) ?_
    exact Keeps.refl _ _
  · exact Keeps.refl _ _

theorem execQmiNakReceived_ends (n : Fin 144) (seq : BitVec 8) (s : State) :
    Ends [.regs, .evt, .sched, .nv, .evr, .psq, .chans, .med, .bench, .xlt, .twin, .cxl, .rdma, .sec, .out, .fresh] s (execQmiNakReceived n seq s) := by
  unfold execQmiNakReceived
  refine Ends.next ?_
  refine Keeps.ite (fun _ => ?_) (fun _ => ?_)
  · refine Keeps.after (replayOf_keeps _ _) (by decide) ?_
    refine Keeps.after (State.acked_keeps _ _ _) (by decide) ?_
    exact Keeps.refl _ _
  · exact Keeps.refl _ _

theorem execQmiReplayTimeout_ends (n : Fin 144) (s : State) :
    Ends [.regs, .evt, .sched, .nv, .evr, .psq, .chans, .med, .bench, .xlt, .twin, .cxl, .rdma, .sec, .out, .fresh] s (execQmiReplayTimeout n s) := by
  unfold execQmiReplayTimeout
  refine Ends.next ?_
  refine Keeps.ite (fun _ => ?_) (fun _ => ?_)
  · refine Keeps.after (replayOf_keeps _ _) (by decide) ?_
    exact Keeps.refl _ _
  · exact Keeps.refl _ _

theorem execQmiCreditReceived_ends (n : Fin 144) (die : Fin 16) (freed : BitVec 8) (s : State) :
    Ends [.med, .out] s (execQmiCreditReceived n die freed s) := by
  unfold execQmiCreditReceived
  extract_lets -merge +onlyGivenNames x1
  refine Ends.next ?_
  refine Keeps.ite (fun _ => ?_) (fun _ => ?_)
  · refine Keeps.after (State.pump_keeps _ _) (by decide) ?_
    refine Keeps.after (State.setDie_keeps _ _ _) (by decide) ?_
    exact Keeps.refl _ _
  · exact Keeps.refl _ _

theorem execQmiSleepReceived_ends (n : Fin 144) (s : State) :
    Ends [.med, .out] s (execQmiSleepReceived n s) := by
  unfold execQmiSleepReceived
  extract_lets -merge +onlyGivenNames x1
  refine Ends.next ?_
  refine Keeps.ite (fun _ => ?_) (fun _ => ?_)
  · refine Keeps.after (State.emit_keeps _ _) (by decide) ?_
    refine Keeps.after (State.setQc_keeps _ _ _) (by decide) ?_
    exact Keeps.refl _ _
  · exact Keeps.refl _ _

theorem execQmiCrcFailure_ends (n : Fin 144) (newWindow : Bool) (f : BitVec 544) (s : State) :
    Ends [.regs, .evt, .sched, .nv, .evr, .psq, .chans, .med, .bench, .xlt, .twin, .cxl, .rdma, .sec, .out, .fresh] s (execQmiCrcFailure n newWindow f s) := by
  unfold execQmiCrcFailure
  refine Ends.next ?_
  refine Keeps.ite (fun _ => ?_) (fun _ => ?_)
  · refine Keeps.ite (fun _ => ?_) (fun _ => ?_)
    · extract_lets -merge +onlyGivenNames x1
      extract_lets -merge +onlyGivenNames x2
      extract_lets -merge +onlyGivenNames x3
      extract_lets -merge +onlyGivenNames x4
      refine Keeps.of_let x4 ?_ (fun h4 => ?_)
      · unfold x4
        refine Keeps.after (State.sendNak_keeps _ _) (by decide) ?_
        refine Keeps.after (State.setQc_keeps _ _ _) (by decide) ?_
        refine Keeps.after (State.bump_keeps _ _ _ _ _ _) (by decide) ?_
        exact Keeps.refl _ _
      · refine Keeps.ite (fun _ => ?_) (fun _ => ?_)
        · refine Keeps.after (State.enterRecovery_keeps _ _ _ _) (by decide) ?_
          exact h4
        · refine Keeps.after (State.judgeQc_keeps _ _) (by decide) ?_
          exact h4
    · refine Keeps.ite (fun _ => ?_) (fun _ => ?_)
      · refine Keeps.after (State.sendNak_keeps _ _) (by decide) ?_
        exact Keeps.refl _ _
      · exact Keeps.refl _ _
  · exact Keeps.refl _ _

theorem execQmiAckTimer_ends (n : Fin 144) (s : State) :
    Ends [.med, .out] s (execQmiAckTimer n s) := by
  unfold execQmiAckTimer
  extract_lets -merge +onlyGivenNames x1
  refine Ends.next ?_
  refine Keeps.ite (fun _ => ?_) (fun _ => ?_)
  · refine Keeps.after (State.emit_keeps _ _) (by decide) ?_
    refine Keeps.after (State.setQc_keeps _ _ _) (by decide) ?_
    exact Keeps.refl _ _
  · exact Keeps.refl _ _

theorem execQmiLctlRefresh_ends (n : Fin 144) (s : State) :
    Ends [.med, .out] s (execQmiLctlRefresh n s) := by
  unfold execQmiLctlRefresh
  extract_lets -merge +onlyGivenNames x1
  refine Ends.next ?_
  refine Keeps.ite (fun _ => ?_) (fun _ => ?_)
  · extract_lets -merge +onlyGivenNames x2
    refine Keeps.of_let x2 ?_ (fun h2 => ?_)
    · unfold x2
      refine Keeps.after (State.emit_keeps _ _) (by decide) ?_
      exact Keeps.refl _ _
    · refine Keeps.ite (fun _ => ?_) (fun _ => ?_)
      · refine Keeps.after (State.emit_keeps _ _) (by decide) ?_
        exact h2
      · exact h2
  · refine Keeps.ite (fun _ => ?_) (fun _ => ?_)
    · refine Keeps.after (State.emit_keeps _ _) (by decide) ?_
      refine Keeps.after (State.setQc_keeps _ _ _) (by decide) ?_
      exact Keeps.refl _ _
    · exact Keeps.refl _ _

theorem execFastRetrainDone_ends (n : Fin 144) (ok : Bool) (s : State) :
    Ends [.regs, .evt, .sched, .nv, .evr, .psq, .chans, .med, .bench, .xlt, .twin, .cxl, .rdma, .sec, .out, .fresh] s (execFastRetrainDone n ok s) := by
  unfold execFastRetrainDone
  extract_lets -merge +onlyGivenNames x1
  refine Ends.next ?_
  split
  · extract_lets -merge +onlyGivenNames x2
    refine Keeps.of_let x2 ?_ (fun h2 => ?_)
    · unfold x2
      refine Keeps.after (State.bump_keeps _ _ _ _ _ _) (by decide) ?_
      exact Keeps.refl _ _
    · refine Keeps.ite (fun _ => ?_) (fun _ => ?_)
      · refine Keeps.after (State.channelBack_keeps _ _) (by decide) ?_
        refine Keeps.after (State.emit_keeps _ _) (by decide) ?_
        refine Keeps.after (State.setQc_keeps _ _ _) (by decide) ?_
        exact h2
      · extract_lets -merge +onlyGivenNames x3
        refine Keeps.after (State.emit_keeps _ _) (by decide) ?_
        refine Keeps.after (State.setQc_keeps _ _ _) (by decide) ?_
        exact h2
  · exact Keeps.refl _ _

theorem execFullRetrainDone_ends (n : Fin 144) (ok : Bool) (s : State) :
    Ends [.regs, .evt, .sched, .nv, .evr, .psq, .chans, .med, .bench, .xlt, .twin, .cxl, .rdma, .sec, .out, .fresh] s (execFullRetrainDone n ok s) := by
  unfold execFullRetrainDone
  extract_lets -merge +onlyGivenNames x1
  refine Ends.next ?_
  split
  · extract_lets -merge +onlyGivenNames x2
    refine Keeps.of_let x2 ?_ (fun h2 => ?_)
    · unfold x2
      refine Keeps.after (State.bump_keeps _ _ _ _ _ _) (by decide) ?_
      exact Keeps.refl _ _
    · refine Keeps.ite (fun _ => ?_) (fun _ => ?_)
      · refine Keeps.after (State.channelBack_keeps _ _) (by decide) ?_
        refine Keeps.after (State.askLogs_keeps _ _ _) (by decide) ?_
        refine Keeps.after (State.setQc_keeps _ _ _) (by decide) ?_
        exact h2
      · refine Keeps.after (State.channelDown_keeps _ _) (by decide) ?_
        exact h2
  · exact Keeps.refl _ _

theorem execQcFastRetrain_ends (n : Fin 144) (s : State) :
    Ends [.regs, .evt, .sched, .nv, .evr, .psq, .chans, .med, .bench, .xlt, .twin, .cxl, .rdma, .sec, .out, .fresh] s (execQcFastRetrain n s) := by
  unfold execQcFastRetrain
  refine Ends.next ?_
  refine Keeps.ite (fun _ => ?_) (fun _ => ?_)
  · refine Keeps.after (State.enterRecovery_keeps _ _ _ _) (by decide) ?_
    exact Keeps.refl _ _
  · exact Keeps.refl _ _

theorem execQcFullRetrain_ends (n : Fin 144) (s : State) :
    Ends [.regs, .evt, .sched, .nv, .evr, .psq, .chans, .med, .bench, .xlt, .twin, .cxl, .rdma, .sec, .out, .fresh] s (execQcFullRetrain n s) := by
  unfold execQcFullRetrain
  refine Ends.next ?_
  refine Keeps.ite (fun _ => ?_) (fun _ => ?_)
  · refine Keeps.after (State.enterRecovery_keeps _ _ _ _) (by decide) ?_
    exact Keeps.refl _ _
  · exact Keeps.refl _ _

theorem State.offlineChan_keeps (s : State) (n : Nat) :
    Keeps [.regs, .evt, .sched, .nv, .evr, .psq, .chans, .med, .bench, .xlt, .twin, .cxl, .rdma, .sec, .out, .fresh] s (State.offlineChan s n) := by
  unfold State.offlineChan
  extract_lets -merge +onlyGivenNames x1
  refine Keeps.ite (fun _ => ?_) (fun _ => ?_)
  · exact Keeps.refl _ _
  · refine Keeps.after (State.channelLeaves_keeps _ _) (by decide) ?_
    refine Keeps.after (State.setQc_keeps _ _ _) (by decide) ?_
    refine Keeps.after (State.setBit_keeps _ _ _ _ _) (by decide) ?_
    exact Keeps.refl _ _

theorem execQcOffline_ends (n : Fin 144) (s : State) :
    Ends [.regs, .evt, .sched, .nv, .evr, .psq, .chans, .med, .bench, .xlt, .twin, .cxl, .rdma, .sec, .out, .fresh] s (execQcOffline n s) := by
  unfold execQcOffline
  refine Ends.next ?_
  refine Keeps.ite (fun _ => ?_) (fun _ => ?_)
  · refine Keeps.after (State.offlineChan_keeps _ _) (by decide) ?_
    exact Keeps.refl _ _
  · exact Keeps.refl _ _

theorem execQcOfflineTimeout_ends (n : Fin 144) (s : State) :
    Ends [.med] s (execQcOfflineTimeout n s) := by
  unfold execQcOfflineTimeout
  extract_lets -merge +onlyGivenNames x1
  refine Ends.next ?_
  refine Keeps.ite (fun _ => ?_) (fun _ => ?_)
  · refine Keeps.after (State.setQc_keeps _ _ _) (by decide) ?_
    exact Keeps.refl _ _
  · exact Keeps.refl _ _

theorem execQcEn_ends (n : Fin 144) (s : State) :
    Ends [.regs, .evt, .sched, .nv, .evr, .psq, .chans, .med, .bench, .xlt, .twin, .cxl, .rdma, .sec, .out, .fresh] s (execQcEn n s) := by
  unfold execQcEn
  refine Ends.next ?_
  refine Keeps.ite (fun _ => ?_) (fun _ => ?_)
  · refine Keeps.after (State.channelBack_keeps _ _) (by decide) ?_
    refine Keeps.after (State.setBit_keeps _ _ _ _ _) (by decide) ?_
    exact Keeps.refl _ _
  · exact Keeps.refl _ _

theorem State.packageUp_keeps (s : State) (n : Nat) (pkg : Bool) (t : BitVec 2) :
    Keeps [.med] s (State.packageUp s n pkg t) := by
  unfold State.packageUp
  extract_lets -merge +onlyGivenNames x1
  extract_lets -merge +onlyGivenNames x2
  extract_lets -merge +onlyGivenNames x3
  refine Keeps.after (State.setQc_keeps _ _ _) (by decide) ?_
  exact Keeps.refl _ _

theorem execPackageReady_ends (n : Fin 144) (pkg : Bool) (seen : BitVec 32) (d : List Byte) (s : State) :
    Ends [.regs, .evt, .evr, .psq, .chans, .med, .bench, .xlt, .twin, .cxl, .rdma, .sec, .out, .fresh] s (execPackageReady n pkg seen d s) := by
  unfold execPackageReady
  extract_lets -merge +onlyGivenNames x1
  extract_lets -merge +onlyGivenNames x2
  extract_lets -merge +onlyGivenNames x3
  refine Ends.next ?_
  refine Keeps.ite (fun _ => ?_) (fun _ => ?_)
  · exact Keeps.refl _ _
  · extract_lets -merge +onlyGivenNames x4
    refine Keeps.of_let x4 ?_ (fun h4 => ?_)
    · unfold x4
      refine Keeps.after (State.emit_keeps _ _) (by decide) ?_
      refine Keeps.after (State.emit_keeps _ _) (by decide) ?_
      refine Keeps.after (State.judgeQg_keeps _ _) (by decide) ?_
      refine Keeps.after (State.setQg_keeps _ _ _) (by decide) ?_
      exact Keeps.refl _ _
    · split
      · refine Keeps.after (State.inventoryFails_keeps _ _ _ _) (by decide) ?_
        exact h4
      · split
        · refine Keeps.after (State.inventoryFails_keeps _ _ _ _) (by decide) ?_
          exact h4
        · refine Keeps.ite (fun _ => ?_) (fun _ => ?_)
          · exact h4
          · extract_lets -merge +onlyGivenNames x5
            refine Keeps.of_let x5 ?_ (fun h5 => ?_)
            · unfold x5
              refine Keeps.after (State.packageUp_keeps _ _ _ _) (by decide) ?_
              exact h4
            · split
              · refine Keeps.after (State.inventoryFails_keeps _ _ _ _) (by decide) ?_
                exact h5
              · exact h5

theorem State.groupServes_keeps (s : State) (g : Nat) :
    Keeps [.sched, .nv, .psq, .med] s (State.groupServes s g) := by
  unfold State.groupServes
  refine Keeps.ite (fun _ => ?_) (fun _ => ?_)
  · refine Keeps.after (State.armGroupSlots_keeps _ _) (by decide) ?_
    refine Keeps.after (State.setPsq_keeps _ _) (by decide) ?_
    refine Keeps.after (State.setQg_keeps _ _ _) (by decide) ?_
    exact Keeps.refl _ _
  · exact Keeps.refl _ _

theorem execChannelTrained_ends (n : Fin 144) (idOk : BitVec 16) (s : State) :
    Ends [.regs, .evt, .sched, .nv, .evr, .psq, .chans, .med, .bench, .xlt, .twin, .cxl, .rdma, .sec, .out, .fresh] s (execChannelTrained n idOk s) := by
  unfold execChannelTrained
  extract_lets -merge +onlyGivenNames x1
  extract_lets -merge +onlyGivenNames x2
  extract_lets -merge +onlyGivenNames x3
  refine Ends.next ?_
  refine Keeps.ite (fun _ => ?_) (fun _ => ?_)
  · exact Keeps.refl _ _
  · extract_lets -merge +onlyGivenNames x4
    extract_lets -merge +onlyGivenNames x5
    extract_lets -merge +onlyGivenNames x6
    refine Keeps.of_let x6 ?_ (fun h6 => ?_)
    · unfold x6
      refine Keeps.foldl _ (fun _ _ => ?_) ?_
      · refine Keeps.after (State.emit_keeps _ _) (by decide) ?_
        exact Keeps.refl _ _
      · exact Keeps.refl _ _
    · extract_lets -merge +onlyGivenNames x7
      refine Keeps.of_let x7 ?_ (fun h7 => ?_)
      · unfold x7
        refine Keeps.after (State.setQc_keeps _ _ _) (by decide) ?_
        exact h6
      · extract_lets -merge +onlyGivenNames x8
        refine Keeps.of_let x8 ?_ (fun h8 => ?_)
        · unfold x8
          refine Keeps.foldl _ (fun _ _ => ?_) ?_
          · refine Keeps.after (State.dieIdentified_keeps _ _ _) (by decide) ?_
            exact Keeps.refl _ _
          · exact h7
        · extract_lets -merge +onlyGivenNames x9
          refine Keeps.of_let x9 ?_ (fun h9 => ?_)
          · unfold x9
            refine Keeps.after (State.groupServes_keeps _ _) (by decide) ?_
            exact h8
          · refine Keeps.after (State.channelBack_keeps _ _) (by decide) ?_
            refine Keeps.after (State.judgeQg_keeps _ _) (by decide) ?_
            refine Keeps.ite (fun _ => ?_) (fun _ => ?_)
            · exact h9
            · refine Keeps.after (State.askLogs_keeps _ _ _) (by decide) ?_
              exact h9

theorem execSidebandTempPoll_ends (g : Fin 9) (temps : List (Option ℤ)) (s : State) :
    Ends [.regs, .evt, .evr, .chans, .med, .cxl, .out] s (execSidebandTempPoll g temps s) := by
  unfold execSidebandTempPoll
  extract_lets -merge +onlyGivenNames x1
  refine Ends.next ?_
  refine Keeps.ite (fun _ => ?_) (fun _ => ?_)
  · exact Keeps.refl _ _
  · extract_lets -merge +onlyGivenNames x2
    refine Keeps.of_let x2 ?_ (fun h2 => ?_)
    · unfold x2
      refine Keeps.foldl _ (fun _ _ => ?_) ?_
      · extract_lets -merge +onlyGivenNames x3
        extract_lets -merge +onlyGivenNames x4
        refine Keeps.ite (fun _ => ?_) (fun _ => ?_)
        · exact Keeps.refl _ _
        · extract_lets -merge +onlyGivenNames x5
          extract_lets -merge +onlyGivenNames x6
          extract_lets -merge +onlyGivenNames x7
          refine Keeps.after (State.emit_keeps _ _) (by decide) ?_
          refine Keeps.after (State.setQg_keeps _ _ _) (by decide) ?_
          exact Keeps.refl _ _
      · exact Keeps.refl _ _
    · extract_lets -merge +onlyGivenNames x3
      extract_lets -merge +onlyGivenNames x4
      extract_lets -merge +onlyGivenNames x5
      extract_lets -merge +onlyGivenNames x6
      refine Keeps.of_let x6 ?_ (fun h6 => ?_)
      · unfold x6
        refine Keeps.after (State.setQg_keeps _ _ _) (by decide) ?_
        exact h2
      · extract_lets -merge +onlyGivenNames x7
        refine Keeps.of_let x7 ?_ (fun h7 => ?_)
        · unfold x7
          refine Keeps.ite (fun _ => ?_) (fun _ => ?_)
          · refine Keeps.foldl _ (fun _ _ => ?_) ?_
            · split
              · refine Keeps.after (State.packageTemp_keeps _ _ _ _) (by decide) ?_
                exact Keeps.refl _ _
              · exact Keeps.refl _ _
            · exact h6
          · exact h6
        · refine Keeps.after (State.judgeTemp_keeps _ _) (by decide) ?_
          exact h7

theorem execSidebandStuckTimeout_ends (g : Fin 9) (s : State) :
    Ends [.regs, .evt, .evr, .chans, .med, .cxl, .out] s (execSidebandStuckTimeout g s) := by
  unfold execSidebandStuckTimeout
  refine Ends.next ?_
  refine Keeps.ite (fun _ => ?_) (fun _ => ?_)
  · refine Keeps.after (State.judgeTemp_keeps _ _) (by decide) ?_
    refine Keeps.after (State.setQg_keeps _ _ _) (by decide) ?_
    exact Keeps.refl _ _
  · exact Keeps.refl _ _

theorem execQgAlert_ends (g : Fin 9) (low : Bool) (pkg : Fin 32) (status : Byte) (s : State) :
    Ends [.regs, .evt, .evr, .chans, .med, .cxl, .out] s (execQgAlert g low pkg status s) := by
  unfold execQgAlert
  refine Ends.next ?_
  refine Keeps.ite (fun _ => ?_) (fun _ => ?_)
  · extract_lets -merge +onlyGivenNames x1
    refine Keeps.ite (fun _ => ?_) (fun _ => ?_)
    · refine Keeps.after (State.deviceRecord_keeps _ _ _) (by decide) ?_
      refine Keeps.after (State.emit_keeps _ _) (by decide) ?_
      refine Keeps.after (State.judgeQg_keeps _ _) (by decide) ?_
      refine Keeps.after (State.setQg_keeps _ _ _) (by decide) ?_
      exact Keeps.refl _ _
    · refine Keeps.after (State.judgeQg_keeps _ _) (by decide) ?_
      refine Keeps.after (State.setQg_keeps _ _ _) (by decide) ?_
      exact Keeps.refl _ _
  · exact Keeps.refl _ _

/-! ### Flash -/

theorem keeperTake_keeps (s : State) (outcome : Fin 4) (holder : Option (Nat × Bool)) :
    Keeps [.regs, .evt, .nv, .evr, .chans, .cxl, .out] s (keeperTake s outcome holder) := by
  unfold keeperTake
  split
  · exact Keeps.refl _ _
  · refine Keeps.after (State.cause_keeps _ _ _ _ _) (by decide) ?_
    refine Keeps.after (State.bump_keeps _ _ _ _ _ _) (by decide) ?_
    exact Keeps.refl _ _
  · refine Keeps.after (State.cause_keeps _ _ _ _ _) (by decide) ?_
    refine Keeps.after (State.bump_keeps _ _ _ _ _ _) (by decide) ?_
    refine Keeps.after (State.cause_keeps _ _ _ _ _) (by decide) ?_
    refine Keeps.after (State.bump_keeps _ _ _ _ _ _) (by decide) ?_
    exact Keeps.refl _ _
  · extract_lets -merge +onlyGivenNames x1
    refine Keeps.of_let x1 ?_ (fun h1 => ?_)
    · unfold x1
      refine Keeps.after (State.cause_keeps _ _ _ _ _) (by decide) ?_
      refine Keeps.after (State.bump_keeps _ _ _ _ _ _) (by decide) ?_
      exact Keeps.refl _ _
    · split
      · exact h1
      · extract_lets -merge +onlyGivenNames x2
        extract_lets -merge +onlyGivenNames x3
        extract_lets -merge +onlyGivenNames x4
        extract_lets -merge +onlyGivenNames x5
        refine Keeps.set_nv (by decide) ?_
        exact h1

theorem execKeeperWordCheck_ends (word : Fin 1048576) (outcome : Fin 4) (holder : Option (Nat × Bool)) (s : State) :
    Ends [.regs, .evt, .nv, .evr, .chans, .cxl, .out] s (execKeeperWordCheck word outcome holder s) := by
  unfold execKeeperWordCheck
  refine Ends.ite (fun _ => ?_) (fun _ => ?_)
  · extract_lets -merge +onlyGivenNames x1
    refine Ends.of_let x1 ?_ (fun h1 => ?_)
    · unfold x1
      refine Keeps.after (keeperTake_keeps _ _ _) (by decide) ?_
      exact Keeps.refl _ _
    · extract_lets -merge +onlyGivenNames x2
      refine Ends.next ?_
      refine Keeps.set_nv (by decide) ?_
      exact h1
  · refine Ends.next ?_
    exact Keeps.refl _ _

theorem execWstampHiAdvance_ends (s : State) :
    Ends [.nv] s (execWstampHiAdvance s) := by
  unfold execWstampHiAdvance
  refine Ends.ite (fun _ => ?_) (fun _ => ?_)
  · refine Ends.next ?_
    refine Keeps.after (State.wstampAdvance_keeps _) (by decide) ?_
    exact Keeps.refl _ _
  · refine Ends.next ?_
    exact Keeps.refl _ _

theorem execEvrTokenRefill_ends (code : Fin 1024) (s : State) :
    Ends [.evr] s (execEvrTokenRefill code s) := by
  unfold execEvrTokenRefill
  refine Ends.ite (fun _ => ?_) (fun _ => ?_)
  · refine Ends.next ?_
    refine Keeps.after (State.refill_keeps _ _) (by decide) ?_
    exact Keeps.refl _ _
  · refine Ends.next ?_
    exact Keeps.refl _ _

theorem execEvrArchiveStart_ends (s : State) :
    Ends [.evr, .flash] s (execEvrArchiveStart s) := by
  unfold execEvrArchiveStart
  refine Ends.ite (fun _ => ?_) (fun _ => ?_)
  · refine Ends.next ?_
    refine Keeps.after (State.archiveStart_keeps _) (by decide) ?_
    exact Keeps.refl _ _
  · refine Ends.next ?_
    exact Keeps.refl _ _

theorem execVaultPageProgramDone_ends (page : Nat) (ok : Bool) (s : State) :
    Ends [.evr, .flash] s (execVaultPageProgramDone page ok s) := by
  unfold execVaultPageProgramDone
  refine Ends.ite (fun _ => ?_) (fun _ => ?_)
  · refine Ends.next ?_
    refine Keeps.after (State.archiveRun_keeps _ _) (by decide) ?_
    refine Keeps.ite (fun _ => ?_) (fun _ => ?_)
    · refine Keeps.after (State.vaultVerified_keeps _ _) (by decide) ?_
      exact Keeps.refl _ _
    · refine Keeps.after (State.vaultFailed_keeps _ _) (by decide) ?_
      exact Keeps.refl _ _
  · refine Ends.next ?_
    exact Keeps.refl _ _

theorem execVaultPadTimeout_ends (kind : Fin 4) (s : State) :
    Ends [.flash] s (execVaultPadTimeout kind s) := by
  unfold execVaultPadTimeout
  split
  · refine Ends.next ?_
    refine Keeps.ite (fun _ => ?_) (fun _ => ?_)
    · exact Keeps.refl _ _
    · refine Keeps.after (State.vaultPlace_keeps _ _ _ _) (by decide) ?_
      exact Keeps.refl _ _
  · refine Ends.next ?_
    exact Keeps.refl _ _

theorem execWdgKick_ends (value : Word) (s : State) :
    Ends [.wdg] s (execWdgKick value s) := by
  unfold execWdgKick
  refine Ends.next ?_
  refine Keeps.after (State.wdgKick_keeps _ _) (by decide) ?_
  exact Keeps.refl _ _

theorem execStage1_ends (s : State) :
    Ends [.regs, .evt, .evr, .wdg, .chans, .cxl, .out] s (execStage1 s) := by
  unfold execStage1
  refine Ends.ite (fun _ => ?_) (fun _ => ?_)
  · extract_lets -merge +onlyGivenNames x1
    refine Ends.of_let x1 ?_ (fun h1 => ?_)
    · unfold x1
      refine Keeps.after (State.emit_keeps _ _) (by decide) ?_
      refine Keeps.after (State.cause_keeps _ _ _ _ _) (by decide) ?_
      exact Keeps.refl _ _
    · refine Ends.next ?_
      refine Keeps.after (State.setWdg_keeps _ _) (by decide) ?_
      exact h1
  · refine Ends.next ?_
    exact Keeps.refl _ _

theorem execFlashSuspend_ends (s : State) :
    Ends [.flash] s (execFlashSuspend s) := by
  unfold execFlashSuspend
  refine Ends.ite (fun _ => ?_) (fun _ => ?_)
  · refine Ends.next ?_
    refine Keeps.after (State.setFlash_keeps _ _) (by decide) ?_
    exact Keeps.refl _ _
  · refine Ends.next ?_
    exact Keeps.refl _ _

theorem execFlashSuspendTimeout_ends (s : State) :
    Ends [.flash] s (execFlashSuspendTimeout s) := by
  unfold execFlashSuspendTimeout
  refine Ends.ite (fun _ => ?_) (fun _ => ?_)
  · refine Ends.next ?_
    refine Keeps.after (State.flashNext_keeps _) (by decide) ?_
    exact Keeps.refl _ _
  · refine Ends.next ?_
    exact Keeps.refl _ _

theorem execVddIoBandChange_ends (low : Bool) (s : State) :
    Ends [.regs, .evt, .evr, .flash, .chans, .cxl, .out] s (execVddIoBandChange low s) := by
  unfold execVddIoBandChange
  refine Ends.next ?_
  refine Keeps.after (State.judgeWait_keeps _) (by decide) ?_
  refine Keeps.after (State.setFlash_keeps _ _) (by decide) ?_
  exact Keeps.refl _ _

theorem execBootstrapWrite_ends (offset : Word) (bytes : List Byte) (s : State) :
    Ends [.flash] s (execBootstrapWrite offset bytes s) := by
  unfold execBootstrapWrite
  refine Ends.ite (fun _ => ?_) (fun _ => ?_)
  · extract_lets -merge +onlyGivenNames x1
    refine Ends.next ?_
    refine Keeps.after (State.setFlash_keeps _ _) (by decide) ?_
    exact Keeps.refl _ _
  · refine Ends.next ?_
    exact Keeps.refl _ _

theorem execBootstrapEnd_ends (len : Word) (good : Bool) (s : State) :
    Ends [.regs, .evt, .evr, .wdg, .flash, .chans, .cxl, .out] s (execBootstrapEnd len good s) := by
  unfold execBootstrapEnd
  refine Ends.ite (fun _ => ?_) (fun _ => ?_)
  · refine Ends.next ?_
    refine Keeps.after (State.wdgStart_keeps _) (by decide) ?_
    refine Keeps.after (State.level_keeps _ _ _ _ _ _ _) (by decide) ?_
    refine Keeps.after (State.setFlash_keeps _ _) (by decide) ?_
    exact Keeps.refl _ _
  · refine Ends.next ?_
    exact Keeps.refl _ _

/-! ### Bench -/

theorem execPartialLineMerge_ends (x : Nat) (s : State) :
    Ends [.regs, .evt, .sched, .nv, .evr, .chans, .med, .bench, .xlt, .twin, .cxl, .rdma, .sec, .out, .fresh] s (execPartialLineMerge x s) := by
  unfold execPartialLineMerge
  refine Ends.next ?_
  refine Keeps.ite (fun _ => ?_) (fun _ => ?_)
  · refine Keeps.after (State.settleMed_keeps _) (by decide) ?_
    refine Keeps.after (State.mergeLine_keeps _ _) (by decide) ?_
    exact Keeps.refl _ _
  · exact Keeps.refl _ _

theorem execScbIdleClose_ends (n : Nat) (s : State) :
    Ends [.regs, .evt, .sched, .nv, .evr, .chans, .med, .bench, .xlt, .twin, .cxl, .rdma, .sec, .out, .fresh] s (execScbIdleClose n s) := by
  unfold execScbIdleClose
  refine Ends.next ?_
  refine Keeps.ite (fun _ => ?_) (fun _ => ?_)
  · refine Keeps.after (State.settleMed_keeps _) (by decide) ?_
    refine Keeps.after (State.scbClose_keeps _ _) (by decide) ?_
    exact Keeps.refl _ _
  · exact Keeps.refl _ _

theorem execForwardGatherExpiry_ends (s : State) :
    Ends [.bench, .twin, .out] s (execForwardGatherExpiry s) := by
  unfold execForwardGatherExpiry
  refine Ends.next ?_
  refine Keeps.ite (fun _ => ?_) (fun _ => ?_)
  · refine Keeps.after (State.sealForward_keeps _) (by decide) ?_
    exact Keeps.refl _ _
  · exact Keeps.refl _ _

theorem execDrainReplay_ends (s : State) :
    Ends [.regs, .evt, .sched, .nv, .evr, .psq, .chans, .med, .bench, .xlt, .twin, .cxl, .rdma, .sec, .out, .fresh] s (execDrainReplay s) := by
  unfold execDrainReplay
  refine Ends.next ?_
  refine Keeps.ite (fun _ => ?_) (fun _ => ?_)
  · refine Keeps.after (State.settleMed_keeps _) (by decide) ?_
    refine Keeps.after (State.replayKick_keeps _) (by decide) ?_
    refine Keeps.after (State.replayBegin_keeps _) (by decide) ?_
    refine Keeps.after (State.setHashKey_keeps _ _) (by decide) ?_
    exact Keeps.refl _ _
  · exact Keeps.refl _ _

theorem execPbfHashKeyWrite_ends (req : Requester) (hi : Word) (s : State) :
    Ends [.regs, .csr, .evt, .evr, .chans, .bench, .cxl, .sec, .out] s (execPbfHashKeyWrite req hi s) := by
  unfold execPbfHashKeyWrite
  refine Ends.next ?_
  refine Keeps.ite (fun _ => ?_) (fun _ => ?_)
  · refine Keeps.after (State.hashKeyWrite_keeps _ _ _ _) (by decide) ?_
    exact Keeps.refl _ _
  · exact Keeps.refl _ _

theorem execCheckpointChunkWrite_ends (s : State) :
    Ends [.regs, .evt, .sched, .nv, .evr, .chans, .med, .bench, .xlt, .twin, .cxl, .rdma, .sec, .out, .fresh] s (execCheckpointChunkWrite s) := by
  unfold execCheckpointChunkWrite
  refine Ends.next ?_
  refine Keeps.ite (fun _ => ?_) (fun _ => ?_)
  · refine Keeps.after (State.settleMed_keeps _) (by decide) ?_
    refine Keeps.after (State.checkpointChunk_keeps _) (by decide) ?_
    exact Keeps.refl _ _
  · exact Keeps.refl _ _

theorem execPriorityLoadDone_ends (c : Nat) (s : State) :
    Ends [.regs, .evt, .sched, .nv, .evr, .chans, .med, .bench, .xlt, .twin, .cxl, .rdma, .sec, .out, .fresh] s (execPriorityLoadDone c s) := by
  unfold execPriorityLoadDone
  refine Ends.next ?_
  refine Keeps.ite (fun _ => ?_) (fun _ => ?_)
  · refine Keeps.after (State.settleMed_keeps _) (by decide) ?_
    refine Keeps.after (State.pairTake_keeps _ _) (by decide) ?_
    exact Keeps.refl _ _
  · exact Keeps.refl _ _

theorem execBackgroundChunkLoad_ends (s : State) :
    Ends [.regs, .evt, .sched, .nv, .evr, .chans, .med, .bench, .xlt, .twin, .cxl, .rdma, .sec, .out, .fresh] s (execBackgroundChunkLoad s) := by
  unfold execBackgroundChunkLoad
  refine Ends.next ?_
  refine Keeps.ite (fun _ => ?_) (fun _ => ?_)
  · refine Keeps.after (State.settleMed_keeps _) (by decide) ?_
    refine Keeps.after (State.judgeXlt_keeps _) (by decide) ?_
    refine Keeps.after (State.loadNext_keeps _) (by decide) ?_
    exact Keeps.refl _ _
  · exact Keeps.refl _ _

theorem execHintScan_ends (s : State) :
    Ends [.regs, .evt, .evr, .chans, .med, .xlt, .cxl, .out] s (execHintScan s) := by
  unfold execHintScan
  refine Ends.next ?_
  refine Keeps.ite (fun _ => ?_) (fun _ => ?_)
  · refine Keeps.after (State.hintScan_keeps _) (by decide) ?_
    exact Keeps.refl _ _
  · exact Keeps.refl _ _

theorem execPoolPromote_ends (s : State) :
    Ends [.regs, .evt, .sched, .nv, .evr, .chans, .med, .bench, .xlt, .twin, .cxl, .rdma, .sec, .out, .fresh] s (execPoolPromote s) := by
  unfold execPoolPromote
  refine Ends.next ?_
  refine Keeps.ite (fun _ => ?_) (fun _ => ?_)
  · refine Keeps.after (State.settleMed_keeps _) (by decide) ?_
    refine Keeps.after (State.promoteNext_keeps _) (by decide) ?_
    exact Keeps.refl _ _
  · exact Keeps.refl _ _

theorem execPoolDemote_ends (n : Nat) (s : State) :
    Ends [.regs, .evt, .sched, .nv, .evr, .chans, .med, .bench, .xlt, .twin, .cxl, .rdma, .sec, .out, .fresh] s (execPoolDemote n s) := by
  unfold execPoolDemote
  refine Ends.next ?_
  refine Keeps.ite (fun _ => ?_) (fun _ => ?_)
  · refine Keeps.after (State.settleMed_keeps _) (by decide) ?_
    refine Keeps.after (State.endPromotion_keeps _ _) (by decide) ?_
    exact Keeps.refl _ _
  · exact Keeps.refl _ _

theorem execWindowIdleClose_ends (st : Stream) (object : Nat) (s : State) :
    Ends [.xlt] s (execWindowIdleClose st object s) := by
  unfold execWindowIdleClose
  refine Ends.next ?_
  refine Keeps.ite (fun _ => ?_) (fun _ => ?_)
  · refine Keeps.after (State.closeWindows_keeps _ _) (by decide) ?_
    exact Keeps.refl _ _
  · exact Keeps.refl _ _

theorem execBenchViewRawWrite_ends (a : Nat) (d : Chunk) (s : State) :
    Ends [.regs, .evt, .evr, .chans, .med, .xlt, .cxl, .dram, .out] s (execBenchViewRawWrite a d s) := by
  unfold execBenchViewRawWrite
  refine Ends.next ?_
  refine Keeps.ite (fun _ => ?_) (fun _ => ?_)
  · refine Keeps.after (State.benchWrite_keeps _ _ _) (by decide) ?_
    exact Keeps.refl _ _
  · exact Keeps.refl _ _

theorem execRawDiscard_ends (a : Nat) (s : State) :
    Ends [.regs, .evt, .evr, .chans, .med, .xlt, .cxl, .out] s (execRawDiscard a s) := by
  unfold execRawDiscard
  refine Ends.next ?_
  refine Keeps.ite (fun _ => ?_) (fun _ => ?_)
  · refine Keeps.after (State.rawRetry_keeps _) (by decide) ?_
    refine Keeps.after (State.cause_keeps _ _ _ _ _) (by decide) ?_
    refine Keeps.after (State.setXlt_keeps _ _) (by decide) ?_
    exact Keeps.refl _ _
  · exact Keeps.refl _ _

/-! ### Csr -/

theorem State.ran_keeps {w : List Part} {s : State} {f : State → Res} (h : Ends w s (f s)) : Keeps w s (s.ran f) := by
  unfold State.ran
  split
  · rename_i t e; exact h t e
  · exact Keeps.refl _ _

theorem State.mbxIn_keeps (s : State) (c : Nat) (w : Word) :
    Keeps [.chans] s (State.mbxIn s c w) := by
  unfold State.mbxIn
  extract_lets -merge +onlyGivenNames x1
  refine Keeps.ite (fun _ => ?_) (fun _ => ?_)
  · exact Keeps.refl _ _
  · refine Keeps.ite (fun _ => ?_) (fun _ => ?_)
    · refine Keeps.after (State.setChan_keeps _ _ _) (by decide) ?_
      exact Keeps.refl _ _
    · refine Keeps.after (State.setChan_keeps _ _ _) (by decide) ?_
      exact Keeps.refl _ _

theorem State.mbxBell_keeps (s : State) (c : Nat) :
    Keeps [.chans] s (State.mbxBell s c) := by
  unfold State.mbxBell
  extract_lets -merge +onlyGivenNames x1
  refine Keeps.ite (fun _ => ?_) (fun _ => ?_)
  · exact Keeps.refl _ _
  · refine Keeps.after (State.setChan_keeps _ _ _) (by decide) ?_
    exact Keeps.refl _ _

theorem State.mbxInReset_keeps (s : State) (c : Nat) :
    Keeps [.chans] s (State.mbxInReset s c) := by
  unfold State.mbxInReset
  extract_lets -merge +onlyGivenNames x1
  refine Keeps.ite (fun _ => ?_) (fun _ => ?_)
  · exact Keeps.refl _ _
  · refine Keeps.after (State.setChan_keeps _ _ _) (by decide) ?_
    exact Keeps.refl _ _

theorem State.outRefill_keeps (s : State) (c : Nat) (a2 : Nat) :
    Keeps [.chans, .cxl, .out] s (State.outRefill s c a2) := by
  induction a2 generalizing s c
  · unfold State.outRefill
    exact Keeps.refl _ _
  · rename_i x ih
    unfold State.outRefill
    extract_lets -merge +onlyGivenNames x1
    split
    · exact Keeps.refl _ _
    · refine Keeps.ite (fun _ => ?_) (fun _ => ?_)
      · refine Keeps.trans ?_ (ih _ _)
        refine Keeps.after (replyInterrupt_keeps _ _ _) (by decide) ?_
        refine Keeps.after (State.setChan_keeps _ _ _) (by decide) ?_
        exact Keeps.refl _ _
      · exact Keeps.refl _ _

theorem State.mbxPop_keeps (s : State) (c : Nat) (k : Nat) :
    Keeps [.chans, .cxl, .out] s (State.mbxPop s c k) := by
  unfold State.mbxPop
  extract_lets -merge +onlyGivenNames x1
  refine Keeps.ite (fun _ => ?_) (fun _ => ?_)
  · exact Keeps.refl _ _
  · refine Keeps.after (State.outRefill_keeps _ _ _) (by decide) ?_
    refine Keeps.after (State.setChan_keeps _ _ _) (by decide) ?_
    exact Keeps.refl _ _

theorem State.legacyWrite_keeps (s : State) (c : Nat) (off : Nat) (kind : AccessKind) (w : Word) :
    Keeps [.chans] s (State.legacyWrite s c off kind w) := by
  unfold State.legacyWrite
  extract_lets -merge +onlyGivenNames x1
  refine Keeps.ite (fun _ => ?_) (fun _ => ?_)
  · exact Keeps.refl _ _
  · extract_lets -merge +onlyGivenNames x2
    refine Keeps.ite (fun _ => ?_) (fun _ => ?_)
    · extract_lets -merge +onlyGivenNames x3
      extract_lets -merge +onlyGivenNames x4
      refine Keeps.after (State.setChan_keeps _ _ _) (by decide) ?_
      exact Keeps.refl _ _
    · refine Keeps.ite (fun _ => ?_) (fun _ => ?_)
      · refine Keeps.after (State.setChan_keeps _ _ _) (by decide) ?_
        exact Keeps.refl _ _
      · refine Keeps.ite (fun _ => ?_) (fun _ => ?_)
        · refine Keeps.after (State.setChan_keeps _ _ _) (by decide) ?_
          exact Keeps.refl _ _
        · refine Keeps.ite (fun _ => ?_) (fun _ => ?_)
          · refine Keeps.after (State.setChan_keeps _ _ _) (by decide) ?_
            exact Keeps.refl _ _
          · exact Keeps.refl _ _

theorem State.bitsFollow_keeps (s : State) (src : Nat) (n : Nat) (w : Word) :
    Keeps [.regs, .evt, .evr, .chans, .cxl, .out] s (State.bitsFollow s src n w) := by
  unfold State.bitsFollow
  refine Keeps.foldl _ (fun _ _ => ?_) ?_
  · refine Keeps.ite (fun _ => ?_) (fun _ => ?_)
    · refine Keeps.after (State.raise_keeps _ _) (by decide) ?_
      exact Keeps.refl _ _
    · refine Keeps.after (State.lower_keeps _ _) (by decide) ?_
      exact Keeps.refl _ _
  · exact Keeps.refl _ _

theorem State.maskFollows_keeps (s : State) (src : Nat) (w : Word) (mask : Nat) :
    Keeps [.regs, .evt, .evr, .chans, .cxl, .out] s (State.maskFollows s src w mask) := by
  unfold State.maskFollows
  refine Keeps.ite (fun _ => ?_) (fun _ => ?_)
  · refine Keeps.after (State.lower_keeps _ _) (by decide) ?_
    exact Keeps.refl _ _
  · refine Keeps.after (State.raise_keeps _ _) (by decide) ?_
    exact Keeps.refl _ _

theorem State.causeWritten_keeps (s : State) (base : Nat) (k : Nat) (w : Word) :
    Keeps [.regs, .evt, .evr, .chans, .cxl, .out] s (State.causeWritten s base k w) := by
  unfold State.causeWritten
  split
  · refine Keeps.after (State.bitsFollow_keeps _ _ _ _) (by decide) ?_
    exact Keeps.refl _ _
  · split
    · refine Keeps.after (State.maskFollows_keeps _ _ _ _) (by decide) ?_
      exact Keeps.refl _ _
    · refine Keeps.after (State.maskFollows_keeps _ _ _ _) (by decide) ?_
      refine Keeps.after (State.maskFollows_keeps _ _ _ _) (by decide) ?_
      refine Keeps.after (State.maskFollows_keeps _ _ _ _) (by decide) ?_
      exact Keeps.refl _ _
    · refine Keeps.after (State.maskFollows_keeps _ _ _ _) (by decide) ?_
      exact Keeps.refl _ _
    · refine Keeps.after (State.maskFollows_keeps _ _ _ _) (by decide) ?_
      exact Keeps.refl _ _
    · refine Keeps.after (State.bitsFollow_keeps _ _ _ _) (by decide) ?_
      exact Keeps.refl _ _
    · refine Keeps.after (State.maskFollows_keeps _ _ _ _) (by decide) ?_
      exact Keeps.refl _ _
    · refine Keeps.after (State.maskFollows_keeps _ _ _ _) (by decide) ?_
      exact Keeps.refl _ _
    · refine Keeps.after (State.bitsFollow_keeps _ _ _ _) (by decide) ?_
      exact Keeps.refl _ _
    · refine Keeps.after (State.maskFollows_keeps _ _ _ _) (by decide) ?_
      exact Keeps.refl _ _
    · exact Keeps.refl _ _

theorem State.routeThrough_keeps (s : State) :
    Keeps [.evt] s (State.routeThrough s) := by
  unfold State.routeThrough
  extract_lets -merge +onlyGivenNames x1
  refine Keeps.set_evt (by decide) ?_
  exact Keeps.refl _ _

theorem State.pendWrite_keeps (s : State) (k : Nat) (w : Word) :
    Keeps [.evt] s (State.pendWrite s k w) := by
  unfold State.pendWrite
  extract_lets -merge +onlyGivenNames x1
  extract_lets -merge +onlyGivenNames x2
  extract_lets -merge +onlyGivenNames x3
  refine Keeps.set_evt (by decide) ?_
  exact Keeps.refl _ _

theorem State.cxlEnWrite_keeps (s : State) (old : Word) (new : Word) :
    Keeps [.regs, .evt, .evr, .chans, .med, .bench, .xlt, .twin, .cxl, .rdma, .sec, .out, .fresh] s (State.cxlEnWrite s old new) := by
  unfold State.cxlEnWrite
  refine Keeps.after (State.settle_keeps _) (by decide) ?_
  refine Keeps.after (State.judgeCxl_keeps _) (by decide) ?_
  refine Keeps.foldl _ (fun _ _ => ?_) ?_
  · extract_lets -merge +onlyGivenNames x1
    extract_lets -merge +onlyGivenNames x2
    refine Keeps.ite (fun _ => ?_) (fun _ => ?_)
    · extract_lets -merge +onlyGivenNames x3
      refine Keeps.of_let x3 ?_ (fun h3 => ?_)
      · unfold x3
        refine Keeps.after (State.portReset_keeps _ _) (by decide) ?_
        exact Keeps.refl _ _
      · refine Keeps.after (State.setCport_keeps _ _ _) (by decide) ?_
        exact h3
    · refine Keeps.ite (fun _ => ?_) (fun _ => ?_)
      · extract_lets -merge +onlyGivenNames x3
        extract_lets -merge +onlyGivenNames x4
        refine Keeps.of_let x4 ?_ (fun h4 => ?_)
        · unfold x4
          refine Keeps.after (State.setCport_keeps _ _ _) (by decide) ?_
          exact Keeps.refl _ _
        · refine Keeps.ite (fun _ => ?_) (fun _ => ?_)
          · refine Keeps.after (State.setCport_keeps _ _ _) (by decide) ?_
            exact h4
          · exact h4
      · exact Keeps.refl _ _
  · exact Keeps.refl _ _

theorem State.ethEnWrite_keeps (s : State) (old : Word) (new : Word) :
    Keeps [.regs, .evt, .tally, .evr, .chans, .cxl, .rdma, .out] s (State.ethEnWrite s old new) := by
  unfold State.ethEnWrite
  extract_lets -merge +onlyGivenNames x1
  refine Keeps.of_let x1 ?_ (fun h1 => ?_)
  · unfold x1
    refine Keeps.foldl _ (fun _ _ => ?_) ?_
    · refine Keeps.ite (fun _ => ?_) (fun _ => ?_)
      · exact Keeps.refl _ _
      · extract_lets -merge +onlyGivenNames x2
        refine Keeps.of_let x2 ?_ (fun h2 => ?_)
        · unfold x2
          refine Keeps.foldl _ (fun _ _ => ?_) ?_
          · refine Keeps.after (State.setMac_keeps _ _ _) (by decide) ?_
            exact Keeps.refl _ _
          · exact Keeps.refl _ _
        · refine Keeps.ite (fun _ => ?_) (fun _ => ?_)
          · refine Keeps.after (State.setEport_keeps _ _ _) (by decide) ?_
            exact h2
          · exact h2
    · exact Keeps.refl _ _
  · extract_lets -merge +onlyGivenNames x2
    refine Keeps.of_let x2 ?_ (fun h2 => ?_)
    · unfold x2
      refine Keeps.foldl _ (fun _ _ => ?_) ?_
      · refine Keeps.after (State.judgeMac_keeps _ _) (by decide) ?_
        exact Keeps.refl _ _
      · exact h1
    · extract_lets -merge +onlyGivenNames x3
      refine Keeps.of_let x3 ?_ (fun h3 => ?_)
      · unfold x3
        refine Keeps.after (State.ptpChoose_keeps _) (by decide) ?_
        exact h2
      · refine Keeps.ite (fun _ => ?_) (fun _ => ?_)
        · exact h3
        · refine Keeps.ite (fun _ => ?_) (fun _ => ?_)
          · refine Keeps.after (State.ptpLost_keeps _) (by decide) ?_
            exact h3
          · exact h3

theorem State.tdmEnWrite_keeps (s : State) (new : Word) :
    Keeps [.regs, .evt, .evr, .chans, .twin, .cxl, .out] s (State.tdmEnWrite s new) := by
  unfold State.tdmEnWrite
  extract_lets -merge +onlyGivenNames x1
  refine Keeps.after (State.judgeTdm_keeps _) (by decide) ?_
  unfold x1
  refine Keeps.ite (fun _ => ?_) (fun _ => ?_)
  · refine Keeps.ite (fun _ => ?_) (fun _ => ?_)
    · exact Keeps.refl _ _
    · refine Keeps.after (State.setTport_keeps _ _ _) (by decide) ?_
      exact Keeps.refl _ _
  · refine Keeps.after (State.setTport_keeps _ _ _) (by decide) ?_
    refine Keeps.ite (fun _ => ?_) (fun _ => ?_)
    · exact Keeps.refl _ _
    · refine Keeps.after (State.setTport_keeps _ _ _) (by decide) ?_
      exact Keeps.refl _ _

theorem State.wdgEnWrite_keeps (s : State) :
    Keeps [.wdg] s (State.wdgEnWrite s) := by
  unfold State.wdgEnWrite
  refine Keeps.ite (fun _ => ?_) (fun _ => ?_)
  · refine Keeps.after (State.setWdg_keeps _ _) (by decide) ?_
    exact Keeps.refl _ _
  · refine Keeps.ite (fun _ => ?_) (fun _ => ?_)
    · exact Keeps.refl _ _
    · refine Keeps.ite (fun _ => ?_) (fun _ => ?_)
      · refine Keeps.after (State.wdgStart_keeps _) (by decide) ?_
        exact Keeps.refl _ _
      · refine Keeps.after (State.wdgPause_keeps _) (by decide) ?_
        exact Keeps.refl _ _

theorem State.afterMed_keeps (s : State) (base : Nat) (k : Nat) (old : Word) (new : Word) (trig : Word) :
    Keeps [.regs, .evt, .sched, .nv, .evr, .psq, .chans, .med, .bench, .xlt, .twin, .cxl, .rdma, .sec, .out, .fresh] s (State.afterMed s base k old new trig) := by
  unfold State.afterMed
  split
  · split
    · extract_lets -merge +onlyGivenNames x1
      extract_lets -merge +onlyGivenNames x2
      refine Keeps.of_let x2 ?_ (fun h2 => ?_)
      · unfold x2
        refine Keeps.ite (fun _ => ?_) (fun _ => ?_)
        · refine Keeps.trans ?_ (State.ran_keeps ?_)
          · exact Keeps.refl _ _
          · refine Ends.after (execQcEn_ends _ _) (by decide) ?_
            exact Keeps.refl _ _
        · exact Keeps.refl _ _
      · extract_lets -merge +onlyGivenNames x3
        refine Keeps.of_let x3 ?_ (fun h3 => ?_)
        · unfold x3
          refine Keeps.ite (fun _ => ?_) (fun _ => ?_)
          · refine Keeps.trans ?_ (State.ran_keeps ?_)
            · exact h2
            · refine Ends.after (execQcOffline_ends _ _) (by decide) ?_
              exact Keeps.refl _ _
          · refine Keeps.ite (fun _ => ?_) (fun _ => ?_)
            · refine Keeps.after (State.setBit_keeps _ _ _ _ _) (by decide) ?_
              exact h2
            · exact h2
        · refine Keeps.ite (fun _ => ?_) (fun _ => ?_)
          · refine Keeps.trans ?_ (State.ran_keeps ?_)
            · exact h3
            · refine Ends.after (execQcFullRetrain_ends _ _) (by decide) ?_
              exact Keeps.refl _ _
          · refine Keeps.ite (fun _ => ?_) (fun _ => ?_)
            · refine Keeps.trans ?_ (State.ran_keeps ?_)
              · exact h3
              · refine Ends.after (execQcFastRetrain_ends _ _) (by decide) ?_
                exact Keeps.refl _ _
            · exact h3
    · exact Keeps.refl _ _
  · refine Keeps.after (State.judgeTemp_keeps _ _) (by decide) ?_
    exact Keeps.refl _ _
  · refine Keeps.ite (fun _ => ?_) (fun _ => ?_)
    · refine Keeps.trans ?_ (State.ran_keeps ?_)
      · exact Keeps.refl _ _
      · refine Ends.after (execTslPassNow_ends _) (by decide) ?_
        exact Keeps.refl _ _
    · refine Keeps.ite (fun _ => ?_) (fun _ => ?_)
      · refine Keeps.after (State.settleMed_keeps _) (by decide) ?_
        exact Keeps.refl _ _
      · exact Keeps.refl _ _
  · refine Keeps.after (State.judgeTsl_keeps _) (by decide) ?_
    refine Keeps.after (State.judgeBlank_keeps _) (by decide) ?_
    exact Keeps.refl _ _
  · refine Keeps.ite (fun _ => ?_) (fun _ => ?_)
    · exact Keeps.refl _ _
    · refine Keeps.foldl _ (fun _ _ => ?_) ?_
      · refine Keeps.after (State.fillPass_keeps _ _ _) (by decide) ?_
        exact Keeps.refl _ _
      · exact Keeps.refl _ _
  · extract_lets -merge +onlyGivenNames x1
    refine Keeps.of_let x1 ?_ (fun h1 => ?_)
    · unfold x1
      refine Keeps.ite (fun _ => ?_) (fun _ => ?_)
      · exact Keeps.refl _ _
      · refine Keeps.foldl _ (fun _ _ => ?_) ?_
        · refine Keeps.after (State.fillCal_keeps _ _ _) (by decide) ?_
          exact Keeps.refl _ _
        · exact Keeps.refl _ _
    · refine Keeps.ite (fun _ => ?_) (fun _ => ?_)
      · refine Keeps.trans ?_ (State.ran_keeps ?_)
        · exact h1
        · refine Ends.after (execEybSweep_ends _) (by decide) ?_
          exact Keeps.refl _ _
      · exact h1
  · refine Keeps.after (State.judgeOccupancy_keeps _) (by decide) ?_
    exact Keeps.refl _ _
  · refine Keeps.after (State.settle_keeps _) (by decide) ?_
    exact Keeps.refl _ _
  · refine Keeps.after (State.settle_keeps _) (by decide) ?_
    refine Keeps.after (State.judgeBench_keeps _) (by decide) ?_
    exact Keeps.refl _ _
  · refine Keeps.after (State.settle_keeps _) (by decide) ?_
    refine Keeps.after (State.judgeBench_keeps _) (by decide) ?_
    exact Keeps.refl _ _
  · refine Keeps.after (State.settle_keeps _) (by decide) ?_
    exact Keeps.refl _ _
  · refine Keeps.after (State.judgeXlt_keeps _) (by decide) ?_
    exact Keeps.refl _ _
  · exact Keeps.refl _ _

theorem State.afterPorts_keeps (s : State) (base : Nat) (old : Word) (new : Word) (trig : Word) :
    Keeps [.regs, .evt, .tally, .sched, .nv, .evr, .psq, .chans, .med, .bench, .xlt, .twin, .cxl, .rdma, .sec, .dram, .out, .fresh] s (State.afterPorts s base old new trig) := by
  unfold State.afterPorts
  split
  · refine Keeps.after (State.routeThrough_keeps _) (by decide) ?_
    exact Keeps.refl _ _
  · refine Keeps.after (State.routeThrough_keeps _) (by decide) ?_
    exact Keeps.refl _ _
  · refine Keeps.after (State.tdmEnWrite_keeps _ _) (by decide) ?_
    exact Keeps.refl _ _
  · refine Keeps.ite (fun _ => ?_) (fun _ => ?_)
    · refine Keeps.trans ?_ (State.ran_keeps ?_)
      · exact Keeps.refl _ _
      · refine Ends.after (execTdmLanemapCommit_ends _) (by decide) ?_
        exact Keeps.refl _ _
    · exact Keeps.refl _ _
  · refine Keeps.after (State.cxlEnWrite_keeps _ _ _) (by decide) ?_
    exact Keeps.refl _ _
  · refine Keeps.after (State.judgeCxl_keeps _) (by decide) ?_
    exact Keeps.refl _ _
  · refine Keeps.after (State.ethEnWrite_keeps _ _ _) (by decide) ?_
    exact Keeps.refl _ _
  · refine Keeps.after (State.ptpChoose_keeps _) (by decide) ?_
    exact Keeps.refl _ _
  · refine Keeps.foldl _ (fun _ _ => ?_) ?_
    · refine Keeps.after (State.judgeMac_keeps _ _) (by decide) ?_
      exact Keeps.refl _ _
    · exact Keeps.refl _ _
  · refine Keeps.ite (fun _ => ?_) (fun _ => ?_)
    · refine Keeps.trans ?_ (State.ran_keeps ?_)
      · exact Keeps.refl _ _
      · refine Ends.after (execDrmMapCommit_ends _) (by decide) ?_
        exact Keeps.refl _ _
    · exact Keeps.refl _ _
  · refine Keeps.ite (fun _ => ?_) (fun _ => ?_)
    · refine Keeps.trans ?_ (State.ran_keeps ?_)
      · exact Keeps.refl _ _
      · refine Ends.after (execDrmFreqSwitch_ends _) (by decide) ?_
        exact Keeps.refl _ _
    · exact Keeps.refl _ _
  · refine Keeps.ite (fun _ => ?_) (fun _ => ?_)
    · refine Keeps.trans ?_ (State.ran_keeps ?_)
      · exact Keeps.refl _ _
      · refine Ends.after (execDrmSreqGo_ends _) (by decide) ?_
        exact Keeps.refl _ _
    · exact Keeps.refl _ _
  · refine Keeps.ite (fun _ => ?_) (fun _ => ?_)
    · refine Keeps.after (State.setBit_keeps _ _ _ _ _) (by decide) ?_
      exact Keeps.refl _ _
    · exact Keeps.refl _ _
  · extract_lets -merge +onlyGivenNames x1
    refine Keeps.of_let x1 ?_ (fun h1 => ?_)
    · unfold x1
      refine Keeps.ite (fun _ => ?_) (fun _ => ?_)
      · refine Keeps.after (State.ropRaise_keeps _) (by decide) ?_
        exact Keeps.refl _ _
      · exact Keeps.refl _ _
    · refine Keeps.ite (fun _ => ?_) (fun _ => ?_)
      · refine Keeps.after (State.debugClose_keeps _) (by decide) ?_
        exact h1
      · exact h1
  · refine Keeps.after (State.judgeWait_keeps _) (by decide) ?_
    exact Keeps.refl _ _
  · exact Keeps.refl _ _

theorem State.afterAon_keeps (s : State) (req : Requester) (base : Nat) (old : Word) (new : Word) (trig : Word) :
    Keeps [.regs, .csr, .evt, .tally, .sched, .nv, .evr, .wdg, .psq, .chans, .med, .bench, .xlt, .twin, .cxl, .rdma, .sec, .out, .fresh] s (State.afterAon s req base old new trig) := by
  unfold State.afterAon
  split
  · extract_lets -merge +onlyGivenNames x1
    extract_lets -merge +onlyGivenNames x2
    refine Keeps.of_let x2 ?_ (fun h2 => ?_)
    · unfold x2
      refine Keeps.ite (fun _ => ?_) (fun _ => ?_)
      · refine Keeps.after (State.setTally_keeps _ _) (by decide) ?_
        exact Keeps.refl _ _
      · exact Keeps.refl _ _
    · refine Keeps.after (State.selectSource_keeps _) (by decide) ?_
      refine Keeps.ite (fun _ => ?_) (fun _ => ?_)
      · refine Keeps.after (State.ppsLost_keeps _) (by decide) ?_
        exact h2
      · exact h2
  · refine Keeps.ite (fun _ => ?_) (fun _ => ?_)
    · exact Keeps.refl _ _
    · refine Keeps.after (State.writeDeadline_keeps _) (by decide) ?_
      exact Keeps.refl _ _
  · refine Keeps.ite (fun _ => ?_) (fun _ => ?_)
    · refine Keeps.after (State.deadlineRise_keeps _) (by decide) ?_
      exact Keeps.refl _ _
    · exact Keeps.refl _ _
  · refine Keeps.after (State.wdgEnWrite_keeps _) (by decide) ?_
    exact Keeps.refl _ _
  · refine Keeps.after (State.wdgKick_keeps _ _) (by decide) ?_
    exact Keeps.refl _ _
  · refine Keeps.after (State.nvWrite_keeps _ _ _) (by decide) ?_
    exact Keeps.refl _ _
  · refine Keeps.ite (fun _ => ?_) (fun _ => ?_)
    · refine Keeps.after (State.seqCommit_keeps _ _) (by decide) ?_
      exact Keeps.refl _ _
    · exact Keeps.refl _ _
  · refine Keeps.ite (fun _ => ?_) (fun _ => ?_)
    · refine Keeps.after (State.mapCommit_keeps _ _) (by decide) ?_
      exact Keeps.refl _ _
    · exact Keeps.refl _ _
  · exact Keeps.refl _ _

theorem State.schedWrite_keeps (s : State) (base : Nat) (k : Nat) (kind : AccessKind) (data : Word) :
    KeepsO [.sched, .nv] s (State.schedWrite s base k kind data) := by
  unfold State.schedWrite
  split
  · refine KeepsO.some ?_
    refine Keeps.after (State.writeSlot_keeps _ _ _ _ _) (by decide) ?_
    exact Keeps.refl _ _
  · refine KeepsO.some ?_
    refine Keeps.after (State.writeSlot_keeps _ _ _ _ _) (by decide) ?_
    exact Keeps.refl _ _
  · refine KeepsO.some ?_
    refine Keeps.after (State.writeSlot_keeps _ _ _ _ _) (by decide) ?_
    exact Keeps.refl _ _
  · refine KeepsO.some ?_
    refine Keeps.after (State.writeSlot_keeps _ _ _ _ _) (by decide) ?_
    exact Keeps.refl _ _
  · refine KeepsO.some ?_
    refine Keeps.after (State.writeSlot_keeps _ _ _ _ _) (by decide) ?_
    exact Keeps.refl _ _
  · exact KeepsO.none

theorem State.writeReg_keeps (s : State) (req : Requester) (r : Reg) (k : Nat) (kind : AccessKind) (data : Word) :
    Keeps [.regs, .csr, .evt, .tally, .sched, .nv, .evr, .wdg, .psq, .chans, .med, .bench, .xlt, .twin, .cxl, .rdma, .sec, .dram, .out, .fresh] s (State.writeReg s req r k kind data) := by
  unfold State.writeReg
  split
  · refine Keeps.of_some (by assumption) ?_
    refine KeepsO.after (State.schedWrite_keeps _ _ _ _ _) (by decide) ?_
    exact Keeps.refl _ _
  · extract_lets -merge +onlyGivenNames x1
    split
    extract_lets -merge +onlyGivenNames x2
    extract_lets -merge +onlyGivenNames x3
    refine Keeps.of_let x3 ?_ (fun h3 => ?_)
    · unfold x3
      refine Keeps.ite (fun _ => ?_) (fun _ => ?_)
      · refine Keeps.after (State.lockViolation_keeps _ _ _) (by decide) ?_
        exact Keeps.refl _ _
      · exact Keeps.refl _ _
    · split
      · refine Keeps.after (State.pendWrite_keeps _ _ _) (by decide) ?_
        exact h3
      · refine Keeps.after (State.setReg_keeps _ _ _ _) (by decide) ?_
        exact h3
      · extract_lets -merge +onlyGivenNames x4
        refine Keeps.after (State.putBucket_keeps _ _ _) (by decide) ?_
        exact h3
      · extract_lets -merge +onlyGivenNames x4
        refine Keeps.after (State.putBucket_keeps _ _ _) (by decide) ?_
        exact h3
      · extract_lets -merge +onlyGivenNames x4
        extract_lets -merge +onlyGivenNames x5
        refine Keeps.of_let x5 ?_ (fun h5 => ?_)
        · unfold x5
          refine Keeps.after (State.setChan_keeps _ _ _) (by decide) ?_
          exact h3
        · refine Keeps.ite (fun _ => ?_) (fun _ => ?_)
          · refine Keeps.after (State.mbxInReset_keeps _ _) (by decide) ?_
            exact h5
          · exact h5
      · refine Keeps.after (State.mbxIn_keeps _ _ _) (by decide) ?_
        exact h3
      · refine Keeps.ite (fun _ => ?_) (fun _ => ?_)
        · refine Keeps.after (State.mbxBell_keeps _ _) (by decide) ?_
          exact h3
        · exact h3
      · refine Keeps.after (State.mbxPop_keeps _ _ _) (by decide) ?_
        exact h3
      · extract_lets -merge +onlyGivenNames x4
        refine Keeps.of_let x4 ?_ (fun h4 => ?_)
        · unfold x4
          refine Keeps.after (State.setReg_keeps _ _ _ _) (by decide) ?_
          exact h3
        · refine Keeps.after (State.afterAon_keeps _ _ _ _ _ _) (by decide) ?_
          refine Keeps.after (State.afterPorts_keeps _ _ _ _ _) (by decide) ?_
          refine Keeps.after (State.afterMed_keeps _ _ _ _ _ _) (by decide) ?_
          refine Keeps.after (State.causeWritten_keeps _ _ _ _) (by decide) ?_
          exact h4

theorem State.seqWrite_keeps (s : State) (req : Requester) (off : Nat) (i : Nat) (kind : AccessKind) (data : Word) :
    Keeps [.regs, .csr, .evt, .nv, .evr, .psq, .chans, .cxl, .out] s (State.seqWrite s req off i kind data) := by
  unfold State.seqWrite
  refine Keeps.ite (fun _ => ?_) (fun _ => ?_)
  · refine Keeps.after (State.lockViolation_keeps _ _ _) (by decide) ?_
    exact Keeps.refl _ _
  · extract_lets -merge +onlyGivenNames x1
    refine Keeps.after (State.nvWrite_keeps _ _ _) (by decide) ?_
    refine Keeps.after (State.setPsq_keeps _ _) (by decide) ?_
    exact Keeps.refl _ _

theorem State.applyWord_keeps (s : State) (req : Requester) (off : Nat) (kind : AccessKind) (data : Word) :
    Keeps [.regs, .csr, .evt, .tally, .sched, .nv, .evr, .wdg, .psq, .chans, .med, .bench, .xlt, .twin, .cxl, .rdma, .sec, .dram, .out, .fresh] s (State.applyWord s req off kind data) := by
  unfold State.applyWord
  split
  · refine Keeps.after (State.writeReg_keeps _ _ _ _ _ _) (by decide) ?_
    exact Keeps.refl _ _
  · split
    · refine Keeps.after (State.seqWrite_keeps _ _ _ _ _ _) (by decide) ?_
      exact Keeps.refl _ _
    · exact Keeps.refl _ _
    · split
      · refine Keeps.after (State.legacyWrite_keeps _ _ _ _ _) (by decide) ?_
        exact Keeps.refl _ _
      · exact Keeps.refl _ _

theorem State.applyPair_keeps (s : State) (req : Requester) (r : Reg) (k : Nat) (lo : Word) (hi : Word) :
    Keeps [.regs, .csr, .evt, .tally, .sched, .nv, .evr, .wdg, .psq, .chans, .med, .bench, .xlt, .twin, .cxl, .rdma, .sec, .dram, .out, .fresh] s (State.applyPair s req r k lo hi) := by
  unfold State.applyPair
  refine Keeps.ite (fun _ => ?_) (fun _ => ?_)
  · refine Keeps.after (State.writeSlotTime_keeps _ _ _) (by decide) ?_
    exact Keeps.refl _ _
  · refine Keeps.after (State.applyWord_keeps _ _ _ _ _) (by decide) ?_
    refine Keeps.after (State.applyWord_keeps _ _ _ _ _) (by decide) ?_
    exact Keeps.refl _ _

theorem State.applyPosted_keeps (s : State) (w : PostedWrite) :
    Keeps [.regs, .csr, .evt, .tally, .sched, .nv, .evr, .wdg, .psq, .chans, .med, .bench, .xlt, .twin, .cxl, .rdma, .sec, .dram, .out, .fresh] s (State.applyPosted s w) := by
  unfold State.applyPosted
  split
  · refine Keeps.after (State.applyPair_keeps _ _ _ _ _ _) (by decide) ?_
    exact Keeps.refl _ _
  · refine Keeps.after (State.applyWord_keeps _ _ _ _ _) (by decide) ?_
    exact Keeps.refl _ _

theorem State.post_keeps (s : State) (w : PostedWrite) :
    Keeps [.csr] s (State.post s w) := by
  unfold State.post
  refine Keeps.set_csr (by decide) ?_
  exact Keeps.refl _ _

theorem State.writeWord_keeps (s : State) (req : Requester) (off : Nat) (kind : AccessKind) (data : Word) :
    Keeps [.regs, .csr, .evt, .tally, .sched, .nv, .evr, .wdg, .psq, .chans, .med, .bench, .xlt, .twin, .cxl, .rdma, .sec, .dram, .out, .fresh] s (State.writeWord s req off kind data) := by
  unfold State.writeWord
  extract_lets -merge +onlyGivenNames x1
  extract_lets -merge +onlyGivenNames x2
  extract_lets -merge +onlyGivenNames x3
  extract_lets -merge +onlyGivenNames x4
  refine Keeps.of_let x4 ?_ (fun h4 => ?_)
  · unfold x4
    refine Keeps.set_csr (by decide) ?_
    exact Keeps.refl _ _
  · clear_value x1
    split
    · refine Keeps.set_csr (by decide) ?_
      exact Keeps.refl _ _
    · refine Keeps.ite (fun _ => ?_) (fun _ => ?_)
      · refine Keeps.after (State.hashKeyWrite_keeps _ _ _ _) (by decide) ?_
        exact Keeps.refl _ _
      · refine Keeps.ite (fun _ => ?_) (fun _ => ?_)
        · refine Keeps.after (State.post_keeps _ _) (by decide) ?_
          exact h4
        · clear_value x2
          split
          · refine Keeps.after (State.applyPair_keeps _ _ _ _ _ _) (by decide) ?_
            exact h4
          · refine Keeps.after (State.applyWord_keeps _ _ _ _ _) (by decide) ?_
            exact h4
    · refine Keeps.ite (fun _ => ?_) (fun _ => ?_)
      · refine Keeps.after (State.post_keeps _ _) (by decide) ?_
        exact Keeps.refl _ _
      · refine Keeps.after (State.applyWord_keeps _ _ _ _ _) (by decide) ?_
        exact Keeps.refl _ _

theorem State.readWord_keeps (s : State) (req : Requester) (off : Nat) :
    KeepsP [.csr] s (State.readWord s req off) := by
  unfold State.readWord
  split
  · exact KeepsP.none
  · extract_lets -merge +onlyGivenNames x1
    extract_lets -merge +onlyGivenNames x2
    extract_lets -merge +onlyGivenNames x3
    extract_lets -merge +onlyGivenNames x4
    clear_value x1
    split
    · refine KeepsP.some ?_
      dsimp only
      unfold x4
      refine Keeps.set_csr (by decide) ?_
      exact Keeps.refl _ _
    · split
      · refine KeepsP.some ?_
        dsimp only
        unfold x4
        refine Keeps.set_csr (by decide) ?_
        exact Keeps.refl _ _
      · refine KeepsP.some ?_
        dsimp only
        exact Keeps.refl _ _
    · refine KeepsP.some ?_
      dsimp only
      exact Keeps.refl _ _

theorem State.busRead_keeps (s : State) (a : BusAccess) :
    Keeps [.regs, .csr, .evt, .evr, .chans, .cxl, .out] s (State.busRead s a) := by
  unfold State.busRead
  extract_lets -merge +onlyGivenNames x1
  refine Keeps.ite (fun _ => ?_) (fun _ => ?_)
  · exact Keeps.refl _ _
  · refine Keeps.ite (fun _ => ?_) (fun _ => ?_)
    · unfold x1
      refine Keeps.after (State.busError_keeps _ _ _ _ _) (by decide) ?_
      exact Keeps.refl _ _
    · refine Keeps.ite (fun _ => ?_) (fun _ => ?_)
      · unfold x1
        refine Keeps.after (State.busError_keeps _ _ _ _ _) (by decide) ?_
        exact Keeps.refl _ _
      · split
        · unfold x1
          refine Keeps.after (State.busError_keeps _ _ _ _ _) (by decide) ?_
          exact Keeps.refl _ _
        · refine Keeps.ite (fun _ => ?_) (fun _ => ?_)
          · refine Keeps.after (State.emit_keeps _ _) (by decide) ?_
            refine Keeps.of_some_fst (by assumption) ?_
            refine KeepsP.after (State.readWord_keeps _ _ _) (by decide) ?_
            exact Keeps.refl _ _
          · split
            · refine Keeps.after (State.emit_keeps _ _) (by decide) ?_
              refine Keeps.of_some_fst (by assumption) ?_
              refine KeepsP.after (State.readWord_keeps _ _ _) (by decide) ?_
              refine Keeps.of_some_fst (by assumption) ?_
              refine KeepsP.after (State.readWord_keeps _ _ _) (by decide) ?_
              exact Keeps.refl _ _
            · refine Keeps.of_some_fst (by assumption) ?_
              refine KeepsP.after (State.readWord_keeps _ _ _) (by decide) ?_
              exact Keeps.refl _ _

theorem State.busWrite_keeps (s : State) (a : BusAccess) :
    Keeps [.regs, .csr, .evt, .tally, .sched, .nv, .evr, .wdg, .psq, .chans, .med, .bench, .xlt, .twin, .cxl, .rdma, .sec, .dram, .out, .fresh] s (State.busWrite s a) := by
  unfold State.busWrite
  refine Keeps.ite (fun _ => ?_) (fun _ => ?_)
  · refine Keeps.after (State.busError_keeps _ _ _ _ _) (by decide) ?_
    exact Keeps.refl _ _
  · split
    · refine Keeps.after (State.busError_keeps _ _ _ _ _) (by decide) ?_
      exact Keeps.refl _ _
    · refine Keeps.ite (fun _ => ?_) (fun _ => ?_)
      · refine Keeps.after (State.writeWord_keeps _ _ _ _ _) (by decide) ?_
        refine Keeps.after (State.writeWord_keeps _ _ _ _ _) (by decide) ?_
        exact Keeps.refl _ _
      · refine Keeps.after (State.writeWord_keeps _ _ _ _ _) (by decide) ?_
        exact Keeps.refl _ _

theorem State.busAccess_keeps (s : State) (a : BusAccess) :
    Keeps [.regs, .csr, .evt, .tally, .sched, .nv, .evr, .wdg, .psq, .chans, .med, .bench, .xlt, .twin, .cxl, .rdma, .sec, .dram, .out, .fresh] s (State.busAccess s a) := by
  unfold State.busAccess
  refine Keeps.ite (fun _ => ?_) (fun _ => ?_)
  · exact Keeps.refl _ _
  · refine Keeps.ite (fun _ => ?_) (fun _ => ?_)
    · refine Keeps.set_csr (by decide) ?_
      exact Keeps.refl _ _
    · refine Keeps.ite (fun _ => ?_) (fun _ => ?_)
      · refine Keeps.after (State.busRead_keeps _ _) (by decide) ?_
        exact Keeps.refl _ _
      · refine Keeps.after (State.busWrite_keeps _ _) (by decide) ?_
        exact Keeps.refl _ _

theorem State.busResume_keeps (s : State) :
    Keeps [.regs, .csr, .evt, .tally, .sched, .nv, .evr, .wdg, .psq, .chans, .med, .bench, .xlt, .twin, .cxl, .rdma, .sec, .dram, .out, .fresh] s (State.busResume s) := by
  unfold State.busResume
  refine Keeps.foldl _ (fun _ _ => ?_) ?_
  · refine Keeps.after (State.busAccess_keeps _ _) (by decide) ?_
    exact Keeps.refl _ _
  · refine Keeps.set_csr (by decide) ?_
    exact Keeps.refl _ _

theorem State.csrWrite_keeps (s : State) (req : Requester) (off : Nat) (kind : AccessKind) (size : Nat) (full : Bool) (data : Dword) :
    Keeps [.regs, .csr, .evt, .tally, .sched, .nv, .evr, .wdg, .psq, .chans, .med, .bench, .xlt, .twin, .cxl, .rdma, .sec, .dram, .out, .fresh] s (State.csrWrite s req off kind size full data) := by
  unfold State.csrWrite
  refine Keeps.after (State.busAccess_keeps _ _) (by decide) ?_
  exact Keeps.refl _ _

theorem execAliasWrite_ends (req : Requester) (kind : AccessKind) (off : Fin 4194304) (size : Nat) (full : Bool) (data : Word) (s : State) :
    Ends [.regs, .csr, .evt, .tally, .sched, .nv, .evr, .wdg, .psq, .chans, .med, .bench, .xlt, .twin, .cxl, .rdma, .sec, .dram, .out, .fresh] s (execAliasWrite req kind off size full data s) := by
  unfold execAliasWrite
  refine Ends.next ?_
  refine Keeps.ite (fun _ => ?_) (fun _ => ?_)
  · exact Keeps.refl _ _
  · refine Keeps.after (State.csrWrite_keeps _ _ _ _ _ _ _) (by decide) ?_
    exact Keeps.refl _ _

theorem execSchedSlotWrite_ends (k : Fin 256) (word : Fin 6) (kind : AccessKind) (data : Word) (s : State) :
    Ends [.csr, .sched, .nv] s (execSchedSlotWrite k word kind data s) := by
  unfold execSchedSlotWrite
  refine Ends.ite (fun _ => ?_) (fun _ => ?_)
  · refine Ends.next ?_
    exact Keeps.refl _ _
  · extract_lets -merge +onlyGivenNames x1
    extract_lets -merge +onlyGivenNames x2
    extract_lets -merge +onlyGivenNames x3
    refine Ends.ite (fun _ => ?_) (fun _ => ?_)
    · refine Ends.next ?_
      refine Keeps.set_csr (by decide) ?_
      exact Keeps.refl _ _
    · refine Ends.ite (fun _ => ?_) (fun _ => ?_)
      · split
        · refine Ends.next ?_
          refine Keeps.after (State.writeSlotTime_keeps _ _ _) (by decide) ?_
          refine Keeps.set_csr (by decide) ?_
          exact Keeps.refl _ _
        · refine Ends.next ?_
          refine Keeps.after (State.writeSlot_keeps _ _ _ _ _) (by decide) ?_
          exact Keeps.refl _ _
      · refine Ends.next ?_
        refine Keeps.after (State.writeSlot_keeps _ _ _ _ _) (by decide) ?_
        exact Keeps.refl _ _

/-! ### AzOps -/

theorem State.okay_state (s : State) (ws : List Word) :
    Keeps [] s (State.okay s ws).state := by
  unfold State.okay
  dsimp only
  exact Keeps.refl _ _

theorem State.okay_after (s : State) (ws : List Word) (v : State) :
    Keeps [] v (State.okay s ws |>.after v) := by
  unfold State.okay
  dsimp only
  dsimp only [id]
  exact Keeps.refl _ _

theorem State.later_state (s : State) (keep : List Word) :
    Keeps [] s (State.later s keep).state := by
  unfold State.later
  dsimp only
  exact Keeps.refl _ _

theorem State.later_after (s : State) (keep : List Word) (v : State) :
    Keeps [] v (State.later s keep |>.after v) := by
  unfold State.later
  dsimp only
  dsimp only [id]
  exact Keeps.refl _ _

theorem State.bad_state (s : State) (i : Nat) :
    Keeps [] s (State.bad s i).state := by
  unfold State.bad
  dsimp only
  exact Keeps.refl _ _

theorem State.bad_after (s : State) (i : Nat) (v : State) :
    Keeps [] v (State.bad s i |>.after v) := by
  unfold State.bad
  dsimp only
  dsimp only [id]
  exact Keeps.refl _ _

theorem State.refuse_state (s : State) (st : Status) :
    Keeps [] s (State.refuse s st).state := by
  unfold State.refuse
  dsimp only
  exact Keeps.refl _ _

theorem State.refuse_after (s : State) (st : Status) (v : State) :
    Keeps [] v (State.refuse s st |>.after v) := by
  unfold State.refuse
  dsimp only
  dsimp only [id]
  exact Keeps.refl _ _

theorem State.azTake_keeps {w : List Part} {s : State} {r : AzReq} {op : Nat} {permitted : Bool} {lens : Nat → Bool} {pends : Bool}
    {body : State → Answer} (hw : [Part.regs, .evt, .tally, .evr, .psq, .chans, .med, .cxl, .out] ⊆ w)
    (hs : ∀ u, Keeps w u (body u).state) (ha : ∀ u v, Keeps w v ((body u).after v)) :
    Keeps w s (s.azTake r op permitted lens pends body) := by
  unfold State.azTake
  exact Keeps.ite (fun _ => Keeps.refl _ _) (fun _ => State.take_keeps hw hs ha)

theorem State.chanSave_keeps (s : State) (c : Nat) :
    Keeps [.nv] s (State.chanSave s c) := by
  unfold State.chanSave
  extract_lets -merge +onlyGivenNames x1
  extract_lets -merge +onlyGivenNames x2
  refine Keeps.after (State.nvWrite_keeps _ _ _) (by decide) ?_
  exact Keeps.refl _ _

theorem State.routeSave_keeps (s : State) (n : Nat) (v : Option Word) :
    Keeps [.nv] s (State.routeSave s n v) := by
  unfold State.routeSave
  extract_lets -merge +onlyGivenNames x1
  refine Keeps.after (State.nvWrite_keeps _ _ _) (by decide) ?_
  exact Keeps.refl _ _

theorem State.routesDrop_keeps (s : State) (c : Nat) (ld : Option Nat) :
    Keeps [.regs, .evt, .nv] s (State.routesDrop s c ld) := by
  unfold State.routesDrop
  extract_lets -merge +onlyGivenNames x1
  refine Keeps.after (State.routeThrough_keeps _) (by decide) ?_
  refine Keeps.foldl _ (fun _ _ => ?_) ?_
  · extract_lets -merge +onlyGivenNames x2
    extract_lets -merge +onlyGivenNames x3
    extract_lets -merge +onlyGivenNames x4
    refine Keeps.ite (fun _ => ?_) (fun _ => ?_)
    · refine Keeps.after (State.setReg_keeps _ _ _ _) (by decide) ?_
      refine Keeps.after (State.routeSave_keeps _ _ _) (by decide) ?_
      exact Keeps.refl _ _
    · exact Keeps.refl _ _
  · exact Keeps.refl _ _

theorem State.pdDestroy_keeps (s : State) (i : Nat) :
    Keeps [.rdma] s (State.pdDestroy s i) := by
  unfold State.pdDestroy
  refine Keeps.set_rdma (by decide) ?_
  exact Keeps.refl _ _

theorem State.slotFree_keeps (s : State) (k : Nat) :
    Keeps [.sched, .nv] s (State.slotFree s k) := by
  unfold State.slotFree
  refine Keeps.after (State.saveSlot_keeps _ _) (by decide) ?_
  refine Keeps.after (State.setSlot_keeps _ _ _) (by decide) ?_
  exact Keeps.refl _ _

theorem State.chanStrip_keeps (s : State) (c : Nat) :
    Keeps [.regs, .evt, .sched, .nv, .chans, .xlt, .rdma] s (State.chanStrip s c) := by
  unfold State.chanStrip
  extract_lets -merge +onlyGivenNames x1
  extract_lets -merge +onlyGivenNames x2
  refine Keeps.of_let x2 ?_ (fun h2 => ?_)
  · unfold x2
    refine Keeps.foldl _ (fun _ _ => ?_) ?_
    · refine Keeps.after (State.pdDestroy_keeps _ _) (by decide) ?_
      exact Keeps.refl _ _
    · exact Keeps.refl _ _
  · extract_lets -merge +onlyGivenNames x3
    extract_lets -merge +onlyGivenNames x4
    refine Keeps.of_let x4 ?_ (fun h4 => ?_)
    · unfold x4
      refine Keeps.after (State.setXlt_keeps _ _) (by decide) ?_
      exact h2
    · extract_lets -merge +onlyGivenNames x5
      refine Keeps.of_let x5 ?_ (fun h5 => ?_)
      · unfold x5
        refine Keeps.foldl _ (fun _ _ => ?_) ?_
        · refine Keeps.after (State.slotFree_keeps _ _) (by decide) ?_
          exact Keeps.refl _ _
        · exact h4
      · refine Keeps.after (State.routesDrop_keeps _ _ _) (by decide) ?_
        refine Keeps.after (State.setChan_keeps _ _ _) (by decide) ?_
        exact h5

theorem State.reassign_keeps (s : State) (c : Nat) (who : Principal) :
    Keeps [.regs, .evt, .sched, .nv, .evr, .chans, .xlt, .cxl, .rdma, .out, .fresh] s (State.reassign s c who) := by
  unfold State.reassign
  extract_lets -merge +onlyGivenNames x1
  extract_lets -merge +onlyGivenNames x2
  extract_lets -merge +onlyGivenNames x3
  refine Keeps.of_let x3 ?_ (fun h3 => ?_)
  · unfold x3
    refine Keeps.ite (fun _ => ?_) (fun _ => ?_)
    · exact Keeps.refl _ _
    · refine Keeps.after (State.chanStrip_keeps _ _) (by decide) ?_
      exact Keeps.refl _ _
  · extract_lets -merge +onlyGivenNames x4
    extract_lets -merge +onlyGivenNames x5
    refine Keeps.of_let x5 ?_ (fun h5 => ?_)
    · unfold x5
      refine Keeps.after (State.draw_keeps _) (by decide) ?_
      exact h3
    · extract_lets -merge +onlyGivenNames x6
      extract_lets -merge +onlyGivenNames x7
      extract_lets -merge +onlyGivenNames x8
      refine Keeps.of_let x8 ?_ (fun h8 => ?_)
      · unfold x8
        refine Keeps.ite (fun _ => ?_) (fun _ => ?_)
        · refine Keeps.after (State.draw_keeps _) (by decide) ?_
          exact h5
        · exact h5
      · refine Keeps.after (State.cause_keeps _ _ _ _ _) (by decide) ?_
        refine Keeps.after (State.chanSave_keeps _ _) (by decide) ?_
        refine Keeps.after (State.setChan_keeps _ _ _) (by decide) ?_
        exact h8

/-! ### AzChan -/

theorem State.azIdentify_keeps (s : State) (r : AzReq) :
    Keeps [.regs, .evt, .tally, .evr, .psq, .chans, .med, .cxl, .out] s (State.azIdentify s r) := by
  unfold State.azIdentify
  refine Keeps.trans ?_ (State.azTake_keeps (by decide) (fun _ => ?_) (fun _ _ => ?_))
  · exact Keeps.refl _ _
  · extract_lets -merge +onlyGivenNames x1
    dsimp only [State.bad, State.okay, State.refuse, State.later]
    exact Keeps.refl _ _
  · extract_lets -merge +onlyGivenNames x1
    dsimp only [State.bad, State.okay, State.refuse, State.later]
    dsimp only [id]
    exact Keeps.refl _ _

theorem State.azDeviceStatus_keeps (s : State) (r : AzReq) :
    Keeps [.regs, .evt, .tally, .evr, .psq, .chans, .med, .cxl, .out] s (State.azDeviceStatus s r) := by
  unfold State.azDeviceStatus
  refine Keeps.trans ?_ (State.azTake_keeps (by decide) (fun _ => ?_) (fun _ _ => ?_))
  · exact Keeps.refl _ _
  · dsimp only [State.bad, State.okay, State.refuse, State.later]
    exact Keeps.refl _ _
  · dsimp only [State.bad, State.okay, State.refuse, State.later]
    dsimp only [id]
    exact Keeps.refl _ _

theorem State.azChannelAssign_keeps (s : State) (r : AzReq) :
    Keeps [.regs, .evt, .tally, .sched, .nv, .evr, .psq, .chans, .med, .xlt, .cxl, .rdma, .out, .fresh] s (State.azChannelAssign s r) := by
  unfold State.azChannelAssign
  refine Keeps.trans ?_ (State.azTake_keeps (by decide) (fun _ => ?_) (fun _ _ => ?_))
  · exact Keeps.refl _ _
  · extract_lets -merge +onlyGivenNames x1
    extract_lets -merge +onlyGivenNames x2
    refine Keeps.ite_st (fun _ => ?_) (fun _ => ?_)
    · dsimp only [State.bad, State.okay, State.refuse, State.later]
      exact Keeps.refl _ _
    · refine Keeps.ite_st (fun _ => ?_) (fun _ => ?_)
      · dsimp only [State.bad, State.okay, State.refuse, State.later]
        exact Keeps.refl _ _
      · refine Keeps.ite_st (fun _ => ?_) (fun _ => ?_)
        · dsimp only [State.bad, State.okay, State.refuse, State.later]
          exact Keeps.refl _ _
        · extract_lets -merge +onlyGivenNames x3
          extract_lets -merge +onlyGivenNames x4
          refine Keeps.of_let x4 ?_ (fun h4 => ?_)
          · unfold x4
            refine Keeps.after (State.reassign_keeps _ _ _) (by decide) ?_
            exact Keeps.refl _ _
          · dsimp only [State.bad, State.okay, State.refuse, State.later]
            exact h4
  · extract_lets -merge +onlyGivenNames x1
    extract_lets -merge +onlyGivenNames x2
    refine Keeps.ite_af (fun _ => ?_) (fun _ => ?_)
    · dsimp only [State.bad, State.okay, State.refuse, State.later]
      dsimp only [id]
      exact Keeps.refl _ _
    · refine Keeps.ite_af (fun _ => ?_) (fun _ => ?_)
      · dsimp only [State.bad, State.okay, State.refuse, State.later]
        dsimp only [id]
        exact Keeps.refl _ _
      · refine Keeps.ite_af (fun _ => ?_) (fun _ => ?_)
        · dsimp only [State.bad, State.okay, State.refuse, State.later]
          dsimp only [id]
          exact Keeps.refl _ _
        · extract_lets -merge +onlyGivenNames x3
          extract_lets -merge +onlyGivenNames x4
          dsimp only [State.bad, State.okay, State.refuse, State.later]
          dsimp only [id]
          exact Keeps.refl _ _

theorem State.azChannelMode_keeps (s : State) (r : AzReq) :
    Keeps [.regs, .evt, .tally, .nv, .evr, .psq, .chans, .med, .cxl, .out] s (State.azChannelMode s r) := by
  unfold State.azChannelMode
  extract_lets -merge +onlyGivenNames x1
  refine Keeps.trans ?_ (State.azTake_keeps (by decide) (fun _ => ?_) (fun _ _ => ?_))
  · exact Keeps.refl _ _
  · extract_lets -merge +onlyGivenNames x2
    extract_lets -merge +onlyGivenNames x3
    refine Keeps.ite_st (fun _ => ?_) (fun _ => ?_)
    · dsimp only [State.bad, State.okay, State.refuse, State.later]
      exact Keeps.refl _ _
    · refine Keeps.ite_st (fun _ => ?_) (fun _ => ?_)
      · dsimp only [State.bad, State.okay, State.refuse, State.later]
        exact Keeps.refl _ _
      · extract_lets -merge +onlyGivenNames x4
        dsimp only
        unfold x4
        dsimp only [State.bad, State.okay, State.refuse, State.later]
        exact Keeps.refl _ _
  · extract_lets -merge +onlyGivenNames x2
    extract_lets -merge +onlyGivenNames x3
    refine Keeps.ite_af (fun _ => ?_) (fun _ => ?_)
    · dsimp only [State.bad, State.okay, State.refuse, State.later]
      dsimp only [id]
      exact Keeps.refl _ _
    · refine Keeps.ite_af (fun _ => ?_) (fun _ => ?_)
      · dsimp only [State.bad, State.okay, State.refuse, State.later]
        dsimp only [id]
        exact Keeps.refl _ _
      · extract_lets -merge +onlyGivenNames x4
        dsimp only
        refine Keeps.after (State.chanSave_keeps _ _) (by decide) ?_
        refine Keeps.after (State.setChan_keeps _ _ _) (by decide) ?_
        exact Keeps.refl _ _

theorem State.azCmdStatus_keeps (s : State) (r : AzReq) :
    Keeps [.regs, .evt, .tally, .evr, .psq, .chans, .med, .cxl, .out] s (State.azCmdStatus s r) := by
  unfold State.azCmdStatus
  refine Keeps.trans ?_ (State.azTake_keeps (by decide) (fun _ => ?_) (fun _ _ => ?_))
  · exact Keeps.refl _ _
  · extract_lets -merge +onlyGivenNames x1
    extract_lets -merge +onlyGivenNames x2
    refine Keeps.ite_st (fun _ => ?_) (fun _ => ?_)
    · dsimp only [State.bad, State.okay, State.refuse, State.later]
      exact Keeps.refl _ _
    · refine Keeps.ite_st (fun _ => ?_) (fun _ => ?_)
      · dsimp only [State.bad, State.okay, State.refuse, State.later]
        exact Keeps.refl _ _
      · split
        · dsimp only [State.bad, State.okay, State.refuse, State.later]
          exact Keeps.refl _ _
        · dsimp only [State.bad, State.okay, State.refuse, State.later]
          exact Keeps.refl _ _
  · extract_lets -merge +onlyGivenNames x1
    extract_lets -merge +onlyGivenNames x2
    refine Keeps.ite_af (fun _ => ?_) (fun _ => ?_)
    · dsimp only [State.bad, State.okay, State.refuse, State.later]
      dsimp only [id]
      exact Keeps.refl _ _
    · refine Keeps.ite_af (fun _ => ?_) (fun _ => ?_)
      · dsimp only [State.bad, State.okay, State.refuse, State.later]
        dsimp only [id]
        exact Keeps.refl _ _
      · split
        · dsimp only [State.bad, State.okay, State.refuse, State.later]
          dsimp only [id]
          exact Keeps.refl _ _
        · dsimp only [State.bad, State.okay, State.refuse, State.later]
          dsimp only [id]
          exact Keeps.refl _ _

theorem State.azRouteSet_keeps (s : State) (r : AzReq) :
    Keeps [.regs, .evt, .tally, .nv, .evr, .psq, .chans, .med, .cxl, .out] s (State.azRouteSet s r) := by
  unfold State.azRouteSet
  refine Keeps.trans ?_ (State.azTake_keeps (by decide) (fun _ => ?_) (fun _ _ => ?_))
  · exact Keeps.refl _ _
  · refine Keeps.ite_st (fun _ => ?_) (fun _ => ?_)
    · dsimp only [State.bad, State.okay, State.refuse, State.later]
      exact Keeps.refl _ _
    · refine Keeps.ite_st (fun _ => ?_) (fun _ => ?_)
      · dsimp only [State.bad, State.okay, State.refuse, State.later]
        exact Keeps.refl _ _
      · dsimp only [State.bad, State.okay, State.refuse, State.later]
        refine Keeps.after (State.routeThrough_keeps _) (by decide) ?_
        refine Keeps.after (State.setReg_keeps _ _ _ _) (by decide) ?_
        refine Keeps.after (State.routeSave_keeps _ _ _) (by decide) ?_
        exact Keeps.refl _ _
  · refine Keeps.ite_af (fun _ => ?_) (fun _ => ?_)
    · dsimp only [State.bad, State.okay, State.refuse, State.later]
      dsimp only [id]
      exact Keeps.refl _ _
    · refine Keeps.ite_af (fun _ => ?_) (fun _ => ?_)
      · dsimp only [State.bad, State.okay, State.refuse, State.later]
        dsimp only [id]
        exact Keeps.refl _ _
      · dsimp only [State.bad, State.okay, State.refuse, State.later]
        dsimp only [id]
        exact Keeps.refl _ _

theorem State.azRouteGet_keeps (s : State) (r : AzReq) :
    Keeps [.regs, .evt, .tally, .evr, .psq, .chans, .med, .cxl, .out] s (State.azRouteGet s r) := by
  unfold State.azRouteGet
  refine Keeps.trans ?_ (State.azTake_keeps (by decide) (fun _ => ?_) (fun _ _ => ?_))
  · exact Keeps.refl _ _
  · refine Keeps.ite_st (fun _ => ?_) (fun _ => ?_)
    · dsimp only [State.bad, State.okay, State.refuse, State.later]
      exact Keeps.refl _ _
    · dsimp only [State.bad, State.okay, State.refuse, State.later]
      exact Keeps.refl _ _
  · refine Keeps.ite_af (fun _ => ?_) (fun _ => ?_)
    · dsimp only [State.bad, State.okay, State.refuse, State.later]
      dsimp only [id]
      exact Keeps.refl _ _
    · dsimp only [State.bad, State.okay, State.refuse, State.later]
      dsimp only [id]
      exact Keeps.refl _ _

theorem State.azStageWrite_keeps (s : State) (r : AzReq) :
    Keeps [.regs, .evt, .tally, .evr, .psq, .chans, .med, .cxl, .out] s (State.azStageWrite s r) := by
  unfold State.azStageWrite
  refine Keeps.trans ?_ (State.azTake_keeps (by decide) (fun _ => ?_) (fun _ _ => ?_))
  · exact Keeps.refl _ _
  · refine Keeps.ite_st (fun _ => ?_) (fun _ => ?_)
    · dsimp only [State.bad, State.okay, State.refuse, State.later]
      exact Keeps.refl _ _
    · dsimp only [State.bad, State.okay, State.refuse, State.later]
      refine Keeps.after (State.stageWords_keeps _ _ _ _) (by decide) ?_
      exact Keeps.refl _ _
  · refine Keeps.ite_af (fun _ => ?_) (fun _ => ?_)
    · dsimp only [State.bad, State.okay, State.refuse, State.later]
      dsimp only [id]
      exact Keeps.refl _ _
    · dsimp only [State.bad, State.okay, State.refuse, State.later]
      dsimp only [id]
      exact Keeps.refl _ _

theorem State.azStageRead_keeps (s : State) (r : AzReq) :
    Keeps [.regs, .evt, .tally, .evr, .psq, .chans, .med, .cxl, .out] s (State.azStageRead s r) := by
  unfold State.azStageRead
  refine Keeps.trans ?_ (State.azTake_keeps (by decide) (fun _ => ?_) (fun _ _ => ?_))
  · exact Keeps.refl _ _
  · refine Keeps.ite_st (fun _ => ?_) (fun _ => ?_)
    · dsimp only [State.bad, State.okay, State.refuse, State.later]
      exact Keeps.refl _ _
    · refine Keeps.ite_st (fun _ => ?_) (fun _ => ?_)
      · dsimp only [State.bad, State.okay, State.refuse, State.later]
        exact Keeps.refl _ _
      · dsimp only [State.bad, State.okay, State.refuse, State.later]
        exact Keeps.refl _ _
  · refine Keeps.ite_af (fun _ => ?_) (fun _ => ?_)
    · dsimp only [State.bad, State.okay, State.refuse, State.later]
      dsimp only [id]
      exact Keeps.refl _ _
    · refine Keeps.ite_af (fun _ => ?_) (fun _ => ?_)
      · dsimp only [State.bad, State.okay, State.refuse, State.later]
        dsimp only [id]
        exact Keeps.refl _ _
      · dsimp only [State.bad, State.okay, State.refuse, State.later]
        dsimp only [id]
        exact Keeps.refl _ _

theorem execIdentify_ends (r : AzReq) (s : State) :
    Ends [.regs, .evt, .tally, .evr, .psq, .chans, .med, .cxl, .out] s (execIdentify r s) := by
  unfold execIdentify
  refine Ends.next ?_
  refine Keeps.after (State.azIdentify_keeps _ _) (by decide) ?_
  exact Keeps.refl _ _

theorem execDeviceStatus_ends (r : AzReq) (s : State) :
    Ends [.regs, .evt, .tally, .evr, .psq, .chans, .med, .cxl, .out] s (execDeviceStatus r s) := by
  unfold execDeviceStatus
  refine Ends.next ?_
  refine Keeps.after (State.azDeviceStatus_keeps _ _) (by decide) ?_
  exact Keeps.refl _ _

theorem execChannelAssign_ends (r : AzReq) (s : State) :
    Ends [.regs, .evt, .tally, .sched, .nv, .evr, .psq, .chans, .med, .xlt, .cxl, .rdma, .out, .fresh] s (execChannelAssign r s) := by
  unfold execChannelAssign
  refine Ends.next ?_
  refine Keeps.after (State.azChannelAssign_keeps _ _) (by decide) ?_
  exact Keeps.refl _ _

theorem execChannelMode_ends (r : AzReq) (s : State) :
    Ends [.regs, .evt, .tally, .nv, .evr, .psq, .chans, .med, .cxl, .out] s (execChannelMode r s) := by
  unfold execChannelMode
  refine Ends.next ?_
  refine Keeps.after (State.azChannelMode_keeps _ _) (by decide) ?_
  exact Keeps.refl _ _

theorem execCmdStatus_ends (r : AzReq) (s : State) :
    Ends [.regs, .evt, .tally, .evr, .psq, .chans, .med, .cxl, .out] s (execCmdStatus r s) := by
  unfold execCmdStatus
  refine Ends.next ?_
  refine Keeps.after (State.azCmdStatus_keeps _ _) (by decide) ?_
  exact Keeps.refl _ _

theorem execRouteSet_ends (r : AzReq) (s : State) :
    Ends [.regs, .evt, .tally, .nv, .evr, .psq, .chans, .med, .cxl, .out] s (execRouteSet r s) := by
  unfold execRouteSet
  refine Ends.next ?_
  refine Keeps.after (State.azRouteSet_keeps _ _) (by decide) ?_
  exact Keeps.refl _ _

theorem execRouteGet_ends (r : AzReq) (s : State) :
    Ends [.regs, .evt, .tally, .evr, .psq, .chans, .med, .cxl, .out] s (execRouteGet r s) := by
  unfold execRouteGet
  refine Ends.next ?_
  refine Keeps.after (State.azRouteGet_keeps _ _) (by decide) ?_
  exact Keeps.refl _ _

theorem execStageWrite_ends (r : AzReq) (s : State) :
    Ends [.regs, .evt, .tally, .evr, .psq, .chans, .med, .cxl, .out] s (execStageWrite r s) := by
  unfold execStageWrite
  refine Ends.next ?_
  refine Keeps.after (State.azStageWrite_keeps _ _) (by decide) ?_
  exact Keeps.refl _ _

theorem execStageRead_ends (r : AzReq) (s : State) :
    Ends [.regs, .evt, .tally, .evr, .psq, .chans, .med, .cxl, .out] s (execStageRead r s) := by
  unfold execStageRead
  refine Ends.next ?_
  refine Keeps.after (State.azStageRead_keeps _ _) (by decide) ?_
  exact Keeps.refl _ _

/-! ### AzRegion -/

theorem State.allocRegion_keeps (s : State) (size : Nat) (m : Mode) (strict : Bool) (share : Bool) :
    KeepsP [.regs, .evt, .evr, .chans, .xlt, .twin, .cxl, .sec, .out, .fresh] s (State.allocRegion s size m strict share) := by
  unfold State.allocRegion
  split
  · extract_lets -merge +onlyGivenNames x1
    extract_lets -merge +onlyGivenNames x2
    extract_lets -merge +onlyGivenNames x3
    extract_lets -merge +onlyGivenNames x4
    refine KeepsP.of_let x4 ?_ (fun h4 => ?_)
    · unfold x4
      refine Keeps.after (State.journal_keeps _ _) (by decide) ?_
      refine Keeps.after (State.setRegion_keeps _ _ _) (by decide) ?_
      refine Keeps.after (State.draw_keeps _) (by decide) ?_
      refine Keeps.after (State.draw_keeps _) (by decide) ?_
      exact Keeps.refl _ _
    · extract_lets -merge +onlyGivenNames x5
      extract_lets -merge +onlyGivenNames x6
      refine KeepsP.of_let x6 ?_ (fun h6 => ?_)
      · unfold x6
        refine Keeps.set_sec (by decide) rfl ?_
        exact h4
      · refine KeepsP.some ?_
        dsimp only
        refine Keeps.after (State.putRt_keeps _ _ _) (by decide) ?_
        exact h6
  · exact KeepsP.none

theorem State.createHere_keeps (s : State) (size : Nat) (m : Mode) (strict : Bool) (share : Bool) (home : Bool) :
    KeepsP [.regs, .evt, .nv, .evr, .chans, .xlt, .twin, .cxl, .sec, .out, .fresh] s (State.createHere s size m strict share home) := by
  unfold State.createHere
  split
  · exact KeepsP.none
  · extract_lets -merge +onlyGivenNames x1
    extract_lets -merge +onlyGivenNames x2
    refine KeepsP.of_let x2 ?_ (fun h2 => ?_)
    · unfold x2
      refine Keeps.after (State.setRt_keeps _ _ _) (by decide) ?_
      refine Keeps.of_some_fst (by assumption) ?_
      refine KeepsP.after (State.allocRegion_keeps _ _ _ _ _) (by decide) ?_
      exact Keeps.refl _ _
    · split
      refine KeepsP.ite (fun _ => ?_) (fun _ => ?_)
      · extract_lets -merge +onlyGivenNames x3
        extract_lets -merge +onlyGivenNames x4
        extract_lets -merge +onlyGivenNames x5
        refine KeepsP.of_let x5 ?_ (fun h5 => ?_)
        · unfold x5
          refine Keeps.after (State.putRt_keeps _ _ _) (by decide) ?_
          refine Keeps.of_fst (by assumption) ?_
          refine Keeps.ite_fst (fun _ => ?_) (fun _ => ?_)
          · refine Keeps.after (State.keyDraw_keeps _ _ _) (by decide) ?_
            exact h2
          · dsimp only
            exact h2
        · extract_lets -merge +onlyGivenNames x6
          refine KeepsP.of_let x6 ?_ (fun h6 => ?_)
          · unfold x6
            refine Keeps.after (State.tsend_keeps _ _ _) (by decide) ?_
            exact h5
          · refine KeepsP.some ?_
            dsimp only
            refine Keeps.after (State.setRegion_keeps _ _ _) (by decide) ?_
            exact h6
      · refine KeepsP.some ?_
        dsimp only
        refine Keeps.of_fst (by assumption) ?_
        refine Keeps.ite_fst (fun _ => ?_) (fun _ => ?_)
        · refine Keeps.after (State.keyDraw_keeps _ _ _) (by decide) ?_
          exact h2
        · dsimp only
          exact h2

theorem State.growHere_keeps (s : State) (r : Nat) (size : Nat) :
    KeepsO [.regs, .evt, .evr, .chans, .xlt, .twin, .cxl, .out] s (State.growHere s r size) := by
  unfold State.growHere
  extract_lets -merge +onlyGivenNames x1
  split
  · exact KeepsO.none
  · extract_lets -merge +onlyGivenNames x2
    refine KeepsO.some ?_
    refine Keeps.after (State.sendAttr_keeps _ _ _) (by decide) ?_
    refine Keeps.after (State.journal_keeps _ _) (by decide) ?_
    refine Keeps.after (State.setRegion_keeps _ _ _) (by decide) ?_
    exact Keeps.refl _ _

theorem State.allocAsk_keeps (s : State) (grow : Option Nat) (size : Nat) (m : Mode) (flags : Nat) :
    Keeps [.regs, .evt, .nv, .evr, .chans, .xlt, .twin, .cxl, .sec, .out, .fresh] s (State.allocAsk s grow size m flags) := by
  unfold State.allocAsk
  extract_lets -merge +onlyGivenNames x1
  split
  · refine Keeps.ite (fun _ => ?_) (fun _ => ?_)
    · unfold x1
      refine Keeps.after (State.tsend_keeps _ _ _) (by decide) ?_
      exact Keeps.refl _ _
    · extract_lets -merge +onlyGivenNames x2
      split
      · refine Keeps.of_some_fst (by assumption) ?_
        refine KeepsP.after (State.createHere_keeps _ _ _ _ _ _) (by decide) ?_
        unfold x1
        refine Keeps.after (State.tsend_keeps _ _ _) (by decide) ?_
        exact Keeps.refl _ _
      · unfold x1
        refine Keeps.after (State.tsend_keeps _ _ _) (by decide) ?_
        exact Keeps.refl _ _
  · extract_lets -merge +onlyGivenNames x2
    refine Keeps.ite (fun _ => ?_) (fun _ => ?_)
    · unfold x1
      refine Keeps.after (State.tsend_keeps _ _ _) (by decide) ?_
      exact Keeps.refl _ _
    · refine Keeps.ite (fun _ => ?_) (fun _ => ?_)
      · unfold x1
        refine Keeps.after (State.tsend_keeps _ _ _) (by decide) ?_
        exact Keeps.refl _ _
      · split
        · refine Keeps.of_some (by assumption) ?_
          refine KeepsO.after (State.growHere_keeps _ _ _) (by decide) ?_
          unfold x1
          refine Keeps.after (State.tsend_keeps _ _ _) (by decide) ?_
          exact Keeps.refl _ _
        · unfold x1
          refine Keeps.after (State.tsend_keeps _ _ _) (by decide) ?_
          exact Keeps.refl _ _

theorem State.allocAnswer_keeps (s : State) (status : Nat) (r : Nat) :
    Keeps [.chans, .twin, .cxl, .out] s (State.allocAnswer s status r) := by
  unfold State.allocAnswer
  split
  · exact Keeps.refl _ _
  · refine Keeps.after (State.setTwin_keeps _ _) (by decide) ?_
    exact Keeps.refl _ _
  · extract_lets -merge +onlyGivenNames x1
    extract_lets -merge +onlyGivenNames x2
    refine Keeps.of_let x2 ?_ (fun h2 => ?_)
    · unfold x2
      refine Keeps.after (State.setTwin_keeps _ _) (by decide) ?_
      exact Keeps.refl _ _
    · split
      · exact h2
      · refine Keeps.ite (fun _ => ?_) (fun _ => ?_)
        · refine Keeps.ite (fun _ => ?_) (fun _ => ?_)
          · extract_lets -merge +onlyGivenNames x3
            extract_lets -merge +onlyGivenNames x4
            refine Keeps.of_let x4 ?_ (fun h4 => ?_)
            · unfold x4
              refine Keeps.after (State.setChan_keeps _ _ _) (by decide) ?_
              exact h2
            · refine Keeps.ite (fun _ => ?_) (fun _ => ?_)
              · exact h4
              · refine Keeps.after (State.setRt_keeps _ _ _) (by decide) ?_
                exact h4
          · exact h2
        · extract_lets -merge +onlyGivenNames x3
          refine Keeps.after (State.complete_keeps _ _ _ _ _) (by decide) ?_
          exact h2

theorem State.azRegionCreate_keeps (s : State) (r : AzReq) :
    Keeps [.regs, .evt, .tally, .sched, .nv, .evr, .psq, .chans, .med, .bench, .xlt, .twin, .cxl, .rdma, .sec, .out, .fresh] s (State.azRegionCreate s r) := by
  unfold State.azRegionCreate
  refine Keeps.trans ?_ (State.azTake_keeps (by decide) (fun _ => ?_) (fun _ _ => ?_))
  · exact Keeps.refl _ _
  · extract_lets -merge +onlyGivenNames x1
    extract_lets -merge +onlyGivenNames x2
    extract_lets -merge +onlyGivenNames x3
    refine Keeps.ite_st (fun _ => ?_) (fun _ => ?_)
    · dsimp only [State.bad, State.okay, State.refuse, State.later]
      exact Keeps.refl _ _
    · refine Keeps.ite_st (fun _ => ?_) (fun _ => ?_)
      · dsimp only [State.bad, State.okay, State.refuse, State.later]
        exact Keeps.refl _ _
      · refine Keeps.ite_st (fun _ => ?_) (fun _ => ?_)
        · dsimp only [State.bad, State.okay, State.refuse, State.later]
          exact Keeps.refl _ _
        · refine Keeps.ite_st (fun _ => ?_) (fun _ => ?_)
          · dsimp only [State.bad, State.okay, State.refuse, State.later]
            exact Keeps.refl _ _
          · refine Keeps.ite_st (fun _ => ?_) (fun _ => ?_)
            · dsimp only [State.bad, State.okay, State.refuse, State.later]
              exact Keeps.refl _ _
            · refine Keeps.ite_st (fun _ => ?_) (fun _ => ?_)
              · dsimp only [State.bad, State.okay, State.refuse, State.later]
                refine Keeps.after (State.tsend_keeps _ _ _) (by decide) ?_
                refine Keeps.after (State.setTwin_keeps _ _) (by decide) ?_
                exact Keeps.refl _ _
              · split
                · dsimp only [State.bad, State.okay, State.refuse, State.later]
                  exact Keeps.refl _ _
                · extract_lets -merge +onlyGivenNames x4
                  extract_lets -merge +onlyGivenNames x5
                  refine Keeps.of_let x5 ?_ (fun h5 => ?_)
                  · unfold x5
                    refine Keeps.ite (fun _ => ?_) (fun _ => ?_)
                    · refine Keeps.after (State.tsend_keeps _ _ _) (by decide) ?_
                      refine Keeps.after (State.setRt_keeps _ _ _) (by decide) ?_
                      refine Keeps.of_some_fst (by assumption) ?_
                      refine KeepsP.after (State.createHere_keeps _ _ _ _ _ _) (by decide) ?_
                      exact Keeps.refl _ _
                    · refine Keeps.of_some_fst (by assumption) ?_
                      refine KeepsP.after (State.createHere_keeps _ _ _ _ _ _) (by decide) ?_
                      exact Keeps.refl _ _
                  · dsimp only [State.bad, State.okay, State.refuse, State.later]
                    refine Keeps.after (State.settleMed_keeps _) (by decide) ?_
                    exact h5
  · extract_lets -merge +onlyGivenNames x1
    extract_lets -merge +onlyGivenNames x2
    extract_lets -merge +onlyGivenNames x3
    refine Keeps.ite_af (fun _ => ?_) (fun _ => ?_)
    · dsimp only [State.bad, State.okay, State.refuse, State.later]
      dsimp only [id]
      exact Keeps.refl _ _
    · refine Keeps.ite_af (fun _ => ?_) (fun _ => ?_)
      · dsimp only [State.bad, State.okay, State.refuse, State.later]
        dsimp only [id]
        exact Keeps.refl _ _
      · refine Keeps.ite_af (fun _ => ?_) (fun _ => ?_)
        · dsimp only [State.bad, State.okay, State.refuse, State.later]
          dsimp only [id]
          exact Keeps.refl _ _
        · refine Keeps.ite_af (fun _ => ?_) (fun _ => ?_)
          · dsimp only [State.bad, State.okay, State.refuse, State.later]
            dsimp only [id]
            exact Keeps.refl _ _
          · refine Keeps.ite_af (fun _ => ?_) (fun _ => ?_)
            · dsimp only [State.bad, State.okay, State.refuse, State.later]
              dsimp only [id]
              exact Keeps.refl _ _
            · refine Keeps.ite_af (fun _ => ?_) (fun _ => ?_)
              · dsimp only [State.bad, State.okay, State.refuse, State.later]
                dsimp only [id]
                exact Keeps.refl _ _
              · split
                · dsimp only [State.bad, State.okay, State.refuse, State.later]
                  dsimp only [id]
                  exact Keeps.refl _ _
                · extract_lets -merge +onlyGivenNames x4
                  extract_lets -merge +onlyGivenNames x5
                  dsimp only [State.bad, State.okay, State.refuse, State.later]
                  dsimp only [id]
                  exact Keeps.refl _ _

theorem State.azRegionDelete_keeps (s : State) (r : AzReq) :
    Keeps [.regs, .evt, .tally, .sched, .nv, .evr, .psq, .chans, .med, .bench, .xlt, .twin, .cxl, .rdma, .sec, .out, .fresh] s (State.azRegionDelete s r) := by
  unfold State.azRegionDelete
  refine Keeps.trans ?_ (State.azTake_keeps (by decide) (fun _ => ?_) (fun _ _ => ?_))
  · exact Keeps.refl _ _
  · extract_lets -merge +onlyGivenNames x1
    refine Keeps.ite_st (fun _ => ?_) (fun _ => ?_)
    · dsimp only [State.bad, State.okay, State.refuse, State.later]
      exact Keeps.refl _ _
    · dsimp only [State.bad, State.okay, State.refuse, State.later]
      refine Keeps.after (State.settleMed_keeps _) (by decide) ?_
      refine Keeps.after (State.regionGone_keeps _ _) (by decide) ?_
      refine Keeps.after (State.sendAttr_keeps _ _ _) (by decide) ?_
      exact Keeps.refl _ _
  · extract_lets -merge +onlyGivenNames x1
    refine Keeps.ite_af (fun _ => ?_) (fun _ => ?_)
    · dsimp only [State.bad, State.okay, State.refuse, State.later]
      dsimp only [id]
      exact Keeps.refl _ _
    · dsimp only [State.bad, State.okay, State.refuse, State.later]
      dsimp only [id]
      exact Keeps.refl _ _

theorem State.azRegionResize_keeps (s : State) (r : AzReq) :
    Keeps [.regs, .evt, .tally, .sched, .nv, .evr, .psq, .chans, .med, .bench, .xlt, .twin, .cxl, .rdma, .sec, .out, .fresh] s (State.azRegionResize s r) := by
  unfold State.azRegionResize
  refine Keeps.trans ?_ (State.azTake_keeps (by decide) (fun _ => ?_) (fun _ _ => ?_))
  · exact Keeps.refl _ _
  · extract_lets -merge +onlyGivenNames x1
    extract_lets -merge +onlyGivenNames x2
    extract_lets -merge +onlyGivenNames x3
    refine Keeps.ite_st (fun _ => ?_) (fun _ => ?_)
    · dsimp only [State.bad, State.okay, State.refuse, State.later]
      exact Keeps.refl _ _
    · refine Keeps.ite_st (fun _ => ?_) (fun _ => ?_)
      · dsimp only [State.bad, State.okay, State.refuse, State.later]
        exact Keeps.refl _ _
      · refine Keeps.ite_st (fun _ => ?_) (fun _ => ?_)
        · dsimp only [State.bad, State.okay, State.refuse, State.later]
          exact Keeps.refl _ _
        · refine Keeps.ite_st (fun _ => ?_) (fun _ => ?_)
          · refine Keeps.ite_st (fun _ => ?_) (fun _ => ?_)
            · dsimp only [State.bad, State.okay, State.refuse, State.later]
              exact Keeps.refl _ _
            · refine Keeps.ite_st (fun _ => ?_) (fun _ => ?_)
              · dsimp only [State.bad, State.okay, State.refuse, State.later]
                refine Keeps.after (State.tsend_keeps _ _ _) (by decide) ?_
                refine Keeps.after (State.setTwin_keeps _ _) (by decide) ?_
                exact Keeps.refl _ _
              · split
                · dsimp only [State.bad, State.okay, State.refuse, State.later]
                  exact Keeps.refl _ _
                · dsimp only [State.bad, State.okay, State.refuse, State.later]
                  refine Keeps.after (State.settleMed_keeps _) (by decide) ?_
                  refine Keeps.of_some (by assumption) ?_
                  refine KeepsO.after (State.growHere_keeps _ _ _) (by decide) ?_
                  exact Keeps.refl _ _
          · extract_lets -merge +onlyGivenNames x4
            refine Keeps.of_let x4 ?_ (fun h4 => ?_)
            · unfold x4
              refine Keeps.after (State.shrinkSetts_keeps _ _ _) (by decide) ?_
              exact Keeps.refl _ _
            · extract_lets -merge +onlyGivenNames x5
              dsimp only [State.bad, State.okay, State.refuse, State.later]
              refine Keeps.after (State.settleMed_keeps _) (by decide) ?_
              refine Keeps.after (State.sendAttr_keeps _ _ _) (by decide) ?_
              refine Keeps.after (State.journal_keeps _ _) (by decide) ?_
              refine Keeps.after (State.setRegion_keeps _ _ _) (by decide) ?_
              exact h4
  · extract_lets -merge +onlyGivenNames x1
    extract_lets -merge +onlyGivenNames x2
    extract_lets -merge +onlyGivenNames x3
    refine Keeps.ite_af (fun _ => ?_) (fun _ => ?_)
    · dsimp only [State.bad, State.okay, State.refuse, State.later]
      dsimp only [id]
      exact Keeps.refl _ _
    · refine Keeps.ite_af (fun _ => ?_) (fun _ => ?_)
      · dsimp only [State.bad, State.okay, State.refuse, State.later]
        dsimp only [id]
        exact Keeps.refl _ _
      · refine Keeps.ite_af (fun _ => ?_) (fun _ => ?_)
        · dsimp only [State.bad, State.okay, State.refuse, State.later]
          dsimp only [id]
          exact Keeps.refl _ _
        · refine Keeps.ite_af (fun _ => ?_) (fun _ => ?_)
          · refine Keeps.ite_af (fun _ => ?_) (fun _ => ?_)
            · dsimp only [State.bad, State.okay, State.refuse, State.later]
              dsimp only [id]
              exact Keeps.refl _ _
            · refine Keeps.ite_af (fun _ => ?_) (fun _ => ?_)
              · dsimp only [State.bad, State.okay, State.refuse, State.later]
                dsimp only [id]
                exact Keeps.refl _ _
              · split
                · dsimp only [State.bad, State.okay, State.refuse, State.later]
                  dsimp only [id]
                  exact Keeps.refl _ _
                · dsimp only [State.bad, State.okay, State.refuse, State.later]
                  dsimp only [id]
                  exact Keeps.refl _ _
          · extract_lets -merge +onlyGivenNames x4
            extract_lets -merge +onlyGivenNames x5
            dsimp only [State.bad, State.okay, State.refuse, State.later]
            dsimp only [id]
            exact Keeps.refl _ _

theorem State.azRegionSetMode_keeps (s : State) (r : AzReq) :
    Keeps [.regs, .evt, .tally, .sched, .nv, .evr, .psq, .chans, .med, .bench, .xlt, .twin, .cxl, .rdma, .sec, .out, .fresh] s (State.azRegionSetMode s r) := by
  unfold State.azRegionSetMode
  refine Keeps.trans ?_ (State.azTake_keeps (by decide) (fun _ => ?_) (fun _ _ => ?_))
  · exact Keeps.refl _ _
  · extract_lets -merge +onlyGivenNames x1
    extract_lets -merge +onlyGivenNames x2
    extract_lets -merge +onlyGivenNames x3
    refine Keeps.ite_st (fun _ => ?_) (fun _ => ?_)
    · dsimp only [State.bad, State.okay, State.refuse, State.later]
      exact Keeps.refl _ _
    · refine Keeps.ite_st (fun _ => ?_) (fun _ => ?_)
      · dsimp only [State.bad, State.okay, State.refuse, State.later]
        exact Keeps.refl _ _
      · refine Keeps.ite_st (fun _ => ?_) (fun _ => ?_)
        · dsimp only [State.bad, State.okay, State.refuse, State.later]
          exact Keeps.refl _ _
        · refine Keeps.ite_st (fun _ => ?_) (fun _ => ?_)
          · dsimp only [State.bad, State.okay, State.refuse, State.later]
            exact Keeps.refl _ _
          · extract_lets -merge +onlyGivenNames x4
            extract_lets -merge +onlyGivenNames x5
            refine Keeps.of_let x5 ?_ (fun h5 => ?_)
            · unfold x5
              refine Keeps.after (State.setRegion_keeps _ _ _) (by decide) ?_
              exact Keeps.refl _ _
            · refine Keeps.ite_st (fun _ => ?_) (fun _ => ?_)
              · dsimp only [State.bad, State.okay, State.refuse, State.later]
                exact Keeps.refl _ _
              · refine Keeps.ite_st (fun _ => ?_) (fun _ => ?_)
                · dsimp only [State.bad, State.okay, State.refuse, State.later]
                  exact Keeps.refl _ _
                · extract_lets -merge +onlyGivenNames x6
                  refine Keeps.of_let x6 ?_ (fun h6 => ?_)
                  · unfold x6
                    refine Keeps.after (State.sendAttr_keeps _ _ _) (by decide) ?_
                    refine Keeps.after (State.convQueue_keeps _ _) (by decide) ?_
                    refine Keeps.after (State.journal_keeps _ _) (by decide) ?_
                    exact h5
                  · extract_lets -merge +onlyGivenNames x7
                    extract_lets -merge +onlyGivenNames x8
                    refine Keeps.of_let x8 ?_ (fun h8 => ?_)
                    · unfold x8
                      refine Keeps.ite (fun _ => ?_) (fun _ => ?_)
                      · refine Keeps.after (State.cause_keeps _ _ _ _ _) (by decide) ?_
                        refine Keeps.after (State.setRegion_keeps _ _ _) (by decide) ?_
                        exact h6
                      · exact h6
                    · dsimp only [State.bad, State.okay, State.refuse, State.later]
                      refine Keeps.after (State.settleMed_keeps _) (by decide) ?_
                      exact h8
  · extract_lets -merge +onlyGivenNames x1
    extract_lets -merge +onlyGivenNames x2
    extract_lets -merge +onlyGivenNames x3
    refine Keeps.ite_af (fun _ => ?_) (fun _ => ?_)
    · dsimp only [State.bad, State.okay, State.refuse, State.later]
      dsimp only [id]
      exact Keeps.refl _ _
    · refine Keeps.ite_af (fun _ => ?_) (fun _ => ?_)
      · dsimp only [State.bad, State.okay, State.refuse, State.later]
        dsimp only [id]
        exact Keeps.refl _ _
      · refine Keeps.ite_af (fun _ => ?_) (fun _ => ?_)
        · dsimp only [State.bad, State.okay, State.refuse, State.later]
          dsimp only [id]
          exact Keeps.refl _ _
        · refine Keeps.ite_af (fun _ => ?_) (fun _ => ?_)
          · dsimp only [State.bad, State.okay, State.refuse, State.later]
            dsimp only [id]
            exact Keeps.refl _ _
          · extract_lets -merge +onlyGivenNames x4
            extract_lets -merge +onlyGivenNames x5
            refine Keeps.ite_af (fun _ => ?_) (fun _ => ?_)
            · dsimp only [State.bad, State.okay, State.refuse, State.later]
              dsimp only [id]
              exact Keeps.refl _ _
            · refine Keeps.ite_af (fun _ => ?_) (fun _ => ?_)
              · dsimp only [State.bad, State.okay, State.refuse, State.later]
                dsimp only [id]
                exact Keeps.refl _ _
              · extract_lets -merge +onlyGivenNames x6
                extract_lets -merge +onlyGivenNames x7
                extract_lets -merge +onlyGivenNames x8
                dsimp only [State.bad, State.okay, State.refuse, State.later]
                dsimp only [id]
                exact Keeps.refl _ _

theorem State.azRegionSetPolicy_keeps (s : State) (r : AzReq) :
    Keeps [.regs, .evt, .tally, .evr, .psq, .chans, .med, .bench, .xlt, .twin, .cxl, .rdma, .sec, .out, .fresh] s (State.azRegionSetPolicy s r) := by
  unfold State.azRegionSetPolicy
  refine Keeps.trans ?_ (State.azTake_keeps (by decide) (fun _ => ?_) (fun _ _ => ?_))
  · exact Keeps.refl _ _
  · extract_lets -merge +onlyGivenNames x1
    extract_lets -merge +onlyGivenNames x2
    extract_lets -merge +onlyGivenNames x3
    refine Keeps.ite_st (fun _ => ?_) (fun _ => ?_)
    · dsimp only [State.bad, State.okay, State.refuse, State.later]
      exact Keeps.refl _ _
    · refine Keeps.ite_st (fun _ => ?_) (fun _ => ?_)
      · dsimp only [State.bad, State.okay, State.refuse, State.later]
        exact Keeps.refl _ _
      · dsimp only [State.bad, State.okay, State.refuse, State.later]
        refine Keeps.after (State.settle_keeps _) (by decide) ?_
        refine Keeps.after (State.sendAttr_keeps _ _ _) (by decide) ?_
        refine Keeps.after (State.journal_keeps _ _) (by decide) ?_
        refine Keeps.after (State.setRegion_keeps _ _ _) (by decide) ?_
        exact Keeps.refl _ _
  · extract_lets -merge +onlyGivenNames x1
    extract_lets -merge +onlyGivenNames x2
    extract_lets -merge +onlyGivenNames x3
    refine Keeps.ite_af (fun _ => ?_) (fun _ => ?_)
    · dsimp only [State.bad, State.okay, State.refuse, State.later]
      dsimp only [id]
      exact Keeps.refl _ _
    · refine Keeps.ite_af (fun _ => ?_) (fun _ => ?_)
      · dsimp only [State.bad, State.okay, State.refuse, State.later]
        dsimp only [id]
        exact Keeps.refl _ _
      · dsimp only [State.bad, State.okay, State.refuse, State.later]
        dsimp only [id]
        exact Keeps.refl _ _

theorem State.azRegionInfo_keeps (s : State) (r : AzReq) :
    Keeps [.regs, .evt, .tally, .evr, .psq, .chans, .med, .cxl, .out] s (State.azRegionInfo s r) := by
  unfold State.azRegionInfo
  extract_lets -merge +onlyGivenNames x1
  refine Keeps.trans ?_ (State.azTake_keeps (by decide) (fun _ => ?_) (fun _ _ => ?_))
  · exact Keeps.refl _ _
  · extract_lets -merge +onlyGivenNames x2
    refine Keeps.ite_st (fun _ => ?_) (fun _ => ?_)
    · dsimp only [State.bad, State.okay, State.refuse, State.later]
      exact Keeps.refl _ _
    · extract_lets -merge +onlyGivenNames x3
      extract_lets -merge +onlyGivenNames x4
      dsimp only [State.bad, State.okay, State.refuse, State.later]
      exact Keeps.refl _ _
  · extract_lets -merge +onlyGivenNames x2
    refine Keeps.ite_af (fun _ => ?_) (fun _ => ?_)
    · dsimp only [State.bad, State.okay, State.refuse, State.later]
      dsimp only [id]
      exact Keeps.refl _ _
    · extract_lets -merge +onlyGivenNames x3
      extract_lets -merge +onlyGivenNames x4
      dsimp only [State.bad, State.okay, State.refuse, State.later]
      dsimp only [id]
      exact Keeps.refl _ _

theorem State.azRegionGrant_keeps (s : State) (r : AzReq) :
    Keeps [.regs, .evt, .tally, .evr, .psq, .chans, .med, .cxl, .out] s (State.azRegionGrant s r) := by
  unfold State.azRegionGrant
  refine Keeps.trans ?_ (State.azTake_keeps (by decide) (fun _ => ?_) (fun _ _ => ?_))
  · exact Keeps.refl _ _
  · extract_lets -merge +onlyGivenNames x1
    refine Keeps.ite_st (fun _ => ?_) (fun _ => ?_)
    · dsimp only [State.bad, State.okay, State.refuse, State.later]
      exact Keeps.refl _ _
    · refine Keeps.ite_st (fun _ => ?_) (fun _ => ?_)
      · dsimp only [State.bad, State.okay, State.refuse, State.later]
        exact Keeps.refl _ _
      · refine Keeps.ite_st (fun _ => ?_) (fun _ => ?_)
        · dsimp only [State.bad, State.okay, State.refuse, State.later]
          exact Keeps.refl _ _
        · extract_lets -merge +onlyGivenNames x2
          dsimp only [State.bad, State.okay, State.refuse, State.later]
          refine Keeps.after (State.setChan_keeps _ _ _) (by decide) ?_
          exact Keeps.refl _ _
  · extract_lets -merge +onlyGivenNames x1
    refine Keeps.ite_af (fun _ => ?_) (fun _ => ?_)
    · dsimp only [State.bad, State.okay, State.refuse, State.later]
      dsimp only [id]
      exact Keeps.refl _ _
    · refine Keeps.ite_af (fun _ => ?_) (fun _ => ?_)
      · dsimp only [State.bad, State.okay, State.refuse, State.later]
        dsimp only [id]
        exact Keeps.refl _ _
      · refine Keeps.ite_af (fun _ => ?_) (fun _ => ?_)
        · dsimp only [State.bad, State.okay, State.refuse, State.later]
          dsimp only [id]
          exact Keeps.refl _ _
        · extract_lets -merge +onlyGivenNames x2
          dsimp only [State.bad, State.okay, State.refuse, State.later]
          dsimp only [id]
          exact Keeps.refl _ _

theorem State.setBinding_keeps (s : State) (l : Nat) (b : Nat) (v : Option BindTo) :
    Keeps [.regs, .evt, .nv, .evr, .chans, .xlt, .twin, .cxl, .out] s (State.setBinding s l b v) := by
  unfold State.setBinding
  extract_lets -merge +onlyGivenNames x1
  extract_lets -merge +onlyGivenNames x2
  refine Keeps.of_let x2 ?_ (fun h2 => ?_)
  · unfold x2
    refine Keeps.after (State.putBinding_keeps _ _ _) (by decide) ?_
    exact Keeps.refl _ _
  · split
    · refine Keeps.after (State.sendAttr_keeps _ _ _) (by decide) ?_
      exact h2
    · exact h2

theorem State.azRegionBind_keeps (s : State) (r : AzReq) :
    Keeps [.regs, .evt, .tally, .nv, .evr, .psq, .chans, .med, .xlt, .twin, .cxl, .out] s (State.azRegionBind s r) := by
  unfold State.azRegionBind
  refine Keeps.trans ?_ (State.azTake_keeps (by decide) (fun _ => ?_) (fun _ _ => ?_))
  · exact Keeps.refl _ _
  · extract_lets -merge +onlyGivenNames x1
    split
    refine Keeps.ite_st (fun _ => ?_) (fun _ => ?_)
    · dsimp only [State.bad, State.okay, State.refuse, State.later]
      exact Keeps.refl _ _
    · refine Keeps.ite_st (fun _ => ?_) (fun _ => ?_)
      · dsimp only [State.bad, State.okay, State.refuse, State.later]
        exact Keeps.refl _ _
      · refine Keeps.ite_st (fun _ => ?_) (fun _ => ?_)
        · dsimp only [State.bad, State.okay, State.refuse, State.later]
          exact Keeps.refl _ _
        · refine Keeps.ite_st (fun _ => ?_) (fun _ => ?_)
          · dsimp only [State.bad, State.okay, State.refuse, State.later]
            exact Keeps.refl _ _
          · refine Keeps.ite_st (fun _ => ?_) (fun _ => ?_)
            · dsimp only [State.bad, State.okay, State.refuse, State.later]
              exact Keeps.refl _ _
            · refine Keeps.ite_st (fun _ => ?_) (fun _ => ?_)
              · dsimp only [State.bad, State.okay, State.refuse, State.later]
                exact Keeps.refl _ _
              · refine Keeps.ite_st (fun _ => ?_) (fun _ => ?_)
                · dsimp only [State.bad, State.okay, State.refuse, State.later]
                  exact Keeps.refl _ _
                · dsimp only [State.bad, State.okay, State.refuse, State.later]
                  refine Keeps.after (State.setBinding_keeps _ _ _ _) (by decide) ?_
                  exact Keeps.refl _ _
  · extract_lets -merge +onlyGivenNames x1
    split
    refine Keeps.ite_af (fun _ => ?_) (fun _ => ?_)
    · dsimp only [State.bad, State.okay, State.refuse, State.later]
      dsimp only [id]
      exact Keeps.refl _ _
    · refine Keeps.ite_af (fun _ => ?_) (fun _ => ?_)
      · dsimp only [State.bad, State.okay, State.refuse, State.later]
        dsimp only [id]
        exact Keeps.refl _ _
      · refine Keeps.ite_af (fun _ => ?_) (fun _ => ?_)
        · dsimp only [State.bad, State.okay, State.refuse, State.later]
          dsimp only [id]
          exact Keeps.refl _ _
        · refine Keeps.ite_af (fun _ => ?_) (fun _ => ?_)
          · dsimp only [State.bad, State.okay, State.refuse, State.later]
            dsimp only [id]
            exact Keeps.refl _ _
          · refine Keeps.ite_af (fun _ => ?_) (fun _ => ?_)
            · dsimp only [State.bad, State.okay, State.refuse, State.later]
              dsimp only [id]
              exact Keeps.refl _ _
            · refine Keeps.ite_af (fun _ => ?_) (fun _ => ?_)
              · dsimp only [State.bad, State.okay, State.refuse, State.later]
                dsimp only [id]
                exact Keeps.refl _ _
              · refine Keeps.ite_af (fun _ => ?_) (fun _ => ?_)
                · dsimp only [State.bad, State.okay, State.refuse, State.later]
                  dsimp only [id]
                  exact Keeps.refl _ _
                · dsimp only [State.bad, State.okay, State.refuse, State.later]
                  dsimp only [id]
                  exact Keeps.refl _ _

theorem State.azRegionUnbind_keeps (s : State) (r : AzReq) :
    Keeps [.regs, .evt, .tally, .nv, .evr, .psq, .chans, .med, .xlt, .twin, .cxl, .out] s (State.azRegionUnbind s r) := by
  unfold State.azRegionUnbind
  refine Keeps.trans ?_ (State.azTake_keeps (by decide) (fun _ => ?_) (fun _ _ => ?_))
  · exact Keeps.refl _ _
  · split
    refine Keeps.ite_st (fun _ => ?_) (fun _ => ?_)
    · dsimp only [State.bad, State.okay, State.refuse, State.later]
      exact Keeps.refl _ _
    · refine Keeps.ite_st (fun _ => ?_) (fun _ => ?_)
      · dsimp only [State.bad, State.okay, State.refuse, State.later]
        exact Keeps.refl _ _
      · dsimp only [State.bad, State.okay, State.refuse, State.later]
        refine Keeps.after (State.setBinding_keeps _ _ _ _) (by decide) ?_
        exact Keeps.refl _ _
  · split
    refine Keeps.ite_af (fun _ => ?_) (fun _ => ?_)
    · dsimp only [State.bad, State.okay, State.refuse, State.later]
      dsimp only [id]
      exact Keeps.refl _ _
    · refine Keeps.ite_af (fun _ => ?_) (fun _ => ?_)
      · dsimp only [State.bad, State.okay, State.refuse, State.later]
        dsimp only [id]
        exact Keeps.refl _ _
      · dsimp only [State.bad, State.okay, State.refuse, State.later]
        dsimp only [id]
        exact Keeps.refl _ _

theorem State.azRegionZero_keeps (s : State) (r : AzReq) :
    Keeps [.regs, .evt, .tally, .sched, .nv, .evr, .psq, .chans, .med, .bench, .xlt, .twin, .cxl, .rdma, .sec, .out, .fresh] s (State.azRegionZero s r) := by
  unfold State.azRegionZero
  extract_lets -merge +onlyGivenNames x1
  refine Keeps.trans ?_ (State.azTake_keeps (by decide) (fun _ => ?_) (fun _ _ => ?_))
  · exact Keeps.refl _ _
  · extract_lets -merge +onlyGivenNames x2
    extract_lets -merge +onlyGivenNames x3
    refine Keeps.ite_st (fun _ => ?_) (fun _ => ?_)
    · dsimp only [State.bad, State.okay, State.refuse, State.later]
      exact Keeps.refl _ _
    · refine Keeps.ite_st (fun _ => ?_) (fun _ => ?_)
      · dsimp only [State.bad, State.okay, State.refuse, State.later]
        exact Keeps.refl _ _
      · refine Keeps.ite_st (fun _ => ?_) (fun _ => ?_)
        · dsimp only [State.bad, State.okay, State.refuse, State.later]
          exact Keeps.refl _ _
        · refine Keeps.ite_st (fun _ => ?_) (fun _ => ?_)
          · dsimp only [State.bad, State.okay, State.refuse, State.later]
            exact Keeps.refl _ _
          · refine Keeps.ite_st (fun _ => ?_) (fun _ => ?_)
            · dsimp only [State.bad, State.okay, State.refuse, State.later]
              exact Keeps.refl _ _
            · extract_lets -merge +onlyGivenNames x4
              extract_lets -merge +onlyGivenNames x5
              refine Keeps.of_let x5 ?_ (fun h5 => ?_)
              · unfold x5
                refine Keeps.foldl _ (fun _ _ => ?_) ?_
                · refine Keeps.after (State.zeroSett_keeps _ _) (by decide) ?_
                  exact Keeps.refl _ _
                · exact Keeps.refl _ _
              · dsimp only [State.bad, State.okay, State.refuse, State.later]
                refine Keeps.after (State.settleMed_keeps _) (by decide) ?_
                refine Keeps.after (State.sendAttr_keeps _ _ _) (by decide) ?_
                exact h5
  · extract_lets -merge +onlyGivenNames x2
    extract_lets -merge +onlyGivenNames x3
    refine Keeps.ite_af (fun _ => ?_) (fun _ => ?_)
    · dsimp only [State.bad, State.okay, State.refuse, State.later]
      dsimp only [id]
      exact Keeps.refl _ _
    · refine Keeps.ite_af (fun _ => ?_) (fun _ => ?_)
      · dsimp only [State.bad, State.okay, State.refuse, State.later]
        dsimp only [id]
        exact Keeps.refl _ _
      · refine Keeps.ite_af (fun _ => ?_) (fun _ => ?_)
        · dsimp only [State.bad, State.okay, State.refuse, State.later]
          dsimp only [id]
          exact Keeps.refl _ _
        · refine Keeps.ite_af (fun _ => ?_) (fun _ => ?_)
          · dsimp only [State.bad, State.okay, State.refuse, State.later]
            dsimp only [id]
            exact Keeps.refl _ _
          · refine Keeps.ite_af (fun _ => ?_) (fun _ => ?_)
            · dsimp only [State.bad, State.okay, State.refuse, State.later]
              dsimp only [id]
              exact Keeps.refl _ _
            · extract_lets -merge +onlyGivenNames x4
              extract_lets -merge +onlyGivenNames x5
              dsimp only [State.bad, State.okay, State.refuse, State.later]
              dsimp only [id]
              exact Keeps.refl _ _

theorem State.azDcMap_keeps (s : State) (r : AzReq) :
    Keeps [.regs, .evt, .tally, .evr, .psq, .chans, .med, .cxl, .out] s (State.azDcMap s r) := by
  unfold State.azDcMap
  refine Keeps.trans ?_ (State.azTake_keeps (by decide) (fun _ => ?_) (fun _ _ => ?_))
  · exact Keeps.refl _ _
  · extract_lets -merge +onlyGivenNames x1
    extract_lets -merge +onlyGivenNames x2
    refine Keeps.ite_st (fun _ => ?_) (fun _ => ?_)
    · dsimp only [State.bad, State.okay, State.refuse, State.later]
      exact Keeps.refl _ _
    · refine Keeps.ite_st (fun _ => ?_) (fun _ => ?_)
      · dsimp only [State.bad, State.okay, State.refuse, State.later]
        exact Keeps.refl _ _
      · extract_lets -merge +onlyGivenNames x3
        dsimp only [State.bad, State.okay, State.refuse, State.later]
        refine Keeps.after (State.cdatAdvance_keeps _ _) (by decide) ?_
        refine Keeps.set_cxl (by decide) ?_
        exact Keeps.refl _ _
  · extract_lets -merge +onlyGivenNames x1
    extract_lets -merge +onlyGivenNames x2
    refine Keeps.ite_af (fun _ => ?_) (fun _ => ?_)
    · dsimp only [State.bad, State.okay, State.refuse, State.later]
      dsimp only [id]
      exact Keeps.refl _ _
    · refine Keeps.ite_af (fun _ => ?_) (fun _ => ?_)
      · dsimp only [State.bad, State.okay, State.refuse, State.later]
        dsimp only [id]
        exact Keeps.refl _ _
      · extract_lets -merge +onlyGivenNames x3
        dsimp only [State.bad, State.okay, State.refuse, State.later]
        dsimp only [id]
        exact Keeps.refl _ _

theorem execAllocate_ends (p : Bool) (f : TFrame) (m : AllocMsg) (s : State) :
    Ends [.regs, .evt, .nv, .evr, .chans, .med, .bench, .xlt, .twin, .cxl, .rdma, .sec, .out, .fresh] s (execAllocate p f m s) := by
  unfold execAllocate
  split
  · refine Ends.next ?_
    refine Keeps.of_fst (by assumption) ?_
    refine Keeps.after (State.acceptFrame_keeps _ _ _) (by decide) ?_
    exact Keeps.refl _ _
  · refine Ends.ite (fun _ => ?_) (fun _ => ?_)
    · refine Ends.next ?_
      refine Keeps.of_fst (by assumption) ?_
      refine Keeps.after (State.acceptFrame_keeps _ _ _) (by decide) ?_
      exact Keeps.refl _ _
    · split
      · refine Ends.next ?_
        refine Keeps.ite (fun _ => ?_) (fun _ => ?_)
        · refine Keeps.after (State.settleTwin_keeps _) (by decide) ?_
          refine Keeps.after (State.allocAsk_keeps _ _ _ _ _) (by decide) ?_
          refine Keeps.of_fst (by assumption) ?_
          refine Keeps.after (State.acceptFrame_keeps _ _ _) (by decide) ?_
          exact Keeps.refl _ _
        · refine Keeps.of_fst (by assumption) ?_
          refine Keeps.after (State.acceptFrame_keeps _ _ _) (by decide) ?_
          exact Keeps.refl _ _
      · refine Ends.next ?_
        refine Keeps.after (State.settleTwin_keeps _) (by decide) ?_
        refine Keeps.after (State.allocAnswer_keeps _ _ _) (by decide) ?_
        refine Keeps.of_fst (by assumption) ?_
        refine Keeps.after (State.acceptFrame_keeps _ _ _) (by decide) ?_
        exact Keeps.refl _ _

theorem execRegionCreate_ends (r : AzReq) (s : State) :
    Ends [.regs, .evt, .tally, .sched, .nv, .evr, .psq, .chans, .med, .bench, .xlt, .twin, .cxl, .rdma, .sec, .out, .fresh] s (execRegionCreate r s) := by
  unfold execRegionCreate
  refine Ends.next ?_
  refine Keeps.after (State.azRegionCreate_keeps _ _) (by decide) ?_
  exact Keeps.refl _ _

theorem execRegionDelete_ends (r : AzReq) (s : State) :
    Ends [.regs, .evt, .tally, .sched, .nv, .evr, .psq, .chans, .med, .bench, .xlt, .twin, .cxl, .rdma, .sec, .out, .fresh] s (execRegionDelete r s) := by
  unfold execRegionDelete
  refine Ends.next ?_
  refine Keeps.after (State.azRegionDelete_keeps _ _) (by decide) ?_
  exact Keeps.refl _ _

theorem execRegionResize_ends (r : AzReq) (s : State) :
    Ends [.regs, .evt, .tally, .sched, .nv, .evr, .psq, .chans, .med, .bench, .xlt, .twin, .cxl, .rdma, .sec, .out, .fresh] s (execRegionResize r s) := by
  unfold execRegionResize
  refine Ends.next ?_
  refine Keeps.after (State.azRegionResize_keeps _ _) (by decide) ?_
  exact Keeps.refl _ _

theorem execRegionSetMode_ends (r : AzReq) (s : State) :
    Ends [.regs, .evt, .tally, .sched, .nv, .evr, .psq, .chans, .med, .bench, .xlt, .twin, .cxl, .rdma, .sec, .out, .fresh] s (execRegionSetMode r s) := by
  unfold execRegionSetMode
  refine Ends.next ?_
  refine Keeps.after (State.azRegionSetMode_keeps _ _) (by decide) ?_
  exact Keeps.refl _ _

theorem execRegionSetPolicy_ends (r : AzReq) (s : State) :
    Ends [.regs, .evt, .tally, .evr, .psq, .chans, .med, .bench, .xlt, .twin, .cxl, .rdma, .sec, .out, .fresh] s (execRegionSetPolicy r s) := by
  unfold execRegionSetPolicy
  refine Ends.next ?_
  refine Keeps.after (State.azRegionSetPolicy_keeps _ _) (by decide) ?_
  exact Keeps.refl _ _

theorem execRegionInfo_ends (r : AzReq) (s : State) :
    Ends [.regs, .evt, .tally, .evr, .psq, .chans, .med, .cxl, .out] s (execRegionInfo r s) := by
  unfold execRegionInfo
  refine Ends.next ?_
  refine Keeps.after (State.azRegionInfo_keeps _ _) (by decide) ?_
  exact Keeps.refl _ _

theorem execRegionGrant_ends (r : AzReq) (s : State) :
    Ends [.regs, .evt, .tally, .evr, .psq, .chans, .med, .cxl, .out] s (execRegionGrant r s) := by
  unfold execRegionGrant
  refine Ends.next ?_
  refine Keeps.after (State.azRegionGrant_keeps _ _) (by decide) ?_
  exact Keeps.refl _ _

theorem execRegionBind_ends (r : AzReq) (s : State) :
    Ends [.regs, .evt, .tally, .nv, .evr, .psq, .chans, .med, .xlt, .twin, .cxl, .out] s (execRegionBind r s) := by
  unfold execRegionBind
  refine Ends.next ?_
  refine Keeps.after (State.azRegionBind_keeps _ _) (by decide) ?_
  exact Keeps.refl _ _

theorem execRegionUnbind_ends (r : AzReq) (s : State) :
    Ends [.regs, .evt, .tally, .nv, .evr, .psq, .chans, .med, .xlt, .twin, .cxl, .out] s (execRegionUnbind r s) := by
  unfold execRegionUnbind
  refine Ends.next ?_
  refine Keeps.after (State.azRegionUnbind_keeps _ _) (by decide) ?_
  exact Keeps.refl _ _

theorem execRegionZero_ends (r : AzReq) (s : State) :
    Ends [.regs, .evt, .tally, .sched, .nv, .evr, .psq, .chans, .med, .bench, .xlt, .twin, .cxl, .rdma, .sec, .out, .fresh] s (execRegionZero r s) := by
  unfold execRegionZero
  refine Ends.next ?_
  refine Keeps.after (State.azRegionZero_keeps _ _) (by decide) ?_
  exact Keeps.refl _ _

theorem execDcMap_ends (r : AzReq) (s : State) :
    Ends [.regs, .evt, .tally, .evr, .psq, .chans, .med, .cxl, .out] s (execDcMap r s) := by
  unfold execDcMap
  refine Ends.next ?_
  refine Keeps.after (State.azDcMap_keeps _ _) (by decide) ?_
  exact Keeps.refl _ _

/-! ### AzObject -/

theorem State.putObject_keeps (s : State) (i : Nat) (o : Object) :
    Keeps [.regs, .evt, .evr, .chans, .med, .xlt, .cxl, .out] s (State.putObject s i o) := by
  unfold State.putObject
  refine Keeps.after (State.hintScan_keeps _) (by decide) ?_
  refine Keeps.after (State.journal_keeps _ _) (by decide) ?_
  refine Keeps.after (State.setXlt_keeps _ _) (by decide) ?_
  exact Keeps.refl _ _

theorem State.azObjectCreate_keeps (s : State) (r : AzReq) :
    Keeps [.regs, .evt, .tally, .evr, .psq, .chans, .med, .xlt, .cxl, .out] s (State.azObjectCreate s r) := by
  unfold State.azObjectCreate
  extract_lets -merge +onlyGivenNames x1
  refine Keeps.trans ?_ (State.azTake_keeps (by decide) (fun _ => ?_) (fun _ _ => ?_))
  · exact Keeps.refl _ _
  · extract_lets -merge +onlyGivenNames x2
    extract_lets -merge +onlyGivenNames x3
    extract_lets -merge +onlyGivenNames x4
    refine Keeps.ite_st (fun _ => ?_) (fun _ => ?_)
    · dsimp only [State.bad, State.okay, State.refuse, State.later]
      exact Keeps.refl _ _
    · refine Keeps.ite_st (fun _ => ?_) (fun _ => ?_)
      · dsimp only [State.bad, State.okay, State.refuse, State.later]
        exact Keeps.refl _ _
      · refine Keeps.ite_st (fun _ => ?_) (fun _ => ?_)
        · dsimp only [State.bad, State.okay, State.refuse, State.later]
          exact Keeps.refl _ _
        · refine Keeps.ite_st (fun _ => ?_) (fun _ => ?_)
          · dsimp only [State.bad, State.okay, State.refuse, State.later]
            exact Keeps.refl _ _
          · refine Keeps.ite_st (fun _ => ?_) (fun _ => ?_)
            · dsimp only [State.bad, State.okay, State.refuse, State.later]
              exact Keeps.refl _ _
            · split
              · dsimp only [State.bad, State.okay, State.refuse, State.later]
                exact Keeps.refl _ _
              · refine Keeps.ite_st (fun _ => ?_) (fun _ => ?_)
                · dsimp only [State.bad, State.okay, State.refuse, State.later]
                  exact Keeps.refl _ _
                · dsimp only [State.bad, State.okay, State.refuse, State.later]
                  refine Keeps.after (State.putObject_keeps _ _ _) (by decide) ?_
                  exact Keeps.refl _ _
  · extract_lets -merge +onlyGivenNames x2
    extract_lets -merge +onlyGivenNames x3
    extract_lets -merge +onlyGivenNames x4
    refine Keeps.ite_af (fun _ => ?_) (fun _ => ?_)
    · dsimp only [State.bad, State.okay, State.refuse, State.later]
      dsimp only [id]
      exact Keeps.refl _ _
    · refine Keeps.ite_af (fun _ => ?_) (fun _ => ?_)
      · dsimp only [State.bad, State.okay, State.refuse, State.later]
        dsimp only [id]
        exact Keeps.refl _ _
      · refine Keeps.ite_af (fun _ => ?_) (fun _ => ?_)
        · dsimp only [State.bad, State.okay, State.refuse, State.later]
          dsimp only [id]
          exact Keeps.refl _ _
        · refine Keeps.ite_af (fun _ => ?_) (fun _ => ?_)
          · dsimp only [State.bad, State.okay, State.refuse, State.later]
            dsimp only [id]
            exact Keeps.refl _ _
          · refine Keeps.ite_af (fun _ => ?_) (fun _ => ?_)
            · dsimp only [State.bad, State.okay, State.refuse, State.later]
              dsimp only [id]
              exact Keeps.refl _ _
            · split
              · dsimp only [State.bad, State.okay, State.refuse, State.later]
                dsimp only [id]
                exact Keeps.refl _ _
              · refine Keeps.ite_af (fun _ => ?_) (fun _ => ?_)
                · dsimp only [State.bad, State.okay, State.refuse, State.later]
                  dsimp only [id]
                  exact Keeps.refl _ _
                · dsimp only [State.bad, State.okay, State.refuse, State.later]
                  dsimp only [id]
                  exact Keeps.refl _ _

theorem State.azObjectDelete_keeps (s : State) (r : AzReq) :
    Keeps [.regs, .evt, .tally, .evr, .psq, .chans, .med, .xlt, .cxl, .out] s (State.azObjectDelete s r) := by
  unfold State.azObjectDelete
  refine Keeps.trans ?_ (State.azTake_keeps (by decide) (fun _ => ?_) (fun _ _ => ?_))
  · exact Keeps.refl _ _
  · refine Keeps.ite_st (fun _ => ?_) (fun _ => ?_)
    · dsimp only [State.bad, State.okay, State.refuse, State.later]
      exact Keeps.refl _ _
    · extract_lets -merge +onlyGivenNames x1
      refine Keeps.of_let x1 ?_ (fun h1 => ?_)
      · unfold x1
        refine Keeps.after (State.closeWindows_keeps _ _) (by decide) ?_
        exact Keeps.refl _ _
      · dsimp only [State.bad, State.okay, State.refuse, State.later]
        refine Keeps.after (State.putObject_keeps _ _ _) (by decide) ?_
        exact h1
  · refine Keeps.ite_af (fun _ => ?_) (fun _ => ?_)
    · dsimp only [State.bad, State.okay, State.refuse, State.later]
      dsimp only [id]
      exact Keeps.refl _ _
    · extract_lets -merge +onlyGivenNames x1
      dsimp only [State.bad, State.okay, State.refuse, State.later]
      dsimp only [id]
      exact Keeps.refl _ _

theorem State.azHintSet_keeps (s : State) (r : AzReq) :
    Keeps [.regs, .evt, .tally, .evr, .psq, .chans, .med, .xlt, .cxl, .out] s (State.azHintSet s r) := by
  unfold State.azHintSet
  refine Keeps.trans ?_ (State.azTake_keeps (by decide) (fun _ => ?_) (fun _ _ => ?_))
  · exact Keeps.refl _ _
  · refine Keeps.ite_st (fun _ => ?_) (fun _ => ?_)
    · dsimp only [State.bad, State.okay, State.refuse, State.later]
      exact Keeps.refl _ _
    · refine Keeps.ite_st (fun _ => ?_) (fun _ => ?_)
      · dsimp only [State.bad, State.okay, State.refuse, State.later]
        exact Keeps.refl _ _
      · refine Keeps.ite_st (fun _ => ?_) (fun _ => ?_)
        · dsimp only [State.bad, State.okay, State.refuse, State.later]
          exact Keeps.refl _ _
        · extract_lets -merge +onlyGivenNames x1
          dsimp only [State.bad, State.okay, State.refuse, State.later]
          refine Keeps.after (State.putObject_keeps _ _ _) (by decide) ?_
          exact Keeps.refl _ _
  · refine Keeps.ite_af (fun _ => ?_) (fun _ => ?_)
    · dsimp only [State.bad, State.okay, State.refuse, State.later]
      dsimp only [id]
      exact Keeps.refl _ _
    · refine Keeps.ite_af (fun _ => ?_) (fun _ => ?_)
      · dsimp only [State.bad, State.okay, State.refuse, State.later]
        dsimp only [id]
        exact Keeps.refl _ _
      · refine Keeps.ite_af (fun _ => ?_) (fun _ => ?_)
        · dsimp only [State.bad, State.okay, State.refuse, State.later]
          dsimp only [id]
          exact Keeps.refl _ _
        · extract_lets -merge +onlyGivenNames x1
          dsimp only [State.bad, State.okay, State.refuse, State.later]
          dsimp only [id]
          exact Keeps.refl _ _

theorem State.azHintExtend_keeps (s : State) (r : AzReq) :
    Keeps [.regs, .evt, .tally, .evr, .psq, .chans, .med, .xlt, .cxl, .out] s (State.azHintExtend s r) := by
  unfold State.azHintExtend
  refine Keeps.trans ?_ (State.azTake_keeps (by decide) (fun _ => ?_) (fun _ _ => ?_))
  · exact Keeps.refl _ _
  · extract_lets -merge +onlyGivenNames x1
    refine Keeps.ite_st (fun _ => ?_) (fun _ => ?_)
    · dsimp only [State.bad, State.okay, State.refuse, State.later]
      exact Keeps.refl _ _
    · refine Keeps.ite_st (fun _ => ?_) (fun _ => ?_)
      · dsimp only [State.bad, State.okay, State.refuse, State.later]
        exact Keeps.refl _ _
      · extract_lets -merge +onlyGivenNames x2
        dsimp only [State.bad, State.okay, State.refuse, State.later]
        refine Keeps.after (State.putObject_keeps _ _ _) (by decide) ?_
        exact Keeps.refl _ _
  · extract_lets -merge +onlyGivenNames x1
    refine Keeps.ite_af (fun _ => ?_) (fun _ => ?_)
    · dsimp only [State.bad, State.okay, State.refuse, State.later]
      dsimp only [id]
      exact Keeps.refl _ _
    · refine Keeps.ite_af (fun _ => ?_) (fun _ => ?_)
      · dsimp only [State.bad, State.okay, State.refuse, State.later]
        dsimp only [id]
        exact Keeps.refl _ _
      · extract_lets -merge +onlyGivenNames x2
        dsimp only [State.bad, State.okay, State.refuse, State.later]
        dsimp only [id]
        exact Keeps.refl _ _

theorem State.azObjectList_keeps (s : State) (r : AzReq) :
    Keeps [.regs, .evt, .tally, .evr, .psq, .chans, .med, .cxl, .out] s (State.azObjectList s r) := by
  unfold State.azObjectList
  refine Keeps.trans ?_ (State.azTake_keeps (by decide) (fun _ => ?_) (fun _ _ => ?_))
  · exact Keeps.refl _ _
  · refine Keeps.ite_st (fun _ => ?_) (fun _ => ?_)
    · dsimp only [State.bad, State.okay, State.refuse, State.later]
      exact Keeps.refl _ _
    · extract_lets -merge +onlyGivenNames x1
      dsimp only [State.bad, State.okay, State.refuse, State.later]
      exact Keeps.refl _ _
  · refine Keeps.ite_af (fun _ => ?_) (fun _ => ?_)
    · dsimp only [State.bad, State.okay, State.refuse, State.later]
      dsimp only [id]
      exact Keeps.refl _ _
    · extract_lets -merge +onlyGivenNames x1
      dsimp only [State.bad, State.okay, State.refuse, State.later]
      dsimp only [id]
      exact Keeps.refl _ _

theorem State.azPairBind_keeps (s : State) (r : AzReq) :
    Keeps [.regs, .evt, .tally, .nv, .evr, .psq, .chans, .med, .twin, .cxl, .out] s (State.azPairBind s r) := by
  unfold State.azPairBind
  refine Keeps.trans ?_ (State.azTake_keeps (by decide) (fun _ => ?_) (fun _ _ => ?_))
  · exact Keeps.refl _ _
  · refine Keeps.ite_st (fun _ => ?_) (fun _ => ?_)
    · dsimp only [State.bad, State.okay, State.refuse, State.later]
      exact Keeps.refl _ _
    · extract_lets -merge +onlyGivenNames x1
      dsimp only [State.bad, State.okay, State.refuse, State.later]
      refine Keeps.after (State.nvWrite_keeps _ _ _) (by decide) ?_
      refine Keeps.after (State.setTwin_keeps _ _) (by decide) ?_
      exact Keeps.refl _ _
  · refine Keeps.ite_af (fun _ => ?_) (fun _ => ?_)
    · dsimp only [State.bad, State.okay, State.refuse, State.later]
      dsimp only [id]
      exact Keeps.refl _ _
    · extract_lets -merge +onlyGivenNames x1
      dsimp only [State.bad, State.okay, State.refuse, State.later]
      dsimp only [id]
      exact Keeps.refl _ _

theorem State.azPairStatus_keeps (s : State) (r : AzReq) :
    Keeps [.regs, .evt, .tally, .evr, .psq, .chans, .med, .cxl, .out] s (State.azPairStatus s r) := by
  unfold State.azPairStatus
  refine Keeps.trans ?_ (State.azTake_keeps (by decide) (fun _ => ?_) (fun _ _ => ?_))
  · exact Keeps.refl _ _
  · dsimp only [State.bad, State.okay, State.refuse, State.later]
    exact Keeps.refl _ _
  · dsimp only [State.bad, State.okay, State.refuse, State.later]
    dsimp only [id]
    exact Keeps.refl _ _

theorem State.azWitness_keeps {w : List Part} {s : State} {r : AzReq} {op : Nat} {body : State → List Nat → Answer}
    (hw : [Part.regs, .evt, .tally, .evr, .psq, .chans, .med, .cxl, .out] ⊆ w)
    (hs : ∀ u l, Keeps w u (body u l).state) (ha : ∀ u l v, Keeps w v ((body u l).after v)) :
    Keeps w s (s.azWitness r op body) := by
  unfold State.azWitness
  refine State.azTake_keeps hw (fun u => ?_) (fun u v => ?_)
  · split
    · exact Keeps.refl _ _
    · split
      · exact Keeps.refl _ _
      · exact hs _ _
  · split
    · exact Keeps.refl _ _
    · split
      · exact Keeps.refl _ _
      · exact ha _ _ _

theorem State.azSolo_keeps (s : State) (r : AzReq) :
    Keeps [.regs, .evt, .tally, .nv, .evr, .psq, .chans, .med, .bench, .xlt, .twin, .cxl, .rdma, .sec, .out, .fresh] s (State.azSolo s r) := by
  unfold State.azSolo
  refine Keeps.trans ?_ (State.azWitness_keeps (by decide) (fun _ _ => ?_) (fun _ _ _ => ?_))
  · exact Keeps.refl _ _
  · extract_lets -merge +onlyGivenNames x1
    refine Keeps.ite_st (fun _ => ?_) (fun _ => ?_)
    · dsimp only [State.bad, State.okay, State.refuse, State.later]
      exact Keeps.refl _ _
    · dsimp only [State.bad, State.okay, State.refuse, State.later]
      refine Keeps.after (State.settleTwin_keeps _) (by decide) ?_
      refine Keeps.foldl _ (fun _ _ => ?_) ?_
      · refine Keeps.after (State.soloRegion_keeps _ _) (by decide) ?_
        exact Keeps.refl _ _
      · exact Keeps.refl _ _
  · extract_lets -merge +onlyGivenNames x1
    refine Keeps.ite_af (fun _ => ?_) (fun _ => ?_)
    · dsimp only [State.bad, State.okay, State.refuse, State.later]
      dsimp only [id]
      exact Keeps.refl _ _
    · dsimp only [State.bad, State.okay, State.refuse, State.later]
      dsimp only [id]
      exact Keeps.refl _ _

theorem State.azTakeover_keeps (s : State) (r : AzReq) :
    Keeps [.regs, .evt, .tally, .nv, .evr, .psq, .chans, .med, .bench, .xlt, .twin, .cxl, .rdma, .sec, .out, .fresh] s (State.azTakeover s r) := by
  unfold State.azTakeover
  refine Keeps.trans ?_ (State.azWitness_keeps (by decide) (fun _ _ => ?_) (fun _ _ _ => ?_))
  · exact Keeps.refl _ _
  · extract_lets -merge +onlyGivenNames x1
    refine Keeps.ite_st (fun _ => ?_) (fun _ => ?_)
    · dsimp only [State.bad, State.okay, State.refuse, State.later]
      exact Keeps.refl _ _
    · extract_lets -merge +onlyGivenNames x2
      refine Keeps.of_let x2 ?_ (fun h2 => ?_)
      · unfold x2
        refine Keeps.after (State.settleTwin_keeps _) (by decide) ?_
        refine Keeps.foldl _ (fun _ _ => ?_) ?_
        · refine Keeps.after (State.takeoverRegion_keeps _ _) (by decide) ?_
          exact Keeps.refl _ _
        · exact Keeps.refl _ _
      · dsimp only [State.bad, State.okay, State.refuse, State.later]
        exact h2
  · extract_lets -merge +onlyGivenNames x1
    refine Keeps.ite_af (fun _ => ?_) (fun _ => ?_)
    · dsimp only [State.bad, State.okay, State.refuse, State.later]
      dsimp only [id]
      exact Keeps.refl _ _
    · extract_lets -merge +onlyGivenNames x2
      dsimp only [State.bad, State.okay, State.refuse, State.later]
      dsimp only [id]
      exact Keeps.refl _ _

theorem State.azFence_keeps (s : State) (r : AzReq) :
    Keeps [.regs, .evt, .tally, .nv, .evr, .psq, .chans, .med, .bench, .xlt, .twin, .cxl, .rdma, .sec, .out, .fresh] s (State.azFence s r) := by
  unfold State.azFence
  refine Keeps.trans ?_ (State.azWitness_keeps (by decide) (fun _ _ => ?_) (fun _ _ _ => ?_))
  · exact Keeps.refl _ _
  · dsimp only [State.bad, State.okay, State.refuse, State.later]
    refine Keeps.after (State.settleTwin_keeps _) (by decide) ?_
    refine Keeps.foldl _ (fun _ _ => ?_) ?_
    · refine Keeps.ite (fun _ => ?_) (fun _ => ?_)
      · refine Keeps.after (State.setRt_keeps _ _ _) (by decide) ?_
        exact Keeps.refl _ _
      · refine Keeps.after (State.fenceWitness_keeps _ _) (by decide) ?_
        exact Keeps.refl _ _
    · exact Keeps.refl _ _
  · dsimp only [State.bad, State.okay, State.refuse, State.later]
    dsimp only [id]
    exact Keeps.refl _ _

theorem State.azMoveHome_keeps (s : State) (r : AzReq) :
    Keeps [.regs, .evt, .tally, .nv, .evr, .psq, .chans, .med, .bench, .xlt, .twin, .cxl, .rdma, .sec, .out, .fresh] s (State.azMoveHome s r) := by
  unfold State.azMoveHome
  refine Keeps.trans ?_ (State.azTake_keeps (by decide) (fun _ => ?_) (fun _ _ => ?_))
  · exact Keeps.refl _ _
  · extract_lets -merge +onlyGivenNames x1
    extract_lets -merge +onlyGivenNames x2
    refine Keeps.ite_st (fun _ => ?_) (fun _ => ?_)
    · dsimp only [State.bad, State.okay, State.refuse, State.later]
      exact Keeps.refl _ _
    · refine Keeps.ite_st (fun _ => ?_) (fun _ => ?_)
      · dsimp only [State.bad, State.okay, State.refuse, State.later]
        exact Keeps.refl _ _
      · extract_lets -merge +onlyGivenNames x3
        dsimp only
        unfold x3
        dsimp only [State.bad, State.okay, State.refuse, State.later]
        exact Keeps.refl _ _
  · extract_lets -merge +onlyGivenNames x1
    extract_lets -merge +onlyGivenNames x2
    refine Keeps.ite_af (fun _ => ?_) (fun _ => ?_)
    · dsimp only [State.bad, State.okay, State.refuse, State.later]
      dsimp only [id]
      exact Keeps.refl _ _
    · refine Keeps.ite_af (fun _ => ?_) (fun _ => ?_)
      · dsimp only [State.bad, State.okay, State.refuse, State.later]
        dsimp only [id]
        exact Keeps.refl _ _
      · extract_lets -merge +onlyGivenNames x3
        dsimp only
        refine Keeps.after (State.settleTwin_keeps _) (by decide) ?_
        refine Keeps.after (State.setRt_keeps _ _ _) (by decide) ?_
        exact Keeps.refl _ _

theorem State.azDetach_keeps (s : State) (r : AzReq) :
    Keeps [.regs, .evt, .tally, .nv, .evr, .psq, .chans, .med, .bench, .xlt, .twin, .cxl, .rdma, .sec, .out, .fresh] s (State.azDetach s r) := by
  unfold State.azDetach
  refine Keeps.trans ?_ (State.azTake_keeps (by decide) (fun _ => ?_) (fun _ _ => ?_))
  · exact Keeps.refl _ _
  · refine Keeps.ite_st (fun _ => ?_) (fun _ => ?_)
    · dsimp only [State.bad, State.okay, State.refuse, State.later]
      exact Keeps.refl _ _
    · extract_lets -merge +onlyGivenNames x1
      dsimp only
      unfold x1
      dsimp only [State.bad, State.okay, State.refuse, State.later]
      exact Keeps.refl _ _
  · refine Keeps.ite_af (fun _ => ?_) (fun _ => ?_)
    · dsimp only [State.bad, State.okay, State.refuse, State.later]
      dsimp only [id]
      exact Keeps.refl _ _
    · extract_lets -merge +onlyGivenNames x1
      dsimp only
      refine Keeps.after (State.settleTwin_keeps _) (by decide) ?_
      refine Keeps.after (State.detachStart_keeps _ _) (by decide) ?_
      exact Keeps.refl _ _

theorem State.azRejoin_keeps (s : State) (r : AzReq) :
    Keeps [.regs, .evt, .tally, .nv, .evr, .psq, .chans, .med, .twin, .cxl, .out] s (State.azRejoin s r) := by
  unfold State.azRejoin
  refine Keeps.trans ?_ (State.azTake_keeps (by decide) (fun _ => ?_) (fun _ _ => ?_))
  · exact Keeps.refl _ _
  · refine Keeps.ite_st (fun _ => ?_) (fun _ => ?_)
    · dsimp only [State.bad, State.okay, State.refuse, State.later]
      exact Keeps.refl _ _
    · extract_lets -merge +onlyGivenNames x1
      refine Keeps.of_let x1 ?_ (fun h1 => ?_)
      · unfold x1
        refine Keeps.after (State.setPair_keeps _ _) (by decide) ?_
        exact Keeps.refl _ _
      · dsimp only [State.bad, State.okay, State.refuse, State.later]
        refine Keeps.after (State.judgeTdm_keeps _) (by decide) ?_
        refine Keeps.ite (fun _ => ?_) (fun _ => ?_)
        · refine Keeps.after (startPairing_keeps _ _) (by decide) ?_
          exact h1
        · exact h1
  · refine Keeps.ite_af (fun _ => ?_) (fun _ => ?_)
    · dsimp only [State.bad, State.okay, State.refuse, State.later]
      dsimp only [id]
      exact Keeps.refl _ _
    · extract_lets -merge +onlyGivenNames x1
      dsimp only [State.bad, State.okay, State.refuse, State.later]
      dsimp only [id]
      exact Keeps.refl _ _

theorem execObjectCreate_ends (r : AzReq) (s : State) :
    Ends [.regs, .evt, .tally, .evr, .psq, .chans, .med, .xlt, .cxl, .out] s (execObjectCreate r s) := by
  unfold execObjectCreate
  refine Ends.next ?_
  refine Keeps.after (State.azObjectCreate_keeps _ _) (by decide) ?_
  exact Keeps.refl _ _

theorem execObjectDelete_ends (r : AzReq) (s : State) :
    Ends [.regs, .evt, .tally, .evr, .psq, .chans, .med, .xlt, .cxl, .out] s (execObjectDelete r s) := by
  unfold execObjectDelete
  refine Ends.next ?_
  refine Keeps.after (State.azObjectDelete_keeps _ _) (by decide) ?_
  exact Keeps.refl _ _

theorem execHintSet_ends (r : AzReq) (s : State) :
    Ends [.regs, .evt, .tally, .evr, .psq, .chans, .med, .xlt, .cxl, .out] s (execHintSet r s) := by
  unfold execHintSet
  refine Ends.next ?_
  refine Keeps.after (State.azHintSet_keeps _ _) (by decide) ?_
  exact Keeps.refl _ _

theorem execHintExtend_ends (r : AzReq) (s : State) :
    Ends [.regs, .evt, .tally, .evr, .psq, .chans, .med, .xlt, .cxl, .out] s (execHintExtend r s) := by
  unfold execHintExtend
  refine Ends.next ?_
  refine Keeps.after (State.azHintExtend_keeps _ _) (by decide) ?_
  exact Keeps.refl _ _

theorem execObjectList_ends (r : AzReq) (s : State) :
    Ends [.regs, .evt, .tally, .evr, .psq, .chans, .med, .cxl, .out] s (execObjectList r s) := by
  unfold execObjectList
  refine Ends.next ?_
  refine Keeps.after (State.azObjectList_keeps _ _) (by decide) ?_
  exact Keeps.refl _ _

theorem execPairBind_ends (r : AzReq) (s : State) :
    Ends [.regs, .evt, .tally, .nv, .evr, .psq, .chans, .med, .twin, .cxl, .out] s (execPairBind r s) := by
  unfold execPairBind
  refine Ends.next ?_
  refine Keeps.after (State.azPairBind_keeps _ _) (by decide) ?_
  exact Keeps.refl _ _

theorem execPairStatus_ends (r : AzReq) (s : State) :
    Ends [.regs, .evt, .tally, .evr, .psq, .chans, .med, .cxl, .out] s (execPairStatus r s) := by
  unfold execPairStatus
  refine Ends.next ?_
  refine Keeps.after (State.azPairStatus_keeps _ _) (by decide) ?_
  exact Keeps.refl _ _

theorem execSolo_ends (r : AzReq) (s : State) :
    Ends [.regs, .evt, .tally, .nv, .evr, .psq, .chans, .med, .bench, .xlt, .twin, .cxl, .rdma, .sec, .out, .fresh] s (execSolo r s) := by
  unfold execSolo
  refine Ends.next ?_
  refine Keeps.after (State.azSolo_keeps _ _) (by decide) ?_
  exact Keeps.refl _ _

theorem execTakeover_ends (r : AzReq) (s : State) :
    Ends [.regs, .evt, .tally, .nv, .evr, .psq, .chans, .med, .bench, .xlt, .twin, .cxl, .rdma, .sec, .out, .fresh] s (execTakeover r s) := by
  unfold execTakeover
  refine Ends.next ?_
  refine Keeps.after (State.azTakeover_keeps _ _) (by decide) ?_
  exact Keeps.refl _ _

theorem execFence_ends (r : AzReq) (s : State) :
    Ends [.regs, .evt, .tally, .nv, .evr, .psq, .chans, .med, .bench, .xlt, .twin, .cxl, .rdma, .sec, .out, .fresh] s (execFence r s) := by
  unfold execFence
  refine Ends.next ?_
  refine Keeps.after (State.azFence_keeps _ _) (by decide) ?_
  exact Keeps.refl _ _

theorem execMoveHome_ends (r : AzReq) (s : State) :
    Ends [.regs, .evt, .tally, .nv, .evr, .psq, .chans, .med, .bench, .xlt, .twin, .cxl, .rdma, .sec, .out, .fresh] s (execMoveHome r s) := by
  unfold execMoveHome
  refine Ends.next ?_
  refine Keeps.after (State.azMoveHome_keeps _ _) (by decide) ?_
  exact Keeps.refl _ _

theorem execDetach_ends (r : AzReq) (s : State) :
    Ends [.regs, .evt, .tally, .nv, .evr, .psq, .chans, .med, .bench, .xlt, .twin, .cxl, .rdma, .sec, .out, .fresh] s (execDetach r s) := by
  unfold execDetach
  refine Ends.next ?_
  refine Keeps.after (State.azDetach_keeps _ _) (by decide) ?_
  exact Keeps.refl _ _

theorem execRejoin_ends (r : AzReq) (s : State) :
    Ends [.regs, .evt, .tally, .nv, .evr, .psq, .chans, .med, .twin, .cxl, .out] s (execRejoin r s) := by
  unfold execRejoin
  refine Ends.next ?_
  refine Keeps.after (State.azRejoin_keeps _ _) (by decide) ?_
  exact Keeps.refl _ _

/-! ### AzKeys -/

theorem State.stageBytes_keeps (s : State) (c : Nat) (bs : List Byte) :
    Keeps [.chans] s (State.stageBytes s c bs) := by
  unfold State.stageBytes
  refine Keeps.foldl_fst _ (fun _ _ => ?_) ?_
  · dsimp only
    refine Keeps.after (State.setStageByte_keeps _ _ _ _) (by decide) ?_
    exact Keeps.refl _ _
  · dsimp only
    exact Keeps.refl _ _

theorem State.stageWipe_keeps (s : State) (c : Nat) (first : Nat) (n : Nat) :
    Keeps [.chans] s (State.stageWipe s c first n) := by
  unfold State.stageWipe
  refine Keeps.foldl _ (fun _ _ => ?_) ?_
  · refine Keeps.after (State.setStageByte_keeps _ _ _ _) (by decide) ?_
    exact Keeps.refl _ _
  · exact Keeps.refl _ _

theorem State.unlockFail_keeps (s : State) (r : Nat) :
    Keeps [.regs, .evt, .nv, .evr, .chans, .cxl, .sec, .out] s (State.unlockFail s r) := by
  unfold State.unlockFail
  extract_lets -merge +onlyGivenNames x1
  extract_lets -merge +onlyGivenNames x2
  extract_lets -merge +onlyGivenNames x3
  extract_lets -merge +onlyGivenNames x4
  extract_lets -merge +onlyGivenNames x5
  refine Keeps.after (State.judgeSec_keeps _) (by decide) ?_
  refine Keeps.after (State.cause_keeps _ _ _ _ _) (by decide) ?_
  refine Keeps.after (State.bump_keeps _ _ _ _ _ _) (by decide) ?_
  refine Keeps.after (State.setKeySlot_keeps _ _ _) (by decide) ?_
  exact Keeps.refl _ _

theorem State.unlockDone_keeps (s : State) (r : Nat) :
    Keeps [.regs, .evt, .sched, .nv, .evr, .chans, .med, .bench, .xlt, .twin, .cxl, .rdma, .sec, .out, .fresh] s (State.unlockDone s r) := by
  unfold State.unlockDone
  extract_lets -merge +onlyGivenNames x1
  extract_lets -merge +onlyGivenNames x2
  extract_lets -merge +onlyGivenNames x3
  refine Keeps.of_let x3 ?_ (fun h3 => ?_)
  · unfold x3
    refine Keeps.after (State.setKeySlot_keeps _ _ _) (by decide) ?_
    exact Keeps.refl _ _
  · refine Keeps.after (State.judgeSec_keeps _) (by decide) ?_
    refine Keeps.ite (fun _ => ?_) (fun _ => ?_)
    · exact h3
    · extract_lets -merge +onlyGivenNames x4
      refine Keeps.of_let x4 ?_ (fun h4 => ?_)
      · unfold x4
        refine Keeps.after (State.keyIn_keeps _ _ _) (by decide) ?_
        exact h3
      · refine Keeps.after (State.settleMed_keeps _) (by decide) ?_
        refine Keeps.after (State.sendAttr_keeps _ _ _) (by decide) ?_
        exact h4

theorem State.azRegionUnlock_keeps (s : State) (r : AzReq) :
    Keeps [.regs, .evt, .tally, .sched, .nv, .evr, .psq, .chans, .med, .bench, .xlt, .twin, .cxl, .rdma, .sec, .out, .fresh] s (State.azRegionUnlock s r) := by
  unfold State.azRegionUnlock
  extract_lets -merge +onlyGivenNames x1
  refine Keeps.trans ?_ (State.azTake_keeps (by decide) (fun _ => ?_) (fun _ _ => ?_))
  · exact Keeps.refl _ _
  · extract_lets -merge +onlyGivenNames x2
    refine Keeps.ite_st (fun _ => ?_) (fun _ => ?_)
    · dsimp only [State.bad, State.okay, State.refuse, State.later]
      exact Keeps.refl _ _
    · refine Keeps.ite_st (fun _ => ?_) (fun _ => ?_)
      · dsimp only [State.bad, State.okay, State.refuse, State.later]
        exact Keeps.refl _ _
      · refine Keeps.ite_st (fun _ => ?_) (fun _ => ?_)
        · dsimp only [State.bad, State.okay, State.refuse, State.later]
          exact Keeps.refl _ _
        · refine Keeps.ite_st (fun _ => ?_) (fun _ => ?_)
          · dsimp only [State.bad, State.okay, State.refuse, State.later]
            exact Keeps.refl _ _
          · extract_lets -merge +onlyGivenNames x3
            refine Keeps.of_let x3 ?_ (fun h3 => ?_)
            · unfold x3
              refine Keeps.after (State.stageWipe_keeps _ _ _ _) (by decide) ?_
              exact Keeps.refl _ _
            · refine Keeps.ite_st (fun _ => ?_) (fun _ => ?_)
              · dsimp only [State.bad, State.okay, State.refuse, State.later]
                refine Keeps.after (State.unlockDone_keeps _ _) (by decide) ?_
                exact h3
              · dsimp only [State.bad, State.okay, State.refuse, State.later]
                refine Keeps.after (State.unlockFail_keeps _ _) (by decide) ?_
                exact h3
  · extract_lets -merge +onlyGivenNames x2
    refine Keeps.ite_af (fun _ => ?_) (fun _ => ?_)
    · dsimp only [State.bad, State.okay, State.refuse, State.later]
      dsimp only [id]
      exact Keeps.refl _ _
    · refine Keeps.ite_af (fun _ => ?_) (fun _ => ?_)
      · dsimp only [State.bad, State.okay, State.refuse, State.later]
        dsimp only [id]
        exact Keeps.refl _ _
      · refine Keeps.ite_af (fun _ => ?_) (fun _ => ?_)
        · dsimp only [State.bad, State.okay, State.refuse, State.later]
          dsimp only [id]
          exact Keeps.refl _ _
        · refine Keeps.ite_af (fun _ => ?_) (fun _ => ?_)
          · dsimp only [State.bad, State.okay, State.refuse, State.later]
            dsimp only [id]
            exact Keeps.refl _ _
          · extract_lets -merge +onlyGivenNames x3
            refine Keeps.ite_af (fun _ => ?_) (fun _ => ?_)
            · dsimp only [State.bad, State.okay, State.refuse, State.later]
              dsimp only [id]
              exact Keeps.refl _ _
            · dsimp only [State.bad, State.okay, State.refuse, State.later]
              dsimp only [id]
              exact Keeps.refl _ _

theorem State.azRegionLock_keeps (s : State) (r : AzReq) :
    Keeps [.regs, .evt, .tally, .sched, .nv, .evr, .psq, .chans, .med, .bench, .xlt, .twin, .cxl, .rdma, .sec, .out, .fresh] s (State.azRegionLock s r) := by
  unfold State.azRegionLock
  extract_lets -merge +onlyGivenNames x1
  refine Keeps.trans ?_ (State.azTake_keeps (by decide) (fun _ => ?_) (fun _ _ => ?_))
  · exact Keeps.refl _ _
  · extract_lets -merge +onlyGivenNames x2
    refine Keeps.ite_st (fun _ => ?_) (fun _ => ?_)
    · dsimp only [State.bad, State.okay, State.refuse, State.later]
      exact Keeps.refl _ _
    · refine Keeps.ite_st (fun _ => ?_) (fun _ => ?_)
      · dsimp only [State.bad, State.okay, State.refuse, State.later]
        exact Keeps.refl _ _
      · refine Keeps.ite_st (fun _ => ?_) (fun _ => ?_)
        · dsimp only [State.bad, State.okay, State.refuse, State.later]
          exact Keeps.refl _ _
        · dsimp only [State.bad, State.okay, State.refuse, State.later]
          refine Keeps.after (State.settleMed_keeps _) (by decide) ?_
          refine Keeps.after (State.setKeySlot_keeps _ _ _) (by decide) ?_
          refine Keeps.after (State.sendAttr_keeps _ _ _) (by decide) ?_
          exact Keeps.refl _ _
  · extract_lets -merge +onlyGivenNames x2
    refine Keeps.ite_af (fun _ => ?_) (fun _ => ?_)
    · dsimp only [State.bad, State.okay, State.refuse, State.later]
      dsimp only [id]
      exact Keeps.refl _ _
    · refine Keeps.ite_af (fun _ => ?_) (fun _ => ?_)
      · dsimp only [State.bad, State.okay, State.refuse, State.later]
        dsimp only [id]
        exact Keeps.refl _ _
      · refine Keeps.ite_af (fun _ => ?_) (fun _ => ?_)
        · dsimp only [State.bad, State.okay, State.refuse, State.later]
          dsimp only [id]
          exact Keeps.refl _ _
        · dsimp only [State.bad, State.okay, State.refuse, State.later]
          dsimp only [id]
          exact Keeps.refl _ _

theorem State.azCryptoErase_keeps (s : State) (r : AzReq) :
    Keeps [.regs, .evt, .tally, .sched, .nv, .evr, .psq, .chans, .med, .bench, .xlt, .twin, .cxl, .rdma, .sec, .out, .fresh] s (State.azCryptoErase s r) := by
  unfold State.azCryptoErase
  refine Keeps.trans ?_ (State.azTake_keeps (by decide) (fun _ => ?_) (fun _ _ => ?_))
  · exact Keeps.refl _ _
  · refine Keeps.ite_st (fun _ => ?_) (fun _ => ?_)
    · dsimp only [State.bad, State.okay, State.refuse, State.later]
      exact Keeps.refl _ _
    · refine Keeps.ite_st (fun _ => ?_) (fun _ => ?_)
      · dsimp only [State.bad, State.okay, State.refuse, State.later]
        exact Keeps.refl _ _
      · dsimp only [State.bad, State.okay, State.refuse, State.later]
        refine Keeps.after (State.settleMed_keeps _) (by decide) ?_
        refine Keeps.after (State.judgeSec_keeps _) (by decide) ?_
        refine Keeps.after (State.eraseBegin_keeps _ _) (by decide) ?_
        exact Keeps.refl _ _
  · refine Keeps.ite_af (fun _ => ?_) (fun _ => ?_)
    · dsimp only [State.bad, State.okay, State.refuse, State.later]
      dsimp only [id]
      exact Keeps.refl _ _
    · refine Keeps.ite_af (fun _ => ?_) (fun _ => ?_)
      · dsimp only [State.bad, State.okay, State.refuse, State.later]
        dsimp only [id]
        exact Keeps.refl _ _
      · dsimp only [State.bad, State.okay, State.refuse, State.later]
        dsimp only [id]
        exact Keeps.refl _ _

theorem State.azTimeKeySet_keeps (s : State) (r : AzReq) :
    Keeps [.regs, .evt, .tally, .nv, .evr, .psq, .chans, .med, .cxl, .sec, .out] s (State.azTimeKeySet s r) := by
  unfold State.azTimeKeySet
  refine Keeps.trans ?_ (State.azTake_keeps (by decide) (fun _ => ?_) (fun _ _ => ?_))
  · exact Keeps.refl _ _
  · refine Keeps.ite_st (fun _ => ?_) (fun _ => ?_)
    · dsimp only [State.bad, State.okay, State.refuse, State.later]
      exact Keeps.refl _ _
    · extract_lets -merge +onlyGivenNames x1
      dsimp only [State.bad, State.okay, State.refuse, State.later]
      refine Keeps.after (State.nvWrite_keeps _ _ _) (by decide) ?_
      refine Keeps.set_sec (by decide) rfl ?_
      exact Keeps.refl _ _
  · refine Keeps.ite_af (fun _ => ?_) (fun _ => ?_)
    · dsimp only [State.bad, State.okay, State.refuse, State.later]
      dsimp only [id]
      exact Keeps.refl _ _
    · extract_lets -merge +onlyGivenNames x1
      dsimp only [State.bad, State.okay, State.refuse, State.later]
      dsimp only [id]
      exact Keeps.refl _ _

theorem Keeps.set_rdma_sec {w : List Part} {s t : State} {x0} {x1} (hp : Part.rdma ∈ w ∧ Part.sec ∈ w)
    (hx : (x1.groups, x1.arb) = (t.sec.groups, t.sec.arb)) (h : Keeps w s t) :
    Keeps w s { t with rdma := x0, sec := x1 } := fun q hq => by
  cases q <;> first | exact h _ hq | exact hx.trans (h .fuse hq) | simp_all

theorem Keeps.set_rdma_sec_fuse {w : List Part} {s t : State} {x0} {x1} (hp : Part.rdma ∈ w ∧ Part.sec ∈ w ∧ Part.fuse ∈ w) (h : Keeps w s t) :
    Keeps w s { t with rdma := x0, sec := x1 } := fun q hq => by
  cases q <;> first | exact h _ hq | simp_all

theorem State.azMacsecCakSet_keeps (s : State) (r : AzReq) :
    Keeps [.regs, .evt, .tally, .nv, .evr, .psq, .chans, .med, .cxl, .rdma, .sec, .out] s (State.azMacsecCakSet s r) := by
  unfold State.azMacsecCakSet
  refine Keeps.trans ?_ (State.azTake_keeps (by decide) (fun _ => ?_) (fun _ _ => ?_))
  · exact Keeps.refl _ _
  · refine Keeps.ite_st (fun _ => ?_) (fun _ => ?_)
    · dsimp only [State.bad, State.okay, State.refuse, State.later]
      exact Keeps.refl _ _
    · refine Keeps.ite_st (fun _ => ?_) (fun _ => ?_)
      · dsimp only [State.bad, State.okay, State.refuse, State.later]
        exact Keeps.refl _ _
      · extract_lets -merge +onlyGivenNames x1
        extract_lets -merge +onlyGivenNames x2
        extract_lets -merge +onlyGivenNames x3
        extract_lets -merge +onlyGivenNames x4
        extract_lets -merge +onlyGivenNames x5
        refine Keeps.of_let x5 ?_ (fun h5 => ?_)
        · unfold x5
          refine Keeps.set_rdma_sec (by decide) rfl ?_
          exact Keeps.refl _ _
        · dsimp only [State.bad, State.okay, State.refuse, State.later]
          refine Keeps.after (State.stageWipe_keeps _ _ _ _) (by decide) ?_
          refine Keeps.after (State.nvWrite_keeps _ _ _) (by decide) ?_
          exact h5
  · refine Keeps.ite_af (fun _ => ?_) (fun _ => ?_)
    · dsimp only [State.bad, State.okay, State.refuse, State.later]
      dsimp only [id]
      exact Keeps.refl _ _
    · refine Keeps.ite_af (fun _ => ?_) (fun _ => ?_)
      · dsimp only [State.bad, State.okay, State.refuse, State.later]
        dsimp only [id]
        exact Keeps.refl _ _
      · extract_lets -merge +onlyGivenNames x1
        extract_lets -merge +onlyGivenNames x2
        extract_lets -merge +onlyGivenNames x3
        extract_lets -merge +onlyGivenNames x4
        extract_lets -merge +onlyGivenNames x5
        dsimp only [State.bad, State.okay, State.refuse, State.later]
        dsimp only [id]
        exact Keeps.refl _ _

theorem State.azCertGet_keeps (s : State) (r : AzReq) :
    Keeps [.regs, .evt, .tally, .evr, .psq, .chans, .med, .cxl, .out] s (State.azCertGet s r) := by
  unfold State.azCertGet
  refine Keeps.trans ?_ (State.azTake_keeps (by decide) (fun _ => ?_) (fun _ _ => ?_))
  · exact Keeps.refl _ _
  · refine Keeps.ite_st (fun _ => ?_) (fun _ => ?_)
    · dsimp only [State.bad, State.okay, State.refuse, State.later]
      exact Keeps.refl _ _
    · extract_lets -merge +onlyGivenNames x1
      refine Keeps.ite_st (fun _ => ?_) (fun _ => ?_)
      · dsimp only [State.bad, State.okay, State.refuse, State.later]
        exact Keeps.refl _ _
      · extract_lets -merge +onlyGivenNames x2
        dsimp only [State.bad, State.okay, State.refuse, State.later]
        refine Keeps.after (State.stageBytes_keeps _ _ _) (by decide) ?_
        exact Keeps.refl _ _
  · refine Keeps.ite_af (fun _ => ?_) (fun _ => ?_)
    · dsimp only [State.bad, State.okay, State.refuse, State.later]
      dsimp only [id]
      exact Keeps.refl _ _
    · extract_lets -merge +onlyGivenNames x1
      refine Keeps.ite_af (fun _ => ?_) (fun _ => ?_)
      · dsimp only [State.bad, State.okay, State.refuse, State.later]
        dsimp only [id]
        exact Keeps.refl _ _
      · extract_lets -merge +onlyGivenNames x2
        dsimp only [State.bad, State.okay, State.refuse, State.later]
        dsimp only [id]
        exact Keeps.refl _ _

theorem State.azLcStatus_keeps (s : State) (r : AzReq) :
    Keeps [.regs, .evt, .tally, .evr, .psq, .chans, .med, .cxl, .out] s (State.azLcStatus s r) := by
  unfold State.azLcStatus
  refine Keeps.trans ?_ (State.azTake_keeps (by decide) (fun _ => ?_) (fun _ _ => ?_))
  · exact Keeps.refl _ _
  · dsimp only [State.bad, State.okay, State.refuse, State.later]
    exact Keeps.refl _ _
  · dsimp only [State.bad, State.okay, State.refuse, State.later]
    dsimp only [id]
    exact Keeps.refl _ _

theorem State.blow_keeps (s : State) (r : AzReq) (gs : List Nat) (target : Nat) :
    Keeps [.regs, .evt, .nv, .evr, .chans, .cxl, .sec, .fuse, .out] s (State.blow s r gs target) := by
  unfold State.blow
  extract_lets -merge +onlyGivenNames x1
  extract_lets -merge +onlyGivenNames x2
  extract_lets -merge +onlyGivenNames x3
  extract_lets -merge +onlyGivenNames x4
  extract_lets -merge +onlyGivenNames x5
  refine Keeps.after (State.judgeSec_keeps _) (by decide) ?_
  refine Keeps.after (State.lifeWrite_keeps _) (by decide) ?_
  refine Keeps.set_sec_fuse (by decide) ?_
  exact Keeps.refl _ _

theorem State.azLcAdvance_keeps (s : State) (r : AzReq) :
    Keeps [.regs, .evt, .tally, .nv, .evr, .psq, .chans, .med, .cxl, .sec, .fuse, .out] s (State.azLcAdvance s r) := by
  unfold State.azLcAdvance
  refine Keeps.trans ?_ (State.azTake_keeps (by decide) (fun _ => ?_) (fun _ _ => ?_))
  · exact Keeps.refl _ _
  · refine Keeps.ite_st (fun _ => ?_) (fun _ => ?_)
    · dsimp only [State.bad, State.okay, State.refuse, State.later]
      exact Keeps.refl _ _
    · refine Keeps.ite_st (fun _ => ?_) (fun _ => ?_)
      · dsimp only [State.bad, State.okay, State.refuse, State.later]
        exact Keeps.refl _ _
      · split
        · dsimp only [State.bad, State.okay, State.refuse, State.later]
          refine Keeps.after (State.cause_keeps _ _ _ _ _) (by decide) ?_
          exact Keeps.refl _ _
        · dsimp only [State.bad, State.okay, State.refuse, State.later]
          refine Keeps.after (State.blow_keeps _ _ _ _) (by decide) ?_
          exact Keeps.refl _ _
  · refine Keeps.ite_af (fun _ => ?_) (fun _ => ?_)
    · dsimp only [State.bad, State.okay, State.refuse, State.later]
      dsimp only [id]
      exact Keeps.refl _ _
    · refine Keeps.ite_af (fun _ => ?_) (fun _ => ?_)
      · dsimp only [State.bad, State.okay, State.refuse, State.later]
        dsimp only [id]
        exact Keeps.refl _ _
      · split
        · dsimp only [State.bad, State.okay, State.refuse, State.later]
          dsimp only [id]
          exact Keeps.refl _ _
        · dsimp only [State.bad, State.okay, State.refuse, State.later]
          dsimp only [id]
          exact Keeps.refl _ _

theorem State.lcDone_keeps (s : State) (ok : Bool) :
    Keeps [.regs, .evt, .sched, .nv, .evr, .flash, .chans, .med, .bench, .xlt, .twin, .cxl, .rdma, .sec, .out, .fresh] s (State.lcDone s ok).1 := by
  unfold State.lcDone
  split
  · dsimp only
    exact Keeps.refl _ _
  · extract_lets -merge +onlyGivenNames x1
    extract_lets -merge +onlyGivenNames x2
    refine Keeps.of_let x2 ?_ (fun h2 => ?_)
    · unfold x2
      refine Keeps.set_sec (by decide) rfl ?_
      exact Keeps.refl _ _
    · refine Keeps.ite_fst (fun _ => ?_) (fun _ => ?_)
      · dsimp only
        refine Keeps.after (State.settleMed_keeps _) (by decide) ?_
        refine Keeps.after (State.cause_keeps _ _ _ _ _) (by decide) ?_
        refine Keeps.after (State.lifeActions_keeps _) (by decide) ?_
        exact h2
      · dsimp only
        refine Keeps.after (State.cause_keeps _ _ _ _ _) (by decide) ?_
        exact h2

theorem State.azDebugUnlock_keeps (s : State) (r : AzReq) :
    Keeps [.regs, .evt, .tally, .evr, .psq, .chans, .med, .cxl, .sec, .out, .fresh] s (State.azDebugUnlock s r) := by
  unfold State.azDebugUnlock
  refine Keeps.trans ?_ (State.azTake_keeps (by decide) (fun _ => ?_) (fun _ _ => ?_))
  · exact Keeps.refl _ _
  · refine Keeps.ite_st (fun _ => ?_) (fun _ => ?_)
    · dsimp only [State.bad, State.okay, State.refuse, State.later]
      exact Keeps.refl _ _
    · refine Keeps.ite_st (fun _ => ?_) (fun _ => ?_)
      · refine Keeps.ite_st (fun _ => ?_) (fun _ => ?_)
        · dsimp only [State.bad, State.okay, State.refuse, State.later]
          exact Keeps.refl _ _
        · extract_lets -merge +onlyGivenNames x1
          extract_lets -merge +onlyGivenNames x2
          refine Keeps.of_let x2 ?_ (fun h2 => ?_)
          · unfold x2
            refine Keeps.foldl _ (fun _ _ => ?_) ?_
            · refine Keeps.after (State.draw_keeps _) (by decide) ?_
              exact Keeps.refl _ _
            · exact Keeps.refl _ _
          · dsimp only [State.bad, State.okay, State.refuse, State.later]
            refine Keeps.set_sec (by decide) rfl ?_
            exact h2
      · extract_lets -merge +onlyGivenNames x1
        extract_lets -merge +onlyGivenNames x2
        refine Keeps.of_let x2 ?_ (fun h2 => ?_)
        · unfold x2
          refine Keeps.set_sec (by decide) rfl ?_
          exact Keeps.refl _ _
        · refine Keeps.ite_st (fun _ => ?_) (fun _ => ?_)
          · dsimp only [State.bad, State.okay, State.refuse, State.later]
            refine Keeps.after (State.judgeSec_keeps _) (by decide) ?_
            refine Keeps.set_sec (by decide) rfl ?_
            exact h2
          · dsimp only [State.bad, State.okay, State.refuse, State.later]
            refine Keeps.after (State.cause_keeps _ _ _ _ _) (by decide) ?_
            refine Keeps.after (State.cause_keeps _ _ _ _ _) (by decide) ?_
            exact h2
  · refine Keeps.ite_af (fun _ => ?_) (fun _ => ?_)
    · dsimp only [State.bad, State.okay, State.refuse, State.later]
      dsimp only [id]
      exact Keeps.refl _ _
    · refine Keeps.ite_af (fun _ => ?_) (fun _ => ?_)
      · refine Keeps.ite_af (fun _ => ?_) (fun _ => ?_)
        · dsimp only [State.bad, State.okay, State.refuse, State.later]
          dsimp only [id]
          exact Keeps.refl _ _
        · extract_lets -merge +onlyGivenNames x1
          extract_lets -merge +onlyGivenNames x2
          dsimp only [State.bad, State.okay, State.refuse, State.later]
          dsimp only [id]
          exact Keeps.refl _ _
      · extract_lets -merge +onlyGivenNames x1
        extract_lets -merge +onlyGivenNames x2
        refine Keeps.ite_af (fun _ => ?_) (fun _ => ?_)
        · dsimp only [State.bad, State.okay, State.refuse, State.later]
          dsimp only [id]
          exact Keeps.refl _ _
        · dsimp only [State.bad, State.okay, State.refuse, State.later]
          dsimp only [id]
          exact Keeps.refl _ _

theorem execRegionUnlock_ends (r : AzReq) (s : State) :
    Ends [.regs, .evt, .tally, .sched, .nv, .evr, .psq, .chans, .med, .bench, .xlt, .twin, .cxl, .rdma, .sec, .out, .fresh] s (execRegionUnlock r s) := by
  unfold execRegionUnlock
  refine Ends.next ?_
  refine Keeps.after (State.azRegionUnlock_keeps _ _) (by decide) ?_
  exact Keeps.refl _ _

theorem execRegionLock_ends (r : AzReq) (s : State) :
    Ends [.regs, .evt, .tally, .sched, .nv, .evr, .psq, .chans, .med, .bench, .xlt, .twin, .cxl, .rdma, .sec, .out, .fresh] s (execRegionLock r s) := by
  unfold execRegionLock
  refine Ends.next ?_
  refine Keeps.after (State.azRegionLock_keeps _ _) (by decide) ?_
  exact Keeps.refl _ _

theorem execCryptoErase_ends (r : AzReq) (s : State) :
    Ends [.regs, .evt, .tally, .sched, .nv, .evr, .psq, .chans, .med, .bench, .xlt, .twin, .cxl, .rdma, .sec, .out, .fresh] s (execCryptoErase r s) := by
  unfold execCryptoErase
  refine Ends.next ?_
  refine Keeps.after (State.azCryptoErase_keeps _ _) (by decide) ?_
  exact Keeps.refl _ _

theorem execTimeKeySet_ends (r : AzReq) (s : State) :
    Ends [.regs, .evt, .tally, .nv, .evr, .psq, .chans, .med, .cxl, .sec, .out] s (execTimeKeySet r s) := by
  unfold execTimeKeySet
  refine Ends.next ?_
  refine Keeps.after (State.azTimeKeySet_keeps _ _) (by decide) ?_
  exact Keeps.refl _ _

theorem execMacsecCakSet_ends (r : AzReq) (s : State) :
    Ends [.regs, .evt, .tally, .nv, .evr, .psq, .chans, .med, .cxl, .rdma, .sec, .out] s (execMacsecCakSet r s) := by
  unfold execMacsecCakSet
  refine Ends.next ?_
  refine Keeps.after (State.azMacsecCakSet_keeps _ _) (by decide) ?_
  exact Keeps.refl _ _

theorem execCertGet_ends (r : AzReq) (s : State) :
    Ends [.regs, .evt, .tally, .evr, .psq, .chans, .med, .cxl, .out] s (execCertGet r s) := by
  unfold execCertGet
  refine Ends.next ?_
  refine Keeps.after (State.azCertGet_keeps _ _) (by decide) ?_
  exact Keeps.refl _ _

theorem execLcStatus_ends (r : AzReq) (s : State) :
    Ends [.regs, .evt, .tally, .evr, .psq, .chans, .med, .cxl, .out] s (execLcStatus r s) := by
  unfold execLcStatus
  refine Ends.next ?_
  refine Keeps.after (State.azLcStatus_keeps _ _) (by decide) ?_
  exact Keeps.refl _ _

theorem execLcAdvance_ends (r : AzReq) (s : State) :
    Ends [.regs, .evt, .tally, .nv, .evr, .psq, .chans, .med, .cxl, .sec, .fuse, .out] s (execLcAdvance r s) := by
  unfold execLcAdvance
  refine Ends.next ?_
  refine Keeps.after (State.azLcAdvance_keeps _ _) (by decide) ?_
  exact Keeps.refl _ _

theorem execDebugUnlockChallenge_ends (r : AzReq) (s : State) :
    Ends [.regs, .evt, .tally, .evr, .psq, .chans, .med, .cxl, .sec, .out, .fresh] s (execDebugUnlockChallenge r s) := by
  unfold execDebugUnlockChallenge
  refine Ends.next ?_
  refine Keeps.after (State.azDebugUnlock_keeps _ _) (by decide) ?_
  exact Keeps.refl _ _

theorem execDebugUnlockResponse_ends (r : AzReq) (s : State) :
    Ends [.regs, .evt, .tally, .evr, .psq, .chans, .med, .cxl, .sec, .out, .fresh] s (execDebugUnlockResponse r s) := by
  unfold execDebugUnlockResponse
  refine Ends.next ?_
  refine Keeps.after (State.azDebugUnlock_keeps _ _) (by decide) ?_
  exact Keeps.refl _ _

theorem execDebugChallengeExpiry_ends (s : State) :
    Ends [.sec] s (execDebugChallengeExpiry s) := by
  unfold execDebugChallengeExpiry
  refine Ends.next ?_
  refine Keeps.set_sec (by decide) rfl ?_
  exact Keeps.refl _ _

theorem execRopRaise_ends (s : State) :
    Ends [.nv, .sec] s (execRopRaise s) := by
  unfold execRopRaise
  refine Ends.next ?_
  refine Keeps.ite (fun _ => ?_) (fun _ => ?_)
  · refine Keeps.after (State.ropRaise_keeps _) (by decide) ?_
    exact Keeps.refl _ _
  · exact Keeps.refl _ _

theorem execDebugClose_ends (s : State) :
    Ends [.regs, .evt, .evr, .chans, .cxl, .sec, .out] s (execDebugClose s) := by
  unfold execDebugClose
  refine Ends.next ?_
  refine Keeps.ite (fun _ => ?_) (fun _ => ?_)
  · refine Keeps.after (State.debugClose_keeps _) (by decide) ?_
    exact Keeps.refl _ _
  · exact Keeps.refl _ _

theorem execTrngFail_ends (s : State) :
    Ends [.regs, .evt, .evr, .chans, .cxl, .sec, .out] s (execTrngFail s) := by
  unfold execTrngFail
  refine Ends.next ?_
  refine Keeps.ite (fun _ => ?_) (fun _ => ?_)
  · refine Keeps.after (State.judgeSec_keeps _) (by decide) ?_
    refine Keeps.after (State.bump_keeps _ _ _ _ _ _) (by decide) ?_
    refine Keeps.set_sec (by decide) rfl ?_
    exact Keeps.refl _ _
  · exact Keeps.refl _ _

theorem execTrngOk_ends (s : State) :
    Ends [.regs, .evt, .evr, .chans, .cxl, .sec, .out] s (execTrngOk s) := by
  unfold execTrngOk
  refine Ends.next ?_
  refine Keeps.ite (fun _ => ?_) (fun _ => ?_)
  · refine Keeps.after (State.judgeSec_keeps _) (by decide) ?_
    refine Keeps.set_sec (by decide) rfl ?_
    exact Keeps.refl _ _
  · exact Keeps.refl _ _

theorem execDrbgReseed_ends (s : State) :
    Ends [.sec] s (execDrbgReseed s) := by
  unfold execDrbgReseed
  refine Ends.next ?_
  refine Keeps.ite (fun _ => ?_) (fun _ => ?_)
  · refine Keeps.set_sec (by decide) rfl ?_
    exact Keeps.refl _ _
  · exact Keeps.refl _ _

end Sys2Proof.Machine
end

