-- ==== Sys2Proof/Laws/Frame7.lean ====
section
/-! SUPPORT. What each operation and command of AzFw, AzTime, AzMisc, AzRdma, AzDispatch, AzSession, Start, Yarrow can change: every other part of the state stays. -/

namespace Sys2Proof.Machine

/-! ### AzFw -/

theorem State.imageWords_keeps (s : State) (slot : Bool) (off : Nat) (ws : List Word) :
    Keeps [.flash] s (State.imageWords s slot off ws) := by
  unfold State.imageWords
  refine Keeps.after (State.setFlash_keeps _ _) (by decide) ?_
  exact Keeps.refl _ _

theorem State.chunkStart_keeps (s : State) (who : Option (Fin 64 × BitVec 16)) (off : Nat) (ws : List Word) :
    Keeps [.nv, .flash] s (State.chunkStart s who off ws) := by
  unfold State.chunkStart
  extract_lets -merge +onlyGivenNames x1
  extract_lets -merge +onlyGivenNames x2
  extract_lets -merge +onlyGivenNames x3
  extract_lets -merge +onlyGivenNames x4
  refine Keeps.of_let x4 ?_ (fun h4 => ?_)
  · unfold x4
    refine Keeps.after (State.imageWords_keeps _ _ _ _) (by decide) ?_
    refine Keeps.after (State.putImage_keeps _ _ _) (by decide) ?_
    exact Keeps.refl _ _
  · extract_lets -merge +onlyGivenNames x5
    extract_lets -merge +onlyGivenNames x6
    refine Keeps.of_let x6 ?_ (fun h6 => ?_)
    · unfold x6
      refine Keeps.after (State.setFlash_keeps _ _) (by decide) ?_
      exact h4
    · extract_lets -merge +onlyGivenNames x7
      extract_lets -merge +onlyGivenNames x8
      refine Keeps.of_let x8 ?_ (fun h8 => ?_)
      · unfold x8
        refine Keeps.foldl _ (fun _ _ => ?_) ?_
        · refine Keeps.after (State.flashPush_keeps _ _) (by decide) ?_
          exact Keeps.refl _ _
        · exact h6
      · refine Keeps.foldl _ (fun _ _ => ?_) ?_
        · refine Keeps.after (State.flashPush_keeps _ _) (by decide) ?_
          exact Keeps.refl _ _
        · exact h8

theorem State.azFwChunk_keeps (s : State) (r : AzReq) :
    Keeps [.regs, .evt, .tally, .nv, .evr, .flash, .psq, .chans, .med, .cxl, .out] s (State.azFwChunk s r) := by
  unfold State.azFwChunk
  refine Keeps.trans ?_ (State.azTake_keeps (by decide) (fun _ => ?_) (fun _ _ => ?_))
  · exact Keeps.refl _ _
  · extract_lets -merge +onlyGivenNames x1
    extract_lets -merge +onlyGivenNames x2
    refine Keeps.ite_st (fun _ => ?_) (fun _ => ?_)
    · dsimp only [State.bad, State.okay, State.refuse, State.later]
      exact Keeps.refl _ _
    · refine Keeps.ite_st (fun _ => ?_) (fun _ => ?_)
      · dsimp only [State.bad, State.okay, State.refuse, State.later]
        exact Keeps.refl _ _
      · refine Keeps.ite_st (fun _ => ?_) (fun _ => ?_)
        · dsimp only [State.bad, State.okay, State.refuse, State.later]
          exact Keeps.refl _ _
        · refine Keeps.ite_st (fun _ => ?_) (fun _ => ?_)
          · dsimp only [State.bad, State.okay, State.refuse, State.later]
            exact Keeps.refl _ _
          · dsimp only [State.bad, State.okay, State.refuse, State.later]
            refine Keeps.after (State.chunkStart_keeps _ _ _ _) (by decide) ?_
            exact Keeps.refl _ _
  · extract_lets -merge +onlyGivenNames x1
    extract_lets -merge +onlyGivenNames x2
    refine Keeps.ite_af (fun _ => ?_) (fun _ => ?_)
    · dsimp only [State.bad, State.okay, State.refuse, State.later]
      dsimp only [id]
      exact Keeps.refl _ _
    · refine Keeps.ite_af (fun _ => ?_) (fun _ => ?_)
      · dsimp only [State.bad, State.okay, State.refuse, State.later]
        dsimp only [id]
        exact Keeps.refl _ _
      · refine Keeps.ite_af (fun _ => ?_) (fun _ => ?_)
        · dsimp only [State.bad, State.okay, State.refuse, State.later]
          dsimp only [id]
          exact Keeps.refl _ _
        · refine Keeps.ite_af (fun _ => ?_) (fun _ => ?_)
          · dsimp only [State.bad, State.okay, State.refuse, State.later]
            dsimp only [id]
            exact Keeps.refl _ _
          · dsimp only [State.bad, State.okay, State.refuse, State.later]
            dsimp only [id]
            exact Keeps.refl _ _

theorem State.fwJudge_keeps (s : State) (who : Option (Fin 64 × BitVec 16)) (len : Nat) (ok : Bool) :
    Keeps [.regs, .evt, .nv, .evr, .flash, .chans, .cxl, .out] s (State.fwJudge s who len ok).1 := by
  unfold State.fwJudge
  extract_lets -merge +onlyGivenNames x1
  extract_lets -merge +onlyGivenNames x2
  extract_lets -merge +onlyGivenNames x3
  extract_lets -merge +onlyGivenNames x4
  extract_lets -merge +onlyGivenNames x5
  refine Keeps.ite_fst (fun _ => ?_) (fun _ => ?_)
  · dsimp only
    exact Keeps.refl _ _
  · refine Keeps.ite_fst (fun _ => ?_) (fun _ => ?_)
    · dsimp only
      exact Keeps.refl _ _
    · extract_lets -merge +onlyGivenNames x6
      refine Keeps.of_let x6 ?_ (fun h6 => ?_)
      · unfold x6
        refine Keeps.after (State.putImage_keeps _ _ _) (by decide) ?_
        exact Keeps.refl _ _
      · refine Keeps.ite_fst (fun _ => ?_) (fun _ => ?_)
        · dsimp only
          exact h6
        · refine Keeps.ite_fst (fun _ => ?_) (fun _ => ?_)
          · dsimp only
            refine Keeps.after (State.bootCopyStart_keeps _ _ _) (by decide) ?_
            exact h6
          · extract_lets -merge +onlyGivenNames x7
            extract_lets -merge +onlyGivenNames x8
            refine Keeps.of_let x8 ?_ (fun h8 => ?_)
            · unfold x8
              refine Keeps.after (State.putSlots_keeps _ _) (by decide) ?_
              exact h6
            · dsimp only
              refine Keeps.after (State.record_keeps _ _ _ _ _ _) (by decide) ?_
              refine Keeps.after (State.cause_keeps _ _ _ _ _) (by decide) ?_
              exact h8

theorem State.azFwCommit_keeps (s : State) (r : AzReq) :
    Keeps [.regs, .evt, .tally, .evr, .flash, .psq, .chans, .med, .cxl, .out] s (State.azFwCommit s r) := by
  unfold State.azFwCommit
  refine Keeps.trans ?_ (State.azTake_keeps (by decide) (fun _ => ?_) (fun _ _ => ?_))
  · exact Keeps.refl _ _
  · refine Keeps.ite_st (fun _ => ?_) (fun _ => ?_)
    · dsimp only [State.bad, State.okay, State.refuse, State.later]
      exact Keeps.refl _ _
    · dsimp only [State.bad, State.okay, State.refuse, State.later]
      refine Keeps.after (State.setFlash_keeps _ _) (by decide) ?_
      exact Keeps.refl _ _
  · refine Keeps.ite_af (fun _ => ?_) (fun _ => ?_)
    · dsimp only [State.bad, State.okay, State.refuse, State.later]
      dsimp only [id]
      exact Keeps.refl _ _
    · dsimp only [State.bad, State.okay, State.refuse, State.later]
      dsimp only [id]
      exact Keeps.refl _ _

theorem State.fwCommitDone_keeps (s : State) (who : Fin 64 × BitVec 16) (len : Nat) (ok : Bool) :
    Keeps [.regs, .evt, .nv, .evr, .flash, .chans, .cxl, .out] s (State.fwCommitDone s who len ok).1 := by
  unfold State.fwCommitDone
  extract_lets -merge +onlyGivenNames x1
  extract_lets -merge +onlyGivenNames x2
  refine Keeps.of_let x2 ?_ (fun h2 => ?_)
  · unfold x2
    refine Keeps.after (State.setFlash_keeps _ _) (by decide) ?_
    exact Keeps.refl _ _
  · split
    · dsimp only
      refine Keeps.of_fst (by assumption) ?_
      refine Keeps.after (State.fwJudge_keeps _ _ _ _) (by decide) ?_
      exact h2
    · dsimp only
      refine Keeps.of_fst (by assumption) ?_
      refine Keeps.after (State.fwJudge_keeps _ _ _ _) (by decide) ?_
      exact h2
    · dsimp only
      refine Keeps.of_fst (by assumption) ?_
      refine Keeps.after (State.fwJudge_keeps _ _ _ _) (by decide) ?_
      exact h2

theorem State.azFwActivate_keeps (s : State) (r : AzReq) :
    Keeps [.regs, .evt, .tally, .evr, .flash, .psq, .chans, .med, .cxl, .out] s (State.azFwActivate s r) := by
  unfold State.azFwActivate
  refine Keeps.trans ?_ (State.azTake_keeps (by decide) (fun _ => ?_) (fun _ _ => ?_))
  · exact Keeps.refl _ _
  · refine Keeps.ite_st (fun _ => ?_) (fun _ => ?_)
    · dsimp only [State.bad, State.okay, State.refuse, State.later]
      exact Keeps.refl _ _
    · refine Keeps.ite_st (fun _ => ?_) (fun _ => ?_)
      · dsimp only [State.bad, State.okay, State.refuse, State.later]
        exact Keeps.refl _ _
      · dsimp only [State.bad, State.okay, State.refuse, State.later]
        refine Keeps.after (State.setFlash_keeps _ _) (by decide) ?_
        exact Keeps.refl _ _
  · refine Keeps.ite_af (fun _ => ?_) (fun _ => ?_)
    · dsimp only [State.bad, State.okay, State.refuse, State.later]
      dsimp only [id]
      exact Keeps.refl _ _
    · refine Keeps.ite_af (fun _ => ?_) (fun _ => ?_)
      · dsimp only [State.bad, State.okay, State.refuse, State.later]
        dsimp only [id]
        exact Keeps.refl _ _
      · dsimp only [State.bad, State.okay, State.refuse, State.later]
        dsimp only [id]
        exact Keeps.refl _ _

theorem State.azFwInfo_keeps (s : State) (r : AzReq) :
    Keeps [.regs, .evt, .tally, .evr, .psq, .chans, .med, .cxl, .out] s (State.azFwInfo s r) := by
  unfold State.azFwInfo
  refine Keeps.trans ?_ (State.azTake_keeps (by decide) (fun _ => ?_) (fun _ _ => ?_))
  · exact Keeps.refl _ _
  · dsimp only [State.bad, State.okay, State.refuse, State.later]
    exact Keeps.refl _ _
  · dsimp only [State.bad, State.okay, State.refuse, State.later]
    dsimp only [id]
    exact Keeps.refl _ _

theorem State.vaultLose_keeps (s : State) (lost : List Nat) :
    Keeps [.regs, .evt, .evr, .flash, .chans, .cxl, .out] s (State.vaultLose s lost) := by
  unfold State.vaultLose
  refine Keeps.foldl _ (fun _ _ => ?_) ?_
  · split
    · refine Keeps.ite (fun _ => ?_) (fun _ => ?_)
      · refine Keeps.after (State.cause_keeps _ _ _ _ _) (by decide) ?_
        refine Keeps.after (State.setFlash_keeps _ _) (by decide) ?_
        exact Keeps.refl _ _
      · exact Keeps.refl _ _
    · exact Keeps.refl _ _
  · exact Keeps.refl _ _

theorem State.azVaultRead_keeps (s : State) (r : AzReq) (lost : List Nat) :
    Keeps [.regs, .evt, .tally, .evr, .flash, .psq, .chans, .med, .cxl, .out] s (State.azVaultRead s r lost) := by
  unfold State.azVaultRead
  refine Keeps.trans ?_ (State.azTake_keeps (by decide) (fun _ => ?_) (fun _ _ => ?_))
  · exact Keeps.refl _ _
  · refine Keeps.ite_st (fun _ => ?_) (fun _ => ?_)
    · dsimp only [State.bad, State.okay, State.refuse, State.later]
      exact Keeps.refl _ _
    · refine Keeps.ite_st (fun _ => ?_) (fun _ => ?_)
      · dsimp only [State.bad, State.okay, State.refuse, State.later]
        exact Keeps.refl _ _
      · extract_lets -merge +onlyGivenNames x1
        refine Keeps.of_let x1 ?_ (fun h1 => ?_)
        · unfold x1
          refine Keeps.after (State.vaultLose_keeps _ _) (by decide) ?_
          exact Keeps.refl _ _
        · extract_lets -merge +onlyGivenNames x2
          extract_lets -merge +onlyGivenNames x3
          dsimp only [State.bad, State.okay, State.refuse, State.later]
          refine Keeps.after (State.stageBytes_keeps _ _ _) (by decide) ?_
          exact h1
  · refine Keeps.ite_af (fun _ => ?_) (fun _ => ?_)
    · dsimp only [State.bad, State.okay, State.refuse, State.later]
      dsimp only [id]
      exact Keeps.refl _ _
    · refine Keeps.ite_af (fun _ => ?_) (fun _ => ?_)
      · dsimp only [State.bad, State.okay, State.refuse, State.later]
        dsimp only [id]
        exact Keeps.refl _ _
      · extract_lets -merge +onlyGivenNames x1
        extract_lets -merge +onlyGivenNames x2
        extract_lets -merge +onlyGivenNames x3
        dsimp only [State.bad, State.okay, State.refuse, State.later]
        dsimp only [id]
        exact Keeps.refl _ _

theorem State.azEvrRead_keeps (s : State) (r : AzReq) :
    Keeps [.regs, .evt, .tally, .evr, .psq, .chans, .med, .cxl, .out] s (State.azEvrRead s r) := by
  unfold State.azEvrRead
  refine Keeps.trans ?_ (State.azTake_keeps (by decide) (fun _ => ?_) (fun _ _ => ?_))
  · exact Keeps.refl _ _
  · refine Keeps.ite_st (fun _ => ?_) (fun _ => ?_)
    · dsimp only [State.bad, State.okay, State.refuse, State.later]
      exact Keeps.refl _ _
    · extract_lets -merge +onlyGivenNames x1
      extract_lets -merge +onlyGivenNames x2
      extract_lets -merge +onlyGivenNames x3
      dsimp only [State.bad, State.okay, State.refuse, State.later]
      refine Keeps.after (State.stageBytes_keeps _ _ _) (by decide) ?_
      exact Keeps.refl _ _
  · refine Keeps.ite_af (fun _ => ?_) (fun _ => ?_)
    · dsimp only [State.bad, State.okay, State.refuse, State.later]
      dsimp only [id]
      exact Keeps.refl _ _
    · extract_lets -merge +onlyGivenNames x1
      extract_lets -merge +onlyGivenNames x2
      extract_lets -merge +onlyGivenNames x3
      dsimp only [State.bad, State.okay, State.refuse, State.later]
      dsimp only [id]
      exact Keeps.refl _ _

theorem State.azEvrClear_keeps (s : State) (r : AzReq) :
    Keeps [.regs, .evt, .tally, .nv, .evr, .flash, .psq, .chans, .med, .cxl, .out] s (State.azEvrClear s r) := by
  unfold State.azEvrClear
  refine Keeps.trans ?_ (State.azTake_keeps (by decide) (fun _ => ?_) (fun _ _ => ?_))
  · exact Keeps.refl _ _
  · extract_lets -merge +onlyGivenNames x1
    extract_lets -merge +onlyGivenNames x2
    extract_lets -merge +onlyGivenNames x3
    extract_lets -merge +onlyGivenNames x4
    refine Keeps.of_let x4 ?_ (fun h4 => ?_)
    · unfold x4
      refine Keeps.after (State.nvWrite_keeps _ _ _) (by decide) ?_
      refine Keeps.after (State.setEvr_keeps _ _) (by decide) ?_
      exact Keeps.refl _ _
    · extract_lets -merge +onlyGivenNames x5
      extract_lets -merge +onlyGivenNames x6
      refine Keeps.of_let x6 ?_ (fun h6 => ?_)
      · unfold x6
        refine Keeps.after (State.setFlash_keeps _ _) (by decide) ?_
        exact h4
      · extract_lets -merge +onlyGivenNames x7
        refine Keeps.of_let x7 ?_ (fun h7 => ?_)
        · unfold x7
          refine Keeps.foldl _ (fun _ _ => ?_) ?_
          · refine Keeps.after (State.flashPush_keeps _ _) (by decide) ?_
            exact Keeps.refl _ _
          · exact h6
        · dsimp only [State.bad, State.okay, State.refuse, State.later]
          refine Keeps.after (State.record_keeps _ _ _ _ _ _) (by decide) ?_
          exact h7
  · extract_lets -merge +onlyGivenNames x1
    extract_lets -merge +onlyGivenNames x2
    extract_lets -merge +onlyGivenNames x3
    extract_lets -merge +onlyGivenNames x4
    extract_lets -merge +onlyGivenNames x5
    extract_lets -merge +onlyGivenNames x6
    extract_lets -merge +onlyGivenNames x7
    dsimp only [State.bad, State.okay, State.refuse, State.later]
    dsimp only [id]
    exact Keeps.refl _ _

theorem State.azEvrRateSet_keeps (s : State) (r : AzReq) :
    Keeps [.regs, .evt, .tally, .nv, .evr, .psq, .chans, .med, .cxl, .out] s (State.azEvrRateSet s r) := by
  unfold State.azEvrRateSet
  refine Keeps.trans ?_ (State.azTake_keeps (by decide) (fun _ => ?_) (fun _ _ => ?_))
  · exact Keeps.refl _ _
  · refine Keeps.ite_st (fun _ => ?_) (fun _ => ?_)
    · dsimp only [State.bad, State.okay, State.refuse, State.later]
      exact Keeps.refl _ _
    · refine Keeps.ite_st (fun _ => ?_) (fun _ => ?_)
      · dsimp only [State.bad, State.okay, State.refuse, State.later]
        exact Keeps.refl _ _
      · extract_lets -merge +onlyGivenNames x1
        dsimp only [State.bad, State.okay, State.refuse, State.later]
        refine Keeps.after (State.putBucket_keeps _ _ _) (by decide) ?_
        exact Keeps.refl _ _
  · refine Keeps.ite_af (fun _ => ?_) (fun _ => ?_)
    · dsimp only [State.bad, State.okay, State.refuse, State.later]
      dsimp only [id]
      exact Keeps.refl _ _
    · refine Keeps.ite_af (fun _ => ?_) (fun _ => ?_)
      · dsimp only [State.bad, State.okay, State.refuse, State.later]
        dsimp only [id]
        exact Keeps.refl _ _
      · extract_lets -merge +onlyGivenNames x1
        dsimp only [State.bad, State.okay, State.refuse, State.later]
        dsimp only [id]
        exact Keeps.refl _ _

theorem State.azEvrStatus_keeps (s : State) (r : AzReq) :
    Keeps [.regs, .evt, .tally, .evr, .psq, .chans, .med, .cxl, .out] s (State.azEvrStatus s r) := by
  unfold State.azEvrStatus
  refine Keeps.trans ?_ (State.azTake_keeps (by decide) (fun _ => ?_) (fun _ _ => ?_))
  · exact Keeps.refl _ _
  · dsimp only [State.bad, State.okay, State.refuse, State.later]
    exact Keeps.refl _ _
  · dsimp only [State.bad, State.okay, State.refuse, State.later]
    dsimp only [id]
    exact Keeps.refl _ _

theorem State.transferFw_keeps (s : State) (action : Fin 5) (off : Nat) (data : List Word) (ok : Bool) :
    Keeps [.regs, .evt, .nv, .evr, .flash, .chans, .cxl, .out] s (State.transferFw s action off data ok).1 := by
  unfold State.transferFw
  extract_lets -merge +onlyGivenNames x1
  extract_lets -merge +onlyGivenNames x2
  refine Keeps.ite_fst (fun _ => ?_) (fun _ => ?_)
  · refine Keeps.ite_fst (fun _ => ?_) (fun _ => ?_)
    · dsimp only
      unfold x1
      refine Keeps.set_cxl (by decide) ?_
      exact Keeps.refl _ _
    · dsimp only
      exact Keeps.refl _ _
  · refine Keeps.ite_fst (fun _ => ?_) (fun _ => ?_)
    · dsimp only
      exact Keeps.refl _ _
    · refine Keeps.ite_fst (fun _ => ?_) (fun _ => ?_)
      · dsimp only
        exact Keeps.refl _ _
      · refine Keeps.ite_fst (fun _ => ?_) (fun _ => ?_)
        · dsimp only
          exact Keeps.refl _ _
        · refine Keeps.ite_fst (fun _ => ?_) (fun _ => ?_)
          · dsimp only
            exact Keeps.refl _ _
          · refine Keeps.ite_fst (fun _ => ?_) (fun _ => ?_)
            · dsimp only
              exact Keeps.refl _ _
            · extract_lets -merge +onlyGivenNames x3
              refine Keeps.of_let x3 ?_ (fun h3 => ?_)
              · unfold x3
                refine Keeps.after (State.chunkStart_keeps _ _ _ _) (by decide) ?_
                exact Keeps.refl _ _
              · extract_lets -merge +onlyGivenNames x4
                refine Keeps.ite_fst (fun _ => ?_) (fun _ => ?_)
                · extract_lets -merge +onlyGivenNames x5
                  refine Keeps.of_let x5 ?_ (fun h5 => ?_)
                  · unfold x5
                    unfold x1
                    refine Keeps.set_cxl (by decide) ?_
                    exact h3
                  · split
                    dsimp only
                    refine Keeps.of_fst (by assumption) ?_
                    refine Keeps.after (State.fwJudge_keeps _ _ _ _) (by decide) ?_
                    exact h5
                · dsimp only
                  unfold x1
                  refine Keeps.set_cxl (by decide) ?_
                  exact h3

theorem State.activateFw_keeps (s : State) (online : Bool) (slot : Nat) :
    Keeps [.flash] s (State.activateFw s online slot).1 := by
  unfold State.activateFw
  refine Keeps.ite_fst (fun _ => ?_) (fun _ => ?_)
  · dsimp only
    exact Keeps.refl _ _
  · refine Keeps.ite_fst (fun _ => ?_) (fun _ => ?_)
    · dsimp only
      exact Keeps.refl _ _
    · refine Keeps.ite_fst (fun _ => ?_) (fun _ => ?_)
      · dsimp only
        exact Keeps.refl _ _
      · refine Keeps.ite_fst (fun _ => ?_) (fun _ => ?_)
        · dsimp only
          exact Keeps.refl _ _
        · dsimp only
          refine Keeps.after (State.setFlash_keeps _ _) (by decide) ?_
          exact Keeps.refl _ _

theorem execFwChunk_ends (r : AzReq) (s : State) :
    Ends [.regs, .evt, .tally, .nv, .evr, .flash, .psq, .chans, .med, .cxl, .out] s (execFwChunk r s) := by
  unfold execFwChunk
  refine Ends.next ?_
  refine Keeps.after (State.azFwChunk_keeps _ _) (by decide) ?_
  exact Keeps.refl _ _

theorem execFwCommit_ends (r : AzReq) (s : State) :
    Ends [.regs, .evt, .tally, .evr, .flash, .psq, .chans, .med, .cxl, .out] s (execFwCommit r s) := by
  unfold execFwCommit
  refine Ends.next ?_
  refine Keeps.after (State.azFwCommit_keeps _ _) (by decide) ?_
  exact Keeps.refl _ _

theorem execFwActivate_ends (r : AzReq) (s : State) :
    Ends [.regs, .evt, .tally, .evr, .flash, .psq, .chans, .med, .cxl, .out] s (execFwActivate r s) := by
  unfold execFwActivate
  refine Ends.next ?_
  refine Keeps.after (State.azFwActivate_keeps _ _) (by decide) ?_
  exact Keeps.refl _ _

theorem execFwInfo_ends (r : AzReq) (s : State) :
    Ends [.regs, .evt, .tally, .evr, .psq, .chans, .med, .cxl, .out] s (execFwInfo r s) := by
  unfold execFwInfo
  refine Ends.next ?_
  refine Keeps.after (State.azFwInfo_keeps _ _) (by decide) ?_
  exact Keeps.refl _ _

theorem execVaultRead_ends (r : AzReq) (lost : List Nat) (s : State) :
    Ends [.regs, .evt, .tally, .evr, .flash, .psq, .chans, .med, .cxl, .out] s (execVaultRead r lost s) := by
  unfold execVaultRead
  refine Ends.next ?_
  refine Keeps.after (State.azVaultRead_keeps _ _ _) (by decide) ?_
  exact Keeps.refl _ _

theorem execEvrRead_ends (r : AzReq) (s : State) :
    Ends [.regs, .evt, .tally, .evr, .psq, .chans, .med, .cxl, .out] s (execEvrRead r s) := by
  unfold execEvrRead
  refine Ends.next ?_
  refine Keeps.after (State.azEvrRead_keeps _ _) (by decide) ?_
  exact Keeps.refl _ _

theorem execEvrClear_ends (r : AzReq) (s : State) :
    Ends [.regs, .evt, .tally, .nv, .evr, .flash, .psq, .chans, .med, .cxl, .out] s (execEvrClear r s) := by
  unfold execEvrClear
  refine Ends.next ?_
  refine Keeps.after (State.azEvrClear_keeps _ _) (by decide) ?_
  exact Keeps.refl _ _

theorem execEvrRateSet_ends (r : AzReq) (s : State) :
    Ends [.regs, .evt, .tally, .nv, .evr, .psq, .chans, .med, .cxl, .out] s (execEvrRateSet r s) := by
  unfold execEvrRateSet
  refine Ends.next ?_
  refine Keeps.after (State.azEvrRateSet_keeps _ _) (by decide) ?_
  exact Keeps.refl _ _

theorem execEvrStatus_ends (r : AzReq) (s : State) :
    Ends [.regs, .evt, .tally, .evr, .psq, .chans, .med, .cxl, .out] s (execEvrStatus r s) := by
  unfold execEvrStatus
  refine Ends.next ?_
  refine Keeps.after (State.azEvrStatus_keeps _ _) (by decide) ?_
  exact Keeps.refl _ _

theorem execTransferFw_ends (p : Fin 4) (l : Fin 16) (action : Fin 5) (off : Nat) (data : List Word) (ok : Bool) (s : State) :
    Ends [.regs, .evt, .tally, .nv, .evr, .flash, .psq, .chans, .med, .cxl, .out] s (execTransferFw p l action off data ok s) := by
  unfold execTransferFw
  refine Ends.mailbox (by decide) (fun _ => ?_)
  refine Keeps.ite_fst (fun _ => ?_) (fun _ => ?_)
  · refine Keeps.after (State.transferFw_keeps _ _ _ _ _) (by decide) ?_
    exact Keeps.refl _ _
  · dsimp only
    exact Keeps.refl _ _

theorem execActivateFw_ends (p : Fin 4) (l : Fin 16) (online : Bool) (slot : Fin 4) (s : State) :
    Ends [.regs, .evt, .tally, .evr, .flash, .psq, .chans, .med, .cxl, .out] s (execActivateFw p l online slot s) := by
  unfold execActivateFw
  refine Ends.mailbox (by decide) (fun _ => ?_)
  refine Keeps.ite_fst (fun _ => ?_) (fun _ => ?_)
  · refine Keeps.after (State.activateFw_keeps _ _ _) (by decide) ?_
    exact Keeps.refl _ _
  · dsimp only
    exact Keeps.refl _ _

/-! ### AzTime -/

theorem State.azTallyStatus_keeps (s : State) (r : AzReq) :
    Keeps [.regs, .evt, .tally, .evr, .psq, .chans, .med, .cxl, .out] s (State.azTallyStatus s r) := by
  unfold State.azTallyStatus
  refine Keeps.trans ?_ (State.azTake_keeps (by decide) (fun _ => ?_) (fun _ _ => ?_))
  · exact Keeps.refl _ _
  · extract_lets -merge +onlyGivenNames x1
    dsimp only [State.bad, State.okay, State.refuse, State.later]
    exact Keeps.refl _ _
  · extract_lets -merge +onlyGivenNames x1
    dsimp only [State.bad, State.okay, State.refuse, State.later]
    dsimp only [id]
    exact Keeps.refl _ _

theorem State.jumpConfirm_keeps (s : State) (v : Dword) :
    Keeps [.regs, .evt, .tally, .sched, .nv, .evr, .chans, .cxl, .out] s (State.jumpConfirm s v) := by
  unfold State.jumpConfirm
  extract_lets -merge +onlyGivenNames x1
  extract_lets -merge +onlyGivenNames x2
  refine Keeps.of_let x2 ?_ (fun h2 => ?_)
  · unfold x2
    refine Keeps.after (State.setTally_keeps _ _) (by decide) ?_
    exact Keeps.refl _ _
  · refine Keeps.after (State.selectSource_keeps _) (by decide) ?_
    refine Keeps.after (State.unmarkSlots_keeps _) (by decide) ?_
    refine Keeps.after (State.applied_keeps _) (by decide) ?_
    refine Keeps.after (State.pulse_keeps _ _) (by decide) ?_
    refine Keeps.after (State.writeFloor_keeps _ _) (by decide) ?_
    exact h2

theorem State.timeOverride_keeps (s : State) (v : Dword) :
    Keeps [.regs, .evt, .tally, .sched, .evr, .chans, .cxl, .out] s (State.timeOverride s v) := by
  unfold State.timeOverride
  extract_lets -merge +onlyGivenNames x1
  extract_lets -merge +onlyGivenNames x2
  refine Keeps.of_let x2 ?_ (fun h2 => ?_)
  · unfold x2
    refine Keeps.after (State.setTally_keeps _ _) (by decide) ?_
    exact Keeps.refl _ _
  · extract_lets -merge +onlyGivenNames x3
    refine Keeps.of_let x3 ?_ (fun h3 => ?_)
    · unfold x3
      refine Keeps.after (State.selectSource_keeps _) (by decide) ?_
      exact h2
    · refine Keeps.after (State.moveNow_keeps _ _ _ _) (by decide) ?_
      refine Keeps.ite (fun _ => ?_) (fun _ => ?_)
      · refine Keeps.after (State.pulse_keeps _ _) (by decide) ?_
        exact h3
      · exact h3

theorem State.timeAgree_keeps (s : State) (v : Dword) :
    Keeps [.regs, .evt, .tally, .sched, .evr, .chans, .cxl, .out] s (State.timeAgree s v) := by
  unfold State.timeAgree
  extract_lets -merge +onlyGivenNames x1
  extract_lets -merge +onlyGivenNames x2
  refine Keeps.of_let x2 ?_ (fun h2 => ?_)
  · unfold x2
    refine Keeps.after (State.selectSource_keeps _) (by decide) ?_
    refine Keeps.after (State.setTally_keeps _ _) (by decide) ?_
    exact Keeps.refl _ _
  · refine Keeps.ite (fun _ => ?_) (fun _ => ?_)
    · refine Keeps.after (State.moveNow_keeps _ _ _ _) (by decide) ?_
      exact h2
    · refine Keeps.after (State.setTally_keeps _ _) (by decide) ?_
      exact h2

theorem State.timeSigned_keeps (s : State) (v : Dword) :
    Keeps [.regs, .evt, .tally, .sched, .nv, .evr, .chans, .cxl, .out] s (State.timeSigned s v) := by
  unfold State.timeSigned
  extract_lets -merge +onlyGivenNames x1
  refine Keeps.ite (fun _ => ?_) (fun _ => ?_)
  · exact Keeps.refl _ _
  · refine Keeps.ite (fun _ => ?_) (fun _ => ?_)
    · refine Keeps.after (State.belowFloor_keeps _ _) (by decide) ?_
      exact Keeps.refl _ _
    · refine Keeps.ite (fun _ => ?_) (fun _ => ?_)
      · refine Keeps.after (State.jumpConfirm_keeps _ _) (by decide) ?_
        exact Keeps.refl _ _
      · refine Keeps.ite (fun _ => ?_) (fun _ => ?_)
        · refine Keeps.after (State.timeOverride_keeps _ _) (by decide) ?_
          exact Keeps.refl _ _
        · refine Keeps.after (State.timeAgree_keeps _ _) (by decide) ?_
          exact Keeps.refl _ _

theorem State.azTimeSigned_keeps (s : State) (r : AzReq) :
    Keeps [.regs, .evt, .tally, .sched, .nv, .evr, .psq, .chans, .med, .xlt, .cxl, .out] s (State.azTimeSigned s r) := by
  unfold State.azTimeSigned
  refine Keeps.trans ?_ (State.azTake_keeps (by decide) (fun _ => ?_) (fun _ _ => ?_))
  · exact Keeps.refl _ _
  · refine Keeps.ite_st (fun _ => ?_) (fun _ => ?_)
    · dsimp only [State.bad, State.okay, State.refuse, State.later]
      refine Keeps.after (State.pulse_keeps _ _) (by decide) ?_
      exact Keeps.refl _ _
    · refine Keeps.ite_st (fun _ => ?_) (fun _ => ?_)
      · dsimp only [State.bad, State.okay, State.refuse, State.later]
        exact Keeps.refl _ _
      · dsimp only [State.bad, State.okay, State.refuse, State.later]
        refine Keeps.after (State.ageFollow_keeps _ _) (by decide) ?_
        refine Keeps.after (State.timeSigned_keeps _ _) (by decide) ?_
        exact Keeps.refl _ _
  · refine Keeps.ite_af (fun _ => ?_) (fun _ => ?_)
    · dsimp only [State.bad, State.okay, State.refuse, State.later]
      dsimp only [id]
      exact Keeps.refl _ _
    · refine Keeps.ite_af (fun _ => ?_) (fun _ => ?_)
      · dsimp only [State.bad, State.okay, State.refuse, State.later]
        dsimp only [id]
        exact Keeps.refl _ _
      · dsimp only [State.bad, State.okay, State.refuse, State.later]
        dsimp only [id]
        exact Keeps.refl _ _

theorem State.azSchedAdd_keeps (s : State) (r : AzReq) :
    Keeps [.regs, .evt, .tally, .sched, .nv, .evr, .psq, .chans, .med, .cxl, .out] s (State.azSchedAdd s r) := by
  unfold State.azSchedAdd
  extract_lets -merge +onlyGivenNames x1
  refine Keeps.trans ?_ (State.azTake_keeps (by decide) (fun _ => ?_) (fun _ _ => ?_))
  · exact Keeps.refl _ _
  · extract_lets -merge +onlyGivenNames x2
    refine Keeps.ite_st (fun _ => ?_) (fun _ => ?_)
    · dsimp only [State.bad, State.okay, State.refuse, State.later]
      exact Keeps.refl _ _
    · refine Keeps.ite_st (fun _ => ?_) (fun _ => ?_)
      · dsimp only [State.bad, State.okay, State.refuse, State.later]
        exact Keeps.refl _ _
      · split
        · dsimp only [State.bad, State.okay, State.refuse, State.later]
          exact Keeps.refl _ _
        · extract_lets -merge +onlyGivenNames x3
          dsimp only [State.bad, State.okay, State.refuse, State.later]
          refine Keeps.after (State.saveSlot_keeps _ _) (by decide) ?_
          refine Keeps.after (State.setSlot_keeps _ _ _) (by decide) ?_
          exact Keeps.refl _ _
  · extract_lets -merge +onlyGivenNames x2
    refine Keeps.ite_af (fun _ => ?_) (fun _ => ?_)
    · dsimp only [State.bad, State.okay, State.refuse, State.later]
      dsimp only [id]
      exact Keeps.refl _ _
    · refine Keeps.ite_af (fun _ => ?_) (fun _ => ?_)
      · dsimp only [State.bad, State.okay, State.refuse, State.later]
        dsimp only [id]
        exact Keeps.refl _ _
      · split
        · dsimp only [State.bad, State.okay, State.refuse, State.later]
          dsimp only [id]
          exact Keeps.refl _ _
        · extract_lets -merge +onlyGivenNames x3
          dsimp only [State.bad, State.okay, State.refuse, State.later]
          dsimp only [id]
          exact Keeps.refl _ _

theorem State.azSchedRemove_keeps (s : State) (r : AzReq) :
    Keeps [.regs, .evt, .tally, .sched, .nv, .evr, .psq, .chans, .med, .cxl, .out] s (State.azSchedRemove s r) := by
  unfold State.azSchedRemove
  extract_lets -merge +onlyGivenNames x1
  extract_lets -merge +onlyGivenNames x2
  extract_lets -merge +onlyGivenNames x3
  refine Keeps.trans ?_ (State.azTake_keeps (by decide) (fun _ => ?_) (fun _ _ => ?_))
  · exact Keeps.refl _ _
  · refine Keeps.ite_st (fun _ => ?_) (fun _ => ?_)
    · dsimp only [State.bad, State.okay, State.refuse, State.later]
      exact Keeps.refl _ _
    · refine Keeps.ite_st (fun _ => ?_) (fun _ => ?_)
      · dsimp only [State.bad, State.okay, State.refuse, State.later]
        exact Keeps.refl _ _
      · dsimp only [State.bad, State.okay, State.refuse, State.later]
        refine Keeps.after (State.slotFree_keeps _ _) (by decide) ?_
        exact Keeps.refl _ _
  · refine Keeps.ite_af (fun _ => ?_) (fun _ => ?_)
    · dsimp only [State.bad, State.okay, State.refuse, State.later]
      dsimp only [id]
      exact Keeps.refl _ _
    · refine Keeps.ite_af (fun _ => ?_) (fun _ => ?_)
      · dsimp only [State.bad, State.okay, State.refuse, State.later]
        dsimp only [id]
        exact Keeps.refl _ _
      · dsimp only [State.bad, State.okay, State.refuse, State.later]
        dsimp only [id]
        exact Keeps.refl _ _

theorem State.azPowerRequest_keeps (s : State) (r : AzReq) :
    Keeps [.regs, .csr, .evt, .ecc, .tally, .sched, .nv, .evr, .wdg, .flash, .psq, .chans, .med, .bench, .xlt, .twin, .cxl, .rdma, .sec, .dram, .out, .fresh] s (State.azPowerRequest s r) := by
  unfold State.azPowerRequest
  refine Keeps.trans ?_ (State.azTake_keeps (by decide) (fun _ => ?_) (fun _ _ => ?_))
  · exact Keeps.refl _ _
  · extract_lets -merge +onlyGivenNames x1
    refine Keeps.ite_st (fun _ => ?_) (fun _ => ?_)
    · dsimp only [State.bad, State.okay, State.refuse, State.later]
      exact Keeps.refl _ _
    · refine Keeps.ite_st (fun _ => ?_) (fun _ => ?_)
      · dsimp only [State.bad, State.okay, State.refuse, State.later]
        exact Keeps.refl _ _
      · extract_lets -merge +onlyGivenNames x2
        extract_lets -merge +onlyGivenNames x3
        dsimp only
        unfold x3
        dsimp only [State.bad, State.okay, State.refuse, State.later]
        exact Keeps.refl _ _
  · extract_lets -merge +onlyGivenNames x1
    refine Keeps.ite_af (fun _ => ?_) (fun _ => ?_)
    · dsimp only [State.bad, State.okay, State.refuse, State.later]
      dsimp only [id]
      exact Keeps.refl _ _
    · refine Keeps.ite_af (fun _ => ?_) (fun _ => ?_)
      · dsimp only [State.bad, State.okay, State.refuse, State.later]
        dsimp only [id]
        exact Keeps.refl _ _
      · extract_lets -merge +onlyGivenNames x2
        extract_lets -merge +onlyGivenNames x3
        dsimp only
        unfold x2
        refine Keeps.ite (fun _ => ?_) (fun _ => ?_)
        · refine Keeps.after (State.offRequest_keeps _ _) (by decide) ?_
          exact Keeps.refl _ _
        · refine Keeps.ite (fun _ => ?_) (fun _ => ?_)
          · refine Keeps.after (State.onRequest_keeps _) (by decide) ?_
            exact Keeps.refl _ _
          · refine Keeps.ite (fun _ => ?_) (fun _ => ?_)
            · refine Keeps.after (State.keepEnter_keeps _) (by decide) ?_
              exact Keeps.refl _ _
            · refine Keeps.after (State.keepLeaveRequest_keeps _) (by decide) ?_
              exact Keeps.refl _ _

theorem State.azDrainAndHalt_keeps (s : State) (r : AzReq) :
    Keeps [.regs, .csr, .evt, .ecc, .tally, .sched, .nv, .evr, .wdg, .flash, .psq, .chans, .med, .bench, .xlt, .twin, .cxl, .rdma, .sec, .dram, .out, .fresh] s (State.azDrainAndHalt s r) := by
  unfold State.azDrainAndHalt
  refine Keeps.trans ?_ (State.azTake_keeps (by decide) (fun _ => ?_) (fun _ _ => ?_))
  · exact Keeps.refl _ _
  · extract_lets -merge +onlyGivenNames x1
    dsimp only
    unfold x1
    dsimp only [State.bad, State.okay, State.refuse, State.later]
    exact Keeps.refl _ _
  · extract_lets -merge +onlyGivenNames x1
    dsimp only
    refine Keeps.after (State.takeTrigger_keeps _ _) (by decide) ?_
    exact Keeps.refl _ _

theorem State.azReset_keeps (s : State) (r : AzReq) :
    Keeps [.regs, .csr, .evt, .ecc, .tally, .sched, .nv, .evr, .wdg, .flash, .psq, .chans, .med, .bench, .xlt, .twin, .cxl, .rdma, .sec, .dram, .out, .fresh] s (State.azReset s r) := by
  unfold State.azReset
  refine Keeps.trans ?_ (State.azTake_keeps (by decide) (fun _ => ?_) (fun _ _ => ?_))
  · exact Keeps.refl _ _
  · refine Keeps.ite_st (fun _ => ?_) (fun _ => ?_)
    · dsimp only [State.bad, State.okay, State.refuse, State.later]
      exact Keeps.refl _ _
    · extract_lets -merge +onlyGivenNames x1
      dsimp only
      unfold x1
      dsimp only [State.bad, State.okay, State.refuse, State.later]
      exact Keeps.refl _ _
  · refine Keeps.ite_af (fun _ => ?_) (fun _ => ?_)
    · dsimp only [State.bad, State.okay, State.refuse, State.later]
      dsimp only [id]
      exact Keeps.refl _ _
    · extract_lets -merge +onlyGivenNames x1
      dsimp only
      refine Keeps.after (State.takeTrigger_keeps _ _) (by decide) ?_
      exact Keeps.refl _ _

theorem State.azWakeMarginSet_keeps (s : State) (r : AzReq) :
    Keeps [.regs, .evt, .tally, .nv, .evr, .psq, .chans, .med, .cxl, .out] s (State.azWakeMarginSet s r) := by
  unfold State.azWakeMarginSet
  refine Keeps.trans ?_ (State.azTake_keeps (by decide) (fun _ => ?_) (fun _ _ => ?_))
  · exact Keeps.refl _ _
  · refine Keeps.ite_st (fun _ => ?_) (fun _ => ?_)
    · dsimp only [State.bad, State.okay, State.refuse, State.later]
      exact Keeps.refl _ _
    · dsimp only [State.bad, State.okay, State.refuse, State.later]
      refine Keeps.after (State.writeDeadline_keeps _) (by decide) ?_
      refine Keeps.after (State.setFld_keeps _ _ _ _ _ _) (by decide) ?_
      exact Keeps.refl _ _
  · refine Keeps.ite_af (fun _ => ?_) (fun _ => ?_)
    · dsimp only [State.bad, State.okay, State.refuse, State.later]
      dsimp only [id]
      exact Keeps.refl _ _
    · dsimp only [State.bad, State.okay, State.refuse, State.later]
      dsimp only [id]
      exact Keeps.refl _ _

theorem State.azLockoutClear_keeps (s : State) (r : AzReq) :
    Keeps [.regs, .evt, .tally, .evr, .psq, .chans, .med, .cxl, .out] s (State.azLockoutClear s r) := by
  unfold State.azLockoutClear
  refine Keeps.trans ?_ (State.azTake_keeps (by decide) (fun _ => ?_) (fun _ _ => ?_))
  · exact Keeps.refl _ _
  · dsimp only [State.bad, State.okay, State.refuse, State.later]
    refine Keeps.ite (fun _ => ?_) (fun _ => ?_)
    · refine Keeps.after (State.setPState_keeps _ _) (by decide) ?_
      refine Keeps.after (State.setPsq_keeps _ _) (by decide) ?_
      exact Keeps.refl _ _
    · exact Keeps.refl _ _
  · dsimp only [State.bad, State.okay, State.refuse, State.later]
    dsimp only [id]
    exact Keeps.refl _ _

theorem State.azPowerStatus_keeps (s : State) (r : AzReq) :
    Keeps [.regs, .evt, .tally, .evr, .psq, .chans, .med, .cxl, .out] s (State.azPowerStatus s r) := by
  unfold State.azPowerStatus
  refine Keeps.trans ?_ (State.azTake_keeps (by decide) (fun _ => ?_) (fun _ _ => ?_))
  · exact Keeps.refl _ _
  · dsimp only [State.bad, State.okay, State.refuse, State.later]
    exact Keeps.refl _ _
  · dsimp only [State.bad, State.okay, State.refuse, State.later]
    dsimp only [id]
    exact Keeps.refl _ _

theorem execTallyStatus_ends (r : AzReq) (s : State) :
    Ends [.regs, .evt, .tally, .evr, .psq, .chans, .med, .cxl, .out] s (execTallyStatus r s) := by
  unfold execTallyStatus
  refine Ends.next ?_
  refine Keeps.after (State.azTallyStatus_keeps _ _) (by decide) ?_
  exact Keeps.refl _ _

theorem execTimeSigned_ends (r : AzReq) (s : State) :
    Ends [.regs, .evt, .tally, .sched, .nv, .evr, .psq, .chans, .med, .xlt, .cxl, .out] s (execTimeSigned r s) := by
  unfold execTimeSigned
  refine Ends.next ?_
  refine Keeps.after (State.azTimeSigned_keeps _ _) (by decide) ?_
  exact Keeps.refl _ _

theorem execSchedAdd_ends (r : AzReq) (s : State) :
    Ends [.regs, .evt, .tally, .sched, .nv, .evr, .psq, .chans, .med, .cxl, .out] s (execSchedAdd r s) := by
  unfold execSchedAdd
  refine Ends.next ?_
  refine Keeps.after (State.azSchedAdd_keeps _ _) (by decide) ?_
  exact Keeps.refl _ _

theorem execSchedRemove_ends (r : AzReq) (s : State) :
    Ends [.regs, .evt, .tally, .sched, .nv, .evr, .psq, .chans, .med, .cxl, .out] s (execSchedRemove r s) := by
  unfold execSchedRemove
  refine Ends.next ?_
  refine Keeps.after (State.azSchedRemove_keeps _ _) (by decide) ?_
  exact Keeps.refl _ _

theorem execPowerRequestOff_ends (r : AzReq) (s : State) :
    Ends [.regs, .csr, .evt, .ecc, .tally, .sched, .nv, .evr, .wdg, .flash, .psq, .chans, .med, .bench, .xlt, .twin, .cxl, .rdma, .sec, .dram, .out, .fresh] s (execPowerRequestOff r s) := by
  unfold execPowerRequestOff
  refine Ends.next ?_
  refine Keeps.after (State.azPowerRequest_keeps _ _) (by decide) ?_
  exact Keeps.refl _ _

theorem execPowerRequestOn_ends (r : AzReq) (s : State) :
    Ends [.regs, .csr, .evt, .ecc, .tally, .sched, .nv, .evr, .wdg, .flash, .psq, .chans, .med, .bench, .xlt, .twin, .cxl, .rdma, .sec, .dram, .out, .fresh] s (execPowerRequestOn r s) := by
  unfold execPowerRequestOn
  refine Ends.next ?_
  refine Keeps.after (State.azPowerRequest_keeps _ _) (by decide) ?_
  exact Keeps.refl _ _

theorem execPowerRequestKeepEnter_ends (r : AzReq) (s : State) :
    Ends [.regs, .csr, .evt, .ecc, .tally, .sched, .nv, .evr, .wdg, .flash, .psq, .chans, .med, .bench, .xlt, .twin, .cxl, .rdma, .sec, .dram, .out, .fresh] s (execPowerRequestKeepEnter r s) := by
  unfold execPowerRequestKeepEnter
  refine Ends.next ?_
  refine Keeps.after (State.azPowerRequest_keeps _ _) (by decide) ?_
  exact Keeps.refl _ _

theorem execPowerRequestKeepLeave_ends (r : AzReq) (s : State) :
    Ends [.regs, .csr, .evt, .ecc, .tally, .sched, .nv, .evr, .wdg, .flash, .psq, .chans, .med, .bench, .xlt, .twin, .cxl, .rdma, .sec, .dram, .out, .fresh] s (execPowerRequestKeepLeave r s) := by
  unfold execPowerRequestKeepLeave
  refine Ends.next ?_
  refine Keeps.after (State.azPowerRequest_keeps _ _) (by decide) ?_
  exact Keeps.refl _ _

theorem execDrainAndHalt_ends (r : AzReq) (s : State) :
    Ends [.regs, .csr, .evt, .ecc, .tally, .sched, .nv, .evr, .wdg, .flash, .psq, .chans, .med, .bench, .xlt, .twin, .cxl, .rdma, .sec, .dram, .out, .fresh] s (execDrainAndHalt r s) := by
  unfold execDrainAndHalt
  refine Ends.next ?_
  refine Keeps.after (State.azDrainAndHalt_keeps _ _) (by decide) ?_
  exact Keeps.refl _ _

theorem execResetCmd_ends (r : AzReq) (s : State) :
    Ends [.regs, .csr, .evt, .ecc, .tally, .sched, .nv, .evr, .wdg, .flash, .psq, .chans, .med, .bench, .xlt, .twin, .cxl, .rdma, .sec, .dram, .out, .fresh] s (execResetCmd r s) := by
  unfold execResetCmd
  refine Ends.next ?_
  refine Keeps.after (State.azReset_keeps _ _) (by decide) ?_
  exact Keeps.refl _ _

theorem execWakeMarginSet_ends (r : AzReq) (s : State) :
    Ends [.regs, .evt, .tally, .nv, .evr, .psq, .chans, .med, .cxl, .out] s (execWakeMarginSet r s) := by
  unfold execWakeMarginSet
  refine Ends.next ?_
  refine Keeps.after (State.azWakeMarginSet_keeps _ _) (by decide) ?_
  exact Keeps.refl _ _

theorem execLockoutClear_ends (r : AzReq) (s : State) :
    Ends [.regs, .evt, .tally, .evr, .psq, .chans, .med, .cxl, .out] s (execLockoutClear r s) := by
  unfold execLockoutClear
  refine Ends.next ?_
  refine Keeps.after (State.azLockoutClear_keeps _ _) (by decide) ?_
  exact Keeps.refl _ _

theorem execPowerStatus_ends (r : AzReq) (s : State) :
    Ends [.regs, .evt, .tally, .evr, .psq, .chans, .med, .cxl, .out] s (execPowerStatus r s) := by
  unfold execPowerStatus
  refine Ends.next ?_
  refine Keeps.after (State.azPowerStatus_keeps _ _) (by decide) ?_
  exact Keeps.refl _ _

/-! ### AzMisc -/

theorem State.azBenchViewOpen_keeps (s : State) (r : AzReq) :
    Keeps [.regs, .evt, .tally, .evr, .psq, .chans, .med, .xlt, .cxl, .out] s (State.azBenchViewOpen s r) := by
  unfold State.azBenchViewOpen
  refine Keeps.trans ?_ (State.azTake_keeps (by decide) (fun _ => ?_) (fun _ _ => ?_))
  · exact Keeps.refl _ _
  · refine Keeps.ite_st (fun _ => ?_) (fun _ => ?_)
    · dsimp only [State.bad, State.okay, State.refuse, State.later]
      exact Keeps.refl _ _
    · dsimp only [State.bad, State.okay, State.refuse, State.later]
      refine Keeps.after (State.judgeXlt_keeps _) (by decide) ?_
      refine Keeps.after (State.setXlt_keeps _ _) (by decide) ?_
      exact Keeps.refl _ _
  · refine Keeps.ite_af (fun _ => ?_) (fun _ => ?_)
    · dsimp only [State.bad, State.okay, State.refuse, State.later]
      dsimp only [id]
      exact Keeps.refl _ _
    · dsimp only [State.bad, State.okay, State.refuse, State.later]
      dsimp only [id]
      exact Keeps.refl _ _

theorem State.azBenchViewClose_keeps (s : State) (r : AzReq) :
    Keeps [.regs, .evt, .tally, .evr, .psq, .chans, .med, .xlt, .cxl, .out] s (State.azBenchViewClose s r) := by
  unfold State.azBenchViewClose
  refine Keeps.trans ?_ (State.azTake_keeps (by decide) (fun _ => ?_) (fun _ _ => ?_))
  · exact Keeps.refl _ _
  · extract_lets -merge +onlyGivenNames x1
    refine Keeps.of_let x1 ?_ (fun h1 => ?_)
    · unfold x1
      refine Keeps.ite (fun _ => ?_) (fun _ => ?_)
      · exact Keeps.refl _ _
      · refine Keeps.after (State.cause_keeps _ _ _ _ _) (by decide) ?_
        exact Keeps.refl _ _
    · dsimp only [State.bad, State.okay, State.refuse, State.later]
      refine Keeps.after (State.judgeXlt_keeps _) (by decide) ?_
      refine Keeps.after (State.setXlt_keeps _ _) (by decide) ?_
      exact h1
  · extract_lets -merge +onlyGivenNames x1
    dsimp only [State.bad, State.okay, State.refuse, State.later]
    dsimp only [id]
    exact Keeps.refl _ _

theorem State.azDramScrubRange_keeps (s : State) (r : AzReq) :
    Keeps [.regs, .evt, .tally, .evr, .psq, .chans, .med, .cxl, .dram, .out] s (State.azDramScrubRange s r) := by
  unfold State.azDramScrubRange
  refine Keeps.trans ?_ (State.azTake_keeps (by decide) (fun _ => ?_) (fun _ _ => ?_))
  · exact Keeps.refl _ _
  · refine Keeps.ite_st (fun _ => ?_) (fun _ => ?_)
    · dsimp only [State.bad, State.okay, State.refuse, State.later]
      exact Keeps.refl _ _
    · refine Keeps.ite_st (fun _ => ?_) (fun _ => ?_)
      · dsimp only [State.bad, State.okay, State.refuse, State.later]
        exact Keeps.refl _ _
      · refine Keeps.ite_st (fun _ => ?_) (fun _ => ?_)
        · dsimp only [State.bad, State.okay, State.refuse, State.later]
          exact Keeps.refl _ _
        · extract_lets -merge +onlyGivenNames x1
          refine Keeps.of_let x1 ?_ (fun h1 => ?_)
          · unfold x1
            refine Keeps.after (State.setReg64_keeps _ _ _ _ _) (by decide) ?_
            exact Keeps.refl _ _
          · extract_lets -merge +onlyGivenNames x2
            refine Keeps.of_let x2 ?_ (fun h2 => ?_)
            · unfold x2
              refine Keeps.after (State.setReg64_keeps _ _ _ _ _) (by decide) ?_
              exact h1
            · dsimp only [State.bad, State.okay, State.refuse, State.later]
              refine Keeps.after (State.scrubStart_keeps _ _) (by decide) ?_
              exact h2
  · refine Keeps.ite_af (fun _ => ?_) (fun _ => ?_)
    · dsimp only [State.bad, State.okay, State.refuse, State.later]
      dsimp only [id]
      exact Keeps.refl _ _
    · refine Keeps.ite_af (fun _ => ?_) (fun _ => ?_)
      · dsimp only [State.bad, State.okay, State.refuse, State.later]
        dsimp only [id]
        exact Keeps.refl _ _
      · refine Keeps.ite_af (fun _ => ?_) (fun _ => ?_)
        · dsimp only [State.bad, State.okay, State.refuse, State.later]
          dsimp only [id]
          exact Keeps.refl _ _
        · extract_lets -merge +onlyGivenNames x1
          extract_lets -merge +onlyGivenNames x2
          dsimp only [State.bad, State.okay, State.refuse, State.later]
          dsimp only [id]
          exact Keeps.refl _ _

theorem State.azRegRead_keeps (s : State) (r : AzReq) :
    Keeps [.regs, .csr, .evt, .tally, .evr, .psq, .chans, .med, .cxl, .out] s (State.azRegRead s r) := by
  unfold State.azRegRead
  refine Keeps.trans ?_ (State.azTake_keeps (by decide) (fun _ => ?_) (fun _ _ => ?_))
  · exact Keeps.refl _ _
  · refine Keeps.ite_st (fun _ => ?_) (fun _ => ?_)
    · dsimp only [State.bad, State.okay, State.refuse, State.later]
      exact Keeps.refl _ _
    · split
      · dsimp only [State.bad, State.okay, State.refuse, State.later]
        exact Keeps.refl _ _
      · dsimp only [State.bad, State.okay, State.refuse, State.later]
        refine Keeps.of_some_fst (by assumption) ?_
        refine KeepsP.after (State.readWord_keeps _ _ _) (by decide) ?_
        exact Keeps.refl _ _
  · refine Keeps.ite_af (fun _ => ?_) (fun _ => ?_)
    · dsimp only [State.bad, State.okay, State.refuse, State.later]
      dsimp only [id]
      exact Keeps.refl _ _
    · split
      · dsimp only [State.bad, State.okay, State.refuse, State.later]
        dsimp only [id]
        exact Keeps.refl _ _
      · dsimp only [State.bad, State.okay, State.refuse, State.later]
        dsimp only [id]
        exact Keeps.refl _ _

theorem State.azRegWrite_keeps (s : State) (r : AzReq) :
    Keeps [.regs, .csr, .evt, .tally, .sched, .nv, .evr, .wdg, .psq, .chans, .med, .bench, .xlt, .twin, .cxl, .rdma, .sec, .dram, .out, .fresh] s (State.azRegWrite s r) := by
  unfold State.azRegWrite
  refine Keeps.trans ?_ (State.azTake_keeps (by decide) (fun _ => ?_) (fun _ _ => ?_))
  · exact Keeps.refl _ _
  · refine Keeps.ite_st (fun _ => ?_) (fun _ => ?_)
    · dsimp only [State.bad, State.okay, State.refuse, State.later]
      exact Keeps.refl _ _
    · refine Keeps.ite_st (fun _ => ?_) (fun _ => ?_)
      · dsimp only [State.bad, State.okay, State.refuse, State.later]
        exact Keeps.refl _ _
      · dsimp only [State.bad, State.okay, State.refuse, State.later]
        refine Keeps.after (State.writeWord_keeps _ _ _ _ _) (by decide) ?_
        exact Keeps.refl _ _
  · refine Keeps.ite_af (fun _ => ?_) (fun _ => ?_)
    · dsimp only [State.bad, State.okay, State.refuse, State.later]
      dsimp only [id]
      exact Keeps.refl _ _
    · refine Keeps.ite_af (fun _ => ?_) (fun _ => ?_)
      · dsimp only [State.bad, State.okay, State.refuse, State.later]
        dsimp only [id]
        exact Keeps.refl _ _
      · dsimp only [State.bad, State.okay, State.refuse, State.later]
        dsimp only [id]
        exact Keeps.refl _ _

theorem State.azDieMarkFailed_keeps (s : State) (r : AzReq) :
    Keeps [.regs, .evt, .tally, .sched, .nv, .evr, .psq, .chans, .med, .bench, .xlt, .twin, .cxl, .rdma, .sec, .out, .fresh] s (State.azDieMarkFailed s r) := by
  unfold State.azDieMarkFailed
  refine Keeps.trans ?_ (State.azTake_keeps (by decide) (fun _ => ?_) (fun _ _ => ?_))
  · exact Keeps.refl _ _
  · refine Keeps.ite_st (fun _ => ?_) (fun _ => ?_)
    · dsimp only [State.bad, State.okay, State.refuse, State.later]
      exact Keeps.refl _ _
    · dsimp only [State.bad, State.okay, State.refuse, State.later]
      refine Keeps.after (State.settleMed_keeps _) (by decide) ?_
      refine Keeps.after (State.failDie_keeps _ _) (by decide) ?_
      exact Keeps.refl _ _
  · refine Keeps.ite_af (fun _ => ?_) (fun _ => ?_)
    · dsimp only [State.bad, State.okay, State.refuse, State.later]
      dsimp only [id]
      exact Keeps.refl _ _
    · dsimp only [State.bad, State.okay, State.refuse, State.later]
      dsimp only [id]
      exact Keeps.refl _ _

theorem State.azOrphanSweep_keeps (s : State) (r : AzReq) :
    Keeps [.regs, .evt, .tally, .evr, .psq, .chans, .med, .cxl, .out] s (State.azOrphanSweep s r) := by
  unfold State.azOrphanSweep
  refine Keeps.trans ?_ (State.azTake_keeps (by decide) (fun _ => ?_) (fun _ _ => ?_))
  · exact Keeps.refl _ _
  · dsimp only [State.bad, State.okay, State.refuse, State.later]
    exact Keeps.refl _ _
  · dsimp only [State.bad, State.okay, State.refuse, State.later]
    dsimp only [id]
    exact Keeps.refl _ _

theorem State.orphanEnd_keeps (s : State) :
    Keeps [.regs, .evt, .sched, .nv, .evr, .chans, .med, .bench, .xlt, .twin, .cxl, .rdma, .sec, .out, .fresh] s (State.orphanEnd s).1 := by
  unfold State.orphanEnd
  dsimp only
  refine Keeps.after (State.settleMed_keeps _) (by decide) ?_
  refine Keeps.after (State.setXlt_keeps _ _) (by decide) ?_
  exact Keeps.refl _ _

theorem State.azTeaselPassNow_keeps (s : State) (r : AzReq) :
    Keeps [.regs, .evt, .tally, .sched, .nv, .evr, .psq, .chans, .med, .bench, .xlt, .twin, .cxl, .rdma, .sec, .out, .fresh] s (State.azTeaselPassNow s r) := by
  unfold State.azTeaselPassNow
  refine Keeps.trans ?_ (State.azTake_keeps (by decide) (fun _ => ?_) (fun _ _ => ?_))
  · exact Keeps.refl _ _
  · extract_lets -merge +onlyGivenNames x1
    refine Keeps.ite_st (fun _ => ?_) (fun _ => ?_)
    · dsimp only [State.bad, State.okay, State.refuse, State.later]
      exact Keeps.refl _ _
    · refine Keeps.ite_st (fun _ => ?_) (fun _ => ?_)
      · dsimp only [State.bad, State.okay, State.refuse, State.later]
        exact Keeps.refl _ _
      · dsimp only [State.bad, State.okay, State.refuse, State.later]
        refine Keeps.after (State.settleMed_keeps _) (by decide) ?_
        refine Keeps.foldl _ (fun _ _ => ?_) ?_
        · refine Keeps.after (State.passNow_keeps _ _) (by decide) ?_
          exact Keeps.refl _ _
        · exact Keeps.refl _ _
  · extract_lets -merge +onlyGivenNames x1
    refine Keeps.ite_af (fun _ => ?_) (fun _ => ?_)
    · dsimp only [State.bad, State.okay, State.refuse, State.later]
      dsimp only [id]
      exact Keeps.refl _ _
    · refine Keeps.ite_af (fun _ => ?_) (fun _ => ?_)
      · dsimp only [State.bad, State.okay, State.refuse, State.later]
        dsimp only [id]
        exact Keeps.refl _ _
      · dsimp only [State.bad, State.okay, State.refuse, State.later]
        dsimp only [id]
        exact Keeps.refl _ _

theorem State.azEyebrightSweep_keeps (s : State) (r : AzReq) :
    Keeps [.regs, .evt, .tally, .evr, .psq, .chans, .med, .cxl, .out] s (State.azEyebrightSweep s r) := by
  unfold State.azEyebrightSweep
  refine Keeps.trans ?_ (State.azTake_keeps (by decide) (fun _ => ?_) (fun _ _ => ?_))
  · exact Keeps.refl _ _
  · refine Keeps.ite_st (fun _ => ?_) (fun _ => ?_)
    · dsimp only [State.bad, State.okay, State.refuse, State.later]
      exact Keeps.refl _ _
    · refine Keeps.ite_st (fun _ => ?_) (fun _ => ?_)
      · dsimp only [State.bad, State.okay, State.refuse, State.later]
        exact Keeps.refl _ _
      · refine Keeps.ite_st (fun _ => ?_) (fun _ => ?_)
        · dsimp only [State.bad, State.okay, State.refuse, State.later]
          exact Keeps.refl _ _
        · dsimp only [State.bad, State.okay, State.refuse, State.later]
          refine Keeps.after (State.startSweep_keeps _ _) (by decide) ?_
          exact Keeps.refl _ _
  · refine Keeps.ite_af (fun _ => ?_) (fun _ => ?_)
    · dsimp only [State.bad, State.okay, State.refuse, State.later]
      dsimp only [id]
      exact Keeps.refl _ _
    · refine Keeps.ite_af (fun _ => ?_) (fun _ => ?_)
      · dsimp only [State.bad, State.okay, State.refuse, State.later]
        dsimp only [id]
        exact Keeps.refl _ _
      · refine Keeps.ite_af (fun _ => ?_) (fun _ => ?_)
        · dsimp only [State.bad, State.okay, State.refuse, State.later]
          dsimp only [id]
          exact Keeps.refl _ _
        · dsimp only [State.bad, State.okay, State.refuse, State.later]
          dsimp only [id]
          exact Keeps.refl _ _

theorem State.azMediumStatus_keeps (s : State) (r : AzReq) :
    Keeps [.regs, .evt, .tally, .evr, .psq, .chans, .med, .cxl, .out] s (State.azMediumStatus s r) := by
  unfold State.azMediumStatus
  refine Keeps.trans ?_ (State.azTake_keeps (by decide) (fun _ => ?_) (fun _ _ => ?_))
  · exact Keeps.refl _ _
  · dsimp only [State.bad, State.okay, State.refuse, State.later]
    exact Keeps.refl _ _
  · dsimp only [State.bad, State.okay, State.refuse, State.later]
    dsimp only [id]
    exact Keeps.refl _ _

theorem State.groupReturn_state (s : State) (g : Nat) :
    Keeps [.regs, .csr, .evt, .ecc, .tally, .sched, .nv, .evr, .wdg, .flash, .psq, .chans, .med, .bench, .xlt, .twin, .cxl, .rdma, .sec, .dram, .out, .fresh] s (State.groupReturn s g).state := by
  unfold State.groupReturn
  extract_lets -merge +onlyGivenNames x1
  extract_lets -merge +onlyGivenNames x2
  refine Keeps.ite_st (fun _ => ?_) (fun _ => ?_)
  · dsimp only [State.bad, State.okay, State.refuse, State.later]
    exact Keeps.refl _ _
  · refine Keeps.ite_st (fun _ => ?_) (fun _ => ?_)
    · dsimp only [State.bad, State.okay, State.refuse, State.later]
      exact Keeps.refl _ _
    · refine Keeps.ite_st (fun _ => ?_) (fun _ => ?_)
      · dsimp only [State.bad, State.okay, State.refuse, State.later]
        exact Keeps.refl _ _
      · extract_lets -merge +onlyGivenNames x3
        refine Keeps.of_let x3 ?_ (fun h3 => ?_)
        · unfold x3
          refine Keeps.ite (fun _ => ?_) (fun _ => ?_)
          · refine Keeps.after (State.railsDownGroup_keeps _ _) (by decide) ?_
            exact Keeps.refl _ _
          · exact Keeps.refl _ _
        · extract_lets -merge +onlyGivenNames x4
          dsimp only [State.bad, State.okay, State.refuse, State.later]
          refine Keeps.ite (fun _ => ?_) (fun _ => ?_)
          · refine Keeps.after (State.transCheck_keeps _) (by decide) ?_
            refine Keeps.after (State.startDown_keeps _ _ _) (by decide) ?_
            exact h3
          · refine Keeps.after (State.transCheck_keeps _) (by decide) ?_
            refine Keeps.after (State.startUp_keeps _ _ _) (by decide) ?_
            exact h3

theorem State.groupReturn_after (s : State) (g : Nat) (v : State) :
    Keeps [] v (State.groupReturn s g |>.after v) := by
  unfold State.groupReturn
  extract_lets -merge +onlyGivenNames x1
  extract_lets -merge +onlyGivenNames x2
  refine Keeps.ite_af (fun _ => ?_) (fun _ => ?_)
  · dsimp only [State.bad, State.okay, State.refuse, State.later]
    dsimp only [id]
    exact Keeps.refl _ _
  · refine Keeps.ite_af (fun _ => ?_) (fun _ => ?_)
    · dsimp only [State.bad, State.okay, State.refuse, State.later]
      dsimp only [id]
      exact Keeps.refl _ _
    · refine Keeps.ite_af (fun _ => ?_) (fun _ => ?_)
      · dsimp only [State.bad, State.okay, State.refuse, State.later]
        dsimp only [id]
        exact Keeps.refl _ _
      · extract_lets -merge +onlyGivenNames x3
        extract_lets -merge +onlyGivenNames x4
        dsimp only [State.bad, State.okay, State.refuse, State.later]
        dsimp only [id]
        exact Keeps.refl _ _

theorem State.azChannelOffline_keeps (s : State) (r : AzReq) :
    Keeps [.regs, .csr, .evt, .ecc, .tally, .sched, .nv, .evr, .wdg, .flash, .psq, .chans, .med, .bench, .xlt, .twin, .cxl, .rdma, .sec, .dram, .out, .fresh] s (State.azChannelOffline s r) := by
  unfold State.azChannelOffline
  refine Keeps.trans ?_ (State.azTake_keeps (by decide) (fun _ => ?_) (fun _ _ => ?_))
  · exact Keeps.refl _ _
  · refine Keeps.ite_st (fun _ => ?_) (fun _ => ?_)
    · dsimp only [State.bad, State.okay, State.refuse, State.later]
      exact Keeps.refl _ _
    · refine Keeps.ite_st (fun _ => ?_) (fun _ => ?_)
      · dsimp only [State.bad, State.okay, State.refuse, State.later]
        exact Keeps.refl _ _
      · refine Keeps.ite_st (fun _ => ?_) (fun _ => ?_)
        · dsimp only [State.bad, State.okay, State.refuse, State.later]
          refine Keeps.after (State.settleMed_keeps _) (by decide) ?_
          refine Keeps.after (State.offlineChan_keeps _ _) (by decide) ?_
          exact Keeps.refl _ _
        · refine Keeps.after (State.groupReturn_state _ _) (by decide) ?_
          exact Keeps.refl _ _
  · refine Keeps.ite_af (fun _ => ?_) (fun _ => ?_)
    · dsimp only [State.bad, State.okay, State.refuse, State.later]
      dsimp only [id]
      exact Keeps.refl _ _
    · refine Keeps.ite_af (fun _ => ?_) (fun _ => ?_)
      · dsimp only [State.bad, State.okay, State.refuse, State.later]
        dsimp only [id]
        exact Keeps.refl _ _
      · refine Keeps.ite_af (fun _ => ?_) (fun _ => ?_)
        · dsimp only [State.bad, State.okay, State.refuse, State.later]
          dsimp only [id]
          exact Keeps.refl _ _
        · refine Keeps.after (State.groupReturn_after _ _ _) (by decide) ?_
          exact Keeps.refl _ _

theorem execBenchViewOpen_ends (r : AzReq) (s : State) :
    Ends [.regs, .evt, .tally, .evr, .psq, .chans, .med, .xlt, .cxl, .out] s (execBenchViewOpen r s) := by
  unfold execBenchViewOpen
  refine Ends.next ?_
  refine Keeps.after (State.azBenchViewOpen_keeps _ _) (by decide) ?_
  exact Keeps.refl _ _

theorem execBenchViewClose_ends (r : AzReq) (s : State) :
    Ends [.regs, .evt, .tally, .evr, .psq, .chans, .med, .xlt, .cxl, .out] s (execBenchViewClose r s) := by
  unfold execBenchViewClose
  refine Ends.next ?_
  refine Keeps.after (State.azBenchViewClose_keeps _ _) (by decide) ?_
  exact Keeps.refl _ _

theorem execDramScrubRange_ends (r : AzReq) (s : State) :
    Ends [.regs, .evt, .tally, .evr, .psq, .chans, .med, .cxl, .dram, .out] s (execDramScrubRange r s) := by
  unfold execDramScrubRange
  refine Ends.next ?_
  refine Keeps.after (State.azDramScrubRange_keeps _ _) (by decide) ?_
  exact Keeps.refl _ _

theorem execRegRead_ends (r : AzReq) (s : State) :
    Ends [.regs, .csr, .evt, .tally, .evr, .psq, .chans, .med, .cxl, .out] s (execRegRead r s) := by
  unfold execRegRead
  refine Ends.next ?_
  refine Keeps.after (State.azRegRead_keeps _ _) (by decide) ?_
  exact Keeps.refl _ _

theorem execRegWrite_ends (r : AzReq) (s : State) :
    Ends [.regs, .csr, .evt, .tally, .sched, .nv, .evr, .wdg, .psq, .chans, .med, .bench, .xlt, .twin, .cxl, .rdma, .sec, .dram, .out, .fresh] s (execRegWrite r s) := by
  unfold execRegWrite
  refine Ends.next ?_
  refine Keeps.after (State.azRegWrite_keeps _ _) (by decide) ?_
  exact Keeps.refl _ _

theorem execDieMarkFailed_ends (r : AzReq) (s : State) :
    Ends [.regs, .evt, .tally, .sched, .nv, .evr, .psq, .chans, .med, .bench, .xlt, .twin, .cxl, .rdma, .sec, .out, .fresh] s (execDieMarkFailed r s) := by
  unfold execDieMarkFailed
  refine Ends.next ?_
  refine Keeps.after (State.azDieMarkFailed_keeps _ _) (by decide) ?_
  exact Keeps.refl _ _

theorem execOrphanSweep_ends (r : AzReq) (s : State) :
    Ends [.regs, .evt, .tally, .evr, .psq, .chans, .med, .cxl, .out] s (execOrphanSweep r s) := by
  unfold execOrphanSweep
  refine Ends.next ?_
  refine Keeps.after (State.azOrphanSweep_keeps _ _) (by decide) ?_
  exact Keeps.refl _ _

theorem execTeaselPassNow_ends (r : AzReq) (s : State) :
    Ends [.regs, .evt, .tally, .sched, .nv, .evr, .psq, .chans, .med, .bench, .xlt, .twin, .cxl, .rdma, .sec, .out, .fresh] s (execTeaselPassNow r s) := by
  unfold execTeaselPassNow
  refine Ends.next ?_
  refine Keeps.after (State.azTeaselPassNow_keeps _ _) (by decide) ?_
  exact Keeps.refl _ _

theorem execEyebrightSweep_ends (r : AzReq) (s : State) :
    Ends [.regs, .evt, .tally, .evr, .psq, .chans, .med, .cxl, .out] s (execEyebrightSweep r s) := by
  unfold execEyebrightSweep
  refine Ends.next ?_
  refine Keeps.after (State.azEyebrightSweep_keeps _ _) (by decide) ?_
  exact Keeps.refl _ _

theorem execMediumStatus_ends (r : AzReq) (s : State) :
    Ends [.regs, .evt, .tally, .evr, .psq, .chans, .med, .cxl, .out] s (execMediumStatus r s) := by
  unfold execMediumStatus
  refine Ends.next ?_
  refine Keeps.after (State.azMediumStatus_keeps _ _) (by decide) ?_
  exact Keeps.refl _ _

theorem execChannelOffline_ends (r : AzReq) (s : State) :
    Ends [.regs, .csr, .evt, .ecc, .tally, .sched, .nv, .evr, .wdg, .flash, .psq, .chans, .med, .bench, .xlt, .twin, .cxl, .rdma, .sec, .dram, .out, .fresh] s (execChannelOffline r s) := by
  unfold execChannelOffline
  refine Ends.next ?_
  refine Keeps.after (State.azChannelOffline_keeps _ _) (by decide) ?_
  exact Keeps.refl _ _

theorem execChannelReturn_ends (r : AzReq) (s : State) :
    Ends [.regs, .csr, .evt, .ecc, .tally, .sched, .nv, .evr, .wdg, .flash, .psq, .chans, .med, .bench, .xlt, .twin, .cxl, .rdma, .sec, .dram, .out, .fresh] s (execChannelReturn r s) := by
  unfold execChannelReturn
  refine Ends.next ?_
  refine Keeps.after (State.azChannelOffline_keeps _ _) (by decide) ?_
  exact Keeps.refl _ _

/-! ### AzRdma -/

theorem State.azGidSet_keeps (s : State) (r : AzReq) :
    Keeps [.regs, .evt, .tally, .evr, .psq, .chans, .med, .cxl, .rdma, .out] s (State.azGidSet s r) := by
  unfold State.azGidSet
  refine Keeps.trans ?_ (State.azTake_keeps (by decide) (fun _ => ?_) (fun _ _ => ?_))
  · exact Keeps.refl _ _
  · refine Keeps.ite_st (fun _ => ?_) (fun _ => ?_)
    · dsimp only [State.bad, State.okay, State.refuse, State.later]
      exact Keeps.refl _ _
    · refine Keeps.ite_st (fun _ => ?_) (fun _ => ?_)
      · dsimp only [State.bad, State.okay, State.refuse, State.later]
        exact Keeps.refl _ _
      · refine Keeps.ite_st (fun _ => ?_) (fun _ => ?_)
        · dsimp only [State.bad, State.okay, State.refuse, State.later]
          exact Keeps.refl _ _
        · extract_lets -merge +onlyGivenNames x1
          extract_lets -merge +onlyGivenNames x2
          extract_lets -merge +onlyGivenNames x3
          dsimp only [State.bad, State.okay, State.refuse, State.later]
          refine Keeps.after (State.setMac_keeps _ _ _) (by decide) ?_
          exact Keeps.refl _ _
  · refine Keeps.ite_af (fun _ => ?_) (fun _ => ?_)
    · dsimp only [State.bad, State.okay, State.refuse, State.later]
      dsimp only [id]
      exact Keeps.refl _ _
    · refine Keeps.ite_af (fun _ => ?_) (fun _ => ?_)
      · dsimp only [State.bad, State.okay, State.refuse, State.later]
        dsimp only [id]
        exact Keeps.refl _ _
      · refine Keeps.ite_af (fun _ => ?_) (fun _ => ?_)
        · dsimp only [State.bad, State.okay, State.refuse, State.later]
          dsimp only [id]
          exact Keeps.refl _ _
        · extract_lets -merge +onlyGivenNames x1
          extract_lets -merge +onlyGivenNames x2
          extract_lets -merge +onlyGivenNames x3
          dsimp only [State.bad, State.okay, State.refuse, State.later]
          dsimp only [id]
          exact Keeps.refl _ _

theorem State.setPd_keeps (s : State) (i : Nat) (v : Pd) :
    Keeps [.rdma] s (State.setPd s i v) := by
  unfold State.setPd
  refine Keeps.set_rdma (by decide) ?_
  exact Keeps.refl _ _

theorem State.azPdCreate_keeps (s : State) (r : AzReq) :
    Keeps [.regs, .evt, .tally, .evr, .psq, .chans, .med, .cxl, .rdma, .out, .fresh] s (State.azPdCreate s r) := by
  unfold State.azPdCreate
  refine Keeps.trans ?_ (State.azTake_keeps (by decide) (fun _ => ?_) (fun _ _ => ?_))
  · exact Keeps.refl _ _
  · refine Keeps.ite_st (fun _ => ?_) (fun _ => ?_)
    · dsimp only [State.bad, State.okay, State.refuse, State.later]
      exact Keeps.refl _ _
    · split
      · dsimp only [State.bad, State.okay, State.refuse, State.later]
        exact Keeps.refl _ _
      · extract_lets -merge +onlyGivenNames x1
        dsimp only [State.bad, State.okay, State.refuse, State.later]
        refine Keeps.after (State.setPd_keeps _ _ _) (by decide) ?_
        refine Keeps.after (State.draw_keeps _) (by decide) ?_
        exact Keeps.refl _ _
  · refine Keeps.ite_af (fun _ => ?_) (fun _ => ?_)
    · dsimp only [State.bad, State.okay, State.refuse, State.later]
      dsimp only [id]
      exact Keeps.refl _ _
    · split
      · dsimp only [State.bad, State.okay, State.refuse, State.later]
        dsimp only [id]
        exact Keeps.refl _ _
      · extract_lets -merge +onlyGivenNames x1
        dsimp only [State.bad, State.okay, State.refuse, State.later]
        dsimp only [id]
        exact Keeps.refl _ _

theorem State.azPdDestroy_keeps (s : State) (r : AzReq) :
    Keeps [.regs, .evt, .tally, .evr, .psq, .chans, .med, .cxl, .rdma, .out] s (State.azPdDestroy s r) := by
  unfold State.azPdDestroy
  refine Keeps.trans ?_ (State.azTake_keeps (by decide) (fun _ => ?_) (fun _ _ => ?_))
  · exact Keeps.refl _ _
  · refine Keeps.ite_st (fun _ => ?_) (fun _ => ?_)
    · dsimp only [State.bad, State.okay, State.refuse, State.later]
      exact Keeps.refl _ _
    · dsimp only [State.bad, State.okay, State.refuse, State.later]
      refine Keeps.after (State.pdDestroy_keeps _ _) (by decide) ?_
      exact Keeps.refl _ _
  · refine Keeps.ite_af (fun _ => ?_) (fun _ => ?_)
    · dsimp only [State.bad, State.okay, State.refuse, State.later]
      dsimp only [id]
      exact Keeps.refl _ _
    · dsimp only [State.bad, State.okay, State.refuse, State.later]
      dsimp only [id]
      exact Keeps.refl _ _

theorem State.azPdToken_keeps (s : State) (r : AzReq) :
    Keeps [.regs, .evt, .tally, .evr, .psq, .chans, .med, .cxl, .rdma, .out, .fresh] s (State.azPdToken s r) := by
  unfold State.azPdToken
  refine Keeps.trans ?_ (State.azTake_keeps (by decide) (fun _ => ?_) (fun _ _ => ?_))
  · exact Keeps.refl _ _
  · split
    · dsimp only [State.bad, State.okay, State.refuse, State.later]
      exact Keeps.refl _ _
    · refine Keeps.ite_st (fun _ => ?_) (fun _ => ?_)
      · dsimp only [State.bad, State.okay, State.refuse, State.later]
        exact Keeps.refl _ _
      · extract_lets -merge +onlyGivenNames x1
        dsimp only [State.bad, State.okay, State.refuse, State.later]
        refine Keeps.after (State.setPd_keeps _ _ _) (by decide) ?_
        refine Keeps.after (State.draw_keeps _) (by decide) ?_
        exact Keeps.refl _ _
  · split
    · dsimp only [State.bad, State.okay, State.refuse, State.later]
      dsimp only [id]
      exact Keeps.refl _ _
    · refine Keeps.ite_af (fun _ => ?_) (fun _ => ?_)
      · dsimp only [State.bad, State.okay, State.refuse, State.later]
        dsimp only [id]
        exact Keeps.refl _ _
      · extract_lets -merge +onlyGivenNames x1
        dsimp only [State.bad, State.okay, State.refuse, State.later]
        dsimp only [id]
        exact Keeps.refl _ _

theorem State.azWindowCreate_keeps (s : State) (r : AzReq) :
    Keeps [.regs, .evt, .tally, .evr, .psq, .chans, .med, .cxl, .rdma, .out, .fresh] s (State.azWindowCreate s r) := by
  unfold State.azWindowCreate
  extract_lets -merge +onlyGivenNames x1
  extract_lets -merge +onlyGivenNames x2
  extract_lets -merge +onlyGivenNames x3
  refine Keeps.trans ?_ (State.azTake_keeps (by decide) (fun _ => ?_) (fun _ _ => ?_))
  · exact Keeps.refl _ _
  · refine Keeps.ite_st (fun _ => ?_) (fun _ => ?_)
    · dsimp only [State.bad, State.okay, State.refuse, State.later]
      exact Keeps.refl _ _
    · refine Keeps.ite_st (fun _ => ?_) (fun _ => ?_)
      · dsimp only [State.bad, State.okay, State.refuse, State.later]
        exact Keeps.refl _ _
      · refine Keeps.ite_st (fun _ => ?_) (fun _ => ?_)
        · dsimp only [State.bad, State.okay, State.refuse, State.later]
          exact Keeps.refl _ _
        · refine Keeps.ite_st (fun _ => ?_) (fun _ => ?_)
          · dsimp only [State.bad, State.okay, State.refuse, State.later]
            exact Keeps.refl _ _
          · refine Keeps.ite_st (fun _ => ?_) (fun _ => ?_)
            · dsimp only [State.bad, State.okay, State.refuse, State.later]
              exact Keeps.refl _ _
            · split
              · dsimp only [State.bad, State.okay, State.refuse, State.later]
                exact Keeps.refl _ _
              · extract_lets -merge +onlyGivenNames x4
                extract_lets -merge +onlyGivenNames x5
                extract_lets -merge +onlyGivenNames x6
                refine Keeps.of_let x6 ?_ (fun h6 => ?_)
                · unfold x6
                  refine Keeps.after (State.draw_keeps _) (by decide) ?_
                  exact Keeps.refl _ _
                · dsimp only [State.bad, State.okay, State.refuse, State.later]
                  refine Keeps.set_rdma (by decide) ?_
                  exact h6
  · refine Keeps.ite_af (fun _ => ?_) (fun _ => ?_)
    · dsimp only [State.bad, State.okay, State.refuse, State.later]
      dsimp only [id]
      exact Keeps.refl _ _
    · refine Keeps.ite_af (fun _ => ?_) (fun _ => ?_)
      · dsimp only [State.bad, State.okay, State.refuse, State.later]
        dsimp only [id]
        exact Keeps.refl _ _
      · refine Keeps.ite_af (fun _ => ?_) (fun _ => ?_)
        · dsimp only [State.bad, State.okay, State.refuse, State.later]
          dsimp only [id]
          exact Keeps.refl _ _
        · refine Keeps.ite_af (fun _ => ?_) (fun _ => ?_)
          · dsimp only [State.bad, State.okay, State.refuse, State.later]
            dsimp only [id]
            exact Keeps.refl _ _
          · refine Keeps.ite_af (fun _ => ?_) (fun _ => ?_)
            · dsimp only [State.bad, State.okay, State.refuse, State.later]
              dsimp only [id]
              exact Keeps.refl _ _
            · split
              · dsimp only [State.bad, State.okay, State.refuse, State.later]
                dsimp only [id]
                exact Keeps.refl _ _
              · extract_lets -merge +onlyGivenNames x4
                extract_lets -merge +onlyGivenNames x5
                extract_lets -merge +onlyGivenNames x6
                dsimp only [State.bad, State.okay, State.refuse, State.later]
                dsimp only [id]
                exact Keeps.refl _ _

theorem State.azWindowDestroy_keeps (s : State) (r : AzReq) :
    Keeps [.regs, .evt, .tally, .evr, .psq, .chans, .med, .cxl, .rdma, .out] s (State.azWindowDestroy s r) := by
  unfold State.azWindowDestroy
  refine Keeps.trans ?_ (State.azTake_keeps (by decide) (fun _ => ?_) (fun _ _ => ?_))
  · exact Keeps.refl _ _
  · refine Keeps.ite_st (fun _ => ?_) (fun _ => ?_)
    · dsimp only [State.bad, State.okay, State.refuse, State.later]
      exact Keeps.refl _ _
    · dsimp only [State.bad, State.okay, State.refuse, State.later]
      refine Keeps.set_rdma (by decide) ?_
      exact Keeps.refl _ _
  · refine Keeps.ite_af (fun _ => ?_) (fun _ => ?_)
    · dsimp only [State.bad, State.okay, State.refuse, State.later]
      dsimp only [id]
      exact Keeps.refl _ _
    · dsimp only [State.bad, State.okay, State.refuse, State.later]
      dsimp only [id]
      exact Keeps.refl _ _

theorem State.azCqCreate_keeps (s : State) (r : AzReq) :
    Keeps [.regs, .evt, .tally, .evr, .psq, .chans, .med, .cxl, .rdma, .out] s (State.azCqCreate s r) := by
  unfold State.azCqCreate
  refine Keeps.trans ?_ (State.azTake_keeps (by decide) (fun _ => ?_) (fun _ _ => ?_))
  · exact Keeps.refl _ _
  · refine Keeps.ite_st (fun _ => ?_) (fun _ => ?_)
    · dsimp only [State.bad, State.okay, State.refuse, State.later]
      exact Keeps.refl _ _
    · refine Keeps.ite_st (fun _ => ?_) (fun _ => ?_)
      · dsimp only [State.bad, State.okay, State.refuse, State.later]
        exact Keeps.refl _ _
      · split
        · dsimp only [State.bad, State.okay, State.refuse, State.later]
          exact Keeps.refl _ _
        · dsimp only [State.bad, State.okay, State.refuse, State.later]
          exact Keeps.refl _ _
        · dsimp only [State.bad, State.okay, State.refuse, State.later]
          refine Keeps.set_rdma (by decide) ?_
          exact Keeps.refl _ _
  · refine Keeps.ite_af (fun _ => ?_) (fun _ => ?_)
    · dsimp only [State.bad, State.okay, State.refuse, State.later]
      dsimp only [id]
      exact Keeps.refl _ _
    · refine Keeps.ite_af (fun _ => ?_) (fun _ => ?_)
      · dsimp only [State.bad, State.okay, State.refuse, State.later]
        dsimp only [id]
        exact Keeps.refl _ _
      · split
        · dsimp only [State.bad, State.okay, State.refuse, State.later]
          dsimp only [id]
          exact Keeps.refl _ _
        · dsimp only [State.bad, State.okay, State.refuse, State.later]
          dsimp only [id]
          exact Keeps.refl _ _
        · dsimp only [State.bad, State.okay, State.refuse, State.later]
          dsimp only [id]
          exact Keeps.refl _ _

theorem State.azCqDestroy_keeps (s : State) (r : AzReq) :
    Keeps [.regs, .evt, .tally, .evr, .psq, .chans, .med, .bench, .xlt, .twin, .cxl, .rdma, .sec, .out, .fresh] s (State.azCqDestroy s r) := by
  unfold State.azCqDestroy
  refine Keeps.trans ?_ (State.azTake_keeps (by decide) (fun _ => ?_) (fun _ _ => ?_))
  · exact Keeps.refl _ _
  · refine Keeps.ite_st (fun _ => ?_) (fun _ => ?_)
    · dsimp only [State.bad, State.okay, State.refuse, State.later]
      exact Keeps.refl _ _
    · dsimp only [State.bad, State.okay, State.refuse, State.later]
      refine Keeps.after (State.settleRdma_keeps _) (by decide) ?_
      refine Keeps.set_rdma (by decide) ?_
      exact Keeps.refl _ _
  · refine Keeps.ite_af (fun _ => ?_) (fun _ => ?_)
    · dsimp only [State.bad, State.okay, State.refuse, State.later]
      dsimp only [id]
      exact Keeps.refl _ _
    · dsimp only [State.bad, State.okay, State.refuse, State.later]
      dsimp only [id]
      exact Keeps.refl _ _

theorem State.azSqAttach_keeps (s : State) (r : AzReq) :
    Keeps [.regs, .evt, .tally, .evr, .psq, .chans, .med, .cxl, .rdma, .out] s (State.azSqAttach s r) := by
  unfold State.azSqAttach
  refine Keeps.trans ?_ (State.azTake_keeps (by decide) (fun _ => ?_) (fun _ _ => ?_))
  · exact Keeps.refl _ _
  · split
    · dsimp only [State.bad, State.okay, State.refuse, State.later]
      exact Keeps.refl _ _
    · extract_lets -merge +onlyGivenNames x1
      refine Keeps.ite_st (fun _ => ?_) (fun _ => ?_)
      · dsimp only [State.bad, State.okay, State.refuse, State.later]
        exact Keeps.refl _ _
      · refine Keeps.ite_st (fun _ => ?_) (fun _ => ?_)
        · dsimp only [State.bad, State.okay, State.refuse, State.later]
          exact Keeps.refl _ _
        · refine Keeps.ite_st (fun _ => ?_) (fun _ => ?_)
          · dsimp only [State.bad, State.okay, State.refuse, State.later]
            exact Keeps.refl _ _
          · split
            · dsimp only [State.bad, State.okay, State.refuse, State.later]
              exact Keeps.refl _ _
            · refine Keeps.ite_st (fun _ => ?_) (fun _ => ?_)
              · dsimp only [State.bad, State.okay, State.refuse, State.later]
                exact Keeps.refl _ _
              · dsimp only [State.bad, State.okay, State.refuse, State.later]
                refine Keeps.after (State.setQp_keeps _ _ _) (by decide) ?_
                exact Keeps.refl _ _
  · split
    · dsimp only [State.bad, State.okay, State.refuse, State.later]
      dsimp only [id]
      exact Keeps.refl _ _
    · extract_lets -merge +onlyGivenNames x1
      refine Keeps.ite_af (fun _ => ?_) (fun _ => ?_)
      · dsimp only [State.bad, State.okay, State.refuse, State.later]
        dsimp only [id]
        exact Keeps.refl _ _
      · refine Keeps.ite_af (fun _ => ?_) (fun _ => ?_)
        · dsimp only [State.bad, State.okay, State.refuse, State.later]
          dsimp only [id]
          exact Keeps.refl _ _
        · refine Keeps.ite_af (fun _ => ?_) (fun _ => ?_)
          · dsimp only [State.bad, State.okay, State.refuse, State.later]
            dsimp only [id]
            exact Keeps.refl _ _
          · split
            · dsimp only [State.bad, State.okay, State.refuse, State.later]
              dsimp only [id]
              exact Keeps.refl _ _
            · refine Keeps.ite_af (fun _ => ?_) (fun _ => ?_)
              · dsimp only [State.bad, State.okay, State.refuse, State.later]
                dsimp only [id]
                exact Keeps.refl _ _
              · dsimp only [State.bad, State.okay, State.refuse, State.later]
                dsimp only [id]
                exact Keeps.refl _ _

theorem State.azSqDoorbell_keeps (s : State) (r : AzReq) :
    Keeps [.regs, .evt, .tally, .evr, .psq, .chans, .med, .bench, .xlt, .twin, .cxl, .rdma, .sec, .out, .fresh] s (State.azSqDoorbell s r) := by
  unfold State.azSqDoorbell
  refine Keeps.trans ?_ (State.azTake_keeps (by decide) (fun _ => ?_) (fun _ _ => ?_))
  · exact Keeps.refl _ _
  · split
    · dsimp only [State.bad, State.okay, State.refuse, State.later]
      exact Keeps.refl _ _
    · extract_lets -merge +onlyGivenNames x1
      extract_lets -merge +onlyGivenNames x2
      split
      · dsimp only [State.bad, State.okay, State.refuse, State.later]
        exact Keeps.refl _ _
      · refine Keeps.ite_st (fun _ => ?_) (fun _ => ?_)
        · dsimp only [State.bad, State.okay, State.refuse, State.later]
          exact Keeps.refl _ _
        · refine Keeps.ite_st (fun _ => ?_) (fun _ => ?_)
          · dsimp only [State.bad, State.okay, State.refuse, State.later]
            exact Keeps.refl _ _
          · dsimp only [State.bad, State.okay, State.refuse, State.later]
            refine Keeps.after (State.settleRdma_keeps _) (by decide) ?_
            refine Keeps.after (State.setQp_keeps _ _ _) (by decide) ?_
            exact Keeps.refl _ _
  · split
    · dsimp only [State.bad, State.okay, State.refuse, State.later]
      dsimp only [id]
      exact Keeps.refl _ _
    · extract_lets -merge +onlyGivenNames x1
      extract_lets -merge +onlyGivenNames x2
      split
      · dsimp only [State.bad, State.okay, State.refuse, State.later]
        dsimp only [id]
        exact Keeps.refl _ _
      · refine Keeps.ite_af (fun _ => ?_) (fun _ => ?_)
        · dsimp only [State.bad, State.okay, State.refuse, State.later]
          dsimp only [id]
          exact Keeps.refl _ _
        · refine Keeps.ite_af (fun _ => ?_) (fun _ => ?_)
          · dsimp only [State.bad, State.okay, State.refuse, State.later]
            dsimp only [id]
            exact Keeps.refl _ _
          · dsimp only [State.bad, State.okay, State.refuse, State.later]
            dsimp only [id]
            exact Keeps.refl _ _

theorem State.azQpInfo_keeps (s : State) (r : AzReq) :
    Keeps [.regs, .evt, .tally, .evr, .psq, .chans, .med, .cxl, .out] s (State.azQpInfo s r) := by
  unfold State.azQpInfo
  refine Keeps.trans ?_ (State.azTake_keeps (by decide) (fun _ => ?_) (fun _ _ => ?_))
  · exact Keeps.refl _ _
  · split
    · dsimp only [State.bad, State.okay, State.refuse, State.later]
      exact Keeps.refl _ _
    · dsimp only [State.bad, State.okay, State.refuse, State.later]
      exact Keeps.refl _ _
  · split
    · dsimp only [State.bad, State.okay, State.refuse, State.later]
      dsimp only [id]
      exact Keeps.refl _ _
    · dsimp only [State.bad, State.okay, State.refuse, State.later]
      dsimp only [id]
      exact Keeps.refl _ _

theorem execGidSet_ends (r : AzReq) (s : State) :
    Ends [.regs, .evt, .tally, .evr, .psq, .chans, .med, .cxl, .rdma, .out] s (execGidSet r s) := by
  unfold execGidSet
  refine Ends.next ?_
  refine Keeps.after (State.azGidSet_keeps _ _) (by decide) ?_
  exact Keeps.refl _ _

theorem execPdCreate_ends (r : AzReq) (s : State) :
    Ends [.regs, .evt, .tally, .evr, .psq, .chans, .med, .cxl, .rdma, .out, .fresh] s (execPdCreate r s) := by
  unfold execPdCreate
  refine Ends.next ?_
  refine Keeps.after (State.azPdCreate_keeps _ _) (by decide) ?_
  exact Keeps.refl _ _

theorem execPdDestroy_ends (r : AzReq) (s : State) :
    Ends [.regs, .evt, .tally, .evr, .psq, .chans, .med, .cxl, .rdma, .out] s (execPdDestroy r s) := by
  unfold execPdDestroy
  refine Ends.next ?_
  refine Keeps.after (State.azPdDestroy_keeps _ _) (by decide) ?_
  exact Keeps.refl _ _

theorem execPdToken_ends (r : AzReq) (s : State) :
    Ends [.regs, .evt, .tally, .evr, .psq, .chans, .med, .cxl, .rdma, .out, .fresh] s (execPdToken r s) := by
  unfold execPdToken
  refine Ends.next ?_
  refine Keeps.after (State.azPdToken_keeps _ _) (by decide) ?_
  exact Keeps.refl _ _

theorem execWindowCreate_ends (r : AzReq) (s : State) :
    Ends [.regs, .evt, .tally, .evr, .psq, .chans, .med, .cxl, .rdma, .out, .fresh] s (execWindowCreate r s) := by
  unfold execWindowCreate
  refine Ends.next ?_
  refine Keeps.after (State.azWindowCreate_keeps _ _) (by decide) ?_
  exact Keeps.refl _ _

theorem execWindowDestroy_ends (r : AzReq) (s : State) :
    Ends [.regs, .evt, .tally, .evr, .psq, .chans, .med, .cxl, .rdma, .out] s (execWindowDestroy r s) := by
  unfold execWindowDestroy
  refine Ends.next ?_
  refine Keeps.after (State.azWindowDestroy_keeps _ _) (by decide) ?_
  exact Keeps.refl _ _

theorem execCqCreate_ends (r : AzReq) (s : State) :
    Ends [.regs, .evt, .tally, .evr, .psq, .chans, .med, .cxl, .rdma, .out] s (execCqCreate r s) := by
  unfold execCqCreate
  refine Ends.next ?_
  refine Keeps.after (State.azCqCreate_keeps _ _) (by decide) ?_
  exact Keeps.refl _ _

theorem execCqDestroy_ends (r : AzReq) (s : State) :
    Ends [.regs, .evt, .tally, .evr, .psq, .chans, .med, .bench, .xlt, .twin, .cxl, .rdma, .sec, .out, .fresh] s (execCqDestroy r s) := by
  unfold execCqDestroy
  refine Ends.next ?_
  refine Keeps.after (State.azCqDestroy_keeps _ _) (by decide) ?_
  exact Keeps.refl _ _

theorem execSqAttach_ends (r : AzReq) (s : State) :
    Ends [.regs, .evt, .tally, .evr, .psq, .chans, .med, .cxl, .rdma, .out] s (execSqAttach r s) := by
  unfold execSqAttach
  refine Ends.next ?_
  refine Keeps.after (State.azSqAttach_keeps _ _) (by decide) ?_
  exact Keeps.refl _ _

theorem execSqDoorbell_ends (r : AzReq) (s : State) :
    Ends [.regs, .evt, .tally, .evr, .psq, .chans, .med, .bench, .xlt, .twin, .cxl, .rdma, .sec, .out, .fresh] s (execSqDoorbell r s) := by
  unfold execSqDoorbell
  refine Ends.next ?_
  refine Keeps.after (State.azSqDoorbell_keeps _ _) (by decide) ?_
  exact Keeps.refl _ _

theorem execQpInfo_ends (r : AzReq) (s : State) :
    Ends [.regs, .evt, .tally, .evr, .psq, .chans, .med, .cxl, .out] s (execQpInfo r s) := by
  unfold execQpInfo
  refine Ends.next ?_
  refine Keeps.after (State.azQpInfo_keeps _ _) (by decide) ?_
  exact Keeps.refl _ _

/-! ### AzDispatch -/

theorem azTable_pending_1 : ∀ e ∈ ([(0x0101, State.azIdentify), (0x0102, State.azDeviceStatus), (0x0103, State.azChannelAssign), (0x0104, State.azChannelMode), (0x0105, State.azCmdStatus), (0x0106, State.azRouteSet), (0x0107, State.azRouteGet), (0x0108, State.azStageWrite), (0x0109, State.azStageRead)] : List (Nat × (State → AzReq → State))),
    ∀ (s : State) (r : AzReq), (e.2 s r).pending = s.pending := by
  simp only [List.forall_mem_cons, List.not_mem_nil, false_imp_iff, implies_true, and_true]
  exact ⟨fun s r => (State.azIdentify_keeps s r).pending (by decide),
    fun s r => (State.azDeviceStatus_keeps s r).pending (by decide),
    fun s r => (State.azChannelAssign_keeps s r).pending (by decide),
    fun s r => (State.azChannelMode_keeps s r).pending (by decide),
    fun s r => (State.azCmdStatus_keeps s r).pending (by decide),
    fun s r => (State.azRouteSet_keeps s r).pending (by decide),
    fun s r => (State.azRouteGet_keeps s r).pending (by decide),
    fun s r => (State.azStageWrite_keeps s r).pending (by decide),
    fun s r => (State.azStageRead_keeps s r).pending (by decide)⟩

theorem azTable_pending_2 : ∀ e ∈ ([(0x0201, State.azRegionCreate), (0x0202, State.azRegionDelete), (0x0203, State.azRegionResize), (0x0204, State.azRegionSetMode), (0x0205, State.azRegionSetPolicy), (0x0206, State.azRegionInfo), (0x0207, State.azRegionGrant), (0x0208, State.azRegionBind), (0x0209, State.azRegionUnbind), (0x020A, State.azRegionZero), (0x020B, State.azDcMap)] : List (Nat × (State → AzReq → State))),
    ∀ (s : State) (r : AzReq), (e.2 s r).pending = s.pending := by
  simp only [List.forall_mem_cons, List.not_mem_nil, false_imp_iff, implies_true, and_true]
  exact ⟨fun s r => (State.azRegionCreate_keeps s r).pending (by decide),
    fun s r => (State.azRegionDelete_keeps s r).pending (by decide),
    fun s r => (State.azRegionResize_keeps s r).pending (by decide),
    fun s r => (State.azRegionSetMode_keeps s r).pending (by decide),
    fun s r => (State.azRegionSetPolicy_keeps s r).pending (by decide),
    fun s r => (State.azRegionInfo_keeps s r).pending (by decide),
    fun s r => (State.azRegionGrant_keeps s r).pending (by decide),
    fun s r => (State.azRegionBind_keeps s r).pending (by decide),
    fun s r => (State.azRegionUnbind_keeps s r).pending (by decide),
    fun s r => (State.azRegionZero_keeps s r).pending (by decide),
    fun s r => (State.azDcMap_keeps s r).pending (by decide)⟩

theorem azTable_pending_3 : ∀ e ∈ ([(0x0301, State.azObjectCreate), (0x0302, State.azObjectDelete), (0x0303, State.azHintSet), (0x0304, State.azHintExtend), (0x0305, State.azObjectList)] : List (Nat × (State → AzReq → State))),
    ∀ (s : State) (r : AzReq), (e.2 s r).pending = s.pending := by
  simp only [List.forall_mem_cons, List.not_mem_nil, false_imp_iff, implies_true, and_true]
  exact ⟨fun s r => (State.azObjectCreate_keeps s r).pending (by decide),
    fun s r => (State.azObjectDelete_keeps s r).pending (by decide),
    fun s r => (State.azHintSet_keeps s r).pending (by decide),
    fun s r => (State.azHintExtend_keeps s r).pending (by decide),
    fun s r => (State.azObjectList_keeps s r).pending (by decide)⟩

theorem azTable_pending_4 : ∀ e ∈ ([(0x0401, State.azPairBind), (0x0402, State.azPairStatus), (0x0403, State.azSolo), (0x0404, State.azTakeover), (0x0405, State.azFence), (0x0406, State.azMoveHome), (0x0407, State.azDetach), (0x0408, State.azRejoin)] : List (Nat × (State → AzReq → State))),
    ∀ (s : State) (r : AzReq), (e.2 s r).pending = s.pending := by
  simp only [List.forall_mem_cons, List.not_mem_nil, false_imp_iff, implies_true, and_true]
  exact ⟨fun s r => (State.azPairBind_keeps s r).pending (by decide),
    fun s r => (State.azPairStatus_keeps s r).pending (by decide),
    fun s r => (State.azSolo_keeps s r).pending (by decide),
    fun s r => (State.azTakeover_keeps s r).pending (by decide),
    fun s r => (State.azFence_keeps s r).pending (by decide),
    fun s r => (State.azMoveHome_keeps s r).pending (by decide),
    fun s r => (State.azDetach_keeps s r).pending (by decide),
    fun s r => (State.azRejoin_keeps s r).pending (by decide)⟩

theorem azTable_pending_5 : ∀ e ∈ ([(0x0501, State.azRegionUnlock), (0x0502, State.azRegionLock), (0x0503, State.azCryptoErase), (0x0504, State.azTimeKeySet), (0x0505, State.azMacsecCakSet), (0x0506, State.azCertGet), (0x0601, State.azLcStatus), (0x0602, State.azLcAdvance), (0x0603, State.azDebugUnlock)] : List (Nat × (State → AzReq → State))),
    ∀ (s : State) (r : AzReq), (e.2 s r).pending = s.pending := by
  simp only [List.forall_mem_cons, List.not_mem_nil, false_imp_iff, implies_true, and_true]
  exact ⟨fun s r => (State.azRegionUnlock_keeps s r).pending (by decide),
    fun s r => (State.azRegionLock_keeps s r).pending (by decide),
    fun s r => (State.azCryptoErase_keeps s r).pending (by decide),
    fun s r => (State.azTimeKeySet_keeps s r).pending (by decide),
    fun s r => (State.azMacsecCakSet_keeps s r).pending (by decide),
    fun s r => (State.azCertGet_keeps s r).pending (by decide),
    fun s r => (State.azLcStatus_keeps s r).pending (by decide),
    fun s r => (State.azLcAdvance_keeps s r).pending (by decide),
    fun s r => (State.azDebugUnlock_keeps s r).pending (by decide)⟩

theorem azTable_pending_6 : ∀ e ∈ ([(0x0701, State.azFwChunk), (0x0702, State.azFwCommit), (0x0703, State.azFwActivate), (0x0704, State.azFwInfo), (0x0705, fun s r => s.azVaultRead r []), (0x0801, State.azEvrRead), (0x0802, State.azEvrClear), (0x0803, State.azEvrRateSet), (0x0804, State.azEvrStatus)] : List (Nat × (State → AzReq → State))),
    ∀ (s : State) (r : AzReq), (e.2 s r).pending = s.pending := by
  simp only [List.forall_mem_cons, List.not_mem_nil, false_imp_iff, implies_true, and_true]
  exact ⟨fun s r => (State.azFwChunk_keeps s r).pending (by decide),
    fun s r => (State.azFwCommit_keeps s r).pending (by decide),
    fun s r => (State.azFwActivate_keeps s r).pending (by decide),
    fun s r => (State.azFwInfo_keeps s r).pending (by decide),
    fun s r => (State.azVaultRead_keeps s r []).pending (by decide),
    fun s r => (State.azEvrRead_keeps s r).pending (by decide),
    fun s r => (State.azEvrClear_keeps s r).pending (by decide),
    fun s r => (State.azEvrRateSet_keeps s r).pending (by decide),
    fun s r => (State.azEvrStatus_keeps s r).pending (by decide)⟩

theorem azTable_pending_7 : ∀ e ∈ ([(0x0901, State.azTallyStatus), (0x0902, State.azTimeSigned), (0x0903, State.azSchedAdd), (0x0904, State.azSchedRemove), (0x0905, State.azPowerRequest), (0x0906, State.azDrainAndHalt), (0x0907, State.azReset), (0x0908, State.azWakeMarginSet), (0x0909, State.azLockoutClear), (0x090A, State.azPowerStatus)] : List (Nat × (State → AzReq → State))),
    ∀ (s : State) (r : AzReq), (e.2 s r).pending = s.pending := by
  simp only [List.forall_mem_cons, List.not_mem_nil, false_imp_iff, implies_true, and_true]
  exact ⟨fun s r => (State.azTallyStatus_keeps s r).pending (by decide),
    fun s r => (State.azTimeSigned_keeps s r).pending (by decide),
    fun s r => (State.azSchedAdd_keeps s r).pending (by decide),
    fun s r => (State.azSchedRemove_keeps s r).pending (by decide),
    fun s r => (State.azPowerRequest_keeps s r).pending (by decide),
    fun s r => (State.azDrainAndHalt_keeps s r).pending (by decide),
    fun s r => (State.azReset_keeps s r).pending (by decide),
    fun s r => (State.azWakeMarginSet_keeps s r).pending (by decide),
    fun s r => (State.azLockoutClear_keeps s r).pending (by decide),
    fun s r => (State.azPowerStatus_keeps s r).pending (by decide)⟩

theorem azTable_pending_8 : ∀ e ∈ ([(0x0A01, State.azBenchViewOpen), (0x0A02, State.azBenchViewClose), (0x0A03, State.azDramScrubRange), (0x0A04, State.azRegRead), (0x0A05, State.azRegWrite)] : List (Nat × (State → AzReq → State))),
    ∀ (s : State) (r : AzReq), (e.2 s r).pending = s.pending := by
  simp only [List.forall_mem_cons, List.not_mem_nil, false_imp_iff, implies_true, and_true]
  exact ⟨fun s r => (State.azBenchViewOpen_keeps s r).pending (by decide),
    fun s r => (State.azBenchViewClose_keeps s r).pending (by decide),
    fun s r => (State.azDramScrubRange_keeps s r).pending (by decide),
    fun s r => (State.azRegRead_keeps s r).pending (by decide),
    fun s r => (State.azRegWrite_keeps s r).pending (by decide)⟩

theorem azTable_pending_9 : ∀ e ∈ ([(0x0B01, State.azGidSet), (0x0B02, State.azPdCreate), (0x0B03, State.azPdDestroy), (0x0B04, State.azPdToken), (0x0B05, State.azWindowCreate), (0x0B06, State.azWindowDestroy), (0x0B07, State.azCqCreate), (0x0B08, State.azCqDestroy), (0x0B09, State.azSqAttach), (0x0B0A, State.azSqDoorbell), (0x0B0B, State.azQpInfo)] : List (Nat × (State → AzReq → State))),
    ∀ (s : State) (r : AzReq), (e.2 s r).pending = s.pending := by
  simp only [List.forall_mem_cons, List.not_mem_nil, false_imp_iff, implies_true, and_true]
  exact ⟨fun s r => (State.azGidSet_keeps s r).pending (by decide),
    fun s r => (State.azPdCreate_keeps s r).pending (by decide),
    fun s r => (State.azPdDestroy_keeps s r).pending (by decide),
    fun s r => (State.azPdToken_keeps s r).pending (by decide),
    fun s r => (State.azWindowCreate_keeps s r).pending (by decide),
    fun s r => (State.azWindowDestroy_keeps s r).pending (by decide),
    fun s r => (State.azCqCreate_keeps s r).pending (by decide),
    fun s r => (State.azCqDestroy_keeps s r).pending (by decide),
    fun s r => (State.azSqAttach_keeps s r).pending (by decide),
    fun s r => (State.azSqDoorbell_keeps s r).pending (by decide),
    fun s r => (State.azQpInfo_keeps s r).pending (by decide)⟩

theorem azTable_pending_10 : ∀ e ∈ ([(0x0C01, State.azDieMarkFailed), (0x0C02, State.azOrphanSweep), (0x0C03, State.azTeaselPassNow), (0x0C04, State.azEyebrightSweep), (0x0C05, State.azMediumStatus), (0x0C06, State.azChannelOffline)] : List (Nat × (State → AzReq → State))),
    ∀ (s : State) (r : AzReq), (e.2 s r).pending = s.pending := by
  simp only [List.forall_mem_cons, List.not_mem_nil, false_imp_iff, implies_true, and_true]
  exact ⟨fun s r => (State.azDieMarkFailed_keeps s r).pending (by decide),
    fun s r => (State.azOrphanSweep_keeps s r).pending (by decide),
    fun s r => (State.azTeaselPassNow_keeps s r).pending (by decide),
    fun s r => (State.azEyebrightSweep_keeps s r).pending (by decide),
    fun s r => (State.azMediumStatus_keeps s r).pending (by decide),
    fun s r => (State.azChannelOffline_keeps s r).pending (by decide)⟩

theorem azTable_pending : ∀ e ∈ azTable, ∀ (s : State) (r : AzReq), (e.2 s r).pending = s.pending :=
  List.forall_mem_append.2 ⟨(List.forall_mem_append.2 ⟨(List.forall_mem_append.2 ⟨(List.forall_mem_append.2 ⟨(List.forall_mem_append.2 ⟨(List.forall_mem_append.2 ⟨(List.forall_mem_append.2 ⟨(List.forall_mem_append.2 ⟨(List.forall_mem_append.2 ⟨azTable_pending_1, azTable_pending_2⟩), azTable_pending_3⟩), azTable_pending_4⟩), azTable_pending_5⟩), azTable_pending_6⟩), azTable_pending_7⟩), azTable_pending_8⟩), azTable_pending_9⟩), azTable_pending_10⟩

theorem State.azUnknown_keeps (s : State) (r : AzReq) (opcode : Nat) :
    Keeps [.regs, .evt, .tally, .evr, .psq, .chans, .med, .cxl, .out] s (State.azUnknown s r opcode) := by
  unfold State.azUnknown
  refine Keeps.trans ?_ (State.azTake_keeps (by decide) (fun _ => ?_) (fun _ _ => ?_))
  · exact Keeps.refl _ _
  · dsimp only [State.bad, State.okay, State.refuse, State.later]
    exact Keeps.refl _ _
  · dsimp only [State.bad, State.okay, State.refuse, State.later]
    dsimp only [id]
    exact Keeps.refl _ _

theorem State.azRun_keeps (s : State) (opcode : Nat) (r : AzReq) : Keeps [.regs, .csr, .evt, .ecc, .tally, .sched, .nv, .evr, .wdg, .flash, .psq, .chans, .med, .bench, .xlt, .twin, .cxl, .rdma, .sec, .fuse, .dram, .out, .fresh] s (s.azRun opcode r) := by
  unfold State.azRun
  split
  · rename_i e he
    exact Keeps.of_pending (azTable_pending e (List.mem_of_find?_eq_some he) s r)
  · exact (State.azUnknown_keeps s r opcode).mono (by decide)

theorem State.takeWords_keeps (s : State) (c : Fin 64) (via : Transport) (ws : List Word) (ok : Bool) :
    Keeps [.regs, .csr, .evt, .ecc, .tally, .sched, .nv, .evr, .wdg, .flash, .psq, .chans, .med, .bench, .xlt, .twin, .cxl, .rdma, .sec, .fuse, .dram, .out, .fresh] s (State.takeWords s c via ws ok) := by
  unfold State.takeWords
  split
  · refine Keeps.after (State.azRun_keeps _ _ _) (by decide) ?_
    exact Keeps.refl _ _
  · refine Keeps.after (State.deliver_keeps _ _ _ _) (by decide) ?_
    refine Keeps.after (State.wakeIdle_keeps _) (by decide) ?_
    exact Keeps.refl _ _

theorem State.takeNative_keeps (s : State) (c : Fin 64) (ok : Bool) :
    Keeps [.regs, .csr, .evt, .ecc, .tally, .sched, .nv, .evr, .wdg, .flash, .psq, .chans, .med, .bench, .xlt, .twin, .cxl, .rdma, .sec, .fuse, .dram, .out, .fresh] s (State.takeNative s c ok) := by
  unfold State.takeNative
  extract_lets -merge +onlyGivenNames x1
  extract_lets -merge +onlyGivenNames x2
  extract_lets -merge +onlyGivenNames x3
  refine Keeps.of_let x3 ?_ (fun h3 => ?_)
  · unfold x3
    refine Keeps.after (State.setChan_keeps _ _ _) (by decide) ?_
    exact Keeps.refl _ _
  · refine Keeps.ite (fun _ => ?_) (fun _ => ?_)
    · refine Keeps.after (State.deliver_keeps _ _ _ _) (by decide) ?_
      refine Keeps.after (State.cause_keeps _ _ _ _ _) (by decide) ?_
      refine Keeps.after (State.wakeIdle_keeps _) (by decide) ?_
      exact h3
    · refine Keeps.after (State.takeWords_keeps _ _ _ _ _) (by decide) ?_
      exact h3

theorem State.takeLegacy_keeps (s : State) (c : Fin 64) (ok : Bool) :
    Keeps [.regs, .csr, .evt, .ecc, .tally, .sched, .nv, .evr, .wdg, .flash, .psq, .chans, .med, .bench, .xlt, .twin, .cxl, .rdma, .sec, .fuse, .dram, .out, .fresh] s (State.takeLegacy s c ok) := by
  unfold State.takeLegacy
  extract_lets -merge +onlyGivenNames x1
  extract_lets -merge +onlyGivenNames x2
  refine Keeps.of_let x2 ?_ (fun h2 => ?_)
  · unfold x2
    refine Keeps.after (State.setChan_keeps _ _ _) (by decide) ?_
    exact Keeps.refl _ _
  · refine Keeps.ite (fun _ => ?_) (fun _ => ?_)
    · refine Keeps.after (State.deliver_keeps _ _ _ _) (by decide) ?_
      refine Keeps.after (State.cause_keeps _ _ _ _ _) (by decide) ?_
      refine Keeps.after (State.wakeIdle_keeps _) (by decide) ?_
      exact h2
    · extract_lets -merge +onlyGivenNames x3
      refine Keeps.after (State.azRun_keeps _ _ _) (by decide) ?_
      exact h2

theorem State.runHeldPacket_keeps (s : State) (c : Fin 64) (p : HeldPacket) :
    Keeps [.regs, .csr, .evt, .ecc, .tally, .sched, .nv, .evr, .wdg, .flash, .psq, .chans, .med, .bench, .xlt, .twin, .cxl, .rdma, .sec, .fuse, .dram, .out, .fresh] s (State.runHeldPacket s c p) := by
  unfold State.runHeldPacket
  refine Keeps.ite (fun _ => ?_) (fun _ => ?_)
  · refine Keeps.ite (fun _ => ?_) (fun _ => ?_)
    · refine Keeps.after (State.takeLegacy_keeps _ _ _) (by decide) ?_
      exact Keeps.refl _ _
    · refine Keeps.after (State.takeNative_keeps _ _ _) (by decide) ?_
      exact Keeps.refl _ _
  · refine Keeps.ite (fun _ => ?_) (fun _ => ?_)
    · refine Keeps.after (State.takeWords_keeps _ _ _ _ _) (by decide) ?_
      exact Keeps.refl _ _
    · refine Keeps.after (State.azRun_keeps _ _ _) (by decide) ?_
      exact Keeps.refl _ _

theorem State.heldRun_keeps (s : State) (c : Fin 64) (a2 : Nat) :
    Keeps [.regs, .csr, .evt, .ecc, .tally, .sched, .nv, .evr, .wdg, .flash, .psq, .chans, .med, .bench, .xlt, .twin, .cxl, .rdma, .sec, .fuse, .dram, .out, .fresh] s (State.heldRun s c a2) := by
  induction a2 generalizing s c
  · unfold State.heldRun
    exact Keeps.refl _ _
  · rename_i x ih
    unfold State.heldRun
    refine Keeps.ite (fun _ => ?_) (fun _ => ?_)
    · exact Keeps.refl _ _
    · split
      · exact Keeps.refl _ _
      · refine Keeps.trans ?_ (ih _ _)
        refine Keeps.after (State.runHeldPacket_keeps _ _ _) (by decide) ?_
        refine Keeps.after (State.setChan_keeps _ _ _) (by decide) ?_
        exact Keeps.refl _ _

theorem State.catchUp_keeps (s : State) (c : Fin 64) :
    Keeps [.regs, .csr, .evt, .ecc, .tally, .sched, .nv, .evr, .wdg, .flash, .psq, .chans, .med, .bench, .xlt, .twin, .cxl, .rdma, .sec, .fuse, .dram, .out, .fresh] s (State.catchUp s c) := by
  unfold State.catchUp
  refine Keeps.after (State.heldRun_keeps _ _ _) (by decide) ?_
  exact Keeps.refl _ _

theorem State.catchUpAll_keeps (s : State) :
    Keeps [.regs, .csr, .evt, .ecc, .tally, .sched, .nv, .evr, .wdg, .flash, .psq, .chans, .med, .bench, .xlt, .twin, .cxl, .rdma, .sec, .fuse, .dram, .out, .fresh] s (State.catchUpAll s) := by
  unfold State.catchUpAll
  refine Keeps.foldl _ (fun _ _ => ?_) ?_
  · refine Keeps.after (State.catchUp_keeps _ _) (by decide) ?_
    exact Keeps.refl _ _
  · exact Keeps.refl _ _

theorem State.arrive_keeps (s : State) (c : Fin 64) (p : HeldPacket) :
    Keeps [.regs, .csr, .evt, .ecc, .tally, .sched, .nv, .evr, .wdg, .flash, .psq, .chans, .med, .bench, .xlt, .twin, .cxl, .rdma, .sec, .fuse, .dram, .out, .fresh] s (State.arrive s c p) := by
  unfold State.arrive
  refine Keeps.ite (fun _ => ?_) (fun _ => ?_)
  · exact Keeps.refl _ _
  · refine Keeps.after (State.catchUp_keeps _ _) (by decide) ?_
    refine Keeps.after (State.setChan_keeps _ _ _) (by decide) ?_
    exact Keeps.refl _ _

theorem State.arriveWords_keeps (s : State) (c : Fin 64) (via : Transport) (ws : List Word) (ok : Bool) :
    Keeps [.regs, .csr, .evt, .ecc, .tally, .sched, .nv, .evr, .wdg, .flash, .psq, .chans, .med, .bench, .xlt, .twin, .cxl, .rdma, .sec, .fuse, .dram, .out, .fresh] s (State.arriveWords s c via ws ok) := by
  unfold State.arriveWords
  refine Keeps.after (State.arrive_keeps _ _ _) (by decide) ?_
  exact Keeps.refl _ _

theorem State.pageSubmit_keeps (s : State) (c : Fin 64) (ok : Bool) :
    Keeps [.regs, .csr, .evt, .ecc, .tally, .sched, .nv, .evr, .wdg, .flash, .psq, .chans, .med, .bench, .xlt, .twin, .cxl, .rdma, .sec, .fuse, .dram, .out, .fresh] s (State.pageSubmit s c ok) := by
  unfold State.pageSubmit
  extract_lets -merge +onlyGivenNames x1
  extract_lets -merge +onlyGivenNames x2
  refine Keeps.ite (fun _ => ?_) (fun _ => ?_)
  · refine Keeps.after (State.arrive_keeps _ _ _) (by decide) ?_
    exact Keeps.refl _ _
  · refine Keeps.after (State.catchUp_keeps _ _) (by decide) ?_
    exact Keeps.refl _ _

theorem State.pendingEnd_keeps (s : State) (c : Fin 64) (o : PendingOp) (ok : Bool) :
    Keeps [.regs, .evt, .sched, .nv, .evr, .flash, .chans, .med, .bench, .xlt, .twin, .cxl, .rdma, .sec, .out, .fresh] s (State.pendingEnd s c o ok).1 := by
  unfold State.pendingEnd
  extract_lets -merge +onlyGivenNames x1
  extract_lets -merge +onlyGivenNames x2
  split
  · extract_lets -merge +onlyGivenNames x3
    dsimp only
    exact Keeps.refl _ _
  · dsimp only
    exact Keeps.refl _ _
  · dsimp only
    exact Keeps.refl _ _
  · dsimp only
    exact Keeps.refl _ _
  · dsimp only
    refine Keeps.after (State.settleMed_keeps _) (by decide) ?_
    refine Keeps.after (State.judgeSec_keeps _) (by decide) ?_
    refine Keeps.after (State.eraseEnd_keeps _ _) (by decide) ?_
    exact Keeps.refl _ _
  · refine Keeps.ite_fst (fun _ => ?_) (fun _ => ?_)
    · split
      dsimp only
      refine Keeps.of_fst (by assumption) ?_
      refine Keeps.after (State.lcDone_keeps _ _) (by decide) ?_
      exact Keeps.refl _ _
    · dsimp only
      exact Keeps.refl _ _
  · refine Keeps.ite_fst (fun _ => ?_) (fun _ => ?_)
    · refine Keeps.after (State.fwCommitDone_keeps _ _ _ _) (by decide) ?_
      exact Keeps.refl _ _
    · dsimp only
      exact Keeps.refl _ _
  · split
    dsimp only
    refine Keeps.of_fst (by assumption) ?_
    refine Keeps.after (State.orphanEnd_keeps _) (by decide) ?_
    exact Keeps.refl _ _
  · dsimp only
    exact Keeps.refl _ _
  · dsimp only
    exact Keeps.refl _ _

theorem State.pendingDone_keeps (s : State) (c : Fin 64) (tag : BitVec 16) (ok : Bool) :
    Keeps [.regs, .csr, .evt, .ecc, .tally, .sched, .nv, .evr, .wdg, .flash, .psq, .chans, .med, .bench, .xlt, .twin, .cxl, .rdma, .sec, .fuse, .dram, .out, .fresh] s (State.pendingDone s c tag ok) := by
  unfold State.pendingDone
  split
  · exact Keeps.refl _ _
  · split
    · refine Keeps.after (State.catchUp_keeps _ _) (by decide) ?_
      refine Keeps.after (State.complete_keeps _ _ _ _ _) (by decide) ?_
      refine Keeps.of_fst (by assumption) ?_
      refine Keeps.after (State.pendingEnd_keeps _ _ _ _) (by decide) ?_
      exact Keeps.refl _ _
    · refine Keeps.of_fst (by assumption) ?_
      refine Keeps.after (State.pendingEnd_keeps _ _ _ _) (by decide) ?_
      exact Keeps.refl _ _

theorem State.pageGo_keeps (s : State) (off : Nat) :
    Keeps [.regs, .csr, .evt, .ecc, .tally, .sched, .nv, .evr, .wdg, .flash, .psq, .chans, .med, .bench, .xlt, .twin, .cxl, .rdma, .sec, .fuse, .dram, .out, .fresh] s (State.pageGo s off) := by
  unfold State.pageGo
  split
  · refine Keeps.ite (fun _ => ?_) (fun _ => ?_)
    · refine Keeps.after (State.pageSubmit_keeps _ _ _) (by decide) ?_
      exact Keeps.refl _ _
    · refine Keeps.ite (fun _ => ?_) (fun _ => ?_)
      · refine Keeps.after (State.catchUp_keeps _ _) (by decide) ?_
        exact Keeps.refl _ _
      · exact Keeps.refl _ _
  · exact Keeps.refl _ _

theorem execCsrWrite_ends (req : Requester) (read : Option AccessKind) (off : Fin 4194304) (size : Nat) (full : Bool) (data : Dword) (s : State) :
    Ends [.regs, .csr, .evt, .ecc, .tally, .sched, .nv, .evr, .wdg, .flash, .psq, .chans, .med, .bench, .xlt, .twin, .cxl, .rdma, .sec, .fuse, .dram, .out, .fresh] s (execCsrWrite req read off size full data s) := by
  unfold execCsrWrite
  extract_lets -merge +onlyGivenNames x1
  refine Ends.of_let x1 ?_ (fun h1 => ?_)
  · unfold x1
    refine Keeps.after (State.busAccess_keeps _ _) (by decide) ?_
    exact Keeps.refl _ _
  · refine Ends.next ?_
    refine Keeps.ite (fun _ => ?_) (fun _ => ?_)
    · exact h1
    · refine Keeps.after (State.pageGo_keeps _ _) (by decide) ?_
      exact h1

theorem execAonPostedWriteApply_ends (s : State) :
    Ends [.regs, .csr, .evt, .ecc, .tally, .sched, .nv, .evr, .wdg, .flash, .psq, .chans, .med, .bench, .xlt, .twin, .cxl, .rdma, .sec, .fuse, .dram, .out, .fresh] s (execAonPostedWriteApply s) := by
  unfold execAonPostedWriteApply
  refine Ends.ite (fun _ => ?_) (fun _ => ?_)
  · refine Ends.next ?_
    exact Keeps.refl _ _
  · split
    · refine Ends.next ?_
      exact Keeps.refl _ _
    · extract_lets -merge +onlyGivenNames x1
      extract_lets -merge +onlyGivenNames x2
      refine Ends.of_let x2 ?_ (fun h2 => ?_)
      · unfold x2
        refine Keeps.after (State.busResume_keeps _) (by decide) ?_
        refine Keeps.after (State.applyPosted_keeps _ _) (by decide) ?_
        refine Keeps.set_csr (by decide) ?_
        exact Keeps.refl _ _
      · refine Ends.next ?_
        refine Keeps.foldl _ (fun _ _ => ?_) ?_
        · refine Keeps.after (State.pageGo_keeps _ _) (by decide) ?_
          exact Keeps.refl _ _
        · exact h2

theorem execMbxIn_ends (c : Fin 64) (w : Word) (s : State) :
    Ends [.chans] s (execMbxIn c w s) := by
  unfold execMbxIn
  refine Ends.next ?_
  refine Keeps.ite (fun _ => ?_) (fun _ => ?_)
  · refine Keeps.after (State.mbxIn_keeps _ _ _) (by decide) ?_
    exact Keeps.refl _ _
  · exact Keeps.refl _ _

theorem execMbxDoorbell_ends (c : Fin 64) (ok : Bool) (s : State) :
    Ends [.regs, .csr, .evt, .ecc, .tally, .sched, .nv, .evr, .wdg, .flash, .psq, .chans, .med, .bench, .xlt, .twin, .cxl, .rdma, .sec, .fuse, .dram, .out, .fresh] s (execMbxDoorbell c ok s) := by
  unfold execMbxDoorbell
  refine Ends.next ?_
  refine Keeps.ite (fun _ => ?_) (fun _ => ?_)
  · refine Keeps.after (State.pageSubmit_keeps _ _ _) (by decide) ?_
    refine Keeps.after (State.mbxBell_keeps _ _) (by decide) ?_
    exact Keeps.refl _ _
  · exact Keeps.refl _ _

theorem execMbxOutPop_ends (c : Fin 64) (k : Nat) (s : State) :
    Ends [.regs, .csr, .evt, .ecc, .tally, .sched, .nv, .evr, .wdg, .flash, .psq, .chans, .med, .bench, .xlt, .twin, .cxl, .rdma, .sec, .fuse, .dram, .out, .fresh] s (execMbxOutPop c k s) := by
  unfold execMbxOutPop
  refine Ends.next ?_
  refine Keeps.ite (fun _ => ?_) (fun _ => ?_)
  · refine Keeps.after (State.catchUp_keeps _ _) (by decide) ?_
    refine Keeps.after (State.mbxPop_keeps _ _ _) (by decide) ?_
    exact Keeps.refl _ _
  · exact Keeps.refl _ _

theorem execMbxInReset_ends (c : Fin 64) (s : State) :
    Ends [.chans] s (execMbxInReset c s) := by
  unfold execMbxInReset
  refine Ends.next ?_
  refine Keeps.ite (fun _ => ?_) (fun _ => ?_)
  · refine Keeps.after (State.mbxInReset_keeps _ _) (by decide) ?_
    exact Keeps.refl _ _
  · exact Keeps.refl _ _

theorem execLGo_ends (c : Fin 64) (ok : Bool) (s : State) :
    Ends [.regs, .csr, .evt, .ecc, .tally, .sched, .nv, .evr, .wdg, .flash, .psq, .chans, .med, .bench, .xlt, .twin, .cxl, .rdma, .sec, .fuse, .dram, .out, .fresh] s (execLGo c ok s) := by
  unfold execLGo
  refine Ends.next ?_
  refine Keeps.ite (fun _ => ?_) (fun _ => ?_)
  · refine Keeps.after (State.pageSubmit_keeps _ _ _) (by decide) ?_
    refine Keeps.after (State.legacyWrite_keeps _ _ _ _ _) (by decide) ?_
    exact Keeps.refl _ _
  · exact Keeps.refl _ _

theorem execLegacyRegisterCollide_ends (c : Fin 64) (off : Fin 4096) (w : Word) (s : State) :
    Ends [.chans] s (execLegacyRegisterCollide c off w s) := by
  unfold execLegacyRegisterCollide
  refine Ends.next ?_
  refine Keeps.ite (fun _ => ?_) (fun _ => ?_)
  · refine Keeps.after (State.legacyWrite_keeps _ _ _ _ _) (by decide) ?_
    exact Keeps.refl _ _
  · exact Keeps.refl _ _

theorem execMctpMessage_ends (c : Fin 8) (ws : List Word) (ok : Bool) (s : State) :
    Ends [.regs, .csr, .evt, .ecc, .tally, .sched, .nv, .evr, .wdg, .flash, .psq, .chans, .med, .bench, .xlt, .twin, .cxl, .rdma, .sec, .fuse, .dram, .out, .fresh] s (execMctpMessage c ws ok s) := by
  unfold execMctpMessage
  extract_lets -merge +onlyGivenNames x1
  extract_lets -merge +onlyGivenNames x2
  refine Ends.next ?_
  refine Keeps.ite (fun _ => ?_) (fun _ => ?_)
  · refine Keeps.after (State.arriveWords_keeps _ _ _ _ _) (by decide) ?_
    exact Keeps.refl _ _
  · exact Keeps.refl _ _

theorem State.i3cWord_keeps (s : State) (off : Nat) (w : Word) :
    Keeps [.regs, .csr, .evt, .tally, .sched, .nv, .evr, .wdg, .psq, .chans, .med, .bench, .xlt, .twin, .cxl, .rdma, .sec, .dram, .out, .fresh] s (State.i3cWord s off w) := by
  unfold State.i3cWord
  split
  · refine Keeps.ite (fun _ => ?_) (fun _ => ?_)
    · refine Keeps.after (State.writeReg_keeps _ _ _ _ _ _) (by decide) ?_
      exact Keeps.refl _ _
    · refine Keeps.after (State.legacyWrite_keeps _ _ _ _ _) (by decide) ?_
      exact Keeps.refl _ _
  · refine Keeps.after (State.legacyWrite_keeps _ _ _ _ _) (by decide) ?_
    exact Keeps.refl _ _

theorem execI3cPrivateWrite_ends (off : BitVec 16) (ws : List Word) (ok : Bool) (rd : Nat) (s : State) :
    Ends [.regs, .csr, .evt, .ecc, .tally, .sched, .nv, .evr, .wdg, .flash, .psq, .chans, .med, .bench, .xlt, .twin, .cxl, .rdma, .sec, .fuse, .dram, .out, .fresh] s (execI3cPrivateWrite off ws ok rd s) := by
  unfold execI3cPrivateWrite
  refine Ends.ite (fun _ => ?_) (fun _ => ?_)
  · refine Ends.next ?_
    exact Keeps.refl _ _
  · extract_lets -merge +onlyGivenNames x1
    extract_lets -merge +onlyGivenNames x2
    refine Ends.of_let x2 ?_ (fun h2 => ?_)
    · unfold x2
      refine Keeps.after (State.setChan_keeps _ _ _) (by decide) ?_
      exact Keeps.refl _ _
    · extract_lets -merge +onlyGivenNames x3
      refine Ends.of_let x3 ?_ (fun h3 => ?_)
      · unfold x3
        refine Keeps.ite (fun _ => ?_) (fun _ => ?_)
        · refine Keeps.after (State.pageSubmit_keeps _ _ _) (by decide) ?_
          refine Keeps.foldl_fst _ (fun _ _ => ?_) ?_
          · dsimp only
            refine Keeps.after (State.i3cWord_keeps _ _ _) (by decide) ?_
            exact Keeps.refl _ _
          · dsimp only
            exact h2
        · exact h2
      · refine Ends.next ?_
        refine Keeps.ite (fun _ => ?_) (fun _ => ?_)
        · exact h3
        · refine Keeps.after (State.emit_keeps _ _) (by decide) ?_
          exact h3

theorem execAzlerPacket_ends (p : Fin 4) (l : Fin 16) (ws : List Word) (ok : Bool) (s : State) :
    Ends [.regs, .csr, .evt, .ecc, .tally, .sched, .nv, .evr, .wdg, .flash, .psq, .chans, .med, .bench, .xlt, .twin, .cxl, .rdma, .sec, .fuse, .dram, .out, .fresh] s (execAzlerPacket p l ws ok s) := by
  unfold execAzlerPacket
  refine Ends.mailbox (by decide) (fun _ => ?_)
  split
  · dsimp only
    exact Keeps.refl _ _
  · dsimp only
    refine Keeps.after (State.arriveWords_keeps _ _ _ _ _) (by decide) ?_
    exact Keeps.refl _ _

theorem execRdmaSend_ends (n : Fin 65536) (psn : BitVec 24) (ws : List Word) (ce : Bool) (icrc : Bool) (ok : Bool) (s : State) :
    Ends [.regs, .csr, .evt, .ecc, .tally, .sched, .nv, .evr, .wdg, .flash, .psq, .chans, .med, .bench, .xlt, .twin, .cxl, .rdma, .sec, .fuse, .dram, .out, .fresh] s (execRdmaSend n psn ws ce icrc ok s) := by
  unfold execRdmaSend
  split
  · refine Ends.next ?_
    refine Keeps.of_fst (by assumption) ?_
    refine Keeps.after (State.packetIn_keeps _ _ _ _ _) (by decide) ?_
    exact Keeps.refl _ _
  · extract_lets -merge +onlyGivenNames x1
    split
    · refine Ends.next ?_
      refine Keeps.after (State.nak_keeps _ _ _ _) (by decide) ?_
      refine Keeps.of_fst (by assumption) ?_
      refine Keeps.after (State.packetIn_keeps _ _ _ _ _) (by decide) ?_
      exact Keeps.refl _ _
    · split
      · refine Ends.next ?_
        refine Keeps.after (State.seqNak_keeps _ _) (by decide) ?_
        refine Keeps.of_fst (by assumption) ?_
        refine Keeps.after (State.packetIn_keeps _ _ _ _ _) (by decide) ?_
        exact Keeps.refl _ _
      · refine Ends.ite (fun _ => ?_) (fun _ => ?_)
        · refine Ends.next ?_
          refine Keeps.after (State.nak_keeps _ _ _ _) (by decide) ?_
          refine Keeps.of_fst (by assumption) ?_
          refine Keeps.after (State.packetIn_keeps _ _ _ _ _) (by decide) ?_
          exact Keeps.refl _ _
        · refine Ends.ite (fun _ => ?_) (fun _ => ?_)
          · refine Ends.next ?_
            refine Keeps.after (State.nak_keeps _ _ _ _) (by decide) ?_
            refine Keeps.after (State.setQp_keeps _ _ _) (by decide) ?_
            refine Keeps.of_fst (by assumption) ?_
            refine Keeps.after (State.packetIn_keeps _ _ _ _ _) (by decide) ?_
            exact Keeps.refl _ _
          · extract_lets -merge +onlyGivenNames x2
            refine Ends.next ?_
            refine Keeps.after (State.arriveWords_keeps _ _ _ _ _) (by decide) ?_
            refine Keeps.after (State.emit_keeps _ _) (by decide) ?_
            refine Keeps.after (State.setQp_keeps _ _ _) (by decide) ?_
            refine Keeps.of_fst (by assumption) ?_
            refine Keeps.after (State.packetIn_keeps _ _ _ _ _) (by decide) ?_
            exact Keeps.refl _ _
      · refine Ends.next ?_
        refine Keeps.after (State.emit_keeps _ _) (by decide) ?_
        refine Keeps.after (State.dup_keeps _ _ _) (by decide) ?_
        refine Keeps.of_fst (by assumption) ?_
        refine Keeps.after (State.packetIn_keeps _ _ _ _ _) (by decide) ?_
        exact Keeps.refl _ _

theorem execRdmaPeerAck_ends (n : Fin 65536) (psn : BitVec 24) (s : State) :
    Ends [.regs, .csr, .evt, .ecc, .tally, .sched, .nv, .evr, .wdg, .flash, .psq, .chans, .med, .bench, .xlt, .twin, .cxl, .rdma, .sec, .fuse, .dram, .out, .fresh] s (execRdmaPeerAck n psn s) := by
  unfold execRdmaPeerAck
  extract_lets -merge +onlyGivenNames x1
  refine Ends.ite (fun _ => ?_) (fun _ => ?_)
  · refine Ends.next ?_
    exact Keeps.refl _ _
  · split
    · extract_lets -merge +onlyGivenNames x2
      extract_lets -merge +onlyGivenNames x3
      refine Ends.of_let x3 ?_ (fun h3 => ?_)
      · unfold x3
        refine Keeps.after (State.setChan_keeps _ _ _) (by decide) ?_
        refine Keeps.after (State.setQp_keeps _ _ _) (by decide) ?_
        exact Keeps.refl _ _
      · refine Ends.next ?_
        refine Keeps.after (State.catchUp_keeps _ _) (by decide) ?_
        exact h3
    · extract_lets -merge +onlyGivenNames x2
      refine Ends.of_let x2 ?_ (fun h2 => ?_)
      · unfold x2
        refine Keeps.after (State.setQp_keeps _ _ _) (by decide) ?_
        exact Keeps.refl _ _
      · refine Ends.next ?_
        refine Keeps.after (State.settleRdma_keeps _) (by decide) ?_
        refine Keeps.after (State.flightEnd_keeps _ _ _) (by decide) ?_
        exact h2

theorem execPendingCommandComplete_ends (c : Fin 64) (tag : BitVec 16) (ok : Bool) (s : State) :
    Ends [.regs, .csr, .evt, .ecc, .tally, .sched, .nv, .evr, .wdg, .flash, .psq, .chans, .med, .bench, .xlt, .twin, .cxl, .rdma, .sec, .fuse, .dram, .out, .fresh] s (execPendingCommandComplete c tag ok s) := by
  unfold execPendingCommandComplete
  refine Ends.next ?_
  refine Keeps.ite (fun _ => ?_) (fun _ => ?_)
  · refine Keeps.after (State.pendingDone_keeps _ _ _ _) (by decide) ?_
    exact Keeps.refl _ _
  · exact Keeps.refl _ _

/-! ### AzSession -/

theorem State.sessionsFree_keeps (s : State) :
    Keeps [.regs, .evt, .sched, .nv, .evr, .chans, .xlt, .cxl, .rdma, .out, .fresh] s (State.sessionsFree s) := by
  unfold State.sessionsFree
  refine Keeps.foldl _ (fun _ _ => ?_) ?_
  · split
    · refine Keeps.ite (fun _ => ?_) (fun _ => ?_)
      · exact Keeps.refl _ _
      · refine Keeps.after (State.reassign_keeps _ _ _) (by decide) ?_
        exact Keeps.refl _ _
    · exact Keeps.refl _ _
  · exact Keeps.refl _ _

theorem State.sessionChannel_keeps (s : State) (sid : Word) (mask : BitVec 7) :
    Keeps [.regs, .evt, .sched, .nv, .evr, .chans, .xlt, .cxl, .rdma, .out, .fresh] s (State.sessionChannel s sid mask) := by
  unfold State.sessionChannel
  split
  · refine Keeps.after (State.deviceRecord_keeps _ _ _) (by decide) ?_
    exact Keeps.refl _ _
  · extract_lets -merge +onlyGivenNames x1
    refine Keeps.of_let x1 ?_ (fun h1 => ?_)
    · unfold x1
      refine Keeps.after (State.reassign_keeps _ _ _) (by decide) ?_
      exact Keeps.refl _ _
    · refine Keeps.after (State.setChan_keeps _ _ _) (by decide) ?_
      exact h1

theorem State.setSessions_keeps (s : State) (d : Option (Fin 4 × Fin 16)) (l : List Word) :
    Keeps [.cxl, .sec] s (State.setSessions s d l) := by
  unfold State.setSessions
  split
  · refine Keeps.after (State.setLd_keeps _ _ _ _) (by decide) ?_
    exact Keeps.refl _ _
  · refine Keeps.set_sec (by decide) rfl ?_
    exact Keeps.refl _ _

theorem State.spdmFail_keeps (s : State) (d : Option (Fin 4 × Fin 16)) :
    Keeps [.regs, .evt, .evr, .chans, .cxl, .out] s (State.spdmFail s d) := by
  unfold State.spdmFail
  extract_lets -merge +onlyGivenNames x1
  refine Keeps.of_let x1 ?_ (fun h1 => ?_)
  · unfold x1
    refine Keeps.after (State.cause_keeps _ _ _ _ _) (by decide) ?_
    exact Keeps.refl _ _
  · refine Keeps.ite (fun _ => ?_) (fun _ => ?_)
    · refine Keeps.after (State.cause_keeps _ _ _ _ _) (by decide) ?_
      exact h1
    · exact h1

theorem State.spdmAnswer_keeps (s : State) (d : Option (Fin 4 × Fin 16)) (a : SpdmAsk) :
    Keeps [.regs, .evt, .sched, .nv, .evr, .chans, .xlt, .cxl, .rdma, .sec, .out, .fresh] s (State.spdmAnswer s d a) := by
  unfold State.spdmAnswer
  split
  · refine Keeps.after (State.emit_keeps _ _) (by decide) ?_
    exact Keeps.refl _ _
  · refine Keeps.after (State.emit_keeps _ _) (by decide) ?_
    exact Keeps.refl _ _
  · refine Keeps.after (State.emit_keeps _ _) (by decide) ?_
    exact Keeps.refl _ _
  · refine Keeps.after (State.emit_keeps _ _) (by decide) ?_
    exact Keeps.refl _ _
  · refine Keeps.after (State.emit_keeps _ _) (by decide) ?_
    exact Keeps.refl _ _
  · refine Keeps.ite (fun _ => ?_) (fun _ => ?_)
    · exact Keeps.refl _ _
    · refine Keeps.ite (fun _ => ?_) (fun _ => ?_)
      · refine Keeps.after (State.emit_keeps _ _) (by decide) ?_
        refine Keeps.after (State.spdmFail_keeps _ _) (by decide) ?_
        exact Keeps.refl _ _
      · split
        · refine Keeps.after (State.emit_keeps _ _) (by decide) ?_
          refine Keeps.after (State.spdmFail_keeps _ _) (by decide) ?_
          exact Keeps.refl _ _
        · extract_lets -merge +onlyGivenNames x1
          refine Keeps.of_let x1 ?_ (fun h1 => ?_)
          · unfold x1
            refine Keeps.after (State.setSessions_keeps _ _ _) (by decide) ?_
            refine Keeps.after (State.sessionsFree_keeps _) (by decide) ?_
            exact Keeps.refl _ _
          · refine Keeps.after (State.emit_keeps _ _) (by decide) ?_
            refine Keeps.ite (fun _ => ?_) (fun _ => ?_)
            · exact h1
            · refine Keeps.after (State.sessionChannel_keeps _ _ _) (by decide) ?_
              exact h1
        · refine Keeps.after (State.emit_keeps _ _) (by decide) ?_
          refine Keeps.after (State.setSessions_keeps _ _ _) (by decide) ?_
          exact Keeps.refl _ _
  · refine Keeps.ite (fun _ => ?_) (fun _ => ?_)
    · refine Keeps.after (State.emit_keeps _ _) (by decide) ?_
      refine Keeps.after (State.sessionsFree_keeps _) (by decide) ?_
      refine Keeps.after (State.setSessions_keeps _ _ _) (by decide) ?_
      exact Keeps.refl _ _
    · exact Keeps.refl _ _

theorem execSpdmMessage_ends (d : Option (Fin 4 × Fin 16)) (a : SpdmAsk) (s : State) :
    Ends [.regs, .evt, .tally, .sched, .nv, .evr, .psq, .chans, .med, .xlt, .cxl, .rdma, .sec, .out, .fresh] s (execSpdmMessage d a s) := by
  unfold execSpdmMessage
  refine Ends.next ?_
  refine Keeps.ite (fun _ => ?_) (fun _ => ?_)
  · refine Keeps.after (State.spdmAnswer_keeps _ _ _) (by decide) ?_
    refine Keeps.after (State.wakeIdle_keeps _) (by decide) ?_
    exact Keeps.refl _ _
  · exact Keeps.refl _ _

theorem execCxlPortReset_ends (p : Fin 4) (s : State) :
    Ends [.regs, .evt, .sched, .nv, .evr, .chans, .med, .bench, .xlt, .twin, .cxl, .rdma, .sec, .out, .fresh] s (execCxlPortReset p s) := by
  unfold execCxlPortReset
  refine Ends.ite (fun _ => ?_) (fun _ => ?_)
  · refine Ends.next ?_
    refine Keeps.after (State.sessionsFree_keeps _) (by decide) ?_
    refine Keeps.after (State.settle_keeps _) (by decide) ?_
    refine Keeps.after (State.portReset_keeps _ _) (by decide) ?_
    exact Keeps.refl _ _
  · refine Ends.next ?_
    exact Keeps.refl _ _

theorem execLdReset_ends (p : Fin 4) (l : Fin 16) (s : State) :
    Ends [.regs, .evt, .sched, .nv, .evr, .chans, .med, .bench, .xlt, .twin, .cxl, .rdma, .sec, .out, .fresh] s (execLdReset p l s) := by
  unfold execLdReset
  refine Ends.ite (fun _ => ?_) (fun _ => ?_)
  · refine Ends.next ?_
    refine Keeps.after (State.sessionsFree_keeps _) (by decide) ?_
    refine Keeps.after (State.settle_keeps _) (by decide) ?_
    refine Keeps.after (State.ldReset_keeps _ _ _) (by decide) ?_
    refine Keeps.after (State.cxlForget_keeps _ _) (by decide) ?_
    exact Keeps.refl _ _
  · refine Ends.next ?_
    exact Keeps.refl _ _

theorem execSurpriseRemoval_ends (p : Fin 4) (s : State) :
    Ends [.regs, .evt, .sched, .nv, .evr, .chans, .med, .bench, .xlt, .twin, .cxl, .rdma, .sec, .out, .fresh] s (execSurpriseRemoval p s) := by
  unfold execSurpriseRemoval
  refine Ends.ite (fun _ => ?_) (fun _ => ?_)
  · extract_lets -merge +onlyGivenNames x1
    refine Ends.of_let x1 ?_ (fun h1 => ?_)
    · unfold x1
      refine Keeps.after (State.portReset_keeps _ _) (by decide) ?_
      exact Keeps.refl _ _
    · refine Ends.next ?_
      refine Keeps.after (State.sessionsFree_keeps _) (by decide) ?_
      refine Keeps.after (State.settle_keeps _) (by decide) ?_
      refine Keeps.after (State.judgeCxl_keeps _) (by decide) ?_
      refine Keeps.after (State.setCport_keeps _ _ _) (by decide) ?_
      exact h1
  · refine Ends.next ?_
    exact Keeps.refl _ _

theorem State.dcGrow_keeps (s : State) (r size : Nat) (t : State) (h : s.dcGrow r size = .inr t) :
    Keeps [.regs, .evt, .evr, .chans, .xlt, .twin, .cxl, .out] s t := by
  unfold State.dcGrow at h
  dsimp only at h
  split at h
  · cases h; exact Keeps.refl _ _
  · split at h
    · cases h
    · split at h
      · cases h
      · split at h
        · cases h
          exact Keeps.after (State.tsend_keeps _ _ _) (by decide) ((State.setTwin_keeps _ _).mono (by decide))
        · split at h
          · rename_i he; cases h; exact (State.growHere_keeps _ _ _ _ he).mono (by decide)
          · cases h

theorem execDcAdd_ends (p : Fin 4) (l : Fin 16) (e : DcExtent) (s : State) :
    Ends [.regs, .evt, .sched, .nv, .evr, .chans, .med, .bench, .xlt, .twin, .cxl, .rdma, .sec, .out, .fresh] s (execDcAdd p l e s) := by
  unfold execDcAdd
  dsimp only
  refine Ends.ite (fun _ => Ends.next (Keeps.refl _ _)) (fun _ => ?_)
  split
  · exact Ends.next (Keeps.refl _ _)
  · refine Ends.ite (fun _ => Ends.next (Keeps.refl _ _)) (fun _ => ?_)
    split
    · exact Ends.next ((State.emit_keeps _ _).mono (by decide))
    · rename_i he
      refine Ends.next ?_
      refine Keeps.after (State.settleMed_keeps _) (by decide) ?_
      refine Keeps.after (State.ldRecord_keeps _ _ _ _ _ _) (by decide) ?_
      refine Keeps.after (State.setLd_keeps _ _ _ _) (by decide) ?_
      exact (State.dcGrow_keeps _ _ _ _ he).mono (by decide)

/-! ### Start -/

theorem State.firstStart_keeps (s : State) (found : Option (BitVec 5)) (bad : List Nat) (otpOk : Bool) :
    Keeps [.regs, .evt, .tally, .sched, .nv, .evr, .flash, .psq, .chans, .med, .bench, .xlt, .twin, .cxl, .rdma, .sec, .fuse, .dram, .out, .fresh] s (State.firstStart s found bad otpOk) := by
  unfold State.firstStart
  extract_lets -merge +onlyGivenNames x1
  refine Keeps.of_let x1 ?_ (fun h1 => ?_)
  · unfold x1
    refine Keeps.after (State.configRepair_keeps _) (by decide) ?_
    refine Keeps.after (State.groupsRepair_keeps _) (by decide) ?_
    exact Keeps.refl _ _
  · extract_lets -merge +onlyGivenNames x2
    refine Keeps.of_let x2 ?_ (fun h2 => ?_)
    · unfold x2
      refine Keeps.ite (fun _ => ?_) (fun _ => ?_)
      · refine Keeps.after (State.lifeActions_keeps _) (by decide) ?_
        exact h1
      · exact h1
    · extract_lets -merge +onlyGivenNames x3
      refine Keeps.of_let x3 ?_ (fun h3 => ?_)
      · unfold x3
        refine Keeps.after (State.routesRestore_keeps _) (by decide) ?_
        refine Keeps.after (State.keysLoad_keeps _) (by decide) ?_
        refine Keeps.after (State.erasesResume_keeps _) (by decide) ?_
        exact h2
      · extract_lets -merge +onlyGivenNames x4
        extract_lets -merge +onlyGivenNames x5
        extract_lets -merge +onlyGivenNames x6
        refine Keeps.of_let x6 ?_ (fun h6 => ?_)
        · unfold x6
          refine Keeps.after (State.setDram_keeps _ _) (by decide) ?_
          refine Keeps.after (State.setXlt_keeps _ _) (by decide) ?_
          exact h3
        · extract_lets -merge +onlyGivenNames x7
          refine Keeps.of_let x7 ?_ (fun h7 => ?_)
          · unfold x7
            refine Keeps.after (State.vaultRestart_keeps _) (by decide) ?_
            refine Keeps.after (State.fillSlots_keeps _ _) (by decide) ?_
            exact h6
          · extract_lets -merge +onlyGivenNames x8
            refine Keeps.of_let x8 ?_ (fun h8 => ?_)
            · unfold x8
              refine Keeps.ite (fun _ => ?_) (fun _ => ?_)
              · exact h7
              · refine Keeps.after (State.bootCopyStart_keeps _ _ _) (by decide) ?_
                exact h7
            · extract_lets -merge +onlyGivenNames x9
              extract_lets -merge +onlyGivenNames x10
              refine Keeps.of_let x10 ?_ (fun h10 => ?_)
              · unfold x10
                refine Keeps.after (State.setTally_keeps _ _) (by decide) ?_
                exact h8
              · extract_lets -merge +onlyGivenNames x11
                refine Keeps.of_let x11 ?_ (fun h11 => ?_)
                · unfold x11
                  refine Keeps.after (State.judgeMain_keeps _) (by decide) ?_
                  refine Keeps.after (State.judgeSec_keeps _) (by decide) ?_
                  refine Keeps.after (State.groupsUp_keeps _) (by decide) ?_
                  refine Keeps.after (State.replayChoose_keeps _) (by decide) ?_
                  refine Keeps.after (State.arbFollow_keeps _ _) (by decide) ?_
                  exact h10
                · refine Keeps.ite (fun _ => ?_) (fun _ => ?_)
                  · refine Keeps.after (State.deadlineMark_keeps _) (by decide) ?_
                    exact h11
                  · exact h11

theorem State.activated_keeps (s : State) :
    Keeps [.regs, .evt, .evr, .flash, .chans, .cxl, .out] s (State.activated s) := by
  unfold State.activated
  split
  · refine Keeps.after (State.fwComplete_keeps _ _ _ _) (by decide) ?_
    refine Keeps.after (State.record_keeps _ _ _ _ _ _) (by decide) ?_
    refine Keeps.after (State.cause_keeps _ _ _ _ _) (by decide) ?_
    exact Keeps.refl _ _
  · exact Keeps.refl _ _

theorem execMingasoStart_ends (found : Option (BitVec 5)) (bad : List Nat) (otpOk : Bool) (s : State) :
    Ends [.regs, .csr, .evt, .ecc, .tally, .sched, .nv, .evr, .wdg, .flash, .psq, .chans, .med, .bench, .xlt, .twin, .cxl, .rdma, .sec, .fuse, .dram, .out, .fresh] s (execMingasoStart found bad otpOk s) := by
  unfold execMingasoStart
  refine Ends.ite (fun _ => ?_) (fun _ => ?_)
  · refine Ends.next ?_
    exact Keeps.refl _ _
  · extract_lets -merge +onlyGivenNames x1
    extract_lets -merge +onlyGivenNames x2
    refine Ends.of_let x2 ?_ (fun h2 => ?_)
    · unfold x2
      refine Keeps.after (State.wdgStart_keeps _) (by decide) ?_
      refine Keeps.after (State.setFlash_keeps _ _) (by decide) ?_
      exact Keeps.refl _ _
    · extract_lets -merge +onlyGivenNames x3
      refine Ends.of_let x3 ?_ (fun h3 => ?_)
      · unfold x3
        refine Keeps.ite (fun _ => ?_) (fun _ => ?_)
        · refine Keeps.after (State.activated_keeps _) (by decide) ?_
          exact h2
        · refine Keeps.after (State.firstStart_keeps _ _ _ _) (by decide) ?_
          exact h2
      · refine Ends.next ?_
        refine Keeps.after (State.catchUpAll_keeps _) (by decide) ?_
        refine Keeps.after (State.macResume_keeps _) (by decide) ?_
        exact h3

theorem State.idle_keeps (s : State) :
    Keeps [.regs, .csr, .evt, .ecc, .tally, .sched, .nv, .evr, .wdg, .flash, .psq, .chans, .med, .bench, .xlt, .twin, .cxl, .rdma, .sec, .fuse, .dram, .out, .fresh] s (State.idle s) := by
  unfold State.idle
  extract_lets -merge +onlyGivenNames x1
  refine Keeps.of_let x1 ?_ (fun h1 => ?_)
  · unfold x1
    refine Keeps.after (State.stormsEnd_keeps _) (by decide) ?_
    refine Keeps.after (State.clockTick_keeps _) (by decide) ?_
    exact Keeps.refl _ _
  · refine Keeps.after (State.catchUpAll_keeps _) (by decide) ?_
    refine Keeps.after (State.fireNone_keeps _ _) (by decide) ?_
    exact h1

/-! ### Yarrow -/

theorem execEmergencyRemapStart_ends (n : Nat) (s : State) :
    Ends [.regs, .evt, .sched, .nv, .evr, .chans, .med, .bench, .xlt, .twin, .cxl, .rdma, .sec, .out, .fresh] s (execEmergencyRemapStart n s) := by
  unfold execEmergencyRemapStart
  refine Ends.next ?_
  refine Keeps.ite (fun _ => ?_) (fun _ => ?_)
  · split
    · refine Keeps.ite (fun _ => ?_) (fun _ => ?_)
      · refine Keeps.after (State.settleMed_keeps _) (by decide) ?_
        refine Keeps.after (State.unqueue_keeps _ _) (by decide) ?_
        exact Keeps.refl _ _
      · refine Keeps.after (State.settleMed_keeps _) (by decide) ?_
        refine Keeps.getD ?_ ?_
        · refine KeepsO.after (State.startWork_keeps _ _) (by decide) ?_
          exact Keeps.refl _ _
        · exact Keeps.refl _ _
    · exact Keeps.refl _ _
  · exact Keeps.refl _ _

theorem execMoveCommit_ends (n : Nat) (s : State) :
    Ends [.regs, .evt, .sched, .nv, .evr, .chans, .med, .bench, .xlt, .twin, .cxl, .rdma, .sec, .out, .fresh] s (execMoveCommit n s) := by
  unfold execMoveCommit
  refine Ends.next ?_
  refine Keeps.ite (fun _ => ?_) (fun _ => ?_)
  · refine Keeps.after (State.commitWork_keeps _ _) (by decide) ?_
    exact Keeps.refl _ _
  · exact Keeps.refl _ _

theorem execYarrowWorkDispatch_ends (s : State) :
    Ends [.regs, .evt, .sched, .nv, .evr, .chans, .med, .bench, .xlt, .twin, .cxl, .rdma, .sec, .out, .fresh] s (execYarrowWorkDispatch s) := by
  unfold execYarrowWorkDispatch
  refine Ends.next ?_
  refine Keeps.ite (fun _ => ?_) (fun _ => ?_)
  · refine Keeps.after (State.settleMed_keeps _) (by decide) ?_
    refine Keeps.after (State.dispatchWork_keeps _) (by decide) ?_
    exact Keeps.refl _ _
  · exact Keeps.refl _ _

theorem execWearScan_ends (n : Fin 144) (s : State) :
    Ends [.flash, .med] s (execWearScan n s) := by
  unfold execWearScan
  refine Ends.next ?_
  refine Keeps.ite (fun _ => ?_) (fun _ => ?_)
  · extract_lets -merge +onlyGivenNames x1
    refine Keeps.foldl _ (fun _ _ => ?_) ?_
    · refine Keeps.after (State.vaultPut_keeps _ _ _) (by decide) ?_
      exact Keeps.refl _ _
    · refine Keeps.after (State.balanceScan_keeps _ _) (by decide) ?_
      refine Keeps.foldl _ (fun _ _ => ?_) ?_
      · refine Keeps.after (State.wearScan_keeps _ _) (by decide) ?_
        exact Keeps.refl _ _
      · exact Keeps.refl _ _
  · exact Keeps.refl _ _

theorem execSpareRecompute_ends (s : State) :
    Ends [.regs, .evt, .evr, .chans, .med, .xlt, .twin, .cxl, .out] s (execSpareRecompute s) := by
  unfold execSpareRecompute
  refine Ends.next ?_
  refine Keeps.ite (fun _ => ?_) (fun _ => ?_)
  · refine Keeps.after (State.spareNow_keeps _) (by decide) ?_
    refine Keeps.after (State.retireZones_keeps _) (by decide) ?_
    exact Keeps.refl _ _
  · exact Keeps.refl _ _

theorem execYoungSweep_ends (n : Nat) (s : State) :
    Ends [.regs, .evt, .sched, .nv, .evr, .chans, .med, .bench, .xlt, .twin, .cxl, .rdma, .sec, .out, .fresh] s (execYoungSweep n s) := by
  unfold execYoungSweep
  refine Ends.next ?_
  refine Keeps.ite (fun _ => ?_) (fun _ => ?_)
  · split
    extract_lets -merge +onlyGivenNames x1
    refine Keeps.of_let x1 ?_ (fun h1 => ?_)
    · unfold x1
      refine Keeps.after (State.journal_keeps _ _) (by decide) ?_
      refine Keeps.after (State.journalYoung_keeps _ _ _) (by decide) ?_
      refine Keeps.of_fst (by assumption) ?_
      refine Keeps.after (State.youngSweep_keeps _ _) (by decide) ?_
      exact Keeps.refl _ _
    · refine Keeps.after (State.settleMed_keeps _) (by decide) ?_
      refine Keeps.after (State.judgeOccupancy_keeps _) (by decide) ?_
      refine Keeps.ite (fun _ => ?_) (fun _ => ?_)
      · refine Keeps.after (State.journal_keeps _ _) (by decide) ?_
        exact h1
      · exact h1
  · exact Keeps.refl _ _

end Sys2Proof.Machine
end

