-- ==== Sys2Proof/Laws/Drain.lean ====
section
/-! SUPPORT. The laws of the drain's start: the gate closes with the trigger noted, whatever the drain then queues. -/

namespace Sys2Proof.Machine

theorem foldl_field {α β γ : Type} (f : β → γ) (g : β → α → β) (l : List α) (h : ∀ b a, f (g b a) = f b) (b : β) :
    f (l.foldl g b) = f b := by
  induction l generalizing b with
  | nil => rfl
  | cons a l ih => rw [List.foldl_cons, ih, h]

theorem Keeps.bench' {w : List Part} {s t : State} (h : Keeps w s t) (hp : Part.bench ∉ w) : t.bench = s.bench := h.bench hp

namespace State

/-- The parts of a drain that its frames and the judging of the domain leave alone. -/
def drainView (s : State) : Domain × BitVec 16 × Nat × Option Nat :=
  (s.bench.domain, s.bench.triggers, s.bench.trigger, s.bench.drain.map fun g => g.first)

theorem drainView_bench {s t : State} (h : t.bench = s.bench) : t.drainView = s.drainView := by simp only [drainView, h]

theorem judgeBench_view (s : State) : s.judgeBench.drainView = s.drainView := by
  have lv : ∀ (u : State) r k b n m v, (u.level r k b n m v).drainView = u.drainView := fun u r k b n m v =>
    drainView_bench ((State.level_keeps u r k b n m v).bench (by decide))
  unfold judgeBench
  simp only [lv]
  rfl

/-- Judging the domain changes nothing of it but whether merges are forced. -/
theorem judgeBench_bench (s : State) : ∃ f, s.judgeBench.bench = { s.bench with forced := f } := by
  have lv : ∀ (u : State) r k b n m v, (u.level r k b n m v).bench = u.bench := fun u r k b n m v =>
    (State.level_keeps u r k b n m v).bench (by decide)
  unfold judgeBench
  simp only [lv]
  exact ⟨_, rfl⟩

theorem setDesc_view (s : State) (h : Bool) (v : Descriptor) : (s.setDesc h v).drainView = s.drainView := by
  unfold setDesc
  refine (drainView_bench ((State.nvWrite_keeps _ _ _).bench (by decide))).trans ?_
  cases h <;> rfl

theorem drainTail_view (x : State) (m : Medium) (f : Drain → Drain) (hf : ∀ d, (f d).first = d.first) :
    ((x.setMed m).setBench { (x.setMed m).bench with drain := (x.setMed m).bench.drain.map f }).drainView = x.drainView := by
  have : ((x.bench.drain.map f).map fun g => g.first) = x.bench.drain.map fun g => g.first := by
    rw [Option.map_map]
    exact congrArg (fun h => Option.map h x.bench.drain) (funext hf)
  simp only [drainView, setBench, setMed, this]

/-- A drain that starts: the domain drains, the triggers stand, and the first trigger is the one of the flush before it, where one ran. -/
theorem startDrain_view (s : State) (code : Nat) (o : Bool) :
    (s.startDrain code o).drainView =
      (.draining, s.bench.triggers, s.bench.trigger, some ((s.bench.drain.map fun d => d.first).getD code)) := by
  have key : ∀ (v : Descriptor) (s1 : State), (((((s1.judgeBench.emit (.ingress false)).tsend false (.control (.draining code))).writeFloor o).setDesc
      s.targetHalf v).dropFirst fun q => q.queue).drainView = s1.drainView := by
    intro v s1
    rw [drainView_bench ((State.dropFirst_keeps _ _).bench (by decide)), setDesc_view,
      drainView_bench ((State.writeFloor_keeps _ _).bench (by decide)), drainView_bench ((State.tsend_keeps _ _ _).bench (by decide)),
      drainView_bench ((State.emit_keeps _ _).bench (by decide)), judgeBench_view]
  unfold startDrain
  dsimp only
  split
  · rw [drainTail_view, key]
    · rfl
    · intro d; rfl
  · refine (foldl_field drainView _ _ (fun b a => ?_) _).trans ?_
    · split
      · exact drainView_bench ((State.drainProgram_keeps _ _).bench (by decide))
      · rfl
    · rw [drainTail_view, key]
      · rfl
      · intro d; rfl

/-- A trigger that is not orderly, with the domain open, starts a drain with it noted (R186 to R189). -/
theorem takeTrigger_opened (s : State) (code : Nat) (hd : s.psq.down = none) (ho : s.bench.domain = .opened) (hc : orderlyCode code = false) :
    (s.takeTrigger code).drainView =
      (.draining, s.bench.triggers ||| BitVec.twoPow 16 code, (if s.bench.triggers = 0 then code else s.bench.trigger),
        some ((s.bench.drain.map fun d => d.first).getD code)) := by
  unfold takeTrigger
  simp only [hd, ho, hc, Bool.not_false, if_true]
  rw [startDrain_view]
  rfl

end State

end Sys2Proof.Machine
end

