-- ==== Sys2Proof/Laws/Tab.lean ====
section
/-! SUPPORT. The laws of sparse tables: a read after a write, and the canonical form that every operation keeps. -/

namespace Sys2Proof.Machine

variable {α : Type}

theorem Tab.get_erase (d : α) (t : Tab α) (k j : Nat) : Tab.get d (Tab.erase t k) j = if j = k then d else Tab.get d t j := by
  induction t with
  | nil => simp [Tab.erase, Tab.get]
  | cons e t ih =>
    obtain ⟨i, v⟩ := e
    by_cases hk : i = k <;> by_cases hj : i = j <;> simp_all [Tab.erase, Tab.get]

theorem Tab.get_insert (d : α) (t : Tab α) (k j : Nat) (v : α) (h : Tab.get d t k = d) (hn : ∀ e ∈ t, e.1 ≠ k) :
    Tab.get d (Tab.insert t k v) j = if j = k then v else Tab.get d t j := by
  induction t with
  | nil => by_cases hj : k = j <;> simp_all [Tab.insert, Tab.get, eq_comm]
  | cons e t ih =>
    obtain ⟨i, w⟩ := e
    have hi : i ≠ k := hn (i, w) (by simp)
    have ht : Tab.get d t k = d := by simpa [Tab.get, hi] using h
    have := ih ht (fun e he => hn e (by simp [he]))
    by_cases hlt : k < i
    · simp only [Tab.insert, hlt, if_true]
      by_cases hj : k = j
      · simp [Tab.get, hj]
      · simp [Tab.get, hj, Ne.symm hj]
    · simp only [Tab.insert, hlt, if_false]
      by_cases hj : i = j
      · subst hj; simp [Tab.get, hi]
      · simp [Tab.get, hj, this]

theorem Tab.erase_keys (t : Tab α) (k : Nat) : ∀ e ∈ Tab.erase t k, e.1 ≠ k := by
  induction t with
  | nil => simp [Tab.erase]
  | cons e t ih =>
    obtain ⟨i, v⟩ := e
    by_cases h : i = k
    · simpa [Tab.erase, h] using ih
    · simp only [Tab.erase, h, if_false, List.mem_cons]
      rintro e (rfl | he)
      · exact h
      · exact ih e he

/-- A read after a write: the value written at the key, what was there at every other. -/
theorem Tab.get_put [DecidableEq α] (d : α) (t : Tab α) (k j : Nat) (v : α) :
    Tab.get d (Tab.put d t k v) j = if j = k then v else Tab.get d t j := by
  unfold Tab.put
  split
  · rename_i h; rw [Tab.get_erase, h]
  · rw [Tab.get_insert _ _ _ _ _ (by simp [Tab.get_erase]) (Tab.erase_keys t k), Tab.get_erase]
    by_cases h : j = k <;> simp [h]

@[simp] theorem Tab.get_put_same [DecidableEq α] (d : α) (t : Tab α) (k : Nat) (v : α) : Tab.get d (Tab.put d t k v) k = v := by
  simp [Tab.get_put]

theorem Tab.get_erase_ne (d : α) (t : Tab α) {k j : Nat} (h : j ≠ k) : Tab.get d (Tab.erase t k) j = Tab.get d t j := by
  rw [Tab.get_erase, if_neg h]

theorem Tab.get_insert_ne (d : α) (t : Tab α) {k j : Nat} (v : α) (h : j ≠ k) : Tab.get d (Tab.insert t k v) j = Tab.get d t j := by
  induction t with
  | nil => simp [Tab.insert, Tab.get, Ne.symm h]
  | cons e t ih =>
    obtain ⟨i, w⟩ := e
    by_cases hlt : k < i
    · simp [Tab.insert, hlt, Tab.get, Ne.symm h]
    · simp [Tab.insert, hlt, Tab.get, ih]

/-- A write leaves every other key as it was, whatever default the reader takes. -/
theorem Tab.get_put_ne [DecidableEq α] (d d' : α) (t : Tab α) {k j : Nat} (v : α) (h : j ≠ k) :
    Tab.get d' (Tab.put d t k v) j = Tab.get d' t j := by
  unfold Tab.put
  split
  · exact Tab.get_erase_ne d' t h
  · rw [Tab.get_insert_ne d' _ v h, Tab.get_erase_ne d' t h]

/-! ### The canonical form -/

theorem Tab.wfFrom_mono [DecidableEq α] (d : α) (t : Tab α) {a b : Nat} (h : a ≤ b) (hb : Tab.wfFrom d b t = true) :
    Tab.wfFrom d a t = true := by
  cases t with
  | nil => rfl
  | cons e t =>
    obtain ⟨i, v⟩ := e
    simp only [Tab.wfFrom, Bool.and_eq_true, decide_eq_true_eq] at hb ⊢
    exact ⟨⟨h.trans hb.1.1, hb.1.2⟩, hb.2⟩

theorem Tab.wfFrom_erase [DecidableEq α] (d : α) (t : Tab α) (k b : Nat) (h : Tab.wfFrom d b t = true) :
    Tab.wfFrom d b (Tab.erase t k) = true := by
  induction t generalizing b with
  | nil => rfl
  | cons e t ih =>
    obtain ⟨i, v⟩ := e
    simp only [Tab.wfFrom, Bool.and_eq_true, decide_eq_true_eq] at h
    by_cases hk : i = k
    · simp only [Tab.erase, hk, if_true]
      exact ih _ (Tab.wfFrom_mono d t (by omega) h.2)
    · simp only [Tab.erase, hk, if_false, Tab.wfFrom, Bool.and_eq_true, decide_eq_true_eq]
      exact ⟨h.1, ih _ h.2⟩

theorem Tab.wfFrom_insert [DecidableEq α] (d : α) (t : Tab α) (k b : Nat) (v : α) (hv : v ≠ d) (hb : b ≤ k)
    (hn : ∀ e ∈ t, e.1 ≠ k) (h : Tab.wfFrom d b t = true) : Tab.wfFrom d b (Tab.insert t k v) = true := by
  induction t generalizing b with
  | nil => simp [Tab.insert, Tab.wfFrom, hv, hb]
  | cons e t ih =>
    obtain ⟨i, w⟩ := e
    simp only [Tab.wfFrom, Bool.and_eq_true, decide_eq_true_eq] at h
    have hi : i ≠ k := hn (i, w) (by simp)
    by_cases hlt : k < i
    · simp only [Tab.insert, hlt, if_true, Tab.wfFrom, Bool.and_eq_true, decide_eq_true_eq]
      exact ⟨⟨hb, hv⟩, ⟨by omega, h.1.2⟩, h.2⟩
    · simp only [Tab.insert, hlt, if_false, Tab.wfFrom, Bool.and_eq_true, decide_eq_true_eq]
      exact ⟨h.1, ih _ (by omega) (fun e he => hn e (by simp [he])) h.2⟩

/-- A write keeps the canonical form. -/
theorem Tab.wf_put [DecidableEq α] (d : α) (t : Tab α) (k : Nat) (v : α) (h : Tab.wf d t = true) : Tab.wf d (Tab.put d t k v) = true := by
  unfold Tab.put
  split
  · exact Tab.wfFrom_erase d t k 0 h
  · rename_i hv
    exact Tab.wfFrom_insert d _ k 0 v hv (Nat.zero_le _) (Tab.erase_keys t k) (Tab.wfFrom_erase d t k 0 h)

theorem Tab.wfFrom_filter [DecidableEq α] (d : α) (p : Nat × α → Bool) (t : Tab α) (b : Nat) (h : Tab.wfFrom d b t = true) :
    Tab.wfFrom d b (t.filter p) = true := by
  induction t generalizing b with
  | nil => rfl
  | cons e t ih =>
    obtain ⟨i, v⟩ := e
    simp only [Tab.wfFrom, Bool.and_eq_true, decide_eq_true_eq] at h
    by_cases hp : p (i, v)
    · simp only [List.filter_cons, hp, if_true, Tab.wfFrom, Bool.and_eq_true, decide_eq_true_eq]
      exact ⟨h.1, ih _ h.2⟩
    · simp only [List.filter_cons, hp]
      exact ih _ (Tab.wfFrom_mono d t (by omega) h.2)

/-- Dropping entries keeps the canonical form. -/
theorem Tab.wf_filter [DecidableEq α] (d : α) (p : Nat × α → Bool) (t : Tab α) (h : Tab.wf d t = true) :
    Tab.wf d (t.filter p) = true := Tab.wfFrom_filter d p t 0 h

/-- A key that a filter by keys lets through reads as before. -/
theorem Tab.get_filter (d : α) (t : Tab α) (p : Nat → Bool) (k : Nat) (h : p k = true) : Tab.get d (t.filter fun e => p e.1) k = Tab.get d t k := by
  induction t with
  | nil => rfl
  | cons e t ih =>
    obtain ⟨i, v⟩ := e
    by_cases hi : i = k
    · subst hi; simp [Tab.get, h]
    · by_cases hp : p i = true
      · simp only [List.filter_cons, hp, if_true, Tab.get, hi, if_false]; exact ih
      · simp only [List.filter_cons, hp, Tab.get, hi, if_false]; exact ih

end Sys2Proof.Machine
end

