-- ==== Sys2Proof/Laws/State.lean ====
section
/-! SUPPORT. The laws of registers and of the setters of the state's parts: what a field reads after a write to it, and to another. -/

namespace Sys2Proof.Machine

/-- Bit `i` of a word with a field replaced. -/
theorem getLsbD_putBits (w : Word) (hi lo v i : Nat) (hl : lo ≤ hi) (h : i < 32) :
    (putBits w hi lo v).getLsbD i = if lo ≤ i ∧ i ≤ hi then v.testBit (i - lo) else w.getLsbD i := by
  unfold putBits
  simp only [BitVec.getLsbD_or, BitVec.getLsbD_and, BitVec.getLsbD_not, BitVec.getLsbD_ofNat,
    Nat.testBit_mul_two_pow, Nat.testBit_two_pow_sub_one]
  by_cases h1 : lo ≤ i <;> by_cases h2 : i ≤ hi
  · have : i - lo < hi - lo + 1 := by omega
    simp [h, h1, h2, this]
  · have : ¬ i - lo < hi - lo + 1 := by omega
    simp [h, h1, h2, this]
  · simp [h, h1]
  · simp [h, h1]

theorem testBit_bitsOf (w : Word) (hi lo i : Nat) : (bitsOf w hi lo).testBit i = (decide (i < hi - lo + 1) && w.getLsbD (lo + i)) := by
  unfold bitsOf
  rw [Nat.testBit_mod_two_pow, Nat.testBit_div_two_pow]
  simp [BitVec.getLsbD, Nat.add_comm]

/-- A field reads what was written to it. -/
theorem bitsOf_putBits (w : Word) (hi lo v : Nat) (hl : lo ≤ hi) (hh : hi < 32) (hv : v < 2 ^ (hi - lo + 1)) :
    bitsOf (putBits w hi lo v) hi lo = v := by
  apply Nat.eq_of_testBit_eq
  intro i
  rw [testBit_bitsOf]
  by_cases h : i < hi - lo + 1
  · rw [getLsbD_putBits _ _ _ _ _ hl (by omega)]
    have : lo ≤ lo + i ∧ lo + i ≤ hi := by omega
    simp [h, this]
  · simp only [h, decide_false, Bool.false_and]
    exact (Nat.testBit_lt_two_pow (Nat.lt_of_lt_of_le hv (Nat.pow_le_pow_right (by decide) (by omega)))).symm

/-- A field reads what it did after a write to one that lies apart. -/
theorem bitsOf_putBits_apart (w : Word) (hi lo hi' lo' v : Nat) (hl : lo ≤ hi) (hh : hi' < 32) (ha : hi' < lo ∨ hi < lo') (hl' : lo' ≤ hi') :
    bitsOf (putBits w hi lo v) hi' lo' = bitsOf w hi' lo' := by
  apply Nat.eq_of_testBit_eq
  intro i
  rw [testBit_bitsOf, testBit_bitsOf]
  by_cases h : i < hi' - lo' + 1
  · rw [getLsbD_putBits _ _ _ _ _ hl (by omega)]
    have : ¬ (lo ≤ lo' + i ∧ lo' + i ≤ hi) := by omega
    simp [this]
  · simp [h]

namespace State

/-! ### Setters -/

@[simp] theorem setPsq_psq (s : State) (p : Psq) : (s.setPsq p).psq = p := rfl
@[simp] theorem setTally_tally (s : State) (t : Tally) : (s.setTally t).tally = t := rfl
@[simp] theorem setFlash_flash (s : State) (f : Flash) : (s.setFlash f).flash = f := rfl
@[simp] theorem setWdg_wdg (s : State) (w : Wdg) : (s.setWdg w).wdg = w := rfl
@[simp] theorem setEvr_evr (s : State) (e : Evr) : (s.setEvr e).evr = e := rfl
@[simp] theorem emit_out (s : State) (o : Out) : (s.emit o).out = o :: s.out := rfl
@[simp] theorem draw_fresh (s : State) : s.draw.fresh = s.fresh + 1 := rfl
@[simp] theorem setReg_regs (s : State) (r : Reg) (k : Nat) (w : Word) : (s.setReg r k w).regs = Tab.put r.resetWord s.regs (r.at k) w := rfl

@[simp] theorem chan_setChan (s : State) (c : Nat) (v : Chan) : (s.setChan c v).chan c = v := by simp [chan, setChan]

theorem chan_setChan_ne (s : State) {c d : Nat} (v : Chan) (h : d ≠ c) : (s.setChan c v).chan d = s.chan d := by
  simp [chan, setChan, Tab.get_put_ne _ _ _ _ h]

/-! ### Registers -/

@[simp] theorem reg_setReg (s : State) (r : Reg) (k : Nat) (w : Word) : (s.setReg r k w).reg r k = w := by simp [reg, setReg]

theorem reg_setReg_ne (s : State) {r q : Reg} {k j : Nat} (w : Word) (h : q.at j ≠ r.at k) : (s.setReg r k w).reg q j = s.reg q j :=
  Tab.get_put_ne _ _ _ _ h

@[simp] theorem reg_setFld (s : State) (r : Reg) (k hi lo v : Nat) : (s.setFld r k hi lo v).reg r k = putBits (s.reg r k) hi lo v := by
  simp [setFld]

theorem reg_setFld_ne (s : State) {r q : Reg} {k j : Nat} (hi lo v : Nat) (h : q.at j ≠ r.at k) :
    (s.setFld r k hi lo v).reg q j = s.reg q j := reg_setReg_ne s _ h

theorem fld_setFld (s : State) (r : Reg) (k hi lo v : Nat) (hl : lo ≤ hi) (hh : hi < 32) (hv : v < 2 ^ (hi - lo + 1)) :
    (s.setFld r k hi lo v).fld r k hi lo = v := by
  simp [fld, bitsOf_putBits _ _ _ _ hl hh hv]

theorem fld_setFld_apart (s : State) (r : Reg) (k : Nat) {hi lo hi' lo' : Nat} (v : Nat) (hl : lo ≤ hi) (hh : hi' < 32)
    (ha : hi' < lo ∨ hi < lo') (hl' : lo' ≤ hi') : (s.setFld r k hi lo v).fld r k hi' lo' = s.fld r k hi' lo' := by
  simp [fld, bitsOf_putBits_apart _ _ _ _ _ _ hl hh ha hl']

theorem fld_setFld_ne (s : State) {r q : Reg} {k j : Nat} (hi lo v hi' lo' : Nat) (h : q.at j ≠ r.at k) :
    (s.setFld r k hi lo v).fld q j hi' lo' = s.fld q j hi' lo' := by
  simp [fld, reg_setFld_ne s hi lo v h]

theorem bit_setFld (s : State) (r : Reg) (k hi lo v b : Nat) (hl : lo ≤ hi) (hb : b < 32) :
    (s.setFld r k hi lo v).bit r k b = if lo ≤ b ∧ b ≤ hi then v.testBit (b - lo) else s.bit r k b := by
  simp [bit, getLsbD_putBits _ _ _ _ _ hl hb]

theorem bit_setBit (s : State) (r : Reg) (k b : Nat) (v : Bool) (hb : b < 32) : (s.setBit r k b v).bit r k b = v := by
  unfold setBit
  rw [bit_setFld _ _ _ _ _ _ _ le_rfl hb]
  cases v <;> simp

theorem bit_setBit_ne (s : State) (r : Reg) (k : Nat) {b c : Nat} (v : Bool) (h : c ≠ b) (hc : c < 32) :
    (s.setBit r k b v).bit r k c = s.bit r k c := by
  unfold setBit
  rw [bit_setFld _ _ _ _ _ _ _ le_rfl hc, if_neg (by omega)]

theorem bit_setBit_reg (s : State) {r q : Reg} {k j : Nat} (b c : Nat) (v : Bool) (h : q.at j ≠ r.at k) :
    (s.setBit r k b v).bit q j c = s.bit q j c := by
  simp only [bit, setBit, reg_setFld_ne s b b _ h]

theorem fld_bump (s : State) (r : Reg) (k hi lo n : Nat) (hl : lo ≤ hi) (hh : hi < 32) :
    (s.bump r k hi lo n).fld r k hi lo = min (s.fld r k hi lo + n) (2 ^ (hi - lo + 1) - 1) := by
  unfold bump
  apply fld_setFld _ _ _ _ _ _ hl hh
  have := Nat.one_le_two_pow (n := hi - lo + 1)
  omega

/-! ### Rails -/

@[simp] theorem rail_setRail (s : State) (k : Nat) (v : Rail) : (s.setRail k v).rail k = v := by
  simp [rail, setRail]

theorem rail_setRail_ne (s : State) {k j : Nat} (v : Rail) (h : j ≠ k) : (s.setRail k v).rail j = s.rail j := by
  simp [rail, setRail, Tab.get_put_ne _ _ _ _ h]

end State

end Sys2Proof.Machine
end

