-- ==== Sys2Proof/Laws/Events.lean ====
section
/-! SUPPORT. The laws of event capture: a source that rises is up and captured, and what else rises or is offered on the way takes no other
source down but the recorder's own source 430. -/

namespace Sys2Proof.Machine

/-- A source can be captured: it is one of the 512, and its domain is up (R36, R39). -/
def canRise (s : State) (n : Nat) : Prop := n < 512 ∧ (aonSource n = true ∨ s.psq.mainUp = true)

theorem twoPow_same (n : Nat) (h : n < 512) : (BitVec.twoPow 512 n).getLsbD n = true := by simp [h]

theorem State.lower_raw (s : State) (n m : Nat) (h : m ≠ n) : (s.lower n).evt.raw.getLsbD m = s.evt.raw.getLsbD m := by
  show (s.evt.raw &&& ~~~(BitVec.twoPow 512 n)).getLsbD m = _
  rw [BitVec.getLsbD_and, BitVec.getLsbD_not, BitVec.getLsbD_twoPow]
  rcases Nat.lt_or_ge m 512 with hm | hm
  · simp [hm, Ne.symm h]
  · rw [BitVec.getLsbD_of_ge s.evt.raw m hm, Bool.false_and]

@[simp] theorem State.lower_raw_same (s : State) (n : Nat) : (s.lower n).evt.raw.getLsbD n = false := by
  show (s.evt.raw &&& ~~~(BitVec.twoPow 512 n)).getLsbD n = _
  rw [BitVec.getLsbD_and, BitVec.getLsbD_not, BitVec.getLsbD_twoPow]
  rcases Nat.lt_or_ge n 512 with hm | hm
  · simp [hm]
  · rw [BitVec.getLsbD_of_ge s.evt.raw n hm, Bool.false_and]

theorem ite_prop {α : Type} {P : α → Prop} {c : Prop} [Decidable c] {a b : α} (ha : P a) (hb : P b) : P (if c then a else b) := by
  split
  · exact ha
  · exact hb

/-- A source that is not up, of a domain that is, is up after its rise. -/
theorem riseSource_raw (s : State) (n : Nat)
    (h : (decide (n ≥ 512) || !aonSource n && !s.psq.mainUp || s.evt.raw.getLsbD n) = false) :
    (riseSource s n).1.evt.raw = s.evt.raw ||| BitVec.twoPow 512 n := by
  let P : State × List EvtWork → Prop := fun x => x.1.evt.raw = s.evt.raw ||| BitVec.twoPow 512 n
  show P (riseSource s n)
  unfold riseSource
  simp only [h, Bool.false_eq_true, if_false]
  refine ite_prop (P := P) rfl (ite_prop (P := P) (ite_prop (P := P) ?_ rfl) (ite_prop (P := P) rfl rfl))
  exact ite_prop (P := fun x : State => x.evt.raw = s.evt.raw ||| BitVec.twoPow 512 n)
    (by rw [(State.msixSend_keeps _ _ _ _).evt (by decide)]) rfl

/-- What an item of event work leaves up. -/
theorem evtStep_raw (s : State) (w : EvtWork) (m : Nat) (hm : m ≠ 430) (h : s.evt.raw.getLsbD m = true) :
    (evtStep s w).1.evt.raw.getLsbD m = true := by
  have hlt : m < 512 := by
    by_contra hc
    rw [BitVec.getLsbD_of_ge _ m (by omega)] at h
    cases h
  cases w with
  | rise n =>
    show (riseSource s n).1.evt.raw.getLsbD m = true
    cases hg : (decide (n ≥ 512) || !aonSource n && !s.psq.mainUp || s.evt.raw.getLsbD n) with
    | true => simp only [riseSource, hg, if_true]; exact h
    | false => rw [riseSource_raw s n hg]; simp [h]
  | notify c n => rw [show (evtStep s (.notify c n)).1 = (notifyChan s c n).1 from rfl, (notifyChan_keeps s c n).evt (by decide)]; exact h
  | offer al code src prin det agen =>
    have hput : ∀ (u : State) (e : Entry), (admitEntry u e).1.evt = u.evt := fun u e => (admitEntry_keeps u e).evt (by decide)
    simp only [evtStep, offerEntry]
    split
    · rw [hput]; exact h
    · split
      · rw [hput]
        split
        · rw [State.lower_raw _ _ _ hm, (State.setBit_keeps _ _ _ _ _).evt (by decide)]; exact h
        · exact h
      · rw [(State.setBit_keeps _ _ _ _ _).evt (by decide), (State.bump_keeps _ _ _ _ _ _).evt (by decide)]; exact h

theorem evtRun_raw (f : Nat) (ws : List EvtWork) (s : State) (m : Nat) (hm : m ≠ 430) (h : s.evt.raw.getLsbD m = true) :
    (evtRun f ws s).evt.raw.getLsbD m = true := by
  induction f generalizing ws s with
  | zero => exact h
  | succ f ih =>
    cases ws with
    | nil => exact h
    | cons w ws => exact ih _ _ (evtStep_raw s w m hm h)

/-- A source that is up stays up when another rises. -/
theorem State.raise_keeps_raw (s : State) (n m : Nat) (hm : m ≠ 430) (h : s.evt.raw.getLsbD m = true) :
    (s.raise n).evt.raw.getLsbD m = true := evtRun_raw _ _ _ _ hm h

/-- A source that can be captured is up once raised. -/
theorem State.raise_raw (s : State) (n : Nat) (hn : n ≠ 430) (h : canRise s n) : (s.raise n).evt.raw.getLsbD n = true := by
  by_cases hr : s.evt.raw.getLsbD n = true
  · exact s.raise_keeps_raw n n hn hr
  · unfold State.raise evtFuel
    show (evtRun 599 _ _).evt.raw.getLsbD n = true
    apply evtRun_raw _ _ _ _ hn
    have c0 : (decide (n ≥ 512) || !aonSource n && !s.psq.mainUp || s.evt.raw.getLsbD n) = false := by
      have : ¬ n ≥ 512 := by have := h.1; omega
      rcases h.2 with h2 | h2 <;> simp [this, h2, hr]
    show (riseSource s n).1.evt.raw.getLsbD n = true
    rw [riseSource_raw s n c0]
    simp [h.1]

/-- Recording takes no source down but 430. -/
theorem State.record_raw (s : State) (code src : Nat) (d : Word) (p : Nat) (a : BitVec 16) (m : Nat) (hm : m ≠ 430)
    (h : s.evt.raw.getLsbD m = true) : (s.record code src d p a).evt.raw.getLsbD m = true := evtRun_raw _ _ _ _ hm h

theorem State.setBit_psq (s : State) (r : Reg) (k b : Nat) (v : Bool) : (s.setBit r k b v).psq = s.psq :=
  (State.setBit_keeps s r k b v).psq (by decide)

/-- A cause bit captured raises its source. -/
theorem State.cause_raw (s : State) (r : Reg) (k b src : Nat) (hn : src ≠ 430) (h : canRise s src) :
    (s.cause r k b src).evt.raw.getLsbD src = true := by
  apply State.raise_raw _ _ hn
  refine ⟨h.1, ?_⟩
  rw [State.setBit_psq]
  exact h.2

theorem State.cause_keeps_raw (s : State) (r : Reg) (k b src m : Nat) (hm : m ≠ 430) (h : s.evt.raw.getLsbD m = true) :
    (s.cause r k b src).evt.raw.getLsbD m = true := by
  apply State.raise_keeps_raw _ _ _ hm
  rw [(State.setBit_keeps _ _ _ _ _).evt (by decide)]
  exact h

/-- A level cause follows its condition: up when it holds. -/
theorem State.level_raw (s : State) (r : Reg) (k b src mask : Nat) (hn : src ≠ 430) (h : canRise s src) :
    (s.level r k b src mask true).evt.raw.getLsbD src = true := s.cause_raw r k b src hn h

/-! ### Pending bits -/

/-- A source that rises while the main domain is up is captured: its pending bit sets and no other changes. -/
theorem riseSource_pend (s : State) (n : Nat) (hm : s.psq.mainUp = true)
    (h : (decide (n ≥ 512) || !aonSource n && !s.psq.mainUp || s.evt.raw.getLsbD n) = false) :
    (riseSource s n).1.evt.pend = s.evt.pend ||| BitVec.twoPow 512 n := by
  let P : State × List EvtWork → Prop := fun x => x.1.evt.pend = s.evt.pend ||| BitVec.twoPow 512 n
  show P (riseSource s n)
  unfold riseSource
  simp only [h, Bool.false_eq_true, if_false]
  simp only [hm, if_true]
  refine ite_prop (P := P) rfl (ite_prop (P := P) ?_ rfl)
  exact ite_prop (P := fun x : State => x.evt.pend = s.evt.pend ||| BitVec.twoPow 512 n)
    (by rw [(State.msixSend_keeps _ _ _ _).evt (by decide)]) rfl

/-- An item of event work clears no pending bit. -/
theorem evtStep_pend (s : State) (w : EvtWork) (m : Nat) (h : s.evt.pend.getLsbD m = true) : (evtStep s w).1.evt.pend.getLsbD m = true := by
  cases w with
  | rise n =>
    show (riseSource s n).1.evt.pend.getLsbD m = true
    cases hg : (decide (n ≥ 512) || !aonSource n && !s.psq.mainUp || s.evt.raw.getLsbD n) with
    | true => simp only [riseSource, hg, if_true]; exact h
    | false =>
      cases hm : s.psq.mainUp with
      | true => rw [riseSource_pend s n hm hg, BitVec.getLsbD_or, h, Bool.true_or]
      | false =>
        let P : State × List EvtWork → Prop := fun x => x.1.evt.pend.getLsbD m = true
        show P (riseSource s n)
        unfold riseSource
        simp only [hg, Bool.false_eq_true, if_false]
        simp only [hm, Bool.false_eq_true, if_false]
        exact ite_prop (P := P) h (ite_prop (P := P) h h)
  | notify c n => rw [show (evtStep s (.notify c n)).1 = (notifyChan s c n).1 from rfl, (notifyChan_keeps s c n).evt (by decide)]; exact h
  | offer al code src prin det agen =>
    have hput : ∀ (u : State) (e : Entry), (admitEntry u e).1.evt = u.evt := fun u e => (admitEntry_keeps u e).evt (by decide)
    simp only [evtStep, offerEntry]
    split
    · rw [hput]; exact h
    · split
      · rw [hput]
        split
        · show (State.setBit _ _ _ _ _).evt.pend.getLsbD m = true
          rw [(State.setBit_keeps _ _ _ _ _).evt (by decide)]; exact h
        · exact h
      · rw [(State.setBit_keeps _ _ _ _ _).evt (by decide), (State.bump_keeps _ _ _ _ _ _).evt (by decide)]; exact h

theorem evtRun_pend (f : Nat) (ws : List EvtWork) (s : State) (m : Nat) (h : s.evt.pend.getLsbD m = true) :
    (evtRun f ws s).evt.pend.getLsbD m = true := by
  induction f generalizing ws s with
  | zero => exact h
  | succ f ih =>
    cases ws with
    | nil => exact h
    | cons w ws => exact ih _ _ (evtStep_pend s w m h)

/-- A source that was down is pending once raised, in the main domain's power. -/
theorem State.raise_pend (s : State) (n : Nat) (hn : n < 512) (hm : s.psq.mainUp = true) (hr : s.evt.raw.getLsbD n = false) :
    (s.raise n).evt.pend.getLsbD n = true := by
  unfold State.raise evtFuel
  show (evtRun 599 _ _).evt.pend.getLsbD n = true
  apply evtRun_pend
  have c0 : (decide (n ≥ 512) || !aonSource n && !s.psq.mainUp || s.evt.raw.getLsbD n) = false := by
    have : ¬ n ≥ 512 := by omega
    simp [this, hm, hr]
  show (riseSource s n).1.evt.pend.getLsbD n = true
  rw [riseSource_pend s n hm c0]
  simp [hn]

/-- A source that is up already is not captured again (R37). -/
theorem State.raise_up (s : State) (n : Nat) (hr : s.evt.raw.getLsbD n = true) : s.raise n = s := by
  unfold State.raise evtFuel
  show evtRun 599 ((riseSource s n).2 ++ []) (riseSource s n).1 = s
  have : riseSource s n = (s, []) := by
    unfold riseSource
    simp only [hr, Bool.or_true, if_true]
  rw [this]
  rfl

/-! ### Registers that event work leaves alone -/

/-- The register at an offset is none that event work writes: the recorder's counters and cause, and the mailbox causes. -/
def quiet (off : Nat) : Bool :=
  off != 0x060010 && off != 0x060014 && off != Reg.EVR_CAUSE.base && (decide (off < 0x080000) || decide (0x0C0000 ≤ off) || off % 0x1000 != 0x01C)

/-- An item of event work names one of the 64 channels. -/
def EvtWork.fits : EvtWork → Prop
  | .notify c _ => c < 64
  | _ => True

theorem quiet_ne {off : Nat} (h : quiet off = true) :
    off ≠ Reg.EVR_LOST_CNT.at 0 ∧ off ≠ Reg.EVR_SUPP_CNT.at 0 ∧ off ≠ Reg.EVR_CAUSE.at 0 ∧ ∀ c < 64, off ≠ Reg.MBX_CAUSE.at c := by
  simp only [quiet, Reg.EVR_LOST_CNT, Reg.EVR_SUPP_CNT, Reg.EVR_CAUSE, Reg.MBX_CAUSE, Reg.at, Bool.and_eq_true, Bool.or_eq_true,
    decide_eq_true_eq, bne_iff_ne] at h ⊢
  refine ⟨by omega, by omega, by omega, fun c hc => by omega⟩

variable {d : Word} {off : Nat}

theorem State.setBit_get (s : State) (r : Reg) (k b : Nat) (v : Bool) (h : off ≠ r.at k) :
    Tab.get d (s.setBit r k b v).regs off = Tab.get d s.regs off := Tab.get_put_ne _ _ _ _ h

theorem State.bump_get (s : State) (r : Reg) (k hi lo n : Nat) (h : off ≠ r.at k) :
    Tab.get d (s.bump r k hi lo n).regs off = Tab.get d s.regs off := Tab.get_put_ne _ _ _ _ h

theorem admitEntry_get (s : State) (e : Entry) (h : quiet off = true) :
    Tab.get d (admitEntry s e).1.regs off = Tab.get d s.regs off := by
  obtain ⟨h1, -, h3, -⟩ := quiet_ne h
  unfold admitEntry
  refine ite_prop (P := fun x : State × List EvtWork => Tab.get d x.1.regs off = Tab.get d s.regs off) ?_ rfl
  exact (State.setBit_get _ _ _ _ _ h3).trans (State.bump_get _ _ _ _ _ _ h1)

theorem offerEntry_get (s : State) (al : Bool) (code src prin : Nat) (det : Word) (ag : BitVec 16) (h : quiet off = true) :
    Tab.get d (offerEntry s al code src prin det ag).1.regs off = Tab.get d s.regs off := by
  obtain ⟨-, h2, h3, -⟩ := quiet_ne h
  let P : State × List EvtWork → Prop := fun x => Tab.get d x.1.regs off = Tab.get d s.regs off
  show P (offerEntry s al code src prin det ag)
  unfold offerEntry
  refine ite_prop (P := P) (admitEntry_get _ _ h) (ite_prop (P := P) ((admitEntry_get _ _ h).trans ?_) ?_)
  · exact ite_prop (P := fun x : State => Tab.get d x.regs off = Tab.get d s.regs off) (State.setBit_get _ _ _ _ _ h3) rfl
  · exact (State.setBit_get _ _ _ _ _ h3).trans (State.bump_get _ _ _ _ _ _ h2)

theorem notifyChan_get (s : State) (c src : Nat) (hc : c < 64) (h : quiet off = true) :
    Tab.get d (notifyChan s c src).1.regs off = Tab.get d s.regs off := by
  obtain ⟨-, -, -, h4⟩ := quiet_ne h
  let P : State × List EvtWork → Prop := fun x => Tab.get d x.1.regs off = Tab.get d s.regs off
  show P (notifyChan s c src)
  unfold notifyChan
  refine ite_prop (P := P) ?_ ?_
  · show Tab.get d (replyInterrupt _ _ _).regs off = _
    rw [(replyInterrupt_keeps _ _ _).regs (by decide)]; rfl
  · exact State.setBit_get _ _ _ _ _ (h4 c hc)

theorem riseSource_get (s : State) (n : Nat) : Tab.get d (riseSource s n).1.regs off = Tab.get d s.regs off := by
  rw [(riseSource_keeps s n).regs (by decide)]

theorem evtStep_get (s : State) (w : EvtWork) (hw : w.fits) (h : quiet off = true) :
    Tab.get d (evtStep s w).1.regs off = Tab.get d s.regs off := by
  cases w with
  | rise n => exact riseSource_get s n
  | notify c n => exact notifyChan_get s c n hw h
  | offer al code src prin det ag => exact offerEntry_get s al code src prin det ag h

theorem evtStep_fits (s : State) (w : EvtWork) : ∀ x ∈ (evtStep s w).2, x.fits := by
  let P : State × List EvtWork → Prop := fun p => ∀ x ∈ p.2, x.fits
  have nil : ∀ t : State, P (t, []) := fun t x hx => by cases hx
  have one : ∀ (t : State) (n : Nat), P (t, [.rise n]) := fun t n x hx => by
    rw [List.mem_singleton.mp hx]; trivial
  have adm : ∀ (t : State) (e : Entry), P (admitEntry t e) := fun t e => ite_prop (P := P) (one _ _) (nil _)
  show P (evtStep s w)
  cases w with
  | rise n =>
    refine ite_prop (P := P) (nil _) (ite_prop (P := P) (nil _) (ite_prop (P := P) (ite_prop (P := P) ?_ (nil _)) (ite_prop (P := P) ?_ (nil _))))
    · intro x hx
      rcases List.mem_append.mp hx with h | h <;> (split at h <;> [skip; cases h])
      · rw [List.mem_singleton.mp h]
        exact Nat.mod_lt _ (by decide)
      · rw [List.mem_singleton.mp h]; trivial
    · intro x hx
      rw [List.mem_singleton.mp hx]; trivial
  | notify c n => exact ite_prop (P := P) (nil _) (one _ _)
  | offer al code src prin det ag => exact ite_prop (P := P) (adm _ _) (ite_prop (P := P) (adm _ _) (one _ _))

theorem evtRun_get (f : Nat) (ws : List EvtWork) (s : State) (hw : ∀ x ∈ ws, x.fits) (h : quiet off = true) :
    Tab.get d (evtRun f ws s).regs off = Tab.get d s.regs off := by
  induction f generalizing ws s with
  | zero => rfl
  | succ f ih =>
    cases ws with
    | nil => rfl
    | cons w ws =>
      refine (ih _ _ fun x hx => ?_).trans (evtStep_get s w (hw w List.mem_cons_self) h)
      rcases List.mem_append.mp hx with hx | hx
      · exact evtStep_fits s w x hx
      · exact hw x (List.mem_cons_of_mem _ hx)

theorem State.raise_get (s : State) (n : Nat) (h : quiet off = true) : Tab.get d (s.raise n).regs off = Tab.get d s.regs off :=
  evtRun_get _ _ _ (fun x hx => by rw [List.mem_singleton.mp hx]; trivial) h

theorem State.record_get (s : State) (code src : Nat) (w : Word) (p : Nat) (a : BitVec 16) (h : quiet off = true) :
    Tab.get d (s.record code src w p a).regs off = Tab.get d s.regs off :=
  evtRun_get _ _ _ (fun x hx => by rw [List.mem_singleton.mp hx]; trivial) h

/-! ### What a register of those reads after event work -/

section

variable (s : State) (r : Reg) (k : Nat) (h : quiet (r.at k) = true)
include h

theorem State.reg_raise (n : Nat) : (s.raise n).reg r k = s.reg r k := s.raise_get n h
theorem State.reg_pulse (n : Nat) : (s.pulse n).reg r k = s.reg r k := s.raise_get n h
theorem State.reg_record (c n : Nat) (w : Word) (p : Nat) (a : BitVec 16) : (s.record c n w p a).reg r k = s.reg r k := s.record_get c n w p a h
theorem State.reg_cause (q : Reg) (j b n : Nat) : (s.cause q j b n).reg r k = (s.setBit q j b true).reg r k := State.reg_raise _ r k h n
theorem State.fld_raise (n hi lo : Nat) : (s.raise n).fld r k hi lo = s.fld r k hi lo := by simp only [State.fld, State.reg_raise s r k h]
theorem State.bit_raise (n b : Nat) : (s.raise n).bit r k b = s.bit r k b := by simp only [State.bit, State.reg_raise s r k h]
theorem State.fld_pulse (n hi lo : Nat) : (s.pulse n).fld r k hi lo = s.fld r k hi lo := by simp only [State.fld, State.reg_pulse s r k h]
theorem State.bit_pulse (n b : Nat) : (s.pulse n).bit r k b = s.bit r k b := by simp only [State.bit, State.reg_pulse s r k h]
theorem State.fld_record (c n : Nat) (w : Word) (p : Nat) (a : BitVec 16) (hi lo : Nat) :
    (s.record c n w p a).fld r k hi lo = s.fld r k hi lo := by simp only [State.fld, State.reg_record s r k h]
theorem State.bit_record (c n : Nat) (w : Word) (p : Nat) (a : BitVec 16) (b : Nat) :
    (s.record c n w p a).bit r k b = s.bit r k b := by simp only [State.bit, State.reg_record s r k h]
theorem State.fld_cause (q : Reg) (j b n hi lo : Nat) : (s.cause q j b n).fld r k hi lo = (s.setBit q j b true).fld r k hi lo :=
  State.fld_raise _ r k h n hi lo
theorem State.bit_cause (q : Reg) (j b n c : Nat) : (s.cause q j b n).bit r k c = (s.setBit q j b true).bit r k c :=
  State.bit_raise _ r k h n c

/-- A cause captured shows in its register. -/
theorem State.bit_cause_same (b n : Nat) (hb : b < 32) : (s.cause r k b n).bit r k b = true := by
  rw [State.bit_cause s r k h, State.bit_setBit _ _ _ _ _ hb]

theorem State.bit_level_same (b n m : Nat) (hb : b < 32) (v : Bool) : (s.level r k b n m v).bit r k b = v := by
  unfold State.level
  cases v with
  | true => rw [if_pos rfl, State.bit_raise _ r k h, State.bit_setBit _ _ _ _ _ hb]
  | false =>
    rw [if_neg (by decide)]
    refine ite_prop (P := fun t : State => t.bit r k b = false) ?_ ?_ <;> exact State.bit_setBit _ _ _ _ _ hb

/-- A cause of another register leaves this one alone. -/
theorem State.reg_cause_ne (q : Reg) (j b n : Nat) (hq : r.at k ≠ q.at j) : (s.cause q j b n).reg r k = s.reg r k := by
  rw [State.reg_cause s r k h]
  exact State.reg_setFld_ne s b b _ hq

theorem State.fld_cause_ne (q : Reg) (j b n hi lo : Nat) (hq : r.at k ≠ q.at j) : (s.cause q j b n).fld r k hi lo = s.fld r k hi lo := by
  simp only [State.fld, State.reg_cause_ne s r k h q j b n hq]

theorem State.bit_cause_ne (q : Reg) (j b n c : Nat) (hq : r.at k ≠ q.at j) : (s.cause q j b n).bit r k c = s.bit r k c := by
  simp only [State.bit, State.reg_cause_ne s r k h q j b n hq]

/-- A cause leaves the other bits of its register alone. -/
theorem State.bit_cause_apart (b n c : Nat) (hc : c < 32) (hb : c ≠ b) : (s.cause r k b n).bit r k c = s.bit r k c := by
  rw [State.bit_cause s r k h, State.bit_setBit_ne _ _ _ _ hb hc]

end

end Sys2Proof.Machine
end

