-- ==== Sys2Proof/Laws/Answers.lean ====
section
/-! SUPPORT. How a claim that a command answers is proved: from the state it answers, or from a stronger claim. -/

namespace Sys2Proof

open Machine

theorem Answers.of {i : Instr} {s t : State} {P : State → Prop} (e : exec i s = .next t) (h : P t) : Answers i s P := ⟨t, e, h⟩

theorem Answers.mono {i : Instr} {s : State} {P Q : State → Prop} (h : Answers i s P) (hq : ∀ t, P t → Q t) : Answers i s Q :=
  let ⟨t, e, p⟩ := h
  ⟨t, e, hq t p⟩

theorem Answers.and {i : Instr} {s : State} {P Q : State → Prop} (h : Answers i s P) (k : Answers i s Q) : Answers i s fun t => P t ∧ Q t := by
  obtain ⟨t, e, p⟩ := h
  obtain ⟨u, f, q⟩ := k
  rw [e] at f
  cases f
  exact ⟨t, e, p, q⟩

/-- A mailbox command of an LD that exists answers its return code and output (R286). -/
theorem mailbox_answers {p : Fin 4} {l : Fin 16} {s w : State} {k : State → State × Nat × List Nat} (h1 : s.psq.mainUp = true)
    (h2 : s.ldThere p l = true) (h3 : w = s.wakeIdle) {u : State} {c : Nat} {d : List Nat} (e : k w = (u, c, d)) :
    mailbox p l s k = .next (u.emit (.mailbox p l c d)) := by
  unfold mailbox
  rw [if_pos (by simp [h1, h2])]
  rw [← h3, e]

end Sys2Proof
end

