-- ==== Sys2Proof/Laws/Azler.lean ====
section
/-! SUPPORT. What taking and answering an Azler packet does, said once: a packet that nothing keeps from being carried out is answered with what
its command gives, and nothing else of the channels changes. -/

namespace Sys2Proof

open Machine

theorem Machine.Chan.repliedFrom.refl (h : Chan) : h.repliedFrom h := rfl

theorem Machine.Chan.repliedFrom.trans {h k l : Chan} (a : h.repliedFrom k) (b : k.repliedFrom l) : h.repliedFrom l := by
  unfold Chan.repliedFrom at *
  rw [a] at b
  exact b

namespace Machine.State

theorem replied_setChan (s : State) (c : Nat) (v : Chan) (h : (s.chan c).repliedFrom v) (d : Nat) : (s.chan d).repliedFrom ((s.setChan c v).chan d) := by
  by_cases e : d = c
  · subst e; rw [chan_setChan]; exact h
  · rw [chan_setChan_ne _ _ e]; exact Chan.repliedFrom.refl _

theorem chan_of_chans {s t : State} (h : t.chans = s.chans) (c : Nat) : t.chan c = s.chan c := by unfold chan; rw [h]

theorem chan_replyInterrupt (c : Nat) (h : Chan) (s : State) (d : Nat) : (replyInterrupt c h s).chan d = s.chan d :=
  chan_of_chans ((replyInterrupt_keeps c h s).chans (by decide)) d

theorem chan_emit (s : State) (o : Out) (d : Nat) : (s.emit o).chan d = s.chan d := rfl

/-- A delivery tells only the transport: what is remembered of replies stands. -/
theorem deliver_chan (s : State) (c : Fin 64) (via : Transport) (ws : List Word) (d : Nat) :
    (s.chan d).repliedFrom ((s.deliver c via ws).chan d) ∧ ((s.deliver c via ws).chan d).last = (s.chan d).last ∧
      ((s.deliver c via ws).chan d).ops = (s.chan d).ops := by
  have key (v : Chan) (hv : (s.chan c).repliedFrom v) (hl : v.last = (s.chan c).last) (ho : v.ops = (s.chan c).ops) :
      (s.chan d).repliedFrom ((s.setChan c v).chan d) ∧ ((s.setChan c v).chan d).last = (s.chan d).last ∧ ((s.setChan c v).chan d).ops = (s.chan d).ops := by
    refine ⟨replied_setChan s c v hv d, ?_⟩
    by_cases e : d = c.val
    · subst e; rw [chan_setChan]; exact ⟨hl, ho⟩
    · rw [chan_setChan_ne _ _ e]; exact ⟨rfl, rfl⟩
  cases via with
  | page =>
    simp only [deliver]
    split
    · rw [chan_replyInterrupt]; exact key _ rfl rfl rfl
    · exact key _ rfl rfl rfl
  | legacy => simp only [deliver]; rw [chan_replyInterrupt]; exact key _ rfl rfl rfl
  | rdmaQp => simp only [deliver]; rw [chan_emit]; exact key _ rfl rfl rfl
  | mailbox =>
    simp only [deliver]
    split <;> exact ⟨Chan.repliedFrom.refl _, rfl, rfl⟩
  | mctp =>
    simp only [deliver]
    split <;> exact ⟨Chan.repliedFrom.refl _, rfl, rfl⟩

/-- An answer with nothing after it. -/
theorem answer_answered (r : AzReq) (op : Nat) (a : Answer) (h : a.after = id) : a.state.Answered (answer r op a) r a.status a.words := by
  refine ⟨answer_keeps (List.Subset.refl _) (Keeps.refl _ _) (by rw [h]; exact fun _ => Keeps.refl _ _), fun c => ?_, ?_⟩
  all_goals
    unfold answer
    rw [h]
    simp only [id_eq]
  · generalize hw : replyWords a.status false r.tag r.seq a.words = ws
    have h1 : (a.state.chan c).repliedFrom ((a.state.keepLast r ws).chan c) := replied_setChan _ _ _ (by rfl) c
    refine h1.trans ?_
    split
    · split
      · refine replied_setChan _ _ _ ?_ c; unfold Chan.repliedFrom; rfl
      · refine replied_setChan _ _ _ ?_ c; unfold Chan.repliedFrom; rfl
    · refine Chan.repliedFrom.trans ?_ (deliver_chan _ _ _ _ c).1
      split
      · refine replied_setChan _ _ _ ?_ c; unfold Chan.repliedFrom; rfl
      · refine replied_setChan _ _ _ ?_ c; unfold Chan.repliedFrom; rfl
  · generalize hw : replyWords a.status false r.tag r.seq a.words = ws
    have h1 : ((a.state.keepLast r ws).chan r.chan).last.find? (fun l => l.via == r.via) =
        some { via := r.via, seq := r.seq, tag := r.tag, reply := ws } := by
      unfold keepLast
      simp
    have h2 (v : Chan) (hv : v.last = ((a.state.keepLast r ws).chan r.chan).last) :
        (((a.state.keepLast r ws).setChan r.chan v).chan r.chan).last.find? (fun l => l.via == r.via) =
          some { via := r.via, seq := r.seq, tag := r.tag, reply := ws } := by rw [chan_setChan, hv]; exact h1
    split
    · split
      · exact h2 _ rfl
      · exact h2 _ rfl
    · rw [(deliver_chan _ _ _ _ _).2.1]
      split
      · exact h2 _ rfl
      · exact h2 _ rfl

/-- A PENDING answer leaves the command outstanding. -/
theorem answer_pending (r : AzReq) (op : Nat) (a : Answer) (h : a.after = id) (hs : a.status = .pending) (hw : a.words = []) :
    a.state.Pending (answer r op a) r op a.keep := by
  refine ⟨?_, ?_⟩
  · have := answer_answered r op a h
    rw [hs, hw] at this
    exact this
  · unfold answer
    rw [h]
    simp only [id_eq, hs, if_true]
    split
    · rw [chan_setChan]; simp [keepLast]
    · rw [(deliver_chan _ _ _ _ _).2.2, chan_setChan]; simp [keepLast]

/-- A packet that nothing keeps from being carried out is answered with what its command gives. -/
theorem Takes.azTake {s w : State} {r : AzReq} {op : Nat} (h : s.Takes w r op) {permitted : Bool} {lens : Nat → Bool} {pends : Bool}
    {body : State → Answer} (hp : permitted = true) (hl : lens r.params.length = true) (hq : pends = true → (s.chan r.chan).ops.length < 8)
    {a : Answer} (e : body w = a) (hn : r.via = .legacy → a.words.length ≤ 14) :
    s.azTake r op permitted lens pends body = answer r op a := by
  subst e
  have hws := h.state
  subst hws
  unfold State.azTake
  rw [if_neg (by simpa using h.life)]
  unfold State.take
  rw [if_neg (by simp [h.can])]
  rw [if_neg (by
    have := h.secure
    rcases h.session with k | k <;> simp [h.assigned, this, k])]
  rw [h.fresh]
  have hb : (pends && decide (8 ≤ (s.chan r.chan).ops.length)) = false := by
    cases pends with
    | false => rfl
    | true => have := hq rfl; simp; omega
  have hg : (r.via == Transport.legacy && decide (14 < r.params.length)) = false := by
    by_cases k : r.via = .legacy
    · have := h.legacy k; simp [k, this]
    · simp [k]
  have hz : ¬ (r.via = .legacy ∧ 14 < (body s.wakeIdle).words.length) := fun k => absurd (hn k.1) (by omega)
  simp only [h.served, h.recovery, hb, hp, hl, hg, h.flags, h.keep, Bool.not_true, Bool.false_eq_true, if_false, Bool.or_false,
    Bool.false_and, ne_eq, not_true, hz]

theorem Takes.okay {s w : State} {r : AzReq} {op : Nat} (h : s.Takes w r op) {permitted : Bool} {lens : Nat → Bool}
    {body : State → Answer} (hp : permitted = true) (hl : lens r.params.length = true) {u : State} {ws : List Word}
    (e : body w = u.okay ws) (hn : r.via = .legacy → ws.length ≤ 14) :
    u.Answered (s.azTake r op permitted lens false body) r .ok ws := by
  rw [h.azTake hp hl (by simp) e hn]
  exact answer_answered r op (u.okay ws) rfl

theorem Takes.later {s w : State} {r : AzReq} {op : Nat} (h : s.Takes w r op) {permitted : Bool} {lens : Nat → Bool}
    {body : State → Answer} (hp : permitted = true) (hl : lens r.params.length = true) (hq : (s.chan r.chan).ops.length < 8) {u : State}
    {ws : List Word} (e : body w = u.later ws) :
    u.Pending (s.azTake r op permitted lens true body) r op ws := by
  rw [h.azTake hp hl (fun _ => hq) e (by simp [State.later])]
  exact answer_pending r op (u.later ws) rfl rfl rfl

/-- A refused parameter. -/
theorem Takes.bad {s w : State} {r : AzReq} {op : Nat} (h : s.Takes w r op) {permitted : Bool} {lens : Nat → Bool} {pends : Bool}
    {body : State → Answer} (hp : permitted = true) (hl : lens r.params.length = true) (hq : pends = true → (s.chan r.chan).ops.length < 8)
    {u : State} {i : Nat} (e : body w = u.bad i) :
    u.Answered (s.azTake r op permitted lens pends body) r .badParam [BitVec.ofNat 32 (i + 4)] := by
  rw [h.azTake hp hl hq e (by simp [State.bad])]
  exact answer_answered r op (u.bad i) rfl

/-- A refused command. -/
theorem Takes.refuse {s w : State} {r : AzReq} {op : Nat} (h : s.Takes w r op) {permitted : Bool} {lens : Nat → Bool} {pends : Bool}
    {body : State → Answer} (hp : permitted = true) (hl : lens r.params.length = true) (hq : pends = true → (s.chan r.chan).ops.length < 8)
    {u : State} {st : Status} (e : body w = u.refuse st) :
    u.Answered (s.azTake r op permitted lens pends body) r st [] := by
  rw [h.azTake hp hl hq e (by simp [State.refuse])]
  exact answer_answered r op (u.refuse st) rfl

/-- The same with something that happens once the reply has gone. -/
theorem Takes.after {s w : State} {r : AzReq} {op : Nat} (h : s.Takes w r op) {permitted : Bool} {lens : Nat → Bool} {pends : Bool}
    {body : State → Answer} (hp : permitted = true) (hl : lens r.params.length = true) (hq : pends = true → (s.chan r.chan).ops.length < 8)
    {a : Answer} {f : State → State} (e : body w = { a with after := f }) (hf : a.after = id) (hn : r.via = .legacy → a.words.length ≤ 14) :
    s.azTake r op permitted lens pends body = f (answer r op a) := by
  rw [h.azTake hp hl hq e hn]
  unfold answer
  rw [hf]
  rfl

theorem Takes.okayThen {s w : State} {r : AzReq} {op : Nat} (h : s.Takes w r op) {permitted : Bool} {lens : Nat → Bool}
    {body : State → Answer} (hp : permitted = true) (hl : lens r.params.length = true) {u : State} {f : State → State}
    (e : body w = { u.okay with after := f }) :
    ∃ v, u.Answered v r .ok [] ∧ s.azTake r op permitted lens false body = f v :=
  ⟨_, answer_answered r op (u.okay) rfl, h.after hp hl (by simp) e rfl (by simp [State.okay])⟩

theorem Takes.laterThen {s w : State} {r : AzReq} {op : Nat} (h : s.Takes w r op) {permitted : Bool} {lens : Nat → Bool}
    {body : State → Answer} (hp : permitted = true) (hl : lens r.params.length = true) (hq : (s.chan r.chan).ops.length < 8) {u : State}
    {f : State → State} (e : body w = { u.later with after := f }) :
    ∃ v, u.Pending v r op [] ∧ s.azTake r op permitted lens true body = f v :=
  ⟨_, answer_pending r op (u.later) rfl rfl rfl, h.after hp hl (fun _ => hq) e rfl (by simp [State.later])⟩

theorem heldRun_one (s : State) (c : Fin 64) (p : HeldPacket) (hc : s.canTake c = true) (hh : (s.chan c).held = [p]) :
    s.heldRun c 1 = (s.setChan c { s.chan c with held := [] }).runHeldPacket c p := by
  unfold heldRun
  dsimp only
  rw [if_neg (by simp [hc]), hh]
  rfl

/-- A packet that arrives when nothing waits and Mingaso can take it is taken, at a state in which no channel differs. -/
theorem arrive_ok (s : State) (c : Fin 64) (p : HeldPacket) (hv : s.psq.vaon = true) (hh : (s.chan c).held = []) (hc : s.canTake c = true) :
    ∃ u : State, Keeps [.chans] s u ∧ (∀ d, u.chan d = s.chan d) ∧ s.arrive c p = u.runHeldPacket c p := by
  have hk (v : Chan) (hw : v.waiting = (s.chan c).waiting) : (s.setChan c v).canTake c = true := by
    unfold canTake at hc ⊢
    rw [chan_setChan, hw]
    exact hc
  have e1 : ((s.setChan c { s.chan c with held := [p] }).chan c).held = [p] := by rw [chan_setChan]
  refine ⟨(s.setChan c { s.chan c with held := [p] }).setChan c { (s.setChan c { s.chan c with held := [p] }).chan c with held := [] }, ?_, ?_, ?_⟩
  · exact Keeps.after (State.setChan_keeps _ _ _) (by decide) (State.setChan_keeps _ _ _)
  · intro d
    by_cases e : d = c.val
    · subst e
      rw [chan_setChan, chan_setChan, ← hh]
    · rw [chan_setChan_ne _ _ e, chan_setChan_ne _ _ e]
  · unfold arrive
    rw [if_neg (by simp [hv]), hh]
    unfold catchUp
    rw [List.nil_append, e1]
    exact heldRun_one _ c p (hk _ rfl) e1

/-- A packet that arrives while Mingaso cannot take it waits. -/
theorem arrive_held (s : State) (c : Fin 64) (p : HeldPacket) (hv : s.psq.vaon = true) (hc : s.canTake c = false) :
    s.arrive c p = s.setChan c { s.chan c with held := (s.chan c).held ++ [p] } := by
  have hk (v : Chan) (hw : v.waiting = (s.chan c).waiting) : (s.setChan c v).canTake c = false := by
    unfold canTake at hc ⊢
    rw [chan_setChan, hw]
    exact hc
  unfold arrive
  rw [if_neg (by simp [hv])]
  unfold catchUp
  cases h : ((s.setChan c { s.chan c with held := (s.chan c).held ++ [p] }).chan c).held.length with
  | zero => rfl
  | succ n =>
    unfold heldRun
    have := hk { s.chan c with held := (s.chan c).held ++ [p] } rfl
    rw [if_pos (by rw [this]; decide)]

/-- With nothing waiting there is nothing to catch up with. -/
theorem catchUp_idle (s : State) (c : Fin 64) (h : (s.chan c).held = []) : s.catchUp c = s := by
  unfold catchUp
  rw [h]
  rfl

end Machine.State

end Sys2Proof
end

