-- ==== Sys2Proof/Laws/Fuses.lean ====
section
/-! SUPPORT. OTP bits are only ever blown: by every operation that can touch them, from the blowing of groups up to what a packet, a page or
a start does. -/

namespace Sys2Proof.Machine.State

theorem FusesGrow.refl (s : State) : s.FusesGrow s := ⟨BitVec.and_self, Nat.le_refl _, Nat.le_refl _⟩

theorem FusesGrow.trans {s t u : State} (h : s.FusesGrow t) (k : t.FusesGrow u) : s.FusesGrow u :=
  ⟨by
    have e : s.sec.groups &&& t.sec.groups &&& u.sec.groups = s.sec.groups &&& t.sec.groups := by rw [BitVec.and_assoc, k.1]
    rwa [h.1] at e, Nat.le_trans h.2.1 k.2.1, Nat.le_trans h.2.2 k.2.2⟩

/-- What does not touch the OTP bits lets them be. -/
theorem FusesGrow.of_keeps {w : List Part} {s t : State} (h : Keeps w s t) (hp : Part.fuse ∉ w) : s.FusesGrow t := by
  have e := h.fuse hp
  injection e with e1 e2
  exact ⟨by rw [e1, BitVec.and_self], Nat.le_of_eq e2.symm, by unfold life; rw [e1]⟩

/-- An operation that does not touch the OTP bits, after one that only blows them. -/
theorem FusesGrow.after {w : List Part} {s t u : State} (k : Keeps w t u) (hp : Part.fuse ∉ w) (h : s.FusesGrow t) : s.FusesGrow u :=
  h.trans (.of_keeps k hp)

theorem FusesGrow.ite {s a b : State} {c : Prop} [Decidable c] (ha : c → s.FusesGrow a) (hb : ¬ c → s.FusesGrow b) :
    s.FusesGrow (if c then a else b) := by
  by_cases h : c
  · rw [if_pos h]; exact ha h
  · rw [if_neg h]; exact hb h

theorem FusesGrow.foldl {α : Type} {f : State → α → State} (l : List α) (hf : ∀ (u : State) a, u.FusesGrow (f u a)) (s : State) : s.FusesGrow (l.foldl f s) := by
  induction l generalizing s with
  | nil => exact .refl s
  | cons a l ih => exact (hf s a).trans (ih _)

/-- Bits that are only set stay set. -/
theorem and_foldl_or (f : BitVec 80 → Nat → BitVec 80) (hf : ∀ x k, x &&& f x k = x) (l : List Nat) (g : BitVec 80) : g &&& l.foldl f g = g := by
  induction l generalizing g with
  | nil => exact BitVec.and_self
  | cons k l ih =>
    have e : g &&& f g k &&& l.foldl f (f g k) = g &&& f g k := by rw [BitVec.and_assoc, ih]
    rwa [hf] at e

theorem and_or_cancel {n : Nat} (x y : BitVec n) : x &&& (x ||| y) = x := by
  ext i hi
  simp only [BitVec.getElem_and, BitVec.getElem_or]
  cases x[i] <;> rfl

/-! ### The life-cycle state of blown groups (R387) -/

/-- Whether group `k` counts as blown. -/
theorem blown_mono {g h : BitVec 80} (e : g &&& h = g) (k : Nat) (b : ((g >>> (16 * k)).setWidth 16 != 0#16) = true) :
    ((h >>> (16 * k)).setWidth 16 != 0#16) = true := by
  rw [bne_iff_ne] at *
  intro z
  apply b
  rw [← e, BitVec.ushiftRight_and_distrib, BitVec.setWidth_and, z, BitVec.and_zero]

/-- The state of five groups by whether each is blown. -/
theorem lifeOf_blown (g : BitVec 80) : lifeOf g =
    (fun b0 b1 b2 b3 b4 : Bool =>
      let blown (k : Nat) : Bool := match k with | 0 => b0 | 1 => b1 | 2 => b2 | 3 => b3 | _ => b4
      let n := ((List.range 5).takeWhile blown).length
      if (List.range 5).any fun k => decide (n < k) && blown k then LifeState.ended
      else match n with | 0 => .test | 1 => .maker | 2 => .fieldOpen | 3 => .fieldLocked | 4 => .returned | _ => .ended)
    ((g >>> (16 * 0)).setWidth 16 != 0#16) ((g >>> (16 * 1)).setWidth 16 != 0#16) ((g >>> (16 * 2)).setWidth 16 != 0#16)
    ((g >>> (16 * 3)).setWidth 16 != 0#16) ((g >>> (16 * 4)).setWidth 16 != 0#16) := by
  unfold lifeOf
  rw [show List.range 5 = [0, 1, 2, 3, 4] from rfl]
  rfl

/-- More blown groups never give an earlier state, unless the earlier groups were out of order. -/
theorem lifeOf_mono {g h : BitVec 80} (e : g &&& h = g) (hl : lifeOf g ≠ .ended) : (lifeOf g).code ≤ (lifeOf h).code := by
  have m0 := blown_mono e 0
  have m1 := blown_mono e 1
  have m2 := blown_mono e 2
  have m3 := blown_mono e 3
  have m4 := blown_mono e 4
  rw [lifeOf_blown] at hl ⊢
  rw [lifeOf_blown h]
  revert m0 m1 m2 m3 m4 hl
  generalize ((g >>> (16 * 0)).setWidth 16 != 0#16) = a0
  generalize ((g >>> (16 * 1)).setWidth 16 != 0#16) = a1
  generalize ((g >>> (16 * 2)).setWidth 16 != 0#16) = a2
  generalize ((g >>> (16 * 3)).setWidth 16 != 0#16) = a3
  generalize ((g >>> (16 * 4)).setWidth 16 != 0#16) = a4
  generalize ((h >>> (16 * 0)).setWidth 16 != 0#16) = b0
  generalize ((h >>> (16 * 1)).setWidth 16 != 0#16) = b1
  generalize ((h >>> (16 * 2)).setWidth 16 != 0#16) = b2
  generalize ((h >>> (16 * 3)).setWidth 16 != 0#16) = b3
  generalize ((h >>> (16 * 4)).setWidth 16 != 0#16) = b4
  revert a0 a1 a2 a3 a4 b0 b1 b2 b3 b4
  decide

/-- Completing the groups with some of their bits set changes no group's being blown. -/
theorem repair_blown (g : BitVec 80) (k : Nat) (hk : k < 5) :
    (((List.range 5).foldl (fun (a : BitVec 80) j =>
      if (g >>> (16 * j)).setWidth 16 != 0#16 && (g >>> (16 * j)).setWidth 16 != 0xFFFF#16 then a ||| (0xFFFF#80 <<< (16 * j)) else a) g >>> (16 * k)).setWidth 16
        != 0#16) = ((g >>> (16 * k)).setWidth 16 != 0#16) := by
  suffices h : ∀ l : List Nat, (∀ j ∈ l, j < 5) → ∀ a : BitVec 80, ((a >>> (16 * k)).setWidth 16 != 0#16) = ((g >>> (16 * k)).setWidth 16 != 0#16) →
      ((l.foldl (fun (a : BitVec 80) j => if (g >>> (16 * j)).setWidth 16 != 0#16 && (g >>> (16 * j)).setWidth 16 != 0xFFFF#16 then
        a ||| (0xFFFF#80 <<< (16 * j)) else a) a >>> (16 * k)).setWidth 16 != 0#16) = ((g >>> (16 * k)).setWidth 16 != 0#16) from
    h _ (by decide) g rfl
  intro l hl
  induction l with
  | nil => exact fun a h => h
  | cons j l ih =>
    intro a h
    rw [List.foldl_cons]
    refine ih (fun i hi => hl i (List.mem_cons_of_mem _ hi)) _ ?_
    split
    · rename_i c
      rw [BitVec.ushiftRight_or_distrib, BitVec.setWidth_or]
      by_cases e : j = k
      · subst e
        rw [Bool.and_eq_true] at c
        rw [c.1] at h ⊢
        rw [bne_iff_ne] at h ⊢
        intro z
        apply h
        rw [← BitVec.and_self (x := (a >>> (16 * j)).setWidth 16)]
        have := and_or_cancel ((a >>> (16 * j)).setWidth 16) ((0xFFFF#80 <<< (16 * j) >>> (16 * j)).setWidth 16)
        rw [z] at this
        rw [BitVec.and_self, ← this, BitVec.and_zero]
      · have hj : j < 5 := hl j List.mem_cons_self
        have z : ((0xFFFF#80 <<< (16 * j)) >>> (16 * k)).setWidth 16 = 0#16 := by
          clear c h ih hl
          interval_cases j <;> interval_cases k <;> first | exact absurd rfl e | decide
        rw [z, BitVec.or_zero]
        exact h
    · exact h

/-- Groups that are completed at start-up lose no bit (R387). -/
theorem groupsRepair_fuses (s : State) : s.FusesGrow s.groupsRepair := by
  refine ⟨and_foldl_or _ (fun x k => ?_) _ _, Nat.le_refl _, Nat.le_of_eq (congrArg _ ?_)⟩
  · split
    · exact and_or_cancel _ _
    · exact BitVec.and_self
  · unfold life groupsRepair
    dsimp only
    rw [lifeOf_blown, lifeOf_blown (List.foldl _ _ _)]
    rw [repair_blown _ 0 (by decide), repair_blown _ 1 (by decide), repair_blown _ 2 (by decide), repair_blown _ 3 (by decide),
      repair_blown _ 4 (by decide)]

theorem transition_ended (d : Nat) (a b : Bool) : transition 5 d a b = none := by
  unfold transition
  split <;> first | rfl | (exfalso; omega)

/-- An authorised transition is from a state other than END (Table 15-8). -/
theorem authGroups_life {s : State} {c target : Nat} {ok : Bool} {gs : List Nat} (h : s.authGroups c target ok = some gs) : s.life ≠ .ended := by
  unfold authGroups at h
  dsimp only at h
  split at h
  · rename_i k
    intro e
    simp only [Bool.and_eq_true, beq_iff_eq] at k
    have : bitsOf (s.stageWord c 0) 15 8 = 5 := by rw [k.1.1.1.1.1.1.2, e]; rfl
    rw [this, transition_ended] at h
    cases h
  · cases h

/-- The groups of an authorised transition are blown (R390). -/
theorem blow_fuses (s : State) (r : AzReq) (gs : List Nat) (target : Nat) (hl : s.life ≠ .ended) : s.FusesGrow (s.blow r gs target) := by
  unfold blow
  refine .after (judgeSec_keeps _) (by decide) (.after (lifeWrite_keeps _) (by decide) ?_)
  have e : s.sec.groups &&& gs.foldl (fun (a : BitVec 80) k => a ||| (0xFFFF#80 <<< (16 * k))) s.sec.groups = s.sec.groups :=
    and_foldl_or _ (fun x k => and_or_cancel _ _) _ _
  exact ⟨e, Nat.le_refl _, lifeOf_mono e hl⟩

/-- The anti-rollback counter only rises (R425). -/
theorem arbFollow_fuses (s : State) (ok : Bool) : s.FusesGrow (s.arbFollow ok) := by
  unfold arbFollow
  dsimp only
  split
  · exact .refl s
  · rename_i h
    simp only [Bool.or_eq_true, decide_eq_true_eq, not_or] at h
    split
    · exact ⟨BitVec.and_self, Nat.le_of_lt (Nat.lt_of_not_le h.1.2), Nat.le_refl _⟩
    · exact .of_keeps (cause_keeps _ _ _ _ _) (by decide)

theorem firstStart_fuses (s : State) (found : Option (BitVec 5)) (bad : List Nat) (ok : Bool) : s.FusesGrow (s.firstStart found bad ok) := by
  unfold firstStart
  dsimp only
  refine .trans ?_ (.ite (fun _ => .of_keeps (deadlineMark_keeps _) (by decide)) fun _ => .refl _)
  refine .after (judgeMain_keeps _) (by decide) (.after (judgeSec_keeps _) (by decide) (.after (groupsUp_keeps _) (by decide)
    (.after (replayChoose_keeps _) (by decide) (.trans ?_ (arbFollow_fuses _ _)))))
  refine .after (setTally_keeps _ _) (by decide) (.trans ?_ (.ite (fun _ => .refl _) fun _ => .of_keeps (bootCopyStart_keeps _ _ _) (by decide)))
  refine .after (vaultRestart_keeps _) (by decide) (.after (fillSlots_keeps _ _) (by decide) (.after (setDram_keeps _ _) (by decide)
    (.after (setXlt_keeps _ _) (by decide) (.after (routesRestore_keeps _) (by decide) (.after (keysLoad_keeps _) (by decide)
    (.after (erasesResume_keeps _) (by decide) ((FusesGrow.after (configRepair_keeps _) (by decide) (groupsRepair_fuses s)).trans
    (.ite (fun _ => .of_keeps (lifeActions_keeps _) (by decide)) fun _ => .refl _))))))))

/-! ### Packets -/

theorem answer_fuses {s : State} {r : AzReq} {op : Nat} {a : Answer} (h : s.FusesGrow a.state) (ha : ∀ u : State, u.FusesGrow (a.after u)) :
    s.FusesGrow (answer r op a) := by
  unfold answer
  dsimp only
  refine .trans ?_ (ha _)
  have h1 : s.FusesGrow (a.state.keepLast r (replyWords a.status false r.tag r.seq a.words)) := .after (keepLast_keeps _ _ _) (by decide) h
  exact .ite (fun _ => .ite (fun _ => .after (setChan_keeps _ _ _) (by decide) h1) fun _ => .after (keepReply_keeps _ _ _ _) (by decide) h1)
    fun _ => .after (deliver_keeps _ _ _ _) (by decide)
      (.ite (fun _ => .after (setChan_keeps _ _ _) (by decide) h1) fun _ => .after (keepReply_keeps _ _ _ _) (by decide) h1)

theorem take_fuses {s : State} {r : AzReq} {op : Nat} {permitted : Bool} {lens : Nat → Bool} {pends : Bool} {body : State → Answer}
    (hs : ∀ u : State, u.FusesGrow (body u).state) (ha : ∀ u v : State, v.FusesGrow ((body u).after v)) :
    s.FusesGrow (s.take r op permitted lens pends body) := by
  have wi : s.FusesGrow s.wakeIdle := .of_keeps (wakeIdle_keeps s) (by decide)
  have fl (st : Status) (res : List Word) : s.FusesGrow (answer r op { status := st, words := res, state := s.wakeIdle }) :=
    answer_fuses wi fun _ => .refl _
  unfold take
  dsimp only
  refine .ite (fun _ => .ite (fun _ => .of_keeps (setChan_keeps _ _ _) (by decide)) fun _ => .refl _) fun _ =>
    .ite (fun _ => .after (deliver_keeps _ _ _ _) (by decide) wi) fun _ => ?_
  split
  · exact .of_keeps (deliver_keeps _ _ _ _) (by decide)
  · exact .ite (fun _ => fl _ _) fun _ => .ite (fun _ => fl _ _) fun _ => .ite (fun _ => fl _ _) fun _ => .ite (fun _ => fl _ _) fun _ =>
      .ite (fun _ => fl _ _) fun _ => .ite (fun _ => fl _ _) fun _ => .ite (fun _ => fl _ _) fun _ => answer_fuses (wi.trans (hs _)) (ha _)

theorem azLcAdvance_fuses (s : State) (r : AzReq) : s.FusesGrow (s.azLcAdvance r) := by
  unfold azLcAdvance azTake
  refine .ite (fun _ => .refl _) fun _ => take_fuses (fun u => ?_) fun u v => ?_
  · split
    · exact .refl _
    · split
      · exact .refl _
      · split
        · exact .of_keeps (cause_keeps _ _ _ _ _) (by decide)
        · rename_i e
          exact blow_fuses _ _ _ _ (authGroups_life e)
  · split
    · exact .refl _
    · split
      · exact .refl _
      · split <;> exact .refl _

theorem azTable_fuses_1 : ∀ e ∈ ([(0x0101, State.azIdentify), (0x0102, State.azDeviceStatus), (0x0103, State.azChannelAssign), (0x0104, State.azChannelMode), (0x0105, State.azCmdStatus), (0x0106, State.azRouteSet), (0x0107, State.azRouteGet), (0x0108, State.azStageWrite), (0x0109, State.azStageRead)] : List (Nat × (State → AzReq → State))),
    ∀ (s : State) (r : AzReq), s.FusesGrow (e.2 s r) := by
  simp only [List.forall_mem_cons, List.not_mem_nil, false_imp_iff, implies_true, and_true]
  exact ⟨fun s r => .of_keeps (azIdentify_keeps s r) (by decide),
    fun s r => .of_keeps (azDeviceStatus_keeps s r) (by decide),
    fun s r => .of_keeps (azChannelAssign_keeps s r) (by decide),
    fun s r => .of_keeps (azChannelMode_keeps s r) (by decide),
    fun s r => .of_keeps (azCmdStatus_keeps s r) (by decide),
    fun s r => .of_keeps (azRouteSet_keeps s r) (by decide),
    fun s r => .of_keeps (azRouteGet_keeps s r) (by decide),
    fun s r => .of_keeps (azStageWrite_keeps s r) (by decide),
    fun s r => .of_keeps (azStageRead_keeps s r) (by decide)⟩

theorem azTable_fuses_2 : ∀ e ∈ ([(0x0201, State.azRegionCreate), (0x0202, State.azRegionDelete), (0x0203, State.azRegionResize), (0x0204, State.azRegionSetMode), (0x0205, State.azRegionSetPolicy), (0x0206, State.azRegionInfo), (0x0207, State.azRegionGrant), (0x0208, State.azRegionBind), (0x0209, State.azRegionUnbind), (0x020A, State.azRegionZero), (0x020B, State.azDcMap)] : List (Nat × (State → AzReq → State))),
    ∀ (s : State) (r : AzReq), s.FusesGrow (e.2 s r) := by
  simp only [List.forall_mem_cons, List.not_mem_nil, false_imp_iff, implies_true, and_true]
  exact ⟨fun s r => .of_keeps (azRegionCreate_keeps s r) (by decide),
    fun s r => .of_keeps (azRegionDelete_keeps s r) (by decide),
    fun s r => .of_keeps (azRegionResize_keeps s r) (by decide),
    fun s r => .of_keeps (azRegionSetMode_keeps s r) (by decide),
    fun s r => .of_keeps (azRegionSetPolicy_keeps s r) (by decide),
    fun s r => .of_keeps (azRegionInfo_keeps s r) (by decide),
    fun s r => .of_keeps (azRegionGrant_keeps s r) (by decide),
    fun s r => .of_keeps (azRegionBind_keeps s r) (by decide),
    fun s r => .of_keeps (azRegionUnbind_keeps s r) (by decide),
    fun s r => .of_keeps (azRegionZero_keeps s r) (by decide),
    fun s r => .of_keeps (azDcMap_keeps s r) (by decide)⟩

theorem azTable_fuses_3 : ∀ e ∈ ([(0x0301, State.azObjectCreate), (0x0302, State.azObjectDelete), (0x0303, State.azHintSet), (0x0304, State.azHintExtend), (0x0305, State.azObjectList)] : List (Nat × (State → AzReq → State))),
    ∀ (s : State) (r : AzReq), s.FusesGrow (e.2 s r) := by
  simp only [List.forall_mem_cons, List.not_mem_nil, false_imp_iff, implies_true, and_true]
  exact ⟨fun s r => .of_keeps (azObjectCreate_keeps s r) (by decide),
    fun s r => .of_keeps (azObjectDelete_keeps s r) (by decide),
    fun s r => .of_keeps (azHintSet_keeps s r) (by decide),
    fun s r => .of_keeps (azHintExtend_keeps s r) (by decide),
    fun s r => .of_keeps (azObjectList_keeps s r) (by decide)⟩

theorem azTable_fuses_4 : ∀ e ∈ ([(0x0401, State.azPairBind), (0x0402, State.azPairStatus), (0x0403, State.azSolo), (0x0404, State.azTakeover), (0x0405, State.azFence), (0x0406, State.azMoveHome), (0x0407, State.azDetach), (0x0408, State.azRejoin)] : List (Nat × (State → AzReq → State))),
    ∀ (s : State) (r : AzReq), s.FusesGrow (e.2 s r) := by
  simp only [List.forall_mem_cons, List.not_mem_nil, false_imp_iff, implies_true, and_true]
  exact ⟨fun s r => .of_keeps (azPairBind_keeps s r) (by decide),
    fun s r => .of_keeps (azPairStatus_keeps s r) (by decide),
    fun s r => .of_keeps (azSolo_keeps s r) (by decide),
    fun s r => .of_keeps (azTakeover_keeps s r) (by decide),
    fun s r => .of_keeps (azFence_keeps s r) (by decide),
    fun s r => .of_keeps (azMoveHome_keeps s r) (by decide),
    fun s r => .of_keeps (azDetach_keeps s r) (by decide),
    fun s r => .of_keeps (azRejoin_keeps s r) (by decide)⟩

theorem azTable_fuses_5 : ∀ e ∈ ([(0x0501, State.azRegionUnlock), (0x0502, State.azRegionLock), (0x0503, State.azCryptoErase), (0x0504, State.azTimeKeySet), (0x0505, State.azMacsecCakSet), (0x0506, State.azCertGet), (0x0601, State.azLcStatus), (0x0602, State.azLcAdvance), (0x0603, State.azDebugUnlock)] : List (Nat × (State → AzReq → State))),
    ∀ (s : State) (r : AzReq), s.FusesGrow (e.2 s r) := by
  simp only [List.forall_mem_cons, List.not_mem_nil, false_imp_iff, implies_true, and_true]
  exact ⟨fun s r => .of_keeps (azRegionUnlock_keeps s r) (by decide),
    fun s r => .of_keeps (azRegionLock_keeps s r) (by decide),
    fun s r => .of_keeps (azCryptoErase_keeps s r) (by decide),
    fun s r => .of_keeps (azTimeKeySet_keeps s r) (by decide),
    fun s r => .of_keeps (azMacsecCakSet_keeps s r) (by decide),
    fun s r => .of_keeps (azCertGet_keeps s r) (by decide),
    fun s r => .of_keeps (azLcStatus_keeps s r) (by decide),
    azLcAdvance_fuses,
    fun s r => .of_keeps (azDebugUnlock_keeps s r) (by decide)⟩

theorem azTable_fuses_6 : ∀ e ∈ ([(0x0701, State.azFwChunk), (0x0702, State.azFwCommit), (0x0703, State.azFwActivate), (0x0704, State.azFwInfo), (0x0705, fun s r => s.azVaultRead r []), (0x0801, State.azEvrRead), (0x0802, State.azEvrClear), (0x0803, State.azEvrRateSet), (0x0804, State.azEvrStatus)] : List (Nat × (State → AzReq → State))),
    ∀ (s : State) (r : AzReq), s.FusesGrow (e.2 s r) := by
  simp only [List.forall_mem_cons, List.not_mem_nil, false_imp_iff, implies_true, and_true]
  exact ⟨fun s r => .of_keeps (azFwChunk_keeps s r) (by decide),
    fun s r => .of_keeps (azFwCommit_keeps s r) (by decide),
    fun s r => .of_keeps (azFwActivate_keeps s r) (by decide),
    fun s r => .of_keeps (azFwInfo_keeps s r) (by decide),
    fun s r => .of_keeps (azVaultRead_keeps s r []) (by decide),
    fun s r => .of_keeps (azEvrRead_keeps s r) (by decide),
    fun s r => .of_keeps (azEvrClear_keeps s r) (by decide),
    fun s r => .of_keeps (azEvrRateSet_keeps s r) (by decide),
    fun s r => .of_keeps (azEvrStatus_keeps s r) (by decide)⟩

theorem azTable_fuses_7 : ∀ e ∈ ([(0x0901, State.azTallyStatus), (0x0902, State.azTimeSigned), (0x0903, State.azSchedAdd), (0x0904, State.azSchedRemove), (0x0905, State.azPowerRequest), (0x0906, State.azDrainAndHalt), (0x0907, State.azReset), (0x0908, State.azWakeMarginSet), (0x0909, State.azLockoutClear), (0x090A, State.azPowerStatus)] : List (Nat × (State → AzReq → State))),
    ∀ (s : State) (r : AzReq), s.FusesGrow (e.2 s r) := by
  simp only [List.forall_mem_cons, List.not_mem_nil, false_imp_iff, implies_true, and_true]
  exact ⟨fun s r => .of_keeps (azTallyStatus_keeps s r) (by decide),
    fun s r => .of_keeps (azTimeSigned_keeps s r) (by decide),
    fun s r => .of_keeps (azSchedAdd_keeps s r) (by decide),
    fun s r => .of_keeps (azSchedRemove_keeps s r) (by decide),
    fun s r => .of_keeps (azPowerRequest_keeps s r) (by decide),
    fun s r => .of_keeps (azDrainAndHalt_keeps s r) (by decide),
    fun s r => .of_keeps (azReset_keeps s r) (by decide),
    fun s r => .of_keeps (azWakeMarginSet_keeps s r) (by decide),
    fun s r => .of_keeps (azLockoutClear_keeps s r) (by decide),
    fun s r => .of_keeps (azPowerStatus_keeps s r) (by decide)⟩

theorem azTable_fuses_8 : ∀ e ∈ ([(0x0A01, State.azBenchViewOpen), (0x0A02, State.azBenchViewClose), (0x0A03, State.azDramScrubRange), (0x0A04, State.azRegRead), (0x0A05, State.azRegWrite)] : List (Nat × (State → AzReq → State))),
    ∀ (s : State) (r : AzReq), s.FusesGrow (e.2 s r) := by
  simp only [List.forall_mem_cons, List.not_mem_nil, false_imp_iff, implies_true, and_true]
  exact ⟨fun s r => .of_keeps (azBenchViewOpen_keeps s r) (by decide),
    fun s r => .of_keeps (azBenchViewClose_keeps s r) (by decide),
    fun s r => .of_keeps (azDramScrubRange_keeps s r) (by decide),
    fun s r => .of_keeps (azRegRead_keeps s r) (by decide),
    fun s r => .of_keeps (azRegWrite_keeps s r) (by decide)⟩

theorem azTable_fuses_9 : ∀ e ∈ ([(0x0B01, State.azGidSet), (0x0B02, State.azPdCreate), (0x0B03, State.azPdDestroy), (0x0B04, State.azPdToken), (0x0B05, State.azWindowCreate), (0x0B06, State.azWindowDestroy), (0x0B07, State.azCqCreate), (0x0B08, State.azCqDestroy), (0x0B09, State.azSqAttach), (0x0B0A, State.azSqDoorbell), (0x0B0B, State.azQpInfo)] : List (Nat × (State → AzReq → State))),
    ∀ (s : State) (r : AzReq), s.FusesGrow (e.2 s r) := by
  simp only [List.forall_mem_cons, List.not_mem_nil, false_imp_iff, implies_true, and_true]
  exact ⟨fun s r => .of_keeps (azGidSet_keeps s r) (by decide),
    fun s r => .of_keeps (azPdCreate_keeps s r) (by decide),
    fun s r => .of_keeps (azPdDestroy_keeps s r) (by decide),
    fun s r => .of_keeps (azPdToken_keeps s r) (by decide),
    fun s r => .of_keeps (azWindowCreate_keeps s r) (by decide),
    fun s r => .of_keeps (azWindowDestroy_keeps s r) (by decide),
    fun s r => .of_keeps (azCqCreate_keeps s r) (by decide),
    fun s r => .of_keeps (azCqDestroy_keeps s r) (by decide),
    fun s r => .of_keeps (azSqAttach_keeps s r) (by decide),
    fun s r => .of_keeps (azSqDoorbell_keeps s r) (by decide),
    fun s r => .of_keeps (azQpInfo_keeps s r) (by decide)⟩

theorem azTable_fuses_10 : ∀ e ∈ ([(0x0C01, State.azDieMarkFailed), (0x0C02, State.azOrphanSweep), (0x0C03, State.azTeaselPassNow), (0x0C04, State.azEyebrightSweep), (0x0C05, State.azMediumStatus), (0x0C06, State.azChannelOffline)] : List (Nat × (State → AzReq → State))),
    ∀ (s : State) (r : AzReq), s.FusesGrow (e.2 s r) := by
  simp only [List.forall_mem_cons, List.not_mem_nil, false_imp_iff, implies_true, and_true]
  exact ⟨fun s r => .of_keeps (azDieMarkFailed_keeps s r) (by decide),
    fun s r => .of_keeps (azOrphanSweep_keeps s r) (by decide),
    fun s r => .of_keeps (azTeaselPassNow_keeps s r) (by decide),
    fun s r => .of_keeps (azEyebrightSweep_keeps s r) (by decide),
    fun s r => .of_keeps (azMediumStatus_keeps s r) (by decide),
    fun s r => .of_keeps (azChannelOffline_keeps s r) (by decide)⟩

theorem azTable_fuses : ∀ e ∈ azTable, ∀ (s : State) (r : AzReq), s.FusesGrow (e.2 s r) :=
  List.forall_mem_append.2 ⟨(List.forall_mem_append.2 ⟨(List.forall_mem_append.2 ⟨(List.forall_mem_append.2 ⟨(List.forall_mem_append.2 ⟨(List.forall_mem_append.2 ⟨(List.forall_mem_append.2 ⟨(List.forall_mem_append.2 ⟨(List.forall_mem_append.2 ⟨azTable_fuses_1, azTable_fuses_2⟩), azTable_fuses_3⟩), azTable_fuses_4⟩), azTable_fuses_5⟩), azTable_fuses_6⟩), azTable_fuses_7⟩), azTable_fuses_8⟩), azTable_fuses_9⟩), azTable_fuses_10⟩

theorem azRun_fuses (s : State) (opcode : Nat) (r : AzReq) : s.FusesGrow (s.azRun opcode r) := by
  unfold azRun
  split
  · rename_i e he
    exact azTable_fuses e (List.mem_of_find?_eq_some he) s r
  · exact .of_keeps (azUnknown_keeps s r opcode) (by decide)

theorem takeWords_fuses (s : State) (c : Fin 64) (via : Transport) (ws : List Word) (ok : Bool) : s.FusesGrow (s.takeWords c via ws ok) := by
  unfold takeWords
  split
  · exact azRun_fuses _ _ _
  · exact .after (deliver_keeps _ _ _ _) (by decide) (.of_keeps (wakeIdle_keeps _) (by decide))

theorem takeNative_fuses (s : State) (c : Fin 64) (ok : Bool) : s.FusesGrow (s.takeNative c ok) := by
  unfold takeNative
  dsimp only
  exact .ite (fun _ => .after (deliver_keeps _ _ _ _) (by decide) (.after (cause_keeps _ _ _ _ _) (by decide) (.after (wakeIdle_keeps _) (by decide)
    (.of_keeps (setChan_keeps _ _ _) (by decide))))) fun _ => .trans (.of_keeps (setChan_keeps _ _ _) (by decide)) (takeWords_fuses _ _ _ _ _)

theorem takeLegacy_fuses (s : State) (c : Fin 64) (ok : Bool) : s.FusesGrow (s.takeLegacy c ok) := by
  unfold takeLegacy
  dsimp only
  exact .ite (fun _ => .after (deliver_keeps _ _ _ _) (by decide) (.after (cause_keeps _ _ _ _ _) (by decide) (.after (wakeIdle_keeps _) (by decide)
    (.of_keeps (setChan_keeps _ _ _) (by decide))))) fun _ => .trans (.of_keeps (setChan_keeps _ _ _) (by decide)) (azRun_fuses _ _ _)

theorem runHeldPacket_fuses (s : State) (c : Fin 64) (p : HeldPacket) : s.FusesGrow (s.runHeldPacket c p) := by
  unfold runHeldPacket
  exact .ite (fun _ => .ite (fun _ => takeLegacy_fuses _ _ _) fun _ => takeNative_fuses _ _ _) fun _ =>
    .ite (fun _ => takeWords_fuses _ _ _ _ _) fun _ => azRun_fuses _ _ _

theorem heldRun_fuses (s : State) (c : Fin 64) (f : Nat) : s.FusesGrow (s.heldRun c f) := by
  induction f generalizing s with
  | zero => exact .refl s
  | succ f ih =>
    unfold heldRun
    refine .ite (fun _ => .refl s) fun _ => ?_
    split
    · exact .refl s
    · exact (FusesGrow.of_keeps (setChan_keeps _ _ _) (by decide)).trans ((runHeldPacket_fuses _ _ _).trans (ih _))

theorem catchUp_fuses (s : State) (c : Fin 64) : s.FusesGrow (s.catchUp c) := heldRun_fuses s c _

theorem catchUpAll_fuses (s : State) : s.FusesGrow s.catchUpAll := FusesGrow.foldl _ (fun u c => catchUp_fuses u c) s

theorem arrive_fuses (s : State) (c : Fin 64) (p : HeldPacket) : s.FusesGrow (s.arrive c p) := by
  unfold arrive
  exact .ite (fun _ => .refl s) fun _ => .trans (.of_keeps (setChan_keeps _ _ _) (by decide)) (catchUp_fuses _ _)

theorem pageSubmit_fuses (s : State) (c : Fin 64) (ok : Bool) : s.FusesGrow (s.pageSubmit c ok) := by
  unfold pageSubmit
  exact .ite (fun _ => arrive_fuses _ _ _) fun _ => catchUp_fuses _ _

theorem pendingDone_fuses (s : State) (c : Fin 64) (tag : BitVec 16) (ok : Bool) : s.FusesGrow (s.pendingDone c tag ok) := by
  unfold pendingDone
  split
  · exact .refl s
  · rename_i o _
    have h : s.FusesGrow (s.pendingEnd c o ok).1 := .of_keeps (pendingEnd_keeps s c o ok) (by decide)
    split <;> rename_i e <;> rw [e] at h
    · exact (FusesGrow.after (complete_keeps _ _ _ _ _) (by decide) h).trans (catchUp_fuses _ _)
    · exact h

end Sys2Proof.Machine.State
end

