-- ==== Sys2Proof/Laws/Link.lean ====
section
/-! SUPPORT. What an accepted Tandem frame leaves as it was (R203, R206), and that the checks accept it. -/

namespace Sys2Proof.Machine

/-- Table of what acceptance leaves alone: everything but the port and the outputs. -/
theorem State.framed_eq (s : State) (p : Bool) (f : TFrame) :
    s.framed p f = { s with twin := (s.framed p f).twin, out := (s.framed p f).out } := by
  unfold State.framed
  dsimp only
  split <;> rfl

theorem State.framed_twin (s : State) (p : Bool) (f : TFrame) :
    (s.framed p f).twin = { s.twin with p0 := (s.framed p f).twin.p0, p1 := (s.framed p f).twin.p1 } := by
  unfold State.framed
  cases p <;> dsimp only <;> split <;> rfl

@[simp] theorem State.framed_bench (s : State) (p : Bool) (f : TFrame) : (s.framed p f).bench = s.bench := by rw [State.framed_eq]
@[simp] theorem State.framed_med (s : State) (p : Bool) (f : TFrame) : (s.framed p f).med = s.med := by rw [State.framed_eq]
@[simp] theorem State.framed_xlt (s : State) (p : Bool) (f : TFrame) : (s.framed p f).xlt = s.xlt := by rw [State.framed_eq]
@[simp] theorem State.framed_sec (s : State) (p : Bool) (f : TFrame) : (s.framed p f).sec = s.sec := by rw [State.framed_eq]
@[simp] theorem State.framed_tally (s : State) (p : Bool) (f : TFrame) : (s.framed p f).tally = s.tally := by rw [State.framed_eq]
@[simp] theorem State.framed_pair (s : State) (p : Bool) (f : TFrame) : (s.framed p f).twin.pair = s.twin.pair := by rw [State.framed_twin]
@[simp] theorem State.framed_session (s : State) (p : Bool) (f : TFrame) : (s.framed p f).twin.session = s.twin.session := by
  rw [State.framed_twin]
@[simp] theorem State.framed_assists (s : State) (p : Bool) (f : TFrame) : (s.framed p f).twin.assists = s.twin.assists := by
  rw [State.framed_twin]
@[simp] theorem State.framed_replies (s : State) (p : Bool) (f : TFrame) : (s.framed p f).twin.replies = s.twin.replies := by
  rw [State.framed_twin]
@[simp] theorem State.framed_leftByDetach (s : State) (p : Bool) (f : TFrame) : (s.framed p f).twin.leftByDetach = s.twin.leftByDetach := by
  rw [State.framed_twin]
@[simp] theorem State.framed_rt (s : State) (p : Bool) (f : TFrame) (r : Nat) : (s.framed p f).rt r = s.rt r := by
  unfold State.rt
  rw [State.framed_twin]
@[simp] theorem State.framed_region (s : State) (p : Bool) (f : TFrame) (r : Nat) : (s.framed p f).region r = s.region r := by
  unfold State.region
  rw [State.framed_xlt]
@[simp] theorem State.framed_nextRos (s : State) (p : Bool) (f : TFrame) (r : Nat) : (s.framed p f).nextRos r = s.nextRos r := by
  unfold State.nextRos
  rw [State.framed_rt, State.framed_bench]
@[simp] theorem State.framed_keySlot (s : State) (p : Bool) (f : TFrame) (r : Nat) : (s.framed p f).keySlot r = s.keySlot r := by
  unfold State.keySlot
  rw [State.framed_sec]

/-- A frame that passes every check is accepted (R206). -/
theorem State.Accepts.accept {s : State} {p : Bool} {f : TFrame} (h : s.Accepts p f) : s.acceptFrame p f = (s.framed p f, true) := by
  obtain ⟨h1, h2, h3, h4, h5, h6, h7, h8, h9, h10, h11⟩ := h
  unfold State.acceptFrame State.framed
  dsimp only
  rw [if_neg (by simp [h1, h2, h3, h4]), if_neg (by rcases h5 with h | h <;> simp [h]), if_neg (by rw [← h8]; simp [h6, h9]; exact h7),
    if_neg (by rcases h11 with h | h <;> simp [h10, h])]
  by_cases hk : 31 ≤ (s.tport p).rxOwed
  · rw [if_pos hk, if_pos (by omega), if_pos (by omega)]
  · rw [if_neg hk, if_neg (by omega), if_neg (by omega)]

theorem State.Accepts.frame {s : State} {p : Bool} {f : TFrame} (h : s.Accepts p f) (hp : s.twin.pair = .paired) (k : State → State) :
    onFrame s p f k = .next (k (s.framed p f)) := by
  unfold onFrame
  rw [h.accept]
  dsimp only
  rw [if_pos (by unfold State.paired; rw [State.framed_pair, hp]; rfl)]

theorem State.Accepts.anyFrame {s : State} {p : Bool} {f : TFrame} (h : s.Accepts p f) (k : State → State) :
    onAnyFrame s p f k = .next (k (s.framed p f)) := by
  unfold onAnyFrame
  rw [h.accept]

/-- A packet that passes every check goes on (R297). -/
theorem State.Judges.packet {s w : State} {n : Nat} {ce : Bool} (h : s.Judges w n ce) (psn : BitVec 24) : s.packetIn n psn ce true = (w, true) := by
  obtain ⟨h1, h2, h3, h4, h5, h6, h7⟩ := h
  unfold State.packetIn
  dsimp only
  rw [if_neg (by simp [h2, h3]), if_neg (by simp [h4]), if_neg (by simp), if_neg (by simp [h5, h6]), h7, h1]

/-- A request that is no WRITE, in its turn (R311). -/
theorem State.Judges.request {s w : State} {n : Nat} {ce : Bool} (h : s.Judges w n ce) (hm : (w.qp n).mgmt = none) (psn : BitVec 24)
    (go : State → State) (again : State → Option Remembered → State) : s.request n psn ce true go again = match psnKind (w.qp n) psn with
      | .next => (go w).settle
      | .ahead => w.seqNak n
      | _ => (again (w.dup n psn).1 (w.dup n psn).2).settle := by
  unfold State.request
  rw [h.packet psn]
  dsimp only
  refine (if_neg (by simp [hm])).trans ?_
  cases psnKind (w.qp n) psn <;> rfl

theorem State.psnKind_epsn (q : Qp) : psnKind q q.epsn = .next := by
  unfold State.psnKind
  simp

end Sys2Proof.Machine
end

