-- ==== Sys2Proof/Laws/Power.lean ====
section
/-! SUPPORT. The laws of the supervisor: what a change of PSTATE, a power-up, a trigger and a transition leave of the supervisor's state. -/

namespace Sys2Proof.Machine

namespace State

/-- PSTATE is what it was set to, and nothing else of the supervisor changes. -/
theorem setPState_psq (s : State) (p : PState) : (s.setPState p).psq = { s.psq with pstate := p } := by
  unfold setPState
  split
  · rename_i h; rw [← h]
  · have e : ∀ u : State, (if p = .keep ∨ p = .dormant then u.setTally { u.tally with entry := u.tally.now } else u).psq = u.psq := by
      intro u; split <;> rfl
    refine (e _).trans ?_
    rw [(State.lanesWake_keeps _).psq (by decide), (State.level_keeps _ _ _ _ _ _ _).psq (by decide), (State.cause_keeps _ _ _ _ _).psq (by decide)]
    rfl

theorem wakeIdle_active (s : State) (h : s.psq.pstate = .active) : s.wakeIdle = s := by
  unfold wakeIdle
  rw [h]
  rfl

theorem setPsq_setPsq (s : State) (p q : Psq) : (s.setPsq p).setPsq q = s.setPsq q := rfl

/-- Rails set leave the rest of the supervisor. -/
theorem railsFold_psq (l : List Nat) (f : State → Nat → State) (hf : ∀ u k, ∃ r, (f u k).psq = { u.psq with rails := r }) (s : State) :
    ∃ r, (l.foldl f s).psq = { s.psq with rails := r } := by
  induction l generalizing s with
  | nil => exact ⟨s.psq.rails, rfl⟩
  | cons k l ih =>
    obtain ⟨r, h⟩ := ih (f s k)
    obtain ⟨q, g⟩ := hf s k
    exact ⟨r, by rw [List.foldl_cons, h, g]⟩

/-- An upward transition starts with the enabled rails of its set; only the rails and the transition change. -/
theorem startUp_psq (s : State) (kind : TransKind) (set : BitVec 24) :
    ∃ r, (s.startUp kind set).psq = { s.psq with rails := r, trans := some { kind := kind, rails := set &&& s.enabledRails } } := by
  unfold startUp
  obtain ⟨r, h⟩ := railsFold_psq (List.range 24) (fun (s' : State) k =>
    let r := s'.rail k
    if (set &&& s.enabledRails).getLsbD k && r.state != .on then s'.setRail k { r with state := .wait, drops := 0 } else s') (by
      intro u k
      dsimp only
      split
      · exact ⟨_, rfl⟩
      · exact ⟨u.psq.rails, rfl⟩) s
  refine ⟨r, ?_⟩
  simp only [setPsq_psq, h]

theorem enabledRails_of (s t : State) (h : t.psq.seqAct = s.psq.seqAct) : t.enabledRails = s.enabledRails := by
  simp only [enabledRails, h]

/-- A power-up: POWERING_UP, with the enabled rails to be brought up; what is held down or waits is no more. -/
theorem powerUp_psq (s : State) : s.powerUp.psq.pstate = .poweringUp ∧
    s.powerUp.psq.trans = some { kind := .powerUp, rails := s.enabledRails } ∧ s.powerUp.psq.groupsDown = 0 ∧
    s.powerUp.psq.waiting.on = false ∧ s.powerUp.psq.attempt = 0 := by
  unfold powerUp
  have hf := railsFold_psq (List.range 24) (fun (s : State) k => (s.railHeld k false).setRail k { s.rail k with glitches := 0 }) (by
    intro u k
    refine ⟨Tab.put {} u.psq.rails k { u.rail k with glitches := 0 }, ?_⟩
    unfold setRail
    rw [setPsq_psq, (State.railHeld_keeps u k false).psq (by decide)]) (s.wakeWithdraw)
  obtain ⟨r, h⟩ := hf
  have hw : s.wakeWithdraw.psq = s.psq := (State.wakeWithdraw_keeps s).psq (by decide)
  rw [hw] at h
  generalize hu : (List.range 24).foldl (fun (s : State) k => (s.railHeld k false).setRail k { s.rail k with glitches := 0 }) s.wakeWithdraw = u at h
  simp only [hu]
  generalize hv : (u.setPsq { u.psq with
    waiting := { u.psq.waiting with on := false, off := false }, offByInput := false, groupsDown := 0, heldGroups := 0, attempt := 0 }) = v
  have hvp : v.psq = { u.psq with
    waiting := { u.psq.waiting with on := false, off := false }, offByInput := false, groupsDown := 0, heldGroups := 0, attempt := 0 } := by
    rw [← hv]; rfl
  obtain ⟨q, g⟩ := startUp_psq (v.judgeGroupDown.setPState .poweringUp) .powerUp v.enabledRails
  rw [g, setPState_psq, (State.judgeGroupDown_keeps v).psq (by decide)]
  refine ⟨rfl, ?_, ?_, ?_, ?_⟩
  · have e1 : (v.judgeGroupDown.setPState .poweringUp).enabledRails = s.enabledRails := by
      apply enabledRails_of
      rw [setPState_psq, (State.judgeGroupDown_keeps v).psq (by decide), hvp, h]
    have e2 : v.enabledRails = s.enabledRails := by
      apply enabledRails_of
      rw [hvp, h]
    rw [e1, e2, BitVec.and_self]
  · rw [hvp]
  · rw [hvp]
  · rw [hvp]

/-- What a waiting on request needs to be taken (R428, R446, R447). -/
def canTryOn (s : State) : Bool :=
  s.psq.waiting.on && s.psq.pstate == .dormant && !s.psq.coolOff && !s.psq.tripHold && s.psq.inputGood

theorem tryOn_powerUp (s : State) (h : s.canTryOn = true) : s.tryOn = s.powerUp := if_pos h

/-- A trigger with the domain open leaves the supervisor's state alone: the drain runs first (R187, R188). -/
theorem takeTrigger_psq (s : State) (code : Nat) (hd : s.psq.down = none) (ho : s.bench.domain = .opened) :
    (s.takeTrigger code).psq = s.psq := by
  unfold takeTrigger
  simp only [hd, ho]
  split
  · exact ((State.startDrain_keeps _ _ _).psq (by decide)).trans ((State.noteTrigger_keeps _ _).psq (by decide))
  · split
    · exact (State.noteTrigger_keeps _ _).psq (by decide)
    · exact ((State.flushKick_keeps _).psq (by decide)).trans (((State.startLeave_keeps _ _).psq (by decide)).trans rfl)

theorem takeTrigger_wdg (s : State) (code : Nat) (hd : s.psq.down = none) (ho : s.bench.domain = .opened) :
    (s.takeTrigger code).wdg = s.wdg := by
  unfold takeTrigger
  simp only [hd, ho]
  split
  · exact ((State.startDrain_keeps _ _ _).wdg (by decide)).trans ((State.noteTrigger_keeps _ _).wdg (by decide))
  · split
    · exact (State.noteTrigger_keeps _ _).wdg (by decide)
    · exact ((State.flushKick_keeps _).wdg (by decide)).trans (((State.startLeave_keeps _ _).wdg (by decide)).trans rfl)

/-- A reset of the main domain takes it down, and nothing else of the supervisor but the throttle. -/
theorem mainReset_psq (s : State) : s.mainReset.psq = { s.psq with mainUp := false, throttle := false } := by
  unfold mainReset
  dsimp only
  rw [(State.level_keeps _ _ _ _ _ _ _).psq (by decide)]
  simp only [setPsq_psq, setEvr]
  have h : ∀ t : State, t.sourcesLost.psq = t.psq := fun t => (State.sourcesLost_keeps t).psq (by decide)
  rw [h]
  show ({ (((s.medReset.benchReset.xltReset.twinReset.cxlReset.secReset.flashReset).chansReset).regsReset).psq with mainUp := false, throttle := false } : Psq) = _
  rw [(State.regsReset_keeps _).psq (by decide), (State.chansReset_keeps _).psq (by decide), (State.flashReset_keeps _).psq (by decide),
    (State.secReset_keeps _).psq (by decide), (State.cxlReset_keeps _).psq (by decide), (State.twinReset_keeps _).psq (by decide),
    (State.xltReset_keeps _).psq (by decide), (State.benchReset_keeps _).psq (by decide), (State.medReset_keeps _).psq (by decide)]

theorem mainReset_cores (s : State) : s.mainReset.flash.cores = .off := by
  unfold mainReset
  dsimp only
  rw [(State.level_keeps _ _ _ _ _ _ _).flash (by decide), (State.setPsq_keeps _ _).flash (by decide), (State.setEvr_keeps _ _).flash (by decide),
    (State.sourcesLost_keeps _).flash (by decide)]
  show (((s.medReset.benchReset.xltReset.twinReset.cxlReset.secReset.flashReset).chansReset).regsReset).flash.cores = _
  rw [(State.regsReset_keeps _).flash (by decide), (State.chansReset_keeps _).flash (by decide)]
  rfl

theorem lowerRail_psq (s : State) (set : BitVec 24) (k : Nat) : ∃ r, (s.lowerRail set k).psq = { s.psq with rails := r } := by
  unfold lowerRail
  dsimp only
  split
  · exact ⟨_, rfl⟩
  · exact ⟨s.psq.rails, rfl⟩

/-- A downward transition starts; only the rails and the transition change. -/
theorem startDown_psq (s : State) (kind : TransKind) (set : BitVec 24) :
    ∃ r, (s.startDown kind set).psq = { s.psq with rails := r, trans := some { kind := kind, rails := set, goingDown := true } } := by
  unfold startDown
  dsimp only
  generalize hu : List.foldl _ s _ = u
  have h1 : ∃ r, u.psq = { s.psq with rails := r } := by
    rw [← hu]
    apply railsFold_psq
    intro u k
    dsimp only
    split
    · exact ⟨_, rfl⟩
    · exact ⟨u.psq.rails, rfl⟩
  generalize hv : List.foldl _ u _ = v
  have h2 : ∃ r, v.psq = { u.psq with rails := r } := by
    rw [← hv]
    apply railsFold_psq
    intro u k
    dsimp only
    split
    · exact lowerRail_psq u set k
    · exact ⟨u.psq.rails, rfl⟩
  obtain ⟨r, h1⟩ := h1
  obtain ⟨q, h2⟩ := h2
  refine ⟨q, ?_⟩
  rw [setPsq_psq, h2, h1]

theorem rail_of_psq {s t : State} (h : t.psq = s.psq) (k : Nat) : t.rail k = s.rail k := by simp only [rail, h]

theorem railCause_psq (s : State) (k b : Nat) : (s.railCause k b).psq = s.psq := (State.cause_keeps _ _ _ _ _).psq (by decide)

/-- Opening the domain changes of the supervisor's state at most DRAIN_DONE. -/
theorem tryOpen_psq (s : State) : ∃ b, s.tryOpen.psq = { s.psq with drainDone := b } := by
  unfold tryOpen
  dsimp only
  split
  · refine ⟨false, ?_⟩
    rw [(State.loadStart_keeps _).psq (by decide), (State.judgeBench_keeps _).psq (by decide), (State.emit_keeps _ _).psq (by decide), setPsq_psq]
    rfl
  · split
    · exact ⟨s.psq.drainDone, (State.loadStart_keeps _).psq (by decide)⟩
    · exact ⟨s.psq.drainDone, rfl⟩

theorem drainIncomplete_psq (s : State) (h : Bool) : ∃ b, (s.drainIncomplete h).psq = { s.psq with drainDone := b } := by
  unfold drainIncomplete
  dsimp only
  generalize hu : State.setDesc _ _ _ = u
  have up : u.psq = s.psq := by
    rw [← hu, (State.setDesc_keeps _ _ _).psq (by decide),
      (Keeps.foldl _ (fun v a => State.putRt_keeps v a _) (Keeps.refl _ _)).psq (by decide)]
    exact (State.cause_keeps _ _ _ _ _).psq (by decide)
  obtain ⟨b, h⟩ := tryOpen_psq u
  exact ⟨b, by rw [h, up]⟩

theorem replayChoose_psq (s : State) : ∃ b, s.replayChoose.psq = { s.psq with drainDone := b } := by
  unfold replayChoose
  dsimp only
  split
  · exact ⟨s.psq.drainDone, (State.judgeBench_keeps _).psq (by decide)⟩
  · exact drainIncomplete_psq _ _
  · exact tryOpen_psq _

theorem keepOpen_psq (s : State) : ∃ b, s.keepOpen.psq = { s.psq with drainDone := b } := by
  unfold keepOpen
  dsimp only
  split
  · generalize hu : State.setBench _ _ = u
    have up : u.psq = s.psq := by rw [← hu]; exact (State.setDesc_keeps _ _ _).psq (by decide)
    obtain ⟨b, h⟩ := tryOpen_psq u
    exact ⟨b, by rw [h, up]⟩
  · exact replayChoose_psq s

/-- An on request in DORMANT is taken at once where nothing holds it back (R428, R446, R447). -/
theorem onRequest_dormant (s : State) (h1 : s.psq.pstate = .dormant) (h2 : s.psq.coolOff = false) (h3 : s.psq.tripHold = false)
    (h4 : s.psq.inputGood = true) :
    s.onRequest.psq.pstate = .poweringUp ∧ s.onRequest.psq.trans = some { kind := .powerUp, rails := s.enabledRails } := by
  unfold onRequest
  rw [h1]
  dsimp only
  have he : (s.wakeWithdraw.setPsq { s.psq with waiting := { s.psq.waiting with on := true } }).enabledRails = s.enabledRails := rfl
  rw [tryOn_powerUp]
  · obtain ⟨a, b, -⟩ := powerUp_psq (s.wakeWithdraw.setPsq { s.psq with waiting := { s.psq.waiting with on := true } })
    exact ⟨a, by rw [b, he]⟩
  · simp [canTryOn, h1, h2, h3, h4]

/-- KEEP is left: LEAVING_KEEP, with the main domain up and its rails to be brought up (R445). -/
theorem keepLeave_psq (s : State) : s.keepLeave.psq.pstate = .leavingKeep ∧ s.keepLeave.psq.mainUp = true ∧ s.keepLeave.psq.burst = none ∧
    s.keepLeave.psq.trans = some { kind := .keepLeave, rails := s.keepRailsSet } := by
  unfold keepLeave
  dsimp only
  generalize hv : State.routesRestore _ = v
  have vp : v.psq = { s.psq with mainUp := true, burst := none, pstate := .leavingKeep } := by
    rw [← hv, (State.routesRestore_keeps _).psq (by decide), (State.wdgStart_keeps _).psq (by decide), (State.setFlash_keeps _ _).psq (by decide)]
    show (State.setPState _ _).psq = _
    rw [setPState_psq, setPsq_psq, (State.wakeWithdraw_keeps s).psq (by decide)]
  have e0 : ∀ c : Prop, [Decidable c] → (if c then v.dramWake.cxlPortsStart.judgeMain.deadlineMark else v.dramWake.cxlPortsStart.judgeMain).psq = v.psq := by
    have e : (v.dramWake.cxlPortsStart.judgeMain).psq = v.psq := by
      rw [(State.judgeMain_keeps _).psq (by decide), (State.cxlPortsStart_keeps _).psq (by decide), (State.dramWake_keeps _).psq (by decide)]
    intro c _
    split
    · rw [(State.deadlineMark_keeps _).psq (by decide), e]
    · exact e
  have wp := e0 (v.dramWake.cxlPortsStart.judgeMain.evt.raw.getLsbD 158 = true)
  generalize (if v.dramWake.cxlPortsStart.judgeMain.evt.raw.getLsbD 158 = true then v.dramWake.cxlPortsStart.judgeMain.deadlineMark
    else v.dramWake.cxlPortsStart.judgeMain) = w at wp ⊢
  obtain ⟨r, h⟩ := startUp_psq w .keepLeave v.keepRailsSet
  have e : v.keepRailsSet = s.keepRailsSet := by
    have : v.psq.seqAct = s.psq.seqAct := by rw [vp]
    simp only [keepRailsSet, seq, enabledRails, this]
  have e2 : w.enabledRails = s.enabledRails := enabledRails_of _ _ (by rw [wp, vp])
  rw [h, wp, vp, e, e2]
  refine ⟨rfl, rfl, rfl, ?_⟩
  simp only [keepRailsSet, BitVec.and_assoc, BitVec.and_self]

/-- The main domain is up after its release, with no warm reset left to run. -/
theorem mainRelease_psq (s : State) :
    s.mainRelease.psq = { s.psq with mainUp := true, warm := false, tj := (Config.undefinedWord s.fresh).setWidth 8 } := by
  unfold mainRelease
  dsimp only
  rw [(State.judgeMain_keeps _).psq (by decide)]
  generalize hx : ({ s.psq with mainUp := true, warm := false, tj := (Config.undefinedWord s.fresh).setWidth 8 } : Psq) = X
  generalize hv : ({ s.draw.setPsq _ with evt := _ } : State) = v
  have hs : v.psq = X := by rw [← hv, ← hx]; rfl
  have h2 : ∀ c : Prop, [Decidable c] → (if c then v else v.bootSelect v.arb).psq = X := fun c _ => by
    split
    · exact hs
    · rw [(State.bootSelect_keeps _ _).psq (by decide), hs]
  refine ite_prop (P := fun t : State => t.psq = X) (h2 _) (ite_prop (P := fun t : State => t.psq = X) ?_
    (ite_prop (P := fun t : State => t.psq = X) (h2 _) ?_))
  · exact ((State.wdgStart_keeps _).psq (by decide)).trans (h2 _)
  · exact ((State.cxlPortsStart_keeps _).psq (by decide)).trans (h2 _)

end State

end Sys2Proof.Machine
end

