-- ==== Sys2Proof/Laws/Time.lean ====
section
/-! SUPPORT. The laws of the Tally's shared operations: what selecting a source, applying its time and firing a slot leave. -/

namespace Sys2Proof.Machine

namespace State

theorem pulse_tally (s : State) (n : Nat) : (s.pulse n).tally = s.tally := (State.pulse_keeps s n).tally (by decide)

theorem pulse_psq (s : State) (n : Nat) : (s.pulse n).psq = s.psq := (State.pulse_keeps s n).psq (by decide)

/-- Two states choose alike whose TLY_CTRL is one and whose Tallies differ in source, catch-up and error estimate alone. -/
theorem bestSource_of (s t : State) (hb : ∀ b, t.bit Reg.TLY_CTRL 0 b = s.bit Reg.TLY_CTRL 0 b)
    (h : t.tally = { s.tally with source := t.tally.source, catchup := t.tally.catchup, holdErr := t.tally.holdErr }) : t.bestSource = s.bestSource := by
  unfold bestSource
  simp only [hb]
  rw [h]

theorem selectSource_bit (s : State) (b : Nat) : s.selectSource.bit Reg.TLY_CTRL 0 b = s.bit Reg.TLY_CTRL 0 b := by
  unfold selectSource
  dsimp only
  refine ite_prop (P := fun x : State => x.bit Reg.TLY_CTRL 0 b = s.bit Reg.TLY_CTRL 0 b) rfl ?_
  refine ite_prop (P := fun x : State => x.bit Reg.TLY_CTRL 0 b = s.bit Reg.TLY_CTRL 0 b) ?_ ?_
  · rw [bit_pulse _ _ _ (by decide), bit_pulse _ _ _ (by decide)]; rfl
  · rw [bit_pulse _ _ _ (by decide)]; rfl

/-- What selecting leaves of the Tally: its source, catch-up and error estimate alone can differ, and the source is the best one but where none is
yet. -/
theorem selectSource_tally (s : State) :
    s.selectSource.tally = { s.tally with
      source := s.selectSource.tally.source, catchup := s.selectSource.tally.catchup, holdErr := s.selectSource.tally.holdErr } ∧
    (s.selectSource.tally.source = s.bestSource ∨
      s.selectSource.tally.source = .none ∧ s.tally.source = .none ∧ isHoldover s.bestSource = true ∧ s.tally.started = false) ∧
    (isHoldover s.bestSource = false → s.selectSource.tally.catchup = s.tally.catchup) := by
  unfold selectSource
  dsimp only
  split
  next h =>
    refine ⟨rfl, ?_, fun _ => rfl⟩
    rcases h with h | h
    · exact .inl h.symm
    · exact .inr ⟨h.1, h.1, h.2.1, by simpa using h.2.2⟩
  next h =>
    have e : ∀ (x : State) n, x.tally = { s.tally with
          source := s.bestSource, catchup := s.tally.catchup && !isHoldover s.bestSource, holdErr := n } →
        x.tally = { s.tally with source := x.tally.source, catchup := x.tally.catchup, holdErr := x.tally.holdErr } ∧ (x.tally.source = s.bestSource ∨
        x.tally.source = .none ∧ s.tally.source = .none ∧ isHoldover s.bestSource = true ∧ s.tally.started = false) ∧
        (isHoldover s.bestSource = false → x.tally.catchup = s.tally.catchup) := by
      intro x n hx
      rw [hx]
      exact ⟨rfl, .inl rfl, fun hh => by simp [hh]⟩
    split
    · exact e _ _ (by rw [pulse_tally, pulse_tally]; rfl)
    · exact e _ _ (by rw [pulse_tally]; rfl)

theorem selectSource_best (s : State) : s.selectSource.bestSource = s.bestSource :=
  bestSource_of _ _ s.selectSource_bit s.selectSource_tally.1

/-- Once a source has been taken, the selected one is the best one. -/
theorem selectSource_source (s : State) (h : s.tally.started = true ∨ s.tally.source ≠ .none ∨ isHoldover s.bestSource = false) :
    s.selectSource.tally.source = s.bestSource := by
  rcases s.selectSource_tally.2.1 with e | ⟨-, h1, h2, h3⟩
  · exact e
  · rcases h with h | h | h
    · rw [h] at h3; cases h3
    · exact absurd h1 h
    · rw [h] at h2; cases h2

/-- A source that is no holdover and not the best one is not selected. -/
theorem selectSource_ne (s : State) (x : TimeSource) (hx : x ≠ .none) (h : s.bestSource ≠ x) : s.selectSource.tally.source ≠ x := by
  rcases s.selectSource_tally.2.1 with e | ⟨e, -⟩
  · rw [e]; exact h
  · rw [e]; exact fun h => hx h.symm

/-- Why a source is the best one. -/
theorem bestSource_why (s : State) : s.bestSource = .ptp ∧ s.tally.ptpQualified = true ∨ s.bestSource = .secure ∧ s.tally.secQualified = true ∨
    s.bestSource = .twin ∧ s.tally.twinQualified = true ∨ s.bestSource = .holdoverPps ∧ s.tally.ppsLock = true ∨ s.bestSource = .holdover := by
  unfold bestSource
  dsimp only
  split
  next h => simp only [Bool.and_eq_true] at h; exact .inl ⟨rfl, h.1.1.2⟩
  next =>
    split
    next h => simp only [Bool.and_eq_true] at h; exact .inr (.inl ⟨rfl, h.1.2⟩)
    next =>
      split
      next h => simp only [Bool.and_eq_true] at h; exact .inr (.inr (.inl ⟨rfl, h.1.2⟩))
      next =>
        split
        next h => simp only [Bool.and_eq_true] at h; exact .inr (.inr (.inr (.inl ⟨rfl, h.2⟩)))
        next => exact .inr (.inr (.inr (.inr rfl)))

theorem bestSource_ptp (s : State) (h1 : s.bit Reg.TLY_CTRL 0 0 = true) (h2 : s.tally.ptpQualified = true) (h3 : s.tally.ptpOverridden = false)
    (h4 : s.tally.ptpHoldoff = false) : s.bestSource = .ptp := by
  unfold bestSource
  dsimp only
  rw [if_pos (by simp [h1, h2, h3, h4])]

/-- Applying a source's time: STARTED, the first application, and the error estimate of the selected source. -/
theorem applied_tally (s : State) : s.applied.tally =
    { s.tally with started := true, setSinceVaon := true, holdErr := (s.tally.source.accuracy).getD s.tally.holdErr } := by
  unfold applied
  dsimp only
  split <;> rfl

theorem moveNow_tally (s : State) (x : TimeSource) (p : Trust) (v : Dword) : ∃ big : Bool,
    (big = decide (s.tally.now.toNat + secUnits < v.toNat)) ∧
    (s.moveNow x p v).tally = { (if v < s.tally.now then { s.tally with catchup := true, slew := 0 }
      else if big then { s.tally with now := v, slew := 0, catchup := false }
      else { s.tally with slew := v - s.tally.now, catchup := false } : Tally) with
        trust := trustAfter s.tally x p big
        started := true
        setSinceVaon := true
        holdErr := (s.tally.source.accuracy).getD s.tally.holdErr } := by
  refine ⟨_, rfl, ?_⟩
  unfold moveNow
  dsimp only
  rw [applied_tally]
  simp only [setTally_tally]
  by_cases h1 : v < s.tally.now
  · simp only [if_pos h1]
  · simp only [if_neg h1]
    by_cases h2 : s.tally.now.toNat + secUnits < v.toNat
    · simp only [h2, decide_true, if_true]
    · simp only [h2, decide_false, Bool.false_eq_true, if_false]

/-- A source's time that is neither below the floor nor a jump to hold, with no jump pending, is applied. -/
theorem offerTime_moves (s : State) (x : TimeSource) (p : Trust) (v : Dword) (hf : ¬ v < s.tally.floor.tally)
    (hj : ¬ s.tally.now.toNat + thirtyDays < v.toNat) (hp : s.tally.jumpPending = false) : s.offerTime x p v = s.moveNow x p v := by
  unfold offerTime
  dsimp only
  rw [if_neg hf, if_neg hj, if_neg (by simp [hp])]

/-- The chosen master has the lowest rank of those that announced themselves on a running MAC. -/
theorem ptpBest_le (s : State) (m : Fin 32) (r : Nat) (hon : s.ptpOn m = true) (hm : (s.mac m).master = some r) :
    ∃ (c : Fin 32) (rc : Nat), s.ptpBest = some c ∧ (s.mac c).master = some rc ∧ rc ≤ r ∧ s.ptpOn c = true := by
  let f : Option (Fin 32) → Fin 32 → Option (Fin 32) := fun b m => if !s.ptpOn m then b
    else match (s.mac m).master, b with
      | none, _ => b
      | some _, none => some m
      | some r, some c => if r < ((s.mac c).master.getD r) then some m else b
  let good : Option (Fin 32) → Nat → Prop := fun b r => ∃ c rc, b = some c ∧ (s.mac c).master = some rc ∧ rc ≤ r ∧ s.ptpOn c = true
  have keep : ∀ b x r, good b r → good (f b x) r := by
    rintro b x r ⟨c, rc, rfl, hc, hr, ho⟩
    simp only [f]
    by_cases hx : s.ptpOn x = true
    · simp only [hx, Bool.not_true, Bool.false_eq_true, if_false]
      cases hmx : (s.mac x).master with
      | none => exact ⟨c, rc, rfl, hc, hr, ho⟩
      | some q =>
        simp only [hc, Option.getD_some]
        split
        next hlt => exact ⟨x, q, rfl, hmx, by omega, hx⟩
        next => exact ⟨c, rc, rfl, hc, hr, ho⟩
    · simp only [Bool.not_eq_true] at hx
      simp only [hx, Bool.not_false, if_true]
      exact ⟨c, rc, rfl, hc, hr, ho⟩
  have keepl : ∀ (l : List (Fin 32)) b r, good b r → good (l.foldl f b) r := by
    intro l
    induction l with
    | nil => exact fun _ _ h => h
    | cons x l ih => exact fun b r h => ih _ _ (keep b x r h)
  have valid : ∀ (l : List (Fin 32)) b, (∀ c, b = some c → ∃ rc, good b rc) → ∀ c, l.foldl f b = some c → ∃ rc, good (l.foldl f b) rc := by
    intro l
    induction l with
    | nil => exact fun b h c hc => h c hc
    | cons x l ih =>
      intro b h
      refine ih _ fun c hc => ?_
      cases b with
      | some b0 => obtain ⟨rc, hg⟩ := h b0 rfl; exact ⟨rc, keep _ x _ hg⟩
      | none =>
        simp only [f] at hc ⊢
        by_cases hx : s.ptpOn x = true
        · simp only [hx, Bool.not_true, Bool.false_eq_true, if_false] at hc ⊢
          cases hmx : (s.mac x).master with
          | none => simp only [hmx] at hc; cases hc
          | some q => exact ⟨q, x, q, rfl, hmx, le_refl _, hx⟩
        · simp only [Bool.not_eq_true] at hx
          simp only [hx, Bool.not_false, if_true] at hc; cases hc
  have step : ∀ b, (∀ c, b = some c → ∃ rc, good b rc) → good (f b m) r := by
    intro b hb
    simp only [f, hon, Bool.not_true, Bool.false_eq_true, if_false, hm]
    cases b with
    | none => exact ⟨m, r, rfl, hm, le_refl _, hon⟩
    | some c =>
      obtain ⟨rc, c', q, e, hq, -, hc⟩ := hb c rfl
      cases e
      simp only [hq, Option.getD_some]
      split
      next => exact ⟨m, r, rfl, hm, le_refl _, hon⟩
      next hlt => exact ⟨c, q, rfl, hq, by omega, hc⟩
  obtain ⟨l1, l2, hl⟩ := List.append_of_mem (List.mem_finRange m)
  show good ((List.finRange 32).foldl f none) r
  rw [hl, List.foldl_append, List.foldl_cons]
  exact keepl _ _ _ (step _ fun c hc => valid _ _ (fun c hc => by cases hc) c hc)

/-! ### A slot's firing -/

theorem slot_of {s t : State} (h : t.sched = s.sched) (k : Nat) : t.slot k = s.slot k := by simp only [slot, h]

theorem wakeIdle_psq (s : State) : s.wakeIdle.psq = s.psq ∨ s.psq.pstate = .idle ∧ s.wakeIdle.psq = { s.psq with pstate := .active } := by
  unfold wakeIdle
  split
  next h => exact .inr ⟨h, setPState_psq _ _⟩
  next => exact .inl rfl

theorem wakeIdle_tally (s : State) : s.wakeIdle.tally = s.tally := by
  unfold wakeIdle
  split
  next h =>
    unfold setPState
    rw [if_neg (by rw [h]; decide)]
    dsimp only
    rw [if_neg (by decide), (State.lanesWake_keeps _).tally (by decide), (State.level_keeps _ _ _ _ _ _ _).tally (by decide),
      (State.cause_keeps _ _ _ _ _).tally (by decide)]
    rfl
  next => rfl

theorem wakeIdle_column (s : State) (a : BitVec 4) : s.wakeIdle.column a = s.column a := by
  rcases s.wakeIdle_psq with h | ⟨h1, h2⟩
  · unfold column; rw [h]
  · unfold column; rw [h2, h1]

/-- Where the Tally has not moved the ages stand. -/
theorem ageFollow_none (s old : State) (h : s.tally = old.tally) : s.ageFollow old = s := by
  have e : ((s.sNow.toNat : Int) - old.sNow.toNat) = 0 := by unfold sNow; rw [h]; exact sub_self _
  unfold ageFollow
  dsimp only
  rw [e, h]
  cases old.tally.jumpPending <;> cases old.tally.disagree <;> simp

/-- Writing slot `j` leaves every other slot, and the schedule's marks. -/
theorem setSlot_other (s : State) (j k : Nat) (v : Slot) (h : k ≠ j) : (s.setSlot j v).slot k = s.slot k := by
  simp only [setSlot, slot]
  exact Tab.get_put_ne _ _ _ _ h

/-- Copying a slot to the NV store leaves the slots and the marks. -/
theorem saveSlot_sched (s : State) (j : Nat) : (s.saveSlot j).sched = { s.sched with saved := (s.saveSlot j).sched.saved } := by
  unfold saveSlot
  dsimp only
  rw [(State.nvWrite_keeps _ _ _).sched (by decide)]

theorem saveSlot_slot (s : State) (j k : Nat) : (s.saveSlot j).slot k = s.slot k := by
  unfold slot
  rw [saveSlot_sched]

/-- Clearing the mark of slot `j` leaves that of another slot. -/
theorem mark_other (m : BitVec 256) (j k : Nat) (h : k ≠ j) : (m &&& ~~~(BitVec.twoPow 256 j)).getLsbD k = m.getLsbD k := by
  rw [BitVec.getLsbD_and, BitVec.getLsbD_not, BitVec.getLsbD_twoPow]
  by_cases hk : k < 256
  · simp [hk, h.symm]
  · simp [hk, BitVec.getLsbD_of_ge m k (by omega)]

/-- The slots of ACTION 0 that fire below slot `k` leave slot `k` and its mark. -/
theorem fireNone_slot (s : State) (k : Nat) : (s.fireNone k).slot k = s.slot k ∧
    (s.fireNone k).sched.marked.getLsbD k = s.sched.marked.getLsbD k := by
  unfold fireNone
  dsimp only
  generalize hl : ((s.sched.slots.filter _).map Prod.fst) = l
  have hlt : ∀ j ∈ l, j < k := by
    intro j hj
    subst hl
    obtain ⟨p, hp, rfl⟩ := List.mem_map.1 hj
    have h := (List.mem_filter.1 hp).2
    simp only [Bool.and_eq_true, decide_eq_true_eq] at h
    exact h.1.1
  clear hl
  induction l generalizing s with
  | nil => exact ⟨rfl, rfl⟩
  | cons j l ih =>
    have hj : k ≠ j := by have := hlt j (by simp); omega
    rw [List.foldl_cons]
    obtain ⟨h1, h2⟩ := ih _ fun i hi => hlt i (List.mem_cons_of_mem _ hi)
    refine ⟨h1.trans ?_, h2.trans ?_⟩
    · rw [saveSlot_slot, setSlot_other _ _ _ _ hj]; rfl
    · rw [saveSlot_sched]
      show (s.sched.marked &&& ~~~(BitVec.twoPow 256 j)).getLsbD k = _
      exact mark_other _ j k hj

/-- What a firing leaves of its slot, and what it adds to its action: the schedule, the slot's NV copy, and the dies' ages where the action moved
the Tally. `r` is the action's result; one that gives none leaves RESULT as it was. -/
theorem fires_of (s : State) (k : Nat) (a : BitVec 4) (act : Column → Slot → State → FireResult × State) (c : Column) (r : FireResult) (u : State)
    (hk : s.nextDue = some k) (ha : (s.slot k).action = a) (hc : s.column a = some c) (hu : act c (s.slot k) (s.fireNone k).wakeIdle = (r, u))
    (hs : u.sched.marked.getLsbD k = s.sched.marked.getLsbD k) : (s.fires k a act).slot k = { (Slot.advance (s.slot k) u.tally.now) with
      result := if s.sched.marked.getLsbD k ∧ (r = FireResult.done ∨ r = FireResult.none) then FireResult.missed
        else if r = FireResult.none then (s.slot k).result else r } ∧
    Keeps [.sched, .nv, .regs, .evt, .evr, .chans, .med, .xlt, .cxl, .out] u (s.fires k a act) ∧
    (r ≠ .held → u.tally = s.tally → Keeps [.sched, .nv] u (s.fires k a act)) := by
  have hsl : (s.fireNone k).wakeIdle.slot k = s.slot k :=
    (slot_of ((State.wakeIdle_keeps _).sched (by decide)) k).trans (s.fireNone_slot k).1
  have hcol : (s.fireNone k).wakeIdle.column a = some c := by
    rw [wakeIdle_column, ← hc]
    unfold column
    rw [(State.fireNone_keeps s k).psq (by decide)]
  unfold fires
  rw [if_pos ⟨hk, ha⟩]
  have hsent : ∀ x : State, (x.ageFollow s).slot k = x.slot k := fun x => slot_of ((State.ageFollow_keeps x s).sched (by decide)) k
  rw [hsent]
  unfold fireSlot
  simp only [hcol, hsl, hu]
  rw [hs]
  generalize hr : (if s.sched.marked.getLsbD k = true ∧ (r = FireResult.done ∨ r = FireResult.none) then FireResult.missed
    else if r = FireResult.none then (s.slot k).result else r) = r'
  generalize hx : ({ u with sched := _ } : State) = x
  have hxk : Keeps [.sched] u x := by
    subst hx; intro p hp; cases p <;> first | rfl | (simp at hp)
  generalize hv : ({ (Slot.advance (s.slot k) u.tally.now) with result := r' } : Slot) = v
  have hy : ((x.setSlot k v).saveSlot k).slot k = v := by
    rw [saveSlot_slot]
    simp [setSlot, slot]
  have hyk : Keeps [.sched, .nv] u ((x.setSlot k v).saveSlot k) :=
    Keeps.after (State.saveSlot_keeps _ _) (by decide) (Keeps.after (State.setSlot_keeps _ _ _) (by decide) (hxk.mono (by decide)))
  split
  · exact ⟨(slot_of ((State.pulse_keeps _ _).sched (by decide)) k).trans hy, Keeps.after (State.ageFollow_keeps _ _) (by decide)
      (Keeps.after (State.pulse_keeps _ _) (by decide) (hyk.mono (by decide))), fun h => by contradiction⟩
  · refine ⟨hy, Keeps.after (State.ageFollow_keeps _ _) (by decide) (hyk.mono (by decide)), fun _ ht => ?_⟩
    rw [ageFollow_none _ _ ((hyk.tally (by decide)).trans ht)]
    exact hyk

end State

end Sys2Proof.Machine
end

