-- ==== Sys2Proof/Tests/Slice0.lean ====
section
/-! SUPPORT. Small checks of the model, each on one command or one operation, and for every statement with hypotheses the states and
operands that meet them. -/

namespace Sys2Proof.Tests

open Machine

-- One test at a time: a `decide +kernel` waits for the kernel, and hundreds that wait at once each hold a thread and its stack.
set_option Elab.async false

/-- A controller in ACTIVE with one region, one die, one package, one CXL port, one MAC and one Tandem port at work. -/
def live : State :=
  let s : State := { State.reset with
    psq.vaon := true, psq.mainUp := true, psq.inputGood := true, psq.pstate := .active, tally.started := true, flash.cores := .running, bench.domain := .opened
    xlt.load := .loaded, xlt.extents := 131072, xlt.regions := [(1, { valid := true, mode := .m4, size := 4096, extents := [0] })]
    twin.regions := [(1, { home := true, opened := true, served := true })], twin.session := 1, twin.p0 := { st := .up }, twin.compat := 0
    med.chans := [(0, { lstate := .active, pkg0 := 2 })], med.groups := [(0, { railsUp := true, inService := true })]
    med.dies := [(0, { identified := true, used := true, tables := true })], dram.st := .ready
    cxl.ports := [(0, { st := .l0 })], rdma.macs := [(0, { up := true })], rdma.qps := [(0, { connected := true })] }
  ((((s.setBit Reg.RDM_CTRL 0 0 true).setBit Reg.ETH_PTP_MACS 0 0 true).setBit Reg.ETH_CTRL 0 0 true).setBit Reg.TDM_CTRL 0 0 true).setBit Reg.TDM_CTRL 0 (State.portEn false) true

/-- `live` as the home of a pair. -/
def paired : State := { live with twin.pair := .paired }

/-- What `Takes` asks of a state, each as a decision. -/
def takesChecks (s : State) (r : AzReq) (op : Nat) : List Bool :=
  [decide (s.life ≠ .ended), decide (s.canTake r.chan = true), decide ((s.chan r.chan).who ≠ .none), decide (s.pageInsecure r = false),
    decide (r.via = .legacy ∨ r.session = s.sessionOf r.chan), decide (s.duplicateOf r = none), decide (s.stateForbids r op = false),
    decide (s.recoveryForbids r op = false), decide (s.keepForbids op = false), decide (r.via = .legacy → r.params.length ≤ 14),
    decide (r.flags = 0)]

theorem takes_mk {s : State} {r : AzReq} {op : Nat} (h : ∀ b ∈ takesChecks s r op, b = true) : s.Takes s.wakeIdle r op := by
  constructor <;> first
    | rfl
    | exact of_decide_eq_true (h _ (by simp only [takesChecks, List.mem_cons, true_or, or_true]))

/-- What `Accepts` asks of a frame. -/
def acceptsChecks (s : State) (p : Bool) (f : TFrame) : List Bool :=
  [decide (s.psq.mainUp = true), decide (s.bit Reg.TDM_CTRL 0 0 = true), decide (s.bit Reg.TDM_CTRL 0 (State.portEn p) = true),
    decide ((s.tport p).st = .up), decide (s.twin.pair = .paired ∨ s.twin.pair = .attesting), decide (f.shapeOk = true), decide (f.session ≠ 0),
    decide (f.session = s.twin.session), decide ((s.tport p).fseqRx < f.fseq), decide (f.tagOk = true),
    decide (f.phase = (s.tport p).phaseRx ∨ (s.tport p).oldKey = true)]

theorem accepts_mk {s : State} {p : Bool} {f : TFrame} (h : ∀ b ∈ acceptsChecks s p f, b = true) : s.Accepts p f := by
  constructor <;> exact of_decide_eq_true (h _ (by simp only [acceptsChecks, List.mem_cons, true_or, or_true]))

/-- What `Judges` asks of a state. -/
def judgesChecks (s : State) (n : Nat) : List Bool :=
  [decide (s.ingressOpen = true), decide (s.bit Reg.RDM_CTRL 0 0 = true), decide (s.macTakes (s.qp n).mac.val = true),
    decide ((s.qp n).connected = true), decide ((s.qp n).error = false), decide ((s.qp n).rnr = none)]

theorem judges_mk {s : State} {n : Nat} {ce : Bool} (h : ∀ b ∈ judgesChecks s n, b = true) :
    s.Judges (((s.wakeIdle).context n).congestion n ce) n ce := by
  constructor <;> first
    | rfl
    | exact of_decide_eq_true (h _ (by simp only [judgesChecks, List.mem_cons, true_or, or_true]))

/-! ### Frames that the tests answer with: a frame of zeros and a codeword with a wrong CRC -/

theorem frameBits_zeros (w : BitVec 2400) (lo n : Nat) (h : ∀ i < n, w.getLsbD (lo + i) = false) : frameBits w lo n = List.replicate n false := by
  rw [frameBits, List.eq_replicate_iff]
  refine ⟨by rw [List.length_map, List.length_range], fun b hb => ?_⟩
  obtain ⟨i, hi, rfl⟩ := List.mem_map.1 hb
  exact h i (List.mem_range.1 hi)

theorem crc12_zeros {w : BitVec 2400} {lo n : Nat} (h : ∀ i < n, w.getLsbD (lo + i) = false) (l : List Bool) :
    crc12 (frameBits w lo n ++ l) = crc12 l := by
  have hz : (List.replicate n false).foldl (fun (c : BitVec 12) b => if c.getLsbD 11 != b then (c <<< 1) ^^^ 0x80F#12 else c <<< 1) 0 = 0 := by
    clear h
    induction n with
    | zero => rfl
    | succ n ih => rw [List.replicate_succ, List.foldl_cons]; exact ih
  unfold crc12; rw [frameBits_zeros w lo n h, List.foldl_append, hz]

theorem bchParity_zeros {w : BitVec 2400} {lo n : Nat} (h : ∀ i < n, w.getLsbD (lo + i) = false) (l : List Bool) :
    bchParity (frameBits w lo n ++ l) = bchParity l := by
  have hz : (List.replicate n false).foldl (fun (r : BitVec 288) b => if r.getLsbD 287 != b then (r <<< 1) ^^^ bchGenerator else r <<< 1) 0 = 0 := by
    clear h
    induction n with
    | zero => rfl
    | succ n ih => rw [List.replicate_succ, List.foldl_cons]; simpa using ih
  unfold bchParity; rw [frameBits_zeros w lo n h, List.foldl_append, hz]

theorem frameBits_last (w : BitVec 2400) (lo n : Nat) : frameBits w lo (n + 1) = frameBits w lo n ++ [w.getLsbD (lo + n)] := by
  rw [frameBits, List.range_succ, List.map_append]; rfl

theorem bchDecode_codeword {w : BitVec 2400} (h1 : isCodeword w = true) : bchDecode w = some (w, 0) := by
  unfold bchDecode
  rw [if_pos h1]

theorem hardDecode_bind {w : BitVec 2400} : hardDecode w = (bchDecode w).bind fun a => if frameCrcOk a.1 then some (decodedOf a.1 a.2) else none := by
  unfold hardDecode
  generalize bchDecode w = o
  generalize frameCrcOk = p
  generalize decodedOf = g
  cases o with
  | none => rfl
  | some a => obtain ⟨x, k⟩ := a; rfl

theorem hardDecode_codeword {w : BitVec 2400} {c : Bool} (h1 : isCodeword w = true) (h2 : frameCrcOk w = c) : hardDecode w = if c then some (decodedOf w 0) else none := by
  rw [hardDecode_bind, bchDecode_codeword h1, ← h2, Option.bind_some]

theorem findSome_first {α : Type} (f : Nat → Option α) {a : α} (n : Nat) (h : f 0 = some a) : (List.range (n + 1)).findSome? f = some a := by
  rw [List.range_succ_eq_map, List.findSome?_cons, h]

theorem softDecode_patterns (ref p m : BitVec 2400) : softDecode ref p m = (List.range 1024).findSome? fun k =>
    hardDecode (ref ^^^ ((softBits ref p m).foldl (fun (a : BitVec 2400 × Nat) i =>
      (if k.testBit a.2 then a.1 ||| BitVec.twoPow 2400 i else a.1, a.2 + 1)) (0, 0)).1) := by
  unfold softDecode
  with_reducible rfl

theorem softDecode_of_hardDecode {ref : BitVec 2400} (p m : BitVec 2400) {d : Decoded} (h : hardDecode ref = some d) :
    softDecode ref p m = some d := by
  have hz (l : List Nat) (j : Nat) : (l.foldl (fun (a : BitVec 2400 × Nat) i =>
      (if (0 : Nat).testBit a.2 then a.1 ||| BitVec.twoPow 2400 i else a.1, a.2 + 1)) (0, j)).1 = 0 := by
    induction l generalizing j with
    | nil => rfl
    | cons x l ih => rw [List.foldl_cons]; simpa using ih (j + 1)
  rw [softDecode_patterns]
  have e : (fun k => hardDecode (ref ^^^ ((softBits ref p m).foldl (fun (a : BitVec 2400 × Nat) i =>
      (if k.testBit a.2 then a.1 ||| BitVec.twoPow 2400 i else a.1, a.2 + 1)) (0, 0)).1)) 0 = some d := by
    beta_reduce
    rw [hz, show ref ^^^ 0 = ref from BitVec.xor_zero, h]
  exact findSome_first _ 1023 e

theorem getLsbD_zeros (lo n : Nat) : ∀ i < n, (0#2400).getLsbD (lo + i) = false := fun _ _ => BitVec.getLsbD_zero

theorem isCodeword_zero : isCodeword 0#2400 = true := by
  rw [isCodeword, ← List.append_nil (frameBits _ _ _), bchParity_zeros (getLsbD_zeros _ _)]; decide +kernel

theorem frameCrcOk_zero : frameCrcOk 0#2400 = true := by
  rw [frameCrcOk, frameCrc, crc12_zeros (getLsbD_zeros _ _), ← List.append_nil (frameBits _ _ _), crc12_zeros (getLsbD_zeros _ _)]
  decide +kernel

/-- A frame of zeros is a codeword whose CRC is right. -/
theorem hardDecode_zero : hardDecode 0#2400 = some (decodedOf 0#2400 0) := hardDecode_codeword isCodeword_zero frameCrcOk_zero

/-- A codeword whose CRC is wrong. -/
def miscrc : BitVec 2400 := BitVec.twoPow 2400 2111 ||| (bchGenerator.reverse.setWidth 2400 <<< 2112)

theorem miscrc_low (i : Nat) (h : i < 2111) : miscrc.getLsbD i = false := by
  have h1 : ¬ (2111 = i) := by omega
  have h2 : i < 2112 := by omega
  rw [miscrc, BitVec.getLsbD_or, BitVec.getLsbD_twoPow, BitVec.getLsbD_shiftLeft, decide_eq_false h1, decide_eq_true h2, Bool.and_false,
    Bool.not_true, Bool.and_false, Bool.false_and, Bool.or_false]

theorem miscrc_top : miscrc.getLsbD 2111 = true := by decide +kernel

theorem isCodeword_miscrc : isCodeword miscrc = true := by
  rw [isCodeword, frameBits_last miscrc 0 2111, bchParity_zeros (fun i h => by rw [Nat.zero_add]; exact miscrc_low i h), Nat.zero_add, miscrc_top]
  decide +kernel

theorem frameCrcOk_miscrc : frameCrcOk miscrc = false := by
  rw [frameCrcOk, frameCrc, frameBits_last miscrc 2060 51, crc12_zeros (fun i h => by rw [Nat.zero_add]; exact miscrc_low i (by omega)),
    crc12_zeros (fun i h => miscrc_low _ (by omega)), miscrc_top]
  decide +kernel

theorem hardDecode_miscrc : hardDecode miscrc = none := hardDecode_codeword isCodeword_miscrc frameCrcOk_miscrc

/-- `live` in MAKER with an authorisation for FIELD_OPEN staged on channel 0. -/
def staged : State := { live with
  sec.groups := 0xFFFF
  chans := [(0, { who := .shelf, rights := 0x7F, stage := [(0, 0x020101), (1, Config.otpWord 0x024), (2, Config.otpWord 0x025),
    (3, Config.otpWord 0x026), (4, Config.otpWord 0x027)] })] }

theorem staged_groups : staged.authGroups 0 2 true = some [1] := by
  have h (k : Fin 4) : staged.stageWord 0 (1 + k.val) = Config.otpWord (0x024 + k.val) := by
    match k with
    | 0 => rfl
    | 1 => rfl
    | 2 => rfl
    | 3 => rfl
  have hu : ((List.range 4).all fun k => staged.stageWord 0 (1 + k) == Config.otpWord (0x024 + k)) = true := by
    rw [List.all_eq_true]; intro k hk; rw [List.mem_range] at hk; exact beq_iff_eq.2 (h ⟨k, hk⟩)
  have h0 : staged.stageWord 0 0 = 0x020101#32 := rfl
  have h29 : staged.stageWord 0 29 = 0#32 := rfl
  have hl : staged.life = .maker := by decide +kernel
  have hr : staged.sec.rop = 0 := rfl
  unfold State.authGroups
  simp only [h0, h29, hu, hl, hr]
  decide +kernel

/-- REGION_CREATE of one sett in M2. -/
def create : AzReq := { chan := 0, params := [1, 1] }

/-- The same with the home role for the twin. -/
def createFar : AzReq := { chan := 0, params := [1, 17] }

/-- What creating that region here comes to. -/
def created (s : State) (r : AzReq) (home : Bool) : Option (State × Nat) :=
  s.wakeIdle.createHere (r.n 0) (Mode.ofCode (r.n 1)) ((r.n 1).testBit 2) ((r.n 1).testBit 3) home

theorem created_live : (created live create true).isSome = true := by decide +kernel
theorem created_paired : (created paired createFar false).isSome = true := by decide +kernel

/-- Five decidable facts at once, before a last one. -/
theorem five_and {a b c d e r : Prop} (h : a ∧ b ∧ c ∧ d ∧ e) (k : r) : a ∧ b ∧ c ∧ d ∧ e ∧ r :=
  ⟨h.1, h.2.1, h.2.2.1, h.2.2.2.1, h.2.2.2.2, k⟩

theorem some_pair {α β : Type} (o : Option (α × β)) (h : o.isSome = true) : o = some ((o.get h).1, (o.get h).2) := (Option.some_get h).symm

/-- A command of a kind to die 0, with tag 1,023. -/
def cmd (op : QmiOp) : QmiCmd := { op := op, die := 0, tag := 1023 }

/-- `live` with a command sent on channel 0. -/
def sent (c : QmiCmd) : State := { live with med.chans := [(0, { lstate := .active, pkg0 := 2, sent := [c] })] }

/-- A package descriptor that passes every check of Table 4-7. -/
def goodDesc : List Byte :=
  let d : List Byte := [1, 4, 4, 0x10, 20, 0x0E, 16, 8, 4, 0, 1] ++ List.replicate 0xF3 0
  d ++ [(crc16 d).setWidth 8, (crc16 d >>> 8).setWidth 8]

set_option maxRecDepth 100000 in
theorem goodDesc_ok : descCheck goodDesc = none := by decide +kernel

/-- A flit of commands with SEQ 1. -/
def goodFlit : Flit := mkFlit .msg 63 1 0

set_option maxRecDepth 100000 in
theorem goodFlit_ok : flitBad goodFlit = false ∧ flitKind goodFlit = 1 ∧ flitSeq goodFlit = 1 := by decide +kernel

theorem flitBad_kind3 : flitBad 0xC000#544 = true := by
  unfold flitBad; rw [Bool.or_eq_true]; exact .inr (by decide +kernel)

/-- One level of each boundary of M2 and M4 at each of five rungs. -/
def ladder : List Sample := [Mode.m2, Mode.m4].flatMap fun m => (List.range 15).flatMap fun k => (List.range 5).map fun r =>
  { mode := m, rung := Fin.ofNat 9 r, copy := false, k := k, level := 0 }

/-- `live` with those five rungs written on die 0, each at a time of its own. -/
def laddered : State := { live with
  tally.now := 0x100000000
  med.dies := [(0, { identified := true, used := true, tables := true, sentinels := [Mode.m2, Mode.m4].flatMap fun m => (List.range 5).map fun r =>
    { mode := m, rung := Fin.ofNat 9 r, copy := false, written := 2 ^ (2 * r) } })] }

/-- A work queue entry of an opcode, with the rest zero. -/
def wqe (op : Fin 5) : Wqe := {
  opcode := op, signal := true, wait := false, localKey := 0, localVa := 0, length := 0, remoteKey := 0, remoteVa := 0, imm := 0, waitCq := 0
  waitCount := 0, idx := 0 }

/-- A Tandem flit of payload with SEQ 0. -/
def goodTFlit : TFlit := mkTFlit 0 0 1 0

set_option maxRecDepth 100000 in
theorem goodTFlit_ok : tflitBad goodTFlit = false ∧ tflitSeq goodTFlit = 0 := by decide +kernel

/-! ### WellFormed: a command that no sender can spell, one for each check -/

/-- A frame header with a session and an FSEQ, of a HEARTBEAT. -/
def frameOf (session : Word) (fseq : Nat) (tagOk : Bool := true) : TFrame :=
  { header := frameHeader (.heartbeat 0 0 0 .green) false session fseq, tagOk := tagOk }

def tf : TFrame := frameOf 1 1

/-- A frame of a reserved KIND, which every command of the link may carry. -/
def noKind : TFrame := { header := 0 }

theorem test_refuses_tag : Instr.wellFormed (.cxlMemrd 0 0 65536 (.hpa 0)) = false := by decide
theorem test_refuses_unaligned_hpa : Instr.wellFormed (.cxlMemspecrd 0 0 (.hpa 32)) = false := by decide
theorem test_refuses_wide_hpa : Instr.wellFormed (.cxlMemspecrd 0 0 (.hpa (2 ^ 52))) = false := by decide
theorem test_refuses_unaligned_view : Instr.wellFormed (.cxlMemspecrd 0 0 (.benchView 32)) = false := by decide
theorem test_refuses_size : Instr.wellFormed (.csrWrite (.core 0) none 0 3 true 0) = false := by decide
theorem test_refuses_past_window : Instr.wellFormed (.aliasWrite (.core 0) .set 4194303 4 true 0) = false := by decide
theorem test_refuses_params : Instr.wellFormed (.identify { chan := 0, params := List.replicate 61 0 }) = false := by decide
theorem test_refuses_words : Instr.wellFormed (.mctpMessage 0 (List.replicate 65 0) true) = false := by decide
theorem test_refuses_times : Instr.wellFormed (.tandemSync false noKind { t1 := 0, t2 := 0, t3 := 2 ^ 64, t4 := 0 } .none .untrusted) = false := by decide
theorem test_refuses_line : Instr.wellFormed (.tandemReadAssistRequest false noKind 0 0 (2 ^ 39) 1) = false := by decide
theorem test_refuses_count : Instr.wellFormed (.tandemReadAssistRequest false noKind 0 0 0 257) = false := by decide
theorem test_refuses_no_count : Instr.wellFormed (.tandemReadAssistRequest false noKind 0 0 0 0) = false := by decide
theorem test_refuses_entries : Instr.wellFormed (.tandemMirror false noKind (List.replicate 16 { region := 0, line := 0 })) = false := by decide
theorem test_refuses_entry_line : Instr.wellFormed (.tandemForward false noKind [{ region := 0, line := 2 ^ 39 }]) = false := by decide
theorem test_refuses_entry_region : Instr.wellFormed (.tandemResync false noKind [{ region := 4096, line := 0 }]) = false := by decide
theorem test_refuses_dirty : Instr.wellFormed (.mirrorDone false noKind (2 ^ 17) .green 0 0) = false := by decide
theorem test_refuses_extent : Instr.wellFormed (.releaseDc 0 0 [{ dc := 0, off := 2 ^ 64, len := 1 }]) = false := by decide
theorem test_refuses_packet : Instr.wellFormed (.rdmaWrite 0 { psn := 0, pos := .only, len := 2 ^ 31 + 1 }) = false := by decide
theorem test_refuses_packet_va : Instr.wellFormed (.rdmaWrite 0 { psn := 0, pos := .only, va := 2 ^ 64 }) = false := by decide
theorem test_refuses_reach : Instr.wellFormed (.rdmaRead 0 0 0 0 (2 ^ 32) false true) = false := by decide
theorem test_refuses_loops : Instr.wellFormed (.programDone 0 0 0 { loops := 256 }) = false := by decide
theorem test_refuses_margin : Instr.wellFormed (.programDone 0 0 0 { margin := 16 }) = false := by decide
theorem test_refuses_log : Instr.wellFormed (.qmiInfoResponse 0 0 0 (.log [{ tag := 0, done := { loops := 256 } }])) = false := by decide
theorem test_refuses_sett : Instr.wellFormed (.emergencyRemapStart (2 ^ 31)) = false := by decide
theorem test_refuses_dram : Instr.wellFormed (.dramReadCe (2 ^ 42) []) = false := by decide
theorem test_refuses_descriptor : Instr.wellFormed (.packageReady 0 false 0 []) = false := by decide
theorem test_refuses_temps : Instr.wellFormed (.sidebandTempPoll 0 []) = false := by decide
theorem test_refuses_ages : Instr.wellFormed (.eyebrightPowerupCompare 0 [(2304, [])]) = false := by decide
theorem test_refuses_level : Instr.wellFormed (.eyebrightCalibration 0 [{ mode := .m4, rung := 0, copy := false, k := 0, level := 65536 }]) = false := by
  decide
theorem test_refuses_boundary : Instr.wellFormed (.fullSweepDone 0 [{ mode := .m4, rung := 0, copy := false, k := 15, level := 0 }]) = false := by
  decide
theorem test_refuses_suspends : Instr.wellFormed (.programDone 0 0 0 { suspends := 5 }) = false := by decide
theorem test_refuses_vault_page : Instr.wellFormed (.vaultPageProgramDone 65536 true) = false := by decide
theorem test_refuses_delay : Instr.wellFormed (.ptpDelayResp 0 (2 ^ 64)) = false := by decide
theorem test_refuses_bootstrap : Instr.wellFormed (.bootstrapWrite 0 (List.replicate 257 0)) = false := by decide +kernel
theorem test_refuses_decoder : Instr.wellFormed (.hdmDecoderCommit 0 0 0 { base := 2 ^ 64 }) = false := by decide
theorem test_refuses_atomic : Instr.wellFormed (.rdmaCmpswap 0 0 0 (2 ^ 64) 0 0 false true) = false := by decide
theorem test_refuses_timestamp : Instr.wellFormed (.setTimestamp 0 0 (2 ^ 64)) = false := by decide
theorem test_refuses_kind : Instr.wellFormed (.capState false tf .green) = false := by decide +kernel
theorem test_refuses_response : Instr.wellFormed (.tandemReadAssistReply false { header := frameHeader (.assistReq 0 0 0 1) false 1 1 } 0 0 true .zero) = false := by
  decide +kernel

/-! ### Commands -/

/-- `f` of the state after a command, where it answers one. -/
def after (i : Instr) (s : State) (f : State → Bool) : Bool :=
  match exec i s with
  | .next t => f t
  | _ => false

/-- Channel 0 is Shelf's from reset (R338). -/
theorem test_reset_shelf : (State.reset.chan 0).who = .shelf := by decide

/-- The CRC-16 of R69 on its common check string, 123456789. -/
theorem test_crc16 : crc16 [0x31, 0x32, 0x33, 0x34, 0x35, 0x36, 0x37, 0x38, 0x39] = 0x29B1#16 := by decide +kernel

/-- Exponent 1 and mantissa 0 code a WEAR of 2,048 (R133). -/
theorem test_wear_code : wearN 0x0800#16 = 2048 := by decide

/-- The first two OTP groups blown mean FIELD_OPEN (R387). -/
theorem test_life_code : lifeOf 0xFFFFFFFF#80 = .fieldOpen := by decide

/-- The right kick restarts stage 1 at 2,000 ms from stage 2 (R417). -/
theorem test_wdg_kick : after (.wdgKick 0x4B1C#32) { live.setBit Reg.WDG_CTRL 0 0 true with wdg.stage := .stage2 }
    (fun t => t.wdg.stage == .stage1 && t.wdg.ms == 2000) = true := by decide +kernel

/-- Stage 1 ends in stage 2 with 1,000 ms (R417). -/
theorem test_wdg_stage1 : after .stage1 { live with wdg.stage := .stage1 } (fun t => t.wdg.stage == .stage2 && t.wdg.ms == 1000) = true := by
  decide +kernel

/-- A write of 2 bytes does not change a register (R25). -/
theorem test_csr_bad_size : after (.csrWrite (.core 0) none (Fin.ofNat _ (Reg.EVR_CTRL.at 0)) 2 true 1) live
    (fun t => t.reg Reg.EVR_CTRL == live.reg Reg.EVR_CTRL && t.bit Reg.TOP_BUSERR_INFO 0 31) = true := by decide +kernel

/-- An idle step with a started Tally counts one tick (R47). -/
theorem test_idle_tick : (match step { live with tally.now := 41 } with
    | .next t => t.tally.now == 42
    | _ => false) = true := by decide +kernel

/-- A step takes the front command alone. -/
theorem test_step_front : (match step { live with wdg.stage := .stage1, pending := [.stage1, .tslPassNow] } with
    | .next t => t.pending == [.tslPassNow] && t.wdg.stage == .stage2
    | _ => false) = true := by decide +kernel

/-- Without a decision table of bits no word spells a command, and nothing is put in front. -/
theorem test_no_word (n w : Nat) : decodeTableWord n w = none := rfl

/-! ### Witnesses -/

/-- The hypotheses of `Obligations.StepRunsFront` can be met, clause by clause. -/
theorem test_witness_StepRunsFront :
    ∃ (c : Instr) (rest : List Instr) (s : State), s.pending = c :: rest :=
  ⟨.noSource, [], { State.reset with pending := [.noSource] }, rfl⟩

/-- The hypotheses of `Obligations.ResetRegisters` can be met, clause by clause. -/
theorem test_witness_ResetRegisters :
    ∃ (c : Nat), c ≠ 0 :=
  ⟨1, by decide +kernel⟩

/-- The hypotheses of `Obligations.IdleStep` can be met, clause by clause. -/
theorem test_witness_IdleStep :
    (∃ (s : State), s.pending = [] ∧ (∀ c : Fin 64, (s.chan c).held = []) ∧ s.psq.vaon = false) ∧
    (∃ (s : State), s.pending = [] ∧ (∀ c : Fin 64, (s.chan c).held = []) ∧ s.psq.vaon = true ∧ s.tally.catchup = false ∧ s.tally.slew = 0) ∧
    (∃ (s : State), s.pending = [] ∧ (∀ c : Fin 64, (s.chan c).held = []) ∧ s.psq.vaon = true ∧ s.tally.catchup = false ∧ s.tally.slew ≠ 0 ∧
        s.tally.phase % 1000 ≠ 999) ∧
    (∃ (s : State), s.pending = [] ∧ (∀ c : Fin 64, (s.chan c).held = []) ∧ s.psq.vaon = true ∧ s.tally.catchup = false ∧ s.tally.slew ≠ 0 ∧
        s.tally.phase % 1000 = 999) ∧
    (∃ (s : State), s.pending = [] ∧ (∀ c : Fin 64, (s.chan c).held = []) ∧ s.psq.vaon = true ∧ s.tally.catchup = true) ∧
    (∃ (s : State), s.pending = [] ∧ (∀ c : Fin 64, (s.chan c).held = []) ∧ s.psq.vaon = true ∧ s.tally.jumpPending = true) :=
  ⟨⟨{}, by decide +kernel, by decide, by decide +kernel⟩,
    ⟨{ live with tally.catchup := false }, by decide +kernel, by decide +kernel, by decide +kernel⟩,
    ⟨{ live with tally.slew := 1 }, by decide +kernel, by decide +kernel, by decide +kernel⟩,
    ⟨{ live with tally.slew := 1, tally.phase := 1999 }, by decide +kernel, by decide +kernel, by decide +kernel⟩,
    ⟨{ live with tally.catchup := true }, by decide +kernel, by decide +kernel, by decide +kernel⟩,
    ⟨{ live with tally.jumpPending := true }, by decide +kernel, by decide +kernel, by decide +kernel⟩⟩

/-- The hypotheses of `Obligations.FlashEvents` can be met, clause by clause. -/
theorem test_witness_FlashEvents :
    (∃ (s : State), (s.flash.state = .program ∨ s.flash.state = .erase) ∧ s.bit Reg.FLS_CTRL 0 0 = true ∧ s.wdg.hold = false) ∧
    (∃ (s : State) (p : FlashPart) (n : Nat) (u : Bool) (ops : List FlashOp), s.flash.state = .suspended ∧ s.flash.ops = .program p n u :: ops) ∧
    (∃ (s : State) (p : FlashPart) (n : Nat) (ops : List FlashOp), s.flash.state = .suspended ∧ s.flash.ops = .erase p n :: ops) ∧
    (∃ (s : State) (len : Word), s.flash.cores = .loader ∧ len.toNat ≤ 4194304) ∧
    (∃ (s : State), (s.wdg.stage = .stage1 ∨ s.wdg.stage = .stage2) ∧ s.bit Reg.WDG_CTRL 0 0 = true) ∧
    (∃ (s : State), s.psq.vaon = true ∧ s.wdg.stage = .stage1) ∧
    (∃ (s : State) (offset : Word) (bytes : List Byte) (k : Nat), k < bytes.length ∧ s.flash.cores = .loader ∧ offset ≠ 0xFFFFFFFF#32 ∧
        bytes.length ≤ 256) :=
  ⟨⟨{ live.setBit Reg.FLS_CTRL 0 0 true with flash.state := .erase }, by decide +kernel⟩,
    ⟨{ live with flash.state := .suspended, flash.ops := [.program .slotA 0 true] }, .slotA, 0, true, [], by decide +kernel⟩,
    ⟨{ live with flash.state := .suspended, flash.ops := [.erase .slotA 0] }, .slotA, 0, [], by decide +kernel⟩,
    ⟨{ live with flash.cores := .loader }, 4194304#32, by decide +kernel⟩,
    ⟨{ live.setBit Reg.WDG_CTRL 0 0 true with wdg.stage := .stage2 }, by decide +kernel⟩,
    ⟨{ live with wdg.stage := .stage1 }, by decide +kernel⟩,
    ⟨{ live with flash.cores := .loader }, 0xFFFFFFFE#32, List.replicate 256 0, 255, by decide +kernel⟩⟩

/-- The hypotheses of `Obligations.NvVaultRecorder` can be met, clause by clause. -/
theorem test_witness_NvVaultRecorder :
    (∃ (s : State), s.psq.vaon = true ∧ s.bit Reg.NVS_CTRL 0 8 = true) ∧
    (∃ (s : State), s.psq.vaon = true) ∧
    (∃ (s : State), s.psq.vaon = true) ∧
    (∃ (s : State), s.psq.mainUp = true ∧ s.flash.cores ≠ .off ∧ s.vaultSources < 256 ∧ 4096 ≤ s.evr.next.toNat - s.evr.paged.toNat) ∧
    (∃ (s : State) (i : Nat) (p : VaultPage) (q : VaultPage), s.psq.mainUp = true ∧ s.evr.archiving = false ∧ s.flash.pages[i]? = some q ∧
        s.flash.pages[i + 1]? = some p ∧ p.upper = true ∧ q.upper = false ∧ q.bad = false ∧ q.kind = p.kind) ∧
    (∃ (s : State) (kind : Fin 4) (p : VaultPage), s.psq.mainUp = true ∧ s.vaultLast kind = some p ∧ p.upper = false ∧ p.settled = false ∧
        p.bad = false ∧ (s.flash.pages.filter fun q => q.kind == kind).length < vaultSectors kind * 256) :=
  ⟨⟨live.setBit Reg.NVS_CTRL 0 8 true, by decide +kernel⟩,
    ⟨live, by decide +kernel⟩,
    ⟨live, by decide +kernel⟩,
    ⟨{ live with evr.next := 4096 }, by decide +kernel⟩,
    ⟨{ live with flash.pages := [{ kind := 0, pseq := 0, data := .pad 0 }, { kind := 0, pseq := 1, data := .pad 0, upper := true }] }, 0,
        { kind := 0, pseq := 1, data := .pad 0, upper := true }, { kind := 0, pseq := 0, data := .pad 0 }, by decide +kernel⟩,
    ⟨{ live with flash.pages := [{ kind := 0, pseq := 0, data := .pad 0 }] }, 0, { kind := 0, pseq := 0, data := .pad 0 }, by decide +kernel⟩⟩

/-- The hypotheses of `Obligations.DrainTriggers` can be met, clause by clause. -/
theorem test_witness_DrainTriggers :
    (∃ (s : State), s.psq.vaon = true ∧ s.psq.down = none ∧ s.bench.domain = .opened ∧ s.psq.pstate = .active) ∧
    (∃ (s : State), s.psq.vaon = true ∧ s.psq.down = none ∧ s.bench.domain = .opened ∧ s.psq.pstate = .active) ∧
    (∃ (s : State), s.psq.vaon = true ∧ s.wdg.stage = .stage2 ∧ s.psq.down = none ∧ s.bench.domain = .opened) ∧
    (∃ (s : State), s.psq.mainUp = true ∧ s.psq.tripHold = false ∧ s.psq.down = none ∧ s.bench.domain = .opened) ∧
    (∃ (s : State), s.psq.vaon = true ∧ s.psq.mrLow = false ∧ s.psq.pstate ≠ .dormant ∧ s.psq.pstate ≠ .lockout ∧ s.psq.down = none ∧
        s.bench.domain = .opened) ∧
    (∃ (s : State), s.psq.vaon = true ∧ s.bit Reg.PSQ_CTRL 0 2 = true ∧ (s.psq.pstate = .active ∨ s.psq.pstate = .idle) ∧ s.psq.down = none ∧
        s.bench.domain = .opened) ∧
    (∃ (s : State), s.psq.vaon = true ∧ (s.psq.pstate = .active ∨ s.psq.pstate = .idle) ∧ s.psq.down = none ∧ s.bench.domain = .opened) ∧
    (∃ (s : State) (g : Drain), s.bench.domain = .opened ∧ s.bench.drain = some g ∧ g.flush = true ∧ s.flushOver = true) ∧
    (∃ (s : State) (g : Drain), s.bench.domain = .draining ∧ s.bench.drain = some g ∧ g.frames = [] ∧ g.lost = false ∧ s.bench.reaction = 1 ∧
        s.flash.state ≠ .idle ∧ s.bench.triggers &&& codeMask [1, 2, 6] = 0) ∧
    (∃ (s : State) (g : Drain), s.bench.domain = .draining ∧ s.bench.drain = some g ∧ g.frames = [] ∧ g.lost = false ∧ s.bench.reaction = 1 ∧
        s.flash.state = .idle ∧ s.psq.pstate = .active) :=
  ⟨⟨live, by decide +kernel⟩,
    ⟨live, by decide +kernel⟩,
    ⟨{ live with wdg.stage := .stage2 }, by decide +kernel⟩,
    ⟨live, by decide +kernel⟩,
    ⟨live, by decide +kernel⟩,
    ⟨{ live.setBit Reg.PSQ_CTRL 0 2 true with psq.pstate := .idle }, by decide +kernel⟩,
    ⟨{ live with psq.pstate := .idle }, by decide +kernel⟩,
    ⟨{ live with bench.drain := some { flush := true } }, { flush := true }, by decide +kernel⟩,
    ⟨{ live with bench.domain := .draining, bench.drain := some {}, bench.reaction := 1, flash.state := .program }, {}, by decide +kernel⟩,
    ⟨{ live with bench.domain := .draining, bench.drain := some {}, bench.reaction := 1 }, {}, by decide +kernel⟩⟩

/-- The hypotheses of `Obligations.RailSequencing` can be met, clause by clause. -/
theorem test_witness_RailSequencing :
    (∃ (s : State) (k : Fin 24) (t0 : Trans), s.psq.trans = some t0 ∧ t0.goingDown = false ∧ s.psq.waiting.off = false ∧ t0.rails.getLsbD k = true ∧
        (s.rail k).state = .wait ∧ s.psq.inputGood = true ∧ (∀ j < 24,
        (s.seq k).dep.getLsbD j = true → t0.rails.getLsbD j = true → (s.seq j).en = true → (s.rail j).state = .on)) ∧
    (∃ (s : State) (k : Fin 24) (t0 : Trans) (j : Fin 24), s.psq.trans = some t0 ∧ t0.goingDown = false ∧ s.psq.waiting.off = false ∧
        t0.rails.getLsbD k = true ∧ ((s.rail k).state = .ramp ∨ (s.rail k).state = .qual) ∧ j ≠ k ∧ t0.rails.getLsbD j = true ∧
        (s.rail j).state ≠ .on) ∧
    (∃ (s : State) (k : Fin 24) (j : Fin 24) (t0 : Trans), s.psq.trans = some t0 ∧ t0.goingDown = false ∧ t0.kind = .powerUp ∧
        s.psq.waiting.off = false ∧ t0.rails.getLsbD k = true ∧ ((s.rail k).state = .ramp ∨ (s.rail k).state = .qual) ∧ t0.rails.getLsbD j = true ∧
        (s.rail j).en = true ∧ (s.rail j).pg = true) ∧
    (∃ (s : State) (k : Fin 24) (t0 : Trans), s.psq.trans = some t0 ∧ t0.goingDown = false ∧ t0.rails.getLsbD k = true ∧
        ((s.rail k).state = .ramp ∨ (s.rail k).state = .qual) ∧ (s.rail k).drops < (s.seq k).nChat) ∧
    (∃ (s : State), s.psq.backoff = true ∧ s.psq.pstate = .poweringUp) ∧
    (∃ (s : State) (k : Fin 24) (j : Fin 24) (t0 : Trans), s.psq.trans = some t0 ∧ t0.goingDown = true ∧ (s.rail k).en = false ∧
        (s.rail k).pg = true ∧ (s.rail k).state = .on ∧ j ≠ k ∧ t0.rails.getLsbD j = true ∧ (s.rail j).pg = true) ∧
    (∃ (s : State) (k : Fin 24) (t0 : Trans), s.psq.trans = some t0 ∧ t0.goingDown = true ∧ t0.rails.getLsbD k = true ∧ (s.rail k).en = true ∧
        (s.rail k).pg = true ∧ (∀ j ∈ dependsOn s.psq.seqAct t0.rails k, (s.rail j).en = false ∧ (s.rail j).pg = false)) ∧
    (∃ (s : State) (k : Fin 24), (s.rail k).state = .on ∧ (s.rail k).en = true ∧ s.psq.down = none ∧ s.psq.trans = none ∧ s.railReaction k = 0) ∧
    (∃ (s : State) (k : Fin 24), (s.rail k).state = .on ∧ (s.rail k).en = true ∧ s.psq.down = none ∧ s.psq.trans = none ∧ s.railReaction k = 3 ∧
        s.bench.domain = .opened) ∧
    (∃ (s : State) (k : Fin 24), (s.rail k).state = .on ∧ (s.rail k).en = true ∧ (s.rail k).glitches ≠ 0xFF#8) ∧
    (∃ (s : State), s.psq.vaon = true ∧ s.bit Reg.PSQ_LOCK 0 0 = false ∧ s.psq.trans = none ∧ (∀ k < 24, (seqAt s.psq.seqSh k).inRange = true) ∧
        seqCyclic s.psq.seqSh = false) ∧
    (∃ (s : State), s.psq.vaon = true ∧ s.bit Reg.PSQ_LOCK 0 0 = false ∧ s.psq.trans.isSome = true) ∧
    (∃ (s : State), s.psq.vaon = true ∧ s.bit Reg.PSQ_LOCK 0 0 = false ∧ s.mapError (s.reg Reg.PSQ_MGMAP0) (s.reg Reg.PSQ_MGMAP1) = 0) :=
  ⟨⟨{ live with psq.trans := some { kind := .powerUp, rails := 1 }, psq.rails := [(0, { state := .wait })] }, 0, { kind := .powerUp, rails := 1 },
      by decide +kernel⟩,
    ⟨{ live with psq.trans := some { kind := .powerUp, rails := 3 }, psq.rails := [(0, { state := .ramp }), (1, { state := .wait })] }, 0,
        { kind := .powerUp, rails := 3 }, 1, by decide +kernel⟩,
    ⟨{ live with psq.trans := some { kind := .powerUp, rails := 3 }, psq.rails := [(0, { state := .qual }), (1, { en := true, pg := true })] }, 0, 1,
        { kind := .powerUp, rails := 3 }, by decide +kernel⟩,
    ⟨{ live with psq.trans := some { kind := .powerUp, rails := 1 }, psq.rails := [(0, { state := .qual, drops := 5 })] }, 0,
        { kind := .powerUp, rails := 1 }, by decide +kernel⟩,
    ⟨{ live with psq.backoff := true, psq.pstate := .poweringUp }, by decide +kernel⟩,
    ⟨{ live with psq.trans := some { kind := .powerDown, rails := 3, goingDown := true }, psq.rails := [(0, { state := .on, pg := true }), (1, { pg := true })] },
        0, 1, { kind := .powerDown, rails := 3, goingDown := true }, by decide +kernel⟩,
    ⟨{ live with psq.trans := some { kind := .powerDown, rails := 1, goingDown := true }, psq.rails := [(0, { en := true, pg := true })] }, 0,
        { kind := .powerDown, rails := 1, goingDown := true }, by decide +kernel⟩,
    ⟨{ live.setReg Reg.PSQ_REACTION0 0 0 with psq.rails := [(0, { state := .on, en := true })] }, 0, by decide +kernel⟩,
    ⟨{ live with psq.rails := [(0, { state := .on, en := true })] }, 0, by decide +kernel⟩,
    ⟨{ live with psq.rails := [(0, { state := .on, en := true, glitches := 0xFE })] }, 0, by decide +kernel⟩,
    ⟨live, by decide +kernel, by decide +kernel, by decide +kernel, by decide +kernel, by decide +kernel⟩,
    ⟨{ live with psq.trans := some { kind := .powerUp, rails := 1 } }, by decide +kernel⟩,
    ⟨live, by decide +kernel⟩⟩

/-- The hypotheses of `Obligations.PowerStates` can be met, clause by clause. -/
theorem test_witness_PowerStates :
    (∃ (s : State), s.psq.vaon = false ∧ s.bit Reg.PSQ_CTRL 0 0 = false) ∧
    (∃ (s : State), s.psq.vaon = true ∧ s.psq.inputGood = false ∧ s.psq.pstate = .dormant ∧ s.psq.offByInput = true ∧ s.psq.coolOff = false ∧
        s.psq.tripHold = false) ∧
    (∃ (s : State), s.psq.waiting.on = true ∧ s.psq.pstate = .dormant ∧ s.psq.tripHold = false ∧ s.psq.inputGood = true) ∧
    (∃ (s : State), s.psq.tripHold = true ∧ s.psq.pstate = .dormant ∧ s.psq.waiting.on = true ∧ s.psq.coolOff = false ∧ s.psq.inputGood = true) ∧
    (∃ (s : State), s.psq.tripHold = true ∧ s.psq.pstate = .dormant ∧ s.psq.waiting.on = false) ∧
    (∃ (s : State), s.psq.vaon = true ∧ s.bit Reg.PSQ_CTRL 0 2 = true ∧ s.psq.pstate = .dormant ∧ s.psq.coolOff = false ∧ s.psq.tripHold = false ∧
        s.psq.inputGood = true) ∧
    (∃ (s : State), s.psq.vaon = true ∧ s.bit Reg.PSQ_CTRL 0 2 = true ∧ (s.psq.pstate = .active ∨ s.psq.pstate = .idle) ∧ s.psq.down = none ∧
        s.bench.domain = .opened) ∧
    (∃ (s : State), s.psq.pstate = .active ∧ s.psq.mainUp = true ∧ s.bit Reg.PSQ_CTRL 0 1 = true) ∧
    (∃ (s : State), s.psq.pstate = .idle) ∧
    (∃ (s : State), s.psq.pstate = .enteringKeep ∧ s.psq.trans = none ∧ s.bench.domain ≠ .opened ∧ s.bench.domain ≠ .draining ∧
        s.allOff s.keepRailsSet = true ∧ s.psq.waiting.keepLeave = false) ∧
    (∃ (s : State), s.psq.vaon = true ∧ s.psq.pstate = .keep) ∧
    (∃ (s : State), s.psq.vaon = true ∧ s.psq.warm = true ∧ s.psq.mrLow = false ∧ s.psq.trans = none ∧ s.psq.backoff = false ∧
        s.psq.pstate = .active) ∧
    (∃ (s : State), s.psq.pstate = .leavingKeep ∧ s.psq.trans = none ∧ s.psq.backoff = false ∧ s.psq.mainUp = true ∧
        s.allRails s.enabledRails .on = true ∧ s.tablesLoaded = true ∧ s.psq.waiting.keepEnter = false) ∧
    (∃ (s : State) (g : Fin 9) (j : Fin 24), s.psq.pstate = .keep ∧ s.psq.burst = some g ∧ s.psq.trans = none ∧ (s.pass g).running = false ∧
        (s.pass g).waiting = false ∧ s.med.yarrow.moves = [] ∧ s.burstWork g = false ∧ (s.seq j).group = 4 ∧ (s.seq j).keep = 2 ∧
        (s.rail j).en = true ∧ (s.rail j).pg = true) :=
  ⟨⟨State.reset.setBit Reg.PSQ_CTRL 0 0 false, by decide +kernel⟩,
    ⟨{ live with psq.pstate := .dormant, psq.inputGood := false, psq.offByInput := true }, by decide +kernel⟩,
    ⟨{ live with psq.pstate := .dormant, psq.waiting.on := true }, by decide +kernel⟩,
    ⟨{ live with psq.pstate := .dormant, psq.waiting.on := true, psq.tripHold := true }, by decide +kernel⟩,
    ⟨{ live with psq.pstate := .dormant, psq.tripHold := true }, by decide +kernel⟩,
    ⟨{ live.setBit Reg.PSQ_CTRL 0 2 true with psq.pstate := .dormant }, by decide +kernel⟩,
    ⟨{ live.setBit Reg.PSQ_CTRL 0 2 true with psq.pstate := .idle }, by decide +kernel⟩,
    ⟨live.setBit Reg.PSQ_CTRL 0 1 true, by decide +kernel⟩,
    ⟨{ live with psq.pstate := .idle }, by decide +kernel⟩,
    ⟨{ live with psq.pstate := .enteringKeep, bench.domain := .closed }, by decide +kernel⟩,
    ⟨{ live with psq.pstate := .keep }, by decide +kernel⟩,
    ⟨{ live with psq.warm := true }, by decide +kernel⟩,
    ⟨{ live with psq.pstate := .leavingKeep, psq.rails := (List.range 24).map fun k => (k, { state := .on }) }, by decide +kernel⟩,
    ⟨{ live with psq.pstate := .keep, psq.burst := some 0, psq.rails := [(7, { en := true, pg := true })] }, 0, 7, by decide +kernel⟩⟩

/-- The hypotheses of `Obligations.FlashAndCores` can be met, clause by clause. -/
theorem test_witness_FlashAndCores :
    (∃ (s : State) (o : FlashOp), s.flash.ops = [o] ∧ s.flash.state ≠ .suspended ∧ s.flash.work = none ∧ s.psq.flashHold = none) ∧
    (∃ (s : State) (p : FlashPart) (n : Nat) (u : Bool) (rest : List FlashOp), s.flash.ops = .program p n u :: rest ∧ s.flash.state ≠ .suspended ∧
        s.flash.work = none ∧ s.psq.flashHold = none) ∧
    (∃ (s : State) (p : FlashPart) (n : Nat) (rest : List FlashOp), s.flash.ops = .erase p n :: rest ∧ s.flash.state ≠ .suspended ∧
        s.flash.work = none ∧ s.psq.flashHold = none) ∧
    (∃ (s : State), s.psq.flashHold = some .warm ∧ s.psq.pstate = .active) ∧
    (∃ (s : State) (cause : Fin 4), cause ≠ 2 ∧ s.flash.cores = .running ∧ s.flash.slots.trial = false ∧ s.flash.restartAt = [] ∧
        s.bootable s.flash.slots.active s.arb = true) ∧
    (∃ (s : State), s.psq.mainUp = true ∧ s.flash.cores = .restarting ∧ s.xlt.load ≠ .empty ∧ s.flash.work = none ∧ s.rdma.asks = [] ∧ (∀ c : Nat,
        (s.chan c).held = []) ∧ s.bit Reg.WDG_CTRL 0 0 = true) ∧
    (∃ (s : State), s.flash.cores = .running ∧ s.flash.slots.trial = true ∧ s.flash.slots.restarts ≠ 3 ∧ s.flash.runSlot = s.flash.slots.active ∧
        (s.image s.flash.slots.active).state = .valid) :=
  ⟨⟨{ live with flash.ops := [.erase .slotB 0] }, .erase .slotB 0, by decide +kernel⟩,
    ⟨{ live with flash.ops := [.program .slotA 0 true] }, .slotA, 0, true, [], by decide +kernel⟩,
    ⟨{ live with flash.ops := [.erase .slotA 0] }, .slotA, 0, [], by decide +kernel⟩,
    ⟨{ live with psq.flashHold := some .warm }, by decide +kernel⟩,
    ⟨live, 3, by decide +kernel⟩,
    ⟨{ live.setBit Reg.WDG_CTRL 0 0 true with flash.cores := .restarting }, by decide +kernel, by decide +kernel, by decide +kernel,
        by decide +kernel, by decide +kernel, fun c => by cases c <;> rfl, by decide +kernel⟩,
    ⟨{ live with flash.slots.trial := true, flash.slots.restarts := 2 }, by decide +kernel⟩⟩

/-- The hypotheses of `Obligations.TimeSources` can be met, clause by clause. -/
theorem test_witness_TimeSources :
    (∃ (s : State) (m : Fin 32) (offset : Int) (v : Dword), s.psq.mainUp = true ∧ s.ptpOn m = true ∧ s.rdma.ptpMac = some m ∧ offset.natAbs ≤ 1000 ∧
        7 ≤ s.tally.ptpGood ∧ s.tally.ptpHoldoff = false ∧ s.tally.ptpOverridden = false ∧ s.bit Reg.TLY_CTRL 0 0 = true ∧
        s.tally.jumpPending = false ∧ s.tally.floor.tally ≤ v ∧ v.toNat ≤ s.tally.now.toNat + 30 * 86400 * 65536) ∧
    (∃ (s : State) (m : Fin 32), s.psq.mainUp = true ∧ s.ptpOn m = true) ∧
    (∃ (s : State) (m : Fin 32), s.psq.mainUp = true ∧ s.ptpOn m = true) ∧
    (∃ (s : State) (m : Fin 32), s.ptpOn m = true ∧ (s.mac m).dreqSent = true) ∧
    (∃ (s : State), s.psq.vaon = true ∧ s.bit Reg.TLY_CTRL 0 3 = true ∧ s.tally.ppsEdges = 63) ∧
    (∃ (s : State), s.psq.vaon = true ∧ s.bit Reg.TLY_CTRL 0 3 = true ∧ s.tally.ppsLock = true) ∧
    (∃ (s : State), s.tally.ppsLock = true) ∧
    (∃ (s : State), s.psq.mainUp = true ∧ s.tally.acquiring = true ∧ s.tally.started = false ∧ s.tally.ptpQualified = false ∧
        s.tally.secQualified = false ∧ s.tally.twinQualified = false ∧ s.tally.ppsLock = false) :=
  ⟨⟨{ live.setBit Reg.TLY_CTRL 0 0 true with rdma.ptpMac := some 0, tally.ptpGood := 7 }, 0, -1000, 169869312000#64, by decide +kernel⟩,
    ⟨live, 0, by decide +kernel⟩,
    ⟨live, 0, by decide +kernel⟩,
    ⟨{ live with rdma.macs := [(0, { up := true, dreqSent := true })] }, 0, by decide +kernel⟩,
    ⟨{ live.setBit Reg.TLY_CTRL 0 3 true with tally.ppsEdges := 63 }, by decide +kernel⟩,
    ⟨{ live.setBit Reg.TLY_CTRL 0 3 true with tally.ppsLock := true }, by decide +kernel⟩,
    ⟨{ live with tally.ppsLock := true }, by decide +kernel⟩,
    ⟨{ live with tally.acquiring := true, tally.started := false }, by decide +kernel⟩⟩

/-- The hypotheses of `Obligations.EpochAndWake` can be met, clause by clause. -/
theorem test_witness_EpochAndWake :
    (∃ (s : State), s.psq.vaon = true) ∧
    (∃ (s : State), s.psq.mainUp = true ∧ s.deadline ≤ s.tally.now.toNat ∧ s.earliestDeadline = none) ∧
    (∃ (s : State) (x : Int) (d : Nat), s.psq.mainUp = true ∧ s.deadline ≤ s.tally.now.toNat ∧ s.earliestDeadline = some (x, d) ∧
        s.evt.raw.getLsbD 158 = false ∧ (s.psq.pstate = .active ∨ s.psq.pstate = .idle)) ∧
    (∃ (s : State), s.psq.vaon = true ∧ s.asleep = true ∧ s.tally.reqLow = false ∧ s.deadline ≤ s.tally.now.toNat ∧
        s.tally.entry.toNat + 60 * 65536 ≤ s.tally.now.toNat) ∧
    (∃ (s : State), s.psq.vaon = true ∧ s.tally.reqLow = true ∧ s.psq.pstate = .dormant ∧ s.psq.coolOff = false ∧ s.psq.tripHold = false ∧
        s.psq.inputGood = true) ∧
    (∃ (s : State), s.psq.vaon = true ∧ s.tally.reqLow = true ∧ s.psq.pstate = .keep) ∧
    (∃ (s : State), s.psq.vaon = true ∧ s.tally.reqLow = true ∧ s.bit Reg.TLY_WAKE_CTRL 0 8 = true ∧
        s.deadline + s.fld Reg.TLY_WAKE_CTRL 0 7 0 * 86400 * 65536 < s.tally.now.toNat ∧ s.psq.pstate = .dormant ∧ s.psq.coolOff = false ∧
        s.psq.tripHold = false ∧ s.psq.inputGood = true) ∧
    (∃ (s : State), s.psq.vaon = true ∧ s.tally.reqLow = true ∧ s.bit Reg.TLY_WAKE_CTRL 0 8 = true ∧
        s.deadline + s.fld Reg.TLY_WAKE_CTRL 0 7 0 * 86400 * 65536 < s.tally.now.toNat ∧ s.psq.pstate = .keep) ∧
    (∃ (s : State) (m : Fin 9) (e : Fin 3), s.psq.mainUp = true ∧ s.bit Reg.ECC_SCRUB_CTRL 0 0 = true ∧ (e ≠ 2 ∨ m = 1)) :=
  ⟨⟨live, by decide +kernel⟩,
    ⟨(live.setReg Reg.TLY_WAKE_DEADLINE_LO 0 0).setReg Reg.TLY_WAKE_DEADLINE_HI 0 0, by decide +kernel⟩,
    ⟨{ (live.setReg Reg.TLY_WAKE_DEADLINE_LO 0 0).setReg Reg.TLY_WAKE_DEADLINE_HI 0 0 with med.setts := [(0, { phys := some ⟨0, 0, 0⟩, mode := .m4, band := true })] },
        _, _, by decide +kernel, by decide +kernel, rfl, by decide +kernel⟩,
    ⟨{ (live.setReg Reg.TLY_WAKE_DEADLINE_LO 0 0).setReg Reg.TLY_WAKE_DEADLINE_HI 0 0 with psq.pstate := .dormant, tally.now := 3932160 },
        by decide +kernel⟩,
    ⟨{ live with psq.pstate := .dormant, tally.reqLow := true }, by decide +kernel⟩,
    ⟨{ live with psq.pstate := .keep, tally.reqLow := true }, by decide +kernel⟩,
    ⟨{ ((live.setReg Reg.TLY_WAKE_DEADLINE_LO 0 0).setReg Reg.TLY_WAKE_DEADLINE_HI 0 0).setReg Reg.TLY_WAKE_CTRL 0 0x100 with psq.pstate := .dormant, tally.reqLow := true, tally.now := 1 },
        by decide +kernel⟩,
    ⟨{ ((live.setReg Reg.TLY_WAKE_DEADLINE_LO 0 0).setReg Reg.TLY_WAKE_DEADLINE_HI 0 0).setReg Reg.TLY_WAKE_CTRL 0 0x100 with psq.pstate := .keep, tally.reqLow := true, tally.now := 1 },
        by decide +kernel⟩,
    ⟨live.setBit Reg.ECC_SCRUB_CTRL 0 0 true, 1, 2, by decide +kernel⟩⟩

/-- The hypotheses of `Obligations.SlotFirings` can be met, clause by clause. -/
theorem test_witness_SlotFirings :
    (∃ (s : State) (k : Fin 256), s.nextDue = some k.val ∧ (s.slot k).action = 1 ∧ (s.psq.pstate = .active ∨ s.psq.pstate = .idle)) ∧
    (∃ (s : State) (k : Fin 256), s.nextDue = some k.val ∧ (s.slot k).action = 1 ∧ s.psq.pstate = .dormant) ∧
    (∃ (s : State) (k : Fin 256), s.nextDue = some k.val ∧ (s.slot k).action = 2 ∧ (s.psq.pstate = .active ∨ s.psq.pstate = .idle)) ∧
    (∃ (s : State) (k : Fin 256), s.nextDue = some k.val ∧ (s.slot k).action = 2 ∧ s.psq.pstate = .dormant) ∧
    (∃ (s : State) (k : Fin 256), s.nextDue = some k.val ∧ (s.slot k).action = 3 ∧
        (s.psq.pstate = .active ∨ s.psq.pstate = .idle ∨ s.psq.pstate = .keep ∨ s.psq.pstate = .dormant)) ∧
    (∃ (s : State) (k : Fin 256), s.nextDue = some k.val ∧ (s.slot k).action = 4 ∧ (s.psq.pstate = .active ∨ s.psq.pstate = .idle)) ∧
    (∃ (s : State) (k : Fin 256), s.nextDue = some k.val ∧ (s.slot k).action = 4 ∧ (s.psq.pstate = .keep ∨ s.psq.pstate = .dormant)) ∧
    (∃ (s : State) (k : Fin 256), s.nextDue = some k.val ∧ (s.slot k).action = 5 ∧ (s.psq.pstate = .active ∨ s.psq.pstate = .idle) ∧
        s.psq.down = none ∧ s.bench.domain = .opened) ∧
    (∃ (s : State) (k : Fin 256), s.nextDue = some k.val ∧ (s.slot k).action = 6 ∧ s.psq.pstate = .keep) ∧
    (∃ (s : State) (k : Fin 256), s.nextDue = some k.val ∧ (s.slot k).action = 7 ∧ (s.psq.pstate = .active ∨ s.psq.pstate = .idle)) ∧
    (∃ (s : State) (k : Fin 256), s.nextDue = some k.val ∧ (s.slot k).action = 7 ∧ s.psq.pstate = .keep ∧ s.dram.burst = false ∧
        s.dram.lastExit = none ∧ s.dram.st = .selfRefresh) ∧
    (∃ (s : State) (k : Fin 256), s.nextDue = some k.val ∧ (s.slot k).action = 8 ∧ s.psq.pstate = .active ∧ s.psq.mainUp = true ∧
        s.bit Reg.EVT_CTRL 0 0 = false ∧ s.bit Reg.EVR_CTRL 0 0 = true ∧
        0 < (Tab.get ({} : Bucket) s.evr.buckets (bucketOf (bitsOf (s.slot k).arg 15 0))).tokens) ∧
    (∃ (s : State) (k : Fin 256), s.nextDue = some k.val ∧ (s.slot k).action = 9 ∧
        (s.psq.pstate = .active ∨ s.psq.pstate = .idle ∨ s.psq.pstate = .keep)) ∧
    (∃ (s : State) (k : Fin 256), s.nextDue = some k.val ∧ (s.slot k).action = 1 ∧ s.psq.pstate = .keep ∧
        ((State.maskGroups (s.slot k).arg).any (fun g => (s.pass g).waiting || (s.burstAt g && (s.pass g).running)) = true ∨ s.sched.marked.getLsbD k = true)) ∧
    (∃ (s : State) (k : Fin 256) (g : Fin 9), s.nextDue = some k.val ∧ (s.slot k).action = 1 ∧ s.psq.pstate = .keep ∧
        (∀ g ∈ State.maskGroups (s.slot k).arg, (s.pass g).waiting = false ∧ (s.burstAt g && (s.pass g).running) = false) ∧
        s.sched.marked.getLsbD k = false ∧ g.val ∈ State.maskGroups (s.slot k).arg ∧ s.psq.burst.isSome = true) ∧
    (∃ (s : State) (k : Fin 256) (g : Fin 9), s.nextDue = some k.val ∧ (s.slot k).action = 1 ∧ s.psq.pstate = .keep ∧ (∀ g < 9,
        (s.pass g).waiting = false ∧ (s.burstAt g && (s.pass g).running) = false) ∧ s.sched.marked.getLsbD k = false ∧
        g.val ∈ State.maskGroups (s.slot k).arg ∧ s.psq.burst = none ∧ s.psq.trans = none) :=
  ⟨⟨{ live with sched.slots := [(0, { arm := true, action := 1 })] }, 0, by decide +kernel⟩,
    ⟨{ live with psq.pstate := .dormant, sched.slots := [(0, { arm := true, action := 1 })] }, 0, by decide +kernel⟩,
    ⟨{ live with sched.slots := [(0, { arm := true, action := 2 })] }, 0, by decide +kernel⟩,
    ⟨{ live with psq.pstate := .dormant, sched.slots := [(0, { arm := true, action := 2 })] }, 0, by decide +kernel⟩,
    ⟨{ live with psq.pstate := .dormant, sched.slots := [(0, { arm := true, action := 3 })] }, 0, by decide +kernel⟩,
    ⟨{ live with sched.slots := [(0, { arm := true, action := 4 })] }, 0, by decide +kernel⟩,
    ⟨{ live with psq.pstate := .dormant, sched.slots := [(0, { arm := true, action := 4 })] }, 0, by decide +kernel⟩,
    ⟨{ live with sched.slots := [(0, { arm := true, action := 5 })] }, 0, by decide +kernel⟩,
    ⟨{ live with psq.pstate := .keep, sched.slots := [(0, { arm := true, action := 6 })] }, 0, by decide +kernel⟩,
    ⟨{ live with sched.slots := [(0, { arm := true, action := 7 })] }, 0, by decide +kernel⟩,
    ⟨{ live with psq.pstate := .keep, sched.slots := [(0, { arm := true, action := 7 })], dram.st := .selfRefresh }, 0, by decide +kernel⟩,
    ⟨{ live.setBit Reg.EVR_CTRL 0 0 true with sched.slots := [(0, { arm := true, action := 8 })] }, 0, by decide +kernel⟩,
    ⟨{ live with psq.pstate := .keep, sched.slots := [(0, { arm := true, action := 9 })] }, 0, by decide +kernel⟩,
    ⟨{ live with psq.pstate := .keep, sched.slots := [(255, { arm := true, action := 1 })], sched.marked := BitVec.allOnes 256 }, 255,
        by decide +kernel⟩,
    ⟨{ live with psq.pstate := .keep, psq.burst := some 1, sched.slots := [(0, { arm := true, action := 1, arg := 1 })] }, 0, 0, by decide +kernel⟩,
    ⟨{ live with psq.pstate := .keep, sched.slots := [(0, { arm := true, action := 1, arg := 0x100 })] }, 0, 8, by decide +kernel⟩⟩

/-- The hypotheses of `Obligations.DramBench` can be met, clause by clause. -/
theorem test_witness_DramBench :
    (∃ (s : State) (a : Nat), s.dramUp = true ∧ a / 64 ∈ s.dram.ceCache ∧ s.dram.injected = none) ∧
    (∃ (s : State) (c : Fin 8) (k : Fin 4) (j : Fin 4) (lost : List DramArray), s.dram.st = .ready ∧ s.rankIn c .copying = some k.val ∧
        s.rankIn c .spare = some j.val ∧ (∀ a ∈ lost, a ≠ .mingaso) ∧ (∀ w < 4, (s.rank c w).waiting = false)) ∧
    (∃ (s : State) (c : Fin 8) (k : Fin 4), s.dramUp = true ∧ (s.rank c k).st = .inService ∧ s.rankIn c .copying = none ∧ (∃ j : Fin 4,
        s.rankIn c .spare = some j.val)) ∧
    (∃ (s : State), s.dramUp = true ∧ s.bit Reg.DRM_CTRL 0 1 = true) ∧
    (∃ (s : State), s.dramUp = true ∧ s.dram.sreq = none) ∧
    (∃ (s : State) (q : Scrub) (ce : Nat) (ue : Nat), s.dram.sreq = some q ∧ ce < 2 ^ 32 ∧ ue < 2 ^ 32) ∧
    (∃ (s : State), s.dram.burst = true ∧ s.psq.pstate ≠ .keep) ∧
    (∃ (s : State), s.dram.burst = true ∧ s.psq.pstate = .keep) ∧
    (∃ (s : State) (a : Nat), s.dramUp = true ∧ s.bit Reg.DRM_INJ_CTRL 0 0 = true ∧
        (s.reg64 Reg.DRM_INJ_ADDR_LO Reg.DRM_INJ_ADDR_HI).toNat / 64 = a / 64) ∧
    (∃ (s : State) (a : Nat) (two : Bool), s.dramUp = true ∧ s.bit Reg.DRM_INJ_CTRL 0 0 = false ∧ s.dram.injected = some (a / 64, two)) ∧
    (∃ (s : State) (d : Fin 16), s.psq.mainUp = true ∧ Tab.get 0 s.dram.missed d = 2) ∧
    (∃ (s : State), s.psq.mainUp = true ∧ s.mapBad ≠ 0) ∧
    (∃ (s : State), s.psq.mainUp = true ∧ s.mapBad = 0) ∧
    (∃ (s : State), s.psq.mainUp = true ∧ s.dram.st = .switching) ∧
    (∃ (s : State), s.psq.mainUp = true ∧ s.dram.st = .ready ∧ s.fld Reg.DRM_TIM_SH 0 1 0 ≠ 3 ∧ (∀ k < 15, s.fld Reg.DRM_TIM_SH (k + 1) 23 0 ≠ 0)) ∧
    (∃ (s : State) (c : Nat) (k : Nat) (a : Nat), s.dramUp = true ∧ s.benchRank a = some (c, k) ∧ s.dram.injected = none ∧ a / 64 ∉ s.dram.ceCache ∧
        s.dram.ceCache.length < 64 ∧ (s.rank c k).window + 1 ≤ s.fld Reg.DRM_RETIRE 0 15 0) ∧
    (∃ (s : State) (c : Nat) (k : Nat) (a : Nat), s.dramUp = true ∧ s.benchRank a = some (c, k) ∧ s.dram.injected = none ∧ a / 64 ∉ s.dram.ceCache ∧
        s.fld Reg.DRM_RETIRE 0 15 0 < (s.rank c k).window + 1 ∧ (s.rank c k).st = .inService ∧ s.rankIn c .copying = none ∧ (∃ j : Fin 4,
        s.rankIn c .spare = some j.val)) ∧
    (∃ (s : State) (c : Nat) (k : Nat) (a : Nat) (owner : DramArray), s.dramUp = true ∧ s.benchRank a = some (c, k) ∧ s.dram.injected = none ∧
        owner ≠ .mingaso ∧ (s.rank c k).st = .inService ∧ s.rankIn c .copying = none ∧ (∃ j : Fin 4, s.rankIn c .spare = some j.val)) :=
  ⟨⟨{ live with dram.ceCache := [0] }, 0, by decide +kernel⟩,
    ⟨{ live with dram.ranks := [(0, { st := .copying }), (1, { st := .spare })] }, 0, 0, 1, [], by decide +kernel, by decide +kernel,
        by decide +kernel, by decide +kernel, by decide +kernel⟩,
    ⟨{ live with dram.ranks := [(0, { st := .inService }), (1, { st := .spare })] }, 0, 0, by decide +kernel, by decide +kernel, by decide +kernel,
        ⟨1, by decide +kernel⟩⟩,
    ⟨live.setBit Reg.DRM_CTRL 0 1 true, by decide +kernel⟩,
    ⟨live, by decide +kernel⟩,
    ⟨{ live with dram.sreq := some {} }, {}, 4294967295, 0, by decide +kernel⟩,
    ⟨{ live with dram.burst := true }, by decide +kernel⟩,
    ⟨{ live with dram.burst := true, psq.pstate := .keep }, by decide +kernel⟩,
    ⟨live.setBit Reg.DRM_INJ_CTRL 0 0 true, 63, by decide +kernel⟩,
    ⟨{ live with dram.injected := some (0, true) }, 63, true, by decide +kernel⟩,
    ⟨{ live with dram.missed := [(15, 2)] }, 15, by decide +kernel⟩,
    ⟨live, by decide +kernel⟩,
    ⟨{ live with dram.st := .unconfigured, dram.found := some 0 }, by decide +kernel⟩,
    ⟨{ live with dram.st := .switching }, by decide +kernel⟩,
    ⟨(List.range 16).foldl (fun s k => s.setReg Reg.DRM_TIM_SH k 1#32) live, by decide +kernel, by decide +kernel, by decide +kernel,
        by decide +kernel⟩,
    ⟨{ live with dram.ranks := [(0, { st := .inService }), (1, { st := .spare })] }, 0, 0, 0, by decide +kernel⟩,
    ⟨{ live with dram.ranks := [(0, { st := .inService, window := 65535 }), (1, { st := .spare })] }, 0, 0, 63, by decide +kernel⟩,
    ⟨{ live with dram.ranks := [(0, { st := .inService }), (1, { st := .spare })] }, 0, 0, 0, .beforeOpen, by decide +kernel⟩⟩

/-- The hypotheses of `Obligations.QuarryAnswers` can be met, clause by clause. -/
theorem test_witness_QuarryAnswers :
    (∃ (s : State) (n : Fin 144) (seq : BitVec 8) (c : QmiCmd), s.medUp = true ∧ (s.qc n).lstate = .active ∧ (s.qc n).offWait = false ∧
        State.inOrder (s.qc n) seq 76 = true ∧ ((s.qc n).sent.find? (fun x => x.tag == c.tag && (x.op == .read || x.op == .marginRead)) = some c)) ∧
    (∃ (s : State) (n : Fin 144) (seq : BitVec 8) (c : QmiCmd), s.medUp = true ∧ (s.qc n).lstate = .active ∧ (s.qc n).offWait = false ∧
        State.inOrder (s.qc n) seq 226 = true ∧ ((s.qc n).sent.find? (fun x => x.tag == c.tag && x.op == .softRead) = some c)) ∧
    (∃ (s : State) (n : Fin 144) (seq : BitVec 8) (c : QmiCmd), s.medUp = true ∧ (s.qc n).lstate = .active ∧ (s.qc n).offWait = false ∧
        State.inOrder (s.qc n) seq 34 = true ∧ ((s.qc n).sent.find? (fun x => x.tag == c.tag && x.op == .identify) = some c) ∧
        (s.die (n * 16 + c.die)).identified = true) ∧
    (∃ (s : State) (n : Fin 144) (seq : BitVec 8) (c : QmiCmd), s.medUp = true ∧ (s.qc n).lstate = .active ∧ (s.qc n).offWait = false ∧
        State.inOrder (s.qc n) seq 34 = true ∧ ((s.qc n).sent.find? (fun x => x.tag == c.tag && x.op == .identify) = some c) ∧
        (s.die (n * 16 + c.die)).identified = false) ∧
    (∃ (s : State) (n : Fin 144) (seq : BitVec 8) (c : QmiCmd), s.medUp = true ∧ (s.qc n).lstate = .active ∧ (s.qc n).offWait = false ∧
        State.inOrder (s.qc n) seq 130 = true ∧ ((s.qc n).sent.find? (fun x => x.tag == c.tag && x.op == .completionLog) = some c)) ∧
    (∃ (s : State) (n : Fin 144) (seq : BitVec 8) (c : QmiCmd), s.medUp = true ∧ (s.qc n).lstate = .active ∧ (s.qc n).offWait = false ∧
        State.inOrder (s.qc n) seq 2 = true ∧ ((s.qc n).sent.find? (fun x => x.tag == c.tag && true) = some c) ∧ c.isSense = true) ∧
    (∃ (s : State) (n : Fin 144) (seq : BitVec 8) (c : QmiCmd), s.medUp = true ∧ (s.qc n).lstate = .active ∧ (s.qc n).offWait = false ∧
        State.inOrder (s.qc n) seq 3 = true ∧
        ((s.qc n).sent.find? (fun x => x.tag == c.tag && (x.op == .setRef || x.op == .setZoneMode)) = some c) ∧ c.op = .setZoneMode) ∧
    (∃ (s : State) (n : Fin 144) (seq : BitVec 8) (c : QmiCmd), s.medUp = true ∧ (s.qc n).lstate = .active ∧ (s.qc n).offWait = false ∧
        State.inOrder (s.qc n) seq 3 = true ∧ ((s.qc n).sent.find? (fun x => x.tag == c.tag && x.op == .dieReset) = some c) ∧ c.op = .dieReset) ∧
    (∃ (s : State) (n : Fin 144) (seq : BitVec 8) (c : QmiCmd) (i : DoneInfo) (x : Nat), s.medUp = true ∧ (s.qc n).lstate = .active ∧
        (s.qc n).offWait = false ∧ State.inOrder (s.qc n) seq 3 = true ∧
        ((s.qc n).sent.find? (fun y => y.tag == c.tag && y.op == .program) = some c) ∧ c.op = .program ∧ c.user = .writeBack x ∧ i.status = .ok) ∧
    (∃ (s : State) (n : Fin 144) (seq : BitVec 8) (c : QmiCmd) (i : DoneInfo), s.medUp = true ∧ (s.qc n).lstate = .active ∧
        (s.qc n).offWait = false ∧ State.inOrder (s.qc n) seq 3 = true ∧
        ((s.qc n).sent.find? (fun y => y.tag == c.tag && y.op == .program) = some c) ∧ c.op = .program ∧ i.status = .dieFault) ∧
    (∃ (s : State) (n : Fin 144) (tag : BitVec 10), s.medUp = true ∧ (s.qc n).lstate = .active ∧ (∀ c ∈ (s.qc n).sent, c.tag ≠ tag)) ∧
    (∃ (s : State) (n : Fin 144) (seq : BitVec 8), s.medUp = true ∧ (s.qc n).lstate = .active ∧ (s.qc n).nak = false ∧
        6 < (seq + 1 - (s.qc n).rxSeq).toNat) ∧
    (∃ (s : State) (n : Fin 144) (seq : BitVec 8) (c : QmiCmd), s.medUp = true ∧ (s.qc n).lstate = .active ∧ (s.qc n).offWait = false ∧
        State.inOrder (s.qc n) seq 3 = true ∧
        ((s.qc n).sent.find? (fun x => x.tag == c.tag && (x.op == .setRef || x.op == .setZoneMode)) = some c) ∧ c.op = .setRef ∧
        (s.die (n * 16 + c.die)).loads = 1) ∧
    (∃ (s : State) (n : Fin 144) (seq : BitVec 8) (c : QmiCmd), s.medUp = true ∧ (s.qc n).lstate = .active ∧ (s.qc n).offWait = false ∧
        State.inOrder (s.qc n) seq 3 = true ∧
        ((s.qc n).sent.find? (fun x => x.tag == c.tag && (x.op == .setRef || x.op == .setZoneMode)) = some c) ∧ c.op = .setRef ∧
        1 < (s.die (n * 16 + c.die)).loads) ∧
    (∃ (s : State) (n : Fin 144) (seq : BitVec 8) (c : QmiCmd), s.medUp = true ∧ (s.qc n).lstate = .active ∧ (s.qc n).offWait = false ∧
        State.inOrder (s.qc n) seq 3 = true ∧
        ((s.qc n).sent.find? (fun x => x.tag == c.tag && (x.op == .setRef || x.op == .setZoneMode)) = some c) ∧ c.op = .setRef ∧
        (s.die (n * 16 + c.die)).loads = 0) :=
  ⟨⟨sent (cmd .read), 0, 0#8, cmd .read, by decide +kernel⟩,
    ⟨sent (cmd .softRead), 0, 0#8, cmd .softRead, by decide +kernel⟩,
    ⟨sent (cmd .identify), 0, 0#8, cmd .identify, by decide +kernel⟩,
    ⟨{ sent (cmd .identify) with med.dies := [] }, 0, 0#8, cmd .identify, by decide +kernel⟩,
    ⟨sent (cmd .completionLog), 0, 0#8, cmd .completionLog, by decide +kernel⟩,
    ⟨sent (cmd .read), 0, 0#8, cmd .read, by decide +kernel⟩,
    ⟨sent (cmd .setZoneMode), 0, 0#8, cmd .setZoneMode, by decide +kernel⟩,
    ⟨sent (cmd .dieReset), 0, 0#8, cmd .dieReset, by decide +kernel⟩,
    ⟨sent { cmd .program with user := .writeBack 0 }, 0, 0#8, { cmd .program with user := .writeBack 0 }, {}, 0, by decide +kernel⟩,
    ⟨sent (cmd .program), 0, 0#8, cmd .program, { status := .dieFault }, by decide +kernel⟩,
    ⟨sent (cmd .read), 0, 0#10, by decide +kernel⟩,
    ⟨live, 0, 6#8, by decide +kernel⟩,
    ⟨{ sent (cmd .setRef) with med.dies := [(0, { identified := true, loads := 1 })] }, 0, 0#8, cmd .setRef, by decide +kernel⟩,
    ⟨{ sent (cmd .setRef) with med.dies := [(0, { identified := true, loads := 2 })] }, 0, 0#8, cmd .setRef, by decide +kernel⟩,
    ⟨{ sent (cmd .setRef) with med.dies := [(0, { identified := true, loads := 0 })] }, 0, 0#8, cmd .setRef, by decide +kernel⟩⟩

/-- The hypotheses of `Obligations.QuarryLinks` can be met, clause by clause. -/
theorem test_witness_QuarryLinks :
    (∃ (s : State) (n : Fin 144) (q : BitVec 8), s.laneUp n = true ∧ (q - (s.qc n).ackSeq).toNat + 1 ≤ (s.qc n).unacked ∧ (s.qc n).replays = 0 ∧
        1 < s.fld Reg.QC_ERR_CFG n 19 16) ∧
    (∃ (s : State) (n : Fin 144), s.laneUp n = true ∧ 0 < (s.qc n).unacked ∧ (s.qc n).replays = 0 ∧ 1 < s.fld Reg.QC_ERR_CFG n 19 16) ∧
    (∃ (s : State) (n : Fin 144), s.laneUp n = true ∧ 0 < (s.qc n).unacked ∧ (s.qc n).replays ≠ 0 ∧ (s.qc n).replayFrom = (s.qc n).ackSeq ∧
        s.fld Reg.QC_ERR_CFG n 19 16 ≤ (s.qc n).replays + 1) ∧
    (∃ (s : State) (n : Fin 144), s.psq.mainUp = true ∧ s.psq.pstate = .idle ∧ (s.qc n).lstate = .active ∧ (s.qc n).queue = [] ∧
        (s.qc n).unacked = 0) ∧
    (∃ (s : State), s.psq.pstate ≠ .idle) ∧
    (∃ (s : State) (n : Fin 144), s.laneUp n = true ∧ 0 < (s.qc n).rxOwed) ∧
    (∃ (s : State) (n : Fin 144) (k : Nat), s.medUp = true ∧ (s.qc n).recovery = some (.fast k)) ∧
    (∃ (s : State) (n : Fin 144) (k : Nat), s.medUp = true ∧ (s.qc n).recovery = some (.fast k)) ∧
    (∃ (s : State) (n : Fin 144), s.medUp = true ∧ (s.qc n).recovery = some .full) ∧
    (∃ (s : State) (n : Fin 144), s.medUp = true ∧ (s.qc n).recovery = some .full) ∧
    (∃ (s : State) (n : Fin 144), s.psq.mainUp = true ∧ (s.qc n).lstate = .active ∧ s.fld Reg.QC_ERR_CFG n 21 20 ≠ 0) ∧
    (∃ (s : State) (n : Fin 144), (s.qc n).lstate ≠ .active) ∧
    (∃ (s : State) (n : Fin 144), s.psq.mainUp = true ∧ (s.qc n).offline = false) ∧
    (∃ (s : State) (n : Fin 144), s.psq.mainUp = true ∧ (s.qc n).offWait = true) ∧
    (∃ (s : State) (n : Fin 144) (f : BitVec 544), s.laneUp n = true ∧ flitBad f = true ∧ (s.qc n).nak = false ∧ 1 < s.fld Reg.QC_ERR_CFG n 7 0) ∧
    (∃ (s : State) (n : Fin 144) (f : BitVec 544), s.laneUp n = true ∧ flitBad f = true ∧ s.fld Reg.QC_ERR_CFG n 7 0 ≤ (s.qc n).storm + 1) ∧
    (∃ (s : State) (n : Fin 144) (f : BitVec 544), s.laneUp n = true ∧ flitBad f = false ∧ flitKind f = 1 ∧ flitSeq f ≠ (s.qc n).rxSeq ∧
        (s.qc n).nak = false) ∧
    (∃ (s : State) (n : Fin 144), s.medUp = true ∧ ((s.qc n).lstate = .detect ∨ (s.qc n).lstate = .train)) ∧
    (∃ (s : State) (n : Fin 144), s.medUp = true ∧ (s.qc n).lstate = .active ∧ (∀ d ∈ s.chanDies n, (s.die d).identified = true)) :=
  ⟨⟨{ live with med.chans := [(0, { lstate := .active, unacked := 1 })] }, 0, 0#8, by decide +kernel⟩,
    ⟨{ live with med.chans := [(0, { lstate := .active, unacked := 1 })] }, 0, by decide +kernel⟩,
    ⟨{ live with med.chans := [(0, { lstate := .active, unacked := 1, replays := 8 })] }, 0, by decide +kernel⟩,
    ⟨{ live with psq.pstate := .idle }, 0, by decide +kernel⟩,
    ⟨live, by decide +kernel⟩,
    ⟨{ live with med.chans := [(0, { lstate := .active, rxOwed := 1 })] }, 0, by decide +kernel⟩,
    ⟨{ live with med.chans := [(0, { lstate := .recovery, recovery := some (.fast 0) })] }, 0, 0, by decide +kernel⟩,
    ⟨{ live with med.chans := [(0, { lstate := .recovery, recovery := some (.fast 0) })] }, 0, 0, by decide +kernel⟩,
    ⟨{ live with med.chans := [(0, { lstate := .recovery, recovery := some .full })] }, 0, by decide +kernel⟩,
    ⟨{ live with med.chans := [(0, { lstate := .recovery, recovery := some .full })] }, 0, by decide +kernel⟩,
    ⟨live, 0, by decide +kernel⟩,
    ⟨live, 143, by decide +kernel⟩,
    ⟨live, 0, by decide +kernel⟩,
    ⟨{ live with med.chans := [(0, { lstate := .active, offline := true, offWait := true })] }, 0, by decide +kernel⟩,
    ⟨live, 0, 0xC000#544, by decide +kernel, flitBad_kind3, by decide +kernel⟩,
    ⟨{ live with med.chans := [(0, { lstate := .active, storm := 255 })] }, 0, 0xC000#544, by decide +kernel, flitBad_kind3, by decide +kernel⟩,
    ⟨live, 0, goodFlit, by decide +kernel, goodFlit_ok.1, goodFlit_ok.2.1, by rw [goodFlit_ok.2.2]; decide +kernel, by decide +kernel⟩,
    ⟨{ live with med.chans := [(143, { lstate := .train })] }, 143, by decide +kernel⟩,
    ⟨{ live with med.dies := (List.range 16).map fun d => (d, { identified := true }) }, 0, by decide +kernel⟩⟩

/-- The hypotheses of `Obligations.QuarryGroups` can be met, clause by clause. -/
theorem test_witness_QuarryGroups :
    (∃ (s : State) (n : Fin 144), s.medUp = true ∧ (s.qg (n / 16)).railsUp = true ∧ (s.qg (n / 16)).invBad = false ∧
        ((s.qc n).lstate = .detect ∨ (s.qc n).lstate = .train)) ∧
    (∃ (s : State) (g : Fin 9) (temps : List (Option Int)) (i : Nat) (x : Int), s.psq.pstate = .active ∧ s.psq.mainUp = true ∧
        (s.qg g).railsUp = true ∧ s.bit Reg.QG_CTRL g 0 = true ∧ s.bit Reg.QG_CTRL g 1 = false ∧ i < 32 ∧ temps.getD i none = some x ∧
        (if i % 2 = 1 then (s.qc (16 * g.val + i / 2)).pkg1 else (s.qc (16 * g.val + i / 2)).pkg0) ≠ 0) ∧
    (∃ (s : State) (g : Fin 9) (temps : List (Option Int)) (i : Nat), s.psq.pstate = .active ∧ s.psq.mainUp = true ∧ (s.qg g).railsUp = true ∧
        s.bit Reg.QG_CTRL g 0 = true ∧ s.bit Reg.QG_CTRL g 1 = false ∧ i < 32 ∧ temps.getD i none = none ∧
        (if i % 2 = 1 then (s.qc (16 * g.val + i / 2)).pkg1 else (s.qc (16 * g.val + i / 2)).pkg0) ≠ 0 ∧
        (Tab.get {} (s.qg g).packages i).missed = 2) ∧
    (∃ (s : State) (n : Fin 144) (seen : BitVec 32) (d : List Byte) (k : Nat), s.medUp = true ∧ (s.qg (n / 16)).railsUp = true ∧
        (s.qg (n / 16)).invBad = false ∧ s.bit Reg.QG_CTRL (n / 16) 0 = true ∧ s.bit Reg.QG_CTRL (n / 16) 1 = false ∧
        State.placeMissing seen = none ∧ descCheck d = some k) ∧
    (∃ (s : State) (n : Fin 144) (second : Bool) (seen : BitVec 32) (k : Nat), s.medUp = true ∧ (s.qg (n / 16)).railsUp = true ∧
        (s.qg (n / 16)).invBad = false ∧ s.bit Reg.QG_CTRL (n / 16) 0 = true ∧ s.bit Reg.QG_CTRL (n / 16) 1 = false ∧
        State.placeMissing seen = some (k, second)) ∧
    (∃ (s : State) (n : Fin 144) (seen : BitVec 32) (d : List Byte), s.medUp = true ∧ (s.qg (n / 16)).railsUp = true ∧
        (s.qg (n / 16)).invBad = false ∧ s.bit Reg.QG_CTRL (n / 16) 0 = true ∧ s.bit Reg.QG_CTRL (n / 16) 1 = false ∧
        State.placeMissing seen = none ∧ descCheck d = none ∧ descByte d 0x0A = 1 ∧ (s.qc n).lstate = .off ∧ (s.qc n).offline = false ∧
        (s.qc n).pkg1 = 0 ∧ (s.qc n).ready1 = false ∧ (∀ k < 16,
        (s.qc (n / 16 * 16 + k)).pkg0 = 0 ∨ (s.qc (n / 16 * 16 + k)).pkg0 = if descByte d 1 = 4 then 1 else 2)) ∧
    (∃ (s : State) (g : Fin 9), s.medUp = true ∧ (s.qg g).railsUp = true ∧ (s.qg g).alert = false) :=
  ⟨⟨{ live with med.chans := [(0, { lstate := .train })] }, 0, by decide +kernel⟩,
    ⟨live, 0, [some (-40)], 0, -40, by decide +kernel⟩,
    ⟨{ live with med.groups := [(0, { railsUp := true, inService := true, packages := [(0, { missed := 2 })] })] }, 0, [], 0, by decide +kernel⟩,
    ⟨live, 0, 0x55555555#32, [], 0, by decide +kernel⟩,
    ⟨live, 15, false, 0#32, 0, by decide +kernel⟩,
    ⟨{ live with med.chans := [] }, 0, 0x55555555#32, goodDesc, five_and (by decide +kernel) ⟨by decide +kernel, goodDesc_ok, by decide +kernel⟩⟩,
    ⟨live, 0, by decide +kernel⟩⟩

/-- The hypotheses of `Obligations.TeaselAndYarrow` can be met, clause by clause. -/
theorem test_witness_TeaselAndYarrow :
    (∃ (s : State) (d : Fin 2304), s.medUp = true ∧ s.bit Reg.TSL_CTRL 0 0 = true ∧ s.dieUp d = true) ∧
    (∃ (s : State) (g : Fin 9), s.medUp = true ∧ s.passEnded g = true) ∧
    (∃ (s : State), s.psq.mainUp = true ∧ s.fld Reg.EYB_DIE_SEL 0 11 0 ≤ 2303 ∧ s.dieUp (s.fld Reg.EYB_DIE_SEL 0 11 0) = true) ∧
    (∃ (s : State) (d : Fin 2304), s.medUp = true ∧ (s.die d).sweep = true) ∧
    (∃ (s : State) (u : State) (n : Nat), s.psq.mainUp = true ∧
        ((s.med.yarrow.queue.find? fun w => w.lsett == n && w.kind == .remap) = some { lsett := n, kind := .remap }) ∧
        (s.satisfied { lsett := n, kind := .remap } = false) ∧ (s.startWork { lsett := n, kind := .remap } = some u)) ∧
    (∃ (s : State) (n : Nat) (m : Move), s.medUp = true ∧ s.move n = some m ∧ m.verified ≠ BitVec.allOnes 256) ∧
    (∃ (s : State) (n : Nat) (m : Move), s.medUp = true ∧ s.move n = some m ∧ m.verified = BitVec.allOnes 256 ∧ s.jFull = false ∧
        m.kind = .refresh ∧ m.dest = none ∧ (s.sett n).phys = none) ∧
    (∃ (s : State) (u : State), s.medUp = true ∧ (s.dropSatisfied.workOrder.findSome? fun w => s.dropSatisfied.startWork w) = some u) ∧
    (∃ (s : State), s.medUp = true ∧ (s.dropSatisfied.workOrder.findSome? fun w => s.dropSatisfied.startWork w) = none) ∧
    (∃ (s : State) (n : Nat), s.psq.mainUp = true ∧ s.youngOf n ≠ []) ∧
    (∃ (s : State) (g : Fin 9), s.medUp = true ∧ (s.qg g).railsUp = true ∧ (s.qg g).compare = false) ∧
    (∃ (s : State) (g : Fin 9), s.medUp = true ∧ (s.qg g).railsUp = true ∧ (s.qg g).compare = true) ∧
    (∃ (s : State) (d : Fin 2304) (ss : List Sample) (fs : List FitLine), s.medUp = true ∧ s.dieUp d = true ∧ s.calFit d ss = some fs) ∧
    (∃ (s : State) (d : Fin 2304) (ss : List Sample), s.medUp = true ∧ s.dieUp d = true ∧ s.calFit d ss = none) ∧
    (∃ (s : State), s.psq.mainUp = true ∧ s.dieUp (s.fld Reg.EYB_DIE_SEL 0 11 0) = false) :=
  ⟨⟨live, 0, by decide +kernel⟩,
    ⟨{ live with med.passes := [(8, { running := true })] }, 8, by decide +kernel⟩,
    ⟨live, by decide +kernel⟩,
    ⟨{ live with med.dies := [(0, { sweep := true })] }, 0, by decide +kernel⟩,
    ⟨{ live with med.setts := [(0, { phys := some ⟨0, 1, 0⟩, mode := .m4 })], med.yarrow := { queue := [{ lsett := 0, kind := .remap }] } },
        Option.get _ (by decide +kernel), 0, by decide +kernel, by decide +kernel, by decide +kernel, (Option.some_get _).symm⟩,
    ⟨{ live with med.yarrow := { moves := [{ lsett := 0, kind := .remap, verified := 1 }] } }, 0, { lsett := 0, kind := .remap, verified := 1 },
        by decide +kernel⟩,
    ⟨{ live with med.yarrow := { moves := [{ lsett := 0, kind := .refresh, verified := BitVec.allOnes 256 }] } }, 0,
        { lsett := 0, kind := .refresh, verified := BitVec.allOnes 256 }, by decide +kernel⟩,
    ⟨{ live with med.setts := [(0, { phys := some ⟨0, 1, 0⟩, mode := .m4 })], med.yarrow := { queue := [{ lsett := 0, kind := .refresh }] } },
        Option.get _ (by decide +kernel), by decide +kernel, (Option.some_get _).symm⟩,
    ⟨live, by decide +kernel⟩,
    ⟨{ live with med.young := [(0, [{ tFirst := 0, tLast := 0, lines := 1 }])] }, 0, by decide +kernel⟩,
    ⟨live, 0, by decide +kernel⟩,
    ⟨{ live with med.groups := [(0, { railsUp := true, inService := true, compare := true })] }, 0, by decide +kernel⟩,
    ⟨laddered, 0, ladder, Option.get _ (by decide +kernel), by decide +kernel, by decide +kernel, (Option.some_get _).symm⟩,
    ⟨live, 0, [], by decide +kernel⟩,
    ⟨live.setReg Reg.EYB_DIE_SEL 0 2303#32, by decide +kernel⟩⟩

/-- The hypotheses of `Obligations.ChannelCommands` can be met, clause by clause. -/
theorem test_witness_ChannelCommands :
    (∃ (s : State) (w : State) (r : AzReq), s.Takes w r 0x0101 ∧ r.params.length = 0) ∧
    (∃ (s : State) (w : State) (r : AzReq), s.Takes w r 0x0102 ∧ r.params.length = 0) ∧
    (∃ (s : State) (w : State) (r : AzReq), s.Takes w r 0x0103 ∧ s.hasRight r.chan .admin = true ∧ r.params.length = 2 ∧ 8 ≤ r.n 0 ∧ r.n 0 ≤ 63 ∧
        r.n 1 < 256 ∧ r.n 1 % 4 ≠ 3 ∧ w.sec.trngFail = false) ∧
    (∃ (s : State) (w : State) (r : AzReq), s.Takes w r 0x0104 ∧ (r.n 0 % 64 = r.chan.val ∨ s.hasRight r.chan .admin = true) ∧ r.params.length = 1 ∧
        r.n 0 / 64 % 4 = 0 ∧ r.n 0 < 512 ∧ (w.chan (r.n 0 % 64)).ops = [] ∧ (w.chan (r.n 0 % 64)).bell = false ∧
        ((w.chan (r.n 0 % 64)).lgo = false ∨ r.n 0 % 64 = r.chan.val ∧ r.via = .legacy)) ∧
    (∃ (s : State) (w : State) (r : AzReq), s.Takes w r 0x0105 ∧ r.params.length = 1 ∧ r.n 0 < 65536 ∧
        ((w.chan r.chan).ops.any fun o => o.tag == (r.p 0).setWidth 16) = true) ∧
    (∃ (s : State) (w : State) (r : AzReq) (d : FinalReply), s.Takes w r 0x0105 ∧ r.params.length = 1 ∧ r.n 0 < 65536 ∧
        ((w.chan r.chan).ops.any fun o => o.tag == (r.p 0).setWidth 16) = false ∧
        ((w.chan r.chan).done.find? fun o => o.tag == (r.p 0).setWidth 16) = some d ∧ (r.via = .legacy → d.words.length ≤ 13)) ∧
    (∃ (s : State) (w : State) (r : AzReq), s.Takes w r 0x0105 ∧ r.params.length = 1 ∧ r.n 0 < 65536 ∧
        ((w.chan r.chan).ops.any fun o => o.tag == (r.p 0).setWidth 16) = false ∧
        ((w.chan r.chan).done.find? fun o => o.tag == (r.p 0).setWidth 16) = none) ∧
    (∃ (s : State) (w : State) (r : AzReq), s.Takes w r 0x0106 ∧ (secureChan r.chan = true ∨ s.routeAllowed r.chan (r.n 0) (r.p 1) = true) ∧
        r.params.length = 2 ∧ r.n 0 ≤ 511 ∧ r.p 1 &&& 0x00000F82#32 = 0 ∧ ((r.p 1).getLsbD 2 = true → bitsOf (r.p 1) 31 24 ≤ 63)) ∧
    (∃ (s : State) (w : State) (r : AzReq), s.Takes w r 0x0107 ∧ r.params.length = 1 ∧ r.n 0 ≤ 511) ∧
    (∃ (s : State) (w : State) (r : AzReq), s.Takes w r 0x0107 ∧ r.params.length = 1 ∧ 511 < r.n 0) ∧
    (∃ (s : State) (w : State) (r : AzReq), s.Takes w r 0x0108 ∧ 2 ≤ r.params.length ∧ r.params.length ≤ 60 ∧ r.n 0 % 4 = 0 ∧
        r.n 0 + 4 * (r.params.length - 1) ≤ 2 ^ 20) ∧
    (∃ (s : State) (w : State) (r : AzReq), s.Takes w r 0x0109 ∧ r.params.length = 2 ∧ r.n 0 % 4 = 0 ∧ 1 ≤ r.n 1 ∧ r.n 1 ≤ 62 ∧
        r.n 0 + 4 * r.n 1 ≤ 2 ^ 20 ∧ (r.via = .legacy → r.n 1 ≤ 14)) :=
  ⟨⟨live, _, { chan := 0 }, takes_mk (by decide +kernel), by decide +kernel⟩,
    ⟨live, _, { chan := 0 }, takes_mk (by decide +kernel), by decide +kernel⟩,
    ⟨live, _, { chan := 0, params := [63, 0x40] }, takes_mk (by decide +kernel), by decide +kernel⟩,
    ⟨live, _, { chan := 0, params := [8] }, takes_mk (by decide +kernel), by decide +kernel⟩,
    ⟨{ live with chans := [(0, { who := .shelf, rights := 0x7F, ops := [{ tag := 7, opcode := 0x0202 }] })] }, _, { chan := 0, params := [7] },
        takes_mk (by decide +kernel), by decide +kernel⟩,
    ⟨{ live with chans := [(0, { who := .shelf, rights := 0x7F, done := [{ tag := 7, words := [0] }] })] }, _, { chan := 0, params := [7] },
        { tag := 7, words := [0] }, takes_mk (by decide +kernel), by decide +kernel⟩,
    ⟨live, _, { chan := 0, params := [7] }, takes_mk (by decide +kernel), by decide +kernel⟩,
    ⟨live, _, { chan := 0, params := [511, 0] }, takes_mk (by decide +kernel), by decide +kernel⟩,
    ⟨live, _, { chan := 0, params := [511] }, takes_mk (by decide +kernel), by decide +kernel⟩,
    ⟨live, _, { chan := 0, params := [512] }, takes_mk (by decide +kernel), by decide +kernel⟩,
    ⟨live, _, { chan := 0, params := [0xFFFFC, 1] }, takes_mk (by decide +kernel), by decide +kernel⟩,
    ⟨live, _, { chan := 0, params := [0, 62] }, takes_mk (by decide +kernel), by decide +kernel⟩⟩

/-- The hypotheses of `Obligations.TimeAndPowerCommands` can be met, clause by clause. -/
theorem test_witness_TimeAndPowerCommands :
    (∃ (s : State) (w : State) (r : AzReq), s.Takes w r 0x0901 ∧ r.params.length = 0) ∧
    (∃ (s : State) (w : State) (r : AzReq), s.Takes w r 0x0902 ∧ secureChan r.chan = true ∧ r.params.length = 27 ∧ r.via ≠ .legacy ∧ r.ok = true ∧
        r.p 2 = Config.otpWord 0x024 ∧ w.bit Reg.TLY_CTRL 0 1 = true) ∧
    (∃ (s : State) (w : State) (r : AzReq), s.Takes w r 0x0902 ∧ secureChan r.chan = true ∧ r.params.length = 27 ∧
        (r.ok = false ∨ r.p 2 ≠ Config.otpWord 0x024)) ∧
    (∃ (s : State) (w : State) (r : AzReq), s.Takes w r 0x0902 ∧ secureChan r.chan = true ∧ r.params.length = 27 ∧ r.ok = true ∧
        r.p 2 = Config.otpWord 0x024 ∧ w.bit Reg.TLY_CTRL 0 1 = false) ∧
    (∃ (s : State) (w : State) (r : AzReq) (k : Nat) (v : Slot), s.Takes w r 0x0903 ∧ (secureChan r.chan = true ∨ bitsOf (r.p 2) 3 0 = 8 ∧
        s.slotsOf r.chan < 8) ∧ r.params.length = 5 ∧ r.p 2 &&& 0xFFFFFEF0#32 = 0 ∧ bitsOf (r.p 2) 3 0 ≤ 9 ∧
        ((r.p 2).getLsbD 8 = true ∨ w.tally.trust ≠ .untrusted) ∧ w.freeSlot = some k ∧
        (v = { time := BitVec.ofNat 64 (r.p64 0) + (if (r.p 2).getLsbD 8 then w.tally.now else 0), arm := true, action := (r.p 2).setWidth 4, arg := r.p 3, period := r.p 4, owner := BitVec.ofNat 8 r.chan.val })) ∧
    (∃ (s : State) (w : State) (r : AzReq), s.Takes w r 0x0903 ∧ secureChan r.chan = true ∧ r.params.length = 5 ∧ r.p 2 &&& 0xFFFFFEF0#32 = 0 ∧
        bitsOf (r.p 2) 3 0 ≤ 9 ∧ ((r.p 2).getLsbD 8 = true ∨ w.tally.trust ≠ .untrusted) ∧ w.freeSlot = none) ∧
    (∃ (s : State) (w : State) (r : AzReq), s.Takes w r 0x0904 ∧ 64 ≤ r.n 0 ∧ r.n 0 ≤ 255 ∧
        (secureChan r.chan = true ∨ (s.slot (r.n 0)).owner.toNat = r.chan.val) ∧ r.params.length = 1 ∧ (s.slot (r.n 0)).owner ≠ 0xFF#8) ∧
    (∃ (s : State) (w : State) (r : AzReq), s.Takes w r 0x0904 ∧ 64 ≤ r.n 0 ∧ r.n 0 ≤ 255 ∧ (s.slot (r.n 0)).owner = 0xFF#8 ∧ r.params.length = 1) ∧
    (∃ (s : State) (w : State) (r : AzReq), s.Takes w (r.withP0 0) 0x0905 ∧ s.hasRight r.chan .admin = true ∧ r.params.length = 1) ∧
    (∃ (s : State) (w : State) (r : AzReq), s.Takes w (r.withP0 1) 0x0905 ∧ s.hasRight r.chan .admin = true ∧ r.params.length = 1 ∧
        w.psq.pstate ≠ .lockout) ∧
    (∃ (s : State) (w : State) (r : AzReq), s.Takes w (r.withP0 2) 0x0905 ∧ s.hasRight r.chan .admin = true ∧ r.params.length = 1 ∧
        w.psq.pstate ≠ .dormant ∧ w.psq.pstate ≠ .poweringDown ∧ w.psq.pstate ≠ .lockout) ∧
    (∃ (s : State) (w : State) (r : AzReq), s.Takes w (r.withP0 3) 0x0905 ∧ s.hasRight r.chan .admin = true ∧ r.params.length = 1) ∧
    (∃ (s : State) (w : State) (r : AzReq), s.Takes w r 0x0906 ∧ s.hasRight r.chan .admin = true ∧ r.params.length = 0) ∧
    (∃ (s : State) (w : State) (r : AzReq), s.Takes w r 0x0907 ∧ s.hasRight r.chan .admin = true ∧ r.params.length = 1 ∧ r.n 0 = 0) ∧
    (∃ (s : State) (w : State) (r : AzReq), s.Takes w r 0x0908 ∧ s.hasRight r.chan .admin = true ∧ r.params.length = 1 ∧ 1 ≤ r.n 0 ∧ r.n 0 ≤ 255) ∧
    (∃ (s : State) (w : State) (r : AzReq), s.Takes w r 0x0909 ∧ s.hasRight r.chan .admin = true ∧ r.params.length = 0 ∧ w.psq.pstate = .lockout) ∧
    (∃ (s : State) (w : State) (r : AzReq), s.Takes w r 0x0909 ∧ s.hasRight r.chan .admin = true ∧ r.params.length = 0 ∧ w.psq.pstate ≠ .lockout) ∧
    (∃ (s : State) (w : State) (r : AzReq), s.Takes w r 0x090A ∧ r.params.length = 0) :=
  ⟨⟨live, _, { chan := 0 }, takes_mk (by decide +kernel), by decide +kernel⟩,
    ⟨live.setBit Reg.TLY_CTRL 0 1 true, _, { chan := 0, params := [0, 0, Config.otpWord 0x024] ++ List.replicate 24 0 },
        takes_mk (by decide +kernel), by decide +kernel, by decide +kernel, by decide +kernel, by decide +kernel, rfl, by decide +kernel⟩,
    ⟨live, _, { chan := 0, params := List.replicate 27 0, ok := false }, takes_mk (by decide +kernel), by decide +kernel⟩,
    ⟨live.setBit Reg.TLY_CTRL 0 1 false, _, { chan := 0, params := [0, 0, Config.otpWord 0x024] ++ List.replicate 24 0 },
        takes_mk (by decide +kernel), by decide +kernel, by decide +kernel, by decide +kernel, rfl, by decide +kernel⟩,
    ⟨live, _, { chan := 0, params := [0, 0, 0x109, 0, 0] }, 64, _, takes_mk (by decide +kernel), five_and (by decide +kernel) ⟨by decide +kernel, rfl⟩⟩,
    ⟨{ live with sched.slots := (List.range' 64 192).map fun k => (k, { owner := 0 }) }, _, { chan := 0, params := [0, 0, 0x109, 0, 0] },
        takes_mk (by decide +kernel), by decide +kernel⟩,
    ⟨{ live with sched.slots := [(255, { owner := 0 })] }, _, { chan := 0, params := [255] }, takes_mk (by decide +kernel), by decide +kernel⟩,
    ⟨live, _, { chan := 0, params := [64] }, takes_mk (by decide +kernel), by decide +kernel⟩,
    ⟨live, _, { chan := 0, params := [0] }, takes_mk (by decide +kernel), by decide +kernel⟩,
    ⟨live, _, { chan := 0, params := [1] }, takes_mk (by decide +kernel), by decide +kernel⟩,
    ⟨live, _, { chan := 0, params := [2] }, takes_mk (by decide +kernel), by decide +kernel⟩,
    ⟨live, _, { chan := 0, params := [3] }, takes_mk (by decide +kernel), by decide +kernel⟩,
    ⟨live, _, { chan := 0 }, takes_mk (by decide +kernel), by decide +kernel⟩,
    ⟨live, _, { chan := 0, params := [0] }, takes_mk (by decide +kernel), by decide +kernel⟩,
    ⟨live, _, { chan := 0, params := [255] }, takes_mk (by decide +kernel), by decide +kernel⟩,
    ⟨{ live with psq.pstate := .lockout, psq.mainUp := false }, _, { chan := 0, via := .legacy }, takes_mk (by decide +kernel), by decide +kernel⟩,
    ⟨live, _, { chan := 0 }, takes_mk (by decide +kernel), by decide +kernel⟩,
    ⟨live, _, { chan := 0 }, takes_mk (by decide +kernel), by decide +kernel⟩⟩

/-- The hypotheses of `Obligations.RegionCommands` can be met, clause by clause. -/
theorem test_witness_RegionCommands :
    (∃ (s : State) (w : State) (v : State) (r : AzReq) (id : Nat), s.Takes w r 0x0201 ∧ s.hasRight r.chan .admin = true ∧ r.params.length = 2 ∧
        (s.chan r.chan).ops.length < 8 ∧ 1 ≤ r.n 0 ∧ r.n 0 < 2 ^ 31 ∧ r.n 1 < 16 ∧ r.n 1 % 4 ≠ 0 ∧ w.sec.trngFail = false ∧
        w.mayReserve (r.n 0 * settUnits (Mode.ofCode (r.n 1))) = true ∧ (w.paired = false ∨ w.side0 = true) ∧
        w.createHere (r.n 0) (Mode.ofCode (r.n 1)) ((r.n 1).testBit 2) ((r.n 1).testBit 3) true = some (v, id)) ∧
    (∃ (s : State) (w : State) (v : State) (r : AzReq) (id : Nat), s.Takes w r 0x0201 ∧ s.hasRight r.chan .admin = true ∧ r.params.length = 2 ∧
        (s.chan r.chan).ops.length < 8 ∧ 1 ≤ r.n 0 ∧ r.n 0 < 2 ^ 31 ∧ 16 ≤ r.n 1 ∧ r.n 1 < 32 ∧ r.n 1 % 4 ≠ 0 ∧ w.sec.trngFail = false ∧
        w.mayReserve (r.n 0 * settUnits (Mode.ofCode (r.n 1))) = true ∧ w.paired = true ∧ w.side0 = true ∧
        w.createHere (r.n 0) (Mode.ofCode (r.n 1)) ((r.n 1).testBit 2) ((r.n 1).testBit 3) false = some (v, id)) ∧
    (∃ (s : State) (w : State) (r : AzReq), s.Takes w r 0x0201 ∧ s.hasRight r.chan .admin = true ∧ r.params.length = 2 ∧
        (s.chan r.chan).ops.length < 8 ∧ 1 ≤ r.n 0 ∧ r.n 0 < 2 ^ 31 ∧ r.n 1 < 32 ∧ r.n 1 % 4 ≠ 0 ∧ w.sec.trngFail = false ∧
        w.mayReserve (r.n 0 * settUnits (Mode.ofCode (r.n 1))) = true ∧ w.paired = true ∧ w.side0 = false) ∧
    (∃ (s : State) (w : State) (r : AzReq), s.Takes w r 0x0201 ∧ s.hasRight r.chan .admin = true ∧ r.params.length = 2 ∧
        (s.chan r.chan).ops.length < 8 ∧ 1 ≤ r.n 0 ∧ r.n 0 < 2 ^ 31 ∧ r.n 1 < 16 ∧ r.n 1 % 4 ≠ 0 ∧ w.sec.trngFail = false ∧
        w.mayReserve (r.n 0 * settUnits (Mode.ofCode (r.n 1))) = false) ∧
    (∃ (s : State) (w : State) (r : AzReq), s.Takes w r 0x0202 ∧ s.hasRight r.chan .admin = true ∧ r.params.length = 1 ∧
        (s.chan r.chan).ops.length < 8 ∧ w.isRegion (r.n 0) = true) ∧
    (∃ (s : State) (w : State) (r : AzReq), s.Takes w r 0x0202 ∧ s.hasRight r.chan .admin = true ∧ r.params.length = 1 ∧
        (s.chan r.chan).ops.length < 8 ∧ w.isRegion (r.n 0) = false) ∧
    (∃ (s : State) (w : State) (v : State) (r : AzReq), s.Takes w r 0x0203 ∧ s.hasRight r.chan .admin = true ∧ r.params.length = 2 ∧
        (s.chan r.chan).ops.length < 8 ∧ w.isRegion (r.n 0) = true ∧ r.n 1 < 2 ^ 31 ∧ w.locked (r.n 0) = false ∧ (w.region (r.n 0)).size < r.n 1 ∧
        w.mayReserve ((r.n 1 - (w.region (r.n 0)).size) * settUnits (w.region (r.n 0)).mode) = true ∧ (w.paired = false ∨ w.side0 = true) ∧
        w.growHere (r.n 0) (r.n 1) = some v) ∧
    (∃ (s : State) (w : State) (r : AzReq) (v : Region), s.Takes w r 0x0203 ∧ s.hasRight r.chan .admin = true ∧ r.params.length = 2 ∧
        (s.chan r.chan).ops.length < 8 ∧ w.isRegion (r.n 0) = true ∧ 1 ≤ r.n 1 ∧ r.n 1 < 2 ^ 31 ∧ w.locked (r.n 0) = false ∧
        r.n 1 ≤ (w.region (r.n 0)).size ∧
        (v = { w.region (r.n 0) with size := r.n 1, extents := (w.region (r.n 0)).extents.take (State.extentsFor (r.n 1)) })) ∧
    (∃ (s : State) (w : State) (r : AzReq), s.Takes w r 0x0204 ∧ s.hasRight r.chan .admin = true ∧ r.params.length = 2 ∧ w.isRegion (r.n 0) = true ∧
        1 ≤ r.n 1 ∧ r.n 1 ≤ 3 ∧ w.locked (r.n 0) = false ∧ Mode.ofCode (r.n 1) = (w.region (r.n 0)).mode) ∧
    (∃ (s : State) (w : State) (u : State) (r : AzReq) (v : Region), s.Takes w r 0x0204 ∧ s.hasRight r.chan .admin = true ∧ r.params.length = 2 ∧
        w.isRegion (r.n 0) = true ∧ 1 ≤ r.n 1 ∧ r.n 1 ≤ 3 ∧ w.locked (r.n 0) = false ∧ Mode.ofCode (r.n 1) ≠ (w.region (r.n 0)).mode ∧
        settUnits (Mode.ofCode (r.n 1)) < settUnits (w.region (r.n 0)).mode ∧ w.pairCap ≠ .amber ∧ w.pairCap ≠ .red ∧
        (v = { w.region (r.n 0) with mode := Mode.ofCode (r.n 1), conv := some { target := Mode.ofCode (r.n 1) } }) ∧
        (u = ((((w.setRegion (r.n 0) v).journal (.region (r.n 0))).convQueue (r.n 0)).sendAttr (r.n 0) { record := v })) ∧
        (u.settsOf (r.n 0) fun n => (u.sett n).mode != .none && (u.sett n).mode != Mode.ofCode (r.n 1)) ≠ []) ∧
    (∃ (s : State) (w : State) (r : AzReq) (v : Region), s.Takes w r 0x0205 ∧ s.hasRight r.chan .admin = true ∧ r.params.length = 2 ∧
        w.isRegion (r.n 0) = true ∧ r.n 1 ≤ 1 ∧ (v = { w.region (r.n 0) with strict := (r.p 1).getLsbD 0 })) ∧
    (∃ (s : State) (w : State) (r : AzReq), s.Takes w r 0x0206 ∧ s.mayRead r.chan (r.n 0) = true ∧ r.params.length = 1 ∧ w.isRegion (r.n 0) = true ∧
        (w.region (r.n 0)).conv = none) ∧
    (∃ (s : State) (w : State) (r : AzReq), s.Takes w r 0x0207 ∧ s.hasRight r.chan .admin = true ∧ r.params.length = 3 ∧ w.isRegion (r.n 0) = true ∧
        8 ≤ r.n 1 ∧ r.n 1 ≤ 63 ∧ r.n 2 ≤ 3) ∧
    (∃ (s : State) (w : State) (r : AzReq), s.Takes w r 0x0208 ∧ s.hasRight r.chan .admin = true ∧ r.params.length = 4 ∧ r.n 0 ≠ 0xFFFF ∧
        w.isRegion (r.n 0) = true ∧ r.n 1 < 256 ∧ 1 ≤ r.n 3 ∧ (r.n 2 + r.n 3) * 4096 ≤ (w.region (r.n 0)).size ∧
        w.bindHeld (r.n 1 % 4 * 16 + r.n 1 / 4 % 16) (r.n 1 / 64 % 4) = false) ∧
    (∃ (s : State) (w : State) (r : AzReq), s.Takes w r 0x0208 ∧ s.hasRight r.chan .admin = true ∧ r.params.length = 4 ∧ r.n 0 = 0xFFFF ∧
        r.n 1 < 256 ∧ r.n 2 = 0 ∧ r.n 3 = 1 ∧ w.bindHeld (r.n 1 % 4 * 16 + r.n 1 / 4 % 16) (r.n 1 / 64 % 4) = false) ∧
    (∃ (s : State) (w : State) (r : AzReq), s.Takes w r 0x0209 ∧ s.hasRight r.chan .admin = true ∧ r.params.length = 2 ∧ r.n 1 < 256 ∧
        w.bindHeld (r.n 1 % 4 * 16 + r.n 1 / 4 % 16) (r.n 1 / 64 % 4) = false) ∧
    (∃ (s : State) (w : State) (r : AzReq), s.Takes w r 0x0209 ∧ s.hasRight r.chan .admin = true ∧ r.params.length = 2 ∧ r.n 1 < 256 ∧
        w.bindHeld (r.n 1 % 4 * 16 + r.n 1 / 4 % 16) (r.n 1 / 64 % 4) = true) ∧
    (∃ (s : State) (w : State) (u : State) (r : AzReq) (ns : List Nat), s.Takes w r 0x020A ∧ s.mayWrite r.chan (r.n 0) = true ∧ r.params.length = 5 ∧
        (s.chan r.chan).ops.length < 8 ∧ w.isRegion (r.n 0) = true ∧ 1 ≤ r.p64 3 ∧ r.p64 1 + r.p64 3 ≤ (w.region (r.n 0)).size ∧ w.pairCap ≠ .red ∧
        w.locked (r.n 0) = false ∧ w.regionOpen (r.n 0) = true ∧ ns = ((w.liveSetts (r.n 0)).filter fun i => decide (r.p64 1 ≤ i ∧
        i < r.p64 1 + r.p64 3)).filterMap (fun i => w.settOf (r.n 0) i) ∧ u = ns.foldl (fun s n => s.zeroSett n) w) ∧
    (∃ (s : State) (w : State) (r : AzReq) (l : Nat) (d : Ld), s.Takes w r 0x020B ∧ s.hasRight r.chan .admin = true ∧ r.params.length = 2 ∧
        r.n 0 < 512 ∧ w.isRegion (r.n 1) = true ∧ l = r.n 0 % 4 * 16 + r.n 0 / 4 % 16 ∧ d = Tab.get {} w.cxl.lds l) :=
  ⟨⟨live, _, ((created live create true).get created_live).1, create, ((created live create true).get created_live).2, takes_mk (by decide +kernel),
      five_and (by decide +kernel) ⟨by decide +kernel, by decide +kernel,
      by decide +kernel, by decide +kernel, by decide +kernel, some_pair (created live create true) created_live⟩⟩,
    ⟨paired, _, ((created paired createFar false).get created_paired).1, createFar, ((created paired createFar false).get created_paired).2,
        takes_mk (by decide +kernel), five_and (by decide +kernel)
        (five_and (by decide +kernel) ⟨by decide +kernel, by decide +kernel, some_pair (created paired createFar false) created_paired⟩)⟩,
    ⟨{ paired with twin.binding := some 0, twin.ownHash := 1 }, _, { chan := 0, params := [1, 1] }, takes_mk (by decide +kernel), by decide +kernel⟩,
    ⟨live, _, { chan := 0, params := [2147483647, 1] }, takes_mk (by decide +kernel), by decide +kernel⟩,
    ⟨live, _, { chan := 0, params := [1] }, takes_mk (by decide +kernel), by decide +kernel⟩,
    ⟨live, _, { chan := 0, params := [4095] }, takes_mk (by decide +kernel), by decide +kernel⟩,
    ⟨live, _, (Option.get (live.wakeIdle.growHere 1 4097) (by decide +kernel)), { chan := 0, params := [1, 4097] }, takes_mk (by decide +kernel),
        five_and (by decide +kernel) ⟨by decide +kernel, by decide +kernel,
        by decide +kernel, by decide +kernel, (Option.some_get _).symm⟩⟩,
    ⟨live, _, { chan := 0, params := [1, 1] }, _, takes_mk (by decide +kernel), five_and (by decide +kernel) ⟨by decide +kernel, by decide +kernel, by decide +kernel, rfl⟩⟩,
    ⟨live, _, { chan := 0, params := [1, 3] }, takes_mk (by decide +kernel), by decide +kernel⟩,
    ⟨{ live with med.setts := [(0, { phys := some ⟨0, 1, 0⟩, mode := .m2 })], xlt.regions := [(1, { valid := true, mode := .m2, size := 4096, extents := [0] })] },
        _, _, { chan := 0, params := [1, 3] }, _, takes_mk (by decide +kernel), five_and (by decide +kernel) ⟨by decide +kernel, by decide +kernel, by decide +kernel, by decide +kernel, by decide +kernel, rfl,
        rfl, by decide +kernel⟩⟩,
    ⟨live, _, { chan := 0, params := [1, 1] }, _, takes_mk (by decide +kernel), by decide +kernel, by decide +kernel, by decide +kernel,
        by decide +kernel, rfl⟩,
    ⟨live, _, { chan := 0, params := [1] }, takes_mk (by decide +kernel), by decide +kernel⟩,
    ⟨live, _, { chan := 0, params := [1, 63, 3] }, takes_mk (by decide +kernel), by decide +kernel⟩,
    ⟨live, _, { chan := 0, params := [1, 255, 0, 1] }, takes_mk (by decide +kernel), by decide +kernel⟩,
    ⟨live, _, { chan := 0, params := [0xFFFF, 255, 0, 1] }, takes_mk (by decide +kernel), by decide +kernel⟩,
    ⟨live, _, { chan := 0, params := [1, 255] }, takes_mk (by decide +kernel), by decide +kernel⟩,
    ⟨{ live with cxl.lds := [(63, { decoders := [(3, { committed := true })] })], cxl.bindings := [(255, some .staging)] }, _,
        { chan := 0, params := [1, 255] }, takes_mk (by decide +kernel), by decide +kernel⟩,
    ⟨live, _, _, { chan := 0, params := [1, 0, 0, 1, 0] }, _, takes_mk (by decide +kernel), five_and (by decide +kernel) ⟨by decide +kernel, by decide +kernel, by decide +kernel, by decide +kernel, rfl, rfl⟩⟩,
    ⟨live, _, { chan := 0, params := [511, 1] }, _, _, takes_mk (by decide +kernel), by decide +kernel, by decide +kernel, by decide +kernel,
        by decide +kernel, rfl, rfl⟩⟩

/-- The hypotheses of `Obligations.ObjectAndPairCommands` can be met, clause by clause. -/
theorem test_witness_ObjectAndPairCommands :
    (∃ (s : State) (w : State) (r : AzReq) (i : Nat), s.Takes w r 0x0301 ∧ s.mayRead r.chan (r.n 0) = true ∧ r.params.length = 8 ∧
        w.isRegion (r.n 0) = true ∧ r.p64 1 < (w.region (r.n 0)).size ∧ 1 ≤ r.p64 3 ∧ r.p64 1 + r.p64 3 ≤ (w.region (r.n 0)).size ∧ r.n 5 < 65536 ∧
        r.n 5 % 256 ≤ 3 ∧ r.p64 6 < 2 ^ 40 ∧ ((List.range (w.xlt.objects.length + 1)).find? fun i => (w.object i).region == 0) = some i ∧ i < 65536) ∧
    (∃ (s : State) (w : State) (r : AzReq), s.Takes w r 0x0302 ∧ s.mayObject r.chan (r.n 0) = true ∧ r.params.length = 1 ∧
        (w.object (r.n 0)).region ≠ 0) ∧
    (∃ (s : State) (w : State) (r : AzReq), s.Takes w r 0x0302 ∧ s.mayObject r.chan (r.n 0) = true ∧ r.params.length = 1 ∧
        (w.object (r.n 0)).region = 0) ∧
    (∃ (s : State) (w : State) (r : AzReq) (o : Object), s.Takes w r 0x0303 ∧ s.mayObject r.chan (r.n 0) = true ∧ r.params.length = 4 ∧
        (w.object (r.n 0)).region ≠ 0 ∧ r.n 1 < 65536 ∧ r.n 1 % 256 ≤ 3 ∧ r.p64 2 < 2 ^ 40 ∧
        (o = { w.object (r.n 0) with hint := if r.p64 2 = 0 then .none else Hint.ofCode (r.n 1 % 256), window := r.n 1 / 256 % 256, expiry := w.expiryOf (r.p64 2) })) ∧
    (∃ (s : State) (w : State) (r : AzReq) (o : Object), s.Takes w r 0x0304 ∧ s.mayObject r.chan (r.n 0) = true ∧ r.params.length = 3 ∧
        (w.object (r.n 0)).region ≠ 0 ∧ (w.object (r.n 0)).expiry.toNat + r.p64 1 < 2 ^ 48 ∧
        (o = { w.object (r.n 0) with expiry := (w.object (r.n 0)).expiry + BitVec.ofNat 48 (r.p64 1) })) ∧
    (∃ (s : State) (w : State) (r : AzReq) (os : List (Nat × Object)), s.Takes w r 0x0305 ∧ s.mayRead r.chan (r.n 0) = true ∧ r.params.length = 2 ∧
        w.isRegion (r.n 0) = true ∧ os = (w.xlt.objects.filter fun o => o.2.region == r.n 0 && decide (r.n 1 ≤ o.1)).take 15 ∧
        (r.via = .legacy → os.length ≤ 3)) ∧
    (∃ (s : State) (w : State) (r : AzReq) (h : Nat), s.Takes w r 0x0401 ∧ s.hasRight r.chan .admin = true ∧ r.params.length = 12 ∧
        w.paired = false ∧
        h = (r.params.take 12).foldl (fun a v => a * 2 ^ 32 + ((v.extractLsb' 0 8 ++ v.extractLsb' 8 8) ++ (v.extractLsb' 16 8 ++ v.extractLsb' 24 8)).toNat) 0) ∧
    (∃ (s : State) (w : State) (r : AzReq), s.Takes w r 0x0401 ∧ s.hasRight r.chan .admin = true ∧ r.params.length = 12 ∧ w.paired = true) ∧
    (∃ (s : State) (w : State) (r : AzReq), s.Takes w r 0x0402 ∧ r.params.length = 0) ∧
    (∃ (s : State) (w : State) (r : AzReq), s.Takes w r 0x0403 ∧ secureChan r.chan = true ∧ r.params.length = 1 ∧
        (r.n 0 = 0xFFFF ∨ w.isRegion (r.n 0) = true) ∧ w.hasRight r.chan .witness = true ∧ w.paired = false ∧
        ((w.witnessed (r.n 0)).filter fun q => (w.rt q).home) ≠ []) ∧
    (∃ (s : State) (w : State) (r : AzReq), s.Takes w r 0x0403 ∧ secureChan r.chan = true ∧ r.params.length = 1 ∧
        (r.n 0 = 0xFFFF ∨ w.isRegion (r.n 0) = true) ∧ w.hasRight r.chan .witness = false) ∧
    (∃ (s : State) (w : State) (u : State) (r : AzReq) (qs : List Nat), s.Takes w r 0x0404 ∧ secureChan r.chan = true ∧ r.params.length = 1 ∧
        (r.n 0 = 0xFFFF ∨ w.isRegion (r.n 0) = true) ∧ w.hasRight r.chan .witness = true ∧ w.paired = false ∧
        qs = (w.witnessed (r.n 0)).filter (fun q => !(w.rt q).home) ∧ qs ≠ [] ∧ u = (qs.foldl (fun s q => s.takeoverRegion q) w).settleTwin) ∧
    (∃ (s : State) (w : State) (r : AzReq), s.Takes w r 0x0405 ∧ secureChan r.chan = true ∧ r.params.length = 1 ∧ w.isRegion (r.n 0) = true ∧
        r.n 0 ≠ 0xFFFF ∧ w.hasRight r.chan .witness = true ∧ (w.rt (r.n 0)).handing = none) ∧
    (∃ (s : State) (w : State) (r : AzReq), s.Takes w r 0x0405 ∧ secureChan r.chan = true ∧ r.params.length = 1 ∧ w.isRegion (r.n 0) = true ∧
        r.n 0 ≠ 0xFFFF ∧ w.hasRight r.chan .witness = true ∧ (w.rt (r.n 0)).handing ≠ none) ∧
    (∃ (s : State) (w : State) (r : AzReq), s.Takes w r 0x0406 ∧ s.hasRight r.chan .admin = true ∧ r.params.length = 1 ∧
        (s.chan r.chan).ops.length < 8 ∧ w.isRegion (r.n 0) = true ∧ w.paired = true ∧ (w.rt (r.n 0)).home = true ∧
        (w.rt (r.n 0)).marks.isEmpty = true ∧ (w.rt (r.n 0)).source = false ∧ (w.rt (r.n 0)).target = false ∧ (w.rt (r.n 0)).handing = none) ∧
    (∃ (s : State) (w : State) (r : AzReq), s.Takes w r 0x0407 ∧ s.hasRight r.chan .admin = true ∧ r.params.length = 0 ∧
        (s.chan r.chan).ops.length < 8 ∧ w.paired = true ∧ w.twin.detaching = false) ∧
    (∃ (s : State) (w : State) (u : State) (r : AzReq), s.Takes w r 0x0408 ∧ s.hasRight r.chan .admin = true ∧ r.params.length = 0 ∧
        w.twin.pair = .detached ∧ u = w.setPair .unpaired ∧ (u.tport false).st = .up) ∧
    (∃ (s : State) (w : State) (r : AzReq), s.Takes w r 0x0408 ∧ s.hasRight r.chan .admin = true ∧ r.params.length = 0 ∧ w.twin.pair ≠ .detached) :=
  ⟨⟨live, _, { chan := 0, params := [1, 4095, 0, 1, 0, 0x103, 0, 0] }, 0, takes_mk (by decide +kernel), by decide +kernel⟩,
    ⟨{ live with xlt.objects := [(65535, { region := 1 })] }, _, { chan := 0, params := [65535] }, takes_mk (by decide +kernel), by decide +kernel⟩,
    ⟨live, _, { chan := 0, params := [0] }, takes_mk (by decide +kernel), by decide +kernel⟩,
    ⟨{ live with xlt.objects := [(0, { region := 1 })] }, _, { chan := 0, params := [0, 0xFF03, 0xFFFFFFFF, 0xFF] }, _, takes_mk (by decide +kernel),
        five_and (by decide +kernel) ⟨by decide +kernel, rfl⟩⟩,
    ⟨{ live with xlt.objects := [(0, { region := 1, expiry := 1 })] }, _, { chan := 0, params := [0, 0xFFFFFFFE, 0xFFFF] }, _,
        takes_mk (by decide +kernel), by decide +kernel, by decide +kernel, by decide +kernel, by decide +kernel, rfl⟩,
    ⟨live, _, { chan := 0, params := [1, 0] }, _, takes_mk (by decide +kernel), by decide +kernel, by decide +kernel, by decide +kernel, rfl,
        by decide +kernel⟩,
    ⟨live, _, { chan := 0, params := List.replicate 12 0 }, _, takes_mk (by decide +kernel), by decide +kernel, by decide +kernel, by decide +kernel,
        rfl⟩,
    ⟨paired, _, { chan := 0, params := List.replicate 12 0 }, takes_mk (by decide +kernel), by decide +kernel⟩,
    ⟨live, _, { chan := 0 }, takes_mk (by decide +kernel), by decide +kernel⟩,
    ⟨{ live with twin.regions := [(1, { home := true })] }, _, { chan := 0, params := [0xFFFF] }, takes_mk (by decide +kernel), by decide +kernel⟩,
    ⟨{ live with chans := [(1, { who := .spdm 5, session := 5 })], sec.mctp := [5] }, _,
        { chan := 1, session := 5, via := .mctp, params := [0xFFFF] }, takes_mk (by decide +kernel), by decide +kernel⟩,
    ⟨{ live with twin.regions := [(1, { opened := true })] }, _, _, { chan := 0, params := [0xFFFF] }, _, takes_mk (by decide +kernel),
        by decide +kernel, by decide +kernel, by decide +kernel, by decide +kernel, by decide +kernel, rfl, by decide +kernel, rfl⟩,
    ⟨live, _, { chan := 0, params := [1] }, takes_mk (by decide +kernel), by decide +kernel⟩,
    ⟨{ live with twin.regions := [(1, { home := true, handing := some none })] }, _, { chan := 0, params := [1] }, takes_mk (by decide +kernel),
        by decide +kernel⟩,
    ⟨paired, _, { chan := 0, params := [1] }, takes_mk (by decide +kernel), by decide +kernel⟩,
    ⟨paired, _, { chan := 0 }, takes_mk (by decide +kernel), by decide +kernel⟩,
    ⟨{ live with twin.pair := .detached }, _, _, { chan := 0 }, takes_mk (by decide +kernel), by decide +kernel, by decide +kernel,
        by decide +kernel, rfl, by decide +kernel⟩,
    ⟨live, _, { chan := 0 }, takes_mk (by decide +kernel), by decide +kernel⟩⟩

/-- The hypotheses of `Obligations.FirmwareAndLogCommands` can be met, clause by clause. -/
theorem test_witness_FirmwareAndLogCommands :
    (∃ (s : State) (w : State) (r : AzReq), s.Takes w r 0x0701 ∧ s.hasRight r.chan .firmware = true ∧ r.params.length = 2 ∧
        (s.chan r.chan).ops.length < 8 ∧ r.n 0 % 65536 = 0 ∧ r.n 1 % 256 = 0 ∧ 256 ≤ r.n 1 ∧ r.n 1 ≤ 2 ^ 20 ∧ r.n 0 + r.n 1 ≤ 2 ^ 24 ∧
        w.flash.slots.trial = false ∧ w.flash.slots.bootCopy = 0 ∧ w.flash.work = none) ∧
    (∃ (s : State) (w : State) (r : AzReq), s.Takes w r 0x0702 ∧ s.hasRight r.chan .firmware = true ∧ r.params.length = 1 ∧
        (s.chan r.chan).ops.length < 8 ∧ w.flash.work = none) ∧
    (∃ (s : State) (w : State) (r : AzReq), s.Takes w r 0x0702 ∧ s.hasRight r.chan .firmware = true ∧ r.params.length = 1 ∧
        (s.chan r.chan).ops.length < 8 ∧ w.flash.work ≠ none) ∧
    (∃ (s : State) (w : State) (r : AzReq), s.Takes w r 0x0703 ∧ s.hasRight r.chan .firmware = true ∧ r.params.length = 0 ∧
        (s.chan r.chan).ops.length < 8 ∧ w.flash.work = none ∧ w.activateBarred = false) ∧
    (∃ (s : State) (w : State) (r : AzReq), s.Takes w r 0x0703 ∧ s.hasRight r.chan .firmware = true ∧ r.params.length = 0 ∧
        (s.chan r.chan).ops.length < 8 ∧ w.flash.work = none ∧ w.activateBarred = true) ∧
    (∃ (s : State) (w : State) (r : AzReq), s.Takes w r 0x0704 ∧ r.params.length = 0) ∧
    (∃ (s : State) (w : State) (r : AzReq) (start : Nat) (es : List Entry), s.Takes w r 0x0801 ∧ r.params.length = 2 ∧ r.n 1 ≤ 16384 ∧
        start = max (r.n 0) w.evrOldest.toNat ∧ es = ((w.entriesFrom start).filter fun e => w.entryReadable r.chan e).take (r.n 1)) ∧
    (∃ (s : State) (w : State) (u : State) (v : State) (r : AzReq), s.Takes w r 0x0802 ∧ s.hasRight r.chan .clearLog = true ∧ r.params.length = 0 ∧
        (v = (w.setEvr { w.evr with clear := w.evr.next, archived := w.evr.next, paged := w.evr.next }).nvWrite Config.nvClear [w.evr.next.toNat]) ∧
        (u = (List.range (((w.flash.pages.filter fun p => p.kind == 0).length + 255) / 256)).foldl (fun s k => s.flashPush (.erase .vault k)) (v.setFlash { v.flash with pages := v.flash.pages.filter fun p => p.kind != 0 }))) ∧
    (∃ (s : State) (w : State) (r : AzReq), s.Takes w r 0x0803 ∧ s.hasRight r.chan .admin = true ∧ r.params.length = 2 ∧ r.n 0 ≤ 1023 ∧
        r.n 1 < 2 ^ 14) ∧
    (∃ (s : State) (w : State) (r : AzReq), s.Takes w r 0x0804 ∧ r.params.length = 0) ∧
    (∃ (s : State) (w : State) (u : State) (p : Fin 4) (l : Fin 16) (off : Nat) (data : List Word), s.psq.mainUp = true ∧ s.ldThere p l = true ∧
        w = s.wakeIdle ∧ w.fmOwned p l = true ∧ w.chunkBarred = false ∧ w.flash.work = none ∧ data ≠ [] ∧ off % 128 = 0 ∧
        off + 4 * data.length ≤ 2 ^ 24 ∧ w.cxl.xfer = some off ∧ u = w.chunkStart none off data) ∧
    (∃ (s : State) (w : State) (u : State) (p : Fin 4) (l : Fin 16) (off : Nat) (data : List Word), s.psq.mainUp = true ∧ s.ldThere p l = true ∧
        w = s.wakeIdle ∧ w.fmOwned p l = true ∧ w.chunkBarred = false ∧ w.flash.work = none ∧ data ≠ [] ∧ off % 128 = 0 ∧
        off + 4 * data.length ≤ 2 ^ 24 ∧ w.cxl.xfer = some off ∧ u = w.chunkStart none off data) ∧
    (∃ (s : State) (w : State) (p : Fin 4) (l : Fin 16), s.psq.mainUp = true ∧ s.ldThere p l = true ∧ w = s.wakeIdle ∧ w.fmOwned p l = true ∧
        w.cxl.xfer ≠ none) ∧
    (∃ (s : State) (w : State) (p : Fin 4) (l : Fin 16), s.psq.mainUp = true ∧ s.ldThere p l = true ∧ w = s.wakeIdle ∧ w.fmOwned p l = false) ∧
    (∃ (s : State) (w : State) (p : Fin 4) (l : Fin 16) (slot : Fin 4), s.psq.mainUp = true ∧ s.ldThere p l = true ∧ w = s.wakeIdle ∧
        w.fmOwned p l = true ∧ slot.val = w.flash.slots.active.toNat + 1 ∧ w.flash.work = none ∧ w.activateBarred = false) ∧
    (∃ (s : State) (w : State) (u : State) (r : AzReq) (lost : List Nat) (bs : List Byte), s.Takes w r 0x0705 ∧ s.hasRight r.chan .admin = true ∧
        r.params.length = 3 ∧ r.n 0 ≤ 3 ∧ r.n 2 ≤ 2 ^ 20 ∧ u = w.vaultLose lost ∧
        (bs = ((((u.flash.pages.filter fun p => p.kind.val == r.n 0 && !p.bad).flatMap fun p => p.data.bytes).drop (r.n 1)).take (r.n 2)))) :=
  ⟨⟨live, _, { chan := 0, params := [0xFF0000, 0x10000] }, takes_mk (by decide +kernel), by decide +kernel⟩,
    ⟨live, _, { chan := 0, params := [0] }, takes_mk (by decide +kernel), by decide +kernel⟩,
    ⟨{ live with flash.work := some (.chunk none) }, _, { chan := 0, params := [0] }, takes_mk (by decide +kernel), by decide +kernel⟩,
    ⟨{ live with flash.slots.active := true }, _, { chan := 0 }, takes_mk (by decide +kernel), by decide +kernel⟩,
    ⟨live, _, { chan := 0 }, takes_mk (by decide +kernel), by decide +kernel⟩,
    ⟨live, _, { chan := 0 }, takes_mk (by decide +kernel), by decide +kernel⟩,
    ⟨live, _, { chan := 0, params := [0, 16384] }, _, _, takes_mk (by decide +kernel), by decide +kernel, by decide +kernel, rfl, rfl⟩,
    ⟨live, _, _, _, { chan := 0 }, takes_mk (by decide +kernel), by decide +kernel, by decide +kernel, rfl, rfl⟩,
    ⟨live, _, { chan := 0, params := [1023, 16383] }, takes_mk (by decide +kernel), by decide +kernel⟩,
    ⟨live, _, { chan := 0 }, takes_mk (by decide +kernel), by decide +kernel⟩,
    ⟨{ live with cxl.xfer := some 16777088 }, _, _, 0, 0, 16777088, [0], by decide +kernel, by decide +kernel, rfl, five_and (by decide +kernel) ⟨by decide +kernel, by decide +kernel, rfl⟩⟩,
    ⟨{ live with cxl.xfer := some 16777088 }, _, _, 0, 0, 16777088, [0], by decide +kernel, by decide +kernel, rfl, five_and (by decide +kernel) ⟨by decide +kernel, by decide +kernel, rfl⟩⟩,
    ⟨{ live with cxl.xfer := some 0 }, _, 0, 0, by decide +kernel, by decide +kernel, rfl, by decide +kernel⟩,
    ⟨{ live with cxl.ports := [(0, { st := .l0, lds := 16, mld := true })] }, _, 0, 1, by decide +kernel, by decide +kernel, rfl, by decide +kernel⟩,
    ⟨{ live with flash.slots.active := true }, _, 0, 0, 2, by decide +kernel, by decide +kernel, rfl, by decide +kernel⟩,
    ⟨live, _, _, { chan := 0, params := [3, 0, 1048576] }, [], _, takes_mk (by decide +kernel), by decide +kernel, by decide +kernel,
        by decide +kernel, by decide +kernel, rfl, rfl⟩⟩

/-- The hypotheses of `Obligations.KeyAndLifeCycleCommands` can be met, clause by clause. -/
theorem test_witness_KeyAndLifeCycleCommands :
    (∃ (s : State) (w : State) (r : AzReq), s.Takes w r 0x0501 ∧ s.mayWrite r.chan (r.n 0) = true ∧ r.params.length = 2 ∧ w.isRegion (r.n 0) = true ∧
        32 ≤ r.n 1 ∧ r.n 1 ≤ 512 ∧ (w.keySlot (r.n 0)).shareRequired = true ∧
        ((w.keySlot (r.n 0)).state = .awaitingShare ∨ (w.keySlot (r.n 0)).state = .active ∧ r.ok = true) ∧
        (w.keySlot (r.n 0)).holdUntil ≤ w.holdNow) ∧
    (∃ (s : State) (w : State) (r : AzReq), s.Takes w r 0x0501 ∧ s.mayWrite r.chan (r.n 0) = true ∧ r.params.length = 2 ∧ w.isRegion (r.n 0) = true ∧
        32 ≤ r.n 1 ∧ r.n 1 ≤ 512 ∧ (w.keySlot (r.n 0)).shareRequired = true ∧ (w.keySlot (r.n 0)).state = .active ∧ r.ok = false ∧
        (w.keySlot (r.n 0)).holdUntil ≤ w.holdNow) ∧
    (∃ (s : State) (w : State) (r : AzReq), s.Takes w r 0x0501 ∧ s.mayWrite r.chan (r.n 0) = true ∧ r.params.length = 2 ∧ w.isRegion (r.n 0) = true ∧
        32 ≤ r.n 1 ∧ r.n 1 ≤ 512 ∧ (w.keySlot (r.n 0)).shareRequired = true ∧ (w.keySlot (r.n 0)).state = .active ∧
        w.holdNow < (w.keySlot (r.n 0)).holdUntil) ∧
    (∃ (s : State) (w : State) (r : AzReq), s.Takes w r 0x0502 ∧ s.mayWrite r.chan (r.n 0) = true ∧ r.params.length = 1 ∧ w.isRegion (r.n 0) = true ∧
        (w.keySlot (r.n 0)).shareRequired = true ∧ w.locked (r.n 0) = false) ∧
    (∃ (s : State) (w : State) (r : AzReq), s.Takes w r 0x0503 ∧ s.hasRight r.chan .keys = true ∧ r.params.length = 1 ∧
        (s.chan r.chan).ops.length < 8 ∧ w.isRegion (r.n 0) = true ∧ w.sec.trngFail = false) ∧
    (∃ (s : State) (w : State) (r : AzReq), s.Takes w r 0x0503 ∧ s.hasRight r.chan .keys = true ∧ r.params.length = 1 ∧
        (s.chan r.chan).ops.length < 8 ∧ w.isRegion (r.n 0) = true ∧ w.sec.trngFail = true) ∧
    (∃ (s : State) (w : State) (r : AzReq) (k : List Byte), s.Takes w r 0x0504 ∧ s.hasRight r.chan .keys = true ∧ r.params.length = 1 ∧ r.n 0 = 97 ∧
        k = (List.range 97).map (fun i => w.stageByte r.chan i)) ∧
    (∃ (s : State) (w : State) (u : State) (r : AzReq) (i : Nat), s.Takes w r 0x0505 ∧ s.hasRight r.chan .keys = true ∧ r.params.length = 2 ∧
        r.n 0 ≤ 7 ∧ r.n 1 ≤ 63 ∧ i = r.n 0 * 64 + r.n 1 ∧
        (u = { w with sec := { w.sec with nextKey := w.sec.nextKey + 1 }, rdma := { w.rdma with caks := Tab.put none w.rdma.caks i (some w.sec.nextKey) } })) ∧
    (∃ (s : State) (w : State) (r : AzReq) (n : Nat), s.Takes w r 0x0506 ∧ r.params.length = 2 ∧ r.n 0 = 0 ∧ r.n 1 ≤ Config.certLen ∧
        n = min (Config.certLen - r.n 1) (2 ^ 20)) ∧
    (∃ (s : State) (w : State) (r : AzReq), s.Takes w r 0x0601 ∧ r.params.length = 0) ∧
    (∃ (s : State) (w : State) (r : AzReq) (gs : List Nat), s.Takes w r 0x0602 ∧ s.hasRight r.chan .lifecycle = true ∧ r.params.length = 1 ∧
        (s.chan r.chan).ops.length < 8 ∧ r.n 0 ≤ 5 ∧ w.paired = false ∧ w.sec.trngFail = false ∧ w.sec.lcWork = none ∧
        w.authGroups r.chan (r.n 0) r.ok = some gs) ∧
    (∃ (s : State) (w : State) (r : AzReq), s.Takes w r 0x0602 ∧ s.hasRight r.chan .lifecycle = true ∧ r.params.length = 1 ∧
        (s.chan r.chan).ops.length < 8 ∧ r.n 0 ≤ 5 ∧ w.paired = false ∧ w.sec.trngFail = false ∧ w.sec.lcWork = none ∧
        w.authGroups r.chan (r.n 0) r.ok = none) ∧
    (∃ (s : State) (w : State) (u : State) (r : AzReq), s.Takes w (r.withP0 0) 0x0603 ∧ s.hasRight r.chan .lifecycle = true ∧ r.params.length = 1 ∧
        w.sec.trngFail = false ∧ u = (List.range 12).foldl (fun (s : State) _ => s.draw) w) ∧
    (∃ (s : State) (w : State) (r : AzReq), s.Takes w (r.withP0 1) 0x0603 ∧ s.hasRight r.chan .lifecycle = true ∧ r.params.length = 1 ∧
        w.sec.challenge = true ∧ r.ok = true ∧ (w.life = .fieldOpen ∨ w.life = .returned)) ∧
    (∃ (s : State) (w : State) (r : AzReq), s.Takes w (r.withP0 1) 0x0603 ∧ s.hasRight r.chan .lifecycle = true ∧ r.params.length = 1 ∧
        (w.sec.challenge = false ∨ r.ok = false ∨ w.life ≠ .fieldOpen ∧ w.life ≠ .returned)) ∧
    (∃ (s : State), s.psq.mainUp = true ∧ s.sec.rop = 0) ∧
    (∃ (s : State), s.psq.mainUp = true ∧ s.sec.rop ≠ 0) ∧
    (∃ (s : State), s.psq.mainUp = true) ∧
    (∃ (s : State), s.psq.mainUp = true) ∧
    (∃ (s : State), s.psq.mainUp = true) ∧
    (∃ (s : State), s.psq.mainUp = true ∧ s.sec.trngFail = false) ∧
    (∃ (s : State), s.psq.mainUp = true ∧ s.sec.trngFail = true) :=
  ⟨⟨{ live with sec.slots := [(1, { shareRequired := true, state := .awaitingShare })] }, _, { chan := 0, params := [1, 512] },
      takes_mk (by decide +kernel), by decide +kernel⟩,
    ⟨{ live with sec.slots := [(1, { shareRequired := true, state := .active })] }, _, { chan := 0, params := [1, 32], ok := false },
        takes_mk (by decide +kernel), by decide +kernel⟩,
    ⟨{ live with sec.slots := [(1, { shareRequired := true, state := .active, holdUntil := 1 })] }, _, { chan := 0, params := [1, 32] },
        takes_mk (by decide +kernel), by decide +kernel⟩,
    ⟨{ live with sec.slots := [(1, { shareRequired := true, state := .active, loaded := true })] }, _, { chan := 0, params := [1] },
        takes_mk (by decide +kernel), by decide +kernel⟩,
    ⟨live, _, { chan := 0, params := [1] }, takes_mk (by decide +kernel), by decide +kernel⟩,
    ⟨{ live with sec.trngFail := true }, _, { chan := 0, params := [1] }, takes_mk (by decide +kernel), by decide +kernel⟩,
    ⟨live, _, { chan := 0, params := [97] }, _, takes_mk (by decide +kernel), by decide +kernel, by decide +kernel, by decide +kernel, rfl⟩,
    ⟨live, _, _, { chan := 0, params := [7, 63] }, _, takes_mk (by decide +kernel), by decide +kernel, by decide +kernel, by decide +kernel,
        by decide +kernel, rfl, rfl⟩,
    ⟨live, _, { chan := 0, params := [0, 0] }, _, takes_mk (by decide +kernel), by decide +kernel, by decide +kernel, Nat.zero_le _, rfl⟩,
    ⟨live, _, { chan := 0 }, takes_mk (by decide +kernel), by decide +kernel⟩,
    ⟨staged, _, { chan := 0, params := [2] }, [1], takes_mk (by decide +kernel), five_and (by decide +kernel) ⟨by decide +kernel, by decide +kernel, staged_groups⟩⟩,
    ⟨live, _, { chan := 0, params := [5], ok := false }, takes_mk (by decide +kernel), by decide +kernel⟩,
    ⟨live, _, _, { chan := 0, params := [0] }, takes_mk (by decide +kernel), by decide +kernel, by decide +kernel, by decide +kernel, rfl⟩,
    ⟨{ live with sec.challenge := true, sec.groups := 0xFFFFFFFF }, _, { chan := 0, params := [1] }, takes_mk (by decide +kernel), by decide +kernel⟩,
    ⟨live, _, { chan := 0, params := [1] }, takes_mk (by decide +kernel), by decide +kernel⟩,
    ⟨live, by decide +kernel⟩,
    ⟨{ live with sec.rop := 2 }, by decide +kernel⟩,
    ⟨live, by decide +kernel⟩,
    ⟨live, by decide +kernel⟩,
    ⟨live, by decide +kernel⟩,
    ⟨live, by decide +kernel⟩,
    ⟨{ live with sec.trngFail := true }, by decide +kernel⟩⟩

/-- The hypotheses of `Obligations.BenchAndMediumCommands` can be met, clause by clause. -/
theorem test_witness_BenchAndMediumCommands :
    (∃ (s : State) (w : State) (r : AzReq), s.Takes w r 0x0A01 ∧ s.hasRight r.chan .bench = true ∧ r.params.length = 1 ∧ r.n 0 ≤ 15) ∧
    (∃ (s : State) (w : State) (r : AzReq), s.Takes w r 0x0A01 ∧ s.hasRight r.chan .bench = true ∧ r.params.length = 1 ∧ 15 < r.n 0) ∧
    (∃ (s : State) (w : State) (r : AzReq), s.Takes w r 0x0A02 ∧ s.hasRight r.chan .bench = true ∧ r.params.length = 0 ∧ w.xlt.raw = []) ∧
    (∃ (s : State) (w : State) (u : State) (r : AzReq), s.Takes w r 0x0A02 ∧ s.hasRight r.chan .bench = true ∧ r.params.length = 0 ∧
        w.xlt.raw ≠ [] ∧ u = w.cause Reg.XLT_CAUSE 0 6 310) ∧
    (∃ (s : State) (w : State) (r : AzReq), s.Takes w r 0x0A03 ∧ s.hasRight r.chan .admin = true ∧ r.params.length = 4 ∧
        (s.chan r.chan).ops.length < 8 ∧ (r.p 0).setWidth 16 = 0#16 ∧ (r.p 2).setWidth 16 = 0#16 ∧ (r.p 2 ≠ 0 ∨ r.p 3 ≠ 0) ∧ w.dram.sreq = none) ∧
    (∃ (s : State) (w : State) (r : AzReq), s.Takes w r 0x0A03 ∧ s.hasRight r.chan .admin = true ∧ r.params.length = 4 ∧
        (s.chan r.chan).ops.length < 8 ∧ (r.p 0).setWidth 16 = 0#16 ∧ (r.p 2).setWidth 16 = 0#16 ∧ (r.p 2 ≠ 0 ∨ r.p 3 ≠ 0) ∧ w.dram.sreq ≠ none) ∧
    (∃ (s : State) (w : State) (r : AzReq), s.Takes w r 0x0A05 ∧ s.hasRight r.chan .admin = true ∧ r.params.length = 3 ∧ r.n 2 ≤ 3 ∧ r.n 0 % 4 = 0 ∧
        State.writeBad w (.core 0) (r.n 0) (State.accessOf (r.n 2)) = none) ∧
    (∃ (s : State) (w : State) (r : AzReq), s.Takes w r 0x0C01 ∧ s.hasRight r.chan .admin = true ∧ r.params.length = 1 ∧ r.n 0 ≤ 2303 ∧
        (w.die (r.n 0)).used = true) ∧
    (∃ (s : State) (w : State) (r : AzReq), s.Takes w r 0x0C02 ∧ s.hasRight r.chan .admin = true ∧ r.params.length = 0 ∧
        (s.chan r.chan).ops.length < 8) ∧
    (∃ (s : State) (w : State) (r : AzReq) (gs : List Nat), s.Takes w r 0x0C03 ∧ s.hasRight r.chan .admin = true ∧ r.params.length = 1 ∧
        r.n 0 < 512 ∧ gs = (State.maskGroups (r.p 0)).filter (fun g => (w.qg g).inService) ∧ (gs = [] ∨ (∃ g ∈ gs, (w.pass g).running = false))) ∧
    (∃ (s : State) (w : State) (r : AzReq) (gs : List Nat), s.Takes w r 0x0C03 ∧ s.hasRight r.chan .admin = true ∧ r.params.length = 1 ∧
        r.n 0 < 512 ∧ gs = (State.maskGroups (r.p 0)).filter (fun g => (w.qg g).inService) ∧ gs ≠ [] ∧ (∀ g ∈ gs, (w.pass g).running = true)) ∧
    (∃ (s : State) (w : State) (r : AzReq), s.Takes w r 0x0C04 ∧ s.hasRight r.chan .admin = true ∧ r.params.length = 1 ∧
        (s.chan r.chan).ops.length < 8 ∧ r.n 0 ≤ 2303 ∧ w.dieUp (r.n 0) = true ∧ (w.die (r.n 0)).sweep = false) ∧
    (∃ (s : State) (w : State) (r : AzReq), s.Takes w r 0x0C04 ∧ s.hasRight r.chan .admin = true ∧ r.params.length = 1 ∧
        (s.chan r.chan).ops.length < 8 ∧ r.n 0 ≤ 2303 ∧ w.dieUp (r.n 0) = false) ∧
    (∃ (s : State) (w : State) (r : AzReq), s.Takes w r 0x0C05 ∧ r.params.length = 0) ∧
    (∃ (s : State) (w : State) (r : AzReq), s.Takes w (r.withP1Bit true) 0x0C06 ∧ s.hasRight r.chan .admin = true ∧ r.params.length = 2 ∧
        r.n 0 ≤ 143 ∧ r.n 1 < 2) ∧
    (∃ (s : State) (w : State) (r : AzReq), s.Takes w (r.withP1Bit false) 0x0C06 ∧ s.hasRight r.chan .admin = true ∧ r.params.length = 2 ∧
        r.n 0 ≤ 143 ∧ r.n 1 < 2 ∧ (∀ j < 16, (w.qc (16 * (r.n 0 / 16) + j)).lstate = .active)) ∧
    (∃ (s : State) (w : State) (r : AzReq) (k : Nat), s.Takes w (r.withP1Bit false) 0x0C06 ∧ s.hasRight r.chan .admin = true ∧ r.params.length = 2 ∧
        r.n 0 ≤ 143 ∧ r.n 1 < 2 ∧ (∃ j < 16, (w.qc (16 * (r.n 0 / 16) + j)).lstate ≠ .active) ∧ k = w.groupSlot (r.n 0 / 16) ∧
        (24 ≤ k ∨ (w.seq k).en = false)) ∧
    (∃ (s : State) (w : State) (r : AzReq) (k : Nat), s.Takes w (r.withP1Bit false) 0x0C06 ∧ s.hasRight r.chan .admin = true ∧ r.params.length = 2 ∧
        r.n 0 ≤ 143 ∧ r.n 1 < 2 ∧ (∃ j < 16, (w.qc (16 * (r.n 0 / 16) + j)).lstate ≠ .active) ∧ k = w.groupSlot (r.n 0 / 16) ∧ k < 24 ∧
        (w.seq k).en = true ∧ w.psq.trans = none ∧ (w.qg (r.n 0 / 16)).railsUp = false ∧ (w.rail k).en = false ∧ (w.rail k).pg = false) ∧
    (∃ (s : State) (w : State) (u : State) (r : AzReq) (x : Word), s.Takes w r 0x0A04 ∧ s.hasRight r.chan .admin = true ∧ r.params.length = 1 ∧
        r.n 0 % 4 = 0 ∧ r.n 0 < 0x1000000 ∧ w.readWord (.core 0) (r.n 0 % 0x400000) = some (u, x)) ∧
    (∃ (s : State) (w : State) (r : AzReq), s.Takes w r 0x0A04 ∧ s.hasRight r.chan .admin = true ∧ r.params.length = 1 ∧
        (r.n 0 % 4 ≠ 0 ∨ 0x1000000 ≤ r.n 0 ∨ w.readWord (.core 0) (r.n 0 % 0x400000) = none)) :=
  ⟨⟨live, _, { chan := 0, params := [15] }, takes_mk (by decide +kernel), by decide +kernel⟩,
    ⟨live, _, { chan := 0, params := [16] }, takes_mk (by decide +kernel), by decide +kernel⟩,
    ⟨live, _, { chan := 0 }, takes_mk (by decide +kernel), by decide +kernel⟩,
    ⟨{ live with xlt.raw := [{ addr := 0, mask := 1, data := 0 }] }, _, _, { chan := 0 }, takes_mk (by decide +kernel), by decide +kernel,
        by decide +kernel, by decide +kernel, rfl⟩,
    ⟨live, _, { chan := 0, params := [0, 0, 0x10000, 0] }, takes_mk (by decide +kernel), by decide +kernel⟩,
    ⟨{ live with dram.sreq := some {} }, _, { chan := 0, params := [0, 0, 0x10000, 0] }, takes_mk (by decide +kernel), by decide +kernel⟩,
    ⟨live, _, { chan := 0, params := [BitVec.ofNat 32 (Reg.EVR_CTRL.at 0), 0, 3] }, takes_mk (by decide +kernel), by decide +kernel⟩,
    ⟨live, _, { chan := 0, params := [0] }, takes_mk (by decide +kernel), by decide +kernel⟩,
    ⟨live, _, { chan := 0 }, takes_mk (by decide +kernel), by decide +kernel⟩,
    ⟨live, _, { chan := 0, params := [1] }, _, takes_mk (by decide +kernel), by decide +kernel, by decide +kernel, by decide +kernel, rfl,
        by decide +kernel⟩,
    ⟨{ live with med.passes := [(0, { running := true })] }, _, { chan := 0, params := [1] }, _, takes_mk (by decide +kernel), by decide +kernel,
        by decide +kernel, by decide +kernel, rfl, by decide +kernel⟩,
    ⟨live, _, { chan := 0, params := [0] }, takes_mk (by decide +kernel), by decide +kernel⟩,
    ⟨live, _, { chan := 0, params := [2303] }, takes_mk (by decide +kernel), by decide +kernel⟩,
    ⟨live, _, { chan := 0 }, takes_mk (by decide +kernel), by decide +kernel⟩,
    ⟨live, _, { chan := 0, params := [143, 0] }, takes_mk (by decide +kernel), by decide +kernel⟩,
    ⟨{ live with med.chans := (List.range 16).map fun k => (k, { lstate := .active }) }, _, { chan := 0, params := [0, 0] },
        takes_mk (by decide +kernel), by decide +kernel, by decide +kernel, by decide +kernel, by decide +kernel, by decide +kernel⟩,
    ⟨{ live with psq.seqAct := [] }, _, { chan := 0, params := [0, 0] }, _, takes_mk (by decide +kernel), by decide +kernel, by decide +kernel,
        by decide +kernel, by decide +kernel, ⟨15, by decide +kernel, by decide +kernel⟩, rfl, by decide +kernel⟩,
    ⟨{ live with med.groups := [] }, _, { chan := 0, params := [0, 0] }, _, takes_mk (by decide +kernel), by decide +kernel, by decide +kernel,
        by decide +kernel, by decide +kernel, ⟨15, by decide +kernel, by decide +kernel⟩, rfl, by decide +kernel⟩,
    ⟨live, _, _, { chan := 0, params := [0x020000] }, _, takes_mk (by decide +kernel), by decide +kernel, by decide +kernel, by decide +kernel,
        by decide +kernel, rfl⟩,
    ⟨live, _, { chan := 0, params := [1] }, takes_mk (by decide +kernel), by decide +kernel⟩⟩

/-- The hypotheses of `Obligations.RdmaObjectCommands` can be met, clause by clause. -/
theorem test_witness_RdmaObjectCommands :
    (∃ (s : State) (w : State) (r : AzReq) (vlan : Option (BitVec 12)), s.Takes w r 0x0B01 ∧ s.hasRight r.chan .admin = true ∧ r.params.length = 7 ∧
        r.n 0 ≤ 31 ∧ r.n 1 ≤ 15 ∧ r.p 6 &&& 0xFFFEF000#32 = 0 ∧ vlan = (if (r.p 6).getLsbD 16 then some ((r.p 6).setWidth 12) else none)) ∧
    (∃ (s : State) (w : State) (r : AzReq) (i : Nat), s.Takes w r 0x0B02 ∧ r.params.length = 0 ∧ w.sec.trngFail = false ∧
        firstFree w.rdma.pds 4096 = some i) ∧
    (∃ (s : State) (w : State) (r : AzReq), s.Takes w r 0x0B02 ∧ r.params.length = 0 ∧ w.sec.trngFail = true) ∧
    (∃ (s : State) (w : State) (r : AzReq), s.Takes w r 0x0B03 ∧ s.pdMine r.chan (r.n 0) = true ∧ r.params.length = 1 ∧ w.pdAt (r.n 0) ≠ none) ∧
    (∃ (s : State) (w : State) (r : AzReq) (p : Pd), s.Takes w r 0x0B04 ∧ s.pdMine r.chan (r.n 0) = true ∧ r.params.length = 1 ∧
        w.pdAt (r.n 0) = some p ∧ w.sec.trngFail = false) ∧
    (∃ (s : State) (w : State) (r : AzReq) (i : Nat) (tag : BitVec 14), s.Takes w r 0x0B05 ∧ s.pdMine r.chan (r.n 0) = true ∧
        s.windowReach r.chan (r.n 1) (r.n 2) (r.p64 5) (r.p64 7) = true ∧ r.params.length = 9 ∧ w.pdAt (r.n 0) ≠ none ∧
        (r.n 1 = stagingRegion ∨ w.isRegion (r.n 1) = true ∧ r.p64 5 + r.p64 7 ≤ (w.region (r.n 1)).size * 65536) ∧ r.n 2 ≤ 31 ∧ r.p64 5 % 4096 = 0 ∧
        r.p64 7 % 4096 = 0 ∧ 4096 ≤ r.p64 7 ∧ firstFree w.rdma.wins 262144 = some i ∧ tag = (Config.trng w.fresh).setWidth 14) ∧
    (∃ (s : State) (w : State) (r : AzReq), s.Takes w r 0x0B05 ∧ s.pdMine r.chan (r.n 0) = true ∧
        s.windowReach r.chan (r.n 1) (r.n 2) (r.p64 5) (r.p64 7) = true ∧ r.params.length = 9 ∧ w.pdAt (r.n 0) ≠ none ∧ r.n 1 ≠ stagingRegion ∧
        w.isRegion (r.n 1) = true ∧ r.n 2 ≤ 31 ∧ r.p64 5 % 4096 = 0 ∧ (w.region (r.n 1)).size * 65536 < r.p64 5 + r.p64 7) ∧
    (∃ (s : State) (w : State) (r : AzReq), s.Takes w r 0x0B06 ∧ s.windowMine r.chan (r.p 0) = true ∧ r.params.length = 1 ∧ w.window (r.p 0) ≠ none) ∧
    (∃ (s : State) (w : State) (r : AzReq) (g : Nat) (off : Nat) (i : Nat), s.Takes w r 0x0B07 ∧ s.pdMine r.chan (r.n 0) = true ∧
        r.params.length = 5 ∧ w.pdAt (r.n 0) ≠ none ∧ 6 ≤ r.n 4 ∧ r.n 4 ≤ 20 ∧ w.ringAt (r.n 0) (r.p 1) (r.p64 2) (64 + 32 * 2 ^ r.n 4) = (false,
        some (g, off)) ∧ firstFree w.rdma.cqs 65536 = some i) ∧
    (∃ (s : State) (w : State) (r : AzReq), s.Takes w r 0x0B08 ∧ ((s.cq (r.n 0)).all fun q => s.pdMine r.chan q.pd) = true ∧ r.params.length = 1 ∧
        w.cq (r.n 0) ≠ none) ∧
    (∃ (s : State) (w : State) (r : AzReq) (n : Nat) (g : Nat) (off : Nat), s.Takes w r 0x0B09 ∧ s.qpMine r.chan (r.n 0) = true ∧
        r.params.length = 7 ∧ w.qpOf (r.n 0) = some n ∧ (w.qp n).mgmt = none ∧ 4 ≤ r.n 4 ∧ r.n 4 ≤ 16 ∧
        ((w.cq (r.n 5)).any fun c => c.pd == (w.qp n).pd) = true ∧ w.ringAt (w.qp n).pd (r.p 1) (r.p64 2) (64 * 2 ^ r.n 4) = (false, some (g, off)) ∧
        (w.qp n).error = false ∧ (w.qp n).flight = [] ∧ (w.qp n).wqes = [] ∧ (w.qp n).sqHead = (w.qp n).sqTail) ∧
    (∃ (s : State) (w : State) (r : AzReq) (n : Nat) (k : Nat) (tail : Nat), s.Takes w r 0x0B0A ∧ s.qpMine r.chan (r.n 0) = true ∧
        r.params.length = 2 ∧ w.qpOf (r.n 0) = some n ∧ (w.qp n).sqN = some k ∧ r.n 1 ≤ 65535 ∧
        tail = (w.qp n).sqTail + (r.n 1 + 65536 - (w.qp n).sqTail % 65536) % 65536 ∧ tail ≤ (w.qp n).sqHead + 2 ^ k ∧ (w.qp n).error = false) ∧
    (∃ (s : State) (w : State) (r : AzReq) (n : Nat), s.Takes w r 0x0B0B ∧ s.qpMine r.chan (r.n 0) = true ∧ r.params.length = 1 ∧
        w.qpOf (r.n 0) = some n) :=
  ⟨⟨live, _, { chan := 0, params := [31, 15, 0, 0, 0, 0, 0x10FFF] }, _, takes_mk (by decide +kernel), by decide +kernel, by decide +kernel,
      by decide +kernel, by decide +kernel, by decide +kernel, rfl⟩,
    ⟨live, _, { chan := 0 }, 0, takes_mk (by decide +kernel), by decide +kernel⟩,
    ⟨{ live with sec.trngFail := true }, _, { chan := 0 }, takes_mk (by decide +kernel), by decide +kernel⟩,
    ⟨{ live with rdma.pds := [(4095, some {})] }, _, { chan := 0, params := [4095] }, takes_mk (by decide +kernel), by decide +kernel⟩,
    ⟨{ live with rdma.pds := [(0, some {})] }, _, { chan := 0, params := [0] }, {}, takes_mk (by decide +kernel), by decide +kernel⟩,
    ⟨{ live with rdma.pds := [(0, some {})] }, _, { chan := 0, params := [0, 1, 31, 0, 0, 0x0FFFF000, 0, 0x1000, 0] }, 0, _,
        takes_mk (by decide +kernel), five_and (by decide +kernel) ⟨by decide +kernel, by decide +kernel, by decide +kernel, by decide +kernel, by decide +kernel, rfl⟩⟩,
    ⟨{ live with rdma.pds := [(0, some {})] }, _, { chan := 0, params := [0, 1, 31, 0, 0, 0x10000000, 0, 0x1000, 0] }, takes_mk (by decide +kernel),
        by decide +kernel⟩,
    ⟨{ live with rdma.pds := [(0, some {})], rdma.wins := [(0, some {})] }, _, { chan := 0, params := [0] }, takes_mk (by decide +kernel),
        by decide +kernel⟩,
    ⟨{ live with rdma.pds := [(0, some {})], rdma.wins := [(0, some { region := 1, len := 0x10000000 })] }, _,
        { chan := 0, params := [0, 0, 0, 0, 20] }, 1, 0, 0, takes_mk (by decide +kernel), by decide +kernel⟩,
    ⟨{ live with rdma.pds := [(0, some {})], rdma.cqs := [(65535, some {})] }, _, { chan := 0, params := [65535] }, takes_mk (by decide +kernel),
        by decide +kernel⟩,
    ⟨{ live with rdma.pds := [(0, some {})], rdma.cqs := [(0, some {})], rdma.wins := [(0, some { region := 1, len := 0x10000000 })] }, _,
        { chan := 0, params := [0x10000, 0, 0, 0, 16, 0, 0] }, 0, 1, 0, takes_mk (by decide +kernel), by decide +kernel⟩,
    ⟨{ live with rdma.pds := [(0, some {})], rdma.qps := [(0, { connected := true, sqN := some 16 })] }, _,
        { chan := 0, params := [0x10000, 65535] }, 0, 16, _, takes_mk (by decide +kernel), by decide +kernel, by decide +kernel, by decide +kernel,
        by decide +kernel, by decide +kernel, rfl, by decide +kernel⟩,
    ⟨{ live with rdma.pds := [(0, some {})] }, _, { chan := 0, params := [0x10000] }, 0, takes_mk (by decide +kernel), by decide +kernel⟩⟩

/-- The hypotheses of `Obligations.ChannelTransports` can be met, clause by clause. -/
theorem test_witness_ChannelTransports :
    (∃ (s : State) (c : Fin 64), s.psq.mainUp = true ∧ (s.chan c).legacy = false ∧ (s.chan c).bell = false ∧ (s.chan c).inQ.length < 64) ∧
    (∃ (s : State) (c : Fin 64), s.psq.mainUp = true ∧ (s.chan c).legacy = false ∧ ((s.chan c).bell = true ∨ 64 ≤ (s.chan c).inQ.length)) ∧
    (∃ (s : State) (c : Fin 64), s.psq.mainUp = true ∧ (s.chan c).legacy = false ∧ (s.chan c).bell = false ∧ (s.chan c).inQ = [] ∧
        (s.chan c).held = []) ∧
    (∃ (s : State) (c : Fin 64), s.psq.mainUp = true ∧ s.psq.vaon = true ∧ (s.chan c).legacy = false ∧ (s.chan c).bell = false ∧
        (s.chan c).inQ ≠ [] ∧ (s.chan c).held = [] ∧ s.canTake c = true) ∧
    (∃ (s : State) (c : Fin 64), s.psq.mainUp = true ∧ s.psq.vaon = true ∧ (s.chan c).legacy = false ∧ (s.chan c).bell = false ∧
        (s.chan c).inQ ≠ [] ∧ (s.chan c).held = [] ∧ s.canTake c = false) ∧
    (∃ (s : State) (c : Fin 64), s.psq.mainUp = true ∧ (s.chan c).legacy = false ∧ (s.chan c).waiting = [] ∧ (s.chan c).held = []) ∧
    (∃ (s : State) (c : Fin 64), s.psq.mainUp = true ∧ (s.chan c).bell = true) ∧
    (∃ (s : State) (c : Fin 64), s.psq.mainUp = true ∧ s.psq.vaon = true ∧ (s.chan c).legacy = true ∧ (s.chan c).lgo = false ∧
        (s.chan c).held = [] ∧ s.canTake c = true) ∧
    (∃ (s : State) (ws : List Word), s.psq.vaon = true ∧ (s.chan 0).who = .shelf ∧ (s.chan 0).held = [] ∧ s.canTake 0 = true ∧
        s.psq.pstate ≠ .idle ∧ bitsOf (ws.getD 0 0) 7 0 ≤ 60 ∧ ws.length = 4 + bitsOf (ws.getD 0 0) 7 0 ∧
        (ws.getD 3 0).toNat ≠ (packetCrc (ws.getD 0 0) (ws.getD 1 0) (ws.getD 2 0) (ws.drop 4)).toNat) ∧
    (∃ (s : State), s.psq.vaon = true ∧ (s.chan 0).who = .shelf ∧ s.canTake 0 = false) ∧
    (∃ (s : State), s.psq.vaon = true ∧ (s.chan 0).legacy = true) ∧
    (∃ (s : State) (w : State) (p : Fin 4) (l : Fin 16), s.psq.mainUp = true ∧ s.ldThere p l = true ∧ w = s.wakeIdle ∧ w.chanOfLd p l = none) ∧
    (∃ (s : State) (w : State) (p : Fin 4) (l : Fin 16) (c : Fin 64), s.psq.mainUp = true ∧ s.ldThere p l = true ∧ w = s.wakeIdle ∧
        w.psq.vaon = true ∧ w.chanOfLd p l = some c ∧ (w.chan c).held = [] ∧ w.canTake c = true) ∧
    (∃ (s : State) (c : Fin 64) (tag : BitVec 16), s.psq.mainUp = true ∧ s.flash.cores = .running ∧
        ((s.chan c).ops.find? fun o => o.tag == tag) = none) ∧
    (∃ (s : State) (u : State) (c : Fin 64) (tag : BitVec 16) (ok : Bool) (o : PendingOp) (st : Status) (res : List Word), s.psq.mainUp = true ∧
        s.flash.cores = .running ∧ ((s.chan c).ops.find? fun o => o.tag == tag) = some o ∧ s.pendingEnd c o ok = (u, some (st, res))) ∧
    (∃ (s : State) (rd : Nat), s.psq.vaon = true ∧ (s.chan 0).legacy = false ∧ rd ≠ 0) :=
  ⟨⟨live, 63, by decide +kernel⟩,
    ⟨{ live with chans := [(63, { inQ := List.replicate 64 0 })] }, 63, by decide +kernel⟩,
    ⟨live, 1, by decide +kernel⟩,
    ⟨{ live with chans := [(1, { inQ := [0] })] }, 1, by decide +kernel⟩,
    ⟨{ live with psq.pstate := .keep, flash.cores := .off, chans := [(1, { inQ := [0] })] }, 1, by decide +kernel⟩,
    ⟨live, 1, by decide +kernel⟩,
    ⟨{ live with chans := [(1, { bell := true })] }, 1, by decide +kernel⟩,
    ⟨live, 0, by decide +kernel⟩,
    ⟨live, [0, 0, 0, 1], by decide +kernel⟩,
    ⟨{ live with flash.cores := .restarting }, by decide +kernel⟩,
    ⟨live, by decide +kernel⟩,
    ⟨live, _, 0, 0, by decide +kernel, by decide +kernel, rfl, by decide +kernel⟩,
    ⟨{ live with chans := [(63, { who := .cxl 0 0 })] }, _, 0, 0, 63, by decide +kernel, by decide +kernel, rfl, by decide +kernel⟩,
    ⟨live, 0, 0#16, by decide +kernel⟩,
    ⟨{ live with chans := [(0, { who := .shelf, ops := [{ tag := 7, opcode := 0x0202 }] })] }, _, 0, 7, true, { tag := 7, opcode := 0x0202 }, .ok,
        [], by decide +kernel, by decide +kernel, by decide +kernel, rfl⟩,
    ⟨{ live with chans := [(0, { who := .shelf })] }, 1024, by decide +kernel⟩⟩

/-- The hypotheses of `Obligations.RegisterAccesses` can be met, clause by clause. -/
theorem test_witness_RegisterAccesses :
    (∃ (s : State) (w : PostedWrite) (ws : List PostedWrite), s.psq.vaon = true ∧ s.csr.posted = w :: ws) ∧
    (∃ (s : State), s.psq.vaon = true ∧ s.csr.posted = []) ∧
    (∃ (s : State) (k : Fin 256) (d : Word), s.psq.vaon = true ∧ (s.slot k).arg ≠ d) ∧
    (∃ (s : State) (k : Fin 256) (d : Word), s.psq.vaon = true ∧ (s.slot k).period ≠ d) ∧
    (∃ (s : State) (d : Word), s.psq.vaon = true ∧ d.getLsbD 31 = true) ∧
    (∃ (s : State) (req : Requester) (off : Fin 4194304) (size : Nat) (full : Bool), s.psq.vaon = true ∧ s.debugReach req = true ∧
        (∀ b ∈ s.csr.blocked, b.req ≠ req) ∧ State.mbxAt off = none ∧ (full = false ∨ size ≠ 4 ∧ size ≠ 8 ∨ off.val % 4 ≠ 0)) ∧
    (∃ (s : State) (req : Requester) (off : Fin 4194304) (c : BusCause), s.psq.vaon = true ∧ s.debugReach req = true ∧ (∀ b ∈ s.csr.blocked,
        b.req ≠ req) ∧ State.mbxAt off = none ∧ off.val % 4 = 0 ∧ s.writeBad req off .primary = some c) ∧
    (∃ (s : State) (req : Requester) (off : Fin 4194304), s.psq.vaon = true ∧ s.debugReach req = true ∧ (∀ b ∈ s.csr.blocked, b.req ≠ req) ∧
        State.mbxAt off = none ∧ off.val % 4 = 0 ∧ s.psq.mainUp = false) ∧
    (∃ (s : State) (req : Requester) (off : Fin 4194304), s.psq.vaon = true ∧ s.debugReach req = true ∧ s.csr.blocked = [] ∧
        s.csr.posted.length < 16 ∧ off.val % 4 = 0 ∧ s.writeBad req off .primary = none) ∧
    (∃ (s : State) (u : State) (req : Requester) (off : Fin 4194304) (x : Word), s.psq.vaon = true ∧ s.psq.mainUp = true ∧ s.debugReach req = true ∧
        (∀ b ∈ s.csr.blocked, b.req ≠ req) ∧ off.val % 4 = 0 ∧ s.reaches req off = true ∧ req.isPage = false ∧ s.readWord req off = some (u, x)) ∧
    (∃ (s : State) (req : Requester) (off : Fin 4194304), s.psq.vaon = true ∧ s.psq.mainUp = true ∧ s.debugReach req = true ∧ (∀ b ∈ s.csr.blocked,
        b.req ≠ req) ∧ off.val % 4 = 0 ∧ s.reaches req off = true ∧ req.isPage = false ∧ s.readWord req off = none) ∧
    (∃ (s : State) (req : Requester), s.psq.vaon = true ∧ s.psq.mainUp = true ∧ s.debugReach req = true ∧ (∀ b ∈ s.csr.blocked, b.req ≠ req) ∧
        s.reaches req 0x130018 = true ∧ req.isPage = false) ∧
    (∃ (s : State) (req : Requester), s.psq.vaon = true ∧ s.psq.mainUp = true ∧ s.debugReach req = true ∧ (∀ b ∈ s.csr.blocked, b.req ≠ req) ∧
        s.reaches req 0x13002C = true ∧ req.isPage = false) ∧
    (∃ (s : State) (req : Requester) (kind : AccessKind) (off : Fin 4194304) (c : BusCause), kind ≠ .primary ∧ s.psq.vaon = true ∧
        s.debugReach req = true ∧ (∀ b ∈ s.csr.blocked, b.req ≠ req) ∧ off.val % 4 = 0 ∧ s.writeBad req off kind = some c) ∧
    (∃ (s : State) (req : Requester), s.psq.vaon = true ∧ s.psq.mainUp = true ∧ s.debugReach req = true ∧ s.csr.posted.length < 16 ∧
        s.csr.blocked = [] ∧ s.reaches req 0x02000C = true ∧ req.isPage = false) ∧
    (∃ (s : State) (req : Requester), s.psq.vaon = true ∧ s.psq.mainUp = true ∧ s.debugReach req = true ∧ 16 ≤ s.csr.posted.length ∧
        s.reaches req 0x02000C = true ∧ req.isPage = false) ∧
    (∃ (s : State) (req : Requester) (off : Fin 4194304), s.psq.vaon = true ∧ s.debugReach req = true ∧ (∃ b ∈ s.csr.blocked, b.req = req) ∧
        State.mbxAt off = none) ∧
    (∃ (s : State) (k : Fin 256) (d : Word) (h : HeldWord), s.psq.vaon = true ∧
        ((s.csr.heldWrite.find? fun h => h.req == .core 0 && h.off == Reg.SCH_TIME_LO.at k) = some h) ∧ (s.slot k).time ≠ Dword.ofWords h.value d) :=
  ⟨⟨{ live with csr.posted := [{ req := .core 0, off := 0, kind := .primary, value := 0 }] },
        { req := .core 0, off := 0, kind := .primary, value := 0 }, [], by decide +kernel⟩,
    ⟨live, by decide +kernel⟩,
    ⟨live, 255, 1, by decide +kernel⟩,
    ⟨live, 0, 1, by decide +kernel⟩,
    ⟨live, 0x80000000#32, by decide +kernel⟩,
    ⟨live, .core 0, 4194303, 4, true, by decide +kernel⟩,
    ⟨live, .core 0, 4194300, .unimplemented, by decide +kernel⟩,
    ⟨{ live with psq.mainUp := false }, .core 0, 0, by decide +kernel⟩,
    ⟨live, .core 0, 0x130000, by decide +kernel⟩,
    ⟨live, _, .core 0, 0x020000, _, five_and (by decide +kernel) ⟨by decide +kernel, by decide +kernel, rfl⟩⟩,
    ⟨live, .core 0, 4194300, by decide +kernel⟩,
    ⟨live, .core 0, by decide +kernel⟩,
    ⟨live, .core 0, by decide +kernel⟩,
    ⟨live, .core 0, .set, 4194300, .unimplemented, by decide +kernel⟩,
    ⟨{ live with csr.posted := List.replicate 15 { req := .core 0, off := 0, kind := .primary, value := 0 } }, .core 0, by decide +kernel⟩,
    ⟨{ live with csr.posted := List.replicate 16 { req := .core 0, off := 0, kind := .primary, value := 0 } }, .core 0, by decide +kernel⟩,
    ⟨{ live with csr.blocked := [{ req := .core 0, read := true, off := 0, kind := .primary, size := 4, full := true, data := 0 }] }, .core 0, 0,
        by decide +kernel, by decide +kernel, ⟨_, List.mem_singleton_self _, rfl⟩, by decide +kernel⟩,
    ⟨{ live with csr.heldWrite := [{ req := .core 0, off := Reg.SCH_TIME_LO.at 255, value := 1 }] }, 255, 0,
        { req := .core 0, off := Reg.SCH_TIME_LO.at 255, value := 1 }, by decide +kernel⟩⟩

/-- The hypotheses of `Obligations.BenchAndTiers` can be met, clause by clause. -/
theorem test_witness_BenchAndTiers :
    (∃ (s : State) (x : Nat) (b : BLine), s.benchWorks = true ∧ s.bline x = some b ∧ State.isPartial b = true ∧ s.benchAwaited x = false ∧
        x ∉ s.sec.sealed ∧ s.scbSlot x = none ∧ (s.sett (lineSett x)).mode = .none) ∧
    (∃ (s : State) (x : Nat), s.benchWorks = true ∧ s.bline x = none) ∧
    (∃ (s : State) (n : Nat), s.benchWorks = true ∧ (s.bench.scbs.find? fun b => b.lsett == n) = none) ∧
    (∃ (s : State), s.benchWorks = true ∧ s.bench.frame = []) ∧
    (∃ (s : State) (f : Forwarded) (e : WEntry), s.benchWorks = true ∧ s.bench.frame = [f.ftag] ∧
        (s.bench.forwarded.find? fun g => g.ftag == f.ftag) = some f ∧
        (e = { ros := 0, region := f.w.region, ftag := f.ftag, stream := streamHashOf f.w.str, line := f.w.line, mask := f.w.mask, data := f.w.data })) ∧
    (∃ (s : State) (req : Requester), s.psq.mainUp = true ∧
        (s.csr.heldWrite.find? fun h => h.req == req && h.off == Reg.PBF_HASH_KEY_LO.at 0) = none) ∧
    (∃ (s : State) (req : Requester) (h : HeldWord), s.psq.mainUp = true ∧ s.dirtyLines = 0 ∧
        (s.csr.heldWrite.find? fun h => h.req == req && h.off == Reg.PBF_HASH_KEY_LO.at 0) = some h) ∧
    (∃ (s : State), s.benchWorks = true ∧ s.xlt.pages = [] ∧ (∀ p ∈ s.med.setts, s.rankOf p.1 ≠ 3)) ∧
    (∃ (s : State), s.benchWorks = true ∧ s.bit Reg.XLT_CTRL 0 1 = true ∧ s.xlt.promo = []) ∧
    (∃ (s : State) (n : Nat) (k : Nat) (w : Bool) (p : Phys) (rest : List (Nat × Bool)), s.benchWorks = true ∧ s.bit Reg.XLT_CTRL 0 1 = true ∧
        s.xlt.promo = (n, w) :: rest ∧ (s.sett n).mig = .idle ∧ (s.sett n).promoted = false ∧ (s.sett n).mode ≠ .none ∧ s.chunkLoaded n = true ∧
        (s.sett n).phys = some p ∧ s.dieUp p.die = true ∧ s.freePage = some k) ∧
    (∃ (s : State) (n : Nat), s.benchWorks = true ∧ (s.sett n).mig = .demoting) ∧
    (∃ (s : State), s.xlt.bvOpen = false) ∧
    (∃ (s : State) (a : Nat), s.psq.mainUp = true ∧ s.xlt.bvOpen = true ∧ a < 0x1000000000000 ∧ s.dieUp (physOf (a / 64 * 64 / 65536)).die = true) ∧
    (∃ (s : State) (a : Nat), s.psq.mainUp = true ∧ (∃ l ∈ s.xlt.raw, l.addr = a) ∧ s.xlt.rawHeld = []) ∧
    (∃ (s : State) (n : Nat) (b : Scb), s.benchWorks = true ∧ (((s.scbProgram n).bench.scbs.find? fun b => b.lsett == n) = some b) ∧
        b.closing = false ∧ (∀ k ∈ b.slots, k.use ≠ .filling)) ∧
    (∃ (s : State) (n : Nat) (b : Scb) (k : ScbSlot), s.benchWorks = true ∧ (((s.scbProgram n).bench.scbs.find? fun b => b.lsett == n) = some b) ∧
        b.closing = false ∧ ((b.slots.filter fun j => j.use == .filling) = [k])) ∧
    (∃ (s : State), s.psq.mainUp = true ∧ s.bench.domain = .replaying ∧ s.bench.replayed = false ∧ s.bench.replaying = none ∧
        (∀ d ∈ s.newerDesc.dies, s.dieSettled d = true)) ∧
    (∃ (s : State), (s.bench.replayed = true ∨ s.bench.domain ≠ .replaying ∨ (∃ d ∈ s.newerDesc.dies, s.dieSettled d = false))) ∧
    (∃ (s : State), s.benchWorks = true ∧ s.xlt.map.write.isSome = true) ∧
    (∃ (s : State), s.benchWorks = true ∧ s.xlt.map.write = none ∧ s.xlt.jrnl.running = true ∧ s.xlt.jrnl.recs ≠ [] ∧ s.chunksTodo = []) ∧
    (∃ (s : State) (c : Nat) (rest : List Nat), s.benchWorks = true ∧ s.xlt.map.write = none ∧ s.xlt.jrnl.running = true ∧ s.xlt.jrnl.recs ≠ [] ∧
        s.chunksTodo = c :: rest) ∧
    (∃ (s : State), s.benchWorks = true ∧ s.xlt.map.write = none ∧ s.xlt.jrnl.running = false ∧ s.xlt.map.weak = [] ∧ s.mapAgeing = []) ∧
    (∃ (s : State) (u : Nat) (us : List Nat), s.benchWorks = true ∧ s.xlt.map.write = none ∧ s.xlt.jrnl.running = false ∧ s.xlt.map.weak = u :: us) ∧
    (∃ (s : State) (c : Nat), s.psq.mainUp = true ∧ c ∈ s.xlt.prio ∧ s.pairHere c = true) ∧
    (∃ (s : State) (c : Nat), (c ∉ s.xlt.prio ∨ s.pairHere c = false)) ∧
    (∃ (s : State) (d : Nat), s.benchWorks = true ∧ s.xlt.load = .background ∧ s.bit Reg.XLT_CTRL 0 0 = true ∧
        ((s.diesUp.find? fun d => !s.xlt.freeLoaded.contains d) = some d) ∧ s.freeNext d = none) ∧
    (∃ (s : State) (c : Nat), s.benchWorks = true ∧ s.xlt.load = .background ∧ s.bit Reg.XLT_CTRL 0 0 = true ∧
        ((s.diesUp.find? fun d => !s.xlt.freeLoaded.contains d) = none) ∧ s.tableNext = some c ∧ s.pairHere c = false) :=
  ⟨⟨{ live with bench.lines := [(0, some { state := .dirty, valid := 1 })] }, 0, { state := .dirty, valid := 1 }, by decide +kernel⟩,
    ⟨live, 0, by decide +kernel⟩,
    ⟨live, 0, by decide +kernel⟩,
    ⟨live, by decide +kernel⟩,
    ⟨{ paired with bench.frame := [1], bench.forwarded := [{ ftag := 1, w := { who := .device, region := 1, rline := 0, line := 0, mask := 1, data := 0 } }] },
        { ftag := 1, w := { who := .device, region := 1, rline := 0, line := 0, mask := 1, data := 0 } }, _, by decide +kernel, by decide +kernel,
        by decide +kernel, rfl⟩,
    ⟨live, .core 0, by decide +kernel⟩,
    ⟨{ live with csr.heldWrite := [{ req := .core 0, off := Reg.PBF_HASH_KEY_LO.at 0, value := 5 }] }, .core 0,
        { req := .core 0, off := Reg.PBF_HASH_KEY_LO.at 0, value := 5 }, by decide +kernel⟩,
    ⟨live, by decide +kernel⟩,
    ⟨live.setBit Reg.XLT_CTRL 0 1 true, by decide +kernel⟩,
    ⟨{ live.setBit Reg.XLT_CTRL 0 1 true with xlt.promo := [(0, false)], xlt.poolTotal := 1, med.setts := [(0, { phys := some ⟨0, 1, 0⟩, mode := .m4 })] },
        0, 0, false, ⟨0, 1, 0⟩, [], by decide +kernel⟩,
    ⟨{ live with med.setts := [(0, { phys := some ⟨0, 1, 0⟩, mode := .m4, mig := .demoting })] }, 0, by decide +kernel⟩,
    ⟨live, by decide +kernel⟩,
    ⟨{ live with xlt.bvOpen := true }, 0, by decide +kernel⟩,
    ⟨{ live with xlt.raw := [{ addr := 0, mask := 1, data := 0 }] }, 0, by decide +kernel, ⟨_, List.mem_singleton_self _, rfl⟩, by decide +kernel⟩,
    ⟨{ live with bench.scbs := [{ stream := { src := .none, region := 1 }, lsett := 0 }] }, 0,
        { stream := { src := .none, region := 1 }, lsett := 0 }, by decide +kernel⟩,
    ⟨{ live with bench.scbs := [{ stream := { src := .none, region := 1 }, lsett := 0, slots := [{ line := 0, mask := 1, data := 0 }] }] }, 0,
        { stream := { src := .none, region := 1 }, lsett := 0, slots := [{ line := 0, mask := 1, data := 0 }] },
        { line := 0, mask := 1, data := 0 }, by decide +kernel⟩,
    ⟨{ live with bench.domain := .replaying, bench.descA := { seq := 1, dies := [0] } }, by decide +kernel⟩,
    ⟨live, by decide +kernel⟩,
    ⟨{ live with xlt.map.write := some { chunk := 0, copy := false, both := true } }, by decide +kernel⟩,
    ⟨{ live with xlt.jrnl := { running := true, recs := [{ place := 0, jseq := 0, key := .entry 0 }], written := live.recChunks { place := 0, jseq := 0, key := .entry 0 } } },
        by decide +kernel⟩,
    ⟨{ live with xlt.jrnl := { running := true, recs := [{ place := 0, jseq := 0, key := .entry 0 }] } }, _, _, by decide +kernel,
        by decide +kernel, by decide +kernel, by decide +kernel, rfl⟩,
    ⟨live, by decide +kernel⟩,
    ⟨{ live with xlt.map.weak := [0] }, 0, [], by decide +kernel⟩,
    ⟨{ live with xlt.prio := [0] }, 0, by decide +kernel⟩,
    ⟨live, 0, by decide +kernel⟩,
    ⟨{ live.setBit Reg.XLT_CTRL 0 0 true with xlt.load := .background, xlt.loaded := (List.range 992).map fun k => (chunkBase live.xlt.map.count .freeLists + k, true) },
        0, by decide +kernel⟩,
    ⟨{ live.setBit Reg.XLT_CTRL 0 0 true with xlt.load := .background, xlt.freeLoaded := [0] }, 0, by decide +kernel⟩⟩

/-- The hypotheses of `Obligations.TandemWrites` can be met, clause by clause. -/
theorem test_witness_TandemWrites :
    (∃ (s : State) (u : State) (p : Bool) (f : TFrame) (e : WEntry), s.Accepts p f ∧ s.twin.pair = .paired ∧ u = s.framed p f ∧
        (s.rt e.region).ros < e.ros ∧ e.ros = s.nextRos e.region) ∧
    (∃ (s : State) (u : State) (p : Bool) (f : TFrame) (e : WEntry), s.Accepts p f ∧ s.twin.pair = .paired ∧ u = s.framed p f ∧
        (s.rt e.region).ros < e.ros ∧ s.nextRos e.region < e.ros ∧ s.bench.early = []) ∧
    (∃ (s : State) (u : State) (p : Bool) (f : TFrame) (e : WEntry) (o : Ordered), s.Accepts p f ∧ s.twin.pair = .paired ∧ u = s.framed p f ∧
        (s.rt e.region).ros < e.ros ∧ s.nextRos e.region < e.ros ∧ o ∈ s.bench.early ∧ o.ros = e.ros ∧ o.w.region = e.region) ∧
    (∃ (s : State) (u : State) (p : Bool) (f : TFrame) (e : WEntry) (o : Ordered), s.Accepts p f ∧ s.twin.pair = .paired ∧ u = s.framed p f ∧
        o ∈ s.bench.orders ∧ o.mine = true ∧ o.ftag = e.ftag) ∧
    (∃ (s : State) (v : State) (p : Bool) (f : TFrame) (dirty : Nat) (c : Cap) (region : Fin 4096), s.Accepts p f ∧ s.twin.pair = .paired ∧
        v = peerLevels (s.framed p f) dirty c ∧ (v.region region).opening = false) ∧
    (∃ (s : State) (v : State) (p : Bool) (f : TFrame) (dirty : Nat) (c : Cap), s.Accepts p f ∧ s.twin.pair = .paired ∧
        v = peerLevels (s.framed p f) dirty c ∧ v.bench.domain ≠ .opened) ∧
    (∃ (s : State) (v : State) (p : Bool) (f : TFrame) (dirty : Nat) (c : Cap) (ftag : BitVec 16) (x : Forwarded) (q : Fin 4) (l : Fin 16) (tag : Nat),
        s.Accepts p f ∧ s.twin.pair = .paired ∧ v = peerLevels (s.framed p f) dirty c ∧ v.bench.domain = .opened ∧ v.bench.forwarded = [x] ∧
        x.ftag = ftag ∧ x.w.who = .cxl q l tag) ∧
    (∃ (s : State) (v : State) (p : Bool) (f : TFrame) (dirty : Nat) (c : Cap) (ftag : BitVec 16), s.Accepts p f ∧ s.twin.pair = .paired ∧
        v = peerLevels (s.framed p f) dirty c ∧ (v.bench.forwarded.all fun x => x.ftag != ftag) = true) ∧
    (∃ (s : State) (p : Bool) (f : TFrame) (rtag : Word), s.Accepts p f ∧ s.twin.pair = .paired ∧
        (s.twin.assists.all fun a => a.rtag != rtag) = true) ∧
    (∃ (s : State) (u : State) (p : Bool) (f : TFrame) (e : WEntry), s.Accepts p f ∧ s.twin.pair = .paired ∧ u = s.framed p f ∧
        ((s.bench.orders.all fun o => !(o.mine && o.ftag == e.ftag)) = true) ∧ ((s.bench.held.all fun h => h.who != .twin e.ftag) = true) ∧
        (s.rt e.region).home = false) ∧
    (∃ (s : State) (u : State) (p : Bool) (f : TFrame) (e : WEntry), s.Accepts p f ∧ s.twin.pair = .paired ∧ u = s.framed p f ∧
        ((s.bench.orders.all fun o => !(o.mine && o.ftag == e.ftag)) = true) ∧ ((s.bench.held.all fun h => h.who != .twin e.ftag) = true) ∧
        (s.rt e.region).home = true) ∧
    (∃ (s : State) (u : State) (p : Bool) (f : TFrame) (rtag : Word) (region : Fin 4096), s.Accepts p f ∧ s.twin.pair = .paired ∧ u = s.framed p f ∧
        ((s.twin.replies.all fun e => e.rtag != rtag) = true) ∧
        ((s.rt region).fenced = true ∨ (s.rt region).target = true ∨ (s.region region).valid = false)) ∧
    (∃ (s : State) (u : State) (p : Bool) (f : TFrame) (rtag : Word) (region : Fin 4096), s.Accepts p f ∧ s.twin.pair = .paired ∧ u = s.framed p f ∧
        ((s.twin.replies.all fun e => e.rtag != rtag) = true) ∧ (s.rt region).fenced = false ∧ (s.rt region).target = false ∧
        (s.region region).valid = true) ∧
    (∃ (s : State) (u : State) (v : State) (p : Bool) (f : TFrame) (a : Assist), s.Accepts p f ∧ s.twin.pair = .paired ∧ u = s.framed p f ∧
        s.twin.assists = [a] ∧ 0 < a.count ∧ (v = u.setTwin { u.twin with assists := [] }) ∧ a.why = .read) ∧
    (∃ (s : State) (u : State) (v : State) (p : Bool) (f : TFrame) (a : Assist), s.Accepts p f ∧ s.twin.pair = .paired ∧ u = s.framed p f ∧
        s.twin.assists = [a] ∧ 0 < a.count ∧ (v = u.setTwin { u.twin with assists := [] }) ∧ a.why = .bench) ∧
    (∃ (s : State) (u : State) (v : State) (p : Bool) (f : TFrame) (a : Assist), s.Accepts p f ∧ s.twin.pair = .paired ∧ u = s.framed p f ∧
        s.twin.assists = [a] ∧ 0 < a.count ∧ (v = u.setTwin { u.twin with assists := [] }) ∧ a.why = .recover) ∧
    (∃ (s : State) (u : State) (p : Bool) (f : TFrame) (e : WEntry), s.Accepts p f ∧ s.twin.pair = .paired ∧ u = s.framed p f ∧
        (s.rt e.region).target = false) ∧
    (∃ (s : State) (u : State) (p : Bool) (f : TFrame) (e : WEntry), s.Accepts p f ∧ s.twin.pair = .paired ∧ u = s.framed p f ∧
        (s.rt e.region).target = true ∧ (s.rt e.region).ros < e.ros) ∧
    (∃ (s : State) (u : State) (p : Bool) (f : TFrame) (e : WEntry), s.Accepts p f ∧ s.twin.pair = .paired ∧ u = s.framed p f ∧
        (s.rt e.region).target = true ∧ e.ros ≤ (s.rt e.region).ros ∧ e.unalloc = true) :=
  ⟨⟨paired, _, false, tf, { region := 1, line := 0, ros := 1 }, accepts_mk (by decide +kernel), by decide +kernel, rfl, by decide +kernel⟩,
    ⟨paired, _, false, tf, { region := 1, line := 0, ros := 2 }, accepts_mk (by decide +kernel), by decide +kernel, rfl, by decide +kernel⟩,
    ⟨{ paired with bench.early := [{ w := { who := .device, region := 1, rline := 0, line := 0, mask := 1, data := 0 }, ros := 2, mine := false }] },
        _, false, tf, { region := 1, line := 0, ros := 2 },
        { w := { who := .device, region := 1, rline := 0, line := 0, mask := 1, data := 0 }, ros := 2, mine := false },
        accepts_mk (by decide +kernel), by decide +kernel, rfl, by decide +kernel⟩,
    ⟨{ paired with bench.orders := [{ w := { who := .device, region := 1, rline := 0, line := 0, mask := 1, data := 0 }, ros := 1, mine := true, ftag := 7 }] },
        _, false, tf, { region := 1, line := 0, ros := 1, ftag := 7 },
        { w := { who := .device, region := 1, rline := 0, line := 0, mask := 1, data := 0 }, ros := 1, mine := true, ftag := 7 },
        accepts_mk (by decide +kernel), by decide +kernel, rfl, by decide +kernel⟩,
    ⟨paired, _, false, tf, 0, .green, 1, accepts_mk (by decide +kernel), by decide +kernel, rfl, by decide +kernel⟩,
    ⟨{ paired with bench.domain := .replaying }, _, false, tf, 0, .green, accepts_mk (by decide +kernel), by decide +kernel, rfl, by decide +kernel⟩,
    ⟨{ paired with bench.forwarded := [{ ftag := 7, w := { who := .cxl 0 0 0, region := 1, rline := 0, line := 0, mask := 1, data := 0 } }] }, _,
        false, tf, 0, .green, 7, { ftag := 7, w := { who := .cxl 0 0 0, region := 1, rline := 0, line := 0, mask := 1, data := 0 } }, 0, 0, 0,
        accepts_mk (by decide +kernel), by decide +kernel, rfl, by decide +kernel⟩,
    ⟨paired, _, false, tf, 0, .green, 0#16, accepts_mk (by decide +kernel), by decide +kernel, rfl, by decide +kernel⟩,
    ⟨paired, false, tf, 0#32, accepts_mk (by decide +kernel), by decide +kernel⟩,
    ⟨{ paired with twin.regions := [] }, _, false, tf, { region := 1, line := 0 }, accepts_mk (by decide +kernel), by decide +kernel, rfl,
        by decide +kernel⟩,
    ⟨paired, _, false, tf, { region := 1, line := 0 }, accepts_mk (by decide +kernel), by decide +kernel, rfl, by decide +kernel⟩,
    ⟨paired, _, false, tf, 0#32, 4095, accepts_mk (by decide +kernel), by decide +kernel, rfl, by decide +kernel⟩,
    ⟨paired, _, false, tf, 0#32, 1, accepts_mk (by decide +kernel), by decide +kernel, rfl, by decide +kernel⟩,
    ⟨{ paired with twin.assists := [{ rtag := 1, why := .read, region := 1, line := 0, count := 1 }] }, _, _, false, tf,
        { rtag := 1, why := .read, region := 1, line := 0, count := 1 }, accepts_mk (by decide +kernel), by decide +kernel, rfl, by decide +kernel,
        by decide +kernel, rfl, by decide +kernel⟩,
    ⟨{ paired with twin.assists := [{ rtag := 1, why := .bench, region := 1, line := 0, count := 1 }] }, _, _, false, tf,
        { rtag := 1, why := .bench, region := 1, line := 0, count := 1 }, accepts_mk (by decide +kernel), by decide +kernel, rfl, by decide +kernel,
        by decide +kernel, rfl, by decide +kernel⟩,
    ⟨{ paired with twin.assists := [{ rtag := 1, why := .recover, region := 1, line := 0, count := 1 }] }, _, _, false, tf,
        { rtag := 1, why := .recover, region := 1, line := 0, count := 1 }, accepts_mk (by decide +kernel), by decide +kernel, rfl,
        by decide +kernel, by decide +kernel, rfl, by decide +kernel⟩,
    ⟨paired, _, false, tf, { region := 1, line := 0 }, accepts_mk (by decide +kernel), by decide +kernel, rfl, by decide +kernel⟩,
    ⟨{ paired with twin.regions := [(1, { home := true, target := true })] }, _, false, tf, { region := 1, line := 0, ros := 1 },
        accepts_mk (by decide +kernel), by decide +kernel, rfl, by decide +kernel⟩,
    ⟨{ paired with twin.regions := [(1, { home := true, target := true })] }, _, false, tf, { region := 1, line := 0, unalloc := true },
        accepts_mk (by decide +kernel), by decide +kernel, rfl, by decide +kernel⟩⟩

/-- The hypotheses of `Obligations.TandemControl` can be met, clause by clause. -/
theorem test_witness_TandemControl :
    (∃ (s : State), s.twin.pair ≠ .attesting) ∧
    (∃ (s : State) (p : Bool) (f : TFrame) (session : Word) (identity : Nat) (life : Fin 6) (debug : Bool), s.psq.mainUp = true ∧
        s.twin.pair = .attesting ∧ s.twin.session = 0 ∧ (s.tport p).st = .up ∧ f.shapeOk = true ∧ f.session = 0 ∧ s.sec.trngFail = false ∧
        (s.twin.binding ≠ some identity ∨ lifeMatches s.life.code life = false ∨ (s.life = .fieldLocked ∧ debug = true) ∨ session = 0)) ∧
    (∃ (s : State) (p : Bool) (f : TFrame) (session : Word) (identity : Nat) (compat : BitVec 16) (life : Fin 6) (debug : Bool),
        s.psq.mainUp = true ∧ s.twin.pair = .attesting ∧ s.twin.session = 0 ∧ (s.tport p).st = .up ∧ f.shapeOk = true ∧ f.session = 0 ∧
        s.sec.trngFail = false ∧ s.twin.binding = some identity ∧ session ≠ 0 ∧ lifeMatches s.life.code life = true ∧
        (s.life = .fieldLocked → debug = false) ∧ compat ≠ s.flash.runCompat) ∧
    (∃ (s : State) (u : State) (v : State) (p : Bool) (f : TFrame) (x : SyncTimes) (src : TimeSource) (trust : Trust), s.Accepts p f ∧
        u = s.framed p f ∧ (v = u.setTwin { u.twin with rtt := BitVec.ofNat 16 (min 0xFFFF x.trip.toNat), peerSource := src, peerTrust := trust }) ∧
        sendsTime v = true ∧ s.tally.twinQualified = false) ∧
    (∃ (s : State) (u : State) (v : State) (p : Bool) (f : TFrame) (x : SyncTimes) (src : TimeSource) (trust : Trust), s.Accepts p f ∧
        u = s.framed p f ∧ (v = u.setTwin { u.twin with rtt := BitVec.ofNat 16 (min 0xFFFF x.trip.toNat), peerSource := src, peerTrust := trust }) ∧
        sendsTime v = true ∧ s.tally.twinQualified = true) ∧
    (∃ (s : State) (u : State) (v : State) (p : Bool) (f : TFrame) (x : SyncTimes) (src : TimeSource) (trust : Trust), s.Accepts p f ∧
        u = s.framed p f ∧ (v = u.setTwin { u.twin with rtt := BitVec.ofNat 16 (min 0xFFFF x.trip.toNat), peerSource := src, peerTrust := trust }) ∧
        sendsTime v = false ∧ State.isHoldover src = true ∧ trust = .untrusted) ∧
    (∃ (s : State) (u : State) (v : State) (p : Bool) (f : TFrame) (x : SyncTimes) (src : TimeSource) (trust : Trust) (w : State) (y : State),
        s.Accepts p f ∧ u = s.framed p f ∧
        (v = u.setTwin { u.twin with rtt := BitVec.ofNat 16 (min 0xFFFF x.trip.toNat), peerSource := src, peerTrust := trust }) ∧
        sendsTime v = false ∧ src = .ptp ∧ s.tally.twinHoldoff = false ∧ (w = v.setTwin { v.twin with timeSender := false }) ∧
        (y = (w.setTally { w.tally with twinQualified := true }).selectSource) ∧ y.tally.source = .twin) ∧
    (∃ (s : State) (u : State) (p : Bool) (f : TFrame) (region : Fin 4096), s.Accepts p f ∧ s.twin.pair = .paired ∧ u = s.framed p f ∧
        (s.rt region).handing = none) ∧
    (∃ (s : State) (u : State) (p : Bool) (f : TFrame) (region : Fin 4096), s.Accepts p f ∧ s.twin.pair = .paired ∧ u = s.framed p f ∧
        (s.rt region).handing = some none) ∧
    (∃ (s : State) (u : State) (p : Bool) (f : TFrame) (region : Fin 4096) (c : _) (tag : _), s.Accepts p f ∧ s.twin.pair = .paired ∧
        u = s.framed p f ∧ (s.rt region).handing = some (some (c, tag))) ∧
    (∃ (s : State) (u : State) (v : State) (p : Bool) (f : TFrame) (region : Fin 4096) (count : Nat) (marks : List Nat), s.Accepts p f ∧
        u = s.framed p f ∧ s.twin.pair = .attesting ∧ (s.region region).valid = true ∧
        (v = u.setRt region { u.rt region with planned := true, left := max count ((u.rt region).marks ++ marks).dedup.length, todo := marks }) ∧
        v.allPlanned = true) ∧
    (∃ (s : State) (u : State) (v : State) (p : Bool) (f : TFrame) (region : Fin 4096) (count : Nat) (marks : List Nat), s.Accepts p f ∧
        u = s.framed p f ∧ s.twin.pair = .attesting ∧ (s.region region).valid = true ∧
        (v = u.setRt region { u.rt region with planned := true, left := max count ((u.rt region).marks ++ marks).dedup.length, todo := marks }) ∧
        v.allPlanned = false) ∧
    (∃ (s : State) (u : State) (p : Bool) (f : TFrame) (region : Fin 4096), s.Accepts p f ∧ s.twin.pair = .paired ∧ u = s.framed p f ∧
        (s.rt region).source = false) ∧
    (∃ (s : State) (u : State) (p : Bool) (f : TFrame) (region : Fin 4096), s.Accepts p f ∧ s.twin.pair = .paired ∧ u = s.framed p f ∧
        (s.rt region).source = true) ∧
    (∃ (s : State) (u : State) (p : Bool) (f : TFrame), s.Accepts p f ∧ s.twin.pair = .paired ∧ u = s.framed p f ∧ s.twin.leftByDetach = true) ∧
    (∃ (s : State) (u : State) (p : Bool) (f : TFrame), s.Accepts p f ∧ s.twin.pair = .paired ∧ u = s.framed p f ∧ s.twin.leftByDetach = false) ∧
    (∃ (s : State) (u : State) (p : Bool) (f : TFrame) (region : Fin 4096) (ver : Word), s.Accepts p f ∧ u = s.framed p f ∧
        s.twin.pair = .attesting ∧ ((s.region region).valid = false ∨ (s.rt region).attrVer < ver)) ∧
    (∃ (s : State) (u : State) (p : Bool) (f : TFrame) (region : Fin 4096) (ver : Word) (a : RegionAttr), s.Accepts p f ∧ u = s.framed p f ∧
        s.twin.pair = .attesting ∧ (s.region region).valid = true ∧ ver ≤ (s.rt region).attrVer ∧ a.keyId = none) ∧
    (∃ (s : State) (u : State) (p : Bool) (f : TFrame), s.Accepts p f ∧ s.twin.pair = .paired ∧ u = s.framed p f ∧ u.side0 = true) ∧
    (∃ (s : State) (u : State) (p : Bool) (f : TFrame), s.Accepts p f ∧ s.twin.pair = .paired ∧ u = s.framed p f ∧ u.side0 = false) ∧
    (∃ (s : State) (u : State) (p : Bool) (f : TFrame), s.Accepts p f ∧ s.twin.pair = .paired ∧ u = s.framed p f ∧ s.twin.waitAlloc = []) ∧
    (∃ (s : State) (u : State) (p : Bool) (f : TFrame) (rest : _), s.Accepts p f ∧ s.twin.pair = .paired ∧ u = s.framed p f ∧
        s.twin.waitAlloc = none :: rest) :=
  ⟨⟨live, by decide +kernel⟩,
    ⟨{ paired with twin.pair := .attesting, twin.session := 0 }, false, frameOf 0 1, 0#32, 0, 0, false, by decide +kernel⟩,
    ⟨{ paired with twin.pair := .attesting, twin.session := 0, twin.binding := some 7 }, false, frameOf 0 1, 1#32, 7, 1#16, 0, false,
        by decide +kernel⟩,
    ⟨paired, _, _, false, tf, { t1 := 0, t2 := 0, t3 := 0, t4 := 0 }, .twin, .trusted, accepts_mk (by decide +kernel), rfl, rfl, by decide +kernel⟩,
    ⟨{ paired with tally.twinQualified := true }, _, _, false, tf, { t1 := 0, t2 := 0, t3 := 0, t4 := 0 }, .twin, .trusted,
        accepts_mk (by decide +kernel), rfl, rfl, by decide +kernel⟩,
    ⟨paired, _, _, false, tf, { t1 := 0, t2 := 0, t3 := 0, t4 := 0 }, .holdoverPps, .untrusted, accepts_mk (by decide +kernel), rfl, rfl,
        by decide +kernel⟩,
    ⟨paired.setBit Reg.TLY_CTRL 0 2 true, _, _, false, tf, { t1 := 0, t2 := 0, t3 := 0, t4 := 0 }, .ptp, .trusted, _, _,
        accepts_mk (by decide +kernel), rfl, rfl, by decide +kernel, by decide +kernel, by decide +kernel, rfl, rfl, by decide +kernel⟩,
    ⟨paired, _, false, tf, 1, accepts_mk (by decide +kernel), by decide +kernel, rfl, by decide +kernel⟩,
    ⟨{ paired with twin.regions := [(1, { home := true, handing := some none })] }, _, false, tf, 1, accepts_mk (by decide +kernel),
        by decide +kernel, rfl, by decide +kernel⟩,
    ⟨{ paired with twin.regions := [(1, { home := true, handing := some (some (0, 7)) })] }, _, false, tf, 1, 0, 7#16,
        accepts_mk (by decide +kernel), by decide +kernel, rfl, by decide +kernel⟩,
    ⟨{ paired with twin.pair := .attesting, twin.regions := [(1, { home := true, compared := some {} })] }, _, _, false, tf, 1, 0, [],
        accepts_mk (by decide +kernel), rfl, by decide +kernel, by decide +kernel, rfl, by decide +kernel⟩,
    ⟨{ paired with twin.pair := .attesting }, _, _, false, tf, 1, 0, [], accepts_mk (by decide +kernel), rfl, by decide +kernel, by decide +kernel,
        rfl, by decide +kernel⟩,
    ⟨paired, _, false, tf, 1, accepts_mk (by decide +kernel), by decide +kernel, rfl, by decide +kernel⟩,
    ⟨{ paired with twin.regions := [(1, { home := true, source := true })] }, _, false, tf, 1, accepts_mk (by decide +kernel), by decide +kernel,
        rfl, by decide +kernel⟩,
    ⟨{ paired with twin.leftByDetach := true }, _, false, tf, accepts_mk (by decide +kernel), by decide +kernel, rfl, by decide +kernel⟩,
    ⟨paired, _, false, tf, accepts_mk (by decide +kernel), by decide +kernel, rfl, by decide +kernel⟩,
    ⟨{ paired with twin.pair := .attesting }, _, false, tf, 4095, 0#32, accepts_mk (by decide +kernel), rfl, by decide +kernel⟩,
    ⟨{ paired with twin.pair := .attesting }, _, false, tf, 1, 0#32, { record := {} }, accepts_mk (by decide +kernel), rfl, by decide +kernel⟩,
    ⟨paired, _, false, tf, accepts_mk (by decide +kernel), by decide +kernel, rfl, by decide +kernel⟩,
    ⟨{ paired with twin.binding := some 0, twin.ownHash := 1 }, _, false, tf, accepts_mk (by decide +kernel), by decide +kernel, rfl,
        by decide +kernel⟩,
    ⟨paired, _, false, tf, accepts_mk (by decide +kernel), by decide +kernel, rfl, by decide +kernel⟩,
    ⟨{ paired with twin.waitAlloc := [none] }, _, false, tf, [], accepts_mk (by decide +kernel), by decide +kernel, rfl, by decide +kernel⟩⟩

/-- The hypotheses of `Obligations.TandemLinkLayer` can be met, clause by clause. -/
theorem test_witness_TandemLinkLayer :
    (∃ (s : State) (p : Bool) (f : TFrame), s.psq.mainUp = true ∧ s.bit Reg.TDM_CTRL 0 0 = true ∧ s.bit Reg.TDM_CTRL 0 (State.portEn p) = true ∧
        (s.tport p).st = .up ∧ s.twin.pair = .paired ∧
        (f.shapeOk = false ∨ f.session ≠ s.twin.session ∨ f.session = 0 ∨ f.fseq ≤ (s.tport p).fseqRx)) ∧
    (∃ (s : State) (p : Bool), (s.tport p).nak = true) ∧
    (∃ (s : State) (p : Bool) (k : BitVec 12), s.psq.mainUp = true ∧ (s.tport p).st = .up ∧ k.toNat < (s.tport p).unacked ∧ (s.tport p).replays = 0) ∧
    (∃ (s : State) (p : Bool) (v : TPort), s.hostsMay = true ∧ s.bit Reg.TDM_CTRL 0 0 = true ∧ s.bit Reg.TDM_CTRL 0 (State.portEn p) = true ∧
        v = s.tport p ∧ v.st = .down ∧ v.barred = false ∧ s.twin.binding = none) ∧
    (∃ (s : State) (p : Bool), s.bit Reg.TDM_CTRL 0 (State.portEn p) = false) ∧
    (∃ (s : State) (p : Bool), s.psq.mainUp = true ∧ s.twin.session ≠ 0 ∧ (s.tport p).st = .up) ∧
    (∃ (s : State) (u : State) (p : Bool) (f : TFrame) (v : TPort), s.psq.mainUp = true ∧ s.bit Reg.TDM_CTRL 0 0 = true ∧
        s.bit Reg.TDM_CTRL 0 (State.portEn p) = true ∧ v = s.tport p ∧ v.st = .up ∧ s.twin.pair = .paired ∧ f.shapeOk = true ∧ f.session ≠ 0 ∧
        f.session = s.twin.session ∧ v.fseqRx < f.fseq ∧ f.tagOk = false ∧ u = (s.bump Reg.TDM_AUTH_CNT 0 31 0).cause Reg.TDM_CAUSE 0 9 241 ∧
        v.fails = 0) ∧
    (∃ (s : State) (u : State) (p : Bool) (f : TFrame) (v : TPort), s.psq.mainUp = true ∧ s.bit Reg.TDM_CTRL 0 0 = true ∧
        s.bit Reg.TDM_CTRL 0 (State.portEn p) = true ∧ v = s.tport p ∧ v.st = .up ∧ s.twin.pair = .paired ∧ f.shapeOk = true ∧ f.session ≠ 0 ∧
        f.session = s.twin.session ∧ v.fseqRx < f.fseq ∧ f.tagOk = false ∧ u = (s.bump Reg.TDM_AUTH_CNT 0 31 0).cause Reg.TDM_CAUSE 0 9 241 ∧
        v.fails = 2 ∧ s.tally.now.toNat ≤ v.failAt.toNat + secUnits) ∧
    (∃ (s : State) (p : Bool) (flit : Option TFlit), s.psq.mainUp = true ∧ (s.tport p).st = .up ∧ (s.tport p).nak = false ∧ (∀ w,
        flit = some w → tflitBad w = true ∨ tflitKind w = 1 ∧ tflitSeq w ≠ (s.tport p).rxSeq)) ∧
    (∃ (s : State) (p : Bool) (w : TFlit), tflitBad w = false ∧ (tflitKind w ≠ 1 ∨ tflitSeq w = (s.tport p).rxSeq)) ∧
    (∃ (s : State) (p : Bool), s.psq.mainUp = true ∧ (s.tport p).st = .up ∧ 0 < (s.tport p).rxOwed) ∧
    (∃ (s : State) (p : Bool), s.psq.mainUp = true ∧ (s.tport p).st = .up ∧ (s.tport p).rxOwed = 0) ∧
    (∃ (s : State) (p : Bool) (v : TPort), s.psq.mainUp = true ∧ (s.tport p).st = .up ∧ (s.tport p).unacked = 0 ∧ v = s.tport p ∧ v.replays = 0) ∧
    (∃ (s : State) (p : Bool) (v : TPort), s.psq.mainUp = true ∧ (s.tport p).st = .up ∧ (s.tport p).unacked = 0 ∧ v = s.tport p ∧ v.replays = 7 ∧
        v.replayFrom = v.ackSeq) ∧
    (∃ (s : State) (p : Bool) (v : TPort), s.psq.mainUp = true ∧ v = s.tport p ∧ v.st = .fast ∧ v.fastTried < 3) ∧
    (∃ (s : State) (p : Bool) (v : TPort), s.psq.mainUp = true ∧ v = s.tport p ∧ v.st = .fast ∧ v.fastTried = 3) ∧
    (∃ (s : State) (u : State) (p : Bool) (v : TPort), s.psq.mainUp = true ∧ v = s.tport p ∧ v.st = .full ∧
        (u = s.setTport p { v with st := .up, fastTried := 0, nak := false, rxOwed := 0 }) ∧ s.twin.pair ≠ .paired) ∧
    (∃ (s : State) (u : State) (p : Bool) (v : TPort), s.psq.mainUp = true ∧ v = s.tport p ∧ v.st = .full ∧
        (u = s.setTport p { v with st := .up, fastTried := 0, nak := false, rxOwed := 0 }) ∧ v.fails = 0 ∧ s.twin.pair = .paired) ∧
    (∃ (s : State) (u : State) (p : Bool) (v : TPort), s.psq.mainUp = true ∧ v = s.tport p ∧ v.st = .full ∧
        (u = s.setTport p { v with st := .up, fastTried := 0, nak := false, rxOwed := 0 }) ∧ 0 < v.fails ∧ s.twin.session ≠ 0 ∧
        s.twin.pair = .attesting) ∧
    (∃ (s : State), s.psq.mainUp = true ∧ s.twin.p0.st = .up ∧ s.twin.pair = .paired) ∧
    (∃ (s : State) (h : _), s.psq.mainUp = true ∧ s.twin.p0.st = .up ∧ s.twin.pair = .unpaired ∧ s.twin.binding = some h ∧
        s.bit Reg.TDM_CTRL 0 0 = true ∧ s.loadStarted = true ∧ s.regionIds = []) ∧
    (∃ (s : State), s.psq.mainUp = true ∧ s.reg Reg.TDM_LANEMAP0 = 0x00FAC688#32 ∧ s.reg Reg.TDM_LANEMAP1 = 0x00FAC688#32) ∧
    (∃ (s : State), s.psq.mainUp = true ∧ s.reg Reg.TDM_LANEMAP0 = 0x00FAC688#32 ∧ s.reg Reg.TDM_LANEMAP1 = 0) :=
  ⟨⟨paired, false, frameOf 1 0, by decide +kernel⟩,
    ⟨{ live with twin.p1 := { st := .up, nak := true } }, true, by decide +kernel⟩,
    ⟨{ live with twin.p0 := { st := .up, unacked := 1 } }, false, 0#12, by decide +kernel⟩,
    ⟨{ live with twin.p0 := {} }, false, _, by decide +kernel, by decide +kernel, by decide +kernel, rfl, by decide +kernel⟩,
    ⟨live.setReg Reg.TDM_CTRL 0 1#32, true, by decide +kernel⟩,
    ⟨live, false, by decide +kernel⟩,
    ⟨paired, _, false, frameOf 1 1 false, _, by decide +kernel, by decide +kernel, by decide +kernel, rfl, five_and (by decide +kernel) ⟨by decide +kernel, by decide +kernel, rfl, by decide +kernel⟩⟩,
    ⟨{ paired with twin.p0 := { st := .up, fails := 2 } }, _, false, frameOf 1 1 false, _, by decide +kernel, by decide +kernel, by decide +kernel,
        rfl, five_and (by decide +kernel) ⟨by decide +kernel, by decide +kernel,
        rfl, by decide +kernel⟩⟩,
    ⟨paired, false, none, by decide +kernel, by decide +kernel, by decide +kernel, by intro w h; cases h⟩,
    ⟨paired, false, goodTFlit, goodTFlit_ok.1, .inr (by rw [goodTFlit_ok.2]; decide +kernel)⟩,
    ⟨{ paired with twin.p0 := { st := .up, rxOwed := 1 } }, false, by decide +kernel⟩,
    ⟨paired, false, by decide +kernel⟩,
    ⟨paired, false, _, by decide +kernel, by decide +kernel, by decide +kernel, rfl, by decide +kernel⟩,
    ⟨{ paired with twin.p0 := { st := .up, replays := 7 } }, false, _, by decide +kernel, by decide +kernel, by decide +kernel, rfl,
        by decide +kernel⟩,
    ⟨{ paired with twin.p0 := { st := .fast, fastTried := 2 } }, false, _, by decide +kernel, rfl, by decide +kernel⟩,
    ⟨{ paired with twin.p0 := { st := .fast, fastTried := 3 } }, false, _, by decide +kernel, rfl, by decide +kernel⟩,
    ⟨{ live with twin.p0 := { st := .full } }, _, false, _, by decide +kernel, rfl, by decide +kernel, rfl, by decide +kernel⟩,
    ⟨{ paired with twin.p0 := { st := .full } }, _, false, _, by decide +kernel, rfl, by decide +kernel, rfl, by decide +kernel⟩,
    ⟨{ paired with twin.pair := .attesting, twin.p0 := { st := .full, fails := 1 } }, _, false, _, by decide +kernel, rfl, by decide +kernel, rfl,
        by decide +kernel⟩,
    ⟨paired, by decide +kernel⟩,
    ⟨{ live with xlt.regions := [], twin.binding := some 1 }, 1, by decide +kernel⟩,
    ⟨(live.setReg Reg.TDM_LANEMAP0 0 0x00FAC688#32).setReg Reg.TDM_LANEMAP1 0 0x00FAC688#32, by decide +kernel⟩,
    ⟨(live.setReg Reg.TDM_LANEMAP0 0 0x00FAC688#32).setReg Reg.TDM_LANEMAP1 0 0, by decide +kernel⟩⟩

/-- The hypotheses of `Obligations.TandemTimers` can be met, clause by clause. -/
theorem test_witness_TandemTimers :
    (∃ (s : State) (u : State), s.psq.mainUp = true ∧ s.twin.session ≠ 0 ∧ s.twin.pair = .paired ∧ s.twin.p0.st = .up ∧ s.twin.p1.st = .down ∧
        (u = s.setTwin { s.twin with hbTx := s.twin.hbTx + 1 })) ∧
    (∃ (s : State), s.psq.mainUp = true ∧ s.twin.session = 0) ∧
    (∃ (s : State) (u : State), s.psq.mainUp = true ∧ s.twin.pair = .paired ∧
        u = ((s.bump Reg.TDM_LOSS_CNT 0 31 0).setPair .lost).failHanding.endSession) ∧
    (∃ (s : State), s.twin.strictWait = false) ∧
    (∃ (s : State) (u : State) (v : State), s.psq.mainUp = true ∧ s.twin.session ≠ 0 ∧ s.twin.pair = .paired ∧ s.twin.p0.st = .up ∧
        s.twin.p1.st = .up ∧ u = s.tsend false (.sync s.tally.source s.tally.trust) ∧ v = u.tsend true (.sync s.tally.source s.tally.trust)) ∧
    (∃ (s : State), s.psq.mainUp = true ∧ s.twin.pair = .attesting) ∧
    (∃ (s : State), s.psq.mainUp = true ∧ (s.twin.pair = .lost ∨ s.twin.pair = .unpaired ∨ s.twin.pair = .detached ∨ s.twin.pair = .parked)) ∧
    (∃ (s : State) (r : Nat) (u : State), s.psq.mainUp = true ∧ s.twin.fenceWait = true ∧ s.twin.pair = .lost ∧ s.regionIds = [r] ∧
        (u = s.setTwin { s.twin with fenceWait := false }) ∧ (s.rt r).home = true ∧ (s.rt r).held = true ∧ (s.region r).strict = false) ∧
    (∃ (s : State) (r : Nat) (u : State), s.psq.mainUp = true ∧ s.twin.fenceWait = true ∧ s.twin.pair = .lost ∧ s.regionIds = [r] ∧
        (u = s.setTwin { s.twin with fenceWait := false }) ∧ (s.region r).strict = true) ∧
    (∃ (s : State) (r : Nat) (u : State), s.psq.mainUp = true ∧ s.twin.fenceWait = true ∧ s.twin.pair = .lost ∧ s.regionIds = [r] ∧
        (u = s.setTwin { s.twin with fenceWait := false }) ∧ (s.rt r).home = false) ∧
    (∃ (s : State) (u : State) (r : Nat), s.psq.mainUp = true ∧ s.twin.fenceWait = false ∧ s.twin.strictWait = true ∧ s.twin.pair = .lost ∧
        s.regionIds = [r] ∧ (u = s.setTwin { s.twin with strictWait := false }) ∧ (s.rt r).home = true ∧ (s.rt r).held = true ∧
        (s.region r).strict = true) ∧
    (∃ (s : State) (u : State) (r : Nat), s.psq.mainUp = true ∧ s.twin.fenceWait = false ∧ s.twin.strictWait = true ∧ s.twin.pair = .lost ∧
        s.regionIds = [r] ∧ (u = s.setTwin { s.twin with strictWait := false }) ∧ (s.rt r).held = false) ∧
    (∃ (s : State) (n : Nat), s.psq.mainUp = true ∧ s.twin.pair = .paired ∧ s.twin.leaving = some n ∧ s.twin.peerLeaving = false) ∧
    (∃ (s : State) (n : Nat), s.psq.mainUp = true ∧ s.twin.pair = .paired ∧ s.twin.leaving = some n ∧ s.twin.peerLeaving = true) :=
  ⟨⟨paired, _, by decide +kernel, by decide +kernel, by decide +kernel, by decide +kernel, by decide +kernel, rfl⟩,
    ⟨{ live with twin.session := 0 }, by decide +kernel⟩,
    ⟨paired, _, by decide +kernel, by decide +kernel, rfl⟩,
    ⟨live, by decide +kernel⟩,
    ⟨{ paired with twin.p1 := { st := .up } }, _, _, by decide +kernel, by decide +kernel, by decide +kernel, by decide +kernel, by decide +kernel,
        rfl, rfl⟩,
    ⟨{ live with twin.pair := .attesting }, by decide +kernel⟩,
    ⟨{ live with twin.pair := .lost }, by decide +kernel⟩,
    ⟨{ live with twin.pair := .lost, twin.fenceWait := true, twin.regions := [(1, { home := true, held := true })] }, 1, _, by decide +kernel,
        by decide +kernel, by decide +kernel, by decide +kernel, rfl, by decide +kernel⟩,
    ⟨{ live with twin.pair := .lost, twin.fenceWait := true, xlt.regions := [(1, { valid := true, mode := .m4, size := 4096, extents := [0], strict := true })] },
        1, _, by decide +kernel, by decide +kernel, by decide +kernel, by decide +kernel, rfl, by decide +kernel⟩,
    ⟨{ live with twin.pair := .lost, twin.fenceWait := true, twin.regions := [] }, 1, _, by decide +kernel, by decide +kernel, by decide +kernel,
        by decide +kernel, rfl, by decide +kernel⟩,
    ⟨{ live with twin.pair := .lost, twin.strictWait := true, twin.regions := [(1, { home := true, held := true })], xlt.regions := [(1, { valid := true, mode := .m4, size := 4096, extents := [0], strict := true })] },
        _, 1, by decide +kernel, by decide +kernel, by decide +kernel, by decide +kernel, by decide +kernel, rfl, by decide +kernel⟩,
    ⟨{ live with twin.pair := .lost, twin.strictWait := true }, _, 1, by decide +kernel, by decide +kernel, by decide +kernel, by decide +kernel,
        by decide +kernel, rfl, by decide +kernel⟩,
    ⟨{ paired with twin.leaving := some 0 }, 0, by decide +kernel⟩,
    ⟨{ paired with twin.leaving := some 0, twin.peerLeaving := true }, 0, by decide +kernel⟩⟩

/-- The hypotheses of `Obligations.CxlMemory` can be met, clause by clause. -/
theorem test_witness_CxlMemory :
    (∃ (s : State) (p : Fin 4) (l : Fin 16), (s.portTakes p = false ∨ s.ldThere p l = false)) ∧
    (∃ (s : State) (w : State) (p : Fin 4) (l : Fin 16) (t : CxlTarget), s.portTakes p = true ∧ s.ldThere p l = true ∧ w = s.portWake p ∧
        w.landing p l t = .nowhere) ∧
    (∃ (s : State) (w : State) (p : Fin 4) (l : Fin 16) (r : Nat) (off : Nat) (x : Nat) (t : CxlTarget), s.portTakes p = true ∧
        s.ldThere p l = true ∧ w = s.portWake p ∧ w.landing p l t = .region r off ∧ w.ideMissing p = false ∧ w.resolve r off = some x ∧
        off % 256 = 64) ∧
    (∃ (s : State) (w : State) (p : Fin 4) (l : Fin 16) (off : Nat) (t : CxlTarget), s.portTakes p = true ∧ s.ldThere p l = true ∧
        w = s.portWake p ∧ w.landing p l t = .staging off ∧ off < 64 * 2 ^ 20 ∧ w.ideMissing p = false ∧
        w.chanOfLd p l = some (Fin.ofNat 64 (off / 2 ^ 20))) ∧
    (∃ (s : State) (w : State) (p : Fin 4) (l : Fin 16) (off : Nat) (t : CxlTarget), s.portTakes p = true ∧ s.ldThere p l = true ∧
        w = s.portWake p ∧ w.landing p l t = .staging off ∧ off < 64 * 2 ^ 20 ∧ w.ideMissing p = false ∧
        w.chanOfLd p l ≠ some (Fin.ofNat 64 (off / 2 ^ 20))) ∧
    (∃ (s : State) (w : State) (p : Fin 4) (l : Fin 16) (r : Nat) (off : Nat) (t : CxlTarget), s.portTakes p = true ∧ s.ldThere p l = true ∧
        w = s.portWake p ∧ w.landing p l t = .region r off ∧ (w.ideMissing p = true ∨ w.domainReady = false ∨ w.regionOpen r = false)) ∧
    (∃ (s : State) (w : State) (p : Fin 4) (l : Fin 16) (r : Nat) (off : Nat) (t : CxlTarget), s.portTakes p = true ∧ s.ldThere p l = true ∧
        w = s.portWake p ∧ w.landing p l t = .region r off ∧ w.ideMissing p = true) ∧
    (∃ (s : State) (w : State) (p : Fin 4) (l : Fin 16) (r : Nat) (off : Nat) (x : Nat) (t : CxlTarget), s.portTakes p = true ∧
        s.ldThere p l = true ∧ w = s.portWake p ∧ w.landing p l t = .region r off ∧ w.ideMissing p = false ∧ w.domainReady = true ∧
        w.regionOpen r = true ∧ w.resolve r off = some x ∧ (w.bline x).isSome = true) ∧
    (∃ (s : State) (w : State) (p : Fin 4) (l : Fin 16) (r : Nat) (off : Nat) (x : Nat) (t : CxlTarget), s.portTakes p = true ∧
        s.ldThere p l = true ∧ w = s.portWake p ∧ w.landing p l t = .region r off ∧ w.ideMissing p = false ∧ w.domainReady = true ∧
        w.regionOpen r = true ∧ w.resolve r off = some x ∧ w.bline x = none ∧ w.scbSlot x = none) ∧
    (∃ (s : State) (w : State) (p : Fin 4) (l : Fin 16) (off : Nat) (t : CxlTarget), s.portTakes p = true ∧ s.ldThere p l = true ∧
        w = s.portWake p ∧ w.landing p l t = .bench off ∧ off < 48 * 2 ^ 20 ∧ w.plainView = false) ∧
    (∃ (s : State) (w : State) (p : Fin 4) (l : Fin 16) (off : Nat) (t : CxlTarget), s.portTakes p = true ∧ s.ldThere p l = true ∧
        w = s.portWake p ∧ w.landing p l t = .bench off ∧ 0x2000000000000 ≤ off) ∧
    (∃ (s : State), s.ingressOpen = true ∧ s.bench.held = []) ∧
    (∃ (s : State) (p : Fin 4) (w : HostWrite) (l : Fin 16) (tag : Nat) (hs : List HostWrite), s.ingressOpen = true ∧ s.bench.held = w :: hs ∧
        w.who = .cxl p l tag) ∧
    (∃ (s : State) (p : Fin 4) (l : Fin 16) (b : Fin 4) (d : Decoder) (v : Decoder), s.psq.mainUp = true ∧ s.ldThere p l = true ∧
        v = Tab.get {} (s.ld p l).decoders b.val ∧ v.committed = true ∧ (d.committed = true ∨ v.locked = true)) ∧
    (∃ (s : State) (p : Fin 4) (l : Fin 16) (b : Fin 4) (d : Decoder) (v : Decoder), s.psq.mainUp = true ∧ s.ldThere p l = true ∧
        v = Tab.get {} (s.ld p l).decoders b.val ∧ v.committed = true ∧ d.committed = false ∧ v.locked = false) ∧
    (∃ (s : State) (p : Fin 4) (l : Fin 16) (b : Fin 4) (d : Decoder) (v : Decoder), s.psq.mainUp = true ∧ s.ldThere p l = true ∧
        v = Tab.get {} (s.ld p l).decoders b.val ∧ v.committed = false ∧ d.committed = false) ∧
    (∃ (s : State) (p : Fin 4) (l : Fin 16) (b : Fin 4) (d : Decoder) (v : Decoder) (r : _) (rofs : _), s.psq.mainUp = true ∧ s.ldThere p l = true ∧
        v = Tab.get {} (s.ld p l).decoders b.val ∧ v.committed = false ∧ d.committed = true ∧
        Tab.get none s.cxl.bindings (State.ldNo p l * 4 + b.val) = some (.region r rofs d.size) ∧ d.base % 2 ^ 28 = 0 ∧ d.size % 2 ^ 28 = 0) ∧
    (∃ (s : State) (p : Fin 4) (l : Fin 16) (b : Fin 4) (d : Decoder) (v : Decoder), s.psq.mainUp = true ∧ s.ldThere p l = true ∧
        v = Tab.get {} (s.ld p l).decoders b.val ∧ v.committed = false ∧ d.committed = true ∧
        Tab.get none s.cxl.bindings (State.ldNo p l * 4 + b.val) = none) ∧
    (∃ (s : State) (p : Fin 4) (l : Fin 16) (b : Fin 4) (d : Decoder) (v : Decoder) (r : _) (rofs : _) (n : _), s.psq.mainUp = true ∧
        s.ldThere p l = true ∧ v = Tab.get {} (s.ld p l).decoders b.val ∧ v.committed = false ∧ d.committed = true ∧
        Tab.get none s.cxl.bindings (State.ldNo p l * 4 + b.val) = some (.region r rofs n) ∧ n ≠ d.size) :=
  ⟨⟨{ live with cxl.ports := [] }, 0, 0, by decide +kernel⟩,
    ⟨live, _, 0, 0, .hpa 0, by decide +kernel, by decide +kernel, rfl, by decide +kernel⟩,
    ⟨{ live with cxl.lds := [(0, { decoders := [(0, { size := 0x10000000, committed := true })] })], cxl.bindings := [(0, some (.region 1 0 0x10000000))] },
        _, 0, 0, 1, 64, 0, .hpa 64, by decide +kernel, by decide +kernel, rfl, by decide +kernel⟩,
    ⟨{ live with cxl.lds := [(0, { decoders := [(0, { size := 0x10000000, committed := true })] })], cxl.bindings := [(0, some .staging)], chans := [(0, { who := .cxl 0 0 })] },
        _, 0, 0, 0, .hpa 0, by decide +kernel, by decide +kernel, rfl, by decide +kernel⟩,
    ⟨{ live with cxl.lds := [(0, { decoders := [(0, { size := 0x10000000, committed := true })] })], cxl.bindings := [(0, some .staging)] }, _, 0,
        0, 0, .hpa 0, by decide +kernel, by decide +kernel, rfl, by decide +kernel⟩,
    ⟨{ live with cxl.lds := [(0, { decoders := [(0, { size := 0x10000000, committed := true })] })], cxl.bindings := [(0, some (.region 1 0 0x10000000))], bench.domain := .closed },
        _, 0, 0, 1, 64, .hpa 64, by decide +kernel, by decide +kernel, rfl, by decide +kernel⟩,
    ⟨{ live.setBit Reg.CXL_CTRL 0 4 true with cxl.lds := [(0, { decoders := [(0, { size := 0x10000000, committed := true })] })], cxl.bindings := [(0, some (.region 1 0 0x10000000))] },
        _, 0, 0, 1, 64, .hpa 64, by decide +kernel, by decide +kernel, rfl, by decide +kernel⟩,
    ⟨{ live with cxl.lds := [(0, { decoders := [(0, { size := 0x10000000, committed := true })] })], cxl.bindings := [(0, some (.region 1 0 0x10000000))], bench.lines := [(0, some { state := .clean, valid := BitVec.allOnes 256 })] },
        _, 0, 0, 1, 64, 0, .hpa 64, by decide +kernel, by decide +kernel, rfl, by decide +kernel⟩,
    ⟨{ live with cxl.lds := [(0, { decoders := [(0, { size := 0x10000000, committed := true })] })], cxl.bindings := [(0, some (.region 1 0 0x10000000))] },
        _, 0, 0, 1, 64, 0, .hpa 64, by decide +kernel, by decide +kernel, rfl, by decide +kernel⟩,
    ⟨{ live with xlt.bvOpen := true, sec.groups := 0xFFFFFFFF }, _, 0, 0, 0, .benchView 0, by decide +kernel, by decide +kernel, rfl,
        by decide +kernel⟩,
    ⟨{ live with xlt.bvOpen := true }, _, 0, 0, 0x2000000000000, .benchView 0x2000000000000, by decide +kernel, by decide +kernel, rfl,
        by decide +kernel⟩,
    ⟨live, by decide +kernel⟩,
    ⟨{ live with bench.held := [{ who := .cxl 0 0 0, region := 1, rline := 0, line := 0, mask := 1, data := 0 }] }, 0,
        { who := .cxl 0 0 0, region := 1, rline := 0, line := 0, mask := 1, data := 0 }, 0, 0, [], by decide +kernel⟩,
    ⟨{ live with cxl.lds := [(0, { decoders := [(0, { size := 0x10000000, committed := true })] })] }, 0, 0, 0, { committed := true }, _,
        by decide +kernel, by decide +kernel, rfl, by decide +kernel⟩,
    ⟨{ live with cxl.lds := [(0, { decoders := [(0, { size := 0x10000000, committed := true })] })] }, 0, 0, 0, {}, _, by decide +kernel,
        by decide +kernel, rfl, by decide +kernel⟩,
    ⟨live, 0, 0, 3, {}, _, by decide +kernel, by decide +kernel, rfl, by decide +kernel⟩,
    ⟨{ live with cxl.bindings := [(0, some (.region 1 0 0x10000000))] }, 0, 0, 0, { size := 0x10000000, committed := true }, _, 1, 0,
        by decide +kernel, by decide +kernel, rfl, by decide +kernel⟩,
    ⟨live, 0, 0, 3, { committed := true }, _, by decide +kernel, by decide +kernel, rfl, by decide +kernel⟩,
    ⟨{ live with cxl.bindings := [(0, some (.region 1 0 0x10000000))] }, 0, 0, 0, { committed := true }, _, 1, 0, 0x10000000, by decide +kernel,
        by decide +kernel, rfl, by decide +kernel⟩⟩

/-- The hypotheses of `Obligations.MailboxCommands` can be met, clause by clause. -/
theorem test_witness_MailboxCommands :
    (∃ (s : State) (u : State) (p : Fin 4) (l : Fin 16) (e : DcExtent), s.psq.mainUp = true ∧ s.ldThere p l = true ∧ e ∈ (s.ld p l).extents ∧
        (u = ((s.setLd p l { s.ld p l with extents := (s.ld p l).extents.erase e }).cdatAdvance (State.ldNo p l)).ldRecord p l .dcd .dcRelease e.off) ∧ Tab.get none (s.ld p l).dcMap e.dc.val = none) ∧
    (∃ (s : State) (p : Fin 4) (l : Fin 16) (e : DcExtent), e ∉ (s.ld p l).extents) ∧
    (∃ (s : State) (p : Fin 4) (l : Fin 16), s.ldThere p l = false) ∧
    (∃ (s : State) (w : State) (p : Fin 4) (l : Fin 16) (k : _) (r : _), s.psq.mainUp = true ∧ s.ldThere p l = true ∧ w = s.wakeIdle ∧
        (w.ld p l).dcMap = [(k, some r)]) ∧
    (∃ (s : State) (w : State) (p : Fin 4) (l : Fin 16) (k : LogKind) (a : _) (rest : _), s.psq.mainUp = true ∧ s.ldThere p l = true ∧
        w = s.wakeIdle ∧ (w.ld p l).logs = a :: rest ∧ a.kind = k) ∧
    (∃ (s : State) (w : State) (p : Fin 4) (l : Fin 16) (rs : List Nat), s.psq.mainUp = true ∧ s.ldThere p l = true ∧ w = s.wakeIdle ∧
        rs = ldRegions w p l ∧ (w.ld p l).bg ≠ none) ∧
    (∃ (s : State) (w : State) (p : Fin 4) (l : Fin 16) (rs : List Nat) (r : _) (b : _), s.psq.mainUp = true ∧ s.ldThere p l = true ∧
        w = s.wakeIdle ∧ rs = ldRegions w p l ∧ (w.ld p l).bg = none ∧ r ∈ rs ∧ b ∈ w.bindingsOf r ∧ b.1 ≠ State.ldNo p l) ∧
    (∃ (s : State) (w : State) (p : Fin 4) (l : Fin 16) (rs : List Nat), s.psq.mainUp = true ∧ s.ldThere p l = true ∧ w = s.wakeIdle ∧
        rs = ldRegions w p l ∧ (w.ld p l).bg = none ∧ (∀ r ∈ rs, ∀ b ∈ w.bindingsOf r, b.1 = State.ldNo p l) ∧ w.rdma.wins = []) ∧
    (∃ (s : State) (p : Fin 4) (l : Fin 16), s.psq.mainUp = true ∧ (s.ld p l).bg = none) ∧
    (∃ (s : State) (p : Fin 4) (l : Fin 16), s.psq.mainUp = true ∧ (s.ld p l).bg ≠ none ∧ s.cxl.bgOps = []) ∧
    (∃ (s : State) (u : State) (p : Fin 4) (l : Fin 16) (r : _), s.psq.mainUp = true ∧ (s.ld p l).bg ≠ none ∧
        s.cxl.bgOps = [(State.ldNo p l, [r])] ∧ (u = State.eraseEnd { s with cxl := { s.cxl with bgOps := [] } } r)) ∧
    (∃ (s : State) (w : State) (p : Fin 4) (l : Fin 16) (es : List DcExtent), s.psq.mainUp = true ∧ s.ldThere p l = true ∧ w = s.wakeIdle ∧
        (∀ e ∈ es, e ∈ (w.ld p l).offers)) ∧
    (∃ (s : State) (w : State) (p : Fin 4) (l : Fin 16) (es : List DcExtent) (e : _), s.psq.mainUp = true ∧ s.ldThere p l = true ∧ w = s.wakeIdle ∧
        e ∈ es ∧ e ∉ (w.ld p l).offers) ∧
    (∃ (s : State) (w : State) (p : Fin 4) (l : Fin 16) (es : List DcExtent) (e : _), s.psq.mainUp = true ∧ s.ldThere p l = true ∧ w = s.wakeIdle ∧
        e ∈ es ∧ e ∉ (w.ld p l).extents) ∧
    (∃ (s : State) (w : State) (p : Fin 4) (l : Fin 16) (es : List DcExtent) (e : _), s.psq.mainUp = true ∧ s.ldThere p l = true ∧ w = s.wakeIdle ∧
        es = [e] ∧ e ∈ (w.ld p l).extents) :=
  ⟨⟨{ live with cxl.lds := [(0, { extents := [{ dc := 0, off := 0, len := 1 }] })] }, _, 0, 0, { dc := 0, off := 0, len := 1 }, by decide +kernel,
        by decide +kernel, by decide +kernel, rfl, by decide +kernel⟩,
    ⟨live, 0, 15, { dc := 0, off := 0, len := 1 }, by decide +kernel⟩,
    ⟨live, 0, 15, by decide +kernel⟩,
    ⟨{ live with cxl.lds := [(0, { dcMap := [(0, some 1)] })] }, _, 0, 0, 0, 1, by decide +kernel, by decide +kernel, rfl, by decide +kernel⟩,
    ⟨{ live with cxl.lds := [(0, { logs := [{ kind := .dcd, what := .dcAdd }] })] }, _, 0, 0, .dcd, { kind := .dcd, what := .dcAdd }, [],
        by decide +kernel, by decide +kernel, rfl, by decide +kernel⟩,
    ⟨{ live with cxl.lds := [(0, { bg := some 0x4400 })] }, _, 0, 0, _, by decide +kernel, by decide +kernel, rfl, rfl, by decide +kernel⟩,
    ⟨{ live with cxl.bindings := [(0, some (.region 1 0 0x10000000)), (4, some (.region 1 0 0x10000000))] }, _, 0, 0, _, 1, (1, 0, 0, 0x10000000),
        by decide +kernel, by decide +kernel, rfl, rfl, by decide +kernel⟩,
    ⟨live, _, 0, 0, _, by decide +kernel, by decide +kernel, rfl, rfl, by decide +kernel⟩,
    ⟨live, 0, 0, by decide +kernel⟩,
    ⟨{ live with cxl.lds := [(0, { bg := some 0x4400 })] }, 0, 0, by decide +kernel⟩,
    ⟨{ live with cxl.lds := [(0, { bg := some 0x4400 })], cxl.bgOps := [(0, [1])] }, _, 0, 0, 1, by decide +kernel, by decide +kernel,
        by decide +kernel, rfl⟩,
    ⟨{ live with cxl.lds := [(0, { offers := [{ dc := 0, off := 0, len := 1 }] })] }, _, 0, 0, [{ dc := 0, off := 0, len := 1 }], by decide +kernel,
        by decide +kernel, rfl, by decide +kernel⟩,
    ⟨live, _, 0, 0, [{ dc := 0, off := 0, len := 1 }], { dc := 0, off := 0, len := 1 }, by decide +kernel, by decide +kernel, rfl,
        by decide +kernel⟩,
    ⟨live, _, 0, 0, [{ dc := 0, off := 0, len := 1 }], { dc := 0, off := 0, len := 1 }, by decide +kernel, by decide +kernel, rfl,
        by decide +kernel⟩,
    ⟨{ live with cxl.lds := [(0, { extents := [{ dc := 0, off := 0, len := 1 }] })] }, _, 0, 0, [{ dc := 0, off := 0, len := 1 }],
        { dc := 0, off := 0, len := 1 }, by decide +kernel, by decide +kernel, rfl, by decide +kernel⟩⟩

/-- The hypotheses of `Obligations.CxlPortEvents` can be met, clause by clause. -/
theorem test_witness_CxlPortEvents :
    (∃ (s : State) (p : Fin 4), s.bit Reg.CXL_CTRL 0 p.val = false) ∧
    (∃ (s : State) (u : State) (p : Fin 4) (l : Fin 16), s.psq.mainUp = true ∧ u = s.cxlForget (fun q k => p == q && l == k)) ∧
    (∃ (s : State) (d : Option (Fin 4 × Fin 16)), s.spdmTakes d = false) ∧
    (∃ (s : State) (u : State) (p : Fin 4) (v : CxlPort), s.hostsMay = true ∧ s.bit Reg.CXL_CTRL 0 p.val = true ∧ v = s.cport p ∧ v.cycled = false ∧
        u = s.setCport p v ∧ s.portThere p = false) ∧
    (∃ (s : State) (u : State) (p : Fin 4) (v : CxlPort) (width : Fin 17) (speed : Fin 3), s.hostsMay = true ∧ s.bit Reg.CXL_CTRL 0 p.val = true ∧
        v = s.cport p ∧ v.cycled = false ∧ u = s.setCport p v ∧ s.portThere p = true ∧ width.val < 8 ∧ 0 < speed.val ∧ v.cfg.getLsbD 4 = false) ∧
    (∃ (s : State) (u : State) (p : Fin 4) (v : CxlPort), s.hostsMay = true ∧ s.bit Reg.CXL_CTRL 0 p.val = true ∧ v = s.cport p ∧ v.cycled = false ∧
        u = s.setCport p v ∧ s.portThere p = true ∧ v.cfg.getLsbD (p.val / 2) = true ∧ v.cfg.getLsbD 4 = true) ∧
    (∃ (s : State) (u : State) (p : Fin 4) (v : CxlPort), s.hostsMay = true ∧ s.bit Reg.CXL_CTRL 0 p.val = true ∧ v = s.cport p ∧ v.cycled = false ∧
        u = s.setCport p v ∧ s.portThere p = true ∧ v.cfg.getLsbD (p.val / 2) = false ∧ v.cfg.getLsbD 4 = false) ∧
    (∃ (s : State) (p : Fin 4), s.ingressOpen = true ∧ (s.cport p).st = .l0) ∧
    (∃ (s : State) (p : Fin 4), (s.cport p).st ≠ .l0) ∧
    (∃ (s : State) (p : Fin 4), s.psq.mainUp = true ∧ (s.cport p).ideMem = true) ∧
    (∃ (s : State) (p : Fin 4), s.psq.mainUp = true ∧ (s.cport p).ideIo = true) ∧
    (∃ (s : State) (p : Fin 4) (k : Fin 6), s.psq.mainUp = true ∧ 2 ≤ k.val ∧ (s.cport p).ideSel.getLsbD (k.val - 2) = true) ∧
    (∃ (s : State) (p : Fin 4), s.psq.mainUp = true ∧ (s.cport p).ideMem = false) ∧
    (∃ (s : State) (p : Fin 4) (l : Fin 16) (sid : Word) (k : Fin 6), s.psq.mainUp = true ∧ sid ∈ (s.ld p l).sessions ∧ 2 ≤ k.val) ∧
    (∃ (s : State) (p : Fin 4) (l : Fin 16) (sid : Word), s.psq.mainUp = true ∧ sid ∉ (s.ld p l).sessions) ∧
    (∃ (s : State) (p : Fin 4) (l : Fin 16), s.psq.mainUp = true ∧ s.ldThere p l = true ∧ s.cxl.bindings = [] ∧ (s.ld p l).dcMap = []) ∧
    (∃ (s : State) (p : Fin 4) (l : Fin 16) (r : _), s.psq.mainUp = true ∧ s.ldThere p l = true ∧ s.cxl.bindings = [] ∧
        (s.ld p l).dcMap = [(0, some r)] ∧ (s.region r).mode = .m2 ∧ (s.cport p).width = 16 ∧ (s.cport p).speed = 2) ∧
    (∃ (s : State) (u : State) (p : Fin 4), s.psq.mainUp = true ∧ u = s.portReset p ∧ (s.cport p).st ≠ .disabled) ∧
    (∃ (s : State) (u : State) (p : Fin 4), s.psq.mainUp = true ∧ u = s.portReset p ∧ (s.cport p).st = .disabled) ∧
    (∃ (s : State) (w : State) (d : Option (Fin 4 × Fin 16)) (sid : _) (mask : _), s.spdmTakes d = true ∧ w = s.wakeIdle ∧ w.sec.trngFail = false ∧
        (w.sessionsAt d).length < 2 ∧ w.sessionThere sid = false ∧ mask ≠ 0) ∧
    (∃ (s : State) (w : State) (d : Option (Fin 4 × Fin 16)) (sid : _), s.spdmTakes d = true ∧ w = s.wakeIdle ∧ sid ∈ w.sessionsAt d) ∧
    (∃ (s : State) (p : Fin 4) (l : Fin 16) (e : DcExtent), s.psq.mainUp = true ∧ s.ldThere p l = true ∧ 0 < e.len ∧
        (e.off % 2 ^ 28 ≠ 0 ∨ e.len % 2 ^ 28 ≠ 0)) ∧
    (∃ (s : State) (p : Fin 4) (l : Fin 16) (e : DcExtent) (x : _), s.psq.mainUp = true ∧ s.ldThere p l = true ∧ 0 < e.len ∧ e.off % 2 ^ 28 = 0 ∧
        e.len % 2 ^ 28 = 0 ∧ x ∈ (s.ld p l).extents ∧ x.dc = e.dc ∧ x.off = e.off ∧ 0 < x.len) ∧
    (∃ (s : State) (p : Fin 4) (l : Fin 16) (e : DcExtent) (r : _), s.psq.mainUp = true ∧ s.ldThere p l = true ∧ 0 < e.len ∧ e.off % 2 ^ 28 = 0 ∧
        e.len % 2 ^ 28 = 0 ∧ (s.ld p l).extents = [] ∧ (s.ld p l).offers = [] ∧ Tab.get none (s.ld p l).dcMap e.dc.val = some r ∧
        s.isRegion r = true ∧ (e.off + e.len) / 65536 ≤ (s.region r).size) ∧
    (∃ (s : State) (p : Fin 4) (l : Fin 16) (e : DcExtent) (r : _), s.psq.mainUp = true ∧ s.ldThere p l = true ∧ 0 < e.len ∧ e.off % 2 ^ 28 = 0 ∧
        e.len % 2 ^ 28 = 0 ∧ (s.ld p l).extents = [] ∧ (s.ld p l).offers = [] ∧ Tab.get none (s.ld p l).dcMap e.dc.val = some r ∧
        s.isRegion r = true ∧ (s.region r).size < (e.off + e.len) / 65536 ∧ s.locked r = false ∧ (s.pairCap = .amber ∨ s.pairCap = .red)) :=
  ⟨⟨live.setBit Reg.CXL_CTRL 0 0 false, 0, by decide +kernel⟩,
    ⟨live, _, 0, 0, by decide +kernel, rfl⟩,
    ⟨live, some (0, 15), by decide +kernel⟩,
    ⟨{ live.setBit Reg.CXL_CTRL 0 1 true with cxl.ports := [(1, { st := .training, cycled := false })] }, _, 1, _, by decide +kernel,
        by decide +kernel, rfl, by decide +kernel, rfl, by decide +kernel⟩,
    ⟨{ live.setBit Reg.CXL_CTRL 0 0 true with cxl.ports := [(0, { st := .training, cycled := false })] }, _, 0, _, 7, 2, by decide +kernel,
        by decide +kernel, rfl, by decide +kernel, rfl, by decide +kernel⟩,
    ⟨{ live.setBit Reg.CXL_CTRL 0 0 true with cxl.ports := [(0, { st := .training, cycled := false, cfg := 0x11 })] }, _, 0, _, by decide +kernel,
        by decide +kernel, rfl, by decide +kernel, rfl, by decide +kernel⟩,
    ⟨{ live.setBit Reg.CXL_CTRL 0 0 true with cxl.ports := [(0, { st := .training, cycled := false })] }, _, 0, _, by decide +kernel,
        by decide +kernel, rfl, by decide +kernel, rfl, by decide +kernel⟩,
    ⟨live, 0, by decide +kernel⟩,
    ⟨live, 3, by decide +kernel⟩,
    ⟨{ live with cxl.ports := [(0, { st := .l0, ideMem := true })] }, 0, by decide +kernel⟩,
    ⟨{ live with cxl.ports := [(0, { st := .l0, ideIo := true })] }, 0, by decide +kernel⟩,
    ⟨{ live with cxl.ports := [(0, { st := .l0, ideSel := 8 })] }, 0, 5, by decide +kernel⟩,
    ⟨live, 0, by decide +kernel⟩,
    ⟨{ live with cxl.lds := [(0, { sessions := [5] })] }, 0, 0, 5#32, 5, by decide +kernel⟩,
    ⟨live, 0, 0, 5#32, by decide +kernel⟩,
    ⟨live, 0, 0, by decide +kernel⟩,
    ⟨{ live with cxl.ports := [(0, { st := .l0, width := 16, speed := 2 })], cxl.lds := [(0, { dcMap := [(0, some 1)] })], xlt.regions := [(1, { valid := true, mode := .m2, size := 4096, extents := [0] })] },
        0, 0, 1, by decide +kernel⟩,
    ⟨live, _, 0, by decide +kernel, rfl, by decide +kernel⟩,
    ⟨live, _, 3, by decide +kernel, rfl, by decide +kernel⟩,
    ⟨live, _, some (0, 0), 5#32, 1, by decide +kernel, rfl, by decide +kernel⟩,
    ⟨{ live with cxl.lds := [(0, { sessions := [5] })] }, _, some (0, 0), 5#32, by decide +kernel, rfl, by decide +kernel⟩,
    ⟨live, 0, 0, { dc := 0, off := 0, len := 1 }, by decide +kernel⟩,
    ⟨{ live with cxl.lds := [(0, { extents := [{ dc := 0, off := 0, len := 0x10000000 }] })] }, 0, 0, { dc := 0, off := 0, len := 0x10000000 },
        { dc := 0, off := 0, len := 0x10000000 }, by decide +kernel⟩,
    ⟨{ live with cxl.lds := [(0, { dcMap := [(0, some 1)] })] }, 0, 0, { dc := 0, off := 0, len := 0x10000000 }, 1, by decide +kernel⟩,
    ⟨{ live with cxl.lds := [(0, { dcMap := [(0, some 1)] })], med.yarrow := { cap := .red } }, 0, 0, { dc := 0, off := 0, len := 0x20000000 }, 1,
        by decide +kernel⟩⟩

/-- The hypotheses of `Obligations.RdmaRequests` can be met, clause by clause. -/
theorem test_witness_RdmaRequests :
    (∃ (s : State) (w : State) (n : Fin 65536) (k : WritePkt), s.Judges w n k.ce ∧ k.icrc = true ∧ (w.qp n).mgmt = none ∧ (w.qp n).spray = false ∧
        k.psn = (w.qp n).epsn ∧ k.pos = .only ∧ w.windowCheck (w.qp n).pd k.key k.va k.len 1 = none) ∧
    (∃ (s : State) (w : State) (u : State) (n : Fin 65536) (q : Qp) (psn : BitVec 24) (ce : Bool) (x : Remembered), s.Judges w n ce ∧ q = w.qp n ∧
        q.mgmt = none ∧ State.psnKind q psn = .duplicate ∧ (q.recent.find? fun r => r.psn == psn) = some x ∧ x.done = true ∧
        u = w.bump Reg.RDM_DUP_CNT 0 31 0) ∧
    (∃ (s : State) (n : Fin 65536) (k : WritePkt), s.ingressOpen = true ∧ s.bit Reg.RDM_CTRL 0 0 = true ∧ s.macTakes (s.qp n).mac.val = true ∧
        k.icrc = false) ∧
    (∃ (s : State) (n : Fin 65536) (k : WritePkt), s.ingressOpen = true ∧ s.bit Reg.RDM_CTRL 0 0 = true ∧ s.macTakes (s.qp n).mac.val = true ∧
        k.icrc = true ∧ (s.qp n).connected = false) ∧
    (∃ (s : State) (n : Fin 65536), s.ingressOpen = true ∧ s.bit Reg.RDM_CTRL 0 0 = true ∧ s.macTakes (s.qp n).mac.val = true ∧
        (s.qp n).error = true) ∧
    (∃ (s : State) (w : State) (x : State) (u : State) (v : State) (n : Fin 65536) (k : WritePkt) (imm : Word) (r : Nat) (off : Nat) (q : Qp) (ws : List HostWrite),
        s.Judges w n k.ce ∧ k.icrc = true ∧ q = w.qp n ∧ q.mgmt = none ∧ q.spray = false ∧ q.rcq = none ∧ k.psn = q.epsn ∧ k.pos = .only ∧
        w.windowCheck q.pd k.key k.va k.len 1 = some (r, off) ∧ ws = w.pieces (.rdma n k.psn) (.qp n) r off k.data ∧ w.packetFate ws = .go ∧
        x = w.useWindow n k.key ∧
        (u = x.setQp n { x.qp n with nextMsn := q.nextMsn + 1, msgs := q.msgs ++ [{ first := k.psn, last := k.psn + BitVec.ofNat 24 (State.packetsOf q k.len - 1), msn := q.nextMsn, left := 0, missing := k.len, length := k.len }] }) ∧ (v = u.setQp n (State.remember { u.qp n with epsn := k.psn + 1, nakSent := false, cur := none, msgs := (u.qp n).msgs.map fun m => if m.msn == q.nextMsn then { m with imm := some imm } else m } k.psn .write))) ∧
    (∃ (s : State) (w : State) (n : Fin 65536) (k : WritePkt), s.Judges w n k.ce ∧ k.icrc = true ∧ (w.qp n).mgmt = none ∧ (w.qp n).spray = false ∧
        State.psnKind (w.qp n) k.psn = .ahead ∧ (w.qp n).nakSent = false) ∧
    (∃ (s : State) (w : State) (n : Fin 65536) (k : WritePkt) (x : _), s.Judges w n k.ce ∧ k.icrc = true ∧ (w.qp n).mgmt = none ∧
        (w.qp n).spray = false ∧ State.psnKind (w.qp n) k.psn = .duplicate ∧ (((w.qp n).recent.find? fun r => r.psn == k.psn) = some x) ∧
        x.done = true) ∧
    (∃ (s : State) (w : State) (n : Fin 65536) (k : WritePkt) (g : BitVec 128), s.Judges w n k.ce ∧ k.icrc = true ∧ (w.qp n).mgmt = none ∧
        (w.qp n).spray = true ∧ k.gph = some g ∧ 1048576 < gphLength g) ∧
    (∃ (s : State) (w : State) (n : Fin 65536) (q : Qp) (psn : BitVec 24) (len : Nat) (ce : Bool), s.Judges w n ce ∧ q = w.qp n ∧ q.mgmt = none ∧
        psn = q.epsn ∧ State.outstanding q < 16 ∧ 2 ^ 31 < len) ∧
    (∃ (s : State) (w : State) (n : Fin 65536) (q : Qp) (psn : BitVec 24) (key : Word) (va : Nat) (len : Nat) (ce : Bool), s.Judges w n ce ∧
        q = w.qp n ∧ q.mgmt = none ∧ psn = q.epsn ∧ State.outstanding q < 16 ∧ len ≤ 2 ^ 31 ∧ w.windowCheck q.pd key va len 0 = none ∧
        w.domainReady = true) ∧
    (∃ (s : State) (w : State) (n : Fin 65536) (q : Qp) (psn : BitVec 24) (key : Word) (va : Nat) (len : Nat) (ce : Bool) (r : _) (off : _) (x : State),
        s.Judges w n ce ∧ q = w.qp n ∧ q.mgmt = none ∧ psn = q.epsn ∧ State.outstanding q < 16 ∧ len ≤ 2 ^ 31 ∧
        w.windowCheck q.pd key va len 0 = some (r, off) ∧ w.domainReady = true ∧ x = w.useWindow n key) ∧
    (∃ (s : State) (w : State) (n : Fin 65536) (q : Qp) (psn : BitVec 24) (va : Nat) (ce : Bool), s.Judges w n ce ∧ q = w.qp n ∧ q.mgmt = none ∧
        psn = q.epsn ∧ State.outstanding q < 16 ∧ va % 8 ≠ 0) ∧
    (∃ (s : State) (w : State) (n : Fin 65536) (q : Qp) (psn : BitVec 24) (key : Word) (va : Nat) (ce : Bool), s.Judges w n ce ∧ q = w.qp n ∧
        q.mgmt = none ∧ psn = q.epsn ∧ State.outstanding q < 16 ∧ va % 8 = 0 ∧ w.windowCheck q.pd key va 8 2 = none) ∧
    (∃ (s : State) (w : State) (n : Fin 65536) (q : Qp) (psn : BitVec 24) (key : Word) (va : Nat) (ce : Bool), s.Judges w n ce ∧ q = w.qp n ∧
        q.mgmt = none ∧ psn = q.epsn ∧ State.outstanding q < 16 ∧ va % 8 = 0 ∧ w.windowCheck q.pd key va 8 1 = none) ∧
    (∃ (s : State) (w : State) (n : Fin 65536) (q : Qp) (psn : BitVec 24) (key : Word) (va : Nat) (ce : Bool) (r : _) (off : _) (x : _) (y : State),
        s.Judges w n ce ∧ q = w.qp n ∧ q.mgmt = none ∧ psn = q.epsn ∧ State.outstanding q < 16 ∧ va % 8 = 0 ∧
        w.windowCheck q.pd key va 8 2 = some (r, off) ∧ r ≠ stagingRegion ∧ w.resolve r off = some x ∧ (∀ op,
        w.fate { who := .rdma n psn, region := r, rline := off / 256, line := x, mask := (BitVec.ofNat 256 255) <<< (off % 256), data := 0, atomic := some op } = .go) ∧ y = w.useWindow n key) ∧
    (∃ (s : State) (w : State) (n : Fin 65536) (q : Qp) (psn : BitVec 24) (key : Word) (va : Nat) (len : Nat) (ce : Bool), s.Judges w n ce ∧
        q = w.qp n ∧ q.mgmt = none ∧ psn = q.epsn ∧ w.windowCheck q.pd key va len 3 = none) ∧
    (∃ (s : State) (w : State) (n : Fin 65536) (q : Qp) (psn : BitVec 24) (key : Word) (va : Nat) (len : Nat) (ce : Bool) (r : _) (x : _),
        s.Judges w n ce ∧ q = w.qp n ∧ q.mgmt = none ∧ psn = q.epsn ∧ w.windowCheck q.pd key va len 3 = some r ∧ x = w.useWindow n key) ∧
    (∃ (s : State) (w : State) (n : Fin 65536) (q : Qp) (psn : BitVec 24) (ws : List Word) (ce : Bool) (c : _), s.Judges w n ce ∧ q = w.qp n ∧
        q.mgmt = some c ∧ psn = q.epsn ∧ (ws.length < 4 ∨ 64 < ws.length)) ∧
    (∃ (s : State) (w : State) (n : Fin 65536) (q : Qp) (psn : BitVec 24) (ws : List Word) (ce : Bool) (c : _), s.Judges w n ce ∧ q = w.qp n ∧
        q.mgmt = some c ∧ psn = q.epsn ∧ 4 ≤ ws.length ∧ ws.length ≤ 64 ∧ (16 ≤ ((w.chan c).held.filter fun p => p.req.via == .rdmaQp).length)) ∧
    (∃ (s : State) (w : State) (n : Fin 65536) (q : Qp) (psn : BitVec 24) (ws : List Word) (ce : Bool) (c : _), s.Judges w n ce ∧ q = w.qp n ∧
        q.mgmt = some c ∧ psn = q.epsn ∧ 4 ≤ ws.length ∧ ws.length ≤ 64 ∧ (w.chan c).held = []) ∧
    (∃ (s : State) (m : Fin 32) (n : Fin 65536), s.ingressOpen = true ∧ s.bit Reg.RDM_CTRL 0 0 = true ∧ s.macTakes m = true ∧
        (s.qp n.val).connected = true ∧ (s.qp n.val).error = false) ∧
    (∃ (s : State) (n : Fin 65536), s.ingressOpen = true ∧ s.bit Reg.RDM_CTRL 0 0 = true ∧ (s.qp n.val).connected = false) :=
  ⟨⟨live, _, 0, { psn := 0, pos := .only }, judges_mk (by decide +kernel), by decide +kernel⟩,
    ⟨{ live with rdma.qps := [(0, { connected := true, epsn := 1, recent := [{ psn := 0, kind := .atomic, done := true, result := 9 }] })] }, _, _,
        0, _, 0#24, true, { psn := 0, kind := .atomic, done := true, result := 9 }, judges_mk (by decide +kernel), rfl, by decide +kernel,
        by decide +kernel, by decide +kernel, by decide +kernel, rfl⟩,
    ⟨live, 0, { psn := 0, pos := .only, icrc := false }, by decide +kernel⟩,
    ⟨{ live with rdma.qps := [] }, 0, { psn := 0, pos := .only }, by decide +kernel⟩,
    ⟨{ live with rdma.qps := [(0, { connected := true, error := true })] }, 0, by decide +kernel⟩,
    ⟨{ live with rdma.pds := [(0, some {})], rdma.wins := [(0, some { region := 1, len := 4096, rights := 31 })], twin.regions := [(1, { home := true, opened := true, served := true, solo := true })], bench.tokens := 1 },
        _, _, _, _, 0, { psn := 0, pos := .only, len := 1, data := [0xA5] }, 0#32, 1, 0, _, _, judges_mk (by decide +kernel), by decide +kernel,
        rfl, five_and (by decide +kernel) ⟨by decide +kernel, rfl,
        by decide +kernel, rfl, rfl, rfl⟩⟩,
    ⟨live, _, 0, { psn := 1, pos := .only }, judges_mk (by decide +kernel), by decide +kernel⟩,
    ⟨{ live with rdma.qps := [(0, { connected := true, epsn := 1, recent := [{ psn := 0, kind := .write, done := true }] })] }, _, 0,
        { psn := 0, pos := .only }, { psn := 0, kind := .write, done := true }, judges_mk (by decide +kernel), by decide +kernel⟩,
    ⟨{ live with rdma.qps := [(0, { connected := true, spray := true })] }, _, 0, { psn := 0, pos := .only, gph := some (1048577#128 <<< 32) },
        1048577#128 <<< 32, judges_mk (by decide +kernel), by decide +kernel⟩,
    ⟨live, _, 0, _, _, 2147483649, true, judges_mk (by decide +kernel), rfl, by decide +kernel, rfl, by decide +kernel⟩,
    ⟨live, _, 0, _, _, 0#32, 0, 0, true, judges_mk (by decide +kernel), rfl, by decide +kernel, rfl, by decide +kernel⟩,
    ⟨{ live with rdma.pds := [(0, some {})], rdma.wins := [(0, some { region := 1, len := 4096, rights := 31 })] }, _, 0, _, _, 0#32, 0, 1, true, 1,
        0, _, judges_mk (by decide +kernel), rfl, by decide +kernel, rfl, by decide +kernel, by decide +kernel, by decide +kernel,
        by decide +kernel, rfl⟩,
    ⟨live, _, 0, _, _, 1, true, judges_mk (by decide +kernel), rfl, by decide +kernel, rfl, by decide +kernel⟩,
    ⟨live, _, 0, _, _, 0#32, 0, true, judges_mk (by decide +kernel), rfl, by decide +kernel, rfl, by decide +kernel⟩,
    ⟨live, _, 0, _, _, 0#32, 0, true, judges_mk (by decide +kernel), rfl, by decide +kernel, rfl, by decide +kernel⟩,
    ⟨{ live with rdma.pds := [(0, some {})], rdma.wins := [(0, some { region := 1, len := 4096, rights := 31 })], twin.regions := [(1, { home := true, opened := true, served := true, solo := true })], bench.tokens := 1 },
        _, 0, _, _, 0#32, 0, true, 1, 0, 0, _, judges_mk (by decide +kernel), rfl, by decide +kernel, rfl, by decide +kernel, by decide +kernel,
        by decide +kernel, by decide +kernel, by decide +kernel, fun op => by cases op <;> rfl, rfl⟩,
    ⟨live, _, 0, _, _, 0#32, 0, 0, true, judges_mk (by decide +kernel), rfl, by decide +kernel, rfl, by decide +kernel⟩,
    ⟨{ live with rdma.pds := [(0, some {})], rdma.wins := [(0, some { region := 1, len := 4096, rights := 31 })] }, _, 0, _, _, 0#32, 0, 1, true,
        (1, 0), _, judges_mk (by decide +kernel), rfl, by decide +kernel, rfl, by decide +kernel, rfl⟩,
    ⟨{ live with rdma.qps := [(0, { connected := true, mgmt := some 0 })] }, _, 0, _, _, [], true, 0, judges_mk (by decide +kernel), rfl,
        by decide +kernel, rfl, by decide +kernel⟩,
    ⟨{ live with rdma.qps := [(0, { connected := true, mgmt := some 0 })], chans := [(0, { who := .shelf, held := List.replicate 16 { opcode := 0, req := { chan := 0, via := .rdmaQp } } })] },
        _, 0, _, _, List.replicate 64 0, true, 0, judges_mk (by decide +kernel), rfl, by decide +kernel, rfl, by decide +kernel⟩,
    ⟨{ live with rdma.qps := [(0, { connected := true, mgmt := some 0 })] }, _, 0, _, _, List.replicate 64 0, true, 0,
        judges_mk (by decide +kernel), rfl, by decide +kernel, rfl, by decide +kernel⟩,
    ⟨live, 0, (0 : Fin 65536), by decide +kernel⟩,
    ⟨live, (1 : Fin 65536), by decide +kernel⟩⟩

/-- The hypotheses of `Obligations.RdmaRequester` can be met, clause by clause. -/
theorem test_witness_RdmaRequester :
    (∃ (s : State) (n : Fin 65536), (s.qp n).connected = false) ∧
    (∃ (s : State) (u : State) (n : Fin 65536) (q : Qp) (c : _), s.ingressOpen = true ∧ q = s.qp n ∧ q.connected = true ∧ q.error = false ∧
        q.mgmt = some c ∧ (u = (s.setQp n { q with retries := 0, peerRnr := false }).setChan c { s.chan c with waiting := (s.chan c).waiting.drop 1 })) ∧
    (∃ (s : State) (u : State) (n : Fin 65536) (psn : BitVec 24) (q : Qp), s.ingressOpen = true ∧ q = s.qp n ∧ q.connected = true ∧
        q.error = false ∧ q.mgmt = none ∧
        (u = s.setQp n { q with retries := 0, flight := q.flight.map fun f => if (psn - f.last).toNat < 2 ^ 23 ∧ f.wqe.opcode ≠ 2 then { f with acked := true } else f })) ∧
    (∃ (s : State) (n : Fin 65536) (psn : BitVec 24) (q : Qp) (f : _) (u : State), s.ingressOpen = true ∧ q = s.qp n ∧ q.connected = true ∧
        q.error = false ∧ q.mgmt = none ∧ q.flight = [f] ∧ f.psn = psn ∧ f.last = psn ∧ f.acked = false ∧ f.bad = false ∧
        (u = s.setQp n { q with retries := 0 })) ∧
    (∃ (s : State) (n : Fin 65536) (psn : BitVec 24) (off : Nat) (d : List Byte) (q : Qp) (f : _), s.ingressOpen = true ∧ q = s.qp n ∧
        q.connected = true ∧ q.error = false ∧ q.flight = [f] ∧ f.psn = psn ∧ f.wqe.opcode = 2 ∧
        s.windowCheck q.pd f.wqe.localKey (f.wqe.localVa + off) d.length 4 = none) ∧
    (∃ (s : State) (n : Fin 65536) (psn : BitVec 24) (off : Nat) (d : List Byte) (q : Qp) (f : _) (r : _) (o : _) (ws : _), s.ingressOpen = true ∧
        q = s.qp n ∧ q.connected = true ∧ q.error = false ∧ q.flight = [f] ∧ f.psn = psn ∧ f.wqe.opcode = 2 ∧
        s.windowCheck q.pd f.wqe.localKey (f.wqe.localVa + off) d.length 4 = some (r, o) ∧ ws = s.pieces (.landing n psn) (.qp n) r o d) ∧
    (∃ (s : State) (n : Fin 65536) (q : Qp) (c : _) (w : _) (ws : _), s.ingressOpen = true ∧ q = s.qp n ∧ q.connected = true ∧ q.error = false ∧
        q.mgmt = some c ∧ (s.chan c).waiting = w :: ws ∧ q.retries < 7) ∧
    (∃ (s : State) (n : Fin 65536) (q : Qp) (c : _) (w : _) (ws : _), s.ingressOpen = true ∧ q = s.qp n ∧ q.connected = true ∧ q.error = false ∧
        q.mgmt = some c ∧ (s.chan c).waiting = w :: ws ∧ 7 ≤ q.retries) ∧
    (∃ (s : State) (n : Fin 65536) (q : Qp), s.ingressOpen = true ∧ q = s.qp n ∧ q.connected = true ∧ q.error = false ∧ q.mgmt = none ∧
        q.flight = []) ∧
    (∃ (s : State) (n : Fin 65536) (q : Qp) (f : _), s.ingressOpen = true ∧ q = s.qp n ∧ q.connected = true ∧ q.error = false ∧ q.mgmt = none ∧
        q.flight = [f] ∧ f.acked = false ∧ q.retries < 7) ∧
    (∃ (s : State) (n : Fin 65536) (q : Qp) (f : _), s.ingressOpen = true ∧ q = s.qp n ∧ q.connected = true ∧ q.error = false ∧ q.mgmt = none ∧
        q.flight = [f] ∧ f.acked = false ∧ 7 ≤ q.retries) ∧
    (∃ (s : State) (n : Fin 65536) (q : Qp) (c : Fin 64) (w : _) (ws : _), q = s.qp n ∧ q.mgmt = some c ∧ s.ingressOpen = true ∧
        q.connected = true ∧ q.error = false ∧ q.peerRnr = true ∧ (s.chan c).waiting = w :: ws) ∧
    (∃ (s : State) (n : Fin 65536) (q : Qp) (c : Fin 64), q = s.qp n ∧ q.mgmt = some c ∧ s.ingressOpen = true ∧ q.connected = true ∧
        q.error = false ∧ q.peerRnr = true ∧ (s.chan c).waiting = []) ∧
    (∃ (s : State) (n : Fin 65536) (q : Qp) (c : Fin 64), q = s.qp n ∧ q.mgmt = some c ∧ q.peerRnr = false) ∧
    (∃ (s : State) (n : Fin 65536) (q : Qp), s.ingressOpen = true ∧ q = s.qp n ∧ q.connected = true ∧ q.error = false ∧ q.spray = true ∧
        q.hole = true) ∧
    (∃ (s : State) (n : Fin 65536) (q : Qp), s.ingressOpen = true ∧ q = s.qp n ∧ q.connected = true ∧ q.error = false ∧ q.hole = false) ∧
    (∃ (s : State) (u : State) (n : Fin 65536) (q : Qp), s.ingressOpen = true ∧ q = s.qp n ∧ q.connected = true ∧
        u = s.bump Reg.RDM_CNP_CNT 0 31 16 ∧ s.bit Reg.RDM_CTRL 0 3 = false) ∧
    (∃ (s : State) (u : State) (n : Fin 65536) (q : Qp), s.ingressOpen = true ∧ q = s.qp n ∧ q.connected = true ∧
        u = s.bump Reg.RDM_CNP_CNT 0 31 16 ∧ s.bit Reg.RDM_CTRL 0 3 = true ∧ q.decAt = none) ∧
    (∃ (s : State) (u : State) (n : Fin 65536) (q : Qp) (t : _), s.ingressOpen = true ∧ q = s.qp n ∧ q.connected = true ∧
        u = s.bump Reg.RDM_CNP_CNT 0 31 16 ∧ s.bit Reg.RDM_CTRL 0 3 = true ∧ q.decAt = some t ∧ s.usSince t < s.fld Reg.RDM_CC_DEC 0 15 8) ∧
    (∃ (s : State) (n : Fin 65536) (q : Qp), s.psq.mainUp = true ∧ q = s.qp n ∧ q.connected = true ∧ s.bit Reg.RDM_CTRL 0 3 = true) ∧
    (∃ (s : State) (n : Fin 65536) (q : Qp), s.psq.mainUp = true ∧ q = s.qp n ∧ q.connected = true ∧ s.bit Reg.RDM_CTRL 0 3 = false) :=
  ⟨⟨live, 65535, by decide +kernel⟩,
    ⟨{ live with rdma.qps := [(0, { connected := true, mgmt := some 0 })] }, _, 0, _, 0, by decide +kernel, rfl, by decide +kernel,
        by decide +kernel, by decide +kernel, rfl⟩,
    ⟨live, _, 0, 0#24, _, by decide +kernel, rfl, by decide +kernel, by decide +kernel, by decide +kernel, rfl⟩,
    ⟨{ live with rdma.qps := [(0, { connected := true, flight := [{ wqe := wqe 0, psn := 0, last := 0 }] })] }, 0, 0#24, _,
        { wqe := wqe 0, psn := 0, last := 0 }, _, by decide +kernel, rfl, five_and (by decide +kernel) ⟨by decide +kernel, by decide +kernel, by decide +kernel, rfl⟩⟩,
    ⟨{ live with rdma.qps := [(0, { connected := true, flight := [{ wqe := wqe 2, psn := 0, last := 0 }] })] }, 0, 0#24, 0, [], _,
        { wqe := wqe 2, psn := 0, last := 0 }, by decide +kernel, rfl, by decide +kernel⟩,
    ⟨{ live with rdma.qps := [(0, { connected := true, flight := [{ wqe := wqe 2, psn := 0, last := 0 }] })], rdma.pds := [(0, some {})], rdma.wins := [(0, some { region := 1, len := 4096, rights := 31 })] },
        0, 0#24, 0, [1], _, { wqe := wqe 2, psn := 0, last := 0 }, 1, 0, _, by decide +kernel, rfl, five_and (by decide +kernel) ⟨by decide +kernel, rfl⟩⟩,
    ⟨{ live with rdma.qps := [(0, { connected := true, mgmt := some 0, retries := 6 })], chans := [(0, { who := .shelf, waiting := [[0]] })] }, 0,
        _, 0, _, _, by decide +kernel, rfl, by decide +kernel, by decide +kernel, by decide +kernel, rfl, by decide +kernel⟩,
    ⟨{ live with rdma.qps := [(0, { connected := true, mgmt := some 0, retries := 7 })], chans := [(0, { who := .shelf, waiting := [[0]] })] }, 0,
        _, 0, _, _, by decide +kernel, rfl, by decide +kernel, by decide +kernel, by decide +kernel, rfl, by decide +kernel⟩,
    ⟨live, 0, _, by decide +kernel, rfl, by decide +kernel⟩,
    ⟨{ live with rdma.qps := [(0, { connected := true, retries := 6, flight := [{ wqe := wqe 0, psn := 0, last := 0 }] })] }, 0, _,
        { wqe := wqe 0, psn := 0, last := 0 }, by decide +kernel, rfl, by decide +kernel⟩,
    ⟨{ live with rdma.qps := [(0, { connected := true, retries := 7, flight := [{ wqe := wqe 0, psn := 0, last := 0 }] })] }, 0, _,
        { wqe := wqe 0, psn := 0, last := 0 }, by decide +kernel, rfl, by decide +kernel⟩,
    ⟨{ live with rdma.qps := [(0, { connected := true, mgmt := some 0, peerRnr := true })], chans := [(0, { who := .shelf, waiting := [[0]] })] },
        0, _, 0, _, _, rfl, by decide +kernel, by decide +kernel, by decide +kernel, by decide +kernel, by decide +kernel, rfl⟩,
    ⟨{ live with rdma.qps := [(0, { connected := true, mgmt := some 0, peerRnr := true })] }, 0, _, 0, rfl, by decide +kernel⟩,
    ⟨{ live with rdma.qps := [(0, { connected := true, mgmt := some 0 })] }, 0, _, 0, rfl, by decide +kernel⟩,
    ⟨{ live with rdma.qps := [(0, { connected := true, spray := true, hole := true })] }, 0, _, by decide +kernel, rfl, by decide +kernel⟩,
    ⟨live, 0, _, by decide +kernel, rfl, by decide +kernel⟩,
    ⟨live.setBit Reg.RDM_CTRL 0 3 false, _, 0, _, by decide +kernel, rfl, by decide +kernel, rfl, by decide +kernel⟩,
    ⟨{ live.setBit Reg.RDM_CTRL 0 3 true with rdma.qps := [(0, { connected := true })] }, _, 0, _, by decide +kernel, rfl, by decide +kernel, rfl,
        by decide +kernel⟩,
    ⟨{ live.setBit Reg.RDM_CTRL 0 3 true with rdma.qps := [(0, { connected := true, decAt := some 0 })] }, _, 0, _, 0#64, by decide +kernel, rfl,
        by decide +kernel, rfl, by decide +kernel⟩,
    ⟨{ live.setBit Reg.RDM_CTRL 0 3 true with rdma.qps := [(0, { connected := true })] }, 0, _, by decide +kernel, rfl, by decide +kernel⟩,
    ⟨live.setBit Reg.RDM_CTRL 0 3 false, 0, _, by decide +kernel, rfl, by decide +kernel⟩⟩

/-- The hypotheses of `Obligations.EthernetEvents` can be met, clause by clause. -/
theorem test_witness_EthernetEvents :
    (∃ (s : State), s.bit Reg.RDM_CTRL 0 0 = false) ∧
    (∃ (s : State) (w : State) (m : Fin 32) (g : Fin 16), s.macTakes m = true ∧ s.flash.cores = .running ∧ w = s.wakeIdle ∧
        Tab.get none (w.mac m).gids g = none) ∧
    (∃ (s : State) (m : Fin 32), s.macTakes m = true ∧ s.flash.cores = .restarting) ∧
    (∃ (s : State) (m : Fin 32), (s.mac m).up = false) ∧
    (∃ (s : State) (m : Fin 32), s.ingressOpen = true ∧ s.macThere m = true ∧ s.eportOn (m / 4) = true ∧ (s.mac m).up = true ∧
        s.bit Reg.ETH_MACSEC_CTRL 0 (8 + m / 4) = true ∧ (s.mac m).sa = false) ∧
    (∃ (s : State) (m : Fin 32), s.macThere m = false) ∧
    (∃ (s : State) (w : State) (r : CmReq), s.bit Reg.RDM_CTRL 0 0 = true ∧ s.macTakes r.mac = true ∧ s.flash.cores = .running ∧ w = s.wakeIdle ∧
        w.domainReady = false) ∧
    (∃ (s : State) (w : State) (r : CmReq), s.bit Reg.RDM_CTRL 0 0 = true ∧ s.macTakes r.mac = true ∧ s.flash.cores = .running ∧ w = s.wakeIdle ∧
        w.domainReady = true ∧ r.format ≠ 1) ∧
    (∃ (s : State) (w : State) (r : CmReq) (n : _) (pd : _), s.bit Reg.RDM_CTRL 0 0 = true ∧ s.macTakes r.mac = true ∧ s.flash.cores = .running ∧
        w = s.wakeIdle ∧ w.domainReady = true ∧ r.format = 1 ∧ r.service = 0 ∧ r.placement = 0 ∧ r.pdOrChan.toNat < 4096 ∧
        Tab.get none w.rdma.pds r.pdOrChan.toNat = some pd ∧ pd.token = r.token ∧ w.freeQp = some n) ∧
    (∃ (s : State) (w : State) (m : Fin 32) (g : Fin 16) (x : BitVec 128) (v : Option (BitVec 12)), s.macTakes m = true ∧ s.flash.cores = .running ∧
        w = s.wakeIdle ∧ Tab.get none (w.mac m).gids g = some (x, v) ∧ x >>> 32 = 0xFFFF#128) ∧
    (∃ (s : State) (w : State) (m : Fin 32) (g : Fin 16) (x : BitVec 128) (v : Option (BitVec 12)), s.macTakes m = true ∧ s.flash.cores = .running ∧
        w = s.wakeIdle ∧ Tab.get none (w.mac m).gids g = some (x, v) ∧ x >>> 32 ≠ 0xFFFF#128) ∧
    (∃ (s : State) (w : State) (m : Fin 32) (sc : Fin 64), s.ingressOpen = true ∧ s.macThere m = true ∧ s.eportOn (m / 4) = true ∧
        (s.mac m).up = true ∧ s.flash.cores = .running ∧ w = s.wakeIdle ∧ w.bit Reg.ETH_MACSEC_CTRL 0 (m / 4) = true ∧
        Tab.get none w.rdma.caks (m / 4 * 64 + sc) ≠ none) ∧
    (∃ (s : State) (w : State) (m : Fin 32), s.ingressOpen = true ∧ s.macThere m = true ∧ s.eportOn (m / 4) = true ∧ (s.mac m).up = true ∧
        s.flash.cores = .running ∧ w = s.wakeIdle ∧ w.bit Reg.ETH_MACSEC_CTRL 0 (m / 4) = false) ∧
    (∃ (s : State) (p : Fin 8) (prio : Fin 8), s.eportOn p = true ∧ s.bit Reg.ETH_PFC 0 p = true ∧ s.fld Reg.ETH_PFC 0 10 8 = prio.val) ∧
    (∃ (s : State) (p : Fin 8) (prio : Fin 8), (s.bit Reg.ETH_PFC 0 p = false ∨ s.fld Reg.ETH_PFC 0 10 8 ≠ prio.val)) ∧
    (∃ (s : State) (u : State) (p : Fin 8) (free : Fin 4097), s.eportOn p = true ∧ (u = s.setEport p { s.eport p with free := free.val }) ∧
        s.bit Reg.ETH_PFC 0 p = true ∧ (s.eport p).sending = false ∧ free.val < s.fld Reg.ETH_PFC 0 31 16) ∧
    (∃ (s : State) (u : State) (p : Fin 8) (free : Fin 4097), s.eportOn p = true ∧ (u = s.setEport p { s.eport p with free := free.val }) ∧
        (s.eport p).sending = true ∧ 2 * s.fld Reg.ETH_PFC 0 31 16 < free.val) ∧
    (∃ (s : State) (u : State) (p : Fin 8) (free : Fin 4097), s.eportOn p = true ∧ (u = s.setEport p { s.eport p with free := free.val }) ∧
        (s.eport p).sending = false ∧ s.fld Reg.ETH_PFC 0 31 16 ≤ free.val) ∧
    (∃ (s : State) (m : Fin 32), s.eportOn (m / 4) = true ∧ s.macThere m = true ∧
        ((s.eport (m / 4)).paused = true ∨ (s.eport (m / 4)).sending = true)) ∧
    (∃ (s : State) (m : Fin 32), s.eportOn (m / 4) = true ∧ s.macThere m = true ∧ (s.eport (m / 4)).paused = false ∧
        (s.eport (m / 4)).sending = false) ∧
    (∃ (s : State) (m : Fin 32), s.eportOn (m / 4) = true ∧ s.macThere m = true ∧ (s.mac m).up = true ∧ s.bit Reg.ETH_MACSEC_CTRL 0 (m / 4) = true) ∧
    (∃ (s : State) (m : Fin 32), s.eportOn (m / 4) = true ∧ s.macThere m = true ∧ s.psq.mainUp = true ∧ (s.eport (m / 4)).mode = 0) ∧
    (∃ (s : State) (m : Fin 32), s.eportOn (m / 4) = true ∧ s.macThere m = true ∧ s.psq.mainUp = true ∧ (s.eport (m / 4)).mode = 1) :=
  ⟨⟨live.setBit Reg.RDM_CTRL 0 0 false, by decide +kernel⟩,
    ⟨live, _, 0, 0, by decide +kernel, by decide +kernel, rfl, by decide +kernel⟩,
    ⟨{ live with flash.cores := .restarting }, 0, by decide +kernel⟩,
    ⟨live, 31, by decide +kernel⟩,
    ⟨live.setBit Reg.ETH_MACSEC_CTRL 0 8 true, 0, by decide +kernel⟩,
    ⟨live, 31, by decide +kernel⟩,
    ⟨{ live with bench.domain := .closed }, _, { mac := 0, gid := 0, pdOrChan := 0, token := 0 }, by decide +kernel, by decide +kernel,
        by decide +kernel, rfl, by decide +kernel⟩,
    ⟨live, _, { mac := 0, gid := 0, pdOrChan := 0, token := 0, format := 2 }, by decide +kernel, by decide +kernel, by decide +kernel, rfl,
        by decide +kernel⟩,
    ⟨{ live with rdma.pds := [(0, some {})] }, _, { mac := 0, gid := 0, pdOrChan := 0, token := 0 }, 1, {}, by decide +kernel, by decide +kernel,
        by decide +kernel, rfl, by decide +kernel⟩,
    ⟨{ live with rdma.macs := [(0, { up := true, gids := [(15, some (0xFFFF00000000, none))] })] }, _, 0, 15, 0xFFFF00000000, none,
        by decide +kernel, by decide +kernel, rfl, by decide +kernel⟩,
    ⟨{ live with rdma.macs := [(0, { up := true, gids := [(15, some (1, none))] })] }, _, 0, 15, 1, none, by decide +kernel, by decide +kernel, rfl,
        by decide +kernel⟩,
    ⟨{ live.setBit Reg.ETH_MACSEC_CTRL 0 0 true with rdma.caks := [(63, some 1)] }, _, 0, 63, by decide +kernel, by decide +kernel,
        by decide +kernel, by decide +kernel, by decide +kernel, rfl, by decide +kernel⟩,
    ⟨live.setBit Reg.ETH_MACSEC_CTRL 0 0 false, _, 0, by decide +kernel, by decide +kernel, by decide +kernel, by decide +kernel, by decide +kernel,
        rfl, by decide +kernel⟩,
    ⟨live.setReg Reg.ETH_PFC 0 0x701#32, 0, 7, by decide +kernel⟩,
    ⟨live.setReg Reg.ETH_PFC 0 0, 0, 7, by decide +kernel⟩,
    ⟨live.setReg Reg.ETH_PFC 0 0x10000001#32, _, 0, 4095, by decide +kernel, rfl, by decide +kernel⟩,
    ⟨{ live.setReg Reg.ETH_PFC 0 0x07FF0001#32 with rdma.ports := [(0, { sending := true })] }, _, 0, 4096, by decide +kernel, rfl,
        by decide +kernel⟩,
    ⟨live.setReg Reg.ETH_PFC 0 0x10000001#32, _, 0, 4096, by decide +kernel, rfl, by decide +kernel⟩,
    ⟨{ live with rdma.ports := [(0, { paused := true })] }, 0, by decide +kernel⟩,
    ⟨live, 0, by decide +kernel⟩,
    ⟨live.setBit Reg.ETH_MACSEC_CTRL 0 0 true, 0, by decide +kernel⟩,
    ⟨live, 0, by decide +kernel⟩,
    ⟨{ live with rdma.ports := [(0, { mode := 1 })] }, 0, by decide +kernel⟩⟩

/-- The hypotheses of `Obligations.CommandFrames` can be met, clause by clause. -/
theorem test_witness_CommandFrames :
    ∃ (i : Instr) (s : State) (t : State), exec i s = .next t :=
  ⟨.stage1, { live with wdg.stage := .stage1 }, _, rfl⟩

/-- The hypotheses of `Obligations.OtpIsOneWay` can be met, clause by clause. -/
theorem test_witness_OtpIsOneWay :
    ∃ (s : State) (t : State), step s = .next t ∧ s.life = .ended :=
  ⟨{ live with sec.groups := BitVec.allOnes 80, wdg.stage := .stage1, pending := [.stage1] }, _, rfl, by decide +kernel⟩

/-- The hypotheses of `Obligations.WearCode` can be met, clause by clause. -/
theorem test_witness_WearCode :
    (∃ (c : BitVec 16), bitsOf (c.setWidth 32) 15 11 = 0) ∧
    (∃ (c : BitVec 16), 1 ≤ bitsOf (c.setWidth 32) 15 11) ∧
    (∃ (c : BitVec 16) (d : BitVec 16), d.toNat = c.toNat + 1 ∧ 2048 ≤ wearN c) :=
  ⟨⟨0x07FF#16, by decide +kernel⟩,
    ⟨0x0800#16, by decide +kernel⟩,
    ⟨0xFFFE#16, 0xFFFF#16, by decide +kernel⟩⟩

/-- The hypotheses of `Obligations.LifeCycleCode` can be met, clause by clause. -/
theorem test_witness_LifeCycleCode :
    (∃ (g : BitVec 80) (n : Fin 6), (∀ k : Fin 5, (g >>> (16 * k.val)).setWidth 16 ≠ 0#16 ↔ k.val < n.val)) ∧
    (∃ (g : BitVec 80) (j : Fin 5) (k : Fin 5), j < k ∧ (g >>> (16 * j.val)).setWidth 16 = 0#16 ∧ (g >>> (16 * k.val)).setWidth 16 ≠ 0#16) ∧
    (∃ (s : State) (k : Fin 5), (s.sec.groups >>> (16 * k.val)).setWidth 16 ≠ 0#16) ∧
    (∃ (s : State) (k : Fin 5), (s.sec.groups >>> (16 * k.val)).setWidth 16 = 0#16) :=
  ⟨⟨0xFFFF#80, 1, by decide +kernel⟩,
    ⟨0xFFFF0000#80, 0, 1, by decide +kernel⟩,
    ⟨{ live with sec.groups := 0x00010000000000000000#80 }, 4, by decide +kernel⟩,
    ⟨live, 0, by decide +kernel⟩⟩

/-- The hypotheses of `Obligations.BusErrorCapture` can be met, clause by clause. -/
theorem test_witness_BusErrorCapture :
    (∃ (s : State) (t : State) (req : Requester) (addr : Nat) (write : Bool) (c : BusCause) (b : Nat), s.psq.mainUp = true ∧
        s.evt.raw.getLsbD 427 = false ∧ t = s.busError req addr write c ∧ s.bit Reg.TOP_BUSERR_INFO 0 31 = true ∧ b ≠ 30 ∧ b < 32) ∧
    (∃ (s : State) (t : State) (req : Requester) (addr : Nat) (write : Bool) (c : BusCause), s.psq.mainUp = true ∧ s.evt.raw.getLsbD 427 = false ∧
        t = s.busError req addr write c ∧ s.bit Reg.TOP_BUSERR_INFO 0 31 = false ∧ addr < 2 ^ 24) :=
  ⟨⟨live.setBit Reg.TOP_BUSERR_INFO 0 31 true, _, .core 0, 0, true, .badSize, 31, by decide +kernel, by decide +kernel, rfl, by decide +kernel⟩,
    ⟨live, _, .core 0, 0xFFFFFF, true, .badSize, by decide +kernel, by decide +kernel, rfl, by decide +kernel⟩⟩

/-- The hypotheses of `Obligations.CaptureNeedsARise` can be met, clause by clause. -/
theorem test_witness_CaptureNeedsARise :
    (∃ (s : State) (n : Nat), s.evt.raw.getLsbD n = true) ∧
    (∃ (s : State) (n : Nat), s.evt.raw.getLsbD n = true) ∧
    (∃ (s : State) (n : Nat), n < 512 ∧ s.psq.mainUp = true ∧ s.evt.raw.getLsbD n = false) ∧
    (∃ (k : Nat) (n : Nat), k < 16 ∧ n < 512) :=
  ⟨⟨{ live with evt.raw := BitVec.allOnes 512 }, 511, by decide +kernel⟩,
    ⟨{ live with evt.raw := BitVec.allOnes 512 }, 511, by decide +kernel⟩,
    ⟨live, 511, by decide +kernel⟩,
    ⟨15, 511, by decide +kernel⟩⟩

/-- The hypotheses of `Obligations.NvTwinCopies` can be met, clause by clause. -/
theorem test_witness_NvTwinCopies :
    (∃ (s : State) (key : Nat) (r : NvRecord), r = Tab.get ({} : NvRecord) s.nv.records key ∧ r.a.ok = false ∧ r.b.ok = false) ∧
    (∃ (s : State) (key : Nat) (k : Nat), (∀ b c, (Tab.get ({} : NvRecord) s.nv.records key).choose.1 = some (b, c) → c.seq < 0xFFFFFFFF) ∧ k ≠ key) ∧
    (∃ (s : State) (key : Nat) (p : List Nat) (r : NvRecord) (r' : NvRecord) (b : Bool) (c : NvCopy), (∀ b c,
        (Tab.get ({} : NvRecord) s.nv.records key).choose.1 = some (b, c) → c.seq < 0xFFFFFFFF) ∧ r = Tab.get ({} : NvRecord) s.nv.records key ∧
        r' = Tab.get ({} : NvRecord) (s.nvWrite key p).nv.records key ∧ r.choose.1 = some (b, c)) ∧
    (∃ (s : State) (key : Nat) (r : NvRecord), r = Tab.get ({} : NvRecord) s.nv.records key ∧ r.a.ok = true ∧ r.b.ok = true ∧ r.b.seq < r.a.seq) ∧
    (∃ (s : State) (key : Nat) (r : NvRecord), r = Tab.get ({} : NvRecord) s.nv.records key ∧ r.a.ok = true ∧ r.b.ok = true ∧ r.a.seq < r.b.seq) ∧
    (∃ (s : State) (key : Nat) (r : NvRecord), r = Tab.get ({} : NvRecord) s.nv.records key ∧ r.a.ok = true ∧ r.b.ok = true ∧ r.a.seq = r.b.seq ∧
        r.a.payload = r.b.payload) ∧
    (∃ (s : State) (key : Nat) (r : NvRecord), r = Tab.get ({} : NvRecord) s.nv.records key ∧ r.a.ok = true ∧ r.b.ok = true ∧ r.a.seq = r.b.seq ∧
        r.a.payload ≠ r.b.payload ∧ r.b.stamp < r.a.stamp) ∧
    (∃ (s : State) (key : Nat) (r : NvRecord), r = Tab.get ({} : NvRecord) s.nv.records key ∧ r.a.ok = true ∧ r.b.ok = true ∧ r.a.seq = r.b.seq ∧
        r.a.payload ≠ r.b.payload ∧ r.a.stamp < r.b.stamp) ∧
    (∃ (s : State) (key : Nat) (r : NvRecord), r = Tab.get ({} : NvRecord) s.nv.records key ∧ r.a.ok = true ∧ r.b.ok = true ∧ r.a.seq = r.b.seq ∧
        r.a.payload ≠ r.b.payload ∧ r.a.stamp = r.b.stamp) :=
  ⟨⟨live, 0, _, rfl, by decide +kernel⟩,
    ⟨live, 0, 1, (fun b c h => nomatch h), by decide +kernel⟩,
    ⟨{ live with nv.records := [(0, { a := { valid := true, seq := 1 } })] }, 0, [], _, _, _, _, by intro b c h; cases h; decide, rfl, rfl, rfl⟩,
    ⟨{ live with nv.records := [(0, { a := { valid := true, seq := 2 }, b := { valid := true, seq := 1 } })] }, 0, _, rfl, by decide +kernel⟩,
    ⟨{ live with nv.records := [(0, { a := { valid := true, seq := 1 }, b := { valid := true, seq := 2 } })] }, 0, _, rfl, by decide +kernel⟩,
    ⟨{ live with nv.records := [(0, { a := { valid := true, seq := 1 }, b := { valid := true, seq := 1 } })] }, 0, _, rfl, by decide +kernel⟩,
    ⟨{ live with nv.records := [(0, { a := { valid := true, seq := 1, payload := [1], stamp := 1 }, b := { valid := true, seq := 1 } })] }, 0, _,
        rfl, by decide +kernel⟩,
    ⟨{ live with nv.records := [(0, { a := { valid := true, seq := 1, payload := [1] }, b := { valid := true, seq := 1, stamp := 1 } })] }, 0, _,
        rfl, by decide +kernel⟩,
    ⟨{ live with nv.records := [(0, { a := { valid := true, seq := 1, payload := [1] }, b := { valid := true, seq := 1 } })] }, 0, _, rfl,
        by decide +kernel⟩⟩

/-- The hypotheses of `Obligations.UnlockHold` can be met, clause by clause. -/
theorem test_witness_UnlockHold :
    (∃ (s : State) (r : Nat) (k : KeySlot) (v : KeySlot) (tries : Nat), k = s.keySlot r ∧ tries = s.fld Reg.SEC_CTRL 0 3 0 ∧
        v = (s.unlockFail r).keySlot r ∧ k.fails + 1 < tries) ∧
    (∃ (s : State) (r : Nat) (k : KeySlot) (v : KeySlot) (tries : Nat), k = s.keySlot r ∧ tries = s.fld Reg.SEC_CTRL 0 3 0 ∧
        v = (s.unlockFail r).keySlot r ∧ k.fails + 1 = tries) ∧
    (∃ (s : State) (r : Nat) (k : KeySlot) (v : KeySlot) (tries : Nat), k = s.keySlot r ∧ tries = s.fld Reg.SEC_CTRL 0 3 0 ∧
        v = (s.unlockFail r).keySlot r ∧ tries ≤ k.fails + 1) ∧
    (∃ (s : State) (r : Nat) (k : KeySlot) (v : KeySlot) (tries : Nat) (q : Nat), k = s.keySlot r ∧ tries = s.fld Reg.SEC_CTRL 0 3 0 ∧
        v = (s.unlockFail r).keySlot r ∧ q ≠ r) :=
  ⟨⟨live, 0, _, _, _, rfl, rfl, rfl, by decide +kernel⟩,
    ⟨{ live with sec.slots := [(1, { fails := 7 })] }, 1, _, _, _, rfl, rfl, rfl, rfl⟩,
    ⟨{ live with sec.slots := [(1, { fails := 65535 })] }, 1, _, _, _, rfl, rfl, rfl, by decide +kernel⟩,
    ⟨live, 0, _, _, _, 1, rfl, rfl, rfl, by decide +kernel⟩⟩

/-- The hypotheses of `Obligations.SlotAdvance` can be met, clause by clause. -/
theorem test_witness_SlotAdvance :
    (∃ (v : Slot) (now : Dword), v.time ≤ now ∧ v.period = 0) ∧
    (∃ (v : Slot) (now : Dword), v.time ≤ now ∧ v.period ≠ 0 ∧ now.toNat + v.period.toNat * 65536 < 2 ^ 64) :=
  ⟨⟨{}, 0#64, by decide +kernel⟩,
    ⟨{ period := 1 }, 18446744073709486079#64, by decide +kernel⟩⟩

/-- The hypotheses of `Obligations.PacketCrc` can be met, clause by clause. -/
theorem test_witness_PacketCrc :
    (∃ (w0 : Word) (w1 : Word) (w2 : Word) (w3 : Word) (ps : List Word), ps.length ≤ 60 ∧ bitsOf w0 7 0 = ps.length ∧
        w3 = (packetCrc w0 w1 w2 ps).setWidth 32) ∧
    (∃ (w0 : Word) (w1 : Word) (w2 : Word) (w3 : Word) (ps : List Word), ps.length ≤ 60 ∧ bitsOf w0 7 0 = ps.length ∧
        w3 ≠ (packetCrc w0 w1 w2 ps).setWidth 32) :=
  ⟨⟨0x3C#32, 0, 0, _, List.replicate 60 0, by decide +kernel, by decide +kernel, rfl⟩,
    ⟨0, 0, 0, 0xFFFFFFFF#32, [], by decide +kernel⟩⟩

/-- The hypotheses of `Obligations.ReplyLayout` can be met, clause by clause. -/
theorem test_witness_ReplyLayout :
    (∃ (res : List Word), res.length ≤ 62) ∧
    (∃ (src : Nat), src < 512) :=
  ⟨⟨List.replicate 62 0, by decide +kernel⟩,
    ⟨511, by decide +kernel⟩⟩

/-- The hypotheses of `Obligations.YarrowMoves` can be met, clause by clause. -/
theorem test_witness_YarrowMoves :
    (∃ (s : State) (n : Nat) (p : Phys) (q : Phys), s.psq.mainUp = true ∧ { lsett := n, kind := .remap } ∈ s.med.yarrow.queue ∧
        (s.sett n).phys = some p ∧ s.dieUp p.die = true ∧ (s.sett n).mig = .idle ∧ s.move n = none ∧ s.jFull = false ∧ s.chunkLoaded n = true ∧
        (s.chanSlot (State.dieChan p.die) (s.sett n).mode (fun _ _ => true) (fun _ => false) = some q)) ∧
    (∃ (s : State) (n : Nat) (m : Move) (p : Phys) (q : Phys), s.medUp = true ∧ s.jFull = false ∧ s.move n = some m ∧
        m.verified = BitVec.allOnes 256 ∧ m.dest = some q ∧ (s.sett n).phys = some p ∧ m.kind ≠ .remap ∧ m.kind ≠ .resync ∧ (∀ b,
        m.kind ≠ .rebuild b) ∧ { lsett := n, kind := .remap } ∉ s.med.yarrow.queue) ∧
    (∃ (s : State) (n : Nat) (p : Phys), s.medUp = true ∧ s.psq.mainUp = true ∧ s.med.yarrow.queue = [{ lsett := n, kind := .refresh }] ∧
        s.med.rebuild = [] ∧ (s.sett n).phys = some p ∧ s.dieUp p.die = true ∧ (s.sett n).mig = .idle ∧ s.move n = none ∧ s.jFull = false ∧
        s.chunkLoaded n = true ∧ s.wornBeyond p.die (s.sett n).wear = false) ∧
    (∃ (s : State) (n : Nat) (p : Phys) (q : Phys), s.medUp = true ∧ s.med.yarrow.queue = [{ lsett := n, kind := .onset q }] ∧ s.med.rebuild = [] ∧
        (s.sett n).phys = some p ∧ p ≠ q) ∧
    (∃ (s : State) (n : Fin 144) (d : Nat) (k : Nat) (z : Nat) (i : Nat) (w : BitVec 16) (p : Phys), s.psq.mainUp = true ∧
        (((s.chanDies n).filter fun d => s.dieUp d) = [d]) ∧ s.dieSetts d = [(k, s.sett k)] ∧ (s.sett k).phys = some p ∧
        s.wornBeyond d (s.sett k).wear = true ∧ (s.dieSlot d (s.sett k).mode (fun _ => true) = some (z, i, w)) ∧ s.move k = none ∧
        (∀ x ∈ s.med.yarrow.queue, x.lsett ≠ k) ∧ s.mostWornFree d = none ∧ 4 ≤ s.fld Reg.YRW_CFG 0 23 16) ∧
    (∃ (s : State) (n : Fin 144) (d : Nat), s.psq.mainUp = true ∧ (((s.chanDies n).filter fun d => s.dieUp d) = [d]) ∧ (∀ q ∈ s.dieSetts d,
        s.wornBeyond d q.2.wear = false) ∧ (∀ x, s.mostWornFree d = some x → s.wornBeyond d x.2.1 = false) ∧ 4 ≤ s.fld Reg.YRW_CFG 0 23 16) ∧
    (∃ (s : State), s.psq.mainUp = true ∧ (∀ p ∈ s.med.zones, (s.zone (p.1 / 64) (p.1 % 64)).state ≠ .pinned)) ∧
    (∃ (s : State) (d : Nat) (z : Nat) (v : Zone), s.psq.mainUp = true ∧ z < 64 ∧ s.med.zones = [(d * 64 + z, v)] ∧ v.state = .pinned ∧
        (slotCap v.mode ≤ 4 * (v.slots.filter fun q => q.2.spoil).length) ∧ ((v.slots.any fun q => q.2.alloc && !q.2.reserved) = false)) ∧
    (∃ (s : State) (n : Nat) (p : Phys) (g : Young), s.psq.mainUp = true ∧ s.youngOf n = [g] ∧ (s.sett n).phys = some p ∧
        withinSpan (s.sett n).mode (256 * s.age p.die (s.bandStamps (s.sett n)).1) (s.youngAge p.die g.tLast) = true) ∧
    (∃ (s : State) (n : Nat) (p : Phys) (g : Young), s.psq.mainUp = true ∧ s.youngOf n = [g] ∧ (s.sett n).phys = some p ∧
        withinSpan (s.sett n).mode (256 * s.age p.die (s.bandStamps (s.sett n)).1) (s.youngAge p.die g.tLast) = false) ∧
    (∃ (s : State) (g : Nat), s.psq.mainUp = true ∧ g < 9 ∧ s.bit Reg.TSL_CTRL 0 0 = true ∧ (s.qg g).inService = true ∧ (s.pass g).running = false ∧
        (∀ h < 9, h ≠ g → (s.qg h).inService = false ∨ (s.pass h).running = true)) ∧
    (∃ (s : State), s.psq.mainUp = true ∧ s.bit Reg.TSL_CTRL 0 0 = false) :=
  ⟨⟨{ live with med.zones := [(0, { state := .opened, mode := .m4, slots := [(0, { alloc := true })] })], med.setts := [(0, { phys := some { die := 0, zone := 0, slot := 0 }, mode := .m4 })], med.yarrow.queue := [{ lsett := 0, kind := .remap }] },
        0, { die := 0, zone := 0, slot := 0 }, { die := 0, zone := 0, slot := 1 }, by decide +kernel⟩,
    ⟨{ live with med.zones := [(0, { state := .opened, mode := .m4, slots := [(0, { alloc := true })] })], med.setts := [(0, { phys := some { die := 0, zone := 0, slot := 0 }, mode := .m4 })], med.yarrow.moves := [{ lsett := 0, kind := .onset { die := 0, zone := 0, slot := 0 }, dest := some { die := 0, zone := 0, slot := 1 }, mode := .m4, verified := BitVec.allOnes 256 }] },
        0, { lsett := 0, kind := .onset { die := 0, zone := 0, slot := 0 }, dest := some { die := 0, zone := 0, slot := 1 }, mode := .m4, verified := BitVec.allOnes 256 },
        { die := 0, zone := 0, slot := 0 }, { die := 0, zone := 0, slot := 1 }, five_and (by decide +kernel) ⟨by decide +kernel, by decide +kernel, by decide +kernel, nofun, by decide +kernel⟩⟩,
    ⟨{ live with med.zones := [(0, { state := .opened, mode := .m4, slots := [(0, { alloc := true })] })], med.setts := [(0, { phys := some { die := 0, zone := 0, slot := 0 }, mode := .m4 })], med.yarrow.queue := [{ lsett := 0, kind := .refresh }] },
        0, { die := 0, zone := 0, slot := 0 }, by decide +kernel⟩,
    ⟨{ live with med.setts := [(0, { phys := some { die := 0, zone := 0, slot := 0 }, mode := .m4 })], med.yarrow.queue := [{ lsett := 0, kind := .onset { die := 0, zone := 0, slot := 1 } }] },
        0, { die := 0, zone := 0, slot := 0 }, { die := 0, zone := 0, slot := 1 }, by decide +kernel⟩,
    ⟨{ live with med.zones := [(0, { state := .opened, mode := .m4, slots := [(0, { alloc := true })] })], med.setts := [(0, { phys := some { die := 0, zone := 0, slot := 0 }, mode := .m4, wear := 0x4000 })] },
        0, 0, 0, 0, 1, 0, { die := 0, zone := 0, slot := 0 }, by decide +kernel⟩,
    ⟨live, 0, 0, by decide +kernel, by decide +kernel, by decide +kernel, nofun, by decide +kernel⟩,
    ⟨live, by decide +kernel⟩,
    ⟨{ live with med.zones := [(63, { state := .pinned })] }, 0, 63, { state := .pinned }, by decide +kernel⟩,
    ⟨{ live with med.setts := [(0, { phys := some { die := 0, zone := 0, slot := 0 }, mode := .m4 })], med.young := [(0, [{ lines := 1, tFirst := 0, tLast := 0 }])] },
        0, { die := 0, zone := 0, slot := 0 }, { lines := 1, tFirst := 0, tLast := 0 }, by decide +kernel⟩,
    ⟨{ live with med.setts := [(0, { phys := some { die := 0, zone := 0, slot := 0 }, mode := .m4 })], med.young := [(0, [{ lines := 1, tFirst := 0xFFFFFFFF00, tLast := 0xFFFFFFFF00 }])], tally.now := 0xFFFFFFFF0000 },
        0, { die := 0, zone := 0, slot := 0 }, { lines := 1, tFirst := 0xFFFFFFFF00, tLast := 0xFFFFFFFF00 }, by decide +kernel⟩,
    ⟨live, 0, by decide +kernel⟩,
    ⟨live.setBit Reg.TSL_CTRL 0 0 false, by decide +kernel⟩⟩

/-- The hypotheses of `Obligations.RdmaWriteLands` can be met, clause by clause. -/
theorem test_witness_RdmaWriteLands :
    (∃ (s : State) (w : State) (x : State) (u : State) (v : State) (n : Fin 65536) (k : WritePkt) (r : Nat) (off : Nat) (q : Qp) (ws : List HostWrite),
        s.Judges w n k.ce ∧ k.icrc = true ∧ q = w.qp n ∧ q.mgmt = none ∧ q.spray = false ∧ k.psn = q.epsn ∧ (k.pos = .only ∨ k.pos = .first) ∧
        w.windowCheck q.pd k.key k.va k.len 1 = some (r, off) ∧ ws = w.pieces (.rdma n k.psn) (.qp n) r off k.data ∧ w.packetFate ws = .go ∧
        x = w.useWindow n k.key ∧
        (u = x.setQp n { x.qp n with nextMsn := q.nextMsn + 1, msgs := q.msgs ++ [{ first := k.psn, last := k.psn + BitVec.ofNat 24 (State.packetsOf q k.len - 1), msn := q.nextMsn, left := 0, missing := k.len, length := k.len }] }) ∧ (v = u.setQp n (State.remember { u.qp n with epsn := k.psn + 1, nakSent := false, cur := if k.pos = .only then none else some { first := k.psn, region := r, off := off, len := k.len }, msgs := (u.qp n).msgs.map fun m => if m.msn == q.nextMsn then { m with imm := if k.pos = .only then none else m.imm } else m } k.psn .write))) ∧
    (∃ (s : State) (w : State) (v : State) (n : Fin 65536) (k : WritePkt) (q : Qp) (c : CurMsg) (m : Msg) (ws : List HostWrite), s.Judges w n k.ce ∧
        k.icrc = true ∧ q = w.qp n ∧ q.mgmt = none ∧ q.spray = false ∧ k.psn = q.epsn ∧ (k.pos = .middle ∨ k.pos = .last) ∧ q.cur = some c ∧
        ((q.msgs.find? fun m => m.first == c.first) = some m) ∧
        ws = w.pieces (.rdma n k.psn) (.qp n) c.region (c.off + (k.psn - c.first).toNat * q.pmtu) k.data ∧
        (v = w.setQp n (State.remember { q with epsn := k.psn + 1, nakSent := false, cur := if k.pos = .last then none else some c, msgs := q.msgs.map fun y => if y.msn == m.msn then { y with imm := if k.pos = .last then none else y.imm } else y } k.psn .write))) ∧
    (∃ (s : State) (w : State) (x : State) (u : State) (v : State) (n : Fin 65536) (psn : BitVec 24) (key : Word) (va : Nat) (r : Nat) (off : Nat) (d : BitVec 64) (ce : Bool) (q : Qp) (ws : List HostWrite) (bs : List Byte),
        s.Judges w n ce ∧ q = w.qp n ∧ q.mgmt = none ∧ psn = q.epsn ∧ State.outstanding q < 16 ∧ va % 8 = 0 ∧
        w.windowCheck q.pd key va 8 1 = some (r, off) ∧ (bs = ((List.range 8).map fun i => (d >>> (8 * i)).setWidth 8)) ∧
        ws = w.pieces (.rdma n psn) (.qp n) r off bs ∧ w.packetFate ws = .go ∧ x = w.useWindow n key ∧
        (u = x.setQp n { x.qp n with nextMsn := q.nextMsn + 1, msgs := q.msgs ++ [{ first := psn, last := psn + BitVec.ofNat 24 (State.packetsOf q 8 - 1), msn := q.nextMsn, left := 0, missing := 8, length := 8 }] }) ∧ (v = u.setQp n (State.remember { u.qp n with epsn := psn + 1, nakSent := false, cur := none, msgs := (u.qp n).msgs.map fun m => if m.msn == q.nextMsn then { m with imm := none } else m } psn .write))) :=
  ⟨⟨{ live with rdma.pds := [(0, some {})], rdma.wins := [(0, some { region := 1, len := 4096, rights := 31 })], twin.regions := [(1, { home := true, opened := true, served := true, solo := true })], bench.tokens := 1 },
        _, _, _, _, 0, { psn := 0, pos := .only, len := 1, data := [0xA5] }, 1, 0, _, _, judges_mk (by decide +kernel), by decide +kernel, rfl,
        by decide +kernel, by decide +kernel, by decide +kernel, by decide +kernel, by decide +kernel, rfl, by decide +kernel, rfl, rfl, rfl⟩,
    ⟨{ live with rdma.pds := [(0, some {})], rdma.wins := [(0, some { region := 1, len := 4096, rights := 31 })], twin.regions := [(1, { home := true, opened := true, served := true, solo := true })], bench.tokens := 1, rdma.qps := [(0, { connected := true, epsn := 1, cur := some { first := 0, region := 1, off := 0, len := 2 }, msgs := [{ first := 0, last := 1, msn := 0, left := 1, missing := 1, length := 2 }] })] },
        _, _, 0, { psn := 1, pos := .last, len := 2, data := [0xA5] }, _, { first := 0, region := 1, off := 0, len := 2 },
        { first := 0, last := 1, msn := 0, left := 1, missing := 1, length := 2 }, _, judges_mk (by decide +kernel), by decide +kernel, rfl,
        five_and (by decide +kernel) ⟨by decide +kernel, rfl, rfl⟩⟩,
    ⟨{ live with rdma.pds := [(0, some {})], rdma.wins := [(0, some { region := 1, len := 4096, rights := 31 })], twin.regions := [(1, { home := true, opened := true, served := true, solo := true })], bench.tokens := 1 },
        _, _, _, _, 0, _, 0#32, 0, 1, 0, 0, true, _, _, _, judges_mk (by decide +kernel), rfl, by decide +kernel, rfl, by decide +kernel,
        by decide +kernel, by decide +kernel, rfl, rfl, by decide +kernel, rfl, rfl, rfl⟩⟩

/-- The hypotheses of `Obligations.MediumEffects` can be met, clause by clause. -/
theorem test_witness_MediumEffects :
    (∃ (s : State) (n : Fin 144) (seq : BitVec 8) (c : QmiCmd) (i : DoneInfo) (x : Nat) (b : BLine), s.medUp = true ∧ (s.qc n).lstate = .active ∧
        (s.qc n).offWait = false ∧ State.inOrder (s.qc n) seq 3 = true ∧
        ((s.qc n).sent.find? (fun y => y.tag == c.tag && y.op == .program) = some c) ∧ c.op = .program ∧ c.user = .writeBack x ∧ i.status = .ok ∧
        (s.sett (lineSett x)).phys = some { die := n * 16 + c.die, zone := c.zone, slot := c.slot } ∧ s.bline x = some b ∧ b.state = .wb ∧
        b.redirty = false ∧ x ∉ s.sec.sealed ∧ ((s.taken n c seq).youngAdd (lineSett x) (lineIdx x) (s.taken n c seq).youngStamp).2 = true) ∧
    (∃ (s : State) (v : State) (n : Fin 144) (seq : BitVec 8) (c : QmiCmd) (f : BitVec 2400) (x : Nat) (d : Line), s.medUp = true ∧
        (s.qc n).lstate = .active ∧ (s.qc n).offWait = false ∧ State.inOrder (s.qc n) seq 76 = true ∧
        ((s.qc n).sent.find? (fun x => x.tag == c.tag && (x.op == .read || x.op == .marginRead)) = some c) ∧ c.user = .fill x ∧
        v = s.taken n c seq ∧ v.cmdLine n c.nextLine = (x, true) ∧ verdictOf (v.sett c.lsett) (hardDecode f) = .data d) ∧
    (∃ (s : State) (v : State) (n : Fin 144) (seq : BitVec 8) (c : QmiCmd) (f : BitVec 2400) (x : Nat), s.medUp = true ∧ (s.qc n).lstate = .active ∧
        (s.qc n).offWait = false ∧ State.inOrder (s.qc n) seq 76 = true ∧
        ((s.qc n).sent.find? (fun x => x.tag == c.tag && (x.op == .read || x.op == .marginRead)) = some c) ∧ c.user = .fill x ∧
        v = s.taken n c seq ∧ v.cmdLine n c.nextLine = (x, true) ∧ verdictOf (v.sett c.lsett) (hardDecode f) = .zero) ∧
    (∃ (s : State) (v : State) (n : Fin 144) (seq : BitVec 8) (c : QmiCmd) (f : BitVec 2400) (x : Nat), s.medUp = true ∧ (s.qc n).lstate = .active ∧
        (s.qc n).offWait = false ∧ State.inOrder (s.qc n) seq 76 = true ∧
        ((s.qc n).sent.find? (fun x => x.tag == c.tag && (x.op == .read || x.op == .marginRead)) = some c) ∧ c.user = .fill x ∧
        v = s.taken n c seq ∧ v.cmdLine n c.nextLine = (x, true) ∧ verdictOf (v.sett c.lsett) (hardDecode f) = .beyond ∧
        s.bit Reg.RD_CTRL 0 0 = true ∧ c.op ≠ .softRead) ∧
    (∃ (s : State) (v : State) (n : Fin 144) (seq : BitVec 8) (c : QmiCmd) (e : BitVec 2400) (p : BitVec 2400) (m : BitVec 2400) (x : Nat) (d : Line),
        s.medUp = true ∧ (s.qc n).lstate = .active ∧ (s.qc n).offWait = false ∧ State.inOrder (s.qc n) seq 226 = true ∧
        ((s.qc n).sent.find? (fun x => x.tag == c.tag && x.op == .softRead) = some c) ∧ c.user = .fill x ∧ v = s.taken n c seq ∧
        v.cmdLine n c.nextLine = (x, true) ∧ verdictOf (v.sett c.lsett) (softDecode e p m) = .data d) ∧
    (∃ (s : State) (n : Fin 144) (seq : BitVec 8) (c : QmiCmd) (e : DieStatus), s.medUp = true ∧ (s.qc n).lstate = .active ∧
        (s.qc n).offWait = false ∧ State.inOrder (s.qc n) seq 2 = true ∧ ((s.qc n).sent.find? (fun x => x.tag == c.tag && true) = some c) ∧
        c.isSense = true ∧ e ≠ .refUnset ∧ e ≠ .dieFault) ∧
    (∃ (s : State) (g : Fin 9), s.medUp = true ∧ (s.qg g).railsUp = true ∧ (s.qg g).compare = true) ∧
    (∃ (s : State), s.psq.mainUp = true ∧ s.bench.domain = .replaying ∧ s.bench.replayed = false ∧ s.bench.replaying = none ∧
        (∀ d ∈ s.newerDesc.dies, s.dieSettled d = true)) ∧
    (∃ (s : State), s.benchWorks = true ∧ s.xlt.map.write = none ∧ s.xlt.jrnl.running = true ∧ s.xlt.jrnl.recs ≠ [] ∧ s.chunksTodo = []) ∧
    (∃ (s : State) (c : Nat) (rest : List Nat), s.benchWorks = true ∧ s.xlt.map.write = none ∧ s.xlt.jrnl.running = true ∧ s.xlt.jrnl.recs ≠ [] ∧
        s.chunksTodo = c :: rest) ∧
    (∃ (s : State) (c : Nat), s.psq.mainUp = true ∧ c ∈ s.xlt.prio ∧ s.pairHere c = true ∧ s.chunkIn c = true ∧ s.chunkIn (s.bandChunk c) = true ∧
        s.chunkHere c = false ∧ s.chunkHere (s.bandChunk c) = false) ∧
    (∃ (s : State) (a : Nat), s.psq.mainUp = true ∧ s.xlt.bvOpen = true ∧ a < 0x1000000000000 ∧ s.dieUp (physOf (a / 64 * 64 / 65536)).die = true ∧
        s.xlt.raw = [] ∧ s.xlt.rawHeld = []) ∧
    (∃ (s : State) (n : Nat) (b : Scb), s.benchWorks = true ∧ ((s.bench.scbs.find? fun b => b.lsett == n) = some b) ∧ b.closing = false ∧
        b.slots = [] ∧ s.move n = none) ∧
    (∃ (s : State) (u : State) (p : Bool) (f : TFrame) (e : WEntry) (m : Move), s.Accepts p f ∧ u = s.framed p f ∧ s.twin.pair = .paired ∧
        (s.rt e.region).target = true ∧ e.ros ≤ (s.rt e.region).ros ∧ e.unalloc = false ∧ u.move (lineSett e.line) = some m ∧
        m.read.getLsbD (lineIdx e.line) = false ∧ u.bline e.line = none) ∧
    (∃ (s : State) (k : Fin 256), s.nextDue = some k.val ∧ (s.slot k).action = 2 ∧ (s.psq.pstate = .active ∨ s.psq.pstate = .idle) ∧
        s.tablesReady = true ∧ (∀ g ∈ State.maskGroups (s.slot k).arg, ∀ d ∈ s.calDies g, (s.die d).calDue = false)) ∧
    (∃ (s : State) (k : Fin 256), s.nextDue = some k.val ∧ (s.slot k).action = 9 ∧ (s.psq.pstate = .active ∨ s.psq.pstate = .idle) ∧
        (∀ g ∈ State.maskGroups (s.slot k).arg, ∀ d ∈ s.calDies g, (s.die d).tables = false)) :=
  ⟨⟨{ sent { cmd .program with user := .writeBack 0 } with med.setts := [(0, { phys := some { die := 0, zone := 0, slot := 0 }, mode := .m4 })], bench.lines := [(0, some { state := .wb, way := 0, data := 0 })] },
        0, 0#8, { cmd .program with user := .writeBack 0 }, { status := .ok }, 0, { state := .wb, way := 0, data := 0 }, by decide +kernel⟩,
    ⟨{ sent { cmd .read with user := .fill 0 } with med.setts := [(0, { phys := some { die := 0, zone := 0, slot := 0 }, mode := .m4 , gen := 0})] },
        _, 0, 0#8, { cmd .read with user := .fill 0 }, 0#2400, 0, 0, five_and (by decide +kernel) ⟨by decide +kernel, rfl, by decide +kernel, by rw [hardDecode_zero]; decide +kernel⟩⟩,
    ⟨{ sent { cmd .read with user := .fill 0 } with med.setts := [(0, { phys := some { die := 0, zone := 0, slot := 0 }, mode := .m4 })] }, _, 0,
        0#8, { cmd .read with user := .fill 0 }, 0#2400, 0, five_and (by decide +kernel) ⟨by decide +kernel, rfl, by decide +kernel, by rw [hardDecode_zero]; decide +kernel⟩⟩,
    ⟨{ sent { cmd .read with user := .fill 0 } with med.setts := [(0, { phys := some { die := 0, zone := 0, slot := 0 }, mode := .m4 })] }, _, 0,
        0#8, { cmd .read with user := .fill 0 }, miscrc, 0, five_and (by decide +kernel) ⟨by decide +kernel, rfl, by decide +kernel, by rw [hardDecode_miscrc]; rfl, by decide +kernel⟩⟩,
    ⟨{ sent { cmd .softRead with user := .fill 0 } with med.setts := [(0, { phys := some { die := 0, zone := 0, slot := 0 }, mode := .m4 , gen := 0})] },
        _, 0, 0#8, { cmd .softRead with user := .fill 0 }, 0#2400, 0, 0, 0, 0, five_and (by decide +kernel) ⟨by decide +kernel, rfl, by decide +kernel,
        by rw [softDecode_of_hardDecode _ _ hardDecode_zero]; decide +kernel⟩⟩,
    ⟨sent (cmd .read), 0, 0#8, cmd .read, .aborted, by decide +kernel⟩,
    ⟨{ live with med.groups := [(0, { railsUp := true, inService := true, compare := true })] }, 0, by decide +kernel⟩,
    ⟨{ live with bench.domain := .replaying, bench.descA := { seq := 1, dies := [0] } }, by decide +kernel⟩,
    ⟨{ live with xlt.jrnl := { running := true, recs := [{ place := 0, jseq := 0, key := .entry 0 }], written := live.recChunks { place := 0, jseq := 0, key := .entry 0 } } },
        by decide +kernel⟩,
    ⟨{ live with xlt.jrnl := { running := true, recs := [{ place := 0, jseq := 0, key := .entry 0 }] } }, _, _, by decide +kernel,
        by decide +kernel, by decide +kernel, by decide +kernel, rfl⟩,
    ⟨{ live with xlt.prio := [0] }, 0, by decide +kernel⟩,
    ⟨{ live with xlt.bvOpen := true }, 0, by decide +kernel⟩,
    ⟨{ live with bench.scbs := [{ stream := { src := .none, region := 1 }, lsett := 0 }] }, 0,
        { stream := { src := .none, region := 1 }, lsett := 0 }, by decide +kernel⟩,
    ⟨{ paired with twin.regions := [(1, { home := true, target := true })], med.yarrow.moves := [{ lsett := 0, kind := .resync, mode := .m4 }] }, _,
        false, tf, { region := 1, line := 0 }, { lsett := 0, kind := .resync, mode := .m4 }, accepts_mk (by decide +kernel), rfl, by decide +kernel⟩,
    ⟨{ live with sched.slots := [(0, { arm := true, action := 2, arg := 1 })] }, 0, by decide +kernel⟩,
    ⟨{ live with sched.slots := [(0, { arm := true, action := 9, arg := 1 })], med.dies := [(0, { identified := true, used := true })] }, 0,
        by decide +kernel⟩⟩

end Sys2Proof.Tests
end

/-! The register space: what a bus error captures (R28, R29) and what a pending bit needs to be captured again (R37). -/

namespace Sys2Proof.RegisterSpace

open Sys2Proof.Machine

/-! ### Pending bits (R37) -/

/-- The mask of pending word `k`: the 32 bits from `32 * k` up. -/
theorem getLsbD_pendMask (k n : Nat) (hn : n < 512) :
    ((BitVec.ofNat 512 0xFFFFFFFF) <<< (32 * k)).getLsbD n = decide (n / 32 = k) := by
  have hbit : (BitVec.ofNat 512 0xFFFFFFFF).getLsbD (n - 32 * k) = decide (n - 32 * k < 32) := by
    rw [BitVec.getLsbD_ofNat, show 0xFFFFFFFF = 2 ^ 32 - 1 from rfl, Nat.testBit_two_pow_sub_one,
      decide_eq_true (show n - 32 * k < 512 by omega), Bool.true_and]
  rw [BitVec.getLsbD_shiftLeft, hbit, decide_eq_true hn, Bool.true_and, ← decide_not, ← Bool.decide_and]
  exact decide_eq_decide.mpr (by omega)

/-- A word moved to pending word `k` has its bits there and zeros elsewhere. -/
theorem getLsbD_pendPlace (w : Word) (k n : Nat) (hn : n < 512) :
    (w.setWidth 512 <<< (32 * k)).getLsbD n = (decide (n / 32 = k) && w.getLsbD (n % 32)) := by
  rw [BitVec.getLsbD_shiftLeft, BitVec.getLsbD_setWidth]
  by_cases hk : n / 32 = k
  · have hlo : ¬ n < 32 * k := by omega
    have hin : n - 32 * k = n % 32 := by omega
    have hlt : n % 32 < 512 := by omega
    simp [hn, hk, hlo, hin, hlt]
  · rcases Nat.lt_or_ge n (32 * k) with hlo | hhi
    · simp [hk, hlo]
    · rw [BitVec.getLsbD_of_ge w _ (by omega)]
      simp [hk]

/-- A write of EVT_PEND changes no raw bit. -/
@[simp] theorem pendWrite_raw (s : State) (k : Nat) (w : Word) : (s.pendWrite k w).evt.raw = s.evt.raw := rfl

/-- A write of EVT_PEND replaces the pending bits of its word and leaves the others. -/
theorem pendWrite_pend (s : State) (k : Nat) (w : Word) (n : Nat) (hn : n < 512) :
    (s.pendWrite k w).evt.pend.getLsbD n = if n / 32 = k then w.getLsbD (n % 32) else s.evt.pend.getLsbD n := by
  show ((s.evt.pend &&& ~~~((BitVec.ofNat 512 0xFFFFFFFF) <<< (32 * k))) ||| (w.setWidth 512 <<< (32 * k))).getLsbD n = _
  rw [BitVec.getLsbD_or, BitVec.getLsbD_and, BitVec.getLsbD_not, getLsbD_pendMask k n hn, getLsbD_pendPlace w k n hn]
  by_cases hk : n / 32 = k <;> simp [hk, hn]

/-- A raw bit falls without its pending bit. -/
@[simp] theorem lower_pend (s : State) (n : Nat) : (s.lower n).evt.pend = s.evt.pend := rfl

/-- Settles O45: a source that is up is not captured again, whatever EVT_PEND was written, and one that has fallen is. -/
theorem captureNeedsARise : Obligations.CaptureNeedsARise := by
  refine ⟨State.raise_up, fun s k w _ => ⟨pendWrite_raw s k w, pendWrite_pend s k w⟩, fun s k w n hup => ?_,
    fun s n _ => ⟨lower_pend s n, s.lower_raw_same n⟩, State.raise_pend⟩
  exact State.raise_up _ n (by rwa [pendWrite_raw])

/-! ### The word captured (R28, Table 2-3) -/

/-- TOP_BUSERR_INFO as a capture writes it, OVERFLOW given. -/
def busErrorInfo (overflow : Bool) (req : Requester) (write : Bool) (c : BusCause) : Word :=
  BitVec.ofNat 32 (2 ^ 31 + overflow.toNat * 2 ^ 30 + c.code * 2 ^ 27 + req.ids.1 * 2 ^ 16 + req.ids.2 * 2 ^ 8 + write.toNat)

theorem busCause_code_lt (c : BusCause) : c.code < 2 ^ 3 := by cases c <;> decide

/-- The numbers of a requester fit REQ_KIND and REQ_ID. -/
theorem requester_ids_lt (req : Requester) : req.ids.1 < 2 ^ 2 ∧ req.ids.2 < 2 ^ 8 := by
  cases req with
  | ld p l | page p l => exact ⟨Nat.zero_lt_succ _, show p.val * 16 + l.val < 2 ^ 8 by omega⟩
  | core n => exact ⟨show 1 < 2 ^ 2 by decide, show n.val < 2 ^ 8 by omega⟩
  | debug => decide

/-- The fields of the captured word lie apart, so none carries into the next, and each reads what was captured. -/
theorem busErrorInfo_fields (overflow : Bool) (req : Requester) (write : Bool) (c : BusCause) (w : Word)
    (hw : w = busErrorInfo overflow req write c) :
    bitsOf w 31 31 = true.toNat ∧ bitsOf w 30 30 = overflow.toNat ∧ bitsOf w 29 27 = c.code ∧ bitsOf w 17 16 = req.ids.1 ∧
      bitsOf w 15 8 = req.ids.2 ∧ bitsOf w 0 0 = write.toNat := by
  have hcode := busCause_code_lt c
  obtain ⟨hkind, hid⟩ := requester_ids_lt req
  have hover := overflow.toNat_le
  have hwrite := write.toNat_le
  have hnat : w.toNat = 2 ^ 31 + overflow.toNat * 2 ^ 30 + c.code * 2 ^ 27 + req.ids.1 * 2 ^ 16 + req.ids.2 * 2 ^ 8 + write.toNat := by
    rw [hw, busErrorInfo, BitVec.toNat_ofNat, Nat.mod_eq_of_lt (by omega)]
  simp only [bitsOf, hnat, Bool.toNat_true]
  refine ⟨?_, ?_, ?_, ?_, ?_, ?_⟩ <;> omega

/-- A field of one bit that holds `v` is that bit. -/
theorem getLsbD_of_bitsOf {w : Word} {b : Nat} {v : Bool} (h : bitsOf w b b = v.toNat) : w.getLsbD b = v := by
  have hbit := testBit_bitsOf w b b 0
  rw [h] at hbit
  cases v <;> simpa using hbit.symm

/-! ### The two cases of a bus error (R29) -/

section

variable (s : State) (req : Requester) (addr : Nat) (write : Bool) (c : BusCause)

/-- While one is held, a bus error sets OVERFLOW alone. -/
theorem busError_held (hm : s.psq.mainUp = true) (hv : s.bit Reg.TOP_BUSERR_INFO 0 31 = true) :
    s.busError req addr write c = ((s.emit (.busError req)).setBit Reg.TOP_BUSERR_INFO 0 30 true).pulse 427 := by
  have hve : (s.emit (.busError req)).bit Reg.TOP_BUSERR_INFO 0 31 = true := hv
  simp only [State.busError, hm, hve, Bool.not_true, Bool.false_eq_true, if_false, if_true]

/-- While none is held, a bus error is captured. -/
theorem busError_free (hm : s.psq.mainUp = true) (hv : s.bit Reg.TOP_BUSERR_INFO 0 31 = false) :
    s.busError req addr write c =
      (((s.emit (.busError req)).setFld Reg.TOP_BUSERR_ADDR 0 23 2 (addr / 4)).setReg Reg.TOP_BUSERR_INFO 0
        (busErrorInfo (s.bit Reg.TOP_BUSERR_INFO 0 30) req write c)).pulse 427 := by
  have hve : (s.emit (.busError req)).bit Reg.TOP_BUSERR_INFO 0 31 = false := hv
  simp only [State.busError, hm, hve, Bool.not_true, Bool.false_eq_true, if_false]
  rfl

/-- No event work writes the two capture registers. -/
theorem quiet_busErrorAddr : quiet (Reg.TOP_BUSERR_ADDR.at 0) = true := by decide

theorem quiet_busErrorInfo : quiet (Reg.TOP_BUSERR_INFO.at 0) = true := by decide

theorem busErrorAddr_ne_info : Reg.TOP_BUSERR_ADDR.at 0 ≠ Reg.TOP_BUSERR_INFO.at 0 := by decide

/-- A bus error leaves what is captured as it is while VALID is 1. -/
theorem busError_held_keeps (hm : s.psq.mainUp = true) (hv : s.bit Reg.TOP_BUSERR_INFO 0 31 = true) :
    (s.busError req addr write c).reg Reg.TOP_BUSERR_ADDR = s.reg Reg.TOP_BUSERR_ADDR ∧
      ∀ b : Nat, b ≠ 30 → b < 32 → (s.busError req addr write c).bit Reg.TOP_BUSERR_INFO 0 b = s.bit Reg.TOP_BUSERR_INFO 0 b := by
  rw [busError_held s req addr write c hm hv]
  constructor
  · rw [State.reg_pulse _ _ _ quiet_busErrorAddr]
    exact State.reg_setFld_ne _ 30 30 _ busErrorAddr_ne_info
  · intro b hb hlt
    rw [State.bit_pulse _ _ _ quiet_busErrorInfo, State.bit_setBit_ne _ _ _ _ hb hlt]
    rfl

/-- A bus error sets OVERFLOW while VALID is 1. -/
theorem busError_held_overflow (hm : s.psq.mainUp = true) (hv : s.bit Reg.TOP_BUSERR_INFO 0 31 = true) :
    (s.busError req addr write c).bit Reg.TOP_BUSERR_INFO 0 30 = true := by
  rw [busError_held s req addr write c hm hv, State.bit_pulse _ _ _ quiet_busErrorInfo, State.bit_setBit _ _ _ _ _ (by decide)]

/-- A bus error writes the whole of TOP_BUSERR_INFO while VALID is 0. -/
theorem busError_free_info (hm : s.psq.mainUp = true) (hv : s.bit Reg.TOP_BUSERR_INFO 0 31 = false) :
    (s.busError req addr write c).reg Reg.TOP_BUSERR_INFO = busErrorInfo (s.bit Reg.TOP_BUSERR_INFO 0 30) req write c := by
  rw [busError_free s req addr write c hm hv, State.reg_pulse _ _ _ quiet_busErrorInfo, State.reg_setReg]

/-- A bus error captures the word address while VALID is 0. -/
theorem busError_free_addr (hm : s.psq.mainUp = true) (hv : s.bit Reg.TOP_BUSERR_INFO 0 31 = false) (ha : addr < 2 ^ 24) :
    (s.busError req addr write c).fld Reg.TOP_BUSERR_ADDR 0 23 2 = addr / 4 := by
  rw [busError_free s req addr write c hm hv, State.fld_pulse _ _ _ quiet_busErrorAddr, State.fld,
    State.reg_setReg_ne _ _ busErrorAddr_ne_info]
  exact State.fld_setFld _ _ _ _ _ _ (by decide) (by decide) (by omega)

/-- A source that was down is pending after a pulse, in the main domain's power, whatever registers were written and reported before. -/
theorem pulse_pend {u : State} (k : Keeps [.regs, .out] s u) (n : Nat) (hn : n < 512) (hm : s.psq.mainUp = true)
    (hr : s.evt.raw.getLsbD n = false) : (u.pulse n).evt.pend.getLsbD n = true := by
  rw [State.pulse, lower_pend]
  exact u.raise_pend n hn (by rw [k.psq (by decide), hm]) (by rw [k.evt (by decide), hr])

/-- Every bus error raises source 427, whether or not it is captured. -/
theorem busError_pend (hm : s.psq.mainUp = true) (hr : s.evt.raw.getLsbD 427 = false) :
    (s.busError req addr write c).evt.pend.getLsbD 427 = true := by
  have hemit : Keeps [.regs, .out] s (s.emit (.busError req)) := (State.emit_keeps _ _).mono (by decide)
  cases hv : s.bit Reg.TOP_BUSERR_INFO 0 31 with
  | true =>
    rw [busError_held s req addr write c hm hv]
    exact pulse_pend s ((State.setBit_keeps _ _ _ _ _).after (by decide) hemit) 427 (by decide) hm hr
  | false =>
    rw [busError_free s req addr write c hm hv]
    exact pulse_pend s ((State.setReg_keeps _ _ _ _).after (by decide) ((State.setFld_keeps _ _ _ _ _ _).after (by decide) hemit))
      427 (by decide) hm hr

end

/-- Settles O44: by whether a bus error is held, the word captured read field by field. -/
theorem busErrorCapture : Obligations.BusErrorCapture := by
  rintro s _ req addr write c hm hr rfl
  refine ⟨fun hv => ?_, fun hv => ?_, busError_pend s req addr write c hm hr⟩
  · obtain ⟨haddr, hinfo⟩ := busError_held_keeps s req addr write c hm hv
    exact ⟨haddr, busError_held_overflow s req addr write c hm hv, hinfo⟩
  · obtain ⟨hvalid, hover, hcause, hkind, hid, hwrite⟩ :=
      busErrorInfo_fields _ req write c _ (busError_free_info s req addr write c hm hv)
    exact ⟨getLsbD_of_bitsOf hvalid, getLsbD_of_bitsOf hover, hcause, hkind, hid, getLsbD_of_bitsOf hwrite,
      busError_free_addr s req addr write c hm hv⟩

end Sys2Proof.RegisterSpace

/-! The WEAR code (R133). The unit of a code is how much the number grows to the next code: from that one recurrence follow both the order of the codes
and their resolution. -/

namespace Sys2Proof.WearCount

open Sys2Proof.Machine

/-! ### The fields of a code -/

theorem bitsOf_wearExponent (c : BitVec 16) : bitsOf (c.setWidth 32) 15 11 = c.toNat / 2048 := by
  rw [bitsOf, BitVec.toNat_setWidth_of_le (by decide)]
  omega

theorem bitsOf_wearMantissa (c : BitVec 16) : bitsOf (c.setWidth 32) 10 0 = c.toNat % 2048 := by
  rw [bitsOf, BitVec.toNat_setWidth_of_le (by decide)]
  omega

/-! ### The number a code stands for, over all natural codes -/

/-- The number of line programs that the code `x` stands for, were the exponent unbounded. -/
def wearNumber (x : Nat) : Nat := if x / 2048 = 0 then x % 2048 else (2048 + x % 2048) * 2 ^ (x / 2048 - 1)

/-- The unit of the code `x` (R134, for an exponent of 1 or more): 1 for the exponents 0 and 1, and twice as much for each further one. -/
def wearUnit (x : Nat) : Nat := 2 ^ (x / 2048 - 1)

theorem wearN_eq_wearNumber (c : BitVec 16) : wearN c = wearNumber c.toNat := rfl

theorem wearNumber_of_lt {x : Nat} (h : x < 2048) : wearNumber x = x := by
  rw [wearNumber, if_pos (Nat.div_eq_of_lt h), Nat.mod_eq_of_lt h]

theorem wearNumber_of_le {x : Nat} (h : 2048 ≤ x) : wearNumber x = (2048 + x % 2048) * wearUnit x := by
  rw [wearNumber, if_neg (by omega), wearUnit]

theorem wearUnit_pos (x : Nat) : 0 < wearUnit x := Nat.two_pow_pos _

/-- After the last mantissa of an exponent the unit doubles. -/
theorem wearUnit_succ_of_mantissa_full {x : Nat} (h : 2048 ≤ x) (hm : x % 2048 = 2047) : wearUnit (x + 1) = 2 * wearUnit x := by
  have hexp : (x + 1) / 2048 - 1 = (x / 2048 - 1) + 1 := by omega
  rw [wearUnit, hexp, Nat.pow_succ', wearUnit]

theorem wearUnit_succ_of_mantissa_lt {x : Nat} (hm : x % 2048 < 2047) : wearUnit (x + 1) = wearUnit x := by
  have hexp : (x + 1) / 2048 = x / 2048 := by omega
  rw [wearUnit, hexp, wearUnit]

/-- The next code stands for one unit more, also across the end of an exponent: `2048 * (2 * u) = (2048 + 2047) * u + u`. -/
theorem wearNumber_succ (x : Nat) : wearNumber (x + 1) = wearNumber x + wearUnit x := by
  rcases Nat.lt_or_ge x 2048 with hlo | hhi
  · have hunit : wearUnit x = 1 := by rw [wearUnit, Nat.div_eq_of_lt hlo, Nat.zero_sub, Nat.pow_zero]
    rw [wearNumber_of_lt hlo, hunit]
    rcases Nat.lt_or_ge (x + 1) 2048 with hlt | hge
    · exact wearNumber_of_lt hlt
    · obtain rfl : x = 2047 := by omega
      decide
  · rw [wearNumber_of_le hhi, wearNumber_of_le (Nat.le_succ_of_le hhi)]
    rcases Nat.lt_or_ge (x % 2048) 2047 with hm | hm
    · have hmant : (x + 1) % 2048 = x % 2048 + 1 := by omega
      rw [wearUnit_succ_of_mantissa_lt hm, hmant]
      ring
    · have hm : x % 2048 = 2047 := by omega
      have hmant : (x + 1) % 2048 = 0 := by omega
      rw [wearUnit_succ_of_mantissa_full hhi hm, hmant, hm]
      ring

/-- The number grows with the code. -/
theorem wearNumber_strictMono : StrictMono wearNumber :=
  strictMono_nat_of_lt_succ fun x => by
    rw [wearNumber_succ]
    exact Nat.lt_add_of_pos_right (wearUnit_pos x)

/-- From n = 2,048 on, the unit is at most one part in 2,048 of the number. -/
theorem wearUnit_mul_le {x : Nat} (h : 2048 ≤ wearNumber x) : wearUnit x * 2048 ≤ wearNumber x := by
  have hx : 2048 ≤ x := by
    by_contra hlt
    rw [wearNumber_of_lt (by omega)] at h
    omega
  rw [wearNumber_of_le hx, Nat.mul_comm]
  exact Nat.mul_le_mul_right _ (Nat.le_add_right _ _)

/-- Settles O42: the next code stands for one unit more, so the number grows with the code, by at most one part in 2,048. -/
theorem wearCode : Obligations.WearCode := by
  refine ⟨fun c he => ?_, fun c he => ?_, fun c d => ?_, fun c d hd hn => ?_⟩
  · rw [bitsOf_wearExponent] at he
    rw [bitsOf_wearMantissa]
    exact if_pos he
  · rw [bitsOf_wearExponent] at he ⊢
    rw [bitsOf_wearMantissa]
    exact if_neg (by omega)
  · rw [wearN_eq_wearNumber, wearN_eq_wearNumber, wearNumber_strictMono.lt_iff_lt, BitVec.lt_def]
  · rw [wearN_eq_wearNumber] at hn ⊢
    rw [wearN_eq_wearNumber, hd, wearNumber_succ, Nat.add_sub_cancel_left]
    exact wearUnit_mul_le hn

end Sys2Proof.WearCount

/-! The CRC of a packet (R351). The model runs the CRC-16 of R69 byte by byte; over the bits in the order it takes them it is one fold, and of a packet
whose length is right it is the one check left. -/

namespace Sys2Proof.AzlerPacket

open Sys2Proof.Machine

/-! ### The CRC-16 as one fold over bits -/

/-- One bit through the CRC-16 of R69. -/
def crc16Bit (c : BitVec 16) (b : Bool) : BitVec 16 := if c.getLsbD 15 != b then (c <<< 1) ^^^ 0x1021#16 else c <<< 1

/-- The bits of a byte, most significant first. -/
def byteBits (b : Byte) : List Bool := (List.range 8).map fun j => b.getLsbD (7 - j)

/-- The bits of a word in the order the CRC takes them: byte by byte from the least significant, each from its most significant bit. -/
def wordBits (w : Word) : List Bool := (List.range 4).flatMap fun i => (List.range 8).map fun j => w.getLsbD (8 * i + (7 - j))

theorem crc16Byte_eq_foldl (c : BitVec 16) (b : Byte) : crc16Byte c b = (byteBits b).foldl crc16Bit c := by
  rw [byteBits, List.foldl_map]
  rfl

theorem crc16_eq_foldl (bs : List Byte) : crc16 bs = (bs.flatMap byteBits).foldl crc16Bit 0xFFFF#16 := by
  have hbyte : crc16Byte = fun c b => (byteBits b).foldl crc16Bit c := funext₂ crc16Byte_eq_foldl
  rw [crc16, List.foldl_flatMap, hbyte]

/-- Bit 7 - j of byte i of a word is its bit 8 i + (7 - j). -/
theorem byteBits_byte (w : Word) (i : Nat) :
    byteBits ((w >>> (8 * i)).setWidth 8) = (List.range 8).map fun j => w.getLsbD (8 * i + (7 - j)) := by
  refine List.map_congr_left fun j _ => ?_
  have hj : 7 - j < 8 := by omega
  rw [BitVec.getLsbD_setWidth, BitVec.getLsbD_ushiftRight, decide_eq_true hj, Bool.true_and]

theorem wordBytes_flatMap_byteBits (w : Word) : (wordBytes w).flatMap byteBits = wordBits w := by
  rw [wordBytes, List.flatMap_map]
  simp only [byteBits_byte, wordBits]

theorem packetCrc_eq_foldl (w0 w1 w2 : Word) (ps : List Word) :
    packetCrc w0 w1 w2 ps = ((w0 :: w1 :: w2 :: ps).flatMap wordBits).foldl crc16Bit 0xFFFF#16 := by
  rw [packetCrc, crc16_eq_foldl, List.flatMap_assoc]
  simp only [wordBytes_flatMap_byteBits]

/-! ### The checks of a packet whose length is right (R350) -/

/-- A field of `n` bits is kept by the `n`-bit vector of its number. -/
theorem toNat_ofNat_bitsOf (w : Word) {hi lo n : Nat} (hn : hi - lo + 1 = n) : (BitVec.ofNat n (bitsOf w hi lo)).toNat = bitsOf w hi lo := by
  subst hn
  exact Nat.mod_eq_of_lt (Nat.mod_lt _ (Nat.two_pow_pos _))

/-- Word 3 carries the CRC with its reserved bits zero exactly where the two numbers agree. -/
theorem toNat_eq_crc_iff (w : Word) (c : BitVec 16) : w.toNat = c.toNat ↔ w = c.setWidth 32 := by
  rw [← BitVec.toNat_inj, BitVec.toNat_setWidth_of_le (by decide)]

/-- The request read from the words of a packet (R350). -/
def requestOf (c : Fin 64) (via : Transport) (w0 w1 w2 : Word) (ps : List Word) (ok : Bool) : AzReq :=
  { chan := c, via := via, tag := BitVec.ofNat 16 (bitsOf w1 31 16), seq := BitVec.ofNat 16 (bitsOf w1 15 0), session := w2,
    quiet := w0.getLsbD 8, flags := BitVec.ofNat 7 (bitsOf w0 15 9), params := ps, ok := ok }

/-- With its length right, a packet is read or refused by its word 3 alone. -/
theorem parsePacket_of_length (c : Fin 64) (via : Transport) (w0 w1 w2 w3 : Word) {ps : List Word} (ok : Bool) (hle : ps.length ≤ 60)
    (hlen : bitsOf w0 7 0 = ps.length) :
    parsePacket c via (w0 :: w1 :: w2 :: w3 :: ps) ok =
      if w3 = (packetCrc w0 w1 w2 ps).setWidth 32 then .inr (bitsOf w0 31 16, requestOf c via w0 w1 w2 ps ok) else .inl (.badParam, [3]) := by
  have hlength : ¬ (60 < bitsOf w0 7 0 ∨ (w0 :: w1 :: w2 :: w3 :: ps).length ≠ 4 + bitsOf w0 7 0) := by
    simp only [List.length_cons]
    omega
  unfold parsePacket
  refine (if_neg hlength).trans ?_
  simp only [← toNat_eq_crc_iff]
  exact ite_not _ _ _

/-- Settles O49: the bytes of the model's CRC flattened to bits, and the packet's checks down to the one of word 3. -/
theorem packetCrc : Obligations.PacketCrc := by
  refine ⟨packetCrc_eq_foldl, fun c via w0 w1 w2 w3 ps ok hle hlen => ⟨fun hcrc => ?_, fun hcrc => ?_⟩⟩
  · refine ⟨requestOf c via w0 w1 w2 ps ok, ?_, rfl, toNat_ofNat_bitsOf w1 rfl, toNat_ofNat_bitsOf w1 rfl, rfl, rfl, toNat_ofNat_bitsOf w0 rfl, rfl⟩
    rw [parsePacket_of_length c via w0 w1 w2 w3 ok hle hlen, if_pos hcrc]
  · rw [parsePacket_of_length c via w0 w1 w2 w3 ok hle hlen, if_neg hcrc]

end Sys2Proof.AzlerPacket

/-! The life-cycle state (R387). Five groups are read one by one: the state depends on which of them are blown alone, and completing the partly blown
groups at start-up changes each group by itself. -/

namespace Sys2Proof.LifeCycle

open Sys2Proof.Machine

/-! ### The five groups -/

/-- Group `k` of the five: the 16 bits from `16 * k` on. -/
def group (g : BitVec 80) (k : Nat) : BitVec 16 := (g >>> (16 * k)).setWidth 16

/-- A group that start-up completes: some of its bits are set, and not all. -/
def partlyBlown (g : BitVec 80) (k : Nat) : Bool := group g k != 0#16 && group g k != 0xFFFF#16

theorem partlyBlown_iff (g : BitVec 80) (k : Nat) : partlyBlown g k = true ↔ group g k ≠ 0#16 ∧ group g k ≠ 0xFFFF#16 := by
  rw [partlyBlown, Bool.and_eq_true, bne_iff_ne, bne_iff_ne]

theorem group_or (g h : BitVec 80) (k : Nat) : group (g ||| h) k = group g k ||| group h k := by
  rw [group, BitVec.ushiftRight_or_distrib, BitVec.setWidth_or, ← group, ← group]

/-- The ones of group `j` lie in it alone. -/
theorem group_ones : ∀ j k : Fin 5, group (0xFFFF#80 <<< (16 * j.val)) k.val = if j.val = k.val then BitVec.allOnes 16 else 0#16 := by decide

/-- Setting the bits of group `j` completes it and leaves the others. -/
theorem group_or_ones (g : BitVec 80) {j k : Nat} (hj : j < 5) (hk : k < 5) :
    group (g ||| 0xFFFF#80 <<< (16 * j)) k = if j = k then 0xFFFF#16 else group g k := by
  rw [group_or, group_ones ⟨j, hj⟩ ⟨k, hk⟩]
  by_cases hjk : j = k
  · rw [if_pos hjk, if_pos hjk]
    exact BitVec.or_allOnes
  · rw [if_neg hjk, if_neg hjk]
    exact BitVec.or_zero

/-! ### The state by which groups are blown -/

/-- The state depends on which groups are blown, and on nothing else. -/
theorem lifeOf_congr {g h : BitVec 80} (e : ∀ k < 5, (group g k != 0#16) = (group h k != 0#16)) : lifeOf g = lifeOf h := by
  simp only [group] at e
  rw [State.lifeOf_blown g, State.lifeOf_blown h, e 0 (by decide), e 1 (by decide), e 2 (by decide), e 3 (by decide), e 4 (by decide)]

/-- With the first `n` groups blown and no other, the code is `n`. -/
theorem code_lifeOf_of_prefix (g : BitVec 80) (n : Fin 6) (h : ∀ k < 5, group g k ≠ 0#16 ↔ k < n.val) : (lifeOf g).code = n.val := by
  have hblown : ∀ k < 5, ((g >>> (16 * k)).setWidth 16 != 0#16) = decide (k < n.val) := fun k hk => by
    rw [Bool.eq_iff_iff, bne_iff_ne, decide_eq_true_iff]
    exact h k hk
  rw [State.lifeOf_blown, hblown 0 (by decide), hblown 1 (by decide), hblown 2 (by decide), hblown 3 (by decide), hblown 4 (by decide)]
  clear h hblown
  revert n
  decide

/-- The unbroken run from 0 ends at the first number that fails. -/
theorem length_takeWhile_range_le {p : Nat → Bool} {m j : Nat} (hp : p j = false) : ((List.range m).takeWhile p).length ≤ j := by
  by_contra hlt
  have hlen : j < ((List.range m).takeWhile p).length := by omega
  have hget : ((List.range m).takeWhile p)[j] = j := by
    rw [(List.takeWhile_prefix p).getElem, List.getElem_range]
  have hmem := List.mem_takeWhile_imp (List.getElem_mem hlen)
  rw [hget, hp] at hmem
  cases hmem

/-- A blown group after one that is not lies beyond the unbroken run. -/
theorem lifeOf_of_gap (g : BitVec 80) {j k : Nat} (hjk : j < k) (hk : k < 5) (hj : group g j = 0#16) (hb : group g k ≠ 0#16) :
    lifeOf g = .ended := by
  have hrun : ((List.range 5).takeWhile fun i => group g i != 0#16).length ≤ j :=
    length_takeWhile_range_le (bne_eq_false_iff_eq.mpr hj)
  refine if_pos (List.any_eq_true.mpr ⟨k, List.mem_range.mpr hk, ?_⟩)
  rw [Bool.and_eq_true, decide_eq_true_iff, bne_iff_ne]
  exact ⟨hrun.trans_lt hjk, hb⟩

/-! ### Start-up -/

/-- Groups with all their bits set, where `p` says so. -/
def fillGroups (p : Nat → Bool) (l : List Nat) (g : BitVec 80) : BitVec 80 :=
  l.foldl (fun a j => if p j then a ||| (0xFFFF#80 <<< (16 * j)) else a) g

theorem groupsRepair_groups (s : State) : s.groupsRepair.sec.groups = fillGroups (partlyBlown s.sec.groups) (List.range 5) s.sec.groups := rfl

theorem groupsRepair_repair (s : State) : s.groupsRepair.sec.repair = (List.range 5).any (partlyBlown s.sec.groups) := rfl

/-- Setting the bits of some groups completes these and leaves each other as it was. -/
theorem group_fillGroups (p : Nat → Bool) (l : List Nat) (hl : ∀ j ∈ l, j < 5) (g : BitVec 80) {k : Nat} (hk : k < 5) :
    group (fillGroups p l g) k = if k ∈ l ∧ p k = true then 0xFFFF#16 else group g k := by
  induction l generalizing g with
  | nil => simp [fillGroups]
  | cons j l ih =>
    obtain ⟨hj, hl⟩ := List.forall_mem_cons.mp hl
    rw [fillGroups, List.foldl_cons, ← fillGroups, ih hl]
    by_cases hp : p j = true
    · rw [if_pos hp, group_or_ones g hj hk]
      by_cases hjk : j = k
      · subst hjk
        simp [hp]
      · simp [hjk, Ne.symm hjk]
    · rw [if_neg hp]
      by_cases hjk : j = k
      · subst hjk
        simp [hp]
      · simp [Ne.symm hjk]

/-- Start-up gives every group that is blown all its bits, and leaves the others without any. -/
theorem group_groupsRepair (s : State) {k : Nat} (hk : k < 5) :
    group s.groupsRepair.sec.groups k = if group s.sec.groups k = 0#16 then 0#16 else 0xFFFF#16 := by
  rw [groupsRepair_groups, group_fillGroups _ _ (fun _ => List.mem_range.mp) _ hk]
  simp only [List.mem_range, hk, true_and, partlyBlown_iff]
  by_cases hzero : group s.sec.groups k = 0#16
  · simp [hzero]
  · by_cases hfull : group s.sec.groups k = 0xFFFF#16
    · simp [hfull]
    · simp [hzero, hfull]

/-- Start-up changes no group's being blown. -/
theorem groupsRepair_life (s : State) : s.groupsRepair.life = s.life := by
  refine lifeOf_congr fun k hk => ?_
  rw [group_groupsRepair s hk]
  by_cases hzero : group s.sec.groups k = 0#16 <;> simp [hzero]

/-- LCS_OTP_STATUS reads BUSY and GROUP_REPAIR (R396). -/
theorem readReg_lcsOtpStatus (s : State) : s.readReg Reg.LCS_OTP_STATUS 0 =
    wordOf [s.sec.lcWork.isSome.toNat, at_ 1 s.sec.repair.toNat] &&& 3#32 := rfl

theorem readReg_lcsOtpStatus_groupRepair (s : State) : (s.readReg Reg.LCS_OTP_STATUS 0).getLsbD 1 = s.sec.repair := by
  rw [readReg_lcsOtpStatus]
  cases s.sec.lcWork.isSome <;> cases s.sec.repair <;> rfl

/-- Settles O43: the state by which groups are blown, and start-up group by group. -/
theorem lifeCycleCode : Obligations.LifeCycleCode := by
  refine ⟨fun g n h => code_lifeOf_of_prefix g n fun k hk => h ⟨k, hk⟩, fun g j k hjk => lifeOf_of_gap g hjk k.isLt, fun s k hb => ?_,
    fun s k hz => ?_, groupsRepair_life, fun s => ?_⟩
  · exact (group_groupsRepair s k.isLt).trans (if_neg hb)
  · exact (group_groupsRepair s k.isLt).trans (if_pos hz)
  · rw [readReg_lcsOtpStatus_groupRepair, groupsRepair_repair, List.any_eq_true, Fin.exists_iff]
    simp only [List.mem_range, partlyBlown_iff, exists_prop, group]

end Sys2Proof.LifeCycle

/-! What every command does: the parts it leaves as they were, the OTP bits it never clears, and that it answers a next state. -/

namespace Sys2Proof.Whole

open Sys2Proof.Machine

/-- What a command answers differs from the state it was carried out at in the parts of its list alone. -/
theorem exec_ends (i : Instr) (s : State) : Ends i.touches s (exec i s) := by
  cases i with
  | cxlMemrd p l tag t => exact execCxlMemrd_ends p l tag t s
  | cxlMemspecrd p l t => exact execCxlMemspecrd_ends p l t s
  | cxlMemwr p l tag t d poison => exact execCxlMemwr_ends p l tag t d poison s
  | cxlMemwrptl p l tag t mask d poison => exact execCxlMemwrptl_ends p l tag t mask d poison s
  | partialLineMerge x => exact execPartialLineMerge_ends x s
  | scbIdleClose n => exact execScbIdleClose_ends n s
  | cxlHoldTimeout p => exact execCxlHoldTimeout_ends p s
  | forwardGatherExpiry => exact execForwardGatherExpiry_ends s
  | programDone n seq tag info => exact execProgramDone_ends n seq tag info s
  | emergencyRemapStart n => exact execEmergencyRemapStart_ends n s
  | moveCommit n => exact execMoveCommit_ends n s
  | yarrowWorkDispatch => exact execYarrowWorkDispatch_ends s
  | wearScan n => exact execWearScan_ends n s
  | spareRecompute => exact execSpareRecompute_ends s
  | youngSweep n => exact execYoungSweep_ends n s
  | teaselBlanking d => exact execTeaselBlanking_ends d s
  | teaselPassComplete g => exact execTeaselPassComplete_ends g s
  | keepBurstEnd => exact execKeepBurstEnd_ends s
  | qmiFrameResponse n seq tag f => exact execQmiFrameResponse_ends n seq tag f s
  | qmiSoftResponse n seq tag ref plus minus => exact execQmiSoftResponse_ends n seq tag ref plus minus s
  | qmiInfoResponse n seq tag info => exact execQmiInfoResponse_ends n seq tag info s
  | qmiErrorResponse n seq tag st => exact execQmiErrorResponse_ends n seq tag st s
  | qmiSetRefDone n seq tag st => exact execQmiSetRefDone_ends n seq tag st s
  | qmiDieResetDone n seq tag => exact execQmiDieResetDone_ends n seq tag s
  | qmiAckReceived n seq => exact execQmiAckReceived_ends n seq s
  | qmiNakReceived n seq => exact execQmiNakReceived_ends n seq s
  | qmiCreditReceived n die freed => exact execQmiCreditReceived_ends n die freed s
  | qmiSleepReceived n => exact execQmiSleepReceived_ends n s
  | qmiCrcFailure n newWindow f => exact execQmiCrcFailure_ends n newWindow f s
  | qmiAckTimer n => exact execQmiAckTimer_ends n s
  | qmiLctlRefresh n => exact execQmiLctlRefresh_ends n s
  | qmiReplayTimeout n => exact execQmiReplayTimeout_ends n s
  | fastRetrainDone n ok => exact execFastRetrainDone_ends n ok s
  | fullRetrainDone n ok => exact execFullRetrainDone_ends n ok s
  | qcFastRetrain n => exact execQcFastRetrain_ends n s
  | qcFullRetrain n => exact execQcFullRetrain_ends n s
  | qcOffline n => exact execQcOffline_ends n s
  | qcOfflineTimeout n => exact execQcOfflineTimeout_ends n s
  | qcEn n => exact execQcEn_ends n s
  | packageReady n pkg seen d => exact execPackageReady_ends n pkg seen d s
  | channelTrained n idOk => exact execChannelTrained_ends n idOk s
  | sidebandTempPoll g temps => exact execSidebandTempPoll_ends g temps s
  | sidebandStuckTimeout g => exact execSidebandStuckTimeout_ends g s
  | qgAlert g low pkg status => exact execQgAlert_ends g low pkg status s
  | eyebrightPowerupCompare g levels => exact execEyebrightPowerupCompare_ends g levels s
  | eyebrightCalibration d levels => exact execEyebrightCalibration_ends d levels s
  | eybSweep => exact execEybSweep_ends s
  | fullSweepDone d levels => exact execFullSweepDone_ends d levels s
  | tandemMirror p f es => exact execTandemMirror_ends p f es s
  | tandemForward p f es => exact execTandemForward_ends p f es s
  | mirrorDone p f dirty c region ros => exact execMirrorDone_ends p f dirty c region ros s
  | fwdDurable p f dirty c ftag count => exact execFwdDurable_ends p f dirty c ftag count s
  | fwdRefused p f dirty c ftag status => exact execFwdRefused_ends p f dirty c ftag status s
  | tandemReadAssistRequest p f rtag region line count => exact execTandemReadAssistRequest_ends p f rtag region line count s
  | tandemReadAssistReply p f rtag line last st => exact execTandemReadAssistReply_ends p f rtag line last st s
  | tandemSync p f times src trust => exact execTandemSync_ends p f times src trust s
  | tandemHeartbeat p f seq echo dirty c => exact execTandemHeartbeat_ends p f seq echo dirty c s
  | tandemResync p f es => exact execTandemResync_ends p f es s
  | tandemPair p f m => exact execTandemPair_ends p f m s
  | capState p f c => exact execCapState_ends p f c s
  | draining p f trigger => exact execDraining_ends p f trigger s
  | detachFrame p f => exact execDetachFrame_ends p f s
  | handover p f region term ros => exact execHandover_ends p f region term ros s
  | handoverAck p f region term => exact execHandoverAck_ends p f region term s
  | regionAttr p f region ros ver a => exact execRegionAttr_ends p f region ros ver a s
  | regionState p f region c => exact execRegionState_ends p f region c s
  | resyncPlan p f region count peerMarks => exact execResyncPlan_ends p f region count peerMarks s
  | resyncDone p f region => exact execResyncDone_ends p f region s
  | rekey p f port phase => exact execRekey_ends p f port phase s
  | leaving p f trigger => exact execLeaving_ends p f trigger s
  | allocate p f m => exact execAllocate_ends p f m s
  | tandemFlitDiscard p flit => exact execTandemFlitDiscard_ends p flit s
  | tandemNakReceived p seq => exact execTandemNakReceived_ends p seq s
  | tandemRetrainDone p ok => exact execTandemRetrainDone_ends p ok s
  | tandemPortUp p => exact execTandemPortUp_ends p s
  | tandemHeartbeatTimer => exact execTandemHeartbeatTimer_ends s
  | tandemSyncTimer => exact execTandemSyncTimer_ends s
  | tandemRekeyTimer p => exact execTandemRekeyTimer_ends p s
  | tandemOldKeyExpiry p => exact execTandemOldKeyExpiry_ends p s
  | linkLossTimeout => exact execLinkLossTimeout_ends s
  | fenceIntervalExpiry => exact execFenceIntervalExpiry_ends s
  | strictHoldExpiry => exact execStrictHoldExpiry_ends s
  | pairingRetryTimer => exact execPairingRetryTimer_ends s
  | leaveWaitExpiry => exact execLeaveWaitExpiry_ends s
  | pwrFailN => exact execPwrFailN_ends s
  | vinSense => exact execVinSense_ends s
  | drainComplete => exact execDrainComplete_ends s
  | orderlyFlushComplete => exact execOrderlyFlushComplete_ends s
  | drainReplay => exact execDrainReplay_ends s
  | pbfHashKeyWrite req hi => exact execPbfHashKeyWrite_ends req hi s
  | checkpointChunkWrite => exact execCheckpointChunkWrite_ends s
  | priorityLoadDone c => exact execPriorityLoadDone_ends c s
  | backgroundChunkLoad => exact execBackgroundChunkLoad_ends s
  | hintScan => exact execHintScan_ends s
  | poolPromote => exact execPoolPromote_ends s
  | poolDemote n => exact execPoolDemote_ends n s
  | windowIdleClose st object => exact execWindowIdleClose_ends st object s
  | benchViewRawWrite a d => exact execBenchViewRawWrite_ends a d s
  | rawDiscard a => exact execRawDiscard_ends a s
  | sramScrubVisit m err x both held last => exact execSramScrubVisit_ends m err x both held last s
  | evrTokenRefill code => exact execEvrTokenRefill_ends code s
  | evrArchiveStart => exact execEvrArchiveStart_ends s
  | vaultPageProgramDone page ok => exact execVaultPageProgramDone_ends page ok s
  | vaultPadTimeout kind => exact execVaultPadTimeout_ends kind s
  | csrWrite req read off size full data => exact execCsrWrite_ends req read off size full data s
  | aliasWrite req kind off size full data => exact execAliasWrite_ends req kind off size full data s
  | aonPostedWriteApply => exact execAonPostedWriteApply_ends s
  | schedSlotWrite k word kind data => exact execSchedSlotWrite_ends k word kind data s
  | ptpSync m offset t => exact execPtpSync_ends m offset t s
  | ptpAnnounceTimeout m => exact execPtpAnnounceTimeout_ends m s
  | ptpDelayReqTimer m => exact execPtpDelayReqTimer_ends m s
  | ptpDelayResp m delay => exact execPtpDelayResp_ends m delay s
  | ptpAnnounce m rank => exact execPtpAnnounce_ends m rank s
  | twinSyncTimeout => exact execTwinSyncTimeout_ends s
  | signedTimeExpiry => exact execSignedTimeExpiry_ends s
  | ppsInEdge good => exact execPpsInEdge_ends good s
  | ppsLoss => exact execPpsLoss_ends s
  | catchupEnd => exact execCatchupEnd_ends s
  | epochBoundary => exact execEpochBoundary_ends s
  | belowFloorHoldoffExpiry x => exact execBelowFloorHoldoffExpiry_ends x s
  | noSource => exact execNoSource_ends s
  | wakeDeadlineReached => exact execWakeDeadlineReached_ends s
  | wakeHandshakeStart => exact execWakeHandshakeStart_ends s
  | wakeGrant => exact execWakeGrant_ends s
  | wakeForceAtDeadline => exact execWakeForceAtDeadline_ends s
  | teaselPass k => exact execTeaselPass_ends k s
  | eyebrightCal k => exact execEyebrightCal_ends k s
  | nvFloorWrite k => exact execNvFloorWrite_ends k s
  | wakeReq k => exact execWakeReq_ends k s
  | slotKeepEnter k => exact execSlotKeepEnter_ends k s
  | slotKeepLeave k => exact execSlotKeepLeave_ends k s
  | dramScrub k => exact execDramScrub_ends k s
  | raiseEvent k => exact execRaiseEvent_ends k s
  | sentinelRewrite k => exact execSentinelRewrite_ends k s
  | vaonPowerUp => exact execVaonPowerUp_ends s
  | vaonLoss => exact execVaonLoss_ends s
  | inputGood => exact execInputGood_ends s
  | railQualified k => exact execRailQualified_ends k s
  | railStart k => exact execRailStart_ends k s
  | railRampTimeout k => exact execRailRampTimeout_ends k s
  | railPgDrop k => exact execRailPgDrop_ends k s
  | seqRetryBackoffExpiry => exact execSeqRetryBackoffExpiry_ends s
  | railOff k => exact execRailOff_ends k s
  | offDwellExpiry k => exact execOffDwellExpiry_ends k s
  | railFault k => exact execRailFault_ends k s
  | railGlitch k => exact execRailGlitch_ends k s
  | railRetryWindowExpiry k => exact execRailRetryWindowExpiry_ends k s
  | tOffMinExpiry => exact execTOffMinExpiry_ends s
  | pbShort => exact execPbShort_ends s
  | pbForced => exact execPbForced_ends s
  | mrN low => exact execMrN_ends low s
  | powerUp => exact execPowerUp_ends s
  | idleEntry => exact execIdleEntry_ends s
  | idleExit => exact execIdleExit_ends s
  | keepEntry => exact execKeepEntry_ends s
  | keepEntryComplete => exact execKeepEntryComplete_ends s
  | keepLeave => exact execKeepLeave_ends s
  | keepLeaveComplete => exact execKeepLeaveComplete_ends s
  | throttle => exact execThrottle_ends s
  | throttleEnd => exact execThrottleEnd_ends s
  | trip => exact execTrip_ends s
  | tripHoldExpiry => exact execTripHoldExpiry_ends s
  | psqSeqCommit => exact execPsqSeqCommit_ends s
  | psqMgmapCommit => exact execPsqMgmapCommit_ends s
  | wdgKick value => exact execWdgKick_ends value s
  | stage1 => exact execStage1_ends s
  | stage2 => exact execStage2_ends s
  | warmReset => exact execWarmReset_ends s
  | flashHoldOverrun => exact execFlashHoldOverrun_ends s
  | flashOpDone ok => exact execFlashOpDone_ends ok s
  | flashSuspend => exact execFlashSuspend_ends s
  | flashSuspendTimeout => exact execFlashSuspendTimeout_ends s
  | vddIoBandChange low => exact execVddIoBandChange_ends low s
  | keeperWordCheck word outcome holder => exact execKeeperWordCheck_ends word outcome holder s
  | wstampHiAdvance => exact execWstampHiAdvance_ends s
  | controlCoreRestart cause => exact execControlCoreRestart_ends cause s
  | mingasoStart found bad otpOk => exact execMingasoStart_ends found bad otpOk s
  | trialConfirm ok => exact execTrialConfirm_ends ok s
  | bootstrapWrite offset bytes => exact execBootstrapWrite_ends offset bytes s
  | bootstrapEnd len good => exact execBootstrapEnd_ends len good s
  | dramReadCe addr held => exact execDramReadCe_ends addr held s
  | ceCacheRewrite addr => exact execCeCacheRewrite_ends addr s
  | dramUncorrectableError addr owner held => exact execDramUncorrectableError_ends addr owner held s
  | dramScrubPass => exact execDramScrubPass_ends s
  | drmSreqGo => exact execDrmSreqGo_ends s
  | sreqDone ce ue first => exact execSreqDone_ends ce ue first s
  | ceWindowExpiry c k => exact execCeWindowExpiry_ends c k s
  | rankCopyDone c lost held => exact execRankCopyDone_ends c lost held s
  | ddrAlertN c k second held => exact execDdrAlertN_ends c k second held s
  | dimmThermalPoll d temp => exact execDimmThermalPoll_ends d temp s
  | drmMapCommit => exact execDrmMapCommit_ends s
  | drmFreqSwitch => exact execDrmFreqSwitch_ends s
  | freqSwitchDone ok => exact execFreqSwitchDone_ends ok s
  | dramInjectWrite addr => exact execDramInjectWrite_ends addr s
  | mbxIn c w => exact execMbxIn_ends c w s
  | mbxDoorbell c ok => exact execMbxDoorbell_ends c ok s
  | mbxOutPop c k => exact execMbxOutPop_ends c k s
  | mbxInReset c => exact execMbxInReset_ends c s
  | lGo c ok => exact execLGo_ends c ok s
  | legacyRegisterCollide c off w => exact execLegacyRegisterCollide_ends c off w s
  | mctpMessage c ws ok => exact execMctpMessage_ends c ws ok s
  | i3cPrivateWrite off ws ok rd => exact execI3cPrivateWrite_ends off ws ok rd s
  | pendingCommandComplete c tag ok => exact execPendingCommandComplete_ends c tag ok s
  | identify r => exact execIdentify_ends r s
  | deviceStatus r => exact execDeviceStatus_ends r s
  | channelAssign r => exact execChannelAssign_ends r s
  | channelMode r => exact execChannelMode_ends r s
  | cmdStatus r => exact execCmdStatus_ends r s
  | routeSet r => exact execRouteSet_ends r s
  | routeGet r => exact execRouteGet_ends r s
  | stageWrite r => exact execStageWrite_ends r s
  | stageRead r => exact execStageRead_ends r s
  | regionCreate r => exact execRegionCreate_ends r s
  | regionDelete r => exact execRegionDelete_ends r s
  | regionResize r => exact execRegionResize_ends r s
  | regionSetMode r => exact execRegionSetMode_ends r s
  | regionSetPolicy r => exact execRegionSetPolicy_ends r s
  | regionInfo r => exact execRegionInfo_ends r s
  | regionGrant r => exact execRegionGrant_ends r s
  | regionBind r => exact execRegionBind_ends r s
  | regionUnbind r => exact execRegionUnbind_ends r s
  | regionZero r => exact execRegionZero_ends r s
  | dcMap r => exact execDcMap_ends r s
  | objectCreate r => exact execObjectCreate_ends r s
  | objectDelete r => exact execObjectDelete_ends r s
  | hintSet r => exact execHintSet_ends r s
  | hintExtend r => exact execHintExtend_ends r s
  | objectList r => exact execObjectList_ends r s
  | pairBind r => exact execPairBind_ends r s
  | pairStatus r => exact execPairStatus_ends r s
  | solo r => exact execSolo_ends r s
  | takeover r => exact execTakeover_ends r s
  | fence r => exact execFence_ends r s
  | moveHome r => exact execMoveHome_ends r s
  | detach r => exact execDetach_ends r s
  | rejoin r => exact execRejoin_ends r s
  | regionUnlock r => exact execRegionUnlock_ends r s
  | regionLock r => exact execRegionLock_ends r s
  | cryptoErase r => exact execCryptoErase_ends r s
  | timeKeySet r => exact execTimeKeySet_ends r s
  | macsecCakSet r => exact execMacsecCakSet_ends r s
  | certGet r => exact execCertGet_ends r s
  | lcStatus r => exact execLcStatus_ends r s
  | lcAdvance r => exact execLcAdvance_ends r s
  | debugUnlockChallenge r => exact execDebugUnlockChallenge_ends r s
  | debugUnlockResponse r => exact execDebugUnlockResponse_ends r s
  | debugChallengeExpiry => exact execDebugChallengeExpiry_ends s
  | ropRaise => exact execRopRaise_ends s
  | debugClose => exact execDebugClose_ends s
  | fwChunk r => exact execFwChunk_ends r s
  | fwCommit r => exact execFwCommit_ends r s
  | fwActivate r => exact execFwActivate_ends r s
  | fwInfo r => exact execFwInfo_ends r s
  | vaultRead r lost => exact execVaultRead_ends r lost s
  | evrRead r => exact execEvrRead_ends r s
  | evrClear r => exact execEvrClear_ends r s
  | evrRateSet r => exact execEvrRateSet_ends r s
  | evrStatus r => exact execEvrStatus_ends r s
  | tallyStatus r => exact execTallyStatus_ends r s
  | timeSigned r => exact execTimeSigned_ends r s
  | schedAdd r => exact execSchedAdd_ends r s
  | schedRemove r => exact execSchedRemove_ends r s
  | powerRequestOff r => exact execPowerRequestOff_ends r s
  | powerRequestOn r => exact execPowerRequestOn_ends r s
  | powerRequestKeepEnter r => exact execPowerRequestKeepEnter_ends r s
  | powerRequestKeepLeave r => exact execPowerRequestKeepLeave_ends r s
  | drainAndHalt r => exact execDrainAndHalt_ends r s
  | resetCmd r => exact execResetCmd_ends r s
  | wakeMarginSet r => exact execWakeMarginSet_ends r s
  | lockoutClear r => exact execLockoutClear_ends r s
  | powerStatus r => exact execPowerStatus_ends r s
  | benchViewOpen r => exact execBenchViewOpen_ends r s
  | benchViewClose r => exact execBenchViewClose_ends r s
  | dramScrubRange r => exact execDramScrubRange_ends r s
  | regRead r => exact execRegRead_ends r s
  | regWrite r => exact execRegWrite_ends r s
  | gidSet r => exact execGidSet_ends r s
  | pdCreate r => exact execPdCreate_ends r s
  | pdDestroy r => exact execPdDestroy_ends r s
  | pdToken r => exact execPdToken_ends r s
  | windowCreate r => exact execWindowCreate_ends r s
  | windowDestroy r => exact execWindowDestroy_ends r s
  | cqCreate r => exact execCqCreate_ends r s
  | cqDestroy r => exact execCqDestroy_ends r s
  | sqAttach r => exact execSqAttach_ends r s
  | sqDoorbell r => exact execSqDoorbell_ends r s
  | qpInfo r => exact execQpInfo_ends r s
  | dieMarkFailed r => exact execDieMarkFailed_ends r s
  | orphanSweep r => exact execOrphanSweep_ends r s
  | teaselPassNow r => exact execTeaselPassNow_ends r s
  | tslPassNow => exact execTslPassNow_ends s
  | eyebrightSweep r => exact execEyebrightSweep_ends r s
  | mediumStatus r => exact execMediumStatus_ends r s
  | channelOffline r => exact execChannelOffline_ends r s
  | channelReturn r => exact execChannelReturn_ends r s
  | trngFail => exact execTrngFail_ends s
  | drbgReseed => exact execDrbgReseed_ends s
  | hdmDecoderCommit p l b d => exact execHdmDecoderCommit_ends p l b d s
  | dcAdd p l e => exact execDcAdd_ends p l e s
  | dcRelease p l e => exact execDcRelease_ends p l e s
  | getEventRecords p l k => exact execGetEventRecords_ends p l k s
  | clearEventRecords p l k n => exact execClearEventRecords_ends p l k n s
  | getEventInterruptPolicy p l => exact execGetEventInterruptPolicy_ends p l s
  | setEventInterruptPolicy p l k vector => exact execSetEventInterruptPolicy_ends p l k vector s
  | getFwInfo p l => exact execGetFwInfo_ends p l s
  | transferFw p l action off data ok => exact execTransferFw_ends p l action off data ok s
  | activateFw p l online slot => exact execActivateFw_ends p l online slot s
  | getTimestamp p l => exact execGetTimestamp_ends p l s
  | setTimestamp p l ns => exact execSetTimestamp_ends p l ns s
  | getSupportedLogs p l => exact execGetSupportedLogs_ends p l s
  | getLog p l => exact execGetLog_ends p l s
  | identifyMemoryDevice p l => exact execIdentifyMemoryDevice_ends p l s
  | getHealthInfo p l => exact execGetHealthInfo_ends p l s
  | sanitize p l => exact execSanitize_ends p l s
  | getDcConfiguration p l => exact execGetDcConfiguration_ends p l s
  | getDcExtentList p l => exact execGetDcExtentList_ends p l s
  | addDcResponse p l es => exact execAddDcResponse_ends p l es s
  | releaseDc p l es => exact execReleaseDc_ends p l es s
  | azlerPacket p l ws ok => exact execAzlerPacket_ends p l ws ok s
  | doeDiscovery p l => exact execDoeDiscovery_ends p l s
  | spdmMessage d a => exact execSpdmMessage_ends d a s
  | ideKm p l session stream go => exact execIdeKm_ends p l session stream go s
  | cdatRead p l => exact execCdatRead_ends p l s
  | ideFail p stream => exact execIdeFail_ends p stream s
  | gpfPhase2 p us => exact execGpfPhase2_ends p us s
  | cxlPortReset p => exact execCxlPortReset_ends p s
  | ldReset p l => exact execLdReset_ends p l s
  | surpriseRemoval p => exact execSurpriseRemoval_ends p s
  | cxlPortTrain p width speed flit256 flitLo mld lds => exact execCxlPortTrain_ends p width speed flit256 flitLo mld lds s
  | rdmaWrite n k => exact execRdmaWrite_ends n k s
  | rdmaWriteImm n k imm => exact execRdmaWriteImm_ends n k imm s
  | rdmaRead n psn key va len ce icrc => exact execRdmaRead_ends n psn key va len ce icrc s
  | rdmaCmpswap n psn key va compare swap ce icrc => exact execRdmaCmpswap_ends n psn key va compare swap ce icrc s
  | rdmaFetchadd n psn key va add ce icrc => exact execRdmaFetchadd_ends n psn key va add ce icrc s
  | rdmaAtomicWrite n psn key va d ce icrc => exact execRdmaAtomicWrite_ends n psn key va d ce icrc s
  | rdmaFlush n psn key va len ce icrc => exact execRdmaFlush_ends n psn key va len ce icrc s
  | rdmaSend n psn ws ce icrc ok => exact execRdmaSend_ends n psn ws ce icrc ok s
  | rdmaUnsupportedPacket m n psn => exact execRdmaUnsupportedPacket_ends m n psn s
  | rdmaPeerAck n psn => exact execRdmaPeerAck_ends n psn s
  | rdmaPeerNak n psn code => exact execRdmaPeerNak_ends n psn code s
  | rdmaReadResponse n psn off data last => exact execRdmaReadResponse_ends n psn off data last s
  | requesterAckTimeout n => exact execRequesterAckTimeout_ends n s
  | mgmtRnrRetry n => exact execMgmtRnrRetry_ends n s
  | sprayHoleTimeout n => exact execSprayHoleTimeout_ends n s
  | cnpReceived n => exact execCnpReceived_ends n s
  | ccRateIncreaseTimer n => exact execCcRateIncreaseTimer_ends n s
  | cmReq r => exact execCmReq_ends r s
  | pfcFrame p prio pause => exact execPfcFrame_ends p prio pause s
  | pfcBufferLevel p free => exact execPfcBufferLevel_ends p free s
  | pfcStorm m => exact execPfcStorm_ends m s
  | mkaFrame m sc an sa => exact execMkaFrame_ends m sc an sa s
  | icvFail m => exact execIcvFail_ends m s
  | arpRequest m g => exact execArpRequest_ends m g s
  | neighborDiscovery m g => exact execNeighborDiscovery_ends m g s
  | icmpEcho m g => exact execIcmpEcho_ends m g s
  | macLinkChange m up => exact execMacLinkChange_ends m up s
  | dramScrubBurstEnd => exact execDramScrubBurstEnd_ends s
  | tdmLanemapCommit => exact execTdmLanemapCommit_ends s
  | tandemAckTimer p => exact execTandemAckTimer_ends p s
  | tandemFlitAck p seq => exact execTandemFlitAck_ends p seq s
  | trngOk => exact execTrngOk_ends s
  | backgroundOperationComplete p l => exact execBackgroundOperationComplete_ends p l s

/-- Settles O39: each command's meaning keeps every part that its list does not name. -/
theorem commandFrames : Obligations.CommandFrames := fun i s t h => exec_ends i s t h

end Sys2Proof.Whole

namespace Sys2Proof.Whole
open Sys2Proof.Machine State

/-! ### One-time-programmable bits (R387 to R390, R425) -/

/-- Every next state that an answer gives has the OTP bits of `s`, or more of them blown. -/
def GrowsTo (s : State) (r : Res) : Prop := ∀ t, r = .next t → s.FusesGrow t

theorem GrowsTo.next {s t : State} (h : s.FusesGrow t) : GrowsTo s (.next t) := fun _ e => by cases e; exact h

theorem GrowsTo.ite {s : State} {a b : Res} {c : Prop} [Decidable c] (ha : c → GrowsTo s a) (hb : ¬ c → GrowsTo s b) :
    GrowsTo s (if c then a else b) := by
  by_cases h : c
  · rw [if_pos h]; exact ha h
  · rw [if_neg h]; exact hb h

/-- A command whose list does not name the OTP bits leaves them. -/
theorem growsTo_of_touches (i : Instr) (s : State) (h : Part.fuse ∉ i.touches) : GrowsTo s (exec i s) :=
  fun t e => .of_keeps (exec_ends i s t e) h

theorem pageGo_fuses (s : State) (off : Nat) : s.FusesGrow (s.pageGo off) := by
  unfold State.pageGo
  split
  · exact .ite (fun _ => pageSubmit_fuses _ _ _) fun _ => .ite (fun _ => catchUp_fuses _ _) fun _ => .refl _
  · exact .refl _

theorem arriveWords_fuses (s : State) (c : Fin 64) (via : Transport) (ws : List Word) (ok : Bool) :
    s.FusesGrow (s.arriveWords c via ws ok) := arrive_fuses _ _ _

/-- Words that arrive at a channel after what touches no OTP bit. -/
theorem arriveWords_after {w : List Part} {s t : State} (h : Keeps w s t) (hw : Part.fuse ∉ w) (c : Fin 64) (via : Transport) (ws : List Word)
    (ok : Bool) : s.FusesGrow (t.arriveWords c via ws ok) := (FusesGrow.of_keeps h hw).trans (arriveWords_fuses t c via ws ok)

/-! Each command that can blow an OTP bit. -/

theorem csrWrite_fuses (req : Requester) (read : Option AccessKind) (off : Fin 4194304) (size : Nat) (full : Bool) (data : Dword) (s : State) :
    GrowsTo s (execCsrWrite req read off size full data s) := by
  have bus : ∀ a : BusAccess, s.FusesGrow (s.busAccess a) := fun a => .of_keeps (busAccess_keeps s a) (by decide)
  exact .next (.ite (fun _ => bus _) fun _ => (bus _).trans (pageGo_fuses _ _))

theorem aonPostedWriteApply_fuses (s : State) : GrowsTo s (execAonPostedWriteApply s) := by
  unfold execAonPostedWriteApply
  refine .ite (fun _ => .next (.refl s)) fun _ => ?_
  split
  · exact .next (.refl s)
  · rename_i w ws _
    have applied : s.FusesGrow (({ s with csr := { s.csr with posted := ws } } : State).applyPosted w).busResume :=
      .after (busResume_keeps _) (by decide) (.after (applyPosted_keeps _ _) (by decide) ⟨BitVec.and_self, Nat.le_refl _, Nat.le_refl _⟩)
    exact .next (applied.trans (.foldl _ (fun t b => pageGo_fuses t _) _))

theorem mingasoStart_fuses (found : Option (BitVec 5)) (bad : List Nat) (otpOk : Bool) (s : State) :
    GrowsTo s (execMingasoStart found bad otpOk s) := by
  have start : s.FusesGrow ((s.setFlash { s.flash with cores := .running }).wdgStart) :=
    .after (wdgStart_keeps _) (by decide) (.of_keeps (setFlash_keeps _ _) (by decide))
  exact .ite (fun _ => .next (.refl s)) fun _ => .next (.trans (.after (macResume_keeps _) (by decide)
    (start.trans (.ite (fun _ => .of_keeps (activated_keeps _) (by decide)) fun _ => firstStart_fuses _ _ _ _))) (catchUpAll_fuses _))

theorem i3cPrivateWrite_fuses (off : BitVec 16) (ws : List Word) (ok : Bool) (rd : Nat) (s : State) :
    GrowsTo s (execI3cPrivateWrite off ws ok rd s) := by
  have offset : s.FusesGrow (s.setChan 0 { s.chan 0 with i3cOff := off }) := .of_keeps (setChan_keeps _ _ _) (by decide)
  have words : ∀ p : State × Nat, p.1.FusesGrow (ws.foldl (fun (p : State × Nat) w => (p.1.i3cWord p.2 w, p.2 + 4)) p).1 := by
    intro p
    induction ws generalizing p with
    | nil => exact .refl _
    | cons w ws ih => exact (FusesGrow.of_keeps (i3cWord_keeps p.1 p.2 w) (by decide)).trans (ih (p.1.i3cWord p.2 w, p.2 + 4))
  have written := FusesGrow.ite (c := (s.chan 0).legacy = true)
    (fun _ => (offset.trans (words (_, off.toNat))).trans (pageSubmit_fuses _ 0 ok)) fun _ => offset
  exact .ite (fun _ => .next (.refl s)) fun _ => .next (.ite (fun _ => written) fun _ => .after (emit_keeps _ _) (by decide) written)

theorem azlerPacket_fuses (p : Fin 4) (l : Fin 16) (ws : List Word) (ok : Bool) (s : State) : GrowsTo s (execAzlerPacket p l ws ok s) := by
  have idle : s.FusesGrow s.wakeIdle := .of_keeps (wakeIdle_keeps s) (by decide)
  refine .ite (fun _ => .next (.after (emit_keeps _ _) (by decide) (idle.trans ?_))) fun _ => .next (.refl s)
  dsimp only
  split
  · exact .refl _
  · exact arriveWords_fuses _ _ _ _ _

theorem rdmaSend_fuses (n : Fin 65536) (psn : BitVec 24) (ws : List Word) (ce icrc ok : Bool) (s : State) :
    GrowsTo s (execRdmaSend n psn ws ce icrc ok s) := by
  have judged := packetIn_keeps s n psn ce icrc
  unfold execRdmaSend
  generalize s.packetIn n psn ce icrc = x at judged ⊢
  obtain ⟨s1, _ | _⟩ := x
  · exact .next (.of_keeps judged (by decide))
  have nak : ∀ code, s.FusesGrow (s1.nak n psn code) := fun code => .of_keeps (.after (nak_keeps _ _ _ _) (by decide) judged) (by decide)
  dsimp only
  split
  · exact .next (nak 1)
  split
  · exact .next (.of_keeps (.after (seqNak_keeps _ _) (by decide) judged) (by decide))
  · exact .ite (fun _ => .next (nak 1)) fun _ => .ite
      (fun _ => .next (.of_keeps (.after (nak_keeps _ _ _ _) (by decide) (.after (setQp_keeps _ _ _) (by decide) judged)) (by decide))) fun _ => 
      .next (arriveWords_after (.after (emit_keeps _ _) (by decide) (.after (setQp_keeps _ _ _) (by decide) judged)) (by decide) _ _ _ _)
  · exact .next (.of_keeps (.after (emit_keeps _ _) (by decide) (.after (dup_keeps _ _ _) (by decide) judged)) (by decide))

theorem rdmaPeerAck_fuses (n : Fin 65536) (psn : BitVec 24) (s : State) : GrowsTo s (execRdmaPeerAck n psn s) := by
  have taken : ∀ q, s.FusesGrow (s.setQp n q) := fun q => .of_keeps (setQp_keeps _ _ _) (by decide)
  unfold execRdmaPeerAck
  refine .ite (fun _ => .next (.refl s)) fun _ => ?_
  split
  · exact .next ((FusesGrow.after (setChan_keeps _ _ _) (by decide) (taken _)).trans (catchUp_fuses _ _))
  · exact .next (.after (settleRdma_keeps _) (by decide) (.after (flightEnd_keeps _ _ _) (by decide) (taken _)))

theorem trialConfirm_fuses (ok : Bool) (s : State) : GrowsTo s (execTrialConfirm ok s) :=
  .ite (fun _ => .next (.refl s)) fun _ => .next (.after (record_keeps _ _ _ _ _ _) (by decide) (.after (cause_keeps _ _ _ _ _) (by decide)
    ((FusesGrow.of_keeps (putSlots_keeps _ _) (by decide)).trans (arbFollow_fuses _ _))))

/-- No command clears an OTP bit: one that can blow them by what it runs, any other because it does not touch them. -/
theorem exec_fuses (i : Instr) (s : State) : GrowsTo s (exec i s) := by
  by_cases h : Part.fuse ∈ i.touches
  swap
  · exact growsTo_of_touches i s h
  cases i
  case csrWrite => exact csrWrite_fuses _ _ _ _ _ _ s
  case aonPostedWriteApply => exact aonPostedWriteApply_fuses s
  case mingasoStart => exact mingasoStart_fuses _ _ _ s
  case mbxDoorbell => exact .next (.ite (fun _ => (FusesGrow.of_keeps (mbxBell_keeps _ _) (by decide)).trans (pageSubmit_fuses _ _ _)) fun _ => .refl s)
  case mbxOutPop => exact .next (.ite (fun _ => (FusesGrow.of_keeps (mbxPop_keeps _ _ _) (by decide)).trans (catchUp_fuses _ _)) fun _ => .refl s)
  case lGo => exact .next (.ite (fun _ => (FusesGrow.of_keeps (legacyWrite_keeps _ _ _ _ _) (by decide)).trans (pageSubmit_fuses _ _ _)) fun _ => .refl s)
  case mctpMessage => exact .next (.ite (fun _ => arriveWords_fuses _ _ _ _ _) fun _ => .refl s)
  case i3cPrivateWrite => exact i3cPrivateWrite_fuses _ _ _ _ s
  case pendingCommandComplete => exact .next (.ite (fun _ => pendingDone_fuses _ _ _ _) fun _ => .refl s)
  case azlerPacket => exact azlerPacket_fuses _ _ _ _ s
  case rdmaSend => exact rdmaSend_fuses _ _ _ _ _ _ s
  case rdmaPeerAck => exact rdmaPeerAck_fuses _ _ s
  case trialConfirm => exact trialConfirm_fuses _ s
  case lcAdvance r => exact .next (azLcAdvance_fuses s r)
  all_goals simp [Instr.touches] at h

/-- A tick of the clock with no command waiting. -/
theorem idle_fuses (s : State) : s.FusesGrow s.idle := by
  unfold State.idle
  exact .trans (.after (fireNone_keeps _ _) (by decide) (.after (stormsEnd_keeps _) (by decide) (.of_keeps (clockTick_keeps s) (by decide))))
    (catchUpAll_fuses _)

theorem life_eq_ended (x : LifeState) : x = .ended ↔ LifeState.ended.code ≤ x.code := by cases x <;> decide

/-- Settles O40: a step carries out a command or idles, each runs operations that only blow OTP bits, and the code of END is the largest. -/
theorem otpIsOneWay : Obligations.OtpIsOneWay := by
  intro s t h
  have grows : s.FusesGrow t := by
    unfold step at h
    split at h
    · rw [← Host.Outcome.next.inj h]
      exact idle_fuses s
    · rename_i rest _
      have taken : s.FusesGrow { s with pending := rest } := .of_keeps (w := [.pending]) (.set_pending (by decide) (.refl _ s)) (by decide)
      exact taken.trans (exec_fuses _ _ t h)
  refine ⟨grows, fun ended => (life_eq_ended _).2 ?_⟩
  rw [← ended]
  exact grows.2.2

end Sys2Proof.Whole

namespace Sys2Proof.Whole
open Sys2Proof.Machine

/-! ### No command stops (log entry 6) -/

/-- The answer is a next state: neither a fault nor a refusal. -/
def Runs (r : Res) : Prop := ∃ t, r = .next t

theorem Runs.next (t : State) : Runs (.next t) := ⟨t, rfl⟩

theorem Runs.ite {a b : Res} {c : Prop} [Decidable c] (ha : c → Runs a) (hb : ¬ c → Runs b) : Runs (if c then a else b) := by
  by_cases h : c
  · rw [if_pos h]; exact ha h
  · rw [if_neg h]; exact hb h

/-- A guard before the effect, and the state as it was where it fails. -/
theorem Runs.either {s t : State} {c : Prop} [Decidable c] : Runs (if c then .next s else .next t) :=
  .ite (fun _ => .next _) fun _ => .next _

/-- A frame that is not accepted, or comes outside PAIRED, is dropped. -/
theorem onFrame_runs (s : State) (p : Bool) (f : TFrame) (k : State → State) : Runs (onFrame s p f k) := by
  unfold onFrame
  split
  · exact .either
  · exact .next _

theorem onAnyFrame_runs (s : State) (p : Bool) (f : TFrame) (k : State → State) : Runs (onAnyFrame s p f k) := by
  unfold onAnyFrame
  split <;> exact .next _

/-! Commands whose effect depends on more than a guard. -/

theorem cxlHoldTimeout_runs (p : Fin 4) (s : State) : Runs (execCxlHoldTimeout p s) := by
  unfold execCxlHoldTimeout
  repeat' split
  all_goals exact .next _

theorem keepBurstEnd_runs (s : State) : Runs (execKeepBurstEnd s) := by
  unfold execKeepBurstEnd
  repeat' split
  all_goals exact .next _

theorem tandemPair_runs (p : Bool) (f : TFrame) (m : PairMove) (s : State) : Runs (execTandemPair p f m s) := by
  unfold execTandemPair
  repeat' split
  all_goals exact .next _

theorem allocate_runs (p : Bool) (f : TFrame) (m : AllocMsg) (s : State) : Runs (execAllocate p f m s) := by
  unfold execAllocate
  repeat' split
  all_goals exact .next _

theorem tandemRetrainDone_runs (p : Bool) (ok : Bool) (s : State) : Runs (execTandemRetrainDone p ok s) := by
  unfold execTandemRetrainDone
  dsimp only
  repeat' split
  all_goals exact .next _

theorem drainComplete_runs (s : State) : Runs (execDrainComplete s) := by
  unfold execDrainComplete
  split <;> exact .next _

theorem orderlyFlushComplete_runs (s : State) : Runs (execOrderlyFlushComplete s) := by
  unfold execOrderlyFlushComplete
  split <;> exact .next _

theorem vaultPadTimeout_runs (kind : Fin 4) (s : State) : Runs (execVaultPadTimeout kind s) := by
  unfold execVaultPadTimeout
  split <;> exact .next _

theorem aonPostedWriteApply_runs (s : State) : Runs (execAonPostedWriteApply s) := by
  refine .ite (fun _ => .next _) fun _ => ?_
  split <;> exact .next _

theorem schedSlotWrite_runs (k : Fin 256) (word : Fin 6) (kind : AccessKind) (data : Word) (s : State) : Runs (execSchedSlotWrite k word kind data s) := by
  unfold execSchedSlotWrite
  dsimp only
  repeat' split
  all_goals exact .next _

theorem pbForced_runs (s : State) : Runs (execPbForced s) := by
  refine .ite (fun _ => .next _) fun _ => ?_
  split <;> exact .next _

theorem mrN_runs (low : Bool) (s : State) : Runs (execMrN low s) := by
  refine .ite (fun _ => .next _) fun _ => ?_
  split <;> exact .next _

theorem warmReset_runs (s : State) : Runs (execWarmReset s) := by
  refine .ite (fun _ => .next _) fun _ => ?_
  split <;> exact .next _

theorem flashOpDone_runs (ok : Bool) (s : State) : Runs (execFlashOpDone ok s) := by
  unfold execFlashOpDone
  repeat' split
  all_goals exact .next _

theorem dramUncorrectableError_runs (addr : Nat) (owner : DramArray) (held : List DramArray) (s : State) : Runs (execDramUncorrectableError addr owner held s) := by
  unfold execDramUncorrectableError
  repeat' split
  all_goals exact .next _

theorem sreqDone_runs (ce : Nat) (ue : Nat) (first : BitVec 64) (s : State) : Runs (execSreqDone ce ue first s) := by
  unfold execSreqDone
  split <;> exact .next _

theorem rankCopyDone_runs (c : Fin 8) (lost : List DramArray) (held : List DramArray) (s : State) : Runs (execRankCopyDone c lost held s) := by
  unfold execRankCopyDone
  repeat' split
  all_goals exact .next _

theorem hdmDecoderCommit_runs (p : Fin 4) (l : Fin 16) (b : Fin 4) (d : Decoder) (s : State) : Runs (execHdmDecoderCommit p l b d s) := by
  unfold execHdmDecoderCommit
  dsimp only
  repeat' split
  all_goals exact .next _

theorem dcAdd_runs (p : Fin 4) (l : Fin 16) (e : DcExtent) (s : State) : Runs (execDcAdd p l e s) := by
  unfold execDcAdd
  dsimp only
  repeat' split
  all_goals exact .next _

theorem rdmaSend_runs (n : Fin 65536) (psn : BitVec 24) (ws : List Word) (ce : Bool) (icrc : Bool) (ok : Bool) (s : State) : Runs (execRdmaSend n psn ws ce icrc ok s) := by
  unfold execRdmaSend
  dsimp only
  repeat' split
  all_goals exact .next _

theorem rdmaUnsupportedPacket_runs (m : Fin 32) (n : Option (Fin 65536)) (psn : BitVec 24) (s : State) : Runs (execRdmaUnsupportedPacket m n psn s) := by
  unfold execRdmaUnsupportedPacket
  repeat' split
  all_goals exact .next _

theorem rdmaPeerAck_runs (n : Fin 65536) (psn : BitVec 24) (s : State) : Runs (execRdmaPeerAck n psn s) := by
  refine .ite (fun _ => .next _) fun _ => ?_
  split <;> exact .next _

theorem rdmaPeerNak_runs (n : Fin 65536) (psn : BitVec 24) (code : Fin 5) (s : State) : Runs (execRdmaPeerNak n psn code s) := by
  unfold execRdmaPeerNak
  dsimp only
  repeat' split
  all_goals exact .next _

theorem rdmaReadResponse_runs (n : Fin 65536) (psn : BitVec 24) (off : Nat) (data : List Byte) (last : Bool) (s : State) : Runs (execRdmaReadResponse n psn off data last s) := by
  unfold execRdmaReadResponse
  dsimp only
  repeat' split
  all_goals exact .next _

theorem requesterAckTimeout_runs (n : Fin 65536) (s : State) : Runs (execRequesterAckTimeout n s) := by
  unfold execRequesterAckTimeout
  dsimp only
  repeat' split
  all_goals exact .next _

theorem mgmtRnrRetry_runs (n : Fin 65536) (s : State) : Runs (execMgmtRnrRetry n s) := by
  unfold execMgmtRnrRetry
  dsimp only
  repeat' split
  all_goals exact .next _

/-- Each command's meaning is a next state: behind a guard, behind the checks of a frame, of an LD or of its own, or at once. -/
theorem exec_runs (i : Instr) (s : State) : Runs (exec i s) := by
  cases i
  case cxlHoldTimeout => exact cxlHoldTimeout_runs _ s
  case keepBurstEnd => exact keepBurstEnd_runs s
  case tandemMirror => exact onFrame_runs _ _ _ _
  case tandemForward => exact onFrame_runs _ _ _ _
  case mirrorDone => exact onFrame_runs _ _ _ _
  case fwdDurable => exact onFrame_runs _ _ _ _
  case fwdRefused => exact onFrame_runs _ _ _ _
  case tandemReadAssistRequest => exact onFrame_runs _ _ _ _
  case tandemReadAssistReply => exact onFrame_runs _ _ _ _
  case tandemSync => exact onAnyFrame_runs _ _ _ _
  case tandemHeartbeat => exact onAnyFrame_runs _ _ _ _
  case tandemResync => exact onFrame_runs _ _ _ _
  case tandemPair => exact tandemPair_runs _ _ _ s
  case capState => exact onFrame_runs _ _ _ _
  case draining => exact onFrame_runs _ _ _ _
  case detachFrame => exact onFrame_runs _ _ _ _
  case handover => exact onFrame_runs _ _ _ _
  case handoverAck => exact onFrame_runs _ _ _ _
  case regionAttr => exact onAnyFrame_runs _ _ _ _
  case regionState => exact onAnyFrame_runs _ _ _ _
  case resyncPlan => exact onAnyFrame_runs _ _ _ _
  case resyncDone => exact onFrame_runs _ _ _ _
  case rekey => exact onAnyFrame_runs _ _ _ _
  case leaving => exact onFrame_runs _ _ _ _
  case allocate => exact allocate_runs _ _ _ s
  case tandemFlitDiscard => exact .either
  case tandemNakReceived => exact .either
  case tandemRetrainDone => exact tandemRetrainDone_runs _ _ s
  case tandemPortUp => exact .either
  case tandemHeartbeatTimer => exact .either
  case tandemSyncTimer => exact .either
  case tandemRekeyTimer => exact .either
  case linkLossTimeout => exact .either
  case fenceIntervalExpiry => exact .either
  case strictHoldExpiry => exact .either
  case pairingRetryTimer => exact .either
  case leaveWaitExpiry => exact .either
  case drainComplete => exact drainComplete_runs s
  case orderlyFlushComplete => exact orderlyFlushComplete_runs s
  case sramScrubVisit => exact .either
  case evrTokenRefill => exact .either
  case evrArchiveStart => exact .either
  case vaultPageProgramDone => exact .either
  case vaultPadTimeout => exact vaultPadTimeout_runs _ s
  case aonPostedWriteApply => exact aonPostedWriteApply_runs s
  case schedSlotWrite => exact schedSlotWrite_runs _ _ _ _ s
  case ptpSync => exact .either
  case ppsInEdge => exact .ite (fun _ => .next _) fun _ => .either
  case epochBoundary => exact .either
  case noSource => exact .either
  case vaonPowerUp => exact .either
  case vaonLoss => exact .either
  case inputGood => exact .either
  case railPgDrop => exact .either
  case seqRetryBackoffExpiry => exact .either
  case railFault => exact .either
  case pbShort => exact .either
  case pbForced => exact pbForced_runs s
  case mrN => exact mrN_runs _ s
  case idleEntry => exact .either
  case stage1 => exact .either
  case stage2 => exact .either
  case warmReset => exact warmReset_runs s
  case flashHoldOverrun => exact .either
  case flashOpDone => exact flashOpDone_runs _ s
  case flashSuspend => exact .either
  case flashSuspendTimeout => exact .either
  case keeperWordCheck => exact .either
  case wstampHiAdvance => exact .either
  case mingasoStart => exact .either
  case trialConfirm => exact .either
  case bootstrapWrite => exact .either
  case bootstrapEnd => exact .either
  case dramUncorrectableError => exact dramUncorrectableError_runs _ _ _ s
  case sreqDone => exact sreqDone_runs _ _ _ s
  case rankCopyDone => exact rankCopyDone_runs _ _ _ s
  case ddrAlertN => exact .either
  case dimmThermalPoll => exact .either
  case freqSwitchDone => exact .ite (fun _ => .next _) fun _ => .either
  case i3cPrivateWrite => exact .either
  case hdmDecoderCommit => exact hdmDecoderCommit_runs _ _ _ _ s
  case dcAdd => exact dcAdd_runs _ _ _ s
  case dcRelease => exact .either
  case getEventRecords => exact .either
  case clearEventRecords => exact .either
  case getEventInterruptPolicy => exact .either
  case setEventInterruptPolicy => exact .either
  case getFwInfo => exact .either
  case transferFw => exact .either
  case activateFw => exact .either
  case getTimestamp => exact .either
  case setTimestamp => exact .either
  case getSupportedLogs => exact .either
  case getLog => exact .either
  case identifyMemoryDevice => exact .either
  case getHealthInfo => exact .either
  case sanitize => exact .either
  case getDcConfiguration => exact .either
  case getDcExtentList => exact .either
  case addDcResponse => exact .either
  case releaseDc => exact .either
  case azlerPacket => exact .either
  case doeDiscovery => exact .either
  case ideKm => exact .either
  case cdatRead => exact .either
  case ideFail => exact .either
  case gpfPhase2 => exact .either
  case cxlPortReset => exact .either
  case ldReset => exact .either
  case surpriseRemoval => exact .either
  case cxlPortTrain => exact .ite (fun _ => .next _) fun _ => .either
  case rdmaSend => exact rdmaSend_runs _ _ _ _ _ _ s
  case rdmaUnsupportedPacket => exact rdmaUnsupportedPacket_runs _ _ _ s
  case rdmaPeerAck => exact rdmaPeerAck_runs _ _ s
  case rdmaPeerNak => exact rdmaPeerNak_runs _ _ _ s
  case rdmaReadResponse => exact rdmaReadResponse_runs _ _ _ _ _ s
  case requesterAckTimeout => exact requesterAckTimeout_runs _ s
  case mgmtRnrRetry => exact mgmtRnrRetry_runs _ s
  case sprayHoleTimeout => exact .either
  case cnpReceived => exact .ite (fun _ => .next _) fun _ => .either
  case ccRateIncreaseTimer => exact .either
  case cmReq => exact .either
  case pfcFrame => exact .either
  case pfcBufferLevel => exact .ite (fun _ => .next _) fun _ => .ite (fun _ => .next _) fun _ => .either
  case pfcStorm => exact .either
  case icvFail => exact .either
  case macLinkChange => exact .either
  case dramScrubBurstEnd => exact .either
  case tandemAckTimer => exact .either
  case tandemFlitAck => exact .either
  case backgroundOperationComplete => exact .either
  all_goals exact .next _

theorem pending_notMem_touches (i : Instr) : Part.pending ∉ i.touches := by
  cases i <;> simp [Instr.touches]

/-- Settles O41: every command's meaning is a next state, and no command's list names the queue. -/
theorem noCommandStops : Obligations.NoCommandStops := by
  intro i s
  obtain ⟨t, h⟩ := exec_runs i s
  exact ⟨t, h, (exec_ends i s t h).pending (pending_notMem_touches i)⟩

end Sys2Proof.Whole

/-! Dual-copy records (R405, R406): a write goes to the copy that was not chosen, under the next SEQ. -/

namespace Sys2Proof.NvRecords

open Sys2Proof.Machine

/-! ### The copy chosen -/

/-- Copy A is chosen only where it is good and copy B is not, or is no newer. -/
theorem choose_a {r : NvRecord} {c : NvCopy} (h : r.choose.1 = some (true, c)) : c = r.a ∧ r.a.ok = true ∧ (r.b.ok = true → r.b.seq ≤ r.a.seq) := by
  unfold NvRecord.choose at h
  split at h
  case h_1 => cases h
  case h_2 ha hb => cases h; exact ⟨rfl, ha, fun k => by rw [hb] at k; cases k⟩
  case h_3 => cases h
  case h_4 ha _ =>
    have newer : ¬ r.a.seq < r.b.seq := fun k => by
      rw [if_neg (by omega), if_pos k] at h
      cases h
    refine ⟨?_, ha, fun _ => by omega⟩
    repeat' split at h
    all_goals first | (cases h; rfl) | cases h

/-- Copy B is chosen only where it is good and copy A is not, or is no newer. -/
theorem choose_b {r : NvRecord} {c : NvCopy} (h : r.choose.1 = some (false, c)) : c = r.b ∧ r.b.ok = true ∧ (r.a.ok = true → r.a.seq ≤ r.b.seq) := by
  unfold NvRecord.choose at h
  split at h
  case h_1 => cases h
  case h_2 => cases h
  case h_3 ha hb => cases h; exact ⟨rfl, hb, fun k => by rw [ha] at k; cases k⟩
  case h_4 _ hb =>
    have newer : ¬ r.b.seq < r.a.seq := fun k => by
      rw [if_pos k] at h
      cases h
    refine ⟨?_, hb, fun _ => by omega⟩
    repeat' split at h
    all_goals first | (cases h; rfl) | cases h

/-- Where none is chosen neither copy is good. -/
theorem choose_none {r : NvRecord} (h : r.choose.1 = none) : r.a.ok = false ∧ r.b.ok = false := by
  unfold NvRecord.choose at h
  split at h
  case h_1 ha hb => exact ⟨ha, hb⟩
  case h_2 => cases h
  case h_3 => cases h
  case h_4 =>
    repeat' split at h
    all_goals cases h

/-- A good copy A is chosen alone where copy B is bad or older. -/
theorem choose_eq_a {r : NvRecord} (ha : r.a.ok = true) (hb : r.b.ok = true → r.b.seq < r.a.seq) : r.choose = (some (true, r.a), false) := by
  unfold NvRecord.choose
  cases h : r.b.ok with
  | false => rw [ha]
  | true => rw [ha]; exact if_pos (hb h)

/-- A good copy B is chosen alone where copy A is bad or older. -/
theorem choose_eq_b {r : NvRecord} (hb : r.b.ok = true) (ha : r.a.ok = true → r.a.seq < r.b.seq) : r.choose = (some (false, r.b), false) := by
  unfold NvRecord.choose
  cases h : r.a.ok with
  | false => rw [hb]
  | true =>
    rw [hb]
    have older := ha h
    exact (if_neg (by omega)).trans (if_pos older)

/-- A torn copy is bad, so the other is chosen. -/
theorem choose_torn_a (r : NvRecord) (c : NvCopy) (ok : r.b.ok = true) :
    ({ r with a := { c with valid := false } } : NvRecord).choose.1 = some (false, r.b) :=
  congrArg Prod.fst (choose_eq_b (r := ⟨{ c with valid := false }, r.b⟩) ok fun k => by simp [NvCopy.ok] at k)

theorem choose_torn_b (r : NvRecord) (c : NvCopy) (ok : r.a.ok = true) :
    ({ r with b := { c with valid := false } } : NvRecord).choose.1 = some (true, r.a) :=
  congrArg Prod.fst (choose_eq_a (r := ⟨r.a, { c with valid := false }⟩) ok fun k => by simp [NvCopy.ok] at k)

/-! ### What a write leaves -/

/-- The record after a write at write-stamp `stamp`. -/
def written (r : NvRecord) (stamp : Nat) (p : List Nat) : NvRecord :=
  let (seq, toB) := match r.choose.1 with
    | none => (1, true)
    | some (isA, c) => (if c.seq = 0xFFFFFFFF then 1 else c.seq + 1, isA)
  let c : NvCopy := { valid := true, seq := seq, stamp := stamp, payload := p }
  if toB then { r with b := c } else { r with a := c }

theorem nvWrite_records (s : State) (key : Nat) (p : List Nat) : ∃ stamp,
    (s.nvWrite key p).nv.records = Tab.put {} s.nv.records key (written (Tab.get {} s.nv.records key) stamp p) := by
  unfold State.nvWrite
  split <;> exact ⟨_, rfl⟩

/-- The copy written, under SEQ `seq`. -/
def copyOf (seq stamp : Nat) (p : List Nat) : NvCopy := { valid := true, seq := seq, stamp := stamp, payload := p }

theorem copyOf_ok {seq : Nat} (h : 0 < seq) (stamp : Nat) (p : List Nat) : (copyOf seq stamp p).ok = true := by
  have : seq ≠ 0 := by omega
  simp [copyOf, NvCopy.ok, this]

theorem written_a {r : NvRecord} {c : NvCopy} (h : r.choose.1 = some (true, c)) (hs : c.seq < 0xFFFFFFFF) (stamp : Nat) (p : List Nat) :
    written r stamp p = { r with b := copyOf (r.a.seq + 1) stamp p } := by
  have hc := (choose_a h).1
  subst hc
  simp only [written, h, Nat.ne_of_lt hs, if_true, if_false, copyOf]

theorem written_b {r : NvRecord} {c : NvCopy} (h : r.choose.1 = some (false, c)) (hs : c.seq < 0xFFFFFFFF) (stamp : Nat) (p : List Nat) :
    written r stamp p = { r with a := copyOf (r.b.seq + 1) stamp p } := by
  have hc := (choose_b h).1
  subst hc
  simp only [written, h, Nat.ne_of_lt hs, Bool.false_eq_true, if_false, copyOf]

theorem written_none {r : NvRecord} (h : r.choose.1 = none) (stamp : Nat) (p : List Nat) :
    written r stamp p = { r with b := copyOf 1 stamp p } := by
  simp only [written, h, if_true, copyOf]

/-- The record written reads as what was written: its SEQ is above that of the other copy. -/
theorem choose_written (r : NvRecord) (stamp : Nat) (p : List Nat) (hs : ∀ b c, r.choose.1 = some (b, c) → c.seq < 0xFFFFFFFF) :
    ∃ b c, (written r stamp p).choose = (some (b, c), false) ∧ c.payload = p := by
  cases h : r.choose.1 with
  | none =>
    obtain ⟨ha, -⟩ := choose_none h
    rw [written_none h]
    exact ⟨false, _, choose_eq_b (copyOf_ok Nat.one_pos _ _) (fun k => by rw [ha] at k; cases k), rfl⟩
  | some x =>
    obtain ⟨_ | _, c⟩ := x
    · rw [written_b h (hs _ _ h)]
      exact ⟨true, _, choose_eq_a (copyOf_ok (Nat.succ_pos _) _ _) (fun _ => Nat.lt_succ_self _), rfl⟩
    · rw [written_a h (hs _ _ h)]
      exact ⟨false, _, choose_eq_b (copyOf_ok (Nat.succ_pos _) _ _) (fun _ => Nat.lt_succ_self _), rfl⟩

/-- The copy that was chosen stands beside the one written, and is chosen again if that one is torn. -/
theorem chosen_stands (r : NvRecord) (stamp : Nat) (p : List Nat) {b : Bool} {c : NvCopy} (h : r.choose.1 = some (b, c)) (hs : c.seq < 0xFFFFFFFF) :
    (if b then (written r stamp p).a = r.a else (written r stamp p).b = r.b) ∧
    (if b then ({ written r stamp p with b := { (written r stamp p).b with valid := false } } : NvRecord)
      else { written r stamp p with a := { (written r stamp p).a with valid := false } }).choose.1 = some (b, c) := by
  cases b with
  | false =>
    obtain ⟨rfl, ok, -⟩ := choose_b h
    rw [written_b h hs]
    refine ⟨rfl, ?_⟩
    exact choose_torn_a r _ ok
  | true =>
    obtain ⟨rfl, ok, -⟩ := choose_a h
    rw [written_a h hs]
    refine ⟨rfl, ?_⟩
    exact choose_torn_b r _ ok

/-! ### Reading -/

theorem nvRead_of_choose {s : State} {key : Nat} {b tie : Bool} {c : NvCopy}
    (h : (Tab.get ({} : NvRecord) s.nv.records key).choose = (some (b, c), tie)) :
    s.nvRead key = (some c.payload, if tie then s.cause Reg.NVS_CAUSE 0 3 387 else s) := by
  unfold State.nvRead
  dsimp only
  rw [h]

theorem nvRead_nvWrite (s : State) (key : Nat) (p : List Nat)
    (hs : ∀ b c, (Tab.get ({} : NvRecord) s.nv.records key).choose.1 = some (b, c) → c.seq < 0xFFFFFFFF) :
    (s.nvWrite key p).nvRead key = (some p, s.nvWrite key p) := by
  obtain ⟨stamp, hw⟩ := nvWrite_records s key p
  obtain ⟨b, c, hc, hp⟩ := choose_written _ stamp p hs
  rw [nvRead_of_choose (b := b) (c := c) (tie := false) (by rw [hw, Tab.get_put_same, hc]), hp]
  rfl

theorem nvRead_absent {s : State} {key : Nat} (ha : (Tab.get ({} : NvRecord) s.nv.records key).a.ok = false)
    (hb : (Tab.get ({} : NvRecord) s.nv.records key).b.ok = false) : (s.nvRead key).1 = none := by
  have h : (Tab.get ({} : NvRecord) s.nv.records key).choose = (none, false) := by
    unfold NvRecord.choose
    rw [ha, hb]
  unfold State.nvRead
  dsimp only
  rw [h]

/-- The order of two good copies: SEQ, then the write-stamp where the contents differ (R406). -/
theorem nvRead_twoGood (s : State) (key : Nat) (r : NvRecord) (h : r = Tab.get ({} : NvRecord) s.nv.records key) (ha : r.a.ok = true)
    (hb : r.b.ok = true) : s.nvRead key =
      if r.b.seq < r.a.seq then (some r.a.payload, s)
      else if r.a.seq < r.b.seq then (some r.b.payload, s)
      else if r.a.payload = r.b.payload then (some r.a.payload, s)
      else if r.b.stamp < r.a.stamp then (some r.a.payload, s)
      else if r.a.stamp < r.b.stamp then (some r.b.payload, s)
      else (some r.a.payload, s.cause Reg.NVS_CAUSE 0 3 387) := by
  subst h
  unfold State.nvRead NvRecord.choose
  dsimp only
  rw [ha, hb]
  dsimp only
  split_ifs <;> rfl

/-- Settles O46: the write goes beside the chosen copy under the next SEQ, and of two good copies the later one is read. -/
theorem nvTwinCopies : Obligations.NvTwinCopies := by
  refine ⟨fun s key p hs => ?_, fun s key r h ha hb => ?_, fun s key r h ha hb => by subst h; exact nvRead_absent ha hb⟩
  · obtain ⟨stamp, hw⟩ := nvWrite_records s key p
    refine ⟨nvRead_nvWrite s key p hs, fun k hk => ?_, ?_⟩
    · rw [hw, Tab.get_put_ne _ _ _ _ hk]
    · rintro r r' rfl rfl b c hc
      rw [hw, Tab.get_put_same]
      exact chosen_stands _ stamp p hc (hs b c hc)
  · rw [nvRead_twoGood s key r h ha hb]
    refine ⟨fun h => if_pos h, fun h => ?_, fun h k => ?_, fun h k l => ?_, fun h k l => ?_, fun h k l => ?_⟩
    · rw [if_neg (by omega), if_pos h]
    · rw [if_neg (by omega), if_neg (by omega), if_pos k]
    · rw [if_neg (by omega), if_neg (by omega), if_neg k, if_pos l]
    · rw [if_neg (by omega), if_neg (by omega), if_neg k, if_neg (by omega), if_pos l]
    · rw [if_neg (by omega), if_neg (by omega), if_neg k, if_neg (by omega), if_neg (by omega)]

end Sys2Proof.NvRecords

/-! What a fired slot, a failed unlock and a reply leave, computed on words. -/

namespace Sys2Proof.Countings

open Sys2Proof.Machine

/-! ### The advance of a slot (R55) -/

/-- The least number of periods that takes a time beyond the present one is the quotient and one. -/
theorem nextPeriod {time now p : Nat} (hp : 0 < p) (h : time ≤ now) :
    now < time + ((now - time) / p + 1) * p ∧ time + ((now - time) / p + 1) * p ≤ now + p := by
  have hdiv := Nat.div_add_mod (now - time) p
  have hmod := Nat.mod_lt (now - time) hp
  rw [Nat.mul_comm] at hdiv
  rw [Nat.succ_mul]
  omega

/-- Settles O48: a period is added the least number of times that takes TIME beyond the present. -/
theorem slotAdvance : Obligations.SlotAdvance := by
  intro v now hle
  refine ⟨fun h => if_pos h, fun h fits => ⟨(now.toNat - v.time.toNat) / (v.period.toNat * secUnits) + 1, ?_⟩⟩
  have hpos : 0 < v.period.toNat * 65536 := by
    have : v.period.toNat ≠ 0 := fun k => h (BitVec.eq_of_toNat_eq k)
    omega
  obtain ⟨beyond, least⟩ := nextPeriod hpos hle
  have hadv : v.advance now = { v with
      time := v.time + BitVec.ofNat 64 (((now.toNat - v.time.toNat) / (v.period.toNat * 65536) + 1) * (v.period.toNat * 65536))
      miss := BitVec.ofNat 8 (min (v.miss.toNat + ((now.toNat - v.time.toNat) / (v.period.toNat * 65536) + 1 - 1)) 255) } := if_neg h
  rw [hadv, show secUnits = 65536 from rfl]
  dsimp only
  have hk : 1 ≤ (now.toNat - v.time.toNat) / (v.period.toNat * 65536) + 1 := Nat.le_add_left _ _
  generalize (now.toNat - v.time.toNat) / (v.period.toNat * 65536) + 1 = k at *
  generalize v.period.toNat * 65536 = p at *
  generalize k * p = m at *
  have htime : (v.time + BitVec.ofNat 64 m).toNat = v.time.toNat + m := by
    rw [BitVec.toNat_add, BitVec.toNat_ofNat]
    omega
  refine ⟨hk, htime, ?_, ?_, ?_, rfl, rfl, rfl, rfl⟩
  · rw [BitVec.lt_def, htime]
    exact beyond
  · rw [htime]
    exact least
  · rw [BitVec.toNat_ofNat]
    omega

/-! ### The hold after failing shares (R375) -/

theorem keySlot_setKeySlot (s : State) (r q : Nat) (k : KeySlot) : (s.setKeySlot r k).keySlot q = if q = r then k else s.keySlot q := by
  have hsec : (s.setKeySlot r k).sec = { s.sec with slots := Tab.put {} s.sec.slots r k } := (State.nvWrite_keeps _ _ _).sec (by decide)
  unfold State.keySlot
  rw [hsec]
  exact Tab.get_put _ _ _ _ _

/-- The slot as a failed unlock leaves it. -/
def failed (s : State) (r : Nat) : KeySlot :=
  let n := (s.keySlot r).fails + 1
  let tries := s.fld Reg.SEC_CTRL 0 3 0
  let secs := if n < tries then 0 else min (600 * 2 ^ (n - tries)) 86400
  { s.keySlot r with fails := min n 65535, holdUntil := if secs = 0 then (s.keySlot r).holdUntil else s.holdNow + BitVec.ofNat 32 secs }

theorem keySlot_unlockFail (s : State) (r q : Nat) : (s.unlockFail r).keySlot q = if q = r then failed s r else s.keySlot q := by
  have hsec : (s.unlockFail r).sec = (s.setKeySlot r (failed s r)).sec := by
    unfold State.unlockFail
    exact ((State.judgeSec_keeps _).sec (by decide)).trans (((State.cause_keeps _ _ _ _ _).sec (by decide)).trans ((State.bump_keeps _ _ _ _ _ _).sec (by decide)))
  rw [← keySlot_setKeySlot]
  unfold State.keySlot
  rw [hsec]

/-- The hold from UNLOCK_TRIES on: a least value of the doubled interval and a day, which is never 0. -/
theorem failed_holdUntil (s : State) (r : Nat) (h : s.fld Reg.SEC_CTRL 0 3 0 ≤ (s.keySlot r).fails + 1) :
    (failed s r).holdUntil = s.holdNow + BitVec.ofNat 32 (min (600 * 2 ^ ((s.keySlot r).fails + 1 - s.fld Reg.SEC_CTRL 0 3 0)) 86400) := by
  have hpow := Nat.one_le_two_pow (n := (s.keySlot r).fails + 1 - s.fld Reg.SEC_CTRL 0 3 0)
  unfold failed
  dsimp only
  rw [if_neg (Nat.not_lt.mpr h), if_neg (by omega)]

/-- Settles O47: the slot counts the failure and takes its hold from the count, and no other slot changes. -/
theorem unlockHold : Obligations.UnlockHold := by
  rintro s r k v tries rfl rfl rfl
  rw [keySlot_unlockFail, if_pos rfl]
  refine ⟨rfl, rfl, rfl, rfl, fun below => ?_, fun at_ => ?_, failed_holdUntil s r, fun q hq => ?_⟩
  · unfold failed
    dsimp only
    rw [if_pos below]
    rfl
  · rw [failed_holdUntil s r at_.ge, at_, Nat.sub_self]
    rfl
  · rw [keySlot_unlockFail, if_neg hq]

/-! ### The words of a reply and of a notification (R352, R355) -/

theorem status_code_lt (st : Status) : st.code < 2 ^ 16 := by cases st <;> decide

theorem bitsOf_append (a b : BitVec 16) : bitsOf (a ++ b) 31 16 = a.toNat ∧ bitsOf (a ++ b) 15 0 = b.toNat := by
  have hb := b.isLt
  have ha := a.isLt
  unfold bitsOf
  rw [BitVec.toNat_append, Nat.shiftLeft_eq, ← Nat.mul_comm, Nat.mul_comm, Nat.mul_comm, ← Nat.two_pow_add_eq_or_of_lt hb]
  omega

theorem dword_ofWords_lo_hi (d : Dword) : Dword.ofWords d.lo d.hi = d := by
  unfold Dword.ofWords Dword.lo Dword.hi
  ext i hi
  simp only [BitVec.getElem_append, BitVec.getElem_setWidth, BitVec.getLsbD_ushiftRight]
  split
  · rw [BitVec.getLsbD_eq_getElem]
  · rename_i h
    rw [BitVec.getLsbD_eq_getElem (by omega)]
    congr 1
    omega

/-- Settles O50: the sums that make word 0 do not carry from one field into the next. -/
theorem replyLayout : Obligations.ReplyLayout := by
  refine ⟨fun st done tag seq res hlen => ⟨_, _, rfl, ?_, ?_, ?_, (bitsOf_append tag seq).1, (bitsOf_append tag seq).2⟩,
    fun s src n hsrc => ⟨_, _, _, _, _, rfl, by decide, by decide, by decide, by decide, ?_, rfl, dword_ofWords_lo_hi _⟩⟩
  · have hcode := status_code_lt st
    have hdone := done.toNat_lt
    simp only [bitsOf, BitVec.toNat_ofNat]
    omega
  · have hcode := status_code_lt st
    have hdone := done.toNat_lt
    simp only [bitsOf, BitVec.toNat_ofNat]
    omega
  · simp only [bitsOf, BitVec.toNat_ofNat]
    omega
  · rw [BitVec.toNat_ofNat]
    omega

end Sys2Proof.Countings

/-! The idle step (log entry 4). What event work leaves of a channel: its outbound queue and the count of dropped notifications alone can change, so that
no packet comes to wait. -/

namespace Sys2Proof.IdleClock

open Sys2Proof.Machine State

/-! ### Event work and channels -/

/-- From `s` to `t` no channel's waiting packets change. -/
def HeldSame (s t : State) : Prop := ∀ c, (t.chan c).held = (s.chan c).held

theorem HeldSame.refl (s : State) : HeldSame s s := fun _ => rfl

theorem HeldSame.trans {s t u : State} (h : HeldSame s t) (k : HeldSame t u) : HeldSame s u := fun c => (k c).trans (h c)

theorem HeldSame.of_keeps {w : List Part} {s t : State} (h : Keeps w s t) (hp : Part.chans ∉ w) : HeldSame s t :=
  fun c => congrArg Chan.held (chan_of_chans (h.chans hp) c)

theorem HeldSame.after {w : List Part} {s t u : State} (k : Keeps w t u) (hp : Part.chans ∉ w) (h : HeldSame s t) : HeldSame s u :=
  h.trans (.of_keeps k hp)

theorem HeldSame.setChan (s : State) (c : Nat) (v : Chan) (h : v.held = (s.chan c).held) : HeldSame s (s.setChan c v) := fun d => by
  by_cases e : d = c
  · subst e; rw [chan_setChan, h]
  · rw [chan_setChan_ne _ _ e]

theorem notifyChan_held (s : State) (c src : Nat) : HeldSame s (notifyChan s c src).1 := by
  unfold notifyChan
  have set (v : Chan) (hv : v.held = (s.chan c).held) : HeldSame s (s.setChan c v) := .setChan s c v hv
  refine ite_prop (P := fun x : State × List EvtWork => HeldSame s x.1) ?_ ?_
  · exact .after (replyInterrupt_keeps _ _ _) (by decide) (set _ rfl)
  · exact .after (setBit_keeps _ _ _ _ _) (by decide) (set _ rfl)

theorem evtStep_held (s : State) (w : EvtWork) : HeldSame s (evtStep s w).1 := by
  cases w with
  | rise n => exact .of_keeps (riseSource_keeps s n) (by decide)
  | notify c n => exact notifyChan_held s c n
  | offer al code src prin det agen => exact .of_keeps (offerEntry_keeps s al code src prin det agen) (by decide)

theorem evtRun_held (f : Nat) (ws : List EvtWork) (s : State) : HeldSame s (evtRun f ws s) := by
  induction f generalizing ws s with
  | zero => exact .refl s
  | succ f ih =>
    cases ws with
    | nil => exact .refl s
    | cons w ws => exact (evtStep_held s w).trans (ih _ _)

theorem raise_held (s : State) (n : Nat) : HeldSame s (s.raise n) := evtRun_held _ _ s

theorem judgeQc_held (s : State) (n : Nat) : HeldSame s (s.judgeQc n) := by
  unfold State.judgeQc
  exact ite_prop (P := HeldSame s) (raise_held _ _) (.of_keeps (lower_keeps _ _) (by decide))

theorem stormsEnd_held (s : State) : HeldSame s s.stormsEnd := by
  unfold State.stormsEnd
  generalize List.filter _ _ = l
  induction l generalizing s with
  | nil => exact .refl s
  | cons p l ih => exact ((HeldSame.of_keeps (setQc_keeps _ _ _) (by decide)).trans (judgeQc_held _ _)).trans (ih _)

/-! ### Where nothing waits -/

/-- With no packet waiting anywhere Mingaso has nothing to catch up with. -/
theorem catchUpAll_idle (s : State) (h : ∀ c : Fin 64, (s.chan c).held = []) : s.catchUpAll = s := by
  unfold State.catchUpAll
  generalize List.finRange 64 = l
  induction l with
  | nil => rfl
  | cons c l ih => rw [List.foldl_cons, catchUp_idle s c (h c), ih]

theorem stormsEnd_none (s : State) (h : ∀ p ∈ s.med.chans, p.2.stormBit = false) : s.stormsEnd = s := by
  unfold State.stormsEnd
  rw [List.filter_eq_nil_iff.2 fun p hp => by simp [h p hp]]
  rfl

/-- With no slot of ACTION 0 due none fires. -/
theorem fireNone_none (s : State) (k : Nat) (h : ∀ p ∈ s.sched.slots, p.2.action = 0 → s.slotDue p.2 = false) : s.fireNone k = s := by
  unfold State.fireNone
  have hnil : (s.sched.slots.filter fun p => decide (p.1 < k) && p.2.action == 0 && s.slotDue p.2) = [] := by
    refine List.filter_eq_nil_iff.2 fun p hp => ?_
    by_cases h0 : p.2.action = 0
    · simp [h p hp h0]
    · rw [beq_eq_false_iff_ne.2 h0, Bool.and_false, Bool.false_and]
      exact Bool.false_ne_true
  rw [hnil]
  rfl

theorem slotDue_of_disarmed (s : State) (v : Slot) (h : v.arm = false) : s.slotDue v = false := by simp [State.slotDue, h]

theorem slotDue_of_no_vaon (s : State) (v : Slot) (h : s.psq.vaon = false) : s.slotDue v = false := by simp [State.slotDue, h]

/-! ### The step -/

/-- The idle step is the tick of the clock, the fall of CRC storms and the firing of slots of ACTION 0, with no packet taken. -/
theorem idle_eq (s : State) (h : ∀ c : Fin 64, (s.chan c).held = []) :
    s.idle = (s.clockTick.stormsEnd).fireNone (s.clockTick.stormsEnd.nextDue.getD 256) := by
  unfold State.idle
  dsimp only
  refine catchUpAll_idle _ fun c => ?_
  have held : HeldSame s ((s.clockTick.stormsEnd).fireNone (s.clockTick.stormsEnd.nextDue.getD 256)) :=
    ((HeldSame.of_keeps (clockTick_keeps s) (by decide)).trans (stormsEnd_held _)).trans (.of_keeps (fireNone_keeps _ _) (by decide))
  rw [held c, h c]

/-- The Tally after the idle step is that of the clock's tick. -/
theorem idle_tally (s : State) (h : ∀ c : Fin 64, (s.chan c).held = []) : s.idle.tally = s.clockTick.tally := by
  rw [idle_eq s h, (fireNone_keeps _ _).tally (by decide), (stormsEnd_keeps _).tally (by decide)]

/-- Units by which a tick advances TLY_NOW (R47). -/
def advance (t : Tally) : Nat := if t.catchup then t.phase % 2 else if t.slew ≠ 0 ∧ t.phase % 1000 = 999 then 2 else 1

theorem clockTick_tally (s : State) (h : s.psq.vaon = true) :
    s.clockTick.tally.now = s.tally.now + BitVec.ofNat 64 (advance s.tally) ∧
    s.clockTick.tally.slew = (if advance s.tally = 2 then s.tally.slew - 1 else s.tally.slew) ∧
    s.clockTick.tally.phase = (s.tally.phase + 1) % 2000 ∧
    s.clockTick.tally.pend = (if s.tally.jumpPending then s.tally.pend + 1 else s.tally.pend) := by
  unfold State.clockTick
  rw [if_neg (by simp [h])]
  exact ⟨rfl, rfl, rfl, rfl⟩

theorem clockTick_of_no_vaon (s : State) (h : s.psq.vaon = false) : s.clockTick = s := by
  unfold State.clockTick
  rw [if_pos (by simp [h])]

/-- Settles O3: the step is the tick of the clock where nothing else is due, and keeps the tick's Tally whatever else is. -/
theorem idleStep : Obligations.IdleStep := by
  intro s hq hh
  have hstep : step s = .next s.idle := by
    unfold step
    rw [hq]
  refine ⟨s.idle, hstep, fun hstorm hslot => ?_, fun hv hstorm => ?_, ?_⟩
  · have hmed : s.clockTick.med = s.med := (clockTick_keeps s).med (by decide)
    have hsched : s.clockTick.sched = s.sched := (clockTick_keeps s).sched (by decide)
    rw [idle_eq s hh, stormsEnd_none _ (by rw [hmed]; exact hstorm),
      fireNone_none _ _ (by rw [hsched]; exact fun p hp h0 => slotDue_of_disarmed _ _ (hslot p hp h0))]
    exact clockTick_keeps s
  · rw [idle_eq s hh, clockTick_of_no_vaon s hv, stormsEnd_none s hstorm, fireNone_none _ _ fun p _ _ => slotDue_of_no_vaon s _ hv]
  · rw [idle_tally s hh]
    refine ⟨fun hv hc hs => ?_, fun hv hc hs hp => ?_, fun hv hc hs hp => ?_, fun hv hc => ?_, fun hv => (clockTick_tally s hv).2.2.1, fun hv hj => ?_⟩
    · obtain ⟨hnow, hslew, -⟩ := clockTick_tally s hv
      have hadv : advance s.tally = 1 := by simp [advance, hc, hs]
      rw [hnow, hslew, hadv]
      exact ⟨rfl, hs⟩
    · obtain ⟨hnow, hslew, -⟩ := clockTick_tally s hv
      have hadv : advance s.tally = 1 := by simp [advance, hc, hp]
      rw [hnow, hslew, hadv]
      exact ⟨rfl, rfl⟩
    · obtain ⟨hnow, hslew, -⟩ := clockTick_tally s hv
      have hadv : advance s.tally = 2 := by simp only [advance, hc, Bool.false_eq_true, if_false, if_pos (And.intro hs hp)]
      rw [hnow, hslew, hadv]
      exact ⟨rfl, rfl⟩
    · rw [(clockTick_tally s hv).1, advance, hc]
      rfl
    · rw [(clockTick_tally s hv).2.2.2, hj]
      rfl

end Sys2Proof.IdleClock

/-! The flash controller, the bootstrap loader and the watchdog's stages (R398, R399, R417, R421). -/

namespace Sys2Proof.FlashWatchdog

open Sys2Proof.Machine State

/-- A source rises or falls with its cause: flash and supervisor stay, and the cause bit reads the condition. -/
theorem level_flash (s : State) (r : Reg) (k b n m : Nat) (v : Bool) : (s.level r k b n m v).flash = s.flash :=
  (level_keeps s r k b n m v).flash (by decide)

/-- Starting the watchdog leaves the registers and the flash. -/
theorem wdgStart_bit (s : State) (r : Reg) (k b : Nat) : s.wdgStart.bit r k b = s.bit r k b := by
  unfold State.bit State.reg
  rw [(wdgStart_keeps s).regs (by decide)]

theorem wdgStart_wdg (s : State) (h : s.bit Reg.WDG_CTRL 0 0 = true) :
    s.wdgStart.wdg = { s.wdg with stage := .stage1, ms := BitVec.ofNat 16 (s.fld Reg.WDG_STAGE1 0 15 0) } := by
  unfold State.wdgStart
  rw [if_pos h]
  rfl

/-- The bytes of a bootstrap write one after another. -/
def loadBytes (bs : List Byte) (at_ : Nat) (ram : Tab Byte) : Tab Byte :=
  (bs.foldl (fun (p : Nat × Tab Byte) b => (p.1 + 1, Tab.put 0 p.2 p.1 b)) (at_, ram)).2

theorem loadBytes_cons (b : Byte) (bs : List Byte) (at_ : Nat) (ram : Tab Byte) :
    loadBytes (b :: bs) at_ ram = loadBytes bs (at_ + 1) (Tab.put 0 ram at_ b) := rfl

/-- Below the write nothing changes. -/
theorem loadBytes_below (bs : List Byte) (at_ j : Nat) (ram : Tab Byte) (h : j < at_) : Tab.get 0 (loadBytes bs at_ ram) j = Tab.get 0 ram j := by
  induction bs generalizing at_ ram with
  | nil => rfl
  | cons b bs ih => rw [loadBytes_cons, ih _ _ (by omega), Tab.get_put_ne _ _ _ _ (by omega)]

/-- Each byte lands at its place. -/
theorem loadBytes_at (bs : List Byte) (at_ k : Nat) (ram : Tab Byte) (hk : k < bs.length) : Tab.get 0 (loadBytes bs at_ ram) (at_ + k) = bs[k] := by
  induction bs generalizing at_ ram k with
  | nil => exact absurd hk (Nat.not_lt_zero k)
  | cons b bs ih =>
    rw [loadBytes_cons]
    cases k with
    | zero => exact (loadBytes_below _ _ at_ _ (Nat.lt_succ_self at_)).trans (Tab.get_put_same _ _ _ _)
    | succ k =>
      rw [show at_ + (k + 1) = at_ + 1 + k by omega]
      exact ih _ _ _ _

/-- Settles O4: each command's guard holds and its one effect is read off. -/
theorem flashEvents : Obligations.FlashEvents := by
  refine ⟨fun s hstate hsus hhold => ⟨_, if_pos ⟨hstate, hsus, hhold⟩, rfl⟩, fun s p n u ops hstate hops => ⟨_, if_pos hstate, ?_⟩,
    fun s p n ops hstate hops => ⟨_, if_pos hstate, ?_⟩, fun s low => ⟨_, rfl, level_flash _ _ _ _ _ _ _, ?_⟩,
    fun s offset bytes k hk hload hoff hlen => ⟨_, if_pos ⟨hload, hoff⟩, ?_⟩, fun s len hload hlen => ⟨_, if_pos ⟨hload, rfl, hlen⟩, ?_⟩,
    fun s hstage hen => ⟨_, congrArg Host.Outcome.next (if_pos ⟨rfl, hstage⟩), wdgStart_wdg s hen⟩, fun s hv hstage => ⟨_, if_pos ⟨hv, hstage⟩, ?_⟩⟩
  · unfold State.flashNext
    rw [hops]
    rfl
  · unfold State.flashNext
    rw [hops]
    rfl
  · exact bit_level_same _ _ _ (by decide) _ _ _ (by decide) _
  · have htake : bytes.take 256 = bytes := List.take_of_length_le hlen
    show Tab.get 0 (loadBytes (bytes.take 256) offset.toNat s.flash.ram) (offset.toNat + k) = bytes[k]
    rw [htake]
    exact loadBytes_at bytes _ k _ hk
  · refine ⟨((wdgStart_keeps _).flash (by decide)).trans (level_flash _ _ _ _ _ _ _), ?_⟩
    rw [wdgStart_bit]
    exact bit_level_same _ _ _ (by decide) _ _ _ (by decide) _
  · have hbit : (s.cause Reg.WDG_CAUSE 0 0 416).bit Reg.WDG_CAUSE 0 0 = true := bit_cause_same _ _ _ (by decide) _ _ (by decide)
    have hwdg : (s.cause Reg.WDG_CAUSE 0 0 416).wdg = s.wdg := (cause_keeps _ _ _ _ _).wdg (by decide)
    have hfld : (s.cause Reg.WDG_CAUSE 0 0 416).fld Reg.WDG_STAGE2 0 15 0 = s.fld Reg.WDG_STAGE2 0 15 0 :=
      fld_cause_ne _ _ _ (by decide) _ _ _ _ _ _ (by decide)
    refine ⟨?_, hbit, List.mem_cons_self⟩
    simp only [setWdg_wdg]
    rw [← hwdg, ← hfld]
    rfl

end Sys2Proof.FlashWatchdog

/-! Keeper, the write-stamp, the recorder's buckets, the archiver and the vault (R403, R407, R410, R413, R414). -/

namespace Sys2Proof.VaultKeeper

open Sys2Proof.Machine State

/-! ### Registers -/

/-- A counter of another register leaves this one. -/
theorem reg_bump_ne (s : State) {r q : Reg} {k j : Nat} (hi lo n : Nat) (h : q.at j ≠ r.at k) : (s.bump r k hi lo n).reg q j = s.reg q j :=
  reg_setFld_ne s hi lo _ h

theorem bit_bump_ne (s : State) {r q : Reg} {k j : Nat} (hi lo n b : Nat) (h : q.at j ≠ r.at k) : (s.bump r k hi lo n).bit q j b = s.bit q j b := by
  simp only [State.bit, reg_bump_ne s hi lo n h]

theorem fld_bump_ne (s : State) {r q : Reg} {k j : Nat} (hi lo n hi' lo' : Nat) (h : q.at j ≠ r.at k) :
    (s.bump r k hi lo n).fld q j hi' lo' = s.fld q j hi' lo' := by
  simp only [State.fld, reg_bump_ne s hi lo n h]

/-! ### Keeper (R407) -/

/-- A count and its cause: the count goes up by one, the cause's bit sets. -/
theorem counted (s : State) (r : Reg) (b n : Nat) (hb : b < 32) (hr : quiet (r.at 0) = true) (hq : r.at 0 ≠ Reg.NVS_CAUSE.at 0) :
    ((s.bump r 0 31 0).cause Reg.NVS_CAUSE 0 b n).bit Reg.NVS_CAUSE 0 b = true ∧
    ((s.bump r 0 31 0).cause Reg.NVS_CAUSE 0 b n).fld r 0 31 0 = min (s.fld r 0 31 0 + 1) 0xFFFFFFFF :=
  ⟨bit_cause_same _ _ _ (by decide) _ _ hb, by rw [fld_cause_ne _ _ _ hr _ _ _ _ _ _ hq, fld_bump _ _ _ _ _ _ (by decide) (by decide)]; rfl⟩

theorem keeperTake_corrected (s : State) (holder : Option (Nat × Bool)) :
    (keeperTake s 2 holder).bit Reg.NVS_CAUSE 0 0 = true ∧ (keeperTake s 2 holder).bit Reg.NVS_CAUSE 0 2 = true ∧
    (keeperTake s 2 holder).fld Reg.NVS_CE_CNT 0 31 0 = min (s.fld Reg.NVS_CE_CNT 0 31 0 + 1) 0xFFFFFFFF ∧
    (keeperTake s 2 holder).fld Reg.NVS_REWRITE_CNT 0 31 0 = min (s.fld Reg.NVS_REWRITE_CNT 0 31 0 + 1) 0xFFFFFFFF := by
  obtain ⟨first, ce⟩ := counted s Reg.NVS_CE_CNT 0 384 (by decide) (by decide) (by decide)
  have found : ((s.bump Reg.NVS_CE_CNT 0 31 0).cause Reg.NVS_CAUSE 0 0 384).fld Reg.NVS_REWRITE_CNT 0 31 0 = s.fld Reg.NVS_REWRITE_CNT 0 31 0 := by
    rw [fld_cause_ne _ _ _ (by decide) _ _ _ _ _ _ (by decide), fld_bump_ne _ _ _ _ _ _ (by decide)]
  unfold keeperTake
  generalize (s.bump Reg.NVS_CE_CNT 0 31 0).cause Reg.NVS_CAUSE 0 0 384 = u at first ce found ⊢
  obtain ⟨second, rewrite⟩ := counted u Reg.NVS_REWRITE_CNT 2 386 (by decide) (by decide) (by decide)
  refine ⟨?_, second, ?_, rewrite.trans (by rw [found])⟩
  · exact (bit_cause_apart _ _ _ (by decide) _ _ _ (by decide) (by decide)).trans ((bit_bump_ne _ _ _ _ _ (by decide)).trans first)
  · exact (fld_cause_ne _ _ _ (by decide) _ _ _ _ _ _ (by decide)).trans ((fld_bump_ne _ _ _ _ _ _ (by decide)).trans ce)

/-- A copy rewritten leaves the registers. -/
theorem keeperTake_uncorrectable_regs (s : State) (holder : Option (Nat × Bool)) :
    (keeperTake s 3 holder).regs = ((s.bump Reg.NVS_UE_CNT 0 31 0).cause Reg.NVS_CAUSE 0 1 385).regs := by
  cases holder <;> rfl

theorem keeperTake_uncorrectable_copy (s : State) (key : Nat) (h : (Tab.get ({} : NvRecord) s.nv.records key).b.ok = true) :
    (Tab.get ({} : NvRecord) (keeperTake s 3 (some (key, true))).nv.records key).a = (Tab.get ({} : NvRecord) s.nv.records key).b := by
  have hnv : ((s.bump Reg.NVS_UE_CNT 0 31 0).cause Reg.NVS_CAUSE 0 1 385).nv = s.nv :=
    ((cause_keeps _ _ _ _ _).nv (by decide)).trans ((bump_keeps _ _ _ _ _ _).nv (by decide))
  generalize hu : (s.bump Reg.NVS_UE_CNT 0 31 0).cause Reg.NVS_CAUSE 0 1 385 = u at hnv
  have hput : (keeperTake s 3 (some (key, true))).nv.records = Tab.put {} u.nv.records key
      (let r := Tab.get ({} : NvRecord) u.nv.records key
       if r.b.ok then { r with a := r.b } else { r with a := { r.a with valid := false } }) := by rw [← hu]; rfl
  rw [hput, Tab.get_put_same, hnv]
  exact congrArg NvRecord.a (if_pos h)

/-! ### The archiver (R414) -/

theorem vaultPlace_evr (s : State) (k : Fin 4) (n : Nat) (d : VaultData) : (s.vaultPlace k n d).evr = s.evr := (vaultPlace_keeps s k n d).evr (by decide)

/-- The index of what is placed only goes up, and not past the newest entry. -/
theorem archiveRun_paged (n : Nat) (s : State) (h : s.evr.paged.toNat ≤ s.evr.next.toNat) :
    (archiveRun n s).evr.next = s.evr.next ∧ s.evr.paged.toNat ≤ (archiveRun n s).evr.paged.toNat ∧
      (archiveRun n s).evr.paged.toNat ≤ s.evr.next.toNat := by
  induction n generalizing s with
  | zero => exact ⟨rfl, le_refl _, h⟩
  | succ n ih =>
    unfold State.archiveRun
    split
    · exact ⟨rfl, le_refl _, h⟩
    split
    · exact ⟨rfl, le_refl _, h⟩
    split
    · exact ⟨rfl, le_refl _, h⟩
    · generalize ht : min 3 (s.evr.next.toNat - s.evr.paged.toNat) = take
      have hnext := s.evr.next.isLt
      have hpaged : (s.evr.paged + BitVec.ofNat 32 take).toNat = s.evr.paged.toNat + take := by
        rw [BitVec.toNat_add, BitVec.toNat_ofNat]
        omega
      dsimp only
      rw [ht]
      generalize hu : State.setEvr _ _ = u
      have hevr : u.evr = { s.evr with paged := s.evr.paged + BitVec.ofNat 32 take } := by rw [← hu, setEvr_evr, vaultPlace_evr]
      obtain ⟨h1, h2, h3⟩ := ih u (by rw [hevr]; simp only [hpaged]; omega)
      rw [hevr] at h1 h2 h3
      simp only [hpaged] at h2
      exact ⟨h1, by omega, h3⟩

/-- The first page of three goes in where there is room and three entries are pending. -/
theorem archiveRun_first (n : Nat) (s : State) (ha : s.evr.archiving = true) (hc : s.flash.cores ≠ .off) (hm : s.psq.mainUp = true)
    (hp : s.evr.paged.toNat + 3 ≤ s.evr.next.toNat) (hv : s.vaultSources < 256) :
    ∃ u : State, u.evr = { s.evr with paged := s.evr.paged + 3#32 } ∧ archiveRun (n + 1) s = archiveRun n u := by
  have hne : s.evr.paged ≠ s.evr.next := fun e => by rw [e] at hp; omega
  have ht : min 3 (s.evr.next.toNat - s.evr.paged.toNat) = 3 := by omega
  have hstep : ∀ x : State, x = s.vaultPlace 0 (s.vaultSeq 0) (.events
      ((List.range 3).map fun i => Tab.get {} s.evr.ring ((s.evr.paged.toNat + i) % 16384))) →
      archiveRun (n + 1) s = archiveRun n (x.setEvr { x.evr with paged := x.evr.paged + BitVec.ofNat 32 3 }) := by
    intro x hx
    rw [State.archiveRun, if_neg (by simp [ha, hc, hm]), if_neg hne, if_neg (by omega)]
    dsimp only
    rw [ht, hx]
  refine ⟨_, ?_, hstep _ rfl⟩
  rw [setEvr_evr, vaultPlace_evr]

/-! ### The vault (R403) -/

/-- The pages before an upper page that can be its partner end with the one beside it. -/
theorem partner_last (l : List Nat) (i : Nat) (f : Nat → Bool) (h : f i = true) : ((l ++ [i]).filter f).getLast? = some i := by
  rw [List.filter_append, List.filter_cons_of_pos h, List.filter_nil, List.getLast?_concat]

theorem vaultVerified_pages (s : State) (i : Nat) (p q : VaultPage) (hq : s.flash.pages[i]? = some q) (hp : s.flash.pages[i + 1]? = some p)
    (hpu : p.upper = true) (hqu : q.upper = false) (hb : q.bad = false) (hk : q.kind = p.kind) :
    (s.vaultVerified (i + 1)).flash.pages = (s.flash.pages.set (i + 1) { p with settled := true }).set i { q with settled := true } := by
  have hset : (s.flash.pages.set (i + 1) { p with settled := true })[i]? = some q := by
    rw [List.getElem?_set_ne (by omega), hq]
  unfold State.vaultVerified
  rw [hp]
  dsimp only
  rw [if_neg (by simp [hpu]), List.range_succ, partner_last _ _ _ (by rw [hset]; simp [hk, hb])]
  dsimp only
  rw [hset]
  dsimp only
  rw [if_neg (by simp [hqu])]
  rfl

theorem vaultVerified_archiving (s : State) (i : Nat) : (s.vaultVerified i).evr.archiving = s.evr.archiving := by
  unfold State.vaultVerified
  split
  · rfl
  · dsimp only
    split <;> rfl

theorem archiveRun_stopped (n : Nat) (s : State) (h : s.evr.archiving = false) : archiveRun n s = s := by
  cases n with
  | zero => rfl
  | succ n => rw [State.archiveRun, if_pos (by simp [h])]

theorem flashPush_pages (s : State) (o : FlashOp) : (s.flashPush o).flash.pages = s.flash.pages := by
  unfold State.flashPush State.flashNext
  dsimp only
  split
  · split <;> rfl
  · rfl

theorem vaultPlace_pages (s : State) (k : Fin 4) (n : Nat) (d : VaultData) (p : VaultPage)
    (room : (s.flash.pages.filter fun q => q.kind == k).length < vaultSectors k * 256) (last : s.vaultLast k = some p) :
    (s.vaultPlace k n d).flash.pages = s.flash.pages ++ [{ kind := k, pseq := n, data := d, upper := !p.upper }] := by
  have hroom : s.vaultMakeRoom k = s := if_pos room
  unfold State.vaultPlace
  rw [flashPush_pages, hroom, last]
  rfl

/-- Settles O5: every command's guard holds, and its effect is read off Keeper's outcome, the ring, the bucket, the run of the archiver or the pages. -/
theorem nvVaultRecorder : Obligations.NvVaultRecorder := by
  refine ⟨fun s word outcome holder hv hon => ⟨_, if_pos (by simp [hv, hon]), ?_⟩, fun s hv => ⟨_, if_pos hv, rfl, rfl, ?_⟩,
    fun s code hv => ⟨_, if_pos hv, ?_⟩, fun s hm hc hs hpend => ⟨_, if_pos hm, ?_⟩,
    fun s i p q hm ha hq hp hpu hqu hb hk => ⟨_, if_pos hm, ?_⟩, fun s kind p hm hl hu hs hb room => ?_⟩
  · refine ⟨?_, by simp, fun hw => ?_, fun h1 => ?_, fun h2 => ?_, fun h3 => ?_⟩
    · exact BitVec.toNat_ofNat _ _
    · have hnow : (keeperTake s outcome holder).tally = s.tally := (keeperTake_keeps s outcome holder).tally (by decide)
      exact (if_pos (by simp [hw])).trans (by rw [hnow])
    · subst h1
      exact counted s Reg.NVS_REWRITE_CNT 2 386 (by decide) (by decide) (by decide)
    · subst h2
      exact keeperTake_corrected s holder
    · subst h3
      obtain ⟨hbit, hcnt⟩ := counted s Reg.NVS_UE_CNT 1 385 (by decide) (by decide) (by decide)
      have hregs := keeperTake_uncorrectable_regs s holder
      simp only [State.bit, State.fld, State.reg] at hbit hcnt ⊢
      rw [hregs]
      exact ⟨hbit, hcnt, fun key hh hok => by subst hh; exact keeperTake_uncorrectable_copy s key hok⟩
  · dsimp only [State.wstampAdvance]
    rw [Tab.get_put_same]
  · dsimp only
    unfold State.refill
    by_cases hr : (Tab.get ({} : Bucket) s.evr.buckets code).rate = 0
    · rw [if_pos hr, if_pos hr]
    · rw [if_neg hr, if_neg hr, setEvr_evr, Tab.get_put_same]
  · dsimp only
    unfold State.archiveStart
    rw [if_neg (by omega)]
    obtain ⟨u, hu, e⟩ := archiveRun_first 256 (s.setEvr { s.evr with archiving := true }) rfl hc hm (by simp only [setEvr_evr]; omega) hs
    have hnext := s.evr.next.isLt
    have hpaged : (s.evr.paged + 3#32).toNat = s.evr.paged.toNat + 3 := by
      rw [BitVec.toNat_add, show (3#32).toNat = 3 from rfl]
      omega
    rw [e]
    obtain ⟨h1, h2, h3⟩ := archiveRun_paged 256 u (by rw [hu]; simp only [setEvr_evr, hpaged]; omega)
    rw [hu] at h1 h2 h3
    simp only [setEvr_evr, hpaged] at h1 h2 h3
    exact ⟨h1, h2, by rw [h1]; exact h3⟩
  · dsimp only
    rw [if_pos rfl, archiveRun_stopped _ _ ((vaultVerified_archiving _ _).trans ha)]
    exact vaultVerified_pages s i p q hq hp hpu hqu hb hk
  · have hexec : exec (.vaultPadTimeout kind) s = .next (s.vaultPlace kind (s.vaultSeq kind) (.pad kind)) := by
      show execVaultPadTimeout kind s = _
      unfold execVaultPadTimeout
      rw [hm, hl]
      simp only [hu, hs, hb, Bool.or_false, Bool.false_eq_true, if_false]
    refine ⟨_, hexec, ?_⟩
    dsimp only
    rw [vaultPlace_pages s kind _ _ p room hl, hu]
    rfl

end Sys2Proof.VaultKeeper

/-! The drain's triggers and its end (R186 to R189, R418, R439, R440, R443, R447). -/

namespace Sys2Proof.DrainTrigger

open Sys2Proof.Machine State

/-! ### A trigger taken with the domain open -/

theorem cause_psq (s : State) (r : Reg) (k b n : Nat) : (s.cause r k b n).psq = s.psq := (cause_keeps s r k b n).psq (by decide)

theorem cause_bench (s : State) (r : Reg) (k b n : Nat) : (s.cause r k b n).bench = s.bench := (cause_keeps s r k b n).bench (by decide)

theorem setPState_bench (s : State) (p : PState) : (s.setPState p).bench = s.bench := (setPState_keeps s p).bench (by decide)

/-- A trigger that is not orderly closes the gate with its code noted, and leaves the supervisor (R187, R188). -/
theorem drain_starts {s u : State} (code : Nat) (hb : u.bench = s.bench) (hd : u.psq.down = none) (ho : s.bench.domain = .opened)
    (hc : orderlyCode code = false) : (u.takeTrigger code).bench.domain = .draining ∧
      (u.takeTrigger code).bench.triggers = s.bench.triggers ||| BitVec.twoPow 16 code ∧ (u.takeTrigger code).psq = u.psq := by
  have hu : u.bench.domain = .opened := by rw [hb, ho]
  have hview := takeTrigger_opened u code hd hu hc
  simp only [drainView, Prod.mk.injEq] at hview
  obtain ⟨hdom, htrig, -, -⟩ := hview
  exact ⟨hdom, by rw [htrig, hb], takeTrigger_psq u code hd hu⟩

/-! ### The input (R439, R443) -/

theorem judgeInput_psq (s : State) : s.judgeInput.psq = s.psq := (judgeInput_keeps s).psq (by decide)

theorem judgeInput_bench (s : State) : s.judgeInput.bench = s.bench := (judgeInput_keeps s).bench (by decide)

/-- A bad input in ACTIVE with the domain open is a trigger, noted as the reason of the power-down to come. -/
theorem inputBad_active (s : State) (code : Nat) (hd : s.psq.down = none) (ho : s.bench.domain = .opened) (hp : s.psq.pstate = .active)
    (hc : orderlyCode code = false) : (s.inputBad code).bench.domain = .draining ∧
      (s.inputBad code).bench.triggers = s.bench.triggers ||| BitVec.twoPow 16 code ∧
      (s.inputBad code).psq = { s.psq with inputGood := false, pwrFailLow := s.psq.pwrFailLow || code == 1, offByInput := true } := by
  generalize hu : (s.setPsq { s.psq with inputGood := false, pwrFailLow := s.psq.pwrFailLow || code == 1 }).judgeInput = u
  have hpsq : u.psq = { s.psq with inputGood := false, pwrFailLow := s.psq.pwrFailLow || code == 1 } := by rw [← hu, judgeInput_psq]; rfl
  have hbench : u.bench = s.bench := by rw [← hu, judgeInput_bench]; rfl
  have hbad : s.inputBad code = (u.setPsq { u.psq with offByInput := true }).takeTrigger code := by
    unfold State.inputBad
    dsimp only
    rw [hu, hpsq, hp, hbench, ho]
    rfl
  obtain ⟨hdom, htrig, hsup⟩ := drain_starts (u := u.setPsq { u.psq with offByInput := true }) code hbench (by rw [hpsq]; exact hd) ho hc
  rw [hbad]
  exact ⟨hdom, htrig, by rw [hsup, setPsq_psq, hpsq]⟩

/-! ### The end of a drain (R189, R418) -/

/-- The supervisor's and the domain's state as a drain that lost no frame ends. -/
def drained (s : State) (g : Drain) : State :=
  let v := s.desc g.half
  let us := usBetween g.start s.tally.now
  let s1 := s.setDesc g.half { v with state := .committed, triggers := s.bench.triggers, duration := us, indexCrc := s.indexCrc v g.moved, moved := g.moved }
  let s2 := s1.record Config.codeDrain 0x3FF (BitVec.ofNat 32 (s1.bench.triggers.toNat + us * 65536))
  let s3 := s2.setBench { s2.bench with domain := .drained, drain := none, last := (us, (drainItems v).length) }
  (s3.setPsq { s3.psq with drainDone := true }).judgeBench

theorem setDesc_bench (s : State) (h : Bool) (v : Descriptor) :
    (s.setDesc h v).bench = if h then { s.bench with descB := v } else { s.bench with descA := v } :=
  (nvWrite_keeps _ _ _).bench (by decide)

theorem drained_bench (s : State) (g : Drain) : (drained s g).bench.domain = .drained ∧ (drained s g).bench.drain = none ∧
    (drained s g).bench.triggers = s.bench.triggers ∧ (drained s g).bench.reaction = s.bench.reaction ∧
    ((drained s g).desc g.half).state = .committed ∧ ((drained s g).desc g.half).triggers = s.bench.triggers ∧
    ((drained s g).desc g.half).lines = (s.desc g.half).lines := by
  unfold drained State.desc
  obtain ⟨f, hf⟩ := judgeBench_bench _
  rw [hf]
  simp only [setBench, setPsq]
  rw [(record_keeps _ _ _ _ _ _).bench (by decide), setDesc_bench]
  cases g.half <;> simp

theorem drained_psq (s : State) (g : Drain) : (drained s g).psq = { s.psq with drainDone := true } := by
  unfold drained
  dsimp only
  rw [(judgeBench_keeps _).psq (by decide), setPsq_psq]
  simp only [setBench]
  rw [(record_keeps _ _ _ _ _ _).psq (by decide), (setDesc_keeps _ _ _).psq (by decide)]

theorem drained_flash (s : State) (g : Drain) : (drained s g).flash = s.flash := by
  unfold drained
  dsimp only
  rw [(judgeBench_keeps _).flash (by decide), (setPsq_keeps _ _).flash (by decide), (setBench_keeps _ _).flash (by decide),
    (record_keeps _ _ _ _ _ _).flash (by decide), (setDesc_keeps _ _ _).flash (by decide)]

/-- A drain with no frame left that lost none commits its descriptor, and its reaction runs. -/
theorem drainComplete_reacts (s : State) (g : Drain) (hd : s.bench.domain = .draining) (hg : s.bench.drain = some g) (hf : g.frames = [])
    (hl : g.lost = false) : exec .drainComplete s = .next ((drained s g).react (Reaction.ofCode s.bench.reaction)) := by
  have hend : s.drainEnd g = (drained s g).react (Reaction.ofCode s.bench.reaction) := by
    obtain ⟨-, -, -, hreaction, -⟩ := drained_bench s g
    unfold State.drainEnd
    simp only [hl, Bool.false_eq_true, if_false]
    refine congrArg₂ State.react rfl (congrArg Reaction.ofCode (Eq.trans ?_ hreaction))
    unfold drained
    obtain ⟨f, hf⟩ := judgeBench_bench _
    rw [hf]
    rfl
  show execDrainComplete s = _
  unfold execDrainComplete
  rw [hd, hg]
  dsimp only
  rw [if_pos (by simp [hf]), hend]

/-- A warm reset is held while the flash works, unless a power failure or a trip came too (R418). -/
theorem react_warmHeld (s : State) (hf : s.flash.state ≠ .idle) (ht : s.bench.triggers &&& codeMask [1, 2, 6] = 0) :
    (s.react .warm).bench = s.bench ∧ (s.react .warm).psq = { s.psq with flashHold := some .warm } ∧ (s.react .warm).wdg.hold = true := by
  unfold State.react
  dsimp only
  rw [if_pos (by simp [hf, ht])]
  exact ⟨cause_bench _ _ _ _ _, cause_psq _ _ _ _ _, congrArg Wdg.hold ((cause_keeps _ _ _ _ _).wdg (by decide))⟩

/-- With the flash idle it takes the main domain down at once (R200, R440). -/
theorem react_warmRuns (s : State) (hf : s.flash.state = .idle) (hp : s.psq.pstate = .active) :
    (s.react .warm).psq.drainDone = s.psq.drainDone ∧ (s.react .warm).psq.warm = true ∧ (s.react .warm).psq.mainUp = false ∧
      (s.react .warm).flash.cores = .off := by
  have hreact : s.react .warm = s.mainReset.setPsq { s.mainReset.psq with
      warm := true, flashHold := none, burst := none, waiting := { s.mainReset.psq.waiting with keepEnter := false } } := by
    unfold State.react
    dsimp only
    rw [if_neg (by simp [hf])]
    show s.warmReset = _
    unfold State.warmReset
    dsimp only
    rw [setPsq_psq, mainReset_psq]
    simp only [hp]
  rw [hreact, setPsq_psq, mainReset_psq]
  exact ⟨rfl, rfl, rfl, (congrArg Flash.cores ((setPsq_keeps _ _).flash (by decide))).trans (mainReset_cores s)⟩

/-- Settles O6: each trigger is taken with the domain open, and the end of the drain carries out or holds its reaction. -/
theorem drainTriggers : Obligations.DrainTriggers := by
  refine ⟨fun s hv hd ho hp => ?_, fun s hv hd ho hp => ?_, fun s hv hs hd ho => ?_, fun s hm ht hd ho => ?_, fun s hv hm hn hl hd ho => ?_,
    fun s hv he hp hd ho => ?_, fun s hv hp hd ho => ?_, fun s g ho hg hfl hov => ?_, fun s g hd hg hf hl hr hb ht => ?_,
    fun s g hd hg hf hl hr hb hp => ?_⟩
  · refine ⟨_, congrArg Host.Outcome.next (if_pos hv), ?_⟩
    obtain ⟨h1, h2, h3⟩ := inputBad_active s 1 hd ho hp rfl
    exact ⟨h1, h2, by rw [h3]; simp⟩
  · refine ⟨_, congrArg Host.Outcome.next (if_pos hv), ?_⟩
    obtain ⟨h1, h2, h3⟩ := inputBad_active s 2 hd ho hp rfl
    exact ⟨h1, h2, by rw [h3]; simp⟩
  · refine ⟨_, if_pos ⟨hv, hs⟩, ?_⟩
    generalize hu : State.setWdg _ _ = u
    have hpsq : u.psq = s.psq := by rw [← hu]; exact cause_psq _ _ _ _ _
    have hbench : u.bench = s.bench := by rw [← hu]; exact cause_bench _ _ _ _ _
    have hwdg : u.wdg = { s.wdg with stage := .paused, ms := 0 } := by rw [← hu, setWdg_wdg, (cause_keeps _ _ _ _ _).wdg (by decide)]
    obtain ⟨h1, h2, -⟩ := drain_starts (s := s) 8 hbench (hpsq ▸ hd) ho rfl
    exact ⟨h1, h2, by rw [takeTrigger_wdg u 8 (hpsq ▸ hd) (hbench ▸ ho), hwdg]⟩
  · refine ⟨_, congrArg Host.Outcome.next (if_pos (by simp [hm, ht])), ?_⟩
    obtain ⟨h1, h2, h3⟩ := drain_starts (s := s) (u := (s.setPsq { s.psq with tripHold := true }).cause Reg.PSQ_CAUSE 0 8 360) 6
      (cause_bench _ _ _ _ _) (by rw [cause_psq]; exact hd) ho rfl
    exact ⟨h1, h2, h3.trans (cause_psq _ _ _ _ _)⟩
  · obtain ⟨h1, h2, h3⟩ := drain_starts (s := s) (u := (s.setPsq { s.psq with mrLow := true }).cause Reg.PSQ_CAUSE 0 6 358) 4
      (cause_bench _ _ _ _ _) (by rw [cause_psq]; exact hd) ho rfl
    refine ⟨_, ?_, h1, h2, h3.trans (cause_psq _ _ _ _ _)⟩
    show execMrN true s = _
    unfold execMrN
    dsimp only
    rw [if_neg (by simp [hv, hm])]
    show (match s.psq.pstate with | .dormant | .lockout => _ | _ => _) = _
    cases hst : s.psq.pstate <;> first | rfl | exact absurd hst hn | exact absurd hst hl
  · obtain ⟨h1, h2, h3⟩ := drain_starts (s := s) (u := (s.cause Reg.PSQ_CAUSE 0 5 357).setPState .poweringDown) 3
      ((setPState_bench _ _).trans (cause_bench _ _ _ _ _)) (by rw [setPState_psq, cause_psq]; exact hd) ho rfl
    refine ⟨_, ?_, h1, h2, h3.trans (by rw [setPState_psq, cause_psq])⟩
    show execPbForced s = _
    unfold execPbForced State.offRequest
    rw [if_neg (by simp [hv, he]), cause_psq]
    rcases hp with hp | hp <;> rw [hp] <;> rfl
  · refine ⟨_, congrArg Host.Outcome.next (if_pos hv), ?_⟩
    have henter : s.keepEnter = (s.setPState .enteringKeep).takeTrigger 9 := by
      unfold State.keepEnter
      rcases hp with hp | hp <;> rw [hp]
    dsimp only
    rw [henter, takeTrigger_psq _ _ (by rw [setPState_psq]; exact hd) (by rw [setPState_bench]; exact ho), setPState_psq]
  · have hexec : exec .orderlyFlushComplete s = .next (s.startDrain g.first true) := by
      show execOrderlyFlushComplete s = _
      unfold execOrderlyFlushComplete
      rw [ho, hg]
      dsimp only
      rw [if_pos (by simp [hfl, hov])]
    have hview := startDrain_view s g.first true
    simp only [drainView, Prod.mk.injEq, hg] at hview
    obtain ⟨h1, h2, -, h4⟩ := hview
    exact ⟨_, hexec, h1, h2, h4⟩
  · obtain ⟨b1, b2, b3, -, b5, b6, b7⟩ := drained_bench s g
    obtain ⟨r1, r2, r3⟩ := react_warmHeld (drained s g) (by rw [drained_flash]; exact hb) (by rw [b3]; exact ht)
    refine ⟨_, drainComplete_reacts s g hd hg hf hl, ?_⟩
    rw [hr, show Reaction.ofCode 1 = .warm from rfl]
    simp only [State.desc] at b5 b6 b7 ⊢
    rw [r1, r2, drained_psq]
    exact ⟨b1, b2, b5, b6, b7, rfl, rfl, r3⟩
  · obtain ⟨r1, r2, r3, r4⟩ := react_warmRuns (drained s g) (by rw [drained_flash]; exact hb) (by rw [drained_psq]; exact hp)
    refine ⟨_, drainComplete_reacts s g hd hg hf hl, ?_⟩
    rw [hr, show Reaction.ofCode 1 = .warm from rfl]
    exact ⟨r1.trans (by rw [drained_psq]), r2, r3, r4⟩

end Sys2Proof.DrainTrigger

/-! The step and the state after reset. -/

namespace Sys2Proof.StepReset

open Sys2Proof.Machine

/-- A step on a queue that is not empty carries out its front command with the rest in place. -/
theorem step_cons (c : Instr) (rest : List Instr) (s : State) (h : s.pending = c :: rest) : step s = exec c { s with pending := rest } := by
  unfold step
  rw [h]

/-- Settles O1: the queue's front is taken, and putting a command in front and taking it leaves the state. -/
theorem stepRunsFront : Obligations.StepRunsFront := ⟨step_cons, fun c s => step_cons c s.pending _ rfl⟩

/-- With no register written each reads its reset word. -/
theorem reg_reset (r : Reg) (k : Nat) : State.reset.reg r k = r.resetWord := rfl

/-- Channel 0 alone is assigned. -/
theorem chan_reset (c : Nat) (h : c ≠ 0) : State.reset.chan c = {} := by
  show Tab.get ({} : Chan) channelsAtReset c = {}
  simp [channelsAtReset, Tab.get, Ne.symm h]

/-- Settles O2: the register tables' reset words, and the fields of the state after reset. -/
theorem resetRegisters : Obligations.ResetRegisters := by
  refine ⟨reg_reset, by decide, by decide, by decide, by decide, by decide, by decide, rfl, rfl, rfl, rfl, rfl, rfl, fun c hc => ?_, rfl⟩
  exact congrArg Chan.who (chan_reset c hc)

end Sys2Proof.StepReset

/-! What is read off a part that an operation keeps: registers, causes and the parts a captured cause leaves. -/

namespace Sys2Proof.Readings

open Sys2Proof.Machine State

section
variable {s t : State} (h : t.regs = s.regs)
include h

theorem reg_of_regs (r : Reg) (k : Nat) : t.reg r k = s.reg r k := by simp only [reg, h]

theorem fld_of_regs (r : Reg) (k hi lo : Nat) : t.fld r k hi lo = s.fld r k hi lo := by simp only [fld, reg_of_regs h]

theorem bit_of_regs (r : Reg) (k b : Nat) : t.bit r k b = s.bit r k b := by simp only [bit, reg_of_regs h]

end

/-- A captured cause is none of the power state's, the bench's or the medium's business. -/
theorem cause_psq (s : State) (r : Reg) (k b n : Nat) : (s.cause r k b n).psq = s.psq := (cause_keeps s r k b n).psq (by decide)

theorem cause_bench (s : State) (r : Reg) (k b n : Nat) : (s.cause r k b n).bench = s.bench := (cause_keeps s r k b n).bench (by decide)

end Sys2Proof.Readings

/-! The sequencer and the rails (R430 to R437): what starts, qualifies, drops, falls and fails, and what the commits take. -/

namespace Sys2Proof.RailSequencer

open Sys2Proof.Machine State Sys2Proof.Readings

/-! ### Rails and the transition -/

theorem rail_railCause (s : State) (k b j : Nat) : (s.railCause k b).rail j = s.rail j := rail_of_psq (railCause_psq s k b) j

theorem allRails_false {s : State} {set : BitVec 24} {x : RailState} (j : Fin 24) (h : set.getLsbD j = true) (hj : (s.rail j).state ≠ x) :
    s.allRails set x = false := by
  unfold State.allRails
  rw [List.all_eq_false]
  exact ⟨j, List.mem_range.2 j.isLt, by simp [h, hj]⟩

theorem allOff_false {s : State} {set : BitVec 24} (j : Fin 24) (h : set.getLsbD j = true) (hj : (s.rail j).pg = true) : s.allOff set = false := by
  unfold State.allOff
  rw [List.all_eq_false]
  exact ⟨j, List.mem_range.2 j.isLt, by simp [h, hj]⟩

/-- An upward transition with a rail of its set not yet on, and no off request waiting, goes on. -/
theorem transCheck_up {s : State} {t : Trans} (ht : s.psq.trans = some t) (hg : t.goingDown = false) (hw : s.psq.waiting.off = false) (j : Fin 24)
    (hj : t.rails.getLsbD j = true) (hs : (s.rail j).state ≠ .on) : s.transCheck = s := by
  unfold State.transCheck
  rw [ht]
  dsimp only
  rw [if_neg (by simp [hg]), if_neg (by rw [allRails_false j hj hs]; decide)]
  unfold State.offCheck
  rw [ht]
  dsimp only
  rw [if_neg (by simp [hw])]

/-- A downward transition with a rail of its set still good goes on. -/
theorem transCheck_down {s : State} {t : Trans} (ht : s.psq.trans = some t) (hg : t.goingDown = true) (j : Fin 24)
    (hj : t.rails.getLsbD j = true) (hs : (s.rail j).pg = true) : s.transCheck = s := by
  unfold State.transCheck
  rw [ht]
  dsimp only
  rw [if_pos hg, if_neg (by rw [allOff_false j hj hs]; decide)]

theorem qualifying_of {s : State} {k : Nat} {t : Trans} (ht : s.psq.trans = some t) (hg : t.goingDown = false) (hk : t.rails.getLsbD k = true)
    (hs : (s.rail k).state = .ramp ∨ (s.rail k).state = .qual) : qualifying s k = true := by
  unfold qualifying
  rw [ht]
  rcases hs with hs | hs <;> simp [hg, hk, hs]

/-- A rail set leaves the rest of the supervisor. -/
theorem setRail_trans (s : State) (k : Nat) (v : Rail) : (s.setRail k v).psq.trans = s.psq.trans := rfl

theorem setRail_waiting (s : State) (k : Nat) (v : Rail) : (s.setRail k v).psq.waiting = s.psq.waiting := rfl

/-! ### A downward transition begins -/

/-- Lowering a rail takes its enable alone. -/
theorem lowerRail_pg (s : State) (set : BitVec 24) (k j : Nat) : ((s.lowerRail set k).rail j).pg = (s.rail j).pg := by
  unfold State.lowerRail
  dsimp only
  split
  · by_cases hj : j = k
    · subst hj; rw [rail_setRail]
    · rw [rail_setRail_ne _ _ hj]
  · rfl

/-- A rail that is enabled and good is still good as a downward transition begins: only its regulator's fall takes its PG. -/
theorem startDown_pg (s : State) (kind : TransKind) (set : BitVec 24) (j : Nat) (he : (s.rail j).en = true) (hp : (s.rail j).pg = true) :
    ((s.startDown kind set).rail j).pg = true := by
  have off : ∀ (l : List Nat) (u : State), (u.rail j).en = true → (u.rail j).pg = true → ((l.foldl (fun (s : State) k =>
      let r := s.rail k
      if set.getLsbD k && !r.en then s.setRail k { r with state := .off, pg := false } else s) u).rail j).pg = true := by
    intro l
    induction l with
    | nil => exact fun u _ h => h
    | cons k l ih =>
      intro u hue hup
      rw [List.foldl_cons]
      have hsame : ∀ v : State, v.rail j = u.rail j → (v.rail j).en = true ∧ (v.rail j).pg = true := fun v h => by rw [h]; exact ⟨hue, hup⟩
      have hone : (let r := u.rail k
          if (set.getLsbD k && !r.en) = true then u.setRail k { r with state := .off, pg := false } else u).rail j = u.rail j := by
        dsimp only
        split
        next h =>
          refine rail_setRail_ne _ _ fun e => ?_
          subst e
          simp [hue] at h
        next => rfl
      obtain ⟨h1, h2⟩ := hsame _ hone
      exact ih _ h1 h2
  have lower : ∀ (l : List Nat) (u : State), ((l.foldl (fun (s : State) k =>
      if (dependsOn s.psq.seqAct set k).isEmpty then s.lowerRail set k else s) u).rail j).pg = (u.rail j).pg := by
    intro l
    induction l with
    | nil => exact fun u => rfl
    | cons k l ih =>
      intro u
      rw [List.foldl_cons, ih]
      split
      · exact lowerRail_pg _ _ _ _
      · rfl
  exact (lower _ _).trans (off _ _ he hp)

/-! ### Faults (R436, R437) -/

theorem quiet_railCause : ∀ k : Fin 24, quiet (Reg.PSQ_RAIL_CAUSE.at k) = true := by decide

theorem bit_railCause (s : State) (k : Fin 24) (b : Nat) (hb : b < 32) : (s.railCause k b).bit Reg.PSQ_RAIL_CAUSE k b = true :=
  bit_cause_same _ _ _ (quiet_railCause k) _ _ hb

theorem railRetry_railCause (s : State) (k : Fin 24) (b : Nat) : (s.railCause k b).railRetry k = s.railRetry k := by
  have h0 : ∀ k : Fin 24, Reg.PSQ_RETRY0.at 0 ≠ Reg.PSQ_RAIL_CAUSE.at k := by decide
  have h1 : ∀ k : Fin 24, Reg.PSQ_RETRY1.at 0 ≠ Reg.PSQ_RAIL_CAUSE.at k := by decide
  have h2 : ∀ k : Fin 24, Reg.PSQ_RETRY2.at 0 ≠ Reg.PSQ_RAIL_CAUSE.at k := by decide
  unfold State.railRetry State.railCause
  rw [fld_cause_ne _ _ _ (by decide) _ _ _ _ _ _ (h0 k), fld_cause_ne _ _ _ (by decide) _ _ _ _ _ _ (h1 k),
    fld_cause_ne _ _ _ (by decide) _ _ _ _ _ _ (h2 k)]

theorem railReaction_railCause (s : State) (k : Fin 24) (b : Nat) : (s.railCause k b).railReaction k = s.railReaction k := by
  have h0 : ∀ k : Fin 24, Reg.PSQ_REACTION0.at 0 ≠ Reg.PSQ_RAIL_CAUSE.at k := by decide
  have h1 : ∀ k : Fin 24, Reg.PSQ_REACTION1.at 0 ≠ Reg.PSQ_RAIL_CAUSE.at k := by decide
  unfold State.railReaction State.railCause
  rw [fld_cause_ne _ _ _ (by decide) _ _ _ _ _ _ (h0 k), fld_cause_ne _ _ _ (by decide) _ _ _ _ _ _ (h1 k)]

/-- The rail's fault captured, with the reaction carried out and the retries it has written to PSQ_LAST_FAULT. -/
def faultNoted (s : State) (k rx : Nat) : State :=
  let s1 := s.lastFault k rx (s.railRetry k) false
  s1.deviceRecord (328 + k) (s1.reg Reg.PSQ_LAST_FAULT)

theorem faultNoted_psq (s : State) (k rx : Nat) : (faultNoted s k rx).psq = s.psq :=
  ((deviceRecord_keeps _ _ _).psq (by decide)).trans ((lastFault_keeps _ _ _ _ _).psq (by decide))

theorem faultNoted_bench (s : State) (k rx : Nat) : (faultNoted s k rx).bench = s.bench :=
  ((deviceRecord_keeps _ _ _).bench (by decide)).trans ((lastFault_keeps _ _ _ _ _).bench (by decide))

theorem reg_faultNoted (s : State) (k rx : Nat) :
    (faultNoted s k rx).reg Reg.PSQ_LAST_FAULT = BitVec.ofNat 32 (k + rx * 32 + s.railRetry k * 128 + 0 * 1024) :=
  (reg_record _ _ _ (by decide) _ _ _ _ _).trans (reg_setReg _ _ _ _)

theorem bit_faultNoted (s : State) (k : Fin 24) (rx b : Nat) : (faultNoted s k rx).bit Reg.PSQ_RAIL_CAUSE k b = s.bit Reg.PSQ_RAIL_CAUSE k b := by
  have hne : ∀ k : Fin 24, Reg.PSQ_RAIL_CAUSE.at k ≠ Reg.PSQ_LAST_FAULT.at 0 := by decide
  exact (bit_record _ _ _ (quiet_railCause k) _ _ _ _ _ _).trans (congrArg (BitVec.getLsbD · b) (reg_setReg_ne _ _ (hne k)))

/-- With no transition the reactions NONE and SYSTEM_RESET are carried out as they are (Table 17-3). -/
theorem railReact_none {s : State} {k : Nat} (hr : s.railReaction k = 0) (ht : s.psq.trans = none) : s.railReact k = faultNoted s k 0 := by
  have heff : effectiveReaction (s.seq k).group (s.railReaction k) (s.rail k).retries.toNat (s.railRetry k) = (0, false) := by
    rw [hr]; rfl
  unfold State.railReact
  dsimp only
  rw [heff]
  have hbusy : (faultNoted s k 0).psq.trans.isSome = false := by rw [faultNoted_psq, ht]; rfl
  show (if 0 = 3 then _ else if _ then _ else _) = _
  simp only [show ¬ (0 = 3) by decide, decide_true, Bool.true_or, if_true, if_false]
  exact if_neg (by rw [← faultNoted, hbusy]; decide)

theorem railReact_reset {s : State} {k : Nat} (hr : s.railReaction k = 3) (ht : s.psq.trans = none) :
    s.railReact k = (faultNoted s k 3).takeTrigger 5 := by
  have heff : effectiveReaction (s.seq k).group (s.railReaction k) (s.rail k).retries.toNat (s.railRetry k) = (3, false) := by
    rw [hr]; rfl
  unfold State.railReact
  dsimp only
  rw [heff]
  have hbusy : (faultNoted s k 3).psq.trans.isSome = false := by rw [faultNoted_psq, ht]; rfl
  refine (if_pos rfl).trans (congrArg (State.takeTrigger · 5) (if_neg ?_))
  rw [← faultNoted, hbusy]
  decide

theorem railFault_reacts {s : State} {k : Fin 24} (hs : (s.rail k).state = .on) (he : (s.rail k).en = true) (hd : s.psq.down = none)
    (ht : s.psq.trans = none) :
    exec (.railFault k) s = .next (((s.setRail k { s.rail k with pg := false }).railCause k 2).railReact k) := by
  show execRailFault k s = _
  unfold execRailFault
  dsimp only
  rw [if_neg (by simp [hs, he]), hd, ht]
  rfl

/-! ### A ramp timeout (R433) -/

/-- What stands as a rail that failed in a power-up has its transition's rails go down: the attempt counted, the cause captured. -/
def attemptFailed (s : State) (k : Nat) : State :=
  let s1 := s.setRail k { s.rail k with state := .failed }
  (s1.setPsq { s1.psq with attempt := s1.psq.attempt + 1 }).cause Reg.PSQ_CAUSE 0 1 353

theorem attemptFailed_psq (s : State) (k : Nat) :
    (attemptFailed s k).psq = { (s.setRail k { s.rail k with state := .failed }).psq with attempt := s.psq.attempt + 1 } := cause_psq _ _ _ _ _

theorem attemptFailed_good (s : State) (k j : Nat) (he : (s.rail j).en = true) (hp : (s.rail j).pg = true) :
    ((attemptFailed s k).rail j).en = true ∧ ((attemptFailed s k).rail j).pg = true := by
  have hrail : (attemptFailed s k).rail j = (s.setRail k { s.rail k with state := .failed }).rail j := by
    simp only [rail, attemptFailed_psq]
  rw [hrail]
  by_cases hj : j = k
  · subst hj; rw [rail_setRail]; exact ⟨he, hp⟩
  · rw [rail_setRail_ne _ _ hj]; exact ⟨he, hp⟩

/-- A rail that fails in a power-up brings the transition's rails down, which takes until the last of them is no longer good. -/
theorem railFail_powerUp {s : State} {t0 : Machine.Trans} (ht : s.psq.trans = some t0) (hk : t0.kind = .powerUp) (hw : s.psq.waiting.off = false)
    (k j : Fin 24) (hj : t0.rails.getLsbD j = true) (he : (s.rail j).en = true) (hp : (s.rail j).pg = true) :
    s.railFail k = (attemptFailed s k).startDown .powerUp t0.rails := by
  have hfail : s.railFail k = ((attemptFailed s k).startDown .powerUp t0.rails).transCheck := by
    unfold State.railFail
    extract_lets r s1
    have hs1 : s1.psq.trans = some t0 := ht
    split
    next h => rw [hs1] at h; cases h
    next t h =>
      obtain rfl : t = t0 := Option.some.inj (h.symm.trans hs1)
      rw [hk]
      dsimp only
      rw [if_neg (show ¬ s1.psq.waiting.off = true from Bool.eq_false_iff.1 hw)]
      rfl
  obtain ⟨r, hr⟩ := startDown_psq (attemptFailed s k) .powerUp t0.rails
  obtain ⟨he', hp'⟩ := attemptFailed_good s k j he hp
  rw [hfail, transCheck_down (t := ⟨.powerUp, t0.rails, true⟩) (by rw [hr]) rfl j hj (startDown_pg _ _ _ _ he' hp')]

/-! ### The commits (R430, R431) -/

/-- Settles O7: each command's guard holds, what it sets is read off, and the transition goes on while another rail of its set holds it. -/
theorem railSequencing : Obligations.RailSequencing := by
  refine ⟨fun s k t0 ht hg hw hk hs hi hdep => ?_, fun s k t0 j ht hg hw hk hs hne hj hon => ?_, fun s k j t0 ht hg hkind hw hk hs hj he hp => ?_,
    fun s k t0 ht hg hk hs hn => ?_, fun s hb hp => ?_, fun s k j t0 ht hg he hp hs hne hj hjp => ?_, fun s k t0 ht hg hk he hp hdep => ?_,
    fun s k hs he hd ht hr => ?_, fun s k hs he hd ht hr ho => ?_, fun s k hs he hgl => ?_, fun s k => ?_, fun s hv hl ht hin hcy => ?_,
    fun s hv hl ht => ?_, fun s hv hl he => ?_⟩
  · have hmet : ((List.range 24).all fun j =>
        !((s.seq k).dep.getLsbD j && t0.rails.getLsbD j) || (s.rail j).state == .on || !(s.seq j).en) = true := by
      rw [List.all_eq_true]
      intro j hj
      have := hdep j (List.mem_range.1 hj)
      by_cases h1 : (s.seq k).dep.getLsbD j = true <;> by_cases h2 : t0.rails.getLsbD j = true <;> by_cases h3 : (s.seq j).en = true <;> simp_all
    have hstart : s.railStart k = s.setRail k { s.rail k with state := .ramp, en := true, drops := 0 } := by
      unfold State.railStart
      rw [ht]
      dsimp only
      rw [hmet, if_pos (by simp [hg, hw, hk, hs, hi])]
    refine ⟨_, congrArg Host.Outcome.next hstart, rail_setRail _ _ _, fun j hj => rail_setRail_ne _ _ hj⟩
  · refine ⟨_, congrArg Host.Outcome.next ((if_pos (qualifying_of ht hg hk hs)).trans (transCheck_up ht hg hw j hj ?_)), rail_setRail _ _ _, ht⟩
    rw [rail_setRail_ne _ _ (by exact fun e => hne (Fin.ext e))]
    exact hon
  · have hrails : (s.railCause k 0).railFail k = (attemptFailed (s.railCause k 0) k).startDown .powerUp t0.rails :=
      railFail_powerUp (by rw [railCause_psq]; exact ht) hkind (by rw [railCause_psq]; exact hw) k j hj (by rw [rail_railCause]; exact he)
        (by rw [rail_railCause]; exact hp)
    refine ⟨_, congrArg Host.Outcome.next ((if_pos (qualifying_of ht hg hk hs)).trans hrails), ?_⟩
    obtain ⟨r, hr⟩ := startDown_psq (attemptFailed (s.railCause k 0) k) .powerUp t0.rails
    have hregs := (startDown_keeps (attemptFailed (s.railCause k 0) k) .powerUp t0.rails).regs (by decide)
    have hne : ∀ k : Fin 24, Reg.PSQ_RAIL_CAUSE.at k ≠ Reg.PSQ_CAUSE.at 0 := by decide
    refine ⟨?_, by rw [hr], ?_, ?_⟩
    · rw [hr]
      dsimp only
      rw [attemptFailed_psq, railCause_psq]
    · exact (bit_of_regs hregs _ _ _).trans ((bit_cause_ne _ _ _ (quiet_railCause k) _ _ _ _ _ (hne k)).trans (bit_railCause s k 0 (by decide)))
    · exact (bit_of_regs hregs _ _ _).trans (bit_cause_same _ _ _ (by decide) _ _ (by decide))
  · refine ⟨_, (if_pos (qualifying_of ht hg hk hs)).trans (congrArg Host.Outcome.next (if_neg (by omega))), rail_setRail _ _ _⟩
  · obtain ⟨r, hr⟩ := startUp_psq (s.setPsq { s.psq with backoff := false }) .powerUp s.enabledRails
    refine ⟨(s.setPsq { s.psq with backoff := false }).startUp .powerUp s.enabledRails, ?_, ?_⟩
    · show execSeqRetryBackoffExpiry s = _
      unfold execSeqRetryBackoffExpiry
      rw [if_neg (by simp [hb])]
      simp only [setPsq_psq, hp]
      rfl
    · dsimp only
      rw [hr]
      exact ⟨rfl, congrArg some (congrArg (Machine.Trans.mk TransKind.powerUp · false) BitVec.and_self)⟩
  · have hset : (s.setRail k { s.rail k with pg := false, state := .off }).psq.trans = some t0 := ht
    have hstate : (if ((s.rail k).state == .failed || (s.rail k).state == .down) = true then (s.rail k).state else .off) = RailState.off := by
      rw [hs]; rfl
    refine ⟨_, congrArg Host.Outcome.next ((if_pos (by rw [he, hp]; rfl)).trans ?_), rail_setRail s k { s.rail k with pg := false, state := .off }, hset⟩
    dsimp only
    rw [hstate]
    exact transCheck_down hset hg j hj (by rw [rail_setRail_ne _ _ (fun e => hne (Fin.ext e))]; exact hjp)
  · have hall : ((dependsOn s.psq.seqAct t0.rails k).all fun j => !(s.rail j).en && !(s.rail j).pg) = true := by
      rw [List.all_eq_true]
      intro j hj
      obtain ⟨h1, h2⟩ := hdep j hj
      simp [h1, h2]
    have hlower : s.lowerRail t0.rails k = s.setRail k { s.rail k with en := false } := if_pos (by rw [hk, he, hall]; rfl)
    refine ⟨s.setRail k { s.rail k with en := false }, ?_, rail_setRail _ _ _, fun j hj => rail_setRail_ne _ _ hj⟩
    show execOffDwellExpiry k s = _
    unfold execOffDwellExpiry
    rw [ht]
    dsimp only
    have hgoes : (s.setRail k { s.rail k with en := false }).transCheck = s.setRail k { s.rail k with en := false } :=
      transCheck_down ht hg k hk (by rw [rail_setRail]; exact hp)
    rw [if_pos hg, hlower, hgoes]
  · have hreact := railReact_none (s := (s.setRail k { s.rail k with pg := false }).railCause k 2) (k := k)
      ((railReaction_railCause _ _ _).trans hr) (by rw [railCause_psq]; exact ht)
    refine ⟨_, (railFault_reacts hs he hd ht).trans (congrArg Host.Outcome.next hreact), ?_, ?_, ?_⟩
    · exact (rail_of_psq (faultNoted_psq _ _ _) k).trans ((rail_railCause _ _ _ _).trans (rail_setRail _ _ _))
    · exact (bit_faultNoted _ _ _ _).trans (bit_railCause _ _ _ (by decide))
    · rw [reg_faultNoted, railRetry_railCause]
      rfl
  · have hreact := railReact_reset (s := (s.setRail k { s.rail k with pg := false }).railCause k 2) (k := k)
      ((railReaction_railCause _ _ _).trans hr) (by rw [railCause_psq]; exact ht)
    refine ⟨_, (railFault_reacts hs he hd ht).trans (congrArg Host.Outcome.next hreact), ?_⟩
    generalize hu : faultNoted ((s.setRail k { s.rail k with pg := false }).railCause k 2) k 3 = u
    have hpsq : u.psq = (s.setRail k { s.rail k with pg := false }).psq := by rw [← hu, faultNoted_psq, railCause_psq]
    have hbench : u.bench = s.bench := by rw [← hu, faultNoted_bench]; exact cause_bench _ _ _ _ _
    have hud : u.psq.down = none := by rw [hpsq]; exact hd
    have huo : u.bench.domain = .opened := by rw [hbench]; exact ho
    have hview := takeTrigger_opened u 5 hud huo (by decide)
    rw [hbench] at hview
    refine ⟨?_, congrArg Prod.fst hview, congrArg (fun v => v.2.1) hview⟩
    exact (rail_of_psq (takeTrigger_psq u 5 hud huo) k).trans ((rail_of_psq hpsq k).trans (rail_setRail _ _ _))
  · refine ⟨_, congrArg Host.Outcome.next (if_pos (by rw [hs, he]; rfl)), ?_, bit_railCause _ _ _ (by decide)⟩
    rw [if_neg hgl]
    exact (rail_railCause _ _ _ _).trans (rail_setRail _ _ _)
  · exact ⟨_, rfl, rail_setRail _ _ _, fun j hj => rail_setRail_ne _ _ hj⟩
  · have hall : ((List.range 24).all fun k => (seqAt s.psq.seqSh k).inRange) = true := by
      rw [List.all_eq_true]
      exact fun k hk => hin k (List.mem_range.1 hk)
    refine ⟨_, congrArg Host.Outcome.next (if_pos hv), ?_⟩
    unfold State.seqCommit
    dsimp only
    rw [hl, ht, hall, hcy]
    refine ⟨(nvWrite_keeps _ _ _).psq (by decide), ?_⟩
    exact (fld_of_regs ((nvWrite_keeps _ _ _).regs (by decide)) _ _ _ _).trans (fld_setFld s _ _ _ _ _ (by decide) (by decide) (by decide))
  · refine ⟨_, congrArg Host.Outcome.next (if_pos hv), ?_⟩
    unfold State.seqCommit
    dsimp only
    rw [hl, ht]
    refine ⟨cause_psq _ _ _ _ _, ?_, bit_cause_same _ _ _ (by decide) _ _ (by decide)⟩
    exact (fld_cause_ne _ _ _ (by decide) _ _ _ _ _ _ (by decide)).trans (fld_setFld s _ _ _ _ _ (by decide) (by decide) (by decide))
  · refine ⟨_, congrArg Host.Outcome.next (if_pos hv), ?_⟩
    unfold State.mapCommit
    dsimp only
    rw [hl, he]
    have hregs : ∀ (u : State) (key : Nat) (l : List Nat), (u.nvWrite key l).regs = u.regs := fun _ _ _ => (nvWrite_keeps _ _ _).regs (by decide)
    refine ⟨?_, ?_, ?_⟩
    · exact (reg_of_regs (hregs _ _ _) _ _).trans ((reg_setReg_ne _ _ (by decide)).trans (reg_setReg _ _ _ _))
    · exact (reg_of_regs (hregs _ _ _) _ _).trans (reg_setReg _ _ _ _)
    · refine (fld_of_regs (hregs _ _ _) _ _ _ _).trans ?_
      unfold fld
      rw [reg_setReg_ne _ _ (by decide), reg_setReg_ne _ _ (by decide)]
      exact fld_setFld s _ _ _ _ _ (by decide) (by decide) (by decide)

end Sys2Proof.RailSequencer

/-! The power states (Table 17-6, R428, R443 to R447): what enters and leaves each of them. -/

namespace Sys2Proof.PowerMoves

open Sys2Proof.Machine State Sys2Proof.Readings Sys2Proof.RailSequencer

theorem level_psq (s : State) (r : Reg) (k b n m : Nat) (v : Bool) : (s.level r k b n m v).psq = s.psq := (level_keeps s r k b n m v).psq (by decide)

/-- A level sets its own bit and no other. -/
theorem bit_level_apart (s : State) {r : Reg} {k : Nat} (h : quiet (r.at k) = true) (b n m : Nat) (v : Bool) {c : Nat} (hc : c < 32) (hb : c ≠ b) :
    (s.level r k b n m v).bit r k c = s.bit r k c := by
  have hset : (s.setBit r k b v).bit r k c = s.bit r k c := bit_setBit_ne _ _ _ _ hb hc
  unfold State.level
  dsimp only
  split
  · exact (bit_raise _ _ _ h _ _).trans hset
  · split
    · exact hset
    · exact hset

/-! ### On requests -/

/-- What waits to be powered up is, where nothing holds the device back (R428). -/
theorem tryOn_starts {s : State} (h : s.canTryOn = true) :
    s.tryOn.psq.pstate = .poweringUp ∧ s.tryOn.psq.trans = some { kind := .powerUp, rails := s.enabledRails } := by
  rw [tryOn_powerUp _ h]
  obtain ⟨hstate, htrans, -⟩ := powerUp_psq s
  exact ⟨hstate, htrans⟩

/-- What opening the domain leaves of a power-up. -/
theorem tryOpen_starting {s : State} {r : BitVec 24} (h : s.psq.pstate = .poweringUp ∧ s.psq.trans = some { kind := .powerUp, rails := r }) :
    s.tryOpen.psq.pstate = .poweringUp ∧ s.tryOpen.psq.trans = some { kind := .powerUp, rails := r } := by
  obtain ⟨b, hb⟩ := tryOpen_psq s
  rw [hb]
  exact h

theorem judgeInput_psq (s : State) : s.judgeInput.psq = s.psq := level_psq _ _ _ _ _ _ _

/-! ### VAON (R425) -/

/-- What the rise of VAON leaves, before the input is judged: DORMANT, with the always-on parts as after reset and the Tally at its floor. -/
def vaonRisen (s : State) : State := { s with
  regs := s.regs.filter fun p => nvOffset p.1
  csr := {}, evt := {}
  tally := { now := s.tally.floor.tally, floor := s.tally.floor, stamps := s.tally.stamps }
  sched := { slots := s.sched.saved, saved := s.sched.saved
             marked := s.sched.saved.foldl (fun (m : BitVec 256) (p : Nat × Slot) => if p.2.arm then m ||| BitVec.twoPow 256 p.1 else m) 0 }
  evr := { s.evr with archiving := false, buckets := Tab.mapVals {} (fun _ b => { b with
    tokens := b.burst.toNat + 1, suppressed := 0 }) s.evr.buckets }
  wdg := {}
  psq := { vaon := true, seqSh := s.psq.seqSh, seqAct := s.psq.seqAct, mrLow := s.psq.mrLow, pbLow := s.psq.pbLow
           pwrFailLow := s.psq.pwrFailLow } }

/-- The state VAON's rise gives where AUTO_ON is clear. -/
def vaonJudged (s : State) : State := ((vaonRisen s).wstampAdvance.cause Reg.PSQ_CAUSE 0 13 365).judgeInput

theorem vaonJudged_psq (s : State) : (vaonJudged s).psq = (vaonRisen s).psq := (judgeInput_psq _).trans (cause_psq _ _ _ _ _)

theorem vaonJudged_nv (s : State) : (vaonJudged s).nv = (vaonRisen s).wstampAdvance.nv :=
  ((judgeInput_keeps _).nv (by decide)).trans ((cause_keeps _ _ _ _ _).nv (by decide))

theorem vaonJudged_tally (s : State) : (vaonJudged s).tally = (vaonRisen s).tally :=
  ((judgeInput_keeps _).tally (by decide)).trans ((cause_keeps _ _ _ _ _).tally (by decide))

/-- AUTO_ON is an NV record: it outlives VAON. -/
theorem vaonJudged_autoOn (s : State) : (vaonJudged s).bit Reg.PSQ_CTRL 0 0 = s.bit Reg.PSQ_CTRL 0 0 := by
  have hrisen : (vaonRisen s).bit Reg.PSQ_CTRL 0 0 = s.bit Reg.PSQ_CTRL 0 0 :=
    congrArg (BitVec.getLsbD · 0) (Tab.get_filter Reg.PSQ_CTRL.resetWord s.regs nvOffset (Reg.PSQ_CTRL.at 0) (by decide))
  have hlevel : ∀ (t : State) (v : Bool), (t.level Reg.PSQ_CAUSE 0 3 355 8 v).bit Reg.PSQ_CTRL 0 0 = t.bit Reg.PSQ_CTRL 0 0 := fun t v => by
    have hset : (t.setBit Reg.PSQ_CAUSE 0 3 v).bit Reg.PSQ_CTRL 0 0 = t.bit Reg.PSQ_CTRL 0 0 :=
      congrArg (BitVec.getLsbD · 0) (reg_setReg_ne _ _ (by decide))
    unfold State.level
    dsimp only
    split
    · exact (bit_raise _ _ _ (by decide) _ _).trans hset
    · split
      · exact hset
      · exact hset
  exact (hlevel _ _).trans ((bit_cause_ne _ _ _ (by decide) _ _ _ _ _ (by decide)).trans hrisen)

theorem vaonPowerUp_dormant {s : State} (hv : s.psq.vaon = false) (ha : s.bit Reg.PSQ_CTRL 0 0 = false) :
    exec .vaonPowerUp s = .next (vaonJudged s) := by
  have hrun : exec .vaonPowerUp s = .next (if (vaonJudged s).bit Reg.PSQ_CTRL 0 0 then (vaonJudged s).onRequest else vaonJudged s) :=
    if_neg (by rw [hv]; decide)
  rw [hrun, vaonJudged_autoOn, ha]
  rfl

/-! ### KEEP (R443 to R445) -/

/-- The entry to KEEP completes: the main domain goes down with its cores in retention and the watchdog paused. -/
theorem keepDone_enters {s : State} (hw : s.psq.waiting.keepLeave = false) :
    s.keepDone.psq = { s.psq with pstate := .keep, mainUp := false, throttle := false } ∧ s.keepDone.flash.cores = .retention ∧
      s.keepDone.wdg = { s.wdg with stage := .paused, ms := 0 } ∧ s.keepDone.bench.domain = .closed := by
  unfold State.keepDone
  dsimp only
  generalize hu : State.evtDown _ = u
  have hkeep : Keeps [.tally, .nv, .regs, .evt, .bench, .evr, .chans, .cxl, .out] s u := by
    rw [← hu]
    exact Keeps.after (evtDown_keeps _) (by decide) (Keeps.after (sourcesLost_keeps _) (by decide) (Keeps.after (benchReset_keeps _) (by decide)
      (Keeps.after (writeDeadline_keeps _) (by decide) (Keeps.after (writeFloor_keeps _ _) (by decide) (Keeps.refl _ _)))))
  have hbench : u.bench.domain = .closed := by
    rw [← hu, (evtDown_keeps _).bench (by decide), (sourcesLost_keeps _).bench (by decide)]
    rfl
  generalize hv : (State.setPState _ PState.keep) = v
  have hvp : v.psq = { s.psq with pstate := .keep, mainUp := false, throttle := false } := by
    rw [← hv, setPState_psq, level_psq, ← hkeep.psq (by decide)]
    rfl
  have hvk : ∀ w : State, Keeps [.regs, .evt, .evr, .chans, .cxl, .out, .psq, .med, .tally] w (((w.setPsq { w.psq with mainUp := false, throttle := false }).level
      Reg.PSQ_CAUSE 0 7 359 128 false).setPState .keep) := fun w =>
    Keeps.after (setPState_keeps _ _) (by decide) (Keeps.after (level_keeps _ _ _ _ _ _ _) (by decide) (Keeps.after (setPsq_keeps _ _) (by decide) (Keeps.refl _ _)))
  rw [if_neg (by rw [hvp]; exact Bool.eq_false_iff.1 hw)]
  refine ⟨hvp, ?_, ?_, ?_⟩
  · rw [← hv, (hvk _).flash (by decide)]
    rfl
  · rw [← hv, (hvk _).wdg (by decide), ← hkeep.wdg (by decide)]
    rfl
  · rw [← hv, (hvk _).bench (by decide)]
    exact hbench

theorem reachActive_active {s : State} (h : s.psq.waiting.keepEnter = false) : s.reachActive.psq.pstate = .active := by
  have hrun : ((s.setPState .active).runHeld).psq = { s.psq with pstate := .active } :=
    ((runHeld_keeps _).psq (by decide)).trans (setPState_psq _ _)
  unfold State.reachActive
  dsimp only
  rw [if_neg (by rw [hrun]; exact Bool.eq_false_iff.1 h), hrun]

/-! ### The power button (R448) -/

theorem pbShort_judges {s : State} (hv : s.psq.vaon = true) (hb : s.bit Reg.PSQ_CTRL 0 2 = true) :
    exec .pbShort s = .next (match s.psq.pstate with
      | .dormant => (s.cause Reg.PSQ_CAUSE 0 4 356).onRequest
      | .lockout => (((s.cause Reg.PSQ_CAUSE 0 4 356).setPsq { (s.cause Reg.PSQ_CAUSE 0 4 356).psq with attempt := 0 }).setPState .dormant).onRequest
      | .active | .idle | .keep => (s.cause Reg.PSQ_CAUSE 0 4 356).offRequest false
      | _ => s.cause Reg.PSQ_CAUSE 0 4 356) := by
  show execPbShort s = _
  unfold execPbShort
  rw [if_neg (by simp [hv, hb])]
  dsimp only
  rw [cause_psq] <;> rfl

/-- An off request while the device runs takes its trigger, and the drain goes first (R428). -/
theorem offRequest_running {s : State} (hp : s.psq.pstate = .active ∨ s.psq.pstate = .idle) (hd : s.psq.down = none) (ho : s.bench.domain = .opened) :
    (s.offRequest false).psq = { s.psq with pstate := .poweringDown } := by
  have hoff : s.offRequest false = (s.setPState .poweringDown).takeTrigger 10 := by
    unfold State.offRequest
    rcases hp with hp | hp <;> rw [hp] <;> rfl
  have hbench : (s.setPState .poweringDown).bench = s.bench := (setPState_keeps _ _).bench (by decide)
  rw [hoff, takeTrigger_psq _ _ (by rw [setPState_psq]; exact hd) (by rw [hbench]; exact ho), setPState_psq]

/-! ### The end of a burst (R446) -/

theorem railsWhere_getLsbD (p : Nat → Bool) {j : Nat} (hj : j < 24) (h : p j = true) : (railsWhere p).getLsbD j = true := by
  have hfold : ∀ (l : List Nat) (m : BitVec 24), m.getLsbD j = true ∨ j ∈ l →
      (l.foldl (fun m k => if p k then m ||| BitVec.twoPow 24 k else m) m).getLsbD j = true := by
    intro l
    induction l with
    | nil => exact fun m hm => hm.resolve_right (List.not_mem_nil)
    | cons k l ih =>
      intro m hm
      refine ih _ ?_
      rcases hm with hm | hm
      · left
        dsimp only
        split <;> simp [hm]
      · rcases List.mem_cons.1 hm with rfl | hm
        · left
          dsimp only
          rw [if_pos h]
          simp [hj]
        · exact Or.inr hm
  exact hfold _ _ (Or.inr (List.mem_range.2 hj))

/-- A burst with no work left writes its anchors and the deadline, and its rails go down; the supervisor's state until then is as it was. -/
theorem burstEnd_lowers {s : State} {g : Fin 9} (hp : s.psq.pstate = .keep) (hb : s.psq.burst = some g) (ht : s.psq.trans = none)
    (hr : (s.pass g).running = false) (hw : (s.pass g).waiting = false) (hm : s.med.yarrow.moves = []) (hwork : s.burstWork g = false) :
    ∃ u : State, u.psq = s.psq ∧ exec .keepBurstEnd s = .next (u.startDown .burstDown (u.burstRails g)).transCheck := by
  have hend : ∀ v : State, v.psq = s.psq →
      ((((v.setPass g { v.pass g with rungs := false }).cause Reg.TSL_CAUSE 0 9 153).rewriteAnchors g).writeDeadline.railsDownGroup g).psq = s.psq := by
    intro v hv
    rw [(railsDownGroup_keeps _ _).psq (by decide), (writeDeadline_keeps _).psq (by decide), (rewriteAnchors_keeps _ _).psq (by decide), cause_psq]
    exact hv
  have hrungs : (if (s.pass g).rungs then (s.groupDies g).foldl (fun s d => s.rewriteRungs d) s else s).psq = s.psq := by
    split
    · exact (Keeps.foldl _ (fun v d => rewriteRungs_keeps v d) (Keeps.refl [.med, .out] s)).psq (by decide)
    · rfl
  refine ⟨_, hend _ hrungs, ?_⟩
  show execKeepBurstEnd s = _
  unfold execKeepBurstEnd
  rw [hb]
  dsimp only
  rw [if_neg (by simp [hp, ht, hr, hw, hm, hwork])]

/-- Settles O8: each command's guard holds, and the supervisor's state is read off its laws. -/
theorem powerStates : Obligations.PowerStates := by
  refine ⟨fun s hv ha => ?_, fun s hv => ?_, fun s hv hi hp ho hc ht => ?_, fun s hw hp ht hi => ?_, fun s ht hp hw hc hi => ?_,
    fun s ht hp hw => ?_, fun s hv hb hp hc ht hi => ?_, fun s hv hb hp hd ho => ?_, fun s hv hp hc ht hi => ?_, fun s hp hm hi => ?_,
    fun s hp => ?_, fun s hp ht hn1 hn2 ha hw => ?_, fun s hv hp => ?_, fun s hp ht hb hm ha hl hw => ?_,
    fun s g j hp hb ht hr hw hm hwork hg hk he hpg => ?_, fun s hm => ?_, fun s hm => ?_, fun s hv hw hmr ht hb hp => ?_⟩
  · refine ⟨_, vaonPowerUp_dormant hv ha, ?_⟩
    dsimp only
    rw [vaonJudged_psq, vaonJudged_nv, vaonJudged_tally]
    refine ⟨rfl, rfl, rfl, ?_, ?_, rfl, rfl, ?_⟩
    · exact (bit_level_apart _ (by decide) _ _ _ _ (by decide) (by decide)).trans (bit_cause_same _ _ _ (by decide) _ _ (by decide))
    · refine (bit_level_same _ _ _ (by decide) _ _ _ (by decide) _).trans ?_
      rw [cause_psq]
      rfl
    · unfold State.wstampAdvance
      dsimp only
      rw [Tab.get_put_same]
      rfl
  · refine ⟨_, if_neg (by rw [hv]; decide), rfl, rfl, ?_, rfl, rfl, rfl, ?_⟩
    · exact ((groupsOff_keeps _).nv (by decide)).trans ((mainReset_keeps s).nv (by decide))
    · exact mainReset_cores s
  · refine ⟨_, if_neg (by rw [hv, hi]; decide), ?_⟩
    dsimp only
    generalize hu : State.judgeInput _ = u
    have hup : u.psq = { s.psq with inputGood := true, pwrFailLow := false } := by rw [← hu]; exact judgeInput_psq _
    rw [if_pos (by rw [hup]; simp [hp, ho])]
    have hen : u.enabledRails = s.enabledRails := enabledRails_of _ _ (by rw [hup])
    rw [← hen]
    exact tryOpen_starting (onRequest_dormant u (by rw [hup]; exact hp) (by rw [hup]; exact hc) (by rw [hup]; exact ht) (by rw [hup]))
  · exact ⟨_, rfl, tryOn_starts (s := s.setPsq { s.psq with coolOff := false }) (by simp [canTryOn, hw, hp, ht, hi])⟩
  · exact ⟨_, congrArg Host.Outcome.next (if_pos (by rw [ht, hp]; rfl)),
      tryOn_starts (s := s.setPsq { s.psq with tripHold := false }) (by simp [canTryOn, hw, hp, hc, hi])⟩
  · exact ⟨_, congrArg Host.Outcome.next ((if_pos (by rw [ht, hp]; rfl)).trans (if_neg (by simp [hw]))), rfl⟩
  · refine ⟨(s.cause Reg.PSQ_CAUSE 0 4 356).onRequest, ?_, ?_⟩
    · rw [pbShort_judges hv hb, hp]
    · rw [← enabledRails_of s (s.cause Reg.PSQ_CAUSE 0 4 356) (by rw [cause_psq])]
      exact onRequest_dormant (s.cause Reg.PSQ_CAUSE 0 4 356) (by rw [cause_psq]; exact hp) (by rw [cause_psq]; exact hc) (by rw [cause_psq]; exact ht)
        (by rw [cause_psq]; exact hi)
  · refine ⟨(s.cause Reg.PSQ_CAUSE 0 4 356).offRequest false, ?_, ?_⟩
    · rw [pbShort_judges hv hb]
      rcases hp with hp | hp <;> rw [hp]
    · have hoff := offRequest_running (s := s.cause Reg.PSQ_CAUSE 0 4 356) (by rw [cause_psq]; exact hp) (by rw [cause_psq]; exact hd)
        (by rw [cause_bench]; exact ho)
      rw [cause_psq] at hoff
      exact hoff
  · exact ⟨_, congrArg Host.Outcome.next (if_pos hv), onRequest_dormant s hp hc ht hi⟩
  · refine ⟨_, if_neg (by simp [hp, hm, hi]), ?_⟩
    have hports : ∀ u : State, Keeps [.cxl] u ((List.finRange 4).foldl (fun (s : State) p =>
        if (s.cport p).st == .l0 then s.setCport p { s.cport p with st := .l1 } else s) u) := fun u => by
      refine Keeps.foldl _ (fun v p => Keeps.ite (fun _ => ?_) fun _ => Keeps.refl _ _) (Keeps.refl _ _)
      exact setCport_keeps _ _ _
    have hlanes : ∀ u : State, Keeps [.med, .out] u ((List.finRange 144).foldl (fun (s : State) (n : Fin 144) =>
        let q := s.qc n
        if q.lstate == .active && q.queue.isEmpty && q.sent.isEmpty && q.unacked == 0 then
          (s.setQc n { q with lstate := .sleep }).emit (.qmiLctl n .sleep)
        else s) u) := fun u => by
      refine Keeps.foldl _ (fun v p => Keeps.ite (fun _ => ?_) fun _ => Keeps.refl _ _) (Keeps.refl _ _)
      exact Keeps.after (emit_keeps _ _) (by decide) (Keeps.after (setQc_keeps _ _ _) (by decide) (Keeps.refl _ _))
    exact ((hlanes _).psq (by decide)).trans (((hports _).psq (by decide)).trans (setPState_psq _ _))
  · exact ⟨_, congrArg Host.Outcome.next (if_pos hp), setPState_psq _ _⟩
  · refine ⟨_, congrArg Host.Outcome.next (if_pos ?_), keepDone_enters hw⟩
    simp [hp, ht, hn1, hn2, ha]
  · refine ⟨_, congrArg Host.Outcome.next (if_pos hv), ?_⟩
    have hkeep : s.keepLeaveRequest = s.keepLeave := by
      unfold State.keepLeaveRequest State.onRequest
      rw [hp]
    dsimp only
    rw [hkeep]
    exact keepLeave_psq s
  · refine ⟨_, congrArg Host.Outcome.next (if_pos (by simp [hp, ht, hb, hm, ha, hl])), ?_⟩
    obtain ⟨b, ho⟩ := keepOpen_psq s
    show (settleMed _).psq.pstate = _
    rw [(settleMed_keeps _).psq (by decide)]
    exact reachActive_active (by rw [ho]; exact hw)
  · obtain ⟨u, hup, hrun⟩ := burstEnd_lowers hp hb ht hr hw hm hwork
    obtain ⟨r, hdown⟩ := startDown_psq u .burstDown (u.burstRails g)
    have hj : (u.burstRails g).getLsbD j = true := by
      refine railsWhere_getLsbD _ j.isLt ?_
      rw [show u.seq j = s.seq j by simp only [seq, hup], hg, hk]
      rfl
    have hgood := startDown_pg u .burstDown (u.burstRails g) j (by rw [rail_of_psq hup]; exact he) (by rw [rail_of_psq hup]; exact hpg)
    rw [transCheck_down (t := ⟨.burstDown, u.burstRails g, true⟩) (by rw [hdown]) rfl j hj hgood] at hrun
    refine ⟨_, hrun, ?_⟩
    dsimp only
    rw [hdown, hup]
    exact ⟨hp, hb, _, rfl, hj⟩
  · exact ⟨_, congrArg Host.Outcome.next (if_pos hm), level_psq _ _ _ _ _ _ _, bit_level_same _ _ _ (by decide) _ _ _ (by decide) _⟩
  · exact ⟨_, congrArg Host.Outcome.next (if_pos hm), level_psq _ _ _ _ _ _ _, bit_level_same _ _ _ (by decide) _ _ _ (by decide) _⟩
  · refine ⟨s.mainReset.mainRelease.groupsUp, ?_, ?_⟩
    · show execWarmReset s = _
      unfold execWarmReset
      rw [if_neg (by simp [hv, hw, hmr, ht, hb]), hp]
    · dsimp only
      rw [(groupsUp_keeps _).psq (by decide), mainRelease_psq, mainReset_psq]
      exact ⟨rfl, rfl, hp, rfl⟩

end Sys2Proof.PowerMoves

/-! The flash's operations as they end, and the control cores as they restart, start and confirm their image (R397 to R413). -/

namespace Sys2Proof.CoresAndFlash

open Sys2Proof.Machine State Sys2Proof.Readings Sys2Proof.IdleClock Sys2Proof.VaultKeeper

/-! ### The end of an operation -/

/-- An operation that leaves the queue lets the next one begin; nothing else of the flash changes. -/
theorem flashNext_flash (s : State) : ∃ st, s.flashNext.flash = { s.flash with state := st } ∧ (s.flash.ops = [] → st = .idle) := by
  unfold State.flashNext
  split
  next h => exact ⟨_, rfl, fun _ => rfl⟩
  next h => exact ⟨_, rfl, fun h' => by simp [h'] at h⟩
  next h => exact ⟨_, rfl, fun h' => by simp [h'] at h⟩

theorem flashNext_regs (s : State) : s.flashNext.regs = s.regs := (flashNext_keeps s).regs (by decide)

theorem fwStep_none {s : State} (h : s.flash.work = none) (o : FlashOp) (ok : Bool) : s.fwStep o ok = s := by
  unfold State.fwStep
  rw [h]

theorem holdOver_none {s : State} (h : s.psq.flashHold = none) : s.holdOver = s := by
  unfold State.holdOver
  rw [h]

/-- With no work and no reset held, the end of an operation is all there is to it. -/
theorem flashOpDone_ends {s : State} {o : FlashOp} {rest : List FlashOp} (ho : s.flash.ops = o :: rest) (hs : s.flash.state ≠ .suspended)
    (hw : s.flash.work = none) (hh : s.psq.flashHold = none) (ok : Bool) (hend : (s.flashEnd ok).flash.work = s.flash.work) :
    exec (.flashOpDone ok) s = .next (s.flashEnd ok) := by
  show execFlashOpDone ok s = _
  unfold execFlashOpDone
  rw [ho]
  dsimp only
  rw [if_neg (by simp [hs]), fwStep_none (hend.trans hw), holdOver_none]
  rw [(flashEnd_keeps _ _).psq (by decide)]
  exact hh

/-- A failed operation leaves the queue, counted in its half of FLS_FAIL_CNT, with its cause captured. -/
theorem failed_ends (s : State) (rest : List FlashOp) (hi lo b n : Nat) (hl : lo ≤ hi) (hh : hi < 32) (hb : b < 32) :
    let t := (((s.setFlash { s.flash with ops := rest }).bump Reg.FLS_FAIL_CNT 0 hi lo).cause Reg.FLS_CAUSE 0 b n).flashNext
    t.flash.ops = rest ∧ t.flash.work = s.flash.work ∧ t.bit Reg.FLS_CAUSE 0 b = true ∧
      t.fld Reg.FLS_FAIL_CNT 0 hi lo = min (s.fld Reg.FLS_FAIL_CNT 0 hi lo + 1) (2 ^ (hi - lo + 1) - 1) := by
  dsimp only
  generalize hu : ((s.setFlash { s.flash with ops := rest }).bump Reg.FLS_FAIL_CNT 0 hi lo).cause Reg.FLS_CAUSE 0 b n = u
  have hflash : u.flash = { s.flash with ops := rest } := by rw [← hu]; exact (cause_keeps _ _ _ _ _).flash (by decide)
  obtain ⟨st, hnext, -⟩ := flashNext_flash u
  refine ⟨by rw [hnext, hflash], by rw [hnext, hflash], ?_, ?_⟩
  · rw [bit_of_regs (flashNext_regs u), ← hu]
    exact bit_cause_same _ _ _ (by decide) _ _ hb
  · rw [fld_of_regs (flashNext_regs u), ← hu, fld_cause_ne _ _ _ (by decide) _ _ _ _ _ _ (by decide)]
    exact fld_bump _ _ _ _ _ _ hl hh

/-! ### A warm reset held past its time (R418) -/

/-- A reset of the main domain cuts the flash and stops the cores. -/
theorem mainReset_flash (s : State) : s.mainReset.flash = { s.flashCut.flash with cores := .off, ram := [], work := none } := by
  have hcut : ∀ t : State, t.flash = s.flash → t.flashReset.flash = { s.flashCut.flash with cores := .off, ram := [], work := none } := by
    intro t ht
    unfold State.flashReset State.flashCut
    simp only [ht]
    rfl
  unfold State.mainReset
  dsimp only
  rw [(level_keeps _ _ _ _ _ _ _).flash (by decide)]
  refine ((sourcesLost_keeps _).flash (by decide)).trans (((regsReset_keeps _).flash (by decide)).trans
    (((chansReset_keeps _).flash (by decide)).trans (hcut _ ?_)))
  rw [(secReset_keeps _).flash (by decide), (cxlReset_keeps _).flash (by decide), (twinReset_keeps _).flash (by decide),
    (xltReset_keeps _).flash (by decide), (benchReset_keeps _).flash (by decide), (medReset_keeps _).flash (by decide)]

/-- A held warm reset that runs. -/
theorem holdOver_warm {s : State} (hh : s.psq.flashHold = some .warm) (hp : s.psq.pstate = .active) :
    s.holdOver.psq.warm = true ∧ s.holdOver.psq.mainUp = false ∧ s.holdOver.psq.flashHold = none ∧ s.holdOver.flash.ops = [] ∧
      s.holdOver.flash.state = .idle ∧ s.holdOver.flash.cores = .off := by
  generalize hu : (s.setPsq { s.psq with flashHold := none }).setWdg { s.wdg with hold := false } = u
  have hup : u.psq = { s.psq with flashHold := none } := by rw [← hu]; rfl
  have hrun : s.holdOver = u.mainReset.setPsq { u.mainReset.psq with
      warm := true, flashHold := none, burst := none, waiting := { u.mainReset.psq.waiting with keepEnter := false } } := by
    unfold State.holdOver
    rw [hh, ← hu]
    show (State.warmReset ((s.setPsq { s.psq with flashHold := none }).setWdg { s.wdg with hold := false })) = _
    rw [hu]
    unfold State.warmReset
    dsimp only
    rw [setPsq_psq, mainReset_psq, hup]
    simp only [hp]
  have hflash : s.holdOver.flash = { u.flashCut.flash with cores := .off, ram := [], work := none } := by
    rw [hrun]
    exact mainReset_flash u
  rw [hflash, hrun, setPsq_psq, mainReset_psq]
  exact ⟨rfl, rfl, rfl, rfl, rfl, rfl⟩

/-! ### The control cores -/

/-- What is written into the vault touches nothing of the images or the cores. -/
theorem flashPush_images (s : State) (o : FlashOp) : (s.flashPush o).flash.slots = s.flash.slots ∧ (s.flashPush o).flash.cores = s.flash.cores := by
  unfold State.flashPush
  dsimp only
  split
  · obtain ⟨st, h, -⟩ := flashNext_flash (s.setFlash { s.flash with ops := s.flash.ops ++ [o] })
    rw [h]
    exact ⟨rfl, rfl⟩
  · exact ⟨rfl, rfl⟩

theorem vaultPut_images (s : State) (k : Fin 4) (d : VaultData) :
    (s.vaultPut k d).flash.slots = s.flash.slots ∧ (s.vaultPut k d).flash.cores = s.flash.cores := by
  have hroom : (s.vaultMakeRoom k).flash.slots = s.flash.slots ∧ (s.vaultMakeRoom k).flash.cores = s.flash.cores := by
    unfold State.vaultMakeRoom
    dsimp only
    split
    · exact ⟨rfl, rfl⟩
    · exact flashPush_images _ _
  obtain ⟨hslots, hcores⟩ := hroom
  unfold State.vaultPut
  split
  · unfold State.vaultPlace
    dsimp only
    obtain ⟨h1, h2⟩ := flashPush_images _ _
    exact ⟨h1.trans hslots, h2.trans hcores⟩
  · exact ⟨rfl, rfl⟩

theorem crashDump_images (s : State) : s.crashDump.flash.slots = s.flash.slots ∧ s.crashDump.flash.cores = s.flash.cores := by
  have hfold : ∀ (l : List Nat) (n : Nat) (u : State), (l.foldl (fun s k => s.vaultPut 1 (.crash n k)) u).flash.slots = u.flash.slots ∧
      (l.foldl (fun s k => s.vaultPut 1 (.crash n k)) u).flash.cores = u.flash.cores := by
    intro l
    induction l with
    | nil => exact fun _ _ => ⟨rfl, rfl⟩
    | cons k l ih =>
      intro n u
      obtain ⟨h1, h2⟩ := ih n (u.vaultPut 1 (.crash n k))
      obtain ⟨h3, h4⟩ := vaultPut_images u 1 (.crash n k)
      exact ⟨h1.trans h3, h2.trans h4⟩
  unfold State.crashDump
  generalize List.range 68 = l
  exact hfold l _ _

/-- The active image loads where it may run. -/
theorem coreLoad_bootable {s : State} (ht : s.flash.slots.trial = false) (hb : s.bootable s.flash.slots.active s.arb = true) :
    s.coreLoad = s.setFlash { s.flash with
      runSlot := s.flash.slots.active, runCompat := (s.image s.flash.slots.active).compat,
      runVersion := (s.image s.flash.slots.active).version } := by
  unfold State.coreLoad
  rw [ht]
  exact if_pos hb

/-- What a restart has counted and captured before the cores go into reset. -/
def restartNoted (s : State) (cause : Fin 4) : State :=
  let s1 := (s.bump Reg.FLS_RESTART_CNT 0 31 0).cause Reg.FLS_CORE_CAUSE 0 0 420
  let s2 := if cause = 0 then s1.cause Reg.FLS_CORE_CAUSE 0 1 421 else if cause = 1 then s1.cause Reg.FLS_CORE_CAUSE 0 2 422 else s1
  s2.record Config.codeCoreRestart 0x3FF (s2.reg Reg.FLS_CORE_CAUSE)

/-- The cores go into reset, the watchdog paused. -/
def intoReset (s : State) : State := ((s.setFlash { s.flash with cores := .restarting }).wdgPause).emit .coreReset

theorem intoReset_regs (s : State) : (intoReset s).regs = s.regs := rfl

theorem intoReset_tally (s : State) : (intoReset s).tally = s.tally := rfl

theorem intoReset_sec (s : State) : (intoReset s).sec = s.sec := rfl

theorem intoReset_flash (s : State) : (intoReset s).flash = { s.flash with cores := .restarting } := rfl

theorem intoReset_wdg (s : State) : (intoReset s).wdg = { s.wdg with stage := .paused, ms := 0 } := rfl

theorem intoReset_out (s : State) : (intoReset s).out = Out.coreReset :: s.out := rfl

/-- The cores in reset after what the restart has counted and captured. -/
def coresReset (s : State) (cause : Fin 4) : State := intoReset (restartNoted s cause)

theorem restartNoted_keeps (s : State) (cause : Fin 4) : Keeps [.regs, .evt, .evr, .chans, .cxl, .out] s (restartNoted s cause) := by
  have hcounted : Keeps [.regs, .evt, .evr, .chans, .cxl, .out] s ((s.bump Reg.FLS_RESTART_CNT 0 31 0).cause Reg.FLS_CORE_CAUSE 0 0 420) :=
    Keeps.after (cause_keeps _ _ _ _ _) (by decide) (Keeps.after (bump_keeps _ _ _ _ _ _) (by decide) (Keeps.refl _ _))
  unfold restartNoted
  dsimp only
  generalize (s.bump Reg.FLS_RESTART_CNT 0 31 0).cause Reg.FLS_CORE_CAUSE 0 0 420 = u at hcounted ⊢
  refine Keeps.after (record_keeps _ _ _ _ _ _) (by decide) (Keeps.ite (fun _ => ?_) fun _ => Keeps.ite (fun _ => ?_) fun _ => hcounted)
  · exact Keeps.after (cause_keeps _ _ _ _ _) (by decide) hcounted
  · exact Keeps.after (cause_keeps _ _ _ _ _) (by decide) hcounted

theorem coresReset_flash (s : State) (cause : Fin 4) : (coresReset s cause).flash = { s.flash with cores := .restarting } := by
  rw [coresReset, intoReset_flash, (restartNoted_keeps s cause).flash (by decide)]

theorem coresReset_tally (s : State) (cause : Fin 4) : (coresReset s cause).tally = s.tally := by
  rw [coresReset, intoReset_tally, (restartNoted_keeps s cause).tally (by decide)]

theorem coresReset_bits (s : State) (cause : Fin 4) :
    (coresReset s cause).bit Reg.FLS_CORE_CAUSE 0 0 = true ∧ (cause = 0 → (coresReset s cause).bit Reg.FLS_CORE_CAUSE 0 1 = true) ∧
      (cause = 1 → (coresReset s cause).bit Reg.FLS_CORE_CAUSE 0 2 = true) ∧
      (coresReset s cause).fld Reg.FLS_RESTART_CNT 0 31 0 = min (s.fld Reg.FLS_RESTART_CNT 0 31 0 + 1) 0xFFFFFFFF := by
  generalize hu : (s.bump Reg.FLS_RESTART_CNT 0 31 0).cause Reg.FLS_CORE_CAUSE 0 0 420 = u
  have h0 : u.bit Reg.FLS_CORE_CAUSE 0 0 = true := by rw [← hu]; exact bit_cause_same _ _ _ (by decide) _ _ (by decide)
  have hn : u.fld Reg.FLS_RESTART_CNT 0 31 0 = min (s.fld Reg.FLS_RESTART_CNT 0 31 0 + 1) 0xFFFFFFFF := by
    rw [← hu, fld_cause_ne _ _ _ (by decide) _ _ _ _ _ _ (by decide)]
    exact fld_bump _ _ _ _ _ _ (by decide) (by decide)
  generalize hv : (if cause = 0 then u.cause Reg.FLS_CORE_CAUSE 0 1 421 else if cause = 1 then u.cause Reg.FLS_CORE_CAUSE 0 2 422 else u) = v
  have hbit : ∀ b, (coresReset s cause).bit Reg.FLS_CORE_CAUSE 0 b = v.bit Reg.FLS_CORE_CAUSE 0 b := fun b => by
    rw [coresReset, bit_of_regs (intoReset_regs _)]
    unfold restartNoted
    dsimp only
    rw [hu, hv, bit_record _ _ _ (by decide)]
  have hfld : (coresReset s cause).fld Reg.FLS_RESTART_CNT 0 31 0 = v.fld Reg.FLS_RESTART_CNT 0 31 0 := by
    rw [coresReset, fld_of_regs (intoReset_regs _)]
    unfold restartNoted
    dsimp only
    rw [hu, hv, fld_record _ _ _ (by decide)]
  have apart : ∀ b n, b < 32 → 0 ≠ b → (u.cause Reg.FLS_CORE_CAUSE 0 b n).bit Reg.FLS_CORE_CAUSE 0 0 = true ∧
      (u.cause Reg.FLS_CORE_CAUSE 0 b n).fld Reg.FLS_RESTART_CNT 0 31 0 = u.fld Reg.FLS_RESTART_CNT 0 31 0 := fun b n hb h => by
    rw [bit_cause_apart _ _ _ (by decide) _ _ _ (by decide) h, fld_cause_ne _ _ _ (by decide) _ _ _ _ _ _ (by decide)]
    exact ⟨h0, rfl⟩
  simp only [hbit, hfld]
  by_cases hc0 : cause = 0
  · rw [if_pos hc0] at hv
    obtain ⟨hzero, hcount⟩ := apart 1 421 (by decide) (by decide)
    rw [← hv]
    refine ⟨hzero, fun _ => bit_cause_same _ _ _ (by decide) _ _ (by decide), fun h => ?_, hcount.trans hn⟩
    rw [hc0] at h
    exact absurd h (by decide)
  · rw [if_neg hc0] at hv
    by_cases hc1 : cause = 1
    · rw [if_pos hc1] at hv
      obtain ⟨hzero, hcount⟩ := apart 2 422 (by decide) (by decide)
      rw [← hv]
      exact ⟨hzero, fun h => absurd h hc0, fun _ => bit_cause_same _ _ _ (by decide) _ _ (by decide), hcount.trans hn⟩
    · rw [if_neg hc1] at hv
      rw [← hv]
      exact ⟨h0, fun h => absurd h hc0, fun h => absurd h hc1, hn⟩

/-- The first restart in ten minutes dumps the crash, notes the time and loads the active image. -/
theorem coreRestart_first {s : State} {cause : Fin 4} (hc : cause ≠ 2) (hr : s.flash.cores = .running) (ht : s.flash.slots.trial = false)
    (hn : s.flash.restartAt = []) :
    ∃ u : State, Keeps [.flash] (coresReset s cause) u ∧ u.flash.slots = s.flash.slots ∧ u.flash.cores = .restarting ∧
      u.flash.restartAt = [s.tally.now] ∧ s.coreRestart cause = u.coreLoad := by
  have hflash := coresReset_flash s cause
  have hkeep := crashDump_keeps (coresReset s cause)
  obtain ⟨hslots, hcores⟩ := crashDump_images (coresReset s cause)
  rw [hflash] at hslots hcores
  have htally : (coresReset s cause).crashDump.tally = s.tally := by
    rw [hkeep.tally (by decide), coresReset_tally]
  unfold State.coreRestart
  rw [if_neg (by simp [hr])]
  extract_lets s1 s2 s3 f s4 near third r s5 f' s6 s7
  have h4 : s4 = coresReset s cause := rfl
  have hnear : near = [] := by
    show s4.flash.restartAt.filter _ = []
    rw [h4, hflash]
    dsimp only
    rw [hn]
    rfl
  have hthird : third = false := by
    show decide (2 ≤ near.length) = false
    rw [hnear]
    rfl
  have hsame : s7 = s6 := if_neg (by
    show ¬ s4.flash.slots.trial = true
    rw [h4, hflash]
    exact Bool.eq_false_iff.1 ht)
  have h5 : s5 = (coresReset s cause).crashDump := by rw [← h4]
  have hsix : s6 = s5.setFlash { s5.flash with restartAt := [s.tally.now] } := by
    show s5.setFlash { s5.flash with restartAt := if third then [] else s5.tally.now :: near } = _
    rw [hthird, hnear, h5, htally]
    rfl
  rw [← h5] at hkeep hslots hcores
  clear_value s5
  refine ⟨s6, ?_, ?_, ?_, ?_, ?_⟩
  · rw [hsix]
    exact Keeps.after (setFlash_keeps _ _) (by decide) hkeep
  · rw [hsix]
    exact hslots
  · rw [hsix]
    exact hcores
  · rw [hsix]
    rfl
  · rw [if_neg hc, hthird, hsame]
    rfl

/-- Mingaso starts again after a restart: nothing waits for it, so the watchdog alone begins. -/
theorem mingasoStart_again {s : State} (hm : s.psq.mainUp = true) (hc : s.flash.cores = .restarting) (hl : s.xlt.load ≠ .empty)
    (hw : s.flash.work = none) (ha : s.rdma.asks = []) (hheld : ∀ c : Nat, (s.chan c).held = []) (hwd : s.bit Reg.WDG_CTRL 0 0 = true)
    (found : Option (BitVec 5)) (bad : List Nat) (otpOk : Bool) :
    exec (.mingasoStart found bad otpOk) s = .next { s with
      flash := { s.flash with cores := .running }, wdg := { s.wdg with stage := .stage1, ms := BitVec.ofNat 16 (s.fld Reg.WDG_STAGE1 0 15 0) } } := by
  have hstart : (s.setFlash { s.flash with cores := .running }).wdgStart = { s with
      flash := { s.flash with cores := .running }, wdg := { s.wdg with stage := .stage1, ms := BitVec.ofNat 16 (s.fld Reg.WDG_STAGE1 0 15 0) } } :=
    if_pos hwd
  show execMingasoStart found bad otpOk s = _
  unfold execMingasoStart
  rw [if_neg (by simp [hm, hc]), hstart]
  dsimp only
  generalize hu : ({ s with
      flash := { s.flash with cores := .running }, wdg := { s.wdg with stage := .stage1, ms := BitVec.ofNat 16 (s.fld Reg.WDG_STAGE1 0 15 0) } } :
        State) = u
  have hxlt : u.xlt = s.xlt := by rw [← hu]
  have hwork : u.flash.work = none := by rw [← hu]; exact hw
  have hasks : u.rdma.asks = [] := by rw [← hu]; exact ha
  have hchans : ∀ c : Nat, (u.chan c).held = [] := fun c => by rw [← hu]; exact hheld c
  have hbefore : u.startedBefore = true := by
    unfold State.startedBefore
    rw [hxlt]
    simp [hl]
  have hact : u.activated = u := by
    unfold State.activated
    rw [hwork]
  have hresume : u.macResume = u := by
    unfold State.macResume
    rw [hasks, List.foldl_nil, ← hasks]
  rw [if_pos hbefore, hact, hresume, catchUpAll_idle u fun c => hchans c]

/-- The confirmed image's SECVER raises the anti-rollback counter where it is above it (R388). -/
theorem confirmed_arb {s : State} (hi : (s.image s.flash.slots.active).state = .valid) :
    ((s.putSlots { s.flash.slots with trial := false, restarts := 0 }).arbFollow true).flash.slots =
      { s.flash.slots with trial := false, restarts := 0 } ∧
    ((s.putSlots { s.flash.slots with trial := false, restarts := 0 }).arbFollow true).sec.arb =
      max s.sec.arb (s.image s.flash.slots.active).secver.toNat := by
  generalize hu : s.putSlots { s.flash.slots with trial := false, restarts := 0 } = u
  have hslots : u.flash.slots = { s.flash.slots with trial := false, restarts := 0 } := by
    rw [← hu]
    exact congrArg Flash.slots ((nvWrite_keeps _ _ _).flash (by decide))
  have hsec : u.sec = s.sec := by rw [← hu, (putSlots_keeps _ _).sec (by decide)]
  have himage : u.image s.flash.slots.active = s.image s.flash.slots.active := by simp only [State.image, hslots]
  unfold State.arbFollow
  dsimp only
  simp only [hslots, himage, hsec, hi]
  by_cases hle : (s.image s.flash.slots.active).secver.toNat ≤ s.sec.arb
  · rw [if_pos (by simp [hle])]
    exact ⟨hslots, by rw [hsec, Nat.max_eq_left hle]⟩
  · rw [if_neg (by simp [hle])]
    exact ⟨hslots, (Nat.max_eq_right (Nat.le_of_not_le hle)).symm⟩

/-- Settles O9: the queue's laws give what ends; the restart's stages, one lemma each, give what is captured, reset and loaded. -/
theorem flashAndCores : Obligations.FlashAndCores := by
  refine ⟨fun s o ho hs hw hh => ?_, fun s p n u rest ho hs hw hh => ?_, fun s p n rest ho hs hw hh => ?_, fun s hh hp => ?_,
    fun s cause hc hr ht hn hb => ?_, fun s found bad otpOk hm hc hl hw ha hheld hwd => ?_, fun s hc ht hr hs hi => ?_⟩
  · have hend : (s.flashEnd true).flash = { s.flash with
        ops := [], state := .idle, configBad := if (State.configCopy o).isSome then none else s.flash.configBad } := by
      unfold State.flashEnd
      rw [ho]
      dsimp only
      have hwhole : (true && (configCopy o).isSome && !([] : List FlashOp).any fun q => (configCopy q).isSome) = (configCopy o).isSome := by simp
      rw [hwhole]
      cases o <;> rfl
    exact ⟨_, flashOpDone_ends ho hs hw hh true (by rw [hend]), hend⟩
  · have hend : s.flashEnd false = (((s.setFlash { s.flash with ops := rest }).bump Reg.FLS_FAIL_CNT 0 15 0).cause Reg.FLS_CAUSE 0 0 392).flashNext := by
      unfold State.flashEnd
      rw [ho]
      rfl
    obtain ⟨h1, h2, h3, h4⟩ := failed_ends s rest 15 0 0 392 (by decide) (by decide) (by decide)
    refine ⟨_, flashOpDone_ends ho hs hw hh false (by rw [hend]; exact h2), ?_⟩
    dsimp only
    rw [hend]
    exact ⟨h1, h3, h4⟩
  · have hend : s.flashEnd false = (((s.setFlash { s.flash with ops := rest }).bump Reg.FLS_FAIL_CNT 0 31 16).cause Reg.FLS_CAUSE 0 1 393).flashNext := by
      unfold State.flashEnd
      rw [ho]
      rfl
    obtain ⟨h1, h2, h3, h4⟩ := failed_ends s rest 31 16 1 393 (by decide) (by decide) (by decide)
    refine ⟨_, flashOpDone_ends ho hs hw hh false (by rw [hend]; exact h2), ?_⟩
    dsimp only
    rw [hend]
    exact ⟨h1, h3, h4⟩
  · refine ⟨((s.cause Reg.WDG_CAUSE 0 3 419).cause Reg.FLS_CAUSE 0 4 396 |>.emit .flashReset).flashCut.holdOver, if_neg (by simp [hh]), ?_⟩
    dsimp only
    generalize hu : (((s.cause Reg.WDG_CAUSE 0 3 419).cause Reg.FLS_CAUSE 0 4 396).emit .flashReset).flashCut = u
    have hpsq : u.psq = s.psq := by
      rw [← hu, (flashCut_keeps _).psq (by decide), (emit_keeps _ _).psq (by decide), cause_psq, cause_psq]
    exact holdOver_warm (by rw [hpsq]; exact hh) (by rw [hpsq]; exact hp)
  · obtain ⟨u, hkeep, hslots, hcores, hat, hrun⟩ := coreRestart_first hc hr ht hn
    have hboot : u.bootable u.flash.slots.active u.arb = true := by
      have harb : u.arb = s.arb := by
        unfold State.arb
        rw [hkeep.sec (by decide), coresReset, intoReset_sec, (restartNoted_keeps s cause).sec (by decide)]
      have himage : ∀ x, u.image x = s.image x := fun x => by simp only [State.image, hslots]
      rw [harb, hslots]
      simp only [bootable, himage]
      exact hb
    have hwdg : u.wdg = { s.wdg with stage := .paused, ms := 0 } := by
      rw [hkeep.wdg (by decide), coresReset, intoReset_wdg, (restartNoted_keeps s cause).wdg (by decide)]
    have hout : Out.coreReset ∈ u.out := by
      rw [hkeep.out (by decide), coresReset, intoReset_out]
      exact List.mem_cons_self
    rw [coreLoad_bootable (by rw [hslots]; exact ht) hboot] at hrun
    obtain ⟨h0, h1, h2, hcount⟩ := coresReset_bits s cause
    refine ⟨_, congrArg Host.Outcome.next ((if_neg fun h => hc h.1).trans hrun), hcores, congrArg SlotRecord.active hslots, hat, ?_, ?_, ?_, ?_, hout, hwdg⟩
    · exact (bit_of_regs (hkeep.regs (by decide)) _ _ _).trans h0
    · exact fun h => (bit_of_regs (hkeep.regs (by decide)) _ _ _).trans (h1 h)
    · exact fun h => (bit_of_regs (hkeep.regs (by decide)) _ _ _).trans (h2 h)
    · exact (fld_of_regs (hkeep.regs (by decide)) _ _ _ _).trans hcount
  · exact ⟨_, mingasoStart_again hm hc hl hw ha hheld hwd found bad otpOk, rfl⟩
  · have hrun : exec (.trialConfirm true) s = .next ((((s.putSlots { s.flash.slots with trial := false, restarts := 0 }).arbFollow true).cause
        Reg.FLS_CORE_CAUSE 0 4 424).record Config.codeFwConfirmed 0x3FF
          ((((s.putSlots { s.flash.slots with trial := false, restarts := 0 }).arbFollow true).image s.flash.slots.active).secver.setWidth 32)) :=
      if_neg (by rw [hc, ht, beq_eq_false_iff_ne.2 hr, hs]; simp)
    refine ⟨_, hrun, ?_⟩
    dsimp only
    obtain ⟨hslots, harb⟩ := confirmed_arb (s := s) hi
    generalize (s.putSlots { s.flash.slots with trial := false, restarts := 0 }).arbFollow true = u at hslots harb ⊢
    refine ⟨?_, ?_, ?_⟩
    · rw [(record_keeps _ _ _ _ _ _).flash (by decide), (cause_keeps _ _ _ _ _).flash (by decide), hslots]
    · rw [(record_keeps _ _ _ _ _ _).sec (by decide), (cause_keeps _ _ _ _ _).sec (by decide), harb]
    · rw [bit_record _ _ _ (by decide)]
      exact bit_cause_same _ _ _ (by decide) _ _ (by decide)

end Sys2Proof.CoresAndFlash

/-! What sending on a medium lane leaves: of the medium its channels and the dies' counts of what was sent alone change (R66, R67). -/

namespace Sys2Proof.Lanes

open Sys2Proof.Machine State Sys2Proof.Readings

theorem die_of_med {s t : State} (h : t.med = s.med) (d : Nat) : t.die d = s.die d := by simp only [State.die, h]

theorem qc_of_med {s t : State} (h : t.med = s.med) (n : Nat) : t.qc n = s.qc n := by simp only [State.qc, h]

/-- `t` differs from `s`, as far as the medium goes, in what was sent alone. -/
structure Sends (s t : State) : Prop where
  medium : t.med = { s.med with chans := t.med.chans, dies := t.med.dies }
  die : ∀ d, t.die d = { s.die d with sent := (t.die d).sent }

theorem Sends.refl (s : State) : Sends s s := ⟨rfl, fun _ => rfl⟩

theorem Sends.trans {s t u : State} (h : Sends s t) (k : Sends t u) : Sends s u :=
  ⟨by rw [k.medium, h.medium], fun d => by rw [k.die d, h.die d]⟩

/-- What keeps the medium sends nothing. -/
theorem Sends.of_med {s t : State} (h : t.med = s.med) : Sends s t := ⟨by rw [h], fun d => by rw [die_of_med h]⟩

theorem Sends.of_keeps {w : List Part} {s t : State} (h : Keeps w s t) (hp : Part.med ∉ w) : Sends s t := Sends.of_med (h.med hp)

theorem setQc_sends (s : State) (n : Nat) (c : QChan) : Sends s (s.setQc n c) := ⟨rfl, fun _ => rfl⟩

theorem die_setDie (s : State) (d : Nat) (v : Die) : (s.setDie d v).die d = v := Tab.get_put_same _ _ _ _

theorem die_setDie_ne (s : State) {d x : Nat} (v : Die) (h : x ≠ d) : (s.setDie d v).die x = s.die x := Tab.get_put_ne _ _ _ _ h

theorem setDie_sends (s : State) (d : Nat) (n : BitVec 8) : Sends s (s.setDie d { s.die d with sent := n }) := by
  refine ⟨rfl, fun x => ?_⟩
  by_cases h : x = d
  · subst h
    rw [die_setDie]
  · rw [die_setDie_ne _ _ h]

theorem emit_sends (s : State) (o : Out) : Sends s (s.emit o) := Sends.of_med rfl

theorem sendCmd_sends (s : State) (n : Nat) (c : QmiCmd) : Sends s (s.sendCmd n c) := by
  unfold State.sendCmd
  exact (setQc_sends _ _ _).trans ((setDie_sends _ _ _).trans (emit_sends _ _))

theorem pumpList_sends (n : Nat) (p : QmiCmd → Bool) (cs : List QmiCmd) (s : State) : Sends s (pumpList n p cs s) := by
  induction cs generalizing s with
  | nil => exact Sends.refl s
  | cons c cs ih =>
    unfold State.pumpList
    split
    · exact ((setQc_sends _ _ _).trans (sendCmd_sends _ _ _)).trans (ih _)
    · exact ih s

theorem flushLane_sends (s : State) (n k : Nat) (seq : BitVec 8) : Sends s (s.flushLane n k seq) := by
  unfold State.flushLane
  dsimp only
  split
  · exact Sends.refl s
  · exact (setQc_sends _ _ _).trans (emit_sends _ _)

theorem pump_sends (s : State) (n : Nat) : Sends s (s.pump n) := by
  unfold State.pump
  exact ((pumpList_sends _ _ _ _).trans ((pumpList_sends _ _ _ _).trans (pumpList_sends _ _ _ _))).trans (flushLane_sends _ _ _ _)

theorem issue_sends (s : State) (d : Nat) (c : QmiCmd) : Sends s (s.issue d c) := by
  unfold State.issue
  exact (setQc_sends _ _ _).trans (pump_sends _ _)

theorem foldl_sends {α : Type} (f : State → α → State) (h : ∀ s a, Sends s (f s a)) (l : List α) (s : State) : Sends s (l.foldl f s) := by
  induction l generalizing s with
  | nil => exact Sends.refl s
  | cons a l ih => exact (h s a).trans (ih _)

theorem sweepRead_sends (s : State) (d n : Nat) : Sends s (s.sweepRead d n) := by
  unfold State.sweepRead
  dsimp only
  split
  · exact issue_sends _ _ _
  · exact Sends.refl s

end Sys2Proof.Lanes

/-! The time sources (R44 to R58): how each is qualified, chosen and lost, and what its time does to TLY_NOW. -/

namespace Sys2Proof.Sources

open Sys2Proof.Machine State Sys2Proof.Readings Sys2Proof.Lanes

theorem mac_setMac (s : State) (m : Nat) (v : Mac) : (s.setMac m v).mac m = v := Tab.get_put_same _ _ _ _

theorem mac_setMac_ne (s : State) {m j : Nat} (v : Mac) (h : j ≠ m) : (s.setMac m v).mac j = s.mac j := Tab.get_put_ne _ _ _ _ h

theorem ageFollow_tally (s old : State) : (s.ageFollow old).tally = s.tally := (ageFollow_keeps s old).tally (by decide)

/-! ### Selection -/

/-- A selection leaves what it selects from. -/
theorem selectSource_qualified (s : State) : s.selectSource.tally.ptpQualified = s.tally.ptpQualified ∧
    s.selectSource.tally.secQualified = s.tally.secQualified ∧ s.selectSource.tally.twinQualified = s.tally.twinQualified ∧
    s.selectSource.tally.ppsLock = s.tally.ppsLock ∧ s.selectSource.tally.ppsEdges = s.tally.ppsEdges ∧ s.selectSource.tally.ptpGood = s.tally.ptpGood ∧
    s.selectSource.tally.ptpHoldoff = s.tally.ptpHoldoff ∧ s.selectSource.tally.secHoldoff = s.tally.secHoldoff ∧
    s.selectSource.tally.twinHoldoff = s.tally.twinHoldoff ∧ s.selectSource.tally.started = s.tally.started ∧
    s.selectSource.tally.now = s.tally.now := by
  obtain ⟨h, -, -⟩ := selectSource_tally s
  rw [h]
  exact ⟨rfl, rfl, rfl, rfl, rfl, rfl, rfl, rfl, rfl, rfl, rfl⟩

/-- A source that is not qualified is not the best one. -/
theorem bestSource_ne_ptp {s : State} (h : s.tally.ptpQualified = false) : s.bestSource ≠ .ptp := by
  rcases bestSource_why s with ⟨-, h'⟩ | ⟨h', -⟩ | ⟨h', -⟩ | ⟨h', -⟩ | h'
  · rw [h] at h'; cases h'
  all_goals rw [h']; decide

theorem bestSource_ne_secure {s : State} (h : s.tally.secQualified = false) : s.bestSource ≠ .secure := by
  rcases bestSource_why s with ⟨h', -⟩ | ⟨-, h'⟩ | ⟨h', -⟩ | ⟨h', -⟩ | h'
  · rw [h']; decide
  · rw [h] at h'; cases h'
  all_goals rw [h']; decide

theorem bestSource_ne_twin {s : State} (h : s.tally.twinQualified = false) : s.bestSource ≠ .twin := by
  rcases bestSource_why s with ⟨h', -⟩ | ⟨h', -⟩ | ⟨-, h'⟩ | ⟨h', -⟩ | h'
  · rw [h']; decide
  · rw [h']; decide
  · rw [h] at h'; cases h'
  all_goals rw [h']; decide

theorem bestSource_ne_pps {s : State} (h : s.tally.ppsLock = false) : s.bestSource ≠ .holdoverPps := by
  rcases bestSource_why s with ⟨h', -⟩ | ⟨h', -⟩ | ⟨h', -⟩ | ⟨-, h'⟩ | h'
  · rw [h']; decide
  · rw [h']; decide
  · rw [h']; decide
  · rw [h] at h'; cases h'
  · rw [h']; decide

/-- With a lock on PPS, holdover goes by it. -/
theorem bestSource_locked {s : State} {n : Nat} (he : s.bit Reg.TLY_CTRL 0 3 = true) (h : s.bestSource = .holdover) :
    (s.setTally { s.tally with ppsEdges := n, ppsLock := true }).bestSource = .holdoverPps := by
  unfold State.bestSource at h ⊢
  dsimp only at h ⊢
  have hbit : ∀ b, (s.setTally { s.tally with ppsEdges := n, ppsLock := true }).bit Reg.TLY_CTRL 0 b = s.bit Reg.TLY_CTRL 0 b := fun _ => rfl
  simp only [hbit, setTally_tally, he, Bool.and_self]
  split at h
  · cases h
  next h1 =>
    split at h
    · cases h
    next h2 =>
      split at h
      · cases h
      next h3 => rw [if_neg h1, if_neg h2, if_neg h3, if_pos trivial]

theorem ppsLost_unlocks {s : State} (h : s.tally.ppsLock = true) :
    s.ppsLost.tally.ppsLock = false ∧ s.ppsLost.tally.ppsEdges = 0 ∧ s.ppsLost.tally.source ≠ .holdoverPps := by
  have hrun : s.ppsLost = ((s.setTally { s.tally with ppsLock := false, ppsEdges := 0 }).pulse 373).selectSource := by
    unfold State.ppsLost
    exact if_pos h
  have htally : ((s.setTally { s.tally with ppsLock := false, ppsEdges := 0 }).pulse 373).tally = { s.tally with ppsLock := false, ppsEdges := 0 } :=
    pulse_tally _ _
  generalize (s.setTally { s.tally with ppsLock := false, ppsEdges := 0 }).pulse 373 = u at hrun htally
  obtain ⟨-, -, -, hlock, hedges, -⟩ := selectSource_qualified u
  rw [hrun, hlock, hedges, htally]
  exact ⟨rfl, rfl, selectSource_ne u _ (by decide) (bestSource_ne_pps (by rw [htally]))⟩

/-! ### PTP -/

/-- The eighth good Sync of a master that nothing holds off selects PTP and offers its time. -/
theorem ptpSync_selected {s : State} {m : Fin 32} {offset : Int} (v : Dword) (hm : s.psq.mainUp = true) (hon : s.ptpOn m = true)
    (hmac : s.rdma.ptpMac = some m) (ho : offset.natAbs ≤ 1000) (hg : 7 ≤ s.tally.ptpGood) (hh : s.tally.ptpHoldoff = false)
    (hov : s.tally.ptpOverridden = false) (hc : s.bit Reg.TLY_CTRL 0 0 = true) :
    ∃ u : State, exec (.ptpSync m offset v) s = .next ((u.offerTime .ptp .provisional v).ageFollow s) ∧ u.rdma = { s.rdma with ptpOffset := offset } ∧
      ∃ e : Word, u.tally = { s.tally with ptpGood := 8, ptpQualified := true, source := .ptp, holdErr := e } := by
  generalize hw : ({ s with rdma := { s.rdma with ptpOffset := offset } } : State).setTally { s.tally with ptpGood := 8, ptpQualified := true } = w
  have hwt : w.tally = { s.tally with ptpGood := 8, ptpQualified := true } := by rw [← hw]; rfl
  have hbest : w.bestSource = .ptp :=
    bestSource_ptp w (by rw [← hw]; exact hc) (by rw [hwt]) (by rw [hwt]; exact hov) (by rw [hwt]; exact hh)
  have hsource : w.selectSource.tally.source = .ptp :=
    (selectSource_source w (Or.inr (Or.inr (by rw [hbest]; rfl)))).trans hbest
  obtain ⟨htally, -, hcatch⟩ := selectSource_tally w
  have hcatch := hcatch (by rw [hbest]; rfl)
  refine ⟨w.selectSource, ?_, ?_, w.selectSource.tally.holdErr, ?_⟩
  · have hgood : min (s.tally.ptpGood + 1) 8 = 8 := by omega
    show execPtpSync m offset v s = _
    unfold execPtpSync
    rw [if_neg (by simp [hm, hon, hmac])]
    dsimp only
    rw [if_pos ho, hgood]
    have hqual : (s.tally.ptpQualified || ((8 : Nat) == 8 && !s.tally.ptpHoldoff && !s.tally.ptpOverridden)) = true := by rw [hh, hov]; simp
    rw [hqual, hw, if_pos hsource]
  · rw [(selectSource_keeps w).rdma (by decide), ← hw]
    rfl
  · rw [hsource, hcatch, hwt] at htally
    exact htally

/-- PTP's time moves TLY_NOW by its distance: back in catch-up, up to a second ahead by a slew, further ahead by a step (R51, R52). -/
theorem offerTime_ptp {u : State} {v : Dword} (hs : u.tally.source = .ptp) (hj : u.tally.jumpPending = false) (hf : u.tally.floor.tally ≤ v)
    (hle : v.toNat ≤ u.tally.now.toNat + 30 * 86400 * 65536) :
    let t := (u.offerTime .ptp .provisional v).tally
    t.ptpGood = u.tally.ptpGood ∧ t.ptpQualified = u.tally.ptpQualified ∧ t.source = .ptp ∧ t.started = true ∧ t.holdErr = 1 ∧
      (v < u.tally.now → t.now = u.tally.now ∧ t.catchup = true ∧ t.slew = 0) ∧
      (u.tally.now ≤ v → v.toNat ≤ u.tally.now.toNat + 65536 → t.now = u.tally.now ∧ t.catchup = false ∧ t.slew = v - u.tally.now) ∧
      (u.tally.now.toNat + 65536 < v.toNat → t.now = v ∧ t.catchup = false ∧ t.slew = 0) := by
  dsimp only
  rw [offerTime_moves u _ _ _ (BitVec.not_lt.2 hf) (by unfold thirtyDays secUnits; omega) hj]
  obtain ⟨big, hbig, htally⟩ := moveNow_tally u .ptp .provisional v
  rw [htally]
  by_cases hback : v < u.tally.now
  · rw [if_pos hback]
    dsimp only
    rw [hs]
    have hlt := BitVec.lt_def.1 hback
    refine ⟨rfl, rfl, rfl, rfl, rfl, fun _ => ⟨rfl, rfl, rfl⟩, fun h => ?_, fun h => ?_⟩
    · have := BitVec.le_def.1 h; omega
    · omega
  · rw [if_neg hback]
    by_cases hfar : u.tally.now.toNat + 65536 < v.toNat
    · rw [if_pos (by rw [hbig]; exact decide_eq_true hfar)]
      dsimp only
      rw [hs]
      refine ⟨rfl, rfl, rfl, rfl, rfl, fun h => absurd h hback, fun _ h => ?_, fun _ => ⟨rfl, rfl, rfl⟩⟩
      omega
    · rw [if_neg (by rw [hbig]; exact Bool.eq_false_iff.1 (decide_eq_false hfar))]
      dsimp only
      rw [hs]
      exact ⟨rfl, rfl, rfl, rfl, rfl, fun h => absurd h hback, fun _ _ => ⟨rfl, rfl, rfl⟩, fun h => absurd h hfar⟩

/-- The master chosen has the lowest rank of those that announced themselves on a running MAC. -/
theorem ptpChoose_lowest {s : State} {m : Fin 32} {rank : Nat} (hon : s.ptpOn m = true) (hm : (s.mac m).master = some rank) :
    ∃ (c : Fin 32) (rc : Nat), s.ptpChoose.rdma.ptpMac = some c ∧ (s.ptpChoose.mac c).master = some rc ∧ rc ≤ rank ∧
      ∀ (x : Fin 32) (rx : Nat), s.ptpChoose.ptpOn x = true → (s.ptpChoose.mac x).master = some rx → rc ≤ rx := by
  obtain ⟨c, rc, hc, hmaster, hle, -⟩ := ptpBest_le s m rank hon hm
  refine ⟨c, rc, hc, hmaster, hle, fun x rx hx hrx => ?_⟩
  obtain ⟨c', rc', hc', hmaster', hle', -⟩ := ptpBest_le s x rx hx hrx
  obtain rfl : c = c' := Option.some.inj (hc.symm.trans hc')
  obtain rfl : rc = rc' := Option.some.inj (hmaster.symm.trans hmaster')
  exact hle'

/-! ### No source (R57) -/

theorem setLog_die (s : State) (d x : Nat) (log : List AgeEntry) : ((s.setLog d log).die x).sentinel = (s.die x).sentinel ∧
    ((s.setLog d log).die x).used = (s.die x).used ∧ ((s.setLog d log).die x).failed = (s.die x).failed := by
  have hset : (s.setLog d log).die x = (s.setDie d { s.die d with log := log }).die x := by
    unfold State.setLog
    dsimp only
    split
    · exact die_of_med ((nvWrite_keeps _ _ _).med (by decide)) x
    · rfl
  rw [hset]
  by_cases h : x = d
  · subst h
    rw [die_setDie]
    exact ⟨rfl, rfl, rfl⟩
  · rw [die_setDie_ne _ _ h]
    exact ⟨rfl, rfl, rfl⟩

theorem die_journal (s : State) (k : JKey) (x : Nat) : (s.journal k).die x = s.die x :=
  die_of_med ((journal_keeps s k).med (by decide)) x

/-- A die sent to the sentinel age is there, and no other die differs in what is said of it. -/
theorem toSentinel_die (s : State) (d x : Nat) : ((s.toSentinel d 0).die x).sentinel = (decide (x = d) || (s.die x).sentinel) ∧
    ((s.toSentinel d 0).die x).used = (s.die x).used ∧ ((s.toSentinel d 0).die x).failed = (s.die x).failed := by
  unfold State.toSentinel
  dsimp only
  split
  · rw [if_pos rfl]
    by_cases h : x = d
    · subst h
      rw [die_setDie]
      exact ⟨by simp, rfl, rfl⟩
    · rw [die_setDie_ne _ _ h]
      exact ⟨by simp [h], rfl, rfl⟩
  · rw [die_journal]
    obtain ⟨h1, h2, h3⟩ := setLog_die (s.setDie d { s.die d with sentinel := true, cmp := some _ }) d x _
    rw [h1, h2, h3]
    by_cases h : x = d
    · subst h
      rw [die_setDie]
      exact ⟨by simp, rfl, rfl⟩
    · rw [die_setDie_ne _ _ h]
      exact ⟨by simp [h], rfl, rfl⟩

theorem startSweep_die (s : State) (d x : Nat) : ((s.startSweep d).die x).sentinel = (s.die x).sentinel ∧
    ((s.startSweep d).die x).used = (s.die x).used ∧ ((s.startSweep d).die x).failed = (s.die x).failed := by
  unfold State.startSweep
  split
  · have h := (foldl_sends (fun s n => s.sweepRead d n) (fun s n => sweepRead_sends s d n) (s.sweepSetts d) (s.setDie d { s.die d with sweep := true })).die x
    rw [h]
    by_cases hx : x = d
    · subst hx
      rw [die_setDie]
      exact ⟨rfl, rfl, rfl⟩
    · rw [die_setDie_ne _ _ hx]
      exact ⟨rfl, rfl, rfl⟩
  · exact ⟨rfl, rfl, rfl⟩

/-- Holdover's first act at a die (R57): one that is used and has not failed goes to the sentinel age and sweeps. -/
def ageUnknown (s : State) (d : Nat) : State := if (s.die d).used && !(s.die d).failed then (s.toSentinel d 0).startSweep d else s

theorem ageUnknown_die (s : State) (d x : Nat) :
    ((ageUnknown s d).die x).sentinel = (decide (x = d) && (s.die x).used && !(s.die x).failed || (s.die x).sentinel) ∧
    ((ageUnknown s d).die x).used = (s.die x).used ∧ ((ageUnknown s d).die x).failed = (s.die x).failed := by
  unfold ageUnknown
  by_cases hd : ((s.die d).used && !(s.die d).failed) = true
  · rw [if_pos hd]
    obtain ⟨h1, h2, h3⟩ := startSweep_die (s.toSentinel d 0) d x
    obtain ⟨h4, h5, h6⟩ := toSentinel_die s d x
    rw [h1, h2, h3, h4, h5, h6]
    refine ⟨?_, rfl, rfl⟩
    by_cases hx : x = d
    · subst hx
      rw [Bool.and_assoc, hd]
      simp
    · simp [hx]
  · rw [if_neg hd]
    refine ⟨?_, rfl, rfl⟩
    by_cases hx : x = d
    · subst hx
      rw [Bool.and_assoc, Bool.eq_false_iff.2 hd]
      simp
    · simp [hx]

/-- Every die met that is used and has not failed is on its sentinel age in the end. -/
theorem ageUnknown_all (l : List Nat) (s : State) (x : Nat) (hu : (s.die x).used = true) (hf : (s.die x).failed = false)
    (h : x ∈ l ∨ (s.die x).sentinel = true) : ((l.foldl ageUnknown s).die x).sentinel = true := by
  induction l generalizing s with
  | nil => exact h.resolve_left List.not_mem_nil
  | cons d l ih =>
    obtain ⟨h1, h2, h3⟩ := ageUnknown_die s d x
    refine ih (ageUnknown s d) (h2.trans hu) (h3.trans hf) ?_
    rcases h with h | h
    · rcases List.mem_cons.1 h with rfl | h
      · exact Or.inr (by rw [h1, hu, hf]; simp)
      · exact Or.inl h
    · exact Or.inr (by rw [h1, h]; simp)

/-- Settles O10: the selection's laws give what each event leaves of the Tally's source; an offered time moves TLY_NOW as its distance says. -/
theorem timeSources : Obligations.TimeSources := by
  refine ⟨fun s m offset v hm hon hmac ho hg hh hov hc hj hf hle => ?_, fun s m rank hm hon => ?_, fun s m => ?_, fun s m hm hon => ?_,
    fun s m d hon hs => ?_, fun s => ?_, fun s => ?_, fun s hv hb he => ?_, fun s hv hb hl => ?_, fun s hl => ?_, fun s => ?_, fun s => ?_,
    fun s => ?_, fun s => ?_, fun s hm ha hs hp hsec ht hl => ?_⟩
  · obtain ⟨u, hrun, hrdma, e, htally⟩ := ptpSync_selected v hm hon hmac ho hg hh hov hc
    have hoffer := offerTime_ptp (u := u) (v := v) (by rw [htally]) (by rw [htally]; exact hj) (by rw [htally]; exact hf) (by rw [htally]; exact hle)
    dsimp only at hoffer
    have hnow : u.tally.now = s.tally.now := by rw [htally]
    have hgood : u.tally.ptpGood = 8 := by rw [htally]
    have hqual : u.tally.ptpQualified = true := by rw [htally]
    rw [hnow, hgood, hqual] at hoffer
    obtain ⟨h1, h2, h3, h4, h5, h6, h7, h8⟩ := hoffer
    refine ⟨_, hrun, ?_⟩
    dsimp only
    rw [ageFollow_tally]
    refine ⟨h1, h2, h3, h4, h5, ?_, h6, h7, h8⟩
    rw [(ageFollow_keeps _ _).rdma (by decide), (offerTime_keeps _ _ _ _).rdma (by decide), hrdma]
  · have hmac : ((s.setMac m { s.mac m with master := some rank }).mac m).master = some rank := by rw [mac_setMac]
    have hon' : (s.setMac m { s.mac m with master := some rank }).ptpOn m = true := by
      have hup : ((s.setMac m { s.mac m with master := some rank }).mac m).up = (s.mac m).up := by rw [mac_setMac]
      unfold State.ptpOn
      rw [hup]
      exact hon
    exact ⟨_, congrArg Host.Outcome.next (if_pos (by rw [hm, hon]; rfl)), hmac, ptpChoose_lowest hon' hmac⟩
  · have hmac : ((s.setMac m { s.mac m with master := none }).ptpChoose.mac m).master = none := congrArg Mac.master (mac_setMac _ _ _)
    refine ⟨_, rfl, ?_⟩
    dsimp only
    by_cases hp : s.rdma.ptpMac = some m
    · rw [if_pos hp]
      have hlost : ((s.setMac m { s.mac m with master := none }).ptpChoose.ptpLost.mac m) = (s.setMac m { s.mac m with master := none }).ptpChoose.mac m :=
        congrArg (fun r : Rdma => Tab.get ({} : Mac) r.macs m) ((ptpLost_keeps _).rdma (by decide))
      rw [hlost]
      refine ⟨hmac, fun _ => ?_⟩
      generalize (s.setMac m { s.mac m with master := none }).ptpChoose = u
      unfold State.ptpLost
      obtain ⟨h1, -, -, -, -, h2, -⟩ := selectSource_qualified (u.setTally { u.tally with ptpQualified := false, ptpGood := 0 })
      exact ⟨h1, h2, selectSource_ne _ _ (by decide) (bestSource_ne_ptp rfl)⟩
    · rw [if_neg hp]
      exact ⟨hmac, fun h => absurd h hp⟩
  · exact ⟨_, congrArg Host.Outcome.next (if_pos (by rw [hm, hon]; rfl)), congrArg Mac.dreqSent (mac_setMac _ _ _), rfl⟩
  · exact ⟨_, congrArg Host.Outcome.next (if_pos (by rw [hs, hon]; rfl)), mac_setMac _ _ _⟩
  · obtain ⟨-, -, htwin, -⟩ := selectSource_qualified (s.setTally { s.tally with twinQualified := false })
    exact ⟨_, rfl, htwin, selectSource_ne _ _ (by decide) (bestSource_ne_twin rfl)⟩
  · obtain ⟨-, hsec, -⟩ := selectSource_qualified (s.setTally { s.tally with secQualified := false })
    exact ⟨_, rfl, hsec, selectSource_ne _ _ (by decide) (bestSource_ne_secure rfl)⟩
  · have hn : min (s.tally.ppsEdges + 1) 64 = 64 := by omega
    refine ⟨(s.setTally { s.tally with ppsEdges := 64, ppsLock := true }).selectSource, ?_, ?_, ?_⟩
    · show execPpsInEdge true s = _
      unfold execPpsInEdge
      rw [if_neg (by simp [hv, hb]), if_neg (by decide)]
      dsimp only
      rw [hn, show (s.tally.ppsLock || ((64 : Nat) == 64)) = true by simp]
    · obtain ⟨-, -, -, hlock, -⟩ := selectSource_qualified (s.setTally { s.tally with ppsEdges := 64, ppsLock := true })
      exact hlock
    · intro hsrc hbest
      refine (selectSource_source _ (Or.inr (Or.inl ?_))).trans (bestSource_locked hb hbest)
      show s.tally.source ≠ .none
      rw [hsrc]
      decide
  · refine ⟨s.ppsLost, ?_, ppsLost_unlocks hl⟩
    show execPpsInEdge false s = _
    unfold execPpsInEdge
    rw [if_neg (by simp [hv, hb])]
    rfl
  · exact ⟨_, rfl, ppsLost_unlocks hl⟩
  · exact ⟨_, rfl, rfl⟩
  · obtain ⟨-, -, -, -, -, -, h, -⟩ := selectSource_qualified (s.setTally { s.tally with ptpHoldoff := false })
    exact ⟨_, rfl, h⟩
  · obtain ⟨-, -, -, -, -, -, -, h, -⟩ := selectSource_qualified (s.setTally { s.tally with secHoldoff := false })
    exact ⟨_, rfl, h⟩
  · obtain ⟨-, -, -, -, -, -, -, -, h, -⟩ := selectSource_qualified (s.setTally { s.tally with twinHoldoff := false })
    exact ⟨_, rfl, h⟩
  · have htally : ((s.setTally { s.tally with started := true }).pulse 374).tally = { s.tally with started := true } := pulse_tally _ _
    have hmed : ((s.setTally { s.tally with started := true }).pulse 374).selectSource.med = s.med := by
      rw [(selectSource_keeps _).med (by decide), (pulse_keeps _ _).med (by decide)]
      rfl
    refine ⟨_, if_neg (by simp [hm, ha, hs]), ?_⟩
    dsimp only
    generalize (s.setTally { s.tally with started := true }).pulse 374 = u at htally hmed ⊢
    have hbest : u.bestSource = .holdover := by
      rcases bestSource_why u with ⟨-, h⟩ | ⟨-, h⟩ | ⟨-, h⟩ | ⟨-, h⟩ | h
      · rw [htally] at h; exact absurd h (Bool.eq_false_iff.1 hp)
      · rw [htally] at h; exact absurd h (Bool.eq_false_iff.1 hsec)
      · rw [htally] at h; exact absurd h (Bool.eq_false_iff.1 ht)
      · rw [htally] at h; exact absurd h (Bool.eq_false_iff.1 hl)
      · exact h
    have hsource := (selectSource_source u (Or.inl (by rw [htally]))).trans hbest
    obtain ⟨-, -, -, -, -, -, -, -, -, hstarted, hnow⟩ := selectSource_qualified u
    have hdies : ∀ x, u.selectSource.die x = s.die x := fun x => by simp only [State.die, hmed]
    have hids : u.selectSource.dieIds = s.dieIds := by simp only [State.dieIds, hmed]
    have hfold : Keeps [.regs, .evt, .nv, .evr, .chans, .med, .xlt, .cxl, .out] u.selectSource (u.selectSource.dieIds.foldl ageUnknown u.selectSource) := by
      refine Keeps.foldl _ (fun v d => ?_) (Keeps.refl _ _)
      unfold ageUnknown
      exact Keeps.ite (fun _ => Keeps.after (startSweep_keeps _ _) (by decide) (toSentinel_keeps _ _ _)) fun _ => Keeps.refl _ _
    show (State.judgeEyb (u.selectSource.dieIds.foldl ageUnknown u.selectSource)).tally.started = true ∧
      (State.judgeEyb (u.selectSource.dieIds.foldl ageUnknown u.selectSource)).tally.source = .holdover ∧
      (State.judgeEyb (u.selectSource.dieIds.foldl ageUnknown u.selectSource)).tally.now = s.tally.now ∧
      ∀ d ∈ s.dieIds, (s.die d).used = true → (s.die d).failed = false →
        ((State.judgeEyb (u.selectSource.dieIds.foldl ageUnknown u.selectSource)).die d).sentinel = true
    rw [(judgeEyb_keeps _).tally (by decide), hfold.tally (by decide), hstarted, hnow, htally]
    refine ⟨rfl, hsource, rfl, fun d hd hused hfailed => ?_⟩
    have hmark := ageUnknown_all u.selectSource.dieIds u.selectSource d (by rw [hdies]; exact hused) (by rw [hdies]; exact hfailed)
      (Or.inl (by rw [hids]; exact hd))
    exact (congrArg Die.sentinel (die_of_med ((judgeEyb_keeps _).med (by decide)) d)).trans hmark

end Sys2Proof.Sources

/-! A due schedule slot (R59, R60): where the statement of the firings fails. -/

namespace Sys2Proof.SlotTable

open Sys2Proof.Machine State

/-- A state in KEEP, in a burst, whose slot table is not in canonical form: slot 1 stands in it twice, first with an action far in the future, whose
TIME passes the end of the Tally with its next period, then with ACTION 0 and due; slot 2 asks for a pass of group 0. -/
def doubled : State := { State.reset with
  psq.vaon := true, psq.pstate := .keep, psq.burst := some 1, tally.started := true, tally.now := 0x100000#64
  sched.slots := [(1, { time := BitVec.allOnes 64, arm := true, action := 5, period := 1 }), (1, { arm := true }), (2, { arm := true, action := 1, arg := 1 })] }

/-- The slot that group 0's pass waits for at the next state. -/
def waitsFor : Res → Option (Fin 256)
  | .next t => (t.pass 0).slot
  | _ => none

/-- As slot 1's ACTION 0 fires, its first entry becomes due, and the pass waits with slot 1 for its slot. -/
theorem doubled_waits : waitsFor (exec (.teaselPass 2) doubled) = some 1 := by decide +kernel

/-- Refutes O12: in KEEP with a burst at work the pass that waits is to name the slot that asked for it, but ACTION 0 firing below that slot can make
another slot the next due where the table holds a slot twice. -/
theorem not_slotFirings : ¬ Obligations.SlotFirings := by
  rintro ⟨-, -, h, -⟩
  obtain ⟨t, hrun, -, -, hslot⟩ := h doubled 2 0 (by decide +kernel) (by decide +kernel) (by decide +kernel) (by decide +kernel) (by decide +kernel)
    (by decide +kernel) (by decide +kernel)
  have hwaits := doubled_waits
  rw [hrun] at hwaits
  exact absurd (hslot.symm.trans hwaits) (by decide)

end Sys2Proof.SlotTable

/-! The DRAM bench (R333 to R349): its errors and repairs, its scrubs and injections, its temperature, its map and its speed. -/

namespace Sys2Proof.DramRanks

open Sys2Proof.Machine State Sys2Proof.Readings

theorem cause_dram (s : State) (r : Reg) (k b n : Nat) : (s.cause r k b n).dram = s.dram := (cause_keeps s r k b n).dram (by decide)

theorem setDram_dram (s : State) (d : Dram) : (s.setDram d).dram = d := rfl

theorem judgeDram_dram (s : State) : s.judgeDram.dram = s.dram := (judgeDram_keeps s).dram (by decide)

theorem settleMed_dram (s : State) : s.settleMed.dram = s.dram := (settleMed_keeps s).dram (by decide)

theorem rank_of_dram {s t : State} (h : t.dram = s.dram) (c k : Nat) : t.rank c k = s.rank c k := by simp only [rank, h]

theorem rankIn_of_dram {s t : State} (h : t.dram = s.dram) (c : Nat) (st : RankState) : t.rankIn c st = s.rankIn c st := by
  simp only [rankIn, rank_of_dram h]

theorem rank_setRank (s : State) (c k : Nat) (r : Rank) : (s.setRank c k r).rank c k = r := Tab.get_put_same _ _ _ _

theorem rank_setRank_ne (s : State) {c k j : Nat} (r : Rank) (h : j ≠ k) : (s.setRank c k r).rank c j = s.rank c j :=
  Tab.get_put_ne _ _ _ _ (by omega)

/-- Where a rank keeps its state, its channel's ranks are found as before. -/
theorem rankIn_setRank (s : State) (c k : Nat) (r : Rank) (h : r.st = (s.rank c k).st) (st : RankState) :
    (s.setRank c k r).rankIn c st = s.rankIn c st := by
  have hst : ∀ j, ((s.setRank c k r).rank c j).st = (s.rank c j).st := fun j => by
    by_cases hj : j = k
    · subst hj; rw [rank_setRank, h]
    · rw [rank_setRank_ne _ _ hj]
  simp only [rankIn, hst]

/-- A rank in service of a channel with a free spare and no copy running is copied to the spare (R340). -/
theorem retireRank_copies {s : State} {c k : Nat} (hs : (s.rank c k).st = .inService) (hc : s.rankIn c .copying = none)
    (hj : ∃ j : Fin 4, s.rankIn c .spare = some j.val) (held : List DramArray) : ((s.retireRank c k held).rank c k).st = .copying := by
  obtain ⟨j, hj⟩ := hj
  have hrun : s.retireRank c k held = (s.setRank c k { s.rank c k with st := .copying }).judgeDram := by
    unfold State.retireRank
    dsimp only
    rw [if_neg (by simp [hs]), if_neg (by simp [hc]), if_pos (by simp [hj])]
  rw [hrun, rank_of_dram (judgeDram_dram _), rank_setRank]

/-! ### Where an address lies -/

/-- An address's rank is read off the active map and the ranks. -/
theorem benchRank_of {s t : State} (hm : t.reg Reg.DRM_MAP_ACT 0 = s.reg Reg.DRM_MAP_ACT 0) (hr : t.dram.ranks = s.dram.ranks) (a : Nat) :
    t.benchRank a = s.benchRank a := by
  simp only [benchRank, benchAddr, columnBits, setGib, numberedSets, setCount, fld, bit, rank, hm, hr]

theorem injectedAt_none {s : State} (h : s.dram.injected = none) (a : Nat) : s.injectedAt a = none := by
  unfold State.injectedAt
  rw [h]

theorem injHit_none {s : State} (h : s.dram.injected = none) (a : Nat) : s.injHit a = s := by
  unfold State.injHit
  rw [injectedAt_none h]
  rfl

theorem countsToRetire_none {s : State} (h : s.dram.injected = none) (a : Nat) : s.countsToRetire a = true := by
  unfold State.countsToRetire
  rw [injectedAt_none h]
  rfl

/-! ### Correctable errors (R337, R338) -/

/-- The CE cache with an address's line added, the oldest line leaving it when it is full. -/
def cacheWith (s : State) (a : Nat) : List Nat := if 64 < (s.dram.ceCache ++ [a]).length then (s.dram.ceCache ++ [a]).drop 1 else s.dram.ceCache ++ [a]

/-- What a correctable error has entered and counted before its rank's window. -/
def ceEntered (s : State) (a : Nat) : State :=
  ((s.setDram { s.dram with ceCache := cacheWith s a }).bump Reg.DRM_CE_CNT 0 31 0).cause Reg.DRM_CAUSE 0 8 264

theorem ceEntered_dram (s : State) (a : Nat) : (ceEntered s a).dram = { s.dram with ceCache := cacheWith s a } := cause_dram _ _ _ _ _

theorem ceEntered_reg (s : State) (a : Nat) {r : Reg} (hq : quiet (r.at 0) = true) (h1 : r.at 0 ≠ Reg.DRM_CAUSE.at 0) (h2 : r.at 0 ≠ Reg.DRM_CE_CNT.at 0) :
    (ceEntered s a).reg r 0 = s.reg r 0 :=
  (reg_cause_ne _ _ _ hq _ _ _ _ h1).trans (reg_setReg_ne _ _ h2)

/-- A correctable error at a line that the cache does not hold counts toward its rank's window, and past CE_LIMIT retires the rank. -/
theorem dramCe_counts {s : State} {a c k : Nat} (hr : s.benchRank a = some (c, k)) (hi : s.dram.injected = none) (hc : a / 64 ∉ s.dram.ceCache)
    (held : List DramArray) :
    s.dramCe a held = (if s.fld Reg.DRM_RETIRE 0 15 0 < (s.rank c k).window + 1 then
      ((ceEntered s (a / 64)).setRank c k { s.rank c k with window := (s.rank c k).window + 1 }).retireRank c k held
      else (ceEntered s (a / 64)).setRank c k { s.rank c k with window := (s.rank c k).window + 1 }) := by
  have hranks : ∀ c k, (ceEntered s (a / 64)).rank c k = s.rank c k := fun c k => by simp only [rank, ceEntered_dram]
  have hrank : (ceEntered s (a / 64)).benchRank a = some (c, k) :=
    (benchRank_of (ceEntered_reg _ _ (by decide) (by decide) (by decide)) (by rw [ceEntered_dram]) a).trans hr
  have hcounts : (ceEntered s (a / 64)).countsToRetire a = true := countsToRetire_none (by rw [ceEntered_dram]; exact hi) a
  have hlimit : ∀ v, ((ceEntered s (a / 64)).setRank c k v).fld Reg.DRM_RETIRE 0 15 0 = s.fld Reg.DRM_RETIRE 0 15 0 := fun v =>
    congrArg (bitsOf · 15 0) (ceEntered_reg s (a / 64) (r := Reg.DRM_RETIRE) (by decide) (by decide) (by decide))
  unfold State.dramCe
  rw [injHit_none hi]
  extract_lets a' s0 cache d s1 s2
  have h2 : s2 = ceEntered s (a / 64) := rfl
  have ha : ¬ s0.dram.ceCache.contains a' = true := by
    show ¬ s.dram.ceCache.contains (a / 64) = true
    simp [hc]
  clear_value s2
  rw [if_neg ha, h2, hrank]
  dsimp only
  rw [if_pos hcounts, hlimit, hranks]

/-! ### Uncorrectable errors and copies (R339, R340) -/

theorem dramUe_dram {s : State} {owner : DramArray} (h : owner ≠ .mingaso) : (s.dramUe owner).dram = s.dram := by
  unfold State.dramUe
  dsimp only
  rw [if_neg h, (dramLost_keeps _ _).dram (by decide), cause_dram]
  rfl

theorem dramUe_all (l : List DramArray) (s : State) (h : ∀ a ∈ l, a ≠ .mingaso) : (l.foldl (fun s a => s.dramUe a) s).dram = s.dram := by
  induction l generalizing s with
  | nil => rfl
  | cons a l ih =>
    rw [List.foldl_cons, ih _ fun b hb => h b (List.mem_cons_of_mem _ hb)]
    exact dramUe_dram (h a List.mem_cons_self)

theorem rankIn_st {s : State} {c k : Nat} {st : RankState} (h : s.rankIn c st = some k) : (s.rank c k).st = st := by
  have := List.find?_some h
  exact beq_iff_eq.1 this

/-! ### Training (R334, R335) -/

theorem setRank_fields (s : State) (c k : Nat) (r : Rank) : ∃ l, (s.setRank c k r).dram = { s.dram with ranks := l } := ⟨_, rfl⟩

/-- Training a channel sets its ranks alone. -/
theorem trainChannel_dram (s : State) (c : Nat) : ∃ l, (s.trainChannel c).dram = { s.dram with ranks := l } := by
  have hranks : ∀ (l : List Nat) (f : Nat → Rank) (u : State), ∃ r, (l.foldl (fun (s : State) k => s.setRank c k (f k)) u).dram = { u.dram with ranks := r } := by
    intro l f
    induction l with
    | nil => exact fun u => ⟨u.dram.ranks, rfl⟩
    | cons k l ih =>
      intro u
      obtain ⟨r, hr⟩ := ih (u.setRank c k (f k))
      exact ⟨r, hr⟩
  unfold State.trainChannel
  extract_lets n spare bad s1 s2
  have h1 : ∃ r, s1.dram = { s.dram with ranks := r } := hranks _ _ _
  have h2 : ∃ r, s2.dram = { s.dram with ranks := r } := by
    obtain ⟨r, h1⟩ := h1
    simp only [s2]
    split
    · split
      · exact ⟨r, h1⟩
      · exact ⟨_, by unfold State.setRank; rw [setDram_dram, h1]⟩
    · exact ⟨r, h1⟩
  obtain ⟨r, h2⟩ := h2
  refine ⟨r, ?_⟩
  split
  · rw [(level_keeps _ _ _ _ _ _ _).dram (by decide), h2]
  · exact h2

/-- Training leaves the Bench at its present speed, ready or failed. -/
theorem trainBench_dram (s : State) : s.trainBench.dram.trained = [s.dram.speed] ∧ (s.trainBench.dram.st = .ready ∨ s.trainBench.dram.st = .failed) := by
  have hchannels : ∀ (l : List Nat) (u : State), ∃ r, (l.foldl (fun s c => s.trainChannel c) u).dram = { u.dram with ranks := r } := by
    intro l
    induction l with
    | nil => exact fun u => ⟨u.dram.ranks, rfl⟩
    | cons c l ih =>
      intro u
      obtain ⟨r, hr⟩ := ih (u.trainChannel c)
      obtain ⟨q, hq⟩ := trainChannel_dram u c
      exact ⟨r, by rw [List.foldl_cons, hr, hq]⟩
  obtain ⟨r, hr⟩ := hchannels (List.range 8) (s.setDram { s.dram with ranks := [] })
  unfold State.trainBench
  dsimp only
  generalize List.foldl _ (s.setDram { s.dram with ranks := [] }) (List.range 8) = u at hr ⊢
  rw [judgeDram_dram]
  refine ⟨?_, ?_⟩
  · show [u.dram.speed] = _
    rw [hr]
    rfl
  · simp only [setDram_dram]
    split
    · exact Or.inr rfl
    · exact Or.inl rfl

/-! ### Registers of the commands -/

theorem quiet_chCause : ∀ c : Fin 8, quiet (Reg.DRM_CH_CAUSE.at c) = true := by decide

theorem bit_judgeDram_chCause (s : State) (c : Fin 8) (b : Nat) : s.judgeDram.bit Reg.DRM_CH_CAUSE c b = s.bit Reg.DRM_CH_CAUSE c b := by
  have hne : ∀ c : Fin 8, Reg.DRM_CH_CAUSE.at c ≠ Reg.DRM_CAUSE.at 0 := by decide
  have hlevel : ∀ (u : State) (i n m : Nat) (v : Bool), (u.level Reg.DRM_CAUSE 0 i n m v).bit Reg.DRM_CH_CAUSE c b = u.bit Reg.DRM_CH_CAUSE c b := by
    intro u i n m v
    have hset : (u.setBit Reg.DRM_CAUSE 0 i v).bit Reg.DRM_CH_CAUSE c b = u.bit Reg.DRM_CH_CAUSE c b :=
      congrArg (BitVec.getLsbD · b) (reg_setReg_ne _ _ (hne c))
    unfold State.level
    dsimp only
    split
    · exact (bit_raise _ _ _ (quiet_chCause c) _ _).trans hset
    · split
      · exact hset
      · exact hset
  exact (hlevel _ _ _ _ _).trans ((hlevel _ _ _ _ _).trans (hlevel _ _ _ _ _))

/-! ### The end of a copy (R340) -/

/-- A copy's end with nothing waiting on the channel: the spare serves the rank's set, and the rank is retired. -/
theorem copyDone_served {s : State} {c : Fin 8} {k j : Fin 4} {lost : List DramArray} (hs : s.dram.st = .ready) (hc : s.rankIn c .copying = some k.val)
    (hj : s.rankIn c .spare = some j.val) (hl : ∀ a ∈ lost, a ≠ .mingaso) (hw : ∀ w < 4, (s.rank c w).waiting = false) (held : List DramArray) :
    exec (.rankCopyDone c lost held) s = .next ((((lost.foldl (fun s a => s.dramUe a) s).setRank c j { st := .inService, set := (s.rank c k).set }).setRank c k
      { st := .retired, set := (s.rank c k).set }).cause Reg.DRM_CAUSE 0 10 266).judgeDram.settleMed := by
  have hdram := dramUe_all lost s hl
  generalize hu : lost.foldl (fun s a => s.dramUe a) s = u at hdram
  generalize hv : ((u.setRank c j { st := .inService, set := (s.rank c k).set }).setRank c k { st := .retired, set := (s.rank c k).set }) = v
  have hdone : ((v.cause Reg.DRM_CAUSE 0 10 266).judgeDram).dram = v.dram := by rw [judgeDram_dram, cause_dram]
  have hnone : ((List.range 4).find? fun w => (((v.cause Reg.DRM_CAUSE 0 10 266).judgeDram).rank c w).waiting) = none := by
    rw [List.find?_eq_none]
    intro w hw4
    have hwait : (v.rank c w).waiting = false := by
      rw [← hv]
      by_cases h1 : w = k.val
      · rw [h1, rank_setRank]
      · rw [rank_setRank_ne _ _ h1]
        by_cases h2 : w = j.val
        · rw [h2, rank_setRank]
        · rw [rank_setRank_ne _ _ h2, rank_of_dram hdram]
          exact hw w (List.mem_range.1 hw4)
    rw [rank_of_dram hdone, hwait]
    decide
  show execRankCopyDone c lost held s = _
  unfold execRankCopyDone
  rw [hc, hj]
  dsimp only
  rw [if_neg (by simp [hs]), hu, hv, hnone]

/-! ### The map's error field -/

theorem mapBad_le (s : State) : s.mapBad ≤ 4 := by
  unfold State.mapBad
  dsimp only
  split
  · omega
  · split
    · omega
    · split
      · omega
      · split <;> omega

/-- The parts of a field of bits 4 to 1: its lowest bit and the rest. -/
theorem bitsOf_parts (w : Word) : bitsOf w 1 1 = bitsOf w 4 1 % 2 ∧ bitsOf w 4 2 = bitsOf w 4 1 / 2 := by
  unfold bitsOf
  omega

/-- Settles O13: the ranks' rules give the errors' effects; the rest is read off the command. -/
theorem dramBench : Obligations.DramBench := by
  refine ⟨fun s c k a held hu hr hi hc hl hw => ?_, fun s c k a held hu hr hi hc hw hs hcp hsp => ?_, fun s a held hu hc => ?_,
    fun s a hu hc hi => ?_, fun s c k a owner held hu hr hi ho hs hcp hsp => ?_, fun s c k => ?_, fun s c k j lost held hs hcp hsp hl hw => ?_,
    fun s c k held hu => ?_, fun s c k held hu hs hcp hsp => ?_, fun s hu hb => ?_, fun s hu hq => ?_, fun s q ce ue first hq hce hue => ?_,
    fun s hb hp => ?_, fun s hb hp => ?_, fun s a hu hb ha => ?_, fun s a two hu hb ha => ?_, fun s d x hm => ?_, fun s d hm h2 => ?_,
    fun s hm hb => ?_, fun s hm hb => ?_, fun s hm hs => ?_, fun s hm hs h3 hz => ?_, fun s hs => ?_, fun s hs => ?_⟩
  · refine ⟨_, congrArg Host.Outcome.next (if_pos (by rw [hu, hr]; rfl)), ?_⟩
    have hlen : cacheWith s (a / 64) = s.dram.ceCache ++ [a / 64] := if_neg (by simp; omega)
    dsimp only
    rw [rank_of_dram (settleMed_dram _), settleMed_dram, dramCe_counts hr hi hc, if_neg (by omega), rank_setRank]
    refine ⟨?_, rfl⟩
    show (ceEntered s (a / 64)).dram.ceCache = _
    rw [ceEntered_dram, hlen]
  · refine ⟨_, congrArg Host.Outcome.next (if_pos (by rw [hu, hr]; rfl)), ?_⟩
    have hcounted : ∀ st, ((ceEntered s (a / 64)).setRank c k { s.rank c k with window := (s.rank c k).window + 1 }).rankIn c st = s.rankIn c st := fun st => by
      have hranks : ∀ c k, (ceEntered s (a / 64)).rank c k = s.rank c k := fun c k => by simp only [rank, ceEntered_dram]
      rw [rankIn_setRank _ _ _ _ (by rw [hranks])]
      simp only [rankIn, hranks]
    dsimp only
    rw [rank_of_dram (settleMed_dram _), dramCe_counts hr hi hc, if_pos hw]
    exact retireRank_copies (by rw [rank_setRank]; exact hs) (by rw [hcounted]; exact hcp) (by rw [hcounted]; exact hsp) held
  · refine ⟨_, rfl, ?_⟩
    dsimp only
    split
    · rw [settleMed_dram]
      have hhit : (s.injHit a).dram = s.dram := (injHit_keeps s a).dram (by decide)
      have hcached : s.dramCe a held = s.injHit a := if_pos (by rw [hhit]; simpa using hc)
      rw [hcached, hhit]
    · rfl
  · refine ⟨_, congrArg Host.Outcome.next (if_pos ?_), ?_⟩
    · rw [hu]
      simpa using hc
    · rw [injectedAt_none hi]
      exact ⟨rfl, rfl⟩
  · refine ⟨((s.dramUe owner).retireRank c k held).settleMed, ?_, ?_⟩
    · show execDramUncorrectableError a owner held s = _
      unfold execDramUncorrectableError
      rw [hr]
      dsimp only
      rw [if_neg (by simp [hu]), injHit_none hi, if_pos (countsToRetire_none hi a)]
    · have hdram := dramUe_dram (s := s) ho
      dsimp only
      rw [rank_of_dram (settleMed_dram _)]
      exact retireRank_copies (by rw [rank_of_dram hdram]; exact hs) (by rw [rankIn_of_dram hdram]; exact hcp) (by rw [rankIn_of_dram hdram]; exact hsp) held
  · exact ⟨_, rfl, rank_setRank _ _ _ _⟩
  · have hjk : j.val ≠ k.val := fun e => by
      have h1 := rankIn_st hcp
      have h2 := rankIn_st hsp
      rw [e, h1] at h2
      cases h2
    have hdram := dramUe_all lost s hl
    refine ⟨_, copyDone_served hs hcp hsp hl hw held, ?_⟩
    dsimp only
    generalize hv : (((lost.foldl (fun s a => s.dramUe a) s).setRank c j { st := .inService, set := (s.rank c k).set }).setRank c k
      { st := .retired, set := (s.rank c k).set }) = v
    have hdone : ((v.cause Reg.DRM_CAUSE 0 10 266).judgeDram.settleMed).dram = v.dram := by rw [settleMed_dram, judgeDram_dram, cause_dram]
    rw [rank_of_dram hdone, rank_of_dram hdone, ← hv, rank_setRank, rank_setRank_ne _ _ hjk, rank_setRank]
    exact ⟨rfl, rfl⟩
  · refine ⟨(s.cause Reg.DRM_CH_CAUSE c 1 (248 + c)).emit (.dram 6 c.val), if_neg (by simp [hu]), ?_, cause_dram _ _ _ _ _, _, rfl⟩
    exact bit_cause_same _ _ _ (quiet_chCause c) _ _ (by decide)
  · have hdram := cause_dram s Reg.DRM_CH_CAUSE c 1 (248 + c)
    refine ⟨((s.cause Reg.DRM_CH_CAUSE c 1 (248 + c)).retireRank c k held).settleMed, if_neg (by simp [hu]), ?_⟩
    dsimp only
    rw [rank_of_dram (settleMed_dram _)]
    exact retireRank_copies (by rw [rank_of_dram hdram]; exact hs) (by rw [rankIn_of_dram hdram]; exact hcp) (by rw [rankIn_of_dram hdram]; exact hsp) held
  · exact ⟨_, congrArg Host.Outcome.next (if_pos (by rw [hu, hb]; rfl)), bit_cause_same _ _ _ (by decide) _ _ (by decide), cause_dram _ _ _ _ _⟩
  · exact ⟨_, congrArg Host.Outcome.next (if_pos (by rw [hu, hq]; rfl)), rfl⟩
  · have hmin : ∀ n < 2 ^ 32, min n 0xFFFFFFFF = n := fun n hn => by omega
    generalize hu : (((s.setReg Reg.DRM_SREQ_CE 0 (BitVec.ofNat 32 ce)).setReg Reg.DRM_SREQ_UE 0 (BitVec.ofNat 32 ue)).setReg64 Reg.DRM_SREQ_FIRST_UE_LO
      Reg.DRM_SREQ_FIRST_UE_HI 0 (if ue = 0 then BitVec.allOnes 64 else first)) = u
    generalize hv : (u.setDram { u.dram with sreq := none }).cause Reg.DRM_CAUSE 0 12 268 = v
    have hdram : v.dram = { s.dram with sreq := none } := by rw [← hv, cause_dram, ← hu]; rfl
    have hbit : v.bit Reg.DRM_CAUSE 0 12 = true := by rw [← hv]; exact bit_cause_same _ _ _ (by decide) _ _ (by decide)
    have hreg : ∀ r : Reg, quiet (r.at 0) = true → r.at 0 ≠ Reg.DRM_CAUSE.at 0 → v.reg r 0 = u.reg r 0 := fun r hq hr => by
      rw [← hv]
      exact reg_cause_ne _ _ _ hq _ _ _ _ hr
    have h1 : v.reg Reg.DRM_SREQ_CE 0 = BitVec.ofNat 32 ce := by
      rw [hreg _ (by decide) (by decide), ← hu]
      exact (reg_setReg_ne _ _ (by decide)).trans ((reg_setReg_ne _ _ (by decide)).trans ((reg_setReg_ne _ _ (by decide)).trans (reg_setReg _ _ _ _)))
    have h2 : v.reg Reg.DRM_SREQ_UE 0 = BitVec.ofNat 32 ue := by
      rw [hreg _ (by decide) (by decide), ← hu]
      exact (reg_setReg_ne _ _ (by decide)).trans ((reg_setReg_ne _ _ (by decide)).trans (reg_setReg _ _ _ _))
    have hrun : ∃ l, exec (.sreqDone ce ue first) s = .next (match q.chan with
        | some (c, t) => v.complete c t .ok l
        | none => v) := by
      show ∃ l, execSreqDone ce ue first s = _
      unfold execSreqDone
      rw [hq]
      dsimp only
      rw [hmin ce hce, hmin ue hue, hu, hv]
      exact ⟨_, rfl⟩
    obtain ⟨l, hrun⟩ := hrun
    refine ⟨_, hrun, ?_⟩
    split
    · have hkeep := complete_keeps v
      dsimp only
      rw [(hkeep _ _ _ _).dram (by decide), bit_of_regs ((hkeep _ _ _ _).regs (by decide)), reg_of_regs ((hkeep _ _ _ _).regs (by decide)),
        reg_of_regs ((hkeep _ _ _ _).regs (by decide))]
      exact ⟨hdram, hbit, h1, h2⟩
    · exact ⟨hdram, hbit, h1, h2⟩
  · refine ⟨_, (if_neg (by simp [hb])).trans (congrArg Host.Outcome.next (if_neg (by simp [hp]))), rfl⟩
  · exact ⟨_, (if_neg (by simp [hb])).trans (congrArg Host.Outcome.next (if_pos (by simp [hp]))), rfl, rfl⟩
  · refine ⟨_, congrArg Host.Outcome.next ((if_pos hu).trans (if_pos (by simp [hb, ha]))), ?_⟩
    rw [ha]
    exact ⟨rfl, bit_setBit _ _ _ _ _ (by decide), rfl⟩
  · refine ⟨_, congrArg Host.Outcome.next ((if_pos hu).trans ((if_neg (by simp [hb])).trans (if_pos ?_))), rfl⟩
    unfold State.injectedAt
    rw [ha]
    simp
  · refine ⟨_, if_neg (by simp [hm]), ?_⟩
    dsimp only
    rw [judgeDram_dram, (level_keeps _ _ _ _ _ _ _).dram (by decide), setDram_dram]
    dsimp only
    refine ⟨?_, Tab.get_put_same _ _ _ _⟩
    by_cases hx : 85 < x
    · rw [if_pos hx, decide_eq_true hx]
      simp [d.isLt]
    · rw [if_neg hx, decide_eq_false hx]
      simp [d.isLt]
  · refine ⟨_, if_neg (by simp [hm]), ?_⟩
    dsimp only
    rw [judgeDram_dram, (level_keeps _ _ _ _ _ _ _).dram (by decide), setDram_dram, h2]
    dsimp only
    refine ⟨Tab.get_put_same _ _ _ _, ?_⟩
    have hbad : ((List.range 2).any fun j => Tab.get 0 (Tab.put 0 s.dram.missed d (min 3 (2 + 1))) (2 * (d.val / 2) + j) == 3) = true := by
      rw [List.any_eq_true]
      refine ⟨d.val % 2, List.mem_range.2 (Nat.mod_lt _ (by decide)), ?_⟩
      rw [Nat.div_add_mod, Tab.get_put_same]
      rfl
    rw [hbad]
    have hlt : d.val / 2 < 8 := by omega
    refine (bit_judgeDram_chCause _ ⟨d.val / 2, hlt⟩ 2).trans ?_
    exact bit_level_same _ _ _ (quiet_chCause ⟨d.val / 2, hlt⟩) _ _ _ (by decide) _
  · refine ⟨s.setFld Reg.DRM_MAP_COMMIT 0 4 1 (1 + 2 * s.mapBad), congrArg Host.Outcome.next ((if_neg (by simp [hm])).trans (if_pos hb)), ?_, ?_, rfl,
      reg_setReg_ne _ _ (by decide)⟩
    · have hfield := fld_setFld s Reg.DRM_MAP_COMMIT 0 4 1 (1 + 2 * s.mapBad) (by decide) (by decide) (by have := mapBad_le s; omega)
      obtain ⟨hlow, -⟩ := bitsOf_parts ((s.setFld Reg.DRM_MAP_COMMIT 0 4 1 (1 + 2 * s.mapBad)).reg Reg.DRM_MAP_COMMIT 0)
      refine hlow.trans ((congrArg (· % 2) hfield).trans ?_)
      omega
    · have hfield := fld_setFld s Reg.DRM_MAP_COMMIT 0 4 1 (1 + 2 * s.mapBad) (by decide) (by decide) (by have := mapBad_le s; omega)
      obtain ⟨-, hhigh⟩ := bitsOf_parts ((s.setFld Reg.DRM_MAP_COMMIT 0 4 1 (1 + 2 * s.mapBad)).reg Reg.DRM_MAP_COMMIT 0)
      refine hhigh.trans ((congrArg (· / 2) hfield).trans ?_)
      omega
  · refine ⟨_, congrArg Host.Outcome.next ((if_neg (by simp [hm])).trans (if_neg (by simp [hb]))), ?_⟩
    dsimp only
    rw [settleMed_dram, (tryOpen_keeps _).dram (by decide)]
    exact trainBench_dram _
  · refine ⟨_, congrArg Host.Outcome.next ((if_neg (by simp [hm])).trans (if_pos (Or.inr (Or.inr hs)))), bit_setBit _ _ _ _ _ (by decide), rfl⟩
  · have hzero : ((List.range 15).any fun k => s.fld Reg.DRM_TIM_SH (k + 1) 23 0 == 0) = false := by
      rw [List.any_eq_false]
      intro k hk
      simpa using hz k (List.mem_range.1 hk)
    refine ⟨_, congrArg Host.Outcome.next ((if_neg (by simp [hm])).trans ((if_neg ?_).trans (if_neg (by simp [hs])))), rfl, ?_, ?_⟩
    · rw [hzero, hs]
      simp [h3]
    · exact (bit_setBit_ne _ _ _ _ (by decide) (by decide)).trans (bit_setBit _ _ _ _ _ (by decide))
    · exact bit_setBit _ _ _ _ _ (by decide)
  · refine ⟨_, (if_neg (by simp [hs])).trans (if_pos rfl), ?_⟩
    dsimp only
    rw [settleMed_dram, cause_dram]
    exact ⟨rfl, rfl, rfl⟩
  · refine ⟨_, (if_neg (by simp [hs])).trans (if_neg (by decide)), ?_⟩
    dsimp only
    rw [settleMed_dram, cause_dram]
    rfl

end Sys2Proof.DramRanks

/-! A quarry lane (R69 to R72, R77, R88): its acknowledgements, replays, errors, retrains and its going offline. -/

namespace Sys2Proof.QuarryLane

open Sys2Proof.Machine State Sys2Proof.Readings Sys2Proof.Lanes

theorem qc_setQc (s : State) (n : Nat) (c : QChan) : (s.setQc n c).qc n = c := Tab.get_put_same _ _ _ _

theorem qc_setQc_ne (s : State) {n m : Nat} (c : QChan) (h : m ≠ n) : (s.setQc n c).qc m = s.qc m := Tab.get_put_ne _ _ _ _ h

theorem setQc_setQc (s : State) (n : Nat) (c d : QChan) (m : Nat) : ((s.setQc n c).setQc n d).qc m = (s.setQc n d).qc m := by
  by_cases h : m = n
  · subst h; rw [qc_setQc, qc_setQc]
  · rw [qc_setQc_ne _ _ h, qc_setQc_ne _ _ h, qc_setQc_ne _ _ h]

theorem ofNat_val (n : Fin 144) : Fin.ofNat 144 n.val = n := by simp

theorem qc_judgeQc (s : State) (n m : Nat) : (s.judgeQc n).qc m = s.qc m := qc_of_med ((judgeQc_keeps s n).med (by decide)) m

theorem quiet_errCnt : ∀ n : Fin 144, quiet (Reg.QC_ERR_CNT.at n) = true := by decide

theorem fld_judgeQc_errCnt (s : State) (n : Fin 144) (m hi lo : Nat) : (s.judgeQc m).fld Reg.QC_ERR_CNT n hi lo = s.fld Reg.QC_ERR_CNT n hi lo := by
  unfold State.judgeQc
  dsimp only
  split
  · exact fld_raise _ _ _ (quiet_errCnt n) _ _ _
  · rfl

/-! ### Acknowledgements and replays (R69, R70) -/

/-- An acknowledgement of flits that are unacknowledged frees them. -/
theorem acked_within {s : State} {n : Nat} {q : BitVec 8} (h : (q - (s.qc n).ackSeq).toNat + 1 ≤ (s.qc n).unacked) :
    s.acked n q = s.setQc n { s.qc n with
      ackSeq := q + 1, unacked := (s.qc n).unacked - ((q - (s.qc n).ackSeq).toNat + 1)
      replays := if ((s.qc n).replayFrom - (s.qc n).ackSeq).toNat < (q - (s.qc n).ackSeq).toNat + 1 then 0 else (s.qc n).replays } := if_pos h

/-- A replay goes out from the first flit that is not acknowledged. -/
def replaying (s : State) (n : Fin 144) (k : Nat) : State :=
  ((s.bump Reg.QC_ERR_CNT n 31 16).setQc n { s.qc n with replayFrom := (s.qc n).ackSeq, replays := k }).emit (.qmiReplay n (s.qc n).ackSeq)

/-- The first replay from its SEQ below REPLAY_LIM. -/
theorem replayOf_first {s : State} {n : Fin 144} (hr : (s.qc n).replays = 0) (hl : 1 < s.fld Reg.QC_ERR_CFG n 19 16) :
    replayOf s n = replaying s n 1 := by
  have hstart : s.startReplay n = (replaying s n 1, false) := by
    unfold State.startReplay
    dsimp only
    rw [if_neg (by simp [hr]), ofNat_val, decide_eq_false (by omega)]
    rfl
  unfold replayOf
  rw [hstart]

/-- A replay from the same SEQ that reaches REPLAY_LIM starts recovery. -/
theorem replayOf_last {s : State} {n : Fin 144} (hr : (s.qc n).replays ≠ 0) (hf : (s.qc n).replayFrom = (s.qc n).ackSeq)
    (hl : s.fld Reg.QC_ERR_CFG n 19 16 ≤ (s.qc n).replays + 1) :
    replayOf s n = ((replaying s n ((s.qc n).replays + 1)).setQc n { (replaying s n ((s.qc n).replays + 1)).qc n with exhBit := true }).enterRecovery n false false := by
  have hstart : s.startReplay n = (replaying s n ((s.qc n).replays + 1), true) := by
    unfold State.startReplay
    dsimp only
    rw [if_pos ⟨hr, hf⟩, ofNat_val, decide_eq_true hl]
    rfl
  unfold replayOf
  rw [hstart]

theorem replaying_qc (s : State) (n : Fin 144) (k : Nat) : (replaying s n k).qc n = { s.qc n with replayFrom := (s.qc n).ackSeq, replays := k } :=
  qc_setQc _ _ _

theorem cfg_ne_cnt : ∀ n : Fin 144, Reg.QC_ERR_CFG.at n ≠ Reg.QC_ERR_CNT.at n := by decide

/-! ### Recovery (R71) -/

/-- Recovery starts with a fast retrain where one is allowed and none asks for the full one. -/
theorem startRecovery_lane (s : State) (n : Fin 144) (full soft : Bool) :
    (s.startRecovery n full soft).qc n = { s.qc n with
      lstate := .recovery, soft := soft, replays := 0
      recovery := some (if full || s.fld Reg.QC_ERR_CFG n 21 20 == 0 then .full else .fast 0)
      unacked := if full || s.fld Reg.QC_ERR_CFG n 21 20 == 0 then 0 else (s.qc n).unacked } ∧
    (∀ m : Fin 144, m ≠ n → (s.startRecovery n full soft).qc m = s.qc m) ∧
    (s.startRecovery n full soft).out = .qmiRetrain n (full || s.fld Reg.QC_ERR_CFG n 21 20 == 0) :: s.out := by
  refine ⟨qc_setQc _ _ _, fun m hm => qc_setQc_ne _ _ fun e => hm (Fin.ext e), ?_⟩
  unfold State.startRecovery
  dsimp only
  rw [ofNat_val]
  rfl

/-! ### Flits with a bad CRC (R70) -/

/-- What a flit with a bad CRC has counted, and the NAK it is answered by. -/
def crcCounted (s : State) (n : Fin 144) (k : Nat) (storm : Bool) (at_ : Dword) : State :=
  ((s.bump Reg.QC_ERR_CNT n 15 0).setQc n { s.qc n with storm := k, stormBit := storm, stormAt := at_ }).sendNak n

theorem crcCounted_qc (s : State) (n : Fin 144) (k : Nat) (storm : Bool) (at_ : Dword) : (crcCounted s n k storm at_).qc n = { s.qc n with
    storm := k, stormBit := storm, stormAt := at_, nak := true, rxOwed := if (s.qc n).nak then (s.qc n).rxOwed else 0 } := by
  unfold crcCounted State.sendNak
  simp only [qc_setQc]
  split
  next h => rw [qc_setQc, h]
  next h => exact qc_setQc _ _ _

theorem crcCounted_ne (s : State) (n : Fin 144) (k : Nat) (storm : Bool) (at_ : Dword) (m : Fin 144) (hm : m ≠ n) :
    (crcCounted s n k storm at_).qc m = s.qc m := by
  have hne : m.val ≠ n.val := fun e => hm (Fin.ext e)
  unfold crcCounted State.sendNak
  dsimp only
  split
  · exact qc_setQc_ne _ _ hne
  · exact (qc_setQc_ne _ _ hne).trans (qc_setQc_ne _ _ hne)

theorem crcCounted_out (s : State) (n : Fin 144) (k : Nat) (storm : Bool) (at_ : Dword) :
    (crcCounted s n k storm at_).out = (if (s.qc n).nak then [] else [.qmiLctl n (.nak ((s.qc n).rxSeq - 1))]) ++ s.out := by
  unfold crcCounted State.sendNak
  simp only [qc_setQc, ofNat_val]
  split <;> rfl

theorem crcCounted_regs (s : State) (n : Fin 144) (k : Nat) (storm : Bool) (at_ : Dword) :
    (crcCounted s n k storm at_).regs = (s.bump Reg.QC_ERR_CNT n 15 0).regs := (sendNak_keeps _ _).regs (by decide)

theorem crcCounted_fld (s : State) (n : Fin 144) (k : Nat) (storm : Bool) (at_ : Dword) :
    (crcCounted s n k storm at_).fld Reg.QC_ERR_CNT n 15 0 = min (s.fld Reg.QC_ERR_CNT n 15 0 + 1) 65535 :=
  (fld_of_regs (crcCounted_regs _ _ _ _ _) _ _ _ _).trans (fld_bump _ _ _ _ _ _ (by decide) (by decide))

theorem crcCounted_cfg (s : State) (n : Fin 144) (k : Nat) (storm : Bool) (at_ : Dword) :
    (crcCounted s n k storm at_).fld Reg.QC_ERR_CFG n 21 20 = s.fld Reg.QC_ERR_CFG n 21 20 :=
  (fld_of_regs (crcCounted_regs _ _ _ _ _) _ _ _ _).trans (congrArg (bitsOf · 21 20) (reg_setReg_ne _ _ (cfg_ne_cnt n)))

theorem crcCounted_keeps (s : State) (n : Fin 144) (k : Nat) (storm : Bool) (at_ : Dword) : Keeps [.regs, .med, .out] s (crcCounted s n k storm at_) :=
  Keeps.after (sendNak_keeps _ _) (by decide) (Keeps.after (setQc_keeps _ _ _) (by decide) (Keeps.after (bump_keeps _ _ _ _ _ _) (by decide) (Keeps.refl _ _)))

/-! ### A fast retrain that failed (R71) -/

/-- The next fast retrain, or the full one where no more are allowed. -/
def retrainAgain (s : State) (n : Fin 144) (k : Nat) (more : Bool) : State :=
  ((s.bump Reg.QC_RETRAINS n 7 0).setQc n { s.qc n with
    recovery := some (if more then .fast (k + 1) else .full), unacked := if more then (s.qc n).unacked else 0 }).emit (.qmiRetrain n !more)

theorem retrainAgain_qc (s : State) (n : Fin 144) (k : Nat) (more : Bool) : (retrainAgain s n k more).qc n = { s.qc n with
    recovery := some (if more then .fast (k + 1) else .full), unacked := if more then (s.qc n).unacked else 0 } := qc_setQc _ _ _

theorem retrainAgain_out (s : State) (n : Fin 144) (k : Nat) (more : Bool) : (retrainAgain s n k more).out = .qmiRetrain n (!more) :: s.out := rfl

/-- Settles O15: each command's guard holds, and the lane's rules give what it leaves. -/
theorem quarryLinks : Obligations.QuarryLinks := by
  refine ⟨fun s n q hu hk => ?_, fun s n q hu hk hr hl => ?_, fun s n hu hk hr hl => ?_, fun s n hu hk hr hf hl => ?_, fun s n d f hu => ?_,
    fun s n hm hp hl hq hk => ?_, fun s n hp => ?_, fun s n f hu hb hn hl => ?_, fun s n f hu hb hl => ?_, fun s n w f hu hb hk hs hn => ?_,
    fun s n hu ho => ?_, fun s n hu => ?_, fun s n hu hl => ?_, fun s n k hu hr => ?_, fun s n k hu hr => ?_, fun s n hu hr => ?_,
    fun s n hu hr => ?_, fun s n hm hl hf => ?_, fun s n hm hl => ?_, fun s n hl => ?_, fun s n hm ho => ?_, fun s n hm hw => ?_,
    fun s n hu hl hd => ?_⟩
  · exact ⟨_, congrArg Host.Outcome.next ((if_pos hu).trans (congrArg (State.pump · n) (acked_within hk))), _, rfl, rfl⟩
  · have hack := acked_within hk
    refine ⟨_, congrArg Host.Outcome.next (if_pos hu), ?_⟩
    generalize s.acked n q = u at hack ⊢
    have hq : u.qc n = { s.qc n with
        ackSeq := q + 1, unacked := (s.qc n).unacked - ((q - (s.qc n).ackSeq).toNat + 1)
        replays := if ((s.qc n).replayFrom - (s.qc n).ackSeq).toNat < (q - (s.qc n).ackSeq).toNat + 1 then 0 else (s.qc n).replays } := by
      rw [hack]; exact qc_setQc _ _ _
    have hout : u.out = s.out := by rw [hack]; rfl
    have hzero : (u.qc n).replays = 0 := by
      rw [hq]
      dsimp only
      split
      · rfl
      · exact hr
    rw [replayOf_first hzero (by rw [hack]; exact hl), replaying_qc]
    dsimp only
    refine ⟨by rw [hq], by rw [hq], rfl, by rw [hq], ?_⟩
    show Out.qmiReplay n (u.qc n).ackSeq :: u.out = _
    rw [hq, hout]
  · exact ⟨_, congrArg Host.Outcome.next ((if_pos (by rw [hu, decide_eq_true hk]; rfl)).trans (replayOf_first hr hl)), replaying_qc _ _ _, rfl⟩
  · generalize hv : (replaying s n ((s.qc n).replays + 1)).setQc n { (replaying s n ((s.qc n).replays + 1)).qc n with exhBit := true } = v
    have hvq : v.qc n = { s.qc n with replayFrom := (s.qc n).ackSeq, replays := (s.qc n).replays + 1, exhBit := true } := by
      rw [← hv, qc_setQc, replaying_qc]
    have hvne : ∀ m : Fin 144, m ≠ n → v.qc m = s.qc m := fun m hm => by
      rw [← hv, qc_setQc_ne _ _ fun e => hm (Fin.ext e)]
      exact qc_setQc_ne _ _ fun e => hm (Fin.ext e)
    have hcfg : v.fld Reg.QC_ERR_CFG n 21 20 = s.fld Reg.QC_ERR_CFG n 21 20 := by
      rw [← hv]
      exact congrArg (bitsOf · 21 20) (reg_setReg_ne _ _ (cfg_ne_cnt n))
    have hout : v.out = .qmiReplay n (s.qc n).ackSeq :: s.out := by rw [← hv]; rfl
    have hvk : Keeps [.regs, .med, .out] s v := by
      rw [← hv]
      exact Keeps.after (setQc_keeps _ _ _) (by decide) (Keeps.after (emit_keeps _ _) (by decide) (Keeps.after (setQc_keeps _ _ _) (by decide)
        (Keeps.after (bump_keeps _ _ _ _ _ _) (by decide) (Keeps.refl _ _))))
    obtain ⟨hq, hne, hrec⟩ := startRecovery_lane v n false false
    rw [hvq, hcfg, Bool.false_or] at hq
    rw [hcfg, Bool.false_or, hout] at hrec
    refine ⟨_, congrArg Host.Outcome.next ((if_pos (by rw [hu, decide_eq_true hk]; rfl)).trans (replayOf_last hr hf hl)), v.startRecovery n false false,
      Keeps.after (startRecovery_keeps _ _ _ _) (by decide) hvk, fun m hm => (hne m hm).trans (hvne m hm), ?_, hrec, ?_⟩
    · rw [hq]
      simp only [beq_iff_eq]
    · rw [hv]
      rfl
  · exact ⟨_, congrArg Host.Outcome.next (if_pos hu), _, rfl, rfl⟩
  · exact ⟨_, congrArg Host.Outcome.next (if_pos (by simp [hm, hp, hl, hq, hk])), qc_setQc _ _ _, rfl⟩
  · exact ⟨_, congrArg Host.Outcome.next (if_neg (by simp [hp])), rfl⟩
  · refine ⟨(crcCounted s n 1 false s.tally.now).judgeQc n, ?_, ?_, ?_⟩
    · show execQmiCrcFailure n true f s = _
      unfold execQmiCrcFailure
      rw [if_pos hu, if_pos hb]
      dsimp only
      rw [if_pos rfl, if_pos rfl, decide_eq_false (by omega)]
      rfl
    · rw [qc_judgeQc]
      exact (crcCounted_qc s n 1 false s.tally.now).trans (by rw [hn]; rfl)
    · rw [fld_judgeQc_errCnt]
      exact crcCounted_fld _ _ _ _ _
  · have hq := crcCounted_qc s n ((s.qc n).storm + 1) true (s.qc n).stormAt
    have hne := crcCounted_ne s n ((s.qc n).storm + 1) true (s.qc n).stormAt
    have hout := crcCounted_out s n ((s.qc n).storm + 1) true (s.qc n).stormAt
    have hfld := crcCounted_fld s n ((s.qc n).storm + 1) true (s.qc n).stormAt
    have hcfg := crcCounted_cfg s n ((s.qc n).storm + 1) true (s.qc n).stormAt
    have hkeep := crcCounted_keeps s n ((s.qc n).storm + 1) true (s.qc n).stormAt
    have hrun : exec (.qmiCrcFailure n false f) s = .next ((crcCounted s n ((s.qc n).storm + 1) true (s.qc n).stormAt).enterRecovery n false false) := by
      show execQmiCrcFailure n false f s = _
      unfold execQmiCrcFailure
      rw [if_pos hu, if_pos hb]
      dsimp only
      rw [if_neg Bool.false_ne_true, if_neg Bool.false_ne_true, decide_eq_true hl, if_pos rfl]
      rfl
    generalize crcCounted s n ((s.qc n).storm + 1) true (s.qc n).stormAt = v at hq hne hout hfld hcfg hkeep hrun
    obtain ⟨hrq, hrne, hrout⟩ := startRecovery_lane v n false false
    rw [hq, hcfg, Bool.false_or] at hrq
    rw [hcfg, Bool.false_or, hout] at hrout
    refine ⟨_, hrun, v.startRecovery n false false, Keeps.after (startRecovery_keeps _ _ _ _) (by decide) hkeep, ?_,
      fun m hm => (hrne m hm).trans (hne m hm), ?_, hrout, rfl⟩
    · exact hfld
    · rw [hrq]
      simp only [beq_iff_eq]
  · have hnak : s.sendNak n = (s.setQc n { s.qc n with nak := true, rxOwed := 0 }).emit (.qmiLctl n (.nak ((s.qc n).rxSeq - 1))) := by
      unfold State.sendNak
      dsimp only
      rw [if_neg (Bool.eq_false_iff.1 hn), ofNat_val]
    refine ⟨_, congrArg Host.Outcome.next ((if_pos hu).trans ((if_neg (Bool.eq_false_iff.1 hb)).trans ((if_pos (by simp [hk, hs])).trans hnak))), rfl,
      qc_setQc _ _ _, rfl⟩
  · exact ⟨_, congrArg Host.Outcome.next (if_pos (by rw [hu, decide_eq_true ho]; rfl)), qc_setQc _ _ _, rfl⟩
  · refine ⟨_, congrArg Host.Outcome.next (if_pos hu), ?_⟩
    dsimp only
    cases hn : (s.qc n).nak
    · exact ⟨rfl, rfl⟩
    · exact ⟨rfl, rfl⟩
  · have hdown : s.laneUp n = false := by
      unfold State.laneUp
      rcases hl with hl | hl <;> rw [hl] <;> simp
    refine ⟨_, congrArg Host.Outcome.next ((if_neg (Bool.eq_false_iff.1 hdown)).trans (if_pos ?_)), qc_setQc _ _ _, rfl⟩
    rcases hl with hl | hl <;> rw [hu, hl] <;> rfl
  · refine ⟨_, ?_, _, rfl, rfl⟩
    show execFastRetrainDone n true s = _
    unfold execFastRetrainDone QChan.recovered
    dsimp only
    rw [hu, hr]
    rfl
  · have hrun : exec (.fastRetrainDone n false) s = .next (retrainAgain s n k (decide (k + 1 < s.fld Reg.QC_ERR_CFG n 21 20))) := by
      show execFastRetrainDone n false s = _
      unfold execFastRetrainDone
      dsimp only
      rw [hu, hr]
      rfl
    have hq := retrainAgain_qc s n k (decide (k + 1 < s.fld Reg.QC_ERR_CFG n 21 20))
    refine ⟨_, hrun, ?_, ?_, retrainAgain_out _ _ _ _⟩
    · rw [hq]
    · rw [hq]
      simp only [decide_eq_true_eq]
  · refine ⟨_, ?_, _, rfl, rfl⟩
    show execFullRetrainDone n true s = _
    unfold execFullRetrainDone QChan.recovered
    dsimp only
    rw [hu, hr]
    rfl
  · refine ⟨(s.bump Reg.QC_RETRAINS n 15 8).channelDown n, ?_, _, rfl, ?_⟩
    · show execFullRetrainDone n false s = _
      unfold execFullRetrainDone
      dsimp only
      rw [hu, hr]
      dsimp only
      rw [if_neg Bool.false_ne_true]
    · have hqc : (s.bump Reg.QC_RETRAINS n 15 8).qc n = s.qc n := rfl
      unfold State.channelDown
      rw [hqc]
  · refine ⟨_, congrArg Host.Outcome.next (if_pos (by simp [hm, hl])), _, rfl, ?_⟩
    unfold State.enterRecovery State.startRecovery
    have hfull : (false || s.fld Reg.QC_ERR_CFG n 21 20 == 0) = false := by simp [hf]
    dsimp only
    rw [hfull, ofNat_val]
    rfl
  · refine ⟨_, congrArg Host.Outcome.next (if_pos (by simp [hm, hl])), _, rfl, ?_⟩
    unfold State.enterRecovery State.startRecovery
    dsimp only
    rw [ofNat_val]
    rfl
  · exact ⟨⟨_, congrArg Host.Outcome.next (if_neg (by simp [hl])), rfl⟩, ⟨_, congrArg Host.Outcome.next (if_neg (by simp [hl])), rfl⟩⟩
  · exact ⟨_, congrArg Host.Outcome.next ((if_pos hm).trans (if_neg (Bool.eq_false_iff.1 ho))), _, rfl, rfl⟩
  · exact ⟨_, congrArg Host.Outcome.next (if_pos (by rw [hm, hw]; rfl)), qc_setQc _ _ _, rfl⟩
  · refine ⟨_, congrArg Host.Outcome.next (if_pos ?_), _, rfl, rfl⟩
    have hall : ((s.chanDies n).all fun d => (s.die d).identified) = true := List.all_eq_true.2 hd
    rw [hu, hl, hall]
    rfl

end Sys2Proof.QuarryLane

/-! The Tandem timers (R210, R216 to R218, R231): heartbeats, SYNC, the loss of the link, and what is waited for after it. -/

namespace Sys2Proof.TwinTimers

open Sys2Proof.Machine State Sys2Proof.Readings

/-- A frame sent on a port that is up is queued there, and the other port's state stays. -/
theorem tsend_up {s : State} (h0 : (s.tport false).st = .up) (b : TBody) : ((s.tsend false b).tport true).st = (s.tport true).st := by
  unfold State.tsend
  dsimp only
  rw [if_pos (by rw [h0]; rfl)]
  rfl

/-- Where the session stands and the pair is PAIRED a body goes out on each port that is up. -/
theorem onPorts_runs {s : State} (hn : s.twin.session ≠ 0) (hp : s.twin.pair = .paired) (b : TBody) :
    onPorts s b = [false, true].foldl (fun s p => if (s.tport p).st == .up then s.tsend p b else s) s :=
  if_neg fun h => h.elim hn fun h => by rw [hp] at h; exact absurd h (by decide)

/-- A body goes out on the first port where that one is up and the other down. -/
theorem onPorts_first {s : State} (hn : s.twin.session ≠ 0) (hp : s.twin.pair = .paired) (h0 : s.twin.p0.st = .up) (h1 : s.twin.p1.st = .down)
    (b : TBody) : onPorts s b = s.tsend false b := by
  have hup : (s.tport false).st = .up := h0
  have hin : (if (s.tport false).st == .up then s.tsend false b else s) = s.tsend false b := if_pos (by rw [hup]; rfl)
  rw [onPorts_runs hn hp, List.foldl_cons, hin]
  exact if_neg (by rw [tsend_up hup, show (s.tport true).st = .down from h1]; decide)

/-- A body goes out on both ports where both are up. -/
theorem onPorts_both {s : State} (hn : s.twin.session ≠ 0) (hp : s.twin.pair = .paired) (h0 : s.twin.p0.st = .up) (h1 : s.twin.p1.st = .up)
    (b : TBody) : onPorts s b = (s.tsend false b).tsend true b := by
  have hup : (s.tport false).st = .up := h0
  have hin : (if (s.tport false).st == .up then s.tsend false b else s) = s.tsend false b := if_pos (by rw [hup]; rfl)
  rw [onPorts_runs hn hp, List.foldl_cons, hin]
  exact if_pos (by rw [tsend_up hup, show (s.tport true).st = .up from h1]; rfl)

theorem onPorts_none {s : State} (hn : s.twin.session = 0) (b : TBody) : onPorts s b = s := if_pos (Or.inl hn)

/-- What the loss of the link leaves a region in (R217): one homed here and not solo is held with what has not been mirrored marked, one homed on
the twin is fenced. -/
def lossAt (s : State) (r : Nat) : State :=
  if (s.rt r).home then
    if (s.rt r).solo then s
    else
      let x := (s.bench.orders.filter fun o => o.mine && o.w.region == r && !o.mirrored).foldl (fun s o => s.markSett r (o.w.rline / 256)) s
      x.putRt r { x.rt r with held := true }
  else s.putRt r { s.rt r with fenced := true, solo := false, held := false, strictRefuse := false }

/-- A loss declared while PAIRED ends the session, holds or fences every region and refuses what waits on the twin. -/
theorem declareLoss_paired {s u v : State} (hp : s.twin.pair = .paired)
    (hu : u = ((s.bump Reg.TDM_LOSS_CNT 0 31 0).setPair .lost).failHanding.endSession)
    (hv : v = u.setTwin { u.twin with fenceWait := true, strictWait := true }) :
    s.declareLoss = (v.regionIds.foldl lossAt v).failForwarded.failAlloc.settle := by
  unfold State.declareLoss
  rw [if_neg (by rw [hp]; decide), ← hu]
  extract_lets s1 twin s2 s3
  have h2 : s2 = v := hv.symm
  have h3 : s3 = v.regionIds.foldl lossAt v := by
    rw [← h2]
    rfl
  rw [h3]

/-- A loss declared by a controller that is not PAIRED ends an attesting session, and is nothing otherwise. -/
theorem declareLoss_attesting {s : State} (hp : s.twin.pair = .attesting) : s.declareLoss = (s.endSession.setPair .lost).judgeTdm := by
  unfold State.declareLoss
  rw [if_pos (by rw [hp]; decide), if_pos (by rw [hp]; rfl)]

theorem declareLoss_idle {s : State} (h1 : s.twin.pair ≠ .paired) (h2 : s.twin.pair ≠ .attesting) : s.declareLoss = s := by
  unfold State.declareLoss
  rw [if_pos (by simp [h1]), if_neg (by simp [h2])]

theorem linkLoss_runs {s : State} (hm : s.psq.mainUp = true) : exec .linkLossTimeout s = .next s.declareLoss.settleTwin := if_pos hm

/-- The fence interval's end with one region acts on that region. -/
theorem fenceInterval_one {s : State} {r : Nat} (hm : s.psq.mainUp = true) (hf : s.twin.fenceWait = true) (hp : s.twin.pair = .lost)
    (hr : s.regionIds = [r]) :
    exec .fenceIntervalExpiry s = .next ((s.setTwin { s.twin with fenceWait := false }).fenceEnd r).settleTwin := by
  show execFenceIntervalExpiry s = _
  unfold execFenceIntervalExpiry
  rw [if_pos (by rw [hm, hf, hp]; rfl), hr]
  rfl

theorem fenceEnd_skips {s : State} {r : Nat} (h : (s.rt r).home = false ∨ s.strict r = true) : s.fenceEnd r = s := by
  unfold State.fenceEnd
  refine if_neg ?_
  rcases h with h | h <;> simp [h]

/-- STRICT_HOLD_MS's end with one region. -/
theorem strictHold_one {s : State} {r : Nat} (hm : s.psq.mainUp = true) (hf : s.twin.fenceWait = false) (hs : s.twin.strictWait = true)
    (hp : s.twin.pair = .lost) (hr : s.regionIds = [r]) :
    exec .strictHoldExpiry s = .next (if (s.rt r).home && (s.rt r).held && (s.region r).strict then
      (s.setTwin { s.twin with strictWait := false }).putRt r { s.rt r with held := false, strictRefuse := true }
      else s.setTwin { s.twin with strictWait := false }).settleTwin := by
  show execStrictHoldExpiry s = _
  unfold execStrictHoldExpiry
  rw [if_pos (by rw [hm, hf, hs, hp]; rfl), hr]
  rfl

/-- Settles O32: each timer's guard holds, and what it does is read off. -/
theorem tandemTimers : Obligations.TandemTimers := by
  refine ⟨fun s u hm hn hp h0 h1 hu => ?_, fun s u v hm hn hp h0 h1 hu hv => ?_, fun s hm hn => ⟨?_, ?_⟩, fun s u hm hp hu => ?_,
    fun s hm => ⟨fun hp => ?_, fun hp => ?_⟩, fun s r hm hf hp hr u hu => ⟨fun hh hd hs => ?_, fun hs => ?_, fun hh => ?_⟩, fun s hf => ?_,
    fun s u r hm hf hs hp hr hu => ⟨fun hh hd hst => ?_, fun hd => ?_⟩, fun s hs => ?_, fun s n hm hp hl => ⟨fun hn => ?_, fun hn => ?_⟩⟩
  · subst hu
    refine ⟨_, ?_, rfl⟩
    show execTandemHeartbeatTimer s = _
    unfold execTandemHeartbeatTimer
    rw [if_neg (by simp [hm])]
    exact congrArg Host.Outcome.next (onPorts_first (s := s.setTwin { s.twin with hbTx := s.twin.hbTx + 1 }) hn hp h0 h1 _)
  · subst hv hu
    exact ⟨_, (if_pos hm).trans (congrArg Host.Outcome.next (onPorts_both hn hp h0 h1 _)), rfl⟩
  · exact ⟨_, (if_pos hm).trans (congrArg Host.Outcome.next (onPorts_none hn _)), rfl⟩
  · refine ⟨_, ?_, rfl⟩
    show execTandemHeartbeatTimer s = _
    unfold execTandemHeartbeatTimer
    rw [if_neg (by simp [hm])]
    exact congrArg Host.Outcome.next (onPorts_none (s := s.setTwin { s.twin with hbTx := s.twin.hbTx + 1 }) hn _)
  · exact ⟨_, linkLoss_runs hm, _, _, rfl, rfl, congrArg State.settleTwin (declareLoss_paired hp hu rfl)⟩
  · exact ⟨_, (linkLoss_runs hm).trans (by rw [declareLoss_attesting hp]), rfl⟩
  · have hq : s.twin.pair ≠ .paired ∧ s.twin.pair ≠ .attesting := by
      rcases hp with hp | hp | hp | hp <;> rw [hp] <;> decide
    exact ⟨_, (linkLoss_runs hm).trans (by rw [declareLoss_idle hq.1 hq.2]), rfl⟩
  · subst hu
    refine ⟨_, (fenceInterval_one hm hf hp hr).trans (congrArg (fun t : State => Host.Outcome.next t.settleTwin) (if_pos ?_)), rfl⟩
    show ((s.rt r).home && (s.rt r).held && !(s.region r).strict) = true
    rw [hh, hd, hs]
    rfl
  · subst hu
    exact ⟨_, (fenceInterval_one hm hf hp hr).trans (congrArg (fun t : State => Host.Outcome.next t.settleTwin) (fenceEnd_skips (Or.inr hs))), rfl⟩
  · subst hu
    exact ⟨_, (fenceInterval_one hm hf hp hr).trans (congrArg (fun t : State => Host.Outcome.next t.settleTwin) (fenceEnd_skips (Or.inl hh))), rfl⟩
  · exact ⟨_, if_neg (by simp [hf]), rfl⟩
  · subst hu
    exact ⟨_, (strictHold_one hm hf hs hp hr).trans (by rw [if_pos (by rw [hh, hd, hst]; rfl)]), rfl⟩
  · subst hu
    exact ⟨_, (strictHold_one hm hf hs hp hr).trans (by rw [if_neg (by simp [hd])]), rfl⟩
  · exact ⟨_, if_neg (by simp [hs]), rfl⟩
  · exact ⟨_, if_pos (by simp [State.paired, hm, hp, hl, hn]), rfl⟩
  · exact ⟨_, if_neg (by simp [hn]), rfl⟩

end Sys2Proof.TwinTimers

/-! What the checks of a command packet ask (Table 14-5). -/

namespace Sys2Proof.AzPackets

open Sys2Proof.Machine State

/-- A packet of the LEN its opcode requires. -/
theorem lenIs_of {k n : Nat} (h : n = k) : lenIs k n = true := beq_iff_eq.2 h

/-- A Boolean alternative of which one side holds. -/
theorem or_of {a b : Bool} (h : a = true ∨ b = true) : (a || b) = true := by simpa using h

/-- The packet of one parameter with that one replaced. -/
theorem withP0_params {r : AzReq} {n : Word} (hl : r.params.length = 1) :
    (r.withP0 n).params.length = 1 ∧ (r.withP0 n).n 0 = n.toNat := by
  obtain ⟨x, e⟩ := List.length_eq_one_iff.1 hl
  unfold AzReq.n AzReq.p AzReq.withP0
  rw [e]
  exact ⟨rfl, rfl⟩

end Sys2Proof.AzPackets

/-! The Azler commands of group 0x01xx (Table 14-6, R340 to R361): a packet that nothing keeps from being carried out is answered with what its
command gives; each command's checks pass, and what it answers is read off. -/

namespace Sys2Proof.ChannelGroup

open Sys2Proof.Machine State Sys2Proof.AzPackets

/-- Settles O18: command by command. -/
theorem channelCommands : Obligations.ChannelCommands := by
  refine ⟨fun s w r h hl => ?_, fun s w r h hl => ?_, fun s w r h ha hl h1 h2 h3 h4 ht => ?_, fun s w r h ha hl h1 h2 ho hb hg => ?_,
    fun s w r h hl hn ho => ?_, fun s w r d h hl hn ho hd hw => ?_, fun s w r h hl hn ho hd => ?_, fun s w r h ha hl hn h1 h2 => ?_,
    fun s w r h hl hn => ?_, fun s w r h hl hn => ?_, fun s w r h h1 h2 h3 h4 => ?_, fun s w r h hl h1 h2 h3 h4 hg => ?_⟩
  · exact ⟨_, rfl, h.okay rfl (lenIs_of hl) rfl fun _ => by simp⟩
  · exact ⟨_, rfl, h.okay rfl (lenIs_of hl) rfl fun _ => by simp⟩
  · refine ⟨_, rfl, _, _, rfl, rfl, h.okay ha (lenIs_of hl) ?_ fun _ => by split_ifs <;> simp⟩
    dsimp only
    rw [if_neg (by omega), if_neg (by omega), if_neg (by simp [ht])]
  · have hn : ¬((w.chan (r.n 0 % 64)).ops ≠ [] ∨ (w.chan (r.n 0 % 64)).bell = true ∨
        ((w.chan (r.n 0 % 64)).lgo = true ∧ ¬(r.n 0 % 64 = r.chan.val ∧ r.via = .legacy))) := by
      rw [ho, hb]
      rcases hg with hg | hg
      · simp [hg]
      · simp [hg.1, hg.2]
    have hz : ¬(r.n 0 / 64 % 4 ≠ 0 ∨ r.n 0 / 512 ≠ 0) := by omega
    exact ⟨_, rfl, h.okayThen (or_of (ha.imp_left fun k => beq_iff_eq.2 k)) (lenIs_of hl) ((if_neg hz).trans (if_neg hn))⟩
  · exact ⟨_, rfl, h.okay rfl (lenIs_of hl) ((if_neg (by omega)).trans (if_pos ho)) fun _ => by simp⟩
  · refine ⟨_, rfl, h.okay rfl (lenIs_of hl) ((if_neg (by omega)).trans ((if_neg (by simp [ho])).trans (by rw [hd]))) fun k => ?_⟩
    have := hw k
    simp only [List.length_cons, List.length_take]
    omega
  · exact ⟨_, rfl, h.okay rfl (lenIs_of hl) ((if_neg (by omega)).trans ((if_neg (by simp [ho])).trans (by rw [hd]))) fun _ => by simp⟩
  · refine ⟨_, rfl, h.okay (or_of ha) (lenIs_of hl) ((if_neg (by omega)).trans (if_neg ?_)) fun _ => by simp⟩
    rintro (k | ⟨k, k'⟩)
    · exact k h1
    · have := h2 k
      omega
  · exact ⟨_, rfl, h.okay rfl (lenIs_of hl) (if_neg (by omega)) fun _ => by simp⟩
  · exact ⟨_, rfl, h.bad rfl (lenIs_of hl) (by simp) (if_pos hn)⟩
  · exact ⟨_, rfl, h.okay rfl (by simp [h1, h2]) (if_neg (by omega)) fun _ => by simp⟩
  · exact ⟨_, rfl, h.okay rfl (lenIs_of hl) ((if_neg (by omega)).trans (if_neg (by omega))) fun k => by simpa using hg k⟩

end Sys2Proof.ChannelGroup

/-! The Azler commands of group 0x09xx (R48 to R53, R61, R434, R438): time, the schedule and power. -/

namespace Sys2Proof.TimeGroup

open Sys2Proof.Machine State Sys2Proof.AzPackets

/-- A packet that neither is misbuilt nor asks for an absolute time without trust passes the checks of SCHED_ADD. -/
theorem schedAdd_checks {w : State} {r : AzReq} (h1 : r.p 2 &&& 0xFFFFFEF0#32 = 0) (h2 : bitsOf (r.p 2) 3 0 ≤ 9)
    (h3 : (r.p 2).getLsbD 8 = true ∨ w.tally.trust ≠ .untrusted) :
    ¬(r.p 2 &&& 0xFFFFFEF0#32 ≠ 0 ∨ 9 < bitsOf (r.p 2) 3 0) ∧ ¬((!(r.p 2).getLsbD 8) = true ∧ w.tally.trust = .untrusted) := by
  refine ⟨fun k => k.elim (fun k => k h1) (by omega), fun k => ?_⟩
  rcases h3 with h3 | h3
  · rw [h3] at k
    exact absurd k.1 (by decide)
  · exact h3 k.2

/-- What POWER_REQUEST of request `n` starts after its reply. -/
theorem powerRequest_starts {s w : State} {r : AzReq} (n : Word) (f : State → State) (h : s.Takes w (r.withP0 n) 0x0905)
    (ha : s.hasRight r.chan .admin = true) (hl : r.params.length = 1) (hn : n.toNat ≤ 3)
    (hs : ¬(n.toNat = 2 ∧ (w.psq.pstate = .dormant ∨ w.psq.pstate = .poweringDown ∨ w.psq.pstate = .lockout) ∨
      n.toNat = 1 ∧ w.psq.pstate = .lockout))
    (hf : (fun s : State => if n.toNat = 0 then s.offRequest false else if n.toNat = 1 then s.onRequest else if n.toNat = 2 then s.keepEnter
      else s.keepLeaveRequest) = f) :
    ∃ v, w.Answered v (r.withP0 n) .ok [] ∧ s.azPowerRequest (r.withP0 n) = f v := by
  obtain ⟨e0, e1⟩ := withP0_params (n := n) hl
  subst hf
  refine h.okayThen ha (lenIs_of e0) ?_
  dsimp only
  rw [e1, if_neg (by omega), if_neg hs]

/-- Settles O19: command by command. -/
theorem timeAndPowerCommands : Obligations.TimeAndPowerCommands := by
  refine ⟨fun s w r h hl => ?_, fun s w r h hs hl hv ho h2 he => ?_, fun s w r h hs hl ho => ?_, fun s w r h hs hl ho h2 he => ?_,
    fun s w r k v h ha hl h1 h2 h3 hf hv => ?_, fun s w r h hs hl h1 h2 h3 hf => ?_, fun s w r h h1 h2 ha hl ho => ?_,
    fun s w r h h1 h2 ho hl => ?_, fun s w r h ha hl => ?_, fun s w r h ha hl hp => ?_, fun s w r h ha hl h1 h2 h3 => ?_,
    fun s w r h ha hl => ?_, fun s w r h ha hl => ?_, fun s w r h ha hl hn => ?_, fun s w r h ha hl h1 h2 => ?_,
    fun s w r h ha hl hp => ?_, fun s w r h ha hl hp => ?_, fun s w r h hl => ?_⟩
  · exact ⟨_, rfl, h.okay rfl (lenIs_of hl) rfl fun _ => by simp⟩
  · exact ⟨_, rfl, h.okay hs (lenIs_of hl) ((if_neg (by simp [ho, h2])).trans (if_neg (by simp [he]))) fun _ => by simp⟩
  · exact ⟨_, rfl, h.bad hs (lenIs_of hl) (by simp) (if_pos (by simpa using ho))⟩
  · exact ⟨_, rfl, h.refuse hs (lenIs_of hl) (by simp) ((if_neg (by simp [ho, h2])).trans (if_pos (by simp [he])))⟩
  · obtain ⟨c1, c2⟩ := schedAdd_checks h1 h2 h3
    subst hv
    exact ⟨_, rfl, h.okay (or_of (ha.imp_right fun k => by simp [k.1, k.2])) (lenIs_of hl)
      ((if_neg c1).trans ((if_neg c2).trans (by rw [hf]))) fun _ => by simp⟩
  · obtain ⟨c1, c2⟩ := schedAdd_checks h1 h2 h3
    exact ⟨_, rfl, h.refuse (or_of (Or.inl hs)) (lenIs_of hl) (by simp) ((if_neg c1).trans ((if_neg c2).trans (by rw [hf])))⟩
  · refine ⟨_, rfl, h.okay ?_ (lenIs_of hl) ((if_neg (by omega)).trans (if_neg ho)) fun _ => by simp⟩
    rcases ha with ha | ha <;> simp [ha, h1]
  · exact ⟨_, rfl, h.okay (by simp [ho, h1]) (lenIs_of hl) ((if_neg (by omega)).trans (if_pos ho)) fun _ => by simp⟩
  · exact ⟨_, rfl, powerRequest_starts 0 _ h ha hl (by decide) (by simp) rfl⟩
  · exact ⟨_, rfl, powerRequest_starts 1 _ h ha hl (by decide) (by simp [hp]) rfl⟩
  · exact ⟨_, rfl, powerRequest_starts 2 _ h ha hl (by decide) (by simp [h1, h2, h3]) rfl⟩
  · exact ⟨_, rfl, powerRequest_starts 3 _ h ha hl (by decide) (by simp) rfl⟩
  · exact ⟨_, rfl, h.okayThen ha (lenIs_of hl) rfl⟩
  · exact ⟨_, rfl, h.okayThen ha (lenIs_of hl) (if_neg (by simp [hn]))⟩
  · exact ⟨_, rfl, h.okay ha (lenIs_of hl) (if_neg (by omega)) fun _ => by simp⟩
  · exact ⟨_, rfl, h.okay ha (lenIs_of hl) (by rw [if_pos hp]) fun _ => by simp⟩
  · exact ⟨_, rfl, h.okay ha (lenIs_of hl) (by rw [if_neg hp]) fun _ => by simp⟩
  · exact ⟨_, rfl, h.okay rfl (lenIs_of hl) rfl fun _ => by simp⟩

end Sys2Proof.TimeGroup

/-! The Azler commands of group 0x02xx (R148, R155, R239, R276, R278, R339, R469): regions. -/

namespace Sys2Proof.RegionGroup

open Sys2Proof.Machine State Sys2Proof.AzPackets

/-- The creation flag HOME_TWIN is clear in FLAGS below 16. -/
theorem testBit_four_small {n : Nat} (h : n < 16) : n.testBit 4 = false := Nat.testBit_lt_two_pow h

/-- The creation flag HOME_TWIN is set in FLAGS of 16 to 31. -/
theorem testBit_four_large {n : Nat} (h1 : 16 ≤ n) (h2 : n < 32) : n.testBit 4 = true := by
  rw [Nat.testBit_eq_decide_div_mod_eq, show n / 2 ^ 4 = 1 by omega]
  rfl

/-- Settles O20: command by command. -/
theorem regionCommands : Obligations.RegionCommands := by
  refine ⟨fun s w v r id h ha hl hq h1 h2 h3 h4 ht hr hp hc => ?_, fun s w v r id h ha hl hq h1 h2 h3 h3' h4 ht hr hp hd hc => ?_,
    fun s w r h ha hl hq h1 h2 h3 h4 ht hr hp hd => ?_, fun s w r h ha hl hq h1 h2 h3 h4 ht hr => ?_, fun s w r h ha hl hq hv => ?_,
    fun s w r h ha hl hq hv => ?_, fun s w v r h ha hl hq hv h1 hk h2 hr hp hg => ?_, fun s w r v h ha hl hq hi h0 h1 hk h2 hv => ?_,
    fun s w r h ha hl hv h0 h1 hk hm => ?_, fun s w u r v h ha hl hi h0 h1 hk hm hs hc hd hv hu hn => ?_, fun s w r v h ha hl hi h1 hv => ?_,
    fun s w r h ha hl hv hc => ?_, fun s w r h ha hl hv h1 h2 h3 => ?_, fun s w r h ha hl h0 hv h1 h2 h3 hb => ?_,
    fun s w r h ha hl h0 h1 h2 h3 hb => ?_, fun s w r h ha hl h1 hb => ?_, fun s w r h ha hl h1 hb => ?_,
    fun s w u r ns h ha hl hq hv h1 h2 hc hk ho hn hu => ?_, fun s w r l d h ha hl h1 hv hl' hd => ?_⟩
  · refine ⟨_, rfl, h.later ha (lenIs_of hl) hq ?_⟩
    dsimp only
    have hd : (w.paired && !w.side0) = false := by rcases hp with hp | hp <;> simp [hp]
    rw [if_neg (by omega), if_neg (by omega), testBit_four_small h3, if_neg (by simp), if_neg (by simp [ht]), if_neg (by simp [hr]),
      if_neg (by simp [hd]), Bool.not_false, hc]
    rfl
  · refine ⟨_, rfl, h.later ha (lenIs_of hl) hq ?_⟩
    dsimp only
    rw [if_neg (by omega), if_neg (by omega), testBit_four_large h3 h3', if_neg (by simp [hp]), if_neg (by simp [ht]), if_neg (by simp [hr]),
      if_neg (by simp [hd]), Bool.not_true, hc]
    rfl
  · refine ⟨_, rfl, h.later ha (lenIs_of hl) hq ?_⟩
    dsimp only
    rw [if_neg (by omega), if_neg (by omega), if_neg (by simp [hp]), if_neg (by simp [ht]), if_neg (by simp [hr]), if_pos (by simp [hp, hd])]
  · refine ⟨_, rfl, h.refuse ha (lenIs_of hl) (fun _ => hq) ?_⟩
    dsimp only
    rw [if_neg (by omega), if_neg (by omega), testBit_four_small h3, if_neg (by simp), if_neg (by simp [ht]), if_pos (by simp [hr])]
  · exact ⟨_, rfl, h.later ha (lenIs_of hl) hq (if_neg (by simp [hv]))⟩
  · exact ⟨_, rfl, h.bad ha (lenIs_of hl) (fun _ => hq) (if_pos (by simp [hv]))⟩
  · refine ⟨_, rfl, h.later ha (lenIs_of hl) hq ?_⟩
    dsimp only
    have hd : (w.paired && !w.side0) = false := by rcases hp with hp | hp <;> simp [hp]
    rw [if_neg (by simp [hv]), if_neg (by omega), if_neg (by simp [hk]), if_pos h2, if_neg (by simp [hr]), if_neg (by simp [hd]), hg]
  · subst hv
    refine ⟨_, rfl, h.later ha (lenIs_of hl) hq ?_⟩
    dsimp only
    rw [if_neg (by simp [hi]), if_neg (by omega), if_neg (by simp [hk]), if_neg (by omega)]
  · refine ⟨_, rfl, h.okay ha (lenIs_of hl) ?_ fun _ => by simp⟩
    dsimp only
    rw [if_neg (by simp [hv]), if_neg (by omega), if_neg (by simp [hk]), if_pos hm]
  · refine ⟨_, rfl, h.okay ha (lenIs_of hl) ?_ fun _ => by simp⟩
    have he : (u.settsOf (r.n 0) fun n => (u.sett n).mode != .none && (u.sett n).mode != Mode.ofCode (r.n 1)).isEmpty = false := by
      simpa using hn
    subst hu hv
    dsimp only
    rw [if_neg (by simp [hi]), if_neg (by omega), if_neg (by simp [hk]), if_neg hm, if_neg (by simp [hc, hd]), if_neg (by omega), if_neg (by rw [he]; decide)]
  · subst hv
    refine ⟨_, rfl, h.okay ha (lenIs_of hl) ?_ fun _ => by simp⟩
    dsimp only
    rw [if_neg (by simp [hi]), if_neg (by omega)]
  · refine ⟨_, rfl, h.okay ha (lenIs_of hl) ?_ fun _ => by simp⟩
    dsimp only
    rw [if_neg (by simp [hv]), hc]
  · refine ⟨_, rfl, h.okay ha (lenIs_of hl) ?_ fun _ => by simp⟩
    dsimp only
    rw [if_neg (by simp [hv]), if_neg (by omega), if_neg (by omega)]
    split <;> simp
  · refine ⟨_, rfl, h.okay ha (lenIs_of hl) ?_ fun _ => by simp⟩
    dsimp only [State.bindPlace]
    rw [if_neg (by simp [hv]), if_neg (by omega), if_neg (by omega), if_neg (by omega), if_neg (by omega), if_neg (by omega), if_neg (by simp [hb]),
      if_neg h0]
  · refine ⟨_, rfl, h.okay ha (lenIs_of hl) ?_ fun _ => by simp⟩
    dsimp only [State.bindPlace]
    rw [if_neg (by simp [h0]), if_neg (by omega), if_neg (by omega), if_neg (by omega), if_neg (by omega), if_neg (by omega), if_neg (by simp [hb]),
      if_pos h0]
  · exact ⟨_, rfl, h.okay ha (lenIs_of hl) ((if_neg (by omega)).trans (if_neg (by simpa [bindPlace] using hb))) fun _ => by simp⟩
  · exact ⟨_, rfl, h.refuse ha (lenIs_of hl) (by simp) ((if_neg (by omega)).trans (if_pos hb))⟩
  · subst hu hn
    refine ⟨_, rfl, h.later ha (lenIs_of hl) hq ?_⟩
    dsimp only
    rw [if_neg (by simp [hv]), if_neg (by omega), if_neg (by omega), if_neg hc, if_neg (by simp [hk, ho])]
  · subst hd hl'
    exact ⟨_, rfl, h.okay ha (lenIs_of hl) ((if_neg (by omega)).trans (if_neg (by simp [hv]))) fun _ => by simp⟩

end Sys2Proof.RegionGroup

/-! The Azler commands of groups 0x03xx and 0x04xx (R211, R220 to R222, R229, R230, R254, R255): objects, hints and the pair. -/

namespace Sys2Proof.PairGroup

open Sys2Proof.Machine State Sys2Proof.AzPackets

/-- Four words for each object. -/
theorem objectWords_length (os : List (Nat × Object)) (f g h k : Nat × Object → Word) :
    (os.flatMap fun o => [f o, g o, h o, k o]).length = 4 * os.length := by
  simp [List.length_flatMap]
  omega

/-- A witness command that names a region or all of them, from a channel with the WITNESS right, passes its checks. -/
theorem witness_checks {w : State} {r : AzReq} (hr : r.n 0 = 0xFFFF ∨ w.isRegion (r.n 0) = true) (hw : w.hasRight r.chan .witness = true) :
    ¬(r.n 0 ≠ 0xFFFF ∧ (!w.isRegion (r.n 0)) = true) ∧ ¬(!w.hasRight r.chan .witness) = true := by
  refine ⟨fun k => ?_, by simp [hw]⟩
  rcases hr with hr | hr
  · exact k.1 hr
  · rw [hr] at k
    exact absurd k.2 (by decide)

/-- Settles O21: command by command. -/
theorem objectAndPairCommands : Obligations.ObjectAndPairCommands := by
  refine ⟨fun s w r i h ha hl hv h1 h2 h3 h4 h5 h6 hf hi => ?_, fun s w r h ha hl ho => ?_, fun s w r h ha hl ho => ?_,
    fun s w r o h ha hl ho h1 h2 h3 hx => ?_, fun s w r o h ha hl ho h1 hx => ?_, fun s w r os h ha hl hv hx hg => ?_,
    fun s w r n h ha hl hp hx => ?_, fun s w r h ha hl hp => ?_, fun s w r h hl => ?_, fun s w r h ha hl hr hw hp hn => ?_,
    fun s w r h ha hl hr hw => ?_, fun s w u r qs h ha hl hr hw hp hq hn hu => ?_, fun s w r h ha hl hr hn hw hh => ?_,
    fun s w r h ha hl hr hn hw hh => ?_, fun s w r h ha hl hq hv hp h1 h2 h3 h4 h5 => ?_, fun s w r h ha hl hq hp hd => ?_,
    fun s w u r h ha hl hp hu hup => ?_, fun s w r h ha hl hp => ?_⟩
  · refine ⟨_, rfl, h.okay ha (lenIs_of hl) ?_ fun _ => by simp⟩
    dsimp only
    rw [if_neg (by simp [hv]), if_neg (by omega), if_neg (by omega), if_neg (by omega), if_neg (by omega), hf]
    exact if_neg (by omega)
  · exact ⟨_, rfl, h.okay ha (lenIs_of hl) (if_neg ho) fun _ => by simp⟩
  · exact ⟨_, rfl, h.bad ha (lenIs_of hl) (by simp) (if_pos ho)⟩
  · subst hx
    refine ⟨_, rfl, h.okay ha (lenIs_of hl) ?_ fun _ => by simp⟩
    dsimp only
    rw [if_neg ho, if_neg (by omega), if_neg (by omega)]
    rfl
  · subst hx
    exact ⟨_, rfl, h.okay ha (lenIs_of hl) ((if_neg ho).trans (if_neg (by omega))) fun _ => by simp⟩
  · subst hx
    refine ⟨_, rfl, h.okay ha (lenIs_of hl) (if_neg (by simp [hv])) fun k => ?_⟩
    have := hg k
    rw [List.length_cons, objectWords_length]
    omega
  · subst hx
    exact ⟨_, rfl, h.okay ha (lenIs_of hl) (if_neg (by simp [hp])) fun _ => by simp⟩
  · exact ⟨_, rfl, h.refuse ha (lenIs_of hl) (by simp) (if_pos hp)⟩
  · exact ⟨_, rfl, h.okay rfl (lenIs_of hl) rfl fun _ => by simp⟩
  · obtain ⟨c1, c2⟩ := witness_checks hr hw
    refine ⟨_, rfl, h.okay ha (lenIs_of hl) ?_ fun _ => by simp⟩
    dsimp only
    rw [if_neg c1, if_neg c2, if_neg (by simp [hp, hn])]
  · have c1 : ¬(r.n 0 ≠ 0xFFFF ∧ (!w.isRegion (r.n 0)) = true) := by rcases hr with hr | hr <;> simp [hr]
    exact ⟨_, rfl, h.refuse ha (lenIs_of hl) (by simp) ((if_neg c1).trans (if_pos (by simp [hw])))⟩
  · obtain ⟨c1, c2⟩ := witness_checks hr hw
    refine ⟨_, rfl, h.okay ha (lenIs_of hl) ?_ fun _ => by simp⟩
    dsimp only
    rw [if_neg c1, if_neg c2, ← hq, if_neg (by simp [hp, hn]), ← hu]
  · obtain ⟨c1, c2⟩ := witness_checks (Or.inr hr) hw
    refine ⟨_, rfl, h.okay ha (lenIs_of hl) ?_ fun _ => by simp⟩
    dsimp only
    rw [if_neg c1, if_neg c2, show w.witnessed (r.n 0) = [r.n 0] from if_neg hn, List.foldl_cons, List.foldl_nil, if_neg (by simp [hh])]
  · obtain ⟨c1, c2⟩ := witness_checks (Or.inr hr) hw
    refine ⟨_, rfl, h.okay ha (lenIs_of hl) ?_ fun _ => by simp⟩
    dsimp only
    rw [if_neg c1, if_neg c2, show w.witnessed (r.n 0) = [r.n 0] from if_neg hn, List.foldl_cons, List.foldl_nil,
      if_pos (Option.isSome_iff_ne_none.2 hh)]
  · exact ⟨_, rfl, h.laterThen ha (lenIs_of hl) hq ((if_neg (by simp [hv])).trans (if_neg (by simp [hp, h1, h2, h3, h4, h5])))⟩
  · exact ⟨_, rfl, h.laterThen ha (lenIs_of hl) hq (if_neg (by simp [hp, hd]))⟩
  · subst hu
    refine ⟨_, rfl, h.okay ha (lenIs_of hl) ?_ fun _ => by simp⟩
    dsimp only
    rw [if_neg (by simp [hp]), if_pos (by rw [hup]; rfl), hup]
    rfl
  · exact ⟨_, rfl, h.refuse ha (lenIs_of hl) (by simp) (if_pos hp)⟩

end Sys2Proof.PairGroup

/-! The Azler commands of groups 0x07xx and 0x08xx (R402, R413 to R416, R423, R424): firmware, the vault and the recorder, and Transfer FW and
Activate FW of the CXL mailbox. -/

namespace Sys2Proof.FirmwareGroup

open Sys2Proof.Machine State Sys2Proof.AzPackets

/-- A part of a transfer that comes in order and fits passes the checks that follow those of the slot. -/
theorem transfer_checks {w : State} {a : Fin 5} {off : Nat} {data : List Word} (ha : a = 2 ∨ a = 3) (hd : data ≠ []) (h1 : off % 128 = 0)
    (h2 : off + 4 * data.length ≤ 2 ^ 24) (hx : w.cxl.xfer = some off) :
    a ≠ 4 ∧ ¬((a = 0 ∨ a = 1) ∧ off ≠ 0 ∨ data.isEmpty = true ∨ 2 ^ 24 < off + 4 * data.length ∨ off % 128 ≠ 0) ∧
      ¬((!decide (a = 0 ∨ a = 1)) = true ∧ w.cxl.xfer.isNone = true) ∧ ¬((!decide (a = 0 ∨ a = 1)) = true ∧ w.cxl.xfer ≠ some off) := by
  have he : data.isEmpty = false := by simpa using hd
  refine ⟨by rcases ha with rfl | rfl <;> decide, ?_, by simp [hx], by simp [hx]⟩
  rw [he]
  rintro (k | k | k | k)
  · rcases ha with rfl | rfl <;> exact absurd k.1 (by decide)
  · exact absurd k (by decide)
  · omega
  · exact k h1

/-- Transfer FW on the FM-owned LD answers what the transfer does. -/
theorem transferFw_runs {s w u : State} {p : Fin 4} {l : Fin 16} {a : Fin 5} {off c : Nat} {data : List Word} {ok : Bool} {d : List Nat}
    (hm : s.psq.mainUp = true) (hl : s.ldThere p l = true) (hw : w = s.wakeIdle) (hf : w.fmOwned p l = true)
    (e : w.transferFw a off data ok = (u, c, d)) : exec (.transferFw p l a off data ok) s = .next (u.emit (.mailbox p l c d)) :=
  mailbox_answers (k := fun s => if s.fmOwned p l then s.transferFw a off data ok else (s, 3, [])) hm hl hw ((if_pos hf).trans e)

/-- Activate FW on the FM-owned LD answers what the activation does. -/
theorem activateFw_runs {s w u : State} {p : Fin 4} {l : Fin 16} {online : Bool} {slot : Fin 4} {c : Nat} {d : List Nat}
    (hm : s.psq.mainUp = true) (hl : s.ldThere p l = true) (hw : w = s.wakeIdle) (hf : w.fmOwned p l = true)
    (e : w.activateFw online slot = (u, c, d)) : exec (.activateFw p l online slot) s = .next (u.emit (.mailbox p l c d)) :=
  mailbox_answers (k := fun s => if s.fmOwned p l then s.activateFw online slot else (s, 3, [])) hm hl hw ((if_pos hf).trans e)

/-- Settles O22: command by command. -/
theorem firmwareAndLogCommands : Obligations.FirmwareAndLogCommands := by
  refine ⟨fun s w r h ha hl hq h1 h2 h3 h4 h5 ht hb hw => ?_, fun s w r h ha hl hq hw => ?_, fun s w r h ha hl hq hw => ?_,
    fun s w r h ha hl hq hw hb => ?_, fun s w r h ha hl hq hw hb => ?_, fun s w r h hl => ?_, fun s w u r lost bs h ha hl h1 h2 hu hbs => ?_,
    fun s w r start es h hl h1 hs he => ?_, fun s w u v r h ha hl hv hu => ?_, fun s w r h ha hl h1 h2 => ?_, fun s w r h hl => ?_,
    fun s w u p l off data ok hm hl hw hf hb hk hd h1 h2 hx hu => ?_, fun s w u p l off data ok hm hl hw hf hb hk hd h1 h2 hx hu => ?_,
    fun s w p l off data ok hm hl hw hf hx => ?_, fun s w p l a off data ok hm hl hw hf => ?_, fun s w p l slot hm hl hw hf hs hk hb => ?_,
    fun s w p l slot hm hl hw hf hs => ?_⟩
  · have hbar : w.chunkBarred = false := by simp [chunkBarred, ht, hb]
    refine ⟨_, rfl, h.later ha (lenIs_of hl) hq ?_⟩
    dsimp only
    rw [if_neg (by omega), if_neg (by omega), if_neg (by simp [hbar]), if_neg (by simp [hw])]
  · exact ⟨_, rfl, h.later ha (lenIs_of hl) hq (if_neg (by simp [hw]))⟩
  · exact ⟨_, rfl, h.refuse ha (lenIs_of hl) (fun _ => hq) (if_pos (Option.isSome_iff_ne_none.2 hw))⟩
  · exact ⟨_, rfl, h.later ha (lenIs_of hl) hq ((if_neg (by simp [hw])).trans (if_neg (by simp [hb])))⟩
  · exact ⟨_, rfl, h.refuse ha (lenIs_of hl) (fun _ => hq) ((if_neg (by simp [hw])).trans (if_pos hb))⟩
  · exact ⟨_, rfl, h.okay rfl (lenIs_of hl) rfl fun _ => by simp⟩
  · subst hbs hu
    exact ⟨_, rfl, h.okay ha (lenIs_of hl) ((if_neg (by omega)).trans (if_neg (by omega))) fun _ => by simp⟩
  · subst he hs
    exact ⟨_, rfl, h.okay rfl (lenIs_of hl) (if_neg (by omega)) fun _ => by simp⟩
  · subst hu hv
    exact ⟨_, rfl, h.okay ha (lenIs_of hl) rfl fun _ => by simp⟩
  · exact ⟨_, rfl, h.okay ha (lenIs_of hl) ((if_neg (by omega)).trans (if_neg (by omega))) fun _ => by simp⟩
  · exact ⟨_, rfl, h.okay rfl (lenIs_of hl) rfl fun _ => by simp⟩
  · obtain ⟨c1, c2, c3, c4⟩ := transfer_checks (a := 2) (Or.inl rfl) hd h1 h2 hx
    refine ⟨_, transferFw_runs hm hl hw hf ?_, rfl⟩
    unfold State.transferFw
    dsimp only
    rw [if_neg c1, if_neg (by simp [hb]), if_neg (by simp [hk]), if_neg c2, if_neg c3, if_neg c4, if_neg (by decide), ← hu]
  · obtain ⟨c1, c2, c3, c4⟩ := transfer_checks (a := 3) (Or.inr rfl) hd h1 h2 hx
    refine ⟨_, transferFw_runs hm hl hw hf ?_, _, rfl, rfl⟩
    unfold State.transferFw
    dsimp only
    rw [if_neg c1, if_neg (by simp [hb]), if_neg (by simp [hk]), if_neg c2, if_neg c3, if_neg c4, if_pos (by decide), ← hu]
  · refine ⟨_, transferFw_runs hm hl hw hf ?_, rfl⟩
    unfold State.transferFw
    dsimp only
    rw [if_pos rfl, if_pos (Option.isSome_iff_ne_none.2 hx)]
  · exact ⟨_, mailbox_answers (k := fun s => if s.fmOwned p l then s.transferFw a off data ok else (s, 3, [])) hm hl hw (if_neg (by simp [hf])), rfl⟩
  · exact ⟨_, activateFw_runs hm hl hw hf
      ((if_neg (by simp [hs])).trans ((if_neg (by decide)).trans ((if_neg (by simp [hk])).trans (if_neg (by simp [hb]))))), rfl⟩
  · exact ⟨_, activateFw_runs hm hl hw hf ((if_neg (by simp [hs])).trans (if_pos (by decide))), rfl⟩

end Sys2Proof.FirmwareGroup

/-! The Azler commands of groups 0x05xx and 0x06xx (R371 to R395) and the events beside them: region keys, the life cycle, the debug port and the
TRNG. -/

namespace Sys2Proof.KeyGroup

open Sys2Proof.Machine State Sys2Proof.AzPackets

/-- Judging the security levels changes neither the keys' state, nor the power state, nor the medium. -/
theorem judgeSec_rest (s : State) : s.judgeSec.sec = s.sec ∧ s.judgeSec.psq = s.psq ∧ s.judgeSec.med = s.med :=
  ⟨(judgeSec_keeps _).sec (by decide), (judgeSec_keeps _).psq (by decide), (judgeSec_keeps _).med (by decide)⟩

/-- A packet of one parameter in range is judged by what DEBUG_UNLOCK gives for it. -/
theorem debugUnlock_checks {r : AzReq} {n : Word} (hl : r.params.length = 1) (hn : n.toNat ≤ 1) :
    (r.withP0 n).params.length = 1 ∧ (r.withP0 n).n 0 = n.toNat ∧ ¬1 < (r.withP0 n).n 0 := by
  obtain ⟨e0, e1⟩ := withP0_params (n := n) hl
  exact ⟨e0, e1, by omega⟩

/-- Settles O23: command by command, then the events. -/
theorem keyAndLifeCycleCommands : Obligations.KeyAndLifeCycleCommands := by
  refine ⟨fun s w r h ha hl hv h1 h2 hs hk hh => ?_, fun s w r h ha hl hv h1 h2 hs hk ho hh => ?_, fun s w r h ha hl hv h1 h2 hs hk hh => ?_,
    fun s w r h ha hl hv hs hk => ?_, fun s w r h ha hl hq hv ht => ?_, fun s w r h ha hl hq hv ht => ?_, fun s w r k h ha hl hn hk => ?_,
    fun s w u r i h ha hl h1 h2 hi hu => ?_, fun s w r n h hl h1 h2 hn => ?_, fun s w r h hl => ?_,
    fun s w r gs h ha hl hq h1 hp ht hw hg => ?_, fun s w r h ha hl hq h1 hp ht hw hg => ?_, fun s w u r h ha hl ht hu => ?_,
    fun s w r h ha hl hc ho hf => ?_, fun s w r h ha hl hc => ?_, fun s => ⟨_, rfl, rfl⟩, fun s hm hr => ?_, fun s hm hr => ?_, fun s hm => ?_,
    fun s hm => ?_, fun s hm => ?_, fun s hm ht => ?_, fun s hm ht => ?_⟩
  · have hst : ¬((!(w.keySlot (r.n 0)).shareRequired) = true ∨ (w.keySlot (r.n 0)).state = .erasing ∨ (w.keySlot (r.n 0)).state = .empty) := by
      rcases hk with hk | ⟨hk, -⟩ <;> simp [hs, hk]
    refine ⟨_, rfl, h.okay ha (lenIs_of hl) ?_ fun _ => by simp⟩
    dsimp only
    rw [if_neg (by simp [hv]), if_neg (by omega), if_neg hst, if_neg (BitVec.not_lt.2 hh), if_pos (hk.imp_right And.right)]
  · refine ⟨_, rfl, h.refuse ha (lenIs_of hl) (by simp) ?_⟩
    dsimp only
    rw [if_neg (by simp [hv]), if_neg (by omega), if_neg (by simp [hs, hk]), if_neg (BitVec.not_lt.2 hh), if_neg (by simp [hk, ho])]
  · refine ⟨_, rfl, h.refuse ha (lenIs_of hl) (by simp) ?_⟩
    dsimp only
    rw [if_neg (by simp [hv]), if_neg (by omega), if_neg (by simp [hs, hk]), if_pos hh]
  · exact ⟨_, rfl, h.okay ha (lenIs_of hl) ((if_neg (by simp [hv])).trans ((if_neg (by simp [hs])).trans (if_neg (by simp [hk])))) fun _ => by simp⟩
  · exact ⟨_, rfl, h.later ha (lenIs_of hl) hq ((if_neg (by simp [hv])).trans (if_neg (by simp [ht])))⟩
  · exact ⟨_, rfl, h.refuse ha (lenIs_of hl) (fun _ => hq) ((if_neg (by simp [hv])).trans (if_pos ht))⟩
  · subst hk
    exact ⟨_, rfl, h.okay ha (lenIs_of hl) (if_neg (by simp [hn])) fun _ => by simp⟩
  · subst hu hi
    exact ⟨_, rfl, h.okay ha (lenIs_of hl) ((if_neg (by omega)).trans (if_neg (by omega))) fun _ => by simp⟩
  · subst hn
    refine ⟨_, rfl, h.okay rfl (lenIs_of hl) ?_ fun _ => by simp⟩
    dsimp only
    rw [if_neg (by omega), if_pos h1, if_neg (by omega)]
  · exact ⟨_, rfl, h.okay rfl (lenIs_of hl) rfl fun _ => by simp⟩
  · exact ⟨_, rfl, h.later ha (lenIs_of hl) hq ((if_neg (by omega)).trans ((if_neg (by simp [hp, ht, hw])).trans (by rw [hg])))⟩
  · exact ⟨_, rfl, h.refuse ha (lenIs_of hl) (fun _ => hq) ((if_neg (by omega)).trans ((if_neg (by simp [hp, ht, hw])).trans (by rw [hg])))⟩
  · obtain ⟨e0, e1, c1⟩ := debugUnlock_checks (n := 0) hl (by decide)
    subst hu
    exact ⟨_, rfl, h.okay ha (lenIs_of e0) ((if_neg c1).trans ((if_pos e1).trans (if_neg (by simp [ht])))) fun _ => by simp⟩
  · obtain ⟨e0, e1, c1⟩ := debugUnlock_checks (n := 1) hl (by decide)
    have hc1 : (w.sec.challenge && r.ok && (w.life == .fieldOpen || w.life == .returned)) = true := by
      rw [hc, ho]
      rcases hf with hf | hf <;> rw [hf] <;> rfl
    exact ⟨_, rfl, h.okay ha (lenIs_of e0) ((if_neg c1).trans ((if_neg (by rw [e1]; decide)).trans (if_pos hc1))) fun _ => by simp⟩
  · obtain ⟨e0, e1, c1⟩ := debugUnlock_checks (n := 1) hl (by decide)
    have hc1 : ¬(w.sec.challenge && r.ok && (w.life == .fieldOpen || w.life == .returned)) = true := by
      rcases hc with hc | hc | hc <;> simp [hc]
    exact ⟨_, rfl, h.refuse ha (lenIs_of e0) (by simp) ((if_neg c1).trans ((if_neg (by rw [e1]; decide)).trans (if_neg hc1)))⟩
  · have e : s.ropRaise = State.lifeWrite { s with sec := { s.sec with rop := 1 } } := if_pos hr
    refine ⟨_, congrArg Host.Outcome.next (if_pos hm), ?_, (ropRaise_keeps s).mono (by decide)⟩
    rw [e, (lifeWrite_keeps _).sec (by decide)]
  · exact ⟨_, congrArg Host.Outcome.next ((if_pos hm).trans (if_neg hr)), rfl⟩
  · exact ⟨_, congrArg Host.Outcome.next (if_pos hm), judgeSec_rest _⟩
  · exact ⟨_, congrArg Host.Outcome.next (if_pos hm), judgeSec_rest _⟩
  · exact ⟨_, congrArg Host.Outcome.next (if_pos hm), judgeSec_rest _⟩
  · exact ⟨_, congrArg Host.Outcome.next (if_pos (by simp [hm, ht])), rfl⟩
  · exact ⟨_, congrArg Host.Outcome.next (if_neg (by simp [ht])), rfl⟩

end Sys2Proof.KeyGroup

/-! The Azler commands of groups 0x0Axx and 0x0Cxx (R88, R111, R162, R166, R249, R264, R265, R330, R361): Bench view, requested scrubs, registers
and the medium. -/

namespace Sys2Proof.BenchGroup

open Sys2Proof.Machine State Sys2Proof.AzPackets

/-- The packet of CHANNEL_OFFLINE or CHANNEL_RETURN, whose P1 names no other bit than bit 0. -/
theorem withP1Bit_params {r : AzReq} (b : Bool) (hl : r.params.length = 2) (h1 : r.n 1 < 2) :
    (r.withP1Bit b).params.length = 2 ∧ (r.withP1Bit b).n 0 = r.n 0 ∧ (r.withP1Bit b).n 1 = b.toNat := by
  obtain ⟨x, y, e⟩ := List.length_eq_two.1 hl
  have hy : y &&& 0xFFFFFFFE#32 = 0 := by
    have h : y.toNat < 2 := by
      unfold AzReq.n AzReq.p at h1
      rw [e] at h1
      exact h1
    obtain h | h : y = 0#32 ∨ y = 1#32 := by
      rcases (show y.toNat = 0 ∨ y.toNat = 1 by omega) with k | k
      · exact Or.inl (BitVec.eq_of_toNat_eq k)
      · exact Or.inr (BitVec.eq_of_toNat_eq k)
    all_goals rw [h]; decide
  unfold AzReq.n AzReq.p AzReq.withP1Bit
  rw [e]
  refine ⟨rfl, rfl, ?_⟩
  show ((y &&& 0xFFFFFFFE#32) ||| BitVec.ofNat 32 b.toNat).toNat = b.toNat
  rw [hy]
  cases b <;> decide

/-- CHANNEL_RETURN gives what the return of the channel's group gives. -/
theorem channelReturn_body {w : State} {r : AzReq} (hl : r.params.length = 2) (h0 : r.n 0 ≤ 143) (h1 : r.n 1 < 2) :
    (if 143 < (r.withP1Bit false).n 0 then w.bad 0
      else if (r.withP1Bit false).n 1 / 2 ≠ 0 then w.bad 1
      else if (r.withP1Bit false).n 1 = 1 then (w.offlineChan ((r.withP1Bit false).n 0)).settleMed.okay
      else w.groupReturn ((r.withP1Bit false).n 0 / 16)) = w.groupReturn (r.n 0 / 16) := by
  obtain ⟨-, e1, e2⟩ := withP1Bit_params false hl h1
  rw [e1, e2, if_neg (by omega), if_neg (by decide), if_neg (by decide)]

/-- Whether a group has a channel that is not ACTIVE. -/
theorem groupActive_iff (s : State) (g : Nat) :
    ((List.range 16).all fun j => (s.qc (16 * g + j)).lstate == .active) = true ↔ ∀ j < 16, (s.qc (16 * g + j)).lstate = .active := by
  simp only [List.all_eq_true, List.mem_range, beq_iff_eq]

/-- A group with a channel that is not ACTIVE is no group of ACTIVE channels. -/
theorem not_groupActive {s : State} {g : Nat} (h : ∃ j < 16, (s.qc (16 * g + j)).lstate ≠ .active) :
    ¬((List.range 16).all fun j => (s.qc (16 * g + j)).lstate == .active) = true := by
  rw [groupActive_iff]
  obtain ⟨j, hj, hx⟩ := h
  exact fun k => hx (k j hj)

/-- Settles O24: command by command. -/
theorem benchAndMediumCommands : Obligations.BenchAndMediumCommands := by
  refine ⟨fun s w r h ha hl h1 => ?_, fun s w r h ha hl h1 => ?_, fun s w r h ha hl hr => ?_, fun s w u r h ha hl hr hu => ?_,
    fun s w r h ha hl hq h1 h2 h3 hs => ?_, fun s w r h ha hl hq h1 h2 h3 hs => ?_, fun s w u r x h ha hl h1 h2 hx => ?_,
    fun s w r h ha hl hx => ?_, fun s w r h ha hl h1 h2 hx => ?_, fun s w r h ha hl h1 hd => ?_, fun s w r h ha hl hq => ?_,
    fun s w r gs h ha hl h1 hg hr => ?_, fun s w r gs h ha hl h1 hg hn hr => ?_, fun s w r h ha hl hq h1 hd hs => ?_,
    fun s w r h ha hl hq h1 hd => ?_, fun s w r h hl => ?_, fun s w r h ha hl h0 h1 => ?_, fun s w r h ha hl h0 h1 hx => ?_,
    fun s w r k h ha hl h0 h1 hx hk he => ?_, fun s w r k h ha hl h0 h1 hx hk hk' he ht hg hr hp => ?_⟩
  · exact ⟨_, rfl, h.okay ha (lenIs_of hl) (if_neg (by omega)) fun _ => by simp⟩
  · exact ⟨_, rfl, h.bad ha (lenIs_of hl) (by simp) (if_pos h1)⟩
  · refine ⟨_, rfl, h.okay ha (lenIs_of hl) ?_ fun _ => by simp⟩
    dsimp only
    rw [hr, List.isEmpty_nil, if_pos rfl]
  · subst hu
    refine ⟨_, rfl, h.okay ha (lenIs_of hl) ?_ fun _ => by simp⟩
    dsimp only
    rw [if_neg (by simpa using hr)]
  · exact ⟨_, rfl, h.later ha (lenIs_of hl) hq ((if_neg (by simp [h1])).trans ((if_neg (by
      rintro (k | ⟨k, k'⟩)
      · exact k h2
      · exact h3.elim (fun z => z k) (fun z => z k'))).trans (if_neg (by simp [hs]))))⟩
  · exact ⟨_, rfl, h.refuse ha (lenIs_of hl) (fun _ => hq) ((if_neg (by simp [h1])).trans ((if_neg (by
      rintro (k | ⟨k, k'⟩)
      · exact k h2
      · exact h3.elim (fun z => z k) (fun z => z k'))).trans (if_pos (Option.isSome_iff_ne_none.2 hs))))⟩
  · exact ⟨_, rfl, h.okay ha (lenIs_of hl) ((if_neg (by omega)).trans (by rw [regCore, hx])) fun _ => by simp⟩
  · refine ⟨_, rfl, h.bad ha (lenIs_of hl) (by simp) (u := w) (i := 0) ?_⟩
    by_cases k : r.n 0 % 4 ≠ 0 ∨ 0x1000000 ≤ r.n 0
    · rw [if_pos k]
    · rw [if_neg k, regCore, (hx.resolve_left fun z => k (Or.inl z)).resolve_left fun z => k (Or.inr z)]
  · exact ⟨_, rfl, h.okay ha (lenIs_of hl) ((if_neg (by omega)).trans (if_neg (by rw [regCore, hx]; simp [h2]))) fun _ => by simp⟩
  · exact ⟨_, rfl, h.okay ha (lenIs_of hl) (if_neg (by simp [hd]; omega)) fun _ => by simp⟩
  · exact ⟨_, rfl, h.later ha (lenIs_of hl) hq rfl⟩
  · have hc : ¬(!gs.isEmpty && gs.all fun g => (w.pass g).running) = true := by
      rcases hr with hr | ⟨g, hm, hr⟩
      · rw [hr]
        exact Bool.false_ne_true
      · intro k
        have := List.all_eq_true.1 ((Bool.and_eq_true_iff).1 k).2 g hm
        rw [hr] at this
        exact absurd this (by decide)
    refine ⟨_, rfl, h.okay ha (lenIs_of hl) ?_ fun _ => by simp⟩
    dsimp only
    rw [← hg, if_neg (by omega), if_neg hc]
  · refine ⟨_, rfl, h.refuse ha (lenIs_of hl) (by simp) ?_⟩
    dsimp only
    rw [← hg, if_neg (by omega), if_pos]
    rw [List.all_eq_true.2 hr]
    simpa using hn
  · exact ⟨_, rfl, h.later ha (lenIs_of hl) hq ((if_neg (by omega)).trans ((if_neg (by simp [hd])).trans (if_neg (by simp [hs]))))⟩
  · exact ⟨_, rfl, h.refuse ha (lenIs_of hl) (fun _ => hq) ((if_neg (by omega)).trans (if_pos (by simp [hd])))⟩
  · exact ⟨_, rfl, h.okay rfl (lenIs_of hl) rfl fun _ => by simp⟩
  · obtain ⟨e0, e1, e2⟩ := withP1Bit_params true hl h1
    refine ⟨_, rfl, h.okay ha (lenIs_of e0) ?_ fun _ => by simp⟩
    exact (if_neg (by omega)).trans ((if_neg (by rw [e2]; decide)).trans ((if_pos (by rw [e2]; rfl)).trans (by rw [e1])))
  · refine ⟨_, rfl, h.okay ha (lenIs_of (withP1Bit_params false hl h1).1) ((channelReturn_body hl h0 h1).trans ?_) fun _ => by simp⟩
    exact if_pos ((groupActive_iff _ _).2 hx)
  · refine ⟨_, rfl, h.refuse ha (lenIs_of (withP1Bit_params false hl h1).1) (by simp) ((channelReturn_body hl h0 h1).trans ?_)⟩
    subst hk
    exact (if_neg (not_groupActive hx)).trans (if_pos (by simpa using he))
  · refine ⟨_, rfl, h.okay ha (lenIs_of (withP1Bit_params false hl h1).1) ((channelReturn_body hl h0 h1).trans ?_) fun _ => by simp⟩
    subst hk
    unfold State.groupReturn
    dsimp only
    rw [if_neg (not_groupActive hx), if_neg (by simp [he]; omega), if_neg (by simp [ht]), hg, if_neg Bool.false_ne_true, hr, hp]
    rfl

end Sys2Proof.BenchGroup

/-! The Azler commands of group 0x0Bxx (R295, R304 to R309): GIDs, protection domains, windows, completion queues and send queues. -/

namespace Sys2Proof.RdmaGroup

open Sys2Proof.Machine State Sys2Proof.AzPackets

/-- A protection domain that goes takes its windows along. -/
theorem pdDestroy_wins (s : State) (i : Nat) : ∀ x ∈ (s.pdDestroy i).rdma.wins, ∀ v, x.2 = some v → v.pd ≠ i := by
  intro x hx v hv
  have h := (List.mem_filter.1 hx).2
  rw [hv] at h
  simpa using h

/-- A protection domain that goes takes its completion queues along. -/
theorem pdDestroy_cqs (s : State) (i : Nat) : ∀ x ∈ (s.pdDestroy i).rdma.cqs, ∀ v, x.2 = some v → v.pd ≠ i := by
  intro x hx v hv
  have h := (List.mem_filter.1 hx).2
  rw [hv] at h
  simpa using h

/-- A window placed at key `i`, its TAG drawn. -/
def withWindow (s : State) (i : Nat) (v : MemWin) : State :=
  { s.draw with rdma := { s.draw.rdma with wins := Tab.put none s.draw.rdma.wins i (some v) } }

/-- Settles O25: command by command. -/
theorem rdmaObjectCommands : Obligations.RdmaObjectCommands := by
  refine ⟨fun s w r vlan h ha hl h0 h1 h6 hv => ?_, fun s w r i h hl ht hi => ?_, fun s w r h hl ht => ?_, fun s w r h ha hl hp => ?_,
    fun s w r p h ha hl hp ht => ?_, fun s w r i tag h ha hb hl hp hq h2 h5 h7 h7' hi ht => ?_, fun s w r h ha hb hl hp hq hr h2 h5 h7 => ?_,
    fun s w r h ha hl hw => ?_, fun s w r g off i h ha hl hp h4 h4' hr hi => ?_, fun s w r h ha hl hc => ?_,
    fun s w r n g off h ha hl hn hm h4 h4' hc hr he hf hw hs => ?_, fun s w r n k tail h ha hl hn hk h1 ht hle he => ?_, fun s w r n h ha hl hn => ?_⟩
  · subst hv
    exact ⟨_, rfl, h.okay ha (lenIs_of hl) ((if_neg (by omega)).trans ((if_neg (by omega)).trans (if_neg (by simp [h6])))) fun _ => by simp⟩
  · exact ⟨_, rfl, h.okay rfl (lenIs_of hl) ((if_neg (by simp [ht])).trans (by rw [hi])) fun _ => by simp⟩
  · exact ⟨_, rfl, h.refuse rfl (lenIs_of hl) (by simp) (if_pos ht)⟩
  · exact ⟨_, rfl, _, h.okay ha (lenIs_of hl) (if_neg (by simpa using hp)) fun _ => by simp, rfl, pdDestroy_wins w _, pdDestroy_cqs w _,
      pdDestroy_keeps w _⟩
  · refine ⟨_, rfl, h.okay ha (lenIs_of hl) ?_ fun _ => by simp⟩
    dsimp only
    rw [hp]
    exact if_neg (by simp [ht])
  · subst ht
    have hr : ¬(r.n 1 ≠ stagingRegion ∧ (!w.isRegion (r.n 1)) = true) := by
      rcases hq with hq | ⟨hq, -⟩ <;> simp [hq]
    have hs : ¬(r.p64 7 % 4096 ≠ 0 ∨ r.p64 7 < 4096 ∨ (r.n 1 ≠ stagingRegion ∧ (w.region (r.n 1)).size * 65536 < r.p64 5 + r.p64 7)) := by
      rcases hq with hq | ⟨-, hq⟩ <;> omega
    refine ⟨_, rfl, withWindow w i { tag := (Config.trng w.fresh).setWidth 14, pd := r.n 0, region := r.n 1, rights := (r.p 2).setWidth 5
                                     vaBase := r.p64 3, rofs := r.p64 5, len := r.p64 7 },
      h.okay (by rw [ha, hb]; rfl) (lenIs_of hl) ?_ fun _ => by simp, rfl, rfl⟩
    dsimp only
    rw [if_neg (by simpa using hp), if_neg hr, if_neg (by omega), if_neg (by omega), if_neg hs, hi]
    rfl
  · refine ⟨_, rfl, h.bad (by rw [ha, hb]; rfl) (lenIs_of hl) (by simp) (u := w) (i := 7) ?_⟩
    dsimp only
    rw [if_neg (by simpa using hp), if_neg (by simp [hr]), if_neg (by omega), if_neg (by omega), if_pos (Or.inr (Or.inr ⟨hq, h7⟩))]
  · exact ⟨_, rfl, h.okay ha (lenIs_of hl) (if_neg (by simpa using hw)) fun _ => by simp⟩
  · refine ⟨_, rfl, h.okay ha (lenIs_of hl) ?_ fun _ => by simp⟩
    dsimp only
    rw [if_neg (by simpa using hp), if_neg (by omega), hr, hi]
  · exact ⟨_, rfl, h.okay ha (lenIs_of hl) (if_neg (by simpa using hc)) fun _ => by simp⟩
  · refine ⟨_, rfl, h.okay ha (lenIs_of hl) ?_ fun _ => by simp⟩
    dsimp only
    rw [hn]
    dsimp only
    rw [if_neg (by simp [hm]), if_neg (by omega), if_neg (by simp [hc]), hr]
    exact if_neg (by simp [he, hf, hw, hs])
  · subst ht
    refine ⟨_, rfl, h.okay ha (lenIs_of hl) ?_ fun _ => by simp⟩
    dsimp only
    rw [hn]
    dsimp only
    rw [hk]
    exact (if_neg (by omega)).trans (if_neg (by simp [he]))
  · refine ⟨_, rfl, h.okay ha (lenIs_of hl) ?_ fun _ => by simp⟩
    rw [hn]

end Sys2Proof.RdmaGroup

/-! The channel page and the whole-packet transports (R341 to R348, R355 to R357): what a page's registers do, how a packet arrives, and how a PENDING
command ends. -/

namespace Sys2Proof.ChannelPages

open Sys2Proof.Machine State

/-- A page that holds nothing submits nothing. -/
theorem pageSubmit_nothing {s : State} {c : Fin 64} (ok : Bool) (hl : (s.chan c).legacy = false) (hb : (s.chan c).bell = false)
    (hh : (s.chan c).held = []) : s.pageSubmit c ok = s := by
  unfold State.pageSubmit
  dsimp only
  rw [hl, hb, hh, if_neg (by simp), catchUp_idle s c hh]

/-- What a page holds arrives once its doorbell, or L_GO on a legacy page, is set and nothing waits. -/
theorem pageSubmit_arrives {s : State} {c : Fin 64} (ok : Bool) (hh : (s.chan c).held = [])
    (hg : (if (s.chan c).legacy then (s.chan c).lgo && !(s.chan c).begun else (s.chan c).bell) = true) :
    s.pageSubmit c ok = s.arrive c { opcode := pageMark, req := { chan := c, ok := ok } } := by
  unfold State.pageSubmit
  dsimp only
  rw [hh, List.any_nil, Bool.not_false, Bool.true_and, if_pos hg]

/-- A packet of a native page is taken as the page's. -/
theorem runHeld_native {s : State} {c : Fin 64} (ok : Bool) (hl : (s.chan c).legacy = false) :
    s.runHeldPacket c { opcode := pageMark, req := { chan := c, ok := ok } } = s.takeNative c ok :=
  (if_pos rfl).trans (if_neg (by rw [hl]; decide))

/-- A packet of a legacy page is taken as the page's. -/
theorem runHeld_legacy {s : State} {c : Fin 64} (ok : Bool) (hl : (s.chan c).legacy = true) :
    s.runHeldPacket c { opcode := pageMark, req := { chan := c, ok := ok } } = s.takeLegacy c ok :=
  (if_pos rfl).trans (if_pos hl)

/-- Whether Mingaso can take a packet of a channel is not changed by the channel's queues other than the outbound one. -/
theorem canTake_setChan {s : State} {c : Nat} {v : Chan} (hw : v.waiting = (s.chan c).waiting) : (s.setChan c v).canTake c = s.canTake c := by
  unfold State.canTake
  rw [chan_setChan, hw]
  rfl

/-- Words that arrive with nothing waiting are taken, at a state in which no channel differs. -/
theorem arriveWords_ok (s : State) (c : Fin 64) (via : Transport) (ws : List Word) (ok : Bool) (hv : s.psq.vaon = true) (hh : (s.chan c).held = [])
    (hc : s.canTake c = true) : ∃ u : State, Keeps [.chans] s u ∧ (∀ d, u.chan d = s.chan d) ∧ s.arriveWords c via ws ok = u.takeWords c via ws ok := by
  obtain ⟨u, hk, hd, e⟩ := arrive_ok s c { opcode := wordsMark, req := { chan := c, via := via, params := ws, ok := ok } } hv hh hc
  exact ⟨u, hk, hd, e.trans ((if_neg (show ¬wordsMark = pageMark by decide)).trans (if_pos rfl))⟩

/-- A doorbell on a native page that holds words sets DOORBELL_PEND and submits them. -/
theorem mbxDoorbell_submits {s : State} {c : Fin 64} (ok : Bool) (hm : s.psq.mainUp = true) (hl : (s.chan c).legacy = false)
    (hb : (s.chan c).bell = false) (hq : (s.chan c).inQ ≠ []) (hh : (s.chan c).held = []) :
    exec (.mbxDoorbell c ok) s = .next ((s.setChan c { s.chan c with bell := true }).arrive c
      { opcode := pageMark, req := { chan := c, ok := ok } }) := by
  have hbell : s.mbxBell c = s.setChan c { s.chan c with bell := true } := by
    unfold State.mbxBell
    exact if_neg (by simp [hl, hb, hq])
  show Host.Outcome.next _ = _
  rw [if_pos hm, hbell, pageSubmit_arrives ok (by rw [chan_setChan]; exact hh) (by rw [chan_setChan]; dsimp only; rw [hl]; rfl)]

/-- A message of channel 0's MCTP endpoint arrives while the shelf manager holds the channel. -/
theorem mctp_arrives {s : State} (ws : List Word) (ok : Bool) (hv : s.psq.vaon = true) (hs : (s.chan 0).who = .shelf) :
    exec (.mctpMessage 0 ws ok) s = .next (s.arriveWords 0 .mctp ws ok) := by
  show execMctpMessage 0 ws ok s = _
  unfold execMctpMessage
  dsimp only
  rw [show (s.chan (Fin.ofNat 64 (0 : Fin 8).val)).who = .shelf from hs]
  exact congrArg Host.Outcome.next (if_pos (by rw [hv]; rfl))

/-- The words of a packet whose CRC is wrong are answered BAD_PARAM with the CRC's word. -/
theorem takeWords_badCrc {s : State} {c : Fin 64} {via : Transport} {ws : List Word} (ok : Bool) (hp : s.psq.pstate ≠ .idle)
    (h1 : bitsOf (ws.getD 0 0) 7 0 ≤ 60) (h2 : ws.length = 4 + bitsOf (ws.getD 0 0) 7 0)
    (h3 : (ws.getD 3 0).toNat ≠ (packetCrc (ws.getD 0 0) (ws.getD 1 0) (ws.getD 2 0) (ws.drop 4)).toNat) :
    s.takeWords c via ws ok =
      s.deliver c via (replyWords .badParam false (BitVec.ofNat 16 (bitsOf (ws.getD 1 0) 31 16)) ((ws.getD 1 0).setWidth 16) [3]) := by
  have hparse : parsePacket c via ws ok = .inl (.badParam, [3]) := by
    unfold parsePacket
    dsimp only
    exact (if_neg (by omega)).trans (if_pos h3)
  have hidle : s.wakeIdle = s := if_neg hp
  unfold State.takeWords
  rw [hparse]
  dsimp only
  rw [hidle]

/-- An I3C write leaves its offset, and with no read to follow a native page drops its words. -/
theorem i3cWrite_native {s : State} {off : BitVec 16} {ws : List Word} {ok : Bool} (rd : Nat) (hv : s.psq.vaon = true) (hl : (s.chan 0).legacy = false) :
    exec (.i3cPrivateWrite off ws ok rd) s = .next (if rd = 0 then s.setChan 0 { s.chan 0 with i3cOff := off }
      else (s.setChan 0 { s.chan 0 with i3cOff := off }).emit (.i3cData ((List.range rd).map fun i =>
        ((s.setChan 0 { s.chan 0 with i3cOff := off }).readOff (0x080000 + (off.toNat + 4 * i) % 4096)).getD 0))) := by
  show execI3cPrivateWrite off ws ok rd s = _
  unfold execI3cPrivateWrite
  rw [if_neg (by simp [hv])]
  dsimp only
  rw [hl, if_neg (by decide : ¬false = true)]

/-- A legacy register's write while L_GO is 1 sets COLLIDE. -/
theorem written_collide (h : Chan) : (if h.lgo then { h with collide := true } else h) = { h with collide := h.collide || h.lgo } := by
  by_cases hg : h.lgo = true
  · have e : (h.collide || h.lgo) = true := by rw [hg, Bool.or_true]
    rw [if_pos hg, e]
  · have e : (h.collide || h.lgo) = h.collide := by rw [eq_false_of_ne_true hg, Bool.or_false]
    rw [if_neg hg, e]

/-- Settles O26: register by register, transport by transport. -/
theorem channelTransports : Obligations.ChannelTransports := by
  refine ⟨fun s c w hm hl hb hq => ?_, fun s c w hm hl hb => ?_, fun s c w hm hl => ?_, fun s c ok hm hl hb hq hh => ?_,
    fun s c ok hm hv hl hb hq hh hc => ?_, fun s c ok hm hv hl hb hq hh hc => ?_, fun s c k hm hl hw hh => ?_, fun s c hm hl hb => ?_,
    fun s c hm hb => ?_, fun s c ok hm hv hl hg hh hc => ?_, fun s c w hm hv hl => ?_, fun s c off w hm hv hl => ?_, fun s ws ok hv hs hh hc => ?_,
    fun s ws ok hv hs hh hc hp h1 h2 h3 => ?_, fun s ws ok hv hs hc => ?_, fun s off ws ok hv hl => ?_, fun s off ws ok rd hv hl hr => ?_,
    fun s off w ok hv hl => ?_, fun s w p l ws ok hm hl hw hn => ?_, fun s w p l c ws ok hm hl hw hv hn hh hc => ?_,
    fun s c tag ok hm hf ho => ?_, fun s u c tag ok o st res hm hf ho he => ?_⟩
  · exact ⟨_, congrArg Host.Outcome.next ((if_pos hm).trans ((if_neg (by simp [hl])).trans (if_neg (by simp [hb]; omega)))), rfl⟩
  · exact ⟨_, congrArg Host.Outcome.next ((if_pos hm).trans ((if_neg (by simp [hl])).trans (if_pos (by simpa using hb)))), rfl⟩
  · exact ⟨_, congrArg Host.Outcome.next ((if_pos hm).trans (if_pos hl)), rfl⟩
  · have hbell : s.mbxBell c = s := if_pos (by simp [hq])
    exact ⟨_, congrArg Host.Outcome.next ((if_pos hm).trans (by rw [hbell, pageSubmit_nothing ok hl hb hh])), rfl⟩
  · obtain ⟨u, hk, hd, e⟩ := arrive_ok (s.setChan c { s.chan c with bell := true }) c { opcode := pageMark, req := { chan := c, ok := ok } } hv
      (by rw [chan_setChan]; exact hh) (by rw [canTake_setChan (by rfl)]; exact hc)
    have hc' : u.chan c = { s.chan c with bell := true } := by rw [hd, chan_setChan]
    refine ⟨_, mbxDoorbell_submits ok hm hl hb hq hh, u, hk.after (by decide) (setChan_keeps _ _ _), hc', fun d h => ?_, ?_⟩
    · rw [hd, chan_setChan_ne _ _ h]
    · rw [e, runHeld_native ok (by rw [hc']; exact hl)]
  · have e := arrive_held (s.setChan c { s.chan c with bell := true }) c { opcode := pageMark, req := { chan := c, ok := ok } } hv
      (by rw [canTake_setChan (by rfl)]; exact hc)
    refine ⟨_, (mbxDoorbell_submits ok hm hl hb hq hh).trans (congrArg Host.Outcome.next e),
      (setChan_keeps _ _ _).after (by decide) (setChan_keeps _ _ _), ?_, fun d h => ?_⟩
    · rw [chan_setChan, chan_setChan]
      dsimp only
      rw [hh]
      rfl
    · rw [chan_setChan_ne _ _ h, chan_setChan_ne _ _ h]
  · have hpop : s.mbxPop c k = s.setChan c { s.chan c with outQ := (s.chan c).outQ.drop k } := by
      unfold State.mbxPop
      dsimp only
      rw [if_neg (by simp [hl])]
      unfold State.outRefill
      dsimp only
      rw [chan_setChan]
      dsimp only
      rw [hw]
    refine ⟨_, congrArg Host.Outcome.next ((if_pos hm).trans (by rw [hpop, catchUp_idle _ _ (by rw [chan_setChan]; exact hh)])), rfl⟩
  · exact ⟨_, congrArg Host.Outcome.next ((if_pos hm).trans (if_neg (by simp [hl, hb]))), rfl⟩
  · exact ⟨_, congrArg Host.Outcome.next ((if_pos hm).trans (if_pos (by simp [hb]))), rfl⟩
  · have hr : s.pageReach c = true := by
      unfold State.pageReach
      rw [hm, hv, ite_self]
    have hg1 : s.legacyWrite c 0x43C .primary 1 = s.setChan c { s.chan c with lgo := true, begun := false, collide := false } := by
      unfold State.legacyWrite
      dsimp only
      rw [if_neg (by simp [hl]), if_neg (by decide), if_neg (by decide), hg, if_pos (by decide)]
      rfl
    obtain ⟨u, hk, hd, e⟩ := arrive_ok (s.setChan c { s.chan c with lgo := true, begun := false, collide := false }) c
      { opcode := pageMark, req := { chan := c, ok := ok } } hv (by rw [chan_setChan]; exact hh) (by rw [canTake_setChan (by rfl)]; exact hc)
    have hc' : u.chan c = { s.chan c with lgo := true, begun := false, collide := false } := by rw [hd, chan_setChan]
    refine ⟨_, congrArg Host.Outcome.next ((if_pos hr).trans (by rw [hg1])), u, hk.after (by decide) (setChan_keeps _ _ _), hc', fun d h => ?_, ?_⟩
    · rw [hd, chan_setChan_ne _ _ h]
    · rw [pageSubmit_arrives ok (by rw [chan_setChan]; exact hh) (by rw [chan_setChan]; dsimp only; rw [hl]; rfl), e,
        runHeld_legacy ok (by rw [hc']; exact hl)]
  · have hr : s.pageReach c = true := by
      unfold State.pageReach
      rw [hm, hv, ite_self]
    refine ⟨_, congrArg Host.Outcome.next ((if_pos hr).trans ?_), rfl⟩
    unfold State.legacyWrite
    dsimp only
    rw [if_neg (by simp [hl]), if_neg (by decide), if_pos (by decide)]
    rw [written_collide]
    rfl
  · have hw : s.legacyWrite c off .primary w = s := if_pos (by simp [hl])
    exact ⟨_, congrArg Host.Outcome.next (by rw [hw, ite_self]), rfl⟩
  · obtain ⟨u, hk, hd, e⟩ := arriveWords_ok s 0 .mctp ws ok hv hh hc
    exact ⟨_, mctp_arrives ws ok hv hs, u, hk, hd, e⟩
  · obtain ⟨u, hk, hd, e⟩ := arriveWords_ok s 0 .mctp ws ok hv hh hc
    exact ⟨_, mctp_arrives ws ok hv hs, u, hk, hd, e.trans (takeWords_badCrc ok (by rw [hk.psq (by decide)]; exact hp) h1 h2 h3)⟩
  · exact ⟨_, (mctp_arrives ws ok hv hs).trans (congrArg Host.Outcome.next (arrive_held s 0 _ hv hc)), rfl⟩
  · exact ⟨_, (i3cWrite_native 0 hv hl).trans (congrArg Host.Outcome.next (if_pos rfl)), rfl⟩
  · exact ⟨_, (i3cWrite_native rd hv hl).trans (congrArg Host.Outcome.next (if_neg hr)), _, rfl, rfl⟩
  · refine ⟨_, ?_, rfl⟩
    show execI3cPrivateWrite off [w] ok 0 s = _
    unfold execI3cPrivateWrite
    rw [if_neg (by simp [hv])]
    dsimp only
    rw [hl, if_pos rfl, if_pos rfl]
    rfl
  · exact ⟨_, mailbox_answers (k := fun s => match s.chanOfLd p l with
      | none => (s, 3, [])
      | some c => (s.arriveWords c .mailbox ws ok, 0, [])) hm hl hw (by rw [hn]), rfl⟩
  · obtain ⟨u, hk, hd, e⟩ := arriveWords_ok w c .mailbox ws ok hv hh hc
    exact ⟨_, mailbox_answers (k := fun s => match s.chanOfLd p l with
      | none => (s, 3, [])
      | some c => (s.arriveWords c .mailbox ws ok, 0, [])) hm hl hw (by
        rw [hn]
        dsimp only
        rw [e]), u, hk, hd, rfl⟩
  · refine ⟨_, congrArg Host.Outcome.next (if_pos (by rw [hm, hf]; rfl)), ?_⟩
    unfold State.pendingDone
    rw [ho]
  · refine ⟨_, congrArg Host.Outcome.next (if_pos (by rw [hm, hf]; rfl)), ?_⟩
    unfold State.pendingDone
    rw [ho]
    dsimp only
    rw [he]

end Sys2Proof.ChannelPages

/-! Bench 0 and the tiers (R102, R127, R145, R190, R204, R243 to R247, R253 to R265): partial lines, stream buffers, forwards, the replay, the hash
key, the loader, the checkpointer, the pool, windows and Bench view. -/

namespace Sys2Proof.BenchTiers

open Sys2Proof.Machine State Sys2Proof.Readings

/-! ### Partial lines and stream buffers -/

theorem bline_setBline (s : State) (x : Nat) (v : Option BLine) : (s.setBline x v).bline x = v := Tab.get_put_same _ _ _ _

/-- A line that is whole is no partial line any more. -/
theorem notePartial_whole {s : State} {x : Nat} {b : BLine} (hb : s.bline x = some b) (hp : State.isPartial b = false) :
    (s.notePartial x).bline x = some b ∧ (s.notePartial x).bench.partials = s.bench.partials.erase x := by
  unfold State.notePartial
  rw [hb]
  dsimp only
  rw [hp, if_neg (by simp)]
  by_cases hc : s.bench.partials.contains x = true
  · rw [if_pos (by simpa using hc)]
    exact ⟨hb, rfl⟩
  · rw [if_neg (by simpa using hc)]
    exact ⟨hb, (List.erase_of_not_mem (by simpa using hc)).symm⟩

/-- A partial line of a sett that reads as zero becomes whole. -/
theorem mergeLine_zero {s : State} {x : Nat} {b : BLine} (hb : s.bline x = some b) (hp : State.isPartial b = true) (ha : s.benchAwaited x = false)
    (hs : x ∉ s.sec.sealed) (hk : s.scbSlot x = none) (hm : (s.sett (lineSett x)).mode = .none) :
    s.mergeLine x = (s.setBline x (some { b with valid := BitVec.allOnes 256, data := overlay b.valid b.data 0 })).notePartial x := by
  unfold State.mergeLine
  rw [hb]
  dsimp only
  rw [if_neg (by simp [hp, ha, hs]), hk]
  dsimp only
  rw [if_pos (by simp [hm])]

/-- A sett without a stream buffer has none to program. -/
theorem scbProgram_none {s : State} {n : Nat} (h : (s.bench.scbs.find? fun b => b.lsett == n) = none) : s.scbProgram n = s := by
  unfold State.scbProgram
  rw [h]

/-- A stream buffer that stands open closes: its slots still filling go back, and its move goes on. -/
theorem scbClose_open {s : State} {n : Nat} {b : Scb} (h : ((s.scbProgram n).bench.scbs.find? fun b => b.lsett == n) = some b)
    (hc : b.closing = false) : s.scbClose n = ((b.slots.filter fun k => k.use == .filling).foldl (fun s k => s.scbReturn n k)
      ((s.scbProgram n).setScb n (some { b with closing := true }))).moveFeed n := by
  unfold State.scbClose
  rw [h]
  exact if_neg (by simp [hc])

/-! ### The checkpointer -/

/-- While the checkpointer does not run, a copy that read weak is rewritten, or else one that has aged. -/
theorem checkpointChunk_idle {s : State} (hw : s.xlt.map.write = none) (hr : s.xlt.jrnl.running = false) :
    s.checkpointChunk = match (s.setMap { s.xlt.map with ageing := s.mapAgeing }).mapStale with
      | some u => (s.setMap { s.xlt.map with ageing := s.mapAgeing }).writeCopy (u / 2) (u % 2 == 1) false
      | none => s.setMap { s.xlt.map with ageing := s.mapAgeing } := by
  unfold State.checkpointChunk
  dsimp only
  exact (if_neg (by simp [hw])).trans (if_neg (by simp [hr]))

/-- While it runs with records outstanding, the next chunk they need is written, or their frame freed. -/
theorem checkpointChunk_running {s : State} (hw : s.xlt.map.write = none) (hr : s.xlt.jrnl.running = true) (hj : s.xlt.jrnl.recs ≠ []) :
    s.checkpointChunk = match s.chunksTodo with
      | [] => s.freeFrame
      | c :: _ => s.writeCopy c false true := by
  unfold State.checkpointChunk
  dsimp only
  exact (if_neg (by simp [hw])).trans (if_pos (by simp [hr, hj]))

/-! ### The pool -/

/-- With a sett that waits and is ready, and a page free, its promotion starts. -/
theorem promoteNext_first {s : State} {n k : Nat} {w : Bool} {p : Phys} {rest : List (Nat × Bool)} (hq : s.xlt.promo = (n, w) :: rest)
    (h1 : (s.sett n).mig = .idle) (h2 : (s.sett n).promoted = false) (h3 : (s.sett n).mode ≠ .none) (h4 : s.chunkLoaded n = true)
    (h5 : (s.sett n).phys = some p) (h6 : s.dieUp p.die = true) (hk : s.freePage = some k) :
    s.promoteNext = (List.range 256).foldl (fun s l => s.promoteLine n l)
      (((s.setXlt { s.xlt with promo := rest, poolLru := s.xlt.poolLru.erase n ++ [n] }).setPage n (some { page := k })).setSett n
        { s.sett n with mig := .promoting }) := by
  unfold State.promoteNext
  dsimp only
  rw [hq, List.find?_cons_of_pos (by simp [h1, h2, h3, h4, h5, h6])]
  dsimp only
  rw [hk, List.erase_cons_head]
  rfl

/-- The end of a demotion frees the page and leaves the sett on the medium. -/
theorem endPromotion_demoted {s : State} {n : Nat} (h : (s.sett n).mig = .demoting) :
    (s.endPromotion n).page n = none ∧ (s.endPromotion n).sett n = { s.sett n with promoted := false, mig := .idle } := by
  unfold State.endPromotion
  dsimp only
  rw [h, if_pos (by simp), if_pos (by simp)]
  refine ⟨?_, ?_⟩
  · show Tab.get none (Tab.put none s.xlt.pages n none) n = none
    exact Tab.get_put_same _ _ _ _
  · show Tab.get {} (Tab.put {} s.med.setts n _) n = _
    exact Tab.get_put_same _ _ _ _

/-! ### Bench view -/

/-- With nothing held there is nothing to try again. -/
theorem rawRetry_nothing {s : State} (h : s.xlt.rawHeld = []) : s.rawRetry = s := by
  unfold State.rawRetry
  dsimp only
  rw [h, List.foldl_nil, ← h]
  rfl

/-- A chunk that Bench view writes at a die that is up is gathered. -/
theorem benchWrite_medium {s : State} {a : Nat} (d : Chunk) (h1 : a < 0x1000000000000) (h2 : s.dieUp (physOf (a / 64 * 64 / 65536)).die = true) :
    (s.benchWrite (0x1000000000000 + a / 64 * 64) d).1 = (s.rawGather (a / 64 * 64) d).rawRetry := by
  have hle : a / 64 * 64 ≤ a := Nat.div_mul_le_self a 64
  unfold State.benchWrite
  dsimp only
  rw [if_neg (by omega), if_pos (by omega), Nat.add_sub_cancel_left, if_pos h2]

/-- Settles O28: event by event. -/
theorem benchAndTiers : Obligations.BenchAndTiers := by
  refine ⟨fun s x b hw hb hp ha hs hk hm => ?_, fun s x hw hb => ?_, fun s n hw hn => ?_, fun s n b hw hn hc hk => ?_, fun s n b k hw hn hc hk => ?_,
    fun s hw hf => ?_, fun s f e hw hf hg he => ?_, fun s hm hd hr hp hs => ?_, fun s h => ?_, fun s req hi hm hh => ?_,
    fun s req hi h hm hd hh => ?_, fun s hw hx => ?_, fun s hw hx hr hj ht => ?_, fun s c rest hw hx hr hj ht => ?_,
    fun s hw hx hr hk ha => ?_, fun s u us hw hx hr hk => ?_, fun s c hm hc hp => ?_, fun s c h => ?_, fun s d hw hl hb hd hf => ?_,
    fun s c hw hl hb hd ht hp => ?_, fun s hw hp hr => ?_, fun s hw hb hp => ?_, fun s n k w p rest hw hb hq h1 h2 h3 h4 h5 h6 hk => ?_,
    fun s n hw hm => ?_, fun s st o hm => ?_, fun s a d ho => ?_, fun s a d hm ho h1 h2 => ?_, fun s a hm ha hh => ?_⟩
  · have hu : (s.setBline x (some { b with valid := BitVec.allOnes 256, data := overlay b.valid b.data 0 })).bline x =
        some { b with valid := BitVec.allOnes 256, data := overlay b.valid b.data 0 } := bline_setBline _ _ _
    obtain ⟨h1, h2⟩ := notePartial_whole hu (by simp [State.isPartial])
    rw [← mergeLine_zero hb hp ha hs hk hm] at h1 h2
    exact ⟨_, congrArg Host.Outcome.next (if_pos hw), _, rfl, h1, h2, rfl⟩
  · have e : s.mergeLine x = s := by
      unfold State.mergeLine
      rw [hb]
    exact ⟨_, congrArg Host.Outcome.next ((if_pos hw).trans (by rw [e])), rfl⟩
  · have e : s.scbClose n = s := by
      unfold State.scbClose
      rw [scbProgram_none hn, hn]
    exact ⟨_, congrArg Host.Outcome.next ((if_pos hw).trans (by rw [e])), rfl⟩
  · have e : (b.slots.filter fun k => k.use == .filling) = [] := List.filter_eq_nil_iff.2 fun k hm => by simpa using hk k hm
    exact ⟨_, congrArg Host.Outcome.next ((if_pos hw).trans (by rw [scbClose_open hn hc, e, List.foldl_nil])), rfl⟩
  · exact ⟨_, congrArg Host.Outcome.next ((if_pos hw).trans (by rw [scbClose_open hn hc, hk, List.foldl_cons, List.foldl_nil])), rfl⟩
  · have e : s.sealForward = s := by
      unfold State.sealForward
      dsimp only
      rw [hf, List.filterMap_nil, List.isEmpty_nil, if_pos rfl, ← hf]
      rfl
    exact ⟨_, congrArg Host.Outcome.next ((if_pos hw).trans e), rfl⟩
  · subst he
    refine ⟨_, congrArg Host.Outcome.next ((if_pos hw).trans ?_), rfl⟩
    unfold State.sealForward
    dsimp only
    rw [hf, List.filterMap_cons, hg]
    exact if_neg Bool.false_ne_true
  · exact ⟨_, congrArg Host.Outcome.next (if_pos (by rw [hm, hd, hr, hp, List.all_eq_true.2 hs]; rfl)), rfl⟩
  · refine ⟨_, congrArg Host.Outcome.next (if_neg ?_), rfl⟩
    rcases h with h | h | ⟨d, hd, h⟩
    · simp [h]
    · simp [h]
    · have e : (s.newerDesc.dies.all fun d => s.dieSettled d) = false := List.all_eq_false.2 ⟨d, hd, by simp [h]⟩
      simp [e]
  · refine ⟨_, congrArg Host.Outcome.next (if_pos hm), ?_⟩
    unfold State.hashKeyWrite
    dsimp only
    rw [hh]
    exact ⟨bit_cause_same _ _ _ (by decide) _ _ (by decide), cause_bench _ _ _ _ _⟩
  · refine ⟨_, congrArg Host.Outcome.next (if_pos hm), ?_⟩
    unfold State.hashKeyWrite
    dsimp only
    rw [hh]
    dsimp only
    rw [if_pos hd]
    rfl
  · have e : s.checkpointChunk = s := if_pos hx
    exact ⟨_, congrArg Host.Outcome.next ((if_pos hw).trans (by rw [e])), rfl⟩
  · exact ⟨_, congrArg Host.Outcome.next ((if_pos hw).trans (by rw [checkpointChunk_running hx hr hj, ht])), rfl⟩
  · exact ⟨_, congrArg Host.Outcome.next ((if_pos hw).trans (by rw [checkpointChunk_running hx hr hj, ht])), rfl⟩
  · have e : (s.setMap { s.xlt.map with ageing := [] }).mapStale = none := by
      unfold State.mapStale
      rw [show (s.setMap { s.xlt.map with ageing := [] }).xlt.map.weak = [] from hk]
      rfl
    exact ⟨_, congrArg Host.Outcome.next ((if_pos hw).trans (by rw [checkpointChunk_idle hx hr, ha, e])), rfl⟩
  · have e : (s.setMap { s.xlt.map with ageing := s.mapAgeing }).mapStale = some u := by
      unfold State.mapStale
      rw [show (s.setMap { s.xlt.map with ageing := s.mapAgeing }).xlt.map.weak = u :: us from hk]
      rfl
    exact ⟨_, congrArg Host.Outcome.next ((if_pos hw).trans (by rw [checkpointChunk_idle hx hr, e])), rfl⟩
  · exact ⟨_, congrArg Host.Outcome.next (if_pos (by simp [hm, hc, hp])), rfl⟩
  · exact ⟨_, congrArg Host.Outcome.next (if_neg (by rcases h with h | h <;> simp [h])), rfl⟩
  · have e : s.loadNext = s.setXlt { s.xlt with freeLoaded := s.xlt.freeLoaded ++ [d] } := by
      unfold State.loadNext
      rw [hd]
      dsimp only
      rw [hf]
    exact ⟨_, congrArg Host.Outcome.next ((if_pos (by rw [hw, hl, hb]; rfl)).trans (by rw [e])), rfl⟩
  · have e : s.loadNext = s.loadPair c := by
      unfold State.loadNext
      rw [hd]
      dsimp only
      rw [ht]
      exact if_neg (by simp [hp])
    exact ⟨_, congrArg Host.Outcome.next ((if_pos (by rw [hw, hl, hb]; rfl)).trans (by rw [e])), rfl⟩
  · refine ⟨_, congrArg Host.Outcome.next (if_pos hw), ?_⟩
    have hf : (s.med.setts.filter fun p => p.2.mode != .none && !p.2.promoted &&
        (s.setXlt { s.xlt with promo := s.xlt.promo.filter fun p => p.2 || s.rankOf p.1 == 3 }).rankOf p.1 == 3) = [] :=
      List.filter_eq_nil_iff.2 fun p hm => by
        have : (s.setXlt { s.xlt with promo := s.xlt.promo.filter fun p => p.2 || s.rankOf p.1 == 3 }).rankOf p.1 ≠ 3 := hr p hm
        simp [this]
    unfold State.hintScan
    dsimp only
    rw [show (s.setXlt { s.xlt with promo := s.xlt.promo.filter fun p => p.2 || s.rankOf p.1 == 3 }).xlt.pages = [] from hp, List.map_nil,
      List.foldl_nil]
    exact congrArg (fun l => List.foldl (fun (s : State) (p : Nat × Sett) => s.wantPromote p.1 false) _ l) hf
  · have e : s.promoteNext = s := by
      unfold State.promoteNext
      rw [hp]
      rfl
    exact ⟨_, congrArg Host.Outcome.next ((if_pos (by simp [hw, hb])).trans (by rw [e])), rfl⟩
  · exact ⟨_, congrArg Host.Outcome.next (if_pos (by simp [hw, hb])), _, rfl, by rw [promoteNext_first hq h1 h2 h3 h4 h5 h6 hk]⟩
  · obtain ⟨h1, h2⟩ := endPromotion_demoted hm
    exact ⟨_, congrArg Host.Outcome.next (if_pos (by simp [hw, hm])), _, rfl, h1, h2, rfl⟩
  · refine ⟨_, congrArg Host.Outcome.next (if_pos hm), closeWindows_keeps _ _, fun w hw => ?_, fun w hw hn => List.mem_filter.2 ⟨hw, ?_⟩⟩
    · simpa [imp_iff_not_or] using (List.mem_filter.1 hw).2
    · simpa [imp_iff_not_or] using hn
  · exact ⟨_, congrArg Host.Outcome.next (if_neg (by simp [ho])), rfl⟩
  · exact ⟨_, congrArg Host.Outcome.next ((if_pos (by simp [hm, ho])).trans (benchWrite_medium d h1 h2)), rfl⟩
  · obtain ⟨l, hl, hla⟩ := ha
    have hx : ((s.setXlt { s.xlt with raw := s.xlt.raw.filter fun l => l.addr != a }).cause Reg.XLT_CAUSE 0 6 310).xlt =
        { s.xlt with raw := s.xlt.raw.filter fun l => l.addr != a } := (cause_keeps _ _ _ _ _).xlt (by decide)
    have hany : s.xlt.raw.any (fun l => l.addr == a) = true := List.any_eq_true.2 ⟨l, hl, by simp [hla]⟩
    refine ⟨_, congrArg Host.Outcome.next ((if_pos (by rw [hm, hany]; rfl)).trans (rawRetry_nothing (by rw [hx]; exact hh))), ?_, hx⟩
    exact bit_cause_same _ _ _ (by decide) _ _ (by decide)

end Sys2Proof.BenchTiers

/-! Tandem control frames (R210 to R232, R469): pairing, SYNC, the hand-over of home roles, the comparison of regions, and allocation. -/

namespace Sys2Proof.TandemFrames

open Sys2Proof.Machine State

/-! ### Pairing -/

/-- A pairing frame of no session, on a port that is up, is acted on while the pair attests. -/
theorem tandemPair_runs {s : State} {p : Bool} {f : TFrame} (m : PairMove) (hm : s.psq.mainUp = true) (hp : s.twin.pair = .attesting)
    (hn : s.twin.session = 0) (hu : (s.tport p).st = .up) (hs : f.shapeOk = true) (h0 : f.session = 0) :
    exec (.tandemPair p f m) s = match m with
    | .step n => .next (s.tsend p (.pair (n + 1)))
    | .failed => .next (pairRefuse s 8)
    | .done session identity uid compat life debug =>
      if s.sec.trngFail then .next s
      else if s.twin.binding ≠ some identity || !lifeMatches s.life.code life || (s.life == .fieldLocked && debug) || session = 0 then .next (pairRefuse s 8)
      else if compat ≠ s.flash.runCompat then .next (pairRefuse s 7)
      else .next (startSession (s.setTwin { s.twin with peerUid := uid, peerCompat := compat }) session) := by
  show execTandemPair p f m s = _
  unfold execTandemPair
  exact (if_neg (by simp [hm, hp, hn, hu])).trans (if_neg (by simp [hs, h0]))

/-- A twin that proves the bound identity, in a life-cycle state that matches, under a session, passes attestation. -/
theorem attested {s : State} {session : Word} {identity : Nat} {life : Fin 6} {debug : Bool} (hi : s.twin.binding = some identity)
    (hs : session ≠ 0) (hl : lifeMatches s.life.code life = true) (hd : s.life = .fieldLocked → debug = false) :
    ¬((s.twin.binding ≠ some identity || !lifeMatches s.life.code life || (s.life == .fieldLocked && debug) || session = 0) : Bool) = true := by
  have hf : (s.life == .fieldLocked && debug) = false := by
    by_cases h : s.life = .fieldLocked
    · rw [hd h, Bool.and_false]
    · simp [h]
  have hz : session ≠ 0#32 := hs
  simp [hi, hz, hl, hf]

/-- One that does not is refused. -/
theorem not_attested {s : State} {session : Word} {identity : Nat} {life : Fin 6} {debug : Bool}
    (h : s.twin.binding ≠ some identity ∨ lifeMatches s.life.code life = false ∨ (s.life = .fieldLocked ∧ debug = true) ∨ session = 0) :
    ((s.twin.binding ≠ some identity || !lifeMatches s.life.code life || (s.life == .fieldLocked && debug) || session = 0) : Bool) = true := by
  rcases h with h | h | ⟨h1, h2⟩ | h
  · simp [h]
  · simp [h]
  · simp [h1, h2]
  · simp [h]

/-! ### What acceptance leaves -/

theorem framed_waitAlloc (s : State) (p : Bool) (f : TFrame) : (s.framed p f).twin.waitAlloc = s.twin.waitAlloc := by rw [framed_twin]

theorem framed_paired (s : State) (p : Bool) (f : TFrame) (hp : s.twin.pair = .paired) : (s.framed p f).paired = true := by
  unfold State.paired
  rw [framed_pair, hp]
  rfl

theorem framed_notPaired (s : State) (p : Bool) (f : TFrame) (hp : s.twin.pair = .attesting) : (s.framed p f).paired = false := by
  unfold State.paired
  rw [framed_pair, hp]
  rfl

/-- An allocation frame of the session is acted on while the pair is PAIRED. -/
theorem allocate_runs {s : State} {p : Bool} {f : TFrame} (m : AllocMsg) (h : s.Accepts p f) (hp : s.twin.pair = .paired) :
    exec (.allocate p f m) s = match m with
      | .ask grow size mode flags =>
        .next (if (s.framed p f).side0 then ((s.framed p f).allocAsk grow size mode flags).settleTwin else s.framed p f)
      | .answer status region => .next ((s.framed p f).allocAnswer status region).settleTwin := by
  show execAllocate p f m s = _
  unfold execAllocate
  rw [h.accept]
  exact if_neg (by rw [framed_paired s p f hp]; decide)

/-! ### The frames of SYNC and of the regions -/

/-- A SYNC frame while the other controller sends the time and this one takes it. -/
theorem sync_receives {s : State} {p : Bool} {f : TFrame} (x : SyncTimes) {trust : Trust} (h : s.Accepts p f) {v w y : State}
    (hv : v = (s.framed p f).setTwin { (s.framed p f).twin with
      rtt := BitVec.ofNat 16 (min 0xFFFF x.trip.toNat), peerSource := .ptp, peerTrust := trust })
    (hs : sendsTime v = false) (hq : s.tally.twinHoldoff = false) (hw : w = v.setTwin { v.twin with timeSender := false })
    (hy : y = (w.setTally { w.tally with twinQualified := true }).selectSource) (ht : y.tally.source = .twin) :
    exec (.tandemSync p f x .ptp trust) s = .next ((y.offerTime .twin trust (x.time y.tally.now)).ageFollow (s.framed p f)) := by
  refine (h.anyFrame _).trans (congrArg Host.Outcome.next ?_)
  have hh : w.tally.twinHoldoff = false := by
    rw [hw, hv]
    show (s.framed p f).tally.twinHoldoff = false
    rw [framed_tally, hq]
  dsimp only
  rw [← hv, hs, ← hw, if_neg Bool.false_ne_true, if_neg (by simp [State.isHoldover]), if_neg (by rw [hh]; decide), ← hy, if_pos (by rw [ht]; rfl)]

/-- A region's state as the twin reports it is kept, with what its extents take. -/
def withCompare (u : State) (region : Nat) (c : RegionCompare) : State :=
  (u.setRt region { u.rt region with compared := some c, twinUnfit := (u.region region).extents.any fun e => decide (c.extents ≤ e) }).setXlt
    { u.xlt with peerExtents := c.extents }

/-- The plan that answers it (R224): this controller's part in the resync, and the setts it is to copy. -/
def answerPlan (w : State) (region : Nat) (role : Option (Bool × Bool)) (marks : Nat) : State :=
  let todo := match role with
    | some (true, true) => (w.settsOf region fun n => w.allocated n).length
    | some (true, false) => marks
    | _ => marks
  w.tsend false (.control (.resyncPlan region (role.any fun x => x.1) (role.any fun x => !x.1) todo))

theorem regionState_runs {s : State} {p : Bool} {f : TFrame} (region : Fin 4096) (c : RegionCompare) (h : s.Accepts p f) :
    exec (.regionState p f region c) s = .next (answerPlan (withCompare (s.framed p f) region c) region
      (State.roleOf ((withCompare (s.framed p f) region c).regionCompare region) c) (s.rt region).marks.length) := by
  refine (h.anyFrame _).trans ?_
  rw [← framed_rt s p f]
  rfl

/-- Settles O30: frame by frame. -/
theorem tandemControl : Obligations.TandemControl := by
  refine ⟨fun s p f hm hp hn hu hs h0 => ⟨fun n => ?_, ?_, fun session identity uid compat life debug ht hb => ?_,
      fun session identity uid compat life debug ht hb hne hl hd hc => ?_, fun session identity uid life debug ht hb hne hl hd => ?_⟩,
    fun s p f m hp => ?_, fun s u v p f x src trust h hu hv => ⟨fun hs hq => ?_, fun hs hq => ?_, fun hs hh ht => ?_,
      fun w y hs hsrc hq hw hy ht => ?_⟩,
    fun s u p f n h hp hu => ?_, fun s u p f h hp hu => ?_, fun s u p f region term ros h hp hu => ?_,
    fun s u p f region term h hp hu => ⟨fun hh => ?_, fun hh => ?_, fun c tag hh => ?_⟩, fun s u p f region c h hu => ?_,
    fun s u v p f region count marks h hu => ⟨fun hp => ?_, fun hp hr hv => ⟨fun ha => ?_, fun ha => ?_⟩⟩,
    fun s u p f region h hp hu => ⟨fun hs => ?_, fun hs => ?_⟩, fun s u p f port phase h hu => ?_,
    fun s u p f n h hp hu => ⟨fun hl => ?_, fun hl => ?_⟩,
    fun s u p f region ros ver a h hu => ⟨fun hp => ?_, fun hp hr => ?_, fun hp hr hv hk => ?_⟩,
    fun s u p f h hp hu => ⟨fun grow size mode flags hs => ?_, fun grow size mode flags hs => ?_, fun st region hw => ?_,
      fun st region rest hw => ?_⟩⟩
  · exact ⟨_, tandemPair_runs _ hm hp hn hu hs h0, rfl⟩
  · exact ⟨_, tandemPair_runs _ hm hp hn hu hs h0, rfl⟩
  · exact ⟨_, (tandemPair_runs _ hm hp hn hu hs h0).trans ((if_neg (by simp [ht])).trans (if_pos (not_attested hb))), rfl⟩
  · exact ⟨_, (tandemPair_runs _ hm hp hn hu hs h0).trans ((if_neg (by simp [ht])).trans ((if_neg (attested hb hne hl hd)).trans (if_pos hc))), rfl⟩
  · exact ⟨_, (tandemPair_runs _ hm hp hn hu hs h0).trans ((if_neg (by simp [ht])).trans ((if_neg (attested hb hne hl hd)).trans
      (if_neg (by simp)))), rfl⟩
  · exact ⟨_, if_pos (by simp [hp]), rfl⟩
  · subst hu
    refine ⟨_, (h.anyFrame _).trans (congrArg Host.Outcome.next ?_), rfl⟩
    dsimp only
    rw [← hv, hs, if_pos rfl, if_neg]
    rw [hv]
    show ¬(s.framed p f).tally.twinQualified = true
    rw [framed_tally, hq]
    decide
  · subst hu
    refine ⟨_, (h.anyFrame _).trans (congrArg Host.Outcome.next ?_), _, rfl, rfl⟩
    dsimp only
    rw [← hv, hs, if_pos rfl, if_pos]
    rw [hv]
    show (s.framed p f).tally.twinQualified = true
    rw [framed_tally, hq]
  · subst hu
    refine ⟨_, (h.anyFrame _).trans (congrArg Host.Outcome.next ?_), rfl⟩
    dsimp only
    rw [← hv, hs, if_neg Bool.false_ne_true, if_pos (by rw [hh, ht]; simp)]
  · subst hsrc hu
    exact ⟨_, sync_receives x h hv hs hq hw hy ht, rfl⟩
  · subst hu
    exact ⟨_, h.frame hp _, _, _, rfl, rfl, rfl⟩
  · subst hu
    exact ⟨_, h.frame hp _, _, _, rfl, rfl, rfl⟩
  · subst hu
    exact ⟨_, h.frame hp _, _, rfl, rfl⟩
  · subst hu
    refine ⟨_, h.frame hp _, ?_⟩
    dsimp only
    rw [framed_rt, hh]
  · subst hu
    refine ⟨_, h.frame hp _, ?_⟩
    dsimp only
    rw [framed_rt, hh]
  · subst hu
    refine ⟨_, h.frame hp _, ?_⟩
    dsimp only
    rw [framed_rt, hh]
  · subst hu
    refine ⟨_, regionState_runs region c h, _, withCompare (s.framed p f) region c, rfl, rfl, fun hr => ?_, fun hr => ?_, fun hr => ?_⟩
    all_goals
      rw [hr]
      rfl
  · subst hu
    exact ⟨_, (h.anyFrame _).trans (congrArg Host.Outcome.next (if_pos (by simp [hp]))), rfl⟩
  · subst hu
    refine ⟨_, (h.anyFrame _).trans (congrArg Host.Outcome.next ((if_neg (by simp [hp])).trans ?_)), rfl⟩
    have hr' : ((s.framed p f).region region).valid = true := by rw [framed_region, hr]
    dsimp only
    rw [hr', if_pos rfl, ← hv, if_pos ha]
  · subst hu
    refine ⟨_, (h.anyFrame _).trans (congrArg Host.Outcome.next ((if_neg (by simp [hp])).trans ?_)), rfl⟩
    have hr' : ((s.framed p f).region region).valid = true := by rw [framed_region, hr]
    dsimp only
    rw [hr', if_pos rfl, ← hv, if_neg (by simp [ha])]
  · subst hu
    exact ⟨_, (h.frame hp _).trans (congrArg Host.Outcome.next (if_neg (by simp [hs]))), rfl⟩
  · subst hu
    exact ⟨_, (h.frame hp _).trans (congrArg Host.Outcome.next (if_pos (by simp [hs]))), rfl⟩
  · subst hu
    exact ⟨_, h.anyFrame _, rfl⟩
  · subst hu
    exact ⟨_, (h.frame hp _).trans (congrArg Host.Outcome.next (if_pos (by simp [hl]))), rfl⟩
  · subst hu
    exact ⟨_, (h.frame hp _).trans (congrArg Host.Outcome.next (if_neg (by simp [hl]))), rfl⟩
  · subst hu
    exact ⟨_, (h.anyFrame _).trans (congrArg Host.Outcome.next (if_pos (framed_paired s p f hp))), rfl⟩
  · subst hu
    exact ⟨_, (h.anyFrame _).trans (congrArg Host.Outcome.next ((if_neg (by rw [framed_notPaired s p f hp]; decide)).trans
      (if_pos (by simpa using hr)))), rfl⟩
  · subst hu
    refine ⟨_, (h.anyFrame _).trans (congrArg Host.Outcome.next ((if_neg (by rw [framed_notPaired s p f hp]; decide)).trans
      ((if_neg (by simpa [hr] using hv)).trans ?_))), rfl⟩
    rw [hk]
  · subst hu
    exact ⟨_, (allocate_runs _ h hp).trans (congrArg Host.Outcome.next (if_pos hs)), rfl⟩
  · subst hu
    exact ⟨_, (allocate_runs _ h hp).trans (congrArg Host.Outcome.next (if_neg (by simp [hs]))), rfl⟩
  · subst hu
    refine ⟨_, allocate_runs _ h hp, ?_⟩
    unfold State.allocAnswer
    rw [framed_waitAlloc, hw]
  · subst hu
    refine ⟨_, allocate_runs _ h hp, ?_⟩
    unfold State.allocAnswer
    rw [framed_waitAlloc, hw]

end Sys2Proof.TandemFrames

/-! CXL.mem (R9, R12, R182, R272, R276, R281, R282, Table 11-3): where reads and writes land, what each landing does with them, the hold timeout and
the decoders. -/

namespace Sys2Proof.CxlAccesses

open Sys2Proof.Machine State

section
variable {s w : State} {p : Fin 4} {l : Fin 16} {t : CxlTarget} (hp : s.portTakes p = true) (hl : s.ldThere p l = true) (hw : w = s.portWake p)
include hp hl hw

/-! ### Reads -/

theorem read_nowhere (tag : Nat) (hx : w.landing p l t = .nowhere) : s.cxlRead p l tag t = w.cxlNothing p l tag := by
  unfold State.cxlRead
  rw [if_neg (by simp [hp, hl])]
  dsimp only
  rw [← hw, hx]

theorem read_staging (tag : Nat) {off : Nat} (hx : w.landing p l t = .staging off) (hi : w.ideMissing p = false) :
    s.cxlRead p l tag t = if w.chanOfLd p l == some (Fin.ofNat 64 (off / 2 ^ 20)) && decide (off / 2 ^ 20 < 64) then
      w.emit (.memData p l tag (w.stageChunk (off / 2 ^ 20) (off % 2 ^ 20)) false) else w.emit (.memData p l tag 0 false) := by
  unfold State.cxlRead
  rw [if_neg (by simp [hp, hl])]
  dsimp only
  rw [← hw, hx]
  exact if_neg (by simp [hi])

theorem read_bench {tag off : Nat} {c : Chunk} (hx : w.landing p l t = .bench off) (hb : w.benchRead (.cxl p l tag) off = (w, some (some c))) :
    s.cxlRead p l tag t = w.emit (.memData p l tag c false) := by
  unfold State.cxlRead
  rw [if_neg (by simp [hp, hl])]
  dsimp only
  rw [← hw, hx]
  dsimp only
  rw [hb]

theorem read_benchOutside {tag off : Nat} (hx : w.landing p l t = .bench off) (hb : w.benchRead (.cxl p l tag) off = (w, none)) :
    s.cxlRead p l tag t = w.busError (.ld p l) (off % 2 ^ 24) false .unimplemented := by
  unfold State.cxlRead
  rw [if_neg (by simp [hp, hl])]
  dsimp only
  rw [← hw, hx]
  dsimp only
  rw [hb]

theorem read_closed (tag : Nat) {r off : Nat} (hx : w.landing p l t = .region r off)
    (hc : w.ideMissing p = true ∨ w.domainReady = false ∨ w.regionOpen r = false) :
    s.cxlRead p l tag t = (w.cxlNotHere p l r (w.dpaOf p l r (off / 256))).cxlNothing p l tag := by
  unfold State.cxlRead
  rw [if_neg (by simp [hp, hl])]
  dsimp only
  rw [← hw, hx]
  exact if_pos (by rcases hc with hc | hc | hc <;> simp [hc])

theorem read_region (tag : Nat) {r off x : Nat} (hx : w.landing p l t = .region r off) (hi : w.ideMissing p = false) (hd : w.domainReady = true)
    (ho : w.regionOpen r = true) (hr : w.resolve r off = some x) : s.cxlRead p l tag t =
      (((w.strideRead { src := .ld p l, region := r } (off / 256)).windowRead { src := .ld p l, region := r } (off / 256 / 256)).serveRead
        { who := .cxl p l tag, region := r, rline := off / 256, line := x, chunks := BitVec.twoPow 4 (off / 64 % 4) }).settle := by
  unfold State.cxlRead
  rw [if_neg (by simp [hp, hl])]
  dsimp only
  rw [← hw, hx]
  refine (if_neg (by simp [hi, hd, ho])).trans ?_
  rw [hr]

/-! ### Speculative reads -/

theorem spec_nowhere (hx : w.landing p l t = .nowhere) : s.cxlSpecRead p l t = w := by
  unfold State.cxlSpecRead
  rw [if_neg (by simp [hp, hl])]
  dsimp only
  rw [← hw, hx]

theorem spec_closed {r off : Nat} (hx : w.landing p l t = .region r off)
    (hc : w.ideMissing p = true ∨ w.domainReady = false ∨ w.regionOpen r = false) : s.cxlSpecRead p l t = w := by
  unfold State.cxlSpecRead
  rw [if_neg (by simp [hp, hl])]
  dsimp only
  rw [← hw, hx]
  exact if_pos (by rcases hc with hc | hc | hc <;> simp [hc])

theorem spec_region {r off x : Nat} (hx : w.landing p l t = .region r off) (hi : w.ideMissing p = false) (hd : w.domainReady = true)
    (ho : w.regionOpen r = true) (hr : w.resolve r off = some x) : s.cxlSpecRead p l t =
      if (w.bline x).isSome || (w.scbSlot x).isSome then w
      else (w.fetchRead { who := .device, region := r, rline := off / 256, line := x, chunks := BitVec.twoPow 4 (off / 64 % 4) }).settle := by
  unfold State.cxlSpecRead
  rw [if_neg (by simp [hp, hl])]
  dsimp only
  rw [← hw, hx]
  refine (if_neg (by simp [hi, hd, ho])).trans ?_
  rw [hr]

/-! ### Writes -/

theorem write_nowhere (tag : Nat) (m : BitVec 64) (d : Chunk) (b : Bool) (hx : w.landing p l t = .nowhere) :
    s.cxlWrite p l tag t m d b = w.emit (.memCmp p l tag) := by
  unfold State.cxlWrite
  rw [if_neg (by simp [hp, hl])]
  dsimp only
  rw [← hw, hx]

theorem write_staging (tag : Nat) (m : BitVec 64) (d : Chunk) (b : Bool) {off : Nat} (hx : w.landing p l t = .staging off)
    (hi : w.ideMissing p = false) : s.cxlWrite p l tag t m d b = if b then w.cxlDrop p l tag off
      else if w.chanOfLd p l == some (Fin.ofNat 64 (off / 2 ^ 20)) && decide (off / 2 ^ 20 < 64) then
        (w.putStageChunk (off / 2 ^ 20) (off % 2 ^ 20) m d).emit (.memCmp p l tag)
      else w.emit (.memCmp p l tag) := by
  unfold State.cxlWrite
  rw [if_neg (by simp [hp, hl])]
  dsimp only
  rw [← hw, hx]
  exact if_neg (by simp [hi])

theorem write_benchOutside (tag : Nat) (m : BitVec 64) (d : Chunk) (b : Bool) {off : Nat} (hx : w.landing p l t = .bench off)
    (hb : w.benchWrite off d = (w, false)) : s.cxlWrite p l tag t m d b = w.busError (.ld p l) (off % 2 ^ 24) true .unimplemented := by
  unfold State.cxlWrite
  rw [if_neg (by simp [hp, hl])]
  dsimp only
  rw [← hw, hx]
  dsimp only
  rw [hb]

theorem write_insecure (tag : Nat) (m : BitVec 64) (d : Chunk) (b : Bool) {r off : Nat} (hx : w.landing p l t = .region r off)
    (hi : w.ideMissing p = true) :
    s.cxlWrite p l tag t m d b = (w.cxlNotHere p l r (w.dpaOf p l r (off / 256))).emit (.memCmp p l tag) := by
  unfold State.cxlWrite
  rw [if_neg (by simp [hp, hl])]
  dsimp only
  rw [← hw, hx]
  exact if_pos hi

theorem write_poison (tag : Nat) (m : BitVec 64) (d : Chunk) {r off : Nat} (hx : w.landing p l t = .region r off)
    (hi : w.ideMissing p = false) : s.cxlWrite p l tag t m d true = w.cxlDrop p l tag (w.dpaOf p l r (off / 256)) := by
  unfold State.cxlWrite
  rw [if_neg (by simp [hp, hl])]
  dsimp only
  rw [← hw, hx]
  exact (if_neg (by simp [hi])).trans (if_pos rfl)

/-- A write is submitted with its bytes at the place of its chunk in the line. -/
theorem write_region (tag : Nat) (m : BitVec 64) (d : Chunk) {r off x : Nat} (hx : w.landing p l t = .region r off) (hi : w.ideMissing p = false)
    (hr : w.resolve r off = some x) : s.cxlWrite p l tag t m d false = (w.submit {
      who := .cxl p l tag, region := r, rline := off / 256, line := x, mask := m.setWidth 256 <<< (64 * (off / 64 % 4))
      data := d.setWidth 2048 <<< (8 * (64 * (off / 64 % 4))), stream := .ld p l }).settle := by
  unfold State.cxlWrite
  rw [if_neg (by simp [hp, hl])]
  dsimp only
  rw [← hw, hx]
  refine (if_neg (by simp [hi])).trans ((if_neg Bool.false_ne_true).trans ?_)
  rw [hr]

end

/-- In a life-cycle state without plaintext views, Bench view's lines read zero. -/
theorem benchRead_hidden {s : State} (who : Origin) {off : Nat} (h : off < 48 * 2 ^ 20) (hv : s.plainView = false) :
    s.benchRead who off = (s, some (some 0)) := by
  unfold State.benchRead
  rw [if_pos h, hv]
  dsimp only
  rw [if_neg Bool.false_ne_true]
  simp [chunkAt]

/-- A commit of a decoder that is not committed. -/
theorem decoderCommit_runs {s : State} {p : Fin 4} {l : Fin 16} {b : Fin 4} {d v : Decoder} (ok : Bool) (hm : s.psq.mainUp = true)
    (hl : s.ldThere p l = true) (hv : v = Tab.get {} (s.ld p l).decoders b.val) (hc : v.committed = false) (hd : d.committed = true)
    (hk : decide ((match Tab.get (none : Option BindTo) s.cxl.bindings (State.ldNo p l * 4 + b.val) with
        | some (.region _ _ n) => some n
        | some .staging => some (256 * 2 ^ 20)
        | none => none) = some d.size ∧ d.base % (256 * 2 ^ 20) = 0 ∧ d.size % (256 * 2 ^ 20) = 0) = ok) :
    exec (.hdmDecoderCommit p l b d) s = .next (s.setLd p l { s.ld p l with
      decoders := Tab.put {} (s.ld p l).decoders b.val { d with committed := ok, notCommitted := !ok } }) := by
  show execHdmDecoderCommit p l b d s = _
  unfold execHdmDecoderCommit
  rw [if_neg (by simp [hm, hl])]
  dsimp only
  rw [← hv, ← hk]
  exact (if_neg (by simp [hc])).trans (if_neg (by simp [hd]))

/-- Settles O33: landing by landing. -/
theorem cxlMemory : Obligations.CxlMemory := by
  refine ⟨fun s p l tag t m d b h => ?_, fun s w p l tag t m d b hp hl hw hx => ?_, fun s w p l tag off t m d hp hl hw hx ho hi => ?_,
    fun s w p l tag r off t d hp hl hw hx => ⟨fun hc => ?_, fun hi => ?_, fun hi => ?_⟩,
    fun s w p l tag r off x t hp hl hw hx hi hd ho hr => ⟨?_, fun hb => ?_, fun hb hs => ?_⟩,
    fun s w p l tag r off x t m d hp hl hw hx hi hr ho => ?_, fun s w p l tag off t d hp hl hw hx => ⟨fun ho hv => ?_, fun ho => ?_⟩,
    fun s p hi => ⟨fun hh => ?_, fun w l tag hs hh hwho => ?_⟩,
    fun s p l b d v hm hl hv => ⟨fun hc h => ?_, fun hc hd hk => ?_, fun hc hd => ?_, fun hc hd => ⟨fun r rofs hb h1 h2 => ?_, fun hb => ?_,
      fun r rofs n hb hne => ?_⟩⟩⟩
  · have e : (!s.portTakes p || !s.ldThere p l) = true := by rcases h with h | h <;> simp [h]
    exact ⟨⟨_, rfl, if_pos e⟩, ⟨_, rfl, if_pos e⟩, ⟨_, rfl, if_pos e⟩, ⟨_, rfl, if_pos e⟩⟩
  · exact ⟨⟨_, rfl, read_nowhere hp hl hw tag hx⟩, ⟨_, rfl, spec_nowhere hp hl hw hx⟩, ⟨_, rfl, write_nowhere hp hl hw tag _ d b hx⟩,
      ⟨_, rfl, write_nowhere hp hl hw tag m d b hx⟩⟩
  · have hlt : off / 2 ^ 20 < 64 := by omega
    refine ⟨fun hc => ?_, fun hc => ?_, ⟨_, rfl, (write_staging hp hl hw tag _ d true hx hi).trans (if_pos rfl)⟩⟩
    · have hk : (w.chanOfLd p l == some (Fin.ofNat 64 (off / 2 ^ 20)) && decide (off / 2 ^ 20 < 64)) = true := by
        rw [hc, decide_eq_true hlt]
        simp
      exact ⟨⟨_, rfl, (read_staging hp hl hw tag hx hi).trans (if_pos hk)⟩,
        ⟨_, rfl, (write_staging hp hl hw tag _ d false hx hi).trans ((if_neg Bool.false_ne_true).trans (if_pos hk))⟩,
        ⟨_, rfl, (write_staging hp hl hw tag m d false hx hi).trans ((if_neg Bool.false_ne_true).trans (if_pos hk))⟩⟩
    · have hk : ¬(w.chanOfLd p l == some (Fin.ofNat 64 (off / 2 ^ 20)) && decide (off / 2 ^ 20 < 64)) = true := by
        rw [beq_eq_false_iff_ne.2 hc]
        exact Bool.false_ne_true
      exact ⟨⟨_, rfl, (read_staging hp hl hw tag hx hi).trans (if_neg hk)⟩,
        ⟨_, rfl, (write_staging hp hl hw tag _ d false hx hi).trans ((if_neg Bool.false_ne_true).trans (if_neg hk))⟩⟩
  · exact ⟨⟨_, rfl, read_closed hp hl hw tag hx hc⟩, ⟨_, rfl, spec_closed hp hl hw hx hc⟩⟩
  · exact ⟨_, rfl, write_insecure hp hl hw tag _ d false hx hi⟩
  · exact ⟨_, rfl, write_poison hp hl hw tag _ d hx hi⟩
  · exact ⟨_, rfl, read_region hp hl hw tag hx hi hd ho hr⟩
  · exact ⟨_, rfl, (spec_region hp hl hw hx hi hd ho hr).trans (if_pos (by simp [hb]))⟩
  · exact ⟨_, rfl, (spec_region hp hl hw hx hi hd ho hr).trans (if_neg (by simp [hb, hs]))⟩
  · have hsh : off / 64 % 4 = 1 := by omega
    refine ⟨⟨_, rfl, (write_region hp hl hw tag _ d hx hi hr).trans ?_⟩, ⟨_, rfl, (write_region hp hl hw tag m d hx hi hr).trans ?_⟩⟩
    · rw [hsh]
    · rw [hsh]
  · have hb : w.benchWrite off d = (w, false) := (if_neg (by omega)).trans (if_neg (by omega))
    exact ⟨⟨_, rfl, read_bench hp hl hw hx (benchRead_hidden _ ho hv)⟩, ⟨_, rfl, write_benchOutside hp hl hw tag _ d false hx hb⟩⟩
  · have hb : w.benchRead (.cxl p l tag) off = (w, none) :=
      (if_neg (by omega)).trans ((if_neg (by omega)).trans ((if_neg (by omega)).trans (if_neg (by omega))))
    exact ⟨_, rfl, read_benchOutside hp hl hw hx hb⟩
  · refine ⟨_, (if_neg (by simp [hi])).trans ?_, rfl⟩
    rw [hh]
    rfl
  · refine ⟨_, (if_neg (by simp [hi])).trans ?_, rfl⟩
    have hport : (s.portOf w == p.val) = true := by
      unfold State.portOf
      rw [hwho]
      exact beq_self_eq_true _
    have hf : (w :: hs).find? (fun h => s.portOf h == p.val) = some w := List.find?_cons_of_pos hport
    rw [hh, hf]
    dsimp only
    rw [hwho, List.erase_cons_head]
    rfl
  · refine ⟨_, (if_neg (by simp [hm, hl])).trans ?_, rfl⟩
    dsimp only
    rw [← hv]
    exact (if_pos hc).trans (if_pos (by simpa using h))
  · refine ⟨_, (if_neg (by simp [hm, hl])).trans ?_, rfl⟩
    dsimp only
    rw [← hv]
    exact (if_pos hc).trans (if_neg (by simp [hd, hk]))
  · refine ⟨_, (if_neg (by simp [hm, hl])).trans ?_, rfl⟩
    dsimp only
    rw [← hv]
    exact (if_neg (by simp [hc])).trans (if_pos (by simp [hd]))
  · exact ⟨_, decoderCommit_runs true hm hl hv hc hd (by rw [hb]; simp; omega), rfl⟩
  · exact ⟨_, decoderCommit_runs false hm hl hv hc hd (by rw [hb]; simp), rfl⟩
  · exact ⟨_, decoderCommit_runs false hm hl hv hc hd (by rw [hb]; simp [hne]), rfl⟩

end Sys2Proof.CxlAccesses

/-! The CXL mailbox (R278, R286 to R289, Tables 11-5 to 11-7): each command is answered for an LD that is there with what it gives. -/

namespace Sys2Proof.Mailbox

open Sys2Proof.Machine State

section
variable {s w u : State} {p : Fin 4} {l : Fin 16} {i : Instr} {k : State → State × Nat × List Nat}

/-- A mailbox command of an LD that is there answers what it gives, IDLE left. -/
theorem answers_mailbox (hi : exec i s = mailbox p l s k) (hm : s.psq.mainUp = true) (hl : s.ldThere p l = true) (hw : w = s.wakeIdle)
    {c : Nat} {d : List Nat} (e : k w = (u, c, d)) : Answers i s (· = u.emit (.mailbox p l c d)) :=
  ⟨_, hi.trans (mailbox_answers hm hl hw e), rfl⟩

/-- One of an LD that is not there does nothing. -/
theorem answers_absent (hi : exec i s = mailbox p l s k) (hl : s.ldThere p l = false) : Answers i s (· = s) :=
  ⟨_, hi.trans (if_neg (by simp [hl])), rfl⟩

end

theorem ld_setLd (s : State) (p : Fin 4) (l : Fin 16) (v : Ld) : (s.setLd p l v).ld p l = v := Tab.get_put_same _ _ _ _

/-- An answer sent changes no LD. -/
theorem ld_emit (s : State) (o : Out) (p : Fin 4) (l : Fin 16) : (s.emit o).ld p l = s.ld p l := rfl

/-- The records left once the first `n` of log `k` are gone, `g` of them already, behind the records `a`. -/
def leftOf (k : LogKind) (n : Nat) (rs : List LdRecord) (a : List LdRecord × Nat) : List LdRecord × Nat :=
  rs.foldl (fun (a : List LdRecord × Nat) r => if r.kind == k && decide (a.2 < n) then (a.1, a.2 + 1) else (a.1 ++ [r], a.2)) a

/-- Where as many may go as there are, none of the log is left. -/
theorem leftOf_all (k : LogKind) (n : Nat) : ∀ (rs : List LdRecord) (a : List LdRecord) (g : Nat),
    g + (rs.filter fun r => r.kind == k).length ≤ n → (leftOf k n rs (a, g)).1 = a ++ rs.filter fun r => r.kind != k
  | [], a, g, _ => (List.append_nil a).symm
  | r :: rs, a, g, h => by
    unfold leftOf
    rw [List.foldl_cons]
    by_cases hk : (r.kind == k) = true
    · have hlen : g + 1 + (rs.filter fun r => r.kind == k).length ≤ n := by
        rw [List.filter_cons_of_pos (p := fun r : LdRecord => r.kind == k) hk, List.length_cons] at h
        omega
      rw [if_pos (by simp [hk]; omega), List.filter_cons_of_neg (by simpa using hk)]
      exact leftOf_all k n rs a (g + 1) hlen
    · rw [if_neg (by simp [hk]), List.filter_cons_of_pos (by simpa using hk)]
      rw [List.filter_cons_of_neg (p := fun r : LdRecord => r.kind == k) hk] at h
      exact (leftOf_all k n rs (a ++ [r]) g h).trans (by rw [List.append_assoc]; rfl)

/-- Where no more may go, all that follow are left. -/
theorem leftOf_none (k : LogKind) (n : Nat) : ∀ (rs : List LdRecord) (a : List LdRecord) (g : Nat), n ≤ g → (leftOf k n rs (a, g)).1 = a ++ rs
  | [], a, g, _ => (List.append_nil a).symm
  | r :: rs, a, g, h => by
    unfold leftOf
    rw [List.foldl_cons, if_neg (by simp; omega)]
    exact (leftOf_none k n rs (a ++ [r]) g h).trans (by rw [List.append_assoc]; rfl)

/-- What CLEAR EVENT RECORDS leaves of the logs and of the overflow. -/
theorem clearEventRecords_leaves {s w : State} {p : Fin 4} {l : Fin 16} {k : LogKind} {n : Option Nat} (hm : s.psq.mainUp = true)
    (hl : s.ldThere p l = true) (hw : w = s.wakeIdle) (gone : List LdRecord)
    (hg : gone = match n with
      | some m => ((w.ld p l).logs.filter fun r => r.kind == k).take m
      | none => (w.ld p l).logs.filter fun r => r.kind == k) :
    Answers (.clearEventRecords p l k n) s fun t => (t.ld p l).logs = (leftOf k gone.length (w.ld p l).logs ([], 0)).1 ∧
      (t.ld p l).overflow = (w.ld p l).overflow.erase k := by
  subst hg
  refine Answers.mono (answers_mailbox (i := .clearEventRecords p l k n) (show execClearEventRecords p l k n s = mailbox p l s _ from rfl)
    hm hl hw rfl) fun t e => ?_
  rw [e, ld_emit, ld_setLd]
  exact ⟨rfl, rfl⟩

/-- Settles O34: command by command. -/
theorem mailboxCommands : Obligations.MailboxCommands := by
  refine ⟨fun s w p l hm hl hw => ⟨fun k => ?_, ?_, fun k v => ?_, ?_, ?_, fun n => ?_, ?_, ?_, ?_, ?_, fun k r hd => ?_, ?_⟩,
    fun s w p l k hm hl hw => ⟨?_, fun a rest ha hk => ?_⟩,
    fun s w p l rs hm hl hw hr => ⟨fun hb => ?_, fun r b hb hrs hrb hne => ?_, fun hb hall hwin => ?_⟩,
    fun s u p l hm => ⟨fun hb => ?_, fun hb ho => ?_, fun r hb ho hu => ?_⟩,
    fun s w p l es hm hl hw => ⟨fun ha => ?_, fun e he hn => ?_, fun e he hn => ?_, fun e he hn => ?_⟩,
    fun s u p l e hm hl he hu hd => ?_, fun s p l e he => ?_, fun s p l hl => ⟨?_, ?_, fun k n => ?_, fun es => ?_⟩⟩
  · exact answers_mailbox (i := .getEventRecords p l k) (show execGetEventRecords p l k s = mailbox p l s _ from rfl) hm hl hw rfl
  · exact answers_mailbox (i := .getEventInterruptPolicy p l) (show execGetEventInterruptPolicy p l s = mailbox p l s _ from rfl) hm hl hw rfl
  · exact answers_mailbox (i := .setEventInterruptPolicy p l k v) (show execSetEventInterruptPolicy p l k v s = mailbox p l s _ from rfl) hm hl hw rfl
  · exact answers_mailbox (i := .getFwInfo p l) (show execGetFwInfo p l s = mailbox p l s _ from rfl) hm hl hw rfl
  · exact answers_mailbox (i := .getTimestamp p l) (show execGetTimestamp p l s = mailbox p l s _ from rfl) hm hl hw rfl
  · exact answers_mailbox (i := .setTimestamp p l n) (show execSetTimestamp p l n s = mailbox p l s _ from rfl) hm hl hw rfl
  · exact answers_mailbox (i := .getSupportedLogs p l) (show execGetSupportedLogs p l s = mailbox p l s _ from rfl) hm hl hw rfl
  · exact answers_mailbox (i := .getLog p l) (show execGetLog p l s = mailbox p l s _ from rfl) hm hl hw rfl
  · exact answers_mailbox (i := .identifyMemoryDevice p l) (show execIdentifyMemoryDevice p l s = mailbox p l s _ from rfl) hm hl hw rfl
  · exact answers_mailbox (i := .getHealthInfo p l) (show execGetHealthInfo p l s = mailbox p l s _ from rfl) hm hl hw rfl
  · refine answers_mailbox (i := .getDcConfiguration p l) (show execGetDcConfiguration p l s = mailbox p l s _ from rfl) hm hl hw ?_
    rw [hd]
    rfl
  · exact answers_mailbox (i := .getDcExtentList p l) (show execGetDcExtentList p l s = mailbox p l s _ from rfl) hm hl hw rfl
  · refine Answers.mono (clearEventRecords_leaves hm hl hw _ rfl) fun t e => ?_
    rw [e.1, leftOf_all _ _ _ _ _ (by simp)]
    rfl
  · refine Answers.mono (clearEventRecords_leaves hm hl hw [a] ?_) fun t e => ⟨e.1.trans ?_, e.2⟩
    · rw [ha, List.filter_cons_of_pos (by simp [hk])]
      rfl
    · rw [ha]
      unfold leftOf
      rw [List.foldl_cons, if_pos (by simp [hk])]
      exact leftOf_none k 1 rest [] 1 le_rfl
  · exact answers_mailbox (i := .sanitize p l) (show execSanitize p l s = mailbox p l s _ from rfl) hm hl hw (if_pos (Option.isSome_iff_ne_none.2 hb))
  · refine answers_mailbox (i := .sanitize p l) (show execSanitize p l s = mailbox p l s _ from rfl) hm hl hw ((if_neg (by simp [hb])).trans (if_pos ?_))
    rw [← hr]
    refine List.any_eq_true.2 ⟨r, hrs, ?_⟩
    rw [List.any_eq_true.2 ⟨b, hrb, by simpa using hne⟩, Bool.true_or]
  · have hnone : ¬(rs.any fun r => (w.bindingsOf r).any (fun b => b.1 != State.ldNo p l) || w.rdma.wins.any (fun w => w.2.any fun x => x.region == r)) =
        true := by
      rw [hwin]
      intro h
      obtain ⟨r, hrs, h⟩ := List.any_eq_true.1 h
      rw [List.any_nil, Bool.or_false] at h
      obtain ⟨b, hrb, h⟩ := List.any_eq_true.1 h
      simp [hall r hrs b hrb] at h
    refine Answers.mono (answers_mailbox (i := .sanitize p l) (show execSanitize p l s = mailbox p l s _ from rfl) hm hl hw
      ((if_neg (by simp [hb])).trans (if_neg (hr ▸ hnone)))) fun t e => ⟨_, _, rfl, rfl, ?_⟩
    rw [e, hr]
  · exact ⟨_, if_pos (by simp [hb]), rfl⟩
  · have hs : { s with cxl := { s.cxl with bgOps := [] } } = s := by rw [← ho]
    refine ⟨_, (if_neg (by simp [hm, hb])).trans ?_, rfl⟩
    dsimp only
    rw [ho, List.find?_nil, List.filter_nil, Option.map_none, Option.getD_none, List.foldl_nil, hs]
  · refine ⟨_, (if_neg (by simp [hm, hb])).trans ?_, rfl⟩
    dsimp only
    rw [ho, List.find?_cons_of_pos (by simp), List.filter_cons_of_neg (by simp), List.filter_nil, Option.map_some, Option.getD_some,
      List.foldl_cons, List.foldl_nil, ← hu]
  · refine answers_mailbox (i := .addDcResponse p l es) (show execAddDcResponse p l es s = mailbox p l s _ from rfl) hm hl hw ?_
    exact if_pos (List.all_eq_true.2 fun e he => by simpa using ha e he)
  · refine answers_mailbox (i := .addDcResponse p l es) (show execAddDcResponse p l es s = mailbox p l s _ from rfl) hm hl hw ?_
    exact if_neg fun h => hn (by simpa using List.all_eq_true.1 h e he)
  · refine answers_mailbox (i := .releaseDc p l es) (show execReleaseDc p l es s = mailbox p l s _ from rfl) hm hl hw ?_
    exact if_neg fun h => hn (by simpa using List.all_eq_true.1 h e he)
  · subst he
    exact answers_mailbox (i := .releaseDc p l [e]) (show execReleaseDc p l [e] s = mailbox p l s _ from rfl) hm hl hw (if_pos (by simpa using hn))
  · refine ⟨_, if_pos (by simp [hm, hl, he]), ?_⟩
    subst hu
    unfold Machine.dcRelease
    dsimp only
    rw [hd]
  · exact ⟨_, if_neg (by simp [he]), rfl⟩
  · exact answers_absent (i := .getTimestamp p l) (show execGetTimestamp p l s = mailbox p l s _ from rfl) hl
  · exact answers_absent (i := .sanitize p l) (show execSanitize p l s = mailbox p l s _ from rfl) hl
  · exact answers_absent (i := .clearEventRecords p l k n) (show execClearEventRecords p l k n s = mailbox p l s _ from rfl) hl
  · exact answers_absent (i := .addDcResponse p l es) (show execAddDcResponse p l es s = mailbox p l s _ from rfl) hl

end Sys2Proof.Mailbox

/-! CXL port events (R273 to R275, R278, R283 to R285, R290, R291, R383, R384): training, GPF, IDE, DOE, resets, SPDM and dynamic capacity. -/

namespace Sys2Proof.CxlPorts

open Sys2Proof.Machine State

theorem cport_setCport (s : State) (p : Fin 4) (v : CxlPort) : (s.setCport p v).cport p = v := Tab.get_put_same _ _ _ _

/-- What a port trains to (R273): by its flits, its width and its speed cap. -/
def trained (v : CxlPort) (p : Fin 4) (width : Fin 17) (speed : Fin 3) (flit256 flitLo mld : Bool) (lds : Fin 16) : CxlPort :=
  let most := if v.cfg.getLsbD (p.val / 2) then 8 else 16
  let w := if 16 ≤ width.val ∧ most = 16 then 16 else if 8 ≤ width.val then 8 else 0
  let sp := if v.cfg.getLsbD 4 then min speed.val 1 else speed.val
  if !flit256 || sp = 0 then { v with st := .detect, width := 0, speed := 0 }
  else if w = 0 then { v with st := .heldNarrow, width := 0, speed := 0 }
  else { v with st := .l0, width := w, speed := sp, flitLo := flitLo, mld := mld, lds := if mld then lds.val + 1 else 1 }

/-- A port whose enable is set and whose configuration stands is disabled where it does not exist. -/
theorem portTrain_absent {s u : State} {p : Fin 4} {v : CxlPort} (width : Fin 17) (speed : Fin 3) (f256 lo mld : Bool) (lds : Fin 16)
    (hh : s.hostsMay = true) (he : s.bit Reg.CXL_CTRL 0 p.val = true) (hv : v = s.cport p) (hc : v.cycled = false) (hu : u = s.setCport p v)
    (hp : s.portThere p = false) :
    exec (.cxlPortTrain p width speed f256 lo mld lds) s = .next (u.setCport p { v with st := .disabled }).judgeCxl := by
  have hp' : u.portThere p = false := by
    rw [hu]
    unfold State.portThere
    rw [cport_setCport, hv]
    exact hp
  show execCxlPortTrain p width speed f256 lo mld lds s = _
  unfold execCxlPortTrain
  rw [if_neg (by simp [hh, he])]
  dsimp only
  rw [← hv, if_neg (show ¬v.cycled = true by simp [hc]), ← hu]
  exact if_pos (show (!u.portThere p) = true by rw [hp']; rfl)

/-- A port that exists trains. -/
theorem portTrain_there {s u : State} {p : Fin 4} {v : CxlPort} (width : Fin 17) (speed : Fin 3) (f256 lo mld : Bool) (lds : Fin 16)
    (hh : s.hostsMay = true) (he : s.bit Reg.CXL_CTRL 0 p.val = true) (hv : v = s.cport p) (hc : v.cycled = false) (hu : u = s.setCport p v)
    (hp : s.portThere p = true) :
    exec (.cxlPortTrain p width speed f256 lo mld lds) s = .next (u.setCport p (trained v p width speed f256 lo mld lds)).judgeCxl := by
  have hp' : u.portThere p = true := by
    rw [hu]
    unfold State.portThere
    rw [cport_setCport, hv]
    exact hp
  show execCxlPortTrain p width speed f256 lo mld lds s = _
  unfold execCxlPortTrain
  rw [if_neg (by simp [hh, he])]
  dsimp only
  rw [← hv, if_neg (show ¬v.cycled = true by simp [hc]), ← hu]
  exact if_neg (show ¬(!u.portThere p) = true by rw [hp']; decide)

/-- An IDE selective stream, number 2 and up, leaves the two other streams as they are. -/
theorem setIde_selective {k : Fin 6} (hk : 2 ≤ k.val) (v : CxlPort) (go : Bool) : setIde v k go =
    { v with ideSel := if go then v.ideSel ||| BitVec.twoPow 4 (k.val - 2) else v.ideSel &&& ~~~(BitVec.twoPow 4 (k.val - 2)) } :=
  (if_neg fun h => by subst h; exact absurd hk (by decide)).trans (if_neg fun h => by subst h; exact absurd hk (by decide))

theorem ideUp_selective {k : Fin 6} (hk : 2 ≤ k.val) (v : CxlPort) : ideUp v k = v.ideSel.getLsbD (k.val - 2) :=
  (if_neg fun h => by subst h; exact absurd hk (by decide)).trans (if_neg fun h => by subst h; exact absurd hk (by decide))

theorem selective_beq_zero {k : Fin 6} (hk : 2 ≤ k.val) : (k == 0) = false :=
  beq_eq_false_iff_ne.2 fun h => by subst h; exact absurd hk (by decide)

/-- A request of the SPDM responder is answered, IDLE left. -/
theorem spdm_answers {s w : State} {d : Option (Fin 4 × Fin 16)} {a : SpdmAsk} {t : State} (ht : s.spdmTakes d = true) (hw : w = s.wakeIdle)
    (e : w.spdmAnswer d a = t) : Answers (.spdmMessage d a) s (· = t) :=
  ⟨_, congrArg Host.Outcome.next (if_pos ht), by rw [← hw, e]⟩

/-- A session that may stand is judged by its credential. -/
theorem spdmSession {w : State} {d : Option (Fin 4 × Fin 16)} {sid : Word} (cred : Option (Bool × BitVec 7)) (ht : w.sec.trngFail = false)
    (hl : (w.sessionsAt d).length < 2) (hs : w.sessionThere sid = false) : w.spdmAnswer d (.session sid cred) = match cred with
      | some (false, _) => (w.spdmFail d).emit (.spdm d 7 [])
      | some (true, mask) =>
        (if mask = 0 then w.sessionsFree.setSessions d (w.sessionsAt d ++ [sid])
          else (w.sessionsFree.setSessions d (w.sessionsAt d ++ [sid])).sessionChannel sid mask).emit (.spdm d 5 [sid.toNat])
      | none => (w.setSessions d (w.sessionsAt d ++ [sid])).emit (.spdm d 5 [sid.toNat]) := by
  unfold State.spdmAnswer
  exact (if_neg (by simp [ht])).trans (if_neg (by simp [hs]; omega))

theorem extentOk_of {e : DcExtent} (ho : e.off % 2 ^ 28 = 0) (hl : e.len % 2 ^ 28 = 0) (h : 0 < e.len) : extentOk e = true := by
  unfold extentOk
  rw [ho, hl, bne_iff_ne.2 (by omega)]
  rfl

/-- An aligned extent that meets no other, of a DC region that is mapped, is offered once its region holds it. -/
theorem dcAdd_runs {s : State} {p : Fin 4} {l : Fin 16} {e : DcExtent} {r : Nat} (hm : s.psq.mainUp = true) (hl : s.ldThere p l = true)
    (hk : extentOk e = true) (hx : (s.ld p l).extents = []) (ho : (s.ld p l).offers = []) (hd : Tab.get none (s.ld p l).dcMap e.dc.val = some r)
    (hr : s.isRegion r = true) : exec (.dcAdd p l e) s = match s.dcGrow r ((e.off + e.len) / 65536) with
      | .inl st => .next (s.emit (.dcRefused p l st.code))
      | .inr s1 => .next ((s1.setLd p l { s1.ld p l with offers := (s1.ld p l).offers ++ [e] }).ldRecord p l .dcd .dcAdd e.off).settleMed := by
  show execDcAdd p l e s = _
  unfold execDcAdd
  dsimp only
  rw [hd]
  exact (if_neg (by simp [hm, hl, hk, hx, ho])).trans (if_neg (by simp [hr]))

/-- Settles O35: event by event. -/
theorem cxlPortEvents : Obligations.CxlPortEvents := by
  refine ⟨fun s u p v width speed f256 lo mld lds hh he hv hc hu => ⟨fun hp => ?_, fun hp => ?_, fun hp hw hs h4 => ?_, fun hp h2 h4 => ?_,
      fun hp h2 h4 => ?_⟩,
    fun s p width speed f256 lo mld lds he => ?_, fun s p us => ⟨fun hi hs => ?_, fun hs => ?_⟩,
    fun s p hm => ⟨fun hi => ?_, fun hi => ?_, fun k hk hi => ?_, fun hi => ?_⟩,
    fun s p l sid hm => ⟨fun hs => ⟨?_, ?_, fun k hk => ?_⟩, fun hs m g => ?_⟩, fun s p l hm hl => ⟨?_, fun hb hd => ?_, fun r hb hd hr hw hs => ?_⟩,
    fun s p hm => ?_, fun s u p l hm hu => ?_, fun s u p hm hu => ⟨fun hs => ?_, fun hs => ?_⟩,
    fun s w d ht hw => ⟨spdm_answers ht hw rfl, spdm_answers ht hw rfl, spdm_answers ht hw rfl, spdm_answers ht hw rfl,
      fun sid htr hl hs => ⟨?_, fun mask => ?_, fun mask hne => ?_⟩, fun sid hs => ?_⟩, fun s d a ht => ?_,
    fun s p l e hm hl hlen => ⟨fun ha => ?_, fun x h1 h2 hx hdc hoff hxl => ?_, fun r h1 h2 hx ho hd hr hle => ?_,
      fun r h1 h2 hx ho hd hr hlt hk hc => ?_⟩⟩
  · exact ⟨_, portTrain_absent width speed f256 lo mld lds hh he hv hc hu hp, rfl⟩
  · exact ⟨_, portTrain_there width speed false lo mld lds hh he hv hc hu hp, rfl⟩
  · refine ⟨_, portTrain_there width speed true lo mld lds hh he hv hc hu hp, ?_⟩
    unfold trained
    dsimp only
    rw [h4, if_neg (by simp; omega), if_pos (by rw [if_neg (by omega), if_neg (by omega)])]
  · refine ⟨_, portTrain_there 16 2 true lo true lds hh he hv hc hu hp, ?_⟩
    unfold trained
    dsimp only
    rw [h2, h4]
    rfl
  · refine ⟨_, portTrain_there 16 2 true lo false lds hh he hv hc hu hp, ?_⟩
    unfold trained
    dsimp only
    rw [h2, h4]
    rfl
  · exact ⟨_, if_pos (by simp [he]), rfl⟩
  · exact ⟨_, if_pos (by simp [hi, hs]), rfl⟩
  · exact ⟨_, if_neg (by simp [hs]), rfl⟩
  · refine ⟨_, if_neg ?_, ?_⟩
    · rw [hm, show ideUp (s.cport p) 0 = true from hi]
      decide
    · show State.cause (s.setCport p { s.cport p with ideMem := false, insecure := (s.cport p).insecure || true }) _ _ _ _ = _
      rw [Bool.or_true]
  · refine ⟨_, if_neg ?_, ?_⟩
    · rw [hm, show ideUp (s.cport p) 1 = true from hi]
      decide
    · show State.cause (s.setCport p { s.cport p with ideIo := false, insecure := (s.cport p).insecure || false }) _ _ _ _ = _
      rw [Bool.or_false]
  · refine ⟨_, if_neg ?_, ?_⟩
    · rw [hm, ideUp_selective hk, hi]
      decide
    · dsimp only
      rw [setIde_selective hk, selective_beq_zero hk, Bool.or_false]
      rfl
  · refine ⟨_, if_pos ?_, rfl⟩
    rw [show ideUp (s.cport p) 0 = false from hi, Bool.not_false, Bool.or_true]
  · refine ⟨_, if_neg (by simp [hm, hs]), ?_⟩
    show State.emit (s.setCport p { s.cport p with ideMem := true, insecure := (s.cport p).insecure && false }) _ = _
    rw [Bool.and_false]
    rfl
  · refine ⟨_, if_neg (by simp [hm, hs]), ?_⟩
    show State.emit (s.setCport p { s.cport p with ideIo := false, insecure := (s.cport p).insecure && true }) _ = _
    rw [Bool.and_true]
    rfl
  · refine ⟨_, if_neg (by simp [hm, hs]), ?_⟩
    dsimp only
    rw [setIde_selective hk, selective_beq_zero hk, Bool.false_and, Bool.not_false, Bool.and_true]
    rfl
  · exact ⟨_, if_pos (by simp [hs]), rfl⟩
  · exact ⟨_, if_pos (by simp [hm, hl]), rfl⟩
  · refine ⟨_, if_pos (by simp [hm, hl]), ?_⟩
    unfold cdatWords
    dsimp only
    rw [hb, hd]
    rfl
  · refine ⟨_, if_pos (by simp [hm, hl]), ?_⟩
    unfold cdatWords
    dsimp only
    rw [hb, hd]
    show s.emit (.doe p l [(s.ld p l).cdat, 0, (s.region r).size * 65536, 4, 1, modeLatency (s.region r).mode, 1200, 38400,
      writeBandwidth (s.cport p)]) = _
    unfold writeBandwidth
    rw [hr, if_pos ⟨hw, hs⟩]
    rfl
  · exact ⟨_, if_pos hm, _, _, rfl, rfl, rfl⟩
  · subst hu
    exact ⟨_, if_pos hm, rfl⟩
  · subst hu
    exact ⟨_, if_pos (by simp [hm, hs]), rfl⟩
  · exact ⟨_, if_neg (by simp [hs]), rfl⟩
  · exact spdm_answers ht hw (spdmSession none htr hl hs)
  · exact spdm_answers ht hw (spdmSession (some (false, mask)) htr hl hs)
  · exact spdm_answers ht hw ((spdmSession (some (true, mask)) htr hl hs).trans (congrArg (fun t : State => t.emit (.spdm d 5 [sid.toNat]))
      (if_neg hne)))
  · exact spdm_answers ht hw (if_pos (by simpa using hs))
  · exact ⟨_, congrArg Host.Outcome.next (if_neg (by simp [ht])), rfl⟩
  · have hk : extentOk e = false := by
      unfold extentOk
      rcases ha with ha | ha
      · rw [beq_eq_false_iff_ne.2 ha, Bool.false_and, Bool.false_and]
      · rw [beq_eq_false_iff_ne.2 ha, Bool.and_false, Bool.false_and]
    exact ⟨_, if_pos (by simp [hk]), rfl⟩
  · have hmeet : ((s.ld p l).extents ++ (s.ld p l).offers).any (extentsMeet e) = true := by
      refine List.any_eq_true.2 ⟨x, List.mem_append_left _ hx, ?_⟩
      unfold extentsMeet
      rw [hdc, beq_self_eq_true, Bool.true_and]
      exact decide_eq_true (by omega)
    exact ⟨_, if_pos (by simp only [hmeet, Bool.or_true]), rfl⟩
  · have hk : extentOk e = true := extentOk_of h1 h2 hlen
    have hg : s.dcGrow r ((e.off + e.len) / 65536) = .inr s := if_pos hle
    refine ⟨_, (dcAdd_runs hm hl hk hx ho hd hr).trans (by rw [hg]), ?_⟩
    rw [ho]
    rfl
  · have hk' : extentOk e = true := extentOk_of h1 h2 hlen
    have hg : s.dcGrow r ((e.off + e.len) / 65536) = .inl .noSpace := by
      unfold State.dcGrow
      dsimp only
      rw [if_neg (by omega), if_neg (by simp [hk]), if_pos (by rcases hc with hc | hc <;> simp [hc])]
    exact ⟨_, (dcAdd_runs hm hl hk' hx ho hd hr).trans (by rw [hg]), rfl⟩

end Sys2Proof.CxlPorts

/-! RDMA requests (R297 to R300, R303, R305, R311, R312): WRITE in its turn, the other requests in theirs, SEND on a management QP. -/

namespace Sys2Proof.RdmaTurns

open Sys2Proof.Machine State

theorem qp_setQp (s : State) (n : Nat) (q : Qp) : (s.setQp n q).qp n = q := Tab.get_put_same _ _ _ _

/-- A WRITE of a STANDARD queue pair goes by its PSN (R311). -/
theorem writePacket_turn {s w : State} {n : Nat} {k : WritePkt} (h : s.Judges w n k.ce) (hi : k.icrc = true) (hm : (w.qp n).mgmt = none)
    (hs : (w.qp n).spray = false) (imm : Option Word) : s.writePacket n k imm = match psnKind (w.qp n) k.psn with
      | .next => (w.writeNext n k imm).settle
      | .ahead => w.seqNak n
      | _ => w.writeDup n k.psn := by
  unfold State.writePacket
  rw [hi, h.packet]
  dsimp only
  rw [hm, hs, if_neg Bool.false_ne_true] <;> cases psnKind (w.qp n) k.psn <;> rfl

/-- A WRITE in order is taken. -/
theorem writePacket_next {s w : State} {n : Nat} {k : WritePkt} (h : s.Judges w n k.ce) (hi : k.icrc = true) (hm : (w.qp n).mgmt = none)
    (hs : (w.qp n).spray = false) (hp : k.psn = (w.qp n).epsn) (imm : Option Word) : s.writePacket n k imm = (w.writeNext n k imm).settle := by
  rw [writePacket_turn h hi hm hs, hp, psnKind_epsn]

/-- A first or only packet whose window does not cover it ends the queue pair. -/
theorem writeNext_outside {s : State} {n : Nat} {k : WritePkt} (hk : k.pos = .only)
    (hw : s.windowCheck (s.qp n).pd k.key k.va k.len 1 = none) (imm : Option Word) : s.writeNext n k imm = s.qpFatal n k.psn 2 .access 0 := by
  unfold State.writeNext
  dsimp only
  rw [hk, hw]

/-- What a first packet of a message opens (R299). -/
def opened (q : Qp) (k : WritePkt) : Msg :=
  { first := k.psn, last := k.psn + BitVec.ofNat 24 (State.packetsOf q k.len - 1), msn := q.nextMsn, left := 0, missing := k.len, length := k.len }

/-- A packet in order: the expected PSN goes on, and message `msn` stays open unless it is the last. -/
def taken (u : State) (n : Nat) (k : WritePkt) (imm : Option Word) (c : CurMsg) (msn : Nat) : State :=
  u.setQp n (State.remember { u.qp n with
    epsn := k.psn + 1, nakSent := false, cur := if k.pos == .last || k.pos == .only then none else some c
    msgs := (u.qp n).msgs.map fun m => if m.msn == msn then { m with imm := if k.pos == .last || k.pos == .only then imm else m.imm } else m }
    k.psn .write)

/-- A first or only packet that its window covers, that nothing holds and whose completion has room, opens its message. -/
theorem writeNext_opens {s : State} {n : Nat} {k : WritePkt} {r off : Nat} {imm : Option Word} (hk : k.pos = .only ∨ k.pos = .first)
    (hw : s.windowCheck (s.qp n).pd k.key k.va k.len 1 = some (r, off))
    (hg : s.packetFate (s.pieces (.rdma n k.psn) (.qp n) r off k.data) = .go) (hf : imm = none ∨ (s.qp n).rcq = none) :
    s.writeNext n k imm = ((taken ((s.useWindow n k.key).setQp n { (s.useWindow n k.key).qp n with
        msgs := (s.qp n).msgs ++ [opened (s.qp n) k], nextMsn := (s.qp n).nextMsn + 1 }) n k imm
        { first := k.psn, region := r, off := off, len := k.len } (s.qp n).nextMsn).msgAdd n (s.qp n).nextMsn
          (s.pieces (.rdma n k.psn) (.qp n) r off k.data).length k.data.length).submitAll n (s.pieces (.rdma n k.psn) (.qp n) r off k.data) := by
  unfold State.writeNext
  rcases hk with hk | hk <;>
  · dsimp only
    rw [hk]
    dsimp only
    rw [hw]
    dsimp only
    rw [hg]
    dsimp only
    refine (if_neg ?_).trans ?_
    · rcases hf with rfl | hf
      · exact Bool.false_ne_true
      · rw [hf]
        cases imm <;> exact Bool.false_ne_true
    · unfold taken opened
      rw [hk]

/-- A middle or last packet of an open message adds its pieces at the offset its PSN gives. -/
theorem writeNext_continues {s : State} {n : Nat} {k : WritePkt} {c : CurMsg} {m : Msg} (hk : k.pos = .middle ∨ k.pos = .last)
    (hc : (s.qp n).cur = some c) (hm : ((s.qp n).msgs.find? fun m => m.first == c.first) = some m) (imm : Option Word) :
    s.writeNext n k imm = ((taken s n k imm c m.msn).msgAdd n m.msn
      (s.pieces (.rdma n k.psn) (.qp n) c.region (c.off + (k.psn - c.first).toNat * (s.qp n).pmtu) k.data).length k.data.length).submitAll n
      (s.pieces (.rdma n k.psn) (.qp n) c.region (c.off + (k.psn - c.first).toNat * (s.qp n).pmtu) k.data) := by
  unfold State.writeNext
  rcases hk with hk | hk <;>
  · dsimp only
    rw [hk]
    dsimp only
    rw [hc]
    dsimp only
    rw [hm]
    unfold taken
    rw [hk]

/-- A request in its turn that is no WRITE. -/
theorem request_next {s w : State} {n : Nat} {ce : Bool} {psn : BitVec 24} (h : s.Judges w n ce) (hm : (w.qp n).mgmt = none)
    (hp : psn = (w.qp n).epsn) (go : State → State) (again : State → Option Remembered → State) :
    s.request n psn ce true go again = (go w).settle := by
  rw [h.request hm, hp, psnKind_epsn]

/-- A duplicate request is counted and answered again. -/
theorem request_again {s w : State} {n : Nat} {ce : Bool} {psn : BitVec 24} (h : s.Judges w n ce) (hm : (w.qp n).mgmt = none)
    (hp : psnKind (w.qp n) psn = .duplicate) (go : State → State) (again : State → Option Remembered → State) :
    s.request n psn ce true go again =
      (again (w.bump Reg.RDM_DUP_CNT 0 31 0) ((w.qp n).recent.find? fun r => r.psn == psn)).settle := by
  rw [h.request hm, hp]
  rfl

/-- A SEND in order on a management queue pair. -/
theorem send_next {s w : State} {n : Fin 65536} {ce : Bool} {psn : BitVec 24} (h : s.Judges w n ce) {c : Fin 64} (hm : (w.qp n).mgmt = some c)
    (hp : psn = (w.qp n).epsn) (ws : List Word) (ok : Bool) : exec (.rdmaSend n psn ws ce true ok) s =
      if ws.length < 4 ∨ 64 < ws.length then .next (w.nak n psn 1)
      else if 16 ≤ ((w.chan c).held.filter fun p => p.req.via == .rdmaQp).length then .next ((w.setQp n { w.qp n with rnr := some psn }).nak n psn 4)
      else .next (((w.setQp n (State.remember { w.qp n with
        epsn := psn + 1, nakSent := false, msn := (w.qp n).msn + 1, nextMsn := (w.qp n).nextMsn + 1 } psn .write)).emit
          (.rdmaAck n psn ((w.qp n).msn + 1))).arriveWords c .rdmaQp ws ok) := by
  show execRdmaSend n psn ws ce true ok s = _
  unfold execRdmaSend
  rw [h.packet]
  dsimp only
  rw [hm]
  dsimp only
  rw [hp, psnKind_epsn]

/-- Settles O52: the three packets in turn. -/
theorem rdmaWriteLands : Obligations.RdmaWriteLands := by
  refine ⟨fun s w x u v n k r off q ws h hi hq hm hs hp hk hw hws hg hx hu hv => ?_,
    fun s w v n k q c m ws h hi hq hm hs hp hk hc hf hws hv => ?_,
    fun s w x u v n psn key va r off d ce q ws bs h hq hm hp ho ha hw hbs hws hg hx hu hv => ?_⟩
  · subst hq hws hx
    refine ⟨_, congrArg Host.Outcome.next ((writePacket_next h hi hm hs hp none).trans
      (congrArg State.settle (writeNext_opens hk hw hg (.inl rfl)))), ?_⟩
    subst hv hu
    unfold taken opened
    rcases hk with hk | hk <;> rw [hk] <;> rfl
  · subst hq hws
    refine ⟨_, congrArg Host.Outcome.next ((writePacket_next h hi hm hs hp none).trans (congrArg State.settle (writeNext_continues hk hc hf none))), ?_⟩
    subst hv
    unfold taken
    rcases hk with hk | hk <;> rw [hk] <;> rfl
  · subst hq hbs hws hx
    refine ⟨_, congrArg Host.Outcome.next ((request_next h hm hp _ _).trans (congrArg State.settle ((if_neg (by omega)).trans
      (writeNext_opens (.inl rfl) hw hg (.inl rfl))))), ?_⟩
    subst hv hu
    rfl

theorem writePacket_spray_long {s w : State} {n : Nat} {k : WritePkt} {g : BitVec 128} (h : s.Judges w n k.ce) (hi : k.icrc = true)
    (hm : (w.qp n).mgmt = none) (hs : (w.qp n).spray = true) (hg : k.gph = some g) (hl : 1048576 < gphLength g) (imm : Option Word) :
    s.writePacket n k imm = (w.nak n k.psn 1).settle := by
  unfold State.writePacket
  rw [hi, h.packet]
  dsimp only
  rw [hm, hs, if_pos rfl, hg]
  exact congrArg State.settle (if_pos (.inl hl))

/-- A READ that its window covers waits in the queue (R300). -/
theorem readTurn_waits {s : State} {n : Nat} {psn : BitVec 24} {key : Word} {va len r off : Nat} (ho : State.outstanding (s.qp n) < 16)
    (hl : len ≤ 2 ^ 31) (hw : s.windowCheck (s.qp n).pd key va len 0 = some (r, off)) (hd : s.domainReady = true) :
    s.readTurn n psn key va len = (s.useWindow n key).enqueue n psn .read (.read psn r off len) (State.packetsOf (s.qp n) len) := by
  unfold State.readTurn
  refine (if_neg (by omega)).trans ((if_neg (by omega)).trans ?_)
  rw [hw]
  exact if_neg (by simp [hd])

theorem readTurn_outside {s : State} {n : Nat} {psn : BitVec 24} {key : Word} {va len : Nat} (ho : State.outstanding (s.qp n) < 16)
    (hl : len ≤ 2 ^ 31) (hw : s.windowCheck (s.qp n).pd key va len 0 = none) (hd : s.domainReady = true) :
    s.readTurn n psn key va len = s.qpFatal n psn 2 .access 0 := by
  unfold State.readTurn
  refine (if_neg (by omega)).trans ((if_neg (by omega)).trans ?_)
  rw [hw]
  exact if_pos hd

/-- An atomic whose window does not cover its word, or whose word is misaligned, ends the queue pair (R303). -/
theorem atomicTurn_refused {s : State} {n : Nat} {psn : BitVec 24} {key : Word} {va : Nat} (ho : State.outstanding (s.qp n) < 16)
    (h : va % 8 ≠ 0 ∨ s.windowCheck (s.qp n).pd key va 8 2 = none) (op : Nat → Atomic) :
    s.atomicTurn n psn key va op = s.qpFatal n psn 2 .access 0 := by
  unfold State.atomicTurn
  refine (if_neg (by omega)).trans ?_
  by_cases ha : va % 8 = 0
  · rw [if_neg (by omega), h.resolve_left (by omega)]
  · exact if_pos ha

/-- An atomic on a word of a region that nothing holds waits in the queue. -/
theorem atomicTurn_waits {s : State} {n : Nat} {psn : BitVec 24} {key : Word} {va r off x : Nat} (ho : State.outstanding (s.qp n) < 16)
    (ha : va % 8 = 0) (hw : s.windowCheck (s.qp n).pd key va 8 2 = some (r, off)) (hr : r ≠ stagingRegion) (hx : s.resolve r off = some x)
    (op : Nat → Atomic) (hg : s.fate {
      who := .rdma n psn, region := r, rline := off / 256, line := x, mask := (BitVec.ofNat 256 255) <<< (off % 256), data := 0
      atomic := some (op (off % 256)) } = .go) :
    s.atomicTurn n psn key va op = (s.useWindow n key).enqueue n psn .atomic (.atomic psn r off (op (off % 256))) 1 := by
  unfold State.atomicTurn
  refine (if_neg (by omega)).trans ((if_neg (by omega)).trans ?_)
  rw [hw]
  dsimp only
  rw [if_neg hr, hx]
  dsimp only
  rw [hg]

/-- A request that uses its window leaves the rest of its queue pair for the enqueuing. -/
theorem enqueue_useWindow (s : State) (n : Nat) (key : Word) (psn : BitVec 24) (kind : ReqKind) (j : Queued) (pkts : Nat) :
    (s.useWindow n key).enqueue n psn kind j pkts = (s.useWindow n key).setQp n (State.remember { (s.useWindow n key).qp n with
      epsn := psn + BitVec.ofNat 24 pkts, nakSent := false, nextMsn := (s.qp n).nextMsn + 1, queued := (s.qp n).queued ++ [j] } psn kind) := by
  unfold State.enqueue State.useWindow
  rw [qp_setQp]

/-- A packet whose ICRC fails is captured and dropped (R295). -/
theorem packetIn_badIcrc {s : State} {n : Nat} (hin : s.ingressOpen = true) (hon : s.bit Reg.RDM_CTRL 0 0 = true)
    (hmac : s.macTakes (s.qp n).mac.val = true) {icrc : Bool} (hi : icrc = false) (psn : BitVec 24) (ce : Bool) :
    s.packetIn n psn ce icrc =
      ((s.cause Reg.ETH_MAC_CAUSE (s.qp n).mac.val 9 (160 + (s.qp n).mac.val)).macDrop (s.qp n).mac.val, false) :=
  (if_neg (by simp [hin, hon])).trans ((if_neg (by simp [hmac])).trans (if_pos (by simp [hi])))

/-- A packet for a queue pair that is not connected, or has ended, is dropped (R297). -/
theorem packetIn_notConnected {s : State} {n : Nat} (hin : s.ingressOpen = true) (hon : s.bit Reg.RDM_CTRL 0 0 = true)
    (hmac : s.macTakes (s.qp n).mac.val = true) (hc : (!(s.qp n).connected || (s.qp n).error) = true) (psn : BitVec 24) (ce : Bool) :
    s.packetIn n psn ce true = (s.macDrop (s.qp n).mac.val, false) :=
  (if_neg (by simp [hin, hon])).trans ((if_neg (by simp [hmac])).trans ((if_neg (by simp)).trans (if_pos hc)))

/-- Settles O36: packet by packet. -/
theorem rdmaRequests : Obligations.RdmaRequests := by
  refine ⟨fun s n k imm hin hon hmac => ⟨fun hi => ?_, fun hi hc => ?_, fun psn key va len ce he => ?_⟩,
    fun s w n k h hi hm hs hp hk hw => ?_,
    fun s w x u v n k imm r off q ws h hi hq hm hs hr hp hk hw hws hg hx hu hv => ?_,
    fun s w n k h hi hm hs => ⟨fun hk hn => ?_, fun x hk hf hx => ?_⟩, fun s w n k g h hi hm hs hg hl => ?_,
    fun s w n q psn key va len ce h hq hm hp ho => ⟨fun hl => ?_, fun hl hw hd => ?_, fun r off hl hw hd x hx => ?_⟩,
    fun s w n q psn key va a b ce h hq hm hp ho => ⟨fun ha => ⟨?_, ?_, ?_⟩, fun ha hw => ?_, fun ha hw => ?_,
      fun r off x ha hw hr hx hg y hy => ⟨?_, ?_⟩⟩,
    fun s w u n q psn key va a ce x h hq hm hk hf hx hu => ⟨?_, ?_⟩,
    fun s w n q psn key va len ce h hq hm hp => ⟨fun hw => ?_, fun r x hw hx => ?_⟩,
    fun s w n q psn ws ce ok h hq => ⟨fun hm => ?_, fun c hm hp hl => ?_, fun c hm hp h4 h64 hh => ?_, fun c hm hp h4 h64 hh => ?_⟩,
    fun s m psn hin hon => ⟨?_, fun n hmac hc he => ?_, fun n hc => ?_⟩⟩
  · refine ⟨_, rfl, ?_⟩
    unfold State.writePacket
    rw [packetIn_badIcrc hin hon hmac hi]
  · refine ⟨_, rfl, ?_⟩
    unfold State.writePacket
    rw [hi, packetIn_notConnected hin hon hmac (by simp [hc])]
  · refine ⟨_, rfl, ?_⟩
    unfold State.request
    rw [packetIn_notConnected hin hon hmac (by simp [he])]
  · refine ⟨⟨_, congrArg Host.Outcome.next (writePacket_next h hi hm hs hp none), ?_⟩, fun imm =>
      ⟨_, congrArg Host.Outcome.next (writePacket_next h hi hm hs hp (some imm)), ?_⟩⟩ <;> rw [writeNext_outside hk hw]
  · subst hq hws hx
    refine ⟨_, congrArg Host.Outcome.next ((writePacket_next h hi hm hs hp (some imm)).trans
      (congrArg State.settle (writeNext_opens (.inl hk) hw hg (.inr hr)))), ?_⟩
    subst hv hu
    unfold taken opened
    rw [hk]
    rfl
  · refine ⟨_, congrArg Host.Outcome.next (writePacket_turn h hi hm hs none), ?_⟩
    rw [hk]
    exact if_neg (by simp [hn])
  · refine ⟨_, congrArg Host.Outcome.next (writePacket_turn h hi hm hs none), ?_⟩
    rw [hk]
    show w.writeDup n k.psn = _
    unfold State.writeDup State.dup
    rw [hf]
    exact if_pos hx
  · exact ⟨_, congrArg Host.Outcome.next (writePacket_spray_long h hi hm hs hg hl none), rfl⟩
  · subst hq
    exact ⟨_, congrArg Host.Outcome.next (request_next h hm hp _ _), congrArg State.settle ((if_neg (by omega)).trans (if_pos hl))⟩
  · subst hq
    exact ⟨_, congrArg Host.Outcome.next (request_next h hm hp _ _), congrArg State.settle (readTurn_outside ho hl hw hd)⟩
  · subst hq hx
    exact ⟨_, congrArg Host.Outcome.next (request_next h hm hp _ _), congrArg State.settle ((readTurn_waits ho hl hw hd).trans (enqueue_useWindow ..))⟩
  · subst hq
    exact ⟨_, congrArg Host.Outcome.next (request_next h hm hp _ _), congrArg State.settle (atomicTurn_refused ho (.inl ha) _)⟩
  · subst hq
    exact ⟨_, congrArg Host.Outcome.next (request_next h hm hp _ _), congrArg State.settle (atomicTurn_refused ho (.inl ha) _)⟩
  · exact ⟨_, congrArg Host.Outcome.next (request_next h (hq ▸ hm) (hq ▸ hp) _ _), congrArg State.settle (if_pos ha)⟩
  · subst hq
    exact ⟨_, congrArg Host.Outcome.next (request_next h hm hp _ _), congrArg State.settle (atomicTurn_refused ho (.inr hw) _)⟩
  · subst hq
    exact ⟨_, congrArg Host.Outcome.next (request_next h hm hp _ _),
      congrArg State.settle ((if_neg (by omega)).trans (writeNext_outside rfl hw none))⟩
  · subst hq hy
    exact ⟨_, congrArg Host.Outcome.next (request_next h hm hp _ _), congrArg State.settle ((atomicTurn_waits ho ha hw hr hx _ (hg _)).trans (enqueue_useWindow ..))⟩
  · subst hq hy
    exact ⟨_, congrArg Host.Outcome.next (request_next h hm hp _ _), congrArg State.settle ((atomicTurn_waits ho ha hw hr hx _ (hg _)).trans (enqueue_useWindow ..))⟩
  · subst hq hu
    refine ⟨_, congrArg Host.Outcome.next (request_again h hm hk _ _), congrArg State.settle ?_⟩
    rw [hf]
    exact if_pos hx
  · subst hq hu
    refine ⟨_, congrArg Host.Outcome.next (request_again h hm hk _ _), congrArg State.settle ?_⟩
    rw [hf]
    exact if_pos hx
  · subst hq
    refine ⟨_, congrArg Host.Outcome.next (request_next h hm hp _ _), congrArg State.settle ?_⟩
    rw [hw]
  · subst hq hx
    refine ⟨_, congrArg Host.Outcome.next (request_next h hm hp _ _), congrArg State.settle ?_⟩
    rw [hw]
    exact enqueue_useWindow ..
  · subst hq
    refine ⟨_, ?_, rfl⟩
    show execRdmaSend n psn ws ce true ok s = _
    unfold execRdmaSend
    rw [h.packet]
    dsimp only
    rw [hm]
  · subst hq
    exact ⟨_, (send_next h hm hp ws ok).trans (if_pos hl), rfl⟩
  · subst hq
    exact ⟨_, (send_next h hm hp ws ok).trans ((if_neg (by omega)).trans (if_pos hh)), rfl⟩
  · subst hq
    exact ⟨_, (send_next h hm hp ws ok).trans ((if_neg (by omega)).trans (if_neg (by simp [hh]))), rfl⟩
  · exact ⟨_, if_neg (by simp [hin, hon]), rfl⟩
  · exact ⟨_, (if_neg (by simp [hin, hon])).trans (if_neg (by simp [hmac, hc, he])), rfl⟩
  · exact ⟨_, (if_neg (by simp [hin, hon])).trans (if_pos (by simp [hc])), rfl⟩

end Sys2Proof.RdmaTurns

/-! The requester side of RDMA (R303, R309, R310, R314, R316): acknowledgements, NAKs, READ data, timeouts and congestion marks. -/

namespace Sys2Proof.RdmaRequesters

open Sys2Proof.Machine State

theorem qp_setQp (s : State) (n : Nat) (q : Qp) : (s.setQp n q).qp n = q := Tab.get_put_same _ _ _ _

/-- A connected queue pair on an open ingress takes what comes from its peer. -/
theorem takes_of {s : State} {q : Qp} (hi : s.ingressOpen = true) (hc : q.connected = true) (he : q.error = false) :
    ¬(!s.ingressOpen || !q.connected || q.error) = true := by simp [hi, hc, he]

/-- A NAK of the first request in flight acknowledges nothing. -/
theorem acked_nothing {q : Qp} {psn : BitVec 24} {f : InFlight} (hq : q.flight = [f]) (hf : f.last = psn) :
    acked_ q (psn - 1) = { q with retries := 0 } := by
  have hback : ¬(psn - 1 - psn).toNat < 2 ^ 23 := by
    have : psn - 1 - psn = 0xFFFFFF#24 := by bv_omega
    rw [this]
    decide
  have hmap : (q.flight.map fun f => if (psn - 1 - f.last).toNat < 2 ^ 23 ∧ f.wqe.opcode ≠ 2 then { f with acked := true } else f) = q.flight := by
    rw [hq, List.map_cons, List.map_nil, hf, if_neg fun h => hback h.1]
  unfold State.acked_
  rw [hmap]

/-- A request that is neither acknowledged nor bad stays in flight. -/
theorem flightEnd_open {s : State} {n : Nat} {f : InFlight} {fs : List InFlight} (hq : (s.qp n).flight = f :: fs) (ha : f.acked = false)
    (hb : f.bad = false) (k : Nat) : s.flightEnd n k = s := by
  cases k with
  | zero => rfl
  | succ k =>
    unfold State.flightEnd
    dsimp only
    rw [hq]
    dsimp only
    rw [hb, ha]
    rfl

/-- The one request in flight that is not acknowledged is sent again. -/
theorem resend_one {s : State} {n : Nat} {f : InFlight} (hq : (s.qp n).flight = [f]) (ha : f.acked = false) :
    s.resend n = s.wqeSend n f.wqe f.psn := by
  unfold State.resend
  rw [hq, List.foldl_cons, List.foldl_nil, ha]
  rfl

/-- What a NAK of the one request in flight leads to (R310, R314). -/
theorem peerNak_one {s u : State} {n : Nat} {psn : BitVec 24} {f : InFlight} (hq : (s.qp n).flight = [f]) (hp : f.psn = psn) (hl : f.last = psn)
    (ha : f.acked = false) (hb : f.bad = false) (hu : u = s.setQp n { s.qp n with retries := 0 }) (code : Fin 5) :
    s.peerNak n psn code = if code = 0 ∨ code = 4 then u.wqeSend n f.wqe psn else u.sqFail n (if code = 2 then 1 else 2) := by
  have hflight : (u.qp n).flight = [f] := by rw [hu, qp_setQp, ← hq]
  unfold State.peerNak
  dsimp only
  rw [acked_nothing hq hl, ← hu, flightEnd_open hflight ha hb, resend_one hflight ha, hp, hflight]
  rfl

/-- Settles O37: event by event. -/
theorem rdmaRequester : Obligations.RdmaRequester := by
  refine ⟨fun s n psn code off d b hc => ⟨?_, ?_, ?_, ?_, ?_, ?_, ?_⟩,
    fun s u n psn q hi hq hc he => ⟨fun c hm hu => ?_, fun hm hu => ?_⟩,
    fun s n psn q hi hq hc he => ⟨fun c hm => ⟨?_, ?_, ?_, ?_⟩, fun f hm hf hp hl ha hb u hu => ?_⟩,
    fun s n psn off d last q hi hq hc he => ⟨fun hf => ?_, fun f hf hp ho hw => ?_, fun f r o ws hf hp ho hw hws => ?_⟩,
    fun s n q hi hq hc he => ⟨fun c w ws hm hw => ⟨fun hr => ?_, fun hr => ?_⟩, fun hm hf => ?_, fun f hm hf ha => ⟨fun hr => ?_, fun hr => ?_⟩⟩,
    fun s n q c hq hm => ⟨fun hi hc he hr => ⟨fun w ws hw => ?_, fun hw => ?_⟩, fun hr => ?_⟩,
    fun s n q hi hq hc he => ⟨fun hs hh => ?_, fun hh => ?_⟩,
    fun s u n q hi hq hc hu => ⟨fun hb => ?_, fun hb hd => ?_, fun t hb hd hl => ?_⟩,
    fun s n q hm hq hc => ⟨fun hb => ?_, fun hb => ?_⟩⟩
  · exact ⟨_, if_pos (by simp [hc]), rfl⟩
  · exact ⟨_, if_pos (by simp [hc]), rfl⟩
  · exact ⟨_, if_pos (by simp [hc]), rfl⟩
  · exact ⟨_, if_pos (by simp [hc]), rfl⟩
  · exact ⟨_, if_pos (by simp [hc]), rfl⟩
  · exact ⟨_, if_pos (by simp [hc]), rfl⟩
  · exact ⟨_, if_pos (by simp [hc]), rfl⟩
  · subst hq hu
    refine ⟨_, (if_neg (takes_of hi hc he)).trans ?_, rfl⟩
    rw [hm]
  · have hacked : u = s.setQp n (acked_ q psn) := hu
    subst hq
    refine ⟨_, (if_neg (takes_of hi hc he)).trans ?_, rfl⟩
    rw [hm]
    dsimp only
    rw [← hacked]
  · subst hq
    refine ⟨_, (if_neg (takes_of hi hc he)).trans ?_, rfl⟩
    rw [hm]
    exact if_pos rfl
  · subst hq
    refine ⟨_, (if_neg (takes_of hi hc he)).trans ?_, rfl⟩
    rw [hm]
    rfl
  · subst hq
    refine ⟨_, (if_neg (takes_of hi hc he)).trans ?_, rfl⟩
    rw [hm]
    rfl
  · subst hq
    refine ⟨_, (if_neg (takes_of hi hc he)).trans ?_, rfl⟩
    rw [hm]
    rfl
  · subst hq
    have hnak : ∀ code, exec (.rdmaPeerNak n psn code) s = .next
        (if code = 0 ∨ code = 4 then u.wqeSend n f.wqe psn else u.sqFail n (if code = 2 then 1 else 2)).settleRdma := by
      intro code
      refine (if_neg (takes_of hi hc he)).trans ?_
      rw [hm]
      exact congrArg (fun t : State => Host.Outcome.next t.settleRdma) (peerNak_one hf hp hl ha hb hu code)
    exact ⟨⟨_, hnak 4, rfl⟩, ⟨_, hnak 0, rfl⟩, ⟨_, hnak 2, rfl⟩, ⟨_, hnak 3, rfl⟩⟩
  · subst hq
    refine ⟨_, (if_neg (takes_of hi hc he)).trans ?_, rfl⟩
    rw [hf]
    rfl
  · subst hq
    refine ⟨_, (if_neg (takes_of hi hc he)).trans ?_, rfl⟩
    rw [hf, List.find?_cons_of_pos (by simp [hp, ho])]
    dsimp only
    rw [hw]
  · subst hq hws
    refine ⟨_, (if_neg (takes_of hi hc he)).trans ?_, rfl⟩
    rw [hf, List.find?_cons_of_pos (by simp [hp, ho])]
    dsimp only
    rw [hw]
    dsimp only
    rw [List.map_cons, List.map_nil, if_pos (by simp [hp])]
  · subst hq
    refine ⟨_, (if_neg (takes_of hi hc he)).trans ?_, rfl⟩
    rw [hm]
    dsimp only
    rw [hw]
    exact if_pos hr
  · subst hq
    refine ⟨_, (if_neg (takes_of hi hc he)).trans ?_, rfl⟩
    rw [hm]
    dsimp only
    rw [hw]
    exact if_neg (by omega)
  · subst hq
    refine ⟨_, (if_neg (takes_of hi hc he)).trans ?_, rfl⟩
    rw [hm, hf]
    rfl
  · subst hq
    refine ⟨_, (if_neg (takes_of hi hc he)).trans ?_, rfl⟩
    rw [hm]
    refine (if_neg (by simp [hf, ha])).trans ((if_pos hr).trans ?_)
    rw [resend_one (f := f) (by rw [qp_setQp]; exact hf) ha]
  · subst hq
    refine ⟨_, (if_neg (takes_of hi hc he)).trans ?_, rfl⟩
    rw [hm]
    exact (if_neg (by simp [hf, ha])).trans (if_neg (by omega))
  · subst hq
    refine ⟨_, ?_, rfl⟩
    show execMgmtRnrRetry n s = _
    unfold execMgmtRnrRetry
    dsimp only
    rw [hm]
    dsimp only
    rw [if_pos (by simp [hi, hc, he, hr]), hw]
    rfl
  · subst hq
    refine ⟨_, ?_, rfl⟩
    show execMgmtRnrRetry n s = _
    unfold execMgmtRnrRetry
    dsimp only
    rw [hm]
    dsimp only
    rw [if_pos (by simp [hi, hc, he, hr]), hw]
    rfl
  · subst hq
    refine ⟨_, ?_, rfl⟩
    show execMgmtRnrRetry n s = _
    unfold execMgmtRnrRetry
    dsimp only
    rw [hm]
    exact if_neg (by simp [hr])
  · subst hq
    exact ⟨_, if_neg (by simp [hi, hc, he, hs, hh]), rfl⟩
  · subst hq
    exact ⟨_, if_pos (by simp [hh]), rfl⟩
  · subst hq hu
    exact ⟨_, (if_neg (by simp [hi, hc])).trans (if_pos (by simp [hb])), rfl⟩
  · subst hq hu
    refine ⟨_, (if_neg (by simp [hi, hc])).trans ((if_neg (by simp [hb])).trans ?_), rfl⟩
    rw [hd]
    rfl
  · subst hq hu
    refine ⟨_, (if_neg (by simp [hi, hc])).trans ((if_neg (by simp [hb])).trans ?_), rfl⟩
    rw [hd]
    dsimp only
    rw [if_neg (by simp; omega)]
  · subst hq
    exact ⟨_, if_neg (by simp [hm, hc, hb]), rfl⟩
  · subst hq
    exact ⟨_, if_pos (by simp [hb]), rfl⟩

end Sys2Proof.RdmaRequesters

/-! What comes by the MACs (R294, R295, R302, R317, R318, R320): requests for Mingaso, pause frames, storms, ICV failures and link changes. -/

namespace Sys2Proof.EthernetPorts

open Sys2Proof.Machine State

/-- A MAC that takes frames is there, its port on and its link up. -/
theorem takes_iff (s : State) (m : Fin 32) : s.macTakes m = true ↔ s.ingressOpen = true ∧ s.macThere m = true ∧ s.eportOn (m / 4) = true ∧
    (s.mac m).up = true ∧ (!s.bit Reg.ETH_MACSEC_CTRL 0 (8 + m / 4) || (s.mac m).sa) = true := by
  unfold State.macTakes
  rw [Bool.and_eq_true, Bool.and_eq_true, Bool.and_eq_true, Bool.and_eq_true, and_assoc, and_assoc, and_assoc]

/-- What comes by a MAC that takes it is answered where Mingaso runs. -/
theorem macAsk_answered {s w : State} {a : MacAsk} (ht : s.macTakes (askMac a) = true) (hr : s.flash.cores = .running) (hw : w = s.wakeIdle) :
    s.macAsk a = w.macAnswer a := by
  obtain ⟨h1, h2, h3, h4, -⟩ := (takes_iff s _).1 ht
  unfold State.macAsk
  dsimp only
  exact (if_neg (by simp [h1, h2, h3, h4])).trans ((if_neg (by simp [ht])).trans ((if_pos (by rw [hr]; rfl)).trans (by rw [hw])))

/-- What comes while the control cores restart waits. -/
theorem macAsk_waits {s : State} {a : MacAsk} (ht : s.macTakes (askMac a) = true) (hr : s.flash.cores = .restarting) :
    s.macAsk a = { s with rdma := { s.rdma with asks := s.rdma.asks ++ [a] } } := by
  obtain ⟨h1, h2, h3, h4, -⟩ := (takes_iff s _).1 ht
  unfold State.macAsk
  dsimp only
  exact (if_neg (by simp [h1, h2, h3, h4])).trans ((if_neg (by simp [ht])).trans ((if_neg (by rw [hr]; decide)).trans (if_pos (by rw [hr]; rfl))))

/-- MKA passes where protection is required (R318). -/
theorem macAsk_mka {s w : State} {m : Fin 32} {sc : Fin 64} {an : Fin 2} {sa : Bool} (hi : s.ingressOpen = true) (hm : s.macThere m = true)
    (hp : s.eportOn (m / 4) = true) (hu : (s.mac m).up = true) (hr : s.flash.cores = .running) (hw : w = s.wakeIdle) :
    s.macAsk (.mka m sc an sa) = w.macAnswer (.mka m sc an sa) := by
  unfold State.macAsk
  dsimp only [askMac]
  exact (if_neg (by simp [hi, hm, hp, hu])).trans ((if_neg (by simp)).trans ((if_pos (by rw [hr]; rfl)).trans (by rw [hw])))

theorem macAsk_down {s : State} {a : MacAsk} (hu : (s.mac (askMac a)).up = false) : s.macAsk a = s := if_pos (by simp [hu])

/-- Without the SA it requires, a MAC drops what comes by it. -/
theorem macAsk_unprotected {s : State} {m : Fin 32} {g : Fin 16} (hi : s.ingressOpen = true) (hm : s.macThere m = true)
    (hp : s.eportOn (m / 4) = true) (hu : (s.mac m).up = true) (hq : s.bit Reg.ETH_MACSEC_CTRL 0 (8 + m / 4) = true) (hs : (s.mac m).sa = false) :
    s.macAsk (.icmp m g) = s.macDrop m := by
  have ht : s.macTakes m = false := by
    unfold State.macTakes
    rw [hq, hs]
    exact Bool.and_false _
  exact (if_neg (by simp [askMac, hi, hm, hp, hu])).trans (if_pos (by simp [askMac, ht]))

/-- A GID of the table is IPv4-mapped or not by its upper 96 bits. -/
theorem gidIs_of {s : State} {m g : Nat} {x : BitVec 128} {v : Option (BitVec 12)} (h : Tab.get none (s.mac m).gids g = some (x, v)) (v4 : Bool) :
    s.gidIs m g v4 = (((x >>> 32) == 0xFFFF#128) == v4) := by
  unfold State.gidIs
  rw [h]

theorem gidIs_none {s : State} {m g : Nat} (h : Tab.get none (s.mac m).gids g = none) (v4 : Bool) : s.gidIs m g v4 = false := by
  unfold State.gidIs
  rw [h]

/-- A REQ for a protection domain with its token gets a queue pair (R302). -/
theorem cmAnswer_data {s : State} {r : CmReq} {n : Fin 65536} {pd : Pd} (hd : s.domainReady = true) (hf : r.format = 1) (hs : r.service = 0)
    (hp : r.placement = 0) (hc : r.pdOrChan.toNat < 4096) (hpd : Tab.get none s.rdma.pds r.pdOrChan.toNat = some pd) (ht : pd.token = r.token)
    (hn : s.freeQp = some n) : s.cmAnswer r = ((((s.setQp n {
      connected := true, depth := r.depth.toNat, pd := r.pdOrChan.toNat, mac := r.mac, gid := r.gid, pmtu := 1024 * 2 ^ r.pmtu.val, epsn := r.psn
      rate := s.macRate r.mac, txPsn := (Config.undefinedWord s.fresh).setWidth 24 }).draw).contextIn n).emit (.cmRep n false)).judgeRdm := by
  unfold State.cmAnswer
  dsimp only
  rw [hd, hf, hs, hp, hpd, hn, if_neg (by decide), if_neg (by simp [hc, ht]), if_neg (by simp)]
  dsimp only
  rw [show decide ((0 : BitVec 8) = 0 ∧ (0 : BitVec 8) = 1 ∧ s.bit Reg.RDM_CTRL 0 1 = true) = false from decide_eq_false (by simp)]
  rfl

/-- Settles O38: frame by frame. -/
theorem ethernetEvents : Obligations.EthernetEvents := by
  refine ⟨fun s w r hb ht hr hw => ⟨fun hd => ?_, fun hd hf => ?_, fun n pd hd hf hs hp hc hpd htk hn => ?_⟩, fun s r hb => ?_,
    fun s w m g x v ht hr hw hg => ⟨fun hx => ⟨?_, ?_, ?_⟩, fun hx => ⟨?_, ?_, ?_⟩⟩, fun s w m g ht hr hw hg => ⟨?_, ?_, ?_⟩,
    fun s m g ht hr => ?_, fun s m g hu => ?_, fun s m g hi hm hp hu hq hs => ?_,
    fun s w m sc an sa hi hm hp hu hr hw => ⟨fun hb hk => ?_, fun hb => ?_⟩,
    fun s p prio pause => ⟨fun hp hb hf => ?_, fun h => ?_⟩,
    fun s u p free hp hu => ⟨fun hb hs hl => ?_, fun hs hl => ?_, fun hs hl => ?_⟩,
    fun s m hp hm => ⟨fun h => ?_, fun h1 h2 => ?_, fun hu hb => ?_, fun hpw hmode => ?_, fun hpw hmode => ?_, fun hpw => ?_⟩,
    fun s m hm => ?_⟩
  · refine ⟨_, (if_pos hb).trans (congrArg Host.Outcome.next (macAsk_answered ht hr hw)), if_pos (by simp [hd])⟩
  · refine ⟨_, (if_pos hb).trans (congrArg Host.Outcome.next (macAsk_answered ht hr hw)), ?_⟩
    exact (if_neg (by simp [hd])).trans (if_pos (by rw [bne_iff_ne.2 hf, Bool.true_or]))
  · exact ⟨_, (if_pos hb).trans (congrArg Host.Outcome.next (macAsk_answered ht hr hw)), _, rfl, cmAnswer_data hd hf hs hp hc hpd htk hn⟩
  · exact ⟨_, if_neg (by simp [hb]), rfl⟩
  · refine ⟨_, congrArg Host.Outcome.next (macAsk_answered ht hr hw), if_pos ?_⟩
    rw [gidIs_of hg, hx]
    rfl
  · refine ⟨_, congrArg Host.Outcome.next (macAsk_answered ht hr hw), if_neg ?_⟩
    rw [gidIs_of hg, hx]
    decide
  · refine ⟨_, congrArg Host.Outcome.next (macAsk_answered ht hr hw), if_pos ?_⟩
    rw [gidIs_of hg, hx]
    rfl
  · refine ⟨_, congrArg Host.Outcome.next (macAsk_answered ht hr hw), if_neg ?_⟩
    rw [gidIs_of hg, beq_eq_false_iff_ne.2 hx]
    decide
  · refine ⟨_, congrArg Host.Outcome.next (macAsk_answered ht hr hw), if_pos ?_⟩
    rw [gidIs_of hg, beq_eq_false_iff_ne.2 hx]
    rfl
  · refine ⟨_, congrArg Host.Outcome.next (macAsk_answered ht hr hw), if_pos ?_⟩
    rw [gidIs_of hg, gidIs_of hg, beq_eq_false_iff_ne.2 hx]
    rfl
  · refine ⟨_, congrArg Host.Outcome.next (macAsk_answered ht hr hw), if_neg ?_⟩
    rw [gidIs_none hg]
    decide
  · refine ⟨_, congrArg Host.Outcome.next (macAsk_answered ht hr hw), if_neg ?_⟩
    rw [gidIs_none hg]
    decide
  · refine ⟨_, congrArg Host.Outcome.next (macAsk_answered ht hr hw), if_neg ?_⟩
    rw [gidIs_none hg, gidIs_none hg]
    decide
  · exact ⟨_, congrArg Host.Outcome.next (macAsk_waits ht hr), rfl⟩
  · exact ⟨_, congrArg Host.Outcome.next (macAsk_down hu), rfl⟩
  · exact ⟨_, congrArg Host.Outcome.next (macAsk_unprotected hi hm hp hu hq hs), rfl⟩
  · exact ⟨_, congrArg Host.Outcome.next (macAsk_mka hi hm hp hu hr hw), if_pos (by rw [hb, Option.isSome_iff_ne_none.2 hk]; rfl)⟩
  · exact ⟨_, congrArg Host.Outcome.next (macAsk_mka hi hm hp hu hr hw), if_neg (by simp [hb])⟩
  · exact ⟨_, if_pos (by simp [hp, hb, hf]), rfl⟩
  · refine ⟨_, if_neg ?_, rfl⟩
    rcases h with h | h
    · simp [h]
    · simp [h]
  · subst hu
    exact ⟨_, (if_neg (by simp [hp])).trans (if_pos (by simp [hb, hs, hl])), rfl⟩
  · subst hu
    exact ⟨_, (if_neg (by simp [hp])).trans ((if_neg (by simp [hs])).trans (if_pos (by simp [hs, hl]))), rfl⟩
  · subst hu
    exact ⟨_, (if_neg (by simp [hp])).trans ((if_neg (by simp; omega)).trans (if_neg (by simp [hs]))), rfl⟩
  · refine ⟨_, if_pos ?_, rfl⟩
    rcases h with h | h
    · simp [hp, hm, h]
    · simp [hp, hm, h]
  · exact ⟨_, if_neg (by simp [h1, h2]), rfl⟩
  · exact ⟨_, if_pos (by simp [hp, hm, hu, hb]), rfl⟩
  · refine ⟨_, (if_neg (by simp [hpw, hm, hp])).trans ?_, rfl⟩
    rw [hmode]
    rfl
  · refine ⟨_, (if_neg (by simp [hpw, hm, hp])).trans ?_, rfl⟩
    rw [hmode]
    rfl
  · exact ⟨_, if_neg (by simp [hpw, hm, hp]), rfl⟩
  · exact ⟨⟨_, if_pos (by simp [hm]), rfl⟩, ⟨_, if_neg (by simp [hm]), rfl⟩, ⟨_, if_neg (by simp [hm]), rfl⟩⟩

end Sys2Proof.EthernetPorts

/-! Teasel, Eyebright and Yarrow (R110 to R166): blanking, passes, calibration, sweeps, queued work, scans, the spare and the sweeper. -/

namespace Sys2Proof.Keeping

open Sys2Proof.Machine State Sys2Proof.Readings Sys2Proof.Lanes

/-! What sending leaves of a lane: commands go on a lane that is up, one that sleeps wakes, so that no die goes down. -/

/-- A lane that takes commands. -/
def laneOn (c : QChan) : Bool := c.lstate == .active || c.lstate == .sleep

/-- Every lane takes commands at `t` where it did at `s`, and none besides. -/
def SameLanes (s t : State) : Prop := ∀ n, laneOn (t.qc n) = laneOn (s.qc n)

theorem SameLanes.refl (s : State) : SameLanes s s := fun _ => rfl

theorem SameLanes.trans {s t u : State} (h : SameLanes s t) (k : SameLanes t u) : SameLanes s u := fun n => (k n).trans (h n)

theorem SameLanes.of_med {s t : State} (h : t.med = s.med) : SameLanes s t := fun n => by rw [qc_of_med h]

theorem qc_setQc (s : State) (n : Nat) (c : QChan) : (s.setQc n c).qc n = c := Tab.get_put_same _ _ _ _

theorem qc_setQc_ne (s : State) {n m : Nat} (c : QChan) (h : m ≠ n) : (s.setQc n c).qc m = s.qc m := Tab.get_put_ne _ _ _ _ h

theorem setQc_lanes {s : State} {n : Nat} {c : QChan} (h : laneOn c = laneOn (s.qc n)) : SameLanes s (s.setQc n c) := by
  intro m
  by_cases hm : m = n
  · subst hm
    rw [qc_setQc, h]
  · rw [qc_setQc_ne _ _ hm]

theorem laneOn_wakes (c : QChan) (sent : List QmiCmd) (u w : Nat) :
    laneOn { c with lstate := if c.lstate = .sleep then .active else c.lstate, sent := sent, unacked := u, txWords := w } = laneOn c := by
  unfold laneOn
  by_cases h : c.lstate = .sleep <;> simp [h]

theorem sendCmd_lanes (s : State) (n : Nat) (c : QmiCmd) : SameLanes s (s.sendCmd n c) :=
  (setQc_lanes (laneOn_wakes _ _ _ _)).trans fun _ => rfl

theorem pumpList_lanes (n : Nat) (p : QmiCmd → Bool) (cs : List QmiCmd) (s : State) : SameLanes s (pumpList n p cs s) := by
  induction cs generalizing s with
  | nil => exact .refl s
  | cons c cs ih =>
    unfold State.pumpList
    split
    · exact ((setQc_lanes (c := { s.qc n with queue := (s.qc n).queue.erase c }) rfl).trans (sendCmd_lanes _ _ _)).trans (ih _)
    · exact ih s

theorem flushLane_lanes (s : State) (n k : Nat) (seq : BitVec 8) : SameLanes s (s.flushLane n k seq) := by
  unfold State.flushLane
  dsimp only
  split
  · exact .refl s
  · exact (setQc_lanes (c := { s.qc n with txWords := 0 }) rfl).trans (.of_med rfl)

theorem pump_lanes (s : State) (n : Nat) : SameLanes s (s.pump n) := by
  unfold State.pump
  exact ((pumpList_lanes _ _ _ _).trans ((pumpList_lanes _ _ _ _).trans (pumpList_lanes _ _ _ _))).trans (flushLane_lanes _ _ _ _)

theorem issue_lanes (s : State) (d : Nat) (c : QmiCmd) : SameLanes s (s.issue d c) :=
  (setQc_lanes (c := { s.qc (dieChan d) with queue := (s.qc (dieChan d)).queue ++ [{ c with die := Fin.ofNat 16 d, tag := s.freeTag (dieChan d) }] })
    rfl).trans (pump_lanes _ _)

theorem foldl_lanes {α : Type} (f : State → α → State) (h : ∀ s a, SameLanes s (f s a)) (l : List α) (s : State) : SameLanes s (l.foldl f s) := by
  induction l generalizing s with
  | nil => exact .refl s
  | cons a l ih => exact (h s a).trans (ih _)

/-- Sending takes no die down. -/
theorem dieUp_of {s t : State} (h : Sends s t) (k : SameLanes s t) (d : Nat) : t.dieUp d = s.dieUp d := by
  have hlane := k (dieChan d)
  unfold laneOn at hlane
  unfold State.dieUp
  dsimp only
  rw [h.die d, hlane]

/-- A die that is not the default one is in the table. -/
theorem mem_keys_of_get {α : Type} {d v : α} {t : Tab α} {k : Nat} (h : Tab.get d t k = v) (hv : v ≠ d) : k ∈ t.map Prod.fst := by
  induction t with
  | nil => exact absurd h.symm hv
  | cons e t ih =>
    obtain ⟨j, x⟩ := e
    by_cases hj : j = k
    · exact hj ▸ List.mem_cons_self ..
    · exact List.mem_cons_of_mem _ (ih ((if_neg hj).symm.trans h))

theorem mem_diesUp {s : State} {d : Nat} (h : s.dieUp d = true) : d ∈ s.diesUp := by
  refine List.mem_filter.2 ⟨mem_keys_of_get (d := ({} : Die)) rfl fun hd => ?_, h⟩
  have hdie : s.die d = {} := hd
  unfold State.dieUp at h
  rw [hdie] at h
  exact absurd h (by simp)

/-! ### Blanking (R116) -/

/-- What BLANK_LOW of a die says: an open mode of it is short of blanks. -/
def blanksLow (s : State) (d : Nat) : Bool := (s.openModes d).any fun m => s.blankShort d m

theorem blanksLow_of {s t : State} (hz : t.med.zones = s.med.zones) (hr : ∀ hi lo, t.fld Reg.TSL_BLANK_CFG 0 hi lo = s.fld Reg.TSL_BLANK_CFG 0 hi lo)
    (d : Nat) : blanksLow t d = blanksLow s d := by
  have hzone : t.zone = s.zone := by
    funext d z
    simp only [State.zone, hz]
  unfold blanksLow State.openModes State.blankShort State.modeZones
  rw [hzone]
  simp only [hr]

/-- Blanking a die takes none down. -/
theorem blankOne_dieUp (s : State) (d : Nat) (m : Mode) (x : Nat) : (s.blankOne d m).dieUp x = s.dieUp x := by
  unfold State.blankOne
  dsimp only
  split
  · rfl
  · exact (dieUp_of (foldl_sends _ (fun s _ => issue_sends s _ _) _ _) (foldl_lanes _ (fun s _ => issue_lanes s _ _) _ _) x).trans rfl

theorem blankAll_dieUp (d : Nat) (ms : List Mode) (s : State) (x : Nat) :
    (ms.foldl (fun s m => if s.blankShort d m then s.blankOne d m else s) s).dieUp x = s.dieUp x :=
  foldl_field (fun s : State => s.dieUp x) _ ms (fun s m => by
    split
    · exact blankOne_dieUp s d m x
    · rfl) s

/-- One die's BLANK_LOW is judged. -/
def judgeOne (s : State) (d : Nat) : State := if (s.die d).blankLow = blanksLow s d then s else s.setDie d { s.die d with blankLow := blanksLow s d }

theorem judgeOne_low (s : State) (d x : Nat) : blanksLow (judgeOne s d) x = blanksLow s x := by
  unfold judgeOne
  split
  · rfl
  · exact blanksLow_of rfl (fun _ _ => rfl) x

theorem judgeOne_same (s : State) (d : Nat) : ((judgeOne s d).die d).blankLow = blanksLow s d := by
  unfold judgeOne
  split
  case isTrue h => exact h
  case isFalse => rw [die_setDie]

theorem judgeOne_other (s : State) {d x : Nat} (h : x ≠ d) : (judgeOne s d).die x = s.die x := by
  unfold judgeOne
  split
  · rfl
  · exact die_setDie_ne _ _ h

theorem judgeAll_low (ds : List Nat) (s : State) (x : Nat) : blanksLow (ds.foldl judgeOne s) x = blanksLow s x :=
  foldl_field (fun s => blanksLow s x) judgeOne ds (fun s d => judgeOne_low s d x) s

/-- Once judged, a die stays so: the others' BLANK_LOW is none of its. -/
theorem judgeAll_stays (ds : List Nat) (s : State) {d : Nat} (h : (s.die d).blankLow = blanksLow s d) :
    ((ds.foldl judgeOne s).die d).blankLow = blanksLow s d := by
  induction ds generalizing s with
  | nil => exact h
  | cons x ds ih =>
    refine (ih (judgeOne s x) ?_).trans (judgeOne_low s x d)
    by_cases hx : d = x
    · subst hx
      rw [judgeOne_same, judgeOne_low]
    · rw [judgeOne_other _ hx, h, judgeOne_low]

theorem judgeAll_judged (ds : List Nat) (s : State) {d : Nat} (h : d ∈ ds) : ((ds.foldl judgeOne s).die d).blankLow = blanksLow s d := by
  induction ds generalizing s with
  | nil => exact absurd h List.not_mem_nil
  | cons x ds ih =>
    by_cases hx : d = x
    · subst hx
      exact (judgeAll_stays ds _ ((judgeOne_same s d).trans (judgeOne_low s d d).symm)).trans (judgeOne_low s d d)
    · exact (ih (judgeOne s x) ((List.mem_cons.1 h).resolve_left hx)).trans (judgeOne_low s x d)

theorem fld_judgeTsl (s : State) (hi lo : Nat) : s.judgeTsl.fld Reg.TSL_BLANK_CFG 0 hi lo = s.fld Reg.TSL_BLANK_CFG 0 hi lo := by
  have hlevel : ∀ (u : State) (i n m : Nat) (v : Bool), (u.level Reg.TSL_CAUSE 0 i n m v).fld Reg.TSL_BLANK_CFG 0 hi lo = u.fld Reg.TSL_BLANK_CFG 0 hi lo := by
    intro u i n m v
    have hset : (u.setBit Reg.TSL_CAUSE 0 i v).fld Reg.TSL_BLANK_CFG 0 hi lo = u.fld Reg.TSL_BLANK_CFG 0 hi lo :=
      congrArg (bitsOf · hi lo) (reg_setReg_ne _ _ (show Reg.at Reg.TSL_BLANK_CFG 0 ≠ Reg.at Reg.TSL_CAUSE 0 by decide))
    unfold State.level
    dsimp only
    split
    · exact (fld_raise _ _ _ (by decide) _ _ _).trans hset
    · split
      · exact hset
      · exact hset
  exact (hlevel _ _ _ _ _).trans ((hlevel _ _ _ _ _).trans ((hlevel _ _ _ _ _).trans (hlevel _ _ _ _ _)))

/-- After blanking BLANK_LOW of a die that is up follows what is left short. -/
theorem judged_low {s : State} {d : Nat} (h : s.dieUp d = true) :
    ((s.judgeBlank.judgeTsl).die d).blankLow = blanksLow s.judgeBlank.judgeTsl d := by
  have hjudged : (s.judgeBlank.die d).blankLow = blanksLow s d := judgeAll_judged s.diesUp s (mem_diesUp h)
  have hmed : s.judgeBlank.judgeTsl.med = s.judgeBlank.med := (judgeTsl_keeps _).med (by decide)
  rw [die_of_med hmed, hjudged, blanksLow_of (congrArg Medium.zones hmed) (fld_judgeTsl _)]
  exact (judgeAll_low s.diesUp s d).symm

/-! ### Passes (R160 to R166) -/

theorem pass_setPass (s : State) (g : Nat) (v : Pass) : (s.setPass g v).pass g = v := Tab.get_put_same _ _ _ _

theorem pass_of_med {s t : State} (h : t.med = s.med) (g : Nat) : t.pass g = s.pass g := by simp only [State.pass, h]

theorem endPass_pass (s : State) (g : Nat) : (s.endPass g).pass g =
    { s.pass g with running := false, late := false, lastDone := BitVec.ofNat 20 s.nowEpoch } := by
  have hmed : (s.endPass g).med = (s.setPass g { s.pass g with running := false, late := false, lastDone := BitVec.ofNat 20 s.nowEpoch }).med :=
    ((judgeTsl_keeps _).med (by decide)).trans (((cause_keeps _ _ _ _ _).med (by decide)).trans ((journal_keeps _ _).med (by decide)))
  rw [pass_of_med hmed, pass_setPass]

/-! ### Calibration and sweeps (R140 to R152) -/

theorem die_setCalDue (s : State) (d x : Nat) : (s.setDie d { s.die d with calDue := true }).die x =
    if x = d then { s.die d with calDue := true } else s.die x := by
  by_cases h : x = d
  · rw [if_pos h, h, die_setDie]
  · rw [if_neg h, die_setDie_ne _ _ h]

/-- A calibration is made due on each die of a list and on no other. -/
theorem calDue_all (ds : List Nat) (s : State) (x : Nat) : (ds.foldl (fun s d => s.setDie d { s.die d with calDue := true }) s).die x =
    if x ∈ ds then { s.die x with calDue := true } else s.die x := by
  induction ds generalizing s with
  | nil => exact (if_neg List.not_mem_nil).symm
  | cons d ds ih =>
    rw [List.foldl_cons, ih, die_setCalDue]
    by_cases hx : x = d
    · subst hx
      rw [if_pos rfl, if_pos (List.mem_cons_self ..)]
      split <;> rfl
    · rw [if_neg hx]
      by_cases hm : x ∈ ds
      · rw [if_pos hm, if_pos (List.mem_cons_of_mem _ hm)]
      · rw [if_neg hm, if_neg (by simp [hx, hm])]

/-- Making calibrations due touches the dies alone. -/
theorem calDue_eyb (ds : List Nat) (s : State) : (ds.foldl (fun s d => s.setDie d { s.die d with calDue := true }) s).med.eyb = s.med.eyb :=
  foldl_field (fun s : State => s.med.eyb) (fun s d => s.setDie d { s.die d with calDue := true }) ds (fun _ _ => rfl) s

/-- A sweep starts on a die that is up. -/
theorem startSweep_sweeps {s : State} {d : Nat} (h : s.dieUp d = true) : ((s.startSweep d).die d).sweep = true := by
  unfold State.startSweep
  rw [if_pos h, (foldl_sends _ (fun s n => sweepRead_sends s d n) _ _).die d, die_setDie]

/-! ### Yarrow's scans (R130 to R136) -/

/-- `t` is `s` with wear moves added at the end of Yarrow's queue. -/
def QueuesWear (s t : State) : Prop := ∃ l : List Work,
  t = s.setYrw { s.med.yarrow with queue := s.med.yarrow.queue ++ l } ∧ ∀ w ∈ l, ∃ p q, w.kind = .wear p q

theorem QueuesWear.refl (s : State) : QueuesWear s s := by
  refine ⟨[], ?_, fun _ h => absurd h List.not_mem_nil⟩
  rw [List.append_nil]
  rfl

theorem QueuesWear.trans {s t u : State} (h : QueuesWear s t) (k : QueuesWear t u) : QueuesWear s u := by
  obtain ⟨l, rfl, hl⟩ := h
  obtain ⟨m, rfl, hm⟩ := k
  refine ⟨l ++ m, ?_, fun w hw => (List.mem_append.1 hw).elim (hl w) (hm w)⟩
  show s.setYrw { s.med.yarrow with queue := (s.med.yarrow.queue ++ l) ++ m } = _
  rw [List.append_assoc]

theorem queueWork_wear (s : State) (n : Nat) (p q : Phys) : QueuesWear s (s.queueWork n (.wear p q)) := by
  unfold State.queueWork
  dsimp only
  split
  · exact .refl s
  · exact ⟨[{ lsett := n, kind := .wear p q }], rfl, fun w hw => ⟨p, q, by rw [List.mem_singleton.1 hw]⟩⟩

theorem queueWear_wear (s : State) (n : Nat) (q : Phys) : QueuesWear s (s.queueWear n q) := by
  unfold State.queueWear
  split
  · split
    · exact .refl s
    · exact queueWork_wear _ _ _ _
  · exact .refl s

theorem foldl_wear {α : Type} (f : State → α → State) (h : ∀ s a, QueuesWear s (f s a)) (l : List α) (s : State) : QueuesWear s (l.foldl f s) := by
  induction l generalizing s with
  | nil => exact .refl s
  | cons a l ih => exact (h s a).trans (ih _)

theorem wearScan_wear (s : State) (d : Nat) : QueuesWear s (s.wearScan d) := by
  have hsetts : QueuesWear s ((s.dieSetts d).foldl (fun s q =>
      if s.wornBeyond d q.2.wear then match s.dieSlot d q.2.mode fun _ => true with
        | some (z, k, _) => s.queueWear q.1 { die := d, zone := z, slot := k }
        | none => s
      else s) s) := by
    refine foldl_wear _ (fun s q => ?_) _ _
    split
    · split
      · exact queueWear_wear _ _ _
      · exact .refl s
    · exact .refl s
  unfold State.wearScan
  dsimp only
  split
  · exact hsetts
  · split
    · exact hsetts
    · split
      · exact hsetts.trans (queueWear_wear _ _ _)
      · exact hsetts

theorem balanceScan_wear (s : State) (n : Nat) : QueuesWear s (s.balanceScan n) := by
  unfold State.balanceScan
  dsimp only
  split
  · exact .refl s
  · refine foldl_wear _ (fun s d => ?_) _ _
    split
    · exact .refl s
    · split
      · exact .refl s
      · split
        · exact queueWear_wear _ _ _
        · exact .refl s

/-- What touches the flash alone gives the state with another flash. -/
theorem with_flash {s t : State} (h : Keeps [.flash] s t) : t = { s with flash := t.flash } := by
  have hp : ∀ p : Part, p ≠ .flash → p.same s t := fun p hp => h p (by simpa using hp)
  cases s
  cases t
  simp only [State.mk.injEq]
  exact ⟨hp .regs (by decide), hp .csr (by decide), hp .evt (by decide), hp .ecc (by decide), hp .tally (by decide), hp .sched (by decide),
    hp .nv (by decide), hp .evr (by decide), hp .wdg (by decide), trivial, hp .psq (by decide), hp .chans (by decide), hp .med (by decide),
    hp .bench (by decide), hp .xlt (by decide), hp .twin (by decide), hp .cxl (by decide), hp .rdma (by decide), hp .sec (by decide),
    hp .dram (by decide), hp .out (by decide), hp .fresh (by decide), hp .pending (by decide)⟩

/-- The vault's entries touch the flash alone. -/
theorem vaultPuts_keeps (ds : List Nat) (s : State) (k : Fin 4) (f : State → Nat → VaultData) :
    Keeps [.flash] s (ds.foldl (fun s d => s.vaultPut k (f s d)) s) :=
  Keeps.foldl _ (fun _ _ => vaultPut_keeps _ _ _) (Keeps.refl _ s)

/-! ### The spare (R134) -/

theorem judgeShort_med (s : State) : ∃ l, s.judgeShort.med = { s.med with yarrow := { s.med.yarrow with short := l } } := by
  have hput : ∀ l, (if l = s.med.yarrow.short then s else s.setYrw { s.med.yarrow with short := l }).med =
      { s.med with yarrow := { s.med.yarrow with short := l } } := fun l => by
    split
    case isTrue h => rw [h]
    case isFalse => rfl
  unfold State.judgeShort
  exact ⟨_, ((judgeYrw_keeps _).med (by decide)).trans (hput _)⟩

/-- Spare in basis points of the capacity a user can have. -/
def spareBpOf (sp : Int) (z : Nat) : Nat := if sp ≤ 0 ∨ z = 0 then 0 else min 65535 (sp.toNat * 10000 / z)

/-- The spare and the capacity state are computed anew, and of the medium what falls short besides. -/
theorem spareNow_med (s : State) : ∃ l, s.spareNow.med = { s.med with yarrow := { s.med.yarrow with
    cap := capOf (s.spareUnits 0) s.userUnits, spareBp := spareBpOf (s.spareUnits 0) s.userUnits, short := l } } := by
  unfold State.spareNow
  dsimp only
  have htail : ∀ u : State, ∃ l, (((u.judgeShort).judgeRed).noteHealth).med = { u.med with yarrow := { u.med.yarrow with short := l } } := fun u => by
    obtain ⟨l, hl⟩ := judgeShort_med u
    exact ⟨l, ((noteHealth_keeps _).med (by decide)).trans (((judgeRed_keeps _).med (by decide)).trans hl)⟩
  split
  · obtain ⟨l, hl⟩ := htail ((s.setYrw { s.med.yarrow with
      cap := capOf (s.spareUnits 0) s.userUnits, spareBp := spareBpOf (s.spareUnits 0) s.userUnits }).tsend false
        (.control (.capState (capOf (s.spareUnits 0) s.userUnits))))
    rw [(tsend_keeps _ _ _).med (by decide)] at hl
    exact ⟨l, hl⟩
  · exact htail _

theorem spareNow_cap (s : State) : s.spareNow.med.yarrow.cap = capOf (s.spareUnits 0) s.userUnits := by
  obtain ⟨l, hl⟩ := spareNow_med s
  rw [hl]

/-! ### The sweeper and commits -/

theorem mergePair_length (s : State) (d : Nat) (m : Mode) (gs : List Young) : (s.mergePair d m gs).length ≤ gs.length := by
  induction gs with
  | nil => exact le_refl _
  | cons a gs ih =>
    cases gs with
    | nil => exact le_refl _
    | cons b gs =>
      unfold State.mergePair
      split
      · simp
      · simpa using ih

theorem youngOf_setYoung (s : State) (n : Nat) (gs : List Young) : (s.setYoung n gs).youngOf n = gs := Tab.get_put_same _ _ _ _

/-- The sweeper leaves a sett no more generations than it had. -/
theorem youngSweep_length (s : State) (n : Nat) : ((s.youngSweep n).1.youngOf n).length ≤ (s.youngOf n).length := by
  unfold State.youngSweep
  dsimp only
  split
  · exact le_refl _
  · next p _ =>
    have hlen := mergePair_length s p.die (s.sett n).mode (s.youngOf n)
    split
    · next h => exact (congrArg List.length (youngOf_setYoung _ _ _)).trans_le hlen
    · next g rest h =>
      rw [h] at hlen
      split
      · exact (congrArg List.length (youngOf_setYoung _ _ _)).trans_le (by simp at hlen; omega)
      · exact (congrArg List.length (youngOf_setYoung _ _ _)).trans_le (by rw [h]; exact hlen)

/-- A rewrite in place that has verified, of a sett that is nowhere, commits. -/
theorem commitWork_refresh {s : State} {n : Nat} {m : Move} (hm : s.move n = some m) (hv : m.verified = BitVec.allOnes 256) (hj : s.jFull = false)
    (hk : m.kind = .refresh) (hd : m.dest = none) (hp : (s.sett n).phys = none) : s.commitWork n =
      (((((((s.moveCommit n).setScb n none).satisfyWork n).convCheck n).retireZones.spareNow).judgeOccupancy).writeDeadline).settleMed := by
  unfold State.commitWork
  rw [hm]
  dsimp only
  rw [if_neg (by simp [hv, hj]), hd, hk, hp]
  rfl

/-- Settles O17: command by command. -/
theorem teaselAndYarrow : Obligations.TeaselAndYarrow := by
  refine ⟨fun s d hm hb hu => ?_, fun s g hm he => ?_, fun s hm => ?_, fun s g levels hm hr hc => ?_, fun s g levels hm hr hc => ?_,
    fun s d ss fs hm hu hf => ?_, fun s d ss hm hu hf => ?_, fun s hm hsel hu => ?_, fun s hm hu => ?_, fun s d ss hm hsw => ?_,
    fun s u n hm hf hs hw => ?_, fun s n m hm hmv hv => ?_, fun s n m hm hmv hv hj hk hd hp => ?_, fun s u hm hw => ?_, fun s hm hw => ?_,
    fun s n hm => ?_, fun s hm => ?_, fun s n hm hy => ?_⟩
  · exact ⟨_, congrArg Host.Outcome.next (if_pos (by simp [hm, hb, hu])), judged_low ((blankAll_dieUp d _ s d).trans hu)⟩
  · exact ⟨_, congrArg Host.Outcome.next (if_pos (by simp [hm, he])), endPass_pass s g⟩
  · exact ⟨_, congrArg Host.Outcome.next (if_pos hm), rfl⟩
  · refine ⟨_, congrArg Host.Outcome.next ((if_neg (by simp [hm, hr])).trans (if_neg (by simp [hc]))), calDue_eyb _ _, fun d hd => ?_, fun d hd => ?_⟩
    · rw [calDue_all, if_pos hd]
    · rw [calDue_all, if_neg hd]
      rfl
  · exact ⟨_, congrArg Host.Outcome.next ((if_neg (by simp [hm, hr])).trans (if_pos hc)), _, rfl, rfl⟩
  · refine ⟨_, congrArg Host.Outcome.next (if_pos (by simp [hm, hu])), _, rfl, ?_⟩
    unfold State.calibrated
    dsimp only
    rw [hf]
    rfl
  · refine ⟨_, congrArg Host.Outcome.next (if_pos (by simp [hm, hu])), _, rfl, ?_⟩
    unfold State.calibrated
    dsimp only
    rw [hf]
    rfl
  · exact ⟨_, congrArg Host.Outcome.next (if_pos (by simp [hm, hsel])), startSweep_sweeps hu⟩
  · refine ⟨_, rfl, ?_⟩
    show (if s.psq.mainUp && decide (s.fld Reg.EYB_DIE_SEL 0 11 0 ≤ 2303) then s.startSweep (s.fld Reg.EYB_DIE_SEL 0 11 0) else s) = s
    split
    · exact if_neg (by simp [hu])
    · rfl
  · exact ⟨_, congrArg Host.Outcome.next (if_pos (by simp [hm, hsw])), _, rfl, rfl⟩
  · refine ⟨_, congrArg Host.Outcome.next (if_pos hm), ?_⟩
    rw [hf]
    dsimp only
    rw [hs, hw, if_neg Bool.false_ne_true, Option.getD_some]
  · refine ⟨_, congrArg Host.Outcome.next (if_pos hm), ?_⟩
    unfold State.commitWork
    rw [hmv]
    exact if_pos (by rw [bne_iff_ne.2 hv, Bool.true_or])
  · exact ⟨_, congrArg Host.Outcome.next (if_pos hm), commitWork_refresh hmv hv hj hk hd hp⟩
  · refine ⟨_, congrArg Host.Outcome.next (if_pos hm), ?_⟩
    unfold State.dispatchWork
    dsimp only
    rw [hw]
    rfl
  · refine ⟨_, congrArg Host.Outcome.next (if_pos hm), ?_⟩
    unfold State.dispatchWork
    dsimp only
    rw [hw]
    rfl
  · refine ⟨_, congrArg Host.Outcome.next (if_pos hm), ?_⟩
    obtain ⟨l, hl, hw⟩ := (foldl_wear _ (fun s d => wearScan_wear s d) ((s.chanDies n).filter fun d => s.dieUp d) s).trans (balanceScan_wear _ n)
    refine ⟨l, ?_, hw⟩
    rw [← hl]
    exact with_flash (vaultPuts_keeps _ _ 3 fun s d => .wear d s.nowEpoch)
  · exact ⟨_, congrArg Host.Outcome.next (if_pos hm), rfl, spareNow_cap _⟩
  · have hne : (s.youngOf n).isEmpty = false := by simpa using hy
    exact ⟨_, congrArg Host.Outcome.next (if_pos (by simp [hm, hne])), _, _, rfl, youngSweep_length s n, rfl⟩

end Sys2Proof.Keeping

/-! Yarrow's moves (R120 to R136), the sweeper's merge (R117) and PASS_NOW (R160): what a move that starts or commits leaves of setts, slots and queue. -/

namespace Sys2Proof.Moves

open Sys2Proof.Machine State Sys2Proof.Readings Sys2Proof.Lanes Sys2Proof.Keeping

theorem sett_of_med {s t : State} (h : t.med = s.med) (n : Nat) : t.sett n = s.sett n := by simp only [State.sett, h]

theorem move_of_med {s t : State} (h : t.med = s.med) (n : Nat) : t.move n = s.move n := by simp only [State.move, h]

theorem zone_of_med {s t : State} (h : t.med = s.med) (d z : Nat) : t.zone d z = s.zone d z := by simp only [State.zone, h]

theorem sett_setSett (s : State) (n : Nat) (v : Sett) : (s.setSett n v).sett n = v := Tab.get_put_same _ _ _ _

theorem sett_setSett_ne (s : State) {n k : Nat} (v : Sett) (h : k ≠ n) : (s.setSett n v).sett k = s.sett k := Tab.get_put_ne _ _ _ _ h

theorem zone_setZone (s : State) (d z : Nat) (v : Zone) : (s.setZone d z v).zone d z = v := Tab.get_put_same _ _ _ _

theorem journal_med (s : State) (k : JKey) : (s.journal k).med = s.med := (journal_keeps s k).med (by decide)

/-! ### Feeding a move (R121) -/

/-- What a step of a move that is fed leaves: the setts, the slots and the queue, and of the move its kind, its destination and whether its
source is spoiled. -/
structure Feeds (n : Nat) (s t : State) : Prop where
  setts : t.med.setts = s.med.setts
  zones : t.med.zones = s.med.zones
  queue : t.med.yarrow.queue = s.med.yarrow.queue
  move : (t.move n).map (fun m => (m.kind, m.dest, m.spoil)) = (s.move n).map fun m => (m.kind, m.dest, m.spoil)
  regs : t.regs = s.regs

theorem Feeds.refl (n : Nat) (s : State) : Feeds n s s := ⟨rfl, rfl, rfl, rfl, rfl⟩

theorem Feeds.trans {n : Nat} {s t u : State} (h : Feeds n s t) (k : Feeds n t u) : Feeds n s u :=
  ⟨k.setts.trans h.setts, k.zones.trans h.zones, k.queue.trans h.queue, k.move.trans h.move, k.regs.trans h.regs⟩

theorem Feeds.of_med {n : Nat} {s t : State} (h : t.med = s.med) (hr : t.regs = s.regs) : Feeds n s t := by
  refine ⟨by rw [h], by rw [h], by rw [h], ?_, hr⟩
  rw [move_of_med h]

theorem Feeds.of_keeps {w : List Part} {n : Nat} {s t : State} (h : Keeps w s t) (hm : Part.med ∉ w) (hr : Part.regs ∉ w) : Feeds n s t :=
  .of_med (h.med hm) (h.regs hr)

theorem Feeds.of_sends {n : Nat} {s t : State} (h : Sends s t) (hr : t.regs = s.regs) : Feeds n s t := by
  refine ⟨by rw [h.medium], by rw [h.medium], by rw [h.medium], ?_, hr⟩
  simp only [State.move]
  rw [h.medium]

theorem issue_feeds (n : Nat) (s : State) (d : Nat) (c : QmiCmd) : Feeds n s (s.issue d c) :=
  .of_sends (issue_sends _ _ _) ((issue_keeps _ _ _).regs (by decide))

theorem senseLine_feeds (n : Nat) (s : State) (x : Nat) (op : QmiOp) (d : Int) (u : QmiUser) : Feeds n s (s.senseLine x op d u) := by
  unfold State.senseLine
  dsimp only
  split
  · exact .refl n s
  · exact issue_feeds n _ _ _

theorem programLine_feeds (n : Nat) (s : State) (x : Nat) (p : Phys) (m : Mode) (g : BitVec 24) (l : BitVec 8) (d : Line) (u : QmiUser) :
    Feeds n s (s.programLine x p m g l d u) := issue_feeds n _ _ _

theorem setBline_feeds (n : Nat) (s : State) (x : Nat) (b : Option BLine) : Feeds n s (s.setBline x b) := .of_med rfl rfl

/-- The move of the sett that a move names is that one where there is one. -/
theorem move_setMove (s : State) (m : Move) : (s.setMove m).move m.lsett = (s.move m.lsett).map fun _ => m := by
  show (s.med.yarrow.moves.map fun x => if x.lsett == m.lsett then m else x).find? (fun x => x.lsett == m.lsett) =
    (s.med.yarrow.moves.find? fun x => x.lsett == m.lsett).map fun _ => m
  induction s.med.yarrow.moves with
  | nil => rfl
  | cons x l ih =>
    by_cases h : x.lsett = m.lsett
    · rw [List.map_cons, if_pos (by simp [h]), List.find?_cons_of_pos (by simp), List.find?_cons_of_pos (by simp [h])]
      rfl
    · rw [List.map_cons, if_neg (by simp [h]), List.find?_cons_of_neg (by simp [h]), List.find?_cons_of_neg (by simp [h]), ih]

theorem move_setMove_of {s : State} {n : Nat} {x m : Move} (h : s.move n = some x) (hl : m.lsett = n) : (s.setMove m).move n = some m := by
  subst hl
  rw [move_setMove, h]
  rfl

theorem move_lsett {s : State} {n : Nat} {m : Move} (h : s.move n = some m) : m.lsett = n := by
  have := List.find?_some h
  simpa using this

/-- Noting that a line of a move has been read. -/
theorem setRead_feeds {s : State} {n : Nat} {m : Move} (h : s.move n = some m) (v : BitVec 256) : Feeds n s (s.setMove { m with read := v }) := by
  have hl := move_lsett h
  refine ⟨rfl, rfl, rfl, ?_, rfl⟩
  have hmove := move_setMove s { m with read := v }
  subst hl
  rw [hmove, h]
  rfl

theorem moveProgram_feeds {s : State} {n : Nat} {m : Move} (h : s.move n = some m) (l : Nat) (d : Line) : Feeds n s (s.moveProgram m l d) := by
  unfold State.moveProgram
  extract_lets x e s0 s1 s2
  have h1 : Feeds n s s1 := by
    refine (setRead_feeds h (m.read ||| BitVec.twoPow 256 l)).trans (u := s1) ?_
    show Feeds n s0 s1
    unfold s1
    split
    · split
      · exact setBline_feeds n _ _ _
      · exact .refl n s0
    · exact .refl n s0
  have h2 : Feeds n s s2 := h1.trans (.of_keeps (pageWrite_keeps _ _ _) (by decide) (by decide))
  split
  · exact h2.trans (programLine_feeds n _ _ _ _ _ _ _ _)
  · split
    · exact h2.trans (programLine_feeds n _ _ _ _ _ _ _ _)
    · exact h2

theorem moveLine_feeds (s : State) (n l : Nat) : Feeds n s (s.moveLine n l) := by
  unfold State.moveLine
  split
  · exact .refl n s
  · next m h =>
    split
    · exact .refl n s
    · split
      · exact moveProgram_feeds h _ _
      · split
        · exact .refl n s
        · exact .refl n s
        · split
          · exact .refl n s
          · exact senseLine_feeds n _ _ _ _ _

theorem notePartial_feeds (n : Nat) (s : State) (x : Nat) : Feeds n s (s.notePartial x) :=
  .of_keeps (notePartial_keeps s x) (by decide) (by decide)

theorem mergeLine_feeds (s : State) (n x : Nat) : Feeds n s (s.mergeLine x) := by
  unfold State.mergeLine
  split
  · exact .refl n s
  · next b =>
    split
    · exact .refl n s
    · have hfull : ∀ v, Feeds n s ((s.setBline x v).notePartial x) := fun v => (setBline_feeds n _ _ _).trans (notePartial_feeds n _ _)
      dsimp only
      split
      · split
        · exact hfull _
        · exact .refl n s
      · split
        · exact hfull _
        · split
          · exact hfull _
          · exact hfull _
          · split
            · exact .refl n s
            · exact senseLine_feeds n _ _ _ _ _

theorem rewriteLine_feeds (s : State) (n l : Nat) : Feeds n s (s.rewriteLine n l) := by
  unfold State.rewriteLine
  split
  · exact .refl n s
  · next m h =>
    dsimp only
    split
    · exact .refl n s
    · split
      · split
        · exact mergeLine_feeds s n _
        · split
          · exact moveProgram_feeds h _ _
          · split
            · exact .refl n s
            · exact (setBline_feeds n _ _ _).trans (moveProgram_feeds (s := s.setBline _ _) h _ _)
          · exact .refl n s
      · split
        · exact .refl n s
        · exact senseLine_feeds n _ _ _ _ _

theorem foldl_feeds {α : Type} {n : Nat} (f : State → α → State) (h : ∀ s a, Feeds n s (f s a)) (l : List α) (s : State) : Feeds n s (l.foldl f s) := by
  induction l generalizing s with
  | nil => exact .refl n s
  | cons a l ih => exact (h s a).trans (ih _)

theorem moveFeed_feeds (s : State) (n : Nat) : Feeds n s (s.moveFeed n) := by
  unfold State.moveFeed
  split
  · exact .refl n s
  · split
    · exact .refl n s
    · split
      · exact foldl_feeds _ (fun s l => moveLine_feeds s n l) _ _
      · exact foldl_feeds _ (fun s i => rewriteLine_feeds s n _) _ _

/-! ### Starting a move -/

/-- The journal's causes are its own. -/
theorem bit_journal (s : State) (k : JKey) (b : Nat) : (s.journal k).bit Reg.YRW_CAUSE 0 b = s.bit Reg.YRW_CAUSE 0 b := by
  have hlevel : ∀ (u : State) (i n m : Nat) (v : Bool), (u.level Reg.XLT_CAUSE 0 i n m v).bit Reg.YRW_CAUSE 0 b = u.bit Reg.YRW_CAUSE 0 b := by
    intro u i n m v
    have hset : (u.setBit Reg.XLT_CAUSE 0 i v).bit Reg.YRW_CAUSE 0 b = u.bit Reg.YRW_CAUSE 0 b :=
      congrArg (BitVec.getLsbD · b) (reg_setReg_ne _ _ (show Reg.at Reg.YRW_CAUSE 0 ≠ Reg.at Reg.XLT_CAUSE 0 by decide))
    unfold State.level
    dsimp only
    split
    · exact (bit_raise _ _ _ (by decide) _ _).trans hset
    · split
      · exact hset
      · exact hset
  have hjudge : ∀ u : State, u.judgeXlt.bit Reg.YRW_CAUSE 0 b = u.bit Reg.YRW_CAUSE 0 b := fun u =>
    (hlevel _ _ _ _ _).trans ((hlevel _ _ _ _ _).trans ((hlevel _ _ _ _ _).trans ((hlevel _ _ _ _ _).trans ((hlevel _ _ _ _ _).trans
      (hlevel _ _ _ _ _)))))
  unfold State.journal
  refine (hjudge _).trans ?_
  split
  · exact bit_of_regs (Keeps.regs (Keeps.foldl _ (fun _ _ => journalPart_keeps _ _ _) (Keeps.refl _ s)) (by decide)) _ _ _
  · exact bit_of_regs (Keeps.regs (Keeps.foldl _ (fun _ _ => journalPart_keeps _ _ _) (Keeps.refl _ s)) (by decide)) _ _ _

/-- A slot that is taken is allocated; of setts and work nothing changes. -/
theorem takeSlot_takes (s : State) (p : Phys) (m : Mode) : (s.takeSlot p m).1.med.setts = s.med.setts ∧
    (s.takeSlot p m).1.med.yarrow = s.med.yarrow ∧ (slotInfo ((s.takeSlot p m).1.zone p.die p.zone) p.slot).alloc = true ∧
    ∀ b, (s.takeSlot p m).1.bit Reg.YRW_CAUSE 0 b = s.bit Reg.YRW_CAUSE 0 b := by
  unfold State.takeSlot
  extract_lets v change v1 ladder old v2 n mine med0 s0 qc0 s1 s2 die2 s3
  have h2 : s2.med.setts = s.med.setts ∧ s2.med.yarrow = s.med.yarrow ∧ s2.med.zones = s1.med.zones ∧ s2.regs = s.regs := by
    unfold s2
    split
    · refine ⟨?_, ?_, ?_, (issue_keeps _ _ _).regs (by decide)⟩ <;> rw [(issue_sends s1 _ _).medium] <;> rfl
    · exact ⟨rfl, rfl, rfl, rfl⟩
  have h3 : s3.med.setts = s2.med.setts ∧ s3.med.yarrow = s2.med.yarrow ∧ s3.med.zones = s2.med.zones ∧ s3.regs = s2.regs := by
    unfold s3
    split <;> exact ⟨rfl, rfl, rfl, rfl⟩
  obtain ⟨hs2, hy2, hz2, hr2⟩ := h2
  obtain ⟨hs3, hy3, hz3, hr3⟩ := h3
  have hmed : ((s3.journal (.free p.die p.zone p.slot)).journal (.zone p.die p.zone)).med = s3.med := (journal_med _ _).trans (journal_med _ _)
  have hzone : s3.zone p.die p.zone = { v2 with state := zoneState v2 } := by
    have hz : s3.zone p.die p.zone = s1.zone p.die p.zone := by simp only [State.zone, hz3, hz2]
    rw [hz]
    exact zone_setZone _ _ _ _
  have hbit : ∀ b, s3.bit Reg.YRW_CAUSE 0 b = s.bit Reg.YRW_CAUSE 0 b := fun b => bit_of_regs (hr3.trans hr2) _ _ _
  clear_value s3 v1 old
  dsimp only
  rw [hmed, zone_of_med hmed, hzone]
  exact ⟨hs3.trans hs2, hy3.trans hy2, congrArg SlotInfo.alloc (Tab.get_put_same (slotDefault v1) v1.slots p.slot { alloc := true, wear := old.wear }),
    fun b => by rw [bit_journal, bit_journal, hbit]⟩

/-- A sett's work is entered in the table of moves, with its destination and rotation, and fed. -/
def entered (s : State) (n : Nat) (e : Sett) (mv : Move) : State :=
  let s3 := s.putSett n e
  (s3.setYrw { s3.med.yarrow with moves := s3.med.yarrow.moves ++ [mv] }).moveFeed n

/-- What entering a move leaves. -/
theorem entered_enters {s : State} {n : Nat} (e : Sett) {mv : Move} (hm : s.move n = none) (hn : mv.lsett = n) :
    (entered s n e mv).sett n = e ∧ (entered s n e mv).med.yarrow.queue = s.med.yarrow.queue ∧
    ((entered s n e mv).move n).map (fun m => (m.kind, m.dest, m.spoil)) = some (mv.kind, mv.dest, mv.spoil) ∧
    (entered s n e mv).med.zones = s.med.zones ∧ ∀ b, (entered s n e mv).bit Reg.YRW_CAUSE 0 b = s.bit Reg.YRW_CAUSE 0 b := by
  unfold entered
  extract_lets s3
  have hput : s3.med = (s.setSett n e).med := journal_med _ _
  have hbit : ∀ b, s3.bit Reg.YRW_CAUSE 0 b = s.bit Reg.YRW_CAUSE 0 b := fun b => bit_journal _ _ b
  clear_value s3
  have hf := moveFeed_feeds (s3.setYrw { s3.med.yarrow with moves := s3.med.yarrow.moves ++ [mv] }) n
  generalize hs4 : s3.setYrw { s3.med.yarrow with moves := s3.med.yarrow.moves ++ [mv] } = s4 at hf
  have hm4 : s4.med = { s3.med with yarrow := { s3.med.yarrow with moves := s3.med.yarrow.moves ++ [mv] } } := by rw [← hs4]; rfl
  have hr4 : s4.regs = s3.regs := by rw [← hs4]; rfl
  refine ⟨?_, hf.queue.trans ?_, hf.move.trans ?_, hf.zones.trans ?_, fun b => ?_⟩
  · simp only [State.sett, hf.setts, hm4, hput]
    exact sett_setSett _ _ _
  · rw [hm4, hput]
    rfl
  · simp only [State.move, hm4, hput]
    show ((s.med.yarrow.moves ++ [mv]).find? fun m => m.lsett == n).map _ = _
    rw [List.find?_append, show s.med.yarrow.moves.find? (fun m => m.lsett == n) = none from hm]
    simp [hn]
  · rw [hm4, hput]
    rfl
  · rw [bit_of_regs hf.regs, bit_of_regs hr4, hbit]

theorem moveStart_dest (s : State) (n : Nat) (k : WorkKind) (q : Phys) (mode : Mode) : s.moveStart n k (some q) mode =
    entered (s.takeSlot q mode).1.draw n { s.sett n with mig := migOf k (some q) }
      { lsett := n, kind := k, dest := some q, mode := mode, lrot := ((s.takeSlot q mode).1.drawLrot (s.sett n)).2 } := by
  unfold State.moveStart State.drawLrot entered
  dsimp only

theorem moveStart_rewrite (s : State) (n : Nat) (k : WorkKind) (mode : Mode) : s.moveStart n k none mode =
    entered s n { s.sett n with mig := migOf k none } { lsett := n, kind := k, dest := none, mode := mode, lrot := (s.sett n).lrot } := rfl

/-- A move to a destination that starts: the sett is at work, its destination taken, the move in the table. -/
theorem moveStart_takes {s : State} {n : Nat} (hm : s.move n = none) (k : WorkKind) (q : Phys) (mode : Mode) :
    (s.moveStart n k (some q) mode).sett n = { s.sett n with mig := migOf k (some q) } ∧
    (s.moveStart n k (some q) mode).med.yarrow.queue = s.med.yarrow.queue ∧
    ((s.moveStart n k (some q) mode).move n).map (fun m => (m.kind, m.dest, m.spoil)) = some (k, some q, false) ∧
    (slotInfo ((s.moveStart n k (some q) mode).zone q.die q.zone) q.slot).alloc = true ∧
    ∀ b, (s.moveStart n k (some q) mode).bit Reg.YRW_CAUSE 0 b = s.bit Reg.YRW_CAUSE 0 b := by
  obtain ⟨-, ht2, ht3, ht4⟩ := takeSlot_takes s q mode
  rw [moveStart_dest]
  generalize (s.takeSlot q mode).1 = u at ht2 ht3 ht4
  have hmove : u.draw.move n = none := by
    show u.med.yarrow.moves.find? _ = none
    rw [ht2]
    exact hm
  obtain ⟨he1, he2, he3, he4, he5⟩ := entered_enters { s.sett n with mig := migOf k (some q) }
    (mv := { lsett := n, kind := k, dest := some q, mode := mode, lrot := (u.drawLrot (s.sett n)).2 }) hmove rfl
  refine ⟨he1, he2.trans (congrArg Yarrow.queue ht2), he3, ?_, fun b => (he5 b).trans (ht4 b)⟩
  have hz : ∀ v : State, v.med.zones = u.med.zones → v.zone q.die q.zone = u.zone q.die q.zone := fun v h => by simp only [State.zone, h]
  rw [hz _ he4, ht3]

/-- The emergency remap of an idle sett: the sett in remap, its source marked, the destination taken, the work off the queue, the cause up. -/
theorem workBegin_remap {s : State} {n : Nat} (q : Phys) (m : Mode) (hm : s.move n = none) (hi : (s.sett n).mig = .idle) :
    ((s.workBegin { lsett := n, kind := .remap } (some q) m).sett n) = { s.sett n with mig := .remap } ∧
    ((s.workBegin { lsett := n, kind := .remap } (some q) m).move n).map (fun m => (m.kind, m.dest, m.spoil)) = some (.remap, some q, true) ∧
    (slotInfo ((s.workBegin { lsett := n, kind := .remap } (some q) m).zone q.die q.zone) q.slot).alloc = true ∧
    (s.workBegin { lsett := n, kind := .remap } (some q) m).med.yarrow.queue = s.med.yarrow.queue.erase { lsett := n, kind := .remap } ∧
    (s.workBegin { lsett := n, kind := .remap } (some q) m).bit Reg.YRW_CAUSE 0 9 = true := by
  obtain ⟨s1, h1⟩ : ∃ s1, s1 = (s.unqueue { lsett := n, kind := .remap }).cause Reg.YRW_CAUSE 0 9 156 := ⟨_, rfl⟩
  have hmed1 : s1.med = (s.unqueue { lsett := n, kind := .remap }).med := by
    rw [h1]
    exact (cause_keeps _ _ _ _ _).med (by decide)
  have hbit1 : s1.bit Reg.YRW_CAUSE 0 9 = true := by
    rw [h1]
    exact bit_cause_same _ _ _ (by decide) _ _ (by decide)
  have hmove1 : s1.move n = none := by
    simp only [State.move, hmed1]
    exact hm
  have hsett1 : s1.sett n = s.sett n := sett_of_med hmed1 n
  have hdisplace : s1.displace n = s1 := by
    unfold State.displace State.moveRequeue
    rw [hmove1]
    dsimp only
    rw [hsett1, hi]
  obtain ⟨s2, h2⟩ : ∃ s2, s2 = s1.journal (.remapIntent n q.die q.zone q.slot) := ⟨_, rfl⟩
  have hmed2 : s2.med = s1.med := by
    rw [h2]
    exact journal_med _ _
  have hmove2 : s2.move n = none := by
    simp only [State.move, hmed2]
    exact hmove1
  obtain ⟨he1, he2, he3, he4, he5⟩ := moveStart_takes hmove2 .remap q m
  generalize h3 : s2.moveStart n .remap (some q) m = s3 at he1 he2 he3 he4 he5
  obtain ⟨mv, hmv, hkind⟩ := Option.map_eq_some_iff.1 he3
  have hl := move_lsett hmv
  have hu : s.workBegin { lsett := n, kind := .remap } (some q) m = s3.setMove { mv with spoil := true } := by
    unfold State.workBegin State.workCause
    dsimp only
    rw [← h1, hdisplace, ← h2, h3, hmv]
    rfl
  rw [hu]
  simp only [Prod.mk.injEq] at hkind
  obtain ⟨hk, hd, -⟩ := hkind
  refine ⟨?_, ?_, ?_, ?_, ?_⟩
  · show s3.sett n = _
    rw [he1, sett_of_med hmed2, hsett1]
    rfl
  · rw [move_setMove_of (m := { mv with spoil := true }) hmv hl]
    show some (mv.kind, mv.dest, true) = _
    rw [hk, hd]
  · exact he4
  · show s3.med.yarrow.queue = _
    rw [he2, hmed2, hmed1]
    rfl
  · show s3.bit Reg.YRW_CAUSE 0 9 = true
    rw [he5, h2, bit_journal, hbit1]

/-- A refresh in place begins. -/
theorem workBegin_refresh {s : State} {n : Nat} (m : Mode) (hm : s.move n = none) :
    ((s.workBegin { lsett := n, kind := .refresh } none m).sett n) = { s.sett n with mig := .rewrite } ∧
    ((s.workBegin { lsett := n, kind := .refresh } none m).move n).map (fun m => (m.kind, m.dest)) = some (.refresh, none) ∧
    (s.workBegin { lsett := n, kind := .refresh } none m).med.yarrow.queue = s.med.yarrow.queue.erase { lsett := n, kind := .refresh } := by
  obtain ⟨s1, h1⟩ : ∃ s1, s1 = s.unqueue { lsett := n, kind := .refresh } := ⟨_, rfl⟩
  have hmove1 : s1.move n = none := by rw [h1]; exact hm
  obtain ⟨he1, he2, he3, -, -⟩ := entered_enters { s1.sett n with mig := migOf .refresh none }
    (mv := { lsett := n, kind := .refresh, dest := none, mode := m, lrot := (s1.sett n).lrot }) hmove1 rfl
  rw [← moveStart_rewrite] at he1 he2 he3
  obtain ⟨mv, hmv, hkind⟩ := Option.map_eq_some_iff.1 he3
  have hu : s.workBegin { lsett := n, kind := .refresh } none m = s1.moveStart n .refresh none m := by
    unfold State.workBegin State.workCause
    dsimp only
    rw [← h1, hmv]
    rfl
  rw [hu]
  refine ⟨?_, ?_, ?_⟩
  · rw [he1, h1]
    rfl
  · rw [hmv]
    simp only [Prod.mk.injEq] at hkind
    obtain ⟨hk, hd, -⟩ := hkind
    show some (mv.kind, mv.dest) = _
    rw [hk, hd]
  · rw [he2, h1]
    rfl

/-! ### Commits (R123) -/

theorem journalYoung_med (s : State) (n : Nat) (old : List Young) : (s.journalYoung n old).med = s.med :=
  foldl_field State.med _ _ (fun s _ => journal_med s _) s

/-- A slot that is left is free, with the wear and the spoiling given. -/
theorem leaveSlot_leaves (s : State) (p : Phys) (wear : BitVec 16) (spoil : Bool) : (s.leaveSlot p wear spoil).med.setts = s.med.setts ∧
    (s.leaveSlot p wear spoil).med.yarrow = s.med.yarrow ∧
    slotInfo ((s.leaveSlot p wear spoil).zone p.die p.zone) p.slot =
      { alloc := false, spoil := spoil || (slotInfo (s.zone p.die p.zone) p.slot).spoil, wear := wear } := by
  unfold State.leaveSlot
  extract_lets v v1 s1
  have hmed : (s1.journal (.zone p.die p.zone)).med = (s.setZone p.die p.zone { v1 with state := zoneState v1 }).med :=
    (journal_med _ _).trans (journal_med _ _)
  rw [hmed, zone_of_med hmed, zone_setZone]
  exact ⟨rfl, rfl, Tab.get_put_same (slotDefault v) v.slots p.slot _⟩

theorem setBand_bands (s : State) (n first last : Nat) : (s.setBand n first last).sett n = { s.sett n with
      band := true, bandOld := BitVec.ofNat 20 (first / 4096), oldOfs := BitVec.ofNat 12 (first % 4096)
      bandNew := BitVec.ofNat 20 (last / 4096), newOfs := BitVec.ofNat 12 (last % 4096), young := false } ∧
    (s.setBand n first last).med.yarrow = s.med.yarrow ∧ (s.setBand n first last).med.zones = s.med.zones :=
  ⟨sett_setSett _ _ _, rfl, rfl⟩

/-- What a commit leaves of a move to a destination. -/
theorem moveCommit_moves {s : State} {n : Nat} {m : Move} {p q : Phys} (hm : s.move n = some m) (hd : m.dest = some q) (hp : (s.sett n).phys = some p) :
    (∃ w f, (s.moveCommit n).sett n = { s.sett n with
        phys := some q, lrot := m.lrot, mode := m.mode, mig := .idle, spoilPending := false, wear := w, band := true, young := false
        bandOld := BitVec.ofNat 20 (f / 4096), oldOfs := BitVec.ofNat 12 (f % 4096)
        bandNew := BitVec.ofNat 20 (m.last.toNat / 4096), newOfs := BitVec.ofNat 12 (m.last.toNat % 4096) }) ∧
    (s.moveCommit n).move n = none ∧ slotInfo ((s.moveCommit n).zone p.die p.zone) p.slot = {
      alloc := false, spoil := m.spoil || (s.sett n).spoilPending || (slotInfo (s.zone p.die p.zone) p.slot).spoil, wear := (s.sett n).wear } := by
  obtain ⟨hl1, hl2, hl3⟩ := leaveSlot_leaves s p (s.sett n).wear (m.spoil || (s.sett n).spoilPending)
  unfold State.moveCommit
  rw [hm]
  dsimp only
  rw [hd, hp]
  dsimp only
  generalize s.leaveSlot p (s.sett n).wear (m.spoil || (s.sett n).spoilPending) = s1 at hl1 hl2 hl3
  have hclean : ∀ (ls : List Nat) (u : State), (ls.foldl (fun s l => match s.bline (lineOf n l) with
      | some b => if b.state == .wb && !s.ownProgram (lineOf n l) then
          s.setBline (lineOf n l) (some { b with state := if b.redirty then .dirty else .clean, redirty := false }) else s
      | none => s) u).med = u.med := fun ls u => foldl_field State.med _ ls (fun s l => by
    split
    · split <;> rfl
    · rfl) u
  generalize (m.first.getD s.sNow).toNat = f
  generalize (slotInfo (s1.zone q.die q.zone) q.slot).wear = w
  generalize he : ({ s.sett n with
    phys := some q, lrot := m.lrot, mode := m.mode, mig := .idle, spoilPending := false, wear := w } : Sett) = e1
  obtain ⟨hb1, hb2, hb3⟩ := setBand_bands (s1.putSett n e1) n f m.last.toNat
  have hput : (s1.putSett n e1).med = (s1.setSett n e1).med := journal_med _ _
  have hsett : (s1.putSett n e1).sett n = e1 := (sett_of_med hput n).trans (sett_setSett _ _ _)
  generalize (s1.putSett n e1).setBand n f m.last.toNat = s2 at hb1 hb2 hb3
  have hy : ((s2.journal (.bandOfs n)).journalYoung n (s1.youngOf n)).med = s2.med := (journalYoung_med _ _ _).trans (journal_med _ _)
  generalize (s2.journal (.bandOfs n)).journalYoung n (s1.youngOf n) = s3 at hy
  refine ⟨⟨w, f, (sett_of_med (hclean (List.range 256) _) n).trans ?_⟩, (move_of_med (hclean (List.range 256) _) n).trans ?_,
    (congrArg (slotInfo · p.slot) (zone_of_med (hclean (List.range 256) _) p.die p.zone)).trans ?_⟩
  · show s3.sett n = _
    rw [sett_of_med hy, hb1, hsett, ← he]
  · refine List.find?_eq_none.2 fun x hx => ?_
    have := (List.mem_filter.1 hx).2
    simpa using this
  · show slotInfo (s3.zone p.die p.zone) p.slot = _
    rw [zone_of_med hy]
    have hz : s2.zone p.die p.zone = s1.zone p.die p.zone := by
      simp only [State.zone, hb3, hput]
      rfl
    rw [hz, hl3]

/-- A move with a destination that has verified, neither remap nor rebuild nor resync, with no remap asked of its sett. -/
theorem commitWork_moves {s : State} {n : Nat} {m : Move} {p : Phys} (hm : s.move n = some m) (hv : m.verified = BitVec.allOnes 256)
    (hj : s.jFull = false) (hp : (s.sett n).phys = some p) (h1 : m.kind ≠ .remap) (h2 : m.kind ≠ .resync)
    (h3 : ∀ b, m.kind ≠ .rebuild b) (hq : ({ lsett := n, kind := .remap } : Work) ∉ s.med.yarrow.queue) : s.commitWork n =
      (((((((s.moveCommit n).setScb n none).satisfyWork n).convCheck n).foldLog p.die).retireZones.spareNow).judgeOccupancy).writeDeadline.settleMed := by
  have hany : (s.med.yarrow.queue.any fun w => w.lsett == n && w.kind == .remap) = false := by
    refine List.any_eq_false.2 fun w hw hc => hq ?_
    obtain ⟨hl, hk⟩ := Bool.and_eq_true_iff.1 hc
    obtain ⟨l, k⟩ := w
    cases eq_of_beq hl
    cases eq_of_beq hk
    exact hw
  unfold State.commitWork
  rw [hm]
  dsimp only
  rw [if_neg (by simp [hv, hj]), hany, Bool.and_false, if_neg Bool.false_ne_true, hp]
  cases hk : m.kind with
  | remap => exact absurd hk h1
  | resync => exact absurd hk h2
  | rebuild b => exact absurd hk (h3 b)
  | _ => rfl

/-! ### Dispatch (R122) -/

theorem workOrder_refresh {s : State} {n : Nat} (hq : s.med.yarrow.queue = [{ lsett := n, kind := .refresh }]) (hr : s.med.rebuild = []) :
    s.workOrder = [{ lsett := n, kind := .refresh }] := by
  unfold State.workOrder
  dsimp only
  rw [hq, hr]
  rfl

theorem workOrder_none {s : State} (hq : s.med.yarrow.queue = []) (hr : s.med.rebuild = []) : s.workOrder = [] := by
  unfold State.workOrder
  dsimp only
  rw [hq, hr]
  rfl

/-- What is not satisfied stays in the queue. -/
theorem dropSatisfied_one {s : State} {w : Work} (hq : s.med.yarrow.queue = [w]) (hs : s.satisfied w = false) : s.dropSatisfied = s := by
  have hfilter : s.med.yarrow.queue.filter (fun w => !s.satisfied w) = s.med.yarrow.queue := by
    rw [hq]
    simp [hs]
  unfold State.dropSatisfied
  rw [hfilter]
  rfl

/-- A refresh of an idle sett on a die that is up, not worn beyond, starts its rewrite in place. -/
theorem startWork_refresh {s : State} {n : Nat} {p : Phys} (hm : s.psq.mainUp = true) (hq : s.med.yarrow.queue = [{ lsett := n, kind := .refresh }])
    (hp : (s.sett n).phys = some p) (hu : s.dieUp p.die = true) (hi : (s.sett n).mig = .idle) (hv : s.move n = none) (hj : s.jFull = false)
    (hc : s.chunkLoaded n = true) (hw : s.wornBeyond p.die (s.sett n).wear = false) :
    s.startWork { lsett := n, kind := .refresh } = some (s.workBegin { lsett := n, kind := .refresh } none (s.sett n).mode) := by
  have hdest : s.workDest { lsett := n, kind := .refresh } p = some (none, (s.sett n).mode) := by
    unfold State.workDest
    dsimp only
    rw [hm, hw, hq]
    simp
  unfold State.startWork
  dsimp only
  rw [hp]
  dsimp only
  rw [hi, hv, hj, hc, hu, hdest, show s.workRuns .refresh = true by unfold State.workRuns; rw [if_pos hm]; rfl]
  rfl

/-- A remap of an idle sett on a die that is up, with a slot for it on its channel, starts. -/
theorem startWork_remap {s : State} {n : Nat} {p q : Phys} (hm : s.psq.mainUp = true)
    (hp : (s.sett n).phys = some p) (hu : s.dieUp p.die = true) (hi : (s.sett n).mig = .idle) (hv : s.move n = none) (hj : s.jFull = false)
    (hc : s.chunkLoaded n = true) (hs : s.chanSlot (State.dieChan p.die) (s.sett n).mode (fun _ _ => true) (fun _ => false) = some q) :
    s.startWork { lsett := n, kind := .remap } = some (s.workBegin { lsett := n, kind := .remap } (some q) (s.sett n).mode) := by
  have hdest : s.workDest { lsett := n, kind := .remap } p = some (some q, (s.sett n).mode) := by
    unfold State.workDest
    dsimp only
    rw [hs]
    rfl
  unfold State.startWork
  dsimp only
  rw [hp]
  dsimp only
  rw [hi, hv, hj, hc, hu, hdest, show s.workRuns .remap = true by unfold State.workRuns; rw [if_pos hm]; rfl]
  rfl

/-! ### The wear scan (R131) -/

theorem vaultPuts_med (ds : List Nat) (s : State) : (ds.foldl (fun s d => s.vaultPut 3 (.wear d s.nowEpoch)) s).med = s.med :=
  (vaultPuts_keeps ds s 3 fun s d => .wear d s.nowEpoch).med (by decide)

/-- With one die a channel has no other to balance with. -/
theorem balanceScan_one {s : State} {n d : Nat} (hd : ((s.chanDies n).filter fun d => s.dieUp d) = [d]) (hf : 4 ≤ s.fld Reg.YRW_CFG 0 23 16) :
    s.balanceScan n = s := by
  have hle : (s.dieTotals d).1 * 4 * (s.dieTotals d).2 ≤ s.fld Reg.YRW_CFG 0 23 16 * (s.dieTotals d).1 * (s.dieTotals d).2 := by
    rw [Nat.mul_comm (s.fld Reg.YRW_CFG 0 23 16)]
    exact Nat.mul_le_mul_right _ (Nat.mul_le_mul_left _ hf)
  unfold State.balanceScan
  dsimp only
  rw [hd, List.foldl_cons, List.foldl_nil, Nat.zero_add, Nat.zero_add]
  split
  · rfl
  · rw [List.foldl_cons, List.foldl_nil, if_pos (.inr hle)]

/-- The queue is not what a die's slots and dies are read from. -/
theorem mostWornFree_setYrw (s : State) (y : Yarrow) (d : Nat) : (s.setYrw y).mostWornFree d = s.mostWornFree d := rfl

/-- The first half of a die's scan: its setts on slots worn beyond the mean. -/
def settScan (s : State) (d : Nat) (l : List (Nat × Sett)) : State := l.foldl (fun s q =>
  if s.wornBeyond d q.2.wear then match s.dieSlot d q.2.mode fun _ => true with
    | some (z, k, _) => s.queueWear q.1 { die := d, zone := z, slot := k }
    | none => s
  else s) s

/-- The second half: a cold sett for its most worn free slot. -/
def slotScan (s : State) (d : Nat) : State := match s.mostWornFree d with
  | none => s
  | some (p, w, m) => if !s.wornBeyond d w then s else match s.coldSett d m with
    | some n => s.queueWear n p
    | none => s

theorem wearScan_halves (s : State) (d : Nat) : s.wearScan d = slotScan (settScan s d (s.dieSetts d)) d := rfl

theorem slotScan_none {s : State} {d : Nat} (h : s.mostWornFree d = none) : slotScan s d = s := by
  unfold slotScan
  rw [h]

/-- A sett worn beyond the mean, the only one of its die, with a slot its die gives: a wear move is queued. -/
theorem wearScan_queues {s : State} {d k z i : Nat} {w : BitVec 16} {p : Phys} (hs : s.dieSetts d = [(k, s.sett k)]) (hp : (s.sett k).phys = some p)
    (hw : s.wornBeyond d (s.sett k).wear = true) (hslot : s.dieSlot d (s.sett k).mode (fun _ => true) = some (z, i, w)) (hm : s.move k = none)
    (hq : ∀ x ∈ s.med.yarrow.queue, x.lsett ≠ k) (hf : s.mostWornFree d = none) : s.wearScan d = s.setYrw { s.med.yarrow with
      queue := s.med.yarrow.queue ++ [{ lsett := k, kind := .wear { die := d, zone := z, slot := i } p }] } := by
  have hnone : ∀ f : Work → Bool, (s.med.yarrow.queue.any fun w => w.lsett == k && f w) = false := fun f =>
    List.any_eq_false.2 fun x hx hc => hq x hx (eq_of_beq (Bool.and_eq_true_iff.1 hc).1)
  have hqueue : s.queueWear k { die := d, zone := z, slot := i } = s.setYrw { s.med.yarrow with
      queue := s.med.yarrow.queue ++ [{ lsett := k, kind := .wear { die := d, zone := z, slot := i } p }] } := by
    unfold State.queueWear State.queueWork
    rw [hp, hm]
    dsimp only
    rw [hnone, hnone]
    rfl
  have hscan : settScan s d (s.dieSetts d) = s.queueWear k { die := d, zone := z, slot := i } := by
    unfold settScan
    rw [hs, List.foldl_cons, List.foldl_nil, if_pos hw, hslot]
  rw [wearScan_halves, hscan, hqueue]
  exact slotScan_none hf

/-- Where nothing is worn beyond the mean the scan queues nothing. -/
theorem wearScan_nothing {s : State} {d : Nat} (hs : ∀ q ∈ s.dieSetts d, s.wornBeyond d q.2.wear = false)
    (hf : ∀ x, s.mostWornFree d = some x → s.wornBeyond d x.2.1 = false) : s.wearScan d = s := by
  have hfold : ∀ l : List (Nat × Sett), (∀ q ∈ l, s.wornBeyond d q.2.wear = false) → settScan s d l = s := by
    intro l hl
    induction l with
    | nil => rfl
    | cons q l ih =>
      unfold settScan
      rw [List.foldl_cons, if_neg (by rw [hl q (List.mem_cons_self ..)]; decide)]
      exact ih fun x hx => hl x (List.mem_cons_of_mem _ hx)
  rw [wearScan_halves, hfold _ hs]
  unfold slotScan
  split
  · rfl
  · next p w m hx => exact if_pos (by rw [hf _ hx]; rfl)

/-! ### Retired zones (R134) -/

theorem setZone_zone_med (s : State) (d z : Nat) (v : Zone) : (s.setZone d z v).med = { s.med with zones := Tab.put {} s.med.zones (d * 64 + z) v } := rfl

/-- No zone that is pinned, none retires. -/
theorem retireZones_none {s : State} (h : ∀ p ∈ s.med.zones, (s.zone (p.1 / 64) (p.1 % 64)).state ≠ .pinned) : s.retireZones = s := by
  unfold State.retireZones
  generalize s.med.zones = l at h
  induction l with
  | nil => rfl
  | cons p l ih =>
    rw [List.foldl_cons]
    dsimp only
    rw [if_pos (by rw [bne_iff_ne.2 (h p (List.mem_cons_self ..)), Bool.true_or])]
    exact ih fun x hx => h x (List.mem_cons_of_mem _ hx)

/-- The one zone, pinned with a quarter of its slots spoiled and nothing in it, retires. -/
theorem retireZones_one {s : State} {d z : Nat} {v : Zone} (hz : z < 64) (hs : s.med.zones = [(d * 64 + z, v)]) (hp : v.state = .pinned)
    (hq : slotCap v.mode ≤ 4 * (v.slots.filter fun q => q.2.spoil).length) (ha : (v.slots.any fun q => q.2.alloc && !q.2.reserved) = false) :
    s.retireZones = (s.setZone d z { v with state := .retired }).journal (.zone d z) := by
  have hv : s.zone d z = v := by
    unfold State.zone
    rw [hs]
    exact if_pos rfl
  unfold State.retireZones
  rw [hs, List.foldl_cons, List.foldl_nil]
  dsimp only
  rw [show (d * 64 + z) / 64 = d by omega, show (d * 64 + z) % 64 = z by omega, hv, if_neg (by simp [hp]; exact hq), ha, if_neg Bool.false_ne_true]

theorem spareNow_zone (s : State) (d z : Nat) : s.spareNow.zone d z = s.zone d z := by
  obtain ⟨l, hl⟩ := spareNow_med s
  simp only [State.zone, hl]

/-! ### The sweeper (R117) -/

theorem youngOf_of_med {s t : State} (h : t.med = s.med) (n : Nat) : t.youngOf n = s.youngOf n := by simp only [State.youngOf, h]

/-- The one generation of a sett merges into its bands where the span allows. -/
theorem youngSweep_merges {s : State} {n : Nat} {p : Phys} {g : Young} (hy : s.youngOf n = [g]) (hp : (s.sett n).phys = some p)
    (hw : withinSpan (s.sett n).mode (256 * s.age p.die (s.bandStamps (s.sett n)).1) (s.youngAge p.die g.tLast) = true) :
    s.youngSweep n = (((s.setYoung n [g]).setYoung n []).setSett n { s.sett n with
      bandNew := BitVec.ofNat 20 (g.tLast.toNat / 256 / 4096), newOfs := BitVec.ofNat 12 (g.tLast.toNat / 256 % 4096), young := false }, true) := by
  unfold State.youngSweep
  dsimp only
  rw [hp]
  dsimp only
  rw [hy, show s.mergePair p.die (s.sett n).mode [g] = [g] from rfl]
  exact if_pos hw

theorem youngSweep_leaves {s : State} {n : Nat} {p : Phys} {g : Young} (hy : s.youngOf n = [g]) (hp : (s.sett n).phys = some p)
    (hw : withinSpan (s.sett n).mode (256 * s.age p.die (s.bandStamps (s.sett n)).1) (s.youngAge p.die g.tLast) = false) :
    s.youngSweep n = (s.setYoung n [g], false) := by
  unfold State.youngSweep
  dsimp only
  rw [hp]
  dsimp only
  rw [hy, show s.mergePair p.die (s.sett n).mode [g] = [g] from rfl]
  exact if_neg (by simp [hw])

/-- Generations that are as they were journal nothing. -/
theorem journalYoung_same {s : State} {n : Nat} {old : List Young} (h : s.youngOf n = old) : s.journalYoung n old = s := by
  unfold State.journalYoung
  dsimp only
  rw [h, List.filter_eq_nil_iff.2 (fun w _ => by simp)]
  rfl

/-! ### PASS_NOW (R160) -/

/-- Groups and the dies' being up stay, and of the passes all but `g`'s; that one stays running with nothing marked. -/
structure Walks (g : Nat) (s t : State) : Prop where
  groups : t.med.groups = s.med.groups
  others : ∀ h, h ≠ g → t.pass h = s.pass h
  running : (t.pass g).running = (s.pass g).running
  marked : (t.pass g).marked = (s.pass g).marked

theorem Walks.refl (g : Nat) (s : State) : Walks g s s := ⟨rfl, fun _ _ => rfl, rfl, rfl⟩

theorem Walks.trans {g : Nat} {s t u : State} (h : Walks g s t) (k : Walks g t u) : Walks g s u :=
  ⟨k.groups.trans h.groups, fun x hx => (k.others x hx).trans (h.others x hx), k.running.trans h.running, k.marked.trans h.marked⟩

theorem Walks.of_passes {g : Nat} {s t : State} (hg : t.med.groups = s.med.groups) (hp : t.med.passes = s.med.passes) : Walks g s t := by
  have h : ∀ x, t.pass x = s.pass x := fun x => by simp only [State.pass, hp]
  exact ⟨hg, fun x _ => h x, by rw [h], by rw [h]⟩

theorem Walks.of_med {g : Nat} {s t : State} (h : t.med = s.med) : Walks g s t := .of_passes (by rw [h]) (by rw [h])

theorem issue_walks (g : Nat) (s : State) (d : Nat) (c : QmiCmd) : Walks g s (s.issue d c) :=
  .of_passes (by rw [(issue_sends s d c).medium]) (by rw [(issue_sends s d c).medium])

theorem senseLine_walks (g : Nat) (s : State) (x : Nat) (op : QmiOp) (d : Int) (u : QmiUser) : Walks g s (s.senseLine x op d u) := by
  unfold State.senseLine
  dsimp only
  split
  · exact .refl g s
  · exact issue_walks g _ _ _

theorem foldl_walks {α : Type} {g : Nat} (f : State → α → State) (h : ∀ s a, Walks g s (f s a)) (l : List α) (s : State) : Walks g s (l.foldl f s) := by
  induction l generalizing s with
  | nil => exact .refl g s
  | cons a l ih => exact (h s a).trans (ih _)

theorem queueRefresh_walks (g : Nat) (s : State) (n : Nat) : Walks g s (s.queueRefresh n) := by
  unfold State.queueRefresh
  split
  · exact .refl g s
  · refine Walks.trans (t := s.queueWork n .refresh) ?_ (.of_med ((bump_keeps _ _ _ _ _ _).med (by decide)))
    unfold State.queueWork
    dsimp only
    split
    · exact .refl g s
    · exact .of_passes rfl rfl

theorem noteJudge_walks (g : Nat) (s : State) (j : MarginJudge) : Walks g s (s.setMed { s.med with judges := s.med.judges ++ [j] }) := .of_passes rfl rfl

theorem setMap_walks (g : Nat) (s : State) (m : MapArea) : Walks g s (s.setMap m) := .of_med rfl

theorem visit_walks (g : Nat) (s : State) (v : Visit) : Walks g s (s.visit v) := by
  cases v with
  | sett n =>
    show Walks g s (s.visitSett n)
    unfold State.visitSett
    dsimp only
    split
    · exact .refl g s
    · refine Walks.trans (s := s) (g := g) ?_ (foldl_walks _ (fun s l => ?_) _ _)
      · split
        · exact queueRefresh_walks g s n
        · exact .refl g s
      · exact ((noteJudge_walks g s _).trans (senseLine_walks g _ _ _ _ _)).trans (senseLine_walks g _ _ _ _ _)
  | maps d =>
    show Walks g s (s.visitMaps d)
    unfold State.visitMaps
    exact foldl_walks _ (fun s u => foldl_walks _ (fun s f =>
      ((setMap_walks g s _).trans (issue_walks g _ _ _)).trans (issue_walks g _ _ _)) _ _) _ _

theorem setPass_walks {g : Nat} (s : State) (v : Pass) (hr : v.running = (s.pass g).running) (hm : v.marked = (s.pass g).marked) :
    Walks g s (s.setPass g v) :=
  ⟨rfl, fun _ h => Tab.get_put_ne _ _ _ _ h, by rw [pass_setPass, hr], by rw [pass_setPass, hm]⟩

theorem passNext_walks (g k : Nat) (s : State) : Walks g s (s.passNext g k) := by
  induction k generalizing s with
  | zero => exact .refl g s
  | succ k ih =>
    have hset : ∀ o a c, Walks g s (s.setPass g { s.pass g with order := o, again := a, cur := c }) := fun _ _ _ => setPass_walks s _ rfl rfl
    have hat : ∀ o a c, Walks g s (s.passAt g { s.pass g with order := o, again := a, cur := c }) := fun o a c =>
      (hset o a c).trans (.of_med (journal_med _ _))
    unfold State.passNext
    dsimp only
    split
    · exact .refl g s
    · split
      · exact .refl g s
      · split
        · split
          · exact (hat _ _ _).trans (visit_walks g _ _)
          · exact (hset _ _ _).trans (ih _)
        · split
          · exact (hat _ _ _).trans (visit_walks g _ _)
          · exact (hset _ _ _).trans (ih _)
        · split
          · exact hat _ _ _
          · exact .refl g s

theorem passRun_walks (s : State) (g : Nat) : Walks g s (s.passRun g) := passNext_walks g _ s

/-- A pass that starts runs with nothing marked; the groups and the other passes are as they were. -/
theorem startPass_starts (s : State) (g : Nat) : (s.startPass g).med.groups = s.med.groups ∧ (∀ h, h ≠ g → (s.startPass g).pass h = s.pass h) ∧
    ((s.startPass g).pass g).running = true ∧ ((s.startPass g).pass g).marked = [] := by
  have key : ∀ (v : Pass) (ds : Tab Die) (t : State), v.running = true → v.marked = [] →
      t = ((s.setPass g v).setMed { (s.setPass g v).med with dies := ds }).passRun g → t.med.groups = s.med.groups ∧
        (∀ h, h ≠ g → t.pass h = s.pass h) ∧ (t.pass g).running = true ∧ (t.pass g).marked = [] := by
    intro v ds t hr hm ht
    have hset : ((s.setPass g v).setMed { (s.setPass g v).med with dies := ds }).pass g = v := Tab.get_put_same _ _ _ _
    obtain ⟨h1, h2, h3, h4⟩ := passRun_walks ((s.setPass g v).setMed { (s.setPass g v).med with dies := ds }) g
    rw [hset] at h3 h4
    subst ht
    exact ⟨h1, fun h hne => (h2 h hne).trans (Tab.get_put_ne _ _ _ _ hne), h3.trans hr, h4.trans hm⟩
  exact key _ _ _ rfl rfl rfl

/-- A pass that runs, or whose group is out of service, is not started. -/
theorem passNow_idle {s : State} {g : Nat} (h : (s.qg g).inService = false ∨ (s.pass g).running = true) : s.passNow g = s := by
  unfold State.passNow
  exact if_neg (by rcases h with h | h <;> simp [h])

/-- Where one group alone can start, PASS_NOW starts its pass. -/
theorem passNow_one {s : State} {g : Nat} {l : List Nat} (hg : g ∈ l) (hb : s.bit Reg.TSL_CTRL 0 0 = true) (hi : (s.qg g).inService = true)
    (hr : (s.pass g).running = false) (ho : ∀ h ∈ l, h ≠ g → (s.qg h).inService = false ∨ (s.pass h).running = true) :
    l.foldl (fun s g => s.passNow g) s = s.startPass g := by
  obtain ⟨hgroups, hothers, hrunning, -⟩ := startPass_starts s g
  have hstart : s.passNow g = s.startPass g := if_pos (by simp [hi, hr, hb])
  have hafter : ∀ h ∈ l, (s.startPass g).passNow h = s.startPass g := by
    intro h hh
    refine passNow_idle ?_
    by_cases hne : h = g
    · exact .inr (hne ▸ hrunning)
    · rw [hothers h hne, show (s.startPass g).qg h = s.qg h by simp only [State.qg, hgroups]]
      exact ho h hh hne
  have hstays : ∀ m : List Nat, (∀ h ∈ m, h ∈ l) → m.foldl (fun s g => s.passNow g) (s.startPass g) = s.startPass g := by
    intro m hm
    induction m with
    | nil => rfl
    | cons h m ih =>
      rw [List.foldl_cons, hafter h (hm h (List.mem_cons_self ..))]
      exact ih fun x hx => hm x (List.mem_cons_of_mem _ hx)
  have hreach : ∀ m : List Nat, (∀ h ∈ m, h ∈ l) → g ∈ m → m.foldl (fun s g => s.passNow g) s = s.startPass g := by
    intro m hm hgm
    induction m with
    | nil => exact absurd hgm List.not_mem_nil
    | cons h m ih =>
      have htail : ∀ x ∈ m, x ∈ l := fun x hx => hm x (List.mem_cons_of_mem _ hx)
      rw [List.foldl_cons]
      by_cases hne : h = g
      · rw [hne, hstart]
        exact hstays m htail
      · rw [passNow_idle (ho h (hm h (List.mem_cons_self ..)) hne)]
        exact ih htail ((List.mem_cons.1 hgm).resolve_left (Ne.symm hne))
  exact hreach l (fun _ h => h) hg

theorem passNow_disabled {s : State} (hb : s.bit Reg.TSL_CTRL 0 0 = false) (l : List Nat) : l.foldl (fun s g => s.passNow g) s = s := by
  induction l with
  | nil => rfl
  | cons g l ih =>
    rw [List.foldl_cons, show s.passNow g = s from if_neg (by simp [hb]), ih]

theorem find_of_mem {l : List Work} {n : Nat} {k : WorkKind} (h : { lsett := n, kind := k } ∈ l) :
    (l.find? fun w => w.lsett == n && w.kind == k) = some { lsett := n, kind := k } := by
  cases hf : l.find? fun w => w.lsett == n && w.kind == k with
  | none => exact absurd (List.find?_eq_none.1 hf _ h) (by simp)
  | some w =>
    have hw : (w.lsett == n && w.kind == k) = true := List.find?_some (p := fun w : Work => w.lsett == n && w.kind == k) hf
    obtain ⟨hl, hk⟩ := Bool.and_eq_true_iff.1 hw
    rw [← eq_of_beq hl, ← eq_of_beq hk]

/-- Settles O51: move by move. -/
theorem yarrowMoves : Obligations.YarrowMoves := by
  refine ⟨fun s n p q hm hq hp hu hi hv hj hc hs => ?_, fun s n m p q hm hj hmv hv hd hp h1 h2 h3 hq => ?_,
    fun s n p hm hpw hq hr hp hu hi hv hj hc hw => ?_, fun s n p q hm hq hr hp hne => ?_,
    fun s n d k z i w p hm hd hs hp hw hslot hmv hq hf h4 => ?_, fun s n d hm hd hs hf h4 => ?_, fun s hm hz => ?_,
    fun s d z v hm hz hs hp hq ha => ?_, fun s n p g hm hy hp hw => ?_, fun s n p g hm hy hp hw => ?_, fun s g hm h9 hb hi hr ho => ?_,
    fun s hm hb => ?_⟩
  · obtain ⟨h1, h2, h3, h4, h5⟩ := workBegin_remap q (s.sett n).mode hv hi
    have hsat : s.satisfied { lsett := n, kind := .remap } = false := by
      unfold State.satisfied
      dsimp only
      rw [hp]
    refine ⟨_, congrArg Host.Outcome.next (if_pos hm), _, rfl, by rw [h1], by rw [h1]; exact hp, h2, h3, h4, h5, ?_⟩
    rw [find_of_mem hq]
    dsimp only
    rw [hsat, startWork_remap hm hp hu hi hv hj hc hs, if_neg Bool.false_ne_true, Option.getD_some]
  · obtain ⟨⟨w, f, hsett⟩, hmove, hslot⟩ := moveCommit_moves hmv hd hp
    exact ⟨_, congrArg Host.Outcome.next (if_pos hm), _, rfl, by rw [hsett], by rw [hsett], by rw [hsett], by rw [hsett], by rw [hsett], by rw [hsett],
      hmove, by rw [hslot], by rw [hslot], by rw [hslot], commitWork_moves hmv hv hj hp h1 h2 h3 hq⟩
  · obtain ⟨h1, h2, h3⟩ := workBegin_refresh (s.sett n).mode hv
    have hsat : s.satisfied { lsett := n, kind := .refresh } = false := by
      unfold State.satisfied
      dsimp only
      rw [hp]
    refine ⟨_, congrArg Host.Outcome.next (if_pos hm), _, rfl, by rw [h1], by rw [h1]; exact hp, h2, ?_, ?_⟩
    · rw [h3, hq]
      simp
    · unfold State.dispatchWork
      dsimp only
      rw [dropSatisfied_one hq hsat, workOrder_refresh hq hr, List.findSome?_cons, startWork_refresh hpw hq hp hu hi hv hj hc hw]
      dsimp only
      rw [Option.getD_some]
  · refine ⟨_, congrArg Host.Outcome.next (if_pos hm), ?_⟩
    have hsat : s.satisfied { lsett := n, kind := .onset q } = true := by
      unfold State.satisfied
      dsimp only
      rw [hp]
      show (p != q) = true
      exact bne_iff_ne.2 hne
    have hdrop : s.dropSatisfied = s.setYrw { s.med.yarrow with queue := [] } := by
      unfold State.dropSatisfied
      rw [hq, List.filter_cons_of_neg (by simp [hsat])]
      rfl
    unfold State.dispatchWork
    rw [hdrop]
    dsimp only
    rw [workOrder_none (s := s.setYrw { s.med.yarrow with queue := [] }) rfl hr]
    rfl
  · refine ⟨_, congrArg Host.Outcome.next (if_pos hm), ?_⟩
    dsimp only
    have hscan := wearScan_queues hs hp hw hslot hmv hq hf
    have hbalance : (s.wearScan d).balanceScan n = s.wearScan d := by
      rw [hscan]
      exact balanceScan_one (s := s.setYrw { s.med.yarrow with
        queue := s.med.yarrow.queue ++ [{ lsett := k, kind := .wear { die := d, zone := z, slot := i } p }] }) hd h4
    rw [vaultPuts_med, hd, List.foldl_cons, List.foldl_nil, hbalance, hscan]
    rfl
  · refine ⟨_, congrArg Host.Outcome.next (if_pos hm), ?_⟩
    dsimp only
    rw [vaultPuts_med, hd, List.foldl_cons, List.foldl_nil, wearScan_nothing hs hf, balanceScan_one hd h4]
  · obtain ⟨l, hl⟩ := spareNow_med s
    refine ⟨_, congrArg Host.Outcome.next (if_pos hm), ?_⟩
    rw [retireZones_none hz]
    dsimp only
    rw [hl]
    exact ⟨rfl, rfl, rfl, rfl, rfl, rfl⟩
  · refine ⟨_, congrArg Host.Outcome.next (if_pos hm), ?_⟩
    rw [retireZones_one hz hs hp hq ha]
    exact (spareNow_zone _ d z).trans ((zone_of_med (journal_med _ _) d z).trans (zone_setZone _ _ _ _))
  · have hne : (s.youngOf n).isEmpty = false := by rw [hy]; rfl
    have hsweep := youngSweep_merges hy hp hw
    have hmed : ((((s.youngSweep n).1.journalYoung n [g]).journal (.entry n)).journal (.bandOfs n)).med = (s.youngSweep n).1.med := by
      rw [journal_med, journal_med, journalYoung_med]
    refine ⟨_, congrArg Host.Outcome.next (if_pos (by simp [hm, hne])), _, rfl, ?_, ?_, fun k hk => ?_, ?_⟩
    · rw [youngOf_of_med hmed, hsweep]
      exact youngOf_setYoung (s.setYoung n [g]) n []
    · rw [sett_of_med hmed, hsweep]
      exact sett_setSett _ _ _
    · rw [sett_of_med hmed, hsweep]
      exact sett_setSett_ne _ _ hk
    · rw [hsweep, hy]
      dsimp only
      rw [if_pos rfl]
  · have hne : (s.youngOf n).isEmpty = false := by rw [hy]; rfl
    have hsweep := youngSweep_leaves hy hp hw
    have hmed : ((s.youngSweep n).1.journal (.entry n)).med = (s.setYoung n [g]).med := by rw [journal_med, hsweep]
    refine ⟨_, congrArg Host.Outcome.next (if_pos (by simp [hm, hne])), _, rfl, ?_, fun k => ?_, ?_⟩
    · rw [youngOf_of_med hmed, youngOf_setYoung]
    · rw [sett_of_med hmed]
      rfl
    · rw [hsweep, hy]
      dsimp only
      rw [journalYoung_same (youngOf_setYoung s n [g]), if_neg Bool.false_ne_true]
  · obtain ⟨hgroups, hothers, hrunning, hmarked⟩ := startPass_starts s g
    refine ⟨_, congrArg Host.Outcome.next (if_pos hm), _, rfl, hrunning, hmarked, hothers, ?_⟩
    rw [passNow_one (List.mem_range.2 h9) hb hi hr fun h hh hne => ho h (List.mem_range.1 hh) hne]
  · refine ⟨_, congrArg Host.Outcome.next (if_pos hm), ?_⟩
    rw [passNow_disabled hb]

end Sys2Proof.Moves

/-! What work on the medium leaves: the groups, and of each die whether it has failed, is identified, is used and has its tables. Reads, writes,
moves, dissolved buffers and drains move lines and setts and send commands; none of them makes or unmakes a die. -/

namespace Sys2Proof.Steady

open Sys2Proof.Machine State Sys2Proof.Readings Sys2Proof.Lanes Sys2Proof.Moves

/-- A die stands as it did. -/
def sameDie (v w : Die) : Prop := w.failed = v.failed ∧ w.identified = v.identified ∧ w.used = v.used ∧ w.tables = v.tables

/-- From `s` to `t` the groups are as they were and every die stands as it did. -/
structure Holds (s t : State) : Prop where
  groups : t.med.groups = s.med.groups
  die : ∀ d, sameDie (s.die d) (t.die d)

theorem sameDie.refl (v : Die) : sameDie v v := ⟨rfl, rfl, rfl, rfl⟩

theorem sameDie_ladder (v : Die) (b : Bool) : sameDie v { v with ladderDue := b } := ⟨rfl, rfl, rfl, rfl⟩

theorem sameDie.trans {u v w : Die} (h : sameDie u v) (k : sameDie v w) : sameDie u w := by
  obtain ⟨h1, h2, h3, h4⟩ := h
  obtain ⟨k1, k2, k3, k4⟩ := k
  exact ⟨k1.trans h1, k2.trans h2, k3.trans h3, k4.trans h4⟩

theorem Holds.refl (s : State) : Holds s s := ⟨rfl, fun _ => .refl _⟩

theorem Holds.trans {s t u : State} (h : Holds s t) (k : Holds t u) : Holds s u :=
  ⟨k.groups.trans h.groups, fun d => (h.die d).trans (k.die d)⟩

theorem Holds.of_parts {s t : State} (hg : t.med.groups = s.med.groups) (hd : t.med.dies = s.med.dies) : Holds s t :=
  ⟨hg, fun d => by
    have : t.die d = s.die d := by simp only [State.die, hd]
    rw [this]
    exact .refl _⟩

theorem Holds.of_med {s t : State} (h : t.med = s.med) : Holds s t := .of_parts (by rw [h]) (by rw [h])

/-- What does not touch the medium. -/
theorem Holds.of_keeps {w : List Part} {s t : State} (h : Keeps w s t) (hm : Part.med ∉ w) : Holds s t := .of_med (h.med hm)

theorem Holds.of_sends {s t : State} (h : Sends s t) : Holds s t := by
  refine ⟨by rw [h.medium], fun d => ?_⟩
  rw [h.die d]
  exact .refl _

theorem Holds.foldl {α : Type} {s t : State} {f : State → α → State} (l : List α) (hf : ∀ u a, Holds u (f u a)) (h : Holds s t) :
    Holds s (l.foldl f t) := by
  induction l generalizing t with
  | nil => exact h
  | cons a l ih => exact ih (h.trans (hf t a))

theorem Holds.ite {s t u : State} {c : Prop} [Decidable c] (h : Holds s t) (k : Holds s u) : Holds s (if c then t else u) := by
  split
  · exact h
  · exact k

theorem setDie_holds {s : State} {d : Nat} {v : Die} (h : sameDie (s.die d) v) : Holds s (s.setDie d v) := by
  refine ⟨rfl, fun x => ?_⟩
  by_cases hx : x = d
  · subst hx
    rw [die_setDie]
    exact h
  · rw [die_setDie_ne _ _ hx]
    exact .refl _

/-! ### Lines and commands -/

theorem setBline_holds (s : State) (x : Nat) (b : Option BLine) : Holds s (s.setBline x b) := .of_med rfl

theorem setBench_holds (s : State) (b : Bench) : Holds s (s.setBench b) := .of_med rfl

theorem setMap_holds (s : State) (m : MapArea) : Holds s (s.setMap m) := .of_med rfl

theorem setQc_holds (s : State) (n : Nat) (c : QChan) : Holds s (s.setQc n c) := .of_parts rfl rfl

theorem setXlt_holds (s : State) (x : Xlt) : Holds s (s.setXlt x) := .of_med rfl

theorem setYrw_holds (s : State) (y : Yarrow) : Holds s (s.setYrw y) := .of_parts rfl rfl

theorem setSett_holds (s : State) (n : Nat) (v : Sett) : Holds s (s.setSett n v) := .of_parts rfl rfl

theorem setZone_holds (s : State) (d z : Nat) (v : Zone) : Holds s (s.setZone d z v) := .of_parts rfl rfl

theorem issue_holds (s : State) (d : Nat) (c : QmiCmd) : Holds s (s.issue d c) := .of_sends (issue_sends s d c)

theorem journal_holds (s : State) (k : JKey) : Holds s (s.journal k) := .of_keeps (journal_keeps s k) (by decide)

theorem notePartial_holds (s : State) (x : Nat) : Holds s (s.notePartial x) := .of_keeps (notePartial_keeps s x) (by decide)

theorem touch_holds (s : State) (x : Nat) : Holds s (s.touch x) := .of_keeps (touch_keeps s x) (by decide)

theorem cause_holds (s : State) (r : Reg) (k b n : Nat) : Holds s (s.cause r k b n) := .of_keeps (cause_keeps s r k b n) (by decide)

theorem bump_holds (s : State) (r : Reg) (k hi lo n : Nat) : Holds s (s.bump r k hi lo n) := .of_keeps (bump_keeps s r k hi lo n) (by decide)

theorem senseLine_holds (s : State) (x : Nat) (op : QmiOp) (d : Int) (u : QmiUser) : Holds s (s.senseLine x op d u) := by
  unfold State.senseLine
  dsimp only
  split
  · exact .refl s
  · exact issue_holds _ _ _

theorem programLine_holds (s : State) (x : Nat) (p : Phys) (m : Mode) (g : BitVec 24) (l : BitVec 8) (d : Line) (u : QmiUser) :
    Holds s (s.programLine x p m g l d u) := issue_holds _ _ _

theorem mergeLine_holds (s : State) (x : Nat) : Holds s (s.mergeLine x) := by
  have hfull : ∀ v, Holds s ((s.setBline x v).notePartial x) := fun v => (setBline_holds _ _ _).trans (notePartial_holds _ _)
  unfold State.mergeLine
  split
  · exact .refl s
  · split
    · exact .refl s
    · dsimp only
      split
      · split
        · exact hfull _
        · exact .refl s
      · split
        · exact hfull _
        · split
          · exact hfull _
          · exact hfull _
          · split
            · exact .refl s
            · exact senseLine_holds _ _ _ _ _

/-! ### Moves -/

theorem moveProgram_holds (s : State) (m : Move) (l : Nat) (d : Line) : Holds s (s.moveProgram m l d) := by
  have hread : ∀ v : Option BLine, Holds s ((s.setMove { m with read := m.read ||| BitVec.twoPow 256 l }).setBline (lineOf m.lsett l) v) :=
    fun v => (setYrw_holds _ _).trans (setBline_holds _ _ _)
  have hset : Holds s (s.setMove { m with read := m.read ||| BitVec.twoPow 256 l }) := setYrw_holds _ _
  have hpage : ∀ t, Holds s t → ∀ x d, Holds s (t.pageWrite x d) := fun t h x d => h.trans (.of_keeps (pageWrite_keeps _ _ _) (by decide))
  unfold State.moveProgram
  dsimp only
  split
  · refine (hpage _ ?_ _ _).trans (programLine_holds _ _ _ _ _ _ _ _)
    split
    · split
      · exact hread _
      · exact hset
    · exact hset
  · split
    · refine (hpage _ ?_ _ _).trans (programLine_holds _ _ _ _ _ _ _ _)
      split
      · split
        · exact hread _
        · exact hset
      · exact hset
    · refine hpage _ ?_ _ _
      split
      · split
        · exact hread _
        · exact hset
      · exact hset

theorem moveLine_holds (s : State) (n l : Nat) : Holds s (s.moveLine n l) := by
  unfold State.moveLine
  split
  · exact .refl s
  · split
    · exact .refl s
    · split
      · exact moveProgram_holds _ _ _ _
      · split
        · exact .refl s
        · exact .refl s
        · split
          · exact .refl s
          · exact senseLine_holds _ _ _ _ _

theorem rewriteLine_holds (s : State) (n l : Nat) : Holds s (s.rewriteLine n l) := by
  unfold State.rewriteLine
  split
  · exact .refl s
  · dsimp only
    split
    · exact .refl s
    · split
      · split
        · exact mergeLine_holds _ _
        · split
          · exact moveProgram_holds _ _ _ _
          · split
            · exact .refl s
            · exact (setBline_holds _ _ _).trans (moveProgram_holds _ _ _ _)
          · exact .refl s
      · split
        · exact .refl s
        · exact senseLine_holds _ _ _ _ _

theorem moveFeed_holds (s : State) (n : Nat) : Holds s (s.moveFeed n) := by
  unfold State.moveFeed
  split
  · exact .refl s
  · split
    · exact .refl s
    · split
      · exact .foldl _ (fun u l => moveLine_holds u n l) (.refl s)
      · exact .foldl _ (fun u i => rewriteLine_holds u n _) (.refl s)

theorem putSett_holds (s : State) (n : Nat) (v : Sett) : Holds s (s.putSett n v) := (setSett_holds _ _ _).trans (journal_holds _ _)

theorem takeSlot_holds (s : State) (p : Phys) (m : Mode) : Holds s (s.takeSlot p m).1 := by
  unfold State.takeSlot
  extract_lets v change v1 ladder old v2 n mine med0 s0 qc0 s1 s2 die2 s3
  have h1 : Holds s s1 := .of_parts rfl rfl
  have h2 : Holds s s2 := by
    unfold s2
    split
    · exact h1.trans (issue_holds _ _ _)
    · exact h1
  have h3 : Holds s s3 := by
    have hdie : sameDie (s2.die p.die) die2 := .refl _
    unfold s3
    clear_value s2 die2
    split
    · exact h2.trans (setDie_holds (hdie.trans (sameDie_ladder die2 true)))
    · exact h2
  clear_value s3 old
  dsimp only
  exact (h3.trans (journal_holds s3 _)).trans (journal_holds _ _)

theorem draw_holds (s : State) : Holds s s.draw := .of_med rfl

theorem entered_holds (s : State) (n : Nat) (e : Sett) (mv : Move) : Holds s (entered s n e mv) := by
  unfold entered
  exact ((putSett_holds _ _ _).trans (setYrw_holds _ _)).trans (moveFeed_holds _ _)

theorem moveStart_holds (s : State) (n : Nat) (k : WorkKind) (dest : Option Phys) (mode : Mode) : Holds s (s.moveStart n k dest mode) := by
  cases dest with
  | none =>
    rw [moveStart_rewrite]
    exact entered_holds _ _ _ _
  | some p =>
    rw [moveStart_dest]
    exact ((takeSlot_holds s p mode).trans (draw_holds _)).trans (entered_holds _ _ _ _)

theorem queueWork_holds (s : State) (n : Nat) (k : WorkKind) : Holds s (s.queueWork n k) := by
  unfold State.queueWork
  dsimp only
  split
  · exact .refl s
  · exact setYrw_holds _ _

theorem leaveSlot_holds (s : State) (p : Phys) (w : BitVec 16) (b : Bool) : Holds s (s.leaveSlot p w b) := by
  unfold State.leaveSlot
  extract_lets v v1 s1
  have h1 : Holds s s1 := (setZone_holds _ _ _ _).trans (journal_holds _ _)
  exact h1.trans (journal_holds _ _)

theorem moveAbandon_holds (s : State) (n : Nat) (b : Bool) : Holds s (s.moveAbandon n b) := by
  have hrest : ∀ t : State, ∀ cs : Tab QChan, ∀ v : Sett,
      Holds t ((((t.setMed { t.med with chans := cs }).endMove n).putSett n v).rewake n) := fun t cs v =>
    (((Holds.of_parts (s := t) (t := t.setMed { t.med with chans := cs }) rfl rfl).trans (setYrw_holds _ _)).trans (putSett_holds _ _ _)).trans
      (.of_keeps (rewake_keeps _ _) (by decide))
  unfold State.moveAbandon
  split
  · exact .refl s
  · dsimp only
    split
    · exact (leaveSlot_holds _ _ _ _).trans (hrest _ _ _)
    · exact hrest _ _ _

/-! ### Buffer lines -/

theorem writeBack_holds (s : State) (x : Nat) : Holds s (s.writeBack x) := by
  unfold State.writeBack
  split
  · exact .refl s
  · split
    · exact .refl s
    · split
      · exact mergeLine_holds _ _
      · dsimp only
        split
        · split
          · exact .refl s
          · split
            · exact .refl s
            · split
              · exact .refl s
              · split
                · exact (((takeSlot_holds _ _ _).trans (draw_holds _)).trans (setBline_holds _ _ _)).trans (programLine_holds _ _ _ _ _ _ _ _)
                · exact (bump_holds _ _ _ _ _ _).trans (moveStart_holds _ _ _ _ _)
        · split
          · exact ((setBline_holds _ _ _).trans (.of_keeps (pageWrite_keeps _ _ _) (by decide))).trans (programLine_holds _ _ _ _ _ _ _ _)
          · exact .refl s
        · exact .refl s

theorem stallSet_holds (s : State) (x : Nat) (first : Bool) : Holds s (s.stallSet x first) := by
  have h1 : Holds s (if first then (s.bump Reg.PBF_STALL_CNT 0 31 0).cause Reg.PBF_CAUSE 0 9 289 else s) := by
    split
    · exact (bump_holds _ _ _ _ _ _).trans (cause_holds _ _ _ _ _)
    · exact .refl s
  unfold State.stallSet
  dsimp only
  split
  · exact h1.trans (writeBack_holds _ _)
  · exact h1

theorem dropLine_holds (s : State) (x : Nat) : Holds s (s.dropLine x) := .of_med rfl

theorem allocLine_holds (s : State) (x : Nat) (dirty first : Bool) : Holds s (s.allocLine x dirty first).1 := by
  unfold State.allocLine
  dsimp only
  split
  · exact stallSet_holds _ _ _
  · split
    · exact .refl s
    · split
      · exact .refl s
      · split
        · exact dropLine_holds _ _
        · exact writeBack_holds _ _
        · exact .refl s

theorem settleRecover_holds (s : State) (x : Nat) : Holds s (s.settleRecover x) := .of_keeps (settleRecover_keeps s x) (by decide)

theorem awaitRoom_holds (s : State) (x : Nat) (d : Line) : Holds s (s.awaitRoom x d) := .of_keeps (awaitRoom_keeps s x d) (by decide)

theorem completeLine_holds (s : State) (x : Nat) (b : BLine) (d : Line) : Holds s (s.completeLine x b d) :=
  .of_keeps (completeLine_keeps s x b d) (by decide)

theorem recoverLine_holds (s : State) (x : Nat) (d : Line) : Holds s (s.recoverLine x d) := by
  have hput : ∀ t b, Holds s t → Holds s ((t.setBline x b).touch x) := fun t b h => (h.trans (setBline_holds _ _ _)).trans (touch_holds _ _)
  unfold State.recoverLine
  dsimp only
  split
  · split
    · refine Holds.trans ?_ (settleRecover_holds _ _)
      split
      · exact completeLine_holds _ _ _ _
      · exact .refl s
    · split
      · refine Holds.trans ?_ (awaitRoom_holds _ _ _)
        split
        · exact hput s _ (.refl s)
        · exact .refl s
      · exact (hput s _ (.refl s)).trans (settleRecover_holds _ _)
  · split
    · exact settleRecover_holds _ _
    · split
      · exact awaitRoom_holds _ _ _
      · have h1 := allocLine_holds s x true false
        split
        · next e =>
          rw [e] at h1
          exact (hput _ _ h1).trans (settleRecover_holds _ _)
        · next e =>
          rw [e] at h1
          exact h1.trans (awaitRoom_holds _ _ _)

theorem installLine_holds (s : State) (x : Nat) (d : Line) (dirty pf : Bool) : Holds s (s.installLine x d dirty pf) := by
  have hput : ∀ t b, Holds s t → Holds s ((t.setBline x b).touch x) := fun t b h => (h.trans (setBline_holds _ _ _)).trans (touch_holds _ _)
  unfold State.installLine
  split
  · exact recoverLine_holds _ _ _
  · split
    · split
      · exact hput s _ (.refl s)
      · split
        · exact completeLine_holds _ _ _ _
        · exact .refl s
    · split
      · exact .refl s
      · have h1 := allocLine_holds s x false false
        split
        · next e =>
          rw [e] at h1
          exact hput _ _ h1
        · next e =>
          rw [e] at h1
          exact h1

theorem putLine_holds (s : State) (x : Nat) (mask : BitVec 256) (d : Line) (first : Bool) : Holds s (s.putLine x mask d first).1 := by
  have hput : ∀ t b, Holds s t → Holds s ((t.setBline x b).touch x) := fun t b h => (h.trans (setBline_holds _ _ _)).trans (touch_holds _ _)
  have hpart : ∀ t b, Holds s t → Holds s (((t.setBline x b).notePartial x).touch x) := fun t b h =>
    ((h.trans (setBline_holds _ _ _)).trans (notePartial_holds _ _)).trans (touch_holds _ _)
  unfold State.putLine
  split
  · split
    · exact hpart s _ (.refl s)
    · split
      · exact stallSet_holds _ _ _
      · exact hput s _ (.refl s)
    · exact hpart s _ (.refl s)
    · exact hput s _ (.refl s)
  · have h1 := allocLine_holds s x true first
    split
    · next e =>
      rw [e] at h1
      exact hpart _ _ h1
    · next e =>
      rw [e] at h1
      exact h1

theorem placeLine_holds (s : State) (x : Nat) (mask : BitVec 256) (d : Line) (first : Bool) : Holds s (s.placeLine x mask d first).1 := by
  have h1 := putLine_holds s x mask d first
  unfold State.placeLine
  split
  · next e =>
    rw [e] at h1
    exact h1
  · next e =>
    rw [e] at h1
    dsimp only
    split
    · refine Holds.trans ?_ (settleRecover_holds _ _)
      split
      · exact h1.trans (completeLine_holds _ _ _ _)
      · exact h1
    · exact h1

theorem slotBack_holds (s : State) (x : Nat) (k : ScbSlot) : Holds s (s.slotBack x k).1 := by
  unfold State.slotBack
  split
  · split
    · dsimp only
      split
      · exact (setBline_holds _ _ _).trans (notePartial_holds _ _)
      · exact .refl s
    · exact placeLine_holds _ _ _ _ _
  · exact placeLine_holds _ _ _ _ _

/-! ### Reads -/

theorem mapAsk_holds (c f : Nat) (ks : List (Bool × QmiOp)) (s : State) : Holds s (s.mapAsk c f ks) := by
  induction ks generalizing s with
  | nil => exact setMap_holds _ _
  | cons k ks ih =>
    unfold State.mapAsk
    dsimp only
    split
    · exact ih s
    · exact issue_holds _ _ _

theorem loadChunk_holds (s : State) (c : Nat) : Holds s (s.loadChunk c) := by
  unfold State.loadChunk
  split
  · exact .refl s
  · exact .foldl _ (fun u f => mapAsk_holds c f _ u) (setMap_holds _ _)

theorem loadPair_holds (s : State) (c : Nat) : Holds s (s.loadPair c) := by
  have h1 : Holds s (if s.chunkIn c then s else s.loadChunk c) := by
    split
    · exact .refl s
    · exact loadChunk_holds _ _
  unfold State.loadPair
  dsimp only
  generalize (if s.chunkIn c then s else s.loadChunk c) = u at h1
  split
  · exact h1
  · exact h1.trans (loadChunk_holds _ _)

theorem waitRead_holds (s : State) (r : HostRead) : Holds s (s.waitRead r) := setBench_holds _ _

theorem respond_holds (s : State) (r : HostRead) (d : Option Line) : Holds s (s.respond r d) := .of_keeps (respond_keeps s r d) (by decide)

theorem assistAsk_holds (s : State) (w : AssistFor) (r x k : Nat) : Holds s (s.assistAsk w r x k) := .of_keeps (assistAsk_keeps s w r x k) (by decide)

theorem fetchRead_holds (s : State) (r : HostRead) : Holds s (s.fetchRead r) := by
  have h0 : Holds s (s.lookup (lineSett r.line)) := .of_keeps (lookup_keeps _ _) (by decide)
  unfold State.fetchRead
  dsimp only
  generalize s.lookup (lineSett r.line) = u at h0
  split
  · split
    · exact h0.trans (waitRead_holds _ _)
    · refine (h0.trans ?_).trans (waitRead_holds _ _)
      exact ((bump_holds u Reg.XLT_PRIO_CNT 0 31 0 1).trans (setXlt_holds _ _)).trans (loadPair_holds _ _)
  · split
    · exact h0.trans (respond_holds _ _ _)
    · exact ((h0.trans (.of_keeps (poolTouch_keeps _ _) (by decide))).trans (installLine_holds _ _ _ _ _)).trans (respond_holds _ _ _)
    · exact h0.trans (respond_holds _ _ _)
    · split
      · have hw := h0.trans (waitRead_holds u r)
        exact .ite (.ite hw (hw.trans (assistAsk_holds _ _ _ _ _))) (h0.trans (respond_holds _ _ _))
      · split
        · exact h0.trans (waitRead_holds _ _)
        · have h1 : Holds u (match u.bline r.line with
              | some _ => u
              | none => if (u.scbSlot r.line).isSome then u else match u.allocLine r.line false false with
                | (s1, some w) => s1.setBline r.line (some { state := .filling, way := w })
                | (s1, none) => s1) := by
            split
            · exact .refl u
            · split
              · exact .refl u
              · have h2 := allocLine_holds u r.line false false
                split
                · next e =>
                  rw [e] at h2
                  exact h2.trans (setBline_holds _ _ _)
                · next e =>
                  rw [e] at h2
                  exact h2
          have hw := (h0.trans h1).trans (waitRead_holds _ r)
          exact .ite hw (hw.trans (senseLine_holds _ _ _ _ _))

theorem serveRead_holds (s : State) (r : HostRead) : Holds s (s.serveRead r) := by
  unfold State.serveRead
  extract_lets x lost
  clear_value lost
  split
  · exact respond_holds _ _ _
  · split
    · exact waitRead_holds _ _
    · split
      · split
        · exact waitRead_holds _ _
        · split
          · exact ((setBline_holds _ _ _).trans (touch_holds _ _)).trans (respond_holds _ _ _)
          · have h1 := mergeLine_holds s r.line
            split
            · split
              · split
                · split
                  · exact h1.trans (waitRead_holds _ _)
                  · split
                    · exact (h1.trans (waitRead_holds _ _)).trans (assistAsk_holds _ _ _ _ _)
                    · exact h1.trans (respond_holds _ _ _)
                · exact h1.trans (waitRead_holds _ _)
              · exact (h1.trans (touch_holds _ _)).trans (respond_holds _ _ _)
            · exact h1
      · split
        · exact respond_holds _ _ _
        · exact fetchRead_holds _ _
      · exact fetchRead_holds _ _

theorem redrive_holds (s : State) (p : HostRead → Bool) : Holds s (s.redrive p) := by
  unfold State.redrive
  exact .foldl _ (fun u r => serveRead_holds u r) (setBench_holds _ _)

theorem divert_holds (s : State) (p : Nat → Bool) : Holds s (s.divert p) := by
  unfold State.divert
  exact (Holds.foldl _ (fun u x => dropLine_holds u x) (.refl s)).trans (redrive_holds _ _)

/-! ### Drains -/

theorem drainProgram_holds (s : State) (f : DrainFrame) : Holds s (s.drainProgram f) := by
  unfold State.drainProgram
  split
  · exact .refl s
  · exact issue_holds _ _ _

theorem drainReloc_holds (s : State) (k : Nat) : Holds s (s.drainReloc k) := by
  unfold State.drainReloc
  split
  · exact .refl s
  · split
    · exact .refl s
    · dsimp only
      split
      · exact setBench_holds _ _
      · split
        · exact ((setBench_holds _ _).trans (cause_holds _ _ _ _ _)).trans (drainProgram_holds _ _)
        · exact (setBench_holds _ _).trans (cause_holds _ _ _ _ _)

theorem drainLostDies_holds (s : State) : Holds s s.drainLostDies := by
  unfold State.drainLostDies
  split
  · exact .refl s
  · split
    · exact .refl s
    · exact .foldl _ (fun u f => drainReloc_holds u _) (.refl s)

/-! ### Moves that start again, and commands that are undone -/

theorem endPromotion_holds (s : State) (n : Nat) : Holds s (s.endPromotion n) := by
  unfold State.endPromotion
  dsimp only
  split
  · exact .of_parts rfl rfl
  · exact .of_med rfl

theorem resyncStart_holds (s : State) (n : Nat) (m : Mode) : Holds s (s.resyncStart n m) := by
  unfold State.resyncStart
  split
  · exact .refl s
  · dsimp only
    split
    · exact .refl s
    · exact ((((endPromotion_holds _ _).trans (takeSlot_holds _ _ _)).trans (draw_holds _)).trans (putSett_holds _ _ _)).trans (setYrw_holds _ _)

theorem resyncAgain_holds (s : State) (n : Nat) (m : Mode) : Holds s (s.resyncAgain n m) := by
  have h1 := resyncStart_holds s n m
  unfold State.resyncAgain
  dsimp only
  split
  · split
    · exact h1.trans (assistAsk_holds _ _ _ _ _)
    · exact h1
  · exact h1

theorem setScb_holds (s : State) (n : Nat) (v : Option Scb) : Holds s (s.setScb n v) := .of_med rfl

theorem scbDissolve_holds (s : State) (n : Nat) : Holds s (s.scbDissolve n) := by
  have hfold : ∀ (l : List ScbSlot) (p : State × List ScbSlot), Holds s p.1 → Holds s (l.foldl (fun (p : State × List ScbSlot) k =>
        match p.1.slotBack (lineOf n k.line) k with
        | (s1, true) => (s1, p.2)
        | (s1, false) => (s1, p.2 ++ [{ k with use := .filling }])) p).1 := by
    intro l
    induction l with
    | nil => exact fun _ h => h
    | cons k l ih =>
      intro p h
      refine ih _ ?_
      have h1 := slotBack_holds p.1 (lineOf n k.line) k
      dsimp only
      split
      · next e =>
        rw [e] at h1
        exact h.trans h1
      · next e =>
        rw [e] at h1
        exact h.trans h1
  unfold State.scbDissolve
  split
  · exact .refl s
  · split
    · exact .refl s
    · next b _ _ =>
      have h1 := hfold b.slots (s, []) (.refl s)
      dsimp only
      exact .ite (h1.trans (setScb_holds _ _ _)) (h1.trans (setScb_holds _ _ _))

theorem moveRequeue_holds (s : State) (n : Nat) (spoil : Bool) : Holds s (s.moveRequeue n spoil) := by
  have h1 := moveAbandon_holds s n spoil
  unfold State.moveRequeue
  split
  · exact .refl s
  · dsimp only
    split
    · exact h1
    · exact h1.trans (scbDissolve_holds _ _)
    · exact h1.trans (resyncAgain_holds _ _ _)
    · exact h1.trans (queueWork_holds _ _ _)

theorem substitute_holds (s : State) (u : Nat) : Holds s (s.substitute u) := .of_keeps (substitute_keeps s u) (by decide)

theorem mapProgram_holds (s : State) (u f : Nat) : Holds s (s.mapProgram u f) := by
  unfold State.mapProgram
  exact issue_holds _ _ _

theorem mapUndo_holds (s : State) (q : QmiCmd) (copy : Bool) (c f : Nat) : Holds s (s.mapUndo q copy c f) := by
  unfold State.mapUndo
  split
  · unfold State.mapUnwritten
    split
    · exact .ite ((substitute_holds _ _).trans (mapProgram_holds _ _ _)) (.refl s)
    · exact .refl s
  · exact setMap_holds _ _
  · unfold State.mapFrame
    exact .ite (.refl s) (.ite (setMap_holds _ _) (mapAsk_holds _ _ _ _))

theorem dropJudge_holds (s : State) (f : MarginJudge → Bool) : Holds s (s.setMed { s.med with judges := s.med.judges.filter f }) := .of_parts rfl rfl

theorem dropBlank_holds (s : State) (f : Blanking → Bool) : Holds s (s.setMed { s.med with blanks := s.med.blanks.filter f }) := .of_parts rfl rfl

theorem undo_holds (s : State) (n : Nat) (c : QmiCmd) : Holds s (s.undo n c) := by
  unfold State.undo
  split
  · split
    · exact .ite (setBline_holds _ _ _) (.refl s)
    · exact .refl s
  · split
    · exact setYrw_holds _ _
    · exact .refl s
  · split
    · exact setYrw_holds _ _
    · exact .refl s
  · exact dropJudge_holds _ _
  · exact dropBlank_holds _ _
  · exact setDie_holds ⟨rfl, rfl, rfl, rfl⟩
  · exact mapUndo_holds _ _ _ _ _
  · exact .refl s

theorem judgeBench_holds (s : State) : Holds s s.judgeBench := .of_keeps (judgeBench_keeps s) (by decide)

theorem judgeTsl_holds (s : State) : Holds s s.judgeTsl := .of_keeps (judgeTsl_keeps s) (by decide)

theorem judgeQg_holds (s : State) (g : Nat) : Holds s (s.judgeQg g) := .of_keeps (judgeQg_keeps s g) (by decide)

theorem tryOpen_holds (s : State) : Holds s s.tryOpen := .of_keeps (tryOpen_keeps s) (by decide)

theorem pump_holds (s : State) (n : Nat) : Holds s (s.pump n) := .of_sends (pump_sends s n)

/-- Beyond the die that fails, a failure leaves every die and every group as it was. -/
theorem failDie_holds {s : State} {d : Nat} (h : (s.die d).failed = false) :
    Holds (s.setDie d { s.die d with failed := true, tables := false }) (s.failDie d) := by
  unfold State.failDie
  extract_lets v n q mine gone s1 s2 hit s3 lost med4 s4
  rw [if_neg (by simp [v, h])]
  have h1 : Holds (s.setDie d { s.die d with failed := true, tables := false }) s1 := setQc_holds _ _ _
  have h2 : Holds s1 s2 := .foldl _ (fun u c => undo_holds u n c) (.refl _)
  have h3 : Holds s2 s3 := .foldl _ (fun u m => moveRequeue_holds u m.lsett false) (.refl _)
  have h4 : Holds s3 s4 := .of_parts rfl rfl
  clear_value s1 s2 s3 s4
  exact (((h1.trans h2).trans (h3.trans h4)).trans (divert_holds _ _)).trans ((judgeBench_holds _).trans (judgeTsl_holds _))

end Sys2Proof.Steady

/-! A medium group's inventory, its training and its sideband (R83 to R90). -/

namespace Sys2Proof.Inventory

open Sys2Proof.Machine State Sys2Proof.Readings Sys2Proof.Lanes Sys2Proof.Keeping Sys2Proof.Steady

/-! ### What a group reads -/

theorem qg_of_groups {s t : State} (h : t.med.groups = s.med.groups) (g : Nat) : t.qg g = s.qg g := by simp only [State.qg, h]

theorem qg_of_holds {s t : State} (h : Holds s t) (g : Nat) : t.qg g = s.qg g := qg_of_groups h.groups g

theorem qg_setQg (s : State) (g : Nat) (v : QGroup) : (s.setQg g v).qg g = v := Tab.get_put_same _ _ _ _

theorem qg_setQg_ne (s : State) {g k : Nat} (v : QGroup) (h : k ≠ g) : (s.setQg g v).qg k = s.qg k := Tab.get_put_ne _ _ _ _ h

theorem qc_setQg (s : State) (g : Nat) (v : QGroup) (n : Nat) : (s.setQg g v).qc n = s.qc n := rfl

/-- What keeps the medium keeps its groups. -/
theorem qg_of_med {s t : State} (h : t.med = s.med) (g : Nat) : t.qg g = s.qg g := qg_of_groups (by rw [h]) g

/-- A failed inventory takes the group out with the place and the check it failed by. -/
theorem inventoryFails_qg {s : State} {n : Nat} (pkg : Bool) (check : Nat) (h : (s.qg (n / 16)).invBad = false) :
    (s.inventoryFails n pkg check).qg (n / 16) = { s.qg (n / 16) with
      invBad := true, inService := false, badChan := BitVec.ofNat 4 n, badPkg := pkg, badCheck := BitVec.ofNat 5 check } := by
  unfold State.inventoryFails
  extract_lets g v s1 s2
  have h1 : s1.qg g = { s.qg g with
      invBad := true, inService := false, badChan := BitVec.ofNat 4 n, badPkg := pkg, badCheck := BitVec.ofNat 5 check } :=
    (qg_setQg _ _ _).trans (if_neg (by rw [show v.invBad = false from h]; exact Bool.false_ne_true))
  have h2 : s2.qg g = s1.qg g := qg_of_holds (.foldl _ (fun u k => setQc_holds u _ _) (.refl s1)) g
  clear_value s2
  have h3 : Holds s2 (((s2.divert fun d => d / 256 == g).judgeBench).judgeQg g).drainLostDies.tryOpen :=
    (((divert_holds _ _).trans (judgeBench_holds _)).trans (judgeQg_holds _ _)).trans ((drainLostDies_holds _).trans (tryOpen_holds _))
  exact (qg_of_holds h3 g).trans (h2.trans h1)

/-- A group whose packages answer: what an inventory begins with. -/
def inventoried (s : State) (g : Nat) (seen : BitVec 32) (i : Fin 32) : State :=
  (((s.setQg g { s.qg g with sbOk := true, seen := seen }).judgeQg g).emit (.sideband (Fin.ofNat 9 g) (.setdasa i))).emit
    (.sideband (Fin.ofNat 9 g) (.descriptor i))

theorem inventoried_med (s : State) (g : Nat) (seen : BitVec 32) (i : Fin 32) :
    (inventoried s g seen i).med = (s.setQg g { s.qg g with sbOk := true, seen := seen }).med := (judgeQg_keeps _ _).med (by decide)

theorem inventoried_qg (s : State) (g : Nat) (seen : BitVec 32) (i : Fin 32) :
    (inventoried s g seen i).qg g = { s.qg g with sbOk := true, seen := seen } :=
  (qg_of_med (inventoried_med s g seen i) g).trans (qg_setQg _ _ _)

theorem inventoried_qc (s : State) (g : Nat) (seen : BitVec 32) (i : Fin 32) (n : Nat) : (inventoried s g seen i).qc n = s.qc n :=
  qc_of_med (s := s.setQg g { s.qg g with sbOk := true, seen := seen }) (inventoried_med s g seen i) n

/-- What the inventory does of a package with descriptor `d` in a group whose packages answered as `seen` says. -/
def inventory (u : State) (n : Nat) (pkg : Bool) (seen : BitVec 32) (d : List Byte) : State :=
  match State.placeMissing seen with
  | some (k, second) => u.inventoryFails (16 * (n / 16) + k) second 1
  | none =>
    match descCheck d with
    | some k => u.inventoryFails n pkg k
    | none =>
      if descByte d 0x0A ≠ 1 then u
      else
        let s1 := u.packageUp n pkg (if descByte d 1 = 4 then 1 else 2)
        match s1.populationBad n with
        | some second => s1.inventoryFails n second 1
        | none => s1

/-- An inventory goes on while the group has power, is enabled and neither held nor failed. -/
theorem packageReady_runs {s : State} {n : Fin 144} (pkg : Bool) (seen : BitVec 32) (d : List Byte) (hmed : s.medUp = true)
    (hrails : (s.qg (n / 16)).railsUp = true) (hbad : (s.qg (n / 16)).invBad = false) (hen : s.bit Reg.QG_CTRL (n / 16) 0 = true)
    (hhold : s.bit Reg.QG_CTRL (n / 16) 1 = false) : exec (.packageReady n pkg seen d) s =
    .next (inventory (inventoried s (n / 16) seen (Fin.ofNat 32 (packageIndex n pkg))) n pkg seen d) :=
  congrArg Host.Outcome.next (if_neg (by rw [hmed, hrails, hbad, hen, hhold]; exact Bool.false_ne_true))

theorem inventory_missing {u : State} {n k : Nat} {pkg second : Bool} {seen : BitVec 32} {d : List Byte} (h : placeMissing seen = some (k, second)) :
    inventory u n pkg seen d = u.inventoryFails (16 * (n / 16) + k) second 1 := by
  unfold inventory
  rw [h]

theorem inventory_check {u : State} {n k : Nat} {pkg : Bool} {seen : BitVec 32} {d : List Byte} (h : placeMissing seen = none)
    (hcheck : descCheck d = some k) : inventory u n pkg seen d = u.inventoryFails n pkg k := by
  unfold inventory
  rw [h, hcheck]

theorem inventory_good {u v : State} {n : Nat} {pkg : Bool} {seen : BitVec 32} {d : List Byte} (h : placeMissing seen = none)
    (hcheck : descCheck d = none) (hten : descByte d 0x0A = 1) (hv : u.packageUp n pkg (if descByte d 1 = 4 then 1 else 2) = v)
    (hgood : v.populationBad n = none) : inventory u n pkg seen d = v := by
  unfold inventory
  rw [h, hcheck]
  dsimp only
  rw [if_neg (not_not.2 hten), hv, hgood]

/-! ### The population of a group -/

theorem placeMissing_lt {seen : BitVec 32} {k : Nat} {second : Bool} (h : State.placeMissing seen = some (k, second)) : k < 16 := by
  obtain ⟨j, hj, hk⟩ := List.exists_of_findSome?_eq_some h
  have hj := List.mem_range.1 hj
  split at hk
  · cases hk
    exact hj
  · split at hk
    · cases hk
      exact hj
    · exact absurd hk (by simp)

theorem place_group (g : Nat) {k : Nat} (h : k < 16) : (16 * g + k) / 16 = g := by omega

theorem place_channel (g k : Nat) : BitVec.ofNat 4 (16 * g + k) = BitVec.ofNat 4 k :=
  BitVec.eq_of_toNat_eq (by simp only [BitVec.toNat_ofNat]; omega)

/-- A first package that is up, its channel off until then: DETECT where no second place is fitted. -/
theorem packageUp_first {s : State} {n : Nat} (t : BitVec 2) (hoff : (s.qc n).lstate = .off) (hline : (s.qc n).offline = false)
    (hready : (s.qc n).ready1 = false) : (s.packageUp n false t).qc n = { s.qc n with
      pkg0 := t, ready0 := true, lstate := if (s.qg (n / 16)).seen.getLsbD (packageIndex n true) then .off else .detect } := by
  unfold State.packageUp
  dsimp only
  refine (qc_setQc _ _ _).trans ?_
  rw [hready]
  cases hseen : (s.qg (n / 16)).seen.getLsbD (packageIndex n true) <;> simp [hoff, hline]

theorem packageUp_qc_ne (s : State) {n m : Nat} (pkg : Bool) (t : BitVec 2) (h : m ≠ n) : (s.packageUp n pkg t).qc m = s.qc m := qc_setQc_ne _ _ h

/-- A group whose first packages are of one type, with no second place taken on the channel, is populated well so far. -/
theorem populationBad_none {s : State} {n : Nat} (hpkg1 : (s.qc n).pkg1 = 0)
    (hsame : ∀ k < 16, (s.qc (n / 16 * 16 + k)).pkg0 = 0 ∨ (s.qc (n / 16 * 16 + k)).pkg0 = (s.qc n).pkg0) : s.populationBad n = none := by
  unfold State.populationBad
  dsimp only
  rw [if_neg (fun h => h.1 hpkg1), if_neg]
  intro h
  obtain ⟨k, hk, hbad⟩ := List.any_eq_true.1 h
  rcases hsame k (List.mem_range.1 hk) with h0 | h0
  · simp [h0] at hbad
  · simp [h0] at hbad

/-! ### The sideband -/

/-- Whether place `i` of group `g` has a package. -/
def fitted (s : State) (g : Fin 9) (i : Nat) : Bool :=
  if i % 2 = 1 then (s.qc (16 * g.val + i / 2)).pkg1 != 0 else (s.qc (16 * g.val + i / 2)).pkg0 != 0

theorem fitted_of {s : State} {g : Fin 9} {i : Nat}
    (h : (if i % 2 = 1 then (s.qc (16 * g.val + i / 2)).pkg1 else (s.qc (16 * g.val + i / 2)).pkg0) ≠ 0) : fitted s g i = true := by
  unfold fitted
  split
  · next hi => exact bne_iff_ne.2 (by rwa [if_pos hi] at h)
  · next hi => exact bne_iff_ne.2 (by rwa [if_neg hi] at h)

/-- What a package is taken for after a poll that answers `a`. -/
def answered (p : Package) (a : Option Int) : Package := match a with
  | some t => { temp := t, missed := 0 }
  | none => { p with missed := p.missed + 1 }

/-- The temperature poll of one place of a group. -/
def polled (g : Fin 9) (temps : List (Option Int)) (s : State) (i : Nat) : State :=
  if !fitted s g i then s
  else (s.setQg g { s.qg g with packages := Tab.put {} (s.qg g).packages i (answered (Tab.get {} (s.qg g).packages i) (temps.getD i none)) }).emit
    (.sideband g (.temperature (Fin.ofNat 32 i)))

/-- The package a group has on record at a place. -/
def package (s : State) (g : Fin 9) (i : Nat) : Package := Tab.get {} (s.qg g).packages i

theorem polled_qc (g : Fin 9) (temps : List (Option Int)) (s : State) (i n : Nat) : (polled g temps s i).qc n = s.qc n := by
  unfold polled
  split <;> rfl

theorem polled_same {g : Fin 9} (temps : List (Option Int)) {s : State} {i : Nat} (h : fitted s g i = true) :
    package (polled g temps s i) g i = answered (package s g i) (temps.getD i none) := by
  unfold polled
  rw [if_neg (by simp [h])]
  exact (congrArg (fun v : QGroup => Tab.get {} v.packages i) (qg_setQg s g { s.qg g with packages := _ })).trans (Tab.get_put_same _ _ _ _)

theorem polled_ne (g : Fin 9) (temps : List (Option Int)) (s : State) {i j : Nat} (h : j ≠ i) :
    package (polled g temps s j) g i = package s g i := by
  unfold polled
  split
  · rfl
  · exact (congrArg (fun v : QGroup => Tab.get {} v.packages i) (qg_setQg s g { s.qg g with packages := _ })).trans
      (Tab.get_put_ne _ _ _ _ (Ne.symm h))

theorem foldl_polled_ne (g : Fin 9) (temps : List (Option Int)) {i : Nat} (l : List Nat) (h : i ∉ l) (s : State) :
    package (l.foldl (polled g temps) s) g i = package s g i := by
  induction l generalizing s with
  | nil => rfl
  | cons j l ih =>
    have hj : j ≠ i := fun e => h (e ▸ List.mem_cons_self ..)
    exact (ih (fun hm => h (List.mem_cons_of_mem _ hm)) _).trans (polled_ne g temps s hj)

/-- A poll takes each place it reaches once. -/
theorem foldl_polled {g : Fin 9} (temps : List (Option Int)) {i : Nat} (l : List Nat) (hnodup : l.Nodup) (hi : i ∈ l) {s : State}
    (h : fitted s g i = true) : package (l.foldl (polled g temps) s) g i = answered (package s g i) (temps.getD i none) := by
  induction l generalizing s with
  | nil => exact absurd hi (by simp)
  | cons j l ih =>
    obtain ⟨hj, hl⟩ := List.nodup_cons.1 hnodup
    by_cases hij : j = i
    · subst hij
      exact (foldl_polled_ne g temps l hj _).trans (polled_same temps h)
    · have hfit : fitted (polled g temps s j) g i = true := by
        unfold fitted
        rw [polled_qc]
        exact h
      rw [List.foldl_cons, ih hl ((List.mem_cons.1 hi).resolve_left (Ne.symm hij)) hfit, polled_ne g temps s hij]

theorem loadSets_holds (s : State) (d : Nat) : Holds s (s.loadSets d) := by
  unfold State.loadSets
  dsimp only
  refine .ite (.refl s) (.foldl _ (fun u m => .foldl _ (fun u b => issue_holds _ _ _) (.refl u)) (setDie_holds ⟨rfl, rfl, rfl, rfl⟩))

theorem packageTemp_holds (s : State) (n : Nat) (pkg : Bool) (x : Int) : Holds s (s.packageTemp n pkg x) := by
  unfold State.packageTemp
  refine .foldl _ (fun u d => ?_) (.refl s)
  have hband : ∀ b, Holds u (u.setDie d { u.die d with tband := b }) := fun b => setDie_holds ⟨rfl, rfl, rfl, rfl⟩
  exact .ite (.refl u) ((hband _).trans (loadSets_holds _ _))

/-- Judging its temperature changes OVERTEMP of a group and nothing else of it; without a sideband it is over. -/
theorem judgeTemp_qg (s : State) (g : Nat) :
    ∃ b : Bool, (s.judgeTemp g).qg g = { s.qg g with overtemp := b } ∧ ((s.qg g).sbOk = false → b = true) := by
  unfold State.judgeTemp
  extract_lets v limit hot isOver s1
  have h1 : s1.qg g = { s.qg g with overtemp := isOver } := (qg_of_holds (judgeQg_holds _ _) g).trans (qg_setQg _ _ _)
  have hover : (s.qg g).sbOk = false → isOver = true := fun h => by simp [isOver, v, h]
  clear_value s1 isOver
  have hpumps : Holds s1 ((List.range 16).foldl (fun s k => s.pump (16 * g + k)) s1) := .foldl _ (fun u k => pump_holds u _) (.refl s1)
  generalize (List.range 16).foldl (fun s k => s.pump (16 * g + k)) s1 = s2 at hpumps ⊢
  exact ⟨isOver, (qg_of_holds hpumps g).trans h1, hover⟩

/-- The sideband's state after a poll: failed, whole, or as it was. -/
def sideband (v : QGroup) : Bool :=
  if v.packages.any fun p => decide (3 ≤ p.2.missed) then false else if v.packages.all fun p => p.2.missed == 0 then true else v.sbOk

theorem sideband_failed {v : QGroup} {i : Nat} (h : 3 ≤ (Tab.get {} v.packages i).missed) : sideband v = false := by
  refine if_pos (List.any_eq_true.2 ?_)
  have hmem : ∀ l : Tab Package, 3 ≤ (Tab.get {} l i).missed → ∃ p ∈ l, decide (3 ≤ p.2.missed) = true := by
    intro l
    induction l with
    | nil => exact fun h => absurd (show 3 ≤ 0 from h) (by decide)
    | cons p l ih =>
      intro h
      by_cases hp : p.1 = i
      · exact ⟨p, List.mem_cons_self .., decide_eq_true ((congrArg Package.missed (if_pos hp)).symm ▸ h)⟩
      · obtain ⟨q, hq, hm⟩ := ih ((congrArg Package.missed (if_neg hp)) ▸ h)
        exact ⟨q, List.mem_cons_of_mem _ hq, hm⟩
  exact hmem _ h

/-- A poll of a group that answers: what it leaves of the group's record. -/
theorem tempPoll_qg {g : Fin 9} {s : State} (temps : List (Option Int)) (hstate : s.psq.pstate = .active) (hmain : s.psq.mainUp = true)
    (hrails : (s.qg g).railsUp = true) (hen : s.bit Reg.QG_CTRL g 0 = true) (hhold : s.bit Reg.QG_CTRL g 1 = false) :
    Answers (.sidebandTempPoll g temps) s fun t => ∃ b : Bool, t.qg g = { ((List.range 32).foldl (polled g temps) s).qg g with
      sbOk := sideband (((List.range 32).foldl (polled g temps) s).qg g), overtemp := b } ∧
      (sideband (((List.range 32).foldl (polled g temps) s).qg g) = false → b = true) := by
  have hgo : (!((s.psq.pstate == .active || s.psq.pstate == .idle) && s.psq.mainUp || s.psq.burst == some g) || !(s.qg g).railsUp ||
      !s.bit Reg.QG_CTRL g 0 || s.bit Reg.QG_CTRL g 1) = false := by
    rw [hstate, hmain, hrails, hen, hhold]
    rfl
  refine ⟨_, congrArg Host.Outcome.next (if_neg (ne_true_of_eq_false hgo)), ?_⟩
  generalize hf : (List.range 32).foldl (polled g temps) s = f
  extract_lets s1 v failed whole s2 s3 src
  have h1 : f = s1 := by
    rw [← hf]
    unfold s1
    congr 1
  clear_value s1
  subst h1
  have h2 : s2.qg g = { f.qg g with sbOk := sideband (f.qg g) } := qg_setQg _ _ _
  have h3 : Holds s2 s3 := by
    refine .ite (.foldl _ (fun u i => ?_) (.refl s2)) (.refl s2)
    split
    · exact packageTemp_holds _ _ _ _
    · exact .refl u
  clear_value s2 s3
  obtain ⟨b, hb, hover⟩ := judgeTemp_qg s3 g
  rw [qg_of_holds h3, h2] at hb hover
  exact ⟨b, hb, hover⟩

/-! ### Training -/

/-- The bits of the dies that answer, taken up die by die. -/
def okBits (ids : BitVec 16) (l : List Nat) (a : BitVec 16) : BitVec 16 :=
  l.foldl (fun (a : BitVec 16) d => if ids.getLsbD (d % 16) then a ||| BitVec.twoPow 16 (d % 16) else a) a

theorem okBits_get (ids : BitVec 16) (l : List Nat) (a : BitVec 16) {k : Nat} (hk : k < 16) :
    (okBits ids l a).getLsbD k = (a.getLsbD k || (ids.getLsbD k && l.any fun d => decide (d % 16 = k))) := by
  induction l generalizing a with
  | nil => simp [okBits]
  | cons d l ih =>
    have hstep : (if ids.getLsbD (d % 16) then a ||| BitVec.twoPow 16 (d % 16) else a).getLsbD k =
        (a.getLsbD k || (ids.getLsbD k && decide (d % 16 = k))) := by
      rcases eq_or_ne (d % 16) k with hd | hd
      · subst hd
        split
        · next h => simp [h, hk]
        · next h => simp [h]
      · have hne : ¬ k = d % 16 := Ne.symm hd
        split
        · simp [hk, hd, hne]
        · simp [hd]
    show (okBits ids l _).getLsbD k = _
    rw [ih, hstep, List.any_cons, Bool.or_assoc, ← Bool.and_or_distrib_left]

theorem typeDies_le (t : BitVec 2) : typeDies t ≤ 8 := by
  unfold State.typeDies
  split
  · decide
  · split <;> decide

/-- A die of a channel goes by its number modulo 16. -/
theorem chanDies_any (s : State) (n : Nat) {k : Nat} (hk : k < 16) :
    ((s.chanDies n).any fun d => decide (d % 16 = k)) = (s.chanDies n).contains (n * 16 + k) := by
  have h0 := typeDies_le (s.qc n).pkg0
  have h1 := typeDies_le (s.qc n).pkg1
  have hlow : ∀ d ∈ s.chanDies n, d = n * 16 + d % 16 := by
    intro d hd
    rcases List.mem_append.1 hd with hd | hd
    · obtain ⟨i, hi, rfl⟩ := List.mem_map.1 hd
      have := List.mem_range.1 hi
      omega
    · obtain ⟨i, hi, rfl⟩ := List.mem_map.1 hd
      have := List.mem_range.1 hi
      omega
  refine Bool.eq_iff_iff.2 ?_
  rw [List.any_eq_true, List.contains_iff_mem]
  constructor
  · rintro ⟨d, hd, hk⟩
    have hdk := of_decide_eq_true hk
    rw [hlow d hd, hdk] at hd
    exact hd
  · intro hd
    exact ⟨_, hd, decide_eq_true (by omega)⟩

theorem foldl_emit_out {α : Type} (f : α → Out) (l : List α) (s : State) :
    (l.foldl (fun s a => s.emit (f a)) s).out = (l.map f).reverse ++ s.out := by
  induction l generalizing s with
  | nil => rfl
  | cons a l ih =>
    rw [List.foldl_cons, ih]
    simp [State.emit]

/-- Settles O16: a failed check or a missing place is what the group's record says after the inventory, since what diverts its reads keeps the
groups; a good first package changes its channel's record alone; a poll takes each fitted place once, its calibrations issuing commands only. -/
theorem quarryGroups : Obligations.QuarryGroups := by
  unfold Obligations.QuarryGroups
  refine ⟨?_, ?_, ?_, ?_, ?_, ?_, ?_, ?_, ?_⟩
  · intro s n pkg seen d k hmed hrails hbad hen hhold hplace hcheck
    have hq := inventoried_qg s (n / 16) seen (Fin.ofNat 32 (packageIndex n pkg))
    have hfails := inventoryFails_qg (s := inventoried s (n / 16) seen (Fin.ofNat 32 (packageIndex n pkg))) (n := n) pkg k
    rw [hq] at hfails
    have hrun := packageReady_runs pkg seen d hmed hrails hbad hen hhold
    exact ⟨_, hrun.trans (congrArg Host.Outcome.next (inventory_check hplace hcheck)), hfails hbad⟩
  · intro s n pkg second seen d k hmed hrails hbad hen hhold hplace
    have hq := inventoried_qg s (n / 16) seen (Fin.ofNat 32 (packageIndex n pkg))
    have hk := placeMissing_lt hplace
    have hfails := inventoryFails_qg (s := inventoried s (n / 16) seen (Fin.ofNat 32 (packageIndex n pkg))) (n := 16 * (n / 16) + k) second 1
    rw [place_group _ hk, hq] at hfails
    rw [place_channel] at hfails
    have hrun := packageReady_runs pkg seen d hmed hrails hbad hen hhold
    exact ⟨_, hrun.trans (congrArg Host.Outcome.next (inventory_missing hplace)), hfails hbad⟩
  · intro s n seen d hmed hrails hbad hen hhold hplace hcheck hten hoff hline hpkg1 hready hsame
    have hqg := inventoried_qg s (n / 16) seen (Fin.ofNat 32 (packageIndex n false))
    have hqc := inventoried_qc s (n / 16) seen (Fin.ofNat 32 (packageIndex n false))
    have hrun := packageReady_runs false seen d hmed hrails hbad hen hhold
    generalize inventoried s (n / 16) seen (Fin.ofNat 32 (packageIndex n false)) = u at hqg hqc hrun
    have hfirst := packageUp_first (s := u) (n := n) (if descByte d 1 = 4 then 1 else 2) (by rw [hqc]; exact hoff) (by rw [hqc]; exact hline)
      (by rw [hqc]; exact hready)
    have hothers : ∀ m : Nat, m ≠ n → (u.packageUp n false (if descByte d 1 = 4 then 1 else 2)).qc m = u.qc m :=
      fun m hm => packageUp_qc_ne _ _ _ hm
    have hgroup : (u.packageUp n false (if descByte d 1 = 4 then 1 else 2)).qg (n / 16) = u.qg (n / 16) := rfl
    generalize hv : u.packageUp n false (if descByte d 1 = 4 then 1 else 2) = v at hfirst hothers hgroup
    rw [hqc, hqg] at hfirst
    have hgood : v.populationBad n = none := by
      refine populationBad_none (by rw [hfirst]; exact hpkg1) fun k hk => ?_
      by_cases hkn : n.val / 16 * 16 + k = n.val
      · rw [hkn]
        exact .inr rfl
      · rw [hothers _ hkn, hqc, hfirst]
        exact hsame k hk
    refine ⟨v, hrun.trans (congrArg Host.Outcome.next (inventory_good hplace hcheck hten hv hgood)), ?_⟩
    refine ⟨?_, ?_, ?_, ?_, ?_, ?_⟩
    · rw [hfirst]
    · rw [hfirst]
    · rw [hfirst]
    · rw [hgroup, hqg]
    · rw [hgroup, hqg]
    · rw [hgroup, hqg]
      exact hbad
  · intro s n ids hmed hrails hbad hstate
    have hgo : (!s.medUp || !(s.qg (n / 16)).railsUp || (s.qg (n / 16)).invBad || !((s.qc n).lstate == .detect || (s.qc n).lstate == .train)) =
        false := by
      rw [hmed, hrails, hbad]
      rcases hstate with h | h <;> rw [h] <;> rfl
    have hout := foldl_emit_out (fun d => .qmi n { op := .identify, die := Fin.ofNat 16 d }) (s.chanDies n) s
    have hkeeps : Keeps [.med, .out] s ((s.chanDies n).foldl (fun s d => s.emit (.qmi n { op := .identify, die := Fin.ofNat 16 d })) s) :=
      Keeps.foldl _ (fun u d => (emit_keeps u _).mono (by decide)) (Keeps.refl _ _)
    refine ⟨_, congrArg Host.Outcome.next (if_neg (ne_true_of_eq_false hgo)), ?_⟩
    extract_lets src dies bits s0 s1 s2 s3
    have hqc : s1.qc n = { s.qc n with
        lstate := .active, eqValid := true, dieOk := bits, unacked := 0, replays := 0, nak := false, rxOwed := 0 } := qc_setQc _ _ _
    have hs1 : s1.out = s0.out := rfl
    refine ⟨s1, s2, s3, ?_, ⟨bits, fun k => ?_, hqc⟩, hs1.trans hout, rfl, rfl, rfl⟩
    · exact Keeps.after (setQc_keeps _ _ _) (by decide) hkeeps
    · refine (okBits_get ids dies 0 k.isLt).trans ?_
      rw [chanDies_any _ _ k.isLt]
      simp
  · intro s g temps i x hstate hmain hrails hen hhold hi hx hfit
    obtain ⟨t, ht, b, hqg, -⟩ := tempPoll_qg temps hstate hmain hrails hen hhold
    have hpackage := foldl_polled temps _ List.nodup_range (List.mem_range.2 hi) (fitted_of hfit)
    generalize (List.range 32).foldl (polled g temps) s = f at hqg hpackage
    refine ⟨t, ht, ?_⟩
    dsimp only
    rw [hqg]
    exact hpackage.trans (by rw [hx]; rfl)
  · intro s g temps i hstate hmain hrails hen hhold hi hx hfit hmissed
    obtain ⟨t, ht, b, hqg, hover⟩ := tempPoll_qg temps hstate hmain hrails hen hhold
    have hpackage : (Tab.get {} (((List.range 32).foldl (polled g temps) s).qg g).packages i).missed = 3 := by
      refine (congrArg Package.missed (foldl_polled temps _ List.nodup_range (List.mem_range.2 hi) (fitted_of hfit))).trans ?_
      rw [hx]
      exact congrArg (· + 1) hmissed
    generalize (List.range 32).foldl (polled g temps) s = f at hqg hover hpackage
    have hside := sideband_failed (Nat.le_of_eq hpackage.symm)
    refine ⟨t, ht, ?_⟩
    dsimp only
    rw [hqg]
    exact ⟨hpackage, hside, hover hside⟩
  · intro s g hmed hrails
    refine ⟨_, congrArg Host.Outcome.next (if_pos (by rw [hmed, hrails]; rfl)), ?_⟩
    obtain ⟨b, hb, hover⟩ := judgeTemp_qg (s.setQg g { s.qg g with sbOk := false }) g
    rw [qg_setQg] at hb hover
    rw [hb, hover rfl]
  · intro s g pkg x hmed hrails halert
    refine ⟨_, congrArg Host.Outcome.next ((if_pos (by rw [hmed, hrails]; rfl)).trans (if_pos (by rw [halert]; rfl))), ?_⟩
    refine (qg_of_med (deviceRecord_keeps _ _ _ |>.med (by decide)) _).trans ?_
    exact (qg_of_holds (judgeQg_holds _ _) _).trans (qg_setQg _ _ _)
  · intro s g pkg x hmed hrails
    refine ⟨_, congrArg Host.Outcome.next ((if_pos (by rw [hmed, hrails]; rfl)).trans (if_neg Bool.false_ne_true)), ?_⟩
    exact (qg_of_holds (judgeQg_holds _ _) _).trans (qg_setQg _ _ _)

end Sys2Proof.Inventory

/-! What the dies answer (R73 to R79): a response in order of an outstanding command is taken, acted on, and the channel goes on. -/

namespace Sys2Proof.Responses

open Sys2Proof.Machine State Sys2Proof.Readings Sys2Proof.Lanes Sys2Proof.Keeping Sys2Proof.Steady

/-- What taking a response leaves of the dies. -/
theorem received_holds (s : State) (n : Nat) (seq : BitVec 8) : Holds s (s.received n seq) := by
  unfold State.received
  dsimp only
  exact (setQc_holds _ _ _).trans (.foldl _ (fun u i => .of_med rfl) (.refl _))

theorem received_die (s : State) (n : Nat) (seq : BitVec 8) (d : Nat) : (s.received n seq).die d = s.die d := by
  unfold State.received
  extract_lets q owed s1
  exact foldl_field (fun u : State => u.die d) (fun u i => u.emit _) _ (fun _ _ => rfl) s1

theorem taken_die (s : State) (n : Nat) (c : QmiCmd) (seq : BitVec 8) (d : Nat) : (s.taken n c seq).die d = s.die d := received_die _ _ _ _

/-- A response in order of an outstanding command on a channel that serves. -/
theorem answered_taken {s : State} {n : Nat} {seq : BitVec 8} {tag : BitVec 10} {words : Nat} {ops : QmiOp → Bool} {c : QmiCmd}
    (k : QmiCmd → State → State) (hmed : s.medUp = true) (hup : (s.qc n).lstate = .active) (hwait : (s.qc n).offWait = false)
    (hseq : State.inOrder (s.qc n) seq words = true) (hfind : (s.qc n).sent.find? (fun x => x.tag == tag && ops x.op) = some c) :
    s.answered n seq tag words ops k = (k c.nextLine (s.taken n c seq)).answerEnd n := by
  unfold State.answered
  extract_lets q
  rw [if_neg (by rw [hmed, show q.lstate = .active from hup]; simp), if_neg (by rw [hseq]; simp), show q.sent.find? _ = some c from hfind]
  dsimp -zeta only
  extract_lets s1 s2 q2 s3
  have h2 : s2 = k c.nextLine (s.taken n c seq) := if_neg (by rw [show q.offWait = false from hwait]; exact Bool.false_ne_true)
  clear_value s2
  subst h2
  rfl

/-- A response in order that no outstanding command waits for counts its flits. -/
theorem answered_unknown {s : State} {n : Nat} {tag : BitVec 10} {words : Nat} {ops : QmiOp → Bool} (k : QmiCmd → State → State)
    (hmed : s.medUp = true) (hup : (s.qc n).lstate = .active) (hfind : ∀ c ∈ (s.qc n).sent, c.tag ≠ tag) :
    s.answered n (s.qc n).rxSeq tag words ops k = s.received n (s.qc n).rxSeq := by
  have hseq : State.inOrder (s.qc n) (s.qc n).rxSeq words = true := by
    unfold State.inOrder respSpan
    rw [show (s.qc n).rxSeq + 1 - (s.qc n).rxSeq = 1 from add_sub_cancel_left _ _]
    exact decide_eq_true (show 1 ≤ _ by omega)
  have hnone : (s.qc n).sent.find? (fun x => x.tag == tag && ops x.op) = none := List.find?_eq_none.2 fun c hc => by simp [hfind c hc]
  unfold State.answered
  dsimp only
  rw [if_neg (by rw [hmed, hup]; simp), if_neg (by rw [hseq]; simp), hnone]

/-- A response out of order is NAKed once. -/
theorem answered_gap {s : State} {n : Fin 144} {seq : BitVec 8} (tag : BitVec 10) {words : Nat} (ops : QmiOp → Bool) (k : QmiCmd → State → State)
    (hmed : s.medUp = true) (hup : (s.qc n).lstate = .active) (hnak : (s.qc n).nak = false)
    (hgap : respSpan words < (seq + 1 - (s.qc n).rxSeq).toNat) :
    (s.answered n seq tag words ops k).qc n = { s.qc n with nak := true, rxOwed := 0 } ∧
      (s.answered n seq tag words ops k).out = .qmiLctl n (.nak ((s.qc n).rxSeq - 1)) :: s.out := by
  have hseq : State.inOrder (s.qc n) seq words = false := decide_eq_false (Nat.not_le.2 hgap)
  have hrun : s.answered n seq tag words ops k = s.sendNak n := by
    unfold State.answered
    dsimp only
    rw [if_neg (by rw [hmed, hup]; simp), if_pos (by rw [hseq]; rfl)]
  have hsend : s.sendNak n = (s.setQc n { s.qc n with nak := true, rxOwed := 0 }).emit (.qmiLctl (Fin.ofNat 144 n) (.nak ((s.qc n).rxSeq - 1))) :=
    if_neg (by rw [hnak]; exact Bool.false_ne_true)
  rw [hrun, hsend, Fin.ofNat_val_eq_self]
  exact ⟨qc_setQc _ _ _, rfl⟩

/-- A die that a failure names has failed, then or before. -/
theorem failDie_failed (s : State) (d : Nat) : ((s.failDie d).die d).failed = true := by
  cases h : (s.die d).failed with
  | true =>
    have hsame : s.failDie d = s := if_pos h
    rw [hsame, h]
  | false =>
    obtain ⟨hfailed, -⟩ := (failDie_holds h).die d
    rw [hfailed, die_setDie]

/-- A die that answers its IDENTIFY is in service. -/
theorem dieIdentified_serves (s : State) (d : Nat) : ((s.dieIdentified d true).die d).identified = true ∧
    ((s.dieIdentified d true).die d).failed = false ∧ ((s.dieIdentified d true).die d).used = true := by
  unfold State.dieIdentified
  rw [if_neg (by simp)]
  extract_lets v back s1 s2 mv s3
  have h1 : s1.die d = { s.die d with identified := true, failed := false, used := true } := die_setDie _ _ _
  have h2 : Holds s1 s2 := .ite (.refl s1) (.foldl _ (fun u z => (setZone_holds _ _ _ _).trans (journal_holds _ _)) (.refl s1))
  have h3 : Holds s2 s3 := .foldl _ (fun u m => moveAbandon_holds u _ _) (.refl s2)
  clear_value s1 s2 s3
  have h4 : Holds s3 ((s3.setMed { s3.med with rebuild := s3.med.rebuild.filter fun n => !back n }).judgeTsl) :=
    (Holds.of_parts (s := s3) (t := s3.setMed { s3.med with rebuild := s3.med.rebuild.filter fun n => !back n }) rfl rfl).trans (judgeTsl_holds _)
  obtain ⟨hfailed, hidentified, hused, -⟩ := ((h2.trans h3).trans h4).die d
  rw [h1] at hfailed hidentified hused
  exact ⟨hidentified, hfailed, hused⟩

/-- The last set to load leaves the die with its tables. -/
theorem setLoaded_last {s : State} {d : Nat} (h : (s.die d).loads = 1) : ((s.setLoaded d).die d).tables = true := by
  have h1 : ((s.setDie d { s.die d with loads := 0, tables := true }).die d).tables = true := by rw [die_setDie]
  unfold State.setLoaded
  dsimp only
  rw [if_pos (Nat.le_of_eq h), if_pos h]
  generalize s.setDie d { s.die d with loads := 0, tables := true } = s1 at h1 ⊢
  split
  · have h2 := ((redrive_holds s1 fun r => match (s1.sett (lineSett r.line)).phys with
      | some p => p.die == d
      | none => false).trans (pump_holds _ (dieChan d))).trans (tryOpen_holds _)
    obtain ⟨-, -, -, htables⟩ := h2.die d
    exact htables.trans h1
  · exact h1

theorem setLoaded_more {s : State} {d : Nat} (h : 1 < (s.die d).loads) :
    s.setLoaded d = s.setDie d { s.die d with loads := (s.die d).loads - 1 } := if_neg (Nat.not_le.2 h)

theorem setLoaded_none {s : State} {d : Nat} (h : (s.die d).loads = 0) : s.setLoaded d = s.setDie d (s.die d) := by
  unfold State.setLoaded
  dsimp only
  rw [if_pos (by omega), if_neg (by omega), if_neg (by omega), ← h]

/-- A die fault ends the command and the die, and the drain goes on without it. -/
theorem doneFor_fault (s : State) (n : Nat) (c : QmiCmd) {i : DoneInfo} (h : i.status = .dieFault) :
    s.doneFor n c i = ((s.undo n c).failDie (n * 16 + c.die)).drainLostDies := by
  unfold State.doneFor
  dsimp only
  rw [h]

theorem errorFor_fault (s : State) (n : Nat) (c : QmiCmd) {i : DoneInfo} (h : i.status = .dieFault) :
    s.errorFor n c i = ((s.undo n c).failDie (n * 16 + c.die)).drainLostDies := by
  unfold State.errorFor
  rw [if_neg (by simp [h]), doneFor_fault s n c h]

/-- A sense whose reference sets are not loaded has them loaded before it is issued again. -/
theorem errorFor_unset (s : State) (n : Nat) {c : QmiCmd} (h : c.isSense = true) :
    s.errorFor n c { status := .refUnset } = (s.loadSets (n * 16 + c.die)).issue (n * 16 + c.die) c :=
  if_pos (by rw [h]; rfl)

theorem doneFor_setRef (s : State) (n : Nat) {c : QmiCmd} (h : c.op = .setRef) : s.doneFor n c { status := .ok } = s.setLoaded (n * 16 + c.die) := by
  unfold State.doneFor
  dsimp only
  rw [h]

theorem doneFor_busy (s : State) (n : Nat) {c : QmiCmd} (h : c.op = .setZoneMode) :
    s.doneFor n c { status := .partitionBusy } = s.issue (n * 16 + c.die) c := by
  unfold State.doneFor
  dsimp only
  rw [h]
  rfl

theorem doneFor_reset (s : State) (n : Nat) {c : QmiCmd} (h : c.op = .dieReset) :
    s.doneFor n c {} = (s.setDie (n * 16 + c.die) { s.die (n * 16 + c.die) with tables := false }).loadSets (n * 16 + c.die) := by
  unfold State.doneFor
  dsimp only
  rw [h]

theorem doneFor_writeBack (s : State) (n : Nat) {c : QmiCmd} {i : DoneInfo} {x : Nat} (hop : c.op = .program) (huser : c.user = .writeBack x)
    (hok : i.status = .ok) : s.doneFor n c i =
      if (s.sett (lineSett x)).phys.isNone &&
          ((s.programVerified { die := n * 16 + c.die, zone := c.zone, slot := c.slot } c i).sett (lineSett x)).phys.isSome then
        (s.programVerified { die := n * 16 + c.die, zone := c.zone, slot := c.slot } c i).spareNow
      else s.programVerified { die := n * 16 + c.die, zone := c.zone, slot := c.slot } c i := by
  unfold State.doneFor
  dsimp only
  rw [hop, hok, huser]

/-- Settles O14: every response goes through `answered`, whose tail is the same for all; what a command's answer does is read off `errorFor` and
`doneFor`, and a die's standing lasts through the work that follows. -/
theorem quarryAnswers : Obligations.QuarryAnswers := by
  unfold Obligations.QuarryAnswers
  refine ⟨?_, ?_, ?_⟩
  · intro s n seq c hmed hup hwait
    have htaken : ∀ {tag : BitVec 10} {words : Nat} {ops : QmiOp → Bool} (k : QmiCmd → State → State), State.inOrder (s.qc n) seq words = true →
        (s.qc n).sent.find? (fun x => x.tag == tag && ops x.op) = some c →
        s.answered n seq tag words ops k = (k c.nextLine (s.taken n c seq)).answerEnd n :=
      fun k hseq hfind => answered_taken k hmed hup hwait hseq hfind
    have hdie : ∀ d, (s.taken n c seq).die d = s.die d := taken_die s n c seq
    refine ⟨?_, ?_, ?_, ?_, ?_, ?_, ?_, ?_, ?_, ?_, ?_, ?_, ?_, ?_, ?_⟩
    · exact fun f hseq hfind => ⟨_, congrArg Host.Outcome.next (htaken _ hseq hfind), rfl⟩
    · exact fun a b d hseq hfind => ⟨_, congrArg Host.Outcome.next (htaken _ hseq hfind), rfl⟩
    · exact fun hseq hfind => ⟨_, congrArg Host.Outcome.next (htaken _ hseq hfind), _, rfl, failDie_failed _ _, rfl⟩
    · intro hseq hfind hid
      refine ⟨_, congrArg Host.Outcome.next (htaken _ hseq hfind), ?_⟩
      exact congrArg (State.answerEnd · n) ((if_neg (by simp)).trans (if_pos ((congrArg Die.identified (hdie _)).trans hid)))
    · intro hseq hfind hid
      obtain ⟨h1, h2, h3⟩ := dieIdentified_serves (s.taken n c seq) (n * 16 + c.die)
      refine ⟨_, congrArg Host.Outcome.next (htaken _ hseq hfind), _, rfl, h1, h2, h3, ?_⟩
      exact congrArg (State.answerEnd · n) ((if_neg (by simp)).trans
        (if_neg (ne_true_of_eq_false ((congrArg Die.identified (hdie _)).trans hid))))
    · exact fun es hseq hfind => ⟨_, congrArg Host.Outcome.next (htaken _ hseq hfind), rfl⟩
    · intro hseq hfind hsense
      refine ⟨_, congrArg Host.Outcome.next (htaken (ops := fun _ => true) _ hseq hfind), ?_⟩
      exact congrArg (State.answerEnd · n) (errorFor_unset _ _ hsense)
    · intro hseq hfind
      refine ⟨_, congrArg Host.Outcome.next (htaken (ops := fun _ => true) _ hseq hfind), _, rfl, failDie_failed _ _, ?_⟩
      exact congrArg (State.answerEnd · n) (errorFor_fault _ _ _ rfl)
    · intro hseq hfind hop hloads
      refine ⟨_, congrArg Host.Outcome.next (htaken (ops := fun o => o == .setRef || o == .setZoneMode) _ hseq hfind), _, rfl,
        setLoaded_last ((congrArg Die.loads (hdie _)).trans hloads), ?_⟩
      exact congrArg (State.answerEnd · n) (doneFor_setRef (s.taken n c seq) n (c := c.nextLine) hop)
    · intro hseq hfind hop hloads
      refine ⟨_, congrArg Host.Outcome.next (htaken (ops := fun o => o == .setRef || o == .setZoneMode) _ hseq hfind), ?_⟩
      refine congrArg (State.answerEnd · n) ((doneFor_setRef (s.taken n c seq) n (c := c.nextLine) hop).trans ((setLoaded_more ?_).trans ?_))
      · exact (congrArg Die.loads (hdie _)).symm ▸ hloads
      · rw [hdie]
        rfl
    · intro hseq hfind hop hloads
      refine ⟨_, congrArg Host.Outcome.next (htaken (ops := fun o => o == .setRef || o == .setZoneMode) _ hseq hfind), ?_⟩
      refine congrArg (State.answerEnd · n) ((doneFor_setRef (s.taken n c seq) n (c := c.nextLine) hop).trans ((setLoaded_none ?_).trans ?_))
      · exact (congrArg Die.loads (hdie _)).trans hloads
      · rw [hdie]
        rfl
    · intro hseq hfind hop
      refine ⟨_, congrArg Host.Outcome.next (htaken (ops := fun o => o == .setRef || o == .setZoneMode) _ hseq hfind), ?_⟩
      exact congrArg (State.answerEnd · n) (doneFor_busy (s.taken n c seq) n (c := c.nextLine) hop)
    · intro hseq hfind hop
      refine ⟨_, congrArg Host.Outcome.next (htaken (ops := fun o => o == .dieReset) _ hseq hfind), _, rfl, ?_⟩
      refine congrArg (State.answerEnd · n) ((doneFor_reset (s.taken n c seq) n (c := c.nextLine) hop).trans ?_)
      rw [hdie]
      rfl
    · intro i x hseq hfind hop huser hok
      refine ⟨_, congrArg Host.Outcome.next (htaken (ops := fun o => o == .program) _ hseq hfind), _, _, rfl, rfl, ?_⟩
      exact congrArg (State.answerEnd · n) (doneFor_writeBack (s.taken n c seq) n (c := c.nextLine) hop huser hok)
    · intro i hseq hfind hop hfault
      refine ⟨_, congrArg Host.Outcome.next (htaken (ops := fun o => o == .program) _ hseq hfind), _, rfl, failDie_failed _ _, ?_⟩
      exact congrArg (State.answerEnd · n) (doneFor_fault _ _ _ hfault)
  · intro s n tag f a b d e i hmed hup hfind
    have hunknown : ∀ {words : Nat} {ops : QmiOp → Bool} (k : QmiCmd → State → State),
        s.answered n (s.qc n).rxSeq tag words ops k = s.received n (s.qc n).rxSeq := fun k => answered_unknown k hmed hup hfind
    exact ⟨⟨_, rfl, hunknown _⟩, ⟨_, rfl, hunknown _⟩, ⟨_, rfl, hunknown _⟩, ⟨_, rfl, hunknown _⟩, ⟨_, rfl, hunknown _⟩, ⟨_, rfl, hunknown _⟩,
      ⟨_, rfl, hunknown _⟩⟩
  · intro s n seq tag f i hmed hup hnak hgap
    refine ⟨⟨_, rfl, answered_gap _ _ _ hmed hup hnak hgap⟩, ⟨_, rfl, answered_gap _ _ _ hmed hup hnak ?_⟩⟩
    exact Nat.lt_of_le_of_lt (by decide) hgap

end Sys2Proof.Responses

/-! What the work of the medium does where it goes well (R61, R93): where the statement of the calibration slot fails. -/

namespace Sys2Proof.LaneTable

open Sys2Proof.Machine State

/-- A state in IDLE whose channel table is not in canonical form: channel 0 stands in it twice, first at its default, then asleep. Die 0 on it has no
tables and is not up; die 16 on channel 1 is up with its tables. Slot 0 asks for the calibration of group 0. -/
def doubled : State := { State.reset with
  psq.vaon := true, psq.mainUp := true, psq.pstate := .idle, tally.started := true
  sched.slots := [(0, { arm := true, action := 2, arg := 1 })]
  med.chans := [(0, {}), (0, { lstate := .sleep }), (1, { lstate := .active })]
  med.dies := [(0, { identified := true, used := true }), (16, { identified := true, used := true, tables := true })] }

/-- Whether die 16's calibration is due at the next state. -/
def calibrates : Res → Bool
  | .next t => (t.die 16).calDue
  | _ => false

/-- As the lanes wake, the default entry of channel 0 goes and the one behind it brings die 0 up without tables: the slot finds the tables not ready. -/
theorem doubled_waits : calibrates (exec (.eyebrightCal 0) doubled) = false := by decide +kernel

/-- Refutes O53: in IDLE a calibration slot is to make the calibration of its groups' dies due where the tables are ready, but waking the lanes can
bring up a die without tables where the channel table holds a channel twice, and then nothing is made due. -/
theorem not_mediumEffects : ¬ Obligations.MediumEffects := by
  rintro ⟨-, -, -, -, -, -, -, -, -, -, -, -, h, -⟩
  obtain ⟨t, hrun, hdue, -⟩ := h doubled 0 (by decide +kernel) (by decide +kernel) (.inr rfl) (by decide +kernel) (by decide +kernel)
  have hwaits := doubled_waits
  rw [hrun] at hwaits
  exact absurd ((hdue 0 (by decide +kernel) 16 (by decide +kernel)).symm.trans hwaits) (by decide)

end Sys2Proof.LaneTable

/-! What the work that follows every command leaves of the wake deadline's source: nothing in it lowers source 158 (R62), for every level it
follows is another source's. -/

namespace Sys2Proof.DeadlineSource

open Sys2Proof.Machine State Sys2Proof.Readings Sys2Proof.Lanes Sys2Proof.Moves

/-- Source 158 is still up at `t` where it was at `s`. -/
def Stands (s t : State) : Prop := s.evt.raw.getLsbD 158 = true → t.evt.raw.getLsbD 158 = true

theorem Stands.refl (s : State) : Stands s s := id

theorem Stands.trans {s t u : State} (h : Stands s t) (k : Stands t u) : Stands s u := fun hs => k (h hs)

theorem Stands.of_evt {s t : State} (h : t.evt = s.evt) : Stands s t := fun hs => by rwa [h]

/-- What does not touch the events. -/
theorem Stands.of_keeps {w : List Part} {s t : State} (h : Keeps w s t) (he : Part.evt ∉ w) : Stands s t := .of_evt (h.evt he)

theorem Stands.ite {s t u : State} {c : Prop} [Decidable c] (h : Stands s t) (k : Stands s u) : Stands s (if c then t else u) := by
  split
  · exact h
  · exact k

theorem Stands.ite_fst {α : Type} {s : State} {p q : State × α} {c : Prop} [Decidable c] (h : Stands s p.1) (k : Stands s q.1) :
    Stands s (if c then p else q).1 := by
  split
  · exact h
  · exact k

theorem Stands.foldl {α : Type} {s t : State} {f : State → α → State} (l : List α) (hf : ∀ u a, Stands u (f u a)) (h : Stands s t) :
    Stands s (l.foldl f t) := by
  induction l generalizing t with
  | nil => exact h
  | cons a l ih => exact ih (h.trans (hf t a))

theorem Stands.foldl_fst {α β : Type} {s : State} {p : State × β} {f : State × β → α → State × β} (l : List α)
    (hf : ∀ q a, Stands q.1 (f q a).1) (h : Stands s p.1) : Stands s (l.foldl f p).1 := by
  induction l generalizing p with
  | nil => exact h
  | cons a l ih => exact ih (h.trans (hf p a))

theorem setMed_stands (s : State) (v : Medium) : Stands s (s.setMed v) := .of_evt rfl

theorem setYrw_stands (s : State) (y : Yarrow) : Stands s (s.setYrw y) := .of_evt rfl

theorem setSett_stands (s : State) (n : Nat) (v : Sett) : Stands s (s.setSett n v) := .of_evt rfl

theorem setZone_stands (s : State) (d z : Nat) (v : Zone) : Stands s (s.setZone d z v) := .of_evt rfl

theorem setDie_stands (s : State) (d : Nat) (v : Die) : Stands s (s.setDie d v) := .of_evt rfl

theorem setBench_stands (s : State) (b : Bench) : Stands s (s.setBench b) := .of_evt rfl

theorem setXlt_stands (s : State) (x : Xlt) : Stands s (s.setXlt x) := .of_evt rfl

theorem setQp_stands (s : State) (n : Nat) (q : Qp) : Stands s (s.setQp n q) := .of_evt rfl

theorem setPass_stands (s : State) (g : Nat) (v : Pass) : Stands s (s.setPass g v) := .of_evt rfl

theorem setScb_stands (s : State) (n : Nat) (v : Option Scb) : Stands s (s.setScb n v) := .of_evt rfl

theorem emit_stands (s : State) (o : Out) : Stands s (s.emit o) := .of_evt rfl

theorem draw_stands (s : State) : Stands s s.draw := .of_evt rfl

theorem Stands.of_fst {α : Type} {s u : State} {a : α} {q : State × α} (e : q = (u, a)) (h : Stands s q.1) : Stands s u := by
  subst e
  exact h

/-! ### Causes and levels of other sources -/

theorem raise_stands (s : State) (n : Nat) : Stands s (s.raise n) := raise_keeps_raw s n 158 (by decide)

theorem cause_stands (s : State) (r : Reg) (k b n : Nat) : Stands s (s.cause r k b n) := cause_keeps_raw s r k b n 158 (by decide)

theorem lower_stands (s : State) {n : Nat} (h : n ≠ 158) : Stands s (s.lower n) := fun hs => by
  rw [lower_raw s n 158 h.symm]
  exact hs

theorem setBit_stands (s : State) (r : Reg) (k b : Nat) (v : Bool) : Stands s (s.setBit r k b v) := .of_keeps (setBit_keeps s r k b v) (by decide)

theorem bump_stands (s : State) (r : Reg) (k hi lo n : Nat) : Stands s (s.bump r k hi lo n) := .of_keeps (bump_keeps s r k hi lo n) (by decide)

theorem level_stands (s : State) (r : Reg) (k b m : Nat) (v : Bool) {n : Nat} (h : n ≠ 158) : Stands s (s.level r k b n m v) := by
  have h1 := setBit_stands s r k b v
  unfold State.level
  dsimp only
  exact .ite (h1.trans (raise_stands _ _)) (.ite (h1.trans (lower_stands _ h)) h1)

theorem judgeXlt_stands (s : State) : Stands s s.judgeXlt := by
  unfold State.judgeXlt
  extract_lets lv s1 s2 s3 s4 s5
  have hlv : ∀ (u : State) (b : Nat) (v : Bool), Stands u (lv u b v) := fun u b v => level_stands _ _ _ _ _ _ (by omega)
  exact ((((hlv s 0 _).trans (hlv s1 1 _)).trans (hlv s2 2 _)).trans (hlv s3 3 _)).trans ((hlv s4 4 _).trans (hlv s5 5 _))

theorem judgeBench_stands (s : State) : Stands s s.judgeBench := by
  unfold State.judgeBench
  extract_lets limit used forced bench s0 lv a s1 s2 s3 s4
  have hlv : ∀ (u : State) (b : Nat) (v : Bool), Stands u (lv u b v) := fun u b v => level_stands _ _ _ _ _ _ (by omega)
  have h0 : Stands s s0 := setBench_stands _ _
  exact (((h0.trans (hlv s0 0 _)).trans (hlv s1 1 _)).trans (hlv s2 2 _)).trans ((hlv s3 3 _).trans (hlv s4 4 _))

theorem judgeTdm_stands (s : State) : Stands s s.judgeTdm := by
  unfold State.judgeTdm
  extract_lets lv any t down s1 s2 s3 s4 s5 s6
  have hlv : ∀ (u : State) (b : Nat) (v : Bool), Stands u (lv u b v) := fun u b v => level_stands _ _ _ _ _ _ (by omega)
  exact ((((hlv s 0 _).trans (hlv s1 1 _)).trans (hlv s2 2 _)).trans (hlv s3 3 _)).trans (((hlv s4 4 _).trans (hlv s5 5 _)).trans (hlv s6 6 _))

theorem judgeTsl_stands (s : State) : Stands s s.judgeTsl := by
  unfold State.judgeTsl
  extract_lets left served lv s1 s2 s3
  have hlv : ∀ (u : State) (b : Nat) (v : Bool), Stands u (lv u b v) := fun u b v => level_stands _ _ _ _ _ _ (by decide)
  exact ((hlv s 0 _).trans (hlv s1 1 _)).trans ((hlv s2 2 _).trans (hlv s3 3 _))

theorem judgeYrw_stands (s : State) : Stands s s.judgeYrw := by
  unfold State.judgeYrw
  extract_lets y old f q rank new
  exact .ite (.refl s) (Stands.trans (.of_keeps (setFld_keeps _ _ _ _ _ _) (by decide)) (cause_stands _ _ _ _ _))

/-! ### The journal, slots and moves -/

theorem journal_stands (s : State) (k : JKey) : Stands s (s.journal k) := by
  unfold State.journal
  extract_lets s1
  have h1 : Stands s s1 := .foldl _ (fun u i => .of_keeps (journalPart_keeps u k i) (by decide)) (.refl s)
  exact Stands.trans (.ite (h1.trans (setXlt_stands _ _)) h1) (judgeXlt_stands _)

theorem putSett_stands (s : State) (n : Nat) (v : Sett) : Stands s (s.putSett n v) := (setSett_stands s n v).trans (journal_stands _ _)

theorem putRt_stands (s : State) (r : Nat) (v : RTwin) : Stands s (s.putRt r v) :=
  Stands.trans (.of_keeps (setRt_keeps s r v) (by decide)) (journal_stands _ _)

theorem issue_stands (s : State) (d : Nat) (c : QmiCmd) : Stands s (s.issue d c) := .of_keeps (issue_keeps s d c) (by decide)

theorem takeSlot_stands (s : State) (p : Phys) (m : Mode) : Stands s (s.takeSlot p m).1 := by
  unfold State.takeSlot
  extract_lets v change v1 ladder old v2 n mine med0 s0 qc0 s1 s2 die2 s3
  have h1 : Stands s s1 := .of_evt rfl
  have h2 : Stands s s2 := .ite (h1.trans (issue_stands _ _ _)) h1
  have h3 : Stands s s3 := .ite (h2.trans (setDie_stands _ _ _)) h2
  clear_value s3 old
  dsimp only
  exact (h3.trans (journal_stands s3 _)).trans (journal_stands _ _)

theorem moveFeed_stands (s : State) (n : Nat) : Stands s (s.moveFeed n) := .of_keeps (moveFeed_keeps s n) (by decide)

theorem entered_stands (s : State) (n : Nat) (e : Sett) (mv : Move) : Stands s (entered s n e mv) := by
  unfold entered
  exact ((putSett_stands _ _ _).trans (setYrw_stands _ _)).trans (moveFeed_stands _ _)

theorem moveStart_stands (s : State) (n : Nat) (k : WorkKind) (dest : Option Phys) (mode : Mode) : Stands s (s.moveStart n k dest mode) := by
  cases dest with
  | none =>
    rw [moveStart_rewrite]
    exact entered_stands _ _ _ _
  | some p =>
    rw [moveStart_dest]
    exact ((takeSlot_stands s p mode).trans (draw_stands _)).trans (entered_stands _ _ _ _)

theorem leaveSlot_stands (s : State) (p : Phys) (w : BitVec 16) (b : Bool) : Stands s (s.leaveSlot p w b) := by
  unfold State.leaveSlot
  extract_lets v v1 s1
  have h1 : Stands s s1 := (setZone_stands _ _ _ _).trans (journal_stands _ _)
  exact h1.trans (journal_stands _ _)

theorem moveAbandon_stands (s : State) (n : Nat) (b : Bool) : Stands s (s.moveAbandon n b) := by
  have hrest : ∀ t : State, ∀ cs : Tab QChan, ∀ v : Sett,
      Stands t ((((t.setMed { t.med with chans := cs }).endMove n).putSett n v).rewake n) := fun t cs v =>
    (((setMed_stands _ _).trans (setYrw_stands _ _)).trans (putSett_stands _ _ _)).trans (.of_keeps (rewake_keeps _ _) (by decide))
  unfold State.moveAbandon
  split
  · exact .refl s
  · dsimp only
    split
    · exact (leaveSlot_stands _ _ _ _).trans (hrest _ _ _)
    · exact hrest _ _ _

theorem resyncStart_stands (s : State) (n : Nat) (m : Mode) : Stands s (s.resyncStart n m) := by
  have hend : Stands s (s.endPromotion n) := .of_keeps (endPromotion_keeps s n) (by decide)
  unfold State.resyncStart
  split
  · exact .refl s
  · dsimp only
    split
    · exact .refl s
    · exact (((hend.trans (takeSlot_stands _ _ _)).trans (draw_stands _)).trans (putSett_stands _ _ _)).trans (setYrw_stands _ _)

theorem assistAsk_stands (s : State) (w : AssistFor) (r x k : Nat) : Stands s (s.assistAsk w r x k) := .of_keeps (assistAsk_keeps s w r x k) (by decide)

theorem resyncAgain_stands (s : State) (n : Nat) (m : Mode) : Stands s (s.resyncAgain n m) := by
  have h1 := resyncStart_stands s n m
  unfold State.resyncAgain
  dsimp only
  split
  · exact .ite (h1.trans (assistAsk_stands _ _ _ _ _)) h1
  · exact h1

/-! ### Buffer lines -/

theorem mergeLine_stands (s : State) (x : Nat) : Stands s (s.mergeLine x) := .of_keeps (mergeLine_keeps s x) (by decide)

theorem touch_stands (s : State) (x : Nat) : Stands s (s.touch x) := .of_keeps (touch_keeps s x) (by decide)

theorem notePartial_stands (s : State) (x : Nat) : Stands s (s.notePartial x) := .of_keeps (notePartial_keeps s x) (by decide)

theorem settleRecover_stands (s : State) (x : Nat) : Stands s (s.settleRecover x) := .of_keeps (settleRecover_keeps s x) (by decide)

theorem awaitRoom_stands (s : State) (x : Nat) (d : Line) : Stands s (s.awaitRoom x d) := .of_keeps (awaitRoom_keeps s x d) (by decide)

theorem completeLine_stands (s : State) (x : Nat) (b : BLine) (d : Line) : Stands s (s.completeLine x b d) :=
  .of_keeps (completeLine_keeps s x b d) (by decide)

theorem setBline_stands (s : State) (x : Nat) (b : Option BLine) : Stands s (s.setBline x b) := .of_evt rfl

/-- A line that is stored and touched. -/
theorem stored_stands {s t : State} (x : Nat) (b : Option BLine) (h : Stands s t) : Stands s ((t.setBline x b).touch x) :=
  (h.trans (setBline_stands _ _ _)).trans (touch_stands _ _)

theorem programLine_stands (s : State) (x : Nat) (p : Phys) (m : Mode) (g : BitVec 24) (l : BitVec 8) (d : Line) (u : QmiUser) :
    Stands s (s.programLine x p m g l d u) := .of_keeps (programLine_keeps s x p m g l d u) (by decide)

theorem pageWrite_stands (s : State) (x : Nat) (d : Line) : Stands s (s.pageWrite x d) := .of_keeps (pageWrite_keeps s x d) (by decide)

theorem writeBack_stands (s : State) (x : Nat) : Stands s (s.writeBack x) := by
  unfold State.writeBack
  split
  · exact .refl s
  · refine .ite (.refl s) (.ite (mergeLine_stands _ _) ?_)
    dsimp only
    split
    · split
      · exact .refl s
      · refine .ite (.refl s) ?_
        split
        · exact .refl s
        · exact .ite ((((takeSlot_stands _ _ _).trans (draw_stands _)).trans (setBline_stands _ _ _)).trans (programLine_stands _ _ _ _ _ _ _ _))
            ((bump_stands _ _ _ _ _ _).trans (moveStart_stands _ _ _ _ _))
    · exact .ite (((setBline_stands _ _ _).trans (pageWrite_stands _ _ _)).trans (programLine_stands _ _ _ _ _ _ _ _)) (.refl s)
    · exact .refl s

theorem stallSet_stands (s : State) (x : Nat) (first : Bool) : Stands s (s.stallSet x first) := by
  unfold State.stallSet
  extract_lets s1 mine
  have h1 : Stands s s1 := .ite ((bump_stands _ _ _ _ _ _).trans (cause_stands _ _ _ _ _)) (.refl s)
  split
  · exact h1.trans (writeBack_stands _ _)
  · exact h1

theorem allocLine_stands (s : State) (x : Nat) (dirty first : Bool) : Stands s (s.allocLine x dirty first).1 := by
  unfold State.allocLine
  dsimp only
  split
  · exact stallSet_stands _ _ _
  · split
    · exact .refl s
    · split
      · exact .refl s
      · split
        · exact .of_keeps (dropLine_keeps _ _) (by decide)
        · exact writeBack_stands _ _
        · exact .refl s

theorem recoverLine_stands (s : State) (x : Nat) (d : Line) : Stands s (s.recoverLine x d) := by
  have hput : ∀ b, Stands s ((s.setBline x b).touch x) := fun b => stored_stands x b (.refl s)
  unfold State.recoverLine
  dsimp only
  split
  · refine .ite ?_ (.ite ?_ ((hput _).trans (settleRecover_stands _ _)))
    · exact Stands.trans (.ite (completeLine_stands _ _ _ _) (.refl s)) (settleRecover_stands _ _)
    · exact Stands.trans (.ite (hput _) (.refl s)) (awaitRoom_stands _ _ _)
  · refine .ite (settleRecover_stands _ _) (.ite (awaitRoom_stands _ _ _) ?_)
    have h1 := allocLine_stands s x true false
    split
    · next e =>
      rw [e] at h1
      exact (stored_stands x _ h1).trans (settleRecover_stands _ _)
    · next e =>
      rw [e] at h1
      exact h1.trans (awaitRoom_stands _ _ _)

theorem installLine_stands (s : State) (x : Nat) (d : Line) (dirty pf : Bool) : Stands s (s.installLine x d dirty pf) := by
  unfold State.installLine
  refine .ite (recoverLine_stands _ _ _) ?_
  split
  · split
    · exact stored_stands x _ (.refl s)
    · exact .ite (completeLine_stands _ _ _ _) (.refl s)
  · refine .ite (.refl s) ?_
    have h1 := allocLine_stands s x false false
    split
    · next e =>
      rw [e] at h1
      exact stored_stands x _ h1
    · next e =>
      rw [e] at h1
      exact h1

theorem putLine_stands (s : State) (x : Nat) (mask : BitVec 256) (d : Line) (first : Bool) : Stands s (s.putLine x mask d first).1 := by
  have hpart : ∀ t b, Stands s t → Stands s (((t.setBline x b).notePartial x).touch x) := fun t b h =>
    ((h.trans (setBline_stands _ _ _)).trans (notePartial_stands _ _)).trans (touch_stands _ _)
  unfold State.putLine
  split
  · split
    · exact hpart s _ (.refl s)
    · split
      · exact stallSet_stands _ _ _
      · exact stored_stands x _ (.refl s)
    · exact hpart s _ (.refl s)
    · exact stored_stands x _ (.refl s)
  · have h1 := allocLine_stands s x true first
    split
    · next e =>
      rw [e] at h1
      exact hpart _ _ h1
    · next e =>
      rw [e] at h1
      exact h1

theorem placeLine_stands (s : State) (x : Nat) (mask : BitVec 256) (d : Line) (first : Bool) : Stands s (s.placeLine x mask d first).1 := by
  have h1 := putLine_stands s x mask d first
  unfold State.placeLine
  split
  · next e =>
    rw [e] at h1
    exact h1
  · next e =>
    rw [e] at h1
    dsimp only
    split
    · exact Stands.trans (.ite (h1.trans (completeLine_stands _ _ _ _)) h1) (settleRecover_stands _ _)
    · exact h1

theorem slotBack_stands (s : State) (x : Nat) (k : ScbSlot) : Stands s (s.slotBack x k).1 := by
  unfold State.slotBack
  split
  · split
    · dsimp only
      exact .ite ((setBline_stands _ _ _).trans (notePartial_stands _ _)) (.refl s)
    · exact placeLine_stands _ _ _ _ _
  · exact placeLine_stands _ _ _ _ _

/-! ### Stream buffers, and moves that are dropped -/

theorem moveLine_stands (s : State) (n l : Nat) : Stands s (s.moveLine n l) := .of_keeps (moveLine_keeps s n l) (by decide)

theorem rewriteLine_stands (s : State) (n l : Nat) : Stands s (s.rewriteLine n l) := .of_keeps (rewriteLine_keeps s n l) (by decide)

theorem scbProgram_stands (s : State) (n : Nat) : Stands s (s.scbProgram n) := .of_keeps (scbProgram_keeps s n) (by decide)

theorem scbDissolve_stands (s : State) (n : Nat) : Stands s (s.scbDissolve n) := by
  unfold State.scbDissolve
  split
  · exact .refl s
  · refine .ite (.refl s) ?_
    extract_lets r
    have h1 : Stands s r.1 := by
      refine .foldl_fst _ (fun q k => ?_) (.refl s)
      have h2 := slotBack_stands q.1 (lineOf n k.line) k
      split
      · next e =>
        rw [e] at h2
        exact h2
      · next e =>
        rw [e] at h2
        exact h2
    exact .ite (h1.trans (setScb_stands _ _ _)) (h1.trans (setScb_stands _ _ _))

theorem moveRequeue_stands (s : State) (n : Nat) (spoil : Bool) : Stands s (s.moveRequeue n spoil) := by
  have h1 := moveAbandon_stands s n spoil
  unfold State.moveRequeue
  split
  · exact .refl s
  · dsimp only
    split
    · exact h1
    · exact h1.trans (scbDissolve_stands _ _)
    · exact h1.trans (resyncAgain_stands _ _ _)
    · exact h1.trans (.of_keeps (queueWork_keeps _ _ _) (by decide))

theorem movesLeave_stands (s : State) : Stands s s.movesLeave := by
  unfold State.movesLeave
  exact .foldl _ (fun u m => moveRequeue_stands u m.lsett false) (.refl s)

theorem scbReturn_stands (s : State) (n : Nat) (k : ScbSlot) : Stands s (s.scbReturn n k) := by
  have h1 := slotBack_stands s (lineOf n k.line) k
  unfold State.scbReturn
  split
  · next e =>
    rw [e] at h1
    split
    · exact (h1.trans (setScb_stands _ _ _)).trans (moveLine_stands _ _ _)
    · exact h1
  · next e =>
    rw [e] at h1
    exact h1

theorem scbClose_stands (s : State) (n : Nat) : Stands s (s.scbClose n) := by
  unfold State.scbClose
  split
  · exact .refl s
  · refine .ite (.refl s) ?_
    exact Stands.trans (.foldl _ (fun u k => scbReturn_stands u n k) ((scbProgram_stands s n).trans (setScb_stands _ _ _))) (moveFeed_stands _ _)

theorem scbBind_stands (s : State) (st : Stream) (n : Nat) : Stands s (s.scbBind st n) := by
  unfold State.scbBind
  dsimp only
  split
  · exact .refl s
  · refine .ite (.refl s) ?_
    split
    · exact .refl s
    · exact ((((takeSlot_stands _ _ _).trans (draw_stands _)).trans (putSett_stands _ _ _)).trans (setYrw_stands _ _)).trans (setBench_stands _ _)

theorem streamRun_stands (s : State) (st : Stream) (rl : Nat) (m : BitVec 256) : Stands s (s.streamRun st rl m).1 := by
  unfold State.streamRun
  split
  · exact .refl s
  · dsimp only
    exact .ite (.foldl _ (fun u b => scbClose_stands u b.lsett) (setBench_stands _ _)) (setBench_stands _ _)

theorem scbWrite_stands {s t : State} {x : Nat} {m : BitVec 256} {d : Line} (h : s.scbWrite x m d = some t) : Stands s t := by
  unfold State.scbWrite at h
  dsimp only at h
  split at h
  · cases h
  · split at h
    · split at h
      · split at h
        · cases h
          exact (setScb_stands _ _ _).trans (scbProgram_stands _ _)
        · split at h
          · next e =>
            cases h
            exact (setScb_stands _ _ _).trans (.of_fst e (placeLine_stands _ _ _ _ _))
          · cases h
      · cases h
    · split at h
      · cases h
      · cases h
        exact (setScb_stands _ _ _).trans (scbProgram_stands _ _)

/-! ### Reads -/

theorem cxlPoison_stands (s : State) (p : Fin 4) (l : Fin 16) (tag dpa : Nat) : Stands s (s.cxlPoison p l tag dpa) :=
  (((bump_stands _ _ _ _ _ _).trans (cause_stands _ _ _ _ _)).trans (.of_keeps (ldRecord_keeps _ _ _ _ _ _) (by decide))).trans (emit_stands _ _)

theorem qpError_stands (s : State) (n : Nat) (reason : DreqReason) (region : Nat) : Stands s (s.qpError n reason region) := by
  unfold State.qpError
  dsimp only
  refine .ite (.refl s) (Stands.trans ?_ (emit_stands _ _))
  have h1 := (setQp_stands s n { s.qp n with error := true, queued := [], msgs := [], active := [] }).trans (cause_stands _ Reg.RDM_CAUSE 0 0 192)
  split
  · exact h1.trans (cause_stands _ _ _ _ _)
  · exact h1.trans (cause_stands _ _ _ _ _)
  · exact h1.trans (cause_stands _ _ _ _ _)
  · exact h1

theorem qpFatal_stands (s : State) (n : Nat) (psn : BitVec 24) (code : Fin 5) (reason : DreqReason) (region : Nat) :
    Stands s (s.qpFatal n psn code reason region) := by
  have h1 : Stands s (s.nak n psn code) := .of_keeps (nak_keeps s n psn code) (by decide)
  unfold State.qpFatal
  exact .ite (.refl s) (Stands.trans (.ite (h1.trans (cause_stands _ _ _ _ _)) h1) (qpError_stands _ _ _ _))

theorem respond_stands (s : State) (r : HostRead) (d : Option Line) : Stands s (s.respond r d) := by
  unfold State.respond
  split
  · exact emit_stands _ _
  · exact cxlPoison_stands _ _ _ _ _
  · exact .ite (.refl s) ((emit_stands _ _).trans (.of_keeps (readPart_keeps _ _ _) (by decide)))
  · exact qpFatal_stands _ _ _ _ _ _
  · exact .ite (.refl s) (emit_stands _ _)
  · exact setQp_stands _ _ _
  · exact .of_keeps (fillReply_keeps _ _ _ _) (by decide)
  · exact .of_keeps (fillReply_keeps _ _ _ _) (by decide)
  · exact .of_keeps (resyncSend_keeps _ _ _) (by decide)
  · exact .refl s

theorem waitRead_stands (s : State) (r : HostRead) : Stands s (s.waitRead r) := setBench_stands _ _

/-- A read that waits for a line: its line starts to fill where a way is free, and it is sensed once. -/
theorem fetchRead_stands (s : State) (r : HostRead) : Stands s (s.fetchRead r) := by
  have h0 : Stands s (s.lookup (lineSett r.line)) := .of_keeps (lookup_keeps _ _) (by decide)
  unfold State.fetchRead
  dsimp only
  generalize s.lookup (lineSett r.line) = u at h0
  split
  · refine .ite (h0.trans (waitRead_stands _ _)) ((h0.trans ?_).trans (waitRead_stands _ _))
    exact ((bump_stands u Reg.XLT_PRIO_CNT 0 31 0 1).trans (setXlt_stands _ _)).trans (.of_keeps (loadPair_keeps _ _) (by decide))
  · split
    · exact h0.trans (respond_stands _ _ _)
    · exact ((h0.trans (.of_keeps (poolTouch_keeps _ _) (by decide))).trans (installLine_stands _ _ _ _ _)).trans (respond_stands _ _ _)
    · exact h0.trans (respond_stands _ _ _)
    · split
      · have hw := h0.trans (waitRead_stands u r)
        exact .ite (.ite hw (hw.trans (assistAsk_stands _ _ _ _ _))) (h0.trans (respond_stands _ _ _))
      · split
        · exact h0.trans (waitRead_stands _ _)
        · have h1 : Stands u (match u.bline r.line with
              | some _ => u
              | none => if (u.scbSlot r.line).isSome then u else match u.allocLine r.line false false with
                | (s1, some w) => s1.setBline r.line (some { state := .filling, way := w })
                | (s1, none) => s1) := by
            split
            · exact .refl u
            · refine .ite (.refl u) ?_
              have h2 := allocLine_stands u r.line false false
              split
              · next e =>
                rw [e] at h2
                exact h2.trans (setBline_stands _ _ _)
              · next e =>
                rw [e] at h2
                exact h2
          have hw := (h0.trans h1).trans (waitRead_stands _ r)
          exact .ite hw (hw.trans (.of_keeps (senseLine_keeps _ _ _ _ _) (by decide)))

theorem serveRead_stands (s : State) (r : HostRead) : Stands s (s.serveRead r) := by
  unfold State.serveRead
  extract_lets x lost
  clear_value lost
  refine .ite (respond_stands _ _ _) (.ite (waitRead_stands _ _) ?_)
  split
  · refine .ite (waitRead_stands _ _) ?_
    refine .ite ((stored_stands _ _ (.refl s)).trans (respond_stands _ _ _)) ?_
    have h1 := mergeLine_stands s x
    split
    · refine .ite ?_ ((h1.trans (touch_stands _ _)).trans (respond_stands _ _ _))
      split
      · exact .ite (h1.trans (waitRead_stands _ _)) (.ite ((h1.trans (waitRead_stands _ _)).trans (assistAsk_stands _ _ _ _ _))
          (h1.trans (respond_stands _ _ _)))
      · exact h1.trans (waitRead_stands _ _)
    · exact h1
  · exact .ite (respond_stands _ _ _) (fetchRead_stands _ _)
  · exact fetchRead_stands _ _

theorem redrive_stands (s : State) (p : HostRead → Bool) : Stands s (s.redrive p) := by
  unfold State.redrive
  exact .foldl _ (fun u r => serveRead_stands u r) (setBench_stands _ _)

theorem wantLine_stands (s : State) (r rl x : Nat) : Stands s (s.wantLine r rl x) := .ite (.refl s) (serveRead_stands _ _)

/-! ### Writes in order -/

theorem loss_stands (s : State) (k : Nat) (v : Option (BitVec 4)) (j : JKey) :
    Stands s ((s.setMed { s.med with loss := Tab.put none s.med.loss k v }).journal j) := (setMed_stands _ _).trans (journal_stands _ _)

theorem lossWrite_stands (s : State) (r rl : Nat) (m : BitVec 4) : Stands s (s.lossWrite r rl m) := by
  unfold State.lossWrite
  split
  · exact .refl s
  · refine .ite ?_ (.ite (.refl s) (loss_stands _ _ _ _))
    unfold State.unlose
    split
    · exact loss_stands _ _ _ _
    · exact .refl s

theorem markSett_stands (s : State) (r i : Nat) : Stands s (s.markSett r i) := by
  have hrt : ∀ v, Stands s (s.setRt r v) := fun v => .of_keeps (setRt_keeps s r v) (by decide)
  exact .ite (hrt _) ((hrt _).trans (journal_stands _ _))

theorem dropClear_stands (s : State) (x : Nat) (m : BitVec 4) : Stands s (s.dropClear x m) := .of_keeps (dropClear_keeps s x m) (by decide)

theorem tsend_stands (s : State) (p : Bool) (b : TBody) : Stands s (s.tsend p b) := .of_keeps (tsend_keeps s p b) (by decide)

theorem orderWrite_stands (s : State) (w : HostWrite) (t : BitVec 16) : Stands s (s.orderWrite w t) := by
  unfold State.orderWrite
  extract_lets r ros v s1 solo s2 o bench s3
  have h1 : Stands s s1 := putRt_stands _ _ _
  have h2 : Stands s s2 :=
    (Stands.trans (.ite (h1.trans (markSett_stands _ _ _)) h1) (lossWrite_stands _ _ _ _)).trans (dropClear_stands _ _ _)
  have h3 : Stands s s3 := h2.trans (setBench_stands _ _)
  exact .ite h3 (h3.trans (tsend_stands _ _ _))

theorem admitWrite_stands (s : State) (w : HostWrite) : Stands s (s.admitWrite w) :=
  .ite (Stands.trans (.ite (setBench_stands _ _) (.refl s)) (orderWrite_stands _ _ _)) (.of_keeps (forwardWrite_keeps s w) (by decide))

theorem cxlDrop_stands (s : State) (p : Fin 4) (l : Fin 16) (tag dpa : Nat) : Stands s (s.cxlDrop p l tag dpa) :=
  (((bump_stands _ _ _ _ _ _).trans (cause_stands _ _ _ _ _)).trans (.of_keeps (ldRecord_keeps _ _ _ _ _ _) (by decide))).trans (emit_stands _ _)

theorem cxlNotHere_stands (s : State) (p : Fin 4) (l : Fin 16) (region dpa : Nat) : Stands s (s.cxlNotHere p l region dpa) := by
  unfold State.cxlNotHere
  extract_lets s1 v due
  have h1 : Stands s s1 := (bump_stands _ _ _ _ _ _).trans (cause_stands _ _ _ _ _)
  exact .ite ((h1.trans (.of_keeps (setRt_keeps _ _ _) (by decide))).trans (.of_keeps (ldRecord_keeps _ _ _ _ _ _) (by decide))) h1

theorem refuseHost_stands (s : State) (w : HostWrite) (why : Refused) : Stands s (s.refuseHost w why) := by
  unfold State.refuseHost
  split
  · split
    · exact (cxlNotHere_stands _ _ _ _ _).trans (emit_stands _ _)
    · exact (cxlNotHere_stands _ _ _ _ _).trans (emit_stands _ _)
    · exact (cxlNotHere_stands _ _ _ _ _).trans (emit_stands _ _)
    · exact Stands.trans (.of_keeps (dropMark_keeps _ _) (by decide)) (cxlDrop_stands _ _ _ _ _)
    · exact cxlDrop_stands _ _ _ _ _
  · split <;> exact qpFatal_stands _ _ _ _ _ _
  · exact tsend_stands _ _ _
  · exact setQp_stands _ _ _
  · exact .refl s

theorem submit_stands (s : State) (w : HostWrite) : Stands s (s.submit w) := by
  unfold State.submit
  split
  · exact .ite (Stands.trans (.of_keeps (putStageLine_keeps _ _ _ _) (by decide)) (.of_keeps (ackHost_keeps _ _) (by decide))) (admitWrite_stands _ _)
  · exact .of_keeps (holdWrite_keeps _ _) (by decide)
  · exact refuseHost_stands _ _ _

theorem admitHeld_stands (f : Nat) (s : State) : Stands s (s.admitHeld f) := by
  induction f generalizing s with
  | zero => exact .refl s
  | succ f ih =>
    unfold State.admitHeld
    split
    · exact .refl s
    · refine Stands.trans ?_ (ih _)
      refine Stands.trans ?_ (.of_keeps (judgeCredits_keeps _) (by decide))
      split
      · exact (setBench_stands _ _).trans (refuseHost_stands _ _ _)
      · exact (setBench_stands _ _).trans (admitWrite_stands _ _)

/-! ### Completion queues, messages and atomics -/

theorem cqFull_stands (s : State) (n : Nat) : Stands s (s.cqFull n).1 := by
  unfold State.cqFull
  split
  · exact .refl s
  · split
    · exact .refl s
    · split
      · exact .refl s
      · split
        · exact wantLine_stands _ _ _ _
        · exact .of_keeps (setCq_keeps _ _ _) (by decide)

theorem cqWrite_stands (s : State) (n qpn imm len idx op st : Nat) : Stands s (s.cqWrite n qpn imm len idx op st) := by
  have h1 := cqFull_stands s n
  unfold State.cqWrite
  generalize s.cqFull n = q at h1 ⊢
  obtain ⟨s1, full⟩ := q
  dsimp only at h1 ⊢
  split
  · exact h1
  · refine .ite (h1.trans (cause_stands _ _ _ _ _)) ?_
    have h2 := fun v => h1.trans (.of_keeps (setCq_keeps s1 n v) (by decide))
    split
    · exact h2 _
    · exact (h2 _).trans (submit_stands _ _)

theorem ackMsgs_stands (n f : Nat) (s : State) : Stands s (s.ackMsgs n f) := by
  induction f generalizing s with
  | zero => exact .refl s
  | succ f ih =>
    unfold State.ackMsgs
    dsimp only
    split
    · exact .refl s
    · refine .ite (Stands.trans ?_ (ih _)) (.refl s)
      split
      · exact ((setQp_stands _ _ _).trans (emit_stands _ _)).trans (cqWrite_stands _ _ _ _ _ _ _ _)
      · exact (setQp_stands _ _ _).trans (emit_stands _ _)

theorem atomicRun_stands (s : State) (n : Nat) (psn : BitVec 24) (r rl x : Nat) (a : Atomic) : Stands s (s.atomicRun n psn r rl x a).1 := by
  unfold State.atomicRun
  dsimp only
  split
  · exact refuseHost_stands _ _ _
  · exact .refl s
  · refine .ite_fst (.refl s) (.ite_fst (qpFatal_stands _ _ _ _ _ _) ?_)
    split
    · exact wantLine_stands _ _ _ _
    · exact ((setQp_stands _ _ _).trans (.of_keeps (cachePut_keeps _ _ _ _) (by decide))).trans (admitWrite_stands _ _)

theorem readLines_stands (s : State) (who : Origin) (r off len : Nat) : Stands s (s.readLines who r off len) := by
  unfold State.readLines
  refine .foldl_fst _ (fun q l => ?_) (.refl s)
  dsimp only
  refine .ite (respond_stands _ _ _) ?_
  split
  · exact .refl _
  · exact serveRead_stands _ _

theorem readStart_stands (s : State) (n : Nat) (psn : BitVec 24) (r off len : Nat) : Stands s (s.readStart n psn r off len) :=
  .ite ((setQp_stands _ _ _).trans (emit_stands _ _)) ((setQp_stands _ _ _).trans (readLines_stands _ _ _ _ _))

theorem qpKick_stands (n f : Nat) (s : State) : Stands s (s.qpKick n f) := by
  induction f generalizing s with
  | zero => exact .refl s
  | succ f ih =>
    unfold State.qpKick
    dsimp only
    refine .ite (.refl s) ?_
    split
    · exact .refl s
    · next rest _ =>
      have hpop : ∀ u : State, Stands u (u.setQp n { u.qp n with queued := rest }) := fun u => setQp_stands _ _ _
      split
      · exact Stands.trans (.foldl _ (fun u w => submit_stands u w) (hpop s)) (ih _)
      · exact .ite (.refl s) ((((hpop s).trans (setQp_stands _ _ _)).trans (emit_stands _ _)).trans (ih _))
      · exact .ite (.refl s) (.ite ((hpop s).trans (qpFatal_stands _ _ _ _ _ _)) (.ite ((hpop s).trans (qpFatal_stands _ _ _ _ _ _))
          ((((hpop s).trans (setQp_stands _ _ _)).trans (readStart_stands _ _ _ _ _ _)).trans (ih _))))
      · next psn r off a _ =>
        refine .ite (.refl s) (.ite (((hpop s).trans (.of_keeps (stageAtomic_keeps _ _ _ _ _) (by decide))).trans (ih _)) ?_)
        split
        · exact hpop s
        · next x _ =>
          have h1 := atomicRun_stands s n psn r (off / 256) x a
          split
          · next e =>
            rw [e] at h1
            exact (h1.trans (hpop _)).trans (ih _)
          · next e =>
            rw [e] at h1
            exact h1

theorem tellDurable_stands (s : State) : Stands s s.tellDurable := by
  unfold State.tellDurable
  exact .foldl _ (fun u n => (ackMsgs_stands n _ u).trans (qpKick_stands n _ _)) (.refl s)

/-! ### Settling -/

theorem placeOrder_stands (s : State) (o : Ordered) : Stands s (s.placeOrder o).1 := by
  unfold State.placeOrder
  refine .ite_fst (.refl s) ?_
  have h1 : Stands s (if o.tried then (s, (s.bench.scbs.any fun b => b.lsett == lineSett o.w.line)) else s.streamRun o.w.str o.w.rline o.w.mask).1 :=
    .ite_fst (.refl s) (streamRun_stands _ _ _ _)
  generalize (if o.tried then (s, (s.bench.scbs.any fun b => b.lsett == lineSett o.w.line)) else s.streamRun o.w.str o.w.rline o.w.mask) = q at h1 ⊢
  obtain ⟨s1, ws⟩ := q
  dsimp -zeta only at h1 ⊢
  extract_lets n has s2
  have h2 : Stands s s2 := .ite (h1.trans (scbBind_stands _ _ _)) h1
  clear_value s2
  split
  · next s3 e =>
    split at e
    · exact h2.trans (scbWrite_stands e)
    · cases e
  · exact h2.trans (placeLine_stands _ _ _ _ _)

theorem placeAll_stands (s : State) : Stands s s.placeAll := by
  have hset : ∀ u o, Stands u (u.setOrder o) := fun u o => .of_keeps (setOrder_keeps u o) (by decide)
  have hend : ∀ u o, Stands u (u.endOrder o) := fun u o => .of_keeps (endOrder_keeps u o) (by decide)
  unfold State.placeAll
  refine .foldl_fst _ (fun q o => .ite_fst (.refl _) ?_) (.refl s)
  have h1 := placeOrder_stands q.1 o
  split
  · next e =>
    rw [e] at h1
    refine .ite_fst (h1.trans (hset _ _)) ?_
    refine Stands.trans ?_ (tsend_stands _ _ _)
    exact (((h1.trans (hend _ _)).trans (putRt_stands _ _ _)).trans (lossWrite_stands _ _ _ _)).trans (dropClear_stands _ _ _)
  · next e =>
    rw [e] at h1
    exact h1.trans (hset _ _)

theorem pressure_stands (s : State) : Stands s s.pressure := by
  unfold State.pressure
  extract_lets busy excess s1
  have h1 : Stands s s1 := .ite (.foldl _ (fun u x => writeBack_stands u x) (.refl s)) (.refl s)
  exact .ite (.foldl _ (fun u x => mergeLine_stands u x) h1) h1

theorem resyncKick_stands (s : State) : Stands s s.resyncKick := by
  unfold State.resyncKick
  refine .foldl _ (fun u r => ?_) (.refl s)
  have hrt : ∀ v, Stands u (u.setRt r v) := fun v => .of_keeps (setRt_keeps u r v) (by decide)
  dsimp only
  refine .ite (.refl u) ?_
  split
  · exact .refl u
  · split
    · exact hrt _
    · exact .ite ((hrt _).trans (.of_keeps (resyncSend_keeps _ _ _) (by decide))) (((hrt _).trans (setBench_stands _ _)).trans (redrive_stands _ _))

theorem gpfCheck_stands (s : State) : Stands s s.gpfCheck := by
  unfold State.gpfCheck
  refine .foldl _ (fun u p => ?_) (.refl s)
  extract_lets v mine s1 src
  split
  · exact .refl u
  · next us _ =>
    refine .ite (.refl u) ?_
    have h1 : Stands u s1 := .of_keeps (setCport_keeps u p _) (by decide)
    clear_value s1
    have h2 : Stands s1 { s1 with cxl := { s1.cxl with gpfLast := us } } := .of_evt rfl
    exact ((h1.trans h2).trans (cause_stands _ _ _ _ _)).trans (emit_stands _ _)

theorem settleOnce_stands (s : State) : Stands s s.settleOnce := by
  unfold State.settleOnce
  refine .ite (.refl s) ?_
  extract_lets s1 s2 s3 s4
  have h1 : Stands s s1 := Stands.trans (.of_keeps (judgeServed_keeps s) (by decide)) (.of_keeps (takeEarly_keeps _ _) (by decide))
  have h2 : Stands s1 s2 := (placeAll_stands _).trans (.of_keeps (releaseAll_keeps _) (by decide))
  have h3 : Stands s2 s3 := tellDurable_stands _
  have h4 : Stands s3 s4 := admitHeld_stands _ _
  exact ((h1.trans h2).trans (h3.trans h4)).trans (((pressure_stands _).trans (resyncKick_stands _)).trans (gpfCheck_stands _))

theorem settleRun_stands (f : Nat) (s : State) : Stands s (State.settleRun f s) := by
  induction f generalizing s with
  | zero => exact .refl s
  | succ f ih => exact .ite (settleOnce_stands s) ((settleOnce_stands s).trans (ih _))

theorem settle_stands (s : State) : Stands s s.settle :=
  (((settleRun_stands 8 s).trans (judgeBench_stands _)).trans (judgeTdm_stands _)).trans (judgeXlt_stands _)

/-! ### The medium's own work -/

theorem heldKick_stands (s : State) : Stands s s.heldKick := by
  have hun : ∀ (u : State) (x : Nat), Stands u (u.unhold x) := fun u x => .of_keeps (unhold_keeps u x) (by decide)
  unfold State.heldKick
  refine .foldl _ (fun u x => ?_) (.refl s)
  split
  · exact .ite (hun _ _) (.ite ((hun _ _).trans (writeBack_stands _ _)) (.refl u))
  · exact hun _ _

theorem rewriteData_stands (s : State) (n l : Nat) (d : Line) : Stands s (s.rewriteData n l d) := by
  unfold State.rewriteData
  refine .ite (.refl s) ?_
  split
  · exact (installLine_stands _ _ _ _ _).trans (rewriteLine_stands _ _ _)
  · exact (placeLine_stands _ _ _ _ _).trans (rewriteLine_stands _ _ _)

theorem resumeLine_stands (s : State) (x : Nat) : Stands s (s.resumeLine x) := by
  have h1 := mergeLine_stands s x
  unfold State.resumeLine
  dsimp only
  refine Stands.trans ?_ (.of_keeps (promoteLine_keeps _ _ _) (by decide))
  split
  · exact h1
  · split
    · exact h1.trans (moveLine_stands _ _ _)
    · exact .ite (h1.trans (rewriteData_stands _ _ _ _)) (h1.trans (rewriteLine_stands _ _ _))

theorem recoverKick_stands (s : State) : Stands s s.recoverKick := by
  unfold State.recoverKick
  refine .ite (.refl s) (.foldl _ (fun u p => ?_) (.refl s))
  exact .ite (recoverLine_stands _ _ _) ((recoverLine_stands _ _ _).trans (resumeLine_stands _ _))

theorem scbKick_stands (s : State) : Stands s s.scbKick := by
  unfold State.scbKick
  refine .foldl _ (fun u b => ?_) (.refl s)
  exact .ite (scbDissolve_stands _ _) (.ite (.foldl _ (fun w k => scbReturn_stands w _ k) (.refl u)) (.refl u))

theorem passAt_stands (s : State) (g : Nat) (v : Pass) : Stands s (s.passAt g v) := (setPass_stands _ _ _).trans (journal_stands _ _)

theorem passNext_stands (g f : Nat) (s : State) : Stands s (s.passNext g f) := by
  have hvisit : ∀ (u : State) (v : Visit), Stands u (u.visit v) := fun u v => .of_keeps (visit_keeps u v) (by decide)
  induction f generalizing s with
  | zero => exact .refl s
  | succ f ih =>
    unfold State.passNext
    dsimp only
    refine .ite (.refl s) (.ite (.refl s) ?_)
    split
    · exact .ite ((passAt_stands _ _ _).trans (hvisit _ _)) ((setPass_stands _ _ _).trans (ih _))
    · exact .ite ((passAt_stands _ _ _).trans (hvisit _ _)) ((setPass_stands _ _ _).trans (ih _))
    · exact .ite (passAt_stands _ _ _) (.refl s)

theorem startPass_stands (s : State) (g : Nat) : Stands s (s.startPass g) := by
  unfold State.startPass
  exact ((setPass_stands _ _ _).trans (setMed_stands _ _)).trans (passNext_stands _ _ _)

theorem passRun_stands (s : State) (g : Nat) : Stands s (s.passRun g) := by
  unfold State.passRun
  exact passNext_stands _ _ _

theorem medKick_stands (s : State) : Stands s s.medKick := by
  unfold State.medKick
  extract_lets s0 s1 s2
  have h0 : Stands s s0 := ((((movesLeave_stands s).trans (scbKick_stands _)).trans (heldKick_stands _)).trans (recoverKick_stands _)).trans
    (.of_keeps (ladderKick_keeps _) (by decide))
  have h1 : Stands s0 s1 := .foldl _ (fun u m => moveFeed_stands u m.lsett) (.refl s0)
  have h2 : Stands s1 s2 := by
    refine .foldl _ (fun u m => ?_) (.refl s1)
    dsimp only
    split
    · exact .refl u
    · exact .foldl _ (fun w i => .ite (rewriteData_stands _ _ _ _) (.refl w)) (.refl u)
  have h3 := (h0.trans h1).trans h2
  clear_value s2
  refine .ite h3 (h3.trans (.foldl _ (fun u g => ?_) (.refl s2)))
  extract_lets v u0 u1
  have hu0 : Stands u u0 := by
    unfold u0
    split
    · exact .of_keeps (slotRecord_keeps _ _ _) (by decide)
    · exact .refl u
  have hu1 : Stands u u1 := hu0.trans (setPass_stands u0 g _)
  clear_value u0 u1
  refine .ite (.refl u) (.ite (.ite ?_ ?_) (.ite ?_ (.refl u)))
  · exact hu1.trans (passRun_stands u1 g)
  · exact hu1.trans (startPass_stands u1 g)
  · exact passRun_stands u g

/-- What follows every command takes source 158 down nowhere. -/
theorem settleMed_stands (s : State) : Stands s s.settleMed :=
  (((((settle_stands s).trans (medKick_stands _)).trans (judgeYrw_stands _)).trans (.of_keeps (judgeBlank_keeps _) (by decide))).trans
    (judgeTsl_stands _)).trans (.of_keeps (lockFinish_keeps _) (by decide))

end Sys2Proof.DeadlineSource

/-! The epoch's stamp, the wake deadline and its handshake, and the scrubber's walk (R40, R58 to R65). -/

namespace Sys2Proof.Waking

open Sys2Proof.Machine State Sys2Proof.Readings Sys2Proof.Lanes Sys2Proof.Keeping Sys2Proof.DeadlineSource

/-! ### The epoch boundary -/

theorem stampPowered_tally (s : State) (g : Nat) : (s.stampPowered g).tally = { s.tally with
    stamps := Tab.put {} s.tally.stamps g { Tab.get ({} : GroupStamp) s.tally.stamps g with powered := s.sNow } } :=
  (nvWrite_keeps _ _ _).tally (by decide)

theorem writeFloor_tally (s : State) (b : Bool) : (s.writeFloor b).tally = { s.tally with
    floor := { secs := (s.tally.now >>> 16).setWidth 48, trust := s.tally.trust, orderly := b } } :=
  (nvWrite_keeps _ _ _).tally (by decide)

/-- From `s` to `t` the Tally changed in its stamps alone, and the groups stand. -/
structure Stamps (s t : State) : Prop where
  now : t.tally.now = s.tally.now
  trust : t.tally.trust = s.tally.trust
  floor : t.tally.floor = s.tally.floor
  secs : t.sNow = s.sNow
  group : ∀ g, t.qg g = s.qg g

theorem Stamps.refl (s : State) : Stamps s s := ⟨rfl, rfl, rfl, rfl, fun _ => rfl⟩

theorem Stamps.trans {s t u : State} (h : Stamps s t) (k : Stamps t u) : Stamps s u :=
  ⟨k.now.trans h.now, k.trust.trans h.trust, k.floor.trans h.floor, k.secs.trans h.secs, fun g => (k.group g).trans (h.group g)⟩

/-- The stamp of one group at the boundary. -/
def stampUp (s : State) (g : Nat) : State := if (s.qg g).railsUp then s.stampPowered g else s

theorem stampUp_stamps (s : State) (g : Nat) : Stamps s (stampUp s g) := by
  unfold stampUp
  split
  · have ht := stampPowered_tally s g
    have hm : (s.stampPowered g).med = s.med := (stampPowered_keeps s g).med (by decide)
    exact ⟨by rw [ht], by rw [ht], by rw [ht], by simp only [State.sNow, ht], fun k => by simp only [State.qg, hm]⟩
  · exact .refl s

theorem stampUp_same {s : State} {g : Nat} (h : (s.qg g).railsUp = true) :
    (Tab.get ({} : GroupStamp) (stampUp s g).tally.stamps g).powered = s.sNow := by
  have hrun : stampUp s g = s.stampPowered g := if_pos h
  rw [hrun, stampPowered_tally]
  exact congrArg GroupStamp.powered (Tab.get_put_same _ _ _ _)

theorem stampUp_ne (s : State) {g k : Nat} (h : g ≠ k) :
    Tab.get ({} : GroupStamp) (stampUp s k).tally.stamps g = Tab.get {} s.tally.stamps g := by
  unfold stampUp
  split
  · rw [stampPowered_tally]
    exact Tab.get_put_ne _ _ _ _ h
  · rfl

/-- The stamps of the groups of a list: each group with its rails up takes the present second. -/
theorem foldl_stampUp (l : List Nat) (hnodup : l.Nodup) (s : State) : Stamps s (l.foldl stampUp s) ∧
    (∀ g ∈ l, (s.qg g).railsUp = true → (Tab.get ({} : GroupStamp) (l.foldl stampUp s).tally.stamps g).powered = s.sNow) ∧
    ∀ g ∉ l, Tab.get ({} : GroupStamp) (l.foldl stampUp s).tally.stamps g = Tab.get {} s.tally.stamps g := by
  induction l generalizing s with
  | nil => exact ⟨.refl s, by simp, fun _ _ => rfl⟩
  | cons k l ih =>
    obtain ⟨hk, hl⟩ := List.nodup_cons.1 hnodup
    obtain ⟨h1, h2, h3⟩ := ih hl (stampUp s k)
    have h0 := stampUp_stamps s k
    refine ⟨h0.trans h1, fun g hg hup => ?_, fun g hg => ?_⟩
    · rcases List.mem_cons.1 hg with rfl | hg
      · exact (congrArg GroupStamp.powered (h3 _ hk)).trans (stampUp_same hup)
      · exact (h2 g hg (by rw [h0.group]; exact hup)).trans h0.secs
    · obtain ⟨hne, hg⟩ := not_or.1 (mt List.mem_cons.2 hg)
      exact (h3 g hg).trans (stampUp_ne s hne)

/-! ### The wake deadline -/

theorem judgeDeadline_raises {s : State} (hmain : s.psq.mainUp = true) (hdue : s.deadline ≤ s.tally.now.toNat) :
    s.judgeDeadline.evt.raw.getLsbD 158 = true := by
  have hrun : s.judgeDeadline = s.raise 158 := if_pos (by rw [hmain]; simpa [State.deadline, BitVec.le_def] using hdue)
  rw [hrun]
  exact raise_raw _ _ (by decide) ⟨by decide, .inr hmain⟩

/-- The die that sets the earliest deadline is told by the medium and the Tally. -/
theorem judgeDeadline_med (s : State) : s.judgeDeadline.med = s.med := (judgeDeadline_keeps s).med (by decide)

theorem judgeDeadline_psq (s : State) : s.judgeDeadline.psq = s.psq := (judgeDeadline_keeps s).psq (by decide)

theorem earliestDeadline_of {s t : State} (hmed : t.med = s.med) (htally : t.tally = s.tally) : t.earliestDeadline = s.earliestDeadline := by
  have hdie : ∀ d, t.die d = s.die d := die_of_med hmed
  have hage : ∀ d w, t.age d w = s.age d w := fun d w => by simp only [State.age, State.nowSecs, State.sNow, hdie, htally]
  have hstamps : ∀ e, t.bandStamps e = s.bandStamps e := fun e => by simp only [State.bandStamps, State.nowEpoch, State.nowSecs, State.sNow, htally]
  have hbands : t.oldestBands = s.oldestBands := by
    unfold State.oldestBands
    simp only [hmed, hdie, hage, hstamps]
  have hdeadline : ∀ d a r, t.dieDeadline d a r = s.dieDeadline d a r := fun d a r => by simp only [State.dieDeadline, hdie, htally]
  unfold State.earliestDeadline
  rw [hbands]
  simp only [hdeadline]

theorem judgeDeadline_earliest (s : State) : s.judgeDeadline.earliestDeadline = s.earliestDeadline :=
  earliestDeadline_of (judgeDeadline_med s) ((judgeDeadline_keeps s).tally (by decide))

/-- At the deadline's rise in ACTIVE or IDLE the die that sets it is marked (R62). -/
theorem deadlineRise_marks {s : State} (hmain : s.psq.mainUp = true) (hdue : s.deadline ≤ s.tally.now.toNat) (hraw : s.evt.raw.getLsbD 158 = false)
    (hstate : s.psq.pstate = .active ∨ s.psq.pstate = .idle) : s.deadlineRise = s.judgeDeadline.deadlineMark.settleMed := by
  refine if_pos ?_
  rw [hraw, judgeDeadline_raises hmain hdue, judgeDeadline_psq]
  rcases hstate with h | h <;> rw [h] <;> rfl

/-- With no die that sets a deadline the rise raises source 158, which stands through what follows (R62). -/
theorem deadlineRise_raises {s : State} (hmain : s.psq.mainUp = true) (hdue : s.deadline ≤ s.tally.now.toNat)
    (hnone : s.earliestDeadline = none) : s.deadlineRise.evt.raw.getLsbD 158 = true := by
  have hraise := judgeDeadline_raises hmain hdue
  have hmark : s.judgeDeadline.deadlineMark = s.judgeDeadline := by
    unfold State.deadlineMark
    rw [judgeDeadline_earliest, hnone]
  unfold State.deadlineRise
  dsimp only
  rw [hmark]
  split
  · exact settleMed_stands _ hraise
  · exact hraise

/-- The marked die goes first in its group's pass, which waits to start where it may. -/
theorem deadlineMark_first {u : State} {x : Int} {d : Nat} {w : Die} (h : u.earliestDeadline = some (x, d)) (hw : u.die d = w) :
    u.deadlineMark = if (u.setDie d { w with first := true }).passBusy (State.dieGroup d) || !(u.setDie d { w with first := true }).bit Reg.TSL_CTRL 0 0
      then u.setDie d { w with first := true }
      else (u.setDie d { w with first := true }).setPass (State.dieGroup d) { (u.setDie d { w with first := true }).pass (State.dieGroup d) with
        waiting := true } := by
  subst hw
  unfold State.deadlineMark
  rw [h]

/-! ### The handshake -/

theorem wakeStart_asks (s : State) : (s.wakeStart).tally = { s.tally with reqLow := true } ∧ s.wakeStart.bit Reg.TLY_WAKE_CTRL 0 9 = true ∧
    s.wakeStart.psq = s.psq := by
  refine ⟨((pulse_keeps _ _).tally (by decide)).trans ((setBit_keeps _ _ _ _ _).tally (by decide)), ?_,
    ((pulse_keeps _ _).psq (by decide)).trans ((setBit_keeps _ _ _ _ _).psq (by decide))⟩
  refine (bit_pulse _ _ _ (by decide) _ _).trans ?_
  exact bit_setBit _ _ _ _ _ (by decide)

theorem wakeWithdraw_psq (s : State) : s.wakeWithdraw.psq = s.psq := (setBit_keeps _ _ _ _ _).psq (by decide)

theorem granted_psq (s : State) : ((s.pulse 379).wakeWithdraw).psq = s.psq := (wakeWithdraw_psq _).trans ((pulse_keeps s 379).psq (by decide))

/-- An on request as the handshake ends powers the device up from DORMANT (R428). -/
theorem woken_dormant {s u : State} (hpsq : u.psq = s.psq) (hstate : s.psq.pstate = .dormant) (hcool : s.psq.coolOff = false)
    (htrip : s.psq.tripHold = false) (hinput : s.psq.inputGood = true) :
    u.onRequest.psq.pstate = .poweringUp ∧ u.onRequest.psq.trans = some { kind := .powerUp, rails := s.enabledRails } := by
  rw [← enabledRails_of s u (by rw [hpsq])]
  rw [← hpsq] at hstate hcool htrip hinput
  exact onRequest_dormant u hstate hcool htrip hinput

/-- An on request as the handshake ends leaves KEEP. -/
theorem woken_keep {s u : State} (hpsq : u.psq = s.psq) (hstate : s.psq.pstate = .keep) : u.onRequest.psq.pstate = .leavingKeep ∧
    u.onRequest.psq.mainUp = true ∧ u.onRequest.psq.trans = some { kind := .keepLeave, rails := s.keepRailsSet } := by
  have hrails : u.keepRailsSet = s.keepRailsSet := by simp only [State.keepRailsSet, State.seq, State.enabledRails, hpsq]
  have hrun : u.onRequest = u.keepLeave := by
    unfold State.onRequest
    rw [hpsq, hstate]
  obtain ⟨h1, h2, -, h4⟩ := keepLeave_psq u
  rw [hrun, ← hrails]
  exact ⟨h1, h2, h4⟩

/-! ### The scrubber -/

/-- What a visit of memory `m` does beside moving the scrubber. -/
def visitWork (m : Fin 9) (e : Fin 3) (x : Nat) (both : Bool) (held : List DramArray) (u : State) : State :=
  let src (s : State) : State := if m.val < 8 then s.pulse (432 + m.val) else s
  match e.val with
  | 0 => u
  | 1 => if m.val < 8 then src (u.bump Reg.ECC_STAT m 15 0) else u.cause Reg.SEC_CAUSE 0 3 403
  | _ => (src u).sramBad m x both held

theorem visitWork_ecc {m : Fin 9} {e : Fin 3} (x : Nat) (both : Bool) (held : List DramArray) (h : e ≠ 2 ∨ m = 1) (u : State) :
    (visitWork m e x both held u).ecc = u.ecc := by
  have hsrc : ∀ v : State, (if m.val < 8 then v.pulse (432 + m.val) else v).ecc = v.ecc := fun v => by
    split
    · exact (pulse_keeps _ _).ecc (by decide)
    · rfl
  unfold visitWork
  dsimp only
  split
  · rfl
  · split
    · exact ((pulse_keeps _ _).ecc (by decide)).trans ((bump_keeps _ _ _ _ _ _).ecc (by decide))
    · exact (cause_keeps _ _ _ _ _).ecc (by decide)
  · next h0 h1 =>
    have hlt := e.isLt
    have htwo : e.val = 2 := by
      have hzero : e.val ≠ 0 := h0
      have hone : e.val ≠ 1 := h1
      omega
    obtain rfl : m = 1 := h.resolve_left fun hne => hne (Fin.ext htwo)
    exact hsrc u

/-- Settles O11: a fold over the groups stamps each one with its rails up; source 158, raised at the deadline, stands through the medium's
settling; the die that sets the deadline is told by parts of the state the raise does not touch; the handshake's ends are an on request. -/
theorem epochAndWake : Obligations.EpochAndWake := by
  unfold Obligations.EpochAndWake
  refine ⟨?_, ?_, ?_, ?_, ?_, ?_, ?_, ?_, ?_⟩
  · intro s hv
    obtain ⟨h1, h2, -⟩ := foldl_stampUp (List.range 9) List.nodup_range (s.writeFloor false)
    have hfloor := writeFloor_tally s false
    have hgroups : ∀ g, (s.writeFloor false).qg g = s.qg g := fun g => by
      simp only [State.qg, (writeFloor_keeps s false).med (by decide)]
    have hsecs : (s.writeFloor false).sNow = s.sNow := by simp only [State.sNow, hfloor]
    have htally : ∀ u : State, (if u.psq.mainUp then u.writeDeadline.deadlineRise else u).tally = u.tally := fun u => by
      split
      · exact ((deadlineRise_keeps _).tally (by decide)).trans ((writeDeadline_keeps _).tally (by decide))
      · rfl
    refine ⟨_, if_neg (by rw [hv]; exact Bool.false_ne_true), ?_⟩
    have hfold : (fun (s : State) g => if (s.qg g).railsUp then s.stampPowered g else s) = stampUp := rfl
    rw [hfold]
    dsimp only
    rw [htally, h1.now, h1.trust, h1.floor, hfloor]
    refine ⟨rfl, rfl, rfl, fun g hg hup => ?_⟩
    exact (h2 g (List.mem_range.2 hg) (by rw [hgroups]; exact hup)).trans hsecs
  · intro s hmain hdue hnone
    refine ⟨_, congrArg Host.Outcome.next (if_pos hmain), ?_⟩
    exact deadlineRise_raises hmain hdue hnone
  · intro s x d hmain hdue hsome hraw hstate
    refine ⟨_, congrArg Host.Outcome.next (if_pos hmain), s.judgeDeadline, _, judgeDeadline_raises hmain hdue, judgeDeadline_med s, rfl, ?_⟩
    rw [deadlineRise_marks hmain hdue hraw hstate]
    exact congrArg State.settleMed (deadlineMark_first (by rw [judgeDeadline_earliest, hsome]) (die_of_med (judgeDeadline_med s) d))
  · intro s hv hasleep hreq hdue hentry
    exact ⟨_, congrArg Host.Outcome.next (if_pos (by simp [hv, hasleep, hreq, hdue, secUnits, hentry])), wakeStart_asks s⟩
  · intro s hv hreq hstate hcool htrip hinput
    exact ⟨_, congrArg Host.Outcome.next (if_pos (by rw [hv, hreq]; rfl)), woken_dormant (granted_psq s) hstate hcool htrip hinput⟩
  · intro s hv hreq hstate
    exact ⟨_, congrArg Host.Outcome.next (if_pos (by rw [hv, hreq]; rfl)), woken_keep (granted_psq s) hstate⟩
  · intro s hv hreq hforce hlate hstate hcool htrip hinput
    have hasleep : s.asleep = true := by
      unfold State.asleep
      rw [hstate]
      rfl
    exact ⟨_, congrArg Host.Outcome.next (if_pos (by simp [hv, hasleep, hreq, hforce, secUnits, hlate])),
      woken_dormant (wakeWithdraw_psq s) hstate hcool htrip hinput⟩
  · intro s hv hreq hforce hlate hstate
    have hasleep : s.asleep = true := by
      unfold State.asleep
      rw [hstate]
      rfl
    exact ⟨_, congrArg Host.Outcome.next (if_pos (by simp [hv, hasleep, hreq, hforce, secUnits, hlate])), woken_keep (wakeWithdraw_psq s) hstate⟩
  · intro s m e x both held last hmain hscrub hmem
    refine ⟨_, if_neg (by rw [hmain]; exact Bool.false_ne_true), ?_⟩
    dsimp only
    rw [(settleMed_keeps _).ecc (by decide), if_pos hscrub]
    have hvisit : ∀ u : State, (if s.bit Reg.ECC_SCRUB_CTRL 0 0 && last then (visitWork m e x both held u).pulse 440
        else visitWork m e x both held u).ecc = u.ecc := fun u => by
      split
      · exact ((pulse_keeps _ _).ecc (by decide)).trans (visitWork_ecc x both held hmem u)
      · exact visitWork_ecc x both held hmem u
    exact congrArg Ecc.mem (hvisit { s with ecc := { s.ecc with mem := if last then 0 else m.val } })

end Sys2Proof.Waking
